-- ==== Sys2Proof/Word.lean ====
section
/-!
DEFINITION. The words of the module: bytes, 32-bit and 64-bit words (00_scope.md, numbers and units).
-/
namespace Sys2Proof

/-- A byte. -/
abbrev Byte := BitVec 8
/-- A 32-bit register word. -/
abbrev W32 := BitVec 32
/-- A 64-bit register word. -/
abbrev W64 := BitVec 64

end Sys2Proof
end

