-- ==== Sys2Proof/Syntax.lean ====
section
/-!
DEFINITION. The commands of the block, one constructor per row of spec/opcode_table.json, in the table's order.
The table gives its rows no fields: each operand is what the row's rule needs to be told by the sender (the unit it
concerns, the value written) or by the outside world (what a pin, a link partner or an analog measurement did).
-/
namespace Sys2Proof

/-- The requesters of R17 and R38. -/
inductive Rq
  | host
  | hk
  | needle (n : Fin 16)
  | cmdq (q : Fin 4096)
  | xfer (c : Fin 64)
  deriving DecidableEq, Repr, Inhabited

/-- One write of a frame: who writes, the BAR0 offset, the size in bytes and the data (R16, R36, R38). -/
structure BusWr where
  rq : Rq
  addr : Nat
  size : Nat
  data : W64
  deriving DecidableEq, Repr

/-- A line of 64 bytes as eight little-endian 64-bit words (R4): a command entry or a descriptor. -/
structure Line where
  w0 : W64
  w1 : W64
  w2 : W64
  w3 : W64
  w4 : W64
  w5 : W64
  w6 : W64
  w7 : W64
  deriving DecidableEq, Repr, Inhabited

/-- How a read of host memory ends (R339, R352). -/
inductive ReadEnd
  | ok | ur | ca | timeout | poison
  deriving DecidableEq, Repr, Inhabited

/-- What the calibration of a sub-converter has measured (R81): the sums of 500,000 codes at -225 mV and at +225 mV, and
the hits of each of the 1,024 codes in the ramp conversions. -/
structure CalData where
  sumL : Nat
  sumH : Nat
  hits : List Nat
  deriving DecidableEq, Repr

/-- The messages of IEEE 1588-2019 (R113). -/
inductive PtpMsg
  | sync | followUp | delayReq | delayResp | pdelayReq | pdelayResp | pdelayRespFollowUp | announce | signaling
  | management
  deriving DecidableEq, Repr

/-- A message that reaches the PTP clock, its domain, and the state in which it leaves the port (R113). -/
structure PtpRx where
  msg : PtpMsg
  domain : Byte
  state : Fin 16
  deriving DecidableEq, Repr

/-- What the fit of a swatch gives where frames are missing from a capture, of which R89 says nothing: whether an amplitude is
beyond its limits, and for each capture the phases of the eight track-and-holds in 2^-51 turn (0 where the list ends). -/
structure SwatchFit where
  badAmp : Bool
  phases : List (List (BitVec 51))
  deriving DecidableEq, Repr

/-- What a received Ethernet frame carries (R380): a request to an address, a PTP message, a UDP datagram over IPv4 or
IPv6 (`plain`: without fragments, options or extension headers), or anything else. -/
inductive EthBody
  | arp (target : BitVec 32)
  | nd (target : BitVec 128)
  | echo4 (dst : BitVec 32)
  | echo6 (dst : BitVec 128)
  | ptp
  | udp (v6 plain : Bool) (src dst : BitVec 128) (sport dport : BitVec 16) (datagram : List Byte)
  | other
  deriving DecidableEq, Repr, Inhabited

/-- A received Ethernet frame: whether its FCS and size are good, its destination MAC address and its body. -/
structure EthFrame where
  good : Bool
  dmac : BitVec 48
  body : EthBody
  deriving DecidableEq, Repr

/-- The wake sources of R432: a host-initiated exit from L1 with a request, a doorbell write, the time of HK_WAKE_TICK, a
rising edge of a trigger bus line, a rising edge of PPS_IN. -/
inductive WakeSrc
  | host | doorbell | time | trigger (line : Fin 16) | pps
  deriving DecidableEq, Repr, Inhabited

/-- What a quarry channel finds fitted (R300, R301): DIMMs, their kind, and the capacity left beside the spare area, in
64 KiB. -/
structure Dimm where
  count : Fin 3 := 0
  rdimm : Bool := true
  x8 : Bool := false
  ppr : Bool := false
  kib64 : BitVec 22 := 0
  deriving DecidableEq, Repr, Inhabited


/-- The commands, in the order of the opcode table. -/
inductive Instr
  /-- REGISTER_WRITE (R38). -/
  | registerWrite (ws : List BusWr)
  /-- HIGH_HALF_WRITE (R16). -/
  | highHalfWrite (rq : Rq) (addr : Nat) (v : W32)
  /-- LOW_HALF_WRITE (R17). -/
  | lowHalfWrite (rq : Rq) (addr : Nat) (v : W32)
  /-- LOW_HALF_READ (R18). -/
  | lowHalfRead (rq : Rq) (addr : Nat)
  /-- HIGH_HALF_READ (R18). -/
  | highHalfRead (rq : Rq) (addr : Nat)
  /-- RC_READ (R14). -/
  | rcRead (rq : Rq) (addr : Nat) (inc : W64)
  /-- BAR0_BADSIZE_ACCESS (R36). -/
  | bar0BadsizeAccess (write : Bool) (addr size : Nat)
  /-- BAR0_UNMAPPED_ACCESS (R36). -/
  | bar0UnmappedAccess (write : Bool) (addr : Nat) (wide : Bool) (data : W64)
  /-- HOLDOFF_EXPIRY (R462). -/
  | holdoffExpiry (e : Fin 640)
  /-- SAMPLE_FRAME (R42). -/
  | sampleFrame (n : Fin 4) (codes : List (BitVec 10))
  /-- SLICE_ENABLE (R65). -/
  | sliceEnable (n : Fin 4)
  /-- SLICE_DISABLE (R65). -/
  | sliceDisable (n : Fin 4)
  /-- ENABLE_CALIBRATION_DONE (R53). -/
  | enableCalibrationDone (n : Fin 4) (cal : List (Fin 88 × CalData))
  /-- ROTATION (R45). -/
  | rotation (n : Fin 4) (h : Fin 8)
  /-- SUBCONVERTER_SWAP (R46). -/
  | subconverterSwap (n : Fin 4) (h : Fin 8)
  /-- MONITOR_WINDOW_END (R48). -/
  | monitorWindowEnd (n : Fin 4) (h : Fin 8) (outside : BitVec 11)
  /-- SPARING_TRANSITION (R53). -/
  | sparingTransition (n : Fin 4) (h : Fin 8)
  /-- SPARE_CALIBRATION_DONE (R81). -/
  | spareCalibrationDone (n : Fin 4) (h : Fin 8) (cal : CalData)
  /-- FAIL_CLR_WRITE (R51). -/
  | failClrWrite (n : Fin 4) (h : Fin 8) (umask : BitVec 11)
  /-- DAC_ROUTE_WRITE (R62). -/
  | dacRouteWrite (n : Fin 4) (v : W32)
  /-- INJECTION_SWITCH (R62). -/
  | injectionSwitch (n : Fin 4)
  /-- SLICE_CLOCK_LOSS (R65). -/
  | sliceClockLoss (n : Fin 4)
  /-- SLICE_CLOCK_LOCK (R106). -/
  | sliceClockLock (n : Fin 4)
  /-- CORRECTED_FRAME (R68). -/
  | correctedFrame (c : Fin 4)
  /-- TABLE_COMMIT_SUB (R75). -/
  | tableCommitSub (n : Fin 4) (tim : Bool)
  /-- TABLE_COMMIT_TIM (R75). -/
  | tableCommitTim (n : Fin 4)
  /-- COMMIT_EFFECT (R75). -/
  | commitEffect (n : Fin 4)
  /-- TBL_SWITCH (R76). -/
  | tblSwitch (n : Fin 4)
  /-- TABLE_WINDOW_WRITE (R76). -/
  | tableWindowWrite (n : Fin 4) (ofs : BitVec 18) (v : W32)
  /-- NOSPARE_MATCHING (R83). -/
  | nospareMatching (n : Fin 4) (h : Fin 8) (gains : List (BitVec 16))
  /-- SKEW_UPDATE (R86). -/
  | skewUpdate (n : Fin 4)
  /-- SWATCH_START (R87). -/
  | swatchStart (n : Fin 4)
  /-- SWATCH_CAPTURE (R88). -/
  | swatchCapture (n : Fin 4)
  /-- SWATCH_ROUTE_OFF (R88). -/
  | swatchRouteOff (n : Fin 4)
  /-- SWATCH_RESULT (R89). -/
  | swatchResult (n : Fin 4) (fit : SwatchFit)
  /-- TABLE_FLASH_SAVE (R80). -/
  | tableFlashSave (n : Fin 4)
  /-- REF_PRESENT (R94). -/
  | refPresent (mhz100 : Bool) (err : W64)
  /-- REF_ABSENT (R94). -/
  | refAbsent
  /-- EXT_PRESENT (R94). -/
  | extPresent (err : W64)
  /-- EXT_ABSENT (R94). -/
  | extAbsent (err : W64)
  /-- QUALIFICATION_EXPIRY (R95). -/
  | qualificationExpiry (err : W64)
  /-- SYNTH_LOCK (R107). -/
  | synthLock
  /-- SYNTH_UNLOCK (R106). -/
  | synthUnlock
  /-- TIME_STEP (R105). -/
  | timeStep
  /-- HOLDOVER_EXIT (R105). -/
  | holdoverExit
  /-- ORIGIN_GO (R101). -/
  | originGo (boundary : BitVec 2)
  /-- ORIGIN_SET (R101). -/
  | originSet
  /-- TICK_WRAP (R100). -/
  | tickWrap
  /-- PPS_IN (R112). -/
  | ppsIn (sample : Fin 64) (frac : BitVec 16) (err : W64)
  /-- PPS_MISSING (R112). -/
  | ppsMissing
  /-- PPS_OUT (R112). -/
  | ppsOut
  /-- TB_NOW0_READ (R110). -/
  | tbNow0Read (rq : Rq)
  /-- SNAPSHOT_WORD_READ (R110). -/
  | snapshotWordRead (rq : Rq) (addr : Nat)
  /-- PTP_MESSAGE (R113). -/
  | ptpMessage (rx : PtpRx) (master : Option (W64 × W64))
  /-- TRG_EN_WRITE (R117). -/
  | trgEnWrite (u : Fin 8) (en : Bool)
  /-- TRG_ARM_ARM (R129). -/
  | trgArmArm (u : Fin 8)
  /-- TRG_ARM_DISARM (R129). -/
  | trgArmDisarm (u : Fin 8)
  /-- ARMING_EFFECT (R129). -/
  | armingEffect (u : Fin 8)
  /-- TRG_FORCE (R119). -/
  | trgForce (u : Fin 8)
  /-- LEVEL_SOURCE_CHANGE (R119). -/
  | levelSourceChange (u : Fin 8)
  /-- TCMP_LOAD (R119). -/
  | tcmpLoad (u : Fin 8) (era : BitVec 8)
  /-- TIME_COMPARE (R119). -/
  | timeCompare (u : Fin 8)
  /-- TIMED_TRIGGER_MESSAGE (R119). -/
  | timedTriggerMessage (u : Fin 8)
  /-- TRIGGER_DECISION (R132). -/
  | triggerDecision (u : Fin 8) (f : Nat)
  /-- PRF_COMMIT (R137). -/
  | prfCommit (u : Fin 8)
  /-- PRF_SWITCH (R137). -/
  | prfSwitch (u : Fin 8)
  /-- LANE_ENABLE (R495). -/
  | laneEnable (l : Fin 16) (v : W32)
  /-- LANE_DISABLE (R159). -/
  | laneDisable (l : Fin 16)
  /-- LANE_FLUSH (R159). -/
  | laneFlush (l : Fin 16)
  /-- SEGMENT_REQUEST (R150). -/
  | segmentRequest (rq : Rq) (l : Fin 16) (v : W32)
  /-- REQUEST_ACTIVE (R151). -/
  | requestActive (l : Fin 16)
  /-- HOIST_WINDOW_PLACED (R155). -/
  | hoistWindowPlaced (l : Fin 16)
  /-- STAGE_STORE_FRAME (R30). -/
  | stageStoreFrame (k : Nat) (stalled : BitVec 16)
  /-- SEGMENT_END (R159). -/
  | segmentEnd (l : Fin 16)
  /-- SEGMENT_RECORD (R163). -/
  | segmentRecord (l : Fin 16)
  /-- RECORD_DRAIN (R165). -/
  | recordDrain
  /-- CLOSE_ENTRY_FREED (R165). -/
  | closeEntryFreed (l : Fin 16)
  /-- SKEIN_DEFINE (R146). -/
  | skeinDefine (k : Fin 64)
  /-- SKEIN_REWIND (R155). -/
  | skeinRewind (k : Fin 64)
  /-- DEC_COMMIT (R170). -/
  | decCommit (u : Fin 16)
  /-- DEC_ENABLE (R178). -/
  | decEnable (u : Fin 16) (en : Bool)
  /-- DEC_RESTART (R178). -/
  | decRestart (u : Fin 16)
  /-- DEC_SYNC_GO (R185). -/
  | decSyncGo
  /-- TIMED_SYNC (R185). -/
  | timedSync
  /-- DEC_ITEM_DELIVERY (R180). -/
  | decItemDelivery (u : Fin 16)
  /-- FAST_PATH_ITEM (R182). -/
  | fastPathItem (u : Fin 16)
  /-- SETTLED (R183). -/
  | settled (u : Fin 16)
  /-- TALLY_START (R212). -/
  | tallyStart (j : Fin 8) (clr : Bool)
  /-- TALLY_CLEAR_DONE (R212). -/
  | tallyClearDone (j : Fin 8)
  /-- TALLY_STOP (R198). -/
  | tallyStop (j : Fin 8)
  /-- TALLY_PAUSE (R201). -/
  | tallyPause (j : Fin 8)
  /-- TALLY_PAUSED (R201). -/
  | tallyPaused (j : Fin 8)
  /-- TALLY_RESUME (R201). -/
  | tallyResume (j : Fin 8)
  /-- TALLY_TRIGGER (R196). -/
  | tallyTrigger (j : Fin 8)
  /-- TALLY_RECORD_COMPLETE (R197). -/
  | tallyRecordComplete (j : Fin 8)
  /-- HALVING_DONE (R205). -/
  | halvingDone (j : Fin 8)
  /-- FOLD_COMPLETE (R211). -/
  | foldComplete (j : Fin 8)
  /-- MASK_VERDICT (R206). -/
  | maskVerdict (j : Fin 8)
  /-- TALLY_MASK_STOP (R209). -/
  | tallyMaskStop (j : Fin 8)
  /-- TALLY_SPACE_WRITE (R210). -/
  | tallySpaceWrite (ofs : BitVec 28) (data : List Byte)
  /-- EVI_GMODE_WRITE (R217). -/
  | eviGmodeWrite (v : BitVec 16)
  /-- GROUP_READY (R217). -/
  | groupReady (g : Fin 8)
  /-- EVENT_EDGE (R219). -/
  | eventEdge (e : Fin 128) (k : Nat) (bin : Fin 160) (rise : Bool)
  /-- LOGIC_SAMPLE (R218). -/
  | logicSample (g : Fin 8) (k : Nat) (samples : List (BitVec 16))
  /-- STAMP_COLLECT (R223). -/
  | stampCollect
  /-- BATCH_TIMEOUT (R224). -/
  | batchTimeout (e : Fin 128)
  /-- EVI_ICFG_WRITE (R224). -/
  | eviIcfgWrite (e : Fin 128) (v : W32)
  /-- GAUGE_START (R227). -/
  | gaugeStart (e : Fin 128)
  /-- GAUGE_AUTO (R229). -/
  | gaugeAuto (e : Fin 128)
  /-- GAUGE_RESULT (R228). -/
  | gaugeResult (hits : List Nat)
  /-- INTERVAL_DRAIN (R231). -/
  | intervalDrain (u : Fin 32)
  /-- IU_CFG_WRITE (R233). -/
  | iuCfgWrite (u : Fin 32) (v : W32)
  /-- NEEDLE_GO (R241). -/
  | needleGo (n : Fin 16)
  /-- NEEDLE_STOP (R241). -/
  | needleStop (n : Fin 16)
  /-- MOV (R263). -/
  | zMov (n : Fin 16)
  /-- LDI (R264). -/
  | zLdi (n : Fin 16)
  /-- ADD (R263). -/
  | zAdd (n : Fin 16)
  /-- SUB (R263). -/
  | zSub (n : Fin 16)
  /-- AND (R263). -/
  | zAnd (n : Fin 16)
  /-- OR (R263). -/
  | zOr (n : Fin 16)
  /-- XOR (R263). -/
  | zXor (n : Fin 16)
  /-- SHL (R263). -/
  | zShl (n : Fin 16)
  /-- SHR (R263). -/
  | zShr (n : Fin 16)
  /-- CMP (R263). -/
  | zCmp (n : Fin 16)
  /-- LD (R263). -/
  | zLd (n : Fin 16)
  /-- ST (R263). -/
  | zSt (n : Fin 16)
  /-- JMP (R266). -/
  | zJmp (n : Fin 16)
  /-- BRC (R266). -/
  | zBrc (n : Fin 16)
  /-- CALL (R266). -/
  | zCall (n : Fin 16)
  /-- RET (R266). -/
  | zRet (n : Fin 16)
  /-- NOP (R278). -/
  | zNop (n : Fin 16)
  /-- LOOP (R267). -/
  | zLoop (n : Fin 16)
  /-- ENDLOOP (R267). -/
  | zEndloop (n : Fin 16)
  /-- SETF (R269). -/
  | zSetf (n : Fin 16)
  /-- GETF (R269). -/
  | zGetf (n : Fin 16)
  /-- CASTON (R248). -/
  | zCaston (n : Fin 16)
  /-- BINDOFF (R250). -/
  | zBindoff (n : Fin 16)
  /-- ARM (R270). -/
  | zArm (n : Fin 16)
  /-- DISARM (R270). -/
  | zDisarm (n : Fin 16)
  /-- SEG (R271). -/
  | zSeg (n : Fin 16)
  /-- SYNC (R270). -/
  | zSync (n : Fin 16)
  /-- DELAY (R272). -/
  | zDelay (n : Fin 16)
  /-- WAITT (R246). -/
  | zWaitt (n : Fin 16)
  /-- WAITTRIG (R273). -/
  | zWaittrig (n : Fin 16)
  /-- WAITE (R273). -/
  | zWaite (n : Fin 16)
  /-- WAITSEG (R274). -/
  | zWaitseg (n : Fin 16)
  /-- FENCE (R278). -/
  | zFence (n : Fin 16)
  /-- POST (R275). -/
  | zPost (n : Fin 16)
  /-- SIGNAL (R276). -/
  | zSignal (n : Fin 16)
  /-- MARK (R276). -/
  | zMark (n : Fin 16)
  /-- TONE (R277). -/
  | zTone (n : Fin 16)
  /-- PLAY (R277). -/
  | zPlay (n : Fin 16)
  /-- YIELD (R278). -/
  | zYield (n : Fin 16)
  /-- HALT (R278). -/
  | zHalt (n : Fin 16)
  /-- FIELD_WRITE_APPLY (R243). -/
  | fieldWriteApply (n : Fin 16)
  /-- FIELD_READ_SERVE (R244). -/
  | fieldReadServe (n : Fin 16)
  /-- REPORT_APPLY (R275). -/
  | reportApply (n : Fin 16)
  /-- WAIT_COMPLETE (R246). -/
  | waitComplete (n : Fin 16)
  /-- REPLACE_GO (R253). -/
  | replaceGo (n : Fin 16)
  /-- REPLACE_CANCEL (R253). -/
  | replaceCancel (n : Fin 16)
  /-- PROG_STORE_WRITE (R239). -/
  | progStoreWrite (ofs : BitVec 20) (data : List Byte)
  /-- NEEDLE_WINDOW_WRITE (R258). -/
  | needleWindowWrite (addr : BitVec 20) (wide : Bool) (v : W64)
  /-- MARKER_PULSE_END (R276). -/
  | markerPulseEnd (x : Fin 48)
  /-- STIM_ENABLE (R285). -/
  | stimEnable (u : Fin 4)
  /-- STIM_DISABLE (R295). -/
  | stimDisable (u : Fin 4)
  /-- PLAY_SUBMIT (R286). -/
  | playSubmit (u : Fin 4) (kind : Fin 4)
  /-- GRANULE_BOUNDARY (R281). -/
  | granuleBoundary (u : Fin 4)
  /-- JUMP_ARRIVAL (R288). -/
  | jumpArrival (u : Fin 4)
  /-- PREFETCH_RECORD (R289). -/
  | prefetchRecord (u : Fin 4)
  /-- STIM_CLEAR (R291). -/
  | stimClear (u : Fin 4)
  /-- STATIC_TONE_WRITE (R284). -/
  | staticToneWrite (u : Fin 4) (k : Fin 4) (tpa : Bool) (v : W64)
  /-- HOIST_TARGET_ENABLE (R306). -/
  | hoistTargetEnable (t : Fin 64) (v : W32)
  /-- REPLAY_GO (R305). -/
  | replayGo (t : Fin 64)
  /-- HOIST_PIECE (R307). -/
  | hoistPiece
  /-- HOIST_ENTRY (R308). -/
  | hoistEntry (t : Fin 64)
  /-- REPLAY_DONE (R308). -/
  | replayDone (t : Fin 64)
  /-- HOIST_RELEASE_WRITE (R307). -/
  | hoistReleaseWrite (t : Fin 64) (rel : BitVec 48)
  /-- DROP_RUN_END (R310). -/
  | dropRunEnd (l : Fin 16)
  /-- QUARRY_REQUEST (R302). -/
  | quarryRequest (c : Fin 16) (cls : Fin 4) (read : Bool) (slots : Nat)
  /-- HOST_DEFER_EXPIRY (R304). -/
  | hostDeferExpiry (c : Fin 16)
  /-- REFRESH_DUE (R312). -/
  | refreshDue (c : Fin 16) (rank : Fin 8)
  /-- PATROL_SCRUB (R313). -/
  | patrolScrub
  /-- MEMORY_ERROR (R313). -/
  | memoryError (quarry : Bool) (block : BitVec 38) (ue : Bool) (row : BitVec 27)
  /-- ROW_COPY_DONE (R314). -/
  | rowCopyDone (c : Fin 16)
  /-- CHANNEL_RETIRE (R316). -/
  | channelRetire (c : Fin 16)
  /-- RETIRE_CLEAR (R317). -/
  | retireClear
  /-- MIGRATION_BATCH_DONE (R317). -/
  | migrationBatchDone
  /-- FREQ_CHANGE_GO (R320). -/
  | freqChangeGo (p : Fin 4)
  /-- FREQ_CHANGE_BEGIN (R320). -/
  | freqChangeBegin (own : Option (Fin 4))
  /-- FREQ_DONE (R320). -/
  | freqDone
  /-- SELF_REFRESH_ENTRY (R319). -/
  | selfRefreshEntry (c : Fin 16)
  /-- LINK_UP (R346). -/
  | linkUp (rate : Fin 6) (width : Fin 5)
  /-- LINK_DOWN (R347). -/
  | linkDown
  /-- LINK_CHANGE (R346). -/
  | linkChange (rate : Fin 6) (width : Fin 5)
  /-- QUEUE_ALLOC (R328). -/
  | queueAlloc (any : Bool) (q : Fin 4096)
  /-- QUEUE_FREE (R328). -/
  | queueFree (q : Fin 4096)
  /-- QUEUE_ENABLE (R330). -/
  | queueEnable (q : Fin 4096)
  /-- QUEUE_DISABLE (R347). -/
  | queueDisable (q : Fin 4096)
  /-- DOORBELL (R333). -/
  | doorbell (q : Fin 4096) (idx : BitVec 21)
  /-- COMMAND_FETCH (R339). -/
  | commandFetch (q : Fin 4096) (ending : ReadEnd) (entry : Line)
  /-- COMMAND_NOP (R337). -/
  | commandNop (q : Fin 4096)
  /-- COMMAND_WRITE (R337). -/
  | commandWrite (q : Fin 4096)
  /-- COMMAND_READ (R337). -/
  | commandRead (q : Fin 4096)
  /-- COMMAND_WRITE_AT (R337). -/
  | commandWriteAt (q : Fin 4096)
  /-- QUEUE_ITEM_WRITE (R332). -/
  | queueItemWrite (q : Fin 4096)
  /-- INTERRUPT_TIMEOUT (R342). -/
  | interruptTimeout (q : Fin 4096)
  /-- QUE_INT_WRITE (R342). -/
  | queIntWrite (q : Fin 4096) (v : W32)
  /-- MSIX_MESSAGE (R343). -/
  | msixMessage (v : Fin 2048)
  /-- VECTOR_UNMASK (R343). -/
  | vectorUnmask (v : Fin 2048) (addr : W64) (data : W32)
  /-- MOD_FR_EXPIRY (R343). -/
  | modFrExpiry (v : Fin 2048)
  /-- APERTURE_READ (R327). -/
  | apertureRead (x : BitVec 36) (len : Fin 4097)
  /-- APERTURE_WRITE (R327). -/
  | apertureWrite (x : BitVec 36) (data : List Byte)
  /-- EVENT_RAISED (R344). -/
  | eventRaised (e : Fin 640)
  /-- EVENT_LOG_WRITE (R345). -/
  | eventLogWrite
  /-- XFER_GO (R357). -/
  | xferGo (c : Fin 64)
  /-- XFER_KICK (R359). -/
  | xferKick (c : Fin 64)
  /-- XFER_ABORT (R363). -/
  | xferAbort (c : Fin 64)
  /-- DESCRIPTOR_FETCH (R352). -/
  | descriptorFetch (c : Fin 64) (ending : ReadEnd) (line : Line)
  /-- XFER_PIECE (R353). -/
  | xferPiece (c : Fin 64) (ending : ReadEnd) (data : List Byte)
  /-- XFER_READBACK (R356). -/
  | xferReadback (c : Fin 64) (ending : ReadEnd)
  /-- PORT_ENABLE (R369). -/
  | portEnable (p : Fin 3) (v : W32)
  /-- PORT_DISABLE (R383). -/
  | portDisable (p : Fin 3)
  /-- ETH_FRAME_RX (R380). -/
  | ethFrameRx (p : Fin 3) (sub : Fin 4) (arrival : BitVec 10) (f : EthFrame)
  /-- ARP_ND_ECHO (R380). -/
  | arpNdEcho (p : Fin 3)
  /-- CREDIT (R373). -/
  | credit (t : Fin 64) (ack limit : BitVec 48)
  /-- NACK (R374). -/
  | nack (t : Fin 64) (ack limit : BitVec 48) (runs : List (BitVec 48 × BitVec 16))
  /-- FIRE_AT (R378). -/
  | fireAt (p : Fin 3) (sub : Fin 4) (arrival : BitVec 10) (datagram : List Byte)
  /-- PACKET_LAUNCH (R376). -/
  | packetLaunch (t : Fin 64)
  /-- RETRANSMIT (R374). -/
  | retransmit (p : Fin 3)
  /-- CREDIT_TIMEOUT (R375). -/
  | creditTimeout (t : Fin 64)
  /-- FA_KEY_WRITE (R383). -/
  | faKeyWrite (k : Fin 4) (word : Fin 8) (v : W32)
  /-- SUBPORT_LINK_UP (R384). -/
  | subportLinkUp (p : Fin 3) (sub : Fin 4)
  /-- SUBPORT_LINK_DOWN (R383). -/
  | subportLinkDown (p : Fin 3) (sub : Fin 4)
  /-- OWNERSHIP_WRITE (R387). -/
  | ownershipWrite (v : BitVec 16)
  /-- PIN_EDGE (R391). -/
  | pinEdge (x : Fin 48) (level : Bool) (sample : Fin 64) (frac : BitVec 16)
  /-- FILTERED_CHANGE (R391). -/
  | filteredChange (x : Fin 48)
  /-- OUTPUT_LAUNCH (R389). -/
  | outputLaunch (x : Fin 48)
  /-- CONTENTION (R390). -/
  | contention (x : Fin 48) (level : Bool)
  /-- FAULT_CLEAR (R390). -/
  | faultClear (x : Fin 48)
  /-- MSG_MODE_ENABLE (R395). -/
  | msgModeEnable (v : W32)
  /-- MSG_TX_GO (R397). -/
  | msgTxGo (v : W32)
  /-- WORD_SEND_START (R397). -/
  | wordSendStart
  /-- BACKOFF_EXPIRY (R397). -/
  | backoffExpiry
  /-- MSG_TX (R397). -/
  | msgTx
  /-- MSG_FRAME_RX (R398). -/
  | msgFrameRx (framed : Bool) (word : W32) (crc : Byte) (ago : BitVec 10) (sample : Fin 64) (frac : BitVec 16)
  /-- PING_GO (R394). -/
  | pingGo (v : W32)
  /-- PING_PULSE (R394). -/
  | pingPulse
  /-- PING_REPLY (R394). -/
  | pingReply
  /-- PING_DONE (R394). -/
  | pingDone
  /-- PING_TIMEOUT (R394). -/
  | pingTimeout
  /-- CANVAS_ENABLE (R407). -/
  | canvasEnable (c : Fin 2)
  /-- RAS_GO (R411). -/
  | rasGo (c : Fin 2)
  /-- PASS_START (R411). -/
  | passStart (c : Fin 2)
  /-- PASS_END (R411). -/
  | passEnd (c : Fin 2)
  /-- DPY_COMMIT_A (R417). -/
  | dpyCommitA
  /-- DPY_COMMIT_B (R417). -/
  | dpyCommitB
  /-- VBLANK (R418). -/
  | vblank (x : Fin 2) (tick : Fin 64)
  /-- VRR_PORCH_END (R414). -/
  | vrrPorchEnd
  /-- FRONT_BUFFER_SAMPLE (R415). -/
  | frontBufferSample (x : Fin 2)
  /-- TE_EDGE (R420). -/
  | teEdge (tick : Fin 64)
  /-- TE_MISS (R420). -/
  | teMiss
  /-- REPAIR (R421). -/
  | repair
  /-- FETCH_UNDERRUN (R421). -/
  | fetchUnderrun (x : Fin 2) (n : BitVec 24)
  /-- DA_HOT_PLUG (R424). -/
  | daHotPlug
  /-- STANDBY (R430). -/
  | standby (dormant : Bool)
  /-- WAKE (R432). -/
  | wake
  /-- WAKE_SOURCE (R432). -/
  | wakeSource (src : WakeSrc)
  /-- MAIN_PG_RISE (R432). -/
  | mainPgRise
  /-- WAKE_COMPLETE (R433). -/
  | wakeComplete
  /-- PD_OFF (R427). -/
  | pdOff (dom : BitVec 7)
  /-- PD_LINGER_EXPIRY (R426). -/
  | pdLingerExpiry (dom : Fin 96)
  /-- SOFT_RESET (R435). -/
  | softReset (key : Byte)
  /-- WARM_RESET (R435). -/
  | warmReset (key : Byte)
  /-- PERST (R434). -/
  | perst
  /-- HOT_RESET (R347). -/
  | hotReset
  /-- FUNCTION_LEVEL_RESET (R347). -/
  | functionLevelReset
  /-- DRAIN_END (R435). -/
  | drainEnd
  /-- SUPPLY_FAULT (R428). -/
  | supplyFault
  /-- AON_POWER_ON (R434). -/
  | aonPowerOn
  /-- BOOT (R438). -/
  | boot (good : Bool × Bool)
  /-- TEMP_WARN (R437). -/
  | tempWarn (t : BitVec 16)
  /-- TEMP_CRIT (R437). -/
  | tempCrit (t : BitVec 16)
  /-- TEMP_OK (R437). -/
  | tempOk (t : BitVec 16)
  /-- THERMAL_TRIP (R437). -/
  | thermalTrip
  /-- FW_STAGE (R439). -/
  | fwStage (good : Bool) (version : W32) (epoch : BitVec 6)
  /-- FW_SWITCH (R439). -/
  | fwSwitch
  /-- FW_SWITCH_START (R439). -/
  | fwSwitchStart
  /-- FW_CONFIRM (R439). -/
  | fwConfirm
  /-- FW_WATCHDOG (R439). -/
  | fwWatchdog
  /-- PROVISION (R448). -/
  | provision (fuses : Bool)
  /-- FIELD (R448). -/
  | field_ (fuses : Bool)
  /-- OWNER_ADD (R448). -/
  | ownerAdd (fuses : Bool)
  /-- OWNER_REVOKE (R448). -/
  | ownerRevoke (fuses : Bool)
  /-- DEBUG (R449). -/
  | debug
  /-- RETURN (R450). -/
  | return_ (fuses : Bool)
  /-- GET_VERSION (R453). -/
  | getVersion
  /-- GET_CAPABILITIES (R453). -/
  | getCapabilities
  /-- NEGOTIATE_ALGORITHMS (R453). -/
  | negotiateAlgorithms
  /-- GET_DIGESTS (R453). -/
  | getDigests
  /-- GET_CERTIFICATE (R453). -/
  | getCertificate (slot : Fin 8)
  /-- CHALLENGE (R453). -/
  | challenge (slot : Fin 8)
  /-- GET_MEASUREMENTS (R452). -/
  | getMeasurements (index : Byte)
  /-- KEY_EXCHANGE (R453). -/
  | keyExchange
  /-- FINISH (R453). -/
  | finish (ses : Fin 2)
  /-- KEY_UPDATE (R453). -/
  | keyUpdate (ses : Fin 2)
  /-- HEARTBEAT (R453). -/
  | heartbeat (ses : Fin 2)
  /-- END_SESSION (R453). -/
  | endSession (ses : Fin 2)
  /-- VENDOR_DEFINED_REQUEST (R454). -/
  | vendorDefinedRequest (ses : Fin 2) (stream : Fin 2) (key : Option (BitVec 256))
  /-- IDE_ERROR (R454). -/
  | ideError (stream : Fin 2)
  /-- TEST_SESSION_START (R467). -/
  | testSessionStart (ses : Fin 8) (v : W32)
  /-- TEST_SESSION_END (R470). -/
  | testSessionEnd (ses : Fin 8) (bits errs : W64)
  /-- PCIE_LOOPBACK (R466). -/
  | pcieLoopback
  /-- BLOCK_READY (R40). -/
  | blockReady (dom : Fin 96) (dimm : Dimm)
  /-- AON_POWER_LOSS (R429). -/
  | aonPowerLoss
  /-- CHECKER_LOCK (R469). -/
  | checkerLock (ses : Fin 8)
  /-- CHECKER_LOCK_LOSS (R469). -/
  | checkerLockLoss (ses : Fin 8) (bits errs : W64)
  /-- GAUGE_TABLE_SAVE (R229). -/
  | gaugeTableSave
  /-- DA_LINK_TRAINED (R413). -/
  | daLinkTrained (trained : Option (Fin 4 × Fin 3))
  deriving DecidableEq, Repr

end Sys2Proof
end

