-- ==== Sys2Proof/Decode.lean ====
section
/-!
DEFINITION. The command that a word of the opcode table's bits spells. The table gives none of its rows fields or bits
(the module is commanded over its link, its buses and its pins), so no word spells one. The instruction words that the
needles run are decoded in Machine/Operands.lean and Machine/Zhervo.lean.
-/
namespace Sys2Proof

/-- No row of the opcode table has bits. -/
def decodeTableWord (_nbits _w : Nat) : Option Instr := none

end Sys2Proof
end

