-- ==== Sys2Proof/Config.lean ====
section
/-!
DEFINITION. What an implementation, its manufacture or chance fixes and the spec leaves open: opaque constants without a
body, so that no proof can rest on a value of them (log entries 2 and 12).
-/
namespace Sys2Proof.Config

/-- The free values, drawn in order by the state's counter `freeSeq`. -/
opaque free : Nat → W64
/-- STM_OUT_DLY and STM_INJ_DLY of a stimulus unit, set at manufacture (R297). -/
opaque stmOutDelay : Nat → W64
opaque stmInjDelay : Nat → W64
/-- ETH_PTP_DLY of a port, set at manufacture (R385). -/
opaque ptpDelay : Nat → W64
/-- SEC_UID: the fused identity (R457). -/
opaque uid : W64

/-- SEC_NONCE after the first AON power-on: random (R457). -/
opaque nonce : W64
/-- The hash of the vendor root key in the boot ROM (R445). -/
opaque vendorKey : List Byte

/-- The fixed coefficients of the decimation units, which the spec leaves to the ROM windows (R173, R174, R176): entry
and tap of the compensation filters, phase and tap of the resampler, preset and tap of the metrology filters. Of a
symmetric filter the first half is read. -/
opaque decComp : Nat → Nat → BitVec 20
opaque decRes : Nat → Nat → BitVec 20
opaque decFir : Nat → Nat → BitVec 24

/-- A byte of the tally column that a halving pass is rewriting (R205): the frame and the address of the read. -/
opaque rewriting : Nat → Nat → BitVec 8

/-- The vendor's fixed interpolator of a track-and-hold in INTERP (R56, R72): its value from the 24 neighbouring b values
of the other track-and-holds. -/
opaque interp : List Int → Int

/-- A corrected sample that no valid frame holds and a filter or a placement near it needs: channel and number of the
sample (log entry 11). -/
opaque missingSample : Nat → Int → Int

/-- The level of an input's pad at a logic sample that the group has not taken, or not yet, and that the input's delay asks for:
input and number of the sample (log entry 20). -/
opaque missingLevel : Nat → Int → Bool

/-- The CRC-16 of a component's bytes over a frame that the DisplayPort test CRC defines (R469): the spec names it and does not
state it (log entry 51). -/
opaque testCrc : List (BitVec 8) → BitVec 16

/-- The SHA-384 hash that a measurement register takes of what it measures: the spec leaves the form of the message open
(R452, log entry 25). -/
opaque measured : Nat → List Nat → BitVec 384

end Sys2Proof.Config
end

