-- ==== Sys2Proof/Machine/Regs.lean ====
section
/-!
DEFINITION. The register map of BAR0: one constructor of `Rg` per family of registers that the spec's maps list,
its place in BAR0 and its fields with their access codes (R14) and reset values. The maps are R37, R67, R93, R115,
R143, R168, R191, R215, R236, R258, R297, R323, R348, R367, R385, R404, R425, R444, R457, R461 and R472.
A family whose name ends in _ACT is the read-only active copy that the spec's map gives beside the staging one.
-/
namespace Sys2Proof.Machine

/-- The families of registers, one constructor per name of the spec's maps. -/
inductive Rg
  | GLB_ID
  | GLB_REV
  | GLB_ACC_ERR
  | CV_SCTL
  | CV_SSTAT
  | CV_ROT_PERIOD
  | CV_OVR_CNT
  | CV_NRDY_CNT
  | CV_SWAP_CNT
  | CV_FAIL_CLR
  | CV_DAC_CTL
  | CV_DEGWIN_START
  | CV_DEGWIN_END
  | CV_DEGWIN_SEQ
  | CV_GRP_STAT
  | CV_SLOTMAP
  | CV_CORR_CTL
  | CV_TBL_COMMIT
  | CV_TBL_STAT
  | CV_TBL_DROP
  | CV_CLIP_CNT
  | CV_TSW_TICK
  | CV_SUB_ARM
  | CV_SUB_ACT
  | CV_SUB_DISC
  | CV_SKW_CTL
  | CV_SKW_PMIN
  | CV_SKW_STAT
  | CV_SKW_DLT
  | CV_SWATCH_TAU
  | CV_SWATCH_CTL
  | CV_SWATCH_FREQ
  | CV_SWATCH_STAT
  | TB_REF_CTL
  | TB_REF_STAT
  | TB_NOW
  | TB_PPS_CAP
  | TB_ORIGIN_CTL
  | TB_TAI_SEC
  | TB_TAI_OFS
  | TB_SLEW
  | TB_PHASE_ERR
  | TB_PPS_CTL
  | TB_PTP_CTL
  | TB_LOSS_CNT
  | TRG_CTL
  | TRG_ARM
  | TRG_STAT
  | TRG_PRF_COMMIT
  | TRG_FORCE
  | TRG_PRE_EFF
  | TRG_TCMP_TICK
  | TRG_TCMP_CTL
  | TRG_MSG
  | TRG_LFSR
  | TRG_LAST
  | TRG_OVR_FIRST
  | TRG_CNT_ACC
  | TRG_CNT_FILL
  | TRG_CNT_HOLD
  | TRG_CNT_BUSY
  | TRG_CNT_OVR
  | TRG_CNT_LATE
  | TRG_PRF_DROP
  | TRG_CMP
  | TRG_CMP_ACT
  | TRG_SLOTA
  | TRG_SLOTA_ACT
  | TRG_SLOTB
  | TRG_SLOTB_ACT
  | TRG_SLOTA_T1
  | TRG_SLOTA_T1_ACT
  | TRG_SLOTA_T2
  | TRG_SLOTA_T2_ACT
  | TRG_SLOTB_T1
  | TRG_SLOTB_T1_ACT
  | TRG_SLOTB_T2
  | TRG_SLOTB_T2_ACT
  | TRG_SEQ_DLY
  | TRG_SEQ_DLY_ACT
  | TRG_SEQ
  | TRG_SEQ_ACT
  | TRG_HOLD
  | TRG_HOLD_ACT
  | TRG_HOLD_T
  | TRG_HOLD_T_ACT
  | TRG_HOLD_MAX
  | TRG_HOLD_MAX_ACT
  | TRG_PAT_CTL
  | TRG_PAT_CTL_ACT
  | TRG_PAT_MASK
  | TRG_PAT_MASK_ACT
  | TRG_PAT_VAL
  | TRG_PAT_VAL_ACT
  | REC_LCTL
  | REC_LSTAT
  | REC_SEGNUM
  | REC_LQUEUE
  | REC_REQ_PRE
  | REC_REQ_POST
  | REC_REQ_REPEAT
  | REC_REQ_CTL
  | REC_REQ_STAT
  | REC_CNT_REFUSED
  | REC_CNT_TRUNC
  | REC_CNT_DROPFR
  | REC_CNT_NOTICE
  | REC_CNT_ALLOCW
  | REC_CNT_SEG
  | REC_CNT_SEGWRAP
  | REC_SKN_BASE
  | REC_SKN_SIZE
  | REC_SKN_CTL
  | REC_SKN_CP
  | REC_SKN_FREE
  | REC_SKN_OLDEST
  | REC_RB_STAT
  | DEC_CTL
  | DEC_STAT
  | DEC_COMMIT
  | DEC_CFG
  | DEC_CFG_ACT
  | DEC_STEP
  | DEC_STEP_ACT
  | DEC_PHASE0
  | DEC_PHASE0_ACT
  | DEC_SETTLE_CTL
  | DEC_SETTLE_FR
  | DEC_T0
  | DEC_FAST
  | DEC_OUT
  | DEC_THR0_LEVEL
  | DEC_THR1_LEVEL
  | DEC_THR0_CTL
  | DEC_THR1_CTL
  | DEC_CNT_THR0
  | DEC_CNT_THR1
  | DEC_CNT_SAT
  | DEC_SYNC_CTL
  | DEC_SYNC_STAT
  | DEC_SYNC_TIME
  | TAL_JOB_CFG
  | TAL_JOB_PRE
  | TAL_JOB_POINTS
  | TAL_JOB_LIMIT
  | TAL_JOB_OUTER
  | TAL_JOB_DEN
  | TAL_JOB_CMD
  | TAL_JSTAT
  | TAL_JOB_COUNT
  | TAL_JOB_REC
  | TAL_JOB_PARTIAL
  | TAL_CNT_BUSY
  | TAL_CNT_FILL
  | TAL_CNT_HALVE
  | TAL_CNT_VIOL
  | TAL_CNT_VSAMP
  | TAL_MASK_CTL
  | TAL_MASK_TBL
  | TAL_FAIL_SEG
  | TAL_FAIL_TIME
  | TAL_G_WDROP
  | EVI_GMODE
  | EVI_GSTAT
  | EVI_FLUSH_TO
  | EVI_GAUGE_CTL
  | EVI_GAUGE_STAT
  | EVI_NRDY_FR
  | EVI_ICFG
  | EVI_IDLY
  | EVI_ISTAT
  | EVI_SEQ
  | EVI_CNT_STAMP
  | EVI_CNT_DEAD
  | EVI_CNT_FIFO
  | EVI_CNT_CAL
  | EVI_CNT_NOCLK
  | EVI_IU_CFG
  | EVI_IU_STAT
  | EVI_IU_CNT_EARLY
  | EVI_IU_CNT_LOST
  | EVI_IU_CNT_DROP
  | EVI_IU_CNT_RES
  | NDL_G_STAT
  | NDL_G_WDROP
  | NDL_CTL
  | NDL_STAT
  | NDL_PC
  | NDL_ENTRY
  | NDL_ENTRY_NEXT
  | NDL_FAULT_PC
  | NDL_WIN
  | NDL_WIN_NEXT
  | NDL_REPLACE
  | NDL_FAULT
  | NDL_FAULT_TICK
  | NDL_SIGCODE
  | NDL_CNT_LATE
  | NDL_CNT_ISSUE
  | NDL_CLAIM0
  | NDL_CLAIM1
  | STM_UCTL
  | STM_USTAT
  | STM_PLAY_OFS
  | STM_PLAY_LEN
  | STM_PLAY_CTL
  | STM_PLAY_STAT
  | STM_START_TICK
  | STM_UNDER_FIRST
  | STM_TFREQ
  | STM_TPA
  | STM_CNT_UNDER
  | STM_CNT_CANCEL
  | STM_CNT_REFUSED
  | STM_CNT_SAT
  | STM_CNT_PLAYED
  | STM_OUT_DLY
  | STM_INJ_DLY
  | STM_PF_STAT
  | BEN_STAT
  | BEN_THR
  | BEN_STAGE_CTL
  | BEN_HOST_DEFER
  | BEN_STAGE_USED
  | BEN_DROP_FIRST
  | BEN_CNT_DROPFR
  | BEN_CNT_CE
  | BEN_CNT_UE
  | BEN_CNT_DEFER
  | BEN_HT_CTL
  | BEN_HT_STREAM
  | BEN_HT_BASE
  | BEN_HT_SIZE
  | BEN_HT_WP
  | BEN_HT_REL
  | BEN_HT_OLDEST
  | BEN_HT_CNT_SEG
  | BEN_HT_CNT_OVW
  | BEN_QRY_CTL
  | BEN_QRY_STAT
  | BEN_QRY_CAP
  | BEN_QRY_FREQ
  | BEN_QRY_RETIRE
  | BEN_QRY_MIG
  | BEN_QRY_SCRUB
  | QRY_CSTAT
  | QRY_CNT_CE
  | QRY_CNT_UE
  | QRY_CNT_REFPOST
  | QRY_CNT_RRFULL
  | QRY_RRT
  | QUE_ALLOC
  | QUE_ALLOC_STAT
  | QUE_G_SPOIL
  | QUE_G_LOST
  | QUE_G_BADDB
  | QUE_APT_CTL
  | QUE_CNT_APT
  | QUE_APT
  | QUE_BASE
  | QUE_WB
  | QUE_CFG
  | QUE_CTL
  | QUE_DB
  | QUE_STAT
  | QUE_IDX
  | QUE_INT
  | QUE_CNT
  | EVR_CTL
  | EVR_CNT_LOST
  | EVR_PEND
  | EVR_CFG
  | XFE_G_BUSY
  | XFE_G_HALTED
  | XFE_CNT_BADGO
  | XFE_CTL
  | XFE_STAT
  | XFE_CFG
  | XFE_SRC
  | XFE_DST
  | XFE_DPTR
  | XFE_COUNT
  | XFE_NEXT
  | XFE_HOP_LIMIT
  | XFE_CQ
  | XFE_HOPS
  | ETH_CTL
  | ETH_STAT
  | ETH_RTX_BASE
  | ETH_RTX_SIZE
  | ETH_CR_CTL
  | ETH_PAY
  | ETH_HK_RATE
  | ETH_CNT_FCS
  | ETH_CNT_FOREIGN
  | ETH_CNT_BADHDR
  | ETH_CNT_UNKNOWN
  | ETH_CNT_HKDROP
  | ETH_CNT_STALE
  | ETH_CNT_RETX
  | ETH_CNT_ABANDON
  | ETH_CNT_FA_REJ
  | ETH_PTP_DLY
  | ETH_FA_Q
  | SYN_OWN
  | SYN_SYSID
  | SYN_LAUNCH_K
  | SYN_MSG_CTL
  | SYN_MSG_TX
  | SYN_MSG_STAT
  | SYN_MSG_LAST
  | SYN_LFSR
  | SYN_CNT_CONT
  | SYN_CNT_MSGBAD
  | SYN_CNT_COLL
  | SYN_CNT_TXFAIL
  | SYN_CNT_IDCLASH
  | SYN_CNT_RX
  | SYN_CNT_TX
  | SYN_PING_CTL
  | SYN_PING_STAT
  | SYN_PING_MEAN
  | SYN_PING_SD
  | SYN_PCFG
  | SYN_IDLY
  | SYN_TRIM
  | SYN_PSTAT
  | SYN_CNT_GLITCH
  | RAS_CTL
  | RAS_GO
  | RAS_STAT
  | RAS_CNT_REPAIR
  | DPY_COMMIT
  | DPY_STAT
  | DPY_LINK
  | DPY_CNT_SHDROP
  | DPY_CNT_REFUSED
  | DPY_CNT_UNDER
  | DPY_CNT_ABORT
  | DPY_CNT_TEMISS
  | HK_PWR_CTL
  | HK_PWR_STAT
  | HK_RST
  | HK_FW_CTL
  | GLB_LC
  | SEC_UID
  | SEC_NONCE
  | SEC_CMD_SRC
  | SEC_CMD
  | SEC_STAT
  | SEC_CNT_IDE
  | GLB_CNT_SAT
  | TST_CTL
  | TST_STAT
  | TST_PAT_WORD
  | TST_LOSS
  | TST_BITS
  | TST_ERRS
  | TST_REGION_BASE
  | TST_REGION_SIZE
  | TST_CRC
  | ETH_MAC
  | ETH_IP4
  | ETH_IP6
  | ETH_DST_CTL
  | ETH_DST_MAC
  | ETH_DST_IP
  | ETH_FA_KEY
  | ETH_FA_KCTL
  | ETH_FA_LAST
  | RAS_CV_SIZE
  | RAS_CV_BUF0
  | RAS_CV_BUF1
  | RAS_CV_OVL
  | RAS_CV_BG
  | RAS_LY_CTL
  | RAS_LY_POS
  | RAS_LY_SCALE
  | RAS_LP_CTL
  | RAS_LP_COLOUR
  | RAS_LUT
  | DPY_CTL
  | DPY_H
  | DPY_HS
  | DPY_V
  | DPY_VS
  | DPY_VRR
  | DPY_PCLK
  | DPY_SRC
  | DPY_ORIENT
  | DPY_UNDER_LIM
  | DPY_DB_LINK
  | DPY_TE_TO
  | HK_WAKE_CTL
  | HK_WAKE_TICK
  | HK_WAKE_CAUSE
  | HK_RST_CAUSE
  | HK_PD_OFF
  | HK_PD_STAT
  | HK_PD_LINGER
  | HK_FW_SRC
  | HK_FW_LEN
  | HK_BOOT
  | HK_THERM
  | HK_TEMP
  | HK_CNT_SLEEPACC
  | HK_DEC_IDX
  | HK_DEC
  deriving DecidableEq, Repr

/-- The access codes of R14. -/
inductive Acc
  | rw | ro | wo | w1c | w1s | rc
  deriving DecidableEq, Repr

/-- One field of a map: its bits, its access code and its reset value. -/
structure FieldSpec where
  hi : Nat
  lo : Nat
  acc : Acc
  reset : Nat
  deriving DecidableEq, Repr

/-- One family: the BAR0 offset of its first register, (count, stride) of each index, its width and its fields. -/
structure Fam where
  base : Nat
  dims : List (Nat × Nat)
  wide : Bool
  fields : List FieldSpec
  deriving DecidableEq, Repr

/-- A register: its family and its indices (unit, then inner indices). -/
structure Reg where
  g : Rg
  i : Nat := 0
  j : Nat := 0
  k : Nat := 0
  deriving DecidableEq, Repr

/-- A named field of a family: its lowest bit and its width. -/
structure Fld where
  g : Rg
  lo : Nat
  w : Nat
  deriving DecidableEq, Repr

/-- The map of each family. -/
def Rg.fam : Rg → Fam
  | .GLB_ID => ⟨0x0, [], false, [⟨31, 16, .ro, 0x4080⟩, ⟨15, 8, .ro, 0x47⟩]⟩
  | .GLB_REV => ⟨0x4, [], false, [⟨31, 24, .ro, 0x21⟩, ⟨23, 16, .ro, 0x21⟩]⟩
  | .GLB_ACC_ERR => ⟨0x10, [], false, [⟨31, 16, .rc, 0⟩, ⟨15, 0, .rc, 0⟩]⟩
  | .CV_SCTL => ⟨0x300000, [(4, 0x40000)], false, [⟨2, 2, .rw, 1⟩, ⟨0, 0, .rw, 0⟩]⟩
  | .CV_SSTAT => ⟨0x300004, [(4, 0x40000)], false, [⟨31, 24, .ro, 0⟩, ⟨23, 16, .ro, 0⟩, ⟨15, 8, .ro, 0⟩, ⟨2, 2, .ro, 0⟩, ⟨1, 1, .ro, 0⟩, ⟨0, 0, .ro, 0⟩]⟩
  | .CV_ROT_PERIOD => ⟨0x300008, [(4, 0x40000)], false, [⟨31, 0, .rw, 0x17d7840⟩]⟩
  | .CV_OVR_CNT => ⟨0x30000c, [(4, 0x40000)], false, [⟨31, 0, .rc, 0⟩]⟩
  | .CV_NRDY_CNT => ⟨0x300010, [(4, 0x40000)], false, [⟨31, 0, .rc, 0⟩]⟩
  | .CV_SWAP_CNT => ⟨0x300014, [(4, 0x40000)], false, [⟨31, 0, .ro, 0⟩]⟩
  | .CV_FAIL_CLR => ⟨0x300018, [(4, 0x40000)], false, [⟨18, 16, .rw, 0⟩, ⟨10, 0, .rw, 0⟩]⟩
  | .CV_DAC_CTL => ⟨0x30001c, [(4, 0x40000)], false, [⟨9, 8, .rw, 0⟩, ⟨7, 4, .rw, 0⟩, ⟨1, 0, .rw, 0⟩]⟩
  | .CV_DEGWIN_START => ⟨0x300020, [(4, 0x40000)], true, [⟨63, 0, .ro, 0⟩]⟩
  | .CV_DEGWIN_END => ⟨0x300028, [(4, 0x40000)], true, [⟨63, 0, .ro, 0⟩]⟩
  | .CV_DEGWIN_SEQ => ⟨0x300030, [(4, 0x40000)], false, [⟨31, 0, .ro, 0⟩]⟩
  | .CV_GRP_STAT => ⟨0x300040, [(4, 0x40000), (8, 0x4)], false, [⟨26, 16, .ro, 0⟩, ⟨11, 8, .ro, 15⟩, ⟨7, 4, .ro, 0⟩, ⟨2, 0, .ro, 4⟩]⟩
  | .CV_SLOTMAP => ⟨0x300080, [(4, 0x40000), (8, 0x8)], true, [⟨39, 0, .ro, 0xffffffffff⟩]⟩
  | .CV_CORR_CTL => ⟨0x301000, [(4, 0x40000)], false, [⟨3, 3, .rw, 0⟩, ⟨2, 2, .rw, 0⟩, ⟨1, 1, .rw, 0⟩]⟩
  | .CV_TBL_COMMIT => ⟨0x301008, [(4, 0x40000)], false, [⟨1, 1, .wo, 0⟩, ⟨0, 0, .wo, 0⟩]⟩
  | .CV_TBL_STAT => ⟨0x30100c, [(4, 0x40000)], false, [⟨5, 4, .ro, 0⟩, ⟨2, 2, .ro, 1⟩, ⟨1, 1, .ro, 0⟩, ⟨0, 0, .ro, 0⟩]⟩
  | .CV_TBL_DROP => ⟨0x301010, [(4, 0x40000)], false, [⟨31, 16, .rc, 0⟩, ⟨15, 0, .rc, 0⟩]⟩
  | .CV_CLIP_CNT => ⟨0x301014, [(4, 0x40000)], false, [⟨31, 0, .rc, 0⟩]⟩
  | .CV_TSW_TICK => ⟨0x301020, [(4, 0x40000)], true, [⟨63, 0, .ro, 0⟩]⟩
  | .CV_SUB_ARM => ⟨0x301040, [(4, 0x40000), (3, 0x4)], false, [⟨31, 0, .w1s, 0⟩]⟩
  | .CV_SUB_ACT => ⟨0x301050, [(4, 0x40000), (3, 0x4)], false, [⟨31, 0, .ro, 0⟩]⟩
  | .CV_SUB_DISC => ⟨0x301060, [(4, 0x40000), (3, 0x4)], false, [⟨31, 0, .ro, 0xffffffff⟩]⟩
  | .CV_SKW_CTL => ⟨0x301100, [(4, 0x40000)], false, [⟨20, 16, .rw, 0x18⟩, ⟨15, 12, .rw, 8⟩, ⟨0, 0, .rw, 1⟩]⟩
  | .CV_SKW_PMIN => ⟨0x301104, [(4, 0x40000)], false, [⟨31, 0, .rw, 0xf4240⟩]⟩
  | .CV_SKW_STAT => ⟨0x301108, [(4, 0x40000)], false, [⟨31, 16, .rc, 0⟩, ⟨15, 0, .ro, 0⟩]⟩
  | .CV_SKW_DLT => ⟨0x301120, [(4, 0x40000), (8, 0x4)], false, [⟨15, 0, .ro, 0⟩]⟩
  | .CV_SWATCH_TAU => ⟨0x301220, [(4, 0x40000), (8, 0x4)], false, [⟨15, 0, .ro, 0⟩]⟩
  | .CV_SWATCH_CTL => ⟨0x301200, [(4, 0x40000)], false, [⟨23, 16, .rw, 0x9c⟩, ⟨15, 8, .rw, 0x10⟩, ⟨1, 1, .rw, 0⟩, ⟨0, 0, .wo, 0⟩]⟩
  | .CV_SWATCH_FREQ => ⟨0x301208, [(4, 0x40000)], true, [⟨47, 0, .rw, 0x400000000000⟩]⟩
  | .CV_SWATCH_STAT => ⟨0x301210, [(4, 0x40000)], false, [⟨31, 16, .rc, 0⟩, ⟨7, 4, .ro, 0⟩]⟩
  | .TB_REF_CTL => ⟨0x200000, [], false, [⟨23, 16, .rw, 10⟩, ⟨5, 5, .rw, 0⟩, ⟨4, 4, .rw, 0⟩, ⟨2, 0, .rw, 0⟩]⟩
  | .TB_REF_STAT => ⟨0x200004, [], false, [⟨15, 12, .ro, 0⟩, ⟨9, 8, .ro, 0⟩, ⟨4, 4, .ro, 0⟩, ⟨3, 3, .ro, 0⟩, ⟨2, 2, .ro, 0⟩, ⟨1, 1, .ro, 0⟩, ⟨0, 0, .ro, 0⟩]⟩
  | .TB_NOW => ⟨0x200010, [(4, 0x4)], false, [⟨31, 0, .ro, 0⟩]⟩
  | .TB_PPS_CAP => ⟨0x200050, [(4, 0x4)], false, [⟨31, 0, .ro, 0⟩]⟩
  | .TB_ORIGIN_CTL => ⟨0x200020, [], false, [⟨7, 6, .ro, 0⟩, ⟨3, 2, .rw, 0⟩, ⟨0, 0, .wo, 0⟩]⟩
  | .TB_TAI_SEC => ⟨0x200028, [], true, [⟨63, 0, .rw, 0⟩]⟩
  | .TB_TAI_OFS => ⟨0x200030, [], true, [⟨36, 0, .rw, 0⟩]⟩
  | .TB_SLEW => ⟨0x200038, [], false, [⟨31, 24, .rw, 1⟩, ⟨16, 16, .rw, 0⟩, ⟨6, 0, .rw, 0x64⟩]⟩
  | .TB_PHASE_ERR => ⟨0x200040, [], true, [⟨63, 0, .ro, 0⟩]⟩
  | .TB_PPS_CTL => ⟨0x200048, [], false, [⟨31, 16, .rw, 0x64⟩, ⟨2, 1, .rw, 0⟩, ⟨0, 0, .rw, 0⟩]⟩
  | .TB_PTP_CTL => ⟨0x200060, [], false, [⟨23, 16, .rw, 0⟩, ⟨9, 8, .rw, 0⟩, ⟨4, 4, .rw, 1⟩, ⟨3, 3, .rw, 1⟩, ⟨2, 1, .rw, 0⟩, ⟨0, 0, .rw, 0⟩]⟩
  | .TB_LOSS_CNT => ⟨0x200070, [], false, [⟨31, 16, .rc, 0⟩, ⟨15, 0, .rc, 0⟩]⟩
  | .TRG_CTL => ⟨0x400000, [(8, 0x10000)], false, [⟨0, 0, .rw, 0⟩]⟩
  | .TRG_ARM => ⟨0x400004, [(8, 0x10000)], false, [⟨1, 1, .wo, 0⟩, ⟨0, 0, .wo, 0⟩]⟩
  | .TRG_STAT => ⟨0x400008, [(8, 0x10000)], false, [⟨12, 12, .ro, 0⟩, ⟨9, 8, .ro, 0⟩, ⟨5, 5, .ro, 0⟩, ⟨4, 4, .ro, 0⟩, ⟨3, 2, .ro, 0⟩, ⟨0, 0, .ro, 0⟩]⟩
  | .TRG_PRF_COMMIT => ⟨0x40000c, [(8, 0x10000)], false, [⟨0, 0, .wo, 0⟩]⟩
  | .TRG_FORCE => ⟨0x400010, [(8, 0x10000)], false, [⟨0, 0, .wo, 0⟩]⟩
  | .TRG_PRE_EFF => ⟨0x400014, [(8, 0x10000)], false, [⟨31, 0, .ro, 0⟩]⟩
  | .TRG_TCMP_TICK => ⟨0x400018, [(8, 0x10000)], true, [⟨63, 0, .rw, 0⟩]⟩
  | .TRG_TCMP_CTL => ⟨0x400020, [(8, 0x10000)], false, [⟨15, 8, .rw, 0⟩, ⟨0, 0, .rw, 0⟩]⟩
  | .TRG_MSG => ⟨0x400024, [(8, 0x10000)], false, [⟨30, 30, .rw, 1⟩, ⟨29, 16, .rw, 0⟩, ⟨8, 8, .rw, 0⟩, ⟨7, 0, .rw, 0⟩]⟩
  | .TRG_LFSR => ⟨0x400028, [(8, 0x10000)], false, [⟨31, 0, .rw, 0x5a3c9e17⟩]⟩
  | .TRG_LAST => ⟨0x400030, [(8, 0x10000), (4, 0x4)], false, [⟨31, 0, .ro, 0⟩]⟩
  | .TRG_OVR_FIRST => ⟨0x400040, [(8, 0x10000), (4, 0x4)], false, [⟨31, 0, .ro, 0⟩]⟩
  | .TRG_CNT_ACC => ⟨0x400050, [(8, 0x10000)], false, [⟨31, 0, .ro, 0⟩]⟩
  | .TRG_CNT_FILL => ⟨0x400054, [(8, 0x10000)], false, [⟨31, 0, .rc, 0⟩]⟩
  | .TRG_CNT_HOLD => ⟨0x400058, [(8, 0x10000)], false, [⟨31, 0, .rc, 0⟩]⟩
  | .TRG_CNT_BUSY => ⟨0x40005c, [(8, 0x10000)], false, [⟨31, 0, .rc, 0⟩]⟩
  | .TRG_CNT_OVR => ⟨0x400060, [(8, 0x10000)], false, [⟨31, 0, .rc, 0⟩]⟩
  | .TRG_CNT_LATE => ⟨0x400064, [(8, 0x10000)], false, [⟨31, 0, .rc, 0⟩]⟩
  | .TRG_PRF_DROP => ⟨0x400068, [(8, 0x10000)], false, [⟨31, 16, .rc, 0⟩, ⟨15, 0, .rc, 0⟩]⟩
  | .TRG_CMP => ⟨0x401000, [(8, 0x10000), (8, 0x4)], false, [⟨31, 31, .rw, 0⟩, ⟨30, 16, .rw, 0⟩, ⟨15, 0, .rw, 0⟩]⟩
  | .TRG_CMP_ACT => ⟨0x402000, [(8, 0x10000), (8, 0x4)], false, [⟨31, 31, .ro, 0⟩, ⟨30, 16, .ro, 0⟩, ⟨15, 0, .ro, 0⟩]⟩
  | .TRG_SLOTA => ⟨0x401020, [(8, 0x10000)], false, [⟨31, 28, .rw, 0⟩, ⟨27, 26, .rw, 0⟩, ⟨25, 25, .rw, 0⟩, ⟨24, 24, .rw, 0⟩, ⟨23, 23, .rw, 0⟩, ⟨9, 0, .rw, 0⟩]⟩
  | .TRG_SLOTA_ACT => ⟨0x402020, [(8, 0x10000)], false, [⟨31, 28, .ro, 0⟩, ⟨27, 26, .ro, 0⟩, ⟨25, 25, .ro, 0⟩, ⟨24, 24, .ro, 0⟩, ⟨23, 23, .ro, 0⟩, ⟨9, 0, .ro, 0⟩]⟩
  | .TRG_SLOTB => ⟨0x401024, [(8, 0x10000)], false, [⟨31, 28, .rw, 0⟩, ⟨27, 26, .rw, 0⟩, ⟨25, 25, .rw, 0⟩, ⟨24, 24, .rw, 0⟩, ⟨23, 23, .rw, 0⟩, ⟨9, 0, .rw, 0⟩]⟩
  | .TRG_SLOTB_ACT => ⟨0x402024, [(8, 0x10000)], false, [⟨31, 28, .ro, 0⟩, ⟨27, 26, .ro, 0⟩, ⟨25, 25, .ro, 0⟩, ⟨24, 24, .ro, 0⟩, ⟨23, 23, .ro, 0⟩, ⟨9, 0, .ro, 0⟩]⟩
  | .TRG_SLOTA_T1 => ⟨0x401028, [(8, 0x10000)], true, [⟨47, 0, .rw, 0⟩]⟩
  | .TRG_SLOTA_T1_ACT => ⟨0x402028, [(8, 0x10000)], true, [⟨47, 0, .ro, 0⟩]⟩
  | .TRG_SLOTA_T2 => ⟨0x401030, [(8, 0x10000)], true, [⟨47, 0, .rw, 0⟩]⟩
  | .TRG_SLOTA_T2_ACT => ⟨0x402030, [(8, 0x10000)], true, [⟨47, 0, .ro, 0⟩]⟩
  | .TRG_SLOTB_T1 => ⟨0x401038, [(8, 0x10000)], true, [⟨47, 0, .rw, 0⟩]⟩
  | .TRG_SLOTB_T1_ACT => ⟨0x402038, [(8, 0x10000)], true, [⟨47, 0, .ro, 0⟩]⟩
  | .TRG_SLOTB_T2 => ⟨0x401040, [(8, 0x10000)], true, [⟨47, 0, .rw, 0⟩]⟩
  | .TRG_SLOTB_T2_ACT => ⟨0x402040, [(8, 0x10000)], true, [⟨47, 0, .ro, 0⟩]⟩
  | .TRG_SEQ_DLY => ⟨0x401050, [(8, 0x10000)], true, [⟨47, 0, .rw, 0⟩]⟩
  | .TRG_SEQ_DLY_ACT => ⟨0x402050, [(8, 0x10000)], true, [⟨47, 0, .ro, 0⟩]⟩
  | .TRG_SEQ => ⟨0x401048, [(8, 0x10000)], false, [⟨31, 31, .rw, 0⟩, ⟨30, 30, .rw, 0⟩, ⟨29, 29, .rw, 0⟩, ⟨28, 28, .rw, 0⟩, ⟨25, 16, .rw, 0⟩, ⟨15, 0, .rw, 0⟩]⟩
  | .TRG_SEQ_ACT => ⟨0x402048, [(8, 0x10000)], false, [⟨31, 31, .ro, 0⟩, ⟨30, 30, .ro, 0⟩, ⟨29, 29, .ro, 0⟩, ⟨28, 28, .ro, 0⟩, ⟨25, 16, .ro, 0⟩, ⟨15, 0, .ro, 0⟩]⟩
  | .TRG_HOLD => ⟨0x401058, [(8, 0x10000)], false, [⟨31, 30, .rw, 0⟩, ⟨23, 0, .rw, 0⟩]⟩
  | .TRG_HOLD_ACT => ⟨0x402058, [(8, 0x10000)], false, [⟨31, 30, .ro, 0⟩, ⟨23, 0, .ro, 0⟩]⟩
  | .TRG_HOLD_T => ⟨0x401060, [(8, 0x10000)], true, [⟨47, 0, .rw, 0⟩]⟩
  | .TRG_HOLD_T_ACT => ⟨0x402060, [(8, 0x10000)], true, [⟨47, 0, .ro, 0⟩]⟩
  | .TRG_HOLD_MAX => ⟨0x401068, [(8, 0x10000)], true, [⟨47, 0, .rw, 0⟩]⟩
  | .TRG_HOLD_MAX_ACT => ⟨0x402068, [(8, 0x10000)], true, [⟨47, 0, .ro, 0⟩]⟩
  | .TRG_PAT_CTL => ⟨0x401070, [(8, 0x10000)], false, [⟨25, 16, .rw, 0⟩, ⟨1, 1, .rw, 0⟩, ⟨0, 0, .rw, 0⟩]⟩
  | .TRG_PAT_CTL_ACT => ⟨0x402070, [(8, 0x10000)], false, [⟨25, 16, .ro, 0⟩, ⟨1, 1, .ro, 0⟩, ⟨0, 0, .ro, 0⟩]⟩
  | .TRG_PAT_MASK => ⟨0x401080, [(8, 0x10000), (5, 0x4)], false, [⟨31, 0, .rw, 0⟩]⟩
  | .TRG_PAT_MASK_ACT => ⟨0x402080, [(8, 0x10000), (5, 0x4)], false, [⟨31, 0, .ro, 0⟩]⟩
  | .TRG_PAT_VAL => ⟨0x4010a0, [(8, 0x10000), (5, 0x4)], false, [⟨31, 0, .rw, 0⟩]⟩
  | .TRG_PAT_VAL_ACT => ⟨0x4020a0, [(8, 0x10000), (5, 0x4)], false, [⟨31, 0, .ro, 0⟩]⟩
  | .REC_LCTL => ⟨0x500000, [(16, 0x1000)], false, [⟨31, 29, .rw, 0⟩, ⟨25, 16, .rw, 0⟩, ⟨13, 8, .rw, 0⟩, ⟨7, 3, .rw, 0⟩, ⟨1, 1, .wo, 0⟩, ⟨0, 0, .rw, 0⟩]⟩
  | .REC_LSTAT => ⟨0x500004, [(16, 0x1000)], false, [⟨19, 16, .ro, 0⟩, ⟨12, 8, .ro, 0⟩, ⟨4, 4, .ro, 0⟩, ⟨3, 3, .ro, 0⟩, ⟨2, 2, .ro, 0⟩, ⟨1, 1, .ro, 0⟩, ⟨0, 0, .ro, 0⟩]⟩
  | .REC_SEGNUM => ⟨0x500008, [(16, 0x1000)], true, [⟨47, 0, .rw, 0⟩]⟩
  | .REC_LQUEUE => ⟨0x500010, [(16, 0x1000)], false, [⟨11, 0, .rw, 0⟩]⟩
  | .REC_REQ_PRE => ⟨0x500014, [(16, 0x1000)], false, [⟨31, 0, .rw, 0⟩]⟩
  | .REC_REQ_POST => ⟨0x500018, [(16, 0x1000)], true, [⟨39, 0, .rw, 0⟩]⟩
  | .REC_REQ_REPEAT => ⟨0x500020, [(16, 0x1000)], false, [⟨23, 0, .rw, 1⟩]⟩
  | .REC_REQ_CTL => ⟨0x500024, [(16, 0x1000)], false, [⟨31, 31, .wo, 0⟩, ⟨26, 24, .rw, 0⟩, ⟨23, 0, .rw, 0⟩]⟩
  | .REC_REQ_STAT => ⟨0x500028, [(16, 0x1000)], false, [⟨3, 0, .ro, 0⟩]⟩
  | .REC_CNT_REFUSED => ⟨0x500040, [(16, 0x1000)], false, [⟨31, 0, .rc, 0⟩]⟩
  | .REC_CNT_TRUNC => ⟨0x500044, [(16, 0x1000)], false, [⟨31, 0, .rc, 0⟩]⟩
  | .REC_CNT_DROPFR => ⟨0x500048, [(16, 0x1000)], false, [⟨31, 0, .rc, 0⟩]⟩
  | .REC_CNT_NOTICE => ⟨0x50004c, [(16, 0x1000)], false, [⟨31, 0, .rc, 0⟩]⟩
  | .REC_CNT_ALLOCW => ⟨0x500050, [(16, 0x1000)], false, [⟨31, 0, .rc, 0⟩]⟩
  | .REC_CNT_SEG => ⟨0x500054, [(16, 0x1000)], false, [⟨31, 0, .ro, 0⟩]⟩
  | .REC_CNT_SEGWRAP => ⟨0x500058, [(16, 0x1000)], false, [⟨31, 0, .ro, 0⟩]⟩
  | .REC_SKN_BASE => ⟨0x510000, [(64, 0x100)], true, [⟨63, 62, .rw, 0⟩, ⟨47, 0, .rw, 0⟩]⟩
  | .REC_SKN_SIZE => ⟨0x510008, [(64, 0x100)], true, [⟨47, 0, .rw, 0⟩]⟩
  | .REC_SKN_CTL => ⟨0x510010, [(64, 0x100)], false, [⟨31, 31, .wo, 0⟩, ⟨30, 30, .wo, 0⟩, ⟨23, 20, .ro, 0⟩, ⟨13, 8, .rw, 0⟩, ⟨2, 2, .rw, 1⟩, ⟨1, 0, .rw, 0⟩]⟩
  | .REC_SKN_CP => ⟨0x510018, [(64, 0x100)], true, [⟨47, 0, .ro, 0⟩]⟩
  | .REC_SKN_FREE => ⟨0x510028, [(64, 0x100)], true, [⟨47, 0, .ro, 0⟩]⟩
  | .REC_SKN_OLDEST => ⟨0x510020, [(64, 0x100)], true, [⟨63, 63, .ro, 0⟩, ⟨47, 0, .ro, 0⟩]⟩
  | .REC_RB_STAT => ⟨0x520000, [], false, [⟨16, 0, .ro, 0⟩]⟩
  | .DEC_CTL => ⟨0x600000, [(16, 0x1000)], false, [⟨1, 1, .rw, 1⟩, ⟨0, 0, .rw, 0⟩]⟩
  | .DEC_STAT => ⟨0x600004, [(16, 0x1000)], false, [⟨11, 8, .ro, 0⟩, ⟨2, 2, .ro, 0⟩, ⟨1, 1, .ro, 0⟩, ⟨0, 0, .ro, 0⟩]⟩
  | .DEC_COMMIT => ⟨0x600008, [(16, 0x1000)], false, [⟨0, 0, .wo, 0⟩]⟩
  | .DEC_CFG => ⟨0x600010, [(16, 0x1000)], false, [⟨31, 30, .rw, 0⟩, ⟨29, 29, .rw, 0⟩, ⟨28, 28, .rw, 0⟩, ⟨27, 26, .rw, 0⟩, ⟨25, 24, .rw, 0⟩, ⟨20, 16, .rw, 0⟩, ⟨15, 13, .rw, 3⟩, ⟨12, 0, .rw, 2⟩]⟩
  | .DEC_CFG_ACT => ⟨0x600030, [(16, 0x1000)], false, [⟨31, 30, .ro, 0⟩, ⟨29, 29, .ro, 0⟩, ⟨28, 28, .ro, 0⟩, ⟨27, 26, .ro, 0⟩, ⟨25, 24, .ro, 0⟩, ⟨20, 16, .ro, 0⟩, ⟨15, 13, .ro, 3⟩, ⟨12, 0, .ro, 2⟩]⟩
  | .DEC_STEP => ⟨0x600018, [(16, 0x1000)], true, [⟨43, 0, .rw, 0x100000000⟩]⟩
  | .DEC_STEP_ACT => ⟨0x600038, [(16, 0x1000)], true, [⟨43, 0, .ro, 0x100000000⟩]⟩
  | .DEC_PHASE0 => ⟨0x600020, [(16, 0x1000)], false, [⟨31, 0, .rw, 0⟩]⟩
  | .DEC_PHASE0_ACT => ⟨0x600040, [(16, 0x1000)], false, [⟨31, 0, .ro, 0⟩]⟩
  | .DEC_SETTLE_CTL => ⟨0x600050, [(16, 0x1000)], false, [⟨15, 0, .rw, 0⟩]⟩
  | .DEC_SETTLE_FR => ⟨0x600054, [(16, 0x1000)], false, [⟨31, 0, .ro, 0⟩]⟩
  | .DEC_T0 => ⟨0x600060, [(16, 0x1000), (4, 0x4)], false, [⟨31, 0, .ro, 0⟩]⟩
  | .DEC_FAST => ⟨0x600070, [(16, 0x1000)], false, [⟨31, 0, .ro, 0⟩]⟩
  | .DEC_OUT => ⟨0x600074, [(16, 0x1000)], false, [⟨31, 0, .ro, 0⟩]⟩
  | .DEC_THR0_LEVEL => ⟨0x600080, [(16, 0x1000)], false, [⟨31, 0, .rw, 0⟩]⟩
  | .DEC_THR1_LEVEL => ⟨0x600088, [(16, 0x1000)], false, [⟨31, 0, .rw, 0⟩]⟩
  | .DEC_THR0_CTL => ⟨0x600084, [(16, 0x1000)], false, [⟨31, 31, .rw, 0⟩, ⟨30, 30, .rw, 0⟩, ⟨24, 24, .rw, 0⟩, ⟨23, 0, .rw, 0⟩]⟩
  | .DEC_THR1_CTL => ⟨0x60008c, [(16, 0x1000)], false, [⟨31, 31, .rw, 0⟩, ⟨30, 30, .rw, 0⟩, ⟨24, 24, .rw, 0⟩, ⟨23, 0, .rw, 0⟩]⟩
  | .DEC_CNT_THR0 => ⟨0x600090, [(16, 0x1000)], false, [⟨31, 0, .ro, 0⟩]⟩
  | .DEC_CNT_THR1 => ⟨0x600094, [(16, 0x1000)], false, [⟨31, 0, .ro, 0⟩]⟩
  | .DEC_CNT_SAT => ⟨0x600098, [(16, 0x1000)], false, [⟨31, 0, .rc, 0⟩]⟩
  | .DEC_SYNC_CTL => ⟨0x610000, [], false, [⟨31, 31, .wo, 0⟩, ⟨19, 12, .rw, 0⟩, ⟨11, 11, .rw, 0⟩, ⟨10, 10, .rw, 0⟩, ⟨7, 4, .rw, 0⟩, ⟨0, 0, .rw, 0⟩]⟩
  | .DEC_SYNC_STAT => ⟨0x610004, [], false, [⟨31, 16, .rc, 0⟩, ⟨15, 0, .ro, 0⟩]⟩
  | .DEC_SYNC_TIME => ⟨0x610010, [(4, 0x4)], false, [⟨31, 0, .ro, 0⟩]⟩
  | .TAL_JOB_CFG => ⟨0x700000, [(8, 0x1000)], false, [⟨31, 28, .rw, 0⟩, ⟨27, 26, .rw, 0⟩, ⟨24, 22, .rw, 0⟩, ⟨21, 20, .rw, 0⟩, ⟨19, 19, .rw, 0⟩, ⟨14, 12, .rw, 0⟩, ⟨10, 8, .rw, 0⟩]⟩
  | .TAL_JOB_PRE => ⟨0x700004, [(8, 0x1000)], false, [⟨26, 0, .rw, 0⟩]⟩
  | .TAL_JOB_POINTS => ⟨0x700008, [(8, 0x1000)], false, [⟨26, 0, .rw, 0⟩]⟩
  | .TAL_JOB_LIMIT => ⟨0x700010, [(8, 0x1000)], true, [⟨48, 0, .rw, 0⟩]⟩
  | .TAL_JOB_OUTER => ⟨0x700020, [(8, 0x1000)], true, [⟨47, 0, .rw, 0⟩]⟩
  | .TAL_JOB_DEN => ⟨0x700018, [(8, 0x1000)], false, [⟨31, 30, .rw, 2⟩, ⟨27, 24, .rw, 6⟩, ⟨20, 16, .rw, 0⟩, ⟨15, 0, .rw, 0x8000⟩]⟩
  | .TAL_JOB_CMD => ⟨0x700028, [(8, 0x1000)], false, [⟨4, 4, .wo, 0⟩, ⟨3, 3, .wo, 0⟩, ⟨2, 2, .wo, 0⟩, ⟨1, 1, .wo, 0⟩, ⟨0, 0, .wo, 0⟩]⟩
  | .TAL_JSTAT => ⟨0x70002c, [(8, 0x1000)], false, [⟨14, 14, .ro, 0⟩, ⟨13, 13, .ro, 0⟩, ⟨12, 12, .ro, 0⟩, ⟨11, 8, .ro, 0⟩, ⟨6, 4, .ro, 0⟩, ⟨3, 3, .ro, 0⟩, ⟨2, 0, .ro, 0⟩]⟩
  | .TAL_JOB_COUNT => ⟨0x700030, [(8, 0x1000)], true, [⟨48, 0, .ro, 0⟩]⟩
  | .TAL_JOB_REC => ⟨0x700038, [(8, 0x1000)], true, [⟨47, 0, .ro, 0⟩]⟩
  | .TAL_JOB_PARTIAL => ⟨0x700058, [(8, 0x1000)], true, [⟨47, 0, .ro, 0⟩]⟩
  | .TAL_CNT_BUSY => ⟨0x700040, [(8, 0x1000)], false, [⟨31, 0, .rc, 0⟩]⟩
  | .TAL_CNT_FILL => ⟨0x700044, [(8, 0x1000)], false, [⟨31, 0, .rc, 0⟩]⟩
  | .TAL_CNT_HALVE => ⟨0x700048, [(8, 0x1000)], false, [⟨31, 0, .rc, 0⟩]⟩
  | .TAL_CNT_VIOL => ⟨0x70004c, [(8, 0x1000)], false, [⟨31, 0, .rc, 0⟩]⟩
  | .TAL_CNT_VSAMP => ⟨0x700050, [(8, 0x1000)], false, [⟨31, 0, .rc, 0⟩]⟩
  | .TAL_MASK_CTL => ⟨0x700060, [(8, 0x1000)], false, [⟨7, 4, .rw, 0⟩, ⟨3, 3, .rw, 0⟩, ⟨2, 2, .rw, 0⟩, ⟨1, 1, .rw, 0⟩, ⟨0, 0, .rw, 0⟩]⟩
  | .TAL_MASK_TBL => ⟨0x700064, [(8, 0x1000)], false, [⟨26, 0, .ro, 0⟩]⟩
  | .TAL_FAIL_SEG => ⟨0x700068, [(8, 0x1000)], true, [⟨63, 63, .ro, 0⟩, ⟨62, 62, .ro, 0⟩, ⟨47, 0, .ro, 0⟩]⟩
  | .TAL_FAIL_TIME => ⟨0x700070, [(8, 0x1000), (4, 0x4)], false, [⟨31, 0, .ro, 0⟩]⟩
  | .TAL_G_WDROP => ⟨0x710000, [], false, [⟨31, 0, .rc, 0⟩]⟩
  | .EVI_GMODE => ⟨0x800000, [], false, [⟨15, 0, .rw, 0⟩]⟩
  | .EVI_GSTAT => ⟨0x800004, [], false, [⟨11, 8, .ro, 0⟩, ⟨7, 0, .ro, 0⟩]⟩
  | .EVI_FLUSH_TO => ⟨0x800008, [], false, [⟨15, 0, .rw, 0x4e2⟩]⟩
  | .EVI_GAUGE_CTL => ⟨0x800010, [], false, [⟨31, 31, .wo, 0⟩, ⟨30, 30, .rw, 0⟩, ⟨6, 0, .rw, 0⟩]⟩
  | .EVI_GAUGE_STAT => ⟨0x800014, [], false, [⟨11, 8, .ro, 0⟩, ⟨6, 0, .ro, 0⟩]⟩
  | .EVI_NRDY_FR => ⟨0x800040, [(8, 0x4)], false, [⟨31, 0, .rc, 0⟩]⟩
  | .EVI_ICFG => ⟨0x810000, [(128, 0x40)], false, [⟨31, 31, .rw, 0⟩, ⟨27, 16, .rw, 0⟩, ⟨5, 4, .rw, 0⟩, ⟨1, 0, .rw, 0⟩]⟩
  | .EVI_IDLY => ⟨0x810004, [(128, 0x40)], false, [⟨31, 0, .rw, 0⟩]⟩
  | .EVI_ISTAT => ⟨0x810008, [(128, 0x40)], false, [⟨5, 5, .ro, 1⟩, ⟨4, 4, .ro, 0⟩, ⟨3, 3, .w1c, 0⟩, ⟨2, 2, .w1c, 0⟩, ⟨1, 1, .w1c, 0⟩, ⟨0, 0, .w1c, 0⟩]⟩
  | .EVI_SEQ => ⟨0x81000c, [(128, 0x40)], false, [⟨31, 0, .ro, 0⟩]⟩
  | .EVI_CNT_STAMP => ⟨0x81001c, [(128, 0x40)], false, [⟨31, 0, .ro, 0⟩]⟩
  | .EVI_CNT_DEAD => ⟨0x810010, [(128, 0x40)], false, [⟨31, 0, .rc, 0⟩]⟩
  | .EVI_CNT_FIFO => ⟨0x810014, [(128, 0x40)], false, [⟨31, 0, .rc, 0⟩]⟩
  | .EVI_CNT_CAL => ⟨0x810018, [(128, 0x40)], false, [⟨31, 0, .rc, 0⟩]⟩
  | .EVI_CNT_NOCLK => ⟨0x810020, [(128, 0x40)], false, [⟨31, 0, .rc, 0⟩]⟩
  | .EVI_IU_CFG => ⟨0x840000, [(32, 0x40)], false, [⟨31, 30, .rw, 0⟩, ⟨29, 28, .rw, 0⟩, ⟨27, 26, .rw, 0⟩, ⟨25, 14, .rw, 0⟩, ⟨13, 7, .rw, 0⟩, ⟨6, 0, .rw, 0⟩]⟩
  | .EVI_IU_STAT => ⟨0x840004, [(32, 0x40)], false, [⟨4, 0, .ro, 0⟩]⟩
  | .EVI_IU_CNT_EARLY => ⟨0x840008, [(32, 0x40)], false, [⟨31, 0, .rc, 0⟩]⟩
  | .EVI_IU_CNT_LOST => ⟨0x84000c, [(32, 0x40)], false, [⟨31, 0, .rc, 0⟩]⟩
  | .EVI_IU_CNT_DROP => ⟨0x840010, [(32, 0x40)], false, [⟨31, 0, .rc, 0⟩]⟩
  | .EVI_IU_CNT_RES => ⟨0x840014, [(32, 0x40)], false, [⟨31, 0, .ro, 0⟩]⟩
  | .NDL_G_STAT => ⟨0x900000, [], false, [⟨31, 16, .ro, 0⟩, ⟨15, 0, .ro, 0⟩]⟩
  | .NDL_G_WDROP => ⟨0x900004, [], false, [⟨31, 0, .rc, 0⟩]⟩
  | .NDL_CTL => ⟨0x910000, [(16, 0x100)], false, [⟨1, 1, .wo, 0⟩, ⟨0, 0, .wo, 0⟩]⟩
  | .NDL_STAT => ⟨0x910004, [(16, 0x100)], false, [⟨24, 20, .ro, 0⟩, ⟨19, 16, .ro, 0⟩, ⟨15, 15, .ro, 0⟩, ⟨14, 14, .ro, 0⟩, ⟨13, 11, .ro, 0⟩, ⟨10, 7, .ro, 0⟩, ⟨2, 0, .ro, 0⟩]⟩
  | .NDL_PC => ⟨0x910008, [(16, 0x100)], false, [⟨16, 0, .ro, 0⟩]⟩
  | .NDL_ENTRY => ⟨0x910014, [(16, 0x100)], false, [⟨16, 0, .rw, 0⟩]⟩
  | .NDL_ENTRY_NEXT => ⟨0x910018, [(16, 0x100)], false, [⟨16, 0, .rw, 0⟩]⟩
  | .NDL_FAULT_PC => ⟨0x910024, [(16, 0x100)], false, [⟨16, 0, .ro, 0⟩]⟩
  | .NDL_WIN => ⟨0x91000c, [(16, 0x100)], false, [⟨25, 16, .ro, 0x20⟩, ⟨8, 0, .ro, 0⟩]⟩
  | .NDL_WIN_NEXT => ⟨0x910010, [(16, 0x100)], false, [⟨25, 16, .rw, 0x20⟩, ⟨8, 0, .rw, 0⟩]⟩
  | .NDL_REPLACE => ⟨0x91001c, [(16, 0x100)], false, [⟨31, 31, .wo, 0⟩, ⟨30, 30, .wo, 0⟩, ⟨7, 4, .ro, 0⟩, ⟨0, 0, .rw, 0⟩]⟩
  | .NDL_FAULT => ⟨0x910020, [(16, 0x100)], false, [⟨31, 24, .ro, 0⟩, ⟨9, 8, .ro, 0⟩, ⟨4, 0, .ro, 0⟩]⟩
  | .NDL_FAULT_TICK => ⟨0x910028, [(16, 0x100)], true, [⟨63, 0, .ro, 0⟩]⟩
  | .NDL_SIGCODE => ⟨0x910030, [(16, 0x100)], false, [⟨15, 0, .ro, 0⟩]⟩
  | .NDL_CNT_LATE => ⟨0x910034, [(16, 0x100)], false, [⟨31, 0, .rc, 0⟩]⟩
  | .NDL_CNT_ISSUE => ⟨0x910038, [(16, 0x100)], true, [⟨63, 0, .ro, 0⟩]⟩
  | .NDL_CLAIM0 => ⟨0x910040, [(16, 0x100)], true, [⟨63, 0, .ro, 0⟩]⟩
  | .NDL_CLAIM1 => ⟨0x910048, [(16, 0x100)], true, [⟨63, 0, .ro, 0⟩]⟩
  | .STM_UCTL => ⟨0xa00000, [(4, 0x1000)], false, [⟨3, 3, .wo, 0⟩, ⟨2, 2, .rw, 0⟩, ⟨1, 1, .rw, 0⟩, ⟨0, 0, .rw, 0⟩]⟩
  | .STM_USTAT => ⟨0xa00004, [(4, 0x1000)], false, [⟨14, 8, .ro, 0⟩, ⟨3, 3, .ro, 0⟩, ⟨2, 0, .ro, 0⟩]⟩
  | .STM_PLAY_OFS => ⟨0xa00008, [(4, 0x1000)], true, [⟨47, 0, .rw, 0⟩]⟩
  | .STM_PLAY_LEN => ⟨0xa00010, [(4, 0x1000)], false, [⟨31, 0, .rw, 4⟩]⟩
  | .STM_PLAY_CTL => ⟨0xa00014, [(4, 0x1000)], false, [⟨31, 31, .wo, 0⟩, ⟨1, 0, .rw, 0⟩]⟩
  | .STM_PLAY_STAT => ⟨0xa00018, [(4, 0x1000)], false, [⟨3, 0, .ro, 0⟩]⟩
  | .STM_START_TICK => ⟨0xa00020, [(4, 0x1000)], true, [⟨63, 0, .rw, 0⟩]⟩
  | .STM_UNDER_FIRST => ⟨0xa00028, [(4, 0x1000)], true, [⟨63, 0, .ro, 0⟩]⟩
  | .STM_TFREQ => ⟨0xa00040, [(4, 0x1000), (4, 0x10)], true, [⟨47, 0, .rw, 0⟩]⟩
  | .STM_TPA => ⟨0xa00048, [(4, 0x1000), (4, 0x10)], true, [⟨47, 32, .rw, 0⟩, ⟨31, 0, .rw, 0⟩]⟩
  | .STM_CNT_UNDER => ⟨0xa00080, [(4, 0x1000)], false, [⟨31, 0, .rc, 0⟩]⟩
  | .STM_CNT_CANCEL => ⟨0xa00084, [(4, 0x1000)], false, [⟨31, 0, .rc, 0⟩]⟩
  | .STM_CNT_REFUSED => ⟨0xa00088, [(4, 0x1000)], false, [⟨31, 0, .rc, 0⟩]⟩
  | .STM_CNT_SAT => ⟨0xa0008c, [(4, 0x1000)], false, [⟨31, 0, .rc, 0⟩]⟩
  | .STM_CNT_PLAYED => ⟨0xa00090, [(4, 0x1000)], false, [⟨31, 0, .ro, 0⟩]⟩
  | .STM_OUT_DLY => ⟨0xa000a0, [(4, 0x1000)], false, [⟨19, 0, .ro, 0⟩]⟩
  | .STM_INJ_DLY => ⟨0xa000a4, [(4, 0x1000)], false, [⟨19, 0, .ro, 0⟩]⟩
  | .STM_PF_STAT => ⟨0xa000a8, [(4, 0x1000)], false, [⟨10, 0, .ro, 0⟩]⟩
  | .BEN_STAT => ⟨0xb00000, [], false, [⟨6, 6, .ro, 0⟩, ⟨5, 5, .ro, 0⟩, ⟨4, 4, .ro, 0⟩, ⟨1, 1, .ro, 0⟩, ⟨0, 0, .ro, 0⟩]⟩
  | .BEN_THR => ⟨0xb00004, [], false, [⟨31, 24, .rw, 0x40⟩, ⟨23, 16, .rw, 0xa0⟩, ⟨15, 8, .rw, 0xc0⟩, ⟨7, 0, .rw, 0x80⟩]⟩
  | .BEN_STAGE_CTL => ⟨0xb00008, [], false, [⟨31, 16, .rw, 0xffff⟩, ⟨7, 0, .rw, 0xc0⟩]⟩
  | .BEN_HOST_DEFER => ⟨0xb0000c, [], false, [⟨31, 0, .rw, 0xc350⟩]⟩
  | .BEN_STAGE_USED => ⟨0xb00010, [], false, [⟨14, 0, .ro, 0⟩]⟩
  | .BEN_DROP_FIRST => ⟨0xb00018, [], true, [⟨63, 0, .ro, 0⟩]⟩
  | .BEN_CNT_DROPFR => ⟨0xb00020, [], false, [⟨31, 0, .rc, 0⟩]⟩
  | .BEN_CNT_CE => ⟨0xb00024, [], false, [⟨31, 0, .rc, 0⟩]⟩
  | .BEN_CNT_UE => ⟨0xb00028, [], false, [⟨31, 0, .rc, 0⟩]⟩
  | .BEN_CNT_DEFER => ⟨0xb0002c, [], false, [⟨31, 0, .rc, 0⟩]⟩
  | .BEN_HT_CTL => ⟨0xb10000, [(64, 0x40)], false, [⟨31, 31, .rw, 0⟩, ⟨30, 30, .wo, 0⟩, ⟨27, 16, .rw, 0⟩, ⟨15, 12, .ro, 0⟩, ⟨6, 5, .rw, 0⟩, ⟨2, 2, .rw, 0⟩, ⟨1, 0, .rw, 0⟩]⟩
  | .BEN_HT_STREAM => ⟨0xb10004, [(64, 0x40)], false, [⟨31, 31, .ro, 0⟩, ⟨15, 0, .rw, 0⟩]⟩
  | .BEN_HT_BASE => ⟨0xb10008, [(64, 0x40)], true, [⟨47, 0, .rw, 0⟩]⟩
  | .BEN_HT_SIZE => ⟨0xb10010, [(64, 0x40)], true, [⟨47, 0, .rw, 0⟩]⟩
  | .BEN_HT_WP => ⟨0xb10018, [(64, 0x40)], true, [⟨47, 0, .ro, 0⟩]⟩
  | .BEN_HT_REL => ⟨0xb10020, [(64, 0x40)], true, [⟨47, 0, .rw, 0⟩]⟩
  | .BEN_HT_OLDEST => ⟨0xb10028, [(64, 0x40)], true, [⟨63, 63, .ro, 0⟩, ⟨47, 0, .ro, 0⟩]⟩
  | .BEN_HT_CNT_SEG => ⟨0xb10030, [(64, 0x40)], false, [⟨31, 0, .ro, 0⟩]⟩
  | .BEN_HT_CNT_OVW => ⟨0xb10034, [(64, 0x40)], false, [⟨31, 0, .rc, 0⟩]⟩
  | .BEN_QRY_CTL => ⟨0xb20000, [], false, [⟨3, 3, .rw, 0⟩, ⟨2, 2, .rw, 0⟩, ⟨1, 1, .rw, 1⟩, ⟨0, 0, .rw, 0⟩]⟩
  | .BEN_QRY_STAT => ⟨0xb20004, [], false, [⟨31, 16, .ro, 0⟩, ⟨9, 8, .ro, 0⟩, ⟨5, 5, .ro, 0⟩, ⟨4, 4, .ro, 0⟩, ⟨3, 3, .ro, 0⟩, ⟨2, 2, .ro, 0⟩, ⟨1, 1, .ro, 0⟩, ⟨0, 0, .ro, 0⟩]⟩
  | .BEN_QRY_CAP => ⟨0xb20008, [], true, [⟨47, 0, .ro, 0⟩]⟩
  | .BEN_QRY_FREQ => ⟨0xb20010, [], false, [⟨31, 31, .wo, 0⟩, ⟨11, 8, .ro, 0⟩, ⟨1, 0, .rw, 0⟩]⟩
  | .BEN_QRY_RETIRE => ⟨0xb20014, [], false, [⟨31, 31, .wo, 0⟩, ⟨30, 30, .wo, 0⟩, ⟨11, 8, .ro, 0⟩, ⟨3, 0, .rw, 0⟩]⟩
  | .BEN_QRY_MIG => ⟨0xb20018, [], false, [⟨31, 0, .ro, 0⟩]⟩
  | .BEN_QRY_SCRUB => ⟨0xb2001c, [], false, [⟨15, 8, .rw, 8⟩, ⟨7, 0, .rw, 0x18⟩]⟩
  | .QRY_CSTAT => ⟨0xc00000, [(16, 0x10000)], false, [⟨22, 16, .ro, 0⟩, ⟨11, 11, .ro, 0⟩, ⟨9, 8, .ro, 0⟩, ⟨2, 0, .ro, 0⟩]⟩
  | .QRY_CNT_CE => ⟨0xc00004, [(16, 0x10000)], false, [⟨31, 0, .rc, 0⟩]⟩
  | .QRY_CNT_UE => ⟨0xc00008, [(16, 0x10000)], false, [⟨31, 0, .rc, 0⟩]⟩
  | .QRY_CNT_REFPOST => ⟨0xc0000c, [(16, 0x10000)], false, [⟨31, 0, .rc, 0⟩]⟩
  | .QRY_CNT_RRFULL => ⟨0xc00010, [(16, 0x10000)], false, [⟨31, 0, .rc, 0⟩]⟩
  | .QRY_RRT => ⟨0xc00100, [(16, 0x10000), (64, 0x8)], true, [⟨63, 63, .ro, 0⟩, ⟨62, 62, .ro, 0⟩, ⟨26, 24, .ro, 0⟩, ⟨23, 23, .ro, 0⟩, ⟨22, 20, .ro, 0⟩, ⟨19, 18, .ro, 0⟩, ⟨17, 0, .ro, 0⟩]⟩
  | .QUE_ALLOC => ⟨0xd00000, [], false, [⟨31, 31, .wo, 0⟩, ⟨30, 30, .rw, 1⟩, ⟨11, 0, .rw, 0⟩]⟩
  | .QUE_ALLOC_STAT => ⟨0xd00004, [], false, [⟨31, 31, .ro, 0⟩, ⟨30, 30, .ro, 0⟩, ⟨29, 29, .ro, 0⟩, ⟨11, 0, .ro, 0⟩]⟩
  | .QUE_G_SPOIL => ⟨0xd00008, [], false, [⟨31, 31, .rw, 0⟩, ⟨11, 0, .rw, 0⟩]⟩
  | .QUE_G_LOST => ⟨0xd0000c, [], false, [⟨31, 0, .rc, 0⟩]⟩
  | .QUE_G_BADDB => ⟨0xd00018, [], false, [⟨31, 0, .rc, 0⟩]⟩
  | .QUE_APT_CTL => ⟨0xd00010, [], false, [⟨0, 0, .rw, 0⟩]⟩
  | .QUE_CNT_APT => ⟨0xd00014, [], false, [⟨31, 16, .rc, 0⟩, ⟨15, 0, .rc, 0⟩]⟩
  | .QUE_APT => ⟨0xd00020, [(4, 0x8)], true, [⟨63, 62, .rw, 0⟩, ⟨47, 21, .rw, 0⟩]⟩
  | .QUE_BASE => ⟨0xd10000, [(4096, 0x40)], true, [⟨63, 12, .rw, 0⟩, ⟨0, 0, .rw, 0⟩]⟩
  | .QUE_WB => ⟨0xd10008, [(4096, 0x40)], true, [⟨63, 3, .rw, 0⟩, ⟨0, 0, .rw, 0⟩]⟩
  | .QUE_CFG => ⟨0xd10010, [(4096, 0x40)], false, [⟨31, 28, .rw, 0⟩, ⟨27, 26, .rw, 0⟩, ⟨25, 23, .rw, 0⟩, ⟨22, 18, .rw, 4⟩, ⟨11, 0, .rw, 0⟩]⟩
  | .QUE_CTL => ⟨0xd10014, [(4096, 0x40)], false, [⟨31, 31, .wo, 0⟩, ⟨0, 0, .rw, 0⟩]⟩
  | .QUE_DB => ⟨0xd10018, [(4096, 0x40)], false, [⟨20, 0, .wo, 0⟩]⟩
  | .QUE_STAT => ⟨0xd1001c, [(4096, 0x40)], false, [⟨31, 28, .ro, 0⟩, ⟨27, 24, .ro, 0⟩, ⟨2, 0, .ro, 0⟩]⟩
  | .QUE_IDX => ⟨0xd10020, [(4096, 0x40)], true, [⟨52, 32, .ro, 0⟩, ⟨20, 0, .ro, 0⟩]⟩
  | .QUE_INT => ⟨0xd10028, [(4096, 0x40)], false, [⟨31, 31, .rw, 0⟩, ⟨30, 20, .rw, 0⟩, ⟨19, 12, .rw, 0⟩, ⟨11, 0, .rw, 0⟩]⟩
  | .QUE_CNT => ⟨0xd1002c, [(4096, 0x40)], false, [⟨31, 16, .rc, 0⟩, ⟨15, 0, .rc, 0⟩]⟩
  | .EVR_CTL => ⟨0xf00000, [], false, [⟨15, 0, .rw, 0⟩]⟩
  | .EVR_CNT_LOST => ⟨0xf00004, [], false, [⟨31, 0, .rc, 0⟩]⟩
  | .EVR_PEND => ⟨0xf00100, [(20, 0x4)], false, [⟨31, 0, .w1c, 0⟩]⟩
  | .EVR_CFG => ⟨0xf01000, [(640, 0x4)], false, [⟨31, 31, .rw, 0⟩, ⟨30, 30, .rw, 0⟩, ⟨27, 16, .rw, 0⟩, ⟨10, 0, .rw, 0⟩]⟩
  | .XFE_G_BUSY => ⟨0xe00000, [], true, [⟨63, 0, .ro, 0⟩]⟩
  | .XFE_G_HALTED => ⟨0xe00008, [], true, [⟨63, 0, .ro, 0⟩]⟩
  | .XFE_CNT_BADGO => ⟨0xe00010, [], false, [⟨31, 0, .rc, 0⟩]⟩
  | .XFE_CTL => ⟨0xe10000, [(64, 0x80)], false, [⟨5, 4, .rw, 0⟩, ⟨2, 2, .wo, 0⟩, ⟨1, 1, .wo, 0⟩, ⟨0, 0, .rw, 0⟩]⟩
  | .XFE_STAT => ⟨0xe10004, [(64, 0x80)], false, [⟨11, 8, .ro, 0⟩, ⟨2, 0, .ro, 0⟩]⟩
  | .XFE_CFG => ⟨0xe10008, [(64, 0x80)], true, [⟨63, 0, .rw, 0⟩]⟩
  | .XFE_SRC => ⟨0xe10010, [(64, 0x80)], true, [⟨63, 0, .rw, 0⟩]⟩
  | .XFE_DST => ⟨0xe10018, [(64, 0x80)], true, [⟨63, 0, .rw, 0⟩]⟩
  | .XFE_DPTR => ⟨0xe10028, [(64, 0x80)], true, [⟨63, 0, .rw, 0⟩]⟩
  | .XFE_COUNT => ⟨0xe10020, [(64, 0x80)], true, [⟨39, 0, .rw, 0⟩]⟩
  | .XFE_NEXT => ⟨0xe10030, [(64, 0x80)], true, [⟨63, 0, .ro, 0⟩]⟩
  | .XFE_HOP_LIMIT => ⟨0xe10038, [(64, 0x80)], false, [⟨23, 0, .rw, 0x10000⟩]⟩
  | .XFE_CQ => ⟨0xe1003c, [(64, 0x80)], false, [⟨11, 0, .rw, 0⟩]⟩
  | .XFE_HOPS => ⟨0xe10040, [(64, 0x80)], false, [⟨24, 0, .ro, 0⟩]⟩
  | .ETH_CTL => ⟨0x1000000, [(3, 0x100000)], false, [⟨31, 16, .rw, 0xb7fc⟩, ⟨13, 12, .rw, 0⟩, ⟨1, 1, .rw, 1⟩, ⟨0, 0, .rw, 0⟩]⟩
  | .ETH_STAT => ⟨0x1000004, [(3, 0x100000)], false, [⟨11, 8, .ro, 0⟩, ⟨5, 5, .ro, 0⟩, ⟨4, 4, .ro, 0⟩, ⟨3, 2, .ro, 0⟩, ⟨0, 0, .ro, 0⟩]⟩
  | .ETH_RTX_BASE => ⟨0x1000010, [(3, 0x100000)], true, [⟨47, 0, .rw, 0⟩]⟩
  | .ETH_RTX_SIZE => ⟨0x1000018, [(3, 0x100000)], true, [⟨47, 0, .rw, 0⟩]⟩
  | .ETH_CR_CTL => ⟨0x1000020, [(3, 0x100000)], false, [⟨31, 24, .rw, 8⟩, ⟨23, 0, .rw, 0x1e848⟩]⟩
  | .ETH_PAY => ⟨0x1000024, [(3, 0x100000)], false, [⟨13, 0, .rw, 0x2300⟩]⟩
  | .ETH_HK_RATE => ⟨0x1000028, [(3, 0x100000)], false, [⟨15, 0, .rw, 0x64⟩]⟩
  | .ETH_CNT_FCS => ⟨0x1000040, [(3, 0x100000)], false, [⟨31, 0, .rc, 0⟩]⟩
  | .ETH_CNT_FOREIGN => ⟨0x1000044, [(3, 0x100000)], false, [⟨31, 0, .rc, 0⟩]⟩
  | .ETH_CNT_BADHDR => ⟨0x1000048, [(3, 0x100000)], false, [⟨31, 0, .rc, 0⟩]⟩
  | .ETH_CNT_UNKNOWN => ⟨0x100004c, [(3, 0x100000)], false, [⟨31, 0, .rc, 0⟩]⟩
  | .ETH_CNT_HKDROP => ⟨0x1000050, [(3, 0x100000)], false, [⟨31, 0, .rc, 0⟩]⟩
  | .ETH_CNT_STALE => ⟨0x1000054, [(3, 0x100000)], false, [⟨31, 0, .rc, 0⟩]⟩
  | .ETH_CNT_RETX => ⟨0x1000058, [(3, 0x100000)], false, [⟨31, 0, .rc, 0⟩]⟩
  | .ETH_CNT_ABANDON => ⟨0x100005c, [(3, 0x100000)], false, [⟨31, 0, .rc, 0⟩]⟩
  | .ETH_CNT_FA_REJ => ⟨0x1000060, [(3, 0x100000)], false, [⟨31, 0, .rc, 0⟩]⟩
  | .ETH_PTP_DLY => ⟨0x1000064, [(3, 0x100000)], false, [⟨31, 16, .ro, 0⟩, ⟨15, 0, .ro, 0⟩]⟩
  | .ETH_FA_Q => ⟨0x1000068, [(3, 0x100000)], false, [⟨31, 31, .rw, 0⟩, ⟨11, 0, .rw, 0⟩]⟩
  | .SYN_OWN => ⟨0x1400000, [], false, [⟨15, 0, .rw, 0⟩]⟩
  | .SYN_SYSID => ⟨0x1400004, [], false, [⟨31, 31, .rw, 0⟩, ⟨13, 0, .rw, 0⟩]⟩
  | .SYN_LAUNCH_K => ⟨0x1400008, [], false, [⟨15, 0, .rw, 0x8200⟩]⟩
  | .SYN_MSG_CTL => ⟨0x1400010, [], false, [⟨31, 31, .rw, 0⟩, ⟨18, 16, .rw, 0⟩, ⟨11, 0, .rw, 0x200⟩]⟩
  | .SYN_MSG_TX => ⟨0x1400014, [], false, [⟨31, 31, .wo, 0⟩, ⟨17, 10, .rw, 0⟩, ⟨9, 0, .rw, 0⟩]⟩
  | .SYN_MSG_STAT => ⟨0x1400018, [], false, [⟨12, 8, .ro, 0⟩, ⟨3, 0, .ro, 0⟩]⟩
  | .SYN_MSG_LAST => ⟨0x140001c, [], false, [⟨31, 0, .ro, 0⟩]⟩
  | .SYN_LFSR => ⟨0x1400020, [], false, [⟨31, 0, .rw, 0x3c6ef372⟩]⟩
  | .SYN_CNT_CONT => ⟨0x1400040, [], false, [⟨31, 0, .rc, 0⟩]⟩
  | .SYN_CNT_MSGBAD => ⟨0x1400044, [], false, [⟨31, 0, .rc, 0⟩]⟩
  | .SYN_CNT_COLL => ⟨0x1400048, [], false, [⟨31, 0, .rc, 0⟩]⟩
  | .SYN_CNT_TXFAIL => ⟨0x140004c, [], false, [⟨31, 0, .rc, 0⟩]⟩
  | .SYN_CNT_IDCLASH => ⟨0x1400050, [], false, [⟨31, 0, .rc, 0⟩]⟩
  | .SYN_CNT_RX => ⟨0x1400054, [], false, [⟨31, 0, .ro, 0⟩]⟩
  | .SYN_CNT_TX => ⟨0x1400058, [], false, [⟨31, 0, .ro, 0⟩]⟩
  | .SYN_PING_CTL => ⟨0x1400080, [], false, [⟨31, 31, .wo, 0⟩, ⟨30, 30, .rw, 0⟩, ⟨20, 16, .rw, 0⟩, ⟨15, 0, .rw, 0x100⟩]⟩
  | .SYN_PING_STAT => ⟨0x1400084, [], false, [⟨31, 16, .ro, 0⟩, ⟨3, 0, .ro, 0⟩]⟩
  | .SYN_PING_MEAN => ⟨0x1400088, [], true, [⟨63, 0, .ro, 0⟩]⟩
  | .SYN_PING_SD => ⟨0x1400090, [], false, [⟨31, 0, .ro, 0⟩]⟩
  | .SYN_PCFG => ⟨0x1410000, [(48, 0x20)], false, [⟨31, 30, .rw, 0⟩, ⟨29, 29, .rw, 0⟩, ⟨28, 28, .rw, 0⟩, ⟨27, 27, .rw, 0⟩, ⟨26, 26, .rw, 0⟩, ⟨25, 25, .rw, 0⟩, ⟨23, 16, .rw, 4⟩, ⟨9, 0, .rw, 0⟩]⟩
  | .SYN_IDLY => ⟨0x1410004, [(48, 0x20)], false, [⟨31, 0, .rw, 0⟩]⟩
  | .SYN_TRIM => ⟨0x1410008, [(48, 0x20)], false, [⟨31, 16, .rw, 0⟩, ⟨15, 0, .rw, 0⟩]⟩
  | .SYN_PSTAT => ⟨0x141000c, [(48, 0x20)], false, [⟨2, 2, .w1c, 0⟩, ⟨1, 1, .ro, 0⟩, ⟨0, 0, .w1c, 0⟩]⟩
  | .SYN_CNT_GLITCH => ⟨0x1410010, [(48, 0x20)], false, [⟨31, 0, .rc, 0⟩]⟩
  | .RAS_CTL => ⟨0x1500000, [], false, [⟨3, 2, .rw, 0⟩, ⟨1, 0, .rw, 0⟩]⟩
  | .RAS_GO => ⟨0x1500004, [], false, [⟨1, 0, .wo, 0⟩]⟩
  | .RAS_STAT => ⟨0x1500008, [], false, [⟨31, 24, .ro, 0⟩, ⟨23, 20, .ro, 0⟩, ⟨19, 16, .ro, 0⟩, ⟨5, 4, .ro, 0⟩, ⟨3, 2, .ro, 0⟩, ⟨1, 0, .ro, 0⟩]⟩
  | .RAS_CNT_REPAIR => ⟨0x150000c, [], false, [⟨31, 0, .rc, 0⟩]⟩
  | .DPY_COMMIT => ⟨0x1600000, [], false, [⟨1, 1, .wo, 0⟩, ⟨0, 0, .wo, 0⟩]⟩
  | .DPY_STAT => ⟨0x1600140, [(2, 0x100)], false, [⟨31, 28, .ro, 0⟩, ⟨12, 0, .ro, 0⟩]⟩
  | .DPY_LINK => ⟨0x1600144, [(2, 0x100)], false, [⟨5, 3, .ro, 0⟩, ⟨2, 1, .ro, 0⟩, ⟨0, 0, .ro, 0⟩]⟩
  | .DPY_CNT_SHDROP => ⟨0x1600148, [(2, 0x100)], false, [⟨31, 0, .rc, 0⟩]⟩
  | .DPY_CNT_REFUSED => ⟨0x160014c, [(2, 0x100)], false, [⟨31, 0, .rc, 0⟩]⟩
  | .DPY_CNT_UNDER => ⟨0x1600150, [(2, 0x100)], false, [⟨31, 0, .rc, 0⟩]⟩
  | .DPY_CNT_ABORT => ⟨0x1600154, [(2, 0x100)], false, [⟨31, 0, .rc, 0⟩]⟩
  | .DPY_CNT_TEMISS => ⟨0x1600158, [(2, 0x100)], false, [⟨31, 0, .rc, 0⟩]⟩
  | .HK_PWR_CTL => ⟨0x100000, [], false, [⟨2, 2, .rw, 0⟩, ⟨1, 1, .wo, 0⟩, ⟨0, 0, .wo, 0⟩]⟩
  | .HK_PWR_STAT => ⟨0x100004, [], false, [⟨5, 4, .ro, 0⟩, ⟨1, 0, .ro, 0⟩]⟩
  | .HK_RST => ⟨0x100008, [], false, [⟨15, 8, .wo, 0⟩, ⟨1, 1, .wo, 0⟩, ⟨0, 0, .wo, 0⟩]⟩
  | .HK_FW_CTL => ⟨0x100040, [], false, [⟨11, 8, .ro, 0⟩, ⟨1, 1, .wo, 0⟩, ⟨0, 0, .wo, 0⟩]⟩
  | .GLB_LC => ⟨0x20, [], false, [⟨15, 10, .ro, 0⟩, ⟨9, 9, .ro, 0⟩, ⟨8, 8, .ro, 0⟩, ⟨7, 4, .ro, 0⟩, ⟨3, 2, .ro, 0⟩, ⟨1, 0, .ro, 0⟩]⟩
  | .SEC_UID => ⟨0x1700000, [], true, [⟨63, 0, .ro, 0⟩]⟩
  | .SEC_NONCE => ⟨0x1700008, [], true, [⟨63, 0, .ro, 0⟩]⟩
  | .SEC_CMD_SRC => ⟨0x1700010, [], true, [⟨47, 0, .rw, 0⟩]⟩
  | .SEC_CMD => ⟨0x1700018, [], false, [⟨31, 31, .wo, 0⟩]⟩
  | .SEC_STAT => ⟨0x170001c, [], false, [⟨10, 8, .ro, 0⟩, ⟨3, 0, .ro, 0⟩]⟩
  | .SEC_CNT_IDE => ⟨0x1700020, [], false, [⟨31, 0, .rc, 0⟩]⟩
  | .GLB_CNT_SAT => ⟨0x30, [], false, [⟨20, 20, .rc, 0⟩, ⟨19, 19, .rc, 0⟩, ⟨18, 18, .rc, 0⟩, ⟨17, 17, .rc, 0⟩, ⟨16, 16, .rc, 0⟩, ⟨15, 15, .rc, 0⟩, ⟨14, 14, .rc, 0⟩, ⟨13, 13, .rc, 0⟩, ⟨12, 12, .rc, 0⟩, ⟨11, 11, .rc, 0⟩, ⟨10, 10, .rc, 0⟩, ⟨9, 9, .rc, 0⟩, ⟨8, 8, .rc, 0⟩, ⟨7, 7, .rc, 0⟩, ⟨6, 6, .rc, 0⟩, ⟨5, 5, .rc, 0⟩, ⟨4, 4, .rc, 0⟩, ⟨3, 3, .rc, 0⟩, ⟨2, 2, .rc, 0⟩, ⟨1, 1, .rc, 0⟩, ⟨0, 0, .rc, 0⟩]⟩
  | .TST_CTL => ⟨0x1800000, [(8, 0x40)], false, [⟨31, 31, .rw, 0⟩, ⟨22, 20, .rw, 0⟩, ⟨17, 16, .rw, 0⟩, ⟨11, 8, .rw, 0⟩, ⟨2, 0, .rw, 0⟩]⟩
  | .TST_STAT => ⟨0x1800004, [(8, 0x40)], false, [⟨4, 4, .ro, 0⟩, ⟨3, 0, .ro, 0⟩]⟩
  | .TST_PAT_WORD => ⟨0x1800008, [(8, 0x40)], false, [⟨31, 0, .rw, 0xff00ff⟩]⟩
  | .TST_LOSS => ⟨0x180000c, [(8, 0x40)], false, [⟨31, 0, .ro, 0⟩]⟩
  | .TST_BITS => ⟨0x1800010, [(8, 0x40)], true, [⟨63, 0, .ro, 0⟩]⟩
  | .TST_ERRS => ⟨0x1800018, [(8, 0x40)], true, [⟨63, 0, .ro, 0⟩]⟩
  | .TST_REGION_BASE => ⟨0x1800020, [(8, 0x40)], true, [⟨47, 0, .rw, 0⟩]⟩
  | .TST_REGION_SIZE => ⟨0x1800028, [(8, 0x40)], true, [⟨47, 0, .rw, 0⟩]⟩
  | .TST_CRC => ⟨0x1800030, [(8, 0x40)], true, [⟨47, 32, .ro, 0⟩, ⟨31, 16, .ro, 0⟩, ⟨15, 0, .ro, 0⟩]⟩
  | .ETH_MAC => ⟨0x1000100, [(3, 0x100000), (4, 0x40)], true, [⟨47, 0, .rw, 0⟩]⟩
  | .ETH_IP4 => ⟨0x1000108, [(3, 0x100000), (4, 0x40)], false, [⟨31, 0, .rw, 0⟩]⟩
  | .ETH_IP6 => ⟨0x1000110, [(3, 0x100000), (4, 0x40), (4, 0x4)], false, [⟨31, 0, .rw, 0⟩]⟩
  | .ETH_DST_CTL => ⟨0x1001000, [(3, 0x100000), (64, 0x40)], false, [⟨31, 31, .rw, 0⟩, ⟨29, 28, .rw, 0⟩, ⟨15, 0, .rw, 0⟩]⟩
  | .ETH_DST_MAC => ⟨0x1001008, [(3, 0x100000), (64, 0x40)], true, [⟨47, 0, .rw, 0⟩]⟩
  | .ETH_DST_IP => ⟨0x1001010, [(3, 0x100000), (64, 0x40), (4, 0x4)], false, [⟨31, 0, .rw, 0⟩]⟩
  | .ETH_FA_KEY => ⟨0x1008000, [(4, 0x40), (8, 0x4)], false, [⟨31, 0, .wo, 0⟩]⟩
  | .ETH_FA_KCTL => ⟨0x1008020, [(4, 0x40)], false, [⟨0, 0, .rw, 0⟩]⟩
  | .ETH_FA_LAST => ⟨0x1008028, [(4, 0x40)], true, [⟨63, 0, .ro, 0⟩]⟩
  | .RAS_CV_SIZE => ⟨0x1500100, [(2, 0x40)], false, [⟨27, 16, .rw, 0⟩, ⟨11, 0, .rw, 0⟩]⟩
  | .RAS_CV_BUF0 => ⟨0x1500108, [(2, 0x40)], false, [⟨26, 12, .rw, 0⟩]⟩
  | .RAS_CV_BUF1 => ⟨0x1500110, [(2, 0x40)], false, [⟨26, 12, .rw, 0⟩]⟩
  | .RAS_CV_OVL => ⟨0x1500118, [(2, 0x40)], false, [⟨26, 12, .rw, 0⟩]⟩
  | .RAS_CV_BG => ⟨0x1500120, [(2, 0x40)], false, [⟨23, 0, .rw, 0⟩]⟩
  | .RAS_LY_CTL => ⟨0x1500200, [(8, 0x20)], false, [⟨31, 31, .rw, 0⟩, ⟨30, 30, .rw, 0⟩, ⟨28, 26, .rw, 0⟩, ⟨24, 24, .rw, 0⟩, ⟨23, 20, .rw, 0⟩, ⟨19, 16, .rw, 0⟩]⟩
  | .RAS_LY_POS => ⟨0x1500204, [(8, 0x20)], false, [⟨27, 16, .rw, 0⟩, ⟨11, 0, .rw, 0⟩]⟩
  | .RAS_LY_SCALE => ⟨0x1500208, [(8, 0x20)], false, [⟨31, 0, .rw, 0x10000⟩]⟩
  | .RAS_LP_CTL => ⟨0x1500400, [(4, 0x10)], false, [⟨31, 31, .rw, 0⟩, ⟨30, 30, .rw, 0⟩, ⟨26, 12, .rw, 0⟩]⟩
  | .RAS_LP_COLOUR => ⟨0x1500404, [(4, 0x10)], false, [⟨23, 0, .rw, 0⟩]⟩
  | .RAS_LUT => ⟨0x1510000, [(9, 0x400), (256, 0x4)], false, [⟨31, 24, .rw, 0⟩, ⟨23, 0, .rw, 0⟩]⟩
  | .DPY_CTL => ⟨0x1600100, [(2, 0x100)], false, [⟨31, 31, .rw, 0⟩, ⟨1, 1, .rw, 0⟩]⟩
  | .DPY_H => ⟨0x1600104, [(2, 0x100)], false, [⟨28, 16, .rw, 0⟩, ⟨11, 0, .rw, 0⟩]⟩
  | .DPY_HS => ⟨0x1600108, [(2, 0x100)], false, [⟨27, 16, .rw, 0⟩, ⟨11, 0, .rw, 0⟩]⟩
  | .DPY_V => ⟨0x160010c, [(2, 0x100)], false, [⟨28, 16, .rw, 0⟩, ⟨11, 0, .rw, 0⟩]⟩
  | .DPY_VS => ⟨0x1600110, [(2, 0x100)], false, [⟨27, 16, .rw, 0⟩, ⟨11, 0, .rw, 0⟩]⟩
  | .DPY_VRR => ⟨0x1600114, [(2, 0x100)], false, [⟨31, 31, .rw, 0⟩, ⟨12, 0, .rw, 0⟩]⟩
  | .DPY_PCLK => ⟨0x1600118, [(2, 0x100)], false, [⟨20, 0, .rw, 0⟩]⟩
  | .DPY_SRC => ⟨0x160011c, [(2, 0x100)], false, [⟨31, 31, .rw, 0⟩, ⟨30, 30, .rw, 0⟩, ⟨26, 12, .rw, 0⟩]⟩
  | .DPY_ORIENT => ⟨0x1600120, [(2, 0x100)], false, [⟨2, 2, .rw, 0⟩, ⟨1, 0, .rw, 0⟩]⟩
  | .DPY_UNDER_LIM => ⟨0x1600124, [(2, 0x100)], false, [⟨23, 0, .rw, 0x1000⟩]⟩
  | .DPY_DB_LINK => ⟨0x1600128, [(2, 0x100)], false, [⟨18, 16, .rw, 0⟩, ⟨12, 0, .rw, 0⟩]⟩
  | .DPY_TE_TO => ⟨0x160012c, [(2, 0x100)], false, [⟨15, 0, .rw, 0x32⟩]⟩
  | .HK_WAKE_CTL => ⟨0x100010, [], false, [⟨20, 16, .rw, 1⟩, ⟨15, 0, .rw, 0⟩]⟩
  | .HK_WAKE_TICK => ⟨0x100018, [], true, [⟨63, 0, .rw, 0⟩]⟩
  | .HK_WAKE_CAUSE => ⟨0x100020, [], true, [⟨63, 61, .ro, 0⟩, ⟨60, 0, .ro, 0⟩]⟩
  | .HK_RST_CAUSE => ⟨0x100028, [], false, [⟨3, 0, .ro, 0⟩]⟩
  | .HK_PD_OFF => ⟨0x10002c, [], false, [⟨31, 31, .wo, 0⟩, ⟨9, 8, .ro, 0⟩, ⟨6, 0, .rw, 0⟩]⟩
  | .HK_PD_STAT => ⟨0x100030, [(3, 0x4)], false, [⟨31, 0, .ro, 0⟩]⟩
  | .HK_PD_LINGER => ⟨0x10003c, [], false, [⟨15, 0, .rw, 0x64⟩]⟩
  | .HK_FW_SRC => ⟨0x100048, [], true, [⟨63, 0, .rw, 0⟩]⟩
  | .HK_FW_LEN => ⟨0x100050, [], false, [⟨31, 0, .rw, 0⟩]⟩
  | .HK_BOOT => ⟨0x100054, [], false, [⟨31, 16, .ro, 0⟩, ⟨2, 2, .ro, 0⟩, ⟨1, 0, .ro, 0⟩]⟩
  | .HK_THERM => ⟨0x100060, [], false, [⟨31, 16, .rw, 0x6e0⟩, ⟨15, 0, .rw, 0x640⟩]⟩
  | .HK_TEMP => ⟨0x100064, [], false, [⟨15, 0, .ro, 0⟩]⟩
  | .HK_CNT_SLEEPACC => ⟨0x100068, [], false, [⟨31, 0, .rc, 0⟩]⟩
  | .HK_DEC_IDX => ⟨0x100070, [], false, [⟨31, 0, .ro, 0⟩]⟩
  | .HK_DEC => ⟨0x101000, [(256, 0x10), (4, 0x4)], false, [⟨31, 0, .ro, 0⟩]⟩

/-! The fields, named as the maps name them. -/

def GLB_ID.PART : Fld := ⟨.GLB_ID, 16, 16⟩
def GLB_ID.FAMILY : Fld := ⟨.GLB_ID, 8, 8⟩
def GLB_REV.ENGINE_STEP : Fld := ⟨.GLB_REV, 24, 8⟩
def GLB_REV.SLICE_STEP : Fld := ⟨.GLB_REV, 16, 8⟩
def GLB_ACC_ERR.BADSIZE : Fld := ⟨.GLB_ACC_ERR, 16, 16⟩
def GLB_ACC_ERR.UNMAPPED : Fld := ⟨.GLB_ACC_ERR, 0, 16⟩
def CV_SCTL.ROT_EN : Fld := ⟨.CV_SCTL, 2, 1⟩
def CV_SCTL.EN : Fld := ⟨.CV_SCTL, 0, 1⟩
def CV_SSTAT.INTERP_TH : Fld := ⟨.CV_SSTAT, 24, 8⟩
def CV_SSTAT.NINE_TH : Fld := ⟨.CV_SSTAT, 16, 8⟩
def CV_SSTAT.NOSPARE_TH : Fld := ⟨.CV_SSTAT, 8, 8⟩
def CV_SSTAT.INJ_ACTIVE : Fld := ⟨.CV_SSTAT, 2, 1⟩
def CV_SSTAT.DEGRADED : Fld := ⟨.CV_SSTAT, 1, 1⟩
def CV_SSTAT.READY : Fld := ⟨.CV_SSTAT, 0, 1⟩
def CV_ROT_PERIOD.PERIOD : Fld := ⟨.CV_ROT_PERIOD, 0, 32⟩
def CV_OVR_CNT.COUNT : Fld := ⟨.CV_OVR_CNT, 0, 32⟩
def CV_NRDY_CNT.COUNT : Fld := ⟨.CV_NRDY_CNT, 0, 32⟩
def CV_SWAP_CNT.COUNT : Fld := ⟨.CV_SWAP_CNT, 0, 32⟩
def CV_FAIL_CLR.GROUP : Fld := ⟨.CV_FAIL_CLR, 16, 3⟩
def CV_FAIL_CLR.UMASK : Fld := ⟨.CV_FAIL_CLR, 0, 11⟩
def CV_DAC_CTL.MODE : Fld := ⟨.CV_DAC_CTL, 8, 2⟩
def CV_DAC_CTL.STIM_ATT : Fld := ⟨.CV_DAC_CTL, 4, 4⟩
def CV_DAC_CTL.ROUTE : Fld := ⟨.CV_DAC_CTL, 0, 2⟩
def CV_DEGWIN_START.TICK : Fld := ⟨.CV_DEGWIN_START, 0, 64⟩
def CV_DEGWIN_END.TICK : Fld := ⟨.CV_DEGWIN_END, 0, 64⟩
def CV_DEGWIN_SEQ.COUNT : Fld := ⟨.CV_DEGWIN_SEQ, 0, 32⟩
def CV_GRP_STAT.FAILED : Fld := ⟨.CV_GRP_STAT, 16, 11⟩
def CV_GRP_STAT.SPARE : Fld := ⟨.CV_GRP_STAT, 8, 4⟩
def CV_GRP_STAT.IN_SERVICE : Fld := ⟨.CV_GRP_STAT, 4, 4⟩
def CV_GRP_STAT.STATE : Fld := ⟨.CV_GRP_STAT, 0, 3⟩
def CV_SLOTMAP.SLOT : Fld := ⟨.CV_SLOTMAP, 0, 40⟩
def CV_CORR_CTL.HOST_TIM : Fld := ⟨.CV_CORR_CTL, 3, 1⟩
def CV_CORR_CTL.HOST_SUB : Fld := ⟨.CV_CORR_CTL, 2, 1⟩
def CV_CORR_CTL.EQ_BYPASS : Fld := ⟨.CV_CORR_CTL, 1, 1⟩
def CV_TBL_COMMIT.SUB : Fld := ⟨.CV_TBL_COMMIT, 1, 1⟩
def CV_TBL_COMMIT.TIM : Fld := ⟨.CV_TBL_COMMIT, 0, 1⟩
def CV_TBL_STAT.LAST_REFUSE : Fld := ⟨.CV_TBL_STAT, 4, 2⟩
def CV_TBL_STAT.TIM_DISC : Fld := ⟨.CV_TBL_STAT, 2, 1⟩
def CV_TBL_STAT.TIM_ACTIVE : Fld := ⟨.CV_TBL_STAT, 1, 1⟩
def CV_TBL_STAT.PENDING : Fld := ⟨.CV_TBL_STAT, 0, 1⟩
def CV_TBL_DROP.REFUSED : Fld := ⟨.CV_TBL_DROP, 16, 16⟩
def CV_TBL_DROP.DROPPED : Fld := ⟨.CV_TBL_DROP, 0, 16⟩
def CV_CLIP_CNT.COUNT : Fld := ⟨.CV_CLIP_CNT, 0, 32⟩
def CV_TSW_TICK.TICK : Fld := ⟨.CV_TSW_TICK, 0, 64⟩
def CV_SUB_ARM.P : Fld := ⟨.CV_SUB_ARM, 0, 32⟩
def CV_SUB_ACT.P : Fld := ⟨.CV_SUB_ACT, 0, 32⟩
def CV_SUB_DISC.P : Fld := ⟨.CV_SUB_DISC, 0, 32⟩
def CV_SKW_CTL.LOG2N : Fld := ⟨.CV_SKW_CTL, 16, 5⟩
def CV_SKW_CTL.MU_SHIFT : Fld := ⟨.CV_SKW_CTL, 12, 4⟩
def CV_SKW_CTL.BG_EN : Fld := ⟨.CV_SKW_CTL, 0, 1⟩
def CV_SKW_PMIN.PMIN : Fld := ⟨.CV_SKW_PMIN, 0, 32⟩
def CV_SKW_STAT.SKIPPED : Fld := ⟨.CV_SKW_STAT, 16, 16⟩
def CV_SKW_STAT.UPDATES : Fld := ⟨.CV_SKW_STAT, 0, 16⟩
def CV_SKW_DLT.VALUE : Fld := ⟨.CV_SKW_DLT, 0, 16⟩
def CV_SWATCH_TAU.VALUE : Fld := ⟨.CV_SWATCH_TAU, 0, 16⟩
def CV_SWATCH_CTL.AMP : Fld := ⟨.CV_SWATCH_CTL, 16, 8⟩
def CV_SWATCH_CTL.COUNT : Fld := ⟨.CV_SWATCH_CTL, 8, 8⟩
def CV_SWATCH_CTL.APPLY : Fld := ⟨.CV_SWATCH_CTL, 1, 1⟩
def CV_SWATCH_CTL.START : Fld := ⟨.CV_SWATCH_CTL, 0, 1⟩
def CV_SWATCH_FREQ.FTW : Fld := ⟨.CV_SWATCH_FREQ, 0, 48⟩
def CV_SWATCH_STAT.DROPS : Fld := ⟨.CV_SWATCH_STAT, 16, 16⟩
def CV_SWATCH_STAT.RESULT : Fld := ⟨.CV_SWATCH_STAT, 4, 4⟩
def TB_REF_CTL.QUAL : Fld := ⟨.TB_REF_CTL, 16, 8⟩
def TB_REF_CTL.REFOUT_100 : Fld := ⟨.TB_REF_CTL, 5, 1⟩
def TB_REF_CTL.REFOUT_EN : Fld := ⟨.TB_REF_CTL, 4, 1⟩
def TB_REF_CTL.SEL : Fld := ⟨.TB_REF_CTL, 0, 3⟩
def TB_REF_STAT.STATE : Fld := ⟨.TB_REF_STAT, 12, 4⟩
def TB_REF_STAT.ACTIVE : Fld := ⟨.TB_REF_STAT, 8, 2⟩
def TB_REF_STAT.ALIGNED : Fld := ⟨.TB_REF_STAT, 4, 1⟩
def TB_REF_STAT.EXT_PRES : Fld := ⟨.TB_REF_STAT, 3, 1⟩
def TB_REF_STAT.REF_100 : Fld := ⟨.TB_REF_STAT, 2, 1⟩
def TB_REF_STAT.REF_PRES : Fld := ⟨.TB_REF_STAT, 1, 1⟩
def TB_REF_STAT.VALID : Fld := ⟨.TB_REF_STAT, 0, 1⟩
def TB_NOW.WORD : Fld := ⟨.TB_NOW, 0, 32⟩
def TB_PPS_CAP.WORD : Fld := ⟨.TB_PPS_CAP, 0, 32⟩
def TB_ORIGIN_CTL.RESULT : Fld := ⟨.TB_ORIGIN_CTL, 6, 2⟩
def TB_ORIGIN_CTL.WHEN : Fld := ⟨.TB_ORIGIN_CTL, 2, 2⟩
def TB_ORIGIN_CTL.GO : Fld := ⟨.TB_ORIGIN_CTL, 0, 1⟩
def TB_TAI_SEC.SEC : Fld := ⟨.TB_TAI_SEC, 0, 64⟩
def TB_TAI_OFS.TICKS : Fld := ⟨.TB_TAI_OFS, 0, 37⟩
def TB_SLEW.STEP_MIN : Fld := ⟨.TB_SLEW, 24, 8⟩
def TB_SLEW.STEP_EN : Fld := ⟨.TB_SLEW, 16, 1⟩
def TB_SLEW.PPB : Fld := ⟨.TB_SLEW, 0, 7⟩
def TB_PHASE_ERR.ERR : Fld := ⟨.TB_PHASE_ERR, 0, 64⟩
def TB_PPS_CTL.WIDTH : Fld := ⟨.TB_PPS_CTL, 16, 16⟩
def TB_PPS_CTL.ALIGN_SRC : Fld := ⟨.TB_PPS_CTL, 1, 2⟩
def TB_PPS_CTL.OUT_EN : Fld := ⟨.TB_PPS_CTL, 0, 1⟩
def TB_PTP_CTL.DOMAIN : Fld := ⟨.TB_PTP_CTL, 16, 8⟩
def TB_PTP_CTL.PROFILE : Fld := ⟨.TB_PTP_CTL, 8, 2⟩
def TB_PTP_CTL.SLAVE_ONLY : Fld := ⟨.TB_PTP_CTL, 4, 1⟩
def TB_PTP_CTL.TWO_STEP : Fld := ⟨.TB_PTP_CTL, 3, 1⟩
def TB_PTP_CTL.PORT : Fld := ⟨.TB_PTP_CTL, 1, 2⟩
def TB_PTP_CTL.EN : Fld := ⟨.TB_PTP_CTL, 0, 1⟩
def TB_LOSS_CNT.UNLOCKS : Fld := ⟨.TB_LOSS_CNT, 16, 16⟩
def TB_LOSS_CNT.REF_LOSSES : Fld := ⟨.TB_LOSS_CNT, 0, 16⟩
def TRG_CTL.EN : Fld := ⟨.TRG_CTL, 0, 1⟩
def TRG_ARM.DISARM : Fld := ⟨.TRG_ARM, 1, 1⟩
def TRG_ARM.ARM : Fld := ⟨.TRG_ARM, 0, 1⟩
def TRG_STAT.SEQ_DELAY : Fld := ⟨.TRG_STAT, 12, 1⟩
def TRG_STAT.LAST_REFUSE : Fld := ⟨.TRG_STAT, 8, 2⟩
def TRG_STAT.PRF_ACTIVE : Fld := ⟨.TRG_STAT, 5, 1⟩
def TRG_STAT.PRF_PENDING : Fld := ⟨.TRG_STAT, 4, 1⟩
def TRG_STAT.PHASE : Fld := ⟨.TRG_STAT, 2, 2⟩
def TRG_STAT.ARMED : Fld := ⟨.TRG_STAT, 0, 1⟩
def TRG_PRF_COMMIT.GO : Fld := ⟨.TRG_PRF_COMMIT, 0, 1⟩
def TRG_FORCE.GO : Fld := ⟨.TRG_FORCE, 0, 1⟩
def TRG_PRE_EFF.PRE : Fld := ⟨.TRG_PRE_EFF, 0, 32⟩
def TRG_TCMP_TICK.TICK : Fld := ⟨.TRG_TCMP_TICK, 0, 64⟩
def TRG_TCMP_CTL.ERA : Fld := ⟨.TRG_TCMP_CTL, 8, 8⟩
def TRG_TCMP_CTL.EN : Fld := ⟨.TRG_TCMP_CTL, 0, 1⟩
def TRG_MSG.ANY_SRC : Fld := ⟨.TRG_MSG, 30, 1⟩
def TRG_MSG.SRC_ID : Fld := ⟨.TRG_MSG, 16, 14⟩
def TRG_MSG.EN : Fld := ⟨.TRG_MSG, 8, 1⟩
def TRG_MSG.CODE : Fld := ⟨.TRG_MSG, 0, 8⟩
def TRG_LFSR.STATE : Fld := ⟨.TRG_LFSR, 0, 32⟩
def TRG_LAST.WORD : Fld := ⟨.TRG_LAST, 0, 32⟩
def TRG_OVR_FIRST.WORD : Fld := ⟨.TRG_OVR_FIRST, 0, 32⟩
def TRG_CNT_ACC.COUNT : Fld := ⟨.TRG_CNT_ACC, 0, 32⟩
def TRG_CNT_FILL.COUNT : Fld := ⟨.TRG_CNT_FILL, 0, 32⟩
def TRG_CNT_HOLD.COUNT : Fld := ⟨.TRG_CNT_HOLD, 0, 32⟩
def TRG_CNT_BUSY.COUNT : Fld := ⟨.TRG_CNT_BUSY, 0, 32⟩
def TRG_CNT_OVR.COUNT : Fld := ⟨.TRG_CNT_OVR, 0, 32⟩
def TRG_CNT_LATE.COUNT : Fld := ⟨.TRG_CNT_LATE, 0, 32⟩
def TRG_PRF_DROP.REFUSED : Fld := ⟨.TRG_PRF_DROP, 16, 16⟩
def TRG_PRF_DROP.DROPPED : Fld := ⟨.TRG_PRF_DROP, 0, 16⟩
def TRG_CMP.SENSE : Fld := ⟨.TRG_CMP, 31, 1⟩
def TRG_CMP.HYST : Fld := ⟨.TRG_CMP, 16, 15⟩
def TRG_CMP.LEVEL : Fld := ⟨.TRG_CMP, 0, 16⟩
def TRG_CMP_ACT.SENSE : Fld := ⟨.TRG_CMP_ACT, 31, 1⟩
def TRG_CMP_ACT.HYST : Fld := ⟨.TRG_CMP_ACT, 16, 15⟩
def TRG_CMP_ACT.LEVEL : Fld := ⟨.TRG_CMP_ACT, 0, 16⟩
def TRG_SLOTA.TYPE : Fld := ⟨.TRG_SLOTA, 28, 4⟩
def TRG_SLOTA.COND : Fld := ⟨.TRG_SLOTA, 26, 2⟩
def TRG_SLOTA.INV : Fld := ⟨.TRG_SLOTA, 25, 1⟩
def TRG_SLOTA.EITHER : Fld := ⟨.TRG_SLOTA, 24, 1⟩
def TRG_SLOTA.QUAL : Fld := ⟨.TRG_SLOTA, 23, 1⟩
def TRG_SLOTA.SRC : Fld := ⟨.TRG_SLOTA, 0, 10⟩
def TRG_SLOTA_ACT.TYPE : Fld := ⟨.TRG_SLOTA_ACT, 28, 4⟩
def TRG_SLOTA_ACT.COND : Fld := ⟨.TRG_SLOTA_ACT, 26, 2⟩
def TRG_SLOTA_ACT.INV : Fld := ⟨.TRG_SLOTA_ACT, 25, 1⟩
def TRG_SLOTA_ACT.EITHER : Fld := ⟨.TRG_SLOTA_ACT, 24, 1⟩
def TRG_SLOTA_ACT.QUAL : Fld := ⟨.TRG_SLOTA_ACT, 23, 1⟩
def TRG_SLOTA_ACT.SRC : Fld := ⟨.TRG_SLOTA_ACT, 0, 10⟩
def TRG_SLOTB.TYPE : Fld := ⟨.TRG_SLOTB, 28, 4⟩
def TRG_SLOTB.COND : Fld := ⟨.TRG_SLOTB, 26, 2⟩
def TRG_SLOTB.INV : Fld := ⟨.TRG_SLOTB, 25, 1⟩
def TRG_SLOTB.EITHER : Fld := ⟨.TRG_SLOTB, 24, 1⟩
def TRG_SLOTB.QUAL : Fld := ⟨.TRG_SLOTB, 23, 1⟩
def TRG_SLOTB.SRC : Fld := ⟨.TRG_SLOTB, 0, 10⟩
def TRG_SLOTB_ACT.TYPE : Fld := ⟨.TRG_SLOTB_ACT, 28, 4⟩
def TRG_SLOTB_ACT.COND : Fld := ⟨.TRG_SLOTB_ACT, 26, 2⟩
def TRG_SLOTB_ACT.INV : Fld := ⟨.TRG_SLOTB_ACT, 25, 1⟩
def TRG_SLOTB_ACT.EITHER : Fld := ⟨.TRG_SLOTB_ACT, 24, 1⟩
def TRG_SLOTB_ACT.QUAL : Fld := ⟨.TRG_SLOTB_ACT, 23, 1⟩
def TRG_SLOTB_ACT.SRC : Fld := ⟨.TRG_SLOTB_ACT, 0, 10⟩
def TRG_SLOTA_T1.TIME : Fld := ⟨.TRG_SLOTA_T1, 0, 48⟩
def TRG_SLOTA_T1_ACT.TIME : Fld := ⟨.TRG_SLOTA_T1_ACT, 0, 48⟩
def TRG_SLOTA_T2.TIME : Fld := ⟨.TRG_SLOTA_T2, 0, 48⟩
def TRG_SLOTA_T2_ACT.TIME : Fld := ⟨.TRG_SLOTA_T2_ACT, 0, 48⟩
def TRG_SLOTB_T1.TIME : Fld := ⟨.TRG_SLOTB_T1, 0, 48⟩
def TRG_SLOTB_T1_ACT.TIME : Fld := ⟨.TRG_SLOTB_T1_ACT, 0, 48⟩
def TRG_SLOTB_T2.TIME : Fld := ⟨.TRG_SLOTB_T2, 0, 48⟩
def TRG_SLOTB_T2_ACT.TIME : Fld := ⟨.TRG_SLOTB_T2_ACT, 0, 48⟩
def TRG_SEQ_DLY.TIME : Fld := ⟨.TRG_SEQ_DLY, 0, 48⟩
def TRG_SEQ_DLY_ACT.TIME : Fld := ⟨.TRG_SEQ_DLY_ACT, 0, 48⟩
def TRG_SEQ.EN : Fld := ⟨.TRG_SEQ, 31, 1⟩
def TRG_SEQ.DLY_KIND : Fld := ⟨.TRG_SEQ, 30, 1⟩
def TRG_SEQ.RESTART : Fld := ⟨.TRG_SEQ, 29, 1⟩
def TRG_SEQ.RST_EN : Fld := ⟨.TRG_SEQ, 28, 1⟩
def TRG_SEQ.RST_SRC : Fld := ⟨.TRG_SEQ, 16, 10⟩
def TRG_SEQ.N : Fld := ⟨.TRG_SEQ, 0, 16⟩
def TRG_SEQ_ACT.EN : Fld := ⟨.TRG_SEQ_ACT, 31, 1⟩
def TRG_SEQ_ACT.DLY_KIND : Fld := ⟨.TRG_SEQ_ACT, 30, 1⟩
def TRG_SEQ_ACT.RESTART : Fld := ⟨.TRG_SEQ_ACT, 29, 1⟩
def TRG_SEQ_ACT.RST_EN : Fld := ⟨.TRG_SEQ_ACT, 28, 1⟩
def TRG_SEQ_ACT.RST_SRC : Fld := ⟨.TRG_SEQ_ACT, 16, 10⟩
def TRG_SEQ_ACT.N : Fld := ⟨.TRG_SEQ_ACT, 0, 16⟩
def TRG_HOLD.KIND : Fld := ⟨.TRG_HOLD, 30, 2⟩
def TRG_HOLD.COUNT : Fld := ⟨.TRG_HOLD, 0, 24⟩
def TRG_HOLD_ACT.KIND : Fld := ⟨.TRG_HOLD_ACT, 30, 2⟩
def TRG_HOLD_ACT.COUNT : Fld := ⟨.TRG_HOLD_ACT, 0, 24⟩
def TRG_HOLD_T.TICKS : Fld := ⟨.TRG_HOLD_T, 0, 48⟩
def TRG_HOLD_T_ACT.TICKS : Fld := ⟨.TRG_HOLD_T_ACT, 0, 48⟩
def TRG_HOLD_MAX.TICKS : Fld := ⟨.TRG_HOLD_MAX, 0, 48⟩
def TRG_HOLD_MAX_ACT.TICKS : Fld := ⟨.TRG_HOLD_MAX_ACT, 0, 48⟩
def TRG_PAT_CTL.CLK_SRC : Fld := ⟨.TRG_PAT_CTL, 16, 10⟩
def TRG_PAT_CTL.CLK_INV : Fld := ⟨.TRG_PAT_CTL, 1, 1⟩
def TRG_PAT_CTL.OR : Fld := ⟨.TRG_PAT_CTL, 0, 1⟩
def TRG_PAT_CTL_ACT.CLK_SRC : Fld := ⟨.TRG_PAT_CTL_ACT, 16, 10⟩
def TRG_PAT_CTL_ACT.CLK_INV : Fld := ⟨.TRG_PAT_CTL_ACT, 1, 1⟩
def TRG_PAT_CTL_ACT.OR : Fld := ⟨.TRG_PAT_CTL_ACT, 0, 1⟩
def TRG_PAT_MASK.BITS : Fld := ⟨.TRG_PAT_MASK, 0, 32⟩
def TRG_PAT_MASK_ACT.BITS : Fld := ⟨.TRG_PAT_MASK_ACT, 0, 32⟩
def TRG_PAT_VAL.BITS : Fld := ⟨.TRG_PAT_VAL, 0, 32⟩
def TRG_PAT_VAL_ACT.BITS : Fld := ⟨.TRG_PAT_VAL_ACT, 0, 32⟩
def REC_LCTL.FORMAT : Fld := ⟨.REC_LCTL, 29, 3⟩
def REC_LCTL.SRC : Fld := ⟨.REC_LCTL, 16, 10⟩
def REC_LCTL.SKEIN : Fld := ⟨.REC_LCTL, 8, 6⟩
def REC_LCTL.OWNER : Fld := ⟨.REC_LCTL, 3, 5⟩
def REC_LCTL.FLUSH : Fld := ⟨.REC_LCTL, 1, 1⟩
def REC_LCTL.EN : Fld := ⟨.REC_LCTL, 0, 1⟩
def REC_LSTAT.CFG_ERR : Fld := ⟨.REC_LSTAT, 16, 4⟩
def REC_LSTAT.QDEPTH : Fld := ⟨.REC_LSTAT, 8, 5⟩
def REC_LSTAT.FULL : Fld := ⟨.REC_LSTAT, 4, 1⟩
def REC_LSTAT.OPEN : Fld := ⟨.REC_LSTAT, 3, 1⟩
def REC_LSTAT.ACTIVE : Fld := ⟨.REC_LSTAT, 2, 1⟩
def REC_LSTAT.WAITALLOC : Fld := ⟨.REC_LSTAT, 1, 1⟩
def REC_LSTAT.READY : Fld := ⟨.REC_LSTAT, 0, 1⟩
def REC_SEGNUM.NEXT : Fld := ⟨.REC_SEGNUM, 0, 48⟩
def REC_LQUEUE.Q : Fld := ⟨.REC_LQUEUE, 0, 12⟩
def REC_REQ_PRE.PRE : Fld := ⟨.REC_REQ_PRE, 0, 32⟩
def REC_REQ_POST.POST : Fld := ⟨.REC_REQ_POST, 0, 40⟩
def REC_REQ_REPEAT.REPEAT : Fld := ⟨.REC_REQ_REPEAT, 0, 24⟩
def REC_REQ_CTL.GO : Fld := ⟨.REC_REQ_CTL, 31, 1⟩
def REC_REQ_CTL.TU : Fld := ⟨.REC_REQ_CTL, 24, 3⟩
def REC_REQ_CTL.TAG : Fld := ⟨.REC_REQ_CTL, 0, 24⟩
def REC_REQ_STAT.RESULT : Fld := ⟨.REC_REQ_STAT, 0, 4⟩
def REC_CNT_REFUSED.COUNT : Fld := ⟨.REC_CNT_REFUSED, 0, 32⟩
def REC_CNT_TRUNC.COUNT : Fld := ⟨.REC_CNT_TRUNC, 0, 32⟩
def REC_CNT_DROPFR.COUNT : Fld := ⟨.REC_CNT_DROPFR, 0, 32⟩
def REC_CNT_NOTICE.COUNT : Fld := ⟨.REC_CNT_NOTICE, 0, 32⟩
def REC_CNT_ALLOCW.COUNT : Fld := ⟨.REC_CNT_ALLOCW, 0, 32⟩
def REC_CNT_SEG.COUNT : Fld := ⟨.REC_CNT_SEG, 0, 32⟩
def REC_CNT_SEGWRAP.COUNT : Fld := ⟨.REC_CNT_SEGWRAP, 0, 32⟩
def REC_SKN_BASE.STORE : Fld := ⟨.REC_SKN_BASE, 62, 2⟩
def REC_SKN_BASE.OFS : Fld := ⟨.REC_SKN_BASE, 0, 48⟩
def REC_SKN_SIZE.BYTES : Fld := ⟨.REC_SKN_SIZE, 0, 48⟩
def REC_SKN_CTL.DEFINE : Fld := ⟨.REC_SKN_CTL, 31, 1⟩
def REC_SKN_CTL.REWIND : Fld := ⟨.REC_SKN_CTL, 30, 1⟩
def REC_SKN_CTL.DEF_RESULT : Fld := ⟨.REC_SKN_CTL, 20, 4⟩
def REC_SKN_CTL.HOIST_TGT : Fld := ⟨.REC_SKN_CTL, 8, 6⟩
def REC_SKN_CTL.NOTICE : Fld := ⟨.REC_SKN_CTL, 2, 1⟩
def REC_SKN_CTL.POLICY : Fld := ⟨.REC_SKN_CTL, 0, 2⟩
def REC_SKN_CP.BYTES : Fld := ⟨.REC_SKN_CP, 0, 48⟩
def REC_SKN_FREE.BYTES : Fld := ⟨.REC_SKN_FREE, 0, 48⟩
def REC_SKN_OLDEST.VALID : Fld := ⟨.REC_SKN_OLDEST, 63, 1⟩
def REC_SKN_OLDEST.SEGNUM : Fld := ⟨.REC_SKN_OLDEST, 0, 48⟩
def REC_RB_STAT.USED : Fld := ⟨.REC_RB_STAT, 0, 17⟩
def DEC_CTL.SYNC_EN : Fld := ⟨.DEC_CTL, 1, 1⟩
def DEC_CTL.EN : Fld := ⟨.DEC_CTL, 0, 1⟩
def DEC_STAT.RESULT : Fld := ⟨.DEC_STAT, 8, 4⟩
def DEC_STAT.METRO : Fld := ⟨.DEC_STAT, 2, 1⟩
def DEC_STAT.SETTLED : Fld := ⟨.DEC_STAT, 1, 1⟩
def DEC_STAT.READY : Fld := ⟨.DEC_STAT, 0, 1⟩
def DEC_COMMIT.GO : Fld := ⟨.DEC_COMMIT, 0, 1⟩
def DEC_CFG.MODE : Fld := ⟨.DEC_CFG, 30, 2⟩
def DEC_CFG.OUT : Fld := ⟨.DEC_CFG, 29, 1⟩
def DEC_CFG.RS_EN : Fld := ⟨.DEC_CFG, 28, 1⟩
def DEC_CFG.PRESET : Fld := ⟨.DEC_CFG, 26, 2⟩
def DEC_CFG.SRC : Fld := ⟨.DEC_CFG, 24, 2⟩
def DEC_CFG.COMP : Fld := ⟨.DEC_CFG, 16, 5⟩
def DEC_CFG.ORDER : Fld := ⟨.DEC_CFG, 13, 3⟩
def DEC_CFG.RATIO : Fld := ⟨.DEC_CFG, 0, 13⟩
def DEC_CFG_ACT.MODE : Fld := ⟨.DEC_CFG_ACT, 30, 2⟩
def DEC_CFG_ACT.OUT : Fld := ⟨.DEC_CFG_ACT, 29, 1⟩
def DEC_CFG_ACT.RS_EN : Fld := ⟨.DEC_CFG_ACT, 28, 1⟩
def DEC_CFG_ACT.PRESET : Fld := ⟨.DEC_CFG_ACT, 26, 2⟩
def DEC_CFG_ACT.SRC : Fld := ⟨.DEC_CFG_ACT, 24, 2⟩
def DEC_CFG_ACT.COMP : Fld := ⟨.DEC_CFG_ACT, 16, 5⟩
def DEC_CFG_ACT.ORDER : Fld := ⟨.DEC_CFG_ACT, 13, 3⟩
def DEC_CFG_ACT.RATIO : Fld := ⟨.DEC_CFG_ACT, 0, 13⟩
def DEC_STEP.STEP : Fld := ⟨.DEC_STEP, 0, 44⟩
def DEC_STEP_ACT.STEP : Fld := ⟨.DEC_STEP_ACT, 0, 44⟩
def DEC_PHASE0.PHASE0 : Fld := ⟨.DEC_PHASE0, 0, 32⟩
def DEC_PHASE0_ACT.PHASE0 : Fld := ⟨.DEC_PHASE0_ACT, 0, 32⟩
def DEC_SETTLE_CTL.EXTRA : Fld := ⟨.DEC_SETTLE_CTL, 0, 16⟩
def DEC_SETTLE_FR.FRAMES : Fld := ⟨.DEC_SETTLE_FR, 0, 32⟩
def DEC_T0.WORD : Fld := ⟨.DEC_T0, 0, 32⟩
def DEC_FAST.VALUE : Fld := ⟨.DEC_FAST, 0, 32⟩
def DEC_OUT.VALUE : Fld := ⟨.DEC_OUT, 0, 32⟩
def DEC_THR0_LEVEL.LEVEL : Fld := ⟨.DEC_THR0_LEVEL, 0, 32⟩
def DEC_THR1_LEVEL.LEVEL : Fld := ⟨.DEC_THR1_LEVEL, 0, 32⟩
def DEC_THR0_CTL.SENSE : Fld := ⟨.DEC_THR0_CTL, 31, 1⟩
def DEC_THR0_CTL.INPUT : Fld := ⟨.DEC_THR0_CTL, 30, 1⟩
def DEC_THR0_CTL.EN : Fld := ⟨.DEC_THR0_CTL, 24, 1⟩
def DEC_THR0_CTL.HYST : Fld := ⟨.DEC_THR0_CTL, 0, 24⟩
def DEC_THR1_CTL.SENSE : Fld := ⟨.DEC_THR1_CTL, 31, 1⟩
def DEC_THR1_CTL.INPUT : Fld := ⟨.DEC_THR1_CTL, 30, 1⟩
def DEC_THR1_CTL.EN : Fld := ⟨.DEC_THR1_CTL, 24, 1⟩
def DEC_THR1_CTL.HYST : Fld := ⟨.DEC_THR1_CTL, 0, 24⟩
def DEC_CNT_THR0.COUNT : Fld := ⟨.DEC_CNT_THR0, 0, 32⟩
def DEC_CNT_THR1.COUNT : Fld := ⟨.DEC_CNT_THR1, 0, 32⟩
def DEC_CNT_SAT.COUNT : Fld := ⟨.DEC_CNT_SAT, 0, 32⟩
def DEC_SYNC_CTL.GO : Fld := ⟨.DEC_SYNC_CTL, 31, 1⟩
def DEC_SYNC_CTL.MSG_CODE : Fld := ⟨.DEC_SYNC_CTL, 12, 8⟩
def DEC_SYNC_CTL.MSG_EN : Fld := ⟨.DEC_SYNC_CTL, 11, 1⟩
def DEC_SYNC_CTL.TB_EN : Fld := ⟨.DEC_SYNC_CTL, 10, 1⟩
def DEC_SYNC_CTL.TB_LINE : Fld := ⟨.DEC_SYNC_CTL, 4, 4⟩
def DEC_SYNC_CTL.PIN_EN : Fld := ⟨.DEC_SYNC_CTL, 0, 1⟩
def DEC_SYNC_STAT.LATE : Fld := ⟨.DEC_SYNC_STAT, 16, 16⟩
def DEC_SYNC_STAT.APPLIED : Fld := ⟨.DEC_SYNC_STAT, 0, 16⟩
def DEC_SYNC_TIME.WORD : Fld := ⟨.DEC_SYNC_TIME, 0, 32⟩
def TAL_JOB_CFG.MODE : Fld := ⟨.TAL_JOB_CFG, 28, 4⟩
def TAL_JOB_CFG.SRC : Fld := ⟨.TAL_JOB_CFG, 26, 2⟩
def TAL_JOB_CFG.TU : Fld := ⟨.TAL_JOB_CFG, 22, 3⟩
def TAL_JOB_CFG.STORE : Fld := ⟨.TAL_JOB_CFG, 20, 2⟩
def TAL_JOB_CFG.POLICY : Fld := ⟨.TAL_JOB_CFG, 19, 1⟩
def TAL_JOB_CFG.BANK_CNT : Fld := ⟨.TAL_JOB_CFG, 12, 3⟩
def TAL_JOB_CFG.BANK_FIRST : Fld := ⟨.TAL_JOB_CFG, 8, 3⟩
def TAL_JOB_PRE.VALUE : Fld := ⟨.TAL_JOB_PRE, 0, 27⟩
def TAL_JOB_POINTS.VALUE : Fld := ⟨.TAL_JOB_POINTS, 0, 27⟩
def TAL_JOB_LIMIT.VALUE : Fld := ⟨.TAL_JOB_LIMIT, 0, 49⟩
def TAL_JOB_OUTER.VALUE : Fld := ⟨.TAL_JOB_OUTER, 0, 48⟩
def TAL_JOB_DEN.ROWS : Fld := ⟨.TAL_JOB_DEN, 30, 2⟩
def TAL_JOB_DEN.SHIFT : Fld := ⟨.TAL_JOB_DEN, 24, 4⟩
def TAL_JOB_DEN.STEP_LOG2 : Fld := ⟨.TAL_JOB_DEN, 16, 5⟩
def TAL_JOB_DEN.BASE : Fld := ⟨.TAL_JOB_DEN, 0, 16⟩
def TAL_JOB_CMD.STOP : Fld := ⟨.TAL_JOB_CMD, 4, 1⟩
def TAL_JOB_CMD.RESUME : Fld := ⟨.TAL_JOB_CMD, 3, 1⟩
def TAL_JOB_CMD.PAUSE : Fld := ⟨.TAL_JOB_CMD, 2, 1⟩
def TAL_JOB_CMD.CLR : Fld := ⟨.TAL_JOB_CMD, 1, 1⟩
def TAL_JOB_CMD.START : Fld := ⟨.TAL_JOB_CMD, 0, 1⟩
def TAL_JSTAT.HOLDOVER : Fld := ⟨.TAL_JSTAT, 14, 1⟩
def TAL_JSTAT.DEGRADED : Fld := ⟨.TAL_JSTAT, 13, 1⟩
def TAL_JSTAT.SATURATED : Fld := ⟨.TAL_JSTAT, 12, 1⟩
def TAL_JSTAT.CFG_ERR : Fld := ⟨.TAL_JSTAT, 8, 4⟩
def TAL_JSTAT.REASON : Fld := ⟨.TAL_JSTAT, 4, 3⟩
def TAL_JSTAT.INREC : Fld := ⟨.TAL_JSTAT, 3, 1⟩
def TAL_JSTAT.STATE : Fld := ⟨.TAL_JSTAT, 0, 3⟩
def TAL_JOB_COUNT.VALUE : Fld := ⟨.TAL_JOB_COUNT, 0, 49⟩
def TAL_JOB_REC.VALUE : Fld := ⟨.TAL_JOB_REC, 0, 48⟩
def TAL_JOB_PARTIAL.VALUE : Fld := ⟨.TAL_JOB_PARTIAL, 0, 48⟩
def TAL_CNT_BUSY.COUNT : Fld := ⟨.TAL_CNT_BUSY, 0, 32⟩
def TAL_CNT_FILL.COUNT : Fld := ⟨.TAL_CNT_FILL, 0, 32⟩
def TAL_CNT_HALVE.COUNT : Fld := ⟨.TAL_CNT_HALVE, 0, 32⟩
def TAL_CNT_VIOL.COUNT : Fld := ⟨.TAL_CNT_VIOL, 0, 32⟩
def TAL_CNT_VSAMP.COUNT : Fld := ⟨.TAL_CNT_VSAMP, 0, 32⟩
def TAL_MASK_CTL.LANE : Fld := ⟨.TAL_MASK_CTL, 4, 4⟩
def TAL_MASK_CTL.LANE_EN : Fld := ⟨.TAL_MASK_CTL, 3, 1⟩
def TAL_MASK_CTL.TRIG : Fld := ⟨.TAL_MASK_CTL, 2, 1⟩
def TAL_MASK_CTL.STOP : Fld := ⟨.TAL_MASK_CTL, 1, 1⟩
def TAL_MASK_CTL.EN : Fld := ⟨.TAL_MASK_CTL, 0, 1⟩
def TAL_MASK_TBL.OFS : Fld := ⟨.TAL_MASK_TBL, 0, 27⟩
def TAL_FAIL_SEG.VALID : Fld := ⟨.TAL_FAIL_SEG, 63, 1⟩
def TAL_FAIL_SEG.KIND : Fld := ⟨.TAL_FAIL_SEG, 62, 1⟩
def TAL_FAIL_SEG.NUMBER : Fld := ⟨.TAL_FAIL_SEG, 0, 48⟩
def TAL_FAIL_TIME.WORD : Fld := ⟨.TAL_FAIL_TIME, 0, 32⟩
def TAL_G_WDROP.COUNT : Fld := ⟨.TAL_G_WDROP, 0, 32⟩
def EVI_GMODE.MODE : Fld := ⟨.EVI_GMODE, 0, 16⟩
def EVI_GSTAT.RESULT : Fld := ⟨.EVI_GSTAT, 8, 4⟩
def EVI_GSTAT.READY : Fld := ⟨.EVI_GSTAT, 0, 8⟩
def EVI_FLUSH_TO.FRAMES : Fld := ⟨.EVI_FLUSH_TO, 0, 16⟩
def EVI_GAUGE_CTL.START : Fld := ⟨.EVI_GAUGE_CTL, 31, 1⟩
def EVI_GAUGE_CTL.AUTO : Fld := ⟨.EVI_GAUGE_CTL, 30, 1⟩
def EVI_GAUGE_CTL.INPUT : Fld := ⟨.EVI_GAUGE_CTL, 0, 7⟩
def EVI_GAUGE_STAT.RESULT : Fld := ⟨.EVI_GAUGE_STAT, 8, 4⟩
def EVI_GAUGE_STAT.INPUT : Fld := ⟨.EVI_GAUGE_STAT, 0, 7⟩
def EVI_NRDY_FR.COUNT : Fld := ⟨.EVI_NRDY_FR, 0, 32⟩
def EVI_ICFG.QEN : Fld := ⟨.EVI_ICFG, 31, 1⟩
def EVI_ICFG.Q : Fld := ⟨.EVI_ICFG, 16, 12⟩
def EVI_ICFG.EVT : Fld := ⟨.EVI_ICFG, 4, 2⟩
def EVI_ICFG.EDGE : Fld := ⟨.EVI_ICFG, 0, 2⟩
def EVI_IDLY.DELAY : Fld := ⟨.EVI_IDLY, 0, 32⟩
def EVI_ISTAT.UNCAL : Fld := ⟨.EVI_ISTAT, 5, 1⟩
def EVI_ISTAT.GAUGING : Fld := ⟨.EVI_ISTAT, 4, 1⟩
def EVI_ISTAT.IU_LOSS : Fld := ⟨.EVI_ISTAT, 3, 1⟩
def EVI_ISTAT.GAUGE_FAIL : Fld := ⟨.EVI_ISTAT, 2, 1⟩
def EVI_ISTAT.GAUGE_DONE : Fld := ⟨.EVI_ISTAT, 1, 1⟩
def EVI_ISTAT.DROP : Fld := ⟨.EVI_ISTAT, 0, 1⟩
def EVI_SEQ.VALUE : Fld := ⟨.EVI_SEQ, 0, 32⟩
def EVI_CNT_STAMP.VALUE : Fld := ⟨.EVI_CNT_STAMP, 0, 32⟩
def EVI_CNT_DEAD.COUNT : Fld := ⟨.EVI_CNT_DEAD, 0, 32⟩
def EVI_CNT_FIFO.COUNT : Fld := ⟨.EVI_CNT_FIFO, 0, 32⟩
def EVI_CNT_CAL.COUNT : Fld := ⟨.EVI_CNT_CAL, 0, 32⟩
def EVI_CNT_NOCLK.COUNT : Fld := ⟨.EVI_CNT_NOCLK, 0, 32⟩
def EVI_IU_CFG.MODE : Fld := ⟨.EVI_IU_CFG, 30, 2⟩
def EVI_IU_CFG.START_EDGE : Fld := ⟨.EVI_IU_CFG, 28, 2⟩
def EVI_IU_CFG.STOP_EDGE : Fld := ⟨.EVI_IU_CFG, 26, 2⟩
def EVI_IU_CFG.Q : Fld := ⟨.EVI_IU_CFG, 14, 12⟩
def EVI_IU_CFG.STOP : Fld := ⟨.EVI_IU_CFG, 7, 7⟩
def EVI_IU_CFG.START : Fld := ⟨.EVI_IU_CFG, 0, 7⟩
def EVI_IU_STAT.PENDING : Fld := ⟨.EVI_IU_STAT, 0, 5⟩
def EVI_IU_CNT_EARLY.COUNT : Fld := ⟨.EVI_IU_CNT_EARLY, 0, 32⟩
def EVI_IU_CNT_LOST.COUNT : Fld := ⟨.EVI_IU_CNT_LOST, 0, 32⟩
def EVI_IU_CNT_DROP.COUNT : Fld := ⟨.EVI_IU_CNT_DROP, 0, 32⟩
def EVI_IU_CNT_RES.COUNT : Fld := ⟨.EVI_IU_CNT_RES, 0, 32⟩
def NDL_G_STAT.CTX : Fld := ⟨.NDL_G_STAT, 16, 16⟩
def NDL_G_STAT.ACTIVE : Fld := ⟨.NDL_G_STAT, 0, 16⟩
def NDL_G_WDROP.COUNT : Fld := ⟨.NDL_G_WDROP, 0, 32⟩
def NDL_CTL.STOP : Fld := ⟨.NDL_CTL, 1, 1⟩
def NDL_CTL.GO : Fld := ⟨.NDL_CTL, 0, 1⟩
def NDL_STAT.CALL_DEPTH : Fld := ⟨.NDL_STAT, 20, 5⟩
def NDL_STAT.LOOP_DEPTH : Fld := ⟨.NDL_STAT, 16, 4⟩
def NDL_STAT.CTX : Fld := ⟨.NDL_STAT, 15, 1⟩
def NDL_STAT.REPL_PENDING : Fld := ⟨.NDL_STAT, 14, 1⟩
def NDL_STAT.W : Fld := ⟨.NDL_STAT, 11, 3⟩
def NDL_STAT.FLAGS : Fld := ⟨.NDL_STAT, 7, 4⟩
def NDL_STAT.STATE : Fld := ⟨.NDL_STAT, 0, 3⟩
def NDL_PC.PC : Fld := ⟨.NDL_PC, 0, 17⟩
def NDL_ENTRY.PC : Fld := ⟨.NDL_ENTRY, 0, 17⟩
def NDL_ENTRY_NEXT.PC : Fld := ⟨.NDL_ENTRY_NEXT, 0, 17⟩
def NDL_FAULT_PC.PC : Fld := ⟨.NDL_FAULT_PC, 0, 17⟩
def NDL_WIN.SIZE : Fld := ⟨.NDL_WIN, 16, 10⟩
def NDL_WIN.BASE : Fld := ⟨.NDL_WIN, 0, 9⟩
def NDL_WIN_NEXT.SIZE : Fld := ⟨.NDL_WIN_NEXT, 16, 10⟩
def NDL_WIN_NEXT.BASE : Fld := ⟨.NDL_WIN_NEXT, 0, 9⟩
def NDL_REPLACE.GO : Fld := ⟨.NDL_REPLACE, 31, 1⟩
def NDL_REPLACE.CANCEL : Fld := ⟨.NDL_REPLACE, 30, 1⟩
def NDL_REPLACE.RESULT : Fld := ⟨.NDL_REPLACE, 4, 4⟩
def NDL_REPLACE.WHEN : Fld := ⟨.NDL_REPLACE, 0, 1⟩
def NDL_FAULT.DETAIL : Fld := ⟨.NDL_FAULT, 24, 8⟩
def NDL_FAULT.SHADOW : Fld := ⟨.NDL_FAULT, 8, 2⟩
def NDL_FAULT.CODE : Fld := ⟨.NDL_FAULT, 0, 5⟩
def NDL_FAULT_TICK.TICK : Fld := ⟨.NDL_FAULT_TICK, 0, 64⟩
def NDL_SIGCODE.CODE : Fld := ⟨.NDL_SIGCODE, 0, 16⟩
def NDL_CNT_LATE.COUNT : Fld := ⟨.NDL_CNT_LATE, 0, 32⟩
def NDL_CNT_ISSUE.COUNT : Fld := ⟨.NDL_CNT_ISSUE, 0, 64⟩
def NDL_CLAIM0.SET : Fld := ⟨.NDL_CLAIM0, 0, 64⟩
def NDL_CLAIM1.SET : Fld := ⟨.NDL_CLAIM1, 0, 64⟩
def STM_UCTL.CLEAR : Fld := ⟨.STM_UCTL, 3, 1⟩
def STM_UCTL.START_MODE : Fld := ⟨.STM_UCTL, 2, 1⟩
def STM_UCTL.HALT_ON_UNDERRUN : Fld := ⟨.STM_UCTL, 1, 1⟩
def STM_UCTL.EN : Fld := ⟨.STM_UCTL, 0, 1⟩
def STM_USTAT.QDEPTH : Fld := ⟨.STM_USTAT, 8, 7⟩
def STM_USTAT.READY : Fld := ⟨.STM_USTAT, 3, 1⟩
def STM_USTAT.STATE : Fld := ⟨.STM_USTAT, 0, 3⟩
def STM_PLAY_OFS.OFS : Fld := ⟨.STM_PLAY_OFS, 0, 48⟩
def STM_PLAY_LEN.LEN : Fld := ⟨.STM_PLAY_LEN, 0, 32⟩
def STM_PLAY_CTL.GO : Fld := ⟨.STM_PLAY_CTL, 31, 1⟩
def STM_PLAY_CTL.KIND : Fld := ⟨.STM_PLAY_CTL, 0, 2⟩
def STM_PLAY_STAT.RESULT : Fld := ⟨.STM_PLAY_STAT, 0, 4⟩
def STM_START_TICK.TICK : Fld := ⟨.STM_START_TICK, 0, 64⟩
def STM_UNDER_FIRST.TICK : Fld := ⟨.STM_UNDER_FIRST, 0, 64⟩
def STM_TFREQ.FTW : Fld := ⟨.STM_TFREQ, 0, 48⟩
def STM_TPA.A : Fld := ⟨.STM_TPA, 32, 16⟩
def STM_TPA.PH : Fld := ⟨.STM_TPA, 0, 32⟩
def STM_CNT_UNDER.COUNT : Fld := ⟨.STM_CNT_UNDER, 0, 32⟩
def STM_CNT_CANCEL.COUNT : Fld := ⟨.STM_CNT_CANCEL, 0, 32⟩
def STM_CNT_REFUSED.COUNT : Fld := ⟨.STM_CNT_REFUSED, 0, 32⟩
def STM_CNT_SAT.COUNT : Fld := ⟨.STM_CNT_SAT, 0, 32⟩
def STM_CNT_PLAYED.COUNT : Fld := ⟨.STM_CNT_PLAYED, 0, 32⟩
def STM_OUT_DLY.DELAY : Fld := ⟨.STM_OUT_DLY, 0, 20⟩
def STM_INJ_DLY.DELAY : Fld := ⟨.STM_INJ_DLY, 0, 20⟩
def STM_PF_STAT.RECORDS : Fld := ⟨.STM_PF_STAT, 0, 11⟩
def BEN_STAT.DROPPING : Fld := ⟨.BEN_STAT, 6, 1⟩
def BEN_STAT.PANIC : Fld := ⟨.BEN_STAT, 5, 1⟩
def BEN_STAT.WARN : Fld := ⟨.BEN_STAT, 4, 1⟩
def BEN_STAT.BS1_READY : Fld := ⟨.BEN_STAT, 1, 1⟩
def BEN_STAT.BS0_READY : Fld := ⟨.BEN_STAT, 0, 1⟩
def BEN_THR.STAGE_PANIC : Fld := ⟨.BEN_THR, 24, 8⟩
def BEN_THR.PANIC_OFF : Fld := ⟨.BEN_THR, 16, 8⟩
def BEN_THR.PANIC_ON : Fld := ⟨.BEN_THR, 8, 8⟩
def BEN_THR.WARN : Fld := ⟨.BEN_THR, 0, 8⟩
def BEN_STAGE_CTL.LANE_HIGH : Fld := ⟨.BEN_STAGE_CTL, 16, 16⟩
def BEN_STAGE_CTL.LOW_DROP : Fld := ⟨.BEN_STAGE_CTL, 0, 8⟩
def BEN_HOST_DEFER.FRAMES : Fld := ⟨.BEN_HOST_DEFER, 0, 32⟩
def BEN_STAGE_USED.KIB : Fld := ⟨.BEN_STAGE_USED, 0, 15⟩
def BEN_DROP_FIRST.TICK : Fld := ⟨.BEN_DROP_FIRST, 0, 64⟩
def BEN_CNT_DROPFR.COUNT : Fld := ⟨.BEN_CNT_DROPFR, 0, 32⟩
def BEN_CNT_CE.COUNT : Fld := ⟨.BEN_CNT_CE, 0, 32⟩
def BEN_CNT_UE.COUNT : Fld := ⟨.BEN_CNT_UE, 0, 32⟩
def BEN_CNT_DEFER.COUNT : Fld := ⟨.BEN_CNT_DEFER, 0, 32⟩
def BEN_HT_CTL.EN : Fld := ⟨.BEN_HT_CTL, 31, 1⟩
def BEN_HT_CTL.GO : Fld := ⟨.BEN_HT_CTL, 30, 1⟩
def BEN_HT_CTL.Q : Fld := ⟨.BEN_HT_CTL, 16, 12⟩
def BEN_HT_CTL.RESULT : Fld := ⟨.BEN_HT_CTL, 12, 4⟩
def BEN_HT_CTL.PORT : Fld := ⟨.BEN_HT_CTL, 5, 2⟩
def BEN_HT_CTL.POLICY : Fld := ⟨.BEN_HT_CTL, 2, 1⟩
def BEN_HT_CTL.KIND : Fld := ⟨.BEN_HT_CTL, 0, 2⟩
def BEN_HT_STREAM.STUCK : Fld := ⟨.BEN_HT_STREAM, 31, 1⟩
def BEN_HT_STREAM.ID : Fld := ⟨.BEN_HT_STREAM, 0, 16⟩
def BEN_HT_BASE.OFS : Fld := ⟨.BEN_HT_BASE, 0, 48⟩
def BEN_HT_SIZE.OFS : Fld := ⟨.BEN_HT_SIZE, 0, 48⟩
def BEN_HT_WP.OFS : Fld := ⟨.BEN_HT_WP, 0, 48⟩
def BEN_HT_REL.OFS : Fld := ⟨.BEN_HT_REL, 0, 48⟩
def BEN_HT_OLDEST.VALID : Fld := ⟨.BEN_HT_OLDEST, 63, 1⟩
def BEN_HT_OLDEST.OFS : Fld := ⟨.BEN_HT_OLDEST, 0, 48⟩
def BEN_HT_CNT_SEG.COUNT : Fld := ⟨.BEN_HT_CNT_SEG, 0, 32⟩
def BEN_HT_CNT_OVW.COUNT : Fld := ⟨.BEN_HT_CNT_OVW, 0, 32⟩
def BEN_QRY_CTL.LOWER_OK : Fld := ⟨.BEN_QRY_CTL, 3, 1⟩
def BEN_QRY_CTL.AUTO_RETIRE : Fld := ⟨.BEN_QRY_CTL, 2, 1⟩
def BEN_QRY_CTL.SCRUB_EN : Fld := ⟨.BEN_QRY_CTL, 1, 1⟩
def BEN_QRY_CTL.EN : Fld := ⟨.BEN_QRY_CTL, 0, 1⟩
def BEN_QRY_STAT.IN_SERVICE : Fld := ⟨.BEN_QRY_STAT, 16, 16⟩
def BEN_QRY_STAT.PROFILE : Fld := ⟨.BEN_QRY_STAT, 8, 2⟩
def BEN_QRY_STAT.RETAINED : Fld := ⟨.BEN_QRY_STAT, 5, 1⟩
def BEN_QRY_STAT.FREQ_BUSY : Fld := ⟨.BEN_QRY_STAT, 4, 1⟩
def BEN_QRY_STAT.SELF_REFRESH : Fld := ⟨.BEN_QRY_STAT, 3, 1⟩
def BEN_QRY_STAT.X8 : Fld := ⟨.BEN_QRY_STAT, 2, 1⟩
def BEN_QRY_STAT.TWO_DPC : Fld := ⟨.BEN_QRY_STAT, 1, 1⟩
def BEN_QRY_STAT.READY : Fld := ⟨.BEN_QRY_STAT, 0, 1⟩
def BEN_QRY_CAP.BYTES : Fld := ⟨.BEN_QRY_CAP, 0, 48⟩
def BEN_QRY_FREQ.GO : Fld := ⟨.BEN_QRY_FREQ, 31, 1⟩
def BEN_QRY_FREQ.RESULT : Fld := ⟨.BEN_QRY_FREQ, 8, 4⟩
def BEN_QRY_FREQ.PROFILE : Fld := ⟨.BEN_QRY_FREQ, 0, 2⟩
def BEN_QRY_RETIRE.GO : Fld := ⟨.BEN_QRY_RETIRE, 31, 1⟩
def BEN_QRY_RETIRE.CLEAR : Fld := ⟨.BEN_QRY_RETIRE, 30, 1⟩
def BEN_QRY_RETIRE.STATE : Fld := ⟨.BEN_QRY_RETIRE, 8, 4⟩
def BEN_QRY_RETIRE.CHANNEL : Fld := ⟨.BEN_QRY_RETIRE, 0, 4⟩
def BEN_QRY_MIG.ROWS : Fld := ⟨.BEN_QRY_MIG, 0, 32⟩
def BEN_QRY_SCRUB.CE_ROW_MAX : Fld := ⟨.BEN_QRY_SCRUB, 8, 8⟩
def BEN_QRY_SCRUB.HOURS : Fld := ⟨.BEN_QRY_SCRUB, 0, 8⟩
def QRY_CSTAT.RRT_USED : Fld := ⟨.QRY_CSTAT, 16, 7⟩
def QRY_CSTAT.PPR : Fld := ⟨.QRY_CSTAT, 11, 1⟩
def QRY_CSTAT.DIMMS : Fld := ⟨.QRY_CSTAT, 8, 2⟩
def QRY_CSTAT.STATE : Fld := ⟨.QRY_CSTAT, 0, 3⟩
def QRY_CNT_CE.COUNT : Fld := ⟨.QRY_CNT_CE, 0, 32⟩
def QRY_CNT_UE.COUNT : Fld := ⟨.QRY_CNT_UE, 0, 32⟩
def QRY_CNT_REFPOST.COUNT : Fld := ⟨.QRY_CNT_REFPOST, 0, 32⟩
def QRY_CNT_RRFULL.COUNT : Fld := ⟨.QRY_CNT_RRFULL, 0, 32⟩
def QRY_RRT.VALID : Fld := ⟨.QRY_RRT, 63, 1⟩
def QRY_RRT.PPR_PENDING : Fld := ⟨.QRY_RRT, 62, 1⟩
def QRY_RRT.RANK : Fld := ⟨.QRY_RRT, 24, 3⟩
def QRY_RRT.SUB : Fld := ⟨.QRY_RRT, 23, 1⟩
def QRY_RRT.BG : Fld := ⟨.QRY_RRT, 20, 3⟩
def QRY_RRT.BANK : Fld := ⟨.QRY_RRT, 18, 2⟩
def QRY_RRT.ROW : Fld := ⟨.QRY_RRT, 0, 18⟩
def QUE_ALLOC.GO : Fld := ⟨.QUE_ALLOC, 31, 1⟩
def QUE_ALLOC.ANY : Fld := ⟨.QUE_ALLOC, 30, 1⟩
def QUE_ALLOC.Q : Fld := ⟨.QUE_ALLOC, 0, 12⟩
def QUE_ALLOC_STAT.NO_QUEUE : Fld := ⟨.QUE_ALLOC_STAT, 31, 1⟩
def QUE_ALLOC_STAT.TAKEN : Fld := ⟨.QUE_ALLOC_STAT, 30, 1⟩
def QUE_ALLOC_STAT.HKQ : Fld := ⟨.QUE_ALLOC_STAT, 29, 1⟩
def QUE_ALLOC_STAT.Q : Fld := ⟨.QUE_ALLOC_STAT, 0, 12⟩
def QUE_G_SPOIL.EN : Fld := ⟨.QUE_G_SPOIL, 31, 1⟩
def QUE_G_SPOIL.Q : Fld := ⟨.QUE_G_SPOIL, 0, 12⟩
def QUE_G_LOST.COUNT : Fld := ⟨.QUE_G_LOST, 0, 32⟩
def QUE_G_BADDB.COUNT : Fld := ⟨.QUE_G_BADDB, 0, 32⟩
def QUE_APT_CTL.POISON_EP : Fld := ⟨.QUE_APT_CTL, 0, 1⟩
def QUE_CNT_APT.OOR : Fld := ⟨.QUE_CNT_APT, 16, 16⟩
def QUE_CNT_APT.POISON : Fld := ⟨.QUE_CNT_APT, 0, 16⟩
def QUE_APT.SPACE : Fld := ⟨.QUE_APT, 62, 2⟩
def QUE_APT.BASE : Fld := ⟨.QUE_APT, 21, 27⟩
def QUE_BASE.ADDR : Fld := ⟨.QUE_BASE, 12, 52⟩
def QUE_BASE.BENCH : Fld := ⟨.QUE_BASE, 0, 1⟩
def QUE_WB.ADDR : Fld := ⟨.QUE_WB, 3, 61⟩
def QUE_WB.EN : Fld := ⟨.QUE_WB, 0, 1⟩
def QUE_CFG.TYPE : Fld := ⟨.QUE_CFG, 28, 4⟩
def QUE_CFG.ESIZE : Fld := ⟨.QUE_CFG, 26, 2⟩
def QUE_CFG.FMT : Fld := ⟨.QUE_CFG, 23, 3⟩
def QUE_CFG.LOG2N : Fld := ⟨.QUE_CFG, 18, 5⟩
def QUE_CFG.SPQ : Fld := ⟨.QUE_CFG, 0, 12⟩
def QUE_CTL.FREE : Fld := ⟨.QUE_CTL, 31, 1⟩
def QUE_CTL.EN : Fld := ⟨.QUE_CTL, 0, 1⟩
def QUE_DB.IDX : Fld := ⟨.QUE_DB, 0, 21⟩
def QUE_STAT.RESULT : Fld := ⟨.QUE_STAT, 28, 4⟩
def QUE_STAT.ERR : Fld := ⟨.QUE_STAT, 24, 4⟩
def QUE_STAT.STATE : Fld := ⟨.QUE_STAT, 0, 3⟩
def QUE_IDX.PROD : Fld := ⟨.QUE_IDX, 32, 21⟩
def QUE_IDX.CONS : Fld := ⟨.QUE_IDX, 0, 21⟩
def QUE_INT.EN : Fld := ⟨.QUE_INT, 31, 1⟩
def QUE_INT.VEC : Fld := ⟨.QUE_INT, 20, 11⟩
def QUE_INT.COUNT : Fld := ⟨.QUE_INT, 12, 8⟩
def QUE_INT.FR : Fld := ⟨.QUE_INT, 0, 12⟩
def QUE_CNT.SPOILED : Fld := ⟨.QUE_CNT, 16, 16⟩
def QUE_CNT.LOST : Fld := ⟨.QUE_CNT, 0, 16⟩
def EVR_CTL.MOD_FR : Fld := ⟨.EVR_CTL, 0, 16⟩
def EVR_CNT_LOST.COUNT : Fld := ⟨.EVR_CNT_LOST, 0, 32⟩
def EVR_PEND.PEND : Fld := ⟨.EVR_PEND, 0, 32⟩
def EVR_CFG.MSI_EN : Fld := ⟨.EVR_CFG, 31, 1⟩
def EVR_CFG.LOG_EN : Fld := ⟨.EVR_CFG, 30, 1⟩
def EVR_CFG.LOG_Q : Fld := ⟨.EVR_CFG, 16, 12⟩
def EVR_CFG.VEC : Fld := ⟨.EVR_CFG, 0, 11⟩
def XFE_G_BUSY.CH : Fld := ⟨.XFE_G_BUSY, 0, 64⟩
def XFE_G_HALTED.CH : Fld := ⟨.XFE_G_HALTED, 0, 64⟩
def XFE_CNT_BADGO.COUNT : Fld := ⟨.XFE_CNT_BADGO, 0, 32⟩
def XFE_CTL.MODE : Fld := ⟨.XFE_CTL, 4, 2⟩
def XFE_CTL.KICK : Fld := ⟨.XFE_CTL, 2, 1⟩
def XFE_CTL.GO : Fld := ⟨.XFE_CTL, 1, 1⟩
def XFE_CTL.EN : Fld := ⟨.XFE_CTL, 0, 1⟩
def XFE_STAT.LAST_STATUS : Fld := ⟨.XFE_STAT, 8, 4⟩
def XFE_STAT.STATE : Fld := ⟨.XFE_STAT, 0, 3⟩
def XFE_CFG.CTL : Fld := ⟨.XFE_CFG, 0, 64⟩
def XFE_SRC.OFS : Fld := ⟨.XFE_SRC, 0, 64⟩
def XFE_DST.OFS : Fld := ⟨.XFE_DST, 0, 64⟩
def XFE_DPTR.OFS : Fld := ⟨.XFE_DPTR, 0, 64⟩
def XFE_COUNT.COUNT : Fld := ⟨.XFE_COUNT, 0, 40⟩
def XFE_NEXT.PTR : Fld := ⟨.XFE_NEXT, 0, 64⟩
def XFE_HOP_LIMIT.LIMIT : Fld := ⟨.XFE_HOP_LIMIT, 0, 24⟩
def XFE_CQ.Q : Fld := ⟨.XFE_CQ, 0, 12⟩
def XFE_HOPS.HOPS : Fld := ⟨.XFE_HOPS, 0, 25⟩
def ETH_CTL.UDP_PORT : Fld := ⟨.ETH_CTL, 16, 16⟩
def ETH_CTL.MODE : Fld := ⟨.ETH_CTL, 12, 2⟩
def ETH_CTL.HK_EN : Fld := ⟨.ETH_CTL, 1, 1⟩
def ETH_CTL.EN : Fld := ⟨.ETH_CTL, 0, 1⟩
def ETH_STAT.LINK : Fld := ⟨.ETH_STAT, 8, 4⟩
def ETH_STAT.DUPID : Fld := ⟨.ETH_STAT, 5, 1⟩
def ETH_STAT.STALLED : Fld := ⟨.ETH_STAT, 4, 1⟩
def ETH_STAT.RESULT : Fld := ⟨.ETH_STAT, 2, 2⟩
def ETH_STAT.READY : Fld := ⟨.ETH_STAT, 0, 1⟩
def ETH_RTX_BASE.OFS : Fld := ⟨.ETH_RTX_BASE, 0, 48⟩
def ETH_RTX_SIZE.OFS : Fld := ⟨.ETH_RTX_SIZE, 0, 48⟩
def ETH_CR_CTL.RETRIES : Fld := ⟨.ETH_CR_CTL, 24, 8⟩
def ETH_CR_CTL.TIMEOUT : Fld := ⟨.ETH_CR_CTL, 0, 24⟩
def ETH_PAY.MAXPAY : Fld := ⟨.ETH_PAY, 0, 14⟩
def ETH_HK_RATE.PER_MS : Fld := ⟨.ETH_HK_RATE, 0, 16⟩
def ETH_CNT_FCS.COUNT : Fld := ⟨.ETH_CNT_FCS, 0, 32⟩
def ETH_CNT_FOREIGN.COUNT : Fld := ⟨.ETH_CNT_FOREIGN, 0, 32⟩
def ETH_CNT_BADHDR.COUNT : Fld := ⟨.ETH_CNT_BADHDR, 0, 32⟩
def ETH_CNT_UNKNOWN.COUNT : Fld := ⟨.ETH_CNT_UNKNOWN, 0, 32⟩
def ETH_CNT_HKDROP.COUNT : Fld := ⟨.ETH_CNT_HKDROP, 0, 32⟩
def ETH_CNT_STALE.COUNT : Fld := ⟨.ETH_CNT_STALE, 0, 32⟩
def ETH_CNT_RETX.COUNT : Fld := ⟨.ETH_CNT_RETX, 0, 32⟩
def ETH_CNT_ABANDON.COUNT : Fld := ⟨.ETH_CNT_ABANDON, 0, 32⟩
def ETH_CNT_FA_REJ.COUNT : Fld := ⟨.ETH_CNT_FA_REJ, 0, 32⟩
def ETH_PTP_DLY.TX : Fld := ⟨.ETH_PTP_DLY, 16, 16⟩
def ETH_PTP_DLY.RX : Fld := ⟨.ETH_PTP_DLY, 0, 16⟩
def ETH_FA_Q.EN : Fld := ⟨.ETH_FA_Q, 31, 1⟩
def ETH_FA_Q.Q : Fld := ⟨.ETH_FA_Q, 0, 12⟩
def SYN_OWN.LINES : Fld := ⟨.SYN_OWN, 0, 16⟩
def SYN_SYSID.EN : Fld := ⟨.SYN_SYSID, 31, 1⟩
def SYN_SYSID.ID : Fld := ⟨.SYN_SYSID, 0, 14⟩
def SYN_LAUNCH_K.K : Fld := ⟨.SYN_LAUNCH_K, 0, 16⟩
def SYN_MSG_CTL.EN : Fld := ⟨.SYN_MSG_CTL, 31, 1⟩
def SYN_MSG_CTL.PAIR : Fld := ⟨.SYN_MSG_CTL, 16, 3⟩
def SYN_MSG_CTL.LEAD : Fld := ⟨.SYN_MSG_CTL, 0, 12⟩
def SYN_MSG_TX.GO : Fld := ⟨.SYN_MSG_TX, 31, 1⟩
def SYN_MSG_TX.CODE : Fld := ⟨.SYN_MSG_TX, 10, 8⟩
def SYN_MSG_TX.FINE : Fld := ⟨.SYN_MSG_TX, 0, 10⟩
def SYN_MSG_STAT.TXQ : Fld := ⟨.SYN_MSG_STAT, 8, 5⟩
def SYN_MSG_STAT.RESULT : Fld := ⟨.SYN_MSG_STAT, 0, 4⟩
def SYN_MSG_LAST.WORD : Fld := ⟨.SYN_MSG_LAST, 0, 32⟩
def SYN_LFSR.STATE : Fld := ⟨.SYN_LFSR, 0, 32⟩
def SYN_CNT_CONT.COUNT : Fld := ⟨.SYN_CNT_CONT, 0, 32⟩
def SYN_CNT_MSGBAD.COUNT : Fld := ⟨.SYN_CNT_MSGBAD, 0, 32⟩
def SYN_CNT_COLL.COUNT : Fld := ⟨.SYN_CNT_COLL, 0, 32⟩
def SYN_CNT_TXFAIL.COUNT : Fld := ⟨.SYN_CNT_TXFAIL, 0, 32⟩
def SYN_CNT_IDCLASH.COUNT : Fld := ⟨.SYN_CNT_IDCLASH, 0, 32⟩
def SYN_CNT_RX.COUNT : Fld := ⟨.SYN_CNT_RX, 0, 32⟩
def SYN_CNT_TX.COUNT : Fld := ⟨.SYN_CNT_TX, 0, 32⟩
def SYN_PING_CTL.GO : Fld := ⟨.SYN_PING_CTL, 31, 1⟩
def SYN_PING_CTL.ROLE : Fld := ⟨.SYN_PING_CTL, 30, 1⟩
def SYN_PING_CTL.PIN : Fld := ⟨.SYN_PING_CTL, 16, 5⟩
def SYN_PING_CTL.COUNT : Fld := ⟨.SYN_PING_CTL, 0, 16⟩
def SYN_PING_STAT.DONE : Fld := ⟨.SYN_PING_STAT, 16, 16⟩
def SYN_PING_STAT.RESULT : Fld := ⟨.SYN_PING_STAT, 0, 4⟩
def SYN_PING_MEAN.VALUE : Fld := ⟨.SYN_PING_MEAN, 0, 64⟩
def SYN_PING_SD.VALUE : Fld := ⟨.SYN_PING_SD, 0, 32⟩
def SYN_PCFG.KIND : Fld := ⟨.SYN_PCFG, 30, 2⟩
def SYN_PCFG.DRIVE : Fld := ⟨.SYN_PCFG, 29, 1⟩
def SYN_PCFG.DIR : Fld := ⟨.SYN_PCFG, 28, 1⟩
def SYN_PCFG.INV : Fld := ⟨.SYN_PCFG, 27, 1⟩
def SYN_PCFG.LISTEN : Fld := ⟨.SYN_PCFG, 26, 1⟩
def SYN_PCFG.LEVEL : Fld := ⟨.SYN_PCFG, 25, 1⟩
def SYN_PCFG.MINW : Fld := ⟨.SYN_PCFG, 16, 8⟩
def SYN_PCFG.EVT : Fld := ⟨.SYN_PCFG, 0, 10⟩
def SYN_IDLY.DELAY : Fld := ⟨.SYN_IDLY, 0, 32⟩
def SYN_TRIM.WM1 : Fld := ⟨.SYN_TRIM, 16, 16⟩
def SYN_TRIM.TRIM : Fld := ⟨.SYN_TRIM, 0, 16⟩
def SYN_PSTAT.FAULT : Fld := ⟨.SYN_PSTAT, 2, 1⟩
def SYN_PSTAT.LVL : Fld := ⟨.SYN_PSTAT, 1, 1⟩
def SYN_PSTAT.CONTENTION : Fld := ⟨.SYN_PSTAT, 0, 1⟩
def SYN_CNT_GLITCH.COUNT : Fld := ⟨.SYN_CNT_GLITCH, 0, 32⟩
def RAS_CTL.MODE : Fld := ⟨.RAS_CTL, 2, 2⟩
def RAS_CTL.EN : Fld := ⟨.RAS_CTL, 0, 2⟩
def RAS_GO.GO : Fld := ⟨.RAS_GO, 0, 2⟩
def RAS_STAT.LYERR : Fld := ⟨.RAS_STAT, 24, 8⟩
def RAS_STAT.RESULT1 : Fld := ⟨.RAS_STAT, 20, 4⟩
def RAS_STAT.RESULT0 : Fld := ⟨.RAS_STAT, 16, 4⟩
def RAS_STAT.STATIC : Fld := ⟨.RAS_STAT, 4, 2⟩
def RAS_STAT.BUSY : Fld := ⟨.RAS_STAT, 2, 2⟩
def RAS_STAT.FRONT : Fld := ⟨.RAS_STAT, 0, 2⟩
def RAS_CNT_REPAIR.COUNT : Fld := ⟨.RAS_CNT_REPAIR, 0, 32⟩
def DPY_COMMIT.B : Fld := ⟨.DPY_COMMIT, 1, 1⟩
def DPY_COMMIT.A : Fld := ⟨.DPY_COMMIT, 0, 1⟩
def DPY_STAT.RESULT : Fld := ⟨.DPY_STAT, 28, 4⟩
def DPY_STAT.LINE : Fld := ⟨.DPY_STAT, 0, 13⟩
def DPY_LINK.LANES : Fld := ⟨.DPY_LINK, 3, 3⟩
def DPY_LINK.RATE : Fld := ⟨.DPY_LINK, 1, 2⟩
def DPY_LINK.UP : Fld := ⟨.DPY_LINK, 0, 1⟩
def DPY_CNT_SHDROP.COUNT : Fld := ⟨.DPY_CNT_SHDROP, 0, 32⟩
def DPY_CNT_REFUSED.COUNT : Fld := ⟨.DPY_CNT_REFUSED, 0, 32⟩
def DPY_CNT_UNDER.COUNT : Fld := ⟨.DPY_CNT_UNDER, 0, 32⟩
def DPY_CNT_ABORT.COUNT : Fld := ⟨.DPY_CNT_ABORT, 0, 32⟩
def DPY_CNT_TEMISS.COUNT : Fld := ⟨.DPY_CNT_TEMISS, 0, 32⟩
def HK_PWR_CTL.DORMANT : Fld := ⟨.HK_PWR_CTL, 2, 1⟩
def HK_PWR_CTL.WAKE : Fld := ⟨.HK_PWR_CTL, 1, 1⟩
def HK_PWR_CTL.STANDBY : Fld := ⟨.HK_PWR_CTL, 0, 1⟩
def HK_PWR_STAT.RESULT : Fld := ⟨.HK_PWR_STAT, 4, 2⟩
def HK_PWR_STAT.STATE : Fld := ⟨.HK_PWR_STAT, 0, 2⟩
def HK_RST.KEY : Fld := ⟨.HK_RST, 8, 8⟩
def HK_RST.WARM : Fld := ⟨.HK_RST, 1, 1⟩
def HK_RST.SOFT : Fld := ⟨.HK_RST, 0, 1⟩
def HK_FW_CTL.RESULT : Fld := ⟨.HK_FW_CTL, 8, 4⟩
def HK_FW_CTL.SWITCH : Fld := ⟨.HK_FW_CTL, 1, 1⟩
def HK_FW_CTL.STAGE : Fld := ⟨.HK_FW_CTL, 0, 1⟩
def GLB_LC.EPOCH : Fld := ⟨.GLB_LC, 10, 6⟩
def GLB_LC.ERASE_DONE : Fld := ⟨.GLB_LC, 9, 1⟩
def GLB_LC.CMK_REVOKED : Fld := ⟨.GLB_LC, 8, 1⟩
def GLB_LC.OK_REVOKED : Fld := ⟨.GLB_LC, 4, 4⟩
def GLB_LC.OK_USED : Fld := ⟨.GLB_LC, 2, 2⟩
def GLB_LC.STATE : Fld := ⟨.GLB_LC, 0, 2⟩
def SEC_UID.VALUE : Fld := ⟨.SEC_UID, 0, 64⟩
def SEC_NONCE.VALUE : Fld := ⟨.SEC_NONCE, 0, 64⟩
def SEC_CMD_SRC.OFS : Fld := ⟨.SEC_CMD_SRC, 0, 48⟩
def SEC_CMD.GO : Fld := ⟨.SEC_CMD, 31, 1⟩
def SEC_STAT.SCOPE_OPEN : Fld := ⟨.SEC_STAT, 8, 3⟩
def SEC_STAT.RESULT : Fld := ⟨.SEC_STAT, 0, 4⟩
def SEC_CNT_IDE.COUNT : Fld := ⟨.SEC_CNT_IDE, 0, 32⟩
def GLB_CNT_SAT.HK : Fld := ⟨.GLB_CNT_SAT, 20, 1⟩
def GLB_CNT_SAT.SEC : Fld := ⟨.GLB_CNT_SAT, 19, 1⟩
def GLB_CNT_SAT.DPY : Fld := ⟨.GLB_CNT_SAT, 18, 1⟩
def GLB_CNT_SAT.RAS : Fld := ⟨.GLB_CNT_SAT, 17, 1⟩
def GLB_CNT_SAT.SYN : Fld := ⟨.GLB_CNT_SAT, 16, 1⟩
def GLB_CNT_SAT.ETH : Fld := ⟨.GLB_CNT_SAT, 15, 1⟩
def GLB_CNT_SAT.EVR : Fld := ⟨.GLB_CNT_SAT, 14, 1⟩
def GLB_CNT_SAT.XFE : Fld := ⟨.GLB_CNT_SAT, 13, 1⟩
def GLB_CNT_SAT.QUE : Fld := ⟨.GLB_CNT_SAT, 12, 1⟩
def GLB_CNT_SAT.QRY : Fld := ⟨.GLB_CNT_SAT, 11, 1⟩
def GLB_CNT_SAT.BEN : Fld := ⟨.GLB_CNT_SAT, 10, 1⟩
def GLB_CNT_SAT.STM : Fld := ⟨.GLB_CNT_SAT, 9, 1⟩
def GLB_CNT_SAT.NDL : Fld := ⟨.GLB_CNT_SAT, 8, 1⟩
def GLB_CNT_SAT.EVI : Fld := ⟨.GLB_CNT_SAT, 7, 1⟩
def GLB_CNT_SAT.TAL : Fld := ⟨.GLB_CNT_SAT, 6, 1⟩
def GLB_CNT_SAT.DEC : Fld := ⟨.GLB_CNT_SAT, 5, 1⟩
def GLB_CNT_SAT.REC : Fld := ⟨.GLB_CNT_SAT, 4, 1⟩
def GLB_CNT_SAT.TRG : Fld := ⟨.GLB_CNT_SAT, 3, 1⟩
def GLB_CNT_SAT.TB : Fld := ⟨.GLB_CNT_SAT, 2, 1⟩
def GLB_CNT_SAT.CV : Fld := ⟨.GLB_CNT_SAT, 1, 1⟩
def GLB_CNT_SAT.GLB : Fld := ⟨.GLB_CNT_SAT, 0, 1⟩
def TST_CTL.EN : Fld := ⟨.TST_CTL, 31, 1⟩
def TST_CTL.PAT : Fld := ⟨.TST_CTL, 20, 3⟩
def TST_CTL.DEPTH : Fld := ⟨.TST_CTL, 16, 2⟩
def TST_CTL.UNIT : Fld := ⟨.TST_CTL, 8, 4⟩
def TST_CTL.IF : Fld := ⟨.TST_CTL, 0, 3⟩
def TST_STAT.LOCK : Fld := ⟨.TST_STAT, 4, 1⟩
def TST_STAT.RESULT : Fld := ⟨.TST_STAT, 0, 4⟩
def TST_PAT_WORD.WORD : Fld := ⟨.TST_PAT_WORD, 0, 32⟩
def TST_LOSS.COUNT : Fld := ⟨.TST_LOSS, 0, 32⟩
def TST_BITS.COUNT : Fld := ⟨.TST_BITS, 0, 64⟩
def TST_ERRS.COUNT : Fld := ⟨.TST_ERRS, 0, 64⟩
def TST_REGION_BASE.OFS : Fld := ⟨.TST_REGION_BASE, 0, 48⟩
def TST_REGION_SIZE.OFS : Fld := ⟨.TST_REGION_SIZE, 0, 48⟩
def TST_CRC.R : Fld := ⟨.TST_CRC, 32, 16⟩
def TST_CRC.G : Fld := ⟨.TST_CRC, 16, 16⟩
def TST_CRC.B : Fld := ⟨.TST_CRC, 0, 16⟩
def ETH_MAC.MAC : Fld := ⟨.ETH_MAC, 0, 48⟩
def ETH_IP4.ADDR : Fld := ⟨.ETH_IP4, 0, 32⟩
def ETH_IP6.WORD : Fld := ⟨.ETH_IP6, 0, 32⟩
def ETH_DST_CTL.IP6 : Fld := ⟨.ETH_DST_CTL, 31, 1⟩
def ETH_DST_CTL.SUBPORT : Fld := ⟨.ETH_DST_CTL, 28, 2⟩
def ETH_DST_CTL.UDP : Fld := ⟨.ETH_DST_CTL, 0, 16⟩
def ETH_DST_MAC.MAC : Fld := ⟨.ETH_DST_MAC, 0, 48⟩
def ETH_DST_IP.WORD : Fld := ⟨.ETH_DST_IP, 0, 32⟩
def ETH_FA_KEY.WORD : Fld := ⟨.ETH_FA_KEY, 0, 32⟩
def ETH_FA_KCTL.EN : Fld := ⟨.ETH_FA_KCTL, 0, 1⟩
def ETH_FA_LAST.COUNTER : Fld := ⟨.ETH_FA_LAST, 0, 64⟩
def RAS_CV_SIZE.W : Fld := ⟨.RAS_CV_SIZE, 16, 12⟩
def RAS_CV_SIZE.H : Fld := ⟨.RAS_CV_SIZE, 0, 12⟩
def RAS_CV_BUF0.OFS : Fld := ⟨.RAS_CV_BUF0, 12, 15⟩
def RAS_CV_BUF1.OFS : Fld := ⟨.RAS_CV_BUF1, 12, 15⟩
def RAS_CV_OVL.OFS : Fld := ⟨.RAS_CV_OVL, 12, 15⟩
def RAS_CV_BG.RGB : Fld := ⟨.RAS_CV_BG, 0, 24⟩
def RAS_LY_CTL.EN : Fld := ⟨.RAS_LY_CTL, 31, 1⟩
def RAS_LY_CTL.CANVAS : Fld := ⟨.RAS_LY_CTL, 30, 1⟩
def RAS_LY_CTL.JOB : Fld := ⟨.RAS_LY_CTL, 26, 3⟩
def RAS_LY_CTL.MAP : Fld := ⟨.RAS_LY_CTL, 24, 1⟩
def RAS_LY_CTL.ZX : Fld := ⟨.RAS_LY_CTL, 20, 4⟩
def RAS_LY_CTL.ZY : Fld := ⟨.RAS_LY_CTL, 16, 4⟩
def RAS_LY_POS.X0 : Fld := ⟨.RAS_LY_POS, 16, 12⟩
def RAS_LY_POS.Y0 : Fld := ⟨.RAS_LY_POS, 0, 12⟩
def RAS_LY_SCALE.SCALE : Fld := ⟨.RAS_LY_SCALE, 0, 32⟩
def RAS_LP_CTL.EN : Fld := ⟨.RAS_LP_CTL, 31, 1⟩
def RAS_LP_CTL.CANVAS : Fld := ⟨.RAS_LP_CTL, 30, 1⟩
def RAS_LP_CTL.OFS : Fld := ⟨.RAS_LP_CTL, 12, 15⟩
def RAS_LP_COLOUR.RGB : Fld := ⟨.RAS_LP_COLOUR, 0, 24⟩
def RAS_LUT.ALPHA : Fld := ⟨.RAS_LUT, 24, 8⟩
def RAS_LUT.RGB : Fld := ⟨.RAS_LUT, 0, 24⟩
def DPY_CTL.EN : Fld := ⟨.DPY_CTL, 31, 1⟩
def DPY_CTL.CMD : Fld := ⟨.DPY_CTL, 1, 1⟩
def DPY_H.HTOTAL : Fld := ⟨.DPY_H, 16, 13⟩
def DPY_H.HACT : Fld := ⟨.DPY_H, 0, 12⟩
def DPY_HS.HSW : Fld := ⟨.DPY_HS, 16, 12⟩
def DPY_HS.HFP : Fld := ⟨.DPY_HS, 0, 12⟩
def DPY_V.VTOTAL : Fld := ⟨.DPY_V, 16, 13⟩
def DPY_V.VACT : Fld := ⟨.DPY_V, 0, 12⟩
def DPY_VS.VSW : Fld := ⟨.DPY_VS, 16, 12⟩
def DPY_VS.VFP : Fld := ⟨.DPY_VS, 0, 12⟩
def DPY_VRR.EN : Fld := ⟨.DPY_VRR, 31, 1⟩
def DPY_VRR.VTOTAL_MAX : Fld := ⟨.DPY_VRR, 0, 13⟩
def DPY_PCLK.KHZ : Fld := ⟨.DPY_PCLK, 0, 21⟩
def DPY_SRC.FOLLOW : Fld := ⟨.DPY_SRC, 31, 1⟩
def DPY_SRC.CANVAS : Fld := ⟨.DPY_SRC, 30, 1⟩
def DPY_SRC.FB : Fld := ⟨.DPY_SRC, 12, 15⟩
def DPY_ORIENT.MIRROR : Fld := ⟨.DPY_ORIENT, 2, 1⟩
def DPY_ORIENT.ROT : Fld := ⟨.DPY_ORIENT, 0, 2⟩
def DPY_UNDER_LIM.LIM : Fld := ⟨.DPY_UNDER_LIM, 0, 24⟩
def DPY_DB_LINK.LANES : Fld := ⟨.DPY_DB_LINK, 16, 3⟩
def DPY_DB_LINK.RATE : Fld := ⟨.DPY_DB_LINK, 0, 13⟩
def DPY_TE_TO.MS : Fld := ⟨.DPY_TE_TO, 0, 16⟩
def HK_WAKE_CTL.SRC : Fld := ⟨.HK_WAKE_CTL, 16, 5⟩
def HK_WAKE_CTL.TB_MASK : Fld := ⟨.HK_WAKE_CTL, 0, 16⟩
def HK_WAKE_TICK.TICK : Fld := ⟨.HK_WAKE_TICK, 0, 64⟩
def HK_WAKE_CAUSE.SRC : Fld := ⟨.HK_WAKE_CAUSE, 61, 3⟩
def HK_WAKE_CAUSE.TICK : Fld := ⟨.HK_WAKE_CAUSE, 0, 61⟩
def HK_RST_CAUSE.CAUSE : Fld := ⟨.HK_RST_CAUSE, 0, 4⟩
def HK_PD_OFF.GO : Fld := ⟨.HK_PD_OFF, 31, 1⟩
def HK_PD_OFF.RESULT : Fld := ⟨.HK_PD_OFF, 8, 2⟩
def HK_PD_OFF.DOMAIN : Fld := ⟨.HK_PD_OFF, 0, 7⟩
def HK_PD_STAT.ON : Fld := ⟨.HK_PD_STAT, 0, 32⟩
def HK_PD_LINGER.MS : Fld := ⟨.HK_PD_LINGER, 0, 16⟩
def HK_FW_SRC.OFS : Fld := ⟨.HK_FW_SRC, 0, 64⟩
def HK_FW_LEN.BYTES : Fld := ⟨.HK_FW_LEN, 0, 32⟩
def HK_BOOT.VERSION : Fld := ⟨.HK_BOOT, 16, 16⟩
def HK_BOOT.FALLBACK : Fld := ⟨.HK_BOOT, 2, 1⟩
def HK_BOOT.SLOT : Fld := ⟨.HK_BOOT, 0, 2⟩
def HK_THERM.CRIT : Fld := ⟨.HK_THERM, 16, 16⟩
def HK_THERM.WARN : Fld := ⟨.HK_THERM, 0, 16⟩
def HK_TEMP.TEMP : Fld := ⟨.HK_TEMP, 0, 16⟩
def HK_CNT_SLEEPACC.COUNT : Fld := ⟨.HK_CNT_SLEEPACC, 0, 32⟩
def HK_DEC_IDX.COUNT : Fld := ⟨.HK_DEC_IDX, 0, 32⟩
def HK_DEC.WORD : Fld := ⟨.HK_DEC, 0, 32⟩

end Sys2Proof.Machine
end

