-- ==== Sys2Proof/Machine/Sparse.lean ====
section
/-!
DEFINITION. Sparse tables: a list of (key, value) pairs with rising keys, in which no entry holds the value that an
unlisted key reads as. Registers, memories and the state of numbered units are held in this one form, so that equal
contents are equal data.
-/
namespace Sys2Proof.Machine

/-- The value of key `k`: the listed one, or `dflt`. -/
def Sparse.get {κ α : Type} [DecidableEq κ] (dflt : α) (k : κ) : List (κ × α) → α
  | [] => dflt
  | (k', v) :: t => if k = k' then v else Sparse.get dflt k t

/-- Put the entry of key `k` before the first entry whose key comes after it. -/
def Sparse.insert {κ α : Type} (lt : κ → κ → Bool) (k : κ) (v : α) : List (κ × α) → List (κ × α)
  | [] => [(k, v)]
  | e :: t => if lt k e.1 then (k, v) :: e :: t else e :: Sparse.insert lt k v t

/-- The entries of the other keys. -/
def Sparse.erase {κ α : Type} [DecidableEq κ] (k : κ) (l : List (κ × α)) : List (κ × α) :=
  l.filter fun e => decide (e.1 ≠ k)

/-- Set key `k` to `v`, keeping the order of `lt`; the value `dflt` is not listed. -/
def Sparse.put {κ α : Type} [DecidableEq κ] [DecidableEq α] (lt : κ → κ → Bool) (dflt : α) (k : κ) (v : α)
    (l : List (κ × α)) : List (κ × α) :=
  if v = dflt then Sparse.erase k l else Sparse.insert lt k v (Sparse.erase k l)

/-- Every key of `l` comes after `k`. -/
def Sparse.above {κ α : Type} (lt : κ → κ → Bool) (k : κ) (l : List (κ × α)) : Bool :=
  l.all fun e => lt k e.1

/-- The canonical form: keys strictly rising, and every entry allowed by `ok`. -/
def Sparse.wf {κ α : Type} (lt : κ → κ → Bool) (ok : κ → α → Bool) : List (κ × α) → Bool
  | [] => true
  | (k, v) :: t => ok k v && Sparse.above lt k t && Sparse.wf lt ok t

/-- A table of numbered things. -/
abbrev Tab (α : Type) := List (Nat × α)

/-- Entry `k` of a table; an unlisted one is the default of its type. -/
def Tab.get {α : Type} [Inhabited α] (t : Tab α) (k : Nat) : α := Sparse.get default k t

/-- Set entry `k`. -/
def Tab.set {α : Type} [Inhabited α] [DecidableEq α] (t : Tab α) (k : Nat) (v : α) : Tab α :=
  Sparse.put Nat.blt default k v t

/-- Change entry `k` by `f`. -/
def Tab.upd {α : Type} [Inhabited α] [DecidableEq α] (t : Tab α) (k : Nat) (f : α → α) : Tab α :=
  Tab.set t k (f (Tab.get t k))

/-- The canonical form of a table. -/
def Tab.wf {α : Type} [Inhabited α] [DecidableEq α] (t : Tab α) : Bool :=
  Sparse.wf Nat.blt (fun _ v => decide (v ≠ default)) t

/-- Byte memory: an unlisted byte reads 0 (DESIGN CHOICE, log entry 6). -/
abbrev Memory := Tab (BitVec 8)

/-- The canonical form of a memory (the host's list of cells). -/
def Memory.wf (m : Memory) : Bool := Tab.wf m

/-- `n` bytes from address `a`. -/
def Memory.bytes (m : Memory) (a n : Nat) : List (BitVec 8) :=
  (List.range n).map fun i => Tab.get m (a + i)

/-- Store bytes from address `a` upward. -/
def Memory.store (m : Memory) (a : Nat) : List (BitVec 8) → Memory
  | [] => m
  | b :: t => Memory.store (Tab.set m a b) (a + 1) t

/-- The number that little-endian bytes spell (R4). -/
def leNat : List (BitVec 8) → Nat
  | [] => 0
  | b :: t => b.toNat + 256 * leNat t

/-- The `n` little-endian bytes of a number (R4). -/
def leBytes (v : Nat) : Nat → List (BitVec 8)
  | 0 => []
  | n + 1 => BitVec.ofNat 8 v :: leBytes (v / 256) n

/-- Pad a list of bytes with zeros to `n` bytes. -/
def padTo (n : Nat) (l : List (BitVec 8)) : List (BitVec 8) := l ++ List.replicate (n - l.length) 0

end Sys2Proof.Machine
end

