-- ==== Sys2Proof/Machine/State.lean ====
section
/-!
DEFINITION. The state of the module: its registers (one home each), the state that the spec's prose gives it beside
them, its memories, and the queue of the commands that wait. Every structure's default value is its state at reset.
-/
namespace Sys2Proof.Machine

/-- The registers that differ from their reset values. -/
abbrev Regs := List (Reg × W64)


/-! ### Samples in flight (01_engine_at_a_glance.md R29, R30; 08_tally_and_mask_testing.md R196) -/

/-- A frame of raw samples on its way through correction: each sample's code and the physical sub-converter that
converted it (R44), and the track-and-holds that were in INTERP. `spoilt`: the injection was active, or a group was in NINE
or INTERP (R86). `over`: an overrange frame that has not been counted (R60). -/
structure RawFrame where
  k : Nat := 0
  raw : List (BitVec 10) := []
  subs : List Nat := []
  interp : Nat := 0
  valid : Bool := true
  degraded : Bool := false
  spoilt : Bool := false
  ovr : Bool := false
  deriving DecidableEq, Repr, Inhabited

/-- A frame of corrected samples. -/
structure Frame where
  k : Nat := 0
  samples : List Int := []
  valid : Bool := true
  degraded : Bool := false
  holdover : Bool := false
  deriving DecidableEq, Repr, Inhabited

/-- The path of one channel: frames in correction, in the stage store's delay line, and the tally history (newest
first). -/
structure Path where
  raw : List RawFrame := []
  /-- The latest sample frame that has left correction. -/
  last : Option Nat := none
  delay : List Frame := []
  hist : List Frame := []
  deriving DecidableEq, Repr, Inhabited

/-- A frame of logic samples of an event-input group: the levels at its pads at the ticks of its samples, and how many sample
periods EVI_IDLY takes from each input's time in this frame (R218); no samples: the clock was lost in it (R106). -/
structure LogicFrame where
  k : Nat := 0
  samples : List (BitVec 16) := []
  shift : List Int := []
  deriving DecidableEq, Repr, Inhabited

/-! ### Slices and correction (02_converter_slices.md R42-R67, 03_correction_and_live_calibration.md R68-R93) -/

/-- The live statistics of a sub-converter (R83): its conversions, and the sums of their codes and of the codes' squares. -/
structure CodeSums where
  n : Nat := 0
  sum : Nat := 0
  sq : Nat := 0
  deriving DecidableEq, Repr, Inhabited

/-- A group of sub-converters beside CV_GRP_STAT and CV_SLOTMAP, which hold its state, spare and slots. -/
structure Group where
  /-- A frame at which every track-and-hold is at slot 0: the slot origin, or where nine-slot mode began (R44, R53). -/
  base : Nat := 0
  /-- The round of rotations whose rotation of this group is the next, and the slot it takes (R45). -/
  round : Nat := 0
  slot : Nat := 0
  /-- The spare's latest calibration has passed, and the page it gave: the OFS and GAIN word and the 512 LIN words
  (R81). -/
  calOk : Bool := false
  page : List Nat := []
  /-- The swap commanded for a rotation takes effect at this frame (R46, R82). -/
  swapAt : Option Nat := none
  /-- Sub-converters declared failed whose transition is to come, and its frame (R53, R54). -/
  failing : List Nat := []
  failAt : Option Nat := none
  /-- The live statistics of NOSPARE: the frame from which they run, and the sums by sub-converter (R83). -/
  statFrom : Nat := 0
  stat : Tab CodeSums := []
  /-- The spare and the slots that stand over a reset (R91). -/
  stands : Option (Nat × List Nat) := none
  deriving DecidableEq, Repr, Inhabited

/-- A commit of tables (R75): its frame, the sub-converters whose pages it switches, whether it switches the timing bank, and
the group whose rotation it serves (R82). -/
structure Commit where
  c : Nat := 0
  subs : List Nat := []
  tim : Bool := false
  rot : Option Nat := none
  deriving DecidableEq, Repr, Inhabited

/-- The running sums of the background skew estimator (R86): frames collected, for each track-and-hold the sums of
e[n] e[n-1] and of e[n] e[n+1], the sum of e[n]², and whether the collection has to be skipped. -/
structure Skew where
  frames : Nat := 0
  sm : List Int := [0, 0, 0, 0, 0, 0, 0, 0]
  sp : List Int := [0, 0, 0, 0, 0, 0, 0, 0]
  p : Int := 0
  spoilt : Bool := false
  deriving DecidableEq, Repr, Inhabited

/-- What a capture of a swatch gives for one track-and-hold (R88, R89): the sums of b sin, of b cos and of b over its samples,
the sine and cosine of the image tone as `turnSin` and `turnCos` give them. -/
structure ToneSums where
  bs : Int := 0
  bc : Int := 0
  b : Int := 0
  deriving DecidableEq, Repr, Inhabited

/-- A capture of a swatch: the frames it has taken, and the sums of the eight track-and-holds. -/
structure Capture where
  frames : Nat := 0
  th : Tab ToneSums := []
  deriving DecidableEq, Repr, Inhabited

/-- A swatch that runs (R87, R88): its start, the captures begun, and whether the route off has been commanded. Meanwhile
the DAC runs in RTZ mode with the tone FTW at AMP × 32 counts peak; FTW, AMP and COUNT are those of the start. -/
structure Swatch where
  s : Nat := 0
  ftw : Nat := 0
  amp : Nat := 0
  count : Nat := 1
  caps : Nat := 0
  sums : List Capture := []
  off : Option Nat := none
  deriving DecidableEq, Repr, Inhabited

/-- A slice and its correction pipeline beside their registers. -/
structure Slice where
  /-- The slice clock is locked, since when frames can be valid, and the enable-time calibration is done (R65, R106). -/
  locked : Bool := false
  validFrom : Nat := 0
  calDone : Bool := false
  group : Tab Group := []
  /-- The frames at which the rounds of rotations begin, group 0 first (R45). -/
  rounds : List Nat := []
  /-- Suspect windows (R49): first frame, and the frame after the last. -/
  suspect : List (Nat × Nat) := []
  /-- Both copies of every table, as words that differ from the identity (R71, R74), and the tables in flash (R80). -/
  tab : Tab Nat := []
  flash : Tab Nat := []
  saved : Option Nat := none
  /-- The commit that is pending, and the latest one that has switched (R75, R76). -/
  commit : Option Commit := none
  last : Option Commit := none
  /-- Stage 4 runs with the identity, and changes of it to come (R71). -/
  bypass : Bool := false
  bypassAt : List (Nat × Bool) := []
  /-- The route of the DAC in force (bit 0 the injection coupler, bit 1 STIMn), and changes that wait for their switch: frame
  and route (R62). -/
  route : Nat := 0
  routes : List (Nat × Nat) := []
  skew : Skew := {}
  swatch : Option Swatch := none
  deriving DecidableEq, Repr, Inhabited

/-! ### Time base (04_time_base.md R94-R115) -/

/-- A stretch of the count: from frame `frame` on, the count of that frame's boundary is `val` (ERA above TICK, 72 bits)
and records carry these flags (R98, R103). -/
structure Epoch where
  frame : Nat := 0
  val : Nat := 0
  valid : Bool := false
  holdover : Bool := false
  reflost : Bool := false
  deriving DecidableEq, Repr, Inhabited

/-- The AON time keeper's count (R108): the frame of the hand-over and the count then. -/
structure Keeper where
  frame : Nat := 0
  val : Nat := 0
  deriving DecidableEq, Repr, Inhabited

/-- The time base beside its registers. TB_REF_STAT holds its state. -/
structure TimeBase where
  /-- The stretches of the count, the present one first. -/
  epochs : List Epoch := [{ frame := 1024 }]
  keeper : Option Keeper := none
  /-- A reference has been lost and none has been taken since: the card oscillator runs with its last offset (R103). -/
  lost : Bool := false
  /-- The frame in which REF_IN became present, and EXTCLK_IN. -/
  refSince : Nat := 0
  extSince : Nat := 0
  /-- WHEN of the armed origin set (R101), and the boundary it is due at once known. -/
  armed : Option Nat := none
  due : Option Nat := none
  /-- The synthesiser is locked (R96); the latest gap of the sample clock: its first frame, and once it has ended the frame
  after its last (R106). -/
  locked : Bool := false
  gapFrom : Nat := 0
  gapTo : Nat := 0
  /-- The count is rebuilt and waits for its alignment source (R107). -/
  aligning : Bool := false
  /-- The error that the alignment source measured is being removed (R107). -/
  removing : Bool := false
  /-- Since this frame the error in TB_PHASE_ERR is being removed by slewing (R105). -/
  slew : Option Nat := none
  /-- TB_NOW0 reads and PPS_IN edges since the latest reset (R110). -/
  nowSeq : Nat := 0
  ppsSeq : Nat := 0
  /-- Frame of the latest PPS_IN edge, and whether PPS_MISSING has been raised since (R112). -/
  ppsLast : Option Nat := none
  ppsLate : Bool := false
  /-- The rise and the fall of the latest pulse of PPS_OUT, in 1/16 tick from frame 0 (R112). -/
  ppsOut : Option (Nat × Nat) := none
  /-- The PTP port state, and the messages that answered the latest one (R113). -/
  ptpState : Nat := 0
  ptpSent : List PtpMsg := []
  deriving DecidableEq, Repr, Inhabited

/-! ### Trigger units (05_trigger_units.md R116-R143) -/

/-- A change of a source at an instant (in 1/65,536 tick from frame 0): the source code of R118 and what happened.
For a channel: 0 comparator A arrives, 1 A departs, 2 B arrives, 3 B departs, and 4 to 7 set Q of A or B with no
arrival (4 A to 0, 5 A to 1, 6 B to 0, 7 B to 1). For a level source: 0 falls, 1 rises, and 10 or 11 leaves it at 0 or 1
with no edge. For a pulse or an instant: 2, or 8 or 9 for a pulse that leaves the level at 0 or 1 (R222). -/
structure Change where
  inst : Nat := 0
  src : Nat := 0
  what : Nat := 0
  interp : Bool := false
  deriving DecidableEq, Repr, Inhabited

/-- A comparator change whose placement (R125) waits for the samples after it: channel, comparator, what, and the
absolute number of the sample at which Q changed. -/
structure Crossing where
  ch : Nat := 0
  what : Nat := 0
  sample : Nat := 0
  level : Int := 0
  hyst : Int := 0
  fall : Bool := false
  deriving DecidableEq, Repr, Inhabited

/-- One condition slot of a profile (R120). -/
structure SlotCfg where
  typ : Nat := 0
  cond : Nat := 0
  inv : Bool := false
  either : Bool := false
  qual : Bool := false
  src : Nat := 0
  t1 : Nat := 0
  t2 : Nat := 0
  deriving DecidableEq, Repr, Inhabited

/-- A profile as the decision uses it (R137). -/
structure Profile where
  a : SlotCfg := {}
  b : SlotCfg := {}
  seqEn : Bool := false
  dlyCount : Bool := false
  restart : Bool := false
  rstEn : Bool := false
  rstSrc : Nat := 0
  seqN : Nat := 0
  seqDly : Nat := 0
  holdKind : Nat := 0
  holdCount : Nat := 0
  holdT : Nat := 0
  holdMax : Nat := 0
  clkSrc : Nat := 0
  clkInv : Bool := false
  patOr : Bool := false
  patMask : List Nat := []
  patVal : List Nat := []
  deriving DecidableEq, Repr, Inhabited

/-- What a control does to a unit's decisions from a sample frame on. -/
inductive Ctl
  | arm | disarm | enOff
  /-- EN rises, with the profile then in force. -/
  | enOn (p : Profile)
  | profile (p : Profile)
  /-- Invalid samples of channel `c` end: its measurements are abandoned (R117). -/
  | abandon (c : Nat)
  /-- Relock: every measurement is abandoned (R117). -/
  | abandonAll
  /-- The pre-trigger fill is discarded up to this frame (R106). -/
  | refill
  deriving DecidableEq, Repr, Inhabited

/-- The running measurements of a slot (R120): pulse start, comparator B's arrival and whether A has arrived since, the
previous arrival, the entry of the watched state, and INTERP of the instants kept. -/
structure SlotState where
  pulse : Option Nat := none
  bArr : Option Nat := none
  aSince : Bool := false
  prev : Option Nat := none
  enter : Option (Nat × Bool) := none
  deriving DecidableEq, Repr, Inhabited

/-- A trigger-unit's timed message (R119): its time as ERA above TICK, FRAC, code and source device. -/
structure TrigMsg where
  time : Nat := 0
  frac : Nat := 0
  code : Nat := 0
  src : Nat := 0
  deriving DecidableEq, Repr, Inhabited

/-- A trigger unit beside its registers. -/
structure TrigUnit where
  /-- Comparators: running, a change of EN still to come (sample frame, value), Q of CMP0 to CMP7, and for each
  channel whether its next valid sample initialises Q. -/
  run : Bool := false
  runAt : Option (Nat × Bool) := none
  q : List Bool := [false, false, false, false, false, false, false, false]
  init : List Bool := [true, true, true, true]
  crossings : List Crossing := []
  /-- Changes on their way to the unit (R119), each with the frame in which it reaches the unit, the earliest first; and
  messages. -/
  inbox : List (Nat × Change) := []
  msgs : List TrigMsg := []
  /-- The compare time that is loaded, as ERA above TICK (R119). -/
  tcmp : Option Nat := none
  /-- Messages that match and wait for the samples of their time: the sample frame at the unit when they were loaded,
  their time and FRAC (R119). -/
  timed : List (Nat × Nat × Nat) := []
  /-- Changes and controls that wait for their decision. -/
  changes : List Change := []
  ctl : List (Nat × Ctl) := []
  /-- ARM and DISARM writes that wait for the next frame: frame, and true for ARM (R129). -/
  arming : List (Nat × Bool) := []
  /-- The frame of a pending profile commit (R137). -/
  commit : Option Nat := none
  /-- The decision's own state: profile, enable, arming, arm origin, Q and levels, slots, sequence. -/
  prof : Profile := {}
  on : Bool := false
  armed : Bool := false
  armOrigin : Nat := 0
  validFrom : Nat := 0
  dq : List Bool := [false, false, false, false, false, false, false, false]
  levels : Tab Bool := []
  sa : SlotState := {}
  sb : SlotState := {}
  delay : Bool := false
  tA : Nat := 0
  count : Nat := 0
  /-- Holdoff (R131): t_q, the candidates still to suppress, and the time that holds since t_q. -/
  tq : Option Nat := none
  remaining : Nat := 0
  drawn : Nat := 0
  /-- Segments that the latest trigger opened, with their last sample frames, and that trigger's own frame (R130). -/
  running : List (Nat × Nat) := []
  lastF : Option Nat := none
  deriving DecidableEq, Repr, Inhabited

/-! ### Record lanes (06_record_lanes_and_segments.md R144-R168, R495) -/

/-- A segment request (R149); `left` of its repeats have not run. -/
structure Req where
  tu : Nat := 0
  pre : Nat := 0
  post : Nat := 0
  tag : Nat := 0
  left : Nat := 1
  deriving DecidableEq, Repr, Inhabited

/-- The window of the active request (R151, R153, R154): its fill origin, its place, its granules and how many have
been written; `waiting` while a HOIST skein has no room. -/
structure Win where
  waiting : Bool := false
  origin : Nat := 0
  alloc : Nat := 0
  w : Nat := 0
  n : Nat := 0
  /-- The fill starts again after a drop run: not valid for R134 until PRE granules are written (R311). -/
  refill : Bool := false
  deriving DecidableEq, Repr, Inhabited

/-- An open segment (R158). `t` is the index of its trigger granule once that is known, `off` the items of that
granule before the trigger item, `p` the pre-trigger granules kept. -/
structure Seg where
  segnum : Nat := 0
  tu : Nat := 0
  tag : Nat := 0
  time : BitVec 128 := 0
  inst : Nat := 0
  post : Nat := 0
  t : Option Nat := none
  off : Nat := 0
  p : Nat := 0
  clocklost : Bool := false
  truncated : Bool := false
  wrapped : Bool := false
  maskfail : Bool := false
  deriving DecidableEq, Repr, Inhabited

/-- A record of R162. -/
structure Rec where
  kind : Nat := 0
  outcome : Nat := 0
  time : BitVec 128 := 0
  superseded : Bool := false
  maskfail : Bool := false
  truncated : Bool := false
  clocklost : Bool := false
  holdover : Bool := false
  degraded : Bool := false
  wrapped : Bool := false
  tu : Nat := 0
  lane : Nat := 0
  segnum : Nat := 0
  format : Nat := 0
  start : Nat := 0
  skein : Nat := 0
  alloc : Nat := 0
  allocBytes : Nat := 0
  length : Nat := 0
  tag : Nat := 0
  preCount : Nat := 0
  /-- The sample frames of its first and last granule (the model's own, for R49). -/
  k0 : Nat := 0
  k1 : Nat := 0
  deriving DecidableEq, Repr, Inhabited

/-- A granule that reaches a lane: its packed bytes, the instants of its items (in 1/65,536 tick), the first and the last
sample frame that contribute to it, and the flags of its samples. -/
structure Granule where
  bytes : List Byte := []
  insts : List Nat := []
  k0 : Nat := 0
  k : Nat := 0
  holdover : Bool := false
  degraded : Bool := false
  deriving DecidableEq, Repr, Inhabited

/-- An ending of a lane whose segment has still granules in the pool that the hoist's skein cannot take yet (R155, R159): how
the segment ends (as laneEndSeg), the outcome of the CLOSE records, the requests that end with it and the frame of the ending;
`left` granules at the head of the pool belong to the segment. -/
structure Cut where
  how : Nat := 0
  outcome : Nat := 0
  reqs : List Req := []
  frame : Nat := 0
  left : Nat := 0
  deriving DecidableEq, Repr, Inhabited

/-- A record lane beside its registers. -/
structure Lane where
  queue : List Req := []
  /-- The active request, or the one that becomes active again. -/
  cur : Option Req := none
  /-- The frame in which the next request becomes active (R151). -/
  actAt : Option Nat := none
  win : Option Win := none
  seg : Option Seg := none
  /-- Granules of the window with flags: index, HOLDOVER, DEGRADED. -/
  marks : List (Nat × Bool × Bool) := []
  /-- The latest granules written: index and instants of the items. -/
  recent : List (Nat × List Nat) := []
  /-- The granules that the window or the segment keeps, newest first: their first instants, and the first and the last
  sample frame that contribute to them. -/
  kept : List (Nat × Nat × Nat) := []
  /-- Records that wait: segments for the store's acknowledgement, and CLOSE records behind them or for an entry. -/
  await : List Rec := []
  /-- CLOSE records that wait for a free record-buffer entry (R165). -/
  noEntry : List Rec := []
  /-- A valid item has been delivered since the enable; the next segment follows a clock loss, or a drop. -/
  sawValid : Bool := false
  lossMark : Bool := false
  dropMark : Bool := false
  maskStop : Bool := false
  /-- The fill starts at the next valid frame of the source (R130, R159). -/
  gap : Bool := false
  cut : Option Cut := none
  /-- The frame in which the latest granule was written; CLOSE records made; the segment number is about to wrap. -/
  wrote : Nat := 0
  closeSeq : Nat := 0
  numWrapped : Bool := false
  /-- Granules in the stage-store pool, oldest first, whether a drop run is on (R310), and the latest frame it has counted. -/
  pool : List Granule := []
  dropping : Bool := false
  dropK : Nat := 0
  /-- Records placed so far (R274), and KIND and OUTCOME of the latest. -/
  placed : Nat := 0
  lastKind : Nat := 0
  lastOutcome : Nat := 0
  deriving DecidableEq, Repr, Inhabited

/-- A segment whose data a skein holds (R155-R157): its record, once its record has been written, the item positions
it keeps (its pre-trigger slot and its granules), and how many granules the hoist has delivered. -/
structure Held where
  record : Rec := {}
  recorded : Bool := false
  ended : Bool := false
  /-- Slot of the oldest kept granule, window granules, granules kept, granule size, span of the skein. -/
  slot : Nat := 0
  w : Nat := 0
  m : Nat := 0
  g : Nat := 0
  span : Nat := 0
  /-- First instants of its granules, in order (R371). -/
  firsts : List Nat := []
  /-- Bytes delivered by the hoist, where they went, and whether some were poisoned (R307, R308); bytes that have
  entered a retransmit window (R376). -/
  sent : Nat := 0
  dest : Nat := 0
  poisoned : Bool := false
  packed : Nat := 0
  deriving DecidableEq, Repr, Inhabited

/-- A skein: the definition in force (R146) and the segments it holds, oldest first. -/
structure Skein where
  defined : Bool := false
  store : Nat := 0
  base : Nat := 0
  size : Nat := 0
  policy : Nat := 0
  tgt : Nat := 0
  held : List Held := []
  deriving DecidableEq, Repr, Inhabited

/-- Lanes, skeins and the record buffer's completed records, oldest first (R165). -/
structure Lanes where
  lane : Tab Lane := []
  skein : Tab Skein := []
  done : List Rec := []
  /-- The latest drain frame used (R165). -/
  lastDrain : Option Nat := none
  /-- The lanes whose store takes nothing in the present frame, bit by bit (R310). -/
  stalled : Nat := 0
  deriving DecidableEq, Repr, Inhabited

/-! ### Decimation units (07_decimation_units.md R169-R191) -/

/-- A run of a decimation unit since a restart (R178): the sample frame of t0, the configuration, step and phase words that it
runs with (R170), the samples since t0, the next item and the next frame of the fast path, and the sample frames with flags
(frame, HOLDOVER, DEGRADED). -/
structure DecRun where
  k0 : Nat := 0
  cfg : W64 := 0
  step : W64 := 0
  phase : W64 := 0
  x : List Int := []
  m : Nat := 0
  fast : Nat := 0
  marks : List (Nat × Bool × Bool) := []
  deriving DecidableEq, Repr, Inhabited

/-- An item of a unit for the lanes (R144, R179, R181): its instant, its output field, its 16-bit form, the minimum of a PEAK
pair, the first and the last sample frame that contribute to it, and their flags. -/
structure DecOut where
  inst : Nat := 0
  full : Int := 0
  small : Int := 0
  low : Int := 0
  k0 : Nat := 0
  k : Nat := 0
  holdover : Bool := false
  degraded : Bool := false
  deriving DecidableEq, Repr, Inhabited

/-- A decimation unit beside its registers. -/
structure DecUnit where
  /-- The runs with items still to deliver, the oldest first; the last one takes the samples. -/
  runs : List DecRun := []
  /-- The sample frame of a restart that is due, and the configuration, step and phase of a commit that goes with it (R170,
  R178). -/
  restart : Option Nat := none
  commit : Option (W64 × W64 × W64) := none
  /-- The sample frame from which the item rate has changed, until it leaves the stage store (R159, R187). -/
  change : Option Nat := none
  /-- The unit has restarted since its registers were reset: DEC_SETTLE_FR shows its value (R191). -/
  shown : Bool := false
  /-- Q of THR0 and THR1, whether the next item initialises it (R184), and the frame of the latest pulse. -/
  q : List Bool := [false, false]
  init : List Bool := [true, true]
  pulsed : List (Option Nat) := [none, none]
  /-- The items of the granule that the lanes take next (R144). -/
  part : List DecOut := []
  deriving DecidableEq, Repr, Inhabited

/-- The decimation block. -/
structure Decimation where
  unit : Tab DecUnit := []
  /-- Sample frames at which a SYNC takes effect (R185). -/
  sync : List Nat := []
  /-- Instants of timed SYNCs on their way, in 1/65,536 tick. -/
  timed : List Nat := []
  deriving DecidableEq, Repr, Inhabited

/-! ### Tally (08_tally_and_mask_testing.md R192-R215) -/

/-- A record of a tally job (R195): its first tick (from frame 0), its trigger's instant and TIME128, the segment that
the bound lane opened for it, its points and how many are folded or captured, the frame in which it began, whether it
halves the sums (R199), the rows of the column in progress and the row of the point before (R203), flags of its samples
(R197), its index, the points folded into the outer region (R211), and the frame in which it completes once its last sample is
processed. -/
structure TallyRec where
  a : Nat := 0
  inst : Nat := 0
  time : BitVec 128 := 0
  seg : Option Nat := none
  points : Nat := 0
  folded : Nat := 0
  began : Nat := 0
  halve : Bool := false
  lo : Nat := 0
  hi : Nat := 0
  prev : Nat := 0
  degraded : Bool := false
  holdover : Bool := false
  index : Nat := 0
  outer : Nat := 0
  doneAt : Option Nat := none
  deriving DecidableEq, Repr, Inhabited

/-- A verdict on its way (R206): the frame it is ready in, the sample frame, the violating samples in it, the record as
it then was, whether the record ends in that frame, and whether a later run of the job has started since. -/
structure Verdict where
  ready : Nat := 0
  k : Nat := 0
  n : Nat := 0
  record : TallyRec := {}
  last : Bool := false
  past : Bool := false
  deriving DecidableEq, Repr, Inhabited

/-- What a job that is not IDLE holds since its START (R194, R203): its banks, the store (2 tally, 0 bench, 1 quarry) and place of its
accumulator, whether that is a density map, and the map's bytes per bin, rows and columns. -/
structure TallyHold where
  first : Nat := 0
  banks : Nat := 0
  store : Nat := 2
  acc : Nat := 0
  bytes : Nat := 0
  den : Bool := false
  bin : Nat := 4
  rows : Nat := 0
  cols : Nat := 0
  deriving DecidableEq, Repr, Inhabited

/-- A tally job beside its registers. -/
structure TallyJob where
  own : Option TallyHold := none
  /-- Accepted triggers of its unit that it has not taken yet: instant, TIME128, the bound lane's segment (R196). -/
  trig : List (Nat × BitVec 128 × Option Nat) := []
  /-- The frame of the START of a CLEARING job; the frame from which its banks are on, whether it clears, and the bytes that it has
  cleared (R212). -/
  ready : Option Nat := none
  onAt : Option Nat := none
  clr : Bool := false
  cleared : Nat := 0
  /-- The first tick of the run, and the last tick of the latest record (R196). -/
  runStart : Nat := 0
  busyEnd : Option Nat := none
  /-- The records begun and not completed, the oldest first. -/
  recs : List TallyRec := []
  /-- A PAUSE waits for the record in progress (R201). -/
  pausing : Bool := false
  verdicts : List Verdict := []
  /-- The trigger instant of the latest record found failing (R207), and the record that stops the job (R209). -/
  failAt : Option Nat := none
  failing : Option TallyRec := none
  /-- SATURATED stops the job once the verdict of its last record is ready (R200). -/
  satStop : Bool := false
  /-- The frame in which the halving pass begins: STATE is HALVING from then on (R205). -/
  halving : Option Nat := none
  deriving DecidableEq, Repr, Inhabited

/-- The tally: its jobs and its store (R192). -/
structure Tally where
  job : Tab TallyJob := []
  mem : Memory := []
  deriving DecidableEq, Repr, Inhabited

/-! ### Event inputs (09_event_inputs_and_interval_timing.md R216-R236) -/

/-- A stamp: its TIME128, its instant in the model's frames (in 1/65,536 tick) with FRAC bit 0 cleared, and whether it is
the first made with a new gauge table (R225). -/
structure Stamp where
  time : BitVec 128 := 0
  inst : Nat := 0
  fresh : Bool := false
  deriving DecidableEq, Repr, Inhabited

/-- An event input beside its registers. -/
structure EvIn where
  /-- The gauge table (empty: the uniform one, R229), the table saved in flash, and whether the next stamp is the first
  of a new table. -/
  gauge : List Nat := []
  saved : List Nat := []
  fresh : Bool := false
  /-- The frames of the latest calibration: the first and, once it has ended, the one after the last (R227). -/
  calFrom : Nat := 0
  calTo : Nat := 0
  /-- The latest accepted stamp since the group entered TIMING (R221), and the level (R218, R222). -/
  last : Option Nat := none
  level : Bool := false
  /-- Edges counted while the synthesiser is unlocked (R220). -/
  noclk : Nat := 0
  fifo : List Stamp := []
  /-- The batch: its stamps, its queue and the frame of its first stamp (R224); drops since the previous batch (R225):
  dead time, FIFO, calibration. -/
  batch : List Stamp := []
  batchQ : Nat := 0
  batchAt : Nat := 0
  dropDead : Nat := 0
  dropFifo : Nat := 0
  dropCal : Nat := 0
  /-- The frame in which the collector last took a stamp of this input (R223). -/
  taken : Option Nat := none
  deriving DecidableEq, Repr, Inhabited

/-- An event-input group: the mode before the latest change, the frame from which the new one holds, and the frames from
which the group is READY in either mode (R217). -/
structure EvGroup where
  before : Nat := 0
  since : Nat := 0
  readyBefore : Option Nat := none
  readyAt : Option Nat := none
  deriving DecidableEq, Repr, Inhabited

/-- A stamp that an interval unit works on: whether a start, and the stamp. -/
structure IuStamp where
  start : Bool := false
  stamp : Stamp := {}
  deriving DecidableEq, Repr, Inhabited

/-- An interval unit beside its registers: stamps that wait for earlier ones, pending or unmatched stamps, result
entries, and EARLY_STOPs since the previous result (R230-R232). -/
structure Iu where
  inbox : List IuStamp := []
  pend : List IuStamp := []
  fifo : List (List Byte) := []
  early : Nat := 0
  deriving DecidableEq, Repr, Inhabited

/-- The event inputs. -/
structure EventIn where
  inp : Tab EvIn := []
  group : Tab EvGroup := []
  iu : Tab Iu := []
  /-- The input that the collector served last, and the frames of its latest 16 stamps, newest first (R223). -/
  served : Nat := 127
  recent : List Nat := []
  /-- The frames of the latest four interval results drained, newest first (R231). -/
  drained : List Nat := []
  /-- The input under calibration (R227), and the frame of the latest save of the tables (R229). -/
  gauging : Option Nat := none
  savedAt : Option Nat := none
  deriving DecidableEq, Repr, Inhabited

/-! ### Needles (10_needles_and_zhervo_model.md R237-R258) -/

/-- An entry of the loop stack (R237). -/
structure Loop where
  count : Nat := 0
  first : Nat := 0
  last : Nat := 0
  deriving DecidableEq, Repr, Inhabited

/-- An effect of an issued instruction on the blocks (R243): a field write, a field read, a report or a marker pulse. -/
inductive Effect
  | setf (word lsb wm1 : Nat) (value : W64)
  | getf (word lsb wm1 dest : Nat) (sx : Bool)
  | arm (mask : Nat) (on : Bool)
  | seg (lane : Nat) (a b : W64)
  | caston (a b : W64)
  /-- A BINDOFF: of the needle's own, or of the engine for a needle that stops (R241, R252). -/
  | bindoff (own : Bool)
  | sync
  | tone (su k : Nat) (a b : W64)
  | play (su : Nat) (a b : W64)
  | post (q : Nat) (a b : W64)
  | signal (code : Nat)
  | mark (marker frames : Nat)
  deriving DecidableEq, Repr, Inhabited

/-- An effect in flight: the PC of its instruction and its apply frame. -/
structure Flight where
  pc : Nat := 0
  due : Nat := 0
  eff : Effect := default
  deriving DecidableEq, Repr, Inhabited

/-! ### Register access (00_scope.md R14-R18, 01_engine_at_a_glance.md R38) -/

/-- What is written in a frame and applies at its end: a write of BAR0, or a field write of needle `n` (R38, R243). -/
inductive FrameWrite
  | bus (w : BusWr)
  | needle (n : Nat) (f : Flight)
  deriving DecidableEq, Repr

/-- What the register access keeps beside the registers themselves. -/
structure BusState where
  /-- Staging words of low halves, per requester and register (R17). -/
  staging : List ((Rq × Reg) × W32) := []
  /-- Unused snapshots of high halves (R18) and of TIME128 words (R110), per requester and register. -/
  snaps : List ((Rq × Reg) × W32) := []
  /-- What has been written in this frame so far (R38; the model's own). -/
  writes : List FrameWrite := []
  /-- The W1C bits that the hardware has set in this frame (R14; the model's own). -/
  sets : List (Reg × W64) := []
  /-- The value of the last read completion (the model's own). -/
  rdata : W64 := 0
  deriving DecidableEq, Repr, Inhabited

/-- What a WAITING needle waits for (R246, R272-R274). -/
inductive WaitKind
  | delay
  /-- WAITT, for ERA:TICK as one number; late at issue or not. -/
  | time (t : Nat) (late : Bool)
  | event (e : Nat)
  | seg (lane : Nat) (all : Bool)
  | fence
  deriving DecidableEq, Repr, Inhabited

/-- A wait: its issue frame, the frame of its timeout, and the frame and outcome of a happening that completes it. -/
structure Wait where
  kind : WaitKind := .delay
  issued : Nat := 0
  limit : Option Nat := none
  done : Option (Nat × Nat) := none
  deriving DecidableEq, Repr, Inhabited

/-- A needle (R237), beside NDL_ENTRY, NDL_WIN, NDL_CLAIM and its counters, which are registers. -/
structure Needle where
  g : Tab W64 := []
  z : Bool := false
  n : Bool := false
  c : Bool := false
  v : Bool := false
  w : Nat := 0
  pc : Nat := 0
  /-- Innermost first. -/
  loops : List Loop := []
  calls : List Nat := []
  scratch : Memory := []
  /-- 0 STOPPED, 1 RUNNING, 2 WAITING, 3 HALTED, 4 FAULTED (R258). -/
  state : Nat := 0
  ctx : Bool := false
  /-- The frame from which the needle is RUNNING after the latest GO, and its state until then (R241). -/
  runFrom : Nat := 0
  before : Nat := 0
  /-- The window of a pending replacement, as it was checked (R253). -/
  replWin : W64 := 0
  /-- The first frame in which the next instruction can issue. -/
  next : Nat := 0
  flights : List Flight := []
  wait : Option Wait := none
  /-- Destinations of GETFs and the frames from which they can be read (R244). -/
  busy : List (Nat × Nat) := []
  /-- POSTs applied (R275). -/
  posts : Nat := 0
  deriving DecidableEq, Repr, Inhabited

/-- The needles and their program store (R237-R239). -/
structure Needles where
  needle : Tab Needle := []
  prog : Memory := []
  deriving DecidableEq, Repr, Inhabited

/-! ### Stimulus units (12_stimulus_synthesiser.md R280-R297) -/

/-- A tone: FTW, PH and A. -/
structure Tone where
  ftw : Nat := 0
  ph : Nat := 0
  amp : Nat := 0
  deriving DecidableEq, Repr, Inhabited

/-- A segment of a stimulus unit: its list and length in granules, the frame it was applied in, the records read so far
and those of them held in the prefetch buffer, by granule (R286, R289). -/
structure StmSeg where
  ofs : Nat := 0
  len : Nat := 0
  applied : Nat := 0
  fetched : Nat := 0
  held : List (Nat × List Byte) := []
  deriving DecidableEq, Repr, Inhabited

/-- A stimulus unit beside its registers. STM_USTAT holds its state. -/
structure Stim where
  acc : List Nat := [0, 0, 0, 0]
  /-- The tones of the granule (R281), and the static tones in effect (R284). -/
  tones : List Tone := [{}, {}, {}, {}]
  statics : List Tone := [{}, {}, {}, {}]
  /-- Static tones still to take effect, in the order of their writes: tone, value and apply frame. -/
  changes : List (Nat × Tone × Nat) := []
  /-- The playing segment, and the granules of it that have begun. -/
  playing : Option StmSeg := none
  granule : Nat := 0
  /-- The segment fixed at the decision point (R288), the queue behind it, and where a STATIC unit starts the head of its queue:
  not before a frame, and at a count under START_MODE 1 (R287). -/
  chosen : Option StmSeg := none
  queue : List StmSeg := []
  startAt : Option Nat := none
  startTick : Option Nat := none
  /-- JUMPs on their way: arrival frame and segment (R288); and the frame of the latest arrival. -/
  jumps : List (Nat × StmSeg) := []
  jumpAt : Option Nat := none
  /-- Granules before this frame are lost to a late start (R287); and the latest granule was lost. -/
  lostTo : Nat := 0
  lost : Bool := false
  /-- CLEAR has been written (R291). -/
  clear : Bool := false
  /-- The latest granule boundary taken, and its 256 codes; an empty list is code 0 throughout. -/
  last : Option Nat := none
  out : List Int := []
  deriving DecidableEq, Repr, Inhabited

/-! ### Bench, hoist and quarry (13_bench_and_quarry_memory.md R298-R323) -/

/-- An entry that a hoist target has to write (R308). -/
structure HoistEntry where
  lane : Nat := 0
  segnum : Nat := 0
  dest : Nat := 0
  bytes : Nat := 0
  outcome : Nat := 0
  deriving DecidableEq, Repr, Inhabited

/-- A stream of a STREAM or REPLAY target (R372-R375): the next SEQ, the stored credit, the frame of its latest progress
or probe, the probes since the last progress, and whether it is STALLED. -/
structure Stream where
  seq : Nat := 0
  ack : Nat := 0
  limit : Nat := 0
  last : Nat := 0
  probes : Nat := 0
  stalled : Bool := false
  deriving DecidableEq, Repr, Inhabited

/-- A hoist target beside its registers: entries due and their SEQ; whether a STOP target has stopped; the complete
segments in its ring (offset and bytes, oldest first), and whether the ring is full though WP equals REL; the skein of
the segment in progress; bytes that wait for a packet, each with its poison mark; the REPLAY passes still to run, and whether one has ended. -/
structure Target where
  due : List HoistEntry := []
  seq : Nat := 0
  stopped : Bool := false
  ring : List (Nat × Nat) := []
  full : Bool := false
  skein : Option Nat := none
  buf : List (Byte × Bool) := []
  passes : Nat := 0
  passEnd : Bool := false
  passPoison : Bool := false
  stream : Stream := {}
  deriving DecidableEq, Repr, Inhabited

/-- A quarry channel beside its registers. -/
structure QChan where
  /-- REFab commands postponed, per rank (R312). -/
  postponed : Tab Nat := []
  /-- Corrections per row in this patrol pass (R314). -/
  ceRow : Tab Nat := []
  /-- Requests waiting: class (1 to 4), whether a read, and frame of arrival (R302, R304). -/
  waiting : List (Nat × Bool × Nat) := []
  /-- The frame of the latest request, and self-refresh (R319). -/
  lastReq : Nat := 0
  selfRefresh : Bool := false
  /-- A row has found the table full: RETIRE_PROPOSE has been raised (R315). -/
  proposed : Bool := false
  /-- Rows being copied to spare rows: table entries, the oldest first (R314). -/
  copying : List Nat := []
  /-- Slots that each class has been served in the present round of weights (R302). -/
  served : List Nat := [0, 0, 0, 0]
  /-- What is fitted (R300). -/
  dimm : Dimm := {}
  deriving DecidableEq, Repr, Inhabited

/-- The memories and what moves between them. -/
structure Bench where
  bench : Memory := []
  quarry : Memory := []
  /-- Poisoned 64-byte blocks, by block number (R313). -/
  benchPoison : List Nat := []
  quarryPoison : List Nat := []
  target : Tab Target := []
  chan : Tab QChan := []
  /-- The skein the hoist served last (R307). -/
  hoistLast : Nat := 0
  /-- The retired or retiring channel, and the smallest channel capacity Cch (R301, R316). -/
  retired : Option Nat := none
  cch : Nat := 0
  channels : Nat := 0
  /-- Rows journalled in the AON domain (R317). -/
  journal : Nat := 0
  /-- The frame d of a frequency change, and the abandonments so far (R320). -/
  freqStart : Option Nat := none
  freqAbandoned : Nat := 0
  freqWaiting : Bool := false
  freqTarget : Nat := 0
  /-- The frame of PANIC's latest change, which takes effect in the next one (R309). -/
  panicAt : Nat := 0
  /-- The next 64-byte block of the patrol pass (R313). -/
  patrol : Nat := 0
  /-- The channel of a BLOCKED retirement (R316). -/
  blocked : Option Nat := none
  deriving DecidableEq, Repr, Inhabited

/-! ### Host link, queues and event router (14_host_link_queues_and_events.md R324-R348, 21_fault_accounting.md R462) -/

/-- The host link (R324). -/
structure LinkState where
  up : Bool := false
  rate : Nat := 0
  width : Nat := 0
  /-- The last completion of an aperture read: its bytes and its poisoned-data mark (the model's own). -/
  rbytes : List Byte := []
  rpoison : Bool := false
  deriving DecidableEq, Repr, Inhabited

/-- A device item on its way to queue `q` (R332): the TYPE and FMT it needs, its place among the producers of a frame
(R347), the frame it was made in and its content. -/
structure Item where
  q : Nat := 0
  typ : Nat := 0
  fmt : Nat := 0
  rank : Nat := 0
  frame : Nat := 0
  bytes : List Byte := []
  /-- For a command's completion: its command queue and the CONS to write back after it (R333). -/
  after : Option (Nat × Nat) := none
  deriving DecidableEq, Repr, Inhabited

/-- A command entry that has been read and waits to be applied (R337). -/
structure CmdEntry where
  line : Line := default
  frame : Nat := 0
  deriving DecidableEq, Repr, Inhabited

/-- What a queue keeps beside its registers. -/
structure QueueState where
  /-- Items written since the last request, and the frame of the first uncovered one (R342). -/
  since : Nat := 0
  first : Option Nat := none
  /-- The frame from which a write of QUE_INT applies (R342). -/
  recheck : Option Nat := none
  /-- SEQ of the queue's command completions or spoil entries (R338, R340). -/
  seq : Nat := 0
  /-- Items lost since the spoil queue's previous item (R340). -/
  lost : Nat := 0
  /-- Index of the next command entry to read (R333). -/
  fetched : Nat := 0
  /-- Command entries read and not yet applied, oldest first. -/
  cmds : List CmdEntry := []
  /-- The frame of the latest applied command (R337: at most one per frame). -/
  applied : Option Nat := none
  deriving DecidableEq, Repr, Inhabited

/-- An MSI-X vector: its table entry and its message (R343). -/
structure Vec where
  addr : W64 := 0
  data : W32 := 0
  unmasked : Bool := false
  /-- A message is outstanding; with the entry masked this is the pending bit. -/
  outstanding : Bool := false
  lastSent : Option Nat := none
  deriving DecidableEq, Repr, Inhabited

/-- The queue engine beside its registers. -/
structure QueueEngine where
  q : Tab QueueState := []
  items : List Item := []
  vec : Tab Vec := []
  /-- Host memory as the device has written it (R332). -/
  hostMem : Memory := []
  /-- MSI-X is enabled and the function is not masked (R343; DESIGN CHOICE, log entry 66: no row changes it). -/
  msix : Bool := true
  deriving DecidableEq, Repr, Inhabited

/-- The hold-off of an event (R462): the last frame of it, its length, and whether an occurrence fell inside. -/
structure Hold where
  until_ : Option Nat := none
  n : Nat := 0
  occurred : Bool := false
  deriving DecidableEq, Repr, Inhabited

/-- The event router beside its registers. -/
structure Router where
  /-- Raisings that have not yet reached the router: frame and event. -/
  arriving : List (Nat × Nat) := []
  hold : Tab Hold := []
  /-- The log FIFO of R345. -/
  fifo : List Item := []
  seq : Nat := 0
  lost : Nat := 0
  /-- The frame in which entries were last written, and how many in it (R345). -/
  wroteAt : Option Nat := none
  wrote : Nat := 0
  deriving DecidableEq, Repr, Inhabited

/-! ### Transfer engine (15_transfer_engine.md R349-R367) -/

/-- What a busy transfer channel waits for. -/
inductive XferPhase
  | idle | fetch | data | readback
  deriving DecidableEq, Repr, Inhabited

/-- A transfer channel beside its registers: its mode, the descriptor in progress and its address, the data bytes moved,
the running check value (the CRC register, or the sum), the outcome so far, a held KICK, and the completions written. -/
structure XferChan where
  mode : Nat := 0
  phase : XferPhase := .idle
  addr : Nat := 0
  desc : Line := default
  pos : Nat := 0
  check : Nat := 0
  /-- The latest odd byte of the MZ-2 sum that waits for its high byte. -/
  odd : Option Nat := none
  poisoned : Bool := false
  wdrop : Bool := false
  kick : Bool := false
  seq : Nat := 0
  deriving DecidableEq, Repr, Inhabited

/-- The transfer engine: its channels, and whether the latest write to host memory carried the poisoned-data mark (the
model's own). -/
structure Xfer where
  chan : Tab XferChan := []
  hostPoison : Bool := false
  deriving DecidableEq, Repr, Inhabited


/-! ### Stream ports (16_stream_ports.md R368-R385) -/

/-- A packet of a retransmit window: its target and SEQ, TYPE, the flags of byte 0x01, the fields of its header and its
payload (R370). -/
structure Packet where
  tgt : Nat := 0
  seq : Nat := 0
  typ : Nat := 0
  flags : Nat := 0
  sid : Nat := 0
  dev : Nat := 0
  lane : Nat := 0
  fmt : Nat := 0
  time : BitVec 128 := 0
  payload : List Byte := []
  deriving DecidableEq, Repr, Inhabited

/-- A stream port beside its registers. -/
structure Port where
  /-- The packets not acknowledged, in launch order, and those queued for retransmission: target and SEQ (R374, R376). -/
  window : List Packet := []
  retx : List (Nat × Nat) := []
  /-- The packet that left last (the model's own). -/
  out : Option Packet := none
  /-- FIRE_AT entries written (R379). -/
  faSeq : Nat := 0
  /-- The start of the present millisecond of housekeeping answers, and the answers in it (R380). -/
  hkFrom : Nat := 0
  hkCount : Nat := 0
  deriving DecidableEq, Repr, Inhabited

/-! ### Trigger bus (17_multi_device_timing.md R386-R404) -/

/-- A launch that waits for its boundary: a pulse of `width` frames, or with width 0 a level. -/
structure Launch where
  frame : Nat := 0
  width : Nat := 0
  level : Bool := false
  deriving DecidableEq, Repr, Inhabited

/-- A chassis pin beside its registers. SYN_PSTAT.LVL holds its filtered level. -/
structure SynPin where
  /-- The raw level at the ball and the frame of its latest edge. -/
  raw : Bool := false
  rawAt : Nat := 0
  /-- The edge that began the present excursion from the filtered level: its stamp in 1/65,536 tick and, of an edge that
  the engine launched, its own instant (R391, R392). -/
  edge : Option (Nat × Option Nat) := none
  /-- Edges the engine launched that have not come back yet: level, and boundary plus TRIM (R392). -/
  own : List (Bool × Nat) := []
  /-- Launches to come (R389), the level driven, and the end of the pulse that runs. -/
  launches : List Launch := []
  out : Bool := false
  pulseEnd : Option Nat := none
  /-- The MARK pulses produced for a marker, driven or not: launch boundary and width (R276). -/
  marks : List (Nat × Nat) := []
  deriving DecidableEq, Repr, Inhabited

/-- What the head word of the transmit queue does (R397). -/
inductive TxPhase
  | ready
  /-- After a collision in this frame: k slots. -/
  | backoff (from_ : Nat) (k : Nat)
  /-- The word being sent, and its grid boundary. -/
  | sending (b : Nat)
  deriving DecidableEq, Repr, Inhabited

/-- A ping (R394): its role, line and pulses; the frame of GO; pulses sent and the next one's boundary; the launch of the
pulse that waits for its reply; the reply's boundary and the stamp it answers; and the differences in 1/65,536 tick. -/
structure Ping where
  responder : Bool := false
  pin : Nat := 0
  count : Nat := 0
  go : Nat := 0
  sent : Nat := 0
  next : Nat := 0
  waiting : Option Nat := none
  reply : Option (Nat × Nat) := none
  heard : Bool := false
  diffs : List Int := []
  deriving DecidableEq, Repr, Inhabited

/-- The trigger bus. -/
structure SynBus where
  pin : Tab SynPin := []
  /-- Words waiting: CODE and FINE, the head first; the collisions of the head word. -/
  words : List (Nat × Nat) := []
  tries : Nat := 0
  phase : TxPhase := .ready
  ping : Option Ping := none
  deriving DecidableEq, Repr, Inhabited


/-! ### Raster engine and display outputs (18_raster_and_display.md R405-R425) -/

/-- A canvas beside its registers: flips so far, a pass that a GO made due, the frame in which the running pass started (later by
the stalls of the store, R421), and the registers that the pass uses: SIZE, BUF0, BUF1, OVL, BG, and its logic planes with their
bases (R407, R411). -/
structure Canvas where
  flips : Nat := 0
  due : Bool := false
  start : Nat := 0
  cfg : List Nat := []
  planes : List (Nat × Nat) := []
  deriving DecidableEq, Repr, Inhabited

/-- A display output beside its registers. -/
structure Output where
  /-- The latched values of DPY_H, HS, V, VS, VRR, PCLK, SRC, ORIENT, UNDER_LIM and DB_LINK. -/
  act : List Nat := []
  /-- The apply frame of a pending commit, and its values (R418). -/
  commit : Option (Nat × List Nat) := none
  /-- Latched values that act from the next active line, and the lines of the present frame once known (R418). -/
  next : Option (List Nat) := none
  total : Nat := 0
  /-- The canvas and flip that the output sampled, and the buffer that it shows (R412, R415). -/
  seen : Option (Nat × Nat) := none
  shown : Nat := 0
  /-- A frame and the line that began in it; the line L that ends the porch once it is fixed (R414). -/
  lineAt : Nat := 0
  line : Nat := 0
  /-- The main stream has stopped at a latch and is to start again with the latched timing (R418). -/
  stopped : Bool := false
  porch : Option Nat := none
  /-- Pixels repeated in this frame, and whether the frame is aborted (R421). -/
  repeated : Nat := 0
  aborted : Bool := false
  /-- Command mode: tiles changed since the last push, a whole-frame push due, the frame of the latest TE edge, the frame
  in which the push became due, and the latest region pushed (R420). -/
  dirty : List Nat := []
  whole : Bool := false
  teAt : Nat := 0
  dueAt : Nat := 0
  pushed : Option (Nat × Nat × Nat × Nat) := none
  /-- The latest push was aborted: its region is pushed again (R421). -/
  repush : Bool := false
  /-- Link training runs (R413). -/
  training : Bool := false
  deriving DecidableEq, Repr, Inhabited

/-- The raster engine, its store and the outputs. -/
structure Raster where
  mem : Memory := []
  canvas : Tab Canvas := []
  out : Tab Output := []
  deriving DecidableEq, Repr, Inhabited


/-! ### Power, reset and firmware (19_power_reset_and_live_update.md R426-R444) -/

/-- A firmware slot: its state, 0 EMPTY, 1 STAGED, 2 ACTIVE, 3 TRIAL, 4 TRYING, 5 BAD (R438, R439), and its image: version, EPOCH
and what it says, by a free value that names it. -/
structure FwSlot where
  state : Nat := 0
  version : Nat := 0
  epoch : Nat := 0
  image : Nat := 0
  deriving DecidableEq, Repr, Inhabited

/-- A reset that drains (R435): the frame of the request, whether it is a warm reset, and its cause. -/
structure Drain where
  frame : Nat := 0
  warm : Bool := false
  cause : Nat := 6
  deriving DecidableEq, Repr, Inhabited

/-- Power, reset and firmware beside their registers. -/
structure Power where
  /-- AON is powered; MAIN_EN; no bootable firmware was found (R438). -/
  aon : Bool := true
  mainEn : Bool := true
  noFw : Bool := false
  drain : Option Drain := none
  /-- Warm resets that wait for the end of a wake (R442). -/
  later : Option Drain := none
  /-- The source of the wake under way and its frame (R432); it leaves DORMANT and waits for MAIN_PG. -/
  wake : Option (Nat × Nat) := none
  waitPg : Bool := false
  /-- The domains on and the READY bits at standby entry, and doorbells held (R430, R431). -/
  domains : List Nat := []
  ready : List (Reg × W64) := []
  doorbells : List (Nat × W64) := []
  /-- The thermal stop of R437, and DORMANT entered through the trip. -/
  hot : Bool := false
  tripped : Bool := false
  /-- Slots A and B, and the one that runs. -/
  slotA : FwSlot := { state := 2 }
  slotB : FwSlot := {}
  runB : Bool := false
  /-- A SWITCH waits for a quiescent point; the frame in which the controller restarted on the trial slot (R439). -/
  fwWaiting : Bool := false
  fwTrial : Option Nat := none
  /-- For each domain the latest frame in which the controller found it needed (R426). -/
  needed : Tab Nat := []
  deriving DecidableEq, Repr, Inhabited


/-! ### Security (20_life_cycle_and_security.md R445-R457) -/

/-- An SPDM session: 0 none, 1 handshake, 2 established; its key updates (R453). -/
structure Spdm where
  state : Nat := 0
  updates : Nat := 0
  deriving DecidableEq, Repr, Inhabited

/-- A PCI Express IDE stream: 0 none, 1 keys delivered, 2 secure, 3 insecure; its key (R454). -/
structure IdeStream where
  state : Nat := 0
  key : BitVec 256 := 0
  deriving DecidableEq, Repr, Inhabited

/-- The security engine beside GLB_LC, SEC_NONCE and its other registers. -/
structure Security where
  /-- The hash of the card maker's key, and those of the owner keys (R445). -/
  cmk : List Byte := []
  ok : List (List Byte) := []
  /-- The KIND of the command that runs (R448). -/
  running : Option Nat := none
  /-- The bytes of that command, as its GO found them. -/
  block : List Byte := []
  /-- The measurement registers 1 to 4 (R452). -/
  meas : Tab Nat := []
  /-- The state of the SPDM connection: requests agreed so far, sessions, and the code of the latest response with the
  register it reports (the model's own). -/
  agreed : Nat := 0
  session : Tab Spdm := []
  answer : Nat := 0
  report : List Nat := []
  ide : Tab IdeStream := []
  /-- The link is in Loopback, with the device as follower (R466). -/
  loopback : Bool := false
  deriving DecidableEq, Repr, Inhabited


/-- The module without the queue of waiting commands. -/
structure Dev where
  /-- The number of the current frame (the model's clock, log entry 1). -/
  now : Nat := 1024
  /-- The counter that every free value is drawn with (the model's own, log entry 2). -/
  freeSeq : Nat := 0
  regs : Regs := []
  bus : BusState := {}
  path : Tab Path := []
  logic : Tab (List LogicFrame) := []
  stageNext : Nat := 0
  slice : Tab Slice := []
  tb : TimeBase := {}
  trg : Tab TrigUnit := []
  lanes : Lanes := {}
  dec : Decimation := {}
  tal : Tally := {}
  evi : EventIn := {}
  ndl : Needles := {}
  stm : Tab Stim := []
  ben : Bench := {}
  link : LinkState := {}
  que : QueueEngine := {}
  evr : Router := {}
  xfe : Xfer := {}
  eth : Tab Port := []
  /-- Words of the FIRE_AT keys: slot k, word i at 8 k + i (R385). -/
  faKey : Tab Nat := []
  syn : SynBus := {}
  ras : Raster := {}
  pwr : Power := {}
  sec : Security := {}
  deriving DecidableEq, Repr, Inhabited

/-- The machine: the module and the commands that wait, the next one first. -/
structure State where
  dev : Dev := {}
  pending : List Instr := []
  deriving DecidableEq, Repr

/-- Why a command stops with a fault. -/
inductive Fault
  /-- Raised by a command whose operand list has a shape that no such command of the spec has (a sample frame with
  other than 64 samples): see WellFormed. Safe: the model stops where there is no such command. -/
  | malformed (mnemonic : String)
  deriving DecidableEq, Repr

/-- Why a command is refused. -/
inductive Refusal
  /-- Raised by an arm of the dispatch that has no meaning yet. Safe: the model stops. -/
  | notModelled (mnemonic : String)
  deriving DecidableEq, Repr

/-- The machine right after a power-on reset: every register at the reset value of its map, every unit idle, no
command waiting. -/
def State.reset : State := {}

end Sys2Proof.Machine
end

