-- ==== Sys2Proof/Machine/Ops.lean ====
section
/-!
DEFINITION. The shared operations: reading and writing registers and their fields, counters, the count of time and
TIME128 records, raising events, handing items to queues, drawing free values, the decision log.
-/
namespace Sys2Proof.Machine

/-! ### Changes of one part of the module -/

def Dev.setNow (d : Dev) (x : Nat) : Dev := { d with now := x }
def Dev.setFreeSeq (d : Dev) (x : Nat) : Dev := { d with freeSeq := x }
def Dev.setRegs (d : Dev) (x : Regs) : Dev := { d with regs := x }
def Dev.setBus (d : Dev) (x : BusState) : Dev := { d with bus := x }
def Dev.setPath (d : Dev) (x : Tab Path) : Dev := { d with path := x }
def Dev.setLogic (d : Dev) (x : Tab (List LogicFrame)) : Dev := { d with logic := x }
def Dev.setStageNext (d : Dev) (x : Nat) : Dev := { d with stageNext := x }
def Dev.setSlice (d : Dev) (x : Tab Slice) : Dev := { d with slice := x }
def Dev.setTb (d : Dev) (x : TimeBase) : Dev := { d with tb := x }
def Dev.setTrg (d : Dev) (x : Tab TrigUnit) : Dev := { d with trg := x }
def Dev.setLanes (d : Dev) (x : Lanes) : Dev := { d with lanes := x }
def Dev.setDec (d : Dev) (x : Decimation) : Dev := { d with dec := x }
def Dev.setTal (d : Dev) (x : Tally) : Dev := { d with tal := x }
def Dev.setEvi (d : Dev) (x : EventIn) : Dev := { d with evi := x }
def Dev.setNdl (d : Dev) (x : Needles) : Dev := { d with ndl := x }
def Dev.setStm (d : Dev) (x : Tab Stim) : Dev := { d with stm := x }
def Dev.setBen (d : Dev) (x : Bench) : Dev := { d with ben := x }
def Dev.setLink (d : Dev) (x : LinkState) : Dev := { d with link := x }
def Dev.setQue (d : Dev) (x : QueueEngine) : Dev := { d with que := x }
def Dev.setEvr (d : Dev) (x : Router) : Dev := { d with evr := x }
def Dev.setXfe (d : Dev) (x : Xfer) : Dev := { d with xfe := x }
def Dev.setEth (d : Dev) (x : Tab Port) : Dev := { d with eth := x }
def Dev.setFaKey (d : Dev) (x : Tab Nat) : Dev := { d with faKey := x }
def Dev.setSyn (d : Dev) (x : SynBus) : Dev := { d with syn := x }
def Dev.setRas (d : Dev) (x : Raster) : Dev := { d with ras := x }
def Dev.setPwr (d : Dev) (x : Power) : Dev := { d with pwr := x }
def Dev.setSec (d : Dev) (x : Security) : Dev := { d with sec := x }

/-! ### Rounding -/

/-- Round a quotient, halves away from zero (R172). -/
def roundAway (a b : Int) : Int := if 0 ≤ a then (2 * a + b) / (2 * b) else -((-2 * a + b) / (2 * b))

/-! ### Registers -/

/-- The bits `lo` to `lo + w - 1` of a word, as a mask. -/
def maskBits (lo w : Nat) : W64 := BitVec.ofNat 64 ((2 ^ w - 1) <<< lo)

/-- The bits of a family whose access code satisfies `p`. -/
def Fam.bits (f : Fam) (p : Acc → Bool) : W64 :=
  f.fields.foldl (fun m s => if p s.acc then m ||| maskBits s.lo (s.hi + 1 - s.lo) else m) 0

/-- The reset value that a map gives. -/
def Fam.resetVal (f : Fam) : W64 :=
  f.fields.foldl (fun v s => v ||| BitVec.ofNat 64 (s.reset <<< s.lo)) 0

/-- Bits that the map of a family gives and an instance of it lacks (R93: i = 2 of the CV_SUB registers names 24
sub-converters; R143: the fifth pattern word holds 8 inputs). -/
def Reg.absent (r : Reg) : W64 :=
  match r.g with
  | .CV_SUB_ARM | .CV_SUB_ACT | .CV_SUB_DISC => if r.j = 2 then maskBits 24 8 else 0
  | .TRG_PAT_MASK | .TRG_PAT_VAL | .TRG_PAT_MASK_ACT | .TRG_PAT_VAL_ACT => if r.j = 4 then maskBits 8 24 else 0
  | _ => 0

/-- The bits that register `r` holds: every listed field but the write-only ones; reserved bits read 0 (R14, R15). -/
def Reg.mask (r : Reg) : W64 :=
  r.g.fam.bits (fun a => a != .wo) &&& ~~~ r.absent

/-- The value of a register at reset: the map's, but where the map gives it per unit or leaves it to manufacture. -/
def Reg.reset (r : Reg) : W64 :=
  r.mask &&& (match r.g with
  | .STM_OUT_DLY => Config.stmOutDelay r.i
  | .STM_INJ_DLY => Config.stmInjDelay r.i
  | .ETH_PTP_DLY => Config.ptpDelay r.i
  | .SEC_UID => Config.uid
  | .SEC_NONCE => Config.nonce
  | .QUE_APT => if r.i < 3 then BitVec.ofNat 64 ((r.i * 8192) <<< 21) else maskBits 62 1
  | .ETH_RTX_BASE => BitVec.ofNat 64 (0x300000000 + r.i * 0x100000000)
  | .ETH_RTX_SIZE => 0x100000000
  | .NDL_WIN | .NDL_WIN_NEXT => r.g.fam.resetVal ||| BitVec.ofNat 64 (32 * r.i)
  | .DEC_STAT => r.g.fam.resetVal ||| (if 12 ≤ r.i then maskBits 2 1 else 0)
  | g => g.fam.resetVal)

/-- The order of registers in the table of registers. -/
def Reg.lt (a b : Reg) : Bool :=
  a.g.ctorIdx < b.g.ctorIdx || (a.g.ctorIdx == b.g.ctorIdx &&
    (a.i < b.i || (a.i == b.i && (a.j < b.j || (a.j == b.j && a.k < b.k)))))

/-- The value of a register. -/
def Dev.rd (d : Dev) (r : Reg) : W64 := Sparse.get r.reset r d.regs

/-- Give a register a value; bits it lacks stay 0 (R15, log entry 4). -/
def Dev.wr (d : Dev) (r : Reg) (v : W64) : Dev :=
  d.setRegs (Sparse.put Reg.lt r.reset r (v &&& r.mask) d.regs)

/-- The bits of a field. -/
def Fld.mask (f : Fld) : W64 := maskBits f.lo f.w

/-- The value of a field in a register's value. -/
def Fld.of (f : Fld) (x : W64) : Nat := (x >>> f.lo).toNat % 2 ^ f.w

/-- A register's value with another value of a field. -/
def Fld.set (f : Fld) (x : W64) (v : Nat) : W64 :=
  (x &&& ~~~ f.mask) ||| (BitVec.ofNat 64 (v % 2 ^ f.w) <<< f.lo)

/-- The value of a field, as a number. -/
def Dev.get (d : Dev) (f : Fld) (i j k : Nat := 0) : Nat :=
  ((d.rd ⟨f.g, i, j, k⟩) >>> f.lo).toNat % 2 ^ f.w

/-- A one-bit field. -/
def Dev.flag (d : Dev) (f : Fld) (i j k : Nat := 0) : Bool := d.get f i j k == 1

/-- A field read as a two's-complement number. -/
def Dev.gets (d : Dev) (f : Fld) (i j k : Nat := 0) : Int :=
  let v := d.get f i j k
  if v < 2 ^ (f.w - 1) then (v : Int) else (v : Int) - 2 ^ f.w

/-- Give a field a value, modulo its width. -/
def Dev.put (d : Dev) (f : Fld) (v : Nat) (i j k : Nat := 0) : Dev :=
  let r : Reg := ⟨f.g, i, j, k⟩
  d.wr r ((d.rd r &&& ~~~ f.mask) ||| (BitVec.ofNat 64 (v % 2 ^ f.w) <<< f.lo))

/-- Give a field a signed value, modulo its width. -/
def Dev.puts (d : Dev) (f : Fld) (v : Int) (i j k : Nat := 0) : Dev :=
  d.put f (v % (2 ^ f.w : Int)).toNat i j k

/-- Give a one-bit field a value. -/
def Dev.putb (d : Dev) (f : Fld) (b : Bool) (i j k : Nat := 0) : Dev := d.put f b.toNat i j k

/-- Bit `c` of a field. -/
def Dev.bitOf (d : Dev) (f : Fld) (c : Nat) : Bool := d.get f / 2 ^ c % 2 == 1

/-- Set or clear bit `c` of a field. -/
def Dev.putBit (d : Dev) (f : Fld) (c : Nat) (b : Bool) : Dev :=
  if d.bitOf f c = b then d else d.put f (if b then d.get f + 2 ^ c else d.get f - 2 ^ c)

/-- The bit of GLB_CNT_SAT that stands for the block of a register (R461). -/
def Rg.satBit (g : Rg) : Nat :=
  match g.fam.base / 0x100000 with
  | 0 => 0 | 1 => 20 | 2 => 2 | 3 => 1 | 4 => 3 | 5 => 4 | 6 => 5 | 7 => 6 | 8 => 7 | 9 => 8 | 10 => 9 | 11 => 10
  | 12 => 11 | 13 => 12 | 14 => 13 | 15 => 14 | 16 => 15 | 17 => 15 | 18 => 15 | 20 => 16 | 21 => 17 | 22 => 18
  | 23 => 19 | _ => 0

/-- Count `n` in an RC counter: it saturates at all ones (R460), and reaching all ones sets the block's bit of
GLB_CNT_SAT (R461). -/
def Dev.count (d : Dev) (f : Fld) (i j : Nat := 0) (n : Nat := 1) : Dev :=
  let top := 2 ^ f.w - 1
  let v := d.get f i j
  let v' := min top (v + n)
  let d := d.put f v' i j
  if v < top ∧ v' = top then
    let r : Reg := ⟨.GLB_CNT_SAT, 0, 0, 0⟩
    d.wr r (d.rd r ||| maskBits f.g.satBit 1)
  else d

/-- The hardware sets W1C bits of a register; a clear written in the same frame does not undo it (R14). -/
def Dev.setBits (d : Dev) (r : Reg) (m : W64) : Dev :=
  (d.wr r (d.rd r ||| m)).setBus { d.bus with sets := (r, m) :: d.bus.sets }

/-- The hardware sets a W1C flag. -/
def Dev.setFlag (d : Dev) (f : Fld) (i : Nat := 0) : Dev := d.setBits ⟨f.g, i, 0, 0⟩ f.mask

/-- The W1C bits of a register that the hardware has set in this frame. -/
def Dev.freshBits (d : Dev) (r : Reg) : W64 :=
  d.bus.sets.foldl (fun m x => if x.1 = r then m ||| x.2 else m) 0

/-- Count one in a counter of completed work, which wraps (R460). -/
def Dev.bump (d : Dev) (f : Fld) (i j : Nat := 0) : Dev := d.put f (d.get f i j + 1) i j

/-- Write a 128-bit value to a group of four 32-bit registers, the last index counting the words (R110). -/
def Dev.wr128 (d : Dev) (g : Rg) (i : Nat) (single : Bool) (v : BitVec 128) : Dev :=
  (List.range 4).foldl (fun d w =>
    let x : W64 := (v >>> (32 * w)).setWidth 64 &&& 0xFFFFFFFF
    if single then d.wr ⟨g, w, 0, 0⟩ x else d.wr ⟨g, i, w, 0⟩ x) d

/-! ### Events -/

/-- Event `e` is raised in frame `k`; twice in one frame is one raising (R344). -/
def Dev.raiseAt (d : Dev) (k e : Nat) : Dev :=
  if (k, e) ∈ d.evr.arriving then d
  else d.setEvr { d.evr with arriving := d.evr.arriving ++ [(k, e)] }

/-- Event `e` is raised in the current frame. -/
def Dev.raise (d : Dev) (e : Nat) : Dev := d.raiseAt d.now e

/-- Event `e` is raised in frame `k`, and a hold-off of `n` frames starts (R462). -/
def Dev.raiseHold (d : Dev) (k n e : Nat) : Dev :=
  let d := d.raiseAt k e
  d.setEvr { d.evr with hold := d.evr.hold.set e ⟨some (k + n), n, false⟩ }

/-- An occurrence in frame `k` of an event with a hold-off of `n` frames (R462). The hold-off is of the frames after its
raising: a second occurrence in that frame makes the one raising with the first (R344). A raising that an earlier hold-off owes
in the frame after it comes first. -/
def Dev.raiseHeldAt (d : Dev) (k n e : Nat) : Dev :=
  let h := d.evr.hold.get e
  match h.until_ with
  | none => d.raiseHold k n e
  | some t =>
    if k + h.n ≤ t then d
    else if k ≤ t then d.setEvr { d.evr with hold := d.evr.hold.set e { h with occurred := true } }
    else if ! h.occurred then d.raiseHold k n e
    else
      let d := d.raiseHold (t + 1) n e
      if k = t + 1 then d
      else if t + 1 + n < k then d.raiseHold k n e
      else d.setEvr { d.evr with hold := d.evr.hold.set e ⟨some (t + 1 + n), n, true⟩ }

/-- An occurrence in the current frame. -/
def Dev.raiseHeld (d : Dev) (n e : Nat) : Dev := d.raiseHeldAt d.now n e

/-! ### Time -/

/-- The stretch of the count that frame `k` lies in. -/
def Dev.epochAt (d : Dev) (k : Nat) : Epoch := (d.tb.epochs.find? (fun e => decide (e.frame ≤ k))).getD {}

/-- The count (ERA above TICK) at the starting boundary of frame `k`. -/
def Dev.countAt (d : Dev) (k : Nat) : Nat :=
  let e := d.epochAt k
  e.val + 64 * (k - e.frame)

/-- Start a new stretch of the count at the current frame. -/
def Dev.newEpoch (d : Dev) (f : Epoch → Epoch) : Dev :=
  let e := f { d.epochAt d.now with frame := d.now, val := d.countAt d.now % 2 ^ 72 }
  d.setTb { d.tb with epochs := e :: d.tb.epochs }

/-- A TIME128 record (R98): SEQ, the flags of a stretch, INTERP, the count and FRAC. -/
def time128 (seq : Nat) (e : Epoch) (interp : Bool) (count frac : Nat) : BitVec 128 :=
  BitVec.ofNat 128 (((((seq % 2 ^ 32) * 2 ^ 5 + e.reflost.toNat) * 2 + e.holdover.toNat) * 2 + interp.toNat) * 2
    + e.valid.toNat) <<< 88 ||| BitVec.ofNat 128 ((count % 2 ^ 72) * 2 ^ 16 + frac % 2 ^ 16)

/-- The TIME128 record of sample `s` (and a fraction) of frame `k` (R29, R98). -/
def Dev.stamp (d : Dev) (seq k s : Nat) (frac : Nat := 0) (interp : Bool := false) : BitVec 128 :=
  time128 seq (d.epochAt k) interp (d.countAt k + s) (if interp then frac else 0)

/-- TICK of the starting boundary of the current frame. -/
def Dev.tick (d : Dev) : Nat := d.countAt d.now % 2 ^ 64

/-- The tick from frame 0, not before frame `k`, whose count is `time` (ERA above TICK): in the first stretch of `es`, which
stand in the order of their frames, that reaches it. `none` where the count has passed it (half the count's range ahead
is future, R99). -/
def tickIn (time k : Nat) : List Epoch → Option Nat
  | [] => none
  | e :: t =>
    let a := max k e.frame
    let ahead := (time + 2 ^ 72 - (e.val + 64 * (a - e.frame)) % 2 ^ 72) % 2 ^ 72
    let inside : Bool := match t with
      | n :: _ => decide (a < n.frame) && decide (a * 64 + ahead < n.frame * 64)
      | [] => true
    if ahead < 2 ^ 71 ∧ inside then some (a * 64 + ahead) else tickIn time k t

/-- The tick from frame 0, not before frame `k`, that carries the count `time`. -/
def Dev.tickOf (d : Dev) (k time : Nat) : Option Nat := tickIn time k d.tb.epochs.reverse

/-- The first frame whose starting boundary is at or after the instant `era`:`tick`, by the present count; `none` for an
instant already passed (instants up to half the count's range ahead are future, R99). -/
def Dev.frameOf (d : Dev) (era tick : Nat) : Option Nat :=
  let t := era * 2 ^ 64 + tick
  let c := d.countAt d.now
  let ahead := (t + 2 ^ 72 - c % 2 ^ 72) % 2 ^ 72
  if ahead < 2 ^ 71 then some (d.now + (ahead + 63) / 64) else none

/-- Let time pass to frame `t`: no W1C bit has been set in it yet (R14), and a wrap of TICK or ERA on the way raises its
event in its frame (R100). -/
def Dev.advanceTo (d : Dev) (t : Nat) : Dev :=
  if t ≤ d.now then d
  else
    let c0 := d.countAt d.now % 2 ^ 72
    let c1 := c0 + 64 * (t - d.now)
    let k := d.now + (2 ^ 64 - c0 % 2 ^ 64) / 64
    let d' := (d.setNow t).setBus { d.bus with sets := [] }
    if c0 / 2 ^ 64 < c1 / 2 ^ 64 then
      let d' := d'.raiseAt k 76
      if 2 ^ 72 ≤ c1 then d'.raiseAt k 77 else d'
    else d'

/-! ### Items for queues -/

/-- Put an item among those on their way: in the order of frames, and of producers within a frame (R347). -/
def insertItem (x : Item) : List Item → List Item
  | [] => [x]
  | y :: t => if x.frame < y.frame || (x.frame == y.frame && x.rank < y.rank) then x :: y :: t else y :: insertItem x t

/-- Hand an item to the queue engine. -/
def Dev.post (d : Dev) (q typ fmt rank : Nat) (bytes : List Byte) : Dev :=
  d.setQue { d.que with items := insertItem ⟨q, typ, fmt, rank, d.now, bytes, none⟩ d.que.items }

/-! ### Free values -/

/-- The next free value (log entry 2). -/
def Dev.freeVal (d : Dev) : W64 := Config.free d.freeSeq

/-- The state after a free value has been drawn. -/
def Dev.drawn (d : Dev) : Dev := d.setFreeSeq (d.freeSeq + 1)

/-- Give a field a free value. -/
def Dev.putFree (d : Dev) (f : Fld) (i j k : Nat := 0) : Dev := (d.put f d.freeVal.toNat i j k).drawn

/-! ### The decision log (R440) -/

/-- A decision of the housekeeping controller: its code, its unit and its argument. -/
def Dev.decision (d : Dev) (code unit arg : Nat) : Dev :=
  let n := d.get HK_DEC_IDX.COUNT % 256
  let d := d.wr ⟨.HK_DEC, n, 0, 0⟩ (BitVec.ofNat 64 (d.tick % 2 ^ 32))
  let d := d.wr ⟨.HK_DEC, n, 1, 0⟩ (BitVec.ofNat 64 (d.tick / 2 ^ 32))
  let d := d.wr ⟨.HK_DEC, n, 2, 0⟩ (BitVec.ofNat 64 (code + unit % 2 ^ 16 * 2 ^ 16))
  let d := d.wr ⟨.HK_DEC, n, 3, 0⟩ (BitVec.ofNat 64 (arg % 2 ^ 32))
  (d.bump HK_DEC_IDX.COUNT).raise 632

/-! ### Commands -/

/-- The next state of a command whose effect on the module is `f`. -/
def State.effect (s : State) (f : Dev → Dev) : Host.Outcome State Fault Refusal :=
  .next { s with dev := f s.dev }

end Sys2Proof.Machine
end

