-- ==== Sys2Proof/Machine/DecCfg.lean ====
section
/-!
DEFINITION. What the configuration of a decimation unit makes of its ratio, length and settling time
(07_decimation_units.md R169, R173, R176, R183), which lanes and trigger units ask for too.
-/
namespace Sys2Proof.Machine

/-! ### The configuration in force (R169, R176) -/

/-- A unit's active configuration. -/
structure DecCfg where
  metro : Bool
  mode : Nat
  out : Bool
  rs : Bool
  preset : Nat
  src : Nat
  comp : Nat
  order : Nat
  ratio : Nat
  step : Nat
  phase : Nat

/-- D, R_p and T_p of a preset, and the bits of its output field below the count (R176). -/
def presetD (p : Nat) : Nat := match p with | 0 => 8 | 1 => 64 | 2 => 1024 | _ => 16384
def presetR (p : Nat) : Nat := match p with | 0 => 4 | 1 => 32 | 2 => 512 | _ => 4096
def presetT (p : Nat) : Nat := match p with | 0 => 237 | 1 => 236 | 2 => 246 | _ => 503
def presetFrac (p : Nat) : Nat := if p = 3 then 2 else 0
/-- The impulse length S of a preset (R176). -/
def presetS (p : Nat) : Nat := match p with | 0 => 960 | 1 => 7676 | 2 => 127996 | _ => 2076668

/-- The configuration that the words of DEC_CFG, DEC_STEP and DEC_PHASE0 give unit `u`. -/
def decCfgOf (u : Nat) (cfg step phase : W64) : DecCfg :=
  { metro := 12 ≤ u, mode := DEC_CFG_ACT.MODE.of cfg, out := DEC_CFG_ACT.OUT.of cfg == 1
    rs := DEC_CFG_ACT.RS_EN.of cfg == 1 && decide (u < 12), preset := DEC_CFG_ACT.PRESET.of cfg
    src := DEC_CFG_ACT.SRC.of cfg, comp := DEC_CFG_ACT.COMP.of cfg
    order := DEC_CFG_ACT.ORDER.of cfg, ratio := max 1 (DEC_CFG_ACT.RATIO.of cfg)
    step := DEC_STEP_ACT.STEP.of step, phase := DEC_PHASE0_ACT.PHASE0.of phase }

/-- The configuration in force. -/
def Dev.decCfg (d : Dev) (u : Nat) : DecCfg :=
  decCfgOf u (d.rd ⟨.DEC_CFG_ACT, u, 0, 0⟩) (d.rd ⟨.DEC_STEP_ACT, u, 0, 0⟩) (d.rd ⟨.DEC_PHASE0_ACT, u, 0, 0⟩)

/-- The samples of one PEAK or PICK item: RATIO, or the preset's D. -/
def DecCfg.run (c : DecCfg) : Nat := if c.metro then presetD c.preset else c.ratio

/-- Taps of a compensation entry (R173). -/
def compTaps (e : Nat) : Nat := if e = 0 then 1 else if e = 31 then 31 else 63

/-- The order an entry corrects; `none` for 0 and 31, which correct none. -/
def compOrder (e : Nat) : Option Nat := if e = 0 ∨ e = 31 then none else some (3 + (e - 1) / 10)

/-- `n` items in frames: ceil of n × D granules of 64 items, with D of R169 (R152). -/
def Dev.decFrames (d : Dev) (u n : Nat) : Nat :=
  let c := d.decCfg u
  if c.out then n * 64
  else if c.mode = 0 ∧ ! c.metro ∧ c.rs then (n * c.ratio * c.step + 2 ^ 32 - 1) / 2 ^ 32
  else n * c.run

/-- S of R183, in ticks. -/
def DecCfg.impulse (c : DecCfg) : Nat :=
  if c.mode ≠ 0 then c.run
  else if c.metro then presetS c.preset
  else c.order * (c.ratio - 1) + 1 + (compTaps c.comp - 1) * c.ratio + 24 * c.ratio * c.rs.toNat

/-- SETTLE_FR (R183). -/
def Dev.settleFr (d : Dev) (u : Nat) : Nat :=
  ((d.decCfg u).impulse + 63) / 64 + 1 + d.get DEC_SETTLE_CTL.EXTRA u

/-- δ in 1/65,536 tick: half a tick or none, for NORMAL items (R172, R176). -/
def DecCfg.delta (c : DecCfg) : Nat :=
  if c.mode ≠ 0 then 0 else if c.metro then 0x8000 else if c.order * (c.ratio - 1) % 2 = 1 then 0x8000 else 0

end Sys2Proof.Machine
end

