-- ==== Sys2Proof/Machine/DecItems.lean ====
section
/-!
DEFINITION. Packing items into granules (R145), and the items of a decimation unit (07_decimation_units.md R171-R182): the
filters, the items, their instants, the samples that they take, and the granules that the lanes make of them.
-/
namespace Sys2Proof.Machine

/-! ### Packing (R145) -/

/-- Pack items of `w` bits, the first lowest (R145). -/
def packItems (w : Nat) : List Nat → Nat
  | [] => 0
  | x :: t => x % 2 ^ w + 2 ^ w * packItems w t

/-- Item width of a format (R145). -/
def formatWidth (f : Nat) : Nat :=
  match f with
  | 0 => 12
  | 1 => 10
  | 2 => 16
  | 3 => 32
  | 4 => 32
  | 5 => 16
  | _ => 128

/-- The bytes of a granule of items already in the format's form. -/
def packGranule (f : Nat) (items : List Nat) : List Byte :=
  leBytes (packItems (formatWidth f) items) (formatWidth f * items.length / 8)

/-! ### Arithmetic (R171-R176) -/

/-- Saturate to `w` bits; whether it did (R171). -/
def saturate (w : Nat) (x : Int) : Int × Bool :=
  let top : Int := 2 ^ (w - 1)
  if x < -top then (-top, true) else if top - 1 < x then (top - 1, true) else (x, false)

/-- One R-sample boxcar over a list of weights: the weights of the running sums of length `r`. -/
def boxcar (r : Nat) (g : List Nat) : List Nat :=
  (List.range (g.length + r - 1)).map fun i => ((g.take (i + 1)).drop (i + 1 - r)).sum

/-- The impulse response of `n` cascaded boxcars (R172). -/
def cicWeights (r : Nat) : Nat → List Nat
  | 0 => [1]
  | n + 1 => boxcar r (cicWeights r n)

/-- The smallest integer SH with 2^SH at least `v`, looked for from `k` on. -/
def shiftFor (v k : Nat) : Nat → Nat
  | 0 => k
  | n + 1 => if v ≤ 2 ^ k then k else shiftFor v (k + 1) n

/-- The sample at tick t0 + i; 0 before t0 (R172). -/
def DecRun.at (x : DecRun) (i : Int) : Int := if i < 0 then 0 else x.x.getD i.toNat 0

/-- The normalised CIC output whose latest sample is t0 + `last` (R172), and whether it saturates. -/
def cicValue (order r : Nat) (x : DecRun) (last : Int) : Int × Bool :=
  let g := cicWeights r order
  let sh := shiftFor (r ^ order) 0 61
  let gn := roundAway (2 ^ (sh + 17)) (r ^ order : Nat)
  let c : Int := (g.zipIdx.map fun (w, i) => (w : Int) * x.at (last - i)).sum
  saturate 24 (roundAway (c * gn) (2 ^ (sh + 9)))

/-- L of R172. -/
def cicAlign (order r : Nat) : Int := ((order * (r - 1) + 1) / 2 : Nat)

/-- Coefficient `j` of `t` of a symmetric filter. -/
def symTap (f : Nat → Int) (t j : Nat) : Int := f (min j (t - 1 - j))

/-- u[n] of a general unit (R173), and whether it saturates. -/
def DecCfg.compValue (c : DecCfg) (x : DecRun) (n : Int) : Int × Bool :=
  let t := compTaps c.comp
  let w := (List.range t).map fun (j : Nat) =>
    let k : Int := n + j - ((t - 1) / 2 : Nat)
    let coef := if c.comp = 0 then 262144 else symTap (fun j => (Config.decComp c.comp j).toInt) t j
    coef * (cicValue c.order c.ratio x (k * c.ratio + cicAlign c.order c.ratio)).1
  saturate 24 (roundAway w.sum (2 ^ 18))

/-- H[p][j] of R174, with H[64][j] = H[0][j - 1] and H[0][-1] = 0. -/
def resTap (p j : Nat) : Int :=
  if p = 64 then (if j = 0 then 0 else (Config.decRes 0 (j - 1)).toInt) else (Config.decRes p j).toInt

/-- z_m of a general unit (R174), and whether it saturates. -/
def DecCfg.generalValue (c : DecCfg) (x : DecRun) (m : Nat) : Int × Bool :=
  if c.rs then
    let pos := c.phase + m * c.step
    let n : Int := (pos / 2 ^ 32 : Nat)
    let f := pos % 2 ^ 32
    let p := f / 2 ^ 26
    let a : Int := (f / 2 ^ 16 % 1024 : Nat)
    let us := (List.range 24).map fun (j : Nat) => (c.compValue x (n - 11 + j)).1
    let y := fun q => (us.zipIdx.map fun (u, j) => resTap q j * u).sum
    saturate 24 (roundAway (y p * (1024 - a) + y (p + 1) * a) (2 ^ 29))
  else c.compValue x m

/-- The output of a metrology preset (R176), in its output field. The taps' CIC outputs are placed so that the whole
response, S ticks long, is centred on t0 + mD + 1/2 (DEDUCED, log entry 13). -/
def DecCfg.metroValue (c : DecCfg) (x : DecRun) (m : Nat) : Int × Bool :=
  let t := presetT c.preset
  let r := presetR c.preset
  let w := (List.range t).map fun (j : Nat) =>
    let last : Int := (m * presetD c.preset + presetS c.preset / 2 : Nat) - ((t - 1 - j) * r : Nat)
    symTap (fun j => (Config.decFir c.preset j).toInt) t j * (cicValue 5 r x last).1
  let frac := presetFrac c.preset
  saturate (16 + frac) (roundAway w.sum (2 ^ (31 - frac)))

/-! ### Items (R177-R181) -/

/-- The latest sample that item `m` takes, as an index from t0 (R172-R177). -/
def DecCfg.lastIndex (c : DecCfg) (m : Nat) : Nat :=
  match c.mode with
  | 1 => m * c.run + c.run - 1
  | 2 => m * c.run
  | _ =>
    if c.metro then m * presetD c.preset + presetS c.preset / 2
    else
      let n := if c.rs then (c.phase + m * c.step) / 2 ^ 32 + 12 else m
      (n + (compTaps c.comp - 1) / 2) * c.ratio + (c.order * (c.ratio - 1) + 1) / 2

/-- The instant of item `m`, in 1/65,536 tick (R177, R179). -/
def DecCfg.instant (c : DecCfg) (k0 m : Nat) : Nat :=
  let t0 := k0 * 64 * 65536
  match c.mode with
  | 1 => t0 + m * c.run * 65536
  | 2 => t0 + m * c.run * 65536
  | _ =>
    if c.metro then t0 + m * presetD c.preset * 65536 + c.delta
    else if c.rs then t0 + c.delta + c.ratio * (c.phase + m * c.step) / 2 ^ 16
    else t0 + m * c.ratio * 65536 + c.delta

/-- An item: its values for the comparators in 1/256 count (minimum and maximum in PEAK, the same value otherwise), its
output field (R191), its 16-bit form (R181), and the minimum of a PEAK pair in counts. A PEAK item's one-value forms carry the
maximum, as DEC_OUT does (log entry 62). -/
structure DecItem where
  lo : Int
  hi : Int
  out : Int
  small : Int
  low : Int

/-- Item `m` of a run (R172-R177, R181). -/
def DecCfg.item (c : DecCfg) (x : DecRun) (m : Nat) : DecItem :=
  match c.mode with
  | 1 =>
    let l := (x.x.drop (m * c.run)).take c.run
    let lo := l.foldl min (l.headD 0)
    let hi := l.foldl max (l.headD 0)
    ⟨lo * 256, hi * 256, hi, hi, lo⟩
  | 2 =>
    let v := x.at (m * c.run : Nat)
    ⟨v * 256, v * 256, v * (if c.metro then 2 ^ presetFrac c.preset else 256), v, v⟩
  | _ =>
    if c.metro then
      let v := (c.metroValue x m).1
      let one : Int := 2 ^ presetFrac c.preset
      let s := (saturate 16 (roundAway v one)).1
      ⟨v * (256 / one), v * (256 / one), v, s, s⟩
    else
      let v := (c.generalValue x m).1
      let s := (saturate 16 (roundAway v 256)).1
      ⟨v, v, v, s, s⟩

/-- The value of the fast path for frame `i` of a run (R182). -/
def DecRun.fastValue (x : DecRun) (i : Nat) : Int := 4 * ((x.x.drop (i * 64)).take 64).sum

/-- A stage saturates on a value whose latest sample lies in frame `i` of a run (R171). -/
def DecCfg.saturates (c : DecCfg) (x : DecRun) (i : Nat) : Bool :=
  c.mode == 0 && (List.range 64).any fun (s : Nat) =>
    let last := 64 * i + s
    if c.metro then
      let half := presetS c.preset / 2
      let d := presetD c.preset
      (last % presetR c.preset == half % presetR c.preset && (cicValue 5 (presetR c.preset) x last).2)
        || (decide (half ≤ last) && (last - half) % d == 0 && (c.metroValue x ((last - half) / d)).2)
    else
      let a : Int := (last : Int) - cicAlign c.order c.ratio
      let n : Int := a / c.ratio - ((compTaps c.comp - 1) / 2 : Nat)
      a % c.ratio == 0 && ((cicValue c.order c.ratio x last).2
        || (decide ((if c.rs then -11 else 0) ≤ n) && (c.compValue x n).2)
        || (c.rs && decide (12 ≤ n) &&
          let m := (((n.toNat - 12) * 2 ^ 32 - c.phase) + (c.step - 1)) / max 1 c.step
          (c.phase + m * c.step) / 2 ^ 32 == n.toNat - 12 && (c.generalValue x m).2))

/-! ### Items for the lanes (R144, R180, R181) -/

/-- Flags of the samples between two indices of a run. -/
def DecRun.flags (x : DecRun) (first last : Nat) : Bool × Bool :=
  let l := x.marks.filter fun (k, _, _) => decide (first / 64 ≤ k - x.k0) && decide (k - x.k0 ≤ last / 64)
  (l.any fun (_, h, _) => h, l.any fun (_, _, g) => g)

/-- Fine item `m` of a run, for the lanes. -/
def DecCfg.fineOut (c : DecCfg) (x : DecRun) (m : Nat) : DecOut :=
  let last := c.lastIndex m
  let first := last + 1 - c.impulse
  let v := c.item x m
  let f := x.flags first last
  ⟨c.instant x.k0 m, v.out, v.small, v.low, x.k0 + first / 64, x.k0 + last / 64, f.1, f.2⟩

/-- Frame `i` of a run on the fast path, for the lanes (R182). -/
def DecCfg.fastOut (_ : DecCfg) (x : DecRun) (i : Nat) : DecOut :=
  let k := x.k0 + i
  let v := x.fastValue i
  let s := (saturate 16 (roundAway v 256)).1
  let f := x.flags (i * 64) (i * 64 + 63)
  ⟨(k * 64 + 31) * 65536 + 0x8000, v, s, s, k, k, f.1, f.2⟩

/-- The configuration of a run of unit `u`. -/
def DecRun.conf (x : DecRun) (u : Nat) : DecCfg := decCfgOf u x.cfg x.step x.phase

/-- The lanes have got no item of the run yet: its first one starts a new granule. -/
def DecRun.fresh (x : DecRun) (u : Nat) : Bool := (if (x.conf u).out then x.fast else x.m) == 0

/-- The items of a run that the lanes have still to get and whose latest sample lies in sample frame `b` or before. -/
def DecRun.tail (x : DecRun) (u b : Nat) : List DecOut :=
  let c := x.conf u
  if c.out then
    ((List.range (x.x.length / 64 - x.fast)).map (x.fast + ·)).filterMap fun i =>
      if x.k0 + i ≤ b then some (c.fastOut x i) else none
  else
    (((List.range (x.x.length + 1)).map (x.m + ·)).takeWhile fun m =>
      decide (c.lastIndex m < x.x.length) && decide (x.k0 + c.lastIndex m / 64 ≤ b)).map (c.fineOut x)

/-- The granule of some items of a unit in a lane's format (R145, R181). -/
def decGranule (f : Nat) (l : List DecOut) : Granule :=
  let v := l.map fun i =>
    match f with
    | 2 => (i.small % 65536).toNat
    | 4 => (i.low % 65536).toNat + (i.small % 65536).toNat * 65536
    | _ => (i.full % 4294967296).toNat
  { bytes := packGranule f v, insts := l.map DecOut.inst, k0 := l.foldl (fun m i => min m i.k0) ((l.map DecOut.k0).headD 0)
    k := (l.getLast?.map DecOut.k).getD 0, holdover := l.any DecOut.holdover, degraded := l.any DecOut.degraded }

/-- Items cut into granules of 64, the last one partly filled. -/
def decGranules (f : Nat) (l : List DecOut) : List Granule :=
  (List.range ((l.length + 63) / 64)).map fun i => decGranule f ((l.drop (64 * i)).take 64)

end Sys2Proof.Machine
end

