-- ==== Sys2Proof/Machine/Flags.lean ====
section
/-!
DEFINITION. The flag rules of the Zhervo instructions (11_zhervo_instruction_reference.md R261) and the conditions of BRC
(R262).
-/
namespace Sys2Proof.Machine

/-- Z and N of a result, with C and V given (R261). -/
def Needle.setFlags (x : Needle) (r : W64) (c v : Bool) : Needle :=
  { x with z := r == 0, n := r.msb, c := c, v := v }

/-- Carry out of bit 63 of a sum. -/
def carryAdd (a b : W64) : Bool := decide (2 ^ 64 ≤ a.toNat + b.toNat)

/-- Signed overflow of a sum. -/
def overflowAdd (a b : W64) : Bool := a.msb == b.msb && (a + b).msb != a.msb

/-- No borrow of a difference: the first operand is at least the second, unsigned. -/
def carrySub (a b : W64) : Bool := decide (b.toNat ≤ a.toNat)

/-- Signed overflow of a difference. -/
def overflowSub (a b : W64) : Bool := a.msb != b.msb && (a - b).msb != a.msb

/-- The last bit shifted out to the left; 0 for a shift of 0. -/
def carryShl (a : W64) (s : Nat) : Bool := s != 0 && a.getLsbD (64 - s)

/-- The last bit shifted out to the right; 0 for a shift of 0. -/
def carryShr (a : W64) (s : Nat) : Bool := s != 0 && a.getLsbD (s - 1)

/-- The condition COND of BRC, with WV for WEQ and WNE (R262). -/
def Needle.cond (x : Needle) (cond wv : Nat) : Bool :=
  match cond with
  | 0 => true
  | 1 => x.z
  | 2 => ! x.z
  | 3 => x.n != x.v
  | 4 => x.n == x.v
  | 5 => ! x.z && x.n == x.v
  | 6 => x.z || x.n != x.v
  | 7 => ! x.c
  | 8 => x.c
  | 9 => x.n
  | 10 => ! x.n
  | 11 => x.v
  | 12 => ! x.v
  | 13 => x.w == wv
  | 14 => x.w != wv
  | _ => false

end Sys2Proof.Machine
end

