-- ==== Sys2Proof/Machine/Operands.lean ====
section
/-!
DEFINITION. The operand forms of the Zhervo instruction word (11_zhervo_instruction_reference.md R259-R277): its fields,
which words are instructions, the second operand, and the registers that an instruction reads.
-/
namespace Sys2Proof.Machine

/-- Bits `hi` to `lo` of an instruction word. -/
def zf (w : W64) (hi lo : Nat) : Nat := w.toNat / 2 ^ lo % 2 ^ (hi + 1 - lo)

/-- OP (R259). -/
def zOp (w : W64) : Nat := zf w 63 56
/-- D, A and B of the common layout (R260). -/
def zD (w : W64) : Nat := zf w 55 51
def zA (w : W64) : Nat := zf w 50 46
def zB (w : W64) : Nat := zf w 45 41
/-- I and X (R260, R263). -/
def zI (w : W64) : Bool := zf w 40 40 == 1
def zX (w : W64) : Bool := zf w 39 39 == 1
/-- IMM32, sign-extended (R260). -/
def zImm (w : W64) : W64 := (BitVec.ofNat 32 (zf w 31 0)).signExtend 64

/-- A general register. -/
def Needle.reg (x : Needle) (r : Nat) : W64 := x.g.get r

/-- Write a general register. -/
def Needle.setReg (x : Needle) (r : Nat) (v : W64) : Needle := { x with g := x.g.set r v }

/-- The second operand: gB or IMM32 (R260). -/
def Needle.op (x : Needle) (w : W64) : W64 := if zI w then zImm w else x.reg (zB w)

/-- All bits of a word but those in the spans of `l` are 0. -/
def onlyBits (w : W64) (l : List (Nat × Nat)) : Bool :=
  (List.range 64).all fun i => ! w.getLsbD i || l.any fun (hi, lo) => decide (lo ≤ i) && decide (i ≤ hi)

/-- The rule of the I bit (R260): with I = 1, B is 0; with I = 0, IMM32 is 0. -/
def immRule (w : W64) : Bool := if zI w then zB w == 0 else zf w 31 0 == 0

/-- The word is an instruction: its opcode is in the tables, and every bit outside its layout and every reserved value is
absent (R259-R278). -/
def zLegal (w : W64) : Bool :=
  let op := (63, 56)
  let common := [op, (55, 51), (50, 46), (45, 41), (40, 40), (31, 0)]
  match zOp w with
  | 0x00 | 0x01 | 0x02 | 0x03 | 0x0B | 0x29 | 0x2D => onlyBits w [op]
  | 0x10 =>
    if zX w then onlyBits w [op, (55, 51), (50, 46), (39, 39)] && decide (zA w < 12)
    else onlyBits w [op, (55, 51), (50, 46)]
  | 0x11 => onlyBits w [op, (55, 51), (50, 49), (47, 0)] && zf w 50 49 != 3
      && (zf w 50 49 != 2 || zf w 47 16 == 0)
  | 0x12 | 0x13 | 0x14 | 0x15 | 0x16 | 0x17 => onlyBits w common && immRule w
  | 0x18 => onlyBits w ((39, 39) :: common) && immRule w
  | 0x19 => onlyBits w common && immRule w && zD w == 0
  | 0x1A => onlyBits w [op, (55, 51), (50, 46), (11, 0)]
  | 0x1B => onlyBits w [op, (50, 46), (45, 41), (11, 0)]
  | 0x08 | 0x0A => onlyBits w [op, (55, 51), (50, 50), (16, 0)] && (zf w 50 50 == 1 || zf w 55 51 == 0)
  | 0x09 => onlyBits w [op, (55, 52), (51, 49), (16, 0)] && zf w 55 52 != 15
      && (if zf w 55 52 = 13 ∨ zf w 55 52 = 14 then decide (zf w 51 49 ≤ 4) else zf w 51 49 == 0)
  | 0x0C => onlyBits w [op, (55, 51), (50, 50), (48, 17), (16, 0)]
  | 0x0D => onlyBits w [op, (0, 0)]
  | 0x20 => decide (zf w 37 32 + zf w 31 26 ≤ 63) && (zf w 50 50 == 0 || zf w 55 51 == 0)
  | 0x21 => decide (zf w 37 32 + zf w 31 26 ≤ 63) && zf w 49 38 == 0
  | 0x28 => onlyBits w [op, (55, 51), (50, 46)]
  | 0x2A | 0x2B => onlyBits w [op, (7, 0)] && zf w 7 0 != 0
  | 0x2C => onlyBits w [op, (55, 51), (50, 46), (3, 0)]
  | 0x34 => onlyBits w [op, (55, 51), (50, 50), (39, 0)]
  | 0x32 => onlyBits w [op, (55, 51), (50, 50), (47, 40)]
  | 0x31 => onlyBits w [op, (55, 51), (50, 50), (2, 0)] && (zf w 50 50 == 1 || zf w 55 51 == 0)
  | 0x33 => onlyBits w [op, (55, 51), (50, 50), (9, 0)] && (zf w 50 50 == 1 || zf w 55 51 == 0)
      && decide (zf w 9 0 < 640)
  | 0x30 => onlyBits w [op, (55, 51), (50, 50), (49, 49), (3, 0)] && (zf w 50 50 == 1 || zf w 55 51 == 0)
  | 0x38 => onlyBits w [op, (55, 51), (50, 46), (11, 0)]
  | 0x39 => onlyBits w [op, (55, 51), (50, 50), (15, 0)]
  | 0x3A => onlyBits w [op, (31, 16), (3, 0)]
  | 0x3C => onlyBits w [op, (55, 51), (50, 46), (5, 4), (1, 0)]
  | 0x3D => onlyBits w [op, (55, 51), (50, 46), (1, 0)]
  | _ => false

/-- The general registers that an instruction reads (R244). -/
def zReads (w : W64) : List Nat :=
  let second := if zI w then [] else [zB w]
  match zOp w with
  | 0x10 => if zX w then [] else [zA w]
  | 0x11 => if zf w 50 49 = 2 then [zD w] else []
  | 0x12 | 0x13 | 0x14 | 0x15 | 0x16 | 0x17 | 0x18 | 0x19 => zA w :: second
  | 0x1A => [zA w]
  | 0x1B => [zA w, zB w]
  | 0x08 | 0x0A => if zf w 50 50 = 1 then [zD w] else []
  | 0x0C | 0x34 | 0x39 => if zf w 50 50 = 1 then [] else [zD w]
  | 0x20 => if zf w 50 50 = 1 then [] else [zD w]
  | 0x28 | 0x2C | 0x38 | 0x3C | 0x3D => [zD w, zA w]
  | 0x32 => [zD w]
  | 0x30 | 0x31 | 0x33 => if zf w 50 50 = 1 then [zD w] else []
  | _ => []

end Sys2Proof.Machine
end

