-- ==== Sys2Proof/Machine/Status.lean ====
section
/-!
DEFINITION. Questions about the whole module that several blocks ask: the sizes of the stores, which regions are taken,
whether a record is open, whether a lane is ready, how full the record buffer and the stage-store pool are.
-/
namespace Sys2Proof.Machine

/-- The bench: 48 GiB (R298). -/
def benchSize : Nat := 48 * 2 ^ 30
/-- The tally store: 128 MiB (R33). -/
def tallySize : Nat := 128 * 2 ^ 20
/-- The stage-store pool in bytes (R309). -/
def poolSize : Nat := 23035904
/-- The entries of the record buffer (R165). -/
def recordEntries : Nat := 65536

/-- Two regions of one space meet. -/
def meets (a n b m : Nat) : Bool := decide (a < b + m) && decide (b < a + n) && decide (0 < n) && decide (0 < m)

/-- The size of a store: 0 bench, 1 quarry (BEN_QRY_CAP), 2 tally store. -/
def Dev.storeSize (d : Dev) (st : Nat) : Nat :=
  match st with
  | 0 => benchSize
  | 1 => d.get BEN_QRY_CAP.BYTES
  | 2 => tallySize
  | _ => 0

/-- A bank: 16 MiB (R192). -/
def bankSize : Nat := 0x1000000

/-- A switched power domain is on (R426). -/
def Dev.pdOn (d : Dev) (n : Nat) : Bool := d.get HK_PD_STAT.ON (n / 32) / 2 ^ (n % 32) % 2 == 1

/-- Switch a power domain, which is a decision of the housekeeping controller (R426, R440). -/
def Dev.pdPut (d : Dev) (n : Nat) (on : Bool) : Dev :=
  if d.pdOn n = on then d
  else
    let v := d.get HK_PD_STAT.ON (n / 32)
    (d.put HK_PD_STAT.ON (if on then v + 2 ^ (n % 32) else v - 2 ^ (n % 32)) (n / 32)).decision (if on then 6 else 7) n 0

/-- A defined skein of store `st` other than `but` meets a region. -/
def Dev.skeinMeetsBut (d : Dev) (but : Option Nat) (st base size : Nat) : Bool :=
  (List.range 64).any fun k =>
    let s := d.lanes.skein.get k
    some k != but && s.defined && s.store == st && meets s.base s.size base size

/-- A defined skein of store `st` meets a region. -/
def Dev.skeinMeets (d : Dev) (st base size : Nat) : Bool := d.skeinMeetsBut none st base size

/-- A lane has a segment in progress, or a needle lies between CASTON and BINDOFF (R101). -/
def Dev.recordOpen (d : Dev) : Bool :=
  ((List.range 16).any fun l => (d.lanes.lane.get l).seg.isSome)
    || ((List.range 16).any fun n => (d.ndl.needle.get n).ctx)

/-- Change lane `l`. -/
def Dev.updLane (d : Dev) (l : Nat) (f : Lane → Lane) : Dev :=
  d.setLanes { d.lanes with lane := d.lanes.lane.upd l f }

/-- Change skein `k`. -/
def Dev.updSkein (d : Dev) (k : Nat) (f : Skein → Skein) : Dev :=
  d.setLanes { d.lanes with skein := d.lanes.skein.upd k f }

/-! ### Blocks that run (R39, R40) -/

/-- The slice is READY in the current frame. -/
def Dev.sliceOn (d : Dev) (n : Nat) : Bool := d.flag CV_SSTAT.READY n && decide ((d.slice.get n).validFrom ≤ d.now)

/-- The correction of channel `c` runs: its domain is on and its slice is READY. -/
def Dev.corrOn (d : Dev) (c : Nat) : Bool := d.sliceOn c && d.pdOn (68 + c)

/-- Decimation unit `u` is powered: its group and the correction of its source. -/
def Dev.decPowered (d : Dev) (u : Nat) : Bool := d.pdOn (72 + u / 4) && d.pdOn (68 + d.get DEC_CFG_ACT.SRC u)

/-- DEC_STAT.READY (R191): the unit is enabled and powered, and the slice of its source runs. -/
def Dev.decReady (d : Dev) (u : Nat) : Bool :=
  d.flag DEC_CTL.EN u && d.decPowered u && d.sliceOn (d.get DEC_CFG_ACT.SRC u)

/-- Both stacks of the bench are on (R298). -/
def Dev.benchOn (d : Dev) : Bool := d.pdOn 56 && d.pdOn 57

/-- STM_USTAT.READY: the unit is enabled, and the clock and the DAC of its slice and the bench run (R39). -/
def Dev.stmReady (d : Dev) (u : Nat) : Bool :=
  d.flag STM_UCTL.EN u && d.pdOn (10 * u + 8) && d.pdOn (10 * u + 9) && d.benchOn

/-- MODEg of a value of EVI_GMODE. -/
def gmode (v g : Nat) : Nat := v / 4 ^ g % 4

/-- The mode of group `g` in frame `k`. -/
def Dev.gmodeAt (d : Dev) (g k : Nat) : Nat :=
  let x := d.evi.group.get g
  if k < x.since then x.before else gmode (d.get EVI_GMODE.MODE) g

/-- Group `g` is READY in frame `k` (R40, R217). -/
def Dev.groupReadyIn (d : Dev) (g k : Nat) : Bool :=
  let x := d.evi.group.get g
  match if k < x.since then x.readyBefore else x.readyAt with
  | some f => decide (f ≤ k)
  | none => false

/-- The sample clock runs in frame `k` (R106): before its latest gap, or after it. -/
def Dev.clockIn (d : Dev) (k : Nat) : Bool := decide (k < d.tb.gapFrom) || d.tb.locked && decide (d.tb.gapTo ≤ k)

/-- The source of a lane is READY: its slice with its correction, its decimation unit or its event-input group (R39, R168). -/
def Dev.sourceReady (d : Dev) (src : Nat) : Bool :=
  if src < 4 then d.corrOn src
  else if 0x10 ≤ src ∧ src < 0x20 then d.decReady (src - 0x10)
  else if 0x20 ≤ src ∧ src < 0x28 then d.groupReadyIn (src - 0x20) d.now
  else if 0x100 ≤ src ∧ src < 0x180 then d.groupReadyIn ((src - 0x100) / 16) d.now
  else false

/-- The store of a skein is running: both bench stacks, the quarry, or the banks of the tally store that it lies in (R40). -/
def Dev.storeReady (d : Dev) (s : Skein) : Bool :=
  match s.store with
  | 0 => d.benchOn
  | 1 => d.flag BEN_QRY_STAT.READY
  | _ => (List.range 8).all fun b => ! meets (b * bankSize) bankSize s.base s.size || d.pdOn (76 + b)

/-- REC_LSTAT.READY (R168): the lane is enabled without error, and its store and its source run. -/
def Dev.laneReady (d : Dev) (l : Nat) : Bool :=
  d.flag REC_LCTL.EN l && d.get REC_LSTAT.CFG_ERR l == 0
    && d.storeReady (d.lanes.skein.get (d.get REC_LCTL.SKEIN l)) && d.sourceReady (d.get REC_LCTL.SRC l)

/-- Record-buffer entries in use (R165): completed records, records that wait for their store or their turn, and open
segments. -/
def Dev.rbUsed (d : Dev) : Nat :=
  d.lanes.done.length + ((List.range 16).map fun l =>
    let x := d.lanes.lane.get l
    x.await.length + x.seg.isSome.toNat).sum

/-- Bytes in the stage-store pool (R310). -/
def Dev.poolUsed (d : Dev) : Nat :=
  ((List.range 16).map fun l => ((d.lanes.lane.get l).pool.map fun g => g.bytes.length).sum).sum

/-- Write bytes to a store. -/
def Dev.storeWrite (d : Dev) (st a : Nat) (b : List Byte) : Dev :=
  match st with
  | 0 => d.setBen { d.ben with bench := d.ben.bench.store a b
                               benchPoison := d.ben.benchPoison.filter fun p => ! meets (p * 64) 64 a b.length }
  | 1 => d.setBen { d.ben with quarry := d.ben.quarry.store a b
                               quarryPoison := d.ben.quarryPoison.filter fun p => ! meets (p * 64) 64 a b.length }
  | 2 => d.setTal { d.tal with mem := d.tal.mem.store a b }
  | _ => d

/-- Read bytes of a store. -/
def Dev.storeRead (d : Dev) (st a n : Nat) : List Byte :=
  match st with
  | 0 => d.ben.bench.bytes a n
  | 1 => d.ben.quarry.bytes a n
  | 2 => d.tal.mem.bytes a n
  | _ => List.replicate n 0

/-- Some block of a region is poisoned (R313). -/
def Dev.poisoned (d : Dev) (st a n : Nat) : Bool :=
  match st with
  | 0 => d.ben.benchPoison.any fun p => meets (p * 64) 64 a n
  | 1 => d.ben.quarryPoison.any fun p => meets (p * 64) 64 a n
  | _ => false

/-- The housekeeping controller restarts on another firmware slot: it is absent for 50 ms (R439). -/
def Dev.hkAbsent (d : Dev) : Bool := match d.pwr.fwTrial with
  | some f => decide (d.now < f + 62500000)
  | none => false

/-- A test session of interface `f` on a unit ends with a result (R470); what its checker counted since it locked is a
free value (log entry 28). -/
def Dev.testEnd (d : Dev) (f unit result : Nat) (depth : Option Nat := none) : Dev :=
  (List.range 8).foldl (fun d s =>
    if d.flag TST_CTL.EN s && d.get TST_CTL.IF s == f && d.get TST_CTL.UNIT s == unit
        && (depth.isNone || depth == some (d.get TST_CTL.DEPTH s)) then
      let d := if d.flag TST_STAT.LOCK s then (d.putFree TST_BITS.COUNT s).putFree TST_ERRS.COUNT s else d
      ((d.putb TST_CTL.EN false s).put TST_STAT.RESULT result s).putb TST_STAT.LOCK false s
    else d) d

end Sys2Proof.Machine
end

