-- ==== Sys2Proof/Machine/Needle.lean ====
section
/-!
DEFINITION. Needles (10_needles_and_zhervo_model.md R237-R258): their windows and store, issue, faults, waits and the
replacement of programs. The effects on other blocks are applied in NeedleApply.lean.
-/
namespace Sys2Proof.Machine

/-- Change needle `n`. -/
def Dev.updNdl (d : Dev) (n : Nat) (f : Needle → Needle) : Dev :=
  d.setNdl { d.ndl with needle := d.ndl.needle.upd n f }

/-! ### Happenings that waits look for (R273, R274) -/

/-- Event `e` reaches the router in frame `k`: needles that wait for it since frame `k` or earlier go on in frame
k + 1. -/
def Dev.wakeEvent (d : Dev) (k e : Nat) : Dev :=
  (List.range 16).foldl (fun d n =>
    match (d.ndl.needle.get n).wait with
    | some w =>
      if w.kind = .event e ∧ w.issued ≤ k ∧ w.done = none then
        d.updNdl n fun x => { x with wait := some { w with done := some (k + 1, 0) } }
      else d
    | none => d) d

/-- Lane `l` has no queued request, no active request and no open segment (R274). -/
def Dev.laneIdle (d : Dev) (l : Nat) : Bool :=
  let x := d.lanes.lane.get l
  x.queue.isEmpty && x.cur.isNone && x.seg.isNone

/-- W of a wait that a record completes (R274). -/
def recordOutcome (r : Rec) : Nat := if r.kind ≠ 2 then 0 else if r.outcome = 3 then 2 else 3

/-- A record of its lane has been placed in the current frame (R274). -/
def Dev.wakeRecord (d : Dev) (r : Rec) : Dev :=
  (List.range 16).foldl (fun d n =>
    match (d.ndl.needle.get n).wait with
    | some w =>
      match w.kind with
      | .seg l all =>
        if l = r.lane ∧ w.issued ≤ d.now ∧ w.done = none ∧ (! all ∨ d.laneIdle l) then
          d.updNdl n fun x => { x with wait := some { w with done := some (d.now + 1, recordOutcome r) } }
        else d
      | _ => d
    | none => d) d

/-! ### Faults and BINDOFF (R250-R252) -/

/-- The class of an effect (R243): 0 field write, 1 field read, 2 report or marker. -/
def Effect.cls : Effect → Nat
  | .getf .. => 1
  | .post .. | .signal _ | .mark _ _ => 2
  | _ => 0

/-- An effect of an instruction joins those in flight, behind the ones of its frame. -/
def addFlight (f : Flight) : List Flight → List Flight
  | [] => [f]
  | y :: t => if f.due < y.due then f :: y :: t else y :: addFlight f t

/-- A BINDOFF of the engine's own joins the effects in flight, before the ones of its frame (R255). -/
def addClosing (f : Flight) : List Flight → List Flight
  | [] => [f]
  | y :: t => if f.due ≤ y.due then f :: y :: t else y :: addClosing f t

/-- The needle's context is open in frame `k`, in which the effects due by then apply (R248-R250). -/
def Needle.ctxAt (x : Needle) (k : Nat) : Bool :=
  x.flights.foldl (fun b f => match f.eff with
    | .caston _ _ => b || decide (f.due ≤ k)
    | .bindoff _ => b && decide (k < f.due)
    | _ => b) x.ctx

/-- The effects in flight of a needle that ends in frame `now`, with the engine's own BINDOFF for an open context in the next
frame (R241, R252); a CASTON still in flight is closed after it has opened its context (DEDUCED, log entry 35). -/
def Needle.closed (x : Needle) (now : Nat) : List Flight :=
  let opens := x.flights.find? fun f => match f.eff with
    | .caston _ _ => decide (now < f.due)
    | _ => false
  match opens with
  | some f => addFlight ⟨x.pc, f.due, .bindoff false⟩ x.flights
  | none => if x.ctxAt now then addClosing ⟨x.pc, now + 1, .bindoff false⟩ x.flights else x.flights

/-- The needle's fault is recorded and it is FAULTED; an open context is closed in the next frame (R252). -/
def Dev.ndlFault (d : Dev) (n pc code detail shadow : Nat) : Dev :=
  let d := ((((d.put NDL_FAULT.CODE code n).put NDL_FAULT.DETAIL detail n).put NDL_FAULT.SHADOW shadow n).put
    NDL_FAULT_PC.PC pc n).put NDL_FAULT_TICK.TICK d.tick n
  (d.updNdl n fun x =>
    { x with state := 4, wait := none, busy := [], flights := x.closed d.now }).raise (416 + 2 * n)

/-- The replacement switches (R254): new window and entry, stacks cleared, DONE, and STATE. The window is the one that was
checked, so that active windows never overlap (R240; DEDUCED, log entry 64). -/
def Dev.replSwitch (d : Dev) (n : Nat) : Dev :=
  let d := (d.wr ⟨.NDL_WIN, n, 0, 0⟩ (d.ndl.needle.get n).replWin).put NDL_ENTRY.PC (d.get NDL_ENTRY_NEXT.PC n) n
  ((d.put NDL_REPLACE.RESULT 2 n).updNdl n fun x => { x with loops := [], calls := [] }).raise (416 + 2 * n)

/-- A replacement is pending (R253). -/
def Dev.replPending (d : Dev) (n : Nat) : Bool := d.get NDL_REPLACE.RESULT n == 1

/-- A fault is a switch point of a pending replacement (R254): the needle stays FAULTED. -/
def Dev.ndlFaultSwitch (d : Dev) (n : Nat) : Dev := if d.replPending n then d.replSwitch n else d

/-- A fault detected at issue: the instruction has no effect; the effects of earlier ones go on (R252). -/
def Dev.issueFault (d : Dev) (n code : Nat) : Dev :=
  (d.ndlFault n (d.ndl.needle.get n).pc code 0 0).ndlFaultSwitch n

/-! ### Issue (R238, R242-R244, R259) -/

/-- The instruction word at a PC of needle `n`'s window. -/
def Dev.fetchWord (d : Dev) (n pc : Nat) : W64 :=
  BitVec.ofNat 64 (leNat (d.ndl.prog.bytes ((d.get NDL_WIN.BASE n * 256 + pc) * 8) 8))

/-- The instruction has issued: it counts, the PC moves, and the next instruction issues in the next frame. -/
def Dev.retire (d : Dev) (n pc : Nat) (f : Needle → Needle) : Dev :=
  (d.bump NDL_CNT_ISSUE.COUNT n).updNdl n fun x => f { x with pc := pc % 2 ^ 17, next := d.now + 1 }

/-- Needle `n` issues its next instruction, which is one with opcode `op`; a word that is no instruction, or a PC beyond
the window, faults whatever instruction is named. Nothing happens while the needle issues nothing: it is not RUNNING, the
synthesiser is unlocked (R246), its domain is not on (R40), or a GETF of a register it reads is still to be served (R244).
`body` gets the word, the needle and the state in the frame of issue. -/
def Dev.issue (d : Dev) (n op : Nat) (body : W64 → Needle → Dev → Dev) : Dev :=
  let x := d.ndl.needle.get n
  if x.state ≠ 1 ∨ ! d.tb.locked ∨ ! d.pdOn (62 + n / 8) then d
  else if d.get NDL_WIN.SIZE n * 256 ≤ x.pc then (d.advanceTo x.next).issueFault n 2
  else
    let w := d.fetchWord n x.pc
    if ! zLegal w then (d.advanceTo x.next).issueFault n 1
    else if zOp w ≠ op then d
    else if x.flights.any fun f => match f.eff with
        | .getf _ _ _ r _ => (zReads w).any fun q => q == r
        | _ => false
      then d
    else
      let late := (x.busy.filter fun (r, _) => (zReads w).any fun q => q == r).foldl (fun m (_, t) => max m t) x.next
      let d := d.advanceTo late
      body w x d

/-- The instruction goes on at PC + 1 after a change of the needle. -/
def Dev.internal (d : Dev) (n : Nat) (x : Needle) (f : Needle → Needle) : Dev := d.retire n (x.pc + 1) f

/-- The instruction leaves an effect for frame i + 2 (R243). -/
def Dev.launch (d : Dev) (n : Nat) (x : Needle) (e : Effect) : Dev :=
  d.retire n (x.pc + 1) fun y => { y with flights := addFlight ⟨x.pc, d.now + 2, e⟩ y.flights }

/-- The instruction begins a wait (R246). -/
def Dev.beginWait (d : Dev) (n : Nat) (x : Needle) (k : WaitKind) (limit : Option Nat) (done : Option (Nat × Nat)) : Dev :=
  d.retire n (x.pc + 1) fun y => { y with state := 2, wait := some ⟨k, d.now, limit, done⟩ }

/-! ### Start, stop, waits (R241, R246) -/

/-- The state of the needle in frame `k`: RUNNING from the frame after GO (R241). -/
def Needle.stateIn (x : Needle) (k : Nat) : Nat := if x.state = 1 ∧ k < x.runFrom then x.before else x.state

/-- The needle is RUNNING or WAITING in frame `k`. -/
def Needle.activeIn (x : Needle) (k : Nat) : Bool := x.stateIn k == 1 || x.stateIn k == 2

/-- A write of NDL_CTL.GO (R241). -/
def Dev.needleGoEff (n : Nat) (d : Dev) : Dev :=
  let x := d.ndl.needle.get n
  if x.state = 1 ∨ x.state = 2 then d
  else d.updNdl n fun x =>
    { x with pc := d.get NDL_ENTRY.PC n, loops := [], calls := [], z := false, n := false, c := false, v := false, w := 0
             state := 1, runFrom := d.now + 1, before := x.state, next := d.now + 1, wait := none, busy := [] }

/-- A write of NDL_CTL.STOP (R241, R254, R255): effects in flight complete, and an open context is closed in the next
frame. A CASTON still in flight is closed after it. -/
def Dev.needleStopEff (n : Nat) (d : Dev) : Dev :=
  let x := d.ndl.needle.get n
  if x.state ≠ 1 ∧ x.state ≠ 2 then d
  else
    let d := (d.updNdl n fun x => { x with state := 0, wait := none, flights := x.closed d.now }).raise (416 + 2 * n)
    if d.replPending n then d.replSwitch n else d

/-- The frame from which a wait for ERA:TICK `t` can go on, by the present count: possibly past. -/
def Dev.frameOfTime (d : Dev) (t : Nat) : Nat :=
  match d.frameOf (t / 2 ^ 64) (t % 2 ^ 64) with
  | some k => k
  | none =>
    let back := (d.countAt d.now % 2 ^ 72 + 2 ^ 72 - t % 2 ^ 72) % 2 ^ 72
    d.now - back / 64

/-- An earlier POST of the needle, or an earlier field write, has still to be applied after this frame (R246). -/
def Dev.fenceHolds (d : Dev) (n : Nat) : Bool :=
  (d.ndl.needle.get n).flights.any (fun f => match f.eff with
    | .getf .. | .signal _ | .mark _ _ => false
    | .post .. => true
    | _ => decide (d.now < f.due))
  || d.que.items.any fun i => i.rank == 300 + n

/-- When and how the wait of needle `n` can complete, if it can now (R246, R273). -/
def Dev.waitEnd (d : Dev) (n : Nat) (w : Wait) : Option (Nat × Nat) :=
  let timeout := w.limit.map fun t => (t, 1)
  match w.kind with
  | .delay => w.done
  | .time t late =>
    if late then some (w.issued + 1, 4)
    else
      let k := d.frameOfTime t
      match w.done with
      | some (relock, _) => if k ≤ relock then some (relock, 4) else some (k, 0)
      | none => some (max (w.issued + 1) k, 0)
  | .fence => if d.fenceHolds n then none else some (max d.now (w.issued + 1), 0)
  | _ =>
    match w.done with
    | some (k, o) => match w.limit with
      | some t => if k ≤ t then some (k, o) else timeout
      | none => some (k, o)
    | none => timeout

/-- The wait of needle `n` completes: W is set and the next instruction issues in that frame (R246). -/
def Dev.waitCompleteEff (n : Nat) (d : Dev) : Dev :=
  let x := d.ndl.needle.get n
  match x.wait with
  | none => d
  | some w =>
    if ! d.tb.locked then d
    else match d.waitEnd n w with
      | none => d
      | some (k, o) =>
        let d := d.advanceTo k
        let d := d.updNdl n fun x => { x with state := 1, wait := none, w := o, next := d.now }
        if o = 4 then d.count NDL_CNT_LATE.COUNT n else d

/-! ### Replacement, the program store and the windows (R239, R240, R253, R258) -/

/-- The checks of R253: RESULT 1 PENDING, 3 OVERLAP, 4 RANGE. -/
def Dev.replCheck (d : Dev) (n : Nat) : Nat :=
  let b := d.get NDL_WIN_NEXT.BASE n
  let s := d.get NDL_WIN_NEXT.SIZE n
  if s = 0 ∨ 512 < s ∨ 512 < b + s then 4
  else if (List.range 16).any fun m => meets b s (d.get NDL_WIN.BASE m) (d.get NDL_WIN.SIZE m)
      || (let p := (d.ndl.needle.get m).replWin
          m != n && d.replPending m && meets b s (NDL_WIN_NEXT.BASE.of p) (NDL_WIN_NEXT.SIZE.of p)) then 3
  else 1

/-- A write of NDL_REPLACE.GO (R253, R254). -/
def Dev.replaceGoEff (n : Nat) (d : Dev) : Dev :=
  let r := d.replCheck n
  let win := d.rd ⟨.NDL_WIN_NEXT, n, 0, 0⟩
  let d := (d.put NDL_REPLACE.RESULT r n).updNdl n fun x => { x with replWin := win }
  let st := (d.ndl.needle.get n).state
  if r = 1 ∧ st ≠ 1 ∧ st ≠ 2 then d.replSwitch n else d

def Dev.replaceCancelEff (n : Nat) (d : Dev) : Dev := if d.replPending n then d.put NDL_REPLACE.RESULT 5 n else d

/-- The store word at a byte offset lies in the active window of a RUNNING or WAITING needle (R239). -/
def Dev.progBusy (d : Dev) (a n : Nat) : Bool :=
  (List.range 16).any fun m =>
    (d.ndl.needle.get m).activeIn d.now && meets (d.get NDL_WIN.BASE m * 2048) (d.get NDL_WIN.SIZE m * 2048) a n

/-- The bytes at `a` that lie in the 8-byte word at byte offset `w`: their offset, and themselves. -/
def wordPart (a : Nat) (b : List Byte) (w : Nat) : Nat × List Byte := (max a w, (b.drop (w - a)).take (w + 8 - max a w))

/-- Bytes are written to the program store: what falls in a word that a running needle's window holds is discarded, and each
such word counts (R239). -/
def Dev.progWrite (d : Dev) (a : Nat) (b : List Byte) : Dev :=
  (List.range ((a % 8 + b.length + 7) / 8)).foldl (fun d i =>
    let w := (a / 8 + i) * 8
    if d.progBusy w 8 then d.count NDL_G_WDROP.COUNT
    else d.setNdl { d.ndl with prog := d.ndl.prog.store (wordPart a b w).1 (wordPart a b w).2 }) d

def Dev.progStoreWriteEff (ofs : Nat) (data : List Byte) (d : Dev) : Dev :=
  d.progWrite ofs (data.take (0x100000 - ofs))

/-- A register or scratch window of a needle: its needle and, in its own space, the byte; `none` outside them (R258). -/
def needleWindow (addr : Nat) : Option (Nat × Bool × Nat) :=
  if 0x20000 ≤ addr ∧ addr < 0x21000 then some ((addr - 0x20000) / 0x100, true, addr % 0x100)
  else if 0x40000 ≤ addr ∧ addr < 0x50000 then some ((addr - 0x40000) / 0x1000, false, addr % 0x1000)
  else none

/-- The 4 or 8 bytes of a window as a number. -/
def Dev.needleWindowRead (d : Dev) (addr n : Nat) : W64 :=
  match needleWindow addr with
  | some (m, true, a) =>
    let v := (d.ndl.needle.get m).reg (a / 8)
    if n = 8 then v else (v >>> (8 * (a % 8))) &&& 0xFFFFFFFF
  | some (m, false, a) => BitVec.ofNat 64 (leNat ((d.ndl.needle.get m).scratch.bytes a n))
  | none => 0

/-- A write of a register or scratch window (R258), at an offset in the NDL block: 4 bytes, or the whole word. -/
def Dev.needleWindowWriteEff (addr : Nat) (wide : Bool) (v : W64) (d : Dev) : Dev :=
  match needleWindow addr with
  | none => d
  | some (m, isReg, a) =>
    if (d.ndl.needle.get m).activeIn d.now then d.count NDL_G_WDROP.COUNT
    else if isReg then
      d.updNdl m fun x =>
        let sh := if wide then 0 else 8 * (a % 8)
        let mask : W64 := if wide then ~~~ (0 : W64) else 0xFFFFFFFF <<< sh
        x.setReg (a / 8) ((x.reg (a / 8) &&& ~~~ mask) ||| ((v <<< sh) &&& mask))
    else d.updNdl m fun x => { x with scratch := x.scratch.store a (leBytes v.toNat (if wide then 8 else 4)) }

end Sys2Proof.Machine
end

