-- ==== Sys2Proof/Machine/TallyCfg.lean ====
section
/-!
DEFINITION. The layout of a tally job (08_tally_and_mask_testing.md R192-R195, R203, R211): its banks, its accumulator,
its mask table, the regions it holds, and the triggers it is told of.
-/
namespace Sys2Proof.Machine

/-- Change job `j`. -/
def Dev.updJob (d : Dev) (j : Nat) (f : TallyJob → TallyJob) : Dev :=
  d.setTal { d.tal with job := d.tal.job.upd j f }

def Dev.talBase (d : Dev) (j : Nat) : Nat := d.get TAL_JOB_CFG.BANK_FIRST j * bankSize
def Dev.talBanks (d : Dev) (j : Nat) : Nat := d.get TAL_JOB_CFG.BANK_CNT j + 1
def Dev.talMode (d : Dev) (j : Nat) : Nat := d.get TAL_JOB_CFG.MODE j
/-- A density mode. -/
def Dev.talDen (d : Dev) (j : Nat) : Bool := d.talMode j == 4 || d.talMode j == 5
/-- Bytes per point or bin (R193). -/
def Dev.talBytes (d : Dev) (j : Nat) : Nat := match d.talMode j with | 2 => 8 | 4 => 2 | _ => 4
/-- ROWS, SHIFT, STEP and BASE of a density map (R203, R215). -/
def Dev.talRows (d : Dev) (j : Nat) : Nat := 256 * 2 ^ d.get TAL_JOB_DEN.ROWS j
def Dev.talStep (d : Dev) (j : Nat) : Nat := 2 ^ min 16 (d.get TAL_JOB_DEN.STEP_LOG2 j)
/-- Columns of a map and of a mask (R194, R203). -/
def Dev.talCols (d : Dev) (j : Nat) : Nat := (d.get TAL_JOB_POINTS.VALUE j + d.talStep j - 1) / d.talStep j

/-- Bytes of the accumulator, where it lies in the tally store or outside. -/
def Dev.talAccBytes (d : Dev) (j : Nat) : Nat :=
  if d.talDen j then d.talCols j * d.talRows j * d.talBytes j else d.get TAL_JOB_POINTS.VALUE j * d.talBytes j

/-- Bytes that the job needs in its banks before the mask table: the accumulator, or the raw buffer (R211). -/
def Dev.talInner (d : Dev) (j : Nat) : Nat :=
  if d.get TAL_JOB_CFG.STORE j = 0 then d.talAccBytes j else 2 * d.get TAL_JOB_POINTS.VALUE j

/-- The mask region: 16 bytes a column, rounded up to 4 KiB (R194). -/
def Dev.talMaskBytes (d : Dev) (j : Nat) : Nat :=
  if d.flag TAL_MASK_CTL.EN j then (16 * d.talCols j + 4095) / 4096 * 4096 else 0

/-- The store of a job's sums: 2 the tally store, 0 the bench, 1 the quarry (R211), and where they begin. -/
def Dev.talStore (d : Dev) (j : Nat) : Nat := match d.get TAL_JOB_CFG.STORE j with | 1 => 0 | 2 => 1 | _ => 2
def Dev.talAcc (d : Dev) (j : Nat) : Nat :=
  if d.get TAL_JOB_CFG.STORE j = 0 then d.talBase j else d.get TAL_JOB_OUTER.VALUE j

/-- What the registers of job `j` describe. -/
def Dev.talShape (d : Dev) (j : Nat) : TallyHold :=
  { first := d.get TAL_JOB_CFG.BANK_FIRST j, banks := d.talBanks j, store := d.talStore j, acc := d.talAcc j
    bytes := d.talAccBytes j, den := d.talDen j, bin := d.talBytes j, rows := d.talRows j, cols := d.talCols j }

/-- A job that is not IDLE holds its banks and, with STORE 1 or 2, its outer region (R194, R210). -/
def Dev.talHeld (d : Dev) (j : Nat) : Bool := (d.tal.job.get j).own.isSome

/-- The accumulator of job `j`: as it was started, or as its registers describe it. -/
def Dev.talView (d : Dev) (j : Nat) : TallyHold := (d.tal.job.get j).own.getD (d.talShape j)

/-- A region of store `st` meets what a job holds. -/
def TallyHold.meets (h : TallyHold) (st base size : Nat) : Bool :=
  (st == 2 && Machine.meets (h.first * bankSize) (h.banks * bankSize) base size)
    || (h.store != 2 && h.store == st && Machine.meets h.acc h.bytes base size)

/-- Job `j` holds a part of a region of store `st`. -/
def Dev.talHolds (d : Dev) (j st base size : Nat) : Bool := match (d.tal.job.get j).own with
  | some h => h.meets st base size
  | none => false

/-- A region of store `st` meets one that the tally holds (R146). -/
def Dev.tallyMeets (d : Dev) (st base size : Nat) : Bool := (List.range 8).any fun j => d.talHolds j st base size

/-- A trigger accepted by unit `u` sets out for the jobs that follow it (R195, R196). -/
def Dev.tallyTrigger (d : Dev) (u inst : Nat) (time : BitVec 128) : Dev :=
  (List.range 8).foldl (fun d j =>
    if d.get TAL_JOB_CFG.TU j = u ∧ d.talHeld j then
      let l := d.get TAL_MASK_CTL.LANE j
      let seg := if d.flag TAL_MASK_CTL.LANE_EN j && d.get REC_LCTL.SRC l == d.get TAL_JOB_CFG.SRC j then
          ((d.lanes.lane.get l).seg.filter fun s => s.time == time && s.tu == u).map Seg.segnum
        else none
      d.updJob j fun x => { x with trig := x.trig ++ [(inst, time, seg)] }
    else d) d

end Sys2Proof.Machine
end

