-- ==== Sys2Proof/Machine/Quarry.lean ====
section
/-!
DEFINITION. The quarry (13_bench_and_quarry_memory.md R300-R304, R312-R320): homes of blocks, the four classes of a
channel, refresh, errors, retirement of rows and of a channel, self-refresh and changes of frequency.
-/
namespace Sys2Proof.Machine

/-- Change channel `c`. -/
def Dev.updChan (d : Dev) (c : Nat) (f : QChan → QChan) : Dev :=
  d.setBen { d.ben with chan := d.ben.chan.upd c f }

/-- PANIC as the scheduler takes it: a change takes effect at the next frame boundary (R309). -/
def Dev.panicNow (d : Dev) : Bool := d.flag BEN_STAT.PANIC != (d.ben.panicAt == d.now)

/-- B, the 4 KiB blocks of a channel (R301). -/
def Dev.qryB (d : Dev) : Nat := d.ben.cch / 4096

/-- The rows of blocks that a migration moves: those below the quarry's size with one channel less (R301, R317). -/
def Dev.qryRows (d : Dev) : Nat := (d.ben.channels - 1) * d.qryB / max 1 d.ben.channels

/-- The channel that serves quarry offset `o` (R301). -/
def Dev.qryHome (d : Dev) (o : Nat) : Nat :=
  let n := max 1 d.ben.channels
  let r := o / 4096 / n
  let s := o / 4096 % n
  match d.ben.retired with
  | none => s
  | some k =>
    if s ≠ k then s
    else if r < d.get BEN_QRY_MIG.ROWS then
      let u := r % max 1 (n - 1)
      if u < k then u else u + 1
    else k

/-- The quarry's channels serve requests: the channel is in service or retiring. -/
def Dev.qryServes (d : Dev) (c : Nat) : Bool := d.get QRY_CSTAT.STATE c == 2 || d.get QRY_CSTAT.STATE c == 3

/-- A frequency change has passed SRE and requests wait (R320). -/
def Dev.qryHeld (d : Dev) : Bool :=
  match d.ben.freqStart with
  | some f => decide (f + 64 ≤ d.now) && decide (d.now < f + 2714)
  | none => false

/-- BEN_QRY_STAT.SELF_REFRESH: every channel in service is in self-refresh. -/
def Dev.srShow (d : Dev) : Dev :=
  d.putb BEN_QRY_STAT.SELF_REFRESH (((List.range 16).any fun c => d.qryServes c)
    && (List.range 16).all fun c => ! d.qryServes c || (d.ben.chan.get c).selfRefresh)

/-- A channel leaves self-refresh, and the hPPR repairs that are due are made: their entries become free (R314, R319). -/
def Dev.srExit (d : Dev) (c : Nat) : Dev :=
  let d := (d.updChan c fun x => { x with selfRefresh := false }).srShow
  (List.range 64).foldl (fun d i =>
    if d.flag QRY_RRT.PPR_PENDING c i then
      (d.wr ⟨.QRY_RRT, c, i, 0⟩ 0).put QRY_CSTAT.RRT_USED (d.get QRY_CSTAT.RRT_USED c - 1) c
    else d) d

/-! ### The classes of a channel (R302, R304, R312) -/

/-- The weight of a class (R302). -/
def classWeight (n : Nat) : Nat := match n with | 1 => 8 | 2 => 4 | 3 => 2 | _ => 1

/-- Weighted round robin: the first of the classes that has a request and slots left in this round; a new round begins
when none has. -/
def pickClass (served : List Nat) (present : List Nat) : Option (Nat × List Nat) :=
  let free := fun (s : List Nat) => present.find? fun n => decide (s.getD (n - 1) 0 < classWeight n)
  let used := fun (s : List Nat) (n : Nat) => s.set (n - 1) (s.getD (n - 1) 0 + 1)
  match free served with
  | some n => some (n, used served n)
  | none => (present.head?).map fun n => (n, used [0, 0, 0, 0] n)

/-- Remove the oldest request that satisfies `p`. -/
def takeReq (p : Nat × Bool × Nat → Bool) : List (Nat × Bool × Nat) → List (Nat × Bool × Nat)
  | [] => []
  | r :: t => if p r then t else r :: takeReq p t

/-- Serve the next request of the classes `among`. -/
def QChan.serve (x : QChan) (among : List Nat) : QChan :=
  match pickClass x.served (among.filter fun n => x.waiting.any fun r => r.1 == n) with
  | some (n, s) => { x with waiting := takeReq (fun r => r.1 == n) x.waiting, served := s }
  | none => x

/-- One command slot of a channel (R302, R304, R312): under panic the hoist first, and a host read only if it is never
deferred or the hoist leaves the slot; a slot without a hoist request first repays a postponed refresh. -/
def Dev.qrySlot (d : Dev) (c : Nat) : Dev :=
  if d.qryHeld then d
  else
    let panic := d.panicNow
    let never := d.get BEN_HOST_DEFER.FRAMES == 0
    d.updChan c fun x =>
      let hoist := x.waiting.any fun r => r.1 == 1
      if panic && never && x.waiting.any fun r => r.1 == 3 && r.2.1 then
        { x with waiting := takeReq (fun r => r.1 == 3 && r.2.1) x.waiting }
      else if panic && hoist then { x with waiting := takeReq (fun r => r.1 == 1) x.waiting }
      else
        match if hoist then none else x.postponed.head? with
        | some (rank, n) => { x with postponed := x.postponed.set rank (n - 1) }
        | none => x.serve (if panic then [2, 3] else [1, 2, 3, 4])

/-- A request that arrives before SRE abandons a frequency change (R320). -/
def Dev.freqAbandon (d : Dev) : Dev :=
  match d.ben.freqStart with
  | some f =>
    if d.now < f + 64 then
      let n := d.ben.freqAbandoned + 1
      let d := (d.setBen { d.ben with freqStart := none, freqAbandoned := n }).putb BEN_QRY_STAT.FREQ_BUSY false
      if 1000 ≤ n then (d.setBen { d.ben with freqWaiting := false }).put BEN_QRY_FREQ.RESULT 3 |>.raise 510
      else d
    else d
  | none => d

/-- A request of class `cls` arrives at channel `c`, and `slots` command slots of the channel pass. -/
def Dev.quarryRequestEff (c cls : Nat) (read : Bool) (slots : Nat) (d : Dev) : Dev :=
  if ! d.qryServes c then d
  else
    let d := d.freqAbandon
    let d := if (d.ben.chan.get c).selfRefresh then d.srExit c else d
    let d := d.updChan c fun x => { x with waiting := x.waiting ++ [(cls, read, d.now)], lastReq := d.now }
    (List.range slots).foldl (fun d _ => d.qrySlot c) d

/-- A host read has waited BEN_HOST_DEFER frames under panic: it is served next (R304). -/
def Dev.hostDeferExpiryEff (c : Nat) (d : Dev) : Dev :=
  match (d.ben.chan.get c).waiting.find? fun r => r.1 == 3 && r.2.1 with
  | some (_, _, a) =>
    let f := d.get BEN_HOST_DEFER.FRAMES
    if f = 0 then d
    else
      let d := d.advanceTo (a + f)
      if d.panicNow && ! d.qryHeld then
        let d := d.updChan c fun x => { x with waiting := takeReq (fun r => r.1 == 3 && r.2.1) x.waiting }
        (d.count BEN_CNT_DEFER.COUNT).raise 470
      else d
  | none => d

/-- A REFab of a rank falls due: issued, or under panic postponed up to four per rank (R312). -/
def Dev.refreshDueEff (c rank : Nat) (d : Dev) : Dev :=
  let x := d.ben.chan.get c
  if d.qryServes c && ! x.selfRefresh && ! d.qryHeld && d.panicNow && decide (x.postponed.get rank < 4) then
    (d.updChan c fun x => { x with postponed := x.postponed.set rank (x.postponed.get rank + 1) }).count
      QRY_CNT_REFPOST.COUNT c
  else d

/-! ### Channel retirement (R316, R317) -/

/-- An enabled hoist target of one of the kinds meets a region of the quarry. -/
def Dev.targetMeets (d : Dev) (but : Option Nat) (kinds : List Nat) (base size : Nat) : Bool :=
  (List.range 64).any fun t => some t != but && d.flag BEN_HT_CTL.EN t && kinds.contains (d.get BEN_HT_CTL.KIND t)
    && meets (d.get BEN_HT_BASE.OFS t) (d.get BEN_HT_SIZE.OFS t) base size

/-- Something holds the top Cch of the quarry space (R316). -/
def Dev.retireBlocked (d : Dev) : Bool :=
  let base := (d.ben.channels - 1) * d.ben.cch
  d.skeinMeets 1 base d.ben.cch || d.tallyMeets 1 base d.ben.cch || d.targetMeets none [0, 2] base d.ben.cch

/-- A retirement is migrating (R316). -/
def Dev.qryMigrating (d : Dev) : Bool := match d.ben.retired with
  | some k => d.get QRY_CSTAT.STATE k == 3
  | none => false

/-- Migration of channel `c` begins: the top of the quarry space is given up. -/
def Dev.migrateStart (d : Dev) (c : Nat) : Dev :=
  let cap := (d.ben.channels - 1) * d.ben.cch
  let quarry := d.ben.quarry.filter fun e => decide (e.1 < cap)
  let poison := d.ben.quarryPoison.filter fun b => decide (b * 64 < cap)
  let ben := { d.ben with retired := some c, blocked := none, journal := 0 }
  let d := d.setBen { ben with quarry := quarry, quarryPoison := poison }
  let d := ((d.put BEN_QRY_RETIRE.STATE 2).put BEN_QRY_MIG.ROWS 0).put BEN_QRY_CAP.BYTES cap
  (((d.put QRY_CSTAT.STATE 3 c).raise (473 + 2 * c)).raise 507).decision 4 c 0

/-- A retirement is checked (R316). -/
def Dev.retireChannel (d : Dev) (c : Nat) : Dev :=
  if d.ben.retired.isSome ∨ d.ben.channels ≠ 16 ∨ d.get QRY_CSTAT.STATE c ≠ 2 then d.put BEN_QRY_RETIRE.STATE 4
  else if d.retireBlocked then (d.setBen { d.ben with blocked := some c }).put BEN_QRY_RETIRE.STATE 1
  else d.migrateStart c

/-- A BLOCKED retirement is checked again when a definition in the quarry has changed (R316). -/
def Dev.retireRecheck (d : Dev) : Dev :=
  match d.ben.blocked with
  | some c => if d.retireBlocked then d else d.migrateStart c
  | none => d

def Dev.channelRetireEff (c : Nat) (d : Dev) : Dev := (d.put BEN_QRY_RETIRE.CHANNEL c).retireChannel c

/-- The channel's last batch has moved, or its contents are void: it is RETIRED and its domain switches off (R317). -/
def Dev.migrateDone (d : Dev) (k : Nat) : Dev :=
  let d := (d.put BEN_QRY_RETIRE.STATE 3).put QRY_CSTAT.STATE 4 k
  let d := d.put BEN_QRY_STAT.IN_SERVICE (d.get BEN_QRY_STAT.IN_SERVICE - 2 ^ k *
    (d.get BEN_QRY_STAT.IN_SERVICE / 2 ^ k % 2))
  ((d.raise (473 + 2 * k)).pdPut (40 + k) false).raise 508

/-- A batch of 64 rows has been copied (R317). -/
def Dev.migrationBatchDoneEff (d : Dev) : Dev :=
  match d.ben.retired with
  | some k =>
    if ! d.qryMigrating ∨ d.panicNow then d
    else
      let n := min (d.get BEN_QRY_MIG.ROWS + 64) d.qryRows
      let d := (d.setBen { d.ben with journal := n }).put BEN_QRY_MIG.ROWS n
      if n = d.qryRows then d.migrateDone k else d
  | none => d

/-- A write of BEN_QRY_RETIRE.CLEAR (R317). -/
def Dev.retireClearEff (d : Dev) : Dev :=
  match d.ben.retired with
  | some k =>
    if d.flag BEN_QRY_CTL.EN ∨ d.qryMigrating then d
    else
      let d := d.setBen { d.ben with retired := none, journal := 0 }
      let d := ((d.put BEN_QRY_RETIRE.STATE 0).put BEN_QRY_MIG.ROWS 0).put QRY_CSTAT.STATE 0 k
      (d.put BEN_QRY_CAP.BYTES (d.ben.channels * d.ben.cch)).raise (473 + 2 * k)
  | none => d

/-! ### Errors and row retirement (R313-R315) -/

/-- A row of channel `c` qualifies for retirement; `first`: it has not qualified before in this patrol pass, and a full table
counts it. -/
def Dev.rowRetire (d : Dev) (c : Nat) (row : Nat) (first : Bool) : Dev :=
  if (List.range 64).any fun i =>
      d.flag QRY_RRT.VALID c i && d.rd ⟨.QRY_RRT, c, i, 0⟩ &&& maskBits 0 27 == BitVec.ofNat 64 row then d
  else
    match (List.range 64).find? fun i => ! d.flag QRY_RRT.VALID c i with
    | some i =>
      let d := d.wr ⟨.QRY_RRT, c, i, 0⟩ (maskBits 63 1 ||| BitVec.ofNat 64 row)
      let d := d.put QRY_CSTAT.RRT_USED (d.get QRY_CSTAT.RRT_USED c + 1) c
      (d.updChan c fun x => { x with copying := x.copying ++ [i], ceRow := x.ceRow.set row 0 }).decision 3 c i
    | none =>
      let d := if first then d.count QRY_CNT_RRFULL.COUNT c else d
      if (d.ben.chan.get c).proposed then d
      else
        let d := (d.updChan c fun x => { x with proposed := true }).raise (473 + 2 * c)
        if d.flag BEN_QRY_CTL.AUTO_RETIRE && d.ben.retired.isNone then d.retireChannel c else d

/-- A read of 64-byte block `block` of the bench or the quarry finds an error; `row` is its row (R313, R314). -/
def Dev.memoryErrorEff (quarry : Bool) (block : Nat) (ue : Bool) (row : Nat) (d : Dev) : Dev :=
  if ! quarry then
    if benchSize ≤ block * 64 then d
    else if ue then
      let d := d.count BEN_CNT_UE.COUNT
      (d.setBen { d.ben with benchPoison := (d.ben.benchPoison.filter (· != block)) ++ [block] }).raise 469
    else (d.count BEN_CNT_CE.COUNT).raiseHeld 1250000 468
  else if d.get BEN_QRY_CAP.BYTES ≤ block * 64 then d
  else
    let c := d.qryHome (block * 64)
    let most := max 1 (d.get BEN_QRY_SCRUB.CE_ROW_MAX)
    let before := (d.ben.chan.get c).ceRow.get row
    if ue then
      let d := (d.count QRY_CNT_UE.COUNT c).raise (472 + 2 * c)
      let d := d.setBen { d.ben with quarryPoison := (d.ben.quarryPoison.filter (· != block)) ++ [block] }
      (d.updChan c fun x => { x with ceRow := x.ceRow.set row (max before most) }).rowRetire c row (decide (before < most))
    else
      let d := if d.get QRY_CNT_CE.COUNT c = 0 then d.raise (472 + 2 * c) else d
      let d := d.count QRY_CNT_CE.COUNT c
      let d := d.updChan c fun x => { x with ceRow := x.ceRow.set row (before + 1) }
      if most ≤ before + 1 then d.rowRetire c row (decide (before < most)) else d

/-- The copy of the oldest retiring row is complete, and the row is remapped (R314). -/
def Dev.rowCopyDoneEff (c : Nat) (d : Dev) : Dev :=
  match (d.ben.chan.get c).copying with
  | i :: t =>
    let d := d.updChan c fun x => { x with copying := t }
    (if d.flag QRY_CSTAT.PPR c then d.putb QRY_RRT.PPR_PENDING true c i else d).raise (472 + 2 * c)
  | [] => d

/-- Patrol scrub reads the next block, in the host class; a pass that ends clears the counts of corrections per row
(R313, R314). -/
def Dev.patrolScrubEff (d : Dev) : Dev :=
  if ! d.flag BEN_QRY_CTL.SCRUB_EN || ! d.flag BEN_QRY_STAT.READY || d.panicNow then d
  else
    let d := d.quarryRequestEff (d.qryHome (d.ben.patrol * 64)) 3 true 1
    let n := d.ben.patrol + 1
    if d.get BEN_QRY_CAP.BYTES ≤ n * 64 then
      (List.range 16).foldl (fun d c => d.updChan c fun x => { x with ceRow := [] })
        (d.setBen { d.ben with patrol := 0 })
    else d.setBen { d.ben with patrol := n }

/-! ### Self-refresh and frequency change (R319, R320) -/

/-- A channel that has been idle for 10 µs enters self-refresh (R319). -/
def Dev.selfRefreshEntryEff (c : Nat) (d : Dev) : Dev :=
  let x := d.ben.chan.get c
  if ! d.qryServes c ∨ x.selfRefresh ∨ x.waiting ≠ [] ∨ d.ben.freqStart ≠ none then d
  else
    ((d.advanceTo (x.lastReq + 12500)).updChan c fun x => { x with selfRefresh := true }).srShow

/-- The population permits a profile (R300). -/
def Dev.profileOk (d : Dev) (p : Nat) : Bool := d.flag BEN_QRY_STAT.READY && ! (d.flag BEN_QRY_STAT.TWO_DPC && p == 0)

/-- A change to a profile waits for its begin (R320). -/
def Dev.freqLoad (d : Dev) (p : Nat) : Dev :=
  d.setBen { d.ben with freqWaiting := true, freqTarget := p, freqAbandoned := 0 }

/-- A write of BEN_QRY_FREQ.GO (R320). -/
def Dev.freqChangeGoEff (p : Nat) (d : Dev) : Dev :=
  let d := d.put BEN_QRY_FREQ.PROFILE p
  if d.ben.freqStart.isSome then d
  else if ! d.profileOk p then d.put BEN_QRY_FREQ.RESULT 4
  else (d.freqLoad p).put BEN_QRY_FREQ.RESULT 0

/-- The housekeeping controller lowers the profile on its own where it may (R320). -/
def Dev.freqOwn (d : Dev) (p : Nat) : Dev :=
  let may := d.flag BEN_QRY_CTL.LOWER_OK || ! ((List.range 64).any fun t => d.flag BEN_HT_CTL.EN t && d.get BEN_HT_CTL.KIND t == 0)
  if may && d.profileOk p && decide (d.get BEN_QRY_STAT.PROFILE < p) && ! d.ben.freqWaiting && d.ben.freqStart.isNone then
    (d.freqLoad p).decision 5 0 p
  else d

/-- A frequency change begins once PANIC is clear and every class queue is empty (R320). -/
def Dev.freqChangeBeginEff (own : Option Nat) (d : Dev) : Dev :=
  let d := match own with
    | some p => d.freqOwn p
    | none => d
  let empty := (List.range 16).all fun c => (d.ben.chan.get c).waiting.isEmpty
  if d.ben.freqWaiting && d.ben.freqStart.isNone && ! d.panicNow && empty then
    ((d.setBen { d.ben with freqStart := some d.now }).put BEN_QRY_FREQ.RESULT 1).putb BEN_QRY_STAT.FREQ_BUSY true
  else d

/-- The change is complete: the first request at the new rate (R320). -/
def Dev.freqDoneEff (d : Dev) : Dev :=
  match d.ben.freqStart with
  | some f =>
    let d := d.advanceTo (f + 2714)
    let d := d.setBen { d.ben with freqStart := none, freqWaiting := false }
    let d := ((d.put BEN_QRY_STAT.PROFILE d.ben.freqTarget).put BEN_QRY_FREQ.RESULT 2).putb BEN_QRY_STAT.FREQ_BUSY false
    (List.range 16).foldl (fun d c =>
      (List.range (d.ben.chan.get c).waiting.length).foldl (fun d _ => d.qrySlot c)
        (if (d.ben.chan.get c).selfRefresh then d.srExit c else d)) (d.raise 509)
  | none => d

end Sys2Proof.Machine
end

