-- ==== Sys2Proof/Machine/TimeBase.lean ====
section
/-!
DEFINITION. The time base: references, lock, holdover, the origin, alignment, PPS and PTP (04_time_base.md). The
effects that a loss or return of the sample clock has on other blocks stand in Clock.lean.
-/
namespace Sys2Proof.Machine

/-! ### The phase error (R105) -/

/-- TB_SLEW.PPB, with 0 acting as 1 (R115). -/
def Dev.slewPpb (d : Dev) : Nat := max 1 (d.get TB_SLEW.PPB)

/-- Of the error, in 1/65,536 tick, what slewing has removed by frame `k`: PPB parts of 10^9 of the ticks since. -/
def Dev.slewed (d : Dev) (k : Nat) : Nat := match d.tb.slew with
  | some f => (k - f) * (64 * 65536) * d.slewPpb / 1000000000
  | none => 0

/-- The error still to be removed in frame `k`. -/
def Dev.phaseErrAt (d : Dev) (k : Nat) : Int :=
  let e := (d.rd ⟨.TB_PHASE_ERR, 0, 0, 0⟩).toInt
  if 0 ≤ e then max 0 (e - d.slewed k) else min 0 (e + d.slewed k)

/-- TB_PHASE_ERR holds the error still to be removed, and slewing goes on from the current frame or has ended. -/
def Dev.slewMark (d : Dev) (on : Bool) : Dev :=
  let d := d.wr ⟨.TB_PHASE_ERR, 0, 0, 0⟩ (BitVec.ofInt 64 (d.phaseErrAt d.now))
  d.setTb { d.tb with slew := if on then some d.now else none }

/-- TB_SLEW is about to change: the error falls at the new rate from now on. -/
def Dev.slewRebase (d : Dev) : Dev := if d.tb.slew.isSome then d.slewMark true else d

/-- The first frame in which the error is below 1/16 tick. -/
def Dev.slewEnd (d : Dev) : Nat :=
  let rate := 64 * 65536 * d.slewPpb
  let e := (d.rd ⟨.TB_PHASE_ERR, 0, 0, 0⟩).toInt.natAbs
  d.tb.slew.getD d.now + ((e - 4095) * 1000000000 + rate - 1) / rate

/-! ### The states and the source (R95, R103, R104) -/

/-- The time base enters a state (R103): records whose instant falls in it carry its flags. Slewing ends where it leaves
SLEWING, and UNLOCKED sets REFLOST, which holds PPS_OUT low (R112). -/
def Dev.tbEnter (d : Dev) (st : Nat) : Dev :=
  let d := if st ≠ 4 ∧ d.tb.slew.isSome then d.slewMark false else d
  let d := if st = 5 then d.setTb { d.tb with ppsOut := none } else d
  (d.newEpoch fun e => { e with holdover := st == 3 || st == 4 || st == 5, reflost := e.reflost || st == 5 }).put
    TB_REF_STAT.STATE st

/-- An error is measured, and the time base removes it: SLEWING (R105). -/
def Dev.tbRemove (d : Dev) (err : W64) : Dev :=
  let d := d.wr ⟨.TB_PHASE_ERR, 0, 0, 0⟩ err
  (d.setTb { d.tb with slew := some d.now }).tbEnter 4

/-- TB_REF_STAT.ACTIVE changes, and SRC_CHANGE is raised (R114). -/
def Dev.tbActive (d : Dev) (a : Nat) : Dev :=
  if d.get TB_REF_STAT.ACTIVE = a then d else (d.put TB_REF_STAT.ACTIVE a).raise 68

/-- TB_REF_CTL.SEL, with 4 to 7 acting as 0 (R115). -/
def Dev.tbSel (d : Dev) : Nat := if d.get TB_REF_CTL.SEL < 4 then d.get TB_REF_CTL.SEL else 0

/-- Input `s` is present: 1 REF_IN, 2 EXTCLK_IN (R94). -/
def Dev.tbPresent (d : Dev) (s : Nat) : Bool :=
  match s with
  | 1 => d.flag TB_REF_STAT.REF_PRES
  | 2 => d.flag TB_REF_STAT.EXT_PRES
  | _ => false

/-- The inputs that wait to be taken with SEL at AUTO, the first priority first, each with the frame in which its
qualification time ends, in units of 10 ms = 12,500,000 frames (R95): those present of higher priority than the source in
use. Before the first lock no source is in use. -/
def Dev.tbWaiting (d : Dev) : List (Nat × Nat) :=
  let act := d.get TB_REF_STAT.ACTIVE
  if ! d.tb.locked || d.tbSel != 0 || act == 0 then []
  else
    let better := [2, 1].filter fun s => d.tbPresent s && (act == 3 || decide (act < s))
    better.map fun s => (s, (if s = 2 then d.tb.extSince else d.tb.refSince) + d.get TB_REF_CTL.QUAL * 12500000)

/-- The input whose qualification ends first; the higher priority where both end together. -/
def Dev.tbNext (d : Dev) : Option (Nat × Nat) :=
  d.tbWaiting.foldl (fun b x => match b with
    | some y => if x.2 < y.2 then some x else b
    | none => some x) none

/-- The input of highest priority that has qualified. -/
def Dev.tbRipe (d : Dev) : Option Nat := (d.tbWaiting.find? fun x => decide (x.2 ≤ d.now)).map Prod.fst

/-- The time base takes a reference as its source: it measures the phase error and removes it (R104). -/
def Dev.tbTake (d : Dev) (src : Nat) (err : W64) : Dev :=
  if d.tb.locked then ((d.tbActive src).setTb { (d.tbActive src).tb with lost := false }).tbRemove err else d

/-- An input becomes present: it is taken at once where SEL forces it or nothing has to qualify (R95). -/
def Dev.tbArrive (d : Dev) (src : Nat) (err : W64) : Dev :=
  if d.tbSel = src ∨ d.tbRipe = some src then d.tbTake src err else d

/-- The reference in use is lost: HOLDOVER (R104). While the synthesiser is unlocked the state stays (log entry 59). -/
def Dev.tbLose (d : Dev) : Dev :=
  let d := (d.tbActive 3).count TB_LOSS_CNT.REF_LOSSES
  let d := d.setTb { d.tb with lost := true }
  if d.tb.locked then (d.tbEnter 3).raise 69 else d

def Dev.refPresentEff (mhz100 : Bool) (err : W64) (d : Dev) : Dev :=
  let d := ((d.putb TB_REF_STAT.REF_PRES true).putb TB_REF_STAT.REF_100 mhz100).raise 64
  (d.setTb { d.tb with refSince := d.now }).tbArrive 1 err

def Dev.refAbsentEff (d : Dev) : Dev :=
  let d := (d.putb TB_REF_STAT.REF_PRES false).raise 65
  if d.get TB_REF_STAT.ACTIVE = 1 then d.tbLose else d

def Dev.extPresentEff (err : W64) (d : Dev) : Dev :=
  let d := (d.putb TB_REF_STAT.EXT_PRES true).raise 66
  (d.setTb { d.tb with extSince := d.now }).tbArrive 2 err

/-- With AUTO a present REF_IN that has qualified follows a lost EXTCLK_IN (R95). -/
def Dev.extAbsentEff (err : W64) (d : Dev) : Dev :=
  let d := (d.putb TB_REF_STAT.EXT_PRES false).raise 67
  if d.get TB_REF_STAT.ACTIVE = 2 then
    let d := d.tbLose
    match d.tbRipe with
    | some src => d.tbTake src err
    | none => d
  else d

/-- A qualification time ends (R95); the choice is a decision (R440). -/
def Dev.qualificationExpiryEff (err : W64) (d : Dev) : Dev :=
  match d.tbNext with
  | none => d
  | some (src, t) => ((d.advanceTo t).tbTake src err).decision 13 src 0

/-- TB_REF_CTL.SEL has changed (R95, R103; DEDUCED, log entry 33): a forced input that is present is taken at once,
whatever its phase error, which is a free value; without it the card oscillator serves for holdover; SEL 3 is FREE. With
AUTO an input of higher priority is taken once it has been present for the qualification time. -/
def Dev.tbSelWritten (d : Dev) : Dev :=
  let act := d.get TB_REF_STAT.ACTIVE
  if ! d.tb.locked then d
  else match d.tbSel with
    | 3 =>
      if act = 3 ∧ ! d.tb.lost then d
      else
        let d := d.tbActive 3
        (d.setTb { d.tb with lost := false }).tbEnter 1
    | 0 =>
      match d.tbRipe with
      | some src => ((d.tbTake src d.freeVal).drawn).decision 13 src 0
      | none => d
    | s =>
      if act = s then d
      else if d.tbPresent s then (d.tbTake s d.freeVal).drawn
      else if act = 3 then d
      else
        let d := d.tbActive 3
        ((d.setTb { d.tb with lost := true }).tbEnter 3).raise 69

/-- REF_OUT in MHz; 0: held low (R97). -/
def Dev.refOut (d : Dev) : Nat :=
  if d.flag TB_REF_CTL.REFOUT_EN && d.tb.locked then (if d.flag TB_REF_CTL.REFOUT_100 then 100 else 10) else 0

/-! ### Lock, alignment and loss of lock (R95, R106, R107) -/

/-- Alignment ends (R107): REFLOST clears, ALIGNED is set and raised. -/
def Dev.tbAligned (d : Dev) : Dev :=
  let d := d.setTb { d.tb with aligning := false, removing := false }
  ((d.newEpoch fun e => { e with reflost := false }).putb TB_REF_STAT.ALIGNED true).raise 74

/-- The alignment source has measured the error of the rebuilt count, in 1/65,536 tick (R107). -/
def Dev.tbAlign (d : Dev) (err : W64) : Dev :=
  let d := d.setTb { d.tb with aligning := false }
  if 40000000000 * 65536 < err.toInt.natAbs then d.raise 75
  else if err.toInt.natAbs < 4096 then (d.wr ⟨.TB_PHASE_ERR, 0, 0, 0⟩ err).tbAligned
  else (d.setTb { d.tb with removing := true }).tbRemove err

/-- The source at a lock (R95): at the first one a present input is taken at once; later the source in use stays, unless an
input of higher priority has qualified or SEL forces a present one. -/
def Dev.tbChoice (d : Dev) : Nat :=
  let act := d.get TB_REF_STAT.ACTIVE
  match d.tbSel with
  | 0 =>
    if act = 0 then (if d.tbPresent 2 then 2 else if d.tbPresent 1 then 1 else 3) else d.tbRipe.getD act
  | s => if d.tbPresent s then s else 3

/-- The time base's part of a lock of the synthesiser (R95, R107): it runs on its source, and after UNLOCKED or a wake the
count is rebuilt from the keeper and waits for its alignment source. -/
def Dev.tbLock (d : Dev) : Dev :=
  let d := (d.setTb { d.tb with locked := true, gapTo := d.now + 1 }).raise 72
  let src := d.tbChoice
  let d := d.tbActive src
  let d := if src = 3 ∧ d.tbSel ≠ 3 then d else d.setTb { d.tb with lost := false }
  let d := d.tbEnter (if src ≠ 3 then 2 else if d.tb.lost then 3 else 1)
  match d.tb.keeper with
  | none => d
  | some k =>
    let cyc := (d.now - k.frame) / 50
    let d := d.newEpoch fun e => { e with val := (k.val + 3200 * cyc) % 2 ^ 72, reflost := true }
    let d := (d.setTb { d.tb with keeper := none, aligning := true }).putb TB_REF_STAT.ALIGNED false
    if d.get TB_PPS_CTL.ALIGN_SRC % 3 = 0 then d.tbAligned else d

/-- An armed origin set is refused or cancelled (R101). -/
def Dev.originRefused (d : Dev) : Dev :=
  (d.setTb { d.tb with armed := none, due := none }).put TB_ORIGIN_CTL.RESULT 3 |>.raise 81

/-- The opening of a record cancels an armed origin set (R101). -/
def Dev.originCancel (d : Dev) : Dev := if d.tb.armed.isSome then d.originRefused else d

/-- The time base's part of a loss of lock (R106): UNLOCKED, and the keeper takes the count. -/
def Dev.tbUnlock (d : Dev) : Dev :=
  let d := ((d.tbEnter 5).raise 73).count TB_LOSS_CNT.UNLOCKS
  let keeper : Keeper := ⟨d.now, d.countAt d.now % 2 ^ 72⟩
  (d.setTb { d.tb with locked := false, gapFrom := d.now, aligning := false, removing := false, keeper := some keeper }).originCancel

/-! ### Step and slew (R104, R105) -/

/-- The step of R105: whole frames, when no record is open, STEP_EN is 1 and the error is at least STEP_MIN µs; the rest is
slewed. -/
def Dev.timeStepEff (d : Dev) : Dev :=
  let err := d.phaseErrAt d.now
  if d.recordOpen || ! d.flag TB_SLEW.STEP_EN || d.get TB_REF_STAT.STATE ≠ 4
      || decide (err.natAbs < d.get TB_SLEW.STEP_MIN * 80000 * 65536) || decide (err.natAbs < 64 * 65536) then d
  else
    let n := err.natAbs / (64 * 65536)
    let rest : Int := if 0 ≤ err then err - (n * (64 * 65536) : Nat) else err + (n * (64 * 65536) : Nat)
    let d := d.newEpoch fun e =>
      { e with val := if 0 ≤ err then (e.val + 2 ^ 72 - n * 64 % 2 ^ 72) % 2 ^ 72 else (e.val + n * 64) % 2 ^ 72 }
    let d := d.wr ⟨.TB_PHASE_ERR, 0, 0, 0⟩ (BitVec.ofInt 64 rest)
    (d.setTb { d.tb with slew := some d.now }).raise 71

/-- The slewed error falls below 1/16 tick (R104, R105): LOCKED, and HOLDOVER_EXIT is raised. Without a reference in use the
time base goes back to FREE or to HOLDOVER (log entry 59). An alignment that waited for the removal ends (R107). -/
def Dev.holdoverExitEff (d : Dev) : Dev :=
  if d.get TB_REF_STAT.STATE ≠ 4 then d
  else
    let d := d.advanceTo d.slewEnd
    let d := if d.get TB_REF_STAT.ACTIVE ≠ 3 then (d.tbEnter 2).raise 70 else d.tbEnter (if d.tb.lost then 3 else 1)
    if d.tb.removing then d.tbAligned else d

/-! ### Origin (R101) -/

/-- A write of TB_ORIGIN_CTL with GO set (R101). -/
def Dev.originGoEff (boundary : Nat) (d : Dev) : Dev :=
  let d := d.put TB_ORIGIN_CTL.WHEN boundary
  if d.recordOpen then d.originRefused
  else
    let w := if boundary = 3 then 0 else boundary
    (d.setTb { d.tb with armed := some w, due := if w = 0 then some (d.now + 1) else none }).put
      TB_ORIGIN_CTL.RESULT 1

/-- The boundary chosen by WHEN: TICK and ERA become 0; at one that falls while the synthesiser is unlocked the set is
cancelled (R101). -/
def Dev.originSetEff (d : Dev) : Dev :=
  match d.tb.armed, d.tb.due with
  | some _, some t =>
    let d := d.advanceTo t
    if ! d.tb.locked then d.originCancel
    else
      let d := d.newEpoch fun e => { e with frame := t, val := 0, valid := true }
      let d := d.setTb { d.tb with armed := none, due := none }
      ((d.put TB_ORIGIN_CTL.RESULT 2).putb TB_REF_STAT.VALID true).raise 80
  | _, _ => d

/-- An edge that an armed origin set waits for (WHEN 1 PPS_IN, 2 SYNC_IN) fixes its boundary: the first at or after the
edge's instant (in 1/65,536 tick), which may lie before the frame in which the edge is known (R101, R392). -/
def Dev.originEdge (d : Dev) (w : Nat) (inst : Nat) : Dev :=
  if d.tb.armed = some w ∧ d.tb.due = none then
    d.setTb { d.tb with due := some ((inst + 64 * 65536 - 1) / (64 * 65536)) }
  else d

/-- TICK wraps at the next multiple of 2^64 (R100); `advanceTo` raises the events. -/
def Dev.tickWrapEff (d : Dev) : Dev :=
  d.advanceTo (d.now + (2 ^ 64 - d.countAt d.now % 2 ^ 64) / 64)

/-- The TIME128 of an instant in 1/65,536 tick, with INTERP set. -/
def Dev.stampInst (d : Dev) (seq inst : Nat) : BitVec 128 :=
  d.stamp seq (inst / 65536 / 64) (inst / 65536 % 64) (inst % 65536) true

/-- The instant of an edge stamped on chassis pin `x`: its stamp less SYN_IDLY (R392). -/
def Dev.pinInst (d : Dev) (x stamp : Nat) : Nat := ((stamp : Int) - d.gets SYN_IDLY.DELAY x).toNat

/-- A rising edge of PPS_IN at a sample and fraction of the current frame; `err` is the error of the count against it,
where the alignment waits for it (R107, R112). -/
def Dev.ppsInEff (sample frac : Nat) (err : W64) (d : Dev) : Dev :=
  let inst := d.pinInst 20 ((d.now * 64 + sample) * 65536 + frac)
  let d := d.wr128 .TB_PPS_CAP 0 true (d.stampInst d.tb.ppsSeq inst)
  let d := (d.setTb { d.tb with ppsSeq := d.tb.ppsSeq + 1, ppsLast := some d.now, ppsLate := false }).raise 78
  let d := d.originEdge 1 inst
  if d.tb.aligning && d.get TB_PPS_CTL.ALIGN_SRC = 1 then d.tbAlign err else d

/-- 1.1 s without an edge of PPS_IN (R112). -/
def Dev.ppsMissingEff (d : Dev) : Dev :=
  match d.tb.ppsLast with
  | some t =>
    if d.tb.ppsLate then d
    else
      let d := d.advanceTo (t + 1375000000)
      (d.setTb { d.tb with ppsLate := true }).raise 79
  | none => d

/-! ### TAI, PPS_OUT and PTP (R102, R112, R113) -/

/-- Ticks of a TAI second. -/
def secondTicks : Nat := 80000000000

/-- The TAI time of the boundary of frame `k`: seconds from the PTP epoch, and ticks (R102). -/
def Dev.taiAt (d : Dev) (k : Nat) : Nat × Nat :=
  let t := d.get TB_TAI_OFS.TICKS + d.countAt k % 2 ^ 72
  (d.get TB_TAI_SEC.SEC + t / secondTicks, t % secondTicks)

/-- PPS_OUT may be high: OUT_EN is 1, VALID is set and REFLOST is clear (R112). -/
def Dev.ppsAllowed (d : Dev) : Bool :=
  d.flag TB_PPS_CTL.OUT_EN && (d.epochAt d.now).valid && ! (d.epochAt d.now).reflost

/-- The level of PPS_OUT at the boundary of the current frame. -/
def Dev.ppsLevel (d : Dev) : Bool :=
  d.ppsAllowed && match d.tb.ppsOut with
  | some (rise, fall) => decide (rise ≤ d.now * 1024) && decide (d.now * 1024 < fall)
  | none => false

/-- PPS_OUT rises at the next TAI second boundary, placed to 1/16 tick, and stays high for WIDTH µs (R102, R112). -/
def Dev.ppsOutEff (d : Dev) : Dev :=
  if d.ppsAllowed then
    let part := (d.taiAt d.now).2
    let next := (d.now * 64 + (secondTicks - part) % secondTicks) * 16
    let rise := if (d.tb.ppsOut.map Prod.fst) == some next then next + 16 * secondTicks else next
    let d := d.advanceTo (rise / 1024)
    d.setTb { d.tb with ppsOut := some (rise, rise + max 1 (d.get TB_PPS_CTL.WIDTH) * 80000 * 16) }
  else d

/-- TB_PTP_CTL.PORT, with 3 acting as 0, and PROFILE, with 2 and 3 acting as 0 (R115). -/
def Dev.ptpPort (d : Dev) : Nat := d.get TB_PTP_CTL.PORT % 3
def Dev.ptpPeer (d : Dev) : Bool := d.get TB_PTP_CTL.PROFILE == 1

/-- The clock takes a message (R113): no management message, those of the other delay mechanism neither. -/
def ptpTaken (m : PtpMsg) (peer : Bool) : Bool :=
  match m with
  | .sync | .followUp | .announce | .signaling => true
  | .delayReq | .delayResp => ! peer
  | .pdelayReq | .pdelayResp | .pdelayRespFollowUp => peer
  | .management => false

/-- The messages that answer a message, in the port state that it leaves (R113): 6 is MASTER (PRESUMED from IEEE 1588, log
entry 60). -/
def ptpAnswers (m : PtpMsg) (state : Nat) (twoStep : Bool) : List PtpMsg :=
  match m with
  | .delayReq => if state = 6 then [.delayResp] else []
  | .pdelayReq => .pdelayResp :: (if twoStep then [.pdelayRespFollowUp] else [])
  | _ => []

/-- The offset of the time base from the master's time, in 1/65,536 tick, cut to TB_PHASE_ERR's range. -/
def Dev.ptpOffset (d : Dev) (sec frac : W64) : W64 :=
  let own := d.taiAt d.now
  let e : Int := (((own.1 : Int) - (sec.toNat : Int)) * secondTicks + own.2) * 65536 - frac.toNat
  BitVec.ofInt 64 (max (-(2 ^ 63)) (min (2 ^ 63 - 1) e))

/-- The servo has an offset (R107, R113): the alignment error, which the time base removes. -/
def Dev.ptpServo (d : Dev) (err : W64) : Dev :=
  if d.get TB_PPS_CTL.ALIGN_SRC ≠ 2 || ! d.tb.locked then d
  else if d.tb.aligning then d.tbAlign err
  else if err.toInt.natAbs < 4096 ∧ d.get TB_REF_STAT.STATE ≠ 4 then d.wr ⟨.TB_PHASE_ERR, 0, 0, 0⟩ err
  else d.tbRemove err

/-- A PTP message reaches the ordinary clock (R113). It leaves the port in `state`; with SLAVE_ONLY never in PRE_MASTER or
MASTER (5 and 6). `master` is the master's TAI time at the boundary of the current frame, as the message gives it to the
servo: seconds, and 1/65,536 ticks. While the controller is absent its servo holds (R439). -/
def Dev.ptpMessageEff (msg : PtpMsg) (domain state : Nat) (master : Option (W64 × W64)) (d : Dev) : Dev :=
  if ! d.flag TB_PTP_CTL.EN || d.hkAbsent || domain != d.get TB_PTP_CTL.DOMAIN || ! d.pdOn (59 + d.ptpPort)
      || ! ptpTaken msg d.ptpPeer || (d.flag TB_PTP_CTL.SLAVE_ONLY && (state == 5 || state == 6)) then d
  else
    let d := if d.tb.ptpState = state then d else (d.setTb { d.tb with ptpState := state }).raise 82
    let d := d.setTb { d.tb with ptpSent := ptpAnswers msg state (d.flag TB_PTP_CTL.TWO_STEP) }
    match master with
    | none => d
    | some (sec, frac) => d.ptpServo (d.ptpOffset sec frac)

end Sys2Proof.Machine
end

