-- ==== Sys2Proof/Machine/Lanes.lean ====
section
/-!
DEFINITION. Record lanes, skeins and segments (06_record_lanes_and_segments.md R144-R168, R495): enabling, requests,
windows, the granules of a lane, opening and ending segments, records and the record buffer.
-/
namespace Sys2Proof.Machine

/-- The POST that means open-ended (R149). -/
def openEnded : Nat := 0xFFFFFFFFFF

/-! ### Sources, formats and skeins (R144-R147) -/

/-- Items of a logic group per frame: 4 in LOGIC5, 2 in LOGIC25 (R216). -/
def Dev.logicItems (d : Dev) (g : Nat) : Nat :=
  match d.get EVI_GMODE.MODE / 4 ^ g % 4 with
  | 1 => 4
  | 2 => 2
  | _ => 0

/-- A listed lane source code (R144). -/
def laneSourceOk (src : Nat) : Bool :=
  decide (src < 4) || (decide (0x10 ≤ src) && decide (src < 0x28)) || (decide (0x100 ≤ src) && decide (src < 0x180))

/-- A decimation unit in peak-detect mode delivers min/max pairs (R144, R181); on the fast path it does not (R182). -/
def Dev.decPeak (d : Dev) (u : Nat) : Bool := d.get DEC_CFG_ACT.MODE u == 1 && ! d.flag DEC_CFG_ACT.OUT u

/-- FORMAT is accepted for the source (R144): MM16 in peak-detect mode only. -/
def Dev.laneFormatOk (d : Dev) (src f : Nat) : Bool :=
  if src < 4 then decide (f < 4)
  else if src < 0x20 then f == 2 || f == 3 || (f == 4 && d.decPeak (src - 0x10))
  else if src < 0x28 then f == 5
  else f == 6

/-- Granule size of a format (R145); LG1 by the items of the group's frame. -/
def Dev.granuleSize (d : Dev) (l : Nat) : Nat :=
  match d.get REC_LCTL.FORMAT l with
  | 0 => 96
  | 1 => 80
  | 2 => 128
  | 3 => 256
  | 4 => 256
  | 5 => 2 * max 2 (d.logicItems (d.get REC_LCTL.SRC l - 0x20))
  | _ => 16

/-- Items per granule (R144). -/
def Dev.laneItems (d : Dev) (l : Nat) : Nat :=
  match d.get REC_LCTL.FORMAT l with
  | 5 => max 2 (d.logicItems (d.get REC_LCTL.SRC l - 0x20))
  | 6 => 1
  | 7 => 1
  | _ => 64

/-- The item of a corrected sample in a format: P12 and P10 shift right arithmetically (R145). -/
def formatSample (f : Nat) (x : Int) : Nat :=
  match f with
  | 0 => (x / 16 % 4096).toNat
  | 1 => (x / 64 % 1024).toNat
  | 2 => (x % 65536).toNat
  | _ => (x % 4294967296).toNat

/-- The skein a lane is bound to. -/
def Dev.laneSkein (d : Dev) (l : Nat) : Skein := d.lanes.skein.get (d.get REC_LCTL.SKEIN l)

/-- The capacity C of the lane's skein in granules (R147). -/
def Dev.laneC (d : Dev) (l : Nat) : Nat := (d.laneSkein l).size / d.granuleSize l

/-- The usable span E in bytes (R147). -/
def Dev.laneE (d : Dev) (l : Nat) : Nat := d.laneC l * d.granuleSize l

/-- The enabled lane bound to skein `k` (R148). -/
def Dev.boundLane (d : Dev) (k : Nat) : Option Nat :=
  (List.range 16).find? fun l => d.flag REC_LCTL.EN l && d.get REC_LCTL.SKEIN l == k

/-! ### Records and the record buffer (R162-R165) -/

/-- The 64 bytes of a record (R162). -/
def Rec.bytes (r : Rec) : List Byte :=
  let flags := r.superseded.toNat * 2 ^ 62 + r.maskfail.toNat * 2 ^ 61 + r.truncated.toNat * 2 ^ 60
    + r.clocklost.toNat * 2 ^ 59 + r.holdover.toNat * 2 ^ 58 + r.degraded.toNat * 2 ^ 57 + r.wrapped.toNat * 2 ^ 56
  leBytes r.time.toNat 16
    ++ leBytes (flags + r.tu % 8 * 2 ^ 52 + r.lane % 16 * 2 ^ 48 + r.segnum % 2 ^ 48) 8
    ++ leBytes (r.format % 16 * 2 ^ 56 + r.outcome % 16 * 2 ^ 52 + r.kind % 16 * 2 ^ 48 + r.start % 2 ^ 48) 8
    ++ leBytes (r.skein % 64 * 2 ^ 48 + r.alloc % 2 ^ 48) 8
    ++ leBytes (r.allocBytes % 2 ^ 48) 8
    ++ leBytes (r.length % 2 ^ 64) 8
    ++ leBytes (r.tag % 2 ^ 24 * 2 ^ 40 + r.preCount % 2 ^ 40) 8

/-- A record is placed: it waits for the drain as a completed record of its lane (R163, R165). -/
def Dev.recPlace (d : Dev) (r : Rec) : Dev :=
  let d := d.setLanes { d.lanes with done := d.lanes.done ++ [r] }
  (d.updLane r.lane fun x => { x with placed := x.placed + 1, lastKind := r.kind, lastOutcome := r.outcome }).wakeRecord r

/-- The CLOSE records at the head of a lane's waiting records are placed: their request's last segment is recorded. -/
def Dev.closesPlace (d : Dev) (l : Nat) : Nat → Dev
  | 0 => d
  | n + 1 =>
    match (d.lanes.lane.get l).await with
    | r :: t =>
      if r.kind = 2 then ((d.updLane l fun x => { x with await := t }).recPlace r).closesPlace l n else d
    | [] => d

/-- Place the CLOSE records that stand at the head. -/
def Dev.closesOut (d : Dev) (l : Nat) : Dev := d.closesPlace l (d.lanes.lane.get l).await.length

/-- A request that ended in frame `k` leaves one CLOSE record (R159); without a free entry the CLOSE waits for one (R165). -/
def Dev.laneClose (d : Dev) (l outcome k : Nat) (q : Req) : Dev :=
  let x := d.lanes.lane.get l
  let r : Rec :=
    { kind := 2, outcome := outcome, time := d.stamp x.closeSeq k 0, tu := q.tu, lane := l
      segnum := d.get REC_SEGNUM.NEXT l, format := d.get REC_LCTL.FORMAT l, skein := d.get REC_LCTL.SKEIN l
      length := q.left, tag := q.tag }
  let d := d.updLane l fun x => { x with closeSeq := x.closeSeq + 1 }
  if recordEntries ≤ d.rbUsed ∨ x.noEntry ≠ [] then d.updLane l fun x => { x with noEntry := x.noEntry ++ [r] }
  else (d.updLane l fun x => { x with await := x.await ++ [r] }).closesOut l

/-- The lane keeps no fill. -/
def Lane.emptied (x : Lane) : Lane := { x with marks := [], recent := [], kept := [] }

/-- The active request and every queued request end with CLOSE records of one outcome (R159). -/
def Dev.laneCloseAll (d : Dev) (l outcome : Nat) : Dev :=
  let x := d.lanes.lane.get l
  let d := d.updLane l fun x =>
    { x.emptied with cur := none, win := none, queue := [], actAt := none, maskStop := false, pool := [] }
  (x.cur.toList ++ x.queue).foldl (fun d q => d.laneClose l outcome d.now q) d

/-! ### Held segments (R155-R157) -/

/-- The regions of a skein that a held segment still takes, as offset and length: its window until the hoist has
delivered the window's granules, and the granules after it that are not yet delivered (R155, R307). -/
def Held.regions (h : Held) : List (Nat × Nat) :=
  let g := max 1 h.g
  let s := h.sent / g
  let win := if s < min h.m h.w ∨ ! h.ended ∧ s < h.w then [(h.record.alloc, h.record.allocBytes)] else []
  let i := max h.w s
  if i < h.m then
    let a := (h.record.alloc + h.w * g + (i - h.w) * g) % max 1 h.span
    let n := (h.m - i) * g
    if a + n ≤ h.span then win ++ [(a, n)] else win ++ [(a, h.span - a), (0, n - (h.span - a))]
  else win

/-- Bytes that a skein's segments hold. -/
def Skein.heldBytes (s : Skein) : Nat := ((s.held.flatMap Held.regions).map Prod.snd).sum

/-- REC_SKN_OLDEST shows the oldest intact segment (R168). -/
def Dev.skeinOldest (d : Dev) (k : Nat) : Dev :=
  match (d.lanes.skein.get k).held.head? with
  | some h => (d.putb REC_SKN_OLDEST.VALID true k).put REC_SKN_OLDEST.SEGNUM h.record.segnum k
  | none => d.putb REC_SKN_OLDEST.VALID false k

/-- A held segment is superseded by a window of lane `l` (R156): its waiting record is marked; of a recorded one a
NOTICE is placed when NOTICE is 1 and an entry is free, and counted otherwise. -/
def Dev.supersede (d : Dev) (l k : Nat) (h : Held) : Dev :=
  if h.recorded then
    if d.flag REC_SKN_CTL.NOTICE k then
      if d.rbUsed < recordEntries then d.recPlace { h.record with kind := 1, superseded := true }
      else d.count REC_CNT_NOTICE.COUNT l
    else d
  else d.updLane h.record.lane fun x =>
    { x with await := x.await.map fun r =>
      if r.kind = 0 ∧ r.segnum = h.record.segnum then { r with superseded := true } else r }

/-! ### Windows (R151, R153, R155) -/

/-- The sample frame that the next granule of the stage store belongs to. -/
def Dev.stageFrame (d : Dev) : Nat := max (d.now - 214) d.stageNext

/-- W, the window's granules for a request (R153). -/
def Dev.winSize (d : Dev) (l : Nat) (q : Req) : Nat :=
  if q.post = openEnded then q.pre + 1 else min (q.pre + q.post) (d.laneC l)

/-- Place the window of request `q` of lane `l` at offset `p` (R153). The fill starts with the sample frame that leaves the
stage store now: the oldest one of the lane's backlog, where the store has fallen behind (R151). -/
def Dev.winPlace (d : Dev) (l : Nat) (q : Req) (p : Nat) : Dev :=
  let w := d.winSize l q
  let d := d.put REC_SKN_CP.BYTES (p + w * d.granuleSize l) (d.get REC_LCTL.SKEIN l)
  d.updLane l fun x =>
    let origin := match x.pool with
      | g :: _ => g.k
      | [] => d.stageFrame
    { x.emptied with cur := some q, win := some { origin := origin, alloc := p, w := w } }

/-- Try to place the window under the skein's policy (R155). -/
def Dev.winTry (d : Dev) (l : Nat) (q : Req) : Dev :=
  let k := d.get REC_LCTL.SKEIN l
  let s := d.laneSkein l
  let n := d.winSize l q * d.granuleSize l
  let cp := d.get REC_SKN_CP.BYTES k
  let fits := decide (cp + n ≤ d.laneE l)
  let p := if fits then cp else 0
  match s.policy with
  | 0 =>
    if fits then d.winPlace l q cp
    else
      ((d.putb REC_LSTAT.FULL true l).raise (160 + 4 * l)).laneCloseAll l 3
  | 1 =>
    let old := s.held.filter fun h => meets h.record.alloc h.record.allocBytes p n
    let d := d.updSkein k fun s =>
      { s with held := s.held.filter fun h => ! meets h.record.alloc h.record.allocBytes p n }
    (old.foldl (fun d h => d.supersede l k h) (d.skeinOldest k)).winPlace l q p
  | _ =>
    if (s.held.flatMap Held.regions).any fun r => meets r.1 r.2 p n then
      d.updLane l fun x => { x with pool := [], win := some { waiting := true, origin := d.stageFrame } }
    else d.winPlace l q p

/-- The lane's next request becomes active, or its active request becomes it again (R151). -/
def Dev.laneActivate (d : Dev) (l : Nat) : Dev :=
  let x := d.lanes.lane.get l
  if x.seg.isSome || x.win.isSome || ! d.flag REC_LCTL.EN l then d
  else
    let d := d.updLane l fun x => { x with actAt := none }
    match x.cur, x.queue with
    | some q, _ => d.winTry l q
    | none, q :: t => (d.updLane l fun x => { x with cur := some q, queue := t }).winTry l q
    | none, [] => d

/-- The next request becomes active in its frame (R151). -/
def Dev.requestActiveEff (l : Nat) (d : Dev) : Dev :=
  match (d.lanes.lane.get l).actAt with
  | some t => (d.advanceTo t).laneActivate l
  | none => d

/-- The window of a waiting request is placed once the hoist has released its bytes (R155). -/
def Dev.hoistWindowPlacedEff (l : Nat) (d : Dev) : Dev :=
  let x := d.lanes.lane.get l
  match x.cur, x.win with
  | some q, some w => if w.waiting then d.winTry l q else d
  | _, _ => d

/-! ### Opening and ending (R158, R159) -/

/-- The pre-trigger granules that a request keeps in a window of `w` (R154). -/
def preKept (q : Req) (w : Nat) : Nat := if q.post = openEnded then q.pre else min q.pre (w - q.post)

/-- The trigger item in a granule: its index if the granule holds an item at or after the instant (R158). -/
def triggerItem (inst : Nat) (insts : List Nat) : Option Nat := insts.findIdx? fun t => decide (inst ≤ t)

/-- The held entry of the lane's open segment follows its granules. -/
def Dev.heldSync (d : Dev) (l : Nat) : Dev :=
  let x := d.lanes.lane.get l
  match x.seg, x.win with
  | some s, some w =>
    match s.t with
    | some t =>
      let g := d.granuleSize l
      let span := d.laneE l
      d.updSkein (d.get REC_LCTL.SKEIN l) fun k => { k with held := k.held.map fun h =>
        if h.record.segnum = s.segnum ∧ ! h.ended then
          { h with slot := (t - s.p) % max 1 w.w, w := w.w, m := w.n - (t - s.p), g := g, span := span
                   firsts := ((x.kept.take (w.n - (t - s.p))).map Prod.fst).reverse }
        else h }
    | none => d
  | _, _ => d

/-- The last sample frame of a segment of lane `l` that opens at `inst`, where the source fixes it: the trigger granule's
frame plus POST − 1 (R130); a frame that no run reaches where the end is not known yet. -/
def Dev.segLastFrame (d : Dev) (l : Nat) (q : Req) (inst : Nat) : Nat :=
  let src := d.get REC_LCTL.SRC l
  let far := 2 ^ 100
  if q.post = openEnded then far
  else if src < 4 then (inst + 65535) / 65536 / 64 + q.post - 1
  else if 0x20 ≤ src ∧ src < 0x28 then
    let step := 64 / max 2 (d.logicItems (src - 0x20))
    (inst + 65536 * step - 1) / (65536 * step) * step / 64 + q.post - 1
  else far

/-- An accepted trigger of unit `u` at `inst`, with its TIME128, opens a segment on lane `l` (R158, R164). -/
def Dev.laneOpen (d : Dev) (u inst : Nat) (time : BitVec 128) (l : Nat) : Dev :=
  let x := d.lanes.lane.get l
  match x.cur, x.win with
  | some q, some w =>
    let d := d.originCancel
    let num := d.get REC_SEGNUM.NEXT l
    let wrapped := num == 0 && x.numWrapped
    let found := x.recent.findSome? fun (i, insts) => (triggerItem inst insts).map fun o => (i, o)
    -- a stamp can have been written long before its trigger is decided; the window keeps its latest W
    let s : Seg :=
      { segnum := num, tu := u, tag := q.tag, time := time, inst := inst, post := q.post
        t := found.map Prod.fst, off := (found.map Prod.snd).getD 0
        p := match found with
          | some (t, _) => min (min (preKept q w.w) t) (w.w + t - w.n)
          | none => preKept q w.w
        clocklost := x.lossMark, truncated := x.dropMark && q.post == openEnded, wrapped := wrapped }
    let d := d.put REC_SEGNUM.NEXT ((num + 1) % 2 ^ 48) l
    let d := if wrapped then (d.bump REC_CNT_SEGWRAP.COUNT l).raise (161 + 4 * l) else d
    let h : Held := { record := { segnum := num, lane := l, tu := u, format := d.get REC_LCTL.FORMAT l, alloc := w.alloc,
                                  allocBytes := w.w * d.granuleSize l }, g := d.granuleSize l, w := w.w,
                      span := d.laneE l }
    let d := d.updSkein (d.get REC_LCTL.SKEIN l) fun k => { k with held := k.held ++ [h] }
    (d.updLane l fun x =>
      { x with seg := some s, lossMark := false, dropMark := false, numWrapped := num == 2 ^ 48 - 1 }).heldSync l
  | _, _ => d

/-- The FIFO place of granule `n` of an open-ended segment: the granules after its window's W lie behind it (R154, R157). -/
def Seg.fifoAt (s : Seg) (w n : Nat) : Option Nat :=
  match s.t with
  | some t => if s.post = openEnded ∧ t - s.p + w ≤ n then some (n - (t - s.p) - w) else none
  | none => none

/-- Where granule `n` of the lane goes in its skein (R154). -/
def Dev.granulePos (d : Dev) (l : Nat) (w : Win) (seg : Option Seg) : Nat :=
  let size := d.granuleSize l
  match seg.bind fun s => s.fifoAt w.w w.n with
  | some m => (w.alloc + w.w * size + m * size) % max 1 (d.laneE l)
  | none => w.alloc + w.n % max 1 w.w * size

/-- The trigger granule of the open segment, if granule `n` with items at these instants is it (R158). -/
def Seg.withTrigger (s : Seg) (n : Nat) (insts : List Nat) : Seg :=
  match s.t with
  | some _ => s
  | none => match triggerItem s.inst insts with
    | some o => { s with t := some n, off := o, p := min s.p n }
    | none => s

/-- The POST granules of the open segment are complete (R154). -/
def Lane.complete (x : Lane) : Bool :=
  match x.seg, x.win with
  | some s, some w => match s.t with
    | some t => s.post != openEnded && decide (t + s.post ≤ w.n)
    | none => false
  | _, _ => false

/-- Write one granule into the lane's window (R154). -/
def Dev.laneWrite (d : Dev) (l : Nat) (g : Granule) : Dev :=
  let x := d.lanes.lane.get l
  match x.win with
  | none => d
  | some w =>
    if w.waiting || x.complete then d
    else
      let n := w.n
      let seg := x.seg.map fun s => s.withTrigger n g.insts
      let s := d.laneSkein l
      let d := d.storeWrite s.store (s.base + d.granulePos l w seg) g.bytes
      let pre := (x.cur.map Req.pre).getD 0
      let back := if d.get REC_LCTL.FORMAT l = 6 then max 8 w.w else 8
      let all := (g.insts.headD 0, g.k0, g.k) :: x.kept
      let d := d.updLane l fun x =>
        { x with
          seg := seg, wrote := d.now
          win := some { w with n := n + 1, refill := w.refill && decide (n + 1 < pre) }
          recent := (x.recent ++ [(n, g.insts)]).drop (x.recent.length + 1 - back)
          kept := if seg.isSome then all else all.take w.w
          marks := (x.marks.filter fun (i, _, _) => decide (n < i + w.w) || seg.isSome)
            ++ if g.holdover || g.degraded then [(n, g.holdover, g.degraded)] else [] }
      d.heldSync l

/-- A segment of lane `l` has ended in sample frame `k`: the unit that opened it is no longer busy with it (R130). -/
def Dev.unitSegEnd (d : Dev) (u l k : Nat) : Dev :=
  d.setTrg (d.trg.upd u fun x =>
    { x with running := x.running.map fun (a, e) => if a = l then (a, min e k) else (a, e) })

/-- The record of the open segment (R162): the granules `first` to `stop` of its window are kept, and its last granule lacks
`short` items. -/
def Dev.segRecord (d : Dev) (l how : Nat) (x : Lane) (w : Win) (s : Seg) (first stop short : Nat) : Rec :=
  let ipg := d.laneItems l
  let m := stop - first
  let late := x.marks.filter fun (i, _, _) => decide (first ≤ i) && decide (i < stop)
  let mine := (x.kept.drop (w.n - stop)).take m
  { time := s.time, maskfail := s.maskfail, truncated := s.truncated || how == 1
    clocklost := s.clocklost || how == 2
    holdover := s.time.toNat / 2 ^ 90 % 2 == 1 || late.any fun (_, h, _) => h
    degraded := late.any fun (_, _, g) => g
    wrapped := s.wrapped, tu := s.tu, lane := l, segnum := s.segnum, format := d.get REC_LCTL.FORMAT l
    start := w.alloc + first % max 1 w.w * d.granuleSize l, skein := d.get REC_LCTL.SKEIN l, alloc := w.alloc
    allocBytes := w.w * d.granuleSize l, length := m * ipg - short, tag := s.tag
    preCount := match s.t with
      | some _ => s.p * ipg + s.off
      | none => m * ipg - short
    k0 := mine.foldl (fun a g => min a g.2.1) ((mine.map fun g => g.2.1).headD 0)
    k1 := mine.foldl (fun a g => max a g.2.2) 0 }

/-- The open segment of lane `l` ends (R159): 0 its POST granules are complete, 1 TRUNCATED, 2 CLOCKLOST, 3 an
open-ended segment closed. Its record waits for the store's acknowledgement (R163); a request that stays becomes active again
with the next sample frame (R151). -/
def Dev.laneEndSeg (d : Dev) (l how : Nat) : Dev :=
  let x := d.lanes.lane.get l
  match x.win, x.seg with
  | some w, some s =>
    let first := match s.t with
      | some t => t - s.p
      | none => w.n - min s.p w.n
    let stop := match s.t with
      | some t => if s.post = openEnded then w.n else min w.n (t + s.post)
      | none => w.n
    let short := match x.recent.getLast? with
      | some (i, insts) => if i + 1 = stop then d.laneItems l - insts.length else 0
      | none => 0
    let r := d.segRecord l how x w s first stop short
    let k := d.get REC_LCTL.SKEIN l
    let d := d.heldSync l
    let d := d.updSkein k fun y => { y with held := y.held.map fun h =>
      if h.record.segnum = s.segnum ∧ ! h.ended then
        { h with record := r, ended := true, slot := first % max 1 w.w, m := stop - first } else h }
    let last := match x.kept with
      | g :: _ => g.2.2
      | [] => 0
    let d := d.updLane l fun x =>
      { x.emptied with seg := none, win := none, cut := none, await := x.await ++ [r]
                       actAt := some ((if how = 0 then x.wrote else d.now) + 1) }
    (d.unitSegEnd s.tu l last).skeinOldest k
  | _, _ => d

/-- After the last segment of a lane that a mask stop closes, its requests end (R161). -/
def Dev.maskStopDone (d : Dev) (l : Nat) : Dev :=
  let x := d.lanes.lane.get l
  if x.maskStop && x.seg.isNone then d.laneCloseAll l 4 else d

/-- A lane without a request takes nothing. -/
def Dev.laneRested (d : Dev) (l : Nat) : Dev :=
  let x := d.lanes.lane.get l
  if x.cur.isNone && x.queue.isEmpty && x.seg.isNone then d.updLane l fun x => { x with actAt := none, pool := [] } else d

/-- A segment whose POST granules are complete ends and uses one repeat; a mask stop closes the requests after it (R161). -/
def Dev.laneComplete (d : Dev) (l : Nat) : Dev :=
  if (d.lanes.lane.get l).complete then
    let d := (d.laneEndSeg l 0).updLane l fun x =>
      { x with cur := match x.cur with
          | some q => if q.left ≤ 1 then none else some { q with left := q.left - 1 }
          | none => none }
    (d.maskStopDone l).laneRested l
  else d

/-- The open segment ends normally (R159). -/
def Dev.segmentEndEff (l : Nat) (d : Dev) : Dev := d.laneComplete l

/-! ### The backlog of a lane (R155, R310) -/

/-- The lane's next granule has to wait: the skein's next bytes are not yet released by the hoist (R155). -/
def Dev.laneBlocked (d : Dev) (l : Nat) : Bool :=
  let x := d.lanes.lane.get l
  let s := d.laneSkein l
  match x.seg, x.win with
  | some g, some w =>
    s.policy == 2 && (g.fifoAt w.w w.n).isSome
      && (s.held.flatMap Held.regions).any fun r => meets r.1 r.2 (d.granulePos l w (some g)) (d.granuleSize l)
  | _, _ => false

/-- Every granule of a segment that is being cut has been written. -/
def Lane.cutDone (x : Lane) : Bool := match x.cut with
  | some c => c.left == 0
  | none => false

/-- Write the granules of the lane's backlog while its window takes them. -/
def Dev.poolDrain (d : Dev) (l : Nat) : Nat → Dev
  | 0 => d
  | n + 1 =>
    let x := d.lanes.lane.get l
    match x.pool with
    | g :: t =>
      if x.win.isNone || x.complete || x.cutDone || d.laneBlocked l then d
      else
        let d := d.updLane l fun x => { x with pool := t, cut := x.cut.map fun c => { c with left := c.left - 1 } }
        (d.laneWrite l g).poolDrain l n
    | [] => d

/-- A cut segment ends once its granules are written; the requests that ended with it leave their CLOSE records (R159). -/
def Dev.cutFinish (d : Dev) (l : Nat) : Dev :=
  let x := d.lanes.lane.get l
  match x.cut with
  | some c =>
    if c.left = 0 then
      let d := d.laneEndSeg l c.how
      ((c.reqs.foldl (fun d q => d.laneClose l c.outcome c.frame q) d).maskStopDone l).laneRested l
    else d
  | none => d

/-- The lane's backlog goes to the store as far as it can: segments end on the way, and the next request fills from the sample
frame after the last one of the segment before it (R151). -/
def Dev.poolFlow (d : Dev) (l : Nat) : Nat → Dev
  | 0 => d
  | n + 1 =>
    let d := (((d.poolDrain l (d.lanes.lane.get l).pool.length).laneComplete l).cutFinish l).laneRested l
    let x := d.lanes.lane.get l
    if x.pool.isEmpty || x.win.isSome then d else (d.laneActivate l).poolFlow l n

/-- The lane's turn in a frame: its backlog moves on unless its store takes nothing, and a request that is due is active. -/
def Dev.laneTurn (d : Dev) (l : Nat) : Dev :=
  let x := d.lanes.lane.get l
  let d := if d.lanes.stalled.testBit l || x.dropping then (d.laneComplete l).cutFinish l
    else d.poolFlow l (x.pool.length + 1)
  match (d.lanes.lane.get l).actAt with
  | some t => if t ≤ d.now then d.laneActivate l else d
  | none => d

/-- The items of a decimation unit that the lane has not got yet and that end in sample frame `b` or before join its backlog
(R159, R180; log entry 62). -/
def Dev.laneTail (d : Dev) (l b : Nat) : Dev :=
  let src := d.get REC_LCTL.SRC l
  let x := d.lanes.lane.get l
  if 0x10 ≤ src ∧ src < 0x20 ∧ x.seg.isSome ∧ ! x.dropping then
    let u := d.dec.unit.get (src - 0x10)
    let items := u.runs.foldl (fun a r =>
      let t := r.tail (src - 0x10) b
      if t.isEmpty then a else if r.fresh (src - 0x10) then t else a ++ t) u.part
    d.updLane l fun x => { x with pool := x.pool ++ decGranules (d.get REC_LCTL.FORMAT l) items }
  else d

/-- The lane's open segment ends early (R159): as `laneEndSeg` says, once its backlog is written, and with it the requests `reqs`,
whose CLOSE records follow it. -/
def Dev.laneCut (d : Dev) (l how outcome : Nat) (reqs : List Req) : Dev :=
  let d := (d.poolDrain l (d.lanes.lane.get l).pool.length).laneComplete l
  let x := d.lanes.lane.get l
  if x.seg.isSome then
    (d.updLane l fun x => { x with cut := some ⟨how, outcome, reqs, d.now, x.pool.length⟩ }).cutFinish l
  else d

/-- BINDOFF, FLUSH, a clear of EN, a change of source or a reset ends the open segment and every request (R159): an open segment
that is cut short uses its repeat, and an open-ended one is TRUNCATED only where `cut` says so. The last item kept is that of sample
frame `b`; with none it is the last one written. -/
def Dev.laneStop (d : Dev) (l outcome : Nat) (cut : Bool) (b : Option Nat) : Dev :=
  let d := match b with
    | some b => (d.laneTail l b).poolDrain l ((d.laneTail l b).lanes.lane.get l).pool.length
    | none => d.updLane l fun x => { x with pool := [] }
  let d := d.laneComplete l
  let x := d.lanes.lane.get l
  match x.seg with
  | some s =>
    if x.cut.isSome then
      let reqs := x.cur.toList ++ x.queue
      let d := d.updLane l fun x =>
        let cut := x.cut.map fun c => if c.reqs.isEmpty then { c with outcome := outcome, reqs := reqs, frame := d.now }
          else { c with reqs := c.reqs ++ reqs }
        { x with cur := none, queue := [], actAt := none, cut := cut }
      d.cutFinish l
    else
      -- a drop run has ended the segment already, without a repeat
      let used := if x.dropping then 0 else 1
      let reqs := (x.cur.map fun q => { q with left := q.left - used }).toList ++ x.queue
      (d.updLane l fun x => { x with cur := none, queue := [], actAt := none }).laneCut l
        (if s.post = openEnded ∧ ! cut ∧ ! x.dropping then 3 else 1) outcome reqs
  | none => d.laneCloseAll l outcome

/-- A mask stop takes effect at the lane (R161): at once when no segment is open. -/
def Dev.laneMaskStop (d : Dev) (l : Nat) : Dev :=
  (d.updLane l fun x => { x with maskStop := true }).maskStopDone l

/-! ### Enable and disable (R148, R159, R495) -/

/-- The first check of R495 that fails, as its CFG_ERR; 0 when all pass. -/
def Dev.laneCfg (d : Dev) (l : Nat) : Nat :=
  let src := d.get REC_LCTL.SRC l
  let k := d.get REC_LCTL.SKEIN l
  let s := d.lanes.skein.get k
  if ! laneSourceOk src then 4
  else if ! d.laneFormatOk src (d.get REC_LCTL.FORMAT l) then 2
  else if ! s.defined || (List.range 16).any fun m =>
      m != l && d.flag REC_LCTL.EN m && d.get REC_LCTL.SKEIN m == k then 1
  else if s.policy = 2 ∧ (s.store ≠ 0 ∨ ! d.flag BEN_HT_CTL.EN s.tgt) then 3
  else if d.get QUE_CFG.TYPE (d.get REC_LQUEUE.Q l) ≠ 2 then 5
  else 0

/-- A write of REC_LCTL with EN set (R495); the other fields are written with it while EN is 0. -/
def Dev.laneEnableEff (l : Nat) (v : W32) (d : Dev) : Dev :=
  if d.flag REC_LCTL.EN l then d
  else
    let d := (d.wr ⟨.REC_LCTL, l, 0, 0⟩ (v.setWidth 64)).putb REC_LCTL.EN false l
    let e := d.laneCfg l
    let d := d.put REC_LSTAT.CFG_ERR e l
    if e = 0 then
      (d.putb REC_LCTL.EN true l).updLane l fun x =>
        { x with sawValid := false, lossMark := false, dropMark := false, maskStop := false, gap := false }
    else d

/-- BEN_STAT.DROPPING: some lane is in a drop run (R310). -/
def Dev.dropShow (d : Dev) : Dev :=
  d.putb BEN_STAT.DROPPING ((List.range 16).any fun m => (d.lanes.lane.get m).dropping)

/-- EN of a lane is 0 from now on: its drop run is over. -/
def Dev.laneOff (d : Dev) (l : Nat) : Dev :=
  ((d.putb REC_LCTL.EN false l).updLane l fun x =>
    { x with dropping := false, pool := if x.cut.isSome then x.pool else [] }).dropShow

/-- The item rate of a lane's source changes at sample frame `c` while the lane is enabled (R159). -/
def Dev.laneSourceChange (d : Dev) (l c : Nat) : Dev :=
  if d.flag REC_LCTL.EN l then ((d.laneStop l 6 true (some (c - 1))).laneOff l).put REC_LSTAT.CFG_ERR 4 l
  else d

/-! ### Requests (R149, R150) -/

/-- The first condition of R150 that holds, as its RESULT; 1 is ACCEPTED. -/
def Dev.reqResult (d : Dev) (l issuer pre post rep : Nat) : Nat :=
  let owner := if d.get REC_LCTL.OWNER l ≤ 16 then d.get REC_LCTL.OWNER l else 0
  let pol := (d.laneSkein l).policy
  if ! d.laneReady l then 2
  else if issuer ≠ owner then 3
  else if 16 ≤ (d.lanes.lane.get l).queue.length then 4
  else if d.flag REC_LSTAT.FULL l then 5
  else if post = 0 then 6
  else if d.laneC l - 1 < pre then 6
  else if pol ≤ 1 ∧ (post = openEnded ∨ d.laneC l < post) then 6
  else if post = openEnded ∧ 1 < rep then 6
  else 1

/-- A request is issued at lane `l`: accepted into its queue, where with nothing before it it becomes active in the next frame
(R151), or refused (R150). -/
def Dev.laneRequest (d : Dev) (l issuer tu pre post rep tag : Nat) : Dev :=
  if d.reqResult l issuer pre post rep = 1 then
    d.updLane l fun x =>
      { x with queue := x.queue ++ [⟨tu, pre, post, tag, max 1 rep⟩]
               actAt := if x.queue.isEmpty && x.cur.isNone && x.seg.isNone && x.actAt.isNone then some (d.now + 1) else x.actAt }
  else (d.count REC_CNT_REFUSED.COUNT l).raise (162 + 4 * l)

/-- The issuer number of a requester: 0 the host, 1 to 16 the needles (R168). -/
def issuerOf : Rq → Nat
  | .needle n => n.val + 1
  | _ => 0

/-- A write of REC_REQ_CTL with GO set (R149, R150). -/
def Dev.segmentRequestEff (rq : Rq) (l : Nat) (v : W32) (d : Dev) : Dev :=
  let d := d.wr ⟨.REC_REQ_CTL, l, 0, 0⟩ (v.setWidth 64)
  let pre := d.get REC_REQ_PRE.PRE l
  let post := d.get REC_REQ_POST.POST l
  let rep := d.get REC_REQ_REPEAT.REPEAT l
  let r := d.reqResult l (issuerOf rq) pre post rep
  (d.laneRequest l (issuerOf rq) (d.get REC_REQ_CTL.TU l) pre post rep (d.get REC_REQ_CTL.TAG l)).put
    REC_REQ_STAT.RESULT r l

/-! ### Granules (R154, R310, R311) -/

/-- A granule is lost: the frames that it stands for count for its lane and for the bench, with the TICK of the first one (R311). A
frame of a drop run counts once. -/
def Dev.granuleDrop (d : Dev) (l : Nat) (g : Granule) : Dev :=
  let x := d.lanes.lane.get l
  let from_ := if x.dropping then x.dropK + 1 else g.insts.headD 0 / 4194304
  let n := g.k + 1 - from_
  let d := if d.get BEN_CNT_DROPFR.COUNT = 0 then d.put BEN_DROP_FIRST.TICK d.tick else d
  ((d.count REC_CNT_DROPFR.COUNT l 0 n).count BEN_CNT_DROPFR.COUNT 0 0 n).updLane l fun x =>
    { x with dropping := true, dropK := max g.k (if x.dropping then x.dropK else 0) }

/-- After the last item before a drop run, the open segment ends TRUNCATED; a request that was filling fills again
(R311). The request stays active and the segment uses no repeat. -/
def Dev.dropCut (d : Dev) (l : Nat) : Dev :=
  let x := d.lanes.lane.get l
  if x.seg.isSome then ((d.laneEndSeg l 1).updLane l fun x => { x with dropMark := true, gap := true }).maskStopDone l
  else d.updLane l fun x =>
    let again := ((x.cur.map Req.pre).getD 0 != 0)
    { x.emptied with gap := true, win := x.win.map fun w => { w with n := 0, refill := again } }

/-- A granule waits in the pool, or is dropped (R310). -/
def Dev.poolTake (d : Dev) (l : Nat) (g : Granule) : Dev :=
  let used := d.poolUsed
  let high := (d.get BEN_STAGE_CTL.LANE_HIGH).testBit l
  let drop := decide (poolSize < used + g.bytes.length)
    || (decide (d.get BEN_STAGE_CTL.LOW_DROP * poolSize ≤ used * 256) && ! high)
  if drop then
    let empty := (d.lanes.lane.get l).pool.isEmpty
    let d := ((d.granuleDrop l g).putb BEN_STAT.DROPPING true).raise 467
    if empty then d.dropCut l else d
  else d.updLane l fun x => { x with pool := x.pool ++ [g] }

/-- A granule of the lane's source arrives (R310): written, kept in the pool, or dropped. -/
def Dev.laneGranule (d : Dev) (l : Nat) (g : Granule) : Dev :=
  let d := (d.updLane l fun x => { x with sawValid := true }).laneTurn l
  let x := d.lanes.lane.get l
  if x.dropping then d.granuleDrop l g
  else
    match x.win with
    | none => if x.pool.isEmpty then d else d.poolTake l g
    | some w =>
      if w.waiting then d
      else
        let d := if x.gap then
            d.updLane l fun x => { x with gap := false, win := some { w with origin := g.insts.headD 0 / 4194304 } }
          else d
        if x.cut.isSome && x.cur.isNone && x.queue.isEmpty then d
        else if d.lanes.stalled.testBit l || ! x.pool.isEmpty || d.laneBlocked l then d.poolTake l g
        else d.laneWrite l g

/-- The lane's backlog has drained to zero: the drop run ends at this frame (R310). -/
def Dev.dropRunEndEff (l : Nat) (d : Dev) : Dev :=
  let x := d.lanes.lane.get l
  if ! x.dropping then d
  else
    let d := d.poolFlow l (x.pool.length + 1)
    if ! (d.lanes.lane.get l).pool.isEmpty then d
    else
      let d := if x.pool.isEmpty then d else d.dropCut l
      (d.updLane l fun x => { x with dropping := false }).dropShow

/-- An invalid frame `k` of its source reaches the lane (R106, R159). -/
def Dev.laneLoss (d : Dev) (l k : Nat) : Dev :=
  let x := d.lanes.lane.get l
  if x.gap then d
  else if ! x.sawValid then
    d.updLane l fun x => { x with gap := true, win := x.win.map fun w => { w with n := 0 } }
  else
    let d := if x.seg.isSome && x.cut.isNone then (d.laneTail l (k - 1)).laneCut l (if x.dropping then 1 else 2) 0 [] else d
    (d.updLane l fun x => if x.seg.isSome then { x with lossMark := true, gap := true }
      else { x.emptied with lossMark := true, gap := true, pool := [], win := x.win.map fun w => { w with n := 0 } }).maskStopDone l

/-- The granule that lane `l` makes of a frame of its channel (R144, R145). -/
def Dev.frameGranule (d : Dev) (l : Nat) (f : Frame) : Granule :=
  let fmt := d.get REC_LCTL.FORMAT l
  ⟨packGranule fmt (f.samples.map (formatSample fmt)), (List.range 64).map fun i => (f.k * 64 + i) * 65536, f.k, f.k,
    f.holdover, f.degraded⟩

/-- The granule of a frame of logic samples (R144, R145), with HOLDOVER where it was taken in HOLDOVER or SLEWING (R111). -/
def Dev.logicGranule (d : Dev) (f : LogicFrame) : Granule :=
  let n := f.samples.length
  ⟨packGranule 5 (f.samples.map (·.toNat)), (List.range n).map fun i => (f.k * 64 + 64 / max 1 n * i) * 65536, f.k, f.k,
    (d.epochAt f.k).holdover, false⟩

/-- The level at input `b`'s pad of group `g` at logic sample `m`, counted from frame 0 with `n` to a frame (R218). -/
def Dev.padLevel (d : Dev) (g n b : Nat) (m : Int) : Bool :=
  match (d.logic.get g).find? fun f => (f.k : Int) == m / n && f.samples.length == n with
  | some f => (f.samples.getD (m % n).toNat 0).getLsbD b
  | none => Config.missingLevel (16 * g + b) m

/-- The logic samples of a frame: at each tick the levels that its pads show as much later as the inputs' delays say (R218;
DESIGN CHOICE, log entry 20). -/
def Dev.logicFrame (d : Dev) (g : Nat) (f : LogicFrame) : LogicFrame :=
  let n := f.samples.length
  { f with samples := (List.range n).map fun j =>
      BitVec.ofNat 16 ((List.range 16).map fun b =>
        (d.padLevel g n b ((f.k * n + j : Nat) + f.shift.getD b 0)).toNat * 2 ^ b).sum }

/-- Sample frame `k` reaches lane `l` from the stage store; a frame that its source has not delivered is lost like an invalid one
(R106). -/
def Dev.laneFrame (d : Dev) (k l : Nat) : Dev :=
  let src := d.get REC_LCTL.SRC l
  if ! d.flag REC_LCTL.EN l then d
  else if src < 4 then
    match (d.path.get src).delay.find? fun f => f.k == k with
    | some f => if f.valid then d.laneGranule l (d.frameGranule l f) else d.laneLoss l k
    | none => d.laneLoss l k
  else if 0x20 ≤ src ∧ src < 0x28 then
    match (d.logic.get (src - 0x20)).find? fun f => f.k == k with
    | some f => if f.samples.isEmpty then d.laneLoss l k else d.laneGranule l (d.logicGranule (d.logicFrame (src - 0x20) f))
    | none => d.laneLoss l k
  else d

/-! ### Records leave (R163, R165) -/

/-- A bound job has still to give a verdict on a sample frame of the segment, in its record of the same trigger: no SEGMENT record is
placed before it (R208). -/
def Dev.verdictDue (d : Dev) (l : Nat) (r : Rec) : Bool :=
  (List.range 8).any fun j =>
    let x := d.tal.job.get j
    d.flag TAL_MASK_CTL.EN j && d.flag TAL_MASK_CTL.LANE_EN j && d.get TAL_MASK_CTL.LANE j == l
      && ((x.trig.any fun t => t.2.1 == r.time && t.2.2 == some r.segnum)
        || x.verdicts.any fun v => v.record.time == r.time && v.record.seg == some r.segnum
          && decide (r.k0 ≤ v.k) && decide (v.k ≤ r.k1))

/-- The store has acknowledged every write of the lane's oldest waiting segment: its record is placed (R163). -/
def Dev.segmentRecordEff (l : Nat) (d : Dev) : Dev :=
  match (d.lanes.lane.get l).await with
  | r :: t =>
    if r.kind ≠ 0 ∨ d.verdictDue l r then d
    else
      let d := d.updLane l fun x => { x with await := t }
      let d := d.updSkein r.skein fun s => { s with held := s.held.map fun h =>
        if h.record.segnum = r.segnum ∧ h.record.lane = l then { h with record := r, recorded := true } else h }
      let d := d.bump REC_CNT_SEG.COUNT l
      let d := if r.truncated then (d.count REC_CNT_TRUNC.COUNT l).raise (163 + 4 * l) else d
      (d.recPlace r).closesOut l
  | [] => d

/-- A drain frame (R165), by the frame number of the count. -/
def drainFrame (k : Nat) : Bool := decide (8 * k / 25 < 8 * (k + 1) / 25)

/-- The first drain frame at or after frame `k`; some frame of any four is one. -/
def Dev.nextDrain (d : Dev) (k : Nat) : Nat :=
  match (List.range 4).find? fun i => drainFrame (d.countAt (k + i) % 2 ^ 64 / 64) with
  | some i => k + i
  | none => k + 4

/-- In the next drain frame the oldest completed record passes to its lane's record queue (R165). -/
def Dev.recordDrainEff (d : Dev) : Dev :=
  match d.lanes.done with
  | [] => d
  | r :: t =>
    let start := match d.lanes.lastDrain with
      | some k => max d.now (k + 1)
      | none => d.now
    let d := d.advanceTo (d.nextDrain start)
    let d := d.setLanes { d.lanes with done := t, lastDrain := some d.now }
    d.post (d.get REC_LQUEUE.Q r.lane) 2 0 r.lane r.bytes

/-- A CLOSE record that waited takes a record-buffer entry (R165). -/
def Dev.closeEntryFreedEff (l : Nat) (d : Dev) : Dev :=
  match (d.lanes.lane.get l).noEntry with
  | r :: t =>
    if d.rbUsed < recordEntries then
      (d.updLane l fun x => { x with noEntry := t, await := x.await ++ [r] }).closesOut l
    else d
  | [] => d

/-! ### Skein definitions (R146, R155) -/

/-- The first check of R146 that fails, as its DEF_RESULT; 1 is DEFINED. -/
def Dev.skeinResult (d : Dev) (k : Nat) : Nat :=
  let st := d.get REC_SKN_BASE.STORE k
  let base := d.get REC_SKN_BASE.OFS k
  let size := d.get REC_SKN_SIZE.BYTES k
  let pol := d.get REC_SKN_CTL.POLICY k
  if (d.boundLane k).isSome then 2
  else if base % 4096 ≠ 0 ∨ size % 4096 ≠ 0 ∨ size < 4096 then 3
  else if 3 ≤ st ∨ d.storeSize st < base + size then 4
  else if pol = 3 ∨ (pol = 2 ∧ st ≠ 0) then 5
  else if d.skeinMeetsBut (some k) st base size || d.tallyMeets st base size then 6
  else 1

/-- A write of REC_SKN_CTL.DEFINE (R146). -/
def Dev.skeinDefineEff (k : Nat) (d : Dev) : Dev :=
  let r := d.skeinResult k
  let d := d.put REC_SKN_CTL.DEF_RESULT r k
  if r = 1 then
    let s : Skein := { defined := true, store := d.get REC_SKN_BASE.STORE k, base := d.get REC_SKN_BASE.OFS k
                       size := d.get REC_SKN_SIZE.BYTES k, policy := d.get REC_SKN_CTL.POLICY k
                       tgt := d.get REC_SKN_CTL.HOIST_TGT k }
    (((d.put REC_SKN_CP.BYTES 0 k).putb REC_SKN_OLDEST.VALID false k).updSkein k fun _ => s).retireRecheck
  else d

/-- A write of REC_SKN_CTL.REWIND (R155). -/
def Dev.skeinRewindEff (k : Nat) (d : Dev) : Dev :=
  let s := d.lanes.skein.get k
  if ! s.defined ∨ s.policy ≠ 0 then d.put REC_SKN_CTL.DEF_RESULT 5 k
  else
    let busy := match d.boundLane k with
      | some l => (d.lanes.lane.get l).seg.isSome || (d.lanes.lane.get l).win.isSome
      | none => false
    if busy then d.put REC_SKN_CTL.DEF_RESULT 2 k
    else
      let d := (d.put REC_SKN_CP.BYTES 0 k).updSkein k fun s => { s with held := [] }
      let d := (d.skeinOldest k).put REC_SKN_CTL.DEF_RESULT 1 k
      match d.boundLane k with
      | some l => d.putb REC_LSTAT.FULL false l
      | none => d

end Sys2Proof.Machine
end

