-- ==== Sys2Proof/Machine/Placement.lean ====
section
/-!
DEFINITION. The real-valued filters of the spec, computed with integers: the Kaiser-windowed sinc whose normalised
coefficients R84 and R125 give, and the placement of a crossing (R125, R126).

Every tap of one filter carries the same factor sin(πx)/π with the sign (-1)^j, and the same 1/I0(7), so both cancel in
the normalised coefficient. What is left of tap j is (-1)^j I0(7 sqrt(1 - (t/8.5)^2)) / t, and the series of I0 needs
the square of its argument only. The series is summed with 128 bits after the point (DEDUCED, log entry 10).
-/
namespace Sys2Proof.Machine

/-- 2^128, the scale of the fixed-point numbers here. -/
def fixOne : Nat := 2 ^ 128

/-- The terms of I0(z) = sum of (z²/4)^k / (k!)², from term `k` on; `y` is z²/4 and `term` the present term, scaled. -/
def besselTerms (y term k : Nat) : Nat → Nat
  | 0 => term
  | n + 1 => term + besselTerms y (term * y / fixOne / ((k + 1) * (k + 1))) (k + 1) n

/-- I0(7 sqrt(1 - (t/8.5)²)) for t = num/den, scaled: z²/4 = 12.25 (1 - t²/72.25). -/
def kaiser (num : Int) (den : Nat) : Nat :=
  let t2 := num.natAbs * num.natAbs
  let y := (49 * fixOne / 4) - (49 * fixOne * t2 * 4) / (4 * 289 * (den * den))
  besselTerms y fixOne 0 60

/-- Tap j of the sinc at t = num/den (num not 0), without the common factor: (-1)^j w(t) / t, scaled. -/
def sincTap (j : Int) (num : Int) (den : Nat) : Int :=
  let v : Int := ((kaiser num den * den : Nat) : Int) / num
  if j % 2 = 0 then v else -v

/-- Normalised coefficients: each tap's share of `unit`, rounded, but tap `fix`, which takes the rest. -/
def normTaps (unit : Int) (fix : Int) (taps : List (Int × Int)) : List (Int × Int) :=
  let s := (taps.map Prod.snd).sum
  let r := taps.map fun (j, v) => (j, if j = fix then 0 else if 0 ≤ s then roundAway (unit * v) s
    else roundAway (unit * (-v)) (-s))
  r.map fun (j, v) => (j, if j = fix then unit - (r.map Prod.snd).sum else v)

/-! ### Sines (R89, R281) -/

/-- π, with 128 bits after the point (DEDUCED, log entry 10). -/
def piFix : Nat := 0x3243F6A8885A308D313198A2E03707344

/-- The terms of the sine's series from `term` on, for the square `x2` of the argument, scaled by 2^128. -/
def sineTerms (x2 : Nat) : Nat → Nat → Int → Int
  | 0, _, term => term
  | n + 1, k, term => term + sineTerms x2 n (k + 1) (-(term * (x2 : Int) / 2 ^ 128 / ((2 * k + 2) * (2 * k + 3) : Nat)))

/-- The sine of a quarter turn's fraction `r` / 2^49, scaled by 2^128. -/
def quarterSin (r : Nat) : Int :=
  let x := piFix * r / 2 ^ 50
  sineTerms (x * x / 2 ^ 128) 30 0 x

/-- The sine of `x` / 2^51 of a turn, scaled by 2^128. -/
def turnSin (x : Nat) : Int :=
  let r := x % 2 ^ 49
  match x / 2 ^ 49 % 4 with
  | 0 => quarterSin r
  | 1 => quarterSin (2 ^ 49 - r)
  | 2 => - quarterSin r
  | _ => - quarterSin (2 ^ 49 - r)

/-- The cosine. -/
def turnCos (x : Nat) : Int := turnSin (x + 2 ^ 49)

/-- The direction of (p, q) above the axis, by its bits below 2^`n`. -/
def turnBits (p q : Int) : Nat → Nat → Nat
  | 0, x => x
  | n + 1, x =>
    let t := x + 2 ^ n
    turnBits p q n (if turnSin t * p ≤ turnCos t * q then t else x)

/-- The angle whose cosine and sine are as `p` to `q`, in 2^-51 of a turn. -/
def turnOf (p q : Int) : Nat :=
  if 0 < q || (q == 0 && decide (0 ≤ p)) then turnBits p q 50 0 else 2 ^ 50 + turnBits (-p) (-q) 50 0

/-! ### Placement (R125-R127) -/

/-- The coefficients C[k][j], j = -7 .. 8, for sub-position k/64 (R125). -/
def placeCoef (k : Int) : List (Int × Int) :=
  let js := (List.range 16).map fun (i : Nat) => (i : Int) - 7
  if k = 0 then js.map fun j => (j, if j = 0 then 1048576 else 0)
  else if k = 64 then js.map fun j => (j, if j = 1 then 1048576 else 0)
  else
    let jc : Int := if k ≤ 32 then 0 else 1
    normTaps 1048576 jc (js.map fun j => (j, sincTap j (64 * j - k) 64))

/-- v[k] of R125, in 1/256 count; `x j` is sample s - 1 + j. -/
def placeValue (x : Int → Int) (k : Int) : Int :=
  roundAway (256 * ((placeCoef k).map fun (j, c) => c * x j).sum) 1048576

/-- The test of R116 that a change completes, on a value in units of 1/`scale` count. -/
def meetsTest (arrive fall : Bool) (level hyst y scale : Int) : Bool :=
  match arrive, fall with
  | true, false => decide (level * scale ≤ y)
  | false, false => decide (y < (level - hyst) * scale)
  | true, true => decide (y ≤ level * scale)
  | false, true => decide ((level + hyst) * scale < y)

/-- 6 · 1024³ times the cubic through (-1, a), (0, b), (1, c), (2, e) at m/1024 (R126). -/
def cubic (a b c e m : Int) : Int :=
  let n : Int := 1024
  (0 - a) * m * (m - n) * (m - 2 * n) + 3 * b * (m + n) * (m - n) * (m - 2 * n)
    - 3 * c * (m + n) * m * (m - 2 * n) + e * (m + n) * m * (m - n)

/-- The ten bisections of R126, on numbers in 1/1,024; the result is the final hi. -/
def bisect (p : Int → Bool) : Nat → Int → Int → Int
  | 0, _, hi => hi
  | n + 1, lo, hi =>
    let mid := (lo + hi) / 2
    if p mid then bisect p n lo mid else bisect p n mid hi

/-- The place P of a crossing after sample s - 1, in 1/65,536 sample (R125, R126). -/
def placeCrossing (arrive fall : Bool) (level hyst : Int) (x : Int → Int) : Nat :=
  let v := fun k => placeValue x k
  let ks := ((List.range 64).find? fun (i : Nat) => meetsTest arrive fall level hyst (v ((i : Int) + 1)) 256).getD 63
  let k : Int := (ks : Int) + 1
  let a := v (k - 2)
  let b := v (k - 1)
  let c := v k
  let e := v (k + 1)
  let hi := bisect (fun m => meetsTest arrive fall level hyst (cubic a b c e m) (256 * 6 * 1024 ^ 3)) 10 0 1024
  (1024 * (k - 1) + hi).toNat

end Sys2Proof.Machine
end

