-- ==== Sys2Proof/Machine/Trigger.lean ====
section
/-!
DEFINITION. Trigger units (05_trigger_units.md R116-R142): comparators, the changes of sources, the condition slots,
the sequence, holdoff, acceptance, arming and profiles.
-/
namespace Sys2Proof.Machine

/-- Change unit `u`. -/
def Dev.updUnit (d : Dev) (u : Nat) (f : TrigUnit → TrigUnit) : Dev := d.setTrg (d.trg.upd u f)

/-- Put a control among those that wait, behind the ones of its sample frame. -/
def insertCtl (c : Nat × Ctl) : List (Nat × Ctl) → List (Nat × Ctl)
  | [] => [c]
  | y :: t => if c.1 < y.1 then c :: y :: t else y :: insertCtl c t

/-- The sample frame at the unit in the current frame (R119). -/
def Dev.frameAtUnit (d : Dev) : Nat := d.now - 150

/-- The frame of the first sample at or after an instant (R120). -/
def trigFrame (inst : Nat) : Nat := (inst + 65535) / 65536 / 64

/-! ### Profiles (R137-R140) -/

/-- A condition slot of a bank. -/
def Dev.slotCfg (d : Dev) (u : Nat) (typ cond inv either qual src t1 t2 : Fld) : SlotCfg :=
  ⟨d.get typ u, d.get cond u, d.flag inv u, d.flag either u, d.flag qual u, d.get src u, d.get t1 u, d.get t2 u⟩

/-- The active bank as a profile. -/
def Dev.activeProfile (d : Dev) (u : Nat) : Profile :=
  { a := d.slotCfg u TRG_SLOTA_ACT.TYPE TRG_SLOTA_ACT.COND TRG_SLOTA_ACT.INV TRG_SLOTA_ACT.EITHER TRG_SLOTA_ACT.QUAL
      TRG_SLOTA_ACT.SRC TRG_SLOTA_T1_ACT.TIME TRG_SLOTA_T2_ACT.TIME
    b := d.slotCfg u TRG_SLOTB_ACT.TYPE TRG_SLOTB_ACT.COND TRG_SLOTB_ACT.INV TRG_SLOTB_ACT.EITHER TRG_SLOTB_ACT.QUAL
      TRG_SLOTB_ACT.SRC TRG_SLOTB_T1_ACT.TIME TRG_SLOTB_T2_ACT.TIME
    seqEn := d.flag TRG_SEQ_ACT.EN u, dlyCount := d.flag TRG_SEQ_ACT.DLY_KIND u
    restart := d.flag TRG_SEQ_ACT.RESTART u, rstEn := d.flag TRG_SEQ_ACT.RST_EN u
    rstSrc := d.get TRG_SEQ_ACT.RST_SRC u, seqN := d.get TRG_SEQ_ACT.N u, seqDly := d.get TRG_SEQ_DLY_ACT.TIME u
    holdKind := d.get TRG_HOLD_ACT.KIND u, holdCount := d.get TRG_HOLD_ACT.COUNT u
    holdT := d.get TRG_HOLD_T_ACT.TICKS u, holdMax := d.get TRG_HOLD_MAX_ACT.TICKS u
    clkSrc := d.get TRG_PAT_CTL_ACT.CLK_SRC u, clkInv := d.flag TRG_PAT_CTL_ACT.CLK_INV u
    patOr := d.flag TRG_PAT_CTL_ACT.OR u
    patMask := (List.range 5).map fun i => d.get TRG_PAT_MASK_ACT.BITS u i
    patVal := (List.range 5).map fun i => d.get TRG_PAT_VAL_ACT.BITS u i }

/-- The registers of a bank: the writable family, its active copy, and how many of each. -/
def bankRegs : List (Rg × Rg × Nat) :=
  [(.TRG_CMP, .TRG_CMP_ACT, 8), (.TRG_SLOTA, .TRG_SLOTA_ACT, 1), (.TRG_SLOTB, .TRG_SLOTB_ACT, 1),
   (.TRG_SLOTA_T1, .TRG_SLOTA_T1_ACT, 1), (.TRG_SLOTA_T2, .TRG_SLOTA_T2_ACT, 1),
   (.TRG_SLOTB_T1, .TRG_SLOTB_T1_ACT, 1), (.TRG_SLOTB_T2, .TRG_SLOTB_T2_ACT, 1), (.TRG_SEQ_DLY, .TRG_SEQ_DLY_ACT, 1),
   (.TRG_SEQ, .TRG_SEQ_ACT, 1), (.TRG_HOLD, .TRG_HOLD_ACT, 1), (.TRG_HOLD_T, .TRG_HOLD_T_ACT, 1),
   (.TRG_HOLD_MAX, .TRG_HOLD_MAX_ACT, 1), (.TRG_PAT_CTL, .TRG_PAT_CTL_ACT, 1),
   (.TRG_PAT_MASK, .TRG_PAT_MASK_ACT, 5), (.TRG_PAT_VAL, .TRG_PAT_VAL_ACT, 5)]

/-- The banks of unit `u` exchange roles, contents unchanged (R138). -/
def Dev.swapBanks (d : Dev) (u : Nat) : Dev :=
  bankRegs.foldl (fun d (g, h, n) => (List.range n).foldl (fun d j =>
    let a := d.rd ⟨g, u, j, 0⟩
    let b := d.rd ⟨h, u, j, 0⟩
    (d.wr ⟨g, u, j, 0⟩ b).wr ⟨h, u, j, 0⟩ a) d) d

/-- The kind of a source code (R118): 0 reserved, 1 analog, 2 level, 3 pulse, 4 instant. -/
def sourceKind (s : Nat) : Nat :=
  if s < 4 then 1
  else if 0x10 ≤ s ∧ s < 0xA0 then 2
  else if 0xA0 ≤ s ∧ s < 0xA3 then 2
  else if 0xB0 ≤ s ∧ s < 0xD4 then 3
  else if 0xE0 ≤ s ∧ s < 0xE3 then 4
  else 0

/-- A slot TYPE accepts the kind of its source (R120); 11 to 15 are reserved. -/
def typeAccepts (typ kind : Nat) : Bool :=
  match typ with
  | 0 => true
  | 1 => true
  | 2 | 3 | 5 | 6 => kind == 1
  | 4 | 8 => kind == 1 || kind == 2
  | 7 => kind != 4
  | 9 | 10 => true
  | _ => false

/-- The comparators of the slot's channel fit a WINDOW, RUNT or SLEW slot (R120). -/
def Dev.cmpRule (d : Dev) (u : Nat) (typ src : Nat) : Bool :=
  let sa := d.get TRG_CMP.SENSE u (2 * src)
  let sb := d.get TRG_CMP.SENSE u (2 * src + 1)
  let la := d.gets TRG_CMP.LEVEL u (2 * src)
  let lb := d.gets TRG_CMP.LEVEL u (2 * src + 1)
  match typ with
  | 2 | 3 => sa == 0 && sb == 1 && decide (lb < la)
  | 5 | 6 => sa == sb && (if sa = 0 then decide (lb < la) else decide (la < lb))
  | _ => true

/-- The inactive bank of unit `u` may become active (R140). -/
def Dev.bankValid (d : Dev) (u : Nat) : Bool :=
  let slot := fun (typ cond src t1 t2 : Fld) =>
    let s := d.get src u
    let k := sourceKind s
    k != 0 && typeAccepts (d.get typ u) k && d.cmpRule u (d.get typ u) s
      && ! (decide (2 ≤ d.get cond u) && decide (d.get t2 u < d.get t1 u))
  slot TRG_SLOTA.TYPE TRG_SLOTA.COND TRG_SLOTA.SRC TRG_SLOTA_T1.TIME TRG_SLOTA_T2.TIME
    && slot TRG_SLOTB.TYPE TRG_SLOTB.COND TRG_SLOTB.SRC TRG_SLOTB_T1.TIME TRG_SLOTB_T2.TIME
    && sourceKind (d.get TRG_SEQ.RST_SRC u) != 0 && sourceKind (d.get TRG_PAT_CTL.CLK_SRC u) != 0
    && ! (d.get TRG_HOLD.KIND u == 3 && decide (d.get TRG_HOLD_MAX.TICKS u < d.get TRG_HOLD_T.TICKS u))
    && ! (d.flag TRG_SEQ.EN u && (d.get TRG_SLOTA.TYPE u == 0 || d.get TRG_SLOTB.TYPE u == 0))

/-- A commit of a profile is refused (R137, R140). -/
def Dev.prfRefuse (d : Dev) (u why : Nat) : Dev :=
  ((d.put TRG_STAT.LAST_REFUSE why u).count TRG_PRF_DROP.REFUSED u).raise (101 + 8 * u)

/-- A write of TRG_PRF_COMMIT.GO (R137). -/
def Dev.prfCommitEff (u : Nat) (d : Dev) : Dev :=
  if (d.trg.get u).commit.isSome then d.prfRefuse u 1
  else if ! d.bankValid u then d.prfRefuse u 2
  else (d.updUnit u fun x => { x with commit := some d.now }).putb TRG_STAT.PRF_PENDING true u

/-- The profile switches at the sample frame at the unit in frame c + 4 (R137-R139). -/
def Dev.prfSwitchEff (u : Nat) (d : Dev) : Dev :=
  match (d.trg.get u).commit with
  | none => d
  | some c =>
    let d := (d.advanceTo (c + 4)).swapBanks u
    let p := d.activeProfile u
    let d := d.updUnit u fun x =>
      { x with commit := none, init := [true, true, true, true], ctl := insertCtl (d.frameAtUnit, .profile p) x.ctl }
    ((d.putb TRG_STAT.PRF_PENDING false u).put TRG_STAT.PRF_ACTIVE (1 - d.get TRG_STAT.PRF_ACTIVE u) u).raise
      (100 + 8 * u)

/-! ### Comparators (R116, R117) -/

/-- The result of running one comparator over samples: its Q and the numbers of the samples at which Q changed, with
the new Q. -/
def runComparator (fall : Bool) (level hyst : Int) : Bool → Nat → List Int → Bool × List (Nat × Bool)
  | q, _, [] => (q, [])
  | q, s, x :: t =>
    let q' := if q then ! meetsTest false fall level hyst x 1 else meetsTest true fall level hyst x 1
    let (r, l) := runComparator fall level hyst q' (s + 1) t
    (r, if q' = q then l else (s, q') :: l)

/-- Comparator `m` of unit `u` (CMP(2c) is A of channel c, CMP(2c + 1) is B) takes a frame (R116, R117). -/
def Dev.cmpFrame (d : Dev) (u m : Nat) (f : Frame) : Dev :=
  let x := d.trg.get u
  let fall := d.flag TRG_CMP_ACT.SENSE u m
  let level := d.gets TRG_CMP_ACT.LEVEL u m
  let hyst : Int := d.get TRG_CMP_ACT.HYST u m
  let ini := x.init.getD (m / 2) false
  let first := f.samples.headD 0
  let q0 := if ini then meetsTest true fall level hyst first 1 else x.q.getD m false
  let (q, l) := runComparator fall level hyst q0 (f.k * 64) f.samples
  let base := 2 * (m % 2)
  let cs := l.map fun (s, v) => (⟨m / 2, base + (if v then 0 else 1), s, level, hyst, fall⟩ : Crossing)
  let ch := if ini then [(⟨f.k * 64 * 65536, m / 2, 4 + base + q0.toNat, false⟩ : Change)] else []
  d.updUnit u fun x => { x with q := x.q.set m q, crossings := x.crossings ++ cs, changes := x.changes ++ ch }

/-- A slot of a profile takes its outputs from channel `c`. -/
def Profile.slotChannel (p : Profile) (s : SlotCfg) (c : Nat) : Bool :=
  match s.typ with
  | 0 => false
  | 9 => p.patMask.getD 4 0 / 4 ^ c % 4 != 0
  | 10 => p.patMask.getD 4 0 / 4 ^ c % 4 != 0 || p.clkSrc == c
  | _ => s.src == c

/-- A profile's conditions use channel `c`. -/
def Profile.usesChannel (p : Profile) (c : Nat) : Bool :=
  p.slotChannel p.a c || (p.seqEn && (p.slotChannel p.b c || (p.rstEn && p.rstSrc == c)))

/-- Sample frame `k` of channel `c`, once it has left correction, is valid. -/
def Dev.frameGood (d : Dev) (c k : Nat) : Bool :=
  ((d.path.get c).delay ++ (d.path.get c).hist).any fun f => f.k == k && f.valid

/-- The domain of unit `u` is on: what reaches the unit before is not processed (R40). -/
def Dev.trgPowered (d : Dev) (u : Nat) : Bool := d.pdOn (64 + u / 2)

/-- A frame of channel `c` reaches unit `u` (R117). A first valid frame behind invalid or missing ones discards the fill of a
unit that uses the channel (R106). -/
def Dev.unitFrame (d : Dev) (c : Nat) (f : Frame) (u : Nat) : Dev :=
  if ! d.trgPowered u then d else
  let d := match (d.trg.get u).runAt with
    | some (k, b) => if k ≤ f.k then d.updUnit u fun x =>
        { x with run := b, runAt := none, init := [true, true, true, true] } else d
    | none => d
  if ! (d.trg.get u).run then d
  else
    let uses := (d.activeProfile u).usesChannel c
    if f.valid then
      let c1 := if uses && ! d.frameGood c (f.k - 1) then [(f.k, Ctl.refill)] else []
      ((d.cmpFrame u (2 * c) f).cmpFrame u (2 * c + 1) f).updUnit u fun x =>
        { x with init := x.init.set c false, ctl := c1.foldl (fun l c => insertCtl c l) x.ctl }
    else
      d.updUnit u fun x =>
        let c1 := if x.init.getD c false then [] else [(f.k, Ctl.abandon c)]
        let c2 := if uses then [(f.k + 1, Ctl.refill)] else []
        { x with init := x.init.set c true, ctl := (c1 ++ c2).foldl (fun l c => insertCtl c l) x.ctl }

/-! ### Changes of sources (R118, R119) -/

/-- A profile uses a source: a slot, the sequence reset or the STATE clock names it, or TRG_PAT_MASK selects it. -/
def Profile.uses (p : Profile) (s : Nat) : Bool :=
  p.a.src == s || p.b.src == s || p.rstSrc == s || p.clkSrc == s
    || (decide (0x10 ≤ s) && decide (s < 0x90) && p.patMask.getD ((s - 0x10) / 32) 0 / 2 ^ ((s - 0x10) % 32) % 2 == 1)

/-- A change is late (R119): counted and raised only if the active profile uses its source. -/
def Dev.unitLate (d : Dev) (u s : Nat) : Dev :=
  if (d.activeProfile u).uses s then (d.count TRG_CNT_LATE.COUNT u).raise (102 + 8 * u) else d

/-- Put a change that reaches a unit in frame `k` among those on their way, behind the ones of its frame. -/
def insertArrival (k : Nat) (c : Change) : List (Nat × Change) → List (Nat × Change)
  | [] => [(k, c)]
  | y :: t => if k < y.1 then (k, c) :: y :: t else y :: insertArrival k c t

/-- A change sets out for every unit, which it reaches in frame `k`. -/
def Dev.toUnits (d : Dev) (k : Nat) (c : Change) : Dev :=
  (List.range 8).foldl (fun d u => d.updUnit u fun x => { x with inbox := insertArrival k c x.inbox }) d

/-- A timed-trigger message sets out for every unit (R119). -/
def Dev.msgToUnits (d : Dev) (m : TrigMsg) : Dev :=
  (List.range 8).foldl (fun d u => d.updUnit u fun x => { x with msgs := x.msgs ++ [m] }) d

/-- A source reaches unit `u` in this frame: the unit is powered, and the synthesiser is locked (R40, R117). -/
def Dev.trgHears (d : Dev) (u : Nat) : Bool := d.trgPowered u && d.tb.locked

/-- The next change on its way reaches unit `u`: a pulse takes the tick of sample 0 of the sample frame at the unit; a
level change or stamp whose sample frame has passed is late (R119). A level without an edge only stands. -/
def Dev.levelSourceChangeEff (u : Nat) (d : Dev) : Dev :=
  match (d.trg.get u).inbox with
  | [] => d
  | (k, c) :: t =>
    let d := (d.advanceTo k).updUnit u fun x => { x with inbox := t }
    if ! d.trgHears u then d
    else if sourceKind c.src = 3 then
      let c := { c with inst := d.frameAtUnit * 64 * 65536, interp := false }
      d.updUnit u fun x => if c ∈ x.changes then x else { x with changes := x.changes ++ [c] }
    else if c.inst / 65536 / 64 < d.frameAtUnit ∧ c.what ≠ 10 ∧ c.what ≠ 11 then d.unitLate u c.src
    else d.updUnit u fun x => { x with changes := x.changes ++ [c] }

/-- The compare time `t` is loaded, or it has passed sample 0 of the sample frame at the unit (R119). -/
def Dev.tcmpSet (d : Dev) (u t : Nat) : Dev :=
  if (d.tickOf d.frameAtUnit t).isSome then d.updUnit u fun x => { x with tcmp := some t }
  else ((d.unitLate u 0xE0).putb TRG_TCMP_CTL.EN false u).updUnit u fun x => { x with tcmp := none }

/-- A write of TRG_TCMP_CTL with EN set (R119). -/
def Dev.tcmpLoadEff (u era : Nat) (d : Dev) : Dev :=
  let d := (d.put TRG_TCMP_CTL.ERA era u).putb TRG_TCMP_CTL.EN true u
  d.tcmpSet u (era * 2 ^ 64 + d.get TRG_TCMP_TICK.TICK u)

/-- The compare time reaches the unit: one change at T, and EN clears (R119). A step of the count over T leaves it late. -/
def Dev.timeCompareEff (u : Nat) (d : Dev) : Dev :=
  match (d.trg.get u).tcmp with
  | none => d
  | some t =>
    if ! d.trgPowered u then d
    else match d.tickOf d.frameAtUnit t with
      | none => d.tcmpSet u t
      | some i =>
        let d := (d.advanceTo (i / 64 + 150)).putb TRG_TCMP_CTL.EN false u
        d.updUnit u fun x =>
          { x with tcmp := none
                   changes := if d.trgHears u then x.changes ++ [⟨i * 65536, 0xE0, 2, false⟩] else x.changes }

/-- The next timed-trigger message reaches unit `u`: one that TRG_MSG matches waits for its own time (R119). -/
def Dev.timedTriggerMessageEff (u : Nat) (d : Dev) : Dev :=
  match (d.trg.get u).msgs with
  | [] => d
  | m :: t =>
    let d := d.updUnit u fun x => { x with msgs := t }
    if d.trgHears u && d.flag TRG_MSG.EN u && d.get TRG_MSG.CODE u == m.code
        && (d.flag TRG_MSG.ANY_SRC u || d.get TRG_MSG.SRC_ID u == m.src) then
      if (d.tickOf d.frameAtUnit m.time).isSome then
        d.updUnit u fun x => { x with timed := x.timed ++ [(d.frameAtUnit, m.time, m.frac)] }
      else d.unitLate u 0xE1
    else d

/-- A write of TRG_FORCE in frame a: a change at sample 0 of the sample frame at the unit in frame a + 1 (R119). -/
def Dev.trgForceEff (u : Nat) (d : Dev) : Dev :=
  let c : Change := ⟨(d.now + 1 - 150) * 64 * 65536, 0xE2, 2, false⟩
  if d.trgHears u then d.updUnit u fun x => if c ∈ x.changes then x else { x with changes := x.changes ++ [c] } else d

/-! ### Enable and arming (R117, R129) -/

/-- A change of TRG_CTL.EN in frame a takes effect at the sample frame at the unit in frame a + 1 (R117). -/
def Dev.trgEnWriteEff (u : Nat) (en : Bool) (d : Dev) : Dev :=
  if d.flag TRG_CTL.EN u = en then d
  else
    let k := d.now + 1 - 150
    (d.putb TRG_CTL.EN en u).updUnit u fun x =>
      { x with runAt := some (k, en), ctl := insertCtl (k, if en then .enOn (d.activeProfile u) else .enOff) x.ctl }

def Dev.trgArmArmEff (u : Nat) (d : Dev) : Dev :=
  d.updUnit u fun x => { x with arming := x.arming ++ [(d.now + 1, true)] }

def Dev.trgArmDisarmEff (u : Nat) (d : Dev) : Dev :=
  d.updUnit u fun x => { x with arming := x.arming ++ [(d.now + 1, false)] }

/-- An ARM or a DISARM takes effect: at a unit in the other state only (R129). -/
def Dev.armOne (d : Dev) (u : Nat) (arm : Bool) : Dev :=
  if d.flag TRG_STAT.ARMED u = arm then d
  else
    let k := d.frameAtUnit
    ((d.putb TRG_STAT.ARMED arm u).updUnit u fun x =>
      { x with ctl := insertCtl (k, if arm then .arm else .disarm) x.ctl }).raise ((if arm then 97 else 98) + 8 * u)

/-- The writes of the oldest frame that wait take effect, in the order they were made (R129). -/
def Dev.armingEffectEff (u : Nat) (d : Dev) : Dev :=
  match (d.trg.get u).arming with
  | [] => d
  | (k, _) :: _ =>
    let l := (d.trg.get u).arming.filter fun x => x.1 == k
    let d := (d.advanceTo k).updUnit u fun x => { x with arming := x.arming.filter fun y => y.1 != k }
    l.foldl (fun d x => d.armOne u x.2) d

/-! ### Condition slots (R120-R122) -/

/-- The width or interval `w` meets the slot's COND (R120). -/
def SlotCfg.meets (c : SlotCfg) (w : Nat) : Bool :=
  match c.cond with
  | 0 => decide (w < c.t1)
  | 1 => decide (c.t1 < w)
  | 2 => decide (c.t1 ≤ w) && decide (w ≤ c.t2)
  | _ => decide (w < c.t1) || decide (c.t2 < w)

/-- A pulse or instant change, with or without a level (R222). -/
def Change.isPulse (c : Change) : Bool := c.what == 2 || (c.what == 8 || c.what == 9) && decide (4 ≤ c.src)

/-- Some change of `cs` is source `s` doing `what`. -/
def has (cs : List Change) (s what : Nat) : Bool := cs.any fun c => c.src == s && c.what == what

/-- The arrival of a source (R120): comparator A's, or a level's rising edge, or its falling one when inverted, or a
pulse. -/
def arrives (cs : List Change) (s : Nat) (inv : Bool) : Bool :=
  if s < 4 then has cs s 0
  else (cs.any fun c => c.src == s && c.isPulse) || has cs s (if inv then 0 else 1)

/-- The departure of a source: the opposite edge; pulses have none. -/
def departs (cs : List Change) (s : Nat) (inv : Bool) : Bool :=
  if s < 4 then has cs s 1 else has cs s (if inv then 1 else 0)

/-- The pattern of R121 over levels of E0-E127 and the states Q. -/
def Profile.pattern (p : Profile) (levels : Tab Bool) (q : List Bool) : Bool :=
  let one := fun (i : Nat) =>
    let v := if i < 128 then levels.get (0x10 + i) else q.getD (i - 128) false
    (p.patVal.getD (i / 32) 0 / 2 ^ (i % 32) % 2 == 1) == v
  let sel := (List.range 136).filter fun i => p.patMask.getD (i / 32) 0 / 2 ^ (i % 32) % 2 == 1
  if p.patOr then sel.any one else sel.all one

/-- What a group of changes at one instant does to Q (R116) and to the levels (R118). -/
def applyQ (cs : List Change) (q : List Bool) : List Bool :=
  cs.foldl (fun q c =>
    if c.src < 4 then
      match c.what with
      | 0 => q.set (2 * c.src) true
      | 1 => q.set (2 * c.src) false
      | 2 => q.set (2 * c.src + 1) true
      | 3 => q.set (2 * c.src + 1) false
      | 4 => q.set (2 * c.src) false
      | 5 => q.set (2 * c.src) true
      | 6 => q.set (2 * c.src + 1) false
      | _ => q.set (2 * c.src + 1) true
    else q) q

def applyLevels (cs : List Change) (l : Tab Bool) : Tab Bool :=
  cs.foldl (fun l c =>
    if c.src < 4 then l
    else match c.what with
      | 0 | 8 | 10 => l.set c.src false
      | 1 | 9 | 11 => l.set c.src true
      | _ => l) l

/-- A change of the sources that slot `c` watches carries INTERP. -/
def Profile.slotInterp (p : Profile) (c : SlotCfg) (cs : List Change) : Bool :=
  let bit := fun (i w : Nat) => p.patMask.getD (i / 32) 0 / 2 ^ (i % 32) % 2 ^ w != 0
  let mine := fun (s : Nat) =>
    match c.typ with
    | 9 => if s < 4 then bit (128 + 2 * s) 2 else decide (0x10 ≤ s) && decide (s < 0x90) && bit (s - 0x10) 1
    | 10 => s == p.clkSrc
    | _ => s == c.src
  cs.any fun e => e.interp && mine e.src

/-- One slot takes the changes of one instant `t` (R120-R122): arrivals before departures, comparator B's arrival before
comparator A's. The answer is the slot's state and whether it gives an output. -/
def slotGroup (p : Profile) (c : SlotCfg) (x : TrigUnit) (q' : List Bool) (lv' : Tab Bool) (t : Nat)
    (cs : List Change) (s : SlotState) : SlotState × Bool :=
  let arr := arrives cs c.src c.inv
  let dep := departs cs c.src c.inv
  let arrB := has cs c.src 2
  let depB := has cs c.src 3
  let qa := x.dq.getD (2 * c.src) false
  let qb := x.dq.getD (2 * c.src + 1) false
  let qa' := q'.getD (2 * c.src) false
  let qb' := q'.getD (2 * c.src + 1) false
  match c.typ with
  | 1 => (s, arr || (c.either && (if c.src < 4 then arrB else dep)))
  | 2 => (s, (qa || qb) && ! qa' && ! qb' && (dep || depB))
  | 3 => (s, ! qa && ! qb && (arr || arrB))
  | 4 =>
    let s := if arr then { s with pulse := some t } else s
    match s.pulse with
    | some a => if dep then ({ s with pulse := none }, c.meets (t - a)) else (s, false)
    | none => (s, false)
  | 5 =>
    let s := if arrB then { s with bArr := some t, aSince := false } else s
    let s := if arr then { s with aSince := true } else s
    match s.bArr with
    | some b =>
      if depB then ({ s with bArr := none, aSince := false }, ! s.aSince && (! c.qual || c.meets (t - b)))
      else (s, false)
    | none => (s, false)
  | 6 =>
    let s := if arrB then { s with bArr := some t, aSince := false } else s
    let out := match s.bArr with
      | some b => arr && ! s.aSince && c.meets (t - b)
      | none => false
    let s := if arr then { s with aSince := true } else s
    (if depB then { s with bArr := none, aSince := false } else s, out)
  | 7 =>
    if arr then ({ s with prev := some t }, match s.prev with
      | some r => c.meets (t - r)
      | none => false)
    else (s, false)
  | 8 =>
    let edge := fun (up : Bool) => has cs c.src (if c.src < 4 then (! up).toNat else up.toNat)
    let s := if edge (! c.inv) then { s with enter := some (t, p.slotInterp c cs) } else s
    let outOf := edge c.inv
    (if outOf then { s with enter := none } else s, false)
  | 9 => (s, ! p.pattern x.levels x.dq && p.pattern lv' q')
  | 10 =>
    let clk := if p.clkSrc < 4 then has cs p.clkSrc (if p.clkInv then 1 else 0) else arrives cs p.clkSrc p.clkInv
    (s, clk && p.pattern x.levels x.dq)
  | _ => (s, false)

/-- The instant at which a slot's watched state will have held T1 (R120, TIMEOUT). -/
def SlotState.deadline (s : SlotState) (c : SlotCfg) : Option Nat :=
  if c.typ = 8 then s.enter.map fun e => e.1 + c.t1 else none

/-! ### Sequence (R123, R124) -/

/-- What the sequence makes of the happenings at one instant, in the order reset, A, B: the unit, whether a condition
output results, and whether the sequence left WAIT_A. -/
def seqStep (p : Profile) (x : TrigUnit) (t : Nat) (rst a b : Bool) : TrigUnit × Bool × Bool :=
  let x := if rst && p.rstEn then { x with delay := false } else x
  let (x, left) :=
    if a then
      if ! x.delay then ({ x with delay := true, tA := t, count := 0 }, true)
      else if p.restart then ({ x with tA := t, count := 0 }, false) else (x, false)
    else (x, false)
  if b && x.delay && decide (x.tA < t) then
    if p.dlyCount then
      if x.count = p.seqN then ({ x with delay := false }, true, left)
      else ({ x with count := x.count + 1 }, false, left)
    else if x.tA + p.seqDly ≤ t then ({ x with delay := false }, true, left) else (x, false, left)
  else (x, false, left)

/-! ### From candidate to trigger (R129-R134) -/

/-- One shift of the LFSR of R131 (and of the trigger bus): x^32 + x^22 + x^2 + x + 1. -/
def lfsrShift (s : Nat) : Nat := if s % 2 = 1 then s / 2 ^^^ 0x80200003 else s / 2

/-- `n` shifts. -/
def lfsrRun (s : Nat) : Nat → Nat
  | 0 => s
  | n + 1 => lfsrRun (lfsrShift s) n

/-- The lanes whose pending request names unit `u` (R130). -/
def Dev.namedLanes (d : Dev) (u : Nat) : List Nat :=
  (List.range 16).filter fun l =>
    let x := d.lanes.lane.get l
    (x.cur.map Req.tu) == some u && x.win.isSome && x.seg.isNone

/-- A request's part of the fill requirement, in frames (R152). -/
def Dev.fillFrames (d : Dev) (l : Nat) (q : Req) : Nat :=
  let src := d.get REC_LCTL.SRC l
  if src < 4 then q.pre
  else if src < 0x20 then d.decFrames (src - 0x10) q.pre
  else if src < 0x28 then q.pre
  else 0

/-- TRG_PRE_EFF: the largest fill requirement of the pending requests (R130). -/
def Dev.preEff (d : Dev) (u : Nat) : Nat :=
  (d.namedLanes u).foldl (fun m l => match (d.lanes.lane.get l).cur with
    | some q => max m (d.fillFrames l q)
    | none => m) 0

/-- The busy end (R130), if a trigger has been accepted. -/
def TrigUnit.busyEnd (x : TrigUnit) : Option Nat :=
  x.lastF.map fun f => x.running.foldl (fun m r => max m r.2) f

/-- The fill origin (R130): a frame that no run reaches while the source of a named lane is lost, whose fill begins with the next
valid frame (R135). -/
def Dev.fillOrigin (d : Dev) (u : Nat) : Nat :=
  let x := d.trg.get u
  let o := max (max x.armOrigin x.validFrom) (match x.busyEnd with
    | some f => f + 1
    | none => 0)
  (d.namedLanes u).foldl (fun m l => match (d.lanes.lane.get l).win with
    | some w => if (d.lanes.lane.get l).gap then 2 ^ 100 else max m w.origin
    | none => m) o

/-- Every named lane can open (R134): its request is valid, and the record buffer has entries for all. -/
def Dev.lanesCanOpen (d : Dev) (u : Nat) : Bool :=
  let ls := d.namedLanes u
  decide (d.rbUsed + ls.length ≤ recordEntries) && ls.all fun l =>
    let x := d.lanes.lane.get l
    x.noEntry.isEmpty && ! x.maskStop && match x.win with
      | some w => ! w.waiting && ! w.refill
      | none => false

/-- Holdoff suppresses a candidate at `t` (R131). -/
def holdSuppresses (p : Profile) (x : TrigUnit) (t : Nat) : Bool :=
  match p.holdKind with
  | 2 => decide (0 < x.remaining)
  | 1 | 3 => match x.tq with
    | some q => decide (t < q + x.drawn * 65536)
    | none => false
  | _ => false

/-- A qualified candidate restarts the holdoff (R131). -/
def Dev.holdRestart (d : Dev) (u t : Nat) (p : Profile) : Dev :=
  match p.holdKind with
  | 1 => d.updUnit u fun x => { x with tq := some t, drawn := p.holdT }
  | 2 => d.updUnit u fun x => { x with remaining := p.holdCount }
  | 3 =>
    let s := lfsrRun (d.get TRG_LFSR.STATE u) 32
    let v := p.holdT + s * (p.holdMax - p.holdT + 1) / 2 ^ 32
    (d.put TRG_LFSR.STATE s u).updUnit u fun x => { x with tq := some t, drawn := v }
  | _ => d

/-- The TIME128 of a candidate, with the SEQ of the next accepted trigger (R132). -/
def Dev.candTime (d : Dev) (u t : Nat) (interp : Bool) : BitVec 128 :=
  d.stamp (d.get TRG_CNT_ACC.COUNT u) (t / 65536 / 64) (t / 65536 % 64) (t % 65536) interp

/-- A candidate ends with one of the outcomes of R132. One of a unit that uses a channel without a valid frame there is not
counted (R106, R135). -/
def Dev.candidate (d : Dev) (u t : Nat) (interp : Bool) : Dev :=
  let x := d.trg.get u
  let p := x.prof
  let f := trigFrame t
  if ! x.armed || (List.range 4).any fun c => p.usesChannel c && ! d.frameGood c f then d
  else if holdSuppresses p x t then
    (d.updUnit u fun x => { x with remaining := x.remaining - 1 }).count TRG_CNT_HOLD.COUNT u
  else
    let d := d.holdRestart u t p
    let busy := match x.busyEnd with
      | some e => decide (f ≤ e)
      | none => false
    if busy then d.count TRG_CNT_BUSY.COUNT u
    else if f < d.fillOrigin u + d.preEff u then d.count TRG_CNT_FILL.COUNT u
    else if ! d.lanesCanOpen u then
      let time := d.candTime u t interp
      let d := if d.get TRG_CNT_OVR.COUNT u = 0 then d.wr128 .TRG_OVR_FIRST u false time else d
      (d.count TRG_CNT_OVR.COUNT u).raiseHeldAt (d.now + 1) 1250 (99 + 8 * u)
    else
      let time := d.candTime u t interp
      let ls := d.namedLanes u
      let run := ls.map fun l => (l, match (d.lanes.lane.get l).cur with
        | some q => d.segLastFrame l q t
        | none => f)
      let d := ls.foldl (fun d l => d.laneOpen u t time l) d
      let d := d.updUnit u fun x => { x with running := run, lastF := some f }
      let d := (d.wr128 .TRG_LAST u false time).bump TRG_CNT_ACC.COUNT u
      (d.raiseAt (d.now + 1) (96 + 8 * u)).tallyTrigger u t time

/-! ### The decision (R124, R132) -/

/-- Measurements abandoned (R117, R139). -/
def SlotState.abandoned (_ : SlotState) : SlotState := {}

/-- A control takes effect at a sample frame (R117, R129, R139). -/
def Dev.applyCtl (d : Dev) (u k : Nat) (c : Ctl) : Dev :=
  match c with
  | .arm => d.updUnit u fun x =>
      { x with armed := true, armOrigin := k, tq := none, remaining := 0, delay := false }
  | .disarm => d.updUnit u fun x => { x with armed := false }
  | .enOn p => d.updUnit u fun x => { x with on := true, delay := false, sa := {}, sb := {}, prof := p }
  | .enOff => d.updUnit u fun x => { x with on := false }
  | .profile p => d.updUnit u fun x =>
      let keep := p.holdKind == x.prof.holdKind
      { x with prof := p, delay := false, sa := {}, sb := {}
               tq := if keep then x.tq else none, remaining := if keep then x.remaining else 0 }
  | .abandon c => d.updUnit u fun x =>
      { x with sa := if x.prof.a.src = c then {} else x.sa, sb := if x.prof.b.src = c then {} else x.sb }
  | .abandonAll => d.updUnit u fun x => { x with sa := {}, sb := {} }
  | .refill => d.updUnit u fun x => { x with validFrom := max x.validFrom k }

/-- Insert a change by its instant, after those at the same instant. -/
def insertChange (c : Change) : List Change → List Change
  | [] => [c]
  | y :: t => if c.inst < y.inst then c :: y :: t else y :: insertChange c t

/-- The changes in order of instant. -/
def sortChanges : List Change → List Change
  | [] => []
  | c :: t => insertChange c (sortChanges t)

/-- Sample `n` of channel `c` for the placement: among the frames of the delay line and the history; a sample that no
valid frame holds is a free value of Config (log entry 11). -/
def Dev.sampleAt (d : Dev) (c : Nat) (n : Int) : Int :=
  let p := d.path.get c
  match (p.delay ++ p.hist).find? fun f => (f.k : Int) == n / 64 && f.valid with
  | some f => f.samples.getD (n % 64).toNat 0
  | none => Config.missingSample c n

/-- The placed change of a crossing (R125-R127). -/
def Dev.placed (d : Dev) (x : Crossing) : Change :=
  let p := placeCrossing (x.what % 2 == 0) x.fall x.level x.hyst (fun j => d.sampleAt x.ch ((x.sample : Int) - 1 + j))
  ⟨(x.sample - 1) * 65536 + p, x.ch, x.what, true⟩

/-- The condition outputs of unit `u` at one instant `t` go to the sequence, and what results is a candidate. -/
def Dev.unitOutputs (d : Dev) (u t : Nat) (outA outB rst ipA ipB : Bool) : Dev :=
  let x := d.trg.get u
  let p := x.prof
  if ! x.on then d
  else if p.seqEn then
    let (x, out, left) := seqStep p x t rst outA outB
    let d := d.updUnit u fun _ => x
    let d := if left then d.raise (103 + 8 * u) else d
    if out then d.candidate u t ipB else d
  else if outA then d.candidate u t ipA else d

/-- The earlier of two optional instants. -/
def minOpt (a b : Option Nat) : Option Nat :=
  match a, b with
  | some x, some y => some (min x y)
  | some x, none => some x
  | none, y => y

/-- The happenings of unit `u` at one instant: timeouts that fall due, and the changes of that instant. -/
def Dev.decideAt (d : Dev) (u t : Nat) (cs : List Change) : Dev :=
  let x := d.trg.get u
  let p := x.prof
  let g := cs.filter fun c => c.inst == t
  let dueA := x.sa.deadline p.a == some t
  let dueB := x.sb.deadline p.b == some t
  let tipA := (x.sa.enter.map Prod.snd).getD false
  let tipB := (x.sb.enter.map Prod.snd).getD false
  let sa := if dueA then { x.sa with enter := none } else x.sa
  let sb := if dueB then { x.sb with enter := none } else x.sb
  let q' := applyQ g x.dq
  let lv' := applyLevels g x.levels
  let (sa, oa) := slotGroup p p.a x q' lv' t g sa
  let (sb, ob) := slotGroup p p.b x q' lv' t g sb
  let rst := if p.rstSrc < 4 then has g p.rstSrc 0 else arrives g p.rstSrc false
  let ipA := p.slotInterp p.a g
  let ipB := p.slotInterp p.b g
  let d := d.updUnit u fun x => { x with sa := sa, sb := sb, dq := q', levels := lv' }
  d.unitOutputs u t (dueA || oa) (dueB || ob) rst ((dueA && tipA) || (oa && ipA)) ((dueB && tipB) || (ob && ipB))

/-- Process the sorted changes of unit `u` up to sample frame `f` (R124). `cs` are the changes still to come. -/
def Dev.decideLoop (u f : Nat) : Nat → List Change → Dev → Dev
  | 0, _, d => d
  | fuel + 1, cs, d =>
    let x := d.trg.get u
    let next := minOpt (cs.head?.map (·.inst)) (minOpt (x.sa.deadline x.prof.a) (x.sb.deadline x.prof.b))
    let next := next.filter fun t => decide (trigFrame t ≤ f)
    let lim := match next with
      | some t => trigFrame t
      | none => f
    match x.ctl with
    | (k, c) :: rest =>
      if k ≤ lim then Dev.decideLoop u f fuel cs ((d.updUnit u fun x => { x with ctl := rest }).applyCtl u k c)
      else
        match next with
        | none => d
        | some t => Dev.decideLoop u f fuel (cs.filter fun c => c.inst != t) (d.decideAt u t cs)
    | [] =>
      match next with
      | none => d
      | some t => Dev.decideLoop u f fuel (cs.filter fun c => c.inst != t) (d.decideAt u t cs)

/-- The decision of unit `u` for the sample frames up to `f`, 64 frames after `f` leaves correction (R132, R136). -/
def Dev.triggerDecisionEff (u f : Nat) (d : Dev) : Dev :=
  let d := d.advanceTo (f + 214)
  let x := d.trg.get u
  let placed := (x.crossings.filter fun c => decide (c.sample / 64 ≤ f)).map d.placed
  let due := x.changes.filter fun c => decide (trigFrame c.inst ≤ f)
  let timed := x.timed.map fun (k, time, frac) => ((k, time, frac), (d.tickOf k time).map fun i => i * 65536 + frac)
  let later := fun (i : Option Nat) => match i with
    | some i => decide (f < trigFrame i)
    | none => false
  let msgs := (timed.filter fun m => ! later m.2).filterMap fun m => m.2.map fun i => (⟨i, 0xE1, 2, true⟩ : Change)
  let cs := sortChanges (due ++ msgs ++ placed).reverse
  let d := d.updUnit u fun x =>
    { x with timed := (timed.filter fun m => later m.2).map Prod.fst
             crossings := x.crossings.filter fun c => decide (f < c.sample / 64)
             changes := x.changes.filter fun c => decide (f < trigFrame c.inst) }
  d.decideLoop u f (3 * cs.length + x.ctl.length + 4) cs

end Sys2Proof.Machine
end

