-- ==== Sys2Proof/Machine/EventInputs.lean ====
section
/-!
DEFINITION. Event inputs and interval timing (09_event_inputs_and_interval_timing.md R216-R236): group modes, logic
samples, stamps, the burst FIFOs and their collector, gauge calibration, interval units.
-/
namespace Sys2Proof.Machine

/-- Change input `i`. -/
def Dev.updIn (d : Dev) (i : Nat) (f : EvIn → EvIn) : Dev :=
  d.setEvi { d.evi with inp := d.evi.inp.upd i f }

/-- Change interval unit `u`. -/
def Dev.updIu (d : Dev) (u : Nat) (f : Iu → Iu) : Dev := d.setEvi { d.evi with iu := d.evi.iu.upd u f }

/-! ### Group modes (R216, R217) -/

/-- Group `g` is READY in the current frame. -/
def Dev.groupReady (d : Dev) (g : Nat) : Bool := d.groupReadyIn g d.now

/-- Group `g` becomes READY in the current frame where it is not yet, or is no longer. -/
def Dev.groupShow (d : Dev) (g : Nat) (b : Bool) : Dev :=
  d.setEvi { d.evi with group := d.evi.group.upd g fun x =>
    { x with readyAt := if b then some (x.readyAt.getD d.now) else none } }

/-- The logic budget that modes need (R216). -/
def budget (v : Nat) : Nat := ((List.range 8).map fun g => match gmode v g with | 1 => 2 | 2 => 1 | _ => 0).sum

/-- Group `g` is in use by a lane or by an interval unit (R217). -/
def Dev.groupInUse (d : Dev) (g : Nat) : Bool :=
  ((List.range 16).any fun l => d.flag REC_LCTL.EN l && (d.get REC_LCTL.SRC l == 0x20 + g
      || (decide (0x100 ≤ d.get REC_LCTL.SRC l) && decide (d.get REC_LCTL.SRC l < 0x180)
        && (d.get REC_LCTL.SRC l - 0x100) / 16 == g)))
    || (List.range 32).any fun u => (d.get EVI_IU_CFG.MODE u == 1 || d.get EVI_IU_CFG.MODE u == 2)
        && (d.get EVI_IU_CFG.START u / 16 == g || d.get EVI_IU_CFG.STOP u / 16 == g)

/-- The level of an input is 0, with no edge, from the first frame of the group's new mode on; the trigger units learn it in
order (R218, R222). -/
def Dev.levelClear (d : Dev) (i : Nat) : Dev :=
  (d.updIn i fun x => { x with level := false }).toUnits (d.now + 11) ⟨(d.now + 1) * 64 * 65536, 0x10 + i, 10, false⟩

/-- An input enters TIMING: SEQ returns to 0, no stamp counts for the dead time, and the saved table is loaded (R220,
R221, R229). -/
def Dev.enterTiming (d : Dev) (i : Nat) : Dev :=
  let d := d.updIn i fun x => { x with last := none, gauge := x.saved }
  (d.put EVI_SEQ.VALUE 0 i).putb EVI_ISTAT.UNCAL (d.evi.inp.get i).saved.isEmpty i

/-- Group `g` takes a new mode at the next frame boundary (R217). -/
def Dev.groupSwitch (d : Dev) (g old new : Nat) : Dev :=
  let d := if old = 0 then d.testEnd 1 g 7 else d
  let on : Bool := new != 0 && d.pdOn (87 + g)
  let d := d.setEvi { d.evi with group := d.evi.group.upd g fun x =>
    { before := old, since := d.now + 1, readyBefore := x.readyAt, readyAt := if on then some (d.now + 1) else none } }
  (List.range 16).foldl (fun d b =>
    let d := d.levelClear (16 * g + b)
    if new = 3 then d.enterTiming (16 * g + b) else d) d

def Dev.eviGmodeWriteEff (v : Nat) (d : Dev) : Dev :=
  let old := d.get EVI_GMODE.MODE
  let changed := fun (g : Nat) => gmode v g != gmode old g
  if 8 < budget v then d.put EVI_GSTAT.RESULT 2
  else if (List.range 8).any fun g => changed g && d.groupInUse g then d.put EVI_GSTAT.RESULT 3
  else
    let d := (d.put EVI_GMODE.MODE v).put EVI_GSTAT.RESULT 1
    (List.range 8).foldl (fun d g => if changed g then d.groupSwitch g (gmode old g) (gmode v g) else d) d

/-- A group's domain is powered: READY (R40, R217). -/
def Dev.groupReadyEff (g : Nat) (d : Dev) : Dev :=
  if gmode (d.get EVI_GMODE.MODE) g = 0 then d else (d.pdPut (87 + g) true).groupShow g true

/-! ### Stamps (R219-R222) -/

/-- GT[b] of an input, in 22 bits (R229, R236). -/
def EvIn.gt (x : EvIn) (b : Nat) : Nat := (if x.gauge = [] then 26214 * b + 13107 else x.gauge.getD b 0) % 2 ^ 22

/-- A STATUS bit of EVI_ISTAT rises (R235). -/
def Dev.istatRise (d : Dev) (i : Nat) (f : Fld) : Dev :=
  let fresh := ! d.flag f i
  let d := d.setFlag f i
  if fresh && d.get EVI_ICFG.EVT i = 2 then d.raise (288 + i) else d

/-- A drop counter of an input counts `n` (R226, R236). -/
def Dev.inDrop (d : Dev) (i : Nat) (f : Fld) (n : Nat := 1) : Dev := (d.count f i 0 n).istatRise i EVI_ISTAT.DROP

/-- The instant of the stamp of an edge in frame `k`, bin `b`, in the model's frames and with FRAC bit 0 cleared. -/
def Dev.edgeInst (d : Dev) (i k b : Nat) : Nat :=
  let t := ((4194304 * k + (d.evi.inp.get i).gt b / 2 * 2 : Nat) : Int) - d.gets EVI_IDLY.DELAY i
  (t / 2 * 2).toNat

/-- The stamp of an instant and a polarity (R219, R220). -/
def Dev.stampOf (d : Dev) (i t : Nat) (rise : Bool) : Stamp :=
  ⟨d.stamp (d.get EVI_SEQ.VALUE i) (t / 4194304) (t / 65536 % 64) (t % 65536 + rise.toNat) true, t,
    (d.evi.inp.get i).fresh⟩

/-- The stamp stream of input `i` is the source of enabled lane `l`. -/
def Dev.stampLane (d : Dev) (i l : Nat) : Bool := d.flag REC_LCTL.EN l && d.get REC_LCTL.SRC l == 0x100 + i

/-- A stamp enters the burst FIFO, or is dropped at a full one (R223). -/
def Dev.toFifo (d : Dev) (i : Nat) (s : Stamp) : Dev :=
  if d.flag EVI_ICFG.QEN i || (List.range 16).any (d.stampLane i) then
    if 256 ≤ (d.evi.inp.get i).fifo.length then
      (d.inDrop i EVI_CNT_FIFO.COUNT).updIn i fun x => { x with dropFifo := x.dropFifo + 1 }
    else d.updIn i fun x => { x with fifo := x.fifo ++ [s] }
  else d

/-! ### Interval units (R230-R233) -/

/-- Put a stamp among those that wait: in order of instant, the start first at equal instants (R230). -/
def insertIu (x : IuStamp) : List IuStamp → List IuStamp
  | [] => [x]
  | y :: t =>
    if x.stamp.inst < y.stamp.inst || (x.stamp.inst == y.stamp.inst && x.start && ! y.start) then x :: y :: t
    else y :: insertIu x t

/-- EDGE filters of an interval unit. -/
def iuEdge (sel : Nat) (rise : Bool) : Bool := match sel with | 1 => rise | 2 => ! rise | _ => true

/-- An accepted stamp of input `i` is handed to the interval units (R230). -/
def Dev.toIus (d : Dev) (i : Nat) (s : Stamp) (rise : Bool) : Dev :=
  (List.range 32).foldl (fun d u =>
    if d.get EVI_IU_CFG.MODE u = 1 ∨ d.get EVI_IU_CFG.MODE u = 2 then
      let d := if d.get EVI_IU_CFG.START u = i && iuEdge (d.get EVI_IU_CFG.START_EDGE u) rise then
          d.updIu u fun x => { x with inbox := insertIu ⟨true, s⟩ x.inbox } else d
      if d.get EVI_IU_CFG.STOP u = i && iuEdge (d.get EVI_IU_CFG.STOP_EDGE u) rise then
        d.updIu u fun x => { x with inbox := insertIu ⟨false, s⟩ x.inbox } else d
    else d) d

/-- A count of lost stamps or dropped results sets IU_LOSS of the STOP input (R235). -/
def Dev.iuLoss (d : Dev) (u : Nat) (f : Fld) (n : Nat := 1) : Dev :=
  if n = 0 then d else (d.count f u 0 n).istatRise (d.get EVI_IU_CFG.STOP u) EVI_ISTAT.IU_LOSS

/-- The 88-bit ERA:TICK:FRAC of a stamp, with FRAC bit 0 cleared. -/
def Stamp.value (s : Stamp) : Nat := s.time.toNat % 2 ^ 88 / 2 * 2

/-- The flags VALID to REFLOST of a TIME128 (R98). -/
def timeFlag (t : BitVec 128) (bit : Nat) : Nat := t.toNat / 2 ^ bit % 2

/-- stop − start on ERA:TICK:FRAC, signed (R231). -/
def iuDiff (start stop : Stamp) : Int :=
  let m : Nat := (stop.value + 2 ^ 88 - start.value) % 2 ^ 88
  if m < 2 ^ 87 then (m : Int) else (m : Int) - 2 ^ 88

/-- The interval entry of a pairing (R231, R232). -/
def Dev.iuEntry (d : Dev) (u : Nat) (start stop : Stamp) : List Byte :=
  let diff := iuDiff start stop
  let top : Int := 2 ^ 54 - 1
  let wrap := decide (top < diff.natAbs)
  let v : Int := if wrap then (if diff < 0 then -top else top) else diff
  let either := fun (b : Nat) => max (timeFlag start.time b) (timeFlag stop.time b) * 2 ^ b
  let flags := timeFlag stop.time 88 * 2 ^ 88 + timeFlag stop.time 89 * 2 ^ 89 + either 90 + either 91
    + (decide (diff.natAbs < 26214)).toNat * 2 ^ 92 + (decide (diff < 0)).toNat * 2 ^ 93 + wrap.toNat * 2 ^ 94
  let time := stop.time.toNat % 2 ^ 88 + flags + d.get EVI_IU_CNT_RES.COUNT u * 2 ^ 96
  leBytes time 16 ++ leBytes (v % (2 ^ 64 : Int)).toNat 8
    ++ leBytes (d.get EVI_IU_CFG.START u + d.get EVI_IU_CFG.STOP u * 2 ^ 8 + u * 2 ^ 16
      + min 255 (d.evi.iu.get u).early * 2 ^ 24 + start.time.toNat / 2 ^ 96 * 2 ^ 32) 8

/-- A pairing gives one result (R230, R231). -/
def Dev.iuResult (d : Dev) (u : Nat) (start stop : Stamp) : Dev :=
  let e := d.iuEntry u start stop
  let d := (d.updIu u fun x => { x with early := 0 }).bump EVI_IU_CNT_RES.COUNT u
  if 64 ≤ (d.evi.iu.get u).fifo.length then d.iuLoss u EVI_IU_CNT_DROP.COUNT
  else d.updIu u fun x => { x with fifo := x.fifo ++ [e] }

/-- A stamp is held unmatched; a 17th pushes out the oldest (R230). -/
def Dev.iuHold (d : Dev) (u : Nat) (s : IuStamp) : Dev :=
  let d := d.updIu u fun x => { x with pend := x.pend ++ [s] }
  if 16 < (d.evi.iu.get u).pend.length then
    (d.updIu u fun x => { x with pend := x.pend.drop 1 }).iuLoss u EVI_IU_CNT_LOST.COUNT
  else d

/-- An interval unit processes one stamp (R230). -/
def Dev.iuStamp (d : Dev) (u : Nat) (s : IuStamp) : Dev :=
  let x := d.evi.iu.get u
  if d.get EVI_IU_CFG.MODE u = 1 then
    if s.start then
      let d := d.iuLoss u EVI_IU_CNT_LOST.COUNT x.pend.length
      d.updIu u fun x => { x with pend := [s] }
    else
      match x.pend with
      | p :: _ => (d.updIu u fun x => { x with pend := [] }).iuResult u p.stamp s.stamp
      | [] => (d.count EVI_IU_CNT_EARLY.COUNT u).updIu u fun x => { x with early := x.early + 1 }
  else
    match x.pend with
    | p :: t =>
      if p.start = s.start then d.iuHold u s
      else
        let d := d.updIu u fun x => { x with pend := t }
        if s.start then d.iuResult u s.stamp p.stamp else d.iuResult u p.stamp s.stamp
    | [] => d.iuHold u s

/-- The frame in which a stamp can be processed: from then on neither input can give one before it (R230, R234). -/
def Dev.iuFrame (d : Dev) (u : Nat) (s : IuStamp) : Nat :=
  let f := fun (i : Nat) => (((s.stamp.inst : Int) + d.gets EVI_IDLY.DELAY i) / 4194304).toNat + 9
  max (f (d.get EVI_IU_CFG.START u)) (f (d.get EVI_IU_CFG.STOP u))

/-- Interval unit `u` processes every stamp that no earlier one can precede. -/
def Dev.iuRun (d : Dev) (u : Nat) : Nat → Dev
  | 0 => d
  | n + 1 =>
    match (d.evi.iu.get u).inbox with
    | s :: t =>
      if d.iuFrame u s ≤ d.now then ((d.updIu u fun x => { x with inbox := t }).iuStamp u s).iuRun u n else d
    | [] => d

/-- Interval unit `u` up to now, with EVI_IU_STAT.PENDING. -/
def Dev.iuSettle (d : Dev) (u : Nat) : Dev :=
  let d := d.iuRun u (d.evi.iu.get u).inbox.length
  d.put EVI_IU_STAT.PENDING (d.evi.iu.get u).pend.length u

/-- A result leaves for its queue; the units drain at most four results in five frames (R231). -/
def Dev.intervalDrainEff (u : Nat) (d : Dev) : Dev :=
  let d := d.iuSettle u
  let d := match (d.evi.iu.get u).fifo, (d.evi.iu.get u).inbox with
    | [], s :: _ => (d.advanceTo (d.iuFrame u s)).iuSettle u
    | _, _ => d
  match (d.evi.iu.get u).fifo with
  | [] => d
  | e :: t =>
    let d := match d.evi.drained[3]? with
      | some k => d.advanceTo (k + 5)
      | none => d
    let d := d.setEvi { d.evi with drained := (d.now :: d.evi.drained).take 4 }
    (d.updIu u fun x => { x with fifo := t }).post (d.get EVI_IU_CFG.Q u) 3 1 (200 + u) e

/-- A write of EVI_IU_CFG: while MODE is not OFF the unit restarts, and its stamps are lost (R233). -/
def Dev.iuCfgWriteEff (u : Nat) (v : W32) (d : Dev) : Dev :=
  let d := d.iuSettle u
  let x := d.evi.iu.get u
  let d := if d.get EVI_IU_CFG.MODE u = 1 ∨ d.get EVI_IU_CFG.MODE u = 2 then
      (d.iuLoss u EVI_IU_CNT_LOST.COUNT (x.pend.length + x.inbox.length)).updIu u fun x => { x with pend := [], inbox := [] }
    else d
  (d.wr ⟨.EVI_IU_CFG, u, 0, 0⟩ (v.setWidth 64)).put EVI_IU_STAT.PENDING 0 u

/-! ### Edges and logic samples (R218-R222) -/

/-- An accepted edge: its stamp goes to the interval units, the burst FIFO and the trigger units (R220, R222, R223). -/
def Dev.edgeAccepted (d : Dev) (i t : Nat) (rise : Bool) : Dev :=
  let s := d.stampOf i t rise
  let was := (d.evi.inp.get i).level
  let d := (d.bump EVI_SEQ.VALUE i).bump EVI_CNT_STAMP.VALUE i
  let d := d.updIn i fun x => { x with last := some t, level := rise, fresh := false }
  let d := if d.get EVI_ICFG.EVT i = 1 then d.raise (288 + i) else d
  let d := ((List.range 32).foldl Dev.iuSettle ((d.toIus i s rise).toFifo i s))
  if d.get EVI_ICFG.EDGE i ≠ 3 then d.toUnits (d.now + 2) ⟨t, 0x10 + i, 8 + rise.toNat, true⟩
  else if was = rise then d
  else d.toUnits (d.now + 2) ⟨t, 0x10 + i, rise.toNat, true⟩

/-- The edge counter of input `i` adds the edges it has counted while the synthesiser was unlocked, once the sample clock runs
again: in the first frame after relock (R220, R234). Their STATUS event was raised with the relock. -/
def Dev.noclkFold (d : Dev) (i : Nat) : Dev :=
  let n := (d.evi.inp.get i).noclk
  if n = 0 || ! d.clockIn d.now then d
  else ((d.count EVI_CNT_NOCLK.COUNT i 0 n).setFlag EVI_ISTAT.DROP i).updIn i fun x => { x with noclk := 0 }

/-- Edge counters that have counted in the gap set DROP in frame `k` (R234, R235). -/
def Dev.noclkRaise (d : Dev) (i k : Nat) : Dev :=
  if (d.evi.inp.get i).noclk ≠ 0 ∧ d.get EVI_ICFG.EVT i = 2 ∧ d.flag EVI_ISTAT.DROP i = false then d.raiseAt k (288 + i) else d

/-- The edge counter of input `i` counts a selected edge of frame `k` while the sample clock stands. -/
def Dev.noclkEdge (d : Dev) (i k : Nat) : Dev :=
  let d := d.advanceTo k
  if d.clockIn d.now then d.inDrop i EVI_CNT_NOCLK.COUNT
  else
    let first : Bool := (d.evi.inp.get i).noclk == 0
    let d := d.updIn i fun x => { x with noclk := x.noclk + 1 }
    if first && d.tb.locked then d.noclkRaise i d.tb.gapTo else d

/-- An edge of input `i` in frame `k`, bin `b`: it ends with one outcome of R226, by the clock and READY of its own frame. While
the clock runs that shows 8 frames later (R234). -/
def Dev.eventEdgeEff (i k b : Nat) (rise : Bool) (d : Dev) : Dev :=
  let sel := d.get EVI_ICFG.EDGE i
  let x := d.evi.inp.get i
  if d.gmodeAt (i / 16) k ≠ 3 ∨ ! (sel == 3 || sel == (if rise then 1 else 2)) then d.advanceTo k
  else if ! d.clockIn k then (d.noclkFold i).noclkEdge i k
  else
    let d := (d.advanceTo (k + 8)).noclkFold i
    if ! d.groupReadyIn (i / 16) k then d.inDrop i EVI_CNT_NOCLK.COUNT
    else if x.calFrom ≤ k ∧ (d.flag EVI_ISTAT.GAUGING i ∨ k < x.calTo) then
      (d.inDrop i EVI_CNT_CAL.COUNT).updIn i fun x => { x with dropCal := x.dropCal + 1 }
    else
      let t := d.edgeInst i k b
      let dead := match x.last with
        | some l => decide (t < l + 128 * 65536)
        | none => false
      if dead then (d.inDrop i EVI_CNT_DEAD.COUNT).updIn i fun x => { x with dropDead := x.dropDead + 1 }
      else d.edgeAccepted i t rise

/-- The sample clock returns: in the next frame every input adds the edges counted during the gap (R220, R234). -/
def Dev.eviRelock (d : Dev) : Dev := (List.range 128).foldl (fun d i => d.noclkRaise i (d.now + 1)) d

/-- Logic sample `m` (of `n` to a frame) of group `g`'s pads, taken in frame `k`: the changes of level set out for the units, each
at the tick of the logic sample that shows it (R118, R218). -/
def Dev.logicChange (d : Dev) (g k n m : Nat) (v : BitVec 16) (shift : List Int) : Dev :=
  (List.range 16).foldl (fun d b =>
    let i := 16 * g + b
    let l := v.getLsbD b
    if (d.evi.inp.get i).level = l then d
    else
      let s := ((m : Int) - shift.getD b 0).toNat
      let at_ := max k (s / n) + 10
      let d := (d.updIn i fun x => { x with level := l }).toUnits at_ ⟨s * (64 / n) * 65536, 0x10 + i, l.toNat, false⟩
      if d.get EVI_ICFG.EVT i = 1 then d.raiseAt at_ (288 + i) else d) d

/-- EVI_IDLY in whole logic-sample periods, rounded to the nearest (R218). -/
def Dev.idlyPeriods (d : Dev) (g n : Nat) : List Int :=
  (List.range 16).map fun b => roundAway (d.gets EVI_IDLY.DELAY (16 * g + b)) (64 / n * 65536 : Nat)

/-- A group in a logic mode takes its logic samples of frame `k`: the levels at its pads (R218, log entry 20); before READY
the frame counts in EVI_NRDY_FR (R217). -/
def Dev.logicSampleEff (g k : Nat) (samples : List (BitVec 16)) (d : Dev) : Dev :=
  let d := d.advanceTo k
  let m := d.gmodeAt g k
  if (m ≠ 1 ∧ m ≠ 2) ∨ ! d.clockIn k then d
  else if ! d.groupReadyIn g k then d.count EVI_NRDY_FR.COUNT g
  else
    let n := if m = 1 then 4 else 2
    let l := samples.take n
    let shift := d.idlyPeriods g n
    let d := l.zipIdx.foldl (fun d (v, j) => d.logicChange g k n (k * n + j) v shift) d
    d.setLogic (d.logic.upd g fun q => q ++ [⟨k, l, shift⟩])

/-! ### Collection (R223-R225) -/

/-- The stamps of a batch in queue `q` (R224). -/
def Dev.batchCap (d : Dev) (q : Nat) : Nat := match d.get QUE_CFG.ESIZE q with | 0 => 1 | 1 => 3 | _ => 7

/-- The input's batch is written to its queue (R224, R225). -/
def Dev.batchWrite (d : Dev) (i : Nat) (flushed : Bool) : Dev :=
  let x := d.evi.inp.get i
  match x.batch with
  | [] => d
  | s :: _ =>
    let head := min 65535 x.dropDead * 2 ^ 48 + min 65535 x.dropFifo * 2 ^ 32 + min 65535 x.dropCal * 2 ^ 16
      + s.fresh.toNat * 2 ^ 11 + x.batch.length * 2 ^ 8 + flushed.toNat * 2 ^ 7 + i
    let bytes := leBytes head 8 ++ leBytes 0 8 ++ x.batch.flatMap fun s => leBytes s.time.toNat 16
    let d := d.updIn i fun x => { x with batch := [], dropDead := 0, dropFifo := 0, dropCal := 0 }
    d.post x.batchQ 3 0 (32 + i) bytes

/-- A stamp joins the input's batch, which is written when full (R224). -/
def Dev.batchAdd (d : Dev) (i : Nat) (s : Stamp) : Dev :=
  let d := if (d.evi.inp.get i).batch = [] then
      d.updIn i fun x => { x with batchQ := d.get EVI_ICFG.Q i, batchAt := d.now } else d
  let d := d.updIn i fun x => { x with batch := x.batch ++ [s] }
  let x := d.evi.inp.get i
  if d.batchCap x.batchQ ≤ x.batch.length then d.batchWrite i false else d

/-- The granule of a stamp for a lane (R144). -/
def stampGranule (s : Stamp) : Granule :=
  { bytes := leBytes s.time.toNat 16, insts := [s.inst], k0 := s.inst / 4194304, k := s.inst / 4194304
    holdover := timeFlag s.time 90 == 1, degraded := false }

/-- The stamp that the collector has taken goes where the input's settings now say (R223). -/
def Dev.stampOut (d : Dev) (i : Nat) (s : Stamp) : Dev :=
  let d := if d.flag EVI_ICFG.QEN i then d.batchAdd i s else d
  (List.range 16).foldl (fun d l => if d.stampLane i l then d.laneGranule l (stampGranule s) else d) d

/-- The first frame in which the collector can take a stamp of input `i` (R223). -/
def Dev.collectFrame (d : Dev) (i : Nat) : Nat :=
  let a := match d.evi.recent[15]? with
    | some k => k + 5
    | none => 0
  let b := match (d.evi.inp.get i).taken with
    | some k => k + 4
    | none => 0
  max d.now (max a b)

/-- The input that the collector serves next: the earliest it can take, round robin among equals. -/
def Dev.collectNext (d : Dev) : Option (Nat × Nat) :=
  let is := ((List.range 128).map fun j => (d.evi.served + 1 + j) % 128).filter fun i => (d.evi.inp.get i).fifo != []
  is.foldl (fun best i =>
    let k := d.collectFrame i
    match best with
    | some (k', _) => if k < k' then some (k, i) else best
    | none => some (k, i)) none

/-- The collector takes a stamp (R223). -/
def Dev.stampCollectEff (d : Dev) : Dev :=
  match d.collectNext with
  | none => d
  | some (k, i) =>
    let d := d.advanceTo k
    match (d.evi.inp.get i).fifo with
    | [] => d
    | s :: t =>
      let d := d.setEvi { d.evi with served := i, recent := (k :: d.evi.recent).take 16 }
      (d.updIn i fun x => { x with fifo := t, taken := some k }).stampOut i s

/-- EVI_FLUSH_TO frames after its first stamp a partial batch is written (R224). -/
def Dev.batchTimeoutEff (i : Nat) (d : Dev) : Dev :=
  let x := d.evi.inp.get i
  if x.batch = [] then d else (d.advanceTo (x.batchAt + max 1 (d.get EVI_FLUSH_TO.FRAMES))).batchWrite i true

/-- A write of EVI_ICFG (R224). -/
def Dev.eviIcfgWriteEff (i : Nat) (v : W32) (d : Dev) : Dev :=
  let q := (v.toNat / 2 ^ 16) % 4096
  let qen := v.getLsbD 31 && d.get QUE_CFG.TYPE q == 3
  let d := if ! qen || d.get EVI_ICFG.Q i ≠ q then d.batchWrite i true else d
  (d.wr ⟨.EVI_ICFG, i, 0, 0⟩ (v.setWidth 64)).putb EVI_ICFG.QEN qen i

/-! ### Gauge calibration (R227-R229) -/

/-- A calibration of input `i` begins in this frame (R227). -/
def Dev.gaugeBegin (d : Dev) (i : Nat) : Dev :=
  let d := (d.put EVI_GAUGE_STAT.RESULT 1).put EVI_GAUGE_STAT.INPUT i
  let d := (d.setEvi { d.evi with gauging := some i }).putb EVI_ISTAT.GAUGING true i
  d.updIn i fun x => { x with calFrom := d.now + 1 }

/-- A write of EVI_GAUGE_CTL.START (R227). -/
def Dev.gaugeStartEff (i : Nat) (d : Dev) : Dev :=
  let d := d.put EVI_GAUGE_CTL.INPUT i
  if gmode (d.get EVI_GMODE.MODE) (i / 16) ≠ 3 then d.put EVI_GAUGE_STAT.RESULT 5
  else if d.evi.gauging.isSome then d.put EVI_GAUGE_STAT.RESULT 4
  else d.gaugeBegin i

/-- The controller calibrates on its own: UNCAL inputs first, then input `i`, whose temperature has moved (R229). -/
def Dev.gaugeAutoEff (i : Nat) (d : Dev) : Dev :=
  let timing := fun (j : Nat) => gmode (d.get EVI_GMODE.MODE) (j / 16) == 3
  if ! d.flag EVI_GAUGE_CTL.AUTO ∨ d.evi.gauging.isSome then d
  else
    match (List.range 128).find? fun j => timing j && d.flag EVI_ISTAT.UNCAL j with
    | some j => d.gaugeBegin j
    | none => if timing i then d.gaugeBegin i else d

/-- The table that hit counts give (R228). -/
def gaugeTable : Nat → List Nat → List Nat
  | _, [] => []
  | c, h :: t => (c + h / 2) :: gaugeTable (c + h) t

/-- The hits are a collection: 160 bins, 2^22 in all (R227). -/
def gaugeHits (hits : List Nat) : Bool := hits.length == 160 && hits.sum == 4194304

/-- The calibration passes (R228). -/
def gaugePass (hits : List Nat) : Bool :=
  hits.all (fun h => decide (h ≤ 104858)) && decide ((hits.filter (· == 0)).length ≤ 8)

/-- The hits are collected and the result becomes final at this frame's boundary (R227, R228). -/
def Dev.gaugeResultEff (hits : List Nat) (d : Dev) : Dev :=
  match d.evi.gauging with
  | none => d
  | some i =>
    if ! gaugeHits hits then d
    else
      let d := (d.setEvi { d.evi with gauging := none }).putb EVI_ISTAT.GAUGING false i
      let d := (d.updIn i fun x => { x with calTo := d.now }).decision 8 i 0
      if gaugePass hits then
        let d := d.updIn i fun x => { x with gauge := gaugeTable 0 hits, fresh := true }
        ((d.put EVI_GAUGE_STAT.RESULT 2).putb EVI_ISTAT.UNCAL false i).istatRise i EVI_ISTAT.GAUGE_DONE
      else (d.put EVI_GAUGE_STAT.RESULT 3).istatRise i EVI_ISTAT.GAUGE_FAIL

/-- The active tables are written to the flash (R229). -/
def Dev.gaugeSave (d : Dev) : Dev :=
  (List.range 128).foldl (fun d i => d.updIn i fun x => if x.gauge = [] then x else { x with saved := x.gauge }) d

/-- A save on the way, at most once every 10 minutes (R229). -/
def Dev.gaugeTableSaveEff (d : Dev) : Dev :=
  match d.evi.savedAt with
  | some k =>
    let d := d.advanceTo (k + 750000000000)
    d.gaugeSave.setEvi { d.gaugeSave.evi with savedAt := some d.now }
  | none => d.gaugeSave.setEvi { d.gaugeSave.evi with savedAt := some d.now }

/-- What a read of an event-input register shows has come about by the current frame: edges counted in a gap, stamps that the
interval units can take. -/
def Dev.eviSettle (d : Dev) (r : Reg) : Dev :=
  match r.g with
  | .EVI_CNT_NOCLK => d.noclkFold r.i
  | .EVI_ISTAT =>
    (List.range 32).foldl (fun d u => if d.get EVI_IU_CFG.STOP u = r.i then d.iuSettle u else d) (d.noclkFold r.i)
  | .EVI_IU_STAT | .EVI_IU_CNT_EARLY | .EVI_IU_CNT_LOST | .EVI_IU_CNT_DROP | .EVI_IU_CNT_RES => d.iuSettle r.i
  | _ => d

/-! ### Reset (R229, R233) -/

/-- Before a reset completes, FIFOs, partial batches and results are written out, and a calibration ends ABORTED. -/
def Dev.eviDrain (d : Dev) : Dev :=
  let d := (List.range 32).foldl (fun d u => d.iuSettle u) d
  let d := (List.range 128).foldl (fun d i =>
    let l := (d.evi.inp.get i).fifo
    (l.foldl (fun d s => d.stampOut i s) (d.updIn i fun x => { x with fifo := [] })).batchWrite i true) d
  let d := (List.range 32).foldl (fun d u =>
    let l := (d.evi.iu.get u).fifo
    l.foldl (fun d e => d.post (d.get EVI_IU_CFG.Q u) 3 1 (200 + u) e)
      (d.updIu u fun x => { x with fifo := [], pend := [] })) d
  match d.evi.gauging with
  | some i =>
    (d.setEvi { d.evi with gauging := none }).put EVI_GAUGE_STAT.RESULT 6 |>.updIn i fun x =>
      { x with calTo := d.now }
  | none => d

end Sys2Proof.Machine
end

