-- ==== Sys2Proof/Machine/Queues.lean ====
section
/-!
DEFINITION. Queues, their items, spoil queues, interrupts and MSI-X messages (14_host_link_queues_and_events.md
R328-R333, R340-R343, R347). Command entries are applied in Commands.lean, after the register access they use.
-/
namespace Sys2Proof.Machine

/-- TYPE and FMT are not reserved, and FMT is allowed for TYPE (R329). -/
def queueTypeOk (typ fmt : Nat) : Bool :=
  match typ with
  | 0 => fmt == 0
  | 1 => fmt ≤ 3
  | 2 => fmt == 0
  | 3 => fmt ≤ 1
  | 4 => fmt ≤ 1
  | 5 => fmt == 0
  | 6 => fmt == 0
  | _ => false

/-- ESIZE is allowed for TYPE (R329). -/
def queueSizeOk (typ esize : Nat) : Bool :=
  match typ with
  | 0 => esize == 1
  | 2 => esize == 1 || esize == 2
  | 6 => esize == 2
  | _ => esize ≤ 2

/-- A queue of TYPE and FMT holds an item that needs `ityp` and `ifmt`: POST entries have two homes (R329). -/
def itemFits (ityp ifmt typ fmt : Nat) : Bool :=
  (ityp == typ && ifmt == fmt) || (ityp == 1 && ifmt == 2 && typ == 4 && fmt == 1)

/-- Change what queue `q` keeps beside its registers. -/
def Dev.updQ (d : Dev) (q : Nat) (f : QueueState → QueueState) : Dev :=
  d.setQue { d.que with q := d.que.q.upd q f }

/-- N, the entries of queue `q`'s ring (R331). -/
def Dev.qN (d : Dev) (q : Nat) : Nat := 2 ^ d.get QUE_CFG.LOG2N q
/-- The size of its entries in bytes (R348). -/
def Dev.qEsize (d : Dev) (q : Nat) : Nat := 32 * 2 ^ d.get QUE_CFG.ESIZE q
/-- PROD − CONS modulo 2N (R331). -/
def Dev.qFill (d : Dev) (q : Nat) : Nat :=
  let n2 := 2 * d.qN q
  (d.get QUE_IDX.PROD q + n2 - d.get QUE_IDX.CONS q % n2) % n2

/-! ### Messages (R343) -/

/-- An outstanding message of vector `v` is sent when its entry is unmasked and MOD_FR frames have passed. While the link is
down the function can issue none: the message stays outstanding (DESIGN CHOICE, log entry 66). -/
def Dev.trySend (d : Dev) (v : Nat) : Dev :=
  let x := d.que.vec.get v
  let clear := match x.lastSent with
    | some t => decide (t + d.get EVR_CTL.MOD_FR ≤ d.now)
    | none => true
  if x.outstanding && x.unmasked && clear && d.link.up then
    d.setQue { d.que with vec := d.que.vec.set v { x with outstanding := false, lastSent := some d.now }
                          hostMem := d.que.hostMem.store x.addr.toNat (leBytes x.data.toNat 4) }
  else d

/-- A request on vector `v`: it makes a message outstanding, or merges into the one that is; with MSI-X disabled or the
function masked it is discarded (R343). -/
def Dev.request (d : Dev) (v : Nat) : Dev :=
  if d.que.msix then d.setQue { d.que with vec := d.que.vec.upd v fun x => { x with outstanding := true } } else d

/-- The queue requests a message: the count of uncovered items starts again (R342). -/
def Dev.queueRequest (d : Dev) (q : Nat) : Dev :=
  (d.updQ q fun s => { s with since := 0, first := none }).request (d.get QUE_INT.VEC q)

/-- The items not yet covered by a request meet COUNT or FR (R342). -/
def Dev.queueMet (d : Dev) (q : Nat) : Bool :=
  let s := d.que.q.get q
  d.flag QUE_INT.EN q && (decide (0 < s.since) && decide (d.get QUE_INT.COUNT q ≤ s.since)
    || match s.first with
      | some t => d.get QUE_INT.FR q != 0 && decide (t + 16 * d.get QUE_INT.FR q ≤ d.now)
      | none => false)

/-- The interrupt rule of R342; in the frame of a write of QUE_INT it waits for the next one. -/
def Dev.queueCheck (d : Dev) (q : Nat) : Dev :=
  let wait := match (d.que.q.get q).recheck with
    | some t => decide (d.now < t)
    | none => false
  if ! wait && d.queueMet q then d.queueRequest q else d

/-- One more item has been written to queue `q` (R342). -/
def Dev.queueNote (d : Dev) (q : Nat) : Dev :=
  (d.updQ q fun s => { s with since := s.since + 1, first := s.first.or (some d.now) }).queueCheck q

/-! ### Writing items (R332, R340, R341) -/

/-- The ring of queue `q` lies in host memory and the host link is down (R347). -/
def Dev.qUnreachable (d : Dev) (q : Nat) : Bool := ! d.flag QUE_BASE.BENCH q && ! d.link.up

/-- Store bytes in the memory that holds queue `q`'s ring. -/
def Dev.qStore (d : Dev) (q a : Nat) (b : List Byte) : Dev :=
  if d.flag QUE_BASE.BENCH q then d.setBen { d.ben with bench := d.ben.bench.store a b }
  else d.setQue { d.que with hostMem := d.que.hostMem.store a b }

/-- Write an index of queue `q` back as a 64-bit little-endian value (R332, R333). A posted write to a host that cannot be
reached is lost (R347). -/
def Dev.writeBack (d : Dev) (q idx : Nat) : Dev :=
  if d.flag QUE_WB.EN q && d.link.up then
    d.setQue { d.que with hostMem := d.que.hostMem.store (d.get QUE_WB.ADDR q * 8) (leBytes idx 8) }
  else d

/-- Write entries at PROD of queue `q`, advance PROD by their number, write it back, and count one item (R332). -/
def Dev.qWrite (d : Dev) (q : Nat) (entries : List (List Byte)) : Dev :=
  let n := d.qN q
  let d := entries.foldl (fun d e =>
    let p := d.get QUE_IDX.PROD q
    (d.qStore q (d.get QUE_BASE.ADDR q * 4096 + p % n * d.qEsize q) (padTo (d.qEsize q) e)).put
      QUE_IDX.PROD ((p + 1) % (2 * n)) q) d
  (d.writeBack q (d.get QUE_IDX.PROD q)).queueNote q

/-- An item is lost (R341). -/
def Dev.itemLost (d : Dev) (q : Nat) (sp : Option Nat) : Dev :=
  let d := (d.count QUE_CNT.LOST q).count QUE_G_LOST.COUNT
  let d := match sp with
    | some p => d.updQ p fun s => { s with lost := min (s.lost + 1) 0xFFFFFFFF }
    | none => d
  d.raiseHeld 1250 518

/-- The 32, 64 or 128 bytes that an item's content is padded to (R340). -/
def spoilSize (n : Nat) : Nat := if n ≤ 32 then 32 else if n ≤ 64 then 64 else 128

/-- The spoil queue of an item for queue `q` (R340). -/
def Dev.spoilOf (d : Dev) (q : Nat) : Option Nat :=
  if d.flag QUE_CTL.EN q then some (d.get QUE_CFG.SPQ q)
  else if d.flag QUE_G_SPOIL.EN then some (d.get QUE_G_SPOIL.Q) else none

/-- An item that queue `q` cannot take goes to its spoil queue, or is lost (R340, R341). -/
def Dev.itemSpoil (d : Dev) (q reason : Nat) (content : List Byte) : Dev :=
  match d.spoilOf q with
  | none => d.itemLost q none
  | some p =>
    let sz := spoilSize content.length
    let need := if 96 < sz then 2 else 1
    if d.get QUE_STAT.STATE p ≠ 2 || d.get QUE_CFG.TYPE p ≠ 6 || d.qUnreachable p
        || decide (d.qN p < d.qFill p + need) then d.itemLost q (some p)
    else
      let s := d.que.q.get p
      let c := padTo sz content
      let cont := need - 1
      let szc := if sz = 32 then 0 else if sz = 64 then 1 else 2
      let w := s.lost * 2 ^ 32 + cont * 2 ^ 24 + szc * 2 ^ 20 + reason * 2 ^ 16 + q
      let head := leBytes (d.stamp s.seq d.now 0).toNat 16 ++ leBytes w 8 ++ leBytes 0 8
      let d := d.updQ p fun s => { s with seq := s.seq + 1, lost := 0 }
      let d := d.qWrite p (if need = 2 then [head ++ c.take 96, c.drop 96] else [head ++ c])
      (d.count QUE_CNT.SPOILED q).raiseHeld 1250 517

/-- An item reaches its queue: its target takes it, or a spoil queue does, or it is lost (R332, R340, R341). -/
def Dev.placeItem (d : Dev) (x : Item) : Dev :=
  let q := x.q
  let st := d.get QUE_STAT.STATE q
  let d :=
    if st = 3 then d.itemSpoil q 4 x.bytes
    else if st ≠ 2 then d.itemSpoil q 2 x.bytes
    else if ! itemFits x.typ x.fmt (d.get QUE_CFG.TYPE q) (d.get QUE_CFG.FMT q)
        || decide (d.qEsize q < x.bytes.length) then d.itemSpoil q 3 x.bytes
    else if d.qUnreachable q then d.itemLost q none
    else if d.qN q ≤ d.qFill q then d.itemSpoil q 1 x.bytes
    else d.qWrite q [x.bytes]
  match x.after with
  | some (cq, cons) => if d.flag QUE_WB.EN cq then (d.writeBack cq cons).queueNote cq else d
  | none => d

/-- The oldest item on its way to queue `q`, and the others. -/
def takeItem (q : Nat) : List Item → Option (Item × List Item)
  | [] => none
  | x :: t => if x.q = q then some (x, t) else (takeItem q t).map fun (y, r) => (y, x :: r)

def Dev.queueItemWriteEff (q : Nat) (d : Dev) : Dev :=
  match takeItem q d.que.items with
  | none => d
  | some (x, rest) => (d.setQue { d.que with items := rest }).placeItem x

/-! ### Allocation, enable, disable (R328, R330, R347) -/

/-- The lowest free queue from Q16 upward. -/
def Dev.freeQueue (d : Dev) : Option Nat :=
  ((List.range 4080).map (· + 16)).find? fun q => d.get QUE_STAT.STATE q == 0

def Dev.queueAllocEff (any : Bool) (q : Nat) (d : Dev) : Dev :=
  let d := ((d.putb QUE_ALLOC.ANY any).put QUE_ALLOC.Q q).wr ⟨.QUE_ALLOC_STAT, 0, 0, 0⟩ 0
  if any then
    match d.freeQueue with
    | some p => (d.put QUE_ALLOC_STAT.Q p).put QUE_STAT.STATE 1 p
    | none => (d.putb QUE_ALLOC_STAT.NO_QUEUE true).raise 522
  else if q < 16 then d.putb QUE_ALLOC_STAT.HKQ true
  else if d.get QUE_STAT.STATE q ≠ 0 then d.putb QUE_ALLOC_STAT.TAKEN true
  else (d.put QUE_ALLOC_STAT.Q q).put QUE_STAT.STATE 1 q

/-- A register takes its reset value. -/
def Dev.resetReg (d : Dev) (r : Reg) : Dev := d.wr r r.reset


/-- The first check of R330 that fails, as its RESULT; 1 is ENABLED. -/
def Dev.queueResult (d : Dev) (q : Nat) : Nat :=
  let typ := d.get QUE_CFG.TYPE q
  let base := d.get QUE_BASE.ADDR q * 4096
  let size := d.qN q * d.qEsize q
  let spq := d.get QUE_CFG.SPQ q
  if 16 ≤ q ∧ d.get QUE_STAT.STATE q = 0 then 2
  else if ! queueTypeOk typ (d.get QUE_CFG.FMT q) then 3
  else if ! queueSizeOk typ (d.get QUE_CFG.ESIZE q) then 4
  else if (d.flag QUE_BASE.BENCH q && (decide (benchSize < base + size) || d.skeinMeets 0 base size))
      || decide (d.get QUE_CFG.LOG2N q < 4) || decide (20 < d.get QUE_CFG.LOG2N q) then 5
  else if typ ≠ 6 ∧ (d.get QUE_CFG.TYPE spq ≠ 6 ∨ d.get QUE_STAT.STATE spq ≠ 2) then 6
  else 1

def Dev.queueEnableEff (q : Nat) (d : Dev) : Dev :=
  if d.flag QUE_CTL.EN q then d
  else
    let r := d.queueResult q
    let d := d.put QUE_STAT.RESULT r q
    if r = 1 then
      let d := ((d.putb QUE_CTL.EN true q).put QUE_STAT.STATE 2 q).put QUE_STAT.ERR 0 q
      (d.wr ⟨.QUE_IDX, q, 0, 0⟩ 0).updQ q fun s => { s with fetched := 0, cmds := [] }
    else d

/-- The bytes of a line (R4). -/
def Line.bytes (l : Line) : List Byte :=
  [l.w0, l.w1, l.w2, l.w3, l.w4, l.w5, l.w6, l.w7].flatMap fun w => leBytes w.toNat 8

/-- The line at an address of a memory. -/
def Memory.line (m : Memory) (a : Nat) : Line :=
  let w := fun i => BitVec.ofNat 64 (leNat (m.bytes (a + 8 * i) 8))
  ⟨w 0, w 1, w 2, w 3, w 4, w 5, w 6, w 7⟩

/-- A command of queue `q` ends (R337, R338): its completion goes to CQ, and CONS is written back after it (R333). CONS
advances but for an aborted command, which was not applied. `values` are the values of a READ. -/
def Dev.cmdComplete (d : Dev) (q : Nat) (c : Line) (status : Nat) (values : List Nat) : Dev :=
  let s := d.que.q.get q
  let tag := c.w0.toNat / 2 ^ 32
  let cq := c.w0.toNat / 2 ^ 16 % 2 ^ 12
  let body := leBytes (d.stamp s.seq d.now 0).toNat 16 ++ leBytes (tag * 2 ^ 32 + q * 2 ^ 20 + status) 8
    ++ (values.flatMap fun v => leBytes v 4)
  let cons := if status = 3 then d.get QUE_IDX.CONS q else (d.get QUE_IDX.CONS q + 1) % (2 * d.qN q)
  let item : Item := ⟨cq, 1, 0, 400 + q, d.now, if body.length < 32 then padTo 32 body else body, some (q, cons)⟩
  let d := d.setQue { d.que with items := insertItem item d.que.items }
  (d.put QUE_IDX.CONS cons q).updQ q fun s =>
    { s with seq := s.seq + 1, cmds := s.cmds.drop 1, applied := some d.now }

/-- Every command of queue `q` that was read and not applied ends ABORTED (R337). -/
def Dev.cmdsAbort (d : Dev) (q : Nat) : Dev :=
  (d.que.q.get q).cmds.foldl (fun d c => d.cmdComplete q c.line 3 []) d

def Dev.queueDisableEff (q : Nat) (d : Dev) : Dev :=
  if d.flag QUE_CTL.EN q then
    let d := d.cmdsAbort q
    let d := d.putb QUE_CTL.EN false q
    if 2 ≤ d.get QUE_STAT.STATE q then d.put QUE_STAT.STATE 1 q else d
  else d

/-- FREE acts while the queue is not ENABLED: its configuration takes its reset values (R328). In ERROR that clears EN, and
the commands still to be applied end ABORTED (R337). -/
def Dev.queueFreeEff (q : Nat) (d : Dev) : Dev :=
  if q < 16 ∨ d.get QUE_STAT.STATE q = 2 ∨ d.get QUE_STAT.STATE q = 0 then d
  else
    let d := d.cmdsAbort q
    (([Rg.QUE_BASE, .QUE_WB, .QUE_CFG, .QUE_CTL, .QUE_INT].foldl (fun d g => d.resetReg ⟨g, q, 0, 0⟩) d).put
      QUE_STAT.STATE 0 q)

/-- A write of QUE_DB (R333); host writes to the housekeeping controller's queues are ignored (R328). -/
def Dev.doorbellEff (q idx : Nat) (d : Dev) : Dev :=
  let n := d.qN q
  let n2 := 2 * n
  let ahead := (idx + n2 - d.get QUE_IDX.CONS q % n2) % n2
  if q < 16 then d
  else if d.get QUE_STAT.STATE q ≠ 2 ∨ n2 ≤ idx then (d.count QUE_G_BADDB.COUNT).raise 516
  else if d.get QUE_CFG.TYPE q = 0 then
    if d.qFill q ≤ ahead ∧ ahead ≤ n then d.put QUE_IDX.PROD idx q else (d.count QUE_G_BADDB.COUNT).raise 516
  else if ahead ≤ d.qFill q then d.put QUE_IDX.CONS idx q
  else (d.count QUE_G_BADDB.COUNT).raise 516

/-- A read of the next command entry ends (R333, R339). An entry of a bench ring is read from the bench; none is read from a
host that cannot be reached. -/
def Dev.commandFetchEff (q : Nat) (ending : ReadEnd) (entry : Line) (d : Dev) : Dev :=
  let s := d.que.q.get q
  if d.get QUE_STAT.STATE q ≠ 2 ∨ d.get QUE_CFG.TYPE q ≠ 0 ∨ s.fetched = d.get QUE_IDX.PROD q then d
  else
    match ending with
    | .ok =>
      if d.qUnreachable q then d
      else
      let l := if d.flag QUE_BASE.BENCH q then
          d.ben.bench.line (d.get QUE_BASE.ADDR q * 4096 + s.fetched % d.qN q * 64) else entry
      d.updQ q fun s => { s with fetched := (s.fetched + 1) % (2 * d.qN q), cmds := s.cmds ++ [⟨l, d.now⟩] }
    | .ur => ((d.put QUE_STAT.STATE 3 q).put QUE_STAT.ERR 1 q).raise 515
    | .ca => ((d.put QUE_STAT.STATE 3 q).put QUE_STAT.ERR 2 q).raise 515
    | .timeout => ((d.put QUE_STAT.STATE 3 q).put QUE_STAT.ERR 3 q).raise 515
    | .poison => ((d.put QUE_STAT.STATE 3 q).put QUE_STAT.ERR 4 q).raise 515

/-! ### Interrupts (R342, R343) -/

/-- A request of queue `q` falls due: in the frame from which a write of QUE_INT applies, or by FR (R342). -/
def Dev.interruptTimeoutEff (q : Nat) (d : Dev) : Dev :=
  let s := d.que.q.get q
  match s.recheck, s.first with
  | some t, _ => ((d.advanceTo t).updQ q fun s => { s with recheck := none }).queueCheck q
  | none, some t =>
    if d.flag QUE_INT.EN q ∧ d.get QUE_INT.FR q ≠ 0 then (d.advanceTo (t + 16 * d.get QUE_INT.FR q)).queueRequest q
    else d
  | none, none => d

/-- A write of QUE_INT: it applies from the next frame to the items already counted (R342). -/
def Dev.queIntWriteEff (q : Nat) (v : W32) (d : Dev) : Dev :=
  (d.wr ⟨.QUE_INT, q, 0, 0⟩ (v.setWidth 64)).updQ q fun s => { s with recheck := some (d.now + 1) }

def Dev.vectorUnmaskEff (v : Nat) (addr : W64) (data : W32) (d : Dev) : Dev :=
  (d.setQue { d.que with vec := d.que.vec.upd v fun x =>
    { x with addr := addr, data := data, unmasked := true } }).trySend v

def Dev.modFrExpiryEff (v : Nat) (d : Dev) : Dev :=
  match (d.que.vec.get v).lastSent with
  | some t => (d.advanceTo (t + d.get EVR_CTL.MOD_FR)).trySend v
  | none => d.trySend v

/-! ### The event log (R345) -/

/-- The router logs event `e` of frame `k` for queue `q`; LOG_LOST itself is never logged. -/
def Dev.logEvent (d : Dev) (k e q : Nat) : Dev :=
  if e = 521 then d
  else if 4096 ≤ d.evr.fifo.length then
    let d := d.count EVR_CNT_LOST.COUNT
    (d.setEvr { d.evr with lost := min (d.evr.lost + 1) 0xFFFFFFFF }).raise 521
  else
    let body := leBytes (d.stamp d.evr.seq k 0).toNat 16 ++ leBytes (d.evr.lost * 2 ^ 16 + e) 8 ++ leBytes 0 8
    d.setEvr { d.evr with fifo := d.evr.fifo ++ [⟨q, 4, 0, 6000, d.now, body, none⟩]
                          seq := d.evr.seq + 1, lost := 0 }

/-- The entries that the router may still write in this frame: 16 less those that it has written. -/
def Dev.logRoom (d : Dev) : Nat := if d.evr.wroteAt = some d.now then 16 - d.evr.wrote else 16

/-- Entries of the log FIFO reach their queues, up to 16 in a frame. -/
def Dev.eventLogWriteEff (d : Dev) : Dev :=
  let n := d.logRoom
  let out := d.evr.fifo.take n
  out.foldl (fun d x => d.placeItem x)
    (d.setEvr { d.evr with fifo := d.evr.fifo.drop n, wroteAt := some d.now, wrote := 16 - n + out.length })

/-- The hold-off of event `e` ends (R462): the frame after its last one, with one raising if it held any. -/
def Dev.holdoffExpiryEff (e : Nat) (d : Dev) : Dev :=
  let h := d.evr.hold.get e
  match h.until_ with
  | none => d
  | some t =>
    let d := d.advanceTo (t + 1)
    if h.occurred then
      (d.setEvr { d.evr with hold := d.evr.hold.set e ⟨some (d.now + h.n), h.n, false⟩ }).raise e
    else d.setEvr { d.evr with hold := d.evr.hold.set e {} }

end Sys2Proof.Machine
end

