-- ==== Sys2Proof/Machine/Decimation.lean ====
section
/-!
DEFINITION. Decimation units (07_decimation_units.md R169-R190): delivery of the items of DecItems.lean, the fast path, settling,
the threshold comparators, restarts, commits and SYNC.
-/
namespace Sys2Proof.Machine

/-- Change unit `u`. -/
def Dev.updDec (d : Dev) (u : Nat) (f : DecUnit → DecUnit) : Dev :=
  d.setDec { d.dec with unit := d.dec.unit.upd u f }

/-! ### Threshold comparators (R184) -/

/-- Comparator `k` of unit `u` takes an item from the fine items or the fast path. -/
def Dev.decThreshold (d : Dev) (u k : Nat) (fast : Bool) (lo hi : Int) : Dev :=
  let ctl : Rg := if k = 0 then .DEC_THR0_CTL else .DEC_THR1_CTL
  let lev : Fld := if k = 0 then DEC_THR0_LEVEL.LEVEL else DEC_THR1_LEVEL.LEVEL
  let cnt : Fld := if k = 0 then DEC_CNT_THR0.COUNT else DEC_CNT_THR1.COUNT
  let x := d.dec.unit.get u
  if ! d.flag ⟨ctl, 24, 1⟩ u || d.flag ⟨ctl, 30, 1⟩ u != fast then d
  else if ! fast && ! d.flag DEC_STAT.SETTLED u then d
  else
    let fall := d.flag ⟨ctl, 31, 1⟩ u
    let hyst : Int := d.get ⟨ctl, 0, 24⟩ u
    let y := if fall then lo else hi
    let arr := meetsTest true fall (d.gets lev u) hyst y 1
    let dep := meetsTest false fall (d.gets lev u) hyst y 1
    if x.init.getD k true then d.updDec u fun x => { x with q := x.q.set k arr, init := x.init.set k false }
    else
      let q := x.q.getD k false
      let q' := if q then ! dep else arr
      let d := d.updDec u fun x => { x with q := x.q.set k q' }
      if ! q && q' then
        let d := (d.bump cnt u).raise (224 + 2 * u + k)
        if x.pulsed.getD k none = some d.now then d
        else (d.updDec u fun x => { x with pulsed := x.pulsed.set k (some d.now) }).toUnits
          d.now ⟨d.now * 64 * 65536, 0xB0 + 2 * u + k, 2, false⟩
      else d

/-! ### Delivery (R180-R183) -/

/-- SETTLED rises once SETTLE_FR frames after the restart have left the stage store (R183). -/
def Dev.decSettle (d : Dev) (u : Nat) : Dev :=
  match (d.dec.unit.get u).runs.getLast? with
  | some x =>
    if x.k0 + d.settleFr u + 214 ≤ d.now && ! d.flag DEC_STAT.SETTLED u then
      let fine := fun (ctl : Rg) => ! d.flag ⟨ctl, 30, 1⟩ u
      (d.putb DEC_STAT.SETTLED true u).updDec u fun x =>
        { x with init := [x.init.getD 0 true || fine .DEC_THR0_CTL, x.init.getD 1 true || fine .DEC_THR1_CTL] }
    else d
  | none => d

/-- An item goes into the granule that the lanes of the unit take next; 64 items complete it. The first item after a restart starts
a granule. -/
def Dev.decToLanes (d : Dev) (u : Nat) (first : Bool) (o : DecOut) : Dev :=
  let part := (if first then [] else (d.dec.unit.get u).part) ++ [o]
  if part.length < 64 then d.updDec u fun x => { x with part := part }
  else
    (List.range 16).foldl (fun d l =>
      if d.flag REC_LCTL.EN l && d.get REC_LCTL.SRC l == 0x10 + u then
        d.laneGranule l (decGranule (d.get REC_LCTL.FORMAT l) part)
      else d) (d.updDec u fun x => { x with part := [] })

/-- A fine item of the run is still to be delivered, and its samples are there (R180). -/
def DecRun.fineDue (x : DecRun) (u : Nat) : Bool := decide ((x.conf u).lastIndex x.m < x.x.length)

/-- A frame of the run is still to be delivered on the fast path. -/
def DecRun.fastDue (x : DecRun) : Bool := decide (x.fast * 64 + 64 ≤ x.x.length)

/-- Unit `u` goes on with its runs: run `j` is now `x`, and runs before the last one that have delivered all their items are gone. -/
def Dev.decAfter (d : Dev) (u j : Nat) (x : DecRun) : Dev :=
  d.updDec u fun y =>
    let l := y.runs.set j x
    { y with runs := (l.dropLast.filter fun r => r.fineDue u || r.fastDue) ++ l.getLast?.toList }

/-- The oldest run that satisfies `p`, and its place. -/
def DecUnit.firstRun (x : DecUnit) (p : DecRun → Bool) : Option (Nat × DecRun) :=
  (x.runs.zipIdx.find? fun (r, _) => p r).map fun (r, i) => (i, r)

/-- The next fine item is delivered (R180). The comparators run on the items since the latest restart (R178, R187). -/
def Dev.decItemDeliveryEff (u : Nat) (d : Dev) : Dev :=
  let y := d.dec.unit.get u
  match y.firstRun fun r => r.fineDue u with
  | none => d
  | some (j, x) =>
    let c := x.conf u
    let last := c.lastIndex x.m
    let i := c.item x x.m
    let d := (d.advanceTo (x.k0 + last / 64 + 215)).decSettle u
    let d := (d.decAfter u j { x with m := x.m + 1 }).puts DEC_OUT.VALUE i.out u
    let d := if j + 1 = y.runs.length then
        (d.decThreshold u 0 false i.lo i.hi).decThreshold u 1 false i.lo i.hi
      else d
    if c.out then d else d.decToLanes u (x.m == 0) (c.fineOut x x.m)

/-- The fast path delivers the mean of the next frame (R182); a saturation on values of that frame counts (R171). -/
def Dev.fastPathItemEff (u : Nat) (d : Dev) : Dev :=
  let y := d.dec.unit.get u
  match y.firstRun fun r => r.fastDue with
  | none => d
  | some (j, x) =>
    let c := x.conf u
    let v := x.fastValue x.fast
    let d := d.advanceTo (x.k0 + x.fast + 215)
    let d := (d.decAfter u j { x with fast := x.fast + 1 }).puts DEC_FAST.VALUE v u
    let d := if c.saturates x x.fast then d.count DEC_CNT_SAT.COUNT u else d
    let d := if j + 1 = y.runs.length then (d.decThreshold u 0 true v v).decThreshold u 1 true v v else d
    if c.out then d.decToLanes u (x.fast == 0) (c.fastOut x x.fast) else d

def Dev.settledEff (u : Nat) (d : Dev) : Dev :=
  match (d.dec.unit.get u).runs.getLast? with
  | some x => if d.flag DEC_STAT.SETTLED u then d else (d.advanceTo (x.k0 + d.settleFr u + 214)).decSettle u
  | none => d

/-! ### Restarts, commits and SYNC (R170, R178, R185-R188) -/

/-- Unit `u` restarts at sample frame `k` (R178): a new run begins, while the items of the runs before it that are still due go on
(R180). With `rate` the restart is a change of the item rate for a lane that takes the output of the running unit (R187). -/
def Dev.decStart (d : Dev) (u k : Nat) (rate : Bool) : Dev :=
  let run : DecRun :=
    { k0 := k, cfg := d.rd ⟨.DEC_CFG_ACT, u, 0, 0⟩, step := d.rd ⟨.DEC_STEP_ACT, u, 0, 0⟩
      phase := d.rd ⟨.DEC_PHASE0_ACT, u, 0, 0⟩ }
  let d := d.updDec u fun x =>
    { x with runs := (x.runs.filter fun r => r.fineDue u || r.fastDue) ++ [run], init := [true, true], shown := true
             change := if rate && ! x.runs.isEmpty then some k else x.change }
  let δ := (d.decCfg u).delta
  (d.putb DEC_STAT.SETTLED false u).wr128 .DEC_T0 u false (d.stamp 0 k 0 δ (δ != 0))

/-- A restart of unit `u` that is due: a commit makes its copy active first (R187); an enabled unit that is powered starts a run. -/
def Dev.decDueUnit (d : Dev) (u k : Nat) : Dev :=
  let x := d.dec.unit.get u
  match x.restart with
  | none => d
  | some t =>
    if k < t then d
    else
      let d := match x.commit with
        | some (c, s, p) =>
          ((d.wr ⟨.DEC_CFG_ACT, u, 0, 0⟩ c).wr ⟨.DEC_STEP_ACT, u, 0, 0⟩ s).wr ⟨.DEC_PHASE0_ACT, u, 0, 0⟩ p
        | none => d
      let d := d.updDec u fun x => { x with restart := none, commit := none, shown := x.shown || x.commit.isSome }
      if d.flag DEC_CTL.EN u && d.decPowered u then d.decStart u t true else d

/-- The SYNCs and restarts due up to sample frame `k` take effect (R185): a commit of the same frame comes first, and
one restart serves both (R187). -/
def Dev.decDue (d : Dev) (k : Nat) : Dev :=
  let due := d.dec.sync.filter fun t => decide (t ≤ k)
  let d := d.setDec { d.dec with sync := d.dec.sync.filter fun t => decide (k < t) }
  let d := due.foldl (fun d t =>
    let d := (d.bump DEC_SYNC_STAT.APPLIED).wr128 .DEC_SYNC_TIME 0 true (d.stamp 0 t 0)
    (List.range 16).foldl (fun d u =>
      if d.flag DEC_CTL.EN u && d.flag DEC_CTL.SYNC_EN u && d.decPowered u then
        d.updDec u fun x => { x with restart := some (max t (x.restart.getD 0)) }
      else d) d) d
  (List.range 16).foldl (fun d u => d.decDueUnit u k) d

def Dev.decRestartEff (u : Nat) (d : Dev) : Dev :=
  let s := d.dec.sync.foldl min (d.dec.sync.headD 0)
  match minOpt (d.dec.unit.get u).restart (if d.dec.sync.isEmpty then none else some s) with
  | none => d
  | some t => (d.advanceTo (t + 150)).decDue t

/-- A restart at the sample frame at the unit in the next frame is due. -/
def Dev.decRestartNext (d : Dev) (u : Nat) : Dev :=
  d.updDec u fun x => { x with restart := some (d.frameAtUnit + 1) }

/-- The check of R170 on the staging copy: RESULT 1 DONE, 2 INVALID, 3 INUSE. -/
def Dev.decCheck (d : Dev) (u : Nat) : Nat :=
  let inuse := (List.range 16).any fun l => d.flag REC_LCTL.EN l && d.get REC_LCTL.SRC l == 0x10 + u
  let order := d.get DEC_CFG.ORDER u
  let ratio := d.get DEC_CFG.RATIO u
  let bad := match compOrder (d.get DEC_CFG.COMP u) with
    | some o => o != order
    | none => false
  if inuse then 3
  else if d.get DEC_CFG.MODE u = 3 then 2
  else if 12 ≤ u then 1
  else if order < 3 ∨ 5 < order ∨ ratio < 2 ∨ 4096 < ratio then 2
  else if bad then 2
  else if d.get DEC_CFG.MODE u = 0 ∧ d.flag DEC_CFG.RS_EN u ∧ d.get DEC_STEP.STEP u < 2 ^ 32 then 2
  else 1

/-- A write of DEC_COMMIT.GO (R170): the copy that has been checked becomes active in the next frame. -/
def Dev.decCommitEff (u : Nat) (d : Dev) : Dev :=
  let d := d.decDue d.frameAtUnit
  let r := d.decCheck u
  let d := d.put DEC_STAT.RESULT r u
  if r = 1 then (d.decRestartNext u).updDec u fun x =>
      { x with commit := some (d.rd ⟨.DEC_CFG, u, 0, 0⟩, d.rd ⟨.DEC_STEP, u, 0, 0⟩, d.rd ⟨.DEC_PHASE0, u, 0, 0⟩) }
  else d

/-- A change of DEC_CTL.EN (R178): a rising EN restarts the unit. -/
def Dev.decEnableEff (u : Nat) (en : Bool) (d : Dev) : Dev :=
  if d.flag DEC_CTL.EN u = en then d
  else
    let d := (d.decDue d.frameAtUnit).putb DEC_CTL.EN en u
    if en then d.decRestartNext u
    else ((d.putb DEC_STAT.SETTLED false u)).updDec u fun x =>
      { x with runs := [], restart := if x.commit.isSome then x.restart else none, part := [] }

/-- An arrival-timed SYNC, from GO or from a needle: at the sample frame at the units in the next frame (R185). -/
def Dev.decSyncGoEff (d : Dev) : Dev :=
  let k := d.frameAtUnit + 1
  if k ∈ d.dec.sync then d else d.setDec { d.dec with sync := d.dec.sync ++ [k] }

/-- A timed SYNC sets out: its instant in 1/65,536 tick. -/
def Dev.decSyncTimed (d : Dev) (inst : Nat) : Dev :=
  d.setDec { d.dec with timed := d.dec.timed ++ [inst] }

/-- The next timed SYNC reaches the units: late ones are dropped (R185). -/
def Dev.timedSyncEff (d : Dev) : Dev :=
  match d.dec.timed with
  | [] => d
  | t :: rest =>
    let d := d.setDec { d.dec with timed := rest }
    let k := (t + 64 * 65536 - 1) / (64 * 65536)
    if k < d.frameAtUnit then d.count DEC_SYNC_STAT.LATE
    else if k ∈ d.dec.sync then d
    else d.setDec { d.dec with sync := d.dec.sync ++ [k] }

/-- The samples of a valid frame join a run. -/
def DecRun.take (r : DecRun) (f : Frame) : DecRun :=
  { r with x := r.x ++ f.samples
           marks := r.marks ++ if f.holdover || f.degraded then [(f.k, f.holdover, f.degraded)] else [] }

/-- The sample frame that a run waits for. -/
def DecRun.next (r : DecRun) : Nat := r.k0 + r.x.length / 64

/-- A frame of channel `c` reaches unit `u` (R169). Invalid frames hold the unit: it restarts at the first valid frame that does not
follow on its samples (R178, R188), once its first restart is due. -/
def Dev.decFrame (d : Dev) (c : Nat) (f : Frame) (u : Nat) : Dev :=
  if ! d.flag DEC_CTL.EN u || ! d.decPowered u || d.get DEC_CFG_ACT.SRC u != c || ! f.valid then d
  else
    let x := d.dec.unit.get u
    let on := match x.runs.getLast? with
      | some r => r.next == f.k
      | none => false
    if ! on && x.restart.isSome then d
    else
      (if on then d else d.decStart u f.k false).updDec u fun x =>
        { x with runs := x.runs.dropLast ++ x.runs.getLast?.toList.map fun r => r.take f }

end Sys2Proof.Machine
end

