-- ==== Sys2Proof/Machine/TrigBus.lean ====
section
/-!
DEFINITION. Trigger bus, star ports, SYNC and markers (17_multi_device_timing.md R386-R404): ownership, launches, input
edges and their filter, contention, message words and the ping.
-/
namespace Sys2Proof.Machine

/-- Change pin `x`. -/
def Dev.updPin (d : Dev) (x : Nat) (f : SynPin → SynPin) : Dev :=
  d.setSyn { d.syn with pin := d.syn.pin.upd x f }

/-- Change the running ping. -/
def Dev.updPing (d : Dev) (f : Ping → Ping) : Dev := d.setSyn { d.syn with ping := d.syn.ping.map f }

/-! ### Pins and what they drive (R386-R388) -/

/-- A pin that the module has. -/
def pinExists (x : Nat) : Bool := decide (x < 22) || decide (32 ≤ x) && decide (x < 48)

/-- Trigger line `x` is owned. -/
def Dev.pinOwned (d : Dev) (x : Nat) : Bool := decide (x < 16) && d.get SYN_OWN.LINES / 2 ^ x % 2 == 1

/-- A wired-OR line: an owned trigger line with DRIVE 0 (R388). -/
def Dev.wiredOr (d : Dev) (x : Nat) : Bool := d.pinOwned x && ! d.flag SYN_PCFG.DRIVE x

/-- The engine drives pin `x` (R387, R390). -/
def Dev.pinDriven (d : Dev) (x : Nat) : Bool :=
  ! d.flag SYN_PSTAT.FAULT x && (if x < 16 then d.pinOwned x else if x < 19 then d.flag SYN_PCFG.DIR x
    else x == 21 || (decide (32 ≤ x) && decide (x < 48)))

/-- The pair of message mode while it is enabled (R395). -/
def Dev.inPair (d : Dev) (x : Nat) : Bool := d.flag SYN_MSG_CTL.EN && x / 2 == d.get SYN_MSG_CTL.PAIR && decide (x < 16)

/-- Ping runs on line `x`. -/
def Dev.pinPings (d : Dev) (x : Nat) : Bool := (d.syn.ping.map Ping.pin) == some x

/-- The inversion of a pin: ignored on a wired-OR line. -/
def Dev.pinInv (d : Dev) (x : Nat) : Bool := d.flag SYN_PCFG.INV x && ! d.wiredOr x

/-- The launch trim of a pin in 1/65,536 tick: 0 during a ping (R394). -/
def Dev.pinTrim (d : Dev) (x : Nat) : Nat := if d.pinPings x then 0 else d.get SYN_TRIM.TRIM x * 4096

/-! ### Timed messages (R185, R378, R399) -/

/-- The instant of ERA:TICK and FRAC in the model's frames, in 1/65,536 tick; instants half the count's range ahead are
past (R99). -/
def Dev.instOf (d : Dev) (time frac : Nat) : Nat :=
  let ahead := (time + 2 ^ 72 - d.countAt d.now % 2 ^ 72) % 2 ^ 72
  if ahead < 2 ^ 71 then (d.now * 64 + ahead) * 65536 + frac else (d.now * 64 - (2 ^ 72 - ahead)) * 65536 + frac

/-- A message with its time, code and source sets out for the trigger units and the SYNC. -/
def Dev.timedMessage (d : Dev) (time frac code src : Nat) : Dev :=
  let d := d.msgToUnits ⟨time % 2 ^ 72, frac, code, src⟩
  if d.flag DEC_SYNC_CTL.MSG_EN && d.get DEC_SYNC_CTL.MSG_CODE == code then d.decSyncTimed (d.instOf time frac) else d

/-! ### Sources (R391) -/

/-- The source code of a pin (R118). -/
def pinSource (x : Nat) : Nat := if x < 16 then 0x90 + x else 0xA0 + (x - 16)

/-- The level of a pin at the trigger units: 0 on an unowned line without LISTEN, on the message pair and during a ping. -/
def Dev.pinSeen (d : Dev) (x : Nat) : Bool :=
  d.flag SYN_PSTAT.LVL x && (decide (16 ≤ x) || d.pinOwned x || d.flag SYN_PCFG.LISTEN x) && ! d.inPair x
    && ! d.pinPings x

/-- A level of a pin changes at an instant; the units see it in frame `k`. -/
def Dev.pinChange (d : Dev) (k x : Nat) (level : Bool) (inst : Nat) : Dev :=
  d.toUnits k ⟨inst, pinSource x, level.toNat, true⟩

/-- After a change of what is listened to: every level seen differently changes at the next frame boundary. -/
def Dev.seenUpdate (d before : Dev) : Dev :=
  (List.range 19).foldl (fun d x =>
    if d.pinSeen x = before.pinSeen x then d else d.pinChange (d.now + 1) x (d.pinSeen x) ((d.now + 1) * 64 * 65536)) d

/-! ### Launches (R389) -/

/-- A launch waits for its boundary. -/
def Dev.pinLaunch (d : Dev) (x : Nat) (l : Launch) : Dev := d.updPin x fun p => { p with launches := p.launches ++ [l] }

/-- The level driven changes at boundary `b`: the edge will come back through the input (R392). -/
def Dev.pinDrive (d : Dev) (x b : Nat) (level : Bool) : Dev :=
  if (d.syn.pin.get x).out = level then d
  else
    let t := b * 64 * 65536 + d.pinTrim x
    d.updPin x fun p => { p with out := level, own := p.own ++ [(level, t)] }

/-- A pulse starts, or restarts its width. -/
def Dev.pinPulse (d : Dev) (x b width : Nat) : Dev :=
  (d.pinDrive x b true).updPin x fun p => { p with pulseEnd := some (b + width) }

/-- A pin returns to its idle level at the next frame boundary: its pulse is cut short and nothing waits. -/
def Dev.pinIdle (d : Dev) (x : Nat) : Dev :=
  (d.pinDrive x (d.now + 1) false).updPin x fun p => { p with launches := [], pulseEnd := none, marks := [] }

/-- What a marker that begins to show its MARK pulses launches at boundary `b`: the rest of the pulse that runs then (the latest
launch sets its width), or its idle level; and the pulses to come. -/
def SynPin.markLaunches (p : SynPin) (b : Nat) : List Launch :=
  let now := p.marks.foldl (fun e x => if x.1 ≤ b then x.1 + x.2 else e) 0
  (if b < now then ⟨b, now - b, true⟩ else ⟨b, 0, false⟩)
    :: (p.marks.filter fun x => decide (b < x.1)).map fun x => ⟨x.1, x.2, true⟩

/-- What pin `x` launches at boundary `b` when KIND begins to act there (R389): LEVEL, what its MARK pulses give, or its idle
level. -/
def Dev.pinSignal (d : Dev) (x b : Nat) : List Launch :=
  match d.get SYN_PCFG.KIND x with
  | 2 => [⟨b, 0, d.flag SYN_PCFG.LEVEL x⟩]
  | 3 => if 32 ≤ x then (d.syn.pin.get x).markLaunches b else [⟨b, 0, false⟩]
  | _ => [⟨b, 0, false⟩]

/-- Launches of pin `x` from boundary now + 2 on are replaced by those of its KIND. -/
def Dev.pinRelaunch (d : Dev) (x : Nat) : Dev :=
  d.updPin x fun p => { p with launches := (p.launches.filter fun l => decide (l.frame < d.now + 2))
                                 ++ d.pinSignal x (d.now + 2) }

/-- Pin `x` is driven again, or by its KIND again (a line that comes to be owned, a cleared FAULT, the end of message mode): the
signal of its KIND is launched as after a write (DEDUCED, log entry 53). -/
def Dev.pinResume (d : Dev) (x : Nat) : Dev := if d.pinDriven x && ! d.inPair x then d.pinRelaunch x else d

/-- The next launch of pin `x`. -/
def Dev.outputLaunchEff (x : Nat) (d : Dev) : Dev :=
  match (d.syn.pin.get x).launches with
  | [] => d
  | l :: rest =>
    let d := (d.advanceTo l.frame).updPin x fun p => { p with launches := rest }
    if ! d.pinDriven x || d.inPair x then d
    else if l.width = 0 then (d.pinDrive x l.frame l.level).updPin x fun p => { p with pulseEnd := none }
    else d.pinPulse x l.frame l.width

/-- The end of a pulse. -/
def Dev.markerPulseEndEff (x : Nat) (d : Dev) : Dev :=
  match (d.syn.pin.get x).pulseEnd with
  | none => d
  | some t => ((d.advanceTo t).pinDrive x t false).updPin x fun p => { p with pulseEnd := none }

/-- An event that reaches the router in frame `k` launches its pulses at boundary k + 2 (R389). -/
def Dev.eventPulses (d : Dev) (k e : Nat) : Dev :=
  (List.range 48).foldl (fun d x =>
    if pinExists x && d.get SYN_PCFG.KIND x == 1 && d.get SYN_PCFG.EVT x == e then
      d.pinLaunch x ⟨k + 2, d.get SYN_TRIM.WM1 x + 1, true⟩
    else d) d

/-- A MARK of `width` frames for marker `m`, launched at a boundary (R276, R389): the pulse is produced, and driven while the
marker shows MARK pulses. -/
def Dev.markPulse (d : Dev) (m width boundary : Nat) : Dev :=
  let d := d.updPin (32 + m) fun p =>
    { p with marks := (p.marks.filter fun x => decide (d.now < x.1 + x.2)) ++ [(boundary, width)] }
  if d.get SYN_PCFG.KIND (32 + m) = 3 then d.pinLaunch (32 + m) ⟨boundary, width, true⟩ else d

/-- A write of SYN_PCFG was applied: LEVEL is launched at boundary a + 2, and a pin of another KIND than before takes its
idle level there, or what its MARK pulses give (R276, R389). A star port that becomes an input is released. -/
def Dev.pcfgWritten (d before : Dev) (x : Nat) : Dev :=
  let kind := d.get SYN_PCFG.KIND x
  let d := if before.pinDriven x && ! d.pinDriven x then d.pinIdle x
    else if kind ≠ before.get SYN_PCFG.KIND x then d.pinRelaunch x
    else if kind = 2 then d.pinLaunch x ⟨d.now + 2, 0, d.flag SYN_PCFG.LEVEL x⟩
    else d
  d.seenUpdate before

/-! ### Message words (R395-R399) -/

/-- TXQ shows the queue. -/
def Dev.txqShow (d : Dev) : Dev := d.put SYN_MSG_STAT.TXQ d.syn.words.length

/-- The head word leaves the queue. -/
def Dev.wordDone (d : Dev) : Dev :=
  (d.setSyn { d.syn with words := d.syn.words.drop 1, tries := 0, phase := .ready }).txqShow

/-- The head word is given up (R397). -/
def Dev.wordGiveUp (d : Dev) : Dev := (d.wordDone.count SYN_CNT_TXFAIL.COUNT).raise 572

/-- The queue is dropped; each word counts (R402). -/
def Dev.wordsDrop (d : Dev) : Dev :=
  let n := d.syn.words.length
  ((d.setSyn { d.syn with words := [], tries := 0, phase := .ready }).count SYN_CNT_TXFAIL.COUNT 0 0 n).txqShow

/-- A word is being sent. -/
def Dev.wordSending (d : Dev) : Bool := match d.syn.phase with
  | .sending _ => true
  | _ => false

/-- A collision (R397): both lines are released, and the word backs off or is given up. -/
def Dev.wordCollision (d : Dev) : Dev :=
  let d := (d.count SYN_CNT_COLL.COUNT).raiseHeld 1250 573
  let n := d.syn.tries + 1
  if 16 ≤ n then d.wordGiveUp
  else
    let s := lfsrRun (d.get SYN_LFSR.STATE) 32
    let k := s * 2 ^ min n 6 / 2 ^ 32
    let d := d.put SYN_LFSR.STATE s
    d.setSyn { d.syn with tries := n, phase := .backoff d.now k }

/-- A CRC-8 with polynomial 0x07 and initial value 0 over the bits of a word, the most significant first (R396). -/
def crc8 (w : W32) : BitVec 8 :=
  (List.range 32).foldl (fun c i =>
    let b := c.msb ^^ w.getLsbD (31 - i)
    (c <<< 1) ^^^ (if b then 0x07 else 0)) 0

/-- The word of a code and a fire offset (R396). -/
def trigWord (id code fine : Nat) : W32 := BitVec.ofNat 32 (id * 2 ^ 18 + code * 2 ^ 10 + fine)

/-- The 40 bits of a word frame: the word and its CRC-8, each with the most significant bit first (R396). -/
def wordBits (w : W32) : List Bool :=
  (List.range 32).map (fun i => w.getLsbD (31 - i)) ++ (List.range 8).map fun i => (crc8 w).getLsbD (7 - i)

/-- DATA in the 80 half-bits of a word frame: bit 1 is asserted first and then released, bit 0 the other way (R396). -/
def halfBits (w : W32) : List Bool := (wordBits w).flatMap fun b => [b, ! b]

/-- The start of a word at the ball, in 1/16 tick: its grid boundary and the trim of DATA (R397). -/
def Dev.wordLaunch (d : Dev) (b : Nat) : Nat := b * 1024 + d.get SYN_TRIM.TRIM (2 * d.get SYN_MSG_CTL.PAIR)

/-- The word being sent releases DATA in some part of the current frame; a half-bit is of 5 ns, 6,400 sixteenths of a tick
(R396, R397). -/
def Dev.dataReleased (d : Dev) : Bool :=
  match d.syn.phase, d.syn.words with
  | .sending b, (code, fine) :: _ =>
    let t := d.now * 1024
    let s := d.wordLaunch b
    let h := halfBits (trigWord (d.get SYN_SYSID.ID) code fine)
    decide (s < t + 1024) && [(t - s) / 6400, (t + 1023 - s) / 6400].any fun i => ! h.getD i true
  | _, _ => false

/-- A write of SYN_MSG_CTL (R395, R402). -/
def Dev.msgModeEnableEff (v : W32) (d : Dev) : Dev :=
  let before := d
  let lead := max 448 (v.toNat % 4096)
  if d.flag SYN_MSG_CTL.EN then
    let d := d.put SYN_MSG_CTL.LEAD lead
    let pair := d.get SYN_MSG_CTL.PAIR
    if v.getLsbD 31 then d
    else ((((d.putb SYN_MSG_CTL.EN false).wordsDrop).pinResume (2 * pair)).pinResume (2 * pair + 1)).seenUpdate before
  else
    let pair := v.toNat / 2 ^ 16 % 8
    let d := (d.put SYN_MSG_CTL.LEAD lead).put SYN_MSG_CTL.PAIR pair
    if ! v.getLsbD 31 then d
    else if ! (d.wiredOr (2 * pair) && d.wiredOr (2 * pair + 1)) then d.put SYN_MSG_STAT.RESULT 2
    else if d.pinPings (2 * pair) || d.pinPings (2 * pair + 1) then d.put SYN_MSG_STAT.RESULT 3
    else
      let d := ((d.putb SYN_MSG_CTL.EN true).put SYN_MSG_STAT.RESULT 1).pinIdle (2 * pair)
      let d := (d.testEnd 2 (2 * pair) 7).testEnd 2 (2 * pair + 1) 7
      (d.pinIdle (2 * pair + 1)).seenUpdate before

/-- A write of SYN_MSG_TX (R397). -/
def Dev.msgTxGoEff (v : W32) (d : Dev) : Dev :=
  let d := d.wr ⟨.SYN_MSG_TX, 0, 0, 0⟩ (v.setWidth 64)
  if ! v.getLsbD 31 then d
  else if 16 ≤ d.syn.words.length then (d.count SYN_CNT_TXFAIL.COUNT).put SYN_MSG_STAT.RESULT 4
  else
    let w := (d.get SYN_MSG_TX.CODE, d.get SYN_MSG_TX.FINE)
    (d.setSyn { d.syn with words := d.syn.words ++ [w] }).txqShow

/-- FRAME of the pair reads 0: since which frame. -/
def Dev.frameFree (d : Dev) : Option Nat :=
  let p := d.syn.pin.get (2 * d.get SYN_MSG_CTL.PAIR + 1)
  if p.raw then none else some p.rawAt

/-- The first grid boundary (a TICK that is a multiple of 1,024) at or after frame `k`. -/
def Dev.gridAfter (d : Dev) (k : Nat) : Nat := k + ((1024 - d.countAt k % 1024) % 1024 + 63) / 64

/-- The head word starts once FRAME has read 0 for 100 frames (R397). -/
def Dev.wordSendStartEff (d : Dev) : Dev :=
  match d.syn.words, d.syn.phase, d.frameFree with
  | _ :: _, .ready, some t =>
    let pair := d.get SYN_MSG_CTL.PAIR
    if d.flag SYN_MSG_CTL.EN && d.flag SYN_SYSID.EN && d.pinDriven (2 * pair) && d.pinDriven (2 * pair + 1) then
      let b := d.gridAfter (max d.now (t + 100))
      let d := d.advanceTo b
      d.setSyn { d.syn with phase := .sending b }
    else d
  | _, _, _ => d

/-- The backoff ends: 100 frames with FRAME at 0 and k slots of 600 frames (R397). -/
def Dev.backoffExpiryEff (d : Dev) : Dev :=
  match d.syn.phase, d.frameFree with
  | .backoff t k, some f =>
    let d := d.advanceTo (max t f + 100 + 600 * k)
    d.setSyn { d.syn with phase := .ready }
  | _, _ => d

/-- A word with its source reaches the units at T = B + 64 LEAD + FINE / 16 (R399). -/
def Dev.wordArrives (d : Dev) (b : Nat) (w : W32) : Dev :=
  let fine := w.toNat % 1024
  d.timedMessage (d.countAt b + 64 * d.get SYN_MSG_CTL.LEAD + fine / 16) (fine % 16 * 4096)
    (w.toNat / 1024 % 256) (w.toNat / 2 ^ 18)

/-- The word being sent ends without a collision, once its 40 bits of 12.5 frames have left the ball (R396, R397). -/
def Dev.msgTxEff (d : Dev) : Dev :=
  match d.syn.phase, d.syn.words with
  | .sending b, (code, fine) :: _ =>
    let d := d.advanceTo ((d.wordLaunch b + 1023) / 1024 + 500)
    let d := d.wordArrives b (trigWord (d.get SYN_SYSID.ID) code fine)
    ((d.bump SYN_CNT_TX.COUNT).raise 571).wordDone
  | _, _ => d

/-- The grid boundary nearest to an instant in 1/65,536 tick, as a frame; `none` if it lies more than 8 frames away. -/
def Dev.gridNear (d : Dev) (inst : Nat) : Option Nat :=
  let k := inst / 65536 / 64
  let b := d.gridAfter k
  let near := if 16 ≤ b ∧ 2 * (b * 64 * 65536 - inst) > 16 * 64 * 65536 then b - 16 else b
  let dist := ((near * 64 * 65536 : Nat) : Int) - (inst : Int)
  if dist.natAbs ≤ 8 * 64 * 65536 then some near else none

/-- A frame on the enabled pair ends: whether its bits are well formed, its word and CRC, and the stamp of the edge of
FRAME, `ago` frames back (R398). -/
def Dev.msgFrameRxEff (framed : Bool) (word : W32) (crc : Byte) (ago sample frac : Nat) (d : Dev) : Dev :=
  if ! d.flag SYN_MSG_CTL.EN || d.wordSending then d
  else
    let x := 2 * d.get SYN_MSG_CTL.PAIR + 1
    let edge := d.pinInst x (((d.now - ago) * 64 + sample) * 65536 + frac)
    let bad := (d.count SYN_CNT_MSGBAD.COUNT).raiseHeld 1250 574
    match d.gridNear (edge - d.get SYN_LAUNCH_K.K * 4096) with
    | some b =>
      if ! framed || crc8 word != crc then bad
      else if word.toNat / 2 ^ 18 = d.get SYN_SYSID.ID then (d.count SYN_CNT_IDCLASH.COUNT).raise 575
      else
        ((d.bump SYN_CNT_RX.COUNT).raise 570).wr ⟨.SYN_MSG_LAST, 0, 0, 0⟩ (word.setWidth 64) |>.wordArrives b word
    | none => bad

/-! ### The ping (R394) -/

/-- The ping ends with a result; its line takes its KIND's signal again. -/
def Dev.pingEnd (d : Dev) (result : Nat) : Dev :=
  let line := (d.syn.ping.map Ping.pin).getD 0
  ((d.setSyn { d.syn with ping := none }).put SYN_PING_STAT.RESULT result).pinResume line

/-- A write of SYN_PING_CTL. -/
def Dev.pingGoEff (v : W32) (d : Dev) : Dev :=
  let before := d
  let d := d.wr ⟨.SYN_PING_CTL, 0, 0, 0⟩ (v.setWidth 64)
  let x := d.get SYN_PING_CTL.PIN
  if ! v.getLsbD 31 then d
  else if d.syn.ping.isSome || ! d.pinOwned x || d.inPair x then d.put SYN_PING_STAT.RESULT 4
  else
    let p : Ping := { responder := d.flag SYN_PING_CTL.ROLE, pin := x, count := max 1 (d.get SYN_PING_CTL.COUNT)
                      go := d.now, next := d.now + 1 }
    let d := ((d.testEnd 2 x 7).pinIdle x).put SYN_PING_STAT.DONE 0
    ((d.setSyn { d.syn with ping := some p }).put SYN_PING_STAT.RESULT 1).seenUpdate before

/-- A pulse of the ping, of 8 frames; a line that is owned no more is not driven (R387). -/
def Dev.pingDrive (d : Dev) (p : Ping) (b : Nat) : Dev := if d.pinDriven p.pin then d.pinPulse p.pin b 8 else d

/-- The initiator launches the next pulse. -/
def Dev.pingPulseEff (d : Dev) : Dev :=
  match d.syn.ping with
  | some p =>
    if p.responder || decide (p.count ≤ p.sent) then d
    else
      let d := (d.advanceTo p.next).pingDrive p p.next
      d.updPing fun p => { p with sent := p.sent + 1, next := p.next + 1024, waiting := some p.next }
  | none => d

/-- A difference is measured. -/
def Dev.pingMeasured (d : Dev) (x : Int) : Dev :=
  (d.updPing fun p => { p with diffs := p.diffs ++ [x] }).put SYN_PING_STAT.DONE (d.get SYN_PING_STAT.DONE + 1)

/-- A rising edge of another device on the ping's line, with its stamp. -/
def Dev.pingEdge (d : Dev) (p : Ping) (stamp : Nat) : Dev :=
  if p.responder then
    let b := (stamp + 512 * 64 * 65536 + 64 * 65536 - 1) / (64 * 65536)
    if p.diffs.length < p.count ∧ p.reply = none then
      d.updPing fun p => { p with heard := true, reply := some (b, stamp) }
    else d
  else match p.waiting with
    | some b =>
      (d.updPing fun p => { p with waiting := none }).pingMeasured ((stamp : Int) - ((b * 64 * 65536 : Nat) : Int))
    | none => d

/-- The responder replies at the first boundary at or after the stamp plus 512 frames. -/
def Dev.pingReplyEff (d : Dev) : Dev :=
  match d.syn.ping with
  | some p =>
    match p.reply with
    | some (b, stamp) =>
      let d := ((d.advanceTo b).pingDrive p b).updPing fun p => { p with reply := none }
      d.pingMeasured (((b * 64 * 65536 : Nat) : Int) - (stamp : Int))
    | none => d
  | none => d

/-- All pulses are measured: the mean (its rounding is free where it is no whole number) and the spread (log entry 22). -/
def Dev.pingDoneEff (d : Dev) : Dev :=
  match d.syn.ping with
  | some p =>
    if p.diffs.length < p.count then d
    else
      let before := d
      let n : Int := (p.diffs.length : Nat)
      let low := p.diffs.sum / n
      let exact := p.diffs.sum % n = 0
      let mean := if exact then low else low + ((d.freeVal.toNat % 2 : Nat) : Int)
      let d := if exact then d else d.drawn
      let d := d.wr ⟨.SYN_PING_MEAN, 0, 0, 0⟩ (BitVec.ofInt 64 mean)
      let flat := p.diffs.all fun x => x == p.diffs.headD 0
      let d := if flat then d.put SYN_PING_SD.VALUE 0 else d.putFree SYN_PING_SD.VALUE
      ((d.pingEnd 2).raise 576).seenUpdate before
  | none => d

/-- A responder that has received no pulse within 1 s of GO. -/
def Dev.pingTimeoutEff (d : Dev) : Dev :=
  match d.syn.ping with
  | some p => if p.responder && ! p.heard then ((d.advanceTo (p.go + 1250000000)).pingEnd 3).seenUpdate d else d
  | none => d

/-! ### Input edges (R391, R392) -/

/-- MINW of a pin, in 1/65,536 tick. -/
def Dev.pinMinw (d : Dev) (x : Nat) : Nat := max 1 (d.get SYN_PCFG.MINW x) * 64 * 65536

/-- A filtered edge of frame `k` is delivered: to the ping, to the trigger units 10 frames later, to the SYNC and to the origin
set. -/
def Dev.pinDeliver (d : Dev) (k x : Nat) (level : Bool) (stamp : Nat) (own : Option Nat) : Dev :=
  match d.syn.ping with
  | some p =>
    if p.pin = x then (if level && own.isNone then d.pingEdge p stamp else d) else deliver d
  | none => deliver d
where
  /-- The edge at its compensated instant. -/
  deliver (d : Dev) : Dev :=
    let inst := match own with
      | some t => ((t : Int) + d.gets SYN_IDLY.DELAY x).toNat
      | none => d.pinInst x stamp
    let heard := decide (16 ≤ x) || d.pinOwned x || d.flag SYN_PCFG.LISTEN x
    let d := if x < 19 ∧ heard ∧ ! d.inPair x then d.pinChange (k + 10) x level inst else d
    let d := if x = 19 ∧ level then (d.raise 577).originEdge 2 inst else d
    let sync := level && (x == 19 && d.flag DEC_SYNC_CTL.PIN_EN
      || decide (x < 16) && d.flag DEC_SYNC_CTL.TB_EN && d.get DEC_SYNC_CTL.TB_LINE == x)
    if sync then d.decSyncTimed inst else d

/-- The filtered level changes, MINW frames after the edge that began it. -/
def Dev.pinFiltered (d : Dev) (x : Nat) (stamp : Nat) (own : Option Nat) : Dev :=
  let level := ! d.flag SYN_PSTAT.LVL x
  ((d.updPin x fun p => { p with edge := none }).putb SYN_PSTAT.LVL level x).pinDeliver
    (stamp / 65536 / 64 + max 1 (d.get SYN_PCFG.MINW x)) x level stamp own

/-- A raw level has held for MINW frames. -/
def Dev.filteredChangeEff (x : Nat) (d : Dev) : Dev :=
  match (d.syn.pin.get x).edge with
  | some (t, own) => (d.advanceTo (t / 65536 / 64 + max 1 (d.get SYN_PCFG.MINW x))).pinFiltered x t own
  | none => d

/-- An edge at a pin: the new level at the ball, and its stamp in the current frame. An edge that the engine launched is
recognised; an excursion shorter than MINW is a glitch. -/
def Dev.pinEdgeEff (x : Nat) (level : Bool) (sample frac : Nat) (d : Dev) : Dev :=
  if ! pinExists x || (d.syn.pin.get x).raw == level then d
  else
    let t := (d.now * 64 + sample) * 65536 + frac
    let p := d.syn.pin.get x
    let own := p.own.find? fun o => (o.1 ^^ d.pinInv x) == level
    let d := d.updPin x fun p => { p with raw := level, rawAt := d.now
                                          own := if own.isSome then (p.own.dropWhile fun o => some o != own).drop 1 else p.own }
    let mine := own.map Prod.snd
    let lvl := level ^^ d.pinInv x
    match p.edge with
    | some (t0, own0) =>
      if d.pinMinw x ≤ t - t0 then
        (d.pinFiltered x t0 own0).updPin x fun p => { p with edge := some (t, mine) }
      else
        ((d.updPin x fun p => { p with edge := none }).count SYN_CNT_GLITCH.COUNT x).raiseHeld 1250 569
    | none =>
      if lvl = d.flag SYN_PSTAT.LVL x then d else d.updPin x fun p => { p with edge := some (t, mine) }

/-! ### Ownership and contention (R387, R390) -/

/-- A line stops to be driven at the next frame boundary (R387, R402, R470). -/
def Dev.lineRelease (d : Dev) (x : Nat) : Dev :=
  let d := if d.wordSending && d.inPair x then d.wordGiveUp else d
  d.pinIdle x

/-- A write of SYN_OWN. -/
def Dev.ownershipWriteEff (v : Nat) (d : Dev) : Dev :=
  let before := d
  let d := (List.range 16).foldl (fun d x =>
    if before.pinOwned x ∧ v / 2 ^ x % 2 = 0 then (d.lineRelease x).testEnd 2 x 7 else d) d
  let d := d.put SYN_OWN.LINES v
  ((List.range 16).foldl (fun d x => if ! before.pinOwned x && d.pinOwned x then d.pinResume x else d) d).seenUpdate before

/-- A READBACK session holds line `x`. -/
def Dev.readbackOn (d : Dev) (x : Nat) : Option Nat :=
  (List.range 8).find? fun s => d.flag TST_CTL.EN s && d.get TST_CTL.IF s == 2 && d.get TST_CTL.UNIT s == x

/-- A pin that the engine drives reads another level for two consecutive frames (R390). -/
def Dev.contentionEff (x : Nat) (level : Bool) (d : Dev) : Dev :=
  let p := d.syn.pin.get x
  let clash := (d.setFlag SYN_PSTAT.CONTENTION x).count SYN_CNT_CONT.COUNT |>.raise 568
  let clash := match d.readbackOn x with
    | some s => clash.put TST_ERRS.COUNT (clash.get TST_ERRS.COUNT s + 1) s
    | none => clash
  if ! pinExists x || ! d.pinDriven x then d
  else if d.wiredOr x then
    if d.wordSending && d.inPair x then (if level && x % 2 == 0 && d.dataReleased then d.wordCollision else d)
    else if (p.out || (d.readbackOn x).isSome) && ! level then clash else d
  else if level = (p.out ^^ d.pinInv x) then d
  else (clash.pinIdle x).setFlag SYN_PSTAT.FAULT x

/-- A clear of SYN_PSTAT.FAULT: the pin is driven again (R390). -/
def Dev.faultClearEff (x : Nat) (d : Dev) : Dev :=
  if d.flag SYN_PSTAT.FAULT x then (d.putb SYN_PSTAT.FAULT false x).pinResume x else d

/-- A reset: every pin is released or idle within 1 frame, and the queue is dropped (R402). -/
def Dev.trigBusReset (d : Dev) : Dev :=
  let d := (List.range 48).foldl (fun d x => if pinExists x then d.pinIdle x else d) d.wordsDrop
  d.setSyn { d.syn with ping := none }

end Sys2Proof.Machine
end

