-- ==== Sys2Proof/Machine/Events.lean ====
section
/-!
DEFINITION. The event router (14_host_link_queues_and_events.md R344, R345): what a raising does when it arrives.
-/
namespace Sys2Proof.Machine

/-- Set the bit of an event in EVR_PEND (R344). -/
def Dev.pendSet (d : Dev) (e : Nat) : Dev := d.setBits ⟨.EVR_PEND, e / 32, 0, 0⟩ (maskBits (e % 32) 1)

/-- Event `e` reaches the router in frame `k` (R344): pending, an MSI request, a log entry, the waits of the needles
(R273), pulses on marker outputs (R389). -/
def Dev.routed (d : Dev) (k e : Nat) : Dev :=
  let d := d.pendSet e
  let d := if d.flag EVR_CFG.MSI_EN e then d.request (d.get EVR_CFG.VEC e) else d
  let d := if d.flag EVR_CFG.LOG_EN e then d.logEvent k e (d.get EVR_CFG.LOG_Q e) else d
  (d.wakeEvent k e).eventPulses k e

/-- Insert a raising by its frame and its event. -/
def insertRaising (x : Nat × Nat) : List (Nat × Nat) → List (Nat × Nat)
  | [] => [x]
  | y :: t => if x.1 < y.1 || (x.1 == y.1 && x.2 < y.2) then x :: y :: t else y :: insertRaising x t

/-- The raisings on their way, in order of frames and events. -/
def Dev.arrivals (d : Dev) : List (Nat × Nat) := d.evr.arriving.foldr insertRaising []

/-- Raisings reach the router, each in its frame. -/
def Dev.arrive (d : Dev) (l : List (Nat × Nat)) : Dev := l.foldl (fun d x => d.routed x.1 x.2) d

/-- Every raising on its way reaches the router. -/
def Dev.eventsSettle (d : Dev) : Dev := (d.setEvr { d.evr with arriving := [] }).arrive d.arrivals

/-- The raisings that come before the first one of event `e`, and those from it on. -/
def splitRaisings (e : Nat) : List (Nat × Nat) → List (Nat × Nat) × List (Nat × Nat)
  | [] => ([], [])
  | x :: t => if x.2 = e then ([], x :: t) else (x :: (splitRaisings e t).1, (splitRaisings e t).2)

/-- The oldest raising of event `e` that has not reached the router does so, after those of earlier frames and of lower
numbers in its own (R345). -/
def Dev.eventRaisedEff (e : Nat) (d : Dev) : Dev :=
  match splitRaisings e d.arrivals with
  | (_, []) => d
  | (before, x :: rest) =>
    ((d.setEvr { d.evr with arriving := rest }).arrive before |>.advanceTo x.1).routed x.1 x.2

end Sys2Proof.Machine
end

