-- ==== Sys2Proof/Machine/Tally.lean ====
section
/-!
DEFINITION. The tally (08_tally_and_mask_testing.md R192-R215): jobs, records, averaging, envelopes, density maps, mask
tests and the TALLY space.
-/
namespace Sys2Proof.Machine

/-! ### Folding points (R199, R202-R204) -/

/-- A two's-complement number of `w` bits. -/
def signedOf (w v : Nat) : Int := if v < 2 ^ (w - 1) then (v : Int) else (v : Int) - 2 ^ w

/-- A number as `n` two's-complement little-endian bytes. -/
def signedBytes (n : Nat) (v : Int) : List Byte := leBytes (v % (2 ^ (8 * n) : Int)).toNat n

/-- Point `i` with value `x` is folded into sums or an envelope (R199, R202). -/
def Dev.foldPoint (d : Dev) (j : Nat) (halve : Bool) (i : Nat) (x : Int) : Dev :=
  let st := d.talStore j
  let n := d.talBytes j
  let a := d.talAcc j + n * i
  let v := leNat (d.storeRead st a n)
  if d.talMode j = 3 then
    let lo := min (signedOf 16 (v % 65536)) x
    let hi := max (signedOf 16 (v / 65536)) x
    d.storeWrite st a (signedBytes 2 lo ++ signedBytes 2 hi)
  else
    let s := signedOf (8 * n) v
    d.storeWrite st a (signedBytes n ((if halve then s / 2 else s) + x))

/-- The row of a sample (R203). -/
def Dev.talRow (d : Dev) (j : Nat) (x : Int) : Nat :=
  let r := (x - d.gets TAL_JOB_DEN.BASE j) / (2 ^ min 8 (d.get TAL_JOB_DEN.SHIFT j) : Int)
  min r.toNat (d.talRows j - 1)

/-- Add to the difference bin of column `c` and row `r` (R204). -/
def Dev.binAdd (d : Dev) (j c r : Nat) (v : Int) : Dev :=
  let n := d.talBytes j
  let a := d.talAcc j + (c * d.talRows j + r) * n
  d.storeWrite 2 a (signedBytes n ((leNat (d.storeRead 2 a n) : Int) + v))

/-- The two writes for a column's span (R204). -/
def Dev.binSpan (d : Dev) (j c lo hi : Nat) : Dev :=
  let d := d.binAdd j c lo 1
  if hi + 1 < d.talRows j then d.binAdd j c (hi + 1) (-1) else d

/-- A point of a record is accumulated: captured in the raw buffer (R211), folded, or taken into its column (R203). -/
def Dev.tallyPoint (d : Dev) (j : Nat) (r : TallyRec) (x : Int) : Dev × TallyRec :=
  let i := r.folded
  let r' := { r with folded := i + 1 }
  if d.get TAL_JOB_CFG.STORE j ≠ 0 then (d.storeWrite 2 (d.talBase j + 2 * i) (signedBytes 2 x), r')
  else if d.talDen j then
    let row := d.talRow j x
    let c := i / d.talStep j
    let first := i % d.talStep j = 0
    let lo := if first then (if i = 0 then row else min r.prev row) else min r.lo row
    let hi := if first then (if i = 0 then row else max r.prev row) else max r.hi row
    let r' := { r' with lo := lo, hi := hi, prev := row }
    if (i + 1) % d.talStep j = 0 ∨ i + 1 = r.points then (d.binSpan j c lo hi, r') else (d, r')
  else (d.foldPoint j r.halve i x, r')

/-- A sample violates the mask of its point (R206). -/
def Dev.maskHit (d : Dev) (j i : Nat) (x : Int) : Bool :=
  let a := d.get TAL_MASK_TBL.OFS j + 16 * (i / d.talStep j)
  (List.range 4).any fun n =>
    let lo := signedOf 16 (leNat (d.tal.mem.bytes (a + 4 * n) 2))
    let hi := signedOf 16 (leNat (d.tal.mem.bytes (a + 4 * n + 2) 2))
    decide (lo ≤ x) && decide (x ≤ hi)

/-! ### Limits and stops (R193, R198-R201, R205) -/

/-- LIMIT as it acts; ENV has none (R193). -/
def Dev.talLimit (d : Dev) (j : Nat) : Option Nat :=
  let cap : Option Nat := match d.talMode j with
    | 1 => some 65536
    | 2 => some (2 ^ 48)
    | 4 => some 65535
    | 5 => some (2 ^ 32 - 1)
    | _ => none
  let l := d.get TAL_JOB_LIMIT.VALUE j
  cap.map fun c => if l = 0 ∨ c < l then c else l

/-- COUNT after one more record (R199, R202, R204). -/
def Dev.talCountNext (d : Dev) (j n : Nat) : Nat :=
  match d.talLimit j with
  | none => min (n + 1) (2 ^ 48 - 1)
  | some l => if n = l ∧ d.flag TAL_JOB_CFG.POLICY j ∧ ! d.talDen j then l / 2 + 1 else n + 1

/-- COUNT once the records in progress have completed. -/
def Dev.talCountDue (d : Dev) (j : Nat) : Nat :=
  (d.tal.job.get j).recs.foldl (fun n _ => d.talCountNext j n) (d.get TAL_JOB_COUNT.VALUE j)

/-- The job enters STOPPED with a REASON (R214): what it had begun is gone. -/
def Dev.talStopped (d : Dev) (j reason : Nat) : Dev :=
  ((((d.put TAL_JSTAT.STATE 4 j).put TAL_JSTAT.REASON reason j).updJob j fun x =>
    { x with recs := [], ready := none, onAt := none, pausing := false, failing := none, satStop := false, halving := none }).raise
      (256 + 4 * j))

/-- The points of a record with an outer store that are folded by now: 16 a frame from its beginning, as far as they are captured
(R211; log entry 14). -/
def Dev.talFolded (d : Dev) (r : TallyRec) : Nat := min r.folded (16 * (d.now - r.began))

/-- The fold of the job's record has gone on to the present frame (R211). -/
def Dev.talFold (d : Dev) (j : Nat) : Dev :=
  match (d.tal.job.get j).recs with
  | r :: t =>
    if d.get TAL_JOB_CFG.STORE j = 0 then d
    else
      let n := d.talFolded r
      let d := (List.range (n - r.outer)).foldl (fun d i =>
        let i := r.outer + i
        d.foldPoint j r.halve i (signedOf 16 (leNat (d.tal.mem.bytes (d.talBase j + 2 * i) 2)))) d
      d.updJob j fun x => { x with recs := { r with outer := max n r.outer } :: t }
  | [] => d

/-- The frame in which the oldest record completes, once its last sample frame is processed: the next one, or with an outer store the
one in which its fold ends (R197, R211). -/
def Dev.talDueAt (d : Dev) (j : Nat) (r : TallyRec) : Option Nat :=
  r.doneAt.map fun t => if d.get TAL_JOB_CFG.STORE j = 0 then t else max t (r.began + (r.points + 15) / 16)

/-- The records in progress end unfinished (R198): PARTIAL is the first point of the first one that is not folded. The
span of a column in progress is written as far as it goes. -/
def Dev.talCut (d : Dev) (j : Nat) : Dev :=
  match (d.tal.job.get j).recs with
  | [] => d
  | r :: _ =>
    let n := if d.get TAL_JOB_CFG.STORE j = 0 then r.folded else d.talFolded r
    let d := if d.get TAL_JOB_CFG.STORE j ≠ 0 then d.talFold j
      else if d.talDen j ∧ r.folded % d.talStep j ≠ 0 ∧ r.folded < r.points then
        d.binSpan j (r.folded / d.talStep j) r.lo r.hi
      else d
    d.put TAL_JOB_PARTIAL.VALUE n j

/-- The halved map of the first `n` columns (R205). -/
def Dev.halveColumns (d : Dev) (j n : Nat) : Dev :=
  let b := d.talBytes j
  let rows := d.talRows j
  (List.range n).foldl (fun d c =>
    let a := d.talAcc j + c * rows * b
    let diffs := (List.range rows).map fun r => leNat (d.storeRead 2 (a + r * b) b)
    let h := diffs.foldl (fun (acc, l) v => let s := (acc + v) % 2 ^ (8 * b); (s, l ++ [s / 2])) ((0 : Nat), ([] : List Nat))
    (h.2.zipIdx.foldl (fun (d, p) (v, r) =>
      ((d : Dev).storeWrite 2 (a + r * b) (signedBytes b ((v : Int) - (p : Nat))), v)) (d, 0)).1) d

/-- Columns that the halving pass has finished (R205: 64 bins a frame and bank; for a stop DEDUCED, log entry 15). -/
def Dev.talHalved (d : Dev) (j : Nat) : Nat :=
  match (d.tal.job.get j).halving with
  | some t => min (d.talCols j) ((d.now - t) * 64 * d.talBanks j / d.talRows j)
  | none => 0

/-- Completion of the oldest record (R197, R199, R200, R205). -/
def Dev.talComplete (d : Dev) (j : Nat) : Dev :=
  match (d.tal.job.get j).recs with
  | [] => d
  | r :: t =>
    let d := d.updJob j fun x => { x with recs := t }
    let n := d.talCountNext j (d.get TAL_JOB_COUNT.VALUE j)
    let d := (d.bump TAL_JOB_REC.VALUE j).put TAL_JOB_COUNT.VALUE n j
    let d := if r.degraded then d.putb TAL_JSTAT.DEGRADED true j else d
    let d := if r.holdover then d.putb TAL_JSTAT.HOLDOVER true j else d
    let den := d.talDen j
    if some n ≠ d.talLimit j then d
    else if d.flag TAL_JOB_CFG.POLICY j then
      let d := if den ∨ ! d.flag TAL_JSTAT.SATURATED j then
          (d.putb TAL_JSTAT.SATURATED true j).raise (257 + 4 * j) else d
      let x := d.tal.job.get j
      if den ∧ x.failing.isNone then
        d.updJob j fun x => { x with halving := some (d.now + 1) }
      else d
    else
      let d := (d.putb TAL_JSTAT.SATURATED true j).raise (257 + 4 * j)
      let x := d.tal.job.get j
      if x.failing.isSome then d
      else if d.flag TAL_MASK_CTL.EN j && d.flag TAL_MASK_CTL.STOP j
          && (x.verdicts.any fun v => ! v.past && v.record.index == r.index) then d.updJob j fun x => { x with satStop := true }
      else d.talStopped j 2

/-! ### Sample frames (R196-R198, R206) -/

/-- A record takes its samples of a frame; `none` when the frame is not the one it needs, or is invalid (R198). -/
def Dev.talTake (d : Dev) (j : Nat) (r : TallyRec) (f : Frame) : Option (Dev × TallyRec) :=
  let next := r.a + r.folded
  if r.points ≤ r.folded ∨ (f.k + 1) * 64 ≤ next then some (d, r)
  else if next < f.k * 64 ∨ ! f.valid then none
  else
    let xs := (f.samples.drop (next - f.k * 64)).take (r.points - r.folded)
    let hits := if d.flag TAL_MASK_CTL.EN j then
        (xs.zipIdx.filter fun (x, i) => d.maskHit j (r.folded + i) x).length
      else 0
    let r := { r with degraded := r.degraded || f.degraded, holdover := r.holdover || f.holdover }
    let (d, r) := xs.foldl (fun (d, r) x => (d : Dev).tallyPoint j r x) (d, r)
    let last := decide (r.points ≤ r.folded)
    let r := if last then { r with doneAt := some (d.now + 1) } else r
    let d := if d.flag TAL_MASK_CTL.EN j then
        d.updJob j fun x => { x with verdicts := x.verdicts ++ [⟨d.now + 2, f.k, hits, r, last, false⟩] }
      else d
    some (d, r)

/-- The clock of a record's channel is lost (R198): the records before it, with all their samples, complete first. -/
def Dev.talLost (d : Dev) (j : Nat) (before : Nat) : Dev :=
  let d := (List.range before).foldl (fun d _ => d.talComplete j) d
  if d.get TAL_JSTAT.STATE j = 2 then (d.talCut j).talStopped j 4 else d

/-- Every record in progress takes its samples of a frame; a missing or invalid one ends the run (R198). -/
def Dev.talFrames (d : Dev) (j : Nat) (f : Frame) : List TallyRec → List TallyRec → Dev
  | acc, [] => d.updJob j fun x => { x with recs := acc }
  | acc, r :: t =>
    match d.talTake j r f with
    | some (d', r') => d'.talFrames j f (acc ++ [r']) t
    | none => (d.updJob j fun x => { x with recs := acc ++ r :: t }).talLost j acc.length

/-- A frame of channel `c` leaves the stage store at job `j` (R196). -/
def Dev.tallyFrame (d : Dev) (c : Nat) (f : Frame) (j : Nat) : Dev :=
  if d.get TAL_JOB_CFG.SRC j = c ∧ d.get TAL_JSTAT.STATE j = 2 then
    (d.talFold j).talFrames j f [] ((d.talFold j).tal.job.get j).recs
  else d

/-- A new record takes the frames that have already left the stage store, the oldest first (R196). -/
def Dev.talCatchUp (d : Dev) (j : Nat) : List Frame → Dev
  | [] => d
  | f :: t =>
    match (d.tal.job.get j).recs.getLast? with
    | none => d
    | some r =>
      match d.talTake j r f with
      | some (d', r') => (d'.updJob j fun x => { x with recs := x.recs.dropLast ++ [r'] }).talCatchUp j t
      | none => d.talLost j ((d.tal.job.get j).recs.length - 1)

/-- A trigger is skipped: counted, and SKIP with its hold-off (R196). -/
def Dev.talSkip (d : Dev) (j : Nat) (f : Fld) : Dev := (d.count f j).raiseHeld 1250 (259 + 4 * j)

/-- The job takes the next accepted trigger of its unit (R195, R196). -/
def Dev.tallyTriggerEff (j : Nat) (d : Dev) : Dev :=
  match (d.tal.job.get j).trig with
  | [] => d
  | (inst, time, seg) :: rest =>
    let d := d.updJob j fun x => { x with trig := rest }
    let x := d.tal.job.get j
    let st := d.get TAL_JSTAT.STATE j
    let a := (inst + 65535) / 65536 - d.get TAL_JOB_PRE.VALUE j
    let full := some (d.talCountDue j) == d.talLimit j
    let halve := d.flag TAL_JOB_CFG.POLICY j
    let outer := d.get TAL_JOB_CFG.STORE j != 0
    let busy : Bool := match x.busyEnd with
      | some e => decide (a ≤ e)
      | none => false
    if st ≠ 2 ∨ x.pausing ∨ (full ∧ ! halve) then d
    else if busy ∨ (outer ∧ x.recs ≠ []) then d.talSkip j TAL_CNT_BUSY.COUNT
    else if a < x.runStart then d.talSkip j TAL_CNT_FILL.COUNT
    else if x.halving.isSome ∨ (d.talDen j ∧ full) then d.talSkip j TAL_CNT_HALVE.COUNT
    else
      let pts := d.get TAL_JOB_POINTS.VALUE j
      let r : TallyRec :=
        { a := a, inst := inst, time := time, seg := seg, points := pts, began := d.now, halve := full && halve
          index := (d.get TAL_JOB_REC.VALUE j + x.recs.length) % 2 ^ 48 }
      let d := d.updJob j fun x => { x with recs := x.recs ++ [r], busyEnd := some (a + pts - 1) }
      d.talCatchUp j ((d.path.get (d.get TAL_JOB_CFG.SRC j)).hist.reverse.filter fun f => decide (a / 64 ≤ f.k))

/-- The oldest record completes in its frame, with the rest of its fold (R197, R211). -/
def Dev.talFinish (d : Dev) (j : Nat) (outer : Bool) : Dev :=
  match (d.tal.job.get j).recs with
  | [] => d
  | r :: _ =>
    match d.talDueAt j r with
    | some t => if (d.get TAL_JOB_CFG.STORE j != 0) = outer then ((d.advanceTo t).talFold j).talComplete j else d
    | none => d

/-- A record with its last sample processed completes in the next frame (R197). -/
def Dev.tallyRecordCompleteEff (j : Nat) (d : Dev) : Dev := d.talFinish j false

/-- The fold of a long record ends: 16 points a frame from its beginning, and the record completes (R211). -/
def Dev.foldCompleteEff (j : Nat) (d : Dev) : Dev := d.talFinish j true

/-! ### Starting and stopping (R194, R198, R201, R205, R212) -/

/-- The first rule of R194 that fails, as CFG_ERR; 0 when all hold. -/
def Dev.talCheck (d : Dev) (j : Nat) : Nat :=
  let mode := d.talMode j
  let store := d.get TAL_JOB_CFG.STORE j
  let base := d.talBase j
  let size := d.talBanks j * bankSize
  if mode = 0 ∨ 5 < mode ∨ store = 3 ∨ (d.talDen j ∧ store ≠ 0) then 1
  else if size < d.talInner j + d.talMaskBytes j ∨ 8 < d.get TAL_JOB_CFG.BANK_FIRST j + d.talBanks j then 2
  else if (List.range 8).any fun i => i != j && d.talHolds i 2 base size then 3
  else if d.skeinMeets 2 base size then 3
  else if store ≠ 0 ∧ (d.storeSize (d.talStore j) < d.talAcc j + d.talAccBytes j
      ∨ d.skeinMeets (d.talStore j) (d.talAcc j) (d.talAccBytes j)) then 3
  else if 262143 < d.get TAL_JOB_PRE.VALUE j ∨ d.get TAL_JOB_POINTS.VALUE j = 0 then 4
  else 0

/-- The domains of the job's banks are on (R212). -/
def Dev.talPowered (d : Dev) (j : Nat) : Bool :=
  (List.range (d.talBanks j)).all fun b => d.pdOn (76 + d.get TAL_JOB_CFG.BANK_FIRST j + b)

/-- A write of TAL_JOB_CMD with START, and CLR with it (R194, R212). -/
def Dev.tallyStartEff (j : Nat) (clr : Bool) (d : Dev) : Dev :=
  let st := d.get TAL_JSTAT.STATE j
  if st ≠ 0 ∧ st ≠ 4 then d
  else
    let e := d.talCheck j
    let d := d.put TAL_JSTAT.CFG_ERR e j
    if e ≠ 0 then
      (((d.put TAL_JSTAT.STATE 0 j).put TAL_JSTAT.REASON 5 j).updJob j fun x => { x with own := none }).raise (256 + 4 * j)
    else
      let d := (d.put TAL_JSTAT.REASON 0 j).put TAL_MASK_TBL.OFS
        (d.talBase j + d.talBanks j * bankSize - d.talMaskBytes j) j
      let d :=
        if clr then
          ((((((d.put TAL_JOB_COUNT.VALUE 0 j).put TAL_JOB_REC.VALUE 0 j).put TAL_JOB_PARTIAL.VALUE 0 j).putb
            TAL_JSTAT.SATURATED false j).putb TAL_JSTAT.DEGRADED false j).putb TAL_JSTAT.HOLDOVER false j)
        else d
      let own := d.talShape j
      let on := if d.talPowered j then some d.now else none
      let past := (d.tal.job.get j).verdicts.map fun v => { v with past := true }
      let failAt := (d.tal.job.get j).failAt
      ((d.put TAL_JSTAT.STATE 1 j).updJob j fun _ =>
        { own := some own, ready := some d.now, onAt := on, clr := clr, verdicts := past, failAt := failAt }).retireRecheck

/-- Write clear values to the bytes `lo` to `hi` of the accumulator: zeros, or minimum 0x7FFF and maximum 0x8000 (R202). -/
def Dev.talClear (d : Dev) (j lo hi : Nat) : Dev :=
  let st := d.talStore j
  let a := d.talAcc j + lo
  let n := hi - lo
  if d.talMode j = 3 then
    (List.range (n / 4)).foldl (fun d i => d.storeWrite st (a + 4 * i) [0xFF, 0x7F, 0x00, 0x80]) d
  else
    let cut := fun (m : Memory) => m.filter fun e => decide (e.1 < a) || decide (a + n ≤ e.1)
    let out := fun (l : List Nat) => l.filter fun p => ! meets (p * 64) 64 a n
    match st with
    | 0 => d.setBen { d.ben with bench := cut d.ben.bench, benchPoison := out d.ben.benchPoison }
    | 1 => d.setBen { d.ben with quarry := cut d.ben.quarry, quarryPoison := out d.ben.quarryPoison }
    | _ => d.setTal { d.tal with mem := cut d.tal.mem }

/-- The clearing of a job has gone on to the present frame: 64 words a frame and bank from the frame in which its banks are on
(R212). -/
def Dev.talClearing (d : Dev) (j : Nat) : Dev :=
  let x := d.tal.job.get j
  match x.onAt with
  | some t =>
    if ! x.clr then d
    else
      let n := max x.cleared (min (d.talAccBytes j) ((d.now - t) * 256 * d.talBanks j))
      (d.talClear j x.cleared n).updJob j fun x => { x with cleared := n }
  | none => d

/-- The frame in which a job whose banks are on from frame `t` becomes RUNNING (R212). -/
def Dev.talReadyAt (d : Dev) (j t : Nat) (clr : Bool) : Nat :=
  if clr then t + max 1 ((d.talAccBytes j + 256 * d.talBanks j - 1) / (256 * d.talBanks j)) else t + 1

/-- The banks of a waiting job are on now: its clearing begins (R40, R212). -/
def Dev.talBanksOn (d : Dev) (j : Nat) : Dev :=
  let x := d.tal.job.get j
  if x.ready.isSome && x.onAt.isNone && d.talPowered j then d.updJob j fun x => { x with onAt := some d.now } else d

/-- The job becomes RUNNING (R212); banks whose domain is off hold it in CLEARING (R40). -/
def Dev.tallyClearDoneEff (j : Nat) (d : Dev) : Dev :=
  match (d.tal.job.get j).onAt with
  | none => d
  | some t =>
    if ! d.talPowered j then d
    else
      let d := (d.advanceTo (d.talReadyAt j t (d.tal.job.get j).clr)).talClearing j
      (d.put TAL_JSTAT.STATE 2 j).updJob j fun x =>
        { x with ready := none, onAt := none, runStart := (d.now - 214) * 64, busyEnd := none }

/-- What a job has still to write by the present frame is written: clear values, folds, halved columns (R205, R211, R212). -/
def Dev.talWrites (d : Dev) (j : Nat) : Dev :=
  let d := (d.talClearing j).talFold j
  d.halveColumns j (d.talHalved j)

/-- A write of STOP (R198): a record that completes in this frame completes first (R213); a halving pass stops where it
is. -/
def Dev.tallyStopEff (j : Nat) (d : Dev) : Dev :=
  let st := d.get TAL_JSTAT.STATE j
  if st = 0 ∨ st = 4 then d
  else
    let d := match (d.tal.job.get j).recs with
      | r :: _ => match d.talDueAt j r with
        | some t => if t ≤ d.now then (d.talFold j).talComplete j else d
        | none => d
      | [] => d
    if d.get TAL_JSTAT.STATE j = 4 then d
    else ((d.talWrites j).talCut j).talStopped j 1

def Dev.tallyPauseEff (j : Nat) (d : Dev) : Dev :=
  let st := d.get TAL_JSTAT.STATE j
  if st = 2 ∨ st = 1 then d.updJob j fun x => { x with pausing := true } else d

/-- A PAUSE takes effect once the record in progress has completed (R201). -/
def Dev.tallyPausedEff (j : Nat) (d : Dev) : Dev :=
  let x := d.tal.job.get j
  if x.pausing && x.recs.isEmpty && x.halving.isNone && d.get TAL_JSTAT.STATE j == 2 then
    (d.put TAL_JSTAT.STATE 3 j).updJob j fun x => { x with pausing := false }
  else d

/-- A RESUME sets a new start of the run (R201). -/
def Dev.tallyResumeEff (j : Nat) (d : Dev) : Dev :=
  if d.get TAL_JSTAT.STATE j = 3 then
    (d.put TAL_JSTAT.STATE 2 j).updJob j fun x => { x with runStart := (d.now - 214) * 64 }
  else d

/-- The halving pass ends (R205). -/
def Dev.halvingDoneEff (j : Nat) (d : Dev) : Dev :=
  match (d.tal.job.get j).halving with
  | none => d
  | some t =>
    let rate := 64 * d.talBanks j
    let d := d.advanceTo (t + (d.talCols j * d.talRows j + rate - 1) / rate)
    let d := (d.halveColumns j (d.talCols j)).put TAL_JOB_COUNT.VALUE ((d.talLimit j).getD 0 / 2) j
    d.updJob j fun x => { x with halving := none }

/-! ### Verdicts (R206-R209) -/

/-- A violation in sample frame `k` marks the segment that the same trigger opened on the bound lane (R208). -/
def Dev.laneMaskFail (d : Dev) (l : Nat) (r : TallyRec) (k : Nat) : Dev :=
  let kt := trigFrame r.inst
  d.updLane l fun x =>
    { x with
      seg := x.seg.map fun s =>
        if s.time = r.time ∧ some s.segnum = r.seg ∧ kt - s.p ≤ k ∧ (s.post = openEnded ∨ k < kt + s.post) then
          { s with maskfail := true } else s
      await := x.await.map fun y =>
        let p := y.preCount / 64
        if y.kind = 0 ∧ y.time = r.time ∧ some y.segnum = r.seg ∧ kt - p ≤ k ∧ k < kt - p + (y.length + 63) / 64 then
          { y with maskfail := true } else y }

/-- The next verdict of the job is ready (R206-R209). One of an earlier run still counts, and stops nothing (log entry 63). -/
def Dev.maskVerdictEff (j : Nat) (d : Dev) : Dev :=
  match (d.tal.job.get j).verdicts with
  | [] => d
  | v :: rest =>
    let d := (d.advanceTo v.ready).updJob j fun x => { x with verdicts := rest }
    let l := d.get TAL_MASK_CTL.LANE j
    let bound := d.flag TAL_MASK_CTL.LANE_EN j && v.record.seg.isSome
    let d :=
      if v.n = 0 then d
      else
        let d := d.count TAL_CNT_VSAMP.COUNT j 0 v.n
        let d := if d.flag TAL_MASK_CTL.TRIG j then
            d.toUnits d.now ⟨d.now * 64 * 65536, 0xD0 + d.get TAL_JOB_CFG.SRC j, 2, false⟩ else d
        let d := if bound then d.laneMaskFail l v.record v.k else d
        if (d.tal.job.get j).failAt = some v.record.inst then d
        else
          let d := (d.count TAL_CNT_VIOL.COUNT j).raiseHeld 1250 (258 + 4 * j)
          let d := d.updJob j fun x => { x with failAt := some v.record.inst }
          if d.flag TAL_MASK_CTL.STOP j ∧ ! v.past ∧ (d.tal.job.get j).failing = none ∧ d.get TAL_JSTAT.STATE j ≠ 4 then
            let d := d.updJob j fun x => { x with failing := some v.record }
            if bound then d.laneMaskStop l else d
          else d
    let x := d.tal.job.get j
    if v.last && ! v.past && x.satStop && x.failing.isNone then d.talStopped j 2 else d

/-- The failing record has completed and its last verdict is ready: the job's run ends (R209). -/
def Dev.tallyMaskStopEff (j : Nat) (d : Dev) : Dev :=
  let x := d.tal.job.get j
  match x.failing with
  | none => d
  | some r =>
    if (x.recs.any fun y => y.index == r.index) || (x.verdicts.any fun v => ! v.past && v.record.index == r.index) then d
    else
      let d := d.wr128 .TAL_FAIL_TIME j false r.time
      let d := (d.putb TAL_FAIL_SEG.VALID true j).putb TAL_FAIL_SEG.KIND r.seg.isSome j
      let d := d.put TAL_FAIL_SEG.NUMBER (r.seg.getD r.index) j
      (d.talCut j).talStopped j 3

/-! ### The TALLY space (R204, R205, R210, R215) -/

/-- The integrated view of bin `r` of column `c` (R204). -/
def Dev.binSum (d : Dev) (j c r : Nat) : Nat :=
  let v := d.talView j
  let a := v.acc + c * v.rows * v.bin
  ((List.range (r + 1)).map fun i => leNat (d.storeRead 2 (a + i * v.bin) v.bin)).sum % 2 ^ (8 * v.bin)

/-- The density job whose accumulator holds a byte of the tally store. -/
def Dev.densityAt (d : Dev) (a : Nat) : Option Nat :=
  (List.range 8).find? fun j => match (d.tal.job.get j).own with
    | some h => h.den && decide (h.acc ≤ a) && decide (a < h.acc + h.bytes)
    | none => false

/-- The halving pass of job `j` runs: STATE is HALVING (R205). -/
def Dev.talHalving (d : Dev) (j : Nat) : Bool := match (d.tal.job.get j).halving with
  | some t => decide (t ≤ d.now)
  | none => false

/-- A byte as the halving pass leaves it so far (R205): the column in progress reads as a free value. -/
def Dev.tallyByte (d : Dev) (integrated : Bool) (a : Nat) : Byte :=
  match d.densityAt a with
  | none => Tab.get d.tal.mem a
  | some j =>
    let s := d.talView j
    let b := s.bin
    let i := (a - s.acc) / b
    let c := i / max 1 s.rows
    let r := i % max 1 s.rows
    let fin := d.talHalved j
    let run := d.talHalving j
    if run && c == fin then Config.rewriting d.now a
    else
      let h := fun r => if run && decide (c < fin) then d.binSum j c r / 2 else d.binSum j c r
      let v := if integrated then h r
        else if run && decide (c < fin) then (h r + 2 ^ (8 * b) - (if r = 0 then 0 else h (r - 1))) % 2 ^ (8 * b)
        else leNat (d.storeRead 2 (s.acc + i * b) b)
      BitVec.ofNat 8 (v / 256 ^ ((a - s.acc) % b))

/-- Bytes of the TALLY space: the raw view, and the integrated one from 0x800_0000 (R215). -/
def Dev.tallyRead (d : Dev) (ofs n : Nat) : List Byte :=
  (List.range n).map fun i => d.tallyByte (decide (tallySize ≤ ofs + i)) ((ofs + i) % tallySize)

/-- A write of `n` bytes of the TALLY space is discarded: it reaches the integrated view, or a bank that a job holds (R210,
R215). -/
def Dev.tallyDiscards (d : Dev) (ofs n : Nat) : Bool :=
  decide (tallySize < ofs + n) || (List.range 8).any fun j =>
    d.talHolds j 2 ofs n

/-- A write that reaches the TALLY space; a discarded one is counted. -/
def Dev.tallySpaceWriteEff (ofs : Nat) (data : List Byte) (d : Dev) : Dev :=
  if d.tallyDiscards ofs data.length then d.count TAL_G_WDROP.COUNT
  else d.setTal { d.tal with mem := d.tal.mem.store ofs data }

end Sys2Proof.Machine
end

