-- ==== Sys2Proof/Machine/Slices.lean ====
section
/-!
DEFINITION. Converter slices (02_converter_slices.md R42-R66): slots and sub-converters, sparing, suspect windows, the
DAC route, enabling, and the tables of the correction pipeline with their commits (03 R74-R79).
-/
namespace Sys2Proof.Machine

/-- Change slice `n`. -/
def Dev.updSlice (d : Dev) (n : Nat) (f : Slice → Slice) : Dev := d.setSlice (d.slice.upd n f)

/-- Change group `h` of slice `n`. -/
def Dev.updGroup (d : Dev) (n h : Nat) (f : Group → Group) : Dev :=
  d.updSlice n fun x => { x with group := x.group.upd h f }

/-! ### Tables (R71, R74-R79) -/

/-- The identity value of a table word, by its offset among the inactive windows (R71, R93). -/
def tabIdentity (off : Nat) : Nat :=
  if 0x2000 ≤ off ∧ off < 0x2200 then (if off / 4 % 16 = 8 then 65536 else 0)
  else if 0x2200 ≤ off ∧ off < 0x2280 then (if off = 0x2240 then 65536 else 0)
  else if 0x2400 ≤ off ∧ off < 0x2560 then 30000
  else 0

/-- The bits that a table word holds (R74); `none` where no inactive window lies. -/
def tabMask (off : Nat) : Option Nat :=
  if 0x2000 ≤ off ∧ off < 0x2200 then some 0x3FFFF
  else if 0x2200 ≤ off ∧ off < 0x2280 then some 0xFFFFF
  else if 0x2400 ≤ off ∧ off < 0x2560 then some 0xFFFFFFF
  else if 0x10000 ≤ off ∧ off < 0x10000 + 0x800 * 88 then some 0xFFFFFFFF
  else none

/-- The sub-converter whose page holds a table word; `none` for the timing bank. -/
def tabSub (off : Nat) : Option Nat :=
  if 0x2400 ≤ off ∧ off < 0x2560 then some ((off - 0x2400) / 4)
  else if 0x10000 ≤ off then some ((off - 0x10000) / 0x800)
  else none

/-- A word of a copy of the tables. -/
def Slice.word (x : Slice) (copy off : Nat) : Nat := x.tab.get (copy * 2 ^ 18 + off) ^^^ tabIdentity off

/-- Set a word of a copy. -/
def Slice.setWord (x : Slice) (copy off v : Nat) : Slice :=
  { x with tab := x.tab.set (copy * 2 ^ 18 + off) (v ^^^ tabIdentity off) }

/-- A bit of a register group of three words over sub-converters (R93). -/
def Dev.subBit (d : Dev) (f : Fld) (n p : Nat) : Bool := d.get f n (p / 32) / 2 ^ (p % 32) % 2 == 1

/-- Set such a bit. -/
def Dev.setSubBit (d : Dev) (f : Fld) (n p : Nat) (b : Bool) : Dev :=
  let v := d.get f n (p / 32)
  let m := 2 ^ (p % 32)
  d.put f (if b then v ||| m else v - (v &&& m)) n (p / 32)

/-- The copy of a table word that the registers call active. -/
def Dev.activeCopy (d : Dev) (n off : Nat) : Nat :=
  match tabSub off with
  | some p => (d.subBit CV_SUB_ACT.P n p).toNat
  | none => d.get CV_TBL_STAT.TIM_ACTIVE n

/-- A commit switches the copy of a table word (R75). -/
def Commit.names (c : Commit) (off : Nat) : Bool :=
  match tabSub off with
  | some p => c.subs.contains p
  | none => c.tim

/-- The copy that corrects the samples of frame `k` (R75): while a commit is pending the registers show the old roles, and
afterwards the new ones. Each sample that a filter meets has been corrected with the tables of its own frame: R75 does not
say which tables give the neighbours of a sample beside frame c + 16 (DESIGN CHOICE, log entry 58). -/
def Dev.copyFor (d : Dev) (n k off : Nat) : Nat :=
  let a := d.activeCopy n off
  match (d.slice.get n).commit, (d.slice.get n).last with
  | some c, _ => if c.names off && decide (c.c + 16 ≤ k) then 1 - a else a
  | none, some c => if c.names off && decide (k < c.c + 16) then 1 - a else a
  | none, none => a

/-- A read of a table window (R93), by its offset in the slice: active windows at 0x3000, inactive ones elsewhere. -/
def Dev.tabRead (d : Dev) (n off : Nat) : Nat :=
  let x := d.slice.get n
  if 0x3000 ≤ off ∧ off < 0x4000 then x.word (d.activeCopy n (off - 0x1000)) (off - 0x1000)
  else x.word (1 - d.activeCopy n off) off

/-- A write of an inactive copy (R76, R78). -/
def Dev.tableWindowWriteEff (n off : Nat) (v : W32) (d : Dev) : Dev :=
  match tabMask off with
  | none => d
  | some m =>
    if d.flag CV_TBL_STAT.PENDING n then d.count CV_TBL_DROP.DROPPED n
    else
      let d := d.updSlice n fun x => x.setWord (1 - d.activeCopy n off) off (v.toNat &&& m)
      match tabSub off with
      | some p => d.setSubBit CV_SUB_DISC.P n p false
      | none => d.putb CV_TBL_STAT.TIM_DISC false n

/-- A commit is refused (R76, R78). -/
def Dev.tblRefuse (d : Dev) (n why : Nat) : Dev :=
  ((d.put CV_TBL_STAT.LAST_REFUSE why n).count CV_TBL_DROP.REFUSED n).raise (16 * n + 12)

/-- The sub-converters armed for the next commit. -/
def Dev.armed (d : Dev) (n : Nat) : List Nat := (List.range 88).filter fun p => d.subBit CV_SUB_ARM.P n p

/-- A write of CV_TBL_COMMIT (R75, R76, R78): BUSY, then DISCARDED, then EMPTY. The commit switches the pages that are armed
now; `rot` is the group whose rotation it serves. -/
def Dev.tableCommit (d : Dev) (n : Nat) (sub tim : Bool) (rot : Option Nat := none) : Dev :=
  let subs := if sub then d.armed n else []
  if ! sub && ! tim then d
  else if d.flag CV_TBL_STAT.PENDING n then d.tblRefuse n 1
  else if (tim && d.flag CV_TBL_STAT.TIM_DISC n) || subs.any fun p => d.subBit CV_SUB_DISC.P n p then d.tblRefuse n 2
  else if sub && subs.isEmpty then d.tblRefuse n 3
  else (d.putb CV_TBL_STAT.PENDING true n).updSlice n fun x => { x with commit := some ⟨d.now, subs, tim, rot⟩ }

/-- From frame c + 16 on, the samples taken are corrected with the new tables (R75): `copyFor` says so. -/
def Dev.commitEffectEff (n : Nat) (d : Dev) : Dev :=
  match (d.slice.get n).commit with
  | some c => d.advanceTo (c.c + 16)
  | none => d

/-! ### Slots (R43, R44) -/

/-- Slots in service: nine in NINE, else ten. -/
def Dev.slotCount (d : Dev) (n h : Nat) : Nat := if d.get CV_GRP_STAT.STATE n h = 2 then 9 else 10

/-- Frames between swap boundaries (R44, R53). -/
def Dev.swapPeriod (d : Dev) (n h : Nat) : Nat := if d.get CV_GRP_STAT.STATE n h = 2 then 9 else 5

/-- The first swap boundary at or after frame `k`. -/
def Dev.swapBoundary (d : Dev) (n h k : Nat) : Nat :=
  let b := ((d.slice.get n).group.get h).base
  let p := d.swapPeriod n h
  b + (k - b + p - 1) / p * p

/-- The physical index in a slot; 15 for an unused one. -/
def Dev.slotOf (d : Dev) (n h s : Nat) : Nat := d.get CV_SLOTMAP.SLOT n h / 16 ^ s % 16

/-- Load a slot map. -/
def Dev.setSlots (d : Dev) (n h : Nat) (l : List Nat) : Dev :=
  d.put CV_SLOTMAP.SLOT (((List.range 10).map fun i => (l.getD i 15) * 16 ^ i).sum) n h

/-- The sub-converters in the slots, in order. -/
def Dev.slots (d : Dev) (n h : Nat) : List Nat := (List.range 10).map fun s => d.slotOf n h s

/-- The sub-converter that converts sample `s` of frame `k` (R42, R43), as p = 11h + u. -/
def Dev.subFor (d : Dev) (n k s : Nat) : Nat :=
  let h := s % 8
  let m := (k - ((d.slice.get n).group.get h).base) * 8 + s / 8
  11 * h + d.slotOf n h (m % d.slotCount n h)

/-! ### Group states (R52-R54) -/

/-- CV_SSTAT follows the groups' states; DEGRADED rising is an event (R66, R67). -/
def Dev.sliceFlags (d : Dev) (n : Nat) : Dev :=
  let mask := fun st => ((List.range 8).map fun h => if d.get CV_GRP_STAT.STATE n h = st then 2 ^ h else 0).sum
  let was := d.flag CV_SSTAT.DEGRADED n
  let nine := mask 2
  let int := mask 3
  let d := ((d.put CV_SSTAT.NOSPARE_TH (mask 1) n).put CV_SSTAT.NINE_TH nine n).put CV_SSTAT.INTERP_TH int n
  let deg := nine + int != 0
  let d := d.putb CV_SSTAT.DEGRADED deg n
  if deg && ! was then d.raise (16 * n + 4) else d

/-- Sub-converters of a group without a failure mark. -/
def Dev.unmarked (d : Dev) (n h : Nat) : List Nat :=
  (List.range 11).filter fun u => d.get CV_GRP_STAT.FAILED n h / 2 ^ u % 2 == 0

/-- The sub-converters in service (R52): those in the slots; in INTERP, where every slot reads unused, the ones without a
mark. -/
def Dev.inService (d : Dev) (n h : Nat) : List Nat :=
  if d.get CV_GRP_STAT.STATE n h = 3 then d.unmarked n h else (d.slots n h).filter fun u => decide (u < 11)

/-- CV_GRP_STAT.IN_SERVICE follows (R52). -/
def Dev.showService (d : Dev) (n h : Nat) : Dev := d.put CV_GRP_STAT.IN_SERVICE (d.inService n h).length n h

/-- Set a group's state, spare and slots. -/
def Dev.setGroup (d : Dev) (n h st spare : Nat) (slots : List Nat) : Dev :=
  (((d.put CV_GRP_STAT.STATE st n h).put CV_GRP_STAT.SPARE spare n h).setSlots n h slots).showService n h

/-- Put a failure mark on a sub-converter (R51). -/
def Dev.markFailed (d : Dev) (n h u : Nat) : Dev :=
  d.put CV_GRP_STAT.FAILED (d.get CV_GRP_STAT.FAILED n h ||| 2 ^ u) n h

/-- One row of the transition table for the failure of `u` (R53): the state, spare and slots that follow. -/
def failStep (u : Nat) (st spare : Nat) (slots : List Nat) : Nat × Nat × List Nat :=
  match st with
  | 0 => (1, 15, if u = spare then slots else slots.map fun x => if x = u then spare else x)
  | 1 => (2, 15, slots.filter fun x => x != u)
  | 2 => (3, 15, [])
  | _ => (st, spare, slots)

/-- Every declaration of a frame, in ascending order (R54). -/
def failSteps (us : List Nat) (st spare : Nat) (slots : List Nat) : Nat × Nat × List Nat :=
  us.foldl (fun (a, b, c) u => failStep u a b c) (st, spare, slots)

/-! ### Suspect windows (R49) -/

/-- Records of channel `n` that are not yet written and hold a sample of frames `a` to `b - 1` are DEGRADED: frames on
their way, segments and windows of the lanes with their backlogs, records that wait, decimation runs and tally records. -/
def Dev.suspectMark (d : Dev) (n a b : Nat) : Dev :=
  let hit := fun k => decide (a ≤ k) && decide (k < b)
  let p := d.path.get n
  let mark := fun (f : Frame) => if hit f.k then { f with degraded := true } else f
  let p := { p with raw := p.raw.map fun f => if hit f.k then { f with degraded := true } else f
                    delay := p.delay.map mark, hist := p.hist.map mark }
  let d := d.setPath (d.path.set n p)
  let span := fun (k0 k1 : Nat) => decide (k0 < b) && decide (a ≤ k1)
  let d := (List.range 16).foldl (fun d l =>
    let src := d.get REC_LCTL.SRC l
    let mine : Bool := src == n || decide (0x10 ≤ src) && decide (src < 0x20) && d.get DEC_CFG_ACT.SRC (src - 0x10) == n
    if mine then
      d.updLane l fun x =>
        let marks := match x.win with
          | some w => x.kept.zipIdx.filterMap fun ((_, k0, k1), i) =>
              if span k0 k1 then some (w.n - 1 - i, false, true) else none
          | none => []
        { x with marks := x.marks ++ marks
                 pool := x.pool.map fun g => if span g.k0 g.k then { g with degraded := true } else g
                 await := x.await.map fun r => if r.kind = 0 ∧ span r.k0 r.k1 then { r with degraded := true } else r }
    else d) d
  let d := (List.range 16).foldl (fun d u =>
    if d.get DEC_CFG_ACT.SRC u = n then
      d.updDec u fun x =>
        { x with runs := x.runs.map fun r =>
            let l := (List.range (r.x.length / 64)).filterMap fun i =>
              if hit (r.k0 + i) then some (r.k0 + i, false, true) else none
            { r with marks := r.marks ++ l }
                 part := x.part.map fun o => if span o.k0 o.k then { o with degraded := true } else o }
    else d) d
  (List.range 8).foldl (fun d j =>
    if d.get TAL_JOB_CFG.SRC j = n then
      d.updJob j fun x => { x with recs := x.recs.map fun r =>
        if r.a / 64 < b ∧ a * 64 < r.a + r.folded then { r with degraded := true } else r }
    else d) d

/-- A suspect window from frame `a` to the frame before `b` is loaded (R49). -/
def Dev.suspectLoad (d : Dev) (n a b : Nat) : Dev :=
  let d := (d.put CV_DEGWIN_START.TICK (d.countAt a % 2 ^ 64) n).put CV_DEGWIN_END.TICK (d.countAt b % 2 ^ 64) n
  let d := (d.bump CV_DEGWIN_SEQ.COUNT n).raise (16 * n + 4)
  (d.updSlice n fun x => { x with suspect := x.suspect ++ [(a, b)] }).suspectMark n a b

/-! ### Failures (R48, R53, R54) -/

/-- The frames of a monitor window (R48). -/
def monitorFrames (st : Nat) : Nat := if 2 ≤ st then 1152 else 1280

/-- A live-monitor window of a group ends: the sub-converters in service that are `outside` the limits are declared
failed (R48, R49, R53). Several take the group to their last state at the first swap boundary of the slots in force; the
windows of nine slots are counted from the entry into NINE, and a group in INTERP goes on with them (DESIGN CHOICE, log entry
58). -/
def Dev.monitorWindowEndEff (n h : Nat) (outside : Nat) (d : Dev) : Dev :=
  let st := d.get CV_GRP_STAT.STATE n h
  if 4 ≤ st then d
  else
    let w := monitorFrames st
    let base := ((d.slice.get n).group.get h).base
    let d := d.advanceTo (base + max 1 ((d.now - base + w - 1) / w) * w)
    let us := (d.inService n h).filter fun u => outside / 2 ^ u % 2 == 1
    let us := (List.range 11).filter us.contains
    if us.isEmpty then d
    else
      let at_ := d.swapBoundary n h (d.now + 16)
      let d := us.foldl (fun d u => d.markFailed n h u) d
      if st = 3 then d.showService n h
      else
        let d := d.updGroup n h fun g => { g with failing := g.failing ++ us, failAt := some (g.failAt.getD at_) }
        d.suspectLoad n (d.now - 2 * w) at_

/-- The live statistics of a group in NOSPARE begin with its next monitor window (R83). -/
def Dev.statsBegin (d : Dev) (n h : Nat) : Dev :=
  d.updGroup n h fun g => { g with statFrom := g.base + (d.now - g.base + 1279) / 1280 * 1280, stat := [] }

/-- The group's pending transition takes effect (R53). Only the last state of several declarations is entered, and only its
event is raised: FULL to NINE raises no SPARE_IN (DESIGN CHOICE, log entry 58). -/
def Dev.sparingTransitionEff (n h : Nat) (d : Dev) : Dev :=
  let g := (d.slice.get n).group.get h
  match g.failAt with
  | none => d
  | some t =>
    let d := d.advanceTo t
    let st := d.get CV_GRP_STAT.STATE n h
    let (st', spare, slots) := failSteps g.failing st (d.get CV_GRP_STAT.SPARE n h) (d.slots n h)
    let d := d.updGroup n h fun g =>
      { g with failing := [], failAt := none, base := if st' = 2 ∧ st ≠ 2 then d.now else g.base, swapAt := none }
    let d := (d.setGroup n h st' spare slots).statsBegin n h
    let d := if st = 0 ∧ st' = 1 then d.raise (16 * n + 1)
      else if st ≠ st' ∧ st' = 2 then d.raise (16 * n + 2)
      else if st ≠ st' ∧ st' = 3 then d.raise (16 * n + 3) else d
    d.sliceFlags n

/-! ### Rotation (R45-R47, R82) -/

/-- Write a page into the inactive copy of sub-converter `p`. -/
def Dev.writePage (d : Dev) (n p : Nat) (page : List Nat) : Dev :=
  match page with
  | [] => d
  | w :: lin =>
    let d := d.tableWindowWriteEff n (0x2400 + 4 * p) (BitVec.ofNat 32 w)
    lin.zipIdx.foldl (fun d (v, i) => d.tableWindowWriteEff n (0x10000 + 0x800 * p + 4 * i) (BitVec.ofNat 32 v)) d

/-- The page that corrects sub-converter `p`. -/
def Dev.activePage (d : Dev) (n p : Nat) : List Nat :=
  let x := d.slice.get n
  let word := fun off => x.word (d.activeCopy n off) off
  word (0x2400 + 4 * p) :: (List.range 512).map fun i => word (0x10000 + 0x800 * p + 4 * i)

/-- The rotation period in frames. -/
def Dev.rotPeriod (d : Dev) (n : Nat) : Nat := max 20000000 (d.get CV_ROT_PERIOD.PERIOD n)

/-- The frame at which the next rotation of group `h` falls due: floor(h × CV_ROT_PERIOD / 8) frames after group 0 (R45). -/
def Dev.rotDue (d : Dev) (n h : Nat) : Nat :=
  let x := d.slice.get n
  x.rounds.getD (x.group.get h).round 0 + h * d.rotPeriod n / 8

/-- The group's next rotation is that of the next round, which begins a period after this one. -/
def Dev.rotNext (d : Dev) (n h : Nat) : Dev :=
  let x := d.slice.get n
  let r := (x.group.get h).round
  let d := if r + 1 < x.rounds.length then d
    else d.updSlice n fun x => { x with rounds := x.rounds ++ [x.rounds.getD r 0 + d.rotPeriod n] }
  d.updGroup n h fun g => { g with round := r + 1 }

/-- The rotation of a group falls due (R45, R47, R55, R439): the spare's page is written, armed and committed (R82), and the
swap follows once the commit has switched. A refused commit is tried again by a later ROTATION of the same period; when the
period is over the rotation is skipped. -/
def Dev.rotationEff (n h : Nat) (d : Dev) : Dev :=
  let x := d.slice.get n
  let g := x.group.get h
  if d.get CV_GRP_STAT.STATE n h ≠ 0 || (x.commit.map Commit.rot) == some (some h) || g.swapAt.isSome then d
  else
    let due := d.rotDue n h
    let d := d.advanceTo due
    if ! d.flag CV_SCTL.ROT_EN n || d.hkAbsent || ! g.calOk || g.failAt.isSome || d.flag CV_CORR_CTL.HOST_SUB n
        || decide (due + d.rotPeriod n ≤ d.now) then d.rotNext n h
    else
      let p := 11 * h + d.get CV_GRP_STAT.SPARE n h
      let d := d.writePage n p g.page
      let d := d.put CV_SUB_ARM.P (d.get CV_SUB_ARM.P n (p / 32) ||| 2 ^ (p % 32)) n (p / 32)
      let d := (d.tableCommit n true false (some h)).decision 1 (n * 8 + h) (p % 11)
      if ((d.slice.get n).commit.map Commit.rot) == some (some h) then d.rotNext n h else d

/-- A commanded swap takes effect (R46). -/
def Dev.subconverterSwapEff (n h : Nat) (d : Dev) : Dev :=
  let g := (d.slice.get n).group.get h
  match g.swapAt with
  | none => d
  | some t =>
    let d := d.advanceTo t
    let spare := d.get CV_GRP_STAT.SPARE n h
    let slots := d.slots n h
    let out := slots.getD g.slot 15
    let d := d.updGroup n h fun g =>
      { g with swapAt := none, calOk := false, page := [], slot := (g.slot + 1) % 10 }
    let d := d.setGroup n h 0 out (slots.set g.slot spare)
    (d.bump CV_SWAP_CNT.COUNT n).raise (16 * n)

/-- A commit switches the roles of its copies in the register space (R76). -/
def Dev.roleSwitch (d : Dev) (n : Nat) (c : Commit) : Dev :=
  let d := c.subs.foldl (fun d p => d.setSubBit CV_SUB_ACT.P n p (! d.subBit CV_SUB_ACT.P n p)) d
  let d := if c.tim then d.put CV_TBL_STAT.TIM_ACTIVE (1 - d.get CV_TBL_STAT.TIM_ACTIVE n) n else d
  d.put CV_TSW_TICK.TICK (d.countAt (c.c + 16) % 2 ^ 64) n

/-- The commit of frame c switches the roles in the register space, at frame c + 166 (R76): the armed bits clear, and the
rotation that the commit serves commands its swap (R82). -/
def Dev.tblSwitchEff (n : Nat) (d : Dev) : Dev :=
  match (d.slice.get n).commit with
  | none => d
  | some c =>
    let d := (d.advanceTo (c.c + 166)).roleSwitch n c
    let d := (List.range 3).foldl (fun d i => d.put CV_SUB_ARM.P 0 n i) d
    let d := (d.putb CV_TBL_STAT.PENDING false n).updSlice n fun x => { x with commit := none, last := some c }
    let d := match c.rot with
      | some h =>
        if d.get CV_GRP_STAT.STATE n h = 0 && ((d.slice.get n).group.get h).failAt.isNone then
          d.updGroup n h fun g => { g with swapAt := some (d.swapBoundary n h (d.now + 16)) }
        else d
      | none => d
    d.raise (16 * n + 11)

/-! ### Calibration of sub-converters (R81) -/

/-- The page that a calibration gives, and whether it passes (R81): OFS and GAIN, and LIN[0] to LIN[1023]. No test of R81
limits OFS: one beyond its 12 bits is stored modulo 2^12, while LIN is computed from OFS itself (DESIGN CHOICE, log entry
58). -/
def calibrate (c : CalData) : Option (List Nat) :=
  let diff : Int := (c.sumH : Int) - c.sumL
  let n : Int := (c.hits.sum : Nat)
  if diff ≤ 0 ∨ n ≤ 0 ∨ c.hits.length ≠ 1024 then none
  else
    let gain := roundAway (512 * 54000 * 500000) diff
    let ofs := roundAway (-16 * ((c.sumL : Int) + c.sumH - 512 * 1000000)) 1000000
    let cum := c.hits.foldl (fun (s, l) x => (s + x, l ++ [s])) ((0 : Nat), ([] : List Nat))
    let s := fun (i : Nat) => (cum.2.getD i 0 : Int)
    let lin := fun (i : Nat) =>
      roundAway (16 * ((-31200 * n + 31200 * (s i + s (i + 1))) * 8192 - (16 * ((i : Int) - 512) + ofs) * gain * n)) (n * 8192)
    let l := (List.range 1024).map fun i => lin (max 1 (min 1022 i))
    let hn := n * 60000
    let ok := decide (24000 ≤ gain) && decide (gain ≤ 36000)
      && ((List.range 1022).all fun i =>
        let h : Int := (c.hits.getD (i + 1) 0 : Nat)
        decide (3 * hn ≤ 10 * h * 1024 * 62400) && decide (10 * h * 1024 * 62400 ≤ 17 * hn))
      && l.all fun v => decide (v.natAbs ≤ 16384)
    if ok then
      some (((ofs % 4096).toNat * 65536 + (gain % 65536).toNat) :: (List.range 512).map fun i =>
        (l.getD (2 * i) 0 % 65536).toNat + (l.getD (2 * i + 1) 0 % 65536).toNat * 65536)
    else none

/-- The calibration of a group's spare completes (R81): one that fails leaves the group without a spare (R53). -/
def Dev.spareCalibrationDoneEff (n h : Nat) (c : CalData) (d : Dev) : Dev :=
  if d.get CV_GRP_STAT.STATE n h ≠ 0 ∨ d.flag CV_CORR_CTL.HOST_SUB n then d
  else
    match calibrate c with
    | some page => d.updGroup n h fun g => { g with calOk := true, page := page }
    | none =>
      let d := d.markFailed n h (d.get CV_GRP_STAT.SPARE n h)
      let d := d.updGroup n h fun g => { g with calOk := false, page := [], swapAt := none }
      (((d.setGroup n h 1 15 (d.slots n h)).statsBegin n h).sliceFlags n).raise (16 * n + 5)

/-! ### Enabling (R51, R53, R65, R79, R80) -/

/-- The marks named by CV_FAIL_CLR are cleared, and the register reads 0 (R67). -/
def Dev.failClear (d : Dev) (n : Nat) : Dev :=
  let h := d.get CV_FAIL_CLR.GROUP n
  let m := d.get CV_FAIL_CLR.UMASK n
  let f := d.get CV_GRP_STAT.FAILED n h
  (d.put CV_GRP_STAT.FAILED (f - (f &&& m)) n h).wr ⟨.CV_FAIL_CLR, n, 0, 0⟩ 0

def Dev.failClrWriteEff (n h umask : Nat) (d : Dev) : Dev :=
  let d := (d.put CV_FAIL_CLR.GROUP h n).put CV_FAIL_CLR.UMASK umask n
  if d.flag CV_SCTL.EN n then d else d.failClear n

/-- CV_SCTL.EN is set (R65): the slice starts from OFF, with the tables of the flash (R80); its clock has still to lock. -/
def Dev.sliceEnableEff (n : Nat) (d : Dev) : Dev :=
  if d.flag CV_SCTL.EN n then d
  else
    let d := (d.testEnd 0 n 7).putb CV_SCTL.EN true n
    d.updSlice n fun x =>
      let keep := x.tab.filter fun e => e.1 / 2 ^ 18 != d.activeCopy n (e.1 % 2 ^ 18)
      let load := x.flash.foldl (fun (x : Slice) e => x.setWord (d.activeCopy n e.1) e.1 (e.2 ^^^ tabIdentity e.1))
        { x with tab := keep }
      { load with calDone := false, locked := false }

/-- A slice that has calibrated becomes READY, with its first valid frame. -/
def Dev.sliceReady (d : Dev) (n from_ : Nat) : Dev :=
  ((d.putb CV_SSTAT.READY true n).updSlice n fun x => { x with validFrom := from_ }).raiseAt from_ (16 * n + 9)

/-- READY falls (R65, R66). -/
def Dev.sliceNotReady (d : Dev) (n : Nat) : Dev :=
  if d.flag CV_SSTAT.READY n then (d.putb CV_SSTAT.READY false n).raise (16 * n + 10) else d

/-- The group's state when its slice becomes READY (R53). The slots take the sub-converters without a mark in ascending order,
with the last of eleven as the spare; what stood at a reset stands again (R91). The spec gives neither the slot map and the spare
nor the first rotation: it falls due a period after this frame, and takes slot 0 (DESIGN CHOICE, log entry 58). -/
def Dev.groupStart (d : Dev) (n h : Nat) : Dev :=
  let us := d.unmarked n h
  let g := (d.slice.get n).group.get h
  let (spare, slots) := match g.stands with
    | some (sp, l) => if l.all us.contains && (us.length != 11 || us.contains sp) && l.length == min 10 us.length
        then (sp, l) else (10, us.take 10)
    | none => (10, us.take 10)
  let d := d.updGroup n h fun g => { base := g.base, slot := g.slot, calOk := true, page := d.activePage n (11 * h + spare) }
  let d := match us.length with
    | 11 => d.setGroup n h 0 spare slots
    | 10 => d.setGroup n h 1 15 slots
    | 9 => (d.setGroup n h 2 15 slots).raise (16 * n + 2)
    | _ => (d.setGroup n h 3 15 []).raise (16 * n + 3)
  d.statsBegin n h

/-- Every sub-converter without a mark has been calibrated (R53, R65): `cal` holds the measurements. One that fails is
marked; the pages of the others become active. A calibration that leaves one out is not complete. The slots, the spare and the
first rotation that follow are the model's choice (groupStart, log entry 58). -/
def Dev.enableCalibrationDoneEff (n : Nat) (cal : List (Nat × CalData)) (d : Dev) : Dev :=
  let x := d.slice.get n
  let all := (List.range 88).all fun p =>
    ! (d.unmarked n (p / 11)).contains (p % 11) || cal.any fun c => c.1 == p
  if ! d.flag CV_SCTL.EN n || ! x.locked || x.calDone || ! all || (List.range 9).any fun h => ! d.pdOn (10 * n + h) then d
  else
    let d := cal.foldl (fun d (p, c) =>
      if ! (d.unmarked n (p / 11)).contains (p % 11) then d
      else match calibrate c with
        | none => d.markFailed n (p / 11) (p % 11)
        | some page =>
          let d := d.writePage n p page
          d.setSubBit CV_SUB_ACT.P n p (! d.subBit CV_SUB_ACT.P n p)) d
    let d := (List.range 8).foldl (fun d h => d.groupStart n h) d
    let d := d.updSlice n fun x => { x with calDone := true, rounds := [d.now + d.rotPeriod n] }
    (d.sliceFlags n).sliceReady n d.now

/-- The pending route of the DAC goes to `r`, at frame `now + 8` (R62). -/
def Dev.routeTo (d : Dev) (n r : Nat) : Dev := d.updSlice n fun x => { x with routes := x.routes ++ [(d.now + 8, r)] }

/-- A swatch ends without a result (R90). -/
def Dev.swatchAbort (d : Dev) (n : Nat) : Dev :=
  match (d.slice.get n).swatch with
  | none => d
  | some w =>
    let d := if w.off.isSome then d else d.routeTo n 0
    ((d.updSlice n fun x => { x with swatch := none }).put CV_SWATCH_STAT.RESULT 5 n).raise (16 * n + 13)

/-- A clear of CV_SCTL.EN that stands at the end of the current frame: the slice is OFF from the next frame (R53, R65). -/
def Dev.sliceDisableEff (n : Nat) (d : Dev) : Dev :=
  if ! d.flag CV_SCTL.EN n then d
  else
    let d := (d.putb CV_SCTL.EN false n).swatchAbort n
    let d := if d.flag CV_SSTAT.READY n then (d.putb CV_SSTAT.READY false n).raiseAt (d.now + 1) (16 * n + 10) else d
    let d := (List.range 8).foldl (fun d h => (d.setGroup n h 4 15 []).updGroup n h fun _ => {}) d
    let d := d.updSlice n fun x => { x with calDone := false, locked := false, rounds := [], skew := {} }
    (d.sliceFlags n).failClear n

/-- The slice's clock is lost in the current frame (R65, R106): its samples from two frames before on are invalid. -/
def Dev.sliceClockLossEff (n : Nat) (d : Dev) : Dev :=
  let u := d.now
  let p := d.path.get n
  let p := { p with raw := p.raw.map fun f => if u ≤ f.k + 2 then { f with valid := false, ovr := false } else f }
  let d := d.setPath (d.path.set n p)
  (d.sliceNotReady n).updSlice n fun x => { x with locked := false, skew := { x.skew with spoilt := true } }

/-- The clock of a slice that is enabled locks (R44, R106): the slot origin is this frame, and a calibrated slice is READY
again at the boundary of the next frame. -/
def Dev.sliceClockLockEff (n : Nat) (d : Dev) : Dev :=
  let x := d.slice.get n
  if x.locked || ! d.flag CV_SCTL.EN n || ! d.tb.locked then d
  else
    let d := d.updSlice n fun x => { x with locked := true }
    let d := (List.range 8).foldl (fun d h => (d.updGroup n h fun g => { g with base := d.now }).statsBegin n h) d
    if x.calDone then d.sliceReady n (d.now + 1) else d

/-! ### The DAC route (R62, R63, R87) -/

/-- A write of CV_DAC_CTL (R62); while a swatch runs it is dropped and counted (R87). -/
def Dev.dacRouteWriteEff (n : Nat) (v : W32) (d : Dev) : Dev :=
  if (d.slice.get n).swatch.isSome then d.count CV_SWATCH_STAT.DROPS n
  else
    let was := d.get CV_DAC_CTL.ROUTE n
    let d := d.wr ⟨.CV_DAC_CTL, n, 0, 0⟩ (v.setWidth 64)
    if d.get CV_DAC_CTL.ROUTE n = was then d else d.routeTo n (d.get CV_DAC_CTL.ROUTE n)

/-- The paths switch (R62). -/
def Dev.injectionSwitchEff (n : Nat) (d : Dev) : Dev :=
  match (d.slice.get n).routes with
  | [] => d
  | (k, r) :: rest =>
    let d := (d.advanceTo k).updSlice n fun x => { x with routes := rest, route := r }
    let on := r % 2 == 1
    if d.flag CV_SSTAT.INJ_ACTIVE n = on then d
    else (d.putb CV_SSTAT.INJ_ACTIVE on n).raise (16 * n + (if on then 7 else 8))

/-! ### Raw frames (R42, R60, R65) -/

/-- The overrange frames that no unlock can still make invalid (R106) are counted (R60): those of three frames before and
earlier (DESIGN CHOICE, log entry 58). -/
def Dev.overrangeCount (d : Dev) (n : Nat) : Dev :=
  let p := d.path.get n
  let due := fun (f : RawFrame) => f.ovr && decide (f.k + 3 ≤ d.now)
  let c := (p.raw.filter due).length
  if c = 0 then d
  else
    let p := { p with raw := p.raw.map fun f => if due f then { f with ovr := false } else f }
    ((d.setPath (d.path.set n p)).count CV_OVR_CNT.COUNT n 0 c).raiseHeld 1250 (16 * n + 6)

/-- The live statistics of the groups in NOSPARE take a frame's codes (R83). -/
def Dev.statsAdd (d : Dev) (n : Nat) (f : RawFrame) : Dev :=
  (List.range 8).foldl (fun d h =>
    let g := (d.slice.get n).group.get h
    if d.get CV_GRP_STAT.STATE n h = 1 && decide (g.statFrom ≤ f.k) && decide (f.k < g.statFrom + 327680) then
      d.updGroup n h fun g => { g with stat := (List.range 8).foldl (fun t m =>
        let c := (f.raw.getD (8 * m + h) 0).toNat
        t.upd (f.subs.getD (8 * m + h) 0 % 11) fun y => ⟨y.n + 1, y.sum + c, y.sq + c * c⟩) g.stat }
    else d) d

/-- A frame of 64 codes sets out for correction (R42): it is valid while the slice is READY. -/
def Dev.sampleFrameEff (n : Nat) (codes : List (BitVec 10)) (d : Dev) : Dev :=
  let x := d.slice.get n
  if ! d.flag CV_SCTL.EN n || ! d.tb.locked || ! x.locked || (d.path.get n).raw.any fun f => decide (d.now ≤ f.k) then d
  else
    let d := d.overrangeCount n
    let p := d.path.get n
    let valid := d.sliceOn n
    let interp := d.get CV_SSTAT.INTERP_TH n
    let deg := interp != 0 || x.suspect.any fun (a, b) => decide (a ≤ d.now) && decide (d.now < b)
    let f : RawFrame :=
      { k := d.now, raw := codes, subs := (List.range 64).map fun s => d.subFor n d.now s
        interp := interp, valid := valid, degraded := deg
        spoilt := d.flag CV_SSTAT.INJ_ACTIVE n || d.flag CV_SSTAT.DEGRADED n
        ovr := valid && codes.any fun c => c == 0 || c == 1023 }
    let p := { p with raw := p.raw ++ [f] }
    let d := (d.setPath (d.path.set n p)).statsAdd n f
    if valid then d else d.count CV_NRDY_CNT.COUNT n

end Sys2Proof.Machine
end

