-- ==== Sys2Proof/Machine/BusMap.lean ====
section
/-!
DEFINITION. Where a BAR0 offset falls (01_engine_at_a_glance.md R35, R36): a register or a half of one, a word of a
window that a register chapter gives (03 R93, 07 R191, 09 R236, 10 R258), or nothing.
-/
namespace Sys2Proof.Machine

/-- The families of registers in each MiB of BAR0; a port's registers repeat in the MiB of the next port. -/
def famsAt : Nat → List Rg
  | 0 =>
    [.GLB_ID, .GLB_REV, .GLB_ACC_ERR, .GLB_LC, .GLB_CNT_SAT]
  | 1 =>
    [.HK_PWR_CTL, .HK_PWR_STAT, .HK_RST, .HK_FW_CTL, .HK_WAKE_CTL, .HK_WAKE_TICK, .HK_WAKE_CAUSE, .HK_RST_CAUSE,
     .HK_PD_OFF, .HK_PD_STAT, .HK_PD_LINGER, .HK_FW_SRC, .HK_FW_LEN, .HK_BOOT, .HK_THERM, .HK_TEMP, .HK_CNT_SLEEPACC,
     .HK_DEC_IDX, .HK_DEC]
  | 2 =>
    [.TB_REF_CTL, .TB_REF_STAT, .TB_NOW, .TB_PPS_CAP, .TB_ORIGIN_CTL, .TB_TAI_SEC, .TB_TAI_OFS, .TB_SLEW,
     .TB_PHASE_ERR, .TB_PPS_CTL, .TB_PTP_CTL, .TB_LOSS_CNT]
  | 3 =>
    [.CV_SCTL, .CV_SSTAT, .CV_ROT_PERIOD, .CV_OVR_CNT, .CV_NRDY_CNT, .CV_SWAP_CNT, .CV_FAIL_CLR, .CV_DAC_CTL,
     .CV_DEGWIN_START, .CV_DEGWIN_END, .CV_DEGWIN_SEQ, .CV_GRP_STAT, .CV_SLOTMAP, .CV_CORR_CTL, .CV_TBL_COMMIT,
     .CV_TBL_STAT, .CV_TBL_DROP, .CV_CLIP_CNT, .CV_TSW_TICK, .CV_SUB_ARM, .CV_SUB_ACT, .CV_SUB_DISC, .CV_SKW_CTL,
     .CV_SKW_PMIN, .CV_SKW_STAT, .CV_SKW_DLT, .CV_SWATCH_TAU, .CV_SWATCH_CTL, .CV_SWATCH_FREQ, .CV_SWATCH_STAT]
  | 4 =>
    [.TRG_CTL, .TRG_ARM, .TRG_STAT, .TRG_PRF_COMMIT, .TRG_FORCE, .TRG_PRE_EFF, .TRG_TCMP_TICK, .TRG_TCMP_CTL,
     .TRG_MSG, .TRG_LFSR, .TRG_LAST, .TRG_OVR_FIRST, .TRG_CNT_ACC, .TRG_CNT_FILL, .TRG_CNT_HOLD, .TRG_CNT_BUSY,
     .TRG_CNT_OVR, .TRG_CNT_LATE, .TRG_PRF_DROP, .TRG_CMP, .TRG_CMP_ACT, .TRG_SLOTA, .TRG_SLOTA_ACT, .TRG_SLOTB,
     .TRG_SLOTB_ACT, .TRG_SLOTA_T1, .TRG_SLOTA_T1_ACT, .TRG_SLOTA_T2, .TRG_SLOTA_T2_ACT, .TRG_SLOTB_T1,
     .TRG_SLOTB_T1_ACT, .TRG_SLOTB_T2, .TRG_SLOTB_T2_ACT, .TRG_SEQ_DLY, .TRG_SEQ_DLY_ACT, .TRG_SEQ, .TRG_SEQ_ACT,
     .TRG_HOLD, .TRG_HOLD_ACT, .TRG_HOLD_T, .TRG_HOLD_T_ACT, .TRG_HOLD_MAX, .TRG_HOLD_MAX_ACT, .TRG_PAT_CTL,
     .TRG_PAT_CTL_ACT, .TRG_PAT_MASK, .TRG_PAT_MASK_ACT, .TRG_PAT_VAL, .TRG_PAT_VAL_ACT]
  | 5 =>
    [.REC_LCTL, .REC_LSTAT, .REC_SEGNUM, .REC_LQUEUE, .REC_REQ_PRE, .REC_REQ_POST, .REC_REQ_REPEAT, .REC_REQ_CTL,
     .REC_REQ_STAT, .REC_CNT_REFUSED, .REC_CNT_TRUNC, .REC_CNT_DROPFR, .REC_CNT_NOTICE, .REC_CNT_ALLOCW,
     .REC_CNT_SEG, .REC_CNT_SEGWRAP, .REC_SKN_BASE, .REC_SKN_SIZE, .REC_SKN_CTL, .REC_SKN_CP, .REC_SKN_FREE,
     .REC_SKN_OLDEST, .REC_RB_STAT]
  | 6 =>
    [.DEC_CTL, .DEC_STAT, .DEC_COMMIT, .DEC_CFG, .DEC_CFG_ACT, .DEC_STEP, .DEC_STEP_ACT, .DEC_PHASE0,
     .DEC_PHASE0_ACT, .DEC_SETTLE_CTL, .DEC_SETTLE_FR, .DEC_T0, .DEC_FAST, .DEC_OUT, .DEC_THR0_LEVEL,
     .DEC_THR1_LEVEL, .DEC_THR0_CTL, .DEC_THR1_CTL, .DEC_CNT_THR0, .DEC_CNT_THR1, .DEC_CNT_SAT, .DEC_SYNC_CTL,
     .DEC_SYNC_STAT, .DEC_SYNC_TIME]
  | 7 =>
    [.TAL_JOB_CFG, .TAL_JOB_PRE, .TAL_JOB_POINTS, .TAL_JOB_LIMIT, .TAL_JOB_OUTER, .TAL_JOB_DEN, .TAL_JOB_CMD,
     .TAL_JSTAT, .TAL_JOB_COUNT, .TAL_JOB_REC, .TAL_JOB_PARTIAL, .TAL_CNT_BUSY, .TAL_CNT_FILL, .TAL_CNT_HALVE,
     .TAL_CNT_VIOL, .TAL_CNT_VSAMP, .TAL_MASK_CTL, .TAL_MASK_TBL, .TAL_FAIL_SEG, .TAL_FAIL_TIME, .TAL_G_WDROP]
  | 8 =>
    [.EVI_GMODE, .EVI_GSTAT, .EVI_FLUSH_TO, .EVI_GAUGE_CTL, .EVI_GAUGE_STAT, .EVI_NRDY_FR, .EVI_ICFG, .EVI_IDLY,
     .EVI_ISTAT, .EVI_SEQ, .EVI_CNT_STAMP, .EVI_CNT_DEAD, .EVI_CNT_FIFO, .EVI_CNT_CAL, .EVI_CNT_NOCLK, .EVI_IU_CFG,
     .EVI_IU_STAT, .EVI_IU_CNT_EARLY, .EVI_IU_CNT_LOST, .EVI_IU_CNT_DROP, .EVI_IU_CNT_RES]
  | 9 =>
    [.NDL_G_STAT, .NDL_G_WDROP, .NDL_CTL, .NDL_STAT, .NDL_PC, .NDL_ENTRY, .NDL_ENTRY_NEXT, .NDL_FAULT_PC, .NDL_WIN,
     .NDL_WIN_NEXT, .NDL_REPLACE, .NDL_FAULT, .NDL_FAULT_TICK, .NDL_SIGCODE, .NDL_CNT_LATE, .NDL_CNT_ISSUE,
     .NDL_CLAIM0, .NDL_CLAIM1]
  | 10 =>
    [.STM_UCTL, .STM_USTAT, .STM_PLAY_OFS, .STM_PLAY_LEN, .STM_PLAY_CTL, .STM_PLAY_STAT, .STM_START_TICK,
     .STM_UNDER_FIRST, .STM_TFREQ, .STM_TPA, .STM_CNT_UNDER, .STM_CNT_CANCEL, .STM_CNT_REFUSED, .STM_CNT_SAT,
     .STM_CNT_PLAYED, .STM_OUT_DLY, .STM_INJ_DLY, .STM_PF_STAT]
  | 11 =>
    [.BEN_STAT, .BEN_THR, .BEN_STAGE_CTL, .BEN_HOST_DEFER, .BEN_STAGE_USED, .BEN_DROP_FIRST, .BEN_CNT_DROPFR,
     .BEN_CNT_CE, .BEN_CNT_UE, .BEN_CNT_DEFER, .BEN_HT_CTL, .BEN_HT_STREAM, .BEN_HT_BASE, .BEN_HT_SIZE, .BEN_HT_WP,
     .BEN_HT_REL, .BEN_HT_OLDEST, .BEN_HT_CNT_SEG, .BEN_HT_CNT_OVW, .BEN_QRY_CTL, .BEN_QRY_STAT, .BEN_QRY_CAP,
     .BEN_QRY_FREQ, .BEN_QRY_RETIRE, .BEN_QRY_MIG, .BEN_QRY_SCRUB]
  | 12 =>
    [.QRY_CSTAT, .QRY_CNT_CE, .QRY_CNT_UE, .QRY_CNT_REFPOST, .QRY_CNT_RRFULL, .QRY_RRT]
  | 13 =>
    [.QUE_ALLOC, .QUE_ALLOC_STAT, .QUE_G_SPOIL, .QUE_G_LOST, .QUE_G_BADDB, .QUE_APT_CTL, .QUE_CNT_APT, .QUE_APT,
     .QUE_BASE, .QUE_WB, .QUE_CFG, .QUE_CTL, .QUE_DB, .QUE_STAT, .QUE_IDX, .QUE_INT, .QUE_CNT]
  | 14 =>
    [.XFE_G_BUSY, .XFE_G_HALTED, .XFE_CNT_BADGO, .XFE_CTL, .XFE_STAT, .XFE_CFG, .XFE_SRC, .XFE_DST, .XFE_DPTR,
     .XFE_COUNT, .XFE_NEXT, .XFE_HOP_LIMIT, .XFE_CQ, .XFE_HOPS]
  | 15 =>
    [.EVR_CTL, .EVR_CNT_LOST, .EVR_PEND, .EVR_CFG]
  | 16 | 17 | 18 =>
    [.ETH_CTL, .ETH_STAT, .ETH_RTX_BASE, .ETH_RTX_SIZE, .ETH_CR_CTL, .ETH_PAY, .ETH_HK_RATE, .ETH_CNT_FCS,
     .ETH_CNT_FOREIGN, .ETH_CNT_BADHDR, .ETH_CNT_UNKNOWN, .ETH_CNT_HKDROP, .ETH_CNT_STALE, .ETH_CNT_RETX,
     .ETH_CNT_ABANDON, .ETH_CNT_FA_REJ, .ETH_PTP_DLY, .ETH_FA_Q, .ETH_MAC, .ETH_IP4, .ETH_IP6, .ETH_DST_CTL,
     .ETH_DST_MAC, .ETH_DST_IP, .ETH_FA_KEY, .ETH_FA_KCTL, .ETH_FA_LAST]
  | 20 =>
    [.SYN_OWN, .SYN_SYSID, .SYN_LAUNCH_K, .SYN_MSG_CTL, .SYN_MSG_TX, .SYN_MSG_STAT, .SYN_MSG_LAST, .SYN_LFSR,
     .SYN_CNT_CONT, .SYN_CNT_MSGBAD, .SYN_CNT_COLL, .SYN_CNT_TXFAIL, .SYN_CNT_IDCLASH, .SYN_CNT_RX, .SYN_CNT_TX,
     .SYN_PING_CTL, .SYN_PING_STAT, .SYN_PING_MEAN, .SYN_PING_SD, .SYN_PCFG, .SYN_IDLY, .SYN_TRIM, .SYN_PSTAT,
     .SYN_CNT_GLITCH]
  | 21 =>
    [.RAS_CTL, .RAS_GO, .RAS_STAT, .RAS_CNT_REPAIR, .RAS_CV_SIZE, .RAS_CV_BUF0, .RAS_CV_BUF1, .RAS_CV_OVL,
     .RAS_CV_BG, .RAS_LY_CTL, .RAS_LY_POS, .RAS_LY_SCALE, .RAS_LP_CTL, .RAS_LP_COLOUR, .RAS_LUT]
  | 22 =>
    [.DPY_COMMIT, .DPY_STAT, .DPY_LINK, .DPY_CNT_SHDROP, .DPY_CNT_REFUSED, .DPY_CNT_UNDER, .DPY_CNT_ABORT,
     .DPY_CNT_TEMISS, .DPY_CTL, .DPY_H, .DPY_HS, .DPY_V, .DPY_VS, .DPY_VRR, .DPY_PCLK, .DPY_SRC, .DPY_ORIENT,
     .DPY_UNDER_LIM, .DPY_DB_LINK, .DPY_TE_TO]
  | 23 =>
    [.SEC_UID, .SEC_NONCE, .SEC_CMD_SRC, .SEC_CMD, .SEC_STAT, .SEC_CNT_IDE]
  | 24 =>
    [.TST_CTL, .TST_STAT, .TST_PAT_WORD, .TST_LOSS, .TST_BITS, .TST_ERRS, .TST_REGION_BASE, .TST_REGION_SIZE,
     .TST_CRC]
  | _ => []

/-- The indices of an offset in an array of the given extents and strides, and what is left of it. -/
def dimIndex : List (Nat × Nat) → Nat → Option (List Nat × Nat)
  | [], o => some ([], o)
  | (n, st) :: t, o =>
    if o / st < n then (dimIndex t (o % st)).map fun (l, r) => (o / st :: l, r) else none

/-- A register of family `g` at a BAR0 offset, and whether it is the register's high half. -/
def Rg.at? (g : Rg) (addr : Nat) : Option (Reg × Bool) :=
  let f := g.fam
  if addr < f.base then none
  else
    match dimIndex f.dims (addr - f.base) with
    | some (l, o) =>
      let r : Reg := ⟨g, l.getD 0 0, l.getD 1 0, l.getD 2 0⟩
      if o = 0 then some (r, false) else if o = 4 ∧ f.wide then some (r, true) else none
    | none => none

/-- The module has no pins 22 to 31 (R404). -/
def Reg.exists (r : Reg) : Bool :=
  match r.g with
  | .SYN_PCFG | .SYN_IDLY | .SYN_TRIM | .SYN_PSTAT | .SYN_CNT_GLITCH => pinExists r.i
  | _ => true

/-- The register at a BAR0 offset. -/
def regAt (addr : Nat) : Option (Reg × Bool) :=
  ((famsAt (addr / 0x100000)).findSome? fun g => g.at? addr).filter fun x => x.1.exists

/-- What a 4-byte access at a BAR0 offset reaches. -/
inductive Place
  /-- A register, or the low half of a 64-bit one. -/
  | reg (r : Reg)
  | high (r : Reg)
  /-- A word of the tables of a slice, by its offset there (R93). -/
  | table (n off : Nat)
  /-- A word of the register or scratch windows of the needles, by its offset in the NDL block (R258). -/
  | needle (ofs : Nat)
  /-- A read-only word: a coefficient of the decimation units (R191), an entry of a gauge table (R236). -/
  | rom (v : W32)
  | none
  deriving DecidableEq, Repr

/-- A word of the decimation units' ROM (R191). -/
def decRom (ofs : Nat) : Option W32 :=
  let word := fun (v : Int) => BitVec.ofInt 32 v
  if ofs < 0x20000 then none
  else if ofs < 0x22000 then
    let e := (ofs - 0x20000) / 0x100
    let j := ofs % 0x100 / 4
    if compTaps e ≤ j then none
    else some (word (if e = 0 then 262144 else symTap (fun j => (Config.decComp e j).toInt) (compTaps e) j))
  else if 0x24000 ≤ ofs ∧ ofs < 0x24000 + 64 * 0x60 then
    some (word (Config.decRes ((ofs - 0x24000) / 0x60) ((ofs - 0x24000) % 0x60 / 4)).toInt)
  else if 0x28000 ≤ ofs ∧ ofs < 0x2A000 then
    let p := (ofs - 0x28000) / 0x800
    let j := ofs % 0x800 / 4
    if presetT p ≤ j then none else some (word (symTap (fun j => (Config.decFir p j).toInt) (presetT p) j))
  else none

/-- A table word of a slice that a read or a write reaches (R93). -/
def tableWord (off : Nat) : Bool :=
  (tabMask off).isSome || (decide (0x3000 ≤ off) && decide (off < 0x4000) && decide (off - 0x1000 < 0x2560)
    && (tabMask (off - 0x1000)).isSome)

/-- What a BAR0 offset reaches. -/
def Dev.place (d : Dev) (addr : Nat) : Place :=
  match regAt addr with
  | some (r, false) => .reg r
  | some (r, true) => .high r
  | none =>
    let ofs := addr % 0x100000
    match addr / 0x100000 with
    | 3 => if tableWord (ofs % 0x40000) then .table (ofs / 0x40000) (ofs % 0x40000) else .none
    | 6 => match decRom ofs with
      | some v => .rom v
      | none => .none
    | 8 =>
      if 0x20000 ≤ ofs ∧ ofs < 0x40000 ∧ ofs % 0x400 / 4 < 160 then
        .rom (BitVec.ofNat 32 ((d.evi.inp.get ((ofs - 0x20000) / 0x400)).gt (ofs % 0x400 / 4)))
      else .none
    | 9 => if (needleWindow ofs).isSome then .needle ofs else .none
    | _ => .none

end Sys2Proof.Machine
end

