-- ==== Sys2Proof/Machine/Crypto.lean ====
section
/-!
DEFINITION. The hashes SHA-256 and SHA-384 and the MAC HMAC-SHA-256, which R377 and R445 name. The functions themselves are those
of FIPS 180-4 and RFC 2104 (PRESUMED, log entry 21): one function of the width `w` of a word, with its constants taken from the
roots of the primes.
-/
namespace Sys2Proof.Machine

/-! ### Constants: the fractions of roots of primes -/

/-- The greatest `x` that adds bits below bit `n` to `r`, with a power `e` of at most `v`. -/
def rootBits (e v : Nat) : Nat → Nat → Nat
  | 0, r => r
  | n + 1, r => rootBits e v n (if (r + 2 ^ n) ^ e ≤ v then r + 2 ^ n else r)

/-- The first `w` bits of the fraction of the `e`-th root of `p`, for a root below 32. -/
def rootFraction (w e p : Nat) : BitVec w := BitVec.ofNat w (rootBits e (p * 2 ^ (e * w)) (w + 5) 0)

/-- The first 80 primes: no number from 2 to 20 divides one below 410 that is greater. -/
def hashPrimes : List Nat :=
  (List.range 410).filter fun n => decide (2 ≤ n) && (List.range 19).all fun i => n == i + 2 || n % (i + 2) != 0

/-! ### The hash of words of width `w` -/

/-- A hash: its number of rounds; the rotations in the sums over a and e; the rotations and the shift in the two terms of the
message's schedule. -/
structure HashKind where
  rounds : Nat
  sumA : List Nat
  sumE : List Nat
  low : List Nat × Nat
  high : List Nat × Nat

/-- The exclusive-or of a word's rotations. -/
def turned {w : Nat} (l : List Nat) (x : BitVec w) : BitVec w := l.foldl (fun v n => v ^^^ x.rotateRight n) 0

/-- A term of the schedule. -/
def scheduled {w : Nat} (t : List Nat × Nat) (x : BitVec w) : BitVec w := turned t.1 x ^^^ (x >>> t.2)

/-- The rounds with constants `ks`. `m` are the 16 words of the message whose first is next; `a` and `e` are the values that the
registers a to d, and e to h, hold, the latest first. -/
def HashKind.rounded {w : Nat} (h : HashKind) :
    List (BitVec w) → List (BitVec w) → List (BitVec w) → List (BitVec w) → List (BitVec w)
  | [], _, a, e => a.take 4 ++ e.take 4
  | k :: ks, m, a, e =>
    let pick := e.getD 2 0 ^^^ (e.getD 0 0 &&& (e.getD 1 0 ^^^ e.getD 2 0))
    let most := (a.getD 0 0 &&& a.getD 1 0) ||| (a.getD 2 0 &&& (a.getD 0 0 ||| a.getD 1 0))
    let t := k + m.getD 0 0 + pick + turned h.sumE (e.getD 0 0) + e.getD 3 0
    let next := scheduled h.high (m.getD 14 0) + m.getD 9 0 + scheduled h.low (m.getD 1 0) + m.getD 0 0
    h.rounded ks (m.drop 1 ++ [next]) ((most + turned h.sumA (a.getD 0 0) + t) :: a.take 3) ((a.getD 3 0 + t) :: e.take 3)

/-- A big-endian number. -/
def beNat (l : List (BitVec 8)) : Nat := l.foldl (fun v b => v * 256 + b.toNat) 0

/-- `n` blocks of 16 words each. -/
def HashKind.blocks {w : Nat} (h : HashKind) (ks : List (BitVec w)) : Nat → List (BitVec w) → List (BitVec 8) → List (BitVec w)
  | 0, s, _ => s
  | n + 1, s, l =>
    let m := (List.range 16).map fun i => BitVec.ofNat w (beNat ((l.drop (i * (w / 8))).take (w / 8)))
    h.blocks ks n (List.zipWith (· + ·) s (h.rounded ks m (s.take 4) (s.drop 4))) (l.drop (2 * w))

/-- The message is followed by a bit 1, zeros, and its length in bits in w / 4 bytes, to whole blocks of 2 w bytes. -/
def paddedMessage (w : Nat) (l : List (BitVec 8)) : List (BitVec 8) :=
  l ++ 0x80 :: List.replicate ((4 * w - 1 - w / 4 - l.length % (2 * w)) % (2 * w)) 0 ++ (leBytes (8 * l.length) (w / 4)).reverse

/-- The hash of a message of bytes, with the square roots of the primes `ps` to start from. -/
def HashKind.hash (h : HashKind) (w : Nat) (ps : List Nat) (l : List (BitVec 8)) : List (BitVec 8) :=
  let m := paddedMessage w l
  let ks := (hashPrimes.take h.rounds).map (rootFraction w 3)
  (h.blocks ks (m.length / (2 * w)) (ps.map (rootFraction w 2)) m).flatMap fun v => (leBytes v.toNat (w / 8)).reverse

/-- SHA-256 of a message of bytes. -/
def sha256 (l : List (BitVec 8)) : List (BitVec 8) :=
  HashKind.hash ⟨64, [2, 13, 22], [6, 11, 25], ([7, 18], 3), ([17, 19], 10)⟩ 32 (hashPrimes.take 8) l

/-- SHA-384 of a message of bytes: it starts from the ninth prime on, and gives 48 bytes. -/
def sha384 (l : List (BitVec 8)) : List (BitVec 8) :=
  (HashKind.hash ⟨80, [28, 34, 39], [14, 18, 41], ([1, 8], 7), ([19, 61], 6)⟩ 64 ((hashPrimes.drop 8).take 8) l).take 48

/-- HMAC-SHA-256 with a key of at most 64 bytes. -/
def hmacSha256 (key msg : List (BitVec 8)) : List (BitVec 8) :=
  let pad := fun (b : BitVec 8) => (List.range 64).map fun i => key.getD i 0 ^^^ b
  sha256 (pad 0x5c ++ sha256 (pad 0x36 ++ msg))

end Sys2Proof.Machine
end

