-- ==== Sys2Proof/Machine/Hoist.lean ====
section
/-!
DEFINITION. The hoist (13_bench_and_quarry_memory.md R305-R309): targets, pieces of segments on their way to the quarry
or to a stream, hoist entries, and the signals WARN and PANIC.
-/
namespace Sys2Proof.Machine

/-- Change hoist target `t`. -/
def Dev.updTgt (d : Dev) (t : Nat) (f : Target → Target) : Dev :=
  d.setBen { d.ben with target := d.ben.target.upd t f }

/-- The port of a target (R305): 3 acts as 0. -/
def Dev.tgtPort (d : Dev) (t : Nat) : Nat := d.get BEN_HT_CTL.PORT t % 3

/-- A target that sends a stream: STREAM or REPLAY, enabled. -/
def Dev.tgtStream (d : Dev) (t : Nat) : Bool :=
  d.flag BEN_HT_CTL.EN t && (d.get BEN_HT_CTL.KIND t == 1 || d.get BEN_HT_CTL.KIND t == 2)

/-- A lower enabled target of the same port has the same stream ID: target `t` launches nothing (R381). -/
def Dev.tgtDup (d : Dev) (t : Nat) : Bool :=
  (List.range t).any fun u => d.tgtStream u && d.tgtPort u == d.tgtPort t
    && d.get BEN_HT_STREAM.ID u == d.get BEN_HT_STREAM.ID t

/-- ETH_STAT.DUPID of every port (R381). -/
def Dev.dupShow (d : Dev) : Dev :=
  (List.range 3).foldl (fun d p =>
    d.putb ETH_STAT.DUPID ((List.range 64).any fun t => d.tgtStream t && d.tgtPort t == p && d.tgtDup t) p) d

/-! ### WARN and PANIC (R309) -/

/-- Bytes of a skein that are written and not yet released. -/
def Skein.occupied (s : Skein) : Nat := (s.held.map fun h => h.m * h.g - h.sent).sum

/-- A HOIST skein reaches `level`/256 of its usable span. -/
def Dev.skeinReaches (d : Dev) (level : Nat) : Bool :=
  (List.range 64).any fun k =>
    let s := d.lanes.skein.get k
    let e := match s.held.head?, d.boundLane k with
      | some h, _ => h.span
      | none, some l => d.laneE l
      | none, none => s.size
    s.defined && s.policy == 2 && decide (level * e ≤ s.occupied * 256)

/-- The pool reaches STAGE_PANIC. -/
def Dev.poolPanic (d : Dev) : Bool := decide (d.get BEN_THR.STAGE_PANIC * poolSize ≤ d.poolUsed * 256)

/-- WARN and PANIC follow the occupancies; PANIC's change takes effect at the next frame boundary. -/
def Dev.flowUpdate (d : Dev) : Dev :=
  let warn := d.skeinReaches (d.get BEN_THR.WARN)
  let d := if warn && ! d.flag BEN_STAT.WARN then d.raise 464 else d
  let d := d.putb BEN_STAT.WARN warn
  let on := d.get BEN_THR.PANIC_ON
  let off := min on (d.get BEN_THR.PANIC_OFF)
  if d.flag BEN_STAT.PANIC then
    if d.skeinReaches off || d.poolPanic then d
    else ((d.setBen { d.ben with panicAt := d.now }).putb BEN_STAT.PANIC false).raise 466
  else if d.skeinReaches on || d.poolPanic then
    ((d.setBen { d.ben with panicAt := d.now }).putb BEN_STAT.PANIC true).raise 465
  else d

/-! ### Targets (R305, R306) -/

/-- The first check of R306 that fails, as its RESULT; 1 is ENABLED. -/
def Dev.tgtCheck (d : Dev) (t : Nat) : Nat :=
  let kind := d.get BEN_HT_CTL.KIND t
  let base := d.get BEN_HT_BASE.OFS t
  let size := d.get BEN_HT_SIZE.OFS t
  let q := d.get BEN_HT_CTL.Q t
  if kind = 3 then 2
  else if kind ≠ 1 ∧ (base % 4096 ≠ 0 ∨ size % 4096 ≠ 0 ∨ size = 0 ∨ d.get BEN_QRY_CAP.BYTES < base + size) then 3
  else if kind = 0 ∧ (d.skeinMeets 1 base size || d.tallyMeets 1 base size || d.targetMeets (some t) [0] base size) then 4
  else if d.get QUE_CFG.TYPE q ≠ 1 ∨ d.get QUE_CFG.FMT q ≠ 3 then 5
  else 1

/-- An enabled lane's skein names target `t`. -/
def Dev.tgtInUse (d : Dev) (t : Nat) : Bool :=
  (List.range 16).any fun l => d.flag REC_LCTL.EN l && (d.laneSkein l).policy == 2 && (d.laneSkein l).tgt == t

/-- The packets of target `t` leave its port's window unsent (R383). -/
def Dev.windowAbandon (d : Dev) (p : Nat) (mine : Nat → Bool) : Dev :=
  let x := d.eth.get p
  let n := (x.window.filter fun k => mine k.tgt).length
  let d := d.setEth (d.eth.upd p fun x =>
    { x with window := x.window.filter fun k => ! mine k.tgt, retx := x.retx.filter fun r => ! mine r.1 })
  d.count ETH_CNT_ABANDON.COUNT p 0 n

/-- A write of BEN_HT_CTL that sets or clears EN (R306). -/
def Dev.hoistTargetEnableEff (t : Nat) (v : W32) (d : Dev) : Dev :=
  if d.flag BEN_HT_CTL.EN t then
    if v.getLsbD 31 then d
    else if d.tgtInUse t then d.put BEN_HT_CTL.RESULT 6 t
    else
      let d := d.windowAbandon (d.tgtPort t) (· == t)
      (d.putb BEN_HT_CTL.EN false t).dupShow.retireRecheck
  else
    let keep := d.get BEN_HT_CTL.RESULT t
    let d := ((d.wr ⟨.BEN_HT_CTL, t, 0, 0⟩ (v.setWidth 64)).putb BEN_HT_CTL.EN false t).put BEN_HT_CTL.RESULT keep t
    if v.getLsbD 31 then
      let r := d.tgtCheck t
      let d := d.put BEN_HT_CTL.RESULT r t
      if r = 1 then
        let wp := if d.get BEN_HT_CTL.KIND t = 0 then d.get BEN_HT_BASE.OFS t else 0
        let d := ((d.put BEN_HT_WP.OFS wp t).wr ⟨.BEN_HT_OLDEST, t, 0, 0⟩ 0).putb BEN_HT_STREAM.STUCK false t
        let d := d.updTgt t fun x => { due := x.due, seq := x.seq, stream := { last := d.now } }
        (d.putb BEN_HT_CTL.EN true t).dupShow
      else d
    else d

/-- A write of BEN_HT_CTL.GO starts a REPLAY pass, behind those that still run (R305). -/
def Dev.replayGoEff (t : Nat) (d : Dev) : Dev :=
  if d.flag BEN_HT_CTL.EN t && d.get BEN_HT_CTL.KIND t == 2 then
    let d := if (d.ben.target.get t).passes = 0 then d.put BEN_HT_WP.OFS 0 t else d
    d.updTgt t fun x => { x with passes := x.passes + 1 }
  else d

/-! ### Pieces (R307) -/

/-- Where granule byte `j` of a held segment lies in its skein (R157). -/
def Held.pos (h : Held) (j : Nat) : Nat :=
  let g := max 1 h.g
  let i := j / g
  if i < h.w then h.record.alloc + (h.slot + i) % max 1 h.w * g + j % g
  else (h.record.alloc + h.w * g + (i - h.w) * g + j % g) % max 1 h.span

/-- The next piece of a skein: its oldest segment, the segment's bytes and the bytes of the piece; a piece of a segment
that has not ended is whole. -/
def Skein.piece (s : Skein) : Option (Held × Nat × Nat) :=
  match s.held.head? with
  | some h =>
    let left := h.m * h.g - h.sent
    if h.ended ∨ 4096 ≤ left then some (h, h.m * h.g, min 4096 left) else none
  | none => none

/-- The payload bytes of a full DATA packet: whole granules (R371). -/
def Dev.payload (d : Dev) (p g : Nat) : Nat := d.get ETH_PAY.MAXPAY p / max 1 g * max 1 g

/-- The hoist can serve skein `k` now: its target is enabled and free for its segment, and has room. -/
def Dev.skeinServable (d : Dev) (k : Nat) : Bool :=
  let s := d.lanes.skein.get k
  let x := d.ben.target.get s.tgt
  s.defined && s.policy == 2 && d.benchOn && d.flag BEN_HT_CTL.EN s.tgt && (x.skein.isNone || x.skein == some k)
    && (match s.piece with
      | some (h, total, _) =>
        if d.get BEN_HT_CTL.KIND s.tgt = 0 then d.flag BEN_QRY_STAT.READY && ! d.qryHeld && ! x.stopped
        else d.get BEN_HT_CTL.KIND s.tgt == 1 && decide (h.sent < total)
          && decide (x.buf.length ≤ d.payload (d.tgtPort s.tgt) h.g)
      | none => false)

/-- The skein that the hoist serves next: round robin, skeins whose lane is in a drop run last. -/
def Dev.hoistNext (d : Dev) : Option Nat :=
  let ks := (List.range 64).map fun i => (d.ben.hoistLast + 1 + i) % 64
  let drop := fun (k : Nat) => match d.boundLane k with
    | some l => (d.lanes.lane.get l).dropping
    | none => false
  (ks.find? fun k => d.skeinServable k && ! drop k).or (ks.find? fun k => d.skeinServable k)

/-- Change the segment of skein `k` that the hoist delivers. -/
def Dev.updHeld (d : Dev) (k : Nat) (num : Nat) (f : Held → Held) : Dev :=
  d.updSkein k fun s => { s with held := s.held.map fun h => if h.record.segnum = num then f h else h }

/-- A segment has been delivered: its entry is due, and what it still held of the skein is released (R155, R308). -/
def Dev.hoistDelivered (d : Dev) (k t outcome : Nat) (h : Held) : Dev :=
  let d := d.updSkein k fun s => { s with held := s.held.filter fun x => x.record.segnum != h.record.segnum }
  (d.updTgt t fun x =>
    { x with skein := none
             due := x.due ++ [⟨h.record.lane, h.record.segnum, h.dest, h.sent, outcome⟩] }).skeinOldest k

/-- Bytes of a STOP ring that are written and not released: WP − REL modulo the ring. -/
def Dev.ringUsed (d : Dev) (t : Nat) : Nat :=
  let size := max 1 (d.get BEN_HT_SIZE.OFS t)
  let n := (d.get BEN_HT_WP.OFS t + size - d.get BEN_HT_REL.OFS t % size) % size
  if n = 0 ∧ (d.ben.target.get t).full then size else n

/-- The complete segments of a ring that a write of `n` bytes at ring position `a` leaves intact, and how many not. -/
def ringCut (base size a n : Nat) (ring : List (Nat × Nat)) : List (Nat × Nat) × Nat :=
  let hit := fun (e : Nat × Nat) =>
    let b := (e.1 - base) % max 1 size
    meets a n b e.2 || meets a n (b + size) e.2 || meets (a + size) n b e.2
  (ring.filter fun e => ! hit e, (ring.filter hit).length)

/-- BEN_HT_OLDEST shows the oldest intact segment of the ring. -/
def Dev.tgtOldest (d : Dev) (t : Nat) : Dev :=
  match (d.ben.target.get t).ring.head? with
  | some (a, _) => (d.put BEN_HT_OLDEST.OFS a t).putb BEN_HT_OLDEST.VALID true t
  | none => d.wr ⟨.BEN_HT_OLDEST, t, 0, 0⟩ 0

/-- The hoist writes a piece of `n` bytes of a segment of `total` bytes to a QUARRY target, or stops it. -/
def Dev.pieceQuarry (d : Dev) (k t : Nat) (s : Skein) (h : Held) (total n : Nat) : Dev :=
  let base := d.get BEN_HT_BASE.OFS t
  let size := d.get BEN_HT_SIZE.OFS t
  let wp := d.get BEN_HT_WP.OFS t
  let need := if h.sent = 0 ∧ h.ended then total else n
  if d.flag BEN_HT_CTL.POLICY t && decide (size < d.ringUsed t + need) then
    ((d.updTgt t fun x => { x with stopped := true }).putb BEN_HT_STREAM.STUCK (decide (size < total)) t).raise 504
  else
    let bytes := (List.range n).flatMap fun j => d.storeRead s.store (s.base + h.pos (h.sent + j)) 1
    let bad := (List.range n).any fun j => d.poisoned s.store (s.base + h.pos (h.sent + j)) 1
    let a := wp - base
    let first := min n (size - a)
    let d := (d.storeWrite 1 wp (bytes.take first)).storeWrite 1 base (bytes.drop first)
    let (ring, lost) := ringCut base size a n (d.ben.target.get t).ring
    let d := if 0 < lost ∧ d.get BEN_HT_CNT_OVW.COUNT t = 0 then d.raise 505 else d
    let d := d.count BEN_HT_CNT_OVW.COUNT t 0 lost
    let wp' := base + (a + n) % max 1 size
    let d := d.put BEN_HT_WP.OFS wp' t
    let h' := { h with sent := h.sent + n, dest := if h.sent = 0 then wp else h.dest, poisoned := h.poisoned || bad }
    let done := h.ended && decide (total ≤ h.sent + n)
    let keep := if done ∧ total ≤ size ∧ 0 < total then ring ++ [(h'.dest, total)] else ring
    let d := d.updTgt t fun x =>
      { x with ring := keep, skein := some k
               full := if n = 0 then x.full else (wp' - d.get BEN_HT_REL.OFS t % max 1 size) % max 1 size == 0 }
    let d := (d.updHeld k h.record.segnum fun _ => h').tgtOldest t
    if done then d.hoistDelivered k t h'.poisoned.toNat h' else d

/-- The hoist hands a piece of a segment to its stream's port (R376). -/
def Dev.pieceStream (d : Dev) (k t : Nat) (s : Skein) (h : Held) (n : Nat) : Dev :=
  let bytes := (List.range n).map fun j =>
    let a := s.base + h.pos (h.sent + j)
    ((d.storeRead s.store a 1).headD 0, d.poisoned s.store a 1)
  let d := d.updTgt t fun x => { x with buf := x.buf ++ bytes, skein := some k }
  d.updHeld k h.record.segnum fun h =>
    { h with sent := h.sent + n, poisoned := h.poisoned || bytes.any Prod.snd }

/-- The hoist serves one piece (R307). -/
def Dev.hoistPieceEff (d : Dev) : Dev :=
  match d.hoistNext with
  | none => d
  | some k =>
    let s := d.lanes.skein.get k
    match s.piece with
    | none => d
    | some (h, total, n) =>
      let d := d.setBen { d.ben with hoistLast := k }
      (if d.get BEN_HT_CTL.KIND s.tgt = 0 then d.pieceQuarry k s.tgt s h total n
       else d.pieceStream k s.tgt s h n).flowUpdate

/-- A write of BEN_HT_REL: a stopped target goes on once its next segment fits (R307). -/
def Dev.hoistReleaseWriteEff (t rel : Nat) (d : Dev) : Dev :=
  let same : Bool := rel == d.get BEN_HT_REL.OFS t
  let d := (d.put BEN_HT_REL.OFS rel t).updTgt t fun x => { x with full := x.full && same }
  if ! (d.ben.target.get t).stopped then d
  else
    let fits := (List.range 64).any fun k =>
      let s := d.lanes.skein.get k
      s.defined && s.policy == 2 && s.tgt == t && match s.piece with
        | some (h, total, n) =>
          decide (d.ringUsed t + (if h.sent = 0 ∧ h.ended then total else n) ≤ d.get BEN_HT_SIZE.OFS t)
        | none => false
    if fits then (d.updTgt t fun x => { x with stopped := false }).putb BEN_HT_STREAM.STUCK false t else d

/-! ### Entries (R308) -/

/-- The bytes of a hoist entry (R308). -/
def HoistEntry.image (e : HoistEntry) (t seq : Nat) : List Byte :=
  leBytes (t % 64 * 2 ^ 52 + e.lane % 16 * 2 ^ 48 + e.segnum % 2 ^ 48) 8 ++ leBytes (e.dest % 2 ^ 48) 8
    ++ leBytes (e.bytes % 2 ^ 48) 8 ++ leBytes (seq % 2 ^ 32 * 2 ^ 32 + e.outcome % 16) 8

/-- The oldest entry that is due goes to the target's queue. -/
def Dev.hoistEntryEff (t : Nat) (d : Dev) : Dev :=
  let x := d.ben.target.get t
  match x.due with
  | [] => d
  | e :: rest =>
    let d := d.updTgt t fun x => { x with due := rest, seq := (x.seq + 1) % 2 ^ 32 }
    let d := (d.bump BEN_HT_CNT_SEG.COUNT t).post (d.get BEN_HT_CTL.Q t) 1 3 16 (e.image t x.seq)
    if e.outcome = 1 then d.raise 506 else d

/-- A REPLAY pass has ended (R308). -/
def Dev.replayDoneEff (t : Nat) (d : Dev) : Dev :=
  let x := d.ben.target.get t
  if x.passEnd then
    let d := d.updTgt t fun x =>
      { x with passEnd := false, passPoison := false, passes := x.passes - 1
               due := x.due ++ [⟨0, 0, 0, d.get BEN_HT_WP.OFS t, x.passPoison.toNat⟩] }
    let d := if 1 < x.passes then d.put BEN_HT_WP.OFS 0 t else d
    (d.raise 511).hoistEntryEff t
  else d

/-- Before a reset completes, every segment that is not wholly delivered gets an ABORTED entry (R321). -/
def Dev.hoistAbort (d : Dev) : Dev :=
  (List.range 64).foldl (fun d k =>
    let s := d.lanes.skein.get k
    if s.defined ∧ s.policy = 2 then
      s.held.foldl (fun d h => (d.hoistDelivered k s.tgt 2 h).hoistEntryEff s.tgt) d
    else d) d

end Sys2Proof.Machine
end

