-- ==== Sys2Proof/Machine/Ports.lean ====
section
/-!
DEFINITION. Stream ports and the Jariz stream protocol (16_stream_ports.md R368-R385): enabling, the sorting of received
frames, credits, retransmission, launches, FIRE_AT messages and sub-port links.
-/
namespace Sys2Proof.Machine

/-- Change port `p`. -/
def Dev.updPort (d : Dev) (p : Nat) (f : Port → Port) : Dev := d.setEth (d.eth.upd p f)

/-- Change the stream of target `t`. -/
def Dev.updStream (d : Dev) (t : Nat) (f : Stream → Stream) : Dev := d.updTgt t fun x => { x with stream := f x.stream }

/-! ### Enabling (R368, R369) -/

/-- The sub-ports of a port's mode. -/
def Dev.subports (d : Dev) (p : Nat) : Nat := match d.get ETH_CTL.MODE p with
  | 1 => 2
  | 2 => 4
  | _ => 1

/-- An enabled queue in the bench meets a region. -/
def Dev.benchRingMeets (d : Dev) (base size : Nat) : Bool :=
  (List.range 4096).any fun q => d.flag QUE_CTL.EN q && d.flag QUE_BASE.BENCH q
    && meets (d.get QUE_BASE.ADDR q * 4096) (d.qN q * d.qEsize q) base size

/-- The retransmit window may be used (R369). -/
def Dev.windowOk (d : Dev) (p : Nat) : Bool :=
  let base := d.get ETH_RTX_BASE.OFS p
  let size := d.get ETH_RTX_SIZE.OFS p
  base % 4096 == 0 && size % 4096 == 0 && decide (4096 ≤ size) && decide (size ≤ 2 ^ 32)
    && decide (base + size ≤ benchSize) && ! d.skeinMeets 0 base size && ! d.benchRingMeets base size

/-- ETH_STAT.READY follows EN, the port's domain and the bench, which holds its window (R39, R40, R368). -/
def Dev.portReady (d : Dev) (p : Nat) : Dev :=
  d.putb ETH_STAT.READY (d.flag ETH_CTL.EN p && d.pdOn (59 + p) && d.benchOn) p

/-- The port runs. -/
def Dev.portRuns (d : Dev) (p : Nat) : Bool := d.flag ETH_CTL.EN p && d.flag ETH_STAT.READY p

/-- A write of ETH_CTL that sets EN, or finds it set. -/
def Dev.portEnableEff (p : Nat) (v : W32) (d : Dev) : Dev :=
  let mode := d.get ETH_CTL.MODE p
  let was := d.flag ETH_CTL.EN p
  let d := (d.wr ⟨.ETH_CTL, p, 0, 0⟩ (v.setWidth 64)).putb ETH_CTL.EN was p
  if was then d.put ETH_CTL.MODE mode p
  else
    let d := d.testEnd 3 p 7
    if d.windowOk p then (((d.putb ETH_CTL.EN true p).put ETH_STAT.RESULT 1 p).portReady p)
    else d.put ETH_STAT.RESULT 2 p

/-- ETH_STAT.STALLED: a stream of the port is stalled. -/
def Dev.stalledShow (d : Dev) (p : Nat) : Dev :=
  d.putb ETH_STAT.STALLED ((List.range 64).any fun t =>
    d.tgtStream t && d.tgtPort t == p && (d.ben.target.get t).stream.stalled) p

/-- A clear of ETH_CTL.EN (R383). -/
def Dev.portDisableEff (p : Nat) (d : Dev) : Dev :=
  (((d.putb ETH_CTL.EN false p).windowAbandon p fun _ => true).putb ETH_STAT.READY false p)

/-! ### SEQ, credits and the window (R372-R376) -/

/-- SEQ `a` is later than `b` (R372). -/
def seqLater (a b : Nat) : Bool :=
  let x := (a + 2 ^ 48 - b % 2 ^ 48) % 2 ^ 48
  decide (1 ≤ x) && decide (x < 2 ^ 47)

/-- The CREDIT of a stream (R373): an ACK later than what has been launched is stale; progress ends a stall (R375). ACK names
the first packet not received, so the ACK of the whole stream is the SEQ that comes next; a later one acknowledges what was
not launched (DESIGN CHOICE, log entry 67). -/
def Dev.creditEff (t ack limit : Nat) (d : Dev) : Dev :=
  if ! (d.tgtStream t && d.portRuns (d.tgtPort t)) then d
  else
    let p := d.tgtPort t
    let x := (d.ben.target.get t).stream
    let d := if seqLater limit x.limit then d.updStream t fun x => { x with limit := limit } else d
    if seqLater ack x.seq then d.count ETH_CNT_STALE.COUNT p
    else if seqLater ack x.ack then
      let d := d.updStream t fun x => { x with ack := ack, last := d.now, probes := 0, stalled := false }
      let gone := fun (k : Packet) => k.tgt == t && seqLater ack k.seq
      (d.updPort p fun y =>
        { y with window := y.window.filter fun k => ! gone k
                 retx := y.retx.filter fun r => ! (r.1 == t && seqLater ack r.2) }).stalledShow p
    else d

/-- A packet is queued for retransmission, or skipped as stale. -/
def Dev.retxQueue (d : Dev) (p t seq : Nat) : Dev :=
  if (d.eth.get p).window.any fun k => k.tgt == t && k.seq == seq then
    d.updPort p fun y => { y with retx := y.retx ++ [(t, seq)] }
  else d.count ETH_CNT_STALE.COUNT p

/-- The NACK of a stream (R374): its credit first, then the runs. -/
def Dev.nackEff (t ack limit : Nat) (runs : List (Nat × Nat)) (d : Dev) : Dev :=
  if ! (d.tgtStream t && d.portRuns (d.tgtPort t)) then d
  else
    let p := d.tgtPort t
    if runs = [] ∨ 32 < runs.length ∨ (runs.any fun r => r.2 == 0) then d.count ETH_CNT_BADHDR.COUNT p
    else
      runs.foldl (fun d r => (List.range r.2).foldl (fun d i => d.retxQueue p t ((r.1 + i) % 2 ^ 48)) d)
        (d.creditEff t ack limit)

/-- The sub-port of target `t` exists and has its link. -/
def Dev.tgtLinked (d : Dev) (t : Nat) : Bool :=
  let p := d.tgtPort t
  let s := d.get ETH_DST_CTL.SUBPORT p t
  decide (s < d.subports p) && d.get ETH_STAT.LINK p / 2 ^ s % 2 == 1

/-- The first retransmission that is ready: one whose sub-port has its link (R383). -/
def Dev.retxReady (d : Dev) (p : Nat) : Option (Nat × Nat) := (d.eth.get p).retx.find? fun r => d.tgtLinked r.1

/-- The first packet ready for retransmission is sent again with RETX set (R372, R374). -/
def Dev.retransmitEff (p : Nat) (d : Dev) : Dev :=
  match if d.portRuns p then d.retxReady p else none with
  | none => d
  | some (t, seq) =>
    let rest := (d.eth.get p).retx.erase (t, seq)
    match (d.eth.get p).window.find? fun k => k.tgt == t && k.seq == seq with
    | none => d.updPort p fun y => { y with retx := rest }
    | some k =>
      let k := if k.flags / 8 % 2 = 1 then k else { k with flags := k.flags + 8 }
      let d := d.updPort p fun y => { y with retx := rest, out := some k }
      (d.count ETH_CNT_RETX.COUNT p).raiseHeld 1250 (547 + 8 * p)

/-- ACK has not advanced for TIMEOUT frames (R375). The timeout that follows the last probe finds the stream without progress:
it is STALLED (DESIGN CHOICE, log entry 67). -/
def Dev.creditTimeoutEff (t : Nat) (d : Dev) : Dev :=
  let p := d.tgtPort t
  let x := (d.ben.target.get t).stream
  if ! d.tgtStream t || x.stalled || ! ((d.eth.get p).window.any fun k => k.tgt == t) then d
  else
    let d := d.advanceTo (x.last + max 1 (d.get ETH_CR_CTL.TIMEOUT p))
    if x.probes < max 1 (d.get ETH_CR_CTL.RETRIES p) then
      (d.updStream t fun x => { x with last := d.now, probes := x.probes + 1 }).updPort p fun y =>
        { y with retx := y.retx ++ [(t, x.ack)] }
    else ((d.updStream t fun x => { x with stalled := true }).stalledShow p).raise (546 + 8 * p)

/-! ### Launches (R370-R372, R376) -/

/-- Bytes that the window holds: the 32-byte header and the payload of each packet (DESIGN CHOICE, log entry 67: the spec does
not lay the window out, so the model keeps its packets beside the bench). -/
def Port.used (x : Port) : Nat := (x.window.map fun k => 32 + k.payload.length).sum

/-- A packet enters the window and leaves, unless the window has no room: then WINDOW_FULL. -/
def Dev.packetSend (d : Dev) (t : Nat) (k : Packet) (done : Dev → Dev) : Dev :=
  let p := d.tgtPort t
  if d.get ETH_RTX_SIZE.OFS p < (d.eth.get p).used + 32 + k.payload.length then d.raiseHeld 1250 (551 + 8 * p)
  else
    let x := (d.ben.target.get t).stream
    let fresh := ! ((d.eth.get p).window.any fun k => k.tgt == t)
    let k := { k with tgt := t, seq := x.seq, sid := d.get BEN_HT_STREAM.ID t, dev := d.get SYN_SYSID.ID }
    let d := d.updPort p fun y => { y with window := y.window ++ [k], out := some k }
    done (d.updStream t fun x =>
      { x with seq := (x.seq + 1) % 2 ^ 48, last := if fresh then d.now else x.last })

/-- A bit of the flags byte. -/
def flagBit (b : Bool) (n : Nat) : Nat := if b then 2 ^ n else 0

/-- The next packet of a segment: DATA while bytes are left, then its RECORD (R371). -/
def Dev.segmentPacket (d : Dev) (t k : Nat) (h : Held) : Dev :=
  let x := d.ben.target.get t
  let full := d.payload (d.tgtPort t) h.g
  let whole := h.ended && decide (h.m * h.g ≤ h.sent)
  if full < x.buf.length ∨ (whole ∧ x.buf ≠ []) then
    let piece := x.buf.take (if full = 0 then x.buf.length else full)
    let last := whole && decide (x.buf.length ≤ piece.length)
    let bytes := piece.map Prod.fst
    let bad := piece.any Prod.snd
    let seq := h.record.segnum % 2 ^ 32
    let inst := h.firsts.getD (h.packed / max 1 h.g) 0
    let stamped : BitVec 128 := BitVec.ofNat 128 (leNat (bytes.take 16))
    let keep := stamped.toNat % 2 ^ 96 + seq * 2 ^ 96
    let time := if h.record.format = 6 then BitVec.ofNat 128 keep
      else if inst % 65536 = 0 then d.stamp seq (inst / 65536 / 64) (inst / 65536 % 64)
      else d.stampInst seq inst
    let flags := flagBit (last && h.record.truncated) 0 + flagBit (h.packed == 0) 1 + flagBit last 2 + flagBit bad 4
    d.packetSend t { flags := flags, lane := h.record.lane, fmt := h.record.format, time := time, payload := bytes }
      fun d => (d.updTgt t fun x => { x with buf := x.buf.drop piece.length }).updHeld k h.record.segnum fun h =>
        { h with packed := h.packed + piece.length }
  else if whole ∧ h.recorded then
    d.packetSend t { typ := 1, flags := flagBit h.record.truncated 0, lane := h.record.lane, fmt := h.record.format
                     time := h.record.time, payload := h.record.bytes }
      fun d => d.hoistDelivered k t h.poisoned.toNat h
  else d

/-- The next packet of a REPLAY pass: raw quarry bytes. -/
def Dev.replayPacket (d : Dev) (t : Nat) : Dev :=
  let x := d.ben.target.get t
  if x.passes = 0 ∨ x.passEnd ∨ ! d.flag BEN_QRY_STAT.READY then d
  else
    let wp := d.get BEN_HT_WP.OFS t
    let size := d.get BEN_HT_SIZE.OFS t
    let n := min (d.get ETH_PAY.MAXPAY (d.tgtPort t)) (size - wp)
    let a := d.get BEN_HT_BASE.OFS t + wp
    let last := decide (size ≤ wp + n)
    let bad := d.poisoned 1 a n
    d.packetSend t { flags := flagBit bad 4 + 32 + flagBit last 6, time := d.stamp 0 d.now 0
                     payload := d.storeRead 1 a n }
      fun d => (d.put BEN_HT_WP.OFS (wp + n) t).updTgt t fun x =>
        { x with passEnd := last, passPoison := x.passPoison || bad }

/-- A new packet of target `t` is launched once the port runs, its link is up, no retransmission is ready, and its
stream's credit allows it. -/
def Dev.packetLaunchEff (t : Nat) (d : Dev) : Dev :=
  let p := d.tgtPort t
  let x := d.ben.target.get t
  if ! (d.tgtStream t && d.portRuns p && d.tgtLinked t) || (d.retxReady p).isSome
      || x.stream.stalled || d.tgtDup t || ! seqLater x.stream.limit x.stream.seq then d
  else if d.get BEN_HT_CTL.KIND t = 2 then d.replayPacket t
  else match x.skein with
    | some k =>
      match (d.lanes.skein.get k).held.head? with
      | some h => d.segmentPacket t k h
      | none => d
    | none => d

/-! ### FIRE_AT (R377-R379) -/

/-- A little-endian field of a datagram. -/
def field (l : List Byte) (ofs n : Nat) : Nat := leNat ((l.drop ofs).take n)

/-- The bytes of a key slot, word 0 first (R385). -/
def Dev.faKeyBytes (d : Dev) (k : Nat) : List Byte := (List.range 8).flatMap fun i => leBytes (d.faKey.get (8 * k + i)) 4

/-- The outcome of a FIRE_AT datagram (R378). -/
def Dev.fireOutcome (d : Dev) (l : List Byte) : Nat :=
  let key := field l 0x21 1 % 4
  if field l 0x0A 2 ≠ 48 ∨ l.length ≠ 80 ∨ field l 1 1 / 128 = 1 ∨ field l 0x0C 2 / 2 ^ 14 ≠ 0 ∨ field l 0x0F 1 ≠ 0
      ∨ field l 0x10 16 / 2 ^ 95 % 2 = 1 ∨ 4 ≤ field l 0x21 1 ∨ field l 0x22 2 / 2 ^ 14 % 2 = 1
      ∨ field l 0x24 4 ≠ 0 then 1
  else if ! d.flag ETH_FA_KCTL.EN key then 2
  else if hmacSha256 (d.faKeyBytes key) (l.take 48) ≠ l.drop 48 then 3
  else if field l 0x28 8 ≤ d.get ETH_FA_LAST.COUNTER key then 4
  else if field l 0x22 2 < 2 ^ 15 ∧ ¬ (d.flag SYN_SYSID.EN ∧ field l 0x22 2 % 2 ^ 14 = d.get SYN_SYSID.ID) then 5
  else 0

/-- The entry of R379. -/
def fireEntry (arrival : BitVec 128) (sub outcome : Nat) (l : List Byte) : List Byte :=
  leBytes arrival.toNat 16 ++ leBytes (field l 0x12 8) 8
    ++ leBytes (field l 0x28 4 * 2 ^ 32 + sub * 2 ^ 30 + outcome * 2 ^ 26 + field l 0x21 1 % 4 * 2 ^ 24
      + field l 0x0C 2 % 2 ^ 14 * 2 ^ 8 + field l 0x20 1) 8

/-- A FIRE_AT datagram that arrived `arrival` sixteenths of a tick into the current frame. An accepted message reaches the
trigger units in that frame (DESIGN CHOICE, log entry 67: R378 bounds the time by 5,000 frames). -/
def Dev.fireAtEff (p sub arrival : Nat) (l : List Byte) (d : Dev) : Dev :=
  if ! d.portRuns p then d
  else
    let outcome := d.fireOutcome l
    let d := if outcome = 0 then d.put ETH_FA_LAST.COUNTER (field l 0x28 8) (field l 0x21 1 % 4) else d
    let d := if outcome = 0 then d.raise (549 + 8 * p) else (d.count ETH_CNT_FA_REJ.COUNT p).raise (550 + 8 * p)
    let inst := (d.now * 1024 + arrival - d.get ETH_PTP_DLY.RX p) * 4096
    let d := if d.flag ETH_FA_Q.EN p then
        (d.post (d.get ETH_FA_Q.Q p) 5 0 5500
          (fireEntry (d.stampInst (d.eth.get p).faSeq inst) sub outcome l)).updPort p fun y =>
            { y with faSeq := (y.faSeq + 1) % 2 ^ 32 }
      else d
    if outcome = 0 then
      let time := field l 0x10 16
      d.timedMessage (time / 2 ^ 16 % 2 ^ 72) (time % 2 ^ 16) (field l 0x20 1) (field l 0x0C 2 % 2 ^ 14)
    else d

/-- A write of a key word: the slot is disabled and its counter is 0 (R383). -/
def Dev.faKeyWriteEff (k i : Nat) (v : W32) (d : Dev) : Dev :=
  (((d.setFaKey (d.faKey.set (8 * k + i) v.toNat)).putb ETH_FA_KCTL.EN false k).put ETH_FA_LAST.COUNTER 0 k)

/-! ### Received frames (R380) -/

/-- A request for an answer of the housekeeping controller, up to PER_MS in a millisecond, which begins with the first request
after the one before (DESIGN CHOICE, log entry 67). -/
def Dev.arpNdEchoEff (p : Nat) (d : Dev) : Dev :=
  if ! d.portRuns p then d
  else
    let x := d.eth.get p
    let d := if x.hkFrom + 1250000 ≤ d.now then d.updPort p fun x => { x with hkFrom := d.now, hkCount := 0 } else d
    if d.flag ETH_CTL.HK_EN p && ! d.hkAbsent && decide ((d.eth.get p).hkCount < d.get ETH_HK_RATE.PER_MS p) then
      d.updPort p fun x => { x with hkCount := x.hkCount + 1 }
    else d.count ETH_CNT_HKDROP.COUNT p

/-- The IPv6 address of a sub-port. -/
def Dev.ip6 (d : Dev) (p s : Nat) : Nat :=
  ((List.range 4).map fun i => d.get ETH_IP6.WORD p s i * 2 ^ (32 * i)).sum

/-- The multicast addresses that neighbour discovery and PTP use (PRESUMED from RFC 2464, RFC 4291 and IEEE 1588,
log entry 42). -/
def Dev.multicastUsed (d : Dev) (p s : Nat) (mac : BitVec 48) : Bool :=
  mac.toNat == 0x3333FF000000 + d.ip6 p s % 2 ^ 24 || mac == 0x333300000001
    || [0x011B19000000, 0x0180C200000E, 0x01005E000181, 0x01005E00006B, 0x333300000181, 0x33330000006B].contains mac.toNat

/-- A dropped frame of no use here. -/
def Dev.foreign (d : Dev) (p : Nat) : Dev := (d.count ETH_CNT_FOREIGN.COUNT p).raiseHeld 1250000 (548 + 8 * p)

/-- The enabled target that a source address, port and stream ID match (R380, R381). -/
def Dev.creditTarget (d : Dev) (p sid : Nat) (v6 : Bool) (src : Nat) (sport : Nat) : Option Nat :=
  (List.range 64).find? fun t => d.tgtStream t && d.tgtPort t == p && d.get BEN_HT_STREAM.ID t == sid
    && d.flag ETH_DST_CTL.IP6 p t == v6 && d.get ETH_DST_CTL.UDP p t == sport
    && (if v6 then ((List.range 4).map fun i => d.get ETH_DST_IP.WORD p t i * 2 ^ (32 * i)).sum == src
        else d.get ETH_DST_IP.WORD p t 0 == src % 2 ^ 32)

/-- The runs of a NACK. -/
def nackRuns (l : List Byte) (count : Nat) : List (Nat × Nat) :=
  (List.range count).map fun i => (field l (32 + 0x18 + 8 * i) 6, field l (32 + 0x18 + 8 * i + 6) 2)

/-- A UDP datagram to the Jariz port (R370, R380). -/
def Dev.jarizRx (d : Dev) (p sub arrival : Nat) (v6 : Bool) (src sport : Nat) (l : List Byte) : Dev :=
  let typ := field l 0 1 % 16
  let len := field l 0x0A 2
  let count := field l (32 + 0x10) 1
  let bad := d.count ETH_CNT_BADHDR.COUNT p
  if l.length < 32 ∨ field l 0 1 / 16 ≠ 1 ∨ typ < 2 ∨ 4 < typ then bad
  else if typ = 4 then d.fireAtEff p sub arrival l
  else if len + 32 ≠ l.length ∨ len < 16
      ∨ (typ = 3 ∧ (len < 0x18 ∨ count = 0 ∨ 32 < count ∨ len < 0x18 + 8 * count
          ∨ ((nackRuns l count).any fun r => r.2 == 0))) then bad
  else match d.creditTarget p (field l 2 2) v6 src sport with
    | none => (d.count ETH_CNT_UNKNOWN.COUNT p).raiseHeld 1250000 (548 + 8 * p)
    | some t =>
      if typ = 2 then d.creditEff t (field l 32 6) (field l 40 6)
      else d.nackEff t (field l 32 6) (field l 40 6) (nackRuns l count)

/-- A received frame ends in exactly one class. -/
def Dev.ethFrameRxEff (p sub arrival : Nat) (f : EthFrame) (d : Dev) : Dev :=
  if ! d.portRuns p || decide (d.subports p ≤ sub) then d
  else if ! f.good then d.count ETH_CNT_FCS.COUNT p
  else if ! (f.dmac.toNat == d.get ETH_MAC.MAC p sub || f.dmac == BitVec.allOnes 48 || d.multicastUsed p sub f.dmac) then
    d.foreign p
  else
    let ip4 := d.get ETH_IP4.ADDR p sub
    let ip6 := d.ip6 p sub
    match f.body with
    | .arp a => if a.toNat = ip4 then d.arpNdEchoEff p else d.foreign p
    | .nd a => if a.toNat = ip6 then d.arpNdEchoEff p else d.foreign p
    | .echo4 a => if a.toNat = ip4 then d.arpNdEchoEff p else d.foreign p
    | .echo6 a => if a.toNat = ip6 then d.arpNdEchoEff p else d.foreign p
    | .ptp => if d.flag TB_PTP_CTL.EN && d.ptpPort == p && sub == 0 then d else d.foreign p
    | .udp v6 plain src dst sport dport l =>
      if plain && dport.toNat == d.get ETH_CTL.UDP_PORT p && (if v6 then dst.toNat == ip6 else dst.toNat == ip4) then
        d.jarizRx p sub arrival v6 src.toNat sport.toNat l
      else d.foreign p
    | .other => d.foreign p

/-! ### Sub-port links (R384) -/

/-- A sub-port's link comes up or goes down. -/
def Dev.subportLink (d : Dev) (p s : Nat) (up : Bool) : Dev :=
  let v := d.get ETH_STAT.LINK p
  if d.subports p ≤ s ∨ (v / 2 ^ s % 2 = 1) = (up = true) then d
  else (d.put ETH_STAT.LINK (if up then v + 2 ^ s else v - 2 ^ s) p).raise ((if up then 544 else 545) + 8 * p)

def Dev.subportLinkUpEff (p s : Nat) (d : Dev) : Dev := d.subportLink p s true
def Dev.subportLinkDownEff (p s : Nat) (d : Dev) : Dev := d.subportLink p s false

end Sys2Proof.Machine
end

