-- ==== Sys2Proof/Machine/Raster.lean ====
section
/-!
DEFINITION. Raster engine and display outputs (18_raster_and_display.md R405-R424): canvases, composition passes, commits,
latch points, front-buffer samples, command-mode pushes and underruns.
-/
namespace Sys2Proof.Machine

/-- Change canvas `c`. -/
def Dev.updCanvas (d : Dev) (c : Nat) (f : Canvas → Canvas) : Dev :=
  d.setRas { d.ras with canvas := d.ras.canvas.upd c f }

/-- Change output `x`. -/
def Dev.updOut (d : Dev) (x : Nat) (f : Output → Output) : Dev := d.setRas { d.ras with out := d.ras.out.upd x f }

/-- The raster store: 96 MiB (R407). -/
def rasterSize : Nat := 96 * 2 ^ 20

/-! ### Canvases (R405-R407) -/

/-- Tiles in a row of a picture of width `w`. -/
def tileCols (w : Nat) : Nat := (w + 31) / 32

/-- The offset of pixel (x, y), with `k` bytes a pixel (R406). -/
def pixelOfs (w h k x y : Nat) : Nat :=
  y / 32 * (tileCols w * 1024 * k) + x / 32 * (32 * k * min 32 (h - 32 * (y / 32))) + y % 32 * (32 * k) + x % 32 * k

/-- The canvas registers that a pass uses: W, H, BUF0, BUF1, OVL, BG. -/
def Dev.canvasCfg (d : Dev) (c : Nat) : List Nat :=
  [d.get RAS_CV_SIZE.W c, d.get RAS_CV_SIZE.H c, d.get RAS_CV_BUF0.OFS c * 4096, d.get RAS_CV_BUF1.OFS c * 4096,
   d.get RAS_CV_OVL.OFS c * 4096, d.get RAS_CV_BG.RGB c]

/-- The logic planes of canvas `c`: plane and base. -/
def Dev.planes (d : Dev) (c : Nat) : List (Nat × Nat) :=
  ((List.range 4).filter fun p => d.flag RAS_LP_CTL.EN p && d.get RAS_LP_CTL.CANVAS p == c).map fun p =>
    (p, d.get RAS_LP_CTL.OFS p * 4096)

/-- The regions of canvas `c`: two buffers, the overlay and its logic planes (R406). -/
def Dev.canvasRegions (d : Dev) (c : Nat) : List (Nat × Nat) :=
  let w := tileCols (d.get RAS_CV_SIZE.W c)
  let h := d.get RAS_CV_SIZE.H c
  [(d.get RAS_CV_BUF0.OFS c * 4096, w * 128 * h), (d.get RAS_CV_BUF1.OFS c * 4096, w * 128 * h),
   (d.get RAS_CV_OVL.OFS c * 4096, w * 32 * h)] ++ (d.planes c).map fun p => (p.2, w * 4 * h)

/-- Two regions of one list meet. -/
def regionsMeet : List (Nat × Nat) → Bool
  | [] => false
  | a :: t => (t.any fun b => meets a.1 a.2 b.1 b.2) || regionsMeet t

/-- The first check of R407 that fails, as RESULT; 1 when all hold. -/
def Dev.canvasCheck (d : Dev) (c : Nat) : Nat :=
  let w := d.get RAS_CV_SIZE.W c
  let h := d.get RAS_CV_SIZE.H c
  let own := d.canvasRegions c
  let other := if d.bitOf RAS_CTL.EN (1 - c) then d.canvasRegions (1 - c) else []
  if w < 16 ∨ 3840 < w ∨ h < 16 ∨ 3840 < h ∨ 8294400 < w * h then 4
  else if own.any fun r => decide (rasterSize < r.1 + r.2) then 2
  else if regionsMeet own || own.any (fun a => other.any fun b => meets a.1 a.2 b.1 b.2) then 3
  else 1

/-- RESULT of a canvas. -/
def Dev.canvasResult (d : Dev) (c r : Nat) : Dev :=
  if c = 0 then d.put RAS_STAT.RESULT0 r else d.put RAS_STAT.RESULT1 r

/-- A write that sets ENc. -/
def Dev.canvasEnableEff (c : Nat) (d : Dev) : Dev :=
  if d.bitOf RAS_CTL.EN c then d
  else
    let r := d.canvasCheck c
    let d := d.canvasResult c r
    if r = 1 then d.putBit RAS_CTL.EN c true else d

/-- A clear of ENc: its pass ends unfinished. -/
def Dev.canvasDisable (d : Dev) (c : Nat) : Dev :=
  ((d.putBit RAS_CTL.EN c false).putBit RAS_STAT.BUSY c false).updCanvas c fun x => { x with due := false }

/-- A write of a canvas or plane register while ENc is 1: one that would fail a check is discarded (R407). -/
def Dev.canvasGuard (after before : Dev) (c : Nat) : Dev :=
  let r := after.canvasCheck c
  if before.bitOf RAS_CTL.EN c && r != 1 then before.canvasResult c r else after

/-! ### Composition (R408-R412) -/

/-- Blend colour `c` with alpha `a` onto `p`, channel by channel (R408). -/
def blend (a c p : Nat) : Nat :=
  ([65536, 256, 1].map fun s => (a * (c / s % 256) + (255 - a) * (p / s % 256) + 127) / 255 * s).sum

/-- The index of a count above 0 (R409). -/
def mapIndex (log : Bool) (scale h : Nat) : Nat :=
  if log then
    let e := h.log2
    min 255 (1 + 8 * e + (h * 8 / 2 ^ e) - 8)
  else min 255 (max 1 (h * scale / 65536))

/-- Entry `i` of a lookup table onto a pixel. -/
def Dev.lutBlend (d : Dev) (n i p : Nat) : Nat := blend (d.get RAS_LUT.ALPHA n i) (d.get RAS_LUT.RGB n i) p

/-- Trace layer `l` over a pixel (R409). -/
def Dev.layerPixel (d : Dev) (l x y p : Nat) : Nat :=
  let j := d.get RAS_LY_CTL.JOB l
  let x0 := d.get RAS_LY_POS.X0 l
  let y0 := d.get RAS_LY_POS.Y0 l
  let col := (x - x0) / (d.get RAS_LY_CTL.ZX l + 1)
  let dn := (y - y0) / (d.get RAS_LY_CTL.ZY l + 1)
  let v := d.talView j
  if ! v.den || decide (x < x0) || decide (y < y0) || decide (v.cols ≤ col) || decide (v.rows ≤ dn) then p
  else
    let h := d.binSum j col (v.rows - 1 - dn)
    if h = 0 then p else d.lutBlend l (mapIndex (d.flag RAS_LY_CTL.MAP l) (d.get RAS_LY_SCALE.SCALE l) h) p

/-- Pixel (x, y) of canvas `c` as a pass composes it (R408). -/
def Dev.canvasPixel (d : Dev) (c : Nat) (cfg : List Nat) (planes : List (Nat × Nat)) (x y : Nat) : Nat :=
  let w := cfg.getD 0 0
  let h := cfg.getD 1 0
  let p := cfg.getD 5 0
  let p := (List.range 8).foldl (fun p l =>
    if d.flag RAS_LY_CTL.EN l && d.get RAS_LY_CTL.CANVAS l == c then d.layerPixel l x y p else p) p
  let p := planes.foldl (fun p (n, base) =>
    let word := leNat (d.ras.mem.bytes (base + y * (tileCols w * 4) + x / 32 * 4) 4)
    if word / 2 ^ (x % 32) % 2 = 1 then d.get RAS_LP_COLOUR.RGB n else p) p
  let i := (d.ras.mem.get (cfg.getD 4 0 + pixelOfs w h 1 x y)).toNat
  if i = 0 then p else d.lutBlend 8 i p

/-- An output that is enabled and follows canvas `c`. -/
def Dev.outFollows (d : Dev) (x c : Nat) : Bool :=
  let src := (d.ras.out.get x).act.getD 6 0
  d.flag DPY_CTL.EN x && src / 2 ^ 31 % 2 == 1 && src / 2 ^ 30 % 2 == c

/-- The back buffer of canvas `c` is free (R412). -/
def Dev.backFree (d : Dev) (c : Nat) : Bool :=
  (List.range 2).all fun x => ! d.outFollows x c || (d.ras.out.get x).seen == some (c, (d.ras.canvas.get c).flips)

/-- A GO of a HOST-mode canvas (R411). -/
def Dev.rasGoEff (c : Nat) (d : Dev) : Dev :=
  if d.bitOf RAS_CTL.MODE c then d.updCanvas c fun x => { x with due := true } else d

/-- A pass starts (R411) once the engine is powered (R40): the canvas registers written since take effect (R407). -/
def Dev.passStartEff (c : Nat) (d : Dev) : Dev :=
  if d.bitOf RAS_CTL.EN c && d.pdOn 84 && ! d.bitOf RAS_STAT.BUSY c && d.backFree c
      && (! d.bitOf RAS_CTL.MODE c || (d.ras.canvas.get c).due) then
    (d.putBit RAS_STAT.BUSY c true).updCanvas c fun x => 
      { x with due := false, start := d.now, cfg := d.canvasCfg c, planes := d.planes c }
  else d

/-- The pixels of tile (tx, ty): positions inside the picture. -/
def tilePixels (w h tx ty : Nat) : List (Nat × Nat) :=
  (List.range 32).flatMap fun j => (List.range 32).filterMap fun i =>
    let x := 32 * tx + i
    let y := 32 * ty + j
    if x < w ∧ y < h then some (x, y) else none

/-- LYERR of the layers of canvas `c` (R409). -/
def Dev.layerErrors (d : Dev) (c : Nat) : Dev :=
  (List.range 8).foldl (fun d l =>
    if d.flag RAS_LY_CTL.EN l && d.get RAS_LY_CTL.CANVAS l == c then
      d.putBit RAS_STAT.LYERR l (! d.talDen (d.get RAS_LY_CTL.JOB l))
    else d) d

/-- A pass ends (R410, R411): 64 pixels a frame. -/
def Dev.passEndEff (c : Nat) (d : Dev) : Dev :=
  if ! d.bitOf RAS_STAT.BUSY c then d
  else
    let cv := d.ras.canvas.get c
    let w := cv.cfg.getD 0 0
    let h := cv.cfg.getD 1 0
    let d := (d.advanceTo (cv.start + (w * h + 63) / 64)).layerErrors c
    let front := (d.bitOf RAS_STAT.FRONT c).toNat
    let fb := cv.cfg.getD (2 + front) 0
    let bb := cv.cfg.getD (3 - front) 0
    let tw := tileCols w
    let tiles := List.range (tw * ((h + 31) / 32))
    let pixels := tiles.map fun t => (tilePixels w h (t % tw) (t / tw)).map fun (x, y) =>
      (pixelOfs w h 4 x y, leBytes (d.canvasPixel c cv.cfg cv.planes x y) 4)
    let changed := (tiles.zip pixels).filterMap fun (t, l) =>
      if l.any fun (o, b) => d.ras.mem.bytes (fb + o) 4 != b then some t else none
    let mem := pixels.foldl (fun m l => l.foldl (fun m (o, b) => m.store (bb + o) b) m) d.ras.mem
    let d := (d.setRas { d.ras with mem := mem }).putBit RAS_STAT.BUSY c false
    if changed = [] then
      if d.bitOf RAS_STAT.STATIC c then d else (d.putBit RAS_STAT.STATIC c true).raise 593
    else
      let d := (d.putBit RAS_STAT.FRONT c (front == 0)).putBit RAS_STAT.STATIC c false
      let d := d.updCanvas c fun x => { x with flips := x.flips + 1 }
      let d := (List.range 2).foldl (fun d x =>
        if d.outFollows x c then
          d.updOut x fun o => { o with dirty := o.dirty ++ changed.filter fun t => ! o.dirty.contains t
                                       dueAt := if o.dirty = [] then d.now else o.dueAt }
        else d) d
      d.raise 592

/-! ### Commits (R413, R417-R419) -/

/-- The shadow registers of an output. -/
def shadowRegs : List Rg :=
  [.DPY_H, .DPY_HS, .DPY_V, .DPY_VS, .DPY_VRR, .DPY_PCLK, .DPY_SRC, .DPY_ORIENT, .DPY_UNDER_LIM, .DPY_DB_LINK]

/-- The values that the shadow registers of output `x` hold. -/
def Dev.shadow (d : Dev) (x : Nat) : List Nat := shadowRegs.map fun g => (d.rd ⟨g, x, 0, 0⟩).toNat

/-- Bits of a value. -/
def bitsOf (v lo w : Nat) : Nat := v / 2 ^ lo % 2 ^ w

/-- The fields of a list of output values (R425). -/
def outHAct (l : List Nat) : Nat := bitsOf (l.getD 0 0) 0 12
def outHTotal (l : List Nat) : Nat := bitsOf (l.getD 0 0) 16 13
def outVAct (l : List Nat) : Nat := bitsOf (l.getD 2 0) 0 12
def outVTotal (l : List Nat) : Nat := bitsOf (l.getD 2 0) 16 13
def outVfp (l : List Nat) : Nat := bitsOf (l.getD 3 0) 0 12
def outVsw (l : List Nat) : Nat := bitsOf (l.getD 3 0) 16 12
def outVbp (l : List Nat) : Nat := outVTotal l - outVAct l - outVfp l - outVsw l
def outPclk (l : List Nat) : Nat := bitsOf (l.getD 5 0) 0 21
def outFollow (l : List Nat) : Bool := bitsOf (l.getD 6 0) 31 1 == 1
def outCanvas (l : List Nat) : Nat := bitsOf (l.getD 6 0) 30 1
def outFb (l : List Nat) : Nat := bitsOf (l.getD 6 0) 0 27
def outRot (l : List Nat) : Nat := bitsOf (l.getD 7 0) 0 2
def outMirror (l : List Nat) : Bool := bitsOf (l.getD 7 0) 2 1 == 1

/-- The source size of an output (R416). -/
def outSource (l : List Nat) : Nat × Nat :=
  if outRot l % 2 = 0 then (outHAct l, outVAct l) else (outVAct l, outHAct l)

/-- DPY_PCLK × 24 within the payload of DA's trained link: 1.62, 2.7, 5.4 or 8.1 Gb/s a lane, of which 8b/10b coding
leaves 0.8 (PRESUMED from DisplayPort, log entry 23). -/
def Dev.linkCarries (d : Dev) (khz : Nat) : Bool :=
  let rate := match d.get DPY_LINK.RATE 0 with | 0 => 1620000 | 1 => 2700000 | 2 => 5400000 | _ => 8100000
  d.flag DPY_LINK.UP 0 && decide (khz * 24 * 10 ≤ rate * 8 * d.get DPY_LINK.LANES 0)

/-- Timing, pixel clock, VTOTAL_MAX and UNDER_LIM of output `x` (R413, R417). -/
def outRange (x : Nat) (l : List Nat) : Bool :=
  let ha := outHAct l
  let va := outVAct l
  let khz := outPclk l
  let lanes := bitsOf (l.getD 9 0) 16 3
  let rate := bitsOf (l.getD 9 0) 0 13
  decide (16 ≤ ha) && decide (ha ≤ 3840) && decide (16 ≤ va) && decide (va ≤ 3840) && decide (ha * va ≤ 8294400)
    && decide (ha + bitsOf (l.getD 1 0) 0 12 + bitsOf (l.getD 1 0) 16 12 < outHTotal l)
    && decide (va + outVfp l + outVsw l < outVTotal l)
    && (if x = 0 then decide (25000 ≤ khz) && decide (khz ≤ 1080000)
        else decide (10000 ≤ khz) && decide (khz ≤ 750000) && (lanes == 1 || lanes == 2 || lanes == 4)
          && decide (80 ≤ rate) && decide (rate ≤ 4500) && decide (khz * 24 ≤ lanes * rate * 1000))
    && decide (outVTotal l ≤ bitsOf (l.getD 4 0) 0 13) && bitsOf (l.getD 8 0) 0 24 != 0

/-- The source of an output may be shown (R417): its frame lies in the store, or its canvas is enabled. -/
def Dev.outSourceOk (d : Dev) (l : List Nat) : Bool :=
  let (w, h) := outSource l
  if outFollow l then d.bitOf RAS_CTL.EN (outCanvas l)
  else outFb l % 4096 == 0 && decide (outFb l + tileCols w * 128 * h ≤ rasterSize)

/-- The first check of R417 that fails, as RESULT; 1 when all hold. -/
def Dev.commitCheck (d : Dev) (named : List Nat) : Nat :=
  let l := fun (x : Nat) => if x ∈ named then d.shadow x else (d.ras.out.get x).act
  let clone := d.flag DPY_CTL.EN 0 && d.flag DPY_CTL.EN 1 && outFollow (l 0) == outFollow (l 1)
    && (if outFollow (l 0) then outCanvas (l 0) == outCanvas (l 1) else outFb (l 0) == outFb (l 1))
    && outSource (l 0) != outSource (l 1)
  if named.any fun x => (d.ras.out.get x).commit.isSome then 3
  else if named.any fun x => ! outRange x (l x) then 4
  else if 0 ∈ named ∧ ! d.linkCarries (outPclk (l 0)) then 7
  else if named.any fun x => ! d.outSourceOk (l x) then 4
  else if clone then 6
  else if named.any fun x => outFollow (l x)
      && outSource (l x) != (d.get RAS_CV_SIZE.W (outCanvas (l x)), d.get RAS_CV_SIZE.H (outCanvas (l x))) then 5
  else 1

/-- A write of DPY_COMMIT that names outputs. -/
def Dev.dpyCommit (d : Dev) (named : List Nat) : Dev :=
  let r := d.commitCheck named
  named.foldl (fun d x =>
    if r ≠ 1 then ((d.put DPY_STAT.RESULT r x).count DPY_CNT_REFUSED.COUNT x).raise (598 + 6 * x)
    else if d.flag DPY_CTL.EN x then
      (d.put DPY_STAT.RESULT 1 x).updOut x fun o => { o with commit := some (d.now, d.shadow x) }
    else (d.put DPY_STAT.RESULT 2 x).updOut x fun o => { o with act := d.shadow x, next := none }) d

def Dev.dpyCommitAEff (d : Dev) : Dev := d.dpyCommit [0]
def Dev.dpyCommitBEff (d : Dev) : Dev := d.dpyCommit [1]

/-- The output runs: it is enabled, and its domain and the raster engine's are on (R40, R423). -/
def Dev.outRuns (d : Dev) (x : Nat) : Bool := d.flag DPY_CTL.EN x && d.pdOn 84 && d.pdOn (85 + x)

/-- An output that begins to run starts at its first line. -/
def Dev.outStart (d : Dev) (x : Nat) : Dev :=
  d.updOut x fun o => { o with lineAt := d.now, line := 0, total := outVTotal o.act, porch := none, seen := none
                               repeated := 0, aborted := false, teAt := d.now, stopped := false }

/-- Domains have come on: the outputs that wait for them start. -/
def Dev.outsShow (d before : Dev) : Dev :=
  (List.range 2).foldl (fun d x => if ! before.outRuns x && d.outRuns x then d.outStart x else d) d

/-- A write of DPY_CTL (R422): EN set starts the output once its domains are on; EN cleared discards a pending commit. -/
def Dev.dpyCtlWritten (d before : Dev) (x : Nat) : Dev :=
  let on := d.flag DPY_CTL.EN x
  if on = before.flag DPY_CTL.EN x then d
  else if on then d.outsShow before
  else
    let had := (d.ras.out.get x).commit.isSome
    let d := (d.testEnd 5 x 7).updOut x fun o => { act := o.next.getD o.act, training := o.training }
    if had then d.put DPY_STAT.RESULT 0 x else d

/-! ### Lines and latch points (R414, R415, R418) -/

/-- Command mode (R418): DB only. -/
def Dev.cmdMode (d : Dev) (x : Nat) : Bool := x == 1 && d.flag DPY_CTL.CMD x

/-- Frames that `n` lines take, at 80,000,000 / PCLK ticks a pixel. -/
def lineFrames (l : List Nat) (n : Nat) : Nat :=
  (n * outHTotal l * 80000000 + 64 * max 1 (outPclk l) - 1) / (64 * max 1 (outPclk l))

/-- The line being sent in the current frame; none (0, log entry 51) while the output sends no line. -/
def Dev.lineNow (d : Dev) (x : Nat) : Nat :=
  let o := d.ras.out.get x
  if ! d.outRuns x || o.stopped then 0
  else
    let n := o.line + (d.now - o.lineAt) * 64 * outPclk o.act / max 1 (80000000 * outHTotal o.act)
    if o.total = 0 then n else n % o.total

/-- VRR of DA acts. -/
def Dev.vrrOn (d : Dev) (x : Nat) : Bool := x == 0 && bitsOf ((d.ras.out.get x).act.getD 4 0) 31 1 == 1

/-- A pending commit has arrived before a latch point `tick` ticks into the current frame: a pixel clock began at or
after the boundary of frame a + 2 and before it (R418). -/
def Dev.commitArrived (d : Dev) (x tick : Nat) : Option (List Nat) :=
  let o := d.ras.out.get x
  match o.commit with
  | some (a, l) =>
    let khz := max 1 (outPclk o.act)
    if (a + 2) * 64 * khz + 80000000 ≤ (d.now * 64 + tick) * khz then some l else none
  | none => none

/-- The pixel (x, y) of its source that an output fetches as its pixel (u, v) (R416). -/
def fetchOf (l : List Nat) (u v : Nat) : Nat × Nat :=
  let w := (outSource l).1
  let h := (outSource l).2
  let u := if outMirror l then outHAct l - 1 - u else u
  match outRot l with
  | 0 => (u, v)
  | 1 => (v, h - 1 - u)
  | 2 => (w - 1 - u, h - 1 - v)
  | _ => (w - 1 - v, u)

/-- Pixel (u, v) of the frame that output `x` sends, with R, G and B in [23:16], [15:8] and [7:0] (R405, R415, R416): from its
frame in the store, or from the buffer that it sampled; 0 while the canvas that it follows is disabled (R422). -/
def Dev.outPixel (d : Dev) (x u v : Nat) : Nat :=
  let o := d.ras.out.get x
  let l := o.act
  let p := fetchOf l u v
  let c := outCanvas l
  let base := if outFollow l then (d.ras.canvas.get c).cfg.getD (2 + o.shown) 0 else outFb l
  if outFollow l && ! d.bitOf RAS_CTL.EN c then 0
  else leNat (d.ras.mem.bytes (base + pixelOfs (outSource l).1 (outSource l).2 4 p.1 p.2) 3)

/-- The test CRC of one component of the frame that output `x` has sent, `8 s` bits up in its pixels (R469). -/
def Dev.outCrc (d : Dev) (x s : Nat) : Nat :=
  let l := (d.ras.out.get x).act
  (Config.testCrc ((List.range (outVAct l)).flatMap fun v =>
    (List.range (outHAct l)).map fun u => BitVec.ofNat 8 (d.outPixel x u v / 2 ^ (8 * s)))).toNat

/-- The CRCs of a frame that output `x` has sent, for the session that holds it (R469). With the generator in place of the source,
or with pixels repeated, the spec does not state the frame: the CRCs are free values (log entry 51). -/
def Dev.crcShow (d : Dev) (x : Nat) : Dev :=
  let o := d.ras.out.get x
  (List.range 8).foldl (fun d s =>
    if d.flag TST_CTL.EN s && d.get TST_CTL.IF s == 5 && d.get TST_CTL.UNIT s == x then
      if d.get TST_CTL.DEPTH s = 0 ∧ o.repeated = 0 then
        ((d.put TST_CRC.R (d.outCrc x 2) s).put TST_CRC.G (d.outCrc x 1) s).put TST_CRC.B (d.outCrc x 0) s
      else ((d.putFree TST_CRC.R s).putFree TST_CRC.G s).putFree TST_CRC.B s
    else d) d

/-- The latched values change DPY_PCLK, HACT or VACT (R418). -/
def timingChanges (old new : List Nat) : Bool :=
  outPclk old != outPclk new || outHAct old != outHAct new || outVAct old != outVAct new

/-- The output passes its latch point in video mode. A commit that changes the timing stops DA's main stream here. -/
def Dev.vblankEff (x tick : Nat) (d : Dev) : Dev :=
  if ! d.outRuns x || d.cmdMode x || (d.ras.out.get x).stopped then d
  else
    let got := d.commitArrived x tick
    let d := ((d.crcShow x).raise (596 + 6 * x)).updOut x fun o =>
      { o with lineAt := d.now, line := outVAct o.act, porch := none, total := 0, repeated := 0, aborted := false }
    match got with
    | some l =>
      ((d.updOut x fun o => { o with commit := none, next := some l, stopped := x == 0 && timingChanges o.act l }).put
        DPY_STAT.RESULT 2 x).raise (597 + 6 * x)
    | none => d

/-- A flip of the canvas that the output will sample is pending. -/
def Dev.flipPending (d : Dev) (x : Nat) : Bool :=
  let o := d.ras.out.get x
  let l := o.next.getD o.act
  outFollow l && o.seen != some (outCanvas l, (d.ras.canvas.get (outCanvas l)).flips)

/-- With Adaptive-Sync, the front porch of DA ends (R414): at the first line that begins now or later while a flip is
pending, or at the last line that VTOTAL_MAX allows. -/
def Dev.vrrPorchEndEff (d : Dev) : Dev :=
  let o := d.ras.out.get 0
  let l := o.act
  if ! d.outRuns 0 || o.stopped || ! d.vrrOn 0 || o.porch.isSome || o.total != 0 then d
  else
    let first := outVAct l + outVfp l - 1
    let last := bitsOf (l.getD 4 0) 0 13 - outVsw l - outVbp l - 1
    let n := d.lineNow 0
    let here := if o.lineAt + lineFrames l (n - o.line) = d.now then n else n + 1
    let p := if d.flipPending 0 then min last (max first here) else last
    let d := d.advanceTo (o.lineAt + lineFrames l (p - o.line))
    d.updOut 0 fun o => { o with porch := some p }

/-- The output samples the front buffer of the canvas that it follows. -/
def Dev.outSample (d : Dev) (x : Nat) : Dev :=
  let l := (d.ras.out.get x).act
  if outFollow l then
    let c := outCanvas l
    d.updOut x fun o => { o with seen := some (c, (d.ras.canvas.get c).flips), shown := (d.bitOf RAS_STAT.FRONT c).toNat }
  else d

/-- The first pixel clock of the last porch line L (R415): latched values act for the frame that follows. A main stream that
stopped starts again with the new timing (R418): the frame of this row stands for its first line (DEDUCED, log entry 51). -/
def Dev.frontBufferSampleEff (x : Nat) (d : Dev) : Dev :=
  let o := d.ras.out.get x
  let l := o.act
  if ! d.outRuns x || d.cmdMode x || o.total != 0 then d
  else if o.stopped then
    (d.updOut x fun o => { o with stopped := false, act := o.next.getD o.act, next := none, lineAt := d.now, line := 0
                                  total := outVTotal (o.next.getD o.act) }).outSample x
  else
    let p := if d.vrrOn x then o.porch else some (outVAct l + outVfp l - 1)
    match p with
    | none => d
    | some p =>
      let d := d.advanceTo (o.lineAt + lineFrames l (p - o.line))
      (d.updOut x fun o => { o with porch := some p, total := p + 1 + outVsw l + outVbp l
                                    act := o.next.getD o.act, next := none }).outSample x

/-! ### Command mode (R420) -/

/-- A source pixel in panel coordinates (R416). -/
def panelOf (l : List Nat) (w h : Nat) (p : Nat × Nat) : Nat × Nat :=
  let (x, y) := p
  let (u, v) := match outRot l with
    | 0 => (x, y)
    | 1 => (h - 1 - y, x)
    | 2 => (w - 1 - x, h - 1 - y)
    | _ => (y, w - 1 - x)
  (if outMirror l then outHAct l - 1 - u else u, v)

/-- The box of two points: left, top, right, bottom. -/
def boxOf (a b : Nat × Nat) : Nat × Nat × Nat × Nat := (min a.1 b.1, min a.2 b.2, max a.1 b.1, max a.2 b.2)

/-- The box around two boxes. -/
def boxJoin (a b : Nat × Nat × Nat × Nat) : Nat × Nat × Nat × Nat :=
  (min a.1 b.1, min a.2.1 b.2.1, max a.2.2.1 b.2.2.1, max a.2.2.2 b.2.2.2)

/-- The box on the panel around changed tiles of a source of `w` by `h`. -/
def tileBox (l : List Nat) (w h : Nat) (tiles : List Nat) : Option (Nat × Nat × Nat × Nat) :=
  tiles.foldl (fun b t =>
    let x := 32 * (t % tileCols w)
    let y := 32 * (t / tileCols w)
    let n := boxOf (panelOf l w h (x, y)) (panelOf l w h (min (w - 1) (x + 31), min (h - 1) (y + 31)))
    some (match b with
      | some b => boxJoin b n
      | none => n)) none

/-- What DB has to push: the whole frame, the changed region, and what an aborted push left. -/
def Dev.pushBox (d : Dev) (x : Nat) : Option (Nat × Nat × Nat × Nat) :=
  let o := d.ras.out.get x
  let l := o.act
  let (w, h) := outSource l
  let whole := some (0, 0, outHAct l - 1, outVAct l - 1)
  let fresh := if o.whole then whole
    else if ! outFollow l then none
    else if (o.seen.map Prod.fst) != some (outCanvas l) then whole
    else if d.flipPending x then tileBox l w h o.dirty else none
  match fresh, (if o.repush then o.pushed else none) with
  | some a, some b => some (boxJoin a b)
  | some a, none => some a
  | none, b => b

/-- DB samples and pushes what is due. -/
def Dev.push (d : Dev) (x : Nat) : Dev :=
  match d.pushBox x with
  | some b => (d.outSample x).updOut x fun o =>
      { o with pushed := some b, dirty := [], whole := false, repush := false, repeated := 0, aborted := false }
  | none => d.outSample x

/-- A rising TE edge `tick` ticks into the current frame. -/
def Dev.teEdgeEff (tick : Nat) (d : Dev) : Dev :=
  if ! d.outRuns 1 || ! d.cmdMode 1 then d
  else
    let d := match d.commitArrived 1 tick with
      | some l => ((d.updOut 1 fun o => { o with commit := none, act := l, whole := ! outFollow l }).put
          DPY_STAT.RESULT 2 1).raise 603
      | none => d
    ((d.push 1).updOut 1 fun o => { o with teAt := d.now }).raise 602

/-- A push is due and no TE edge arrives within DPY_TE_TO milliseconds. -/
def Dev.teMissEff (d : Dev) : Dev :=
  if ! d.outRuns 1 || ! d.cmdMode 1 || (d.pushBox 1).isNone then d
  else
    let o := d.ras.out.get 1
    let d := d.advanceTo (max o.teAt o.dueAt + max 1 (d.get DPY_TE_TO.MS 1) * 1250000)
    ((d.push 1).count DPY_CNT_TEMISS.COUNT 1).raise 607

/-! ### Repairs and underruns (R421) -/

/-- A row repair stalls the store for up to 2 µs, a free value; the passes under way wait (R421, R422). -/
def Dev.repairEff (d : Dev) : Dev :=
  let stall := d.freeVal.toNat % 2501
  let d := (List.range 2).foldl (fun d c =>
    if d.bitOf RAS_STAT.BUSY c then d.updCanvas c fun v => { v with start := v.start + stall } else d) d.drawn
  (d.count RAS_CNT_REPAIR.COUNT).raise 594

/-- The fetch buffer of an output runs dry for `n` pixels. -/
def Dev.fetchUnderrunEff (x n : Nat) (d : Dev) : Dev :=
  let o := d.ras.out.get x
  if ! d.outRuns x || o.aborted || n == 0 then d
  else
    let lim := bitsOf (o.act.getD 8 0) 0 24
    let c := min n (lim + 1 - o.repeated)
    let d := d.count DPY_CNT_UNDER.COUNT x 0 c
    let d := if o.repeated = 0 then d.raise (599 + 6 * x) else d
    let d := d.updOut x fun o => { o with repeated := o.repeated + c }
    if lim < o.repeated + c then
      ((d.updOut x fun o => { o with aborted := true, repush := d.cmdMode x, dueAt := d.now }).count
        DPY_CNT_ABORT.COUNT x).raise (600 + 6 * x)
    else d

/-! ### DA's link (R413, R424) -/

/-- A hot-plug change on DA: the housekeeping controller runs link training. -/
def Dev.daHotPlugEff (d : Dev) : Dev := (d.updOut 0 fun o => { o with training := true }).raise 601

/-- Training ends at a rate and lane count, or the link is lost. -/
def Dev.daLinkTrainedEff (trained : Option (Nat × Nat)) (d : Dev) : Dev :=
  let d := (d.updOut 0 fun o => { o with training := false }).raise 601
  match trained with
  | some (rate, lanes) => ((d.put DPY_LINK.RATE rate 0).put DPY_LINK.LANES (2 ^ lanes) 0).putb DPY_LINK.UP true 0
  | none => ((d.put DPY_LINK.RATE 0 0).put DPY_LINK.LANES 0 0).putb DPY_LINK.UP false 0

end Sys2Proof.Machine
end

