-- ==== Sys2Proof/Machine/BusView.lean ====
section
/-!
DEFINITION. Reads of BAR0 (00_scope.md R14, R18; 01_engine_at_a_glance.md R36, R38; 04_time_base.md R110): what a register
shows, snapshots, and RC fields. A register that shows a state held elsewhere is computed here, at the read. The writes of
a frame apply at its end (Frame.lean), so a read returns what the writes of earlier frames left (R38).
-/
namespace Sys2Proof.Machine

/-! ### Registers that show state (R143, R168, R191, R215, R236, R258, R323, R425) -/

/-- TRG_STAT.PHASE (R143): 0 disarmed, 1 filling, 2 ready, 3 busy, at the sample frame that is decided now (DEDUCED, log
entry 32). -/
def Dev.trgPhase (d : Dev) (u : Nat) : Nat :=
  let f := d.now - 214
  if ! d.flag TRG_STAT.ARMED u then 0
  else if ((d.trg.get u).busyEnd.map fun e => decide (f ≤ e)) == some true then 3
  else if f < d.fillOrigin u + d.preEff u then 1 else 2

/-- REC_SKN_FREE (R168). -/
def Dev.skeinFree (d : Dev) (k : Nat) : Nat :=
  let s := d.lanes.skein.get k
  let lane := d.boundLane k
  let e := match lane, s.held.head? with
    | some l, _ => d.laneE l
    | none, some h => h.span
    | none, none => s.size
  match s.policy with
  | 0 => e - d.get REC_SKN_CP.BYTES k
  | 1 => e
  | _ =>
    let placed := match lane with
      | some l =>
        let x := d.lanes.lane.get l
        match x.seg, x.win with
        | none, some w => if w.waiting then 0 else w.w * d.granuleSize l
        | _, _ => 0
      | none => 0
    e - (s.heldBytes + placed)

/-- The claim set of an open context is held in NDL_CLAIM0 and NDL_CLAIM1; NDL_STAT shows the rest (R258). -/
def Dev.ndlStat (d : Dev) (n : Nat) : Nat :=
  let x := d.ndl.needle.get n
  x.calls.length * 2 ^ 20 + x.loops.length * 2 ^ 16 + x.ctx.toNat * 2 ^ 15 + (d.replPending n).toNat * 2 ^ 14 + x.w * 2 ^ 11
    + x.z.toNat * 2 ^ 10 + x.n.toNat * 2 ^ 9 + x.c.toNat * 2 ^ 8 + x.v.toNat * 2 ^ 7 + x.stateIn d.now

/-- The live words of TB_NOW: the TIME128 of this frame's boundary, with the SEQ of the next read of TB_NOW0 (R110). -/
def Dev.tbNow (d : Dev) : BitVec 128 := d.stamp d.tb.nowSeq d.now 0

/-- What a register shows. -/
def Dev.view (d : Dev) (r : Reg) : W64 :=
  let v := d.rd r
  let nat := fun (x : Nat) => BitVec.ofNat 64 x
  match r.g with
  | .CV_SSTAT => if d.sliceOn r.i then v else v &&& ~~~ CV_SSTAT.READY.mask
  | .TB_NOW => (d.tbNow >>> (32 * r.i)).setWidth 64 &&& 0xFFFFFFFF
  | .TB_PHASE_ERR => BitVec.ofInt 64 (d.phaseErrAt d.now)
  | .TRG_STAT => v ||| nat (d.trgPhase r.i * 4 + (d.trg.get r.i).delay.toNat * 2 ^ 12)
  | .TRG_PRE_EFF => nat (d.preEff r.i % 2 ^ 32)
  | .REC_LSTAT =>
    let x := d.lanes.lane.get r.i
    let wait := match x.win with
      | some w => w.waiting
      | none => false
    let active := x.cur.isSome && (x.win.isSome || x.seg.isSome)
    v ||| nat (x.queue.length * 2 ^ 8 + x.seg.isSome.toNat * 8 + active.toNat * 4 + wait.toNat * 2 + (d.laneReady r.i).toNat)
  | .REC_SKN_FREE => nat (d.skeinFree r.i)
  | .REC_RB_STAT => nat (d.rbUsed % 2 ^ 17)
  | .DEC_STAT => v ||| nat (d.decReady r.i).toNat
  | .STM_USTAT => v ||| nat ((d.stmReady r.i).toNat * 8)
  | .DEC_SETTLE_FR => if (d.dec.unit.get r.i).shown then nat (d.settleFr r.i % 2 ^ 32) else 0
  | .TAL_JSTAT =>
    (if d.talHalving r.i then TAL_JSTAT.STATE.set v 5 else v) ||| nat ((! (d.tal.job.get r.i).recs.isEmpty).toNat * 8)
  | .NDL_G_STAT =>
    nat (((List.range 16).map fun n =>
      let x := d.ndl.needle.get n
      x.ctx.toNat * 2 ^ (16 + n) + (x.activeIn d.now).toNat * 2 ^ n).sum)
  | .NDL_STAT => nat (d.ndlStat r.i)
  | .NDL_PC => nat (d.ndl.needle.get r.i).pc
  | .BEN_STAGE_USED => nat (d.poolUsed / 1024)
  | .BEN_QRY_STAT =>
    match d.ben.freqStart with
    | some f =>
      let v := if f + 1564 ≤ d.now then (v &&& ~~~ BEN_QRY_STAT.PROFILE.mask) ||| nat (d.ben.freqTarget % 4 * 2 ^ 8) else v
      if f + 64 ≤ d.now ∧ d.now < f + 2189 then v ||| BEN_QRY_STAT.SELF_REFRESH.mask else v
    | none => v
  | .EVI_GSTAT => v ||| nat (((List.range 8).map fun g => (d.groupReadyIn g d.now).toNat * 2 ^ g).sum)
  | .DPY_LINK => if r.i = 1 then v ||| nat (d.outRuns 1).toNat else v
  | .DPY_STAT => v ||| nat (d.lineNow r.i % 2 ^ 13)
  | _ => v

/-! ### Snapshots (R18, R110) -/

/-- Requester `rq` gets a snapshot of a word; it replaces an unused one. -/
def Dev.snap (d : Dev) (rq : Rq) (r : Reg) (v : W32) : Dev :=
  d.setBus { d.bus with snaps := ((rq, r), v) :: d.bus.snaps.filter fun x => x.1 != (rq, r) }

/-- The snapshot of a word, which is used up; or else the live word. -/
def Dev.snapRead (d : Dev) (rq : Rq) (r : Reg) (live : W32) : W32 × Dev :=
  match d.bus.snaps.find? fun x => x.1 == (rq, r) with
  | some x => (x.2, (d.setBus { d.bus with snaps := d.bus.snaps.filter fun x => x.1 != (rq, r) }))
  | none => (live, d)

/-- Word `w` of the group of four words that hold a TIME128 (R110). -/
def Reg.timeWord (r : Reg) (w : Nat) : Option Reg :=
  match r.g with
  | .TB_NOW | .TB_PPS_CAP | .DEC_SYNC_TIME => some { r with i := w }
  | .TRG_LAST | .TRG_OVR_FIRST | .DEC_T0 | .TAL_FAIL_TIME => some { r with j := w }
  | _ => none

/-- A read of a word of a TIME128 group: word 0 captures the others. -/
def Dev.timeRead (d : Dev) (rq : Rq) (r : Reg) : W32 × Dev :=
  let v := (d.view r).setWidth 32
  if r.timeWord 0 = some r then
    let d' := [1, 2, 3].foldl (fun e w => match r.timeWord w with
      | some x => e.snap rq x ((d.view x).setWidth 32)
      | none => e) d
    (v, if r.g = .TB_NOW then (d'.setTb { d'.tb with nowSeq := d'.tb.nowSeq + 1 }) else d')
  else d.snapRead rq r v

/-- The RC fields that a read clears (R14). -/
def Dev.rcClear (d : Dev) (r : Reg) : Dev :=
  let m := r.g.fam.bits (· == .rc)
  if m = 0 then d else d.wr r (d.rd r &&& ~~~ m)

/-- What the hardware counts in the clock of the clear stays for the next read (R14). -/
def Dev.rcKeep (d : Dev) (r : Reg) (inc : W64) : Dev := d.wr r (d.rd r ||| (inc &&& r.g.fam.bits (· == .rc)))

/-! ### Accesses -/

/-- A 4-byte read of what an offset reaches; `none` at an unmapped one. -/
def Dev.read32 (d : Dev) (rq : Rq) (addr : Nat) : Option (W32 × Dev) :=
  match d.place addr with
  | .reg r =>
    let d := d.eviSettle r
    if (r.timeWord 0).isSome then some (d.timeRead rq r)
    else
      let v := d.view r
      if r.g.fam.wide then some (v.setWidth 32, d.snap rq r ((v >>> 32).setWidth 32))
      else some (v.setWidth 32, d.rcClear r)
  | .high r => some (d.snapRead rq r ((d.view r >>> 32).setWidth 32))
  | .table n off => some (BitVec.ofNat 32 (d.tabRead n off), d)
  | .needle ofs => some ((d.needleWindowRead ofs 4).setWidth 32, d)
  | .rom v => some (v, d)
  | .none => none

/-- An access to an unmapped offset counts (R36). -/
def Dev.countUnmapped (d : Dev) : Dev := d.count GLB_ACC_ERR.UNMAPPED

/-- The requester's accesses come over the host link, or stand for such accesses. -/
def hostLike : Rq → Bool
  | .host | .cmdq _ | .xfer _ => true
  | _ => false

/-- A 4-byte read; an unmapped one returns zeros and counts (R36). What a housekeeping access to an unmapped field does, chapter
10 does not say, which defines the faults of needles alone: it reads 0, without a count (DESIGN CHOICE, log entry 68). -/
def Dev.readOr0 (d : Dev) (rq : Rq) (addr : Nat) : W32 × Dev :=
  (d.read32 rq addr).getD (0, if hostLike rq then d.countUnmapped else d)

/-- An 8-byte read (R36): of a 64-bit register or a word of a needle window at once, else two 4-byte reads in ascending
order. The requester's unused snapshot of the register stays as it is: R18 and R36 do not say whether such a read uses it up
or replaces it (DESIGN CHOICE, log entry 68). -/
def Dev.read64 (d : Dev) (rq : Rq) (addr : Nat) : W64 × Dev :=
  match d.place addr with
  | .needle ofs => (d.needleWindowRead ofs 8, d)
  | p =>
    let wide := match p with
      | .reg r => r.g.fam.wide
      | _ => false
    match p, wide with
    | .reg r, true => let d := d.eviSettle r; (d.view r, d)
    | _, _ =>
      let (lo, d) := d.readOr0 rq addr
      let (hi, d) := d.readOr0 rq (addr + 4)
      ((hi ++ lo).setWidth 64, d)

/-! ### What the host's accesses reach (R36, R431, R438) -/

/-- An offset in GLB or HK. -/
def inGlbHk (addr : Nat) : Bool := decide (addr < 0x200000)

/-- How BAR0 answers the host: 0 not at all, 1 in full, 2 in STANDBY, 3 without firmware. -/
def Dev.hostMode (d : Dev) : Nat :=
  if ! d.pwr.aon || ! d.pwr.mainEn || d.pwr.waitPg || d.get HK_PWR_STAT.STATE == 2 then 0
  else if d.pwr.noFw then 3
  else if d.get HK_PWR_STAT.STATE == 1 then 2 else 1

/-- A host access to an offset that is mapped only in another mode of the module counts as unmapped, and in STANDBY in
HK_CNT_SLEEPACC too; `n` 4-byte halves. -/
def Dev.countAsleep (d : Dev) (n : Nat) : Dev :=
  let d := d.count GLB_ACC_ERR.UNMAPPED 0 0 n
  if d.hostMode = 2 then d.count HK_CNT_SLEEPACC.COUNT else d

/-- A read by the host of 4 or 8 bytes, naturally aligned. -/
def Dev.hostRead (d : Dev) (rq : Rq) (addr size : Nat) : W64 × Dev :=
  let go := if size = 8 then d.read64 rq addr
    else
      let (v, d) := d.readOr0 rq addr
      (v.setWidth 64, d)
  match d.hostMode with
  | 0 => (0, d)
  | 1 => go
  | _ => if inGlbHk addr then go else (0, d.countAsleep (size / 4))

/-- The value of the last read completion. -/
def Dev.answer (x : W64 × Dev) : Dev := x.2.setBus { x.2.bus with rdata := x.1 }

/-- A read by a requester, whose value is its completion. -/
def Dev.readEff (rq : Rq) (addr size : Nat) (d : Dev) : Dev :=
  Dev.answer (if hostLike rq then d.hostRead rq addr size
    else if size = 8 then d.read64 rq addr
    else ((d.readOr0 rq addr).1.setWidth 64, (d.readOr0 rq addr).2))

/-! ### The rows of reads: each acts where its offset is of its kind -/

/-- The offset is the low half of a 64-bit register. -/
def Dev.isLow (d : Dev) (addr : Nat) : Bool := match d.place addr with
  | .reg r => r.g.fam.wide
  | _ => false

/-- The offset is the high half of a 64-bit register. -/
def Dev.isHigh (d : Dev) (addr : Nat) : Bool := match d.place addr with
  | .high _ => true
  | _ => false

def Dev.lowHalfReadEff (rq : Rq) (addr : Nat) (d : Dev) : Dev := if d.isLow addr then d.readEff rq addr 4 else d
def Dev.highHalfReadEff (rq : Rq) (addr : Nat) (d : Dev) : Dev := if d.isHigh addr then d.readEff rq addr 4 else d

/-- A read of a register with an RC field; `inc` holds, in the places of its fields, what the hardware counts in the same
clock. -/
def Dev.rcReadEff (rq : Rq) (addr : Nat) (inc : W64) (d : Dev) : Dev :=
  match d.place addr with
  | .reg r =>
    if r.g.fam.bits (· == .rc) = 0 then d
    else
      let open_ := if hostLike rq then d.hostMode == 1 || (decide (2 ≤ d.hostMode) && inGlbHk addr) else true
      if open_ then (d.readEff rq addr 4).rcKeep r inc else d.readEff rq addr 4
  | _ => d
def Dev.tbNow0ReadEff (rq : Rq) (d : Dev) : Dev := d.readEff rq 0x200010 4

/-- A read of an upper word of a TIME128 group. -/
def Dev.snapshotWordReadEff (rq : Rq) (addr : Nat) (d : Dev) : Dev :=
  match d.place addr with
  | .reg r => if (r.timeWord 0).isSome && r.timeWord 0 != some r then d.readEff rq addr 4 else d
  | _ => d

/-- A host access of an unaccepted size or alignment (R36). -/
def Dev.badsizeEff (write : Bool) (addr size : Nat) (d : Dev) : Dev :=
  if d.hostMode = 0 ∨ ((size = 4 ∨ size = 8) ∧ addr % size = 0) then d
  else
    let d := d.count GLB_ACC_ERR.BADSIZE
    if write then d else Dev.answer (0, d)

end Sys2Proof.Machine
end

