-- ==== Sys2Proof/Machine/Stimulus.lean ====
section
/-!
DEFINITION. Stimulus units (12_stimulus_synthesiser.md R280-R297): tones and codes, segments and the play queue, prefetch
and lost granules.
-/
namespace Sys2Proof.Machine

/-- Change stimulus unit `u`. -/
def Dev.updStm (d : Dev) (u : Nat) (f : Stim → Stim) : Dev := d.setStm (d.stm.upd u f)

/-! ### Codes (R281) -/

/-- 8191 sin(2π i / 16384) for i up to a quarter turn, rounded. -/
def sineQuarter (i : Nat) : Int :=
  let x := piFix * i / 8192
  (8191 * 2 * sineTerms (x * x / 2 ^ 128) 30 0 x + 2 ^ 128) / 2 ^ 129

/-- SINT[i] (R281). -/
def sint (i : Nat) : Int :=
  let j := i % 8192
  let v := sineQuarter (if j ≤ 4096 then j else 8192 - j)
  if i % 16384 < 8192 then v else 0 - v

/-- What tone `t` adds at phase accumulator `acc`. -/
def Tone.value (t : Tone) (acc : Nat) : Int :=
  roundAway (t.amp * sint ((acc / 2 ^ 16 + t.ph) % 2 ^ 32 / 2 ^ 18)) 65536

/-- The accumulators a DAC sample later. -/
def stmStep (ts : List Tone) (acc : List Nat) : List Nat :=
  (ts.zip acc).map fun (t, a) => (a + t.ftw) % 2 ^ 48

/-- The codes of `n` DAC samples before saturation, and the accumulators after them. -/
def stmCodes (ts : List Tone) : Nat → List Nat → List Int × List Nat
  | 0, acc => ([], acc)
  | n + 1, acc =>
    let c := ((ts.zip acc).map fun (t, a) => t.value a).sum
    let (l, acc') := stmCodes ts n (stmStep ts acc)
    (c :: l, acc')

/-! ### Records (R283) -/

/-- Entry `k` of a record: KEEP, PSET and the tone. -/
def recordEntry (r : List Byte) (k : Nat) : Bool × Bool × Tone :=
  let v := leNat ((r.drop (16 * k)).take 16)
  (v / 2 ^ 96 % 2 == 1, v / 2 ^ 97 % 2 == 1, ⟨v % 2 ^ 48, v / 2 ^ 48 % 2 ^ 32, v / 2 ^ 80 % 2 ^ 16⟩)

/-- A granule takes its record's parameters (R281). -/
def Stim.take (x : Stim) (r : List Byte) : Stim :=
  (List.range 4).foldl (fun x k =>
    let (keep, pset, t) := recordEntry r k
    let x := if keep then x else { x with tones := x.tones.set k t }
    if pset then { x with acc := x.acc.set k 0 } else x) x

/-! ### Views -/

/-- Records held in the prefetch buffer. -/
def Stim.records (x : Stim) : Nat :=
  ((x.playing.toList ++ x.chosen.toList ++ x.jumps.map Prod.snd ++ x.queue).map fun s => s.held.length).sum

/-- STM_USTAT.QDEPTH and STM_PF_STAT. -/
def Dev.stmShow (d : Dev) (u : Nat) : Dev :=
  let x := d.stm.get u
  (d.put STM_USTAT.QDEPTH (x.queue.length + x.chosen.toList.length) u).put STM_PF_STAT.RECORDS x.records u

/-- Segments end cancelled (R294). -/
def Dev.stmCancel (d : Dev) (u n : Nat) : Dev := d.count STM_CNT_CANCEL.COUNT u 0 n

/-- Every segment but the playing one is cancelled. -/
def Dev.stmCancelQueue (d : Dev) (u : Nat) : Dev :=
  let x := d.stm.get u
  ((d.stmCancel u (x.queue.length + x.chosen.toList.length + x.jumps.length)).updStm u fun x =>
    { x with queue := [], chosen := none, jumps := [], startAt := none, startTick := none }).stmShow u

/-- Every segment is cancelled, the playing one too. -/
def Dev.stmCancelAll (d : Dev) (u : Nat) : Dev :=
  let n := (d.stm.get u).playing.toList.length
  ((d.stmCancel u n).updStm u fun x => { x with playing := none }).stmCancelQueue u

/-! ### Enable, static tones, CLEAR (R284, R285, R291, R295) -/

/-- The static tones after changes. -/
def staticTones (l : List Tone) (cs : List (Nat × Tone × Nat)) : List Tone := cs.foldl (fun l c => l.set c.1 c.2.1) l

/-- The unit enters STATIC: every static tone that was kept takes effect (R284). -/
def Stim.enterStatic (x : Stim) : Stim := { x with statics := staticTones x.statics x.changes, changes := [] }

/-- A set of STM_UCTL.EN; during a swatch of the slice it is dropped and counted (R87). -/
def Dev.stimEnableEff (u : Nat) (d : Dev) : Dev :=
  if d.flag STM_UCTL.EN u then d
  else if (d.slice.get u).swatch.isSome then d.count CV_SWATCH_STAT.DROPS u
  else
    let d := (d.putb STM_UCTL.EN true u).put STM_USTAT.STATE 1 u
    d.updStm u fun x => { x.enterStatic with acc := [0, 0, 0, 0], last := none, lost := false, lostTo := 0, clear := false }

/-- A clear of STM_UCTL.EN (R295). -/
def Dev.stimDisableEff (u : Nat) (d : Dev) : Dev :=
  if d.flag STM_UCTL.EN u then
    ((d.stmCancelAll u).putb STM_UCTL.EN false u |>.put STM_USTAT.STATE 0 u)
  else d

/-- A write of STM_UCTL.CLEAR (R291). -/
def Dev.stimClearEff (u : Nat) (d : Dev) : Dev :=
  if d.get STM_USTAT.STATE u = 3 then d.updStm u fun x => { x with clear := true } else d

/-- A static tone is written (R284): all of tone `k` as the registers now hold it. -/
def Dev.toneChange (d : Dev) (u k : Nat) : Dev :=
  let t : Tone := ⟨d.get STM_TFREQ.FTW u k, d.get STM_TPA.PH u k, d.get STM_TPA.A u k⟩
  d.updStm u fun x => { x with changes := x.changes ++ [(k, t, d.now)] }

/-- A write of a static tone register. -/
def Dev.staticToneWriteEff (u k : Nat) (tpa : Bool) (v : W64) (d : Dev) : Dev :=
  (d.wr ⟨if tpa then .STM_TPA else .STM_TFREQ, u, k, 0⟩ v).toneChange u k

/-- TONE writes all three of a tone at once (R277). -/
def Dev.toneWrite (d : Dev) (u k : Nat) (freq tpa : W64) : Dev :=
  ((d.wr ⟨.STM_TFREQ, u, k, 0⟩ freq).wr ⟨.STM_TPA, u, k, 0⟩ tpa).toneChange u k

/-! ### Submissions (R286-R288) -/

/-- The first frame from `k` on whose boundary has a count that is a multiple of 2,048, in stretches of the count in the order of
their frames. -/
def granuleIn (k : Nat) : List Epoch → Option Nat
  | [] => none
  | e :: t =>
    let a := max k e.frame
    let f := a + ((2048 - (e.val + 64 * (a - e.frame)) % 2048) % 2048 + 63) / 64
    let inside : Bool := match t with
      | n :: _ => decide (f < n.frame)
      | [] => true
    if inside then some f else granuleIn k t

/-- The granule boundary at or after the boundary of frame `k` (R280). -/
def Dev.granuleFrom (d : Dev) (k : Nat) : Nat := (granuleIn k d.tb.epochs.reverse).getD k

/-- The first check of R286 that fails; 1 is ACCEPTED. -/
def Dev.playCheck (d : Dev) (u ofs len kind : Nat) : Nat :=
  if ! d.stmReady u then 2
  else if d.get STM_USTAT.STATE u = 3 then 6
  else if 2 ≤ kind then 7
  else if ofs % 64 ≠ 0 then 5
  else if len < 4 ∨ benchSize < ofs + 64 * len then 4
  else if kind = 0 ∧ 64 ≤ d.get STM_USTAT.QDEPTH u then 3
  else 1

/-- A STATIC unit is given the start of the head of its queue (R287): with START_MODE 1 at the count that the register names;
granules before the boundary of frame a + 128 are then lost. -/
def Dev.playStart (d : Dev) (u : Nat) : Dev :=
  if d.flag STM_UCTL.START_MODE u then
    let c := d.countAt d.now
    let t := (d.get STM_START_TICK.TICK u + 2047) / 2048 * 2048
    let ahead := (t + 2 ^ 64 - c % 2 ^ 64) % 2 ^ 64
    let at_ := if ahead < 2 ^ 63 then c + ahead else c + ahead - 2 ^ 64
    d.updStm u fun x => { x with startAt := some 0, startTick := some at_, lostTo := d.now + 128 }
  else d.updStm u fun x => { x with startAt := some (d.granuleFrom (d.now + 128)), startTick := none }

/-- An accepted segment joins the queue; on a STATIC unit with an empty queue it is given its start (R287, R288). An APPEND in
the frame in which a JUMP arrives is queued and then cancelled by the JUMP (R295). -/
def Dev.playAccept (d : Dev) (u kind : Nat) (s : StmSeg) : Dev :=
  let x := d.stm.get u
  if d.get STM_USTAT.STATE u = 1 ∧ x.queue = [] then (d.updStm u fun x => { x with queue := [s] }).playStart u
  else if kind = 0 then
    if x.jumpAt = some d.now then d.stmCancel u 1 else d.updStm u fun x => { x with queue := x.queue ++ [s] }
  else d.updStm u fun x => { x with jumps := x.jumps ++ [(d.now + 128, s)] }

/-- A refused submission is counted and raised (R286). -/
def Dev.playRefused (d : Dev) (u : Nat) : Dev := (d.count STM_CNT_REFUSED.COUNT u).raise (451 + 4 * u)

/-- A write of STM_PLAY_CTL.GO (R286). -/
def Dev.playSubmitEff (u kind : Nat) (d : Dev) : Dev :=
  let d := d.put STM_PLAY_CTL.KIND kind u
  let ofs := d.get STM_PLAY_OFS.OFS u
  let len := d.get STM_PLAY_LEN.LEN u
  let r := d.playCheck u ofs len kind
  let d := d.put STM_PLAY_STAT.RESULT r u
  if r = 1 then (d.playAccept u kind { ofs := ofs, len := len, applied := d.now }).stmShow u else d.playRefused u

/-! ### Granule boundaries (R281, R287-R292) -/

/-- A JUMP reaches the unit's decision: it replaces the queue behind the chosen segment (R288). On a STATIC unit whose queue
has its start still ahead the target takes over that start (DESIGN CHOICE, log entry 65). -/
def Dev.jumpTake (d : Dev) (u : Nat) (k : Nat) (s : StmSeg) : Dev :=
  let x := d.stm.get u
  let d := d.stmCancel u x.queue.length
  let start := if d.get STM_USTAT.STATE u = 1 then some (max k (x.startAt.getD k)) else none
  d.updStm u fun x => { x with queue := [s], startAt := start, jumps := x.jumps.drop 1, jumpAt := some k }

/-- The JUMPs that arrive before frame `k` are taken. -/
def Dev.jumpsBefore (d : Dev) (u k : Nat) : Nat → Dev
  | 0 => d
  | n + 1 =>
    match (d.stm.get u).jumps with
    | (a, s) :: _ => if a < k then (d.jumpTake u a s).jumpsBefore u k n else d
    | [] => d

/-- Granules are lost, the first of them at TICK `tick` (R290). -/
def Dev.stmLost (d : Dev) (u n tick : Nat) : Dev :=
  let x := d.stm.get u
  let d := if x.lost then d
    else
      let d := d.raise (450 + 4 * u)
      if d.get STM_CNT_UNDER.COUNT u = 0 then d.put STM_UNDER_FIRST.TICK tick u else d
  (d.count STM_CNT_UNDER.COUNT u 0 n).updStm u fun x => { x with lost := true }

/-- The first lost granule under HALT_ON_UNDERRUN (R291). -/
def Dev.stmHalt (d : Dev) (u tick : Nat) : Dev :=
  (((d.stmLost u 1 tick).stmCancelAll u).put STM_USTAT.STATE 3 u).updStm u fun x => { x with out := [] }

/-- `n` granules of the playing segment whose boundaries passed without the clock, or were stepped over, are lost, the first of
them at TICK `tick`; the accumulators run on (R290, R292). -/
def Dev.stmMissed (d : Dev) (u n tick : Nat) : Dev :=
  if n = 0 then d
  else if d.flag STM_UCTL.HALT_ON_UNDERRUN u then d.stmHalt u tick
  else (d.stmLost u n tick).updStm u fun x =>
    { x with granule := x.granule + n, acc := (x.tones.zip x.acc).map fun (t, a) => (a + 256 * n * t.ftw) % 2 ^ 48 }

/-- The choice of the segment that follows is made (R288). -/
def Dev.stmChoose (d : Dev) (u : Nat) : Dev :=
  d.updStm u fun x => if x.chosen.isNone then { x with chosen := x.queue.head?, queue := x.queue.drop 1 } else x

/-- The playing segment has ended at frame `k`: the chosen one follows at once, else the unit is STATIC (R287). -/
def Dev.stmNext (d : Dev) (u k : Nat) : Dev :=
  let d := d.bump STM_CNT_PLAYED.COUNT u
  match (d.stm.get u).chosen with
  | some s => (d.updStm u fun x => { x with playing := some s, chosen := none, granule := 0 }).raise (448 + 4 * u)
  | none =>
    let d := (d.put STM_USTAT.STATE 1 u).updStm u fun x => { x.enterStatic with playing := none, lost := false }
    match (d.stm.get u).queue with
    | [] => d.raise (449 + 4 * u)
    | s :: _ => d.updStm u fun x => { x with startAt := some (max k (s.applied + 128)) }

/-- The last `m` boundaries before the one of frame `k` passed without the clock: their granules are lost, and a segment whose
end is among them gives way to the one that follows, by a decision with the JUMPs that had then arrived (R288, R292). -/
def Dev.stmPass (d : Dev) (u k : Nat) : Nat → Nat → Dev
  | 0, _ => d
  | n + 1, m =>
    let x := d.stm.get u
    match x.playing with
    | none => d
    | some p =>
      let left := p.len - x.granule
      let lost := min m left
      let d := if 0 < left ∧ left ≤ m then (d.jumpsBefore u (k - 32 * (m - left + 1)) x.jumps.length).stmChoose u else d
      let d := d.stmMissed u lost ((d.countAt k + 2 ^ 64 - 2048 * m % 2 ^ 64) % 2 ^ 64)
      if m ≤ left ∨ (d.stm.get u).playing.isNone then d else (d.stmNext u (k - 32 * (m - left))).stmPass u k n (m - left)

/-- Boundaries after a count `b`, up to the boundary of frame `k` but without it. -/
def Dev.granulesSince (d : Dev) (b k : Nat) : Nat := if b < d.countAt k then (d.countAt k - b) / 2048 else 0

/-- A STATIC unit starts the head of its queue at its boundary (R287). -/
def Dev.stmStart (d : Dev) (u k : Nat) : Dev :=
  let x := d.stm.get u
  match x.startAt, x.queue with
  | some f, s :: t =>
    let c := x.startTick.getD (d.countAt (d.granuleFrom (min f k)))
    if d.get STM_USTAT.STATE u = 1 ∧ f ≤ k ∧ c ≤ d.countAt k then
      let d := ((d.put STM_USTAT.STATE 2 u).updStm u fun x =>
        { x with playing := some s, queue := t, startAt := none, startTick := none, granule := 0, lost := false }).raise
          (448 + 4 * u)
      d.stmPass u k (t.length + x.jumps.length + 2) (d.granulesSince c k)
    else d
  | _, _ => d

/-- The playing segment's granule at frame `k`: its record is applied, or the granule is lost; at the start of the last
granule the segment that follows is fixed (R281, R288, R290). -/
def Dev.stmGranule (d : Dev) (u k : Nat) : Dev :=
  let d := match (d.stm.get u).playing with
    | some p => if p.len ≤ (d.stm.get u).granule then d.stmNext u k else d
    | none => d
  let d := d.stmStart u k
  let x := d.stm.get u
  match x.playing with
  | none => d
  | some p =>
    let record := if k < x.lostTo then none else (p.held.find? fun r => r.1 == x.granule).map Prod.snd
    let tick := d.countAt k % 2 ^ 64
    if record.isNone && d.flag STM_UCTL.HALT_ON_UNDERRUN u then d.stmHalt u tick
    else
      let d := match record with
        | some r => d.updStm u fun x => { x.take r with lost := false }
        | none => d.stmLost u 1 tick
      let d := d.updStm u fun y =>
        { y with granule := x.granule + 1, playing := some { p with held := p.held.filter fun r => decide (x.granule < r.1) } }
      if p.len ≤ x.granule + 1 then d.stmChoose u else d

/-- The codes of a granule (R281); units that are OFF or HALTED send code 0 (R285). -/
def Dev.stmOutput (d : Dev) (u : Nat) : Dev :=
  let st := d.get STM_USTAT.STATE u
  if st = 1 ∨ st = 2 then
    let x := d.stm.get u
    let (l, acc) := stmCodes x.tones 256 x.acc
    let d := if l.any fun c => decide (8191 < c) || decide (c < -8192) then d.count STM_CNT_SAT.COUNT u else d
    d.updStm u fun x => { x with acc := acc, out := l.map fun c => max (-8192) (min 8191 c) }
  else d.updStm u fun x => { x with out := [] }

/-- The unit at the granule boundary of frame `k`. -/
def Dev.stmBoundary (d : Dev) (u k : Nat) : Dev :=
  let x := d.stm.get u
  let missed := match x.last with
    | some g => d.granulesSince (d.countAt g) k - 1
    | none => 0
  let d := d.updStm u fun x => { x with last := some k }
  let d := if 0 < missed then d.stmPass u k (x.queue.length + x.jumps.length + 2) missed else d
  let d := d.jumpsBefore u k (d.stm.get u).jumps.length
  let d := if d.get STM_USTAT.STATE u = 3 ∧ (d.stm.get u).clear then
      (d.put STM_USTAT.STATE 1 u).updStm u fun x => { x.enterStatic with clear := false } else d
  let d := d.stmGranule u k
  let d := if d.get STM_USTAT.STATE u = 1 then d.updStm u fun x =>
      let s := staticTones x.statics (x.changes.filter fun c => decide (c.2.2 + 4 ≤ k))
      { x with statics := s, tones := s, changes := x.changes.filter fun c => ! decide (c.2.2 + 4 ≤ k) }
    else d
  (d.stmOutput u).stmShow u

/-- The next granule boundary of unit `u` at which the sample clock runs (R292). -/
def Dev.stmDue (d : Dev) (u : Nat) : Nat :=
  match (d.stm.get u).last with
  | some g => d.granuleFrom (max d.tb.gapTo (g + 1))
  | none => d.granuleFrom (max d.tb.gapTo d.now)

/-- A granule boundary (R281); while the synthesiser is unlocked the DAC receives no clock (R292). -/
def Dev.granuleBoundaryEff (u : Nat) (d : Dev) : Dev :=
  if ! d.tb.locked then d
  else
    let k := d.stmDue u
    let d := d.advanceTo k
    if d.flag STM_UCTL.EN u && ! d.stmReady u then d else d.stmBoundary u k

/-- The next JUMP arrives; a decision point in its own frame comes first (R288). -/
def Dev.jumpArrivalEff (u : Nat) (d : Dev) : Dev :=
  match (d.stm.get u).jumps with
  | [] => d
  | (a, s) :: _ =>
    let d := if d.stmDue u ≤ a then d.granuleBoundaryEff u else d
    if (d.stm.get u).jumps.head? = some (a, s) then ((d.advanceTo a).jumpTake u a s).stmShow u else d

/-! ### Prefetch (R289) -/

/-- The segment reads its next record from the bench; a record whose boundary has passed is discarded. -/
def Dev.segFetch (d : Dev) (s : StmSeg) (passed : Nat) : StmSeg :=
  { s with fetched := s.fetched + 1
           held := if s.fetched < passed then s.held
             else s.held ++ [(s.fetched, d.storeRead 0 (s.ofs + 64 * s.fetched) 64)] }

/-- The first queued segment with records to read reads one. -/
def Dev.queueFetch (d : Dev) : List StmSeg → List StmSeg
  | [] => []
  | s :: t => if s.fetched < s.len then d.segFetch s 0 :: t else s :: d.queueFetch t

/-- A JUMP on its way reads the first four records of its target (R288). -/
def Dev.jumpFetch (d : Dev) : List (Nat × StmSeg) → List (Nat × StmSeg)
  | [] => []
  | (k, s) :: t => if s.fetched < 4 then (k, d.segFetch s 0) :: t else (k, s) :: d.jumpFetch t

/-- The next record, in play order, arrives in the prefetch buffer of 1,024 records (R289, R290). -/
def Dev.prefetchRecordEff (u : Nat) (d : Dev) : Dev :=
  let x := d.stm.get u
  if 1024 ≤ x.records then d
  else
    let unread := fun (s : StmSeg) => decide (s.fetched < s.len)
    (if x.playing.any unread then
      d.updStm u fun x => { x with playing := x.playing.map fun s => d.segFetch s x.granule }
    else if x.chosen.any unread then
      d.updStm u fun x => { x with chosen := x.chosen.map fun s => d.segFetch s 0 }
    else if x.jumps.any fun j => j.2.fetched < 4 then
      d.updStm u fun x => { x with jumps := d.jumpFetch x.jumps }
    else d.updStm u fun x => { x with queue := d.queueFetch x.queue }).stmShow u

end Sys2Proof.Machine
end

