-- ==== Sys2Proof/Machine/Clock.lean ====
section
/-!
DEFINITION. What a loss and a return of the sample clock do to the whole engine (04_time_base.md R106, R107): the slices,
the logic samples, the trigger units, the event inputs, the stimulus units and the needles' waits on time.
-/
namespace Sys2Proof.Machine

/-- The logic samples of a group from frame `u - 2` on are lost with the clock: the lanes find a frame without samples
there (DEDUCED from R106's table, log entry 26). -/
def Dev.logicLoss (d : Dev) (u g : Nat) : Dev :=
  let l := d.logic.get g
  if l.isEmpty then d
  else d.setLogic (d.logic.set g (l.filter (fun f => decide (f.k + 2 < u)) ++ [{ k := u - 2 }]))

/-- A WAITT learns of the relock: it completes against the rebuilt count (R106, R246). -/
def Dev.needleRelock (d : Dev) (n : Nat) : Dev :=
  d.updNdl n fun x => { x with wait := x.wait.map fun w =>
    match w.kind with
    | .time _ _ => { w with done := some (d.now, 0) }
    | _ => w }

/-- The lock detector detects unlock (R106). -/
def Dev.synthUnlockEff (d : Dev) : Dev :=
  if ! d.tb.locked then d
  else
    let d := (List.range 4).foldl (fun d n => d.sliceClockLossEff n) d
    let d := (List.range 8).foldl (fun d g => d.logicLoss d.now g) d
    d.tbUnlock

/-- The lock detector declares lock (R95, R106, R107). -/
def Dev.synthLockEff (d : Dev) : Dev :=
  if d.tb.locked then d
  else
    let d := d.tbLock
    let d := (List.range 4).foldl (fun d n => d.sliceClockLockEff n) d
    let d := (List.range 8).foldl (fun d u => d.updUnit u fun x => 
      { x with ctl := insertCtl (d.now + 1, .refill) (insertCtl (d.now, .abandonAll) x.ctl) }) d
    let d := (List.range 16).foldl Dev.needleRelock d
    d.eviRelock

end Sys2Proof.Machine
end

