-- ==== Sys2Proof/Machine/Correction.lean ====
section
/-!
DEFINITION. The correction pipeline (03_correction_and_live_calibration.md R68-R73) and live calibration: NOSPARE
matching, skew estimation, swatches and the flash (R80-R90).
-/
namespace Sys2Proof.Machine

/-! ### The four stages (R68-R72) -/

/-- The b value of sample `s` of a raw frame before interpolation: stages 1 and 2 (R69). -/
def Dev.stageB (d : Dev) (n : Nat) (f : RawFrame) (s : Nat) : Int :=
  let x := d.slice.get n
  let p := f.subs.getD s 0
  let c := (f.raw.getD s 0).toNat
  let off := 0x2400 + 4 * p
  let w := x.word (d.copyFor n f.k off) off
  let ofs := signedOf 12 (w / 65536 % 4096)
  let gain : Int := (w % 65536 : Nat)
  let a := roundAway ((16 * ((c : Int) - 512) + ofs) * gain) 512
  let lo := 0x10000 + 0x800 * p + 4 * (c / 2)
  let l := x.word (d.copyFor n f.k lo) lo
  a + signedOf 16 (if c % 2 = 0 then l % 65536 else l / 65536)

/-- The b value of the sample with number `i`; one that no frame holds is a free value of Config (log entry 11). In INTERP it
is interpolated from 24 samples of the other seven track-and-holds: the ones within 13 samples on either side (R72 does not
say which: DESIGN CHOICE, log entry 58). -/
def Dev.sampleB (d : Dev) (n : Nat) (i : Int) : Int :=
  match (d.path.get n).raw.find? fun f => (f.k : Int) == i / 64 with
  | some f =>
    let s := (i % 64).toNat
    if f.interp / 2 ^ (s % 8) % 2 = 1 then
      Config.interp (((List.range 27).filter fun j => j != 13 && j != 5 && j != 21).map fun (j : Nat) =>
        let i' : Int := i + (j : Int) - 13
        match (d.path.get n).raw.find? fun g => (g.k : Int) == i' / 64 with
        | some g => d.stageB n g (i' % 64).toNat
        | none => Config.missingSample n i')
    else d.stageB n f s
  | none => Config.missingSample n i

/-- The e value of sample `i` (stage 3), from the b values `b`, the first of which is sample `i0`. -/
def Dev.sampleE (d : Dev) (n : Nat) (b : List Int) (i0 i : Int) : Int :=
  let x := d.slice.get n
  let h := (i % 8).toNat
  let sum := (List.range 16).map fun (j : Nat) =>
    let off := 0x2000 + 64 * h + 4 * j
    let k := signedOf 18 (x.word (d.copyFor n (i / 64).toNat off) off)
    k * b.getD (i + j - 8 - i0).toNat 0
  roundAway sum.sum 65536

/-- Stage 4 runs with the identity at frame `k` (R71). -/
def Slice.bypassed (x : Slice) (k : Nat) : Bool :=
  x.bypassAt.foldl (fun b (t, v) => if t ≤ k then v else b) x.bypass

/-- The y value of sample `i` (stage 4), from the e values `e`, the first of which is sample `i0`; whether it
saturated. -/
def Dev.sampleY (d : Dev) (n : Nat) (e : List Int) (i0 i : Int) : Int × Bool :=
  let x := d.slice.get n
  let k := (i / 64).toNat
  let sum := (List.range 32).map fun (j : Nat) =>
    let off := 0x2200 + 4 * j
    let q := if x.bypassed k then (if j = 16 then 65536 else 0)
      else signedOf 20 (x.word (d.copyFor n k off) off)
    q * e.getD (i + j - 16 - i0).toNat 0
  saturate 16 (roundAway sum.sum 1048576)

/-- The e values of a frame and its neighbours, samples 64k - 16 to 64k + 79, and its corrected samples. -/
def Dev.correct (d : Dev) (n k : Nat) : List Int × List Int × Bool :=
  let i0 : Int := 64 * (k : Int) - 16
  let b := (List.range 111).map fun (j : Nat) => d.sampleB n (i0 - 8 + j)
  let e := (List.range 96).map fun (j : Nat) => d.sampleE n b (i0 - 8) (i0 + j)
  let y := (List.range 64).map fun (s : Nat) => d.sampleY n e i0 (64 * (k : Int) + s)
  (e, y.map Prod.fst, y.any Prod.snd)

/-- The estimator's sums take a frame's e values (R86). -/
def Skew.add (x : Skew) (e : List Int) : Skew :=
  (List.range 64).foldl (fun x s =>
    let v := e.getD (16 + s) 0
    let h := s % 8
    { x with sm := x.sm.set h (x.sm.getD h 0 + v * e.getD (15 + s) 0)
             sp := x.sp.set h (x.sp.getD h 0 + v * e.getD (17 + s) 0), p := x.p + v * v })
    { x with frames := x.frames + 1 }

/-- A timing bank switches between sample frame `k` and the frames that the estimator has collected (R86). -/
def Slice.timBetween (x : Slice) (before : Option Nat) (k : Nat) : Bool :=
  let hit := fun (c : Option Commit) => match c, before with
    | some c, some b => c.tim && decide (b < c.c + 16) && decide (c.c + 16 ≤ k)
    | _, _ => false
  hit x.commit || hit x.last

/-- The background estimator takes a frame (R86). -/
def Dev.skewTake (d : Dev) (n : Nat) (r : RawFrame) (e : List Int) : Dev :=
  if ! d.flag CV_SKW_CTL.BG_EN n || ! r.valid then d
  else d.updSlice n fun x =>
    let spoilt := r.spoilt || (x.skew.frames != 0 && x.timBetween (d.path.get n).last r.k)
    { x with skew := { x.skew.add e with spoilt := x.skew.spoilt || spoilt } }

/-- The captures of a swatch take the b values of a frame (R88), `b` from sample 0 on: each sample with the sine and cosine of
the image tone at its instant, counted from the start of its capture (R89). -/
def Swatch.take (w : Swatch) (k : Nat) (b : List Int) : Swatch :=
  let i := (k - (w.s + 16)) / 1024
  if k < w.s + 16 ∨ w.caps ≤ i ∨ w.count ≤ i then w
  else
    let from_ := w.s + 16 + 1024 * i
    let th := fun (t : Tab ToneSums) => (List.range 64).foldl (fun t s =>
      let v := b.getD s 0
      let x := (2 ^ 48 - w.ftw) * (64 * (k - from_) + s)
      t.upd (s % 8) fun y => ⟨y.bs + v * turnSin x, y.bc + v * turnCos x, y.b + v⟩) t
    { w with sums := w.sums.modify i fun c => { frames := c.frames + 1, th := th c.th } }

/-- The oldest frame still in correction leaves it, 150 frames after it was taken (R30, R68): it reaches the trigger units, the
decimation units and the stage store. A correction pipeline without its power domain processes nothing (R39, R40). -/
def Dev.correctedFrameEff (n : Nat) (d : Dev) : Dev :=
  let p := d.path.get n
  match p.raw.find? fun f => decide ((p.last.map (· + 1)).getD 0 ≤ f.k) with
  | none => d
  | some r =>
    let d := ((d.advanceTo (r.k + 150)).overrangeCount n).decDue r.k
    let drop := fun (p : Path) => { p with raw := p.raw.filter (fun g => decide (r.k ≤ g.k)), last := some r.k }
    if ! d.pdOn (68 + n) then d.setPath (d.path.upd n drop)
    else
      let (e, ys, clip) := d.correct n r.k
      let f : Frame :=
        { k := r.k, samples := ys, valid := r.valid, degraded := r.degraded, holdover := (d.epochAt r.k).holdover }
      let d := (d.skewTake n r e).updSlice n fun x =>
        { x with bypass := x.bypassed r.k, bypassAt := x.bypassAt.filter fun b => decide (r.k < b.1) }
      let b := (List.range 64).map fun (s : Nat) => d.sampleB n (64 * r.k + s)
      let d := d.updSlice n fun x => { x with swatch := x.swatch.map fun w => w.take r.k b }
      let d := if clip then (d.count CV_CLIP_CNT.COUNT n).raiseHeld 1250 (16 * n + 15) else d
      let d := d.setPath (d.path.upd n fun p => let q := drop p; { q with delay := q.delay ++ [f] })
      let d := (List.range 8).foldl (fun d u => d.unitFrame n f u) d
      (List.range 16).foldl (fun d u => d.decFrame n f u) d

/-! ### Skew filters (R84, R85) -/

/-- The coefficients K[h][j] for a skew, j = -8 .. 7 (R84). -/
def skewTaps (delta : Int) : List Int :=
  if delta = 0 then (List.range 16).map fun (j : Nat) => if j = 8 then 65536 else 0
  else (normTaps 65536 0 ((List.range 16).map fun (i : Nat) =>
    let j : Int := (i : Int) - 8
    (j, sincTap j (65536 * j + delta) 65536))).map Prod.snd

/-- The current skews (R93). -/
def Dev.skews (d : Dev) (n : Nat) : List Int := (List.range 8).map fun h => d.gets CV_SKW_DLT.VALUE n h

/-- Set the skews, clamped to ±16,384, with SKEW_LIMIT for a clamp (R85). -/
def Dev.setSkews (d : Dev) (n : Nat) (l : List Int) : Dev :=
  let clamp := fun (v : Int) => max (-16384) (min 16384 v)
  let d := l.zipIdx.foldl (fun d (v, h) => d.puts CV_SKW_DLT.VALUE (clamp v) n h) d
  if l.any fun v => clamp v != v then d.raise (16 * n + 14) else d

/-- The controller writes the inactive timing bank for the current skews, with the active equalisation set, and commits
it (R79, R86). -/
def Dev.commitSkews (d : Dev) (n : Nat) : Dev :=
  let d := (d.skews n).zipIdx.foldl (fun d (v, h) =>
    (skewTaps v).zipIdx.foldl (fun d (k, j) =>
      d.tableWindowWriteEff n (0x2000 + 64 * h + 4 * j) (BitVec.ofInt 32 k)) d) d
  let d := (List.range 32).foldl (fun d j =>
    let off := 0x2200 + 4 * j
    d.tableWindowWriteEff n off (BitVec.ofNat 32 ((d.slice.get n).word (d.activeCopy n off) off))) d
  (d.tableCommit n false true).decision 2 n 0

/-- A background collection completes (R86): 2^LOG2N samples of each track-and-hold. -/
def Dev.skewUpdateEff (n : Nat) (d : Dev) : Dev :=
  let s := (d.slice.get n).skew
  let need := 2 ^ max 20 (min 28 (d.get CV_SKW_CTL.LOG2N n)) / 8
  if ! d.flag CV_SKW_CTL.BG_EN n || decide (s.frames < need) then d
  else
    let d := d.updSlice n fun x => { x with skew := {} }
    let diff := fun h => s.sp.getD h 0 - s.sm.getD h 0
    let cnt : Int := (s.frames * 64 : Nat)
    let weak := decide (s.p < 256 * (d.get CV_SKW_PMIN.PMIN n : Int) * cnt)
      || (List.range 8).any fun h => decide (s.p < 128 * ((diff h).natAbs : Int))
    if s.spoilt || weak then d.count CV_SKW_STAT.SKIPPED n
    else
      let mu := d.get CV_SKW_CTL.MU_SHIFT n
      let step := fun h => if s.p = 0 then (Config.free (d.freeSeq + h)).toInt
        else roundAway (diff h * 8 * (2 ^ 16 : Int)) (s.p * (2 ^ mu : Int))
      let l := (d.skews n).zipIdx.map fun (v, h) => v + max (-64) (min 64 (step h))
      let m := roundAway l.sum 8
      let d := if s.p = 0 then (d.setFreeSeq (d.freeSeq + 8)) else d
      let d := (d.setSkews n (l.map fun v => v - m)).bump CV_SKW_STAT.UPDATES n
      if d.flag CV_CORR_CTL.HOST_TIM n then d else d.commitSkews n

/-! ### NOSPARE matching (R83) -/

/-- The integer square root of `v`, by its bits below 2^`n`. -/
def isqrtBits (v : Nat) : Nat → Nat → Nat
  | 0, r => r
  | n + 1, r => let t := r + 2 ^ n; isqrtBits v n (if t * t ≤ v then t else r)

/-- The matching after 256 windows of 1,024 conversions (R83), from the codes that the slice has delivered since the statistics
began; it waits for the conversions of every sub-converter in service. Standard deviations are taken with 32 bits after the
point (DEDUCED, log entry 10). R83 gives no limits: an OFS or a GAIN beyond its field is stored modulo 2^12 or 2^16. Of a
sub-converter whose codes do not deviate it gives no GAIN: the command carries one for each (DESIGN CHOICE, log entry 58). -/
def Dev.nospareMatchingEff (n h : Nat) (gains : List (BitVec 16)) (d : Dev) : Dev :=
  let g := (d.slice.get n).group.get h
  let us := d.inService n h
  let cnt := 262144
  if d.get CV_GRP_STAT.STATE n h ≠ 1 || d.flag CV_CORR_CTL.HOST_SUB n || us.any fun u => (g.stat.get u).n != cnt then d
  else
    let d := d.advanceTo (g.statFrom + 327680)
    let d := d.updGroup n h fun g => { g with statFrom := g.statFrom + 327680, stat := [] }
    let sd := fun (y : CodeSums) => isqrtBits ((cnt * y.sq - y.sum * y.sum) * 2 ^ 64) 96 0
    let num : Int := (us.length : Nat)
    let sumMu : Int := ((us.map fun u => (g.stat.get u).sum).sum : Nat)
    let sumSd : Int := ((us.map fun u => sd (g.stat.get u)).sum : Nat)
    let d := us.foldl (fun d u =>
      let p := 11 * h + u
      let page := d.activePage n p
      let w := page.headD 0
      let ofs := signedOf 12 (w / 65536 % 4096)
        - roundAway (16 * (((g.stat.get u).sum : Nat) * num - sumMu)) (num * (cnt : Nat))
      let v : Int := (sd (g.stat.get u) : Nat)
      let gain : Int := if v = 0 then (((gains.getD u 0).toNat : Nat) : Int)
        else roundAway ((w % 65536 : Nat) * sumSd) (num * v)
      let d := d.writePage n p (((ofs % 4096).toNat * 65536 + (gain % 65536).toNat) :: page.drop 1)
      d.put CV_SUB_ARM.P (d.get CV_SUB_ARM.P n (p / 32) ||| 2 ^ (p % 32)) n (p / 32)) d
    d.tableCommit n true false

/-! ### Swatches (R87-R90) -/

/-- A write of CV_SWATCH_CTL.START (R87). -/
def Dev.swatchStartEff (n : Nat) (d : Dev) : Dev :=
  let ftw := d.get CV_SWATCH_FREQ.FTW n
  let img := 2 ^ 48 - ftw
  let fin := fun r => (d.put CV_SWATCH_STAT.RESULT r n).raise (16 * n + 13)
  if d.get CV_DAC_CTL.ROUTE n ≠ 0 ∨ d.flag STM_UCTL.EN n ∨ (d.slice.get n).swatch.isSome then fin 3
  else if 100 * img < 55 * 2 ^ 48 ∨ 95 * 2 ^ 48 < 100 * img then fin 4
  else
    let w : Swatch := { s := d.now, ftw := ftw, amp := d.get CV_SWATCH_CTL.AMP n, count := max 1 (d.get CV_SWATCH_CTL.COUNT n) }
    ((d.put CV_SWATCH_STAT.RESULT 1 n).routeTo n 1).updSlice n fun x => { x with swatch := some w }

/-- The next capture starts (R88). -/
def Dev.swatchCaptureEff (n : Nat) (d : Dev) : Dev :=
  match (d.slice.get n).swatch with
  | none => d
  | some w =>
    if w.count ≤ w.caps then d
    else (d.advanceTo (w.s + 16 + 1024 * w.caps)).updSlice n fun x =>
      { x with swatch := some { w with caps := w.caps + 1, sums := w.sums ++ [{}] } }

/-- The route off is commanded after the last capture (R88). -/
def Dev.swatchRouteOffEff (n : Nat) (d : Dev) : Dev :=
  match (d.slice.get n).swatch with
  | none => d
  | some w =>
    if w.caps < w.count ∨ w.off.isSome then d
    else
      let d := d.advanceTo (w.s + 16 + 1024 * w.count)
      (d.routeTo n 0).updSlice n fun x => { x with swatch := some { w with off := some d.now } }

/-- The least-squares fit of A sin(2πft + φ) + C to the samples of one track-and-hold in a capture (R89): numerators of
A cos φ and of A sin φ, and their common denominator. Instants count from the start of the capture, so that φ does not hold the
2πfh × 12.5 ps of R89. Sines are scaled by 2^128. -/
def toneFit (img h : Nat) (y : ToneSums) : Int × Int × Int :=
  let n : Int := 8192
  let xs := (List.range 8192).map fun m => img * (8 * m + h)
  let s := (xs.map turnSin).sum
  let c := (xs.map turnCos).sum
  let ss := n * (xs.map fun x => turnSin x * turnSin x).sum - s * s
  let cc := n * (xs.map fun x => turnCos x * turnCos x).sum - c * c
  let sc := n * (xs.map fun x => turnSin x * turnCos x).sum - s * c
  let bs := n * y.bs - y.b * s
  let bc := n * y.bc - y.b * c
  (bs * cc - bc * sc, bc * ss - bs * sc, ss * cc - sc * sc)

/-- τ of the eight track-and-holds from one capture's phases in 2^-51 turn, in 1/65,536 tick as numerators over 8 × img
(R89): f is 10 GHz × img / 2^48, so that one tick is img / 2^51 of a turn. -/
def swatchTau (ph : List Nat) : List Int :=
  -- Δφ_h in 2^-51 turn, taken to the nearest turn
  let raw : List Int := ph.map fun (p : Nat) => ((p : Int) - ((ph.headD 0 : Nat) : Int) + 2 ^ 50) % 2 ^ 51 - 2 ^ 50
  raw.map fun v => (8 * v - raw.sum) * 65536

/-- Square of the ratio of a fitted amplitude, in 1/16 count, to the commanded one, against (num/10)². -/
def ampTest (amp : Nat) (fit : Int × Int × Int) (below : Bool) (num : Int) : Bool :=
  let (p, q, e) := fit
  let a2 := 100 * (p * p + q * q) * 2 ^ 256
  let b2 := num * num * (amp * 512 : Nat) * (amp * 512 : Nat) * e * e
  if below then decide (a2 < b2) else decide (b2 < a2)

/-- The fit of a swatch completes (R89, R90). A capture in which frames are missing has no fit that the spec states: the command
then carries the phases and the verdict on the amplitudes (log entry 58). The standard deviation is that of the captures
themselves (DEDUCED, log entry 10). -/
def Dev.swatchResultEff (n : Nat) (fit : SwatchFit) (d : Dev) : Dev :=
  match (d.slice.get n).swatch with
  | none => d
  | some w =>
    if w.off.isNone then d
    else
      let img := 2 ^ 48 - w.ftw
      let whole := w.sums.all fun c => c.frames == 1024
      let fits := if whole then w.sums.map fun c => (List.range 8).map fun h => toneFit img h (c.th.get h) else []
      let phases := if whole then fits.map fun f => f.map fun x => turnOf x.1 x.2.1
        else (List.range w.count).map fun i => (List.range 8).map fun h => ((fit.phases.getD i []).getD h 0).toNat
      let badAmp := if whole then fits.any fun f => f.any fun x => ampTest w.amp x true 9 || ampTest w.amp x false 11
        else fit.badAmp
      let taus := phases.map swatchTau
      let c : Int := (taus.length : Nat)
      let i : Int := (8 * img : Nat)
      let tau := (List.range 8).map fun h => roundAway (taus.map fun t => t.getD h 0).sum (c * i)
      -- the variance of c values v/i against (20 fs)^2, 20 fs being 104.8576 units
      let badDev := (List.range 8).any fun h =>
        let vs := taus.map fun t => t.getD h 0
        let var := c * (vs.map fun v => v * v).sum - vs.sum * vs.sum
        decide (1048576 * 1048576 * (i * i * c * c) < 100000000 * var)
      let d := tau.zipIdx.foldl (fun d (v, h) => d.puts CV_SWATCH_TAU.VALUE v n h) d
      let poor := badAmp || badDev
      let d := (d.put CV_SWATCH_STAT.RESULT (if poor then 6 else 2) n).updSlice n fun x => { x with swatch := none }
      let d := d.raise (16 * n + 13)
      if d.flag CV_SWATCH_CTL.APPLY n && ! poor && ! d.flag CV_CORR_CTL.HOST_TIM n then
        (d.setSkews n tau).commitSkews n
      else d

/-! ### Flash (R80) -/

/-- The active tables of a slice are written to the flash (R80). -/
def Dev.tableSave (d : Dev) (n : Nat) : Dev :=
  let act := (d.slice.get n).tab.filterMap fun (k, v) =>
    let off := k % 2 ^ 18
    if k / 2 ^ 18 = d.activeCopy n off then some (off, v) else none
  d.updSlice n fun x =>
    { x with saved := some d.now, flash := act.foldl (fun t (o, v) => Tab.set t o v) [] }

/-- A save on the way, at most once in ten minutes (R80). -/
def Dev.tableFlashSaveEff (n : Nat) (d : Dev) : Dev :=
  let soon := match (d.slice.get n).saved with
    | some t => decide (d.now < t + 750000000000)
    | none => false
  if soon then d else d.tableSave n

end Sys2Proof.Machine
end

