-- ==== Sys2Proof/Machine/XferOps.lean ====
section
/-!
DEFINITION. A channel of the transfer engine (15_transfer_engine.md R349-R367): the fields of its descriptor, its
completions, and how it halts or is aborted. What moves the bytes stands in Xfer.lean, after the register access it uses.
-/
namespace Sys2Proof.Machine

/-- Change channel `c`. -/
def Dev.updXfer (d : Dev) (c : Nat) (f : XferChan → XferChan) : Dev :=
  d.setXfe { d.xfe with chan := d.xfe.chan.upd c f }

/-- XFE_STAT.STATE, and the bits of XFE_G_BUSY (BUSY or WAIT) and XFE_G_HALTED. -/
def Dev.xferState (d : Dev) (c st : Nat) : Dev :=
  ((d.put XFE_STAT.STATE st c).putBit XFE_G_BUSY.CH c (st == 2 || st == 4)).putBit XFE_G_HALTED.CH c (st == 3)

/-- The channel is BUSY or in WAIT. -/
def Dev.xferBusy (d : Dev) (c : Nat) : Bool := d.get XFE_STAT.STATE c == 2 || d.get XFE_STAT.STATE c == 4

/-- Bits `hi` to `lo` of the control word of a descriptor (R351). -/
def descBits (l : Line) (hi lo : Nat) : Nat := l.w0.toNat / 2 ^ lo % 2 ^ (hi + 1 - lo)

def descTag (l : Line) : Nat := descBits l 63 40
def descLast (l : Line) : Bool := descBits l 31 31 == 1
def descCmpl (l : Line) : Bool := descBits l 30 30 == 1
def descOwn (l : Line) : Bool := descBits l 29 29 == 1
def descAppend (l : Line) : Bool := descBits l 28 28 == 1
def descCheck (l : Line) : Nat := descBits l 25 24
def descSwap (l : Line) : Nat := descBits l 23 22
def descDst (l : Line) : Nat := descBits l 7 4
def descSrc (l : Line) : Nat := descBits l 3 0
def descCount (l : Line) : Nat := l.w3.toNat % 2 ^ 40

/-- The check value of the bytes written so far (R355): CRC-32, or the sum with its odd byte. -/
def XferChan.value (x : XferChan) : Nat :=
  match descCheck x.desc with
  | 1 => x.check ^^^ 0xFFFFFFFF
  | 2 => (x.check + x.odd.getD 0) % 65536
  | _ => 0

/-- A completion (R362): its status, hop number, REST, check value, tag and bytes. -/
def Dev.xferComplete (d : Dev) (c status hops : Nat) (rest : Bool) (check tag bytes : Nat) : Dev :=
  let x := d.xfe.chan.get c
  let seq := c * 2 ^ 26 + x.seq % 2 ^ 26
  let body := leBytes (d.stamp seq d.now 0).toNat 16
    ++ leBytes (check % 2 ^ 32 * 2 ^ 32 + hops % 2 ^ 25 * 2 ^ 7 + rest.toNat * 2 ^ 6 + status % 16) 8
    ++ leBytes (tag % 2 ^ 24 * 2 ^ 40 + bytes % 2 ^ 40) 8
  let d := d.post (d.get XFE_CQ.Q c) 1 1 (5000 + c) body
  (d.put XFE_STAT.LAST_STATUS status c).updXfer c fun x => { x with seq := x.seq + 1 }

/-- Write bytes at a descriptor's address: host memory, or the bench (R351). -/
def Dev.descWrite (d : Dev) (ptr ofs : Nat) (b : List Byte) : Dev :=
  let a := ptr / 64 * 64 + ofs
  if ptr % 2 = 1 then d.storeWrite 0 a b
  else if d.link.up then d.setQue { d.que with hostMem := d.que.hostMem.store a b } else d

/-- RCHECK and RSTATUS of a ring descriptor (R351). -/
def Dev.ringStatus (d : Dev) (ptr check status : Nat) : Dev := d.descWrite ptr 0x28 (leBytes (check % 2 ^ 32 * 2 ^ 32 + status % 16) 8)

/-- The descriptor in progress ends with a halting outcome (R357, R359): its completion, and one for the rest of a chain
or ring. `read` tells whether the descriptor could be read. -/
def Dev.xferFail (d : Dev) (c status : Nat) (read : Bool) : Dev :=
  let x := d.xfe.chan.get c
  let hops := d.get XFE_HOPS.HOPS c
  let last := read && descLast x.desc
  let d := d.xferComplete c status hops false 0 (if read then descTag x.desc else 0) x.pos
  let d := if x.mode = 2 ∧ read then d.ringStatus x.addr 0 status else d
  let d := if x.mode ≠ 0 ∧ ! last then d.xferComplete c 5 hops true 0 0 0 else d
  let d := if x.mode = 0 then d else d.wr ⟨.XFE_NEXT, c, 0, 0⟩ (if read then x.desc.w4 else BitVec.ofNat 64 x.addr)
  let d := if status = 4 then d.raise 537 else d
  ((d.xferState c 3).updXfer c fun x => { x with phase := .idle }).raise 536

/-- A clear of XFE_CTL.EN, or a reset (R363, R364): what is in progress ends ABORTED, its BYTES a free value; the rest of
a list gets one completion. A channel that is fetching or waits has no descriptor in progress (DEDUCED, log entry 27). -/
def Dev.xferAbort (d : Dev) (c : Nat) : Dev :=
  let d :=
    if ! d.xferBusy c then d
    else
      let x := d.xfe.chan.get c
      let hops := d.get XFE_HOPS.HOPS c
      let moving := x.phase == .data || x.phase == .readback
      let d := if moving then (d.xferComplete c 6 hops false 0 (descTag x.desc) d.freeVal.toNat).drawn else d
      let d := if x.mode ≠ 0 ∧ ! (moving && descLast x.desc) then
          d.xferComplete c 6 (if moving then hops else hops - 1) true 0 0 0
        else d
      d.raise 538
  (d.xferState c 0).updXfer c fun x => { x with phase := .idle }

/-- The link goes down (R364): a channel with a HOST operand or a HOST completion queue ends TIMEOUT and halts. -/
def Dev.xferLinkDown (d : Dev) (c : Nat) : Dev :=
  let x := d.xfe.chan.get c
  let moving := x.phase == .data || x.phase == .readback
  let host := moving && (descSrc x.desc == 0 || descDst x.desc == 0)
  if d.xferBusy c && (host || ! d.flag QUE_BASE.BENCH (d.get XFE_CQ.Q c)) then d.xferFail c 3 moving else d

/-! ### Checks, outcome and start of a descriptor (R350, R352, R356-R361) -/

/-- The end of a space (R349). -/
def Dev.spaceEnd (d : Dev) (sp : Nat) : Nat :=
  match sp with
  | 0 => 2 ^ 64
  | 1 => benchSize
  | 2 => d.get BEN_QRY_CAP.BYTES
  | 3 => 0x10000000
  | 4 => 0x6000000
  | 5 => 0x100000
  | 6 => 0x10000000
  | _ => 0

/-- The unit of a swap, in bytes (R354). -/
def swapUnit (s : Nat) : Nat := match s with
  | 0 => 1
  | 1 => 2
  | _ => 4

/-- The bytes that APPEND writes after the data (R355). -/
def descAppended (l : Line) : Nat := if ! descAppend l then 0 else if descCheck l = 1 then 4 else 2

/-- Every reserved field of a descriptor is 0, and no reserved code is used (R351, R352). -/
def descLegal (l : Line) : Bool :=
  descBits l 39 32 == 0 && descBits l 21 8 == 0 && l.w3.toNat < 2 ^ 40 && l.w4.toNat / 2 % 32 == 0
    && l.w5.toNat % 2 ^ 32 / 16 == 0 && l.w6 == 0 && l.w7 == 0
    && decide (descSrc l < 7) && decide (descDst l < 7) && descCheck l != 3 && (! descAppend l || descCheck l != 0)

/-- R350: the offsets and COUNT are multiples of the access size of a REG operand and of the unit of a swap. -/
def descAligned (l : Line) : Bool :=
  let s := l.w1.toNat
  let t := l.w2.toNat
  let n := descCount l
  let u := swapUnit (descSwap l)
  s % u == 0 && t % u == 0 && n % u == 0
    && (descSrc l != 6 || (s % 4 == 0 && n % 4 == 0)) && (descDst l != 6 || (t % 4 == 0 && n % 4 == 0))

/-- The outcome of the checks of R352 after the read and the hop number: 0 passed, 7 BADDESC, 8 RANGE. An empty range
lies inside its space (DEDUCED, log entry 34). -/
def Dev.descCheckResult (d : Dev) (l : Line) : Nat :=
  let n := descCount l
  if ! descLegal l || ! descAligned l then 7
  else if n = 0 ∨ (l.w1.toNat + n ≤ d.spaceEnd (descSrc l) ∧ l.w2.toNat + n + descAppended l ≤ d.spaceEnd (descDst l)) then 0
  else 8

/-- The channel fetches the descriptor at `ptr` as hop `hop` (R357, R359). -/
def Dev.xferFetch (d : Dev) (c ptr hop : Nat) : Dev :=
  ((d.put XFE_HOPS.HOPS hop c).xferState c 2).updXfer c fun x => { x with phase := .fetch, addr := ptr, pos := 0 }

/-- The channel goes IDLE at the end of a transfer, chain or ring run (R366). -/
def Dev.xferIdle (d : Dev) (c : Nat) : Dev :=
  ((d.xferState c 1).updXfer c fun x => { x with phase := .idle }).raise (528 + c / 8)

/-- A descriptor ends DONE, POISONED or WDROP (R356, R359, R361), and the channel goes on. -/
def Dev.xferEnd (d : Dev) (c : Nat) : Dev :=
  let x := d.xfe.chan.get c
  let hops := d.get XFE_HOPS.HOPS c
  let status := if x.poisoned then 9 else if x.wdrop then 10 else 0
  let d := if x.poisoned then d.raise 539 else if x.wdrop then d.raise 540 else d
  let value := x.value
  let d := if x.mode = 2 then
      (d.ringStatus x.addr value status).descWrite x.addr 0 (leBytes (x.desc.w0 &&& ~~~ maskBits 29 1).toNat 8)
    else d
  let d := if x.mode = 0 || descCmpl x.desc || status != 0 || descLast x.desc then
      d.xferComplete c status hops false value (descTag x.desc) x.pos
    else d
  if x.mode = 0 || descLast x.desc then d.xferIdle c else d.xferFetch c x.desc.w4.toNat (hops + 1)

/-- A descriptor that has been read passes its checks or fails (R352); a COUNT of 0 ends DONE at once. -/
def Dev.xferBegin (d : Dev) (c : Nat) (l : Line) : Dev :=
  let d := d.updXfer c fun x =>
    { x with desc := l, pos := 0, check := if descCheck l = 1 then 0xFFFFFFFF else 0, odd := none, poisoned := false
             wdrop := false }
  match d.descCheckResult l with
  | 0 =>
    if descCount l = 0 then d.xferEnd c
    else (d.xferState c 2).updXfer c fun x => { x with phase := .data }
  | s => d.xferFail c s true

/-- A write of XFE_CTL.GO (R357, R360, R365). -/
def Dev.xferGoEff (c : Nat) (d : Dev) : Dev :=
  if ! d.flag XFE_CTL.EN c || d.xferBusy c then (d.count XFE_CNT_BADGO.COUNT).raise 542
  else
    let m := d.get XFE_CTL.MODE c
    let mode := if m = 3 then 0 else m
    let d := d.updXfer c fun x => { x with mode := mode }
    if mode = 0 then
      (d.put XFE_HOPS.HOPS 1 c).xferBegin c ⟨d.rd ⟨.XFE_CFG, c, 0, 0⟩, d.rd ⟨.XFE_SRC, c, 0, 0⟩, d.rd ⟨.XFE_DST, c, 0, 0⟩,
        d.rd ⟨.XFE_COUNT, c, 0, 0⟩, 0, 0, 0, 0⟩
    else d.xferFetch c (d.rd ⟨.XFE_DPTR, c, 0, 0⟩).toNat 1

/-- A write of XFE_CTL.KICK (R359): a waiting channel fetches again; otherwise the KICK is held. -/
def Dev.xferKickEff (c : Nat) (d : Dev) : Dev :=
  if d.get XFE_STAT.STATE c = 4 then (d.xferState c 2).updXfer c fun x => { x with phase := .fetch }
  else d.updXfer c fun x => { x with kick := true }

/-- A clear of XFE_CTL.EN (R363). -/
def Dev.xferAbortEff (c : Nat) (d : Dev) : Dev := if d.flag XFE_CTL.EN c then (d.putb XFE_CTL.EN false c).xferAbort c else d

end Sys2Proof.Machine
end

