-- ==== Sys2Proof/Machine/Domains.lean ====
section
/-!
DEFINITION. Power domains (19_power_reset_and_live_update.md R426, R427; 01_engine_at_a_glance.md R40): which domains the
enabled blocks need, how they switch on and off, and what becomes READY; the training of the quarry (13 R300, R301).
-/
namespace Sys2Proof.Machine

/-! ### What enabled blocks need (R39, R426) -/

/-- The domain of the unit of a test session (R467). -/
def testDomain (f unit : Nat) : Option Nat :=
  match f with
  | 0 => some (10 * unit + 8)
  | 1 => some (87 + unit)
  | 3 => some (59 + unit)
  | 4 => some (40 + unit)
  | 5 => some (85 + unit)
  | _ => none

/-- A test session needs the domain. -/
def Dev.testNeeds (d : Dev) (n : Nat) : Bool :=
  (List.range 8).any fun s => d.flag TST_CTL.EN s && testDomain (d.get TST_CTL.IF s) (d.get TST_CTL.UNIT s) == some n

/-- A bench user is enabled (R298): a skein, a retransmit window, a bench ring, sums or lists in the bench, a hoist
target, a transfer channel. -/
def Dev.benchNeeded (d : Dev) : Bool :=
  ((List.range 64).any fun k => (d.lanes.skein.get k).defined && (d.lanes.skein.get k).store == 0)
    || ((List.range 3).any fun p => d.flag ETH_CTL.EN p)
    || ((List.range 8).any fun j => (d.talView j).store == 0 && d.talHeld j)
    || ((List.range 4).any fun u => d.flag STM_UCTL.EN u)
    || ((List.range 64).any fun t => d.flag BEN_HT_CTL.EN t || d.flag XFE_CTL.EN t)
    || (List.range 4096).any fun q => d.flag QUE_CTL.EN q && d.flag QUE_BASE.BENCH q

/-- The tally store's bank `b` is in use (R212). -/
def Dev.bankNeeded (d : Dev) (b : Nat) : Bool :=
  d.tallyMeets 2 (b * bankSize) bankSize
    || d.skeinMeets 2 (b * bankSize) bankSize

/-- An enabled block needs the correction of channel `c` (R39): its slice, a decimation unit, a trigger unit with an analog
source in use, or a tally job. -/
def Dev.corrNeeded (d : Dev) (c : Nat) : Bool :=
  d.flag CV_SCTL.EN c
    || ((List.range 16).any fun u => d.flag DEC_CTL.EN u && d.get DEC_CFG_ACT.SRC u == c)
    || ((List.range 8).any fun u => d.flag TRG_CTL.EN u && (d.activeProfile u).usesChannel c)
    || (List.range 8).any fun j => d.talHeld j && d.get TAL_JOB_CFG.SRC j == c

/-- An enabled hoist target feeds stream port `p` (R39). -/
def Dev.hoistPort (d : Dev) (p : Nat) : Bool :=
  (List.range 64).any fun t => d.flag BEN_HT_CTL.EN t && decide (1 ≤ d.get BEN_HT_CTL.KIND t)
    && d.get BEN_HT_CTL.PORT t % 3 == p

/-- An enabled block needs domain `n`. -/
def Dev.pdNeeded (d : Dev) (n : Nat) : Bool :=
  d.testNeeds n ||
  (if n < 40 then
    let s := n / 10
    if n % 10 < 8 then d.flag CV_SCTL.EN s
    else if n % 10 = 8 then d.flag CV_SCTL.EN s || d.flag STM_UCTL.EN s
    else d.get CV_DAC_CTL.ROUTE s != 0 || d.flag STM_UCTL.EN s || (d.slice.get s).swatch.isSome
  else if n < 56 then d.flag BEN_QRY_CTL.EN && d.get QRY_CSTAT.STATE (n - 40) != 4
  else if n < 58 then d.benchNeeded
  else if n = 58 then true
  else if n < 62 then d.hoistPort (n - 59) || d.flag ETH_CTL.EN (n - 59) || (d.flag TB_PTP_CTL.EN && d.ptpPort == n - 59)
  else if n < 64 then (List.range 8).any fun i => (d.ndl.needle.get (8 * (n - 62) + i)).state == 1
      || (d.ndl.needle.get (8 * (n - 62) + i)).state == 2
  else if n < 68 then [2 * (n - 64), 2 * (n - 64) + 1].any fun u => d.flag TRG_CTL.EN u
      || (List.range 8).any fun j => d.talHeld j && d.get TAL_JOB_CFG.TU j == u
  else if n < 72 then d.corrNeeded (n - 68)
  else if n < 76 then (List.range 4).any fun i => d.flag DEC_CTL.EN (4 * (n - 72) + i)
  else if n < 84 then d.bankNeeded (n - 76)
  else if n = 84 then d.get RAS_CTL.EN != 0 || d.flag DPY_CTL.EN 0 || d.flag DPY_CTL.EN 1
  else if n < 87 then d.flag DPY_CTL.EN (n - 85)
  else if n < 95 then gmode (d.get EVI_GMODE.MODE) (n - 87) != 0
  else d.link.up)

/-- A memory loses what its domain held when that goes off (DEDUCED, log entry 29): the bench, a bank of the tally store,
the raster store; the sub-ports of a stream port lose their links. -/
def Dev.domainLost (d : Dev) (n : Nat) : Dev :=
  if n = 56 ∨ n = 57 then d.setBen { d.ben with bench := [], benchPoison := [] }
  else if 76 ≤ n ∧ n < 84 then
    let a := (n - 76) * bankSize
    d.setTal { d.tal with mem := d.tal.mem.filter fun e => decide (e.1 < a) || decide (a + bankSize ≤ e.1) }
  else if n = 84 then d.setRas { d.ras with mem := [] }
  else if 59 ≤ n ∧ n < 62 then d.put ETH_STAT.LINK 0 (n - 59)
  else d

/-! ### READY (R40) -/

/-- The READY bits that follow the domains alone: stacks of the bench, ports, groups of event inputs. -/
def Dev.readyShow (d : Dev) : Dev :=
  let d := (d.putb BEN_STAT.BS0_READY (d.pdOn 56)).putb BEN_STAT.BS1_READY (d.pdOn 57)
  let d := (List.range 3).foldl (fun d p => d.portReady p) d
  (List.range 8).foldl (fun d g => d.groupShow g (gmode (d.get EVI_GMODE.MODE) g != 0 && d.pdOn (87 + g))) d

/-! ### The quarry's population (R300, R301) -/

/-- QRY_CSTAT.STATE changes, with its event. -/
def Dev.chanState (d : Dev) (c st : Nat) : Dev :=
  if d.get QRY_CSTAT.STATE c = st then d else (d.put QRY_CSTAT.STATE st c).raise (473 + 2 * c)

/-- What channel `c` has fitted. -/
def Dev.dimm (d : Dev) (c : Nat) : Dimm := (d.ben.chan.get c).dimm

/-- The channels that take part in the check: all but the one that is retired. -/
def Dev.qryChecked (d : Dev) : List Nat := (List.range 16).filter fun c => some c != d.ben.retired

/-- The population is of 16 channels; otherwise it is taken as one of QC0 to QC7. -/
def Dev.qrySixteen (d : Dev) : Bool := d.qryChecked.any fun c => decide (8 ≤ c) && (d.dimm c).count != 0

/-- Channel `c` breaks a rule of R300, beside the first channel that is fitted. -/
def Dev.chanFault (d : Dev) (c : Nat) : Bool :=
  let first := ((d.qryChecked.find? fun c => (d.dimm c).count != 0).map d.dimm).getD {}
  let x := d.dimm c
  if decide (c < 8) || d.qrySixteen then x.count == 0 || x.count != first.count || ! x.rdimm || x.x8 != first.x8 else false

/-- Every channel has trained: the quarry is ready, or its population leaves it disabled (R300, R301). -/
def Dev.quarryTrained (d : Dev) : Dev :=
  let cs := d.qryChecked
  let waiting := (List.range 16).any fun c => let s := d.get QRY_CSTAT.STATE c; s != 1 && s != 3 && s != 4
  if ! d.flag BEN_QRY_CTL.EN || d.flag BEN_QRY_STAT.READY || waiting then d
  else if cs.any d.chanFault then
    (List.range 16).foldl (fun d c => if d.chanFault c then d.chanState c 5
      else if (d.dimm c).count = 0 then d.chanState c 0 else d) d
  else
    let n := if d.qrySixteen then 16 else 8
    let live := cs.filter fun c => decide (c < n)
    let first := d.dimm (live.headD 0)
    let cch := (live.map fun c => (d.dimm c).kib64.toNat).foldl min first.kib64.toNat * 65536
    let d := (List.range 16).foldl (fun d c =>
      if n ≤ c then d.chanState c 0 else if d.get QRY_CSTAT.STATE c = 1 then d.chanState c 2 else d) d
    let d := d.setBen { d.ben with cch := cch, channels := n }
    let d := d.put BEN_QRY_STAT.IN_SERVICE ((live.map fun c => 2 ^ c).sum)
    let d := (d.putb BEN_QRY_STAT.X8 first.x8).putb BEN_QRY_STAT.TWO_DPC (first.count == 2)
    let d := if first.count == 2 && d.get BEN_QRY_STAT.PROFILE == 0 then d.put BEN_QRY_STAT.PROFILE 1 else d
    let cap := (if d.ben.retired.isSome then n - 1 else n) * cch
    let d := if d.ben.retired.isSome && ! d.qryMigrating then d.put BEN_QRY_MIG.ROWS d.qryRows else d
    ((List.range 16).foldl (fun d c => if (d.ben.chan.get c).selfRefresh then d.srExit c else d)
      (d.put BEN_QRY_CAP.BYTES cap)).putb BEN_QRY_STAT.READY true

/-- The controller and PHY of channel `c` run: the channel reports what is fitted and trains. -/
def Dev.chanReady (d : Dev) (c : Nat) (x : Dimm) : Dev :=
  if ! d.flag BEN_QRY_CTL.EN || d.flag BEN_QRY_STAT.READY || d.get QRY_CSTAT.STATE c == 4 then d
  else
    let d := ((d.updChan c fun q => { q with dimm := x }).put QRY_CSTAT.DIMMS x.count.val c).putb QRY_CSTAT.PPR x.ppr c
    (if d.get QRY_CSTAT.STATE c = 3 then d else d.chanState c 1).quarryTrained

/-- BEN_QRY_CTL.EN is cleared: channels in service are no longer, and READY falls. -/
def Dev.quarryDisable (d : Dev) : Dev :=
  let d := (List.range 16).foldl (fun d c =>
    let s := d.get QRY_CSTAT.STATE c
    if s = 3 ∨ s = 4 then d else d.chanState c 0) d
  (d.putb BEN_QRY_STAT.READY false).put BEN_QRY_STAT.IN_SERVICE 0

/-! ### Switching (R40, R426, R427) -/

/-- The housekeeping controller can act: the device is ACTIVE with firmware that runs. -/
def Dev.hkActs (d : Dev) : Bool := d.pwr.aon && d.pwr.mainEn && ! d.pwr.waitPg && ! d.pwr.noFw && ! d.hkAbsent
  && d.get HK_PWR_STAT.STATE == 0

/-- A domain that an enabled block needs is on and its block runs (R40); a quarry channel reports what is fitted. -/
def Dev.blockReadyEff (n : Nat) (x : Dimm) (d : Dev) : Dev :=
  if ! d.hkActs || ! d.pdNeeded n then d
  else
    let d := d.setPwr { d.pwr with needed := d.pwr.needed.set n d.now }
    let d := ((d.pdPut n true).readyShow).outsShow d
    let d := (List.range 8).foldl (fun d j => d.talBanksOn j) d
    if 40 ≤ n ∧ n < 56 then d.chanReady (n - 40) x else d

/-- A domain goes off. -/
def Dev.domainOff (d : Dev) (n : Nat) : Dev :=
  if d.pdOn n then ((d.pdPut n false).domainLost n).readyShow else d

/-- A write of HK_PD_OFF with GO set (R427). -/
def Dev.pdOffEff (dom : Nat) (d : Dev) : Dev :=
  let d := d.put HK_PD_OFF.DOMAIN dom
  if ! d.hkActs || decide (96 ≤ dom) || d.pdNeeded dom then (d.put HK_PD_OFF.RESULT 2).raise 612
  else (d.domainOff dom).put HK_PD_OFF.RESULT 1

/-- No enabled block has needed the domain for HK_PD_LINGER milliseconds (R426): not before that time has passed since the
controller last found it needed. When the need ended, the sender of the row knows (DEDUCED, log entry 46). -/
def Dev.pdLingerExpiryEff (n : Nat) (d : Dev) : Dev :=
  if ! d.hkActs || d.pdNeeded n || ! d.pdOn n then d
  else (d.advanceTo (d.pwr.needed.get n + 1250000 * d.get HK_PD_LINGER.MS)).domainOff n

end Sys2Proof.Machine
end

