-- ==== Sys2Proof/Machine/LaneEnd.lean ====
section
/-!
DEFINITION. The endings of a lane by BINDOFF, FLUSH and a clear of EN (06_record_lanes_and_segments.md R159, R250): they
act at the sample frame that leaves the stage store in their frame.
-/
namespace Sys2Proof.Machine

/-- The lane catches up with its sample frame of this frame: the decision of the unit that its request names, which falls
in the same frame (R30, R136), and the sample frames that it has not taken yet. -/
def Dev.laneCatch (d : Dev) (l : Nat) : Dev :=
  let d := match (d.lanes.lane.get l).cur with
    | some q => d.triggerDecisionEff q.tu (d.now - 214)
    | none => d
  let src := d.get REC_LCTL.SRC l
  let ks := if src < 4 then (d.path.get src).delay.map Frame.k
    else if 0x20 ≤ src ∧ src < 0x28 then (d.logic.get (src - 0x20)).map LogicFrame.k else []
  (ks.filter fun k => decide (d.stageNext ≤ k) && decide (k + 214 ≤ d.now)).foldl (fun d k => d.laneFrame k l) d

/-- The lane ends its open segment and its requests after the sample frame at the lane in this frame (R159). -/
def Dev.laneEndNow (d : Dev) (l outcome : Nat) (cut : Bool) : Dev :=
  ((d.laneCatch l).laneComplete l).laneStop l outcome cut (some (d.now - 214))

/-- A write of REC_LCTL.FLUSH (R159). -/
def Dev.laneFlushEff (l : Nat) (d : Dev) : Dev := d.laneEndNow l 1 false

/-- A clear of REC_LCTL.EN that stands (R159). -/
def Dev.laneDisableEff (l : Nat) (d : Dev) : Dev :=
  if d.flag REC_LCTL.EN l then
    (d.laneEndNow l 7 true).laneOff l
  else d

end Sys2Proof.Machine
end

