-- ==== Sys2Proof/Machine/Signature.lean ====
section
/-!
DEFINITION. The verification of ECDSA P-384 signatures over SHA-384, which R445 names. The function and the curve are those of
FIPS 186-4 (PRESUMED, log entry 21).
-/
namespace Sys2Proof.Machine

/-! ### The curve P-384 -/

/-- The field, the order of the group, the constant b and the base point. -/
def p384P : Nat := 2 ^ 384 - 2 ^ 128 - 2 ^ 96 + 2 ^ 32 - 1
def p384N : Nat :=
  0xffffffffffffffffffffffffffffffffffffffffffffffffc7634d81f4372ddf581a0db248b0a77aecec196accc52973
def p384B : Nat :=
  0xb3312fa7e23ee7e4988e056be3f82d19181d9c6efe8141120314088f5013875ac656398d8a2ed19d2a85c8edd3ec2aef
def p384G : Nat × Nat :=
  (0xaa87ca22be8b05378eb1c71ef320ad746e1d3b628ba79b9859f741e082542a385502f25dbf55296c3a545e3872760ab7,
   0x3617de4a96262c6f5d9e98bf9292dc29f8f41dbd289a147ce9da3113b5f0b8c00a60b1ce1d7e819d7a431d7c90ea0e5f)

/-- A power modulo `m` by the lowest `n` bits of the exponent. -/
def powMod (m : Nat) : Nat → Nat → Nat → Nat
  | 0, _, _ => 1 % m
  | n + 1, b, e => powMod m n (b * b % m) (e / 2) * (if e % 2 = 1 then b else 1) % m

/-- The inverse modulo a prime of 384 bits. -/
def invMod (m a : Nat) : Nat := powMod m 384 (a % m) (m - 2)

/-- A difference in the field. -/
def subP (a b : Nat) : Nat := (a + p384P - b % p384P) % p384P

/-- The sum of two points; `none` is the point at infinity. -/
def p384Add : Option (Nat × Nat) → Option (Nat × Nat) → Option (Nat × Nat)
  | none, b => b
  | a, none => a
  | some (x1, y1), some (x2, y2) =>
    if x1 = x2 ∧ (y1 + y2) % p384P = 0 then none
    else
      let l := if x1 = x2 then subP (3 * x1 * x1) 3 * invMod p384P (2 * y1) % p384P
        else subP y2 y1 * invMod p384P (subP x2 x1) % p384P
      let x := subP (subP (l * l) x1) x2
      some (x, subP (l * subP x1 x) y1)

/-- A multiple of a point by the lowest `n` bits of the factor. -/
def p384Mul : Nat → Nat → Option (Nat × Nat) → Option (Nat × Nat)
  | 0, _, _ => none
  | n + 1, k, q => p384Add (if k % 2 = 1 then q else none) (p384Mul n (k / 2) (p384Add q q))

/-- The public key of 97 bytes, an uncompressed point of the curve. -/
def p384Point (l : List (BitVec 8)) : Option (Nat × Nat) :=
  let x := beNat ((l.drop 1).take 48)
  let y := beNat ((l.drop 49).take 48)
  if l.headD 0 = 4 ∧ l.length = 97 ∧ x < p384P ∧ y < p384P
      ∧ y * y % p384P = (x * x * x + (p384P - 3) * x + p384B) % p384P
  then some (x, y) else none

/-- The signature (r, s) of a message verifies with a public key. -/
def ecdsaVerify (key msg : List (BitVec 8)) (r s : Nat) : Bool :=
  match p384Point key with
  | none => false
  | some q =>
    if r = 0 ∨ s = 0 ∨ p384N ≤ r ∨ p384N ≤ s then false
    else
      let e := beNat (sha384 msg)
      let w := invMod p384N s
      match p384Add (p384Mul 384 (e * w % p384N) (some p384G)) (p384Mul 384 (r * w % p384N) (some q)) with
      | none => false
      | some (x, _) => x % p384N == r

end Sys2Proof.Machine
end

