-- ==== Sys2Proof/Machine/Security.lean ====
section
/-!
DEFINITION. Life cycle and security (20_life_cycle_and_security.md R445-R457): signed commands, the entry into RETURN, the
SPDM responder and PCI Express IDE.
-/
namespace Sys2Proof.Machine

/-- SEC_NONCE takes a new random value (R448). -/
def Dev.newNonce (d : Dev) : Dev := d.putFree SEC_NONCE.VALUE

/-! ### Signed commands (R447, R448) -/

/-- The bytes of the command at SEC_CMD_SRC: block, public key and, for RETURN, the second block and its key. -/
def Dev.secBytes (d : Dev) : List Byte := d.ben.bench.bytes (d.get SEC_CMD_SRC.OFS) 642

/-- The KIND of the block (R447). -/
def Dev.secKind (d : Dev) : Nat := field d.secBytes 4 1

/-- The fields of a block are valid: MAGIC, KIND, SCOPE, KEY_HASH where none belongs, reserved bytes. -/
def secFormat (l : List Byte) : Bool :=
  let kind := field l 4 1
  field l 0 4 == 0x434C5147 && decide (1 ≤ kind) && decide (kind ≤ 7)
    && (if kind = 5 then decide (field l 6 2 < 8) else field l 6 2 == 0)
    && (decide (kind ≤ 3) || field l 0x18 48 == 0) && field l 0x48 56 == 0

/-- DEVICE_UID and NONCE of a block are the device's. -/
def Dev.secFresh (d : Dev) (l : List Byte) : Bool :=
  field l 8 8 == d.get SEC_UID.VALUE && field l 0x10 8 == d.get SEC_NONCE.VALUE

/-- Owner slot `n` is used and not revoked. -/
def Dev.ownerLive (d : Dev) (n : Nat) : Bool :=
  decide (n < d.sec.ok.length) && ! d.bitOf GLB_LC.OK_REVOKED n

/-- The KIND is allowed in the present state; SLOT names the slot that it can act on (log entry 24). -/
def Dev.secAllowed (d : Dev) (l : List Byte) : Bool :=
  let slot := field l 5 1
  match field l 4 1, d.get GLB_LC.STATE with
  | 1, 0 => true
  | 2, 1 => true
  | 3, 2 => slot == d.sec.ok.length && decide (slot < 4)
  | 4, 2 => d.ownerLive slot
  | 5, 1 => true
  | 5, 2 => true
  | 6, 2 => true
  | _, _ => false

/-- The hash of a signer's public key matches the key that a KIND needs, in an unrevoked slot. -/
def Dev.secSigner (d : Dev) (kind slot : Nat) (hash : List Byte) : Bool :=
  match kind with
  | 1 => hash == Config.vendorKey
  | 2 => hash == d.sec.cmk && ! d.flag GLB_LC.CMK_REVOKED
  | 3 => (List.range 4).any fun n => d.ownerLive n && d.sec.ok.getD n [] == hash
  | 4 => (List.range 4).any fun n => n != slot && d.ownerLive n && d.sec.ok.getD n [] == hash
  | 5 => if d.get GLB_LC.STATE = 1 then hash == d.sec.cmk && ! d.flag GLB_LC.CMK_REVOKED
         else d.ownerLive slot && d.sec.ok.getD slot [] == hash
  | 6 => d.ownerLive slot && d.sec.ok.getD slot [] == hash
  | 7 => hash == Config.vendorKey
  | _ => false

/-- The signature of a block verifies: r and s are little-endian (R447). -/
def secVerify (l key : List Byte) : Bool := ecdsaVerify key (l.take 128) (field l 0x80 48) (field l 0xB0 48)

/-- The first check of R448 after BUSY that fails, as RESULT; 2 when all but the fuses hold. -/
def Dev.secCheck (d : Dev) : Nat :=
  let l := d.secBytes
  let block := l.take 224
  let key := (l.drop 224).take 97
  let kind := field block 4 1
  let slot := field block 5 1
  let pair := kind = 6
  let block2 := (l.drop 321).take 224
  let key2 := (l.drop 545).take 97
  if ! secFormat block || kind == 7 || (pair && (! secFormat block2 || field block2 4 1 != 7)) then 4
  else if ! d.secFresh block || (pair && ! d.secFresh block2) then 5
  else if ! d.secAllowed block then 6
  else if ! d.secSigner kind slot (sha384 key) || (pair && ! d.secSigner 7 0 (sha384 key2)) then 7
  else if ! secVerify block key || (pair && ! secVerify block2 key2) then 8
  else 2

/-- A command ends with a result: the event, and a new nonce. -/
def Dev.secResult (d : Dev) (r : Nat) : Dev :=
  let d := if r = 3 then d else d.setSec { d.sec with running := none, block := [] }
  ((d.put SEC_STAT.RESULT r).raise (if r = 2 then 625 else 626)).newNonce

/-- What measurement register `i` measures (R452): the boot ROM, the image that runs, the life-cycle state with the key hashes,
the debug scopes. -/
def Dev.measuredItems (d : Dev) (i : Nat) : List Nat :=
  match i with
  | 2 => let s := if d.pwr.runB then d.pwr.slotB else d.pwr.slotA
         [s.version, s.epoch, s.image]
  | 3 => d.get GLB_LC.STATE :: d.get GLB_LC.EPOCH :: d.get GLB_LC.OK_REVOKED :: d.get GLB_LC.CMK_REVOKED
      :: (d.sec.cmk :: d.sec.ok).map leNat
  | 4 => [d.get SEC_STAT.SCOPE_OPEN]
  | _ => []

/-- Measurement register `i` takes the hash of what it measures, whose form the spec leaves open (R452). -/
def Dev.measure (d : Dev) (i : Nat) : Dev :=
  d.setSec { d.sec with meas := d.sec.meas.set i (Config.measured i (d.measuredItems i)).toNat }

/-- The measurements of a boot (R452). -/
def Dev.measureAll (d : Dev) : Dev := (((d.measure 1).measure 2).measure 3).measure 4

/-- GLB_LC.STATE changes. -/
def Dev.lcState (d : Dev) (st : Nat) : Dev := (d.put GLB_LC.STATE st).raise 624

/-- Debug scopes open until the next reset (R448, R449). -/
def Dev.scopesOpen (d : Dev) (scope : Nat) : Dev :=
  if scope = 0 then d else ((d.put SEC_STAT.SCOPE_OPEN (d.get SEC_STAT.SCOPE_OPEN ||| scope)).raise 627).measure 4

/-- Every session ends and every IDE key is gone. -/
def Dev.spdmClear (d : Dev) : Dev :=
  d.setSec { d.sec with session := [], ide := [], agreed := 0 }

/-- Steps 2 to 7 of the entry into RETURN (R450), from which a boot resumes. -/
def Dev.returnErase (d : Dev) : Dev :=
  let d := (List.range 16).foldl (fun d l => if d.flag REC_LCTL.EN l then d.laneDisableEff l else d) d
  let d := (d.put GLB_LC.OK_REVOKED 15).putb GLB_LC.CMK_REVOKED true
  let d := (List.range 4).foldl (fun d k => (List.range 8).foldl (fun d i => d.faKeyWriteEff k i 0) d) d
  let d := (List.range 2).foldl (fun d s => if (d.sec.session.get s).state = 0 then d else d.raise 629) d
  let d := d.spdmClear
  let d := (d.setBen { d.ben with bench := [], benchPoison := [] }).setTal { d.tal with mem := [] }
  let d := (d.setRas { d.ras with mem := [] }).setNdl { d.ndl with prog := [] }
  (d.putb GLB_LC.ERASE_DONE true).raise 628

/-- The entry into RETURN (R450). -/
def Dev.enterReturn (d : Dev) : Dev := (d.lcState 3).returnErase

/-- The effect of a command, with its bytes, whose checks have passed. -/
def Dev.secEffect (d : Dev) (kind : Nat) (l : List Byte) : Dev :=
  let hash := (l.drop 0x18).take 48
  let slot := field l 5 1
  match kind with
  | 1 => (d.setSec { d.sec with cmk := hash }).lcState 1
  | 2 => ((d.setSec { d.sec with ok := [hash] }).put SEC_STAT.SCOPE_OPEN 0).lcState 2
  | 3 => (d.setSec { d.sec with ok := d.sec.ok ++ [hash] }).put GLB_LC.OK_USED d.sec.ok.length
  | 4 => d.putBit GLB_LC.OK_REVOKED slot true
  | 5 => d.scopesOpen (field l 6 2)
  | 6 => d.enterReturn
  | _ => d

/-- A write of SEC_CMD.GO: a command that fails a check, or needs no fuse, ends at once (R448, R455). -/
def Dev.secGo (d : Dev) : Dev :=
  if d.sec.running.isSome || d.get HK_PWR_STAT.STATE != 0 || d.pwr.fwTrial.isSome then d.secResult 3
  else
    let r := d.secCheck
    if r ≠ 2 then d.secResult r
    else if d.secKind = 5 then (d.secEffect 5 d.secBytes).secResult 2
    else (d.setSec { d.sec with running := some d.secKind, block := d.secBytes }).put SEC_STAT.RESULT 1

/-- A command of KIND `kind`: its GO, unless it runs already, and its end once its fuses have burnt, or not. -/
def Dev.signedCommand (kind : Nat) (fuses : Bool) (d : Dev) : Dev :=
  let d := if d.sec.running.isNone && d.secKind == kind then d.secGo else d
  if d.sec.running = some kind then
    if fuses then (d.secEffect kind d.sec.block).secResult 2 else d.secResult 9
  else d

/-- A signed DEBUG token. -/
def Dev.debugEff (d : Dev) : Dev := if d.secKind = 5 then d.secGo else d

/-! ### The SPDM responder (R453), whose response codes are those of SPDM 1.2 (PRESUMED, log entry 25) -/

/-- A response, with what it reports; nothing answers while the link is down. -/
def Dev.spdmAnswer (d : Dev) (code : Nat) (report : List Nat := []) : Dev :=
  d.setSec { d.sec with answer := code, report := report }

/-- The error response. -/
def Dev.spdmError (d : Dev) : Dev := d.spdmAnswer 0x7F

/-- A request that needs `n` steps of the negotiation. -/
def Dev.spdmRequest (d : Dev) (n : Nat) (f : Dev → Dev) : Dev :=
  if ! d.link.up then d else if n ≤ d.sec.agreed then f d else d.spdmError

/-- Change a session. -/
def Dev.updSession (d : Dev) (s : Nat) (f : Spdm → Spdm) : Dev :=
  d.setSec { d.sec with session := d.sec.session.upd s f }

def Dev.agree (d : Dev) (n : Nat) : Dev := d.setSec { d.sec with agreed := n }

def Dev.getVersionEff (d : Dev) : Dev := d.spdmRequest 0 fun d => (d.agree 1).spdmAnswer 0x04
def Dev.getCapabilitiesEff (d : Dev) : Dev := d.spdmRequest 1 fun d => (d.agree (max 2 d.sec.agreed)).spdmAnswer 0x61
def Dev.negotiateAlgorithmsEff (d : Dev) : Dev :=
  d.spdmRequest 2 fun d => (d.agree (max 3 d.sec.agreed)).spdmAnswer 0x63
def Dev.getDigestsEff (d : Dev) : Dev := d.spdmRequest 3 fun d => d.spdmAnswer 0x01
/-- Certificate slots 0 and 1. -/
def Dev.getCertificateEff (slot : Nat) (d : Dev) : Dev :=
  d.spdmRequest 3 fun d => if slot < 2 then d.spdmAnswer 0x02 [slot] else d.spdmError
def Dev.challengeEff (slot : Nat) (d : Dev) : Dev :=
  d.spdmRequest 3 fun d => if slot < 2 then d.spdmAnswer 0x03 [slot] else d.spdmError

/-- GET_MEASUREMENTS (R452): index 0 asks for the number of registers, 255 for all of them. -/
def Dev.getMeasurementsEff (index : Nat) (d : Dev) : Dev :=
  d.spdmRequest 3 fun d =>
    if index = 0 then d.spdmAnswer 0x60 [4]
    else if index = 255 then d.spdmAnswer 0x60 ((List.range 4).map fun i => d.sec.meas.get (i + 1))
    else if index ≤ 4 then d.spdmAnswer 0x60 [d.sec.meas.get index]
    else d.spdmError

/-- KEY_EXCHANGE starts one of up to two sessions. -/
def Dev.keyExchangeEff (d : Dev) : Dev :=
  d.spdmRequest 3 fun d =>
    match (List.range 2).find? fun s => (d.sec.session.get s).state == 0 with
    | some s => (d.updSession s fun _ => { state := 1 }).spdmAnswer 0x64 [s]
    | none => d.spdmError

/-- A request inside a session in a state. -/
def Dev.inSession (d : Dev) (s state : Nat) (f : Dev → Dev) : Dev :=
  d.spdmRequest 3 fun d => if (d.sec.session.get s).state = state then f d else d.spdmError

def Dev.finishEff (s : Nat) (d : Dev) : Dev :=
  d.inSession s 1 fun d => ((d.updSession s fun x => { x with state := 2 }).raise 629).spdmAnswer 0x65 [s]
def Dev.keyUpdateEff (s : Nat) (d : Dev) : Dev :=
  d.inSession s 2 fun d => (d.updSession s fun x => { x with updates := x.updates + 1 }).spdmAnswer 0x69 [s]
def Dev.heartbeatEff (s : Nat) (d : Dev) : Dev := d.inSession s 2 fun d => d.spdmAnswer 0x68 [s]
def Dev.endSessionEff (s : Nat) (d : Dev) : Dev :=
  d.inSession s 2 fun d => ((d.updSession s fun _ => {}).raise 629).spdmAnswer 0x6C [s]

/-- IDE_KM inside a session (R454): a key set is delivered for a stream, or takes effect. -/
def Dev.vendorDefinedRequestEff (s stream : Nat) (key : Option (BitVec 256)) (d : Dev) : Dev :=
  d.inSession s 2 fun d =>
    let x := d.sec.ide.get stream
    let x : IdeStream := match key with
      | some k => { state := 1, key := k }
      | none => if x.state = 1 then { x with state := 2 } else x
    (d.setSec { d.sec with ide := d.sec.ide.set stream x }).spdmAnswer 0x7E [stream]

/-- A received TLP fails its integrity check (R454). -/
def Dev.ideErrorEff (stream : Nat) (d : Dev) : Dev :=
  let x := d.sec.ide.get stream
  if x.state = 2 then
    let d := d.setSec { d.sec with ide := d.sec.ide.set stream { x with state := 3 } }
    (d.count SEC_CNT_IDE.COUNT).raise 630
  else d

end Sys2Proof.Machine
end

