-- ==== Sys2Proof/Machine/Resets.lean ====
section
/-!
DEFINITION. Resets (19_power_reset_and_live_update.md R434-R436, with R91, R109, R213, R233, R256, R317, R321, R364, R402,
R422 for what each block keeps): the drain, the reset of the engine, the loss of the main supplies and of AON.
-/
namespace Sys2Proof.Machine

/-! ### The drain (R435) -/

/-- Every test session ends ABORTED (R470). -/
def Dev.testsAbort (d : Dev) : Dev :=
  (List.range 8).foldl (fun d s =>
    if d.flag TST_CTL.EN s then d.testEnd (d.get TST_CTL.IF s) (d.get TST_CTL.UNIT s) 8 else d) d

/-- Every channel in service enters self-refresh; a change of frequency that has passed SRE completes its exit at the
profile that PROFILE shows then, an earlier one is given up (R317, R320). -/
def Dev.quarrySleep (d : Dev) : Dev :=
  let d := match d.ben.freqStart with
    | some f => if f + 1564 ≤ d.now then d.put BEN_QRY_STAT.PROFILE d.ben.freqTarget else d
    | none => d
  let d := (d.setBen { d.ben with freqStart := none, freqWaiting := false }).putb BEN_QRY_STAT.FREQ_BUSY false
  ((List.range 16).foldl (fun d c =>
    if d.qryServes c then d.updChan c fun x => { x with selfRefresh := true, waiting := [] } else d) d).srShow

/-- A reset is requested: every block writes out what it owes (R435). -/
def Dev.drainStart (d : Dev) (r : Drain) : Dev :=
  let d := d.setPwr { d.pwr with drain := some { r with frame := d.now } }
  let d := (List.range 8).foldl (fun d j => d.talWrites j) d
  let d := (List.range 16).foldl (fun d l => if d.flag REC_LCTL.EN l then d.laneStop l 5 true none else d) d
  let d := d.eviDrain.hoistAbort
  let d := (List.range 64).foldl (fun d c => d.xferAbort c) d
  let d := d.que.q.foldl (fun d x => d.cmdsAbort x.1) d
  let d := (List.range 4).foldl (fun d u => (d.stmCancelAll u).swatchAbort u) d
  let d := (List.range 3).foldl (fun d p => d.windowAbandon p fun _ => true) d
  d.trigBusReset.testsAbort.quarrySleep

/-- Two requests merge: the stronger kind applies (R435). -/
def Drain.merge (a b : Drain) : Drain := if b.warm && ! a.warm then { a with warm := true, cause := b.cause } else a

/-- A warm or engine soft reset is requested (R434, R435, R442). Without firmware only the link goes down (R438). -/
def Dev.resetRequest (warm : Bool) (cause : Nat) (d : Dev) : Dev :=
  let r : Drain := ⟨d.now, warm, cause⟩
  if ! d.pwr.aon || ! d.pwr.mainEn || d.pwr.waitPg then d
  else if d.pwr.noFw then (if cause = 2 ∨ cause = 3 then (d.setLink {}) else d)
  else if d.pwr.wake.isSome then
    d.setPwr { d.pwr with later := some ((d.pwr.later.map fun a => a.merge r).getD r) }
  else match d.pwr.drain with
    | some a => d.setPwr { d.pwr with drain := some (a.merge r) }
    | none => d.drainStart r

/-- Items and log entries on their way reach their queues. -/
def Dev.itemsSettle (d : Dev) : Dev :=
  let it := d.que.items
  let d := it.foldl (fun d x => d.placeItem x) (d.setQue { d.que with items := [] })
  let f := d.evr.fifo
  f.foldl (fun d x => d.placeItem x) (d.setEvr { d.evr with fifo := [] })

/-- Records that still wait leave for their queues, and so do the entries of the hoist. -/
def Dev.recordsSettle (d : Dev) : Dev :=
  let d := d.setTal { d.tal with job := [] }
  let d := (List.range 16).foldl (fun d l =>
    let x := d.lanes.lane.get l
    (List.range (x.await.length + x.noEntry.length)).foldl (fun d _ => (d.closeEntryFreedEff l).segmentRecordEff l) d) d
  let out := d.lanes.done
  let d := out.foldl (fun d r => d.post (d.get REC_LQUEUE.Q r.lane) 2 0 r.lane r.bytes)
    (d.setLanes { d.lanes with done := [] })
  (List.range 64).foldl (fun d t =>
    (List.range (d.ben.target.get t).due.length).foldl (fun d _ => d.hoistEntryEff t) d) d

/-! ### What each reset keeps (R436) -/

/-- All 64 bits. -/
def allBits : W64 := ~~~ (0 : W64)

/-- The register lies in the HK block, which is in AON. -/
def Rg.inHk (g : Rg) : Bool := g.fam.base / 0x100000 == 1

/-- The bits of a register that a warm or engine soft reset keeps. -/
def Rg.keptSoft (g : Rg) : W64 :=
  match g with
  | .GLB_LC | .TB_REF_STAT | .TB_PHASE_ERR | .TB_TAI_SEC | .TB_TAI_OFS | .TB_SLEW => allBits
  | .CV_SUB_ACT | .CV_TSW_TICK | .CV_SWAP_CNT | .CV_DEGWIN_SEQ | .NDL_CNT_ISSUE => allBits
  | .CV_TBL_STAT => maskBits 1 1
  | .CV_GRP_STAT => maskBits 16 11
  | .NDL_WIN | .NDL_ENTRY => allBits
  | .QUE_STAT => 7
  | .SYN_SYSID | .SYN_LAUNCH_K | .SYN_IDLY | .SYN_TRIM => allBits
  | .BEN_QRY_CAP | .BEN_QRY_MIG | .BEN_QRY_RETIRE | .QRY_CSTAT | .QRY_RRT => allBits
  | .BEN_QRY_STAT => maskBits 8 2 ||| maskBits 3 1
  | .ETH_FA_KCTL | .ETH_FA_LAST => allBits
  | g => if g.inHk then allBits else 0

/-- The bits that a power-on reset keeps: AON, fuses and flash. -/
def Rg.keptPower (g : Rg) : W64 :=
  match g with
  | .GLB_LC | .TB_TAI_SEC | .TB_TAI_OFS | .TB_SLEW | .TB_PHASE_ERR => allBits
  | .TB_REF_STAT => 1
  | .CV_GRP_STAT => maskBits 16 11
  | .HK_PD_STAT => 0
  | g => if g.inHk then allBits else 0

/-- The bits that an AON power-on keeps: fuses and flash. -/
def Rg.keptFlash (g : Rg) : W64 :=
  match g with
  | .GLB_LC => allBits
  | .CV_GRP_STAT => maskBits 16 11
  | _ => 0

/-- The registers after a reset that keeps `keep`; the others take their reset values. -/
def Dev.keptRegs (d : Dev) (keep : Rg → W64) : Regs :=
  d.regs.filterMap fun (r, v) =>
    let v' := (v &&& keep r.g) ||| (r.reset &&& ~~~ keep r.g)
    if v' = r.reset then none else some (r, v')

/-- A commit whose frame c + 16 has come keeps its new copies (R91). -/
def Dev.commitStand (d : Dev) (n : Nat) : Dev :=
  match (d.slice.get n).commit with
  | none => d
  | some c =>
    if d.now < c.c + 16 then d
    else d.roleSwitch n c

/-- The spare and the slots of a group, which stand over a reset, as the rotations so far have left them (R91). -/
def Dev.groupKept (d : Dev) (n h : Nat) : Group :=
  let g := (d.slice.get n).group.get h
  { slot := g.slot
    stands := if d.get CV_GRP_STAT.STATE n h = 4 then g.stands
      else some (d.get CV_GRP_STAT.SPARE n h, (d.slots n h).filter fun u => decide (u < 11)) }

/-- The tables of a slice, their flash, and what stands of its groups. -/
def Dev.sliceKept (d : Dev) (n : Nat) : Slice :=
  let x := d.slice.get n
  { group := (List.range 8).foldl (fun t h => t.set h (d.groupKept n h)) []
    tab := x.tab, flash := x.flash, saved := x.saved }

/-- What the flash keeps of a slice. -/
def Slice.inFlash (x : Slice) : Slice := { flash := x.flash, saved := x.saved }

/-- A table in which every entry has been changed by `f`. -/
def Tab.mapped {α : Type} [Inhabited α] [DecidableEq α] (t : Tab α) (f : α → α) : Tab α :=
  t.foldl (fun r x => Tab.set r x.1 (f x.2)) []

/-- The gauge tables in flash (R229). -/
def EventIn.kept (e : EventIn) : EventIn :=
  { inp := Tab.mapped e.inp fun x => { saved := x.saved }, savedAt := e.savedAt }

/-- A quarry channel in self-refresh. -/
def QChan.kept (x : QChan) : QChan :=
  { ceRow := x.ceRow, selfRefresh := x.selfRefresh, copying := x.copying, proposed := x.proposed, dimm := x.dimm }

/-- What stands in shadow before an engine reset is settled first: SWATCH, and every queue the reset disables; the quarry
lets its channels go (R435). -/
def Dev.resetPrepare (d : Dev) : Dev :=
  let d := (List.range 4).foldl Dev.commitStand d
  let d := d.que.q.foldl (fun d x => d.queueDisableEff x.1) d
  let d := (List.range 4096).foldl (fun d q => if d.flag QUE_CTL.EN q then d.queueDisableEff q else d) d
  d.quarryDisable

/-- What an engine reset keeps (R435, R436); a warm one lets the link, the vectors and the sessions go too. -/
def Dev.resetKept (d : Dev) (warm : Bool) : Dev :=
  let b := d.ben
  { now := d.now, freeSeq := d.freeSeq, regs := d.keptRegs Rg.keptSoft, stageNext := d.stageNext
    slice := (List.range 4).foldl (fun t n => t.set n (d.sliceKept n)) []
    tb := { d.tb with armed := none, due := none, nowSeq := 0, ppsSeq := 0, ppsOut := none, ptpState := 0, ptpSent := [] }
    tal := { mem := d.tal.mem }
    evi := d.evi.kept
    ndl := { prog := d.ndl.prog }
    ben := { bench := b.bench, quarry := b.quarry, benchPoison := b.benchPoison, quarryPoison := b.quarryPoison
             chan := Tab.mapped b.chan QChan.kept, retired := b.retired, cch := b.cch, channels := b.channels
             journal := b.journal, patrol := b.patrol }
    link := if warm then {} else d.link
    que := { vec := if warm then [] else d.que.vec, hostMem := d.que.hostMem }
    faKey := d.faKey
    ras := { mem := d.ras.mem }
    pwr := d.pwr
    sec := if warm then { cmk := d.sec.cmk, ok := d.sec.ok, meas := d.sec.meas }
           else { d.sec with running := none } }

/-- The register fields an engine reset shows: a retirement that ended, the retained quarry, and the results of what the
reset aborted in `d` (R435). -/
def Dev.resetShows (d e : Dev) : Dev :=
  let e := e.put BEN_QRY_RETIRE.STATE (if d.ben.retired.isNone then 0 else if d.qryMigrating then 2 else 3)
  let e := e.putb BEN_QRY_STAT.RETAINED (d.ben.channels != 0)
  let e := (List.range 4).foldl (fun e n => if d.get CV_SWATCH_STAT.RESULT n == 5 then e.put CV_SWATCH_STAT.RESULT 5 n
    else e) e
  let e := (List.range 8).foldl (fun e s => if d.get TST_STAT.RESULT s == 8 then e.put TST_STAT.RESULT 8 s else e) e
  if d.get EVI_GAUGE_STAT.RESULT == 6 then e.put EVI_GAUGE_STAT.RESULT 6 else e

/-- TB_REF_CTL.SEL and TB_PPS_CTL.ALIGN_SRC are AUTO and NONE again: the source is chosen anew (R95), and an alignment that
waited is complete (R107). -/
def Dev.tbReset (e d : Dev) : Dev :=
  let e := if d.tbSel = 0 then e else e.tbSelWritten
  if e.tb.aligning then e.tbAligned else e

/-- The engine takes its reset values at the end of a drain (R435, R436). -/
def Dev.engineReset (d : Dev) (warm : Bool) : Dev :=
  let d := d.resetPrepare
  ((d.resetShows (d.resetKept warm)).tbReset d).readyShow.newNonce

/-- The drain is over (R435, R436): what is left goes to its queues, the engine resets, and RESET_DONE is raised. A queue
state saved for a wake is reset with the rest. -/
def Dev.drainEndEff (d : Dev) : Dev :=
  match d.pwr.drain with
  | none => d
  | some r =>
    let d := d.eviDrain.recordsSettle.eventsSettle.itemsSettle.eventsSettle.itemsSettle
    let d := d.engineReset r.warm
    let d := d.setPwr { d.pwr with drain := none, domains := [], ready := [], doorbells := [] }
    (d.put HK_RST_CAUSE.CAUSE r.cause).raise 617

/-- The retired mark, which the flash keeps; a quarry whose contents are gone has nothing left to move (R317). -/
def Dev.retiredMark (d e : Dev) : Dev :=
  match d.ben.retired with
  | none => e
  | some k =>
    let e := e.setBen { e.ben with retired := some k }
    let e := ((e.put BEN_QRY_RETIRE.STATE 3).put BEN_QRY_RETIRE.CHANNEL k).put QRY_CSTAT.STATE 4 k
    if d.qryMigrating then e.raise 508 else e

/-- The main supplies are gone: everything except AON is lost (R109, R436). The keeper takes the count. -/
def Dev.mainLost (d : Dev) : Dev :=
  let d := d.slewMark false
  let keeper := if d.tb.locked then some ⟨d.now, d.countAt d.now % 2 ^ 72⟩ else d.tb.keeper
  let e : Dev :=
    { now := d.now, freeSeq := d.freeSeq, regs := d.keptRegs Rg.keptPower, stageNext := d.stageNext
      slice := Tab.mapped d.slice Slice.inFlash
      tb := { epochs := d.tb.epochs, keeper := keeper, refSince := d.tb.refSince, extSince := d.tb.extSince }
      evi := d.evi.kept
      ben := { journal := d.ben.journal }
      que := { hostMem := d.que.hostMem }
      pwr := { d.pwr with drain := none, later := none, wake := none, domains := [], ready := [], doorbells := [] }
      sec := { cmk := d.sec.cmk, ok := d.sec.ok, meas := d.sec.meas } }
  ((d.retiredMark e).put HK_PD_STAT.ON (2 ^ 26) 1).newNonce

/-- AON is gone: only fuses and flash keep what they hold (R109, R436). -/
def Dev.aonLost (d : Dev) : Dev :=
  let e : Dev :=
    { now := d.now, freeSeq := d.freeSeq, regs := d.keptRegs Rg.keptFlash, stageNext := d.stageNext
      slice := Tab.mapped d.slice Slice.inFlash
      tb := { epochs := [{ frame := d.now }] }
      evi := d.evi.kept
      que := { hostMem := d.que.hostMem }
      pwr := { slotA := d.pwr.slotA, slotB := d.pwr.slotB, aon := false, mainEn := false }
      sec := { cmk := d.sec.cmk, ok := d.sec.ok } }
  match d.ben.retired with
  | some k => ((e.setBen { e.ben with retired := some k }).put QRY_CSTAT.STATE (if d.qryMigrating then 3 else 4) k).newNonce
  | none => e.newNonce

/-! ### The kinds (R434) -/

/-- A write of HK_RST: only with KEY 0xA5 (R434). -/
def Dev.hkReset (warm : Bool) (key : Byte) (d : Dev) : Dev :=
  if key = 0xA5 then d.resetRequest warm (if warm then 5 else 6) else d

/-- MAIN_PG falls while MAIN_EN is high (R428). -/
def Dev.supplyFaultEff (d : Dev) : Dev :=
  if ! d.pwr.aon || ! d.pwr.mainEn || d.pwr.waitPg then d
  else
    let d := d.mainLost
    let d := d.setPwr { d.pwr with waitPg := true }
    ((d.put HK_PWR_STAT.STATE 0).put HK_RST_CAUSE.CAUSE 1).raise 616

/-- MAIN_PG rises: a power-on reset completes, the one that leaves DORMANT with its own cause (R432, R434). -/
def Dev.mainPgRiseEff (d : Dev) : Dev :=
  if ! d.pwr.waitPg then d
  else
    let d := if d.pwr.wake.isSome then d.put HK_RST_CAUSE.CAUSE (if d.pwr.tripped then 7 else 8) else d
    (d.setPwr { d.pwr with waitPg := false, tripped := false }).raise 617

/-- AON is powered up: an AON power-on (R434); MAIN_EN stays low until the boot (R428). -/
def Dev.aonPowerOnEff (d : Dev) : Dev :=
  let d := d.aonLost
  (d.retiredMark (d.setPwr { d.pwr with aon := true })).put HK_RST_CAUSE.CAUSE 0

end Sys2Proof.Machine
end

