-- ==== Sys2Proof/Machine/Power.lean ====
section
/-!
DEFINITION. Standby, wake, temperatures, boot and firmware (19_power_reset_and_live_update.md R428-R433, R437-R442).
-/
namespace Sys2Proof.Machine

/-! ### Standby (R429, R430) -/

/-- A spare, or the whole of slice `n`, is being calibrated. -/
def Dev.sliceSweeps (d : Dev) (n : Nat) : Bool :=
  let x := d.slice.get n
  d.flag CV_SCTL.EN n && (! x.calDone
    || (List.range 8).any fun h => d.get CV_GRP_STAT.STATE n h == 0 && ! (x.group.get h).calOk)

/-- One of the operations of R430 runs, firmware switches apart. -/
def Dev.opsRun (d : Dev) : Bool :=
  ((List.range 4).any fun n => (d.slice.get n).swatch.isSome || d.sliceSweeps n) || d.evi.gauging.isSome
    || d.qryMigrating || d.flag BEN_QRY_STAT.FREQ_BUSY

/-- Time is handed to the keeper, and the synthesiser stops (R108). -/
def Dev.tbSleep (d : Dev) : Dev :=
  let keeper := if d.tb.locked then some ⟨d.now, d.countAt d.now % 2 ^ 72⟩ else d.tb.keeper
  let d := ((d.tbEnter 0).tbActive 0).originCancel
  let gap := if d.tb.locked then d.now else d.tb.gapFrom
  d.setTb { d.tb with locked := false, gapFrom := gap, lost := false, aligning := false, removing := false, ppsOut := none
                      keeper := keeper }

/-- The steps of standby entry (R430); outputs go idle and lines are released (R492). With `dormant` MAIN_EN drops and
everything but AON is lost. -/
def Dev.standbyEnter (d : Dev) (dormant : Bool) : Dev :=
  let d := ((List.range 4).foldl Dev.tableSave d).gaugeSave
  let d := d.setEvi { d.evi with savedAt := some d.now }
  let d := d.testsAbort
  let on := (List.range 96).filter fun n => d.pdOn n && n != 58
  let ready : List (Reg × W64) := [(⟨.BEN_QRY_STAT, 0, 0, 0⟩, d.rd ⟨.BEN_QRY_STAT, 0, 0, 0⟩)]
  let d := d.quarrySleep
  let d := (List.range 4).foldl (fun d n => d.sliceClockLossEff n) d.tbSleep
  let d := (List.range 48).foldl (fun d x => if pinExists x then d.pinIdle x else d) d
  let d := on.foldl (fun d n => let d := d.pdPut n false
                                if 76 ≤ n ∧ n ≤ 84 then d.domainLost n else d) d
  let d := d.readyShow.putb BEN_QRY_STAT.READY false
  let d := d.setPwr { d.pwr with domains := on, ready := ready }
  let d := (((d.put HK_PWR_STAT.STATE 1).put HK_PWR_STAT.RESULT 1).raise 608).decision 11 0 0
  if dormant then
    let d := d.eventsSettle.itemsSettle.mainLost
    (d.setPwr { d.pwr with mainEn := false }).put HK_PWR_STAT.STATE 2
  else d

/-- A write of HK_PWR_CTL with STANDBY set (R430). -/
def Dev.standbyEff (dormant : Bool) (d : Dev) : Dev :=
  let d := d.putb HK_PWR_CTL.DORMANT dormant
  if ! d.pwr.aon || ! d.pwr.mainEn || d.pwr.waitPg || d.pwr.noFw || d.pwr.drain.isSome || d.get HK_PWR_STAT.STATE != 0 then d
  else if d.recordOpen || d.opsRun || d.pwr.fwTrial.isSome then (d.put HK_PWR_STAT.RESULT 2).raise 609
  else d.standbyEnter dormant

/-! ### Wake (R432, R433) -/

/-- The keeper's TICK (R108). -/
def Dev.keeperTick (d : Dev) : Nat :=
  match d.tb.keeper with
  | some k => (k.val + 3200 * ((d.now - k.frame) / 50)) % 2 ^ 64
  | none => d.tick

/-- Source `code` wakes the device if it is enabled; HOST and DOORBELL only from STANDBY. -/
def Dev.wakeFrom (d : Dev) (code : Nat) : Dev :=
  let st := d.get HK_PWR_STAT.STATE
  let enabled := d.get HK_WAKE_CTL.SRC / 2 ^ code % 2 == 1
  if ! d.pwr.aon || st == 0 || d.pwr.wake.isSome || d.pwr.hot || d.pwr.noFw || ! enabled || (decide (code ≤ 1) && st != 1) then d
  else
    let d := (d.put HK_WAKE_CAUSE.SRC code).put HK_WAKE_CAUSE.TICK d.keeperTick
    let d := d.setPwr { d.pwr with wake := some (code, d.now) }
    let d := (d.raise 610).decision 12 0 code
    if st = 1 then d.pwr.domains.foldl (fun d n => d.pdPut n true) d
    else d.setPwr { d.pwr with mainEn := true, waitPg := true }

/-- The frame in which the keeper's count reaches HK_WAKE_TICK, at its resolution of 50 frames; one already passed acts
at once (R442). -/
def Dev.wakeFrame (d : Dev) : Nat :=
  match d.tb.keeper with
  | some k =>
    let ahead := (d.get HK_WAKE_TICK.TICK + 2 ^ 64 - k.val % 2 ^ 64) % 2 ^ 64
    if ahead < 2 ^ 63 then k.frame + 50 * ((ahead + 3199) / 3200) else d.now
  | none => d.now

def Dev.wakeSourceEff (src : WakeSrc) (d : Dev) : Dev :=
  match src with
  | .host => d.wakeFrom 0
  | .doorbell => d.wakeFrom 1
  | .time => if d.get HK_PWR_STAT.STATE = 0 ∨ d.get HK_WAKE_CTL.SRC / 4 % 2 = 0 then d else (d.advanceTo d.wakeFrame).wakeFrom 2
  | .trigger l => if d.get HK_WAKE_CTL.TB_MASK / 2 ^ l.val % 2 = 1 then d.wakeFrom 3 else d
  | .pps => d.wakeFrom 4

/-- Pins and display outputs work again as their registers say (R433). -/
def Dev.outputsResume (d : Dev) : Dev :=
  let d := (List.range 48).foldl (fun d x => if pinExists x then d.pinResume x else d) d
  (List.range 2).foldl (fun d x => if d.outRuns x then d.outStart x else d) d

/-- The wake is complete (R433): the memories leave self-refresh, held doorbells are applied, every block enabled at
entry is READY, and a reset that waited starts (R442). -/
def Dev.wakeCompleteEff (d : Dev) : Dev :=
  if d.pwr.wake.isNone || d.pwr.waitPg || ! d.tb.locked || d.pwr.drain.isSome then d
  else
    let st := d.get HK_PWR_STAT.STATE
    let bells := d.pwr.doorbells
    let later := d.pwr.later
    let d :=
      if st = 1 then
        let d := d.pwr.ready.foldl (fun d x => d.wr x.1 x.2) d
        let d := (List.range 16).foldl (fun d c => if (d.ben.chan.get c).selfRefresh then d.srExit c else d) d
        let d := d.putb BEN_QRY_STAT.RETAINED (d.ben.channels != 0)
        let d := d.readyShow.outputsResume
        bells.foldl (fun d x => d.doorbellEff x.1 x.2.toNat) d
      else d
    let d := d.setPwr { d.pwr with wake := none, domains := [], ready := [], doorbells := [], later := none }
    let d := (d.put HK_PWR_STAT.STATE 0).raise 611
    match later with
    | some r => d.drainStart r
    | none => d

/-! ### Firmware (R438, R439, R451, R452) -/

/-- A firmware slot: A or B. -/
def Power.slot (p : Power) (b : Bool) : FwSlot := if b then p.slotB else p.slotA

/-- Change a firmware slot. -/
def Dev.updSlot (d : Dev) (b : Bool) (f : FwSlot → FwSlot) : Dev :=
  d.setPwr (if b then { d.pwr with slotB := f d.pwr.slotB } else { d.pwr with slotA := f d.pwr.slotA })

/-- HK_BOOT shows the slot that runs. -/
def Dev.runShow (d : Dev) (b : Bool) : Dev :=
  let d := d.setPwr { d.pwr with runB := b }
  (d.put HK_BOOT.SLOT b.toNat).put HK_BOOT.VERSION (d.pwr.slot b).version

/-- An image passes (R451): its signature, and its EPOCH. -/
def Dev.imageOk (d : Dev) (good : Bool × Bool) (b : Bool) : Bool :=
  (if b then good.2 else good.1) && decide (d.get GLB_LC.EPOCH ≤ (d.pwr.slot b).epoch)

/-- The slot holds something to boot. -/
def FwSlot.bootable (s : FwSlot) : Bool := s.state != 0 && s.state != 5

/-- The slot the boot ROM tries first (R438), and the slots' states: a trial that was cut short is STAGED again, and one
to come is TRYING. -/
def Dev.bootFirst (d : Dev) : Dev × Bool :=
  if d.pwr.slotA.state = 4 then (d.updSlot false fun s => { s with state := 1 }, true)
  else if d.pwr.slotB.state = 4 then (d.updSlot true fun s => { s with state := 1 }, false)
  else if d.pwr.slotA.state = 3 then (d.updSlot false fun s => { s with state := 4 }, false)
  else if d.pwr.slotB.state = 3 then (d.updSlot true fun s => { s with state := 4 }, true)
  else (d, d.pwr.slotB.state == 2 && d.pwr.slotA.state != 2)

/-- A slot is booted: the measurements are taken anew, and a RETURN that was cut short goes on (R450, R452). -/
def Dev.bootSlot (d : Dev) (b fallback : Bool) : Dev :=
  let d := d.setPwr { d.pwr with noFw := false, mainEn := true, waitPg := true
                                 fwTrial := if (d.pwr.slot b).state = 4 then some d.now else none }
  let d := ((d.runShow b).putb HK_BOOT.FALLBACK fallback).put HK_PWR_STAT.STATE 0
  let d := d.measureAll
  let d := if fallback then d.raise 636 else d
  if d.get GLB_LC.STATE = 3 ∧ ¬ d.flag GLB_LC.ERASE_DONE then d.returnErase else d

/-- The boot ROM runs (R438): after an AON power-on, or after a power-on reset of a device without firmware, whose slots
have then been written directly (log entry 30). `good` tells whose signature verifies. -/
def Dev.bootEff (good : Bool × Bool) (d : Dev) : Dev :=
  if ! d.pwr.aon || (d.pwr.mainEn && ! (d.pwr.noFw && d.pwr.waitPg)) || d.get HK_PWR_STAT.STATE != 0 then d
  else
    let d := if d.pwr.noFw then
        (if good.1 then d.updSlot false fun s => { s with state := 2 } else d)
          |> fun d => if good.2 then d.updSlot true fun s => { s with state := if good.1 then 1 else 2 } else d
      else d
    let (d, b) := d.bootFirst
    if (d.pwr.slot b).bootable && d.imageOk good b then d.bootSlot b false
    else
      let d := if (d.pwr.slot b).bootable then d.updSlot b fun s => { s with state := 5 } else d
      let o := ! b
      if (d.pwr.slot o).bootable && d.imageOk good o then d.bootSlot o true
      else
        let d := if (d.pwr.slot o).bootable then d.updSlot o fun s => { s with state := 5 } else d
        let d := d.setPwr { d.pwr with noFw := true, mainEn := true, waitPg := true }
        ((d.put HK_BOOT.SLOT 3).put HK_PWR_STAT.STATE 0).put HK_PD_STAT.ON (2 ^ 26) 1

/-- A write of HK_FW_CTL.STAGE (R439, R451): `good` tells whether the image's signature verifies, `version` and `epoch`
are in its header. -/
def Dev.fwStageEff (good : Bool) (version : W32) (epoch : Nat) (d : Dev) : Dev :=
  if ! d.hkActs || d.pwr.fwTrial.isSome then d
  else
    let o := ! d.pwr.runB
    let d := d.setPwr { d.pwr with fwWaiting := false }
    if 0x1000000 < d.get HK_FW_LEN.BYTES then (d.updSlot o fun _ => {}).put HK_FW_CTL.RESULT 3
    else if ! good || decide (epoch < d.get GLB_LC.EPOCH) then (d.updSlot o fun _ => {}).put HK_FW_CTL.RESULT 2
    else ((d.updSlot o fun _ => ⟨1, version.toNat, epoch, d.freeVal.toNat⟩).drawn.put HK_FW_CTL.RESULT 1).raise 633

/-- A write of HK_FW_CTL.SWITCH waits for a quiescent point (R439). -/
def Dev.fwSwitchEff (d : Dev) : Dev :=
  if ! d.hkActs || d.pwr.fwTrial.isSome || (d.pwr.slot (! d.pwr.runB)).state != 1 then d
  else (d.setPwr { d.pwr with fwWaiting := true }).put HK_FW_CTL.RESULT 4

/-- At the quiescent point the staged slot is marked and the controller restarts on it (R438, R439). -/
def Dev.fwSwitchStartEff (d : Dev) : Dev :=
  if ! d.hkActs || ! d.pwr.fwWaiting || d.opsRun || d.sec.running.isSome then d
  else
    let o := ! d.pwr.runB
    let d := d.decision 10 0 o.toNat
    let d := (d.updSlot o fun s => { s with state := 4 }).runShow o
    (d.setPwr { d.pwr with fwWaiting := false, fwTrial := some d.now }).measureAll

/-- The new firmware confirms itself, within 2 s (R439, R451). -/
def Dev.fwConfirmEff (d : Dev) : Dev :=
  if (match d.pwr.fwTrial with
    | some f => decide (f + 2500000000 ≤ d.now)
    | none => true) then d
  else
    let b := d.pwr.runB
    let d := d.setPwr { d.pwr with fwTrial := none }
    let d := (d.updSlot b fun s => { s with state := 2 }).updSlot (! b) fun s => if s.bootable then { s with state := 1 } else s
    let d := (d.put HK_FW_CTL.RESULT 5).raise 634
    let e := (d.pwr.slot b).epoch
    if d.get GLB_LC.EPOCH < e then (d.put GLB_LC.EPOCH e).raise 631 else d

/-- The trial ends with the old slot: its slot takes a state, RESULT is FAILED and FW_FAILED is raised. -/
def Dev.fwFail (d : Dev) (st : Nat) : Dev :=
  let b := d.pwr.runB
  let d := d.setPwr { d.pwr with fwTrial := none, fwWaiting := false }
  (((d.updSlot b fun s => { s with state := st }).runShow (! b)).put HK_FW_CTL.RESULT 6).raise 635

/-- Two seconds without a confirmation (R439). -/
def Dev.fwWatchdogEff (d : Dev) : Dev :=
  match d.pwr.fwTrial with
  | some f => (d.advanceTo (f + 2500000000)).fwFail 5
  | none => d

/-! ### Temperatures (R437) -/

/-- A temperature as a signed number of sixteenths. -/
def tempOf (v : Nat) : Int := (BitVec.ofNat 16 v).toInt

/-- The hottest sensor reads `t`. -/
def Dev.tempShow (d : Dev) (t : BitVec 16) : Dev := d.put HK_TEMP.TEMP t.toNat

def Dev.tempWarnEff (t : BitVec 16) (d : Dev) : Dev :=
  let d := d.tempShow t
  if d.pwr.aon && ! d.pwr.noFw && decide (tempOf (d.get HK_THERM.WARN) ≤ t.toInt) then d.raise 613 else d

/-- At or above CRIT (R437, R442): a switch of firmware is given up, lanes are disabled, and the device enters STANDBY
without the refusals of R430. -/
def Dev.tempCritEff (t : BitVec 16) (d : Dev) : Dev :=
  let d := d.tempShow t
  if ! d.pwr.aon || d.pwr.noFw || decide (t.toInt < tempOf (d.get HK_THERM.CRIT)) then d
  else
    let d := d.decision 9 0 t.toNat
    let d := if d.pwr.fwTrial.isSome then d.fwFail 1
      else if d.pwr.fwWaiting then ((d.setPwr { d.pwr with fwWaiting := false }).put HK_FW_CTL.RESULT 6).raise 635
      else d
    let d := (List.range 16).foldl (fun d l => d.laneDisableEff l) d
    let d := if d.get HK_PWR_STAT.STATE = 0 ∧ d.pwr.mainEn ∧ ¬ d.pwr.waitPg then d.standbyEnter false else d
    (d.setPwr { d.pwr with hot := true }).raise 614

def Dev.tempOkEff (t : BitVec 16) (d : Dev) : Dev :=
  let d := d.tempShow t
  if d.pwr.hot && decide (t.toInt < tempOf (d.get HK_THERM.WARN)) then
    (d.setPwr { d.pwr with hot := false }).raise 615
  else d

/-- The trip at 125 °C drops MAIN_EN at once (R437). -/
def Dev.thermalTripEff (d : Dev) : Dev :=
  if ! d.pwr.aon || ! d.pwr.mainEn then d
  else
    let d := d.mainLost
    (d.setPwr { d.pwr with mainEn := false, waitPg := false, tripped := true }).put HK_PWR_STAT.STATE 2

end Sys2Proof.Machine
end

