-- ==== Sys2Proof/Machine/Link.lean ====
section
/-!
DEFINITION. The host link (14_host_link_queues_and_events.md R324, R346, R347; 15_transfer_engine.md R364).
-/
namespace Sys2Proof.Machine

/-- The module's PCI Express port is powered. -/
def Dev.linkPowered (d : Dev) : Bool := d.pwr.aon && d.pwr.mainEn && ! d.pwr.waitPg

def Dev.linkUpEff (rate width : Nat) (d : Dev) : Dev :=
  if ! d.linkPowered || d.link.up then d
  else ((d.setLink { up := true, rate := rate, width := width }).setSec { d.sec with loopback := false }).raise 512

/-- The link leaves L0 other than for L1: commands that were not applied end ABORTED, and transfers to or from the host
end TIMEOUT. -/
def Dev.linkDownEff (d : Dev) : Dev :=
  if ! d.link.up then d
  else
    let d := d.setLink {}
    let d := d.que.q.foldl (fun d x => d.cmdsAbort x.1) d
    ((List.range 64).foldl (fun d c => d.xferLinkDown c) d).raise 513

def Dev.linkChangeEff (rate width : Nat) (d : Dev) : Dev :=
  if ! d.link.up || (d.link.rate == rate && d.link.width == width) then d
  else (d.setLink { d.link with rate := rate, width := width }).raise 514

end Sys2Proof.Machine
end

