-- ==== Sys2Proof/Machine/TestSessions.lean ====
section
/-!
DEFINITION. Test sessions (22_test_and_loopbacks.md R466-R472). What a session's generators and checkers see at the
bits of an interface comes with the rows: a lock, a loss of lock with the bits counted, the counts at the end.
-/
namespace Sys2Proof.Machine

/-- The units and the depths of an interface (R466). -/
def testUnits (f : Nat) : Nat := match f with | 0 => 4 | 1 => 8 | 2 => 16 | 3 => 3 | 4 => 16 | 5 => 2 | _ => 0
def testDepths (f : Nat) : Nat := match f with | 0 => 2 | 1 => 2 | 2 => 1 | 3 => 3 | 4 => 2 | 5 => 2 | _ => 0

/-- The unit is in the state that R466 requires. -/
def Dev.testUnitFree (d : Dev) (f unit depth : Nat) : Bool :=
  match f with
  | 0 => ! d.flag CV_SCTL.EN unit
  | 1 => gmode (d.get EVI_GMODE.MODE) unit == 0
  | 2 => d.wiredOr unit && ! d.inPair unit && ! d.pinPings unit
  | 3 => ! d.flag ETH_CTL.EN unit
  | 4 => if depth = 0 then d.get QRY_CSTAT.STATE unit != 2 && d.get QRY_CSTAT.STATE unit != 3
    else d.flag BEN_QRY_CTL.EN
  | _ => d.flag DPY_CTL.EN unit

/-- The region of a DRAM session cannot be used (R467). -/
def Dev.testOverlap (d : Dev) (s : Nat) : Bool :=
  let base := d.get TST_REGION_BASE.OFS s
  let size := d.get TST_REGION_SIZE.OFS s
  base % 4096 != 0 || size % 4096 != 0 || decide (d.get BEN_QRY_CAP.BYTES < base + size)
    || d.skeinMeets 1 base size || d.tallyMeets 1 base size || d.targetMeets none [0, 2] base size

/-- The checks of R467 on the session's registers, as RESULT: 1 is RUNNING. PAT is ignored at ANALOG depth (R468). -/
def Dev.testResult (d : Dev) (s : Nat) : Nat :=
  let f := d.get TST_CTL.IF s
  let unit := d.get TST_CTL.UNIT s
  let depth := d.get TST_CTL.DEPTH s
  let analog := f == 0 && depth == 1
  if testUnits f ≤ unit ∨ testDepths f ≤ depth ∨ (6 ≤ d.get TST_CTL.PAT s ∧ ! analog) then 3
  else if (List.range 8).any fun t => t != s && d.flag TST_CTL.EN t && d.get TST_CTL.IF t == f
      && d.get TST_CTL.UNIT t == unit then 4
  else if ! d.testUnitFree f unit depth then 5
  else if f = 4 ∧ depth = 1 ∧ d.testOverlap s then 6
  else 1

/-- Write free bytes to a region of a store. -/
def Dev.storeFree (d : Dev) (st a n : Nat) : Dev :=
  let f := d.freeSeq
  (d.setFreeSeq (f + n)).storeWrite st a ((List.range n).map fun i => (Config.free (f + i)).setWidth 8)

/-- A write that sets TST_CTL.EN: checked, and the session starts. A DRAM session overwrites its region; where each lane's
pattern lands in it is left open (R468). -/
def Dev.testStartEff (s : Nat) (v : W64) (d : Dev) : Dev :=
  if d.flag TST_CTL.EN s then d
  else
    let d := (d.wr ⟨.TST_CTL, s, 0, 0⟩ v).putb TST_CTL.EN false s
    let r := d.testResult s
    let d := d.put TST_STAT.RESULT r s
    if r ≠ 1 then d
    else
      let f := d.get TST_CTL.IF s
      let d := ((((d.putb TST_CTL.EN true s).putb TST_STAT.LOCK false s).put TST_LOSS.COUNT 0 s).put
        TST_BITS.COUNT 0 s).put TST_ERRS.COUNT 0 s
      let d := match testDomain f (d.get TST_CTL.UNIT s) with
        | some n => ((d.pdPut n true).readyShow).outsShow d
        | none => d
      if f == 4 && d.get TST_CTL.DEPTH s == 1 then
        d.storeFree 1 (d.get TST_REGION_BASE.OFS s) (d.get TST_REGION_SIZE.OFS s)
      else d

/-- A locked checker has compared bits and found some in error. -/
def Dev.testCount (d : Dev) (s bits errs : Nat) : Dev :=
  if d.flag TST_STAT.LOCK s then
    (d.put TST_BITS.COUNT (d.get TST_BITS.COUNT s + bits) s).put TST_ERRS.COUNT (d.get TST_ERRS.COUNT s + errs) s
  else d

/-- EN is cleared (R470); what the checker counted since it locked comes with the row. -/
def Dev.testStopEff (s bits errs : Nat) (d : Dev) : Dev :=
  if ! d.flag TST_CTL.EN s then d
  else (((d.testCount s bits errs).putb TST_CTL.EN false s).put TST_STAT.RESULT 2 s).putb TST_STAT.LOCK false s

/-- The session has a checker: every depth but REMOTE and the CRC depths (R469). -/
def Dev.testChecks (d : Dev) (s : Nat) : Bool :=
  d.flag TST_CTL.EN s && d.get TST_CTL.IF s != 5 && ! (d.get TST_CTL.IF s == 3 && d.get TST_CTL.DEPTH s == 2)

def Dev.checkerLockEff (s : Nat) (d : Dev) : Dev := if d.testChecks s then d.putb TST_STAT.LOCK true s else d

def Dev.checkerLockLossEff (s bits errs : Nat) (d : Dev) : Dev :=
  if d.testChecks s && d.flag TST_STAT.LOCK s then
    ((d.testCount s bits errs).bump TST_LOSS.COUNT s).putb TST_STAT.LOCK false s
  else d

/-- The link partner requests Loopback: the link leaves L0, and the device is the Loopback follower until the link
comes up again. -/
def Dev.pcieLoopbackEff (d : Dev) : Dev :=
  if ! d.linkPowered then d
  else
    let d := d.linkDownEff
    d.setSec { d.sec with loopback := true }

end Sys2Proof.Machine
end

