-- ==== Sys2Proof/Machine/Bus.lean ====
section
/-!
DEFINITION. Writes of BAR0 (00_scope.md R14-R17; 01_engine_at_a_glance.md R36, R38; 21_fault_accounting.md R494): the
access codes, staging words, and what each written register does. The writes of a frame apply at its end (Frame.lean).
A write of a WO bit acts at its write, on the values that then stand; a change of an RW field that a block acts on takes
effect once every write of the frame has been applied, and WO bits of such a register act after it (log entry 31).
-/
namespace Sys2Proof.Machine

/-- What a register holds after a write has met the access code of each bit (R14). The clear of a W1C bit of `kept`, which
the hardware has set in the same frame, has no effect. -/
def Reg.coded (r : Reg) (old v : W64) (kept : W64 := 0) : W64 :=
  let b := fun (p : Acc → Bool) => r.g.fam.bits p &&& ~~~ r.absent
  let rw := b (· == .rw)
  (((old &&& ~~~ rw) ||| (v &&& rw)) &&& ~~~ (v &&& b (· == .w1c) &&& ~~~ kept)) ||| (v &&& b (· == .w1s))

/-- Values that are stored as another one: a limit, or a residue (R67, R93, R115, R143, R215, R385, R404). -/
def Reg.stored (r : Reg) (x : W64) : W64 :=
  let clamp := fun (f : Fld) (lo hi : Nat) => f.set x (min hi (max lo (f.of x)))
  match r.g with
  | .CV_ROT_PERIOD => clamp CV_ROT_PERIOD.PERIOD 20000000 (2 ^ 32 - 1)
  | .CV_SKW_CTL => clamp CV_SKW_CTL.LOG2N 20 28
  | .CV_SWATCH_CTL => clamp CV_SWATCH_CTL.AMP 0 187
  | .TB_TAI_OFS => TB_TAI_OFS.TICKS.set x (TB_TAI_OFS.TICKS.of x % 80000000000)
  | .TB_SLEW => clamp TB_SLEW.PPB 0 100
  | .TB_PTP_CTL => clamp TB_PTP_CTL.DOMAIN 0 127
  | .TRG_LFSR => clamp TRG_LFSR.STATE 1 (2 ^ 32 - 1)
  | .SYN_LFSR => clamp SYN_LFSR.STATE 1 (2 ^ 32 - 1)
  | .TAL_JOB_DEN =>
    let x := clamp TAL_JOB_DEN.SHIFT 0 8
    TAL_JOB_DEN.STEP_LOG2.set x (min 16 (TAL_JOB_DEN.STEP_LOG2.of x))
  | .ETH_PAY => clamp ETH_PAY.MAXPAY 1024 8960
  | _ => x

/-- The registers of a trigger unit's written profile bank (R137). -/
def profileBank : List Rg :=
  [.TRG_CMP, .TRG_SLOTA, .TRG_SLOTB, .TRG_SLOTA_T1, .TRG_SLOTA_T2, .TRG_SLOTB_T1, .TRG_SLOTB_T2, .TRG_SEQ_DLY, .TRG_SEQ,
   .TRG_HOLD, .TRG_HOLD_T, .TRG_HOLD_MAX, .TRG_PAT_CTL, .TRG_PAT_MASK, .TRG_PAT_VAL]

/-- Registers whose RW fields a block acts on when they change (R494). -/
def actingRegs : List Rg :=
  [.CV_SCTL, .CV_FAIL_CLR, .CV_DAC_CTL, .CV_CORR_CTL, .TB_REF_CTL, .TB_PPS_CTL, .TB_SLEW, .TRG_CTL, .TRG_TCMP_CTL, .REC_LCTL,
   .REC_SEGNUM, .DEC_CTL, .DEC_THR0_CTL, .DEC_THR1_CTL, .EVI_GMODE, .EVI_ICFG, .EVI_IU_CFG, .STM_UCTL, .STM_TFREQ, .STM_TPA,
   .BEN_HT_CTL, .BEN_HT_REL, .BEN_QRY_CTL, .QUE_CTL, .QUE_INT, .XFE_CTL, .ETH_CTL, .SYN_OWN, .SYN_MSG_CTL, .SYN_PCFG,
   .RAS_CTL, .DPY_CTL, .TST_CTL, .HK_PWR_CTL,
   .HK_RST]

/-- The unit that a register belongs to does not take a write of it now. -/
def Dev.writeIgnored (d : Dev) (r : Reg) : Bool :=
  match r.g with
  | .REC_SEGNUM | .REC_LQUEUE => d.flag REC_LCTL.EN r.i
  | .TAL_JOB_CFG | .TAL_JOB_PRE | .TAL_JOB_POINTS | .TAL_JOB_LIMIT | .TAL_JOB_DEN | .TAL_JOB_OUTER | .TAL_MASK_CTL =>
    let st := d.get TAL_JSTAT.STATE r.i
    st != 0 && st != 4
  | .BEN_HT_STREAM | .BEN_HT_BASE | .BEN_HT_SIZE => d.flag BEN_HT_CTL.EN r.i
  | .QUE_BASE | .QUE_WB | .QUE_CFG => d.flag QUE_CTL.EN r.i
  | .XFE_CFG | .XFE_SRC | .XFE_DST | .XFE_DPTR | .XFE_COUNT | .XFE_CQ => d.xferBusy r.i
  | .ETH_RTX_BASE | .ETH_RTX_SIZE | .ETH_MAC | .ETH_IP4 | .ETH_IP6 => d.flag ETH_CTL.EN r.i
  | _ => false

/-- A write of a register that no block acts on as an RW field: its value, and the actions of its WO bits, in ascending
order unless the register's chapter says otherwise (R129, R213). -/
def Dev.plainWrite (rq : Rq) (r : Reg) (v : W64) (d : Dev) : Dev :=
  let n := r.i
  let bit := fun b => v.getLsbD b
  if profileBank.contains r.g && (d.trg.get n).commit.isSome then d.count TRG_PRF_DROP.DROPPED n
  else if shadowRegs.contains r.g && (d.ras.out.get n).commit.isSome then d.count DPY_CNT_SHDROP.COUNT n
  else
    let before := d
    let d := if r.g = .EVI_ISTAT then d.eviSettle r else d
    let d := d.wr r (r.stored (r.coded (d.rd r) v (before.freshBits r)))
    match r.g with
    | .CV_TBL_COMMIT => d.tableCommit n (bit 1) (bit 0)
    | .CV_SWATCH_CTL => if bit 0 then d.swatchStartEff n else d
    | .TB_ORIGIN_CTL => if bit 0 then d.originGoEff (d.get TB_ORIGIN_CTL.WHEN) else d
    | .TRG_ARM =>
      let d := if bit 1 then d.trgArmDisarmEff n else d
      if bit 0 then d.trgArmArmEff n else d
    | .TRG_PRF_COMMIT => if bit 0 then d.prfCommitEff n else d
    | .TRG_FORCE => if bit 0 then d.trgForceEff n else d
    | .REC_REQ_CTL => if bit 31 then d.segmentRequestEff rq n (v.setWidth 32) else d
    | .DEC_COMMIT => if bit 0 then d.decCommitEff n else d
    | .DEC_SYNC_CTL => if bit 31 then d.decSyncGoEff else d
    | .TAL_JOB_CMD =>
      let d := if bit 0 then d.tallyStartEff n (bit 1) else d
      let d := if bit 3 then d.tallyResumeEff n else d
      let d := if bit 2 && ! bit 4 then d.tallyPauseEff n else d
      if bit 4 then d.tallyStopEff n else d
    | .EVI_GAUGE_CTL => if bit 31 then d.gaugeStartEff (d.get EVI_GAUGE_CTL.INPUT) else d
    | .NDL_CTL =>
      let d := if bit 0 then d.needleGoEff n else d
      if bit 1 then d.needleStopEff n else d
    | .NDL_REPLACE =>
      let d := if bit 30 then d.replaceCancelEff n else d
      if bit 31 then d.replaceGoEff n else d
    | .STM_PLAY_CTL => if bit 31 then d.playSubmitEff n (d.get STM_PLAY_CTL.KIND n) else d
    | .BEN_THR => d.flowUpdate
    | .BEN_QRY_FREQ => if bit 31 then d.freqChangeGoEff (d.get BEN_QRY_FREQ.PROFILE) else d
    | .BEN_QRY_RETIRE =>
      let d := if bit 30 then d.retireClearEff else d
      if bit 31 then d.channelRetireEff (d.get BEN_QRY_RETIRE.CHANNEL) else d
    | .QUE_ALLOC => if bit 31 then d.queueAllocEff (d.flag QUE_ALLOC.ANY) (d.get QUE_ALLOC.Q) else d
    | .QUE_DB => d.doorbellEff n (QUE_DB.IDX.of v)
    | .ETH_FA_KEY => d.faKeyWriteEff n r.j (v.setWidth 32)
    | .SYN_MSG_TX => d.msgTxGoEff (v.setWidth 32)
    | .SYN_PING_CTL => d.pingGoEff (v.setWidth 32)
    | .SYN_PSTAT => if before.flag SYN_PSTAT.FAULT n && ! d.flag SYN_PSTAT.FAULT n then d.pinResume n else d
    | .RAS_GO =>
      let d := if bit 0 then d.rasGoEff 0 else d
      if bit 1 then d.rasGoEff 1 else d
    | .RAS_CV_SIZE | .RAS_CV_BUF0 | .RAS_CV_BUF1 | .RAS_CV_OVL | .RAS_LP_CTL =>
      (d.canvasGuard before 0).canvasGuard before 1
    | .DPY_COMMIT => d.dpyCommit ((if bit 0 then [0] else []) ++ (if bit 1 then [1] else []))
    | .HK_PD_OFF => if bit 31 then d.pdOffEff (d.get HK_PD_OFF.DOMAIN) else d
    | .HK_FW_CTL =>
      let d := if bit 0 then
          let good := d.freeVal.getLsbD 0
          let d := d.drawn
          let version := d.freeVal.setWidth 32
          let d := d.drawn
          let epoch := d.freeVal.toNat
          d.drawn.fwStageEff good version epoch
        else d
      if bit 1 then d.fwSwitchEff else d
    | .SEC_CMD => if bit 31 then d.secGo else d
    | _ => d

/-- The block of an acting register acts on the value `x` that stands once the writes are over (R494). -/
def Dev.settle (r : Reg) (x : W64) (d : Dev) : Dev :=
  let n := r.i
  let old := d.rd r
  let on := fun (f : Fld) => f.of x == 1
  let w := x.setWidth 32
  match r.g with
  | .CV_SCTL =>
    let d := d.putb CV_SCTL.ROT_EN (on CV_SCTL.ROT_EN) n
    if on CV_SCTL.EN then d.sliceEnableEff n else d.sliceDisableEff n
  | .CV_FAIL_CLR => d.failClrWriteEff n (CV_FAIL_CLR.GROUP.of x) (CV_FAIL_CLR.UMASK.of x)
  | .CV_DAC_CTL => d.dacRouteWriteEff n w
  | .CV_CORR_CTL =>
    let d' := d.wr r x
    let v := on CV_CORR_CTL.EQ_BYPASS
    if v == d.flag CV_CORR_CTL.EQ_BYPASS n then d'
    else d'.updSlice n fun s => { s with bypassAt := s.bypassAt ++ [(d.now + 16, v)] }
  | .TB_REF_CTL =>
    let d' := d.wr r x
    if TB_REF_CTL.SEL.of x = TB_REF_CTL.SEL.of old then d' else d'.tbSelWritten
  | .TB_PPS_CTL =>
    let d := if on TB_PPS_CTL.OUT_EN then d else d.setTb { d.tb with ppsOut := none }
    let d := d.wr r x
    if d.tb.aligning && d.get TB_PPS_CTL.ALIGN_SRC % 3 == 0 then d.tbAligned else d
  | .TB_SLEW => d.slewRebase.wr r x
  | .TRG_CTL => d.trgEnWriteEff n (on TRG_CTL.EN)
  | .TRG_TCMP_CTL =>
    if on TRG_TCMP_CTL.EN then d.tcmpLoadEff n (TRG_TCMP_CTL.ERA.of x)
    else (d.wr r x).updUnit n fun u => { u with tcmp := none }
  | .REC_LCTL =>
    if on REC_LCTL.EN then d.laneEnableEff n w else if d.flag REC_LCTL.EN n then d.laneDisableEff n else d.wr r x
  | .REC_SEGNUM => (d.wr r x).updLane n fun y => { y with numWrapped := false }
  | .STM_TFREQ | .STM_TPA => (d.wr r x).toneChange n r.j
  | .BEN_HT_REL => d.hoistReleaseWriteEff n (BEN_HT_REL.OFS.of x)
  | .DEC_CTL =>
    let d := d.putb DEC_CTL.SYNC_EN (on DEC_CTL.SYNC_EN) n
    if d.flag DEC_CTL.EN n = on DEC_CTL.EN then d else d.decEnableEff n (on DEC_CTL.EN)
  | .DEC_THR0_CTL =>
    let rise := ! d.flag DEC_THR0_CTL.EN n && on DEC_THR0_CTL.EN
    let d := d.wr r x
    if rise then d.updDec n fun u => { u with init := u.init.set 0 true } else d
  | .DEC_THR1_CTL =>
    let rise := ! d.flag DEC_THR1_CTL.EN n && on DEC_THR1_CTL.EN
    let d := d.wr r x
    if rise then d.updDec n fun u => { u with init := u.init.set 1 true } else d
  | .EVI_GMODE => d.eviGmodeWriteEff x.toNat
  | .EVI_ICFG => d.eviIcfgWriteEff n w
  | .EVI_IU_CFG => if x = old then d else d.iuCfgWriteEff n w
  | .STM_UCTL =>
    let was := d.flag STM_UCTL.EN n
    let d := (d.wr r x).putb STM_UCTL.EN was n
    if on STM_UCTL.EN then d.stimEnableEff n else d.stimDisableEff n
  | .BEN_HT_CTL => d.hoistTargetEnableEff n w
  | .BEN_QRY_CTL =>
    let was := d.flag BEN_QRY_CTL.EN
    let d := d.wr r x
    let on := on BEN_QRY_CTL.EN
    if on && ! was then (List.range 16).foldl (fun d c => d.testEnd 4 c 7 (some 0)) d
    else if was && ! on then d.quarryDisable else d
  | .QUE_CTL => if on QUE_CTL.EN then d.queueEnableEff n else d.queueDisableEff n
  | .QUE_INT => d.queIntWriteEff n w
  | .XFE_CTL =>
    let d := if d.xferBusy n then d else d.put XFE_CTL.MODE (XFE_CTL.MODE.of x) n
    if ! on XFE_CTL.EN then d.xferAbortEff n
    else if d.flag XFE_CTL.EN n then d else (d.putb XFE_CTL.EN true n).xferState n 1
  | .ETH_CTL =>
    if on ETH_CTL.EN then d.portEnableEff n w
    else
      let d := if d.flag ETH_CTL.EN n then d.portDisableEff n else d
      d.wr r x
  | .SYN_OWN => d.ownershipWriteEff x.toNat
  | .SYN_MSG_CTL => d.msgModeEnableEff w
  | .SYN_PCFG => if x = old then d else (d.wr r x).pcfgWritten d n
  | .RAS_CTL =>
    let d := d.put RAS_CTL.MODE (RAS_CTL.MODE.of x)
    [0, 1].foldl (fun d c =>
      if RAS_CTL.EN.of x / 2 ^ c % 2 = 1 then d.canvasEnableEff c
      else if d.bitOf RAS_CTL.EN c then d.canvasDisable c else d) d
  | .DPY_CTL => (d.wr r x).dpyCtlWritten d n
  | .TST_CTL =>
    if d.flag TST_CTL.EN n then
      if on TST_CTL.EN then d
      else d.testEnd (d.get TST_CTL.IF n) (d.get TST_CTL.UNIT n) 2 (some (d.get TST_CTL.DEPTH n))
    else if on TST_CTL.EN then d.testStartEff n x else d.wr r x
  | _ => d.wr r x

/-- The WO bits of a write of an acting register act, after what stands has taken effect (log entry 31). -/
def Dev.lateAct (r : Reg) (v : W64) (d : Dev) : Dev :=
  let n := r.i
  let bit := fun b => v.getLsbD b
  match r.g with
  | .XFE_CTL =>
    let d := if bit 1 then d.xferGoEff n else d
    if bit 2 then d.xferKickEff n else d
  | .BEN_HT_CTL => if bit 30 then d.replayGoEff n else d
  | .REC_SKN_CTL =>
    let d := if bit 30 then d.skeinRewindEff n else d
    if bit 31 then d.skeinDefineEff n else d
  | .STM_UCTL => if bit 3 then d.stimClearEff n else d
  | .QUE_CTL => if bit 31 then d.queueFreeEff n else d
  | .HK_PWR_CTL =>
    let d := if bit 1 then d.wakeFrom 0 else d
    if bit 0 then d.standbyEff (d.flag HK_PWR_CTL.DORMANT) else d
  | .HK_RST =>
    if HK_RST.KEY.of v ≠ 0xA5 then d
    else
      let d := if bit 1 then d.resetRequest true 5 else d
      if bit 0 then d.resetRequest false 6 else d
  | _ => d

/-! ### The writes of a frame -/

/-- The writes of a frame on their way: the state, the values that stand so far of acting registers, and the writes of
their WO bits, of which the FLUSHes of lanes come before what stands takes effect (R160). -/
structure WriteRun where
  d : Dev
  standing : List (Reg × W64) := []
  flushes : List Nat := []
  late : List (Reg × W64) := []

/-- The value of a register after the writes so far. -/
def WriteRun.cur (w : WriteRun) (r : Reg) : W64 :=
  match w.standing.find? fun x => x.1 == r with
  | some x => x.2
  | none => w.d.rd r

/-- Fields of acting registers that a write leaves unchanged while their unit is enabled (R168). -/
def Dev.held (d : Dev) (r : Reg) (x : W64) : W64 :=
  if r.g = .REC_LCTL ∧ d.flag REC_LCTL.EN r.i then REC_LCTL.EN.set (d.rd r) (REC_LCTL.EN.of x) else x

/-- A register takes a write of its whole value. A doorbell after a clear of EN finds the queue disabled (R347), and
CV_DAC_CTL takes no write during a swatch (R87). -/
def WriteRun.reg (w : WriteRun) (rq : Rq) (r : Reg) (v : W64) : WriteRun :=
  if r.g = .CV_DAC_CTL && (w.d.slice.get r.i).swatch.isSome then { w with d := w.d.count CV_SWATCH_STAT.DROPS r.i }
  else if r.g = .QUE_DB && w.d.get QUE_STAT.STATE r.i == 2 && QUE_CTL.EN.of (w.cur ⟨.QUE_CTL, r.i, 0, 0⟩) == 0 then
    { w with d := (w.d.count QUE_G_BADDB.COUNT).raise 516 }
  else if w.d.writeIgnored r then w
  else if r.g = .REC_SKN_CTL then { w with d := w.d.plainWrite rq r v, late := w.late ++ [(r, v)] }
  else if actingRegs.contains r.g then
    let x := w.d.held r (r.stored (r.coded (w.cur r) v))
    let late := v &&& r.g.fam.bits (· == .wo) != 0
    { w with
      standing := w.standing.filter (fun y => y.1 != r) ++ [(r, x)]
      flushes := if r.g = .REC_LCTL ∧ v.getLsbD 1 then w.flushes ++ [r.i] else w.flushes
      late := if late then w.late ++ [(r, v)] else w.late }
  else { w with d := w.d.plainWrite rq r v }

/-- Host writes to the registers of the housekeeping controller's queues are ignored (R328). -/
def hkQueueWrite (rq : Rq) (r : Reg) : Bool :=
  hostLike rq && decide (r.i < 16) && [Rg.QUE_BASE, .QUE_WB, .QUE_CFG, .QUE_CTL, .QUE_STAT, .QUE_IDX, .QUE_DB, .QUE_INT,
    .QUE_CNT].contains r.g

/-- A write to a register that its requester may write. -/
def WriteRun.regFor (w : WriteRun) (rq : Rq) (r : Reg) (v : W64) : WriteRun :=
  if hkQueueWrite rq r then w else w.reg rq r v

/-- The staging word of a requester for a register (R17): the low half waiting there, or the current one. -/
def WriteRun.staged (w : WriteRun) (rq : Rq) (r : Reg) : W32 :=
  match w.d.bus.staging.find? fun x => x.1 == (rq, r) with
  | some x => x.2
  | none => (w.cur r).setWidth 32

/-- The staging word is empty again, or holds a low half. -/
def Dev.stage (d : Dev) (rq : Rq) (r : Reg) (v : Option W32) : Dev :=
  let rest := d.bus.staging.filter fun x => x.1 != (rq, r)
  d.setBus { d.bus with staging := (v.map fun v => ((rq, r), v)).toList ++ rest }

/-- A 4-byte write, and whether its offset is mapped (R16, R36). -/
def WriteRun.write32 (w : WriteRun) (rq : Rq) (addr : Nat) (v : W32) : WriteRun × Bool :=
  match w.d.place addr with
  | .reg r =>
    if r.g.fam.wide then ({ w with d := w.d.stage rq r (some v) }, true) else (w.regFor rq r (v.setWidth 64), true)
  | .high r =>
    let full : W64 := (v ++ w.staged rq r).setWidth 64
    ({ w with d := w.d.stage rq r none }.regFor rq r full, true)
  | .table n off => ({ w with d := w.d.tableWindowWriteEff n off v }, true)
  | .needle ofs => ({ w with d := w.d.needleWindowWriteEff ofs false (v.setWidth 64) }, true)
  | .rom _ => (w, true)
  | .none => (w, false)

/-- A 4-byte write; an unmapped one is discarded and counts (R36), but for one of the housekeeping controller, of which chapter 10
says nothing: it is dropped without a count (DESIGN CHOICE, log entry 68). -/
def WriteRun.writeOrCount (w : WriteRun) (rq : Rq) (addr : Nat) (v : W32) : WriteRun :=
  let (w, mapped) := w.write32 rq addr v
  if mapped || ! hostLike rq then w else { w with d := w.d.countUnmapped }

/-- A write of 4 or 8 bytes, naturally aligned (R16, R36). One of 8 bytes discards the low half that the requester has pending for
the register: R16 and R17 do not say what becomes of it (DESIGN CHOICE, log entry 68). -/
def WriteRun.write (w : WriteRun) (rq : Rq) (addr size : Nat) (v : W64) : WriteRun :=
  if size = 4 then w.writeOrCount rq addr (v.setWidth 32)
  else
    match w.d.place addr with
    | .needle ofs => { w with d := w.d.needleWindowWriteEff ofs true v }
    | p =>
      let wide := match p with
        | .reg r => if r.g.fam.wide then some r else none
        | _ => none
      match wide with
      | some r => { w with d := w.d.stage rq r none }.regFor rq r v
      | none => (w.writeOrCount rq addr (v.setWidth 32)).writeOrCount rq (addr + 4) ((v >>> 32).setWidth 32)

/-- A write of the host while only GLB and HK are mapped (R431, R438): a doorbell in STANDBY is held, and wakes. -/
def Dev.asleepWrite (rq : Rq) (addr size : Nat) (v : W64) (d : Dev) : Dev :=
  match d.place addr with
  | .reg r =>
    if r.g = .QUE_DB ∧ size = 4 ∧ d.hostMode = 2 then
      if hkQueueWrite rq r then d
      else (d.setPwr { d.pwr with doorbells := d.pwr.doorbells ++ [(r.i, v)] }).wakeFrom 1
    else d.countAsleep (size / 4)
  | _ => d.countAsleep (size / 4)

/-- One write of the host, of the housekeeping controller or over the host link's commands and transfers. -/
def WriteRun.one (w : WriteRun) (x : BusWr) : WriteRun :=
  if hostLike x.rq then
    if ! ((x.size == 4 || x.size == 8) && x.addr % x.size == 0) then { w with d := w.d.badsizeEff true x.addr x.size }
    else match w.d.hostMode with
      | 0 => w
      | 1 => w.write x.rq x.addr x.size x.data
      | _ => if inGlbHk x.addr then w.write x.rq x.addr x.size x.data
        else { w with d := w.d.asleepWrite x.rq x.addr x.size x.data }
  else if (x.size == 4 || x.size == 8) && x.addr % x.size == 0 then w.write x.rq x.addr x.size x.data else w

/-- What the writes leave standing takes effect, after the FLUSHes of lanes (R160); then the WO bits of acting registers,
in the order of their writes. -/
def WriteRun.finish (w : WriteRun) : Dev :=
  let d := w.flushes.foldl (fun d l => d.laneFlushEff l) w.d
  let d := w.standing.foldl (fun d x => d.settle x.1 x.2) d
  w.late.foldl (fun d x => d.lateAct x.1 x.2) d

end Sys2Proof.Machine
end

