-- ==== Sys2Proof/Machine/NeedleApply.lean ====
section
/-!
DEFINITION. The effects of needle instructions on the blocks, two frames after issue (10_needles_and_zhervo_model.md
R243-R252; 11_zhervo_instruction_reference.md R268-R277): field writes and reads, contexts and claims, reports.
-/
namespace Sys2Proof.Machine

/-! ### Claims (R247, R249) -/

/-- The claim that covers a register: in NDL_CLAIM1 or not, and its bit. What is common to a block has none. -/
def Reg.claim (r : Reg) : Option (Bool × Nat) :=
  if r.g.fam.dims.isEmpty then none
  else match r.g.fam.base / 0x100000 with
    | 4 => some (false, 16 + r.i)
    | 5 => if r.g.fam.base < 0x510000 then some (false, r.i) else none
    | 6 => if r.g = .DEC_SYNC_TIME then none else some (false, 24 + r.i)
    | 7 => some (false, 40 + r.i)
    | 10 => some (false, 48 + r.i)
    | 20 => if 32 ≤ r.i ∧ r.i < 48 then some (true, r.i - 32) else none
    | _ => none

/-- Another needle's open context holds a claim. -/
def Dev.claimedBy (d : Dev) (n : Nat) (second : Bool) (bit : Nat) : Bool :=
  (List.range 16).any fun m =>
    m != n && (d.ndl.needle.get m).ctx && (d.rd ⟨if second then .NDL_CLAIM1 else .NDL_CLAIM0, m, 0, 0⟩).getLsbD bit

/-! ### Faults at apply (R251, R252) -/

/-- A field read, which a fault does not cancel: the register results of instructions stand (R252). -/
def Flight.isRead (f : Flight) : Bool := f.eff.cls == 1

/-- An effect faults when it is applied: the effects of the instructions issued since are cancelled and counted, and a
pending replacement switches (R252, R254). A BINDOFF of the engine's own is no instruction's, and is not counted. -/
def Dev.applyFault (d : Dev) (n : Nat) (f : Flight) (code : Nat) (detail : Nat := 0) : Dev :=
  let x := d.ndl.needle.get n
  let shadow := (x.flights.filter fun g => ! g.isRead && g.eff != .bindoff false).length
  ((d.updNdl n fun x => { x with flights := x.flights.filter Flight.isRead }).ndlFault n f.pc code detail
    shadow).ndlFaultSwitch n

/-! ### Field accesses (R245, R268, R269) -/

/-- What a field access names: a register with its size in bytes, a word of storage, or a word that is only read. -/
inductive FieldAt
  | reg (r : Reg)
  | word (v : W32) (writable : Bool)
  | nothing
  deriving DecidableEq, Repr

/-- What WORD names for a needle. -/
def Dev.fieldAt (d : Dev) (word : Nat) : FieldAt :=
  match d.place (4 * word) with
  | .reg r => .reg r
  | .table n off => .word (BitVec.ofNat 32 (d.tabRead n off)) (tabMask off).isSome
  | .needle ofs => .word ((d.needleWindowRead ofs 4).setWidth 32) true
  | .rom v => .word v false
  | .high _ | .none => .nothing

/-- The width in bits of what a field access names. -/
def FieldAt.width : FieldAt → Nat
  | .reg r => if r.g.fam.wide then 64 else 32
  | .word .. => 32
  | .nothing => 0

/-- The NDL block. -/
def inNdl (word : Nat) : Bool := 4 * word / 0x100000 == 9

/-- The blocks whose fields a needle writes (R245). -/
def needleBlock (addr : Nat) : Bool := [2, 3, 4, 5, 6, 7, 8, 10, 15, 20].contains (addr / 0x100000)

/-- A SETF in its apply frame: its fault code, or the value of the whole write (R269). The order of the checks, and ACCESS
for a field that meets an RO bit, are the model's (DEDUCED, log entry 52). -/
def WriteRun.setfValue (w : WriteRun) (n word lsb wm1 : Nat) (value : W64) : Sum Nat W64 :=
  let at_ := w.d.fieldAt word
  let span := maskBits lsb (wm1 + 1)
  let put := fun (old : W64) => (old &&& ~~~ span) ||| ((value <<< lsb) &&& span)
  if inNdl word then .inl 9
  else if ! needleBlock (4 * word) || at_ == .nothing then .inl 8
  else
    let claimed := match at_ with
      | .reg r => match r.claim with
        | some (second, bit) => w.d.claimedBy n second bit
        | none => false
      | _ => false
    if claimed then .inl 10
    else if at_.width ≤ lsb + wm1 then .inl 8
    else match at_ with
      | .reg r =>
        let ro := r.g.fam.bits (· == .ro) &&& ~~~ r.absent
        if ro &&& span ≠ 0 then .inl 9 else .inr (put (w.cur r &&& r.g.fam.bits (· == .rw)))
      | .word v writable => if writable then .inr (put (v.setWidth 64)) else .inl 9
      | .nothing => .inl 8

/-- A needle may read a field (R245). -/
def needleReads (word : Nat) : Bool := needleBlock (4 * word) || inNdl word

/-- A GETF is served: its result, or no such field (R269). -/
def Dev.getfRead (d : Dev) (rq : Rq) (word lsb wm1 : Nat) (sx : Bool) : Option (W64 × Dev) :=
  let at_ := d.fieldAt word
  if ! needleReads word || at_ == .nothing || decide (at_.width ≤ lsb + wm1) then none
  else
    let (v, d) := if at_.width = 64 then d.read64 rq (4 * word)
      else match d.read32 rq (4 * word) with
        | some (v, d) => (v.setWidth 64, d)
        | none => (0, d)
    let f := (v >>> lsb) &&& maskBits 0 (wm1 + 1)
    some (if sx && f.getLsbD wm1 then f ||| ~~~ maskBits 0 (wm1 + 1) else f, d)

/-! ### Contexts (R247-R250) -/

/-- A CASTON applies. -/
def Dev.castonApply (d : Dev) (n : Nat) (f : Flight) (a b : W64) : Dev :=
  let taken := (List.range 16).any fun m =>
    m != n && (d.ndl.needle.get m).ctx
      && (d.rd ⟨.NDL_CLAIM0, m, 0, 0⟩ &&& a != 0 || d.rd ⟨.NDL_CLAIM1, m, 0, 0⟩ &&& b != 0)
  if taken || a >>> 52 != 0 || b >>> 16 != 0 then d.applyFault n f 12
  else (((d.wr ⟨.NDL_CLAIM0, n, 0, 0⟩ a).wr ⟨.NDL_CLAIM1, n, 0, 0⟩ b).updNdl n fun x => { x with ctx := true }).originCancel

/-- A BINDOFF applies: each claimed block gets its action, and every claim is released (R250). -/
def Dev.bindoffApply (d : Dev) (n : Nat) : Dev :=
  if ! (d.ndl.needle.get n).ctx then d
  else
    let a := d.rd ⟨.NDL_CLAIM0, n, 0, 0⟩
    let b := d.rd ⟨.NDL_CLAIM1, n, 0, 0⟩
    let d := (List.range 16).foldl (fun d l => if a.getLsbD l then d.laneEndNow l 2 false else d) d
    let d := (List.range 8).foldl (fun d u => if a.getLsbD (16 + u) then d.trgArmDisarmEff u else d) d
    let d := (List.range 4).foldl (fun d u => if a.getLsbD (48 + u) then d.stmCancelQueue u else d) d
    let d := (List.range 16).foldl (fun d m => if b.getLsbD m then d.pinIdle (32 + m) else d) d
    ((d.wr ⟨.NDL_CLAIM0, n, 0, 0⟩ 0).wr ⟨.NDL_CLAIM1, n, 0, 0⟩ 0).updNdl n fun x => { x with ctx := false }

/-! ### The other field writes (R270, R271, R277, R286) -/

/-- RESULT of a SEG: R150, with reserved bits of gA at the place of the LENGTH checks (R271). -/
def Dev.segResult (d : Dev) (n lane : Nat) (a b : W64) : Nat :=
  let reserved := a.toNat / 2 ^ 35 % 32 != 0
  d.reqResult lane (n + 1) (a.toNat % 2 ^ 32) (if reserved then 0 else b.toNat % 2 ^ 40) (a.toNat / 2 ^ 40)

def Dev.segApply (d : Dev) (n : Nat) (f : Flight) (lane : Nat) (a b : W64) : Dev :=
  if d.claimedBy n false lane then d.applyFault n f 10
  else
    let r := d.segResult n lane a b
    let post := if a.toNat / 2 ^ 35 % 32 != 0 then 0 else b.toNat % 2 ^ 40
    let d := d.laneRequest lane (n + 1) (a.toNat / 2 ^ 32 % 8) (a.toNat % 2 ^ 32) post (a.toNat / 2 ^ 40) (b.toNat / 2 ^ 40)
    if r = 1 then d else d.applyFault n f 13 r

def Dev.armApply (d : Dev) (n : Nat) (f : Flight) (mask : Nat) (on : Bool) : Dev :=
  let units := (List.range 8).filter fun u => mask / 2 ^ u % 2 == 1
  if units.any fun u => d.claimedBy n false (16 + u) then d.applyFault n f 10
  else units.foldl (fun d u => if on then d.trgArmArmEff u else d.trgArmDisarmEff u) d

/-- The fault code of a TONE, if it has one (R277). -/
def Dev.toneFault (d : Dev) (n su : Nat) (a b : W64) : Option Nat :=
  if d.claimedBy n false (48 + su) then some 10 else if a >>> 48 != 0 || b >>> 48 != 0 then some 8 else none

def Dev.playApply (d : Dev) (n : Nat) (f : Flight) (su : Nat) (a b : W64) : Dev :=
  if d.claimedBy n false (48 + su) then d.applyFault n f 10
  else
    let ofs := a.toNat % 2 ^ 48
    let len := b.toNat % 2 ^ 32
    let kind := b.toNat / 2 ^ 32 % 4
    let r := d.playCheck su ofs len kind
    if r = 1 then (d.playAccept su kind { ofs := ofs, len := len, applied := d.now }).stmShow su
    else (d.playRefused su).applyFault n f 14 r

/-- The requester that needle `n` is. -/
def needleRq (n : Nat) : Rq := .needle (Fin.ofNat 16 n)

/-- An effect that is no write of registers applies. -/
def Dev.applyEffect (d : Dev) (n : Nat) (f : Flight) : Dev :=
  match f.eff with
  | .getf word lsb wm1 dest sx =>
    match d.getfRead (needleRq n) word lsb wm1 sx with
    | none => d.applyFault n f 8
    | some (v, d) => d.updNdl n fun x =>
      { x.setReg dest v with busy := (dest, d.now + 1) :: x.busy.filter fun e => e.1 != dest && decide (d.now < e.2) }
  | .arm mask on => d.armApply n f mask on
  | .seg lane a b => d.segApply n f lane a b
  | .caston a b => d.castonApply n f a b
  | .bindoff _ => d.bindoffApply n
  | .sync => d.decSyncGoEff
  | .play su a b => d.playApply n f su a b
  | .post q a b =>
    let x := d.ndl.needle.get n
    let body := leBytes (d.stamp (n * 2 ^ 28 + x.posts % 2 ^ 28) d.now 0).toNat 16 ++ leBytes a.toNat 8 ++ leBytes b.toNat 8
    (d.post q 1 2 (300 + n) body).updNdl n fun x => { x with posts := x.posts + 1 }
  | .signal code => (d.put NDL_SIGCODE.CODE code n).raise (417 + 2 * n)
  | .mark marker frames =>
    if d.claimedBy n true marker then d.applyFault n f 10 else d.markPulse marker frames (d.now + 1)
  | .setf .. | .tone .. => d

/-- A field write of a needle among the writes of its frame. SETF and TONE are writes of registers; a TONE writes both of
its registers (R269, R277). -/
def WriteRun.needle (w : WriteRun) (n : Nat) (f : Flight) : WriteRun :=
  match f.eff with
  | .setf word lsb wm1 value =>
    match w.setfValue n word lsb wm1 value with
    | .inl code => { w with d := w.d.applyFault n f code }
    | .inr v => w.write (needleRq n) (4 * word) ((w.d.fieldAt word).width / 8) v
  | .tone su k a b =>
    match w.d.toneFault n su a b with
    | some code => { w with d := w.d.applyFault n f code }
    | none => (w.reg (needleRq n) ⟨.STM_TFREQ, su, k, 0⟩ a).reg (needleRq n) ⟨.STM_TPA, su, k, 0⟩ b
  | _ => { w with d := w.d.applyEffect n f }

end Sys2Proof.Machine
end

