-- ==== Sys2Proof/Machine/Frame.lean ====
section
/-!
DEFINITION. The end of a frame (01_engine_at_a_glance.md R38; 21_fault_accounting.md R494): the frame's writes apply, in the
order of R38, and the next frame begins. A command that writes registers joins the writes of its frame; a command that is no
access acts in a frame of no writes, the next one if the frame holds some (log entry 31).
-/
namespace Sys2Proof.Machine

/-- The place of a requester in the order of a frame's writes (R38, R337); a transfer writes as the host link does. -/
def rqRank : Rq → Nat
  | .host => 0
  | .cmdq q => 1 + q.val
  | .xfer c => 5000 + c.val
  | .hk => 6000
  | .needle n => 7000 + n.val

/-- The place of a write in that order. -/
def FrameWrite.rank : FrameWrite → Nat
  | .bus w => rqRank w.rq
  | .needle n _ => 7000 + n

/-- Put a write among those of its frame, behind the ones of equal rank. -/
def insertWrite (x : FrameWrite) : List FrameWrite → List FrameWrite
  | [] => [x]
  | y :: t => if x.rank < y.rank then x :: y :: t else y :: insertWrite x t

/-- The writes in the order in which they apply. -/
def sortWrites (ws : List FrameWrite) : List FrameWrite := ws.foldl (fun l x => insertWrite x l) []

/-- One write of the frame. -/
def WriteRun.apply (w : WriteRun) : FrameWrite → WriteRun
  | .bus x => w.one x
  | .needle n f => w.needle n f

/-- The frame's writes apply (R38, R494). -/
def Dev.flush (d : Dev) : Dev :=
  let run : WriteRun := { d := d.setBus { d.bus with writes := [] } }
  ((sortWrites d.bus.writes).foldl WriteRun.apply run).finish

/-- The frame ends if it holds writes: they apply, and the next frame begins. -/
def Dev.frameEnd (d : Dev) : Dev :=
  if d.bus.writes.isEmpty then d else d.flush.advanceTo (d.now + 1)

/-- A frame passes in which nothing more is commanded (DESIGN CHOICE, log entry 1). -/
def Dev.idle (d : Dev) : Dev := if d.bus.writes.isEmpty then d.advanceTo (d.now + 1) else d.frameEnd

/-- Frame `t` is reached; a frame that it lies beyond ends with its writes. -/
def Dev.reach (d : Dev) (t : Nat) : Dev := if d.now < t then d.frameEnd.advanceTo t else d

/-- A write joins those of its frame. -/
def Dev.written (d : Dev) (w : FrameWrite) : Dev := d.setBus { d.bus with writes := d.bus.writes ++ [w] }

/-- Writes of BAR0 join those of the frame; no needle writes so (R17). -/
def Dev.busWrites (ws : List BusWr) (d : Dev) : Dev :=
  ws.foldl (fun d w => match w.rq with
    | .needle _ => d
    | _ => d.written (.bus w)) d

/-! ### How commands meet the frame -/

/-- A command that is no access: it acts in a frame that holds no writes. -/
def State.row (s : State) (f : Dev → Dev) : Host.Outcome State Fault Refusal := s.effect fun d => f d.frameEnd

/-- A command that stands for a write whose effect begins with the next frame: it ends its frame. -/
def State.rowLast (s : State) (f : Dev → Dev) : Host.Outcome State Fault Refusal := s.row fun d => (f d).idle

/-- The requester has already written in this frame. -/
def Dev.hasWritten (d : Dev) (rq : Rq) : Bool := d.bus.writes.any fun x => match x with
  | .bus w => w.rq == rq
  | .needle _ _ => false

/-- An access of BAR0: it joins the frame, or the next one if its requester has already written in this one. -/
def State.access (s : State) (rqs : List Rq) (f : Dev → Dev) : Host.Outcome State Fault Refusal :=
  s.effect fun d => f (if rqs.any d.hasWritten then d.frameEnd else d)

/-! ### Effects of needles (R243) -/

/-- The next effect of needle `n` has its frame, if it is of the class: a field write joins the frame's writes, the others act
at once. -/
def Dev.effectEff (cls n : Nat) (d : Dev) : Dev :=
  match (d.ndl.needle.get n).flights with
  | [] => d
  | f :: rest =>
    if f.eff.cls ≠ cls then d
    else
      let d := (d.reach f.due).updNdl n fun x => { x with flights := rest }
      if cls = 0 then d.written (.needle n f) else d.applyEffect n f

/-! ### The rows of writes -/

def Dev.highHalfWriteEff (rq : Rq) (addr : Nat) (v : W32) (d : Dev) : Dev :=
  if d.isHigh addr then d.busWrites [⟨rq, addr, 4, v.setWidth 64⟩] else d
def Dev.lowHalfWriteEff (rq : Rq) (addr : Nat) (v : W32) (d : Dev) : Dev :=
  if d.isLow addr then d.busWrites [⟨rq, addr, 4, v.setWidth 64⟩] else d

/-- A 4-byte host access at an offset that is not mapped now. -/
def Dev.unmappedNow (d : Dev) (addr : Nat) : Bool :=
  d.place addr == .none || (decide (2 ≤ d.hostMode) && ! inGlbHk addr)

/-- An aligned host access with an unmapped half (R36). -/
def Dev.unmappedEff (write : Bool) (addr : Nat) (wide : Bool) (data : W64) (d : Dev) : Dev :=
  let size := if wide then 8 else 4
  if addr % size ≠ 0 ∨ ! (d.unmappedNow addr || (wide && d.unmappedNow (addr + 4))) then d
  else if write then d.busWrites [⟨.host, addr, size, data⟩] else d.readEff .host addr size

end Sys2Proof.Machine
end

