-- ==== Sys2Proof/Machine/EventRows.lean ====
section
/-!
DEFINITION. The commands of the event inputs and of the event router, each its effect on the module.
How a command meets its frame: Frame.lean.
-/
namespace Sys2Proof.Machine

/-! ### EventInputs.lean -/

def execEviGmodeWrite (v : BitVec 16) (s : State) := s.row (Dev.eviGmodeWriteEff v.toNat)
def execGroupReady (g : Fin 8) (s : State) := s.row (Dev.groupReadyEff g.val)
def execEventEdge (i : Fin 128) (k : Nat) (bin : Fin 160) (rise : Bool) (s : State) :=
  s.row (Dev.eventEdgeEff i.val k bin.val rise)
def execLogicSample (g : Fin 8) (k : Nat) (samples : List (BitVec 16)) (s : State) :=
  s.row (Dev.logicSampleEff g.val k samples)
def execStampCollect (s : State) := s.row Dev.stampCollectEff
def execBatchTimeout (i : Fin 128) (s : State) := s.row (Dev.batchTimeoutEff i.val)
def execEviIcfgWrite (i : Fin 128) (v : W32) (s : State) := s.row (Dev.eviIcfgWriteEff i.val v)
def execGaugeStart (i : Fin 128) (s : State) := s.row (Dev.gaugeStartEff i.val)
def execGaugeAuto (i : Fin 128) (s : State) := s.row (Dev.gaugeAutoEff i.val)
def execGaugeResult (hits : List Nat) (s : State) := s.row (Dev.gaugeResultEff hits)
def execGaugeTableSave (s : State) := s.row Dev.gaugeTableSaveEff
def execIntervalDrain (u : Fin 32) (s : State) := s.row (Dev.intervalDrainEff u.val)
def execIuCfgWrite (u : Fin 32) (v : W32) (s : State) := s.row (Dev.iuCfgWriteEff u.val v)

/-! ### Events.lean -/

def execEventRaised (e : Fin 640) (s : State) := s.row (Dev.eventRaisedEff e.val)

end Sys2Proof.Machine
end

