-- ==== Sys2Proof/Machine/Apertures.lean ====
section
/-!
DEFINITION. The four apertures of BAR2 (14_host_link_queues_and_events.md R326, R327).
-/
namespace Sys2Proof.Machine

/-- The space and the offset that a BAR2 offset reaches (R326). -/
def Dev.aperture (d : Dev) (x : Nat) : Nat × Nat :=
  let w := x / 2 ^ 34
  (d.get QUE_APT.SPACE w, d.get QUE_APT.BASE w * 2 ^ 21 + x % 2 ^ 34)

/-- A range lies in its space. -/
def Dev.inSpace (d : Dev) (space ofs n : Nat) : Bool :=
  match space with
  | 0 => decide (ofs + n ≤ benchSize)
  | 1 => decide (ofs + n ≤ d.get BEN_QRY_CAP.BYTES)
  | 2 => decide (ofs + n ≤ 0x10000000)
  | _ => false

/-- An access that the space does not hold is counted (R327). -/
def Dev.apertureOor (d : Dev) : Dev := (d.count QUE_CNT_APT.OOR).raise 519

/-- The completion of an aperture read. -/
def Dev.apertureAnswer (d : Dev) (bytes : List Byte) (poison : Bool) : Dev :=
  d.setLink { d.link with rbytes := bytes, rpoison := poison }

/-- A read. Beside the full operation of BAR0 no aperture answers (DEDUCED, log entry 36). -/
def Dev.apertureReadEff (x n : Nat) (d : Dev) : Dev :=
  if d.hostMode ≠ 1 then d
  else
    let (space, ofs) := d.aperture x
    if ! d.inSpace space ofs n then d.apertureOor.apertureAnswer (List.replicate n 0) false
    else if space = 2 then d.apertureAnswer (d.tallyRead ofs n) false
    else
      let bytes := d.storeRead space ofs n
      if d.poisoned space ofs n then
        ((d.count QUE_CNT_APT.POISON).raise 520).apertureAnswer bytes (d.flag QUE_APT_CTL.POISON_EP)
      else d.apertureAnswer bytes false

/-- A write. -/
def Dev.apertureWriteEff (x : Nat) (data : List Byte) (d : Dev) : Dev :=
  if d.hostMode ≠ 1 then d
  else
    let (space, ofs) := d.aperture x
    if ! d.inSpace space ofs data.length then d.apertureOor
    else if space = 2 then d.tallySpaceWriteEff ofs data
    else d.storeWrite space ofs data

end Sys2Proof.Machine
end

