-- ==== Sys2Proof/Machine/Commands.lean ====
section
/-!
DEFINITION. Command queues (14_host_link_queues_and_events.md R336-R338): the check and the application of an entry that
has been read, one a frame in ring order.
-/
namespace Sys2Proof.Machine

/-- The words of a command entry (R336). -/
def cmdOp (c : Line) : Nat := c.w0.toNat % 256
def cmdCount (c : Line) : Nat := c.w0.toNat / 2 ^ 8 % 16
def cmdSlots (c : Line) : List W64 := [c.w2, c.w3, c.w4, c.w5]
def slotOfs (s : W64) : Nat := s.toNat % 2 ^ 32
def slotVal (s : W64) : W64 := s >>> 32

/-- Reserved bits of an entry, or bits that its command does not use, are not 0 (R336, R337). -/
def cmdReserved (c : Line) : Bool :=
  c.w0.toNat / 2 ^ 28 % 16 != 0 || c.w0.toNat / 2 ^ 12 % 16 != 0 || c.w7 != 0
    || (if cmdOp c = 3 then c.w6 >>> 8 != 0 else c.w1 != 0 || c.w6 != 0)
    || ((cmdSlots c).drop (cmdCount c)).any (· != 0)
    || (cmdOp c == 2 && ((cmdSlots c).take (cmdCount c)).any fun s => slotVal s != 0)

/-- The entry is a BADCMD (R337). -/
def Dev.cmdBad (d : Dev) (c : Line) : Bool :=
  decide (3 < cmdOp c) || decide (cmdCount c = 0) || decide (4 < cmdCount c) || cmdReserved c
    || (cmdOp c != 0 && ((cmdSlots c).take (cmdCount c)).any fun s =>
        decide (slotOfs s % 4 ≠ 0) || d.unmappedNow (slotOfs s))
    || (cmdOp c == 2 && decide (2 < cmdCount c) && d.get QUE_CFG.ESIZE (c.w0.toNat / 2 ^ 16 % 2 ^ 12) == 0)

/-- The requester that command queue `q` is. -/
def cmdRq (q : Nat) : Rq := .cmdq (Fin.ofNat 4096 q)

/-- A command applies its slots (R337): host writes among those of the frame, or reads in it. -/
def Dev.cmdApply (d : Dev) (q : Nat) (c : Line) : Dev × List Nat :=
  let slots := (cmdSlots c).take (cmdCount c)
  match cmdOp c with
  | 1 | 3 => (d.busWrites (slots.map fun s => ⟨cmdRq q, slotOfs s, 4, slotVal s⟩), [])
  | 2 => slots.foldl (fun (d, l) s =>
      let (v, d) := d.hostRead (cmdRq q) (slotOfs s) 4
      (d, l ++ [v.toNat])) (d, [])
  | _ => (d, [])

/-- A good command applies, and completes with the values that it read. -/
def Dev.cmdRun (d : Dev) (q : Nat) (c : Line) : Dev :=
  let r := d.cmdApply q c
  r.1.cmdComplete q c 0 r.2

/-- A command whose turn has come: a bad one completes so, and a WRITE_AT waits for its own frame (R337). -/
def Dev.cmdTurn (d : Dev) (q : Nat) (c : Line) : Dev :=
  if d.cmdBad c then d.cmdComplete q c 1 []
  else if cmdOp c = 3 then
    match d.frameOf (c.w6.toNat % 256) c.w1.toNat with
    | none => d.cmdComplete q c 2 []
    | some k => (d.reach k).cmdRun q c
  else d.cmdRun q c

/-- The first frame in which a command of a queue may apply: one after it was read and after the previous command. -/
def QueueState.firstFrame (s : QueueState) (read : Nat) : Nat :=
  max (read + 1) (match s.applied with
    | some f => f + 1
    | none => 0)

/-- The oldest command of queue `q` that has been read takes its turn, if its OP is `op` or a reserved one: in the first
frame after it was read and after the previous command, and a WRITE_AT in its own frame (R337). -/
def Dev.commandEff (op q : Nat) (d : Dev) : Dev :=
  let s := d.que.q.get q
  match s.cmds with
  | [] => d
  | e :: _ =>
    if (cmdOp e.line ≠ op ∧ cmdOp e.line ≤ 3) ∨ d.hostMode ≠ 1 then d
    else (d.reach (s.firstFrame e.frame)).cmdTurn q e.line

end Sys2Proof.Machine
end

