-- ==== Sys2Proof/Machine/Xfer.lean ====
section
/-!
DEFINITION. What moves the bytes of the transfer engine (15_transfer_engine.md R352-R359): the fetch of a descriptor, a
piece of its data, and the end of its last write.
-/
namespace Sys2Proof.Machine

/-! ### Reading and writing the spaces (R349) -/

/-- The requester that channel `c` is. -/
def xferRq (c : Nat) : Rq := .xfer (Fin.ofNat 64 c)

/-- Read `n` 32-bit words of BAR0 as host-link accesses of channel `c`, in ascending order. -/
def Dev.regWordsRead (d : Dev) (c a : Nat) : Nat → List Byte × Dev
  | 0 => ([], d)
  | n + 1 =>
    let (v, d) := d.hostRead (xferRq c) a 4
    let (t, d) := d.regWordsRead c (a + 4) n
    (leBytes v.toNat 4 ++ t, d)

/-- Write 32-bit words of BAR0 as host-link accesses of the frame, in ascending order, and whether one is discarded (R36);
bytes that fill no word are an access of an unaccepted size. -/
def Dev.regWordsWrite (d : Dev) (c a : Nat) : List Byte → Dev × Bool
  | b0 :: b1 :: b2 :: b3 :: t =>
    let lost := d.unmappedNow a
    let (d, l) := (d.busWrites [⟨xferRq c, a, 4, BitVec.ofNat 64 (leNat [b0, b1, b2, b3])⟩]).regWordsWrite c (a + 4) t
    (d, lost || l)
  | [] => (d, false)
  | l => (d.busWrites [⟨xferRq c, a, l.length, 0⟩], true)

/-- Read a piece from a space other than HOST, and whether it is poisoned (R313). -/
def Dev.spaceRead (d : Dev) (c sp a n : Nat) : List Byte × Bool × Dev :=
  match sp with
  | 1 => (d.storeRead 0 a n, d.poisoned 0 a n, d)
  | 2 => (d.storeRead 1 a n, d.poisoned 1 a n, d)
  | 3 => (d.tallyRead a n, false, d)
  | 4 => (d.ras.mem.bytes a n, false, d)
  | 5 => (d.ndl.prog.bytes a n, false, d)
  | _ =>
    let (b, d) := d.regWordsRead c a (n / 4)
    (b, false, d)

/-- Write a piece to a space, and whether the destination discarded some of it (R356). -/
def Dev.spaceWrite (d : Dev) (c sp a : Nat) (b : List Byte) (poison : Bool) : Dev × Bool :=
  match sp with
  | 0 =>
    let d := d.setXfe { d.xfe with hostPoison := poison }
    (if d.link.up then (d.setQue { d.que with hostMem := d.que.hostMem.store a b }) else d, false)
  | 1 => (d.storeWrite 0 a b, false)
  | 2 => (d.storeWrite 1 a b, false)
  | 3 => (d.tallySpaceWriteEff a b, d.tallyDiscards a b.length)
  | 4 => ((d.setRas { d.ras with mem := d.ras.mem.store a b }), false)
  | 5 => (d.progWrite a b, d.progBusy a b.length)
  | _ => d.regWordsWrite c a b

/-! ### Swap and check value (R354, R355) -/

/-- The bytes rearranged in units, from the start of a unit. -/
def swapBytes (s : Nat) : List Byte → List Byte
  | b0 :: b1 :: b2 :: b3 :: t =>
    (match s with
    | 1 => [b1, b0, b3, b2]
    | 2 => [b3, b2, b1, b0]
    | 3 => [b2, b3, b0, b1]
    | _ => [b0, b1, b2, b3]) ++ swapBytes s t
  | [b0, b1] => if s = 1 then [b1, b0] else [b0, b1]
  | l => l

/-- One byte of the reflected CRC-32. -/
def crcByte (c : Nat) (b : Byte) : Nat :=
  (List.range 8).foldl (fun c _ => if c % 2 = 1 then c / 2 ^^^ 0xEDB88320 else c / 2) (c ^^^ b.toNat)

/-- One byte of the MZ-2 sum: the sum, and a low byte that waits for its high byte. -/
def mzByte (x : Nat × Option Nat) (b : Byte) : Nat × Option Nat :=
  match x.2 with
  | none => (x.1, some b.toNat)
  | some l => ((x.1 + l + 256 * b.toNat) % 65536, none)

/-- The check value takes bytes as written. -/
def XferChan.checked (x : XferChan) (b : List Byte) : XferChan :=
  match descCheck x.desc with
  | 1 => { x with check := b.foldl crcByte x.check }
  | 2 =>
    let r := b.foldl mzByte (x.check, x.odd)
    { x with check := r.1, odd := r.2 }
  | _ => x

/-! ### The rows -/

/-- The STATUS of a failed read, if it failed (R352, R356). -/
def readStatus : ReadEnd → Option Nat
  | .ur => some 1
  | .ca => some 2
  | .timeout => some 3
  | .ok | .poison => none

/-- A read of the host can end so: while the link is down it gives no data (R347, R364). -/
def Dev.hostEnds (d : Dev) (ending : ReadEnd) : Bool := d.link.up || (readStatus ending).isSome

/-- A descriptor has been read: in a ring it must be the device's, in a chain within the hop limit; then its checks. -/
def Dev.xferFetched (d : Dev) (c : Nat) (l : Line) : Dev :=
  let x := d.xfe.chan.get c
  if x.mode = 2 ∧ ! descOwn l then
    if x.kick then d.updXfer c fun x => { x with kick := false }
    else ((d.xferState c 4).updXfer c fun x => { x with phase := .idle }).raise 541
  else if x.mode = 1 ∧ max 1 (d.get XFE_HOP_LIMIT.LIMIT c) < d.get XFE_HOPS.HOPS c then
    (d.updXfer c fun x => { x with desc := l }).xferFail c 4 true
  else d.xferBegin c l

/-- A descriptor read completes (R352). One in the bench is read there. -/
def Dev.descriptorFetchEff (c : Nat) (ending : ReadEnd) (line : Line) (d : Dev) : Dev :=
  let x := d.xfe.chan.get c
  if x.phase ≠ .fetch then d
  else if x.addr % 2 = 1 then
    let a := x.addr / 64 * 64
    if benchSize < a + 64 then d.xferFail c 8 false
    else if d.poisoned 0 a 64 then d.xferFail c 7 false
    else d.xferFetched c (d.ben.bench.line a)
  else if ! d.hostEnds ending then d
  else match readStatus ending with
    | some s => d.xferFail c s false
    | none => if ending = .poison then d.xferFail c 7 false else d.xferFetched c line

/-- The last byte has been written: the check value is appended, and the channel waits for the last write to end. -/
def Dev.xferLast (d : Dev) (c : Nat) : Dev :=
  let x := d.xfe.chan.get c
  let n := descAppended x.desc
  let (d, lost) := if n = 0 then (d, false)
    else d.spaceWrite c (descDst x.desc) (x.desc.w2.toNat + descCount x.desc) (leBytes x.value n) false
  d.updXfer c fun x => { x with phase := .readback, wdrop := x.wdrop || lost }

/-- A piece of a descriptor's data moves (R353): up to the next 4 KiB boundary of the source. Of a HOST source, `ending` and
`data` tell how the read ended and what it gave. -/
def Dev.xferPieceEff (c : Nat) (ending : ReadEnd) (data : List Byte) (d : Dev) : Dev :=
  let x := d.xfe.chan.get c
  if x.phase ≠ .data || (descSrc x.desc == 0 && ! d.hostEnds ending) then d
  else
    let a := x.desc.w1.toNat + x.pos
    let n := min (descCount x.desc - x.pos) (4096 - a % 4096)
    let host := descSrc x.desc == 0
    match if host then readStatus ending else none with
    | some s => d.xferFail c s true
    | none =>
      let (b, poison, d) := if host then (padTo n (data.take n), ending == .poison, d)
        else d.spaceRead c (descSrc x.desc) a n
      let b := swapBytes (descSwap x.desc) b
      let (d, lost) := d.spaceWrite c (descDst x.desc) (x.desc.w2.toNat + x.pos) b poison
      let d := d.updXfer c fun x =>
        { x.checked b with pos := x.pos + n, poisoned := x.poisoned || poison, wdrop := x.wdrop || lost }
      if (d.xfe.chan.get c).pos = descCount x.desc then d.xferLast c else d

/-- The read-back of a HOST destination, or the last acknowledgement of another, completes (R356). -/
def Dev.xferReadbackEff (c : Nat) (ending : ReadEnd) (d : Dev) : Dev :=
  let x := d.xfe.chan.get c
  if x.phase ≠ .readback || (descDst x.desc == 0 && ! d.hostEnds ending) then d
  else match if descDst x.desc = 0 then readStatus ending else none with
    | some s => d.xferFail c s true
    | none => d.xferEnd c

end Sys2Proof.Machine
end

