-- ==== Sys2Proof/Machine/HostRows.lean ====
section
/-!
DEFINITION. The commands of the host link (accesses, queues, command queues, transfers, apertures): each is its effect on the
module, met with the frame as Frame.lean says.
-/
namespace Sys2Proof.Machine

/-! ### BusView.lean -/

def execLowHalfRead (rq : Rq) (addr : Nat) (s : State) := s.access [rq] (Dev.lowHalfReadEff rq addr)
def execHighHalfRead (rq : Rq) (addr : Nat) (s : State) := s.access [rq] (Dev.highHalfReadEff rq addr)
def execRcRead (rq : Rq) (addr : Nat) (inc : W64) (s : State) := s.access [rq] (Dev.rcReadEff rq addr inc)
def execTbNow0Read (rq : Rq) (s : State) := s.access [rq] (Dev.tbNow0ReadEff rq)
def execSnapshotWordRead (rq : Rq) (addr : Nat) (s : State) := s.access [rq] (Dev.snapshotWordReadEff rq addr)
def execBar0BadsizeAccess (write : Bool) (addr size : Nat) (s : State) := s.access [.host] (Dev.badsizeEff write addr size)

/-! ### Bus.lean -/

def execRegisterWrite (ws : List BusWr) (s : State) := s.access (ws.map BusWr.rq) (Dev.busWrites ws)
def execHighHalfWrite (rq : Rq) (addr : Nat) (v : W32) (s : State) := s.access [rq] (Dev.highHalfWriteEff rq addr v)
def execLowHalfWrite (rq : Rq) (addr : Nat) (v : W32) (s : State) := s.access [rq] (Dev.lowHalfWriteEff rq addr v)
def execBar0UnmappedAccess (write : Bool) (addr : Nat) (wide : Bool) (data : W64) (s : State) :=
  s.access [.host] (Dev.unmappedEff write addr wide data)

/-! ### Queues.lean -/

def execHoldoffExpiry (e : Fin 640) (s : State) := s.row (Dev.holdoffExpiryEff e.val)
def execQueueAlloc (any : Bool) (q : Fin 4096) (s : State) := s.row (Dev.queueAllocEff any q.val)
def execQueueFree (q : Fin 4096) (s : State) := s.row (Dev.queueFreeEff q.val)
def execQueueEnable (q : Fin 4096) (s : State) := s.rowLast (Dev.queueEnableEff q.val)
def execQueueDisable (q : Fin 4096) (s : State) := s.row (Dev.queueDisableEff q.val)
def execDoorbell (q : Fin 4096) (idx : BitVec 21) (s : State) := s.row (Dev.doorbellEff q.val idx.toNat)
def execCommandFetch (q : Fin 4096) (ending : ReadEnd) (entry : Line) (s : State) :=
  s.row (Dev.commandFetchEff q.val ending entry)
def execQueueItemWrite (q : Fin 4096) (s : State) := s.row (Dev.queueItemWriteEff q.val)
def execInterruptTimeout (q : Fin 4096) (s : State) := s.row (Dev.interruptTimeoutEff q.val)
def execQueIntWrite (q : Fin 4096) (v : W32) (s : State) := s.rowLast (Dev.queIntWriteEff q.val v)
def execMsixMessage (v : Fin 2048) (s : State) := s.row fun d => d.trySend v.val
def execVectorUnmask (v : Fin 2048) (addr : W64) (data : W32) (s : State) :=
  s.row (Dev.vectorUnmaskEff v.val addr data)
def execModFrExpiry (v : Fin 2048) (s : State) := s.row (Dev.modFrExpiryEff v.val)
def execEventLogWrite (s : State) := s.row Dev.eventLogWriteEff

/-! ### Commands.lean -/

def execCommandNop (q : Fin 4096) (s : State) := s.effect (Dev.commandEff 0 q.val)
def execCommandWrite (q : Fin 4096) (s : State) := s.effect (Dev.commandEff 1 q.val)
def execCommandRead (q : Fin 4096) (s : State) := s.effect (Dev.commandEff 2 q.val)
def execCommandWriteAt (q : Fin 4096) (s : State) := s.effect (Dev.commandEff 3 q.val)

/-! ### XferOps.lean -/

def execXferGo (c : Fin 64) (s : State) := s.row (Dev.xferGoEff c.val)
def execXferKick (c : Fin 64) (s : State) := s.row (Dev.xferKickEff c.val)
def execXferAbort (c : Fin 64) (s : State) := s.row (Dev.xferAbortEff c.val)

/-! ### Xfer.lean -/

def execDescriptorFetch (c : Fin 64) (ending : ReadEnd) (line : Line) (s : State) :=
  s.row (Dev.descriptorFetchEff c.val ending line)
def execXferPiece (c : Fin 64) (ending : ReadEnd) (data : List Byte) (s : State) :=
  s.row (Dev.xferPieceEff c.val ending data)
def execXferReadback (c : Fin 64) (ending : ReadEnd) (s : State) := s.row (Dev.xferReadbackEff c.val ending)

/-! ### Apertures.lean -/

def execApertureRead (x : BitVec 36) (len : Fin 4097) (s : State) := s.row (Dev.apertureReadEff x.toNat len.val)
def execApertureWrite (x : BitVec 36) (data : List Byte) (s : State) := s.row (Dev.apertureWriteEff x.toNat data)

end Sys2Proof.Machine
end

