-- ==== Sys2Proof/Machine/Zhervo.lean ====
section
/-!
DEFINITION. The Zhervo instructions (11_zhervo_instruction_reference.md R263-R278), one definition each: what happens in
the frame of issue.
-/
namespace Sys2Proof.Machine

/-! ### Arithmetic, logic and scratch (R263-R265) -/

/-- The special register that a MOV with X = 1 reads (R265). -/
def Dev.special (d : Dev) (n : Nat) (x : Needle) (a : Nat) : W64 :=
  if a < 8 then BitVec.ofNat 64 ((x.loops[a]?.map Loop.count).getD 0)
  else match a with
    | 8 => BitVec.ofNat 64 d.tick
    | 9 => BitVec.ofNat 64 (d.countAt d.now / 2 ^ 64 % 256)
    | 10 => BitVec.ofNat 64 n
    | _ => BitVec.ofNat 64 x.w

def Dev.zMov (n : Nat) (d : Dev) : Dev :=
  d.issue n 0x10 fun w x d =>
    let v := if zX w then d.special n x (zA w) else x.reg (zA w)
    d.internal n x fun y => y.setReg (zD w) v

def Dev.zLdi (n : Nat) (d : Dev) : Dev :=
  d.issue n 0x11 fun w x d =>
    let imm := BitVec.ofNat 48 (zf w 47 0)
    let v : W64 := match zf w 50 49 with
      | 0 => imm.setWidth 64
      | 1 => imm.signExtend 64
      | _ => ((x.reg (zD w)) &&& 0xFFFFFFFFFFFF) ||| (BitVec.ofNat 64 (zf w 15 0) <<< 48)
    d.internal n x fun y => y.setReg (zD w) v

def Dev.zAdd (n : Nat) (d : Dev) : Dev :=
  d.issue n 0x12 fun w x d =>
    let a := x.reg (zA w)
    let b := x.op w
    d.internal n x fun y => (y.setFlags (a + b) (carryAdd a b) (overflowAdd a b)).setReg (zD w) (a + b)

def Dev.zSub (n : Nat) (d : Dev) : Dev :=
  d.issue n 0x13 fun w x d =>
    let a := x.reg (zA w)
    let b := x.op w
    d.internal n x fun y => (y.setFlags (a - b) (carrySub a b) (overflowSub a b)).setReg (zD w) (a - b)

/-- A result of a logic instruction: C and V are 0. -/
def Dev.zLogic (d : Dev) (n : Nat) (x : Needle) (w v : W64) : Dev :=
  d.internal n x fun y => (y.setFlags v false false).setReg (zD w) v

def Dev.zAnd (n : Nat) (d : Dev) : Dev :=
  d.issue n 0x14 fun w x d => d.zLogic n x w (x.reg (zA w) &&& x.op w)
def Dev.zOr (n : Nat) (d : Dev) : Dev :=
  d.issue n 0x15 fun w x d => d.zLogic n x w (x.reg (zA w) ||| x.op w)
def Dev.zXor (n : Nat) (d : Dev) : Dev :=
  d.issue n 0x16 fun w x d => d.zLogic n x w (x.reg (zA w) ^^^ x.op w)

def Dev.zShl (n : Nat) (d : Dev) : Dev :=
  d.issue n 0x17 fun w x d =>
    let a := x.reg (zA w)
    let s := (x.op w).toNat % 64
    let r := a <<< s
    d.internal n x fun y => (y.setFlags r (carryShl a s) false).setReg (zD w) r

def Dev.zShr (n : Nat) (d : Dev) : Dev :=
  d.issue n 0x18 fun w x d =>
    let a := x.reg (zA w)
    let s := (x.op w).toNat % 64
    let r := if zX w then a.sshiftRight s else a >>> s
    d.internal n x fun y => (y.setFlags r (carryShr a s) false).setReg (zD w) r

def Dev.zCmp (n : Nat) (d : Dev) : Dev :=
  d.issue n 0x19 fun w x d =>
    let a := x.reg (zA w)
    let b := x.op w
    d.internal n x fun y => y.setFlags (a - b) (carrySub a b) (overflowSub a b)

/-- The scratch address of an LD or ST, if it is one (R263). -/
def Needle.scratchAddr (x : Needle) (w : W64) : Option Nat :=
  let a := (x.reg (zA w) + BitVec.ofNat 64 (zf w 11 0)).toNat
  if a < 4096 ∧ a % 8 = 0 then some a else none

def Dev.zLd (n : Nat) (d : Dev) : Dev :=
  d.issue n 0x1A fun w x d =>
    match x.scratchAddr w with
    | some a => d.internal n x fun y => y.setReg (zD w) (BitVec.ofNat 64 (leNat (y.scratch.bytes a 8)))
    | none => d.issueFault n 3

def Dev.zSt (n : Nat) (d : Dev) : Dev :=
  d.issue n 0x1B fun w x d =>
    match x.scratchAddr w with
    | some a => d.internal n x fun y => { y with scratch := y.scratch.store a (leBytes (x.reg (zB w)).toNat 8) }
    | none => d.issueFault n 3

/-! ### Control flow (R266, R267) -/

/-- The target of JMP and CALL. -/
def Needle.target (x : Needle) (w : W64) : Nat :=
  if zf w 50 50 = 1 then (x.reg (zD w)).toNat % 2 ^ 17 else zf w 16 0

def Dev.zJmp (n : Nat) (d : Dev) : Dev := d.issue n 0x08 fun w x d => d.retire n (x.target w) id

def Dev.zBrc (n : Nat) (d : Dev) : Dev :=
  d.issue n 0x09 fun w x d =>
    d.retire n (if x.cond (zf w 55 52) (zf w 51 49) then zf w 16 0 else x.pc + 1) id

def Dev.zCall (n : Nat) (d : Dev) : Dev :=
  d.issue n 0x0A fun w x d =>
    if 16 ≤ x.calls.length then d.issueFault n 6
    else d.retire n (x.target w) fun y => { y with calls := (x.pc + 1) % 2 ^ 17 :: y.calls }

def Dev.zRet (n : Nat) (d : Dev) : Dev :=
  d.issue n 0x0B fun _ x d =>
    match x.calls with
    | [] => d.issueFault n 7
    | p :: t => d.retire n p fun y => { y with calls := t }

def Dev.zNop (n : Nat) (d : Dev) : Dev := d.issue n 0x00 fun _ x d => d.internal n x id

def Dev.zLoop (n : Nat) (d : Dev) : Dev :=
  d.issue n 0x0C fun w x d =>
    let c := if zf w 50 50 = 1 then zf w 48 17 else (x.reg (zD w)).toNat % 2 ^ 40
    if c = 0 then d.retire n (zf w 16 0 + 1) id
    else if 8 ≤ x.loops.length then d.issueFault n 4
    else d.retire n (x.pc + 1) fun y => { y with loops := ⟨c, (x.pc + 1) % 2 ^ 17, zf w 16 0⟩ :: y.loops }

def Dev.zEndloop (n : Nat) (d : Dev) : Dev :=
  d.issue n 0x0D fun w x d =>
    match x.loops with
    | [] => d.issueFault n 5
    | l :: t =>
      if zf w 0 0 = 1 then d.retire n (l.last + 1) fun y => { y with loops := t }
      else if 1 < l.count then d.retire n l.first fun y => { y with loops := { l with count := l.count - 1 } :: t }
      else d.retire n (x.pc + 1) fun y => { y with loops := t }

/-! ### Device fields, framing, arming and requests (R268-R271) -/

def Dev.zSetf (n : Nat) (d : Dev) : Dev :=
  d.issue n 0x20 fun w x d =>
    let v := if zf w 50 50 = 1 then BitVec.ofNat 64 (zf w 49 38) else x.reg (zD w)
    d.launch n x (.setf (zf w 25 0) (zf w 37 32) (zf w 31 26) v)

def Dev.zGetf (n : Nat) (d : Dev) : Dev :=
  d.issue n 0x21 fun w x d =>
    d.launch n x (.getf (zf w 25 0) (zf w 37 32) (zf w 31 26) (zD w) (zf w 50 50 == 1))

def Dev.zCaston (n : Nat) (d : Dev) : Dev :=
  d.issue n 0x28 fun w x d =>
    if x.ctxAt d.now then d.issueFault n 11 else d.launch n x (.caston (x.reg (zD w)) (x.reg (zA w)))

def Dev.zBindoff (n : Nat) (d : Dev) : Dev :=
  d.issue n 0x29 fun _ x d => if x.ctxAt d.now then d.launch n x (.bindoff true) else d.issueFault n 11

def Dev.zArm (n : Nat) (d : Dev) : Dev := d.issue n 0x2A fun w x d => d.launch n x (.arm (zf w 7 0) true)
def Dev.zDisarm (n : Nat) (d : Dev) : Dev := d.issue n 0x2B fun w x d => d.launch n x (.arm (zf w 7 0) false)

def Dev.zSeg (n : Nat) (d : Dev) : Dev :=
  d.issue n 0x2C fun w x d => d.launch n x (.seg (zf w 3 0) (x.reg (zD w)) (x.reg (zA w)))

def Dev.zSync (n : Nat) (d : Dev) : Dev := d.issue n 0x2D fun _ x d => d.launch n x .sync

/-! ### Waits (R272-R274) -/

/-- The frames of a timeout or delay: 0 acts as 1. -/
def waitFrames (v : Nat) : Nat := max 1 (v % 2 ^ 40)

def Dev.zDelay (n : Nat) (d : Dev) : Dev :=
  d.issue n 0x34 fun w x d =>
    let k := waitFrames (if zf w 50 50 = 1 then zf w 39 0 else (x.reg (zD w)).toNat)
    d.beginWait n x .delay none (some (d.now + k, 0))

def Dev.zWaitt (n : Nat) (d : Dev) : Dev :=
  d.issue n 0x32 fun w x d =>
    let era := if zf w 50 50 = 1 then zf w 47 40 else d.countAt d.now / 2 ^ 64 % 256
    let t := era * 2 ^ 64 + (x.reg (zD w)).toNat
    d.beginWait n x (.time t (decide (d.frameOfTime t ≤ d.now))) none none

/-- The timeout frame of a wait with T and the register gB. -/
def Dev.waitLimit (d : Dev) (x : Needle) (w : W64) : Option Nat :=
  if zf w 50 50 = 1 then some (d.now + waitFrames (x.reg (zD w)).toNat) else none

def Dev.zWaittrig (n : Nat) (d : Dev) : Dev :=
  d.issue n 0x31 fun w x d => d.beginWait n x (.event (96 + 8 * zf w 2 0)) (d.waitLimit x w) none

def Dev.zWaite (n : Nat) (d : Dev) : Dev :=
  d.issue n 0x33 fun w x d => d.beginWait n x (.event (zf w 9 0)) (d.waitLimit x w) none

def Dev.zWaitseg (n : Nat) (d : Dev) : Dev :=
  d.issue n 0x30 fun w x d =>
    let l := zf w 3 0
    let all := zf w 49 49 == 1
    let own := x.flights.any fun f => match f.eff with
      | .seg m _ _ => m == l
      | _ => false
    let done := if all && d.laneIdle l && ! own then some (d.now + 1, 0) else none
    d.beginWait n x (.seg l all) (d.waitLimit x w) done

def Dev.zFence (n : Nat) (d : Dev) : Dev := d.issue n 0x03 fun _ x d => d.beginWait n x .fence none none

/-! ### Reports, markers, stimulus, ordering (R275-R278) -/

def Dev.zPost (n : Nat) (d : Dev) : Dev :=
  d.issue n 0x38 fun w x d => d.launch n x (.post (zf w 11 0) (x.reg (zD w)) (x.reg (zA w)))

def Dev.zSignal (n : Nat) (d : Dev) : Dev :=
  d.issue n 0x39 fun w x d =>
    d.launch n x (.signal (if zf w 50 50 = 1 then zf w 15 0 else (x.reg (zD w)).toNat % 65536))

def Dev.zMark (n : Nat) (d : Dev) : Dev :=
  d.issue n 0x3A fun w x d => d.launch n x (.mark (zf w 3 0) (zf w 31 16 + 1))

def Dev.zTone (n : Nat) (d : Dev) : Dev :=
  d.issue n 0x3C fun w x d => d.launch n x (.tone (zf w 1 0) (zf w 5 4) (x.reg (zD w)) (x.reg (zA w)))

def Dev.zPlay (n : Nat) (d : Dev) : Dev :=
  d.issue n 0x3D fun w x d => d.launch n x (.play (zf w 1 0) (x.reg (zD w)) (x.reg (zA w)))

/-- The switch of a pending replacement at a YIELD or HALT: the needle goes on at the new entry (R254). -/
def Dev.switchRun (d : Dev) (n : Nat) (x : Needle) : Dev :=
  let d := (d.internal n x id).replSwitch n
  d.updNdl n fun y => { y with pc := d.get NDL_ENTRY.PC n }

def Dev.zYield (n : Nat) (d : Dev) : Dev :=
  d.issue n 0x02 fun _ x d =>
    if d.replPending n && d.flag NDL_REPLACE.WHEN n then d.switchRun n x else d.internal n x id

def Dev.zHalt (n : Nat) (d : Dev) : Dev :=
  d.issue n 0x01 fun _ x d =>
    if d.replPending n then d.switchRun n x
    else
      (d.retire n (x.pc + 1) fun y =>
        { y with state := 3, flights := if x.ctxAt d.now then addFlight ⟨x.pc, d.now + 2, .bindoff true⟩ y.flights
                                        else y.flights }).raise (416 + 2 * n)

end Sys2Proof.Machine
end

