-- ==== Sys2Proof/Machine/NeedleRows.lean ====
section
/-!
DEFINITION. The commands of the needles, each its effect on the module.
How a command meets its frame: Frame.lean.
-/
namespace Sys2Proof.Machine

/-! ### Needle.lean -/

def execNeedleGo (n : Fin 16) (s : State) := s.rowLast (Dev.needleGoEff n.val)
def execNeedleStop (n : Fin 16) (s : State) := s.row (Dev.needleStopEff n.val)
def execWaitComplete (n : Fin 16) (s : State) := s.row (Dev.waitCompleteEff n.val)
def execReplaceGo (n : Fin 16) (s : State) := s.row (Dev.replaceGoEff n.val)
def execReplaceCancel (n : Fin 16) (s : State) := s.row (Dev.replaceCancelEff n.val)
def execProgStoreWrite (ofs : BitVec 20) (data : List Byte) (s : State) :=
  s.row (Dev.progStoreWriteEff ofs.toNat data)
def execNeedleWindowWrite (addr : BitVec 20) (wide : Bool) (v : W64) (s : State) :=
  s.row (Dev.needleWindowWriteEff addr.toNat wide v)

/-! ### Zhervo.lean -/

def execZMov (n : Fin 16) (s : State) := s.row (Dev.zMov n.val)
def execZLdi (n : Fin 16) (s : State) := s.row (Dev.zLdi n.val)
def execZAdd (n : Fin 16) (s : State) := s.row (Dev.zAdd n.val)
def execZSub (n : Fin 16) (s : State) := s.row (Dev.zSub n.val)
def execZAnd (n : Fin 16) (s : State) := s.row (Dev.zAnd n.val)
def execZOr (n : Fin 16) (s : State) := s.row (Dev.zOr n.val)
def execZXor (n : Fin 16) (s : State) := s.row (Dev.zXor n.val)
def execZShl (n : Fin 16) (s : State) := s.row (Dev.zShl n.val)
def execZShr (n : Fin 16) (s : State) := s.row (Dev.zShr n.val)
def execZCmp (n : Fin 16) (s : State) := s.row (Dev.zCmp n.val)
def execZLd (n : Fin 16) (s : State) := s.row (Dev.zLd n.val)
def execZSt (n : Fin 16) (s : State) := s.row (Dev.zSt n.val)
def execZJmp (n : Fin 16) (s : State) := s.row (Dev.zJmp n.val)
def execZBrc (n : Fin 16) (s : State) := s.row (Dev.zBrc n.val)
def execZCall (n : Fin 16) (s : State) := s.row (Dev.zCall n.val)
def execZRet (n : Fin 16) (s : State) := s.row (Dev.zRet n.val)
def execZNop (n : Fin 16) (s : State) := s.row (Dev.zNop n.val)
def execZLoop (n : Fin 16) (s : State) := s.row (Dev.zLoop n.val)
def execZEndloop (n : Fin 16) (s : State) := s.row (Dev.zEndloop n.val)
def execZSetf (n : Fin 16) (s : State) := s.row (Dev.zSetf n.val)
def execZGetf (n : Fin 16) (s : State) := s.row (Dev.zGetf n.val)
def execZCaston (n : Fin 16) (s : State) := s.row (Dev.zCaston n.val)
def execZBindoff (n : Fin 16) (s : State) := s.row (Dev.zBindoff n.val)
def execZArm (n : Fin 16) (s : State) := s.row (Dev.zArm n.val)
def execZDisarm (n : Fin 16) (s : State) := s.row (Dev.zDisarm n.val)
def execZSeg (n : Fin 16) (s : State) := s.row (Dev.zSeg n.val)
def execZSync (n : Fin 16) (s : State) := s.row (Dev.zSync n.val)
def execZDelay (n : Fin 16) (s : State) := s.row (Dev.zDelay n.val)
def execZWaitt (n : Fin 16) (s : State) := s.row (Dev.zWaitt n.val)
def execZWaittrig (n : Fin 16) (s : State) := s.row (Dev.zWaittrig n.val)
def execZWaite (n : Fin 16) (s : State) := s.row (Dev.zWaite n.val)
def execZWaitseg (n : Fin 16) (s : State) := s.row (Dev.zWaitseg n.val)
def execZFence (n : Fin 16) (s : State) := s.row (Dev.zFence n.val)
def execZPost (n : Fin 16) (s : State) := s.row (Dev.zPost n.val)
def execZSignal (n : Fin 16) (s : State) := s.row (Dev.zSignal n.val)
def execZMark (n : Fin 16) (s : State) := s.row (Dev.zMark n.val)
def execZTone (n : Fin 16) (s : State) := s.row (Dev.zTone n.val)
def execZPlay (n : Fin 16) (s : State) := s.row (Dev.zPlay n.val)
def execZYield (n : Fin 16) (s : State) := s.row (Dev.zYield n.val)
def execZHalt (n : Fin 16) (s : State) := s.row (Dev.zHalt n.val)

/-! ### NeedleApply.lean -/

def execFieldWriteApply (n : Fin 16) (s : State) := s.effect (Dev.effectEff 0 n.val)
def execFieldReadServe (n : Fin 16) (s : State) := s.effect (Dev.effectEff 1 n.val)
def execReportApply (n : Fin 16) (s : State) := s.effect (Dev.effectEff 2 n.val)

end Sys2Proof.Machine
end

