-- ==== Sys2Proof/Machine/PortRows.lean ====
section
/-!
DEFINITION. The commands of the stream ports, the links and the trigger bus, each its effect on the module.
How a command meets its frame: Frame.lean.
-/
namespace Sys2Proof.Machine

/-! ### Ports.lean -/

def execPortEnable (p : Fin 3) (v : W32) (s : State) := s.row (Dev.portEnableEff p.val v)
def execPortDisable (p : Fin 3) (s : State) := s.row (Dev.portDisableEff p.val)
def execEthFrameRx (p : Fin 3) (sub : Fin 4) (arrival : BitVec 10) (f : EthFrame) (s : State) :=
  s.row (Dev.ethFrameRxEff p.val sub.val arrival.toNat f)
def execArpNdEcho (p : Fin 3) (s : State) := s.row (Dev.arpNdEchoEff p.val)
def execCredit (t : Fin 64) (ack limit : BitVec 48) (s : State) :=
  s.row (Dev.creditEff t.val ack.toNat limit.toNat)
def execNack (t : Fin 64) (ack limit : BitVec 48) (runs : List (BitVec 48 × BitVec 16)) (s : State) :=
  s.row (Dev.nackEff t.val ack.toNat limit.toNat (runs.map fun r => (r.1.toNat, r.2.toNat)))
def execFireAt (p : Fin 3) (sub : Fin 4) (arrival : BitVec 10) (datagram : List Byte) (s : State) :=
  s.row (Dev.fireAtEff p.val sub.val arrival.toNat datagram)
def execPacketLaunch (t : Fin 64) (s : State) := s.row (Dev.packetLaunchEff t.val)
def execRetransmit (p : Fin 3) (s : State) := s.row (Dev.retransmitEff p.val)
def execCreditTimeout (t : Fin 64) (s : State) := s.row (Dev.creditTimeoutEff t.val)
def execFaKeyWrite (k : Fin 4) (i : Fin 8) (v : W32) (s : State) := s.row (Dev.faKeyWriteEff k.val i.val v)
def execSubportLinkUp (p : Fin 3) (sub : Fin 4) (s : State) := s.row (Dev.subportLinkUpEff p.val sub.val)
def execSubportLinkDown (p : Fin 3) (sub : Fin 4) (s : State) := s.row (Dev.subportLinkDownEff p.val sub.val)

/-! ### Link.lean -/

def execLinkUp (rate : Fin 6) (width : Fin 5) (s : State) := s.row (Dev.linkUpEff rate.val width.val)
def execLinkDown (s : State) := s.row Dev.linkDownEff
def execLinkChange (rate : Fin 6) (width : Fin 5) (s : State) := s.row (Dev.linkChangeEff rate.val width.val)

/-! ### TrigBus.lean -/

def execMarkerPulseEnd (x : Fin 48) (s : State) := s.row (Dev.markerPulseEndEff x.val)
def execOwnershipWrite (v : BitVec 16) (s : State) := s.row (Dev.ownershipWriteEff v.toNat)
def execPinEdge (x : Fin 48) (level : Bool) (sample : Fin 64) (frac : BitVec 16) (s : State) :=
  s.row (Dev.pinEdgeEff x.val level sample.val frac.toNat)
def execFilteredChange (x : Fin 48) (s : State) := s.row (Dev.filteredChangeEff x.val)
def execOutputLaunch (x : Fin 48) (s : State) := s.row (Dev.outputLaunchEff x.val)
def execContention (x : Fin 48) (level : Bool) (s : State) := s.row (Dev.contentionEff x.val level)
def execFaultClear (x : Fin 48) (s : State) := s.row (Dev.faultClearEff x.val)
def execMsgModeEnable (v : W32) (s : State) := s.row (Dev.msgModeEnableEff v)
def execMsgTxGo (v : W32) (s : State) := s.row (Dev.msgTxGoEff v)
def execWordSendStart (s : State) := s.row Dev.wordSendStartEff
def execBackoffExpiry (s : State) := s.row Dev.backoffExpiryEff
def execMsgTx (s : State) := s.row Dev.msgTxEff
def execMsgFrameRx (framed : Bool) (word : W32) (crc : Byte) (ago : BitVec 10) (sample : Fin 64) (frac : BitVec 16)
    (s : State) := s.row (Dev.msgFrameRxEff framed word crc ago.toNat sample.val frac.toNat)
def execPingGo (v : W32) (s : State) := s.row (Dev.pingGoEff v)
def execPingPulse (s : State) := s.row Dev.pingPulseEff
def execPingReply (s : State) := s.row Dev.pingReplyEff
def execPingDone (s : State) := s.row Dev.pingDoneEff
def execPingTimeout (s : State) := s.row Dev.pingTimeoutEff

end Sys2Proof.Machine
end

