-- ==== Sys2Proof/Machine/RasterRows.lean ====
section
/-!
DEFINITION. The commands of the raster units and the displays, each its effect on the module.
How a command meets its frame: Frame.lean.
-/
namespace Sys2Proof.Machine

/-! ### Raster.lean -/

def execCanvasEnable (c : Fin 2) (s : State) := s.row (Dev.canvasEnableEff c.val)
def execRasGo (c : Fin 2) (s : State) := s.row (Dev.rasGoEff c.val)
def execPassStart (c : Fin 2) (s : State) := s.row (Dev.passStartEff c.val)
def execPassEnd (c : Fin 2) (s : State) := s.row (Dev.passEndEff c.val)
def execDpyCommitA (s : State) := s.row Dev.dpyCommitAEff
def execDpyCommitB (s : State) := s.row Dev.dpyCommitBEff
def execVblank (x : Fin 2) (tick : Fin 64) (s : State) := s.row (Dev.vblankEff x.val tick.val)
def execVrrPorchEnd (s : State) := s.row Dev.vrrPorchEndEff
def execFrontBufferSample (x : Fin 2) (s : State) := s.row (Dev.frontBufferSampleEff x.val)
def execTeEdge (tick : Fin 64) (s : State) := s.row (Dev.teEdgeEff tick.val)
def execTeMiss (s : State) := s.row Dev.teMissEff
def execRepair (s : State) := s.row Dev.repairEff
def execFetchUnderrun (x : Fin 2) (n : BitVec 24) (s : State) := s.row (Dev.fetchUnderrunEff x.val n.toNat)
def execDaHotPlug (s : State) := s.row Dev.daHotPlugEff
def execDaLinkTrained (trained : Option (Fin 4 × Fin 3)) (s : State) :=
  s.row (Dev.daLinkTrainedEff (trained.map fun t => (t.1.val, t.2.val)))

end Sys2Proof.Machine
end

