-- ==== Sys2Proof/Machine/StageStore.lean ====
section
/-!
DEFINITION. The stage store (01_engine_at_a_glance.md R30, 08_tally_and_mask_testing.md R196): a sample frame leaves the
delay line for the record lanes, the tally and the history.
-/
namespace Sys2Proof.Machine

/-- Frame `k` of channel `c` passes from the delay line to the history of 4,096 frames (R196). -/
def Dev.stageShift (d : Dev) (k c : Nat) : Dev :=
  d.setPath (d.path.upd c fun p =>
    { p with delay := p.delay.filter fun f => decide (k < f.k)
             hist := ((p.delay.filter fun f => f.k == k) ++ p.hist).take 4096 })

/-- Lane `l` takes a decimation unit's output: it sees whether the unit's channel has a valid frame `k`. A loss ends its segment, and
the fill starts again with the next valid frame (R106, R159). -/
def Dev.laneDecLoss (d : Dev) (k l : Nat) : Dev :=
  let src := d.get REC_LCTL.SRC l
  if d.flag REC_LCTL.EN l && decide (0x10 ≤ src) && decide (src < 0x20) then
    match (d.path.get (d.get DEC_CFG_ACT.SRC (src - 0x10))).delay.find? fun f => f.k == k with
    | some f =>
      if ! f.valid then d.laneLoss l k
      else
        let x := d.lanes.lane.get l
        if x.gap && ! x.dropping then
          d.updLane l fun x => { x with gap := false, win := x.win.map fun w => { w with origin := k } }
        else d
    | none => d.laneLoss l k
  else d

/-- The item rate of unit `u` has changed at a sample frame up to `k`: the lanes that take its output end (R159, R187). -/
def Dev.decRateChange (d : Dev) (k u : Nat) : Dev :=
  match (d.dec.unit.get u).change with
  | some c =>
    if c ≤ k then
      (List.range 16).foldl (fun d l => if d.get REC_LCTL.SRC l = 0x10 + u then d.laneSourceChange l c else d)
        (d.setDec { d.dec with unit := d.dec.unit.upd u fun x => { x with change := none } })
    else d
  | none => d

/-- A request that waits for HOIST space waits one more frame (R155). -/
def Dev.laneWaits (d : Dev) (l : Nat) : Dev :=
  match (d.lanes.lane.get l).win with
  | some w => if w.waiting then d.count REC_CNT_ALLOCW.COUNT l else d
  | none => d

/-- Sample frame `k` leaves the stage store, 214 frames after it was taken (R30); `stalled` are the lanes whose store
takes nothing in this frame (R310). -/
def Dev.stageStoreFrameEff (k : Nat) (stalled : BitVec 16) (d : Dev) : Dev :=
  if k < d.stageNext then d
  else
    let d := d.advanceTo (k + 214)
    let d := d.setLanes { d.lanes with stalled := stalled.toNat }
    let d := (List.range 16).foldl (fun d l => d.laneTurn l) d
    let d := (List.range 16).foldl (fun d u => d.decRateChange k u) (d.setStageNext (k + 1))
    let d := (List.range 16).foldl (fun d l => ((d.laneFrame k l).laneDecLoss k l).laneWaits l) d
    let d := (List.range 4).foldl (fun d c =>
      let f := ((d.path.get c).delay.find? fun f => f.k == k).getD { k := k, valid := false }
      (List.range 8).foldl (fun d j => d.tallyFrame c f j) d) d
    let d := (List.range 4).foldl (fun d c => d.stageShift k c) d
    let d := (List.range 8).foldl (fun d g =>
      (d.setLogic (d.logic.upd g fun l => l.filter fun f => decide (k < f.k + 520)))) d
    d.flowUpdate

end Sys2Proof.Machine
end

