-- ==== Sys2Proof/Machine/RecordRows.lean ====
section
/-!
DEFINITION. The commands of the record lanes, each its effect on the module.
How a command meets its frame: Frame.lean.
-/
namespace Sys2Proof.Machine

/-! ### Lanes.lean -/

def execLaneEnable (l : Fin 16) (v : W32) (s : State) := s.row (Dev.laneEnableEff l.val v)
def execSegmentRequest (rq : Rq) (l : Fin 16) (v : W32) (s : State) := s.row (Dev.segmentRequestEff rq l.val v)
def execRequestActive (l : Fin 16) (s : State) := s.row (Dev.requestActiveEff l.val)
def execHoistWindowPlaced (l : Fin 16) (s : State) := s.row (Dev.hoistWindowPlacedEff l.val)
def execSegmentEnd (l : Fin 16) (s : State) := s.row (Dev.segmentEndEff l.val)
def execSegmentRecord (l : Fin 16) (s : State) := s.row (Dev.segmentRecordEff l.val)
def execRecordDrain (s : State) := s.row Dev.recordDrainEff
def execCloseEntryFreed (l : Fin 16) (s : State) := s.row (Dev.closeEntryFreedEff l.val)
def execSkeinDefine (k : Fin 64) (s : State) := s.rowLast (Dev.skeinDefineEff k.val)
def execSkeinRewind (k : Fin 64) (s : State) := s.row (Dev.skeinRewindEff k.val)

/-! ### LaneEnd.lean -/

def execLaneDisable (l : Fin 16) (s : State) := s.row (Dev.laneDisableEff l.val)
def execLaneFlush (l : Fin 16) (s : State) := s.row (Dev.laneFlushEff l.val)

/-! ### StageStore.lean -/

def execStageStoreFrame (k : Nat) (stalled : BitVec 16) (s : State) := s.row (Dev.stageStoreFrameEff k stalled)
def execDropRunEnd (l : Fin 16) (s : State) := s.row fun d => (d.dropRunEndEff l.val).flowUpdate

end Sys2Proof.Machine
end

