-- ==== Sys2Proof/Machine/SliceRows.lean ====
section
/-!
DEFINITION. The commands of the converter slices and of their correction, each its effect on the module.
How a command meets its frame: Frame.lean.
-/
namespace Sys2Proof.Machine

/-! ### Slices.lean -/

/-- A sample frame of other than 64 codes is no frame of a slice. -/
def execSampleFrame (n : Fin 4) (codes : List (BitVec 10)) (s : State) : Host.Outcome State Fault Refusal :=
  if codes.length = 64 then s.row (Dev.sampleFrameEff n.val codes) else .fault (.malformed "SAMPLE_FRAME")
def execSliceEnable (n : Fin 4) (s : State) := s.row (Dev.sliceEnableEff n.val)
def execSliceDisable (n : Fin 4) (s : State) := s.rowLast (Dev.sliceDisableEff n.val)
def execEnableCalibrationDone (n : Fin 4) (cal : List (Fin 88 × CalData)) (s : State) :=
  s.row (Dev.enableCalibrationDoneEff n.val (cal.map fun x => (x.1.val, x.2)))
def execRotation (n : Fin 4) (h : Fin 8) (s : State) := s.row (Dev.rotationEff n.val h.val)
def execSubconverterSwap (n : Fin 4) (h : Fin 8) (s : State) := s.row (Dev.subconverterSwapEff n.val h.val)
def execMonitorWindowEnd (n : Fin 4) (h : Fin 8) (outside : BitVec 11) (s : State) :=
  s.row (Dev.monitorWindowEndEff n.val h.val outside.toNat)
def execSparingTransition (n : Fin 4) (h : Fin 8) (s : State) := s.row (Dev.sparingTransitionEff n.val h.val)
def execSpareCalibrationDone (n : Fin 4) (h : Fin 8) (cal : CalData) (s : State) :=
  s.row (Dev.spareCalibrationDoneEff n.val h.val cal)
def execFailClrWrite (n : Fin 4) (h : Fin 8) (umask : BitVec 11) (s : State) :=
  s.row (Dev.failClrWriteEff n.val h.val umask.toNat)
def execDacRouteWrite (n : Fin 4) (v : W32) (s : State) := s.row (Dev.dacRouteWriteEff n.val v)
def execInjectionSwitch (n : Fin 4) (s : State) := s.row (Dev.injectionSwitchEff n.val)
def execSliceClockLoss (n : Fin 4) (s : State) := s.row (Dev.sliceClockLossEff n.val)
def execSliceClockLock (n : Fin 4) (s : State) := s.row (Dev.sliceClockLockEff n.val)
def execTableCommitSub (n : Fin 4) (tim : Bool) (s : State) := s.row fun d => d.tableCommit n.val true tim
def execTableCommitTim (n : Fin 4) (s : State) := s.row fun d => d.tableCommit n.val false true
def execCommitEffect (n : Fin 4) (s : State) := s.row (Dev.commitEffectEff n.val)
def execTblSwitch (n : Fin 4) (s : State) := s.row (Dev.tblSwitchEff n.val)
def execTableWindowWrite (n : Fin 4) (ofs : BitVec 18) (v : W32) (s : State) :=
  s.row (Dev.tableWindowWriteEff n.val ofs.toNat v)

/-! ### Correction.lean -/

def execCorrectedFrame (c : Fin 4) (s : State) := s.row (Dev.correctedFrameEff c.val)
def execNospareMatching (n : Fin 4) (h : Fin 8) (gains : List (BitVec 16)) (s : State) :=
  s.row (Dev.nospareMatchingEff n.val h.val gains)
def execSkewUpdate (n : Fin 4) (s : State) := s.row (Dev.skewUpdateEff n.val)
def execSwatchStart (n : Fin 4) (s : State) := s.row (Dev.swatchStartEff n.val)
def execSwatchCapture (n : Fin 4) (s : State) := s.row (Dev.swatchCaptureEff n.val)
def execSwatchRouteOff (n : Fin 4) (s : State) := s.row (Dev.swatchRouteOffEff n.val)
def execSwatchResult (n : Fin 4) (fit : SwatchFit) (s : State) := s.row (Dev.swatchResultEff n.val fit)
def execTableFlashSave (n : Fin 4) (s : State) := s.row (Dev.tableFlashSaveEff n.val)

end Sys2Proof.Machine
end

