-- ==== Sys2Proof/Machine/StimulusRows.lean ====
section
/-!
DEFINITION. The commands of the stimulus synthesiser, each its effect on the module.
How a command meets its frame: Frame.lean.
-/
namespace Sys2Proof.Machine

/-! ### Stimulus.lean -/

def execStimEnable (u : Fin 4) (s : State) := s.row (Dev.stimEnableEff u.val)
def execStimDisable (u : Fin 4) (s : State) := s.row (Dev.stimDisableEff u.val)
def execPlaySubmit (u : Fin 4) (kind : Fin 4) (s : State) := s.row (Dev.playSubmitEff u.val kind.val)
def execGranuleBoundary (u : Fin 4) (s : State) := s.row (Dev.granuleBoundaryEff u.val)
def execJumpArrival (u : Fin 4) (s : State) := s.row (Dev.jumpArrivalEff u.val)
def execPrefetchRecord (u : Fin 4) (s : State) := s.row (Dev.prefetchRecordEff u.val)
def execStimClear (u : Fin 4) (s : State) := s.row (Dev.stimClearEff u.val)
def execStaticToneWrite (u : Fin 4) (k : Fin 4) (tpa : Bool) (v : W64) (s : State) :=
  s.row (Dev.staticToneWriteEff u.val k.val tpa v)

end Sys2Proof.Machine
end

