-- ==== Sys2Proof/Machine/StoreRows.lean ====
section
/-!
DEFINITION. The commands of the hoist and of the bench and quarry, each its effect on the module.
How a command meets its frame: Frame.lean.
-/
namespace Sys2Proof.Machine

/-! ### Hoist.lean -/

def execHoistTargetEnable (t : Fin 64) (v : W32) (s : State) := s.row (Dev.hoistTargetEnableEff t.val v)
def execReplayGo (t : Fin 64) (s : State) := s.row (Dev.replayGoEff t.val)
def execHoistPiece (s : State) := s.row Dev.hoistPieceEff
def execHoistEntry (t : Fin 64) (s : State) := s.row (Dev.hoistEntryEff t.val)
def execReplayDone (t : Fin 64) (s : State) := s.row (Dev.replayDoneEff t.val)
def execHoistReleaseWrite (t : Fin 64) (rel : BitVec 48) (s : State) :=
  s.row (Dev.hoistReleaseWriteEff t.val rel.toNat)

/-! ### Quarry.lean -/

def execQuarryRequest (c : Fin 16) (cls : Fin 4) (read : Bool) (slots : Nat) (s : State) :=
  s.row (Dev.quarryRequestEff c.val (cls.val + 1) read slots)
def execHostDeferExpiry (c : Fin 16) (s : State) := s.row (Dev.hostDeferExpiryEff c.val)
def execRefreshDue (c : Fin 16) (rank : Fin 8) (s : State) := s.row (Dev.refreshDueEff c.val rank.val)
def execPatrolScrub (s : State) := s.row Dev.patrolScrubEff
def execMemoryError (quarry : Bool) (block : BitVec 38) (ue : Bool) (row : BitVec 27) (s : State) :=
  s.row (Dev.memoryErrorEff quarry block.toNat ue row.toNat)
def execRowCopyDone (c : Fin 16) (s : State) := s.row (Dev.rowCopyDoneEff c.val)
def execChannelRetire (c : Fin 16) (s : State) := s.row (Dev.channelRetireEff c.val)
def execRetireClear (s : State) := s.row Dev.retireClearEff
def execMigrationBatchDone (s : State) := s.row Dev.migrationBatchDoneEff
def execFreqChangeGo (p : Fin 4) (s : State) := s.row (Dev.freqChangeGoEff p.val)
def execFreqChangeBegin (own : Option (Fin 4)) (s : State) := s.row (Dev.freqChangeBeginEff (own.map Fin.val))
def execFreqDone (s : State) := s.row Dev.freqDoneEff
def execSelfRefreshEntry (c : Fin 16) (s : State) := s.row (Dev.selfRefreshEntryEff c.val)

end Sys2Proof.Machine
end

