-- ==== Sys2Proof/Machine/SystemRows.lean ====
section
/-!
DEFINITION. The commands of the power, resets, firmware, security and test sessions, each its effect on the module.
How a command meets its frame: Frame.lean.
-/
namespace Sys2Proof.Machine

/-! ### Domains.lean -/

def execBlockReady (dom : Fin 96) (dimm : Dimm) (s : State) := s.row (Dev.blockReadyEff dom.val dimm)
def execPdOff (dom : BitVec 7) (s : State) := s.row (Dev.pdOffEff dom.toNat)
def execPdLingerExpiry (dom : Fin 96) (s : State) := s.row (Dev.pdLingerExpiryEff dom.val)

/-! ### Resets.lean -/

def execSoftReset (key : Byte) (s : State) := s.row (Dev.hkReset false key)
def execWarmReset (key : Byte) (s : State) := s.row (Dev.hkReset true key)
def execPerst (s : State) := s.row (Dev.resetRequest true 2)
def execHotReset (s : State) := s.row (Dev.resetRequest true 3)
def execFunctionLevelReset (s : State) := s.row (Dev.resetRequest true 4)
def execDrainEnd (s : State) := s.row Dev.drainEndEff
def execSupplyFault (s : State) := s.row Dev.supplyFaultEff
def execMainPgRise (s : State) := s.row Dev.mainPgRiseEff
def execAonPowerOn (s : State) := s.row Dev.aonPowerOnEff
def execAonPowerLoss (s : State) := s.row Dev.aonLost

/-! ### Power.lean -/

def execStandby (dormant : Bool) (s : State) := s.row (Dev.standbyEff dormant)
def execWake (s : State) := s.row fun d => d.wakeFrom 0
def execWakeSource (src : WakeSrc) (s : State) := s.row (Dev.wakeSourceEff src)
def execWakeComplete (s : State) := s.row Dev.wakeCompleteEff
def execBoot (good : Bool × Bool) (s : State) := s.row (Dev.bootEff good)
def execTempWarn (t : BitVec 16) (s : State) := s.row (Dev.tempWarnEff t)
def execTempCrit (t : BitVec 16) (s : State) := s.row (Dev.tempCritEff t)
def execTempOk (t : BitVec 16) (s : State) := s.row (Dev.tempOkEff t)
def execThermalTrip (s : State) := s.row Dev.thermalTripEff
def execFwStage (good : Bool) (version : W32) (epoch : BitVec 6) (s : State) :=
  s.row (Dev.fwStageEff good version epoch.toNat)
def execFwSwitch (s : State) := s.row Dev.fwSwitchEff
def execFwSwitchStart (s : State) := s.row Dev.fwSwitchStartEff
def execFwConfirm (s : State) := s.row Dev.fwConfirmEff
def execFwWatchdog (s : State) := s.row Dev.fwWatchdogEff

/-! ### Security.lean -/

def execProvision (fuses : Bool) (s : State) := s.row (Dev.signedCommand 1 fuses)
def execField_ (fuses : Bool) (s : State) := s.row (Dev.signedCommand 2 fuses)
def execOwnerAdd (fuses : Bool) (s : State) := s.row (Dev.signedCommand 3 fuses)
def execOwnerRevoke (fuses : Bool) (s : State) := s.row (Dev.signedCommand 4 fuses)
def execDebug (s : State) := s.row Dev.debugEff
def execReturn_ (fuses : Bool) (s : State) := s.row (Dev.signedCommand 6 fuses)
def execGetVersion (s : State) := s.row Dev.getVersionEff
def execGetCapabilities (s : State) := s.row Dev.getCapabilitiesEff
def execNegotiateAlgorithms (s : State) := s.row Dev.negotiateAlgorithmsEff
def execGetDigests (s : State) := s.row Dev.getDigestsEff
def execGetCertificate (slot : Fin 8) (s : State) := s.row (Dev.getCertificateEff slot.val)
def execChallenge (slot : Fin 8) (s : State) := s.row (Dev.challengeEff slot.val)
def execGetMeasurements (index : Byte) (s : State) := s.row (Dev.getMeasurementsEff index.toNat)
def execKeyExchange (s : State) := s.row Dev.keyExchangeEff
def execFinish (ses : Fin 2) (s : State) := s.row (Dev.finishEff ses.val)
def execKeyUpdate (ses : Fin 2) (s : State) := s.row (Dev.keyUpdateEff ses.val)
def execHeartbeat (ses : Fin 2) (s : State) := s.row (Dev.heartbeatEff ses.val)
def execEndSession (ses : Fin 2) (s : State) := s.row (Dev.endSessionEff ses.val)
def execVendorDefinedRequest (ses : Fin 2) (stream : Fin 2) (key : Option (BitVec 256)) (s : State) :=
  s.row (Dev.vendorDefinedRequestEff ses.val stream.val key)
def execIdeError (stream : Fin 2) (s : State) := s.row (Dev.ideErrorEff stream.val)

/-! ### TestSessions.lean -/

def execTestSessionStart (ses : Fin 8) (v : W32) (s : State) := s.rowLast (Dev.testStartEff ses.val (v.setWidth 64))
def execTestSessionEnd (ses : Fin 8) (bits errs : W64) (s : State) :=
  s.row (Dev.testStopEff ses.val bits.toNat errs.toNat)
def execPcieLoopback (s : State) := s.row Dev.pcieLoopbackEff
def execCheckerLock (ses : Fin 8) (s : State) := s.row (Dev.checkerLockEff ses.val)
def execCheckerLockLoss (ses : Fin 8) (bits errs : W64) (s : State) :=
  s.row (Dev.checkerLockLossEff ses.val bits.toNat errs.toNat)

end Sys2Proof.Machine
end

