-- ==== Sys2Proof/Machine/TimeRows.lean ====
section
/-!
DEFINITION. The commands of the time base and of the sample clock, each its effect on the module.
How a command meets its frame: Frame.lean.
-/
namespace Sys2Proof.Machine

/-! ### TimeBase.lean -/

def execRefPresent (mhz100 : Bool) (err : W64) (s : State) := s.row (Dev.refPresentEff mhz100 err)
def execRefAbsent (s : State) := s.row Dev.refAbsentEff
def execExtPresent (err : W64) (s : State) := s.row (Dev.extPresentEff err)
def execExtAbsent (err : W64) (s : State) := s.row (Dev.extAbsentEff err)
def execQualificationExpiry (err : W64) (s : State) := s.row (Dev.qualificationExpiryEff err)
def execTimeStep (s : State) := s.row Dev.timeStepEff
def execHoldoverExit (s : State) := s.row Dev.holdoverExitEff
def execOriginGo (boundary : BitVec 2) (s : State) := s.row (Dev.originGoEff boundary.toNat)
def execOriginSet (s : State) := s.row Dev.originSetEff
def execTickWrap (s : State) := s.row Dev.tickWrapEff
def execPpsIn (sample : Fin 64) (frac : BitVec 16) (err : W64) (s : State) :=
  s.row (Dev.ppsInEff sample.val frac.toNat err)
def execPpsMissing (s : State) := s.row Dev.ppsMissingEff
def execPpsOut (s : State) := s.row Dev.ppsOutEff
def execPtpMessage (rx : PtpRx) (master : Option (W64 × W64)) (s : State) :=
  s.row (Dev.ptpMessageEff rx.msg rx.domain.toNat rx.state.val master)

/-! ### Clock.lean -/

def execSynthLock (s : State) := s.row Dev.synthLockEff
def execSynthUnlock (s : State) := s.row Dev.synthUnlockEff

end Sys2Proof.Machine
end

