-- ==== Sys2Proof/Machine/TriggerRows.lean ====
section
/-!
DEFINITION. The commands of the trigger units, each its effect on the module.
How a command meets its frame: Frame.lean.
-/
namespace Sys2Proof.Machine

/-! ### Trigger.lean -/

def execTrgEnWrite (u : Fin 8) (en : Bool) (s : State) := s.row (Dev.trgEnWriteEff u.val en)
def execTrgArmArm (u : Fin 8) (s : State) := s.row (Dev.trgArmArmEff u.val)
def execTrgArmDisarm (u : Fin 8) (s : State) := s.row (Dev.trgArmDisarmEff u.val)
def execArmingEffect (u : Fin 8) (s : State) := s.row (Dev.armingEffectEff u.val)
def execTrgForce (u : Fin 8) (s : State) := s.row (Dev.trgForceEff u.val)
def execLevelSourceChange (u : Fin 8) (s : State) := s.row (Dev.levelSourceChangeEff u.val)
def execTcmpLoad (u : Fin 8) (era : BitVec 8) (s : State) := s.row (Dev.tcmpLoadEff u.val era.toNat)
def execTimeCompare (u : Fin 8) (s : State) := s.row (Dev.timeCompareEff u.val)
def execTimedTriggerMessage (u : Fin 8) (s : State) := s.row (Dev.timedTriggerMessageEff u.val)
def execTriggerDecision (u : Fin 8) (f : Nat) (s : State) := s.row (Dev.triggerDecisionEff u.val f)
def execPrfCommit (u : Fin 8) (s : State) := s.row (Dev.prfCommitEff u.val)
def execPrfSwitch (u : Fin 8) (s : State) := s.row (Dev.prfSwitchEff u.val)

end Sys2Proof.Machine
end

