-- ==== Sys2Proof/Machine/UnitRows.lean ====
section
/-!
DEFINITION. The commands of the decimation units and tally jobs, each its effect on the module.
How a command meets its frame: Frame.lean.
-/
namespace Sys2Proof.Machine

/-! ### Decimation.lean -/

def execDecCommit (u : Fin 16) (s : State) := s.row (Dev.decCommitEff u.val)
def execDecEnable (u : Fin 16) (en : Bool) (s : State) := s.row (Dev.decEnableEff u.val en)
def execDecRestart (u : Fin 16) (s : State) := s.row (Dev.decRestartEff u.val)
def execDecSyncGo (s : State) := s.row Dev.decSyncGoEff
def execTimedSync (s : State) := s.row Dev.timedSyncEff
def execDecItemDelivery (u : Fin 16) (s : State) := s.row (Dev.decItemDeliveryEff u.val)
def execFastPathItem (u : Fin 16) (s : State) := s.row (Dev.fastPathItemEff u.val)
def execSettled (u : Fin 16) (s : State) := s.row (Dev.settledEff u.val)

/-! ### Tally.lean -/

def execTallyStart (j : Fin 8) (clr : Bool) (s : State) := s.row (Dev.tallyStartEff j.val clr)
def execTallyClearDone (j : Fin 8) (s : State) := s.row (Dev.tallyClearDoneEff j.val)
def execTallyStop (j : Fin 8) (s : State) := s.row (Dev.tallyStopEff j.val)
def execTallyPause (j : Fin 8) (s : State) := s.row (Dev.tallyPauseEff j.val)
def execTallyPaused (j : Fin 8) (s : State) := s.row (Dev.tallyPausedEff j.val)
def execTallyResume (j : Fin 8) (s : State) := s.row (Dev.tallyResumeEff j.val)
def execTallyTrigger (j : Fin 8) (s : State) := s.row (Dev.tallyTriggerEff j.val)
def execTallyRecordComplete (j : Fin 8) (s : State) := s.row (Dev.tallyRecordCompleteEff j.val)
def execHalvingDone (j : Fin 8) (s : State) := s.row (Dev.halvingDoneEff j.val)
def execFoldComplete (j : Fin 8) (s : State) := s.row (Dev.foldCompleteEff j.val)
def execMaskVerdict (j : Fin 8) (s : State) := s.row (Dev.maskVerdictEff j.val)
def execTallyMaskStop (j : Fin 8) (s : State) := s.row (Dev.tallyMaskStopEff j.val)
def execTallySpaceWrite (ofs : BitVec 28) (data : List Byte) (s : State) :=
  s.row (Dev.tallySpaceWriteEff ofs.toNat data)

end Sys2Proof.Machine
end

