-- ==== Sys2Proof/Machine/Dispatch.lean ====
section
/-!
DEFINITION. The dispatch: one arm per command, each a direct call of its meaning.
-/
namespace Sys2Proof.Machine

/-- The meaning of a command, on the state whose queue holds the commands behind it. -/
def exec (i : Instr) (s : State) : Host.Outcome State Fault Refusal :=
  match i with
  | .registerWrite ws => Sys2Proof.Machine.execRegisterWrite ws s
  | .highHalfWrite rq addr v => Sys2Proof.Machine.execHighHalfWrite rq addr v s
  | .lowHalfWrite rq addr v => Sys2Proof.Machine.execLowHalfWrite rq addr v s
  | .lowHalfRead rq addr => Sys2Proof.Machine.execLowHalfRead rq addr s
  | .highHalfRead rq addr => Sys2Proof.Machine.execHighHalfRead rq addr s
  | .rcRead rq addr inc => Sys2Proof.Machine.execRcRead rq addr inc s
  | .bar0BadsizeAccess write addr size => Sys2Proof.Machine.execBar0BadsizeAccess write addr size s
  | .bar0UnmappedAccess write addr wide data => Sys2Proof.Machine.execBar0UnmappedAccess write addr wide data s
  | .holdoffExpiry e => Sys2Proof.Machine.execHoldoffExpiry e s
  | .sampleFrame n codes => Sys2Proof.Machine.execSampleFrame n codes s
  | .sliceEnable n => Sys2Proof.Machine.execSliceEnable n s
  | .sliceDisable n => Sys2Proof.Machine.execSliceDisable n s
  | .enableCalibrationDone n cal => Sys2Proof.Machine.execEnableCalibrationDone n cal s
  | .rotation n h => Sys2Proof.Machine.execRotation n h s
  | .subconverterSwap n h => Sys2Proof.Machine.execSubconverterSwap n h s
  | .monitorWindowEnd n h outside => Sys2Proof.Machine.execMonitorWindowEnd n h outside s
  | .sparingTransition n h => Sys2Proof.Machine.execSparingTransition n h s
  | .spareCalibrationDone n h cal => Sys2Proof.Machine.execSpareCalibrationDone n h cal s
  | .failClrWrite n h umask => Sys2Proof.Machine.execFailClrWrite n h umask s
  | .dacRouteWrite n v => Sys2Proof.Machine.execDacRouteWrite n v s
  | .injectionSwitch n => Sys2Proof.Machine.execInjectionSwitch n s
  | .sliceClockLoss n => Sys2Proof.Machine.execSliceClockLoss n s
  | .sliceClockLock n => Sys2Proof.Machine.execSliceClockLock n s
  | .correctedFrame c => Sys2Proof.Machine.execCorrectedFrame c s
  | .tableCommitSub n tim => Sys2Proof.Machine.execTableCommitSub n tim s
  | .tableCommitTim n => Sys2Proof.Machine.execTableCommitTim n s
  | .commitEffect n => Sys2Proof.Machine.execCommitEffect n s
  | .tblSwitch n => Sys2Proof.Machine.execTblSwitch n s
  | .tableWindowWrite n ofs v => Sys2Proof.Machine.execTableWindowWrite n ofs v s
  | .nospareMatching n h gains => Sys2Proof.Machine.execNospareMatching n h gains s
  | .skewUpdate n => Sys2Proof.Machine.execSkewUpdate n s
  | .swatchStart n => Sys2Proof.Machine.execSwatchStart n s
  | .swatchCapture n => Sys2Proof.Machine.execSwatchCapture n s
  | .swatchRouteOff n => Sys2Proof.Machine.execSwatchRouteOff n s
  | .swatchResult n fit => Sys2Proof.Machine.execSwatchResult n fit s
  | .tableFlashSave n => Sys2Proof.Machine.execTableFlashSave n s
  | .refPresent mhz100 err => Sys2Proof.Machine.execRefPresent mhz100 err s
  | .refAbsent => Sys2Proof.Machine.execRefAbsent s
  | .extPresent err => Sys2Proof.Machine.execExtPresent err s
  | .extAbsent err => Sys2Proof.Machine.execExtAbsent err s
  | .qualificationExpiry err => Sys2Proof.Machine.execQualificationExpiry err s
  | .synthLock => Sys2Proof.Machine.execSynthLock s
  | .synthUnlock => Sys2Proof.Machine.execSynthUnlock s
  | .timeStep => Sys2Proof.Machine.execTimeStep s
  | .holdoverExit => Sys2Proof.Machine.execHoldoverExit s
  | .originGo boundary => Sys2Proof.Machine.execOriginGo boundary s
  | .originSet => Sys2Proof.Machine.execOriginSet s
  | .tickWrap => Sys2Proof.Machine.execTickWrap s
  | .ppsIn sample frac err => Sys2Proof.Machine.execPpsIn sample frac err s
  | .ppsMissing => Sys2Proof.Machine.execPpsMissing s
  | .ppsOut => Sys2Proof.Machine.execPpsOut s
  | .tbNow0Read rq => Sys2Proof.Machine.execTbNow0Read rq s
  | .snapshotWordRead rq addr => Sys2Proof.Machine.execSnapshotWordRead rq addr s
  | .ptpMessage rx master => Sys2Proof.Machine.execPtpMessage rx master s
  | .trgEnWrite u en => Sys2Proof.Machine.execTrgEnWrite u en s
  | .trgArmArm u => Sys2Proof.Machine.execTrgArmArm u s
  | .trgArmDisarm u => Sys2Proof.Machine.execTrgArmDisarm u s
  | .armingEffect u => Sys2Proof.Machine.execArmingEffect u s
  | .trgForce u => Sys2Proof.Machine.execTrgForce u s
  | .levelSourceChange u => Sys2Proof.Machine.execLevelSourceChange u s
  | .tcmpLoad u era => Sys2Proof.Machine.execTcmpLoad u era s
  | .timeCompare u => Sys2Proof.Machine.execTimeCompare u s
  | .timedTriggerMessage u => Sys2Proof.Machine.execTimedTriggerMessage u s
  | .triggerDecision u f => Sys2Proof.Machine.execTriggerDecision u f s
  | .prfCommit u => Sys2Proof.Machine.execPrfCommit u s
  | .prfSwitch u => Sys2Proof.Machine.execPrfSwitch u s
  | .laneEnable l v => Sys2Proof.Machine.execLaneEnable l v s
  | .laneDisable l => Sys2Proof.Machine.execLaneDisable l s
  | .laneFlush l => Sys2Proof.Machine.execLaneFlush l s
  | .segmentRequest rq l v => Sys2Proof.Machine.execSegmentRequest rq l v s
  | .requestActive l => Sys2Proof.Machine.execRequestActive l s
  | .hoistWindowPlaced l => Sys2Proof.Machine.execHoistWindowPlaced l s
  | .stageStoreFrame k stalled => Sys2Proof.Machine.execStageStoreFrame k stalled s
  | .segmentEnd l => Sys2Proof.Machine.execSegmentEnd l s
  | .segmentRecord l => Sys2Proof.Machine.execSegmentRecord l s
  | .recordDrain => Sys2Proof.Machine.execRecordDrain s
  | .closeEntryFreed l => Sys2Proof.Machine.execCloseEntryFreed l s
  | .skeinDefine k => Sys2Proof.Machine.execSkeinDefine k s
  | .skeinRewind k => Sys2Proof.Machine.execSkeinRewind k s
  | .decCommit u => Sys2Proof.Machine.execDecCommit u s
  | .decEnable u en => Sys2Proof.Machine.execDecEnable u en s
  | .decRestart u => Sys2Proof.Machine.execDecRestart u s
  | .decSyncGo => Sys2Proof.Machine.execDecSyncGo s
  | .timedSync => Sys2Proof.Machine.execTimedSync s
  | .decItemDelivery u => Sys2Proof.Machine.execDecItemDelivery u s
  | .fastPathItem u => Sys2Proof.Machine.execFastPathItem u s
  | .settled u => Sys2Proof.Machine.execSettled u s
  | .tallyStart j clr => Sys2Proof.Machine.execTallyStart j clr s
  | .tallyClearDone j => Sys2Proof.Machine.execTallyClearDone j s
  | .tallyStop j => Sys2Proof.Machine.execTallyStop j s
  | .tallyPause j => Sys2Proof.Machine.execTallyPause j s
  | .tallyPaused j => Sys2Proof.Machine.execTallyPaused j s
  | .tallyResume j => Sys2Proof.Machine.execTallyResume j s
  | .tallyTrigger j => Sys2Proof.Machine.execTallyTrigger j s
  | .tallyRecordComplete j => Sys2Proof.Machine.execTallyRecordComplete j s
  | .halvingDone j => Sys2Proof.Machine.execHalvingDone j s
  | .foldComplete j => Sys2Proof.Machine.execFoldComplete j s
  | .maskVerdict j => Sys2Proof.Machine.execMaskVerdict j s
  | .tallyMaskStop j => Sys2Proof.Machine.execTallyMaskStop j s
  | .tallySpaceWrite ofs data => Sys2Proof.Machine.execTallySpaceWrite ofs data s
  | .eviGmodeWrite v => Sys2Proof.Machine.execEviGmodeWrite v s
  | .groupReady g => Sys2Proof.Machine.execGroupReady g s
  | .eventEdge e k bin rise => Sys2Proof.Machine.execEventEdge e k bin rise s
  | .logicSample g k samples => Sys2Proof.Machine.execLogicSample g k samples s
  | .stampCollect => Sys2Proof.Machine.execStampCollect s
  | .batchTimeout e => Sys2Proof.Machine.execBatchTimeout e s
  | .eviIcfgWrite e v => Sys2Proof.Machine.execEviIcfgWrite e v s
  | .gaugeStart e => Sys2Proof.Machine.execGaugeStart e s
  | .gaugeAuto e => Sys2Proof.Machine.execGaugeAuto e s
  | .gaugeResult hits => Sys2Proof.Machine.execGaugeResult hits s
  | .intervalDrain u => Sys2Proof.Machine.execIntervalDrain u s
  | .iuCfgWrite u v => Sys2Proof.Machine.execIuCfgWrite u v s
  | .needleGo n => Sys2Proof.Machine.execNeedleGo n s
  | .needleStop n => Sys2Proof.Machine.execNeedleStop n s
  | .zMov n => Sys2Proof.Machine.execZMov n s
  | .zLdi n => Sys2Proof.Machine.execZLdi n s
  | .zAdd n => Sys2Proof.Machine.execZAdd n s
  | .zSub n => Sys2Proof.Machine.execZSub n s
  | .zAnd n => Sys2Proof.Machine.execZAnd n s
  | .zOr n => Sys2Proof.Machine.execZOr n s
  | .zXor n => Sys2Proof.Machine.execZXor n s
  | .zShl n => Sys2Proof.Machine.execZShl n s
  | .zShr n => Sys2Proof.Machine.execZShr n s
  | .zCmp n => Sys2Proof.Machine.execZCmp n s
  | .zLd n => Sys2Proof.Machine.execZLd n s
  | .zSt n => Sys2Proof.Machine.execZSt n s
  | .zJmp n => Sys2Proof.Machine.execZJmp n s
  | .zBrc n => Sys2Proof.Machine.execZBrc n s
  | .zCall n => Sys2Proof.Machine.execZCall n s
  | .zRet n => Sys2Proof.Machine.execZRet n s
  | .zNop n => Sys2Proof.Machine.execZNop n s
  | .zLoop n => Sys2Proof.Machine.execZLoop n s
  | .zEndloop n => Sys2Proof.Machine.execZEndloop n s
  | .zSetf n => Sys2Proof.Machine.execZSetf n s
  | .zGetf n => Sys2Proof.Machine.execZGetf n s
  | .zCaston n => Sys2Proof.Machine.execZCaston n s
  | .zBindoff n => Sys2Proof.Machine.execZBindoff n s
  | .zArm n => Sys2Proof.Machine.execZArm n s
  | .zDisarm n => Sys2Proof.Machine.execZDisarm n s
  | .zSeg n => Sys2Proof.Machine.execZSeg n s
  | .zSync n => Sys2Proof.Machine.execZSync n s
  | .zDelay n => Sys2Proof.Machine.execZDelay n s
  | .zWaitt n => Sys2Proof.Machine.execZWaitt n s
  | .zWaittrig n => Sys2Proof.Machine.execZWaittrig n s
  | .zWaite n => Sys2Proof.Machine.execZWaite n s
  | .zWaitseg n => Sys2Proof.Machine.execZWaitseg n s
  | .zFence n => Sys2Proof.Machine.execZFence n s
  | .zPost n => Sys2Proof.Machine.execZPost n s
  | .zSignal n => Sys2Proof.Machine.execZSignal n s
  | .zMark n => Sys2Proof.Machine.execZMark n s
  | .zTone n => Sys2Proof.Machine.execZTone n s
  | .zPlay n => Sys2Proof.Machine.execZPlay n s
  | .zYield n => Sys2Proof.Machine.execZYield n s
  | .zHalt n => Sys2Proof.Machine.execZHalt n s
  | .fieldWriteApply n => Sys2Proof.Machine.execFieldWriteApply n s
  | .fieldReadServe n => Sys2Proof.Machine.execFieldReadServe n s
  | .reportApply n => Sys2Proof.Machine.execReportApply n s
  | .waitComplete n => Sys2Proof.Machine.execWaitComplete n s
  | .replaceGo n => Sys2Proof.Machine.execReplaceGo n s
  | .replaceCancel n => Sys2Proof.Machine.execReplaceCancel n s
  | .progStoreWrite ofs data => Sys2Proof.Machine.execProgStoreWrite ofs data s
  | .needleWindowWrite addr wide v => Sys2Proof.Machine.execNeedleWindowWrite addr wide v s
  | .markerPulseEnd x => Sys2Proof.Machine.execMarkerPulseEnd x s
  | .stimEnable u => Sys2Proof.Machine.execStimEnable u s
  | .stimDisable u => Sys2Proof.Machine.execStimDisable u s
  | .playSubmit u kind => Sys2Proof.Machine.execPlaySubmit u kind s
  | .granuleBoundary u => Sys2Proof.Machine.execGranuleBoundary u s
  | .jumpArrival u => Sys2Proof.Machine.execJumpArrival u s
  | .prefetchRecord u => Sys2Proof.Machine.execPrefetchRecord u s
  | .stimClear u => Sys2Proof.Machine.execStimClear u s
  | .staticToneWrite u k tpa v => Sys2Proof.Machine.execStaticToneWrite u k tpa v s
  | .hoistTargetEnable t v => Sys2Proof.Machine.execHoistTargetEnable t v s
  | .replayGo t => Sys2Proof.Machine.execReplayGo t s
  | .hoistPiece => Sys2Proof.Machine.execHoistPiece s
  | .hoistEntry t => Sys2Proof.Machine.execHoistEntry t s
  | .replayDone t => Sys2Proof.Machine.execReplayDone t s
  | .hoistReleaseWrite t rel => Sys2Proof.Machine.execHoistReleaseWrite t rel s
  | .dropRunEnd l => Sys2Proof.Machine.execDropRunEnd l s
  | .quarryRequest c cls read slots => Sys2Proof.Machine.execQuarryRequest c cls read slots s
  | .hostDeferExpiry c => Sys2Proof.Machine.execHostDeferExpiry c s
  | .refreshDue c rank => Sys2Proof.Machine.execRefreshDue c rank s
  | .patrolScrub => Sys2Proof.Machine.execPatrolScrub s
  | .memoryError quarry block ue row => Sys2Proof.Machine.execMemoryError quarry block ue row s
  | .rowCopyDone c => Sys2Proof.Machine.execRowCopyDone c s
  | .channelRetire c => Sys2Proof.Machine.execChannelRetire c s
  | .retireClear => Sys2Proof.Machine.execRetireClear s
  | .migrationBatchDone => Sys2Proof.Machine.execMigrationBatchDone s
  | .freqChangeGo p => Sys2Proof.Machine.execFreqChangeGo p s
  | .freqChangeBegin own => Sys2Proof.Machine.execFreqChangeBegin own s
  | .freqDone => Sys2Proof.Machine.execFreqDone s
  | .selfRefreshEntry c => Sys2Proof.Machine.execSelfRefreshEntry c s
  | .linkUp rate width => Sys2Proof.Machine.execLinkUp rate width s
  | .linkDown => Sys2Proof.Machine.execLinkDown s
  | .linkChange rate width => Sys2Proof.Machine.execLinkChange rate width s
  | .queueAlloc any q => Sys2Proof.Machine.execQueueAlloc any q s
  | .queueFree q => Sys2Proof.Machine.execQueueFree q s
  | .queueEnable q => Sys2Proof.Machine.execQueueEnable q s
  | .queueDisable q => Sys2Proof.Machine.execQueueDisable q s
  | .doorbell q idx => Sys2Proof.Machine.execDoorbell q idx s
  | .commandFetch q ending entry => Sys2Proof.Machine.execCommandFetch q ending entry s
  | .commandNop q => Sys2Proof.Machine.execCommandNop q s
  | .commandWrite q => Sys2Proof.Machine.execCommandWrite q s
  | .commandRead q => Sys2Proof.Machine.execCommandRead q s
  | .commandWriteAt q => Sys2Proof.Machine.execCommandWriteAt q s
  | .queueItemWrite q => Sys2Proof.Machine.execQueueItemWrite q s
  | .interruptTimeout q => Sys2Proof.Machine.execInterruptTimeout q s
  | .queIntWrite q v => Sys2Proof.Machine.execQueIntWrite q v s
  | .msixMessage v => Sys2Proof.Machine.execMsixMessage v s
  | .vectorUnmask v addr data => Sys2Proof.Machine.execVectorUnmask v addr data s
  | .modFrExpiry v => Sys2Proof.Machine.execModFrExpiry v s
  | .apertureRead x len => Sys2Proof.Machine.execApertureRead x len s
  | .apertureWrite x data => Sys2Proof.Machine.execApertureWrite x data s
  | .eventRaised e => Sys2Proof.Machine.execEventRaised e s
  | .eventLogWrite => Sys2Proof.Machine.execEventLogWrite s
  | .xferGo c => Sys2Proof.Machine.execXferGo c s
  | .xferKick c => Sys2Proof.Machine.execXferKick c s
  | .xferAbort c => Sys2Proof.Machine.execXferAbort c s
  | .descriptorFetch c ending line => Sys2Proof.Machine.execDescriptorFetch c ending line s
  | .xferPiece c ending data => Sys2Proof.Machine.execXferPiece c ending data s
  | .xferReadback c ending => Sys2Proof.Machine.execXferReadback c ending s
  | .portEnable p v => Sys2Proof.Machine.execPortEnable p v s
  | .portDisable p => Sys2Proof.Machine.execPortDisable p s
  | .ethFrameRx p sub arrival f => Sys2Proof.Machine.execEthFrameRx p sub arrival f s
  | .arpNdEcho p => Sys2Proof.Machine.execArpNdEcho p s
  | .credit t ack limit => Sys2Proof.Machine.execCredit t ack limit s
  | .nack t ack limit runs => Sys2Proof.Machine.execNack t ack limit runs s
  | .fireAt p sub arrival datagram => Sys2Proof.Machine.execFireAt p sub arrival datagram s
  | .packetLaunch t => Sys2Proof.Machine.execPacketLaunch t s
  | .retransmit p => Sys2Proof.Machine.execRetransmit p s
  | .creditTimeout t => Sys2Proof.Machine.execCreditTimeout t s
  | .faKeyWrite k word v => Sys2Proof.Machine.execFaKeyWrite k word v s
  | .subportLinkUp p sub => Sys2Proof.Machine.execSubportLinkUp p sub s
  | .subportLinkDown p sub => Sys2Proof.Machine.execSubportLinkDown p sub s
  | .ownershipWrite v => Sys2Proof.Machine.execOwnershipWrite v s
  | .pinEdge x level sample frac => Sys2Proof.Machine.execPinEdge x level sample frac s
  | .filteredChange x => Sys2Proof.Machine.execFilteredChange x s
  | .outputLaunch x => Sys2Proof.Machine.execOutputLaunch x s
  | .contention x level => Sys2Proof.Machine.execContention x level s
  | .faultClear x => Sys2Proof.Machine.execFaultClear x s
  | .msgModeEnable v => Sys2Proof.Machine.execMsgModeEnable v s
  | .msgTxGo v => Sys2Proof.Machine.execMsgTxGo v s
  | .wordSendStart => Sys2Proof.Machine.execWordSendStart s
  | .backoffExpiry => Sys2Proof.Machine.execBackoffExpiry s
  | .msgTx => Sys2Proof.Machine.execMsgTx s
  | .msgFrameRx framed word crc ago sample frac => Sys2Proof.Machine.execMsgFrameRx framed word crc ago sample frac s
  | .pingGo v => Sys2Proof.Machine.execPingGo v s
  | .pingPulse => Sys2Proof.Machine.execPingPulse s
  | .pingReply => Sys2Proof.Machine.execPingReply s
  | .pingDone => Sys2Proof.Machine.execPingDone s
  | .pingTimeout => Sys2Proof.Machine.execPingTimeout s
  | .canvasEnable c => Sys2Proof.Machine.execCanvasEnable c s
  | .rasGo c => Sys2Proof.Machine.execRasGo c s
  | .passStart c => Sys2Proof.Machine.execPassStart c s
  | .passEnd c => Sys2Proof.Machine.execPassEnd c s
  | .dpyCommitA => Sys2Proof.Machine.execDpyCommitA s
  | .dpyCommitB => Sys2Proof.Machine.execDpyCommitB s
  | .vblank x tick => Sys2Proof.Machine.execVblank x tick s
  | .vrrPorchEnd => Sys2Proof.Machine.execVrrPorchEnd s
  | .frontBufferSample x => Sys2Proof.Machine.execFrontBufferSample x s
  | .teEdge tick => Sys2Proof.Machine.execTeEdge tick s
  | .teMiss => Sys2Proof.Machine.execTeMiss s
  | .repair => Sys2Proof.Machine.execRepair s
  | .fetchUnderrun x n => Sys2Proof.Machine.execFetchUnderrun x n s
  | .daHotPlug => Sys2Proof.Machine.execDaHotPlug s
  | .standby dormant => Sys2Proof.Machine.execStandby dormant s
  | .wake => Sys2Proof.Machine.execWake s
  | .wakeSource src => Sys2Proof.Machine.execWakeSource src s
  | .mainPgRise => Sys2Proof.Machine.execMainPgRise s
  | .wakeComplete => Sys2Proof.Machine.execWakeComplete s
  | .pdOff dom => Sys2Proof.Machine.execPdOff dom s
  | .pdLingerExpiry dom => Sys2Proof.Machine.execPdLingerExpiry dom s
  | .softReset key => Sys2Proof.Machine.execSoftReset key s
  | .warmReset key => Sys2Proof.Machine.execWarmReset key s
  | .perst => Sys2Proof.Machine.execPerst s
  | .hotReset => Sys2Proof.Machine.execHotReset s
  | .functionLevelReset => Sys2Proof.Machine.execFunctionLevelReset s
  | .drainEnd => Sys2Proof.Machine.execDrainEnd s
  | .supplyFault => Sys2Proof.Machine.execSupplyFault s
  | .aonPowerOn => Sys2Proof.Machine.execAonPowerOn s
  | .boot good => Sys2Proof.Machine.execBoot good s
  | .tempWarn t => Sys2Proof.Machine.execTempWarn t s
  | .tempCrit t => Sys2Proof.Machine.execTempCrit t s
  | .tempOk t => Sys2Proof.Machine.execTempOk t s
  | .thermalTrip => Sys2Proof.Machine.execThermalTrip s
  | .fwStage good version epoch => Sys2Proof.Machine.execFwStage good version epoch s
  | .fwSwitch => Sys2Proof.Machine.execFwSwitch s
  | .fwSwitchStart => Sys2Proof.Machine.execFwSwitchStart s
  | .fwConfirm => Sys2Proof.Machine.execFwConfirm s
  | .fwWatchdog => Sys2Proof.Machine.execFwWatchdog s
  | .provision fuses => Sys2Proof.Machine.execProvision fuses s
  | .field_ fuses => Sys2Proof.Machine.execField_ fuses s
  | .ownerAdd fuses => Sys2Proof.Machine.execOwnerAdd fuses s
  | .ownerRevoke fuses => Sys2Proof.Machine.execOwnerRevoke fuses s
  | .debug => Sys2Proof.Machine.execDebug s
  | .return_ fuses => Sys2Proof.Machine.execReturn_ fuses s
  | .getVersion => Sys2Proof.Machine.execGetVersion s
  | .getCapabilities => Sys2Proof.Machine.execGetCapabilities s
  | .negotiateAlgorithms => Sys2Proof.Machine.execNegotiateAlgorithms s
  | .getDigests => Sys2Proof.Machine.execGetDigests s
  | .getCertificate slot => Sys2Proof.Machine.execGetCertificate slot s
  | .challenge slot => Sys2Proof.Machine.execChallenge slot s
  | .getMeasurements index => Sys2Proof.Machine.execGetMeasurements index s
  | .keyExchange => Sys2Proof.Machine.execKeyExchange s
  | .finish ses => Sys2Proof.Machine.execFinish ses s
  | .keyUpdate ses => Sys2Proof.Machine.execKeyUpdate ses s
  | .heartbeat ses => Sys2Proof.Machine.execHeartbeat ses s
  | .endSession ses => Sys2Proof.Machine.execEndSession ses s
  | .vendorDefinedRequest ses stream key => Sys2Proof.Machine.execVendorDefinedRequest ses stream key s
  | .ideError stream => Sys2Proof.Machine.execIdeError stream s
  | .testSessionStart ses v => Sys2Proof.Machine.execTestSessionStart ses v s
  | .testSessionEnd ses bits errs => Sys2Proof.Machine.execTestSessionEnd ses bits errs s
  | .pcieLoopback => Sys2Proof.Machine.execPcieLoopback s
  | .blockReady dom dimm => Sys2Proof.Machine.execBlockReady dom dimm s
  | .aonPowerLoss => Sys2Proof.Machine.execAonPowerLoss s
  | .checkerLock ses => Sys2Proof.Machine.execCheckerLock ses s
  | .checkerLockLoss ses bits errs => Sys2Proof.Machine.execCheckerLockLoss ses bits errs s
  | .gaugeTableSave => Sys2Proof.Machine.execGaugeTableSave s
  | .daLinkTrained trained => Sys2Proof.Machine.execDaLinkTrained trained s

end Sys2Proof.Machine
end

