-- ==== Sys2Proof/WellFormed.lean ====
section
/-!
DEFINITION. Which commands are well formed: their lists of operands have the shape that the spec gives.
-/
namespace Sys2Proof

/-- The ramp hits of a calibration cover the 1,024 codes (R81). -/
def CalData.shaped (c : CalData) : Bool := c.hits.length == 1024

/-- A needle makes no access of BAR0: it writes whole registers by SETF (R17). -/
def Rq.onBus : Rq → Bool
  | .needle _ => false
  | _ => true

/-- The operands of a command have their shape: 64 samples in a frame (R42), 2 or 4 logic samples in one (R216), 160 bins
and 2^22 hits of a gauge collection (R227), 1,024 codes of a calibration (R81), at most 4,096 bytes in a host access of a
memory (R324, R353), no needle among the writers of BAR0 (R17). -/
def Instr.wellFormed : Instr → Bool
  | .sampleFrame _ codes => codes.length == 64
  | .logicSample _ _ samples => samples.length == 2 || samples.length == 4
  | .gaugeResult hits => hits.length == 160 && hits.sum == 4194304
  | .enableCalibrationDone _ cal => cal.all fun x => x.2.shaped
  | .spareCalibrationDone _ _ cal => cal.shaped
  | .apertureWrite _ data => decide (data.length ≤ 4096)
  | .xferPiece _ _ data => decide (data.length ≤ 4096)
  | .registerWrite ws => ws.all fun w => w.rq.onBus
  | .lowHalfWrite rq _ _ => rq.onBus
  | .highHalfWrite rq _ _ => rq.onBus
  | _ => true

end Sys2Proof
end

