-- ==== Sys2Proof/Safety.lean ====
section
/-!
DEFINITION. What counts as a safe run, in the terms that statements use: a step that answers a next state, and the
canonical form of everything that is held as a sparse table.
-/
namespace Sys2Proof.Machine

/-- The machine goes on from a state. -/
def State.goesOn (s : State) : Prop := ∃ t, step s = .next t

/-- Event `e` has been raised in frame `k` and is on its way to the event router (R344). -/
def Dev.raised (d : Dev) (k e : Nat) : Prop := (k, e) ∈ d.evr.arriving

/-- Every register outside the families `l` reads in `d'` as it does in `d`. -/
def Dev.keepsRegs (d d' : Dev) (l : List Rg) : Prop := ∀ r : Reg, r.g ∉ l → d'.rd r = d.rd r

/-- The parts of the module beside its registers. The contents of the memories stand apart from the blocks they belong to. -/
inductive Part
  | clock | draws | bus | paths | logic | sampling | slices | timeBase | trigger | lanes | decimation | tally | eventInputs
  | needles | stimulus | bench | link | queues | events | transfer | ports | fireKeys | trigBus | raster | power | security
  | benchMemory | tallyMemory | programMemory | rasterMemory | hostMemory
  deriving DecidableEq, Repr

/-- A part is the same in two states of the module. -/
def Part.same (p : Part) (d d' : Dev) : Prop :=
  match p with
  | .clock => d'.now = d.now
  | .draws => d'.freeSeq = d.freeSeq
  | .bus => d'.bus = d.bus
  | .paths => d'.path = d.path
  | .logic => d'.logic = d.logic
  | .sampling => d'.stageNext = d.stageNext
  | .slices => d'.slice = d.slice
  | .timeBase => d'.tb = d.tb
  | .trigger => d'.trg = d.trg
  | .lanes => d'.lanes = d.lanes
  | .decimation => d'.dec = d.dec
  | .tally => d'.tal = { d.tal with mem := d'.tal.mem }
  | .eventInputs => d'.evi = d.evi
  | .needles => d'.ndl = { d.ndl with prog := d'.ndl.prog }
  | .stimulus => d'.stm = d.stm
  | .bench => d'.ben = { d.ben with bench := d'.ben.bench, quarry := d'.ben.quarry }
  | .link => d'.link = d.link
  | .queues => d'.que = { d.que with hostMem := d'.que.hostMem }
  | .events => d'.evr = d.evr
  | .transfer => d'.xfe = d.xfe
  | .ports => d'.eth = d.eth
  | .fireKeys => d'.faKey = d.faKey
  | .trigBus => d'.syn = d.syn
  | .raster => d'.ras = { d.ras with mem := d'.ras.mem }
  | .power => d'.pwr = d.pwr
  | .security => d'.sec = d.sec
  | .benchMemory => d'.ben.bench = d.ben.bench ∧ d'.ben.quarry = d.ben.quarry
  | .tallyMemory => d'.tal.mem = d.tal.mem
  | .programMemory => d'.ndl.prog = d.ndl.prog
  | .rasterMemory => d'.ras.mem = d.ras.mem
  | .hostMemory => d'.que.hostMem = d.que.hostMem

/-- Of the module nothing changes but the parts `ps` and registers of the families `l`. -/
def Dev.frame (ps : List Part) (l : List Rg) (d d' : Dev) : Prop := (∀ p, p ∉ ps → p.same d d') ∧ d.keepsRegs d' l

/-- The command joins the frame that is under way: an access of BAR0, the next command of a command queue, or an effect of a
needle. Any other command acts in a frame that holds no writes (log entry 31). -/
def joinsFrame : Instr → Bool
  | .registerWrite _ | .lowHalfWrite _ _ _ | .highHalfWrite _ _ _ | .bar0UnmappedAccess _ _ _ _ | .bar0BadsizeAccess _ _ _
  | .lowHalfRead _ _ | .highHalfRead _ _ | .rcRead _ _ _ | .tbNow0Read _ | .snapshotWordRead _ _
  | .commandNop _ | .commandWrite _ | .commandRead _ | .commandWriteAt _
  | .fieldWriteApply _ | .fieldReadServe _ | .reportApply _ => true
  | _ => false

/-- The frame of a command that is no access: once the writes of its frame have applied, it changes nothing but the parts `ps`,
registers of the families `l`, and, with the queue of commands, nothing else. -/
def State.onlyChanges (s t : State) (ps : List Part) (l : List Rg) : Prop :=
  t.pending = s.pending ∧ Dev.frame ps l s.dev.frameEnd t.dev

/-- The same of a command with which its frame ends. -/
def State.onlyChangesLast (s t : State) (ps : List Part) (l : List Rg) : Prop :=
  t.pending = s.pending ∧ ∃ d, Dev.frame ps l s.dev.frameEnd d ∧ t.dev = d.idle

/-- The same of an access that joins the writes of its frame. -/
def State.onlyJoins (s t : State) (ps : List Part) (l : List Rg) : Prop :=
  t.pending = s.pending ∧ Dev.frame ps l s.dev t.dev

/-- Every entry of the table of registers differs from the register's reset value and holds only bits that the register
has (R15). -/
def regEntryOk (r : Reg) (v : W64) : Bool := v != r.reset && (v &&& r.mask) == v

/-- The registers are in canonical form. -/
def Dev.regsWf (d : Dev) : Bool := Sparse.wf Reg.lt regEntryOk d.regs

/-- The memories are in canonical form: the bench, the quarry, the tally store, the raster store, the program store and
what the device has written of host memory. -/
def Dev.memoriesWf (d : Dev) : Bool :=
  d.ben.bench.wf && d.ben.quarry.wf && d.tal.mem.wf && d.ras.mem.wf && d.ndl.prog.wf && d.que.hostMem.wf

/-- The bits that an open context claims are those of no other open context (R248). -/
def Dev.claimsApart (d : Dev) : Prop :=
  ∀ m n, m < 16 → n < 16 → m ≠ n → (d.ndl.needle.get m).ctx = true → (d.ndl.needle.get n).ctx = true →
    d.rd ⟨.NDL_CLAIM0, m, 0, 0⟩ &&& d.rd ⟨.NDL_CLAIM0, n, 0, 0⟩ = 0 ∧
    d.rd ⟨.NDL_CLAIM1, m, 0, 0⟩ &&& d.rd ⟨.NDL_CLAIM1, n, 0, 0⟩ = 0

/-! ### The issue of a needle (10_needles_and_zhervo_model.md R238, R242-R244, R246) -/

/-- The effect is a GETF into register `r`, which is still to be served. -/
def Effect.loads (e : Effect) (r : Nat) : Bool :=
  match e with
  | .getf _ _ _ q _ => q == r
  | _ => false

/-- Needle `n` can issue the instruction at its PC, and it is one with opcode `op`: the needle is RUNNING, the synthesiser
is locked, the PC lies in the window, the word is an instruction, and no register that it reads waits for a GETF. -/
abbrev Dev.issues (d : Dev) (n op : Nat) : Prop :=
  (d.ndl.needle.get n).state = 1 ∧ d.tb.locked = true ∧ d.pdOn (62 + n / 8) = true
    ∧ (d.ndl.needle.get n).pc < d.get NDL_WIN.SIZE n * 256
    ∧ zLegal (d.fetchWord n (d.ndl.needle.get n).pc) = true
    ∧ zOp (d.fetchWord n (d.ndl.needle.get n).pc) = op
    ∧ (∀ f ∈ (d.ndl.needle.get n).flights, ∀ r ∈ zReads (d.fetchWord n (d.ndl.needle.get n).pc), f.eff.loads r = false)
    ∧ (∀ b ∈ (d.ndl.needle.get n).busy, b.1 ∈ zReads (d.fetchWord n (d.ndl.needle.get n).pc) →
        b.2 ≤ (d.ndl.needle.get n).next)

/-- In `t` needle `n` has issued one instruction, in frame `k`: it counts, the next one issues in frame k + 1, and the
needle is `y` but for that. -/
abbrev Dev.issuedTo (d t : Dev) (n k : Nat) (y : Needle) : Prop :=
  t.now = k ∧ t.ndl.needle.get n = { y with next := k + 1 }
    ∧ t.get NDL_CNT_ISSUE.COUNT n = (d.get NDL_CNT_ISSUE.COUNT n + 1) % 2 ^ NDL_CNT_ISSUE.COUNT.w

end Sys2Proof.Machine
end

