-- ==== Sys2Proof/Certificates/Slice0/Obligations.lean ====
section
/-!
DEFINITION. The statements for the provers: what a step does, what every step keeps, for every command what it leaves
unchanged, and for every command that it completes and with which results.
-/
open Sys2Proof Sys2Proof.Machine

/-- A step runs the command at the front of the queue (R29, R38). -/
def Obligations.StepRunsTheFrontCommand : Prop :=
  (∀ (d : Dev) (c : Instr) (rest : List Instr), step ⟨d, c :: rest⟩ = exec c ⟨d, rest⟩)
    ∧ (∀ d : Dev, d.bus.writes = [] → step ⟨d, []⟩ = .next ⟨d.advanceTo (d.now + 1), []⟩)
    ∧ (∀ d : Dev, d.bus.writes ≠ [] → step ⟨d, []⟩ = .next ⟨d.frameEnd, []⟩)

/-- A command that is no access acts once the writes of its frame have applied (R38, R494). -/
def Obligations.CommandsActOnceTheFramesWritesHaveApplied : Prop :=
  (∀ d : Dev, d.frameEnd.bus.writes = [] ∧ (d.bus.writes = [] → d.frameEnd = d)
      ∧ (d.bus.writes ≠ [] → d.now < d.frameEnd.now))
    ∧ (∀ (s : State) (c : Instr), joinsFrame c = false → exec c s = exec c { s with dev := s.dev.frameEnd })

/-- What a cold reset leaves (R67, R143, R168, R236, R297, R323, R348, R367). -/
def Obligations.ResetLeavesTheStatedValues : Prop :=
  State.reset.pending = [] ∧ (∀ r : Reg, State.reset.dev.rd r = r.reset)
    ∧ State.reset.dev.que.items = [] ∧ State.reset.dev.evr.arriving = []
    ∧ State.reset.dev.ben.bench = [] ∧ State.reset.dev.ben.quarry = [] ∧ State.reset.dev.tal.mem = []
    ∧ State.reset.dev.ras.mem = [] ∧ State.reset.dev.ndl.prog = []
    ∧ (∀ n : Fin 4, State.reset.dev.flag CV_SCTL.EN n = false ∧ State.reset.dev.get STM_PLAY_LEN.LEN n = 4)
    ∧ (∀ u : Fin 8, State.reset.dev.get TRG_LFSR.STATE u = 0x5A3C9E17 ∧ State.reset.dev.flag TRG_CTL.EN u = false)
    ∧ (∀ l : Fin 16, State.reset.dev.flag REC_LCTL.EN l = false ∧ State.reset.dev.get REC_REQ_REPEAT.REPEAT l = 1
        ∧ (State.reset.dev.ndl.needle.get l).state = 0)
    ∧ State.reset.dev.get BEN_HOST_DEFER.FRAMES = 50000 ∧ State.reset.dev.get XFE_HOP_LIMIT.LIMIT 5 = 65536
    ∧ State.reset.dev.flag QUE_CTL.EN 16 = false

/-- Registers and memories are in canonical form at reset (R15, R33). -/
def Obligations.CanonicalAtReset : Prop :=
  State.reset.dev.regsWf = true ∧ State.reset.dev.memoriesWf = true

/-- Every step keeps registers and memories in canonical form (R15, R33, R298). -/
def Obligations.EveryStepKeepsTheCanonicalForm : Prop :=
  ∀ s s' : State, s.dev.regsWf = true → s.dev.memoriesWf = true → step s = .next s' →
    s'.dev.regsWf = true ∧ s'.dev.memoriesWf = true

/-- No step makes a register read a reserved bit as 1 (R14, R15). -/
def Obligations.ReservedBitsStayZero : Prop :=
  ∀ s s' : State, s.dev.regsWf = true → step s = .next s' → ∀ r : Reg, s'.dev.rd r &&& ~~~ r.mask = 0

/-- Every well-formed command completes in every state (R29, R42). -/
def Obligations.EveryWellFormedCommandGoesOn : Prop :=
  (∀ (d : Dev) (c : Instr) (rest : List Instr), c.wellFormed = true →
      ∃ t, step ⟨d, c :: rest⟩ = .next t ∧ t.pending = rest)
    ∧ (∀ (d : Dev) (n : Fin 4) (codes : List (BitVec 10)) (rest : List Instr), codes.length ≠ 64 →
      step ⟨d, .sampleFrame n codes :: rest⟩ = .fault (.malformed "SAMPLE_FRAME"))
    ∧ (∀ (s : State) (r : Refusal), step s ≠ .refused r)

/-- No command takes the clock back (R29, R38). -/
def Obligations.TheClockNeverRunsBack : Prop :=
  ∀ s s' : State, step s = .next s' → s.dev.now ≤ s'.dev.now

/-- A write to a memory changes the bytes of its range and no other byte (R239, R326). -/
def Obligations.MemoryWritesStayInTheirRange : Prop :=
  ∀ (s : State), s.dev.bus.writes = [] →
    (∀ (x : BitVec 36) (data : List Byte), s.dev.hostMode = 1 → (s.dev.aperture x.toNat).1 = 0 →
      (s.dev.aperture x.toNat).2 + data.length ≤ benchSize →
      ∃ t, exec (.apertureWrite x data) s = .next t
        ∧ (∀ a, (a < (s.dev.aperture x.toNat).2 ∨ (s.dev.aperture x.toNat).2 + data.length ≤ a) →
            t.dev.ben.bench.get a = s.dev.ben.bench.get a)
        ∧ (∀ i : Fin data.length, t.dev.ben.bench.get ((s.dev.aperture x.toNat).2 + i) = data.get i)
        ∧ t.dev.ben.quarry = s.dev.ben.quarry ∧ t.dev.tal.mem = s.dev.tal.mem ∧ t.dev.ras.mem = s.dev.ras.mem
        ∧ t.dev.ndl.prog = s.dev.ndl.prog ∧ t.dev.que.hostMem = s.dev.que.hostMem)
    ∧ (∀ (ofs : BitVec 20) (b0 b1 b2 b3 b4 b5 b6 b7 : Byte), ofs.toNat + 8 ≤ 0x100000 →
      s.dev.progBusy ofs.toNat 8 = false →
      ∃ t, exec (.progStoreWrite ofs [b0, b1, b2, b3, b4, b5, b6, b7]) s = .next t
        ∧ (∀ a, (a < ofs.toNat ∨ ofs.toNat + 8 ≤ a) → t.dev.ndl.prog.get a = s.dev.ndl.prog.get a)
        ∧ t.dev.ndl.prog.bytes ofs.toNat 8 = [b0, b1, b2, b3, b4, b5, b6, b7]
        ∧ t.dev.ben.bench = s.dev.ben.bench ∧ t.dev.tal.mem = s.dev.tal.mem)

/-- What the commands of the converter slices and the correction path leave unchanged (R42, R65, R80, R81). -/
def Obligations.SliceCommandsFrame : Prop :=
  ∀ s s' : State,
    (∀ n codes, exec (.sampleFrame n codes) s = .next s' →
      s.onlyChanges s' [.paths, .slices, .events]
        [.CV_OVR_CNT, .CV_NRDY_CNT, .GLB_CNT_SAT])
    ∧ (∀ n, exec (.sliceEnable n) s = .next s' →
      s.onlyChanges s' [.draws, .slices]
        [.CV_SCTL, .TST_CTL, .TST_STAT, .TST_BITS, .TST_ERRS])
    ∧ (∀ n, exec (.sliceDisable n) s = .next s' →
      s.onlyChangesLast s' [.slices, .events]
        [.CV_SCTL, .CV_SSTAT, .CV_FAIL_CLR, .CV_GRP_STAT, .CV_SLOTMAP, .CV_SWATCH_STAT])
    ∧ (∀ n cal, exec (.enableCalibrationDone n cal) s = .next s' →
      s.onlyChanges s' [.slices, .events]
        [.CV_SSTAT, .CV_GRP_STAT, .CV_SLOTMAP, .CV_TBL_STAT, .CV_TBL_DROP, .CV_SUB_ACT, .CV_SUB_DISC, .GLB_CNT_SAT])
    ∧ (∀ n h, exec (.rotation n h) s = .next s' →
      s.onlyChanges s' [.clock, .bus, .slices, .events]
        [.CV_TBL_STAT, .CV_TBL_DROP, .CV_SUB_ARM, .CV_SUB_DISC, .GLB_CNT_SAT, .HK_DEC_IDX, .HK_DEC])
    ∧ (∀ n h, exec (.subconverterSwap n h) s = .next s' →
      s.onlyChanges s' [.clock, .bus, .slices, .events]
        [.CV_SWAP_CNT, .CV_GRP_STAT, .CV_SLOTMAP])
    ∧ (∀ n h outside, exec (.monitorWindowEnd n h outside) s = .next s' →
      s.onlyChanges s' [.clock, .bus, .paths, .slices, .lanes, .decimation, .tally, .events]
        [.CV_DEGWIN_START, .CV_DEGWIN_END, .CV_DEGWIN_SEQ, .CV_GRP_STAT])
    ∧ (∀ n h, exec (.sparingTransition n h) s = .next s' →
      s.onlyChanges s' [.clock, .bus, .slices, .events]
        [.CV_SSTAT, .CV_GRP_STAT, .CV_SLOTMAP])
    ∧ (∀ n h cal, exec (.spareCalibrationDone n h cal) s = .next s' →
      s.onlyChanges s' [.slices, .events]
        [.CV_SSTAT, .CV_GRP_STAT, .CV_SLOTMAP])
    ∧ (∀ n h umask, exec (.failClrWrite n h umask) s = .next s' → s.onlyChanges s' [] [.CV_FAIL_CLR, .CV_GRP_STAT])
    ∧ (∀ n v, exec (.dacRouteWrite n v) s = .next s' →
      s.onlyChanges s' [.slices]
        [.CV_DAC_CTL, .CV_SWATCH_STAT, .GLB_CNT_SAT])
    ∧ (∀ n, exec (.injectionSwitch n) s = .next s' → s.onlyChanges s' [.clock, .bus, .slices, .events] [.CV_SSTAT])
    ∧ (∀ n, exec (.sliceClockLoss n) s = .next s' → s.onlyChanges s' [.paths, .slices, .events] [.CV_SSTAT])
    ∧ (∀ n, exec (.sliceClockLock n) s = .next s' → s.onlyChanges s' [.slices, .events] [.CV_SSTAT])
    ∧ (∀ c, exec (.correctedFrame c) s = .next s' →
      s.onlyChanges s' [.clock, .bus, .paths, .slices, .trigger, .decimation, .events]
        [.CV_OVR_CNT, .CV_CLIP_CNT, .DEC_STAT, .DEC_CFG_ACT, .DEC_STEP_ACT, .DEC_PHASE0_ACT, .DEC_T0, .DEC_SYNC_STAT,
        .DEC_SYNC_TIME, .GLB_CNT_SAT])
    ∧ (∀ n tim, exec (.tableCommitSub n tim) s = .next s' →
      s.onlyChanges s' [.slices, .events]
        [.CV_TBL_STAT, .CV_TBL_DROP, .GLB_CNT_SAT])
    ∧ (∀ n, exec (.tableCommitTim n) s = .next s' →
      s.onlyChanges s' [.slices, .events]
        [.CV_TBL_STAT, .CV_TBL_DROP, .GLB_CNT_SAT])
    ∧ (∀ n, exec (.commitEffect n) s = .next s' → s.onlyChanges s' [.clock, .bus, .events] [])
    ∧ (∀ n, exec (.tblSwitch n) s = .next s' →
      s.onlyChanges s' [.clock, .bus, .slices, .events]
        [.CV_TBL_STAT, .CV_TSW_TICK, .CV_SUB_ARM, .CV_SUB_ACT])
    ∧ (∀ n ofs v, exec (.tableWindowWrite n ofs v) s = .next s' →
      s.onlyChanges s' [.slices]
        [.CV_TBL_STAT, .CV_TBL_DROP, .CV_SUB_DISC, .GLB_CNT_SAT])
    ∧ (∀ n h gains, exec (.nospareMatching n h gains) s = .next s' →
      s.onlyChanges s' [.clock, .bus, .slices, .events]
        [.CV_TBL_STAT, .CV_TBL_DROP, .CV_SUB_ARM, .CV_SUB_DISC, .GLB_CNT_SAT])
    ∧ (∀ n, exec (.skewUpdate n) s = .next s' →
      s.onlyChanges s' [.draws, .slices, .events]
        [.CV_TBL_STAT, .CV_TBL_DROP, .CV_SUB_DISC, .CV_SKW_STAT, .CV_SKW_DLT, .GLB_CNT_SAT, .HK_DEC_IDX, .HK_DEC])
    ∧ (∀ n, exec (.swatchStart n) s = .next s' → s.onlyChanges s' [.slices, .events] [.CV_SWATCH_STAT])
    ∧ (∀ n, ∀ c ∈ ([.swatchCapture n, .swatchRouteOff n] : List Instr),
      exec c s = .next s' → s.onlyChanges s' [.clock, .bus, .slices, .events] [.GLB_CNT_SAT])
    ∧ (∀ n fit, exec (.swatchResult n fit) s = .next s' →
      s.onlyChanges s' [.slices, .events]
        [.CV_TBL_STAT, .CV_TBL_DROP, .CV_SUB_DISC, .CV_SKW_DLT, .CV_SWATCH_TAU, .CV_SWATCH_STAT, .GLB_CNT_SAT, .HK_DEC_IDX,
        .HK_DEC])
    ∧ (∀ n, exec (.tableFlashSave n) s = .next s' → s.onlyChanges s' [.slices] [])
    ∧ (∀ k stalled, exec (.stageStoreFrame k stalled) s = .next s' →
      s.onlyChanges s' [.clock, .bus, .paths, .logic, .sampling, .trigger, .lanes, .decimation, .tally, .needles, .bench, .queues, .events,
        .benchMemory, .tallyMemory]
        [.REC_LCTL, .REC_LSTAT, .REC_CNT_DROPFR, .REC_CNT_NOTICE, .REC_CNT_ALLOCW, .REC_SKN_CP, .REC_SKN_OLDEST, .TAL_JSTAT,
        .TAL_JOB_COUNT, .TAL_JOB_REC, .TAL_JOB_PARTIAL, .BEN_STAT, .BEN_DROP_FIRST, .BEN_CNT_DROPFR, .GLB_CNT_SAT])

/-- What the commands of the time base and the sampling clock leave unchanged (R95, R101, R106, R112). -/
def Obligations.TimeBaseCommandsFrame : Prop :=
  ∀ s s' : State,
    (∀ mhz100 err, exec (.refPresent mhz100 err) s = .next s' →
      s.onlyChanges s' [.timeBase, .events]
        [.TB_REF_STAT, .TB_PHASE_ERR])
    ∧ (exec .refAbsent s = .next s' →
      s.onlyChanges s' [.timeBase, .events]
        [.TB_REF_STAT, .TB_PHASE_ERR, .TB_LOSS_CNT, .GLB_CNT_SAT])
    ∧ (∀ err, exec (.extPresent err) s = .next s' → s.onlyChanges s' [.timeBase, .events] [.TB_REF_STAT, .TB_PHASE_ERR])
    ∧ (∀ err, exec (.extAbsent err) s = .next s' →
      s.onlyChanges s' [.timeBase, .events]
        [.TB_REF_STAT, .TB_PHASE_ERR, .TB_LOSS_CNT, .GLB_CNT_SAT])
    ∧ (∀ err, exec (.qualificationExpiry err) s = .next s' →
      s.onlyChanges s' [.clock, .bus, .timeBase, .events]
        [.TB_REF_STAT, .TB_PHASE_ERR, .HK_DEC_IDX, .HK_DEC])
    ∧ (exec .synthLock s = .next s' →
      s.onlyChanges s' [.slices, .timeBase, .trigger, .needles, .events]
        [.CV_SSTAT, .TB_REF_STAT, .TB_PHASE_ERR])
    ∧ (exec .synthUnlock s = .next s' →
      s.onlyChanges s' [.paths, .logic, .slices, .timeBase, .events]
        [.CV_SSTAT, .TB_REF_STAT, .TB_ORIGIN_CTL, .TB_PHASE_ERR, .TB_LOSS_CNT, .GLB_CNT_SAT])
    ∧ (exec .timeStep s = .next s' → s.onlyChanges s' [.timeBase, .events] [.TB_PHASE_ERR])
    ∧ (exec .holdoverExit s = .next s' →
      s.onlyChanges s' [.clock, .bus, .timeBase, .events]
        [.TB_REF_STAT, .TB_PHASE_ERR])
    ∧ (∀ boundary, exec (.originGo boundary) s = .next s' → s.onlyChanges s' [.timeBase, .events] [.TB_ORIGIN_CTL])
    ∧ (exec .originSet s = .next s' →
      s.onlyChanges s' [.clock, .bus, .timeBase, .events]
        [.TB_REF_STAT, .TB_ORIGIN_CTL])
    ∧ (exec .tickWrap s = .next s' → s.onlyChanges s' [.clock, .bus, .events] [])
    ∧ (∀ sample frac err, exec (.ppsIn sample frac err) s = .next s' →
      s.onlyChanges s' [.timeBase, .events]
        [.TB_REF_STAT, .TB_PPS_CAP, .TB_PHASE_ERR])
    ∧ (∀ c ∈ ([.ppsMissing, .ppsOut] : List Instr),
      exec c s = .next s' → s.onlyChanges s' [.clock, .bus, .timeBase, .events] [])
    ∧ (∀ rx master, exec (.ptpMessage rx master) s = .next s' →
      s.onlyChanges s' [.timeBase, .events]
        [.TB_REF_STAT, .TB_PHASE_ERR])

/-- What the trigger units, record lanes and skeins' commands leave unchanged (R129, R137, R149, R165). -/
def Obligations.TriggerAndLaneCommandsFrame : Prop :=
  ∀ s s' : State,
    (∀ u en, exec (.trgEnWrite u en) s = .next s' → s.onlyChanges s' [.trigger] [.TRG_CTL])
    ∧ (∀ u, ∀ c ∈ ([.trgArmArm u, .trgArmDisarm u, .trgForce u] : List Instr),
      exec c s = .next s' → s.onlyChanges s' [.trigger] [])
    ∧ (∀ u, exec (.armingEffect u) s = .next s' → s.onlyChanges s' [.clock, .bus, .trigger, .events] [.TRG_STAT])
    ∧ (∀ u, exec (.levelSourceChange u) s = .next s' →
      s.onlyChanges s' [.clock, .bus, .trigger, .events]
        [.TRG_CNT_LATE, .GLB_CNT_SAT])
    ∧ (∀ u era, exec (.tcmpLoad u era) s = .next s' →
      s.onlyChanges s' [.trigger, .events]
        [.TRG_TCMP_CTL, .TRG_CNT_LATE, .GLB_CNT_SAT])
    ∧ (∀ u, exec (.timeCompare u) s = .next s' →
      s.onlyChanges s' [.clock, .bus, .trigger, .events]
        [.TRG_TCMP_CTL, .TRG_CNT_LATE, .GLB_CNT_SAT])
    ∧ (∀ u, exec (.timedTriggerMessage u) s = .next s' →
      s.onlyChanges s' [.trigger, .events]
        [.TRG_CNT_LATE, .GLB_CNT_SAT])
    ∧ (∀ u f, exec (.triggerDecision u f) s = .next s' →
      s.onlyChanges s' [.clock, .bus, .timeBase, .trigger, .lanes, .tally, .queues, .events]
        [.TB_ORIGIN_CTL, .TRG_LFSR, .TRG_LAST, .TRG_OVR_FIRST, .TRG_CNT_ACC, .TRG_CNT_FILL, .TRG_CNT_HOLD, .TRG_CNT_BUSY,
        .TRG_CNT_OVR, .REC_SEGNUM, .REC_CNT_SEGWRAP, .GLB_CNT_SAT])
    ∧ (∀ u, exec (.prfCommit u) s = .next s' →
      s.onlyChanges s' [.trigger, .events]
        [.TRG_STAT, .TRG_PRF_DROP, .GLB_CNT_SAT])
    ∧ (∀ u, exec (.prfSwitch u) s = .next s' →
      s.onlyChanges s' [.clock, .bus, .trigger, .events]
        [.TRG_STAT, .TRG_CMP, .TRG_CMP_ACT, .TRG_SLOTA, .TRG_SLOTA_ACT, .TRG_SLOTB, .TRG_SLOTB_ACT, .TRG_SLOTA_T1,
        .TRG_SLOTA_T1_ACT, .TRG_SLOTA_T2, .TRG_SLOTA_T2_ACT, .TRG_SLOTB_T1, .TRG_SLOTB_T1_ACT, .TRG_SLOTB_T2,
        .TRG_SLOTB_T2_ACT, .TRG_SEQ_DLY, .TRG_SEQ_DLY_ACT, .TRG_SEQ, .TRG_SEQ_ACT, .TRG_HOLD, .TRG_HOLD_ACT,
        .TRG_HOLD_T, .TRG_HOLD_T_ACT, .TRG_HOLD_MAX, .TRG_HOLD_MAX_ACT, .TRG_PAT_CTL, .TRG_PAT_CTL_ACT, .TRG_PAT_MASK,
        .TRG_PAT_MASK_ACT, .TRG_PAT_VAL, .TRG_PAT_VAL_ACT])
    ∧ (∀ l v, exec (.laneEnable l v) s = .next s' → s.onlyChanges s' [.lanes] [.REC_LCTL, .REC_LSTAT])
    ∧ (∀ l, exec (.laneDisable l) s = .next s' →
      s.onlyChanges s' [.clock, .bus, .timeBase, .trigger, .lanes, .tally, .needles, .bench, .queues, .events, .benchMemory, .tallyMemory]
        [.TB_ORIGIN_CTL, .TRG_LFSR, .TRG_LAST, .TRG_OVR_FIRST, .TRG_CNT_ACC, .TRG_CNT_FILL, .TRG_CNT_HOLD, .TRG_CNT_BUSY,
        .TRG_CNT_OVR, .REC_LCTL, .REC_LSTAT, .REC_SEGNUM, .REC_CNT_DROPFR, .REC_CNT_NOTICE, .REC_CNT_SEGWRAP,
        .REC_SKN_CP, .REC_SKN_OLDEST, .BEN_STAT, .BEN_DROP_FIRST, .BEN_CNT_DROPFR, .GLB_CNT_SAT])
    ∧ (∀ l, exec (.laneFlush l) s = .next s' →
      s.onlyChanges s' [.clock, .bus, .timeBase, .trigger, .lanes, .tally, .needles, .bench, .queues, .events, .benchMemory, .tallyMemory]
        [.TB_ORIGIN_CTL, .TRG_LFSR, .TRG_LAST, .TRG_OVR_FIRST, .TRG_CNT_ACC, .TRG_CNT_FILL, .TRG_CNT_HOLD, .TRG_CNT_BUSY,
        .TRG_CNT_OVR, .REC_LSTAT, .REC_SEGNUM, .REC_CNT_DROPFR, .REC_CNT_NOTICE, .REC_CNT_SEGWRAP, .REC_SKN_CP,
        .REC_SKN_OLDEST, .BEN_STAT, .BEN_DROP_FIRST, .BEN_CNT_DROPFR, .GLB_CNT_SAT])
    ∧ (∀ rq l v, exec (.segmentRequest rq l v) s = .next s' →
      s.onlyChanges s' [.lanes, .events]
        [.REC_REQ_CTL, .REC_REQ_STAT, .REC_CNT_REFUSED, .GLB_CNT_SAT])
    ∧ (∀ l, exec (.requestActive l) s = .next s' →
      s.onlyChanges s' [.clock, .bus, .lanes, .needles, .events]
        [.REC_LSTAT, .REC_CNT_NOTICE, .REC_SKN_CP, .REC_SKN_OLDEST, .GLB_CNT_SAT])
    ∧ (∀ l, exec (.hoistWindowPlaced l) s = .next s' →
      s.onlyChanges s' [.lanes, .needles, .events]
        [.REC_LSTAT, .REC_CNT_NOTICE, .REC_SKN_CP, .REC_SKN_OLDEST, .GLB_CNT_SAT])
    ∧ (∀ l, exec (.segmentEnd l) s = .next s' →
      s.onlyChanges s' [.trigger, .lanes, .needles, .queues]
        [.REC_SKN_OLDEST])
    ∧ (∀ l, exec (.segmentRecord l) s = .next s' →
      s.onlyChanges s' [.lanes, .needles, .events]
        [.REC_CNT_TRUNC, .REC_CNT_SEG, .GLB_CNT_SAT])
    ∧ (exec .recordDrain s = .next s' → s.onlyChanges s' [.clock, .bus, .lanes, .queues, .events] [])
    ∧ (∀ l, exec (.closeEntryFreed l) s = .next s' → s.onlyChanges s' [.lanes, .needles] [])
    ∧ (∀ k, exec (.skeinDefine k) s = .next s' →
      s.onlyChangesLast s' [.lanes, .bench, .events, .benchMemory]
        [.REC_SKN_CTL, .REC_SKN_CP, .REC_SKN_OLDEST, .BEN_QRY_CAP, .BEN_QRY_RETIRE, .BEN_QRY_MIG, .QRY_CSTAT, .HK_DEC_IDX,
        .HK_DEC])
    ∧ (∀ k, exec (.skeinRewind k) s = .next s' →
      s.onlyChanges s' [.lanes]
        [.REC_LSTAT, .REC_SKN_CTL, .REC_SKN_CP, .REC_SKN_OLDEST])
    ∧ (∀ l, exec (.dropRunEnd l) s = .next s' →
      s.onlyChanges s' [.trigger, .lanes, .tally, .needles, .bench, .queues, .events, .benchMemory, .tallyMemory]
        [.REC_LSTAT, .REC_CNT_NOTICE, .REC_SKN_CP, .REC_SKN_OLDEST, .BEN_STAT, .GLB_CNT_SAT])

/-- What decimation, the tally and the event inputs' commands leave unchanged (R178, R213, R216). -/
def Obligations.DecimationTallyInputCommandsFrame : Prop :=
  ∀ s s' : State,
    (∀ u, exec (.decCommit u) s = .next s' →
      s.onlyChanges s' [.decimation]
        [.DEC_STAT, .DEC_CFG_ACT, .DEC_STEP_ACT, .DEC_PHASE0_ACT, .DEC_T0, .DEC_SYNC_STAT, .DEC_SYNC_TIME])
    ∧ (∀ u en, exec (.decEnable u en) s = .next s' →
      s.onlyChanges s' [.decimation]
        [.DEC_CTL, .DEC_STAT, .DEC_CFG_ACT, .DEC_STEP_ACT, .DEC_PHASE0_ACT, .DEC_T0, .DEC_SYNC_STAT, .DEC_SYNC_TIME])
    ∧ (∀ u, exec (.decRestart u) s = .next s' →
      s.onlyChanges s' [.clock, .bus, .decimation, .events]
        [.DEC_STAT, .DEC_CFG_ACT, .DEC_STEP_ACT, .DEC_PHASE0_ACT, .DEC_T0, .DEC_SYNC_STAT, .DEC_SYNC_TIME])
    ∧ (exec .decSyncGo s = .next s' → s.onlyChanges s' [.decimation] [])
    ∧ (exec .timedSync s = .next s' → s.onlyChanges s' [.decimation] [.DEC_SYNC_STAT, .GLB_CNT_SAT])
    ∧ (∀ u, exec (.decItemDelivery u) s = .next s' →
      s.onlyChanges s' [.clock, .bus, .trigger, .lanes, .decimation, .tally, .needles, .bench, .queues, .events, .benchMemory, .tallyMemory]
        [.REC_LSTAT, .REC_CNT_DROPFR, .REC_CNT_NOTICE, .REC_SKN_CP, .REC_SKN_OLDEST, .DEC_STAT, .DEC_OUT, .DEC_THR0_LEVEL,
        .DEC_THR1_LEVEL, .DEC_CNT_THR0, .DEC_CNT_THR1, .BEN_STAT, .BEN_DROP_FIRST, .BEN_CNT_DROPFR, .GLB_CNT_SAT])
    ∧ (∀ u, exec (.fastPathItem u) s = .next s' →
      s.onlyChanges s' [.clock, .bus, .trigger, .lanes, .decimation, .tally, .needles, .bench, .queues, .events, .benchMemory, .tallyMemory]
        [.REC_LSTAT, .REC_CNT_DROPFR, .REC_CNT_NOTICE, .REC_SKN_CP, .REC_SKN_OLDEST, .DEC_STAT, .DEC_FAST, .DEC_THR0_LEVEL,
        .DEC_THR1_LEVEL, .DEC_CNT_THR0, .DEC_CNT_THR1, .DEC_CNT_SAT, .BEN_STAT, .BEN_DROP_FIRST, .BEN_CNT_DROPFR,
        .GLB_CNT_SAT])
    ∧ (∀ u, exec (.settled u) s = .next s' → s.onlyChanges s' [.clock, .bus, .decimation, .events] [.DEC_STAT])
    ∧ (∀ j clr, exec (.tallyStart j clr) s = .next s' →
      s.onlyChanges s' [.tally, .bench, .events, .benchMemory]
        [.TAL_JSTAT, .TAL_JOB_COUNT, .TAL_JOB_REC, .TAL_JOB_PARTIAL, .TAL_MASK_TBL, .BEN_QRY_CAP, .BEN_QRY_RETIRE,
        .BEN_QRY_MIG, .QRY_CSTAT, .HK_DEC_IDX, .HK_DEC])
    ∧ (∀ j, exec (.tallyClearDone j) s = .next s' →
      s.onlyChanges s' [.clock, .bus, .tally, .bench, .events, .benchMemory, .tallyMemory]
        [.TAL_JSTAT])
    ∧ (∀ j, exec (.tallyStop j) s = .next s' →
      s.onlyChanges s' [.tally, .bench, .events, .benchMemory, .tallyMemory]
        [.TAL_JSTAT, .TAL_JOB_COUNT, .TAL_JOB_REC, .TAL_JOB_PARTIAL])
    ∧ (∀ j, exec (.tallyPause j) s = .next s' → s.onlyChanges s' [.tally] [])
    ∧ (∀ j, ∀ c ∈ ([.tallyPaused j, .tallyResume j] : List Instr),
      exec c s = .next s' → s.onlyChanges s' [.tally] [.TAL_JSTAT])
    ∧ (∀ j, exec (.tallyTrigger j) s = .next s' →
      s.onlyChanges s' [.tally, .bench, .events, .benchMemory, .tallyMemory]
        [.TAL_JSTAT, .TAL_JOB_COUNT, .TAL_JOB_REC, .TAL_JOB_PARTIAL, .TAL_CNT_BUSY, .TAL_CNT_FILL, .TAL_CNT_HALVE,
        .GLB_CNT_SAT])
    ∧ (∀ j, ∀ c ∈ ([.tallyRecordComplete j, .foldComplete j] : List Instr),
      exec c s = .next s' →
      s.onlyChanges s' [.clock, .bus, .tally, .bench, .events, .benchMemory, .tallyMemory]
        [.TAL_JSTAT, .TAL_JOB_COUNT, .TAL_JOB_REC])
    ∧ (∀ j, exec (.halvingDone j) s = .next s' →
      s.onlyChanges s' [.clock, .bus, .tally, .bench, .events, .benchMemory, .tallyMemory]
        [.TAL_JOB_COUNT])
    ∧ (∀ j, exec (.maskVerdict j) s = .next s' →
      s.onlyChanges s' [.clock, .bus, .trigger, .lanes, .tally, .needles, .queues, .events]
        [.TAL_JSTAT, .TAL_CNT_VIOL, .TAL_CNT_VSAMP, .GLB_CNT_SAT])
    ∧ (∀ j, exec (.tallyMaskStop j) s = .next s' →
      s.onlyChanges s' [.tally, .bench, .events, .benchMemory, .tallyMemory]
        [.TAL_JSTAT, .TAL_JOB_PARTIAL, .TAL_FAIL_SEG, .TAL_FAIL_TIME])
    ∧ (∀ ofs data, exec (.tallySpaceWrite ofs data) s = .next s' →
      s.onlyChanges s' [.tally, .tallyMemory]
        [.TAL_G_WDROP, .GLB_CNT_SAT])
    ∧ (∀ v, exec (.eviGmodeWrite v) s = .next s' →
      s.onlyChanges s' [.draws, .trigger, .eventInputs]
        [.EVI_GMODE, .EVI_GSTAT, .EVI_ISTAT, .EVI_SEQ, .TST_CTL, .TST_STAT, .TST_BITS, .TST_ERRS])
    ∧ (∀ g, exec (.groupReady g) s = .next s' →
      s.onlyChanges s' [.eventInputs, .events]
        [.HK_PD_STAT, .HK_DEC_IDX, .HK_DEC])
    ∧ (∀ e k bin rise, exec (.eventEdge e k bin rise) s = .next s' →
      s.onlyChanges s' [.clock, .bus, .trigger, .eventInputs, .events]
        [.EVI_ISTAT, .EVI_SEQ, .EVI_CNT_STAMP, .EVI_CNT_DEAD, .EVI_CNT_FIFO, .EVI_CNT_CAL, .EVI_CNT_NOCLK, .EVI_IU_STAT,
        .EVI_IU_CNT_EARLY, .EVI_IU_CNT_LOST, .EVI_IU_CNT_DROP, .EVI_IU_CNT_RES, .GLB_CNT_SAT])
    ∧ (∀ g k samples, exec (.logicSample g k samples) s = .next s' →
      s.onlyChanges s' [.clock, .bus, .logic, .trigger, .eventInputs, .events]
        [.EVI_NRDY_FR, .GLB_CNT_SAT])
    ∧ (exec .stampCollect s = .next s' →
      s.onlyChanges s' [.clock, .bus, .trigger, .lanes, .tally, .eventInputs, .needles, .bench, .queues, .events, .benchMemory, .tallyMemory]
        [.REC_LSTAT, .REC_CNT_DROPFR, .REC_CNT_NOTICE, .REC_SKN_CP, .REC_SKN_OLDEST, .BEN_STAT, .BEN_DROP_FIRST,
        .BEN_CNT_DROPFR, .GLB_CNT_SAT])
    ∧ (∀ e, exec (.batchTimeout e) s = .next s' → s.onlyChanges s' [.clock, .bus, .eventInputs, .queues, .events] [])
    ∧ (∀ e v, exec (.eviIcfgWrite e v) s = .next s' → s.onlyChanges s' [.eventInputs, .queues] [.EVI_ICFG])
    ∧ (∀ e, exec (.gaugeStart e) s = .next s' →
      s.onlyChanges s' [.eventInputs]
        [.EVI_GAUGE_CTL, .EVI_GAUGE_STAT, .EVI_ISTAT])
    ∧ (∀ e, exec (.gaugeAuto e) s = .next s' → s.onlyChanges s' [.eventInputs] [.EVI_GAUGE_STAT, .EVI_ISTAT])
    ∧ (∀ hits, exec (.gaugeResult hits) s = .next s' →
      s.onlyChanges s' [.bus, .eventInputs, .events]
        [.EVI_GAUGE_STAT, .EVI_ISTAT, .HK_DEC_IDX, .HK_DEC])
    ∧ (∀ u, exec (.intervalDrain u) s = .next s' →
      s.onlyChanges s' [.clock, .bus, .eventInputs, .queues, .events]
        [.EVI_ISTAT, .EVI_IU_STAT, .EVI_IU_CNT_EARLY, .EVI_IU_CNT_LOST, .EVI_IU_CNT_DROP, .EVI_IU_CNT_RES, .GLB_CNT_SAT])
    ∧ (∀ u v, exec (.iuCfgWrite u v) s = .next s' →
      s.onlyChanges s' [.bus, .eventInputs, .events]
        [.EVI_ISTAT, .EVI_IU_CFG, .EVI_IU_STAT, .EVI_IU_CNT_EARLY, .EVI_IU_CNT_LOST, .EVI_IU_CNT_DROP, .EVI_IU_CNT_RES,
        .GLB_CNT_SAT])
    ∧ (exec .gaugeTableSave s = .next s' → s.onlyChanges s' [.clock, .bus, .eventInputs, .events] [])

/-- What the needles' commands leave unchanged (R238, R243, R263). -/
def Obligations.NeedleCommandsFrame : Prop :=
  ∀ s s' : State,
    (∀ n, exec (.needleGo n) s = .next s' → s.onlyChangesLast s' [.needles] [])
    ∧ (∀ n, ∀ c ∈ ([.needleStop n, .replaceGo n] : List Instr),
      exec c s = .next s' → s.onlyChanges s' [.needles, .events] [.NDL_ENTRY, .NDL_WIN, .NDL_REPLACE])
    ∧ (∀ n, ∀ c ∈ ([.zMov n, .zLdi n, .zAdd n, .zSub n, .zAnd n, .zOr n, .zXor n, .zShl n, .zShr n, .zCmp n, .zLd n, .zSt n, .zJmp n,
        .zBrc n, .zCall n, .zRet n, .zNop n, .zLoop n, .zSetf n, .zGetf n, .zCaston n, .zBindoff n, .zArm n,
        .zDisarm n, .zSeg n, .zSync n, .zDelay n, .zWaitt n, .zWaittrig n, .zWaite n, .zWaitseg n, .zFence n,
        .zSignal n, .zMark n, .zTone n, .zPlay n, .zYield n, .zHalt n] : List Instr),
      exec c s = .next s' →
      s.onlyChanges s' [.clock, .bus, .needles, .events]
        [.NDL_ENTRY, .NDL_FAULT_PC, .NDL_WIN, .NDL_REPLACE, .NDL_FAULT, .NDL_FAULT_TICK, .NDL_CNT_ISSUE])
    ∧ (∀ n, exec (.zEndloop n) s = .next s' →
      s.onlyChanges s' [.clock, .bus, .needles, .events]
        [.NDL_ENTRY, .NDL_FAULT_PC, .NDL_WIN, .NDL_REPLACE, .NDL_FAULT, .NDL_FAULT_TICK, .NDL_CNT_ISSUE, .GLB_CNT_SAT])
    ∧ (∀ n, exec (.zPost n) s = .next s' →
      s.onlyChanges s' [.clock, .bus, .needles, .queues, .events]
        [.NDL_ENTRY, .NDL_FAULT_PC, .NDL_WIN, .NDL_REPLACE, .NDL_FAULT, .NDL_FAULT_TICK, .NDL_CNT_ISSUE])
    ∧ (∀ n, exec (.waitComplete n) s = .next s' →
      s.onlyChanges s' [.clock, .bus, .needles, .events]
        [.NDL_CNT_LATE, .GLB_CNT_SAT])
    ∧ (∀ n, exec (.replaceCancel n) s = .next s' → s.onlyChanges s' [] [.NDL_REPLACE])
    ∧ (∀ ofs data, exec (.progStoreWrite ofs data) s = .next s' →
      s.onlyChanges s' [.needles, .programMemory]
        [.NDL_G_WDROP, .GLB_CNT_SAT])
    ∧ (∀ addr wide v, exec (.needleWindowWrite addr wide v) s = .next s' →
      s.onlyChanges s' [.needles]
        [.NDL_G_WDROP, .GLB_CNT_SAT])

/-- What the commands of the stimulus units, the hoist and the quarry leave unchanged (R285, R306, R316). -/
def Obligations.StimulusHoistQuarryCommandsFrame : Prop :=
  ∀ s s' : State,
    (∀ u, exec (.stimEnable u) s = .next s' →
      s.onlyChanges s' [.stimulus]
        [.CV_SWATCH_STAT, .STM_UCTL, .STM_USTAT, .GLB_CNT_SAT])
    ∧ (∀ u, exec (.stimDisable u) s = .next s' →
      s.onlyChanges s' [.stimulus]
        [.STM_UCTL, .STM_USTAT, .STM_CNT_CANCEL, .STM_PF_STAT, .GLB_CNT_SAT])
    ∧ (∀ u kind, exec (.playSubmit u kind) s = .next s' →
      s.onlyChanges s' [.stimulus, .events]
        [.STM_USTAT, .STM_PLAY_CTL, .STM_PLAY_STAT, .STM_CNT_CANCEL, .STM_CNT_REFUSED, .STM_PF_STAT, .GLB_CNT_SAT])
    ∧ (∀ u, ∀ c ∈ ([.granuleBoundary u, .jumpArrival u] : List Instr),
      exec c s = .next s' →
      s.onlyChanges s' [.clock, .bus, .stimulus, .events]
        [.STM_USTAT, .STM_UNDER_FIRST, .STM_CNT_UNDER, .STM_CNT_CANCEL, .STM_CNT_SAT, .STM_CNT_PLAYED, .STM_PF_STAT,
        .GLB_CNT_SAT])
    ∧ (∀ u, exec (.prefetchRecord u) s = .next s' → s.onlyChanges s' [.stimulus] [.STM_USTAT, .STM_PF_STAT])
    ∧ (∀ u, exec (.stimClear u) s = .next s' → s.onlyChanges s' [.stimulus] [])
    ∧ (∀ u k tpa v, exec (.staticToneWrite u k tpa v) s = .next s' →
      s.onlyChanges s' [.stimulus]
        [.STM_TFREQ, .STM_TPA])
    ∧ (∀ t v, exec (.hoistTargetEnable t v) s = .next s' →
      s.onlyChanges s' [.bench, .events, .ports, .benchMemory]
        [.BEN_HT_CTL, .BEN_HT_STREAM, .BEN_HT_WP, .BEN_HT_OLDEST, .BEN_QRY_CAP, .BEN_QRY_RETIRE, .BEN_QRY_MIG, .QRY_CSTAT,
        .ETH_STAT, .ETH_CNT_ABANDON, .GLB_CNT_SAT, .HK_DEC_IDX, .HK_DEC])
    ∧ (∀ t, exec (.replayGo t) s = .next s' → s.onlyChanges s' [.bench] [.BEN_HT_WP])
    ∧ (exec .hoistPiece s = .next s' →
      s.onlyChanges s' [.lanes, .tally, .bench, .events, .benchMemory, .tallyMemory]
        [.REC_SKN_OLDEST, .BEN_STAT, .BEN_HT_STREAM, .BEN_HT_WP, .BEN_HT_OLDEST, .BEN_HT_CNT_OVW, .GLB_CNT_SAT])
    ∧ (∀ t, exec (.hoistEntry t) s = .next s' → s.onlyChanges s' [.bench, .queues, .events] [.BEN_HT_CNT_SEG])
    ∧ (∀ t, exec (.replayDone t) s = .next s' →
      s.onlyChanges s' [.bench, .queues, .events]
        [.BEN_HT_WP, .BEN_HT_CNT_SEG])
    ∧ (∀ t rel, exec (.hoistReleaseWrite t rel) s = .next s' → s.onlyChanges s' [.bench] [.BEN_HT_STREAM, .BEN_HT_REL])
    ∧ (∀ c cls read slots, exec (.quarryRequest c cls read slots) s = .next s' →
      s.onlyChanges s' [.bench, .events]
        [.BEN_QRY_STAT, .BEN_QRY_FREQ, .QRY_CSTAT, .QRY_RRT])
    ∧ (∀ c, exec (.hostDeferExpiry c) s = .next s' →
      s.onlyChanges s' [.clock, .bus, .bench, .events]
        [.BEN_CNT_DEFER, .GLB_CNT_SAT])
    ∧ (∀ c rank, exec (.refreshDue c rank) s = .next s' → s.onlyChanges s' [.bench] [.QRY_CNT_REFPOST, .GLB_CNT_SAT])
    ∧ (exec .patrolScrub s = .next s' →
      s.onlyChanges s' [.bench, .events]
        [.BEN_QRY_STAT, .BEN_QRY_FREQ, .QRY_CSTAT, .QRY_RRT])
    ∧ (∀ quarry block ue row, exec (.memoryError quarry block ue row) s = .next s' →
      s.onlyChanges s' [.bench, .events, .benchMemory]
        [.BEN_CNT_CE, .BEN_CNT_UE, .BEN_QRY_CAP, .BEN_QRY_RETIRE, .BEN_QRY_MIG, .QRY_CSTAT, .QRY_CNT_CE, .QRY_CNT_UE,
        .QRY_CNT_RRFULL, .QRY_RRT, .GLB_CNT_SAT, .HK_DEC_IDX, .HK_DEC])
    ∧ (∀ c, exec (.rowCopyDone c) s = .next s' → s.onlyChanges s' [.bench, .events] [.QRY_RRT])
    ∧ (∀ c, exec (.channelRetire c) s = .next s' →
      s.onlyChanges s' [.bench, .events, .benchMemory]
        [.BEN_QRY_CAP, .BEN_QRY_RETIRE, .BEN_QRY_MIG, .QRY_CSTAT, .HK_DEC_IDX, .HK_DEC])
    ∧ (exec .retireClear s = .next s' →
      s.onlyChanges s' [.bench, .events]
        [.BEN_QRY_CAP, .BEN_QRY_RETIRE, .BEN_QRY_MIG, .QRY_CSTAT])
    ∧ (exec .migrationBatchDone s = .next s' →
      s.onlyChanges s' [.bench, .events]
        [.BEN_QRY_STAT, .BEN_QRY_RETIRE, .BEN_QRY_MIG, .QRY_CSTAT, .HK_PD_STAT, .HK_DEC_IDX, .HK_DEC])
    ∧ (∀ p, exec (.freqChangeGo p) s = .next s' → s.onlyChanges s' [.bench] [.BEN_QRY_FREQ])
    ∧ (∀ own, exec (.freqChangeBegin own) s = .next s' →
      s.onlyChanges s' [.bench, .events]
        [.BEN_QRY_STAT, .BEN_QRY_FREQ, .HK_DEC_IDX, .HK_DEC])
    ∧ (exec .freqDone s = .next s' →
      s.onlyChanges s' [.clock, .bus, .bench, .events]
        [.BEN_QRY_STAT, .BEN_QRY_FREQ, .QRY_CSTAT, .QRY_RRT])
    ∧ (∀ c, exec (.selfRefreshEntry c) s = .next s' → s.onlyChanges s' [.clock, .bus, .bench, .events] [.BEN_QRY_STAT])

/-- What the commands of the host link, the queues, the events, the apertures and the transfer engine leave unchanged
(R36, R332, R344, R360). -/
def Obligations.HostLinkCommandsFrame : Prop :=
  ∀ s s' : State,
    (∀ ws, (ws.map BusWr.rq).any s.dev.hasWritten = false → exec (.registerWrite ws) s = .next s' →
      s.onlyJoins s' [.bus]
        [])
    ∧ (∀ rq addr v, ∀ c ∈ ([.highHalfWrite rq addr v, .lowHalfWrite rq addr v] : List Instr),
      s.dev.hasWritten rq = false → exec c s = .next s' → s.onlyJoins s' [.bus] [])
    ∧ (∀ write addr size, s.dev.hasWritten .host = false → exec (.bar0BadsizeAccess write addr size) s = .next s' →
      s.onlyJoins s' [.bus]
        [.GLB_ACC_ERR, .GLB_CNT_SAT])
    ∧ (∀ e, exec (.holdoffExpiry e) s = .next s' → s.onlyChanges s' [.clock, .bus, .events] [])
    ∧ (∀ rate width, exec (.linkUp rate width) s = .next s' → s.onlyChanges s' [.link, .events, .security] [])
    ∧ (∀ rate width, exec (.linkChange rate width) s = .next s' → s.onlyChanges s' [.link, .events] [])
    ∧ (∀ any q, exec (.queueAlloc any q) s = .next s' →
      s.onlyChanges s' [.events]
        [.QUE_ALLOC, .QUE_ALLOC_STAT, .QUE_STAT])
    ∧ (∀ q, exec (.queueFree q) s = .next s' →
      s.onlyChanges s' [.queues]
        [.QUE_BASE, .QUE_WB, .QUE_CFG, .QUE_CTL, .QUE_STAT, .QUE_IDX, .QUE_INT])
    ∧ (∀ q, exec (.queueEnable q) s = .next s' → s.onlyChangesLast s' [.queues] [.QUE_CTL, .QUE_STAT, .QUE_IDX])
    ∧ (∀ q, exec (.queueDisable q) s = .next s' → s.onlyChanges s' [.queues] [.QUE_CTL, .QUE_STAT, .QUE_IDX])
    ∧ (∀ q idx, exec (.doorbell q idx) s = .next s' → s.onlyChanges s' [.events] [.QUE_G_BADDB, .QUE_IDX, .GLB_CNT_SAT])
    ∧ (∀ q ending entry, exec (.commandFetch q ending entry) s = .next s' →
      s.onlyChanges s' [.queues, .events]
        [.QUE_STAT])
    ∧ (∀ q, exec (.queueItemWrite q) s = .next s' →
      s.onlyChanges s' [.bench, .queues, .events, .benchMemory, .hostMemory]
        [.QUE_G_LOST, .QUE_IDX, .QUE_CNT, .GLB_CNT_SAT])
    ∧ (∀ q, exec (.interruptTimeout q) s = .next s' → s.onlyChanges s' [.clock, .bus, .queues, .events] [])
    ∧ (∀ q v, exec (.queIntWrite q v) s = .next s' → s.onlyChangesLast s' [.queues] [.QUE_INT])
    ∧ (∀ v, exec (.msixMessage v) s = .next s' → s.onlyChanges s' [.queues, .hostMemory] [])
    ∧ (∀ v addr data, exec (.vectorUnmask v addr data) s = .next s' → s.onlyChanges s' [.queues, .hostMemory] [])
    ∧ (∀ v, exec (.modFrExpiry v) s = .next s' → s.onlyChanges s' [.clock, .bus, .queues, .events, .hostMemory] [])
    ∧ (∀ x len, exec (.apertureRead x len) s = .next s' →
      s.onlyChanges s' [.link, .events]
        [.QUE_CNT_APT, .GLB_CNT_SAT])
    ∧ (∀ x data, exec (.apertureWrite x data) s = .next s' →
      s.onlyChanges s' [.tally, .bench, .events, .benchMemory, .tallyMemory]
        [.TAL_G_WDROP, .QUE_CNT_APT, .GLB_CNT_SAT])
    ∧ (∀ e, exec (.eventRaised e) s = .next s' →
      s.onlyChanges s' [.clock, .bus, .needles, .queues, .events, .trigBus]
        [.EVR_CNT_LOST, .EVR_PEND, .GLB_CNT_SAT])
    ∧ (exec .eventLogWrite s = .next s' →
      s.onlyChanges s' [.bench, .queues, .events, .benchMemory, .hostMemory]
        [.QUE_G_LOST, .QUE_IDX, .QUE_CNT, .GLB_CNT_SAT])
    ∧ (∀ c, exec (.xferKick c) s = .next s' → s.onlyChanges s' [.transfer] [.XFE_G_BUSY, .XFE_G_HALTED, .XFE_STAT])

/-- What the instrument ports and the trigger bus' commands leave unchanged (R369, R376, R389, R392). -/
def Obligations.PortAndTrigBusCommandsFrame : Prop :=
  ∀ s s' : State,
    (∀ x, ∀ c ∈ ([.markerPulseEnd x, .outputLaunch x] : List Instr),
      exec c s = .next s' → s.onlyChanges s' [.clock, .bus, .events, .trigBus] [])
    ∧ (∀ p v, exec (.portEnable p v) s = .next s' →
      s.onlyChanges s' [.draws]
        [.ETH_CTL, .ETH_STAT, .TST_CTL, .TST_STAT, .TST_BITS, .TST_ERRS])
    ∧ (∀ p, exec (.portDisable p) s = .next s' →
      s.onlyChanges s' [.ports]
        [.ETH_CTL, .ETH_STAT, .ETH_CNT_ABANDON, .GLB_CNT_SAT])
    ∧ (∀ p sub arrival f, exec (.ethFrameRx p sub arrival f) s = .next s' →
      s.onlyChanges s' [.trigger, .decimation, .bench, .queues, .events, .ports]
        [.ETH_STAT, .ETH_CNT_FCS, .ETH_CNT_FOREIGN, .ETH_CNT_BADHDR, .ETH_CNT_UNKNOWN, .ETH_CNT_HKDROP, .ETH_CNT_STALE,
        .ETH_CNT_FA_REJ, .GLB_CNT_SAT, .ETH_FA_LAST])
    ∧ (∀ p, exec (.arpNdEcho p) s = .next s' → s.onlyChanges s' [.ports] [.ETH_CNT_HKDROP, .GLB_CNT_SAT])
    ∧ (∀ t ack limit, exec (.credit t ack limit) s = .next s' →
      s.onlyChanges s' [.bench, .ports]
        [.ETH_STAT, .ETH_CNT_STALE, .GLB_CNT_SAT])
    ∧ (∀ t ack limit runs, exec (.nack t ack limit runs) s = .next s' →
      s.onlyChanges s' [.bench, .ports]
        [.ETH_STAT, .ETH_CNT_BADHDR, .ETH_CNT_STALE, .GLB_CNT_SAT])
    ∧ (∀ p sub arrival datagram, exec (.fireAt p sub arrival datagram) s = .next s' →
      s.onlyChanges s' [.trigger, .decimation, .queues, .events, .ports]
        [.ETH_CNT_FA_REJ, .GLB_CNT_SAT, .ETH_FA_LAST])
    ∧ (∀ t, exec (.packetLaunch t) s = .next s' →
      s.onlyChanges s' [.lanes, .bench, .events, .ports]
        [.REC_SKN_OLDEST, .BEN_HT_WP])
    ∧ (∀ p, exec (.retransmit p) s = .next s' → s.onlyChanges s' [.events, .ports] [.ETH_CNT_RETX, .GLB_CNT_SAT])
    ∧ (∀ t, exec (.creditTimeout t) s = .next s' → s.onlyChanges s' [.clock, .bus, .bench, .events, .ports] [.ETH_STAT])
    ∧ (∀ k word v, exec (.faKeyWrite k word v) s = .next s' → s.onlyChanges s' [.fireKeys] [.ETH_FA_KCTL, .ETH_FA_LAST])
    ∧ (∀ p sub, ∀ c ∈ ([.subportLinkUp p sub, .subportLinkDown p sub] : List Instr),
      exec c s = .next s' → s.onlyChanges s' [.events] [.ETH_STAT])
    ∧ (∀ v, exec (.ownershipWrite v) s = .next s' →
      s.onlyChanges s' [.draws, .trigger, .events, .trigBus]
        [.SYN_OWN, .SYN_MSG_STAT, .SYN_CNT_TXFAIL, .GLB_CNT_SAT, .TST_CTL, .TST_STAT, .TST_BITS, .TST_ERRS])
    ∧ (∀ x level sample frac, exec (.pinEdge x level sample frac) s = .next s' →
      s.onlyChanges s' [.timeBase, .trigger, .decimation, .events, .trigBus]
        [.SYN_PING_STAT, .SYN_PSTAT, .SYN_CNT_GLITCH, .GLB_CNT_SAT])
    ∧ (∀ x, exec (.filteredChange x) s = .next s' →
      s.onlyChanges s' [.clock, .bus, .timeBase, .trigger, .decimation, .events, .trigBus]
        [.SYN_PING_STAT, .SYN_PSTAT, .GLB_CNT_SAT])
    ∧ (∀ x level, exec (.contention x level) s = .next s' →
      s.onlyChanges s' [.bus, .events, .trigBus]
        [.SYN_MSG_STAT, .SYN_LFSR, .SYN_CNT_CONT, .SYN_CNT_COLL, .SYN_CNT_TXFAIL, .SYN_PSTAT, .GLB_CNT_SAT, .TST_ERRS])
    ∧ (∀ x, exec (.faultClear x) s = .next s' → s.onlyChanges s' [.trigBus] [.SYN_PSTAT])
    ∧ (∀ v, exec (.msgModeEnable v) s = .next s' →
      s.onlyChanges s' [.draws, .trigger, .trigBus]
        [.SYN_MSG_CTL, .SYN_MSG_STAT, .SYN_CNT_TXFAIL, .GLB_CNT_SAT, .TST_CTL, .TST_STAT, .TST_BITS, .TST_ERRS])
    ∧ (∀ v, exec (.msgTxGo v) s = .next s' →
      s.onlyChanges s' [.trigBus]
        [.SYN_MSG_TX, .SYN_MSG_STAT, .SYN_CNT_TXFAIL, .GLB_CNT_SAT])
    ∧ (∀ c ∈ ([.wordSendStart, .backoffExpiry] : List Instr),
      exec c s = .next s' → s.onlyChanges s' [.clock, .bus, .events, .trigBus] [])
    ∧ (exec .msgTx s = .next s' →
      s.onlyChanges s' [.clock, .bus, .trigger, .decimation, .events, .trigBus]
        [.SYN_MSG_STAT, .SYN_CNT_TX])
    ∧ (∀ framed word crc ago sample frac, exec (.msgFrameRx framed word crc ago sample frac) s = .next s' →
      s.onlyChanges s' [.trigger, .decimation, .events]
        [.SYN_MSG_LAST, .SYN_CNT_MSGBAD, .SYN_CNT_IDCLASH, .SYN_CNT_RX, .GLB_CNT_SAT])
    ∧ (∀ v, exec (.pingGo v) s = .next s' →
      s.onlyChanges s' [.draws, .trigger, .trigBus]
        [.SYN_PING_CTL, .SYN_PING_STAT, .TST_CTL, .TST_STAT, .TST_BITS, .TST_ERRS])
    ∧ (exec .pingPulse s = .next s' → s.onlyChanges s' [.clock, .bus, .events, .trigBus] [.GLB_CNT_SAT])
    ∧ (exec .pingReply s = .next s' → s.onlyChanges s' [.clock, .bus, .events, .trigBus] [.SYN_PING_STAT])
    ∧ (exec .pingDone s = .next s' →
      s.onlyChanges s' [.draws, .trigger, .events, .trigBus]
        [.SYN_PING_STAT, .SYN_PING_MEAN, .SYN_PING_SD, .GLB_CNT_SAT])
    ∧ (exec .pingTimeout s = .next s' → s.onlyChanges s' [.clock, .bus, .trigger, .events, .trigBus] [.SYN_PING_STAT])

/-- What the raster processor, the power domains, security and the link tests' commands leave unchanged (R407, R419,
R440, R470). -/
def Obligations.RasterAndHouseCommandsFrame : Prop :=
  ∀ s s' : State,
    (∀ c, exec (.canvasEnable c) s = .next s' → s.onlyChanges s' [] [.RAS_CTL, .RAS_STAT])
    ∧ (∀ c, exec (.rasGo c) s = .next s' → s.onlyChanges s' [.raster] [])
    ∧ (∀ c, exec (.passStart c) s = .next s' → s.onlyChanges s' [.raster] [.RAS_STAT])
    ∧ (∀ c, exec (.passEnd c) s = .next s' →
      s.onlyChanges s' [.clock, .bus, .events, .raster, .rasterMemory]
        [.RAS_STAT])
    ∧ (∀ c ∈ ([.dpyCommitA, .dpyCommitB] : List Instr),
      exec c s = .next s' → s.onlyChanges s' [.events, .raster] [.DPY_STAT, .DPY_CNT_REFUSED, .GLB_CNT_SAT])
    ∧ (∀ x tick, exec (.vblank x tick) s = .next s' → s.onlyChanges s' [.draws, .events, .raster] [.DPY_STAT, .TST_CRC])
    ∧ (exec .vrrPorchEnd s = .next s' → s.onlyChanges s' [.clock, .bus, .events, .raster] [])
    ∧ (∀ x, exec (.frontBufferSample x) s = .next s' → s.onlyChanges s' [.clock, .bus, .events, .raster] [])
    ∧ (∀ tick, exec (.teEdge tick) s = .next s' → s.onlyChanges s' [.events, .raster] [.DPY_STAT])
    ∧ (exec .teMiss s = .next s' → s.onlyChanges s' [.clock, .bus, .events, .raster] [.DPY_CNT_TEMISS, .GLB_CNT_SAT])
    ∧ (exec .repair s = .next s' → s.onlyChanges s' [.draws, .events, .raster] [.RAS_CNT_REPAIR, .GLB_CNT_SAT])
    ∧ (∀ x n, exec (.fetchUnderrun x n) s = .next s' →
      s.onlyChanges s' [.events, .raster]
        [.DPY_CNT_UNDER, .DPY_CNT_ABORT, .GLB_CNT_SAT])
    ∧ (exec .daHotPlug s = .next s' → s.onlyChanges s' [.events, .raster] [])
    ∧ (exec .wake s = .next s' → s.onlyChanges s' [.events, .power] [.HK_WAKE_CAUSE, .HK_PD_STAT, .HK_DEC_IDX, .HK_DEC])
    ∧ (∀ src, exec (.wakeSource src) s = .next s' →
      s.onlyChanges s' [.clock, .bus, .events, .power]
        [.HK_WAKE_CAUSE, .HK_PD_STAT, .HK_DEC_IDX, .HK_DEC])
    ∧ (exec .mainPgRise s = .next s' → s.onlyChanges s' [.events, .power] [.HK_RST_CAUSE])
    ∧ (∀ dom, exec (.pdOff dom) s = .next s' →
      s.onlyChanges s' [.tally, .eventInputs, .bench, .events, .raster, .benchMemory, .tallyMemory, .rasterMemory]
        [.BEN_STAT, .ETH_STAT, .HK_PD_OFF, .HK_PD_STAT, .HK_DEC_IDX, .HK_DEC])
    ∧ (∀ dom, exec (.pdLingerExpiry dom) s = .next s' →
      s.onlyChanges s' [.clock, .bus, .tally, .eventInputs, .bench, .events, .raster, .benchMemory, .tallyMemory, .rasterMemory]
        [.BEN_STAT, .ETH_STAT, .HK_PD_STAT, .HK_DEC_IDX, .HK_DEC])
    ∧ (∀ good, exec (.boot good) s = .next s' →
      s.onlyChanges s' [.clock, .bus, .timeBase, .trigger, .lanes, .tally, .needles, .bench, .queues, .events, .fireKeys, .raster, .power,
        .security, .benchMemory, .tallyMemory, .programMemory, .rasterMemory]
        [.TB_ORIGIN_CTL, .TRG_LFSR, .TRG_LAST, .TRG_OVR_FIRST, .TRG_CNT_ACC, .TRG_CNT_FILL, .TRG_CNT_HOLD, .TRG_CNT_BUSY,
        .TRG_CNT_OVR, .REC_LCTL, .REC_LSTAT, .REC_SEGNUM, .REC_CNT_DROPFR, .REC_CNT_NOTICE, .REC_CNT_SEGWRAP,
        .REC_SKN_CP, .REC_SKN_OLDEST, .BEN_STAT, .BEN_DROP_FIRST, .BEN_CNT_DROPFR, .HK_PWR_STAT, .GLB_LC,
        .GLB_CNT_SAT, .ETH_FA_KCTL, .ETH_FA_LAST, .HK_PD_STAT, .HK_BOOT])
    ∧ (∀ t, exec (.tempWarn t) s = .next s' → s.onlyChanges s' [.events] [.HK_TEMP])
    ∧ (∀ t, exec (.tempOk t) s = .next s' → s.onlyChanges s' [.events, .power] [.HK_TEMP])
    ∧ (∀ good version epoch, exec (.fwStage good version epoch) s = .next s' →
      s.onlyChanges s' [.draws, .events, .power]
        [.HK_FW_CTL])
    ∧ (exec .fwSwitch s = .next s' → s.onlyChanges s' [.power] [.HK_FW_CTL])
    ∧ (exec .fwSwitchStart s = .next s' →
      s.onlyChanges s' [.events, .power, .security]
        [.HK_BOOT, .HK_DEC_IDX, .HK_DEC])
    ∧ (exec .fwConfirm s = .next s' → s.onlyChanges s' [.events, .power] [.HK_FW_CTL, .GLB_LC])
    ∧ (exec .fwWatchdog s = .next s' → s.onlyChanges s' [.clock, .bus, .events, .power] [.HK_FW_CTL, .HK_BOOT])
    ∧ (∀ fuses, ∀ c ∈ ([.provision fuses, .field_ fuses, .ownerAdd fuses, .ownerRevoke fuses, .return_ fuses] : List Instr),
      exec c s = .next s' →
      s.onlyChanges s' [.clock, .draws, .bus, .timeBase, .trigger, .lanes, .tally, .needles, .bench, .queues, .events, .fireKeys, .raster,
        .security, .benchMemory, .tallyMemory, .programMemory, .rasterMemory]
        [.TB_ORIGIN_CTL, .TRG_LFSR, .TRG_LAST, .TRG_OVR_FIRST, .TRG_CNT_ACC, .TRG_CNT_FILL, .TRG_CNT_HOLD, .TRG_CNT_BUSY,
        .TRG_CNT_OVR, .REC_LCTL, .REC_LSTAT, .REC_SEGNUM, .REC_CNT_DROPFR, .REC_CNT_NOTICE, .REC_CNT_SEGWRAP,
        .REC_SKN_CP, .REC_SKN_OLDEST, .BEN_STAT, .BEN_DROP_FIRST, .BEN_CNT_DROPFR, .GLB_LC, .SEC_NONCE, .SEC_STAT,
        .GLB_CNT_SAT, .ETH_FA_KCTL, .ETH_FA_LAST])
    ∧ (exec .debug s = .next s' →
      s.onlyChanges s' [.clock, .draws, .bus, .timeBase, .trigger, .lanes, .tally, .needles, .bench, .queues, .events, .fireKeys, .raster,
        .security, .benchMemory, .tallyMemory, .programMemory, .rasterMemory]
        [.TB_ORIGIN_CTL, .TRG_LFSR, .TRG_LAST, .TRG_OVR_FIRST, .TRG_CNT_ACC, .TRG_CNT_FILL, .TRG_CNT_HOLD, .TRG_CNT_BUSY,
        .TRG_CNT_OVR, .REC_LCTL, .REC_LSTAT, .REC_SEGNUM, .REC_CNT_DROPFR, .REC_CNT_NOTICE, .REC_CNT_SEGWRAP,
        .REC_SKN_CP, .REC_SKN_OLDEST, .BEN_STAT, .BEN_DROP_FIRST, .BEN_CNT_DROPFR, .GLB_LC, .SEC_NONCE, .SEC_STAT,
        .GLB_CNT_SAT, .ETH_FA_KCTL, .ETH_FA_LAST])
    ∧ (∀ c ∈ ([.getVersion, .getCapabilities, .negotiateAlgorithms, .getDigests, .keyExchange] : List Instr),
      exec c s = .next s' → s.onlyChanges s' [.security] [])
    ∧ (∀ slot, ∀ c ∈ ([.getCertificate slot, .challenge slot] : List Instr),
      exec c s = .next s' → s.onlyChanges s' [.security] [])
    ∧ (∀ index, exec (.getMeasurements index) s = .next s' → s.onlyChanges s' [.security] [])
    ∧ (∀ ses, ∀ c ∈ ([.finish ses, .endSession ses] : List Instr),
      exec c s = .next s' → s.onlyChanges s' [.events, .security] [])
    ∧ (∀ ses, ∀ c ∈ ([.keyUpdate ses, .heartbeat ses] : List Instr),
      exec c s = .next s' → s.onlyChanges s' [.security] [])
    ∧ (∀ ses stream key, exec (.vendorDefinedRequest ses stream key) s = .next s' → s.onlyChanges s' [.security] [])
    ∧ (∀ stream, exec (.ideError stream) s = .next s' →
      s.onlyChanges s' [.events, .security]
        [.SEC_CNT_IDE, .GLB_CNT_SAT])
    ∧ (∀ ses v, exec (.testSessionStart ses v) s = .next s' →
      s.onlyChangesLast s' [.draws, .tally, .eventInputs, .bench, .events, .raster, .benchMemory, .tallyMemory]
        [.BEN_STAT, .ETH_STAT, .TST_CTL, .TST_STAT, .TST_LOSS, .TST_BITS, .TST_ERRS, .HK_PD_STAT, .HK_DEC_IDX, .HK_DEC])
    ∧ (∀ ses bits errs, exec (.testSessionEnd ses bits errs) s = .next s' →
      s.onlyChanges s' []
        [.TST_CTL, .TST_STAT, .TST_BITS, .TST_ERRS])
    ∧ (∀ dom dimm, exec (.blockReady dom dimm) s = .next s' →
      s.onlyChanges s' [.tally, .eventInputs, .bench, .events, .raster, .power]
        [.BEN_STAT, .BEN_QRY_STAT, .BEN_QRY_CAP, .BEN_QRY_MIG, .QRY_CSTAT, .QRY_RRT, .ETH_STAT, .GLB_CNT_SAT, .HK_PD_STAT,
        .HK_DEC_IDX, .HK_DEC])
    ∧ (∀ ses, exec (.checkerLock ses) s = .next s' → s.onlyChanges s' [] [.TST_STAT])
    ∧ (∀ ses bits errs, exec (.checkerLockLoss ses bits errs) s = .next s' →
      s.onlyChanges s' []
        [.TST_STAT, .TST_LOSS, .TST_BITS, .TST_ERRS])
    ∧ (∀ trained, exec (.daLinkTrained trained) s = .next s' → s.onlyChanges s' [.events, .raster] [.DPY_LINK])

/-- A slice starts, calibrates, loses its clock, locks again and stops, and its frames set out (R42, R44, R53, R65,
R66, R106). -/
def Obligations.SliceLifeCommandsAct : Prop :=
  ∀ (s : State) (n : Fin 4), s.dev.bus.writes = [] →
    (s.dev.flag CV_SCTL.EN n = false →
      ∃ t, exec (.sliceEnable n) s = .next t ∧ t.dev.flag CV_SCTL.EN n = true
        ∧ (t.dev.slice.get n).calDone = false ∧ (t.dev.slice.get n).locked = false
        ∧ (∀ m, m ≠ n.val → t.dev.slice.get m = s.dev.slice.get m ∧ t.dev.get CV_SCTL.EN m = s.dev.get CV_SCTL.EN m))
    ∧ (∀ cal : List (Fin 88 × CalData), s.dev.flag CV_SCTL.EN n = true → (s.dev.slice.get n).locked = true →
      (s.dev.slice.get n).calDone = false → (∀ h, h < 9 → s.dev.pdOn (10 * n + h) = true) →
      (∀ p, p < 88 → (s.dev.unmarked n (p / 11)).contains (p % 11) = true → cal.any (fun c => c.1.val == p) = true) →
      ∃ t, exec (.enableCalibrationDone n cal) s = .next t ∧ t.dev.flag CV_SSTAT.READY n = true
        ∧ (t.dev.slice.get n).calDone = true ∧ (t.dev.slice.get n).validFrom = s.dev.now
        ∧ t.dev.raised s.dev.now (16 * n + 9))
    ∧ (s.dev.flag CV_SSTAT.READY n = true →
      ∃ t, exec (.sliceClockLoss n) s = .next t ∧ t.dev.flag CV_SSTAT.READY n = false
        ∧ (t.dev.slice.get n).locked = false ∧ t.dev.raised s.dev.now (16 * n + 10)
        ∧ (t.dev.path.get n).raw = (s.dev.path.get n).raw.map (fun f =>
            if s.dev.now ≤ f.k + 2 then { f with valid := false, ovr := false } else f)
        ∧ (∀ m, m ≠ n.val → t.dev.slice.get m = s.dev.slice.get m ∧ t.dev.path.get m = s.dev.path.get m))
    ∧ ((s.dev.slice.get n).locked = false → s.dev.flag CV_SCTL.EN n = true → (s.dev.slice.get n).calDone = true →
      s.dev.tb.locked = true →
      ∃ t, exec (.sliceClockLock n) s = .next t ∧ t.dev.sliceOn n = false
        ∧ (t.dev.advanceTo (s.dev.now + 1)).sliceOn n = true
        ∧ (t.dev.slice.get n).locked = true ∧ (t.dev.slice.get n).validFrom = s.dev.now + 1
        ∧ (∀ h, h < 8 → ((t.dev.slice.get n).group.get h).base = s.dev.now)
        ∧ t.dev.raised (s.dev.now + 1) (16 * n + 9)
        ∧ (∀ m, m ≠ n.val → t.dev.slice.get m = s.dev.slice.get m))
    ∧ (s.dev.flag CV_SCTL.EN n = true →
      ∃ t, exec (.sliceDisable n) s = .next t ∧ t.dev.flag CV_SCTL.EN n = false
        ∧ t.dev.flag CV_SSTAT.READY n = false ∧ (t.dev.slice.get n).calDone = false
        ∧ (∀ h, h < 8 → t.dev.get CV_GRP_STAT.STATE n h = 4) ∧ t.dev.now = s.dev.now + 1)
    ∧ (∀ codes : List (BitVec 10), codes.length = 64 → s.dev.flag CV_SCTL.EN n = true → s.dev.tb.locked = true →
      (s.dev.slice.get n).locked = true → (∀ f ∈ (s.dev.path.get n).raw, f.k < s.dev.now) →
      ∃ t, exec (.sampleFrame n codes) s = .next t
        ∧ (t.dev.path.get n).raw = (s.dev.path.get n).raw.map (fun f =>
            if f.ovr = true ∧ f.k + 3 ≤ s.dev.now then { f with ovr := false } else f) ++
          [{ k := s.dev.now, raw := codes, subs := (List.range 64).map (s.dev.subFor n s.dev.now),
             interp := s.dev.get CV_SSTAT.INTERP_TH n, valid := s.dev.sliceOn n,
             degraded := s.dev.get CV_SSTAT.INTERP_TH n != 0 || (s.dev.slice.get n).suspect.any fun x =>
               decide (x.1 ≤ s.dev.now) && decide (s.dev.now < x.2),
             spoilt := s.dev.flag CV_SSTAT.INJ_ACTIVE n || s.dev.flag CV_SSTAT.DEGRADED n,
             ovr := s.dev.sliceOn n && codes.any fun c => c == 0 || c == 1023 }]
        ∧ t.dev.get CV_OVR_CNT.COUNT n = min (2 ^ CV_OVR_CNT.COUNT.w - 1) (s.dev.get CV_OVR_CNT.COUNT n
            + ((s.dev.path.get n).raw.filter fun f => f.ovr && decide (f.k + 3 ≤ s.dev.now)).length)
        ∧ t.dev.get CV_NRDY_CNT.COUNT n = (if s.dev.sliceOn n = true then s.dev.get CV_NRDY_CNT.COUNT n
            else min (2 ^ CV_NRDY_CNT.COUNT.w - 1) (s.dev.get CV_NRDY_CNT.COUNT n + 1))
        ∧ (∀ m, m ≠ n.val → t.dev.path.get m = s.dev.path.get m))

/-- Sub-converters rotate, swap, fail and are spared, and the DAC route switches (R45, R46, R48, R49, R53, R62, R67,
R81, R82). -/
def Obligations.SparingCommandsAct : Prop :=
  ∀ (s : State) (n : Fin 4) (h : Fin 8), s.dev.bus.writes = [] →
    (∀ k, max s.dev.now (s.dev.rotDue n h) = k → s.dev.get CV_GRP_STAT.STATE n h = 0 →
      s.dev.flag CV_SCTL.ROT_EN n = true → (s.dev.advanceTo k).hkAbsent = false →
      ((s.dev.slice.get n).group.get h).calOk = true → ((s.dev.slice.get n).group.get h).failAt = none →
      ((s.dev.slice.get n).group.get h).swapAt = none → (s.dev.slice.get n).commit = none →
      s.dev.flag CV_CORR_CTL.HOST_SUB n = false → s.dev.flag CV_TBL_STAT.PENDING n = false →
      k < s.dev.rotDue n h + s.dev.rotPeriod n →
      s.dev.subBit CV_SUB_DISC.P n (11 * h + s.dev.get CV_GRP_STAT.SPARE n h) = false →
      (∀ p, p < 88 → s.dev.subBit CV_SUB_ARM.P n p = true → s.dev.subBit CV_SUB_DISC.P n p = false) →
      ∃ t, exec (.rotation n h) s = .next t ∧ t.dev.now = k
        ∧ (t.dev.slice.get n).commit.map Commit.c = some k ∧ (t.dev.slice.get n).commit.map Commit.rot = some (some h.val)
        ∧ t.dev.flag CV_TBL_STAT.PENDING n = true ∧ t.dev.get CV_GRP_STAT.STATE n h = 0
        ∧ ((t.dev.slice.get n).group.get h).round = ((s.dev.slice.get n).group.get h).round + 1)
    ∧ (∀ k, ((s.dev.slice.get n).group.get h).swapAt = some k →
      ∃ t, exec (.subconverterSwap n h) s = .next t
        ∧ t.dev.get CV_GRP_STAT.SPARE n h = (s.dev.slots n h).getD ((s.dev.slice.get n).group.get h).slot 15 % 16
        ∧ t.dev.get CV_GRP_STAT.STATE n h = 0 ∧ ((t.dev.slice.get n).group.get h).swapAt = none
        ∧ ((t.dev.slice.get n).group.get h).slot = (((s.dev.slice.get n).group.get h).slot + 1) % 10
        ∧ t.dev.now = max s.dev.now k ∧ t.dev.raised (max s.dev.now k) (16 * n))
    ∧ (∀ outside : BitVec 11, s.dev.get CV_GRP_STAT.STATE n h < 3 →
      (∃ u, u < 11 ∧ outside.toNat / 2 ^ u % 2 = 1 ∧ u ∈ s.dev.slots n h) →
      ∃ t, exec (.monitorWindowEnd n h outside) s = .next t
        ∧ t.dev.get CV_DEGWIN_SEQ.COUNT n = (s.dev.get CV_DEGWIN_SEQ.COUNT n + 1) % 2 ^ CV_DEGWIN_SEQ.COUNT.w
        ∧ (t.dev.slice.get n).suspect.length = (s.dev.slice.get n).suspect.length + 1
        ∧ (∀ u, u < 11 → outside.toNat / 2 ^ u % 2 = 1 → u ∈ s.dev.slots n h →
          t.dev.get CV_GRP_STAT.FAILED n h / 2 ^ u % 2 = 1)
        ∧ t.dev.raised t.dev.now (16 * n + 4))
    ∧ (∀ outside : BitVec 11, s.dev.get CV_GRP_STAT.STATE n h = 3 →
      ∃ t, exec (.monitorWindowEnd n h outside) s = .next t ∧ (t.dev.slice.get n).suspect = (s.dev.slice.get n).suspect
        ∧ (∀ u, u < 11 → outside.toNat / 2 ^ u % 2 = 1 → t.dev.get CV_GRP_STAT.FAILED n h / 2 ^ u % 2 = 1))
    ∧ (∀ k, ((s.dev.slice.get n).group.get h).failAt = some k →
      ∃ t, exec (.sparingTransition n h) s = .next t
        ∧ ((t.dev.slice.get n).group.get h).failAt = none ∧ ((t.dev.slice.get n).group.get h).failing = []
        ∧ t.dev.get CV_GRP_STAT.STATE n h = (failSteps ((s.dev.slice.get n).group.get h).failing
            (s.dev.get CV_GRP_STAT.STATE n h) (s.dev.get CV_GRP_STAT.SPARE n h) (s.dev.slots n h)).1 % 8
        ∧ t.dev.now = max s.dev.now k)
    ∧ (∀ cal, s.dev.get CV_GRP_STAT.STATE n h = 0 → s.dev.flag CV_CORR_CTL.HOST_SUB n = false →
      ∃ t, exec (.spareCalibrationDone n h cal) s = .next t
        ∧ ((t.dev.slice.get n).group.get h).calOk = (calibrate cal).isSome
        ∧ ((t.dev.slice.get n).group.get h).page = (calibrate cal).getD []
        ∧ t.dev.get CV_GRP_STAT.STATE n h = (if (calibrate cal).isSome then 0 else 1)
        ∧ ((calibrate cal).isSome = false → t.dev.raised s.dev.now (16 * n + 5)))
    ∧ (∀ umask : BitVec 11, s.dev.flag CV_SCTL.EN n = false →
      ∃ t, exec (.failClrWrite n h umask) s = .next t ∧ t.dev.get CV_FAIL_CLR.UMASK n = 0
        ∧ t.dev.get CV_GRP_STAT.FAILED n h = s.dev.get CV_GRP_STAT.FAILED n h
            - (s.dev.get CV_GRP_STAT.FAILED n h &&& umask.toNat))
    ∧ (∀ v : BitVec 32, (s.dev.slice.get n).swatch = none → v.toNat % 4 ≠ s.dev.get CV_DAC_CTL.ROUTE n →
      ∃ t, exec (.dacRouteWrite n v) s = .next t ∧ t.dev.get CV_DAC_CTL.ROUTE n = v.toNat % 4
        ∧ (t.dev.slice.get n).routes = (s.dev.slice.get n).routes ++ [(s.dev.now + 8, v.toNat % 4)])
    ∧ (∀ k r rest, (s.dev.slice.get n).routes = (k, r) :: rest → s.dev.flag CV_SSTAT.INJ_ACTIVE n = false → r % 2 = 1 →
      ∃ t, exec (.injectionSwitch n) s = .next t ∧ t.dev.flag CV_SSTAT.INJ_ACTIVE n = true
        ∧ (t.dev.slice.get n).routes = rest ∧ t.dev.now = max s.dev.now k ∧ t.dev.raised (max s.dev.now k) (16 * n + 7))

/-- Tables are written, committed and switched, and spare matching commits its pages (R74, R75, R76, R78, R80, R83).
-/
def Obligations.TableCommandsAct : Prop :=
  ∀ (s : State) (n : Fin 4), s.dev.bus.writes = [] →
    (∀ (ofs : BitVec 18) v m, tabMask ofs.toNat = some m → s.dev.flag CV_TBL_STAT.PENDING n = false →
      ∃ t, exec (.tableWindowWrite n ofs v) s = .next t
        ∧ (t.dev.slice.get n).word (1 - s.dev.activeCopy n ofs.toNat) ofs.toNat = v.toNat &&& m
        ∧ (∀ k, k ≠ n.val → t.dev.slice.get k = s.dev.slice.get k))
    ∧ (∀ tim, s.dev.flag CV_TBL_STAT.PENDING n = false → s.dev.flag CV_TBL_STAT.TIM_DISC n = false →
      (∃ p, p < 88 ∧ s.dev.subBit CV_SUB_ARM.P n p = true) →
      (∀ p, p < 88 → s.dev.subBit CV_SUB_ARM.P n p = true → s.dev.subBit CV_SUB_DISC.P n p = false) →
      ∃ t, exec (.tableCommitSub n tim) s = .next t ∧ t.dev.flag CV_TBL_STAT.PENDING n = true
        ∧ (t.dev.slice.get n).commit = some ⟨s.dev.now, s.dev.armed n, tim, none⟩)
    ∧ (s.dev.flag CV_TBL_STAT.PENDING n = false → s.dev.flag CV_TBL_STAT.TIM_DISC n = false →
      ∃ t, exec (.tableCommitTim n) s = .next t ∧ t.dev.flag CV_TBL_STAT.PENDING n = true
        ∧ (t.dev.slice.get n).commit = some ⟨s.dev.now, [], true, none⟩)
    ∧ (s.dev.flag CV_TBL_STAT.PENDING n = true →
      ∃ t, exec (.tableCommitTim n) s = .next t ∧ t.dev.get CV_TBL_STAT.LAST_REFUSE n = 1
        ∧ t.dev.slice = s.dev.slice ∧ t.dev.raised s.dev.now (16 * n + 12))
    ∧ (∀ c, (s.dev.slice.get n).commit = some c →
      ∃ t, exec (.commitEffect n) s = .next t ∧ t.dev.now = max s.dev.now (c.c + 16) ∧ t.dev.slice = s.dev.slice)
    ∧ (∀ c, (s.dev.slice.get n).commit = some c →
      ∃ t, exec (.tblSwitch n) s = .next t ∧ t.dev.flag CV_TBL_STAT.PENDING n = false
        ∧ (t.dev.slice.get n).commit = none
        ∧ t.dev.get CV_TSW_TICK.TICK n = s.dev.countAt (c.c + 16) % 2 ^ 64
        ∧ t.dev.get CV_TBL_STAT.TIM_ACTIVE n =
            (if c.tim then 1 - s.dev.get CV_TBL_STAT.TIM_ACTIVE n else s.dev.get CV_TBL_STAT.TIM_ACTIVE n)
        ∧ (∀ i, i < 3 → t.dev.get CV_SUB_ARM.P n i = 0)
        ∧ (c.subs.Nodup → ∀ p, p < 88 →
          t.dev.subBit CV_SUB_ACT.P n p = (s.dev.subBit CV_SUB_ACT.P n p != c.subs.contains p))
        ∧ t.dev.now = max s.dev.now (c.c + 166) ∧ t.dev.raised t.dev.now (16 * n + 11))
    ∧ (∀ (h : Fin 8) (gains : List (BitVec 16)) (k : Nat), s.dev.get CV_GRP_STAT.STATE n h = 1 → s.dev.flag CV_CORR_CTL.HOST_SUB n = false →
      s.dev.inService n h ≠ [] →
      (∀ u ∈ s.dev.inService n h, (((s.dev.slice.get n).group.get h).stat.get u).n = 262144) →
      max s.dev.now (((s.dev.slice.get n).group.get h).statFrom + 327680) = k →
      s.dev.flag CV_TBL_STAT.PENDING n = false →
      (∀ p, p < 88 → s.dev.subBit CV_SUB_ARM.P n p = true → s.dev.subBit CV_SUB_DISC.P n p = false) →
      ∃ t, exec (.nospareMatching n h gains) s = .next t ∧ t.dev.now = k ∧ t.dev.flag CV_TBL_STAT.PENDING n = true
        ∧ (t.dev.slice.get n).commit.map Commit.c = some k ∧ (t.dev.slice.get n).commit.map Commit.tim = some false
        ∧ ((t.dev.slice.get n).group.get h).stat = []
        ∧ (∀ u ∈ s.dev.inService n h, ((t.dev.slice.get n).commit.map fun c => c.subs.contains (11 * h + u)) = some true
          ∧ (t.dev.slice.get n).word (1 - s.dev.activeCopy n (0x2400 + 4 * (11 * h + u))) (0x2400 + 4 * (11 * h + u)) / 65536 =
            ((signedOf 12 ((s.dev.slice.get n).word (s.dev.activeCopy n (0x2400 + 4 * (11 * h + u)))
                (0x2400 + 4 * (11 * h + u)) / 65536 % 4096) -
              roundAway (16 * (((((s.dev.slice.get n).group.get h).stat.get u).sum : Nat) * ((s.dev.inService n h).length : Int)
                - (((s.dev.inService n h).map fun u => (((s.dev.slice.get n).group.get h).stat.get u).sum).sum : Nat)))
                (((s.dev.inService n h).length : Int) * 262144)) % 4096).toNat))
    ∧ ((∀ k, (s.dev.slice.get n).saved = some k → k + 750000000000 ≤ s.dev.now) →
      ∃ t, exec (.tableFlashSave n) s = .next t ∧ (t.dev.slice.get n).saved = some s.dev.now
        ∧ (t.dev.slice.get n).tab = (s.dev.slice.get n).tab
        ∧ (∀ k, k ≠ n.val → t.dev.slice.get k = s.dev.slice.get k))

/-- Corrected frames leave the pipeline, skews update and a swatch runs through (R30, R68, R86, R87, R88, R90). -/
def Obligations.CorrectionCommandsAct : Prop :=
  ∀ (s : State) (n : Fin 4), s.dev.bus.writes = [] →
    (∀ r : RawFrame, (s.dev.path.get n).raw.find? (fun f => decide (((s.dev.path.get n).last.map (· + 1)).getD 0 ≤ f.k)) = some r →
      ∃ t, exec (.correctedFrame n) s = .next t ∧ (t.dev.path.get n).last = some r.k
        ∧ t.dev.now = max s.dev.now (r.k + 150)
        ∧ (s.dev.pdOn (68 + n) = true → (t.dev.path.get n).delay.getLast?.map (fun f => (f.k, f.samples, f.valid)) =
            some (r.k, (s.dev.correct n r.k).2.1, r.valid)))
    ∧ (s.dev.flag CV_SKW_CTL.BG_EN n = true → s.dev.flag CV_CORR_CTL.HOST_TIM n = true →
      2 ^ max 20 (min 28 (s.dev.get CV_SKW_CTL.LOG2N n)) / 8 ≤ (s.dev.slice.get n).skew.frames →
      (s.dev.slice.get n).skew.spoilt = false → (s.dev.slice.get n).skew.p ≠ 0 →
      256 * (s.dev.get CV_SKW_PMIN.PMIN n : Int) * (((s.dev.slice.get n).skew.frames * 64 : Nat) : Int)
        ≤ (s.dev.slice.get n).skew.p →
      (∀ h, h < 8 → 128 * ((((s.dev.slice.get n).skew.sp.getD h 0 - (s.dev.slice.get n).skew.sm.getD h 0).natAbs : Nat) : Int)
        ≤ (s.dev.slice.get n).skew.p) →
      ∃ t, exec (.skewUpdate n) s = .next t ∧ (t.dev.slice.get n).skew = {}
        ∧ t.dev.get CV_SKW_STAT.UPDATES n = (s.dev.get CV_SKW_STAT.UPDATES n + 1) % 2 ^ CV_SKW_STAT.UPDATES.w)
    ∧ (s.dev.get CV_DAC_CTL.ROUTE n = 0 → s.dev.flag STM_UCTL.EN n = false → (s.dev.slice.get n).swatch = none →
      55 * 2 ^ 48 ≤ 100 * (2 ^ 48 - s.dev.get CV_SWATCH_FREQ.FTW n) →
      100 * (2 ^ 48 - s.dev.get CV_SWATCH_FREQ.FTW n) ≤ 95 * 2 ^ 48 →
      ∃ t, exec (.swatchStart n) s = .next t ∧ t.dev.get CV_SWATCH_STAT.RESULT n = 1
        ∧ (t.dev.slice.get n).swatch = some
          { s := s.dev.now, ftw := s.dev.get CV_SWATCH_FREQ.FTW n,
            amp := s.dev.get CV_SWATCH_CTL.AMP n, count := max 1 (s.dev.get CV_SWATCH_CTL.COUNT n) }
        ∧ (t.dev.slice.get n).routes = (s.dev.slice.get n).routes ++ [(s.dev.now + 8, 1)])
    ∧ (∀ w, (s.dev.slice.get n).swatch = some w → w.caps < w.count →
      ∃ t, exec (.swatchCapture n) s = .next t
        ∧ (t.dev.slice.get n).swatch = some { w with caps := w.caps + 1, sums := w.sums ++ [{}] }
        ∧ t.dev.now = max s.dev.now (w.s + 16 + 1024 * w.caps))
    ∧ (∀ w, (s.dev.slice.get n).swatch = some w → w.count ≤ w.caps → w.off = none →
      ∃ t, exec (.swatchRouteOff n) s = .next t
        ∧ t.dev.now = max s.dev.now (w.s + 16 + 1024 * w.count)
        ∧ (t.dev.slice.get n).swatch = some { w with off := some t.dev.now }
        ∧ (t.dev.slice.get n).routes = (s.dev.slice.get n).routes ++ [(t.dev.now + 8, 0)])
    ∧ (∀ (w : Swatch) (fit : SwatchFit), (s.dev.slice.get n).swatch = some w → w.off ≠ none →
      s.dev.flag CV_SWATCH_CTL.APPLY n = false →
      ∃ t, exec (.swatchResult n fit) s = .next t ∧ (t.dev.slice.get n).swatch = none
        ∧ (t.dev.get CV_SWATCH_STAT.RESULT n = 2 ∨ t.dev.get CV_SWATCH_STAT.RESULT n = 6)
        ∧ t.dev.raised s.dev.now (16 * n + 13))

/-- References come and go, the clock locks and unlocks, and errors are removed (R95, R103, R104, R105, R106, R107,
R114). -/
def Obligations.ReferenceCommandsAct : Prop :=
  ∀ s : State, s.dev.bus.writes = [] →
    (∀ mhz100 err, s.dev.get TB_REF_STAT.ACTIVE = 0 → s.dev.tbSel = 0 →
      ∃ t, exec (.refPresent mhz100 err) s = .next t ∧ t.dev.flag TB_REF_STAT.REF_PRES = true
        ∧ t.dev.flag TB_REF_STAT.REF_100 = mhz100 ∧ t.dev.tb.refSince = s.dev.now ∧ t.dev.raised s.dev.now 64)
    ∧ (s.dev.get TB_REF_STAT.ACTIVE = 1 → s.dev.tb.locked = true →
      ∃ t, exec .refAbsent s = .next t ∧ t.dev.flag TB_REF_STAT.REF_PRES = false ∧ t.dev.get TB_REF_STAT.ACTIVE = 3
        ∧ t.dev.get TB_REF_STAT.STATE = 3
        ∧ t.dev.get TB_LOSS_CNT.REF_LOSSES
            = min (2 ^ TB_LOSS_CNT.REF_LOSSES.w - 1) (s.dev.get TB_LOSS_CNT.REF_LOSSES + 1)
        ∧ t.dev.raised s.dev.now 65 ∧ t.dev.raised s.dev.now 68 ∧ t.dev.raised s.dev.now 69)
    ∧ (∀ err, s.dev.get TB_REF_STAT.ACTIVE = 0 → s.dev.tbSel = 0 →
      ∃ t, exec (.extPresent err) s = .next t ∧ t.dev.flag TB_REF_STAT.EXT_PRES = true
        ∧ t.dev.tb.extSince = s.dev.now ∧ t.dev.raised s.dev.now 66)
    ∧ (∀ err, s.dev.get TB_REF_STAT.ACTIVE = 2 → s.dev.get TB_REF_CTL.SEL = 2 → s.dev.tb.locked = true →
      ∃ t, exec (.extAbsent err) s = .next t ∧ t.dev.flag TB_REF_STAT.EXT_PRES = false
        ∧ t.dev.get TB_REF_STAT.ACTIVE = 3 ∧ t.dev.get TB_REF_STAT.STATE = 3
        ∧ t.dev.raised s.dev.now 67 ∧ t.dev.raised s.dev.now 69)
    ∧ (∀ err (x : Nat × Nat), s.dev.tbNext = some x →
      ∃ t, exec (.qualificationExpiry err) s = .next t ∧ t.dev.get TB_REF_STAT.ACTIVE = x.1
        ∧ t.dev.get TB_REF_STAT.STATE = 4 ∧ t.dev.tb.slew = some t.dev.now ∧ t.dev.tb.lost = false
        ∧ t.dev.rd ⟨.TB_PHASE_ERR, 0, 0, 0⟩ = err ∧ t.dev.now = max s.dev.now x.2)
    ∧ (s.dev.tb.locked = false → s.dev.tb.keeper = none →
      ∃ t, exec .synthLock s = .next t ∧ t.dev.tb.locked = true ∧ t.dev.get TB_REF_STAT.ACTIVE = s.dev.tbChoice
        ∧ t.dev.get TB_REF_STAT.STATE = (if s.dev.tbChoice ≠ 3 then 2 else if s.dev.tb.lost ∧ s.dev.tbSel ≠ 3 then 3 else 1)
        ∧ t.dev.raised s.dev.now 72)
    ∧ (s.dev.tb.locked = true →
      ∃ t, exec .synthUnlock s = .next t ∧ t.dev.tb.locked = false ∧ t.dev.get TB_REF_STAT.STATE = 5
        ∧ t.dev.tb.keeper = some ⟨s.dev.now, s.dev.countAt s.dev.now % 2 ^ 72⟩ ∧ t.dev.tb.armed = none
        ∧ t.dev.get TB_LOSS_CNT.UNLOCKS = min (2 ^ TB_LOSS_CNT.UNLOCKS.w - 1) (s.dev.get TB_LOSS_CNT.UNLOCKS + 1))
    ∧ (s.dev.recordOpen = false → s.dev.flag TB_SLEW.STEP_EN = true → s.dev.get TB_REF_STAT.STATE = 4 →
      s.dev.get TB_SLEW.STEP_MIN * 80000 * 65536 ≤ (s.dev.phaseErrAt s.dev.now).natAbs →
      64 * 65536 ≤ (s.dev.phaseErrAt s.dev.now).natAbs →
      ∃ t, exec .timeStep s = .next t
        ∧ (t.dev.rd ⟨.TB_PHASE_ERR, 0, 0, 0⟩).toInt.natAbs = (s.dev.phaseErrAt s.dev.now).natAbs % (64 * 65536)
        ∧ t.dev.tb.slew = some s.dev.now
        ∧ t.dev.tb.epochs.length = s.dev.tb.epochs.length + 1 ∧ t.dev.raised s.dev.now 71)
    ∧ (∀ k, s.dev.get TB_REF_STAT.STATE = 4 → s.dev.tb.slew = some k →
      ∃ t, exec .holdoverExit s = .next t ∧ t.dev.now = max s.dev.now s.dev.slewEnd
        ∧ t.dev.get TB_REF_STAT.STATE =
            (if s.dev.get TB_REF_STAT.ACTIVE ≠ 3 then 2 else if s.dev.tb.lost then 3 else 1)
        ∧ (t.dev.rd ⟨.TB_PHASE_ERR, 0, 0, 0⟩).toInt.natAbs < 4096 ∧ t.dev.tb.slew = none
        ∧ (s.dev.get TB_REF_STAT.ACTIVE ≠ 3 → t.dev.raised t.dev.now 70)
        ∧ (s.dev.tb.removing = true → t.dev.flag TB_REF_STAT.ALIGNED = true ∧ t.dev.raised t.dev.now 74))

/-- The origin is set, the count wraps, and PPS and PTP act on the time base (R98, R100, R101, R102, R112, R113). -/
def Obligations.TimeBaseEventsAct : Prop :=
  ∀ s : State, s.dev.bus.writes = [] →
    (∀ boundary : BitVec 2, s.dev.recordOpen = false →
      ∃ t, exec (.originGo boundary) s = .next t ∧ t.dev.get TB_ORIGIN_CTL.RESULT = 1
        ∧ t.dev.get TB_ORIGIN_CTL.WHEN = boundary.toNat
        ∧ t.dev.tb.armed = some (if boundary = 3 then 0 else boundary.toNat)
        ∧ t.dev.tb.due = (if boundary = 0 ∨ boundary = 3 then some (s.dev.now + 1) else none)
        ∧ t.dev.tb.epochs = s.dev.tb.epochs)
    ∧ (∀ k : Nat, s.dev.tb.due = some k → s.dev.tb.armed.isSome = true → s.dev.tb.locked = true → s.dev.now ≤ k →
      ∃ t, exec .originSet s = .next t ∧ t.dev.now = k ∧ t.dev.countAt k = 0 ∧ (t.dev.epochAt k).valid = true
        ∧ t.dev.tb.armed = none ∧ t.dev.tb.due = none ∧ t.dev.get TB_ORIGIN_CTL.RESULT = 2
        ∧ t.dev.flag TB_REF_STAT.VALID = true ∧ t.dev.raised k 80)
    ∧ (∃ t, exec .tickWrap s = .next t
        ∧ t.dev.now = s.dev.now + (2 ^ 64 - s.dev.countAt s.dev.now % 2 ^ 64) / 64
        ∧ (s.dev.countAt s.dev.now % 64 = 0 → t.dev.raised t.dev.now 76)
        ∧ t.dev.regs = s.dev.regs ∧ t.dev.tb = s.dev.tb)
    ∧ (∀ (sample : Fin 64) (frac : BitVec 16) err, s.dev.tb.aligning = false → s.dev.gets SYN_IDLY.DELAY 20 = 0 →
      ∃ t, exec (.ppsIn sample frac err) s = .next t ∧ t.dev.tb.ppsSeq = s.dev.tb.ppsSeq + 1
        ∧ t.dev.tb.ppsLast = some s.dev.now
        ∧ (∀ w, w < 4 → t.dev.get TB_PPS_CAP.WORD w
            = (s.dev.stamp s.dev.tb.ppsSeq s.dev.now sample.val frac.toNat true).toNat / 2 ^ (32 * w) % 2 ^ 32)
        ∧ t.dev.raised s.dev.now 78)
    ∧ (∀ k, s.dev.tb.ppsLast = some k → s.dev.tb.ppsLate = false →
      ∃ t, exec .ppsMissing s = .next t ∧ t.dev.now = max s.dev.now (k + 1375000000) ∧ t.dev.tb.ppsLate = true
        ∧ t.dev.regs = s.dev.regs ∧ t.dev.raised t.dev.now 79)
    ∧ (∀ k, (s.dev.now * 64 + (80000000000 - (s.dev.get TB_TAI_OFS.TICKS + s.dev.countAt s.dev.now % 2 ^ 72) % 80000000000)
          % 80000000000) * 16 = k →
      s.dev.flag TB_PPS_CTL.OUT_EN = true → (s.dev.epochAt s.dev.now).valid = true → (s.dev.epochAt s.dev.now).reflost = false →
      (∀ p, s.dev.tb.ppsOut = some p → p.1 ≠ k) →
      ∃ t, exec .ppsOut s = .next t ∧ t.dev.now = max s.dev.now (k / 1024)
        ∧ t.dev.tb.ppsOut = some (k, k + max 1 (s.dev.get TB_PPS_CTL.WIDTH) * 1280000) ∧ t.dev.regs = s.dev.regs)
    ∧ (∀ (msg : PtpMsg) (domain : BitVec 8) (state : Fin 16), s.dev.flag TB_PTP_CTL.EN = true → s.dev.hkAbsent = false →
      domain.toNat = s.dev.get TB_PTP_CTL.DOMAIN → s.dev.pdOn (59 + s.dev.get TB_PTP_CTL.PORT % 3) = true →
      ptpTaken msg (s.dev.get TB_PTP_CTL.PROFILE == 1) = true →
      (s.dev.flag TB_PTP_CTL.SLAVE_ONLY = true → state ≠ 5 ∧ state ≠ 6) →
      ∃ t, exec (.ptpMessage ⟨msg, domain, state⟩ none) s = .next t ∧ t.dev.tb.ptpState = state ∧ t.dev.regs = s.dev.regs
        ∧ t.dev.tb.ptpSent = ptpAnswers msg state (s.dev.flag TB_PTP_CTL.TWO_STEP)
        ∧ (s.dev.tb.ptpState ≠ state → t.dev.raised s.dev.now 82))

/-- Trigger units are enabled, armed and forced, take changes and decide (R117, R119, R129, R132, R137, R138). -/
def Obligations.TriggerCommandsAct : Prop :=
  ∀ (s : State) (u : Fin 8), s.dev.bus.writes = [] →
    (∀ en, s.dev.flag TRG_CTL.EN u ≠ en →
      ∃ t, exec (.trgEnWrite u en) s = .next t ∧ t.dev.flag TRG_CTL.EN u = en
        ∧ (t.dev.trg.get u).runAt = some (s.dev.now + 1 - 150, en)
        ∧ (s.dev.now + 1 - 150, if en then .enOn (s.dev.activeProfile u) else .enOff) ∈ (t.dev.trg.get u).ctl)
    ∧ (∃ t, exec (.trgArmArm u) s = .next t ∧ t.dev.regs = s.dev.regs
        ∧ (t.dev.trg.get u).arming = (s.dev.trg.get u).arming ++ [(s.dev.now + 1, true)])
    ∧ (∃ t, exec (.trgArmDisarm u) s = .next t ∧ t.dev.regs = s.dev.regs
        ∧ (t.dev.trg.get u).arming = (s.dev.trg.get u).arming ++ [(s.dev.now + 1, false)])
    ∧ (∀ x : Nat × Bool, (s.dev.trg.get u).arming.head? = some x → (s.dev.trg.get u).arming.tail = [] → s.dev.flag TRG_STAT.ARMED u ≠ x.2 →
      ∃ t, exec (.armingEffect u) s = .next t ∧ t.dev.flag TRG_STAT.ARMED u = x.2
        ∧ t.dev.now = max s.dev.now x.1 ∧ (t.dev.trg.get u).arming = []
        ∧ t.dev.raised t.dev.now ((if x.2 then 97 else 98) + 8 * u))
    ∧ (s.dev.trgHears u = true → ∃ t, exec (.trgForce u) s = .next t ∧ t.dev.regs = s.dev.regs
        ∧ ⟨(s.dev.now + 1 - 150) * 64 * 65536, 0xE2, 2, false⟩ ∈ (t.dev.trg.get u).changes)
    ∧ (∀ x : Nat × Change, (s.dev.trg.get u).inbox.head? = some x → sourceKind x.2.src ≠ 3 →
      s.dev.trgHears u = true → max s.dev.now x.1 - 150 ≤ x.2.inst / 65536 / 64 →
      ∃ t, exec (.levelSourceChange u) s = .next t ∧ t.dev.now = max s.dev.now x.1
        ∧ (t.dev.trg.get u).inbox = (s.dev.trg.get u).inbox.tail
        ∧ (t.dev.trg.get u).changes = (s.dev.trg.get u).changes ++ [x.2])
    ∧ (∀ era : BitVec 8, (s.dev.tickOf (s.dev.now - 150) (era.toNat * 2 ^ 64 + s.dev.get TRG_TCMP_TICK.TICK u)).isSome = true →
      ∃ t, exec (.tcmpLoad u era) s = .next t ∧ t.dev.flag TRG_TCMP_CTL.EN u = true
        ∧ t.dev.get TRG_TCMP_CTL.ERA u = era.toNat
        ∧ (t.dev.trg.get u).tcmp = some (era.toNat * 2 ^ 64 + s.dev.get TRG_TCMP_TICK.TICK u))
    ∧ (∀ k i : Nat, (s.dev.trg.get u).tcmp = some k → s.dev.trgHears u = true → s.dev.tickOf (s.dev.now - 150) k = some i →
      ∃ t, exec (.timeCompare u) s = .next t ∧ t.dev.flag TRG_TCMP_CTL.EN u = false
        ∧ t.dev.now = max s.dev.now (i / 64 + 150) ∧ (t.dev.trg.get u).tcmp = none
        ∧ (t.dev.trg.get u).changes = (s.dev.trg.get u).changes ++ [⟨i * 65536, 0xE0, 2, false⟩])
    ∧ (∀ m : TrigMsg, (s.dev.trg.get u).msgs.head? = some m → s.dev.trgHears u = true → s.dev.flag TRG_MSG.EN u = true →
      s.dev.get TRG_MSG.CODE u = m.code → s.dev.flag TRG_MSG.ANY_SRC u = true →
      (s.dev.tickOf (s.dev.now - 150) m.time).isSome = true →
      ∃ t, exec (.timedTriggerMessage u) s = .next t ∧ (t.dev.trg.get u).msgs = (s.dev.trg.get u).msgs.tail
        ∧ t.dev.regs = s.dev.regs
        ∧ (t.dev.trg.get u).timed = (s.dev.trg.get u).timed ++ [(s.dev.now - 150, m.time, m.frac)])
    ∧ (∀ f i : Nat, s.dev.trg.get u = { on := true, armed := true, prof := { a := { typ := 1, src := 0xE2 } },
                                        changes := [⟨i, 0xE2, 2, false⟩] } →
      s.dev.namedLanes u = [] → s.dev.rbUsed ≤ 4096 → trigFrame i ≤ f →
      ∃ t, exec (.triggerDecision u f) s = .next t ∧ t.dev.now = max s.dev.now (f + 214)
        ∧ t.dev.get TRG_CNT_ACC.COUNT u = (s.dev.get TRG_CNT_ACC.COUNT u + 1) % 2 ^ TRG_CNT_ACC.COUNT.w
        ∧ (t.dev.trg.get u).lastF = some (trigFrame i) ∧ (t.dev.trg.get u).changes = []
        ∧ t.dev.raised (t.dev.now + 1) (96 + 8 * u))
    ∧ ((s.dev.trg.get u).commit = none → s.dev.bankValid u = true →
      ∃ t, exec (.prfCommit u) s = .next t ∧ t.dev.flag TRG_STAT.PRF_PENDING u = true
        ∧ (t.dev.trg.get u).commit = some s.dev.now)
    ∧ (∀ c : Nat, (s.dev.trg.get u).commit = some c →
      ∃ t, exec (.prfSwitch u) s = .next t ∧ t.dev.now = max s.dev.now (c + 4)
        ∧ t.dev.flag TRG_STAT.PRF_PENDING u = false
        ∧ t.dev.get TRG_STAT.PRF_ACTIVE u = 1 - s.dev.get TRG_STAT.PRF_ACTIVE u
        ∧ t.dev.rd ⟨.TRG_SLOTA, u, 0, 0⟩ = s.dev.rd ⟨.TRG_SLOTA_ACT, u, 0, 0⟩ &&& (⟨.TRG_SLOTA, u, 0, 0⟩ : Reg).mask
        ∧ t.dev.rd ⟨.TRG_SLOTA_ACT, u, 0, 0⟩ = s.dev.rd ⟨.TRG_SLOTA, u, 0, 0⟩ &&& (⟨.TRG_SLOTA_ACT, u, 0, 0⟩ : Reg).mask
        ∧ (t.dev.trg.get u).commit = none ∧ t.dev.raised t.dev.now (100 + 8 * u))

/-- Lanes take requests, place windows, end segments and place their records (R148, R149, R150, R151, R153, R155,
R159, R163, R165, R310, R495). -/
def Obligations.LaneCommandsAct : Prop :=
  ∀ (s : State) (l : Fin 16), s.dev.bus.writes = [] →
    (∀ v : W32, s.dev.flag REC_LCTL.EN l = false →
      ((s.dev.wr ⟨.REC_LCTL, l, 0, 0⟩ (v.setWidth 64)).putb REC_LCTL.EN false l).laneCfg l = 0 →
      ∃ t, exec (.laneEnable l v) s = .next t ∧ t.dev.flag REC_LCTL.EN l = true ∧ t.dev.get REC_LSTAT.CFG_ERR l = 0
        ∧ t.dev.get REC_LCTL.SRC l = (v.setWidth 64).toNat / 2 ^ REC_LCTL.SRC.lo % 2 ^ REC_LCTL.SRC.w
        ∧ (t.dev.lanes.lane.get l).sawValid = false)
    ∧ (∀ v : W32, s.dev.flag REC_LCTL.EN l = false →
      ((s.dev.wr ⟨.REC_LCTL, l, 0, 0⟩ (v.setWidth 64)).putb REC_LCTL.EN false l).laneCfg l ≠ 0 →
      ∃ t, exec (.laneEnable l v) s = .next t ∧ t.dev.flag REC_LCTL.EN l = false
        ∧ t.dev.get REC_LSTAT.CFG_ERR l
            = ((s.dev.wr ⟨.REC_LCTL, l, 0, 0⟩ (v.setWidth 64)).putb REC_LCTL.EN false l).laneCfg l % 8
        ∧ t.dev.lanes = s.dev.lanes)
    ∧ (s.dev.flag REC_LCTL.EN l = true →
      ∃ t, exec (.laneDisable l) s = .next t ∧ t.dev.flag REC_LCTL.EN l = false
        ∧ (t.dev.lanes.lane.get l).cur = none ∧ (t.dev.lanes.lane.get l).queue = []
        ∧ (t.dev.lanes.lane.get l).dropping = false
        ∧ ((s.dev.lanes.lane.get l).seg = none → (s.dev.lanes.lane.get l).cur = none →
          (t.dev.lanes.lane.get l).win = none ∧ (t.dev.lanes.lane.get l).pool = []))
    ∧ (∃ t, exec (.laneFlush l) s = .next t ∧ t.dev.flag REC_LCTL.EN l = s.dev.flag REC_LCTL.EN l
        ∧ (t.dev.lanes.lane.get l).cur = none ∧ (t.dev.lanes.lane.get l).queue = []
        ∧ ((s.dev.lanes.lane.get l).seg = none → (s.dev.lanes.lane.get l).cur = none → (t.dev.lanes.lane.get l).win = none))
    ∧ (∀ rq (v : W32), (s.dev.wr ⟨.REC_REQ_CTL, l, 0, 0⟩ (v.setWidth 64)).reqResult l (issuerOf rq)
          (s.dev.get REC_REQ_PRE.PRE l) (s.dev.get REC_REQ_POST.POST l) (s.dev.get REC_REQ_REPEAT.REPEAT l) = 1 →
      ∃ t, exec (.segmentRequest rq l v) s = .next t ∧ t.dev.get REC_REQ_STAT.RESULT l = 1
        ∧ (t.dev.lanes.lane.get l).queue.length = (s.dev.lanes.lane.get l).queue.length + 1
        ∧ ((s.dev.lanes.lane.get l).queue = [] → (s.dev.lanes.lane.get l).cur = none → (s.dev.lanes.lane.get l).seg = none →
          (s.dev.lanes.lane.get l).actAt = none → (t.dev.lanes.lane.get l).actAt = some (s.dev.now + 1))
        ∧ (t.dev.lanes.lane.get l).queue.getLast? = some
            ⟨(v.setWidth 64).toNat / 2 ^ REC_REQ_CTL.TU.lo % 2 ^ REC_REQ_CTL.TU.w, s.dev.get REC_REQ_PRE.PRE l,
             s.dev.get REC_REQ_POST.POST l, (v.setWidth 64).toNat / 2 ^ REC_REQ_CTL.TAG.lo % 2 ^ REC_REQ_CTL.TAG.w,
             max 1 (s.dev.get REC_REQ_REPEAT.REPEAT l)⟩)
    ∧ (∀ (k o : Nat) (q : Req), (s.dev.lanes.lane.get l).queue.head? = some q → (s.dev.lanes.lane.get l).actAt = some k →
      (((s.dev.lanes.lane.get l).pool.head?.map Granule.k).getD (max (max s.dev.now k - 214) s.dev.stageNext)) = o → (s.dev.lanes.lane.get l).cur = none →
      (s.dev.lanes.lane.get l).seg = none → (s.dev.lanes.lane.get l).win = none →
      s.dev.flag REC_LCTL.EN l = true → (s.dev.laneSkein l).policy = 0 →
      s.dev.get REC_SKN_CP.BYTES (s.dev.get REC_LCTL.SKEIN l) + s.dev.winSize l q * s.dev.granuleSize l ≤ s.dev.laneE l →
      ∃ t, exec (.requestActive l) s = .next t ∧ (t.dev.lanes.lane.get l).cur = some q ∧ t.dev.now = max s.dev.now k
        ∧ (t.dev.lanes.lane.get l).queue = (s.dev.lanes.lane.get l).queue.tail
        ∧ (t.dev.lanes.lane.get l).win = some { origin := o,
                                                alloc := s.dev.get REC_SKN_CP.BYTES (s.dev.get REC_LCTL.SKEIN l),
                                                w := s.dev.winSize l q })
    ∧ (∀ w : Win, (s.dev.lanes.lane.get l).win = some w → w.waiting = true →
      (s.dev.lanes.lane.get l).cur.isSome = true → (s.dev.laneSkein l).policy = 2 → (s.dev.laneSkein l).held = [] →
      ∃ t, exec (.hoistWindowPlaced l) s = .next t
        ∧ ((t.dev.lanes.lane.get l).win.map Win.waiting) = some false
        ∧ (t.dev.lanes.lane.get l).cur = (s.dev.lanes.lane.get l).cur)
    ∧ (∀ k (stalled : BitVec 16), s.dev.stageNext ≤ k →
      ∃ t, exec (.stageStoreFrame k stalled) s = .next t ∧ t.dev.now = max s.dev.now (k + 214)
        ∧ t.dev.stageNext = k + 1
        ∧ (∀ c, c < 4 → ∀ f ∈ (t.dev.path.get c).delay, k < f.k))
    ∧ (∀ g : Seg, (s.dev.lanes.lane.get l).seg = some g → (s.dev.lanes.lane.get l).cur.isSome = true →
      (s.dev.lanes.lane.get l).win.isSome = true → g.t.isSome = true → g.post ≠ openEnded →
      g.t.getD 0 + g.post ≤ ((s.dev.lanes.lane.get l).win.map Win.n).getD 0 →
      (s.dev.lanes.lane.get l).maskStop = false →
      ∃ t, exec (.segmentEnd l) s = .next t ∧ (t.dev.lanes.lane.get l).seg = none
        ∧ (t.dev.lanes.lane.get l).win = none
        ∧ (t.dev.lanes.lane.get l).await.length = (s.dev.lanes.lane.get l).await.length + 1
        ∧ ((t.dev.lanes.lane.get l).await.getLast?.map Rec.segnum) = some g.segnum
        ∧ ((t.dev.lanes.lane.get l).cur.map Req.left).getD 0 = ((s.dev.lanes.lane.get l).cur.map Req.left).getD 0 - 1)
    ∧ (∀ r : Rec, (s.dev.lanes.lane.get l).await.head? = some r → (s.dev.lanes.lane.get l).await.tail = [] →
      r.kind = 0 → s.dev.verdictDue l r = false →
      ∃ t, exec (.segmentRecord l) s = .next t ∧ t.dev.lanes.done = s.dev.lanes.done ++ [r]
        ∧ t.dev.get REC_CNT_SEG.COUNT l = (s.dev.get REC_CNT_SEG.COUNT l + 1) % 2 ^ REC_CNT_SEG.COUNT.w
        ∧ (t.dev.lanes.lane.get l).await = [])
    ∧ (∀ r : Rec, s.dev.lanes.done.head? = some r →
      ∃ t, exec .recordDrain s = .next t ∧ t.dev.lanes.done = s.dev.lanes.done.tail
        ∧ t.dev.lanes.lastDrain = some t.dev.now ∧ s.dev.now ≤ t.dev.now
        ∧ (∀ k, s.dev.lanes.lastDrain = some k → k < t.dev.now))
    ∧ (∀ r : Rec, (s.dev.lanes.lane.get l).noEntry.head? = some r → (s.dev.lanes.lane.get l).await = [] →
      r.kind = 2 → s.dev.rbUsed < recordEntries →
      ∃ t, exec (.closeEntryFreed l) s = .next t
        ∧ (t.dev.lanes.lane.get l).noEntry = (s.dev.lanes.lane.get l).noEntry.tail
        ∧ t.dev.lanes.done = s.dev.lanes.done ++ [r] ∧ t.dev.regs = s.dev.regs)
    ∧ ((s.dev.lanes.lane.get l).dropping = true → (s.dev.lanes.lane.get l).pool = [] →
      (∀ m, m < 16 → m ≠ l.val → (s.dev.lanes.lane.get m).dropping = false) →
      ∃ t, exec (.dropRunEnd l) s = .next t ∧ (t.dev.lanes.lane.get l).dropping = false
        ∧ t.dev.flag BEN_STAT.DROPPING = false)

/-- Skeins are defined and rewound, and decimation units commit, restart and deliver (R146, R155, R170, R178, R180,
R182, R183, R185). -/
def Obligations.SkeinAndDecimationCommandsAct : Prop :=
  ∀ (s : State) (u : Fin 16), s.dev.bus.writes = [] →
    (∀ k : Fin 64, s.dev.skeinResult k = 1 →
      ∃ t, exec (.skeinDefine k) s = .next t ∧ t.dev.get REC_SKN_CTL.DEF_RESULT k = 1
        ∧ t.dev.get REC_SKN_CP.BYTES k = 0 ∧ t.dev.flag REC_SKN_OLDEST.VALID k = false
        ∧ t.dev.lanes.skein.get k = { defined := true, store := s.dev.get REC_SKN_BASE.STORE k,
                                      base := s.dev.get REC_SKN_BASE.OFS k, size := s.dev.get REC_SKN_SIZE.BYTES k,
                                      policy := s.dev.get REC_SKN_CTL.POLICY k,
                                      tgt := s.dev.get REC_SKN_CTL.HOIST_TGT k })
    ∧ (∀ k : Fin 64, (s.dev.lanes.skein.get k).defined = true → (s.dev.lanes.skein.get k).policy = 0 →
      s.dev.boundLane k = none →
      ∃ t, exec (.skeinRewind k) s = .next t ∧ t.dev.get REC_SKN_CTL.DEF_RESULT k = 1
        ∧ t.dev.get REC_SKN_CP.BYTES k = 0 ∧ (t.dev.lanes.skein.get k).held = []
        ∧ t.dev.flag REC_SKN_OLDEST.VALID k = false)
    ∧ ((s.dev.decDue (s.dev.now - 150)).decCheck u = 1 →
      ∃ t, exec (.decCommit u) s = .next t ∧ t.dev.get DEC_STAT.RESULT u = 1
        ∧ (t.dev.dec.unit.get u).commit =
            some (s.dev.rd ⟨.DEC_CFG, u, 0, 0⟩, s.dev.rd ⟨.DEC_STEP, u, 0, 0⟩, s.dev.rd ⟨.DEC_PHASE0, u, 0, 0⟩)
        ∧ (t.dev.dec.unit.get u).restart = some (s.dev.now - 150 + 1)
        ∧ (∀ m, m ≠ u.val → t.dev.dec.unit.get m = (s.dev.decDue (s.dev.now - 150)).dec.unit.get m))
    ∧ (∀ en : Bool, s.dev.flag DEC_CTL.EN u ≠ en →
      ∃ t, exec (.decEnable u en) s = .next t ∧ t.dev.flag DEC_CTL.EN u = en
        ∧ (en = true → (t.dev.dec.unit.get u).restart = some (s.dev.now - 150 + 1))
        ∧ (en = false → t.dev.flag DEC_STAT.SETTLED u = false ∧ (t.dev.dec.unit.get u).runs = []))
    ∧ (∀ k : Nat, (s.dev.dec.unit.get u).restart = some k → s.dev.dec.sync = [] → s.dev.flag DEC_CTL.EN u = true →
      (s.dev.dec.unit.get u).commit = none → s.dev.decPowered u = true →
      ∃ t, exec (.decRestart u) s = .next t ∧ t.dev.now = max s.dev.now (k + 150)
        ∧ (t.dev.dec.unit.get u).runs.getLast?.map DecRun.k0 = some k
        ∧ (t.dev.dec.unit.get u).runs.getLast?.map DecRun.x = some []
        ∧ (t.dev.dec.unit.get u).restart = none ∧ t.dev.flag DEC_STAT.SETTLED u = false)
    ∧ (∀ (k : Nat) (c : W64 × W64 × W64), (s.dev.dec.unit.get u).commit = some c → (s.dev.dec.unit.get u).restart = some k →
      s.dev.dec.sync = [] →
      ∃ t, exec (.decRestart u) s = .next t ∧ t.dev.now = max s.dev.now (k + 150)
        ∧ t.dev.rd ⟨.DEC_CFG_ACT, u, 0, 0⟩ = c.1 &&& (⟨.DEC_CFG_ACT, u, 0, 0⟩ : Reg).mask
        ∧ t.dev.rd ⟨.DEC_STEP_ACT, u, 0, 0⟩ = c.2.1 &&& (⟨.DEC_STEP_ACT, u, 0, 0⟩ : Reg).mask
        ∧ t.dev.rd ⟨.DEC_PHASE0_ACT, u, 0, 0⟩ = c.2.2 &&& (⟨.DEC_PHASE0_ACT, u, 0, 0⟩ : Reg).mask
        ∧ (t.dev.dec.unit.get u).restart = none ∧ (t.dev.dec.unit.get u).commit = none)
    ∧ (s.dev.now - 150 + 1 ∉ s.dev.dec.sync →
      ∃ t, exec .decSyncGo s = .next t ∧ t.dev.dec.sync = s.dev.dec.sync ++ [s.dev.now - 150 + 1]
        ∧ t.dev.regs = s.dev.regs)
    ∧ (∀ i : Nat, s.dev.dec.timed.head? = some i → s.dev.now - 150 ≤ (i + 64 * 65536 - 1) / (64 * 65536) →
      (i + 64 * 65536 - 1) / (64 * 65536) ∉ s.dev.dec.sync →
      ∃ t, exec .timedSync s = .next t ∧ t.dev.dec.timed = s.dev.dec.timed.tail
        ∧ t.dev.dec.sync = s.dev.dec.sync ++ [(i + 64 * 65536 - 1) / (64 * 65536)] ∧ t.dev.regs = s.dev.regs)
    ∧ (∀ x : Nat × DecRun, (s.dev.dec.unit.get u).firstRun (fun r => r.fineDue u) = some x →
      ∃ t, exec (.decItemDelivery u) s = .next t
        ∧ t.dev.now = max s.dev.now (x.2.k0 + (x.2.conf u).lastIndex x.2.m / 64 + 215)
        ∧ t.dev.get DEC_OUT.VALUE u = (((x.2.conf u).item x.2 x.2.m).out % 2 ^ DEC_OUT.VALUE.w).toNat
        ∧ (x.1 + 1 = (s.dev.dec.unit.get u).runs.length →
          (t.dev.dec.unit.get u).runs.getLast?.map DecRun.m = some (x.2.m + 1)))
    ∧ (∀ x : Nat × DecRun, (s.dev.dec.unit.get u).firstRun (fun r => r.fastDue) = some x →
      ∃ t, exec (.fastPathItem u) s = .next t ∧ t.dev.now = max s.dev.now (x.2.k0 + x.2.fast + 215)
        ∧ t.dev.get DEC_FAST.VALUE u
            = ((4 * ((x.2.x.drop (x.2.fast * 64)).take 64).sum) % 2 ^ DEC_FAST.VALUE.w).toNat
        ∧ (x.1 + 1 = (s.dev.dec.unit.get u).runs.length →
          (t.dev.dec.unit.get u).runs.getLast?.map DecRun.fast = some (x.2.fast + 1)))
    ∧ (∀ x : DecRun, (s.dev.dec.unit.get u).runs.getLast? = some x → s.dev.flag DEC_STAT.SETTLED u = false →
      ∃ t, exec (.settled u) s = .next t ∧ t.dev.flag DEC_STAT.SETTLED u = true
        ∧ t.dev.now = max s.dev.now (x.k0 + s.dev.settleFr u + 214))

/-- Tally jobs start, run, pause and stop (R194, R198, R201, R212, R214). -/
def Obligations.TallyControlAct : Prop :=
  ∀ (s : State) (j : Fin 8), s.dev.bus.writes = [] →
    (∀ clr : Bool, (s.dev.get TAL_JSTAT.STATE j = 0 ∨ s.dev.get TAL_JSTAT.STATE j = 4) → s.dev.talCheck j = 0 →
      ∃ t, exec (.tallyStart j clr) s = .next t ∧ t.dev.get TAL_JSTAT.STATE j = 1 ∧ t.dev.get TAL_JSTAT.CFG_ERR j = 0
        ∧ t.dev.get TAL_JSTAT.REASON j = 0
        ∧ (t.dev.tal.job.get j).ready = some s.dev.now ∧ (t.dev.tal.job.get j).clr = clr
        ∧ (t.dev.tal.job.get j).onAt = (if s.dev.talPowered j then some s.dev.now else none)
        ∧ (clr = true → t.dev.get TAL_JOB_COUNT.VALUE j = 0 ∧ t.dev.get TAL_JOB_REC.VALUE j = 0
            ∧ t.dev.flag TAL_JSTAT.SATURATED j = false)
        ∧ (clr = false → t.dev.get TAL_JOB_COUNT.VALUE j = s.dev.get TAL_JOB_COUNT.VALUE j))
    ∧ (∀ clr : Bool, (s.dev.get TAL_JSTAT.STATE j = 0 ∨ s.dev.get TAL_JSTAT.STATE j = 4) → s.dev.talCheck j ≠ 0 →
      ∃ t, exec (.tallyStart j clr) s = .next t ∧ t.dev.get TAL_JSTAT.STATE j = 0
        ∧ t.dev.get TAL_JSTAT.CFG_ERR j = s.dev.talCheck j ∧ t.dev.get TAL_JSTAT.REASON j = 5
        ∧ t.dev.tal.mem = s.dev.tal.mem ∧ (t.dev.tal.job.get j).own = none ∧ t.dev.raised s.dev.now (256 + 4 * j))
    ∧ (∀ k : Nat, (s.dev.tal.job.get j).onAt = some k → s.dev.talPowered j = true →
      ∃ t, exec (.tallyClearDone j) s = .next t ∧ t.dev.get TAL_JSTAT.STATE j = 2
        ∧ t.dev.now = max s.dev.now (k + (if (s.dev.tal.job.get j).clr then
            max 1 ((s.dev.talAccBytes j + 256 * s.dev.talBanks j - 1) / (256 * s.dev.talBanks j)) else 1))
        ∧ (t.dev.tal.job.get j).ready = none ∧ (t.dev.tal.job.get j).runStart = (t.dev.now - 214) * 64
        ∧ ((s.dev.tal.job.get j).clr = false → t.dev.tal.mem = s.dev.tal.mem ∧ t.dev.ben = s.dev.ben))
    ∧ (s.dev.get TAL_JSTAT.STATE j ≠ 0 → s.dev.get TAL_JSTAT.STATE j ≠ 4 → (s.dev.tal.job.get j).recs = [] →
      ∃ t, exec (.tallyStop j) s = .next t ∧ t.dev.get TAL_JSTAT.STATE j = 4 ∧ t.dev.get TAL_JSTAT.REASON j = 1
        ∧ (t.dev.tal.job.get j).halving = none ∧ t.dev.get TAL_JOB_COUNT.VALUE j = s.dev.get TAL_JOB_COUNT.VALUE j
        ∧ t.dev.raised s.dev.now (256 + 4 * j))
    ∧ (s.dev.get TAL_JSTAT.STATE j = 2 →
      ∃ t, exec (.tallyPause j) s = .next t ∧ (t.dev.tal.job.get j).pausing = true
        ∧ (t.dev.tal.job.get j).recs = (s.dev.tal.job.get j).recs ∧ t.dev.regs = s.dev.regs)
    ∧ ((s.dev.tal.job.get j).pausing = true → (s.dev.tal.job.get j).recs = [] → (s.dev.tal.job.get j).halving = none →
      s.dev.get TAL_JSTAT.STATE j = 2 →
      ∃ t, exec (.tallyPaused j) s = .next t ∧ t.dev.get TAL_JSTAT.STATE j = 3
        ∧ (t.dev.tal.job.get j).pausing = false ∧ t.dev.tal.mem = s.dev.tal.mem)
    ∧ (s.dev.get TAL_JSTAT.STATE j = 3 →
      ∃ t, exec (.tallyResume j) s = .next t ∧ t.dev.get TAL_JSTAT.STATE j = 2
        ∧ (t.dev.tal.job.get j).runStart = (s.dev.now - 214) * 64 ∧ t.dev.tal.mem = s.dev.tal.mem)

/-- Tally jobs take records, complete them, judge them against masks, and the tally store is written (R196, R197,
R199, R205, R206, R207, R209, R210, R211). -/
def Obligations.TallyRecordsAct : Prop :=
  ∀ (s : State) (j : Fin 8), s.dev.bus.writes = [] →
    (∀ x : Nat × BitVec 128 × Option Nat, (s.dev.tal.job.get j).trig.head? = some x →
      s.dev.get TAL_JSTAT.STATE j = 2 → (s.dev.tal.job.get j).pausing = false →
      (s.dev.tal.job.get j).busyEnd = none → (s.dev.tal.job.get j).halving = none → (s.dev.tal.job.get j).recs = [] →
      (s.dev.tal.job.get j).runStart ≤ (x.1 + 65535) / 65536 - s.dev.get TAL_JOB_PRE.VALUE j →
      s.dev.talLimit j ≠ some (s.dev.get TAL_JOB_COUNT.VALUE j) →
      (s.dev.path.get (s.dev.get TAL_JOB_CFG.SRC j)).hist = [] →
      ∃ t, exec (.tallyTrigger j) s = .next t ∧ (t.dev.tal.job.get j).trig = (s.dev.tal.job.get j).trig.tail
        ∧ ((t.dev.tal.job.get j).recs.map fun r => (r.a, r.inst, r.time, r.points, r.index))
          = [((x.1 + 65535) / 65536 - s.dev.get TAL_JOB_PRE.VALUE j, x.1, x.2.1, s.dev.get TAL_JOB_POINTS.VALUE j,
             s.dev.get TAL_JOB_REC.VALUE j)]
        ∧ (t.dev.tal.job.get j).busyEnd = some ((x.1 + 65535) / 65536 - s.dev.get TAL_JOB_PRE.VALUE j
            + s.dev.get TAL_JOB_POINTS.VALUE j - 1)
        ∧ t.dev.regs = s.dev.regs)
    ∧ (∀ r : TallyRec, (s.dev.tal.job.get j).recs.head? = some r → r.doneAt.isSome = true →
      s.dev.get TAL_JOB_CFG.STORE j = 0 →
      s.dev.talLimit j ≠ some (s.dev.talCountNext j (s.dev.get TAL_JOB_COUNT.VALUE j)) →
      ∃ t, exec (.tallyRecordComplete j) s = .next t ∧ t.dev.now = max s.dev.now (r.doneAt.getD 0)
        ∧ (t.dev.tal.job.get j).recs = (s.dev.tal.job.get j).recs.tail
        ∧ t.dev.get TAL_JOB_REC.VALUE j = (s.dev.get TAL_JOB_REC.VALUE j + 1) % 2 ^ TAL_JOB_REC.VALUE.w
        ∧ t.dev.get TAL_JOB_COUNT.VALUE j = s.dev.talCountNext j (s.dev.get TAL_JOB_COUNT.VALUE j)
            % 2 ^ TAL_JOB_COUNT.VALUE.w
        ∧ t.dev.tal.mem = s.dev.tal.mem)
    ∧ (∀ k : Nat, (s.dev.tal.job.get j).halving = some k →
      ∃ t, exec (.halvingDone j) s = .next t ∧ t.dev.get TAL_JSTAT.STATE j = s.dev.get TAL_JSTAT.STATE j
        ∧ t.dev.now = max s.dev.now (k + (s.dev.talCols j * s.dev.talRows j + 64 * s.dev.talBanks j - 1)
            / (64 * s.dev.talBanks j))
        ∧ t.dev.get TAL_JOB_COUNT.VALUE j = (s.dev.talLimit j).getD 0 / 2 % 2 ^ TAL_JOB_COUNT.VALUE.w
        ∧ (t.dev.tal.job.get j).halving = none)
    ∧ (∀ r : TallyRec, (s.dev.tal.job.get j).recs.head? = some r → r.doneAt.isSome = true →
      s.dev.get TAL_JOB_CFG.STORE j ≠ 0 →
      s.dev.talLimit j ≠ some (s.dev.talCountNext j (s.dev.get TAL_JOB_COUNT.VALUE j)) →
      ∃ t, exec (.foldComplete j) s = .next t
        ∧ t.dev.now = max s.dev.now (max (r.doneAt.getD 0) (r.began + (r.points + 15) / 16))
        ∧ (t.dev.tal.job.get j).recs = (s.dev.tal.job.get j).recs.tail
        ∧ t.dev.get TAL_JOB_COUNT.VALUE j = s.dev.talCountNext j (s.dev.get TAL_JOB_COUNT.VALUE j)
            % 2 ^ TAL_JOB_COUNT.VALUE.w)
    ∧ (∀ v : Verdict, (s.dev.tal.job.get j).verdicts.head? = some v → v.n ≠ 0 →
      s.dev.flag TAL_MASK_CTL.LANE_EN j = false → s.dev.flag TAL_MASK_CTL.STOP j = false →
      (s.dev.tal.job.get j).failAt ≠ some v.record.inst → (s.dev.tal.job.get j).satStop = false →
      ∃ t, exec (.maskVerdict j) s = .next t ∧ t.dev.now = max s.dev.now v.ready
        ∧ (t.dev.tal.job.get j).verdicts = (s.dev.tal.job.get j).verdicts.tail
        ∧ t.dev.get TAL_CNT_VSAMP.COUNT j
            = min (2 ^ TAL_CNT_VSAMP.COUNT.w - 1) (s.dev.get TAL_CNT_VSAMP.COUNT j + v.n)
        ∧ t.dev.get TAL_CNT_VIOL.COUNT j
            = min (2 ^ TAL_CNT_VIOL.COUNT.w - 1) (s.dev.get TAL_CNT_VIOL.COUNT j + 1)
        ∧ (t.dev.tal.job.get j).failAt = some v.record.inst)
    ∧ (∀ r : TallyRec, (s.dev.tal.job.get j).failing = some r → (s.dev.tal.job.get j).recs = [] →
      (s.dev.tal.job.get j).verdicts = [] →
      ∃ t, exec (.tallyMaskStop j) s = .next t ∧ t.dev.get TAL_JSTAT.STATE j = 4
        ∧ t.dev.get TAL_JSTAT.REASON j = 3 ∧ t.dev.flag TAL_FAIL_SEG.VALID j = true
        ∧ t.dev.flag TAL_FAIL_SEG.KIND j = r.seg.isSome
        ∧ t.dev.get TAL_FAIL_SEG.NUMBER j = r.seg.getD r.index % 2 ^ TAL_FAIL_SEG.NUMBER.w
        ∧ (t.dev.tal.job.get j).failing = none ∧ t.dev.raised s.dev.now (256 + 4 * j))
    ∧ (∀ (ofs : BitVec 28) (data : List Byte), s.dev.tallyDiscards ofs.toNat data.length = false →
      ∃ t, exec (.tallySpaceWrite ofs data) s = .next t ∧ t.dev.tal.mem = s.dev.tal.mem.store ofs.toNat data
        ∧ t.dev.tal.job = s.dev.tal.job ∧ t.dev.regs = s.dev.regs)
    ∧ (∀ (ofs : BitVec 28) (data : List Byte), s.dev.tallyDiscards ofs.toNat data.length = true →
      ∃ t, exec (.tallySpaceWrite ofs data) s = .next t ∧ t.dev.tal = s.dev.tal
        ∧ t.dev.get TAL_G_WDROP.COUNT = min (2 ^ TAL_G_WDROP.COUNT.w - 1) (s.dev.get TAL_G_WDROP.COUNT + 1))

/-- Event-input groups take modes, edges and logic samples, and stamps are collected (R216, R217, R218, R220, R223,
R224, R226). -/
def Obligations.EventInputCommandsAct : Prop :=
  ∀ (s : State) (e : Fin 128), s.dev.bus.writes = [] →
    (∀ v : BitVec 16, budget v.toNat ≤ 8 →
      (∀ g, g < 8 → gmode v.toNat g ≠ gmode (s.dev.get EVI_GMODE.MODE) g → s.dev.groupInUse g = false) →
      ∃ t, exec (.eviGmodeWrite v) s = .next t ∧ t.dev.get EVI_GMODE.MODE = v.toNat
        ∧ t.dev.get EVI_GSTAT.RESULT = 1)
    ∧ (∀ v : BitVec 16, 8 < budget v.toNat →
      ∃ t, exec (.eviGmodeWrite v) s = .next t ∧ t.dev.get EVI_GMODE.MODE = s.dev.get EVI_GMODE.MODE
        ∧ t.dev.get EVI_GSTAT.RESULT = 2 ∧ t.dev.evi = s.dev.evi)
    ∧ (∀ g : Fin 8, gmode (s.dev.get EVI_GMODE.MODE) g ≠ 0 →
      ∃ t, exec (.groupReady g) s = .next t ∧ t.dev.groupReady g = true ∧ t.dev.pdOn (87 + g) = true)
    ∧ (∀ (k : Nat) (bin : Fin 160) (rise : Bool), s.dev.gmodeAt (e / 16) k = 3 →
      (s.dev.get EVI_ICFG.EDGE e = 3 ∨ s.dev.get EVI_ICFG.EDGE e = (if rise then 1 else 2)) →
      s.dev.clockIn k = true → s.dev.groupReadyIn (e / 16) k = true →
      ((s.dev.evi.inp.get e).calFrom ≤ k → s.dev.flag EVI_ISTAT.GAUGING e = false ∧ (s.dev.evi.inp.get e).calTo ≤ k) →
      (∀ b, (s.dev.evi.inp.get e).last = some b → b + 8388608 ≤ s.dev.edgeInst e k bin) →
      ∃ t, exec (.eventEdge e k bin rise) s = .next t ∧ t.dev.now = max s.dev.now (k + 8)
        ∧ t.dev.get EVI_SEQ.VALUE e = (s.dev.get EVI_SEQ.VALUE e + 1) % 2 ^ EVI_SEQ.VALUE.w
        ∧ t.dev.get EVI_CNT_STAMP.VALUE e = (s.dev.get EVI_CNT_STAMP.VALUE e + 1) % 2 ^ EVI_CNT_STAMP.VALUE.w
        ∧ (t.dev.evi.inp.get e).last = some (s.dev.edgeInst e k bin) ∧ (t.dev.evi.inp.get e).level = rise)
    ∧ (∀ (g : Fin 8) (k n : Nat) (samples : List (BitVec 16)), (s.dev.gmodeAt g k = 1 ∧ n = 4 ∨ s.dev.gmodeAt g k = 2 ∧ n = 2) →
      s.dev.clockIn k = true → s.dev.groupReadyIn g k = true →
      ∃ t, exec (.logicSample g k samples) s = .next t ∧ t.dev.now = max s.dev.now k
        ∧ t.dev.logic.get g = s.dev.logic.get g ++ [⟨k, samples.take n, s.dev.idlyPeriods g n⟩])
    ∧ (∀ x : Nat × Nat, s.dev.collectNext = some x →
      ∃ t, exec .stampCollect s = .next t ∧ t.dev.now = max s.dev.now x.1 ∧ t.dev.evi.served = x.2
        ∧ (t.dev.evi.inp.get x.2).fifo = (s.dev.evi.inp.get x.2).fifo.tail
        ∧ (t.dev.evi.inp.get x.2).taken = some x.1 ∧ t.dev.evi.recent.head? = some x.1)
    ∧ ((s.dev.evi.inp.get e).batch ≠ [] →
      ∃ t, exec (.batchTimeout e) s = .next t ∧ (t.dev.evi.inp.get e).batch = []
        ∧ t.dev.now = max s.dev.now ((s.dev.evi.inp.get e).batchAt + max 1 (s.dev.get EVI_FLUSH_TO.FRAMES))
        ∧ (t.dev.evi.inp.get e).dropDead = 0 ∧ (t.dev.evi.inp.get e).dropFifo = 0
        ∧ (t.dev.evi.inp.get e).dropCal = 0 ∧ (t.dev.evi.inp.get e).fifo = (s.dev.evi.inp.get e).fifo)
    ∧ (∀ v : W32, ∃ t, exec (.eviIcfgWrite e v) s = .next t
        ∧ t.dev.get EVI_ICFG.EDGE e = (v.setWidth 64).toNat / 2 ^ EVI_ICFG.EDGE.lo % 2 ^ EVI_ICFG.EDGE.w
        ∧ t.dev.get EVI_ICFG.Q e = v.toNat / 2 ^ 16 % 4096
        ∧ t.dev.flag EVI_ICFG.QEN e = (v.getLsbD 31 && s.dev.get QUE_CFG.TYPE (v.toNat / 2 ^ 16 % 4096) == 3)
        ∧ (t.dev.get EVI_ICFG.Q e ≠ s.dev.get EVI_ICFG.Q e → (t.dev.evi.inp.get e).batch = []))

/-- Gauges are calibrated and saved, and interval units are set and drained (R227, R228, R229, R231, R233). -/
def Obligations.GaugeAndIntervalCommandsAct : Prop :=
  ∀ s : State, s.dev.bus.writes = [] →
    (∀ e : Fin 128, gmode (s.dev.get EVI_GMODE.MODE) (e / 16) = 3 → s.dev.evi.gauging = none →
      ∃ t, exec (.gaugeStart e) s = .next t ∧ t.dev.get EVI_GAUGE_STAT.RESULT = 1
        ∧ t.dev.get EVI_GAUGE_STAT.INPUT = e ∧ t.dev.evi.gauging = some e.val ∧ t.dev.flag EVI_ISTAT.GAUGING e = true
        ∧ (t.dev.evi.inp.get e).calFrom = s.dev.now + 1)
    ∧ (∀ e : Fin 128, s.dev.flag EVI_GAUGE_CTL.AUTO = true → s.dev.evi.gauging = none →
      gmode (s.dev.get EVI_GMODE.MODE) (e / 16) = 3 → s.dev.flag EVI_ISTAT.UNCAL e = true →
      (∀ j, j < e.val → gmode (s.dev.get EVI_GMODE.MODE) (j / 16) ≠ 3) →
      ∃ t, exec (.gaugeAuto e) s = .next t ∧ t.dev.get EVI_GAUGE_STAT.RESULT = 1
        ∧ t.dev.get EVI_GAUGE_STAT.INPUT = e ∧ t.dev.evi.gauging = some e.val
        ∧ t.dev.flag EVI_ISTAT.GAUGING e = true)
    ∧ (∀ (hits : List Nat) (i : Nat), s.dev.evi.gauging = some i → gaugeHits hits = true → gaugePass hits = true →
      ∃ t, exec (.gaugeResult hits) s = .next t ∧ t.dev.evi.gauging = none ∧ t.dev.get EVI_GAUGE_STAT.RESULT = 2
        ∧ (t.dev.evi.inp.get i).gauge = gaugeTable 0 hits ∧ (t.dev.evi.inp.get i).fresh = true
        ∧ t.dev.flag EVI_ISTAT.UNCAL i = false ∧ (t.dev.evi.inp.get i).calTo = s.dev.now)
    ∧ (∀ (hits : List Nat) (i : Nat), s.dev.evi.gauging = some i → gaugeHits hits = true → gaugePass hits = false →
      ∃ t, exec (.gaugeResult hits) s = .next t ∧ t.dev.evi.gauging = none ∧ t.dev.get EVI_GAUGE_STAT.RESULT = 3
        ∧ (t.dev.evi.inp.get i).gauge = (s.dev.evi.inp.get i).gauge
        ∧ t.dev.flag EVI_ISTAT.UNCAL i = s.dev.flag EVI_ISTAT.UNCAL i)
    ∧ (∃ t, exec .gaugeTableSave s = .next t ∧ t.dev.evi.savedAt = some t.dev.now
        ∧ t.dev.now = max s.dev.now ((s.dev.evi.savedAt.map (· + 750000000000)).getD 0)
        ∧ (∀ i, i < 128 → (s.dev.evi.inp.get i).gauge ≠ [] →
            (t.dev.evi.inp.get i).saved = (s.dev.evi.inp.get i).gauge)
        ∧ t.dev.regs = s.dev.regs)
    ∧ (∀ u : Fin 32, (s.dev.evi.iu.get u).fifo ≠ [] → (s.dev.evi.iu.get u).inbox = [] →
      ∃ t, exec (.intervalDrain u) s = .next t
        ∧ t.dev.now = max s.dev.now ((s.dev.evi.drained[3]?.map (· + 5)).getD 0)
        ∧ t.dev.evi.drained = (t.dev.now :: s.dev.evi.drained).take 4
        ∧ (t.dev.evi.iu.get u).fifo = (s.dev.evi.iu.get u).fifo.tail
        ∧ t.dev.get EVI_IU_STAT.PENDING u = (s.dev.evi.iu.get u).pend.length % 2 ^ EVI_IU_STAT.PENDING.w)
    ∧ (∀ (u : Fin 32) (v : W32), ∃ t, exec (.iuCfgWrite u v) s = .next t ∧ t.dev.get EVI_IU_STAT.PENDING u = 0
        ∧ t.dev.get EVI_IU_CFG.START u = (v.setWidth 64).toNat / 2 ^ EVI_IU_CFG.START.lo % 2 ^ EVI_IU_CFG.START.w
        ∧ t.dev.get EVI_IU_CFG.MODE u = (v.setWidth 64).toNat / 2 ^ EVI_IU_CFG.MODE.lo % 2 ^ EVI_IU_CFG.MODE.w
        ∧ (s.dev.get EVI_IU_CFG.MODE u = 1 ∨ s.dev.get EVI_IU_CFG.MODE u = 2 →
            (t.dev.evi.iu.get u).pend = [] ∧ (t.dev.evi.iu.get u).inbox = []))

/-- Register instructions of a needle compute and set the flags (R242, R243, R261, R263, R264). -/
def Obligations.NeedleRegisterInstructions : Prop :=
  ∀ (s : State) (n : Fin 16) (x : Needle) (w : W64) (k : Nat), s.dev.ndl.needle.get n = x →
    s.dev.fetchWord n x.pc = w → max s.dev.now x.next = k →
    (s.dev.issues n 0x10 → zX w = false →
      ∃ t, exec (.zMov n) s = .next t
        ∧ s.dev.issuedTo t.dev n k { x with g := x.g.set (zD w) (x.reg (zA w)), pc := (x.pc + 1) % 2 ^ 17 })
    ∧ (s.dev.issues n 0x11 → zf w 50 49 = 0 →
      ∃ t, exec (.zLdi n) s = .next t
        ∧ s.dev.issuedTo t.dev n k { x with g := x.g.set (zD w) ((BitVec.ofNat 48 (zf w 47 0)).setWidth 64), pc := (x.pc + 1) % 2 ^ 17 })
    ∧ (s.dev.issues n 0x11 → zf w 50 49 = 1 →
      ∃ t, exec (.zLdi n) s = .next t
        ∧ s.dev.issuedTo t.dev n k { x with g := x.g.set (zD w) ((BitVec.ofNat 48 (zf w 47 0)).signExtend 64), pc := (x.pc + 1) % 2 ^ 17 })
    ∧ (s.dev.issues n 0x11 → zf w 50 49 = 2 →
      ∃ t, exec (.zLdi n) s = .next t
        ∧ s.dev.issuedTo t.dev n k { x with g := x.g.set (zD w) (BitVec.ofNat 64 ((x.reg (zD w)).toNat % 2 ^ 48 + zf w 15 0 * 2 ^ 48)), pc := (x.pc + 1) % 2 ^ 17 })
    ∧ (s.dev.issues n 0x12 →
      ∃ t, exec (.zAdd n) s = .next t
        ∧ s.dev.issuedTo t.dev n k { x with z := decide (x.reg (zA w) + x.op w = 0), n := (x.reg (zA w) + x.op w).msb, c := decide (2 ^ 64 ≤ (x.reg (zA w)).toNat + (x.op w).toNat), v := decide ((x.reg (zA w) + x.op w).toInt ≠ (x.reg (zA w)).toInt + (x.op w).toInt), g := x.g.set (zD w) (x.reg (zA w) + x.op w), pc := (x.pc + 1) % 2 ^ 17 })
    ∧ (s.dev.issues n 0x13 →
      ∃ t, exec (.zSub n) s = .next t
        ∧ s.dev.issuedTo t.dev n k { x with z := decide (x.reg (zA w) - x.op w = 0), n := (x.reg (zA w) - x.op w).msb, c := decide ((x.op w).toNat ≤ (x.reg (zA w)).toNat), v := decide ((x.reg (zA w) - x.op w).toInt ≠ (x.reg (zA w)).toInt - (x.op w).toInt), g := x.g.set (zD w) (x.reg (zA w) - x.op w), pc := (x.pc + 1) % 2 ^ 17 })
    ∧ (s.dev.issues n 0x14 →
      ∃ t, exec (.zAnd n) s = .next t
        ∧ s.dev.issuedTo t.dev n k { x with z := decide (x.reg (zA w) &&& x.op w = 0), n := (x.reg (zA w) &&& x.op w).msb, c := false, v := false, g := x.g.set (zD w) (x.reg (zA w) &&& x.op w), pc := (x.pc + 1) % 2 ^ 17 })
    ∧ (s.dev.issues n 0x15 →
      ∃ t, exec (.zOr n) s = .next t
        ∧ s.dev.issuedTo t.dev n k { x with z := decide (x.reg (zA w) ||| x.op w = 0), n := (x.reg (zA w) ||| x.op w).msb, c := false, v := false, g := x.g.set (zD w) (x.reg (zA w) ||| x.op w), pc := (x.pc + 1) % 2 ^ 17 })
    ∧ (s.dev.issues n 0x16 →
      ∃ t, exec (.zXor n) s = .next t
        ∧ s.dev.issuedTo t.dev n k { x with z := decide (x.reg (zA w) ^^^ x.op w = 0), n := (x.reg (zA w) ^^^ x.op w).msb, c := false, v := false, g := x.g.set (zD w) (x.reg (zA w) ^^^ x.op w), pc := (x.pc + 1) % 2 ^ 17 })
    ∧ (s.dev.issues n 0x19 →
      ∃ t, exec (.zCmp n) s = .next t
        ∧ s.dev.issuedTo t.dev n k { x with z := decide (x.reg (zA w) - x.op w = 0), n := (x.reg (zA w) - x.op w).msb, c := decide ((x.op w).toNat ≤ (x.reg (zA w)).toNat), v := decide ((x.reg (zA w) - x.op w).toInt ≠ (x.reg (zA w)).toInt - (x.op w).toInt), pc := (x.pc + 1) % 2 ^ 17 })

/-- Shifts, scratch accesses and jumps of a needle (R251, R252, R261, R262, R263, R266). -/
def Obligations.NeedleShiftScratchAndJumpInstructions : Prop :=
  ∀ (s : State) (n : Fin 16) (x : Needle) (w : W64) (k : Nat), s.dev.ndl.needle.get n = x →
    s.dev.fetchWord n x.pc = w → max s.dev.now x.next = k →
    (s.dev.issues n 0x17 →
      ∃ t, exec (.zShl n) s = .next t
        ∧ s.dev.issuedTo t.dev n k { x with z := decide (x.reg (zA w) <<< ((x.op w).toNat % 64) = 0), n := (x.reg (zA w) <<< ((x.op w).toNat % 64)).msb, c := decide ((x.op w).toNat % 64 ≠ 0) && (x.reg (zA w)).getLsbD (64 - (x.op w).toNat % 64), v := false, g := x.g.set (zD w) (x.reg (zA w) <<< ((x.op w).toNat % 64)), pc := (x.pc + 1) % 2 ^ 17 })
    ∧ (s.dev.issues n 0x18 → zX w = false →
      ∃ t, exec (.zShr n) s = .next t
        ∧ s.dev.issuedTo t.dev n k { x with z := decide (x.reg (zA w) >>> ((x.op w).toNat % 64) = 0), n := (x.reg (zA w) >>> ((x.op w).toNat % 64)).msb, c := decide ((x.op w).toNat % 64 ≠ 0) && (x.reg (zA w)).getLsbD ((x.op w).toNat % 64 - 1), v := false, g := x.g.set (zD w) (x.reg (zA w) >>> ((x.op w).toNat % 64)), pc := (x.pc + 1) % 2 ^ 17 })
    ∧ (s.dev.issues n 0x18 → zX w = true →
      ∃ t, exec (.zShr n) s = .next t
        ∧ s.dev.issuedTo t.dev n k { x with z := decide ((x.reg (zA w)).sshiftRight ((x.op w).toNat % 64) = 0), n := ((x.reg (zA w)).sshiftRight ((x.op w).toNat % 64)).msb, c := decide ((x.op w).toNat % 64 ≠ 0) && (x.reg (zA w)).getLsbD ((x.op w).toNat % 64 - 1), v := false, g := x.g.set (zD w) ((x.reg (zA w)).sshiftRight ((x.op w).toNat % 64)), pc := (x.pc + 1) % 2 ^ 17 })
    ∧ (s.dev.issues n 0x1A → (x.reg (zA w) + BitVec.ofNat 64 (zf w 11 0)).toNat < 4096 → (x.reg (zA w) + BitVec.ofNat 64 (zf w 11 0)).toNat % 8 = 0 →
      ∃ t, exec (.zLd n) s = .next t
        ∧ s.dev.issuedTo t.dev n k { x with g := x.g.set (zD w) (BitVec.ofNat 64 (leNat (x.scratch.bytes (x.reg (zA w) + BitVec.ofNat 64 (zf w 11 0)).toNat 8))), pc := (x.pc + 1) % 2 ^ 17 })
    ∧ (s.dev.issues n 0x1A → (4096 ≤ (x.reg (zA w) + BitVec.ofNat 64 (zf w 11 0)).toNat ∨ (x.reg (zA w) + BitVec.ofNat 64 (zf w 11 0)).toNat % 8 ≠ 0) →
      ∃ t, exec (.zLd n) s = .next t ∧ t.dev.now = k ∧ (t.dev.ndl.needle.get n).state = 4
        ∧ t.dev.get NDL_FAULT.CODE n = 3 ∧ t.dev.get NDL_FAULT_PC.PC n = x.pc % 2 ^ NDL_FAULT_PC.PC.w
        ∧ (t.dev.ndl.needle.get n).g = x.g ∧ t.dev.raised k (416 + 2 * n))
    ∧ (s.dev.issues n 0x1B → (x.reg (zA w) + BitVec.ofNat 64 (zf w 11 0)).toNat < 4096 → (x.reg (zA w) + BitVec.ofNat 64 (zf w 11 0)).toNat % 8 = 0 →
      ∃ t, exec (.zSt n) s = .next t
        ∧ s.dev.issuedTo t.dev n k { x with scratch := x.scratch.store (x.reg (zA w) + BitVec.ofNat 64 (zf w 11 0)).toNat (leBytes (x.reg (zB w)).toNat 8), pc := (x.pc + 1) % 2 ^ 17 })
    ∧ (s.dev.issues n 0x00 →
      ∃ t, exec (.zNop n) s = .next t
        ∧ s.dev.issuedTo t.dev n k { x with pc := (x.pc + 1) % 2 ^ 17 })
    ∧ (s.dev.issues n 0x08 → zf w 50 50 = 0 →
      ∃ t, exec (.zJmp n) s = .next t
        ∧ s.dev.issuedTo t.dev n k { x with pc := zf w 16 0 })
    ∧ (s.dev.issues n 0x08 → zf w 50 50 = 1 →
      ∃ t, exec (.zJmp n) s = .next t
        ∧ s.dev.issuedTo t.dev n k { x with pc := (x.reg (zD w)).toNat % 2 ^ 17 })
    ∧ (s.dev.issues n 0x09 →
      ∃ t, exec (.zBrc n) s = .next t
        ∧ s.dev.issuedTo t.dev n k { x with pc := if x.cond (zf w 55 52) (zf w 51 49) then zf w 16 0 else (x.pc + 1) % 2 ^ 17 })
    ∧ (s.dev.issues n 0x0A → x.calls.length < 16 →
      ∃ t, exec (.zCall n) s = .next t
        ∧ s.dev.issuedTo t.dev n k { x with pc := if zf w 50 50 = 1 then (x.reg (zD w)).toNat % 2 ^ 17 else zf w 16 0, calls := (x.pc + 1) % 2 ^ 17 :: x.calls })
    ∧ (s.dev.issues n 0x0B → x.calls ≠ [] →
      ∃ t, exec (.zRet n) s = .next t
        ∧ s.dev.issuedTo t.dev n k { x with pc := x.calls.headD 0 % 2 ^ 17, calls := x.calls.tail })
    ∧ (s.dev.issues n 0x0B → x.calls = [] →
      ∃ t, exec (.zRet n) s = .next t ∧ t.dev.now = k ∧ (t.dev.ndl.needle.get n).state = 4
        ∧ t.dev.get NDL_FAULT.CODE n = 7 ∧ t.dev.raised k (416 + 2 * n))

/-- LOOP and ENDLOOP do what each situation of R267 says (R267). -/
def Obligations.LoopInstructionsFollowTheTable : Prop :=
  ∀ (s : State) (n : Fin 16) (x : Needle) (w : W64) (k : Nat), s.dev.ndl.needle.get n = x →
    s.dev.fetchWord n x.pc = w → max s.dev.now x.next = k →
    (s.dev.issues n 0x0C → (if zf w 50 50 = 1 then zf w 48 17 else (x.reg (zD w)).toNat % 2 ^ 40) = 0 →
      ∃ t, exec (.zLoop n) s = .next t
        ∧ s.dev.issuedTo t.dev n k { x with pc := (zf w 16 0 + 1) % 2 ^ 17 })
    ∧ (s.dev.issues n 0x0C → (if zf w 50 50 = 1 then zf w 48 17 else (x.reg (zD w)).toNat % 2 ^ 40) ≠ 0 → 8 ≤ x.loops.length →
      ∃ t, exec (.zLoop n) s = .next t ∧ t.dev.now = k ∧ (t.dev.ndl.needle.get n).state = 4
        ∧ t.dev.get NDL_FAULT.CODE n = 4 ∧ t.dev.raised k (416 + 2 * n))
    ∧ (s.dev.issues n 0x0C → (if zf w 50 50 = 1 then zf w 48 17 else (x.reg (zD w)).toNat % 2 ^ 40) ≠ 0 → x.loops.length < 8 →
      ∃ t, exec (.zLoop n) s = .next t
        ∧ s.dev.issuedTo t.dev n k { x with loops := ⟨(if zf w 50 50 = 1 then zf w 48 17 else (x.reg (zD w)).toNat % 2 ^ 40), (x.pc + 1) % 2 ^ 17, zf w 16 0⟩ :: x.loops, pc := (x.pc + 1) % 2 ^ 17 })
    ∧ (s.dev.issues n 0x0D → x.loops ≠ [] → zf w 0 0 = 0 → 1 < (x.loops.headD {}).count →
      ∃ t, exec (.zEndloop n) s = .next t
        ∧ s.dev.issuedTo t.dev n k { x with pc := (x.loops.headD {}).first % 2 ^ 17, loops := { x.loops.headD {} with count := (x.loops.headD {}).count - 1 } :: x.loops.tail })
    ∧ (s.dev.issues n 0x0D → x.loops ≠ [] → zf w 0 0 = 0 → (x.loops.headD {}).count ≤ 1 →
      ∃ t, exec (.zEndloop n) s = .next t
        ∧ s.dev.issuedTo t.dev n k { x with loops := x.loops.tail, pc := (x.pc + 1) % 2 ^ 17 })
    ∧ (s.dev.issues n 0x0D → x.loops ≠ [] → zf w 0 0 = 1 →
      ∃ t, exec (.zEndloop n) s = .next t
        ∧ s.dev.issuedTo t.dev n k { x with pc := ((x.loops.headD {}).last + 1) % 2 ^ 17, loops := x.loops.tail })
    ∧ (s.dev.issues n 0x0D → x.loops = [] →
      ∃ t, exec (.zEndloop n) s = .next t ∧ t.dev.now = k ∧ (t.dev.ndl.needle.get n).state = 4
        ∧ t.dev.get NDL_FAULT.CODE n = 5 ∧ t.dev.raised k (416 + 2 * n))
    ∧ (x.state = 1 → (∀ i ∈ [Instr.zJmp n, .zBrc n, .zCall n, .zRet n], ∃ t, exec i s = .next t
        ∧ ((t.dev.ndl.needle.get n).state = 1 → (t.dev.ndl.needle.get n).loops = x.loops)))

/-- Field writes, reads, reports and markers of a needle are applied two frames after issue (R243, R248, R250, R268,
R270, R271, R275, R276, R277). -/
def Obligations.NeedleInstructionsLeaveTheirEffects : Prop :=
  ∀ (s : State) (n : Fin 16) (x : Needle) (w : W64) (k : Nat), s.dev.ndl.needle.get n = x →
    s.dev.fetchWord n x.pc = w → max s.dev.now x.next = k →
    (s.dev.issues n 0x20 →
      ∃ t, exec (.zSetf n) s = .next t
        ∧ s.dev.issuedTo t.dev n k { x with pc := (x.pc + 1) % 2 ^ 17, flights := addFlight ⟨x.pc, k + 2, .setf (zf w 25 0) (zf w 37 32) (zf w 31 26) (if zf w 50 50 = 1 then BitVec.ofNat 64 (zf w 49 38) else x.reg (zD w))⟩ x.flights })
    ∧ (s.dev.issues n 0x21 →
      ∃ t, exec (.zGetf n) s = .next t
        ∧ s.dev.issuedTo t.dev n k { x with pc := (x.pc + 1) % 2 ^ 17, flights := addFlight ⟨x.pc, k + 2, .getf (zf w 25 0) (zf w 37 32) (zf w 31 26) (zD w) (decide (zf w 50 50 = 1))⟩ x.flights })
    ∧ (s.dev.issues n 0x28 → x.ctxAt k = false →
      ∃ t, exec (.zCaston n) s = .next t
        ∧ s.dev.issuedTo t.dev n k { x with pc := (x.pc + 1) % 2 ^ 17, flights := addFlight ⟨x.pc, k + 2, .caston (x.reg (zD w)) (x.reg (zA w))⟩ x.flights })
    ∧ (s.dev.issues n 0x29 → x.ctxAt k = true →
      ∃ t, exec (.zBindoff n) s = .next t
        ∧ s.dev.issuedTo t.dev n k { x with pc := (x.pc + 1) % 2 ^ 17, flights := addFlight ⟨x.pc, k + 2, .bindoff true⟩ x.flights })
    ∧ (s.dev.issues n 0x28 → x.ctxAt k = true →
      ∃ t, exec (.zCaston n) s = .next t ∧ t.dev.now = k ∧ (t.dev.ndl.needle.get n).state = 4
        ∧ t.dev.get NDL_FAULT.CODE n = 11 ∧ t.dev.raised k (416 + 2 * n))
    ∧ (s.dev.issues n 0x29 → x.ctxAt k = false →
      ∃ t, exec (.zBindoff n) s = .next t ∧ t.dev.now = k ∧ (t.dev.ndl.needle.get n).state = 4
        ∧ t.dev.get NDL_FAULT.CODE n = 11 ∧ t.dev.raised k (416 + 2 * n))
    ∧ (s.dev.issues n 0x2A →
      ∃ t, exec (.zArm n) s = .next t
        ∧ s.dev.issuedTo t.dev n k { x with pc := (x.pc + 1) % 2 ^ 17, flights := addFlight ⟨x.pc, k + 2, .arm (zf w 7 0) true⟩ x.flights })
    ∧ (s.dev.issues n 0x2B →
      ∃ t, exec (.zDisarm n) s = .next t
        ∧ s.dev.issuedTo t.dev n k { x with pc := (x.pc + 1) % 2 ^ 17, flights := addFlight ⟨x.pc, k + 2, .arm (zf w 7 0) false⟩ x.flights })
    ∧ (s.dev.issues n 0x2C →
      ∃ t, exec (.zSeg n) s = .next t
        ∧ s.dev.issuedTo t.dev n k { x with pc := (x.pc + 1) % 2 ^ 17, flights := addFlight ⟨x.pc, k + 2, .seg (zf w 3 0) (x.reg (zD w)) (x.reg (zA w))⟩ x.flights })
    ∧ (s.dev.issues n 0x2D →
      ∃ t, exec (.zSync n) s = .next t
        ∧ s.dev.issuedTo t.dev n k { x with pc := (x.pc + 1) % 2 ^ 17, flights := addFlight ⟨x.pc, k + 2, .sync⟩ x.flights })
    ∧ (s.dev.issues n 0x38 →
      ∃ t, exec (.zPost n) s = .next t
        ∧ s.dev.issuedTo t.dev n k { x with pc := (x.pc + 1) % 2 ^ 17, flights := addFlight ⟨x.pc, k + 2, .post (zf w 11 0) (x.reg (zD w)) (x.reg (zA w))⟩ x.flights })
    ∧ (s.dev.issues n 0x39 →
      ∃ t, exec (.zSignal n) s = .next t
        ∧ s.dev.issuedTo t.dev n k { x with pc := (x.pc + 1) % 2 ^ 17, flights := addFlight ⟨x.pc, k + 2, .signal (if zf w 50 50 = 1 then zf w 15 0 else (x.reg (zD w)).toNat % 65536)⟩ x.flights })
    ∧ (s.dev.issues n 0x3A →
      ∃ t, exec (.zMark n) s = .next t
        ∧ s.dev.issuedTo t.dev n k { x with pc := (x.pc + 1) % 2 ^ 17, flights := addFlight ⟨x.pc, k + 2, .mark (zf w 3 0) (zf w 31 16 + 1)⟩ x.flights })
    ∧ (s.dev.issues n 0x3C →
      ∃ t, exec (.zTone n) s = .next t
        ∧ s.dev.issuedTo t.dev n k { x with pc := (x.pc + 1) % 2 ^ 17, flights := addFlight ⟨x.pc, k + 2, .tone (zf w 1 0) (zf w 5 4) (x.reg (zD w)) (x.reg (zA w))⟩ x.flights })
    ∧ (s.dev.issues n 0x3D →
      ∃ t, exec (.zPlay n) s = .next t
        ∧ s.dev.issuedTo t.dev n k { x with pc := (x.pc + 1) % 2 ^ 17, flights := addFlight ⟨x.pc, k + 2, .play (zf w 1 0) (x.reg (zD w)) (x.reg (zA w))⟩ x.flights })

/-- Waits, YIELD and HALT of a needle (R241, R246, R254, R272, R273, R274, R278). -/
def Obligations.NeedleWaitsYieldAndHalt : Prop :=
  ∀ (s : State) (n : Fin 16) (x : Needle) (w : W64) (k : Nat), s.dev.ndl.needle.get n = x →
    s.dev.fetchWord n x.pc = w → max s.dev.now x.next = k →
    (s.dev.issues n 0x34 →
      ∃ t, exec (.zDelay n) s = .next t
        ∧ s.dev.issuedTo t.dev n k { x with pc := (x.pc + 1) % 2 ^ 17, state := 2, wait := some ⟨.delay, k, none, some (k + max 1 ((if zf w 50 50 = 1 then zf w 39 0 else (x.reg (zD w)).toNat) % 2 ^ 40), 0)⟩ })
    ∧ (s.dev.issues n 0x32 →
      ∃ t, exec (.zWaitt n) s = .next t ∧ t.dev.now = k ∧ (t.dev.ndl.needle.get n).state = 2
        ∧ (t.dev.ndl.needle.get n).pc = (x.pc + 1) % 2 ^ 17
        ∧ ((t.dev.ndl.needle.get n).wait.map fun y => (y.issued, y.limit, y.done)) = some (k, none, none))
    ∧ (s.dev.issues n 0x31 →
      ∃ t, exec (.zWaittrig n) s = .next t
        ∧ s.dev.issuedTo t.dev n k { x with pc := (x.pc + 1) % 2 ^ 17, state := 2, wait := some ⟨.event (96 + 8 * zf w 2 0), k, if zf w 50 50 = 1 then some (k + max 1 ((x.reg (zD w)).toNat % 2 ^ 40)) else none, none⟩ })
    ∧ (s.dev.issues n 0x33 →
      ∃ t, exec (.zWaite n) s = .next t
        ∧ s.dev.issuedTo t.dev n k { x with pc := (x.pc + 1) % 2 ^ 17, state := 2, wait := some ⟨.event (zf w 9 0), k, if zf w 50 50 = 1 then some (k + max 1 ((x.reg (zD w)).toNat % 2 ^ 40)) else none, none⟩ })
    ∧ (s.dev.issues n 0x30 → zf w 49 49 = 0 →
      ∃ t, exec (.zWaitseg n) s = .next t
        ∧ s.dev.issuedTo t.dev n k { x with pc := (x.pc + 1) % 2 ^ 17, state := 2, wait := some ⟨.seg (zf w 3 0) false, k, if zf w 50 50 = 1 then some (k + max 1 ((x.reg (zD w)).toNat % 2 ^ 40)) else none, none⟩ })
    ∧ (s.dev.issues n 0x03 →
      ∃ t, exec (.zFence n) s = .next t
        ∧ s.dev.issuedTo t.dev n k { x with pc := (x.pc + 1) % 2 ^ 17, state := 2, wait := some ⟨.fence, k, none, none⟩ })
    ∧ (s.dev.issues n 0x02 → s.dev.get NDL_REPLACE.RESULT n ≠ 1 →
      ∃ t, exec (.zYield n) s = .next t
        ∧ s.dev.issuedTo t.dev n k { x with pc := (x.pc + 1) % 2 ^ 17 })
    ∧ (s.dev.issues n 0x02 → s.dev.get NDL_REPLACE.RESULT n = 1 → s.dev.flag NDL_REPLACE.WHEN n = true →
      ∃ t, exec (.zYield n) s = .next t ∧ t.dev.get NDL_REPLACE.RESULT n = 2
        ∧ (t.dev.ndl.needle.get n).pc = s.dev.get NDL_ENTRY_NEXT.PC n
        ∧ (t.dev.ndl.needle.get n).loops = [] ∧ (t.dev.ndl.needle.get n).calls = []
        ∧ (t.dev.ndl.needle.get n).state = 1)
    ∧ (s.dev.issues n 0x01 → s.dev.get NDL_REPLACE.RESULT n ≠ 1 →
      ∃ t, exec (.zHalt n) s = .next t
        ∧ s.dev.issuedTo t.dev n k { x with pc := (x.pc + 1) % 2 ^ 17, state := 3, flights := if x.ctxAt k = true then addFlight ⟨x.pc, k + 2, .bindoff true⟩ x.flights else x.flights }
        ∧ t.dev.raised k (416 + 2 * n))
    ∧ (∀ d : Nat, x.wait = some ⟨.delay, x.next, none, some (d, 0)⟩ → s.dev.tb.locked = true →
      ∃ t, exec (.waitComplete n) s = .next t ∧ t.dev.now = max s.dev.now d
        ∧ t.dev.ndl.needle.get n = { x with state := 1, wait := none, w := 0, next := t.dev.now })

/-- MOV with X = 1 reads the special register that A names (R265). -/
def Obligations.MovReadsTheSpecialRegisters : Prop :=
  ∀ (s : State) (n : Fin 16) (x : Needle) (w : W64) (k : Nat), s.dev.ndl.needle.get n = x →
    s.dev.fetchWord n x.pc = w → max s.dev.now x.next = k →
    (s.dev.issues n 0x10 → zX w = true → zA w < 8 →
      ∃ t, exec (.zMov n) s = .next t
        ∧ s.dev.issuedTo t.dev n k { x with g := x.g.set (zD w) (BitVec.ofNat 64 ((x.loops[zA w]?.map Loop.count).getD 0)), pc := (x.pc + 1) % 2 ^ 17 })
    ∧ (s.dev.issues n 0x10 → zX w = true → zA w = 8 →
      ∃ t, exec (.zMov n) s = .next t
        ∧ s.dev.issuedTo t.dev n k { x with g := x.g.set (zD w) (BitVec.ofNat 64 (s.dev.countAt k % 2 ^ 64)), pc := (x.pc + 1) % 2 ^ 17 })
    ∧ (s.dev.issues n 0x10 → zX w = true → zA w = 9 →
      ∃ t, exec (.zMov n) s = .next t
        ∧ s.dev.issuedTo t.dev n k { x with g := x.g.set (zD w) (BitVec.ofNat 64 (s.dev.countAt k / 2 ^ 64 % 256)), pc := (x.pc + 1) % 2 ^ 17 })
    ∧ (s.dev.issues n 0x10 → zX w = true → zA w = 10 →
      ∃ t, exec (.zMov n) s = .next t
        ∧ s.dev.issuedTo t.dev n k { x with g := x.g.set (zD w) (BitVec.ofNat 64 n.val), pc := (x.pc + 1) % 2 ^ 17 })
    ∧ (s.dev.issues n 0x10 → zX w = true → zA w = 11 →
      ∃ t, exec (.zMov n) s = .next t
        ∧ s.dev.issuedTo t.dev n k { x with g := x.g.set (zD w) (BitVec.ofNat 64 x.w), pc := (x.pc + 1) % 2 ^ 17 })
    ∧ (zOp w = 0x10 → zX w = true → 12 ≤ zA w → zLegal w = false)

/-- Needles start, stop, switch programs, and their stores and windows are written (R239, R241, R253, R254, R258). -/
def Obligations.NeedleControlCommandsAct : Prop :=
  ∀ (s : State) (n : Fin 16), s.dev.bus.writes = [] →
    ((s.dev.ndl.needle.get n).state ≠ 1 → (s.dev.ndl.needle.get n).state ≠ 2 →
      ∃ t, exec (.needleGo n) s = .next t
        ∧ t.dev.ndl.needle.get n = { s.dev.ndl.needle.get n with
            pc := s.dev.get NDL_ENTRY.PC n, loops := [], calls := [], z := false, n := false, c := false, v := false,
            w := 0, state := 1, runFrom := s.dev.now + 1, before := (s.dev.ndl.needle.get n).state,
            next := s.dev.now + 1, wait := none, busy := [] }
        ∧ t.dev.now = s.dev.now + 1
        ∧ t.dev.ndl.prog = s.dev.ndl.prog)
    ∧ ((s.dev.ndl.needle.get n).state = 1 ∨ (s.dev.ndl.needle.get n).state = 2 →
      ∃ t, exec (.needleStop n) s = .next t ∧ (t.dev.ndl.needle.get n).state = 0
        ∧ (t.dev.ndl.needle.get n).wait = none ∧ (t.dev.ndl.needle.get n).g = (s.dev.ndl.needle.get n).g
        ∧ t.dev.raised s.dev.now (416 + 2 * n))
    ∧ ((s.dev.ndl.needle.get n).state = 1 → s.dev.replCheck n = 1 →
      ∃ t, exec (.replaceGo n) s = .next t ∧ t.dev.get NDL_REPLACE.RESULT n = 1 ∧ t.dev.ndl.prog = s.dev.ndl.prog
        ∧ t.dev.ndl.needle.get n = { s.dev.ndl.needle.get n with replWin := s.dev.rd ⟨.NDL_WIN_NEXT, n, 0, 0⟩ }
        ∧ t.dev.get NDL_WIN.BASE n = s.dev.get NDL_WIN.BASE n)
    ∧ ((s.dev.ndl.needle.get n).state = 0 → s.dev.replCheck n = 1 →
      ∃ t, exec (.replaceGo n) s = .next t ∧ t.dev.get NDL_REPLACE.RESULT n = 2
        ∧ t.dev.get NDL_WIN.BASE n = s.dev.get NDL_WIN_NEXT.BASE n
        ∧ t.dev.get NDL_WIN.SIZE n = s.dev.get NDL_WIN_NEXT.SIZE n
        ∧ t.dev.get NDL_ENTRY.PC n = s.dev.get NDL_ENTRY_NEXT.PC n
        ∧ (t.dev.ndl.needle.get n).loops = [] ∧ (t.dev.ndl.needle.get n).calls = []
        ∧ t.dev.raised s.dev.now (416 + 2 * n))
    ∧ (s.dev.get NDL_REPLACE.RESULT n = 1 →
      ∃ t, exec (.replaceCancel n) s = .next t ∧ t.dev.get NDL_REPLACE.RESULT n = 5 ∧ t.dev.ndl = s.dev.ndl)
    ∧ (∀ (ofs : BitVec 20) (b0 b1 b2 b3 b4 b5 b6 b7 : Byte), ofs.toNat % 8 = 0 →
      s.dev.progBusy ofs.toNat 8 = false →
      ∃ t, exec (.progStoreWrite ofs [b0, b1, b2, b3, b4, b5, b6, b7]) s = .next t
        ∧ t.dev.ndl.prog = s.dev.ndl.prog.store ofs.toNat [b0, b1, b2, b3, b4, b5, b6, b7]
        ∧ t.dev.ndl.needle = s.dev.ndl.needle ∧ t.dev.regs = s.dev.regs)
    ∧ (∀ (ofs : BitVec 20) (b0 b1 b2 b3 b4 b5 b6 b7 : Byte), ofs.toNat % 8 = 0 →
      s.dev.progBusy ofs.toNat 8 = true →
      ∃ t, exec (.progStoreWrite ofs [b0, b1, b2, b3, b4, b5, b6, b7]) s = .next t ∧ t.dev.ndl = s.dev.ndl
        ∧ t.dev.get NDL_G_WDROP.COUNT = min (2 ^ NDL_G_WDROP.COUNT.w - 1) (s.dev.get NDL_G_WDROP.COUNT + 1))
    ∧ (∀ (r : Fin 32) (v : W64), (s.dev.ndl.needle.get n).state ≠ 1 → (s.dev.ndl.needle.get n).state ≠ 2 →
      ∃ t, exec (.needleWindowWrite (BitVec.ofNat 20 (0x20000 + 0x100 * n + 8 * r)) true v) s = .next t
        ∧ t.dev.ndl.needle.get n = { s.dev.ndl.needle.get n with g := (s.dev.ndl.needle.get n).g.set r v }
        ∧ t.dev.regs = s.dev.regs)
    ∧ (∀ (a : Fin 512) (v : W64), (s.dev.ndl.needle.get n).state ≠ 1 → (s.dev.ndl.needle.get n).state ≠ 2 →
      ∃ t, exec (.needleWindowWrite (BitVec.ofNat 20 (0x40000 + 0x1000 * n + 8 * a)) true v) s = .next t
        ∧ t.dev.ndl.needle.get n = { s.dev.ndl.needle.get n with
            scratch := (s.dev.ndl.needle.get n).scratch.store (8 * a) (leBytes v.toNat 8) }
        ∧ t.dev.regs = s.dev.regs)

/-- Needle effects are applied, and stimulus units run (R243, R248, R269, R276, R281, R284, R285, R286, R287, R288,
R289, R291). -/
def Obligations.EffectAndStimulusCommandsAct : Prop :=
  ∀ (s : State) (n : Fin 16) (u : Fin 4), s.dev.bus.writes = [] →
    (∀ f : Flight, (s.dev.ndl.needle.get n).flights.head? = some f → f.eff.cls = 0 →
      ∃ t, exec (.fieldWriteApply n) s = .next t ∧ t.dev.now = max s.dev.now f.due
        ∧ t.dev.bus.writes = [.needle n f] ∧ t.dev.regs = s.dev.regs
        ∧ (t.dev.ndl.needle.get n).flights = (s.dev.ndl.needle.get n).flights.tail)
    ∧ (∀ (f : Flight) (a b : W64), (s.dev.ndl.needle.get n).flights.head? = some f → f.eff = .caston a b →
      (∀ m, m < 16 → (s.dev.ndl.needle.get m).ctx = false) → a.toNat < 2 ^ 52 → b.toNat < 2 ^ 16 →
      ∃ t, exec (.fieldWriteApply n) s = .next t ∧ t.dev.now = max s.dev.now f.due
        ∧ (t.dev.frameEnd.ndl.needle.get n).ctx = true
        ∧ t.dev.frameEnd.rd ⟨.NDL_CLAIM0, n, 0, 0⟩ = a ∧ t.dev.frameEnd.rd ⟨.NDL_CLAIM1, n, 0, 0⟩ = b)
    ∧ (∀ f : Flight, (s.dev.ndl.needle.get n).flights.head? = some f → f.eff = .sync → s.dev.dec.sync = [] →
      ∃ t, exec (.fieldWriteApply n) s = .next t ∧ t.dev.now = max s.dev.now f.due
        ∧ t.dev.frameEnd.dec.sync = [t.dev.now - 150 + 1] ∧ t.dev.frameEnd.regs = s.dev.regs)
    ∧ (∀ (f : Flight) (word lsb wm1 dest : Nat) (sx : Bool) (v : W64),
      (s.dev.ndl.needle.get n).flights.head? = some f → f.eff = .getf word lsb wm1 dest sx → f.due = s.dev.now →
      ((s.dev.updNdl n fun x => { x with flights := x.flights.tail }).getfRead (.needle n) word lsb wm1 sx).map Prod.fst
        = some v →
      ∃ t, exec (.fieldReadServe n) s = .next t ∧ t.dev.now = s.dev.now
        ∧ (t.dev.ndl.needle.get n).reg dest = v ∧ (dest, s.dev.now + 1) ∈ (t.dev.ndl.needle.get n).busy)
    ∧ (∀ (f : Flight) (code : Nat), (s.dev.ndl.needle.get n).flights.head? = some f → f.eff = .signal code →
      ∃ t, exec (.reportApply n) s = .next t ∧ t.dev.now = max s.dev.now f.due
        ∧ (t.dev.ndl.needle.get n).flights = (s.dev.ndl.needle.get n).flights.tail
        ∧ t.dev.get NDL_SIGCODE.CODE n = code % 2 ^ NDL_SIGCODE.CODE.w ∧ t.dev.raised t.dev.now (417 + 2 * n))
    ∧ (s.dev.flag STM_UCTL.EN u = false → (s.dev.slice.get u).swatch = none →
      ∃ t, exec (.stimEnable u) s = .next t ∧ t.dev.flag STM_UCTL.EN u = true ∧ t.dev.get STM_USTAT.STATE u = 1
        ∧ t.dev.stmReady u = (s.dev.pdOn (10 * u + 8) && s.dev.pdOn (10 * u + 9) && s.dev.benchOn)
        ∧ (t.dev.stm.get u).acc = [0, 0, 0, 0])
    ∧ (s.dev.flag STM_UCTL.EN u = true →
      ∃ t, exec (.stimDisable u) s = .next t ∧ t.dev.flag STM_UCTL.EN u = false ∧ t.dev.get STM_USTAT.STATE u = 0
        ∧ t.dev.stmReady u = false ∧ (t.dev.stm.get u).playing = none ∧ (t.dev.stm.get u).queue = [])
    ∧ (∀ kind : Fin 4, s.dev.playCheck u (s.dev.get STM_PLAY_OFS.OFS u) (s.dev.get STM_PLAY_LEN.LEN u) kind = 1 →
      s.dev.get STM_USTAT.STATE u = 1 → (s.dev.stm.get u).queue = [] →
      ∃ t, exec (.playSubmit u kind) s = .next t ∧ t.dev.get STM_PLAY_STAT.RESULT u = 1
        ∧ (t.dev.stm.get u).queue = [{ ofs := s.dev.get STM_PLAY_OFS.OFS u, len := s.dev.get STM_PLAY_LEN.LEN u,
                                       applied := s.dev.now }]
        ∧ (s.dev.flag STM_UCTL.START_MODE u = false →
          (t.dev.stm.get u).startAt = some (s.dev.granuleFrom (s.dev.now + 128)) ∧ (t.dev.stm.get u).startTick = none)
        ∧ (s.dev.flag STM_UCTL.START_MODE u = true →
          (t.dev.stm.get u).startTick.isSome = true ∧ (t.dev.stm.get u).lostTo = s.dev.now + 128))
    ∧ (s.dev.tb.locked = true → s.dev.stmReady u = true → s.dev.get STM_USTAT.STATE u = 1 →
      (s.dev.stm.get u).playing = none → (s.dev.stm.get u).queue = [] → (s.dev.stm.get u).jumps = [] →
      (s.dev.stm.get u).changes = [] →
      ∃ t, exec (.granuleBoundary u) s = .next t ∧ t.dev.now = max s.dev.now (s.dev.stmDue u)
        ∧ (t.dev.stm.get u).last = some (s.dev.stmDue u)
        ∧ (t.dev.stm.get u).out
          = (stmCodes (s.dev.stm.get u).statics 256 (s.dev.stm.get u).acc).1.map fun c => max (-8192) (min 8191 c))
    ∧ (∀ x : Nat × StmSeg, (s.dev.stm.get u).jumps.head? = some x → x.1 < s.dev.stmDue u →
      s.dev.get STM_USTAT.STATE u = 2 →
      ∃ t, exec (.jumpArrival u) s = .next t ∧ t.dev.now = max s.dev.now x.1
        ∧ (t.dev.stm.get u).queue = [x.2] ∧ (t.dev.stm.get u).jumps = (s.dev.stm.get u).jumps.tail)
    ∧ (∀ p : StmSeg, (s.dev.stm.get u).playing = some p → p.fetched < p.len → (s.dev.stm.get u).granule ≤ p.fetched →
      (s.dev.stm.get u).records < 1024 →
      ∃ t, exec (.prefetchRecord u) s = .next t
        ∧ (t.dev.stm.get u).playing = some { p with
            fetched := p.fetched + 1, held := p.held ++ [(p.fetched, s.dev.storeRead 0 (p.ofs + 64 * p.fetched) 64)] })
    ∧ (s.dev.get STM_USTAT.STATE u = 3 →
      ∃ t, exec (.stimClear u) s = .next t ∧ (t.dev.stm.get u).clear = true ∧ t.dev.regs = s.dev.regs)
    ∧ (∀ (k : Fin 4) (v : W64),
      ∃ t, exec (.staticToneWrite u k false v) s = .next t
        ∧ t.dev.get STM_TFREQ.FTW u k = v.toNat / 2 ^ STM_TFREQ.FTW.lo % 2 ^ STM_TFREQ.FTW.w
        ∧ (t.dev.stm.get u).changes = (s.dev.stm.get u).changes ++
            [(k.val, ⟨t.dev.get STM_TFREQ.FTW u k, s.dev.get STM_TPA.PH u k, s.dev.get STM_TPA.A u k⟩, s.dev.now)])

/-- Hoist targets, pieces, entries, passes and releases (R305, R306, R307, R308). -/
def Obligations.HoistCommandsAct : Prop :=
  ∀ (s : State) (t : Fin 64), s.dev.bus.writes = [] →
    (∀ v : W32, v.getLsbD 31 = true → s.dev.flag BEN_HT_CTL.EN t = false →
      ∃ u, exec (.hoistTargetEnable t v) s = .next u
        ∧ u.dev.get BEN_HT_CTL.RESULT t = (s.dev.wr ⟨.BEN_HT_CTL, t, 0, 0⟩ (v.setWidth 64)).tgtCheck t
        ∧ u.dev.flag BEN_HT_CTL.EN t = ((s.dev.wr ⟨.BEN_HT_CTL, t, 0, 0⟩ (v.setWidth 64)).tgtCheck t == 1)
        ∧ u.dev.get BEN_HT_CTL.KIND t = v.toNat / 2 ^ BEN_HT_CTL.KIND.lo % 2 ^ BEN_HT_CTL.KIND.w
        ∧ u.dev.get BEN_HT_CTL.Q t = v.toNat / 2 ^ BEN_HT_CTL.Q.lo % 2 ^ BEN_HT_CTL.Q.w
        ∧ (u.dev.flag BEN_HT_CTL.EN t = true → u.dev.get BEN_HT_CTL.KIND t = 0 →
            u.dev.get BEN_HT_WP.OFS t = s.dev.get BEN_HT_BASE.OFS t))
    ∧ (∀ v : W32, v.getLsbD 31 = false → s.dev.flag BEN_HT_CTL.EN t = true → s.dev.tgtInUse t = false →
      ∃ u, exec (.hoistTargetEnable t v) s = .next u ∧ u.dev.flag BEN_HT_CTL.EN t = false
        ∧ u.dev.get BEN_HT_CTL.KIND t = s.dev.get BEN_HT_CTL.KIND t)
    ∧ (∀ v : W32, v.getLsbD 31 = false → s.dev.flag BEN_HT_CTL.EN t = true → s.dev.tgtInUse t = true →
      ∃ u, exec (.hoistTargetEnable t v) s = .next u ∧ u.dev.flag BEN_HT_CTL.EN t = true
        ∧ u.dev.get BEN_HT_CTL.RESULT t = 6 ∧ u.dev.ben = s.dev.ben)
    ∧ (s.dev.flag BEN_HT_CTL.EN t = true → s.dev.get BEN_HT_CTL.KIND t = 2 →
      ∃ u, exec (.replayGo t) s = .next u
        ∧ (u.dev.ben.target.get t).passes = (s.dev.ben.target.get t).passes + 1
        ∧ u.dev.get BEN_HT_WP.OFS t
          = if (s.dev.ben.target.get t).passes = 0 then 0 else s.dev.get BEN_HT_WP.OFS t)
    ∧ (∀ (k : Fin 64) (x : Held × Nat × Nat), (s.dev.lanes.skein.get k).piece = some x →
      s.dev.hoistNext = some k.val → (s.dev.lanes.skein.get k).tgt = t.val →
      s.dev.get BEN_HT_CTL.KIND t = 0 → s.dev.flag BEN_HT_CTL.POLICY t = false →
      ∃ u, exec .hoistPiece s = .next u ∧ u.dev.ben.hoistLast = k.val
        ∧ u.dev.get BEN_HT_WP.OFS t
          = (s.dev.get BEN_HT_BASE.OFS t + (s.dev.get BEN_HT_WP.OFS t - s.dev.get BEN_HT_BASE.OFS t + x.2.2)
              % max 1 (s.dev.get BEN_HT_SIZE.OFS t)) % 2 ^ BEN_HT_WP.OFS.w
        ∧ u.dev.ben.bench = s.dev.ben.bench
        ∧ u.dev.ben.quarry
          = (s.dev.ben.quarry.store (s.dev.get BEN_HT_WP.OFS t)
              (((List.range x.2.2).flatMap (fun j => s.dev.storeRead (s.dev.lanes.skein.get k).store
                  ((s.dev.lanes.skein.get k).base + x.1.pos (x.1.sent + j)) 1)).take
                (min x.2.2 (s.dev.get BEN_HT_SIZE.OFS t - (s.dev.get BEN_HT_WP.OFS t - s.dev.get BEN_HT_BASE.OFS t))))).store
              (s.dev.get BEN_HT_BASE.OFS t)
              (((List.range x.2.2).flatMap (fun j => s.dev.storeRead (s.dev.lanes.skein.get k).store
                  ((s.dev.lanes.skein.get k).base + x.1.pos (x.1.sent + j)) 1)).drop
                (min x.2.2 (s.dev.get BEN_HT_SIZE.OFS t - (s.dev.get BEN_HT_WP.OFS t - s.dev.get BEN_HT_BASE.OFS t)))))
    ∧ (∀ (k : Fin 64) (x : Held × Nat × Nat), (s.dev.lanes.skein.get k).piece = some x →
      s.dev.hoistNext = some k.val → (s.dev.lanes.skein.get k).tgt = t.val →
      s.dev.get BEN_HT_CTL.KIND t = 0 → s.dev.flag BEN_HT_CTL.POLICY t = true →
      s.dev.get BEN_HT_SIZE.OFS t < s.dev.ringUsed t + (if x.1.sent = 0 ∧ x.1.ended then x.2.1 else x.2.2) →
      ∃ u, exec .hoistPiece s = .next u ∧ (u.dev.ben.target.get t).stopped = true
        ∧ u.dev.flag BEN_HT_STREAM.STUCK t = decide (s.dev.get BEN_HT_SIZE.OFS t < x.2.1)
        ∧ u.dev.raised s.dev.now 504 ∧ u.dev.get BEN_HT_WP.OFS t = s.dev.get BEN_HT_WP.OFS t
        ∧ u.dev.ben.quarry = s.dev.ben.quarry)
    ∧ (∀ (k : Fin 64) (x : Held × Nat × Nat), (s.dev.lanes.skein.get k).piece = some x →
      s.dev.hoistNext = some k.val → (s.dev.lanes.skein.get k).tgt = t.val →
      s.dev.get BEN_HT_CTL.KIND t = 1 →
      ∃ u, exec .hoistPiece s = .next u
        ∧ (u.dev.ben.target.get t).buf.map Prod.fst = (s.dev.ben.target.get t).buf.map Prod.fst
          ++ (List.range x.2.2).map (fun j => (s.dev.storeRead (s.dev.lanes.skein.get k).store
              ((s.dev.lanes.skein.get k).base + x.1.pos (x.1.sent + j)) 1).headD 0)
        ∧ u.dev.ben.quarry = s.dev.ben.quarry)
    ∧ (∀ e : HoistEntry, (s.dev.ben.target.get t).due.head? = some e →
      ∃ u, exec (.hoistEntry t) s = .next u
        ∧ (u.dev.ben.target.get t).due = (s.dev.ben.target.get t).due.tail
        ∧ (u.dev.ben.target.get t).seq = ((s.dev.ben.target.get t).seq + 1) % 2 ^ 32
        ∧ u.dev.get BEN_HT_CNT_SEG.COUNT t = (s.dev.get BEN_HT_CNT_SEG.COUNT t + 1) % 2 ^ BEN_HT_CNT_SEG.COUNT.w
        ∧ u.dev.que = (s.dev.post (s.dev.get BEN_HT_CTL.Q t) 1 3 16 (e.image t (s.dev.ben.target.get t).seq)).que
        ∧ (e.outcome = 1 → u.dev.raised s.dev.now 506))
    ∧ ((s.dev.ben.target.get t).passEnd = true → (s.dev.ben.target.get t).due = [] →
      ∃ u, exec (.replayDone t) s = .next u
        ∧ (u.dev.ben.target.get t).passes = (s.dev.ben.target.get t).passes - 1
        ∧ (u.dev.ben.target.get t).passEnd = false ∧ u.dev.raised s.dev.now 511
        ∧ u.dev.que = (s.dev.post (s.dev.get BEN_HT_CTL.Q t) 1 3 16
            (HoistEntry.image ⟨0, 0, 0, s.dev.get BEN_HT_WP.OFS t, (s.dev.ben.target.get t).passPoison.toNat⟩ t
              (s.dev.ben.target.get t).seq)).que)
    ∧ (∀ rel : BitVec 48,
      ∃ u, exec (.hoistReleaseWrite t rel) s = .next u
        ∧ u.dev.rd ⟨.BEN_HT_REL, t, 0, 0⟩ = (s.dev.put BEN_HT_REL.OFS rel.toNat t).rd ⟨.BEN_HT_REL, t, 0, 0⟩
        ∧ (u.dev.ben.target.get t).full = ((s.dev.ben.target.get t).full && rel.toNat == s.dev.get BEN_HT_REL.OFS t)
        ∧ ((s.dev.ben.target.get t).stopped = false → (u.dev.ben.target.get t).stopped = false))
    ∧ (∀ (rel : BitVec 48) (k : Fin 64) (x : Held × Nat × Nat), (s.dev.lanes.skein.get k).piece = some x →
      (s.dev.lanes.skein.get k).defined = true → (s.dev.lanes.skein.get k).policy = 2 →
      (s.dev.lanes.skein.get k).tgt = t.val →
      ((s.dev.put BEN_HT_REL.OFS rel.toNat t).updTgt t fun y =>
          { y with full := y.full && rel.toNat == s.dev.get BEN_HT_REL.OFS t }).ringUsed t
        + (if x.1.sent = 0 ∧ x.1.ended then x.2.1 else x.2.2) ≤ s.dev.get BEN_HT_SIZE.OFS t →
      ∃ u, exec (.hoistReleaseWrite t rel) s = .next u ∧ (u.dev.ben.target.get t).stopped = false)

/-- Quarry requests, refresh, errors, retirement and frequency changes (R302, R304, R312, R313, R314, R316, R317,
R319, R320). -/
def Obligations.QuarryCommandsAct : Prop :=
  ∀ (s : State) (c : Fin 16), s.dev.bus.writes = [] →
    (∀ (cls : Fin 4) (read : Bool), s.dev.qryServes c = true → s.dev.ben.freqStart = none →
      (∀ i, i < 64 → s.dev.flag QRY_RRT.PPR_PENDING c i = false) →
      ∃ t, exec (.quarryRequest c cls read 0) s = .next t
        ∧ (t.dev.ben.chan.get c).waiting
          = (s.dev.ben.chan.get c).waiting ++ [(cls.val + 1, read, s.dev.now)]
        ∧ (t.dev.ben.chan.get c).lastReq = s.dev.now ∧ (t.dev.ben.chan.get c).selfRefresh = false)
    ∧ (∀ r : Nat × Bool × Nat, ((s.dev.ben.chan.get c).waiting.find? fun r => r.1 == 3 && r.2.1) = some r →
      s.dev.get BEN_HOST_DEFER.FRAMES ≠ 0 → s.dev.flag BEN_STAT.PANIC = true → s.dev.ben.freqStart = none →
      s.dev.ben.panicAt < r.2.2 →
      ∃ t, exec (.hostDeferExpiry c) s = .next t
        ∧ t.dev.now = max s.dev.now (r.2.2 + s.dev.get BEN_HOST_DEFER.FRAMES)
        ∧ (t.dev.ben.chan.get c).waiting = takeReq (fun r => r.1 == 3 && r.2.1) (s.dev.ben.chan.get c).waiting
        ∧ t.dev.get BEN_CNT_DEFER.COUNT = min (2 ^ BEN_CNT_DEFER.COUNT.w - 1) (s.dev.get BEN_CNT_DEFER.COUNT + 1)
        ∧ t.dev.raised t.dev.now 470)
    ∧ (∀ rank : Fin 8, s.dev.qryServes c = true → (s.dev.ben.chan.get c).selfRefresh = false →
      s.dev.flag BEN_STAT.PANIC = true → s.dev.ben.freqStart = none → s.dev.ben.panicAt ≠ s.dev.now →
      ∃ t, exec (.refreshDue c rank) s = .next t
        ∧ (t.dev.ben.chan.get c).postponed.get rank
          = max ((s.dev.ben.chan.get c).postponed.get rank) (min 4 ((s.dev.ben.chan.get c).postponed.get rank + 1)))
    ∧ (s.dev.flag BEN_QRY_CTL.SCRUB_EN = true → s.dev.flag BEN_QRY_STAT.READY = true →
      s.dev.flag BEN_STAT.PANIC = false → s.dev.ben.panicAt ≠ s.dev.now → s.dev.ben.freqStart = none →
      (s.dev.ben.patrol + 1) * 64 < s.dev.get BEN_QRY_CAP.BYTES →
      ∃ t, exec .patrolScrub s = .next t ∧ t.dev.ben.patrol = s.dev.ben.patrol + 1
        ∧ t.dev.ben.quarry = s.dev.ben.quarry)
    ∧ (∀ (b : BitVec 38) (row : BitVec 27), b.toNat * 64 < benchSize →
      ∃ t, exec (.memoryError false b true row) s = .next t
        ∧ t.dev.get BEN_CNT_UE.COUNT = min (2 ^ BEN_CNT_UE.COUNT.w - 1) (s.dev.get BEN_CNT_UE.COUNT + 1)
        ∧ t.dev.poisoned 0 (b.toNat * 64) 64 = true ∧ t.dev.raised s.dev.now 469
        ∧ t.dev.ben.bench = s.dev.ben.bench)
    ∧ (∀ (b : BitVec 38) (row : BitVec 27), b.toNat * 64 < benchSize →
      ∃ t, exec (.memoryError false b false row) s = .next t
        ∧ t.dev.get BEN_CNT_CE.COUNT = min (2 ^ BEN_CNT_CE.COUNT.w - 1) (s.dev.get BEN_CNT_CE.COUNT + 1)
        ∧ t.dev.ben = s.dev.ben)
    ∧ (∀ i : Nat, (s.dev.ben.chan.get c).copying.head? = some i →
      ∃ t, exec (.rowCopyDone c) s = .next t
        ∧ (t.dev.ben.chan.get c).copying = (s.dev.ben.chan.get c).copying.tail
        ∧ t.dev.flag QRY_RRT.PPR_PENDING c i
          = (s.dev.flag QRY_CSTAT.PPR c || s.dev.flag QRY_RRT.PPR_PENDING c i)
        ∧ t.dev.raised s.dev.now (472 + 2 * c))
    ∧ (s.dev.ben.retired.isSome = true ∨ s.dev.ben.channels ≠ 16 ∨ s.dev.get QRY_CSTAT.STATE c ≠ 2 →
      ∃ t, exec (.channelRetire c) s = .next t ∧ t.dev.get BEN_QRY_RETIRE.STATE = 4
        ∧ t.dev.get BEN_QRY_RETIRE.CHANNEL = c ∧ t.dev.ben = s.dev.ben)
    ∧ (s.dev.ben.retired = none → s.dev.ben.channels = 16 → s.dev.get QRY_CSTAT.STATE c = 2 →
      s.dev.retireBlocked = false →
      ∃ t, exec (.channelRetire c) s = .next t ∧ t.dev.get BEN_QRY_RETIRE.STATE = 2
        ∧ t.dev.ben.retired = some c.val ∧ t.dev.get QRY_CSTAT.STATE c = 3 ∧ t.dev.get BEN_QRY_MIG.ROWS = 0
        ∧ t.dev.get BEN_QRY_CAP.BYTES = 15 * s.dev.ben.cch % 2 ^ BEN_QRY_CAP.BYTES.w
        ∧ t.dev.raised s.dev.now (473 + 2 * c) ∧ t.dev.raised s.dev.now 507)
    ∧ (s.dev.ben.retired = some c.val → s.dev.get QRY_CSTAT.STATE c = 3 → s.dev.flag BEN_STAT.PANIC = false →
      s.dev.ben.panicAt ≠ s.dev.now → s.dev.get BEN_QRY_MIG.ROWS + 64 < s.dev.qryRows →
      ∃ t, exec .migrationBatchDone s = .next t
        ∧ t.dev.get BEN_QRY_MIG.ROWS = (s.dev.get BEN_QRY_MIG.ROWS + 64) % 2 ^ BEN_QRY_MIG.ROWS.w
        ∧ t.dev.ben.journal = s.dev.get BEN_QRY_MIG.ROWS + 64)
    ∧ (s.dev.ben.retired = some c.val → s.dev.get QRY_CSTAT.STATE c = 3 → s.dev.flag BEN_STAT.PANIC = false →
      s.dev.ben.panicAt ≠ s.dev.now → s.dev.qryRows ≤ s.dev.get BEN_QRY_MIG.ROWS + 64 →
      ∃ t, exec .migrationBatchDone s = .next t ∧ t.dev.get BEN_QRY_RETIRE.STATE = 3
        ∧ t.dev.get QRY_CSTAT.STATE c = 4 ∧ t.dev.get BEN_QRY_STAT.IN_SERVICE / 2 ^ c.val % 2 = 0
        ∧ t.dev.pdOn (40 + c) = false ∧ t.dev.raised s.dev.now 508)
    ∧ (s.dev.ben.retired = some c.val → s.dev.get QRY_CSTAT.STATE c ≠ 3 → s.dev.flag BEN_QRY_CTL.EN = false →
      ∃ t, exec .retireClear s = .next t ∧ t.dev.ben.retired = none ∧ t.dev.get BEN_QRY_RETIRE.STATE = 0
        ∧ t.dev.get QRY_CSTAT.STATE c = 0
        ∧ t.dev.get BEN_QRY_CAP.BYTES = s.dev.ben.channels * s.dev.ben.cch % 2 ^ BEN_QRY_CAP.BYTES.w)
    ∧ (∀ p : Fin 4, s.dev.ben.freqStart = none → s.dev.profileOk p = true →
      ∃ t, exec (.freqChangeGo p) s = .next t ∧ t.dev.get BEN_QRY_FREQ.RESULT = 0
        ∧ t.dev.get BEN_QRY_FREQ.PROFILE = p ∧ t.dev.ben.freqWaiting = true ∧ t.dev.ben.freqTarget = p.val)
    ∧ (∀ p : Fin 4, s.dev.ben.freqStart = none → s.dev.profileOk p = false →
      ∃ t, exec (.freqChangeGo p) s = .next t ∧ t.dev.get BEN_QRY_FREQ.RESULT = 4 ∧ t.dev.ben = s.dev.ben)
    ∧ (s.dev.ben.freqWaiting = true → s.dev.ben.freqStart = none → s.dev.flag BEN_STAT.PANIC = false →
      s.dev.ben.panicAt ≠ s.dev.now → (∀ m, m < 16 → (s.dev.ben.chan.get m).waiting = []) →
      ∃ t, exec (.freqChangeBegin none) s = .next t ∧ t.dev.ben.freqStart = some s.dev.now
        ∧ t.dev.get BEN_QRY_FREQ.RESULT = 1 ∧ t.dev.flag BEN_QRY_STAT.FREQ_BUSY = true)
    ∧ (∀ f : Nat, s.dev.ben.freqStart = some f →
      ∃ t, exec .freqDone s = .next t ∧ t.dev.now = max s.dev.now (f + 2714)
        ∧ t.dev.get BEN_QRY_STAT.PROFILE = s.dev.ben.freqTarget % 2 ^ BEN_QRY_STAT.PROFILE.w
        ∧ t.dev.get BEN_QRY_FREQ.RESULT = 2 ∧ t.dev.flag BEN_QRY_STAT.FREQ_BUSY = false
        ∧ t.dev.ben.freqStart = none ∧ t.dev.raised t.dev.now 509)
    ∧ (s.dev.qryServes c = true → (s.dev.ben.chan.get c).selfRefresh = false →
      (s.dev.ben.chan.get c).waiting = [] → s.dev.ben.freqStart = none →
      ∃ t, exec (.selfRefreshEntry c) s = .next t
        ∧ t.dev.now = max s.dev.now ((s.dev.ben.chan.get c).lastReq + 12500)
        ∧ (t.dev.ben.chan.get c).selfRefresh = true)

/-- Accesses of registers over BAR0 (R14, R16, R17, R18, R36, R38, R110, R462). -/
def Obligations.BarAccessesAct : Prop :=
  ∀ (s : State) (addr : Nat), s.dev.bus.writes = [] →
    (∀ (v : W32) (x : Reg × Bool), regAt addr = some x → s.dev.hostMode = 1 → addr % 4 = 0 → x.2 = false →
      x.1.g ∈ [.TRG_MSG, .REC_REQ_PRE, .REC_REQ_REPEAT, .EVI_IDLY, .EVI_ISTAT, .BEN_THR, .BEN_STAGE_CTL,
        .BEN_HOST_DEFER, .EVR_CFG, .XFE_HOP_LIMIT, .SYN_TRIM, .HK_THERM] →
      ∃ t, exec (.registerWrite [⟨.host, addr, 4, v.setWidth 64⟩]) s = .next t
        ∧ t.dev.regs = s.dev.regs ∧ t.dev.now = s.dev.now ∧ t.dev.frameEnd.now = s.dev.now + 1
        ∧ t.dev.frameEnd.rd x.1 = x.1.coded (s.dev.rd x.1) (v.setWidth 64) &&& x.1.mask
        ∧ (∀ r : Reg, r ≠ x.1 → t.dev.frameEnd.rd r = s.dev.rd r))
    ∧ (∀ (v : W32) (x : Reg × Bool), regAt addr = some x → s.dev.hostMode = 1 → addr % 4 = 0 → x.2 = false →
      x.1.g.fam.wide = true →
      ∃ t, exec (.lowHalfWrite .host addr v) s = .next t ∧ t.dev.regs = s.dev.regs
        ∧ t.dev.frameEnd.rd x.1 = s.dev.rd x.1
        ∧ (t.dev.frameEnd.bus.staging.find? fun y => y.1 == (Rq.host, x.1)) = some ((Rq.host, x.1), v))
    ∧ (∀ (v : W32) (x : Reg × Bool), regAt addr = some x → s.dev.hostMode = 1 → addr % 4 = 0 → x.2 = true →
      x.1.g ∈ [.REC_REQ_POST, .REC_SKN_BASE, .REC_SKN_SIZE, .STM_PLAY_OFS, .HK_WAKE_TICK] →
      ∃ t, exec (.highHalfWrite .host addr v) s = .next t
        ∧ t.dev.frameEnd.rd x.1 = x.1.coded (s.dev.rd x.1)
            ((v ++ (((s.dev.bus.staging.find? fun y => y.1 == (Rq.host, x.1)).map Prod.snd).getD
              ((s.dev.rd x.1).setWidth 32))).setWidth 64) &&& x.1.mask
        ∧ (t.dev.frameEnd.bus.staging.find? fun y => y.1 == (Rq.host, x.1)) = none)
    ∧ (∀ x : Reg × Bool, regAt addr = some x → s.dev.hostMode = 1 → x.2 = false → x.1.g.fam.wide = true →
      ∃ t, exec (.lowHalfRead .host addr) s = .next t
        ∧ t.dev.bus.rdata = ((s.dev.view x.1).setWidth 32).setWidth 64
        ∧ (t.dev.bus.snaps.find? fun y => y.1 == (Rq.host, x.1))
          = some ((Rq.host, x.1), (s.dev.view x.1 >>> 32).setWidth 32)
        ∧ t.dev.regs = s.dev.regs)
    ∧ (∀ x : Reg × Bool, regAt addr = some x → s.dev.hostMode = 1 → x.2 = true →
      ∃ t, exec (.highHalfRead .host addr) s = .next t
        ∧ t.dev.bus.rdata = (((s.dev.bus.snaps.find? fun y => y.1 == (Rq.host, x.1)).map Prod.snd).getD
            ((s.dev.view x.1 >>> 32).setWidth 32)).setWidth 64
        ∧ (t.dev.bus.snaps.find? fun y => y.1 == (Rq.host, x.1)) = none ∧ t.dev.regs = s.dev.regs)
    ∧ (∀ (inc : W64) (x : Reg × Bool), regAt addr = some x → s.dev.hostMode = 1 → x.2 = false →
      x.1.g.fam.bits (· == .rc) ≠ 0 →
      ∃ t, exec (.rcRead .host addr inc) s = .next t
        ∧ t.dev.bus.rdata = ((s.dev.view x.1).setWidth 32).setWidth 64
        ∧ t.dev.rd x.1 = ((s.dev.rd x.1 &&& ~~~ x.1.g.fam.bits (· == .rc)) ||| (inc &&& x.1.g.fam.bits (· == .rc)))
            &&& x.1.mask)
    ∧ (∀ (write : Bool) (size : Nat), s.dev.hostMode ≠ 0 → ¬ ((size = 4 ∨ size = 8) ∧ addr % size = 0) →
      ∃ t, exec (.bar0BadsizeAccess write addr size) s = .next t
        ∧ t.dev.get GLB_ACC_ERR.BADSIZE
          = min (2 ^ GLB_ACC_ERR.BADSIZE.w - 1) (s.dev.get GLB_ACC_ERR.BADSIZE + 1)
        ∧ t.dev.bus = { s.dev.bus with rdata := if write then s.dev.bus.rdata else 0 })
    ∧ (∀ data : W64, s.dev.hostMode = 1 → addr % 4 = 0 → s.dev.place addr = .none →
      ∃ t, exec (.bar0UnmappedAccess false addr false data) s = .next t ∧ t.dev.bus.rdata = 0
        ∧ t.dev.get GLB_ACC_ERR.UNMAPPED
          = min (2 ^ GLB_ACC_ERR.UNMAPPED.w - 1) (s.dev.get GLB_ACC_ERR.UNMAPPED + 1))
    ∧ (∀ data : W64, s.dev.hostMode = 1 → addr % 8 = 0 → s.dev.place addr = .none → s.dev.place (addr + 4) = .none →
      ∃ t, exec (.bar0UnmappedAccess true addr true data) s = .next t
        ∧ t.dev.frameEnd.get GLB_ACC_ERR.UNMAPPED
          = min (2 ^ GLB_ACC_ERR.UNMAPPED.w - 1) (s.dev.get GLB_ACC_ERR.UNMAPPED + 2)
        ∧ s.dev.keepsRegs t.dev.frameEnd [.GLB_ACC_ERR, .GLB_CNT_SAT])
    ∧ (s.dev.hostMode = 1 → addr = 0x200010 →
      ∃ t, exec (.tbNow0Read .host) s = .next t ∧ t.dev.tb.nowSeq = s.dev.tb.nowSeq + 1
        ∧ t.dev.bus.rdata = ((s.dev.view ⟨.TB_NOW, 0, 0, 0⟩).setWidth 32).setWidth 64
        ∧ (∀ w, w ∈ [1, 2, 3] → (t.dev.bus.snaps.find? fun y => y.1 == (Rq.host, (⟨.TB_NOW, w, 0, 0⟩ : Reg)))
          = some ((Rq.host, ⟨.TB_NOW, w, 0, 0⟩), (s.dev.view ⟨.TB_NOW, w, 0, 0⟩).setWidth 32)))
    ∧ (∀ x : Reg × Bool, regAt addr = some x → s.dev.hostMode = 1 → x.2 = false → x.1.timeWord 0 ≠ none →
      x.1.timeWord 0 ≠ some x.1 →
      ∃ t, exec (.snapshotWordRead .host addr) s = .next t
        ∧ t.dev.bus.rdata = (((s.dev.bus.snaps.find? fun y => y.1 == (Rq.host, x.1)).map Prod.snd).getD
            ((s.dev.view x.1).setWidth 32)).setWidth 64
        ∧ (t.dev.bus.snaps.find? fun y => y.1 == (Rq.host, x.1)) = none ∧ t.dev.regs = s.dev.regs)
    ∧ (∀ (e : Fin 640) (f : Nat), (s.dev.evr.hold.get e).until_ = some f →
      (s.dev.evr.hold.get e).occurred = true →
      ∃ t, exec (.holdoffExpiry e) s = .next t ∧ t.dev.now = max s.dev.now (f + 1) ∧ t.dev.raised t.dev.now e)

/-- The link, the apertures, command queues and the event router (R324, R326, R327, R333, R336, R337, R338, R344,
R345). -/
def Obligations.LinkCommandAndEventCommandsAct : Prop :=
  ∀ (s : State) (q : Fin 4096), s.dev.bus.writes = [] →
    (∀ (rate : Fin 6) (width : Fin 5), s.dev.linkPowered = true → s.dev.link.up = false →
      ∃ t, exec (.linkUp rate width) s = .next t
        ∧ t.dev.link = { up := true, rate := rate, width := width } ∧ t.dev.raised s.dev.now 512)
    ∧ (s.dev.link.up = true →
      ∃ t, exec .linkDown s = .next t ∧ t.dev.link = {} ∧ t.dev.raised s.dev.now 513)
    ∧ (∀ (rate : Fin 6) (width : Fin 5), s.dev.link.up = true →
      ¬ (s.dev.link.rate = rate.val ∧ s.dev.link.width = width.val) →
      ∃ t, exec (.linkChange rate width) s = .next t
        ∧ t.dev.link = { s.dev.link with rate := rate, width := width } ∧ t.dev.raised s.dev.now 514)
    ∧ (∀ (x : BitVec 36) (len : Fin 4097), s.dev.hostMode = 1 → (s.dev.aperture x.toNat).1 < 2 →
      s.dev.inSpace (s.dev.aperture x.toNat).1 (s.dev.aperture x.toNat).2 len = true →
      ∃ t, exec (.apertureRead x len) s = .next t
        ∧ t.dev.link.rbytes = s.dev.storeRead (s.dev.aperture x.toNat).1 (s.dev.aperture x.toNat).2 len
        ∧ t.dev.link.rpoison
          = (s.dev.poisoned (s.dev.aperture x.toNat).1 (s.dev.aperture x.toNat).2 len
              && s.dev.flag QUE_APT_CTL.POISON_EP)
        ∧ t.dev.get QUE_CNT_APT.POISON = min (2 ^ QUE_CNT_APT.POISON.w - 1) (s.dev.get QUE_CNT_APT.POISON
            + (s.dev.poisoned (s.dev.aperture x.toNat).1 (s.dev.aperture x.toNat).2 len).toNat))
    ∧ (∀ (x : BitVec 36) (len : Fin 4097), s.dev.hostMode = 1 →
      s.dev.inSpace (s.dev.aperture x.toNat).1 (s.dev.aperture x.toNat).2 len = false →
      ∃ t, exec (.apertureRead x len) s = .next t ∧ t.dev.link.rbytes = List.replicate len 0
        ∧ t.dev.get QUE_CNT_APT.OOR = min (2 ^ QUE_CNT_APT.OOR.w - 1) (s.dev.get QUE_CNT_APT.OOR + 1)
        ∧ t.dev.raised s.dev.now 519)
    ∧ (∀ (x : BitVec 36) (data : List Byte), s.dev.hostMode = 1 → (s.dev.aperture x.toNat).1 = 0 →
      (s.dev.aperture x.toNat).2 + data.length ≤ benchSize →
      ∃ t, exec (.apertureWrite x data) s = .next t
        ∧ t.dev.ben.bench = s.dev.ben.bench.store (s.dev.aperture x.toNat).2 data
        ∧ t.dev.ben.quarry = s.dev.ben.quarry ∧ t.dev.regs = s.dev.regs)
    ∧ (∀ (x : BitVec 36) (data : List Byte), s.dev.hostMode = 1 →
      s.dev.inSpace (s.dev.aperture x.toNat).1 (s.dev.aperture x.toNat).2 data.length = false →
      ∃ t, exec (.apertureWrite x data) s = .next t ∧ t.dev.ben = s.dev.ben ∧ t.dev.tal = s.dev.tal
        ∧ t.dev.get QUE_CNT_APT.OOR = min (2 ^ QUE_CNT_APT.OOR.w - 1) (s.dev.get QUE_CNT_APT.OOR + 1)
        ∧ t.dev.raised s.dev.now 519)
    ∧ (∀ e : CmdEntry, (s.dev.que.q.get q).cmds.head? = some e → s.dev.hostMode = 1 → cmdOp e.line = 0 →
      s.dev.cmdBad e.line = false →
      ∃ t, exec (.commandNop q) s = .next t
        ∧ t.dev.now = max s.dev.now ((s.dev.que.q.get q).firstFrame e.frame)
        ∧ (t.dev.que.q.get q).cmds = (s.dev.que.q.get q).cmds.tail
        ∧ t.dev.get QUE_IDX.CONS q = (s.dev.get QUE_IDX.CONS q + 1) % (2 * s.dev.qN q) % 2 ^ QUE_IDX.CONS.w
        ∧ t.dev.que.items = insertItem
            ⟨e.line.w0.toNat / 2 ^ 16 % 2 ^ 12, 1, 0, 400 + q, t.dev.now,
              padTo 32 (leBytes (s.dev.stamp (s.dev.que.q.get q).seq t.dev.now 0).toNat 16
                ++ leBytes (e.line.w0.toNat / 2 ^ 32 * 2 ^ 32 + q * 2 ^ 20) 8),
              some (q.val, (s.dev.get QUE_IDX.CONS q + 1) % (2 * s.dev.qN q))⟩ s.dev.que.items
        ∧ s.dev.keepsRegs t.dev [.QUE_IDX])
    ∧ (∀ e : CmdEntry, (s.dev.que.q.get q).cmds.head? = some e → s.dev.hostMode = 1 → cmdOp e.line ≤ 3 →
      s.dev.cmdBad e.line = true →
      ∃ t, exec (if cmdOp e.line = 0 then .commandNop q else if cmdOp e.line = 1 then .commandWrite q
          else if cmdOp e.line = 2 then .commandRead q else .commandWriteAt q) s = .next t
        ∧ (t.dev.que.q.get q).cmds = (s.dev.que.q.get q).cmds.tail
        ∧ t.dev.que.items = insertItem
            ⟨e.line.w0.toNat / 2 ^ 16 % 2 ^ 12, 1, 0, 400 + q, t.dev.now,
              padTo 32 (leBytes (s.dev.stamp (s.dev.que.q.get q).seq t.dev.now 0).toNat 16
                ++ leBytes (e.line.w0.toNat / 2 ^ 32 * 2 ^ 32 + q * 2 ^ 20 + 1) 8),
              some (q.val, (s.dev.get QUE_IDX.CONS q + 1) % (2 * s.dev.qN q))⟩ s.dev.que.items
        ∧ s.dev.keepsRegs t.dev [.QUE_IDX])
    ∧ (∀ (v : Fin 640) (e : CmdEntry), (s.dev.que.q.get q).cmds.head? = some e → s.dev.hostMode = 1 →
      cmdOp e.line = 1 → s.dev.cmdBad e.line = false →
      ((cmdSlots e.line).take (cmdCount e.line)).map slotOfs = [0xf01000 + 4 * v.val] →
      ∃ t, exec (.commandWrite q) s = .next t
        ∧ t.dev.now = max s.dev.now ((s.dev.que.q.get q).firstFrame e.frame)
        ∧ (t.dev.que.q.get q).cmds = (s.dev.que.q.get q).cmds.tail
        ∧ t.dev.frameEnd.rd ⟨.EVR_CFG, v, 0, 0⟩ = slotVal e.line.w2 &&& Reg.mask ⟨.EVR_CFG, v, 0, 0⟩
        ∧ s.dev.keepsRegs t.dev [.QUE_IDX] ∧ s.dev.keepsRegs t.dev.frameEnd [.QUE_IDX, .EVR_CFG])
    ∧ (∀ (v : Fin 640) (e : CmdEntry), (s.dev.que.q.get q).cmds.head? = some e → s.dev.hostMode = 1 →
      cmdOp e.line = 2 → s.dev.cmdBad e.line = false →
      ((cmdSlots e.line).take (cmdCount e.line)).map slotOfs = [0xf01000 + 4 * v.val] →
      ∃ t, exec (.commandRead q) s = .next t
        ∧ (t.dev.que.q.get q).cmds = (s.dev.que.q.get q).cmds.tail
        ∧ t.dev.que.items = insertItem
            ⟨e.line.w0.toNat / 2 ^ 16 % 2 ^ 12, 1, 0, 400 + q, t.dev.now,
              padTo 32 (leBytes (s.dev.stamp (s.dev.que.q.get q).seq t.dev.now 0).toNat 16
                ++ leBytes (e.line.w0.toNat / 2 ^ 32 * 2 ^ 32 + q * 2 ^ 20) 8
                ++ leBytes (((s.dev.advanceTo t.dev.now).view ⟨.EVR_CFG, v, 0, 0⟩).toNat % 2 ^ 32) 4),
              some (q.val, (s.dev.get QUE_IDX.CONS q + 1) % (2 * s.dev.qN q))⟩ s.dev.que.items
        ∧ s.dev.keepsRegs t.dev [.QUE_IDX])
    ∧ (∀ (v : Fin 640) (k : Nat) (e : CmdEntry), (s.dev.que.q.get q).cmds.head? = some e → s.dev.hostMode = 1 →
      cmdOp e.line = 3 → s.dev.cmdBad e.line = false →
      ((cmdSlots e.line).take (cmdCount e.line)).map slotOfs = [0xf01000 + 4 * v.val] →
      (s.dev.advanceTo ((s.dev.que.q.get q).firstFrame e.frame)).frameOf (e.line.w6.toNat % 256) e.line.w1.toNat
        = some k →
      ∃ t, exec (.commandWriteAt q) s = .next t
        ∧ t.dev.now = max (max s.dev.now ((s.dev.que.q.get q).firstFrame e.frame)) k
        ∧ (t.dev.que.q.get q).cmds = (s.dev.que.q.get q).cmds.tail
        ∧ t.dev.frameEnd.rd ⟨.EVR_CFG, v, 0, 0⟩ = slotVal e.line.w2 &&& Reg.mask ⟨.EVR_CFG, v, 0, 0⟩
        ∧ s.dev.keepsRegs t.dev [.QUE_IDX] ∧ s.dev.keepsRegs t.dev.frameEnd [.QUE_IDX, .EVR_CFG])
    ∧ (∀ e : CmdEntry, (s.dev.que.q.get q).cmds.head? = some e → s.dev.hostMode = 1 → cmdOp e.line = 3 →
      s.dev.cmdBad e.line = false →
      (s.dev.advanceTo ((s.dev.que.q.get q).firstFrame e.frame)).frameOf (e.line.w6.toNat % 256) e.line.w1.toNat
        = none →
      ∃ t, exec (.commandWriteAt q) s = .next t
        ∧ (t.dev.que.q.get q).cmds = (s.dev.que.q.get q).cmds.tail
        ∧ t.dev.que.items = insertItem
            ⟨e.line.w0.toNat / 2 ^ 16 % 2 ^ 12, 1, 0, 400 + q, t.dev.now,
              padTo 32 (leBytes (s.dev.stamp (s.dev.que.q.get q).seq t.dev.now 0).toNat 16
                ++ leBytes (e.line.w0.toNat / 2 ^ 32 * 2 ^ 32 + q * 2 ^ 20 + 2) 8),
              some (q.val, (s.dev.get QUE_IDX.CONS q + 1) % (2 * s.dev.qN q))⟩ s.dev.que.items
        ∧ s.dev.keepsRegs t.dev [.QUE_IDX])
    ∧ (∀ (e : Fin 640) (x : Nat × Nat), (s.dev.evr.arriving.find? fun x => x.2 == e.val) = some x →
      ∃ t, exec (.eventRaised e) s = .next t ∧ t.dev.now = max s.dev.now x.1
        ∧ t.dev.get EVR_PEND.PEND (e / 32) / 2 ^ (e.val % 32) % 2 = 1
        ∧ (s.dev.flag EVR_CFG.MSI_EN e = true → s.dev.que.msix = true →
            (t.dev.que.vec.get (s.dev.get EVR_CFG.VEC e)).outstanding = true)
        ∧ (s.dev.flag EVR_CFG.LOG_EN e = true → e.val ≠ 521 → s.dev.evr.fifo.length < 4096 →
            t.dev.evr.fifo = s.dev.evr.fifo ++ [⟨s.dev.get EVR_CFG.LOG_Q e, 4, 0, 6000, t.dev.now,
              leBytes (s.dev.stamp s.dev.evr.seq x.1 0).toNat 16 ++ leBytes (s.dev.evr.lost * 2 ^ 16 + e) 8
                ++ leBytes 0 8, none⟩]))
    ∧ (∀ x : Item, s.dev.evr.fifo.head? = some x → s.dev.evr.fifo.tail = [] → x.q = q.val → x.after = none →
      s.dev.get QUE_STAT.STATE q = 2 →
      itemFits x.typ x.fmt (s.dev.get QUE_CFG.TYPE q) (s.dev.get QUE_CFG.FMT q) = true →
      x.bytes.length ≤ s.dev.qEsize q → s.dev.qUnreachable q = false → s.dev.qFill q < s.dev.qN q →
      ∃ t, exec .eventLogWrite s = .next t ∧ t.dev.evr.fifo = []
        ∧ t.dev.get QUE_IDX.PROD q = (s.dev.get QUE_IDX.PROD q + 1) % (2 * s.dev.qN q) % 2 ^ QUE_IDX.PROD.w
        ∧ t.dev.get QUE_IDX.CONS q = s.dev.get QUE_IDX.CONS q)

/-- Queues: allocation, enabling, doorbells, items and interrupts (R328, R330, R331, R332, R333, R339, R340, R341,
R342, R343, R347). -/
def Obligations.QueueCommandsAct : Prop :=
  ∀ (s : State) (q : Fin 4096) (v : Fin 2048), s.dev.bus.writes = [] →
    (∃ t, exec (.queueAlloc false q) s = .next t
        ∧ t.dev.flag QUE_ALLOC_STAT.HKQ = decide (q.val < 16)
        ∧ t.dev.flag QUE_ALLOC_STAT.TAKEN = decide (16 ≤ q.val ∧ s.dev.get QUE_STAT.STATE q ≠ 0)
        ∧ (16 ≤ q.val → s.dev.get QUE_STAT.STATE q = 0 →
            t.dev.get QUE_ALLOC_STAT.Q = q ∧ t.dev.get QUE_STAT.STATE q = 1))
    ∧ (∃ t, exec (.queueAlloc true q) s = .next t
        ∧ (∀ p, s.dev.freeQueue = some p → t.dev.get QUE_ALLOC_STAT.Q = p ∧ t.dev.get QUE_STAT.STATE p = 1
            ∧ t.dev.flag QUE_ALLOC_STAT.NO_QUEUE = false)
        ∧ (s.dev.freeQueue = none → t.dev.flag QUE_ALLOC_STAT.NO_QUEUE = true ∧ t.dev.raised s.dev.now 522))
    ∧ (16 ≤ q.val → s.dev.get QUE_STAT.STATE q = 1 ∨ s.dev.get QUE_STAT.STATE q = 3 →
      ∃ t, exec (.queueFree q) s = .next t ∧ t.dev.get QUE_STAT.STATE q = 0
        ∧ t.dev.get QUE_BASE.ADDR q = 0 ∧ t.dev.flag QUE_CTL.EN q = false ∧ t.dev.flag QUE_INT.EN q = false)
    ∧ (s.dev.flag QUE_CTL.EN q = false → s.dev.queueResult q = 1 →
      ∃ t, exec (.queueEnable q) s = .next t ∧ t.dev.now = s.dev.now + 1 ∧ t.dev.flag QUE_CTL.EN q = true ∧ t.dev.get QUE_STAT.STATE q = 2
        ∧ t.dev.get QUE_STAT.RESULT q = 1 ∧ t.dev.get QUE_IDX.PROD q = 0 ∧ t.dev.get QUE_IDX.CONS q = 0
        ∧ (t.dev.que.q.get q).cmds = [])
    ∧ (s.dev.flag QUE_CTL.EN q = false → s.dev.queueResult q ≠ 1 →
      ∃ t, exec (.queueEnable q) s = .next t ∧ t.dev.flag QUE_CTL.EN q = false
        ∧ t.dev.get QUE_STAT.RESULT q = s.dev.queueResult q
        ∧ t.dev.get QUE_STAT.STATE q = s.dev.get QUE_STAT.STATE q ∧ t.dev.que = s.dev.que)
    ∧ (s.dev.flag QUE_CTL.EN q = true →
      ∃ t, exec (.queueDisable q) s = .next t ∧ t.dev.flag QUE_CTL.EN q = false ∧ (t.dev.que.q.get q).cmds = []
        ∧ t.dev.get QUE_STAT.STATE q = (if 2 ≤ s.dev.get QUE_STAT.STATE q then 1 else s.dev.get QUE_STAT.STATE q))
    ∧ (∀ idx : BitVec 21, 16 ≤ q.val → s.dev.get QUE_STAT.STATE q = 2 → idx.toNat < 2 * s.dev.qN q →
      s.dev.get QUE_CFG.TYPE q = 0 →
      s.dev.qFill q ≤ (idx.toNat + 2 * s.dev.qN q - s.dev.get QUE_IDX.CONS q % (2 * s.dev.qN q)) % (2 * s.dev.qN q) →
      (idx.toNat + 2 * s.dev.qN q - s.dev.get QUE_IDX.CONS q % (2 * s.dev.qN q)) % (2 * s.dev.qN q) ≤ s.dev.qN q →
      ∃ t, exec (.doorbell q idx) s = .next t
        ∧ t.dev.get QUE_IDX.PROD q = idx.toNat % 2 ^ QUE_IDX.PROD.w
        ∧ t.dev.get QUE_IDX.CONS q = s.dev.get QUE_IDX.CONS q)
    ∧ (∀ idx : BitVec 21, 16 ≤ q.val → s.dev.get QUE_STAT.STATE q = 2 → idx.toNat < 2 * s.dev.qN q →
      s.dev.get QUE_CFG.TYPE q ≠ 0 →
      (idx.toNat + 2 * s.dev.qN q - s.dev.get QUE_IDX.CONS q % (2 * s.dev.qN q)) % (2 * s.dev.qN q) ≤ s.dev.qFill q →
      ∃ t, exec (.doorbell q idx) s = .next t
        ∧ t.dev.get QUE_IDX.CONS q = idx.toNat % 2 ^ QUE_IDX.CONS.w
        ∧ t.dev.get QUE_IDX.PROD q = s.dev.get QUE_IDX.PROD q)
    ∧ (∀ idx : BitVec 21, 16 ≤ q.val → s.dev.get QUE_STAT.STATE q ≠ 2 ∨ 2 * s.dev.qN q ≤ idx.toNat →
      ∃ t, exec (.doorbell q idx) s = .next t
        ∧ t.dev.get QUE_G_BADDB.COUNT = min (2 ^ QUE_G_BADDB.COUNT.w - 1) (s.dev.get QUE_G_BADDB.COUNT + 1)
        ∧ t.dev.raised s.dev.now 516 ∧ t.dev.get QUE_IDX.PROD q = s.dev.get QUE_IDX.PROD q
        ∧ t.dev.get QUE_IDX.CONS q = s.dev.get QUE_IDX.CONS q)
    ∧ (∀ entry : Line, s.dev.get QUE_STAT.STATE q = 2 → s.dev.get QUE_CFG.TYPE q = 0 → s.dev.qUnreachable q = false →
      (s.dev.que.q.get q).fetched ≠ s.dev.get QUE_IDX.PROD q →
      ∃ t, exec (.commandFetch q .ok entry) s = .next t
        ∧ (t.dev.que.q.get q).fetched = ((s.dev.que.q.get q).fetched + 1) % (2 * s.dev.qN q)
        ∧ (t.dev.que.q.get q).cmds = (s.dev.que.q.get q).cmds ++
            [⟨if s.dev.flag QUE_BASE.BENCH q = true then s.dev.ben.bench.line (s.dev.get QUE_BASE.ADDR q * 4096
                + (s.dev.que.q.get q).fetched % s.dev.qN q * 64) else entry, s.dev.now⟩]
        ∧ t.dev.regs = s.dev.regs)
    ∧ (∀ (entry : Line) (ending : ReadEnd), ending ≠ .ok → s.dev.get QUE_STAT.STATE q = 2 →
      s.dev.get QUE_CFG.TYPE q = 0 → (s.dev.que.q.get q).fetched ≠ s.dev.get QUE_IDX.PROD q →
      ∃ t, exec (.commandFetch q ending entry) s = .next t ∧ t.dev.get QUE_STAT.STATE q = 3
        ∧ t.dev.get QUE_STAT.ERR q
          = (match ending with | .ok => 0 | .ur => 1 | .ca => 2 | .timeout => 3 | .poison => 4)
        ∧ t.dev.raised s.dev.now 515 ∧ t.dev.que = s.dev.que)
    ∧ (∀ x : Item × List Item, takeItem q s.dev.que.items = some x → x.1.after = none →
      s.dev.get QUE_STAT.STATE q = 2 →
      itemFits x.1.typ x.1.fmt (s.dev.get QUE_CFG.TYPE q) (s.dev.get QUE_CFG.FMT q) = true →
      x.1.bytes.length ≤ s.dev.qEsize q → s.dev.qUnreachable q = false → s.dev.qFill q < s.dev.qN q →
      s.dev.flag QUE_BASE.BENCH q = true →
      ∃ t, exec (.queueItemWrite q) s = .next t ∧ t.dev.que.items = x.2
        ∧ t.dev.get QUE_IDX.PROD q = (s.dev.get QUE_IDX.PROD q + 1) % (2 * s.dev.qN q) % 2 ^ QUE_IDX.PROD.w
        ∧ t.dev.ben.bench = s.dev.ben.bench.store (s.dev.get QUE_BASE.ADDR q * 4096
            + s.dev.get QUE_IDX.PROD q % s.dev.qN q * s.dev.qEsize q) (padTo (s.dev.qEsize q) x.1.bytes))
    ∧ (∀ x : Item × List Item, takeItem q s.dev.que.items = some x → x.1.after = none →
      s.dev.get QUE_STAT.STATE q ≠ 2 → s.dev.spoilOf q = none →
      ∃ t, exec (.queueItemWrite q) s = .next t ∧ t.dev.que.items = x.2
        ∧ t.dev.get QUE_CNT.LOST q = min (2 ^ QUE_CNT.LOST.w - 1) (s.dev.get QUE_CNT.LOST q + 1)
        ∧ t.dev.get QUE_G_LOST.COUNT = min (2 ^ QUE_G_LOST.COUNT.w - 1) (s.dev.get QUE_G_LOST.COUNT + 1)
        ∧ t.dev.get QUE_IDX.PROD q = s.dev.get QUE_IDX.PROD q ∧ t.dev.que.hostMem = s.dev.que.hostMem)
    ∧ (∀ f : Nat, (s.dev.que.q.get q).first = some f → (s.dev.que.q.get q).recheck = none →
      s.dev.flag QUE_INT.EN q = true → s.dev.get QUE_INT.FR q ≠ 0 → s.dev.que.msix = true →
      ∃ t, exec (.interruptTimeout q) s = .next t ∧ t.dev.now = max s.dev.now (f + 16 * s.dev.get QUE_INT.FR q)
        ∧ (t.dev.que.vec.get (s.dev.get QUE_INT.VEC q)).outstanding = true
        ∧ (t.dev.que.q.get q).since = 0 ∧ (t.dev.que.q.get q).first = none)
    ∧ (∀ w : W32,
      ∃ t, exec (.queIntWrite q w) s = .next t ∧ (t.dev.que.q.get q).recheck = some (s.dev.now + 1)
        ∧ t.dev.rd ⟨.QUE_INT, q, 0, 0⟩ = w.setWidth 64 &&& Reg.mask ⟨.QUE_INT, q, 0, 0⟩)
    ∧ ((s.dev.que.vec.get v).outstanding = true → (s.dev.que.vec.get v).unmasked = true →
      (s.dev.que.vec.get v).lastSent = none → s.dev.link.up = true →
      ∃ t, exec (.msixMessage v) s = .next t
        ∧ t.dev.que.vec.get v = { s.dev.que.vec.get v with outstanding := false, lastSent := some s.dev.now }
        ∧ t.dev.que.hostMem = s.dev.que.hostMem.store (s.dev.que.vec.get v).addr.toNat
            (leBytes (s.dev.que.vec.get v).data.toNat 4))
    ∧ (∀ (a : W64) (w : W32), (s.dev.que.vec.get v).outstanding = false →
      ∃ t, exec (.vectorUnmask v a w) s = .next t
        ∧ t.dev.que.vec.get v = { s.dev.que.vec.get v with addr := a, data := w, unmasked := true })
    ∧ (∀ f : Nat, (s.dev.que.vec.get v).lastSent = some f → (s.dev.que.vec.get v).outstanding = true →
      (s.dev.que.vec.get v).unmasked = true → s.dev.link.up = true →
      ∃ t, exec (.modFrExpiry v) s = .next t ∧ t.dev.now = max s.dev.now (f + s.dev.get EVR_CTL.MOD_FR)
        ∧ t.dev.que.vec.get v = { s.dev.que.vec.get v with outstanding := false, lastSent := some t.dev.now })

/-- Transfer channels start, fetch, move data, end and halt (R349, R350, R352, R353, R354, R356, R357, R359, R360,
R363, R365, R366). -/
def Obligations.TransferCommandsAct : Prop :=
  ∀ (s : State) (c : Fin 64), s.dev.bus.writes = [] →
    (∀ l : Line, l = ⟨s.dev.rd ⟨.XFE_CFG, c, 0, 0⟩, s.dev.rd ⟨.XFE_SRC, c, 0, 0⟩, s.dev.rd ⟨.XFE_DST, c, 0, 0⟩,
        s.dev.rd ⟨.XFE_COUNT, c, 0, 0⟩, 0, 0, 0, 0⟩ →
      s.dev.flag XFE_CTL.EN c = true → s.dev.xferBusy c = false →
      s.dev.get XFE_CTL.MODE c = 0 ∨ s.dev.get XFE_CTL.MODE c = 3 → s.dev.descCheckResult l = 0 → descCount l ≠ 0 →
      ∃ t, exec (.xferGo c) s = .next t ∧ t.dev.get XFE_STAT.STATE c = 2 ∧ t.dev.get XFE_HOPS.HOPS c = 1
        ∧ (t.dev.xfe.chan.get c).phase = .data ∧ (t.dev.xfe.chan.get c).desc = l ∧ (t.dev.xfe.chan.get c).pos = 0
        ∧ t.dev.bitOf XFE_G_BUSY.CH c = true)
    ∧ (s.dev.flag XFE_CTL.EN c = true → s.dev.xferBusy c = false →
      s.dev.get XFE_CTL.MODE c = 1 ∨ s.dev.get XFE_CTL.MODE c = 2 →
      ∃ t, exec (.xferGo c) s = .next t ∧ t.dev.get XFE_STAT.STATE c = 2 ∧ t.dev.get XFE_HOPS.HOPS c = 1
        ∧ (t.dev.xfe.chan.get c).phase = .fetch
        ∧ (t.dev.xfe.chan.get c).addr = (s.dev.rd ⟨.XFE_DPTR, c, 0, 0⟩).toNat
        ∧ (t.dev.xfe.chan.get c).mode = s.dev.get XFE_CTL.MODE c)
    ∧ (s.dev.flag XFE_CTL.EN c = false ∨ s.dev.xferBusy c = true →
      ∃ t, exec (.xferGo c) s = .next t ∧ t.dev.xfe = s.dev.xfe ∧ t.dev.raised s.dev.now 542
        ∧ t.dev.get XFE_CNT_BADGO.COUNT
          = min (2 ^ XFE_CNT_BADGO.COUNT.w - 1) (s.dev.get XFE_CNT_BADGO.COUNT + 1))
    ∧ (s.dev.get XFE_STAT.STATE c = 4 →
      ∃ t, exec (.xferKick c) s = .next t ∧ t.dev.get XFE_STAT.STATE c = 2
        ∧ t.dev.xfe.chan.get c = { s.dev.xfe.chan.get c with phase := .fetch })
    ∧ (s.dev.get XFE_STAT.STATE c ≠ 4 →
      ∃ t, exec (.xferKick c) s = .next t ∧ t.dev.regs = s.dev.regs
        ∧ t.dev.xfe.chan.get c = { s.dev.xfe.chan.get c with kick := true })
    ∧ (s.dev.flag XFE_CTL.EN c = true →
      ∃ t, exec (.xferAbort c) s = .next t ∧ t.dev.flag XFE_CTL.EN c = false ∧ t.dev.get XFE_STAT.STATE c = 0
        ∧ (t.dev.xfe.chan.get c).phase = .idle
        ∧ (s.dev.xferBusy c = true → t.dev.raised s.dev.now 538))
    ∧ (∀ line : Line, (s.dev.xfe.chan.get c).phase = .fetch → (s.dev.xfe.chan.get c).addr % 2 = 0 →
      s.dev.link.up = true →
      (s.dev.xfe.chan.get c).mode ≠ 2 ∨ descOwn line = true →
      (s.dev.xfe.chan.get c).mode ≠ 1 ∨ s.dev.get XFE_HOPS.HOPS c ≤ max 1 (s.dev.get XFE_HOP_LIMIT.LIMIT c) →
      s.dev.descCheckResult line = 0 → descCount line ≠ 0 →
      ∃ t, exec (.descriptorFetch c .ok line) s = .next t ∧ t.dev.get XFE_STAT.STATE c = 2
        ∧ (t.dev.xfe.chan.get c).phase = .data ∧ (t.dev.xfe.chan.get c).desc = line
        ∧ (t.dev.xfe.chan.get c).pos = 0)
    ∧ (∀ line : Line, (s.dev.xfe.chan.get c).phase = .fetch → (s.dev.xfe.chan.get c).addr % 2 = 0 →
      s.dev.link.up = true →
      (s.dev.xfe.chan.get c).mode = 2 → descOwn line = false → (s.dev.xfe.chan.get c).kick = false →
      ∃ t, exec (.descriptorFetch c .ok line) s = .next t ∧ t.dev.get XFE_STAT.STATE c = 4
        ∧ (t.dev.xfe.chan.get c).phase = .idle ∧ t.dev.raised s.dev.now 541)
    ∧ (∀ (line : Line) (ending : ReadEnd), (s.dev.xfe.chan.get c).phase = .fetch →
      (s.dev.xfe.chan.get c).addr % 2 = 0 → ending ≠ .ok → s.dev.hostEnds ending = true →
      ∃ t, exec (.descriptorFetch c ending line) s = .next t ∧ t.dev.get XFE_STAT.STATE c = 3
        ∧ t.dev.bitOf XFE_G_HALTED.CH c = true ∧ (t.dev.xfe.chan.get c).phase = .idle
        ∧ t.dev.raised s.dev.now 536)
    ∧ (∀ (data : List Byte) (ending : ReadEnd) (n : Nat),
      n = min (descCount (s.dev.xfe.chan.get c).desc - (s.dev.xfe.chan.get c).pos)
          (4096 - ((s.dev.xfe.chan.get c).desc.w1.toNat + (s.dev.xfe.chan.get c).pos) % 4096) →
      (s.dev.xfe.chan.get c).phase = .data → descSrc (s.dev.xfe.chan.get c).desc = 1 →
      descDst (s.dev.xfe.chan.get c).desc = 1 → descAppended (s.dev.xfe.chan.get c).desc = 0 →
      ∃ t, exec (.xferPiece c ending data) s = .next t
        ∧ t.dev.ben.bench = s.dev.ben.bench.store
            ((s.dev.xfe.chan.get c).desc.w2.toNat + (s.dev.xfe.chan.get c).pos)
            (swapBytes (descSwap (s.dev.xfe.chan.get c).desc)
              (s.dev.ben.bench.bytes ((s.dev.xfe.chan.get c).desc.w1.toNat + (s.dev.xfe.chan.get c).pos) n))
        ∧ (t.dev.xfe.chan.get c).pos = (s.dev.xfe.chan.get c).pos + n
        ∧ (t.dev.xfe.chan.get c).phase
          = (if (s.dev.xfe.chan.get c).pos + n = descCount (s.dev.xfe.chan.get c).desc then .readback else .data))
    ∧ (∀ (data : List Byte) (ending : ReadEnd), (s.dev.xfe.chan.get c).phase = .data →
      descSrc (s.dev.xfe.chan.get c).desc = 0 → ending ≠ .ok → ending ≠ .poison →
      ∃ t, exec (.xferPiece c ending data) s = .next t ∧ t.dev.get XFE_STAT.STATE c = 3
        ∧ (t.dev.xfe.chan.get c).phase = .idle ∧ t.dev.raised s.dev.now 536)
    ∧ (∀ ending : ReadEnd, (s.dev.xfe.chan.get c).phase = .readback → descDst (s.dev.xfe.chan.get c).desc ≠ 0 →
      (s.dev.xfe.chan.get c).mode = 0 →
      ∃ t, exec (.xferReadback c ending) s = .next t ∧ t.dev.get XFE_STAT.STATE c = 1
        ∧ t.dev.bitOf XFE_G_BUSY.CH c = false
        ∧ (t.dev.xfe.chan.get c).phase = .idle ∧ (t.dev.xfe.chan.get c).seq = (s.dev.xfe.chan.get c).seq + 1
        ∧ t.dev.get XFE_STAT.LAST_STATUS c
          = (if (s.dev.xfe.chan.get c).poisoned = true then 9 else if (s.dev.xfe.chan.get c).wdrop = true then 10 else 0)
        ∧ t.dev.raised s.dev.now (528 + c / 8))
    ∧ (∀ ending : ReadEnd, (s.dev.xfe.chan.get c).phase = .readback → descDst (s.dev.xfe.chan.get c).desc ≠ 0 →
      (s.dev.xfe.chan.get c).mode = 1 → descLast (s.dev.xfe.chan.get c).desc = false →
      ∃ t, exec (.xferReadback c ending) s = .next t ∧ t.dev.get XFE_STAT.STATE c = 2
        ∧ (t.dev.xfe.chan.get c).phase = .fetch
        ∧ (t.dev.xfe.chan.get c).addr = (s.dev.xfe.chan.get c).desc.w4.toNat
        ∧ t.dev.get XFE_HOPS.HOPS c = (s.dev.get XFE_HOPS.HOPS c + 1) % 2 ^ XFE_HOPS.HOPS.w)

/-- Stream ports: enabling, received frames, credits, launches, FIRE_AT and links (R368, R369, R371, R372, R373, R374,
R375, R376, R378, R380, R383, R384). -/
def Obligations.PortCommandsAct : Prop :=
  ∀ (s : State) (p : Fin 3) (t : Fin 64), s.dev.bus.writes = [] →
    (∀ v : W32, s.dev.flag ETH_CTL.EN p = false → s.dev.windowOk p = true →
      ∃ u, exec (.portEnable p v) s = .next u ∧ u.dev.flag ETH_CTL.EN p = true ∧ u.dev.get ETH_STAT.RESULT p = 1
        ∧ u.dev.flag ETH_STAT.READY p = (s.dev.pdOn (59 + p) && s.dev.benchOn)
        ∧ u.dev.get ETH_CTL.MODE p = v.toNat / 2 ^ ETH_CTL.MODE.lo % 2 ^ ETH_CTL.MODE.w)
    ∧ (∀ v : W32, s.dev.flag ETH_CTL.EN p = false → s.dev.windowOk p = false →
      ∃ u, exec (.portEnable p v) s = .next u ∧ u.dev.flag ETH_CTL.EN p = false ∧ u.dev.get ETH_STAT.RESULT p = 2)
    ∧ (∃ u, exec (.portDisable p) s = .next u ∧ u.dev.flag ETH_CTL.EN p = false
        ∧ u.dev.flag ETH_STAT.READY p = false ∧ (u.dev.eth.get p).window = [] ∧ (u.dev.eth.get p).retx = []
        ∧ u.dev.get ETH_CNT_ABANDON.COUNT p
          = min (2 ^ ETH_CNT_ABANDON.COUNT.w - 1) (s.dev.get ETH_CNT_ABANDON.COUNT p + (s.dev.eth.get p).window.length))
    ∧ (∀ (sub : Fin 4) (arrival : BitVec 10) (f : EthFrame), s.dev.flag ETH_CTL.EN p = true →
      s.dev.flag ETH_STAT.READY p = true → sub.val < s.dev.subports p → f.good = false →
      ∃ u, exec (.ethFrameRx p sub arrival f) s = .next u
        ∧ u.dev.get ETH_CNT_FCS.COUNT p = min (2 ^ ETH_CNT_FCS.COUNT.w - 1) (s.dev.get ETH_CNT_FCS.COUNT p + 1)
        ∧ s.dev.keepsRegs u.dev [.ETH_CNT_FCS, .GLB_CNT_SAT])
    ∧ (∀ (sub : Fin 4) (arrival : BitVec 10) (f : EthFrame), s.dev.flag ETH_CTL.EN p = true →
      s.dev.flag ETH_STAT.READY p = true → sub.val < s.dev.subports p → f.good = true →
      f.dmac.toNat ≠ s.dev.get ETH_MAC.MAC p sub → f.dmac ≠ BitVec.allOnes 48 →
      s.dev.multicastUsed p sub f.dmac = false →
      ∃ u, exec (.ethFrameRx p sub arrival f) s = .next u
        ∧ u.dev.get ETH_CNT_FOREIGN.COUNT p
          = min (2 ^ ETH_CNT_FOREIGN.COUNT.w - 1) (s.dev.get ETH_CNT_FOREIGN.COUNT p + 1)
        ∧ s.dev.keepsRegs u.dev [.ETH_CNT_FOREIGN, .GLB_CNT_SAT])
    ∧ (s.dev.flag ETH_CTL.EN p = true → s.dev.flag ETH_STAT.READY p = true →
      ∃ u, exec (.arpNdEcho p) s = .next u
        ∧ (s.dev.flag ETH_CTL.HK_EN p = true → s.dev.hkAbsent = false →
            s.dev.now < (s.dev.eth.get p).hkFrom + 1250000 →
            (s.dev.eth.get p).hkCount < s.dev.get ETH_HK_RATE.PER_MS p →
            u.dev.eth.get p = { s.dev.eth.get p with hkCount := (s.dev.eth.get p).hkCount + 1 })
        ∧ (s.dev.flag ETH_CTL.HK_EN p = false ∨ s.dev.hkAbsent = true →
            u.dev.get ETH_CNT_HKDROP.COUNT p
              = min (2 ^ ETH_CNT_HKDROP.COUNT.w - 1) (s.dev.get ETH_CNT_HKDROP.COUNT p + 1)))
    ∧ (∀ ack limit : BitVec 48, s.dev.tgtStream t = true → s.dev.portRuns (s.dev.tgtPort t) = true →
      seqLater ack.toNat (s.dev.ben.target.get t).stream.seq = false →
      seqLater ack.toNat (s.dev.ben.target.get t).stream.ack = true →
      ∃ u, exec (.credit t ack limit) s = .next u
        ∧ (u.dev.ben.target.get t).stream
          = { (s.dev.ben.target.get t).stream with
              limit := if seqLater limit.toNat (s.dev.ben.target.get t).stream.limit = true then limit.toNat
                else (s.dev.ben.target.get t).stream.limit,
              ack := ack.toNat, last := s.dev.now, probes := 0, stalled := false }
        ∧ (u.dev.eth.get (s.dev.tgtPort t)).window
          = (s.dev.eth.get (s.dev.tgtPort t)).window.filter (fun k => ! (k.tgt == t.val && seqLater ack.toNat k.seq)))
    ∧ (∀ ack limit : BitVec 48, s.dev.tgtStream t = true → s.dev.portRuns (s.dev.tgtPort t) = true →
      seqLater ack.toNat (s.dev.ben.target.get t).stream.seq = true →
      ∃ u, exec (.credit t ack limit) s = .next u ∧ u.dev.eth = s.dev.eth
        ∧ (u.dev.ben.target.get t).stream.ack = (s.dev.ben.target.get t).stream.ack
        ∧ u.dev.get ETH_CNT_STALE.COUNT (s.dev.tgtPort t)
          = min (2 ^ ETH_CNT_STALE.COUNT.w - 1) (s.dev.get ETH_CNT_STALE.COUNT (s.dev.tgtPort t) + 1))
    ∧ (∀ ack limit : BitVec 48, s.dev.tgtStream t = true → s.dev.portRuns (s.dev.tgtPort t) = true →
      ∃ u, exec (.nack t ack limit []) s = .next u ∧ u.dev.ben = s.dev.ben
        ∧ u.dev.get ETH_CNT_BADHDR.COUNT (s.dev.tgtPort t)
          = min (2 ^ ETH_CNT_BADHDR.COUNT.w - 1) (s.dev.get ETH_CNT_BADHDR.COUNT (s.dev.tgtPort t) + 1))
    ∧ (∀ ack limit a : BitVec 48, s.dev.tgtStream t = true → s.dev.portRuns (s.dev.tgtPort t) = true →
      seqLater ack.toNat (s.dev.ben.target.get t).stream.seq = false →
      seqLater ack.toNat (s.dev.ben.target.get t).stream.ack = false →
      ((s.dev.eth.get (s.dev.tgtPort t)).window.any fun k => k.tgt == t.val && k.seq == a.toNat) = true →
      ∃ u, exec (.nack t ack limit [(a, 1)]) s = .next u
        ∧ (u.dev.eth.get (s.dev.tgtPort t)).retx = (s.dev.eth.get (s.dev.tgtPort t)).retx ++ [(t.val, a.toNat)])
    ∧ (∀ (sub : Fin 4) (arrival : BitVec 10) (l : List Byte), s.dev.flag ETH_CTL.EN p = true →
      s.dev.flag ETH_STAT.READY p = true → s.dev.fireOutcome l ≠ 0 →
      ∃ u, exec (.fireAt p sub arrival l) s = .next u ∧ u.dev.raised s.dev.now (550 + 8 * p)
        ∧ u.dev.get ETH_CNT_FA_REJ.COUNT p
          = min (2 ^ ETH_CNT_FA_REJ.COUNT.w - 1) (s.dev.get ETH_CNT_FA_REJ.COUNT p + 1)
        ∧ u.dev.trg = s.dev.trg
        ∧ (s.dev.flag ETH_FA_Q.EN p = true → (u.dev.eth.get p).faSeq = ((s.dev.eth.get p).faSeq + 1) % 2 ^ 32))
    ∧ (∀ (sub : Fin 4) (arrival : BitVec 10) (l : List Byte), s.dev.flag ETH_CTL.EN p = true →
      s.dev.flag ETH_STAT.READY p = true → s.dev.fireOutcome l = 0 →
      ∃ u, exec (.fireAt p sub arrival l) s = .next u ∧ u.dev.raised s.dev.now (549 + 8 * p)
        ∧ u.dev.get ETH_FA_LAST.COUNTER (field l 0x21 1 % 4) = field l 0x28 8)
    ∧ (s.dev.get BEN_HT_CTL.KIND t = 2 → s.dev.flag BEN_HT_CTL.EN t = true →
      s.dev.flag ETH_CTL.EN (s.dev.tgtPort t) = true → s.dev.flag ETH_STAT.READY (s.dev.tgtPort t) = true →
      s.dev.tgtLinked t = true → s.dev.retxReady (s.dev.tgtPort t) = none →
      (s.dev.ben.target.get t).stream.stalled = false → s.dev.tgtDup t = false →
      seqLater (s.dev.ben.target.get t).stream.limit (s.dev.ben.target.get t).stream.seq = true →
      (s.dev.ben.target.get t).passes ≠ 0 → (s.dev.ben.target.get t).passEnd = false →
      s.dev.flag BEN_QRY_STAT.READY = true →
      (s.dev.eth.get (s.dev.tgtPort t)).used + 32 + s.dev.get ETH_PAY.MAXPAY (s.dev.tgtPort t)
        ≤ s.dev.get ETH_RTX_SIZE.OFS (s.dev.tgtPort t) →
      ∃ u, exec (.packetLaunch t) s = .next u
        ∧ (u.dev.ben.target.get t).stream.seq = ((s.dev.ben.target.get t).stream.seq + 1) % 2 ^ 48
        ∧ ((u.dev.eth.get (s.dev.tgtPort t)).out.map fun k => (k.tgt, k.seq, k.payload))
          = some (t.val, (s.dev.ben.target.get t).stream.seq,
              s.dev.storeRead 1 (s.dev.get BEN_HT_BASE.OFS t + s.dev.get BEN_HT_WP.OFS t)
                (min (s.dev.get ETH_PAY.MAXPAY (s.dev.tgtPort t)) (s.dev.get BEN_HT_SIZE.OFS t - s.dev.get BEN_HT_WP.OFS t)))
        ∧ (u.dev.eth.get (s.dev.tgtPort t)).window.length = (s.dev.eth.get (s.dev.tgtPort t)).window.length + 1)
    ∧ (∀ (r : Nat × Nat) (k : Packet), s.dev.retxReady p = some r →
      ((s.dev.eth.get p).window.find? fun k => k.tgt == r.1 && k.seq == r.2) = some k → k.flags / 8 % 2 = 0 →
      s.dev.flag ETH_CTL.EN p = true → s.dev.flag ETH_STAT.READY p = true →
      ∃ u, exec (.retransmit p) s = .next u ∧ (u.dev.eth.get p).retx = (s.dev.eth.get p).retx.erase r
        ∧ (u.dev.eth.get p).out = some { k with flags := k.flags + 8 }
        ∧ u.dev.get ETH_CNT_RETX.COUNT p = min (2 ^ ETH_CNT_RETX.COUNT.w - 1) (s.dev.get ETH_CNT_RETX.COUNT p + 1))
    ∧ (s.dev.tgtStream t = true → (s.dev.ben.target.get t).stream.stalled = false →
      ((s.dev.eth.get (s.dev.tgtPort t)).window.any fun k => k.tgt == t.val) = true →
      ∃ u, exec (.creditTimeout t) s = .next u
        ∧ u.dev.now = max s.dev.now ((s.dev.ben.target.get t).stream.last
            + max 1 (s.dev.get ETH_CR_CTL.TIMEOUT (s.dev.tgtPort t)))
        ∧ ((s.dev.ben.target.get t).stream.probes < max 1 (s.dev.get ETH_CR_CTL.RETRIES (s.dev.tgtPort t)) →
            (u.dev.ben.target.get t).stream.probes = (s.dev.ben.target.get t).stream.probes + 1
            ∧ (u.dev.eth.get (s.dev.tgtPort t)).retx
              = (s.dev.eth.get (s.dev.tgtPort t)).retx ++ [(t.val, (s.dev.ben.target.get t).stream.ack)])
        ∧ (max 1 (s.dev.get ETH_CR_CTL.RETRIES (s.dev.tgtPort t)) ≤ (s.dev.ben.target.get t).stream.probes →
            (u.dev.ben.target.get t).stream.stalled = true
            ∧ u.dev.flag ETH_STAT.STALLED (s.dev.tgtPort t) = true
            ∧ u.dev.raised u.dev.now (546 + 8 * s.dev.tgtPort t)))
    ∧ (∀ (k : Fin 4) (i : Fin 8) (v : W32),
      ∃ u, exec (.faKeyWrite k i v) s = .next u ∧ u.dev.faKey.get (8 * k + i) = v.toNat
        ∧ u.dev.flag ETH_FA_KCTL.EN k = false ∧ u.dev.get ETH_FA_LAST.COUNTER k = 0)
    ∧ (∀ sub : Fin 4, sub.val < s.dev.subports p → s.dev.get ETH_STAT.LINK p / 2 ^ sub.val % 2 = 0 →
      ∃ u, exec (.subportLinkUp p sub) s = .next u ∧ u.dev.get ETH_STAT.LINK p / 2 ^ sub.val % 2 = 1
        ∧ u.dev.raised s.dev.now (544 + 8 * p))
    ∧ (∀ sub : Fin 4, sub.val < s.dev.subports p → s.dev.get ETH_STAT.LINK p / 2 ^ sub.val % 2 = 1 →
      ∃ u, exec (.subportLinkDown p sub) s = .next u ∧ u.dev.get ETH_STAT.LINK p / 2 ^ sub.val % 2 = 0
        ∧ u.dev.raised s.dev.now (545 + 8 * p))
    ∧ (∀ (sub : Fin 4) (arrival : BitVec 10) (dmac : BitVec 48) (a : W32), s.dev.portRuns p = true →
      sub.val < s.dev.subports p → dmac.toNat = s.dev.get ETH_MAC.MAC p sub ∨ dmac = BitVec.allOnes 48 →
      a.toNat = s.dev.get ETH_IP4.ADDR p sub →
      ∃ u, exec (.ethFrameRx p sub arrival ⟨true, dmac, .arp a⟩) s = .next u ∧ exec (.arpNdEcho p) s = .next u)
    ∧ (∀ (sub : Fin 4) (arrival : BitVec 10) (dmac : BitVec 48) (src dst : BitVec 128) (sport dport : BitVec 16)
        (l : List Byte) (ack limit : BitVec 48), s.dev.portRuns p = true →
      sub.val < s.dev.subports p → dmac.toNat = s.dev.get ETH_MAC.MAC p sub →
      dport.toNat = s.dev.get ETH_CTL.UDP_PORT p → dst.toNat = s.dev.get ETH_IP4.ADDR p sub →
      l.length = 48 → field l 0 1 = 0x12 → field l 0x0A 2 = 16 →
      s.dev.creditTarget p (field l 2 2) false src.toNat sport.toNat = some t.val →
      ack.toNat = field l 32 6 → limit.toNat = field l 40 6 →
      ∃ u, exec (.ethFrameRx p sub arrival ⟨true, dmac, .udp false true src dst sport dport l⟩) s = .next u
        ∧ exec (.credit t ack limit) s = .next u)
    ∧ (∀ (sub : Fin 4) (arrival : BitVec 10) (dmac : BitVec 48) (src dst : BitVec 128) (sport dport : BitVec 16)
        (l : List Byte), s.dev.portRuns p = true →
      sub.val < s.dev.subports p → dmac.toNat = s.dev.get ETH_MAC.MAC p sub →
      dport.toNat = s.dev.get ETH_CTL.UDP_PORT p → dst.toNat = s.dev.get ETH_IP4.ADDR p sub →
      32 ≤ l.length → field l 0 1 = 0x14 →
      ∃ u, exec (.ethFrameRx p sub arrival ⟨true, dmac, .udp false true src dst sport dport l⟩) s = .next u
        ∧ exec (.fireAt p sub arrival l) s = .next u)

/-- Pins of the trigger bus: ownership, edges, launches and contention (R386, R387, R388, R389, R390, R391, R392). -/
def Obligations.PinCommandsAct : Prop :=
  ∀ (s : State) (x : Fin 48), s.dev.bus.writes = [] →
    (∀ v : BitVec 16,
      ∃ t, exec (.ownershipWrite v) s = .next t ∧ t.dev.get SYN_OWN.LINES = v.toNat
        ∧ (∀ y : Fin 16, s.dev.pinOwned y = true → v.getLsbD y = false → (t.dev.syn.pin.get y).out = false
            ∧ (t.dev.syn.pin.get y).launches = [] ∧ (t.dev.syn.pin.get y).pulseEnd = none))
    ∧ (∀ (level : Bool) (sample : Fin 64) (frac : BitVec 16), pinExists x = true →
      (s.dev.syn.pin.get x).raw ≠ level → (s.dev.syn.pin.get x).edge = none → (s.dev.syn.pin.get x).own = [] →
      ∃ t, exec (.pinEdge x level sample frac) s = .next t ∧ (t.dev.syn.pin.get x).raw = level
        ∧ (t.dev.syn.pin.get x).rawAt = s.dev.now
        ∧ (t.dev.syn.pin.get x).edge
          = (if (level ^^ s.dev.pinInv x) = s.dev.flag SYN_PSTAT.LVL x then none
             else some ((s.dev.now * 64 + sample) * 65536 + frac.toNat, none))
        ∧ t.dev.regs = s.dev.regs)
    ∧ (∀ (level : Bool) (sample : Fin 64) (frac : BitVec 16) (e : Nat × Option Nat),
      (s.dev.syn.pin.get x).edge = some e → pinExists x = true → (s.dev.syn.pin.get x).raw ≠ level →
      (s.dev.now * 64 + sample) * 65536 + frac.toNat < e.1 + s.dev.pinMinw x →
      ∃ t, exec (.pinEdge x level sample frac) s = .next t ∧ (t.dev.syn.pin.get x).raw = level
        ∧ (t.dev.syn.pin.get x).edge = none
        ∧ t.dev.get SYN_CNT_GLITCH.COUNT x
          = min (2 ^ SYN_CNT_GLITCH.COUNT.w - 1) (s.dev.get SYN_CNT_GLITCH.COUNT x + 1)
        ∧ t.dev.flag SYN_PSTAT.LVL x = s.dev.flag SYN_PSTAT.LVL x)
    ∧ (∀ e : Nat × Option Nat, (s.dev.syn.pin.get x).edge = some e →
      ∃ t, exec (.filteredChange x) s = .next t
        ∧ t.dev.now = max s.dev.now (e.1 / 65536 / 64 + max 1 (s.dev.get SYN_PCFG.MINW x))
        ∧ t.dev.flag SYN_PSTAT.LVL x = ! s.dev.flag SYN_PSTAT.LVL x ∧ (t.dev.syn.pin.get x).edge = none)
    ∧ (∀ l : Launch, (s.dev.syn.pin.get x).launches.head? = some l → s.dev.pinDriven x = true →
      s.dev.inPair x = false → l.width ≠ 0 →
      ∃ t, exec (.outputLaunch x) s = .next t ∧ t.dev.now = max s.dev.now l.frame
        ∧ (t.dev.syn.pin.get x).out = true ∧ (t.dev.syn.pin.get x).pulseEnd = some (l.frame + l.width)
        ∧ (t.dev.syn.pin.get x).launches = (s.dev.syn.pin.get x).launches.tail ∧ t.dev.regs = s.dev.regs)
    ∧ (∀ l : Launch, (s.dev.syn.pin.get x).launches.head? = some l → s.dev.pinDriven x = true →
      s.dev.inPair x = false → l.width = 0 →
      ∃ t, exec (.outputLaunch x) s = .next t ∧ t.dev.now = max s.dev.now l.frame
        ∧ (t.dev.syn.pin.get x).out = l.level ∧ (t.dev.syn.pin.get x).pulseEnd = none)
    ∧ (∀ e : Nat, (s.dev.syn.pin.get x).pulseEnd = some e →
      ∃ t, exec (.markerPulseEnd x) s = .next t ∧ t.dev.now = max s.dev.now e
        ∧ (t.dev.syn.pin.get x).out = false ∧ (t.dev.syn.pin.get x).pulseEnd = none ∧ t.dev.regs = s.dev.regs)
    ∧ (∀ level : Bool, pinExists x = true → s.dev.pinDriven x = true → s.dev.wiredOr x = false →
      level ≠ ((s.dev.syn.pin.get x).out ^^ s.dev.pinInv x) →
      ∃ t, exec (.contention x level) s = .next t ∧ t.dev.flag SYN_PSTAT.FAULT x = true
        ∧ t.dev.flag SYN_PSTAT.CONTENTION x = true ∧ (t.dev.syn.pin.get x).out = false
        ∧ t.dev.get SYN_CNT_CONT.COUNT = min (2 ^ SYN_CNT_CONT.COUNT.w - 1) (s.dev.get SYN_CNT_CONT.COUNT + 1)
        ∧ t.dev.raised s.dev.now 568)
    ∧ (pinExists x = true → s.dev.pinDriven x = true → s.dev.wiredOr x = true → (s.dev.syn.pin.get x).out = true →
      s.dev.wordSending = false →
      ∃ t, exec (.contention x false) s = .next t ∧ t.dev.flag SYN_PSTAT.CONTENTION x = true
        ∧ t.dev.flag SYN_PSTAT.FAULT x = s.dev.flag SYN_PSTAT.FAULT x ∧ (t.dev.syn.pin.get x).out = true
        ∧ t.dev.raised s.dev.now 568)
    ∧ (∃ t, exec (.faultClear x) s = .next t ∧ t.dev.flag SYN_PSTAT.FAULT x = false
        ∧ s.dev.keepsRegs t.dev [.SYN_PSTAT]
        ∧ (t.dev.syn.pin.get x).out = (s.dev.syn.pin.get x).out
        ∧ (s.dev.flag SYN_PSTAT.FAULT x = false → t.dev = s.dev)
        ∧ (s.dev.flag SYN_PSTAT.FAULT x = true → t.dev.pinDriven x = true → s.dev.inPair x = false →
            s.dev.get SYN_PCFG.KIND x = 2 →
            (t.dev.syn.pin.get x).launches
              = (s.dev.syn.pin.get x).launches.filter (fun l => decide (l.frame < s.dev.now + 2))
                ++ [⟨s.dev.now + 2, 0, s.dev.flag SYN_PCFG.LEVEL x⟩]))

/-- Trigger bus messages and the ping (R394, R395, R396, R397, R398, R399, R402). -/
def Obligations.MessageAndPingCommandsAct : Prop :=
  ∀ s : State, s.dev.bus.writes = [] →
    (∀ v : W32, s.dev.flag SYN_MSG_CTL.EN = false → v.getLsbD 31 = true →
      s.dev.wiredOr (2 * (v.toNat / 2 ^ 16 % 8)) = true → s.dev.wiredOr (2 * (v.toNat / 2 ^ 16 % 8) + 1) = true →
      s.dev.pinPings (2 * (v.toNat / 2 ^ 16 % 8)) = false → s.dev.pinPings (2 * (v.toNat / 2 ^ 16 % 8) + 1) = false →
      ∃ t, exec (.msgModeEnable v) s = .next t ∧ t.dev.flag SYN_MSG_CTL.EN = true ∧ t.dev.get SYN_MSG_STAT.RESULT = 1
        ∧ t.dev.get SYN_MSG_CTL.PAIR = v.toNat / 2 ^ 16 % 8
        ∧ t.dev.get SYN_MSG_CTL.LEAD = max 448 (v.toNat % 4096))
    ∧ (∀ v : W32, s.dev.flag SYN_MSG_CTL.EN = false → v.getLsbD 31 = true →
      s.dev.wiredOr (2 * (v.toNat / 2 ^ 16 % 8)) = false →
      ∃ t, exec (.msgModeEnable v) s = .next t ∧ t.dev.flag SYN_MSG_CTL.EN = false
        ∧ t.dev.get SYN_MSG_STAT.RESULT = 2)
    ∧ (∀ v : W32, s.dev.flag SYN_MSG_CTL.EN = true → v.getLsbD 31 = false →
      ∃ t, exec (.msgModeEnable v) s = .next t ∧ t.dev.flag SYN_MSG_CTL.EN = false ∧ t.dev.syn.words = []
        ∧ t.dev.get SYN_CNT_TXFAIL.COUNT
          = min (2 ^ SYN_CNT_TXFAIL.COUNT.w - 1) (s.dev.get SYN_CNT_TXFAIL.COUNT + s.dev.syn.words.length))
    ∧ (∀ v : W32, v.getLsbD 31 = true → s.dev.syn.words.length < 16 →
      ∃ t, exec (.msgTxGo v) s = .next t
        ∧ t.dev.syn.words = s.dev.syn.words ++
            [(v.toNat / 2 ^ SYN_MSG_TX.CODE.lo % 2 ^ SYN_MSG_TX.CODE.w, v.toNat / 2 ^ SYN_MSG_TX.FINE.lo % 2 ^ SYN_MSG_TX.FINE.w)]
        ∧ t.dev.get SYN_MSG_STAT.TXQ = s.dev.syn.words.length + 1)
    ∧ (∀ v : W32, v.getLsbD 31 = true → 16 ≤ s.dev.syn.words.length →
      ∃ t, exec (.msgTxGo v) s = .next t ∧ t.dev.syn = s.dev.syn ∧ t.dev.get SYN_MSG_STAT.RESULT = 4
        ∧ t.dev.get SYN_CNT_TXFAIL.COUNT = min (2 ^ SYN_CNT_TXFAIL.COUNT.w - 1) (s.dev.get SYN_CNT_TXFAIL.COUNT + 1))
    ∧ (∀ f : Nat, s.dev.frameFree = some f → s.dev.syn.words ≠ [] → s.dev.syn.phase = .ready →
      s.dev.flag SYN_MSG_CTL.EN = true → s.dev.flag SYN_SYSID.EN = true →
      s.dev.pinDriven (2 * s.dev.get SYN_MSG_CTL.PAIR) = true →
      s.dev.pinDriven (2 * s.dev.get SYN_MSG_CTL.PAIR + 1) = true →
      ∃ t, exec .wordSendStart s = .next t ∧ t.dev.now = max s.dev.now (s.dev.gridAfter (max s.dev.now (f + 100)))
        ∧ t.dev.syn.phase = .sending (s.dev.gridAfter (max s.dev.now (f + 100))) ∧ t.dev.regs = s.dev.regs)
    ∧ (∀ (b k f : Nat), s.dev.frameFree = some f → s.dev.syn.phase = .backoff b k →
      ∃ t, exec .backoffExpiry s = .next t ∧ t.dev.now = max s.dev.now (max b f + 100 + 600 * k)
        ∧ t.dev.syn.phase = .ready ∧ t.dev.syn.words = s.dev.syn.words)
    ∧ (∀ b : Nat, s.dev.syn.phase = .sending b → s.dev.syn.words ≠ [] →
      ∃ t, exec .msgTx s = .next t ∧ t.dev.now = max s.dev.now ((s.dev.wordLaunch b + 1023) / 1024 + 500)
        ∧ t.dev.syn.words = s.dev.syn.words.tail ∧ t.dev.syn.phase = .ready
        ∧ t.dev.get SYN_CNT_TX.COUNT = (s.dev.get SYN_CNT_TX.COUNT + 1) % 2 ^ SYN_CNT_TX.COUNT.w
        ∧ t.dev.raised t.dev.now 571)
    ∧ (∀ (word : W32) (crc : Byte) (ago : BitVec 10) (sample : Fin 64) (frac : BitVec 16),
      s.dev.flag SYN_MSG_CTL.EN = true → s.dev.wordSending = false →
      ∃ t, exec (.msgFrameRx false word crc ago sample frac) s = .next t ∧ t.dev.trg = s.dev.trg
        ∧ t.dev.get SYN_CNT_MSGBAD.COUNT = min (2 ^ SYN_CNT_MSGBAD.COUNT.w - 1) (s.dev.get SYN_CNT_MSGBAD.COUNT + 1))
    ∧ (∀ (word : W32) (ago : BitVec 10) (sample : Fin 64) (frac : BitVec 16) (b : Nat),
      s.dev.gridNear (s.dev.pinInst (2 * s.dev.get SYN_MSG_CTL.PAIR + 1)
          (((s.dev.now - ago.toNat) * 64 + sample) * 65536 + frac.toNat) - s.dev.get SYN_LAUNCH_K.K * 4096) = some b →
      s.dev.flag SYN_MSG_CTL.EN = true → s.dev.wordSending = false →
      word.toNat / 2 ^ 18 = s.dev.get SYN_SYSID.ID →
      ∃ t, exec (.msgFrameRx true word (crc8 word) ago sample frac) s = .next t ∧ t.dev.raised s.dev.now 575
        ∧ t.dev.get SYN_CNT_IDCLASH.COUNT
          = min (2 ^ SYN_CNT_IDCLASH.COUNT.w - 1) (s.dev.get SYN_CNT_IDCLASH.COUNT + 1))
    ∧ (∀ (word : W32) (ago : BitVec 10) (sample : Fin 64) (frac : BitVec 16) (b : Nat),
      s.dev.gridNear (s.dev.pinInst (2 * s.dev.get SYN_MSG_CTL.PAIR + 1)
          (((s.dev.now - ago.toNat) * 64 + sample) * 65536 + frac.toNat) - s.dev.get SYN_LAUNCH_K.K * 4096) = some b →
      s.dev.flag SYN_MSG_CTL.EN = true → s.dev.wordSending = false →
      word.toNat / 2 ^ 18 ≠ s.dev.get SYN_SYSID.ID →
      ∃ t, exec (.msgFrameRx true word (crc8 word) ago sample frac) s = .next t ∧ t.dev.raised s.dev.now 570
        ∧ t.dev.get SYN_CNT_RX.COUNT = (s.dev.get SYN_CNT_RX.COUNT + 1) % 2 ^ SYN_CNT_RX.COUNT.w
        ∧ t.dev.rd ⟨.SYN_MSG_LAST, 0, 0, 0⟩ = word.setWidth 64 &&& Reg.mask ⟨.SYN_MSG_LAST, 0, 0, 0⟩)
    ∧ (∀ v : W32, v.getLsbD 31 = true → s.dev.syn.ping = none →
      (s.dev.wr ⟨.SYN_PING_CTL, 0, 0, 0⟩ (v.setWidth 64)).pinOwned
        ((s.dev.wr ⟨.SYN_PING_CTL, 0, 0, 0⟩ (v.setWidth 64)).get SYN_PING_CTL.PIN) = true →
      s.dev.flag SYN_MSG_CTL.EN = false →
      ∃ t, exec (.pingGo v) s = .next t ∧ t.dev.get SYN_PING_STAT.RESULT = 1 ∧ t.dev.get SYN_PING_STAT.DONE = 0
        ∧ t.dev.syn.ping = some {
            responder := t.dev.flag SYN_PING_CTL.ROLE, pin := t.dev.get SYN_PING_CTL.PIN,
            count := max 1 (t.dev.get SYN_PING_CTL.COUNT), go := s.dev.now, next := s.dev.now + 1 })
    ∧ (∀ p : Ping, s.dev.syn.ping = some p → p.responder = false → p.sent < p.count →
      s.dev.pinDriven p.pin = true →
      ∃ t, exec .pingPulse s = .next t ∧ t.dev.now = max s.dev.now p.next
        ∧ t.dev.syn.ping = some { p with sent := p.sent + 1, next := p.next + 1024, waiting := some p.next }
        ∧ (t.dev.syn.pin.get p.pin).out = true ∧ (t.dev.syn.pin.get p.pin).pulseEnd = some (p.next + 8))
    ∧ (∀ (p : Ping) (r : Nat × Nat), p.reply = some r → s.dev.syn.ping = some p → s.dev.pinDriven p.pin = true →
      ∃ t, exec .pingReply s = .next t ∧ t.dev.now = max s.dev.now r.1
        ∧ t.dev.syn.ping = some { p with
            reply := none, diffs := p.diffs ++ [((r.1 * 64 * 65536 : Nat) : Int) - (r.2 : Int)] }
        ∧ (t.dev.syn.pin.get p.pin).out = true)
    ∧ (∀ p : Ping, s.dev.syn.ping = some p → p.count ≤ p.diffs.length →
      ∃ t, exec .pingDone s = .next t ∧ t.dev.syn.ping = none ∧ t.dev.get SYN_PING_STAT.RESULT = 2
        ∧ t.dev.raised s.dev.now 576
        ∧ (p.diffs.sum % ((p.diffs.length : Nat) : Int) = 0 →
            t.dev.rd ⟨.SYN_PING_MEAN, 0, 0, 0⟩
              = BitVec.ofInt 64 (p.diffs.sum / ((p.diffs.length : Nat) : Int)) &&& Reg.mask ⟨.SYN_PING_MEAN, 0, 0, 0⟩))
    ∧ (∀ p : Ping, s.dev.syn.ping = some p → p.responder = true → p.heard = false →
      ∃ t, exec .pingTimeout s = .next t ∧ t.dev.now = max s.dev.now (p.go + 1250000000)
        ∧ t.dev.syn.ping = none ∧ t.dev.get SYN_PING_STAT.RESULT = 3)

/-- The raster engine and the display outputs (R405, R407, R410, R411, R412, R413, R414, R415, R417, R418, R420,
R421). -/
def Obligations.RasterCommandsAct : Prop :=
  ∀ (s : State) (c x : Fin 2), s.dev.bus.writes = [] →
    (s.dev.bitOf RAS_CTL.EN c = false →
      ∃ t, exec (.canvasEnable c) s = .next t
        ∧ (if c = 0 then t.dev.get RAS_STAT.RESULT0 else t.dev.get RAS_STAT.RESULT1) = s.dev.canvasCheck c
        ∧ t.dev.bitOf RAS_CTL.EN c = (s.dev.canvasCheck c == 1))
    ∧ (s.dev.bitOf RAS_CTL.MODE c = true →
      ∃ t, exec (.rasGo c) s = .next t ∧ (t.dev.ras.canvas.get c).due = true ∧ t.dev.regs = s.dev.regs)
    ∧ (s.dev.bitOf RAS_CTL.EN c = true → s.dev.pdOn 84 = true → s.dev.bitOf RAS_STAT.BUSY c = false → s.dev.backFree c = true →
      s.dev.bitOf RAS_CTL.MODE c = false ∨ (s.dev.ras.canvas.get c).due = true →
      ∃ t, exec (.passStart c) s = .next t ∧ t.dev.bitOf RAS_STAT.BUSY c = true
        ∧ t.dev.ras.canvas.get c = { s.dev.ras.canvas.get c with
            due := false, start := s.dev.now, cfg := s.dev.canvasCfg c, planes := s.dev.planes c }
        ∧ t.dev.ras.mem = s.dev.ras.mem)
    ∧ (s.dev.bitOf RAS_STAT.BUSY c = true →
      ∃ t, exec (.passEnd c) s = .next t ∧ t.dev.bitOf RAS_STAT.BUSY c = false
        ∧ t.dev.now = max s.dev.now ((s.dev.ras.canvas.get c).start
            + ((s.dev.ras.canvas.get c).cfg.getD 0 0 * (s.dev.ras.canvas.get c).cfg.getD 1 0 + 63) / 64)
        ∧ ((t.dev.bitOf RAS_STAT.STATIC c = true ∧ t.dev.bitOf RAS_STAT.FRONT c = s.dev.bitOf RAS_STAT.FRONT c
              ∧ t.dev.ras.canvas.get c = s.dev.ras.canvas.get c)
          ∨ (t.dev.bitOf RAS_STAT.STATIC c = false ∧ t.dev.bitOf RAS_STAT.FRONT c = ! s.dev.bitOf RAS_STAT.FRONT c
              ∧ (t.dev.ras.canvas.get c).flips = (s.dev.ras.canvas.get c).flips + 1 ∧ t.dev.raised t.dev.now 592)))
    ∧ (s.dev.commitCheck [0] = 1 → s.dev.flag DPY_CTL.EN 0 = true →
      ∃ t, exec .dpyCommitA s = .next t ∧ t.dev.get DPY_STAT.RESULT 0 = 1
        ∧ t.dev.ras.out.get 0 = { s.dev.ras.out.get 0 with commit := some (s.dev.now, s.dev.shadow 0) })
    ∧ (s.dev.commitCheck [1] = 1 → s.dev.flag DPY_CTL.EN 1 = false →
      ∃ t, exec .dpyCommitB s = .next t ∧ t.dev.get DPY_STAT.RESULT 1 = 2
        ∧ t.dev.ras.out.get 1 = { s.dev.ras.out.get 1 with act := s.dev.shadow 1, next := none })
    ∧ (s.dev.commitCheck [x.val] ≠ 1 →
      ∃ t, exec (if x = 0 then .dpyCommitA else .dpyCommitB) s = .next t
        ∧ t.dev.get DPY_STAT.RESULT x = s.dev.commitCheck [x.val] ∧ t.dev.ras = s.dev.ras
        ∧ t.dev.get DPY_CNT_REFUSED.COUNT x
          = min (2 ^ DPY_CNT_REFUSED.COUNT.w - 1) (s.dev.get DPY_CNT_REFUSED.COUNT x + 1)
        ∧ t.dev.raised s.dev.now (598 + 6 * x))
    ∧ (∀ (tick : Fin 64) (l : List Nat), s.dev.commitArrived x tick = some l → s.dev.outRuns x = true →
      s.dev.cmdMode x = false → (s.dev.ras.out.get x).stopped = false →
      ∃ t, exec (.vblank x tick) s = .next t ∧ t.dev.get DPY_STAT.RESULT x = 2
        ∧ (t.dev.ras.out.get x).commit = none ∧ (t.dev.ras.out.get x).next = some l
        ∧ (t.dev.ras.out.get x).lineAt = s.dev.now
        ∧ t.dev.raised s.dev.now (596 + 6 * x) ∧ t.dev.raised s.dev.now (597 + 6 * x))
    ∧ (∀ tick : Fin 64, s.dev.commitArrived x tick = none → s.dev.outRuns x = true →
      s.dev.cmdMode x = false → (s.dev.ras.out.get x).stopped = false →
      ∃ t, exec (.vblank x tick) s = .next t ∧ (t.dev.ras.out.get x).lineAt = s.dev.now
        ∧ (t.dev.ras.out.get x).line = outVAct (s.dev.ras.out.get x).act
        ∧ (t.dev.ras.out.get x).commit = (s.dev.ras.out.get x).commit
        ∧ t.dev.raised s.dev.now (596 + 6 * x))
    ∧ (s.dev.outRuns 0 = true → (s.dev.ras.out.get 0).stopped = false → s.dev.vrrOn 0 = true → (s.dev.ras.out.get 0).porch = none →
      (s.dev.ras.out.get 0).total = 0 → s.dev.flipPending 0 = false →
      ∃ t, exec .vrrPorchEnd s = .next t
        ∧ (t.dev.ras.out.get 0).porch = some (bitsOf ((s.dev.ras.out.get 0).act.getD 4 0) 0 13
            - outVsw (s.dev.ras.out.get 0).act - outVbp (s.dev.ras.out.get 0).act - 1))
    ∧ (s.dev.outRuns x = true → s.dev.cmdMode x = false → s.dev.vrrOn x = false → (s.dev.ras.out.get x).stopped = false →
      (s.dev.ras.out.get x).total = 0 →
      ∃ t, exec (.frontBufferSample x) s = .next t ∧ (t.dev.ras.out.get x).next = none
        ∧ (t.dev.ras.out.get x).act = (s.dev.ras.out.get x).next.getD (s.dev.ras.out.get x).act
        ∧ (t.dev.ras.out.get x).total = outVAct (s.dev.ras.out.get x).act + outVfp (s.dev.ras.out.get x).act - 1 + 1
            + outVsw (s.dev.ras.out.get x).act + outVbp (s.dev.ras.out.get x).act)
    ∧ (∀ tick : Fin 64, s.dev.outRuns 1 = true → s.dev.cmdMode 1 = true →
      ∃ t, exec (.teEdge tick) s = .next t ∧ (t.dev.ras.out.get 1).teAt = s.dev.now
        ∧ t.dev.raised s.dev.now 602)
    ∧ (s.dev.outRuns 1 = true → s.dev.cmdMode 1 = true → s.dev.pushBox 1 ≠ none →
      ∃ t, exec .teMiss s = .next t
        ∧ t.dev.now = max s.dev.now (max (s.dev.ras.out.get 1).teAt (s.dev.ras.out.get 1).dueAt
            + max 1 (s.dev.get DPY_TE_TO.MS 1) * 1250000)
        ∧ (t.dev.ras.out.get 1).pushed = s.dev.pushBox 1 ∧ (t.dev.ras.out.get 1).whole = false
        ∧ t.dev.get DPY_CNT_TEMISS.COUNT 1 = min (2 ^ DPY_CNT_TEMISS.COUNT.w - 1) (s.dev.get DPY_CNT_TEMISS.COUNT 1 + 1)
        ∧ t.dev.raised t.dev.now 607)
    ∧ (∃ t, exec .repair s = .next t ∧ t.dev.raised s.dev.now 594
        ∧ t.dev.get RAS_CNT_REPAIR.COUNT = min (2 ^ RAS_CNT_REPAIR.COUNT.w - 1) (s.dev.get RAS_CNT_REPAIR.COUNT + 1)
        ∧ (s.dev.ras.canvas.get c).start ≤ (t.dev.ras.canvas.get c).start
        ∧ (t.dev.ras.canvas.get c).start ≤ (s.dev.ras.canvas.get c).start + 2500)
    ∧ (∀ n : BitVec 24, s.dev.outRuns x = true → (s.dev.ras.out.get x).aborted = false → n ≠ 0 →
      (s.dev.ras.out.get x).repeated = 0 → n.toNat ≤ bitsOf ((s.dev.ras.out.get x).act.getD 8 0) 0 24 →
      ∃ t, exec (.fetchUnderrun x n) s = .next t ∧ (t.dev.ras.out.get x).repeated = n.toNat
        ∧ (t.dev.ras.out.get x).aborted = false ∧ t.dev.raised s.dev.now (599 + 6 * x)
        ∧ t.dev.get DPY_CNT_UNDER.COUNT x
          = min (2 ^ DPY_CNT_UNDER.COUNT.w - 1) (s.dev.get DPY_CNT_UNDER.COUNT x + n.toNat))
    ∧ (∃ t, exec .daHotPlug s = .next t ∧ (t.dev.ras.out.get 0).training = true ∧ t.dev.raised s.dev.now 601
        ∧ t.dev.regs = s.dev.regs)
    ∧ (∀ (rate : Fin 4) (lanes : Fin 3),
      ∃ t, exec (.daLinkTrained (some (rate, lanes))) s = .next t ∧ t.dev.flag DPY_LINK.UP 0 = true
        ∧ t.dev.get DPY_LINK.RATE 0 = rate ∧ t.dev.get DPY_LINK.LANES 0 = 2 ^ lanes.val
        ∧ (t.dev.ras.out.get 0).training = false ∧ t.dev.raised s.dev.now 601)
    ∧ (∃ t, exec (.daLinkTrained none) s = .next t ∧ t.dev.flag DPY_LINK.UP 0 = false
        ∧ (t.dev.ras.out.get 0).training = false ∧ t.dev.raised s.dev.now 601)
    ∧ (s.dev.outRuns 0 = true → (s.dev.ras.out.get 0).stopped = true → (s.dev.ras.out.get 0).total = 0 →
      ∃ t, exec (.frontBufferSample 0) s = .next t ∧ (t.dev.ras.out.get 0).stopped = false
        ∧ (t.dev.ras.out.get 0).act = (s.dev.ras.out.get 0).next.getD (s.dev.ras.out.get 0).act
        ∧ (t.dev.ras.out.get 0).next = none ∧ (t.dev.ras.out.get 0).lineAt = s.dev.now
        ∧ (t.dev.ras.out.get 0).line = 0)

/-- Standby, wake and the power domains (R40, R426, R427, R430, R432, R433, R434). -/
def Obligations.StandbyAndDomainCommandsAct : Prop :=
  ∀ (s : State) (n : Fin 96), s.dev.bus.writes = [] →
    (∀ dormant : Bool, s.dev.pwr.aon = true → s.dev.pwr.mainEn = true → s.dev.pwr.waitPg = false →
      s.dev.pwr.noFw = false → s.dev.pwr.drain = none → s.dev.pwr.fwTrial = none → s.dev.get HK_PWR_STAT.STATE = 0 →
      s.dev.recordOpen = false → s.dev.opsRun = false →
      ∃ t, exec (.standby dormant) s = .next t ∧ t.dev.now = s.dev.now
        ∧ t.dev.get HK_PWR_STAT.STATE = (if dormant = true then 2 else 1)
        ∧ t.dev.pwr.mainEn = ! dormant ∧ t.dev.tb.locked = false
        ∧ (dormant = false → t.dev.get HK_PWR_STAT.RESULT = 1 ∧ t.dev.raised s.dev.now 608)
        ∧ (dormant = true → t.dev.ben.bench = [] ∧ t.dev.tal.mem = []))
    ∧ (∀ dormant : Bool, s.dev.pwr.aon = true → s.dev.pwr.mainEn = true → s.dev.pwr.waitPg = false →
      s.dev.pwr.noFw = false → s.dev.pwr.drain = none → s.dev.get HK_PWR_STAT.STATE = 0 →
      s.dev.recordOpen = true ∨ s.dev.opsRun = true ∨ s.dev.pwr.fwTrial ≠ none →
      ∃ t, exec (.standby dormant) s = .next t ∧ t.dev.get HK_PWR_STAT.RESULT = 2
        ∧ t.dev.get HK_PWR_STAT.STATE = 0 ∧ t.dev.raised s.dev.now 609 ∧ t.dev.pwr = s.dev.pwr)
    ∧ (s.dev.pwr.aon = true → s.dev.pwr.hot = false → s.dev.pwr.noFw = false → s.dev.pwr.wake = none →
      s.dev.get HK_PWR_STAT.STATE = 1 → s.dev.get HK_WAKE_CTL.SRC % 2 = 1 →
      ∃ t, exec .wake s = .next t ∧ t.dev.pwr.wake = some (0, s.dev.now) ∧ t.dev.get HK_WAKE_CAUSE.SRC = 0
        ∧ t.dev.raised s.dev.now 610)
    ∧ (s.dev.pwr.aon = true → s.dev.pwr.hot = false → s.dev.pwr.noFw = false → s.dev.pwr.wake = none →
      s.dev.get HK_PWR_STAT.STATE = 2 → s.dev.get HK_WAKE_CTL.SRC / 2 ^ 4 % 2 = 1 →
      ∃ t, exec (.wakeSource .pps) s = .next t ∧ t.dev.pwr.wake = some (4, s.dev.now)
        ∧ t.dev.pwr.mainEn = true ∧ t.dev.pwr.waitPg = true ∧ t.dev.get HK_WAKE_CAUSE.SRC = 4
        ∧ t.dev.raised s.dev.now 610)
    ∧ (s.dev.pwr.waitPg = true →
      ∃ t, exec .mainPgRise s = .next t ∧ t.dev.pwr.waitPg = false ∧ t.dev.pwr.tripped = false
        ∧ t.dev.raised s.dev.now 617
        ∧ (s.dev.pwr.wake ≠ none → t.dev.get HK_RST_CAUSE.CAUSE = (if s.dev.pwr.tripped = true then 7 else 8)))
    ∧ (s.dev.pwr.wake ≠ none → s.dev.pwr.waitPg = false → s.dev.tb.locked = true → s.dev.pwr.drain = none →
      s.dev.pwr.later = none →
      ∃ t, exec .wakeComplete s = .next t ∧ t.dev.get HK_PWR_STAT.STATE = 0 ∧ t.dev.pwr.wake = none
        ∧ t.dev.pwr.doorbells = [] ∧ t.dev.raised s.dev.now 611)
    ∧ (s.dev.hkActs = true → s.dev.pdNeeded n = false →
      ∃ t, exec (.pdOff (BitVec.ofNat 7 n)) s = .next t ∧ t.dev.pdOn n = false ∧ t.dev.get HK_PD_OFF.RESULT = 1
        ∧ t.dev.get HK_PD_OFF.DOMAIN = n)
    ∧ (s.dev.hkActs = true → s.dev.pdNeeded n = true →
      ∃ t, exec (.pdOff (BitVec.ofNat 7 n)) s = .next t ∧ t.dev.pdOn n = s.dev.pdOn n
        ∧ t.dev.get HK_PD_OFF.RESULT = 2 ∧ t.dev.raised s.dev.now 612)
    ∧ (s.dev.hkActs = true → s.dev.pdNeeded n = false →
      ∃ t, exec (.pdLingerExpiry n) s = .next t ∧ t.dev.pdOn n = false)
    ∧ (∀ dimm : Dimm, s.dev.hkActs = true → s.dev.pdNeeded n = true →
      ∃ t, exec (.blockReady n dimm) s = .next t ∧ t.dev.pdOn n = true
        ∧ (n.val = 56 → t.dev.flag BEN_STAT.BS0_READY = true)
        ∧ (∀ u : Fin 16, n.val = 72 + u.val / 4 → t.dev.decReady u
            = (s.dev.flag DEC_CTL.EN u && s.dev.pdOn (68 + s.dev.get DEC_CFG_ACT.SRC u)
              && s.dev.sliceOn (s.dev.get DEC_CFG_ACT.SRC u))))

/-- Resets, losses of supply and the boot (R428, R434, R435, R436, R437, R438, R443). -/
def Obligations.ResetAndBootCommandsAct : Prop :=
  ∀ (s : State), s.dev.bus.writes = [] →
    (s.dev.pwr.aon = true → s.dev.pwr.mainEn = true → s.dev.pwr.waitPg = false → s.dev.pwr.noFw = false →
      s.dev.pwr.wake = none → s.dev.pwr.drain = none →
      (∃ t, exec .perst s = .next t ∧ t.dev.pwr.drain = some ⟨s.dev.now, true, 2⟩)
        ∧ (∃ t, exec .hotReset s = .next t ∧ t.dev.pwr.drain = some ⟨s.dev.now, true, 3⟩)
        ∧ (∃ t, exec .functionLevelReset s = .next t ∧ t.dev.pwr.drain = some ⟨s.dev.now, true, 4⟩)
        ∧ (∃ t, exec (.warmReset 0xA5) s = .next t ∧ t.dev.pwr.drain = some ⟨s.dev.now, true, 5⟩)
        ∧ (∃ t, exec (.softReset 0xA5) s = .next t ∧ t.dev.pwr.drain = some ⟨s.dev.now, false, 6⟩))
    ∧ (∀ r : Drain, s.dev.pwr.drain = some r → s.dev.pwr.aon = true → s.dev.pwr.mainEn = true →
      s.dev.pwr.waitPg = false → s.dev.pwr.noFw = false → s.dev.pwr.wake = none →
      (∃ t, exec (.warmReset 0xA5) s = .next t
          ∧ t.dev.pwr.drain = some (if r.warm = true then r else ⟨r.frame, true, 5⟩))
        ∧ (∃ t, exec (.softReset 0xA5) s = .next t ∧ t.dev.pwr.drain = some r))
    ∧ (∀ key : Byte, key ≠ 0xA5 →
      (∃ t, exec (.softReset key) s = .next t ∧ t.dev = s.dev) ∧ (∃ t, exec (.warmReset key) s = .next t ∧ t.dev = s.dev))
    ∧ (∀ r : Drain, s.dev.pwr.drain = some r → r.cause < 16 →
      ∃ t, exec .drainEnd s = .next t ∧ t.dev.now = s.dev.now ∧ t.dev.pwr.drain = none
        ∧ t.dev.get HK_RST_CAUSE.CAUSE = r.cause ∧ t.dev.raised s.dev.now 617
        ∧ (∀ l : Fin 16, t.dev.flag REC_LCTL.EN l = false) ∧ (∀ n : Fin 4, t.dev.flag CV_SCTL.EN n = false)
        ∧ (∀ p : Fin 3, t.dev.flag ETH_CTL.EN p = false)
        ∧ t.dev.ndl.prog = s.dev.ndl.prog ∧ t.dev.ras.mem = s.dev.ras.mem)
    ∧ (s.dev.pwr.aon = true → s.dev.pwr.mainEn = true → s.dev.pwr.waitPg = false →
      ∃ t, exec .supplyFault s = .next t ∧ t.dev.pwr.waitPg = true ∧ t.dev.get HK_RST_CAUSE.CAUSE = 1
        ∧ t.dev.get HK_PWR_STAT.STATE = 0 ∧ t.dev.raised s.dev.now 616 ∧ t.dev.pwr.drain = none
        ∧ t.dev.ben.bench = [] ∧ t.dev.ben.quarry = [] ∧ t.dev.tal.mem = [] ∧ t.dev.ndl.prog = []
        ∧ t.dev.ben.journal = s.dev.ben.journal ∧ t.dev.link.up = false)
    ∧ (∃ t, exec .aonPowerOn s = .next t ∧ t.dev.pwr.aon = true ∧ t.dev.pwr.mainEn = false
        ∧ t.dev.get HK_RST_CAUSE.CAUSE = 0 ∧ t.dev.pwr.slotA = s.dev.pwr.slotA
        ∧ t.dev.pwr.slotB = s.dev.pwr.slotB ∧ t.dev.tb.locked = false ∧ t.dev.ben.bench = []
        ∧ t.dev.get GLB_LC.STATE = s.dev.get GLB_LC.STATE)
    ∧ (∃ t, exec .aonPowerLoss s = .next t ∧ t.dev.pwr.aon = false ∧ t.dev.pwr.mainEn = false
        ∧ t.dev.ben.bench = [] ∧ t.dev.ben.journal = 0 ∧ t.dev.pwr.slotA = s.dev.pwr.slotA
        ∧ t.dev.get GLB_LC.STATE = s.dev.get GLB_LC.STATE)
    ∧ (s.dev.pwr.aon = true → s.dev.pwr.mainEn = true →
      ∃ t, exec .thermalTrip s = .next t ∧ t.dev.pwr.mainEn = false ∧ t.dev.pwr.tripped = true
        ∧ t.dev.get HK_PWR_STAT.STATE = 2 ∧ t.dev.ben.bench = [] ∧ (s.dev.qryMigrating = false → t.dev.evr.arriving = []))
    ∧ (∀ g : Bool, s.dev.pwr.aon = true → s.dev.pwr.mainEn = false → s.dev.pwr.noFw = false →
      s.dev.get HK_PWR_STAT.STATE = 0 → s.dev.pwr.slotA.state = 2 → s.dev.pwr.slotB.state < 3 →
      s.dev.get GLB_LC.EPOCH ≤ s.dev.pwr.slotA.epoch →
      ∃ t, exec (.boot (true, g)) s = .next t ∧ t.dev.get HK_BOOT.SLOT = 0 ∧ t.dev.flag HK_BOOT.FALLBACK = false
        ∧ t.dev.pwr.mainEn = true ∧ t.dev.pwr.waitPg = true ∧ t.dev.pwr.fwTrial = none
        ∧ t.dev.get HK_PWR_STAT.STATE = 0)
    ∧ (∀ g : Bool, s.dev.pwr.aon = true → s.dev.pwr.mainEn = false → s.dev.pwr.noFw = false →
      s.dev.get HK_PWR_STAT.STATE = 0 → s.dev.pwr.slotA.state = 2 → s.dev.pwr.slotB.state = 3 →
      s.dev.get GLB_LC.EPOCH ≤ s.dev.pwr.slotB.epoch →
      ∃ t, exec (.boot (g, true)) s = .next t ∧ t.dev.get HK_BOOT.SLOT = 1 ∧ t.dev.pwr.slotB.state = 4
        ∧ t.dev.pwr.runB = true ∧ t.dev.pwr.fwTrial = some s.dev.now)
    ∧ (s.dev.pwr.aon = true → s.dev.pwr.mainEn = false → s.dev.pwr.noFw = false →
      s.dev.get HK_PWR_STAT.STATE = 0 → s.dev.pwr.slotA.state = 2 → s.dev.pwr.slotB.state = 1 →
      s.dev.get GLB_LC.EPOCH ≤ s.dev.pwr.slotB.epoch →
      ∃ t, exec (.boot (false, true)) s = .next t ∧ t.dev.get HK_BOOT.SLOT = 1
        ∧ t.dev.flag HK_BOOT.FALLBACK = true ∧ t.dev.pwr.slotA.state = 5 ∧ t.dev.raised s.dev.now 636)
    ∧ (s.dev.pwr.aon = true → s.dev.pwr.mainEn = false → s.dev.get HK_PWR_STAT.STATE = 0 →
      ∃ t, exec (.boot (false, false)) s = .next t ∧ t.dev.get HK_BOOT.SLOT = 3 ∧ t.dev.pwr.noFw = true
        ∧ t.dev.pwr.mainEn = true ∧ t.dev.get HK_PD_STAT.ON 1 = 2 ^ 26)

/-- Temperatures and firmware (R437, R439, R442, R443, R451). -/
def Obligations.TemperatureAndFirmwareCommandsAct : Prop :=
  ∀ (s : State), s.dev.bus.writes = [] →
    (∀ v : BitVec 16, s.dev.pwr.aon = true → s.dev.pwr.noFw = false → tempOf (s.dev.get HK_THERM.WARN) ≤ v.toInt →
      ∃ t, exec (.tempWarn v) s = .next t ∧ t.dev.get HK_TEMP.TEMP = v.toNat ∧ t.dev.raised s.dev.now 613
        ∧ t.dev.pwr = s.dev.pwr)
    ∧ (∀ v : BitVec 16, s.dev.pwr.aon = true → s.dev.pwr.noFw = false → s.dev.pwr.mainEn = true →
      s.dev.pwr.waitPg = false → s.dev.get HK_PWR_STAT.STATE = 0 → tempOf (s.dev.get HK_THERM.CRIT) ≤ v.toInt →
      ∃ t, exec (.tempCrit v) s = .next t ∧ t.dev.get HK_TEMP.TEMP = v.toNat ∧ t.dev.pwr.hot = true
        ∧ t.dev.get HK_PWR_STAT.STATE = 1 ∧ t.dev.tb.locked = false ∧ t.dev.raised s.dev.now 614
        ∧ t.dev.raised s.dev.now 608 ∧ (∀ l : Fin 16, t.dev.flag REC_LCTL.EN l = false)
        ∧ (s.dev.pwr.fwTrial ≠ none → t.dev.pwr.fwTrial = none ∧ t.dev.get HK_FW_CTL.RESULT = 6
            ∧ t.dev.raised s.dev.now 635))
    ∧ (∀ v : BitVec 16, s.dev.pwr.hot = true → v.toInt < tempOf (s.dev.get HK_THERM.WARN) →
      ∃ t, exec (.tempOk v) s = .next t ∧ t.dev.get HK_TEMP.TEMP = v.toNat ∧ t.dev.pwr.hot = false
        ∧ t.dev.raised s.dev.now 615)
    ∧ (∀ (version : W32) (epoch : BitVec 6), s.dev.hkActs = true → s.dev.pwr.fwTrial = none →
      s.dev.get HK_FW_LEN.BYTES ≤ 0x1000000 → s.dev.get GLB_LC.EPOCH ≤ epoch.toNat →
      ∃ t, exec (.fwStage true version epoch) s = .next t ∧ t.dev.get HK_FW_CTL.RESULT = 1
        ∧ (t.dev.pwr.slot (! s.dev.pwr.runB)).state = 1
        ∧ (t.dev.pwr.slot (! s.dev.pwr.runB)).version = version.toNat
        ∧ (t.dev.pwr.slot (! s.dev.pwr.runB)).epoch = epoch.toNat
        ∧ t.dev.pwr.slot s.dev.pwr.runB = s.dev.pwr.slot s.dev.pwr.runB ∧ t.dev.raised s.dev.now 633)
    ∧ (∀ (version : W32) (epoch : BitVec 6), s.dev.hkActs = true → s.dev.pwr.fwTrial = none →
      ∃ t, exec (.fwStage false version epoch) s = .next t
        ∧ t.dev.get HK_FW_CTL.RESULT = (if 0x1000000 < s.dev.get HK_FW_LEN.BYTES then 3 else 2)
        ∧ t.dev.pwr.slot (! s.dev.pwr.runB) = {}
        ∧ t.dev.pwr.slot s.dev.pwr.runB = s.dev.pwr.slot s.dev.pwr.runB ∧ t.dev.evr = s.dev.evr)
    ∧ (s.dev.hkActs = true → s.dev.pwr.fwTrial = none → (s.dev.pwr.slot (! s.dev.pwr.runB)).state = 1 →
      ∃ t, exec .fwSwitch s = .next t ∧ t.dev.pwr.fwWaiting = true ∧ t.dev.get HK_FW_CTL.RESULT = 4
        ∧ t.dev.pwr.slotA = s.dev.pwr.slotA ∧ t.dev.pwr.slotB = s.dev.pwr.slotB)
    ∧ (s.dev.hkActs = true → s.dev.pwr.fwWaiting = true → s.dev.opsRun = false → s.dev.sec.running = none →
      ∃ t, exec .fwSwitchStart s = .next t ∧ t.dev.pwr.fwTrial = some s.dev.now ∧ t.dev.pwr.fwWaiting = false
        ∧ t.dev.pwr.runB = (! s.dev.pwr.runB) ∧ (t.dev.pwr.slot (! s.dev.pwr.runB)).state = 4
        ∧ t.dev.get HK_BOOT.SLOT = (! s.dev.pwr.runB).toNat ∧ t.dev.raised s.dev.now 632)
    ∧ (∀ f : Nat, s.dev.pwr.fwTrial = some f → s.dev.now < f + 2500000000 →
      ∃ t, exec .fwConfirm s = .next t ∧ t.dev.pwr.fwTrial = none ∧ t.dev.get HK_FW_CTL.RESULT = 5
        ∧ (t.dev.pwr.slot s.dev.pwr.runB).state = 2 ∧ t.dev.raised s.dev.now 634
        ∧ ((s.dev.pwr.slot (! s.dev.pwr.runB)).bootable = true → (t.dev.pwr.slot (! s.dev.pwr.runB)).state = 1)
        ∧ (s.dev.get GLB_LC.EPOCH < (s.dev.pwr.slot s.dev.pwr.runB).epoch →
            (s.dev.pwr.slot s.dev.pwr.runB).epoch < 2 ^ GLB_LC.EPOCH.w →
            t.dev.get GLB_LC.EPOCH = (s.dev.pwr.slot s.dev.pwr.runB).epoch ∧ t.dev.raised s.dev.now 631))
    ∧ (∀ f : Nat, s.dev.pwr.fwTrial = some f →
      ∃ t, exec .fwWatchdog s = .next t ∧ t.dev.now = max s.dev.now (f + 2500000000) ∧ t.dev.pwr.fwTrial = none
        ∧ t.dev.get HK_FW_CTL.RESULT = 6 ∧ (t.dev.pwr.slot s.dev.pwr.runB).state = 5
        ∧ t.dev.pwr.runB = (! s.dev.pwr.runB)
        ∧ t.dev.raised (max s.dev.now (f + 2500000000)) 635)

/-- Test sessions and loop-backs (R466, R467, R469, R470). -/
def Obligations.TestSessionCommandsAct : Prop :=
  ∀ (s : State) (ses : Fin 8), s.dev.bus.writes = [] →
    (∀ v : BitVec 32, s.dev.flag TST_CTL.EN ses = false → v.toNat / 2 ^ 8 % 16 < 4 → v.toNat / 2 ^ 16 % 4 < 2 →
      v.toNat / 2 ^ 20 % 8 < 6 → v.toNat % 8 = 0 → s.dev.flag CV_SCTL.EN (v.toNat / 2 ^ 8 % 16) = false →
      (∀ o : Fin 8, o ≠ ses → s.dev.flag TST_CTL.EN o = false) →
      ∃ t, exec (.testSessionStart ses v) s = .next t ∧ t.dev.now = s.dev.now + 1 ∧ t.dev.flag TST_CTL.EN ses = true
        ∧ t.dev.get TST_STAT.RESULT ses = 1 ∧ t.dev.get TST_CTL.IF ses = 0
        ∧ t.dev.get TST_CTL.UNIT ses = v.toNat / 2 ^ 8 % 16 ∧ t.dev.get TST_CTL.DEPTH ses = v.toNat / 2 ^ 16 % 4
        ∧ t.dev.get TST_BITS.COUNT ses = 0 ∧ t.dev.get TST_ERRS.COUNT ses = 0
        ∧ t.dev.get TST_LOSS.COUNT ses = 0 ∧ t.dev.flag TST_STAT.LOCK ses = false
        ∧ t.dev.pdOn (10 * (v.toNat / 2 ^ 8 % 16) + 8) = true)
    ∧ (∀ (v : BitVec 32) (r : Nat), s.dev.flag TST_CTL.EN ses = false →
      ((s.dev.wr ⟨.TST_CTL, ses, 0, 0⟩ (v.setWidth 64)).putb TST_CTL.EN false ses).testResult ses = r → r ≠ 1 →
      ∃ t, exec (.testSessionStart ses v) s = .next t ∧ t.dev.flag TST_CTL.EN ses = false
        ∧ t.dev.get TST_STAT.RESULT ses = r ∧ 3 ≤ r ∧ r ≤ 6
        ∧ s.dev.keepsRegs t.dev [.TST_CTL, .TST_STAT])
    ∧ (∀ bits errs : BitVec 64, s.dev.flag TST_CTL.EN ses = true →
      ∃ t, exec (.testSessionEnd ses bits errs) s = .next t ∧ t.dev.flag TST_CTL.EN ses = false
        ∧ t.dev.get TST_STAT.RESULT ses = 2 ∧ t.dev.flag TST_STAT.LOCK ses = false
        ∧ t.dev.get TST_BITS.COUNT ses = (if s.dev.flag TST_STAT.LOCK ses = true
            then (s.dev.get TST_BITS.COUNT ses + bits.toNat) % 2 ^ 64 else s.dev.get TST_BITS.COUNT ses)
        ∧ t.dev.get TST_ERRS.COUNT ses = (if s.dev.flag TST_STAT.LOCK ses = true
            then (s.dev.get TST_ERRS.COUNT ses + errs.toNat) % 2 ^ 64 else s.dev.get TST_ERRS.COUNT ses)
        ∧ t.dev.evr = s.dev.evr)
    ∧ (s.dev.linkPowered = true → s.dev.link.up = true →
      ∃ t, exec .pcieLoopback s = .next t ∧ t.dev.link.up = false ∧ t.dev.sec.loopback = true
        ∧ t.dev.raised s.dev.now 513)
    ∧ (s.dev.flag TST_CTL.EN ses = true → s.dev.get TST_CTL.IF ses < 5 →
      ¬ (s.dev.get TST_CTL.IF ses = 3 ∧ s.dev.get TST_CTL.DEPTH ses = 2) →
      ∃ t, exec (.checkerLock ses) s = .next t ∧ t.dev.flag TST_STAT.LOCK ses = true
        ∧ t.dev.get TST_STAT.RESULT ses = s.dev.get TST_STAT.RESULT ses
        ∧ s.dev.keepsRegs t.dev [.TST_STAT] ∧ t.dev.evr = s.dev.evr)
    ∧ (∀ bits errs : BitVec 64, s.dev.flag TST_CTL.EN ses = true → s.dev.get TST_CTL.IF ses < 5 →
      ¬ (s.dev.get TST_CTL.IF ses = 3 ∧ s.dev.get TST_CTL.DEPTH ses = 2) → s.dev.flag TST_STAT.LOCK ses = true →
      ∃ t, exec (.checkerLockLoss ses bits errs) s = .next t ∧ t.dev.flag TST_STAT.LOCK ses = false
        ∧ t.dev.flag TST_CTL.EN ses = true
        ∧ t.dev.get TST_LOSS.COUNT ses = (s.dev.get TST_LOSS.COUNT ses + 1) % 2 ^ 32
        ∧ t.dev.get TST_BITS.COUNT ses = (s.dev.get TST_BITS.COUNT ses + bits.toNat) % 2 ^ 64
        ∧ t.dev.get TST_ERRS.COUNT ses = (s.dev.get TST_ERRS.COUNT ses + errs.toNat) % 2 ^ 64)

/-- Signed life-cycle commands and debug tokens (R445, R447, R448, R449, R450, R455). -/
def Obligations.SignedCommandsAct : Prop :=
  ∀ (s : State), s.dev.bus.writes = [] →
    (∀ l : List Byte, ((s.dev.sec.running = some 1 ∧ s.dev.sec.block = l)
        ∨ (s.dev.sec.running = none ∧ s.dev.get HK_PWR_STAT.STATE = 0 ∧ s.dev.pwr.fwTrial = none
        ∧ s.dev.secKind = 1 ∧ s.dev.secCheck = 2 ∧ s.dev.secBytes = l)) →
      (∃ t, exec (.provision true) s = .next t ∧ t.dev.get GLB_LC.STATE = 1
          ∧ t.dev.sec.cmk = (l.drop 24).take 48 ∧ t.dev.get SEC_STAT.RESULT = 2 ∧ t.dev.sec.running = none ∧ t.dev.raised s.dev.now 625
          ∧ t.dev.raised s.dev.now 624)
        ∧ (∃ t, exec (.provision false) s = .next t ∧ t.dev.get SEC_STAT.RESULT = 9 ∧ t.dev.sec.running = none
            ∧ t.dev.raised s.dev.now 626 ∧ t.dev.sec.ok = s.dev.sec.ok ∧ t.dev.sec.cmk = s.dev.sec.cmk
            ∧ s.dev.keepsRegs t.dev [.SEC_STAT, .SEC_NONCE]))
    ∧ (∀ l : List Byte, ((s.dev.sec.running = some 2 ∧ s.dev.sec.block = l)
        ∨ (s.dev.sec.running = none ∧ s.dev.get HK_PWR_STAT.STATE = 0 ∧ s.dev.pwr.fwTrial = none
        ∧ s.dev.secKind = 2 ∧ s.dev.secCheck = 2 ∧ s.dev.secBytes = l)) →
      (∃ t, exec (.field_ true) s = .next t ∧ t.dev.get GLB_LC.STATE = 2
          ∧ t.dev.sec.ok = [(l.drop 24).take 48] ∧ t.dev.get SEC_STAT.SCOPE_OPEN = 0
          ∧ t.dev.get SEC_STAT.RESULT = 2 ∧ t.dev.sec.running = none ∧ t.dev.raised s.dev.now 625 ∧ t.dev.raised s.dev.now 624)
        ∧ (∃ t, exec (.field_ false) s = .next t ∧ t.dev.get SEC_STAT.RESULT = 9 ∧ t.dev.sec.running = none
            ∧ t.dev.raised s.dev.now 626 ∧ t.dev.sec.ok = s.dev.sec.ok ∧ t.dev.sec.cmk = s.dev.sec.cmk
            ∧ s.dev.keepsRegs t.dev [.SEC_STAT, .SEC_NONCE]))
    ∧ (∀ l : List Byte, ((s.dev.sec.running = some 3 ∧ s.dev.sec.block = l)
        ∨ (s.dev.sec.running = none ∧ s.dev.get HK_PWR_STAT.STATE = 0 ∧ s.dev.pwr.fwTrial = none
        ∧ s.dev.secKind = 3 ∧ s.dev.secCheck = 2 ∧ s.dev.secBytes = l)) →
      (∃ t, exec (.ownerAdd true) s = .next t
          ∧ t.dev.sec.ok = s.dev.sec.ok ++ [(l.drop 24).take 48]
          ∧ t.dev.get GLB_LC.STATE = s.dev.get GLB_LC.STATE ∧ t.dev.get SEC_STAT.RESULT = 2 ∧ t.dev.sec.running = none ∧ t.dev.raised s.dev.now 625)
        ∧ (∃ t, exec (.ownerAdd false) s = .next t ∧ t.dev.get SEC_STAT.RESULT = 9 ∧ t.dev.sec.running = none
            ∧ t.dev.raised s.dev.now 626 ∧ t.dev.sec.ok = s.dev.sec.ok ∧ t.dev.sec.cmk = s.dev.sec.cmk
            ∧ s.dev.keepsRegs t.dev [.SEC_STAT, .SEC_NONCE]))
    ∧ (∀ l : List Byte, ((s.dev.sec.running = some 4 ∧ s.dev.sec.block = l)
        ∨ (s.dev.sec.running = none ∧ s.dev.get HK_PWR_STAT.STATE = 0 ∧ s.dev.pwr.fwTrial = none
        ∧ s.dev.secKind = 4 ∧ s.dev.secCheck = 2 ∧ s.dev.secBytes = l)) →
      field l 5 1 < 4 →
      (∃ t, exec (.ownerRevoke true) s = .next t ∧ t.dev.bitOf GLB_LC.OK_REVOKED (field l 5 1) = true
          ∧ (∀ n : Fin 4, n.val ≠ field l 5 1 →
              t.dev.bitOf GLB_LC.OK_REVOKED n = s.dev.bitOf GLB_LC.OK_REVOKED n)
          ∧ t.dev.sec.ok = s.dev.sec.ok ∧ t.dev.get SEC_STAT.RESULT = 2 ∧ t.dev.sec.running = none ∧ t.dev.raised s.dev.now 625)
        ∧ (∃ t, exec (.ownerRevoke false) s = .next t ∧ t.dev.get SEC_STAT.RESULT = 9 ∧ t.dev.sec.running = none
            ∧ t.dev.raised s.dev.now 626 ∧ t.dev.sec.ok = s.dev.sec.ok ∧ t.dev.sec.cmk = s.dev.sec.cmk
            ∧ s.dev.keepsRegs t.dev [.SEC_STAT, .SEC_NONCE]))
    ∧ (∀ l : List Byte, ((s.dev.sec.running = some 6 ∧ s.dev.sec.block = l)
        ∨ (s.dev.sec.running = none ∧ s.dev.get HK_PWR_STAT.STATE = 0 ∧ s.dev.pwr.fwTrial = none
        ∧ s.dev.secKind = 6 ∧ s.dev.secCheck = 2 ∧ s.dev.secBytes = l)) →
      (∃ t, exec (.return_ true) s = .next t ∧ t.dev.get GLB_LC.STATE = 3 ∧ t.dev.get GLB_LC.OK_REVOKED = 15
          ∧ t.dev.flag GLB_LC.CMK_REVOKED = true ∧ t.dev.flag GLB_LC.ERASE_DONE = true
          ∧ (∀ l : Fin 16, t.dev.flag REC_LCTL.EN l = false) ∧ (∀ i : Fin 32, t.dev.faKey.get i = 0)
          ∧ t.dev.ben.bench = [] ∧ t.dev.tal.mem = [] ∧ t.dev.ras.mem = [] ∧ t.dev.ndl.prog = []
          ∧ t.dev.sec.session = [] ∧ t.dev.sec.ide = [] ∧ t.dev.get SEC_STAT.RESULT = 2 ∧ t.dev.sec.running = none ∧ t.dev.raised s.dev.now 625
          ∧ t.dev.raised s.dev.now 624 ∧ t.dev.raised s.dev.now 628)
        ∧ (∃ t, exec (.return_ false) s = .next t ∧ t.dev.get SEC_STAT.RESULT = 9 ∧ t.dev.sec.running = none
            ∧ t.dev.raised s.dev.now 626 ∧ t.dev.sec.ok = s.dev.sec.ok ∧ t.dev.sec.cmk = s.dev.sec.cmk
            ∧ s.dev.keepsRegs t.dev [.SEC_STAT, .SEC_NONCE]))
    ∧ (s.dev.sec.running = none → s.dev.get HK_PWR_STAT.STATE = 0 → s.dev.pwr.fwTrial = none → s.dev.secKind = 5 →
      s.dev.secCheck = 2 →
      ∃ t, exec .debug s = .next t ∧ t.dev.get SEC_STAT.RESULT = 2 ∧ t.dev.sec.running = none ∧ t.dev.raised s.dev.now 625
        ∧ t.dev.get SEC_STAT.SCOPE_OPEN = s.dev.get SEC_STAT.SCOPE_OPEN ||| field s.dev.secBytes 6 2
        ∧ (field s.dev.secBytes 6 2 ≠ 0 → t.dev.raised s.dev.now 627)
        ∧ t.dev.get GLB_LC.STATE = s.dev.get GLB_LC.STATE)
    ∧ (∀ r : Nat, s.dev.sec.running = none → s.dev.get HK_PWR_STAT.STATE = 0 → s.dev.pwr.fwTrial = none →
      s.dev.secKind = 5 → s.dev.secCheck = r → r ≠ 2 →
      ∃ t, exec .debug s = .next t ∧ t.dev.get SEC_STAT.RESULT = r ∧ 4 ≤ r ∧ r ≤ 8 ∧ t.dev.raised s.dev.now 626
        ∧ s.dev.keepsRegs t.dev [.SEC_STAT, .SEC_NONCE]
        ∧ t.dev.get SEC_STAT.SCOPE_OPEN = s.dev.get SEC_STAT.SCOPE_OPEN)
    ∧ (∀ k : Nat, s.dev.sec.running = some k → s.dev.secKind = 5 →
      ∃ t, exec .debug s = .next t ∧ t.dev.get SEC_STAT.RESULT = 3 ∧ t.dev.sec.running = some k
        ∧ t.dev.raised s.dev.now 626 ∧ t.dev.get SEC_STAT.SCOPE_OPEN = s.dev.get SEC_STAT.SCOPE_OPEN)

/-- The SPDM responder and PCI Express IDE (R452, R453, R454, R456). -/
def Obligations.SpdmCommandsAct : Prop :=
  ∀ (s : State) (ses stream : Fin 2), s.dev.bus.writes = [] →
    (s.dev.link.up = true →
      ∃ t, exec .getVersion s = .next t ∧ t.dev.sec.agreed = 1 ∧ t.dev.sec.answer = 0x04 ∧ t.dev.regs = s.dev.regs)
    ∧ (s.dev.link.up = true → 1 ≤ s.dev.sec.agreed →
      ∃ t, exec .getCapabilities s = .next t ∧ t.dev.sec.agreed = max 2 s.dev.sec.agreed
        ∧ t.dev.sec.answer = 0x61)
    ∧ (s.dev.link.up = true → 2 ≤ s.dev.sec.agreed →
      ∃ t, exec .negotiateAlgorithms s = .next t ∧ t.dev.sec.agreed = max 3 s.dev.sec.agreed
        ∧ t.dev.sec.answer = 0x63)
    ∧ (∀ slot : Fin 8, s.dev.link.up = true → 3 ≤ s.dev.sec.agreed → slot.val < 2 →
      (∃ t, exec .getDigests s = .next t ∧ t.dev.sec.answer = 0x01 ∧ t.dev.sec.agreed = s.dev.sec.agreed)
        ∧ (∃ t, exec (.getCertificate slot) s = .next t ∧ t.dev.sec.answer = 0x02 ∧ t.dev.sec.report = [slot.val])
        ∧ (∃ t, exec (.challenge slot) s = .next t ∧ t.dev.sec.answer = 0x03 ∧ t.dev.sec.report = [slot.val]))
    ∧ (∀ i : Fin 4, s.dev.link.up = true → 3 ≤ s.dev.sec.agreed →
      ∃ t, exec (.getMeasurements (BitVec.ofNat 8 (i + 1))) s = .next t ∧ t.dev.sec.answer = 0x60
        ∧ t.dev.sec.report = [s.dev.sec.meas.get (i + 1)] ∧ t.dev.sec.meas = s.dev.sec.meas)
    ∧ (s.dev.link.up = true → 3 ≤ s.dev.sec.agreed → (s.dev.sec.session.get ses).state = 0 →
      (∀ o : Fin 2, o.val < ses.val → (s.dev.sec.session.get o).state ≠ 0) →
      ∃ t, exec .keyExchange s = .next t ∧ t.dev.sec.answer = 0x64 ∧ t.dev.sec.report = [ses.val]
        ∧ t.dev.sec.session.get ses = { state := 1 }
        ∧ (∀ o : Fin 2, o ≠ ses → t.dev.sec.session.get o = s.dev.sec.session.get o))
    ∧ (s.dev.link.up = true → 3 ≤ s.dev.sec.agreed → (∀ o : Fin 2, (s.dev.sec.session.get o).state ≠ 0) →
      ∃ t, exec .keyExchange s = .next t ∧ t.dev.sec.answer = 0x7F ∧ t.dev.sec.session = s.dev.sec.session)
    ∧ (s.dev.link.up = true → 3 ≤ s.dev.sec.agreed → (s.dev.sec.session.get ses).state = 1 →
      ∃ t, exec (.finish ses) s = .next t ∧ t.dev.sec.answer = 0x65
        ∧ (t.dev.sec.session.get ses).state = 2 ∧ t.dev.raised s.dev.now 629)
    ∧ (s.dev.link.up = true → 3 ≤ s.dev.sec.agreed → (s.dev.sec.session.get ses).state = 2 →
      (∃ t, exec (.keyUpdate ses) s = .next t ∧ t.dev.sec.answer = 0x69
          ∧ t.dev.sec.session.get ses = { state := 2, updates := (s.dev.sec.session.get ses).updates + 1 })
        ∧ (∃ t, exec (.heartbeat ses) s = .next t ∧ t.dev.sec.answer = 0x68
          ∧ t.dev.sec.session = s.dev.sec.session)
        ∧ (∃ t, exec (.endSession ses) s = .next t ∧ t.dev.sec.answer = 0x6C
          ∧ (t.dev.sec.session.get ses).state = 0 ∧ t.dev.raised s.dev.now 629)
        ∧ (∀ k : BitVec 256, ∃ t, exec (.vendorDefinedRequest ses stream (some k)) s = .next t
          ∧ t.dev.sec.answer = 0x7E ∧ t.dev.sec.ide.get stream = { state := 1, key := k })
        ∧ ((s.dev.sec.ide.get stream).state = 1 → ∃ t, exec (.vendorDefinedRequest ses stream none) s = .next t
          ∧ t.dev.sec.answer = 0x7E ∧ t.dev.sec.ide.get stream = { s.dev.sec.ide.get stream with state := 2 }))
    ∧ (s.dev.link.up = true → (s.dev.sec.session.get ses).state ≠ 2 →
      (∃ t, exec (.heartbeat ses) s = .next t ∧ t.dev.sec.answer = 0x7F)
        ∧ (∃ t, exec (.endSession ses) s = .next t ∧ t.dev.sec.answer = 0x7F ∧ t.dev.evr = s.dev.evr))
    ∧ ((s.dev.sec.ide.get stream).state = 2 →
      ∃ t, exec (.ideError stream) s = .next t ∧ (t.dev.sec.ide.get stream).state = 3
        ∧ t.dev.get SEC_CNT_IDE.COUNT = min (2 ^ SEC_CNT_IDE.COUNT.w - 1) (s.dev.get SEC_CNT_IDE.COUNT + 1)
        ∧ t.dev.raised s.dev.now 630)

/-- REF_OUT follows its bits and the lock (R38, R97, R106, R115). -/
def Obligations.RefOutFollowsTheLock : Prop :=
  ∀ s : State, s.dev.bus.writes = [] →
    (∃ t, exec .synthUnlock s = .next t ∧ t.dev.tb.locked = false ∧ t.dev.refOut = 0)
    ∧ (∃ t, exec .synthLock s = .next t ∧ t.dev.tb.locked = true
        ∧ t.dev.refOut = (if s.dev.flag TB_REF_CTL.REFOUT_EN = false then 0
            else if s.dev.flag TB_REF_CTL.REFOUT_100 = true then 100 else 10))
    ∧ (∀ v : W32, s.dev.hostMode = 1 →
      ∃ t, exec (.registerWrite [⟨.host, 0x200000, 4, v.setWidth 64⟩]) s = .next t ∧ t.dev.refOut = s.dev.refOut
        ∧ t.dev.frameEnd.refOut = (if s.dev.tb.locked = false ∨ v.getLsbD 4 = false then 0
            else if v.getLsbD 5 = true then 100 else 10))

/-- The writes of a frame apply in the order of their requesters, and what stands acts (R38, R494). -/
def Obligations.FrameWritesApplyInOrder : Prop :=
  (∀ ws : List FrameWrite,
      (sortWrites ws).Pairwise (fun x y => x.rank ≤ y.rank)
      ∧ ∀ r : Nat, (sortWrites ws).filter (fun x => x.rank == r) = ws.filter (fun x => x.rank == r))
    ∧ (∀ (q : Fin 4096) (c : Fin 64) (m n : Fin 16), m.val < n.val →
      rqRank .host < rqRank (.cmdq q) ∧ rqRank (.cmdq q) < rqRank (.xfer c) ∧ rqRank (.xfer c) < rqRank .hk
        ∧ rqRank .hk < rqRank (.needle m) ∧ rqRank (.needle m) < rqRank (.needle n))
    ∧ (∀ (s : State) (v w : W32) (e : Fin 640), s.dev.bus.writes = [] → s.dev.hostMode = 1 →
      ∃ t u, exec (.registerWrite [⟨.hk, 0xf01000 + 4 * e.val, 4, w.setWidth 64⟩]) s = .next t
        ∧ exec (.registerWrite [⟨.host, 0xf01000 + 4 * e.val, 4, v.setWidth 64⟩]) t = .next u
        ∧ u.dev.now = s.dev.now ∧ u.dev.regs = s.dev.regs
        ∧ u.dev.frameEnd.now = s.dev.now + 1
        ∧ u.dev.frameEnd.rd ⟨.EVR_CFG, e, 0, 0⟩ = w.setWidth 64 &&& Reg.mask ⟨.EVR_CFG, e, 0, 0⟩)
    ∧ (∀ (s : State) (n : Fin 4) (b : Bool), s.dev.bus.writes = [] → s.dev.hostMode = 1 →
      s.dev.flag CV_SCTL.EN n = b →
      ∃ t u, exec (.registerWrite [⟨.host, 0x300000 + 0x40000 * n.val, 4, if b = true then 0 else 1⟩]) s
          = .next t
        ∧ exec (.registerWrite [⟨.hk, 0x300000 + 0x40000 * n.val, 4, if b = true then 1 else 0⟩]) t
          = .next u
        ∧ u.dev.frameEnd.flag CV_SCTL.EN n = b ∧ u.dev.frameEnd.slice = s.dev.slice)

/-- A read changes nothing but what reads are said to change (R14, R18, R36, R110, R431). -/
def Obligations.ReadsLeaveTheRestUnchanged : Prop :=
  ∀ (s t : State) (rq : Rq) (addr : Nat), s.dev.hasWritten rq = false →
    (exec (.lowHalfRead rq addr) s = .next t ∨ exec (.highHalfRead rq addr) s = .next t
        ∨ exec (.snapshotWordRead rq addr) s = .next t →
      s.onlyJoins t [.bus] [.GLB_ACC_ERR, .GLB_CNT_SAT, .HK_CNT_SLEEPACC])
    ∧ (exec (.tbNow0Read rq) s = .next t →
      s.onlyJoins t [.bus, .timeBase] [.GLB_ACC_ERR, .GLB_CNT_SAT, .HK_CNT_SLEEPACC])
    ∧ (∀ inc : W64, exec (.rcRead rq addr inc) s = .next t →
      t.pending = s.pending ∧ (∀ p : Part, p ∉ [Part.bus, .timeBase, .eventInputs, .events] → p.same s.dev t.dev)
        ∧ ∀ r : Reg, r.g.fam.bits (· == .rc) = 0 →
            r.g ∉ [Rg.GLB_CNT_SAT, .HK_CNT_SLEEPACC, .EVI_ISTAT, .EVI_CNT_NOCLK, .EVI_IU_STAT, .EVI_IU_CNT_EARLY,
              .EVI_IU_CNT_LOST, .EVI_IU_CNT_DROP, .EVI_IU_CNT_RES, .GLB_ACC_ERR] → t.dev.rd r = s.dev.rd r)
    ∧ (∀ (wide : Bool) (data : W64), s.dev.hasWritten .host = false →
      exec (.bar0UnmappedAccess false addr wide data) s = .next t →
      t.pending = s.pending ∧ (∀ p : Part, p ∉ [Part.bus, .timeBase, .eventInputs, .events] → p.same s.dev t.dev)
        ∧ ∀ r : Reg, r.g.fam.bits (· == .rc) = 0 →
            r.g ∉ [Rg.GLB_CNT_SAT, .HK_CNT_SLEEPACC, .EVI_ISTAT, .EVI_CNT_NOCLK, .EVI_IU_STAT, .EVI_IU_CNT_EARLY,
              .EVI_IU_CNT_LOST, .EVI_IU_CNT_DROP, .EVI_IU_CNT_RES, .GLB_ACC_ERR] → t.dev.rd r = s.dev.rd r)
end

