-- ==== Sys2Proof/Laws/Sparse.lean ====
section
/-!
SUPPORT. The laws of sparse tables and of byte memories: a read after a write, and that every operation keeps the
canonical form. The laws of reads hold for every list, canonical or not.
-/
namespace Sys2Proof.Machine

section
variable {κ α : Type} [DecidableEq κ]

theorem Sparse.erase_cons (k : κ) (e : κ × α) (t : List (κ × α)) :
    Sparse.erase k (e :: t) = if e.1 = k then Sparse.erase k t else e :: Sparse.erase k t := by
  rw [Sparse.erase, List.filter_cons]
  by_cases h : e.1 = k <;> simp [h, Sparse.erase]

theorem Sparse.get_erase_same (dflt : α) (k : κ) (l : List (κ × α)) : Sparse.get dflt k (Sparse.erase k l) = dflt := by
  induction l with
  | nil => rfl
  | cons e t ih =>
    rw [Sparse.erase_cons]
    split
    · exact ih
    · next h => simpa [Sparse.get, Ne.symm h] using ih

theorem Sparse.get_erase_ne (dflt : α) {k k' : κ} (h : k' ≠ k) (l : List (κ × α)) :
    Sparse.get dflt k' (Sparse.erase k l) = Sparse.get dflt k' l := by
  induction l with
  | nil => rfl
  | cons e t ih =>
    rw [Sparse.erase_cons]
    split
    · next hk =>
      have h' : ¬ k' = e.1 := fun x => h (x.trans hk)
      simpa [Sparse.get, h'] using ih
    · simp [Sparse.get, ih]

theorem Sparse.get_insert_ne (lt : κ → κ → Bool) (dflt : α) {k k' : κ} (h : k' ≠ k) (v : α) (l : List (κ × α)) :
    Sparse.get dflt k' (Sparse.insert lt k v l) = Sparse.get dflt k' l := by
  induction l with
  | nil => simp [Sparse.insert, Sparse.get, h]
  | cons e t ih =>
    rw [Sparse.insert]
    split
    · simp [Sparse.get, h]
    · simp [Sparse.get, ih]

theorem Sparse.get_insert_same (lt : κ → κ → Bool) (dflt : α) (k : κ) (v : α) (l : List (κ × α)) :
    Sparse.get dflt k (Sparse.insert lt k v (Sparse.erase k l)) = v := by
  induction l with
  | nil => simp [Sparse.erase, Sparse.insert, Sparse.get]
  | cons e t ih =>
    rw [Sparse.erase_cons]
    split
    · exact ih
    · next hk =>
      rw [Sparse.insert]
      split
      · simp [Sparse.get]
      · simpa [Sparse.get, Ne.symm hk] using ih

variable [DecidableEq α]

/-- A read after a write of the same key gives the value written. -/
@[simp] theorem Sparse.get_put_same (lt : κ → κ → Bool) (dflt : α) (k : κ) (v : α) (l : List (κ × α)) :
    Sparse.get dflt k (Sparse.put lt dflt k v l) = v := by
  rw [Sparse.put]
  split
  · next h => rw [Sparse.get_erase_same, h]
  · exact Sparse.get_insert_same lt dflt k v l

/-- A write leaves every other key as it was, whatever an unlisted key reads as. -/
theorem Sparse.get_put_ne (lt : κ → κ → Bool) (dflt dflt' : α) {k k' : κ} (h : k' ≠ k) (v : α) (l : List (κ × α)) :
    Sparse.get dflt' k' (Sparse.put lt dflt k v l) = Sparse.get dflt' k' l := by
  rw [Sparse.put]
  split
  · exact Sparse.get_erase_ne dflt' h l
  · rw [Sparse.get_insert_ne lt dflt' h, Sparse.get_erase_ne dflt' h]

theorem Sparse.get_put (lt : κ → κ → Bool) (dflt : α) (k k' : κ) (v : α) (l : List (κ × α)) :
    Sparse.get dflt k' (Sparse.put lt dflt k v l) = if k' = k then v else Sparse.get dflt k' l := by
  split
  · next h => rw [h, Sparse.get_put_same]
  · next h => exact Sparse.get_put_ne lt dflt dflt h v l

/-! ### The canonical form -/

omit [DecidableEq κ] [DecidableEq α] in
theorem Sparse.above_sublist {lt : κ → κ → Bool} {k : κ} {l l' : List (κ × α)} (h : l'.Sublist l)
    (ha : Sparse.above lt k l = true) : Sparse.above lt k l' = true := by
  rw [Sparse.above, List.all_eq_true] at *
  exact fun e he => ha e (h.subset he)

omit [DecidableEq κ] [DecidableEq α] in
/-- What is left of a canonical list after entries have been taken out is canonical. -/
theorem Sparse.wf_sublist {lt : κ → κ → Bool} {ok : κ → α → Bool} {l l' : List (κ × α)} (h : l'.Sublist l)
    (hw : Sparse.wf lt ok l = true) : Sparse.wf lt ok l' = true := by
  induction h with
  | slnil => rfl
  | cons e _ ih =>
    rw [Sparse.wf, Bool.and_eq_true] at hw
    exact ih hw.2
  | cons_cons e hs ih =>
    rw [Sparse.wf, Bool.and_eq_true, Bool.and_eq_true] at *
    exact ⟨⟨hw.1.1, Sparse.above_sublist hs hw.1.2⟩, ih hw.2⟩

omit [DecidableEq κ] [DecidableEq α] in
theorem Sparse.above_insert {lt : κ → κ → Bool} {a k : κ} {v : α} {l : List (κ × α)} (hk : lt a k = true)
    (h : Sparse.above lt a l = true) : Sparse.above lt a (Sparse.insert lt k v l) = true := by
  induction l with
  | nil => simp [Sparse.insert, Sparse.above, hk]
  | cons e t ih =>
    simp only [Sparse.above, List.all_cons, Bool.and_eq_true] at h
    rw [Sparse.insert]
    split
    · simp only [Sparse.above, List.all_cons, Bool.and_eq_true]
      exact ⟨hk, h⟩
    · have := ih h.2
      simp only [Sparse.above, List.all_cons, Bool.and_eq_true] at *
      exact ⟨h.1, this⟩

omit [DecidableEq κ] [DecidableEq α] in
/-- Inserting a new key keeps the canonical form, for an order that is total and transitive. -/
theorem Sparse.wf_insert {lt : κ → κ → Bool} {ok : κ → α → Bool} (tr : ∀ a b c, lt a b = true → lt b c = true → lt a c = true)
    (tot : ∀ a b, a ≠ b → lt a b = false → lt b a = true) {k : κ} {v : α} (hv : ok k v = true) {l : List (κ × α)}
    (hn : ∀ e ∈ l, e.1 ≠ k) (hw : Sparse.wf lt ok l = true) : Sparse.wf lt ok (Sparse.insert lt k v l) = true := by
  induction l with
  | nil => simp [Sparse.insert, Sparse.wf, Sparse.above, hv]
  | cons e t ih =>
    rw [Sparse.wf, Bool.and_eq_true, Bool.and_eq_true] at hw
    rw [Sparse.insert]
    split
    · next h =>
      rw [Sparse.wf, Bool.and_eq_true, Bool.and_eq_true, Sparse.wf, Bool.and_eq_true, Bool.and_eq_true]
      refine ⟨⟨hv, ?_⟩, hw⟩
      simp only [Sparse.above, List.all_cons, Bool.and_eq_true, List.all_eq_true]
      refine ⟨h, fun x hx => tr _ _ _ h ?_⟩
      exact (List.all_eq_true.1 hw.1.2) x hx
    · next h =>
      rw [Sparse.wf, Bool.and_eq_true, Bool.and_eq_true]
      have hne : k ≠ e.1 := fun x => hn e (by simp) x.symm
      exact ⟨⟨hw.1.1, Sparse.above_insert (tot _ _ hne (by simpa using h)) hw.1.2⟩,
        ih (fun x hx => hn x (by simp [hx])) hw.2⟩

/-- A write keeps the canonical form. -/
theorem Sparse.wf_put {lt : κ → κ → Bool} {ok : κ → α → Bool} (tr : ∀ a b c, lt a b = true → lt b c = true → lt a c = true)
    (tot : ∀ a b, a ≠ b → lt a b = false → lt b a = true) {dflt : α} {k : κ} {v : α} (hv : v ≠ dflt → ok k v = true)
    {l : List (κ × α)} (hw : Sparse.wf lt ok l = true) : Sparse.wf lt ok (Sparse.put lt dflt k v l) = true := by
  have he : Sparse.wf lt ok (Sparse.erase k l) = true := Sparse.wf_sublist List.filter_sublist hw
  rw [Sparse.put]
  split
  · exact he
  · next h => exact Sparse.wf_insert tr tot (hv h) (fun e h => by simpa using (List.mem_filter.1 h).2) he

end

/-! ### Tables of numbered things -/

section
variable {α : Type} [Inhabited α] [DecidableEq α]

@[simp] theorem Tab.get_set_same (t : Tab α) (k : Nat) (v : α) : Tab.get (Tab.set t k v) k = v :=
  Sparse.get_put_same _ _ _ _ _

theorem Tab.get_set_ne (t : Tab α) {k k' : Nat} (h : k' ≠ k) (v : α) : Tab.get (Tab.set t k v) k' = Tab.get t k' :=
  Sparse.get_put_ne _ _ _ h _ _

@[simp] theorem Tab.get_upd_same (t : Tab α) (k : Nat) (f : α → α) : Tab.get (Tab.upd t k f) k = f (Tab.get t k) :=
  Tab.get_set_same _ _ _

theorem Tab.get_upd_ne (t : Tab α) {k k' : Nat} (h : k' ≠ k) (f : α → α) : Tab.get (Tab.upd t k f) k' = Tab.get t k' :=
  Tab.get_set_ne _ h _

theorem Tab.get_upd (t : Tab α) (k k' : Nat) (f : α → α) :
    Tab.get (Tab.upd t k f) k' = if k' = k then f (Tab.get t k) else Tab.get t k' := by
  split
  · next h => rw [h, Tab.get_upd_same]
  · next h => exact Tab.get_upd_ne t h f

theorem Tab.wf_set {t : Tab α} (h : Tab.wf t = true) (k : Nat) (v : α) : Tab.wf (Tab.set t k v) = true := by
  refine Sparse.wf_put (lt := Nat.blt) (ok := fun _ v => decide (v ≠ default)) ?_ ?_ ?_ h
  · intro a b c h₁ h₂
    rw [Nat.blt_eq] at *
    omega
  · intro a b hn h₁
    have : ¬ a < b := fun x => by
      rw [← Nat.blt_eq, h₁] at x
      cases x
    rw [Nat.blt_eq]
    omega
  · exact fun hv => decide_eq_true hv

theorem Tab.wf_upd {t : Tab α} (h : Tab.wf t = true) (k : Nat) (f : α → α) : Tab.wf (Tab.upd t k f) = true :=
  Tab.wf_set h _ _

end

/-! ### Memories -/

@[simp] theorem Memory.bytes_length (m : Memory) (a n : Nat) : (Memory.bytes m a n).length = n := by simp [Memory.bytes]

/-- A store leaves every byte outside it as it was. -/
theorem Memory.get_store_out (m : Memory) (a : Nat) (l : List (BitVec 8)) {x : Nat} (h : x < a ∨ a + l.length ≤ x) :
    Tab.get (Memory.store m a l) x = Tab.get m x := by
  induction l generalizing m a with
  | nil => rfl
  | cons b t ih =>
    rw [List.length_cons] at h
    rw [Memory.store, ih _ _ (by omega), Tab.get_set_ne _ (by omega)]

/-- A store leaves its bytes in their places. -/
theorem Memory.get_store_in (m : Memory) (a : Nat) (l : List (BitVec 8)) {i : Nat} (h : i < l.length) :
    Tab.get (Memory.store m a l) (a + i) = l[i] := by
  induction l generalizing m a i with
  | nil => simp at h
  | cons b t ih =>
    rw [Memory.store]
    cases i with
    | zero => rw [Memory.get_store_out _ _ _ (by omega)]; simp
    | succ i =>
      have := ih (Tab.set m a b) (a + 1) (i := i) (by simpa using h)
      rw [show a + (i + 1) = a + 1 + i by omega, this]
      simp

/-- Bytes stored read back. -/
theorem Memory.bytes_store_same (m : Memory) (a : Nat) (l : List (BitVec 8)) :
    Memory.bytes (Memory.store m a l) a l.length = l := by
  apply List.ext_getElem
  · simp
  · intro i _ h
    simp [Memory.bytes, Memory.get_store_in m a l h]

theorem Memory.wf_store {m : Memory} (h : Memory.wf m = true) (a : Nat) (l : List (BitVec 8)) :
    Memory.wf (Memory.store m a l) = true := by
  induction l generalizing m a with
  | nil => exact h
  | cons b t ih => exact ih (Tab.wf_set h _ _) _

theorem Memory.wf_filter {m : Memory} (h : Memory.wf m = true) (p : Nat × BitVec 8 → Bool) :
    Memory.wf (m.filter p) = true :=
  Sparse.wf_sublist List.filter_sublist h

theorem leBytes_length (v n : Nat) : (leBytes v n).length = n := by
  induction n generalizing v with
  | zero => rfl
  | succ n ih => simp [leBytes, ih]

theorem leNat_leBytes (v n : Nat) : leNat (leBytes v n) = v % 256 ^ n := by
  induction n generalizing v with
  | zero => simp [leBytes, leNat, Nat.mod_one]
  | succ n ih =>
    simp only [leBytes, leNat, ih, BitVec.toNat_ofNat]
    rw [show 256 ^ (n + 1) = 256 * 256 ^ n from Nat.pow_succ', Nat.mod_mul]

end Sys2Proof.Machine
end

