-- ==== Sys2Proof/Laws/Regs.lean ====
section
/-!
SUPPORT. The laws of registers and fields: what a read gives after a write of the same register or field and after a write
of another one, and that a write keeps the registers in canonical form.
-/
namespace Sys2Proof.Machine

/-! ### Masks -/

/-- Bit `i` of a mask of the bits `lo` to `lo + w - 1`. -/
theorem getLsbD_maskBits (lo w i : Nat) :
    (maskBits lo w).getLsbD i = (decide (i < 64) && decide (lo ≤ i) && decide (i < lo + w)) := by
  rw [maskBits, BitVec.getLsbD_ofNat, Nat.testBit_shiftLeft, Nat.testBit_two_pow_sub_one]
  by_cases h₁ : i < 64 <;> by_cases h₂ : lo ≤ i <;> simp [h₁, h₂] <;> omega

/-- The register of a field holds all its bits (no bit of it is reserved, write-only or absent). -/
abbrev Fld.held (f : Fld) (i j k : Nat) : Prop := f.mask &&& Reg.mask ⟨f.g, i, j, k⟩ = f.mask ∧ f.lo + f.w ≤ 64

/-- A field of a family without absent bits is held by every register of the family, or by none. -/
theorem Fld.held_of {f : Fld} (i j k : Nat) (h : Fld.held f 0 0 0)
    (ha : ∀ i j k, Reg.absent ⟨f.g, i, j, k⟩ = 0 := by intros; rfl) : Fld.held f i j k := by
  have : Reg.mask ⟨f.g, i, j, k⟩ = Reg.mask ⟨f.g, 0, 0, 0⟩ := by
    simp only [Reg.mask, ha]
  rw [Fld.held, this]
  exact h

theorem Fld.held_bit {f : Fld} {i j k : Nat} (h : Fld.held f i j k) {b : Nat} (h₁ : f.lo ≤ b) (h₂ : b < f.lo + f.w) :
    (Reg.mask ⟨f.g, i, j, k⟩).getLsbD b = true := by
  have hb : f.mask.getLsbD b = true := by
    have := h.2
    rw [Fld.mask, getLsbD_maskBits]
    simp [h₁, h₂]
    omega
  rw [← h.1, BitVec.getLsbD_and, Bool.and_eq_true] at hb
  exact hb.2

/-! ### Reads and writes of a register -/

theorem Dev.rd_wr (d : Dev) (r r' : Reg) (v : W64) :
    (d.wr r v).rd r' = if r' = r then v &&& r.mask else d.rd r' := by
  change Sparse.get r'.reset r' (Sparse.put Reg.lt r.reset r (v &&& r.mask) d.regs) = _
  split
  · next h => rw [h, Sparse.get_put_same]
  · next h => exact Sparse.get_put_ne _ _ _ h _ _

@[simp] theorem Dev.rd_wr_same (d : Dev) (r : Reg) (v : W64) : (d.wr r v).rd r = v &&& r.mask := by
  rw [Dev.rd_wr, if_pos rfl]

theorem Dev.rd_wr_ne (d : Dev) {r r' : Reg} (h : r' ≠ r) (v : W64) : (d.wr r v).rd r' = d.rd r' := by
  rw [Dev.rd_wr, if_neg h]

theorem Dev.rd_congr {d d' : Dev} (h : d'.regs = d.regs) (r : Reg) : d'.rd r = d.rd r := by
  rw [Dev.rd, Dev.rd, h]

theorem Dev.get_congr {d d' : Dev} (h : d'.regs = d.regs) (f : Fld) (i j k : Nat) : d'.get f i j k = d.get f i j k := by
  rw [Dev.get, Dev.get, Dev.rd_congr h]

/-- A write of a field leaves every other register as it was. -/
theorem Dev.rd_put_ne (d : Dev) (f : Fld) (v i j k : Nat) {r : Reg} (h : r ≠ ⟨f.g, i, j, k⟩) :
    (d.put f v i j k).rd r = d.rd r := Dev.rd_wr_ne d h _

theorem Dev.rd_put_family (d : Dev) (f : Fld) (v i j k : Nat) {r : Reg} (h : r.g ≠ f.g) :
    (d.put f v i j k).rd r = d.rd r := Dev.rd_put_ne d f v i j k (fun x => h (by rw [x]))

theorem Dev.rd_putb_family (d : Dev) (f : Fld) (v : Bool) (i j k : Nat) {r : Reg} (h : r.g ≠ f.g) :
    (d.putb f v i j k).rd r = d.rd r := Dev.rd_put_family d f _ i j k h

/-! ### Reads of a field -/

/-- A field is what the bits of its register spell. -/
theorem Dev.get_testBit (d : Dev) (f : Fld) (i j k b : Nat) :
    (d.get f i j k).testBit b = (decide (b < f.w) && (d.rd ⟨f.g, i, j, k⟩).getLsbD (f.lo + b)) := by
  rw [Dev.get, Nat.testBit_mod_two_pow, ← BitVec.testBit_toNat, BitVec.toNat_ushiftRight, Nat.testBit_shiftRight]

theorem Dev.get_lt (d : Dev) (f : Fld) (i j k : Nat) : d.get f i j k < 2 ^ f.w := by
  rw [Dev.get]
  exact Nat.mod_lt _ (Nat.two_pow_pos _)

/-- A write of a register leaves the fields of the other families as they were. -/
theorem Dev.get_wr_family (d : Dev) {r : Reg} (v : W64) {f : Fld} (i j k : Nat := 0) (h : f.g ≠ r.g) :
    (d.wr r v).get f i j k = d.get f i j k := by
  rw [Dev.get, Dev.get, Dev.rd_wr_ne d (fun x => h (congrArg Reg.g x))]

/-- A field written reads back, modulo its width. -/
theorem Dev.get_put_same (d : Dev) (f : Fld) (v i j k : Nat) (h : Fld.held f i j k) :
    (d.put f v i j k).get f i j k = v % 2 ^ f.w := by
  apply Nat.eq_of_testBit_eq
  intro b
  rw [Dev.get_testBit, Nat.testBit_mod_two_pow, Dev.put, Dev.rd_wr_same]
  by_cases hb : b < f.w
  · have h1 : f.lo + b < 64 := by have := h.2; omega
    rw [BitVec.getLsbD_and, Fld.held_bit h (by omega) (by omega), BitVec.getLsbD_or, BitVec.getLsbD_and,
      BitVec.getLsbD_not, Fld.mask, getLsbD_maskBits, BitVec.getLsbD_shiftLeft, BitVec.getLsbD_ofNat,
      Nat.testBit_mod_two_pow]
    have h2 : ¬ f.lo + b < f.lo := by omega
    have h3 : b < 64 := by omega
    simp [hb, h1, h2, h3]
  · simp [hb]

/-- A write of a field leaves the field of another register as it was. -/
theorem Dev.get_put_reg (d : Dev) (f f' : Fld) (v i j k i' j' k' : Nat)
    (h : (⟨f'.g, i', j', k'⟩ : Reg) ≠ ⟨f.g, i, j, k⟩) : (d.put f v i j k).get f' i' j' k' = d.get f' i' j' k' := by
  rw [Dev.get, Dev.get, Dev.rd_put_ne _ _ _ _ _ _ h]

theorem Dev.get_put_family (d : Dev) {f f' : Fld} (v i j k i' j' k' : Nat) (h : f'.g ≠ f.g) :
    (d.put f v i j k).get f' i' j' k' = d.get f' i' j' k' :=
  Dev.get_put_reg d f f' v i j k i' j' k' (fun x => h (congrArg Reg.g x))

theorem Dev.get_put_index (d : Dev) {f f' : Fld} (v i j k i' j' k' : Nat) (h : i' ≠ i) :
    (d.put f v i j k).get f' i' j' k' = d.get f' i' j' k' :=
  Dev.get_put_reg d f f' v i j k i' j' k' (fun x => h (congrArg Reg.i x))

/-- A write of a field leaves the fields that share no bit with it as they were. -/
theorem Dev.get_put_apart (d : Dev) {f f' : Fld} (v i j k i' j' k' : Nat) (h : Fld.held f' i' j' k')
    (ha : f'.lo + f'.w ≤ f.lo ∨ f.lo + f.w ≤ f'.lo) : (d.put f v i j k).get f' i' j' k' = d.get f' i' j' k' := by
  by_cases hr : (⟨f'.g, i', j', k'⟩ : Reg) = ⟨f.g, i, j, k⟩
  · apply Nat.eq_of_testBit_eq
    intro b
    rw [Dev.get_testBit, Dev.get_testBit, hr, Dev.put, Dev.rd_wr_same]
    by_cases hb : b < f'.w
    · have h1 : f'.lo + b < 64 := by have := h.2; omega
      have h2 := Fld.held_bit h (b := f'.lo + b) (by omega) (by omega)
      rw [hr] at h2
      rw [BitVec.getLsbD_and, h2, BitVec.getLsbD_or, BitVec.getLsbD_and, BitVec.getLsbD_not, Fld.mask, getLsbD_maskBits,
        BitVec.getLsbD_shiftLeft, BitVec.getLsbD_ofNat, Nat.testBit_mod_two_pow]
      rcases ha with ha | ha
      · have h3 : f'.lo + b < f.lo := by omega
        simp [hb, h1, h3]
      · have h3 : ¬ f'.lo + b < f.lo + f.w := by omega
        have h4 : ¬ f'.lo + b - f.lo < f.w := by omega
        simp [hb, h1, h3, h4]
    · simp [hb]
  · exact Dev.get_put_reg d f f' v i j k i' j' k' hr

theorem Dev.flag_putb_same (d : Dev) (f : Fld) (b : Bool) (i j k : Nat) (h : Fld.held f i j k) (hw : f.w = 1) :
    (d.putb f b i j k).flag f i j k = b := by
  rw [Dev.flag, Dev.putb, Dev.get_put_same _ _ _ _ _ _ h, hw]
  cases b <;> rfl

/-! ### The same with closed side conditions, for `simp (disch := decide)` -/

/-- Every register of the field's family holds all bits of the field. -/
def Fld.whole (f : Fld) : Bool :=
  (f.mask &&& f.g.fam.bits (fun a => a != .wo)) == f.mask && decide (f.lo + f.w ≤ 64) && match f.g with
    | .CV_SUB_ARM | .CV_SUB_ACT | .CV_SUB_DISC | .TRG_PAT_MASK | .TRG_PAT_VAL | .TRG_PAT_MASK_ACT | .TRG_PAT_VAL_ACT => false
    | _ => true

theorem Fld.held_whole {f : Fld} (h : f.whole = true) (i j k : Nat) : Fld.held f i j k := by
  simp only [Fld.whole, Bool.and_eq_true, beq_iff_eq, decide_eq_true_eq] at h
  refine ⟨?_, h.1.2⟩
  have ha : Reg.absent ⟨f.g, i, j, k⟩ = 0 := by
    have := h.2
    rw [Reg.absent]
    split <;> simp_all
  have hn : ~~~ (0 : W64) = BitVec.allOnes 64 := by decide
  rw [Reg.mask, ha, hn, BitVec.and_allOnes]
  exact h.1.1

theorem Dev.get_put_eq (d : Dev) (f : Fld) (v i j k : Nat) (h : f.whole = true) :
    (d.put f v i j k).get f i j k = v % 2 ^ f.w := Dev.get_put_same d f v i j k (Fld.held_whole h i j k)

theorem Dev.get_put_other (d : Dev) (f f' : Fld) (v i j k i' j' k' : Nat) (h : f'.whole = true)
    (ha : (decide (f'.g ≠ f.g) || decide (f'.lo + f'.w ≤ f.lo) || decide (f.lo + f.w ≤ f'.lo)) = true) :
    (d.put f v i j k).get f' i' j' k' = d.get f' i' j' k' := by
  simp only [Bool.or_eq_true, decide_eq_true_eq] at ha
  rcases ha with (ha | ha) | ha
  · exact Dev.get_put_family d v i j k i' j' k' ha
  · exact Dev.get_put_apart d v i j k i' j' k' (Fld.held_whole h i' j' k') (Or.inl ha)
  · exact Dev.get_put_apart d v i j k i' j' k' (Fld.held_whole h i' j' k') (Or.inr ha)

/-! ### The canonical form of the registers -/

/-- A field after a write of the same field of some unit. -/
theorem Dev.get_put_if (d : Dev) (f : Fld) (v i j k i' j' k' : Nat) (h : f.whole = true) :
    (d.put f v i j k).get f i' j' k' = if i' = i ∧ j' = j ∧ k' = k then v % 2 ^ f.w else d.get f i' j' k' := by
  split
  · next e =>
    obtain ⟨rfl, rfl, rfl⟩ := e
    exact Dev.get_put_eq d f v _ _ _ h
  · next e =>
    rw [Dev.get, Dev.get, Dev.rd_put_ne _ _ _ _ _ _ (fun x => e (by simpa using x))]

/-- A field after a write of its whole register. -/
theorem Dev.get_wr_eq (d : Dev) (f : Fld) (v : W64) (i j k : Nat) (h : f.whole = true) :
    (d.wr ⟨f.g, i, j, k⟩ v).get f i j k = v.toNat / 2 ^ f.lo % 2 ^ f.w := by
  have hh := Fld.held_whole h i j k
  apply Nat.eq_of_testBit_eq
  intro b
  rw [Dev.get_testBit, Dev.rd_wr_same, Nat.testBit_mod_two_pow, Nat.testBit_div_two_pow, BitVec.testBit_toNat]
  by_cases hb : b < f.w
  · rw [BitVec.getLsbD_and, Fld.held_bit hh (by omega) (by omega), Bool.and_true, Nat.add_comm]
  · simp [hb]

theorem Rg.ctorIdx_inj {a b : Rg} (h : a.ctorIdx = b.ctorIdx) : a = b := by
  have := congrArg Rg.ofNat h
  simpa [Rg.ofNat_ctorIdx] using this

theorem Reg.lt_trans (a b c : Reg) (h₁ : Reg.lt a b = true) (h₂ : Reg.lt b c = true) : Reg.lt a c = true := by
  simp only [Reg.lt, Bool.or_eq_true, Bool.and_eq_true, decide_eq_true_eq, beq_iff_eq] at *
  omega

theorem Reg.lt_total (a b : Reg) (hn : a ≠ b) (h : Reg.lt a b = false) : Reg.lt b a = true := by
  have hx : ¬ (a.g.ctorIdx = b.g.ctorIdx ∧ a.i = b.i ∧ a.j = b.j ∧ a.k = b.k) := by
    rintro ⟨h1, h2, h3, h4⟩
    apply hn
    cases a
    cases b
    have := Rg.ctorIdx_inj h1
    simp_all
  have hl : ¬ Reg.lt a b = true := by rw [h]; exact Bool.false_ne_true
  simp only [Reg.lt, Bool.or_eq_true, Bool.and_eq_true, decide_eq_true_eq, beq_iff_eq] at *
  omega

theorem and_and_self_right (v m : W64) : v &&& m &&& m = v &&& m := by
  apply BitVec.eq_of_getLsbD_eq
  intro i _
  simp only [BitVec.getLsbD_and]
  cases v.getLsbD i <;> cases m.getLsbD i <;> rfl

end Sys2Proof.Machine
end

