-- ==== Sys2Proof/Laws/State.lean ====
section
/-!
SUPPORT. What each shared operation leaves of the module: one lemma per operation that names the fields it can change
(the shape), and one per field that it leaves as it was.
-/
namespace Sys2Proof.Machine

/-! ### Folds over units -/

/-- What no round of a fold changes, the fold does not change. -/
theorem foldl_keeps {σ α β : Type} (π : σ → β) (f : σ → α → σ) (h : ∀ d x, π (f d x) = π d) (l : List α) (d : σ) :
    π (l.foldl f d) = π d := by
  induction l generalizing d with
  | nil => rfl
  | cons x t ih => rw [List.foldl_cons, ih, h]

/-- What holds before a fold and is kept by every round holds after it. -/
theorem foldl_invariant {σ α : Type} (P : σ → Prop) (f : σ → α → σ) (l : List α) {d : σ} (h : P d)
    (hf : ∀ d x, x ∈ l → P d → P (f d x)) : P (l.foldl f d) := by
  induction l generalizing d with
  | nil => exact h
  | cons x t ih => exact ih (hf d x (by simp) h) (fun d y hy => hf d y (by simp [hy]))

/-! ### Modules and their parts -/

/-- Two modules with the same fields are the same. -/
theorem Dev.ext_fields {a b : Dev} (h_now : a.now = b.now) (h_freeSeq : a.freeSeq = b.freeSeq) (h_regs : a.regs = b.regs) (h_bus : a.bus = b.bus) (h_path : a.path = b.path) (h_logic : a.logic = b.logic) (h_stageNext : a.stageNext = b.stageNext) (h_slice : a.slice = b.slice)
    (h_tb : a.tb = b.tb) (h_trg : a.trg = b.trg) (h_lanes : a.lanes = b.lanes)
    (h_dec : a.dec = b.dec) (h_tal : a.tal = b.tal) (h_evi : a.evi = b.evi) (h_ndl : a.ndl = b.ndl) (h_stm : a.stm = b.stm) (h_ben : a.ben = b.ben) (h_link : a.link = b.link)
    (h_que : a.que = b.que) (h_evr : a.evr = b.evr) (h_xfe : a.xfe = b.xfe) (h_eth : a.eth = b.eth) (h_faKey : a.faKey = b.faKey)
    (h_syn : a.syn = b.syn) (h_ras : a.ras = b.ras) (h_pwr : a.pwr = b.pwr) (h_sec : a.sec = b.sec) :
    a = b := by
  cases a
  cases b
  simp only [Dev.mk.injEq] at *
  exact ⟨h_now, h_freeSeq, h_regs, h_bus, h_path, h_logic, h_stageNext, h_slice, h_tb, h_trg, h_lanes, h_dec, h_tal, h_evi, h_ndl, h_stm, h_ben, h_link, h_que, h_evr, h_xfe, h_eth, h_faKey, h_syn, h_ras, h_pwr, h_sec⟩

@[simp] theorem Dev.setNow_now (d : Dev) (x : Nat) : (d.setNow x).now = x := (rfl)
@[simp] theorem Dev.setNow_freeSeq (d : Dev) (x : Nat) : (d.setNow x).freeSeq = d.freeSeq := (rfl)
@[simp] theorem Dev.setNow_regs (d : Dev) (x : Nat) : (d.setNow x).regs = d.regs := (rfl)
@[simp] theorem Dev.setNow_bus (d : Dev) (x : Nat) : (d.setNow x).bus = d.bus := (rfl)
@[simp] theorem Dev.setNow_path (d : Dev) (x : Nat) : (d.setNow x).path = d.path := (rfl)
@[simp] theorem Dev.setNow_logic (d : Dev) (x : Nat) : (d.setNow x).logic = d.logic := (rfl)
@[simp] theorem Dev.setNow_stageNext (d : Dev) (x : Nat) : (d.setNow x).stageNext = d.stageNext := (rfl)
@[simp] theorem Dev.setNow_slice (d : Dev) (x : Nat) : (d.setNow x).slice = d.slice := (rfl)
@[simp] theorem Dev.setNow_tb (d : Dev) (x : Nat) : (d.setNow x).tb = d.tb := (rfl)
@[simp] theorem Dev.setNow_trg (d : Dev) (x : Nat) : (d.setNow x).trg = d.trg := (rfl)
@[simp] theorem Dev.setNow_lanes (d : Dev) (x : Nat) : (d.setNow x).lanes = d.lanes := (rfl)
@[simp] theorem Dev.setNow_dec (d : Dev) (x : Nat) : (d.setNow x).dec = d.dec := (rfl)
@[simp] theorem Dev.setNow_tal (d : Dev) (x : Nat) : (d.setNow x).tal = d.tal := (rfl)
@[simp] theorem Dev.setNow_evi (d : Dev) (x : Nat) : (d.setNow x).evi = d.evi := (rfl)
@[simp] theorem Dev.setNow_ndl (d : Dev) (x : Nat) : (d.setNow x).ndl = d.ndl := (rfl)
@[simp] theorem Dev.setNow_stm (d : Dev) (x : Nat) : (d.setNow x).stm = d.stm := (rfl)
@[simp] theorem Dev.setNow_ben (d : Dev) (x : Nat) : (d.setNow x).ben = d.ben := (rfl)
@[simp] theorem Dev.setNow_link (d : Dev) (x : Nat) : (d.setNow x).link = d.link := (rfl)
@[simp] theorem Dev.setNow_que (d : Dev) (x : Nat) : (d.setNow x).que = d.que := (rfl)
@[simp] theorem Dev.setNow_evr (d : Dev) (x : Nat) : (d.setNow x).evr = d.evr := (rfl)
@[simp] theorem Dev.setNow_xfe (d : Dev) (x : Nat) : (d.setNow x).xfe = d.xfe := (rfl)
@[simp] theorem Dev.setNow_eth (d : Dev) (x : Nat) : (d.setNow x).eth = d.eth := (rfl)
@[simp] theorem Dev.setNow_faKey (d : Dev) (x : Nat) : (d.setNow x).faKey = d.faKey := (rfl)
@[simp] theorem Dev.setNow_syn (d : Dev) (x : Nat) : (d.setNow x).syn = d.syn := (rfl)
@[simp] theorem Dev.setNow_ras (d : Dev) (x : Nat) : (d.setNow x).ras = d.ras := (rfl)
@[simp] theorem Dev.setNow_pwr (d : Dev) (x : Nat) : (d.setNow x).pwr = d.pwr := (rfl)
@[simp] theorem Dev.setNow_sec (d : Dev) (x : Nat) : (d.setNow x).sec = d.sec := (rfl)
@[simp] theorem Dev.setNow_rd (d : Dev) (x : Nat) (r : Reg) : (d.setNow x).rd r = d.rd r :=
  Dev.rd_congr (Dev.setNow_regs d x) r
@[simp] theorem Dev.setNow_get (d : Dev) (x : Nat) (fl : Fld) (m₁ m₂ m₃ : Nat) : (d.setNow x).get fl m₁ m₂ m₃ = d.get fl m₁ m₂ m₃ :=
  Dev.get_congr (Dev.setNow_regs d x) fl m₁ m₂ m₃

@[simp] theorem Dev.setFreeSeq_freeSeq (d : Dev) (x : Nat) : (d.setFreeSeq x).freeSeq = x := (rfl)
@[simp] theorem Dev.setFreeSeq_now (d : Dev) (x : Nat) : (d.setFreeSeq x).now = d.now := (rfl)
@[simp] theorem Dev.setFreeSeq_regs (d : Dev) (x : Nat) : (d.setFreeSeq x).regs = d.regs := (rfl)
@[simp] theorem Dev.setFreeSeq_bus (d : Dev) (x : Nat) : (d.setFreeSeq x).bus = d.bus := (rfl)
@[simp] theorem Dev.setFreeSeq_path (d : Dev) (x : Nat) : (d.setFreeSeq x).path = d.path := (rfl)
@[simp] theorem Dev.setFreeSeq_logic (d : Dev) (x : Nat) : (d.setFreeSeq x).logic = d.logic := (rfl)
@[simp] theorem Dev.setFreeSeq_stageNext (d : Dev) (x : Nat) : (d.setFreeSeq x).stageNext = d.stageNext := (rfl)
@[simp] theorem Dev.setFreeSeq_slice (d : Dev) (x : Nat) : (d.setFreeSeq x).slice = d.slice := (rfl)
@[simp] theorem Dev.setFreeSeq_tb (d : Dev) (x : Nat) : (d.setFreeSeq x).tb = d.tb := (rfl)
@[simp] theorem Dev.setFreeSeq_trg (d : Dev) (x : Nat) : (d.setFreeSeq x).trg = d.trg := (rfl)
@[simp] theorem Dev.setFreeSeq_lanes (d : Dev) (x : Nat) : (d.setFreeSeq x).lanes = d.lanes := (rfl)
@[simp] theorem Dev.setFreeSeq_dec (d : Dev) (x : Nat) : (d.setFreeSeq x).dec = d.dec := (rfl)
@[simp] theorem Dev.setFreeSeq_tal (d : Dev) (x : Nat) : (d.setFreeSeq x).tal = d.tal := (rfl)
@[simp] theorem Dev.setFreeSeq_evi (d : Dev) (x : Nat) : (d.setFreeSeq x).evi = d.evi := (rfl)
@[simp] theorem Dev.setFreeSeq_ndl (d : Dev) (x : Nat) : (d.setFreeSeq x).ndl = d.ndl := (rfl)
@[simp] theorem Dev.setFreeSeq_stm (d : Dev) (x : Nat) : (d.setFreeSeq x).stm = d.stm := (rfl)
@[simp] theorem Dev.setFreeSeq_ben (d : Dev) (x : Nat) : (d.setFreeSeq x).ben = d.ben := (rfl)
@[simp] theorem Dev.setFreeSeq_link (d : Dev) (x : Nat) : (d.setFreeSeq x).link = d.link := (rfl)
@[simp] theorem Dev.setFreeSeq_que (d : Dev) (x : Nat) : (d.setFreeSeq x).que = d.que := (rfl)
@[simp] theorem Dev.setFreeSeq_evr (d : Dev) (x : Nat) : (d.setFreeSeq x).evr = d.evr := (rfl)
@[simp] theorem Dev.setFreeSeq_xfe (d : Dev) (x : Nat) : (d.setFreeSeq x).xfe = d.xfe := (rfl)
@[simp] theorem Dev.setFreeSeq_eth (d : Dev) (x : Nat) : (d.setFreeSeq x).eth = d.eth := (rfl)
@[simp] theorem Dev.setFreeSeq_faKey (d : Dev) (x : Nat) : (d.setFreeSeq x).faKey = d.faKey := (rfl)
@[simp] theorem Dev.setFreeSeq_syn (d : Dev) (x : Nat) : (d.setFreeSeq x).syn = d.syn := (rfl)
@[simp] theorem Dev.setFreeSeq_ras (d : Dev) (x : Nat) : (d.setFreeSeq x).ras = d.ras := (rfl)
@[simp] theorem Dev.setFreeSeq_pwr (d : Dev) (x : Nat) : (d.setFreeSeq x).pwr = d.pwr := (rfl)
@[simp] theorem Dev.setFreeSeq_sec (d : Dev) (x : Nat) : (d.setFreeSeq x).sec = d.sec := (rfl)
@[simp] theorem Dev.setFreeSeq_rd (d : Dev) (x : Nat) (r : Reg) : (d.setFreeSeq x).rd r = d.rd r :=
  Dev.rd_congr (Dev.setFreeSeq_regs d x) r
@[simp] theorem Dev.setFreeSeq_get (d : Dev) (x : Nat) (fl : Fld) (m₁ m₂ m₃ : Nat) : (d.setFreeSeq x).get fl m₁ m₂ m₃ = d.get fl m₁ m₂ m₃ :=
  Dev.get_congr (Dev.setFreeSeq_regs d x) fl m₁ m₂ m₃

@[simp] theorem Dev.setRegs_regs (d : Dev) (x : Regs) : (d.setRegs x).regs = x := (rfl)
@[simp] theorem Dev.setRegs_now (d : Dev) (x : Regs) : (d.setRegs x).now = d.now := (rfl)
@[simp] theorem Dev.setRegs_freeSeq (d : Dev) (x : Regs) : (d.setRegs x).freeSeq = d.freeSeq := (rfl)
@[simp] theorem Dev.setRegs_bus (d : Dev) (x : Regs) : (d.setRegs x).bus = d.bus := (rfl)
@[simp] theorem Dev.setRegs_path (d : Dev) (x : Regs) : (d.setRegs x).path = d.path := (rfl)
@[simp] theorem Dev.setRegs_logic (d : Dev) (x : Regs) : (d.setRegs x).logic = d.logic := (rfl)
@[simp] theorem Dev.setRegs_stageNext (d : Dev) (x : Regs) : (d.setRegs x).stageNext = d.stageNext := (rfl)
@[simp] theorem Dev.setRegs_slice (d : Dev) (x : Regs) : (d.setRegs x).slice = d.slice := (rfl)
@[simp] theorem Dev.setRegs_tb (d : Dev) (x : Regs) : (d.setRegs x).tb = d.tb := (rfl)
@[simp] theorem Dev.setRegs_trg (d : Dev) (x : Regs) : (d.setRegs x).trg = d.trg := (rfl)
@[simp] theorem Dev.setRegs_lanes (d : Dev) (x : Regs) : (d.setRegs x).lanes = d.lanes := (rfl)
@[simp] theorem Dev.setRegs_dec (d : Dev) (x : Regs) : (d.setRegs x).dec = d.dec := (rfl)
@[simp] theorem Dev.setRegs_tal (d : Dev) (x : Regs) : (d.setRegs x).tal = d.tal := (rfl)
@[simp] theorem Dev.setRegs_evi (d : Dev) (x : Regs) : (d.setRegs x).evi = d.evi := (rfl)
@[simp] theorem Dev.setRegs_ndl (d : Dev) (x : Regs) : (d.setRegs x).ndl = d.ndl := (rfl)
@[simp] theorem Dev.setRegs_stm (d : Dev) (x : Regs) : (d.setRegs x).stm = d.stm := (rfl)
@[simp] theorem Dev.setRegs_ben (d : Dev) (x : Regs) : (d.setRegs x).ben = d.ben := (rfl)
@[simp] theorem Dev.setRegs_link (d : Dev) (x : Regs) : (d.setRegs x).link = d.link := (rfl)
@[simp] theorem Dev.setRegs_que (d : Dev) (x : Regs) : (d.setRegs x).que = d.que := (rfl)
@[simp] theorem Dev.setRegs_evr (d : Dev) (x : Regs) : (d.setRegs x).evr = d.evr := (rfl)
@[simp] theorem Dev.setRegs_xfe (d : Dev) (x : Regs) : (d.setRegs x).xfe = d.xfe := (rfl)
@[simp] theorem Dev.setRegs_eth (d : Dev) (x : Regs) : (d.setRegs x).eth = d.eth := (rfl)
@[simp] theorem Dev.setRegs_faKey (d : Dev) (x : Regs) : (d.setRegs x).faKey = d.faKey := (rfl)
@[simp] theorem Dev.setRegs_syn (d : Dev) (x : Regs) : (d.setRegs x).syn = d.syn := (rfl)
@[simp] theorem Dev.setRegs_ras (d : Dev) (x : Regs) : (d.setRegs x).ras = d.ras := (rfl)
@[simp] theorem Dev.setRegs_pwr (d : Dev) (x : Regs) : (d.setRegs x).pwr = d.pwr := (rfl)
@[simp] theorem Dev.setRegs_sec (d : Dev) (x : Regs) : (d.setRegs x).sec = d.sec := (rfl)

@[simp] theorem Dev.setBus_bus (d : Dev) (x : BusState) : (d.setBus x).bus = x := (rfl)
@[simp] theorem Dev.setBus_now (d : Dev) (x : BusState) : (d.setBus x).now = d.now := (rfl)
@[simp] theorem Dev.setBus_freeSeq (d : Dev) (x : BusState) : (d.setBus x).freeSeq = d.freeSeq := (rfl)
@[simp] theorem Dev.setBus_regs (d : Dev) (x : BusState) : (d.setBus x).regs = d.regs := (rfl)
@[simp] theorem Dev.setBus_path (d : Dev) (x : BusState) : (d.setBus x).path = d.path := (rfl)
@[simp] theorem Dev.setBus_logic (d : Dev) (x : BusState) : (d.setBus x).logic = d.logic := (rfl)
@[simp] theorem Dev.setBus_stageNext (d : Dev) (x : BusState) : (d.setBus x).stageNext = d.stageNext := (rfl)
@[simp] theorem Dev.setBus_slice (d : Dev) (x : BusState) : (d.setBus x).slice = d.slice := (rfl)
@[simp] theorem Dev.setBus_tb (d : Dev) (x : BusState) : (d.setBus x).tb = d.tb := (rfl)
@[simp] theorem Dev.setBus_trg (d : Dev) (x : BusState) : (d.setBus x).trg = d.trg := (rfl)
@[simp] theorem Dev.setBus_lanes (d : Dev) (x : BusState) : (d.setBus x).lanes = d.lanes := (rfl)
@[simp] theorem Dev.setBus_dec (d : Dev) (x : BusState) : (d.setBus x).dec = d.dec := (rfl)
@[simp] theorem Dev.setBus_tal (d : Dev) (x : BusState) : (d.setBus x).tal = d.tal := (rfl)
@[simp] theorem Dev.setBus_evi (d : Dev) (x : BusState) : (d.setBus x).evi = d.evi := (rfl)
@[simp] theorem Dev.setBus_ndl (d : Dev) (x : BusState) : (d.setBus x).ndl = d.ndl := (rfl)
@[simp] theorem Dev.setBus_stm (d : Dev) (x : BusState) : (d.setBus x).stm = d.stm := (rfl)
@[simp] theorem Dev.setBus_ben (d : Dev) (x : BusState) : (d.setBus x).ben = d.ben := (rfl)
@[simp] theorem Dev.setBus_link (d : Dev) (x : BusState) : (d.setBus x).link = d.link := (rfl)
@[simp] theorem Dev.setBus_que (d : Dev) (x : BusState) : (d.setBus x).que = d.que := (rfl)
@[simp] theorem Dev.setBus_evr (d : Dev) (x : BusState) : (d.setBus x).evr = d.evr := (rfl)
@[simp] theorem Dev.setBus_xfe (d : Dev) (x : BusState) : (d.setBus x).xfe = d.xfe := (rfl)
@[simp] theorem Dev.setBus_eth (d : Dev) (x : BusState) : (d.setBus x).eth = d.eth := (rfl)
@[simp] theorem Dev.setBus_faKey (d : Dev) (x : BusState) : (d.setBus x).faKey = d.faKey := (rfl)
@[simp] theorem Dev.setBus_syn (d : Dev) (x : BusState) : (d.setBus x).syn = d.syn := (rfl)
@[simp] theorem Dev.setBus_ras (d : Dev) (x : BusState) : (d.setBus x).ras = d.ras := (rfl)
@[simp] theorem Dev.setBus_pwr (d : Dev) (x : BusState) : (d.setBus x).pwr = d.pwr := (rfl)
@[simp] theorem Dev.setBus_sec (d : Dev) (x : BusState) : (d.setBus x).sec = d.sec := (rfl)
@[simp] theorem Dev.setBus_rd (d : Dev) (x : BusState) (r : Reg) : (d.setBus x).rd r = d.rd r :=
  Dev.rd_congr (Dev.setBus_regs d x) r
@[simp] theorem Dev.setBus_get (d : Dev) (x : BusState) (fl : Fld) (m₁ m₂ m₃ : Nat) : (d.setBus x).get fl m₁ m₂ m₃ = d.get fl m₁ m₂ m₃ :=
  Dev.get_congr (Dev.setBus_regs d x) fl m₁ m₂ m₃

@[simp] theorem Dev.setPath_path (d : Dev) (x : Tab Path) : (d.setPath x).path = x := (rfl)
@[simp] theorem Dev.setPath_now (d : Dev) (x : Tab Path) : (d.setPath x).now = d.now := (rfl)
@[simp] theorem Dev.setPath_freeSeq (d : Dev) (x : Tab Path) : (d.setPath x).freeSeq = d.freeSeq := (rfl)
@[simp] theorem Dev.setPath_regs (d : Dev) (x : Tab Path) : (d.setPath x).regs = d.regs := (rfl)
@[simp] theorem Dev.setPath_bus (d : Dev) (x : Tab Path) : (d.setPath x).bus = d.bus := (rfl)
@[simp] theorem Dev.setPath_logic (d : Dev) (x : Tab Path) : (d.setPath x).logic = d.logic := (rfl)
@[simp] theorem Dev.setPath_stageNext (d : Dev) (x : Tab Path) : (d.setPath x).stageNext = d.stageNext := (rfl)
@[simp] theorem Dev.setPath_slice (d : Dev) (x : Tab Path) : (d.setPath x).slice = d.slice := (rfl)
@[simp] theorem Dev.setPath_tb (d : Dev) (x : Tab Path) : (d.setPath x).tb = d.tb := (rfl)
@[simp] theorem Dev.setPath_trg (d : Dev) (x : Tab Path) : (d.setPath x).trg = d.trg := (rfl)
@[simp] theorem Dev.setPath_lanes (d : Dev) (x : Tab Path) : (d.setPath x).lanes = d.lanes := (rfl)
@[simp] theorem Dev.setPath_dec (d : Dev) (x : Tab Path) : (d.setPath x).dec = d.dec := (rfl)
@[simp] theorem Dev.setPath_tal (d : Dev) (x : Tab Path) : (d.setPath x).tal = d.tal := (rfl)
@[simp] theorem Dev.setPath_evi (d : Dev) (x : Tab Path) : (d.setPath x).evi = d.evi := (rfl)
@[simp] theorem Dev.setPath_ndl (d : Dev) (x : Tab Path) : (d.setPath x).ndl = d.ndl := (rfl)
@[simp] theorem Dev.setPath_stm (d : Dev) (x : Tab Path) : (d.setPath x).stm = d.stm := (rfl)
@[simp] theorem Dev.setPath_ben (d : Dev) (x : Tab Path) : (d.setPath x).ben = d.ben := (rfl)
@[simp] theorem Dev.setPath_link (d : Dev) (x : Tab Path) : (d.setPath x).link = d.link := (rfl)
@[simp] theorem Dev.setPath_que (d : Dev) (x : Tab Path) : (d.setPath x).que = d.que := (rfl)
@[simp] theorem Dev.setPath_evr (d : Dev) (x : Tab Path) : (d.setPath x).evr = d.evr := (rfl)
@[simp] theorem Dev.setPath_xfe (d : Dev) (x : Tab Path) : (d.setPath x).xfe = d.xfe := (rfl)
@[simp] theorem Dev.setPath_eth (d : Dev) (x : Tab Path) : (d.setPath x).eth = d.eth := (rfl)
@[simp] theorem Dev.setPath_faKey (d : Dev) (x : Tab Path) : (d.setPath x).faKey = d.faKey := (rfl)
@[simp] theorem Dev.setPath_syn (d : Dev) (x : Tab Path) : (d.setPath x).syn = d.syn := (rfl)
@[simp] theorem Dev.setPath_ras (d : Dev) (x : Tab Path) : (d.setPath x).ras = d.ras := (rfl)
@[simp] theorem Dev.setPath_pwr (d : Dev) (x : Tab Path) : (d.setPath x).pwr = d.pwr := (rfl)
@[simp] theorem Dev.setPath_sec (d : Dev) (x : Tab Path) : (d.setPath x).sec = d.sec := (rfl)
@[simp] theorem Dev.setPath_rd (d : Dev) (x : Tab Path) (r : Reg) : (d.setPath x).rd r = d.rd r :=
  Dev.rd_congr (Dev.setPath_regs d x) r
@[simp] theorem Dev.setPath_get (d : Dev) (x : Tab Path) (fl : Fld) (m₁ m₂ m₃ : Nat) : (d.setPath x).get fl m₁ m₂ m₃ = d.get fl m₁ m₂ m₃ :=
  Dev.get_congr (Dev.setPath_regs d x) fl m₁ m₂ m₃

@[simp] theorem Dev.setLogic_logic (d : Dev) (x : Tab (List LogicFrame)) : (d.setLogic x).logic = x := (rfl)
@[simp] theorem Dev.setLogic_now (d : Dev) (x : Tab (List LogicFrame)) : (d.setLogic x).now = d.now := (rfl)
@[simp] theorem Dev.setLogic_freeSeq (d : Dev) (x : Tab (List LogicFrame)) : (d.setLogic x).freeSeq = d.freeSeq := (rfl)
@[simp] theorem Dev.setLogic_regs (d : Dev) (x : Tab (List LogicFrame)) : (d.setLogic x).regs = d.regs := (rfl)
@[simp] theorem Dev.setLogic_bus (d : Dev) (x : Tab (List LogicFrame)) : (d.setLogic x).bus = d.bus := (rfl)
@[simp] theorem Dev.setLogic_path (d : Dev) (x : Tab (List LogicFrame)) : (d.setLogic x).path = d.path := (rfl)
@[simp] theorem Dev.setLogic_stageNext (d : Dev) (x : Tab (List LogicFrame)) : (d.setLogic x).stageNext = d.stageNext := (rfl)
@[simp] theorem Dev.setLogic_slice (d : Dev) (x : Tab (List LogicFrame)) : (d.setLogic x).slice = d.slice := (rfl)
@[simp] theorem Dev.setLogic_tb (d : Dev) (x : Tab (List LogicFrame)) : (d.setLogic x).tb = d.tb := (rfl)
@[simp] theorem Dev.setLogic_trg (d : Dev) (x : Tab (List LogicFrame)) : (d.setLogic x).trg = d.trg := (rfl)
@[simp] theorem Dev.setLogic_lanes (d : Dev) (x : Tab (List LogicFrame)) : (d.setLogic x).lanes = d.lanes := (rfl)
@[simp] theorem Dev.setLogic_dec (d : Dev) (x : Tab (List LogicFrame)) : (d.setLogic x).dec = d.dec := (rfl)
@[simp] theorem Dev.setLogic_tal (d : Dev) (x : Tab (List LogicFrame)) : (d.setLogic x).tal = d.tal := (rfl)
@[simp] theorem Dev.setLogic_evi (d : Dev) (x : Tab (List LogicFrame)) : (d.setLogic x).evi = d.evi := (rfl)
@[simp] theorem Dev.setLogic_ndl (d : Dev) (x : Tab (List LogicFrame)) : (d.setLogic x).ndl = d.ndl := (rfl)
@[simp] theorem Dev.setLogic_stm (d : Dev) (x : Tab (List LogicFrame)) : (d.setLogic x).stm = d.stm := (rfl)
@[simp] theorem Dev.setLogic_ben (d : Dev) (x : Tab (List LogicFrame)) : (d.setLogic x).ben = d.ben := (rfl)
@[simp] theorem Dev.setLogic_link (d : Dev) (x : Tab (List LogicFrame)) : (d.setLogic x).link = d.link := (rfl)
@[simp] theorem Dev.setLogic_que (d : Dev) (x : Tab (List LogicFrame)) : (d.setLogic x).que = d.que := (rfl)
@[simp] theorem Dev.setLogic_evr (d : Dev) (x : Tab (List LogicFrame)) : (d.setLogic x).evr = d.evr := (rfl)
@[simp] theorem Dev.setLogic_xfe (d : Dev) (x : Tab (List LogicFrame)) : (d.setLogic x).xfe = d.xfe := (rfl)
@[simp] theorem Dev.setLogic_eth (d : Dev) (x : Tab (List LogicFrame)) : (d.setLogic x).eth = d.eth := (rfl)
@[simp] theorem Dev.setLogic_faKey (d : Dev) (x : Tab (List LogicFrame)) : (d.setLogic x).faKey = d.faKey := (rfl)
@[simp] theorem Dev.setLogic_syn (d : Dev) (x : Tab (List LogicFrame)) : (d.setLogic x).syn = d.syn := (rfl)
@[simp] theorem Dev.setLogic_ras (d : Dev) (x : Tab (List LogicFrame)) : (d.setLogic x).ras = d.ras := (rfl)
@[simp] theorem Dev.setLogic_pwr (d : Dev) (x : Tab (List LogicFrame)) : (d.setLogic x).pwr = d.pwr := (rfl)
@[simp] theorem Dev.setLogic_sec (d : Dev) (x : Tab (List LogicFrame)) : (d.setLogic x).sec = d.sec := (rfl)
@[simp] theorem Dev.setLogic_rd (d : Dev) (x : Tab (List LogicFrame)) (r : Reg) : (d.setLogic x).rd r = d.rd r :=
  Dev.rd_congr (Dev.setLogic_regs d x) r
@[simp] theorem Dev.setLogic_get (d : Dev) (x : Tab (List LogicFrame)) (fl : Fld) (m₁ m₂ m₃ : Nat) : (d.setLogic x).get fl m₁ m₂ m₃ = d.get fl m₁ m₂ m₃ :=
  Dev.get_congr (Dev.setLogic_regs d x) fl m₁ m₂ m₃

@[simp] theorem Dev.setStageNext_stageNext (d : Dev) (x : Nat) : (d.setStageNext x).stageNext = x := (rfl)
@[simp] theorem Dev.setStageNext_now (d : Dev) (x : Nat) : (d.setStageNext x).now = d.now := (rfl)
@[simp] theorem Dev.setStageNext_freeSeq (d : Dev) (x : Nat) : (d.setStageNext x).freeSeq = d.freeSeq := (rfl)
@[simp] theorem Dev.setStageNext_regs (d : Dev) (x : Nat) : (d.setStageNext x).regs = d.regs := (rfl)
@[simp] theorem Dev.setStageNext_bus (d : Dev) (x : Nat) : (d.setStageNext x).bus = d.bus := (rfl)
@[simp] theorem Dev.setStageNext_path (d : Dev) (x : Nat) : (d.setStageNext x).path = d.path := (rfl)
@[simp] theorem Dev.setStageNext_logic (d : Dev) (x : Nat) : (d.setStageNext x).logic = d.logic := (rfl)
@[simp] theorem Dev.setStageNext_slice (d : Dev) (x : Nat) : (d.setStageNext x).slice = d.slice := (rfl)
@[simp] theorem Dev.setStageNext_tb (d : Dev) (x : Nat) : (d.setStageNext x).tb = d.tb := (rfl)
@[simp] theorem Dev.setStageNext_trg (d : Dev) (x : Nat) : (d.setStageNext x).trg = d.trg := (rfl)
@[simp] theorem Dev.setStageNext_lanes (d : Dev) (x : Nat) : (d.setStageNext x).lanes = d.lanes := (rfl)
@[simp] theorem Dev.setStageNext_dec (d : Dev) (x : Nat) : (d.setStageNext x).dec = d.dec := (rfl)
@[simp] theorem Dev.setStageNext_tal (d : Dev) (x : Nat) : (d.setStageNext x).tal = d.tal := (rfl)
@[simp] theorem Dev.setStageNext_evi (d : Dev) (x : Nat) : (d.setStageNext x).evi = d.evi := (rfl)
@[simp] theorem Dev.setStageNext_ndl (d : Dev) (x : Nat) : (d.setStageNext x).ndl = d.ndl := (rfl)
@[simp] theorem Dev.setStageNext_stm (d : Dev) (x : Nat) : (d.setStageNext x).stm = d.stm := (rfl)
@[simp] theorem Dev.setStageNext_ben (d : Dev) (x : Nat) : (d.setStageNext x).ben = d.ben := (rfl)
@[simp] theorem Dev.setStageNext_link (d : Dev) (x : Nat) : (d.setStageNext x).link = d.link := (rfl)
@[simp] theorem Dev.setStageNext_que (d : Dev) (x : Nat) : (d.setStageNext x).que = d.que := (rfl)
@[simp] theorem Dev.setStageNext_evr (d : Dev) (x : Nat) : (d.setStageNext x).evr = d.evr := (rfl)
@[simp] theorem Dev.setStageNext_xfe (d : Dev) (x : Nat) : (d.setStageNext x).xfe = d.xfe := (rfl)
@[simp] theorem Dev.setStageNext_eth (d : Dev) (x : Nat) : (d.setStageNext x).eth = d.eth := (rfl)
@[simp] theorem Dev.setStageNext_faKey (d : Dev) (x : Nat) : (d.setStageNext x).faKey = d.faKey := (rfl)
@[simp] theorem Dev.setStageNext_syn (d : Dev) (x : Nat) : (d.setStageNext x).syn = d.syn := (rfl)
@[simp] theorem Dev.setStageNext_ras (d : Dev) (x : Nat) : (d.setStageNext x).ras = d.ras := (rfl)
@[simp] theorem Dev.setStageNext_pwr (d : Dev) (x : Nat) : (d.setStageNext x).pwr = d.pwr := (rfl)
@[simp] theorem Dev.setStageNext_sec (d : Dev) (x : Nat) : (d.setStageNext x).sec = d.sec := (rfl)
@[simp] theorem Dev.setStageNext_rd (d : Dev) (x : Nat) (r : Reg) : (d.setStageNext x).rd r = d.rd r :=
  Dev.rd_congr (Dev.setStageNext_regs d x) r
@[simp] theorem Dev.setStageNext_get (d : Dev) (x : Nat) (fl : Fld) (m₁ m₂ m₃ : Nat) : (d.setStageNext x).get fl m₁ m₂ m₃ = d.get fl m₁ m₂ m₃ :=
  Dev.get_congr (Dev.setStageNext_regs d x) fl m₁ m₂ m₃

@[simp] theorem Dev.setSlice_slice (d : Dev) (x : Tab Slice) : (d.setSlice x).slice = x := (rfl)
@[simp] theorem Dev.setSlice_now (d : Dev) (x : Tab Slice) : (d.setSlice x).now = d.now := (rfl)
@[simp] theorem Dev.setSlice_freeSeq (d : Dev) (x : Tab Slice) : (d.setSlice x).freeSeq = d.freeSeq := (rfl)
@[simp] theorem Dev.setSlice_regs (d : Dev) (x : Tab Slice) : (d.setSlice x).regs = d.regs := (rfl)
@[simp] theorem Dev.setSlice_bus (d : Dev) (x : Tab Slice) : (d.setSlice x).bus = d.bus := (rfl)
@[simp] theorem Dev.setSlice_path (d : Dev) (x : Tab Slice) : (d.setSlice x).path = d.path := (rfl)
@[simp] theorem Dev.setSlice_logic (d : Dev) (x : Tab Slice) : (d.setSlice x).logic = d.logic := (rfl)
@[simp] theorem Dev.setSlice_stageNext (d : Dev) (x : Tab Slice) : (d.setSlice x).stageNext = d.stageNext := (rfl)
@[simp] theorem Dev.setSlice_tb (d : Dev) (x : Tab Slice) : (d.setSlice x).tb = d.tb := (rfl)
@[simp] theorem Dev.setSlice_trg (d : Dev) (x : Tab Slice) : (d.setSlice x).trg = d.trg := (rfl)
@[simp] theorem Dev.setSlice_lanes (d : Dev) (x : Tab Slice) : (d.setSlice x).lanes = d.lanes := (rfl)
@[simp] theorem Dev.setSlice_dec (d : Dev) (x : Tab Slice) : (d.setSlice x).dec = d.dec := (rfl)
@[simp] theorem Dev.setSlice_tal (d : Dev) (x : Tab Slice) : (d.setSlice x).tal = d.tal := (rfl)
@[simp] theorem Dev.setSlice_evi (d : Dev) (x : Tab Slice) : (d.setSlice x).evi = d.evi := (rfl)
@[simp] theorem Dev.setSlice_ndl (d : Dev) (x : Tab Slice) : (d.setSlice x).ndl = d.ndl := (rfl)
@[simp] theorem Dev.setSlice_stm (d : Dev) (x : Tab Slice) : (d.setSlice x).stm = d.stm := (rfl)
@[simp] theorem Dev.setSlice_ben (d : Dev) (x : Tab Slice) : (d.setSlice x).ben = d.ben := (rfl)
@[simp] theorem Dev.setSlice_link (d : Dev) (x : Tab Slice) : (d.setSlice x).link = d.link := (rfl)
@[simp] theorem Dev.setSlice_que (d : Dev) (x : Tab Slice) : (d.setSlice x).que = d.que := (rfl)
@[simp] theorem Dev.setSlice_evr (d : Dev) (x : Tab Slice) : (d.setSlice x).evr = d.evr := (rfl)
@[simp] theorem Dev.setSlice_xfe (d : Dev) (x : Tab Slice) : (d.setSlice x).xfe = d.xfe := (rfl)
@[simp] theorem Dev.setSlice_eth (d : Dev) (x : Tab Slice) : (d.setSlice x).eth = d.eth := (rfl)
@[simp] theorem Dev.setSlice_faKey (d : Dev) (x : Tab Slice) : (d.setSlice x).faKey = d.faKey := (rfl)
@[simp] theorem Dev.setSlice_syn (d : Dev) (x : Tab Slice) : (d.setSlice x).syn = d.syn := (rfl)
@[simp] theorem Dev.setSlice_ras (d : Dev) (x : Tab Slice) : (d.setSlice x).ras = d.ras := (rfl)
@[simp] theorem Dev.setSlice_pwr (d : Dev) (x : Tab Slice) : (d.setSlice x).pwr = d.pwr := (rfl)
@[simp] theorem Dev.setSlice_sec (d : Dev) (x : Tab Slice) : (d.setSlice x).sec = d.sec := (rfl)
@[simp] theorem Dev.setSlice_rd (d : Dev) (x : Tab Slice) (r : Reg) : (d.setSlice x).rd r = d.rd r :=
  Dev.rd_congr (Dev.setSlice_regs d x) r
@[simp] theorem Dev.setSlice_get (d : Dev) (x : Tab Slice) (fl : Fld) (m₁ m₂ m₃ : Nat) : (d.setSlice x).get fl m₁ m₂ m₃ = d.get fl m₁ m₂ m₃ :=
  Dev.get_congr (Dev.setSlice_regs d x) fl m₁ m₂ m₃

@[simp] theorem Dev.setTb_tb (d : Dev) (x : TimeBase) : (d.setTb x).tb = x := (rfl)
@[simp] theorem Dev.setTb_now (d : Dev) (x : TimeBase) : (d.setTb x).now = d.now := (rfl)
@[simp] theorem Dev.setTb_freeSeq (d : Dev) (x : TimeBase) : (d.setTb x).freeSeq = d.freeSeq := (rfl)
@[simp] theorem Dev.setTb_regs (d : Dev) (x : TimeBase) : (d.setTb x).regs = d.regs := (rfl)
@[simp] theorem Dev.setTb_bus (d : Dev) (x : TimeBase) : (d.setTb x).bus = d.bus := (rfl)
@[simp] theorem Dev.setTb_path (d : Dev) (x : TimeBase) : (d.setTb x).path = d.path := (rfl)
@[simp] theorem Dev.setTb_logic (d : Dev) (x : TimeBase) : (d.setTb x).logic = d.logic := (rfl)
@[simp] theorem Dev.setTb_stageNext (d : Dev) (x : TimeBase) : (d.setTb x).stageNext = d.stageNext := (rfl)
@[simp] theorem Dev.setTb_slice (d : Dev) (x : TimeBase) : (d.setTb x).slice = d.slice := (rfl)
@[simp] theorem Dev.setTb_trg (d : Dev) (x : TimeBase) : (d.setTb x).trg = d.trg := (rfl)
@[simp] theorem Dev.setTb_lanes (d : Dev) (x : TimeBase) : (d.setTb x).lanes = d.lanes := (rfl)
@[simp] theorem Dev.setTb_dec (d : Dev) (x : TimeBase) : (d.setTb x).dec = d.dec := (rfl)
@[simp] theorem Dev.setTb_tal (d : Dev) (x : TimeBase) : (d.setTb x).tal = d.tal := (rfl)
@[simp] theorem Dev.setTb_evi (d : Dev) (x : TimeBase) : (d.setTb x).evi = d.evi := (rfl)
@[simp] theorem Dev.setTb_ndl (d : Dev) (x : TimeBase) : (d.setTb x).ndl = d.ndl := (rfl)
@[simp] theorem Dev.setTb_stm (d : Dev) (x : TimeBase) : (d.setTb x).stm = d.stm := (rfl)
@[simp] theorem Dev.setTb_ben (d : Dev) (x : TimeBase) : (d.setTb x).ben = d.ben := (rfl)
@[simp] theorem Dev.setTb_link (d : Dev) (x : TimeBase) : (d.setTb x).link = d.link := (rfl)
@[simp] theorem Dev.setTb_que (d : Dev) (x : TimeBase) : (d.setTb x).que = d.que := (rfl)
@[simp] theorem Dev.setTb_evr (d : Dev) (x : TimeBase) : (d.setTb x).evr = d.evr := (rfl)
@[simp] theorem Dev.setTb_xfe (d : Dev) (x : TimeBase) : (d.setTb x).xfe = d.xfe := (rfl)
@[simp] theorem Dev.setTb_eth (d : Dev) (x : TimeBase) : (d.setTb x).eth = d.eth := (rfl)
@[simp] theorem Dev.setTb_faKey (d : Dev) (x : TimeBase) : (d.setTb x).faKey = d.faKey := (rfl)
@[simp] theorem Dev.setTb_syn (d : Dev) (x : TimeBase) : (d.setTb x).syn = d.syn := (rfl)
@[simp] theorem Dev.setTb_ras (d : Dev) (x : TimeBase) : (d.setTb x).ras = d.ras := (rfl)
@[simp] theorem Dev.setTb_pwr (d : Dev) (x : TimeBase) : (d.setTb x).pwr = d.pwr := (rfl)
@[simp] theorem Dev.setTb_sec (d : Dev) (x : TimeBase) : (d.setTb x).sec = d.sec := (rfl)
@[simp] theorem Dev.setTb_rd (d : Dev) (x : TimeBase) (r : Reg) : (d.setTb x).rd r = d.rd r :=
  Dev.rd_congr (Dev.setTb_regs d x) r
@[simp] theorem Dev.setTb_get (d : Dev) (x : TimeBase) (fl : Fld) (m₁ m₂ m₃ : Nat) : (d.setTb x).get fl m₁ m₂ m₃ = d.get fl m₁ m₂ m₃ :=
  Dev.get_congr (Dev.setTb_regs d x) fl m₁ m₂ m₃

@[simp] theorem Dev.setTrg_trg (d : Dev) (x : Tab TrigUnit) : (d.setTrg x).trg = x := (rfl)
@[simp] theorem Dev.setTrg_now (d : Dev) (x : Tab TrigUnit) : (d.setTrg x).now = d.now := (rfl)
@[simp] theorem Dev.setTrg_freeSeq (d : Dev) (x : Tab TrigUnit) : (d.setTrg x).freeSeq = d.freeSeq := (rfl)
@[simp] theorem Dev.setTrg_regs (d : Dev) (x : Tab TrigUnit) : (d.setTrg x).regs = d.regs := (rfl)
@[simp] theorem Dev.setTrg_bus (d : Dev) (x : Tab TrigUnit) : (d.setTrg x).bus = d.bus := (rfl)
@[simp] theorem Dev.setTrg_path (d : Dev) (x : Tab TrigUnit) : (d.setTrg x).path = d.path := (rfl)
@[simp] theorem Dev.setTrg_logic (d : Dev) (x : Tab TrigUnit) : (d.setTrg x).logic = d.logic := (rfl)
@[simp] theorem Dev.setTrg_stageNext (d : Dev) (x : Tab TrigUnit) : (d.setTrg x).stageNext = d.stageNext := (rfl)
@[simp] theorem Dev.setTrg_slice (d : Dev) (x : Tab TrigUnit) : (d.setTrg x).slice = d.slice := (rfl)
@[simp] theorem Dev.setTrg_tb (d : Dev) (x : Tab TrigUnit) : (d.setTrg x).tb = d.tb := (rfl)
@[simp] theorem Dev.setTrg_lanes (d : Dev) (x : Tab TrigUnit) : (d.setTrg x).lanes = d.lanes := (rfl)
@[simp] theorem Dev.setTrg_dec (d : Dev) (x : Tab TrigUnit) : (d.setTrg x).dec = d.dec := (rfl)
@[simp] theorem Dev.setTrg_tal (d : Dev) (x : Tab TrigUnit) : (d.setTrg x).tal = d.tal := (rfl)
@[simp] theorem Dev.setTrg_evi (d : Dev) (x : Tab TrigUnit) : (d.setTrg x).evi = d.evi := (rfl)
@[simp] theorem Dev.setTrg_ndl (d : Dev) (x : Tab TrigUnit) : (d.setTrg x).ndl = d.ndl := (rfl)
@[simp] theorem Dev.setTrg_stm (d : Dev) (x : Tab TrigUnit) : (d.setTrg x).stm = d.stm := (rfl)
@[simp] theorem Dev.setTrg_ben (d : Dev) (x : Tab TrigUnit) : (d.setTrg x).ben = d.ben := (rfl)
@[simp] theorem Dev.setTrg_link (d : Dev) (x : Tab TrigUnit) : (d.setTrg x).link = d.link := (rfl)
@[simp] theorem Dev.setTrg_que (d : Dev) (x : Tab TrigUnit) : (d.setTrg x).que = d.que := (rfl)
@[simp] theorem Dev.setTrg_evr (d : Dev) (x : Tab TrigUnit) : (d.setTrg x).evr = d.evr := (rfl)
@[simp] theorem Dev.setTrg_xfe (d : Dev) (x : Tab TrigUnit) : (d.setTrg x).xfe = d.xfe := (rfl)
@[simp] theorem Dev.setTrg_eth (d : Dev) (x : Tab TrigUnit) : (d.setTrg x).eth = d.eth := (rfl)
@[simp] theorem Dev.setTrg_faKey (d : Dev) (x : Tab TrigUnit) : (d.setTrg x).faKey = d.faKey := (rfl)
@[simp] theorem Dev.setTrg_syn (d : Dev) (x : Tab TrigUnit) : (d.setTrg x).syn = d.syn := (rfl)
@[simp] theorem Dev.setTrg_ras (d : Dev) (x : Tab TrigUnit) : (d.setTrg x).ras = d.ras := (rfl)
@[simp] theorem Dev.setTrg_pwr (d : Dev) (x : Tab TrigUnit) : (d.setTrg x).pwr = d.pwr := (rfl)
@[simp] theorem Dev.setTrg_sec (d : Dev) (x : Tab TrigUnit) : (d.setTrg x).sec = d.sec := (rfl)
@[simp] theorem Dev.setTrg_rd (d : Dev) (x : Tab TrigUnit) (r : Reg) : (d.setTrg x).rd r = d.rd r :=
  Dev.rd_congr (Dev.setTrg_regs d x) r
@[simp] theorem Dev.setTrg_get (d : Dev) (x : Tab TrigUnit) (fl : Fld) (m₁ m₂ m₃ : Nat) : (d.setTrg x).get fl m₁ m₂ m₃ = d.get fl m₁ m₂ m₃ :=
  Dev.get_congr (Dev.setTrg_regs d x) fl m₁ m₂ m₃

@[simp] theorem Dev.setLanes_lanes (d : Dev) (x : Lanes) : (d.setLanes x).lanes = x := (rfl)
@[simp] theorem Dev.setLanes_now (d : Dev) (x : Lanes) : (d.setLanes x).now = d.now := (rfl)
@[simp] theorem Dev.setLanes_freeSeq (d : Dev) (x : Lanes) : (d.setLanes x).freeSeq = d.freeSeq := (rfl)
@[simp] theorem Dev.setLanes_regs (d : Dev) (x : Lanes) : (d.setLanes x).regs = d.regs := (rfl)
@[simp] theorem Dev.setLanes_bus (d : Dev) (x : Lanes) : (d.setLanes x).bus = d.bus := (rfl)
@[simp] theorem Dev.setLanes_path (d : Dev) (x : Lanes) : (d.setLanes x).path = d.path := (rfl)
@[simp] theorem Dev.setLanes_logic (d : Dev) (x : Lanes) : (d.setLanes x).logic = d.logic := (rfl)
@[simp] theorem Dev.setLanes_stageNext (d : Dev) (x : Lanes) : (d.setLanes x).stageNext = d.stageNext := (rfl)
@[simp] theorem Dev.setLanes_slice (d : Dev) (x : Lanes) : (d.setLanes x).slice = d.slice := (rfl)
@[simp] theorem Dev.setLanes_tb (d : Dev) (x : Lanes) : (d.setLanes x).tb = d.tb := (rfl)
@[simp] theorem Dev.setLanes_trg (d : Dev) (x : Lanes) : (d.setLanes x).trg = d.trg := (rfl)
@[simp] theorem Dev.setLanes_dec (d : Dev) (x : Lanes) : (d.setLanes x).dec = d.dec := (rfl)
@[simp] theorem Dev.setLanes_tal (d : Dev) (x : Lanes) : (d.setLanes x).tal = d.tal := (rfl)
@[simp] theorem Dev.setLanes_evi (d : Dev) (x : Lanes) : (d.setLanes x).evi = d.evi := (rfl)
@[simp] theorem Dev.setLanes_ndl (d : Dev) (x : Lanes) : (d.setLanes x).ndl = d.ndl := (rfl)
@[simp] theorem Dev.setLanes_stm (d : Dev) (x : Lanes) : (d.setLanes x).stm = d.stm := (rfl)
@[simp] theorem Dev.setLanes_ben (d : Dev) (x : Lanes) : (d.setLanes x).ben = d.ben := (rfl)
@[simp] theorem Dev.setLanes_link (d : Dev) (x : Lanes) : (d.setLanes x).link = d.link := (rfl)
@[simp] theorem Dev.setLanes_que (d : Dev) (x : Lanes) : (d.setLanes x).que = d.que := (rfl)
@[simp] theorem Dev.setLanes_evr (d : Dev) (x : Lanes) : (d.setLanes x).evr = d.evr := (rfl)
@[simp] theorem Dev.setLanes_xfe (d : Dev) (x : Lanes) : (d.setLanes x).xfe = d.xfe := (rfl)
@[simp] theorem Dev.setLanes_eth (d : Dev) (x : Lanes) : (d.setLanes x).eth = d.eth := (rfl)
@[simp] theorem Dev.setLanes_faKey (d : Dev) (x : Lanes) : (d.setLanes x).faKey = d.faKey := (rfl)
@[simp] theorem Dev.setLanes_syn (d : Dev) (x : Lanes) : (d.setLanes x).syn = d.syn := (rfl)
@[simp] theorem Dev.setLanes_ras (d : Dev) (x : Lanes) : (d.setLanes x).ras = d.ras := (rfl)
@[simp] theorem Dev.setLanes_pwr (d : Dev) (x : Lanes) : (d.setLanes x).pwr = d.pwr := (rfl)
@[simp] theorem Dev.setLanes_sec (d : Dev) (x : Lanes) : (d.setLanes x).sec = d.sec := (rfl)
@[simp] theorem Dev.setLanes_rd (d : Dev) (x : Lanes) (r : Reg) : (d.setLanes x).rd r = d.rd r :=
  Dev.rd_congr (Dev.setLanes_regs d x) r
@[simp] theorem Dev.setLanes_get (d : Dev) (x : Lanes) (fl : Fld) (m₁ m₂ m₃ : Nat) : (d.setLanes x).get fl m₁ m₂ m₃ = d.get fl m₁ m₂ m₃ :=
  Dev.get_congr (Dev.setLanes_regs d x) fl m₁ m₂ m₃

@[simp] theorem Dev.setDec_dec (d : Dev) (x : Decimation) : (d.setDec x).dec = x := (rfl)
@[simp] theorem Dev.setDec_now (d : Dev) (x : Decimation) : (d.setDec x).now = d.now := (rfl)
@[simp] theorem Dev.setDec_freeSeq (d : Dev) (x : Decimation) : (d.setDec x).freeSeq = d.freeSeq := (rfl)
@[simp] theorem Dev.setDec_regs (d : Dev) (x : Decimation) : (d.setDec x).regs = d.regs := (rfl)
@[simp] theorem Dev.setDec_bus (d : Dev) (x : Decimation) : (d.setDec x).bus = d.bus := (rfl)
@[simp] theorem Dev.setDec_path (d : Dev) (x : Decimation) : (d.setDec x).path = d.path := (rfl)
@[simp] theorem Dev.setDec_logic (d : Dev) (x : Decimation) : (d.setDec x).logic = d.logic := (rfl)
@[simp] theorem Dev.setDec_stageNext (d : Dev) (x : Decimation) : (d.setDec x).stageNext = d.stageNext := (rfl)
@[simp] theorem Dev.setDec_slice (d : Dev) (x : Decimation) : (d.setDec x).slice = d.slice := (rfl)
@[simp] theorem Dev.setDec_tb (d : Dev) (x : Decimation) : (d.setDec x).tb = d.tb := (rfl)
@[simp] theorem Dev.setDec_trg (d : Dev) (x : Decimation) : (d.setDec x).trg = d.trg := (rfl)
@[simp] theorem Dev.setDec_lanes (d : Dev) (x : Decimation) : (d.setDec x).lanes = d.lanes := (rfl)
@[simp] theorem Dev.setDec_tal (d : Dev) (x : Decimation) : (d.setDec x).tal = d.tal := (rfl)
@[simp] theorem Dev.setDec_evi (d : Dev) (x : Decimation) : (d.setDec x).evi = d.evi := (rfl)
@[simp] theorem Dev.setDec_ndl (d : Dev) (x : Decimation) : (d.setDec x).ndl = d.ndl := (rfl)
@[simp] theorem Dev.setDec_stm (d : Dev) (x : Decimation) : (d.setDec x).stm = d.stm := (rfl)
@[simp] theorem Dev.setDec_ben (d : Dev) (x : Decimation) : (d.setDec x).ben = d.ben := (rfl)
@[simp] theorem Dev.setDec_link (d : Dev) (x : Decimation) : (d.setDec x).link = d.link := (rfl)
@[simp] theorem Dev.setDec_que (d : Dev) (x : Decimation) : (d.setDec x).que = d.que := (rfl)
@[simp] theorem Dev.setDec_evr (d : Dev) (x : Decimation) : (d.setDec x).evr = d.evr := (rfl)
@[simp] theorem Dev.setDec_xfe (d : Dev) (x : Decimation) : (d.setDec x).xfe = d.xfe := (rfl)
@[simp] theorem Dev.setDec_eth (d : Dev) (x : Decimation) : (d.setDec x).eth = d.eth := (rfl)
@[simp] theorem Dev.setDec_faKey (d : Dev) (x : Decimation) : (d.setDec x).faKey = d.faKey := (rfl)
@[simp] theorem Dev.setDec_syn (d : Dev) (x : Decimation) : (d.setDec x).syn = d.syn := (rfl)
@[simp] theorem Dev.setDec_ras (d : Dev) (x : Decimation) : (d.setDec x).ras = d.ras := (rfl)
@[simp] theorem Dev.setDec_pwr (d : Dev) (x : Decimation) : (d.setDec x).pwr = d.pwr := (rfl)
@[simp] theorem Dev.setDec_sec (d : Dev) (x : Decimation) : (d.setDec x).sec = d.sec := (rfl)
@[simp] theorem Dev.setDec_rd (d : Dev) (x : Decimation) (r : Reg) : (d.setDec x).rd r = d.rd r :=
  Dev.rd_congr (Dev.setDec_regs d x) r
@[simp] theorem Dev.setDec_get (d : Dev) (x : Decimation) (fl : Fld) (m₁ m₂ m₃ : Nat) : (d.setDec x).get fl m₁ m₂ m₃ = d.get fl m₁ m₂ m₃ :=
  Dev.get_congr (Dev.setDec_regs d x) fl m₁ m₂ m₃

@[simp] theorem Dev.setTal_tal (d : Dev) (x : Tally) : (d.setTal x).tal = x := (rfl)
@[simp] theorem Dev.setTal_now (d : Dev) (x : Tally) : (d.setTal x).now = d.now := (rfl)
@[simp] theorem Dev.setTal_freeSeq (d : Dev) (x : Tally) : (d.setTal x).freeSeq = d.freeSeq := (rfl)
@[simp] theorem Dev.setTal_regs (d : Dev) (x : Tally) : (d.setTal x).regs = d.regs := (rfl)
@[simp] theorem Dev.setTal_bus (d : Dev) (x : Tally) : (d.setTal x).bus = d.bus := (rfl)
@[simp] theorem Dev.setTal_path (d : Dev) (x : Tally) : (d.setTal x).path = d.path := (rfl)
@[simp] theorem Dev.setTal_logic (d : Dev) (x : Tally) : (d.setTal x).logic = d.logic := (rfl)
@[simp] theorem Dev.setTal_stageNext (d : Dev) (x : Tally) : (d.setTal x).stageNext = d.stageNext := (rfl)
@[simp] theorem Dev.setTal_slice (d : Dev) (x : Tally) : (d.setTal x).slice = d.slice := (rfl)
@[simp] theorem Dev.setTal_tb (d : Dev) (x : Tally) : (d.setTal x).tb = d.tb := (rfl)
@[simp] theorem Dev.setTal_trg (d : Dev) (x : Tally) : (d.setTal x).trg = d.trg := (rfl)
@[simp] theorem Dev.setTal_lanes (d : Dev) (x : Tally) : (d.setTal x).lanes = d.lanes := (rfl)
@[simp] theorem Dev.setTal_dec (d : Dev) (x : Tally) : (d.setTal x).dec = d.dec := (rfl)
@[simp] theorem Dev.setTal_evi (d : Dev) (x : Tally) : (d.setTal x).evi = d.evi := (rfl)
@[simp] theorem Dev.setTal_ndl (d : Dev) (x : Tally) : (d.setTal x).ndl = d.ndl := (rfl)
@[simp] theorem Dev.setTal_stm (d : Dev) (x : Tally) : (d.setTal x).stm = d.stm := (rfl)
@[simp] theorem Dev.setTal_ben (d : Dev) (x : Tally) : (d.setTal x).ben = d.ben := (rfl)
@[simp] theorem Dev.setTal_link (d : Dev) (x : Tally) : (d.setTal x).link = d.link := (rfl)
@[simp] theorem Dev.setTal_que (d : Dev) (x : Tally) : (d.setTal x).que = d.que := (rfl)
@[simp] theorem Dev.setTal_evr (d : Dev) (x : Tally) : (d.setTal x).evr = d.evr := (rfl)
@[simp] theorem Dev.setTal_xfe (d : Dev) (x : Tally) : (d.setTal x).xfe = d.xfe := (rfl)
@[simp] theorem Dev.setTal_eth (d : Dev) (x : Tally) : (d.setTal x).eth = d.eth := (rfl)
@[simp] theorem Dev.setTal_faKey (d : Dev) (x : Tally) : (d.setTal x).faKey = d.faKey := (rfl)
@[simp] theorem Dev.setTal_syn (d : Dev) (x : Tally) : (d.setTal x).syn = d.syn := (rfl)
@[simp] theorem Dev.setTal_ras (d : Dev) (x : Tally) : (d.setTal x).ras = d.ras := (rfl)
@[simp] theorem Dev.setTal_pwr (d : Dev) (x : Tally) : (d.setTal x).pwr = d.pwr := (rfl)
@[simp] theorem Dev.setTal_sec (d : Dev) (x : Tally) : (d.setTal x).sec = d.sec := (rfl)
@[simp] theorem Dev.setTal_rd (d : Dev) (x : Tally) (r : Reg) : (d.setTal x).rd r = d.rd r :=
  Dev.rd_congr (Dev.setTal_regs d x) r
@[simp] theorem Dev.setTal_get (d : Dev) (x : Tally) (fl : Fld) (m₁ m₂ m₃ : Nat) : (d.setTal x).get fl m₁ m₂ m₃ = d.get fl m₁ m₂ m₃ :=
  Dev.get_congr (Dev.setTal_regs d x) fl m₁ m₂ m₃

@[simp] theorem Dev.setEvi_evi (d : Dev) (x : EventIn) : (d.setEvi x).evi = x := (rfl)
@[simp] theorem Dev.setEvi_now (d : Dev) (x : EventIn) : (d.setEvi x).now = d.now := (rfl)
@[simp] theorem Dev.setEvi_freeSeq (d : Dev) (x : EventIn) : (d.setEvi x).freeSeq = d.freeSeq := (rfl)
@[simp] theorem Dev.setEvi_regs (d : Dev) (x : EventIn) : (d.setEvi x).regs = d.regs := (rfl)
@[simp] theorem Dev.setEvi_bus (d : Dev) (x : EventIn) : (d.setEvi x).bus = d.bus := (rfl)
@[simp] theorem Dev.setEvi_path (d : Dev) (x : EventIn) : (d.setEvi x).path = d.path := (rfl)
@[simp] theorem Dev.setEvi_logic (d : Dev) (x : EventIn) : (d.setEvi x).logic = d.logic := (rfl)
@[simp] theorem Dev.setEvi_stageNext (d : Dev) (x : EventIn) : (d.setEvi x).stageNext = d.stageNext := (rfl)
@[simp] theorem Dev.setEvi_slice (d : Dev) (x : EventIn) : (d.setEvi x).slice = d.slice := (rfl)
@[simp] theorem Dev.setEvi_tb (d : Dev) (x : EventIn) : (d.setEvi x).tb = d.tb := (rfl)
@[simp] theorem Dev.setEvi_trg (d : Dev) (x : EventIn) : (d.setEvi x).trg = d.trg := (rfl)
@[simp] theorem Dev.setEvi_lanes (d : Dev) (x : EventIn) : (d.setEvi x).lanes = d.lanes := (rfl)
@[simp] theorem Dev.setEvi_dec (d : Dev) (x : EventIn) : (d.setEvi x).dec = d.dec := (rfl)
@[simp] theorem Dev.setEvi_tal (d : Dev) (x : EventIn) : (d.setEvi x).tal = d.tal := (rfl)
@[simp] theorem Dev.setEvi_ndl (d : Dev) (x : EventIn) : (d.setEvi x).ndl = d.ndl := (rfl)
@[simp] theorem Dev.setEvi_stm (d : Dev) (x : EventIn) : (d.setEvi x).stm = d.stm := (rfl)
@[simp] theorem Dev.setEvi_ben (d : Dev) (x : EventIn) : (d.setEvi x).ben = d.ben := (rfl)
@[simp] theorem Dev.setEvi_link (d : Dev) (x : EventIn) : (d.setEvi x).link = d.link := (rfl)
@[simp] theorem Dev.setEvi_que (d : Dev) (x : EventIn) : (d.setEvi x).que = d.que := (rfl)
@[simp] theorem Dev.setEvi_evr (d : Dev) (x : EventIn) : (d.setEvi x).evr = d.evr := (rfl)
@[simp] theorem Dev.setEvi_xfe (d : Dev) (x : EventIn) : (d.setEvi x).xfe = d.xfe := (rfl)
@[simp] theorem Dev.setEvi_eth (d : Dev) (x : EventIn) : (d.setEvi x).eth = d.eth := (rfl)
@[simp] theorem Dev.setEvi_faKey (d : Dev) (x : EventIn) : (d.setEvi x).faKey = d.faKey := (rfl)
@[simp] theorem Dev.setEvi_syn (d : Dev) (x : EventIn) : (d.setEvi x).syn = d.syn := (rfl)
@[simp] theorem Dev.setEvi_ras (d : Dev) (x : EventIn) : (d.setEvi x).ras = d.ras := (rfl)
@[simp] theorem Dev.setEvi_pwr (d : Dev) (x : EventIn) : (d.setEvi x).pwr = d.pwr := (rfl)
@[simp] theorem Dev.setEvi_sec (d : Dev) (x : EventIn) : (d.setEvi x).sec = d.sec := (rfl)
@[simp] theorem Dev.setEvi_rd (d : Dev) (x : EventIn) (r : Reg) : (d.setEvi x).rd r = d.rd r :=
  Dev.rd_congr (Dev.setEvi_regs d x) r
@[simp] theorem Dev.setEvi_get (d : Dev) (x : EventIn) (fl : Fld) (m₁ m₂ m₃ : Nat) : (d.setEvi x).get fl m₁ m₂ m₃ = d.get fl m₁ m₂ m₃ :=
  Dev.get_congr (Dev.setEvi_regs d x) fl m₁ m₂ m₃

@[simp] theorem Dev.setNdl_ndl (d : Dev) (x : Needles) : (d.setNdl x).ndl = x := (rfl)
@[simp] theorem Dev.setNdl_now (d : Dev) (x : Needles) : (d.setNdl x).now = d.now := (rfl)
@[simp] theorem Dev.setNdl_freeSeq (d : Dev) (x : Needles) : (d.setNdl x).freeSeq = d.freeSeq := (rfl)
@[simp] theorem Dev.setNdl_regs (d : Dev) (x : Needles) : (d.setNdl x).regs = d.regs := (rfl)
@[simp] theorem Dev.setNdl_bus (d : Dev) (x : Needles) : (d.setNdl x).bus = d.bus := (rfl)
@[simp] theorem Dev.setNdl_path (d : Dev) (x : Needles) : (d.setNdl x).path = d.path := (rfl)
@[simp] theorem Dev.setNdl_logic (d : Dev) (x : Needles) : (d.setNdl x).logic = d.logic := (rfl)
@[simp] theorem Dev.setNdl_stageNext (d : Dev) (x : Needles) : (d.setNdl x).stageNext = d.stageNext := (rfl)
@[simp] theorem Dev.setNdl_slice (d : Dev) (x : Needles) : (d.setNdl x).slice = d.slice := (rfl)
@[simp] theorem Dev.setNdl_tb (d : Dev) (x : Needles) : (d.setNdl x).tb = d.tb := (rfl)
@[simp] theorem Dev.setNdl_trg (d : Dev) (x : Needles) : (d.setNdl x).trg = d.trg := (rfl)
@[simp] theorem Dev.setNdl_lanes (d : Dev) (x : Needles) : (d.setNdl x).lanes = d.lanes := (rfl)
@[simp] theorem Dev.setNdl_dec (d : Dev) (x : Needles) : (d.setNdl x).dec = d.dec := (rfl)
@[simp] theorem Dev.setNdl_tal (d : Dev) (x : Needles) : (d.setNdl x).tal = d.tal := (rfl)
@[simp] theorem Dev.setNdl_evi (d : Dev) (x : Needles) : (d.setNdl x).evi = d.evi := (rfl)
@[simp] theorem Dev.setNdl_stm (d : Dev) (x : Needles) : (d.setNdl x).stm = d.stm := (rfl)
@[simp] theorem Dev.setNdl_ben (d : Dev) (x : Needles) : (d.setNdl x).ben = d.ben := (rfl)
@[simp] theorem Dev.setNdl_link (d : Dev) (x : Needles) : (d.setNdl x).link = d.link := (rfl)
@[simp] theorem Dev.setNdl_que (d : Dev) (x : Needles) : (d.setNdl x).que = d.que := (rfl)
@[simp] theorem Dev.setNdl_evr (d : Dev) (x : Needles) : (d.setNdl x).evr = d.evr := (rfl)
@[simp] theorem Dev.setNdl_xfe (d : Dev) (x : Needles) : (d.setNdl x).xfe = d.xfe := (rfl)
@[simp] theorem Dev.setNdl_eth (d : Dev) (x : Needles) : (d.setNdl x).eth = d.eth := (rfl)
@[simp] theorem Dev.setNdl_faKey (d : Dev) (x : Needles) : (d.setNdl x).faKey = d.faKey := (rfl)
@[simp] theorem Dev.setNdl_syn (d : Dev) (x : Needles) : (d.setNdl x).syn = d.syn := (rfl)
@[simp] theorem Dev.setNdl_ras (d : Dev) (x : Needles) : (d.setNdl x).ras = d.ras := (rfl)
@[simp] theorem Dev.setNdl_pwr (d : Dev) (x : Needles) : (d.setNdl x).pwr = d.pwr := (rfl)
@[simp] theorem Dev.setNdl_sec (d : Dev) (x : Needles) : (d.setNdl x).sec = d.sec := (rfl)
@[simp] theorem Dev.setNdl_rd (d : Dev) (x : Needles) (r : Reg) : (d.setNdl x).rd r = d.rd r :=
  Dev.rd_congr (Dev.setNdl_regs d x) r
@[simp] theorem Dev.setNdl_get (d : Dev) (x : Needles) (fl : Fld) (m₁ m₂ m₃ : Nat) : (d.setNdl x).get fl m₁ m₂ m₃ = d.get fl m₁ m₂ m₃ :=
  Dev.get_congr (Dev.setNdl_regs d x) fl m₁ m₂ m₃

@[simp] theorem Dev.setStm_stm (d : Dev) (x : Tab Stim) : (d.setStm x).stm = x := (rfl)
@[simp] theorem Dev.setStm_now (d : Dev) (x : Tab Stim) : (d.setStm x).now = d.now := (rfl)
@[simp] theorem Dev.setStm_freeSeq (d : Dev) (x : Tab Stim) : (d.setStm x).freeSeq = d.freeSeq := (rfl)
@[simp] theorem Dev.setStm_regs (d : Dev) (x : Tab Stim) : (d.setStm x).regs = d.regs := (rfl)
@[simp] theorem Dev.setStm_bus (d : Dev) (x : Tab Stim) : (d.setStm x).bus = d.bus := (rfl)
@[simp] theorem Dev.setStm_path (d : Dev) (x : Tab Stim) : (d.setStm x).path = d.path := (rfl)
@[simp] theorem Dev.setStm_logic (d : Dev) (x : Tab Stim) : (d.setStm x).logic = d.logic := (rfl)
@[simp] theorem Dev.setStm_stageNext (d : Dev) (x : Tab Stim) : (d.setStm x).stageNext = d.stageNext := (rfl)
@[simp] theorem Dev.setStm_slice (d : Dev) (x : Tab Stim) : (d.setStm x).slice = d.slice := (rfl)
@[simp] theorem Dev.setStm_tb (d : Dev) (x : Tab Stim) : (d.setStm x).tb = d.tb := (rfl)
@[simp] theorem Dev.setStm_trg (d : Dev) (x : Tab Stim) : (d.setStm x).trg = d.trg := (rfl)
@[simp] theorem Dev.setStm_lanes (d : Dev) (x : Tab Stim) : (d.setStm x).lanes = d.lanes := (rfl)
@[simp] theorem Dev.setStm_dec (d : Dev) (x : Tab Stim) : (d.setStm x).dec = d.dec := (rfl)
@[simp] theorem Dev.setStm_tal (d : Dev) (x : Tab Stim) : (d.setStm x).tal = d.tal := (rfl)
@[simp] theorem Dev.setStm_evi (d : Dev) (x : Tab Stim) : (d.setStm x).evi = d.evi := (rfl)
@[simp] theorem Dev.setStm_ndl (d : Dev) (x : Tab Stim) : (d.setStm x).ndl = d.ndl := (rfl)
@[simp] theorem Dev.setStm_ben (d : Dev) (x : Tab Stim) : (d.setStm x).ben = d.ben := (rfl)
@[simp] theorem Dev.setStm_link (d : Dev) (x : Tab Stim) : (d.setStm x).link = d.link := (rfl)
@[simp] theorem Dev.setStm_que (d : Dev) (x : Tab Stim) : (d.setStm x).que = d.que := (rfl)
@[simp] theorem Dev.setStm_evr (d : Dev) (x : Tab Stim) : (d.setStm x).evr = d.evr := (rfl)
@[simp] theorem Dev.setStm_xfe (d : Dev) (x : Tab Stim) : (d.setStm x).xfe = d.xfe := (rfl)
@[simp] theorem Dev.setStm_eth (d : Dev) (x : Tab Stim) : (d.setStm x).eth = d.eth := (rfl)
@[simp] theorem Dev.setStm_faKey (d : Dev) (x : Tab Stim) : (d.setStm x).faKey = d.faKey := (rfl)
@[simp] theorem Dev.setStm_syn (d : Dev) (x : Tab Stim) : (d.setStm x).syn = d.syn := (rfl)
@[simp] theorem Dev.setStm_ras (d : Dev) (x : Tab Stim) : (d.setStm x).ras = d.ras := (rfl)
@[simp] theorem Dev.setStm_pwr (d : Dev) (x : Tab Stim) : (d.setStm x).pwr = d.pwr := (rfl)
@[simp] theorem Dev.setStm_sec (d : Dev) (x : Tab Stim) : (d.setStm x).sec = d.sec := (rfl)
@[simp] theorem Dev.setStm_rd (d : Dev) (x : Tab Stim) (r : Reg) : (d.setStm x).rd r = d.rd r :=
  Dev.rd_congr (Dev.setStm_regs d x) r
@[simp] theorem Dev.setStm_get (d : Dev) (x : Tab Stim) (fl : Fld) (m₁ m₂ m₃ : Nat) : (d.setStm x).get fl m₁ m₂ m₃ = d.get fl m₁ m₂ m₃ :=
  Dev.get_congr (Dev.setStm_regs d x) fl m₁ m₂ m₃

@[simp] theorem Dev.setBen_ben (d : Dev) (x : Bench) : (d.setBen x).ben = x := (rfl)
@[simp] theorem Dev.setBen_now (d : Dev) (x : Bench) : (d.setBen x).now = d.now := (rfl)
@[simp] theorem Dev.setBen_freeSeq (d : Dev) (x : Bench) : (d.setBen x).freeSeq = d.freeSeq := (rfl)
@[simp] theorem Dev.setBen_regs (d : Dev) (x : Bench) : (d.setBen x).regs = d.regs := (rfl)
@[simp] theorem Dev.setBen_bus (d : Dev) (x : Bench) : (d.setBen x).bus = d.bus := (rfl)
@[simp] theorem Dev.setBen_path (d : Dev) (x : Bench) : (d.setBen x).path = d.path := (rfl)
@[simp] theorem Dev.setBen_logic (d : Dev) (x : Bench) : (d.setBen x).logic = d.logic := (rfl)
@[simp] theorem Dev.setBen_stageNext (d : Dev) (x : Bench) : (d.setBen x).stageNext = d.stageNext := (rfl)
@[simp] theorem Dev.setBen_slice (d : Dev) (x : Bench) : (d.setBen x).slice = d.slice := (rfl)
@[simp] theorem Dev.setBen_tb (d : Dev) (x : Bench) : (d.setBen x).tb = d.tb := (rfl)
@[simp] theorem Dev.setBen_trg (d : Dev) (x : Bench) : (d.setBen x).trg = d.trg := (rfl)
@[simp] theorem Dev.setBen_lanes (d : Dev) (x : Bench) : (d.setBen x).lanes = d.lanes := (rfl)
@[simp] theorem Dev.setBen_dec (d : Dev) (x : Bench) : (d.setBen x).dec = d.dec := (rfl)
@[simp] theorem Dev.setBen_tal (d : Dev) (x : Bench) : (d.setBen x).tal = d.tal := (rfl)
@[simp] theorem Dev.setBen_evi (d : Dev) (x : Bench) : (d.setBen x).evi = d.evi := (rfl)
@[simp] theorem Dev.setBen_ndl (d : Dev) (x : Bench) : (d.setBen x).ndl = d.ndl := (rfl)
@[simp] theorem Dev.setBen_stm (d : Dev) (x : Bench) : (d.setBen x).stm = d.stm := (rfl)
@[simp] theorem Dev.setBen_link (d : Dev) (x : Bench) : (d.setBen x).link = d.link := (rfl)
@[simp] theorem Dev.setBen_que (d : Dev) (x : Bench) : (d.setBen x).que = d.que := (rfl)
@[simp] theorem Dev.setBen_evr (d : Dev) (x : Bench) : (d.setBen x).evr = d.evr := (rfl)
@[simp] theorem Dev.setBen_xfe (d : Dev) (x : Bench) : (d.setBen x).xfe = d.xfe := (rfl)
@[simp] theorem Dev.setBen_eth (d : Dev) (x : Bench) : (d.setBen x).eth = d.eth := (rfl)
@[simp] theorem Dev.setBen_faKey (d : Dev) (x : Bench) : (d.setBen x).faKey = d.faKey := (rfl)
@[simp] theorem Dev.setBen_syn (d : Dev) (x : Bench) : (d.setBen x).syn = d.syn := (rfl)
@[simp] theorem Dev.setBen_ras (d : Dev) (x : Bench) : (d.setBen x).ras = d.ras := (rfl)
@[simp] theorem Dev.setBen_pwr (d : Dev) (x : Bench) : (d.setBen x).pwr = d.pwr := (rfl)
@[simp] theorem Dev.setBen_sec (d : Dev) (x : Bench) : (d.setBen x).sec = d.sec := (rfl)
@[simp] theorem Dev.setBen_rd (d : Dev) (x : Bench) (r : Reg) : (d.setBen x).rd r = d.rd r :=
  Dev.rd_congr (Dev.setBen_regs d x) r
@[simp] theorem Dev.setBen_get (d : Dev) (x : Bench) (fl : Fld) (m₁ m₂ m₃ : Nat) : (d.setBen x).get fl m₁ m₂ m₃ = d.get fl m₁ m₂ m₃ :=
  Dev.get_congr (Dev.setBen_regs d x) fl m₁ m₂ m₃

@[simp] theorem Dev.setLink_link (d : Dev) (x : LinkState) : (d.setLink x).link = x := (rfl)
@[simp] theorem Dev.setLink_now (d : Dev) (x : LinkState) : (d.setLink x).now = d.now := (rfl)
@[simp] theorem Dev.setLink_freeSeq (d : Dev) (x : LinkState) : (d.setLink x).freeSeq = d.freeSeq := (rfl)
@[simp] theorem Dev.setLink_regs (d : Dev) (x : LinkState) : (d.setLink x).regs = d.regs := (rfl)
@[simp] theorem Dev.setLink_bus (d : Dev) (x : LinkState) : (d.setLink x).bus = d.bus := (rfl)
@[simp] theorem Dev.setLink_path (d : Dev) (x : LinkState) : (d.setLink x).path = d.path := (rfl)
@[simp] theorem Dev.setLink_logic (d : Dev) (x : LinkState) : (d.setLink x).logic = d.logic := (rfl)
@[simp] theorem Dev.setLink_stageNext (d : Dev) (x : LinkState) : (d.setLink x).stageNext = d.stageNext := (rfl)
@[simp] theorem Dev.setLink_slice (d : Dev) (x : LinkState) : (d.setLink x).slice = d.slice := (rfl)
@[simp] theorem Dev.setLink_tb (d : Dev) (x : LinkState) : (d.setLink x).tb = d.tb := (rfl)
@[simp] theorem Dev.setLink_trg (d : Dev) (x : LinkState) : (d.setLink x).trg = d.trg := (rfl)
@[simp] theorem Dev.setLink_lanes (d : Dev) (x : LinkState) : (d.setLink x).lanes = d.lanes := (rfl)
@[simp] theorem Dev.setLink_dec (d : Dev) (x : LinkState) : (d.setLink x).dec = d.dec := (rfl)
@[simp] theorem Dev.setLink_tal (d : Dev) (x : LinkState) : (d.setLink x).tal = d.tal := (rfl)
@[simp] theorem Dev.setLink_evi (d : Dev) (x : LinkState) : (d.setLink x).evi = d.evi := (rfl)
@[simp] theorem Dev.setLink_ndl (d : Dev) (x : LinkState) : (d.setLink x).ndl = d.ndl := (rfl)
@[simp] theorem Dev.setLink_stm (d : Dev) (x : LinkState) : (d.setLink x).stm = d.stm := (rfl)
@[simp] theorem Dev.setLink_ben (d : Dev) (x : LinkState) : (d.setLink x).ben = d.ben := (rfl)
@[simp] theorem Dev.setLink_que (d : Dev) (x : LinkState) : (d.setLink x).que = d.que := (rfl)
@[simp] theorem Dev.setLink_evr (d : Dev) (x : LinkState) : (d.setLink x).evr = d.evr := (rfl)
@[simp] theorem Dev.setLink_xfe (d : Dev) (x : LinkState) : (d.setLink x).xfe = d.xfe := (rfl)
@[simp] theorem Dev.setLink_eth (d : Dev) (x : LinkState) : (d.setLink x).eth = d.eth := (rfl)
@[simp] theorem Dev.setLink_faKey (d : Dev) (x : LinkState) : (d.setLink x).faKey = d.faKey := (rfl)
@[simp] theorem Dev.setLink_syn (d : Dev) (x : LinkState) : (d.setLink x).syn = d.syn := (rfl)
@[simp] theorem Dev.setLink_ras (d : Dev) (x : LinkState) : (d.setLink x).ras = d.ras := (rfl)
@[simp] theorem Dev.setLink_pwr (d : Dev) (x : LinkState) : (d.setLink x).pwr = d.pwr := (rfl)
@[simp] theorem Dev.setLink_sec (d : Dev) (x : LinkState) : (d.setLink x).sec = d.sec := (rfl)
@[simp] theorem Dev.setLink_rd (d : Dev) (x : LinkState) (r : Reg) : (d.setLink x).rd r = d.rd r :=
  Dev.rd_congr (Dev.setLink_regs d x) r
@[simp] theorem Dev.setLink_get (d : Dev) (x : LinkState) (fl : Fld) (m₁ m₂ m₃ : Nat) : (d.setLink x).get fl m₁ m₂ m₃ = d.get fl m₁ m₂ m₃ :=
  Dev.get_congr (Dev.setLink_regs d x) fl m₁ m₂ m₃

@[simp] theorem Dev.setQue_que (d : Dev) (x : QueueEngine) : (d.setQue x).que = x := (rfl)
@[simp] theorem Dev.setQue_now (d : Dev) (x : QueueEngine) : (d.setQue x).now = d.now := (rfl)
@[simp] theorem Dev.setQue_freeSeq (d : Dev) (x : QueueEngine) : (d.setQue x).freeSeq = d.freeSeq := (rfl)
@[simp] theorem Dev.setQue_regs (d : Dev) (x : QueueEngine) : (d.setQue x).regs = d.regs := (rfl)
@[simp] theorem Dev.setQue_bus (d : Dev) (x : QueueEngine) : (d.setQue x).bus = d.bus := (rfl)
@[simp] theorem Dev.setQue_path (d : Dev) (x : QueueEngine) : (d.setQue x).path = d.path := (rfl)
@[simp] theorem Dev.setQue_logic (d : Dev) (x : QueueEngine) : (d.setQue x).logic = d.logic := (rfl)
@[simp] theorem Dev.setQue_stageNext (d : Dev) (x : QueueEngine) : (d.setQue x).stageNext = d.stageNext := (rfl)
@[simp] theorem Dev.setQue_slice (d : Dev) (x : QueueEngine) : (d.setQue x).slice = d.slice := (rfl)
@[simp] theorem Dev.setQue_tb (d : Dev) (x : QueueEngine) : (d.setQue x).tb = d.tb := (rfl)
@[simp] theorem Dev.setQue_trg (d : Dev) (x : QueueEngine) : (d.setQue x).trg = d.trg := (rfl)
@[simp] theorem Dev.setQue_lanes (d : Dev) (x : QueueEngine) : (d.setQue x).lanes = d.lanes := (rfl)
@[simp] theorem Dev.setQue_dec (d : Dev) (x : QueueEngine) : (d.setQue x).dec = d.dec := (rfl)
@[simp] theorem Dev.setQue_tal (d : Dev) (x : QueueEngine) : (d.setQue x).tal = d.tal := (rfl)
@[simp] theorem Dev.setQue_evi (d : Dev) (x : QueueEngine) : (d.setQue x).evi = d.evi := (rfl)
@[simp] theorem Dev.setQue_ndl (d : Dev) (x : QueueEngine) : (d.setQue x).ndl = d.ndl := (rfl)
@[simp] theorem Dev.setQue_stm (d : Dev) (x : QueueEngine) : (d.setQue x).stm = d.stm := (rfl)
@[simp] theorem Dev.setQue_ben (d : Dev) (x : QueueEngine) : (d.setQue x).ben = d.ben := (rfl)
@[simp] theorem Dev.setQue_link (d : Dev) (x : QueueEngine) : (d.setQue x).link = d.link := (rfl)
@[simp] theorem Dev.setQue_evr (d : Dev) (x : QueueEngine) : (d.setQue x).evr = d.evr := (rfl)
@[simp] theorem Dev.setQue_xfe (d : Dev) (x : QueueEngine) : (d.setQue x).xfe = d.xfe := (rfl)
@[simp] theorem Dev.setQue_eth (d : Dev) (x : QueueEngine) : (d.setQue x).eth = d.eth := (rfl)
@[simp] theorem Dev.setQue_faKey (d : Dev) (x : QueueEngine) : (d.setQue x).faKey = d.faKey := (rfl)
@[simp] theorem Dev.setQue_syn (d : Dev) (x : QueueEngine) : (d.setQue x).syn = d.syn := (rfl)
@[simp] theorem Dev.setQue_ras (d : Dev) (x : QueueEngine) : (d.setQue x).ras = d.ras := (rfl)
@[simp] theorem Dev.setQue_pwr (d : Dev) (x : QueueEngine) : (d.setQue x).pwr = d.pwr := (rfl)
@[simp] theorem Dev.setQue_sec (d : Dev) (x : QueueEngine) : (d.setQue x).sec = d.sec := (rfl)
@[simp] theorem Dev.setQue_rd (d : Dev) (x : QueueEngine) (r : Reg) : (d.setQue x).rd r = d.rd r :=
  Dev.rd_congr (Dev.setQue_regs d x) r
@[simp] theorem Dev.setQue_get (d : Dev) (x : QueueEngine) (fl : Fld) (m₁ m₂ m₃ : Nat) : (d.setQue x).get fl m₁ m₂ m₃ = d.get fl m₁ m₂ m₃ :=
  Dev.get_congr (Dev.setQue_regs d x) fl m₁ m₂ m₃

@[simp] theorem Dev.setEvr_evr (d : Dev) (x : Router) : (d.setEvr x).evr = x := (rfl)
@[simp] theorem Dev.setEvr_now (d : Dev) (x : Router) : (d.setEvr x).now = d.now := (rfl)
@[simp] theorem Dev.setEvr_freeSeq (d : Dev) (x : Router) : (d.setEvr x).freeSeq = d.freeSeq := (rfl)
@[simp] theorem Dev.setEvr_regs (d : Dev) (x : Router) : (d.setEvr x).regs = d.regs := (rfl)
@[simp] theorem Dev.setEvr_bus (d : Dev) (x : Router) : (d.setEvr x).bus = d.bus := (rfl)
@[simp] theorem Dev.setEvr_path (d : Dev) (x : Router) : (d.setEvr x).path = d.path := (rfl)
@[simp] theorem Dev.setEvr_logic (d : Dev) (x : Router) : (d.setEvr x).logic = d.logic := (rfl)
@[simp] theorem Dev.setEvr_stageNext (d : Dev) (x : Router) : (d.setEvr x).stageNext = d.stageNext := (rfl)
@[simp] theorem Dev.setEvr_slice (d : Dev) (x : Router) : (d.setEvr x).slice = d.slice := (rfl)
@[simp] theorem Dev.setEvr_tb (d : Dev) (x : Router) : (d.setEvr x).tb = d.tb := (rfl)
@[simp] theorem Dev.setEvr_trg (d : Dev) (x : Router) : (d.setEvr x).trg = d.trg := (rfl)
@[simp] theorem Dev.setEvr_lanes (d : Dev) (x : Router) : (d.setEvr x).lanes = d.lanes := (rfl)
@[simp] theorem Dev.setEvr_dec (d : Dev) (x : Router) : (d.setEvr x).dec = d.dec := (rfl)
@[simp] theorem Dev.setEvr_tal (d : Dev) (x : Router) : (d.setEvr x).tal = d.tal := (rfl)
@[simp] theorem Dev.setEvr_evi (d : Dev) (x : Router) : (d.setEvr x).evi = d.evi := (rfl)
@[simp] theorem Dev.setEvr_ndl (d : Dev) (x : Router) : (d.setEvr x).ndl = d.ndl := (rfl)
@[simp] theorem Dev.setEvr_stm (d : Dev) (x : Router) : (d.setEvr x).stm = d.stm := (rfl)
@[simp] theorem Dev.setEvr_ben (d : Dev) (x : Router) : (d.setEvr x).ben = d.ben := (rfl)
@[simp] theorem Dev.setEvr_link (d : Dev) (x : Router) : (d.setEvr x).link = d.link := (rfl)
@[simp] theorem Dev.setEvr_que (d : Dev) (x : Router) : (d.setEvr x).que = d.que := (rfl)
@[simp] theorem Dev.setEvr_xfe (d : Dev) (x : Router) : (d.setEvr x).xfe = d.xfe := (rfl)
@[simp] theorem Dev.setEvr_eth (d : Dev) (x : Router) : (d.setEvr x).eth = d.eth := (rfl)
@[simp] theorem Dev.setEvr_faKey (d : Dev) (x : Router) : (d.setEvr x).faKey = d.faKey := (rfl)
@[simp] theorem Dev.setEvr_syn (d : Dev) (x : Router) : (d.setEvr x).syn = d.syn := (rfl)
@[simp] theorem Dev.setEvr_ras (d : Dev) (x : Router) : (d.setEvr x).ras = d.ras := (rfl)
@[simp] theorem Dev.setEvr_pwr (d : Dev) (x : Router) : (d.setEvr x).pwr = d.pwr := (rfl)
@[simp] theorem Dev.setEvr_sec (d : Dev) (x : Router) : (d.setEvr x).sec = d.sec := (rfl)
@[simp] theorem Dev.setEvr_rd (d : Dev) (x : Router) (r : Reg) : (d.setEvr x).rd r = d.rd r :=
  Dev.rd_congr (Dev.setEvr_regs d x) r
@[simp] theorem Dev.setEvr_get (d : Dev) (x : Router) (fl : Fld) (m₁ m₂ m₃ : Nat) : (d.setEvr x).get fl m₁ m₂ m₃ = d.get fl m₁ m₂ m₃ :=
  Dev.get_congr (Dev.setEvr_regs d x) fl m₁ m₂ m₃

@[simp] theorem Dev.setXfe_xfe (d : Dev) (x : Xfer) : (d.setXfe x).xfe = x := (rfl)
@[simp] theorem Dev.setXfe_now (d : Dev) (x : Xfer) : (d.setXfe x).now = d.now := (rfl)
@[simp] theorem Dev.setXfe_freeSeq (d : Dev) (x : Xfer) : (d.setXfe x).freeSeq = d.freeSeq := (rfl)
@[simp] theorem Dev.setXfe_regs (d : Dev) (x : Xfer) : (d.setXfe x).regs = d.regs := (rfl)
@[simp] theorem Dev.setXfe_bus (d : Dev) (x : Xfer) : (d.setXfe x).bus = d.bus := (rfl)
@[simp] theorem Dev.setXfe_path (d : Dev) (x : Xfer) : (d.setXfe x).path = d.path := (rfl)
@[simp] theorem Dev.setXfe_logic (d : Dev) (x : Xfer) : (d.setXfe x).logic = d.logic := (rfl)
@[simp] theorem Dev.setXfe_stageNext (d : Dev) (x : Xfer) : (d.setXfe x).stageNext = d.stageNext := (rfl)
@[simp] theorem Dev.setXfe_slice (d : Dev) (x : Xfer) : (d.setXfe x).slice = d.slice := (rfl)
@[simp] theorem Dev.setXfe_tb (d : Dev) (x : Xfer) : (d.setXfe x).tb = d.tb := (rfl)
@[simp] theorem Dev.setXfe_trg (d : Dev) (x : Xfer) : (d.setXfe x).trg = d.trg := (rfl)
@[simp] theorem Dev.setXfe_lanes (d : Dev) (x : Xfer) : (d.setXfe x).lanes = d.lanes := (rfl)
@[simp] theorem Dev.setXfe_dec (d : Dev) (x : Xfer) : (d.setXfe x).dec = d.dec := (rfl)
@[simp] theorem Dev.setXfe_tal (d : Dev) (x : Xfer) : (d.setXfe x).tal = d.tal := (rfl)
@[simp] theorem Dev.setXfe_evi (d : Dev) (x : Xfer) : (d.setXfe x).evi = d.evi := (rfl)
@[simp] theorem Dev.setXfe_ndl (d : Dev) (x : Xfer) : (d.setXfe x).ndl = d.ndl := (rfl)
@[simp] theorem Dev.setXfe_stm (d : Dev) (x : Xfer) : (d.setXfe x).stm = d.stm := (rfl)
@[simp] theorem Dev.setXfe_ben (d : Dev) (x : Xfer) : (d.setXfe x).ben = d.ben := (rfl)
@[simp] theorem Dev.setXfe_link (d : Dev) (x : Xfer) : (d.setXfe x).link = d.link := (rfl)
@[simp] theorem Dev.setXfe_que (d : Dev) (x : Xfer) : (d.setXfe x).que = d.que := (rfl)
@[simp] theorem Dev.setXfe_evr (d : Dev) (x : Xfer) : (d.setXfe x).evr = d.evr := (rfl)
@[simp] theorem Dev.setXfe_eth (d : Dev) (x : Xfer) : (d.setXfe x).eth = d.eth := (rfl)
@[simp] theorem Dev.setXfe_faKey (d : Dev) (x : Xfer) : (d.setXfe x).faKey = d.faKey := (rfl)
@[simp] theorem Dev.setXfe_syn (d : Dev) (x : Xfer) : (d.setXfe x).syn = d.syn := (rfl)
@[simp] theorem Dev.setXfe_ras (d : Dev) (x : Xfer) : (d.setXfe x).ras = d.ras := (rfl)
@[simp] theorem Dev.setXfe_pwr (d : Dev) (x : Xfer) : (d.setXfe x).pwr = d.pwr := (rfl)
@[simp] theorem Dev.setXfe_sec (d : Dev) (x : Xfer) : (d.setXfe x).sec = d.sec := (rfl)
@[simp] theorem Dev.setXfe_rd (d : Dev) (x : Xfer) (r : Reg) : (d.setXfe x).rd r = d.rd r :=
  Dev.rd_congr (Dev.setXfe_regs d x) r
@[simp] theorem Dev.setXfe_get (d : Dev) (x : Xfer) (fl : Fld) (m₁ m₂ m₃ : Nat) : (d.setXfe x).get fl m₁ m₂ m₃ = d.get fl m₁ m₂ m₃ :=
  Dev.get_congr (Dev.setXfe_regs d x) fl m₁ m₂ m₃

@[simp] theorem Dev.setEth_eth (d : Dev) (x : Tab Port) : (d.setEth x).eth = x := (rfl)
@[simp] theorem Dev.setEth_now (d : Dev) (x : Tab Port) : (d.setEth x).now = d.now := (rfl)
@[simp] theorem Dev.setEth_freeSeq (d : Dev) (x : Tab Port) : (d.setEth x).freeSeq = d.freeSeq := (rfl)
@[simp] theorem Dev.setEth_regs (d : Dev) (x : Tab Port) : (d.setEth x).regs = d.regs := (rfl)
@[simp] theorem Dev.setEth_bus (d : Dev) (x : Tab Port) : (d.setEth x).bus = d.bus := (rfl)
@[simp] theorem Dev.setEth_path (d : Dev) (x : Tab Port) : (d.setEth x).path = d.path := (rfl)
@[simp] theorem Dev.setEth_logic (d : Dev) (x : Tab Port) : (d.setEth x).logic = d.logic := (rfl)
@[simp] theorem Dev.setEth_stageNext (d : Dev) (x : Tab Port) : (d.setEth x).stageNext = d.stageNext := (rfl)
@[simp] theorem Dev.setEth_slice (d : Dev) (x : Tab Port) : (d.setEth x).slice = d.slice := (rfl)
@[simp] theorem Dev.setEth_tb (d : Dev) (x : Tab Port) : (d.setEth x).tb = d.tb := (rfl)
@[simp] theorem Dev.setEth_trg (d : Dev) (x : Tab Port) : (d.setEth x).trg = d.trg := (rfl)
@[simp] theorem Dev.setEth_lanes (d : Dev) (x : Tab Port) : (d.setEth x).lanes = d.lanes := (rfl)
@[simp] theorem Dev.setEth_dec (d : Dev) (x : Tab Port) : (d.setEth x).dec = d.dec := (rfl)
@[simp] theorem Dev.setEth_tal (d : Dev) (x : Tab Port) : (d.setEth x).tal = d.tal := (rfl)
@[simp] theorem Dev.setEth_evi (d : Dev) (x : Tab Port) : (d.setEth x).evi = d.evi := (rfl)
@[simp] theorem Dev.setEth_ndl (d : Dev) (x : Tab Port) : (d.setEth x).ndl = d.ndl := (rfl)
@[simp] theorem Dev.setEth_stm (d : Dev) (x : Tab Port) : (d.setEth x).stm = d.stm := (rfl)
@[simp] theorem Dev.setEth_ben (d : Dev) (x : Tab Port) : (d.setEth x).ben = d.ben := (rfl)
@[simp] theorem Dev.setEth_link (d : Dev) (x : Tab Port) : (d.setEth x).link = d.link := (rfl)
@[simp] theorem Dev.setEth_que (d : Dev) (x : Tab Port) : (d.setEth x).que = d.que := (rfl)
@[simp] theorem Dev.setEth_evr (d : Dev) (x : Tab Port) : (d.setEth x).evr = d.evr := (rfl)
@[simp] theorem Dev.setEth_xfe (d : Dev) (x : Tab Port) : (d.setEth x).xfe = d.xfe := (rfl)
@[simp] theorem Dev.setEth_faKey (d : Dev) (x : Tab Port) : (d.setEth x).faKey = d.faKey := (rfl)
@[simp] theorem Dev.setEth_syn (d : Dev) (x : Tab Port) : (d.setEth x).syn = d.syn := (rfl)
@[simp] theorem Dev.setEth_ras (d : Dev) (x : Tab Port) : (d.setEth x).ras = d.ras := (rfl)
@[simp] theorem Dev.setEth_pwr (d : Dev) (x : Tab Port) : (d.setEth x).pwr = d.pwr := (rfl)
@[simp] theorem Dev.setEth_sec (d : Dev) (x : Tab Port) : (d.setEth x).sec = d.sec := (rfl)
@[simp] theorem Dev.setEth_rd (d : Dev) (x : Tab Port) (r : Reg) : (d.setEth x).rd r = d.rd r :=
  Dev.rd_congr (Dev.setEth_regs d x) r
@[simp] theorem Dev.setEth_get (d : Dev) (x : Tab Port) (fl : Fld) (m₁ m₂ m₃ : Nat) : (d.setEth x).get fl m₁ m₂ m₃ = d.get fl m₁ m₂ m₃ :=
  Dev.get_congr (Dev.setEth_regs d x) fl m₁ m₂ m₃

@[simp] theorem Dev.setFaKey_faKey (d : Dev) (x : Tab Nat) : (d.setFaKey x).faKey = x := (rfl)
@[simp] theorem Dev.setFaKey_now (d : Dev) (x : Tab Nat) : (d.setFaKey x).now = d.now := (rfl)
@[simp] theorem Dev.setFaKey_freeSeq (d : Dev) (x : Tab Nat) : (d.setFaKey x).freeSeq = d.freeSeq := (rfl)
@[simp] theorem Dev.setFaKey_regs (d : Dev) (x : Tab Nat) : (d.setFaKey x).regs = d.regs := (rfl)
@[simp] theorem Dev.setFaKey_bus (d : Dev) (x : Tab Nat) : (d.setFaKey x).bus = d.bus := (rfl)
@[simp] theorem Dev.setFaKey_path (d : Dev) (x : Tab Nat) : (d.setFaKey x).path = d.path := (rfl)
@[simp] theorem Dev.setFaKey_logic (d : Dev) (x : Tab Nat) : (d.setFaKey x).logic = d.logic := (rfl)
@[simp] theorem Dev.setFaKey_stageNext (d : Dev) (x : Tab Nat) : (d.setFaKey x).stageNext = d.stageNext := (rfl)
@[simp] theorem Dev.setFaKey_slice (d : Dev) (x : Tab Nat) : (d.setFaKey x).slice = d.slice := (rfl)
@[simp] theorem Dev.setFaKey_tb (d : Dev) (x : Tab Nat) : (d.setFaKey x).tb = d.tb := (rfl)
@[simp] theorem Dev.setFaKey_trg (d : Dev) (x : Tab Nat) : (d.setFaKey x).trg = d.trg := (rfl)
@[simp] theorem Dev.setFaKey_lanes (d : Dev) (x : Tab Nat) : (d.setFaKey x).lanes = d.lanes := (rfl)
@[simp] theorem Dev.setFaKey_dec (d : Dev) (x : Tab Nat) : (d.setFaKey x).dec = d.dec := (rfl)
@[simp] theorem Dev.setFaKey_tal (d : Dev) (x : Tab Nat) : (d.setFaKey x).tal = d.tal := (rfl)
@[simp] theorem Dev.setFaKey_evi (d : Dev) (x : Tab Nat) : (d.setFaKey x).evi = d.evi := (rfl)
@[simp] theorem Dev.setFaKey_ndl (d : Dev) (x : Tab Nat) : (d.setFaKey x).ndl = d.ndl := (rfl)
@[simp] theorem Dev.setFaKey_stm (d : Dev) (x : Tab Nat) : (d.setFaKey x).stm = d.stm := (rfl)
@[simp] theorem Dev.setFaKey_ben (d : Dev) (x : Tab Nat) : (d.setFaKey x).ben = d.ben := (rfl)
@[simp] theorem Dev.setFaKey_link (d : Dev) (x : Tab Nat) : (d.setFaKey x).link = d.link := (rfl)
@[simp] theorem Dev.setFaKey_que (d : Dev) (x : Tab Nat) : (d.setFaKey x).que = d.que := (rfl)
@[simp] theorem Dev.setFaKey_evr (d : Dev) (x : Tab Nat) : (d.setFaKey x).evr = d.evr := (rfl)
@[simp] theorem Dev.setFaKey_xfe (d : Dev) (x : Tab Nat) : (d.setFaKey x).xfe = d.xfe := (rfl)
@[simp] theorem Dev.setFaKey_eth (d : Dev) (x : Tab Nat) : (d.setFaKey x).eth = d.eth := (rfl)
@[simp] theorem Dev.setFaKey_syn (d : Dev) (x : Tab Nat) : (d.setFaKey x).syn = d.syn := (rfl)
@[simp] theorem Dev.setFaKey_ras (d : Dev) (x : Tab Nat) : (d.setFaKey x).ras = d.ras := (rfl)
@[simp] theorem Dev.setFaKey_pwr (d : Dev) (x : Tab Nat) : (d.setFaKey x).pwr = d.pwr := (rfl)
@[simp] theorem Dev.setFaKey_sec (d : Dev) (x : Tab Nat) : (d.setFaKey x).sec = d.sec := (rfl)
@[simp] theorem Dev.setFaKey_rd (d : Dev) (x : Tab Nat) (r : Reg) : (d.setFaKey x).rd r = d.rd r :=
  Dev.rd_congr (Dev.setFaKey_regs d x) r
@[simp] theorem Dev.setFaKey_get (d : Dev) (x : Tab Nat) (fl : Fld) (m₁ m₂ m₃ : Nat) : (d.setFaKey x).get fl m₁ m₂ m₃ = d.get fl m₁ m₂ m₃ :=
  Dev.get_congr (Dev.setFaKey_regs d x) fl m₁ m₂ m₃

@[simp] theorem Dev.setSyn_syn (d : Dev) (x : SynBus) : (d.setSyn x).syn = x := (rfl)
@[simp] theorem Dev.setSyn_now (d : Dev) (x : SynBus) : (d.setSyn x).now = d.now := (rfl)
@[simp] theorem Dev.setSyn_freeSeq (d : Dev) (x : SynBus) : (d.setSyn x).freeSeq = d.freeSeq := (rfl)
@[simp] theorem Dev.setSyn_regs (d : Dev) (x : SynBus) : (d.setSyn x).regs = d.regs := (rfl)
@[simp] theorem Dev.setSyn_bus (d : Dev) (x : SynBus) : (d.setSyn x).bus = d.bus := (rfl)
@[simp] theorem Dev.setSyn_path (d : Dev) (x : SynBus) : (d.setSyn x).path = d.path := (rfl)
@[simp] theorem Dev.setSyn_logic (d : Dev) (x : SynBus) : (d.setSyn x).logic = d.logic := (rfl)
@[simp] theorem Dev.setSyn_stageNext (d : Dev) (x : SynBus) : (d.setSyn x).stageNext = d.stageNext := (rfl)
@[simp] theorem Dev.setSyn_slice (d : Dev) (x : SynBus) : (d.setSyn x).slice = d.slice := (rfl)
@[simp] theorem Dev.setSyn_tb (d : Dev) (x : SynBus) : (d.setSyn x).tb = d.tb := (rfl)
@[simp] theorem Dev.setSyn_trg (d : Dev) (x : SynBus) : (d.setSyn x).trg = d.trg := (rfl)
@[simp] theorem Dev.setSyn_lanes (d : Dev) (x : SynBus) : (d.setSyn x).lanes = d.lanes := (rfl)
@[simp] theorem Dev.setSyn_dec (d : Dev) (x : SynBus) : (d.setSyn x).dec = d.dec := (rfl)
@[simp] theorem Dev.setSyn_tal (d : Dev) (x : SynBus) : (d.setSyn x).tal = d.tal := (rfl)
@[simp] theorem Dev.setSyn_evi (d : Dev) (x : SynBus) : (d.setSyn x).evi = d.evi := (rfl)
@[simp] theorem Dev.setSyn_ndl (d : Dev) (x : SynBus) : (d.setSyn x).ndl = d.ndl := (rfl)
@[simp] theorem Dev.setSyn_stm (d : Dev) (x : SynBus) : (d.setSyn x).stm = d.stm := (rfl)
@[simp] theorem Dev.setSyn_ben (d : Dev) (x : SynBus) : (d.setSyn x).ben = d.ben := (rfl)
@[simp] theorem Dev.setSyn_link (d : Dev) (x : SynBus) : (d.setSyn x).link = d.link := (rfl)
@[simp] theorem Dev.setSyn_que (d : Dev) (x : SynBus) : (d.setSyn x).que = d.que := (rfl)
@[simp] theorem Dev.setSyn_evr (d : Dev) (x : SynBus) : (d.setSyn x).evr = d.evr := (rfl)
@[simp] theorem Dev.setSyn_xfe (d : Dev) (x : SynBus) : (d.setSyn x).xfe = d.xfe := (rfl)
@[simp] theorem Dev.setSyn_eth (d : Dev) (x : SynBus) : (d.setSyn x).eth = d.eth := (rfl)
@[simp] theorem Dev.setSyn_faKey (d : Dev) (x : SynBus) : (d.setSyn x).faKey = d.faKey := (rfl)
@[simp] theorem Dev.setSyn_ras (d : Dev) (x : SynBus) : (d.setSyn x).ras = d.ras := (rfl)
@[simp] theorem Dev.setSyn_pwr (d : Dev) (x : SynBus) : (d.setSyn x).pwr = d.pwr := (rfl)
@[simp] theorem Dev.setSyn_sec (d : Dev) (x : SynBus) : (d.setSyn x).sec = d.sec := (rfl)
@[simp] theorem Dev.setSyn_rd (d : Dev) (x : SynBus) (r : Reg) : (d.setSyn x).rd r = d.rd r :=
  Dev.rd_congr (Dev.setSyn_regs d x) r
@[simp] theorem Dev.setSyn_get (d : Dev) (x : SynBus) (fl : Fld) (m₁ m₂ m₃ : Nat) : (d.setSyn x).get fl m₁ m₂ m₃ = d.get fl m₁ m₂ m₃ :=
  Dev.get_congr (Dev.setSyn_regs d x) fl m₁ m₂ m₃

@[simp] theorem Dev.setRas_ras (d : Dev) (x : Raster) : (d.setRas x).ras = x := (rfl)
@[simp] theorem Dev.setRas_now (d : Dev) (x : Raster) : (d.setRas x).now = d.now := (rfl)
@[simp] theorem Dev.setRas_freeSeq (d : Dev) (x : Raster) : (d.setRas x).freeSeq = d.freeSeq := (rfl)
@[simp] theorem Dev.setRas_regs (d : Dev) (x : Raster) : (d.setRas x).regs = d.regs := (rfl)
@[simp] theorem Dev.setRas_bus (d : Dev) (x : Raster) : (d.setRas x).bus = d.bus := (rfl)
@[simp] theorem Dev.setRas_path (d : Dev) (x : Raster) : (d.setRas x).path = d.path := (rfl)
@[simp] theorem Dev.setRas_logic (d : Dev) (x : Raster) : (d.setRas x).logic = d.logic := (rfl)
@[simp] theorem Dev.setRas_stageNext (d : Dev) (x : Raster) : (d.setRas x).stageNext = d.stageNext := (rfl)
@[simp] theorem Dev.setRas_slice (d : Dev) (x : Raster) : (d.setRas x).slice = d.slice := (rfl)
@[simp] theorem Dev.setRas_tb (d : Dev) (x : Raster) : (d.setRas x).tb = d.tb := (rfl)
@[simp] theorem Dev.setRas_trg (d : Dev) (x : Raster) : (d.setRas x).trg = d.trg := (rfl)
@[simp] theorem Dev.setRas_lanes (d : Dev) (x : Raster) : (d.setRas x).lanes = d.lanes := (rfl)
@[simp] theorem Dev.setRas_dec (d : Dev) (x : Raster) : (d.setRas x).dec = d.dec := (rfl)
@[simp] theorem Dev.setRas_tal (d : Dev) (x : Raster) : (d.setRas x).tal = d.tal := (rfl)
@[simp] theorem Dev.setRas_evi (d : Dev) (x : Raster) : (d.setRas x).evi = d.evi := (rfl)
@[simp] theorem Dev.setRas_ndl (d : Dev) (x : Raster) : (d.setRas x).ndl = d.ndl := (rfl)
@[simp] theorem Dev.setRas_stm (d : Dev) (x : Raster) : (d.setRas x).stm = d.stm := (rfl)
@[simp] theorem Dev.setRas_ben (d : Dev) (x : Raster) : (d.setRas x).ben = d.ben := (rfl)
@[simp] theorem Dev.setRas_link (d : Dev) (x : Raster) : (d.setRas x).link = d.link := (rfl)
@[simp] theorem Dev.setRas_que (d : Dev) (x : Raster) : (d.setRas x).que = d.que := (rfl)
@[simp] theorem Dev.setRas_evr (d : Dev) (x : Raster) : (d.setRas x).evr = d.evr := (rfl)
@[simp] theorem Dev.setRas_xfe (d : Dev) (x : Raster) : (d.setRas x).xfe = d.xfe := (rfl)
@[simp] theorem Dev.setRas_eth (d : Dev) (x : Raster) : (d.setRas x).eth = d.eth := (rfl)
@[simp] theorem Dev.setRas_faKey (d : Dev) (x : Raster) : (d.setRas x).faKey = d.faKey := (rfl)
@[simp] theorem Dev.setRas_syn (d : Dev) (x : Raster) : (d.setRas x).syn = d.syn := (rfl)
@[simp] theorem Dev.setRas_pwr (d : Dev) (x : Raster) : (d.setRas x).pwr = d.pwr := (rfl)
@[simp] theorem Dev.setRas_sec (d : Dev) (x : Raster) : (d.setRas x).sec = d.sec := (rfl)
@[simp] theorem Dev.setRas_rd (d : Dev) (x : Raster) (r : Reg) : (d.setRas x).rd r = d.rd r :=
  Dev.rd_congr (Dev.setRas_regs d x) r
@[simp] theorem Dev.setRas_get (d : Dev) (x : Raster) (fl : Fld) (m₁ m₂ m₃ : Nat) : (d.setRas x).get fl m₁ m₂ m₃ = d.get fl m₁ m₂ m₃ :=
  Dev.get_congr (Dev.setRas_regs d x) fl m₁ m₂ m₃

@[simp] theorem Dev.setPwr_pwr (d : Dev) (x : Power) : (d.setPwr x).pwr = x := (rfl)
@[simp] theorem Dev.setPwr_now (d : Dev) (x : Power) : (d.setPwr x).now = d.now := (rfl)
@[simp] theorem Dev.setPwr_freeSeq (d : Dev) (x : Power) : (d.setPwr x).freeSeq = d.freeSeq := (rfl)
@[simp] theorem Dev.setPwr_regs (d : Dev) (x : Power) : (d.setPwr x).regs = d.regs := (rfl)
@[simp] theorem Dev.setPwr_bus (d : Dev) (x : Power) : (d.setPwr x).bus = d.bus := (rfl)
@[simp] theorem Dev.setPwr_path (d : Dev) (x : Power) : (d.setPwr x).path = d.path := (rfl)
@[simp] theorem Dev.setPwr_logic (d : Dev) (x : Power) : (d.setPwr x).logic = d.logic := (rfl)
@[simp] theorem Dev.setPwr_stageNext (d : Dev) (x : Power) : (d.setPwr x).stageNext = d.stageNext := (rfl)
@[simp] theorem Dev.setPwr_slice (d : Dev) (x : Power) : (d.setPwr x).slice = d.slice := (rfl)
@[simp] theorem Dev.setPwr_tb (d : Dev) (x : Power) : (d.setPwr x).tb = d.tb := (rfl)
@[simp] theorem Dev.setPwr_trg (d : Dev) (x : Power) : (d.setPwr x).trg = d.trg := (rfl)
@[simp] theorem Dev.setPwr_lanes (d : Dev) (x : Power) : (d.setPwr x).lanes = d.lanes := (rfl)
@[simp] theorem Dev.setPwr_dec (d : Dev) (x : Power) : (d.setPwr x).dec = d.dec := (rfl)
@[simp] theorem Dev.setPwr_tal (d : Dev) (x : Power) : (d.setPwr x).tal = d.tal := (rfl)
@[simp] theorem Dev.setPwr_evi (d : Dev) (x : Power) : (d.setPwr x).evi = d.evi := (rfl)
@[simp] theorem Dev.setPwr_ndl (d : Dev) (x : Power) : (d.setPwr x).ndl = d.ndl := (rfl)
@[simp] theorem Dev.setPwr_stm (d : Dev) (x : Power) : (d.setPwr x).stm = d.stm := (rfl)
@[simp] theorem Dev.setPwr_ben (d : Dev) (x : Power) : (d.setPwr x).ben = d.ben := (rfl)
@[simp] theorem Dev.setPwr_link (d : Dev) (x : Power) : (d.setPwr x).link = d.link := (rfl)
@[simp] theorem Dev.setPwr_que (d : Dev) (x : Power) : (d.setPwr x).que = d.que := (rfl)
@[simp] theorem Dev.setPwr_evr (d : Dev) (x : Power) : (d.setPwr x).evr = d.evr := (rfl)
@[simp] theorem Dev.setPwr_xfe (d : Dev) (x : Power) : (d.setPwr x).xfe = d.xfe := (rfl)
@[simp] theorem Dev.setPwr_eth (d : Dev) (x : Power) : (d.setPwr x).eth = d.eth := (rfl)
@[simp] theorem Dev.setPwr_faKey (d : Dev) (x : Power) : (d.setPwr x).faKey = d.faKey := (rfl)
@[simp] theorem Dev.setPwr_syn (d : Dev) (x : Power) : (d.setPwr x).syn = d.syn := (rfl)
@[simp] theorem Dev.setPwr_ras (d : Dev) (x : Power) : (d.setPwr x).ras = d.ras := (rfl)
@[simp] theorem Dev.setPwr_sec (d : Dev) (x : Power) : (d.setPwr x).sec = d.sec := (rfl)
@[simp] theorem Dev.setPwr_rd (d : Dev) (x : Power) (r : Reg) : (d.setPwr x).rd r = d.rd r :=
  Dev.rd_congr (Dev.setPwr_regs d x) r
@[simp] theorem Dev.setPwr_get (d : Dev) (x : Power) (fl : Fld) (m₁ m₂ m₃ : Nat) : (d.setPwr x).get fl m₁ m₂ m₃ = d.get fl m₁ m₂ m₃ :=
  Dev.get_congr (Dev.setPwr_regs d x) fl m₁ m₂ m₃

@[simp] theorem Dev.setSec_sec (d : Dev) (x : Security) : (d.setSec x).sec = x := (rfl)
@[simp] theorem Dev.setSec_now (d : Dev) (x : Security) : (d.setSec x).now = d.now := (rfl)
@[simp] theorem Dev.setSec_freeSeq (d : Dev) (x : Security) : (d.setSec x).freeSeq = d.freeSeq := (rfl)
@[simp] theorem Dev.setSec_regs (d : Dev) (x : Security) : (d.setSec x).regs = d.regs := (rfl)
@[simp] theorem Dev.setSec_bus (d : Dev) (x : Security) : (d.setSec x).bus = d.bus := (rfl)
@[simp] theorem Dev.setSec_path (d : Dev) (x : Security) : (d.setSec x).path = d.path := (rfl)
@[simp] theorem Dev.setSec_logic (d : Dev) (x : Security) : (d.setSec x).logic = d.logic := (rfl)
@[simp] theorem Dev.setSec_stageNext (d : Dev) (x : Security) : (d.setSec x).stageNext = d.stageNext := (rfl)
@[simp] theorem Dev.setSec_slice (d : Dev) (x : Security) : (d.setSec x).slice = d.slice := (rfl)
@[simp] theorem Dev.setSec_tb (d : Dev) (x : Security) : (d.setSec x).tb = d.tb := (rfl)
@[simp] theorem Dev.setSec_trg (d : Dev) (x : Security) : (d.setSec x).trg = d.trg := (rfl)
@[simp] theorem Dev.setSec_lanes (d : Dev) (x : Security) : (d.setSec x).lanes = d.lanes := (rfl)
@[simp] theorem Dev.setSec_dec (d : Dev) (x : Security) : (d.setSec x).dec = d.dec := (rfl)
@[simp] theorem Dev.setSec_tal (d : Dev) (x : Security) : (d.setSec x).tal = d.tal := (rfl)
@[simp] theorem Dev.setSec_evi (d : Dev) (x : Security) : (d.setSec x).evi = d.evi := (rfl)
@[simp] theorem Dev.setSec_ndl (d : Dev) (x : Security) : (d.setSec x).ndl = d.ndl := (rfl)
@[simp] theorem Dev.setSec_stm (d : Dev) (x : Security) : (d.setSec x).stm = d.stm := (rfl)
@[simp] theorem Dev.setSec_ben (d : Dev) (x : Security) : (d.setSec x).ben = d.ben := (rfl)
@[simp] theorem Dev.setSec_link (d : Dev) (x : Security) : (d.setSec x).link = d.link := (rfl)
@[simp] theorem Dev.setSec_que (d : Dev) (x : Security) : (d.setSec x).que = d.que := (rfl)
@[simp] theorem Dev.setSec_evr (d : Dev) (x : Security) : (d.setSec x).evr = d.evr := (rfl)
@[simp] theorem Dev.setSec_xfe (d : Dev) (x : Security) : (d.setSec x).xfe = d.xfe := (rfl)
@[simp] theorem Dev.setSec_eth (d : Dev) (x : Security) : (d.setSec x).eth = d.eth := (rfl)
@[simp] theorem Dev.setSec_faKey (d : Dev) (x : Security) : (d.setSec x).faKey = d.faKey := (rfl)
@[simp] theorem Dev.setSec_syn (d : Dev) (x : Security) : (d.setSec x).syn = d.syn := (rfl)
@[simp] theorem Dev.setSec_ras (d : Dev) (x : Security) : (d.setSec x).ras = d.ras := (rfl)
@[simp] theorem Dev.setSec_pwr (d : Dev) (x : Security) : (d.setSec x).pwr = d.pwr := (rfl)
@[simp] theorem Dev.setSec_rd (d : Dev) (x : Security) (r : Reg) : (d.setSec x).rd r = d.rd r :=
  Dev.rd_congr (Dev.setSec_regs d x) r
@[simp] theorem Dev.setSec_get (d : Dev) (x : Security) (fl : Fld) (m₁ m₂ m₃ : Nat) : (d.setSec x).get fl m₁ m₂ m₃ = d.get fl m₁ m₂ m₃ :=
  Dev.get_congr (Dev.setSec_regs d x) fl m₁ m₂ m₃

@[simp] theorem Dev.wr_now (d : Dev) (r : Reg) (v : W64) : (d.wr r v).now = d.now := (rfl)
@[simp] theorem Dev.wr_freeSeq (d : Dev) (r : Reg) (v : W64) : (d.wr r v).freeSeq = d.freeSeq := (rfl)
@[simp] theorem Dev.wr_bus (d : Dev) (r : Reg) (v : W64) : (d.wr r v).bus = d.bus := (rfl)
@[simp] theorem Dev.wr_path (d : Dev) (r : Reg) (v : W64) : (d.wr r v).path = d.path := (rfl)
@[simp] theorem Dev.wr_logic (d : Dev) (r : Reg) (v : W64) : (d.wr r v).logic = d.logic := (rfl)
@[simp] theorem Dev.wr_stageNext (d : Dev) (r : Reg) (v : W64) : (d.wr r v).stageNext = d.stageNext := (rfl)
@[simp] theorem Dev.wr_slice (d : Dev) (r : Reg) (v : W64) : (d.wr r v).slice = d.slice := (rfl)
@[simp] theorem Dev.wr_tb (d : Dev) (r : Reg) (v : W64) : (d.wr r v).tb = d.tb := (rfl)
@[simp] theorem Dev.wr_trg (d : Dev) (r : Reg) (v : W64) : (d.wr r v).trg = d.trg := (rfl)
@[simp] theorem Dev.wr_lanes (d : Dev) (r : Reg) (v : W64) : (d.wr r v).lanes = d.lanes := (rfl)
@[simp] theorem Dev.wr_dec (d : Dev) (r : Reg) (v : W64) : (d.wr r v).dec = d.dec := (rfl)
@[simp] theorem Dev.wr_tal (d : Dev) (r : Reg) (v : W64) : (d.wr r v).tal = d.tal := (rfl)
@[simp] theorem Dev.wr_evi (d : Dev) (r : Reg) (v : W64) : (d.wr r v).evi = d.evi := (rfl)
@[simp] theorem Dev.wr_ndl (d : Dev) (r : Reg) (v : W64) : (d.wr r v).ndl = d.ndl := (rfl)
@[simp] theorem Dev.wr_stm (d : Dev) (r : Reg) (v : W64) : (d.wr r v).stm = d.stm := (rfl)
@[simp] theorem Dev.wr_ben (d : Dev) (r : Reg) (v : W64) : (d.wr r v).ben = d.ben := (rfl)
@[simp] theorem Dev.wr_link (d : Dev) (r : Reg) (v : W64) : (d.wr r v).link = d.link := (rfl)
@[simp] theorem Dev.wr_que (d : Dev) (r : Reg) (v : W64) : (d.wr r v).que = d.que := (rfl)
@[simp] theorem Dev.wr_evr (d : Dev) (r : Reg) (v : W64) : (d.wr r v).evr = d.evr := (rfl)
@[simp] theorem Dev.wr_xfe (d : Dev) (r : Reg) (v : W64) : (d.wr r v).xfe = d.xfe := (rfl)
@[simp] theorem Dev.wr_eth (d : Dev) (r : Reg) (v : W64) : (d.wr r v).eth = d.eth := (rfl)
@[simp] theorem Dev.wr_faKey (d : Dev) (r : Reg) (v : W64) : (d.wr r v).faKey = d.faKey := (rfl)
@[simp] theorem Dev.wr_syn (d : Dev) (r : Reg) (v : W64) : (d.wr r v).syn = d.syn := (rfl)
@[simp] theorem Dev.wr_ras (d : Dev) (r : Reg) (v : W64) : (d.wr r v).ras = d.ras := (rfl)
@[simp] theorem Dev.wr_pwr (d : Dev) (r : Reg) (v : W64) : (d.wr r v).pwr = d.pwr := (rfl)
@[simp] theorem Dev.wr_sec (d : Dev) (r : Reg) (v : W64) : (d.wr r v).sec = d.sec := (rfl)

@[simp] theorem Dev.put_now (d : Dev) (f : Fld) (v i j k : Nat) : (d.put f v i j k).now = d.now := (rfl)
@[simp] theorem Dev.put_freeSeq (d : Dev) (f : Fld) (v i j k : Nat) : (d.put f v i j k).freeSeq = d.freeSeq := (rfl)
@[simp] theorem Dev.put_bus (d : Dev) (f : Fld) (v i j k : Nat) : (d.put f v i j k).bus = d.bus := (rfl)
@[simp] theorem Dev.put_path (d : Dev) (f : Fld) (v i j k : Nat) : (d.put f v i j k).path = d.path := (rfl)
@[simp] theorem Dev.put_logic (d : Dev) (f : Fld) (v i j k : Nat) : (d.put f v i j k).logic = d.logic := (rfl)
@[simp] theorem Dev.put_stageNext (d : Dev) (f : Fld) (v i j k : Nat) : (d.put f v i j k).stageNext = d.stageNext := (rfl)
@[simp] theorem Dev.put_slice (d : Dev) (f : Fld) (v i j k : Nat) : (d.put f v i j k).slice = d.slice := (rfl)
@[simp] theorem Dev.put_tb (d : Dev) (f : Fld) (v i j k : Nat) : (d.put f v i j k).tb = d.tb := (rfl)
@[simp] theorem Dev.put_trg (d : Dev) (f : Fld) (v i j k : Nat) : (d.put f v i j k).trg = d.trg := (rfl)
@[simp] theorem Dev.put_lanes (d : Dev) (f : Fld) (v i j k : Nat) : (d.put f v i j k).lanes = d.lanes := (rfl)
@[simp] theorem Dev.put_dec (d : Dev) (f : Fld) (v i j k : Nat) : (d.put f v i j k).dec = d.dec := (rfl)
@[simp] theorem Dev.put_tal (d : Dev) (f : Fld) (v i j k : Nat) : (d.put f v i j k).tal = d.tal := (rfl)
@[simp] theorem Dev.put_evi (d : Dev) (f : Fld) (v i j k : Nat) : (d.put f v i j k).evi = d.evi := (rfl)
@[simp] theorem Dev.put_ndl (d : Dev) (f : Fld) (v i j k : Nat) : (d.put f v i j k).ndl = d.ndl := (rfl)
@[simp] theorem Dev.put_stm (d : Dev) (f : Fld) (v i j k : Nat) : (d.put f v i j k).stm = d.stm := (rfl)
@[simp] theorem Dev.put_ben (d : Dev) (f : Fld) (v i j k : Nat) : (d.put f v i j k).ben = d.ben := (rfl)
@[simp] theorem Dev.put_link (d : Dev) (f : Fld) (v i j k : Nat) : (d.put f v i j k).link = d.link := (rfl)
@[simp] theorem Dev.put_que (d : Dev) (f : Fld) (v i j k : Nat) : (d.put f v i j k).que = d.que := (rfl)
@[simp] theorem Dev.put_evr (d : Dev) (f : Fld) (v i j k : Nat) : (d.put f v i j k).evr = d.evr := (rfl)
@[simp] theorem Dev.put_xfe (d : Dev) (f : Fld) (v i j k : Nat) : (d.put f v i j k).xfe = d.xfe := (rfl)
@[simp] theorem Dev.put_eth (d : Dev) (f : Fld) (v i j k : Nat) : (d.put f v i j k).eth = d.eth := (rfl)
@[simp] theorem Dev.put_faKey (d : Dev) (f : Fld) (v i j k : Nat) : (d.put f v i j k).faKey = d.faKey := (rfl)
@[simp] theorem Dev.put_syn (d : Dev) (f : Fld) (v i j k : Nat) : (d.put f v i j k).syn = d.syn := (rfl)
@[simp] theorem Dev.put_ras (d : Dev) (f : Fld) (v i j k : Nat) : (d.put f v i j k).ras = d.ras := (rfl)
@[simp] theorem Dev.put_pwr (d : Dev) (f : Fld) (v i j k : Nat) : (d.put f v i j k).pwr = d.pwr := (rfl)
@[simp] theorem Dev.put_sec (d : Dev) (f : Fld) (v i j k : Nat) : (d.put f v i j k).sec = d.sec := (rfl)

@[simp] theorem Dev.puts_now (d : Dev) (f : Fld) (v : Int) (i j k : Nat) : (d.puts f v i j k).now = d.now := (rfl)
@[simp] theorem Dev.puts_freeSeq (d : Dev) (f : Fld) (v : Int) (i j k : Nat) : (d.puts f v i j k).freeSeq = d.freeSeq := (rfl)
@[simp] theorem Dev.puts_bus (d : Dev) (f : Fld) (v : Int) (i j k : Nat) : (d.puts f v i j k).bus = d.bus := (rfl)
@[simp] theorem Dev.puts_path (d : Dev) (f : Fld) (v : Int) (i j k : Nat) : (d.puts f v i j k).path = d.path := (rfl)
@[simp] theorem Dev.puts_logic (d : Dev) (f : Fld) (v : Int) (i j k : Nat) : (d.puts f v i j k).logic = d.logic := (rfl)
@[simp] theorem Dev.puts_stageNext (d : Dev) (f : Fld) (v : Int) (i j k : Nat) : (d.puts f v i j k).stageNext = d.stageNext := (rfl)
@[simp] theorem Dev.puts_slice (d : Dev) (f : Fld) (v : Int) (i j k : Nat) : (d.puts f v i j k).slice = d.slice := (rfl)
@[simp] theorem Dev.puts_tb (d : Dev) (f : Fld) (v : Int) (i j k : Nat) : (d.puts f v i j k).tb = d.tb := (rfl)
@[simp] theorem Dev.puts_trg (d : Dev) (f : Fld) (v : Int) (i j k : Nat) : (d.puts f v i j k).trg = d.trg := (rfl)
@[simp] theorem Dev.puts_lanes (d : Dev) (f : Fld) (v : Int) (i j k : Nat) : (d.puts f v i j k).lanes = d.lanes := (rfl)
@[simp] theorem Dev.puts_dec (d : Dev) (f : Fld) (v : Int) (i j k : Nat) : (d.puts f v i j k).dec = d.dec := (rfl)
@[simp] theorem Dev.puts_tal (d : Dev) (f : Fld) (v : Int) (i j k : Nat) : (d.puts f v i j k).tal = d.tal := (rfl)
@[simp] theorem Dev.puts_evi (d : Dev) (f : Fld) (v : Int) (i j k : Nat) : (d.puts f v i j k).evi = d.evi := (rfl)
@[simp] theorem Dev.puts_ndl (d : Dev) (f : Fld) (v : Int) (i j k : Nat) : (d.puts f v i j k).ndl = d.ndl := (rfl)
@[simp] theorem Dev.puts_stm (d : Dev) (f : Fld) (v : Int) (i j k : Nat) : (d.puts f v i j k).stm = d.stm := (rfl)
@[simp] theorem Dev.puts_ben (d : Dev) (f : Fld) (v : Int) (i j k : Nat) : (d.puts f v i j k).ben = d.ben := (rfl)
@[simp] theorem Dev.puts_link (d : Dev) (f : Fld) (v : Int) (i j k : Nat) : (d.puts f v i j k).link = d.link := (rfl)
@[simp] theorem Dev.puts_que (d : Dev) (f : Fld) (v : Int) (i j k : Nat) : (d.puts f v i j k).que = d.que := (rfl)
@[simp] theorem Dev.puts_evr (d : Dev) (f : Fld) (v : Int) (i j k : Nat) : (d.puts f v i j k).evr = d.evr := (rfl)
@[simp] theorem Dev.puts_xfe (d : Dev) (f : Fld) (v : Int) (i j k : Nat) : (d.puts f v i j k).xfe = d.xfe := (rfl)
@[simp] theorem Dev.puts_eth (d : Dev) (f : Fld) (v : Int) (i j k : Nat) : (d.puts f v i j k).eth = d.eth := (rfl)
@[simp] theorem Dev.puts_faKey (d : Dev) (f : Fld) (v : Int) (i j k : Nat) : (d.puts f v i j k).faKey = d.faKey := (rfl)
@[simp] theorem Dev.puts_syn (d : Dev) (f : Fld) (v : Int) (i j k : Nat) : (d.puts f v i j k).syn = d.syn := (rfl)
@[simp] theorem Dev.puts_ras (d : Dev) (f : Fld) (v : Int) (i j k : Nat) : (d.puts f v i j k).ras = d.ras := (rfl)
@[simp] theorem Dev.puts_pwr (d : Dev) (f : Fld) (v : Int) (i j k : Nat) : (d.puts f v i j k).pwr = d.pwr := (rfl)
@[simp] theorem Dev.puts_sec (d : Dev) (f : Fld) (v : Int) (i j k : Nat) : (d.puts f v i j k).sec = d.sec := (rfl)

@[simp] theorem Dev.putb_now (d : Dev) (f : Fld) (v : Bool) (i j k : Nat) : (d.putb f v i j k).now = d.now := (rfl)
@[simp] theorem Dev.putb_freeSeq (d : Dev) (f : Fld) (v : Bool) (i j k : Nat) : (d.putb f v i j k).freeSeq = d.freeSeq := (rfl)
@[simp] theorem Dev.putb_bus (d : Dev) (f : Fld) (v : Bool) (i j k : Nat) : (d.putb f v i j k).bus = d.bus := (rfl)
@[simp] theorem Dev.putb_path (d : Dev) (f : Fld) (v : Bool) (i j k : Nat) : (d.putb f v i j k).path = d.path := (rfl)
@[simp] theorem Dev.putb_logic (d : Dev) (f : Fld) (v : Bool) (i j k : Nat) : (d.putb f v i j k).logic = d.logic := (rfl)
@[simp] theorem Dev.putb_stageNext (d : Dev) (f : Fld) (v : Bool) (i j k : Nat) : (d.putb f v i j k).stageNext = d.stageNext := (rfl)
@[simp] theorem Dev.putb_slice (d : Dev) (f : Fld) (v : Bool) (i j k : Nat) : (d.putb f v i j k).slice = d.slice := (rfl)
@[simp] theorem Dev.putb_tb (d : Dev) (f : Fld) (v : Bool) (i j k : Nat) : (d.putb f v i j k).tb = d.tb := (rfl)
@[simp] theorem Dev.putb_trg (d : Dev) (f : Fld) (v : Bool) (i j k : Nat) : (d.putb f v i j k).trg = d.trg := (rfl)
@[simp] theorem Dev.putb_lanes (d : Dev) (f : Fld) (v : Bool) (i j k : Nat) : (d.putb f v i j k).lanes = d.lanes := (rfl)
@[simp] theorem Dev.putb_dec (d : Dev) (f : Fld) (v : Bool) (i j k : Nat) : (d.putb f v i j k).dec = d.dec := (rfl)
@[simp] theorem Dev.putb_tal (d : Dev) (f : Fld) (v : Bool) (i j k : Nat) : (d.putb f v i j k).tal = d.tal := (rfl)
@[simp] theorem Dev.putb_evi (d : Dev) (f : Fld) (v : Bool) (i j k : Nat) : (d.putb f v i j k).evi = d.evi := (rfl)
@[simp] theorem Dev.putb_ndl (d : Dev) (f : Fld) (v : Bool) (i j k : Nat) : (d.putb f v i j k).ndl = d.ndl := (rfl)
@[simp] theorem Dev.putb_stm (d : Dev) (f : Fld) (v : Bool) (i j k : Nat) : (d.putb f v i j k).stm = d.stm := (rfl)
@[simp] theorem Dev.putb_ben (d : Dev) (f : Fld) (v : Bool) (i j k : Nat) : (d.putb f v i j k).ben = d.ben := (rfl)
@[simp] theorem Dev.putb_link (d : Dev) (f : Fld) (v : Bool) (i j k : Nat) : (d.putb f v i j k).link = d.link := (rfl)
@[simp] theorem Dev.putb_que (d : Dev) (f : Fld) (v : Bool) (i j k : Nat) : (d.putb f v i j k).que = d.que := (rfl)
@[simp] theorem Dev.putb_evr (d : Dev) (f : Fld) (v : Bool) (i j k : Nat) : (d.putb f v i j k).evr = d.evr := (rfl)
@[simp] theorem Dev.putb_xfe (d : Dev) (f : Fld) (v : Bool) (i j k : Nat) : (d.putb f v i j k).xfe = d.xfe := (rfl)
@[simp] theorem Dev.putb_eth (d : Dev) (f : Fld) (v : Bool) (i j k : Nat) : (d.putb f v i j k).eth = d.eth := (rfl)
@[simp] theorem Dev.putb_faKey (d : Dev) (f : Fld) (v : Bool) (i j k : Nat) : (d.putb f v i j k).faKey = d.faKey := (rfl)
@[simp] theorem Dev.putb_syn (d : Dev) (f : Fld) (v : Bool) (i j k : Nat) : (d.putb f v i j k).syn = d.syn := (rfl)
@[simp] theorem Dev.putb_ras (d : Dev) (f : Fld) (v : Bool) (i j k : Nat) : (d.putb f v i j k).ras = d.ras := (rfl)
@[simp] theorem Dev.putb_pwr (d : Dev) (f : Fld) (v : Bool) (i j k : Nat) : (d.putb f v i j k).pwr = d.pwr := (rfl)
@[simp] theorem Dev.putb_sec (d : Dev) (f : Fld) (v : Bool) (i j k : Nat) : (d.putb f v i j k).sec = d.sec := (rfl)

@[simp] theorem Dev.bump_now (d : Dev) (f : Fld) (i j : Nat) : (d.bump f i j).now = d.now := (rfl)
@[simp] theorem Dev.bump_freeSeq (d : Dev) (f : Fld) (i j : Nat) : (d.bump f i j).freeSeq = d.freeSeq := (rfl)
@[simp] theorem Dev.bump_bus (d : Dev) (f : Fld) (i j : Nat) : (d.bump f i j).bus = d.bus := (rfl)
@[simp] theorem Dev.bump_path (d : Dev) (f : Fld) (i j : Nat) : (d.bump f i j).path = d.path := (rfl)
@[simp] theorem Dev.bump_logic (d : Dev) (f : Fld) (i j : Nat) : (d.bump f i j).logic = d.logic := (rfl)
@[simp] theorem Dev.bump_stageNext (d : Dev) (f : Fld) (i j : Nat) : (d.bump f i j).stageNext = d.stageNext := (rfl)
@[simp] theorem Dev.bump_slice (d : Dev) (f : Fld) (i j : Nat) : (d.bump f i j).slice = d.slice := (rfl)
@[simp] theorem Dev.bump_tb (d : Dev) (f : Fld) (i j : Nat) : (d.bump f i j).tb = d.tb := (rfl)
@[simp] theorem Dev.bump_trg (d : Dev) (f : Fld) (i j : Nat) : (d.bump f i j).trg = d.trg := (rfl)
@[simp] theorem Dev.bump_lanes (d : Dev) (f : Fld) (i j : Nat) : (d.bump f i j).lanes = d.lanes := (rfl)
@[simp] theorem Dev.bump_dec (d : Dev) (f : Fld) (i j : Nat) : (d.bump f i j).dec = d.dec := (rfl)
@[simp] theorem Dev.bump_tal (d : Dev) (f : Fld) (i j : Nat) : (d.bump f i j).tal = d.tal := (rfl)
@[simp] theorem Dev.bump_evi (d : Dev) (f : Fld) (i j : Nat) : (d.bump f i j).evi = d.evi := (rfl)
@[simp] theorem Dev.bump_ndl (d : Dev) (f : Fld) (i j : Nat) : (d.bump f i j).ndl = d.ndl := (rfl)
@[simp] theorem Dev.bump_stm (d : Dev) (f : Fld) (i j : Nat) : (d.bump f i j).stm = d.stm := (rfl)
@[simp] theorem Dev.bump_ben (d : Dev) (f : Fld) (i j : Nat) : (d.bump f i j).ben = d.ben := (rfl)
@[simp] theorem Dev.bump_link (d : Dev) (f : Fld) (i j : Nat) : (d.bump f i j).link = d.link := (rfl)
@[simp] theorem Dev.bump_que (d : Dev) (f : Fld) (i j : Nat) : (d.bump f i j).que = d.que := (rfl)
@[simp] theorem Dev.bump_evr (d : Dev) (f : Fld) (i j : Nat) : (d.bump f i j).evr = d.evr := (rfl)
@[simp] theorem Dev.bump_xfe (d : Dev) (f : Fld) (i j : Nat) : (d.bump f i j).xfe = d.xfe := (rfl)
@[simp] theorem Dev.bump_eth (d : Dev) (f : Fld) (i j : Nat) : (d.bump f i j).eth = d.eth := (rfl)
@[simp] theorem Dev.bump_faKey (d : Dev) (f : Fld) (i j : Nat) : (d.bump f i j).faKey = d.faKey := (rfl)
@[simp] theorem Dev.bump_syn (d : Dev) (f : Fld) (i j : Nat) : (d.bump f i j).syn = d.syn := (rfl)
@[simp] theorem Dev.bump_ras (d : Dev) (f : Fld) (i j : Nat) : (d.bump f i j).ras = d.ras := (rfl)
@[simp] theorem Dev.bump_pwr (d : Dev) (f : Fld) (i j : Nat) : (d.bump f i j).pwr = d.pwr := (rfl)
@[simp] theorem Dev.bump_sec (d : Dev) (f : Fld) (i j : Nat) : (d.bump f i j).sec = d.sec := (rfl)

@[simp] theorem Dev.drawn_now (d : Dev) : d.drawn.now = d.now := (rfl)
@[simp] theorem Dev.drawn_regs (d : Dev) : d.drawn.regs = d.regs := (rfl)
@[simp] theorem Dev.drawn_bus (d : Dev) : d.drawn.bus = d.bus := (rfl)
@[simp] theorem Dev.drawn_path (d : Dev) : d.drawn.path = d.path := (rfl)
@[simp] theorem Dev.drawn_logic (d : Dev) : d.drawn.logic = d.logic := (rfl)
@[simp] theorem Dev.drawn_stageNext (d : Dev) : d.drawn.stageNext = d.stageNext := (rfl)
@[simp] theorem Dev.drawn_slice (d : Dev) : d.drawn.slice = d.slice := (rfl)
@[simp] theorem Dev.drawn_tb (d : Dev) : d.drawn.tb = d.tb := (rfl)
@[simp] theorem Dev.drawn_trg (d : Dev) : d.drawn.trg = d.trg := (rfl)
@[simp] theorem Dev.drawn_lanes (d : Dev) : d.drawn.lanes = d.lanes := (rfl)
@[simp] theorem Dev.drawn_dec (d : Dev) : d.drawn.dec = d.dec := (rfl)
@[simp] theorem Dev.drawn_tal (d : Dev) : d.drawn.tal = d.tal := (rfl)
@[simp] theorem Dev.drawn_evi (d : Dev) : d.drawn.evi = d.evi := (rfl)
@[simp] theorem Dev.drawn_ndl (d : Dev) : d.drawn.ndl = d.ndl := (rfl)
@[simp] theorem Dev.drawn_stm (d : Dev) : d.drawn.stm = d.stm := (rfl)
@[simp] theorem Dev.drawn_ben (d : Dev) : d.drawn.ben = d.ben := (rfl)
@[simp] theorem Dev.drawn_link (d : Dev) : d.drawn.link = d.link := (rfl)
@[simp] theorem Dev.drawn_que (d : Dev) : d.drawn.que = d.que := (rfl)
@[simp] theorem Dev.drawn_evr (d : Dev) : d.drawn.evr = d.evr := (rfl)
@[simp] theorem Dev.drawn_xfe (d : Dev) : d.drawn.xfe = d.xfe := (rfl)
@[simp] theorem Dev.drawn_eth (d : Dev) : d.drawn.eth = d.eth := (rfl)
@[simp] theorem Dev.drawn_faKey (d : Dev) : d.drawn.faKey = d.faKey := (rfl)
@[simp] theorem Dev.drawn_syn (d : Dev) : d.drawn.syn = d.syn := (rfl)
@[simp] theorem Dev.drawn_ras (d : Dev) : d.drawn.ras = d.ras := (rfl)
@[simp] theorem Dev.drawn_pwr (d : Dev) : d.drawn.pwr = d.pwr := (rfl)
@[simp] theorem Dev.drawn_sec (d : Dev) : d.drawn.sec = d.sec := (rfl)
@[simp] theorem Dev.drawn_rd (d : Dev) (r : Reg) : d.drawn.rd r = d.rd r :=
  Dev.rd_congr (Dev.drawn_regs d) r
@[simp] theorem Dev.drawn_get (d : Dev) (fl : Fld) (m₁ m₂ m₃ : Nat) : d.drawn.get fl m₁ m₂ m₃ = d.get fl m₁ m₂ m₃ :=
  Dev.get_congr (Dev.drawn_regs d) fl m₁ m₂ m₃

@[simp] theorem Dev.putFree_now (d : Dev) (f : Fld) (i j k : Nat) : (d.putFree f i j k).now = d.now := (rfl)
@[simp] theorem Dev.putFree_bus (d : Dev) (f : Fld) (i j k : Nat) : (d.putFree f i j k).bus = d.bus := (rfl)
@[simp] theorem Dev.putFree_path (d : Dev) (f : Fld) (i j k : Nat) : (d.putFree f i j k).path = d.path := (rfl)
@[simp] theorem Dev.putFree_logic (d : Dev) (f : Fld) (i j k : Nat) : (d.putFree f i j k).logic = d.logic := (rfl)
@[simp] theorem Dev.putFree_stageNext (d : Dev) (f : Fld) (i j k : Nat) : (d.putFree f i j k).stageNext = d.stageNext := (rfl)
@[simp] theorem Dev.putFree_slice (d : Dev) (f : Fld) (i j k : Nat) : (d.putFree f i j k).slice = d.slice := (rfl)
@[simp] theorem Dev.putFree_tb (d : Dev) (f : Fld) (i j k : Nat) : (d.putFree f i j k).tb = d.tb := (rfl)
@[simp] theorem Dev.putFree_trg (d : Dev) (f : Fld) (i j k : Nat) : (d.putFree f i j k).trg = d.trg := (rfl)
@[simp] theorem Dev.putFree_lanes (d : Dev) (f : Fld) (i j k : Nat) : (d.putFree f i j k).lanes = d.lanes := (rfl)
@[simp] theorem Dev.putFree_dec (d : Dev) (f : Fld) (i j k : Nat) : (d.putFree f i j k).dec = d.dec := (rfl)
@[simp] theorem Dev.putFree_tal (d : Dev) (f : Fld) (i j k : Nat) : (d.putFree f i j k).tal = d.tal := (rfl)
@[simp] theorem Dev.putFree_evi (d : Dev) (f : Fld) (i j k : Nat) : (d.putFree f i j k).evi = d.evi := (rfl)
@[simp] theorem Dev.putFree_ndl (d : Dev) (f : Fld) (i j k : Nat) : (d.putFree f i j k).ndl = d.ndl := (rfl)
@[simp] theorem Dev.putFree_stm (d : Dev) (f : Fld) (i j k : Nat) : (d.putFree f i j k).stm = d.stm := (rfl)
@[simp] theorem Dev.putFree_ben (d : Dev) (f : Fld) (i j k : Nat) : (d.putFree f i j k).ben = d.ben := (rfl)
@[simp] theorem Dev.putFree_link (d : Dev) (f : Fld) (i j k : Nat) : (d.putFree f i j k).link = d.link := (rfl)
@[simp] theorem Dev.putFree_que (d : Dev) (f : Fld) (i j k : Nat) : (d.putFree f i j k).que = d.que := (rfl)
@[simp] theorem Dev.putFree_evr (d : Dev) (f : Fld) (i j k : Nat) : (d.putFree f i j k).evr = d.evr := (rfl)
@[simp] theorem Dev.putFree_xfe (d : Dev) (f : Fld) (i j k : Nat) : (d.putFree f i j k).xfe = d.xfe := (rfl)
@[simp] theorem Dev.putFree_eth (d : Dev) (f : Fld) (i j k : Nat) : (d.putFree f i j k).eth = d.eth := (rfl)
@[simp] theorem Dev.putFree_faKey (d : Dev) (f : Fld) (i j k : Nat) : (d.putFree f i j k).faKey = d.faKey := (rfl)
@[simp] theorem Dev.putFree_syn (d : Dev) (f : Fld) (i j k : Nat) : (d.putFree f i j k).syn = d.syn := (rfl)
@[simp] theorem Dev.putFree_ras (d : Dev) (f : Fld) (i j k : Nat) : (d.putFree f i j k).ras = d.ras := (rfl)
@[simp] theorem Dev.putFree_pwr (d : Dev) (f : Fld) (i j k : Nat) : (d.putFree f i j k).pwr = d.pwr := (rfl)
@[simp] theorem Dev.putFree_sec (d : Dev) (f : Fld) (i j k : Nat) : (d.putFree f i j k).sec = d.sec := (rfl)

@[simp] theorem Dev.post_now (d : Dev) (q typ fmt rank : Nat) (b : List Byte) : (d.post q typ fmt rank b).now = d.now := (rfl)
@[simp] theorem Dev.post_freeSeq (d : Dev) (q typ fmt rank : Nat) (b : List Byte) : (d.post q typ fmt rank b).freeSeq = d.freeSeq := (rfl)
@[simp] theorem Dev.post_regs (d : Dev) (q typ fmt rank : Nat) (b : List Byte) : (d.post q typ fmt rank b).regs = d.regs := (rfl)
@[simp] theorem Dev.post_bus (d : Dev) (q typ fmt rank : Nat) (b : List Byte) : (d.post q typ fmt rank b).bus = d.bus := (rfl)
@[simp] theorem Dev.post_path (d : Dev) (q typ fmt rank : Nat) (b : List Byte) : (d.post q typ fmt rank b).path = d.path := (rfl)
@[simp] theorem Dev.post_logic (d : Dev) (q typ fmt rank : Nat) (b : List Byte) : (d.post q typ fmt rank b).logic = d.logic := (rfl)
@[simp] theorem Dev.post_stageNext (d : Dev) (q typ fmt rank : Nat) (b : List Byte) : (d.post q typ fmt rank b).stageNext = d.stageNext := (rfl)
@[simp] theorem Dev.post_slice (d : Dev) (q typ fmt rank : Nat) (b : List Byte) : (d.post q typ fmt rank b).slice = d.slice := (rfl)
@[simp] theorem Dev.post_tb (d : Dev) (q typ fmt rank : Nat) (b : List Byte) : (d.post q typ fmt rank b).tb = d.tb := (rfl)
@[simp] theorem Dev.post_trg (d : Dev) (q typ fmt rank : Nat) (b : List Byte) : (d.post q typ fmt rank b).trg = d.trg := (rfl)
@[simp] theorem Dev.post_lanes (d : Dev) (q typ fmt rank : Nat) (b : List Byte) : (d.post q typ fmt rank b).lanes = d.lanes := (rfl)
@[simp] theorem Dev.post_dec (d : Dev) (q typ fmt rank : Nat) (b : List Byte) : (d.post q typ fmt rank b).dec = d.dec := (rfl)
@[simp] theorem Dev.post_tal (d : Dev) (q typ fmt rank : Nat) (b : List Byte) : (d.post q typ fmt rank b).tal = d.tal := (rfl)
@[simp] theorem Dev.post_evi (d : Dev) (q typ fmt rank : Nat) (b : List Byte) : (d.post q typ fmt rank b).evi = d.evi := (rfl)
@[simp] theorem Dev.post_ndl (d : Dev) (q typ fmt rank : Nat) (b : List Byte) : (d.post q typ fmt rank b).ndl = d.ndl := (rfl)
@[simp] theorem Dev.post_stm (d : Dev) (q typ fmt rank : Nat) (b : List Byte) : (d.post q typ fmt rank b).stm = d.stm := (rfl)
@[simp] theorem Dev.post_ben (d : Dev) (q typ fmt rank : Nat) (b : List Byte) : (d.post q typ fmt rank b).ben = d.ben := (rfl)
@[simp] theorem Dev.post_link (d : Dev) (q typ fmt rank : Nat) (b : List Byte) : (d.post q typ fmt rank b).link = d.link := (rfl)
@[simp] theorem Dev.post_evr (d : Dev) (q typ fmt rank : Nat) (b : List Byte) : (d.post q typ fmt rank b).evr = d.evr := (rfl)
@[simp] theorem Dev.post_xfe (d : Dev) (q typ fmt rank : Nat) (b : List Byte) : (d.post q typ fmt rank b).xfe = d.xfe := (rfl)
@[simp] theorem Dev.post_eth (d : Dev) (q typ fmt rank : Nat) (b : List Byte) : (d.post q typ fmt rank b).eth = d.eth := (rfl)
@[simp] theorem Dev.post_faKey (d : Dev) (q typ fmt rank : Nat) (b : List Byte) : (d.post q typ fmt rank b).faKey = d.faKey := (rfl)
@[simp] theorem Dev.post_syn (d : Dev) (q typ fmt rank : Nat) (b : List Byte) : (d.post q typ fmt rank b).syn = d.syn := (rfl)
@[simp] theorem Dev.post_ras (d : Dev) (q typ fmt rank : Nat) (b : List Byte) : (d.post q typ fmt rank b).ras = d.ras := (rfl)
@[simp] theorem Dev.post_pwr (d : Dev) (q typ fmt rank : Nat) (b : List Byte) : (d.post q typ fmt rank b).pwr = d.pwr := (rfl)
@[simp] theorem Dev.post_sec (d : Dev) (q typ fmt rank : Nat) (b : List Byte) : (d.post q typ fmt rank b).sec = d.sec := (rfl)
@[simp] theorem Dev.post_rd (d : Dev) (q typ fmt rank : Nat) (b : List Byte) (r : Reg) : (d.post q typ fmt rank b).rd r = d.rd r :=
  Dev.rd_congr (Dev.post_regs d q typ fmt rank b) r
@[simp] theorem Dev.post_get (d : Dev) (q typ fmt rank : Nat) (b : List Byte) (fl : Fld) (m₁ m₂ m₃ : Nat) : (d.post q typ fmt rank b).get fl m₁ m₂ m₃ = d.get fl m₁ m₂ m₃ :=
  Dev.get_congr (Dev.post_regs d q typ fmt rank b) fl m₁ m₂ m₃

@[simp] theorem Dev.newEpoch_now (d : Dev) (f : Epoch → Epoch) : (d.newEpoch f).now = d.now := (rfl)
@[simp] theorem Dev.newEpoch_freeSeq (d : Dev) (f : Epoch → Epoch) : (d.newEpoch f).freeSeq = d.freeSeq := (rfl)
@[simp] theorem Dev.newEpoch_regs (d : Dev) (f : Epoch → Epoch) : (d.newEpoch f).regs = d.regs := (rfl)
@[simp] theorem Dev.newEpoch_bus (d : Dev) (f : Epoch → Epoch) : (d.newEpoch f).bus = d.bus := (rfl)
@[simp] theorem Dev.newEpoch_path (d : Dev) (f : Epoch → Epoch) : (d.newEpoch f).path = d.path := (rfl)
@[simp] theorem Dev.newEpoch_logic (d : Dev) (f : Epoch → Epoch) : (d.newEpoch f).logic = d.logic := (rfl)
@[simp] theorem Dev.newEpoch_stageNext (d : Dev) (f : Epoch → Epoch) : (d.newEpoch f).stageNext = d.stageNext := (rfl)
@[simp] theorem Dev.newEpoch_slice (d : Dev) (f : Epoch → Epoch) : (d.newEpoch f).slice = d.slice := (rfl)
@[simp] theorem Dev.newEpoch_trg (d : Dev) (f : Epoch → Epoch) : (d.newEpoch f).trg = d.trg := (rfl)
@[simp] theorem Dev.newEpoch_lanes (d : Dev) (f : Epoch → Epoch) : (d.newEpoch f).lanes = d.lanes := (rfl)
@[simp] theorem Dev.newEpoch_dec (d : Dev) (f : Epoch → Epoch) : (d.newEpoch f).dec = d.dec := (rfl)
@[simp] theorem Dev.newEpoch_tal (d : Dev) (f : Epoch → Epoch) : (d.newEpoch f).tal = d.tal := (rfl)
@[simp] theorem Dev.newEpoch_evi (d : Dev) (f : Epoch → Epoch) : (d.newEpoch f).evi = d.evi := (rfl)
@[simp] theorem Dev.newEpoch_ndl (d : Dev) (f : Epoch → Epoch) : (d.newEpoch f).ndl = d.ndl := (rfl)
@[simp] theorem Dev.newEpoch_stm (d : Dev) (f : Epoch → Epoch) : (d.newEpoch f).stm = d.stm := (rfl)
@[simp] theorem Dev.newEpoch_ben (d : Dev) (f : Epoch → Epoch) : (d.newEpoch f).ben = d.ben := (rfl)
@[simp] theorem Dev.newEpoch_link (d : Dev) (f : Epoch → Epoch) : (d.newEpoch f).link = d.link := (rfl)
@[simp] theorem Dev.newEpoch_que (d : Dev) (f : Epoch → Epoch) : (d.newEpoch f).que = d.que := (rfl)
@[simp] theorem Dev.newEpoch_evr (d : Dev) (f : Epoch → Epoch) : (d.newEpoch f).evr = d.evr := (rfl)
@[simp] theorem Dev.newEpoch_xfe (d : Dev) (f : Epoch → Epoch) : (d.newEpoch f).xfe = d.xfe := (rfl)
@[simp] theorem Dev.newEpoch_eth (d : Dev) (f : Epoch → Epoch) : (d.newEpoch f).eth = d.eth := (rfl)
@[simp] theorem Dev.newEpoch_faKey (d : Dev) (f : Epoch → Epoch) : (d.newEpoch f).faKey = d.faKey := (rfl)
@[simp] theorem Dev.newEpoch_syn (d : Dev) (f : Epoch → Epoch) : (d.newEpoch f).syn = d.syn := (rfl)
@[simp] theorem Dev.newEpoch_ras (d : Dev) (f : Epoch → Epoch) : (d.newEpoch f).ras = d.ras := (rfl)
@[simp] theorem Dev.newEpoch_pwr (d : Dev) (f : Epoch → Epoch) : (d.newEpoch f).pwr = d.pwr := (rfl)
@[simp] theorem Dev.newEpoch_sec (d : Dev) (f : Epoch → Epoch) : (d.newEpoch f).sec = d.sec := (rfl)
@[simp] theorem Dev.newEpoch_rd (d : Dev) (f : Epoch → Epoch) (r : Reg) : (d.newEpoch f).rd r = d.rd r :=
  Dev.rd_congr (Dev.newEpoch_regs d f) r
@[simp] theorem Dev.newEpoch_get (d : Dev) (f : Epoch → Epoch) (fl : Fld) (m₁ m₂ m₃ : Nat) : (d.newEpoch f).get fl m₁ m₂ m₃ = d.get fl m₁ m₂ m₃ :=
  Dev.get_congr (Dev.newEpoch_regs d f) fl m₁ m₂ m₃

/-- All that `Dev.count` can change. -/
theorem Dev.count_shape (d : Dev) (f : Fld) (i j n : Nat) :
    (d.count f i j n) = { d with regs := (d.count f i j n).regs } := by
  rw [Dev.count]
  simp only
  split <;> rfl

@[simp] theorem Dev.count_now (d : Dev) (f : Fld) (i j n : Nat) : (d.count f i j n).now = d.now := by
  rw [Dev.count_shape]
@[simp] theorem Dev.count_freeSeq (d : Dev) (f : Fld) (i j n : Nat) : (d.count f i j n).freeSeq = d.freeSeq := by
  rw [Dev.count_shape]
@[simp] theorem Dev.count_bus (d : Dev) (f : Fld) (i j n : Nat) : (d.count f i j n).bus = d.bus := by
  rw [Dev.count_shape]
@[simp] theorem Dev.count_path (d : Dev) (f : Fld) (i j n : Nat) : (d.count f i j n).path = d.path := by
  rw [Dev.count_shape]
@[simp] theorem Dev.count_logic (d : Dev) (f : Fld) (i j n : Nat) : (d.count f i j n).logic = d.logic := by
  rw [Dev.count_shape]
@[simp] theorem Dev.count_stageNext (d : Dev) (f : Fld) (i j n : Nat) : (d.count f i j n).stageNext = d.stageNext := by
  rw [Dev.count_shape]
@[simp] theorem Dev.count_slice (d : Dev) (f : Fld) (i j n : Nat) : (d.count f i j n).slice = d.slice := by
  rw [Dev.count_shape]
@[simp] theorem Dev.count_tb (d : Dev) (f : Fld) (i j n : Nat) : (d.count f i j n).tb = d.tb := by
  rw [Dev.count_shape]
@[simp] theorem Dev.count_trg (d : Dev) (f : Fld) (i j n : Nat) : (d.count f i j n).trg = d.trg := by
  rw [Dev.count_shape]
@[simp] theorem Dev.count_lanes (d : Dev) (f : Fld) (i j n : Nat) : (d.count f i j n).lanes = d.lanes := by
  rw [Dev.count_shape]
@[simp] theorem Dev.count_dec (d : Dev) (f : Fld) (i j n : Nat) : (d.count f i j n).dec = d.dec := by
  rw [Dev.count_shape]
@[simp] theorem Dev.count_tal (d : Dev) (f : Fld) (i j n : Nat) : (d.count f i j n).tal = d.tal := by
  rw [Dev.count_shape]
@[simp] theorem Dev.count_evi (d : Dev) (f : Fld) (i j n : Nat) : (d.count f i j n).evi = d.evi := by
  rw [Dev.count_shape]
@[simp] theorem Dev.count_ndl (d : Dev) (f : Fld) (i j n : Nat) : (d.count f i j n).ndl = d.ndl := by
  rw [Dev.count_shape]
@[simp] theorem Dev.count_stm (d : Dev) (f : Fld) (i j n : Nat) : (d.count f i j n).stm = d.stm := by
  rw [Dev.count_shape]
@[simp] theorem Dev.count_ben (d : Dev) (f : Fld) (i j n : Nat) : (d.count f i j n).ben = d.ben := by
  rw [Dev.count_shape]
@[simp] theorem Dev.count_link (d : Dev) (f : Fld) (i j n : Nat) : (d.count f i j n).link = d.link := by
  rw [Dev.count_shape]
@[simp] theorem Dev.count_que (d : Dev) (f : Fld) (i j n : Nat) : (d.count f i j n).que = d.que := by
  rw [Dev.count_shape]
@[simp] theorem Dev.count_evr (d : Dev) (f : Fld) (i j n : Nat) : (d.count f i j n).evr = d.evr := by
  rw [Dev.count_shape]
@[simp] theorem Dev.count_xfe (d : Dev) (f : Fld) (i j n : Nat) : (d.count f i j n).xfe = d.xfe := by
  rw [Dev.count_shape]
@[simp] theorem Dev.count_eth (d : Dev) (f : Fld) (i j n : Nat) : (d.count f i j n).eth = d.eth := by
  rw [Dev.count_shape]
@[simp] theorem Dev.count_faKey (d : Dev) (f : Fld) (i j n : Nat) : (d.count f i j n).faKey = d.faKey := by
  rw [Dev.count_shape]
@[simp] theorem Dev.count_syn (d : Dev) (f : Fld) (i j n : Nat) : (d.count f i j n).syn = d.syn := by
  rw [Dev.count_shape]
@[simp] theorem Dev.count_ras (d : Dev) (f : Fld) (i j n : Nat) : (d.count f i j n).ras = d.ras := by
  rw [Dev.count_shape]
@[simp] theorem Dev.count_pwr (d : Dev) (f : Fld) (i j n : Nat) : (d.count f i j n).pwr = d.pwr := by
  rw [Dev.count_shape]
@[simp] theorem Dev.count_sec (d : Dev) (f : Fld) (i j n : Nat) : (d.count f i j n).sec = d.sec := by
  rw [Dev.count_shape]

/-- All that `Dev.putBit` can change. -/
theorem Dev.putBit_shape (d : Dev) (f : Fld) (c : Nat) (b : Bool) :
    (d.putBit f c b) = { d with regs := (d.putBit f c b).regs } := by
  rw [Dev.putBit]
  split <;> rfl

@[simp] theorem Dev.putBit_now (d : Dev) (f : Fld) (c : Nat) (b : Bool) : (d.putBit f c b).now = d.now := by
  rw [Dev.putBit_shape]
@[simp] theorem Dev.putBit_freeSeq (d : Dev) (f : Fld) (c : Nat) (b : Bool) : (d.putBit f c b).freeSeq = d.freeSeq := by
  rw [Dev.putBit_shape]
@[simp] theorem Dev.putBit_bus (d : Dev) (f : Fld) (c : Nat) (b : Bool) : (d.putBit f c b).bus = d.bus := by
  rw [Dev.putBit_shape]
@[simp] theorem Dev.putBit_path (d : Dev) (f : Fld) (c : Nat) (b : Bool) : (d.putBit f c b).path = d.path := by
  rw [Dev.putBit_shape]
@[simp] theorem Dev.putBit_logic (d : Dev) (f : Fld) (c : Nat) (b : Bool) : (d.putBit f c b).logic = d.logic := by
  rw [Dev.putBit_shape]
@[simp] theorem Dev.putBit_stageNext (d : Dev) (f : Fld) (c : Nat) (b : Bool) : (d.putBit f c b).stageNext = d.stageNext := by
  rw [Dev.putBit_shape]
@[simp] theorem Dev.putBit_slice (d : Dev) (f : Fld) (c : Nat) (b : Bool) : (d.putBit f c b).slice = d.slice := by
  rw [Dev.putBit_shape]
@[simp] theorem Dev.putBit_tb (d : Dev) (f : Fld) (c : Nat) (b : Bool) : (d.putBit f c b).tb = d.tb := by
  rw [Dev.putBit_shape]
@[simp] theorem Dev.putBit_trg (d : Dev) (f : Fld) (c : Nat) (b : Bool) : (d.putBit f c b).trg = d.trg := by
  rw [Dev.putBit_shape]
@[simp] theorem Dev.putBit_lanes (d : Dev) (f : Fld) (c : Nat) (b : Bool) : (d.putBit f c b).lanes = d.lanes := by
  rw [Dev.putBit_shape]
@[simp] theorem Dev.putBit_dec (d : Dev) (f : Fld) (c : Nat) (b : Bool) : (d.putBit f c b).dec = d.dec := by
  rw [Dev.putBit_shape]
@[simp] theorem Dev.putBit_tal (d : Dev) (f : Fld) (c : Nat) (b : Bool) : (d.putBit f c b).tal = d.tal := by
  rw [Dev.putBit_shape]
@[simp] theorem Dev.putBit_evi (d : Dev) (f : Fld) (c : Nat) (b : Bool) : (d.putBit f c b).evi = d.evi := by
  rw [Dev.putBit_shape]
@[simp] theorem Dev.putBit_ndl (d : Dev) (f : Fld) (c : Nat) (b : Bool) : (d.putBit f c b).ndl = d.ndl := by
  rw [Dev.putBit_shape]
@[simp] theorem Dev.putBit_stm (d : Dev) (f : Fld) (c : Nat) (b : Bool) : (d.putBit f c b).stm = d.stm := by
  rw [Dev.putBit_shape]
@[simp] theorem Dev.putBit_ben (d : Dev) (f : Fld) (c : Nat) (b : Bool) : (d.putBit f c b).ben = d.ben := by
  rw [Dev.putBit_shape]
@[simp] theorem Dev.putBit_link (d : Dev) (f : Fld) (c : Nat) (b : Bool) : (d.putBit f c b).link = d.link := by
  rw [Dev.putBit_shape]
@[simp] theorem Dev.putBit_que (d : Dev) (f : Fld) (c : Nat) (b : Bool) : (d.putBit f c b).que = d.que := by
  rw [Dev.putBit_shape]
@[simp] theorem Dev.putBit_evr (d : Dev) (f : Fld) (c : Nat) (b : Bool) : (d.putBit f c b).evr = d.evr := by
  rw [Dev.putBit_shape]
@[simp] theorem Dev.putBit_xfe (d : Dev) (f : Fld) (c : Nat) (b : Bool) : (d.putBit f c b).xfe = d.xfe := by
  rw [Dev.putBit_shape]
@[simp] theorem Dev.putBit_eth (d : Dev) (f : Fld) (c : Nat) (b : Bool) : (d.putBit f c b).eth = d.eth := by
  rw [Dev.putBit_shape]
@[simp] theorem Dev.putBit_faKey (d : Dev) (f : Fld) (c : Nat) (b : Bool) : (d.putBit f c b).faKey = d.faKey := by
  rw [Dev.putBit_shape]
@[simp] theorem Dev.putBit_syn (d : Dev) (f : Fld) (c : Nat) (b : Bool) : (d.putBit f c b).syn = d.syn := by
  rw [Dev.putBit_shape]
@[simp] theorem Dev.putBit_ras (d : Dev) (f : Fld) (c : Nat) (b : Bool) : (d.putBit f c b).ras = d.ras := by
  rw [Dev.putBit_shape]
@[simp] theorem Dev.putBit_pwr (d : Dev) (f : Fld) (c : Nat) (b : Bool) : (d.putBit f c b).pwr = d.pwr := by
  rw [Dev.putBit_shape]
@[simp] theorem Dev.putBit_sec (d : Dev) (f : Fld) (c : Nat) (b : Bool) : (d.putBit f c b).sec = d.sec := by
  rw [Dev.putBit_shape]

/-- All that `Dev.raiseAt` can change. -/
theorem Dev.raiseAt_shape (d : Dev) (k e : Nat) :
    (d.raiseAt k e) = { d with evr := (d.raiseAt k e).evr } := by
  rw [Dev.raiseAt]
  split <;> rfl

@[simp] theorem Dev.raiseAt_now (d : Dev) (k e : Nat) : (d.raiseAt k e).now = d.now := by
  rw [Dev.raiseAt_shape]
@[simp] theorem Dev.raiseAt_freeSeq (d : Dev) (k e : Nat) : (d.raiseAt k e).freeSeq = d.freeSeq := by
  rw [Dev.raiseAt_shape]
@[simp] theorem Dev.raiseAt_regs (d : Dev) (k e : Nat) : (d.raiseAt k e).regs = d.regs := by
  rw [Dev.raiseAt_shape]
@[simp] theorem Dev.raiseAt_bus (d : Dev) (k e : Nat) : (d.raiseAt k e).bus = d.bus := by
  rw [Dev.raiseAt_shape]
@[simp] theorem Dev.raiseAt_path (d : Dev) (k e : Nat) : (d.raiseAt k e).path = d.path := by
  rw [Dev.raiseAt_shape]
@[simp] theorem Dev.raiseAt_logic (d : Dev) (k e : Nat) : (d.raiseAt k e).logic = d.logic := by
  rw [Dev.raiseAt_shape]
@[simp] theorem Dev.raiseAt_stageNext (d : Dev) (k e : Nat) : (d.raiseAt k e).stageNext = d.stageNext := by
  rw [Dev.raiseAt_shape]
@[simp] theorem Dev.raiseAt_slice (d : Dev) (k e : Nat) : (d.raiseAt k e).slice = d.slice := by
  rw [Dev.raiseAt_shape]
@[simp] theorem Dev.raiseAt_tb (d : Dev) (k e : Nat) : (d.raiseAt k e).tb = d.tb := by
  rw [Dev.raiseAt_shape]
@[simp] theorem Dev.raiseAt_trg (d : Dev) (k e : Nat) : (d.raiseAt k e).trg = d.trg := by
  rw [Dev.raiseAt_shape]
@[simp] theorem Dev.raiseAt_lanes (d : Dev) (k e : Nat) : (d.raiseAt k e).lanes = d.lanes := by
  rw [Dev.raiseAt_shape]
@[simp] theorem Dev.raiseAt_dec (d : Dev) (k e : Nat) : (d.raiseAt k e).dec = d.dec := by
  rw [Dev.raiseAt_shape]
@[simp] theorem Dev.raiseAt_tal (d : Dev) (k e : Nat) : (d.raiseAt k e).tal = d.tal := by
  rw [Dev.raiseAt_shape]
@[simp] theorem Dev.raiseAt_evi (d : Dev) (k e : Nat) : (d.raiseAt k e).evi = d.evi := by
  rw [Dev.raiseAt_shape]
@[simp] theorem Dev.raiseAt_ndl (d : Dev) (k e : Nat) : (d.raiseAt k e).ndl = d.ndl := by
  rw [Dev.raiseAt_shape]
@[simp] theorem Dev.raiseAt_stm (d : Dev) (k e : Nat) : (d.raiseAt k e).stm = d.stm := by
  rw [Dev.raiseAt_shape]
@[simp] theorem Dev.raiseAt_ben (d : Dev) (k e : Nat) : (d.raiseAt k e).ben = d.ben := by
  rw [Dev.raiseAt_shape]
@[simp] theorem Dev.raiseAt_link (d : Dev) (k e : Nat) : (d.raiseAt k e).link = d.link := by
  rw [Dev.raiseAt_shape]
@[simp] theorem Dev.raiseAt_que (d : Dev) (k e : Nat) : (d.raiseAt k e).que = d.que := by
  rw [Dev.raiseAt_shape]
@[simp] theorem Dev.raiseAt_xfe (d : Dev) (k e : Nat) : (d.raiseAt k e).xfe = d.xfe := by
  rw [Dev.raiseAt_shape]
@[simp] theorem Dev.raiseAt_eth (d : Dev) (k e : Nat) : (d.raiseAt k e).eth = d.eth := by
  rw [Dev.raiseAt_shape]
@[simp] theorem Dev.raiseAt_faKey (d : Dev) (k e : Nat) : (d.raiseAt k e).faKey = d.faKey := by
  rw [Dev.raiseAt_shape]
@[simp] theorem Dev.raiseAt_syn (d : Dev) (k e : Nat) : (d.raiseAt k e).syn = d.syn := by
  rw [Dev.raiseAt_shape]
@[simp] theorem Dev.raiseAt_ras (d : Dev) (k e : Nat) : (d.raiseAt k e).ras = d.ras := by
  rw [Dev.raiseAt_shape]
@[simp] theorem Dev.raiseAt_pwr (d : Dev) (k e : Nat) : (d.raiseAt k e).pwr = d.pwr := by
  rw [Dev.raiseAt_shape]
@[simp] theorem Dev.raiseAt_sec (d : Dev) (k e : Nat) : (d.raiseAt k e).sec = d.sec := by
  rw [Dev.raiseAt_shape]
@[simp] theorem Dev.raiseAt_rd (d : Dev) (k e : Nat) (r : Reg) : (d.raiseAt k e).rd r = d.rd r :=
  Dev.rd_congr (Dev.raiseAt_regs d k e) r
@[simp] theorem Dev.raiseAt_get (d : Dev) (k e : Nat) (fl : Fld) (m₁ m₂ m₃ : Nat) : (d.raiseAt k e).get fl m₁ m₂ m₃ = d.get fl m₁ m₂ m₃ :=
  Dev.get_congr (Dev.raiseAt_regs d k e) fl m₁ m₂ m₃

/-- All that `Dev.raise` can change. -/
theorem Dev.raise_shape (d : Dev) (e : Nat) :
    (d.raise e) = { d with evr := (d.raise e).evr } := by
  rw [Dev.raise]
  exact Dev.raiseAt_shape d d.now e

@[simp] theorem Dev.raise_now (d : Dev) (e : Nat) : (d.raise e).now = d.now := by
  rw [Dev.raise_shape]
@[simp] theorem Dev.raise_freeSeq (d : Dev) (e : Nat) : (d.raise e).freeSeq = d.freeSeq := by
  rw [Dev.raise_shape]
@[simp] theorem Dev.raise_regs (d : Dev) (e : Nat) : (d.raise e).regs = d.regs := by
  rw [Dev.raise_shape]
@[simp] theorem Dev.raise_bus (d : Dev) (e : Nat) : (d.raise e).bus = d.bus := by
  rw [Dev.raise_shape]
@[simp] theorem Dev.raise_path (d : Dev) (e : Nat) : (d.raise e).path = d.path := by
  rw [Dev.raise_shape]
@[simp] theorem Dev.raise_logic (d : Dev) (e : Nat) : (d.raise e).logic = d.logic := by
  rw [Dev.raise_shape]
@[simp] theorem Dev.raise_stageNext (d : Dev) (e : Nat) : (d.raise e).stageNext = d.stageNext := by
  rw [Dev.raise_shape]
@[simp] theorem Dev.raise_slice (d : Dev) (e : Nat) : (d.raise e).slice = d.slice := by
  rw [Dev.raise_shape]
@[simp] theorem Dev.raise_tb (d : Dev) (e : Nat) : (d.raise e).tb = d.tb := by
  rw [Dev.raise_shape]
@[simp] theorem Dev.raise_trg (d : Dev) (e : Nat) : (d.raise e).trg = d.trg := by
  rw [Dev.raise_shape]
@[simp] theorem Dev.raise_lanes (d : Dev) (e : Nat) : (d.raise e).lanes = d.lanes := by
  rw [Dev.raise_shape]
@[simp] theorem Dev.raise_dec (d : Dev) (e : Nat) : (d.raise e).dec = d.dec := by
  rw [Dev.raise_shape]
@[simp] theorem Dev.raise_tal (d : Dev) (e : Nat) : (d.raise e).tal = d.tal := by
  rw [Dev.raise_shape]
@[simp] theorem Dev.raise_evi (d : Dev) (e : Nat) : (d.raise e).evi = d.evi := by
  rw [Dev.raise_shape]
@[simp] theorem Dev.raise_ndl (d : Dev) (e : Nat) : (d.raise e).ndl = d.ndl := by
  rw [Dev.raise_shape]
@[simp] theorem Dev.raise_stm (d : Dev) (e : Nat) : (d.raise e).stm = d.stm := by
  rw [Dev.raise_shape]
@[simp] theorem Dev.raise_ben (d : Dev) (e : Nat) : (d.raise e).ben = d.ben := by
  rw [Dev.raise_shape]
@[simp] theorem Dev.raise_link (d : Dev) (e : Nat) : (d.raise e).link = d.link := by
  rw [Dev.raise_shape]
@[simp] theorem Dev.raise_que (d : Dev) (e : Nat) : (d.raise e).que = d.que := by
  rw [Dev.raise_shape]
@[simp] theorem Dev.raise_xfe (d : Dev) (e : Nat) : (d.raise e).xfe = d.xfe := by
  rw [Dev.raise_shape]
@[simp] theorem Dev.raise_eth (d : Dev) (e : Nat) : (d.raise e).eth = d.eth := by
  rw [Dev.raise_shape]
@[simp] theorem Dev.raise_faKey (d : Dev) (e : Nat) : (d.raise e).faKey = d.faKey := by
  rw [Dev.raise_shape]
@[simp] theorem Dev.raise_syn (d : Dev) (e : Nat) : (d.raise e).syn = d.syn := by
  rw [Dev.raise_shape]
@[simp] theorem Dev.raise_ras (d : Dev) (e : Nat) : (d.raise e).ras = d.ras := by
  rw [Dev.raise_shape]
@[simp] theorem Dev.raise_pwr (d : Dev) (e : Nat) : (d.raise e).pwr = d.pwr := by
  rw [Dev.raise_shape]
@[simp] theorem Dev.raise_sec (d : Dev) (e : Nat) : (d.raise e).sec = d.sec := by
  rw [Dev.raise_shape]
@[simp] theorem Dev.raise_rd (d : Dev) (e : Nat) (r : Reg) : (d.raise e).rd r = d.rd r :=
  Dev.rd_congr (Dev.raise_regs d e) r
@[simp] theorem Dev.raise_get (d : Dev) (e : Nat) (fl : Fld) (m₁ m₂ m₃ : Nat) : (d.raise e).get fl m₁ m₂ m₃ = d.get fl m₁ m₂ m₃ :=
  Dev.get_congr (Dev.raise_regs d e) fl m₁ m₂ m₃

@[simp] theorem Dev.setBits_now (d : Dev) (r : Reg) (m : W64) : (d.setBits r m).now = d.now := (rfl)
@[simp] theorem Dev.setBits_freeSeq (d : Dev) (r : Reg) (m : W64) : (d.setBits r m).freeSeq = d.freeSeq := (rfl)
@[simp] theorem Dev.setBits_path (d : Dev) (r : Reg) (m : W64) : (d.setBits r m).path = d.path := (rfl)
@[simp] theorem Dev.setBits_logic (d : Dev) (r : Reg) (m : W64) : (d.setBits r m).logic = d.logic := (rfl)
@[simp] theorem Dev.setBits_stageNext (d : Dev) (r : Reg) (m : W64) : (d.setBits r m).stageNext = d.stageNext := (rfl)
@[simp] theorem Dev.setBits_slice (d : Dev) (r : Reg) (m : W64) : (d.setBits r m).slice = d.slice := (rfl)
@[simp] theorem Dev.setBits_tb (d : Dev) (r : Reg) (m : W64) : (d.setBits r m).tb = d.tb := (rfl)
@[simp] theorem Dev.setBits_trg (d : Dev) (r : Reg) (m : W64) : (d.setBits r m).trg = d.trg := (rfl)
@[simp] theorem Dev.setBits_lanes (d : Dev) (r : Reg) (m : W64) : (d.setBits r m).lanes = d.lanes := (rfl)
@[simp] theorem Dev.setBits_dec (d : Dev) (r : Reg) (m : W64) : (d.setBits r m).dec = d.dec := (rfl)
@[simp] theorem Dev.setBits_tal (d : Dev) (r : Reg) (m : W64) : (d.setBits r m).tal = d.tal := (rfl)
@[simp] theorem Dev.setBits_evi (d : Dev) (r : Reg) (m : W64) : (d.setBits r m).evi = d.evi := (rfl)
@[simp] theorem Dev.setBits_ndl (d : Dev) (r : Reg) (m : W64) : (d.setBits r m).ndl = d.ndl := (rfl)
@[simp] theorem Dev.setBits_stm (d : Dev) (r : Reg) (m : W64) : (d.setBits r m).stm = d.stm := (rfl)
@[simp] theorem Dev.setBits_ben (d : Dev) (r : Reg) (m : W64) : (d.setBits r m).ben = d.ben := (rfl)
@[simp] theorem Dev.setBits_link (d : Dev) (r : Reg) (m : W64) : (d.setBits r m).link = d.link := (rfl)
@[simp] theorem Dev.setBits_que (d : Dev) (r : Reg) (m : W64) : (d.setBits r m).que = d.que := (rfl)
@[simp] theorem Dev.setBits_evr (d : Dev) (r : Reg) (m : W64) : (d.setBits r m).evr = d.evr := (rfl)
@[simp] theorem Dev.setBits_xfe (d : Dev) (r : Reg) (m : W64) : (d.setBits r m).xfe = d.xfe := (rfl)
@[simp] theorem Dev.setBits_eth (d : Dev) (r : Reg) (m : W64) : (d.setBits r m).eth = d.eth := (rfl)
@[simp] theorem Dev.setBits_faKey (d : Dev) (r : Reg) (m : W64) : (d.setBits r m).faKey = d.faKey := (rfl)
@[simp] theorem Dev.setBits_syn (d : Dev) (r : Reg) (m : W64) : (d.setBits r m).syn = d.syn := (rfl)
@[simp] theorem Dev.setBits_ras (d : Dev) (r : Reg) (m : W64) : (d.setBits r m).ras = d.ras := (rfl)
@[simp] theorem Dev.setBits_pwr (d : Dev) (r : Reg) (m : W64) : (d.setBits r m).pwr = d.pwr := (rfl)
@[simp] theorem Dev.setBits_sec (d : Dev) (r : Reg) (m : W64) : (d.setBits r m).sec = d.sec := (rfl)

@[simp] theorem Dev.setFlag_now (d : Dev) (f : Fld) (i : Nat) : (d.setFlag f i).now = d.now := (rfl)
@[simp] theorem Dev.setFlag_freeSeq (d : Dev) (f : Fld) (i : Nat) : (d.setFlag f i).freeSeq = d.freeSeq := (rfl)
@[simp] theorem Dev.setFlag_path (d : Dev) (f : Fld) (i : Nat) : (d.setFlag f i).path = d.path := (rfl)
@[simp] theorem Dev.setFlag_logic (d : Dev) (f : Fld) (i : Nat) : (d.setFlag f i).logic = d.logic := (rfl)
@[simp] theorem Dev.setFlag_stageNext (d : Dev) (f : Fld) (i : Nat) : (d.setFlag f i).stageNext = d.stageNext := (rfl)
@[simp] theorem Dev.setFlag_slice (d : Dev) (f : Fld) (i : Nat) : (d.setFlag f i).slice = d.slice := (rfl)
@[simp] theorem Dev.setFlag_tb (d : Dev) (f : Fld) (i : Nat) : (d.setFlag f i).tb = d.tb := (rfl)
@[simp] theorem Dev.setFlag_trg (d : Dev) (f : Fld) (i : Nat) : (d.setFlag f i).trg = d.trg := (rfl)
@[simp] theorem Dev.setFlag_lanes (d : Dev) (f : Fld) (i : Nat) : (d.setFlag f i).lanes = d.lanes := (rfl)
@[simp] theorem Dev.setFlag_dec (d : Dev) (f : Fld) (i : Nat) : (d.setFlag f i).dec = d.dec := (rfl)
@[simp] theorem Dev.setFlag_tal (d : Dev) (f : Fld) (i : Nat) : (d.setFlag f i).tal = d.tal := (rfl)
@[simp] theorem Dev.setFlag_evi (d : Dev) (f : Fld) (i : Nat) : (d.setFlag f i).evi = d.evi := (rfl)
@[simp] theorem Dev.setFlag_ndl (d : Dev) (f : Fld) (i : Nat) : (d.setFlag f i).ndl = d.ndl := (rfl)
@[simp] theorem Dev.setFlag_stm (d : Dev) (f : Fld) (i : Nat) : (d.setFlag f i).stm = d.stm := (rfl)
@[simp] theorem Dev.setFlag_ben (d : Dev) (f : Fld) (i : Nat) : (d.setFlag f i).ben = d.ben := (rfl)
@[simp] theorem Dev.setFlag_link (d : Dev) (f : Fld) (i : Nat) : (d.setFlag f i).link = d.link := (rfl)
@[simp] theorem Dev.setFlag_que (d : Dev) (f : Fld) (i : Nat) : (d.setFlag f i).que = d.que := (rfl)
@[simp] theorem Dev.setFlag_evr (d : Dev) (f : Fld) (i : Nat) : (d.setFlag f i).evr = d.evr := (rfl)
@[simp] theorem Dev.setFlag_xfe (d : Dev) (f : Fld) (i : Nat) : (d.setFlag f i).xfe = d.xfe := (rfl)
@[simp] theorem Dev.setFlag_eth (d : Dev) (f : Fld) (i : Nat) : (d.setFlag f i).eth = d.eth := (rfl)
@[simp] theorem Dev.setFlag_faKey (d : Dev) (f : Fld) (i : Nat) : (d.setFlag f i).faKey = d.faKey := (rfl)
@[simp] theorem Dev.setFlag_syn (d : Dev) (f : Fld) (i : Nat) : (d.setFlag f i).syn = d.syn := (rfl)
@[simp] theorem Dev.setFlag_ras (d : Dev) (f : Fld) (i : Nat) : (d.setFlag f i).ras = d.ras := (rfl)
@[simp] theorem Dev.setFlag_pwr (d : Dev) (f : Fld) (i : Nat) : (d.setFlag f i).pwr = d.pwr := (rfl)
@[simp] theorem Dev.setFlag_sec (d : Dev) (f : Fld) (i : Nat) : (d.setFlag f i).sec = d.sec := (rfl)

/-- All that `Dev.raiseHold` can change. -/
theorem Dev.raiseHold_shape (d : Dev) (k n e : Nat) :
    (d.raiseHold k n e) = { d with evr := (d.raiseHold k n e).evr } := by
  rw [Dev.raiseHold]
  simp only
  apply Dev.ext_fields <;> simp

@[simp] theorem Dev.raiseHold_now (d : Dev) (k n e : Nat) : (d.raiseHold k n e).now = d.now := by
  rw [Dev.raiseHold_shape]
@[simp] theorem Dev.raiseHold_freeSeq (d : Dev) (k n e : Nat) : (d.raiseHold k n e).freeSeq = d.freeSeq := by
  rw [Dev.raiseHold_shape]
@[simp] theorem Dev.raiseHold_regs (d : Dev) (k n e : Nat) : (d.raiseHold k n e).regs = d.regs := by
  rw [Dev.raiseHold_shape]
@[simp] theorem Dev.raiseHold_bus (d : Dev) (k n e : Nat) : (d.raiseHold k n e).bus = d.bus := by
  rw [Dev.raiseHold_shape]
@[simp] theorem Dev.raiseHold_path (d : Dev) (k n e : Nat) : (d.raiseHold k n e).path = d.path := by
  rw [Dev.raiseHold_shape]
@[simp] theorem Dev.raiseHold_logic (d : Dev) (k n e : Nat) : (d.raiseHold k n e).logic = d.logic := by
  rw [Dev.raiseHold_shape]
@[simp] theorem Dev.raiseHold_stageNext (d : Dev) (k n e : Nat) : (d.raiseHold k n e).stageNext = d.stageNext := by
  rw [Dev.raiseHold_shape]
@[simp] theorem Dev.raiseHold_slice (d : Dev) (k n e : Nat) : (d.raiseHold k n e).slice = d.slice := by
  rw [Dev.raiseHold_shape]
@[simp] theorem Dev.raiseHold_tb (d : Dev) (k n e : Nat) : (d.raiseHold k n e).tb = d.tb := by
  rw [Dev.raiseHold_shape]
@[simp] theorem Dev.raiseHold_trg (d : Dev) (k n e : Nat) : (d.raiseHold k n e).trg = d.trg := by
  rw [Dev.raiseHold_shape]
@[simp] theorem Dev.raiseHold_lanes (d : Dev) (k n e : Nat) : (d.raiseHold k n e).lanes = d.lanes := by
  rw [Dev.raiseHold_shape]
@[simp] theorem Dev.raiseHold_dec (d : Dev) (k n e : Nat) : (d.raiseHold k n e).dec = d.dec := by
  rw [Dev.raiseHold_shape]
@[simp] theorem Dev.raiseHold_tal (d : Dev) (k n e : Nat) : (d.raiseHold k n e).tal = d.tal := by
  rw [Dev.raiseHold_shape]
@[simp] theorem Dev.raiseHold_evi (d : Dev) (k n e : Nat) : (d.raiseHold k n e).evi = d.evi := by
  rw [Dev.raiseHold_shape]
@[simp] theorem Dev.raiseHold_ndl (d : Dev) (k n e : Nat) : (d.raiseHold k n e).ndl = d.ndl := by
  rw [Dev.raiseHold_shape]
@[simp] theorem Dev.raiseHold_stm (d : Dev) (k n e : Nat) : (d.raiseHold k n e).stm = d.stm := by
  rw [Dev.raiseHold_shape]
@[simp] theorem Dev.raiseHold_ben (d : Dev) (k n e : Nat) : (d.raiseHold k n e).ben = d.ben := by
  rw [Dev.raiseHold_shape]
@[simp] theorem Dev.raiseHold_link (d : Dev) (k n e : Nat) : (d.raiseHold k n e).link = d.link := by
  rw [Dev.raiseHold_shape]
@[simp] theorem Dev.raiseHold_que (d : Dev) (k n e : Nat) : (d.raiseHold k n e).que = d.que := by
  rw [Dev.raiseHold_shape]
@[simp] theorem Dev.raiseHold_xfe (d : Dev) (k n e : Nat) : (d.raiseHold k n e).xfe = d.xfe := by
  rw [Dev.raiseHold_shape]
@[simp] theorem Dev.raiseHold_eth (d : Dev) (k n e : Nat) : (d.raiseHold k n e).eth = d.eth := by
  rw [Dev.raiseHold_shape]
@[simp] theorem Dev.raiseHold_faKey (d : Dev) (k n e : Nat) : (d.raiseHold k n e).faKey = d.faKey := by
  rw [Dev.raiseHold_shape]
@[simp] theorem Dev.raiseHold_syn (d : Dev) (k n e : Nat) : (d.raiseHold k n e).syn = d.syn := by
  rw [Dev.raiseHold_shape]
@[simp] theorem Dev.raiseHold_ras (d : Dev) (k n e : Nat) : (d.raiseHold k n e).ras = d.ras := by
  rw [Dev.raiseHold_shape]
@[simp] theorem Dev.raiseHold_pwr (d : Dev) (k n e : Nat) : (d.raiseHold k n e).pwr = d.pwr := by
  rw [Dev.raiseHold_shape]
@[simp] theorem Dev.raiseHold_sec (d : Dev) (k n e : Nat) : (d.raiseHold k n e).sec = d.sec := by
  rw [Dev.raiseHold_shape]
@[simp] theorem Dev.raiseHold_rd (d : Dev) (k n e : Nat) (r : Reg) : (d.raiseHold k n e).rd r = d.rd r :=
  Dev.rd_congr (Dev.raiseHold_regs d k n e) r
@[simp] theorem Dev.raiseHold_get (d : Dev) (k n e : Nat) (fl : Fld) (m₁ m₂ m₃ : Nat) : (d.raiseHold k n e).get fl m₁ m₂ m₃ = d.get fl m₁ m₂ m₃ :=
  Dev.get_congr (Dev.raiseHold_regs d k n e) fl m₁ m₂ m₃

/-- All that `Dev.raiseHeldAt` can change. -/
theorem Dev.raiseHeldAt_shape (d : Dev) (k n e : Nat) :
    (d.raiseHeldAt k n e) = { d with evr := (d.raiseHeldAt k n e).evr } := by
  rw [Dev.raiseHeldAt]
  simp only
  (repeat' split) <;> apply Dev.ext_fields <;> simp

@[simp] theorem Dev.raiseHeldAt_now (d : Dev) (k n e : Nat) : (d.raiseHeldAt k n e).now = d.now := by
  rw [Dev.raiseHeldAt_shape]
@[simp] theorem Dev.raiseHeldAt_freeSeq (d : Dev) (k n e : Nat) : (d.raiseHeldAt k n e).freeSeq = d.freeSeq := by
  rw [Dev.raiseHeldAt_shape]
@[simp] theorem Dev.raiseHeldAt_regs (d : Dev) (k n e : Nat) : (d.raiseHeldAt k n e).regs = d.regs := by
  rw [Dev.raiseHeldAt_shape]
@[simp] theorem Dev.raiseHeldAt_bus (d : Dev) (k n e : Nat) : (d.raiseHeldAt k n e).bus = d.bus := by
  rw [Dev.raiseHeldAt_shape]
@[simp] theorem Dev.raiseHeldAt_path (d : Dev) (k n e : Nat) : (d.raiseHeldAt k n e).path = d.path := by
  rw [Dev.raiseHeldAt_shape]
@[simp] theorem Dev.raiseHeldAt_logic (d : Dev) (k n e : Nat) : (d.raiseHeldAt k n e).logic = d.logic := by
  rw [Dev.raiseHeldAt_shape]
@[simp] theorem Dev.raiseHeldAt_stageNext (d : Dev) (k n e : Nat) : (d.raiseHeldAt k n e).stageNext = d.stageNext := by
  rw [Dev.raiseHeldAt_shape]
@[simp] theorem Dev.raiseHeldAt_slice (d : Dev) (k n e : Nat) : (d.raiseHeldAt k n e).slice = d.slice := by
  rw [Dev.raiseHeldAt_shape]
@[simp] theorem Dev.raiseHeldAt_tb (d : Dev) (k n e : Nat) : (d.raiseHeldAt k n e).tb = d.tb := by
  rw [Dev.raiseHeldAt_shape]
@[simp] theorem Dev.raiseHeldAt_trg (d : Dev) (k n e : Nat) : (d.raiseHeldAt k n e).trg = d.trg := by
  rw [Dev.raiseHeldAt_shape]
@[simp] theorem Dev.raiseHeldAt_lanes (d : Dev) (k n e : Nat) : (d.raiseHeldAt k n e).lanes = d.lanes := by
  rw [Dev.raiseHeldAt_shape]
@[simp] theorem Dev.raiseHeldAt_dec (d : Dev) (k n e : Nat) : (d.raiseHeldAt k n e).dec = d.dec := by
  rw [Dev.raiseHeldAt_shape]
@[simp] theorem Dev.raiseHeldAt_tal (d : Dev) (k n e : Nat) : (d.raiseHeldAt k n e).tal = d.tal := by
  rw [Dev.raiseHeldAt_shape]
@[simp] theorem Dev.raiseHeldAt_evi (d : Dev) (k n e : Nat) : (d.raiseHeldAt k n e).evi = d.evi := by
  rw [Dev.raiseHeldAt_shape]
@[simp] theorem Dev.raiseHeldAt_ndl (d : Dev) (k n e : Nat) : (d.raiseHeldAt k n e).ndl = d.ndl := by
  rw [Dev.raiseHeldAt_shape]
@[simp] theorem Dev.raiseHeldAt_stm (d : Dev) (k n e : Nat) : (d.raiseHeldAt k n e).stm = d.stm := by
  rw [Dev.raiseHeldAt_shape]
@[simp] theorem Dev.raiseHeldAt_ben (d : Dev) (k n e : Nat) : (d.raiseHeldAt k n e).ben = d.ben := by
  rw [Dev.raiseHeldAt_shape]
@[simp] theorem Dev.raiseHeldAt_link (d : Dev) (k n e : Nat) : (d.raiseHeldAt k n e).link = d.link := by
  rw [Dev.raiseHeldAt_shape]
@[simp] theorem Dev.raiseHeldAt_que (d : Dev) (k n e : Nat) : (d.raiseHeldAt k n e).que = d.que := by
  rw [Dev.raiseHeldAt_shape]
@[simp] theorem Dev.raiseHeldAt_xfe (d : Dev) (k n e : Nat) : (d.raiseHeldAt k n e).xfe = d.xfe := by
  rw [Dev.raiseHeldAt_shape]
@[simp] theorem Dev.raiseHeldAt_eth (d : Dev) (k n e : Nat) : (d.raiseHeldAt k n e).eth = d.eth := by
  rw [Dev.raiseHeldAt_shape]
@[simp] theorem Dev.raiseHeldAt_faKey (d : Dev) (k n e : Nat) : (d.raiseHeldAt k n e).faKey = d.faKey := by
  rw [Dev.raiseHeldAt_shape]
@[simp] theorem Dev.raiseHeldAt_syn (d : Dev) (k n e : Nat) : (d.raiseHeldAt k n e).syn = d.syn := by
  rw [Dev.raiseHeldAt_shape]
@[simp] theorem Dev.raiseHeldAt_ras (d : Dev) (k n e : Nat) : (d.raiseHeldAt k n e).ras = d.ras := by
  rw [Dev.raiseHeldAt_shape]
@[simp] theorem Dev.raiseHeldAt_pwr (d : Dev) (k n e : Nat) : (d.raiseHeldAt k n e).pwr = d.pwr := by
  rw [Dev.raiseHeldAt_shape]
@[simp] theorem Dev.raiseHeldAt_sec (d : Dev) (k n e : Nat) : (d.raiseHeldAt k n e).sec = d.sec := by
  rw [Dev.raiseHeldAt_shape]
@[simp] theorem Dev.raiseHeldAt_rd (d : Dev) (k n e : Nat) (r : Reg) : (d.raiseHeldAt k n e).rd r = d.rd r :=
  Dev.rd_congr (Dev.raiseHeldAt_regs d k n e) r
@[simp] theorem Dev.raiseHeldAt_get (d : Dev) (k n e : Nat) (fl : Fld) (m₁ m₂ m₃ : Nat) : (d.raiseHeldAt k n e).get fl m₁ m₂ m₃ = d.get fl m₁ m₂ m₃ :=
  Dev.get_congr (Dev.raiseHeldAt_regs d k n e) fl m₁ m₂ m₃

/-- All that `Dev.raiseHeld` can change. -/
theorem Dev.raiseHeld_shape (d : Dev) (n e : Nat) :
    (d.raiseHeld n e) = { d with evr := (d.raiseHeld n e).evr } := by
  rw [Dev.raiseHeld]
  exact Dev.raiseHeldAt_shape d d.now n e

@[simp] theorem Dev.raiseHeld_now (d : Dev) (n e : Nat) : (d.raiseHeld n e).now = d.now := by
  rw [Dev.raiseHeld_shape]
@[simp] theorem Dev.raiseHeld_freeSeq (d : Dev) (n e : Nat) : (d.raiseHeld n e).freeSeq = d.freeSeq := by
  rw [Dev.raiseHeld_shape]
@[simp] theorem Dev.raiseHeld_regs (d : Dev) (n e : Nat) : (d.raiseHeld n e).regs = d.regs := by
  rw [Dev.raiseHeld_shape]
@[simp] theorem Dev.raiseHeld_bus (d : Dev) (n e : Nat) : (d.raiseHeld n e).bus = d.bus := by
  rw [Dev.raiseHeld_shape]
@[simp] theorem Dev.raiseHeld_path (d : Dev) (n e : Nat) : (d.raiseHeld n e).path = d.path := by
  rw [Dev.raiseHeld_shape]
@[simp] theorem Dev.raiseHeld_logic (d : Dev) (n e : Nat) : (d.raiseHeld n e).logic = d.logic := by
  rw [Dev.raiseHeld_shape]
@[simp] theorem Dev.raiseHeld_stageNext (d : Dev) (n e : Nat) : (d.raiseHeld n e).stageNext = d.stageNext := by
  rw [Dev.raiseHeld_shape]
@[simp] theorem Dev.raiseHeld_slice (d : Dev) (n e : Nat) : (d.raiseHeld n e).slice = d.slice := by
  rw [Dev.raiseHeld_shape]
@[simp] theorem Dev.raiseHeld_tb (d : Dev) (n e : Nat) : (d.raiseHeld n e).tb = d.tb := by
  rw [Dev.raiseHeld_shape]
@[simp] theorem Dev.raiseHeld_trg (d : Dev) (n e : Nat) : (d.raiseHeld n e).trg = d.trg := by
  rw [Dev.raiseHeld_shape]
@[simp] theorem Dev.raiseHeld_lanes (d : Dev) (n e : Nat) : (d.raiseHeld n e).lanes = d.lanes := by
  rw [Dev.raiseHeld_shape]
@[simp] theorem Dev.raiseHeld_dec (d : Dev) (n e : Nat) : (d.raiseHeld n e).dec = d.dec := by
  rw [Dev.raiseHeld_shape]
@[simp] theorem Dev.raiseHeld_tal (d : Dev) (n e : Nat) : (d.raiseHeld n e).tal = d.tal := by
  rw [Dev.raiseHeld_shape]
@[simp] theorem Dev.raiseHeld_evi (d : Dev) (n e : Nat) : (d.raiseHeld n e).evi = d.evi := by
  rw [Dev.raiseHeld_shape]
@[simp] theorem Dev.raiseHeld_ndl (d : Dev) (n e : Nat) : (d.raiseHeld n e).ndl = d.ndl := by
  rw [Dev.raiseHeld_shape]
@[simp] theorem Dev.raiseHeld_stm (d : Dev) (n e : Nat) : (d.raiseHeld n e).stm = d.stm := by
  rw [Dev.raiseHeld_shape]
@[simp] theorem Dev.raiseHeld_ben (d : Dev) (n e : Nat) : (d.raiseHeld n e).ben = d.ben := by
  rw [Dev.raiseHeld_shape]
@[simp] theorem Dev.raiseHeld_link (d : Dev) (n e : Nat) : (d.raiseHeld n e).link = d.link := by
  rw [Dev.raiseHeld_shape]
@[simp] theorem Dev.raiseHeld_que (d : Dev) (n e : Nat) : (d.raiseHeld n e).que = d.que := by
  rw [Dev.raiseHeld_shape]
@[simp] theorem Dev.raiseHeld_xfe (d : Dev) (n e : Nat) : (d.raiseHeld n e).xfe = d.xfe := by
  rw [Dev.raiseHeld_shape]
@[simp] theorem Dev.raiseHeld_eth (d : Dev) (n e : Nat) : (d.raiseHeld n e).eth = d.eth := by
  rw [Dev.raiseHeld_shape]
@[simp] theorem Dev.raiseHeld_faKey (d : Dev) (n e : Nat) : (d.raiseHeld n e).faKey = d.faKey := by
  rw [Dev.raiseHeld_shape]
@[simp] theorem Dev.raiseHeld_syn (d : Dev) (n e : Nat) : (d.raiseHeld n e).syn = d.syn := by
  rw [Dev.raiseHeld_shape]
@[simp] theorem Dev.raiseHeld_ras (d : Dev) (n e : Nat) : (d.raiseHeld n e).ras = d.ras := by
  rw [Dev.raiseHeld_shape]
@[simp] theorem Dev.raiseHeld_pwr (d : Dev) (n e : Nat) : (d.raiseHeld n e).pwr = d.pwr := by
  rw [Dev.raiseHeld_shape]
@[simp] theorem Dev.raiseHeld_sec (d : Dev) (n e : Nat) : (d.raiseHeld n e).sec = d.sec := by
  rw [Dev.raiseHeld_shape]
@[simp] theorem Dev.raiseHeld_rd (d : Dev) (n e : Nat) (r : Reg) : (d.raiseHeld n e).rd r = d.rd r :=
  Dev.rd_congr (Dev.raiseHeld_regs d n e) r
@[simp] theorem Dev.raiseHeld_get (d : Dev) (n e : Nat) (fl : Fld) (m₁ m₂ m₃ : Nat) : (d.raiseHeld n e).get fl m₁ m₂ m₃ = d.get fl m₁ m₂ m₃ :=
  Dev.get_congr (Dev.raiseHeld_regs d n e) fl m₁ m₂ m₃

/-- All that `Dev.advanceTo` can change. -/
theorem Dev.advanceTo_shape (d : Dev) (t : Nat) :
    (d.advanceTo t) = { d with now := (d.advanceTo t).now, bus := (d.advanceTo t).bus, evr := (d.advanceTo t).evr } := by
  rw [Dev.advanceTo]
  split
  · rfl
  · simp only
    split
    · split <;> apply Dev.ext_fields <;> simp
    · rfl

@[simp] theorem Dev.advanceTo_freeSeq (d : Dev) (t : Nat) : (d.advanceTo t).freeSeq = d.freeSeq := by
  rw [Dev.advanceTo_shape]
@[simp] theorem Dev.advanceTo_regs (d : Dev) (t : Nat) : (d.advanceTo t).regs = d.regs := by
  rw [Dev.advanceTo_shape]
@[simp] theorem Dev.advanceTo_path (d : Dev) (t : Nat) : (d.advanceTo t).path = d.path := by
  rw [Dev.advanceTo_shape]
@[simp] theorem Dev.advanceTo_logic (d : Dev) (t : Nat) : (d.advanceTo t).logic = d.logic := by
  rw [Dev.advanceTo_shape]
@[simp] theorem Dev.advanceTo_stageNext (d : Dev) (t : Nat) : (d.advanceTo t).stageNext = d.stageNext := by
  rw [Dev.advanceTo_shape]
@[simp] theorem Dev.advanceTo_slice (d : Dev) (t : Nat) : (d.advanceTo t).slice = d.slice := by
  rw [Dev.advanceTo_shape]
@[simp] theorem Dev.advanceTo_tb (d : Dev) (t : Nat) : (d.advanceTo t).tb = d.tb := by
  rw [Dev.advanceTo_shape]
@[simp] theorem Dev.advanceTo_trg (d : Dev) (t : Nat) : (d.advanceTo t).trg = d.trg := by
  rw [Dev.advanceTo_shape]
@[simp] theorem Dev.advanceTo_lanes (d : Dev) (t : Nat) : (d.advanceTo t).lanes = d.lanes := by
  rw [Dev.advanceTo_shape]
@[simp] theorem Dev.advanceTo_dec (d : Dev) (t : Nat) : (d.advanceTo t).dec = d.dec := by
  rw [Dev.advanceTo_shape]
@[simp] theorem Dev.advanceTo_tal (d : Dev) (t : Nat) : (d.advanceTo t).tal = d.tal := by
  rw [Dev.advanceTo_shape]
@[simp] theorem Dev.advanceTo_evi (d : Dev) (t : Nat) : (d.advanceTo t).evi = d.evi := by
  rw [Dev.advanceTo_shape]
@[simp] theorem Dev.advanceTo_ndl (d : Dev) (t : Nat) : (d.advanceTo t).ndl = d.ndl := by
  rw [Dev.advanceTo_shape]
@[simp] theorem Dev.advanceTo_stm (d : Dev) (t : Nat) : (d.advanceTo t).stm = d.stm := by
  rw [Dev.advanceTo_shape]
@[simp] theorem Dev.advanceTo_ben (d : Dev) (t : Nat) : (d.advanceTo t).ben = d.ben := by
  rw [Dev.advanceTo_shape]
@[simp] theorem Dev.advanceTo_link (d : Dev) (t : Nat) : (d.advanceTo t).link = d.link := by
  rw [Dev.advanceTo_shape]
@[simp] theorem Dev.advanceTo_que (d : Dev) (t : Nat) : (d.advanceTo t).que = d.que := by
  rw [Dev.advanceTo_shape]
@[simp] theorem Dev.advanceTo_xfe (d : Dev) (t : Nat) : (d.advanceTo t).xfe = d.xfe := by
  rw [Dev.advanceTo_shape]
@[simp] theorem Dev.advanceTo_eth (d : Dev) (t : Nat) : (d.advanceTo t).eth = d.eth := by
  rw [Dev.advanceTo_shape]
@[simp] theorem Dev.advanceTo_faKey (d : Dev) (t : Nat) : (d.advanceTo t).faKey = d.faKey := by
  rw [Dev.advanceTo_shape]
@[simp] theorem Dev.advanceTo_syn (d : Dev) (t : Nat) : (d.advanceTo t).syn = d.syn := by
  rw [Dev.advanceTo_shape]
@[simp] theorem Dev.advanceTo_ras (d : Dev) (t : Nat) : (d.advanceTo t).ras = d.ras := by
  rw [Dev.advanceTo_shape]
@[simp] theorem Dev.advanceTo_pwr (d : Dev) (t : Nat) : (d.advanceTo t).pwr = d.pwr := by
  rw [Dev.advanceTo_shape]
@[simp] theorem Dev.advanceTo_sec (d : Dev) (t : Nat) : (d.advanceTo t).sec = d.sec := by
  rw [Dev.advanceTo_shape]
@[simp] theorem Dev.advanceTo_rd (d : Dev) (t : Nat) (r : Reg) : (d.advanceTo t).rd r = d.rd r :=
  Dev.rd_congr (Dev.advanceTo_regs d t) r
@[simp] theorem Dev.advanceTo_get (d : Dev) (t : Nat) (fl : Fld) (m₁ m₂ m₃ : Nat) : (d.advanceTo t).get fl m₁ m₂ m₃ = d.get fl m₁ m₂ m₃ :=
  Dev.get_congr (Dev.advanceTo_regs d t) fl m₁ m₂ m₃

/-- All that `Dev.decision` can change. -/
theorem Dev.decision_shape (d : Dev) (code unit arg : Nat) :
    (d.decision code unit arg) = { d with regs := (d.decision code unit arg).regs, evr := (d.decision code unit arg).evr } := by
  rw [Dev.decision]
  apply Dev.ext_fields <;> simp

@[simp] theorem Dev.decision_now (d : Dev) (code unit arg : Nat) : (d.decision code unit arg).now = d.now := by
  rw [Dev.decision_shape]
@[simp] theorem Dev.decision_freeSeq (d : Dev) (code unit arg : Nat) : (d.decision code unit arg).freeSeq = d.freeSeq := by
  rw [Dev.decision_shape]
@[simp] theorem Dev.decision_bus (d : Dev) (code unit arg : Nat) : (d.decision code unit arg).bus = d.bus := by
  rw [Dev.decision_shape]
@[simp] theorem Dev.decision_path (d : Dev) (code unit arg : Nat) : (d.decision code unit arg).path = d.path := by
  rw [Dev.decision_shape]
@[simp] theorem Dev.decision_logic (d : Dev) (code unit arg : Nat) : (d.decision code unit arg).logic = d.logic := by
  rw [Dev.decision_shape]
@[simp] theorem Dev.decision_stageNext (d : Dev) (code unit arg : Nat) : (d.decision code unit arg).stageNext = d.stageNext := by
  rw [Dev.decision_shape]
@[simp] theorem Dev.decision_slice (d : Dev) (code unit arg : Nat) : (d.decision code unit arg).slice = d.slice := by
  rw [Dev.decision_shape]
@[simp] theorem Dev.decision_tb (d : Dev) (code unit arg : Nat) : (d.decision code unit arg).tb = d.tb := by
  rw [Dev.decision_shape]
@[simp] theorem Dev.decision_trg (d : Dev) (code unit arg : Nat) : (d.decision code unit arg).trg = d.trg := by
  rw [Dev.decision_shape]
@[simp] theorem Dev.decision_lanes (d : Dev) (code unit arg : Nat) : (d.decision code unit arg).lanes = d.lanes := by
  rw [Dev.decision_shape]
@[simp] theorem Dev.decision_dec (d : Dev) (code unit arg : Nat) : (d.decision code unit arg).dec = d.dec := by
  rw [Dev.decision_shape]
@[simp] theorem Dev.decision_tal (d : Dev) (code unit arg : Nat) : (d.decision code unit arg).tal = d.tal := by
  rw [Dev.decision_shape]
@[simp] theorem Dev.decision_evi (d : Dev) (code unit arg : Nat) : (d.decision code unit arg).evi = d.evi := by
  rw [Dev.decision_shape]
@[simp] theorem Dev.decision_ndl (d : Dev) (code unit arg : Nat) : (d.decision code unit arg).ndl = d.ndl := by
  rw [Dev.decision_shape]
@[simp] theorem Dev.decision_stm (d : Dev) (code unit arg : Nat) : (d.decision code unit arg).stm = d.stm := by
  rw [Dev.decision_shape]
@[simp] theorem Dev.decision_ben (d : Dev) (code unit arg : Nat) : (d.decision code unit arg).ben = d.ben := by
  rw [Dev.decision_shape]
@[simp] theorem Dev.decision_link (d : Dev) (code unit arg : Nat) : (d.decision code unit arg).link = d.link := by
  rw [Dev.decision_shape]
@[simp] theorem Dev.decision_que (d : Dev) (code unit arg : Nat) : (d.decision code unit arg).que = d.que := by
  rw [Dev.decision_shape]
@[simp] theorem Dev.decision_xfe (d : Dev) (code unit arg : Nat) : (d.decision code unit arg).xfe = d.xfe := by
  rw [Dev.decision_shape]
@[simp] theorem Dev.decision_eth (d : Dev) (code unit arg : Nat) : (d.decision code unit arg).eth = d.eth := by
  rw [Dev.decision_shape]
@[simp] theorem Dev.decision_faKey (d : Dev) (code unit arg : Nat) : (d.decision code unit arg).faKey = d.faKey := by
  rw [Dev.decision_shape]
@[simp] theorem Dev.decision_syn (d : Dev) (code unit arg : Nat) : (d.decision code unit arg).syn = d.syn := by
  rw [Dev.decision_shape]
@[simp] theorem Dev.decision_ras (d : Dev) (code unit arg : Nat) : (d.decision code unit arg).ras = d.ras := by
  rw [Dev.decision_shape]
@[simp] theorem Dev.decision_pwr (d : Dev) (code unit arg : Nat) : (d.decision code unit arg).pwr = d.pwr := by
  rw [Dev.decision_shape]
@[simp] theorem Dev.decision_sec (d : Dev) (code unit arg : Nat) : (d.decision code unit arg).sec = d.sec := by
  rw [Dev.decision_shape]

@[simp] theorem Dev.updLane_now (d : Dev) (l : Nat) (f : Lane → Lane) : (d.updLane l f).now = d.now := (rfl)
@[simp] theorem Dev.updLane_freeSeq (d : Dev) (l : Nat) (f : Lane → Lane) : (d.updLane l f).freeSeq = d.freeSeq := (rfl)
@[simp] theorem Dev.updLane_regs (d : Dev) (l : Nat) (f : Lane → Lane) : (d.updLane l f).regs = d.regs := (rfl)
@[simp] theorem Dev.updLane_bus (d : Dev) (l : Nat) (f : Lane → Lane) : (d.updLane l f).bus = d.bus := (rfl)
@[simp] theorem Dev.updLane_path (d : Dev) (l : Nat) (f : Lane → Lane) : (d.updLane l f).path = d.path := (rfl)
@[simp] theorem Dev.updLane_logic (d : Dev) (l : Nat) (f : Lane → Lane) : (d.updLane l f).logic = d.logic := (rfl)
@[simp] theorem Dev.updLane_stageNext (d : Dev) (l : Nat) (f : Lane → Lane) : (d.updLane l f).stageNext = d.stageNext := (rfl)
@[simp] theorem Dev.updLane_slice (d : Dev) (l : Nat) (f : Lane → Lane) : (d.updLane l f).slice = d.slice := (rfl)
@[simp] theorem Dev.updLane_tb (d : Dev) (l : Nat) (f : Lane → Lane) : (d.updLane l f).tb = d.tb := (rfl)
@[simp] theorem Dev.updLane_trg (d : Dev) (l : Nat) (f : Lane → Lane) : (d.updLane l f).trg = d.trg := (rfl)
@[simp] theorem Dev.updLane_dec (d : Dev) (l : Nat) (f : Lane → Lane) : (d.updLane l f).dec = d.dec := (rfl)
@[simp] theorem Dev.updLane_tal (d : Dev) (l : Nat) (f : Lane → Lane) : (d.updLane l f).tal = d.tal := (rfl)
@[simp] theorem Dev.updLane_evi (d : Dev) (l : Nat) (f : Lane → Lane) : (d.updLane l f).evi = d.evi := (rfl)
@[simp] theorem Dev.updLane_ndl (d : Dev) (l : Nat) (f : Lane → Lane) : (d.updLane l f).ndl = d.ndl := (rfl)
@[simp] theorem Dev.updLane_stm (d : Dev) (l : Nat) (f : Lane → Lane) : (d.updLane l f).stm = d.stm := (rfl)
@[simp] theorem Dev.updLane_ben (d : Dev) (l : Nat) (f : Lane → Lane) : (d.updLane l f).ben = d.ben := (rfl)
@[simp] theorem Dev.updLane_link (d : Dev) (l : Nat) (f : Lane → Lane) : (d.updLane l f).link = d.link := (rfl)
@[simp] theorem Dev.updLane_que (d : Dev) (l : Nat) (f : Lane → Lane) : (d.updLane l f).que = d.que := (rfl)
@[simp] theorem Dev.updLane_evr (d : Dev) (l : Nat) (f : Lane → Lane) : (d.updLane l f).evr = d.evr := (rfl)
@[simp] theorem Dev.updLane_xfe (d : Dev) (l : Nat) (f : Lane → Lane) : (d.updLane l f).xfe = d.xfe := (rfl)
@[simp] theorem Dev.updLane_eth (d : Dev) (l : Nat) (f : Lane → Lane) : (d.updLane l f).eth = d.eth := (rfl)
@[simp] theorem Dev.updLane_faKey (d : Dev) (l : Nat) (f : Lane → Lane) : (d.updLane l f).faKey = d.faKey := (rfl)
@[simp] theorem Dev.updLane_syn (d : Dev) (l : Nat) (f : Lane → Lane) : (d.updLane l f).syn = d.syn := (rfl)
@[simp] theorem Dev.updLane_ras (d : Dev) (l : Nat) (f : Lane → Lane) : (d.updLane l f).ras = d.ras := (rfl)
@[simp] theorem Dev.updLane_pwr (d : Dev) (l : Nat) (f : Lane → Lane) : (d.updLane l f).pwr = d.pwr := (rfl)
@[simp] theorem Dev.updLane_sec (d : Dev) (l : Nat) (f : Lane → Lane) : (d.updLane l f).sec = d.sec := (rfl)
@[simp] theorem Dev.updLane_rd (d : Dev) (l : Nat) (f : Lane → Lane) (r : Reg) : (d.updLane l f).rd r = d.rd r :=
  Dev.rd_congr (Dev.updLane_regs d l f) r
@[simp] theorem Dev.updLane_get (d : Dev) (l : Nat) (f : Lane → Lane) (fl : Fld) (m₁ m₂ m₃ : Nat) : (d.updLane l f).get fl m₁ m₂ m₃ = d.get fl m₁ m₂ m₃ :=
  Dev.get_congr (Dev.updLane_regs d l f) fl m₁ m₂ m₃

@[simp] theorem Dev.updNdl_now (d : Dev) (n : Nat) (f : Needle → Needle) : (d.updNdl n f).now = d.now := (rfl)
@[simp] theorem Dev.updNdl_freeSeq (d : Dev) (n : Nat) (f : Needle → Needle) : (d.updNdl n f).freeSeq = d.freeSeq := (rfl)
@[simp] theorem Dev.updNdl_regs (d : Dev) (n : Nat) (f : Needle → Needle) : (d.updNdl n f).regs = d.regs := (rfl)
@[simp] theorem Dev.updNdl_bus (d : Dev) (n : Nat) (f : Needle → Needle) : (d.updNdl n f).bus = d.bus := (rfl)
@[simp] theorem Dev.updNdl_path (d : Dev) (n : Nat) (f : Needle → Needle) : (d.updNdl n f).path = d.path := (rfl)
@[simp] theorem Dev.updNdl_logic (d : Dev) (n : Nat) (f : Needle → Needle) : (d.updNdl n f).logic = d.logic := (rfl)
@[simp] theorem Dev.updNdl_stageNext (d : Dev) (n : Nat) (f : Needle → Needle) : (d.updNdl n f).stageNext = d.stageNext := (rfl)
@[simp] theorem Dev.updNdl_slice (d : Dev) (n : Nat) (f : Needle → Needle) : (d.updNdl n f).slice = d.slice := (rfl)
@[simp] theorem Dev.updNdl_tb (d : Dev) (n : Nat) (f : Needle → Needle) : (d.updNdl n f).tb = d.tb := (rfl)
@[simp] theorem Dev.updNdl_trg (d : Dev) (n : Nat) (f : Needle → Needle) : (d.updNdl n f).trg = d.trg := (rfl)
@[simp] theorem Dev.updNdl_lanes (d : Dev) (n : Nat) (f : Needle → Needle) : (d.updNdl n f).lanes = d.lanes := (rfl)
@[simp] theorem Dev.updNdl_dec (d : Dev) (n : Nat) (f : Needle → Needle) : (d.updNdl n f).dec = d.dec := (rfl)
@[simp] theorem Dev.updNdl_tal (d : Dev) (n : Nat) (f : Needle → Needle) : (d.updNdl n f).tal = d.tal := (rfl)
@[simp] theorem Dev.updNdl_evi (d : Dev) (n : Nat) (f : Needle → Needle) : (d.updNdl n f).evi = d.evi := (rfl)
@[simp] theorem Dev.updNdl_stm (d : Dev) (n : Nat) (f : Needle → Needle) : (d.updNdl n f).stm = d.stm := (rfl)
@[simp] theorem Dev.updNdl_ben (d : Dev) (n : Nat) (f : Needle → Needle) : (d.updNdl n f).ben = d.ben := (rfl)
@[simp] theorem Dev.updNdl_link (d : Dev) (n : Nat) (f : Needle → Needle) : (d.updNdl n f).link = d.link := (rfl)
@[simp] theorem Dev.updNdl_que (d : Dev) (n : Nat) (f : Needle → Needle) : (d.updNdl n f).que = d.que := (rfl)
@[simp] theorem Dev.updNdl_evr (d : Dev) (n : Nat) (f : Needle → Needle) : (d.updNdl n f).evr = d.evr := (rfl)
@[simp] theorem Dev.updNdl_xfe (d : Dev) (n : Nat) (f : Needle → Needle) : (d.updNdl n f).xfe = d.xfe := (rfl)
@[simp] theorem Dev.updNdl_eth (d : Dev) (n : Nat) (f : Needle → Needle) : (d.updNdl n f).eth = d.eth := (rfl)
@[simp] theorem Dev.updNdl_faKey (d : Dev) (n : Nat) (f : Needle → Needle) : (d.updNdl n f).faKey = d.faKey := (rfl)
@[simp] theorem Dev.updNdl_syn (d : Dev) (n : Nat) (f : Needle → Needle) : (d.updNdl n f).syn = d.syn := (rfl)
@[simp] theorem Dev.updNdl_ras (d : Dev) (n : Nat) (f : Needle → Needle) : (d.updNdl n f).ras = d.ras := (rfl)
@[simp] theorem Dev.updNdl_pwr (d : Dev) (n : Nat) (f : Needle → Needle) : (d.updNdl n f).pwr = d.pwr := (rfl)
@[simp] theorem Dev.updNdl_sec (d : Dev) (n : Nat) (f : Needle → Needle) : (d.updNdl n f).sec = d.sec := (rfl)
@[simp] theorem Dev.updNdl_rd (d : Dev) (n : Nat) (f : Needle → Needle) (r : Reg) : (d.updNdl n f).rd r = d.rd r :=
  Dev.rd_congr (Dev.updNdl_regs d n f) r
@[simp] theorem Dev.updNdl_get (d : Dev) (n : Nat) (f : Needle → Needle) (fl : Fld) (m₁ m₂ m₃ : Nat) : (d.updNdl n f).get fl m₁ m₂ m₃ = d.get fl m₁ m₂ m₃ :=
  Dev.get_congr (Dev.updNdl_regs d n f) fl m₁ m₂ m₃

@[simp] theorem Dev.updSlice_now (d : Dev) (n : Nat) (f : Slice → Slice) : (d.updSlice n f).now = d.now := (rfl)
@[simp] theorem Dev.updSlice_freeSeq (d : Dev) (n : Nat) (f : Slice → Slice) : (d.updSlice n f).freeSeq = d.freeSeq := (rfl)
@[simp] theorem Dev.updSlice_regs (d : Dev) (n : Nat) (f : Slice → Slice) : (d.updSlice n f).regs = d.regs := (rfl)
@[simp] theorem Dev.updSlice_bus (d : Dev) (n : Nat) (f : Slice → Slice) : (d.updSlice n f).bus = d.bus := (rfl)
@[simp] theorem Dev.updSlice_path (d : Dev) (n : Nat) (f : Slice → Slice) : (d.updSlice n f).path = d.path := (rfl)
@[simp] theorem Dev.updSlice_logic (d : Dev) (n : Nat) (f : Slice → Slice) : (d.updSlice n f).logic = d.logic := (rfl)
@[simp] theorem Dev.updSlice_stageNext (d : Dev) (n : Nat) (f : Slice → Slice) : (d.updSlice n f).stageNext = d.stageNext := (rfl)
@[simp] theorem Dev.updSlice_tb (d : Dev) (n : Nat) (f : Slice → Slice) : (d.updSlice n f).tb = d.tb := (rfl)
@[simp] theorem Dev.updSlice_trg (d : Dev) (n : Nat) (f : Slice → Slice) : (d.updSlice n f).trg = d.trg := (rfl)
@[simp] theorem Dev.updSlice_lanes (d : Dev) (n : Nat) (f : Slice → Slice) : (d.updSlice n f).lanes = d.lanes := (rfl)
@[simp] theorem Dev.updSlice_dec (d : Dev) (n : Nat) (f : Slice → Slice) : (d.updSlice n f).dec = d.dec := (rfl)
@[simp] theorem Dev.updSlice_tal (d : Dev) (n : Nat) (f : Slice → Slice) : (d.updSlice n f).tal = d.tal := (rfl)
@[simp] theorem Dev.updSlice_evi (d : Dev) (n : Nat) (f : Slice → Slice) : (d.updSlice n f).evi = d.evi := (rfl)
@[simp] theorem Dev.updSlice_ndl (d : Dev) (n : Nat) (f : Slice → Slice) : (d.updSlice n f).ndl = d.ndl := (rfl)
@[simp] theorem Dev.updSlice_stm (d : Dev) (n : Nat) (f : Slice → Slice) : (d.updSlice n f).stm = d.stm := (rfl)
@[simp] theorem Dev.updSlice_ben (d : Dev) (n : Nat) (f : Slice → Slice) : (d.updSlice n f).ben = d.ben := (rfl)
@[simp] theorem Dev.updSlice_link (d : Dev) (n : Nat) (f : Slice → Slice) : (d.updSlice n f).link = d.link := (rfl)
@[simp] theorem Dev.updSlice_que (d : Dev) (n : Nat) (f : Slice → Slice) : (d.updSlice n f).que = d.que := (rfl)
@[simp] theorem Dev.updSlice_evr (d : Dev) (n : Nat) (f : Slice → Slice) : (d.updSlice n f).evr = d.evr := (rfl)
@[simp] theorem Dev.updSlice_xfe (d : Dev) (n : Nat) (f : Slice → Slice) : (d.updSlice n f).xfe = d.xfe := (rfl)
@[simp] theorem Dev.updSlice_eth (d : Dev) (n : Nat) (f : Slice → Slice) : (d.updSlice n f).eth = d.eth := (rfl)
@[simp] theorem Dev.updSlice_faKey (d : Dev) (n : Nat) (f : Slice → Slice) : (d.updSlice n f).faKey = d.faKey := (rfl)
@[simp] theorem Dev.updSlice_syn (d : Dev) (n : Nat) (f : Slice → Slice) : (d.updSlice n f).syn = d.syn := (rfl)
@[simp] theorem Dev.updSlice_ras (d : Dev) (n : Nat) (f : Slice → Slice) : (d.updSlice n f).ras = d.ras := (rfl)
@[simp] theorem Dev.updSlice_pwr (d : Dev) (n : Nat) (f : Slice → Slice) : (d.updSlice n f).pwr = d.pwr := (rfl)
@[simp] theorem Dev.updSlice_sec (d : Dev) (n : Nat) (f : Slice → Slice) : (d.updSlice n f).sec = d.sec := (rfl)
@[simp] theorem Dev.updSlice_rd (d : Dev) (n : Nat) (f : Slice → Slice) (r : Reg) : (d.updSlice n f).rd r = d.rd r :=
  Dev.rd_congr (Dev.updSlice_regs d n f) r
@[simp] theorem Dev.updSlice_get (d : Dev) (n : Nat) (f : Slice → Slice) (fl : Fld) (m₁ m₂ m₃ : Nat) : (d.updSlice n f).get fl m₁ m₂ m₃ = d.get fl m₁ m₂ m₃ :=
  Dev.get_congr (Dev.updSlice_regs d n f) fl m₁ m₂ m₃

@[simp] theorem Dev.updGroup_now (d : Dev) (n h : Nat) (f : Group → Group) : (d.updGroup n h f).now = d.now := (rfl)
@[simp] theorem Dev.updGroup_freeSeq (d : Dev) (n h : Nat) (f : Group → Group) : (d.updGroup n h f).freeSeq = d.freeSeq := (rfl)
@[simp] theorem Dev.updGroup_regs (d : Dev) (n h : Nat) (f : Group → Group) : (d.updGroup n h f).regs = d.regs := (rfl)
@[simp] theorem Dev.updGroup_bus (d : Dev) (n h : Nat) (f : Group → Group) : (d.updGroup n h f).bus = d.bus := (rfl)
@[simp] theorem Dev.updGroup_path (d : Dev) (n h : Nat) (f : Group → Group) : (d.updGroup n h f).path = d.path := (rfl)
@[simp] theorem Dev.updGroup_logic (d : Dev) (n h : Nat) (f : Group → Group) : (d.updGroup n h f).logic = d.logic := (rfl)
@[simp] theorem Dev.updGroup_stageNext (d : Dev) (n h : Nat) (f : Group → Group) : (d.updGroup n h f).stageNext = d.stageNext := (rfl)
@[simp] theorem Dev.updGroup_tb (d : Dev) (n h : Nat) (f : Group → Group) : (d.updGroup n h f).tb = d.tb := (rfl)
@[simp] theorem Dev.updGroup_trg (d : Dev) (n h : Nat) (f : Group → Group) : (d.updGroup n h f).trg = d.trg := (rfl)
@[simp] theorem Dev.updGroup_lanes (d : Dev) (n h : Nat) (f : Group → Group) : (d.updGroup n h f).lanes = d.lanes := (rfl)
@[simp] theorem Dev.updGroup_dec (d : Dev) (n h : Nat) (f : Group → Group) : (d.updGroup n h f).dec = d.dec := (rfl)
@[simp] theorem Dev.updGroup_tal (d : Dev) (n h : Nat) (f : Group → Group) : (d.updGroup n h f).tal = d.tal := (rfl)
@[simp] theorem Dev.updGroup_evi (d : Dev) (n h : Nat) (f : Group → Group) : (d.updGroup n h f).evi = d.evi := (rfl)
@[simp] theorem Dev.updGroup_ndl (d : Dev) (n h : Nat) (f : Group → Group) : (d.updGroup n h f).ndl = d.ndl := (rfl)
@[simp] theorem Dev.updGroup_stm (d : Dev) (n h : Nat) (f : Group → Group) : (d.updGroup n h f).stm = d.stm := (rfl)
@[simp] theorem Dev.updGroup_ben (d : Dev) (n h : Nat) (f : Group → Group) : (d.updGroup n h f).ben = d.ben := (rfl)
@[simp] theorem Dev.updGroup_link (d : Dev) (n h : Nat) (f : Group → Group) : (d.updGroup n h f).link = d.link := (rfl)
@[simp] theorem Dev.updGroup_que (d : Dev) (n h : Nat) (f : Group → Group) : (d.updGroup n h f).que = d.que := (rfl)
@[simp] theorem Dev.updGroup_evr (d : Dev) (n h : Nat) (f : Group → Group) : (d.updGroup n h f).evr = d.evr := (rfl)
@[simp] theorem Dev.updGroup_xfe (d : Dev) (n h : Nat) (f : Group → Group) : (d.updGroup n h f).xfe = d.xfe := (rfl)
@[simp] theorem Dev.updGroup_eth (d : Dev) (n h : Nat) (f : Group → Group) : (d.updGroup n h f).eth = d.eth := (rfl)
@[simp] theorem Dev.updGroup_faKey (d : Dev) (n h : Nat) (f : Group → Group) : (d.updGroup n h f).faKey = d.faKey := (rfl)
@[simp] theorem Dev.updGroup_syn (d : Dev) (n h : Nat) (f : Group → Group) : (d.updGroup n h f).syn = d.syn := (rfl)
@[simp] theorem Dev.updGroup_ras (d : Dev) (n h : Nat) (f : Group → Group) : (d.updGroup n h f).ras = d.ras := (rfl)
@[simp] theorem Dev.updGroup_pwr (d : Dev) (n h : Nat) (f : Group → Group) : (d.updGroup n h f).pwr = d.pwr := (rfl)
@[simp] theorem Dev.updGroup_sec (d : Dev) (n h : Nat) (f : Group → Group) : (d.updGroup n h f).sec = d.sec := (rfl)
@[simp] theorem Dev.updGroup_rd (d : Dev) (n h : Nat) (f : Group → Group) (r : Reg) : (d.updGroup n h f).rd r = d.rd r :=
  Dev.rd_congr (Dev.updGroup_regs d n h f) r
@[simp] theorem Dev.updGroup_get (d : Dev) (n h : Nat) (f : Group → Group) (fl : Fld) (m₁ m₂ m₃ : Nat) : (d.updGroup n h f).get fl m₁ m₂ m₃ = d.get fl m₁ m₂ m₃ :=
  Dev.get_congr (Dev.updGroup_regs d n h f) fl m₁ m₂ m₃

@[simp] theorem Dev.updDec_now (d : Dev) (n : Nat) (f : DecUnit → DecUnit) : (d.updDec n f).now = d.now := (rfl)
@[simp] theorem Dev.updDec_freeSeq (d : Dev) (n : Nat) (f : DecUnit → DecUnit) : (d.updDec n f).freeSeq = d.freeSeq := (rfl)
@[simp] theorem Dev.updDec_regs (d : Dev) (n : Nat) (f : DecUnit → DecUnit) : (d.updDec n f).regs = d.regs := (rfl)
@[simp] theorem Dev.updDec_bus (d : Dev) (n : Nat) (f : DecUnit → DecUnit) : (d.updDec n f).bus = d.bus := (rfl)
@[simp] theorem Dev.updDec_path (d : Dev) (n : Nat) (f : DecUnit → DecUnit) : (d.updDec n f).path = d.path := (rfl)
@[simp] theorem Dev.updDec_logic (d : Dev) (n : Nat) (f : DecUnit → DecUnit) : (d.updDec n f).logic = d.logic := (rfl)
@[simp] theorem Dev.updDec_stageNext (d : Dev) (n : Nat) (f : DecUnit → DecUnit) : (d.updDec n f).stageNext = d.stageNext := (rfl)
@[simp] theorem Dev.updDec_slice (d : Dev) (n : Nat) (f : DecUnit → DecUnit) : (d.updDec n f).slice = d.slice := (rfl)
@[simp] theorem Dev.updDec_tb (d : Dev) (n : Nat) (f : DecUnit → DecUnit) : (d.updDec n f).tb = d.tb := (rfl)
@[simp] theorem Dev.updDec_trg (d : Dev) (n : Nat) (f : DecUnit → DecUnit) : (d.updDec n f).trg = d.trg := (rfl)
@[simp] theorem Dev.updDec_lanes (d : Dev) (n : Nat) (f : DecUnit → DecUnit) : (d.updDec n f).lanes = d.lanes := (rfl)
@[simp] theorem Dev.updDec_tal (d : Dev) (n : Nat) (f : DecUnit → DecUnit) : (d.updDec n f).tal = d.tal := (rfl)
@[simp] theorem Dev.updDec_evi (d : Dev) (n : Nat) (f : DecUnit → DecUnit) : (d.updDec n f).evi = d.evi := (rfl)
@[simp] theorem Dev.updDec_ndl (d : Dev) (n : Nat) (f : DecUnit → DecUnit) : (d.updDec n f).ndl = d.ndl := (rfl)
@[simp] theorem Dev.updDec_stm (d : Dev) (n : Nat) (f : DecUnit → DecUnit) : (d.updDec n f).stm = d.stm := (rfl)
@[simp] theorem Dev.updDec_ben (d : Dev) (n : Nat) (f : DecUnit → DecUnit) : (d.updDec n f).ben = d.ben := (rfl)
@[simp] theorem Dev.updDec_link (d : Dev) (n : Nat) (f : DecUnit → DecUnit) : (d.updDec n f).link = d.link := (rfl)
@[simp] theorem Dev.updDec_que (d : Dev) (n : Nat) (f : DecUnit → DecUnit) : (d.updDec n f).que = d.que := (rfl)
@[simp] theorem Dev.updDec_evr (d : Dev) (n : Nat) (f : DecUnit → DecUnit) : (d.updDec n f).evr = d.evr := (rfl)
@[simp] theorem Dev.updDec_xfe (d : Dev) (n : Nat) (f : DecUnit → DecUnit) : (d.updDec n f).xfe = d.xfe := (rfl)
@[simp] theorem Dev.updDec_eth (d : Dev) (n : Nat) (f : DecUnit → DecUnit) : (d.updDec n f).eth = d.eth := (rfl)
@[simp] theorem Dev.updDec_faKey (d : Dev) (n : Nat) (f : DecUnit → DecUnit) : (d.updDec n f).faKey = d.faKey := (rfl)
@[simp] theorem Dev.updDec_syn (d : Dev) (n : Nat) (f : DecUnit → DecUnit) : (d.updDec n f).syn = d.syn := (rfl)
@[simp] theorem Dev.updDec_ras (d : Dev) (n : Nat) (f : DecUnit → DecUnit) : (d.updDec n f).ras = d.ras := (rfl)
@[simp] theorem Dev.updDec_pwr (d : Dev) (n : Nat) (f : DecUnit → DecUnit) : (d.updDec n f).pwr = d.pwr := (rfl)
@[simp] theorem Dev.updDec_sec (d : Dev) (n : Nat) (f : DecUnit → DecUnit) : (d.updDec n f).sec = d.sec := (rfl)
@[simp] theorem Dev.updDec_rd (d : Dev) (n : Nat) (f : DecUnit → DecUnit) (r : Reg) : (d.updDec n f).rd r = d.rd r :=
  Dev.rd_congr (Dev.updDec_regs d n f) r
@[simp] theorem Dev.updDec_get (d : Dev) (n : Nat) (f : DecUnit → DecUnit) (fl : Fld) (m₁ m₂ m₃ : Nat) : (d.updDec n f).get fl m₁ m₂ m₃ = d.get fl m₁ m₂ m₃ :=
  Dev.get_congr (Dev.updDec_regs d n f) fl m₁ m₂ m₃

@[simp] theorem Dev.updIn_now (d : Dev) (n : Nat) (f : EvIn → EvIn) : (d.updIn n f).now = d.now := (rfl)
@[simp] theorem Dev.updIn_freeSeq (d : Dev) (n : Nat) (f : EvIn → EvIn) : (d.updIn n f).freeSeq = d.freeSeq := (rfl)
@[simp] theorem Dev.updIn_regs (d : Dev) (n : Nat) (f : EvIn → EvIn) : (d.updIn n f).regs = d.regs := (rfl)
@[simp] theorem Dev.updIn_bus (d : Dev) (n : Nat) (f : EvIn → EvIn) : (d.updIn n f).bus = d.bus := (rfl)
@[simp] theorem Dev.updIn_path (d : Dev) (n : Nat) (f : EvIn → EvIn) : (d.updIn n f).path = d.path := (rfl)
@[simp] theorem Dev.updIn_logic (d : Dev) (n : Nat) (f : EvIn → EvIn) : (d.updIn n f).logic = d.logic := (rfl)
@[simp] theorem Dev.updIn_stageNext (d : Dev) (n : Nat) (f : EvIn → EvIn) : (d.updIn n f).stageNext = d.stageNext := (rfl)
@[simp] theorem Dev.updIn_slice (d : Dev) (n : Nat) (f : EvIn → EvIn) : (d.updIn n f).slice = d.slice := (rfl)
@[simp] theorem Dev.updIn_tb (d : Dev) (n : Nat) (f : EvIn → EvIn) : (d.updIn n f).tb = d.tb := (rfl)
@[simp] theorem Dev.updIn_trg (d : Dev) (n : Nat) (f : EvIn → EvIn) : (d.updIn n f).trg = d.trg := (rfl)
@[simp] theorem Dev.updIn_lanes (d : Dev) (n : Nat) (f : EvIn → EvIn) : (d.updIn n f).lanes = d.lanes := (rfl)
@[simp] theorem Dev.updIn_dec (d : Dev) (n : Nat) (f : EvIn → EvIn) : (d.updIn n f).dec = d.dec := (rfl)
@[simp] theorem Dev.updIn_tal (d : Dev) (n : Nat) (f : EvIn → EvIn) : (d.updIn n f).tal = d.tal := (rfl)
@[simp] theorem Dev.updIn_ndl (d : Dev) (n : Nat) (f : EvIn → EvIn) : (d.updIn n f).ndl = d.ndl := (rfl)
@[simp] theorem Dev.updIn_stm (d : Dev) (n : Nat) (f : EvIn → EvIn) : (d.updIn n f).stm = d.stm := (rfl)
@[simp] theorem Dev.updIn_ben (d : Dev) (n : Nat) (f : EvIn → EvIn) : (d.updIn n f).ben = d.ben := (rfl)
@[simp] theorem Dev.updIn_link (d : Dev) (n : Nat) (f : EvIn → EvIn) : (d.updIn n f).link = d.link := (rfl)
@[simp] theorem Dev.updIn_que (d : Dev) (n : Nat) (f : EvIn → EvIn) : (d.updIn n f).que = d.que := (rfl)
@[simp] theorem Dev.updIn_evr (d : Dev) (n : Nat) (f : EvIn → EvIn) : (d.updIn n f).evr = d.evr := (rfl)
@[simp] theorem Dev.updIn_xfe (d : Dev) (n : Nat) (f : EvIn → EvIn) : (d.updIn n f).xfe = d.xfe := (rfl)
@[simp] theorem Dev.updIn_eth (d : Dev) (n : Nat) (f : EvIn → EvIn) : (d.updIn n f).eth = d.eth := (rfl)
@[simp] theorem Dev.updIn_faKey (d : Dev) (n : Nat) (f : EvIn → EvIn) : (d.updIn n f).faKey = d.faKey := (rfl)
@[simp] theorem Dev.updIn_syn (d : Dev) (n : Nat) (f : EvIn → EvIn) : (d.updIn n f).syn = d.syn := (rfl)
@[simp] theorem Dev.updIn_ras (d : Dev) (n : Nat) (f : EvIn → EvIn) : (d.updIn n f).ras = d.ras := (rfl)
@[simp] theorem Dev.updIn_pwr (d : Dev) (n : Nat) (f : EvIn → EvIn) : (d.updIn n f).pwr = d.pwr := (rfl)
@[simp] theorem Dev.updIn_sec (d : Dev) (n : Nat) (f : EvIn → EvIn) : (d.updIn n f).sec = d.sec := (rfl)
@[simp] theorem Dev.updIn_rd (d : Dev) (n : Nat) (f : EvIn → EvIn) (r : Reg) : (d.updIn n f).rd r = d.rd r :=
  Dev.rd_congr (Dev.updIn_regs d n f) r
@[simp] theorem Dev.updIn_get (d : Dev) (n : Nat) (f : EvIn → EvIn) (fl : Fld) (m₁ m₂ m₃ : Nat) : (d.updIn n f).get fl m₁ m₂ m₃ = d.get fl m₁ m₂ m₃ :=
  Dev.get_congr (Dev.updIn_regs d n f) fl m₁ m₂ m₃

@[simp] theorem Dev.updIu_now (d : Dev) (n : Nat) (f : Iu → Iu) : (d.updIu n f).now = d.now := (rfl)
@[simp] theorem Dev.updIu_freeSeq (d : Dev) (n : Nat) (f : Iu → Iu) : (d.updIu n f).freeSeq = d.freeSeq := (rfl)
@[simp] theorem Dev.updIu_regs (d : Dev) (n : Nat) (f : Iu → Iu) : (d.updIu n f).regs = d.regs := (rfl)
@[simp] theorem Dev.updIu_bus (d : Dev) (n : Nat) (f : Iu → Iu) : (d.updIu n f).bus = d.bus := (rfl)
@[simp] theorem Dev.updIu_path (d : Dev) (n : Nat) (f : Iu → Iu) : (d.updIu n f).path = d.path := (rfl)
@[simp] theorem Dev.updIu_logic (d : Dev) (n : Nat) (f : Iu → Iu) : (d.updIu n f).logic = d.logic := (rfl)
@[simp] theorem Dev.updIu_stageNext (d : Dev) (n : Nat) (f : Iu → Iu) : (d.updIu n f).stageNext = d.stageNext := (rfl)
@[simp] theorem Dev.updIu_slice (d : Dev) (n : Nat) (f : Iu → Iu) : (d.updIu n f).slice = d.slice := (rfl)
@[simp] theorem Dev.updIu_tb (d : Dev) (n : Nat) (f : Iu → Iu) : (d.updIu n f).tb = d.tb := (rfl)
@[simp] theorem Dev.updIu_trg (d : Dev) (n : Nat) (f : Iu → Iu) : (d.updIu n f).trg = d.trg := (rfl)
@[simp] theorem Dev.updIu_lanes (d : Dev) (n : Nat) (f : Iu → Iu) : (d.updIu n f).lanes = d.lanes := (rfl)
@[simp] theorem Dev.updIu_dec (d : Dev) (n : Nat) (f : Iu → Iu) : (d.updIu n f).dec = d.dec := (rfl)
@[simp] theorem Dev.updIu_tal (d : Dev) (n : Nat) (f : Iu → Iu) : (d.updIu n f).tal = d.tal := (rfl)
@[simp] theorem Dev.updIu_ndl (d : Dev) (n : Nat) (f : Iu → Iu) : (d.updIu n f).ndl = d.ndl := (rfl)
@[simp] theorem Dev.updIu_stm (d : Dev) (n : Nat) (f : Iu → Iu) : (d.updIu n f).stm = d.stm := (rfl)
@[simp] theorem Dev.updIu_ben (d : Dev) (n : Nat) (f : Iu → Iu) : (d.updIu n f).ben = d.ben := (rfl)
@[simp] theorem Dev.updIu_link (d : Dev) (n : Nat) (f : Iu → Iu) : (d.updIu n f).link = d.link := (rfl)
@[simp] theorem Dev.updIu_que (d : Dev) (n : Nat) (f : Iu → Iu) : (d.updIu n f).que = d.que := (rfl)
@[simp] theorem Dev.updIu_evr (d : Dev) (n : Nat) (f : Iu → Iu) : (d.updIu n f).evr = d.evr := (rfl)
@[simp] theorem Dev.updIu_xfe (d : Dev) (n : Nat) (f : Iu → Iu) : (d.updIu n f).xfe = d.xfe := (rfl)
@[simp] theorem Dev.updIu_eth (d : Dev) (n : Nat) (f : Iu → Iu) : (d.updIu n f).eth = d.eth := (rfl)
@[simp] theorem Dev.updIu_faKey (d : Dev) (n : Nat) (f : Iu → Iu) : (d.updIu n f).faKey = d.faKey := (rfl)
@[simp] theorem Dev.updIu_syn (d : Dev) (n : Nat) (f : Iu → Iu) : (d.updIu n f).syn = d.syn := (rfl)
@[simp] theorem Dev.updIu_ras (d : Dev) (n : Nat) (f : Iu → Iu) : (d.updIu n f).ras = d.ras := (rfl)
@[simp] theorem Dev.updIu_pwr (d : Dev) (n : Nat) (f : Iu → Iu) : (d.updIu n f).pwr = d.pwr := (rfl)
@[simp] theorem Dev.updIu_sec (d : Dev) (n : Nat) (f : Iu → Iu) : (d.updIu n f).sec = d.sec := (rfl)
@[simp] theorem Dev.updIu_rd (d : Dev) (n : Nat) (f : Iu → Iu) (r : Reg) : (d.updIu n f).rd r = d.rd r :=
  Dev.rd_congr (Dev.updIu_regs d n f) r
@[simp] theorem Dev.updIu_get (d : Dev) (n : Nat) (f : Iu → Iu) (fl : Fld) (m₁ m₂ m₃ : Nat) : (d.updIu n f).get fl m₁ m₂ m₃ = d.get fl m₁ m₂ m₃ :=
  Dev.get_congr (Dev.updIu_regs d n f) fl m₁ m₂ m₃

@[simp] theorem Dev.updTgt_now (d : Dev) (n : Nat) (f : Target → Target) : (d.updTgt n f).now = d.now := (rfl)
@[simp] theorem Dev.updTgt_freeSeq (d : Dev) (n : Nat) (f : Target → Target) : (d.updTgt n f).freeSeq = d.freeSeq := (rfl)
@[simp] theorem Dev.updTgt_regs (d : Dev) (n : Nat) (f : Target → Target) : (d.updTgt n f).regs = d.regs := (rfl)
@[simp] theorem Dev.updTgt_bus (d : Dev) (n : Nat) (f : Target → Target) : (d.updTgt n f).bus = d.bus := (rfl)
@[simp] theorem Dev.updTgt_path (d : Dev) (n : Nat) (f : Target → Target) : (d.updTgt n f).path = d.path := (rfl)
@[simp] theorem Dev.updTgt_logic (d : Dev) (n : Nat) (f : Target → Target) : (d.updTgt n f).logic = d.logic := (rfl)
@[simp] theorem Dev.updTgt_stageNext (d : Dev) (n : Nat) (f : Target → Target) : (d.updTgt n f).stageNext = d.stageNext := (rfl)
@[simp] theorem Dev.updTgt_slice (d : Dev) (n : Nat) (f : Target → Target) : (d.updTgt n f).slice = d.slice := (rfl)
@[simp] theorem Dev.updTgt_tb (d : Dev) (n : Nat) (f : Target → Target) : (d.updTgt n f).tb = d.tb := (rfl)
@[simp] theorem Dev.updTgt_trg (d : Dev) (n : Nat) (f : Target → Target) : (d.updTgt n f).trg = d.trg := (rfl)
@[simp] theorem Dev.updTgt_lanes (d : Dev) (n : Nat) (f : Target → Target) : (d.updTgt n f).lanes = d.lanes := (rfl)
@[simp] theorem Dev.updTgt_dec (d : Dev) (n : Nat) (f : Target → Target) : (d.updTgt n f).dec = d.dec := (rfl)
@[simp] theorem Dev.updTgt_tal (d : Dev) (n : Nat) (f : Target → Target) : (d.updTgt n f).tal = d.tal := (rfl)
@[simp] theorem Dev.updTgt_evi (d : Dev) (n : Nat) (f : Target → Target) : (d.updTgt n f).evi = d.evi := (rfl)
@[simp] theorem Dev.updTgt_ndl (d : Dev) (n : Nat) (f : Target → Target) : (d.updTgt n f).ndl = d.ndl := (rfl)
@[simp] theorem Dev.updTgt_stm (d : Dev) (n : Nat) (f : Target → Target) : (d.updTgt n f).stm = d.stm := (rfl)
@[simp] theorem Dev.updTgt_link (d : Dev) (n : Nat) (f : Target → Target) : (d.updTgt n f).link = d.link := (rfl)
@[simp] theorem Dev.updTgt_que (d : Dev) (n : Nat) (f : Target → Target) : (d.updTgt n f).que = d.que := (rfl)
@[simp] theorem Dev.updTgt_evr (d : Dev) (n : Nat) (f : Target → Target) : (d.updTgt n f).evr = d.evr := (rfl)
@[simp] theorem Dev.updTgt_xfe (d : Dev) (n : Nat) (f : Target → Target) : (d.updTgt n f).xfe = d.xfe := (rfl)
@[simp] theorem Dev.updTgt_eth (d : Dev) (n : Nat) (f : Target → Target) : (d.updTgt n f).eth = d.eth := (rfl)
@[simp] theorem Dev.updTgt_faKey (d : Dev) (n : Nat) (f : Target → Target) : (d.updTgt n f).faKey = d.faKey := (rfl)
@[simp] theorem Dev.updTgt_syn (d : Dev) (n : Nat) (f : Target → Target) : (d.updTgt n f).syn = d.syn := (rfl)
@[simp] theorem Dev.updTgt_ras (d : Dev) (n : Nat) (f : Target → Target) : (d.updTgt n f).ras = d.ras := (rfl)
@[simp] theorem Dev.updTgt_pwr (d : Dev) (n : Nat) (f : Target → Target) : (d.updTgt n f).pwr = d.pwr := (rfl)
@[simp] theorem Dev.updTgt_sec (d : Dev) (n : Nat) (f : Target → Target) : (d.updTgt n f).sec = d.sec := (rfl)
@[simp] theorem Dev.updTgt_rd (d : Dev) (n : Nat) (f : Target → Target) (r : Reg) : (d.updTgt n f).rd r = d.rd r :=
  Dev.rd_congr (Dev.updTgt_regs d n f) r
@[simp] theorem Dev.updTgt_get (d : Dev) (n : Nat) (f : Target → Target) (fl : Fld) (m₁ m₂ m₃ : Nat) : (d.updTgt n f).get fl m₁ m₂ m₃ = d.get fl m₁ m₂ m₃ :=
  Dev.get_congr (Dev.updTgt_regs d n f) fl m₁ m₂ m₃

@[simp] theorem Dev.updPort_now (d : Dev) (n : Nat) (f : Port → Port) : (d.updPort n f).now = d.now := (rfl)
@[simp] theorem Dev.updPort_freeSeq (d : Dev) (n : Nat) (f : Port → Port) : (d.updPort n f).freeSeq = d.freeSeq := (rfl)
@[simp] theorem Dev.updPort_regs (d : Dev) (n : Nat) (f : Port → Port) : (d.updPort n f).regs = d.regs := (rfl)
@[simp] theorem Dev.updPort_bus (d : Dev) (n : Nat) (f : Port → Port) : (d.updPort n f).bus = d.bus := (rfl)
@[simp] theorem Dev.updPort_path (d : Dev) (n : Nat) (f : Port → Port) : (d.updPort n f).path = d.path := (rfl)
@[simp] theorem Dev.updPort_logic (d : Dev) (n : Nat) (f : Port → Port) : (d.updPort n f).logic = d.logic := (rfl)
@[simp] theorem Dev.updPort_stageNext (d : Dev) (n : Nat) (f : Port → Port) : (d.updPort n f).stageNext = d.stageNext := (rfl)
@[simp] theorem Dev.updPort_slice (d : Dev) (n : Nat) (f : Port → Port) : (d.updPort n f).slice = d.slice := (rfl)
@[simp] theorem Dev.updPort_tb (d : Dev) (n : Nat) (f : Port → Port) : (d.updPort n f).tb = d.tb := (rfl)
@[simp] theorem Dev.updPort_trg (d : Dev) (n : Nat) (f : Port → Port) : (d.updPort n f).trg = d.trg := (rfl)
@[simp] theorem Dev.updPort_lanes (d : Dev) (n : Nat) (f : Port → Port) : (d.updPort n f).lanes = d.lanes := (rfl)
@[simp] theorem Dev.updPort_dec (d : Dev) (n : Nat) (f : Port → Port) : (d.updPort n f).dec = d.dec := (rfl)
@[simp] theorem Dev.updPort_tal (d : Dev) (n : Nat) (f : Port → Port) : (d.updPort n f).tal = d.tal := (rfl)
@[simp] theorem Dev.updPort_evi (d : Dev) (n : Nat) (f : Port → Port) : (d.updPort n f).evi = d.evi := (rfl)
@[simp] theorem Dev.updPort_ndl (d : Dev) (n : Nat) (f : Port → Port) : (d.updPort n f).ndl = d.ndl := (rfl)
@[simp] theorem Dev.updPort_stm (d : Dev) (n : Nat) (f : Port → Port) : (d.updPort n f).stm = d.stm := (rfl)
@[simp] theorem Dev.updPort_ben (d : Dev) (n : Nat) (f : Port → Port) : (d.updPort n f).ben = d.ben := (rfl)
@[simp] theorem Dev.updPort_link (d : Dev) (n : Nat) (f : Port → Port) : (d.updPort n f).link = d.link := (rfl)
@[simp] theorem Dev.updPort_que (d : Dev) (n : Nat) (f : Port → Port) : (d.updPort n f).que = d.que := (rfl)
@[simp] theorem Dev.updPort_evr (d : Dev) (n : Nat) (f : Port → Port) : (d.updPort n f).evr = d.evr := (rfl)
@[simp] theorem Dev.updPort_xfe (d : Dev) (n : Nat) (f : Port → Port) : (d.updPort n f).xfe = d.xfe := (rfl)
@[simp] theorem Dev.updPort_faKey (d : Dev) (n : Nat) (f : Port → Port) : (d.updPort n f).faKey = d.faKey := (rfl)
@[simp] theorem Dev.updPort_syn (d : Dev) (n : Nat) (f : Port → Port) : (d.updPort n f).syn = d.syn := (rfl)
@[simp] theorem Dev.updPort_ras (d : Dev) (n : Nat) (f : Port → Port) : (d.updPort n f).ras = d.ras := (rfl)
@[simp] theorem Dev.updPort_pwr (d : Dev) (n : Nat) (f : Port → Port) : (d.updPort n f).pwr = d.pwr := (rfl)
@[simp] theorem Dev.updPort_sec (d : Dev) (n : Nat) (f : Port → Port) : (d.updPort n f).sec = d.sec := (rfl)
@[simp] theorem Dev.updPort_rd (d : Dev) (n : Nat) (f : Port → Port) (r : Reg) : (d.updPort n f).rd r = d.rd r :=
  Dev.rd_congr (Dev.updPort_regs d n f) r
@[simp] theorem Dev.updPort_get (d : Dev) (n : Nat) (f : Port → Port) (fl : Fld) (m₁ m₂ m₃ : Nat) : (d.updPort n f).get fl m₁ m₂ m₃ = d.get fl m₁ m₂ m₃ :=
  Dev.get_congr (Dev.updPort_regs d n f) fl m₁ m₂ m₃

@[simp] theorem Dev.updStream_now (d : Dev) (n : Nat) (f : Stream → Stream) : (d.updStream n f).now = d.now := (rfl)
@[simp] theorem Dev.updStream_freeSeq (d : Dev) (n : Nat) (f : Stream → Stream) : (d.updStream n f).freeSeq = d.freeSeq := (rfl)
@[simp] theorem Dev.updStream_regs (d : Dev) (n : Nat) (f : Stream → Stream) : (d.updStream n f).regs = d.regs := (rfl)
@[simp] theorem Dev.updStream_bus (d : Dev) (n : Nat) (f : Stream → Stream) : (d.updStream n f).bus = d.bus := (rfl)
@[simp] theorem Dev.updStream_path (d : Dev) (n : Nat) (f : Stream → Stream) : (d.updStream n f).path = d.path := (rfl)
@[simp] theorem Dev.updStream_logic (d : Dev) (n : Nat) (f : Stream → Stream) : (d.updStream n f).logic = d.logic := (rfl)
@[simp] theorem Dev.updStream_stageNext (d : Dev) (n : Nat) (f : Stream → Stream) : (d.updStream n f).stageNext = d.stageNext := (rfl)
@[simp] theorem Dev.updStream_slice (d : Dev) (n : Nat) (f : Stream → Stream) : (d.updStream n f).slice = d.slice := (rfl)
@[simp] theorem Dev.updStream_tb (d : Dev) (n : Nat) (f : Stream → Stream) : (d.updStream n f).tb = d.tb := (rfl)
@[simp] theorem Dev.updStream_trg (d : Dev) (n : Nat) (f : Stream → Stream) : (d.updStream n f).trg = d.trg := (rfl)
@[simp] theorem Dev.updStream_lanes (d : Dev) (n : Nat) (f : Stream → Stream) : (d.updStream n f).lanes = d.lanes := (rfl)
@[simp] theorem Dev.updStream_dec (d : Dev) (n : Nat) (f : Stream → Stream) : (d.updStream n f).dec = d.dec := (rfl)
@[simp] theorem Dev.updStream_tal (d : Dev) (n : Nat) (f : Stream → Stream) : (d.updStream n f).tal = d.tal := (rfl)
@[simp] theorem Dev.updStream_evi (d : Dev) (n : Nat) (f : Stream → Stream) : (d.updStream n f).evi = d.evi := (rfl)
@[simp] theorem Dev.updStream_ndl (d : Dev) (n : Nat) (f : Stream → Stream) : (d.updStream n f).ndl = d.ndl := (rfl)
@[simp] theorem Dev.updStream_stm (d : Dev) (n : Nat) (f : Stream → Stream) : (d.updStream n f).stm = d.stm := (rfl)
@[simp] theorem Dev.updStream_link (d : Dev) (n : Nat) (f : Stream → Stream) : (d.updStream n f).link = d.link := (rfl)
@[simp] theorem Dev.updStream_que (d : Dev) (n : Nat) (f : Stream → Stream) : (d.updStream n f).que = d.que := (rfl)
@[simp] theorem Dev.updStream_evr (d : Dev) (n : Nat) (f : Stream → Stream) : (d.updStream n f).evr = d.evr := (rfl)
@[simp] theorem Dev.updStream_xfe (d : Dev) (n : Nat) (f : Stream → Stream) : (d.updStream n f).xfe = d.xfe := (rfl)
@[simp] theorem Dev.updStream_eth (d : Dev) (n : Nat) (f : Stream → Stream) : (d.updStream n f).eth = d.eth := (rfl)
@[simp] theorem Dev.updStream_faKey (d : Dev) (n : Nat) (f : Stream → Stream) : (d.updStream n f).faKey = d.faKey := (rfl)
@[simp] theorem Dev.updStream_syn (d : Dev) (n : Nat) (f : Stream → Stream) : (d.updStream n f).syn = d.syn := (rfl)
@[simp] theorem Dev.updStream_ras (d : Dev) (n : Nat) (f : Stream → Stream) : (d.updStream n f).ras = d.ras := (rfl)
@[simp] theorem Dev.updStream_pwr (d : Dev) (n : Nat) (f : Stream → Stream) : (d.updStream n f).pwr = d.pwr := (rfl)
@[simp] theorem Dev.updStream_sec (d : Dev) (n : Nat) (f : Stream → Stream) : (d.updStream n f).sec = d.sec := (rfl)
@[simp] theorem Dev.updStream_rd (d : Dev) (n : Nat) (f : Stream → Stream) (r : Reg) : (d.updStream n f).rd r = d.rd r :=
  Dev.rd_congr (Dev.updStream_regs d n f) r
@[simp] theorem Dev.updStream_get (d : Dev) (n : Nat) (f : Stream → Stream) (fl : Fld) (m₁ m₂ m₃ : Nat) : (d.updStream n f).get fl m₁ m₂ m₃ = d.get fl m₁ m₂ m₃ :=
  Dev.get_congr (Dev.updStream_regs d n f) fl m₁ m₂ m₃

@[simp] theorem Dev.updChan_now (d : Dev) (n : Nat) (f : QChan → QChan) : (d.updChan n f).now = d.now := (rfl)
@[simp] theorem Dev.updChan_freeSeq (d : Dev) (n : Nat) (f : QChan → QChan) : (d.updChan n f).freeSeq = d.freeSeq := (rfl)
@[simp] theorem Dev.updChan_regs (d : Dev) (n : Nat) (f : QChan → QChan) : (d.updChan n f).regs = d.regs := (rfl)
@[simp] theorem Dev.updChan_bus (d : Dev) (n : Nat) (f : QChan → QChan) : (d.updChan n f).bus = d.bus := (rfl)
@[simp] theorem Dev.updChan_path (d : Dev) (n : Nat) (f : QChan → QChan) : (d.updChan n f).path = d.path := (rfl)
@[simp] theorem Dev.updChan_logic (d : Dev) (n : Nat) (f : QChan → QChan) : (d.updChan n f).logic = d.logic := (rfl)
@[simp] theorem Dev.updChan_stageNext (d : Dev) (n : Nat) (f : QChan → QChan) : (d.updChan n f).stageNext = d.stageNext := (rfl)
@[simp] theorem Dev.updChan_slice (d : Dev) (n : Nat) (f : QChan → QChan) : (d.updChan n f).slice = d.slice := (rfl)
@[simp] theorem Dev.updChan_tb (d : Dev) (n : Nat) (f : QChan → QChan) : (d.updChan n f).tb = d.tb := (rfl)
@[simp] theorem Dev.updChan_trg (d : Dev) (n : Nat) (f : QChan → QChan) : (d.updChan n f).trg = d.trg := (rfl)
@[simp] theorem Dev.updChan_lanes (d : Dev) (n : Nat) (f : QChan → QChan) : (d.updChan n f).lanes = d.lanes := (rfl)
@[simp] theorem Dev.updChan_dec (d : Dev) (n : Nat) (f : QChan → QChan) : (d.updChan n f).dec = d.dec := (rfl)
@[simp] theorem Dev.updChan_tal (d : Dev) (n : Nat) (f : QChan → QChan) : (d.updChan n f).tal = d.tal := (rfl)
@[simp] theorem Dev.updChan_evi (d : Dev) (n : Nat) (f : QChan → QChan) : (d.updChan n f).evi = d.evi := (rfl)
@[simp] theorem Dev.updChan_ndl (d : Dev) (n : Nat) (f : QChan → QChan) : (d.updChan n f).ndl = d.ndl := (rfl)
@[simp] theorem Dev.updChan_stm (d : Dev) (n : Nat) (f : QChan → QChan) : (d.updChan n f).stm = d.stm := (rfl)
@[simp] theorem Dev.updChan_link (d : Dev) (n : Nat) (f : QChan → QChan) : (d.updChan n f).link = d.link := (rfl)
@[simp] theorem Dev.updChan_que (d : Dev) (n : Nat) (f : QChan → QChan) : (d.updChan n f).que = d.que := (rfl)
@[simp] theorem Dev.updChan_evr (d : Dev) (n : Nat) (f : QChan → QChan) : (d.updChan n f).evr = d.evr := (rfl)
@[simp] theorem Dev.updChan_xfe (d : Dev) (n : Nat) (f : QChan → QChan) : (d.updChan n f).xfe = d.xfe := (rfl)
@[simp] theorem Dev.updChan_eth (d : Dev) (n : Nat) (f : QChan → QChan) : (d.updChan n f).eth = d.eth := (rfl)
@[simp] theorem Dev.updChan_faKey (d : Dev) (n : Nat) (f : QChan → QChan) : (d.updChan n f).faKey = d.faKey := (rfl)
@[simp] theorem Dev.updChan_syn (d : Dev) (n : Nat) (f : QChan → QChan) : (d.updChan n f).syn = d.syn := (rfl)
@[simp] theorem Dev.updChan_ras (d : Dev) (n : Nat) (f : QChan → QChan) : (d.updChan n f).ras = d.ras := (rfl)
@[simp] theorem Dev.updChan_pwr (d : Dev) (n : Nat) (f : QChan → QChan) : (d.updChan n f).pwr = d.pwr := (rfl)
@[simp] theorem Dev.updChan_sec (d : Dev) (n : Nat) (f : QChan → QChan) : (d.updChan n f).sec = d.sec := (rfl)
@[simp] theorem Dev.updChan_rd (d : Dev) (n : Nat) (f : QChan → QChan) (r : Reg) : (d.updChan n f).rd r = d.rd r :=
  Dev.rd_congr (Dev.updChan_regs d n f) r
@[simp] theorem Dev.updChan_get (d : Dev) (n : Nat) (f : QChan → QChan) (fl : Fld) (m₁ m₂ m₃ : Nat) : (d.updChan n f).get fl m₁ m₂ m₃ = d.get fl m₁ m₂ m₃ :=
  Dev.get_congr (Dev.updChan_regs d n f) fl m₁ m₂ m₃

@[simp] theorem Dev.updQ_now (d : Dev) (n : Nat) (f : QueueState → QueueState) : (d.updQ n f).now = d.now := (rfl)
@[simp] theorem Dev.updQ_freeSeq (d : Dev) (n : Nat) (f : QueueState → QueueState) : (d.updQ n f).freeSeq = d.freeSeq := (rfl)
@[simp] theorem Dev.updQ_regs (d : Dev) (n : Nat) (f : QueueState → QueueState) : (d.updQ n f).regs = d.regs := (rfl)
@[simp] theorem Dev.updQ_bus (d : Dev) (n : Nat) (f : QueueState → QueueState) : (d.updQ n f).bus = d.bus := (rfl)
@[simp] theorem Dev.updQ_path (d : Dev) (n : Nat) (f : QueueState → QueueState) : (d.updQ n f).path = d.path := (rfl)
@[simp] theorem Dev.updQ_logic (d : Dev) (n : Nat) (f : QueueState → QueueState) : (d.updQ n f).logic = d.logic := (rfl)
@[simp] theorem Dev.updQ_stageNext (d : Dev) (n : Nat) (f : QueueState → QueueState) : (d.updQ n f).stageNext = d.stageNext := (rfl)
@[simp] theorem Dev.updQ_slice (d : Dev) (n : Nat) (f : QueueState → QueueState) : (d.updQ n f).slice = d.slice := (rfl)
@[simp] theorem Dev.updQ_tb (d : Dev) (n : Nat) (f : QueueState → QueueState) : (d.updQ n f).tb = d.tb := (rfl)
@[simp] theorem Dev.updQ_trg (d : Dev) (n : Nat) (f : QueueState → QueueState) : (d.updQ n f).trg = d.trg := (rfl)
@[simp] theorem Dev.updQ_lanes (d : Dev) (n : Nat) (f : QueueState → QueueState) : (d.updQ n f).lanes = d.lanes := (rfl)
@[simp] theorem Dev.updQ_dec (d : Dev) (n : Nat) (f : QueueState → QueueState) : (d.updQ n f).dec = d.dec := (rfl)
@[simp] theorem Dev.updQ_tal (d : Dev) (n : Nat) (f : QueueState → QueueState) : (d.updQ n f).tal = d.tal := (rfl)
@[simp] theorem Dev.updQ_evi (d : Dev) (n : Nat) (f : QueueState → QueueState) : (d.updQ n f).evi = d.evi := (rfl)
@[simp] theorem Dev.updQ_ndl (d : Dev) (n : Nat) (f : QueueState → QueueState) : (d.updQ n f).ndl = d.ndl := (rfl)
@[simp] theorem Dev.updQ_stm (d : Dev) (n : Nat) (f : QueueState → QueueState) : (d.updQ n f).stm = d.stm := (rfl)
@[simp] theorem Dev.updQ_ben (d : Dev) (n : Nat) (f : QueueState → QueueState) : (d.updQ n f).ben = d.ben := (rfl)
@[simp] theorem Dev.updQ_link (d : Dev) (n : Nat) (f : QueueState → QueueState) : (d.updQ n f).link = d.link := (rfl)
@[simp] theorem Dev.updQ_evr (d : Dev) (n : Nat) (f : QueueState → QueueState) : (d.updQ n f).evr = d.evr := (rfl)
@[simp] theorem Dev.updQ_xfe (d : Dev) (n : Nat) (f : QueueState → QueueState) : (d.updQ n f).xfe = d.xfe := (rfl)
@[simp] theorem Dev.updQ_eth (d : Dev) (n : Nat) (f : QueueState → QueueState) : (d.updQ n f).eth = d.eth := (rfl)
@[simp] theorem Dev.updQ_faKey (d : Dev) (n : Nat) (f : QueueState → QueueState) : (d.updQ n f).faKey = d.faKey := (rfl)
@[simp] theorem Dev.updQ_syn (d : Dev) (n : Nat) (f : QueueState → QueueState) : (d.updQ n f).syn = d.syn := (rfl)
@[simp] theorem Dev.updQ_ras (d : Dev) (n : Nat) (f : QueueState → QueueState) : (d.updQ n f).ras = d.ras := (rfl)
@[simp] theorem Dev.updQ_pwr (d : Dev) (n : Nat) (f : QueueState → QueueState) : (d.updQ n f).pwr = d.pwr := (rfl)
@[simp] theorem Dev.updQ_sec (d : Dev) (n : Nat) (f : QueueState → QueueState) : (d.updQ n f).sec = d.sec := (rfl)
@[simp] theorem Dev.updQ_rd (d : Dev) (n : Nat) (f : QueueState → QueueState) (r : Reg) : (d.updQ n f).rd r = d.rd r :=
  Dev.rd_congr (Dev.updQ_regs d n f) r
@[simp] theorem Dev.updQ_get (d : Dev) (n : Nat) (f : QueueState → QueueState) (fl : Fld) (m₁ m₂ m₃ : Nat) : (d.updQ n f).get fl m₁ m₂ m₃ = d.get fl m₁ m₂ m₃ :=
  Dev.get_congr (Dev.updQ_regs d n f) fl m₁ m₂ m₃

@[simp] theorem Dev.updCanvas_now (d : Dev) (n : Nat) (f : Canvas → Canvas) : (d.updCanvas n f).now = d.now := (rfl)
@[simp] theorem Dev.updCanvas_freeSeq (d : Dev) (n : Nat) (f : Canvas → Canvas) : (d.updCanvas n f).freeSeq = d.freeSeq := (rfl)
@[simp] theorem Dev.updCanvas_regs (d : Dev) (n : Nat) (f : Canvas → Canvas) : (d.updCanvas n f).regs = d.regs := (rfl)
@[simp] theorem Dev.updCanvas_bus (d : Dev) (n : Nat) (f : Canvas → Canvas) : (d.updCanvas n f).bus = d.bus := (rfl)
@[simp] theorem Dev.updCanvas_path (d : Dev) (n : Nat) (f : Canvas → Canvas) : (d.updCanvas n f).path = d.path := (rfl)
@[simp] theorem Dev.updCanvas_logic (d : Dev) (n : Nat) (f : Canvas → Canvas) : (d.updCanvas n f).logic = d.logic := (rfl)
@[simp] theorem Dev.updCanvas_stageNext (d : Dev) (n : Nat) (f : Canvas → Canvas) : (d.updCanvas n f).stageNext = d.stageNext := (rfl)
@[simp] theorem Dev.updCanvas_slice (d : Dev) (n : Nat) (f : Canvas → Canvas) : (d.updCanvas n f).slice = d.slice := (rfl)
@[simp] theorem Dev.updCanvas_tb (d : Dev) (n : Nat) (f : Canvas → Canvas) : (d.updCanvas n f).tb = d.tb := (rfl)
@[simp] theorem Dev.updCanvas_trg (d : Dev) (n : Nat) (f : Canvas → Canvas) : (d.updCanvas n f).trg = d.trg := (rfl)
@[simp] theorem Dev.updCanvas_lanes (d : Dev) (n : Nat) (f : Canvas → Canvas) : (d.updCanvas n f).lanes = d.lanes := (rfl)
@[simp] theorem Dev.updCanvas_dec (d : Dev) (n : Nat) (f : Canvas → Canvas) : (d.updCanvas n f).dec = d.dec := (rfl)
@[simp] theorem Dev.updCanvas_tal (d : Dev) (n : Nat) (f : Canvas → Canvas) : (d.updCanvas n f).tal = d.tal := (rfl)
@[simp] theorem Dev.updCanvas_evi (d : Dev) (n : Nat) (f : Canvas → Canvas) : (d.updCanvas n f).evi = d.evi := (rfl)
@[simp] theorem Dev.updCanvas_ndl (d : Dev) (n : Nat) (f : Canvas → Canvas) : (d.updCanvas n f).ndl = d.ndl := (rfl)
@[simp] theorem Dev.updCanvas_stm (d : Dev) (n : Nat) (f : Canvas → Canvas) : (d.updCanvas n f).stm = d.stm := (rfl)
@[simp] theorem Dev.updCanvas_ben (d : Dev) (n : Nat) (f : Canvas → Canvas) : (d.updCanvas n f).ben = d.ben := (rfl)
@[simp] theorem Dev.updCanvas_link (d : Dev) (n : Nat) (f : Canvas → Canvas) : (d.updCanvas n f).link = d.link := (rfl)
@[simp] theorem Dev.updCanvas_que (d : Dev) (n : Nat) (f : Canvas → Canvas) : (d.updCanvas n f).que = d.que := (rfl)
@[simp] theorem Dev.updCanvas_evr (d : Dev) (n : Nat) (f : Canvas → Canvas) : (d.updCanvas n f).evr = d.evr := (rfl)
@[simp] theorem Dev.updCanvas_xfe (d : Dev) (n : Nat) (f : Canvas → Canvas) : (d.updCanvas n f).xfe = d.xfe := (rfl)
@[simp] theorem Dev.updCanvas_eth (d : Dev) (n : Nat) (f : Canvas → Canvas) : (d.updCanvas n f).eth = d.eth := (rfl)
@[simp] theorem Dev.updCanvas_faKey (d : Dev) (n : Nat) (f : Canvas → Canvas) : (d.updCanvas n f).faKey = d.faKey := (rfl)
@[simp] theorem Dev.updCanvas_syn (d : Dev) (n : Nat) (f : Canvas → Canvas) : (d.updCanvas n f).syn = d.syn := (rfl)
@[simp] theorem Dev.updCanvas_pwr (d : Dev) (n : Nat) (f : Canvas → Canvas) : (d.updCanvas n f).pwr = d.pwr := (rfl)
@[simp] theorem Dev.updCanvas_sec (d : Dev) (n : Nat) (f : Canvas → Canvas) : (d.updCanvas n f).sec = d.sec := (rfl)
@[simp] theorem Dev.updCanvas_rd (d : Dev) (n : Nat) (f : Canvas → Canvas) (r : Reg) : (d.updCanvas n f).rd r = d.rd r :=
  Dev.rd_congr (Dev.updCanvas_regs d n f) r
@[simp] theorem Dev.updCanvas_get (d : Dev) (n : Nat) (f : Canvas → Canvas) (fl : Fld) (m₁ m₂ m₃ : Nat) : (d.updCanvas n f).get fl m₁ m₂ m₃ = d.get fl m₁ m₂ m₃ :=
  Dev.get_congr (Dev.updCanvas_regs d n f) fl m₁ m₂ m₃

@[simp] theorem Dev.updOut_now (d : Dev) (n : Nat) (f : Output → Output) : (d.updOut n f).now = d.now := (rfl)
@[simp] theorem Dev.updOut_freeSeq (d : Dev) (n : Nat) (f : Output → Output) : (d.updOut n f).freeSeq = d.freeSeq := (rfl)
@[simp] theorem Dev.updOut_regs (d : Dev) (n : Nat) (f : Output → Output) : (d.updOut n f).regs = d.regs := (rfl)
@[simp] theorem Dev.updOut_bus (d : Dev) (n : Nat) (f : Output → Output) : (d.updOut n f).bus = d.bus := (rfl)
@[simp] theorem Dev.updOut_path (d : Dev) (n : Nat) (f : Output → Output) : (d.updOut n f).path = d.path := (rfl)
@[simp] theorem Dev.updOut_logic (d : Dev) (n : Nat) (f : Output → Output) : (d.updOut n f).logic = d.logic := (rfl)
@[simp] theorem Dev.updOut_stageNext (d : Dev) (n : Nat) (f : Output → Output) : (d.updOut n f).stageNext = d.stageNext := (rfl)
@[simp] theorem Dev.updOut_slice (d : Dev) (n : Nat) (f : Output → Output) : (d.updOut n f).slice = d.slice := (rfl)
@[simp] theorem Dev.updOut_tb (d : Dev) (n : Nat) (f : Output → Output) : (d.updOut n f).tb = d.tb := (rfl)
@[simp] theorem Dev.updOut_trg (d : Dev) (n : Nat) (f : Output → Output) : (d.updOut n f).trg = d.trg := (rfl)
@[simp] theorem Dev.updOut_lanes (d : Dev) (n : Nat) (f : Output → Output) : (d.updOut n f).lanes = d.lanes := (rfl)
@[simp] theorem Dev.updOut_dec (d : Dev) (n : Nat) (f : Output → Output) : (d.updOut n f).dec = d.dec := (rfl)
@[simp] theorem Dev.updOut_tal (d : Dev) (n : Nat) (f : Output → Output) : (d.updOut n f).tal = d.tal := (rfl)
@[simp] theorem Dev.updOut_evi (d : Dev) (n : Nat) (f : Output → Output) : (d.updOut n f).evi = d.evi := (rfl)
@[simp] theorem Dev.updOut_ndl (d : Dev) (n : Nat) (f : Output → Output) : (d.updOut n f).ndl = d.ndl := (rfl)
@[simp] theorem Dev.updOut_stm (d : Dev) (n : Nat) (f : Output → Output) : (d.updOut n f).stm = d.stm := (rfl)
@[simp] theorem Dev.updOut_ben (d : Dev) (n : Nat) (f : Output → Output) : (d.updOut n f).ben = d.ben := (rfl)
@[simp] theorem Dev.updOut_link (d : Dev) (n : Nat) (f : Output → Output) : (d.updOut n f).link = d.link := (rfl)
@[simp] theorem Dev.updOut_que (d : Dev) (n : Nat) (f : Output → Output) : (d.updOut n f).que = d.que := (rfl)
@[simp] theorem Dev.updOut_evr (d : Dev) (n : Nat) (f : Output → Output) : (d.updOut n f).evr = d.evr := (rfl)
@[simp] theorem Dev.updOut_xfe (d : Dev) (n : Nat) (f : Output → Output) : (d.updOut n f).xfe = d.xfe := (rfl)
@[simp] theorem Dev.updOut_eth (d : Dev) (n : Nat) (f : Output → Output) : (d.updOut n f).eth = d.eth := (rfl)
@[simp] theorem Dev.updOut_faKey (d : Dev) (n : Nat) (f : Output → Output) : (d.updOut n f).faKey = d.faKey := (rfl)
@[simp] theorem Dev.updOut_syn (d : Dev) (n : Nat) (f : Output → Output) : (d.updOut n f).syn = d.syn := (rfl)
@[simp] theorem Dev.updOut_pwr (d : Dev) (n : Nat) (f : Output → Output) : (d.updOut n f).pwr = d.pwr := (rfl)
@[simp] theorem Dev.updOut_sec (d : Dev) (n : Nat) (f : Output → Output) : (d.updOut n f).sec = d.sec := (rfl)
@[simp] theorem Dev.updOut_rd (d : Dev) (n : Nat) (f : Output → Output) (r : Reg) : (d.updOut n f).rd r = d.rd r :=
  Dev.rd_congr (Dev.updOut_regs d n f) r
@[simp] theorem Dev.updOut_get (d : Dev) (n : Nat) (f : Output → Output) (fl : Fld) (m₁ m₂ m₃ : Nat) : (d.updOut n f).get fl m₁ m₂ m₃ = d.get fl m₁ m₂ m₃ :=
  Dev.get_congr (Dev.updOut_regs d n f) fl m₁ m₂ m₃

@[simp] theorem Dev.updSession_now (d : Dev) (n : Nat) (f : Spdm → Spdm) : (d.updSession n f).now = d.now := (rfl)
@[simp] theorem Dev.updSession_freeSeq (d : Dev) (n : Nat) (f : Spdm → Spdm) : (d.updSession n f).freeSeq = d.freeSeq := (rfl)
@[simp] theorem Dev.updSession_regs (d : Dev) (n : Nat) (f : Spdm → Spdm) : (d.updSession n f).regs = d.regs := (rfl)
@[simp] theorem Dev.updSession_bus (d : Dev) (n : Nat) (f : Spdm → Spdm) : (d.updSession n f).bus = d.bus := (rfl)
@[simp] theorem Dev.updSession_path (d : Dev) (n : Nat) (f : Spdm → Spdm) : (d.updSession n f).path = d.path := (rfl)
@[simp] theorem Dev.updSession_logic (d : Dev) (n : Nat) (f : Spdm → Spdm) : (d.updSession n f).logic = d.logic := (rfl)
@[simp] theorem Dev.updSession_stageNext (d : Dev) (n : Nat) (f : Spdm → Spdm) : (d.updSession n f).stageNext = d.stageNext := (rfl)
@[simp] theorem Dev.updSession_slice (d : Dev) (n : Nat) (f : Spdm → Spdm) : (d.updSession n f).slice = d.slice := (rfl)
@[simp] theorem Dev.updSession_tb (d : Dev) (n : Nat) (f : Spdm → Spdm) : (d.updSession n f).tb = d.tb := (rfl)
@[simp] theorem Dev.updSession_trg (d : Dev) (n : Nat) (f : Spdm → Spdm) : (d.updSession n f).trg = d.trg := (rfl)
@[simp] theorem Dev.updSession_lanes (d : Dev) (n : Nat) (f : Spdm → Spdm) : (d.updSession n f).lanes = d.lanes := (rfl)
@[simp] theorem Dev.updSession_dec (d : Dev) (n : Nat) (f : Spdm → Spdm) : (d.updSession n f).dec = d.dec := (rfl)
@[simp] theorem Dev.updSession_tal (d : Dev) (n : Nat) (f : Spdm → Spdm) : (d.updSession n f).tal = d.tal := (rfl)
@[simp] theorem Dev.updSession_evi (d : Dev) (n : Nat) (f : Spdm → Spdm) : (d.updSession n f).evi = d.evi := (rfl)
@[simp] theorem Dev.updSession_ndl (d : Dev) (n : Nat) (f : Spdm → Spdm) : (d.updSession n f).ndl = d.ndl := (rfl)
@[simp] theorem Dev.updSession_stm (d : Dev) (n : Nat) (f : Spdm → Spdm) : (d.updSession n f).stm = d.stm := (rfl)
@[simp] theorem Dev.updSession_ben (d : Dev) (n : Nat) (f : Spdm → Spdm) : (d.updSession n f).ben = d.ben := (rfl)
@[simp] theorem Dev.updSession_link (d : Dev) (n : Nat) (f : Spdm → Spdm) : (d.updSession n f).link = d.link := (rfl)
@[simp] theorem Dev.updSession_que (d : Dev) (n : Nat) (f : Spdm → Spdm) : (d.updSession n f).que = d.que := (rfl)
@[simp] theorem Dev.updSession_evr (d : Dev) (n : Nat) (f : Spdm → Spdm) : (d.updSession n f).evr = d.evr := (rfl)
@[simp] theorem Dev.updSession_xfe (d : Dev) (n : Nat) (f : Spdm → Spdm) : (d.updSession n f).xfe = d.xfe := (rfl)
@[simp] theorem Dev.updSession_eth (d : Dev) (n : Nat) (f : Spdm → Spdm) : (d.updSession n f).eth = d.eth := (rfl)
@[simp] theorem Dev.updSession_faKey (d : Dev) (n : Nat) (f : Spdm → Spdm) : (d.updSession n f).faKey = d.faKey := (rfl)
@[simp] theorem Dev.updSession_syn (d : Dev) (n : Nat) (f : Spdm → Spdm) : (d.updSession n f).syn = d.syn := (rfl)
@[simp] theorem Dev.updSession_ras (d : Dev) (n : Nat) (f : Spdm → Spdm) : (d.updSession n f).ras = d.ras := (rfl)
@[simp] theorem Dev.updSession_pwr (d : Dev) (n : Nat) (f : Spdm → Spdm) : (d.updSession n f).pwr = d.pwr := (rfl)
@[simp] theorem Dev.updSession_rd (d : Dev) (n : Nat) (f : Spdm → Spdm) (r : Reg) : (d.updSession n f).rd r = d.rd r :=
  Dev.rd_congr (Dev.updSession_regs d n f) r
@[simp] theorem Dev.updSession_get (d : Dev) (n : Nat) (f : Spdm → Spdm) (fl : Fld) (m₁ m₂ m₃ : Nat) : (d.updSession n f).get fl m₁ m₂ m₃ = d.get fl m₁ m₂ m₃ :=
  Dev.get_congr (Dev.updSession_regs d n f) fl m₁ m₂ m₃

@[simp] theorem Dev.updStm_now (d : Dev) (n : Nat) (f : Stim → Stim) : (d.updStm n f).now = d.now := (rfl)
@[simp] theorem Dev.updStm_freeSeq (d : Dev) (n : Nat) (f : Stim → Stim) : (d.updStm n f).freeSeq = d.freeSeq := (rfl)
@[simp] theorem Dev.updStm_regs (d : Dev) (n : Nat) (f : Stim → Stim) : (d.updStm n f).regs = d.regs := (rfl)
@[simp] theorem Dev.updStm_bus (d : Dev) (n : Nat) (f : Stim → Stim) : (d.updStm n f).bus = d.bus := (rfl)
@[simp] theorem Dev.updStm_path (d : Dev) (n : Nat) (f : Stim → Stim) : (d.updStm n f).path = d.path := (rfl)
@[simp] theorem Dev.updStm_logic (d : Dev) (n : Nat) (f : Stim → Stim) : (d.updStm n f).logic = d.logic := (rfl)
@[simp] theorem Dev.updStm_stageNext (d : Dev) (n : Nat) (f : Stim → Stim) : (d.updStm n f).stageNext = d.stageNext := (rfl)
@[simp] theorem Dev.updStm_slice (d : Dev) (n : Nat) (f : Stim → Stim) : (d.updStm n f).slice = d.slice := (rfl)
@[simp] theorem Dev.updStm_tb (d : Dev) (n : Nat) (f : Stim → Stim) : (d.updStm n f).tb = d.tb := (rfl)
@[simp] theorem Dev.updStm_trg (d : Dev) (n : Nat) (f : Stim → Stim) : (d.updStm n f).trg = d.trg := (rfl)
@[simp] theorem Dev.updStm_lanes (d : Dev) (n : Nat) (f : Stim → Stim) : (d.updStm n f).lanes = d.lanes := (rfl)
@[simp] theorem Dev.updStm_dec (d : Dev) (n : Nat) (f : Stim → Stim) : (d.updStm n f).dec = d.dec := (rfl)
@[simp] theorem Dev.updStm_tal (d : Dev) (n : Nat) (f : Stim → Stim) : (d.updStm n f).tal = d.tal := (rfl)
@[simp] theorem Dev.updStm_evi (d : Dev) (n : Nat) (f : Stim → Stim) : (d.updStm n f).evi = d.evi := (rfl)
@[simp] theorem Dev.updStm_ndl (d : Dev) (n : Nat) (f : Stim → Stim) : (d.updStm n f).ndl = d.ndl := (rfl)
@[simp] theorem Dev.updStm_ben (d : Dev) (n : Nat) (f : Stim → Stim) : (d.updStm n f).ben = d.ben := (rfl)
@[simp] theorem Dev.updStm_link (d : Dev) (n : Nat) (f : Stim → Stim) : (d.updStm n f).link = d.link := (rfl)
@[simp] theorem Dev.updStm_que (d : Dev) (n : Nat) (f : Stim → Stim) : (d.updStm n f).que = d.que := (rfl)
@[simp] theorem Dev.updStm_evr (d : Dev) (n : Nat) (f : Stim → Stim) : (d.updStm n f).evr = d.evr := (rfl)
@[simp] theorem Dev.updStm_xfe (d : Dev) (n : Nat) (f : Stim → Stim) : (d.updStm n f).xfe = d.xfe := (rfl)
@[simp] theorem Dev.updStm_eth (d : Dev) (n : Nat) (f : Stim → Stim) : (d.updStm n f).eth = d.eth := (rfl)
@[simp] theorem Dev.updStm_faKey (d : Dev) (n : Nat) (f : Stim → Stim) : (d.updStm n f).faKey = d.faKey := (rfl)
@[simp] theorem Dev.updStm_syn (d : Dev) (n : Nat) (f : Stim → Stim) : (d.updStm n f).syn = d.syn := (rfl)
@[simp] theorem Dev.updStm_ras (d : Dev) (n : Nat) (f : Stim → Stim) : (d.updStm n f).ras = d.ras := (rfl)
@[simp] theorem Dev.updStm_pwr (d : Dev) (n : Nat) (f : Stim → Stim) : (d.updStm n f).pwr = d.pwr := (rfl)
@[simp] theorem Dev.updStm_sec (d : Dev) (n : Nat) (f : Stim → Stim) : (d.updStm n f).sec = d.sec := (rfl)
@[simp] theorem Dev.updStm_rd (d : Dev) (n : Nat) (f : Stim → Stim) (r : Reg) : (d.updStm n f).rd r = d.rd r :=
  Dev.rd_congr (Dev.updStm_regs d n f) r
@[simp] theorem Dev.updStm_get (d : Dev) (n : Nat) (f : Stim → Stim) (fl : Fld) (m₁ m₂ m₃ : Nat) : (d.updStm n f).get fl m₁ m₂ m₃ = d.get fl m₁ m₂ m₃ :=
  Dev.get_congr (Dev.updStm_regs d n f) fl m₁ m₂ m₃

@[simp] theorem Dev.updJob_now (d : Dev) (n : Nat) (f : TallyJob → TallyJob) : (d.updJob n f).now = d.now := (rfl)
@[simp] theorem Dev.updJob_freeSeq (d : Dev) (n : Nat) (f : TallyJob → TallyJob) : (d.updJob n f).freeSeq = d.freeSeq := (rfl)
@[simp] theorem Dev.updJob_regs (d : Dev) (n : Nat) (f : TallyJob → TallyJob) : (d.updJob n f).regs = d.regs := (rfl)
@[simp] theorem Dev.updJob_bus (d : Dev) (n : Nat) (f : TallyJob → TallyJob) : (d.updJob n f).bus = d.bus := (rfl)
@[simp] theorem Dev.updJob_path (d : Dev) (n : Nat) (f : TallyJob → TallyJob) : (d.updJob n f).path = d.path := (rfl)
@[simp] theorem Dev.updJob_logic (d : Dev) (n : Nat) (f : TallyJob → TallyJob) : (d.updJob n f).logic = d.logic := (rfl)
@[simp] theorem Dev.updJob_stageNext (d : Dev) (n : Nat) (f : TallyJob → TallyJob) : (d.updJob n f).stageNext = d.stageNext := (rfl)
@[simp] theorem Dev.updJob_slice (d : Dev) (n : Nat) (f : TallyJob → TallyJob) : (d.updJob n f).slice = d.slice := (rfl)
@[simp] theorem Dev.updJob_tb (d : Dev) (n : Nat) (f : TallyJob → TallyJob) : (d.updJob n f).tb = d.tb := (rfl)
@[simp] theorem Dev.updJob_trg (d : Dev) (n : Nat) (f : TallyJob → TallyJob) : (d.updJob n f).trg = d.trg := (rfl)
@[simp] theorem Dev.updJob_lanes (d : Dev) (n : Nat) (f : TallyJob → TallyJob) : (d.updJob n f).lanes = d.lanes := (rfl)
@[simp] theorem Dev.updJob_dec (d : Dev) (n : Nat) (f : TallyJob → TallyJob) : (d.updJob n f).dec = d.dec := (rfl)
@[simp] theorem Dev.updJob_evi (d : Dev) (n : Nat) (f : TallyJob → TallyJob) : (d.updJob n f).evi = d.evi := (rfl)
@[simp] theorem Dev.updJob_ndl (d : Dev) (n : Nat) (f : TallyJob → TallyJob) : (d.updJob n f).ndl = d.ndl := (rfl)
@[simp] theorem Dev.updJob_stm (d : Dev) (n : Nat) (f : TallyJob → TallyJob) : (d.updJob n f).stm = d.stm := (rfl)
@[simp] theorem Dev.updJob_ben (d : Dev) (n : Nat) (f : TallyJob → TallyJob) : (d.updJob n f).ben = d.ben := (rfl)
@[simp] theorem Dev.updJob_link (d : Dev) (n : Nat) (f : TallyJob → TallyJob) : (d.updJob n f).link = d.link := (rfl)
@[simp] theorem Dev.updJob_que (d : Dev) (n : Nat) (f : TallyJob → TallyJob) : (d.updJob n f).que = d.que := (rfl)
@[simp] theorem Dev.updJob_evr (d : Dev) (n : Nat) (f : TallyJob → TallyJob) : (d.updJob n f).evr = d.evr := (rfl)
@[simp] theorem Dev.updJob_xfe (d : Dev) (n : Nat) (f : TallyJob → TallyJob) : (d.updJob n f).xfe = d.xfe := (rfl)
@[simp] theorem Dev.updJob_eth (d : Dev) (n : Nat) (f : TallyJob → TallyJob) : (d.updJob n f).eth = d.eth := (rfl)
@[simp] theorem Dev.updJob_faKey (d : Dev) (n : Nat) (f : TallyJob → TallyJob) : (d.updJob n f).faKey = d.faKey := (rfl)
@[simp] theorem Dev.updJob_syn (d : Dev) (n : Nat) (f : TallyJob → TallyJob) : (d.updJob n f).syn = d.syn := (rfl)
@[simp] theorem Dev.updJob_ras (d : Dev) (n : Nat) (f : TallyJob → TallyJob) : (d.updJob n f).ras = d.ras := (rfl)
@[simp] theorem Dev.updJob_pwr (d : Dev) (n : Nat) (f : TallyJob → TallyJob) : (d.updJob n f).pwr = d.pwr := (rfl)
@[simp] theorem Dev.updJob_sec (d : Dev) (n : Nat) (f : TallyJob → TallyJob) : (d.updJob n f).sec = d.sec := (rfl)
@[simp] theorem Dev.updJob_rd (d : Dev) (n : Nat) (f : TallyJob → TallyJob) (r : Reg) : (d.updJob n f).rd r = d.rd r :=
  Dev.rd_congr (Dev.updJob_regs d n f) r
@[simp] theorem Dev.updJob_get (d : Dev) (n : Nat) (f : TallyJob → TallyJob) (fl : Fld) (m₁ m₂ m₃ : Nat) : (d.updJob n f).get fl m₁ m₂ m₃ = d.get fl m₁ m₂ m₃ :=
  Dev.get_congr (Dev.updJob_regs d n f) fl m₁ m₂ m₃

@[simp] theorem Dev.updPin_now (d : Dev) (n : Nat) (f : SynPin → SynPin) : (d.updPin n f).now = d.now := (rfl)
@[simp] theorem Dev.updPin_freeSeq (d : Dev) (n : Nat) (f : SynPin → SynPin) : (d.updPin n f).freeSeq = d.freeSeq := (rfl)
@[simp] theorem Dev.updPin_regs (d : Dev) (n : Nat) (f : SynPin → SynPin) : (d.updPin n f).regs = d.regs := (rfl)
@[simp] theorem Dev.updPin_bus (d : Dev) (n : Nat) (f : SynPin → SynPin) : (d.updPin n f).bus = d.bus := (rfl)
@[simp] theorem Dev.updPin_path (d : Dev) (n : Nat) (f : SynPin → SynPin) : (d.updPin n f).path = d.path := (rfl)
@[simp] theorem Dev.updPin_logic (d : Dev) (n : Nat) (f : SynPin → SynPin) : (d.updPin n f).logic = d.logic := (rfl)
@[simp] theorem Dev.updPin_stageNext (d : Dev) (n : Nat) (f : SynPin → SynPin) : (d.updPin n f).stageNext = d.stageNext := (rfl)
@[simp] theorem Dev.updPin_slice (d : Dev) (n : Nat) (f : SynPin → SynPin) : (d.updPin n f).slice = d.slice := (rfl)
@[simp] theorem Dev.updPin_tb (d : Dev) (n : Nat) (f : SynPin → SynPin) : (d.updPin n f).tb = d.tb := (rfl)
@[simp] theorem Dev.updPin_trg (d : Dev) (n : Nat) (f : SynPin → SynPin) : (d.updPin n f).trg = d.trg := (rfl)
@[simp] theorem Dev.updPin_lanes (d : Dev) (n : Nat) (f : SynPin → SynPin) : (d.updPin n f).lanes = d.lanes := (rfl)
@[simp] theorem Dev.updPin_dec (d : Dev) (n : Nat) (f : SynPin → SynPin) : (d.updPin n f).dec = d.dec := (rfl)
@[simp] theorem Dev.updPin_tal (d : Dev) (n : Nat) (f : SynPin → SynPin) : (d.updPin n f).tal = d.tal := (rfl)
@[simp] theorem Dev.updPin_evi (d : Dev) (n : Nat) (f : SynPin → SynPin) : (d.updPin n f).evi = d.evi := (rfl)
@[simp] theorem Dev.updPin_ndl (d : Dev) (n : Nat) (f : SynPin → SynPin) : (d.updPin n f).ndl = d.ndl := (rfl)
@[simp] theorem Dev.updPin_stm (d : Dev) (n : Nat) (f : SynPin → SynPin) : (d.updPin n f).stm = d.stm := (rfl)
@[simp] theorem Dev.updPin_ben (d : Dev) (n : Nat) (f : SynPin → SynPin) : (d.updPin n f).ben = d.ben := (rfl)
@[simp] theorem Dev.updPin_link (d : Dev) (n : Nat) (f : SynPin → SynPin) : (d.updPin n f).link = d.link := (rfl)
@[simp] theorem Dev.updPin_que (d : Dev) (n : Nat) (f : SynPin → SynPin) : (d.updPin n f).que = d.que := (rfl)
@[simp] theorem Dev.updPin_evr (d : Dev) (n : Nat) (f : SynPin → SynPin) : (d.updPin n f).evr = d.evr := (rfl)
@[simp] theorem Dev.updPin_xfe (d : Dev) (n : Nat) (f : SynPin → SynPin) : (d.updPin n f).xfe = d.xfe := (rfl)
@[simp] theorem Dev.updPin_eth (d : Dev) (n : Nat) (f : SynPin → SynPin) : (d.updPin n f).eth = d.eth := (rfl)
@[simp] theorem Dev.updPin_faKey (d : Dev) (n : Nat) (f : SynPin → SynPin) : (d.updPin n f).faKey = d.faKey := (rfl)
@[simp] theorem Dev.updPin_ras (d : Dev) (n : Nat) (f : SynPin → SynPin) : (d.updPin n f).ras = d.ras := (rfl)
@[simp] theorem Dev.updPin_pwr (d : Dev) (n : Nat) (f : SynPin → SynPin) : (d.updPin n f).pwr = d.pwr := (rfl)
@[simp] theorem Dev.updPin_sec (d : Dev) (n : Nat) (f : SynPin → SynPin) : (d.updPin n f).sec = d.sec := (rfl)
@[simp] theorem Dev.updPin_rd (d : Dev) (n : Nat) (f : SynPin → SynPin) (r : Reg) : (d.updPin n f).rd r = d.rd r :=
  Dev.rd_congr (Dev.updPin_regs d n f) r
@[simp] theorem Dev.updPin_get (d : Dev) (n : Nat) (f : SynPin → SynPin) (fl : Fld) (m₁ m₂ m₃ : Nat) : (d.updPin n f).get fl m₁ m₂ m₃ = d.get fl m₁ m₂ m₃ :=
  Dev.get_congr (Dev.updPin_regs d n f) fl m₁ m₂ m₃

@[simp] theorem Dev.updPing_now (d : Dev) (f : Ping → Ping) : (d.updPing f).now = d.now := (rfl)
@[simp] theorem Dev.updPing_freeSeq (d : Dev) (f : Ping → Ping) : (d.updPing f).freeSeq = d.freeSeq := (rfl)
@[simp] theorem Dev.updPing_regs (d : Dev) (f : Ping → Ping) : (d.updPing f).regs = d.regs := (rfl)
@[simp] theorem Dev.updPing_bus (d : Dev) (f : Ping → Ping) : (d.updPing f).bus = d.bus := (rfl)
@[simp] theorem Dev.updPing_path (d : Dev) (f : Ping → Ping) : (d.updPing f).path = d.path := (rfl)
@[simp] theorem Dev.updPing_logic (d : Dev) (f : Ping → Ping) : (d.updPing f).logic = d.logic := (rfl)
@[simp] theorem Dev.updPing_stageNext (d : Dev) (f : Ping → Ping) : (d.updPing f).stageNext = d.stageNext := (rfl)
@[simp] theorem Dev.updPing_slice (d : Dev) (f : Ping → Ping) : (d.updPing f).slice = d.slice := (rfl)
@[simp] theorem Dev.updPing_tb (d : Dev) (f : Ping → Ping) : (d.updPing f).tb = d.tb := (rfl)
@[simp] theorem Dev.updPing_trg (d : Dev) (f : Ping → Ping) : (d.updPing f).trg = d.trg := (rfl)
@[simp] theorem Dev.updPing_lanes (d : Dev) (f : Ping → Ping) : (d.updPing f).lanes = d.lanes := (rfl)
@[simp] theorem Dev.updPing_dec (d : Dev) (f : Ping → Ping) : (d.updPing f).dec = d.dec := (rfl)
@[simp] theorem Dev.updPing_tal (d : Dev) (f : Ping → Ping) : (d.updPing f).tal = d.tal := (rfl)
@[simp] theorem Dev.updPing_evi (d : Dev) (f : Ping → Ping) : (d.updPing f).evi = d.evi := (rfl)
@[simp] theorem Dev.updPing_ndl (d : Dev) (f : Ping → Ping) : (d.updPing f).ndl = d.ndl := (rfl)
@[simp] theorem Dev.updPing_stm (d : Dev) (f : Ping → Ping) : (d.updPing f).stm = d.stm := (rfl)
@[simp] theorem Dev.updPing_ben (d : Dev) (f : Ping → Ping) : (d.updPing f).ben = d.ben := (rfl)
@[simp] theorem Dev.updPing_link (d : Dev) (f : Ping → Ping) : (d.updPing f).link = d.link := (rfl)
@[simp] theorem Dev.updPing_que (d : Dev) (f : Ping → Ping) : (d.updPing f).que = d.que := (rfl)
@[simp] theorem Dev.updPing_evr (d : Dev) (f : Ping → Ping) : (d.updPing f).evr = d.evr := (rfl)
@[simp] theorem Dev.updPing_xfe (d : Dev) (f : Ping → Ping) : (d.updPing f).xfe = d.xfe := (rfl)
@[simp] theorem Dev.updPing_eth (d : Dev) (f : Ping → Ping) : (d.updPing f).eth = d.eth := (rfl)
@[simp] theorem Dev.updPing_faKey (d : Dev) (f : Ping → Ping) : (d.updPing f).faKey = d.faKey := (rfl)
@[simp] theorem Dev.updPing_ras (d : Dev) (f : Ping → Ping) : (d.updPing f).ras = d.ras := (rfl)
@[simp] theorem Dev.updPing_pwr (d : Dev) (f : Ping → Ping) : (d.updPing f).pwr = d.pwr := (rfl)
@[simp] theorem Dev.updPing_sec (d : Dev) (f : Ping → Ping) : (d.updPing f).sec = d.sec := (rfl)
@[simp] theorem Dev.updPing_rd (d : Dev) (f : Ping → Ping) (r : Reg) : (d.updPing f).rd r = d.rd r :=
  Dev.rd_congr (Dev.updPing_regs d f) r
@[simp] theorem Dev.updPing_get (d : Dev) (f : Ping → Ping) (fl : Fld) (m₁ m₂ m₃ : Nat) : (d.updPing f).get fl m₁ m₂ m₃ = d.get fl m₁ m₂ m₃ :=
  Dev.get_congr (Dev.updPing_regs d f) fl m₁ m₂ m₃

@[simp] theorem Dev.updUnit_now (d : Dev) (n : Nat) (f : TrigUnit → TrigUnit) : (d.updUnit n f).now = d.now := (rfl)
@[simp] theorem Dev.updUnit_freeSeq (d : Dev) (n : Nat) (f : TrigUnit → TrigUnit) : (d.updUnit n f).freeSeq = d.freeSeq := (rfl)
@[simp] theorem Dev.updUnit_regs (d : Dev) (n : Nat) (f : TrigUnit → TrigUnit) : (d.updUnit n f).regs = d.regs := (rfl)
@[simp] theorem Dev.updUnit_bus (d : Dev) (n : Nat) (f : TrigUnit → TrigUnit) : (d.updUnit n f).bus = d.bus := (rfl)
@[simp] theorem Dev.updUnit_path (d : Dev) (n : Nat) (f : TrigUnit → TrigUnit) : (d.updUnit n f).path = d.path := (rfl)
@[simp] theorem Dev.updUnit_logic (d : Dev) (n : Nat) (f : TrigUnit → TrigUnit) : (d.updUnit n f).logic = d.logic := (rfl)
@[simp] theorem Dev.updUnit_stageNext (d : Dev) (n : Nat) (f : TrigUnit → TrigUnit) : (d.updUnit n f).stageNext = d.stageNext := (rfl)
@[simp] theorem Dev.updUnit_slice (d : Dev) (n : Nat) (f : TrigUnit → TrigUnit) : (d.updUnit n f).slice = d.slice := (rfl)
@[simp] theorem Dev.updUnit_tb (d : Dev) (n : Nat) (f : TrigUnit → TrigUnit) : (d.updUnit n f).tb = d.tb := (rfl)
@[simp] theorem Dev.updUnit_lanes (d : Dev) (n : Nat) (f : TrigUnit → TrigUnit) : (d.updUnit n f).lanes = d.lanes := (rfl)
@[simp] theorem Dev.updUnit_dec (d : Dev) (n : Nat) (f : TrigUnit → TrigUnit) : (d.updUnit n f).dec = d.dec := (rfl)
@[simp] theorem Dev.updUnit_tal (d : Dev) (n : Nat) (f : TrigUnit → TrigUnit) : (d.updUnit n f).tal = d.tal := (rfl)
@[simp] theorem Dev.updUnit_evi (d : Dev) (n : Nat) (f : TrigUnit → TrigUnit) : (d.updUnit n f).evi = d.evi := (rfl)
@[simp] theorem Dev.updUnit_ndl (d : Dev) (n : Nat) (f : TrigUnit → TrigUnit) : (d.updUnit n f).ndl = d.ndl := (rfl)
@[simp] theorem Dev.updUnit_stm (d : Dev) (n : Nat) (f : TrigUnit → TrigUnit) : (d.updUnit n f).stm = d.stm := (rfl)
@[simp] theorem Dev.updUnit_ben (d : Dev) (n : Nat) (f : TrigUnit → TrigUnit) : (d.updUnit n f).ben = d.ben := (rfl)
@[simp] theorem Dev.updUnit_link (d : Dev) (n : Nat) (f : TrigUnit → TrigUnit) : (d.updUnit n f).link = d.link := (rfl)
@[simp] theorem Dev.updUnit_que (d : Dev) (n : Nat) (f : TrigUnit → TrigUnit) : (d.updUnit n f).que = d.que := (rfl)
@[simp] theorem Dev.updUnit_evr (d : Dev) (n : Nat) (f : TrigUnit → TrigUnit) : (d.updUnit n f).evr = d.evr := (rfl)
@[simp] theorem Dev.updUnit_xfe (d : Dev) (n : Nat) (f : TrigUnit → TrigUnit) : (d.updUnit n f).xfe = d.xfe := (rfl)
@[simp] theorem Dev.updUnit_eth (d : Dev) (n : Nat) (f : TrigUnit → TrigUnit) : (d.updUnit n f).eth = d.eth := (rfl)
@[simp] theorem Dev.updUnit_faKey (d : Dev) (n : Nat) (f : TrigUnit → TrigUnit) : (d.updUnit n f).faKey = d.faKey := (rfl)
@[simp] theorem Dev.updUnit_syn (d : Dev) (n : Nat) (f : TrigUnit → TrigUnit) : (d.updUnit n f).syn = d.syn := (rfl)
@[simp] theorem Dev.updUnit_ras (d : Dev) (n : Nat) (f : TrigUnit → TrigUnit) : (d.updUnit n f).ras = d.ras := (rfl)
@[simp] theorem Dev.updUnit_pwr (d : Dev) (n : Nat) (f : TrigUnit → TrigUnit) : (d.updUnit n f).pwr = d.pwr := (rfl)
@[simp] theorem Dev.updUnit_sec (d : Dev) (n : Nat) (f : TrigUnit → TrigUnit) : (d.updUnit n f).sec = d.sec := (rfl)
@[simp] theorem Dev.updUnit_rd (d : Dev) (n : Nat) (f : TrigUnit → TrigUnit) (r : Reg) : (d.updUnit n f).rd r = d.rd r :=
  Dev.rd_congr (Dev.updUnit_regs d n f) r
@[simp] theorem Dev.updUnit_get (d : Dev) (n : Nat) (f : TrigUnit → TrigUnit) (fl : Fld) (m₁ m₂ m₃ : Nat) : (d.updUnit n f).get fl m₁ m₂ m₃ = d.get fl m₁ m₂ m₃ :=
  Dev.get_congr (Dev.updUnit_regs d n f) fl m₁ m₂ m₃

@[simp] theorem Dev.updXfer_now (d : Dev) (n : Nat) (f : XferChan → XferChan) : (d.updXfer n f).now = d.now := (rfl)
@[simp] theorem Dev.updXfer_freeSeq (d : Dev) (n : Nat) (f : XferChan → XferChan) : (d.updXfer n f).freeSeq = d.freeSeq := (rfl)
@[simp] theorem Dev.updXfer_regs (d : Dev) (n : Nat) (f : XferChan → XferChan) : (d.updXfer n f).regs = d.regs := (rfl)
@[simp] theorem Dev.updXfer_bus (d : Dev) (n : Nat) (f : XferChan → XferChan) : (d.updXfer n f).bus = d.bus := (rfl)
@[simp] theorem Dev.updXfer_path (d : Dev) (n : Nat) (f : XferChan → XferChan) : (d.updXfer n f).path = d.path := (rfl)
@[simp] theorem Dev.updXfer_logic (d : Dev) (n : Nat) (f : XferChan → XferChan) : (d.updXfer n f).logic = d.logic := (rfl)
@[simp] theorem Dev.updXfer_stageNext (d : Dev) (n : Nat) (f : XferChan → XferChan) : (d.updXfer n f).stageNext = d.stageNext := (rfl)
@[simp] theorem Dev.updXfer_slice (d : Dev) (n : Nat) (f : XferChan → XferChan) : (d.updXfer n f).slice = d.slice := (rfl)
@[simp] theorem Dev.updXfer_tb (d : Dev) (n : Nat) (f : XferChan → XferChan) : (d.updXfer n f).tb = d.tb := (rfl)
@[simp] theorem Dev.updXfer_trg (d : Dev) (n : Nat) (f : XferChan → XferChan) : (d.updXfer n f).trg = d.trg := (rfl)
@[simp] theorem Dev.updXfer_lanes (d : Dev) (n : Nat) (f : XferChan → XferChan) : (d.updXfer n f).lanes = d.lanes := (rfl)
@[simp] theorem Dev.updXfer_dec (d : Dev) (n : Nat) (f : XferChan → XferChan) : (d.updXfer n f).dec = d.dec := (rfl)
@[simp] theorem Dev.updXfer_tal (d : Dev) (n : Nat) (f : XferChan → XferChan) : (d.updXfer n f).tal = d.tal := (rfl)
@[simp] theorem Dev.updXfer_evi (d : Dev) (n : Nat) (f : XferChan → XferChan) : (d.updXfer n f).evi = d.evi := (rfl)
@[simp] theorem Dev.updXfer_ndl (d : Dev) (n : Nat) (f : XferChan → XferChan) : (d.updXfer n f).ndl = d.ndl := (rfl)
@[simp] theorem Dev.updXfer_stm (d : Dev) (n : Nat) (f : XferChan → XferChan) : (d.updXfer n f).stm = d.stm := (rfl)
@[simp] theorem Dev.updXfer_ben (d : Dev) (n : Nat) (f : XferChan → XferChan) : (d.updXfer n f).ben = d.ben := (rfl)
@[simp] theorem Dev.updXfer_link (d : Dev) (n : Nat) (f : XferChan → XferChan) : (d.updXfer n f).link = d.link := (rfl)
@[simp] theorem Dev.updXfer_que (d : Dev) (n : Nat) (f : XferChan → XferChan) : (d.updXfer n f).que = d.que := (rfl)
@[simp] theorem Dev.updXfer_evr (d : Dev) (n : Nat) (f : XferChan → XferChan) : (d.updXfer n f).evr = d.evr := (rfl)
@[simp] theorem Dev.updXfer_eth (d : Dev) (n : Nat) (f : XferChan → XferChan) : (d.updXfer n f).eth = d.eth := (rfl)
@[simp] theorem Dev.updXfer_faKey (d : Dev) (n : Nat) (f : XferChan → XferChan) : (d.updXfer n f).faKey = d.faKey := (rfl)
@[simp] theorem Dev.updXfer_syn (d : Dev) (n : Nat) (f : XferChan → XferChan) : (d.updXfer n f).syn = d.syn := (rfl)
@[simp] theorem Dev.updXfer_ras (d : Dev) (n : Nat) (f : XferChan → XferChan) : (d.updXfer n f).ras = d.ras := (rfl)
@[simp] theorem Dev.updXfer_pwr (d : Dev) (n : Nat) (f : XferChan → XferChan) : (d.updXfer n f).pwr = d.pwr := (rfl)
@[simp] theorem Dev.updXfer_sec (d : Dev) (n : Nat) (f : XferChan → XferChan) : (d.updXfer n f).sec = d.sec := (rfl)
@[simp] theorem Dev.updXfer_rd (d : Dev) (n : Nat) (f : XferChan → XferChan) (r : Reg) : (d.updXfer n f).rd r = d.rd r :=
  Dev.rd_congr (Dev.updXfer_regs d n f) r
@[simp] theorem Dev.updXfer_get (d : Dev) (n : Nat) (f : XferChan → XferChan) (fl : Fld) (m₁ m₂ m₃ : Nat) : (d.updXfer n f).get fl m₁ m₂ m₃ = d.get fl m₁ m₂ m₃ :=
  Dev.get_congr (Dev.updXfer_regs d n f) fl m₁ m₂ m₃

@[simp] theorem Dev.updSlot_now (d : Dev) (b : Bool) (f : FwSlot → FwSlot) : (d.updSlot b f).now = d.now := (rfl)
@[simp] theorem Dev.updSlot_freeSeq (d : Dev) (b : Bool) (f : FwSlot → FwSlot) : (d.updSlot b f).freeSeq = d.freeSeq := (rfl)
@[simp] theorem Dev.updSlot_regs (d : Dev) (b : Bool) (f : FwSlot → FwSlot) : (d.updSlot b f).regs = d.regs := (rfl)
@[simp] theorem Dev.updSlot_bus (d : Dev) (b : Bool) (f : FwSlot → FwSlot) : (d.updSlot b f).bus = d.bus := (rfl)
@[simp] theorem Dev.updSlot_path (d : Dev) (b : Bool) (f : FwSlot → FwSlot) : (d.updSlot b f).path = d.path := (rfl)
@[simp] theorem Dev.updSlot_logic (d : Dev) (b : Bool) (f : FwSlot → FwSlot) : (d.updSlot b f).logic = d.logic := (rfl)
@[simp] theorem Dev.updSlot_stageNext (d : Dev) (b : Bool) (f : FwSlot → FwSlot) : (d.updSlot b f).stageNext = d.stageNext := (rfl)
@[simp] theorem Dev.updSlot_slice (d : Dev) (b : Bool) (f : FwSlot → FwSlot) : (d.updSlot b f).slice = d.slice := (rfl)
@[simp] theorem Dev.updSlot_tb (d : Dev) (b : Bool) (f : FwSlot → FwSlot) : (d.updSlot b f).tb = d.tb := (rfl)
@[simp] theorem Dev.updSlot_trg (d : Dev) (b : Bool) (f : FwSlot → FwSlot) : (d.updSlot b f).trg = d.trg := (rfl)
@[simp] theorem Dev.updSlot_lanes (d : Dev) (b : Bool) (f : FwSlot → FwSlot) : (d.updSlot b f).lanes = d.lanes := (rfl)
@[simp] theorem Dev.updSlot_dec (d : Dev) (b : Bool) (f : FwSlot → FwSlot) : (d.updSlot b f).dec = d.dec := (rfl)
@[simp] theorem Dev.updSlot_tal (d : Dev) (b : Bool) (f : FwSlot → FwSlot) : (d.updSlot b f).tal = d.tal := (rfl)
@[simp] theorem Dev.updSlot_evi (d : Dev) (b : Bool) (f : FwSlot → FwSlot) : (d.updSlot b f).evi = d.evi := (rfl)
@[simp] theorem Dev.updSlot_ndl (d : Dev) (b : Bool) (f : FwSlot → FwSlot) : (d.updSlot b f).ndl = d.ndl := (rfl)
@[simp] theorem Dev.updSlot_stm (d : Dev) (b : Bool) (f : FwSlot → FwSlot) : (d.updSlot b f).stm = d.stm := (rfl)
@[simp] theorem Dev.updSlot_ben (d : Dev) (b : Bool) (f : FwSlot → FwSlot) : (d.updSlot b f).ben = d.ben := (rfl)
@[simp] theorem Dev.updSlot_link (d : Dev) (b : Bool) (f : FwSlot → FwSlot) : (d.updSlot b f).link = d.link := (rfl)
@[simp] theorem Dev.updSlot_que (d : Dev) (b : Bool) (f : FwSlot → FwSlot) : (d.updSlot b f).que = d.que := (rfl)
@[simp] theorem Dev.updSlot_evr (d : Dev) (b : Bool) (f : FwSlot → FwSlot) : (d.updSlot b f).evr = d.evr := (rfl)
@[simp] theorem Dev.updSlot_xfe (d : Dev) (b : Bool) (f : FwSlot → FwSlot) : (d.updSlot b f).xfe = d.xfe := (rfl)
@[simp] theorem Dev.updSlot_eth (d : Dev) (b : Bool) (f : FwSlot → FwSlot) : (d.updSlot b f).eth = d.eth := (rfl)
@[simp] theorem Dev.updSlot_faKey (d : Dev) (b : Bool) (f : FwSlot → FwSlot) : (d.updSlot b f).faKey = d.faKey := (rfl)
@[simp] theorem Dev.updSlot_syn (d : Dev) (b : Bool) (f : FwSlot → FwSlot) : (d.updSlot b f).syn = d.syn := (rfl)
@[simp] theorem Dev.updSlot_ras (d : Dev) (b : Bool) (f : FwSlot → FwSlot) : (d.updSlot b f).ras = d.ras := (rfl)
@[simp] theorem Dev.updSlot_sec (d : Dev) (b : Bool) (f : FwSlot → FwSlot) : (d.updSlot b f).sec = d.sec := (rfl)
@[simp] theorem Dev.updSlot_rd (d : Dev) (b : Bool) (f : FwSlot → FwSlot) (r : Reg) : (d.updSlot b f).rd r = d.rd r :=
  Dev.rd_congr (Dev.updSlot_regs d b f) r
@[simp] theorem Dev.updSlot_get (d : Dev) (b : Bool) (f : FwSlot → FwSlot) (fl : Fld) (m₁ m₂ m₃ : Nat) : (d.updSlot b f).get fl m₁ m₂ m₃ = d.get fl m₁ m₂ m₃ :=
  Dev.get_congr (Dev.updSlot_regs d b f) fl m₁ m₂ m₃

/-- All that `Dev.testEnd` can change. -/
theorem Dev.testEnd_shape (d : Dev) (f u r : Nat) (o : Option Nat) :
    (d.testEnd f u r o) = { d with regs := (d.testEnd f u r o).regs, freeSeq := (d.testEnd f u r o).freeSeq } := by
  have h : { d.testEnd f u r o with regs := [], freeSeq := 0 } = ({ d with regs := [], freeSeq := 0 } : Dev) := by
    refine foldl_keeps (fun d : Dev => ({ d with regs := [], freeSeq := 0 } : Dev)) _ (fun d x => ?_) _ d
    simp only
    split
    · split <;> simp
    · rfl
  simp only [Dev.mk.injEq] at h
  apply Dev.ext_fields <;> simp [h]

@[simp] theorem Dev.testEnd_now (d : Dev) (f u r : Nat) (o : Option Nat) : (d.testEnd f u r o).now = d.now := by
  rw [Dev.testEnd_shape]
@[simp] theorem Dev.testEnd_bus (d : Dev) (f u r : Nat) (o : Option Nat) : (d.testEnd f u r o).bus = d.bus := by
  rw [Dev.testEnd_shape]
@[simp] theorem Dev.testEnd_path (d : Dev) (f u r : Nat) (o : Option Nat) : (d.testEnd f u r o).path = d.path := by
  rw [Dev.testEnd_shape]
@[simp] theorem Dev.testEnd_logic (d : Dev) (f u r : Nat) (o : Option Nat) : (d.testEnd f u r o).logic = d.logic := by
  rw [Dev.testEnd_shape]
@[simp] theorem Dev.testEnd_stageNext (d : Dev) (f u r : Nat) (o : Option Nat) : (d.testEnd f u r o).stageNext = d.stageNext := by
  rw [Dev.testEnd_shape]
@[simp] theorem Dev.testEnd_slice (d : Dev) (f u r : Nat) (o : Option Nat) : (d.testEnd f u r o).slice = d.slice := by
  rw [Dev.testEnd_shape]
@[simp] theorem Dev.testEnd_tb (d : Dev) (f u r : Nat) (o : Option Nat) : (d.testEnd f u r o).tb = d.tb := by
  rw [Dev.testEnd_shape]
@[simp] theorem Dev.testEnd_trg (d : Dev) (f u r : Nat) (o : Option Nat) : (d.testEnd f u r o).trg = d.trg := by
  rw [Dev.testEnd_shape]
@[simp] theorem Dev.testEnd_lanes (d : Dev) (f u r : Nat) (o : Option Nat) : (d.testEnd f u r o).lanes = d.lanes := by
  rw [Dev.testEnd_shape]
@[simp] theorem Dev.testEnd_dec (d : Dev) (f u r : Nat) (o : Option Nat) : (d.testEnd f u r o).dec = d.dec := by
  rw [Dev.testEnd_shape]
@[simp] theorem Dev.testEnd_tal (d : Dev) (f u r : Nat) (o : Option Nat) : (d.testEnd f u r o).tal = d.tal := by
  rw [Dev.testEnd_shape]
@[simp] theorem Dev.testEnd_evi (d : Dev) (f u r : Nat) (o : Option Nat) : (d.testEnd f u r o).evi = d.evi := by
  rw [Dev.testEnd_shape]
@[simp] theorem Dev.testEnd_ndl (d : Dev) (f u r : Nat) (o : Option Nat) : (d.testEnd f u r o).ndl = d.ndl := by
  rw [Dev.testEnd_shape]
@[simp] theorem Dev.testEnd_stm (d : Dev) (f u r : Nat) (o : Option Nat) : (d.testEnd f u r o).stm = d.stm := by
  rw [Dev.testEnd_shape]
@[simp] theorem Dev.testEnd_ben (d : Dev) (f u r : Nat) (o : Option Nat) : (d.testEnd f u r o).ben = d.ben := by
  rw [Dev.testEnd_shape]
@[simp] theorem Dev.testEnd_link (d : Dev) (f u r : Nat) (o : Option Nat) : (d.testEnd f u r o).link = d.link := by
  rw [Dev.testEnd_shape]
@[simp] theorem Dev.testEnd_que (d : Dev) (f u r : Nat) (o : Option Nat) : (d.testEnd f u r o).que = d.que := by
  rw [Dev.testEnd_shape]
@[simp] theorem Dev.testEnd_evr (d : Dev) (f u r : Nat) (o : Option Nat) : (d.testEnd f u r o).evr = d.evr := by
  rw [Dev.testEnd_shape]
@[simp] theorem Dev.testEnd_xfe (d : Dev) (f u r : Nat) (o : Option Nat) : (d.testEnd f u r o).xfe = d.xfe := by
  rw [Dev.testEnd_shape]
@[simp] theorem Dev.testEnd_eth (d : Dev) (f u r : Nat) (o : Option Nat) : (d.testEnd f u r o).eth = d.eth := by
  rw [Dev.testEnd_shape]
@[simp] theorem Dev.testEnd_faKey (d : Dev) (f u r : Nat) (o : Option Nat) : (d.testEnd f u r o).faKey = d.faKey := by
  rw [Dev.testEnd_shape]
@[simp] theorem Dev.testEnd_syn (d : Dev) (f u r : Nat) (o : Option Nat) : (d.testEnd f u r o).syn = d.syn := by
  rw [Dev.testEnd_shape]
@[simp] theorem Dev.testEnd_ras (d : Dev) (f u r : Nat) (o : Option Nat) : (d.testEnd f u r o).ras = d.ras := by
  rw [Dev.testEnd_shape]
@[simp] theorem Dev.testEnd_pwr (d : Dev) (f u r : Nat) (o : Option Nat) : (d.testEnd f u r o).pwr = d.pwr := by
  rw [Dev.testEnd_shape]
@[simp] theorem Dev.testEnd_sec (d : Dev) (f u r : Nat) (o : Option Nat) : (d.testEnd f u r o).sec = d.sec := by
  rw [Dev.testEnd_shape]

@[simp] theorem Dev.updHeld_now (d : Dev) (k num : Nat) (f : Held → Held) : (d.updHeld k num f).now = d.now := (rfl)
@[simp] theorem Dev.updHeld_freeSeq (d : Dev) (k num : Nat) (f : Held → Held) : (d.updHeld k num f).freeSeq = d.freeSeq := (rfl)
@[simp] theorem Dev.updHeld_regs (d : Dev) (k num : Nat) (f : Held → Held) : (d.updHeld k num f).regs = d.regs := (rfl)
@[simp] theorem Dev.updHeld_bus (d : Dev) (k num : Nat) (f : Held → Held) : (d.updHeld k num f).bus = d.bus := (rfl)
@[simp] theorem Dev.updHeld_path (d : Dev) (k num : Nat) (f : Held → Held) : (d.updHeld k num f).path = d.path := (rfl)
@[simp] theorem Dev.updHeld_logic (d : Dev) (k num : Nat) (f : Held → Held) : (d.updHeld k num f).logic = d.logic := (rfl)
@[simp] theorem Dev.updHeld_stageNext (d : Dev) (k num : Nat) (f : Held → Held) : (d.updHeld k num f).stageNext = d.stageNext := (rfl)
@[simp] theorem Dev.updHeld_slice (d : Dev) (k num : Nat) (f : Held → Held) : (d.updHeld k num f).slice = d.slice := (rfl)
@[simp] theorem Dev.updHeld_tb (d : Dev) (k num : Nat) (f : Held → Held) : (d.updHeld k num f).tb = d.tb := (rfl)
@[simp] theorem Dev.updHeld_trg (d : Dev) (k num : Nat) (f : Held → Held) : (d.updHeld k num f).trg = d.trg := (rfl)
@[simp] theorem Dev.updHeld_dec (d : Dev) (k num : Nat) (f : Held → Held) : (d.updHeld k num f).dec = d.dec := (rfl)
@[simp] theorem Dev.updHeld_tal (d : Dev) (k num : Nat) (f : Held → Held) : (d.updHeld k num f).tal = d.tal := (rfl)
@[simp] theorem Dev.updHeld_evi (d : Dev) (k num : Nat) (f : Held → Held) : (d.updHeld k num f).evi = d.evi := (rfl)
@[simp] theorem Dev.updHeld_ndl (d : Dev) (k num : Nat) (f : Held → Held) : (d.updHeld k num f).ndl = d.ndl := (rfl)
@[simp] theorem Dev.updHeld_stm (d : Dev) (k num : Nat) (f : Held → Held) : (d.updHeld k num f).stm = d.stm := (rfl)
@[simp] theorem Dev.updHeld_ben (d : Dev) (k num : Nat) (f : Held → Held) : (d.updHeld k num f).ben = d.ben := (rfl)
@[simp] theorem Dev.updHeld_link (d : Dev) (k num : Nat) (f : Held → Held) : (d.updHeld k num f).link = d.link := (rfl)
@[simp] theorem Dev.updHeld_que (d : Dev) (k num : Nat) (f : Held → Held) : (d.updHeld k num f).que = d.que := (rfl)
@[simp] theorem Dev.updHeld_evr (d : Dev) (k num : Nat) (f : Held → Held) : (d.updHeld k num f).evr = d.evr := (rfl)
@[simp] theorem Dev.updHeld_xfe (d : Dev) (k num : Nat) (f : Held → Held) : (d.updHeld k num f).xfe = d.xfe := (rfl)
@[simp] theorem Dev.updHeld_eth (d : Dev) (k num : Nat) (f : Held → Held) : (d.updHeld k num f).eth = d.eth := (rfl)
@[simp] theorem Dev.updHeld_faKey (d : Dev) (k num : Nat) (f : Held → Held) : (d.updHeld k num f).faKey = d.faKey := (rfl)
@[simp] theorem Dev.updHeld_syn (d : Dev) (k num : Nat) (f : Held → Held) : (d.updHeld k num f).syn = d.syn := (rfl)
@[simp] theorem Dev.updHeld_ras (d : Dev) (k num : Nat) (f : Held → Held) : (d.updHeld k num f).ras = d.ras := (rfl)
@[simp] theorem Dev.updHeld_pwr (d : Dev) (k num : Nat) (f : Held → Held) : (d.updHeld k num f).pwr = d.pwr := (rfl)
@[simp] theorem Dev.updHeld_sec (d : Dev) (k num : Nat) (f : Held → Held) : (d.updHeld k num f).sec = d.sec := (rfl)
@[simp] theorem Dev.updHeld_rd (d : Dev) (k num : Nat) (f : Held → Held) (r : Reg) : (d.updHeld k num f).rd r = d.rd r :=
  Dev.rd_congr (Dev.updHeld_regs d k num f) r
@[simp] theorem Dev.updHeld_get (d : Dev) (k num : Nat) (f : Held → Held) (fl : Fld) (m₁ m₂ m₃ : Nat) : (d.updHeld k num f).get fl m₁ m₂ m₃ = d.get fl m₁ m₂ m₃ :=
  Dev.get_congr (Dev.updHeld_regs d k num f) fl m₁ m₂ m₃

@[simp] theorem Dev.updSkein_now (d : Dev) (l : Nat) (f : Skein → Skein) : (d.updSkein l f).now = d.now := (rfl)
@[simp] theorem Dev.updSkein_freeSeq (d : Dev) (l : Nat) (f : Skein → Skein) : (d.updSkein l f).freeSeq = d.freeSeq := (rfl)
@[simp] theorem Dev.updSkein_regs (d : Dev) (l : Nat) (f : Skein → Skein) : (d.updSkein l f).regs = d.regs := (rfl)
@[simp] theorem Dev.updSkein_bus (d : Dev) (l : Nat) (f : Skein → Skein) : (d.updSkein l f).bus = d.bus := (rfl)
@[simp] theorem Dev.updSkein_path (d : Dev) (l : Nat) (f : Skein → Skein) : (d.updSkein l f).path = d.path := (rfl)
@[simp] theorem Dev.updSkein_logic (d : Dev) (l : Nat) (f : Skein → Skein) : (d.updSkein l f).logic = d.logic := (rfl)
@[simp] theorem Dev.updSkein_stageNext (d : Dev) (l : Nat) (f : Skein → Skein) : (d.updSkein l f).stageNext = d.stageNext := (rfl)
@[simp] theorem Dev.updSkein_slice (d : Dev) (l : Nat) (f : Skein → Skein) : (d.updSkein l f).slice = d.slice := (rfl)
@[simp] theorem Dev.updSkein_tb (d : Dev) (l : Nat) (f : Skein → Skein) : (d.updSkein l f).tb = d.tb := (rfl)
@[simp] theorem Dev.updSkein_trg (d : Dev) (l : Nat) (f : Skein → Skein) : (d.updSkein l f).trg = d.trg := (rfl)
@[simp] theorem Dev.updSkein_dec (d : Dev) (l : Nat) (f : Skein → Skein) : (d.updSkein l f).dec = d.dec := (rfl)
@[simp] theorem Dev.updSkein_tal (d : Dev) (l : Nat) (f : Skein → Skein) : (d.updSkein l f).tal = d.tal := (rfl)
@[simp] theorem Dev.updSkein_evi (d : Dev) (l : Nat) (f : Skein → Skein) : (d.updSkein l f).evi = d.evi := (rfl)
@[simp] theorem Dev.updSkein_ndl (d : Dev) (l : Nat) (f : Skein → Skein) : (d.updSkein l f).ndl = d.ndl := (rfl)
@[simp] theorem Dev.updSkein_stm (d : Dev) (l : Nat) (f : Skein → Skein) : (d.updSkein l f).stm = d.stm := (rfl)
@[simp] theorem Dev.updSkein_ben (d : Dev) (l : Nat) (f : Skein → Skein) : (d.updSkein l f).ben = d.ben := (rfl)
@[simp] theorem Dev.updSkein_link (d : Dev) (l : Nat) (f : Skein → Skein) : (d.updSkein l f).link = d.link := (rfl)
@[simp] theorem Dev.updSkein_que (d : Dev) (l : Nat) (f : Skein → Skein) : (d.updSkein l f).que = d.que := (rfl)
@[simp] theorem Dev.updSkein_evr (d : Dev) (l : Nat) (f : Skein → Skein) : (d.updSkein l f).evr = d.evr := (rfl)
@[simp] theorem Dev.updSkein_xfe (d : Dev) (l : Nat) (f : Skein → Skein) : (d.updSkein l f).xfe = d.xfe := (rfl)
@[simp] theorem Dev.updSkein_eth (d : Dev) (l : Nat) (f : Skein → Skein) : (d.updSkein l f).eth = d.eth := (rfl)
@[simp] theorem Dev.updSkein_faKey (d : Dev) (l : Nat) (f : Skein → Skein) : (d.updSkein l f).faKey = d.faKey := (rfl)
@[simp] theorem Dev.updSkein_syn (d : Dev) (l : Nat) (f : Skein → Skein) : (d.updSkein l f).syn = d.syn := (rfl)
@[simp] theorem Dev.updSkein_ras (d : Dev) (l : Nat) (f : Skein → Skein) : (d.updSkein l f).ras = d.ras := (rfl)
@[simp] theorem Dev.updSkein_pwr (d : Dev) (l : Nat) (f : Skein → Skein) : (d.updSkein l f).pwr = d.pwr := (rfl)
@[simp] theorem Dev.updSkein_sec (d : Dev) (l : Nat) (f : Skein → Skein) : (d.updSkein l f).sec = d.sec := (rfl)
@[simp] theorem Dev.updSkein_rd (d : Dev) (l : Nat) (f : Skein → Skein) (r : Reg) : (d.updSkein l f).rd r = d.rd r :=
  Dev.rd_congr (Dev.updSkein_regs d l f) r
@[simp] theorem Dev.updSkein_get (d : Dev) (l : Nat) (f : Skein → Skein) (fl : Fld) (m₁ m₂ m₃ : Nat) : (d.updSkein l f).get fl m₁ m₂ m₃ = d.get fl m₁ m₂ m₃ :=
  Dev.get_congr (Dev.updSkein_regs d l f) fl m₁ m₂ m₃

end Sys2Proof.Machine
end

