-- ==== Sys2Proof/Laws/Ops.lean ====
section
/-!
SUPPORT. The laws of the shared operations: raising events, letting time pass, counters, folds over units, and the next
state of a command.
-/
namespace Sys2Proof.Machine

/-! ### Commands and steps -/

theorem State.effect_next (s : State) (f : Dev → Dev) : s.effect f = .next { s with dev := f s.dev } := rfl

/-- A command in front of the queue acts with the queue's rest. -/
theorem step_front (d : Dev) (c : Instr) (rest : List Instr) : step ⟨d, c :: rest⟩ = exec c ⟨d, rest⟩ := rfl

theorem step_empty (d : Dev) : step ⟨d, []⟩ = .next ⟨d.idle, []⟩ := rfl

/-! ### The frame of a command -/

theorem Dev.frameEnd_of_empty {d : Dev} (h : d.bus.writes = []) : d.frameEnd = d := by
  rw [Dev.frameEnd, h]
  rfl

/-- A frame that holds writes ends with them, and the next one begins. -/
theorem Dev.frameEnd_of_writes {d : Dev} (h : d.bus.writes ≠ []) : d.frameEnd = d.flush.advanceTo (d.now + 1) := by
  rw [Dev.frameEnd, if_neg (by simpa using h)]

/-- A command that is no access acts on the module as the end of its frame leaves it. -/
theorem State.row_next (s : State) (f : Dev → Dev) : s.row f = .next { s with dev := f s.dev.frameEnd } := rfl

theorem State.row_of_empty {s : State} (h : s.dev.bus.writes = []) (f : Dev → Dev) :
    s.row f = .next { s with dev := f s.dev } := by
  rw [State.row_next, Dev.frameEnd_of_empty h]

theorem State.rowLast_next (s : State) (f : Dev → Dev) :
    s.rowLast f = .next { s with dev := (f s.dev.frameEnd).idle } := rfl

theorem State.rowLast_of_empty {s : State} (h : s.dev.bus.writes = []) (f : Dev → Dev) :
    s.rowLast f = .next { s with dev := (f s.dev).idle } := by
  rw [State.rowLast_next, Dev.frameEnd_of_empty h]

/-- An access joins the writes of a frame in which its requester has not written. -/
theorem State.access_joins {s : State} {rqs : List Rq} (h : rqs.any s.dev.hasWritten = false) (f : Dev → Dev) :
    s.access rqs f = .next { s with dev := f s.dev } := by
  simp only [State.access, State.effect_next, h]
  rfl

/-- An access of a requester that has written in the frame joins the next one. -/
theorem State.access_next {s : State} {rqs : List Rq} (h : rqs.any s.dev.hasWritten = true) (f : Dev → Dev) :
    s.access rqs f = .next { s with dev := f s.dev.frameEnd } := by
  simp only [State.access, State.effect_next, h]
  rfl

theorem Dev.reach_le {d : Dev} {t : Nat} (h : t ≤ d.now) : d.reach t = d := by rw [Dev.reach, if_neg (by omega)]

/-! ### Events -/

@[simp] theorem Dev.raiseAt_raised (d : Dev) (k e : Nat) : (d.raiseAt k e).raised k e := by
  rw [Dev.raised, Dev.raiseAt]
  split
  · assumption
  · simp

@[simp] theorem Dev.raise_raised (d : Dev) (e : Nat) : (d.raise e).raised d.now e := d.raiseAt_raised d.now e

/-- An event stays raised when another one is raised. -/
theorem Dev.raised_raiseAt {d : Dev} {k e : Nat} (h : d.raised k e) (k' e' : Nat) : (d.raiseAt k' e').raised k e := by
  rw [Dev.raiseAt]
  split
  · exact h
  · simp only [Dev.raised] at *
    simp [h]

theorem Dev.raised_raise {d : Dev} {k e : Nat} (h : d.raised k e) (e' : Nat) : (d.raise e').raised k e :=
  Dev.raised_raiseAt h _ _

theorem Dev.mem_raiseAt (d : Dev) (k e k' e' : Nat) :
    (k, e) ∈ (d.raiseAt k' e').evr.arriving ↔ (k, e) ∈ d.evr.arriving ∨ k = k' ∧ e = e' := by
  rw [Dev.raiseAt]
  split
  · next h =>
    constructor
    · exact Or.inl
    · rintro (h' | ⟨rfl, rfl⟩) <;> assumption
  · simp

theorem Dev.mem_raise (d : Dev) (k e e' : Nat) :
    (k, e) ∈ (d.raise e').evr.arriving ↔ (k, e) ∈ d.evr.arriving ∨ k = d.now ∧ e = e' := Dev.mem_raiseAt d k e d.now e'

theorem Dev.raised_congr {d d' : Dev} (h : d'.evr = d.evr) (k e : Nat) : d'.raised k e ↔ d.raised k e := by
  rw [Dev.raised, Dev.raised, h]

/-- An occurrence of an event with a hold-off, while none runs, raises it and starts one (R462). -/
theorem Dev.raiseHeld_none {d : Dev} {n e : Nat} (h : (d.evr.hold.get e).until_ = none) :
    d.raiseHeld n e = d.raiseHold d.now n e := by
  rw [Dev.raiseHeld, Dev.raiseHeldAt, h]

theorem Dev.raiseHold_raised (d : Dev) (k n e : Nat) : (d.raiseHold k n e).raised k e := d.raiseAt_raised k e

/-! ### Time -/

theorem Dev.advanceTo_le {d : Dev} {t : Nat} (h : t ≤ d.now) : d.advanceTo t = d := by rw [Dev.advanceTo, if_pos h]

/-- The clock goes to `t`, and never back. -/
theorem Dev.advanceTo_now (d : Dev) (t : Nat) : (d.advanceTo t).now = max d.now t := by
  rw [Dev.advanceTo]
  split
  · omega
  · simp only
    split
    · split <;> simp <;> omega
    · simp
      omega

theorem Dev.idle_of_empty {d : Dev} (h : d.bus.writes = []) : d.idle = d.advanceTo (d.now + 1) := by
  rw [Dev.idle, h]
  rfl

theorem Dev.idle_now {d : Dev} (h : d.bus.writes = []) : d.idle.now = d.now + 1 := by
  rw [Dev.idle_of_empty h, Dev.advanceTo_now]
  omega

/-- An event stays raised while time passes. -/
theorem Dev.raised_advanceTo {d : Dev} {k e : Nat} (h : d.raised k e) (t : Nat) : (d.advanceTo t).raised k e := by
  rw [Dev.advanceTo]
  split
  · exact h
  · have h' : Dev.raised ((d.setNow t).setBus { d.bus with sets := [] }) k e := h
    dsimp only
    split
    · split
      · exact Dev.raised_raiseAt (Dev.raised_raiseAt h' _ _) _ _
      · exact Dev.raised_raiseAt h' _ _
    · exact h'

/-! ### Counters -/

/-- An RC counter adds and saturates at all ones (R460). -/
theorem Dev.get_count_eq (d : Dev) (f : Fld) (i j n : Nat) (h : f.whole = true) (hg : f.g ≠ .GLB_CNT_SAT) :
    (d.count f i j n).get f i j = min (2 ^ f.w - 1) (d.get f i j + n) := by
  have hp := Nat.two_pow_pos f.w
  have hv : (d.put f (min (2 ^ f.w - 1) (d.get f i j + n)) i j).get f i j
      = min (2 ^ f.w - 1) (d.get f i j + n) := by
    rw [Dev.get_put_eq _ _ _ _ _ _ h, Nat.mod_eq_of_lt (by omega)]
  rw [Dev.count]
  simp only
  split
  · exact (Dev.get_wr_family _ _ i j 0 hg).trans hv
  · exact hv

theorem Dev.rd_count (d : Dev) (f : Fld) (i j n : Nat) {r : Reg} (h : r.g ≠ f.g) (hs : r.g ≠ .GLB_CNT_SAT) :
    (d.count f i j n).rd r = d.rd r := by
  rw [Dev.count]
  simp only
  split
  · rw [Dev.rd_wr_ne _ (fun x => hs (congrArg Reg.g x)), Dev.rd_put_family _ _ _ _ _ _ h]
  · rw [Dev.rd_put_family _ _ _ _ _ _ h]

theorem Dev.get_count_other (d : Dev) (f f' : Fld) (i j n i' j' k' : Nat)
    (h : (decide (f'.g ≠ f.g) && decide (f'.g ≠ .GLB_CNT_SAT)) = true) :
    (d.count f i j n).get f' i' j' k' = d.get f' i' j' k' := by
  rw [Bool.and_eq_true, decide_eq_true_eq, decide_eq_true_eq] at h
  rw [Dev.get, Dev.get, Dev.rd_count _ _ _ _ _ h.1 h.2]

/-! ### Loops over units -/

/-- What holds after `i` rounds of a loop over the units 0 to `k - 1`, for every `i`, holds at its end. -/
theorem foldl_range_ind {σ : Type} {f : σ → Nat → σ} (P : Nat → σ → Prop) {k : Nat} {s : σ} (h0 : P 0 s)
    (hs : ∀ i s, i < k → P i s → P (i + 1) (f s i)) : P k ((List.range k).foldl f s) := by
  induction k with
  | zero => exact h0
  | succ k ih =>
    rw [List.range_succ, List.foldl_append]
    exact hs k _ (Nat.lt_succ_self k) (ih fun i s hi => hs i s (Nat.lt_succ_of_lt hi))

/-! ### Frames of registers -/

theorem ne_of_notMem {r : Reg} {l : List Rg} {g : Rg} (h : r.g ∉ l) (hg : g ∈ l) : r.g ≠ g := fun x => h (x ▸ hg)

theorem Dev.keepsRegs_refl (d : Dev) (l : List Rg) : d.keepsRegs d l := fun _ _ => rfl

theorem Dev.keepsRegs_trans {a b c : Dev} {l : List Rg} (h : a.keepsRegs b l) (h' : b.keepsRegs c l) : a.keepsRegs c l :=
  fun r hr => (h' r hr).trans (h r hr)

/-- A field of a family that is kept reads as before. -/
theorem Dev.keepsRegs_get {d d' : Dev} {l : List Rg} (h : d.keepsRegs d' l) (f : Fld) (i j k : Nat) (hf : f.g ∉ l) :
    d'.get f i j k = d.get f i j k := by
  rw [Dev.get, Dev.get, h _ hf]

/-- The end of a test session changes the registers of the test block. -/
theorem Dev.testEnd_keeps (d : Dev) (f u r : Nat) (o : Option Nat) :
    d.keepsRegs (d.testEnd f u r o) [.TST_CTL, .TST_STAT, .TST_BITS, .TST_ERRS] := by
  intro r hr
  refine foldl_keeps (fun d : Dev => d.rd r) _ (fun d x => ?_) _ d
  simp only
  split
  · split <;> simp (disch := (first | decide | exact ne_of_notMem (by assumption) (by decide))) only
      [Dev.putFree, Dev.rd_put_family, Dev.rd_putb_family, Dev.drawn_rd]
  · rfl

end Sys2Proof.Machine
end

