-- ==== Sys2Proof/Laws/Closed.lean ====
section
/-!
SUPPORT. How to show that an operation keeps a property of the module: a property is closed under changes when every change
of a part keeps it (`c` numbers the parts, a bit each, then the contents of memories, then the writes that a frame holds), and
every write of a register (`g` numbers the families, a bit each).
The files beside this one show once, for each operation, which parts and families it can change.
-/
namespace Sys2Proof.Machine

/-- A new content of a memory is the old one unless it `may` change, and canonical where the old one is. -/
def Memory.keeps (may : Bool) (a b : Memory) : Prop := (may = false → b = a) ∧ (a.wf = true → b.wf = true)

/-- The same of the bench and the quarry. -/
def Bench.keeps (a : Bench) (may : Bool) (b : Bench) : Prop := Memory.keeps may a.bench b.bench ∧ Memory.keeps may a.quarry b.quarry

/-- `P` is kept by writes of the register families of `g` and by changes of the parts of `c`; the clock only goes on. -/
structure Closed (P : Dev → Prop) (c g : Nat) : Prop where
  wr : ∀ (d : Dev) (r : Reg) (v : W64), g.testBit r.g.ctorIdx = true → P d → P (d.wr r v)
  now : c.testBit 0 = true → ∀ (d : Dev) (x : Nat), d.now ≤ x → P d → P (d.setNow x)
  freeSeq : c.testBit 1 = true → ∀ (d : Dev) (x : Nat), P d → P (d.setFreeSeq x)
  kept : c.testBit 2 = true → ∀ (d : Dev) (k : Rg → W64), P d → P (d.setRegs (d.keptRegs k))
  bus : c.testBit 3 = true → ∀ (d : Dev) (x : BusState), (c.testBit 32 = false → x.writes = d.bus.writes ∨ x.writes = []) →
    P d → P (d.setBus x)
  path : c.testBit 4 = true → ∀ (d : Dev) (x : Tab Path), P d → P (d.setPath x)
  logic : c.testBit 5 = true → ∀ (d : Dev) (x : Tab (List LogicFrame)), P d → P (d.setLogic x)
  stageNext : c.testBit 6 = true → ∀ (d : Dev) (x : Nat), P d → P (d.setStageNext x)
  slice : c.testBit 7 = true → ∀ (d : Dev) (x : Tab Slice), P d → P (d.setSlice x)
  tb : c.testBit 8 = true → ∀ (d : Dev) (x : TimeBase), P d → P (d.setTb x)
  trg : c.testBit 9 = true → ∀ (d : Dev) (x : Tab TrigUnit), P d → P (d.setTrg x)
  lanes : c.testBit 10 = true → ∀ (d : Dev) (x : Lanes), P d → P (d.setLanes x)
  dec : c.testBit 11 = true → ∀ (d : Dev) (x : Decimation), P d → P (d.setDec x)
  tal : c.testBit 12 = true → ∀ (d : Dev) (x : Tally), Memory.keeps (c.testBit 28) d.tal.mem x.mem → P d → P (d.setTal x)
  evi : c.testBit 13 = true → ∀ (d : Dev) (x : EventIn), P d → P (d.setEvi x)
  ndl : c.testBit 14 = true → ∀ (d : Dev) (x : Needles), Memory.keeps (c.testBit 29) d.ndl.prog x.prog → P d → P (d.setNdl x)
  stm : c.testBit 15 = true → ∀ (d : Dev) (x : Tab Stim), P d → P (d.setStm x)
  ben : c.testBit 16 = true → ∀ (d : Dev) (x : Bench), d.ben.keeps (c.testBit 27) x → P d → P (d.setBen x)
  link : c.testBit 17 = true → ∀ (d : Dev) (x : LinkState), P d → P (d.setLink x)
  que : c.testBit 18 = true → ∀ (d : Dev) (x : QueueEngine), Memory.keeps (c.testBit 31) d.que.hostMem x.hostMem → P d → P (d.setQue x)
  evr : c.testBit 19 = true → ∀ (d : Dev) (x : Router), P d → P (d.setEvr x)
  xfe : c.testBit 20 = true → ∀ (d : Dev) (x : Xfer), P d → P (d.setXfe x)
  eth : c.testBit 21 = true → ∀ (d : Dev) (x : Tab Port), P d → P (d.setEth x)
  faKey : c.testBit 22 = true → ∀ (d : Dev) (x : Tab Nat), P d → P (d.setFaKey x)
  syn : c.testBit 23 = true → ∀ (d : Dev) (x : SynBus), P d → P (d.setSyn x)
  ras : c.testBit 24 = true → ∀ (d : Dev) (x : Raster), Memory.keeps (c.testBit 30) d.ras.mem x.mem → P d → P (d.setRas x)
  pwr : c.testBit 25 = true → ∀ (d : Dev) (x : Power), P d → P (d.setPwr x)
  sec : c.testBit 26 = true → ∀ (d : Dev) (x : Security), P d → P (d.setSec x)

theorem testBit_of_lor {a b : Nat} (h : a ||| b = b) {i : Nat} (hi : a.testBit i = true) : b.testBit i = true := by
  rw [← h, Nat.testBit_or, hi, Bool.true_or]

theorem Memory.keeps_mono {a b : Bool} (h : a = true → b = true) {m m' : Memory} (hk : Memory.keeps a m m') :
    Memory.keeps b m m' :=
  ⟨fun hb => hk.1 (by cases a <;> simp_all), hk.2⟩

/-- What is closed under more changes is closed under fewer. -/
theorem Closed.mono {P : Dev → Prop} {c g c' g' : Nat} (h : Closed P c g) (hc : c' ||| c = c) (hg : g' ||| g = g) :
    Closed P c' g' where
  wr := fun d r v hr => h.wr d r v (testBit_of_lor hg hr)
  now := fun hi => h.now (testBit_of_lor hc hi)
  freeSeq := fun hi => h.freeSeq (testBit_of_lor hc hi)
  kept := fun hi => h.kept (testBit_of_lor hc hi)
  bus := fun hi d x hk => h.bus (testBit_of_lor hc hi) d x fun h' => hk (by
    cases hb : c'.testBit 32 with
    | false => rfl
    | true => rw [testBit_of_lor hc hb] at h'; cases h')
  path := fun hi => h.path (testBit_of_lor hc hi)
  logic := fun hi => h.logic (testBit_of_lor hc hi)
  stageNext := fun hi => h.stageNext (testBit_of_lor hc hi)
  slice := fun hi => h.slice (testBit_of_lor hc hi)
  tb := fun hi => h.tb (testBit_of_lor hc hi)
  trg := fun hi => h.trg (testBit_of_lor hc hi)
  lanes := fun hi => h.lanes (testBit_of_lor hc hi)
  dec := fun hi => h.dec (testBit_of_lor hc hi)
  tal := fun hi d x hk => h.tal (testBit_of_lor hc hi) d x (Memory.keeps_mono (testBit_of_lor hc) hk)
  evi := fun hi => h.evi (testBit_of_lor hc hi)
  ndl := fun hi d x hk => h.ndl (testBit_of_lor hc hi) d x (Memory.keeps_mono (testBit_of_lor hc) hk)
  stm := fun hi => h.stm (testBit_of_lor hc hi)
  ben := fun hi d x hk => h.ben (testBit_of_lor hc hi) d x
    ⟨Memory.keeps_mono (testBit_of_lor hc) hk.1, Memory.keeps_mono (testBit_of_lor hc) hk.2⟩
  link := fun hi => h.link (testBit_of_lor hc hi)
  que := fun hi d x hk => h.que (testBit_of_lor hc hi) d x (Memory.keeps_mono (testBit_of_lor hc) hk)
  evr := fun hi => h.evr (testBit_of_lor hc hi)
  xfe := fun hi => h.xfe (testBit_of_lor hc hi)
  eth := fun hi => h.eth (testBit_of_lor hc hi)
  faKey := fun hi => h.faKey (testBit_of_lor hc hi)
  syn := fun hi => h.syn (testBit_of_lor hc hi)
  ras := fun hi d x hk => h.ras (testBit_of_lor hc hi) d x (Memory.keeps_mono (testBit_of_lor hc) hk)
  pwr := fun hi => h.pwr (testBit_of_lor hc hi)
  sec := fun hi => h.sec (testBit_of_lor hc hi)

theorem testBit_mask {c i : Nat} (h : c.testBit i = true) : 2 ^ i ||| c = c := by
  apply Nat.eq_of_testBit_eq
  intro j
  rw [Nat.testBit_or, Nat.testBit_two_pow]
  by_cases hj : i = j
  · simp [← hj, h]
  · simp [hj]

/-! ### Writes of registers and fields -/

section
variable {P : Dev → Prop} {c g : Nat}

theorem Closed.wrAt (h : Closed P c g) {d : Dev} {f : Rg} {i j k : Nat} {v : W64} (hg : g.testBit f.ctorIdx = true)
    (hd : P d) : P (d.wr ⟨f, i, j, k⟩ v) := h.wr d _ v hg hd

theorem Dev.put_ind (hP : Closed P c g) {f : Fld} {v i j k : Nat} {d : Dev} (hg : g.testBit f.g.ctorIdx = true)
    (h : P d) : P (d.put f v i j k) := hP.wr _ _ _ hg h

theorem Dev.puts_ind (hP : Closed P c g) {f : Fld} {v : Int} {i j k : Nat} {d : Dev}
    (hg : g.testBit f.g.ctorIdx = true) (h : P d) : P (d.puts f v i j k) := hP.wr _ _ _ hg h

theorem Dev.putb_ind (hP : Closed P c g) {f : Fld} {v : Bool} {i j k : Nat} {d : Dev}
    (hg : g.testBit f.g.ctorIdx = true) (h : P d) : P (d.putb f v i j k) := hP.wr _ _ _ hg h

theorem Dev.bump_ind (hP : Closed P c g) {f : Fld} {i j : Nat} {d : Dev} (hg : g.testBit f.g.ctorIdx = true)
    (h : P d) : P (d.bump f i j) := hP.wr _ _ _ hg h

theorem Dev.putBit_ind (hP : Closed P c g) {f : Fld} {n : Nat} {b : Bool} {d : Dev}
    (hg : g.testBit f.g.ctorIdx = true) (h : P d) : P (d.putBit f n b) := by
  rw [Dev.putBit]
  split
  · exact h
  · exact hP.wr _ _ _ hg h

theorem Dev.count_ind (hP : Closed P c g) {f : Fld} {i j n : Nat} {d : Dev} (hg : g.testBit f.g.ctorIdx = true)
    (hs : g.testBit Rg.GLB_CNT_SAT.ctorIdx = true) (h : P d) : P (d.count f i j n) := by
  rw [Dev.count]
  simp only
  split
  · exact hP.wr _ _ _ hs (hP.wr _ _ _ hg h)
  · exact hP.wr _ _ _ hg h

theorem Dev.setBits_ind (hP : Closed P c g) {r : Reg} {m : W64} {d : Dev} (hg : g.testBit r.g.ctorIdx = true)
    (hc : c.testBit 3 = true) (h : P d) : P (d.setBits r m) := hP.bus hc _ _ (fun _ => Or.inl rfl) (hP.wr _ _ _ hg h)

theorem Dev.setBitsAt_ind (hP : Closed P c g) {f : Rg} {i j k : Nat} {m : W64} {d : Dev}
    (hg : g.testBit f.ctorIdx = true) (hc : c.testBit 3 = true) (h : P d) : P (d.setBits ⟨f, i, j, k⟩ m) :=
  Dev.setBits_ind hP hg hc h

theorem Dev.setFlag_ind (hP : Closed P c g) {f : Fld} {i : Nat} {d : Dev} (hg : g.testBit f.g.ctorIdx = true)
    (hc : c.testBit 3 = true) (h : P d) : P (d.setFlag f i) := Dev.setBits_ind hP hg hc h

theorem Dev.putFree_ind (hP : Closed P c g) {f : Fld} {i j k : Nat} {d : Dev} (hg : g.testBit f.g.ctorIdx = true)
    (hc : c.testBit 1 = true) (h : P d) : P (d.putFree f i j k) := hP.freeSeq hc _ _ (hP.wr _ _ _ hg h)

end

/-! ### The shapes of a body -/

theorem ite_ind {P : Dev → Prop} {c : Prop} [Decidable c] {a b : Dev} (ha : P a) (hb : P b) : P (if c then a else b) := by
  split
  · exact ha
  · exact hb

theorem ite_fst {P : Dev → Prop} {β : Type} {c : Prop} [Decidable c] {a b : Dev × β} (ha : P a.1) (hb : P b.1) :
    P (if c then a else b).1 := by
  split
  · exact ha
  · exact hb

theorem ite_snd {P : Dev → Prop} {β : Type} {c : Prop} [Decidable c] {a b : β × Dev} (ha : P a.2) (hb : P b.2) :
    P (if c then a else b).2 := by
  split
  · exact ha
  · exact hb

theorem foldl_ind {P : Dev → Prop} {α : Type} {f : Dev → α → Dev} {l : List α} {d : Dev} (h : P d)
    (hf : ∀ d x, P d → P (f d x)) : P (l.foldl f d) := foldl_invariant P f l h (fun d x _ => hf d x)

theorem foldl_fst {P : Dev → Prop} {α β : Type} {f : Dev × β → α → Dev × β} {l : List α} {y : Dev × β} (h : P y.1)
    (hf : ∀ y x, P y.1 → P (f y x).1) : P (l.foldl f y).1 := foldl_invariant (fun y => P y.1) f l h (fun y x _ => hf y x)

theorem foldl_snd {P : Dev → Prop} {α β : Type} {f : β × Dev → α → β × Dev} {l : List α} {y : β × Dev} (h : P y.2)
    (hf : ∀ y x, P y.2 → P (f y x).2) : P (l.foldl f y).2 := foldl_invariant (fun y => P y.2) f l h (fun y x _ => hf y x)

theorem foldr_ind {P : Dev → Prop} {α : Type} {f : α → Dev → Dev} {l : List α} {d : Dev} (h : P d)
    (hf : ∀ x d, P d → P (f x d)) : P (l.foldr f d) := by
  induction l with
  | nil => exact h
  | cons x t ih => exact hf _ _ ih

theorem Dev.wr128_ind {P : Dev → Prop} {c g : Nat} (hP : Closed P c g) {f : Rg} {i : Nat} {b : Bool} {v : BitVec 128}
    {d : Dev} (hg : g.testBit f.ctorIdx = true) (h : P d) : P (d.wr128 f i b v) :=
  foldl_ind h fun _ _ hd => ite_ind (hP.wr _ _ _ hg hd) (hP.wr _ _ _ hg hd)

theorem Memory.keeps_refl {may : Bool} (m : Memory) : Memory.keeps may m m := ⟨fun _ => rfl, id⟩
theorem Memory.keeps_store {may : Bool} (h : may = true) (m : Memory) (a : Nat) (b : List Byte) :
    Memory.keeps may m (m.store a b) := ⟨fun e => by simp [h] at e, fun h => Memory.wf_store h a b⟩
theorem Memory.keeps_filter {may : Bool} (h : may = true) (m : Memory) (p : Nat × Byte → Bool) :
    Memory.keeps may m (m.filter p) := ⟨fun e => by simp [h] at e, fun h => Memory.wf_filter h p⟩
theorem Memory.keeps_nil {may : Bool} (h : may = true) (m : Memory) : Memory.keeps may m [] :=
  ⟨fun e => by simp [h] at e, fun _ => rfl⟩
theorem Memory.keeps_foldl {may : Bool} {α : Type} {f : Memory → α → Memory} (h : ∀ m x, Memory.keeps may m (f m x))
    (l : List α) (m : Memory) : Memory.keeps may m (l.foldl f m) := by
  induction l generalizing m with
  | nil => exact Memory.keeps_refl m
  | cons x t ih =>
    exact ⟨fun e => ((ih (f m x)).1 e).trans ((h m x).1 e), fun hm => (ih (f m x)).2 ((h m x).2 hm)⟩
theorem Bench.keeps_of {may : Bool} {a b : Bench} (h : Memory.keeps may a.bench b.bench)
    (h' : Memory.keeps may a.quarry b.quarry) : a.keeps may b := ⟨h, h'⟩

theorem Rg.ctorIdx_lt (f : Rg) : f.ctorIdx < 408 := by cases f <;> decide

set_option exponentiation.threshold 500 in
theorem testBit_all (f : Rg) : Nat.testBit 0xffffffffffffffffffffffffffffffffffffffffffffffffffffffffffffffffffffffffffffffffffffffffffffffffffffff f.ctorIdx = true := by
  have h : 0xffffffffffffffffffffffffffffffffffffffffffffffffffffffffffffffffffffffffffffffffffffffffffffffffffffff = 2 ^ 408 - 1 := by decide
  rw [h, Nat.testBit_two_pow_sub_one]
  exact decide_eq_true f.ctorIdx_lt

/-- A module built anew, with registers that a reset keeps of `d` and memories that are those of `d` or empty. -/
theorem Dev.rebuilt_ind {P : Dev → Prop} (hP : Closed P 0xffffffff 0xffffffffffffffffffffffffffffffffffffffffffffffffffffffffffffffffffffffffffffffffffffffffffffffffffffff) {d e : Dev} (k : Rg → W64)
    (h : P d) (hn : d.now ≤ e.now) (hw : e.bus.writes = d.bus.writes ∨ e.bus.writes = []) (hk : e.regs = d.keptRegs k) (hb : d.ben.keeps true e.ben) (htal : Memory.keeps true d.tal.mem e.tal.mem)
    (hras : Memory.keeps true d.ras.mem e.ras.mem) (hndl : Memory.keeps true d.ndl.prog e.ndl.prog)
    (hque : Memory.keeps true d.que.hostMem e.que.hostMem) : P e := by
  have h0 := hP.now (by decide) d e.now hn h
  have h1 := hP.ben (by decide) (d.setNow e.now) e.ben hb h0
  have h2 := hP.tal (by decide) ((d.setNow e.now).setBen e.ben) e.tal htal h1
  have h3 := hP.ras (by decide) (((d.setNow e.now).setBen e.ben).setTal e.tal) e.ras hras h2
  have h4 := hP.ndl (by decide) ((((d.setNow e.now).setBen e.ben).setTal e.tal).setRas e.ras) e.ndl hndl h3
  have h5 := hP.que (by decide) (((((d.setNow e.now).setBen e.ben).setTal e.tal).setRas e.ras).setNdl e.ndl) e.que hque h4
  have h6 := hP.kept (by decide) ((((((d.setNow e.now).setBen e.ben).setTal e.tal).setRas e.ras).setNdl e.ndl).setQue e.que) k h5
  have h7 := hP.freeSeq (by decide) _ e.freeSeq h6
  have h8 := hP.bus (by decide) _ e.bus (fun _ => hw.imp (by simp) id) h7
  have h9 := hP.path (by decide) _ e.path h8
  have h10 := hP.logic (by decide) _ e.logic h9
  have h11 := hP.stageNext (by decide) _ e.stageNext h10
  have h12 := hP.slice (by decide) _ e.slice h11
  have h13 := hP.tb (by decide) _ e.tb h12
  have h14 := hP.trg (by decide) _ e.trg h13
  have h15 := hP.lanes (by decide) _ e.lanes h14
  have h16 := hP.dec (by decide) _ e.dec h15
  have h17 := hP.evi (by decide) _ e.evi h16
  have h18 := hP.stm (by decide) _ e.stm h17
  have h19 := hP.link (by decide) _ e.link h18
  have h20 := hP.evr (by decide) _ e.evr h19
  have h21 := hP.xfe (by decide) _ e.xfe h20
  have h22 := hP.eth (by decide) _ e.eth h21
  have h23 := hP.faKey (by decide) _ e.faKey h22
  have h24 := hP.syn (by decide) _ e.syn h23
  have h25 := hP.pwr (by decide) _ e.pwr h24
  have h26 := hP.sec (by decide) _ e.sec h25
  refine (Dev.ext_fields ?_ ?_ ?_ ?_ ?_ ?_ ?_ ?_ ?_ ?_ ?_ ?_ ?_ ?_ ?_ ?_ ?_ ?_ ?_ ?_ ?_ ?_ ?_ ?_ ?_ ?_ ?_ :
    _ = e) ▸ h26
  all_goals simp [Dev.keptRegs, hk]

end Sys2Proof.Machine
end

