-- ==== Sys2Proof/Laws/IndOps.lean ====
section
/-!
SUPPORT. What the operations of Machine/Ops.lean can change: each keeps every property that is closed under changes of its
parts and writes of its register families.
-/
namespace Sys2Proof.Machine

theorem Dev.raiseAt_ind {P : Dev → Prop} (hP : Closed P 0x80000 0x0) {d : Dev} {k : Nat} {e : Nat} (hd0 : P d) :
    P (Dev.raiseAt d k e) := by
  unfold Dev.raiseAt
  try dsimp only
  repeat' with_reducible first
    | assumption
    | refine ite_ind ?_ ?_
    | refine hP.evr (by decide) _ _ ?_

theorem Dev.raise_ind {P : Dev → Prop} (hP : Closed P 0x80000 0x0) {d : Dev} {e : Nat} (hd0 : P d) :
    P (Dev.raise d e) := by
  unfold Dev.raise
  try dsimp only
  repeat' with_reducible first
    | assumption
    | refine Dev.raiseAt_ind (hP.mono (by decide) (by decide)) ?_

theorem Dev.raiseHold_ind {P : Dev → Prop} (hP : Closed P 0x80000 0x0) {d : Dev} {k : Nat} {n : Nat} {e : Nat} (hd0 : P d) :
    P (Dev.raiseHold d k n e) := by
  unfold Dev.raiseHold
  try dsimp only
  repeat' with_reducible first
    | assumption
    | refine Dev.raiseAt_ind (hP.mono (by decide) (by decide)) ?_
    | refine hP.evr (by decide) _ _ ?_

theorem Dev.raiseHeldAt_ind {P : Dev → Prop} (hP : Closed P 0x80000 0x0) {d : Dev} {k : Nat} {n : Nat} {e : Nat} (hd0 : P d) :
    P (Dev.raiseHeldAt d k n e) := by
  unfold Dev.raiseHeldAt
  try dsimp only
  repeat' with_reducible first
    | assumption
    | refine ite_ind ?_ ?_
    | refine Dev.raiseHold_ind (hP.mono (by decide) (by decide)) ?_
    | refine hP.evr (by decide) _ _ ?_
    | split

theorem Dev.raiseHeld_ind {P : Dev → Prop} (hP : Closed P 0x80000 0x0) {d : Dev} {n : Nat} {e : Nat} (hd0 : P d) :
    P (Dev.raiseHeld d n e) := by
  unfold Dev.raiseHeld
  try dsimp only
  repeat' with_reducible first
    | assumption
    | refine Dev.raiseHeldAt_ind (hP.mono (by decide) (by decide)) ?_

theorem Dev.newEpoch_ind {P : Dev → Prop} (hP : Closed P 0x100 0x0) {d : Dev} {f : Epoch → Epoch} (hd0 : P d) :
    P (Dev.newEpoch d f) := by
  unfold Dev.newEpoch
  try dsimp only
  repeat' with_reducible first
    | assumption
    | refine hP.tb (by decide) _ _ ?_

theorem Dev.advanceTo_ind {P : Dev → Prop} (hP : Closed P 0x80009 0x0) {d : Dev} {t : Nat} (h : P d) : P (Dev.advanceTo d t) := by
  unfold Dev.advanceTo
  split
  · exact h
  · have h1 : P ((d.setNow t).setBus { d.bus with sets := [] }) :=
      hP.bus (by decide) _ _ (fun _ => Or.inl rfl) (hP.now (by decide) _ _ (by omega) h)
    dsimp only
    exact ite_ind (ite_ind (Dev.raiseAt_ind (hP.mono (by decide) (by decide))
      (Dev.raiseAt_ind (hP.mono (by decide) (by decide)) h1)) (Dev.raiseAt_ind (hP.mono (by decide) (by decide)) h1)) h1

theorem Dev.post_ind {P : Dev → Prop} (hP : Closed P 0x40000 0x0) {d : Dev} {q : Nat} {typ : Nat} {fmt : Nat} {rank : Nat} {bytes : List Byte} (hd0 : P d) :
    P (Dev.post d q typ fmt rank bytes) := by
  unfold Dev.post
  try dsimp only
  repeat' with_reducible first
    | assumption
    | refine hP.que (by decide) _ _ (by first | exact Memory.keeps_refl _ | exact Memory.keeps_store (by decide) _ _ _ | exact Memory.keeps_filter (by decide) _ _ | exact Memory.keeps_nil (by decide) _) ?_

theorem Dev.drawn_ind {P : Dev → Prop} (hP : Closed P 0x2 0x0) {d : Dev} (hd0 : P d) :
    P (Dev.drawn d) := by
  unfold Dev.drawn
  try dsimp only
  repeat' with_reducible first
    | assumption
    | refine hP.freeSeq (by decide) _ _ ?_

theorem Dev.decision_ind {P : Dev → Prop} (hP : Closed P 0x80000 0xc00000000000000000000000000000000000000000000000000000000000000000000000000000000000000000000000000000) {d : Dev} {code : Nat} {unit : Nat} {arg : Nat} (hd0 : P d) :
    P (Dev.decision d code unit arg) := by
  unfold Dev.decision
  try dsimp only
  repeat' with_reducible first
    | assumption
    | refine hP.wrAt (by decide) ?_
    | refine Dev.bump_ind hP (by decide) ?_
    | refine Dev.raise_ind (hP.mono (by decide) (by decide)) ?_

end Sys2Proof.Machine
end

