-- ==== Sys2Proof/Laws/IndStatus.lean ====
section
/-!
SUPPORT. What the operations of Machine/Status.lean can change: each keeps every property that is closed under changes of its
parts and writes of its register families.
-/
namespace Sys2Proof.Machine

theorem Dev.pdPut_ind {P : Dev → Prop} (hP : Closed P 0x80000 0xc04000000000000000000000000000000000000000000000000000000000000000000000000000000000000000000000000000) {d : Dev} {n : Nat} {on : Bool} (hd0 : P d) :
    P (Dev.pdPut d n on) := by
  unfold Dev.pdPut
  try dsimp only
  repeat' with_reducible first
    | assumption
    | refine ite_ind ?_ ?_
    | refine Dev.put_ind hP (by decide) ?_
    | refine Dev.decision_ind (hP.mono (by decide) (by decide)) ?_

theorem Dev.updLane_ind {P : Dev → Prop} (hP : Closed P 0x400 0x0) {d : Dev} {l : Nat} {f : Lane → Lane} (hd0 : P d) :
    P (Dev.updLane d l f) := by
  unfold Dev.updLane
  try dsimp only
  repeat' with_reducible first
    | assumption
    | refine hP.lanes (by decide) _ _ ?_

theorem Dev.updSkein_ind {P : Dev → Prop} (hP : Closed P 0x400 0x0) {d : Dev} {k : Nat} {f : Skein → Skein} (hd0 : P d) :
    P (Dev.updSkein d k f) := by
  unfold Dev.updSkein
  try dsimp only
  repeat' with_reducible first
    | assumption
    | refine hP.lanes (by decide) _ _ ?_

theorem Dev.storeWrite_ind {P : Dev → Prop} (hP : Closed P 0x18011000 0x0) {d : Dev} {st : Nat} {a : Nat} {b : List Byte} (hd0 : P d) :
    P (Dev.storeWrite d st a b) := by
  unfold Dev.storeWrite
  try dsimp only
  repeat' with_reducible first
    | assumption
    | (intro _; intros; try dsimp only)
    | refine hP.ben (by decide) _ _ (Bench.keeps_of (by first | exact Memory.keeps_refl _ | exact Memory.keeps_store (by decide) _ _ _ | exact Memory.keeps_nil (by decide) _ | exact Memory.keeps_filter (by decide) _ _)
        (by first | exact Memory.keeps_refl _ | exact Memory.keeps_store (by decide) _ _ _ | exact Memory.keeps_filter (by decide) _ _)) ?_
    | refine hP.tal (by decide) _ _ (by first | exact Memory.keeps_refl _ | exact Memory.keeps_store (by decide) _ _ _ | exact Memory.keeps_filter (by decide) _ _ | exact Memory.keeps_nil (by decide) _) ?_
    | split

theorem Dev.testEnd_ind {P : Dev → Prop} (hP : Closed P 0x2 0x330000000000000000000000000000000000000000000000000000000000000000000000000000000000000000) {d : Dev} {f : Nat} {unit : Nat} {result : Nat} {depth : Option Nat} (hd0 : P d) :
    P (Dev.testEnd d f unit result depth) := by
  unfold Dev.testEnd
  try dsimp only
  repeat' with_reducible first
    | assumption
    | refine foldl_ind ?_ ?_
    | (intro _; intros; try dsimp only)
    | refine ite_ind ?_ ?_
    | refine Dev.putFree_ind hP (by decide) (by decide) ?_
    | refine Dev.putb_ind hP (by decide) ?_
    | refine Dev.put_ind hP (by decide) ?_
    | split

end Sys2Proof.Machine
end

