-- ==== Sys2Proof/Laws/IndNeedle.lean ====
section
/-!
SUPPORT. What the operations of Machine/Needle.lean can change: each keeps every property that is closed under changes of its
parts and writes of its register families.
-/
namespace Sys2Proof.Machine

theorem Dev.updNdl_ind {P : Dev → Prop} (hP : Closed P 0x4000 0x0) {d : Dev} {n : Nat} {f : Needle → Needle} (hd0 : P d) :
    P (Dev.updNdl d n f) := by
  unfold Dev.updNdl
  try dsimp only
  repeat' with_reducible first
    | assumption
    | refine hP.ndl (by decide) _ _ (by first | exact Memory.keeps_refl _ | exact Memory.keeps_store (by decide) _ _ _ | exact Memory.keeps_filter (by decide) _ _ | exact Memory.keeps_nil (by decide) _) ?_

theorem Dev.wakeEvent_ind {P : Dev → Prop} (hP : Closed P 0x4000 0x0) {d : Dev} {k : Nat} {e : Nat} (hd0 : P d) :
    P (Dev.wakeEvent d k e) := by
  unfold Dev.wakeEvent
  try dsimp only
  repeat' with_reducible first
    | assumption
    | refine foldl_ind ?_ ?_
    | (intro _; intros; try dsimp only)
    | refine ite_ind ?_ ?_
    | refine Dev.updNdl_ind (hP.mono (by decide) (by decide)) ?_
    | split

theorem Dev.wakeRecord_ind {P : Dev → Prop} (hP : Closed P 0x4000 0x0) {d : Dev} {r : Rec} (hd0 : P d) :
    P (Dev.wakeRecord d r) := by
  unfold Dev.wakeRecord
  try dsimp only
  repeat' with_reducible first
    | assumption
    | refine foldl_ind ?_ ?_
    | (intro _; intros; try dsimp only)
    | refine ite_ind ?_ ?_
    | refine Dev.updNdl_ind (hP.mono (by decide) (by decide)) ?_
    | split

theorem Dev.ndlFault_ind {P : Dev → Prop} (hP : Closed P 0x84000 0xc400000000000000000000000000000000000000000000000) {d : Dev} {n : Nat} {pc : Nat} {code : Nat} {detail : Nat} {shadow : Nat} (hd0 : P d) :
    P (Dev.ndlFault d n pc code detail shadow) := by
  unfold Dev.ndlFault
  try dsimp only
  repeat' with_reducible first
    | assumption
    | (intro _; intros; try dsimp only)
    | refine Dev.put_ind hP (by decide) ?_
    | refine Dev.updNdl_ind (hP.mono (by decide) (by decide)) ?_
    | refine Dev.raise_ind (hP.mono (by decide) (by decide)) ?_
    | split

theorem Dev.replSwitch_ind {P : Dev → Prop} (hP : Closed P 0x84000 0x2900000000000000000000000000000000000000000000000) {d : Dev} {n : Nat} (hd0 : P d) :
    P (Dev.replSwitch d n) := by
  unfold Dev.replSwitch
  try dsimp only
  repeat' with_reducible first
    | assumption
    | (intro _; intros; try dsimp only)
    | refine hP.wrAt (by decide) ?_
    | refine Dev.put_ind hP (by decide) ?_
    | refine Dev.updNdl_ind (hP.mono (by decide) (by decide)) ?_
    | refine Dev.raise_ind (hP.mono (by decide) (by decide)) ?_
    | split

theorem Dev.ndlFaultSwitch_ind {P : Dev → Prop} (hP : Closed P 0x84000 0x2900000000000000000000000000000000000000000000000) {d : Dev} {n : Nat} (hd0 : P d) :
    P (Dev.ndlFaultSwitch d n) := by
  unfold Dev.ndlFaultSwitch
  try dsimp only
  repeat' with_reducible first
    | assumption
    | refine ite_ind ?_ ?_
    | refine Dev.replSwitch_ind (hP.mono (by decide) (by decide)) ?_

theorem Dev.issueFault_ind {P : Dev → Prop} (hP : Closed P 0x84000 0xed00000000000000000000000000000000000000000000000) {d : Dev} {n : Nat} {code : Nat} (hd0 : P d) :
    P (Dev.issueFault d n code) := by
  unfold Dev.issueFault
  try dsimp only
  repeat' with_reducible first
    | assumption
    | refine Dev.ndlFault_ind (hP.mono (by decide) (by decide)) ?_
    | refine Dev.ndlFaultSwitch_ind (hP.mono (by decide) (by decide)) ?_

theorem Dev.retire_ind {P : Dev → Prop} (hP : Closed P 0x4000 0x40000000000000000000000000000000000000000000000000) {d : Dev} {n : Nat} {pc : Nat} {f : Needle → Needle} (hd0 : P d) :
    P (Dev.retire d n pc f) := by
  unfold Dev.retire
  try dsimp only
  repeat' with_reducible first
    | assumption
    | (intro _; intros; try dsimp only)
    | refine Dev.bump_ind hP (by decide) ?_
    | refine Dev.updNdl_ind (hP.mono (by decide) (by decide)) ?_
    | split

theorem Dev.issue_ind {P : Dev → Prop} (hP : Closed P 0x84009 0xed00000000000000000000000000000000000000000000000) {d : Dev} {n op : Nat} {body : W64 → Needle → Dev → Dev}
    (h : P d) (hb : ∀ w x d, P d → P (body w x d)) : P (d.issue n op body) := by
  unfold Dev.issue
  dsimp only
  repeat' with_reducible first
    | assumption
    | refine ite_ind ?_ ?_
    | refine Dev.issueFault_ind (hP.mono (by decide) (by decide)) ?_
    | refine Dev.advanceTo_ind (hP.mono (by decide) (by decide)) ?_
    | refine hb _ _ _ ?_

theorem Dev.internal_ind {P : Dev → Prop} (hP : Closed P 0x4000 0x40000000000000000000000000000000000000000000000000) {d : Dev} {n : Nat} {x : Needle} {f : Needle → Needle} (hd0 : P d) :
    P (Dev.internal d n x f) := by
  unfold Dev.internal
  try dsimp only
  repeat' with_reducible first
    | assumption
    | refine Dev.retire_ind (hP.mono (by decide) (by decide)) ?_

theorem Dev.launch_ind {P : Dev → Prop} (hP : Closed P 0x4000 0x40000000000000000000000000000000000000000000000000) {d : Dev} {n : Nat} {x : Needle} {e : Effect} (hd0 : P d) :
    P (Dev.launch d n x e) := by
  unfold Dev.launch
  try dsimp only
  repeat' with_reducible first
    | assumption
    | (intro _; intros; try dsimp only)
    | refine Dev.retire_ind (hP.mono (by decide) (by decide)) ?_
    | split

theorem Dev.beginWait_ind {P : Dev → Prop} (hP : Closed P 0x4000 0x40000000000000000000000000000000000000000000000000) {d : Dev} {n : Nat} {x : Needle} {k : WaitKind} {limit : Option Nat} {done : Option (Nat × Nat)} (hd0 : P d) :
    P (Dev.beginWait d n x k limit done) := by
  unfold Dev.beginWait
  try dsimp only
  repeat' with_reducible first
    | assumption
    | (intro _; intros; try dsimp only)
    | refine Dev.retire_ind (hP.mono (by decide) (by decide)) ?_
    | split

theorem Dev.needleGoEff_ind {P : Dev → Prop} (hP : Closed P 0x4000 0x0) {n : Nat} {d : Dev} (hd0 : P d) :
    P (Dev.needleGoEff n d) := by
  unfold Dev.needleGoEff
  try dsimp only
  repeat' with_reducible first
    | assumption
    | (intro _; intros; try dsimp only)
    | refine ite_ind ?_ ?_
    | refine Dev.updNdl_ind (hP.mono (by decide) (by decide)) ?_
    | split

theorem Dev.needleStopEff_ind {P : Dev → Prop} (hP : Closed P 0x84000 0x2900000000000000000000000000000000000000000000000) {n : Nat} {d : Dev} (hd0 : P d) :
    P (Dev.needleStopEff n d) := by
  unfold Dev.needleStopEff
  try dsimp only
  repeat' with_reducible first
    | assumption
    | (intro _; intros; try dsimp only)
    | refine ite_ind ?_ ?_
    | refine Dev.updNdl_ind (hP.mono (by decide) (by decide)) ?_
    | refine Dev.raise_ind (hP.mono (by decide) (by decide)) ?_
    | refine Dev.replSwitch_ind (hP.mono (by decide) (by decide)) ?_
    | split

theorem Dev.waitCompleteEff_ind {P : Dev → Prop} (hP : Closed P 0x84009 0x8000000000000000000000000000000000000020000000000000000000000000000000000000000000000000) {n : Nat} {d : Dev} (hd0 : P d) :
    P (Dev.waitCompleteEff n d) := by
  unfold Dev.waitCompleteEff
  try dsimp only
  repeat' with_reducible first
    | assumption
    | (intro _; intros; try dsimp only)
    | refine ite_ind ?_ ?_
    | refine Dev.advanceTo_ind (hP.mono (by decide) (by decide)) ?_
    | refine Dev.updNdl_ind (hP.mono (by decide) (by decide)) ?_
    | refine Dev.count_ind hP (by decide) (by decide) ?_
    | split

theorem Dev.replaceGoEff_ind {P : Dev → Prop} (hP : Closed P 0x84000 0x2900000000000000000000000000000000000000000000000) {n : Nat} {d : Dev} (hd0 : P d) :
    P (Dev.replaceGoEff n d) := by
  unfold Dev.replaceGoEff
  try dsimp only
  repeat' with_reducible first
    | assumption
    | (intro _; intros; try dsimp only)
    | refine ite_ind ?_ ?_
    | refine Dev.put_ind hP (by decide) ?_
    | refine Dev.updNdl_ind (hP.mono (by decide) (by decide)) ?_
    | refine Dev.replSwitch_ind (hP.mono (by decide) (by decide)) ?_
    | split

theorem Dev.replaceCancelEff_ind {P : Dev → Prop} (hP : Closed P 0x0 0x2000000000000000000000000000000000000000000000000) {n : Nat} {d : Dev} (hd0 : P d) :
    P (Dev.replaceCancelEff n d) := by
  unfold Dev.replaceCancelEff
  try dsimp only
  repeat' with_reducible first
    | assumption
    | refine ite_ind ?_ ?_
    | refine Dev.put_ind hP (by decide) ?_

theorem Dev.progWrite_ind {P : Dev → Prop} (hP : Closed P 0x20004000 0x8000000000000000000000000000000000000000010000000000000000000000000000000000000000000000) {d : Dev} {a : Nat} {b : List Byte} (hd0 : P d) :
    P (Dev.progWrite d a b) := by
  unfold Dev.progWrite
  try dsimp only
  repeat' with_reducible first
    | assumption
    | refine foldl_ind ?_ ?_
    | refine foldl_fst ?_ ?_
    | refine foldl_snd ?_ ?_
    | (intro _; intros; try dsimp only)
    | refine ite_ind ?_ ?_
    | refine ite_fst ?_ ?_
    | refine ite_snd ?_ ?_
    | refine Dev.count_ind hP (by decide) (by decide) ?_
    | refine hP.ndl (by decide) _ _ (by first | exact Memory.keeps_refl _ | exact Memory.keeps_store (by decide) _ _ _ | exact Memory.keeps_filter (by decide) _ _ | exact Memory.keeps_nil (by decide) _) ?_
    | split

theorem Dev.progStoreWriteEff_ind {P : Dev → Prop} (hP : Closed P 0x20004000 0x8000000000000000000000000000000000000000010000000000000000000000000000000000000000000000) {ofs : Nat} {data : List Byte} {d : Dev} (hd0 : P d) :
    P (Dev.progStoreWriteEff ofs data d) := by
  unfold Dev.progStoreWriteEff
  try dsimp only
  repeat' with_reducible first
    | assumption
    | refine Dev.progWrite_ind (hP.mono (by decide) (by decide)) ?_

theorem Dev.needleWindowWriteEff_ind {P : Dev → Prop} (hP : Closed P 0x4000 0x8000000000000000000000000000000000000000010000000000000000000000000000000000000000000000) {addr : Nat} {wide : Bool} {v : W64} {d : Dev} (hd0 : P d) :
    P (Dev.needleWindowWriteEff addr wide v d) := by
  unfold Dev.needleWindowWriteEff
  try dsimp only
  repeat' with_reducible first
    | assumption
    | (intro _; intros; try dsimp only)
    | refine ite_ind ?_ ?_
    | refine Dev.count_ind hP (by decide) (by decide) ?_
    | refine Dev.updNdl_ind (hP.mono (by decide) (by decide)) ?_
    | split

end Sys2Proof.Machine
end

