-- ==== Sys2Proof/Laws/IndZhervo.lean ====
section
/-!
SUPPORT. What the operations of Machine/Zhervo.lean can change: each keeps every property that is closed under changes of its
parts and writes of its register families.
-/
namespace Sys2Proof.Machine

theorem Dev.zMov_ind {P : Dev → Prop} (hP : Closed P 0x84009 0x4ed00000000000000000000000000000000000000000000000) {n : Nat} {d : Dev} (hd0 : P d) :
    P (Dev.zMov n d) := by
  unfold Dev.zMov
  try dsimp only
  repeat' with_reducible first
    | assumption
    | (intro _; intros; try dsimp only)
    | refine ite_ind ?_ ?_
    | refine Dev.issue_ind (hP.mono (by decide) (by decide)) ?_ ?_
    | refine Dev.internal_ind (hP.mono (by decide) (by decide)) ?_
    | split

theorem Dev.zLdi_ind {P : Dev → Prop} (hP : Closed P 0x84009 0x4ed00000000000000000000000000000000000000000000000) {n : Nat} {d : Dev} (hd0 : P d) :
    P (Dev.zLdi n d) := by
  unfold Dev.zLdi
  try dsimp only
  repeat' with_reducible first
    | assumption
    | (intro _; intros; try dsimp only)
    | refine Dev.issue_ind (hP.mono (by decide) (by decide)) ?_ ?_
    | refine Dev.internal_ind (hP.mono (by decide) (by decide)) ?_
    | split

theorem Dev.zAdd_ind {P : Dev → Prop} (hP : Closed P 0x84009 0x4ed00000000000000000000000000000000000000000000000) {n : Nat} {d : Dev} (hd0 : P d) :
    P (Dev.zAdd n d) := by
  unfold Dev.zAdd
  try dsimp only
  repeat' with_reducible first
    | assumption
    | (intro _; intros; try dsimp only)
    | refine Dev.issue_ind (hP.mono (by decide) (by decide)) ?_ ?_
    | refine Dev.internal_ind (hP.mono (by decide) (by decide)) ?_
    | split

theorem Dev.zSub_ind {P : Dev → Prop} (hP : Closed P 0x84009 0x4ed00000000000000000000000000000000000000000000000) {n : Nat} {d : Dev} (hd0 : P d) :
    P (Dev.zSub n d) := by
  unfold Dev.zSub
  try dsimp only
  repeat' with_reducible first
    | assumption
    | (intro _; intros; try dsimp only)
    | refine Dev.issue_ind (hP.mono (by decide) (by decide)) ?_ ?_
    | refine Dev.internal_ind (hP.mono (by decide) (by decide)) ?_
    | split

theorem Dev.zLogic_ind {P : Dev → Prop} (hP : Closed P 0x4000 0x40000000000000000000000000000000000000000000000000) {d : Dev} {n : Nat} {x : Needle} {w : W64} {v : W64} (hd0 : P d) :
    P (Dev.zLogic d n x w v) := by
  unfold Dev.zLogic
  try dsimp only
  repeat' with_reducible first
    | assumption
    | (intro _; intros; try dsimp only)
    | refine Dev.internal_ind (hP.mono (by decide) (by decide)) ?_
    | split

theorem Dev.zAnd_ind {P : Dev → Prop} (hP : Closed P 0x84009 0x4ed00000000000000000000000000000000000000000000000) {n : Nat} {d : Dev} (hd0 : P d) :
    P (Dev.zAnd n d) := by
  unfold Dev.zAnd
  try dsimp only
  repeat' with_reducible first
    | assumption
    | (intro _; intros; try dsimp only)
    | refine Dev.issue_ind (hP.mono (by decide) (by decide)) ?_ ?_
    | refine Dev.zLogic_ind (hP.mono (by decide) (by decide)) ?_
    | split

theorem Dev.zOr_ind {P : Dev → Prop} (hP : Closed P 0x84009 0x4ed00000000000000000000000000000000000000000000000) {n : Nat} {d : Dev} (hd0 : P d) :
    P (Dev.zOr n d) := by
  unfold Dev.zOr
  try dsimp only
  repeat' with_reducible first
    | assumption
    | (intro _; intros; try dsimp only)
    | refine Dev.issue_ind (hP.mono (by decide) (by decide)) ?_ ?_
    | refine Dev.zLogic_ind (hP.mono (by decide) (by decide)) ?_
    | split

theorem Dev.zXor_ind {P : Dev → Prop} (hP : Closed P 0x84009 0x4ed00000000000000000000000000000000000000000000000) {n : Nat} {d : Dev} (hd0 : P d) :
    P (Dev.zXor n d) := by
  unfold Dev.zXor
  try dsimp only
  repeat' with_reducible first
    | assumption
    | (intro _; intros; try dsimp only)
    | refine Dev.issue_ind (hP.mono (by decide) (by decide)) ?_ ?_
    | refine Dev.zLogic_ind (hP.mono (by decide) (by decide)) ?_
    | split

theorem Dev.zShl_ind {P : Dev → Prop} (hP : Closed P 0x84009 0x4ed00000000000000000000000000000000000000000000000) {n : Nat} {d : Dev} (hd0 : P d) :
    P (Dev.zShl n d) := by
  unfold Dev.zShl
  try dsimp only
  repeat' with_reducible first
    | assumption
    | (intro _; intros; try dsimp only)
    | refine Dev.issue_ind (hP.mono (by decide) (by decide)) ?_ ?_
    | refine Dev.internal_ind (hP.mono (by decide) (by decide)) ?_
    | split

theorem Dev.zShr_ind {P : Dev → Prop} (hP : Closed P 0x84009 0x4ed00000000000000000000000000000000000000000000000) {n : Nat} {d : Dev} (hd0 : P d) :
    P (Dev.zShr n d) := by
  unfold Dev.zShr
  try dsimp only
  repeat' with_reducible first
    | assumption
    | (intro _; intros; try dsimp only)
    | refine ite_ind ?_ ?_
    | refine Dev.issue_ind (hP.mono (by decide) (by decide)) ?_ ?_
    | refine Dev.internal_ind (hP.mono (by decide) (by decide)) ?_
    | split

theorem Dev.zCmp_ind {P : Dev → Prop} (hP : Closed P 0x84009 0x4ed00000000000000000000000000000000000000000000000) {n : Nat} {d : Dev} (hd0 : P d) :
    P (Dev.zCmp n d) := by
  unfold Dev.zCmp
  try dsimp only
  repeat' with_reducible first
    | assumption
    | (intro _; intros; try dsimp only)
    | refine Dev.issue_ind (hP.mono (by decide) (by decide)) ?_ ?_
    | refine Dev.internal_ind (hP.mono (by decide) (by decide)) ?_
    | split

theorem Dev.zLd_ind {P : Dev → Prop} (hP : Closed P 0x84009 0x4ed00000000000000000000000000000000000000000000000) {n : Nat} {d : Dev} (hd0 : P d) :
    P (Dev.zLd n d) := by
  unfold Dev.zLd
  try dsimp only
  repeat' with_reducible first
    | assumption
    | (intro _; intros; try dsimp only)
    | refine Dev.issue_ind (hP.mono (by decide) (by decide)) ?_ ?_
    | refine Dev.internal_ind (hP.mono (by decide) (by decide)) ?_
    | refine Dev.issueFault_ind (hP.mono (by decide) (by decide)) ?_
    | split

theorem Dev.zSt_ind {P : Dev → Prop} (hP : Closed P 0x84009 0x4ed00000000000000000000000000000000000000000000000) {n : Nat} {d : Dev} (hd0 : P d) :
    P (Dev.zSt n d) := by
  unfold Dev.zSt
  try dsimp only
  repeat' with_reducible first
    | assumption
    | (intro _; intros; try dsimp only)
    | refine Dev.issue_ind (hP.mono (by decide) (by decide)) ?_ ?_
    | refine Dev.internal_ind (hP.mono (by decide) (by decide)) ?_
    | refine Dev.issueFault_ind (hP.mono (by decide) (by decide)) ?_
    | split

theorem Dev.zJmp_ind {P : Dev → Prop} (hP : Closed P 0x84009 0x4ed00000000000000000000000000000000000000000000000) {n : Nat} {d : Dev} (hd0 : P d) :
    P (Dev.zJmp n d) := by
  unfold Dev.zJmp
  try dsimp only
  repeat' with_reducible first
    | assumption
    | (intro _; intros; try dsimp only)
    | refine Dev.issue_ind (hP.mono (by decide) (by decide)) ?_ ?_
    | refine Dev.retire_ind (hP.mono (by decide) (by decide)) ?_
    | split

theorem Dev.zBrc_ind {P : Dev → Prop} (hP : Closed P 0x84009 0x4ed00000000000000000000000000000000000000000000000) {n : Nat} {d : Dev} (hd0 : P d) :
    P (Dev.zBrc n d) := by
  unfold Dev.zBrc
  try dsimp only
  repeat' with_reducible first
    | assumption
    | (intro _; intros; try dsimp only)
    | refine Dev.issue_ind (hP.mono (by decide) (by decide)) ?_ ?_
    | refine Dev.retire_ind (hP.mono (by decide) (by decide)) ?_
    | split

theorem Dev.zCall_ind {P : Dev → Prop} (hP : Closed P 0x84009 0x4ed00000000000000000000000000000000000000000000000) {n : Nat} {d : Dev} (hd0 : P d) :
    P (Dev.zCall n d) := by
  unfold Dev.zCall
  try dsimp only
  repeat' with_reducible first
    | assumption
    | (intro _; intros; try dsimp only)
    | refine ite_ind ?_ ?_
    | refine Dev.issue_ind (hP.mono (by decide) (by decide)) ?_ ?_
    | refine Dev.issueFault_ind (hP.mono (by decide) (by decide)) ?_
    | refine Dev.retire_ind (hP.mono (by decide) (by decide)) ?_
    | split

theorem Dev.zRet_ind {P : Dev → Prop} (hP : Closed P 0x84009 0x4ed00000000000000000000000000000000000000000000000) {n : Nat} {d : Dev} (hd0 : P d) :
    P (Dev.zRet n d) := by
  unfold Dev.zRet
  try dsimp only
  repeat' with_reducible first
    | assumption
    | (intro _; intros; try dsimp only)
    | refine Dev.issue_ind (hP.mono (by decide) (by decide)) ?_ ?_
    | refine Dev.issueFault_ind (hP.mono (by decide) (by decide)) ?_
    | refine Dev.retire_ind (hP.mono (by decide) (by decide)) ?_
    | split

theorem Dev.zNop_ind {P : Dev → Prop} (hP : Closed P 0x84009 0x4ed00000000000000000000000000000000000000000000000) {n : Nat} {d : Dev} (hd0 : P d) :
    P (Dev.zNop n d) := by
  unfold Dev.zNop
  try dsimp only
  repeat' with_reducible first
    | assumption
    | (intro _; intros; try dsimp only)
    | refine Dev.issue_ind (hP.mono (by decide) (by decide)) ?_ ?_
    | refine Dev.internal_ind (hP.mono (by decide) (by decide)) ?_
    | split

theorem Dev.zLoop_ind {P : Dev → Prop} (hP : Closed P 0x84009 0x4ed00000000000000000000000000000000000000000000000) {n : Nat} {d : Dev} (hd0 : P d) :
    P (Dev.zLoop n d) := by
  unfold Dev.zLoop
  try dsimp only
  repeat' with_reducible first
    | assumption
    | (intro _; intros; try dsimp only)
    | refine ite_ind ?_ ?_
    | refine Dev.issue_ind (hP.mono (by decide) (by decide)) ?_ ?_
    | refine Dev.retire_ind (hP.mono (by decide) (by decide)) ?_
    | refine Dev.issueFault_ind (hP.mono (by decide) (by decide)) ?_
    | split

theorem Dev.zEndloop_ind {P : Dev → Prop} (hP : Closed P 0x84009 0x800000000000000000000000000000000000004ed00000000000000000000000000000000000000000000000) {n : Nat} {d : Dev} (hd0 : P d) :
    P (Dev.zEndloop n d) := by
  unfold Dev.zEndloop
  try dsimp only
  repeat' with_reducible first
    | assumption
    | (intro _; intros; try dsimp only)
    | refine ite_ind ?_ ?_
    | refine Dev.issue_ind (hP.mono (by decide) (by decide)) ?_ ?_
    | refine Dev.issueFault_ind (hP.mono (by decide) (by decide)) ?_
    | refine Dev.retire_ind (hP.mono (by decide) (by decide)) ?_
    | refine Dev.count_ind hP (by decide) (by decide) ?_
    | split

theorem Dev.zSetf_ind {P : Dev → Prop} (hP : Closed P 0x84009 0x4ed00000000000000000000000000000000000000000000000) {n : Nat} {d : Dev} (hd0 : P d) :
    P (Dev.zSetf n d) := by
  unfold Dev.zSetf
  try dsimp only
  repeat' with_reducible first
    | assumption
    | (intro _; intros; try dsimp only)
    | refine ite_ind ?_ ?_
    | refine Dev.issue_ind (hP.mono (by decide) (by decide)) ?_ ?_
    | refine Dev.launch_ind (hP.mono (by decide) (by decide)) ?_
    | split

theorem Dev.zGetf_ind {P : Dev → Prop} (hP : Closed P 0x84009 0x4ed00000000000000000000000000000000000000000000000) {n : Nat} {d : Dev} (hd0 : P d) :
    P (Dev.zGetf n d) := by
  unfold Dev.zGetf
  try dsimp only
  repeat' with_reducible first
    | assumption
    | (intro _; intros; try dsimp only)
    | refine Dev.issue_ind (hP.mono (by decide) (by decide)) ?_ ?_
    | refine Dev.launch_ind (hP.mono (by decide) (by decide)) ?_
    | split

theorem Dev.zCaston_ind {P : Dev → Prop} (hP : Closed P 0x84009 0x4ed00000000000000000000000000000000000000000000000) {n : Nat} {d : Dev} (hd0 : P d) :
    P (Dev.zCaston n d) := by
  unfold Dev.zCaston
  try dsimp only
  repeat' with_reducible first
    | assumption
    | (intro _; intros; try dsimp only)
    | refine ite_ind ?_ ?_
    | refine Dev.issue_ind (hP.mono (by decide) (by decide)) ?_ ?_
    | refine Dev.issueFault_ind (hP.mono (by decide) (by decide)) ?_
    | refine Dev.launch_ind (hP.mono (by decide) (by decide)) ?_
    | split

theorem Dev.zBindoff_ind {P : Dev → Prop} (hP : Closed P 0x84009 0x4ed00000000000000000000000000000000000000000000000) {n : Nat} {d : Dev} (hd0 : P d) :
    P (Dev.zBindoff n d) := by
  unfold Dev.zBindoff
  try dsimp only
  repeat' with_reducible first
    | assumption
    | (intro _; intros; try dsimp only)
    | refine ite_ind ?_ ?_
    | refine Dev.issue_ind (hP.mono (by decide) (by decide)) ?_ ?_
    | refine Dev.launch_ind (hP.mono (by decide) (by decide)) ?_
    | refine Dev.issueFault_ind (hP.mono (by decide) (by decide)) ?_
    | split

theorem Dev.zArm_ind {P : Dev → Prop} (hP : Closed P 0x84009 0x4ed00000000000000000000000000000000000000000000000) {n : Nat} {d : Dev} (hd0 : P d) :
    P (Dev.zArm n d) := by
  unfold Dev.zArm
  try dsimp only
  repeat' with_reducible first
    | assumption
    | (intro _; intros; try dsimp only)
    | refine Dev.issue_ind (hP.mono (by decide) (by decide)) ?_ ?_
    | refine Dev.launch_ind (hP.mono (by decide) (by decide)) ?_
    | split

theorem Dev.zDisarm_ind {P : Dev → Prop} (hP : Closed P 0x84009 0x4ed00000000000000000000000000000000000000000000000) {n : Nat} {d : Dev} (hd0 : P d) :
    P (Dev.zDisarm n d) := by
  unfold Dev.zDisarm
  try dsimp only
  repeat' with_reducible first
    | assumption
    | (intro _; intros; try dsimp only)
    | refine Dev.issue_ind (hP.mono (by decide) (by decide)) ?_ ?_
    | refine Dev.launch_ind (hP.mono (by decide) (by decide)) ?_
    | split

theorem Dev.zSeg_ind {P : Dev → Prop} (hP : Closed P 0x84009 0x4ed00000000000000000000000000000000000000000000000) {n : Nat} {d : Dev} (hd0 : P d) :
    P (Dev.zSeg n d) := by
  unfold Dev.zSeg
  try dsimp only
  repeat' with_reducible first
    | assumption
    | (intro _; intros; try dsimp only)
    | refine Dev.issue_ind (hP.mono (by decide) (by decide)) ?_ ?_
    | refine Dev.launch_ind (hP.mono (by decide) (by decide)) ?_
    | split

theorem Dev.zSync_ind {P : Dev → Prop} (hP : Closed P 0x84009 0x4ed00000000000000000000000000000000000000000000000) {n : Nat} {d : Dev} (hd0 : P d) :
    P (Dev.zSync n d) := by
  unfold Dev.zSync
  try dsimp only
  repeat' with_reducible first
    | assumption
    | (intro _; intros; try dsimp only)
    | refine Dev.issue_ind (hP.mono (by decide) (by decide)) ?_ ?_
    | refine Dev.launch_ind (hP.mono (by decide) (by decide)) ?_
    | split

theorem Dev.zDelay_ind {P : Dev → Prop} (hP : Closed P 0x84009 0x4ed00000000000000000000000000000000000000000000000) {n : Nat} {d : Dev} (hd0 : P d) :
    P (Dev.zDelay n d) := by
  unfold Dev.zDelay
  try dsimp only
  repeat' with_reducible first
    | assumption
    | (intro _; intros; try dsimp only)
    | refine Dev.issue_ind (hP.mono (by decide) (by decide)) ?_ ?_
    | refine Dev.beginWait_ind (hP.mono (by decide) (by decide)) ?_
    | split

theorem Dev.zWaitt_ind {P : Dev → Prop} (hP : Closed P 0x84009 0x4ed00000000000000000000000000000000000000000000000) {n : Nat} {d : Dev} (hd0 : P d) :
    P (Dev.zWaitt n d) := by
  unfold Dev.zWaitt
  try dsimp only
  repeat' with_reducible first
    | assumption
    | (intro _; intros; try dsimp only)
    | refine ite_ind ?_ ?_
    | refine Dev.issue_ind (hP.mono (by decide) (by decide)) ?_ ?_
    | refine Dev.beginWait_ind (hP.mono (by decide) (by decide)) ?_
    | split

theorem Dev.zWaittrig_ind {P : Dev → Prop} (hP : Closed P 0x84009 0x4ed00000000000000000000000000000000000000000000000) {n : Nat} {d : Dev} (hd0 : P d) :
    P (Dev.zWaittrig n d) := by
  unfold Dev.zWaittrig
  try dsimp only
  repeat' with_reducible first
    | assumption
    | (intro _; intros; try dsimp only)
    | refine Dev.issue_ind (hP.mono (by decide) (by decide)) ?_ ?_
    | refine Dev.beginWait_ind (hP.mono (by decide) (by decide)) ?_
    | split

theorem Dev.zWaite_ind {P : Dev → Prop} (hP : Closed P 0x84009 0x4ed00000000000000000000000000000000000000000000000) {n : Nat} {d : Dev} (hd0 : P d) :
    P (Dev.zWaite n d) := by
  unfold Dev.zWaite
  try dsimp only
  repeat' with_reducible first
    | assumption
    | (intro _; intros; try dsimp only)
    | refine Dev.issue_ind (hP.mono (by decide) (by decide)) ?_ ?_
    | refine Dev.beginWait_ind (hP.mono (by decide) (by decide)) ?_
    | split

theorem Dev.zWaitseg_ind {P : Dev → Prop} (hP : Closed P 0x84009 0x4ed00000000000000000000000000000000000000000000000) {n : Nat} {d : Dev} (hd0 : P d) :
    P (Dev.zWaitseg n d) := by
  unfold Dev.zWaitseg
  try dsimp only
  repeat' with_reducible first
    | assumption
    | (intro _; intros; try dsimp only)
    | refine ite_ind ?_ ?_
    | refine Dev.issue_ind (hP.mono (by decide) (by decide)) ?_ ?_
    | refine Dev.beginWait_ind (hP.mono (by decide) (by decide)) ?_
    | split

theorem Dev.zFence_ind {P : Dev → Prop} (hP : Closed P 0x84009 0x4ed00000000000000000000000000000000000000000000000) {n : Nat} {d : Dev} (hd0 : P d) :
    P (Dev.zFence n d) := by
  unfold Dev.zFence
  try dsimp only
  repeat' with_reducible first
    | assumption
    | (intro _; intros; try dsimp only)
    | refine Dev.issue_ind (hP.mono (by decide) (by decide)) ?_ ?_
    | refine Dev.beginWait_ind (hP.mono (by decide) (by decide)) ?_
    | split

theorem Dev.zPost_ind {P : Dev → Prop} (hP : Closed P 0xc4009 0x4ed00000000000000000000000000000000000000000000000) {n : Nat} {d : Dev} (hd0 : P d) :
    P (Dev.zPost n d) := by
  unfold Dev.zPost
  try dsimp only
  repeat' with_reducible first
    | assumption
    | (intro _; intros; try dsimp only)
    | refine Dev.issue_ind (hP.mono (by decide) (by decide)) ?_ ?_
    | refine Dev.launch_ind (hP.mono (by decide) (by decide)) ?_
    | refine Dev.post_ind (hP.mono (by decide) (by decide)) ?_
    | split

theorem Dev.zSignal_ind {P : Dev → Prop} (hP : Closed P 0x84009 0x4ed00000000000000000000000000000000000000000000000) {n : Nat} {d : Dev} (hd0 : P d) :
    P (Dev.zSignal n d) := by
  unfold Dev.zSignal
  try dsimp only
  repeat' with_reducible first
    | assumption
    | (intro _; intros; try dsimp only)
    | refine Dev.issue_ind (hP.mono (by decide) (by decide)) ?_ ?_
    | refine Dev.launch_ind (hP.mono (by decide) (by decide)) ?_
    | split

theorem Dev.zMark_ind {P : Dev → Prop} (hP : Closed P 0x84009 0x4ed00000000000000000000000000000000000000000000000) {n : Nat} {d : Dev} (hd0 : P d) :
    P (Dev.zMark n d) := by
  unfold Dev.zMark
  try dsimp only
  repeat' with_reducible first
    | assumption
    | (intro _; intros; try dsimp only)
    | refine Dev.issue_ind (hP.mono (by decide) (by decide)) ?_ ?_
    | refine Dev.launch_ind (hP.mono (by decide) (by decide)) ?_
    | split

theorem Dev.zTone_ind {P : Dev → Prop} (hP : Closed P 0x84009 0x4ed00000000000000000000000000000000000000000000000) {n : Nat} {d : Dev} (hd0 : P d) :
    P (Dev.zTone n d) := by
  unfold Dev.zTone
  try dsimp only
  repeat' with_reducible first
    | assumption
    | (intro _; intros; try dsimp only)
    | refine Dev.issue_ind (hP.mono (by decide) (by decide)) ?_ ?_
    | refine Dev.launch_ind (hP.mono (by decide) (by decide)) ?_
    | split

theorem Dev.zPlay_ind {P : Dev → Prop} (hP : Closed P 0x84009 0x4ed00000000000000000000000000000000000000000000000) {n : Nat} {d : Dev} (hd0 : P d) :
    P (Dev.zPlay n d) := by
  unfold Dev.zPlay
  try dsimp only
  repeat' with_reducible first
    | assumption
    | (intro _; intros; try dsimp only)
    | refine Dev.issue_ind (hP.mono (by decide) (by decide)) ?_ ?_
    | refine Dev.launch_ind (hP.mono (by decide) (by decide)) ?_
    | split

theorem Dev.switchRun_ind {P : Dev → Prop} (hP : Closed P 0x84000 0x42900000000000000000000000000000000000000000000000) {d : Dev} {n : Nat} {x : Needle} (hd0 : P d) :
    P (Dev.switchRun d n x) := by
  unfold Dev.switchRun
  try dsimp only
  repeat' with_reducible first
    | assumption
    | (intro _; intros; try dsimp only)
    | refine Dev.internal_ind (hP.mono (by decide) (by decide)) ?_
    | refine Dev.replSwitch_ind (hP.mono (by decide) (by decide)) ?_
    | refine Dev.updNdl_ind (hP.mono (by decide) (by decide)) ?_
    | split

theorem Dev.zYield_ind {P : Dev → Prop} (hP : Closed P 0x84009 0x4ed00000000000000000000000000000000000000000000000) {n : Nat} {d : Dev} (hd0 : P d) :
    P (Dev.zYield n d) := by
  unfold Dev.zYield
  try dsimp only
  repeat' with_reducible first
    | assumption
    | (intro _; intros; try dsimp only)
    | refine ite_ind ?_ ?_
    | refine Dev.issue_ind (hP.mono (by decide) (by decide)) ?_ ?_
    | refine Dev.switchRun_ind (hP.mono (by decide) (by decide)) ?_
    | refine Dev.internal_ind (hP.mono (by decide) (by decide)) ?_
    | split

theorem Dev.zHalt_ind {P : Dev → Prop} (hP : Closed P 0x84009 0x4ed00000000000000000000000000000000000000000000000) {n : Nat} {d : Dev} (hd0 : P d) :
    P (Dev.zHalt n d) := by
  unfold Dev.zHalt
  try dsimp only
  repeat' with_reducible first
    | assumption
    | (intro _; intros; try dsimp only)
    | refine ite_ind ?_ ?_
    | refine Dev.issue_ind (hP.mono (by decide) (by decide)) ?_ ?_
    | refine Dev.switchRun_ind (hP.mono (by decide) (by decide)) ?_
    | refine Dev.retire_ind (hP.mono (by decide) (by decide)) ?_
    | refine Dev.raise_ind (hP.mono (by decide) (by decide)) ?_
    | split

end Sys2Proof.Machine
end

