-- ==== Sys2Proof/Laws/IndTallyCfg.lean ====
section
/-!
SUPPORT. What the operations of Machine/TallyCfg.lean can change: each keeps every property that is closed under changes of its
parts and writes of its register families.
-/
namespace Sys2Proof.Machine

theorem Dev.updJob_ind {P : Dev → Prop} (hP : Closed P 0x1000 0x0) {d : Dev} {j : Nat} {f : TallyJob → TallyJob} (hd0 : P d) :
    P (Dev.updJob d j f) := by
  unfold Dev.updJob
  try dsimp only
  repeat' with_reducible first
    | assumption
    | refine hP.tal (by decide) _ _ (by first | exact Memory.keeps_refl _ | exact Memory.keeps_store (by decide) _ _ _ | exact Memory.keeps_filter (by decide) _ _ | exact Memory.keeps_nil (by decide) _) ?_

theorem Dev.tallyTrigger_ind {P : Dev → Prop} (hP : Closed P 0x1000 0x0) {d : Dev} {u : Nat} {inst : Nat} {time : BitVec 128} (hd0 : P d) :
    P (Dev.tallyTrigger d u inst time) := by
  unfold Dev.tallyTrigger
  try dsimp only
  repeat' with_reducible first
    | assumption
    | refine foldl_ind ?_ ?_
    | (intro _; intros; try dsimp only)
    | refine ite_ind ?_ ?_
    | refine Dev.updJob_ind (hP.mono (by decide) (by decide)) ?_
    | split

end Sys2Proof.Machine
end

