-- ==== Sys2Proof/Laws/IndQuarry.lean ====
section
/-!
SUPPORT. What the operations of Machine/Quarry.lean can change: each keeps every property that is closed under changes of its
parts and writes of its register families.
-/
namespace Sys2Proof.Machine

theorem Dev.updChan_ind {P : Dev → Prop} (hP : Closed P 0x10000 0x0) {d : Dev} {c : Nat} {f : QChan → QChan} (hd0 : P d) :
    P (Dev.updChan d c f) := by
  unfold Dev.updChan
  try dsimp only
  repeat' with_reducible first
    | assumption
    | refine hP.ben (by decide) _ _ (Bench.keeps_of (by first | exact Memory.keeps_refl _ | exact Memory.keeps_store (by decide) _ _ _ | exact Memory.keeps_nil (by decide) _ | exact Memory.keeps_filter (by decide) _ _)
        (by first | exact Memory.keeps_refl _ | exact Memory.keeps_store (by decide) _ _ _ | exact Memory.keeps_filter (by decide) _ _)) ?_

theorem Dev.srShow_ind {P : Dev → Prop} (hP : Closed P 0x0 0x800000000000000000000000000000000000000000000000000000000000) {d : Dev} (hd0 : P d) :
    P (Dev.srShow d) := by
  unfold Dev.srShow
  try dsimp only
  repeat' with_reducible first
    | assumption
    | (intro _; intros; try dsimp only)
    | refine Dev.putb_ind hP (by decide) ?_
    | split

theorem Dev.srExit_ind {P : Dev → Prop} (hP : Closed P 0x10000 0x420800000000000000000000000000000000000000000000000000000000000) {d : Dev} {c : Nat} (hd0 : P d) :
    P (Dev.srExit d c) := by
  unfold Dev.srExit
  try dsimp only
  repeat' with_reducible first
    | assumption
    | refine foldl_ind ?_ ?_
    | (intro _; intros; try dsimp only)
    | refine ite_ind ?_ ?_
    | refine Dev.updChan_ind (hP.mono (by decide) (by decide)) ?_
    | refine Dev.srShow_ind (hP.mono (by decide) (by decide)) ?_
    | refine hP.wrAt (by decide) ?_
    | refine Dev.put_ind hP (by decide) ?_
    | split

theorem Dev.qrySlot_ind {P : Dev → Prop} (hP : Closed P 0x10000 0x0) {d : Dev} {c : Nat} (hd0 : P d) :
    P (Dev.qrySlot d c) := by
  unfold Dev.qrySlot
  try dsimp only
  repeat' with_reducible first
    | assumption
    | (intro _; intros; try dsimp only)
    | refine ite_ind ?_ ?_
    | refine ite_fst ?_ ?_
    | refine ite_snd ?_ ?_
    | refine Dev.updChan_ind (hP.mono (by decide) (by decide)) ?_
    | split

theorem Dev.freqAbandon_ind {P : Dev → Prop} (hP : Closed P 0x90000 0x2800000000000000000000000000000000000000000000000000000000000) {d : Dev} (hd0 : P d) :
    P (Dev.freqAbandon d) := by
  unfold Dev.freqAbandon
  try dsimp only
  repeat' with_reducible first
    | assumption
    | refine ite_ind ?_ ?_
    | refine hP.ben (by decide) _ _ (Bench.keeps_of (by first | exact Memory.keeps_refl _ | exact Memory.keeps_store (by decide) _ _ _ | exact Memory.keeps_nil (by decide) _ | exact Memory.keeps_filter (by decide) _ _)
        (by first | exact Memory.keeps_refl _ | exact Memory.keeps_store (by decide) _ _ _ | exact Memory.keeps_filter (by decide) _ _)) ?_
    | refine Dev.putb_ind hP (by decide) ?_
    | refine Dev.put_ind hP (by decide) ?_
    | refine Dev.raise_ind (hP.mono (by decide) (by decide)) ?_
    | split

theorem Dev.quarryRequestEff_ind {P : Dev → Prop} (hP : Closed P 0x90000 0x422800000000000000000000000000000000000000000000000000000000000) {c : Nat} {cls : Nat} {read : Bool} {slots : Nat} {d : Dev} (hd0 : P d) :
    P (Dev.quarryRequestEff c cls read slots d) := by
  unfold Dev.quarryRequestEff
  try dsimp only
  repeat' with_reducible first
    | assumption
    | refine foldl_ind ?_ ?_
    | (intro _; intros; try dsimp only)
    | refine ite_ind ?_ ?_
    | refine Dev.freqAbandon_ind (hP.mono (by decide) (by decide)) ?_
    | refine Dev.srExit_ind (hP.mono (by decide) (by decide)) ?_
    | refine Dev.updChan_ind (hP.mono (by decide) (by decide)) ?_
    | refine Dev.qrySlot_ind (hP.mono (by decide) (by decide)) ?_
    | split

theorem Dev.hostDeferExpiryEff_ind {P : Dev → Prop} (hP : Closed P 0x90009 0x8000000000000000000000000000001000000000000000000000000000000000000000000000000000000000) {c : Nat} {d : Dev} (hd0 : P d) :
    P (Dev.hostDeferExpiryEff c d) := by
  unfold Dev.hostDeferExpiryEff
  try dsimp only
  repeat' with_reducible first
    | assumption
    | (intro _; intros; try dsimp only)
    | refine ite_ind ?_ ?_
    | refine ite_fst ?_ ?_
    | refine ite_snd ?_ ?_
    | refine Dev.advanceTo_ind (hP.mono (by decide) (by decide)) ?_
    | refine Dev.updChan_ind (hP.mono (by decide) (by decide)) ?_
    | refine Dev.count_ind hP (by decide) (by decide) ?_
    | refine Dev.raise_ind (hP.mono (by decide) (by decide)) ?_
    | split

theorem Dev.refreshDueEff_ind {P : Dev → Prop} (hP : Closed P 0x10000 0x8000000000000000000000000100000000000000000000000000000000000000000000000000000000000000) {c : Nat} {rank : Nat} {d : Dev} (hd0 : P d) :
    P (Dev.refreshDueEff c rank d) := by
  unfold Dev.refreshDueEff
  try dsimp only
  repeat' with_reducible first
    | assumption
    | (intro _; intros; try dsimp only)
    | refine ite_ind ?_ ?_
    | refine Dev.updChan_ind (hP.mono (by decide) (by decide)) ?_
    | refine Dev.count_ind hP (by decide) (by decide) ?_
    | split

theorem Dev.migrateStart_ind {P : Dev → Prop} (hP : Closed P 0x8090000 0xc0000000000000000000000000000000000000002d000000000000000000000000000000000000000000000000000000000000) {d : Dev} {c : Nat} (hd0 : P d) :
    P (Dev.migrateStart d c) := by
  unfold Dev.migrateStart
  try dsimp only
  repeat' with_reducible first
    | assumption
    | (intro _; intros; try dsimp only)
    | refine ite_fst ?_ ?_
    | refine ite_snd ?_ ?_
    | refine hP.ben (by decide) _ _ (Bench.keeps_of (by first | exact Memory.keeps_refl _ | exact Memory.keeps_store (by decide) _ _ _ | exact Memory.keeps_nil (by decide) _ | exact Memory.keeps_filter (by decide) _ _)
        (by first | exact Memory.keeps_refl _ | exact Memory.keeps_store (by decide) _ _ _ | exact Memory.keeps_filter (by decide) _ _)) ?_
    | refine Dev.put_ind hP (by decide) ?_
    | refine Dev.raise_ind (hP.mono (by decide) (by decide)) ?_
    | refine Dev.decision_ind (hP.mono (by decide) (by decide)) ?_
    | split

theorem Dev.retireChannel_ind {P : Dev → Prop} (hP : Closed P 0x8090000 0xc0000000000000000000000000000000000000002d000000000000000000000000000000000000000000000000000000000000) {d : Dev} {c : Nat} (hd0 : P d) :
    P (Dev.retireChannel d c) := by
  unfold Dev.retireChannel
  try dsimp only
  repeat' with_reducible first
    | assumption
    | refine ite_ind ?_ ?_
    | refine Dev.put_ind hP (by decide) ?_
    | refine hP.ben (by decide) _ _ (Bench.keeps_of (by first | exact Memory.keeps_refl _ | exact Memory.keeps_store (by decide) _ _ _ | exact Memory.keeps_nil (by decide) _ | exact Memory.keeps_filter (by decide) _ _)
        (by first | exact Memory.keeps_refl _ | exact Memory.keeps_store (by decide) _ _ _ | exact Memory.keeps_filter (by decide) _ _)) ?_
    | refine Dev.migrateStart_ind (hP.mono (by decide) (by decide)) ?_

theorem Dev.retireRecheck_ind {P : Dev → Prop} (hP : Closed P 0x8090000 0xc0000000000000000000000000000000000000002d000000000000000000000000000000000000000000000000000000000000) {d : Dev} (hd0 : P d) :
    P (Dev.retireRecheck d) := by
  unfold Dev.retireRecheck
  try dsimp only
  repeat' with_reducible first
    | assumption
    | refine ite_ind ?_ ?_
    | refine Dev.migrateStart_ind (hP.mono (by decide) (by decide)) ?_
    | split

theorem Dev.channelRetireEff_ind {P : Dev → Prop} (hP : Closed P 0x8090000 0xc0000000000000000000000000000000000000002d000000000000000000000000000000000000000000000000000000000000) {c : Nat} {d : Dev} (hd0 : P d) :
    P (Dev.channelRetireEff c d) := by
  unfold Dev.channelRetireEff
  try dsimp only
  repeat' with_reducible first
    | assumption
    | refine Dev.put_ind hP (by decide) ?_
    | refine Dev.retireChannel_ind (hP.mono (by decide) (by decide)) ?_

theorem Dev.migrateDone_ind {P : Dev → Prop} (hP : Closed P 0x80000 0xc04000000000000000000000000000000000000024800000000000000000000000000000000000000000000000000000000000) {d : Dev} {k : Nat} (hd0 : P d) :
    P (Dev.migrateDone d k) := by
  unfold Dev.migrateDone
  try dsimp only
  repeat' with_reducible first
    | assumption
    | refine Dev.put_ind hP (by decide) ?_
    | refine Dev.raise_ind (hP.mono (by decide) (by decide)) ?_
    | refine Dev.pdPut_ind (hP.mono (by decide) (by decide)) ?_

theorem Dev.migrationBatchDoneEff_ind {P : Dev → Prop} (hP : Closed P 0x90000 0xc0400000000000000000000000000000000000002c800000000000000000000000000000000000000000000000000000000000) {d : Dev} (hd0 : P d) :
    P (Dev.migrationBatchDoneEff d) := by
  unfold Dev.migrationBatchDoneEff
  try dsimp only
  repeat' with_reducible first
    | assumption
    | refine ite_ind ?_ ?_
    | refine hP.ben (by decide) _ _ (Bench.keeps_of (by first | exact Memory.keeps_refl _ | exact Memory.keeps_store (by decide) _ _ _ | exact Memory.keeps_nil (by decide) _ | exact Memory.keeps_filter (by decide) _ _)
        (by first | exact Memory.keeps_refl _ | exact Memory.keeps_store (by decide) _ _ _ | exact Memory.keeps_filter (by decide) _ _)) ?_
    | refine Dev.put_ind hP (by decide) ?_
    | refine Dev.migrateDone_ind (hP.mono (by decide) (by decide)) ?_
    | split

theorem Dev.retireClearEff_ind {P : Dev → Prop} (hP : Closed P 0x90000 0x2d000000000000000000000000000000000000000000000000000000000000) {d : Dev} (hd0 : P d) :
    P (Dev.retireClearEff d) := by
  unfold Dev.retireClearEff
  try dsimp only
  repeat' with_reducible first
    | assumption
    | refine ite_ind ?_ ?_
    | refine hP.ben (by decide) _ _ (Bench.keeps_of (by first | exact Memory.keeps_refl _ | exact Memory.keeps_store (by decide) _ _ _ | exact Memory.keeps_nil (by decide) _ | exact Memory.keeps_filter (by decide) _ _)
        (by first | exact Memory.keeps_refl _ | exact Memory.keeps_store (by decide) _ _ _ | exact Memory.keeps_filter (by decide) _ _)) ?_
    | refine Dev.put_ind hP (by decide) ?_
    | refine Dev.raise_ind (hP.mono (by decide) (by decide)) ?_
    | split

theorem Dev.rowRetire_ind {P : Dev → Prop} (hP : Closed P 0x8090000 0xc0000000000000800000000000000000000000062d000000000000000000000000000000000000000000000000000000000000) {d : Dev} {c : Nat} {row : Nat} {first : Bool} (hd0 : P d) :
    P (Dev.rowRetire d c row first) := by
  unfold Dev.rowRetire
  try dsimp only
  repeat' with_reducible first
    | assumption
    | (intro _; intros; try dsimp only)
    | refine ite_ind ?_ ?_
    | refine hP.wrAt (by decide) ?_
    | refine Dev.put_ind hP (by decide) ?_
    | refine Dev.updChan_ind (hP.mono (by decide) (by decide)) ?_
    | refine Dev.decision_ind (hP.mono (by decide) (by decide)) ?_
    | refine Dev.count_ind hP (by decide) (by decide) ?_
    | refine Dev.raise_ind (hP.mono (by decide) (by decide)) ?_
    | refine Dev.retireChannel_ind (hP.mono (by decide) (by decide)) ?_
    | split

theorem Dev.memoryErrorEff_ind {P : Dev → Prop} (hP : Closed P 0x8090000 0xc000000000000080000000000000000000000006ed000c00000000000000000000000000000000000000000000000000000000) {quarry : Bool} {block : Nat} {ue : Bool} {row : Nat} {d : Dev} (hd0 : P d) :
    P (Dev.memoryErrorEff quarry block ue row d) := by
  unfold Dev.memoryErrorEff
  try dsimp only
  repeat' with_reducible first
    | assumption
    | (intro _; intros; try dsimp only)
    | refine ite_ind ?_ ?_
    | refine Dev.count_ind hP (by decide) (by decide) ?_
    | refine hP.ben (by decide) _ _ (Bench.keeps_of (by first | exact Memory.keeps_refl _ | exact Memory.keeps_store (by decide) _ _ _ | exact Memory.keeps_nil (by decide) _ | exact Memory.keeps_filter (by decide) _ _)
        (by first | exact Memory.keeps_refl _ | exact Memory.keeps_store (by decide) _ _ _ | exact Memory.keeps_filter (by decide) _ _)) ?_
    | refine Dev.raise_ind (hP.mono (by decide) (by decide)) ?_
    | refine Dev.raiseHeld_ind (hP.mono (by decide) (by decide)) ?_
    | refine Dev.updChan_ind (hP.mono (by decide) (by decide)) ?_
    | refine Dev.rowRetire_ind (hP.mono (by decide) (by decide)) ?_
    | split

theorem Dev.rowCopyDoneEff_ind {P : Dev → Prop} (hP : Closed P 0x90000 0x400000000000000000000000000000000000000000000000000000000000000) {c : Nat} {d : Dev} (hd0 : P d) :
    P (Dev.rowCopyDoneEff c d) := by
  unfold Dev.rowCopyDoneEff
  try dsimp only
  repeat' with_reducible first
    | assumption
    | (intro _; intros; try dsimp only)
    | refine Dev.updChan_ind (hP.mono (by decide) (by decide)) ?_
    | refine Dev.putb_ind hP (by decide) ?_
    | refine Dev.raise_ind (hP.mono (by decide) (by decide)) ?_
    | split

theorem Dev.patrolScrubEff_ind {P : Dev → Prop} (hP : Closed P 0x90000 0x422800000000000000000000000000000000000000000000000000000000000) {d : Dev} (hd0 : P d) :
    P (Dev.patrolScrubEff d) := by
  unfold Dev.patrolScrubEff
  try dsimp only
  repeat' with_reducible first
    | assumption
    | refine foldl_ind ?_ ?_
    | (intro _; intros; try dsimp only)
    | refine ite_ind ?_ ?_
    | refine Dev.quarryRequestEff_ind (hP.mono (by decide) (by decide)) ?_
    | refine Dev.updChan_ind (hP.mono (by decide) (by decide)) ?_
    | refine hP.ben (by decide) _ _ (Bench.keeps_of (by first | exact Memory.keeps_refl _ | exact Memory.keeps_store (by decide) _ _ _ | exact Memory.keeps_nil (by decide) _ | exact Memory.keeps_filter (by decide) _ _)
        (by first | exact Memory.keeps_refl _ | exact Memory.keeps_store (by decide) _ _ _ | exact Memory.keeps_filter (by decide) _ _)) ?_
    | split

theorem Dev.selfRefreshEntryEff_ind {P : Dev → Prop} (hP : Closed P 0x90009 0x800000000000000000000000000000000000000000000000000000000000) {c : Nat} {d : Dev} (hd0 : P d) :
    P (Dev.selfRefreshEntryEff c d) := by
  unfold Dev.selfRefreshEntryEff
  try dsimp only
  repeat' with_reducible first
    | assumption
    | (intro _; intros; try dsimp only)
    | refine ite_ind ?_ ?_
    | refine Dev.advanceTo_ind (hP.mono (by decide) (by decide)) ?_
    | refine Dev.updChan_ind (hP.mono (by decide) (by decide)) ?_
    | refine Dev.srShow_ind (hP.mono (by decide) (by decide)) ?_
    | split

theorem Dev.freqLoad_ind {P : Dev → Prop} (hP : Closed P 0x10000 0x0) {d : Dev} {p : Nat} (hd0 : P d) :
    P (Dev.freqLoad d p) := by
  unfold Dev.freqLoad
  try dsimp only
  repeat' with_reducible first
    | assumption
    | refine hP.ben (by decide) _ _ (Bench.keeps_of (by first | exact Memory.keeps_refl _ | exact Memory.keeps_store (by decide) _ _ _ | exact Memory.keeps_nil (by decide) _ | exact Memory.keeps_filter (by decide) _ _)
        (by first | exact Memory.keeps_refl _ | exact Memory.keeps_store (by decide) _ _ _ | exact Memory.keeps_filter (by decide) _ _)) ?_

theorem Dev.freqChangeGoEff_ind {P : Dev → Prop} (hP : Closed P 0x10000 0x2000000000000000000000000000000000000000000000000000000000000) {p : Nat} {d : Dev} (hd0 : P d) :
    P (Dev.freqChangeGoEff p d) := by
  unfold Dev.freqChangeGoEff
  try dsimp only
  repeat' with_reducible first
    | assumption
    | refine ite_ind ?_ ?_
    | refine Dev.put_ind hP (by decide) ?_
    | refine Dev.freqLoad_ind (hP.mono (by decide) (by decide)) ?_

theorem Dev.freqOwn_ind {P : Dev → Prop} (hP : Closed P 0x90000 0xc00000000000000000000000000000000000000000000000000000000000000000000000000000000000000000000000000000) {d : Dev} {p : Nat} (hd0 : P d) :
    P (Dev.freqOwn d p) := by
  unfold Dev.freqOwn
  try dsimp only
  repeat' with_reducible first
    | assumption
    | (intro _; intros; try dsimp only)
    | refine ite_ind ?_ ?_
    | refine Dev.freqLoad_ind (hP.mono (by decide) (by decide)) ?_
    | refine Dev.decision_ind (hP.mono (by decide) (by decide)) ?_
    | split

theorem Dev.freqChangeBeginEff_ind {P : Dev → Prop} (hP : Closed P 0x90000 0xc00000000000000000000000000000000000000002800000000000000000000000000000000000000000000000000000000000) {own : Option Nat} {d : Dev} (hd0 : P d) :
    P (Dev.freqChangeBeginEff own d) := by
  unfold Dev.freqChangeBeginEff
  try dsimp only
  repeat' with_reducible first
    | assumption
    | (intro _; intros; try dsimp only)
    | refine ite_ind ?_ ?_
    | refine Dev.freqOwn_ind (hP.mono (by decide) (by decide)) ?_
    | refine hP.ben (by decide) _ _ (Bench.keeps_of (by first | exact Memory.keeps_refl _ | exact Memory.keeps_store (by decide) _ _ _ | exact Memory.keeps_nil (by decide) _ | exact Memory.keeps_filter (by decide) _ _)
        (by first | exact Memory.keeps_refl _ | exact Memory.keeps_store (by decide) _ _ _ | exact Memory.keeps_filter (by decide) _ _)) ?_
    | refine Dev.put_ind hP (by decide) ?_
    | refine Dev.putb_ind hP (by decide) ?_
    | split

theorem Dev.freqDoneEff_ind {P : Dev → Prop} (hP : Closed P 0x90009 0x422800000000000000000000000000000000000000000000000000000000000) {d : Dev} (hd0 : P d) :
    P (Dev.freqDoneEff d) := by
  unfold Dev.freqDoneEff
  try dsimp only
  repeat' with_reducible first
    | assumption
    | refine foldl_ind ?_ ?_
    | (intro _; intros; try dsimp only)
    | refine Dev.advanceTo_ind (hP.mono (by decide) (by decide)) ?_
    | refine hP.ben (by decide) _ _ (Bench.keeps_of (by first | exact Memory.keeps_refl _ | exact Memory.keeps_store (by decide) _ _ _ | exact Memory.keeps_nil (by decide) _ | exact Memory.keeps_filter (by decide) _ _)
        (by first | exact Memory.keeps_refl _ | exact Memory.keeps_store (by decide) _ _ _ | exact Memory.keeps_filter (by decide) _ _)) ?_
    | refine Dev.put_ind hP (by decide) ?_
    | refine Dev.putb_ind hP (by decide) ?_
    | refine Dev.qrySlot_ind (hP.mono (by decide) (by decide)) ?_
    | refine Dev.srExit_ind (hP.mono (by decide) (by decide)) ?_
    | refine Dev.raise_ind (hP.mono (by decide) (by decide)) ?_
    | split

end Sys2Proof.Machine
end

