-- ==== Sys2Proof/Laws/IndTimeBase.lean ====
section
/-!
SUPPORT. What the operations of Machine/TimeBase.lean can change: each keeps every property that is closed under changes of its
parts and writes of its register families.
-/
namespace Sys2Proof.Machine

theorem Dev.slewMark_ind {P : Dev → Prop} (hP : Closed P 0x100 0x20000000000) {d : Dev} {on : Bool} (hd0 : P d) :
    P (Dev.slewMark d on) := by
  unfold Dev.slewMark
  try dsimp only
  repeat' with_reducible first
    | assumption
    | refine ite_ind ?_ ?_
    | refine hP.wrAt (by decide) ?_
    | refine hP.tb (by decide) _ _ ?_

theorem Dev.slewRebase_ind {P : Dev → Prop} (hP : Closed P 0x100 0x20000000000) {d : Dev} (hd0 : P d) :
    P (Dev.slewRebase d) := by
  unfold Dev.slewRebase
  try dsimp only
  repeat' with_reducible first
    | assumption
    | refine ite_ind ?_ ?_
    | refine Dev.slewMark_ind (hP.mono (by decide) (by decide)) ?_

theorem Dev.tbEnter_ind {P : Dev → Prop} (hP : Closed P 0x100 0x20400000000) {d : Dev} {st : Nat} (hd0 : P d) :
    P (Dev.tbEnter d st) := by
  unfold Dev.tbEnter
  try dsimp only
  repeat' with_reducible first
    | assumption
    | (intro _; intros; try dsimp only)
    | refine ite_ind ?_ ?_
    | refine Dev.slewMark_ind (hP.mono (by decide) (by decide)) ?_
    | refine hP.tb (by decide) _ _ ?_
    | refine Dev.newEpoch_ind (hP.mono (by decide) (by decide)) ?_
    | refine Dev.put_ind hP (by decide) ?_
    | split

theorem Dev.tbRemove_ind {P : Dev → Prop} (hP : Closed P 0x100 0x20400000000) {d : Dev} {err : W64} (hd0 : P d) :
    P (Dev.tbRemove d err) := by
  unfold Dev.tbRemove
  try dsimp only
  repeat' with_reducible first
    | assumption
    | refine hP.wrAt (by decide) ?_
    | refine hP.tb (by decide) _ _ ?_
    | refine Dev.tbEnter_ind (hP.mono (by decide) (by decide)) ?_

theorem Dev.tbActive_ind {P : Dev → Prop} (hP : Closed P 0x80000 0x400000000) {d : Dev} {a : Nat} (hd0 : P d) :
    P (Dev.tbActive d a) := by
  unfold Dev.tbActive
  try dsimp only
  repeat' with_reducible first
    | assumption
    | refine ite_ind ?_ ?_
    | refine Dev.put_ind hP (by decide) ?_
    | refine Dev.raise_ind (hP.mono (by decide) (by decide)) ?_

theorem Dev.tbTake_ind {P : Dev → Prop} (hP : Closed P 0x80100 0x20400000000) {d : Dev} {src : Nat} {err : W64} (hd0 : P d) :
    P (Dev.tbTake d src err) := by
  unfold Dev.tbTake
  try dsimp only
  repeat' with_reducible first
    | assumption
    | refine ite_ind ?_ ?_
    | refine Dev.tbActive_ind (hP.mono (by decide) (by decide)) ?_
    | refine hP.tb (by decide) _ _ ?_
    | refine Dev.tbRemove_ind (hP.mono (by decide) (by decide)) ?_

theorem Dev.tbArrive_ind {P : Dev → Prop} (hP : Closed P 0x80100 0x20400000000) {d : Dev} {src : Nat} {err : W64} (hd0 : P d) :
    P (Dev.tbArrive d src err) := by
  unfold Dev.tbArrive
  try dsimp only
  repeat' with_reducible first
    | assumption
    | refine ite_ind ?_ ?_
    | refine Dev.tbTake_ind (hP.mono (by decide) (by decide)) ?_

theorem Dev.tbLose_ind {P : Dev → Prop} (hP : Closed P 0x80100 0x8000000000000000000000000000000000000000000000000000000000000000000000000000120400000000) {d : Dev} (hd0 : P d) :
    P (Dev.tbLose d) := by
  unfold Dev.tbLose
  try dsimp only
  repeat' with_reducible first
    | assumption
    | refine ite_ind ?_ ?_
    | refine Dev.tbActive_ind (hP.mono (by decide) (by decide)) ?_
    | refine Dev.count_ind hP (by decide) (by decide) ?_
    | refine hP.tb (by decide) _ _ ?_
    | refine Dev.tbEnter_ind (hP.mono (by decide) (by decide)) ?_
    | refine Dev.raise_ind (hP.mono (by decide) (by decide)) ?_

theorem Dev.refPresentEff_ind {P : Dev → Prop} (hP : Closed P 0x80100 0x20400000000) {mhz100 : Bool} {err : W64} {d : Dev} (hd0 : P d) :
    P (Dev.refPresentEff mhz100 err d) := by
  unfold Dev.refPresentEff
  try dsimp only
  repeat' with_reducible first
    | assumption
    | refine Dev.putb_ind hP (by decide) ?_
    | refine Dev.raise_ind (hP.mono (by decide) (by decide)) ?_
    | refine hP.tb (by decide) _ _ ?_
    | refine Dev.tbArrive_ind (hP.mono (by decide) (by decide)) ?_

theorem Dev.refAbsentEff_ind {P : Dev → Prop} (hP : Closed P 0x80100 0x8000000000000000000000000000000000000000000000000000000000000000000000000000120400000000) {d : Dev} (hd0 : P d) :
    P (Dev.refAbsentEff d) := by
  unfold Dev.refAbsentEff
  try dsimp only
  repeat' with_reducible first
    | assumption
    | refine ite_ind ?_ ?_
    | refine Dev.putb_ind hP (by decide) ?_
    | refine Dev.raise_ind (hP.mono (by decide) (by decide)) ?_
    | refine Dev.tbLose_ind (hP.mono (by decide) (by decide)) ?_

theorem Dev.extPresentEff_ind {P : Dev → Prop} (hP : Closed P 0x80100 0x20400000000) {err : W64} {d : Dev} (hd0 : P d) :
    P (Dev.extPresentEff err d) := by
  unfold Dev.extPresentEff
  try dsimp only
  repeat' with_reducible first
    | assumption
    | refine Dev.putb_ind hP (by decide) ?_
    | refine Dev.raise_ind (hP.mono (by decide) (by decide)) ?_
    | refine hP.tb (by decide) _ _ ?_
    | refine Dev.tbArrive_ind (hP.mono (by decide) (by decide)) ?_

theorem Dev.extAbsentEff_ind {P : Dev → Prop} (hP : Closed P 0x80100 0x8000000000000000000000000000000000000000000000000000000000000000000000000000120400000000) {err : W64} {d : Dev} (hd0 : P d) :
    P (Dev.extAbsentEff err d) := by
  unfold Dev.extAbsentEff
  try dsimp only
  repeat' with_reducible first
    | assumption
    | refine ite_ind ?_ ?_
    | refine Dev.putb_ind hP (by decide) ?_
    | refine Dev.raise_ind (hP.mono (by decide) (by decide)) ?_
    | refine Dev.tbLose_ind (hP.mono (by decide) (by decide)) ?_
    | refine Dev.tbTake_ind (hP.mono (by decide) (by decide)) ?_
    | split

theorem Dev.qualificationExpiryEff_ind {P : Dev → Prop} (hP : Closed P 0x80109 0xc00000000000000000000000000000000000000000000000000000000000000000000000000000000000000000020400000000) {err : W64} {d : Dev} (hd0 : P d) :
    P (Dev.qualificationExpiryEff err d) := by
  unfold Dev.qualificationExpiryEff
  try dsimp only
  repeat' with_reducible first
    | assumption
    | refine Dev.advanceTo_ind (hP.mono (by decide) (by decide)) ?_
    | refine Dev.tbTake_ind (hP.mono (by decide) (by decide)) ?_
    | refine Dev.decision_ind (hP.mono (by decide) (by decide)) ?_
    | split

theorem Dev.tbSelWritten_ind {P : Dev → Prop} (hP : Closed P 0x80102 0xc00000000000000000000000000000000000000000000000000000000000000000000000000000000000000000020400000000) {d : Dev} (hd0 : P d) :
    P (Dev.tbSelWritten d) := by
  unfold Dev.tbSelWritten
  try dsimp only
  repeat' with_reducible first
    | assumption
    | refine ite_ind ?_ ?_
    | refine Dev.tbActive_ind (hP.mono (by decide) (by decide)) ?_
    | refine hP.tb (by decide) _ _ ?_
    | refine Dev.tbEnter_ind (hP.mono (by decide) (by decide)) ?_
    | refine Dev.tbTake_ind (hP.mono (by decide) (by decide)) ?_
    | refine Dev.drawn_ind (hP.mono (by decide) (by decide)) ?_
    | refine Dev.decision_ind (hP.mono (by decide) (by decide)) ?_
    | refine Dev.raise_ind (hP.mono (by decide) (by decide)) ?_
    | split

theorem Dev.tbAligned_ind {P : Dev → Prop} (hP : Closed P 0x80100 0x400000000) {d : Dev} (hd0 : P d) :
    P (Dev.tbAligned d) := by
  unfold Dev.tbAligned
  try dsimp only
  repeat' with_reducible first
    | assumption
    | (intro _; intros; try dsimp only)
    | refine hP.tb (by decide) _ _ ?_
    | refine Dev.newEpoch_ind (hP.mono (by decide) (by decide)) ?_
    | refine Dev.putb_ind hP (by decide) ?_
    | refine Dev.raise_ind (hP.mono (by decide) (by decide)) ?_
    | split

theorem Dev.tbAlign_ind {P : Dev → Prop} (hP : Closed P 0x80100 0x20400000000) {d : Dev} {err : W64} (hd0 : P d) :
    P (Dev.tbAlign d err) := by
  unfold Dev.tbAlign
  try dsimp only
  repeat' with_reducible first
    | assumption
    | refine ite_ind ?_ ?_
    | refine hP.tb (by decide) _ _ ?_
    | refine Dev.raise_ind (hP.mono (by decide) (by decide)) ?_
    | refine hP.wrAt (by decide) ?_
    | refine Dev.tbAligned_ind (hP.mono (by decide) (by decide)) ?_
    | refine Dev.tbRemove_ind (hP.mono (by decide) (by decide)) ?_

theorem Dev.tbLock_ind {P : Dev → Prop} (hP : Closed P 0x80100 0x20400000000) {d : Dev} (hd0 : P d) :
    P (Dev.tbLock d) := by
  unfold Dev.tbLock
  try dsimp only
  repeat' with_reducible first
    | assumption
    | (intro _; intros; try dsimp only)
    | refine ite_ind ?_ ?_
    | refine hP.tb (by decide) _ _ ?_
    | refine Dev.raise_ind (hP.mono (by decide) (by decide)) ?_
    | refine Dev.tbActive_ind (hP.mono (by decide) (by decide)) ?_
    | refine Dev.tbEnter_ind (hP.mono (by decide) (by decide)) ?_
    | refine Dev.newEpoch_ind (hP.mono (by decide) (by decide)) ?_
    | refine Dev.putb_ind hP (by decide) ?_
    | refine Dev.tbAligned_ind (hP.mono (by decide) (by decide)) ?_
    | split

theorem Dev.originRefused_ind {P : Dev → Prop} (hP : Closed P 0x80100 0x2000000000) {d : Dev} (hd0 : P d) :
    P (Dev.originRefused d) := by
  unfold Dev.originRefused
  try dsimp only
  repeat' with_reducible first
    | assumption
    | refine hP.tb (by decide) _ _ ?_
    | refine Dev.put_ind hP (by decide) ?_
    | refine Dev.raise_ind (hP.mono (by decide) (by decide)) ?_

theorem Dev.originCancel_ind {P : Dev → Prop} (hP : Closed P 0x80100 0x2000000000) {d : Dev} (hd0 : P d) :
    P (Dev.originCancel d) := by
  unfold Dev.originCancel
  try dsimp only
  repeat' with_reducible first
    | assumption
    | refine ite_ind ?_ ?_
    | refine Dev.originRefused_ind (hP.mono (by decide) (by decide)) ?_

theorem Dev.tbUnlock_ind {P : Dev → Prop} (hP : Closed P 0x80100 0x8000000000000000000000000000000000000000000000000000000000000000000000000000122400000000) {d : Dev} (hd0 : P d) :
    P (Dev.tbUnlock d) := by
  unfold Dev.tbUnlock
  try dsimp only
  repeat' with_reducible first
    | assumption
    | refine Dev.tbEnter_ind (hP.mono (by decide) (by decide)) ?_
    | refine Dev.raise_ind (hP.mono (by decide) (by decide)) ?_
    | refine Dev.count_ind hP (by decide) (by decide) ?_
    | refine hP.tb (by decide) _ _ ?_
    | refine Dev.originCancel_ind (hP.mono (by decide) (by decide)) ?_

theorem Dev.timeStepEff_ind {P : Dev → Prop} (hP : Closed P 0x80100 0x20000000000) {d : Dev} (hd0 : P d) :
    P (Dev.timeStepEff d) := by
  unfold Dev.timeStepEff
  try dsimp only
  repeat' with_reducible first
    | assumption
    | (intro _; intros; try dsimp only)
    | refine ite_ind ?_ ?_
    | refine Dev.newEpoch_ind (hP.mono (by decide) (by decide)) ?_
    | refine hP.wrAt (by decide) ?_
    | refine hP.tb (by decide) _ _ ?_
    | refine Dev.raise_ind (hP.mono (by decide) (by decide)) ?_
    | split

theorem Dev.holdoverExitEff_ind {P : Dev → Prop} (hP : Closed P 0x80109 0x20400000000) {d : Dev} (hd0 : P d) :
    P (Dev.holdoverExitEff d) := by
  unfold Dev.holdoverExitEff
  try dsimp only
  repeat' with_reducible first
    | assumption
    | refine ite_ind ?_ ?_
    | refine Dev.advanceTo_ind (hP.mono (by decide) (by decide)) ?_
    | refine Dev.tbEnter_ind (hP.mono (by decide) (by decide)) ?_
    | refine Dev.raise_ind (hP.mono (by decide) (by decide)) ?_
    | refine Dev.tbAligned_ind (hP.mono (by decide) (by decide)) ?_

theorem Dev.originGoEff_ind {P : Dev → Prop} (hP : Closed P 0x80100 0x2000000000) {boundary : Nat} {d : Dev} (hd0 : P d) :
    P (Dev.originGoEff boundary d) := by
  unfold Dev.originGoEff
  try dsimp only
  repeat' with_reducible first
    | assumption
    | refine ite_ind ?_ ?_
    | refine Dev.put_ind hP (by decide) ?_
    | refine Dev.originRefused_ind (hP.mono (by decide) (by decide)) ?_
    | refine hP.tb (by decide) _ _ ?_

theorem Dev.originSetEff_ind {P : Dev → Prop} (hP : Closed P 0x80109 0x2400000000) {d : Dev} (hd0 : P d) :
    P (Dev.originSetEff d) := by
  unfold Dev.originSetEff
  try dsimp only
  repeat' with_reducible first
    | assumption
    | (intro _; intros; try dsimp only)
    | refine ite_ind ?_ ?_
    | refine Dev.advanceTo_ind (hP.mono (by decide) (by decide)) ?_
    | refine Dev.originCancel_ind (hP.mono (by decide) (by decide)) ?_
    | refine Dev.newEpoch_ind (hP.mono (by decide) (by decide)) ?_
    | refine hP.tb (by decide) _ _ ?_
    | refine Dev.put_ind hP (by decide) ?_
    | refine Dev.putb_ind hP (by decide) ?_
    | refine Dev.raise_ind (hP.mono (by decide) (by decide)) ?_
    | split

theorem Dev.originEdge_ind {P : Dev → Prop} (hP : Closed P 0x100 0x0) {d : Dev} {w : Nat} {inst : Nat} (hd0 : P d) :
    P (Dev.originEdge d w inst) := by
  unfold Dev.originEdge
  try dsimp only
  repeat' with_reducible first
    | assumption
    | refine ite_ind ?_ ?_
    | refine hP.tb (by decide) _ _ ?_

theorem Dev.tickWrapEff_ind {P : Dev → Prop} (hP : Closed P 0x80009 0x0) {d : Dev} (hd0 : P d) :
    P (Dev.tickWrapEff d) := by
  unfold Dev.tickWrapEff
  try dsimp only
  repeat' with_reducible first
    | assumption
    | refine Dev.advanceTo_ind (hP.mono (by decide) (by decide)) ?_

theorem Dev.ppsInEff_ind {P : Dev → Prop} (hP : Closed P 0x80100 0x21400000000) {sample : Nat} {frac : Nat} {err : W64} {d : Dev} (hd0 : P d) :
    P (Dev.ppsInEff sample frac err d) := by
  unfold Dev.ppsInEff
  try dsimp only
  repeat' with_reducible first
    | assumption
    | refine ite_ind ?_ ?_
    | refine Dev.wr128_ind hP (by decide) ?_
    | refine hP.tb (by decide) _ _ ?_
    | refine Dev.raise_ind (hP.mono (by decide) (by decide)) ?_
    | refine Dev.originEdge_ind (hP.mono (by decide) (by decide)) ?_
    | refine Dev.tbAlign_ind (hP.mono (by decide) (by decide)) ?_

theorem Dev.ppsMissingEff_ind {P : Dev → Prop} (hP : Closed P 0x80109 0x0) {d : Dev} (hd0 : P d) :
    P (Dev.ppsMissingEff d) := by
  unfold Dev.ppsMissingEff
  try dsimp only
  repeat' with_reducible first
    | assumption
    | refine ite_ind ?_ ?_
    | refine Dev.advanceTo_ind (hP.mono (by decide) (by decide)) ?_
    | refine hP.tb (by decide) _ _ ?_
    | refine Dev.raise_ind (hP.mono (by decide) (by decide)) ?_
    | split

theorem Dev.ppsOutEff_ind {P : Dev → Prop} (hP : Closed P 0x80109 0x0) {d : Dev} (hd0 : P d) :
    P (Dev.ppsOutEff d) := by
  unfold Dev.ppsOutEff
  try dsimp only
  repeat' with_reducible first
    | assumption
    | refine ite_ind ?_ ?_
    | refine ite_fst ?_ ?_
    | refine ite_snd ?_ ?_
    | refine Dev.advanceTo_ind (hP.mono (by decide) (by decide)) ?_
    | refine hP.tb (by decide) _ _ ?_

theorem Dev.ptpServo_ind {P : Dev → Prop} (hP : Closed P 0x80100 0x20400000000) {d : Dev} {err : W64} (hd0 : P d) :
    P (Dev.ptpServo d err) := by
  unfold Dev.ptpServo
  try dsimp only
  repeat' with_reducible first
    | assumption
    | refine ite_ind ?_ ?_
    | refine Dev.tbAlign_ind (hP.mono (by decide) (by decide)) ?_
    | refine hP.wrAt (by decide) ?_
    | refine Dev.tbRemove_ind (hP.mono (by decide) (by decide)) ?_

theorem Dev.ptpMessageEff_ind {P : Dev → Prop} (hP : Closed P 0x80100 0x20400000000) {msg : PtpMsg} {domain : Nat} {state : Nat} {master : Option (W64 × W64)} {d : Dev} (hd0 : P d) :
    P (Dev.ptpMessageEff msg domain state master d) := by
  unfold Dev.ptpMessageEff
  try dsimp only
  repeat' with_reducible first
    | assumption
    | refine ite_ind ?_ ?_
    | refine hP.tb (by decide) _ _ ?_
    | refine Dev.raise_ind (hP.mono (by decide) (by decide)) ?_
    | refine Dev.ptpServo_ind (hP.mono (by decide) (by decide)) ?_
    | split

end Sys2Proof.Machine
end

