-- ==== Sys2Proof/Laws/IndQueues.lean ====
section
/-!
SUPPORT. What the operations of Machine/Queues.lean can change: each keeps every property that is closed under changes of its
parts and writes of its register families.
-/
namespace Sys2Proof.Machine

theorem Dev.updQ_ind {P : Dev → Prop} (hP : Closed P 0x40000 0x0) {d : Dev} {q : Nat} {f : QueueState → QueueState} (hd0 : P d) :
    P (Dev.updQ d q f) := by
  unfold Dev.updQ
  try dsimp only
  repeat' with_reducible first
    | assumption
    | refine hP.que (by decide) _ _ (by first | exact Memory.keeps_refl _ | exact Memory.keeps_store (by decide) _ _ _ | exact Memory.keeps_filter (by decide) _ _ | exact Memory.keeps_nil (by decide) _) ?_

theorem Dev.trySend_ind {P : Dev → Prop} (hP : Closed P 0x80040000 0x0) {d : Dev} {v : Nat} (hd0 : P d) :
    P (Dev.trySend d v) := by
  unfold Dev.trySend
  try dsimp only
  repeat' with_reducible first
    | assumption
    | refine ite_ind ?_ ?_
    | refine hP.que (by decide) _ _ (by first | exact Memory.keeps_refl _ | exact Memory.keeps_store (by decide) _ _ _ | exact Memory.keeps_filter (by decide) _ _ | exact Memory.keeps_nil (by decide) _) ?_
    | split

theorem Dev.request_ind {P : Dev → Prop} (hP : Closed P 0x40000 0x0) {d : Dev} {v : Nat} (hd0 : P d) :
    P (Dev.request d v) := by
  unfold Dev.request
  try dsimp only
  repeat' with_reducible first
    | assumption
    | (intro _; intros; try dsimp only)
    | refine ite_ind ?_ ?_
    | refine hP.que (by decide) _ _ (by first | exact Memory.keeps_refl _ | exact Memory.keeps_store (by decide) _ _ _ | exact Memory.keeps_filter (by decide) _ _ | exact Memory.keeps_nil (by decide) _) ?_
    | split

theorem Dev.queueRequest_ind {P : Dev → Prop} (hP : Closed P 0x40000 0x0) {d : Dev} {q : Nat} (hd0 : P d) :
    P (Dev.queueRequest d q) := by
  unfold Dev.queueRequest
  try dsimp only
  repeat' with_reducible first
    | assumption
    | (intro _; intros; try dsimp only)
    | refine Dev.updQ_ind (hP.mono (by decide) (by decide)) ?_
    | refine Dev.request_ind (hP.mono (by decide) (by decide)) ?_
    | split

theorem Dev.queueCheck_ind {P : Dev → Prop} (hP : Closed P 0x40000 0x0) {d : Dev} {q : Nat} (hd0 : P d) :
    P (Dev.queueCheck d q) := by
  unfold Dev.queueCheck
  try dsimp only
  repeat' with_reducible first
    | assumption
    | refine ite_ind ?_ ?_
    | refine Dev.queueRequest_ind (hP.mono (by decide) (by decide)) ?_
    | split

theorem Dev.queueNote_ind {P : Dev → Prop} (hP : Closed P 0x40000 0x0) {d : Dev} {q : Nat} (hd0 : P d) :
    P (Dev.queueNote d q) := by
  unfold Dev.queueNote
  try dsimp only
  repeat' with_reducible first
    | assumption
    | (intro _; intros; try dsimp only)
    | refine Dev.updQ_ind (hP.mono (by decide) (by decide)) ?_
    | refine Dev.queueCheck_ind (hP.mono (by decide) (by decide)) ?_
    | split

theorem Dev.qStore_ind {P : Dev → Prop} (hP : Closed P 0x88050000 0x0) {d : Dev} {q : Nat} {a : Nat} {b : List Byte} (hd0 : P d) :
    P (Dev.qStore d q a b) := by
  unfold Dev.qStore
  try dsimp only
  repeat' with_reducible first
    | assumption
    | refine ite_ind ?_ ?_
    | refine hP.ben (by decide) _ _ (Bench.keeps_of (by first | exact Memory.keeps_refl _ | exact Memory.keeps_store (by decide) _ _ _ | exact Memory.keeps_nil (by decide) _ | exact Memory.keeps_filter (by decide) _ _)
        (by first | exact Memory.keeps_refl _ | exact Memory.keeps_store (by decide) _ _ _ | exact Memory.keeps_filter (by decide) _ _)) ?_
    | refine hP.que (by decide) _ _ (by first | exact Memory.keeps_refl _ | exact Memory.keeps_store (by decide) _ _ _ | exact Memory.keeps_filter (by decide) _ _ | exact Memory.keeps_nil (by decide) _) ?_

theorem Dev.writeBack_ind {P : Dev → Prop} (hP : Closed P 0x80040000 0x0) {d : Dev} {q : Nat} {idx : Nat} (hd0 : P d) :
    P (Dev.writeBack d q idx) := by
  unfold Dev.writeBack
  try dsimp only
  repeat' with_reducible first
    | assumption
    | refine ite_ind ?_ ?_
    | refine hP.que (by decide) _ _ (by first | exact Memory.keeps_refl _ | exact Memory.keeps_store (by decide) _ _ _ | exact Memory.keeps_filter (by decide) _ _ | exact Memory.keeps_nil (by decide) _) ?_

theorem Dev.qWrite_ind {P : Dev → Prop} (hP : Closed P 0x88050000 0x2000000000000000000000000000000000000000000000000000000000000000000) {d : Dev} {q : Nat} {entries : List (List Byte)} (hd0 : P d) :
    P (Dev.qWrite d q entries) := by
  unfold Dev.qWrite
  try dsimp only
  repeat' with_reducible first
    | assumption
    | refine foldl_ind ?_ ?_
    | (intro _; intros; try dsimp only)
    | refine Dev.qStore_ind (hP.mono (by decide) (by decide)) ?_
    | refine Dev.put_ind hP (by decide) ?_
    | refine Dev.writeBack_ind (hP.mono (by decide) (by decide)) ?_
    | refine Dev.queueNote_ind (hP.mono (by decide) (by decide)) ?_
    | split

theorem Dev.itemLost_ind {P : Dev → Prop} (hP : Closed P 0xc0000 0x8000000000000000000008004000000000000000000000000000000000000000000000000000000000000000) {d : Dev} {q : Nat} {sp : Option Nat} (hd0 : P d) :
    P (Dev.itemLost d q sp) := by
  unfold Dev.itemLost
  try dsimp only
  repeat' with_reducible first
    | assumption
    | (intro _; intros; try dsimp only)
    | refine Dev.count_ind hP (by decide) (by decide) ?_
    | refine Dev.updQ_ind (hP.mono (by decide) (by decide)) ?_
    | refine Dev.raiseHeld_ind (hP.mono (by decide) (by decide)) ?_
    | split

theorem Dev.itemSpoil_ind {P : Dev → Prop} (hP : Closed P 0x880d0000 0x800000000000000000000a004000000000000000000000000000000000000000000000000000000000000000) {d : Dev} {q : Nat} {reason : Nat} {content : List Byte} (hd0 : P d) :
    P (Dev.itemSpoil d q reason content) := by
  unfold Dev.itemSpoil
  try dsimp only
  repeat' with_reducible first
    | assumption
    | (intro _; intros; try dsimp only)
    | refine ite_ind ?_ ?_
    | refine Dev.itemLost_ind (hP.mono (by decide) (by decide)) ?_
    | refine Dev.updQ_ind (hP.mono (by decide) (by decide)) ?_
    | refine Dev.qWrite_ind (hP.mono (by decide) (by decide)) ?_
    | refine Dev.count_ind hP (by decide) (by decide) ?_
    | refine Dev.raiseHeld_ind (hP.mono (by decide) (by decide)) ?_
    | split

theorem Dev.placeItem_ind {P : Dev → Prop} (hP : Closed P 0x880d0000 0x800000000000000000000a004000000000000000000000000000000000000000000000000000000000000000) {d : Dev} {x : Item} (hd0 : P d) :
    P (Dev.placeItem d x) := by
  unfold Dev.placeItem
  try dsimp only
  repeat' with_reducible first
    | assumption
    | refine ite_ind ?_ ?_
    | refine Dev.itemSpoil_ind (hP.mono (by decide) (by decide)) ?_
    | refine Dev.itemLost_ind (hP.mono (by decide) (by decide)) ?_
    | refine Dev.qWrite_ind (hP.mono (by decide) (by decide)) ?_
    | refine Dev.writeBack_ind (hP.mono (by decide) (by decide)) ?_
    | refine Dev.queueNote_ind (hP.mono (by decide) (by decide)) ?_
    | split

theorem Dev.queueItemWriteEff_ind {P : Dev → Prop} (hP : Closed P 0x880d0000 0x800000000000000000000a004000000000000000000000000000000000000000000000000000000000000000) {q : Nat} {d : Dev} (hd0 : P d) :
    P (Dev.queueItemWriteEff q d) := by
  unfold Dev.queueItemWriteEff
  try dsimp only
  repeat' with_reducible first
    | assumption
    | refine hP.que (by decide) _ _ (by first | exact Memory.keeps_refl _ | exact Memory.keeps_store (by decide) _ _ _ | exact Memory.keeps_filter (by decide) _ _ | exact Memory.keeps_nil (by decide) _) ?_
    | refine Dev.placeItem_ind (hP.mono (by decide) (by decide)) ?_
    | split

theorem Dev.queueAllocEff_ind {P : Dev → Prop} (hP : Closed P 0x80000 0x1001800000000000000000000000000000000000000000000000000000000000000) {any : Bool} {q : Nat} {d : Dev} (hd0 : P d) :
    P (Dev.queueAllocEff any q d) := by
  unfold Dev.queueAllocEff
  try dsimp only
  repeat' with_reducible first
    | assumption
    | refine ite_ind ?_ ?_
    | refine Dev.putb_ind hP (by decide) ?_
    | refine Dev.put_ind hP (by decide) ?_
    | refine hP.wrAt (by decide) ?_
    | refine Dev.raise_ind (hP.mono (by decide) (by decide)) ?_
    | split

theorem Dev.resetReg_ind {P : Dev → Prop} {c g : Nat} (hP : Closed P c g) {d : Dev} {f : Rg} {i j k : Nat}
    (hg : g.testBit f.ctorIdx = true) (h : P d) : P (d.resetReg ⟨f, i, j, k⟩) := hP.wr _ _ _ hg h

theorem Dev.queueEnableEff_ind {P : Dev → Prop} (hP : Closed P 0x40000 0x3400000000000000000000000000000000000000000000000000000000000000000) {q : Nat} {d : Dev} (hd0 : P d) :
    P (Dev.queueEnableEff q d) := by
  unfold Dev.queueEnableEff
  try dsimp only
  repeat' with_reducible first
    | assumption
    | (intro _; intros; try dsimp only)
    | refine ite_ind ?_ ?_
    | refine Dev.put_ind hP (by decide) ?_
    | refine Dev.putb_ind hP (by decide) ?_
    | refine hP.wrAt (by decide) ?_
    | refine Dev.updQ_ind (hP.mono (by decide) (by decide)) ?_
    | split

theorem Dev.cmdComplete_ind {P : Dev → Prop} (hP : Closed P 0x40000 0x2000000000000000000000000000000000000000000000000000000000000000000) {d : Dev} {q : Nat} {c : Line} {status : Nat} {values : List Nat} (hd0 : P d) :
    P (Dev.cmdComplete d q c status values) := by
  unfold Dev.cmdComplete
  try dsimp only
  repeat' with_reducible first
    | assumption
    | (intro _; intros; try dsimp only)
    | refine ite_ind ?_ ?_
    | refine hP.que (by decide) _ _ (by first | exact Memory.keeps_refl _ | exact Memory.keeps_store (by decide) _ _ _ | exact Memory.keeps_filter (by decide) _ _ | exact Memory.keeps_nil (by decide) _) ?_
    | refine Dev.put_ind hP (by decide) ?_
    | refine Dev.updQ_ind (hP.mono (by decide) (by decide)) ?_
    | split

theorem Dev.cmdsAbort_ind {P : Dev → Prop} (hP : Closed P 0x40000 0x2000000000000000000000000000000000000000000000000000000000000000000) {d : Dev} {q : Nat} (hd0 : P d) :
    P (Dev.cmdsAbort d q) := by
  unfold Dev.cmdsAbort
  try dsimp only
  repeat' with_reducible first
    | assumption
    | refine foldl_ind ?_ ?_
    | (intro _; intros; try dsimp only)
    | refine Dev.cmdComplete_ind (hP.mono (by decide) (by decide)) ?_
    | split

theorem Dev.queueDisableEff_ind {P : Dev → Prop} (hP : Closed P 0x40000 0x3400000000000000000000000000000000000000000000000000000000000000000) {q : Nat} {d : Dev} (hd0 : P d) :
    P (Dev.queueDisableEff q d) := by
  unfold Dev.queueDisableEff
  try dsimp only
  repeat' with_reducible first
    | assumption
    | refine ite_ind ?_ ?_
    | refine Dev.cmdsAbort_ind (hP.mono (by decide) (by decide)) ?_
    | refine Dev.putb_ind hP (by decide) ?_
    | refine Dev.put_ind hP (by decide) ?_

theorem Dev.queueFreeEff_ind {P : Dev → Prop} (hP : Closed P 0x40000 0x7780000000000000000000000000000000000000000000000000000000000000000) {q : Nat} {d : Dev} (h : P d) :
    P (Dev.queueFreeEff q d) := by
  unfold Dev.queueFreeEff
  simp only [List.foldl_cons, List.foldl_nil]
  repeat' with_reducible first
    | assumption
    | refine ite_ind ?_ ?_
    | refine Dev.put_ind hP (by decide) ?_
    | refine Dev.resetReg_ind hP (by decide) ?_
    | refine Dev.cmdsAbort_ind (hP.mono (by decide) (by decide)) ?_

theorem Dev.doorbellEff_ind {P : Dev → Prop} (hP : Closed P 0x80000 0x8000000000000000000002008000000000000000000000000000000000000000000000000000000000000000) {q : Nat} {idx : Nat} {d : Dev} (hd0 : P d) :
    P (Dev.doorbellEff q idx d) := by
  unfold Dev.doorbellEff
  try dsimp only
  repeat' with_reducible first
    | assumption
    | refine ite_ind ?_ ?_
    | refine Dev.count_ind hP (by decide) (by decide) ?_
    | refine Dev.raise_ind (hP.mono (by decide) (by decide)) ?_
    | refine Dev.put_ind hP (by decide) ?_

theorem Dev.commandFetchEff_ind {P : Dev → Prop} (hP : Closed P 0xc0000 0x1000000000000000000000000000000000000000000000000000000000000000000) {q : Nat} {ending : ReadEnd} {entry : Line} {d : Dev} (hd0 : P d) :
    P (Dev.commandFetchEff q ending entry d) := by
  unfold Dev.commandFetchEff
  try dsimp only
  repeat' with_reducible first
    | assumption
    | (intro _; intros; try dsimp only)
    | refine ite_ind ?_ ?_
    | refine Dev.updQ_ind (hP.mono (by decide) (by decide)) ?_
    | refine Dev.put_ind hP (by decide) ?_
    | refine Dev.raise_ind (hP.mono (by decide) (by decide)) ?_
    | split

theorem Dev.interruptTimeoutEff_ind {P : Dev → Prop} (hP : Closed P 0xc0009 0x0) {q : Nat} {d : Dev} (hd0 : P d) :
    P (Dev.interruptTimeoutEff q d) := by
  unfold Dev.interruptTimeoutEff
  try dsimp only
  repeat' with_reducible first
    | assumption
    | (intro _; intros; try dsimp only)
    | refine ite_ind ?_ ?_
    | refine Dev.advanceTo_ind (hP.mono (by decide) (by decide)) ?_
    | refine Dev.updQ_ind (hP.mono (by decide) (by decide)) ?_
    | refine Dev.queueCheck_ind (hP.mono (by decide) (by decide)) ?_
    | refine Dev.queueRequest_ind (hP.mono (by decide) (by decide)) ?_
    | split

theorem Dev.queIntWriteEff_ind {P : Dev → Prop} (hP : Closed P 0x40000 0x4000000000000000000000000000000000000000000000000000000000000000000) {q : Nat} {v : W32} {d : Dev} (hd0 : P d) :
    P (Dev.queIntWriteEff q v d) := by
  unfold Dev.queIntWriteEff
  try dsimp only
  repeat' with_reducible first
    | assumption
    | (intro _; intros; try dsimp only)
    | refine hP.wrAt (by decide) ?_
    | refine Dev.updQ_ind (hP.mono (by decide) (by decide)) ?_
    | split

theorem Dev.vectorUnmaskEff_ind {P : Dev → Prop} (hP : Closed P 0x80040000 0x0) {v : Nat} {addr : W64} {data : W32} {d : Dev} (hd0 : P d) :
    P (Dev.vectorUnmaskEff v addr data d) := by
  unfold Dev.vectorUnmaskEff
  try dsimp only
  repeat' with_reducible first
    | assumption
    | (intro _; intros; try dsimp only)
    | refine hP.que (by decide) _ _ (by first | exact Memory.keeps_refl _ | exact Memory.keeps_store (by decide) _ _ _ | exact Memory.keeps_filter (by decide) _ _ | exact Memory.keeps_nil (by decide) _) ?_
    | refine Dev.trySend_ind (hP.mono (by decide) (by decide)) ?_
    | split

theorem Dev.modFrExpiryEff_ind {P : Dev → Prop} (hP : Closed P 0x800c0009 0x0) {v : Nat} {d : Dev} (hd0 : P d) :
    P (Dev.modFrExpiryEff v d) := by
  unfold Dev.modFrExpiryEff
  try dsimp only
  repeat' with_reducible first
    | assumption
    | refine Dev.advanceTo_ind (hP.mono (by decide) (by decide)) ?_
    | refine Dev.trySend_ind (hP.mono (by decide) (by decide)) ?_
    | split

theorem Dev.logEvent_ind {P : Dev → Prop} (hP : Closed P 0x80000 0x8000000000000000000020000000000000000000000000000000000000000000000000000000000000000000) {d : Dev} {k : Nat} {e : Nat} {q : Nat} (hd0 : P d) :
    P (Dev.logEvent d k e q) := by
  unfold Dev.logEvent
  try dsimp only
  repeat' with_reducible first
    | assumption
    | refine ite_ind ?_ ?_
    | refine Dev.count_ind hP (by decide) (by decide) ?_
    | refine hP.evr (by decide) _ _ ?_
    | refine Dev.raise_ind (hP.mono (by decide) (by decide)) ?_

theorem Dev.eventLogWriteEff_ind {P : Dev → Prop} (hP : Closed P 0x880d0000 0x800000000000000000000a004000000000000000000000000000000000000000000000000000000000000000) {d : Dev} (hd0 : P d) :
    P (Dev.eventLogWriteEff d) := by
  unfold Dev.eventLogWriteEff
  try dsimp only
  repeat' with_reducible first
    | assumption
    | refine foldl_ind ?_ ?_
    | (intro _; intros; try dsimp only)
    | refine Dev.placeItem_ind (hP.mono (by decide) (by decide)) ?_
    | refine hP.evr (by decide) _ _ ?_
    | split

theorem Dev.holdoffExpiryEff_ind {P : Dev → Prop} (hP : Closed P 0x80009 0x0) {e : Nat} {d : Dev} (hd0 : P d) :
    P (Dev.holdoffExpiryEff e d) := by
  unfold Dev.holdoffExpiryEff
  try dsimp only
  repeat' with_reducible first
    | assumption
    | refine ite_ind ?_ ?_
    | refine Dev.advanceTo_ind (hP.mono (by decide) (by decide)) ?_
    | refine hP.evr (by decide) _ _ ?_
    | refine Dev.raise_ind (hP.mono (by decide) (by decide)) ?_
    | split

end Sys2Proof.Machine
end

