-- ==== Sys2Proof/Laws/IndLanes.lean ====
section
/-!
SUPPORT. What the operations of Machine/Lanes.lean can change: each keeps every property that is closed under changes of its
parts and writes of its register families.
-/
namespace Sys2Proof.Machine

theorem Dev.recPlace_ind {P : Dev → Prop} (hP : Closed P 0x4400 0x0) {d : Dev} {r : Rec} (hd0 : P d) :
    P (Dev.recPlace d r) := by
  unfold Dev.recPlace
  try dsimp only
  repeat' with_reducible first
    | assumption
    | (intro _; intros; try dsimp only)
    | refine hP.lanes (by decide) _ _ ?_
    | refine Dev.updLane_ind (hP.mono (by decide) (by decide)) ?_
    | refine Dev.wakeRecord_ind (hP.mono (by decide) (by decide)) ?_
    | split

theorem Dev.closesPlace_ind {P : Dev → Prop} (hP : Closed P 0x4400 0x0) {d : Dev} {l n : Nat} (h : P d) :
    P (d.closesPlace l n) := by
  induction n generalizing d with
  | zero => exact h
  | succ n ih =>
    unfold Dev.closesPlace
    split
    · refine ite_ind (ih ?_) h
      exact Dev.recPlace_ind (hP.mono (by decide) (by decide)) (Dev.updLane_ind (hP.mono (by decide) (by decide)) h)
    · exact h

theorem Dev.closesOut_ind {P : Dev → Prop} (hP : Closed P 0x4400 0x0) {d : Dev} {l : Nat} (hd0 : P d) :
    P (Dev.closesOut d l) := by
  unfold Dev.closesOut
  try dsimp only
  repeat' with_reducible first
    | assumption
    | refine Dev.closesPlace_ind (hP.mono (by decide) (by decide)) ?_

theorem Dev.laneClose_ind {P : Dev → Prop} (hP : Closed P 0x4400 0x0) {d : Dev} {l : Nat} {outcome : Nat} {k : Nat} {q : Req} (hd0 : P d) :
    P (Dev.laneClose d l outcome k q) := by
  unfold Dev.laneClose
  try dsimp only
  repeat' with_reducible first
    | assumption
    | (intro _; intros; try dsimp only)
    | refine ite_ind ?_ ?_
    | refine Dev.updLane_ind (hP.mono (by decide) (by decide)) ?_
    | refine Dev.closesOut_ind (hP.mono (by decide) (by decide)) ?_
    | split

theorem Dev.laneCloseAll_ind {P : Dev → Prop} (hP : Closed P 0x4400 0x0) {d : Dev} {l : Nat} {outcome : Nat} (hd0 : P d) :
    P (Dev.laneCloseAll d l outcome) := by
  unfold Dev.laneCloseAll
  try dsimp only
  repeat' with_reducible first
    | assumption
    | refine foldl_ind ?_ ?_
    | (intro _; intros; try dsimp only)
    | refine Dev.updLane_ind (hP.mono (by decide) (by decide)) ?_
    | refine Dev.laneClose_ind (hP.mono (by decide) (by decide)) ?_
    | split

theorem Dev.skeinOldest_ind {P : Dev → Prop} (hP : Closed P 0x0 0x80000000000000000000000000000) {d : Dev} {k : Nat} (hd0 : P d) :
    P (Dev.skeinOldest d k) := by
  unfold Dev.skeinOldest
  try dsimp only
  repeat' with_reducible first
    | assumption
    | refine Dev.putb_ind hP (by decide) ?_
    | refine Dev.put_ind hP (by decide) ?_
    | split

theorem Dev.supersede_ind {P : Dev → Prop} (hP : Closed P 0x4400 0x8000000000000000000000000000000000000000000000000000000000000400000000000000000000000000) {d : Dev} {l : Nat} {k : Nat} {h : Held} (hd0 : P d) :
    P (Dev.supersede d l k h) := by
  unfold Dev.supersede
  try dsimp only
  repeat' with_reducible first
    | assumption
    | (intro _; intros; try dsimp only)
    | refine ite_ind ?_ ?_
    | refine Dev.recPlace_ind (hP.mono (by decide) (by decide)) ?_
    | refine Dev.count_ind hP (by decide) (by decide) ?_
    | refine Dev.updLane_ind (hP.mono (by decide) (by decide)) ?_
    | split

theorem Dev.winPlace_ind {P : Dev → Prop} (hP : Closed P 0x400 0x20000000000000000000000000000) {d : Dev} {l : Nat} {q : Req} {p : Nat} (hd0 : P d) :
    P (Dev.winPlace d l q p) := by
  unfold Dev.winPlace
  try dsimp only
  repeat' with_reducible first
    | assumption
    | (intro _; intros; try dsimp only)
    | refine Dev.put_ind hP (by decide) ?_
    | refine Dev.updLane_ind (hP.mono (by decide) (by decide)) ?_
    | split

theorem Dev.winTry_ind {P : Dev → Prop} (hP : Closed P 0x84400 0x80000000000000000000000000000000000000000000000000000000000a0400800000000000000000000000) {d : Dev} {l : Nat} {q : Req} (hd0 : P d) :
    P (Dev.winTry d l q) := by
  unfold Dev.winTry
  try dsimp only
  repeat' with_reducible first
    | assumption
    | refine foldl_ind ?_ ?_
    | refine foldl_fst ?_ ?_
    | refine foldl_snd ?_ ?_
    | (intro _; intros; try dsimp only)
    | refine ite_ind ?_ ?_
    | refine ite_fst ?_ ?_
    | refine ite_snd ?_ ?_
    | refine Dev.winPlace_ind (hP.mono (by decide) (by decide)) ?_
    | refine Dev.putb_ind hP (by decide) ?_
    | refine Dev.raise_ind (hP.mono (by decide) (by decide)) ?_
    | refine Dev.laneCloseAll_ind (hP.mono (by decide) (by decide)) ?_
    | refine Dev.updSkein_ind (hP.mono (by decide) (by decide)) ?_
    | refine Dev.supersede_ind (hP.mono (by decide) (by decide)) ?_
    | refine Dev.skeinOldest_ind (hP.mono (by decide) (by decide)) ?_
    | refine Dev.updLane_ind (hP.mono (by decide) (by decide)) ?_
    | split

theorem Dev.laneActivate_ind {P : Dev → Prop} (hP : Closed P 0x84400 0x80000000000000000000000000000000000000000000000000000000000a0400800000000000000000000000) {d : Dev} {l : Nat} (hd0 : P d) :
    P (Dev.laneActivate d l) := by
  unfold Dev.laneActivate
  try dsimp only
  repeat' with_reducible first
    | assumption
    | (intro _; intros; try dsimp only)
    | refine ite_ind ?_ ?_
    | refine Dev.updLane_ind (hP.mono (by decide) (by decide)) ?_
    | refine Dev.winTry_ind (hP.mono (by decide) (by decide)) ?_
    | split

theorem Dev.requestActiveEff_ind {P : Dev → Prop} (hP : Closed P 0x84409 0x80000000000000000000000000000000000000000000000000000000000a0400800000000000000000000000) {l : Nat} {d : Dev} (hd0 : P d) :
    P (Dev.requestActiveEff l d) := by
  unfold Dev.requestActiveEff
  try dsimp only
  repeat' with_reducible first
    | assumption
    | refine Dev.advanceTo_ind (hP.mono (by decide) (by decide)) ?_
    | refine Dev.laneActivate_ind (hP.mono (by decide) (by decide)) ?_
    | split

theorem Dev.hoistWindowPlacedEff_ind {P : Dev → Prop} (hP : Closed P 0x84400 0x80000000000000000000000000000000000000000000000000000000000a0400800000000000000000000000) {l : Nat} {d : Dev} (hd0 : P d) :
    P (Dev.hoistWindowPlacedEff l d) := by
  unfold Dev.hoistWindowPlacedEff
  try dsimp only
  repeat' with_reducible first
    | assumption
    | refine ite_ind ?_ ?_
    | refine Dev.winTry_ind (hP.mono (by decide) (by decide)) ?_
    | split

theorem Dev.heldSync_ind {P : Dev → Prop} (hP : Closed P 0x400 0x0) {d : Dev} {l : Nat} (hd0 : P d) :
    P (Dev.heldSync d l) := by
  unfold Dev.heldSync
  try dsimp only
  repeat' with_reducible first
    | assumption
    | (intro _; intros; try dsimp only)
    | refine ite_ind ?_ ?_
    | refine ite_fst ?_ ?_
    | refine ite_snd ?_ ?_
    | refine Dev.updSkein_ind (hP.mono (by decide) (by decide)) ?_
    | split

theorem Dev.laneOpen_ind {P : Dev → Prop} (hP : Closed P 0xc0500 0x2001000000000000002000000000) {d : Dev} {u : Nat} {inst : Nat} {time : BitVec 128} {l : Nat} (hd0 : P d) :
    P (Dev.laneOpen d u inst time l) := by
  unfold Dev.laneOpen
  try dsimp only
  repeat' with_reducible first
    | assumption
    | (intro _; intros; try dsimp only)
    | refine ite_ind ?_ ?_
    | refine ite_fst ?_ ?_
    | refine ite_snd ?_ ?_
    | refine Dev.originCancel_ind (hP.mono (by decide) (by decide)) ?_
    | refine Dev.post_ind (hP.mono (by decide) (by decide)) ?_
    | refine Dev.put_ind hP (by decide) ?_
    | refine Dev.bump_ind hP (by decide) ?_
    | refine Dev.raise_ind (hP.mono (by decide) (by decide)) ?_
    | refine Dev.updSkein_ind (hP.mono (by decide) (by decide)) ?_
    | refine Dev.updLane_ind (hP.mono (by decide) (by decide)) ?_
    | refine Dev.heldSync_ind (hP.mono (by decide) (by decide)) ?_
    | split

theorem Dev.laneWrite_ind {P : Dev → Prop} (hP : Closed P 0x18011400 0x0) {d : Dev} {l : Nat} {g : Granule} (hd0 : P d) :
    P (Dev.laneWrite d l g) := by
  unfold Dev.laneWrite
  try dsimp only
  repeat' with_reducible first
    | assumption
    | (intro _; intros; try dsimp only)
    | refine ite_ind ?_ ?_
    | refine Dev.storeWrite_ind (hP.mono (by decide) (by decide)) ?_
    | refine Dev.updLane_ind (hP.mono (by decide) (by decide)) ?_
    | refine Dev.heldSync_ind (hP.mono (by decide) (by decide)) ?_
    | split

theorem Dev.unitSegEnd_ind {P : Dev → Prop} (hP : Closed P 0x200 0x0) {d : Dev} {u : Nat} {l : Nat} {k : Nat} (hd0 : P d) :
    P (Dev.unitSegEnd d u l k) := by
  unfold Dev.unitSegEnd
  try dsimp only
  repeat' with_reducible first
    | assumption
    | (intro _; intros; try dsimp only)
    | refine ite_ind ?_ ?_
    | refine hP.trg (by decide) _ _ ?_
    | split

theorem Dev.laneEndSeg_ind {P : Dev → Prop} (hP : Closed P 0x40600 0x80000000000000000000000000000) {d : Dev} {l : Nat} {how : Nat} (hd0 : P d) :
    P (Dev.laneEndSeg d l how) := by
  unfold Dev.laneEndSeg
  try dsimp only
  repeat' with_reducible first
    | assumption
    | (intro _; intros; try dsimp only)
    | refine ite_ind ?_ ?_
    | refine ite_fst ?_ ?_
    | refine ite_snd ?_ ?_
    | refine Dev.post_ind (hP.mono (by decide) (by decide)) ?_
    | refine Dev.heldSync_ind (hP.mono (by decide) (by decide)) ?_
    | refine Dev.updSkein_ind (hP.mono (by decide) (by decide)) ?_
    | refine Dev.updLane_ind (hP.mono (by decide) (by decide)) ?_
    | refine Dev.unitSegEnd_ind (hP.mono (by decide) (by decide)) ?_
    | refine Dev.skeinOldest_ind (hP.mono (by decide) (by decide)) ?_
    | split

theorem Dev.maskStopDone_ind {P : Dev → Prop} (hP : Closed P 0x4400 0x0) {d : Dev} {l : Nat} (hd0 : P d) :
    P (Dev.maskStopDone d l) := by
  unfold Dev.maskStopDone
  try dsimp only
  repeat' with_reducible first
    | assumption
    | refine ite_ind ?_ ?_
    | refine Dev.laneCloseAll_ind (hP.mono (by decide) (by decide)) ?_

theorem Dev.laneRested_ind {P : Dev → Prop} (hP : Closed P 0x400 0x0) {d : Dev} {l : Nat} (hd0 : P d) :
    P (Dev.laneRested d l) := by
  unfold Dev.laneRested
  try dsimp only
  repeat' with_reducible first
    | assumption
    | (intro _; intros; try dsimp only)
    | refine ite_ind ?_ ?_
    | refine Dev.updLane_ind (hP.mono (by decide) (by decide)) ?_
    | split

theorem Dev.laneComplete_ind {P : Dev → Prop} (hP : Closed P 0x44600 0x80000000000000000000000000000) {d : Dev} {l : Nat} (hd0 : P d) :
    P (Dev.laneComplete d l) := by
  unfold Dev.laneComplete
  try dsimp only
  repeat' with_reducible first
    | assumption
    | (intro _; intros; try dsimp only)
    | refine ite_ind ?_ ?_
    | refine Dev.laneEndSeg_ind (hP.mono (by decide) (by decide)) ?_
    | refine Dev.updLane_ind (hP.mono (by decide) (by decide)) ?_
    | refine Dev.maskStopDone_ind (hP.mono (by decide) (by decide)) ?_
    | refine Dev.laneRested_ind (hP.mono (by decide) (by decide)) ?_
    | split

theorem Dev.segmentEndEff_ind {P : Dev → Prop} (hP : Closed P 0x44600 0x80000000000000000000000000000) {l : Nat} {d : Dev} (hd0 : P d) :
    P (Dev.segmentEndEff l d) := by
  unfold Dev.segmentEndEff
  try dsimp only
  repeat' with_reducible first
    | assumption
    | refine Dev.laneComplete_ind (hP.mono (by decide) (by decide)) ?_

theorem Dev.poolDrain_ind {P : Dev → Prop} (hP : Closed P 0x18011400 0x0) {d : Dev} {l n : Nat} (h : P d) :
    P (d.poolDrain l n) := by
  induction n generalizing d with
  | zero => exact h
  | succ n ih =>
    unfold Dev.poolDrain
    dsimp only
    split
    · refine ite_ind h (ih ?_)
      exact Dev.laneWrite_ind (hP.mono (by decide) (by decide)) (Dev.updLane_ind (hP.mono (by decide) (by decide)) h)
    · exact h

theorem Dev.cutFinish_ind {P : Dev → Prop} (hP : Closed P 0x44600 0x80000000000000000000000000000) {d : Dev} {l : Nat} (hd0 : P d) :
    P (Dev.cutFinish d l) := by
  unfold Dev.cutFinish
  try dsimp only
  repeat' with_reducible first
    | assumption
    | refine foldl_ind ?_ ?_
    | (intro _; intros; try dsimp only)
    | refine ite_ind ?_ ?_
    | refine Dev.laneEndSeg_ind (hP.mono (by decide) (by decide)) ?_
    | refine Dev.laneClose_ind (hP.mono (by decide) (by decide)) ?_
    | refine Dev.maskStopDone_ind (hP.mono (by decide) (by decide)) ?_
    | refine Dev.laneRested_ind (hP.mono (by decide) (by decide)) ?_
    | split

theorem Dev.poolFlow_ind {P : Dev → Prop} (hP : Closed P 0x180d5600 0x80000000000000000000000000000000000000000000000000000000000a0400800000000000000000000000) {d : Dev} {l n : Nat} (h : P d) :
    P (d.poolFlow l n) := by
  induction n generalizing d with
  | zero => exact h
  | succ n ih =>
    unfold Dev.poolFlow
    have h' := Dev.laneRested_ind (hP.mono (by decide) (by decide)) (l := l) (Dev.cutFinish_ind (hP.mono (by decide) (by decide)) (l := l)
      (Dev.laneComplete_ind (hP.mono (by decide) (by decide)) (l := l) (Dev.poolDrain_ind (hP.mono (by decide) (by decide))
        (l := l) (n := (d.lanes.lane.get l).pool.length) h)))
    exact ite_ind h' (ih (Dev.laneActivate_ind (hP.mono (by decide) (by decide)) h'))

theorem Dev.laneTurn_ind {P : Dev → Prop} (hP : Closed P 0x180d5600 0x80000000000000000000000000000000000000000000000000000000000a0400800000000000000000000000) {d : Dev} {l : Nat} (hd0 : P d) :
    P (Dev.laneTurn d l) := by
  unfold Dev.laneTurn
  try dsimp only
  repeat' with_reducible first
    | assumption
    | refine ite_ind ?_ ?_
    | refine Dev.laneComplete_ind (hP.mono (by decide) (by decide)) ?_
    | refine Dev.cutFinish_ind (hP.mono (by decide) (by decide)) ?_
    | refine Dev.poolFlow_ind (hP.mono (by decide) (by decide)) ?_
    | refine Dev.laneActivate_ind (hP.mono (by decide) (by decide)) ?_
    | split

theorem Dev.laneTail_ind {P : Dev → Prop} (hP : Closed P 0x400 0x0) {d : Dev} {l : Nat} {b : Nat} (hd0 : P d) :
    P (Dev.laneTail d l b) := by
  unfold Dev.laneTail
  try dsimp only
  repeat' with_reducible first
    | assumption
    | refine foldl_ind ?_ ?_
    | (intro _; intros; try dsimp only)
    | refine ite_ind ?_ ?_
    | refine Dev.updLane_ind (hP.mono (by decide) (by decide)) ?_
    | split

theorem Dev.laneCut_ind {P : Dev → Prop} (hP : Closed P 0x18055600 0x80000000000000000000000000000) {d : Dev} {l : Nat} {how : Nat} {outcome : Nat} {reqs : List Req} (hd0 : P d) :
    P (Dev.laneCut d l how outcome reqs) := by
  unfold Dev.laneCut
  try dsimp only
  repeat' with_reducible first
    | assumption
    | (intro _; intros; try dsimp only)
    | refine ite_ind ?_ ?_
    | refine Dev.poolDrain_ind (hP.mono (by decide) (by decide)) ?_
    | refine Dev.laneComplete_ind (hP.mono (by decide) (by decide)) ?_
    | refine Dev.updLane_ind (hP.mono (by decide) (by decide)) ?_
    | refine Dev.cutFinish_ind (hP.mono (by decide) (by decide)) ?_
    | split

theorem Dev.laneStop_ind {P : Dev → Prop} (hP : Closed P 0x18055600 0x80000000000000000000000000000) {d : Dev} {l : Nat} {outcome : Nat} {cut : Bool} {b : Option Nat} (hd0 : P d) :
    P (Dev.laneStop d l outcome cut b) := by
  unfold Dev.laneStop
  try dsimp only
  repeat' with_reducible first
    | assumption
    | (intro _; intros; try dsimp only)
    | refine ite_ind ?_ ?_
    | refine Dev.laneTail_ind (hP.mono (by decide) (by decide)) ?_
    | refine Dev.poolDrain_ind (hP.mono (by decide) (by decide)) ?_
    | refine Dev.updLane_ind (hP.mono (by decide) (by decide)) ?_
    | refine Dev.laneComplete_ind (hP.mono (by decide) (by decide)) ?_
    | refine Dev.cutFinish_ind (hP.mono (by decide) (by decide)) ?_
    | refine Dev.laneCut_ind (hP.mono (by decide) (by decide)) ?_
    | refine Dev.post_ind (hP.mono (by decide) (by decide)) ?_
    | refine Dev.laneCloseAll_ind (hP.mono (by decide) (by decide)) ?_
    | split

theorem Dev.laneMaskStop_ind {P : Dev → Prop} (hP : Closed P 0x4400 0x0) {d : Dev} {l : Nat} (hd0 : P d) :
    P (Dev.laneMaskStop d l) := by
  unfold Dev.laneMaskStop
  try dsimp only
  repeat' with_reducible first
    | assumption
    | (intro _; intros; try dsimp only)
    | refine Dev.updLane_ind (hP.mono (by decide) (by decide)) ?_
    | refine Dev.maskStopDone_ind (hP.mono (by decide) (by decide)) ?_
    | split

theorem Dev.laneEnableEff_ind {P : Dev → Prop} (hP : Closed P 0x400 0xc00000000000000000000000) {l : Nat} {v : W32} {d : Dev} (hd0 : P d) :
    P (Dev.laneEnableEff l v d) := by
  unfold Dev.laneEnableEff
  try dsimp only
  repeat' with_reducible first
    | assumption
    | (intro _; intros; try dsimp only)
    | refine ite_ind ?_ ?_
    | refine hP.wrAt (by decide) ?_
    | refine Dev.putb_ind hP (by decide) ?_
    | refine Dev.put_ind hP (by decide) ?_
    | refine Dev.updLane_ind (hP.mono (by decide) (by decide)) ?_
    | split

theorem Dev.dropShow_ind {P : Dev → Prop} (hP : Closed P 0x0 0x8000000000000000000000000000000000000000000000000000000) {d : Dev} (hd0 : P d) :
    P (Dev.dropShow d) := by
  unfold Dev.dropShow
  try dsimp only
  repeat' with_reducible first
    | assumption
    | (intro _; intros; try dsimp only)
    | refine Dev.putb_ind hP (by decide) ?_
    | split

theorem Dev.laneOff_ind {P : Dev → Prop} (hP : Closed P 0x400 0x8000000000000000000000000000000400000000000000000000000) {d : Dev} {l : Nat} (hd0 : P d) :
    P (Dev.laneOff d l) := by
  unfold Dev.laneOff
  try dsimp only
  repeat' with_reducible first
    | assumption
    | (intro _; intros; try dsimp only)
    | refine ite_ind ?_ ?_
    | refine Dev.putb_ind hP (by decide) ?_
    | refine Dev.updLane_ind (hP.mono (by decide) (by decide)) ?_
    | refine Dev.dropShow_ind (hP.mono (by decide) (by decide)) ?_
    | split

theorem Dev.laneSourceChange_ind {P : Dev → Prop} (hP : Closed P 0x18055600 0x8000000000000000000000000080000c00000000000000000000000) {d : Dev} {l : Nat} {c : Nat} (hd0 : P d) :
    P (Dev.laneSourceChange d l c) := by
  unfold Dev.laneSourceChange
  try dsimp only
  repeat' with_reducible first
    | assumption
    | refine ite_ind ?_ ?_
    | refine Dev.laneStop_ind (hP.mono (by decide) (by decide)) ?_
    | refine Dev.laneOff_ind (hP.mono (by decide) (by decide)) ?_
    | refine Dev.put_ind hP (by decide) ?_

theorem Dev.laneRequest_ind {P : Dev → Prop} (hP : Closed P 0x80400 0x8000000000000000000000000000000000000000000000000000000000000080000000000000000000000000) {d : Dev} {l : Nat} {issuer : Nat} {tu : Nat} {pre : Nat} {post : Nat} {rep : Nat} {tag : Nat} (hd0 : P d) :
    P (Dev.laneRequest d l issuer tu pre post rep tag) := by
  unfold Dev.laneRequest
  try dsimp only
  repeat' with_reducible first
    | assumption
    | (intro _; intros; try dsimp only)
    | refine ite_ind ?_ ?_
    | refine Dev.updLane_ind (hP.mono (by decide) (by decide)) ?_
    | refine Dev.count_ind hP (by decide) (by decide) ?_
    | refine Dev.raise_ind (hP.mono (by decide) (by decide)) ?_
    | split

theorem Dev.segmentRequestEff_ind {P : Dev → Prop} (hP : Closed P 0x80400 0x80000000000000000000000000000000000000000000000000000000000000e0000000000000000000000000) {rq : Rq} {l : Nat} {v : W32} {d : Dev} (hd0 : P d) :
    P (Dev.segmentRequestEff rq l v d) := by
  unfold Dev.segmentRequestEff
  try dsimp only
  repeat' with_reducible first
    | assumption
    | refine hP.wrAt (by decide) ?_
    | refine Dev.laneRequest_ind (hP.mono (by decide) (by decide)) ?_
    | refine Dev.put_ind hP (by decide) ?_

theorem Dev.granuleDrop_ind {P : Dev → Prop} (hP : Closed P 0x400 0x8000000000000000000000000000000300000000000000000000000000000200000000000000000000000000) {d : Dev} {l : Nat} {g : Granule} (hd0 : P d) :
    P (Dev.granuleDrop d l g) := by
  unfold Dev.granuleDrop
  try dsimp only
  repeat' with_reducible first
    | assumption
    | (intro _; intros; try dsimp only)
    | refine ite_ind ?_ ?_
    | refine Dev.put_ind hP (by decide) ?_
    | refine Dev.count_ind hP (by decide) (by decide) ?_
    | refine Dev.updLane_ind (hP.mono (by decide) (by decide)) ?_
    | split

theorem Dev.dropCut_ind {P : Dev → Prop} (hP : Closed P 0x44600 0x80000000000000000000000000000) {d : Dev} {l : Nat} (hd0 : P d) :
    P (Dev.dropCut d l) := by
  unfold Dev.dropCut
  try dsimp only
  repeat' with_reducible first
    | assumption
    | (intro _; intros; try dsimp only)
    | refine ite_ind ?_ ?_
    | refine Dev.laneEndSeg_ind (hP.mono (by decide) (by decide)) ?_
    | refine Dev.updLane_ind (hP.mono (by decide) (by decide)) ?_
    | refine Dev.maskStopDone_ind (hP.mono (by decide) (by decide)) ?_
    | split

theorem Dev.poolTake_ind {P : Dev → Prop} (hP : Closed P 0xc4600 0x8000000000000000000000000000000308000000000000000000000000080200000000000000000000000000) {d : Dev} {l : Nat} {g : Granule} (hd0 : P d) :
    P (Dev.poolTake d l g) := by
  unfold Dev.poolTake
  try dsimp only
  repeat' with_reducible first
    | assumption
    | (intro _; intros; try dsimp only)
    | refine ite_ind ?_ ?_
    | refine Dev.granuleDrop_ind (hP.mono (by decide) (by decide)) ?_
    | refine Dev.putb_ind hP (by decide) ?_
    | refine Dev.raise_ind (hP.mono (by decide) (by decide)) ?_
    | refine Dev.dropCut_ind (hP.mono (by decide) (by decide)) ?_
    | refine Dev.updLane_ind (hP.mono (by decide) (by decide)) ?_
    | split

theorem Dev.laneGranule_ind {P : Dev → Prop} (hP : Closed P 0x180d5600 0x80000000000000000000000000000003080000000000000000000000000a0600800000000000000000000000) {d : Dev} {l : Nat} {g : Granule} (hd0 : P d) :
    P (Dev.laneGranule d l g) := by
  unfold Dev.laneGranule
  try dsimp only
  repeat' with_reducible first
    | assumption
    | (intro _; intros; try dsimp only)
    | refine ite_ind ?_ ?_
    | refine Dev.updLane_ind (hP.mono (by decide) (by decide)) ?_
    | refine Dev.laneTurn_ind (hP.mono (by decide) (by decide)) ?_
    | refine Dev.granuleDrop_ind (hP.mono (by decide) (by decide)) ?_
    | refine Dev.poolTake_ind (hP.mono (by decide) (by decide)) ?_
    | refine Dev.laneWrite_ind (hP.mono (by decide) (by decide)) ?_
    | split

theorem Dev.dropRunEndEff_ind {P : Dev → Prop} (hP : Closed P 0x180d5600 0x80000000000000000000000000000000080000000000000000000000000a0400800000000000000000000000) {l : Nat} {d : Dev} (hd0 : P d) :
    P (Dev.dropRunEndEff l d) := by
  unfold Dev.dropRunEndEff
  try dsimp only
  repeat' with_reducible first
    | assumption
    | (intro _; intros; try dsimp only)
    | refine ite_ind ?_ ?_
    | refine Dev.poolFlow_ind (hP.mono (by decide) (by decide)) ?_
    | refine Dev.dropCut_ind (hP.mono (by decide) (by decide)) ?_
    | refine Dev.updLane_ind (hP.mono (by decide) (by decide)) ?_
    | refine Dev.dropShow_ind (hP.mono (by decide) (by decide)) ?_
    | split

theorem Dev.laneLoss_ind {P : Dev → Prop} (hP : Closed P 0x18055600 0x80000000000000000000000000000) {d : Dev} {l : Nat} {k : Nat} (hd0 : P d) :
    P (Dev.laneLoss d l k) := by
  unfold Dev.laneLoss
  try dsimp only
  repeat' with_reducible first
    | assumption
    | (intro _; intros; try dsimp only)
    | refine ite_ind ?_ ?_
    | refine Dev.updLane_ind (hP.mono (by decide) (by decide)) ?_
    | refine Dev.laneTail_ind (hP.mono (by decide) (by decide)) ?_
    | refine Dev.laneCut_ind (hP.mono (by decide) (by decide)) ?_
    | refine Dev.maskStopDone_ind (hP.mono (by decide) (by decide)) ?_
    | split

theorem Dev.laneFrame_ind {P : Dev → Prop} (hP : Closed P 0x180d5600 0x80000000000000000000000000000003080000000000000000000000000a0600800000000000000000000000) {d : Dev} {k : Nat} {l : Nat} (hd0 : P d) :
    P (Dev.laneFrame d k l) := by
  unfold Dev.laneFrame
  try dsimp only
  repeat' with_reducible first
    | assumption
    | (intro _; intros; try dsimp only)
    | refine ite_ind ?_ ?_
    | refine Dev.laneGranule_ind (hP.mono (by decide) (by decide)) ?_
    | refine Dev.laneLoss_ind (hP.mono (by decide) (by decide)) ?_
    | split

theorem Dev.segmentRecordEff_ind {P : Dev → Prop} (hP : Closed P 0x84400 0x8000000000000000000000000000000000000000000000000000000000001100000000000000000000000000) {l : Nat} {d : Dev} (hd0 : P d) :
    P (Dev.segmentRecordEff l d) := by
  unfold Dev.segmentRecordEff
  try dsimp only
  repeat' with_reducible first
    | assumption
    | (intro _; intros; try dsimp only)
    | refine ite_ind ?_ ?_
    | refine Dev.updLane_ind (hP.mono (by decide) (by decide)) ?_
    | refine Dev.updSkein_ind (hP.mono (by decide) (by decide)) ?_
    | refine Dev.bump_ind hP (by decide) ?_
    | refine Dev.count_ind hP (by decide) (by decide) ?_
    | refine Dev.raise_ind (hP.mono (by decide) (by decide)) ?_
    | refine Dev.recPlace_ind (hP.mono (by decide) (by decide)) ?_
    | refine Dev.closesOut_ind (hP.mono (by decide) (by decide)) ?_
    | split

theorem Dev.recordDrainEff_ind {P : Dev → Prop} (hP : Closed P 0xc0409 0x0) {d : Dev} (hd0 : P d) :
    P (Dev.recordDrainEff d) := by
  unfold Dev.recordDrainEff
  try dsimp only
  repeat' with_reducible first
    | assumption
    | refine Dev.advanceTo_ind (hP.mono (by decide) (by decide)) ?_
    | refine hP.lanes (by decide) _ _ ?_
    | refine Dev.post_ind (hP.mono (by decide) (by decide)) ?_
    | split

theorem Dev.closeEntryFreedEff_ind {P : Dev → Prop} (hP : Closed P 0x4400 0x0) {l : Nat} {d : Dev} (hd0 : P d) :
    P (Dev.closeEntryFreedEff l d) := by
  unfold Dev.closeEntryFreedEff
  try dsimp only
  repeat' with_reducible first
    | assumption
    | (intro _; intros; try dsimp only)
    | refine ite_ind ?_ ?_
    | refine Dev.updLane_ind (hP.mono (by decide) (by decide)) ?_
    | refine Dev.closesOut_ind (hP.mono (by decide) (by decide)) ?_
    | split

theorem Dev.skeinDefineEff_ind {P : Dev → Prop} (hP : Closed P 0x8090400 0xc0000000000000000000000000000000000000002d0000000000000000000000000000000b0000000000000000000000000000) {k : Nat} {d : Dev} (hd0 : P d) :
    P (Dev.skeinDefineEff k d) := by
  unfold Dev.skeinDefineEff
  try dsimp only
  repeat' with_reducible first
    | assumption
    | (intro _; intros; try dsimp only)
    | refine ite_ind ?_ ?_
    | refine Dev.put_ind hP (by decide) ?_
    | refine Dev.putb_ind hP (by decide) ?_
    | refine Dev.updSkein_ind (hP.mono (by decide) (by decide)) ?_
    | refine Dev.retireRecheck_ind (hP.mono (by decide) (by decide)) ?_
    | split

theorem Dev.skeinRewindEff_ind {P : Dev → Prop} (hP : Closed P 0x400 0xb0000800000000000000000000000) {k : Nat} {d : Dev} (hd0 : P d) :
    P (Dev.skeinRewindEff k d) := by
  unfold Dev.skeinRewindEff
  try dsimp only
  repeat' with_reducible first
    | assumption
    | (intro _; intros; try dsimp only)
    | refine ite_ind ?_ ?_
    | refine Dev.put_ind hP (by decide) ?_
    | refine Dev.updSkein_ind (hP.mono (by decide) (by decide)) ?_
    | refine Dev.skeinOldest_ind (hP.mono (by decide) (by decide)) ?_
    | refine Dev.putb_ind hP (by decide) ?_
    | split

end Sys2Proof.Machine
end

