-- ==== Sys2Proof/Laws/IndHoist.lean ====
section
/-!
SUPPORT. What the operations of Machine/Hoist.lean can change: each keeps every property that is closed under changes of its
parts and writes of its register families.
-/
namespace Sys2Proof.Machine

theorem Dev.updTgt_ind {P : Dev → Prop} (hP : Closed P 0x10000 0x0) {d : Dev} {t : Nat} {f : Target → Target} (hd0 : P d) :
    P (Dev.updTgt d t f) := by
  unfold Dev.updTgt
  try dsimp only
  repeat' with_reducible first
    | assumption
    | refine hP.ben (by decide) _ _ (Bench.keeps_of (by first | exact Memory.keeps_refl _ | exact Memory.keeps_store (by decide) _ _ _ | exact Memory.keeps_nil (by decide) _ | exact Memory.keeps_filter (by decide) _ _)
        (by first | exact Memory.keeps_refl _ | exact Memory.keeps_store (by decide) _ _ _ | exact Memory.keeps_filter (by decide) _ _)) ?_

theorem Dev.dupShow_ind {P : Dev → Prop} (hP : Closed P 0x0 0x800000000000000000000000000000000000000000000000000000000000000000000000) {d : Dev} (hd0 : P d) :
    P (Dev.dupShow d) := by
  unfold Dev.dupShow
  try dsimp only
  repeat' with_reducible first
    | assumption
    | refine foldl_ind ?_ ?_
    | (intro _; intros; try dsimp only)
    | refine Dev.putb_ind hP (by decide) ?_
    | split

theorem Dev.flowUpdate_ind {P : Dev → Prop} (hP : Closed P 0x90000 0x8000000000000000000000000000000000000000000000000000000) {d : Dev} (hd0 : P d) :
    P (Dev.flowUpdate d) := by
  unfold Dev.flowUpdate
  try dsimp only
  repeat' with_reducible first
    | assumption
    | refine ite_ind ?_ ?_
    | refine Dev.raise_ind (hP.mono (by decide) (by decide)) ?_
    | refine Dev.putb_ind hP (by decide) ?_
    | refine hP.ben (by decide) _ _ (Bench.keeps_of (by first | exact Memory.keeps_refl _ | exact Memory.keeps_store (by decide) _ _ _ | exact Memory.keeps_nil (by decide) _ | exact Memory.keeps_filter (by decide) _ _)
        (by first | exact Memory.keeps_refl _ | exact Memory.keeps_store (by decide) _ _ _ | exact Memory.keeps_filter (by decide) _ _)) ?_

theorem Dev.windowAbandon_ind {P : Dev → Prop} (hP : Closed P 0x200000 0x8000000000001000000000000000000000000000000000000000000000000000000000000000000000000000) {d : Dev} {p : Nat} {mine : Nat → Bool} (hd0 : P d) :
    P (Dev.windowAbandon d p mine) := by
  unfold Dev.windowAbandon
  try dsimp only
  repeat' with_reducible first
    | assumption
    | (intro _; intros; try dsimp only)
    | refine ite_fst ?_ ?_
    | refine ite_snd ?_ ?_
    | refine hP.eth (by decide) _ _ ?_
    | refine Dev.count_ind hP (by decide) (by decide) ?_
    | split

theorem Dev.hoistTargetEnableEff_ind {P : Dev → Prop} (hP : Closed P 0x8290000 0xc0000000000000800000000000100080000000002d0a6000000000000000000000000000000000000000000000000000000000) {t : Nat} {v : W32} {d : Dev} (hd0 : P d) :
    P (Dev.hoistTargetEnableEff t v d) := by
  unfold Dev.hoistTargetEnableEff
  try dsimp only
  repeat' with_reducible first
    | assumption
    | (intro _; intros; try dsimp only)
    | refine ite_ind ?_ ?_
    | refine Dev.put_ind hP (by decide) ?_
    | refine Dev.windowAbandon_ind (hP.mono (by decide) (by decide)) ?_
    | refine Dev.putb_ind hP (by decide) ?_
    | refine Dev.dupShow_ind (hP.mono (by decide) (by decide)) ?_
    | refine Dev.retireRecheck_ind (hP.mono (by decide) (by decide)) ?_
    | refine hP.wrAt (by decide) ?_
    | refine Dev.updTgt_ind (hP.mono (by decide) (by decide)) ?_
    | split

theorem Dev.replayGoEff_ind {P : Dev → Prop} (hP : Closed P 0x10000 0x20000000000000000000000000000000000000000000000000000000000) {t : Nat} {d : Dev} (hd0 : P d) :
    P (Dev.replayGoEff t d) := by
  unfold Dev.replayGoEff
  try dsimp only
  repeat' with_reducible first
    | assumption
    | (intro _; intros; try dsimp only)
    | refine ite_ind ?_ ?_
    | refine Dev.put_ind hP (by decide) ?_
    | refine Dev.updTgt_ind (hP.mono (by decide) (by decide)) ?_
    | split

theorem Dev.updHeld_ind {P : Dev → Prop} (hP : Closed P 0x400 0x0) {d : Dev} {k : Nat} {num : Nat} {f : Held → Held} (hd0 : P d) :
    P (Dev.updHeld d k num f) := by
  unfold Dev.updHeld
  try dsimp only
  repeat' with_reducible first
    | assumption
    | (intro _; intros; try dsimp only)
    | refine ite_ind ?_ ?_
    | refine Dev.updSkein_ind (hP.mono (by decide) (by decide)) ?_
    | split

theorem Dev.hoistDelivered_ind {P : Dev → Prop} (hP : Closed P 0x10400 0x80000000000000000000000000000) {d : Dev} {k : Nat} {t : Nat} {outcome : Nat} {h : Held} (hd0 : P d) :
    P (Dev.hoistDelivered d k t outcome h) := by
  unfold Dev.hoistDelivered
  try dsimp only
  repeat' with_reducible first
    | assumption
    | (intro _; intros; try dsimp only)
    | refine Dev.updSkein_ind (hP.mono (by decide) (by decide)) ?_
    | refine Dev.updTgt_ind (hP.mono (by decide) (by decide)) ?_
    | refine Dev.skeinOldest_ind (hP.mono (by decide) (by decide)) ?_
    | split

theorem Dev.tgtOldest_ind {P : Dev → Prop} (hP : Closed P 0x0 0x80000000000000000000000000000000000000000000000000000000000) {d : Dev} {t : Nat} (hd0 : P d) :
    P (Dev.tgtOldest d t) := by
  unfold Dev.tgtOldest
  try dsimp only
  repeat' with_reducible first
    | assumption
    | refine Dev.put_ind hP (by decide) ?_
    | refine Dev.putb_ind hP (by decide) ?_
    | refine hP.wrAt (by decide) ?_
    | split

theorem Dev.pieceQuarry_ind {P : Dev → Prop} (hP : Closed P 0x18091400 0x80000000000000000000000000002a4000000000000000000000000000080000000000000000000000000000) {d : Dev} {k : Nat} {t : Nat} {s : Skein} {h : Held} {total : Nat} {n : Nat} (hd0 : P d) :
    P (Dev.pieceQuarry d k t s h total n) := by
  unfold Dev.pieceQuarry
  try dsimp only
  repeat' with_reducible first
    | assumption
    | (intro _; intros; try dsimp only)
    | refine ite_ind ?_ ?_
    | refine ite_fst ?_ ?_
    | refine ite_snd ?_ ?_
    | refine Dev.updTgt_ind (hP.mono (by decide) (by decide)) ?_
    | refine Dev.putb_ind hP (by decide) ?_
    | refine Dev.raise_ind (hP.mono (by decide) (by decide)) ?_
    | refine Dev.storeWrite_ind (hP.mono (by decide) (by decide)) ?_
    | refine Dev.count_ind hP (by decide) (by decide) ?_
    | refine Dev.put_ind hP (by decide) ?_
    | refine Dev.updHeld_ind (hP.mono (by decide) (by decide)) ?_
    | refine Dev.tgtOldest_ind (hP.mono (by decide) (by decide)) ?_
    | refine Dev.hoistDelivered_ind (hP.mono (by decide) (by decide)) ?_
    | split

theorem Dev.pieceStream_ind {P : Dev → Prop} (hP : Closed P 0x10400 0x0) {d : Dev} {k : Nat} {t : Nat} {s : Skein} {h : Held} {n : Nat} (hd0 : P d) :
    P (Dev.pieceStream d k t s h n) := by
  unfold Dev.pieceStream
  try dsimp only
  repeat' with_reducible first
    | assumption
    | (intro _; intros; try dsimp only)
    | refine ite_fst ?_ ?_
    | refine ite_snd ?_ ?_
    | refine Dev.updTgt_ind (hP.mono (by decide) (by decide)) ?_
    | refine Dev.updHeld_ind (hP.mono (by decide) (by decide)) ?_
    | split

theorem Dev.hoistPieceEff_ind {P : Dev → Prop} (hP : Closed P 0x18091400 0x80000000000000000000000000002a4008000000000000000000000000080000000000000000000000000000) {d : Dev} (hd0 : P d) :
    P (Dev.hoistPieceEff d) := by
  unfold Dev.hoistPieceEff
  try dsimp only
  repeat' with_reducible first
    | assumption
    | refine hP.ben (by decide) _ _ (Bench.keeps_of (by first | exact Memory.keeps_refl _ | exact Memory.keeps_store (by decide) _ _ _ | exact Memory.keeps_nil (by decide) _ | exact Memory.keeps_filter (by decide) _ _)
        (by first | exact Memory.keeps_refl _ | exact Memory.keeps_store (by decide) _ _ _ | exact Memory.keeps_filter (by decide) _ _)) ?_
    | refine Dev.pieceQuarry_ind (hP.mono (by decide) (by decide)) ?_
    | refine Dev.pieceStream_ind (hP.mono (by decide) (by decide)) ?_
    | refine Dev.flowUpdate_ind (hP.mono (by decide) (by decide)) ?_
    | split

theorem Dev.hoistReleaseWriteEff_ind {P : Dev → Prop} (hP : Closed P 0x10000 0x44000000000000000000000000000000000000000000000000000000000) {t : Nat} {rel : Nat} {d : Dev} (hd0 : P d) :
    P (Dev.hoistReleaseWriteEff t rel d) := by
  unfold Dev.hoistReleaseWriteEff
  try dsimp only
  repeat' with_reducible first
    | assumption
    | (intro _; intros; try dsimp only)
    | refine ite_ind ?_ ?_
    | refine Dev.put_ind hP (by decide) ?_
    | refine Dev.updTgt_ind (hP.mono (by decide) (by decide)) ?_
    | refine Dev.putb_ind hP (by decide) ?_
    | split

theorem Dev.hoistEntryEff_ind {P : Dev → Prop} (hP : Closed P 0xd0000 0x100000000000000000000000000000000000000000000000000000000000) {t : Nat} {d : Dev} (hd0 : P d) :
    P (Dev.hoistEntryEff t d) := by
  unfold Dev.hoistEntryEff
  try dsimp only
  repeat' with_reducible first
    | assumption
    | (intro _; intros; try dsimp only)
    | refine ite_ind ?_ ?_
    | refine Dev.updTgt_ind (hP.mono (by decide) (by decide)) ?_
    | refine Dev.bump_ind hP (by decide) ?_
    | refine Dev.post_ind (hP.mono (by decide) (by decide)) ?_
    | refine Dev.raise_ind (hP.mono (by decide) (by decide)) ?_
    | split

theorem Dev.replayDoneEff_ind {P : Dev → Prop} (hP : Closed P 0xd0000 0x120000000000000000000000000000000000000000000000000000000000) {t : Nat} {d : Dev} (hd0 : P d) :
    P (Dev.replayDoneEff t d) := by
  unfold Dev.replayDoneEff
  try dsimp only
  repeat' with_reducible first
    | assumption
    | (intro _; intros; try dsimp only)
    | refine ite_ind ?_ ?_
    | refine Dev.updTgt_ind (hP.mono (by decide) (by decide)) ?_
    | refine Dev.put_ind hP (by decide) ?_
    | refine Dev.raise_ind (hP.mono (by decide) (by decide)) ?_
    | refine Dev.hoistEntryEff_ind (hP.mono (by decide) (by decide)) ?_
    | split

theorem Dev.hoistAbort_ind {P : Dev → Prop} (hP : Closed P 0xd0400 0x100000000000000000000000000000080000000000000000000000000000) {d : Dev} (hd0 : P d) :
    P (Dev.hoistAbort d) := by
  unfold Dev.hoistAbort
  try dsimp only
  repeat' with_reducible first
    | assumption
    | refine foldl_ind ?_ ?_
    | (intro _; intros; try dsimp only)
    | refine ite_ind ?_ ?_
    | refine Dev.hoistDelivered_ind (hP.mono (by decide) (by decide)) ?_
    | refine Dev.hoistEntryEff_ind (hP.mono (by decide) (by decide)) ?_
    | split

end Sys2Proof.Machine
end

