-- ==== Sys2Proof/Laws/IndTrigger.lean ====
section
/-!
SUPPORT. What the operations of Machine/Trigger.lean can change: each keeps every property that is closed under changes of its
parts and writes of its register families.
-/
namespace Sys2Proof.Machine

theorem Dev.updUnit_ind {P : Dev → Prop} (hP : Closed P 0x200 0x0) {d : Dev} {u : Nat} {f : TrigUnit → TrigUnit} (hd0 : P d) :
    P (Dev.updUnit d u f) := by
  unfold Dev.updUnit
  try dsimp only
  repeat' with_reducible first
    | assumption
    | refine hP.trg (by decide) _ _ ?_

theorem Dev.swapBanks_ind {P : Dev → Prop} (hP : Closed P 0x0 0x3fffffff0000000000000000) {u : Nat} {d : Dev} (hd0 : P d) : P (d.swapBanks u) := by
  unfold Dev.swapBanks
  refine foldl_invariant P _ _ hd0 ?_
  intro d x hx hd
  have hg : (0x3fffffff0000000000000000 : Nat).testBit x.1.ctorIdx = true ∧ (0x3fffffff0000000000000000 : Nat).testBit x.2.1.ctorIdx = true := by
    revert x
    decide
  refine foldl_ind hd ?_
  intro d j hd
  exact hP.wr _ _ _ hg.2 (hP.wr _ _ _ hg.1 hd)

theorem Dev.prfRefuse_ind {P : Dev → Prop} (hP : Closed P 0x80000 0x8000000000000000000000000000000000000000000000000000000000000000000000008000800000000000) {d : Dev} {u : Nat} {why : Nat} (hd0 : P d) :
    P (Dev.prfRefuse d u why) := by
  unfold Dev.prfRefuse
  try dsimp only
  repeat' with_reducible first
    | assumption
    | refine Dev.put_ind hP (by decide) ?_
    | refine Dev.count_ind hP (by decide) (by decide) ?_
    | refine Dev.raise_ind (hP.mono (by decide) (by decide)) ?_

theorem Dev.prfCommitEff_ind {P : Dev → Prop} (hP : Closed P 0x80200 0x8000000000000000000000000000000000000000000000000000000000000000000000008000800000000000) {u : Nat} {d : Dev} (hd0 : P d) :
    P (Dev.prfCommitEff u d) := by
  unfold Dev.prfCommitEff
  try dsimp only
  repeat' with_reducible first
    | assumption
    | (intro _; intros; try dsimp only)
    | refine ite_ind ?_ ?_
    | refine Dev.prfRefuse_ind (hP.mono (by decide) (by decide)) ?_
    | refine Dev.updUnit_ind (hP.mono (by decide) (by decide)) ?_
    | refine Dev.putb_ind hP (by decide) ?_
    | split

theorem Dev.prfSwitchEff_ind {P : Dev → Prop} (hP : Closed P 0x80209 0x3fffffff0000800000000000) {u : Nat} {d : Dev} (hd0 : P d) :
    P (Dev.prfSwitchEff u d) := by
  unfold Dev.prfSwitchEff
  try dsimp only
  repeat' with_reducible first
    | assumption
    | (intro _; intros; try dsimp only)
    | refine Dev.advanceTo_ind (hP.mono (by decide) (by decide)) ?_
    | refine Dev.swapBanks_ind (hP.mono (by decide) (by decide)) ?_
    | refine Dev.updUnit_ind (hP.mono (by decide) (by decide)) ?_
    | refine Dev.putb_ind hP (by decide) ?_
    | refine Dev.put_ind hP (by decide) ?_
    | refine Dev.raise_ind (hP.mono (by decide) (by decide)) ?_
    | split

theorem Dev.cmpFrame_ind {P : Dev → Prop} (hP : Closed P 0x200 0x0) {d : Dev} {u : Nat} {m : Nat} {f : Frame} (hd0 : P d) :
    P (Dev.cmpFrame d u m f) := by
  unfold Dev.cmpFrame
  try dsimp only
  repeat' with_reducible first
    | assumption
    | (intro _; intros; try dsimp only)
    | refine ite_ind ?_ ?_
    | refine ite_fst ?_ ?_
    | refine ite_snd ?_ ?_
    | refine Dev.updUnit_ind (hP.mono (by decide) (by decide)) ?_
    | split

theorem Dev.unitFrame_ind {P : Dev → Prop} (hP : Closed P 0x200 0x0) {d : Dev} {c : Nat} {f : Frame} {u : Nat} (hd0 : P d) :
    P (Dev.unitFrame d c f u) := by
  unfold Dev.unitFrame
  try dsimp only
  repeat' with_reducible first
    | assumption
    | refine foldl_ind ?_ ?_
    | (intro _; intros; try dsimp only)
    | refine ite_ind ?_ ?_
    | refine Dev.updUnit_ind (hP.mono (by decide) (by decide)) ?_
    | refine Dev.cmpFrame_ind (hP.mono (by decide) (by decide)) ?_
    | split

theorem Dev.unitLate_ind {P : Dev → Prop} (hP : Closed P 0x80000 0x8000000000000000000000000000000000000000000000000000000000000000000000004000000000000000) {d : Dev} {u : Nat} {s : Nat} (hd0 : P d) :
    P (Dev.unitLate d u s) := by
  unfold Dev.unitLate
  try dsimp only
  repeat' with_reducible first
    | assumption
    | refine ite_ind ?_ ?_
    | refine Dev.count_ind hP (by decide) (by decide) ?_
    | refine Dev.raise_ind (hP.mono (by decide) (by decide)) ?_

theorem Dev.toUnits_ind {P : Dev → Prop} (hP : Closed P 0x200 0x0) {d : Dev} {k : Nat} {c : Change} (hd0 : P d) :
    P (Dev.toUnits d k c) := by
  unfold Dev.toUnits
  try dsimp only
  repeat' with_reducible first
    | assumption
    | refine foldl_ind ?_ ?_
    | (intro _; intros; try dsimp only)
    | refine Dev.updUnit_ind (hP.mono (by decide) (by decide)) ?_
    | split

theorem Dev.msgToUnits_ind {P : Dev → Prop} (hP : Closed P 0x200 0x0) {d : Dev} {m : TrigMsg} (hd0 : P d) :
    P (Dev.msgToUnits d m) := by
  unfold Dev.msgToUnits
  try dsimp only
  repeat' with_reducible first
    | assumption
    | refine foldl_ind ?_ ?_
    | (intro _; intros; try dsimp only)
    | refine Dev.updUnit_ind (hP.mono (by decide) (by decide)) ?_
    | split

theorem Dev.levelSourceChangeEff_ind {P : Dev → Prop} (hP : Closed P 0x80209 0x8000000000000000000000000000000000000000000000000000000000000000000000004000000000000000) {u : Nat} {d : Dev} (hd0 : P d) :
    P (Dev.levelSourceChangeEff u d) := by
  unfold Dev.levelSourceChangeEff
  try dsimp only
  repeat' with_reducible first
    | assumption
    | (intro _; intros; try dsimp only)
    | refine ite_ind ?_ ?_
    | refine Dev.advanceTo_ind (hP.mono (by decide) (by decide)) ?_
    | refine Dev.updUnit_ind (hP.mono (by decide) (by decide)) ?_
    | refine Dev.unitLate_ind (hP.mono (by decide) (by decide)) ?_
    | split

theorem Dev.tcmpSet_ind {P : Dev → Prop} (hP : Closed P 0x80200 0x8000000000000000000000000000000000000000000000000000000000000000000000004010000000000000) {d : Dev} {u : Nat} {t : Nat} (hd0 : P d) :
    P (Dev.tcmpSet d u t) := by
  unfold Dev.tcmpSet
  try dsimp only
  repeat' with_reducible first
    | assumption
    | (intro _; intros; try dsimp only)
    | refine ite_ind ?_ ?_
    | refine Dev.updUnit_ind (hP.mono (by decide) (by decide)) ?_
    | refine Dev.unitLate_ind (hP.mono (by decide) (by decide)) ?_
    | refine Dev.putb_ind hP (by decide) ?_
    | split

theorem Dev.tcmpLoadEff_ind {P : Dev → Prop} (hP : Closed P 0x80200 0x8000000000000000000000000000000000000000000000000000000000000000000000004010000000000000) {u : Nat} {era : Nat} {d : Dev} (hd0 : P d) :
    P (Dev.tcmpLoadEff u era d) := by
  unfold Dev.tcmpLoadEff
  try dsimp only
  repeat' with_reducible first
    | assumption
    | refine Dev.put_ind hP (by decide) ?_
    | refine Dev.putb_ind hP (by decide) ?_
    | refine Dev.tcmpSet_ind (hP.mono (by decide) (by decide)) ?_

theorem Dev.timeCompareEff_ind {P : Dev → Prop} (hP : Closed P 0x80209 0x8000000000000000000000000000000000000000000000000000000000000000000000004010000000000000) {u : Nat} {d : Dev} (hd0 : P d) :
    P (Dev.timeCompareEff u d) := by
  unfold Dev.timeCompareEff
  try dsimp only
  repeat' with_reducible first
    | assumption
    | (intro _; intros; try dsimp only)
    | refine ite_ind ?_ ?_
    | refine Dev.tcmpSet_ind (hP.mono (by decide) (by decide)) ?_
    | refine Dev.advanceTo_ind (hP.mono (by decide) (by decide)) ?_
    | refine Dev.putb_ind hP (by decide) ?_
    | refine Dev.updUnit_ind (hP.mono (by decide) (by decide)) ?_
    | split

theorem Dev.timedTriggerMessageEff_ind {P : Dev → Prop} (hP : Closed P 0x80200 0x8000000000000000000000000000000000000000000000000000000000000000000000004000000000000000) {u : Nat} {d : Dev} (hd0 : P d) :
    P (Dev.timedTriggerMessageEff u d) := by
  unfold Dev.timedTriggerMessageEff
  try dsimp only
  repeat' with_reducible first
    | assumption
    | (intro _; intros; try dsimp only)
    | refine ite_ind ?_ ?_
    | refine Dev.updUnit_ind (hP.mono (by decide) (by decide)) ?_
    | refine Dev.unitLate_ind (hP.mono (by decide) (by decide)) ?_
    | split

theorem Dev.trgForceEff_ind {P : Dev → Prop} (hP : Closed P 0x200 0x0) {u : Nat} {d : Dev} (hd0 : P d) :
    P (Dev.trgForceEff u d) := by
  unfold Dev.trgForceEff
  try dsimp only
  repeat' with_reducible first
    | assumption
    | (intro _; intros; try dsimp only)
    | refine ite_ind ?_ ?_
    | refine Dev.updUnit_ind (hP.mono (by decide) (by decide)) ?_
    | split

theorem Dev.trgEnWriteEff_ind {P : Dev → Prop} (hP : Closed P 0x200 0x200000000000) {u : Nat} {en : Bool} {d : Dev} (hd0 : P d) :
    P (Dev.trgEnWriteEff u en d) := by
  unfold Dev.trgEnWriteEff
  try dsimp only
  repeat' with_reducible first
    | assumption
    | (intro _; intros; try dsimp only)
    | refine ite_ind ?_ ?_
    | refine Dev.putb_ind hP (by decide) ?_
    | refine Dev.updUnit_ind (hP.mono (by decide) (by decide)) ?_
    | split

theorem Dev.trgArmArmEff_ind {P : Dev → Prop} (hP : Closed P 0x200 0x0) {u : Nat} {d : Dev} (hd0 : P d) :
    P (Dev.trgArmArmEff u d) := by
  unfold Dev.trgArmArmEff
  try dsimp only
  repeat' with_reducible first
    | assumption
    | (intro _; intros; try dsimp only)
    | refine Dev.updUnit_ind (hP.mono (by decide) (by decide)) ?_
    | split

theorem Dev.trgArmDisarmEff_ind {P : Dev → Prop} (hP : Closed P 0x200 0x0) {u : Nat} {d : Dev} (hd0 : P d) :
    P (Dev.trgArmDisarmEff u d) := by
  unfold Dev.trgArmDisarmEff
  try dsimp only
  repeat' with_reducible first
    | assumption
    | (intro _; intros; try dsimp only)
    | refine Dev.updUnit_ind (hP.mono (by decide) (by decide)) ?_
    | split

theorem Dev.armOne_ind {P : Dev → Prop} (hP : Closed P 0x80200 0x800000000000) {d : Dev} {u : Nat} {arm : Bool} (hd0 : P d) :
    P (Dev.armOne d u arm) := by
  unfold Dev.armOne
  try dsimp only
  repeat' with_reducible first
    | assumption
    | (intro _; intros; try dsimp only)
    | refine ite_ind ?_ ?_
    | refine Dev.putb_ind hP (by decide) ?_
    | refine Dev.updUnit_ind (hP.mono (by decide) (by decide)) ?_
    | refine Dev.raise_ind (hP.mono (by decide) (by decide)) ?_
    | split

theorem Dev.armingEffectEff_ind {P : Dev → Prop} (hP : Closed P 0x80209 0x800000000000) {u : Nat} {d : Dev} (hd0 : P d) :
    P (Dev.armingEffectEff u d) := by
  unfold Dev.armingEffectEff
  try dsimp only
  repeat' with_reducible first
    | assumption
    | refine foldl_ind ?_ ?_
    | refine foldl_fst ?_ ?_
    | refine foldl_snd ?_ ?_
    | (intro _; intros; try dsimp only)
    | refine ite_fst ?_ ?_
    | refine ite_snd ?_ ?_
    | refine Dev.advanceTo_ind (hP.mono (by decide) (by decide)) ?_
    | refine Dev.updUnit_ind (hP.mono (by decide) (by decide)) ?_
    | refine Dev.armOne_ind (hP.mono (by decide) (by decide)) ?_
    | split

theorem Dev.holdRestart_ind {P : Dev → Prop} (hP : Closed P 0x200 0x40000000000000) {d : Dev} {u : Nat} {t : Nat} {p : Profile} (hd0 : P d) :
    P (Dev.holdRestart d u t p) := by
  unfold Dev.holdRestart
  try dsimp only
  repeat' with_reducible first
    | assumption
    | (intro _; intros; try dsimp only)
    | refine Dev.updUnit_ind (hP.mono (by decide) (by decide)) ?_
    | refine Dev.put_ind hP (by decide) ?_
    | split

theorem Dev.candidate_ind {P : Dev → Prop} (hP : Closed P 0xc1700 0x8000000000000000000000000000000000000000000000000000000000002001000000003fc0002000000000) {d : Dev} {u : Nat} {t : Nat} {interp : Bool} (hd0 : P d) :
    P (Dev.candidate d u t interp) := by
  unfold Dev.candidate
  try dsimp only
  repeat' with_reducible first
    | assumption
    | refine foldl_ind ?_ ?_
    | (intro _; intros; try dsimp only)
    | refine ite_ind ?_ ?_
    | refine Dev.updUnit_ind (hP.mono (by decide) (by decide)) ?_
    | refine Dev.count_ind hP (by decide) (by decide) ?_
    | refine Dev.holdRestart_ind (hP.mono (by decide) (by decide)) ?_
    | refine Dev.wr128_ind hP (by decide) ?_
    | refine Dev.raiseHeldAt_ind (hP.mono (by decide) (by decide)) ?_
    | refine Dev.laneOpen_ind (hP.mono (by decide) (by decide)) ?_
    | refine Dev.bump_ind hP (by decide) ?_
    | refine Dev.raiseAt_ind (hP.mono (by decide) (by decide)) ?_
    | refine Dev.tallyTrigger_ind (hP.mono (by decide) (by decide)) ?_
    | split

theorem Dev.applyCtl_ind {P : Dev → Prop} (hP : Closed P 0x200 0x0) {d : Dev} {u : Nat} {k : Nat} {c : Ctl} (hd0 : P d) :
    P (Dev.applyCtl d u k c) := by
  unfold Dev.applyCtl
  try dsimp only
  repeat' with_reducible first
    | assumption
    | (intro _; intros; try dsimp only)
    | refine ite_ind ?_ ?_
    | refine Dev.updUnit_ind (hP.mono (by decide) (by decide)) ?_
    | split

theorem Dev.unitOutputs_ind {P : Dev → Prop} (hP : Closed P 0xc1700 0x8000000000000000000000000000000000000000000000000000000000002001000000003fc0002000000000) {d : Dev} {u : Nat} {t : Nat} {outA : Bool} {outB : Bool} {rst : Bool} {ipA : Bool} {ipB : Bool} (hd0 : P d) :
    P (Dev.unitOutputs d u t outA outB rst ipA ipB) := by
  unfold Dev.unitOutputs
  try dsimp only
  repeat' with_reducible first
    | assumption
    | (intro _; intros; try dsimp only)
    | refine ite_ind ?_ ?_
    | refine ite_fst ?_ ?_
    | refine ite_snd ?_ ?_
    | refine Dev.updUnit_ind (hP.mono (by decide) (by decide)) ?_
    | refine Dev.raise_ind (hP.mono (by decide) (by decide)) ?_
    | refine Dev.candidate_ind (hP.mono (by decide) (by decide)) ?_
    | split

theorem Dev.decideAt_ind {P : Dev → Prop} (hP : Closed P 0xc1700 0x8000000000000000000000000000000000000000000000000000000000002001000000003fc0002000000000) {d : Dev} {u : Nat} {t : Nat} {cs : List Change} (hd0 : P d) :
    P (Dev.decideAt d u t cs) := by
  unfold Dev.decideAt
  try dsimp only
  repeat' with_reducible first
    | assumption
    | (intro _; intros; try dsimp only)
    | refine ite_ind ?_ ?_
    | refine ite_fst ?_ ?_
    | refine ite_snd ?_ ?_
    | refine Dev.updUnit_ind (hP.mono (by decide) (by decide)) ?_
    | refine Dev.unitOutputs_ind (hP.mono (by decide) (by decide)) ?_
    | split

theorem Dev.decideLoop_ind {P : Dev → Prop} (hP : Closed P 0xc1700 0x8000000000000000000000000000000000000000000000000000000000002001000000003fc0002000000000) {u f n : Nat} {cs : List Change} {d : Dev} (hd0 : P d) :
    P (Dev.decideLoop u f n cs d) := by
  induction n generalizing cs d with
  | zero => exact hd0
  | succ n ih =>
    have hd : ∀ t, P (d.decideAt u t cs) := fun t => Dev.decideAt_ind (hP.mono (by decide) (by decide)) hd0
    unfold Dev.decideLoop
    dsimp only
    split
    · refine ite_ind (ih ?_) ?_
      · exact Dev.applyCtl_ind (hP.mono (by decide) (by decide)) (Dev.updUnit_ind (hP.mono (by decide) (by decide)) hd0)
      · split
        · exact hd0
        · exact ih (hd _)
    · split
      · exact hd0
      · exact ih (hd _)

theorem Dev.triggerDecisionEff_ind {P : Dev → Prop} (hP : Closed P 0xc1709 0x8000000000000000000000000000000000000000000000000000000000002001000000003fc0002000000000) {u : Nat} {f : Nat} {d : Dev} (hd0 : P d) :
    P (Dev.triggerDecisionEff u f d) := by
  unfold Dev.triggerDecisionEff
  try dsimp only
  repeat' with_reducible first
    | assumption
    | (intro _; intros; try dsimp only)
    | refine ite_fst ?_ ?_
    | refine ite_snd ?_ ?_
    | refine Dev.advanceTo_ind (hP.mono (by decide) (by decide)) ?_
    | refine Dev.updUnit_ind (hP.mono (by decide) (by decide)) ?_
    | refine Dev.decideLoop_ind (hP.mono (by decide) (by decide)) ?_
    | split

end Sys2Proof.Machine
end

