-- ==== Sys2Proof/Laws/IndLaneEnd.lean ====
section
/-!
SUPPORT. What the operations of Machine/LaneEnd.lean can change: each keeps every property that is closed under changes of its
parts and writes of its register families.
-/
namespace Sys2Proof.Machine

theorem Dev.laneCatch_ind {P : Dev → Prop} (hP : Closed P 0x180d5709 0x80000000000000000000000000000003080000000000000000000000000a2601800000003fc0002000000000) {d : Dev} {l : Nat} (hd0 : P d) :
    P (Dev.laneCatch d l) := by
  unfold Dev.laneCatch
  try dsimp only
  repeat' with_reducible first
    | assumption
    | refine foldl_ind ?_ ?_
    | (intro _; intros; try dsimp only)
    | refine ite_ind ?_ ?_
    | refine Dev.triggerDecisionEff_ind (hP.mono (by decide) (by decide)) ?_
    | refine Dev.laneFrame_ind (hP.mono (by decide) (by decide)) ?_
    | split

theorem Dev.laneEndNow_ind {P : Dev → Prop} (hP : Closed P 0x180d5709 0x80000000000000000000000000000003080000000000000000000000000a2601800000003fc0002000000000) {d : Dev} {l : Nat} {outcome : Nat} {cut : Bool} (hd0 : P d) :
    P (Dev.laneEndNow d l outcome cut) := by
  unfold Dev.laneEndNow
  try dsimp only
  repeat' with_reducible first
    | assumption
    | refine Dev.laneCatch_ind (hP.mono (by decide) (by decide)) ?_
    | refine Dev.laneComplete_ind (hP.mono (by decide) (by decide)) ?_
    | refine Dev.laneStop_ind (hP.mono (by decide) (by decide)) ?_

theorem Dev.laneFlushEff_ind {P : Dev → Prop} (hP : Closed P 0x180d5709 0x80000000000000000000000000000003080000000000000000000000000a2601800000003fc0002000000000) {l : Nat} {d : Dev} (hd0 : P d) :
    P (Dev.laneFlushEff l d) := by
  unfold Dev.laneFlushEff
  try dsimp only
  repeat' with_reducible first
    | assumption
    | refine Dev.laneEndNow_ind (hP.mono (by decide) (by decide)) ?_

theorem Dev.laneDisableEff_ind {P : Dev → Prop} (hP : Closed P 0x180d5709 0x80000000000000000000000000000003080000000000000000000000000a2601c00000003fc0002000000000) {l : Nat} {d : Dev} (hd0 : P d) :
    P (Dev.laneDisableEff l d) := by
  unfold Dev.laneDisableEff
  try dsimp only
  repeat' with_reducible first
    | assumption
    | refine ite_ind ?_ ?_
    | refine Dev.laneEndNow_ind (hP.mono (by decide) (by decide)) ?_
    | refine Dev.laneOff_ind (hP.mono (by decide) (by decide)) ?_

end Sys2Proof.Machine
end

