-- ==== Sys2Proof/Laws/IndEventInputs.lean ====
section
/-!
SUPPORT. What the operations of Machine/EventInputs.lean can change: each keeps every property that is closed under changes of its
parts and writes of its register families.
-/
namespace Sys2Proof.Machine

theorem Dev.updIn_ind {P : Dev → Prop} (hP : Closed P 0x2000 0x0) {d : Dev} {i : Nat} {f : EvIn → EvIn} (hd0 : P d) :
    P (Dev.updIn d i f) := by
  unfold Dev.updIn
  try dsimp only
  repeat' with_reducible first
    | assumption
    | refine hP.evi (by decide) _ _ ?_

theorem Dev.updIu_ind {P : Dev → Prop} (hP : Closed P 0x2000 0x0) {d : Dev} {u : Nat} {f : Iu → Iu} (hd0 : P d) :
    P (Dev.updIu d u f) := by
  unfold Dev.updIu
  try dsimp only
  repeat' with_reducible first
    | assumption
    | refine hP.evi (by decide) _ _ ?_

theorem Dev.groupShow_ind {P : Dev → Prop} (hP : Closed P 0x2000 0x0) {d : Dev} {g : Nat} {b : Bool} (hd0 : P d) :
    P (Dev.groupShow d g b) := by
  unfold Dev.groupShow
  try dsimp only
  repeat' with_reducible first
    | assumption
    | (intro _; intros; try dsimp only)
    | refine ite_ind ?_ ?_
    | refine hP.evi (by decide) _ _ ?_
    | split

theorem Dev.levelClear_ind {P : Dev → Prop} (hP : Closed P 0x2200 0x0) {d : Dev} {i : Nat} (hd0 : P d) :
    P (Dev.levelClear d i) := by
  unfold Dev.levelClear
  try dsimp only
  repeat' with_reducible first
    | assumption
    | (intro _; intros; try dsimp only)
    | refine Dev.updIn_ind (hP.mono (by decide) (by decide)) ?_
    | refine Dev.toUnits_ind (hP.mono (by decide) (by decide)) ?_
    | split

theorem Dev.enterTiming_ind {P : Dev → Prop} (hP : Closed P 0x2000 0xc000000000000000000000000000000000000000000) {d : Dev} {i : Nat} (hd0 : P d) :
    P (Dev.enterTiming d i) := by
  unfold Dev.enterTiming
  try dsimp only
  repeat' with_reducible first
    | assumption
    | (intro _; intros; try dsimp only)
    | refine Dev.updIn_ind (hP.mono (by decide) (by decide)) ?_
    | refine Dev.put_ind hP (by decide) ?_
    | refine Dev.putb_ind hP (by decide) ?_
    | split

theorem Dev.groupSwitch_ind {P : Dev → Prop} (hP : Closed P 0x2202 0x33000000000000000000000000000000000000000000000c000000000000000000000000000000000000000000) {d : Dev} {g : Nat} {old : Nat} {new : Nat} (hd0 : P d) :
    P (Dev.groupSwitch d g old new) := by
  unfold Dev.groupSwitch
  try dsimp only
  repeat' with_reducible first
    | assumption
    | refine foldl_ind ?_ ?_
    | (intro _; intros; try dsimp only)
    | refine ite_ind ?_ ?_
    | refine Dev.testEnd_ind (hP.mono (by decide) (by decide)) ?_
    | refine hP.evi (by decide) _ _ ?_
    | refine Dev.levelClear_ind (hP.mono (by decide) (by decide)) ?_
    | refine Dev.enterTiming_ind (hP.mono (by decide) (by decide)) ?_
    | split

theorem Dev.eviGmodeWriteEff_ind {P : Dev → Prop} (hP : Closed P 0x2202 0x33000000000000000000000000000000000000000000000c0c0000000000000000000000000000000000000000) {v : Nat} {d : Dev} (hd0 : P d) :
    P (Dev.eviGmodeWriteEff v d) := by
  unfold Dev.eviGmodeWriteEff
  try dsimp only
  repeat' with_reducible first
    | assumption
    | refine foldl_ind ?_ ?_
    | (intro _; intros; try dsimp only)
    | refine ite_ind ?_ ?_
    | refine Dev.put_ind hP (by decide) ?_
    | refine Dev.groupSwitch_ind (hP.mono (by decide) (by decide)) ?_
    | split

theorem Dev.groupReadyEff_ind {P : Dev → Prop} (hP : Closed P 0x82000 0xc04000000000000000000000000000000000000000000000000000000000000000000000000000000000000000000000000000) {g : Nat} {d : Dev} (hd0 : P d) :
    P (Dev.groupReadyEff g d) := by
  unfold Dev.groupReadyEff
  try dsimp only
  repeat' with_reducible first
    | assumption
    | refine ite_ind ?_ ?_
    | refine Dev.pdPut_ind (hP.mono (by decide) (by decide)) ?_
    | refine Dev.groupShow_ind (hP.mono (by decide) (by decide)) ?_

theorem Dev.istatRise_ind {P : Dev → Prop} {c g : Nat} (hP : Closed P c g) {d : Dev} {i : Nat} {f : Fld}
    (hb : c.testBit 3 = true) (hc : c.testBit 19 = true) (hg : g.testBit f.g.ctorIdx = true) (h : P d) :
    P (d.istatRise i f) := by
  unfold Dev.istatRise
  refine ite_ind ?_ (Dev.setFlag_ind hP hg hb h)
  exact Dev.raise_ind (hP.mono (testBit_mask hc) (Nat.zero_or _)) (Dev.setFlag_ind hP hg hb h)

theorem Dev.inDrop_ind {P : Dev → Prop} {c g : Nat} (hP : Closed P c g) {d : Dev} {i n : Nat} {f : Fld}
    (hb : c.testBit 3 = true) (hc : c.testBit 19 = true) (hg : g.testBit f.g.ctorIdx = true)
    (hs : g.testBit Rg.GLB_CNT_SAT.ctorIdx = true) (hi : g.testBit Rg.EVI_ISTAT.ctorIdx = true) (h : P d) :
    P (d.inDrop i f n) :=
  Dev.istatRise_ind hP hb hc hi (Dev.count_ind hP hg hs h)

theorem Dev.toFifo_ind {P : Dev → Prop} (hP : Closed P 0x82008 0x8000000000000000000000000000000000000000000044000000000000000000000000000000000000000000) {d : Dev} {i : Nat} {s : Stamp} (hd0 : P d) :
    P (Dev.toFifo d i s) := by
  unfold Dev.toFifo
  try dsimp only
  repeat' with_reducible first
    | assumption
    | (intro _; intros; try dsimp only)
    | refine ite_ind ?_ ?_
    | refine Dev.inDrop_ind hP (by decide) (by decide) (by decide) (by decide) (by decide) ?_
    | refine Dev.updIn_ind (hP.mono (by decide) (by decide)) ?_
    | split

theorem Dev.toIus_ind {P : Dev → Prop} (hP : Closed P 0x2000 0x0) {d : Dev} {i : Nat} {s : Stamp} {rise : Bool} (hd0 : P d) :
    P (Dev.toIus d i s rise) := by
  unfold Dev.toIus
  try dsimp only
  repeat' with_reducible first
    | assumption
    | refine foldl_ind ?_ ?_
    | (intro _; intros; try dsimp only)
    | refine ite_ind ?_ ?_
    | refine Dev.updIu_ind (hP.mono (by decide) (by decide)) ?_
    | split

theorem Dev.iuLoss_ind {P : Dev → Prop} {c g : Nat} (hP : Closed P c g) {d : Dev} {u n : Nat} {f : Fld}
    (hb : c.testBit 3 = true) (hc : c.testBit 19 = true) (hg : g.testBit f.g.ctorIdx = true)
    (hs : g.testBit Rg.GLB_CNT_SAT.ctorIdx = true) (hi : g.testBit Rg.EVI_ISTAT.ctorIdx = true) (h : P d) :
    P (d.iuLoss u f n) :=
  ite_ind h (Dev.istatRise_ind hP hb hc hi (Dev.count_ind hP hg hs h))

theorem Dev.iuResult_ind {P : Dev → Prop} (hP : Closed P 0x82008 0x8000000000000000000000000000000000000000006004000000000000000000000000000000000000000000) {d : Dev} {u : Nat} {start : Stamp} {stop : Stamp} (hd0 : P d) :
    P (Dev.iuResult d u start stop) := by
  unfold Dev.iuResult
  try dsimp only
  repeat' with_reducible first
    | assumption
    | (intro _; intros; try dsimp only)
    | refine ite_ind ?_ ?_
    | refine Dev.updIu_ind (hP.mono (by decide) (by decide)) ?_
    | refine Dev.bump_ind hP (by decide) ?_
    | refine Dev.iuLoss_ind hP (by decide) (by decide) (by decide) (by decide) (by decide) ?_
    | split

theorem Dev.iuHold_ind {P : Dev → Prop} (hP : Closed P 0x82008 0x8000000000000000000000000000000000000000001004000000000000000000000000000000000000000000) {d : Dev} {u : Nat} {s : IuStamp} (hd0 : P d) :
    P (Dev.iuHold d u s) := by
  unfold Dev.iuHold
  try dsimp only
  repeat' with_reducible first
    | assumption
    | (intro _; intros; try dsimp only)
    | refine ite_ind ?_ ?_
    | refine Dev.updIu_ind (hP.mono (by decide) (by decide)) ?_
    | refine Dev.iuLoss_ind hP (by decide) (by decide) (by decide) (by decide) (by decide) ?_
    | split

theorem Dev.iuStamp_ind {P : Dev → Prop} (hP : Closed P 0x82008 0x8000000000000000000000000000000000000000007804000000000000000000000000000000000000000000) {d : Dev} {u : Nat} {s : IuStamp} (hd0 : P d) :
    P (Dev.iuStamp d u s) := by
  unfold Dev.iuStamp
  try dsimp only
  repeat' with_reducible first
    | assumption
    | (intro _; intros; try dsimp only)
    | refine ite_ind ?_ ?_
    | refine Dev.iuLoss_ind hP (by decide) (by decide) (by decide) (by decide) (by decide) ?_
    | refine Dev.updIu_ind (hP.mono (by decide) (by decide)) ?_
    | refine Dev.iuResult_ind (hP.mono (by decide) (by decide)) ?_
    | refine Dev.count_ind hP (by decide) (by decide) ?_
    | refine Dev.iuHold_ind (hP.mono (by decide) (by decide)) ?_
    | split

theorem Dev.iuRun_ind {P : Dev → Prop} (hP : Closed P 0x82008 0x8000000000000000000000000000000000000000007804000000000000000000000000000000000000000000) {d : Dev} {u n : Nat} (h : P d) : P (d.iuRun u n) := by
  induction n generalizing d with
  | zero => exact h
  | succ n ih =>
    unfold Dev.iuRun
    split
    · refine ite_ind (ih ?_) h
      exact Dev.iuStamp_ind (hP.mono (by decide) (by decide)) (Dev.updIu_ind (hP.mono (by decide) (by decide)) h)
    · exact h

theorem Dev.iuSettle_ind {P : Dev → Prop} (hP : Closed P 0x82008 0x8000000000000000000000000000000000000000007c04000000000000000000000000000000000000000000) {d : Dev} {u : Nat} (hd0 : P d) :
    P (Dev.iuSettle d u) := by
  unfold Dev.iuSettle
  try dsimp only
  repeat' with_reducible first
    | assumption
    | refine Dev.iuRun_ind (hP.mono (by decide) (by decide)) ?_
    | refine Dev.put_ind hP (by decide) ?_

theorem Dev.intervalDrainEff_ind {P : Dev → Prop} (hP : Closed P 0xc2009 0x8000000000000000000000000000000000000000007c04000000000000000000000000000000000000000000) {u : Nat} {d : Dev} (hd0 : P d) :
    P (Dev.intervalDrainEff u d) := by
  unfold Dev.intervalDrainEff
  try dsimp only
  repeat' with_reducible first
    | assumption
    | (intro _; intros; try dsimp only)
    | refine Dev.iuSettle_ind (hP.mono (by decide) (by decide)) ?_
    | refine Dev.advanceTo_ind (hP.mono (by decide) (by decide)) ?_
    | refine hP.evi (by decide) _ _ ?_
    | refine Dev.updIu_ind (hP.mono (by decide) (by decide)) ?_
    | refine Dev.post_ind (hP.mono (by decide) (by decide)) ?_
    | split

theorem Dev.iuCfgWriteEff_ind {P : Dev → Prop} (hP : Closed P 0x82008 0x8000000000000000000000000000000000000000007e04000000000000000000000000000000000000000000) {u : Nat} {v : W32} {d : Dev} (hd0 : P d) :
    P (Dev.iuCfgWriteEff u v d) := by
  unfold Dev.iuCfgWriteEff
  try dsimp only
  repeat' with_reducible first
    | assumption
    | (intro _; intros; try dsimp only)
    | refine ite_ind ?_ ?_
    | refine Dev.iuSettle_ind (hP.mono (by decide) (by decide)) ?_
    | refine Dev.iuLoss_ind hP (by decide) (by decide) (by decide) (by decide) (by decide) ?_
    | refine Dev.updIu_ind (hP.mono (by decide) (by decide)) ?_
    | refine hP.wrAt (by decide) ?_
    | refine Dev.put_ind hP (by decide) ?_
    | split

theorem Dev.edgeAccepted_ind {P : Dev → Prop} (hP : Closed P 0x82208 0x8000000000000000000000000000000000000000007c5c000000000000000000000000000000000000000000) {d : Dev} {i : Nat} {t : Nat} {rise : Bool} (hd0 : P d) :
    P (Dev.edgeAccepted d i t rise) := by
  unfold Dev.edgeAccepted
  try dsimp only
  repeat' with_reducible first
    | assumption
    | refine foldl_ind ?_ ?_
    | (intro _; intros; try dsimp only)
    | refine ite_ind ?_ ?_
    | refine Dev.bump_ind hP (by decide) ?_
    | refine Dev.updIn_ind (hP.mono (by decide) (by decide)) ?_
    | refine Dev.raise_ind (hP.mono (by decide) (by decide)) ?_
    | refine Dev.iuSettle_ind (hP.mono (by decide) (by decide)) ?_
    | refine Dev.toIus_ind (hP.mono (by decide) (by decide)) ?_
    | refine Dev.toFifo_ind (hP.mono (by decide) (by decide)) ?_
    | refine Dev.toUnits_ind (hP.mono (by decide) (by decide)) ?_
    | split

theorem Dev.noclkFold_ind {P : Dev → Prop} (hP : Closed P 0x2008 0x8000000000000000000000000000000000000000000104000000000000000000000000000000000000000000) {d : Dev} {i : Nat} (hd0 : P d) :
    P (Dev.noclkFold d i) := by
  unfold Dev.noclkFold
  try dsimp only
  repeat' with_reducible first
    | assumption
    | (intro _; intros; try dsimp only)
    | refine ite_ind ?_ ?_
    | refine Dev.count_ind hP (by decide) (by decide) ?_
    | refine Dev.setFlag_ind hP (by decide) (by decide) ?_
    | refine Dev.updIn_ind (hP.mono (by decide) (by decide)) ?_
    | split

theorem Dev.noclkRaise_ind {P : Dev → Prop} (hP : Closed P 0x80000 0x0) {d : Dev} {i : Nat} {k : Nat} (hd0 : P d) :
    P (Dev.noclkRaise d i k) := by
  unfold Dev.noclkRaise
  try dsimp only
  repeat' with_reducible first
    | assumption
    | refine ite_ind ?_ ?_
    | refine Dev.raiseAt_ind (hP.mono (by decide) (by decide)) ?_

theorem Dev.noclkEdge_ind {P : Dev → Prop} (hP : Closed P 0x82009 0x8000000000000000000000000000000000000000000104000000000000000000000000000000000000000000) {d : Dev} {i : Nat} {k : Nat} (hd0 : P d) :
    P (Dev.noclkEdge d i k) := by
  unfold Dev.noclkEdge
  try dsimp only
  repeat' with_reducible first
    | assumption
    | (intro _; intros; try dsimp only)
    | refine ite_ind ?_ ?_
    | refine Dev.advanceTo_ind (hP.mono (by decide) (by decide)) ?_
    | refine Dev.inDrop_ind hP (by decide) (by decide) (by decide) (by decide) (by decide) ?_
    | refine Dev.updIn_ind (hP.mono (by decide) (by decide)) ?_
    | refine Dev.noclkRaise_ind (hP.mono (by decide) (by decide)) ?_
    | split

theorem Dev.eventEdgeEff_ind {P : Dev → Prop} (hP : Closed P 0x82209 0x8000000000000000000000000000000000000000007dfc000000000000000000000000000000000000000000) {i : Nat} {k : Nat} {b : Nat} {rise : Bool} {d : Dev} (hd0 : P d) :
    P (Dev.eventEdgeEff i k b rise d) := by
  unfold Dev.eventEdgeEff
  try dsimp only
  repeat' with_reducible first
    | assumption
    | (intro _; intros; try dsimp only)
    | refine ite_ind ?_ ?_
    | refine Dev.advanceTo_ind (hP.mono (by decide) (by decide)) ?_
    | refine Dev.noclkFold_ind (hP.mono (by decide) (by decide)) ?_
    | refine Dev.noclkEdge_ind (hP.mono (by decide) (by decide)) ?_
    | refine Dev.inDrop_ind hP (by decide) (by decide) (by decide) (by decide) (by decide) ?_
    | refine Dev.updIn_ind (hP.mono (by decide) (by decide)) ?_
    | refine Dev.edgeAccepted_ind (hP.mono (by decide) (by decide)) ?_
    | split

theorem Dev.eviRelock_ind {P : Dev → Prop} (hP : Closed P 0x80000 0x0) {d : Dev} (hd0 : P d) :
    P (Dev.eviRelock d) := by
  unfold Dev.eviRelock
  try dsimp only
  repeat' with_reducible first
    | assumption
    | refine foldl_ind ?_ ?_
    | (intro _; intros; try dsimp only)
    | refine Dev.noclkRaise_ind (hP.mono (by decide) (by decide)) ?_
    | split

theorem Dev.logicChange_ind {P : Dev → Prop} (hP : Closed P 0x82200 0x0) {d : Dev} {g : Nat} {k : Nat} {n : Nat} {m : Nat} {v : BitVec 16} {shift : List Int} (hd0 : P d) :
    P (Dev.logicChange d g k n m v shift) := by
  unfold Dev.logicChange
  try dsimp only
  repeat' with_reducible first
    | assumption
    | refine foldl_ind ?_ ?_
    | (intro _; intros; try dsimp only)
    | refine ite_ind ?_ ?_
    | refine Dev.updIn_ind (hP.mono (by decide) (by decide)) ?_
    | refine Dev.toUnits_ind (hP.mono (by decide) (by decide)) ?_
    | refine Dev.raiseAt_ind (hP.mono (by decide) (by decide)) ?_
    | split

theorem Dev.logicSampleEff_ind {P : Dev → Prop} (hP : Closed P 0x82229 0x8000000000000000000000000000000000000000000000800000000000000000000000000000000000000000) {g : Nat} {k : Nat} {samples : List (BitVec 16)} {d : Dev} (hd0 : P d) :
    P (Dev.logicSampleEff g k samples d) := by
  unfold Dev.logicSampleEff
  try dsimp only
  repeat' with_reducible first
    | assumption
    | refine foldl_ind ?_ ?_
    | (intro _; intros; try dsimp only)
    | refine ite_ind ?_ ?_
    | refine Dev.advanceTo_ind (hP.mono (by decide) (by decide)) ?_
    | refine Dev.count_ind hP (by decide) (by decide) ?_
    | refine Dev.logicChange_ind (hP.mono (by decide) (by decide)) ?_
    | refine hP.logic (by decide) _ _ ?_
    | split

theorem Dev.batchWrite_ind {P : Dev → Prop} (hP : Closed P 0x42000 0x0) {d : Dev} {i : Nat} {flushed : Bool} (hd0 : P d) :
    P (Dev.batchWrite d i flushed) := by
  unfold Dev.batchWrite
  try dsimp only
  repeat' with_reducible first
    | assumption
    | (intro _; intros; try dsimp only)
    | refine Dev.updIn_ind (hP.mono (by decide) (by decide)) ?_
    | refine Dev.post_ind (hP.mono (by decide) (by decide)) ?_
    | split

theorem Dev.batchAdd_ind {P : Dev → Prop} (hP : Closed P 0x42000 0x0) {d : Dev} {i : Nat} {s : Stamp} (hd0 : P d) :
    P (Dev.batchAdd d i s) := by
  unfold Dev.batchAdd
  try dsimp only
  repeat' with_reducible first
    | assumption
    | (intro _; intros; try dsimp only)
    | refine ite_ind ?_ ?_
    | refine Dev.updIn_ind (hP.mono (by decide) (by decide)) ?_
    | refine Dev.batchWrite_ind (hP.mono (by decide) (by decide)) ?_
    | split

theorem Dev.stampOut_ind {P : Dev → Prop} (hP : Closed P 0x180d7600 0x80000000000000000000000000000003080000000000000000000000000a0600800000000000000000000000) {d : Dev} {i : Nat} {s : Stamp} (hd0 : P d) :
    P (Dev.stampOut d i s) := by
  unfold Dev.stampOut
  try dsimp only
  repeat' with_reducible first
    | assumption
    | refine foldl_ind ?_ ?_
    | (intro _; intros; try dsimp only)
    | refine ite_ind ?_ ?_
    | refine Dev.batchAdd_ind (hP.mono (by decide) (by decide)) ?_
    | refine Dev.laneGranule_ind (hP.mono (by decide) (by decide)) ?_
    | split

theorem Dev.stampCollectEff_ind {P : Dev → Prop} (hP : Closed P 0x180d7609 0x80000000000000000000000000000003080000000000000000000000000a0600800000000000000000000000) {d : Dev} (hd0 : P d) :
    P (Dev.stampCollectEff d) := by
  unfold Dev.stampCollectEff
  try dsimp only
  repeat' with_reducible first
    | assumption
    | (intro _; intros; try dsimp only)
    | refine Dev.advanceTo_ind (hP.mono (by decide) (by decide)) ?_
    | refine hP.evi (by decide) _ _ ?_
    | refine Dev.updIn_ind (hP.mono (by decide) (by decide)) ?_
    | refine Dev.stampOut_ind (hP.mono (by decide) (by decide)) ?_
    | split

theorem Dev.batchTimeoutEff_ind {P : Dev → Prop} (hP : Closed P 0xc2009 0x0) {i : Nat} {d : Dev} (hd0 : P d) :
    P (Dev.batchTimeoutEff i d) := by
  unfold Dev.batchTimeoutEff
  try dsimp only
  repeat' with_reducible first
    | assumption
    | refine ite_ind ?_ ?_
    | refine Dev.advanceTo_ind (hP.mono (by decide) (by decide)) ?_
    | refine Dev.batchWrite_ind (hP.mono (by decide) (by decide)) ?_

theorem Dev.eviIcfgWriteEff_ind {P : Dev → Prop} (hP : Closed P 0x42000 0x1000000000000000000000000000000000000000000) {i : Nat} {v : W32} {d : Dev} (hd0 : P d) :
    P (Dev.eviIcfgWriteEff i v d) := by
  unfold Dev.eviIcfgWriteEff
  try dsimp only
  repeat' with_reducible first
    | assumption
    | refine ite_ind ?_ ?_
    | refine Dev.batchWrite_ind (hP.mono (by decide) (by decide)) ?_
    | refine hP.wrAt (by decide) ?_
    | refine Dev.putb_ind hP (by decide) ?_

theorem Dev.gaugeBegin_ind {P : Dev → Prop} (hP : Closed P 0x2000 0x4400000000000000000000000000000000000000000) {d : Dev} {i : Nat} (hd0 : P d) :
    P (Dev.gaugeBegin d i) := by
  unfold Dev.gaugeBegin
  try dsimp only
  repeat' with_reducible first
    | assumption
    | (intro _; intros; try dsimp only)
    | refine Dev.put_ind hP (by decide) ?_
    | refine hP.evi (by decide) _ _ ?_
    | refine Dev.putb_ind hP (by decide) ?_
    | refine Dev.updIn_ind (hP.mono (by decide) (by decide)) ?_
    | split

theorem Dev.gaugeStartEff_ind {P : Dev → Prop} (hP : Closed P 0x2000 0x4600000000000000000000000000000000000000000) {i : Nat} {d : Dev} (hd0 : P d) :
    P (Dev.gaugeStartEff i d) := by
  unfold Dev.gaugeStartEff
  try dsimp only
  repeat' with_reducible first
    | assumption
    | refine ite_ind ?_ ?_
    | refine Dev.put_ind hP (by decide) ?_
    | refine Dev.gaugeBegin_ind (hP.mono (by decide) (by decide)) ?_

theorem Dev.gaugeAutoEff_ind {P : Dev → Prop} (hP : Closed P 0x2000 0x4400000000000000000000000000000000000000000) {i : Nat} {d : Dev} (hd0 : P d) :
    P (Dev.gaugeAutoEff i d) := by
  unfold Dev.gaugeAutoEff
  try dsimp only
  repeat' with_reducible first
    | assumption
    | (intro _; intros; try dsimp only)
    | refine ite_ind ?_ ?_
    | refine Dev.gaugeBegin_ind (hP.mono (by decide) (by decide)) ?_
    | split

theorem Dev.gaugeResultEff_ind {P : Dev → Prop} (hP : Closed P 0x82008 0xc00000000000000000000000000000000000000000000000000000000004400000000000000000000000000000000000000000) {hits : List Nat} {d : Dev} (hd0 : P d) :
    P (Dev.gaugeResultEff hits d) := by
  unfold Dev.gaugeResultEff
  try dsimp only
  repeat' with_reducible first
    | assumption
    | (intro _; intros; try dsimp only)
    | refine ite_ind ?_ ?_
    | refine hP.evi (by decide) _ _ ?_
    | refine Dev.putb_ind hP (by decide) ?_
    | refine Dev.updIn_ind (hP.mono (by decide) (by decide)) ?_
    | refine Dev.decision_ind (hP.mono (by decide) (by decide)) ?_
    | refine Dev.put_ind hP (by decide) ?_
    | refine Dev.istatRise_ind hP (by decide) (by decide) (by decide) ?_
    | split

theorem Dev.gaugeSave_ind {P : Dev → Prop} (hP : Closed P 0x2000 0x0) {d : Dev} (hd0 : P d) :
    P (Dev.gaugeSave d) := by
  unfold Dev.gaugeSave
  try dsimp only
  repeat' with_reducible first
    | assumption
    | refine foldl_ind ?_ ?_
    | (intro _; intros; try dsimp only)
    | refine ite_ind ?_ ?_
    | refine Dev.updIn_ind (hP.mono (by decide) (by decide)) ?_
    | split

theorem Dev.gaugeTableSaveEff_ind {P : Dev → Prop} (hP : Closed P 0x82009 0x0) {d : Dev} (hd0 : P d) :
    P (Dev.gaugeTableSaveEff d) := by
  unfold Dev.gaugeTableSaveEff
  try dsimp only
  repeat' with_reducible first
    | assumption
    | refine Dev.advanceTo_ind (hP.mono (by decide) (by decide)) ?_
    | refine Dev.gaugeSave_ind (hP.mono (by decide) (by decide)) ?_
    | refine hP.evi (by decide) _ _ ?_
    | split

theorem Dev.eviSettle_ind {P : Dev → Prop} (hP : Closed P 0x82008 0x8000000000000000000000000000000000000000007d04000000000000000000000000000000000000000000) {d : Dev} {r : Reg} (hd0 : P d) :
    P (Dev.eviSettle d r) := by
  unfold Dev.eviSettle
  try dsimp only
  repeat' with_reducible first
    | assumption
    | refine foldl_ind ?_ ?_
    | (intro _; intros; try dsimp only)
    | refine ite_ind ?_ ?_
    | refine Dev.noclkFold_ind (hP.mono (by decide) (by decide)) ?_
    | refine Dev.iuSettle_ind (hP.mono (by decide) (by decide)) ?_
    | split

theorem Dev.eviDrain_ind {P : Dev → Prop} (hP : Closed P 0x180d7608 0x8000000000000000000000000000000308000000007c044000000000000a0600800000000000000000000000) {d : Dev} (hd0 : P d) :
    P (Dev.eviDrain d) := by
  unfold Dev.eviDrain
  try dsimp only
  repeat' with_reducible first
    | assumption
    | refine foldl_ind ?_ ?_
    | (intro _; intros; try dsimp only)
    | refine Dev.iuSettle_ind (hP.mono (by decide) (by decide)) ?_
    | refine Dev.stampOut_ind (hP.mono (by decide) (by decide)) ?_
    | refine Dev.updIn_ind (hP.mono (by decide) (by decide)) ?_
    | refine Dev.batchWrite_ind (hP.mono (by decide) (by decide)) ?_
    | refine Dev.post_ind (hP.mono (by decide) (by decide)) ?_
    | refine Dev.updIu_ind (hP.mono (by decide) (by decide)) ?_
    | refine hP.evi (by decide) _ _ ?_
    | refine Dev.put_ind hP (by decide) ?_
    | split

end Sys2Proof.Machine
end

