-- ==== Sys2Proof/Laws/IndDecimation.lean ====
section
/-!
SUPPORT. What the operations of Machine/Decimation.lean can change: each keeps every property that is closed under changes of its
parts and writes of its register families.
-/
namespace Sys2Proof.Machine

theorem Dev.updDec_ind {P : Dev → Prop} (hP : Closed P 0x800 0x0) {d : Dev} {u : Nat} {f : DecUnit → DecUnit} (hd0 : P d) :
    P (Dev.updDec d u f) := by
  unfold Dev.updDec
  try dsimp only
  repeat' with_reducible first
    | assumption
    | refine hP.dec (by decide) _ _ ?_

theorem Dev.decThreshold_ind {P : Dev → Prop} (hP : Closed P 0x80a00 0x19800400000000000000000000000000000) {d : Dev} {u : Nat} {k : Nat} {fast : Bool} {lo : Int} {hi : Int} (hd0 : P d) :
    P (Dev.decThreshold d u k fast lo hi) := by
  unfold Dev.decThreshold
  try dsimp only
  repeat' with_reducible first
    | assumption
    | (intro _; intros; try dsimp only)
    | refine ite_ind ?_ ?_
    | refine Dev.updDec_ind (hP.mono (by decide) (by decide)) ?_
    | refine Dev.bump_ind hP (by decide) ?_
    | refine Dev.raise_ind (hP.mono (by decide) (by decide)) ?_
    | refine Dev.toUnits_ind (hP.mono (by decide) (by decide)) ?_
    | split

theorem Dev.decSettle_ind {P : Dev → Prop} (hP : Closed P 0x800 0x400000000000000000000000000000) {d : Dev} {u : Nat} (hd0 : P d) :
    P (Dev.decSettle d u) := by
  unfold Dev.decSettle
  try dsimp only
  repeat' with_reducible first
    | assumption
    | (intro _; intros; try dsimp only)
    | refine ite_ind ?_ ?_
    | refine Dev.putb_ind hP (by decide) ?_
    | refine Dev.updDec_ind (hP.mono (by decide) (by decide)) ?_
    | split

theorem Dev.decToLanes_ind {P : Dev → Prop} (hP : Closed P 0x180d5e00 0x80000000000000000000000000000003080000000000000000000000000a0600800000000000000000000000) {d : Dev} {u : Nat} {first : Bool} {o : DecOut} (hd0 : P d) :
    P (Dev.decToLanes d u first o) := by
  unfold Dev.decToLanes
  try dsimp only
  repeat' with_reducible first
    | assumption
    | refine foldl_ind ?_ ?_
    | (intro _; intros; try dsimp only)
    | refine ite_ind ?_ ?_
    | refine Dev.updDec_ind (hP.mono (by decide) (by decide)) ?_
    | refine Dev.laneGranule_ind (hP.mono (by decide) (by decide)) ?_
    | split

theorem Dev.decAfter_ind {P : Dev → Prop} (hP : Closed P 0x800 0x0) {d : Dev} {u : Nat} {j : Nat} {x : DecRun} (hd0 : P d) :
    P (Dev.decAfter d u j x) := by
  unfold Dev.decAfter
  try dsimp only
  repeat' with_reducible first
    | assumption
    | (intro _; intros; try dsimp only)
    | refine Dev.updDec_ind (hP.mono (by decide) (by decide)) ?_
    | split

theorem Dev.decItemDeliveryEff_ind {P : Dev → Prop} (hP : Closed P 0x180d5e09 0x8000000000000000000000000000000308000000000000000000019c004a0600800000000000000000000000) {u : Nat} {d : Dev} (hd0 : P d) :
    P (Dev.decItemDeliveryEff u d) := by
  unfold Dev.decItemDeliveryEff
  try dsimp only
  repeat' with_reducible first
    | assumption
    | (intro _; intros; try dsimp only)
    | refine ite_ind ?_ ?_
    | refine Dev.advanceTo_ind (hP.mono (by decide) (by decide)) ?_
    | refine Dev.decSettle_ind (hP.mono (by decide) (by decide)) ?_
    | refine Dev.decAfter_ind (hP.mono (by decide) (by decide)) ?_
    | refine Dev.puts_ind hP (by decide) ?_
    | refine Dev.decThreshold_ind (hP.mono (by decide) (by decide)) ?_
    | refine Dev.decToLanes_ind (hP.mono (by decide) (by decide)) ?_
    | split

theorem Dev.fastPathItemEff_ind {P : Dev → Prop} (hP : Closed P 0x180d5e09 0x8000000000000000000000000000000308000000000000000000039a004a0600800000000000000000000000) {u : Nat} {d : Dev} (hd0 : P d) :
    P (Dev.fastPathItemEff u d) := by
  unfold Dev.fastPathItemEff
  try dsimp only
  repeat' with_reducible first
    | assumption
    | (intro _; intros; try dsimp only)
    | refine ite_ind ?_ ?_
    | refine Dev.advanceTo_ind (hP.mono (by decide) (by decide)) ?_
    | refine Dev.decAfter_ind (hP.mono (by decide) (by decide)) ?_
    | refine Dev.puts_ind hP (by decide) ?_
    | refine Dev.count_ind hP (by decide) (by decide) ?_
    | refine Dev.decThreshold_ind (hP.mono (by decide) (by decide)) ?_
    | refine Dev.decToLanes_ind (hP.mono (by decide) (by decide)) ?_
    | split

theorem Dev.settledEff_ind {P : Dev → Prop} (hP : Closed P 0x80809 0x400000000000000000000000000000) {u : Nat} {d : Dev} (hd0 : P d) :
    P (Dev.settledEff u d) := by
  unfold Dev.settledEff
  try dsimp only
  repeat' with_reducible first
    | assumption
    | refine ite_ind ?_ ?_
    | refine Dev.advanceTo_ind (hP.mono (by decide) (by decide)) ?_
    | refine Dev.decSettle_ind (hP.mono (by decide) (by decide)) ?_
    | split

theorem Dev.decStart_ind {P : Dev → Prop} (hP : Closed P 0x800 0x100400000000000000000000000000000) {d : Dev} {u : Nat} {k : Nat} {rate : Bool} (hd0 : P d) :
    P (Dev.decStart d u k rate) := by
  unfold Dev.decStart
  try dsimp only
  repeat' with_reducible first
    | assumption
    | (intro _; intros; try dsimp only)
    | refine ite_ind ?_ ?_
    | refine Dev.updDec_ind (hP.mono (by decide) (by decide)) ?_
    | refine Dev.putb_ind hP (by decide) ?_
    | refine Dev.wr128_ind hP (by decide) ?_
    | split

theorem Dev.decDueUnit_ind {P : Dev → Prop} (hP : Closed P 0x800 0x12a400000000000000000000000000000) {d : Dev} {u : Nat} {k : Nat} (hd0 : P d) :
    P (Dev.decDueUnit d u k) := by
  unfold Dev.decDueUnit
  try dsimp only
  repeat' with_reducible first
    | assumption
    | (intro _; intros; try dsimp only)
    | refine ite_ind ?_ ?_
    | refine hP.wrAt (by decide) ?_
    | refine Dev.updDec_ind (hP.mono (by decide) (by decide)) ?_
    | refine Dev.decStart_ind (hP.mono (by decide) (by decide)) ?_
    | split

theorem Dev.decDue_ind {P : Dev → Prop} (hP : Closed P 0x800 0x18012a400000000000000000000000000000) {d : Dev} {k : Nat} (hd0 : P d) :
    P (Dev.decDue d k) := by
  unfold Dev.decDue
  try dsimp only
  repeat' with_reducible first
    | assumption
    | refine foldl_ind ?_ ?_
    | (intro _; intros; try dsimp only)
    | refine ite_ind ?_ ?_
    | refine hP.dec (by decide) _ _ ?_
    | refine Dev.bump_ind hP (by decide) ?_
    | refine Dev.wr128_ind hP (by decide) ?_
    | refine Dev.updDec_ind (hP.mono (by decide) (by decide)) ?_
    | refine Dev.decDueUnit_ind (hP.mono (by decide) (by decide)) ?_
    | split

theorem Dev.decRestartEff_ind {P : Dev → Prop} (hP : Closed P 0x80809 0x18012a400000000000000000000000000000) {u : Nat} {d : Dev} (hd0 : P d) :
    P (Dev.decRestartEff u d) := by
  unfold Dev.decRestartEff
  try dsimp only
  repeat' with_reducible first
    | assumption
    | refine foldl_ind ?_ ?_
    | (intro _; intros; try dsimp only)
    | refine Dev.advanceTo_ind (hP.mono (by decide) (by decide)) ?_
    | refine Dev.decDue_ind (hP.mono (by decide) (by decide)) ?_
    | split

theorem Dev.decRestartNext_ind {P : Dev → Prop} (hP : Closed P 0x800 0x0) {d : Dev} {u : Nat} (hd0 : P d) :
    P (Dev.decRestartNext d u) := by
  unfold Dev.decRestartNext
  try dsimp only
  repeat' with_reducible first
    | assumption
    | (intro _; intros; try dsimp only)
    | refine Dev.updDec_ind (hP.mono (by decide) (by decide)) ?_
    | split

theorem Dev.decCommitEff_ind {P : Dev → Prop} (hP : Closed P 0x800 0x18012a400000000000000000000000000000) {u : Nat} {d : Dev} (hd0 : P d) :
    P (Dev.decCommitEff u d) := by
  unfold Dev.decCommitEff
  try dsimp only
  repeat' with_reducible first
    | assumption
    | (intro _; intros; try dsimp only)
    | refine ite_ind ?_ ?_
    | refine Dev.decDue_ind (hP.mono (by decide) (by decide)) ?_
    | refine Dev.put_ind hP (by decide) ?_
    | refine Dev.decRestartNext_ind (hP.mono (by decide) (by decide)) ?_
    | refine Dev.updDec_ind (hP.mono (by decide) (by decide)) ?_
    | split

theorem Dev.decEnableEff_ind {P : Dev → Prop} (hP : Closed P 0x800 0x18012a600000000000000000000000000000) {u : Nat} {en : Bool} {d : Dev} (hd0 : P d) :
    P (Dev.decEnableEff u en d) := by
  unfold Dev.decEnableEff
  try dsimp only
  repeat' with_reducible first
    | assumption
    | (intro _; intros; try dsimp only)
    | refine ite_ind ?_ ?_
    | refine Dev.decDue_ind (hP.mono (by decide) (by decide)) ?_
    | refine Dev.putb_ind hP (by decide) ?_
    | refine Dev.decRestartNext_ind (hP.mono (by decide) (by decide)) ?_
    | refine Dev.updDec_ind (hP.mono (by decide) (by decide)) ?_
    | split

theorem Dev.decSyncGoEff_ind {P : Dev → Prop} (hP : Closed P 0x800 0x0) {d : Dev} (hd0 : P d) :
    P (Dev.decSyncGoEff d) := by
  unfold Dev.decSyncGoEff
  try dsimp only
  repeat' with_reducible first
    | assumption
    | refine ite_ind ?_ ?_
    | refine hP.dec (by decide) _ _ ?_

theorem Dev.decSyncTimed_ind {P : Dev → Prop} (hP : Closed P 0x800 0x0) {d : Dev} {inst : Nat} (hd0 : P d) :
    P (Dev.decSyncTimed d inst) := by
  unfold Dev.decSyncTimed
  try dsimp only
  repeat' with_reducible first
    | assumption
    | refine hP.dec (by decide) _ _ ?_

theorem Dev.timedSyncEff_ind {P : Dev → Prop} (hP : Closed P 0x800 0x8000000000000000000000000000000000000000000000000000080000000000000000000000000000000000) {d : Dev} (hd0 : P d) :
    P (Dev.timedSyncEff d) := by
  unfold Dev.timedSyncEff
  try dsimp only
  repeat' with_reducible first
    | assumption
    | refine ite_ind ?_ ?_
    | refine hP.dec (by decide) _ _ ?_
    | refine Dev.count_ind hP (by decide) (by decide) ?_
    | split

theorem Dev.decFrame_ind {P : Dev → Prop} (hP : Closed P 0x800 0x100400000000000000000000000000000) {d : Dev} {c : Nat} {f : Frame} {u : Nat} (hd0 : P d) :
    P (Dev.decFrame d c f u) := by
  unfold Dev.decFrame
  try dsimp only
  repeat' with_reducible first
    | assumption
    | (intro _; intros; try dsimp only)
    | refine ite_ind ?_ ?_
    | refine Dev.decStart_ind (hP.mono (by decide) (by decide)) ?_
    | refine Dev.updDec_ind (hP.mono (by decide) (by decide)) ?_
    | split

end Sys2Proof.Machine
end

