-- ==== Sys2Proof/Laws/IndTally.lean ====
section
/-!
SUPPORT. What the operations of Machine/Tally.lean can change: each keeps every property that is closed under changes of its
parts and writes of its register families.
-/
namespace Sys2Proof.Machine

theorem Dev.foldPoint_ind {P : Dev → Prop} (hP : Closed P 0x18011000 0x0) {d : Dev} {j : Nat} {halve : Bool} {i : Nat} {x : Int} (hd0 : P d) :
    P (Dev.foldPoint d j halve i x) := by
  unfold Dev.foldPoint
  try dsimp only
  repeat' with_reducible first
    | assumption
    | refine ite_ind ?_ ?_
    | refine Dev.storeWrite_ind (hP.mono (by decide) (by decide)) ?_

theorem Dev.binAdd_ind {P : Dev → Prop} (hP : Closed P 0x18011000 0x0) {d : Dev} {j : Nat} {c : Nat} {r : Nat} {v : Int} (hd0 : P d) :
    P (Dev.binAdd d j c r v) := by
  unfold Dev.binAdd
  try dsimp only
  repeat' with_reducible first
    | assumption
    | refine Dev.storeWrite_ind (hP.mono (by decide) (by decide)) ?_

theorem Dev.binSpan_ind {P : Dev → Prop} (hP : Closed P 0x18011000 0x0) {d : Dev} {j : Nat} {c : Nat} {lo : Nat} {hi : Nat} (hd0 : P d) :
    P (Dev.binSpan d j c lo hi) := by
  unfold Dev.binSpan
  try dsimp only
  repeat' with_reducible first
    | assumption
    | refine ite_ind ?_ ?_
    | refine Dev.binAdd_ind (hP.mono (by decide) (by decide)) ?_

theorem Dev.tallyPoint_ind {P : Dev → Prop} (hP : Closed P 0x18011000 0x0) {d : Dev} {j : Nat} {r : TallyRec} {x : Int} (h : P d) :
    P (d.tallyPoint j r x).1 := by
  unfold Dev.tallyPoint
  dsimp only
  refine ite_fst ?_ (ite_fst (ite_fst ?_ h) ?_)
  · dsimp only
    exact Dev.storeWrite_ind (hP.mono (by decide) (by decide)) h
  · dsimp only
    exact Dev.binSpan_ind (hP.mono (by decide) (by decide)) h
  · dsimp only
    exact Dev.foldPoint_ind (hP.mono (by decide) (by decide)) h

theorem Dev.talStopped_ind {P : Dev → Prop} (hP : Closed P 0x81000 0x10000000000000000000000000000000000000) {d : Dev} {j : Nat} {reason : Nat} (hd0 : P d) :
    P (Dev.talStopped d j reason) := by
  unfold Dev.talStopped
  try dsimp only
  repeat' with_reducible first
    | assumption
    | (intro _; intros; try dsimp only)
    | refine Dev.put_ind hP (by decide) ?_
    | refine Dev.updJob_ind (hP.mono (by decide) (by decide)) ?_
    | refine Dev.raise_ind (hP.mono (by decide) (by decide)) ?_
    | split

theorem Dev.talFold_ind {P : Dev → Prop} (hP : Closed P 0x18011000 0x0) {d : Dev} {j : Nat} (hd0 : P d) :
    P (Dev.talFold d j) := by
  unfold Dev.talFold
  try dsimp only
  repeat' with_reducible first
    | assumption
    | refine foldl_ind ?_ ?_
    | (intro _; intros; try dsimp only)
    | refine ite_ind ?_ ?_
    | refine Dev.foldPoint_ind (hP.mono (by decide) (by decide)) ?_
    | refine Dev.updJob_ind (hP.mono (by decide) (by decide)) ?_
    | split

theorem Dev.talCut_ind {P : Dev → Prop} (hP : Closed P 0x18011000 0x80000000000000000000000000000000000000) {d : Dev} {j : Nat} (hd0 : P d) :
    P (Dev.talCut d j) := by
  unfold Dev.talCut
  try dsimp only
  repeat' with_reducible first
    | assumption
    | (intro _; intros; try dsimp only)
    | refine ite_ind ?_ ?_
    | refine Dev.talFold_ind (hP.mono (by decide) (by decide)) ?_
    | refine Dev.binSpan_ind (hP.mono (by decide) (by decide)) ?_
    | refine Dev.put_ind hP (by decide) ?_
    | split

theorem Dev.halveColumns_ind {P : Dev → Prop} (hP : Closed P 0x18011000 0x0) {d : Dev} {j : Nat} {n : Nat} (hd0 : P d) :
    P (Dev.halveColumns d j n) := by
  unfold Dev.halveColumns
  try dsimp only
  repeat' with_reducible first
    | assumption
    | refine foldl_ind ?_ ?_
    | refine foldl_fst ?_ ?_
    | refine foldl_snd ?_ ?_
    | (intro _; intros; try dsimp only)
    | refine ite_fst ?_ ?_
    | refine ite_snd ?_ ?_
    | refine Dev.storeWrite_ind (hP.mono (by decide) (by decide)) ?_
    | split

theorem Dev.talComplete_ind {P : Dev → Prop} (hP : Closed P 0x81000 0x70000000000000000000000000000000000000) {d : Dev} {j : Nat} (hd0 : P d) :
    P (Dev.talComplete d j) := by
  unfold Dev.talComplete
  try dsimp only
  repeat' with_reducible first
    | assumption
    | (intro _; intros; try dsimp only)
    | refine ite_ind ?_ ?_
    | refine Dev.updJob_ind (hP.mono (by decide) (by decide)) ?_
    | refine Dev.bump_ind hP (by decide) ?_
    | refine Dev.put_ind hP (by decide) ?_
    | refine Dev.putb_ind hP (by decide) ?_
    | refine Dev.raise_ind (hP.mono (by decide) (by decide)) ?_
    | refine Dev.talStopped_ind (hP.mono (by decide) (by decide)) ?_
    | split

theorem Dev.talTake_ind {P : Dev → Prop} (hP : Closed P 0x18011000 0x0) {d e : Dev} {j : Nat} {r q : TallyRec} {f : Frame} (h : P d)
    (he : d.talTake j r f = some (e, q)) : P e := by
  unfold Dev.talTake at he
  dsimp only at he
  split at he
  · cases he
    exact h
  · split at he
    · cases he
    · have hf : ∀ (xs : List Int) (y : Dev × TallyRec), P y.1 →
          P (xs.foldl (fun (y : Dev × TallyRec) x => y.1.tallyPoint j y.2 x) y).1 := by
        intro xs
        induction xs with
        | nil => exact fun _ hy => hy
        | cons x t ih => exact fun y hy => ih _ (Dev.tallyPoint_ind (hP.mono (by decide) (by decide)) hy)
      have := hf ((f.samples.drop (r.a + r.folded - f.k * 64)).take (r.points - r.folded))
        (d, { r with degraded := r.degraded || f.degraded, holdover := r.holdover || f.holdover }) h
      cases he
      refine ite_ind ?_ this
      exact Dev.updJob_ind (hP.mono (by decide) (by decide)) this

theorem Dev.talLost_ind {P : Dev → Prop} (hP : Closed P 0x18091000 0xf0000000000000000000000000000000000000) {d : Dev} {j : Nat} {before : Nat} (hd0 : P d) :
    P (Dev.talLost d j before) := by
  unfold Dev.talLost
  try dsimp only
  repeat' with_reducible first
    | assumption
    | refine foldl_ind ?_ ?_
    | (intro _; intros; try dsimp only)
    | refine ite_ind ?_ ?_
    | refine Dev.talComplete_ind (hP.mono (by decide) (by decide)) ?_
    | refine Dev.talCut_ind (hP.mono (by decide) (by decide)) ?_
    | refine Dev.talStopped_ind (hP.mono (by decide) (by decide)) ?_
    | split

theorem Dev.talFrames_ind {P : Dev → Prop} (hP : Closed P 0x18091000 0xf0000000000000000000000000000000000000) {d : Dev} {j : Nat} {f : Frame} {acc l : List TallyRec}
    (h : P d) : P (d.talFrames j f acc l) := by
  induction l generalizing d acc with
  | nil => exact Dev.updJob_ind (hP.mono (by decide) (by decide)) h
  | cons r t ih =>
    unfold Dev.talFrames
    split
    · next he => exact ih (Dev.talTake_ind (hP.mono (by decide) (by decide)) h he)
    · exact Dev.talLost_ind (hP.mono (by decide) (by decide)) (Dev.updJob_ind (hP.mono (by decide) (by decide)) h)

theorem Dev.tallyFrame_ind {P : Dev → Prop} (hP : Closed P 0x18091000 0xf0000000000000000000000000000000000000) {d : Dev} {c : Nat} {f : Frame} {j : Nat} (hd0 : P d) :
    P (Dev.tallyFrame d c f j) := by
  unfold Dev.tallyFrame
  try dsimp only
  repeat' with_reducible first
    | assumption
    | refine ite_ind ?_ ?_
    | refine Dev.talFold_ind (hP.mono (by decide) (by decide)) ?_
    | refine Dev.talFrames_ind (hP.mono (by decide) (by decide)) ?_

theorem Dev.talCatchUp_ind {P : Dev → Prop} (hP : Closed P 0x18091000 0xf0000000000000000000000000000000000000) {d : Dev} {j : Nat} {l : List Frame} (h : P d) :
    P (d.talCatchUp j l) := by
  induction l generalizing d with
  | nil => exact h
  | cons f t ih =>
    unfold Dev.talCatchUp
    split
    · exact h
    · split
      · next he => exact ih (Dev.updJob_ind (hP.mono (by decide) (by decide)) (Dev.talTake_ind (hP.mono (by decide) (by decide)) h he))
      · exact Dev.talLost_ind (hP.mono (by decide) (by decide)) h

theorem Dev.talSkip_ind {P : Dev → Prop} {c g : Nat} (hP : Closed P c g) {d : Dev} {j : Nat} {f : Fld}
    (hc : c.testBit 19 = true) (hg : g.testBit f.g.ctorIdx = true) (hs : g.testBit Rg.GLB_CNT_SAT.ctorIdx = true)
    (h : P d) : P (d.talSkip j f) :=
  Dev.raiseHeld_ind (hP.mono (testBit_mask hc) (Nat.zero_or _)) (Dev.count_ind hP hg hs h)

theorem Dev.tallyTriggerEff_ind {P : Dev → Prop} (hP : Closed P 0x18091000 0x80000000000000000000000000000000000000000000000007f0000000000000000000000000000000000000) {j : Nat} {d : Dev} (hd0 : P d) :
    P (Dev.tallyTriggerEff j d) := by
  unfold Dev.tallyTriggerEff
  try dsimp only
  repeat' with_reducible first
    | assumption
    | (intro _; intros; try dsimp only)
    | refine ite_ind ?_ ?_
    | refine Dev.updJob_ind (hP.mono (by decide) (by decide)) ?_
    | refine Dev.talSkip_ind hP (by decide) (by decide) (by decide) ?_
    | refine Dev.talCatchUp_ind (hP.mono (by decide) (by decide)) ?_
    | split

theorem Dev.talFinish_ind {P : Dev → Prop} (hP : Closed P 0x18091009 0x70000000000000000000000000000000000000) {d : Dev} {j : Nat} {outer : Bool} (hd0 : P d) :
    P (Dev.talFinish d j outer) := by
  unfold Dev.talFinish
  try dsimp only
  repeat' with_reducible first
    | assumption
    | refine ite_ind ?_ ?_
    | refine Dev.advanceTo_ind (hP.mono (by decide) (by decide)) ?_
    | refine Dev.talFold_ind (hP.mono (by decide) (by decide)) ?_
    | refine Dev.talComplete_ind (hP.mono (by decide) (by decide)) ?_
    | split

theorem Dev.tallyRecordCompleteEff_ind {P : Dev → Prop} (hP : Closed P 0x18091009 0x70000000000000000000000000000000000000) {j : Nat} {d : Dev} (hd0 : P d) :
    P (Dev.tallyRecordCompleteEff j d) := by
  unfold Dev.tallyRecordCompleteEff
  try dsimp only
  repeat' with_reducible first
    | assumption
    | refine Dev.talFinish_ind (hP.mono (by decide) (by decide)) ?_

theorem Dev.foldCompleteEff_ind {P : Dev → Prop} (hP : Closed P 0x18091009 0x70000000000000000000000000000000000000) {j : Nat} {d : Dev} (hd0 : P d) :
    P (Dev.foldCompleteEff j d) := by
  unfold Dev.foldCompleteEff
  try dsimp only
  repeat' with_reducible first
    | assumption
    | refine Dev.talFinish_ind (hP.mono (by decide) (by decide)) ?_

theorem Dev.tallyStartEff_ind {P : Dev → Prop} (hP : Closed P 0x8091000 0xc0000000000000000000000000000000000000002d0000000000000000000040f0000000000000000000000000000000000000) {j : Nat} {clr : Bool} {d : Dev} (hd0 : P d) :
    P (Dev.tallyStartEff j clr d) := by
  unfold Dev.tallyStartEff
  try dsimp only
  repeat' with_reducible first
    | assumption
    | (intro _; intros; try dsimp only)
    | refine ite_ind ?_ ?_
    | refine Dev.put_ind hP (by decide) ?_
    | refine Dev.updJob_ind (hP.mono (by decide) (by decide)) ?_
    | refine Dev.raise_ind (hP.mono (by decide) (by decide)) ?_
    | refine Dev.putb_ind hP (by decide) ?_
    | refine Dev.retireRecheck_ind (hP.mono (by decide) (by decide)) ?_
    | split

theorem Dev.talClear_ind {P : Dev → Prop} (hP : Closed P 0x18011000 0x0) {d : Dev} {j : Nat} {lo : Nat} {hi : Nat} (hd0 : P d) :
    P (Dev.talClear d j lo hi) := by
  unfold Dev.talClear
  try dsimp only
  repeat' with_reducible first
    | assumption
    | refine foldl_ind ?_ ?_
    | refine foldl_fst ?_ ?_
    | refine foldl_snd ?_ ?_
    | (intro _; intros; try dsimp only)
    | refine ite_ind ?_ ?_
    | refine ite_fst ?_ ?_
    | refine ite_snd ?_ ?_
    | refine Dev.storeWrite_ind (hP.mono (by decide) (by decide)) ?_
    | refine hP.ben (by decide) _ _ (Bench.keeps_of (by first | exact Memory.keeps_refl _ | exact Memory.keeps_store (by decide) _ _ _ | exact Memory.keeps_nil (by decide) _ | exact Memory.keeps_filter (by decide) _ _)
        (by first | exact Memory.keeps_refl _ | exact Memory.keeps_store (by decide) _ _ _ | exact Memory.keeps_filter (by decide) _ _)) ?_
    | refine hP.tal (by decide) _ _ (by first | exact Memory.keeps_refl _ | exact Memory.keeps_store (by decide) _ _ _ | exact Memory.keeps_filter (by decide) _ _ | exact Memory.keeps_nil (by decide) _) ?_
    | split

theorem Dev.talClearing_ind {P : Dev → Prop} (hP : Closed P 0x18011000 0x0) {d : Dev} {j : Nat} (hd0 : P d) :
    P (Dev.talClearing d j) := by
  unfold Dev.talClearing
  try dsimp only
  repeat' with_reducible first
    | assumption
    | (intro _; intros; try dsimp only)
    | refine ite_ind ?_ ?_
    | refine Dev.talClear_ind (hP.mono (by decide) (by decide)) ?_
    | refine Dev.updJob_ind (hP.mono (by decide) (by decide)) ?_
    | split

theorem Dev.talBanksOn_ind {P : Dev → Prop} (hP : Closed P 0x1000 0x0) {d : Dev} {j : Nat} (hd0 : P d) :
    P (Dev.talBanksOn d j) := by
  unfold Dev.talBanksOn
  try dsimp only
  repeat' with_reducible first
    | assumption
    | (intro _; intros; try dsimp only)
    | refine ite_ind ?_ ?_
    | refine Dev.updJob_ind (hP.mono (by decide) (by decide)) ?_
    | split

theorem Dev.tallyClearDoneEff_ind {P : Dev → Prop} (hP : Closed P 0x18091009 0x10000000000000000000000000000000000000) {j : Nat} {d : Dev} (hd0 : P d) :
    P (Dev.tallyClearDoneEff j d) := by
  unfold Dev.tallyClearDoneEff
  try dsimp only
  repeat' with_reducible first
    | assumption
    | (intro _; intros; try dsimp only)
    | refine ite_ind ?_ ?_
    | refine Dev.advanceTo_ind (hP.mono (by decide) (by decide)) ?_
    | refine Dev.talClearing_ind (hP.mono (by decide) (by decide)) ?_
    | refine Dev.put_ind hP (by decide) ?_
    | refine Dev.updJob_ind (hP.mono (by decide) (by decide)) ?_
    | split

theorem Dev.talWrites_ind {P : Dev → Prop} (hP : Closed P 0x18011000 0x0) {d : Dev} {j : Nat} (hd0 : P d) :
    P (Dev.talWrites d j) := by
  unfold Dev.talWrites
  try dsimp only
  repeat' with_reducible first
    | assumption
    | refine Dev.talClearing_ind (hP.mono (by decide) (by decide)) ?_
    | refine Dev.talFold_ind (hP.mono (by decide) (by decide)) ?_
    | refine Dev.halveColumns_ind (hP.mono (by decide) (by decide)) ?_

theorem Dev.tallyStopEff_ind {P : Dev → Prop} (hP : Closed P 0x18091000 0xf0000000000000000000000000000000000000) {j : Nat} {d : Dev} (hd0 : P d) :
    P (Dev.tallyStopEff j d) := by
  unfold Dev.tallyStopEff
  try dsimp only
  repeat' with_reducible first
    | assumption
    | refine ite_ind ?_ ?_
    | refine Dev.talFold_ind (hP.mono (by decide) (by decide)) ?_
    | refine Dev.talComplete_ind (hP.mono (by decide) (by decide)) ?_
    | refine Dev.talWrites_ind (hP.mono (by decide) (by decide)) ?_
    | refine Dev.talCut_ind (hP.mono (by decide) (by decide)) ?_
    | refine Dev.talStopped_ind (hP.mono (by decide) (by decide)) ?_
    | split

theorem Dev.tallyPauseEff_ind {P : Dev → Prop} (hP : Closed P 0x1000 0x0) {j : Nat} {d : Dev} (hd0 : P d) :
    P (Dev.tallyPauseEff j d) := by
  unfold Dev.tallyPauseEff
  try dsimp only
  repeat' with_reducible first
    | assumption
    | (intro _; intros; try dsimp only)
    | refine ite_ind ?_ ?_
    | refine Dev.updJob_ind (hP.mono (by decide) (by decide)) ?_
    | split

theorem Dev.tallyPausedEff_ind {P : Dev → Prop} (hP : Closed P 0x1000 0x10000000000000000000000000000000000000) {j : Nat} {d : Dev} (hd0 : P d) :
    P (Dev.tallyPausedEff j d) := by
  unfold Dev.tallyPausedEff
  try dsimp only
  repeat' with_reducible first
    | assumption
    | (intro _; intros; try dsimp only)
    | refine ite_ind ?_ ?_
    | refine Dev.put_ind hP (by decide) ?_
    | refine Dev.updJob_ind (hP.mono (by decide) (by decide)) ?_
    | split

theorem Dev.tallyResumeEff_ind {P : Dev → Prop} (hP : Closed P 0x1000 0x10000000000000000000000000000000000000) {j : Nat} {d : Dev} (hd0 : P d) :
    P (Dev.tallyResumeEff j d) := by
  unfold Dev.tallyResumeEff
  try dsimp only
  repeat' with_reducible first
    | assumption
    | (intro _; intros; try dsimp only)
    | refine ite_ind ?_ ?_
    | refine Dev.put_ind hP (by decide) ?_
    | refine Dev.updJob_ind (hP.mono (by decide) (by decide)) ?_
    | split

theorem Dev.halvingDoneEff_ind {P : Dev → Prop} (hP : Closed P 0x18091009 0x20000000000000000000000000000000000000) {j : Nat} {d : Dev} (hd0 : P d) :
    P (Dev.halvingDoneEff j d) := by
  unfold Dev.halvingDoneEff
  try dsimp only
  repeat' with_reducible first
    | assumption
    | (intro _; intros; try dsimp only)
    | refine Dev.advanceTo_ind (hP.mono (by decide) (by decide)) ?_
    | refine Dev.halveColumns_ind (hP.mono (by decide) (by decide)) ?_
    | refine Dev.put_ind hP (by decide) ?_
    | refine Dev.updJob_ind (hP.mono (by decide) (by decide)) ?_
    | split

theorem Dev.laneMaskFail_ind {P : Dev → Prop} (hP : Closed P 0x40400 0x0) {d : Dev} {l : Nat} {r : TallyRec} {k : Nat} (hd0 : P d) :
    P (Dev.laneMaskFail d l r k) := by
  unfold Dev.laneMaskFail
  try dsimp only
  repeat' with_reducible first
    | assumption
    | (intro _; intros; try dsimp only)
    | refine ite_ind ?_ ?_
    | refine Dev.updLane_ind (hP.mono (by decide) (by decide)) ?_
    | refine Dev.post_ind (hP.mono (by decide) (by decide)) ?_
    | split

theorem Dev.maskVerdictEff_ind {P : Dev → Prop} (hP : Closed P 0xc5609 0x8000000000000000000000000000000000000000000000001810000000000000000000000000000000000000) {j : Nat} {d : Dev} (hd0 : P d) :
    P (Dev.maskVerdictEff j d) := by
  unfold Dev.maskVerdictEff
  try dsimp only
  repeat' with_reducible first
    | assumption
    | (intro _; intros; try dsimp only)
    | refine ite_ind ?_ ?_
    | refine Dev.advanceTo_ind (hP.mono (by decide) (by decide)) ?_
    | refine Dev.updJob_ind (hP.mono (by decide) (by decide)) ?_
    | refine Dev.count_ind hP (by decide) (by decide) ?_
    | refine Dev.toUnits_ind (hP.mono (by decide) (by decide)) ?_
    | refine Dev.laneMaskFail_ind (hP.mono (by decide) (by decide)) ?_
    | refine Dev.raiseHeld_ind (hP.mono (by decide) (by decide)) ?_
    | refine Dev.laneMaskStop_ind (hP.mono (by decide) (by decide)) ?_
    | refine Dev.talStopped_ind (hP.mono (by decide) (by decide)) ?_
    | split

theorem Dev.tallyMaskStopEff_ind {P : Dev → Prop} (hP : Closed P 0x18091000 0x18090000000000000000000000000000000000000) {j : Nat} {d : Dev} (hd0 : P d) :
    P (Dev.tallyMaskStopEff j d) := by
  unfold Dev.tallyMaskStopEff
  try dsimp only
  repeat' with_reducible first
    | assumption
    | (intro _; intros; try dsimp only)
    | refine ite_ind ?_ ?_
    | refine Dev.wr128_ind hP (by decide) ?_
    | refine Dev.putb_ind hP (by decide) ?_
    | refine Dev.put_ind hP (by decide) ?_
    | refine Dev.talCut_ind (hP.mono (by decide) (by decide)) ?_
    | refine Dev.talStopped_ind (hP.mono (by decide) (by decide)) ?_
    | split

theorem Dev.tallySpaceWriteEff_ind {P : Dev → Prop} (hP : Closed P 0x10001000 0x8000000000000000000000000000000000000000000000020000000000000000000000000000000000000000) {ofs : Nat} {data : List Byte} {d : Dev} (hd0 : P d) :
    P (Dev.tallySpaceWriteEff ofs data d) := by
  unfold Dev.tallySpaceWriteEff
  try dsimp only
  repeat' with_reducible first
    | assumption
    | refine ite_ind ?_ ?_
    | refine Dev.count_ind hP (by decide) (by decide) ?_
    | refine hP.tal (by decide) _ _ (by first | exact Memory.keeps_refl _ | exact Memory.keeps_store (by decide) _ _ _ | exact Memory.keeps_filter (by decide) _ _ | exact Memory.keeps_nil (by decide) _) ?_

end Sys2Proof.Machine
end

