-- ==== Sys2Proof/Laws/IndSlices.lean ====
section
/-!
SUPPORT. What the operations of Machine/Slices.lean can change: each keeps every property that is closed under changes of its
parts and writes of its register families.
-/
namespace Sys2Proof.Machine

theorem Dev.updSlice_ind {P : Dev → Prop} (hP : Closed P 0x80 0x0) {d : Dev} {n : Nat} {f : Slice → Slice} (hd0 : P d) :
    P (Dev.updSlice d n f) := by
  unfold Dev.updSlice
  try dsimp only
  repeat' with_reducible first
    | assumption
    | refine hP.slice (by decide) _ _ ?_

theorem Dev.updGroup_ind {P : Dev → Prop} (hP : Closed P 0x80 0x0) {d : Dev} {n : Nat} {h : Nat} {f : Group → Group} (hd0 : P d) :
    P (Dev.updGroup d n h f) := by
  unfold Dev.updGroup
  try dsimp only
  repeat' with_reducible first
    | assumption
    | (intro _; intros; try dsimp only)
    | refine Dev.updSlice_ind (hP.mono (by decide) (by decide)) ?_
    | split

theorem Dev.setSubBit_ind {P : Dev → Prop} {c g : Nat} (hP : Closed P c g) {d : Dev} {n p : Nat} {b : Bool} {f : Fld}
    (hg : g.testBit f.g.ctorIdx = true) (h : P d) : P (d.setSubBit f n p b) := Dev.put_ind hP hg h

theorem Dev.tableWindowWriteEff_ind {P : Dev → Prop} (hP : Closed P 0x80 0x80000000000000000000000000000000000000000000000000000000000000000000000000000000010c0000) {n : Nat} {off : Nat} {v : W32} {d : Dev} (hd0 : P d) :
    P (Dev.tableWindowWriteEff n off v d) := by
  unfold Dev.tableWindowWriteEff
  try dsimp only
  repeat' with_reducible first
    | assumption
    | (intro _; intros; try dsimp only)
    | refine ite_ind ?_ ?_
    | refine Dev.count_ind hP (by decide) (by decide) ?_
    | refine Dev.updSlice_ind (hP.mono (by decide) (by decide)) ?_
    | refine Dev.setSubBit_ind hP (by decide) ?_
    | refine Dev.putb_ind hP (by decide) ?_
    | split

theorem Dev.tblRefuse_ind {P : Dev → Prop} (hP : Closed P 0x80000 0x80000000000000000000000000000000000000000000000000000000000000000000000000000000000c0000) {d : Dev} {n : Nat} {why : Nat} (hd0 : P d) :
    P (Dev.tblRefuse d n why) := by
  unfold Dev.tblRefuse
  try dsimp only
  repeat' with_reducible first
    | assumption
    | refine Dev.put_ind hP (by decide) ?_
    | refine Dev.count_ind hP (by decide) (by decide) ?_
    | refine Dev.raise_ind (hP.mono (by decide) (by decide)) ?_

theorem Dev.tableCommit_ind {P : Dev → Prop} (hP : Closed P 0x80080 0x80000000000000000000000000000000000000000000000000000000000000000000000000000000000c0000) {d : Dev} {n : Nat} {sub : Bool} {tim : Bool} {rot : Option Nat} (hd0 : P d) :
    P (Dev.tableCommit d n sub tim rot) := by
  unfold Dev.tableCommit
  try dsimp only
  repeat' with_reducible first
    | assumption
    | (intro _; intros; try dsimp only)
    | refine ite_ind ?_ ?_
    | refine Dev.tblRefuse_ind (hP.mono (by decide) (by decide)) ?_
    | refine Dev.putb_ind hP (by decide) ?_
    | refine Dev.updSlice_ind (hP.mono (by decide) (by decide)) ?_
    | split

theorem Dev.commitEffectEff_ind {P : Dev → Prop} (hP : Closed P 0x80009 0x0) {n : Nat} {d : Dev} (hd0 : P d) :
    P (Dev.commitEffectEff n d) := by
  unfold Dev.commitEffectEff
  try dsimp only
  repeat' with_reducible first
    | assumption
    | refine Dev.advanceTo_ind (hP.mono (by decide) (by decide)) ?_
    | split

theorem Dev.setSlots_ind {P : Dev → Prop} (hP : Closed P 0x0 0x8000) {d : Dev} {n : Nat} {h : Nat} {l : List Nat} (hd0 : P d) :
    P (Dev.setSlots d n h l) := by
  unfold Dev.setSlots
  try dsimp only
  repeat' with_reducible first
    | assumption
    | (intro _; intros; try dsimp only)
    | refine Dev.put_ind hP (by decide) ?_
    | split

theorem Dev.sliceFlags_ind {P : Dev → Prop} (hP : Closed P 0x80000 0x10) {d : Dev} {n : Nat} (hd0 : P d) :
    P (Dev.sliceFlags d n) := by
  unfold Dev.sliceFlags
  try dsimp only
  repeat' with_reducible first
    | assumption
    | (intro _; intros; try dsimp only)
    | refine ite_ind ?_ ?_
    | refine Dev.put_ind hP (by decide) ?_
    | refine Dev.putb_ind hP (by decide) ?_
    | refine Dev.raise_ind (hP.mono (by decide) (by decide)) ?_
    | split

theorem Dev.showService_ind {P : Dev → Prop} (hP : Closed P 0x0 0x4000) {d : Dev} {n : Nat} {h : Nat} (hd0 : P d) :
    P (Dev.showService d n h) := by
  unfold Dev.showService
  try dsimp only
  repeat' with_reducible first
    | assumption
    | refine Dev.put_ind hP (by decide) ?_

theorem Dev.setGroup_ind {P : Dev → Prop} (hP : Closed P 0x0 0xc000) {d : Dev} {n : Nat} {h : Nat} {st : Nat} {spare : Nat} {slots : List Nat} (hd0 : P d) :
    P (Dev.setGroup d n h st spare slots) := by
  unfold Dev.setGroup
  try dsimp only
  repeat' with_reducible first
    | assumption
    | refine Dev.put_ind hP (by decide) ?_
    | refine Dev.setSlots_ind (hP.mono (by decide) (by decide)) ?_
    | refine Dev.showService_ind (hP.mono (by decide) (by decide)) ?_

theorem Dev.markFailed_ind {P : Dev → Prop} (hP : Closed P 0x0 0x4000) {d : Dev} {n : Nat} {h : Nat} {u : Nat} (hd0 : P d) :
    P (Dev.markFailed d n h u) := by
  unfold Dev.markFailed
  try dsimp only
  repeat' with_reducible first
    | assumption
    | refine Dev.put_ind hP (by decide) ?_

theorem Dev.suspectMark_ind {P : Dev → Prop} (hP : Closed P 0x1c10 0x0) {d : Dev} {n : Nat} {a : Nat} {b : Nat} (hd0 : P d) :
    P (Dev.suspectMark d n a b) := by
  unfold Dev.suspectMark
  try dsimp only
  repeat' with_reducible first
    | assumption
    | refine foldl_ind ?_ ?_
    | (intro _; intros; try dsimp only)
    | refine ite_ind ?_ ?_
    | refine hP.path (by decide) _ _ ?_
    | refine Dev.updLane_ind (hP.mono (by decide) (by decide)) ?_
    | refine Dev.updDec_ind (hP.mono (by decide) (by decide)) ?_
    | refine Dev.updJob_ind (hP.mono (by decide) (by decide)) ?_
    | split

theorem Dev.suspectLoad_ind {P : Dev → Prop} (hP : Closed P 0x81c90 0x3800) {d : Dev} {n : Nat} {a : Nat} {b : Nat} (hd0 : P d) :
    P (Dev.suspectLoad d n a b) := by
  unfold Dev.suspectLoad
  try dsimp only
  repeat' with_reducible first
    | assumption
    | (intro _; intros; try dsimp only)
    | refine Dev.put_ind hP (by decide) ?_
    | refine Dev.bump_ind hP (by decide) ?_
    | refine Dev.raise_ind (hP.mono (by decide) (by decide)) ?_
    | refine Dev.updSlice_ind (hP.mono (by decide) (by decide)) ?_
    | refine Dev.suspectMark_ind (hP.mono (by decide) (by decide)) ?_
    | split

theorem Dev.monitorWindowEndEff_ind {P : Dev → Prop} (hP : Closed P 0x81c99 0x7800) {n : Nat} {h : Nat} {outside : Nat} {d : Dev} (hd0 : P d) :
    P (Dev.monitorWindowEndEff n h outside d) := by
  unfold Dev.monitorWindowEndEff
  try dsimp only
  repeat' with_reducible first
    | assumption
    | refine foldl_ind ?_ ?_
    | (intro _; intros; try dsimp only)
    | refine ite_ind ?_ ?_
    | refine Dev.advanceTo_ind (hP.mono (by decide) (by decide)) ?_
    | refine Dev.markFailed_ind (hP.mono (by decide) (by decide)) ?_
    | refine Dev.showService_ind (hP.mono (by decide) (by decide)) ?_
    | refine Dev.updGroup_ind (hP.mono (by decide) (by decide)) ?_
    | refine Dev.suspectLoad_ind (hP.mono (by decide) (by decide)) ?_
    | split

theorem Dev.statsBegin_ind {P : Dev → Prop} (hP : Closed P 0x80 0x0) {d : Dev} {n : Nat} {h : Nat} (hd0 : P d) :
    P (Dev.statsBegin d n h) := by
  unfold Dev.statsBegin
  try dsimp only
  repeat' with_reducible first
    | assumption
    | (intro _; intros; try dsimp only)
    | refine Dev.updGroup_ind (hP.mono (by decide) (by decide)) ?_
    | split

theorem Dev.sparingTransitionEff_ind {P : Dev → Prop} (hP : Closed P 0x80089 0xc010) {n : Nat} {h : Nat} {d : Dev} (hd0 : P d) :
    P (Dev.sparingTransitionEff n h d) := by
  unfold Dev.sparingTransitionEff
  try dsimp only
  repeat' with_reducible first
    | assumption
    | (intro _; intros; try dsimp only)
    | refine ite_ind ?_ ?_
    | refine ite_fst ?_ ?_
    | refine ite_snd ?_ ?_
    | refine Dev.advanceTo_ind (hP.mono (by decide) (by decide)) ?_
    | refine Dev.updGroup_ind (hP.mono (by decide) (by decide)) ?_
    | refine Dev.setGroup_ind (hP.mono (by decide) (by decide)) ?_
    | refine Dev.statsBegin_ind (hP.mono (by decide) (by decide)) ?_
    | refine Dev.raise_ind (hP.mono (by decide) (by decide)) ?_
    | refine Dev.sliceFlags_ind (hP.mono (by decide) (by decide)) ?_
    | split

theorem Dev.writePage_ind {P : Dev → Prop} (hP : Closed P 0x80 0x80000000000000000000000000000000000000000000000000000000000000000000000000000000010c0000) {d : Dev} {n : Nat} {p : Nat} {page : List Nat} (hd0 : P d) :
    P (Dev.writePage d n p page) := by
  unfold Dev.writePage
  try dsimp only
  repeat' with_reducible first
    | assumption
    | refine foldl_ind ?_ ?_
    | (intro _; intros; try dsimp only)
    | refine Dev.tableWindowWriteEff_ind (hP.mono (by decide) (by decide)) ?_
    | split

theorem Dev.rotNext_ind {P : Dev → Prop} (hP : Closed P 0x80 0x0) {d : Dev} {n : Nat} {h : Nat} (hd0 : P d) :
    P (Dev.rotNext d n h) := by
  unfold Dev.rotNext
  try dsimp only
  repeat' with_reducible first
    | assumption
    | (intro _; intros; try dsimp only)
    | refine ite_ind ?_ ?_
    | refine Dev.updSlice_ind (hP.mono (by decide) (by decide)) ?_
    | refine Dev.updGroup_ind (hP.mono (by decide) (by decide)) ?_
    | split

theorem Dev.rotationEff_ind {P : Dev → Prop} (hP : Closed P 0x80089 0xc000000000000080000000000000000000000000000000000000000000000000000000000000000000000000000000014c0000) {n : Nat} {h : Nat} {d : Dev} (hd0 : P d) :
    P (Dev.rotationEff n h d) := by
  unfold Dev.rotationEff
  try dsimp only
  repeat' with_reducible first
    | assumption
    | refine ite_ind ?_ ?_
    | refine Dev.advanceTo_ind (hP.mono (by decide) (by decide)) ?_
    | refine Dev.rotNext_ind (hP.mono (by decide) (by decide)) ?_
    | refine Dev.writePage_ind (hP.mono (by decide) (by decide)) ?_
    | refine Dev.put_ind hP (by decide) ?_
    | refine Dev.tableCommit_ind (hP.mono (by decide) (by decide)) ?_
    | refine Dev.decision_ind (hP.mono (by decide) (by decide)) ?_

theorem Dev.subconverterSwapEff_ind {P : Dev → Prop} (hP : Closed P 0x80089 0xc100) {n : Nat} {h : Nat} {d : Dev} (hd0 : P d) :
    P (Dev.subconverterSwapEff n h d) := by
  unfold Dev.subconverterSwapEff
  try dsimp only
  repeat' with_reducible first
    | assumption
    | (intro _; intros; try dsimp only)
    | refine Dev.advanceTo_ind (hP.mono (by decide) (by decide)) ?_
    | refine Dev.updGroup_ind (hP.mono (by decide) (by decide)) ?_
    | refine Dev.setGroup_ind (hP.mono (by decide) (by decide)) ?_
    | refine Dev.bump_ind hP (by decide) ?_
    | refine Dev.raise_ind (hP.mono (by decide) (by decide)) ?_
    | split

theorem Dev.roleSwitch_ind {P : Dev → Prop} (hP : Closed P 0x0 0xa40000) {d : Dev} {n : Nat} {c : Commit} (hd0 : P d) :
    P (Dev.roleSwitch d n c) := by
  unfold Dev.roleSwitch
  try dsimp only
  repeat' with_reducible first
    | assumption
    | refine foldl_ind ?_ ?_
    | (intro _; intros; try dsimp only)
    | refine ite_ind ?_ ?_
    | refine Dev.setSubBit_ind hP (by decide) ?_
    | refine Dev.put_ind hP (by decide) ?_
    | split

theorem Dev.tblSwitchEff_ind {P : Dev → Prop} (hP : Closed P 0x80089 0xe40000) {n : Nat} {d : Dev} (hd0 : P d) :
    P (Dev.tblSwitchEff n d) := by
  unfold Dev.tblSwitchEff
  try dsimp only
  repeat' with_reducible first
    | assumption
    | refine foldl_ind ?_ ?_
    | (intro _; intros; try dsimp only)
    | refine ite_ind ?_ ?_
    | refine Dev.advanceTo_ind (hP.mono (by decide) (by decide)) ?_
    | refine Dev.roleSwitch_ind (hP.mono (by decide) (by decide)) ?_
    | refine Dev.put_ind hP (by decide) ?_
    | refine Dev.putb_ind hP (by decide) ?_
    | refine Dev.updSlice_ind (hP.mono (by decide) (by decide)) ?_
    | refine Dev.updGroup_ind (hP.mono (by decide) (by decide)) ?_
    | refine Dev.raise_ind (hP.mono (by decide) (by decide)) ?_
    | split

theorem Dev.spareCalibrationDoneEff_ind {P : Dev → Prop} (hP : Closed P 0x80080 0xc010) {n : Nat} {h : Nat} {c : CalData} {d : Dev} (hd0 : P d) :
    P (Dev.spareCalibrationDoneEff n h c d) := by
  unfold Dev.spareCalibrationDoneEff
  try dsimp only
  repeat' with_reducible first
    | assumption
    | (intro _; intros; try dsimp only)
    | refine ite_ind ?_ ?_
    | refine Dev.updGroup_ind (hP.mono (by decide) (by decide)) ?_
    | refine Dev.markFailed_ind (hP.mono (by decide) (by decide)) ?_
    | refine Dev.setGroup_ind (hP.mono (by decide) (by decide)) ?_
    | refine Dev.statsBegin_ind (hP.mono (by decide) (by decide)) ?_
    | refine Dev.sliceFlags_ind (hP.mono (by decide) (by decide)) ?_
    | refine Dev.raise_ind (hP.mono (by decide) (by decide)) ?_
    | split

theorem Dev.failClear_ind {P : Dev → Prop} (hP : Closed P 0x0 0x4200) {d : Dev} {n : Nat} (hd0 : P d) :
    P (Dev.failClear d n) := by
  unfold Dev.failClear
  try dsimp only
  repeat' with_reducible first
    | assumption
    | refine Dev.put_ind hP (by decide) ?_
    | refine hP.wrAt (by decide) ?_

theorem Dev.failClrWriteEff_ind {P : Dev → Prop} (hP : Closed P 0x0 0x4200) {n : Nat} {h : Nat} {umask : Nat} {d : Dev} (hd0 : P d) :
    P (Dev.failClrWriteEff n h umask d) := by
  unfold Dev.failClrWriteEff
  try dsimp only
  repeat' with_reducible first
    | assumption
    | refine ite_ind ?_ ?_
    | refine Dev.put_ind hP (by decide) ?_
    | refine Dev.failClear_ind (hP.mono (by decide) (by decide)) ?_

theorem Dev.sliceEnableEff_ind {P : Dev → Prop} (hP : Closed P 0x82 0x330000000000000000000000000000000000000000000000000000000000000000000000000000000000000008) {n : Nat} {d : Dev} (hd0 : P d) :
    P (Dev.sliceEnableEff n d) := by
  unfold Dev.sliceEnableEff
  try dsimp only
  repeat' with_reducible first
    | assumption
    | refine foldl_ind ?_ ?_
    | refine foldl_fst ?_ ?_
    | refine foldl_snd ?_ ?_
    | (intro _; intros; try dsimp only)
    | refine ite_ind ?_ ?_
    | refine ite_fst ?_ ?_
    | refine ite_snd ?_ ?_
    | refine Dev.testEnd_ind (hP.mono (by decide) (by decide)) ?_
    | refine Dev.putb_ind hP (by decide) ?_
    | refine Dev.updSlice_ind (hP.mono (by decide) (by decide)) ?_
    | split

theorem Dev.sliceReady_ind {P : Dev → Prop} (hP : Closed P 0x80080 0x10) {d : Dev} {n : Nat} {from_ : Nat} (hd0 : P d) :
    P (Dev.sliceReady d n from_) := by
  unfold Dev.sliceReady
  try dsimp only
  repeat' with_reducible first
    | assumption
    | (intro _; intros; try dsimp only)
    | refine Dev.putb_ind hP (by decide) ?_
    | refine Dev.updSlice_ind (hP.mono (by decide) (by decide)) ?_
    | refine Dev.raiseAt_ind (hP.mono (by decide) (by decide)) ?_
    | split

theorem Dev.sliceNotReady_ind {P : Dev → Prop} (hP : Closed P 0x80000 0x10) {d : Dev} {n : Nat} (hd0 : P d) :
    P (Dev.sliceNotReady d n) := by
  unfold Dev.sliceNotReady
  try dsimp only
  repeat' with_reducible first
    | assumption
    | refine ite_ind ?_ ?_
    | refine Dev.putb_ind hP (by decide) ?_
    | refine Dev.raise_ind (hP.mono (by decide) (by decide)) ?_

theorem Dev.groupStart_ind {P : Dev → Prop} (hP : Closed P 0x80080 0xc000) {d : Dev} {n : Nat} {h : Nat} (hd0 : P d) :
    P (Dev.groupStart d n h) := by
  unfold Dev.groupStart
  try dsimp only
  repeat' with_reducible first
    | assumption
    | (intro _; intros; try dsimp only)
    | refine ite_ind ?_ ?_
    | refine ite_fst ?_ ?_
    | refine ite_snd ?_ ?_
    | refine Dev.updGroup_ind (hP.mono (by decide) (by decide)) ?_
    | refine Dev.setGroup_ind (hP.mono (by decide) (by decide)) ?_
    | refine Dev.raise_ind (hP.mono (by decide) (by decide)) ?_
    | refine Dev.statsBegin_ind (hP.mono (by decide) (by decide)) ?_
    | split

theorem Dev.enableCalibrationDoneEff_ind {P : Dev → Prop} (hP : Closed P 0x80080 0x80000000000000000000000000000000000000000000000000000000000000000000000000000000018cc010) {n : Nat} {cal : List (Nat × CalData)} {d : Dev} (hd0 : P d) :
    P (Dev.enableCalibrationDoneEff n cal d) := by
  unfold Dev.enableCalibrationDoneEff
  try dsimp only
  repeat' with_reducible first
    | assumption
    | refine foldl_ind ?_ ?_
    | refine foldl_fst ?_ ?_
    | refine foldl_snd ?_ ?_
    | (intro _; intros; try dsimp only)
    | refine ite_ind ?_ ?_
    | refine ite_fst ?_ ?_
    | refine ite_snd ?_ ?_
    | refine Dev.markFailed_ind (hP.mono (by decide) (by decide)) ?_
    | refine Dev.writePage_ind (hP.mono (by decide) (by decide)) ?_
    | refine Dev.setSubBit_ind hP (by decide) ?_
    | refine Dev.groupStart_ind (hP.mono (by decide) (by decide)) ?_
    | refine Dev.updSlice_ind (hP.mono (by decide) (by decide)) ?_
    | refine Dev.sliceFlags_ind (hP.mono (by decide) (by decide)) ?_
    | refine Dev.sliceReady_ind (hP.mono (by decide) (by decide)) ?_
    | split

theorem Dev.routeTo_ind {P : Dev → Prop} (hP : Closed P 0x80 0x0) {d : Dev} {n : Nat} {r : Nat} (hd0 : P d) :
    P (Dev.routeTo d n r) := by
  unfold Dev.routeTo
  try dsimp only
  repeat' with_reducible first
    | assumption
    | (intro _; intros; try dsimp only)
    | refine Dev.updSlice_ind (hP.mono (by decide) (by decide)) ?_
    | split

theorem Dev.swatchAbort_ind {P : Dev → Prop} (hP : Closed P 0x80080 0x100000000) {d : Dev} {n : Nat} (hd0 : P d) :
    P (Dev.swatchAbort d n) := by
  unfold Dev.swatchAbort
  try dsimp only
  repeat' with_reducible first
    | assumption
    | (intro _; intros; try dsimp only)
    | refine ite_ind ?_ ?_
    | refine Dev.routeTo_ind (hP.mono (by decide) (by decide)) ?_
    | refine Dev.updSlice_ind (hP.mono (by decide) (by decide)) ?_
    | refine Dev.put_ind hP (by decide) ?_
    | refine Dev.raise_ind (hP.mono (by decide) (by decide)) ?_
    | split

theorem Dev.sliceDisableEff_ind {P : Dev → Prop} (hP : Closed P 0x80080 0x10000c218) {n : Nat} {d : Dev} (hd0 : P d) :
    P (Dev.sliceDisableEff n d) := by
  unfold Dev.sliceDisableEff
  try dsimp only
  repeat' with_reducible first
    | assumption
    | refine foldl_ind ?_ ?_
    | (intro _; intros; try dsimp only)
    | refine ite_ind ?_ ?_
    | refine Dev.putb_ind hP (by decide) ?_
    | refine Dev.swatchAbort_ind (hP.mono (by decide) (by decide)) ?_
    | refine Dev.raiseAt_ind (hP.mono (by decide) (by decide)) ?_
    | refine Dev.setGroup_ind (hP.mono (by decide) (by decide)) ?_
    | refine Dev.updGroup_ind (hP.mono (by decide) (by decide)) ?_
    | refine Dev.updSlice_ind (hP.mono (by decide) (by decide)) ?_
    | refine Dev.sliceFlags_ind (hP.mono (by decide) (by decide)) ?_
    | refine Dev.failClear_ind (hP.mono (by decide) (by decide)) ?_
    | split

theorem Dev.sliceClockLossEff_ind {P : Dev → Prop} (hP : Closed P 0x80090 0x10) {n : Nat} {d : Dev} (hd0 : P d) :
    P (Dev.sliceClockLossEff n d) := by
  unfold Dev.sliceClockLossEff
  try dsimp only
  repeat' with_reducible first
    | assumption
    | (intro _; intros; try dsimp only)
    | refine ite_ind ?_ ?_
    | refine hP.path (by decide) _ _ ?_
    | refine Dev.sliceNotReady_ind (hP.mono (by decide) (by decide)) ?_
    | refine Dev.updSlice_ind (hP.mono (by decide) (by decide)) ?_
    | split

theorem Dev.sliceClockLockEff_ind {P : Dev → Prop} (hP : Closed P 0x80080 0x10) {n : Nat} {d : Dev} (hd0 : P d) :
    P (Dev.sliceClockLockEff n d) := by
  unfold Dev.sliceClockLockEff
  try dsimp only
  repeat' with_reducible first
    | assumption
    | refine foldl_ind ?_ ?_
    | (intro _; intros; try dsimp only)
    | refine ite_ind ?_ ?_
    | refine Dev.updSlice_ind (hP.mono (by decide) (by decide)) ?_
    | refine Dev.updGroup_ind (hP.mono (by decide) (by decide)) ?_
    | refine Dev.statsBegin_ind (hP.mono (by decide) (by decide)) ?_
    | refine Dev.sliceReady_ind (hP.mono (by decide) (by decide)) ?_
    | split

theorem Dev.dacRouteWriteEff_ind {P : Dev → Prop} (hP : Closed P 0x80 0x8000000000000000000000000000000000000000000000000000000000000000000000000000000100000400) {n : Nat} {v : W32} {d : Dev} (hd0 : P d) :
    P (Dev.dacRouteWriteEff n v d) := by
  unfold Dev.dacRouteWriteEff
  try dsimp only
  repeat' with_reducible first
    | assumption
    | refine ite_ind ?_ ?_
    | refine Dev.count_ind hP (by decide) (by decide) ?_
    | refine hP.wrAt (by decide) ?_
    | refine Dev.routeTo_ind (hP.mono (by decide) (by decide)) ?_

theorem Dev.injectionSwitchEff_ind {P : Dev → Prop} (hP : Closed P 0x80089 0x10) {n : Nat} {d : Dev} (hd0 : P d) :
    P (Dev.injectionSwitchEff n d) := by
  unfold Dev.injectionSwitchEff
  try dsimp only
  repeat' with_reducible first
    | assumption
    | (intro _; intros; try dsimp only)
    | refine ite_ind ?_ ?_
    | refine Dev.advanceTo_ind (hP.mono (by decide) (by decide)) ?_
    | refine Dev.updSlice_ind (hP.mono (by decide) (by decide)) ?_
    | refine Dev.putb_ind hP (by decide) ?_
    | refine Dev.raise_ind (hP.mono (by decide) (by decide)) ?_
    | split

theorem Dev.overrangeCount_ind {P : Dev → Prop} (hP : Closed P 0x80010 0x8000000000000000000000000000000000000000000000000000000000000000000000000000000000000040) {d : Dev} {n : Nat} (hd0 : P d) :
    P (Dev.overrangeCount d n) := by
  unfold Dev.overrangeCount
  try dsimp only
  repeat' with_reducible first
    | assumption
    | (intro _; intros; try dsimp only)
    | refine ite_ind ?_ ?_
    | refine hP.path (by decide) _ _ ?_
    | refine Dev.count_ind hP (by decide) (by decide) ?_
    | refine Dev.raiseHeld_ind (hP.mono (by decide) (by decide)) ?_
    | split

theorem Dev.statsAdd_ind {P : Dev → Prop} (hP : Closed P 0x80 0x0) {d : Dev} {n : Nat} {f : RawFrame} (hd0 : P d) :
    P (Dev.statsAdd d n f) := by
  unfold Dev.statsAdd
  try dsimp only
  repeat' with_reducible first
    | assumption
    | refine foldl_ind ?_ ?_
    | (intro _; intros; try dsimp only)
    | refine ite_ind ?_ ?_
    | refine Dev.updGroup_ind (hP.mono (by decide) (by decide)) ?_
    | split

theorem Dev.sampleFrameEff_ind {P : Dev → Prop} (hP : Closed P 0x80090 0x80000000000000000000000000000000000000000000000000000000000000000000000000000000000000c0) {n : Nat} {codes : List (BitVec 10)} {d : Dev} (hd0 : P d) :
    P (Dev.sampleFrameEff n codes d) := by
  unfold Dev.sampleFrameEff
  try dsimp only
  repeat' with_reducible first
    | assumption
    | (intro _; intros; try dsimp only)
    | refine ite_ind ?_ ?_
    | refine Dev.overrangeCount_ind (hP.mono (by decide) (by decide)) ?_
    | refine hP.path (by decide) _ _ ?_
    | refine Dev.statsAdd_ind (hP.mono (by decide) (by decide)) ?_
    | refine Dev.count_ind hP (by decide) (by decide) ?_
    | split

end Sys2Proof.Machine
end

