-- ==== Sys2Proof/Laws/IndCorrection.lean ====
section
/-!
SUPPORT. What the operations of Machine/Correction.lean can change: each keeps every property that is closed under changes of its
parts and writes of its register families.
-/
namespace Sys2Proof.Machine

theorem Dev.skewTake_ind {P : Dev → Prop} (hP : Closed P 0x80 0x0) {d : Dev} {n : Nat} {r : RawFrame} {e : List Int} (hd0 : P d) :
    P (Dev.skewTake d n r e) := by
  unfold Dev.skewTake
  try dsimp only
  repeat' with_reducible first
    | assumption
    | (intro _; intros; try dsimp only)
    | refine ite_ind ?_ ?_
    | refine Dev.updSlice_ind (hP.mono (by decide) (by decide)) ?_
    | split

theorem Dev.correctedFrameEff_ind {P : Dev → Prop} (hP : Closed P 0x80a99 0x800000000000000000000000000000000000000000000000000018012a400000000000000000000000100040) {n : Nat} {d : Dev} (hd0 : P d) :
    P (Dev.correctedFrameEff n d) := by
  unfold Dev.correctedFrameEff
  try dsimp only
  repeat' with_reducible first
    | assumption
    | refine foldl_ind ?_ ?_
    | refine foldl_fst ?_ ?_
    | refine foldl_snd ?_ ?_
    | (intro _; intros; try dsimp only)
    | refine ite_ind ?_ ?_
    | refine ite_fst ?_ ?_
    | refine ite_snd ?_ ?_
    | refine Dev.advanceTo_ind (hP.mono (by decide) (by decide)) ?_
    | refine Dev.overrangeCount_ind (hP.mono (by decide) (by decide)) ?_
    | refine Dev.decDue_ind (hP.mono (by decide) (by decide)) ?_
    | refine hP.path (by decide) _ _ ?_
    | refine Dev.skewTake_ind (hP.mono (by decide) (by decide)) ?_
    | refine Dev.updSlice_ind (hP.mono (by decide) (by decide)) ?_
    | refine Dev.count_ind hP (by decide) (by decide) ?_
    | refine Dev.raiseHeld_ind (hP.mono (by decide) (by decide)) ?_
    | refine Dev.unitFrame_ind (hP.mono (by decide) (by decide)) ?_
    | refine Dev.decFrame_ind (hP.mono (by decide) (by decide)) ?_
    | split

theorem Dev.setSkews_ind {P : Dev → Prop} (hP : Closed P 0x80000 0x10000000) {d : Dev} {n : Nat} {l : List Int} (hd0 : P d) :
    P (Dev.setSkews d n l) := by
  unfold Dev.setSkews
  try dsimp only
  repeat' with_reducible first
    | assumption
    | refine foldl_ind ?_ ?_
    | (intro _; intros; try dsimp only)
    | refine ite_ind ?_ ?_
    | refine Dev.puts_ind hP (by decide) ?_
    | refine Dev.raise_ind (hP.mono (by decide) (by decide)) ?_
    | split

theorem Dev.commitSkews_ind {P : Dev → Prop} (hP : Closed P 0x80080 0xc000000000000080000000000000000000000000000000000000000000000000000000000000000000000000000000010c0000) {d : Dev} {n : Nat} (hd0 : P d) :
    P (Dev.commitSkews d n) := by
  unfold Dev.commitSkews
  try dsimp only
  repeat' with_reducible first
    | assumption
    | refine foldl_ind ?_ ?_
    | (intro _; intros; try dsimp only)
    | refine Dev.tableWindowWriteEff_ind (hP.mono (by decide) (by decide)) ?_
    | refine Dev.tableCommit_ind (hP.mono (by decide) (by decide)) ?_
    | refine Dev.decision_ind (hP.mono (by decide) (by decide)) ?_
    | split

theorem Dev.skewUpdateEff_ind {P : Dev → Prop} (hP : Closed P 0x80082 0xc000000000000080000000000000000000000000000000000000000000000000000000000000000000000000000000190c0000) {n : Nat} {d : Dev} (hd0 : P d) :
    P (Dev.skewUpdateEff n d) := by
  unfold Dev.skewUpdateEff
  try dsimp only
  repeat' with_reducible first
    | assumption
    | (intro _; intros; try dsimp only)
    | refine ite_ind ?_ ?_
    | refine Dev.updSlice_ind (hP.mono (by decide) (by decide)) ?_
    | refine Dev.count_ind hP (by decide) (by decide) ?_
    | refine hP.freeSeq (by decide) _ _ ?_
    | refine Dev.setSkews_ind (hP.mono (by decide) (by decide)) ?_
    | refine Dev.bump_ind hP (by decide) ?_
    | refine Dev.commitSkews_ind (hP.mono (by decide) (by decide)) ?_
    | split

theorem Dev.nospareMatchingEff_ind {P : Dev → Prop} (hP : Closed P 0x80089 0x80000000000000000000000000000000000000000000000000000000000000000000000000000000014c0000) {n : Nat} {h : Nat} {gains : List (BitVec 16)} {d : Dev} (hd0 : P d) :
    P (Dev.nospareMatchingEff n h gains d) := by
  unfold Dev.nospareMatchingEff
  try dsimp only
  repeat' with_reducible first
    | assumption
    | refine foldl_ind ?_ ?_
    | (intro _; intros; try dsimp only)
    | refine ite_ind ?_ ?_
    | refine Dev.advanceTo_ind (hP.mono (by decide) (by decide)) ?_
    | refine Dev.updGroup_ind (hP.mono (by decide) (by decide)) ?_
    | refine Dev.writePage_ind (hP.mono (by decide) (by decide)) ?_
    | refine Dev.put_ind hP (by decide) ?_
    | refine Dev.tableCommit_ind (hP.mono (by decide) (by decide)) ?_
    | split

theorem Dev.swatchStartEff_ind {P : Dev → Prop} (hP : Closed P 0x80080 0x100000000) {n : Nat} {d : Dev} (hd0 : P d) :
    P (Dev.swatchStartEff n d) := by
  unfold Dev.swatchStartEff
  try dsimp only
  repeat' with_reducible first
    | assumption
    | (intro _; intros; try dsimp only)
    | refine ite_ind ?_ ?_
    | refine Dev.put_ind hP (by decide) ?_
    | refine Dev.raise_ind (hP.mono (by decide) (by decide)) ?_
    | refine Dev.routeTo_ind (hP.mono (by decide) (by decide)) ?_
    | refine Dev.updSlice_ind (hP.mono (by decide) (by decide)) ?_
    | split

theorem Dev.swatchCaptureEff_ind {P : Dev → Prop} (hP : Closed P 0x80089 0x8000000000000000000000000000000000000000000000000000000000000000000000000000000000000000) {n : Nat} {d : Dev} (hd0 : P d) :
    P (Dev.swatchCaptureEff n d) := by
  unfold Dev.swatchCaptureEff
  try dsimp only
  repeat' with_reducible first
    | assumption
    | (intro _; intros; try dsimp only)
    | refine ite_ind ?_ ?_
    | refine Dev.count_ind hP (by decide) (by decide) ?_
    | refine Dev.advanceTo_ind (hP.mono (by decide) (by decide)) ?_
    | refine Dev.updSlice_ind (hP.mono (by decide) (by decide)) ?_
    | split

theorem Dev.swatchRouteOffEff_ind {P : Dev → Prop} (hP : Closed P 0x80089 0x8000000000000000000000000000000000000000000000000000000000000000000000000000000000000000) {n : Nat} {d : Dev} (hd0 : P d) :
    P (Dev.swatchRouteOffEff n d) := by
  unfold Dev.swatchRouteOffEff
  try dsimp only
  repeat' with_reducible first
    | assumption
    | (intro _; intros; try dsimp only)
    | refine ite_ind ?_ ?_
    | refine Dev.count_ind hP (by decide) (by decide) ?_
    | refine Dev.advanceTo_ind (hP.mono (by decide) (by decide)) ?_
    | refine Dev.routeTo_ind (hP.mono (by decide) (by decide)) ?_
    | refine Dev.updSlice_ind (hP.mono (by decide) (by decide)) ?_
    | split

theorem Dev.swatchResultEff_ind {P : Dev → Prop} (hP : Closed P 0x80080 0xc000000000000080000000000000000000000000000000000000000000000000000000000000000000000000000001310c0000) {n : Nat} {fit : SwatchFit} {d : Dev} (hd0 : P d) :
    P (Dev.swatchResultEff n fit d) := by
  unfold Dev.swatchResultEff
  try dsimp only
  repeat' with_reducible first
    | assumption
    | refine foldl_ind ?_ ?_
    | refine foldl_fst ?_ ?_
    | refine foldl_snd ?_ ?_
    | (intro _; intros; try dsimp only)
    | refine ite_ind ?_ ?_
    | refine ite_fst ?_ ?_
    | refine ite_snd ?_ ?_
    | refine Dev.count_ind hP (by decide) (by decide) ?_
    | refine Dev.puts_ind hP (by decide) ?_
    | refine Dev.put_ind hP (by decide) ?_
    | refine Dev.updSlice_ind (hP.mono (by decide) (by decide)) ?_
    | refine Dev.raise_ind (hP.mono (by decide) (by decide)) ?_
    | refine Dev.setSkews_ind (hP.mono (by decide) (by decide)) ?_
    | refine Dev.commitSkews_ind (hP.mono (by decide) (by decide)) ?_
    | split

theorem Dev.tableSave_ind {P : Dev → Prop} (hP : Closed P 0x80 0x0) {d : Dev} {n : Nat} (hd0 : P d) :
    P (Dev.tableSave d n) := by
  unfold Dev.tableSave
  try dsimp only
  repeat' with_reducible first
    | assumption
    | refine foldl_ind ?_ ?_
    | (intro _; intros; try dsimp only)
    | refine ite_ind ?_ ?_
    | refine Dev.updSlice_ind (hP.mono (by decide) (by decide)) ?_
    | split

theorem Dev.tableFlashSaveEff_ind {P : Dev → Prop} (hP : Closed P 0x80 0x0) {n : Nat} {d : Dev} (hd0 : P d) :
    P (Dev.tableFlashSaveEff n d) := by
  unfold Dev.tableFlashSaveEff
  try dsimp only
  repeat' with_reducible first
    | assumption
    | refine ite_ind ?_ ?_
    | refine Dev.tableSave_ind (hP.mono (by decide) (by decide)) ?_
    | split

end Sys2Proof.Machine
end

