-- ==== Sys2Proof/Laws/IndStageStore.lean ====
section
/-!
SUPPORT. What the operations of Machine/StageStore.lean can change: each keeps every property that is closed under changes of its
parts and writes of its register families.
-/
namespace Sys2Proof.Machine

theorem Dev.stageShift_ind {P : Dev → Prop} (hP : Closed P 0x10 0x0) {d : Dev} {k : Nat} {c : Nat} (hd0 : P d) :
    P (Dev.stageShift d k c) := by
  unfold Dev.stageShift
  try dsimp only
  repeat' with_reducible first
    | assumption
    | (intro _; intros; try dsimp only)
    | refine hP.path (by decide) _ _ ?_
    | split

theorem Dev.laneDecLoss_ind {P : Dev → Prop} (hP : Closed P 0x18055600 0x80000000000000000000000000000) {d : Dev} {k : Nat} {l : Nat} (hd0 : P d) :
    P (Dev.laneDecLoss d k l) := by
  unfold Dev.laneDecLoss
  try dsimp only
  repeat' with_reducible first
    | assumption
    | (intro _; intros; try dsimp only)
    | refine ite_ind ?_ ?_
    | refine Dev.laneLoss_ind (hP.mono (by decide) (by decide)) ?_
    | refine Dev.updLane_ind (hP.mono (by decide) (by decide)) ?_
    | split

theorem Dev.decRateChange_ind {P : Dev → Prop} (hP : Closed P 0x18055e00 0x8000000000000000000000000080000c00000000000000000000000) {d : Dev} {k : Nat} {u : Nat} (hd0 : P d) :
    P (Dev.decRateChange d k u) := by
  unfold Dev.decRateChange
  try dsimp only
  repeat' with_reducible first
    | assumption
    | refine foldl_ind ?_ ?_
    | (intro _; intros; try dsimp only)
    | refine ite_ind ?_ ?_
    | refine Dev.laneSourceChange_ind (hP.mono (by decide) (by decide)) ?_
    | refine hP.dec (by decide) _ _ ?_
    | split

theorem Dev.laneWaits_ind {P : Dev → Prop} (hP : Closed P 0x0 0x8000000000000000000000000000000000000000000000000000000000000800000000000000000000000000) {d : Dev} {l : Nat} (hd0 : P d) :
    P (Dev.laneWaits d l) := by
  unfold Dev.laneWaits
  try dsimp only
  repeat' with_reducible first
    | assumption
    | refine ite_ind ?_ ?_
    | refine Dev.count_ind hP (by decide) (by decide) ?_
    | split

theorem Dev.stageStoreFrameEff_ind {P : Dev → Prop} (hP : Closed P 0x180d5e79 0x80000000000000000000000000000003080000000000000000f00000000a0e00c00000000000000000000000) {k : Nat} {stalled : BitVec 16} {d : Dev} (hd0 : P d) :
    P (Dev.stageStoreFrameEff k stalled d) := by
  unfold Dev.stageStoreFrameEff
  try dsimp only
  repeat' with_reducible first
    | assumption
    | refine foldl_ind ?_ ?_
    | (intro _; intros; try dsimp only)
    | refine ite_ind ?_ ?_
    | refine Dev.advanceTo_ind (hP.mono (by decide) (by decide)) ?_
    | refine hP.lanes (by decide) _ _ ?_
    | refine Dev.laneTurn_ind (hP.mono (by decide) (by decide)) ?_
    | refine Dev.decRateChange_ind (hP.mono (by decide) (by decide)) ?_
    | refine hP.stageNext (by decide) _ _ ?_
    | refine Dev.laneFrame_ind (hP.mono (by decide) (by decide)) ?_
    | refine Dev.laneDecLoss_ind (hP.mono (by decide) (by decide)) ?_
    | refine Dev.laneWaits_ind (hP.mono (by decide) (by decide)) ?_
    | refine Dev.tallyFrame_ind (hP.mono (by decide) (by decide)) ?_
    | refine Dev.stageShift_ind (hP.mono (by decide) (by decide)) ?_
    | refine hP.logic (by decide) _ _ ?_
    | refine Dev.flowUpdate_ind (hP.mono (by decide) (by decide)) ?_
    | split

end Sys2Proof.Machine
end

