-- ==== Sys2Proof/Laws/IndStimulus.lean ====
section
/-!
SUPPORT. What the operations of Machine/Stimulus.lean can change: each keeps every property that is closed under changes of its
parts and writes of its register families.
-/
namespace Sys2Proof.Machine

theorem Dev.updStm_ind {P : Dev → Prop} (hP : Closed P 0x8000 0x0) {d : Dev} {u : Nat} {f : Stim → Stim} (hd0 : P d) :
    P (Dev.updStm d u f) := by
  unfold Dev.updStm
  try dsimp only
  repeat' with_reducible first
    | assumption
    | refine hP.stm (by decide) _ _ ?_

theorem Dev.stmShow_ind {P : Dev → Prop} (hP : Closed P 0x0 0x4000400000000000000000000000000000000000000000000000000) {d : Dev} {u : Nat} (hd0 : P d) :
    P (Dev.stmShow d u) := by
  unfold Dev.stmShow
  try dsimp only
  repeat' with_reducible first
    | assumption
    | refine Dev.put_ind hP (by decide) ?_

theorem Dev.stmCancel_ind {P : Dev → Prop} (hP : Closed P 0x0 0x8000000000000000000000000000000000100000000000000000000000000000000000000000000000000000) {d : Dev} {u : Nat} {n : Nat} (hd0 : P d) :
    P (Dev.stmCancel d u n) := by
  unfold Dev.stmCancel
  try dsimp only
  repeat' with_reducible first
    | assumption
    | refine Dev.count_ind hP (by decide) (by decide) ?_

theorem Dev.stmCancelQueue_ind {P : Dev → Prop} (hP : Closed P 0x8000 0x8000000000000000000000000000000004100400000000000000000000000000000000000000000000000000) {d : Dev} {u : Nat} (hd0 : P d) :
    P (Dev.stmCancelQueue d u) := by
  unfold Dev.stmCancelQueue
  try dsimp only
  repeat' with_reducible first
    | assumption
    | (intro _; intros; try dsimp only)
    | refine Dev.stmCancel_ind (hP.mono (by decide) (by decide)) ?_
    | refine Dev.updStm_ind (hP.mono (by decide) (by decide)) ?_
    | refine Dev.stmShow_ind (hP.mono (by decide) (by decide)) ?_
    | split

theorem Dev.stmCancelAll_ind {P : Dev → Prop} (hP : Closed P 0x8000 0x8000000000000000000000000000000004100400000000000000000000000000000000000000000000000000) {d : Dev} {u : Nat} (hd0 : P d) :
    P (Dev.stmCancelAll d u) := by
  unfold Dev.stmCancelAll
  try dsimp only
  repeat' with_reducible first
    | assumption
    | (intro _; intros; try dsimp only)
    | refine Dev.stmCancel_ind (hP.mono (by decide) (by decide)) ?_
    | refine Dev.updStm_ind (hP.mono (by decide) (by decide)) ?_
    | refine Dev.stmCancelQueue_ind (hP.mono (by decide) (by decide)) ?_
    | split

theorem Dev.stimEnableEff_ind {P : Dev → Prop} (hP : Closed P 0x8000 0x8000000000000000000000000000000000000600000000000000000000000000000000000000000100000000) {u : Nat} {d : Dev} (hd0 : P d) :
    P (Dev.stimEnableEff u d) := by
  unfold Dev.stimEnableEff
  try dsimp only
  repeat' with_reducible first
    | assumption
    | (intro _; intros; try dsimp only)
    | refine ite_ind ?_ ?_
    | refine Dev.count_ind hP (by decide) (by decide) ?_
    | refine Dev.putb_ind hP (by decide) ?_
    | refine Dev.put_ind hP (by decide) ?_
    | refine Dev.updStm_ind (hP.mono (by decide) (by decide)) ?_
    | split

theorem Dev.stimDisableEff_ind {P : Dev → Prop} (hP : Closed P 0x8000 0x8000000000000000000000000000000004100600000000000000000000000000000000000000000000000000) {u : Nat} {d : Dev} (hd0 : P d) :
    P (Dev.stimDisableEff u d) := by
  unfold Dev.stimDisableEff
  try dsimp only
  repeat' with_reducible first
    | assumption
    | refine ite_ind ?_ ?_
    | refine Dev.stmCancelAll_ind (hP.mono (by decide) (by decide)) ?_
    | refine Dev.putb_ind hP (by decide) ?_
    | refine Dev.put_ind hP (by decide) ?_

theorem Dev.stimClearEff_ind {P : Dev → Prop} (hP : Closed P 0x8000 0x0) {u : Nat} {d : Dev} (hd0 : P d) :
    P (Dev.stimClearEff u d) := by
  unfold Dev.stimClearEff
  try dsimp only
  repeat' with_reducible first
    | assumption
    | (intro _; intros; try dsimp only)
    | refine ite_ind ?_ ?_
    | refine Dev.updStm_ind (hP.mono (by decide) (by decide)) ?_
    | split

theorem Dev.toneChange_ind {P : Dev → Prop} (hP : Closed P 0x8000 0x0) {d : Dev} {u : Nat} {k : Nat} (hd0 : P d) :
    P (Dev.toneChange d u k) := by
  unfold Dev.toneChange
  try dsimp only
  repeat' with_reducible first
    | assumption
    | (intro _; intros; try dsimp only)
    | refine Dev.updStm_ind (hP.mono (by decide) (by decide)) ?_
    | split

theorem Dev.staticToneWriteEff_ind {P : Dev → Prop} (hP : Closed P 0x8000 0x60000000000000000000000000000000000000000000000000000) {u k : Nat} {tpa : Bool} {v : W64} {d : Dev}
    (hd0 : P d) : P (Dev.staticToneWriteEff u k tpa v d) := by
  unfold Dev.staticToneWriteEff
  refine Dev.toneChange_ind (hP.mono (by decide) (by decide)) ?_
  cases tpa
  · exact hP.wrAt (by decide) hd0
  · exact hP.wrAt (by decide) hd0

theorem Dev.toneWrite_ind {P : Dev → Prop} (hP : Closed P 0x8000 0x60000000000000000000000000000000000000000000000000000) {d : Dev} {u : Nat} {k : Nat} {freq : W64} {tpa : W64} (hd0 : P d) :
    P (Dev.toneWrite d u k freq tpa) := by
  unfold Dev.toneWrite
  try dsimp only
  repeat' with_reducible first
    | assumption
    | refine hP.wrAt (by decide) ?_
    | refine Dev.toneChange_ind (hP.mono (by decide) (by decide)) ?_

theorem Dev.playStart_ind {P : Dev → Prop} (hP : Closed P 0x8000 0x0) {d : Dev} {u : Nat} (hd0 : P d) :
    P (Dev.playStart d u) := by
  unfold Dev.playStart
  try dsimp only
  repeat' with_reducible first
    | assumption
    | (intro _; intros; try dsimp only)
    | refine ite_ind ?_ ?_
    | refine Dev.updStm_ind (hP.mono (by decide) (by decide)) ?_
    | split

theorem Dev.playAccept_ind {P : Dev → Prop} (hP : Closed P 0x8000 0x8000000000000000000000000000000000100000000000000000000000000000000000000000000000000000) {d : Dev} {u : Nat} {kind : Nat} {s : StmSeg} (hd0 : P d) :
    P (Dev.playAccept d u kind s) := by
  unfold Dev.playAccept
  try dsimp only
  repeat' with_reducible first
    | assumption
    | (intro _; intros; try dsimp only)
    | refine ite_ind ?_ ?_
    | refine Dev.updStm_ind (hP.mono (by decide) (by decide)) ?_
    | refine Dev.playStart_ind (hP.mono (by decide) (by decide)) ?_
    | refine Dev.stmCancel_ind (hP.mono (by decide) (by decide)) ?_
    | split

theorem Dev.playRefused_ind {P : Dev → Prop} (hP : Closed P 0x80000 0x8000000000000000000000000000000000200000000000000000000000000000000000000000000000000000) {d : Dev} {u : Nat} (hd0 : P d) :
    P (Dev.playRefused d u) := by
  unfold Dev.playRefused
  try dsimp only
  repeat' with_reducible first
    | assumption
    | refine Dev.count_ind hP (by decide) (by decide) ?_
    | refine Dev.raise_ind (hP.mono (by decide) (by decide)) ?_

theorem Dev.playSubmitEff_ind {P : Dev → Prop} (hP : Closed P 0x88000 0x8000000000000000000000000000000004306400000000000000000000000000000000000000000000000000) {u : Nat} {kind : Nat} {d : Dev} (hd0 : P d) :
    P (Dev.playSubmitEff u kind d) := by
  unfold Dev.playSubmitEff
  try dsimp only
  repeat' with_reducible first
    | assumption
    | refine ite_ind ?_ ?_
    | refine Dev.put_ind hP (by decide) ?_
    | refine Dev.playAccept_ind (hP.mono (by decide) (by decide)) ?_
    | refine Dev.stmShow_ind (hP.mono (by decide) (by decide)) ?_
    | refine Dev.playRefused_ind (hP.mono (by decide) (by decide)) ?_

theorem Dev.jumpTake_ind {P : Dev → Prop} (hP : Closed P 0x8000 0x8000000000000000000000000000000000100000000000000000000000000000000000000000000000000000) {d : Dev} {u : Nat} {k : Nat} {s : StmSeg} (hd0 : P d) :
    P (Dev.jumpTake d u k s) := by
  unfold Dev.jumpTake
  try dsimp only
  repeat' with_reducible first
    | assumption
    | (intro _; intros; try dsimp only)
    | refine ite_ind ?_ ?_
    | refine Dev.stmCancel_ind (hP.mono (by decide) (by decide)) ?_
    | refine Dev.updStm_ind (hP.mono (by decide) (by decide)) ?_
    | split

theorem Dev.jumpsBefore_ind {P : Dev → Prop} (hP : Closed P 0x8000 0x8000000000000000000000000000000000100000000000000000000000000000000000000000000000000000) {d : Dev} {u k n : Nat} (h : P d) :
    P (d.jumpsBefore u k n) := by
  induction n generalizing d with
  | zero => exact h
  | succ n ih =>
    unfold Dev.jumpsBefore
    split
    · exact ite_ind (ih (Dev.jumpTake_ind (hP.mono (by decide) (by decide)) h)) h
    · exact h

theorem Dev.stmLost_ind {P : Dev → Prop} (hP : Closed P 0x88000 0x8000000000000000000000000000000000090000000000000000000000000000000000000000000000000000) {d : Dev} {u : Nat} {n : Nat} {tick : Nat} (hd0 : P d) :
    P (Dev.stmLost d u n tick) := by
  unfold Dev.stmLost
  try dsimp only
  repeat' with_reducible first
    | assumption
    | (intro _; intros; try dsimp only)
    | refine ite_ind ?_ ?_
    | refine Dev.raise_ind (hP.mono (by decide) (by decide)) ?_
    | refine Dev.put_ind hP (by decide) ?_
    | refine Dev.count_ind hP (by decide) (by decide) ?_
    | refine Dev.updStm_ind (hP.mono (by decide) (by decide)) ?_
    | split

theorem Dev.stmHalt_ind {P : Dev → Prop} (hP : Closed P 0x88000 0x8000000000000000000000000000000004190400000000000000000000000000000000000000000000000000) {d : Dev} {u : Nat} {tick : Nat} (hd0 : P d) :
    P (Dev.stmHalt d u tick) := by
  unfold Dev.stmHalt
  try dsimp only
  repeat' with_reducible first
    | assumption
    | (intro _; intros; try dsimp only)
    | refine Dev.stmLost_ind (hP.mono (by decide) (by decide)) ?_
    | refine Dev.stmCancelAll_ind (hP.mono (by decide) (by decide)) ?_
    | refine Dev.put_ind hP (by decide) ?_
    | refine Dev.updStm_ind (hP.mono (by decide) (by decide)) ?_
    | split

theorem Dev.stmMissed_ind {P : Dev → Prop} (hP : Closed P 0x88000 0x8000000000000000000000000000000004190400000000000000000000000000000000000000000000000000) {d : Dev} {u : Nat} {n : Nat} {tick : Nat} (hd0 : P d) :
    P (Dev.stmMissed d u n tick) := by
  unfold Dev.stmMissed
  try dsimp only
  repeat' with_reducible first
    | assumption
    | (intro _; intros; try dsimp only)
    | refine ite_ind ?_ ?_
    | refine Dev.stmHalt_ind (hP.mono (by decide) (by decide)) ?_
    | refine Dev.stmLost_ind (hP.mono (by decide) (by decide)) ?_
    | refine Dev.updStm_ind (hP.mono (by decide) (by decide)) ?_
    | split

theorem Dev.stmChoose_ind {P : Dev → Prop} (hP : Closed P 0x8000 0x0) {d : Dev} {u : Nat} (hd0 : P d) :
    P (Dev.stmChoose d u) := by
  unfold Dev.stmChoose
  try dsimp only
  repeat' with_reducible first
    | assumption
    | (intro _; intros; try dsimp only)
    | refine ite_ind ?_ ?_
    | refine Dev.updStm_ind (hP.mono (by decide) (by decide)) ?_
    | split

theorem Dev.stmNext_ind {P : Dev → Prop} (hP : Closed P 0x88000 0x800400000000000000000000000000000000000000000000000000) {d : Dev} {u : Nat} {k : Nat} (hd0 : P d) :
    P (Dev.stmNext d u k) := by
  unfold Dev.stmNext
  try dsimp only
  repeat' with_reducible first
    | assumption
    | (intro _; intros; try dsimp only)
    | refine Dev.bump_ind hP (by decide) ?_
    | refine Dev.updStm_ind (hP.mono (by decide) (by decide)) ?_
    | refine Dev.raise_ind (hP.mono (by decide) (by decide)) ?_
    | refine Dev.put_ind hP (by decide) ?_
    | split

theorem Dev.stmPass_ind {P : Dev → Prop} (hP : Closed P 0x88000 0x8000000000000000000000000000000004990400000000000000000000000000000000000000000000000000) {d : Dev} {u k n m : Nat} (h : P d) :
    P (d.stmPass u k n m) := by
  induction n generalizing d m with
  | zero => exact h
  | succ n ih =>
    unfold Dev.stmPass
    dsimp only
    split
    · exact h
    · repeat' with_reducible first
        | assumption
        | refine ih ?_
        | refine Dev.stmNext_ind (hP.mono (by decide) (by decide)) ?_
        | refine Dev.stmMissed_ind (hP.mono (by decide) (by decide)) ?_
        | refine Dev.stmChoose_ind (hP.mono (by decide) (by decide)) ?_
        | refine Dev.jumpsBefore_ind (hP.mono (by decide) (by decide)) ?_
        | refine ite_ind ?_ ?_

theorem Dev.stmStart_ind {P : Dev → Prop} (hP : Closed P 0x88000 0x8000000000000000000000000000000004990400000000000000000000000000000000000000000000000000) {d : Dev} {u : Nat} {k : Nat} (hd0 : P d) :
    P (Dev.stmStart d u k) := by
  unfold Dev.stmStart
  try dsimp only
  repeat' with_reducible first
    | assumption
    | (intro _; intros; try dsimp only)
    | refine ite_ind ?_ ?_
    | refine Dev.put_ind hP (by decide) ?_
    | refine Dev.updStm_ind (hP.mono (by decide) (by decide)) ?_
    | refine Dev.raise_ind (hP.mono (by decide) (by decide)) ?_
    | refine Dev.stmPass_ind (hP.mono (by decide) (by decide)) ?_
    | split

theorem Dev.stmGranule_ind {P : Dev → Prop} (hP : Closed P 0x88000 0x8000000000000000000000000000000004990400000000000000000000000000000000000000000000000000) {d : Dev} {u : Nat} {k : Nat} (hd0 : P d) :
    P (Dev.stmGranule d u k) := by
  unfold Dev.stmGranule
  try dsimp only
  repeat' with_reducible first
    | assumption
    | (intro _; intros; try dsimp only)
    | refine ite_ind ?_ ?_
    | refine ite_fst ?_ ?_
    | refine ite_snd ?_ ?_
    | refine Dev.stmNext_ind (hP.mono (by decide) (by decide)) ?_
    | refine Dev.stmStart_ind (hP.mono (by decide) (by decide)) ?_
    | refine Dev.stmHalt_ind (hP.mono (by decide) (by decide)) ?_
    | refine Dev.updStm_ind (hP.mono (by decide) (by decide)) ?_
    | refine Dev.stmLost_ind (hP.mono (by decide) (by decide)) ?_
    | refine Dev.stmChoose_ind (hP.mono (by decide) (by decide)) ?_
    | split

theorem Dev.stmOutput_ind {P : Dev → Prop} (hP : Closed P 0x8000 0x8000000000000000000000000000000000400000000000000000000000000000000000000000000000000000) {d : Dev} {u : Nat} (hd0 : P d) :
    P (Dev.stmOutput d u) := by
  unfold Dev.stmOutput
  try dsimp only
  repeat' with_reducible first
    | assumption
    | (intro _; intros; try dsimp only)
    | refine ite_ind ?_ ?_
    | refine ite_fst ?_ ?_
    | refine ite_snd ?_ ?_
    | refine Dev.count_ind hP (by decide) (by decide) ?_
    | refine Dev.updStm_ind (hP.mono (by decide) (by decide)) ?_
    | split

theorem Dev.stmBoundary_ind {P : Dev → Prop} (hP : Closed P 0x88000 0x8000000000000000000000000000000004d90400000000000000000000000000000000000000000000000000) {d : Dev} {u : Nat} {k : Nat} (hd0 : P d) :
    P (Dev.stmBoundary d u k) := by
  unfold Dev.stmBoundary
  try dsimp only
  repeat' with_reducible first
    | assumption
    | (intro _; intros; try dsimp only)
    | refine ite_ind ?_ ?_
    | refine ite_fst ?_ ?_
    | refine ite_snd ?_ ?_
    | refine Dev.updStm_ind (hP.mono (by decide) (by decide)) ?_
    | refine Dev.stmPass_ind (hP.mono (by decide) (by decide)) ?_
    | refine Dev.jumpsBefore_ind (hP.mono (by decide) (by decide)) ?_
    | refine Dev.put_ind hP (by decide) ?_
    | refine Dev.stmGranule_ind (hP.mono (by decide) (by decide)) ?_
    | refine Dev.stmOutput_ind (hP.mono (by decide) (by decide)) ?_
    | refine Dev.stmShow_ind (hP.mono (by decide) (by decide)) ?_
    | split

theorem Dev.granuleBoundaryEff_ind {P : Dev → Prop} (hP : Closed P 0x88009 0x8000000000000000000000000000000004d90400000000000000000000000000000000000000000000000000) {u : Nat} {d : Dev} (hd0 : P d) :
    P (Dev.granuleBoundaryEff u d) := by
  unfold Dev.granuleBoundaryEff
  try dsimp only
  repeat' with_reducible first
    | assumption
    | refine ite_ind ?_ ?_
    | refine Dev.advanceTo_ind (hP.mono (by decide) (by decide)) ?_
    | refine Dev.stmBoundary_ind (hP.mono (by decide) (by decide)) ?_

theorem Dev.jumpArrivalEff_ind {P : Dev → Prop} (hP : Closed P 0x88009 0x8000000000000000000000000000000004d90400000000000000000000000000000000000000000000000000) {u : Nat} {d : Dev} (hd0 : P d) :
    P (Dev.jumpArrivalEff u d) := by
  unfold Dev.jumpArrivalEff
  try dsimp only
  repeat' with_reducible first
    | assumption
    | refine ite_ind ?_ ?_
    | refine Dev.granuleBoundaryEff_ind (hP.mono (by decide) (by decide)) ?_
    | refine Dev.advanceTo_ind (hP.mono (by decide) (by decide)) ?_
    | refine Dev.jumpTake_ind (hP.mono (by decide) (by decide)) ?_
    | refine Dev.stmShow_ind (hP.mono (by decide) (by decide)) ?_
    | split

theorem Dev.prefetchRecordEff_ind {P : Dev → Prop} (hP : Closed P 0x8000 0x4000400000000000000000000000000000000000000000000000000) {u : Nat} {d : Dev} (hd0 : P d) :
    P (Dev.prefetchRecordEff u d) := by
  unfold Dev.prefetchRecordEff
  try dsimp only
  repeat' with_reducible first
    | assumption
    | (intro _; intros; try dsimp only)
    | refine ite_ind ?_ ?_
    | refine ite_fst ?_ ?_
    | refine ite_snd ?_ ?_
    | refine Dev.updStm_ind (hP.mono (by decide) (by decide)) ?_
    | refine Dev.stmShow_ind (hP.mono (by decide) (by decide)) ?_
    | split

end Sys2Proof.Machine
end

