-- ==== Sys2Proof/Laws/IndTrigBus.lean ====
section
/-!
SUPPORT. What the operations of Machine/TrigBus.lean can change: each keeps every property that is closed under changes of its
parts and writes of its register families.
-/
namespace Sys2Proof.Machine

theorem Dev.updPin_ind {P : Dev → Prop} (hP : Closed P 0x800000 0x0) {d : Dev} {x : Nat} {f : SynPin → SynPin} (hd0 : P d) :
    P (Dev.updPin d x f) := by
  unfold Dev.updPin
  try dsimp only
  repeat' with_reducible first
    | assumption
    | refine hP.syn (by decide) _ _ ?_

theorem Dev.updPing_ind {P : Dev → Prop} (hP : Closed P 0x800000 0x0) {d : Dev} {f : Ping → Ping} (hd0 : P d) :
    P (Dev.updPing d f) := by
  unfold Dev.updPing
  try dsimp only
  repeat' with_reducible first
    | assumption
    | refine hP.syn (by decide) _ _ ?_

theorem Dev.timedMessage_ind {P : Dev → Prop} (hP : Closed P 0xa00 0x0) {d : Dev} {time : Nat} {frac : Nat} {code : Nat} {src : Nat} (hd0 : P d) :
    P (Dev.timedMessage d time frac code src) := by
  unfold Dev.timedMessage
  try dsimp only
  repeat' with_reducible first
    | assumption
    | refine ite_ind ?_ ?_
    | refine Dev.msgToUnits_ind (hP.mono (by decide) (by decide)) ?_
    | refine Dev.decSyncTimed_ind (hP.mono (by decide) (by decide)) ?_

theorem Dev.pinChange_ind {P : Dev → Prop} (hP : Closed P 0x200 0x0) {d : Dev} {k : Nat} {x : Nat} {level : Bool} {inst : Nat} (hd0 : P d) :
    P (Dev.pinChange d k x level inst) := by
  unfold Dev.pinChange
  try dsimp only
  repeat' with_reducible first
    | assumption
    | refine Dev.toUnits_ind (hP.mono (by decide) (by decide)) ?_

theorem Dev.seenUpdate_ind {P : Dev → Prop} (hP : Closed P 0x200 0x0) {d : Dev} {before : Dev} (hd0 : P d) :
    P (Dev.seenUpdate d before) := by
  unfold Dev.seenUpdate
  try dsimp only
  repeat' with_reducible first
    | assumption
    | refine foldl_ind ?_ ?_
    | (intro _; intros; try dsimp only)
    | refine ite_ind ?_ ?_
    | refine Dev.pinChange_ind (hP.mono (by decide) (by decide)) ?_
    | split

theorem Dev.pinLaunch_ind {P : Dev → Prop} (hP : Closed P 0x800000 0x0) {d : Dev} {x : Nat} {l : Launch} (hd0 : P d) :
    P (Dev.pinLaunch d x l) := by
  unfold Dev.pinLaunch
  try dsimp only
  repeat' with_reducible first
    | assumption
    | (intro _; intros; try dsimp only)
    | refine Dev.updPin_ind (hP.mono (by decide) (by decide)) ?_
    | split

theorem Dev.pinDrive_ind {P : Dev → Prop} (hP : Closed P 0x800000 0x0) {d : Dev} {x : Nat} {b : Nat} {level : Bool} (hd0 : P d) :
    P (Dev.pinDrive d x b level) := by
  unfold Dev.pinDrive
  try dsimp only
  repeat' with_reducible first
    | assumption
    | (intro _; intros; try dsimp only)
    | refine ite_ind ?_ ?_
    | refine Dev.updPin_ind (hP.mono (by decide) (by decide)) ?_
    | split

theorem Dev.pinPulse_ind {P : Dev → Prop} (hP : Closed P 0x800000 0x0) {d : Dev} {x : Nat} {b : Nat} {width : Nat} (hd0 : P d) :
    P (Dev.pinPulse d x b width) := by
  unfold Dev.pinPulse
  try dsimp only
  repeat' with_reducible first
    | assumption
    | (intro _; intros; try dsimp only)
    | refine Dev.pinDrive_ind (hP.mono (by decide) (by decide)) ?_
    | refine Dev.updPin_ind (hP.mono (by decide) (by decide)) ?_
    | split

theorem Dev.pinIdle_ind {P : Dev → Prop} (hP : Closed P 0x800000 0x0) {d : Dev} {x : Nat} (hd0 : P d) :
    P (Dev.pinIdle d x) := by
  unfold Dev.pinIdle
  try dsimp only
  repeat' with_reducible first
    | assumption
    | (intro _; intros; try dsimp only)
    | refine Dev.pinDrive_ind (hP.mono (by decide) (by decide)) ?_
    | refine Dev.updPin_ind (hP.mono (by decide) (by decide)) ?_
    | split

theorem Dev.pinRelaunch_ind {P : Dev → Prop} (hP : Closed P 0x800000 0x0) {d : Dev} {x : Nat} (hd0 : P d) :
    P (Dev.pinRelaunch d x) := by
  unfold Dev.pinRelaunch
  try dsimp only
  repeat' with_reducible first
    | assumption
    | (intro _; intros; try dsimp only)
    | refine Dev.updPin_ind (hP.mono (by decide) (by decide)) ?_
    | split

theorem Dev.pinResume_ind {P : Dev → Prop} (hP : Closed P 0x800000 0x0) {d : Dev} {x : Nat} (hd0 : P d) :
    P (Dev.pinResume d x) := by
  unfold Dev.pinResume
  try dsimp only
  repeat' with_reducible first
    | assumption
    | refine ite_ind ?_ ?_
    | refine Dev.pinRelaunch_ind (hP.mono (by decide) (by decide)) ?_

theorem Dev.outputLaunchEff_ind {P : Dev → Prop} (hP : Closed P 0x880009 0x0) {x : Nat} {d : Dev} (hd0 : P d) :
    P (Dev.outputLaunchEff x d) := by
  unfold Dev.outputLaunchEff
  try dsimp only
  repeat' with_reducible first
    | assumption
    | (intro _; intros; try dsimp only)
    | refine ite_ind ?_ ?_
    | refine Dev.advanceTo_ind (hP.mono (by decide) (by decide)) ?_
    | refine Dev.updPin_ind (hP.mono (by decide) (by decide)) ?_
    | refine Dev.pinDrive_ind (hP.mono (by decide) (by decide)) ?_
    | refine Dev.pinPulse_ind (hP.mono (by decide) (by decide)) ?_
    | split

theorem Dev.markerPulseEndEff_ind {P : Dev → Prop} (hP : Closed P 0x880009 0x0) {x : Nat} {d : Dev} (hd0 : P d) :
    P (Dev.markerPulseEndEff x d) := by
  unfold Dev.markerPulseEndEff
  try dsimp only
  repeat' with_reducible first
    | assumption
    | (intro _; intros; try dsimp only)
    | refine Dev.advanceTo_ind (hP.mono (by decide) (by decide)) ?_
    | refine Dev.pinDrive_ind (hP.mono (by decide) (by decide)) ?_
    | refine Dev.updPin_ind (hP.mono (by decide) (by decide)) ?_
    | split

theorem Dev.eventPulses_ind {P : Dev → Prop} (hP : Closed P 0x800000 0x0) {d : Dev} {k : Nat} {e : Nat} (hd0 : P d) :
    P (Dev.eventPulses d k e) := by
  unfold Dev.eventPulses
  try dsimp only
  repeat' with_reducible first
    | assumption
    | refine foldl_ind ?_ ?_
    | (intro _; intros; try dsimp only)
    | refine ite_ind ?_ ?_
    | refine Dev.pinLaunch_ind (hP.mono (by decide) (by decide)) ?_
    | split

theorem Dev.markPulse_ind {P : Dev → Prop} (hP : Closed P 0x800000 0x0) {d : Dev} {m : Nat} {width : Nat} {boundary : Nat} (hd0 : P d) :
    P (Dev.markPulse d m width boundary) := by
  unfold Dev.markPulse
  try dsimp only
  repeat' with_reducible first
    | assumption
    | (intro _; intros; try dsimp only)
    | refine ite_ind ?_ ?_
    | refine ite_fst ?_ ?_
    | refine ite_snd ?_ ?_
    | refine Dev.updPin_ind (hP.mono (by decide) (by decide)) ?_
    | refine Dev.pinLaunch_ind (hP.mono (by decide) (by decide)) ?_
    | split

theorem Dev.pcfgWritten_ind {P : Dev → Prop} (hP : Closed P 0x800200 0x0) {d : Dev} {before : Dev} {x : Nat} (hd0 : P d) :
    P (Dev.pcfgWritten d before x) := by
  unfold Dev.pcfgWritten
  try dsimp only
  repeat' with_reducible first
    | assumption
    | refine ite_ind ?_ ?_
    | refine Dev.pinIdle_ind (hP.mono (by decide) (by decide)) ?_
    | refine Dev.pinRelaunch_ind (hP.mono (by decide) (by decide)) ?_
    | refine Dev.pinLaunch_ind (hP.mono (by decide) (by decide)) ?_
    | refine Dev.seenUpdate_ind (hP.mono (by decide) (by decide)) ?_

theorem Dev.txqShow_ind {P : Dev → Prop} (hP : Closed P 0x0 0x200000000000000000000000000000000000000000000000000000000000000000000000000000) {d : Dev} (hd0 : P d) :
    P (Dev.txqShow d) := by
  unfold Dev.txqShow
  try dsimp only
  repeat' with_reducible first
    | assumption
    | refine Dev.put_ind hP (by decide) ?_

theorem Dev.wordDone_ind {P : Dev → Prop} (hP : Closed P 0x800000 0x200000000000000000000000000000000000000000000000000000000000000000000000000000) {d : Dev} (hd0 : P d) :
    P (Dev.wordDone d) := by
  unfold Dev.wordDone
  try dsimp only
  repeat' with_reducible first
    | assumption
    | refine hP.syn (by decide) _ _ ?_
    | refine Dev.txqShow_ind (hP.mono (by decide) (by decide)) ?_

theorem Dev.wordGiveUp_ind {P : Dev → Prop} (hP : Closed P 0x880000 0x8000000008200000000000000000000000000000000000000000000000000000000000000000000000000000) {d : Dev} (hd0 : P d) :
    P (Dev.wordGiveUp d) := by
  unfold Dev.wordGiveUp
  try dsimp only
  repeat' with_reducible first
    | assumption
    | refine Dev.wordDone_ind (hP.mono (by decide) (by decide)) ?_
    | refine Dev.count_ind hP (by decide) (by decide) ?_
    | refine Dev.raise_ind (hP.mono (by decide) (by decide)) ?_

theorem Dev.wordsDrop_ind {P : Dev → Prop} (hP : Closed P 0x800000 0x8000000008200000000000000000000000000000000000000000000000000000000000000000000000000000) {d : Dev} (hd0 : P d) :
    P (Dev.wordsDrop d) := by
  unfold Dev.wordsDrop
  try dsimp only
  repeat' with_reducible first
    | assumption
    | refine hP.syn (by decide) _ _ ?_
    | refine Dev.count_ind hP (by decide) (by decide) ?_
    | refine Dev.txqShow_ind (hP.mono (by decide) (by decide)) ?_

theorem Dev.wordCollision_ind {P : Dev → Prop} (hP : Closed P 0x880000 0x800000000ca00000000000000000000000000000000000000000000000000000000000000000000000000000) {d : Dev} (hd0 : P d) :
    P (Dev.wordCollision d) := by
  unfold Dev.wordCollision
  try dsimp only
  repeat' with_reducible first
    | assumption
    | refine ite_ind ?_ ?_
    | refine Dev.count_ind hP (by decide) (by decide) ?_
    | refine Dev.raiseHeld_ind (hP.mono (by decide) (by decide)) ?_
    | refine Dev.wordGiveUp_ind (hP.mono (by decide) (by decide)) ?_
    | refine Dev.put_ind hP (by decide) ?_
    | refine hP.syn (by decide) _ _ ?_

theorem Dev.msgModeEnableEff_ind {P : Dev → Prop} (hP : Closed P 0x800202 0x338000000008280000000000000000000000000000000000000000000000000000000000000000000000000000) {v : W32} {d : Dev} (hd0 : P d) :
    P (Dev.msgModeEnableEff v d) := by
  unfold Dev.msgModeEnableEff
  try dsimp only
  repeat' with_reducible first
    | assumption
    | refine ite_ind ?_ ?_
    | refine Dev.put_ind hP (by decide) ?_
    | refine Dev.putb_ind hP (by decide) ?_
    | refine Dev.wordsDrop_ind (hP.mono (by decide) (by decide)) ?_
    | refine Dev.pinResume_ind (hP.mono (by decide) (by decide)) ?_
    | refine Dev.seenUpdate_ind (hP.mono (by decide) (by decide)) ?_
    | refine Dev.pinIdle_ind (hP.mono (by decide) (by decide)) ?_
    | refine Dev.testEnd_ind (hP.mono (by decide) (by decide)) ?_

theorem Dev.msgTxGoEff_ind {P : Dev → Prop} (hP : Closed P 0x800000 0x8000000008300000000000000000000000000000000000000000000000000000000000000000000000000000) {v : W32} {d : Dev} (hd0 : P d) :
    P (Dev.msgTxGoEff v d) := by
  unfold Dev.msgTxGoEff
  try dsimp only
  repeat' with_reducible first
    | assumption
    | refine ite_ind ?_ ?_
    | refine hP.wrAt (by decide) ?_
    | refine Dev.count_ind hP (by decide) (by decide) ?_
    | refine Dev.put_ind hP (by decide) ?_
    | refine hP.syn (by decide) _ _ ?_
    | refine Dev.txqShow_ind (hP.mono (by decide) (by decide)) ?_

theorem Dev.wordSendStartEff_ind {P : Dev → Prop} (hP : Closed P 0x880009 0x0) {d : Dev} (hd0 : P d) :
    P (Dev.wordSendStartEff d) := by
  unfold Dev.wordSendStartEff
  try dsimp only
  repeat' with_reducible first
    | assumption
    | refine ite_ind ?_ ?_
    | refine Dev.advanceTo_ind (hP.mono (by decide) (by decide)) ?_
    | refine hP.syn (by decide) _ _ ?_
    | split

theorem Dev.backoffExpiryEff_ind {P : Dev → Prop} (hP : Closed P 0x880009 0x0) {d : Dev} (hd0 : P d) :
    P (Dev.backoffExpiryEff d) := by
  unfold Dev.backoffExpiryEff
  try dsimp only
  repeat' with_reducible first
    | assumption
    | refine Dev.advanceTo_ind (hP.mono (by decide) (by decide)) ?_
    | refine hP.syn (by decide) _ _ ?_
    | split

theorem Dev.wordArrives_ind {P : Dev → Prop} (hP : Closed P 0xa00 0x0) {d : Dev} {b : Nat} {w : W32} (hd0 : P d) :
    P (Dev.wordArrives d b w) := by
  unfold Dev.wordArrives
  try dsimp only
  repeat' with_reducible first
    | assumption
    | refine Dev.timedMessage_ind (hP.mono (by decide) (by decide)) ?_

theorem Dev.msgTxEff_ind {P : Dev → Prop} (hP : Closed P 0x880a09 0x40200000000000000000000000000000000000000000000000000000000000000000000000000000) {d : Dev} (hd0 : P d) :
    P (Dev.msgTxEff d) := by
  unfold Dev.msgTxEff
  try dsimp only
  repeat' with_reducible first
    | assumption
    | refine Dev.advanceTo_ind (hP.mono (by decide) (by decide)) ?_
    | refine Dev.wordArrives_ind (hP.mono (by decide) (by decide)) ?_
    | refine Dev.bump_ind hP (by decide) ?_
    | refine Dev.raise_ind (hP.mono (by decide) (by decide)) ?_
    | refine Dev.wordDone_ind (hP.mono (by decide) (by decide)) ?_
    | split

theorem Dev.msgFrameRxEff_ind {P : Dev → Prop} (hP : Closed P 0x80a00 0x8000000032400000000000000000000000000000000000000000000000000000000000000000000000000000) {framed : Bool} {word : W32} {crc : Byte} {ago : Nat} {sample : Nat} {frac : Nat} {d : Dev} (hd0 : P d) :
    P (Dev.msgFrameRxEff framed word crc ago sample frac d) := by
  unfold Dev.msgFrameRxEff
  try dsimp only
  repeat' with_reducible first
    | assumption
    | refine ite_ind ?_ ?_
    | refine Dev.count_ind hP (by decide) (by decide) ?_
    | refine Dev.raiseHeld_ind (hP.mono (by decide) (by decide)) ?_
    | refine Dev.raise_ind (hP.mono (by decide) (by decide)) ?_
    | refine Dev.bump_ind hP (by decide) ?_
    | refine hP.wrAt (by decide) ?_
    | refine Dev.wordArrives_ind (hP.mono (by decide) (by decide)) ?_
    | split

theorem Dev.pingEnd_ind {P : Dev → Prop} (hP : Closed P 0x800000 0x100000000000000000000000000000000000000000000000000000000000000000000000000000000) {d : Dev} {result : Nat} (hd0 : P d) :
    P (Dev.pingEnd d result) := by
  unfold Dev.pingEnd
  try dsimp only
  repeat' with_reducible first
    | assumption
    | refine hP.syn (by decide) _ _ ?_
    | refine Dev.put_ind hP (by decide) ?_
    | refine Dev.pinResume_ind (hP.mono (by decide) (by decide)) ?_

theorem Dev.pingGoEff_ind {P : Dev → Prop} (hP : Closed P 0x800202 0x330000000180000000000000000000000000000000000000000000000000000000000000000000000000000000) {v : W32} {d : Dev} (hd0 : P d) :
    P (Dev.pingGoEff v d) := by
  unfold Dev.pingGoEff
  try dsimp only
  repeat' with_reducible first
    | assumption
    | refine ite_ind ?_ ?_
    | refine hP.wrAt (by decide) ?_
    | refine Dev.put_ind hP (by decide) ?_
    | refine Dev.testEnd_ind (hP.mono (by decide) (by decide)) ?_
    | refine Dev.pinIdle_ind (hP.mono (by decide) (by decide)) ?_
    | refine hP.syn (by decide) _ _ ?_
    | refine Dev.seenUpdate_ind (hP.mono (by decide) (by decide)) ?_

theorem Dev.pingDrive_ind {P : Dev → Prop} (hP : Closed P 0x800000 0x0) {d : Dev} {p : Ping} {b : Nat} (hd0 : P d) :
    P (Dev.pingDrive d p b) := by
  unfold Dev.pingDrive
  try dsimp only
  repeat' with_reducible first
    | assumption
    | refine ite_ind ?_ ?_
    | refine Dev.pinPulse_ind (hP.mono (by decide) (by decide)) ?_

theorem Dev.pingPulseEff_ind {P : Dev → Prop} (hP : Closed P 0x880009 0x8000000000000000000000000000000000000000000000000000000000000000000000000000000000000000) {d : Dev} (hd0 : P d) :
    P (Dev.pingPulseEff d) := by
  unfold Dev.pingPulseEff
  try dsimp only
  repeat' with_reducible first
    | assumption
    | (intro _; intros; try dsimp only)
    | refine ite_ind ?_ ?_
    | refine Dev.count_ind hP (by decide) (by decide) ?_
    | refine Dev.advanceTo_ind (hP.mono (by decide) (by decide)) ?_
    | refine Dev.pingDrive_ind (hP.mono (by decide) (by decide)) ?_
    | refine Dev.updPing_ind (hP.mono (by decide) (by decide)) ?_
    | split

theorem Dev.pingMeasured_ind {P : Dev → Prop} (hP : Closed P 0x800000 0x100000000000000000000000000000000000000000000000000000000000000000000000000000000) {d : Dev} {x : Int} (hd0 : P d) :
    P (Dev.pingMeasured d x) := by
  unfold Dev.pingMeasured
  try dsimp only
  repeat' with_reducible first
    | assumption
    | (intro _; intros; try dsimp only)
    | refine Dev.updPing_ind (hP.mono (by decide) (by decide)) ?_
    | refine Dev.put_ind hP (by decide) ?_
    | split

theorem Dev.pingEdge_ind {P : Dev → Prop} (hP : Closed P 0x800000 0x8000000100000000000000000000000000000000000000000000000000000000000000000000000000000000) {d : Dev} {p : Ping} {stamp : Nat} (hd0 : P d) :
    P (Dev.pingEdge d p stamp) := by
  unfold Dev.pingEdge
  try dsimp only
  repeat' with_reducible first
    | assumption
    | (intro _; intros; try dsimp only)
    | refine ite_ind ?_ ?_
    | refine Dev.count_ind hP (by decide) (by decide) ?_
    | refine Dev.updPing_ind (hP.mono (by decide) (by decide)) ?_
    | refine Dev.pingMeasured_ind (hP.mono (by decide) (by decide)) ?_
    | split

theorem Dev.pingReplyEff_ind {P : Dev → Prop} (hP : Closed P 0x880009 0x100000000000000000000000000000000000000000000000000000000000000000000000000000000) {d : Dev} (hd0 : P d) :
    P (Dev.pingReplyEff d) := by
  unfold Dev.pingReplyEff
  try dsimp only
  repeat' with_reducible first
    | assumption
    | (intro _; intros; try dsimp only)
    | refine Dev.advanceTo_ind (hP.mono (by decide) (by decide)) ?_
    | refine Dev.pingDrive_ind (hP.mono (by decide) (by decide)) ?_
    | refine Dev.updPing_ind (hP.mono (by decide) (by decide)) ?_
    | refine Dev.pingMeasured_ind (hP.mono (by decide) (by decide)) ?_
    | split

theorem Dev.pingDoneEff_ind {P : Dev → Prop} (hP : Closed P 0x880202 0x8000000700000000000000000000000000000000000000000000000000000000000000000000000000000000) {d : Dev} (hd0 : P d) :
    P (Dev.pingDoneEff d) := by
  unfold Dev.pingDoneEff
  try dsimp only
  repeat' with_reducible first
    | assumption
    | (intro _; intros; try dsimp only)
    | refine ite_ind ?_ ?_
    | refine Dev.count_ind hP (by decide) (by decide) ?_
    | refine Dev.drawn_ind (hP.mono (by decide) (by decide)) ?_
    | refine hP.wrAt (by decide) ?_
    | refine Dev.put_ind hP (by decide) ?_
    | refine Dev.putFree_ind hP (by decide) (by decide) ?_
    | refine Dev.pingEnd_ind (hP.mono (by decide) (by decide)) ?_
    | refine Dev.raise_ind (hP.mono (by decide) (by decide)) ?_
    | refine Dev.seenUpdate_ind (hP.mono (by decide) (by decide)) ?_
    | split

theorem Dev.pingTimeoutEff_ind {P : Dev → Prop} (hP : Closed P 0x880209 0x100000000000000000000000000000000000000000000000000000000000000000000000000000000) {d : Dev} (hd0 : P d) :
    P (Dev.pingTimeoutEff d) := by
  unfold Dev.pingTimeoutEff
  try dsimp only
  repeat' with_reducible first
    | assumption
    | refine ite_ind ?_ ?_
    | refine Dev.advanceTo_ind (hP.mono (by decide) (by decide)) ?_
    | refine Dev.pingEnd_ind (hP.mono (by decide) (by decide)) ?_
    | refine Dev.seenUpdate_ind (hP.mono (by decide) (by decide)) ?_
    | split

theorem Dev.pinDeliver_ind {P : Dev → Prop} (hP : Closed P 0x880b00 0x8000000100000000000000000000000000000000000000000000000000000000000000000000000000000000) {d : Dev} {k : Nat} {x : Nat} {level : Bool} {stamp : Nat} {own : Option Nat} (hd0 : P d) :
    P (Dev.pinDeliver d k x level stamp own) := by
  unfold Dev.pinDeliver
  try dsimp only
  repeat' with_reducible first
    | assumption
    | refine ite_ind ?_ ?_
    | refine Dev.pingEdge_ind (hP.mono (by decide) (by decide)) ?_
    | refine Dev.pinChange_ind (hP.mono (by decide) (by decide)) ?_
    | refine Dev.raise_ind (hP.mono (by decide) (by decide)) ?_
    | refine Dev.originEdge_ind (hP.mono (by decide) (by decide)) ?_
    | refine Dev.decSyncTimed_ind (hP.mono (by decide) (by decide)) ?_
    | (unfold Dev.pinDeliver.deliver; try dsimp only)
    | split

theorem Dev.pinFiltered_ind {P : Dev → Prop} (hP : Closed P 0x880b00 0x8000004100000000000000000000000000000000000000000000000000000000000000000000000000000000) {d : Dev} {x : Nat} {stamp : Nat} {own : Option Nat} (hd0 : P d) :
    P (Dev.pinFiltered d x stamp own) := by
  unfold Dev.pinFiltered
  try dsimp only
  repeat' with_reducible first
    | assumption
    | (intro _; intros; try dsimp only)
    | refine Dev.updPin_ind (hP.mono (by decide) (by decide)) ?_
    | refine Dev.putb_ind hP (by decide) ?_
    | refine Dev.pinDeliver_ind (hP.mono (by decide) (by decide)) ?_
    | split

theorem Dev.filteredChangeEff_ind {P : Dev → Prop} (hP : Closed P 0x880b09 0x8000004100000000000000000000000000000000000000000000000000000000000000000000000000000000) {x : Nat} {d : Dev} (hd0 : P d) :
    P (Dev.filteredChangeEff x d) := by
  unfold Dev.filteredChangeEff
  try dsimp only
  repeat' with_reducible first
    | assumption
    | refine Dev.advanceTo_ind (hP.mono (by decide) (by decide)) ?_
    | refine Dev.pinFiltered_ind (hP.mono (by decide) (by decide)) ?_
    | split

theorem Dev.pinEdgeEff_ind {P : Dev → Prop} (hP : Closed P 0x880b00 0x800000c100000000000000000000000000000000000000000000000000000000000000000000000000000000) {x : Nat} {level : Bool} {sample : Nat} {frac : Nat} {d : Dev} (hd0 : P d) :
    P (Dev.pinEdgeEff x level sample frac d) := by
  unfold Dev.pinEdgeEff
  try dsimp only
  repeat' with_reducible first
    | assumption
    | (intro _; intros; try dsimp only)
    | refine ite_ind ?_ ?_
    | refine ite_fst ?_ ?_
    | refine ite_snd ?_ ?_
    | refine Dev.updPin_ind (hP.mono (by decide) (by decide)) ?_
    | refine Dev.pinFiltered_ind (hP.mono (by decide) (by decide)) ?_
    | refine Dev.count_ind hP (by decide) (by decide) ?_
    | refine Dev.raiseHeld_ind (hP.mono (by decide) (by decide)) ?_
    | split

theorem Dev.lineRelease_ind {P : Dev → Prop} (hP : Closed P 0x880000 0x8000000008200000000000000000000000000000000000000000000000000000000000000000000000000000) {d : Dev} {x : Nat} (hd0 : P d) :
    P (Dev.lineRelease d x) := by
  unfold Dev.lineRelease
  try dsimp only
  repeat' with_reducible first
    | assumption
    | refine ite_ind ?_ ?_
    | refine Dev.wordGiveUp_ind (hP.mono (by decide) (by decide)) ?_
    | refine Dev.pinIdle_ind (hP.mono (by decide) (by decide)) ?_

theorem Dev.ownershipWriteEff_ind {P : Dev → Prop} (hP : Closed P 0x880202 0x338000000008210000000000000000000000000000000000000000000000000000000000000000000000000000) {v : Nat} {d : Dev} (hd0 : P d) :
    P (Dev.ownershipWriteEff v d) := by
  unfold Dev.ownershipWriteEff
  try dsimp only
  repeat' with_reducible first
    | assumption
    | refine foldl_ind ?_ ?_
    | (intro _; intros; try dsimp only)
    | refine ite_ind ?_ ?_
    | refine Dev.lineRelease_ind (hP.mono (by decide) (by decide)) ?_
    | refine Dev.testEnd_ind (hP.mono (by decide) (by decide)) ?_
    | refine Dev.put_ind hP (by decide) ?_
    | refine Dev.pinResume_ind (hP.mono (by decide) (by decide)) ?_
    | refine Dev.seenUpdate_ind (hP.mono (by decide) (by decide)) ?_
    | split

theorem Dev.contentionEff_ind {P : Dev → Prop} (hP : Closed P 0x880008 0x20800000400da00000000000000000000000000000000000000000000000000000000000000000000000000000) {x : Nat} {level : Bool} {d : Dev} (hd0 : P d) :
    P (Dev.contentionEff x level d) := by
  unfold Dev.contentionEff
  try dsimp only
  repeat' with_reducible first
    | assumption
    | refine ite_ind ?_ ?_
    | refine Dev.setFlag_ind hP (by decide) (by decide) ?_
    | refine Dev.count_ind hP (by decide) (by decide) ?_
    | refine Dev.raise_ind (hP.mono (by decide) (by decide)) ?_
    | refine Dev.put_ind hP (by decide) ?_
    | refine Dev.wordCollision_ind (hP.mono (by decide) (by decide)) ?_
    | refine Dev.pinIdle_ind (hP.mono (by decide) (by decide)) ?_
    | split

theorem Dev.faultClearEff_ind {P : Dev → Prop} (hP : Closed P 0x800000 0x4000000000000000000000000000000000000000000000000000000000000000000000000000000000) {x : Nat} {d : Dev} (hd0 : P d) :
    P (Dev.faultClearEff x d) := by
  unfold Dev.faultClearEff
  try dsimp only
  repeat' with_reducible first
    | assumption
    | refine ite_ind ?_ ?_
    | refine Dev.putb_ind hP (by decide) ?_
    | refine Dev.pinResume_ind (hP.mono (by decide) (by decide)) ?_

theorem Dev.trigBusReset_ind {P : Dev → Prop} (hP : Closed P 0x800000 0x8000000008200000000000000000000000000000000000000000000000000000000000000000000000000000) {d : Dev} (hd0 : P d) :
    P (Dev.trigBusReset d) := by
  unfold Dev.trigBusReset
  try dsimp only
  repeat' with_reducible first
    | assumption
    | refine foldl_ind ?_ ?_
    | (intro _; intros; try dsimp only)
    | refine ite_ind ?_ ?_
    | refine Dev.pinIdle_ind (hP.mono (by decide) (by decide)) ?_
    | refine Dev.wordsDrop_ind (hP.mono (by decide) (by decide)) ?_
    | refine hP.syn (by decide) _ _ ?_
    | split

end Sys2Proof.Machine
end

