-- ==== Sys2Proof/Laws/IndPorts.lean ====
section
/-!
SUPPORT. What the operations of Machine/Ports.lean can change: each keeps every property that is closed under changes of its
parts and writes of its register families.
-/
namespace Sys2Proof.Machine

theorem Dev.updPort_ind {P : Dev → Prop} (hP : Closed P 0x200000 0x0) {d : Dev} {p : Nat} {f : Port → Port} (hd0 : P d) :
    P (Dev.updPort d p f) := by
  unfold Dev.updPort
  try dsimp only
  repeat' with_reducible first
    | assumption
    | refine hP.eth (by decide) _ _ ?_

theorem Dev.updStream_ind {P : Dev → Prop} (hP : Closed P 0x10000 0x0) {d : Dev} {t : Nat} {f : Stream → Stream} (hd0 : P d) :
    P (Dev.updStream d t f) := by
  unfold Dev.updStream
  try dsimp only
  repeat' with_reducible first
    | assumption
    | (intro _; intros; try dsimp only)
    | refine Dev.updTgt_ind (hP.mono (by decide) (by decide)) ?_
    | split

theorem Dev.portReady_ind {P : Dev → Prop} (hP : Closed P 0x0 0x800000000000000000000000000000000000000000000000000000000000000000000000) {d : Dev} {p : Nat} (hd0 : P d) :
    P (Dev.portReady d p) := by
  unfold Dev.portReady
  try dsimp only
  repeat' with_reducible first
    | assumption
    | refine Dev.putb_ind hP (by decide) ?_

theorem Dev.portEnableEff_ind {P : Dev → Prop} (hP : Closed P 0x2 0x330000000000000000c00000000000000000000000000000000000000000000000000000000000000000000000) {p : Nat} {v : W32} {d : Dev} (hd0 : P d) :
    P (Dev.portEnableEff p v d) := by
  unfold Dev.portEnableEff
  try dsimp only
  repeat' with_reducible first
    | assumption
    | refine ite_ind ?_ ?_
    | refine hP.wrAt (by decide) ?_
    | refine Dev.putb_ind hP (by decide) ?_
    | refine Dev.put_ind hP (by decide) ?_
    | refine Dev.testEnd_ind (hP.mono (by decide) (by decide)) ?_
    | refine Dev.portReady_ind (hP.mono (by decide) (by decide)) ?_

theorem Dev.stalledShow_ind {P : Dev → Prop} (hP : Closed P 0x0 0x800000000000000000000000000000000000000000000000000000000000000000000000) {d : Dev} {p : Nat} (hd0 : P d) :
    P (Dev.stalledShow d p) := by
  unfold Dev.stalledShow
  try dsimp only
  repeat' with_reducible first
    | assumption
    | (intro _; intros; try dsimp only)
    | refine Dev.putb_ind hP (by decide) ?_
    | split

theorem Dev.portDisableEff_ind {P : Dev → Prop} (hP : Closed P 0x200000 0x8000000000001000c00000000000000000000000000000000000000000000000000000000000000000000000) {p : Nat} {d : Dev} (hd0 : P d) :
    P (Dev.portDisableEff p d) := by
  unfold Dev.portDisableEff
  try dsimp only
  repeat' with_reducible first
    | assumption
    | (intro _; intros; try dsimp only)
    | refine Dev.putb_ind hP (by decide) ?_
    | refine Dev.windowAbandon_ind (hP.mono (by decide) (by decide)) ?_
    | split

theorem Dev.creditEff_ind {P : Dev → Prop} (hP : Closed P 0x210000 0x8000000000000400800000000000000000000000000000000000000000000000000000000000000000000000) {t : Nat} {ack : Nat} {limit : Nat} {d : Dev} (hd0 : P d) :
    P (Dev.creditEff t ack limit d) := by
  unfold Dev.creditEff
  try dsimp only
  repeat' with_reducible first
    | assumption
    | (intro _; intros; try dsimp only)
    | refine ite_ind ?_ ?_
    | refine ite_fst ?_ ?_
    | refine ite_snd ?_ ?_
    | refine Dev.updStream_ind (hP.mono (by decide) (by decide)) ?_
    | refine Dev.count_ind hP (by decide) (by decide) ?_
    | refine Dev.updPort_ind (hP.mono (by decide) (by decide)) ?_
    | refine Dev.stalledShow_ind (hP.mono (by decide) (by decide)) ?_
    | split

theorem Dev.retxQueue_ind {P : Dev → Prop} (hP : Closed P 0x200000 0x8000000000000400000000000000000000000000000000000000000000000000000000000000000000000000) {d : Dev} {p : Nat} {t : Nat} {seq : Nat} (hd0 : P d) :
    P (Dev.retxQueue d p t seq) := by
  unfold Dev.retxQueue
  try dsimp only
  repeat' with_reducible first
    | assumption
    | (intro _; intros; try dsimp only)
    | refine ite_ind ?_ ?_
    | refine Dev.updPort_ind (hP.mono (by decide) (by decide)) ?_
    | refine Dev.count_ind hP (by decide) (by decide) ?_
    | split

theorem Dev.nackEff_ind {P : Dev → Prop} (hP : Closed P 0x210000 0x8000000000000480800000000000000000000000000000000000000000000000000000000000000000000000) {t : Nat} {ack : Nat} {limit : Nat} {runs : List (Nat × Nat)} {d : Dev} (hd0 : P d) :
    P (Dev.nackEff t ack limit runs d) := by
  unfold Dev.nackEff
  try dsimp only
  repeat' with_reducible first
    | assumption
    | refine foldl_ind ?_ ?_
    | refine foldl_fst ?_ ?_
    | refine foldl_snd ?_ ?_
    | (intro _; intros; try dsimp only)
    | refine ite_ind ?_ ?_
    | refine ite_fst ?_ ?_
    | refine ite_snd ?_ ?_
    | refine Dev.count_ind hP (by decide) (by decide) ?_
    | refine Dev.retxQueue_ind (hP.mono (by decide) (by decide)) ?_
    | refine Dev.creditEff_ind (hP.mono (by decide) (by decide)) ?_
    | split

theorem Dev.retransmitEff_ind {P : Dev → Prop} (hP : Closed P 0x280000 0x8000000000000800000000000000000000000000000000000000000000000000000000000000000000000000) {p : Nat} {d : Dev} (hd0 : P d) :
    P (Dev.retransmitEff p d) := by
  unfold Dev.retransmitEff
  try dsimp only
  repeat' with_reducible first
    | assumption
    | (intro _; intros; try dsimp only)
    | refine ite_ind ?_ ?_
    | refine Dev.updPort_ind (hP.mono (by decide) (by decide)) ?_
    | refine Dev.count_ind hP (by decide) (by decide) ?_
    | refine Dev.raiseHeld_ind (hP.mono (by decide) (by decide)) ?_
    | split

theorem Dev.creditTimeoutEff_ind {P : Dev → Prop} (hP : Closed P 0x290009 0x800000000000000000000000000000000000000000000000000000000000000000000000) {t : Nat} {d : Dev} (hd0 : P d) :
    P (Dev.creditTimeoutEff t d) := by
  unfold Dev.creditTimeoutEff
  try dsimp only
  repeat' with_reducible first
    | assumption
    | (intro _; intros; try dsimp only)
    | refine ite_ind ?_ ?_
    | refine Dev.advanceTo_ind (hP.mono (by decide) (by decide)) ?_
    | refine Dev.updStream_ind (hP.mono (by decide) (by decide)) ?_
    | refine Dev.updPort_ind (hP.mono (by decide) (by decide)) ?_
    | refine Dev.stalledShow_ind (hP.mono (by decide) (by decide)) ?_
    | refine Dev.raise_ind (hP.mono (by decide) (by decide)) ?_
    | split

theorem Dev.packetSend_ind {P : Dev → Prop} (hP : Closed P 0x290000 0x0) {d : Dev} {t : Nat} {k : Packet} {done : Dev → Dev}
    (h : P d) (hb : ∀ d, P d → P (done d)) : P (d.packetSend t k done) := by
  unfold Dev.packetSend
  dsimp only
  refine ite_ind (Dev.raiseHeld_ind (hP.mono (by decide) (by decide)) h) (hb _ ?_)
  exact Dev.updStream_ind (hP.mono (by decide) (by decide)) (Dev.updPort_ind (hP.mono (by decide) (by decide)) h)

theorem Dev.segmentPacket_ind {P : Dev → Prop} (hP : Closed P 0x290400 0x80000000000000000000000000000) {d : Dev} {t : Nat} {k : Nat} {h : Held} (hd0 : P d) :
    P (Dev.segmentPacket d t k h) := by
  unfold Dev.segmentPacket
  try dsimp only
  repeat' with_reducible first
    | assumption
    | (intro _; intros; try dsimp only)
    | refine ite_ind ?_ ?_
    | refine ite_fst ?_ ?_
    | refine ite_snd ?_ ?_
    | refine Dev.packetSend_ind (hP.mono (by decide) (by decide)) ?_ ?_
    | refine Dev.updTgt_ind (hP.mono (by decide) (by decide)) ?_
    | refine Dev.updHeld_ind (hP.mono (by decide) (by decide)) ?_
    | refine Dev.hoistDelivered_ind (hP.mono (by decide) (by decide)) ?_
    | split

theorem Dev.replayPacket_ind {P : Dev → Prop} (hP : Closed P 0x290000 0x20000000000000000000000000000000000000000000000000000000000) {d : Dev} {t : Nat} (hd0 : P d) :
    P (Dev.replayPacket d t) := by
  unfold Dev.replayPacket
  try dsimp only
  repeat' with_reducible first
    | assumption
    | (intro _; intros; try dsimp only)
    | refine ite_ind ?_ ?_
    | refine Dev.packetSend_ind (hP.mono (by decide) (by decide)) ?_ ?_
    | refine Dev.put_ind hP (by decide) ?_
    | refine Dev.updTgt_ind (hP.mono (by decide) (by decide)) ?_
    | split

theorem Dev.packetLaunchEff_ind {P : Dev → Prop} (hP : Closed P 0x290400 0x20000000000000000000000000000080000000000000000000000000000) {t : Nat} {d : Dev} (hd0 : P d) :
    P (Dev.packetLaunchEff t d) := by
  unfold Dev.packetLaunchEff
  try dsimp only
  repeat' with_reducible first
    | assumption
    | refine ite_ind ?_ ?_
    | refine Dev.replayPacket_ind (hP.mono (by decide) (by decide)) ?_
    | refine Dev.segmentPacket_ind (hP.mono (by decide) (by decide)) ?_
    | split

theorem Dev.fireAtEff_ind {P : Dev → Prop} (hP : Closed P 0x2c0a00 0x200008000000000002000000000000000000000000000000000000000000000000000000000000000000000000000) {p : Nat} {sub : Nat} {arrival : Nat} {l : List Byte} {d : Dev} (hd0 : P d) :
    P (Dev.fireAtEff p sub arrival l d) := by
  unfold Dev.fireAtEff
  try dsimp only
  repeat' with_reducible first
    | assumption
    | (intro _; intros; try dsimp only)
    | refine ite_ind ?_ ?_
    | refine Dev.put_ind hP (by decide) ?_
    | refine Dev.raise_ind (hP.mono (by decide) (by decide)) ?_
    | refine Dev.count_ind hP (by decide) (by decide) ?_
    | refine Dev.post_ind (hP.mono (by decide) (by decide)) ?_
    | refine Dev.updPort_ind (hP.mono (by decide) (by decide)) ?_
    | refine Dev.timedMessage_ind (hP.mono (by decide) (by decide)) ?_
    | split

theorem Dev.faKeyWriteEff_ind {P : Dev → Prop} (hP : Closed P 0x400000 0x300000000000000000000000000000000000000000000000000000000000000000000000000000000000000000000) {k : Nat} {i : Nat} {v : W32} {d : Dev} (hd0 : P d) :
    P (Dev.faKeyWriteEff k i v d) := by
  unfold Dev.faKeyWriteEff
  try dsimp only
  repeat' with_reducible first
    | assumption
    | refine hP.faKey (by decide) _ _ ?_
    | refine Dev.putb_ind hP (by decide) ?_
    | refine Dev.put_ind hP (by decide) ?_

theorem Dev.arpNdEchoEff_ind {P : Dev → Prop} (hP : Closed P 0x200000 0x8000000000000200000000000000000000000000000000000000000000000000000000000000000000000000) {p : Nat} {d : Dev} (hd0 : P d) :
    P (Dev.arpNdEchoEff p d) := by
  unfold Dev.arpNdEchoEff
  try dsimp only
  repeat' with_reducible first
    | assumption
    | (intro _; intros; try dsimp only)
    | refine ite_ind ?_ ?_
    | refine Dev.updPort_ind (hP.mono (by decide) (by decide)) ?_
    | refine Dev.count_ind hP (by decide) (by decide) ?_
    | split

theorem Dev.foreign_ind {P : Dev → Prop} (hP : Closed P 0x80000 0x8000000000000040000000000000000000000000000000000000000000000000000000000000000000000000) {d : Dev} {p : Nat} (hd0 : P d) :
    P (Dev.foreign d p) := by
  unfold Dev.foreign
  try dsimp only
  repeat' with_reducible first
    | assumption
    | refine Dev.count_ind hP (by decide) (by decide) ?_
    | refine Dev.raiseHeld_ind (hP.mono (by decide) (by decide)) ?_

theorem Dev.jarizRx_ind {P : Dev → Prop} (hP : Closed P 0x2d0a00 0x200008000000000002580800000000000000000000000000000000000000000000000000000000000000000000000) {d : Dev} {p : Nat} {sub : Nat} {arrival : Nat} {v6 : Bool} {src : Nat} {sport : Nat} {l : List Byte} (hd0 : P d) :
    P (Dev.jarizRx d p sub arrival v6 src sport l) := by
  unfold Dev.jarizRx
  try dsimp only
  repeat' with_reducible first
    | assumption
    | (intro _; intros; try dsimp only)
    | refine ite_ind ?_ ?_
    | refine ite_fst ?_ ?_
    | refine ite_snd ?_ ?_
    | refine Dev.count_ind hP (by decide) (by decide) ?_
    | refine Dev.fireAtEff_ind (hP.mono (by decide) (by decide)) ?_
    | refine Dev.raiseHeld_ind (hP.mono (by decide) (by decide)) ?_
    | refine Dev.creditEff_ind (hP.mono (by decide) (by decide)) ?_
    | refine Dev.nackEff_ind (hP.mono (by decide) (by decide)) ?_
    | split

theorem Dev.ethFrameRxEff_ind {P : Dev → Prop} (hP : Closed P 0x2d0a00 0x2000080000000000027e0800000000000000000000000000000000000000000000000000000000000000000000000) {p : Nat} {sub : Nat} {arrival : Nat} {f : EthFrame} {d : Dev} (hd0 : P d) :
    P (Dev.ethFrameRxEff p sub arrival f d) := by
  unfold Dev.ethFrameRxEff
  try dsimp only
  repeat' with_reducible first
    | assumption
    | refine ite_ind ?_ ?_
    | refine Dev.count_ind hP (by decide) (by decide) ?_
    | refine Dev.foreign_ind (hP.mono (by decide) (by decide)) ?_
    | refine Dev.arpNdEchoEff_ind (hP.mono (by decide) (by decide)) ?_
    | refine Dev.jarizRx_ind (hP.mono (by decide) (by decide)) ?_
    | split

theorem Dev.subportLink_ind {P : Dev → Prop} (hP : Closed P 0x80000 0x800000000000000000000000000000000000000000000000000000000000000000000000) {d : Dev} {p : Nat} {s : Nat} {up : Bool} (hd0 : P d) :
    P (Dev.subportLink d p s up) := by
  unfold Dev.subportLink
  try dsimp only
  repeat' with_reducible first
    | assumption
    | refine ite_ind ?_ ?_
    | refine Dev.put_ind hP (by decide) ?_
    | refine Dev.raise_ind (hP.mono (by decide) (by decide)) ?_

theorem Dev.subportLinkUpEff_ind {P : Dev → Prop} (hP : Closed P 0x80000 0x800000000000000000000000000000000000000000000000000000000000000000000000) {p : Nat} {s : Nat} {d : Dev} (hd0 : P d) :
    P (Dev.subportLinkUpEff p s d) := by
  unfold Dev.subportLinkUpEff
  try dsimp only
  repeat' with_reducible first
    | assumption
    | refine Dev.subportLink_ind (hP.mono (by decide) (by decide)) ?_

theorem Dev.subportLinkDownEff_ind {P : Dev → Prop} (hP : Closed P 0x80000 0x800000000000000000000000000000000000000000000000000000000000000000000000) {p : Nat} {s : Nat} {d : Dev} (hd0 : P d) :
    P (Dev.subportLinkDownEff p s d) := by
  unfold Dev.subportLinkDownEff
  try dsimp only
  repeat' with_reducible first
    | assumption
    | refine Dev.subportLink_ind (hP.mono (by decide) (by decide)) ?_

end Sys2Proof.Machine
end

