-- ==== Sys2Proof/Laws/IndRaster.lean ====
section
/-!
SUPPORT. What the operations of Machine/Raster.lean can change: each keeps every property that is closed under changes of its
parts and writes of its register families.
-/
namespace Sys2Proof.Machine

theorem Dev.updCanvas_ind {P : Dev → Prop} (hP : Closed P 0x1000000 0x0) {d : Dev} {c : Nat} {f : Canvas → Canvas} (hd0 : P d) :
    P (Dev.updCanvas d c f) := by
  unfold Dev.updCanvas
  try dsimp only
  repeat' with_reducible first
    | assumption
    | refine hP.ras (by decide) _ _ (by first | exact Memory.keeps_refl _ | exact Memory.keeps_store (by decide) _ _ _ | exact Memory.keeps_filter (by decide) _ _ | exact Memory.keeps_nil (by decide) _) ?_

theorem Dev.updOut_ind {P : Dev → Prop} (hP : Closed P 0x1000000 0x0) {d : Dev} {x : Nat} {f : Output → Output} (hd0 : P d) :
    P (Dev.updOut d x f) := by
  unfold Dev.updOut
  try dsimp only
  repeat' with_reducible first
    | assumption
    | refine hP.ras (by decide) _ _ (by first | exact Memory.keeps_refl _ | exact Memory.keeps_store (by decide) _ _ _ | exact Memory.keeps_filter (by decide) _ _ | exact Memory.keeps_nil (by decide) _) ?_

theorem Dev.canvasResult_ind {P : Dev → Prop} (hP : Closed P 0x0 0x40000000000000000000000000000000000000000000000000000000000000000000000000000000000) {d : Dev} {c : Nat} {r : Nat} (hd0 : P d) :
    P (Dev.canvasResult d c r) := by
  unfold Dev.canvasResult
  try dsimp only
  repeat' with_reducible first
    | assumption
    | refine ite_ind ?_ ?_
    | refine Dev.put_ind hP (by decide) ?_

theorem Dev.canvasEnableEff_ind {P : Dev → Prop} (hP : Closed P 0x0 0x50000000000000000000000000000000000000000000000000000000000000000000000000000000000) {c : Nat} {d : Dev} (hd0 : P d) :
    P (Dev.canvasEnableEff c d) := by
  unfold Dev.canvasEnableEff
  try dsimp only
  repeat' with_reducible first
    | assumption
    | refine ite_ind ?_ ?_
    | refine Dev.canvasResult_ind (hP.mono (by decide) (by decide)) ?_
    | refine Dev.putBit_ind hP (by decide) ?_

theorem Dev.canvasDisable_ind {P : Dev → Prop} (hP : Closed P 0x1000000 0x50000000000000000000000000000000000000000000000000000000000000000000000000000000000) {d : Dev} {c : Nat} (hd0 : P d) :
    P (Dev.canvasDisable d c) := by
  unfold Dev.canvasDisable
  try dsimp only
  repeat' with_reducible first
    | assumption
    | (intro _; intros; try dsimp only)
    | refine Dev.putBit_ind hP (by decide) ?_
    | refine Dev.updCanvas_ind (hP.mono (by decide) (by decide)) ?_
    | split

theorem Dev.canvasGuard_ind {P : Dev → Prop} (hP : Closed P 0x0 0x40000000000000000000000000000000000000000000000000000000000000000000000000000000000) {a b : Dev} {c : Nat} (ha : P a) (hb : P b) :
    P (a.canvasGuard b c) :=
  ite_ind (Dev.canvasResult_ind (hP.mono (by decide) (by decide)) hb) ha

theorem Dev.rasGoEff_ind {P : Dev → Prop} (hP : Closed P 0x1000000 0x0) {c : Nat} {d : Dev} (hd0 : P d) :
    P (Dev.rasGoEff c d) := by
  unfold Dev.rasGoEff
  try dsimp only
  repeat' with_reducible first
    | assumption
    | (intro _; intros; try dsimp only)
    | refine ite_ind ?_ ?_
    | refine Dev.updCanvas_ind (hP.mono (by decide) (by decide)) ?_
    | split

theorem Dev.passStartEff_ind {P : Dev → Prop} (hP : Closed P 0x1000000 0x40000000000000000000000000000000000000000000000000000000000000000000000000000000000) {c : Nat} {d : Dev} (hd0 : P d) :
    P (Dev.passStartEff c d) := by
  unfold Dev.passStartEff
  try dsimp only
  repeat' with_reducible first
    | assumption
    | (intro _; intros; try dsimp only)
    | refine ite_ind ?_ ?_
    | refine Dev.putBit_ind hP (by decide) ?_
    | refine Dev.updCanvas_ind (hP.mono (by decide) (by decide)) ?_
    | split

theorem Dev.layerErrors_ind {P : Dev → Prop} (hP : Closed P 0x0 0x40000000000000000000000000000000000000000000000000000000000000000000000000000000000) {d : Dev} {c : Nat} (hd0 : P d) :
    P (Dev.layerErrors d c) := by
  unfold Dev.layerErrors
  try dsimp only
  repeat' with_reducible first
    | assumption
    | refine foldl_ind ?_ ?_
    | (intro _; intros; try dsimp only)
    | refine ite_ind ?_ ?_
    | refine Dev.putBit_ind hP (by decide) ?_
    | split

theorem Dev.passEndEff_ind {P : Dev → Prop} (hP : Closed P 0x41080009 0x40000000000000000000000000000000000000000000000000000000000000000000000000000000000) {c : Nat} {d : Dev} (hd0 : P d) :
    P (Dev.passEndEff c d) := by
  unfold Dev.passEndEff
  dsimp only
  repeat' with_reducible first
    | assumption
    | (intro _; intros; try dsimp only)
    | refine ite_ind ?_ ?_
    | refine foldl_ind ?_ ?_
    | refine Dev.updCanvas_ind (hP.mono (by decide) (by decide)) ?_
    | refine Dev.updOut_ind (hP.mono (by decide) (by decide)) ?_
    | refine Dev.putBit_ind hP (by decide) ?_
    | refine Dev.raise_ind (hP.mono (by decide) (by decide)) ?_
    | refine Dev.layerErrors_ind (hP.mono (by decide) (by decide)) ?_
    | refine Dev.advanceTo_ind (hP.mono (by decide) (by decide)) ?_
    | refine hP.ras (by decide) _ _ ?_ ?_
    | refine Memory.keeps_foldl ?_ _ _
    | exact Memory.keeps_store (by decide) _ _ _

theorem Dev.dpyCommit_ind {P : Dev → Prop} (hP : Closed P 0x1080000 0x8001200000000000000000000000000000000000000000000000000000000000000000000000000000000000) {d : Dev} {named : List Nat} (hd0 : P d) :
    P (Dev.dpyCommit d named) := by
  unfold Dev.dpyCommit
  try dsimp only
  repeat' with_reducible first
    | assumption
    | refine foldl_ind ?_ ?_
    | (intro _; intros; try dsimp only)
    | refine ite_ind ?_ ?_
    | refine Dev.put_ind hP (by decide) ?_
    | refine Dev.count_ind hP (by decide) (by decide) ?_
    | refine Dev.raise_ind (hP.mono (by decide) (by decide)) ?_
    | refine Dev.updOut_ind (hP.mono (by decide) (by decide)) ?_
    | split

theorem Dev.dpyCommitAEff_ind {P : Dev → Prop} (hP : Closed P 0x1080000 0x8001200000000000000000000000000000000000000000000000000000000000000000000000000000000000) {d : Dev} (hd0 : P d) :
    P (Dev.dpyCommitAEff d) := by
  unfold Dev.dpyCommitAEff
  try dsimp only
  repeat' with_reducible first
    | assumption
    | refine Dev.dpyCommit_ind (hP.mono (by decide) (by decide)) ?_

theorem Dev.dpyCommitBEff_ind {P : Dev → Prop} (hP : Closed P 0x1080000 0x8001200000000000000000000000000000000000000000000000000000000000000000000000000000000000) {d : Dev} (hd0 : P d) :
    P (Dev.dpyCommitBEff d) := by
  unfold Dev.dpyCommitBEff
  try dsimp only
  repeat' with_reducible first
    | assumption
    | refine Dev.dpyCommit_ind (hP.mono (by decide) (by decide)) ?_

theorem Dev.outStart_ind {P : Dev → Prop} (hP : Closed P 0x1000000 0x0) {d : Dev} {x : Nat} (hd0 : P d) :
    P (Dev.outStart d x) := by
  unfold Dev.outStart
  try dsimp only
  repeat' with_reducible first
    | assumption
    | (intro _; intros; try dsimp only)
    | refine Dev.updOut_ind (hP.mono (by decide) (by decide)) ?_
    | split

theorem Dev.outsShow_ind {P : Dev → Prop} (hP : Closed P 0x1000000 0x0) {d : Dev} {before : Dev} (hd0 : P d) :
    P (Dev.outsShow d before) := by
  unfold Dev.outsShow
  try dsimp only
  repeat' with_reducible first
    | assumption
    | refine foldl_ind ?_ ?_
    | (intro _; intros; try dsimp only)
    | refine ite_ind ?_ ?_
    | refine Dev.outStart_ind (hP.mono (by decide) (by decide)) ?_
    | split

theorem Dev.dpyCtlWritten_ind {P : Dev → Prop} (hP : Closed P 0x1000002 0x330000200000000000000000000000000000000000000000000000000000000000000000000000000000000000) {d : Dev} {before : Dev} {x : Nat} (hd0 : P d) :
    P (Dev.dpyCtlWritten d before x) := by
  unfold Dev.dpyCtlWritten
  try dsimp only
  repeat' with_reducible first
    | assumption
    | (intro _; intros; try dsimp only)
    | refine ite_ind ?_ ?_
    | refine Dev.outsShow_ind (hP.mono (by decide) (by decide)) ?_
    | refine Dev.testEnd_ind (hP.mono (by decide) (by decide)) ?_
    | refine Dev.updOut_ind (hP.mono (by decide) (by decide)) ?_
    | refine Dev.put_ind hP (by decide) ?_
    | split

theorem Dev.crcShow_ind {P : Dev → Prop} (hP : Closed P 0x2 0x1000000000000000000000000000000000000000000000000000000000000000000000000000000000000000000) {d : Dev} {x : Nat} (hd0 : P d) :
    P (Dev.crcShow d x) := by
  unfold Dev.crcShow
  try dsimp only
  repeat' with_reducible first
    | assumption
    | refine foldl_ind ?_ ?_
    | (intro _; intros; try dsimp only)
    | refine ite_ind ?_ ?_
    | refine Dev.put_ind hP (by decide) ?_
    | refine Dev.putFree_ind hP (by decide) (by decide) ?_
    | split

theorem Dev.vblankEff_ind {P : Dev → Prop} (hP : Closed P 0x1080002 0x1000000200000000000000000000000000000000000000000000000000000000000000000000000000000000000) {x : Nat} {tick : Nat} {d : Dev} (hd0 : P d) :
    P (Dev.vblankEff x tick d) := by
  unfold Dev.vblankEff
  try dsimp only
  repeat' with_reducible first
    | assumption
    | (intro _; intros; try dsimp only)
    | refine ite_ind ?_ ?_
    | refine Dev.crcShow_ind (hP.mono (by decide) (by decide)) ?_
    | refine Dev.raise_ind (hP.mono (by decide) (by decide)) ?_
    | refine Dev.updOut_ind (hP.mono (by decide) (by decide)) ?_
    | refine Dev.put_ind hP (by decide) ?_
    | split

theorem Dev.vrrPorchEndEff_ind {P : Dev → Prop} (hP : Closed P 0x1080009 0x0) {d : Dev} (hd0 : P d) :
    P (Dev.vrrPorchEndEff d) := by
  unfold Dev.vrrPorchEndEff
  try dsimp only
  repeat' with_reducible first
    | assumption
    | (intro _; intros; try dsimp only)
    | refine ite_ind ?_ ?_
    | refine Dev.advanceTo_ind (hP.mono (by decide) (by decide)) ?_
    | refine Dev.updOut_ind (hP.mono (by decide) (by decide)) ?_
    | split

theorem Dev.outSample_ind {P : Dev → Prop} (hP : Closed P 0x1000000 0x0) {d : Dev} {x : Nat} (hd0 : P d) :
    P (Dev.outSample d x) := by
  unfold Dev.outSample
  try dsimp only
  repeat' with_reducible first
    | assumption
    | (intro _; intros; try dsimp only)
    | refine ite_ind ?_ ?_
    | refine Dev.updOut_ind (hP.mono (by decide) (by decide)) ?_
    | split

theorem Dev.frontBufferSampleEff_ind {P : Dev → Prop} (hP : Closed P 0x1080009 0x0) {x : Nat} {d : Dev} (hd0 : P d) :
    P (Dev.frontBufferSampleEff x d) := by
  unfold Dev.frontBufferSampleEff
  try dsimp only
  repeat' with_reducible first
    | assumption
    | (intro _; intros; try dsimp only)
    | refine ite_ind ?_ ?_
    | refine Dev.updOut_ind (hP.mono (by decide) (by decide)) ?_
    | refine Dev.outSample_ind (hP.mono (by decide) (by decide)) ?_
    | refine Dev.advanceTo_ind (hP.mono (by decide) (by decide)) ?_
    | split

theorem Dev.push_ind {P : Dev → Prop} (hP : Closed P 0x1000000 0x0) {d : Dev} {x : Nat} (hd0 : P d) :
    P (Dev.push d x) := by
  unfold Dev.push
  try dsimp only
  repeat' with_reducible first
    | assumption
    | (intro _; intros; try dsimp only)
    | refine Dev.outSample_ind (hP.mono (by decide) (by decide)) ?_
    | refine Dev.updOut_ind (hP.mono (by decide) (by decide)) ?_
    | split

theorem Dev.teEdgeEff_ind {P : Dev → Prop} (hP : Closed P 0x1080000 0x200000000000000000000000000000000000000000000000000000000000000000000000000000000000) {tick : Nat} {d : Dev} (hd0 : P d) :
    P (Dev.teEdgeEff tick d) := by
  unfold Dev.teEdgeEff
  try dsimp only
  repeat' with_reducible first
    | assumption
    | (intro _; intros; try dsimp only)
    | refine ite_ind ?_ ?_
    | refine Dev.updOut_ind (hP.mono (by decide) (by decide)) ?_
    | refine Dev.put_ind hP (by decide) ?_
    | refine Dev.raise_ind (hP.mono (by decide) (by decide)) ?_
    | refine Dev.push_ind (hP.mono (by decide) (by decide)) ?_
    | split

theorem Dev.teMissEff_ind {P : Dev → Prop} (hP : Closed P 0x1080009 0x8008000000000000000000000000000000000000000000000000000000000000000000000000000000000000) {d : Dev} (hd0 : P d) :
    P (Dev.teMissEff d) := by
  unfold Dev.teMissEff
  try dsimp only
  repeat' with_reducible first
    | assumption
    | refine ite_ind ?_ ?_
    | refine Dev.advanceTo_ind (hP.mono (by decide) (by decide)) ?_
    | refine Dev.push_ind (hP.mono (by decide) (by decide)) ?_
    | refine Dev.count_ind hP (by decide) (by decide) ?_
    | refine Dev.raise_ind (hP.mono (by decide) (by decide)) ?_

theorem Dev.repairEff_ind {P : Dev → Prop} (hP : Closed P 0x1080002 0x8000080000000000000000000000000000000000000000000000000000000000000000000000000000000000) {d : Dev} (hd0 : P d) :
    P (Dev.repairEff d) := by
  unfold Dev.repairEff
  try dsimp only
  repeat' with_reducible first
    | assumption
    | refine foldl_ind ?_ ?_
    | (intro _; intros; try dsimp only)
    | refine ite_ind ?_ ?_
    | refine Dev.updCanvas_ind (hP.mono (by decide) (by decide)) ?_
    | refine Dev.drawn_ind (hP.mono (by decide) (by decide)) ?_
    | refine Dev.count_ind hP (by decide) (by decide) ?_
    | refine Dev.raise_ind (hP.mono (by decide) (by decide)) ?_
    | split

theorem Dev.fetchUnderrunEff_ind {P : Dev → Prop} (hP : Closed P 0x1080000 0x8006000000000000000000000000000000000000000000000000000000000000000000000000000000000000) {x : Nat} {n : Nat} {d : Dev} (hd0 : P d) :
    P (Dev.fetchUnderrunEff x n d) := by
  unfold Dev.fetchUnderrunEff
  try dsimp only
  repeat' with_reducible first
    | assumption
    | (intro _; intros; try dsimp only)
    | refine ite_ind ?_ ?_
    | refine Dev.count_ind hP (by decide) (by decide) ?_
    | refine Dev.raise_ind (hP.mono (by decide) (by decide)) ?_
    | refine Dev.updOut_ind (hP.mono (by decide) (by decide)) ?_
    | split

theorem Dev.daHotPlugEff_ind {P : Dev → Prop} (hP : Closed P 0x1080000 0x0) {d : Dev} (hd0 : P d) :
    P (Dev.daHotPlugEff d) := by
  unfold Dev.daHotPlugEff
  try dsimp only
  repeat' with_reducible first
    | assumption
    | (intro _; intros; try dsimp only)
    | refine Dev.updOut_ind (hP.mono (by decide) (by decide)) ?_
    | refine Dev.raise_ind (hP.mono (by decide) (by decide)) ?_
    | split

theorem Dev.daLinkTrainedEff_ind {P : Dev → Prop} (hP : Closed P 0x1080000 0x400000000000000000000000000000000000000000000000000000000000000000000000000000000000) {trained : Option (Nat × Nat)} {d : Dev} (hd0 : P d) :
    P (Dev.daLinkTrainedEff trained d) := by
  unfold Dev.daLinkTrainedEff
  try dsimp only
  repeat' with_reducible first
    | assumption
    | (intro _; intros; try dsimp only)
    | refine Dev.updOut_ind (hP.mono (by decide) (by decide)) ?_
    | refine Dev.raise_ind (hP.mono (by decide) (by decide)) ?_
    | refine Dev.put_ind hP (by decide) ?_
    | refine Dev.putb_ind hP (by decide) ?_
    | split

end Sys2Proof.Machine
end

