-- ==== Sys2Proof/Laws/IndSecurity.lean ====
section
/-!
SUPPORT. What the operations of Machine/Security.lean can change: each keeps every property that is closed under changes of its
parts and writes of its register families.
-/
namespace Sys2Proof.Machine

theorem Dev.newNonce_ind {P : Dev → Prop} (hP : Closed P 0x2 0x400000000000000000000000000000000000000000000000000000000000000000000000000000000000000) {d : Dev} (hd0 : P d) :
    P (Dev.newNonce d) := by
  unfold Dev.newNonce
  try dsimp only
  repeat' with_reducible first
    | assumption
    | refine Dev.putFree_ind hP (by decide) (by decide) ?_

theorem Dev.secResult_ind {P : Dev → Prop} (hP : Closed P 0x4080002 0x2400000000000000000000000000000000000000000000000000000000000000000000000000000000000000) {d : Dev} {r : Nat} (hd0 : P d) :
    P (Dev.secResult d r) := by
  unfold Dev.secResult
  try dsimp only
  repeat' with_reducible first
    | assumption
    | refine ite_ind ?_ ?_
    | refine hP.sec (by decide) _ _ ?_
    | refine Dev.put_ind hP (by decide) ?_
    | refine Dev.raise_ind (hP.mono (by decide) (by decide)) ?_
    | refine Dev.newNonce_ind (hP.mono (by decide) (by decide)) ?_

theorem Dev.measure_ind {P : Dev → Prop} (hP : Closed P 0x4000000 0x0) {d : Dev} {i : Nat} (hd0 : P d) :
    P (Dev.measure d i) := by
  unfold Dev.measure
  try dsimp only
  repeat' with_reducible first
    | assumption
    | refine hP.sec (by decide) _ _ ?_

theorem Dev.measureAll_ind {P : Dev → Prop} (hP : Closed P 0x4000000 0x0) {d : Dev} (hd0 : P d) :
    P (Dev.measureAll d) := by
  unfold Dev.measureAll
  try dsimp only
  repeat' with_reducible first
    | assumption
    | refine Dev.measure_ind (hP.mono (by decide) (by decide)) ?_

theorem Dev.lcState_ind {P : Dev → Prop} (hP : Closed P 0x80000 0x100000000000000000000000000000000000000000000000000000000000000000000000000000000000000) {d : Dev} {st : Nat} (hd0 : P d) :
    P (Dev.lcState d st) := by
  unfold Dev.lcState
  try dsimp only
  repeat' with_reducible first
    | assumption
    | refine Dev.put_ind hP (by decide) ?_
    | refine Dev.raise_ind (hP.mono (by decide) (by decide)) ?_

theorem Dev.scopesOpen_ind {P : Dev → Prop} (hP : Closed P 0x4080000 0x2000000000000000000000000000000000000000000000000000000000000000000000000000000000000000) {d : Dev} {scope : Nat} (hd0 : P d) :
    P (Dev.scopesOpen d scope) := by
  unfold Dev.scopesOpen
  try dsimp only
  repeat' with_reducible first
    | assumption
    | refine ite_ind ?_ ?_
    | refine Dev.put_ind hP (by decide) ?_
    | refine Dev.raise_ind (hP.mono (by decide) (by decide)) ?_
    | refine Dev.measure_ind (hP.mono (by decide) (by decide)) ?_

theorem Dev.spdmClear_ind {P : Dev → Prop} (hP : Closed P 0x4000000 0x0) {d : Dev} (hd0 : P d) :
    P (Dev.spdmClear d) := by
  unfold Dev.spdmClear
  try dsimp only
  repeat' with_reducible first
    | assumption
    | refine hP.sec (by decide) _ _ ?_

theorem Dev.returnErase_ind {P : Dev → Prop} (hP : Closed P 0x7d4d5709 0x3000081000000000000000000000000000003080000000000000000000000000a2601c00000003fc0002000000000) {d : Dev} (hd0 : P d) :
    P (Dev.returnErase d) := by
  unfold Dev.returnErase
  try dsimp only
  repeat' with_reducible first
    | assumption
    | refine foldl_ind ?_ ?_
    | (intro _; intros; try dsimp only)
    | refine ite_ind ?_ ?_
    | refine Dev.laneDisableEff_ind (hP.mono (by decide) (by decide)) ?_
    | refine Dev.put_ind hP (by decide) ?_
    | refine Dev.putb_ind hP (by decide) ?_
    | refine Dev.faKeyWriteEff_ind (hP.mono (by decide) (by decide)) ?_
    | refine Dev.raise_ind (hP.mono (by decide) (by decide)) ?_
    | refine Dev.spdmClear_ind (hP.mono (by decide) (by decide)) ?_
    | refine hP.ben (by decide) _ _ (Bench.keeps_of (by first | exact Memory.keeps_refl _ | exact Memory.keeps_store (by decide) _ _ _ | exact Memory.keeps_nil (by decide) _ | exact Memory.keeps_filter (by decide) _ _)
        (by first | exact Memory.keeps_refl _ | exact Memory.keeps_store (by decide) _ _ _ | exact Memory.keeps_filter (by decide) _ _)) ?_
    | refine hP.tal (by decide) _ _ (by first | exact Memory.keeps_refl _ | exact Memory.keeps_store (by decide) _ _ _ | exact Memory.keeps_filter (by decide) _ _ | exact Memory.keeps_nil (by decide) _) ?_
    | refine hP.ras (by decide) _ _ (by first | exact Memory.keeps_refl _ | exact Memory.keeps_store (by decide) _ _ _ | exact Memory.keeps_filter (by decide) _ _ | exact Memory.keeps_nil (by decide) _) ?_
    | refine hP.ndl (by decide) _ _ (by first | exact Memory.keeps_refl _ | exact Memory.keeps_store (by decide) _ _ _ | exact Memory.keeps_filter (by decide) _ _ | exact Memory.keeps_nil (by decide) _) ?_
    | split

theorem Dev.enterReturn_ind {P : Dev → Prop} (hP : Closed P 0x7d4d5709 0x3000081000000000000000000000000000003080000000000000000000000000a2601c00000003fc0002000000000) {d : Dev} (hd0 : P d) :
    P (Dev.enterReturn d) := by
  unfold Dev.enterReturn
  try dsimp only
  repeat' with_reducible first
    | assumption
    | refine Dev.lcState_ind (hP.mono (by decide) (by decide)) ?_
    | refine Dev.returnErase_ind (hP.mono (by decide) (by decide)) ?_

theorem Dev.secEffect_ind {P : Dev → Prop} (hP : Closed P 0x7d4d5709 0x30000a1000000000000000000000000000003080000000000000000000000000a2601c00000003fc0002000000000) {d : Dev} {kind : Nat} {l : List Byte} (hd0 : P d) :
    P (Dev.secEffect d kind l) := by
  unfold Dev.secEffect
  try dsimp only
  repeat' with_reducible first
    | assumption
    | refine hP.sec (by decide) _ _ ?_
    | refine Dev.lcState_ind (hP.mono (by decide) (by decide)) ?_
    | refine Dev.put_ind hP (by decide) ?_
    | refine Dev.putBit_ind hP (by decide) ?_
    | refine Dev.scopesOpen_ind (hP.mono (by decide) (by decide)) ?_
    | refine Dev.enterReturn_ind (hP.mono (by decide) (by decide)) ?_
    | split

theorem Dev.secGo_ind {P : Dev → Prop} (hP : Closed P 0x7d4d570b 0x30000a5000000000000000000000000000003080000000000000000000000000a2601c00000003fc0002000000000) {d : Dev} (hd0 : P d) :
    P (Dev.secGo d) := by
  unfold Dev.secGo
  try dsimp only
  repeat' with_reducible first
    | assumption
    | refine ite_ind ?_ ?_
    | refine Dev.secResult_ind (hP.mono (by decide) (by decide)) ?_
    | refine Dev.secEffect_ind (hP.mono (by decide) (by decide)) ?_
    | refine hP.sec (by decide) _ _ ?_
    | refine Dev.put_ind hP (by decide) ?_

theorem Dev.signedCommand_ind {P : Dev → Prop} (hP : Closed P 0x7d4d570b 0x30000a5000000000000000000000000000003080000000000000000000000000a2601c00000003fc0002000000000) {kind : Nat} {fuses : Bool} {d : Dev} (hd0 : P d) :
    P (Dev.signedCommand kind fuses d) := by
  unfold Dev.signedCommand
  try dsimp only
  repeat' with_reducible first
    | assumption
    | refine ite_ind ?_ ?_
    | refine Dev.secGo_ind (hP.mono (by decide) (by decide)) ?_
    | refine Dev.secEffect_ind (hP.mono (by decide) (by decide)) ?_
    | refine Dev.secResult_ind (hP.mono (by decide) (by decide)) ?_

theorem Dev.debugEff_ind {P : Dev → Prop} (hP : Closed P 0x7d4d570b 0x30000a5000000000000000000000000000003080000000000000000000000000a2601c00000003fc0002000000000) {d : Dev} (hd0 : P d) :
    P (Dev.debugEff d) := by
  unfold Dev.debugEff
  try dsimp only
  repeat' with_reducible first
    | assumption
    | refine ite_ind ?_ ?_
    | refine Dev.secGo_ind (hP.mono (by decide) (by decide)) ?_

theorem Dev.spdmAnswer_ind {P : Dev → Prop} (hP : Closed P 0x4000000 0x0) {d : Dev} {code : Nat} {report : List Nat} (hd0 : P d) :
    P (Dev.spdmAnswer d code report) := by
  unfold Dev.spdmAnswer
  try dsimp only
  repeat' with_reducible first
    | assumption
    | refine hP.sec (by decide) _ _ ?_

theorem Dev.spdmError_ind {P : Dev → Prop} (hP : Closed P 0x4000000 0x0) {d : Dev} (hd0 : P d) :
    P (Dev.spdmError d) := by
  unfold Dev.spdmError
  try dsimp only
  repeat' with_reducible first
    | assumption
    | refine Dev.spdmAnswer_ind (hP.mono (by decide) (by decide)) ?_

theorem Dev.spdmRequest_ind {P : Dev → Prop} (hP : Closed P 0x4000000 0x0) {d : Dev} {n : Nat} {f : Dev → Dev} (h : P d)
    (hb : ∀ d, P d → P (f d)) : P (d.spdmRequest n f) :=
  ite_ind h (ite_ind (hb _ h) (Dev.spdmError_ind (hP.mono (by decide) (by decide)) h))

theorem Dev.updSession_ind {P : Dev → Prop} (hP : Closed P 0x4000000 0x0) {d : Dev} {s : Nat} {f : Spdm → Spdm} (hd0 : P d) :
    P (Dev.updSession d s f) := by
  unfold Dev.updSession
  try dsimp only
  repeat' with_reducible first
    | assumption
    | refine hP.sec (by decide) _ _ ?_

theorem Dev.agree_ind {P : Dev → Prop} (hP : Closed P 0x4000000 0x0) {d : Dev} {n : Nat} (hd0 : P d) :
    P (Dev.agree d n) := by
  unfold Dev.agree
  try dsimp only
  repeat' with_reducible first
    | assumption
    | refine hP.sec (by decide) _ _ ?_

theorem Dev.getVersionEff_ind {P : Dev → Prop} (hP : Closed P 0x4000000 0x0) {d : Dev} (hd0 : P d) :
    P (Dev.getVersionEff d) := by
  unfold Dev.getVersionEff
  try dsimp only
  repeat' with_reducible first
    | assumption
    | (intro _; intros; try dsimp only)
    | refine Dev.spdmRequest_ind (hP.mono (by decide) (by decide)) ?_ ?_
    | refine Dev.agree_ind (hP.mono (by decide) (by decide)) ?_
    | refine Dev.spdmAnswer_ind (hP.mono (by decide) (by decide)) ?_
    | split

theorem Dev.getCapabilitiesEff_ind {P : Dev → Prop} (hP : Closed P 0x4000000 0x0) {d : Dev} (hd0 : P d) :
    P (Dev.getCapabilitiesEff d) := by
  unfold Dev.getCapabilitiesEff
  try dsimp only
  repeat' with_reducible first
    | assumption
    | (intro _; intros; try dsimp only)
    | refine Dev.spdmRequest_ind (hP.mono (by decide) (by decide)) ?_ ?_
    | refine Dev.agree_ind (hP.mono (by decide) (by decide)) ?_
    | refine Dev.spdmAnswer_ind (hP.mono (by decide) (by decide)) ?_
    | split

theorem Dev.negotiateAlgorithmsEff_ind {P : Dev → Prop} (hP : Closed P 0x4000000 0x0) {d : Dev} (hd0 : P d) :
    P (Dev.negotiateAlgorithmsEff d) := by
  unfold Dev.negotiateAlgorithmsEff
  try dsimp only
  repeat' with_reducible first
    | assumption
    | (intro _; intros; try dsimp only)
    | refine Dev.spdmRequest_ind (hP.mono (by decide) (by decide)) ?_ ?_
    | refine Dev.agree_ind (hP.mono (by decide) (by decide)) ?_
    | refine Dev.spdmAnswer_ind (hP.mono (by decide) (by decide)) ?_
    | split

theorem Dev.getDigestsEff_ind {P : Dev → Prop} (hP : Closed P 0x4000000 0x0) {d : Dev} (hd0 : P d) :
    P (Dev.getDigestsEff d) := by
  unfold Dev.getDigestsEff
  try dsimp only
  repeat' with_reducible first
    | assumption
    | (intro _; intros; try dsimp only)
    | refine Dev.spdmRequest_ind (hP.mono (by decide) (by decide)) ?_ ?_
    | refine Dev.spdmAnswer_ind (hP.mono (by decide) (by decide)) ?_
    | split

theorem Dev.getCertificateEff_ind {P : Dev → Prop} (hP : Closed P 0x4000000 0x0) {slot : Nat} {d : Dev} (hd0 : P d) :
    P (Dev.getCertificateEff slot d) := by
  unfold Dev.getCertificateEff
  try dsimp only
  repeat' with_reducible first
    | assumption
    | (intro _; intros; try dsimp only)
    | refine ite_ind ?_ ?_
    | refine Dev.spdmRequest_ind (hP.mono (by decide) (by decide)) ?_ ?_
    | refine Dev.spdmAnswer_ind (hP.mono (by decide) (by decide)) ?_
    | refine Dev.spdmError_ind (hP.mono (by decide) (by decide)) ?_
    | split

theorem Dev.challengeEff_ind {P : Dev → Prop} (hP : Closed P 0x4000000 0x0) {slot : Nat} {d : Dev} (hd0 : P d) :
    P (Dev.challengeEff slot d) := by
  unfold Dev.challengeEff
  try dsimp only
  repeat' with_reducible first
    | assumption
    | (intro _; intros; try dsimp only)
    | refine ite_ind ?_ ?_
    | refine Dev.spdmRequest_ind (hP.mono (by decide) (by decide)) ?_ ?_
    | refine Dev.spdmAnswer_ind (hP.mono (by decide) (by decide)) ?_
    | refine Dev.spdmError_ind (hP.mono (by decide) (by decide)) ?_
    | split

theorem Dev.getMeasurementsEff_ind {P : Dev → Prop} (hP : Closed P 0x4000000 0x0) {index : Nat} {d : Dev} (hd0 : P d) :
    P (Dev.getMeasurementsEff index d) := by
  unfold Dev.getMeasurementsEff
  try dsimp only
  repeat' with_reducible first
    | assumption
    | (intro _; intros; try dsimp only)
    | refine ite_ind ?_ ?_
    | refine Dev.spdmRequest_ind (hP.mono (by decide) (by decide)) ?_ ?_
    | refine Dev.spdmAnswer_ind (hP.mono (by decide) (by decide)) ?_
    | refine Dev.spdmError_ind (hP.mono (by decide) (by decide)) ?_
    | split

theorem Dev.keyExchangeEff_ind {P : Dev → Prop} (hP : Closed P 0x4000000 0x0) {d : Dev} (hd0 : P d) :
    P (Dev.keyExchangeEff d) := by
  unfold Dev.keyExchangeEff
  try dsimp only
  repeat' with_reducible first
    | assumption
    | (intro _; intros; try dsimp only)
    | refine Dev.spdmRequest_ind (hP.mono (by decide) (by decide)) ?_ ?_
    | refine Dev.updSession_ind (hP.mono (by decide) (by decide)) ?_
    | refine Dev.spdmAnswer_ind (hP.mono (by decide) (by decide)) ?_
    | refine Dev.spdmError_ind (hP.mono (by decide) (by decide)) ?_
    | split

theorem Dev.inSession_ind {P : Dev → Prop} (hP : Closed P 0x4000000 0x0) {d : Dev} {s st : Nat} {f : Dev → Dev} (h : P d)
    (hb : ∀ d, P d → P (f d)) : P (d.inSession s st f) :=
  Dev.spdmRequest_ind (hP.mono (by decide) (by decide)) h fun d hd =>
    ite_ind (hb _ hd) (Dev.spdmError_ind (hP.mono (by decide) (by decide)) hd)

theorem Dev.finishEff_ind {P : Dev → Prop} (hP : Closed P 0x4080000 0x0) {s : Nat} {d : Dev} (hd0 : P d) :
    P (Dev.finishEff s d) := by
  unfold Dev.finishEff
  try dsimp only
  repeat' with_reducible first
    | assumption
    | (intro _; intros; try dsimp only)
    | refine Dev.inSession_ind (hP.mono (by decide) (by decide)) ?_ ?_
    | refine Dev.updSession_ind (hP.mono (by decide) (by decide)) ?_
    | refine Dev.raise_ind (hP.mono (by decide) (by decide)) ?_
    | refine Dev.spdmAnswer_ind (hP.mono (by decide) (by decide)) ?_
    | split

theorem Dev.keyUpdateEff_ind {P : Dev → Prop} (hP : Closed P 0x4000000 0x0) {s : Nat} {d : Dev} (hd0 : P d) :
    P (Dev.keyUpdateEff s d) := by
  unfold Dev.keyUpdateEff
  try dsimp only
  repeat' with_reducible first
    | assumption
    | (intro _; intros; try dsimp only)
    | refine Dev.inSession_ind (hP.mono (by decide) (by decide)) ?_ ?_
    | refine Dev.updSession_ind (hP.mono (by decide) (by decide)) ?_
    | refine Dev.spdmAnswer_ind (hP.mono (by decide) (by decide)) ?_
    | split

theorem Dev.heartbeatEff_ind {P : Dev → Prop} (hP : Closed P 0x4000000 0x0) {s : Nat} {d : Dev} (hd0 : P d) :
    P (Dev.heartbeatEff s d) := by
  unfold Dev.heartbeatEff
  try dsimp only
  repeat' with_reducible first
    | assumption
    | (intro _; intros; try dsimp only)
    | refine Dev.inSession_ind (hP.mono (by decide) (by decide)) ?_ ?_
    | refine Dev.spdmAnswer_ind (hP.mono (by decide) (by decide)) ?_
    | split

theorem Dev.endSessionEff_ind {P : Dev → Prop} (hP : Closed P 0x4080000 0x0) {s : Nat} {d : Dev} (hd0 : P d) :
    P (Dev.endSessionEff s d) := by
  unfold Dev.endSessionEff
  try dsimp only
  repeat' with_reducible first
    | assumption
    | (intro _; intros; try dsimp only)
    | refine Dev.inSession_ind (hP.mono (by decide) (by decide)) ?_ ?_
    | refine Dev.updSession_ind (hP.mono (by decide) (by decide)) ?_
    | refine Dev.raise_ind (hP.mono (by decide) (by decide)) ?_
    | refine Dev.spdmAnswer_ind (hP.mono (by decide) (by decide)) ?_
    | split

theorem Dev.vendorDefinedRequestEff_ind {P : Dev → Prop} (hP : Closed P 0x4000000 0x0) {s : Nat} {stream : Nat} {key : Option (BitVec 256)} {d : Dev} (hd0 : P d) :
    P (Dev.vendorDefinedRequestEff s stream key d) := by
  unfold Dev.vendorDefinedRequestEff
  try dsimp only
  repeat' with_reducible first
    | assumption
    | (intro _; intros; try dsimp only)
    | refine ite_ind ?_ ?_
    | refine Dev.inSession_ind (hP.mono (by decide) (by decide)) ?_ ?_
    | refine hP.sec (by decide) _ _ ?_
    | refine Dev.spdmAnswer_ind (hP.mono (by decide) (by decide)) ?_
    | split

theorem Dev.ideErrorEff_ind {P : Dev → Prop} (hP : Closed P 0x4080000 0xc000000000000000000000000000000000000000000000000000000000000000000000000000000000000000) {stream : Nat} {d : Dev} (hd0 : P d) :
    P (Dev.ideErrorEff stream d) := by
  unfold Dev.ideErrorEff
  try dsimp only
  repeat' with_reducible first
    | assumption
    | refine ite_ind ?_ ?_
    | refine hP.sec (by decide) _ _ ?_
    | refine Dev.count_ind hP (by decide) (by decide) ?_
    | refine Dev.raise_ind (hP.mono (by decide) (by decide)) ?_

end Sys2Proof.Machine
end

