-- ==== Sys2Proof/Laws/IndClock.lean ====
section
/-!
SUPPORT. What the operations of Machine/Clock.lean can change: each keeps every property that is closed under changes of its
parts and writes of its register families.
-/
namespace Sys2Proof.Machine

theorem Dev.logicLoss_ind {P : Dev → Prop} (hP : Closed P 0x20 0x0) {d : Dev} {u : Nat} {g : Nat} (hd0 : P d) :
    P (Dev.logicLoss d u g) := by
  unfold Dev.logicLoss
  try dsimp only
  repeat' with_reducible first
    | assumption
    | (intro _; intros; try dsimp only)
    | refine ite_ind ?_ ?_
    | refine hP.logic (by decide) _ _ ?_
    | split

theorem Dev.needleRelock_ind {P : Dev → Prop} (hP : Closed P 0x4000 0x0) {d : Dev} {n : Nat} (hd0 : P d) :
    P (Dev.needleRelock d n) := by
  unfold Dev.needleRelock
  try dsimp only
  repeat' with_reducible first
    | assumption
    | (intro _; intros; try dsimp only)
    | refine Dev.updNdl_ind (hP.mono (by decide) (by decide)) ?_
    | split

theorem Dev.synthUnlockEff_ind {P : Dev → Prop} (hP : Closed P 0x801b0 0x8000000000000000000000000000000000000000000000000000000000000000000000000000122400000010) {d : Dev} (hd0 : P d) :
    P (Dev.synthUnlockEff d) := by
  unfold Dev.synthUnlockEff
  try dsimp only
  repeat' with_reducible first
    | assumption
    | refine foldl_ind ?_ ?_
    | (intro _; intros; try dsimp only)
    | refine ite_ind ?_ ?_
    | refine Dev.sliceClockLossEff_ind (hP.mono (by decide) (by decide)) ?_
    | refine Dev.logicLoss_ind (hP.mono (by decide) (by decide)) ?_
    | refine Dev.tbUnlock_ind (hP.mono (by decide) (by decide)) ?_
    | split

theorem Dev.synthLockEff_ind {P : Dev → Prop} (hP : Closed P 0x84380 0x20400000010) {d : Dev} (hd0 : P d) :
    P (Dev.synthLockEff d) := by
  unfold Dev.synthLockEff
  try dsimp only
  repeat' with_reducible first
    | assumption
    | refine foldl_ind ?_ ?_
    | (intro _; intros; try dsimp only)
    | refine ite_ind ?_ ?_
    | refine Dev.tbLock_ind (hP.mono (by decide) (by decide)) ?_
    | refine Dev.sliceClockLockEff_ind (hP.mono (by decide) (by decide)) ?_
    | refine Dev.updUnit_ind (hP.mono (by decide) (by decide)) ?_
    | refine Dev.needleRelock_ind (hP.mono (by decide) (by decide)) ?_
    | refine Dev.eviRelock_ind (hP.mono (by decide) (by decide)) ?_
    | split

end Sys2Proof.Machine
end

