-- ==== Sys2Proof/Laws/IndEvents.lean ====
section
/-!
SUPPORT. What the operations of Machine/Events.lean can change: each keeps every property that is closed under changes of its
parts and writes of its register families.
-/
namespace Sys2Proof.Machine

theorem Dev.pendSet_ind {P : Dev → Prop} (hP : Closed P 0x8 0x40000000000000000000000000000000000000000000000000000000000000000000) {d : Dev} {e : Nat} (hd0 : P d) :
    P (Dev.pendSet d e) := by
  unfold Dev.pendSet
  try dsimp only
  repeat' with_reducible first
    | assumption
    | refine Dev.setBitsAt_ind hP (by decide) (by decide) ?_

theorem Dev.routed_ind {P : Dev → Prop} (hP : Closed P 0x8c4008 0x8000000000000000000060000000000000000000000000000000000000000000000000000000000000000000) {d : Dev} {k : Nat} {e : Nat} (hd0 : P d) :
    P (Dev.routed d k e) := by
  unfold Dev.routed
  try dsimp only
  repeat' with_reducible first
    | assumption
    | refine ite_ind ?_ ?_
    | refine Dev.pendSet_ind (hP.mono (by decide) (by decide)) ?_
    | refine Dev.request_ind (hP.mono (by decide) (by decide)) ?_
    | refine Dev.logEvent_ind (hP.mono (by decide) (by decide)) ?_
    | refine Dev.wakeEvent_ind (hP.mono (by decide) (by decide)) ?_
    | refine Dev.eventPulses_ind (hP.mono (by decide) (by decide)) ?_

theorem Dev.arrive_ind {P : Dev → Prop} (hP : Closed P 0x8c4008 0x8000000000000000000060000000000000000000000000000000000000000000000000000000000000000000) {d : Dev} {l : List (Nat × Nat)} (hd0 : P d) :
    P (Dev.arrive d l) := by
  unfold Dev.arrive
  try dsimp only
  repeat' with_reducible first
    | assumption
    | refine foldl_ind ?_ ?_
    | refine foldl_fst ?_ ?_
    | refine foldl_snd ?_ ?_
    | (intro _; intros; try dsimp only)
    | refine ite_fst ?_ ?_
    | refine ite_snd ?_ ?_
    | refine Dev.routed_ind (hP.mono (by decide) (by decide)) ?_
    | split

theorem Dev.eventsSettle_ind {P : Dev → Prop} (hP : Closed P 0x8c4008 0x8000000000000000000060000000000000000000000000000000000000000000000000000000000000000000) {d : Dev} (hd0 : P d) :
    P (Dev.eventsSettle d) := by
  unfold Dev.eventsSettle
  try dsimp only
  repeat' with_reducible first
    | assumption
    | refine hP.evr (by decide) _ _ ?_
    | refine Dev.arrive_ind (hP.mono (by decide) (by decide)) ?_

theorem Dev.eventRaisedEff_ind {P : Dev → Prop} (hP : Closed P 0x8c4009 0x8000000000000000000060000000000000000000000000000000000000000000000000000000000000000000) {e : Nat} {d : Dev} (hd0 : P d) :
    P (Dev.eventRaisedEff e d) := by
  unfold Dev.eventRaisedEff
  try dsimp only
  repeat' with_reducible first
    | assumption
    | refine ite_fst ?_ ?_
    | refine ite_snd ?_ ?_
    | refine hP.evr (by decide) _ _ ?_
    | refine Dev.arrive_ind (hP.mono (by decide) (by decide)) ?_
    | refine Dev.advanceTo_ind (hP.mono (by decide) (by decide)) ?_
    | refine Dev.routed_ind (hP.mono (by decide) (by decide)) ?_
    | split

end Sys2Proof.Machine
end

