-- ==== Sys2Proof/Laws/IndXferOps.lean ====
section
/-!
SUPPORT. What the operations of Machine/XferOps.lean can change: each keeps every property that is closed under changes of its
parts and writes of its register families.
-/
namespace Sys2Proof.Machine

theorem Dev.updXfer_ind {P : Dev → Prop} (hP : Closed P 0x100000 0x0) {d : Dev} {c : Nat} {f : XferChan → XferChan} (hd0 : P d) :
    P (Dev.updXfer d c f) := by
  unfold Dev.updXfer
  try dsimp only
  repeat' with_reducible first
    | assumption
    | refine hP.xfe (by decide) _ _ ?_

theorem Dev.xferState_ind {P : Dev → Prop} (hP : Closed P 0x0 0x1300000000000000000000000000000000000000000000000000000000000000000000) {d : Dev} {c : Nat} {st : Nat} (hd0 : P d) :
    P (Dev.xferState d c st) := by
  unfold Dev.xferState
  try dsimp only
  repeat' with_reducible first
    | assumption
    | refine Dev.put_ind hP (by decide) ?_
    | refine Dev.putBit_ind hP (by decide) ?_

theorem Dev.xferComplete_ind {P : Dev → Prop} (hP : Closed P 0x140000 0x1000000000000000000000000000000000000000000000000000000000000000000000) {d : Dev} {c : Nat} {status : Nat} {hops : Nat} {rest : Bool} {check : Nat} {tag : Nat} {bytes : Nat} (hd0 : P d) :
    P (Dev.xferComplete d c status hops rest check tag bytes) := by
  unfold Dev.xferComplete
  try dsimp only
  repeat' with_reducible first
    | assumption
    | (intro _; intros; try dsimp only)
    | refine Dev.post_ind (hP.mono (by decide) (by decide)) ?_
    | refine Dev.put_ind hP (by decide) ?_
    | refine Dev.updXfer_ind (hP.mono (by decide) (by decide)) ?_
    | split

theorem Dev.descWrite_ind {P : Dev → Prop} (hP : Closed P 0x98051000 0x0) {d : Dev} {ptr : Nat} {ofs : Nat} {b : List Byte} (hd0 : P d) :
    P (Dev.descWrite d ptr ofs b) := by
  unfold Dev.descWrite
  try dsimp only
  repeat' with_reducible first
    | assumption
    | refine ite_ind ?_ ?_
    | refine Dev.storeWrite_ind (hP.mono (by decide) (by decide)) ?_
    | refine hP.que (by decide) _ _ (by first | exact Memory.keeps_refl _ | exact Memory.keeps_store (by decide) _ _ _ | exact Memory.keeps_filter (by decide) _ _ | exact Memory.keeps_nil (by decide) _) ?_

theorem Dev.ringStatus_ind {P : Dev → Prop} (hP : Closed P 0x98051000 0x0) {d : Dev} {ptr : Nat} {check : Nat} {status : Nat} (hd0 : P d) :
    P (Dev.ringStatus d ptr check status) := by
  unfold Dev.ringStatus
  try dsimp only
  repeat' with_reducible first
    | assumption
    | refine Dev.descWrite_ind (hP.mono (by decide) (by decide)) ?_

theorem Dev.xferFail_ind {P : Dev → Prop} (hP : Closed P 0xffffffff 0xffffffffffffffffffffffffffffffffffffffffffffffffffffffffffffffffffffffffffffffffffffffffffffffffffffff) {d : Dev} {c : Nat} {status : Nat} {read : Bool} (hd0 : P d) :
    P (Dev.xferFail d c status read) := by
  unfold Dev.xferFail
  try dsimp only
  repeat' with_reducible first
    | assumption
    | (intro _; intros; try dsimp only)
    | refine ite_ind ?_ ?_
    | refine Dev.xferComplete_ind (hP.mono (by decide) (by decide)) ?_
    | refine Dev.ringStatus_ind (hP.mono (by decide) (by decide)) ?_
    | refine hP.wrAt (by decide) ?_
    | refine Dev.raise_ind (hP.mono (by decide) (by decide)) ?_
    | refine Dev.xferState_ind (hP.mono (by decide) (by decide)) ?_
    | refine Dev.updXfer_ind (hP.mono (by decide) (by decide)) ?_
    | refine Dev.idle_ind (hP.mono (by decide) (by decide)) ?_
    | split

theorem Dev.xferAbort_ind {P : Dev → Prop} (hP : Closed P 0xffffffff 0xffffffffffffffffffffffffffffffffffffffffffffffffffffffffffffffffffffffffffffffffffffffffffffffffffffff) {d : Dev} {c : Nat} (hd0 : P d) :
    P (Dev.xferAbort d c) := by
  unfold Dev.xferAbort
  try dsimp only
  repeat' with_reducible first
    | assumption
    | (intro _; intros; try dsimp only)
    | refine ite_ind ?_ ?_
    | refine Dev.xferComplete_ind (hP.mono (by decide) (by decide)) ?_
    | refine Dev.drawn_ind (hP.mono (by decide) (by decide)) ?_
    | refine Dev.raise_ind (hP.mono (by decide) (by decide)) ?_
    | refine Dev.xferState_ind (hP.mono (by decide) (by decide)) ?_
    | refine Dev.updXfer_ind (hP.mono (by decide) (by decide)) ?_
    | refine Dev.idle_ind (hP.mono (by decide) (by decide)) ?_
    | split

theorem Dev.xferLinkDown_ind {P : Dev → Prop} (hP : Closed P 0xffffffff 0xffffffffffffffffffffffffffffffffffffffffffffffffffffffffffffffffffffffffffffffffffffffffffffffffffffff) {d : Dev} {c : Nat} (hd0 : P d) :
    P (Dev.xferLinkDown d c) := by
  unfold Dev.xferLinkDown
  try dsimp only
  repeat' with_reducible first
    | assumption
    | refine ite_ind ?_ ?_
    | refine Dev.xferFail_ind (hP.mono (by decide) (by decide)) ?_

theorem Dev.xferFetch_ind {P : Dev → Prop} (hP : Closed P 0x100000 0x201300000000000000000000000000000000000000000000000000000000000000000000) {d : Dev} {c : Nat} {ptr : Nat} {hop : Nat} (hd0 : P d) :
    P (Dev.xferFetch d c ptr hop) := by
  unfold Dev.xferFetch
  try dsimp only
  repeat' with_reducible first
    | assumption
    | (intro _; intros; try dsimp only)
    | refine Dev.put_ind hP (by decide) ?_
    | refine Dev.xferState_ind (hP.mono (by decide) (by decide)) ?_
    | refine Dev.updXfer_ind (hP.mono (by decide) (by decide)) ?_
    | split

theorem Dev.xferIdle_ind {P : Dev → Prop} (hP : Closed P 0xffffffff 0xffffffffffffffffffffffffffffffffffffffffffffffffffffffffffffffffffffffffffffffffffffffffffffffffffffff) {d : Dev} {c : Nat} (hd0 : P d) :
    P (Dev.xferIdle d c) := by
  unfold Dev.xferIdle
  try dsimp only
  repeat' with_reducible first
    | assumption
    | (intro _; intros; try dsimp only)
    | refine Dev.xferState_ind (hP.mono (by decide) (by decide)) ?_
    | refine Dev.updXfer_ind (hP.mono (by decide) (by decide)) ?_
    | refine Dev.idle_ind (hP.mono (by decide) (by decide)) ?_
    | refine Dev.raise_ind (hP.mono (by decide) (by decide)) ?_
    | split

theorem Dev.xferEnd_ind {P : Dev → Prop} (hP : Closed P 0xffffffff 0xffffffffffffffffffffffffffffffffffffffffffffffffffffffffffffffffffffffffffffffffffffffffffffffffffffff) {d : Dev} {c : Nat} (hd0 : P d) :
    P (Dev.xferEnd d c) := by
  unfold Dev.xferEnd
  try dsimp only
  repeat' with_reducible first
    | assumption
    | refine ite_ind ?_ ?_
    | refine Dev.raise_ind (hP.mono (by decide) (by decide)) ?_
    | refine Dev.ringStatus_ind (hP.mono (by decide) (by decide)) ?_
    | refine Dev.descWrite_ind (hP.mono (by decide) (by decide)) ?_
    | refine Dev.xferComplete_ind (hP.mono (by decide) (by decide)) ?_
    | refine Dev.xferIdle_ind (hP.mono (by decide) (by decide)) ?_
    | refine Dev.xferFetch_ind (hP.mono (by decide) (by decide)) ?_

theorem Dev.xferBegin_ind {P : Dev → Prop} (hP : Closed P 0xffffffff 0xffffffffffffffffffffffffffffffffffffffffffffffffffffffffffffffffffffffffffffffffffffffffffffffffffffff) {d : Dev} {c : Nat} {l : Line} (hd0 : P d) :
    P (Dev.xferBegin d c l) := by
  unfold Dev.xferBegin
  try dsimp only
  repeat' with_reducible first
    | assumption
    | (intro _; intros; try dsimp only)
    | refine ite_ind ?_ ?_
    | refine Dev.updXfer_ind (hP.mono (by decide) (by decide)) ?_
    | refine Dev.xferEnd_ind (hP.mono (by decide) (by decide)) ?_
    | refine Dev.xferState_ind (hP.mono (by decide) (by decide)) ?_
    | refine Dev.xferFail_ind (hP.mono (by decide) (by decide)) ?_
    | split

theorem Dev.xferGoEff_ind {P : Dev → Prop} (hP : Closed P 0xffffffff 0xffffffffffffffffffffffffffffffffffffffffffffffffffffffffffffffffffffffffffffffffffffffffffffffffffffff) {c : Nat} {d : Dev} (hd0 : P d) :
    P (Dev.xferGoEff c d) := by
  unfold Dev.xferGoEff
  try dsimp only
  repeat' with_reducible first
    | assumption
    | (intro _; intros; try dsimp only)
    | refine ite_ind ?_ ?_
    | refine Dev.count_ind hP (by decide) (by decide) ?_
    | refine Dev.raise_ind (hP.mono (by decide) (by decide)) ?_
    | refine Dev.updXfer_ind (hP.mono (by decide) (by decide)) ?_
    | refine Dev.put_ind hP (by decide) ?_
    | refine Dev.xferBegin_ind (hP.mono (by decide) (by decide)) ?_
    | refine Dev.xferFetch_ind (hP.mono (by decide) (by decide)) ?_
    | split

theorem Dev.xferKickEff_ind {P : Dev → Prop} (hP : Closed P 0x100000 0x1300000000000000000000000000000000000000000000000000000000000000000000) {c : Nat} {d : Dev} (hd0 : P d) :
    P (Dev.xferKickEff c d) := by
  unfold Dev.xferKickEff
  try dsimp only
  repeat' with_reducible first
    | assumption
    | (intro _; intros; try dsimp only)
    | refine ite_ind ?_ ?_
    | refine Dev.xferState_ind (hP.mono (by decide) (by decide)) ?_
    | refine Dev.updXfer_ind (hP.mono (by decide) (by decide)) ?_
    | split

theorem Dev.xferAbortEff_ind {P : Dev → Prop} (hP : Closed P 0xffffffff 0xffffffffffffffffffffffffffffffffffffffffffffffffffffffffffffffffffffffffffffffffffffffffffffffffffffff) {c : Nat} {d : Dev} (hd0 : P d) :
    P (Dev.xferAbortEff c d) := by
  unfold Dev.xferAbortEff
  try dsimp only
  repeat' with_reducible first
    | assumption
    | refine ite_ind ?_ ?_
    | refine Dev.putb_ind hP (by decide) ?_
    | refine Dev.xferAbort_ind (hP.mono (by decide) (by decide)) ?_

end Sys2Proof.Machine
end

