-- ==== Sys2Proof/Laws/IndDomains.lean ====
section
/-!
SUPPORT. What the operations of Machine/Domains.lean can change: each keeps every property that is closed under changes of its
parts and writes of its register families.
-/
namespace Sys2Proof.Machine

theorem Dev.domainLost_ind {P : Dev → Prop} (hP : Closed P 0x59011000 0x800000000000000000000000000000000000000000000000000000000000000000000000) {d : Dev} {n : Nat} (hd0 : P d) :
    P (Dev.domainLost d n) := by
  unfold Dev.domainLost
  try dsimp only
  repeat' with_reducible first
    | assumption
    | (intro _; intros; try dsimp only)
    | refine ite_ind ?_ ?_
    | refine ite_fst ?_ ?_
    | refine ite_snd ?_ ?_
    | refine hP.ben (by decide) _ _ (Bench.keeps_of (by first | exact Memory.keeps_refl _ | exact Memory.keeps_store (by decide) _ _ _ | exact Memory.keeps_nil (by decide) _ | exact Memory.keeps_filter (by decide) _ _)
        (by first | exact Memory.keeps_refl _ | exact Memory.keeps_store (by decide) _ _ _ | exact Memory.keeps_filter (by decide) _ _)) ?_
    | refine hP.tal (by decide) _ _ (by first | exact Memory.keeps_refl _ | exact Memory.keeps_store (by decide) _ _ _ | exact Memory.keeps_filter (by decide) _ _ | exact Memory.keeps_nil (by decide) _) ?_
    | refine hP.ras (by decide) _ _ (by first | exact Memory.keeps_refl _ | exact Memory.keeps_store (by decide) _ _ _ | exact Memory.keeps_filter (by decide) _ _ | exact Memory.keeps_nil (by decide) _) ?_
    | refine Dev.put_ind hP (by decide) ?_
    | split

theorem Dev.readyShow_ind {P : Dev → Prop} (hP : Closed P 0x2000 0x800000000000000008000000000000000000000000000000000000000000000000000000) {d : Dev} (hd0 : P d) :
    P (Dev.readyShow d) := by
  unfold Dev.readyShow
  try dsimp only
  repeat' with_reducible first
    | assumption
    | refine foldl_ind ?_ ?_
    | (intro _; intros; try dsimp only)
    | refine Dev.putb_ind hP (by decide) ?_
    | refine Dev.portReady_ind (hP.mono (by decide) (by decide)) ?_
    | refine Dev.groupShow_ind (hP.mono (by decide) (by decide)) ?_
    | split

theorem Dev.chanState_ind {P : Dev → Prop} (hP : Closed P 0x80000 0x20000000000000000000000000000000000000000000000000000000000000) {d : Dev} {c : Nat} {st : Nat} (hd0 : P d) :
    P (Dev.chanState d c st) := by
  unfold Dev.chanState
  try dsimp only
  repeat' with_reducible first
    | assumption
    | refine ite_ind ?_ ?_
    | refine Dev.put_ind hP (by decide) ?_
    | refine Dev.raise_ind (hP.mono (by decide) (by decide)) ?_

theorem Dev.quarryTrained_ind {P : Dev → Prop} (hP : Closed P 0x90000 0x8000000000000000000000000429800000000000000000000000000000000000000000000000000000000000) {d : Dev} (hd0 : P d) :
    P (Dev.quarryTrained d) := by
  unfold Dev.quarryTrained
  try dsimp only
  repeat' with_reducible first
    | assumption
    | refine foldl_ind ?_ ?_
    | (intro _; intros; try dsimp only)
    | refine ite_ind ?_ ?_
    | refine Dev.chanState_ind (hP.mono (by decide) (by decide)) ?_
    | refine Dev.count_ind hP (by decide) (by decide) ?_
    | refine hP.ben (by decide) _ _ (Bench.keeps_of (by first | exact Memory.keeps_refl _ | exact Memory.keeps_store (by decide) _ _ _ | exact Memory.keeps_nil (by decide) _ | exact Memory.keeps_filter (by decide) _ _)
        (by first | exact Memory.keeps_refl _ | exact Memory.keeps_store (by decide) _ _ _ | exact Memory.keeps_filter (by decide) _ _)) ?_
    | refine Dev.put_ind hP (by decide) ?_
    | refine Dev.putb_ind hP (by decide) ?_
    | refine Dev.srExit_ind (hP.mono (by decide) (by decide)) ?_
    | split

theorem Dev.chanReady_ind {P : Dev → Prop} (hP : Closed P 0x90000 0x8000000000000000000000000429800000000000000000000000000000000000000000000000000000000000) {d : Dev} {c : Nat} {x : Dimm} (hd0 : P d) :
    P (Dev.chanReady d c x) := by
  unfold Dev.chanReady
  try dsimp only
  repeat' with_reducible first
    | assumption
    | (intro _; intros; try dsimp only)
    | refine ite_ind ?_ ?_
    | refine Dev.updChan_ind (hP.mono (by decide) (by decide)) ?_
    | refine Dev.put_ind hP (by decide) ?_
    | refine Dev.count_ind hP (by decide) (by decide) ?_
    | refine Dev.putb_ind hP (by decide) ?_
    | refine Dev.chanState_ind (hP.mono (by decide) (by decide)) ?_
    | refine Dev.quarryTrained_ind (hP.mono (by decide) (by decide)) ?_
    | split

theorem Dev.quarryDisable_ind {P : Dev → Prop} (hP : Closed P 0x80000 0x20800000000000000000000000000000000000000000000000000000000000) {d : Dev} (hd0 : P d) :
    P (Dev.quarryDisable d) := by
  unfold Dev.quarryDisable
  try dsimp only
  repeat' with_reducible first
    | assumption
    | refine foldl_ind ?_ ?_
    | (intro _; intros; try dsimp only)
    | refine ite_ind ?_ ?_
    | refine Dev.chanState_ind (hP.mono (by decide) (by decide)) ?_
    | refine Dev.putb_ind hP (by decide) ?_
    | refine Dev.put_ind hP (by decide) ?_
    | split

theorem Dev.blockReadyEff_ind {P : Dev → Prop} (hP : Closed P 0x3093000 0xc04000000000008000000000000000800000000429800008000000000000000000000000000000000000000000000000000000) {n : Nat} {x : Dimm} {d : Dev} (hd0 : P d) :
    P (Dev.blockReadyEff n x d) := by
  unfold Dev.blockReadyEff
  try dsimp only
  repeat' with_reducible first
    | assumption
    | refine foldl_ind ?_ ?_
    | (intro _; intros; try dsimp only)
    | refine ite_ind ?_ ?_
    | refine hP.pwr (by decide) _ _ ?_
    | refine Dev.pdPut_ind (hP.mono (by decide) (by decide)) ?_
    | refine Dev.readyShow_ind (hP.mono (by decide) (by decide)) ?_
    | refine Dev.outsShow_ind (hP.mono (by decide) (by decide)) ?_
    | refine Dev.talBanksOn_ind (hP.mono (by decide) (by decide)) ?_
    | refine Dev.chanReady_ind (hP.mono (by decide) (by decide)) ?_
    | split

theorem Dev.domainOff_ind {P : Dev → Prop} (hP : Closed P 0x59093000 0xc04000000000000000000000000000800000000000000008000000000000000000000000000000000000000000000000000000) {d : Dev} {n : Nat} (hd0 : P d) :
    P (Dev.domainOff d n) := by
  unfold Dev.domainOff
  try dsimp only
  repeat' with_reducible first
    | assumption
    | refine ite_ind ?_ ?_
    | refine Dev.pdPut_ind (hP.mono (by decide) (by decide)) ?_
    | refine Dev.domainLost_ind (hP.mono (by decide) (by decide)) ?_
    | refine Dev.readyShow_ind (hP.mono (by decide) (by decide)) ?_

theorem Dev.pdOffEff_ind {P : Dev → Prop} (hP : Closed P 0x59093000 0xc06000000000000000000000000000800000000000000008000000000000000000000000000000000000000000000000000000) {dom : Nat} {d : Dev} (hd0 : P d) :
    P (Dev.pdOffEff dom d) := by
  unfold Dev.pdOffEff
  try dsimp only
  repeat' with_reducible first
    | assumption
    | refine ite_ind ?_ ?_
    | refine Dev.put_ind hP (by decide) ?_
    | refine Dev.raise_ind (hP.mono (by decide) (by decide)) ?_
    | refine Dev.domainOff_ind (hP.mono (by decide) (by decide)) ?_

theorem Dev.pdLingerExpiryEff_ind {P : Dev → Prop} (hP : Closed P 0x59093009 0xc04000000000000000000000000000800000000000000008000000000000000000000000000000000000000000000000000000) {n : Nat} {d : Dev} (hd0 : P d) :
    P (Dev.pdLingerExpiryEff n d) := by
  unfold Dev.pdLingerExpiryEff
  try dsimp only
  repeat' with_reducible first
    | assumption
    | refine ite_ind ?_ ?_
    | refine Dev.advanceTo_ind (hP.mono (by decide) (by decide)) ?_
    | refine Dev.domainOff_ind (hP.mono (by decide) (by decide)) ?_

end Sys2Proof.Machine
end

