-- ==== Sys2Proof/Laws/IndResets.lean ====
section
/-!
SUPPORT. What the operations of Machine/Resets.lean can change: each keeps every property that is closed under changes of its
parts and writes of its register families.
-/
namespace Sys2Proof.Machine

theorem Dev.testsAbort_ind {P : Dev → Prop} (hP : Closed P 0x2 0x330000000000000000000000000000000000000000000000000000000000000000000000000000000000000000) {d : Dev} (hd0 : P d) :
    P (Dev.testsAbort d) := by
  unfold Dev.testsAbort
  try dsimp only
  repeat' with_reducible first
    | assumption
    | refine foldl_ind ?_ ?_
    | (intro _; intros; try dsimp only)
    | refine ite_ind ?_ ?_
    | refine Dev.testEnd_ind (hP.mono (by decide) (by decide)) ?_
    | split

theorem Dev.quarrySleep_ind {P : Dev → Prop} (hP : Closed P 0x10000 0x800000000000000000000000000000000000000000000000000000000000) {d : Dev} (hd0 : P d) :
    P (Dev.quarrySleep d) := by
  unfold Dev.quarrySleep
  try dsimp only
  repeat' with_reducible first
    | assumption
    | refine foldl_ind ?_ ?_
    | (intro _; intros; try dsimp only)
    | refine ite_ind ?_ ?_
    | refine Dev.put_ind hP (by decide) ?_
    | refine hP.ben (by decide) _ _ (Bench.keeps_of (by first | exact Memory.keeps_refl _ | exact Memory.keeps_store (by decide) _ _ _ | exact Memory.keeps_nil (by decide) _ | exact Memory.keeps_filter (by decide) _ _)
        (by first | exact Memory.keeps_refl _ | exact Memory.keeps_store (by decide) _ _ _ | exact Memory.keeps_filter (by decide) _ _)) ?_
    | refine Dev.putb_ind hP (by decide) ?_
    | refine Dev.updChan_ind (hP.mono (by decide) (by decide)) ?_
    | refine Dev.srShow_ind (hP.mono (by decide) (by decide)) ?_
    | split

theorem Dev.drainStart_ind {P : Dev → Prop} (hP : Closed P 0xffffffff 0xffffffffffffffffffffffffffffffffffffffffffffffffffffffffffffffffffffffffffffffffffffffffffffffffffffff) {d : Dev} {r : Drain} (hd0 : P d) :
    P (Dev.drainStart d r) := by
  unfold Dev.drainStart
  try dsimp only
  repeat' with_reducible first
    | assumption
    | refine foldl_ind ?_ ?_
    | refine foldl_fst ?_ ?_
    | refine foldl_snd ?_ ?_
    | (intro _; intros; try dsimp only)
    | refine ite_ind ?_ ?_
    | refine ite_fst ?_ ?_
    | refine ite_snd ?_ ?_
    | refine hP.pwr (by decide) _ _ ?_
    | refine Dev.talWrites_ind (hP.mono (by decide) (by decide)) ?_
    | refine Dev.laneStop_ind (hP.mono (by decide) (by decide)) ?_
    | refine Dev.eviDrain_ind (hP.mono (by decide) (by decide)) ?_
    | refine Dev.hoistAbort_ind (hP.mono (by decide) (by decide)) ?_
    | refine Dev.xferAbort_ind (hP.mono (by decide) (by decide)) ?_
    | refine Dev.cmdsAbort_ind (hP.mono (by decide) (by decide)) ?_
    | refine Dev.stmCancelAll_ind (hP.mono (by decide) (by decide)) ?_
    | refine Dev.swatchAbort_ind (hP.mono (by decide) (by decide)) ?_
    | refine Dev.windowAbandon_ind (hP.mono (by decide) (by decide)) ?_
    | refine Dev.trigBusReset_ind (hP.mono (by decide) (by decide)) ?_
    | refine Dev.testsAbort_ind (hP.mono (by decide) (by decide)) ?_
    | refine Dev.quarrySleep_ind (hP.mono (by decide) (by decide)) ?_
    | split

theorem Dev.resetRequest_ind {P : Dev → Prop} (hP : Closed P 0xffffffff 0xffffffffffffffffffffffffffffffffffffffffffffffffffffffffffffffffffffffffffffffffffffffffffffffffffffff) {warm : Bool} {cause : Nat} {d : Dev} (hd0 : P d) :
    P (Dev.resetRequest warm cause d) := by
  unfold Dev.resetRequest
  try dsimp only
  repeat' with_reducible first
    | assumption
    | (intro _; intros; try dsimp only)
    | refine ite_ind ?_ ?_
    | refine hP.link (by decide) _ _ ?_
    | refine hP.pwr (by decide) _ _ ?_
    | refine Dev.drainStart_ind (hP.mono (by decide) (by decide)) ?_
    | split

theorem Dev.itemsSettle_ind {P : Dev → Prop} (hP : Closed P 0x880d0000 0x800000000000000000000a004000000000000000000000000000000000000000000000000000000000000000) {d : Dev} (hd0 : P d) :
    P (Dev.itemsSettle d) := by
  unfold Dev.itemsSettle
  try dsimp only
  repeat' with_reducible first
    | assumption
    | refine foldl_ind ?_ ?_
    | (intro _; intros; try dsimp only)
    | refine Dev.placeItem_ind (hP.mono (by decide) (by decide)) ?_
    | refine hP.que (by decide) _ _ (by first | exact Memory.keeps_refl _ | exact Memory.keeps_store (by decide) _ _ _ | exact Memory.keeps_filter (by decide) _ _ | exact Memory.keeps_nil (by decide) _) ?_
    | refine hP.evr (by decide) _ _ ?_
    | split

theorem Dev.recordsSettle_ind {P : Dev → Prop} (hP : Closed P 0xd5400 0x8000000000000000000000000000100000000000000000000000000000001100000000000000000000000000) {d : Dev} (hd0 : P d) :
    P (Dev.recordsSettle d) := by
  unfold Dev.recordsSettle
  try dsimp only
  repeat' with_reducible first
    | assumption
    | refine foldl_ind ?_ ?_
    | (intro _; intros; try dsimp only)
    | refine hP.tal (by decide) _ _ (by first | exact Memory.keeps_refl _ | exact Memory.keeps_store (by decide) _ _ _ | exact Memory.keeps_filter (by decide) _ _ | exact Memory.keeps_nil (by decide) _) ?_
    | refine Dev.closeEntryFreedEff_ind (hP.mono (by decide) (by decide)) ?_
    | refine Dev.segmentRecordEff_ind (hP.mono (by decide) (by decide)) ?_
    | refine Dev.post_ind (hP.mono (by decide) (by decide)) ?_
    | refine hP.lanes (by decide) _ _ ?_
    | refine Dev.hoistEntryEff_ind (hP.mono (by decide) (by decide)) ?_
    | split

theorem Dev.commitStand_ind {P : Dev → Prop} (hP : Closed P 0x0 0xa40000) {d : Dev} {n : Nat} (hd0 : P d) :
    P (Dev.commitStand d n) := by
  unfold Dev.commitStand
  try dsimp only
  repeat' with_reducible first
    | assumption
    | refine ite_ind ?_ ?_
    | refine Dev.roleSwitch_ind (hP.mono (by decide) (by decide)) ?_
    | split

theorem Dev.resetPrepare_ind {P : Dev → Prop} (hP : Closed P 0xc0000 0x3400020800000000000000000000000000000000000000000000000000000a40000) {d : Dev} (hd0 : P d) : P (Dev.resetPrepare d) := by
  unfold Dev.resetPrepare
  refine Dev.quarryDisable_ind (hP.mono (by decide) (by decide)) (foldl_ind (foldl_ind (foldl_ind hd0 ?_) ?_) ?_)
  · exact fun _ _ h => Dev.commitStand_ind (hP.mono (by decide) (by decide)) h
  · exact fun _ _ h => Dev.queueDisableEff_ind (hP.mono (by decide) (by decide)) h
  · exact fun _ _ h => ite_ind (Dev.queueDisableEff_ind (hP.mono (by decide) (by decide)) h) h

theorem Dev.resetKept_ind {P : Dev → Prop} (hP : Closed P 0xffffffff 0xffffffffffffffffffffffffffffffffffffffffffffffffffffffffffffffffffffffffffffffffffffffffffffffffffffff) {d : Dev} {warm : Bool} (hd0 : P d) :
    P (Dev.resetKept d warm) :=
  Dev.rebuilt_ind (hP.mono (by decide) (by decide)) Rg.keptSoft hd0 (Nat.le_refl _) (Or.inr rfl) rfl
    (Bench.keeps_of (Memory.keeps_refl _) (Memory.keeps_refl _)) (Memory.keeps_refl _) (Memory.keeps_refl _)
    (Memory.keeps_refl _) (Memory.keeps_refl _)

theorem Dev.resetShows_ind {P : Dev → Prop} (hP : Closed P 0x0 0x20000000000000000000000000004800000000000000000400000000000000000000000000000000100000000) {d e : Dev} (he : P e) : P (Dev.resetShows d e) := by
  unfold Dev.resetShows
  dsimp only
  repeat' with_reducible first
    | assumption
    | refine foldl_ind ?_ ?_
    | (intro _; intros; try dsimp only)
    | refine Dev.putb_ind hP (by decide) ?_
    | refine Dev.put_ind hP (by decide) ?_
    | refine ite_ind ?_ ?_

theorem Dev.tbReset_ind {P : Dev → Prop} (hP : Closed P 0x80102 0xc00000000000000000000000000000000000000000000000000000000000000000000000000000000000000000020400000000) {e d : Dev} (he : P e) : P (Dev.tbReset e d) := by
  unfold Dev.tbReset
  dsimp only
  repeat' with_reducible first
    | assumption
    | refine Dev.tbAligned_ind (hP.mono (by decide) (by decide)) ?_
    | refine Dev.tbSelWritten_ind (hP.mono (by decide) (by decide)) ?_
    | refine ite_ind ?_ ?_

theorem Dev.engineReset_ind {P : Dev → Prop} (hP : Closed P 0xffffffff 0xffffffffffffffffffffffffffffffffffffffffffffffffffffffffffffffffffffffffffffffffffffffffffffffffffffff) {d : Dev} {warm : Bool} (hd0 : P d) :
    P (Dev.engineReset d warm) := by
  have h1 : P d.resetPrepare := Dev.resetPrepare_ind (hP.mono (by decide) (by decide)) hd0
  have h2 : P (d.resetPrepare.resetKept warm) := Dev.resetKept_ind (hP.mono (by decide) (by decide)) h1
  exact Dev.newNonce_ind (hP.mono (by decide) (by decide)) (Dev.readyShow_ind (hP.mono (by decide) (by decide))
    (Dev.tbReset_ind (hP.mono (by decide) (by decide)) (Dev.resetShows_ind (hP.mono (by decide) (by decide)) h2)))

theorem Dev.drainEndEff_ind {P : Dev → Prop} (hP : Closed P 0xffffffff 0xffffffffffffffffffffffffffffffffffffffffffffffffffffffffffffffffffffffffffffffffffffffffffffffffffffff) {d : Dev} (hd0 : P d) :
    P (Dev.drainEndEff d) := by
  unfold Dev.drainEndEff
  try dsimp only
  repeat' with_reducible first
    | assumption
    | refine Dev.eviDrain_ind (hP.mono (by decide) (by decide)) ?_
    | refine Dev.recordsSettle_ind (hP.mono (by decide) (by decide)) ?_
    | refine Dev.eventsSettle_ind (hP.mono (by decide) (by decide)) ?_
    | refine Dev.itemsSettle_ind (hP.mono (by decide) (by decide)) ?_
    | refine Dev.engineReset_ind (hP.mono (by decide) (by decide)) ?_
    | refine hP.pwr (by decide) _ _ ?_
    | refine Dev.put_ind hP (by decide) ?_
    | refine Dev.raise_ind (hP.mono (by decide) (by decide)) ?_
    | split

theorem Dev.retiredMark_ind {P : Dev → Prop} (hP : Closed P 0x90000 0x24000000000000000000000000000000000000000000000000000000000000) {d : Dev} {e : Dev} (hd0 : P e) :
    P (Dev.retiredMark d e) := by
  unfold Dev.retiredMark
  try dsimp only
  repeat' with_reducible first
    | assumption
    | refine ite_ind ?_ ?_
    | refine hP.ben (by decide) _ _ (Bench.keeps_of (by first | exact Memory.keeps_refl _ | exact Memory.keeps_store (by decide) _ _ _ | exact Memory.keeps_nil (by decide) _ | exact Memory.keeps_filter (by decide) _ _)
        (by first | exact Memory.keeps_refl _ | exact Memory.keeps_store (by decide) _ _ _ | exact Memory.keeps_filter (by decide) _ _)) ?_
    | refine Dev.put_ind hP (by decide) ?_
    | refine Dev.raise_ind (hP.mono (by decide) (by decide)) ?_
    | split

theorem Dev.mainLost_ind {P : Dev → Prop} (hP : Closed P 0xffffffff 0xffffffffffffffffffffffffffffffffffffffffffffffffffffffffffffffffffffffffffffffffffffffffffffffffffffff) {d : Dev} (hd0 : P d) : P (Dev.mainLost d) := by
  unfold Dev.mainLost
  dsimp only
  have hd0 := Dev.slewMark_ind (hP.mono (by decide) (by decide)) (on := false) hd0
  refine Dev.newNonce_ind (hP.mono (by decide) (by decide)) (Dev.put_ind hP (by decide)
    (Dev.retiredMark_ind (hP.mono (by decide) (by decide)) ?_))
  exact Dev.rebuilt_ind (hP.mono (by decide) (by decide)) Rg.keptPower hd0 (Nat.le_refl _) (Or.inr rfl) rfl
    (Bench.keeps_of (Memory.keeps_nil (by decide) _) (Memory.keeps_nil (by decide) _)) (Memory.keeps_nil (by decide) _) (Memory.keeps_nil (by decide) _)
    (Memory.keeps_nil (by decide) _) (Memory.keeps_refl _)

theorem Dev.aonLost_ind {P : Dev → Prop} (hP : Closed P 0xffffffff 0xffffffffffffffffffffffffffffffffffffffffffffffffffffffffffffffffffffffffffffffffffffffffffffffffffffff) {d : Dev} (hd0 : P d) : P (Dev.aonLost d) := by
  unfold Dev.aonLost
  dsimp only
  have he := fun (e : Dev) => Dev.rebuilt_ind (hP.mono (by decide) (by decide)) (e := e) Rg.keptFlash hd0
  split
  · refine Dev.newNonce_ind (hP.mono (by decide) (by decide)) (Dev.put_ind hP (by decide) (hP.ben (by decide) _ _
      (Bench.keeps_of (Memory.keeps_refl _) (Memory.keeps_refl _)) ?_))
    exact he _ (Nat.le_refl _) (Or.inr rfl) rfl (Bench.keeps_of (Memory.keeps_nil (by decide) _) (Memory.keeps_nil (by decide) _)) (Memory.keeps_nil (by decide) _) (Memory.keeps_nil (by decide) _)
      (Memory.keeps_nil (by decide) _) (Memory.keeps_refl _)
  · refine Dev.newNonce_ind (hP.mono (by decide) (by decide)) ?_
    exact he _ (Nat.le_refl _) (Or.inr rfl) rfl (Bench.keeps_of (Memory.keeps_nil (by decide) _) (Memory.keeps_nil (by decide) _)) (Memory.keeps_nil (by decide) _) (Memory.keeps_nil (by decide) _)
      (Memory.keeps_nil (by decide) _) (Memory.keeps_refl _)

theorem Dev.hkReset_ind {P : Dev → Prop} (hP : Closed P 0xffffffff 0xffffffffffffffffffffffffffffffffffffffffffffffffffffffffffffffffffffffffffffffffffffffffffffffffffffff) {warm : Bool} {key : Byte} {d : Dev} (hd0 : P d) :
    P (Dev.hkReset warm key d) := by
  unfold Dev.hkReset
  try dsimp only
  repeat' with_reducible first
    | assumption
    | refine ite_ind ?_ ?_
    | refine Dev.resetRequest_ind (hP.mono (by decide) (by decide)) ?_

theorem Dev.supplyFaultEff_ind {P : Dev → Prop} (hP : Closed P 0xffffffff 0xffffffffffffffffffffffffffffffffffffffffffffffffffffffffffffffffffffffffffffffffffffffffffffffffffffff) {d : Dev} (hd0 : P d) :
    P (Dev.supplyFaultEff d) := by
  unfold Dev.supplyFaultEff
  try dsimp only
  repeat' with_reducible first
    | assumption
    | refine ite_ind ?_ ?_
    | refine Dev.mainLost_ind (hP.mono (by decide) (by decide)) ?_
    | refine hP.pwr (by decide) _ _ ?_
    | refine Dev.put_ind hP (by decide) ?_
    | refine Dev.raise_ind (hP.mono (by decide) (by decide)) ?_

theorem Dev.mainPgRiseEff_ind {P : Dev → Prop} (hP : Closed P 0x2080000 0x1000000000000000000000000000000000000000000000000000000000000000000000000000000000000000000000000000) {d : Dev} (hd0 : P d) :
    P (Dev.mainPgRiseEff d) := by
  unfold Dev.mainPgRiseEff
  try dsimp only
  repeat' with_reducible first
    | assumption
    | refine ite_ind ?_ ?_
    | refine Dev.put_ind hP (by decide) ?_
    | refine hP.pwr (by decide) _ _ ?_
    | refine Dev.raise_ind (hP.mono (by decide) (by decide)) ?_

theorem Dev.aonPowerOnEff_ind {P : Dev → Prop} (hP : Closed P 0xffffffff 0xffffffffffffffffffffffffffffffffffffffffffffffffffffffffffffffffffffffffffffffffffffffffffffffffffffff) {d : Dev} (hd0 : P d) :
    P (Dev.aonPowerOnEff d) := by
  unfold Dev.aonPowerOnEff
  try dsimp only
  repeat' with_reducible first
    | assumption
    | refine Dev.aonLost_ind (hP.mono (by decide) (by decide)) ?_
    | refine Dev.retiredMark_ind (hP.mono (by decide) (by decide)) ?_
    | refine hP.pwr (by decide) _ _ ?_
    | refine Dev.put_ind hP (by decide) ?_

end Sys2Proof.Machine
end

