-- ==== Sys2Proof/Laws/IndPower.lean ====
section
/-!
SUPPORT. What the operations of Machine/Power.lean can change: each keeps every property that is closed under changes of its
parts and writes of its register families.
-/
namespace Sys2Proof.Machine

theorem Dev.tbSleep_ind {P : Dev → Prop} (hP : Closed P 0x80100 0x22400000000) {d : Dev} (hd0 : P d) :
    P (Dev.tbSleep d) := by
  unfold Dev.tbSleep
  try dsimp only
  repeat' with_reducible first
    | assumption
    | refine ite_ind ?_ ?_
    | refine Dev.tbEnter_ind (hP.mono (by decide) (by decide)) ?_
    | refine Dev.tbActive_ind (hP.mono (by decide) (by decide)) ?_
    | refine Dev.originCancel_ind (hP.mono (by decide) (by decide)) ?_
    | refine hP.tb (by decide) _ _ ?_

theorem Dev.standbyEnter_ind {P : Dev → Prop} (hP : Closed P 0xffffffff 0xffffffffffffffffffffffffffffffffffffffffffffffffffffffffffffffffffffffffffffffffffffffffffffffffffffff) {d : Dev} {dormant : Bool} (hd0 : P d) :
    P (Dev.standbyEnter d dormant) := by
  unfold Dev.standbyEnter
  try dsimp only
  repeat' with_reducible first
    | assumption
    | refine foldl_ind ?_ ?_
    | (intro _; intros; try dsimp only)
    | refine ite_ind ?_ ?_
    | refine Dev.tableSave_ind (hP.mono (by decide) (by decide)) ?_
    | refine Dev.gaugeSave_ind (hP.mono (by decide) (by decide)) ?_
    | refine hP.evi (by decide) _ _ ?_
    | refine Dev.testsAbort_ind (hP.mono (by decide) (by decide)) ?_
    | refine Dev.quarrySleep_ind (hP.mono (by decide) (by decide)) ?_
    | refine Dev.sliceClockLossEff_ind (hP.mono (by decide) (by decide)) ?_
    | refine Dev.tbSleep_ind (hP.mono (by decide) (by decide)) ?_
    | refine Dev.pinIdle_ind (hP.mono (by decide) (by decide)) ?_
    | refine Dev.pdPut_ind (hP.mono (by decide) (by decide)) ?_
    | refine Dev.domainLost_ind (hP.mono (by decide) (by decide)) ?_
    | refine Dev.readyShow_ind (hP.mono (by decide) (by decide)) ?_
    | refine Dev.putb_ind hP (by decide) ?_
    | refine hP.pwr (by decide) _ _ ?_
    | refine Dev.put_ind hP (by decide) ?_
    | refine Dev.raise_ind (hP.mono (by decide) (by decide)) ?_
    | refine Dev.decision_ind (hP.mono (by decide) (by decide)) ?_
    | refine Dev.eventsSettle_ind (hP.mono (by decide) (by decide)) ?_
    | refine Dev.itemsSettle_ind (hP.mono (by decide) (by decide)) ?_
    | refine Dev.mainLost_ind (hP.mono (by decide) (by decide)) ?_
    | split

theorem Dev.standbyEff_ind {P : Dev → Prop} (hP : Closed P 0xffffffff 0xffffffffffffffffffffffffffffffffffffffffffffffffffffffffffffffffffffffffffffffffffffffffffffffffffffff) {dormant : Bool} {d : Dev} (hd0 : P d) :
    P (Dev.standbyEff dormant d) := by
  unfold Dev.standbyEff
  try dsimp only
  repeat' with_reducible first
    | assumption
    | refine ite_ind ?_ ?_
    | refine Dev.putb_ind hP (by decide) ?_
    | refine Dev.put_ind hP (by decide) ?_
    | refine Dev.raise_ind (hP.mono (by decide) (by decide)) ?_
    | refine Dev.standbyEnter_ind (hP.mono (by decide) (by decide)) ?_

theorem Dev.wakeFrom_ind {P : Dev → Prop} (hP : Closed P 0x2080000 0xc04800000000000000000000000000000000000000000000000000000000000000000000000000000000000000000000000000) {d : Dev} {code : Nat} (hd0 : P d) :
    P (Dev.wakeFrom d code) := by
  unfold Dev.wakeFrom
  try dsimp only
  repeat' with_reducible first
    | assumption
    | refine foldl_ind ?_ ?_
    | (intro _; intros; try dsimp only)
    | refine ite_ind ?_ ?_
    | refine Dev.put_ind hP (by decide) ?_
    | refine hP.pwr (by decide) _ _ ?_
    | refine Dev.raise_ind (hP.mono (by decide) (by decide)) ?_
    | refine Dev.decision_ind (hP.mono (by decide) (by decide)) ?_
    | refine Dev.pdPut_ind (hP.mono (by decide) (by decide)) ?_
    | split

theorem Dev.wakeSourceEff_ind {P : Dev → Prop} (hP : Closed P 0x2080009 0xc04800000000000000000000000000000000000000000000000000000000000000000000000000000000000000000000000000) {src : WakeSrc} {d : Dev} (hd0 : P d) :
    P (Dev.wakeSourceEff src d) := by
  unfold Dev.wakeSourceEff
  try dsimp only
  repeat' with_reducible first
    | assumption
    | refine ite_ind ?_ ?_
    | refine Dev.wakeFrom_ind (hP.mono (by decide) (by decide)) ?_
    | refine Dev.advanceTo_ind (hP.mono (by decide) (by decide)) ?_
    | split

theorem Dev.outputsResume_ind {P : Dev → Prop} (hP : Closed P 0x1800000 0x0) {d : Dev} (hd0 : P d) :
    P (Dev.outputsResume d) := by
  unfold Dev.outputsResume
  try dsimp only
  repeat' with_reducible first
    | assumption
    | refine foldl_ind ?_ ?_
    | (intro _; intros; try dsimp only)
    | refine ite_ind ?_ ?_
    | refine Dev.pinResume_ind (hP.mono (by decide) (by decide)) ?_
    | refine Dev.outStart_ind (hP.mono (by decide) (by decide)) ?_
    | split

theorem Dev.wakeCompleteEff_ind {P : Dev → Prop} (hP : Closed P 0xffffffff 0xffffffffffffffffffffffffffffffffffffffffffffffffffffffffffffffffffffffffffffffffffffffffffffffffffffff) {d : Dev} (hd0 : P d) :
    P (Dev.wakeCompleteEff d) := by
  unfold Dev.wakeCompleteEff
  try dsimp only
  repeat' with_reducible first
    | assumption
    | refine foldl_ind ?_ ?_
    | refine foldl_fst ?_ ?_
    | refine foldl_snd ?_ ?_
    | (intro _; intros; try dsimp only)
    | refine ite_ind ?_ ?_
    | refine ite_fst ?_ ?_
    | refine ite_snd ?_ ?_
    | refine hP.wrAt (by decide) ?_
    | refine Dev.srExit_ind (hP.mono (by decide) (by decide)) ?_
    | refine Dev.putb_ind hP (by decide) ?_
    | refine Dev.readyShow_ind (hP.mono (by decide) (by decide)) ?_
    | refine Dev.outputsResume_ind (hP.mono (by decide) (by decide)) ?_
    | refine Dev.doorbellEff_ind (hP.mono (by decide) (by decide)) ?_
    | refine hP.pwr (by decide) _ _ ?_
    | refine Dev.put_ind hP (by decide) ?_
    | refine Dev.raise_ind (hP.mono (by decide) (by decide)) ?_
    | refine Dev.drainStart_ind (hP.mono (by decide) (by decide)) ?_
    | refine hP.wr _ _ _ (testBit_all _) ?_
    | split

theorem Dev.updSlot_ind {P : Dev → Prop} (hP : Closed P 0x2000000 0x0) {d : Dev} {b : Bool} {f : FwSlot → FwSlot} (hd0 : P d) :
    P (Dev.updSlot d b f) := by
  unfold Dev.updSlot
  try dsimp only
  repeat' with_reducible first
    | assumption
    | refine hP.pwr (by decide) _ _ ?_

theorem Dev.runShow_ind {P : Dev → Prop} (hP : Closed P 0x2000000 0x40000000000000000000000000000000000000000000000000000000000000000000000000000000000000000000000000000) {d : Dev} {b : Bool} (hd0 : P d) :
    P (Dev.runShow d b) := by
  unfold Dev.runShow
  try dsimp only
  repeat' with_reducible first
    | assumption
    | refine hP.pwr (by decide) _ _ ?_
    | refine Dev.put_ind hP (by decide) ?_

theorem Dev.bootFirst_ind {P : Dev → Prop} (hP : Closed P 0x2000000 0x0) {d : Dev} (h : P d) : P d.bootFirst.1 := by
  unfold Dev.bootFirst
  repeat' with_reducible first
    | assumption
    | refine ite_fst ?_ ?_
    | refine Dev.updSlot_ind (hP.mono (by decide) (by decide)) ?_

theorem Dev.bootSlot_ind {P : Dev → Prop} (hP : Closed P 0x7f4d5709 0x400000003000081200000000000000000000000000003080000000000000000000000000a2601c00000003fc0002000000000) {d : Dev} {b : Bool} {fallback : Bool} (hd0 : P d) :
    P (Dev.bootSlot d b fallback) := by
  unfold Dev.bootSlot
  try dsimp only
  repeat' with_reducible first
    | assumption
    | refine ite_ind ?_ ?_
    | refine hP.pwr (by decide) _ _ ?_
    | refine Dev.runShow_ind (hP.mono (by decide) (by decide)) ?_
    | refine Dev.putb_ind hP (by decide) ?_
    | refine Dev.put_ind hP (by decide) ?_
    | refine Dev.measureAll_ind (hP.mono (by decide) (by decide)) ?_
    | refine Dev.raise_ind (hP.mono (by decide) (by decide)) ?_
    | refine Dev.returnErase_ind (hP.mono (by decide) (by decide)) ?_

theorem Dev.bootEff_ind {P : Dev → Prop} (hP : Closed P 0x7f4d5709 0x440000003000081200000000000000000000000000003080000000000000000000000000a2601c00000003fc0002000000000) {good : Bool × Bool} {d : Dev} (hd0 : P d) :
    P (Dev.bootEff good d) := by
  unfold Dev.bootEff
  try dsimp only
  repeat' with_reducible first
    | assumption
    | (intro _; intros; try dsimp only)
    | refine ite_ind ?_ ?_
    | refine ite_fst ?_ ?_
    | refine ite_snd ?_ ?_
    | refine Dev.updSlot_ind (hP.mono (by decide) (by decide)) ?_
    | refine Dev.bootFirst_ind (hP.mono (by decide) (by decide)) ?_
    | refine Dev.bootSlot_ind (hP.mono (by decide) (by decide)) ?_
    | refine hP.pwr (by decide) _ _ ?_
    | refine Dev.put_ind hP (by decide) ?_
    | split

theorem Dev.fwStageEff_ind {P : Dev → Prop} (hP : Closed P 0x2080002 0x80000000000000000000000000000000000000000000000000000000000000000000000000000000000000) {good : Bool} {version : W32} {epoch : Nat} {d : Dev} (hd0 : P d) :
    P (Dev.fwStageEff good version epoch d) := by
  unfold Dev.fwStageEff
  try dsimp only
  repeat' with_reducible first
    | assumption
    | (intro _; intros; try dsimp only)
    | refine ite_ind ?_ ?_
    | refine hP.pwr (by decide) _ _ ?_
    | refine Dev.updSlot_ind (hP.mono (by decide) (by decide)) ?_
    | refine Dev.put_ind hP (by decide) ?_
    | refine Dev.drawn_ind (hP.mono (by decide) (by decide)) ?_
    | refine Dev.raise_ind (hP.mono (by decide) (by decide)) ?_
    | split

theorem Dev.fwSwitchEff_ind {P : Dev → Prop} (hP : Closed P 0x2000000 0x80000000000000000000000000000000000000000000000000000000000000000000000000000000000000) {d : Dev} (hd0 : P d) :
    P (Dev.fwSwitchEff d) := by
  unfold Dev.fwSwitchEff
  try dsimp only
  repeat' with_reducible first
    | assumption
    | refine ite_ind ?_ ?_
    | refine hP.pwr (by decide) _ _ ?_
    | refine Dev.put_ind hP (by decide) ?_

theorem Dev.fwSwitchStartEff_ind {P : Dev → Prop} (hP : Closed P 0x6080000 0xc40000000000000000000000000000000000000000000000000000000000000000000000000000000000000000000000000000) {d : Dev} (hd0 : P d) :
    P (Dev.fwSwitchStartEff d) := by
  unfold Dev.fwSwitchStartEff
  try dsimp only
  repeat' with_reducible first
    | assumption
    | (intro _; intros; try dsimp only)
    | refine ite_ind ?_ ?_
    | refine Dev.decision_ind (hP.mono (by decide) (by decide)) ?_
    | refine Dev.updSlot_ind (hP.mono (by decide) (by decide)) ?_
    | refine Dev.runShow_ind (hP.mono (by decide) (by decide)) ?_
    | refine hP.pwr (by decide) _ _ ?_
    | refine Dev.measureAll_ind (hP.mono (by decide) (by decide)) ?_
    | split

theorem Dev.fwConfirmEff_ind {P : Dev → Prop} (hP : Closed P 0x2080000 0x180000000000000000000000000000000000000000000000000000000000000000000000000000000000000) {d : Dev} (hd0 : P d) :
    P (Dev.fwConfirmEff d) := by
  unfold Dev.fwConfirmEff
  try dsimp only
  repeat' with_reducible first
    | assumption
    | (intro _; intros; try dsimp only)
    | refine ite_ind ?_ ?_
    | refine hP.pwr (by decide) _ _ ?_
    | refine Dev.updSlot_ind (hP.mono (by decide) (by decide)) ?_
    | refine Dev.put_ind hP (by decide) ?_
    | refine Dev.raise_ind (hP.mono (by decide) (by decide)) ?_
    | split

theorem Dev.fwFail_ind {P : Dev → Prop} (hP : Closed P 0x2080000 0x40000000000000080000000000000000000000000000000000000000000000000000000000000000000000000000000000000) {d : Dev} {st : Nat} (hd0 : P d) :
    P (Dev.fwFail d st) := by
  unfold Dev.fwFail
  try dsimp only
  repeat' with_reducible first
    | assumption
    | (intro _; intros; try dsimp only)
    | refine hP.pwr (by decide) _ _ ?_
    | refine Dev.updSlot_ind (hP.mono (by decide) (by decide)) ?_
    | refine Dev.runShow_ind (hP.mono (by decide) (by decide)) ?_
    | refine Dev.put_ind hP (by decide) ?_
    | refine Dev.raise_ind (hP.mono (by decide) (by decide)) ?_
    | split

theorem Dev.fwWatchdogEff_ind {P : Dev → Prop} (hP : Closed P 0x2080009 0x40000000000000080000000000000000000000000000000000000000000000000000000000000000000000000000000000000) {d : Dev} (hd0 : P d) :
    P (Dev.fwWatchdogEff d) := by
  unfold Dev.fwWatchdogEff
  try dsimp only
  repeat' with_reducible first
    | assumption
    | refine Dev.advanceTo_ind (hP.mono (by decide) (by decide)) ?_
    | refine Dev.fwFail_ind (hP.mono (by decide) (by decide)) ?_
    | split

theorem Dev.tempShow_ind {P : Dev → Prop} (hP : Closed P 0x0 0x100000000000000000000000000000000000000000000000000000000000000000000000000000000000000000000000000000) {d : Dev} {t : BitVec 16} (hd0 : P d) :
    P (Dev.tempShow d t) := by
  unfold Dev.tempShow
  try dsimp only
  repeat' with_reducible first
    | assumption
    | refine Dev.put_ind hP (by decide) ?_

theorem Dev.tempWarnEff_ind {P : Dev → Prop} (hP : Closed P 0x80000 0x100000000000000000000000000000000000000000000000000000000000000000000000000000000000000000000000000000) {t : BitVec 16} {d : Dev} (hd0 : P d) :
    P (Dev.tempWarnEff t d) := by
  unfold Dev.tempWarnEff
  try dsimp only
  repeat' with_reducible first
    | assumption
    | refine ite_ind ?_ ?_
    | refine Dev.tempShow_ind (hP.mono (by decide) (by decide)) ?_
    | refine Dev.raise_ind (hP.mono (by decide) (by decide)) ?_

theorem Dev.tempCritEff_ind {P : Dev → Prop} (hP : Closed P 0xffffffff 0xffffffffffffffffffffffffffffffffffffffffffffffffffffffffffffffffffffffffffffffffffffffffffffffffffffff) {t : BitVec 16} {d : Dev} (hd0 : P d) :
    P (Dev.tempCritEff t d) := by
  unfold Dev.tempCritEff
  try dsimp only
  repeat' with_reducible first
    | assumption
    | refine foldl_ind ?_ ?_
    | (intro _; intros; try dsimp only)
    | refine ite_ind ?_ ?_
    | refine Dev.tempShow_ind (hP.mono (by decide) (by decide)) ?_
    | refine Dev.decision_ind (hP.mono (by decide) (by decide)) ?_
    | refine Dev.fwFail_ind (hP.mono (by decide) (by decide)) ?_
    | refine hP.pwr (by decide) _ _ ?_
    | refine Dev.put_ind hP (by decide) ?_
    | refine Dev.raise_ind (hP.mono (by decide) (by decide)) ?_
    | refine Dev.laneDisableEff_ind (hP.mono (by decide) (by decide)) ?_
    | refine Dev.standbyEnter_ind (hP.mono (by decide) (by decide)) ?_
    | split

theorem Dev.tempOkEff_ind {P : Dev → Prop} (hP : Closed P 0x2080000 0x100000000000000000000000000000000000000000000000000000000000000000000000000000000000000000000000000000) {t : BitVec 16} {d : Dev} (hd0 : P d) :
    P (Dev.tempOkEff t d) := by
  unfold Dev.tempOkEff
  try dsimp only
  repeat' with_reducible first
    | assumption
    | refine ite_ind ?_ ?_
    | refine Dev.tempShow_ind (hP.mono (by decide) (by decide)) ?_
    | refine hP.pwr (by decide) _ _ ?_
    | refine Dev.raise_ind (hP.mono (by decide) (by decide)) ?_

theorem Dev.thermalTripEff_ind {P : Dev → Prop} (hP : Closed P 0xffffffff 0xffffffffffffffffffffffffffffffffffffffffffffffffffffffffffffffffffffffffffffffffffffffffffffffffffffff) {d : Dev} (hd0 : P d) :
    P (Dev.thermalTripEff d) := by
  unfold Dev.thermalTripEff
  try dsimp only
  repeat' with_reducible first
    | assumption
    | refine ite_ind ?_ ?_
    | refine Dev.mainLost_ind (hP.mono (by decide) (by decide)) ?_
    | refine hP.pwr (by decide) _ _ ?_
    | refine Dev.put_ind hP (by decide) ?_

end Sys2Proof.Machine
end

