-- ==== Sys2Proof/Laws/IndLink.lean ====
section
/-!
SUPPORT. What the operations of Machine/Link.lean can change: each keeps every property that is closed under changes of its
parts and writes of its register families.
-/
namespace Sys2Proof.Machine

theorem Dev.linkUpEff_ind {P : Dev → Prop} (hP : Closed P 0x40a0000 0x0) {rate : Nat} {width : Nat} {d : Dev} (hd0 : P d) :
    P (Dev.linkUpEff rate width d) := by
  unfold Dev.linkUpEff
  try dsimp only
  repeat' with_reducible first
    | assumption
    | refine ite_ind ?_ ?_
    | refine hP.link (by decide) _ _ ?_
    | refine hP.sec (by decide) _ _ ?_
    | refine Dev.raise_ind (hP.mono (by decide) (by decide)) ?_

theorem Dev.linkDownEff_ind {P : Dev → Prop} (hP : Closed P 0xffffffff 0xffffffffffffffffffffffffffffffffffffffffffffffffffffffffffffffffffffffffffffffffffffffffffffffffffffff) {d : Dev} (hd0 : P d) :
    P (Dev.linkDownEff d) := by
  unfold Dev.linkDownEff
  try dsimp only
  repeat' with_reducible first
    | assumption
    | refine foldl_ind ?_ ?_
    | refine foldl_fst ?_ ?_
    | refine foldl_snd ?_ ?_
    | (intro _; intros; try dsimp only)
    | refine ite_ind ?_ ?_
    | refine ite_fst ?_ ?_
    | refine ite_snd ?_ ?_
    | refine hP.link (by decide) _ _ ?_
    | refine Dev.cmdsAbort_ind (hP.mono (by decide) (by decide)) ?_
    | refine Dev.xferLinkDown_ind (hP.mono (by decide) (by decide)) ?_
    | refine Dev.raise_ind (hP.mono (by decide) (by decide)) ?_
    | split

theorem Dev.linkChangeEff_ind {P : Dev → Prop} (hP : Closed P 0xa0000 0x0) {rate : Nat} {width : Nat} {d : Dev} (hd0 : P d) :
    P (Dev.linkChangeEff rate width d) := by
  unfold Dev.linkChangeEff
  try dsimp only
  repeat' with_reducible first
    | assumption
    | refine ite_ind ?_ ?_
    | refine hP.link (by decide) _ _ ?_
    | refine Dev.raise_ind (hP.mono (by decide) (by decide)) ?_

end Sys2Proof.Machine
end

