-- ==== Sys2Proof/Laws/IndTestSessions.lean ====
section
/-!
SUPPORT. What the operations of Machine/TestSessions.lean can change: each keeps every property that is closed under changes of its
parts and writes of its register families.
-/
namespace Sys2Proof.Machine

theorem Dev.storeFree_ind {P : Dev → Prop} (hP : Closed P 0x18011002 0x0) {d : Dev} {st : Nat} {a : Nat} {n : Nat} (hd0 : P d) :
    P (Dev.storeFree d st a n) := by
  unfold Dev.storeFree
  try dsimp only
  repeat' with_reducible first
    | assumption
    | (intro _; intros; try dsimp only)
    | refine hP.freeSeq (by decide) _ _ ?_
    | refine Dev.storeWrite_ind (hP.mono (by decide) (by decide)) ?_
    | split

theorem Dev.testStartEff_ind {P : Dev → Prop} (hP : Closed P 0x19093002 0xc040000000003b0000000000000000800000000000000008000000000000000000000000000000000000000000000000000000) {s : Nat} {v : W64} {d : Dev} (hd0 : P d) :
    P (Dev.testStartEff s v d) := by
  unfold Dev.testStartEff
  try dsimp only
  repeat' with_reducible first
    | assumption
    | refine ite_ind ?_ ?_
    | refine hP.wrAt (by decide) ?_
    | refine Dev.putb_ind hP (by decide) ?_
    | refine Dev.put_ind hP (by decide) ?_
    | refine Dev.pdPut_ind (hP.mono (by decide) (by decide)) ?_
    | refine Dev.readyShow_ind (hP.mono (by decide) (by decide)) ?_
    | refine Dev.outsShow_ind (hP.mono (by decide) (by decide)) ?_
    | refine Dev.storeFree_ind (hP.mono (by decide) (by decide)) ?_
    | split

theorem Dev.testCount_ind {P : Dev → Prop} (hP : Closed P 0x0 0x300000000000000000000000000000000000000000000000000000000000000000000000000000000000000000) {d : Dev} {s : Nat} {bits : Nat} {errs : Nat} (hd0 : P d) :
    P (Dev.testCount d s bits errs) := by
  unfold Dev.testCount
  try dsimp only
  repeat' with_reducible first
    | assumption
    | refine ite_ind ?_ ?_
    | refine Dev.put_ind hP (by decide) ?_

theorem Dev.testStopEff_ind {P : Dev → Prop} (hP : Closed P 0x0 0x330000000000000000000000000000000000000000000000000000000000000000000000000000000000000000) {s : Nat} {bits : Nat} {errs : Nat} {d : Dev} (hd0 : P d) :
    P (Dev.testStopEff s bits errs d) := by
  unfold Dev.testStopEff
  try dsimp only
  repeat' with_reducible first
    | assumption
    | refine ite_ind ?_ ?_
    | refine Dev.testCount_ind (hP.mono (by decide) (by decide)) ?_
    | refine Dev.putb_ind hP (by decide) ?_
    | refine Dev.put_ind hP (by decide) ?_

theorem Dev.checkerLockEff_ind {P : Dev → Prop} (hP : Closed P 0x0 0x20000000000000000000000000000000000000000000000000000000000000000000000000000000000000000) {s : Nat} {d : Dev} (hd0 : P d) :
    P (Dev.checkerLockEff s d) := by
  unfold Dev.checkerLockEff
  try dsimp only
  repeat' with_reducible first
    | assumption
    | refine ite_ind ?_ ?_
    | refine Dev.putb_ind hP (by decide) ?_

theorem Dev.checkerLockLossEff_ind {P : Dev → Prop} (hP : Closed P 0x0 0x3a0000000000000000000000000000000000000000000000000000000000000000000000000000000000000000) {s : Nat} {bits : Nat} {errs : Nat} {d : Dev} (hd0 : P d) :
    P (Dev.checkerLockLossEff s bits errs d) := by
  unfold Dev.checkerLockLossEff
  try dsimp only
  repeat' with_reducible first
    | assumption
    | refine ite_ind ?_ ?_
    | refine Dev.testCount_ind (hP.mono (by decide) (by decide)) ?_
    | refine Dev.bump_ind hP (by decide) ?_
    | refine Dev.putb_ind hP (by decide) ?_

theorem Dev.pcieLoopbackEff_ind {P : Dev → Prop} (hP : Closed P 0xffffffff 0xffffffffffffffffffffffffffffffffffffffffffffffffffffffffffffffffffffffffffffffffffffffffffffffffffffff) {d : Dev} (hd0 : P d) :
    P (Dev.pcieLoopbackEff d) := by
  unfold Dev.pcieLoopbackEff
  try dsimp only
  repeat' with_reducible first
    | assumption
    | refine ite_ind ?_ ?_
    | refine Dev.linkDownEff_ind (hP.mono (by decide) (by decide)) ?_
    | refine hP.sec (by decide) _ _ ?_

end Sys2Proof.Machine
end

