-- ==== Sys2Proof/Laws/IndBusView.lean ====
section
/-!
SUPPORT. What the operations of Machine/BusView.lean can change: each keeps every property that is closed under changes of its
parts and writes of its register families.
-/
namespace Sys2Proof.Machine

theorem Dev.snap_ind {P : Dev → Prop} (hP : Closed P 0x8 0x0) {d : Dev} {rq : Rq} {r : Reg} {v : W32} (hd0 : P d) :
    P (Dev.snap d rq r v) := by
  unfold Dev.snap
  try dsimp only
  repeat' with_reducible first
    | assumption
    | (intro _; intros; try dsimp only)
    | refine ite_fst ?_ ?_
    | refine ite_snd ?_ ?_
    | refine hP.bus (by decide) _ _ (by first | exact fun _ => Or.inl rfl | exact fun h => absurd h (by decide)) ?_
    | split

theorem Dev.snapRead_ind {P : Dev → Prop} (hP : Closed P 0x8 0x0) {d : Dev} {rq : Rq} {r : Reg} {live : W32} (h : P d) :
    P (d.snapRead rq r live).2 := by
  unfold Dev.snapRead
  split
  · exact hP.bus (by decide) _ _ (fun _ => Or.inl rfl) h
  · exact h

theorem Dev.timeRead_ind {P : Dev → Prop} (hP : Closed P 0x108 0x0) {d : Dev} {rq : Rq} {r : Reg} (h : P d) :
    P (d.timeRead rq r).2 := by
  unfold Dev.timeRead
  refine ite_snd (ite_ind (hP.tb (by decide) _ _ ?_) ?_) (Dev.snapRead_ind (hP.mono (by decide) (by decide)) h)
  all_goals
    refine foldl_ind h fun e w he => ?_
    split
    · exact Dev.snap_ind (hP.mono (by decide) (by decide)) he
    · exact he

theorem Dev.rcClear_ind {P : Dev → Prop} {c g : Nat} (hP : Closed P c g) {d : Dev} {r : Reg}
    (hg : g.testBit r.g.ctorIdx = true) (h : P d) : P (d.rcClear r) := ite_ind h (hP.wr _ _ _ hg h)

theorem Dev.rcKeep_ind {P : Dev → Prop} {c g : Nat} (hP : Closed P c g) {d : Dev} {r : Reg} {inc : W64}
    (hg : g.testBit r.g.ctorIdx = true) (h : P d) : P (d.rcKeep r inc) := hP.wr _ _ _ hg h

theorem Dev.read32_ind {P : Dev → Prop} (hP : Closed P 0x82108 0xffffffffffffffffffffffffffffffffffffffffffffffffffffffffffffffffffffffffffffffffffffffffffffffffffffff) {d : Dev} {rq : Rq} {addr : Nat} {x : W32 × Dev} (h : P d)
    (hx : d.read32 rq addr = some x) : P x.2 := by
  unfold Dev.read32 at hx
  split at hx
  · rename_i r _
    dsimp only at hx
    have h1 : P (d.eviSettle r) := Dev.eviSettle_ind (hP.mono (by decide) (by decide)) h
    split at hx
    · cases hx
      exact Dev.timeRead_ind (hP.mono (by decide) (by decide)) h1
    · split at hx
      · cases hx
        exact Dev.snap_ind (hP.mono (by decide) (by decide)) h1
      · cases hx
        exact Dev.rcClear_ind hP (testBit_all _) h1
  · cases hx
    exact Dev.snapRead_ind (hP.mono (by decide) (by decide)) h
  · cases hx; exact h
  · cases hx; exact h
  · cases hx; exact h
  · cases hx

theorem Dev.countUnmapped_ind {P : Dev → Prop} (hP : Closed P 0x0 0x8000000000000000000000000000000000000000000000000000000000000000000000000000000000000004) {d : Dev} (hd0 : P d) :
    P (Dev.countUnmapped d) := by
  unfold Dev.countUnmapped
  try dsimp only
  repeat' with_reducible first
    | assumption
    | refine Dev.count_ind hP (by decide) (by decide) ?_

theorem Dev.readOr0_ind {P : Dev → Prop} (hP : Closed P 0x82108 0xffffffffffffffffffffffffffffffffffffffffffffffffffffffffffffffffffffffffffffffffffffffffffffffffffffff) {d : Dev} {rq : Rq} {addr : Nat} (h : P d) :
    P (d.readOr0 rq addr).2 := by
  unfold Dev.readOr0
  cases hx : d.read32 rq addr with
  | none => exact ite_ind (Dev.countUnmapped_ind (hP.mono (by decide) (by decide)) h) h
  | some x => exact Dev.read32_ind (hP.mono (by decide) (by decide)) h hx

theorem Dev.read64_ind {P : Dev → Prop} (hP : Closed P 0x82108 0xffffffffffffffffffffffffffffffffffffffffffffffffffffffffffffffffffffffffffffffffffffffffffffffffffffff) {d : Dev} {rq : Rq} {addr : Nat} (h : P d) :
    P (d.read64 rq addr).2 := by
  unfold Dev.read64
  split
  · exact h
  · dsimp only
    split
    · exact Dev.eviSettle_ind (hP.mono (by decide) (by decide)) h
    · exact Dev.readOr0_ind (hP.mono (by decide) (by decide)) (Dev.readOr0_ind (hP.mono (by decide) (by decide)) h)

theorem Dev.countAsleep_ind {P : Dev → Prop} (hP : Closed P 0x0 0x200000000000008000000000000000000000000000000000000000000000000000000000000000000000000000000000000004) {d : Dev} {n : Nat} (hd0 : P d) :
    P (Dev.countAsleep d n) := by
  unfold Dev.countAsleep
  try dsimp only
  repeat' with_reducible first
    | assumption
    | refine ite_ind ?_ ?_
    | refine Dev.count_ind hP (by decide) (by decide) ?_

theorem Dev.hostRead_ind {P : Dev → Prop} (hP : Closed P 0x82108 0xffffffffffffffffffffffffffffffffffffffffffffffffffffffffffffffffffffffffffffffffffffffffffffffffffffff) {d : Dev} {rq : Rq} {addr size : Nat} (h : P d) :
    P (d.hostRead rq addr size).2 := by
  have go : P (if size = 8 then d.read64 rq addr else ((d.readOr0 rq addr).1.setWidth 64, (d.readOr0 rq addr).2)).2 :=
    ite_snd (Dev.read64_ind (hP.mono (by decide) (by decide)) h) (Dev.readOr0_ind (hP.mono (by decide) (by decide)) h)
  unfold Dev.hostRead
  dsimp only
  split
  · exact h
  · exact go
  · exact ite_snd go (Dev.countAsleep_ind (hP.mono (by decide) (by decide)) h)

theorem Dev.answer_ind {P : Dev → Prop} (hP : Closed P 0x8 0x0) {x : W64 × Dev} (h : P x.2) : P (Dev.answer x) :=
  hP.bus (by decide) _ _ (fun _ => Or.inl rfl) h

theorem Dev.readEff_ind {P : Dev → Prop} (hP : Closed P 0x82108 0xffffffffffffffffffffffffffffffffffffffffffffffffffffffffffffffffffffffffffffffffffffffffffffffffffffff) {d : Dev} {rq : Rq} {addr size : Nat} (h : P d) :
    P (Dev.readEff rq addr size d) := by
  unfold Dev.readEff
  refine Dev.answer_ind (hP.mono (by decide) (by decide)) (ite_snd ?_ (ite_snd ?_ ?_))
  · exact Dev.hostRead_ind (hP.mono (by decide) (by decide)) h
  · exact Dev.read64_ind (hP.mono (by decide) (by decide)) h
  · exact Dev.readOr0_ind (hP.mono (by decide) (by decide)) h

theorem Dev.lowHalfReadEff_ind {P : Dev → Prop} (hP : Closed P 0x82108 0xffffffffffffffffffffffffffffffffffffffffffffffffffffffffffffffffffffffffffffffffffffffffffffffffffffff) {rq : Rq} {addr : Nat} {d : Dev} (hd0 : P d) :
    P (Dev.lowHalfReadEff rq addr d) := by
  unfold Dev.lowHalfReadEff
  try dsimp only
  repeat' with_reducible first
    | assumption
    | refine ite_ind ?_ ?_
    | refine Dev.readEff_ind (hP.mono (by decide) (by decide)) ?_

theorem Dev.highHalfReadEff_ind {P : Dev → Prop} (hP : Closed P 0x82108 0xffffffffffffffffffffffffffffffffffffffffffffffffffffffffffffffffffffffffffffffffffffffffffffffffffffff) {rq : Rq} {addr : Nat} {d : Dev} (hd0 : P d) :
    P (Dev.highHalfReadEff rq addr d) := by
  unfold Dev.highHalfReadEff
  try dsimp only
  repeat' with_reducible first
    | assumption
    | refine ite_ind ?_ ?_
    | refine Dev.readEff_ind (hP.mono (by decide) (by decide)) ?_

theorem Dev.rcReadEff_ind {P : Dev → Prop} (hP : Closed P 0x82108 0xffffffffffffffffffffffffffffffffffffffffffffffffffffffffffffffffffffffffffffffffffffffffffffffffffffff) {d : Dev} {rq : Rq} {addr : Nat} {inc : W64} (h : P d) :
    P (Dev.rcReadEff rq addr inc d) := by
  unfold Dev.rcReadEff
  have h1 : P (d.readEff rq addr 4) := Dev.readEff_ind (hP.mono (by decide) (by decide)) h
  split
  · dsimp only
    exact ite_ind h (ite_ind (Dev.rcKeep_ind hP (testBit_all _) h1) h1)
  · exact h

theorem Dev.tbNow0ReadEff_ind {P : Dev → Prop} (hP : Closed P 0x82108 0xffffffffffffffffffffffffffffffffffffffffffffffffffffffffffffffffffffffffffffffffffffffffffffffffffffff) {rq : Rq} {d : Dev} (hd0 : P d) :
    P (Dev.tbNow0ReadEff rq d) := by
  unfold Dev.tbNow0ReadEff
  try dsimp only
  repeat' with_reducible first
    | assumption
    | refine Dev.readEff_ind (hP.mono (by decide) (by decide)) ?_

theorem Dev.snapshotWordReadEff_ind {P : Dev → Prop} (hP : Closed P 0x82108 0xffffffffffffffffffffffffffffffffffffffffffffffffffffffffffffffffffffffffffffffffffffffffffffffffffffff) {rq : Rq} {addr : Nat} {d : Dev} (hd0 : P d) :
    P (Dev.snapshotWordReadEff rq addr d) := by
  unfold Dev.snapshotWordReadEff
  try dsimp only
  repeat' with_reducible first
    | assumption
    | refine ite_ind ?_ ?_
    | refine Dev.readEff_ind (hP.mono (by decide) (by decide)) ?_
    | split

theorem Dev.badsizeEff_ind {P : Dev → Prop} (hP : Closed P 0x8 0x8000000000000000000000000000000000000000000000000000000000000000000000000000000000000004) {write : Bool} {addr : Nat} {size : Nat} {d : Dev} (hd0 : P d) :
    P (Dev.badsizeEff write addr size d) := by
  unfold Dev.badsizeEff
  try dsimp only
  repeat' with_reducible first
    | assumption
    | refine ite_ind ?_ ?_
    | refine Dev.count_ind hP (by decide) (by decide) ?_
    | refine Dev.answer_ind (hP.mono (by decide) (by decide)) ?_

end Sys2Proof.Machine
end

