-- ==== Sys2Proof/Laws/IndBus.lean ====
section
/-!
SUPPORT. What the operations of Machine/Bus.lean can change: each keeps every property that is closed under changes of its
parts and writes of its register families.
-/
namespace Sys2Proof.Machine

theorem Dev.plainWrite_ind {P : Dev → Prop} (hP : Closed P 0xffffffff 0xffffffffffffffffffffffffffffffffffffffffffffffffffffffffffffffffffffffffffffffffffffffffffffffffffffff) {rq : Rq} {r : Reg} {v : W64} {d : Dev} (hd0 : P d) :
    P (Dev.plainWrite rq r v d) := by
  unfold Dev.plainWrite
  try dsimp only
  repeat' with_reducible first
    | assumption
    | (intro _; intros; try dsimp only)
    | refine ite_ind ?_ ?_
    | refine Dev.count_ind hP (by decide) (by decide) ?_
    | refine Dev.eviSettle_ind (hP.mono (by decide) (by decide)) ?_
    | refine hP.wrAt (by decide) ?_
    | refine Dev.tableCommit_ind (hP.mono (by decide) (by decide)) ?_
    | refine Dev.swatchStartEff_ind (hP.mono (by decide) (by decide)) ?_
    | refine Dev.originGoEff_ind (hP.mono (by decide) (by decide)) ?_
    | refine Dev.trgArmDisarmEff_ind (hP.mono (by decide) (by decide)) ?_
    | refine Dev.trgArmArmEff_ind (hP.mono (by decide) (by decide)) ?_
    | refine Dev.prfCommitEff_ind (hP.mono (by decide) (by decide)) ?_
    | refine Dev.trgForceEff_ind (hP.mono (by decide) (by decide)) ?_
    | refine Dev.segmentRequestEff_ind (hP.mono (by decide) (by decide)) ?_
    | refine Dev.decCommitEff_ind (hP.mono (by decide) (by decide)) ?_
    | refine Dev.decSyncGoEff_ind (hP.mono (by decide) (by decide)) ?_
    | refine Dev.tallyStartEff_ind (hP.mono (by decide) (by decide)) ?_
    | refine Dev.tallyResumeEff_ind (hP.mono (by decide) (by decide)) ?_
    | refine Dev.tallyPauseEff_ind (hP.mono (by decide) (by decide)) ?_
    | refine Dev.tallyStopEff_ind (hP.mono (by decide) (by decide)) ?_
    | refine Dev.gaugeStartEff_ind (hP.mono (by decide) (by decide)) ?_
    | refine Dev.needleGoEff_ind (hP.mono (by decide) (by decide)) ?_
    | refine Dev.needleStopEff_ind (hP.mono (by decide) (by decide)) ?_
    | refine Dev.replaceCancelEff_ind (hP.mono (by decide) (by decide)) ?_
    | refine Dev.replaceGoEff_ind (hP.mono (by decide) (by decide)) ?_
    | refine Dev.playSubmitEff_ind (hP.mono (by decide) (by decide)) ?_
    | refine Dev.flowUpdate_ind (hP.mono (by decide) (by decide)) ?_
    | refine Dev.freqChangeGoEff_ind (hP.mono (by decide) (by decide)) ?_
    | refine Dev.retireClearEff_ind (hP.mono (by decide) (by decide)) ?_
    | refine Dev.channelRetireEff_ind (hP.mono (by decide) (by decide)) ?_
    | refine Dev.queueAllocEff_ind (hP.mono (by decide) (by decide)) ?_
    | refine Dev.doorbellEff_ind (hP.mono (by decide) (by decide)) ?_
    | refine Dev.faKeyWriteEff_ind (hP.mono (by decide) (by decide)) ?_
    | refine Dev.msgTxGoEff_ind (hP.mono (by decide) (by decide)) ?_
    | refine Dev.pingGoEff_ind (hP.mono (by decide) (by decide)) ?_
    | refine Dev.pinResume_ind (hP.mono (by decide) (by decide)) ?_
    | refine Dev.rasGoEff_ind (hP.mono (by decide) (by decide)) ?_
    | refine Dev.canvasGuard_ind (hP.mono (by decide) (by decide)) ?_ ?_
    | refine Dev.dpyCommit_ind (hP.mono (by decide) (by decide)) ?_
    | refine Dev.pdOffEff_ind (hP.mono (by decide) (by decide)) ?_
    | refine Dev.drawn_ind (hP.mono (by decide) (by decide)) ?_
    | refine Dev.fwStageEff_ind (hP.mono (by decide) (by decide)) ?_
    | refine Dev.fwSwitchEff_ind (hP.mono (by decide) (by decide)) ?_
    | refine Dev.secGo_ind (hP.mono (by decide) (by decide)) ?_
    | refine hP.wr _ _ _ (testBit_all _) ?_
    | split

theorem Dev.settle_ind {P : Dev → Prop} (hP : Closed P 0xffffffff 0xffffffffffffffffffffffffffffffffffffffffffffffffffffffffffffffffffffffffffffffffffffffffffffffffffffff) {r : Reg} {x : W64} {d : Dev} (hd0 : P d) :
    P (Dev.settle r x d) := by
  unfold Dev.settle
  try dsimp only
  repeat' with_reducible first
    | assumption
    | refine foldl_ind ?_ ?_
    | (intro _; intros; try dsimp only)
    | refine ite_ind ?_ ?_
    | refine Dev.putb_ind hP (by decide) ?_
    | refine Dev.sliceEnableEff_ind (hP.mono (by decide) (by decide)) ?_
    | refine Dev.sliceDisableEff_ind (hP.mono (by decide) (by decide)) ?_
    | refine Dev.failClrWriteEff_ind (hP.mono (by decide) (by decide)) ?_
    | refine Dev.dacRouteWriteEff_ind (hP.mono (by decide) (by decide)) ?_
    | refine hP.wrAt (by decide) ?_
    | refine Dev.updSlice_ind (hP.mono (by decide) (by decide)) ?_
    | refine Dev.tbSelWritten_ind (hP.mono (by decide) (by decide)) ?_
    | refine hP.tb (by decide) _ _ ?_
    | refine Dev.tbAligned_ind (hP.mono (by decide) (by decide)) ?_
    | refine Dev.slewRebase_ind (hP.mono (by decide) (by decide)) ?_
    | refine Dev.trgEnWriteEff_ind (hP.mono (by decide) (by decide)) ?_
    | refine Dev.tcmpLoadEff_ind (hP.mono (by decide) (by decide)) ?_
    | refine Dev.updUnit_ind (hP.mono (by decide) (by decide)) ?_
    | refine Dev.laneEnableEff_ind (hP.mono (by decide) (by decide)) ?_
    | refine Dev.laneDisableEff_ind (hP.mono (by decide) (by decide)) ?_
    | refine Dev.updLane_ind (hP.mono (by decide) (by decide)) ?_
    | refine Dev.toneChange_ind (hP.mono (by decide) (by decide)) ?_
    | refine Dev.hoistReleaseWriteEff_ind (hP.mono (by decide) (by decide)) ?_
    | refine Dev.decEnableEff_ind (hP.mono (by decide) (by decide)) ?_
    | refine Dev.updDec_ind (hP.mono (by decide) (by decide)) ?_
    | refine Dev.eviGmodeWriteEff_ind (hP.mono (by decide) (by decide)) ?_
    | refine Dev.eviIcfgWriteEff_ind (hP.mono (by decide) (by decide)) ?_
    | refine Dev.iuCfgWriteEff_ind (hP.mono (by decide) (by decide)) ?_
    | refine Dev.stimEnableEff_ind (hP.mono (by decide) (by decide)) ?_
    | refine Dev.stimDisableEff_ind (hP.mono (by decide) (by decide)) ?_
    | refine Dev.hoistTargetEnableEff_ind (hP.mono (by decide) (by decide)) ?_
    | refine Dev.testEnd_ind (hP.mono (by decide) (by decide)) ?_
    | refine Dev.quarryDisable_ind (hP.mono (by decide) (by decide)) ?_
    | refine Dev.queueEnableEff_ind (hP.mono (by decide) (by decide)) ?_
    | refine Dev.queueDisableEff_ind (hP.mono (by decide) (by decide)) ?_
    | refine Dev.queIntWriteEff_ind (hP.mono (by decide) (by decide)) ?_
    | refine Dev.put_ind hP (by decide) ?_
    | refine Dev.xferAbortEff_ind (hP.mono (by decide) (by decide)) ?_
    | refine Dev.xferState_ind (hP.mono (by decide) (by decide)) ?_
    | refine Dev.portEnableEff_ind (hP.mono (by decide) (by decide)) ?_
    | refine Dev.portDisableEff_ind (hP.mono (by decide) (by decide)) ?_
    | refine Dev.ownershipWriteEff_ind (hP.mono (by decide) (by decide)) ?_
    | refine Dev.msgModeEnableEff_ind (hP.mono (by decide) (by decide)) ?_
    | refine Dev.pcfgWritten_ind (hP.mono (by decide) (by decide)) ?_
    | refine Dev.canvasEnableEff_ind (hP.mono (by decide) (by decide)) ?_
    | refine Dev.canvasDisable_ind (hP.mono (by decide) (by decide)) ?_
    | refine Dev.dpyCtlWritten_ind (hP.mono (by decide) (by decide)) ?_
    | refine Dev.testStartEff_ind (hP.mono (by decide) (by decide)) ?_
    | refine hP.wr _ _ _ (testBit_all _) ?_
    | split

theorem Dev.lateAct_ind {P : Dev → Prop} (hP : Closed P 0xffffffff 0xffffffffffffffffffffffffffffffffffffffffffffffffffffffffffffffffffffffffffffffffffffffffffffffffffffff) {r : Reg} {v : W64} {d : Dev} (hd0 : P d) :
    P (Dev.lateAct r v d) := by
  unfold Dev.lateAct
  try dsimp only
  repeat' with_reducible first
    | assumption
    | (intro _; intros; try dsimp only)
    | refine ite_ind ?_ ?_
    | refine Dev.xferGoEff_ind (hP.mono (by decide) (by decide)) ?_
    | refine Dev.xferKickEff_ind (hP.mono (by decide) (by decide)) ?_
    | refine Dev.replayGoEff_ind (hP.mono (by decide) (by decide)) ?_
    | refine Dev.skeinRewindEff_ind (hP.mono (by decide) (by decide)) ?_
    | refine Dev.skeinDefineEff_ind (hP.mono (by decide) (by decide)) ?_
    | refine Dev.stimClearEff_ind (hP.mono (by decide) (by decide)) ?_
    | refine Dev.queueFreeEff_ind (hP.mono (by decide) (by decide)) ?_
    | refine Dev.wakeFrom_ind (hP.mono (by decide) (by decide)) ?_
    | refine Dev.standbyEff_ind (hP.mono (by decide) (by decide)) ?_
    | refine Dev.resetRequest_ind (hP.mono (by decide) (by decide)) ?_
    | split

theorem Dev.stage_ind {P : Dev → Prop} (hP : Closed P 0x8 0x0) {d : Dev} {rq : Rq} {r : Reg} {v : Option W32} (hd0 : P d) :
    P (Dev.stage d rq r v) := by
  unfold Dev.stage
  try dsimp only
  repeat' with_reducible first
    | assumption
    | (intro _; intros; try dsimp only)
    | refine ite_fst ?_ ?_
    | refine ite_snd ?_ ?_
    | refine hP.bus (by decide) _ _ (by first | exact fun _ => Or.inl rfl | exact fun h => absurd h (by decide)) ?_
    | split

theorem Dev.asleepWrite_ind {P : Dev → Prop} (hP : Closed P 0xffffffff 0xffffffffffffffffffffffffffffffffffffffffffffffffffffffffffffffffffffffffffffffffffffffffffffffffffffff) {rq : Rq} {addr : Nat} {size : Nat} {v : W64} {d : Dev} (hd0 : P d) :
    P (Dev.asleepWrite rq addr size v d) := by
  unfold Dev.asleepWrite
  try dsimp only
  repeat' with_reducible first
    | assumption
    | refine ite_ind ?_ ?_
    | refine hP.pwr (by decide) _ _ ?_
    | refine Dev.wakeFrom_ind (hP.mono (by decide) (by decide)) ?_
    | refine Dev.countAsleep_ind (hP.mono (by decide) (by decide)) ?_
    | split

section
variable {P : Dev → Prop} (hP : Closed P 0xffffffff 0xffffffffffffffffffffffffffffffffffffffffffffffffffffffffffffffffffffffffffffffffffffffffffffffffffffff)
include hP

theorem WriteRun.reg_ind {w : WriteRun} {rq : Rq} {r : Reg} {v : W64} (h : P w.d) : P (w.reg rq r v).d := by
  unfold WriteRun.reg
  dsimp only
  repeat' split
  all_goals first
    | exact h
    | exact Dev.plainWrite_ind (hP.mono (by decide) (by decide)) h
    | exact Dev.count_ind hP (by decide) (by decide) h
    | exact Dev.raise_ind (hP.mono (by decide) (by decide)) (Dev.count_ind hP (by decide) (by decide) h)

theorem WriteRun.regFor_ind {w : WriteRun} {rq : Rq} {r : Reg} {v : W64} (h : P w.d) : P (w.regFor rq r v).d := by
  unfold WriteRun.regFor
  split
  · exact h
  · exact WriteRun.reg_ind hP h

theorem WriteRun.write32_ind {w : WriteRun} {rq : Rq} {addr : Nat} {v : W32} (h : P w.d) :
    P (w.write32 rq addr v).1.d := by
  unfold WriteRun.write32
  split
  · split
    · dsimp only
      exact Dev.stage_ind (hP.mono (by decide) (by decide)) h
    · exact WriteRun.regFor_ind hP h
  · refine WriteRun.regFor_ind hP ?_
    dsimp only
    exact Dev.stage_ind (hP.mono (by decide) (by decide)) h
  · exact Dev.tableWindowWriteEff_ind (hP.mono (by decide) (by decide)) h
  · exact Dev.needleWindowWriteEff_ind (hP.mono (by decide) (by decide)) h
  · exact h
  · exact h

theorem WriteRun.writeOrCount_ind {w : WriteRun} {rq : Rq} {addr : Nat} {v : W32} (h : P w.d) :
    P (w.writeOrCount rq addr v).d := by
  unfold WriteRun.writeOrCount
  dsimp only
  split
  · exact WriteRun.write32_ind hP h
  · exact Dev.countUnmapped_ind (hP.mono (by decide) (by decide)) (WriteRun.write32_ind hP h)

theorem WriteRun.write_ind {w : WriteRun} {rq : Rq} {addr size : Nat} {v : W64} (h : P w.d) :
    P (w.write rq addr size v).d := by
  unfold WriteRun.write
  split
  · exact WriteRun.writeOrCount_ind hP h
  · split
    · exact Dev.needleWindowWriteEff_ind (hP.mono (by decide) (by decide)) h
    · dsimp only
      split
      · refine WriteRun.regFor_ind hP ?_
        dsimp only
        exact Dev.stage_ind (hP.mono (by decide) (by decide)) h
      · exact WriteRun.writeOrCount_ind hP (WriteRun.writeOrCount_ind hP h)

theorem WriteRun.one_ind {w : WriteRun} {x : BusWr} (h : P w.d) : P (w.one x).d := by
  unfold WriteRun.one
  split
  · split
    · exact Dev.badsizeEff_ind (hP.mono (by decide) (by decide)) h
    · split
      · exact h
      · exact WriteRun.write_ind hP h
      · split
        · exact WriteRun.write_ind hP h
        · exact Dev.asleepWrite_ind (hP.mono (by decide) (by decide)) h
  · split
    · exact WriteRun.write_ind hP h
    · exact h

theorem WriteRun.finish_ind {w : WriteRun} (h : P w.d) : P w.finish := by
  unfold WriteRun.finish
  refine foldl_ind (foldl_ind (foldl_ind h ?_) ?_) ?_
  · exact fun _ _ hd => Dev.laneFlushEff_ind (hP.mono (by decide) (by decide)) hd
  · exact fun _ _ hd => Dev.settle_ind (hP.mono (by decide) (by decide)) hd
  · exact fun _ _ hd => Dev.lateAct_ind (hP.mono (by decide) (by decide)) hd

end

end Sys2Proof.Machine
end

