-- ==== Sys2Proof/Laws/IndNeedleApply.lean ====
section
/-!
SUPPORT. What the operations of Machine/NeedleApply.lean can change: each keeps every property that is closed under changes of its
parts and writes of its register families.
-/
namespace Sys2Proof.Machine

theorem Dev.applyFault_ind {P : Dev → Prop} (hP : Closed P 0x84000 0xed00000000000000000000000000000000000000000000000) {d : Dev} {n : Nat} {f : Flight} {code : Nat} {detail : Nat} (hd0 : P d) :
    P (Dev.applyFault d n f code detail) := by
  unfold Dev.applyFault
  try dsimp only
  repeat' with_reducible first
    | assumption
    | (intro _; intros; try dsimp only)
    | refine Dev.updNdl_ind (hP.mono (by decide) (by decide)) ?_
    | refine Dev.ndlFault_ind (hP.mono (by decide) (by decide)) ?_
    | refine Dev.ndlFaultSwitch_ind (hP.mono (by decide) (by decide)) ?_
    | split

theorem Dev.getfRead_ind {P : Dev → Prop} (hP : Closed P 0x82108 0xffffffffffffffffffffffffffffffffffffffffffffffffffffffffffffffffffffffffffffffffffffffffffffffffffffff) {d : Dev} {rq : Rq} {word lsb wm1 : Nat} {sx : Bool}
    {x : W64 × Dev} (h : P d) (hx : d.getfRead rq word lsb wm1 sx = some x) : P x.2 := by
  unfold Dev.getfRead at hx
  dsimp only at hx
  split at hx
  · cases hx
  · cases hx
    refine ite_snd (Dev.read64_ind (hP.mono (by decide) (by decide)) h) ?_
    split
    · rename_i hr
      exact Dev.read32_ind (x := (_, _)) (hP.mono (by decide) (by decide)) h hr
    · exact h

theorem Dev.castonApply_ind {P : Dev → Prop} (hP : Closed P 0x84100 0x18ed00000000000000000000000000000000000002000000000) {d : Dev} {n : Nat} {f : Flight} {a : W64} {b : W64} (hd0 : P d) :
    P (Dev.castonApply d n f a b) := by
  unfold Dev.castonApply
  try dsimp only
  repeat' with_reducible first
    | assumption
    | (intro _; intros; try dsimp only)
    | refine ite_ind ?_ ?_
    | refine Dev.applyFault_ind (hP.mono (by decide) (by decide)) ?_
    | refine hP.wrAt (by decide) ?_
    | refine Dev.updNdl_ind (hP.mono (by decide) (by decide)) ?_
    | refine Dev.originCancel_ind (hP.mono (by decide) (by decide)) ?_
    | split

theorem Dev.bindoffApply_ind {P : Dev → Prop} (hP : Closed P 0x188dd709 0x800000000000000000000000000000030c1005800000000000000000000a2601800000003fc0002000000000) {d : Dev} {n : Nat} (hd0 : P d) :
    P (Dev.bindoffApply d n) := by
  unfold Dev.bindoffApply
  try dsimp only
  repeat' with_reducible first
    | assumption
    | refine foldl_ind ?_ ?_
    | (intro _; intros; try dsimp only)
    | refine ite_ind ?_ ?_
    | refine Dev.laneEndNow_ind (hP.mono (by decide) (by decide)) ?_
    | refine Dev.trgArmDisarmEff_ind (hP.mono (by decide) (by decide)) ?_
    | refine Dev.stmCancelQueue_ind (hP.mono (by decide) (by decide)) ?_
    | refine Dev.pinIdle_ind (hP.mono (by decide) (by decide)) ?_
    | refine hP.wrAt (by decide) ?_
    | refine Dev.updNdl_ind (hP.mono (by decide) (by decide)) ?_
    | split

theorem Dev.segApply_ind {P : Dev → Prop} (hP : Closed P 0x84400 0x800000000000000000000000000000000000000ed00000000000000000000080000000000000000000000000) {d : Dev} {n : Nat} {f : Flight} {lane : Nat} {a : W64} {b : W64} (hd0 : P d) :
    P (Dev.segApply d n f lane a b) := by
  unfold Dev.segApply
  try dsimp only
  repeat' with_reducible first
    | assumption
    | refine ite_ind ?_ ?_
    | refine Dev.applyFault_ind (hP.mono (by decide) (by decide)) ?_
    | refine Dev.laneRequest_ind (hP.mono (by decide) (by decide)) ?_

theorem Dev.armApply_ind {P : Dev → Prop} (hP : Closed P 0x84200 0xed00000000000000000000000000000000000000000000000) {d : Dev} {n : Nat} {f : Flight} {mask : Nat} {on : Bool} (hd0 : P d) :
    P (Dev.armApply d n f mask on) := by
  unfold Dev.armApply
  try dsimp only
  repeat' with_reducible first
    | assumption
    | refine foldl_ind ?_ ?_
    | (intro _; intros; try dsimp only)
    | refine ite_ind ?_ ?_
    | refine Dev.applyFault_ind (hP.mono (by decide) (by decide)) ?_
    | refine Dev.trgArmArmEff_ind (hP.mono (by decide) (by decide)) ?_
    | refine Dev.trgArmDisarmEff_ind (hP.mono (by decide) (by decide)) ?_
    | split

theorem Dev.playApply_ind {P : Dev → Prop} (hP : Closed P 0x8c000 0x800000000000000000000000000000000430040ed00000000000000000000000000000000000000000000000) {d : Dev} {n : Nat} {f : Flight} {su : Nat} {a : W64} {b : W64} (hd0 : P d) :
    P (Dev.playApply d n f su a b) := by
  unfold Dev.playApply
  try dsimp only
  repeat' with_reducible first
    | assumption
    | refine ite_ind ?_ ?_
    | refine Dev.applyFault_ind (hP.mono (by decide) (by decide)) ?_
    | refine Dev.playAccept_ind (hP.mono (by decide) (by decide)) ?_
    | refine Dev.stmShow_ind (hP.mono (by decide) (by decide)) ?_
    | refine Dev.playRefused_ind (hP.mono (by decide) (by decide)) ?_

theorem Dev.applyEffect_ind {P : Dev → Prop} (hP : Closed P 0x188dff09 0xffffffffffffffffffffffffffffffffffffffffffffffffffffffffffffffffffffffffffffffffffffffffffffffffffffff) {d : Dev} {n : Nat} {f : Flight} (h : P d) :
    P (Dev.applyEffect d n f) := by
  unfold Dev.applyEffect
  split
  · split
    · exact Dev.applyFault_ind (hP.mono (by decide) (by decide)) h
    · rename_i hx
      exact Dev.updNdl_ind (hP.mono (by decide) (by decide))
        (Dev.getfRead_ind (x := (_, _)) (hP.mono (by decide) (by decide)) h hx)
  · exact Dev.armApply_ind (hP.mono (by decide) (by decide)) h
  · exact Dev.segApply_ind (hP.mono (by decide) (by decide)) h
  · exact Dev.castonApply_ind (hP.mono (by decide) (by decide)) h
  · exact Dev.bindoffApply_ind (hP.mono (by decide) (by decide)) h
  · exact Dev.decSyncGoEff_ind (hP.mono (by decide) (by decide)) h
  · exact Dev.playApply_ind (hP.mono (by decide) (by decide)) h
  · exact Dev.updNdl_ind (hP.mono (by decide) (by decide)) (Dev.post_ind (hP.mono (by decide) (by decide)) h)
  · exact Dev.raise_ind (hP.mono (by decide) (by decide)) (Dev.put_ind hP (by decide) h)
  · exact ite_ind (Dev.applyFault_ind (hP.mono (by decide) (by decide)) h)
      (Dev.markPulse_ind (hP.mono (by decide) (by decide)) h)
  · exact h
  · exact h

section
variable {P : Dev → Prop} (hP : Closed P 0xffffffff 0xffffffffffffffffffffffffffffffffffffffffffffffffffffffffffffffffffffffffffffffffffffffffffffffffffffff)
include hP

theorem WriteRun.needle_ind {w : WriteRun} {n : Nat} {f : Flight} (h : P w.d) : P (w.needle n f).d := by
  unfold WriteRun.needle
  split
  · split
    · exact Dev.applyFault_ind (hP.mono (by decide) (by decide)) h
    · exact WriteRun.write_ind hP h
  · split
    · exact Dev.applyFault_ind (hP.mono (by decide) (by decide)) h
    · exact WriteRun.reg_ind hP (WriteRun.reg_ind hP h)
  · exact Dev.applyEffect_ind (hP.mono (by decide) (by decide)) h

end

end Sys2Proof.Machine
end

