-- ==== Sys2Proof/Laws/IndFrame.lean ====
section
/-!
SUPPORT. What the operations of Machine/Frame.lean can change: each keeps every property that is closed under changes of its
parts and writes of its register families.
-/
namespace Sys2Proof.Machine

theorem WriteRun.apply_ind {P : Dev → Prop} (hP : Closed P 0xffffffff 0xffffffffffffffffffffffffffffffffffffffffffffffffffffffffffffffffffffffffffffffffffffffffffffffffffffff) {w : WriteRun} {x : FrameWrite} (h : P w.d) :
    P (w.apply x).d := by
  unfold WriteRun.apply
  split
  · exact WriteRun.one_ind hP h
  · exact WriteRun.needle_ind hP h

theorem Dev.flush_ind {P : Dev → Prop} (hP : Closed P 0xffffffff 0xffffffffffffffffffffffffffffffffffffffffffffffffffffffffffffffffffffffffffffffffffffffffffffffffffffff) {d : Dev} (h : P d) : P d.flush :=
  WriteRun.finish_ind hP (foldl_invariant (fun w : WriteRun => P w.d) _ _ (hP.bus (by decide) _ _ (fun _ => Or.inr rfl) h)
    fun _ _ _ hw => WriteRun.apply_ind hP hw)

theorem Dev.frameEnd_ind {P : Dev → Prop} (hP : Closed P 0xffffffff 0xffffffffffffffffffffffffffffffffffffffffffffffffffffffffffffffffffffffffffffffffffffffffffffffffffffff) {d : Dev} (hd0 : P d) :
    P (Dev.frameEnd d) := by
  unfold Dev.frameEnd
  try dsimp only
  repeat' with_reducible first
    | assumption
    | refine ite_ind ?_ ?_
    | refine Dev.flush_ind (hP.mono (by decide) (by decide)) ?_
    | refine Dev.advanceTo_ind (hP.mono (by decide) (by decide)) ?_

theorem Dev.idle_ind {P : Dev → Prop} (hP : Closed P 0xffffffff 0xffffffffffffffffffffffffffffffffffffffffffffffffffffffffffffffffffffffffffffffffffffffffffffffffffffff) {d : Dev} (hd0 : P d) :
    P (Dev.idle d) := by
  unfold Dev.idle
  try dsimp only
  repeat' with_reducible first
    | assumption
    | refine ite_ind ?_ ?_
    | refine Dev.advanceTo_ind (hP.mono (by decide) (by decide)) ?_
    | refine Dev.frameEnd_ind (hP.mono (by decide) (by decide)) ?_

theorem Dev.reach_ind {P : Dev → Prop} (hP : Closed P 0xffffffff 0xffffffffffffffffffffffffffffffffffffffffffffffffffffffffffffffffffffffffffffffffffffffffffffffffffffff) {d : Dev} {t : Nat} (hd0 : P d) :
    P (Dev.reach d t) := by
  unfold Dev.reach
  try dsimp only
  repeat' with_reducible first
    | assumption
    | refine ite_ind ?_ ?_
    | refine Dev.frameEnd_ind (hP.mono (by decide) (by decide)) ?_
    | refine Dev.advanceTo_ind (hP.mono (by decide) (by decide)) ?_

theorem Dev.written_ind {P : Dev → Prop} (hP : Closed P 0x100000008 0x0) {d : Dev} {w : FrameWrite} (hd0 : P d) :
    P (Dev.written d w) := by
  unfold Dev.written
  try dsimp only
  repeat' with_reducible first
    | assumption
    | refine hP.bus (by decide) _ _ (by first | exact fun _ => Or.inl rfl | exact fun h => absurd h (by decide)) ?_

theorem Dev.busWrites_ind {P : Dev → Prop} (hP : Closed P 0x100000008 0x0) {ws : List BusWr} {d : Dev} (hd0 : P d) :
    P (Dev.busWrites ws d) := by
  unfold Dev.busWrites
  try dsimp only
  repeat' with_reducible first
    | assumption
    | refine foldl_ind ?_ ?_
    | (intro _; intros; try dsimp only)
    | refine Dev.written_ind (hP.mono (by decide) (by decide)) ?_
    | split

theorem Dev.effectEff_ind {P : Dev → Prop} (hP : Closed P 0x1ffffffff 0xffffffffffffffffffffffffffffffffffffffffffffffffffffffffffffffffffffffffffffffffffffffffffffffffffffff) {cls : Nat} {n : Nat} {d : Dev} (hd0 : P d) :
    P (Dev.effectEff cls n d) := by
  unfold Dev.effectEff
  try dsimp only
  repeat' with_reducible first
    | assumption
    | (intro _; intros; try dsimp only)
    | refine ite_ind ?_ ?_
    | refine Dev.reach_ind (hP.mono (by decide) (by decide)) ?_
    | refine Dev.updNdl_ind (hP.mono (by decide) (by decide)) ?_
    | refine Dev.written_ind (hP.mono (by decide) (by decide)) ?_
    | refine Dev.applyEffect_ind (hP.mono (by decide) (by decide)) ?_
    | split

theorem Dev.highHalfWriteEff_ind {P : Dev → Prop} (hP : Closed P 0x100000008 0x0) {rq : Rq} {addr : Nat} {v : W32} {d : Dev} (hd0 : P d) :
    P (Dev.highHalfWriteEff rq addr v d) := by
  unfold Dev.highHalfWriteEff
  try dsimp only
  repeat' with_reducible first
    | assumption
    | refine ite_ind ?_ ?_
    | refine Dev.busWrites_ind (hP.mono (by decide) (by decide)) ?_

theorem Dev.lowHalfWriteEff_ind {P : Dev → Prop} (hP : Closed P 0x100000008 0x0) {rq : Rq} {addr : Nat} {v : W32} {d : Dev} (hd0 : P d) :
    P (Dev.lowHalfWriteEff rq addr v d) := by
  unfold Dev.lowHalfWriteEff
  try dsimp only
  repeat' with_reducible first
    | assumption
    | refine ite_ind ?_ ?_
    | refine Dev.busWrites_ind (hP.mono (by decide) (by decide)) ?_

theorem Dev.unmappedEff_ind {P : Dev → Prop} (hP : Closed P 0x100082108 0xffffffffffffffffffffffffffffffffffffffffffffffffffffffffffffffffffffffffffffffffffffffffffffffffffffff) {write : Bool} {addr : Nat} {wide : Bool} {data : W64} {d : Dev} (hd0 : P d) :
    P (Dev.unmappedEff write addr wide data d) := by
  unfold Dev.unmappedEff
  try dsimp only
  repeat' with_reducible first
    | assumption
    | refine ite_ind ?_ ?_
    | refine Dev.busWrites_ind (hP.mono (by decide) (by decide)) ?_
    | refine Dev.readEff_ind (hP.mono (by decide) (by decide)) ?_

end Sys2Proof.Machine
end

