-- ==== Sys2Proof/Laws/IndCommands.lean ====
section
/-!
SUPPORT. What the operations of Machine/Commands.lean can change: each keeps every property that is closed under changes of its
parts and writes of its register families.
-/
namespace Sys2Proof.Machine

theorem Dev.cmdApply_ind {P : Dev → Prop} (hP : Closed P 0x100082108 0xffffffffffffffffffffffffffffffffffffffffffffffffffffffffffffffffffffffffffffffffffffffffffffffffffffff) {d : Dev} {q : Nat} {c : Line} (h : P d) :
    P (d.cmdApply q c).1 := by
  unfold Dev.cmdApply
  split
  · exact Dev.busWrites_ind (hP.mono (by decide) (by decide)) h
  · exact Dev.busWrites_ind (hP.mono (by decide) (by decide)) h
  · exact foldl_fst h fun _ _ hy => Dev.hostRead_ind (hP.mono (by decide) (by decide)) hy
  · exact h

theorem Dev.cmdRun_ind {P : Dev → Prop} (hP : Closed P 0x1000c2108 0xffffffffffffffffffffffffffffffffffffffffffffffffffffffffffffffffffffffffffffffffffffffffffffffffffffff) {d : Dev} {q : Nat} {c : Line} (hd0 : P d) :
    P (Dev.cmdRun d q c) := by
  unfold Dev.cmdRun
  try dsimp only
  repeat' with_reducible first
    | assumption
    | refine ite_fst ?_ ?_
    | refine ite_snd ?_ ?_
    | refine Dev.cmdApply_ind (hP.mono (by decide) (by decide)) ?_
    | refine Dev.cmdComplete_ind (hP.mono (by decide) (by decide)) ?_

theorem Dev.cmdTurn_ind {P : Dev → Prop} (hP : Closed P 0x1ffffffff 0xffffffffffffffffffffffffffffffffffffffffffffffffffffffffffffffffffffffffffffffffffffffffffffffffffffff) {d : Dev} {q : Nat} {c : Line} (hd0 : P d) :
    P (Dev.cmdTurn d q c) := by
  unfold Dev.cmdTurn
  try dsimp only
  repeat' with_reducible first
    | assumption
    | refine ite_ind ?_ ?_
    | refine Dev.cmdComplete_ind (hP.mono (by decide) (by decide)) ?_
    | refine Dev.reach_ind (hP.mono (by decide) (by decide)) ?_
    | refine Dev.cmdRun_ind (hP.mono (by decide) (by decide)) ?_
    | split

theorem Dev.commandEff_ind {P : Dev → Prop} (hP : Closed P 0x1ffffffff 0xffffffffffffffffffffffffffffffffffffffffffffffffffffffffffffffffffffffffffffffffffffffffffffffffffffff) {op : Nat} {q : Nat} {d : Dev} (hd0 : P d) :
    P (Dev.commandEff op q d) := by
  unfold Dev.commandEff
  try dsimp only
  repeat' with_reducible first
    | assumption
    | refine ite_ind ?_ ?_
    | refine Dev.reach_ind (hP.mono (by decide) (by decide)) ?_
    | refine Dev.cmdTurn_ind (hP.mono (by decide) (by decide)) ?_
    | split

end Sys2Proof.Machine
end

