-- ==== Sys2Proof/Laws/IndApertures.lean ====
section
/-!
SUPPORT. What the operations of Machine/Apertures.lean can change: each keeps every property that is closed under changes of its
parts and writes of its register families.
-/
namespace Sys2Proof.Machine

theorem Dev.apertureOor_ind {P : Dev → Prop} (hP : Closed P 0x80000 0x8000000000000000000000020000000000000000000000000000000000000000000000000000000000000000) {d : Dev} (hd0 : P d) :
    P (Dev.apertureOor d) := by
  unfold Dev.apertureOor
  try dsimp only
  repeat' with_reducible first
    | assumption
    | refine Dev.count_ind hP (by decide) (by decide) ?_
    | refine Dev.raise_ind (hP.mono (by decide) (by decide)) ?_

theorem Dev.apertureAnswer_ind {P : Dev → Prop} (hP : Closed P 0x20000 0x0) {d : Dev} {bytes : List Byte} {poison : Bool} (hd0 : P d) :
    P (Dev.apertureAnswer d bytes poison) := by
  unfold Dev.apertureAnswer
  try dsimp only
  repeat' with_reducible first
    | assumption
    | refine hP.link (by decide) _ _ ?_

theorem Dev.apertureReadEff_ind {P : Dev → Prop} (hP : Closed P 0xa0000 0x8000000000000000000000020000000000000000000000000000000000000000000000000000000000000000) {x : Nat} {n : Nat} {d : Dev} (hd0 : P d) :
    P (Dev.apertureReadEff x n d) := by
  unfold Dev.apertureReadEff
  try dsimp only
  repeat' with_reducible first
    | assumption
    | refine ite_ind ?_ ?_
    | refine ite_fst ?_ ?_
    | refine ite_snd ?_ ?_
    | refine Dev.apertureOor_ind (hP.mono (by decide) (by decide)) ?_
    | refine Dev.apertureAnswer_ind (hP.mono (by decide) (by decide)) ?_
    | refine Dev.count_ind hP (by decide) (by decide) ?_
    | refine Dev.raise_ind (hP.mono (by decide) (by decide)) ?_
    | split

theorem Dev.apertureWriteEff_ind {P : Dev → Prop} (hP : Closed P 0x18091000 0x8000000000000000000000020000000000000000000000020000000000000000000000000000000000000000) {x : Nat} {data : List Byte} {d : Dev} (hd0 : P d) :
    P (Dev.apertureWriteEff x data d) := by
  unfold Dev.apertureWriteEff
  try dsimp only
  repeat' with_reducible first
    | assumption
    | refine ite_ind ?_ ?_
    | refine ite_fst ?_ ?_
    | refine ite_snd ?_ ?_
    | refine Dev.apertureOor_ind (hP.mono (by decide) (by decide)) ?_
    | refine Dev.tallySpaceWriteEff_ind (hP.mono (by decide) (by decide)) ?_
    | refine Dev.storeWrite_ind (hP.mono (by decide) (by decide)) ?_
    | split

end Sys2Proof.Machine
end

