-- ==== Sys2Proof/Laws/IndXfer.lean ====
section
/-!
SUPPORT. What the operations of Machine/Xfer.lean can change: each keeps every property that is closed under changes of its
parts and writes of its register families.
-/
namespace Sys2Proof.Machine

theorem Dev.regWordsRead_ind {P : Dev → Prop} (hP : Closed P 0x82108 0xffffffffffffffffffffffffffffffffffffffffffffffffffffffffffffffffffffffffffffffffffffffffffffffffffffff) {d : Dev} {c a n : Nat} (h : P d) :
    P (d.regWordsRead c a n).2 := by
  induction n generalizing a d with
  | zero => exact h
  | succ n ih => exact ih (Dev.hostRead_ind (hP.mono (by decide) (by decide)) h)

theorem Dev.regWordsWrite_ind {P : Dev → Prop} (hP : Closed P 0x100000008 0x0) {d : Dev} {c a : Nat} {b : List Byte} (h : P d) :
    P (d.regWordsWrite c a b).1 := by
  match b with
  | b0 :: b1 :: b2 :: b3 :: t =>
    exact Dev.regWordsWrite_ind hP (b := t) (Dev.busWrites_ind (hP.mono (by decide) (by decide)) h)
  | [] => exact h
  | [_] => exact Dev.busWrites_ind (hP.mono (by decide) (by decide)) h
  | [_, _] => exact Dev.busWrites_ind (hP.mono (by decide) (by decide)) h
  | [_, _, _] => exact Dev.busWrites_ind (hP.mono (by decide) (by decide)) h

theorem Dev.spaceRead_ind {P : Dev → Prop} (hP : Closed P 0x82108 0xffffffffffffffffffffffffffffffffffffffffffffffffffffffffffffffffffffffffffffffffffffffffffffffffffffff) {d : Dev} {c sp a n : Nat} (h : P d) :
    P (d.spaceRead c sp a n).2.2 := by
  unfold Dev.spaceRead
  split
  all_goals first
    | exact h
    | exact Dev.regWordsRead_ind (hP.mono (by decide) (by decide)) h

theorem Dev.spaceWrite_ind {P : Dev → Prop} (hP : Closed P 0x1f9155008 0x8000000000000000000000000000000000000000010000020000000000000000000000000000000000000000) {d : Dev} {c sp a : Nat} {b : List Byte} {p : Bool}
    (h : P d) : P (d.spaceWrite c sp a b p).1 := by
  unfold Dev.spaceWrite
  split <;> try dsimp only
  · have h1 := hP.xfe (by decide) d { d.xfe with hostPoison := p } h
    exact ite_ind (hP.que (by decide) _ _ (Memory.keeps_store (by decide) _ _ _) h1) h1
  · exact Dev.storeWrite_ind (hP.mono (by decide) (by decide)) h
  · exact Dev.storeWrite_ind (hP.mono (by decide) (by decide)) h
  · exact Dev.tallySpaceWriteEff_ind (hP.mono (by decide) (by decide)) h
  · exact hP.ras (by decide) _ _ (Memory.keeps_store (by decide) _ _ _) h
  · exact Dev.progWrite_ind (hP.mono (by decide) (by decide)) h
  · exact Dev.regWordsWrite_ind (hP.mono (by decide) (by decide)) h

theorem Dev.xferFetched_ind {P : Dev → Prop} (hP : Closed P 0xffffffff 0xffffffffffffffffffffffffffffffffffffffffffffffffffffffffffffffffffffffffffffffffffffffffffffffffffffff) {d : Dev} {c : Nat} {l : Line} (hd0 : P d) :
    P (Dev.xferFetched d c l) := by
  unfold Dev.xferFetched
  try dsimp only
  repeat' with_reducible first
    | assumption
    | (intro _; intros; try dsimp only)
    | refine ite_ind ?_ ?_
    | refine Dev.updXfer_ind (hP.mono (by decide) (by decide)) ?_
    | refine Dev.xferState_ind (hP.mono (by decide) (by decide)) ?_
    | refine Dev.idle_ind (hP.mono (by decide) (by decide)) ?_
    | refine Dev.raise_ind (hP.mono (by decide) (by decide)) ?_
    | refine Dev.xferFail_ind (hP.mono (by decide) (by decide)) ?_
    | refine Dev.xferBegin_ind (hP.mono (by decide) (by decide)) ?_
    | split

theorem Dev.descriptorFetchEff_ind {P : Dev → Prop} (hP : Closed P 0xffffffff 0xffffffffffffffffffffffffffffffffffffffffffffffffffffffffffffffffffffffffffffffffffffffffffffffffffffff) {c : Nat} {ending : ReadEnd} {line : Line} {d : Dev} (hd0 : P d) :
    P (Dev.descriptorFetchEff c ending line d) := by
  unfold Dev.descriptorFetchEff
  try dsimp only
  repeat' with_reducible first
    | assumption
    | refine ite_ind ?_ ?_
    | refine Dev.xferFail_ind (hP.mono (by decide) (by decide)) ?_
    | refine Dev.xferFetched_ind (hP.mono (by decide) (by decide)) ?_
    | split

theorem Dev.xferLast_ind {P : Dev → Prop} (hP : Closed P 0x1f9155008 0x8000000000000000000000000000000000000000010000020000000000000000000000000000000000000000) {d : Dev} {c : Nat} (hd0 : P d) :
    P (Dev.xferLast d c) := by
  unfold Dev.xferLast
  try dsimp only
  repeat' with_reducible first
    | assumption
    | (intro _; intros; try dsimp only)
    | refine ite_ind ?_ ?_
    | refine ite_fst ?_ ?_
    | refine ite_snd ?_ ?_
    | refine Dev.spaceWrite_ind (hP.mono (by decide) (by decide)) ?_
    | refine Dev.updXfer_ind (hP.mono (by decide) (by decide)) ?_
    | split

theorem Dev.xferPieceEff_ind {P : Dev → Prop} (hP : Closed P 0x1ffffffff 0xffffffffffffffffffffffffffffffffffffffffffffffffffffffffffffffffffffffffffffffffffffffffffffffffffffff) {c : Nat} {ending : ReadEnd} {data : List Byte} {d : Dev} (hd0 : P d) :
    P (Dev.xferPieceEff c ending data d) := by
  unfold Dev.xferPieceEff
  try dsimp only
  repeat' with_reducible first
    | assumption
    | (intro _; intros; try dsimp only)
    | refine ite_ind ?_ ?_
    | refine ite_fst ?_ ?_
    | refine ite_snd ?_ ?_
    | refine Dev.xferFail_ind (hP.mono (by decide) (by decide)) ?_
    | refine Dev.spaceRead_ind (hP.mono (by decide) (by decide)) ?_
    | refine Dev.spaceWrite_ind (hP.mono (by decide) (by decide)) ?_
    | refine Dev.updXfer_ind (hP.mono (by decide) (by decide)) ?_
    | refine Dev.xferLast_ind (hP.mono (by decide) (by decide)) ?_
    | split

theorem Dev.xferReadbackEff_ind {P : Dev → Prop} (hP : Closed P 0xffffffff 0xffffffffffffffffffffffffffffffffffffffffffffffffffffffffffffffffffffffffffffffffffffffffffffffffffffff) {c : Nat} {ending : ReadEnd} {d : Dev} (hd0 : P d) :
    P (Dev.xferReadbackEff c ending d) := by
  unfold Dev.xferReadbackEff
  try dsimp only
  repeat' with_reducible first
    | assumption
    | refine ite_ind ?_ ?_
    | refine Dev.xferFail_ind (hP.mono (by decide) (by decide)) ?_
    | refine Dev.xferEnd_ind (hP.mono (by decide) (by decide)) ?_
    | split

end Sys2Proof.Machine
end

