-- ==== Sys2Proof/Laws/Exec.lean ====
section
/-!
SUPPORT. What every command keeps: the queue of the waiting commands, and every property of the module that is closed under
changes of its parts and registers.
-/
namespace Sys2Proof.Machine

section
variable {P : Dev → Prop} {s s' : State} {f : Dev → Dev}

/-- What a command's effect on the module keeps, the command keeps. -/
theorem effect_ind (_hP : Closed P 0x1ffffffff 0xffffffffffffffffffffffffffffffffffffffffffffffffffffffffffffffffffffffffffffffffffffffffffffffffffffff)
    (h : s.effect f = .next s') (hf : ∀ d, P d → P (f d)) (hs : P s.dev) : P s'.dev := by
  cases h
  exact hf _ hs

theorem row_ind (hP : Closed P 0x1ffffffff 0xffffffffffffffffffffffffffffffffffffffffffffffffffffffffffffffffffffffffffffffffffffffffffffffffffffff)
    (h : s.row f = .next s') (hf : ∀ d, P d → P (f d)) (hs : P s.dev) : P s'.dev := by
  cases h
  exact hf _ (Dev.frameEnd_ind (hP.mono (by decide) (by decide)) hs)

theorem rowLast_ind (hP : Closed P 0x1ffffffff 0xffffffffffffffffffffffffffffffffffffffffffffffffffffffffffffffffffffffffffffffffffffffffffffffffffffff)
    (h : s.rowLast f = .next s') (hf : ∀ d, P d → P (f d)) (hs : P s.dev) : P s'.dev :=
  row_ind hP h (fun d hd => Dev.idle_ind (hP.mono (by decide) (by decide)) (hf d hd)) hs

theorem access_ind (hP : Closed P 0x1ffffffff 0xffffffffffffffffffffffffffffffffffffffffffffffffffffffffffffffffffffffffffffffffffffffffffffffffffffff)
    {rqs : List Rq} (h : s.access rqs f = .next s') (hf : ∀ d, P d → P (f d)) (hs : P s.dev) : P s'.dev :=
  effect_ind hP h (fun d hd => hf _ (ite_ind (Dev.frameEnd_ind (hP.mono (by decide) (by decide)) hd) hd)) hs

end

theorem effect_pending {s s' : State} {f : Dev → Dev} (h : s.effect f = .next s') : s'.pending = s.pending := by
  cases h
  rfl

theorem row_pending {s s' : State} {f : Dev → Dev} (h : s.row f = .next s') : s'.pending = s.pending := effect_pending h

theorem rowLast_pending {s s' : State} {f : Dev → Dev} (h : s.rowLast f = .next s') : s'.pending = s.pending :=
  row_pending h

theorem access_pending {s s' : State} {rqs : List Rq} {f : Dev → Dev} (h : s.access rqs f = .next s') :
    s'.pending = s.pending := effect_pending h

/-- A command that answers leaves the queue as it is. -/
theorem exec_pending {i : Instr} {s s' : State} (h : exec i s = .next s') : s'.pending = s.pending := by
  cases i
  case sampleFrame n codes =>
    have h : execSampleFrame n codes s = .next s' := h
    unfold execSampleFrame at h
    split at h
    · exact row_pending h
    · cases h
  case tableCommitSub n tim =>
    have h : execTableCommitSub n tim s = .next s' := h
    unfold execTableCommitSub at h
    exact row_pending h
  case tableCommitTim n =>
    have h : execTableCommitTim n s = .next s' := h
    unfold execTableCommitTim at h
    exact row_pending h
  case dropRunEnd l =>
    have h : execDropRunEnd l s = .next s' := h
    unfold execDropRunEnd at h
    exact row_pending h
  case msixMessage v =>
    have h : execMsixMessage v s = .next s' := h
    unfold execMsixMessage at h
    exact row_pending h
  case wake =>
    have h : execWake s = .next s' := h
    unfold execWake at h
    exact row_pending h
  all_goals first
    | exact row_pending h
    | exact rowLast_pending h
    | exact access_pending h
    | exact effect_pending h

/-- Every command keeps what is closed under every change of the module's parts and registers. -/
theorem exec_ind {P : Dev → Prop} (hP : Closed P 0x1ffffffff 0xffffffffffffffffffffffffffffffffffffffffffffffffffffffffffffffffffffffffffffffffffffffffffffffffffffff)
    {i : Instr} {s s' : State} (h : exec i s = .next s') (hs : P s.dev) : P s'.dev := by
  cases i
  case registerWrite => exact access_ind hP h (fun _ h => Dev.busWrites_ind (hP.mono (by decide) (by decide)) h) hs
  case highHalfWrite => exact access_ind hP h (fun _ h => Dev.highHalfWriteEff_ind (hP.mono (by decide) (by decide)) h) hs
  case lowHalfWrite => exact access_ind hP h (fun _ h => Dev.lowHalfWriteEff_ind (hP.mono (by decide) (by decide)) h) hs
  case lowHalfRead => exact access_ind hP h (fun _ h => Dev.lowHalfReadEff_ind (hP.mono (by decide) (by decide)) h) hs
  case highHalfRead => exact access_ind hP h (fun _ h => Dev.highHalfReadEff_ind (hP.mono (by decide) (by decide)) h) hs
  case rcRead => exact access_ind hP h (fun _ h => Dev.rcReadEff_ind (hP.mono (by decide) (by decide)) h) hs
  case bar0BadsizeAccess => exact access_ind hP h (fun _ h => Dev.badsizeEff_ind (hP.mono (by decide) (by decide)) h) hs
  case bar0UnmappedAccess => exact access_ind hP h (fun _ h => Dev.unmappedEff_ind (hP.mono (by decide) (by decide)) h) hs
  case holdoffExpiry => exact row_ind hP h (fun _ h => Dev.holdoffExpiryEff_ind (hP.mono (by decide) (by decide)) h) hs
  case sampleFrame n codes =>
    have h : execSampleFrame n codes s = .next s' := h
    unfold execSampleFrame at h
    split at h
    · exact row_ind hP h (fun _ h => Dev.sampleFrameEff_ind (hP.mono (by decide) (by decide)) h) hs
    · cases h
  case sliceEnable => exact row_ind hP h (fun _ h => Dev.sliceEnableEff_ind (hP.mono (by decide) (by decide)) h) hs
  case sliceDisable => exact rowLast_ind hP h (fun _ h => Dev.sliceDisableEff_ind (hP.mono (by decide) (by decide)) h) hs
  case enableCalibrationDone => exact row_ind hP h (fun _ h => Dev.enableCalibrationDoneEff_ind (hP.mono (by decide) (by decide)) h) hs
  case rotation => exact row_ind hP h (fun _ h => Dev.rotationEff_ind (hP.mono (by decide) (by decide)) h) hs
  case subconverterSwap => exact row_ind hP h (fun _ h => Dev.subconverterSwapEff_ind (hP.mono (by decide) (by decide)) h) hs
  case monitorWindowEnd => exact row_ind hP h (fun _ h => Dev.monitorWindowEndEff_ind (hP.mono (by decide) (by decide)) h) hs
  case sparingTransition => exact row_ind hP h (fun _ h => Dev.sparingTransitionEff_ind (hP.mono (by decide) (by decide)) h) hs
  case spareCalibrationDone => exact row_ind hP h (fun _ h => Dev.spareCalibrationDoneEff_ind (hP.mono (by decide) (by decide)) h) hs
  case failClrWrite => exact row_ind hP h (fun _ h => Dev.failClrWriteEff_ind (hP.mono (by decide) (by decide)) h) hs
  case dacRouteWrite => exact row_ind hP h (fun _ h => Dev.dacRouteWriteEff_ind (hP.mono (by decide) (by decide)) h) hs
  case injectionSwitch => exact row_ind hP h (fun _ h => Dev.injectionSwitchEff_ind (hP.mono (by decide) (by decide)) h) hs
  case sliceClockLoss => exact row_ind hP h (fun _ h => Dev.sliceClockLossEff_ind (hP.mono (by decide) (by decide)) h) hs
  case sliceClockLock => exact row_ind hP h (fun _ h => Dev.sliceClockLockEff_ind (hP.mono (by decide) (by decide)) h) hs
  case correctedFrame => exact row_ind hP h (fun _ h => Dev.correctedFrameEff_ind (hP.mono (by decide) (by decide)) h) hs
  case tableCommitSub n tim =>
    have h : execTableCommitSub n tim s = .next s' := h
    unfold execTableCommitSub at h
    exact row_ind hP h (fun _ h => Dev.tableCommit_ind (hP.mono (by decide) (by decide)) h) hs
  case tableCommitTim n =>
    have h : execTableCommitTim n s = .next s' := h
    unfold execTableCommitTim at h
    exact row_ind hP h (fun _ h => Dev.tableCommit_ind (hP.mono (by decide) (by decide)) h) hs
  case commitEffect => exact row_ind hP h (fun _ h => Dev.commitEffectEff_ind (hP.mono (by decide) (by decide)) h) hs
  case tblSwitch => exact row_ind hP h (fun _ h => Dev.tblSwitchEff_ind (hP.mono (by decide) (by decide)) h) hs
  case tableWindowWrite => exact row_ind hP h (fun _ h => Dev.tableWindowWriteEff_ind (hP.mono (by decide) (by decide)) h) hs
  case nospareMatching => exact row_ind hP h (fun _ h => Dev.nospareMatchingEff_ind (hP.mono (by decide) (by decide)) h) hs
  case skewUpdate => exact row_ind hP h (fun _ h => Dev.skewUpdateEff_ind (hP.mono (by decide) (by decide)) h) hs
  case swatchStart => exact row_ind hP h (fun _ h => Dev.swatchStartEff_ind (hP.mono (by decide) (by decide)) h) hs
  case swatchCapture => exact row_ind hP h (fun _ h => Dev.swatchCaptureEff_ind (hP.mono (by decide) (by decide)) h) hs
  case swatchRouteOff => exact row_ind hP h (fun _ h => Dev.swatchRouteOffEff_ind (hP.mono (by decide) (by decide)) h) hs
  case swatchResult => exact row_ind hP h (fun _ h => Dev.swatchResultEff_ind (hP.mono (by decide) (by decide)) h) hs
  case tableFlashSave => exact row_ind hP h (fun _ h => Dev.tableFlashSaveEff_ind (hP.mono (by decide) (by decide)) h) hs
  case refPresent => exact row_ind hP h (fun _ h => Dev.refPresentEff_ind (hP.mono (by decide) (by decide)) h) hs
  case refAbsent => exact row_ind hP h (fun _ h => Dev.refAbsentEff_ind (hP.mono (by decide) (by decide)) h) hs
  case extPresent => exact row_ind hP h (fun _ h => Dev.extPresentEff_ind (hP.mono (by decide) (by decide)) h) hs
  case extAbsent => exact row_ind hP h (fun _ h => Dev.extAbsentEff_ind (hP.mono (by decide) (by decide)) h) hs
  case qualificationExpiry => exact row_ind hP h (fun _ h => Dev.qualificationExpiryEff_ind (hP.mono (by decide) (by decide)) h) hs
  case synthLock => exact row_ind hP h (fun _ h => Dev.synthLockEff_ind (hP.mono (by decide) (by decide)) h) hs
  case synthUnlock => exact row_ind hP h (fun _ h => Dev.synthUnlockEff_ind (hP.mono (by decide) (by decide)) h) hs
  case timeStep => exact row_ind hP h (fun _ h => Dev.timeStepEff_ind (hP.mono (by decide) (by decide)) h) hs
  case holdoverExit => exact row_ind hP h (fun _ h => Dev.holdoverExitEff_ind (hP.mono (by decide) (by decide)) h) hs
  case originGo => exact row_ind hP h (fun _ h => Dev.originGoEff_ind (hP.mono (by decide) (by decide)) h) hs
  case originSet => exact row_ind hP h (fun _ h => Dev.originSetEff_ind (hP.mono (by decide) (by decide)) h) hs
  case tickWrap => exact row_ind hP h (fun _ h => Dev.tickWrapEff_ind (hP.mono (by decide) (by decide)) h) hs
  case ppsIn => exact row_ind hP h (fun _ h => Dev.ppsInEff_ind (hP.mono (by decide) (by decide)) h) hs
  case ppsMissing => exact row_ind hP h (fun _ h => Dev.ppsMissingEff_ind (hP.mono (by decide) (by decide)) h) hs
  case ppsOut => exact row_ind hP h (fun _ h => Dev.ppsOutEff_ind (hP.mono (by decide) (by decide)) h) hs
  case tbNow0Read => exact access_ind hP h (fun _ h => Dev.tbNow0ReadEff_ind (hP.mono (by decide) (by decide)) h) hs
  case snapshotWordRead => exact access_ind hP h (fun _ h => Dev.snapshotWordReadEff_ind (hP.mono (by decide) (by decide)) h) hs
  case ptpMessage => exact row_ind hP h (fun _ h => Dev.ptpMessageEff_ind (hP.mono (by decide) (by decide)) h) hs
  case trgEnWrite => exact row_ind hP h (fun _ h => Dev.trgEnWriteEff_ind (hP.mono (by decide) (by decide)) h) hs
  case trgArmArm => exact row_ind hP h (fun _ h => Dev.trgArmArmEff_ind (hP.mono (by decide) (by decide)) h) hs
  case trgArmDisarm => exact row_ind hP h (fun _ h => Dev.trgArmDisarmEff_ind (hP.mono (by decide) (by decide)) h) hs
  case armingEffect => exact row_ind hP h (fun _ h => Dev.armingEffectEff_ind (hP.mono (by decide) (by decide)) h) hs
  case trgForce => exact row_ind hP h (fun _ h => Dev.trgForceEff_ind (hP.mono (by decide) (by decide)) h) hs
  case levelSourceChange => exact row_ind hP h (fun _ h => Dev.levelSourceChangeEff_ind (hP.mono (by decide) (by decide)) h) hs
  case tcmpLoad => exact row_ind hP h (fun _ h => Dev.tcmpLoadEff_ind (hP.mono (by decide) (by decide)) h) hs
  case timeCompare => exact row_ind hP h (fun _ h => Dev.timeCompareEff_ind (hP.mono (by decide) (by decide)) h) hs
  case timedTriggerMessage => exact row_ind hP h (fun _ h => Dev.timedTriggerMessageEff_ind (hP.mono (by decide) (by decide)) h) hs
  case triggerDecision => exact row_ind hP h (fun _ h => Dev.triggerDecisionEff_ind (hP.mono (by decide) (by decide)) h) hs
  case prfCommit => exact row_ind hP h (fun _ h => Dev.prfCommitEff_ind (hP.mono (by decide) (by decide)) h) hs
  case prfSwitch => exact row_ind hP h (fun _ h => Dev.prfSwitchEff_ind (hP.mono (by decide) (by decide)) h) hs
  case laneEnable => exact row_ind hP h (fun _ h => Dev.laneEnableEff_ind (hP.mono (by decide) (by decide)) h) hs
  case laneDisable => exact row_ind hP h (fun _ h => Dev.laneDisableEff_ind (hP.mono (by decide) (by decide)) h) hs
  case laneFlush => exact row_ind hP h (fun _ h => Dev.laneFlushEff_ind (hP.mono (by decide) (by decide)) h) hs
  case segmentRequest => exact row_ind hP h (fun _ h => Dev.segmentRequestEff_ind (hP.mono (by decide) (by decide)) h) hs
  case requestActive => exact row_ind hP h (fun _ h => Dev.requestActiveEff_ind (hP.mono (by decide) (by decide)) h) hs
  case hoistWindowPlaced => exact row_ind hP h (fun _ h => Dev.hoistWindowPlacedEff_ind (hP.mono (by decide) (by decide)) h) hs
  case stageStoreFrame => exact row_ind hP h (fun _ h => Dev.stageStoreFrameEff_ind (hP.mono (by decide) (by decide)) h) hs
  case segmentEnd => exact row_ind hP h (fun _ h => Dev.segmentEndEff_ind (hP.mono (by decide) (by decide)) h) hs
  case segmentRecord => exact row_ind hP h (fun _ h => Dev.segmentRecordEff_ind (hP.mono (by decide) (by decide)) h) hs
  case recordDrain => exact row_ind hP h (fun _ h => Dev.recordDrainEff_ind (hP.mono (by decide) (by decide)) h) hs
  case closeEntryFreed => exact row_ind hP h (fun _ h => Dev.closeEntryFreedEff_ind (hP.mono (by decide) (by decide)) h) hs
  case skeinDefine => exact rowLast_ind hP h (fun _ h => Dev.skeinDefineEff_ind (hP.mono (by decide) (by decide)) h) hs
  case skeinRewind => exact row_ind hP h (fun _ h => Dev.skeinRewindEff_ind (hP.mono (by decide) (by decide)) h) hs
  case decCommit => exact row_ind hP h (fun _ h => Dev.decCommitEff_ind (hP.mono (by decide) (by decide)) h) hs
  case decEnable => exact row_ind hP h (fun _ h => Dev.decEnableEff_ind (hP.mono (by decide) (by decide)) h) hs
  case decRestart => exact row_ind hP h (fun _ h => Dev.decRestartEff_ind (hP.mono (by decide) (by decide)) h) hs
  case decSyncGo => exact row_ind hP h (fun _ h => Dev.decSyncGoEff_ind (hP.mono (by decide) (by decide)) h) hs
  case timedSync => exact row_ind hP h (fun _ h => Dev.timedSyncEff_ind (hP.mono (by decide) (by decide)) h) hs
  case decItemDelivery => exact row_ind hP h (fun _ h => Dev.decItemDeliveryEff_ind (hP.mono (by decide) (by decide)) h) hs
  case fastPathItem => exact row_ind hP h (fun _ h => Dev.fastPathItemEff_ind (hP.mono (by decide) (by decide)) h) hs
  case settled => exact row_ind hP h (fun _ h => Dev.settledEff_ind (hP.mono (by decide) (by decide)) h) hs
  case tallyStart => exact row_ind hP h (fun _ h => Dev.tallyStartEff_ind (hP.mono (by decide) (by decide)) h) hs
  case tallyClearDone => exact row_ind hP h (fun _ h => Dev.tallyClearDoneEff_ind (hP.mono (by decide) (by decide)) h) hs
  case tallyStop => exact row_ind hP h (fun _ h => Dev.tallyStopEff_ind (hP.mono (by decide) (by decide)) h) hs
  case tallyPause => exact row_ind hP h (fun _ h => Dev.tallyPauseEff_ind (hP.mono (by decide) (by decide)) h) hs
  case tallyPaused => exact row_ind hP h (fun _ h => Dev.tallyPausedEff_ind (hP.mono (by decide) (by decide)) h) hs
  case tallyResume => exact row_ind hP h (fun _ h => Dev.tallyResumeEff_ind (hP.mono (by decide) (by decide)) h) hs
  case tallyTrigger => exact row_ind hP h (fun _ h => Dev.tallyTriggerEff_ind (hP.mono (by decide) (by decide)) h) hs
  case tallyRecordComplete => exact row_ind hP h (fun _ h => Dev.tallyRecordCompleteEff_ind (hP.mono (by decide) (by decide)) h) hs
  case halvingDone => exact row_ind hP h (fun _ h => Dev.halvingDoneEff_ind (hP.mono (by decide) (by decide)) h) hs
  case foldComplete => exact row_ind hP h (fun _ h => Dev.foldCompleteEff_ind (hP.mono (by decide) (by decide)) h) hs
  case maskVerdict => exact row_ind hP h (fun _ h => Dev.maskVerdictEff_ind (hP.mono (by decide) (by decide)) h) hs
  case tallyMaskStop => exact row_ind hP h (fun _ h => Dev.tallyMaskStopEff_ind (hP.mono (by decide) (by decide)) h) hs
  case tallySpaceWrite => exact row_ind hP h (fun _ h => Dev.tallySpaceWriteEff_ind (hP.mono (by decide) (by decide)) h) hs
  case eviGmodeWrite => exact row_ind hP h (fun _ h => Dev.eviGmodeWriteEff_ind (hP.mono (by decide) (by decide)) h) hs
  case groupReady => exact row_ind hP h (fun _ h => Dev.groupReadyEff_ind (hP.mono (by decide) (by decide)) h) hs
  case eventEdge => exact row_ind hP h (fun _ h => Dev.eventEdgeEff_ind (hP.mono (by decide) (by decide)) h) hs
  case logicSample => exact row_ind hP h (fun _ h => Dev.logicSampleEff_ind (hP.mono (by decide) (by decide)) h) hs
  case stampCollect => exact row_ind hP h (fun _ h => Dev.stampCollectEff_ind (hP.mono (by decide) (by decide)) h) hs
  case batchTimeout => exact row_ind hP h (fun _ h => Dev.batchTimeoutEff_ind (hP.mono (by decide) (by decide)) h) hs
  case eviIcfgWrite => exact row_ind hP h (fun _ h => Dev.eviIcfgWriteEff_ind (hP.mono (by decide) (by decide)) h) hs
  case gaugeStart => exact row_ind hP h (fun _ h => Dev.gaugeStartEff_ind (hP.mono (by decide) (by decide)) h) hs
  case gaugeAuto => exact row_ind hP h (fun _ h => Dev.gaugeAutoEff_ind (hP.mono (by decide) (by decide)) h) hs
  case gaugeResult => exact row_ind hP h (fun _ h => Dev.gaugeResultEff_ind (hP.mono (by decide) (by decide)) h) hs
  case intervalDrain => exact row_ind hP h (fun _ h => Dev.intervalDrainEff_ind (hP.mono (by decide) (by decide)) h) hs
  case iuCfgWrite => exact row_ind hP h (fun _ h => Dev.iuCfgWriteEff_ind (hP.mono (by decide) (by decide)) h) hs
  case needleGo => exact rowLast_ind hP h (fun _ h => Dev.needleGoEff_ind (hP.mono (by decide) (by decide)) h) hs
  case needleStop => exact row_ind hP h (fun _ h => Dev.needleStopEff_ind (hP.mono (by decide) (by decide)) h) hs
  case zMov => exact row_ind hP h (fun _ h => Dev.zMov_ind (hP.mono (by decide) (by decide)) h) hs
  case zLdi => exact row_ind hP h (fun _ h => Dev.zLdi_ind (hP.mono (by decide) (by decide)) h) hs
  case zAdd => exact row_ind hP h (fun _ h => Dev.zAdd_ind (hP.mono (by decide) (by decide)) h) hs
  case zSub => exact row_ind hP h (fun _ h => Dev.zSub_ind (hP.mono (by decide) (by decide)) h) hs
  case zAnd => exact row_ind hP h (fun _ h => Dev.zAnd_ind (hP.mono (by decide) (by decide)) h) hs
  case zOr => exact row_ind hP h (fun _ h => Dev.zOr_ind (hP.mono (by decide) (by decide)) h) hs
  case zXor => exact row_ind hP h (fun _ h => Dev.zXor_ind (hP.mono (by decide) (by decide)) h) hs
  case zShl => exact row_ind hP h (fun _ h => Dev.zShl_ind (hP.mono (by decide) (by decide)) h) hs
  case zShr => exact row_ind hP h (fun _ h => Dev.zShr_ind (hP.mono (by decide) (by decide)) h) hs
  case zCmp => exact row_ind hP h (fun _ h => Dev.zCmp_ind (hP.mono (by decide) (by decide)) h) hs
  case zLd => exact row_ind hP h (fun _ h => Dev.zLd_ind (hP.mono (by decide) (by decide)) h) hs
  case zSt => exact row_ind hP h (fun _ h => Dev.zSt_ind (hP.mono (by decide) (by decide)) h) hs
  case zJmp => exact row_ind hP h (fun _ h => Dev.zJmp_ind (hP.mono (by decide) (by decide)) h) hs
  case zBrc => exact row_ind hP h (fun _ h => Dev.zBrc_ind (hP.mono (by decide) (by decide)) h) hs
  case zCall => exact row_ind hP h (fun _ h => Dev.zCall_ind (hP.mono (by decide) (by decide)) h) hs
  case zRet => exact row_ind hP h (fun _ h => Dev.zRet_ind (hP.mono (by decide) (by decide)) h) hs
  case zNop => exact row_ind hP h (fun _ h => Dev.zNop_ind (hP.mono (by decide) (by decide)) h) hs
  case zLoop => exact row_ind hP h (fun _ h => Dev.zLoop_ind (hP.mono (by decide) (by decide)) h) hs
  case zEndloop => exact row_ind hP h (fun _ h => Dev.zEndloop_ind (hP.mono (by decide) (by decide)) h) hs
  case zSetf => exact row_ind hP h (fun _ h => Dev.zSetf_ind (hP.mono (by decide) (by decide)) h) hs
  case zGetf => exact row_ind hP h (fun _ h => Dev.zGetf_ind (hP.mono (by decide) (by decide)) h) hs
  case zCaston => exact row_ind hP h (fun _ h => Dev.zCaston_ind (hP.mono (by decide) (by decide)) h) hs
  case zBindoff => exact row_ind hP h (fun _ h => Dev.zBindoff_ind (hP.mono (by decide) (by decide)) h) hs
  case zArm => exact row_ind hP h (fun _ h => Dev.zArm_ind (hP.mono (by decide) (by decide)) h) hs
  case zDisarm => exact row_ind hP h (fun _ h => Dev.zDisarm_ind (hP.mono (by decide) (by decide)) h) hs
  case zSeg => exact row_ind hP h (fun _ h => Dev.zSeg_ind (hP.mono (by decide) (by decide)) h) hs
  case zSync => exact row_ind hP h (fun _ h => Dev.zSync_ind (hP.mono (by decide) (by decide)) h) hs
  case zDelay => exact row_ind hP h (fun _ h => Dev.zDelay_ind (hP.mono (by decide) (by decide)) h) hs
  case zWaitt => exact row_ind hP h (fun _ h => Dev.zWaitt_ind (hP.mono (by decide) (by decide)) h) hs
  case zWaittrig => exact row_ind hP h (fun _ h => Dev.zWaittrig_ind (hP.mono (by decide) (by decide)) h) hs
  case zWaite => exact row_ind hP h (fun _ h => Dev.zWaite_ind (hP.mono (by decide) (by decide)) h) hs
  case zWaitseg => exact row_ind hP h (fun _ h => Dev.zWaitseg_ind (hP.mono (by decide) (by decide)) h) hs
  case zFence => exact row_ind hP h (fun _ h => Dev.zFence_ind (hP.mono (by decide) (by decide)) h) hs
  case zPost => exact row_ind hP h (fun _ h => Dev.zPost_ind (hP.mono (by decide) (by decide)) h) hs
  case zSignal => exact row_ind hP h (fun _ h => Dev.zSignal_ind (hP.mono (by decide) (by decide)) h) hs
  case zMark => exact row_ind hP h (fun _ h => Dev.zMark_ind (hP.mono (by decide) (by decide)) h) hs
  case zTone => exact row_ind hP h (fun _ h => Dev.zTone_ind (hP.mono (by decide) (by decide)) h) hs
  case zPlay => exact row_ind hP h (fun _ h => Dev.zPlay_ind (hP.mono (by decide) (by decide)) h) hs
  case zYield => exact row_ind hP h (fun _ h => Dev.zYield_ind (hP.mono (by decide) (by decide)) h) hs
  case zHalt => exact row_ind hP h (fun _ h => Dev.zHalt_ind (hP.mono (by decide) (by decide)) h) hs
  case fieldWriteApply => exact effect_ind hP h (fun _ h => Dev.effectEff_ind (hP.mono (by decide) (by decide)) h) hs
  case fieldReadServe => exact effect_ind hP h (fun _ h => Dev.effectEff_ind (hP.mono (by decide) (by decide)) h) hs
  case reportApply => exact effect_ind hP h (fun _ h => Dev.effectEff_ind (hP.mono (by decide) (by decide)) h) hs
  case waitComplete => exact row_ind hP h (fun _ h => Dev.waitCompleteEff_ind (hP.mono (by decide) (by decide)) h) hs
  case replaceGo => exact row_ind hP h (fun _ h => Dev.replaceGoEff_ind (hP.mono (by decide) (by decide)) h) hs
  case replaceCancel => exact row_ind hP h (fun _ h => Dev.replaceCancelEff_ind (hP.mono (by decide) (by decide)) h) hs
  case progStoreWrite => exact row_ind hP h (fun _ h => Dev.progStoreWriteEff_ind (hP.mono (by decide) (by decide)) h) hs
  case needleWindowWrite => exact row_ind hP h (fun _ h => Dev.needleWindowWriteEff_ind (hP.mono (by decide) (by decide)) h) hs
  case markerPulseEnd => exact row_ind hP h (fun _ h => Dev.markerPulseEndEff_ind (hP.mono (by decide) (by decide)) h) hs
  case stimEnable => exact row_ind hP h (fun _ h => Dev.stimEnableEff_ind (hP.mono (by decide) (by decide)) h) hs
  case stimDisable => exact row_ind hP h (fun _ h => Dev.stimDisableEff_ind (hP.mono (by decide) (by decide)) h) hs
  case playSubmit => exact row_ind hP h (fun _ h => Dev.playSubmitEff_ind (hP.mono (by decide) (by decide)) h) hs
  case granuleBoundary => exact row_ind hP h (fun _ h => Dev.granuleBoundaryEff_ind (hP.mono (by decide) (by decide)) h) hs
  case jumpArrival => exact row_ind hP h (fun _ h => Dev.jumpArrivalEff_ind (hP.mono (by decide) (by decide)) h) hs
  case prefetchRecord => exact row_ind hP h (fun _ h => Dev.prefetchRecordEff_ind (hP.mono (by decide) (by decide)) h) hs
  case stimClear => exact row_ind hP h (fun _ h => Dev.stimClearEff_ind (hP.mono (by decide) (by decide)) h) hs
  case staticToneWrite => exact row_ind hP h (fun _ h => Dev.staticToneWriteEff_ind (hP.mono (by decide) (by decide)) h) hs
  case hoistTargetEnable => exact row_ind hP h (fun _ h => Dev.hoistTargetEnableEff_ind (hP.mono (by decide) (by decide)) h) hs
  case replayGo => exact row_ind hP h (fun _ h => Dev.replayGoEff_ind (hP.mono (by decide) (by decide)) h) hs
  case hoistPiece => exact row_ind hP h (fun _ h => Dev.hoistPieceEff_ind (hP.mono (by decide) (by decide)) h) hs
  case hoistEntry => exact row_ind hP h (fun _ h => Dev.hoistEntryEff_ind (hP.mono (by decide) (by decide)) h) hs
  case replayDone => exact row_ind hP h (fun _ h => Dev.replayDoneEff_ind (hP.mono (by decide) (by decide)) h) hs
  case hoistReleaseWrite => exact row_ind hP h (fun _ h => Dev.hoistReleaseWriteEff_ind (hP.mono (by decide) (by decide)) h) hs
  case dropRunEnd l =>
    have h : execDropRunEnd l s = .next s' := h
    unfold execDropRunEnd at h
    exact row_ind hP h (fun _ h => Dev.flowUpdate_ind (hP.mono (by decide) (by decide)) (Dev.dropRunEndEff_ind (hP.mono (by decide) (by decide)) h)) hs
  case quarryRequest => exact row_ind hP h (fun _ h => Dev.quarryRequestEff_ind (hP.mono (by decide) (by decide)) h) hs
  case hostDeferExpiry => exact row_ind hP h (fun _ h => Dev.hostDeferExpiryEff_ind (hP.mono (by decide) (by decide)) h) hs
  case refreshDue => exact row_ind hP h (fun _ h => Dev.refreshDueEff_ind (hP.mono (by decide) (by decide)) h) hs
  case patrolScrub => exact row_ind hP h (fun _ h => Dev.patrolScrubEff_ind (hP.mono (by decide) (by decide)) h) hs
  case memoryError => exact row_ind hP h (fun _ h => Dev.memoryErrorEff_ind (hP.mono (by decide) (by decide)) h) hs
  case rowCopyDone => exact row_ind hP h (fun _ h => Dev.rowCopyDoneEff_ind (hP.mono (by decide) (by decide)) h) hs
  case channelRetire => exact row_ind hP h (fun _ h => Dev.channelRetireEff_ind (hP.mono (by decide) (by decide)) h) hs
  case retireClear => exact row_ind hP h (fun _ h => Dev.retireClearEff_ind (hP.mono (by decide) (by decide)) h) hs
  case migrationBatchDone => exact row_ind hP h (fun _ h => Dev.migrationBatchDoneEff_ind (hP.mono (by decide) (by decide)) h) hs
  case freqChangeGo => exact row_ind hP h (fun _ h => Dev.freqChangeGoEff_ind (hP.mono (by decide) (by decide)) h) hs
  case freqChangeBegin => exact row_ind hP h (fun _ h => Dev.freqChangeBeginEff_ind (hP.mono (by decide) (by decide)) h) hs
  case freqDone => exact row_ind hP h (fun _ h => Dev.freqDoneEff_ind (hP.mono (by decide) (by decide)) h) hs
  case selfRefreshEntry => exact row_ind hP h (fun _ h => Dev.selfRefreshEntryEff_ind (hP.mono (by decide) (by decide)) h) hs
  case linkUp => exact row_ind hP h (fun _ h => Dev.linkUpEff_ind (hP.mono (by decide) (by decide)) h) hs
  case linkDown => exact row_ind hP h (fun _ h => Dev.linkDownEff_ind (hP.mono (by decide) (by decide)) h) hs
  case linkChange => exact row_ind hP h (fun _ h => Dev.linkChangeEff_ind (hP.mono (by decide) (by decide)) h) hs
  case queueAlloc => exact row_ind hP h (fun _ h => Dev.queueAllocEff_ind (hP.mono (by decide) (by decide)) h) hs
  case queueFree => exact row_ind hP h (fun _ h => Dev.queueFreeEff_ind (hP.mono (by decide) (by decide)) h) hs
  case queueEnable => exact rowLast_ind hP h (fun _ h => Dev.queueEnableEff_ind (hP.mono (by decide) (by decide)) h) hs
  case queueDisable => exact row_ind hP h (fun _ h => Dev.queueDisableEff_ind (hP.mono (by decide) (by decide)) h) hs
  case doorbell => exact row_ind hP h (fun _ h => Dev.doorbellEff_ind (hP.mono (by decide) (by decide)) h) hs
  case commandFetch => exact row_ind hP h (fun _ h => Dev.commandFetchEff_ind (hP.mono (by decide) (by decide)) h) hs
  case commandNop => exact effect_ind hP h (fun _ h => Dev.commandEff_ind (hP.mono (by decide) (by decide)) h) hs
  case commandWrite => exact effect_ind hP h (fun _ h => Dev.commandEff_ind (hP.mono (by decide) (by decide)) h) hs
  case commandRead => exact effect_ind hP h (fun _ h => Dev.commandEff_ind (hP.mono (by decide) (by decide)) h) hs
  case commandWriteAt => exact effect_ind hP h (fun _ h => Dev.commandEff_ind (hP.mono (by decide) (by decide)) h) hs
  case queueItemWrite => exact row_ind hP h (fun _ h => Dev.queueItemWriteEff_ind (hP.mono (by decide) (by decide)) h) hs
  case interruptTimeout => exact row_ind hP h (fun _ h => Dev.interruptTimeoutEff_ind (hP.mono (by decide) (by decide)) h) hs
  case queIntWrite => exact rowLast_ind hP h (fun _ h => Dev.queIntWriteEff_ind (hP.mono (by decide) (by decide)) h) hs
  case msixMessage v =>
    have h : execMsixMessage v s = .next s' := h
    unfold execMsixMessage at h
    exact row_ind hP h (fun _ h => Dev.trySend_ind (hP.mono (by decide) (by decide)) h) hs
  case vectorUnmask => exact row_ind hP h (fun _ h => Dev.vectorUnmaskEff_ind (hP.mono (by decide) (by decide)) h) hs
  case modFrExpiry => exact row_ind hP h (fun _ h => Dev.modFrExpiryEff_ind (hP.mono (by decide) (by decide)) h) hs
  case apertureRead => exact row_ind hP h (fun _ h => Dev.apertureReadEff_ind (hP.mono (by decide) (by decide)) h) hs
  case apertureWrite => exact row_ind hP h (fun _ h => Dev.apertureWriteEff_ind (hP.mono (by decide) (by decide)) h) hs
  case eventRaised => exact row_ind hP h (fun _ h => Dev.eventRaisedEff_ind (hP.mono (by decide) (by decide)) h) hs
  case eventLogWrite => exact row_ind hP h (fun _ h => Dev.eventLogWriteEff_ind (hP.mono (by decide) (by decide)) h) hs
  case xferGo => exact row_ind hP h (fun _ h => Dev.xferGoEff_ind (hP.mono (by decide) (by decide)) h) hs
  case xferKick => exact row_ind hP h (fun _ h => Dev.xferKickEff_ind (hP.mono (by decide) (by decide)) h) hs
  case xferAbort => exact row_ind hP h (fun _ h => Dev.xferAbortEff_ind (hP.mono (by decide) (by decide)) h) hs
  case descriptorFetch => exact row_ind hP h (fun _ h => Dev.descriptorFetchEff_ind (hP.mono (by decide) (by decide)) h) hs
  case xferPiece => exact row_ind hP h (fun _ h => Dev.xferPieceEff_ind (hP.mono (by decide) (by decide)) h) hs
  case xferReadback => exact row_ind hP h (fun _ h => Dev.xferReadbackEff_ind (hP.mono (by decide) (by decide)) h) hs
  case portEnable => exact row_ind hP h (fun _ h => Dev.portEnableEff_ind (hP.mono (by decide) (by decide)) h) hs
  case portDisable => exact row_ind hP h (fun _ h => Dev.portDisableEff_ind (hP.mono (by decide) (by decide)) h) hs
  case ethFrameRx => exact row_ind hP h (fun _ h => Dev.ethFrameRxEff_ind (hP.mono (by decide) (by decide)) h) hs
  case arpNdEcho => exact row_ind hP h (fun _ h => Dev.arpNdEchoEff_ind (hP.mono (by decide) (by decide)) h) hs
  case credit => exact row_ind hP h (fun _ h => Dev.creditEff_ind (hP.mono (by decide) (by decide)) h) hs
  case nack => exact row_ind hP h (fun _ h => Dev.nackEff_ind (hP.mono (by decide) (by decide)) h) hs
  case fireAt => exact row_ind hP h (fun _ h => Dev.fireAtEff_ind (hP.mono (by decide) (by decide)) h) hs
  case packetLaunch => exact row_ind hP h (fun _ h => Dev.packetLaunchEff_ind (hP.mono (by decide) (by decide)) h) hs
  case retransmit => exact row_ind hP h (fun _ h => Dev.retransmitEff_ind (hP.mono (by decide) (by decide)) h) hs
  case creditTimeout => exact row_ind hP h (fun _ h => Dev.creditTimeoutEff_ind (hP.mono (by decide) (by decide)) h) hs
  case faKeyWrite => exact row_ind hP h (fun _ h => Dev.faKeyWriteEff_ind (hP.mono (by decide) (by decide)) h) hs
  case subportLinkUp => exact row_ind hP h (fun _ h => Dev.subportLinkUpEff_ind (hP.mono (by decide) (by decide)) h) hs
  case subportLinkDown => exact row_ind hP h (fun _ h => Dev.subportLinkDownEff_ind (hP.mono (by decide) (by decide)) h) hs
  case ownershipWrite => exact row_ind hP h (fun _ h => Dev.ownershipWriteEff_ind (hP.mono (by decide) (by decide)) h) hs
  case pinEdge => exact row_ind hP h (fun _ h => Dev.pinEdgeEff_ind (hP.mono (by decide) (by decide)) h) hs
  case filteredChange => exact row_ind hP h (fun _ h => Dev.filteredChangeEff_ind (hP.mono (by decide) (by decide)) h) hs
  case outputLaunch => exact row_ind hP h (fun _ h => Dev.outputLaunchEff_ind (hP.mono (by decide) (by decide)) h) hs
  case contention => exact row_ind hP h (fun _ h => Dev.contentionEff_ind (hP.mono (by decide) (by decide)) h) hs
  case faultClear => exact row_ind hP h (fun _ h => Dev.faultClearEff_ind (hP.mono (by decide) (by decide)) h) hs
  case msgModeEnable => exact row_ind hP h (fun _ h => Dev.msgModeEnableEff_ind (hP.mono (by decide) (by decide)) h) hs
  case msgTxGo => exact row_ind hP h (fun _ h => Dev.msgTxGoEff_ind (hP.mono (by decide) (by decide)) h) hs
  case wordSendStart => exact row_ind hP h (fun _ h => Dev.wordSendStartEff_ind (hP.mono (by decide) (by decide)) h) hs
  case backoffExpiry => exact row_ind hP h (fun _ h => Dev.backoffExpiryEff_ind (hP.mono (by decide) (by decide)) h) hs
  case msgTx => exact row_ind hP h (fun _ h => Dev.msgTxEff_ind (hP.mono (by decide) (by decide)) h) hs
  case msgFrameRx => exact row_ind hP h (fun _ h => Dev.msgFrameRxEff_ind (hP.mono (by decide) (by decide)) h) hs
  case pingGo => exact row_ind hP h (fun _ h => Dev.pingGoEff_ind (hP.mono (by decide) (by decide)) h) hs
  case pingPulse => exact row_ind hP h (fun _ h => Dev.pingPulseEff_ind (hP.mono (by decide) (by decide)) h) hs
  case pingReply => exact row_ind hP h (fun _ h => Dev.pingReplyEff_ind (hP.mono (by decide) (by decide)) h) hs
  case pingDone => exact row_ind hP h (fun _ h => Dev.pingDoneEff_ind (hP.mono (by decide) (by decide)) h) hs
  case pingTimeout => exact row_ind hP h (fun _ h => Dev.pingTimeoutEff_ind (hP.mono (by decide) (by decide)) h) hs
  case canvasEnable => exact row_ind hP h (fun _ h => Dev.canvasEnableEff_ind (hP.mono (by decide) (by decide)) h) hs
  case rasGo => exact row_ind hP h (fun _ h => Dev.rasGoEff_ind (hP.mono (by decide) (by decide)) h) hs
  case passStart => exact row_ind hP h (fun _ h => Dev.passStartEff_ind (hP.mono (by decide) (by decide)) h) hs
  case passEnd => exact row_ind hP h (fun _ h => Dev.passEndEff_ind (hP.mono (by decide) (by decide)) h) hs
  case dpyCommitA => exact row_ind hP h (fun _ h => Dev.dpyCommitAEff_ind (hP.mono (by decide) (by decide)) h) hs
  case dpyCommitB => exact row_ind hP h (fun _ h => Dev.dpyCommitBEff_ind (hP.mono (by decide) (by decide)) h) hs
  case vblank => exact row_ind hP h (fun _ h => Dev.vblankEff_ind (hP.mono (by decide) (by decide)) h) hs
  case vrrPorchEnd => exact row_ind hP h (fun _ h => Dev.vrrPorchEndEff_ind (hP.mono (by decide) (by decide)) h) hs
  case frontBufferSample => exact row_ind hP h (fun _ h => Dev.frontBufferSampleEff_ind (hP.mono (by decide) (by decide)) h) hs
  case teEdge => exact row_ind hP h (fun _ h => Dev.teEdgeEff_ind (hP.mono (by decide) (by decide)) h) hs
  case teMiss => exact row_ind hP h (fun _ h => Dev.teMissEff_ind (hP.mono (by decide) (by decide)) h) hs
  case repair => exact row_ind hP h (fun _ h => Dev.repairEff_ind (hP.mono (by decide) (by decide)) h) hs
  case fetchUnderrun => exact row_ind hP h (fun _ h => Dev.fetchUnderrunEff_ind (hP.mono (by decide) (by decide)) h) hs
  case daHotPlug => exact row_ind hP h (fun _ h => Dev.daHotPlugEff_ind (hP.mono (by decide) (by decide)) h) hs
  case standby => exact row_ind hP h (fun _ h => Dev.standbyEff_ind (hP.mono (by decide) (by decide)) h) hs
  case wake =>
    have h : execWake s = .next s' := h
    unfold execWake at h
    exact row_ind hP h (fun _ h => Dev.wakeFrom_ind (hP.mono (by decide) (by decide)) h) hs
  case wakeSource => exact row_ind hP h (fun _ h => Dev.wakeSourceEff_ind (hP.mono (by decide) (by decide)) h) hs
  case mainPgRise => exact row_ind hP h (fun _ h => Dev.mainPgRiseEff_ind (hP.mono (by decide) (by decide)) h) hs
  case wakeComplete => exact row_ind hP h (fun _ h => Dev.wakeCompleteEff_ind (hP.mono (by decide) (by decide)) h) hs
  case pdOff => exact row_ind hP h (fun _ h => Dev.pdOffEff_ind (hP.mono (by decide) (by decide)) h) hs
  case pdLingerExpiry => exact row_ind hP h (fun _ h => Dev.pdLingerExpiryEff_ind (hP.mono (by decide) (by decide)) h) hs
  case softReset => exact row_ind hP h (fun _ h => Dev.hkReset_ind (hP.mono (by decide) (by decide)) h) hs
  case warmReset => exact row_ind hP h (fun _ h => Dev.hkReset_ind (hP.mono (by decide) (by decide)) h) hs
  case perst => exact row_ind hP h (fun _ h => Dev.resetRequest_ind (hP.mono (by decide) (by decide)) h) hs
  case hotReset => exact row_ind hP h (fun _ h => Dev.resetRequest_ind (hP.mono (by decide) (by decide)) h) hs
  case functionLevelReset => exact row_ind hP h (fun _ h => Dev.resetRequest_ind (hP.mono (by decide) (by decide)) h) hs
  case drainEnd => exact row_ind hP h (fun _ h => Dev.drainEndEff_ind (hP.mono (by decide) (by decide)) h) hs
  case supplyFault => exact row_ind hP h (fun _ h => Dev.supplyFaultEff_ind (hP.mono (by decide) (by decide)) h) hs
  case aonPowerOn => exact row_ind hP h (fun _ h => Dev.aonPowerOnEff_ind (hP.mono (by decide) (by decide)) h) hs
  case boot => exact row_ind hP h (fun _ h => Dev.bootEff_ind (hP.mono (by decide) (by decide)) h) hs
  case tempWarn => exact row_ind hP h (fun _ h => Dev.tempWarnEff_ind (hP.mono (by decide) (by decide)) h) hs
  case tempCrit => exact row_ind hP h (fun _ h => Dev.tempCritEff_ind (hP.mono (by decide) (by decide)) h) hs
  case tempOk => exact row_ind hP h (fun _ h => Dev.tempOkEff_ind (hP.mono (by decide) (by decide)) h) hs
  case thermalTrip => exact row_ind hP h (fun _ h => Dev.thermalTripEff_ind (hP.mono (by decide) (by decide)) h) hs
  case fwStage => exact row_ind hP h (fun _ h => Dev.fwStageEff_ind (hP.mono (by decide) (by decide)) h) hs
  case fwSwitch => exact row_ind hP h (fun _ h => Dev.fwSwitchEff_ind (hP.mono (by decide) (by decide)) h) hs
  case fwSwitchStart => exact row_ind hP h (fun _ h => Dev.fwSwitchStartEff_ind (hP.mono (by decide) (by decide)) h) hs
  case fwConfirm => exact row_ind hP h (fun _ h => Dev.fwConfirmEff_ind (hP.mono (by decide) (by decide)) h) hs
  case fwWatchdog => exact row_ind hP h (fun _ h => Dev.fwWatchdogEff_ind (hP.mono (by decide) (by decide)) h) hs
  case provision => exact row_ind hP h (fun _ h => Dev.signedCommand_ind (hP.mono (by decide) (by decide)) h) hs
  case field_ => exact row_ind hP h (fun _ h => Dev.signedCommand_ind (hP.mono (by decide) (by decide)) h) hs
  case ownerAdd => exact row_ind hP h (fun _ h => Dev.signedCommand_ind (hP.mono (by decide) (by decide)) h) hs
  case ownerRevoke => exact row_ind hP h (fun _ h => Dev.signedCommand_ind (hP.mono (by decide) (by decide)) h) hs
  case debug => exact row_ind hP h (fun _ h => Dev.debugEff_ind (hP.mono (by decide) (by decide)) h) hs
  case return_ => exact row_ind hP h (fun _ h => Dev.signedCommand_ind (hP.mono (by decide) (by decide)) h) hs
  case getVersion => exact row_ind hP h (fun _ h => Dev.getVersionEff_ind (hP.mono (by decide) (by decide)) h) hs
  case getCapabilities => exact row_ind hP h (fun _ h => Dev.getCapabilitiesEff_ind (hP.mono (by decide) (by decide)) h) hs
  case negotiateAlgorithms => exact row_ind hP h (fun _ h => Dev.negotiateAlgorithmsEff_ind (hP.mono (by decide) (by decide)) h) hs
  case getDigests => exact row_ind hP h (fun _ h => Dev.getDigestsEff_ind (hP.mono (by decide) (by decide)) h) hs
  case getCertificate => exact row_ind hP h (fun _ h => Dev.getCertificateEff_ind (hP.mono (by decide) (by decide)) h) hs
  case challenge => exact row_ind hP h (fun _ h => Dev.challengeEff_ind (hP.mono (by decide) (by decide)) h) hs
  case getMeasurements => exact row_ind hP h (fun _ h => Dev.getMeasurementsEff_ind (hP.mono (by decide) (by decide)) h) hs
  case keyExchange => exact row_ind hP h (fun _ h => Dev.keyExchangeEff_ind (hP.mono (by decide) (by decide)) h) hs
  case finish => exact row_ind hP h (fun _ h => Dev.finishEff_ind (hP.mono (by decide) (by decide)) h) hs
  case keyUpdate => exact row_ind hP h (fun _ h => Dev.keyUpdateEff_ind (hP.mono (by decide) (by decide)) h) hs
  case heartbeat => exact row_ind hP h (fun _ h => Dev.heartbeatEff_ind (hP.mono (by decide) (by decide)) h) hs
  case endSession => exact row_ind hP h (fun _ h => Dev.endSessionEff_ind (hP.mono (by decide) (by decide)) h) hs
  case vendorDefinedRequest => exact row_ind hP h (fun _ h => Dev.vendorDefinedRequestEff_ind (hP.mono (by decide) (by decide)) h) hs
  case ideError => exact row_ind hP h (fun _ h => Dev.ideErrorEff_ind (hP.mono (by decide) (by decide)) h) hs
  case testSessionStart => exact rowLast_ind hP h (fun _ h => Dev.testStartEff_ind (hP.mono (by decide) (by decide)) h) hs
  case testSessionEnd => exact row_ind hP h (fun _ h => Dev.testStopEff_ind (hP.mono (by decide) (by decide)) h) hs
  case pcieLoopback => exact row_ind hP h (fun _ h => Dev.pcieLoopbackEff_ind (hP.mono (by decide) (by decide)) h) hs
  case blockReady => exact row_ind hP h (fun _ h => Dev.blockReadyEff_ind (hP.mono (by decide) (by decide)) h) hs
  case aonPowerLoss => exact row_ind hP h (fun _ h => Dev.aonLost_ind (hP.mono (by decide) (by decide)) h) hs
  case checkerLock => exact row_ind hP h (fun _ h => Dev.checkerLockEff_ind (hP.mono (by decide) (by decide)) h) hs
  case checkerLockLoss => exact row_ind hP h (fun _ h => Dev.checkerLockLossEff_ind (hP.mono (by decide) (by decide)) h) hs
  case gaugeTableSave => exact row_ind hP h (fun _ h => Dev.gaugeTableSaveEff_ind (hP.mono (by decide) (by decide)) h) hs
  case daLinkTrained => exact row_ind hP h (fun _ h => Dev.daLinkTrainedEff_ind (hP.mono (by decide) (by decide)) h) hs

end Sys2Proof.Machine
end

