-- ==== Sys2Proof/Laws/Canonical.lean ====
section
/-!
SUPPORT. Every operation keeps the canonical form of the registers and of the memories.
-/
namespace Sys2Proof.Machine

theorem Reg.reset_masked (r : Reg) : r.reset &&& r.mask = r.reset := by
  rw [Reg.reset, BitVec.and_comm r.mask]
  exact and_and_self_right _ _

theorem Dev.regsWf_wr {d : Dev} (h : d.regsWf = true) (r : Reg) (v : W64) : (d.wr r v).regsWf = true := by
  refine Sparse.wf_put Reg.lt_trans Reg.lt_total (fun hv => ?_) h
  simp [regEntryOk, hv, and_and_self_right]

/-- What a reset keeps is again in canonical form. -/
theorem keptRegs_wf (keep : Rg → W64) {l : Regs} (h : Sparse.wf Reg.lt regEntryOk l = true) :
    Sparse.wf Reg.lt regEntryOk (Dev.keptRegs (({} : Dev).setRegs l) keep) = true := by
  have ha : ∀ (k : Reg) (l : Regs), Sparse.above Reg.lt k l = true →
      Sparse.above Reg.lt k (Dev.keptRegs (({} : Dev).setRegs l) keep) = true := by
    intro k l hl
    simp only [Sparse.above, Dev.keptRegs, Dev.setRegs_regs, List.all_eq_true, List.mem_filterMap] at hl ⊢
    rintro e ⟨x, hx, he⟩
    split at he
    · cases he
    · cases he
      exact hl x hx
  induction l with
  | nil => rfl
  | cons e t ih =>
    obtain ⟨r, v⟩ := e
    simp only [Sparse.wf, Bool.and_eq_true] at h
    have ht := ih h.2
    have hat := ha r t h.1.2
    simp only [Dev.keptRegs, Dev.setRegs_regs, List.filterMap_cons] at ht hat ⊢
    split
    · exact ht
    · rename_i heq
      split at heq
      · cases heq
      · rename_i hne
        cases heq
        have hv : v &&& r.mask = v := by
          have := h.1.1
          simp only [regEntryOk, Bool.and_eq_true, beq_iff_eq] at this
          exact this.2
        simp only [Sparse.wf, Bool.and_eq_true]
        refine ⟨⟨?_, hat⟩, ht⟩
        simp only [regEntryOk, Bool.and_eq_true, bne_iff_ne, beq_iff_eq]
        refine ⟨hne, ?_⟩
        have hr := r.reset_masked
        generalize r.mask = m at hv hr ⊢
        rw [← hv, ← hr]
        ext b
        simp only [BitVec.getElem_and, BitVec.getElem_or, BitVec.getElem_not]
        cases m[b] <;> simp

theorem Dev.regsWf_keptRegs {d : Dev} (h : d.regsWf = true) (keep : Rg → W64) :
    (d.setRegs (d.keptRegs keep)).regsWf = true := keptRegs_wf keep h

/-- The canonical form of the registers is kept by everything. -/
theorem closed_regsWf (c g : Nat) : Closed (fun d => d.regsWf = true) c g := by
  constructor
  case wr => exact fun _ _ _ _ h => Dev.regsWf_wr h _ _
  case kept => exact fun _ _ _ h => Dev.regsWf_keptRegs h _
  all_goals intros; assumption

/-- The canonical form of the memories is kept by everything. -/
theorem closed_memoriesWf (c g : Nat) : Closed (fun d => d.memoriesWf = true) c g := by
  constructor
  case tal => exact fun _ _ _ hm h => by have := hm.2; simp_all [Dev.memoriesWf]
  case ndl => exact fun _ _ _ hm h => by have := hm.2; simp_all [Dev.memoriesWf]
  case ben => exact fun _ _ _ hm h => by have := hm.1.2; have := hm.2.2; simp_all [Dev.memoriesWf]
  case que => exact fun _ _ _ hm h => by have := hm.2; simp_all [Dev.memoriesWf]
  case ras => exact fun _ _ _ hm h => by have := hm.2; simp_all [Dev.memoriesWf]
  all_goals intros; assumption

end Sys2Proof.Machine
end

