-- ==== Sys2Proof/Laws/Frames.lean ====
section
/-!
SUPPORT. Frames: what an operation that changes only some parts and register families leaves as it was.
-/
namespace Sys2Proof.Machine

/-- The number of a part in a mask of parts. -/
def Part.bit : Part → Nat
  | .clock => 0 | .draws => 1 | .bus => 3 | .paths => 4 | .logic => 5 | .sampling => 6 | .slices => 7 | .timeBase => 8
  | .trigger => 9 | .lanes => 10 | .decimation => 11 | .tally => 12 | .eventInputs => 13 | .needles => 14 | .stimulus => 15
  | .bench => 16 | .link => 17 | .queues => 18 | .events => 19 | .transfer => 20 | .ports => 21 | .fireKeys => 22
  | .trigBus => 23 | .raster => 24 | .power => 25 | .security => 26 | .benchMemory => 27 | .tallyMemory => 28
  | .programMemory => 29 | .rasterMemory => 30 | .hostMemory => 31

def maskOf (l : List Nat) : Nat := l.foldr (fun n m => 2 ^ n ||| m) 0

theorem testBit_maskOf (l : List Nat) (n : Nat) : (maskOf l).testBit n = decide (n ∈ l) := by
  induction l with
  | nil => simp [maskOf]
  | cons a t ih =>
    have : maskOf (a :: t) = 2 ^ a ||| maskOf t := rfl
    rw [this, Nat.testBit_or, ih, Nat.testBit_two_pow]
    by_cases h : n = a
    · simp [h]
    · simp [h, Ne.symm h]

/-- The mask of the parts `ps`; where the bus may change, the writes that a frame holds may. -/
def partMask (ps : List Part) : Nat := maskOf (32 :: ps.map Part.bit)
def famMask (l : List Rg) : Nat := maskOf (l.map Rg.ctorIdx)

theorem Part.bit_inj {p q : Part} (h : p.bit = q.bit) : p = q := by
  cases p <;> cases q <;> first | rfl | (exfalso; revert h; decide)

theorem mem_of_partMask {ps : List Part} {p : Part} (h : (partMask ps).testBit p.bit = true) : p ∈ ps := by
  rw [partMask, testBit_maskOf, decide_eq_true_eq, List.mem_cons, List.mem_map] at h
  obtain h | ⟨q, hq, e⟩ := h
  · exfalso
    revert h
    cases p <;> decide
  · exact Part.bit_inj e ▸ hq

theorem mem_of_famMask {l : List Rg} {f : Rg} (h : (famMask l).testBit f.ctorIdx = true) : f ∈ l := by
  rw [famMask, testBit_maskOf, decide_eq_true_eq, List.mem_map] at h
  obtain ⟨q, hq, e⟩ := h
  exact Rg.ctorIdx_inj e ▸ hq

theorem no_kept (ps : List Part) : (partMask ps).testBit 2 = false := by
  rw [partMask, testBit_maskOf, decide_eq_false_iff_not, List.mem_cons, List.mem_map]
  rintro (h | ⟨q, -, h⟩)
  · cases h
  · revert h
    cases q <;> decide

theorem Dev.frame_refl (ps : List Part) (l : List Rg) (d : Dev) : Dev.frame ps l d d := by
  refine ⟨fun p _ => ?_, fun _ _ => rfl⟩
  cases p <;> first | rfl | exact ⟨rfl, rfl⟩

theorem closed_frame (ps : List Part) (l : List Rg) (d : Dev) : Closed (Dev.frame ps l d) (partMask ps) (famMask l) := by
  constructor
  case wr =>
    intro e r v hr h
    refine ⟨fun p hp => ?_, fun r' hr' => ?_⟩
    · have := h.1 p hp
      cases p <;> simpa [Part.same, Dev.wr] using this
    · have : r'.g ≠ r.g := fun e => hr' (e ▸ mem_of_famMask hr)
      rw [Dev.rd_wr_ne _ (fun e => this (by rw [e]))]
      exact h.2 r' hr'
  case kept => intro hc; rw [no_kept] at hc; cases hc
  case tal =>
    intro hc e x hk h
    refine ⟨fun p hp => ?_, fun r hr => by simpa using h.2 r hr⟩
    have := h.1 p hp
    have hm : p = .tallyMemory → x.mem = e.tal.mem := fun e' => hk.1 (by
      rw [Bool.eq_false_iff]; exact fun c => hp (e' ▸ mem_of_partMask (p := .tallyMemory) c))
    have hn : p ≠ .tally := fun e' => hp (e' ▸ mem_of_partMask (p := .tally) hc)
    cases p <;> first
      | exact absurd rfl hn
      | exact (hm rfl).trans this
      | exact this
  case ndl =>
    intro hc e x hk h
    refine ⟨fun p hp => ?_, fun r hr => by simpa using h.2 r hr⟩
    have := h.1 p hp
    have hm : p = .programMemory → x.prog = e.ndl.prog := fun e' => hk.1 (by
      rw [Bool.eq_false_iff]; exact fun c => hp (e' ▸ mem_of_partMask (p := .programMemory) c))
    have hn : p ≠ .needles := fun e' => hp (e' ▸ mem_of_partMask (p := .needles) hc)
    cases p <;> first
      | exact absurd rfl hn
      | exact (hm rfl).trans this
      | exact this
  case ras =>
    intro hc e x hk h
    refine ⟨fun p hp => ?_, fun r hr => by simpa using h.2 r hr⟩
    have := h.1 p hp
    have hm : p = .rasterMemory → x.mem = e.ras.mem := fun e' => hk.1 (by
      rw [Bool.eq_false_iff]; exact fun c => hp (e' ▸ mem_of_partMask (p := .rasterMemory) c))
    have hn : p ≠ .raster := fun e' => hp (e' ▸ mem_of_partMask (p := .raster) hc)
    cases p <;> first
      | exact absurd rfl hn
      | exact (hm rfl).trans this
      | exact this
  case que =>
    intro hc e x hk h
    refine ⟨fun p hp => ?_, fun r hr => by simpa using h.2 r hr⟩
    have := h.1 p hp
    have hm : p = .hostMemory → x.hostMem = e.que.hostMem := fun e' => hk.1 (by
      rw [Bool.eq_false_iff]; exact fun c => hp (e' ▸ mem_of_partMask (p := .hostMemory) c))
    have hn : p ≠ .queues := fun e' => hp (e' ▸ mem_of_partMask (p := .queues) hc)
    cases p <;> first
      | exact absurd rfl hn
      | exact (hm rfl).trans this
      | exact this
  case ben =>
    intro hc e x hk h
    refine ⟨fun p hp => ?_, fun r hr => by simpa using h.2 r hr⟩
    have := h.1 p hp
    have hm : p = .benchMemory → x.bench = e.ben.bench ∧ x.quarry = e.ben.quarry := fun e' =>
      have hf : (partMask ps).testBit 27 = false := by
        rw [Bool.eq_false_iff]; exact fun c => hp (e' ▸ mem_of_partMask (p := .benchMemory) c)
      ⟨hk.1.1 hf, hk.2.1 hf⟩
    have hn : p ≠ .bench := fun e' => hp (e' ▸ mem_of_partMask (p := .bench) hc)
    cases p <;> first
      | exact absurd rfl hn
      | exact ⟨(hm rfl).1.trans this.1, (hm rfl).2.trans this.2⟩
      | exact this
  case now =>
    intro hc e x _ h
    refine ⟨fun p hp => ?_, fun r hr => by simpa using h.2 r hr⟩
    have := h.1 p hp
    have hn : p ≠ .clock := fun e' => hp (e' ▸ mem_of_partMask (p := .clock) hc)
    cases p <;> first
      | exact absurd rfl hn
      | exact this
  case freeSeq =>
    intro hc e x h
    refine ⟨fun p hp => ?_, fun r hr => by simpa using h.2 r hr⟩
    have := h.1 p hp
    have hn : p ≠ .draws := fun e' => hp (e' ▸ mem_of_partMask (p := .draws) hc)
    cases p <;> first
      | exact absurd rfl hn
      | exact this
  case bus =>
    intro hc e x _ h
    refine ⟨fun p hp => ?_, fun r hr => by simpa using h.2 r hr⟩
    have := h.1 p hp
    have hn : p ≠ .bus := fun e' => hp (e' ▸ mem_of_partMask (p := .bus) hc)
    cases p <;> first
      | exact absurd rfl hn
      | exact this
  case path =>
    intro hc e x h
    refine ⟨fun p hp => ?_, fun r hr => by simpa using h.2 r hr⟩
    have := h.1 p hp
    have hn : p ≠ .paths := fun e' => hp (e' ▸ mem_of_partMask (p := .paths) hc)
    cases p <;> first
      | exact absurd rfl hn
      | exact this
  case logic =>
    intro hc e x h
    refine ⟨fun p hp => ?_, fun r hr => by simpa using h.2 r hr⟩
    have := h.1 p hp
    have hn : p ≠ .logic := fun e' => hp (e' ▸ mem_of_partMask (p := .logic) hc)
    cases p <;> first
      | exact absurd rfl hn
      | exact this
  case stageNext =>
    intro hc e x h
    refine ⟨fun p hp => ?_, fun r hr => by simpa using h.2 r hr⟩
    have := h.1 p hp
    have hn : p ≠ .sampling := fun e' => hp (e' ▸ mem_of_partMask (p := .sampling) hc)
    cases p <;> first
      | exact absurd rfl hn
      | exact this
  case slice =>
    intro hc e x h
    refine ⟨fun p hp => ?_, fun r hr => by simpa using h.2 r hr⟩
    have := h.1 p hp
    have hn : p ≠ .slices := fun e' => hp (e' ▸ mem_of_partMask (p := .slices) hc)
    cases p <;> first
      | exact absurd rfl hn
      | exact this
  case tb =>
    intro hc e x h
    refine ⟨fun p hp => ?_, fun r hr => by simpa using h.2 r hr⟩
    have := h.1 p hp
    have hn : p ≠ .timeBase := fun e' => hp (e' ▸ mem_of_partMask (p := .timeBase) hc)
    cases p <;> first
      | exact absurd rfl hn
      | exact this
  case trg =>
    intro hc e x h
    refine ⟨fun p hp => ?_, fun r hr => by simpa using h.2 r hr⟩
    have := h.1 p hp
    have hn : p ≠ .trigger := fun e' => hp (e' ▸ mem_of_partMask (p := .trigger) hc)
    cases p <;> first
      | exact absurd rfl hn
      | exact this
  case lanes =>
    intro hc e x h
    refine ⟨fun p hp => ?_, fun r hr => by simpa using h.2 r hr⟩
    have := h.1 p hp
    have hn : p ≠ .lanes := fun e' => hp (e' ▸ mem_of_partMask (p := .lanes) hc)
    cases p <;> first
      | exact absurd rfl hn
      | exact this
  case dec =>
    intro hc e x h
    refine ⟨fun p hp => ?_, fun r hr => by simpa using h.2 r hr⟩
    have := h.1 p hp
    have hn : p ≠ .decimation := fun e' => hp (e' ▸ mem_of_partMask (p := .decimation) hc)
    cases p <;> first
      | exact absurd rfl hn
      | exact this
  case evi =>
    intro hc e x h
    refine ⟨fun p hp => ?_, fun r hr => by simpa using h.2 r hr⟩
    have := h.1 p hp
    have hn : p ≠ .eventInputs := fun e' => hp (e' ▸ mem_of_partMask (p := .eventInputs) hc)
    cases p <;> first
      | exact absurd rfl hn
      | exact this
  case stm =>
    intro hc e x h
    refine ⟨fun p hp => ?_, fun r hr => by simpa using h.2 r hr⟩
    have := h.1 p hp
    have hn : p ≠ .stimulus := fun e' => hp (e' ▸ mem_of_partMask (p := .stimulus) hc)
    cases p <;> first
      | exact absurd rfl hn
      | exact this
  case link =>
    intro hc e x h
    refine ⟨fun p hp => ?_, fun r hr => by simpa using h.2 r hr⟩
    have := h.1 p hp
    have hn : p ≠ .link := fun e' => hp (e' ▸ mem_of_partMask (p := .link) hc)
    cases p <;> first
      | exact absurd rfl hn
      | exact this
  case evr =>
    intro hc e x h
    refine ⟨fun p hp => ?_, fun r hr => by simpa using h.2 r hr⟩
    have := h.1 p hp
    have hn : p ≠ .events := fun e' => hp (e' ▸ mem_of_partMask (p := .events) hc)
    cases p <;> first
      | exact absurd rfl hn
      | exact this
  case xfe =>
    intro hc e x h
    refine ⟨fun p hp => ?_, fun r hr => by simpa using h.2 r hr⟩
    have := h.1 p hp
    have hn : p ≠ .transfer := fun e' => hp (e' ▸ mem_of_partMask (p := .transfer) hc)
    cases p <;> first
      | exact absurd rfl hn
      | exact this
  case eth =>
    intro hc e x h
    refine ⟨fun p hp => ?_, fun r hr => by simpa using h.2 r hr⟩
    have := h.1 p hp
    have hn : p ≠ .ports := fun e' => hp (e' ▸ mem_of_partMask (p := .ports) hc)
    cases p <;> first
      | exact absurd rfl hn
      | exact this
  case faKey =>
    intro hc e x h
    refine ⟨fun p hp => ?_, fun r hr => by simpa using h.2 r hr⟩
    have := h.1 p hp
    have hn : p ≠ .fireKeys := fun e' => hp (e' ▸ mem_of_partMask (p := .fireKeys) hc)
    cases p <;> first
      | exact absurd rfl hn
      | exact this
  case syn =>
    intro hc e x h
    refine ⟨fun p hp => ?_, fun r hr => by simpa using h.2 r hr⟩
    have := h.1 p hp
    have hn : p ≠ .trigBus := fun e' => hp (e' ▸ mem_of_partMask (p := .trigBus) hc)
    cases p <;> first
      | exact absurd rfl hn
      | exact this
  case pwr =>
    intro hc e x h
    refine ⟨fun p hp => ?_, fun r hr => by simpa using h.2 r hr⟩
    have := h.1 p hp
    have hn : p ≠ .power := fun e' => hp (e' ▸ mem_of_partMask (p := .power) hc)
    cases p <;> first
      | exact absurd rfl hn
      | exact this
  case sec =>
    intro hc e x h
    refine ⟨fun p hp => ?_, fun r hr => by simpa using h.2 r hr⟩
    have := h.1 p hp
    have hn : p ≠ .security := fun e' => hp (e' ▸ mem_of_partMask (p := .security) hc)
    cases p <;> first
      | exact absurd rfl hn
      | exact this

/-- The frame of an operation, from what the operation can change. -/
theorem Dev.frame_of_ind {d d' : Dev} {c g : Nat} {ps : List Part} {l : List Rg}
    (h : ∀ {P : Dev → Prop}, Closed P c g → P d → P d') (hc : c ||| partMask ps = partMask ps)
    (hg : g ||| famMask l = famMask l) : Dev.frame ps l d d' :=
  h ((closed_frame ps l d).mono hc hg) (Dev.frame_refl _ _ _)

theorem Dev.frame_get {ps : List Part} {l : List Rg} {d d' : Dev} (h : Dev.frame ps l d d') (f : Fld) (i j k : Nat)
    (hf : l.contains f.g = false) : d'.get f i j k = d.get f i j k := Dev.keepsRegs_get h.2 f i j k (by simpa using hf)

theorem Dev.frame_rd {ps : List Part} {l : List Rg} {d d' : Dev} (h : Dev.frame ps l d d') (f : Rg) (i j k : Nat)
    (hf : l.contains f = false) : d'.rd ⟨f, i, j, k⟩ = d.rd ⟨f, i, j, k⟩ := h.2 _ (by simpa using hf)

theorem Dev.frame_tal {ps : List Part} {l : List Rg} {d d' : Dev} (h : Dev.frame ps l d d') (ht : Part.tally ∉ ps)
    (hm : Part.tallyMemory ∉ ps) : d'.tal = d.tal := by
  have h1 : d'.tal = { d.tal with mem := d'.tal.mem } := h.1 .tally ht
  have h2 : d'.tal.mem = d.tal.mem := h.1 .tallyMemory hm
  rw [h1, h2]

theorem Dev.frame_ndl {ps : List Part} {l : List Rg} {d d' : Dev} (h : Dev.frame ps l d d') (ht : Part.needles ∉ ps)
    (hm : Part.programMemory ∉ ps) : d'.ndl = d.ndl := by
  have h1 : d'.ndl = { d.ndl with prog := d'.ndl.prog } := h.1 .needles ht
  have h2 : d'.ndl.prog = d.ndl.prog := h.1 .programMemory hm
  rw [h1, h2]

theorem Dev.frame_que {ps : List Part} {l : List Rg} {d d' : Dev} (h : Dev.frame ps l d d') (ht : Part.queues ∉ ps)
    (hm : Part.hostMemory ∉ ps) : d'.que = d.que := by
  have h1 : d'.que = { d.que with hostMem := d'.que.hostMem } := h.1 .queues ht
  have h2 : d'.que.hostMem = d.que.hostMem := h.1 .hostMemory hm
  rw [h1, h2]

theorem Dev.frame_ras {ps : List Part} {l : List Rg} {d d' : Dev} (h : Dev.frame ps l d d') (ht : Part.raster ∉ ps)
    (hm : Part.rasterMemory ∉ ps) : d'.ras = d.ras := by
  have h1 : d'.ras = { d.ras with mem := d'.ras.mem } := h.1 .raster ht
  have h2 : d'.ras.mem = d.ras.mem := h.1 .rasterMemory hm
  rw [h1, h2]

theorem Dev.frame_ben {ps : List Part} {l : List Rg} {d d' : Dev} (h : Dev.frame ps l d d') (ht : Part.bench ∉ ps)
    (hm : Part.benchMemory ∉ ps) : d'.ben = d.ben := by
  have h1 : d'.ben = { d.ben with bench := d'.ben.bench, quarry := d'.ben.quarry } := h.1 .bench ht
  have h2 : d'.ben.bench = d.ben.bench ∧ d'.ben.quarry = d.ben.quarry := h.1 .benchMemory hm
  rw [h1, h2.1, h2.2]

/-! ### The frame of a command -/

/-- The writes of a frame, once it has ended, are gone. -/
theorem closed_noWrites (g : Nat) : Closed (fun d => d.bus.writes = []) 0xffffffff g := by
  constructor
  case bus =>
    intro _ d x hk h
    exact (hk (by decide)).elim (fun e => e.trans h) id
  all_goals intros; assumption

theorem Dev.frameEnd_writes (d : Dev) : d.frameEnd.bus.writes = [] := by
  rw [Dev.frameEnd]
  split
  · next h => simpa using h
  · exact Dev.advanceTo_ind ((closed_noWrites 0).mono (by decide) (by decide)) (WriteRun.finish_ind (closed_noWrites _)
      (foldl_invariant (fun w : WriteRun => w.d.bus.writes = []) _ _ rfl fun _ _ _ hw =>
        WriteRun.apply_ind (closed_noWrites _) hw))

section
variable {s t : State} {f : Dev → Dev} {ps : List Part} {l : List Rg}

/-- A command that is no access changes what its effect on the module changes. -/
theorem row_frame (h : s.row f = .next t) (hf : ∀ d, Dev.frame ps l d (f d)) : s.onlyChanges t ps l := by
  cases h
  exact ⟨rfl, hf _⟩

theorem rowLast_frame (h : s.rowLast f = .next t) (hf : ∀ d, Dev.frame ps l d (f d)) : s.onlyChangesLast t ps l := by
  cases h
  exact ⟨rfl, _, hf _, rfl⟩

/-- An access whose requester has not written in the frame. -/
theorem access_frame {rqs : List Rq} (h : s.access rqs f = .next t) (hw : rqs.any s.dev.hasWritten = false)
    (hf : ∀ d, Dev.frame ps l d (f d)) : s.onlyJoins t ps l := by
  rw [State.access_joins hw] at h
  cases h
  exact ⟨rfl, hf _⟩

end

end Sys2Proof.Machine
end

