-- ==== Sys2Proof/Laws/OpFrames.lean ====
section
/-!
SUPPORT. The frame of each operation of the machine: the parts and the register families that it can change.
-/
namespace Sys2Proof.Machine

set_option exponentiation.threshold 500

theorem Dev.pdPut_frame (d : Dev) (n : Nat) (on : Bool) :
    Dev.frame [.events] [.HK_PD_STAT, .HK_DEC_IDX, .HK_DEC] d (Dev.pdPut d n on) :=
  Dev.frame_of_ind (fun hP h => Dev.pdPut_ind hP h) (by decide) (by decide)

theorem Dev.storeWrite_frame (d : Dev) (st : Nat) (a : Nat) (b : List Byte) :
    Dev.frame [.tally, .bench, .benchMemory, .tallyMemory] [] d (Dev.storeWrite d st a b) :=
  Dev.frame_of_ind (fun hP h => Dev.storeWrite_ind hP h) (by decide) (by decide)

theorem Dev.wakeEvent_frame (d : Dev) (k : Nat) (e : Nat) :
    Dev.frame [.needles] [] d (Dev.wakeEvent d k e) :=
  Dev.frame_of_ind (fun hP h => Dev.wakeEvent_ind hP h) (by decide) (by decide)

theorem Dev.wakeRecord_frame (d : Dev) (r : Rec) :
    Dev.frame [.needles] [] d (Dev.wakeRecord d r) :=
  Dev.frame_of_ind (fun hP h => Dev.wakeRecord_ind hP h) (by decide) (by decide)

theorem Dev.ndlFault_frame (d : Dev) (n : Nat) (pc : Nat) (code : Nat) (detail : Nat) (shadow : Nat) :
    Dev.frame [.needles, .events] [.NDL_FAULT_PC, .NDL_FAULT, .NDL_FAULT_TICK] d (Dev.ndlFault d n pc code detail shadow)
      :=
  Dev.frame_of_ind (fun hP h => Dev.ndlFault_ind hP h) (by decide) (by decide)

theorem Dev.replSwitch_frame (d : Dev) (n : Nat) :
    Dev.frame [.needles, .events] [.NDL_ENTRY, .NDL_WIN, .NDL_REPLACE] d (Dev.replSwitch d n) :=
  Dev.frame_of_ind (fun hP h => Dev.replSwitch_ind hP h) (by decide) (by decide)

theorem Dev.ndlFaultSwitch_frame (d : Dev) (n : Nat) :
    Dev.frame [.needles, .events] [.NDL_ENTRY, .NDL_WIN, .NDL_REPLACE] d (Dev.ndlFaultSwitch d n) :=
  Dev.frame_of_ind (fun hP h => Dev.ndlFaultSwitch_ind hP h) (by decide) (by decide)

theorem Dev.issueFault_frame (d : Dev) (n : Nat) (code : Nat) :
    Dev.frame [.needles, .events] [.NDL_ENTRY, .NDL_FAULT_PC, .NDL_WIN, .NDL_REPLACE, .NDL_FAULT, .NDL_FAULT_TICK] d
      (Dev.issueFault d n code) :=
  Dev.frame_of_ind (fun hP h => Dev.issueFault_ind hP h) (by decide) (by decide)

theorem Dev.retire_frame (d : Dev) (n : Nat) (pc : Nat) (f : Needle → Needle) :
    Dev.frame [.needles] [.NDL_CNT_ISSUE] d (Dev.retire d n pc f) :=
  Dev.frame_of_ind (fun hP h => Dev.retire_ind hP h) (by decide) (by decide)

theorem Dev.internal_frame (d : Dev) (n : Nat) (x : Needle) (f : Needle → Needle) :
    Dev.frame [.needles] [.NDL_CNT_ISSUE] d (Dev.internal d n x f) :=
  Dev.frame_of_ind (fun hP h => Dev.internal_ind hP h) (by decide) (by decide)

theorem Dev.launch_frame (d : Dev) (n : Nat) (x : Needle) (e : Effect) :
    Dev.frame [.needles] [.NDL_CNT_ISSUE] d (Dev.launch d n x e) :=
  Dev.frame_of_ind (fun hP h => Dev.launch_ind hP h) (by decide) (by decide)

theorem Dev.beginWait_frame (d : Dev) (n : Nat) (x : Needle) (k : WaitKind) (limit : Option Nat) (done : Option (Nat ×
    Nat)) :
    Dev.frame [.needles] [.NDL_CNT_ISSUE] d (Dev.beginWait d n x k limit done) :=
  Dev.frame_of_ind (fun hP h => Dev.beginWait_ind hP h) (by decide) (by decide)

theorem Dev.needleGoEff_frame (n : Nat) (d : Dev) :
    Dev.frame [.needles] [] d (Dev.needleGoEff n d) :=
  Dev.frame_of_ind (fun hP h => Dev.needleGoEff_ind hP h) (by decide) (by decide)

theorem Dev.needleStopEff_frame (n : Nat) (d : Dev) :
    Dev.frame [.needles, .events] [.NDL_ENTRY, .NDL_WIN, .NDL_REPLACE] d (Dev.needleStopEff n d) :=
  Dev.frame_of_ind (fun hP h => Dev.needleStopEff_ind hP h) (by decide) (by decide)

theorem Dev.waitCompleteEff_frame (n : Nat) (d : Dev) :
    Dev.frame [.clock, .bus, .needles, .events] [.NDL_CNT_LATE, .GLB_CNT_SAT] d (Dev.waitCompleteEff n d) :=
  Dev.frame_of_ind (fun hP h => Dev.waitCompleteEff_ind hP h) (by decide) (by decide)

theorem Dev.replaceGoEff_frame (n : Nat) (d : Dev) :
    Dev.frame [.needles, .events] [.NDL_ENTRY, .NDL_WIN, .NDL_REPLACE] d (Dev.replaceGoEff n d) :=
  Dev.frame_of_ind (fun hP h => Dev.replaceGoEff_ind hP h) (by decide) (by decide)

theorem Dev.replaceCancelEff_frame (n : Nat) (d : Dev) :
    Dev.frame [] [.NDL_REPLACE] d (Dev.replaceCancelEff n d) :=
  Dev.frame_of_ind (fun hP h => Dev.replaceCancelEff_ind hP h) (by decide) (by decide)

theorem Dev.progWrite_frame (d : Dev) (a : Nat) (b : List Byte) :
    Dev.frame [.needles, .programMemory] [.NDL_G_WDROP, .GLB_CNT_SAT] d (Dev.progWrite d a b) :=
  Dev.frame_of_ind (fun hP h => Dev.progWrite_ind hP h) (by decide) (by decide)

theorem Dev.progStoreWriteEff_frame (ofs : Nat) (data : List Byte) (d : Dev) :
    Dev.frame [.needles, .programMemory] [.NDL_G_WDROP, .GLB_CNT_SAT] d (Dev.progStoreWriteEff ofs data d) :=
  Dev.frame_of_ind (fun hP h => Dev.progStoreWriteEff_ind hP h) (by decide) (by decide)

theorem Dev.needleWindowWriteEff_frame (addr : Nat) (wide : Bool) (v : W64) (d : Dev) :
    Dev.frame [.needles] [.NDL_G_WDROP, .GLB_CNT_SAT] d (Dev.needleWindowWriteEff addr wide v d) :=
  Dev.frame_of_ind (fun hP h => Dev.needleWindowWriteEff_ind hP h) (by decide) (by decide)

theorem Dev.zMov_frame (n : Nat) (d : Dev) :
    Dev.frame [.clock, .bus, .needles, .events] [.NDL_ENTRY, .NDL_FAULT_PC, .NDL_WIN, .NDL_REPLACE, .NDL_FAULT,
      .NDL_FAULT_TICK, .NDL_CNT_ISSUE] d (Dev.zMov n d) :=
  Dev.frame_of_ind (fun hP h => Dev.zMov_ind hP h) (by decide) (by decide)

theorem Dev.zLdi_frame (n : Nat) (d : Dev) :
    Dev.frame [.clock, .bus, .needles, .events] [.NDL_ENTRY, .NDL_FAULT_PC, .NDL_WIN, .NDL_REPLACE, .NDL_FAULT,
      .NDL_FAULT_TICK, .NDL_CNT_ISSUE] d (Dev.zLdi n d) :=
  Dev.frame_of_ind (fun hP h => Dev.zLdi_ind hP h) (by decide) (by decide)

theorem Dev.zAdd_frame (n : Nat) (d : Dev) :
    Dev.frame [.clock, .bus, .needles, .events] [.NDL_ENTRY, .NDL_FAULT_PC, .NDL_WIN, .NDL_REPLACE, .NDL_FAULT,
      .NDL_FAULT_TICK, .NDL_CNT_ISSUE] d (Dev.zAdd n d) :=
  Dev.frame_of_ind (fun hP h => Dev.zAdd_ind hP h) (by decide) (by decide)

theorem Dev.zSub_frame (n : Nat) (d : Dev) :
    Dev.frame [.clock, .bus, .needles, .events] [.NDL_ENTRY, .NDL_FAULT_PC, .NDL_WIN, .NDL_REPLACE, .NDL_FAULT,
      .NDL_FAULT_TICK, .NDL_CNT_ISSUE] d (Dev.zSub n d) :=
  Dev.frame_of_ind (fun hP h => Dev.zSub_ind hP h) (by decide) (by decide)

theorem Dev.zLogic_frame (d : Dev) (n : Nat) (x : Needle) (w : W64) (v : W64) :
    Dev.frame [.needles] [.NDL_CNT_ISSUE] d (Dev.zLogic d n x w v) :=
  Dev.frame_of_ind (fun hP h => Dev.zLogic_ind hP h) (by decide) (by decide)

theorem Dev.zAnd_frame (n : Nat) (d : Dev) :
    Dev.frame [.clock, .bus, .needles, .events] [.NDL_ENTRY, .NDL_FAULT_PC, .NDL_WIN, .NDL_REPLACE, .NDL_FAULT,
      .NDL_FAULT_TICK, .NDL_CNT_ISSUE] d (Dev.zAnd n d) :=
  Dev.frame_of_ind (fun hP h => Dev.zAnd_ind hP h) (by decide) (by decide)

theorem Dev.zOr_frame (n : Nat) (d : Dev) :
    Dev.frame [.clock, .bus, .needles, .events] [.NDL_ENTRY, .NDL_FAULT_PC, .NDL_WIN, .NDL_REPLACE, .NDL_FAULT,
      .NDL_FAULT_TICK, .NDL_CNT_ISSUE] d (Dev.zOr n d) :=
  Dev.frame_of_ind (fun hP h => Dev.zOr_ind hP h) (by decide) (by decide)

theorem Dev.zXor_frame (n : Nat) (d : Dev) :
    Dev.frame [.clock, .bus, .needles, .events] [.NDL_ENTRY, .NDL_FAULT_PC, .NDL_WIN, .NDL_REPLACE, .NDL_FAULT,
      .NDL_FAULT_TICK, .NDL_CNT_ISSUE] d (Dev.zXor n d) :=
  Dev.frame_of_ind (fun hP h => Dev.zXor_ind hP h) (by decide) (by decide)

theorem Dev.zShl_frame (n : Nat) (d : Dev) :
    Dev.frame [.clock, .bus, .needles, .events] [.NDL_ENTRY, .NDL_FAULT_PC, .NDL_WIN, .NDL_REPLACE, .NDL_FAULT,
      .NDL_FAULT_TICK, .NDL_CNT_ISSUE] d (Dev.zShl n d) :=
  Dev.frame_of_ind (fun hP h => Dev.zShl_ind hP h) (by decide) (by decide)

theorem Dev.zShr_frame (n : Nat) (d : Dev) :
    Dev.frame [.clock, .bus, .needles, .events] [.NDL_ENTRY, .NDL_FAULT_PC, .NDL_WIN, .NDL_REPLACE, .NDL_FAULT,
      .NDL_FAULT_TICK, .NDL_CNT_ISSUE] d (Dev.zShr n d) :=
  Dev.frame_of_ind (fun hP h => Dev.zShr_ind hP h) (by decide) (by decide)

theorem Dev.zCmp_frame (n : Nat) (d : Dev) :
    Dev.frame [.clock, .bus, .needles, .events] [.NDL_ENTRY, .NDL_FAULT_PC, .NDL_WIN, .NDL_REPLACE, .NDL_FAULT,
      .NDL_FAULT_TICK, .NDL_CNT_ISSUE] d (Dev.zCmp n d) :=
  Dev.frame_of_ind (fun hP h => Dev.zCmp_ind hP h) (by decide) (by decide)

theorem Dev.zLd_frame (n : Nat) (d : Dev) :
    Dev.frame [.clock, .bus, .needles, .events] [.NDL_ENTRY, .NDL_FAULT_PC, .NDL_WIN, .NDL_REPLACE, .NDL_FAULT,
      .NDL_FAULT_TICK, .NDL_CNT_ISSUE] d (Dev.zLd n d) :=
  Dev.frame_of_ind (fun hP h => Dev.zLd_ind hP h) (by decide) (by decide)

theorem Dev.zSt_frame (n : Nat) (d : Dev) :
    Dev.frame [.clock, .bus, .needles, .events] [.NDL_ENTRY, .NDL_FAULT_PC, .NDL_WIN, .NDL_REPLACE, .NDL_FAULT,
      .NDL_FAULT_TICK, .NDL_CNT_ISSUE] d (Dev.zSt n d) :=
  Dev.frame_of_ind (fun hP h => Dev.zSt_ind hP h) (by decide) (by decide)

theorem Dev.zJmp_frame (n : Nat) (d : Dev) :
    Dev.frame [.clock, .bus, .needles, .events] [.NDL_ENTRY, .NDL_FAULT_PC, .NDL_WIN, .NDL_REPLACE, .NDL_FAULT,
      .NDL_FAULT_TICK, .NDL_CNT_ISSUE] d (Dev.zJmp n d) :=
  Dev.frame_of_ind (fun hP h => Dev.zJmp_ind hP h) (by decide) (by decide)

theorem Dev.zBrc_frame (n : Nat) (d : Dev) :
    Dev.frame [.clock, .bus, .needles, .events] [.NDL_ENTRY, .NDL_FAULT_PC, .NDL_WIN, .NDL_REPLACE, .NDL_FAULT,
      .NDL_FAULT_TICK, .NDL_CNT_ISSUE] d (Dev.zBrc n d) :=
  Dev.frame_of_ind (fun hP h => Dev.zBrc_ind hP h) (by decide) (by decide)

theorem Dev.zCall_frame (n : Nat) (d : Dev) :
    Dev.frame [.clock, .bus, .needles, .events] [.NDL_ENTRY, .NDL_FAULT_PC, .NDL_WIN, .NDL_REPLACE, .NDL_FAULT,
      .NDL_FAULT_TICK, .NDL_CNT_ISSUE] d (Dev.zCall n d) :=
  Dev.frame_of_ind (fun hP h => Dev.zCall_ind hP h) (by decide) (by decide)

theorem Dev.zRet_frame (n : Nat) (d : Dev) :
    Dev.frame [.clock, .bus, .needles, .events] [.NDL_ENTRY, .NDL_FAULT_PC, .NDL_WIN, .NDL_REPLACE, .NDL_FAULT,
      .NDL_FAULT_TICK, .NDL_CNT_ISSUE] d (Dev.zRet n d) :=
  Dev.frame_of_ind (fun hP h => Dev.zRet_ind hP h) (by decide) (by decide)

theorem Dev.zNop_frame (n : Nat) (d : Dev) :
    Dev.frame [.clock, .bus, .needles, .events] [.NDL_ENTRY, .NDL_FAULT_PC, .NDL_WIN, .NDL_REPLACE, .NDL_FAULT,
      .NDL_FAULT_TICK, .NDL_CNT_ISSUE] d (Dev.zNop n d) :=
  Dev.frame_of_ind (fun hP h => Dev.zNop_ind hP h) (by decide) (by decide)

theorem Dev.zLoop_frame (n : Nat) (d : Dev) :
    Dev.frame [.clock, .bus, .needles, .events] [.NDL_ENTRY, .NDL_FAULT_PC, .NDL_WIN, .NDL_REPLACE, .NDL_FAULT,
      .NDL_FAULT_TICK, .NDL_CNT_ISSUE] d (Dev.zLoop n d) :=
  Dev.frame_of_ind (fun hP h => Dev.zLoop_ind hP h) (by decide) (by decide)

theorem Dev.zEndloop_frame (n : Nat) (d : Dev) :
    Dev.frame [.clock, .bus, .needles, .events] [.NDL_ENTRY, .NDL_FAULT_PC, .NDL_WIN, .NDL_REPLACE, .NDL_FAULT,
      .NDL_FAULT_TICK, .NDL_CNT_ISSUE, .GLB_CNT_SAT] d (Dev.zEndloop n d) :=
  Dev.frame_of_ind (fun hP h => Dev.zEndloop_ind hP h) (by decide) (by decide)

theorem Dev.zSetf_frame (n : Nat) (d : Dev) :
    Dev.frame [.clock, .bus, .needles, .events] [.NDL_ENTRY, .NDL_FAULT_PC, .NDL_WIN, .NDL_REPLACE, .NDL_FAULT,
      .NDL_FAULT_TICK, .NDL_CNT_ISSUE] d (Dev.zSetf n d) :=
  Dev.frame_of_ind (fun hP h => Dev.zSetf_ind hP h) (by decide) (by decide)

theorem Dev.zGetf_frame (n : Nat) (d : Dev) :
    Dev.frame [.clock, .bus, .needles, .events] [.NDL_ENTRY, .NDL_FAULT_PC, .NDL_WIN, .NDL_REPLACE, .NDL_FAULT,
      .NDL_FAULT_TICK, .NDL_CNT_ISSUE] d (Dev.zGetf n d) :=
  Dev.frame_of_ind (fun hP h => Dev.zGetf_ind hP h) (by decide) (by decide)

theorem Dev.zCaston_frame (n : Nat) (d : Dev) :
    Dev.frame [.clock, .bus, .needles, .events] [.NDL_ENTRY, .NDL_FAULT_PC, .NDL_WIN, .NDL_REPLACE, .NDL_FAULT,
      .NDL_FAULT_TICK, .NDL_CNT_ISSUE] d (Dev.zCaston n d) :=
  Dev.frame_of_ind (fun hP h => Dev.zCaston_ind hP h) (by decide) (by decide)

theorem Dev.zBindoff_frame (n : Nat) (d : Dev) :
    Dev.frame [.clock, .bus, .needles, .events] [.NDL_ENTRY, .NDL_FAULT_PC, .NDL_WIN, .NDL_REPLACE, .NDL_FAULT,
      .NDL_FAULT_TICK, .NDL_CNT_ISSUE] d (Dev.zBindoff n d) :=
  Dev.frame_of_ind (fun hP h => Dev.zBindoff_ind hP h) (by decide) (by decide)

theorem Dev.zArm_frame (n : Nat) (d : Dev) :
    Dev.frame [.clock, .bus, .needles, .events] [.NDL_ENTRY, .NDL_FAULT_PC, .NDL_WIN, .NDL_REPLACE, .NDL_FAULT,
      .NDL_FAULT_TICK, .NDL_CNT_ISSUE] d (Dev.zArm n d) :=
  Dev.frame_of_ind (fun hP h => Dev.zArm_ind hP h) (by decide) (by decide)

theorem Dev.zDisarm_frame (n : Nat) (d : Dev) :
    Dev.frame [.clock, .bus, .needles, .events] [.NDL_ENTRY, .NDL_FAULT_PC, .NDL_WIN, .NDL_REPLACE, .NDL_FAULT,
      .NDL_FAULT_TICK, .NDL_CNT_ISSUE] d (Dev.zDisarm n d) :=
  Dev.frame_of_ind (fun hP h => Dev.zDisarm_ind hP h) (by decide) (by decide)

theorem Dev.zSeg_frame (n : Nat) (d : Dev) :
    Dev.frame [.clock, .bus, .needles, .events] [.NDL_ENTRY, .NDL_FAULT_PC, .NDL_WIN, .NDL_REPLACE, .NDL_FAULT,
      .NDL_FAULT_TICK, .NDL_CNT_ISSUE] d (Dev.zSeg n d) :=
  Dev.frame_of_ind (fun hP h => Dev.zSeg_ind hP h) (by decide) (by decide)

theorem Dev.zSync_frame (n : Nat) (d : Dev) :
    Dev.frame [.clock, .bus, .needles, .events] [.NDL_ENTRY, .NDL_FAULT_PC, .NDL_WIN, .NDL_REPLACE, .NDL_FAULT,
      .NDL_FAULT_TICK, .NDL_CNT_ISSUE] d (Dev.zSync n d) :=
  Dev.frame_of_ind (fun hP h => Dev.zSync_ind hP h) (by decide) (by decide)

theorem Dev.zDelay_frame (n : Nat) (d : Dev) :
    Dev.frame [.clock, .bus, .needles, .events] [.NDL_ENTRY, .NDL_FAULT_PC, .NDL_WIN, .NDL_REPLACE, .NDL_FAULT,
      .NDL_FAULT_TICK, .NDL_CNT_ISSUE] d (Dev.zDelay n d) :=
  Dev.frame_of_ind (fun hP h => Dev.zDelay_ind hP h) (by decide) (by decide)

theorem Dev.zWaitt_frame (n : Nat) (d : Dev) :
    Dev.frame [.clock, .bus, .needles, .events] [.NDL_ENTRY, .NDL_FAULT_PC, .NDL_WIN, .NDL_REPLACE, .NDL_FAULT,
      .NDL_FAULT_TICK, .NDL_CNT_ISSUE] d (Dev.zWaitt n d) :=
  Dev.frame_of_ind (fun hP h => Dev.zWaitt_ind hP h) (by decide) (by decide)

theorem Dev.zWaittrig_frame (n : Nat) (d : Dev) :
    Dev.frame [.clock, .bus, .needles, .events] [.NDL_ENTRY, .NDL_FAULT_PC, .NDL_WIN, .NDL_REPLACE, .NDL_FAULT,
      .NDL_FAULT_TICK, .NDL_CNT_ISSUE] d (Dev.zWaittrig n d) :=
  Dev.frame_of_ind (fun hP h => Dev.zWaittrig_ind hP h) (by decide) (by decide)

theorem Dev.zWaite_frame (n : Nat) (d : Dev) :
    Dev.frame [.clock, .bus, .needles, .events] [.NDL_ENTRY, .NDL_FAULT_PC, .NDL_WIN, .NDL_REPLACE, .NDL_FAULT,
      .NDL_FAULT_TICK, .NDL_CNT_ISSUE] d (Dev.zWaite n d) :=
  Dev.frame_of_ind (fun hP h => Dev.zWaite_ind hP h) (by decide) (by decide)

theorem Dev.zWaitseg_frame (n : Nat) (d : Dev) :
    Dev.frame [.clock, .bus, .needles, .events] [.NDL_ENTRY, .NDL_FAULT_PC, .NDL_WIN, .NDL_REPLACE, .NDL_FAULT,
      .NDL_FAULT_TICK, .NDL_CNT_ISSUE] d (Dev.zWaitseg n d) :=
  Dev.frame_of_ind (fun hP h => Dev.zWaitseg_ind hP h) (by decide) (by decide)

theorem Dev.zFence_frame (n : Nat) (d : Dev) :
    Dev.frame [.clock, .bus, .needles, .events] [.NDL_ENTRY, .NDL_FAULT_PC, .NDL_WIN, .NDL_REPLACE, .NDL_FAULT,
      .NDL_FAULT_TICK, .NDL_CNT_ISSUE] d (Dev.zFence n d) :=
  Dev.frame_of_ind (fun hP h => Dev.zFence_ind hP h) (by decide) (by decide)

theorem Dev.zPost_frame (n : Nat) (d : Dev) :
    Dev.frame [.clock, .bus, .needles, .queues, .events] [.NDL_ENTRY, .NDL_FAULT_PC, .NDL_WIN, .NDL_REPLACE, .NDL_FAULT,
      .NDL_FAULT_TICK, .NDL_CNT_ISSUE] d (Dev.zPost n d) :=
  Dev.frame_of_ind (fun hP h => Dev.zPost_ind hP h) (by decide) (by decide)

theorem Dev.zSignal_frame (n : Nat) (d : Dev) :
    Dev.frame [.clock, .bus, .needles, .events] [.NDL_ENTRY, .NDL_FAULT_PC, .NDL_WIN, .NDL_REPLACE, .NDL_FAULT,
      .NDL_FAULT_TICK, .NDL_CNT_ISSUE] d (Dev.zSignal n d) :=
  Dev.frame_of_ind (fun hP h => Dev.zSignal_ind hP h) (by decide) (by decide)

theorem Dev.zMark_frame (n : Nat) (d : Dev) :
    Dev.frame [.clock, .bus, .needles, .events] [.NDL_ENTRY, .NDL_FAULT_PC, .NDL_WIN, .NDL_REPLACE, .NDL_FAULT,
      .NDL_FAULT_TICK, .NDL_CNT_ISSUE] d (Dev.zMark n d) :=
  Dev.frame_of_ind (fun hP h => Dev.zMark_ind hP h) (by decide) (by decide)

theorem Dev.zTone_frame (n : Nat) (d : Dev) :
    Dev.frame [.clock, .bus, .needles, .events] [.NDL_ENTRY, .NDL_FAULT_PC, .NDL_WIN, .NDL_REPLACE, .NDL_FAULT,
      .NDL_FAULT_TICK, .NDL_CNT_ISSUE] d (Dev.zTone n d) :=
  Dev.frame_of_ind (fun hP h => Dev.zTone_ind hP h) (by decide) (by decide)

theorem Dev.zPlay_frame (n : Nat) (d : Dev) :
    Dev.frame [.clock, .bus, .needles, .events] [.NDL_ENTRY, .NDL_FAULT_PC, .NDL_WIN, .NDL_REPLACE, .NDL_FAULT,
      .NDL_FAULT_TICK, .NDL_CNT_ISSUE] d (Dev.zPlay n d) :=
  Dev.frame_of_ind (fun hP h => Dev.zPlay_ind hP h) (by decide) (by decide)

theorem Dev.switchRun_frame (d : Dev) (n : Nat) (x : Needle) :
    Dev.frame [.needles, .events] [.NDL_ENTRY, .NDL_WIN, .NDL_REPLACE, .NDL_CNT_ISSUE] d (Dev.switchRun d n x) :=
  Dev.frame_of_ind (fun hP h => Dev.switchRun_ind hP h) (by decide) (by decide)

theorem Dev.zYield_frame (n : Nat) (d : Dev) :
    Dev.frame [.clock, .bus, .needles, .events] [.NDL_ENTRY, .NDL_FAULT_PC, .NDL_WIN, .NDL_REPLACE, .NDL_FAULT,
      .NDL_FAULT_TICK, .NDL_CNT_ISSUE] d (Dev.zYield n d) :=
  Dev.frame_of_ind (fun hP h => Dev.zYield_ind hP h) (by decide) (by decide)

theorem Dev.zHalt_frame (n : Nat) (d : Dev) :
    Dev.frame [.clock, .bus, .needles, .events] [.NDL_ENTRY, .NDL_FAULT_PC, .NDL_WIN, .NDL_REPLACE, .NDL_FAULT,
      .NDL_FAULT_TICK, .NDL_CNT_ISSUE] d (Dev.zHalt n d) :=
  Dev.frame_of_ind (fun hP h => Dev.zHalt_ind hP h) (by decide) (by decide)

theorem Dev.tallyTrigger_frame (d : Dev) (u : Nat) (inst : Nat) (time : BitVec 128) :
    Dev.frame [.tally] [] d (Dev.tallyTrigger d u inst time) :=
  Dev.frame_of_ind (fun hP h => Dev.tallyTrigger_ind hP h) (by decide) (by decide)

theorem Dev.srShow_frame (d : Dev) :
    Dev.frame [] [.BEN_QRY_STAT] d (Dev.srShow d) :=
  Dev.frame_of_ind (fun hP h => Dev.srShow_ind hP h) (by decide) (by decide)

theorem Dev.srExit_frame (d : Dev) (c : Nat) :
    Dev.frame [.bench] [.BEN_QRY_STAT, .QRY_CSTAT, .QRY_RRT] d (Dev.srExit d c) :=
  Dev.frame_of_ind (fun hP h => Dev.srExit_ind hP h) (by decide) (by decide)

theorem Dev.qrySlot_frame (d : Dev) (c : Nat) :
    Dev.frame [.bench] [] d (Dev.qrySlot d c) :=
  Dev.frame_of_ind (fun hP h => Dev.qrySlot_ind hP h) (by decide) (by decide)

theorem Dev.freqAbandon_frame (d : Dev) :
    Dev.frame [.bench, .events] [.BEN_QRY_STAT, .BEN_QRY_FREQ] d (Dev.freqAbandon d) :=
  Dev.frame_of_ind (fun hP h => Dev.freqAbandon_ind hP h) (by decide) (by decide)

theorem Dev.quarryRequestEff_frame (c : Nat) (cls : Nat) (read : Bool) (slots : Nat) (d : Dev) :
    Dev.frame [.bench, .events] [.BEN_QRY_STAT, .BEN_QRY_FREQ, .QRY_CSTAT, .QRY_RRT] d (Dev.quarryRequestEff c cls read
      slots d) :=
  Dev.frame_of_ind (fun hP h => Dev.quarryRequestEff_ind hP h) (by decide) (by decide)

theorem Dev.hostDeferExpiryEff_frame (c : Nat) (d : Dev) :
    Dev.frame [.clock, .bus, .bench, .events] [.BEN_CNT_DEFER, .GLB_CNT_SAT] d (Dev.hostDeferExpiryEff c d) :=
  Dev.frame_of_ind (fun hP h => Dev.hostDeferExpiryEff_ind hP h) (by decide) (by decide)

theorem Dev.refreshDueEff_frame (c : Nat) (rank : Nat) (d : Dev) :
    Dev.frame [.bench] [.QRY_CNT_REFPOST, .GLB_CNT_SAT] d (Dev.refreshDueEff c rank d) :=
  Dev.frame_of_ind (fun hP h => Dev.refreshDueEff_ind hP h) (by decide) (by decide)

theorem Dev.migrateStart_frame (d : Dev) (c : Nat) :
    Dev.frame [.bench, .events, .benchMemory] [.BEN_QRY_CAP, .BEN_QRY_RETIRE, .BEN_QRY_MIG, .QRY_CSTAT, .HK_DEC_IDX,
      .HK_DEC] d (Dev.migrateStart d c) :=
  Dev.frame_of_ind (fun hP h => Dev.migrateStart_ind hP h) (by decide) (by decide)

theorem Dev.retireChannel_frame (d : Dev) (c : Nat) :
    Dev.frame [.bench, .events, .benchMemory] [.BEN_QRY_CAP, .BEN_QRY_RETIRE, .BEN_QRY_MIG, .QRY_CSTAT, .HK_DEC_IDX,
      .HK_DEC] d (Dev.retireChannel d c) :=
  Dev.frame_of_ind (fun hP h => Dev.retireChannel_ind hP h) (by decide) (by decide)

theorem Dev.retireRecheck_frame (d : Dev) :
    Dev.frame [.bench, .events, .benchMemory] [.BEN_QRY_CAP, .BEN_QRY_RETIRE, .BEN_QRY_MIG, .QRY_CSTAT, .HK_DEC_IDX,
      .HK_DEC] d (Dev.retireRecheck d) :=
  Dev.frame_of_ind (fun hP h => Dev.retireRecheck_ind hP h) (by decide) (by decide)

theorem Dev.channelRetireEff_frame (c : Nat) (d : Dev) :
    Dev.frame [.bench, .events, .benchMemory] [.BEN_QRY_CAP, .BEN_QRY_RETIRE, .BEN_QRY_MIG, .QRY_CSTAT, .HK_DEC_IDX,
      .HK_DEC] d (Dev.channelRetireEff c d) :=
  Dev.frame_of_ind (fun hP h => Dev.channelRetireEff_ind hP h) (by decide) (by decide)

theorem Dev.migrateDone_frame (d : Dev) (k : Nat) :
    Dev.frame [.events] [.BEN_QRY_STAT, .BEN_QRY_RETIRE, .QRY_CSTAT, .HK_PD_STAT, .HK_DEC_IDX, .HK_DEC] d (Dev.migrateDone
      d k) :=
  Dev.frame_of_ind (fun hP h => Dev.migrateDone_ind hP h) (by decide) (by decide)

theorem Dev.migrationBatchDoneEff_frame (d : Dev) :
    Dev.frame [.bench, .events] [.BEN_QRY_STAT, .BEN_QRY_RETIRE, .BEN_QRY_MIG, .QRY_CSTAT, .HK_PD_STAT, .HK_DEC_IDX,
      .HK_DEC] d (Dev.migrationBatchDoneEff d) :=
  Dev.frame_of_ind (fun hP h => Dev.migrationBatchDoneEff_ind hP h) (by decide) (by decide)

theorem Dev.retireClearEff_frame (d : Dev) :
    Dev.frame [.bench, .events] [.BEN_QRY_CAP, .BEN_QRY_RETIRE, .BEN_QRY_MIG, .QRY_CSTAT] d (Dev.retireClearEff d) :=
  Dev.frame_of_ind (fun hP h => Dev.retireClearEff_ind hP h) (by decide) (by decide)

theorem Dev.rowRetire_frame (d : Dev) (c : Nat) (row : Nat) (first : Bool) :
    Dev.frame [.bench, .events, .benchMemory] [.BEN_QRY_CAP, .BEN_QRY_RETIRE, .BEN_QRY_MIG, .QRY_CSTAT, .QRY_CNT_RRFULL,
      .QRY_RRT, .GLB_CNT_SAT, .HK_DEC_IDX, .HK_DEC] d (Dev.rowRetire d c row first) :=
  Dev.frame_of_ind (fun hP h => Dev.rowRetire_ind hP h) (by decide) (by decide)

theorem Dev.memoryErrorEff_frame (quarry : Bool) (block : Nat) (ue : Bool) (row : Nat) (d : Dev) :
    Dev.frame [.bench, .events, .benchMemory] [.BEN_CNT_CE, .BEN_CNT_UE, .BEN_QRY_CAP, .BEN_QRY_RETIRE, .BEN_QRY_MIG,
      .QRY_CSTAT, .QRY_CNT_CE, .QRY_CNT_UE, .QRY_CNT_RRFULL, .QRY_RRT, .GLB_CNT_SAT, .HK_DEC_IDX, .HK_DEC] d
      (Dev.memoryErrorEff quarry block ue row d) :=
  Dev.frame_of_ind (fun hP h => Dev.memoryErrorEff_ind hP h) (by decide) (by decide)

theorem Dev.rowCopyDoneEff_frame (c : Nat) (d : Dev) :
    Dev.frame [.bench, .events] [.QRY_RRT] d (Dev.rowCopyDoneEff c d) :=
  Dev.frame_of_ind (fun hP h => Dev.rowCopyDoneEff_ind hP h) (by decide) (by decide)

theorem Dev.patrolScrubEff_frame (d : Dev) :
    Dev.frame [.bench, .events] [.BEN_QRY_STAT, .BEN_QRY_FREQ, .QRY_CSTAT, .QRY_RRT] d (Dev.patrolScrubEff d) :=
  Dev.frame_of_ind (fun hP h => Dev.patrolScrubEff_ind hP h) (by decide) (by decide)

theorem Dev.selfRefreshEntryEff_frame (c : Nat) (d : Dev) :
    Dev.frame [.clock, .bus, .bench, .events] [.BEN_QRY_STAT] d (Dev.selfRefreshEntryEff c d) :=
  Dev.frame_of_ind (fun hP h => Dev.selfRefreshEntryEff_ind hP h) (by decide) (by decide)

theorem Dev.freqLoad_frame (d : Dev) (p : Nat) :
    Dev.frame [.bench] [] d (Dev.freqLoad d p) :=
  Dev.frame_of_ind (fun hP h => Dev.freqLoad_ind hP h) (by decide) (by decide)

theorem Dev.freqChangeGoEff_frame (p : Nat) (d : Dev) :
    Dev.frame [.bench] [.BEN_QRY_FREQ] d (Dev.freqChangeGoEff p d) :=
  Dev.frame_of_ind (fun hP h => Dev.freqChangeGoEff_ind hP h) (by decide) (by decide)

theorem Dev.freqOwn_frame (d : Dev) (p : Nat) :
    Dev.frame [.bench, .events] [.HK_DEC_IDX, .HK_DEC] d (Dev.freqOwn d p) :=
  Dev.frame_of_ind (fun hP h => Dev.freqOwn_ind hP h) (by decide) (by decide)

theorem Dev.freqChangeBeginEff_frame (own : Option Nat) (d : Dev) :
    Dev.frame [.bench, .events] [.BEN_QRY_STAT, .BEN_QRY_FREQ, .HK_DEC_IDX, .HK_DEC] d (Dev.freqChangeBeginEff own d) :=
  Dev.frame_of_ind (fun hP h => Dev.freqChangeBeginEff_ind hP h) (by decide) (by decide)

theorem Dev.freqDoneEff_frame (d : Dev) :
    Dev.frame [.clock, .bus, .bench, .events] [.BEN_QRY_STAT, .BEN_QRY_FREQ, .QRY_CSTAT, .QRY_RRT] d (Dev.freqDoneEff d)
      :=
  Dev.frame_of_ind (fun hP h => Dev.freqDoneEff_ind hP h) (by decide) (by decide)

theorem Dev.slewMark_frame (d : Dev) (on : Bool) :
    Dev.frame [.timeBase] [.TB_PHASE_ERR] d (Dev.slewMark d on) :=
  Dev.frame_of_ind (fun hP h => Dev.slewMark_ind hP h) (by decide) (by decide)

theorem Dev.slewRebase_frame (d : Dev) :
    Dev.frame [.timeBase] [.TB_PHASE_ERR] d (Dev.slewRebase d) :=
  Dev.frame_of_ind (fun hP h => Dev.slewRebase_ind hP h) (by decide) (by decide)

theorem Dev.tbEnter_frame (d : Dev) (st : Nat) :
    Dev.frame [.timeBase] [.TB_REF_STAT, .TB_PHASE_ERR] d (Dev.tbEnter d st) :=
  Dev.frame_of_ind (fun hP h => Dev.tbEnter_ind hP h) (by decide) (by decide)

theorem Dev.tbRemove_frame (d : Dev) (err : W64) :
    Dev.frame [.timeBase] [.TB_REF_STAT, .TB_PHASE_ERR] d (Dev.tbRemove d err) :=
  Dev.frame_of_ind (fun hP h => Dev.tbRemove_ind hP h) (by decide) (by decide)

theorem Dev.tbActive_frame (d : Dev) (a : Nat) :
    Dev.frame [.events] [.TB_REF_STAT] d (Dev.tbActive d a) :=
  Dev.frame_of_ind (fun hP h => Dev.tbActive_ind hP h) (by decide) (by decide)

theorem Dev.tbTake_frame (d : Dev) (src : Nat) (err : W64) :
    Dev.frame [.timeBase, .events] [.TB_REF_STAT, .TB_PHASE_ERR] d (Dev.tbTake d src err) :=
  Dev.frame_of_ind (fun hP h => Dev.tbTake_ind hP h) (by decide) (by decide)

theorem Dev.tbArrive_frame (d : Dev) (src : Nat) (err : W64) :
    Dev.frame [.timeBase, .events] [.TB_REF_STAT, .TB_PHASE_ERR] d (Dev.tbArrive d src err) :=
  Dev.frame_of_ind (fun hP h => Dev.tbArrive_ind hP h) (by decide) (by decide)

theorem Dev.tbLose_frame (d : Dev) :
    Dev.frame [.timeBase, .events] [.TB_REF_STAT, .TB_PHASE_ERR, .TB_LOSS_CNT, .GLB_CNT_SAT] d (Dev.tbLose d) :=
  Dev.frame_of_ind (fun hP h => Dev.tbLose_ind hP h) (by decide) (by decide)

theorem Dev.refPresentEff_frame (mhz100 : Bool) (err : W64) (d : Dev) :
    Dev.frame [.timeBase, .events] [.TB_REF_STAT, .TB_PHASE_ERR] d (Dev.refPresentEff mhz100 err d) :=
  Dev.frame_of_ind (fun hP h => Dev.refPresentEff_ind hP h) (by decide) (by decide)

theorem Dev.refAbsentEff_frame (d : Dev) :
    Dev.frame [.timeBase, .events] [.TB_REF_STAT, .TB_PHASE_ERR, .TB_LOSS_CNT, .GLB_CNT_SAT] d (Dev.refAbsentEff d) :=
  Dev.frame_of_ind (fun hP h => Dev.refAbsentEff_ind hP h) (by decide) (by decide)

theorem Dev.extPresentEff_frame (err : W64) (d : Dev) :
    Dev.frame [.timeBase, .events] [.TB_REF_STAT, .TB_PHASE_ERR] d (Dev.extPresentEff err d) :=
  Dev.frame_of_ind (fun hP h => Dev.extPresentEff_ind hP h) (by decide) (by decide)

theorem Dev.extAbsentEff_frame (err : W64) (d : Dev) :
    Dev.frame [.timeBase, .events] [.TB_REF_STAT, .TB_PHASE_ERR, .TB_LOSS_CNT, .GLB_CNT_SAT] d (Dev.extAbsentEff err d) :=
  Dev.frame_of_ind (fun hP h => Dev.extAbsentEff_ind hP h) (by decide) (by decide)

theorem Dev.qualificationExpiryEff_frame (err : W64) (d : Dev) :
    Dev.frame [.clock, .bus, .timeBase, .events] [.TB_REF_STAT, .TB_PHASE_ERR, .HK_DEC_IDX, .HK_DEC] d
      (Dev.qualificationExpiryEff err d) :=
  Dev.frame_of_ind (fun hP h => Dev.qualificationExpiryEff_ind hP h) (by decide) (by decide)

theorem Dev.tbSelWritten_frame (d : Dev) :
    Dev.frame [.draws, .timeBase, .events] [.TB_REF_STAT, .TB_PHASE_ERR, .HK_DEC_IDX, .HK_DEC] d (Dev.tbSelWritten d) :=
  Dev.frame_of_ind (fun hP h => Dev.tbSelWritten_ind hP h) (by decide) (by decide)

theorem Dev.tbAligned_frame (d : Dev) :
    Dev.frame [.timeBase, .events] [.TB_REF_STAT] d (Dev.tbAligned d) :=
  Dev.frame_of_ind (fun hP h => Dev.tbAligned_ind hP h) (by decide) (by decide)

theorem Dev.tbAlign_frame (d : Dev) (err : W64) :
    Dev.frame [.timeBase, .events] [.TB_REF_STAT, .TB_PHASE_ERR] d (Dev.tbAlign d err) :=
  Dev.frame_of_ind (fun hP h => Dev.tbAlign_ind hP h) (by decide) (by decide)

theorem Dev.tbLock_frame (d : Dev) :
    Dev.frame [.timeBase, .events] [.TB_REF_STAT, .TB_PHASE_ERR] d (Dev.tbLock d) :=
  Dev.frame_of_ind (fun hP h => Dev.tbLock_ind hP h) (by decide) (by decide)

theorem Dev.originRefused_frame (d : Dev) :
    Dev.frame [.timeBase, .events] [.TB_ORIGIN_CTL] d (Dev.originRefused d) :=
  Dev.frame_of_ind (fun hP h => Dev.originRefused_ind hP h) (by decide) (by decide)

theorem Dev.originCancel_frame (d : Dev) :
    Dev.frame [.timeBase, .events] [.TB_ORIGIN_CTL] d (Dev.originCancel d) :=
  Dev.frame_of_ind (fun hP h => Dev.originCancel_ind hP h) (by decide) (by decide)

theorem Dev.tbUnlock_frame (d : Dev) :
    Dev.frame [.timeBase, .events] [.TB_REF_STAT, .TB_ORIGIN_CTL, .TB_PHASE_ERR, .TB_LOSS_CNT, .GLB_CNT_SAT] d
      (Dev.tbUnlock d) :=
  Dev.frame_of_ind (fun hP h => Dev.tbUnlock_ind hP h) (by decide) (by decide)

theorem Dev.timeStepEff_frame (d : Dev) :
    Dev.frame [.timeBase, .events] [.TB_PHASE_ERR] d (Dev.timeStepEff d) :=
  Dev.frame_of_ind (fun hP h => Dev.timeStepEff_ind hP h) (by decide) (by decide)

theorem Dev.holdoverExitEff_frame (d : Dev) :
    Dev.frame [.clock, .bus, .timeBase, .events] [.TB_REF_STAT, .TB_PHASE_ERR] d (Dev.holdoverExitEff d) :=
  Dev.frame_of_ind (fun hP h => Dev.holdoverExitEff_ind hP h) (by decide) (by decide)

theorem Dev.originGoEff_frame (boundary : Nat) (d : Dev) :
    Dev.frame [.timeBase, .events] [.TB_ORIGIN_CTL] d (Dev.originGoEff boundary d) :=
  Dev.frame_of_ind (fun hP h => Dev.originGoEff_ind hP h) (by decide) (by decide)

theorem Dev.originSetEff_frame (d : Dev) :
    Dev.frame [.clock, .bus, .timeBase, .events] [.TB_REF_STAT, .TB_ORIGIN_CTL] d (Dev.originSetEff d) :=
  Dev.frame_of_ind (fun hP h => Dev.originSetEff_ind hP h) (by decide) (by decide)

theorem Dev.originEdge_frame (d : Dev) (w : Nat) (inst : Nat) :
    Dev.frame [.timeBase] [] d (Dev.originEdge d w inst) :=
  Dev.frame_of_ind (fun hP h => Dev.originEdge_ind hP h) (by decide) (by decide)

theorem Dev.tickWrapEff_frame (d : Dev) :
    Dev.frame [.clock, .bus, .events] [] d (Dev.tickWrapEff d) :=
  Dev.frame_of_ind (fun hP h => Dev.tickWrapEff_ind hP h) (by decide) (by decide)

theorem Dev.ppsInEff_frame (sample : Nat) (frac : Nat) (err : W64) (d : Dev) :
    Dev.frame [.timeBase, .events] [.TB_REF_STAT, .TB_PPS_CAP, .TB_PHASE_ERR] d (Dev.ppsInEff sample frac err d) :=
  Dev.frame_of_ind (fun hP h => Dev.ppsInEff_ind hP h) (by decide) (by decide)

theorem Dev.ppsMissingEff_frame (d : Dev) :
    Dev.frame [.clock, .bus, .timeBase, .events] [] d (Dev.ppsMissingEff d) :=
  Dev.frame_of_ind (fun hP h => Dev.ppsMissingEff_ind hP h) (by decide) (by decide)

theorem Dev.ppsOutEff_frame (d : Dev) :
    Dev.frame [.clock, .bus, .timeBase, .events] [] d (Dev.ppsOutEff d) :=
  Dev.frame_of_ind (fun hP h => Dev.ppsOutEff_ind hP h) (by decide) (by decide)

theorem Dev.ptpServo_frame (d : Dev) (err : W64) :
    Dev.frame [.timeBase, .events] [.TB_REF_STAT, .TB_PHASE_ERR] d (Dev.ptpServo d err) :=
  Dev.frame_of_ind (fun hP h => Dev.ptpServo_ind hP h) (by decide) (by decide)

theorem Dev.ptpMessageEff_frame (msg : PtpMsg) (domain : Nat) (state : Nat) (master : Option (W64 × W64)) (d : Dev) :
    Dev.frame [.timeBase, .events] [.TB_REF_STAT, .TB_PHASE_ERR] d (Dev.ptpMessageEff msg domain state master d) :=
  Dev.frame_of_ind (fun hP h => Dev.ptpMessageEff_ind hP h) (by decide) (by decide)

theorem Dev.trySend_frame (d : Dev) (v : Nat) :
    Dev.frame [.queues, .hostMemory] [] d (Dev.trySend d v) :=
  Dev.frame_of_ind (fun hP h => Dev.trySend_ind hP h) (by decide) (by decide)

theorem Dev.request_frame (d : Dev) (v : Nat) :
    Dev.frame [.queues] [] d (Dev.request d v) :=
  Dev.frame_of_ind (fun hP h => Dev.request_ind hP h) (by decide) (by decide)

theorem Dev.queueRequest_frame (d : Dev) (q : Nat) :
    Dev.frame [.queues] [] d (Dev.queueRequest d q) :=
  Dev.frame_of_ind (fun hP h => Dev.queueRequest_ind hP h) (by decide) (by decide)

theorem Dev.queueCheck_frame (d : Dev) (q : Nat) :
    Dev.frame [.queues] [] d (Dev.queueCheck d q) :=
  Dev.frame_of_ind (fun hP h => Dev.queueCheck_ind hP h) (by decide) (by decide)

theorem Dev.queueNote_frame (d : Dev) (q : Nat) :
    Dev.frame [.queues] [] d (Dev.queueNote d q) :=
  Dev.frame_of_ind (fun hP h => Dev.queueNote_ind hP h) (by decide) (by decide)

theorem Dev.qStore_frame (d : Dev) (q : Nat) (a : Nat) (b : List Byte) :
    Dev.frame [.bench, .queues, .benchMemory, .hostMemory] [] d (Dev.qStore d q a b) :=
  Dev.frame_of_ind (fun hP h => Dev.qStore_ind hP h) (by decide) (by decide)

theorem Dev.writeBack_frame (d : Dev) (q : Nat) (idx : Nat) :
    Dev.frame [.queues, .hostMemory] [] d (Dev.writeBack d q idx) :=
  Dev.frame_of_ind (fun hP h => Dev.writeBack_ind hP h) (by decide) (by decide)

theorem Dev.qWrite_frame (d : Dev) (q : Nat) (entries : List (List Byte)) :
    Dev.frame [.bench, .queues, .benchMemory, .hostMemory] [.QUE_IDX] d (Dev.qWrite d q entries) :=
  Dev.frame_of_ind (fun hP h => Dev.qWrite_ind hP h) (by decide) (by decide)

theorem Dev.itemLost_frame (d : Dev) (q : Nat) (sp : Option Nat) :
    Dev.frame [.queues, .events] [.QUE_G_LOST, .QUE_CNT, .GLB_CNT_SAT] d (Dev.itemLost d q sp) :=
  Dev.frame_of_ind (fun hP h => Dev.itemLost_ind hP h) (by decide) (by decide)

theorem Dev.itemSpoil_frame (d : Dev) (q : Nat) (reason : Nat) (content : List Byte) :
    Dev.frame [.bench, .queues, .events, .benchMemory, .hostMemory] [.QUE_G_LOST, .QUE_IDX, .QUE_CNT, .GLB_CNT_SAT] d
      (Dev.itemSpoil d q reason content) :=
  Dev.frame_of_ind (fun hP h => Dev.itemSpoil_ind hP h) (by decide) (by decide)

theorem Dev.placeItem_frame (d : Dev) (x : Item) :
    Dev.frame [.bench, .queues, .events, .benchMemory, .hostMemory] [.QUE_G_LOST, .QUE_IDX, .QUE_CNT, .GLB_CNT_SAT] d
      (Dev.placeItem d x) :=
  Dev.frame_of_ind (fun hP h => Dev.placeItem_ind hP h) (by decide) (by decide)

theorem Dev.queueItemWriteEff_frame (q : Nat) (d : Dev) :
    Dev.frame [.bench, .queues, .events, .benchMemory, .hostMemory] [.QUE_G_LOST, .QUE_IDX, .QUE_CNT, .GLB_CNT_SAT] d
      (Dev.queueItemWriteEff q d) :=
  Dev.frame_of_ind (fun hP h => Dev.queueItemWriteEff_ind hP h) (by decide) (by decide)

theorem Dev.queueAllocEff_frame (any : Bool) (q : Nat) (d : Dev) :
    Dev.frame [.events] [.QUE_ALLOC, .QUE_ALLOC_STAT, .QUE_STAT] d (Dev.queueAllocEff any q d) :=
  Dev.frame_of_ind (fun hP h => Dev.queueAllocEff_ind hP h) (by decide) (by decide)

theorem Dev.queueEnableEff_frame (q : Nat) (d : Dev) :
    Dev.frame [.queues] [.QUE_CTL, .QUE_STAT, .QUE_IDX] d (Dev.queueEnableEff q d) :=
  Dev.frame_of_ind (fun hP h => Dev.queueEnableEff_ind hP h) (by decide) (by decide)

theorem Dev.cmdComplete_frame (d : Dev) (q : Nat) (c : Line) (status : Nat) (values : List Nat) :
    Dev.frame [.queues] [.QUE_IDX] d (Dev.cmdComplete d q c status values) :=
  Dev.frame_of_ind (fun hP h => Dev.cmdComplete_ind hP h) (by decide) (by decide)

theorem Dev.cmdsAbort_frame (d : Dev) (q : Nat) :
    Dev.frame [.queues] [.QUE_IDX] d (Dev.cmdsAbort d q) :=
  Dev.frame_of_ind (fun hP h => Dev.cmdsAbort_ind hP h) (by decide) (by decide)

theorem Dev.queueDisableEff_frame (q : Nat) (d : Dev) :
    Dev.frame [.queues] [.QUE_CTL, .QUE_STAT, .QUE_IDX] d (Dev.queueDisableEff q d) :=
  Dev.frame_of_ind (fun hP h => Dev.queueDisableEff_ind hP h) (by decide) (by decide)

theorem Dev.queueFreeEff_frame (q : Nat) (d : Dev) :
    Dev.frame [.queues] [.QUE_BASE, .QUE_WB, .QUE_CFG, .QUE_CTL, .QUE_STAT, .QUE_IDX, .QUE_INT] d (Dev.queueFreeEff q d)
      :=
  Dev.frame_of_ind (fun hP h => Dev.queueFreeEff_ind hP h) (by decide) (by decide)

theorem Dev.doorbellEff_frame (q : Nat) (idx : Nat) (d : Dev) :
    Dev.frame [.events] [.QUE_G_BADDB, .QUE_IDX, .GLB_CNT_SAT] d (Dev.doorbellEff q idx d) :=
  Dev.frame_of_ind (fun hP h => Dev.doorbellEff_ind hP h) (by decide) (by decide)

theorem Dev.commandFetchEff_frame (q : Nat) (ending : ReadEnd) (entry : Line) (d : Dev) :
    Dev.frame [.queues, .events] [.QUE_STAT] d (Dev.commandFetchEff q ending entry d) :=
  Dev.frame_of_ind (fun hP h => Dev.commandFetchEff_ind hP h) (by decide) (by decide)

theorem Dev.interruptTimeoutEff_frame (q : Nat) (d : Dev) :
    Dev.frame [.clock, .bus, .queues, .events] [] d (Dev.interruptTimeoutEff q d) :=
  Dev.frame_of_ind (fun hP h => Dev.interruptTimeoutEff_ind hP h) (by decide) (by decide)

theorem Dev.queIntWriteEff_frame (q : Nat) (v : W32) (d : Dev) :
    Dev.frame [.queues] [.QUE_INT] d (Dev.queIntWriteEff q v d) :=
  Dev.frame_of_ind (fun hP h => Dev.queIntWriteEff_ind hP h) (by decide) (by decide)

theorem Dev.vectorUnmaskEff_frame (v : Nat) (addr : W64) (data : W32) (d : Dev) :
    Dev.frame [.queues, .hostMemory] [] d (Dev.vectorUnmaskEff v addr data d) :=
  Dev.frame_of_ind (fun hP h => Dev.vectorUnmaskEff_ind hP h) (by decide) (by decide)

theorem Dev.modFrExpiryEff_frame (v : Nat) (d : Dev) :
    Dev.frame [.clock, .bus, .queues, .events, .hostMemory] [] d (Dev.modFrExpiryEff v d) :=
  Dev.frame_of_ind (fun hP h => Dev.modFrExpiryEff_ind hP h) (by decide) (by decide)

theorem Dev.logEvent_frame (d : Dev) (k : Nat) (e : Nat) (q : Nat) :
    Dev.frame [.events] [.EVR_CNT_LOST, .GLB_CNT_SAT] d (Dev.logEvent d k e q) :=
  Dev.frame_of_ind (fun hP h => Dev.logEvent_ind hP h) (by decide) (by decide)

theorem Dev.eventLogWriteEff_frame (d : Dev) :
    Dev.frame [.bench, .queues, .events, .benchMemory, .hostMemory] [.QUE_G_LOST, .QUE_IDX, .QUE_CNT, .GLB_CNT_SAT] d
      (Dev.eventLogWriteEff d) :=
  Dev.frame_of_ind (fun hP h => Dev.eventLogWriteEff_ind hP h) (by decide) (by decide)

theorem Dev.holdoffExpiryEff_frame (e : Nat) (d : Dev) :
    Dev.frame [.clock, .bus, .events] [] d (Dev.holdoffExpiryEff e d) :=
  Dev.frame_of_ind (fun hP h => Dev.holdoffExpiryEff_ind hP h) (by decide) (by decide)

theorem Dev.recPlace_frame (d : Dev) (r : Rec) :
    Dev.frame [.lanes, .needles] [] d (Dev.recPlace d r) :=
  Dev.frame_of_ind (fun hP h => Dev.recPlace_ind hP h) (by decide) (by decide)

theorem Dev.closesOut_frame (d : Dev) (l : Nat) :
    Dev.frame [.lanes, .needles] [] d (Dev.closesOut d l) :=
  Dev.frame_of_ind (fun hP h => Dev.closesOut_ind hP h) (by decide) (by decide)

theorem Dev.laneClose_frame (d : Dev) (l : Nat) (outcome : Nat) (k : Nat) (q : Req) :
    Dev.frame [.lanes, .needles] [] d (Dev.laneClose d l outcome k q) :=
  Dev.frame_of_ind (fun hP h => Dev.laneClose_ind hP h) (by decide) (by decide)

theorem Dev.laneCloseAll_frame (d : Dev) (l : Nat) (outcome : Nat) :
    Dev.frame [.lanes, .needles] [] d (Dev.laneCloseAll d l outcome) :=
  Dev.frame_of_ind (fun hP h => Dev.laneCloseAll_ind hP h) (by decide) (by decide)

theorem Dev.skeinOldest_frame (d : Dev) (k : Nat) :
    Dev.frame [] [.REC_SKN_OLDEST] d (Dev.skeinOldest d k) :=
  Dev.frame_of_ind (fun hP h => Dev.skeinOldest_ind hP h) (by decide) (by decide)

theorem Dev.supersede_frame (d : Dev) (l : Nat) (k : Nat) (h : Held) :
    Dev.frame [.lanes, .needles] [.REC_CNT_NOTICE, .GLB_CNT_SAT] d (Dev.supersede d l k h) :=
  Dev.frame_of_ind (fun hP h => Dev.supersede_ind hP h) (by decide) (by decide)

theorem Dev.winPlace_frame (d : Dev) (l : Nat) (q : Req) (p : Nat) :
    Dev.frame [.lanes] [.REC_SKN_CP] d (Dev.winPlace d l q p) :=
  Dev.frame_of_ind (fun hP h => Dev.winPlace_ind hP h) (by decide) (by decide)

theorem Dev.winTry_frame (d : Dev) (l : Nat) (q : Req) :
    Dev.frame [.lanes, .needles, .events] [.REC_LSTAT, .REC_CNT_NOTICE, .REC_SKN_CP, .REC_SKN_OLDEST, .GLB_CNT_SAT] d
      (Dev.winTry d l q) :=
  Dev.frame_of_ind (fun hP h => Dev.winTry_ind hP h) (by decide) (by decide)

theorem Dev.laneActivate_frame (d : Dev) (l : Nat) :
    Dev.frame [.lanes, .needles, .events] [.REC_LSTAT, .REC_CNT_NOTICE, .REC_SKN_CP, .REC_SKN_OLDEST, .GLB_CNT_SAT] d
      (Dev.laneActivate d l) :=
  Dev.frame_of_ind (fun hP h => Dev.laneActivate_ind hP h) (by decide) (by decide)

theorem Dev.requestActiveEff_frame (l : Nat) (d : Dev) :
    Dev.frame [.clock, .bus, .lanes, .needles, .events] [.REC_LSTAT, .REC_CNT_NOTICE, .REC_SKN_CP, .REC_SKN_OLDEST,
      .GLB_CNT_SAT] d (Dev.requestActiveEff l d) :=
  Dev.frame_of_ind (fun hP h => Dev.requestActiveEff_ind hP h) (by decide) (by decide)

theorem Dev.hoistWindowPlacedEff_frame (l : Nat) (d : Dev) :
    Dev.frame [.lanes, .needles, .events] [.REC_LSTAT, .REC_CNT_NOTICE, .REC_SKN_CP, .REC_SKN_OLDEST, .GLB_CNT_SAT] d
      (Dev.hoistWindowPlacedEff l d) :=
  Dev.frame_of_ind (fun hP h => Dev.hoistWindowPlacedEff_ind hP h) (by decide) (by decide)

theorem Dev.heldSync_frame (d : Dev) (l : Nat) :
    Dev.frame [.lanes] [] d (Dev.heldSync d l) :=
  Dev.frame_of_ind (fun hP h => Dev.heldSync_ind hP h) (by decide) (by decide)

theorem Dev.laneOpen_frame (d : Dev) (u : Nat) (inst : Nat) (time : BitVec 128) (l : Nat) :
    Dev.frame [.timeBase, .lanes, .queues, .events] [.TB_ORIGIN_CTL, .REC_SEGNUM, .REC_CNT_SEGWRAP] d (Dev.laneOpen d u
      inst time l) :=
  Dev.frame_of_ind (fun hP h => Dev.laneOpen_ind hP h) (by decide) (by decide)

theorem Dev.laneWrite_frame (d : Dev) (l : Nat) (g : Granule) :
    Dev.frame [.lanes, .tally, .bench, .benchMemory, .tallyMemory] [] d (Dev.laneWrite d l g) :=
  Dev.frame_of_ind (fun hP h => Dev.laneWrite_ind hP h) (by decide) (by decide)

theorem Dev.unitSegEnd_frame (d : Dev) (u : Nat) (l : Nat) (k : Nat) :
    Dev.frame [.trigger] [] d (Dev.unitSegEnd d u l k) :=
  Dev.frame_of_ind (fun hP h => Dev.unitSegEnd_ind hP h) (by decide) (by decide)

theorem Dev.laneEndSeg_frame (d : Dev) (l : Nat) (how : Nat) :
    Dev.frame [.trigger, .lanes, .queues] [.REC_SKN_OLDEST] d (Dev.laneEndSeg d l how) :=
  Dev.frame_of_ind (fun hP h => Dev.laneEndSeg_ind hP h) (by decide) (by decide)

theorem Dev.maskStopDone_frame (d : Dev) (l : Nat) :
    Dev.frame [.lanes, .needles] [] d (Dev.maskStopDone d l) :=
  Dev.frame_of_ind (fun hP h => Dev.maskStopDone_ind hP h) (by decide) (by decide)

theorem Dev.laneRested_frame (d : Dev) (l : Nat) :
    Dev.frame [.lanes] [] d (Dev.laneRested d l) :=
  Dev.frame_of_ind (fun hP h => Dev.laneRested_ind hP h) (by decide) (by decide)

theorem Dev.laneComplete_frame (d : Dev) (l : Nat) :
    Dev.frame [.trigger, .lanes, .needles, .queues] [.REC_SKN_OLDEST] d (Dev.laneComplete d l) :=
  Dev.frame_of_ind (fun hP h => Dev.laneComplete_ind hP h) (by decide) (by decide)

theorem Dev.segmentEndEff_frame (l : Nat) (d : Dev) :
    Dev.frame [.trigger, .lanes, .needles, .queues] [.REC_SKN_OLDEST] d (Dev.segmentEndEff l d) :=
  Dev.frame_of_ind (fun hP h => Dev.segmentEndEff_ind hP h) (by decide) (by decide)

theorem Dev.cutFinish_frame (d : Dev) (l : Nat) :
    Dev.frame [.trigger, .lanes, .needles, .queues] [.REC_SKN_OLDEST] d (Dev.cutFinish d l) :=
  Dev.frame_of_ind (fun hP h => Dev.cutFinish_ind hP h) (by decide) (by decide)

theorem Dev.laneTurn_frame (d : Dev) (l : Nat) :
    Dev.frame [.trigger, .lanes, .tally, .needles, .bench, .queues, .events, .benchMemory, .tallyMemory] [.REC_LSTAT,
      .REC_CNT_NOTICE, .REC_SKN_CP, .REC_SKN_OLDEST, .GLB_CNT_SAT] d (Dev.laneTurn d l) :=
  Dev.frame_of_ind (fun hP h => Dev.laneTurn_ind hP h) (by decide) (by decide)

theorem Dev.laneTail_frame (d : Dev) (l : Nat) (b : Nat) :
    Dev.frame [.lanes] [] d (Dev.laneTail d l b) :=
  Dev.frame_of_ind (fun hP h => Dev.laneTail_ind hP h) (by decide) (by decide)

theorem Dev.laneCut_frame (d : Dev) (l : Nat) (how : Nat) (outcome : Nat) (reqs : List Req) :
    Dev.frame [.trigger, .lanes, .tally, .needles, .bench, .queues, .benchMemory, .tallyMemory] [.REC_SKN_OLDEST] d
      (Dev.laneCut d l how outcome reqs) :=
  Dev.frame_of_ind (fun hP h => Dev.laneCut_ind hP h) (by decide) (by decide)

theorem Dev.laneStop_frame (d : Dev) (l : Nat) (outcome : Nat) (cut : Bool) (b : Option Nat) :
    Dev.frame [.trigger, .lanes, .tally, .needles, .bench, .queues, .benchMemory, .tallyMemory] [.REC_SKN_OLDEST] d
      (Dev.laneStop d l outcome cut b) :=
  Dev.frame_of_ind (fun hP h => Dev.laneStop_ind hP h) (by decide) (by decide)

theorem Dev.laneMaskStop_frame (d : Dev) (l : Nat) :
    Dev.frame [.lanes, .needles] [] d (Dev.laneMaskStop d l) :=
  Dev.frame_of_ind (fun hP h => Dev.laneMaskStop_ind hP h) (by decide) (by decide)

theorem Dev.laneEnableEff_frame (l : Nat) (v : W32) (d : Dev) :
    Dev.frame [.lanes] [.REC_LCTL, .REC_LSTAT] d (Dev.laneEnableEff l v d) :=
  Dev.frame_of_ind (fun hP h => Dev.laneEnableEff_ind hP h) (by decide) (by decide)

theorem Dev.dropShow_frame (d : Dev) :
    Dev.frame [] [.BEN_STAT] d (Dev.dropShow d) :=
  Dev.frame_of_ind (fun hP h => Dev.dropShow_ind hP h) (by decide) (by decide)

theorem Dev.laneOff_frame (d : Dev) (l : Nat) :
    Dev.frame [.lanes] [.REC_LCTL, .BEN_STAT] d (Dev.laneOff d l) :=
  Dev.frame_of_ind (fun hP h => Dev.laneOff_ind hP h) (by decide) (by decide)

theorem Dev.laneSourceChange_frame (d : Dev) (l : Nat) (c : Nat) :
    Dev.frame [.trigger, .lanes, .tally, .needles, .bench, .queues, .benchMemory, .tallyMemory] [.REC_LCTL, .REC_LSTAT,
      .REC_SKN_OLDEST, .BEN_STAT] d (Dev.laneSourceChange d l c) :=
  Dev.frame_of_ind (fun hP h => Dev.laneSourceChange_ind hP h) (by decide) (by decide)

theorem Dev.laneRequest_frame (d : Dev) (l : Nat) (issuer : Nat) (tu : Nat) (pre : Nat) (post : Nat) (rep : Nat) (tag
    : Nat) :
    Dev.frame [.lanes, .events] [.REC_CNT_REFUSED, .GLB_CNT_SAT] d (Dev.laneRequest d l issuer tu pre post rep tag) :=
  Dev.frame_of_ind (fun hP h => Dev.laneRequest_ind hP h) (by decide) (by decide)

theorem Dev.segmentRequestEff_frame (rq : Rq) (l : Nat) (v : W32) (d : Dev) :
    Dev.frame [.lanes, .events] [.REC_REQ_CTL, .REC_REQ_STAT, .REC_CNT_REFUSED, .GLB_CNT_SAT] d (Dev.segmentRequestEff rq
      l v d) :=
  Dev.frame_of_ind (fun hP h => Dev.segmentRequestEff_ind hP h) (by decide) (by decide)

theorem Dev.granuleDrop_frame (d : Dev) (l : Nat) (g : Granule) :
    Dev.frame [.lanes] [.REC_CNT_DROPFR, .BEN_DROP_FIRST, .BEN_CNT_DROPFR, .GLB_CNT_SAT] d (Dev.granuleDrop d l g) :=
  Dev.frame_of_ind (fun hP h => Dev.granuleDrop_ind hP h) (by decide) (by decide)

theorem Dev.dropCut_frame (d : Dev) (l : Nat) :
    Dev.frame [.trigger, .lanes, .needles, .queues] [.REC_SKN_OLDEST] d (Dev.dropCut d l) :=
  Dev.frame_of_ind (fun hP h => Dev.dropCut_ind hP h) (by decide) (by decide)

theorem Dev.poolTake_frame (d : Dev) (l : Nat) (g : Granule) :
    Dev.frame [.trigger, .lanes, .needles, .queues, .events] [.REC_CNT_DROPFR, .REC_SKN_OLDEST, .BEN_STAT,
      .BEN_DROP_FIRST, .BEN_CNT_DROPFR, .GLB_CNT_SAT] d (Dev.poolTake d l g) :=
  Dev.frame_of_ind (fun hP h => Dev.poolTake_ind hP h) (by decide) (by decide)

theorem Dev.laneGranule_frame (d : Dev) (l : Nat) (g : Granule) :
    Dev.frame [.trigger, .lanes, .tally, .needles, .bench, .queues, .events, .benchMemory, .tallyMemory] [.REC_LSTAT,
      .REC_CNT_DROPFR, .REC_CNT_NOTICE, .REC_SKN_CP, .REC_SKN_OLDEST, .BEN_STAT, .BEN_DROP_FIRST, .BEN_CNT_DROPFR,
      .GLB_CNT_SAT] d (Dev.laneGranule d l g) :=
  Dev.frame_of_ind (fun hP h => Dev.laneGranule_ind hP h) (by decide) (by decide)

theorem Dev.dropRunEndEff_frame (l : Nat) (d : Dev) :
    Dev.frame [.trigger, .lanes, .tally, .needles, .bench, .queues, .events, .benchMemory, .tallyMemory] [.REC_LSTAT,
      .REC_CNT_NOTICE, .REC_SKN_CP, .REC_SKN_OLDEST, .BEN_STAT, .GLB_CNT_SAT] d (Dev.dropRunEndEff l d) :=
  Dev.frame_of_ind (fun hP h => Dev.dropRunEndEff_ind hP h) (by decide) (by decide)

theorem Dev.laneLoss_frame (d : Dev) (l : Nat) (k : Nat) :
    Dev.frame [.trigger, .lanes, .tally, .needles, .bench, .queues, .benchMemory, .tallyMemory] [.REC_SKN_OLDEST] d
      (Dev.laneLoss d l k) :=
  Dev.frame_of_ind (fun hP h => Dev.laneLoss_ind hP h) (by decide) (by decide)

theorem Dev.laneFrame_frame (d : Dev) (k : Nat) (l : Nat) :
    Dev.frame [.trigger, .lanes, .tally, .needles, .bench, .queues, .events, .benchMemory, .tallyMemory] [.REC_LSTAT,
      .REC_CNT_DROPFR, .REC_CNT_NOTICE, .REC_SKN_CP, .REC_SKN_OLDEST, .BEN_STAT, .BEN_DROP_FIRST, .BEN_CNT_DROPFR,
      .GLB_CNT_SAT] d (Dev.laneFrame d k l) :=
  Dev.frame_of_ind (fun hP h => Dev.laneFrame_ind hP h) (by decide) (by decide)

theorem Dev.segmentRecordEff_frame (l : Nat) (d : Dev) :
    Dev.frame [.lanes, .needles, .events] [.REC_CNT_TRUNC, .REC_CNT_SEG, .GLB_CNT_SAT] d (Dev.segmentRecordEff l d) :=
  Dev.frame_of_ind (fun hP h => Dev.segmentRecordEff_ind hP h) (by decide) (by decide)

theorem Dev.recordDrainEff_frame (d : Dev) :
    Dev.frame [.clock, .bus, .lanes, .queues, .events] [] d (Dev.recordDrainEff d) :=
  Dev.frame_of_ind (fun hP h => Dev.recordDrainEff_ind hP h) (by decide) (by decide)

theorem Dev.closeEntryFreedEff_frame (l : Nat) (d : Dev) :
    Dev.frame [.lanes, .needles] [] d (Dev.closeEntryFreedEff l d) :=
  Dev.frame_of_ind (fun hP h => Dev.closeEntryFreedEff_ind hP h) (by decide) (by decide)

theorem Dev.skeinDefineEff_frame (k : Nat) (d : Dev) :
    Dev.frame [.lanes, .bench, .events, .benchMemory] [.REC_SKN_CTL, .REC_SKN_CP, .REC_SKN_OLDEST, .BEN_QRY_CAP,
      .BEN_QRY_RETIRE, .BEN_QRY_MIG, .QRY_CSTAT, .HK_DEC_IDX, .HK_DEC] d (Dev.skeinDefineEff k d) :=
  Dev.frame_of_ind (fun hP h => Dev.skeinDefineEff_ind hP h) (by decide) (by decide)

theorem Dev.skeinRewindEff_frame (k : Nat) (d : Dev) :
    Dev.frame [.lanes] [.REC_LSTAT, .REC_SKN_CTL, .REC_SKN_CP, .REC_SKN_OLDEST] d (Dev.skeinRewindEff k d) :=
  Dev.frame_of_ind (fun hP h => Dev.skeinRewindEff_ind hP h) (by decide) (by decide)

theorem Dev.dupShow_frame (d : Dev) :
    Dev.frame [] [.ETH_STAT] d (Dev.dupShow d) :=
  Dev.frame_of_ind (fun hP h => Dev.dupShow_ind hP h) (by decide) (by decide)

theorem Dev.flowUpdate_frame (d : Dev) :
    Dev.frame [.bench, .events] [.BEN_STAT] d (Dev.flowUpdate d) :=
  Dev.frame_of_ind (fun hP h => Dev.flowUpdate_ind hP h) (by decide) (by decide)

theorem Dev.windowAbandon_frame (d : Dev) (p : Nat) (mine : Nat → Bool) :
    Dev.frame [.ports] [.ETH_CNT_ABANDON, .GLB_CNT_SAT] d (Dev.windowAbandon d p mine) :=
  Dev.frame_of_ind (fun hP h => Dev.windowAbandon_ind hP h) (by decide) (by decide)

theorem Dev.hoistTargetEnableEff_frame (t : Nat) (v : W32) (d : Dev) :
    Dev.frame [.bench, .events, .ports, .benchMemory] [.BEN_HT_CTL, .BEN_HT_STREAM, .BEN_HT_WP, .BEN_HT_OLDEST,
      .BEN_QRY_CAP, .BEN_QRY_RETIRE, .BEN_QRY_MIG, .QRY_CSTAT, .ETH_STAT, .ETH_CNT_ABANDON, .GLB_CNT_SAT, .HK_DEC_IDX,
      .HK_DEC] d (Dev.hoistTargetEnableEff t v d) :=
  Dev.frame_of_ind (fun hP h => Dev.hoistTargetEnableEff_ind hP h) (by decide) (by decide)

theorem Dev.replayGoEff_frame (t : Nat) (d : Dev) :
    Dev.frame [.bench] [.BEN_HT_WP] d (Dev.replayGoEff t d) :=
  Dev.frame_of_ind (fun hP h => Dev.replayGoEff_ind hP h) (by decide) (by decide)

theorem Dev.hoistDelivered_frame (d : Dev) (k : Nat) (t : Nat) (outcome : Nat) (h : Held) :
    Dev.frame [.lanes, .bench] [.REC_SKN_OLDEST] d (Dev.hoistDelivered d k t outcome h) :=
  Dev.frame_of_ind (fun hP h => Dev.hoistDelivered_ind hP h) (by decide) (by decide)

theorem Dev.tgtOldest_frame (d : Dev) (t : Nat) :
    Dev.frame [] [.BEN_HT_OLDEST] d (Dev.tgtOldest d t) :=
  Dev.frame_of_ind (fun hP h => Dev.tgtOldest_ind hP h) (by decide) (by decide)

theorem Dev.pieceQuarry_frame (d : Dev) (k : Nat) (t : Nat) (s : Skein) (h : Held) (total : Nat) (n : Nat) :
    Dev.frame [.lanes, .tally, .bench, .events, .benchMemory, .tallyMemory] [.REC_SKN_OLDEST, .BEN_HT_STREAM, .BEN_HT_WP,
      .BEN_HT_OLDEST, .BEN_HT_CNT_OVW, .GLB_CNT_SAT] d (Dev.pieceQuarry d k t s h total n) :=
  Dev.frame_of_ind (fun hP h => Dev.pieceQuarry_ind hP h) (by decide) (by decide)

theorem Dev.pieceStream_frame (d : Dev) (k : Nat) (t : Nat) (s : Skein) (h : Held) (n : Nat) :
    Dev.frame [.lanes, .bench] [] d (Dev.pieceStream d k t s h n) :=
  Dev.frame_of_ind (fun hP h => Dev.pieceStream_ind hP h) (by decide) (by decide)

theorem Dev.hoistPieceEff_frame (d : Dev) :
    Dev.frame [.lanes, .tally, .bench, .events, .benchMemory, .tallyMemory] [.REC_SKN_OLDEST, .BEN_STAT, .BEN_HT_STREAM,
      .BEN_HT_WP, .BEN_HT_OLDEST, .BEN_HT_CNT_OVW, .GLB_CNT_SAT] d (Dev.hoistPieceEff d) :=
  Dev.frame_of_ind (fun hP h => Dev.hoistPieceEff_ind hP h) (by decide) (by decide)

theorem Dev.hoistReleaseWriteEff_frame (t : Nat) (rel : Nat) (d : Dev) :
    Dev.frame [.bench] [.BEN_HT_STREAM, .BEN_HT_REL] d (Dev.hoistReleaseWriteEff t rel d) :=
  Dev.frame_of_ind (fun hP h => Dev.hoistReleaseWriteEff_ind hP h) (by decide) (by decide)

theorem Dev.hoistEntryEff_frame (t : Nat) (d : Dev) :
    Dev.frame [.bench, .queues, .events] [.BEN_HT_CNT_SEG] d (Dev.hoistEntryEff t d) :=
  Dev.frame_of_ind (fun hP h => Dev.hoistEntryEff_ind hP h) (by decide) (by decide)

theorem Dev.replayDoneEff_frame (t : Nat) (d : Dev) :
    Dev.frame [.bench, .queues, .events] [.BEN_HT_WP, .BEN_HT_CNT_SEG] d (Dev.replayDoneEff t d) :=
  Dev.frame_of_ind (fun hP h => Dev.replayDoneEff_ind hP h) (by decide) (by decide)

theorem Dev.hoistAbort_frame (d : Dev) :
    Dev.frame [.lanes, .bench, .queues, .events] [.REC_SKN_OLDEST, .BEN_HT_CNT_SEG] d (Dev.hoistAbort d) :=
  Dev.frame_of_ind (fun hP h => Dev.hoistAbort_ind hP h) (by decide) (by decide)

theorem Dev.swapBanks_frame (d : Dev) (u : Nat) :
    Dev.frame [] [.TRG_CMP, .TRG_CMP_ACT, .TRG_SLOTA, .TRG_SLOTA_ACT, .TRG_SLOTB, .TRG_SLOTB_ACT, .TRG_SLOTA_T1,
      .TRG_SLOTA_T1_ACT, .TRG_SLOTA_T2, .TRG_SLOTA_T2_ACT, .TRG_SLOTB_T1, .TRG_SLOTB_T1_ACT, .TRG_SLOTB_T2,
      .TRG_SLOTB_T2_ACT, .TRG_SEQ_DLY, .TRG_SEQ_DLY_ACT, .TRG_SEQ, .TRG_SEQ_ACT, .TRG_HOLD, .TRG_HOLD_ACT,
      .TRG_HOLD_T, .TRG_HOLD_T_ACT, .TRG_HOLD_MAX, .TRG_HOLD_MAX_ACT, .TRG_PAT_CTL, .TRG_PAT_CTL_ACT, .TRG_PAT_MASK,
      .TRG_PAT_MASK_ACT, .TRG_PAT_VAL, .TRG_PAT_VAL_ACT] d (Dev.swapBanks d u) :=
  Dev.frame_of_ind (fun hP h => Dev.swapBanks_ind hP h) (by decide) (by decide)

theorem Dev.prfRefuse_frame (d : Dev) (u : Nat) (why : Nat) :
    Dev.frame [.events] [.TRG_STAT, .TRG_PRF_DROP, .GLB_CNT_SAT] d (Dev.prfRefuse d u why) :=
  Dev.frame_of_ind (fun hP h => Dev.prfRefuse_ind hP h) (by decide) (by decide)

theorem Dev.prfCommitEff_frame (u : Nat) (d : Dev) :
    Dev.frame [.trigger, .events] [.TRG_STAT, .TRG_PRF_DROP, .GLB_CNT_SAT] d (Dev.prfCommitEff u d) :=
  Dev.frame_of_ind (fun hP h => Dev.prfCommitEff_ind hP h) (by decide) (by decide)

theorem Dev.prfSwitchEff_frame (u : Nat) (d : Dev) :
    Dev.frame [.clock, .bus, .trigger, .events] [.TRG_STAT, .TRG_CMP, .TRG_CMP_ACT, .TRG_SLOTA, .TRG_SLOTA_ACT,
      .TRG_SLOTB, .TRG_SLOTB_ACT, .TRG_SLOTA_T1, .TRG_SLOTA_T1_ACT, .TRG_SLOTA_T2, .TRG_SLOTA_T2_ACT, .TRG_SLOTB_T1,
      .TRG_SLOTB_T1_ACT, .TRG_SLOTB_T2, .TRG_SLOTB_T2_ACT, .TRG_SEQ_DLY, .TRG_SEQ_DLY_ACT, .TRG_SEQ, .TRG_SEQ_ACT,
      .TRG_HOLD, .TRG_HOLD_ACT, .TRG_HOLD_T, .TRG_HOLD_T_ACT, .TRG_HOLD_MAX, .TRG_HOLD_MAX_ACT, .TRG_PAT_CTL,
      .TRG_PAT_CTL_ACT, .TRG_PAT_MASK, .TRG_PAT_MASK_ACT, .TRG_PAT_VAL, .TRG_PAT_VAL_ACT] d (Dev.prfSwitchEff u d) :=
  Dev.frame_of_ind (fun hP h => Dev.prfSwitchEff_ind hP h) (by decide) (by decide)

theorem Dev.cmpFrame_frame (d : Dev) (u : Nat) (m : Nat) (f : Frame) :
    Dev.frame [.trigger] [] d (Dev.cmpFrame d u m f) :=
  Dev.frame_of_ind (fun hP h => Dev.cmpFrame_ind hP h) (by decide) (by decide)

theorem Dev.unitFrame_frame (d : Dev) (c : Nat) (f : Frame) (u : Nat) :
    Dev.frame [.trigger] [] d (Dev.unitFrame d c f u) :=
  Dev.frame_of_ind (fun hP h => Dev.unitFrame_ind hP h) (by decide) (by decide)

theorem Dev.unitLate_frame (d : Dev) (u : Nat) (s : Nat) :
    Dev.frame [.events] [.TRG_CNT_LATE, .GLB_CNT_SAT] d (Dev.unitLate d u s) :=
  Dev.frame_of_ind (fun hP h => Dev.unitLate_ind hP h) (by decide) (by decide)

theorem Dev.toUnits_frame (d : Dev) (k : Nat) (c : Change) :
    Dev.frame [.trigger] [] d (Dev.toUnits d k c) :=
  Dev.frame_of_ind (fun hP h => Dev.toUnits_ind hP h) (by decide) (by decide)

theorem Dev.msgToUnits_frame (d : Dev) (m : TrigMsg) :
    Dev.frame [.trigger] [] d (Dev.msgToUnits d m) :=
  Dev.frame_of_ind (fun hP h => Dev.msgToUnits_ind hP h) (by decide) (by decide)

theorem Dev.levelSourceChangeEff_frame (u : Nat) (d : Dev) :
    Dev.frame [.clock, .bus, .trigger, .events] [.TRG_CNT_LATE, .GLB_CNT_SAT] d (Dev.levelSourceChangeEff u d) :=
  Dev.frame_of_ind (fun hP h => Dev.levelSourceChangeEff_ind hP h) (by decide) (by decide)

theorem Dev.tcmpSet_frame (d : Dev) (u : Nat) (t : Nat) :
    Dev.frame [.trigger, .events] [.TRG_TCMP_CTL, .TRG_CNT_LATE, .GLB_CNT_SAT] d (Dev.tcmpSet d u t) :=
  Dev.frame_of_ind (fun hP h => Dev.tcmpSet_ind hP h) (by decide) (by decide)

theorem Dev.tcmpLoadEff_frame (u : Nat) (era : Nat) (d : Dev) :
    Dev.frame [.trigger, .events] [.TRG_TCMP_CTL, .TRG_CNT_LATE, .GLB_CNT_SAT] d (Dev.tcmpLoadEff u era d) :=
  Dev.frame_of_ind (fun hP h => Dev.tcmpLoadEff_ind hP h) (by decide) (by decide)

theorem Dev.timeCompareEff_frame (u : Nat) (d : Dev) :
    Dev.frame [.clock, .bus, .trigger, .events] [.TRG_TCMP_CTL, .TRG_CNT_LATE, .GLB_CNT_SAT] d (Dev.timeCompareEff u d) :=
  Dev.frame_of_ind (fun hP h => Dev.timeCompareEff_ind hP h) (by decide) (by decide)

theorem Dev.timedTriggerMessageEff_frame (u : Nat) (d : Dev) :
    Dev.frame [.trigger, .events] [.TRG_CNT_LATE, .GLB_CNT_SAT] d (Dev.timedTriggerMessageEff u d) :=
  Dev.frame_of_ind (fun hP h => Dev.timedTriggerMessageEff_ind hP h) (by decide) (by decide)

theorem Dev.trgForceEff_frame (u : Nat) (d : Dev) :
    Dev.frame [.trigger] [] d (Dev.trgForceEff u d) :=
  Dev.frame_of_ind (fun hP h => Dev.trgForceEff_ind hP h) (by decide) (by decide)

theorem Dev.trgEnWriteEff_frame (u : Nat) (en : Bool) (d : Dev) :
    Dev.frame [.trigger] [.TRG_CTL] d (Dev.trgEnWriteEff u en d) :=
  Dev.frame_of_ind (fun hP h => Dev.trgEnWriteEff_ind hP h) (by decide) (by decide)

theorem Dev.trgArmArmEff_frame (u : Nat) (d : Dev) :
    Dev.frame [.trigger] [] d (Dev.trgArmArmEff u d) :=
  Dev.frame_of_ind (fun hP h => Dev.trgArmArmEff_ind hP h) (by decide) (by decide)

theorem Dev.trgArmDisarmEff_frame (u : Nat) (d : Dev) :
    Dev.frame [.trigger] [] d (Dev.trgArmDisarmEff u d) :=
  Dev.frame_of_ind (fun hP h => Dev.trgArmDisarmEff_ind hP h) (by decide) (by decide)

theorem Dev.armOne_frame (d : Dev) (u : Nat) (arm : Bool) :
    Dev.frame [.trigger, .events] [.TRG_STAT] d (Dev.armOne d u arm) :=
  Dev.frame_of_ind (fun hP h => Dev.armOne_ind hP h) (by decide) (by decide)

theorem Dev.armingEffectEff_frame (u : Nat) (d : Dev) :
    Dev.frame [.clock, .bus, .trigger, .events] [.TRG_STAT] d (Dev.armingEffectEff u d) :=
  Dev.frame_of_ind (fun hP h => Dev.armingEffectEff_ind hP h) (by decide) (by decide)

theorem Dev.holdRestart_frame (d : Dev) (u : Nat) (t : Nat) (p : Profile) :
    Dev.frame [.trigger] [.TRG_LFSR] d (Dev.holdRestart d u t p) :=
  Dev.frame_of_ind (fun hP h => Dev.holdRestart_ind hP h) (by decide) (by decide)

theorem Dev.candidate_frame (d : Dev) (u : Nat) (t : Nat) (interp : Bool) :
    Dev.frame [.timeBase, .trigger, .lanes, .tally, .queues, .events] [.TB_ORIGIN_CTL, .TRG_LFSR, .TRG_LAST,
      .TRG_OVR_FIRST, .TRG_CNT_ACC, .TRG_CNT_FILL, .TRG_CNT_HOLD, .TRG_CNT_BUSY, .TRG_CNT_OVR, .REC_SEGNUM,
      .REC_CNT_SEGWRAP, .GLB_CNT_SAT] d (Dev.candidate d u t interp) :=
  Dev.frame_of_ind (fun hP h => Dev.candidate_ind hP h) (by decide) (by decide)

theorem Dev.applyCtl_frame (d : Dev) (u : Nat) (k : Nat) (c : Ctl) :
    Dev.frame [.trigger] [] d (Dev.applyCtl d u k c) :=
  Dev.frame_of_ind (fun hP h => Dev.applyCtl_ind hP h) (by decide) (by decide)

theorem Dev.unitOutputs_frame (d : Dev) (u : Nat) (t : Nat) (outA : Bool) (outB : Bool) (rst : Bool) (ipA : Bool) (ipB
    : Bool) :
    Dev.frame [.timeBase, .trigger, .lanes, .tally, .queues, .events] [.TB_ORIGIN_CTL, .TRG_LFSR, .TRG_LAST,
      .TRG_OVR_FIRST, .TRG_CNT_ACC, .TRG_CNT_FILL, .TRG_CNT_HOLD, .TRG_CNT_BUSY, .TRG_CNT_OVR, .REC_SEGNUM,
      .REC_CNT_SEGWRAP, .GLB_CNT_SAT] d (Dev.unitOutputs d u t outA outB rst ipA ipB) :=
  Dev.frame_of_ind (fun hP h => Dev.unitOutputs_ind hP h) (by decide) (by decide)

theorem Dev.decideAt_frame (d : Dev) (u : Nat) (t : Nat) (cs : List Change) :
    Dev.frame [.timeBase, .trigger, .lanes, .tally, .queues, .events] [.TB_ORIGIN_CTL, .TRG_LFSR, .TRG_LAST,
      .TRG_OVR_FIRST, .TRG_CNT_ACC, .TRG_CNT_FILL, .TRG_CNT_HOLD, .TRG_CNT_BUSY, .TRG_CNT_OVR, .REC_SEGNUM,
      .REC_CNT_SEGWRAP, .GLB_CNT_SAT] d (Dev.decideAt d u t cs) :=
  Dev.frame_of_ind (fun hP h => Dev.decideAt_ind hP h) (by decide) (by decide)

theorem Dev.triggerDecisionEff_frame (u : Nat) (f : Nat) (d : Dev) :
    Dev.frame [.clock, .bus, .timeBase, .trigger, .lanes, .tally, .queues, .events] [.TB_ORIGIN_CTL, .TRG_LFSR, .TRG_LAST,
      .TRG_OVR_FIRST, .TRG_CNT_ACC, .TRG_CNT_FILL, .TRG_CNT_HOLD, .TRG_CNT_BUSY, .TRG_CNT_OVR, .REC_SEGNUM,
      .REC_CNT_SEGWRAP, .GLB_CNT_SAT] d (Dev.triggerDecisionEff u f d) :=
  Dev.frame_of_ind (fun hP h => Dev.triggerDecisionEff_ind hP h) (by decide) (by decide)

theorem Dev.laneCatch_frame (d : Dev) (l : Nat) :
    Dev.frame [.clock, .bus, .timeBase, .trigger, .lanes, .tally, .needles, .bench, .queues, .events, .benchMemory,
      .tallyMemory] [.TB_ORIGIN_CTL, .TRG_LFSR, .TRG_LAST, .TRG_OVR_FIRST, .TRG_CNT_ACC, .TRG_CNT_FILL, .TRG_CNT_HOLD,
      .TRG_CNT_BUSY, .TRG_CNT_OVR, .REC_LSTAT, .REC_SEGNUM, .REC_CNT_DROPFR, .REC_CNT_NOTICE, .REC_CNT_SEGWRAP,
      .REC_SKN_CP, .REC_SKN_OLDEST, .BEN_STAT, .BEN_DROP_FIRST, .BEN_CNT_DROPFR, .GLB_CNT_SAT] d (Dev.laneCatch d l)
      :=
  Dev.frame_of_ind (fun hP h => Dev.laneCatch_ind hP h) (by decide) (by decide)

theorem Dev.laneEndNow_frame (d : Dev) (l : Nat) (outcome : Nat) (cut : Bool) :
    Dev.frame [.clock, .bus, .timeBase, .trigger, .lanes, .tally, .needles, .bench, .queues, .events, .benchMemory,
      .tallyMemory] [.TB_ORIGIN_CTL, .TRG_LFSR, .TRG_LAST, .TRG_OVR_FIRST, .TRG_CNT_ACC, .TRG_CNT_FILL, .TRG_CNT_HOLD,
      .TRG_CNT_BUSY, .TRG_CNT_OVR, .REC_LSTAT, .REC_SEGNUM, .REC_CNT_DROPFR, .REC_CNT_NOTICE, .REC_CNT_SEGWRAP,
      .REC_SKN_CP, .REC_SKN_OLDEST, .BEN_STAT, .BEN_DROP_FIRST, .BEN_CNT_DROPFR, .GLB_CNT_SAT] d (Dev.laneEndNow d l
      outcome cut) :=
  Dev.frame_of_ind (fun hP h => Dev.laneEndNow_ind hP h) (by decide) (by decide)

theorem Dev.laneFlushEff_frame (l : Nat) (d : Dev) :
    Dev.frame [.clock, .bus, .timeBase, .trigger, .lanes, .tally, .needles, .bench, .queues, .events, .benchMemory,
      .tallyMemory] [.TB_ORIGIN_CTL, .TRG_LFSR, .TRG_LAST, .TRG_OVR_FIRST, .TRG_CNT_ACC, .TRG_CNT_FILL, .TRG_CNT_HOLD,
      .TRG_CNT_BUSY, .TRG_CNT_OVR, .REC_LSTAT, .REC_SEGNUM, .REC_CNT_DROPFR, .REC_CNT_NOTICE, .REC_CNT_SEGWRAP,
      .REC_SKN_CP, .REC_SKN_OLDEST, .BEN_STAT, .BEN_DROP_FIRST, .BEN_CNT_DROPFR, .GLB_CNT_SAT] d (Dev.laneFlushEff l
      d) :=
  Dev.frame_of_ind (fun hP h => Dev.laneFlushEff_ind hP h) (by decide) (by decide)

theorem Dev.laneDisableEff_frame (l : Nat) (d : Dev) :
    Dev.frame [.clock, .bus, .timeBase, .trigger, .lanes, .tally, .needles, .bench, .queues, .events, .benchMemory,
      .tallyMemory] [.TB_ORIGIN_CTL, .TRG_LFSR, .TRG_LAST, .TRG_OVR_FIRST, .TRG_CNT_ACC, .TRG_CNT_FILL, .TRG_CNT_HOLD,
      .TRG_CNT_BUSY, .TRG_CNT_OVR, .REC_LCTL, .REC_LSTAT, .REC_SEGNUM, .REC_CNT_DROPFR, .REC_CNT_NOTICE,
      .REC_CNT_SEGWRAP, .REC_SKN_CP, .REC_SKN_OLDEST, .BEN_STAT, .BEN_DROP_FIRST, .BEN_CNT_DROPFR, .GLB_CNT_SAT] d
      (Dev.laneDisableEff l d) :=
  Dev.frame_of_ind (fun hP h => Dev.laneDisableEff_ind hP h) (by decide) (by decide)

theorem Dev.groupShow_frame (d : Dev) (g : Nat) (b : Bool) :
    Dev.frame [.eventInputs] [] d (Dev.groupShow d g b) :=
  Dev.frame_of_ind (fun hP h => Dev.groupShow_ind hP h) (by decide) (by decide)

theorem Dev.levelClear_frame (d : Dev) (i : Nat) :
    Dev.frame [.trigger, .eventInputs] [] d (Dev.levelClear d i) :=
  Dev.frame_of_ind (fun hP h => Dev.levelClear_ind hP h) (by decide) (by decide)

theorem Dev.enterTiming_frame (d : Dev) (i : Nat) :
    Dev.frame [.eventInputs] [.EVI_ISTAT, .EVI_SEQ] d (Dev.enterTiming d i) :=
  Dev.frame_of_ind (fun hP h => Dev.enterTiming_ind hP h) (by decide) (by decide)

theorem Dev.groupSwitch_frame (d : Dev) (g : Nat) (old : Nat) (new : Nat) :
    Dev.frame [.draws, .trigger, .eventInputs] [.EVI_ISTAT, .EVI_SEQ, .TST_CTL, .TST_STAT, .TST_BITS, .TST_ERRS] d
      (Dev.groupSwitch d g old new) :=
  Dev.frame_of_ind (fun hP h => Dev.groupSwitch_ind hP h) (by decide) (by decide)

theorem Dev.eviGmodeWriteEff_frame (v : Nat) (d : Dev) :
    Dev.frame [.draws, .trigger, .eventInputs] [.EVI_GMODE, .EVI_GSTAT, .EVI_ISTAT, .EVI_SEQ, .TST_CTL, .TST_STAT,
      .TST_BITS, .TST_ERRS] d (Dev.eviGmodeWriteEff v d) :=
  Dev.frame_of_ind (fun hP h => Dev.eviGmodeWriteEff_ind hP h) (by decide) (by decide)

theorem Dev.groupReadyEff_frame (g : Nat) (d : Dev) :
    Dev.frame [.eventInputs, .events] [.HK_PD_STAT, .HK_DEC_IDX, .HK_DEC] d (Dev.groupReadyEff g d) :=
  Dev.frame_of_ind (fun hP h => Dev.groupReadyEff_ind hP h) (by decide) (by decide)

theorem Dev.toFifo_frame (d : Dev) (i : Nat) (s : Stamp) :
    Dev.frame [.bus, .eventInputs, .events] [.EVI_ISTAT, .EVI_CNT_FIFO, .GLB_CNT_SAT] d (Dev.toFifo d i s) :=
  Dev.frame_of_ind (fun hP h => Dev.toFifo_ind hP h) (by decide) (by decide)

theorem Dev.toIus_frame (d : Dev) (i : Nat) (s : Stamp) (rise : Bool) :
    Dev.frame [.eventInputs] [] d (Dev.toIus d i s rise) :=
  Dev.frame_of_ind (fun hP h => Dev.toIus_ind hP h) (by decide) (by decide)

theorem Dev.iuResult_frame (d : Dev) (u : Nat) (start : Stamp) (stop : Stamp) :
    Dev.frame [.bus, .eventInputs, .events] [.EVI_ISTAT, .EVI_IU_CNT_DROP, .EVI_IU_CNT_RES, .GLB_CNT_SAT] d (Dev.iuResult
      d u start stop) :=
  Dev.frame_of_ind (fun hP h => Dev.iuResult_ind hP h) (by decide) (by decide)

theorem Dev.iuHold_frame (d : Dev) (u : Nat) (s : IuStamp) :
    Dev.frame [.bus, .eventInputs, .events] [.EVI_ISTAT, .EVI_IU_CNT_LOST, .GLB_CNT_SAT] d (Dev.iuHold d u s) :=
  Dev.frame_of_ind (fun hP h => Dev.iuHold_ind hP h) (by decide) (by decide)

theorem Dev.iuStamp_frame (d : Dev) (u : Nat) (s : IuStamp) :
    Dev.frame [.bus, .eventInputs, .events] [.EVI_ISTAT, .EVI_IU_CNT_EARLY, .EVI_IU_CNT_LOST, .EVI_IU_CNT_DROP,
      .EVI_IU_CNT_RES, .GLB_CNT_SAT] d (Dev.iuStamp d u s) :=
  Dev.frame_of_ind (fun hP h => Dev.iuStamp_ind hP h) (by decide) (by decide)

theorem Dev.iuSettle_frame (d : Dev) (u : Nat) :
    Dev.frame [.bus, .eventInputs, .events] [.EVI_ISTAT, .EVI_IU_STAT, .EVI_IU_CNT_EARLY, .EVI_IU_CNT_LOST,
      .EVI_IU_CNT_DROP, .EVI_IU_CNT_RES, .GLB_CNT_SAT] d (Dev.iuSettle d u) :=
  Dev.frame_of_ind (fun hP h => Dev.iuSettle_ind hP h) (by decide) (by decide)

theorem Dev.intervalDrainEff_frame (u : Nat) (d : Dev) :
    Dev.frame [.clock, .bus, .eventInputs, .queues, .events] [.EVI_ISTAT, .EVI_IU_STAT, .EVI_IU_CNT_EARLY,
      .EVI_IU_CNT_LOST, .EVI_IU_CNT_DROP, .EVI_IU_CNT_RES, .GLB_CNT_SAT] d (Dev.intervalDrainEff u d) :=
  Dev.frame_of_ind (fun hP h => Dev.intervalDrainEff_ind hP h) (by decide) (by decide)

theorem Dev.iuCfgWriteEff_frame (u : Nat) (v : W32) (d : Dev) :
    Dev.frame [.bus, .eventInputs, .events] [.EVI_ISTAT, .EVI_IU_CFG, .EVI_IU_STAT, .EVI_IU_CNT_EARLY, .EVI_IU_CNT_LOST,
      .EVI_IU_CNT_DROP, .EVI_IU_CNT_RES, .GLB_CNT_SAT] d (Dev.iuCfgWriteEff u v d) :=
  Dev.frame_of_ind (fun hP h => Dev.iuCfgWriteEff_ind hP h) (by decide) (by decide)

theorem Dev.edgeAccepted_frame (d : Dev) (i : Nat) (t : Nat) (rise : Bool) :
    Dev.frame [.bus, .trigger, .eventInputs, .events] [.EVI_ISTAT, .EVI_SEQ, .EVI_CNT_STAMP, .EVI_CNT_FIFO, .EVI_IU_STAT,
      .EVI_IU_CNT_EARLY, .EVI_IU_CNT_LOST, .EVI_IU_CNT_DROP, .EVI_IU_CNT_RES, .GLB_CNT_SAT] d (Dev.edgeAccepted d i t
      rise) :=
  Dev.frame_of_ind (fun hP h => Dev.edgeAccepted_ind hP h) (by decide) (by decide)

theorem Dev.noclkFold_frame (d : Dev) (i : Nat) :
    Dev.frame [.bus, .eventInputs] [.EVI_ISTAT, .EVI_CNT_NOCLK, .GLB_CNT_SAT] d (Dev.noclkFold d i) :=
  Dev.frame_of_ind (fun hP h => Dev.noclkFold_ind hP h) (by decide) (by decide)

theorem Dev.noclkRaise_frame (d : Dev) (i : Nat) (k : Nat) :
    Dev.frame [.events] [] d (Dev.noclkRaise d i k) :=
  Dev.frame_of_ind (fun hP h => Dev.noclkRaise_ind hP h) (by decide) (by decide)

theorem Dev.noclkEdge_frame (d : Dev) (i : Nat) (k : Nat) :
    Dev.frame [.clock, .bus, .eventInputs, .events] [.EVI_ISTAT, .EVI_CNT_NOCLK, .GLB_CNT_SAT] d (Dev.noclkEdge d i k) :=
  Dev.frame_of_ind (fun hP h => Dev.noclkEdge_ind hP h) (by decide) (by decide)

theorem Dev.eventEdgeEff_frame (i : Nat) (k : Nat) (b : Nat) (rise : Bool) (d : Dev) :
    Dev.frame [.clock, .bus, .trigger, .eventInputs, .events] [.EVI_ISTAT, .EVI_SEQ, .EVI_CNT_STAMP, .EVI_CNT_DEAD,
      .EVI_CNT_FIFO, .EVI_CNT_CAL, .EVI_CNT_NOCLK, .EVI_IU_STAT, .EVI_IU_CNT_EARLY, .EVI_IU_CNT_LOST,
      .EVI_IU_CNT_DROP, .EVI_IU_CNT_RES, .GLB_CNT_SAT] d (Dev.eventEdgeEff i k b rise d) :=
  Dev.frame_of_ind (fun hP h => Dev.eventEdgeEff_ind hP h) (by decide) (by decide)

theorem Dev.eviRelock_frame (d : Dev) :
    Dev.frame [.events] [] d (Dev.eviRelock d) :=
  Dev.frame_of_ind (fun hP h => Dev.eviRelock_ind hP h) (by decide) (by decide)

theorem Dev.logicChange_frame (d : Dev) (g : Nat) (k : Nat) (n : Nat) (m : Nat) (v : BitVec 16) (shift : List Int) :
    Dev.frame [.trigger, .eventInputs, .events] [] d (Dev.logicChange d g k n m v shift) :=
  Dev.frame_of_ind (fun hP h => Dev.logicChange_ind hP h) (by decide) (by decide)

theorem Dev.logicSampleEff_frame (g : Nat) (k : Nat) (samples : List (BitVec 16)) (d : Dev) :
    Dev.frame [.clock, .bus, .logic, .trigger, .eventInputs, .events] [.EVI_NRDY_FR, .GLB_CNT_SAT] d (Dev.logicSampleEff g
      k samples d) :=
  Dev.frame_of_ind (fun hP h => Dev.logicSampleEff_ind hP h) (by decide) (by decide)

theorem Dev.batchWrite_frame (d : Dev) (i : Nat) (flushed : Bool) :
    Dev.frame [.eventInputs, .queues] [] d (Dev.batchWrite d i flushed) :=
  Dev.frame_of_ind (fun hP h => Dev.batchWrite_ind hP h) (by decide) (by decide)

theorem Dev.batchAdd_frame (d : Dev) (i : Nat) (s : Stamp) :
    Dev.frame [.eventInputs, .queues] [] d (Dev.batchAdd d i s) :=
  Dev.frame_of_ind (fun hP h => Dev.batchAdd_ind hP h) (by decide) (by decide)

theorem Dev.stampOut_frame (d : Dev) (i : Nat) (s : Stamp) :
    Dev.frame [.trigger, .lanes, .tally, .eventInputs, .needles, .bench, .queues, .events, .benchMemory, .tallyMemory]
      [.REC_LSTAT, .REC_CNT_DROPFR, .REC_CNT_NOTICE, .REC_SKN_CP, .REC_SKN_OLDEST, .BEN_STAT, .BEN_DROP_FIRST,
      .BEN_CNT_DROPFR, .GLB_CNT_SAT] d (Dev.stampOut d i s) :=
  Dev.frame_of_ind (fun hP h => Dev.stampOut_ind hP h) (by decide) (by decide)

theorem Dev.stampCollectEff_frame (d : Dev) :
    Dev.frame [.clock, .bus, .trigger, .lanes, .tally, .eventInputs, .needles, .bench, .queues, .events, .benchMemory,
      .tallyMemory] [.REC_LSTAT, .REC_CNT_DROPFR, .REC_CNT_NOTICE, .REC_SKN_CP, .REC_SKN_OLDEST, .BEN_STAT,
      .BEN_DROP_FIRST, .BEN_CNT_DROPFR, .GLB_CNT_SAT] d (Dev.stampCollectEff d) :=
  Dev.frame_of_ind (fun hP h => Dev.stampCollectEff_ind hP h) (by decide) (by decide)

theorem Dev.batchTimeoutEff_frame (i : Nat) (d : Dev) :
    Dev.frame [.clock, .bus, .eventInputs, .queues, .events] [] d (Dev.batchTimeoutEff i d) :=
  Dev.frame_of_ind (fun hP h => Dev.batchTimeoutEff_ind hP h) (by decide) (by decide)

theorem Dev.eviIcfgWriteEff_frame (i : Nat) (v : W32) (d : Dev) :
    Dev.frame [.eventInputs, .queues] [.EVI_ICFG] d (Dev.eviIcfgWriteEff i v d) :=
  Dev.frame_of_ind (fun hP h => Dev.eviIcfgWriteEff_ind hP h) (by decide) (by decide)

theorem Dev.gaugeBegin_frame (d : Dev) (i : Nat) :
    Dev.frame [.eventInputs] [.EVI_GAUGE_STAT, .EVI_ISTAT] d (Dev.gaugeBegin d i) :=
  Dev.frame_of_ind (fun hP h => Dev.gaugeBegin_ind hP h) (by decide) (by decide)

theorem Dev.gaugeStartEff_frame (i : Nat) (d : Dev) :
    Dev.frame [.eventInputs] [.EVI_GAUGE_CTL, .EVI_GAUGE_STAT, .EVI_ISTAT] d (Dev.gaugeStartEff i d) :=
  Dev.frame_of_ind (fun hP h => Dev.gaugeStartEff_ind hP h) (by decide) (by decide)

theorem Dev.gaugeAutoEff_frame (i : Nat) (d : Dev) :
    Dev.frame [.eventInputs] [.EVI_GAUGE_STAT, .EVI_ISTAT] d (Dev.gaugeAutoEff i d) :=
  Dev.frame_of_ind (fun hP h => Dev.gaugeAutoEff_ind hP h) (by decide) (by decide)

theorem Dev.gaugeResultEff_frame (hits : List Nat) (d : Dev) :
    Dev.frame [.bus, .eventInputs, .events] [.EVI_GAUGE_STAT, .EVI_ISTAT, .HK_DEC_IDX, .HK_DEC] d (Dev.gaugeResultEff hits
      d) :=
  Dev.frame_of_ind (fun hP h => Dev.gaugeResultEff_ind hP h) (by decide) (by decide)

theorem Dev.gaugeSave_frame (d : Dev) :
    Dev.frame [.eventInputs] [] d (Dev.gaugeSave d) :=
  Dev.frame_of_ind (fun hP h => Dev.gaugeSave_ind hP h) (by decide) (by decide)

theorem Dev.gaugeTableSaveEff_frame (d : Dev) :
    Dev.frame [.clock, .bus, .eventInputs, .events] [] d (Dev.gaugeTableSaveEff d) :=
  Dev.frame_of_ind (fun hP h => Dev.gaugeTableSaveEff_ind hP h) (by decide) (by decide)

theorem Dev.eviSettle_frame (d : Dev) (r : Reg) :
    Dev.frame [.bus, .eventInputs, .events] [.EVI_ISTAT, .EVI_CNT_NOCLK, .EVI_IU_STAT, .EVI_IU_CNT_EARLY,
      .EVI_IU_CNT_LOST, .EVI_IU_CNT_DROP, .EVI_IU_CNT_RES, .GLB_CNT_SAT] d (Dev.eviSettle d r) :=
  Dev.frame_of_ind (fun hP h => Dev.eviSettle_ind hP h) (by decide) (by decide)

theorem Dev.eviDrain_frame (d : Dev) :
    Dev.frame [.bus, .trigger, .lanes, .tally, .eventInputs, .needles, .bench, .queues, .events, .benchMemory,
      .tallyMemory] [.REC_LSTAT, .REC_CNT_DROPFR, .REC_CNT_NOTICE, .REC_SKN_CP, .REC_SKN_OLDEST, .EVI_GAUGE_STAT,
      .EVI_ISTAT, .EVI_IU_STAT, .EVI_IU_CNT_EARLY, .EVI_IU_CNT_LOST, .EVI_IU_CNT_DROP, .EVI_IU_CNT_RES, .BEN_STAT,
      .BEN_DROP_FIRST, .BEN_CNT_DROPFR, .GLB_CNT_SAT] d (Dev.eviDrain d) :=
  Dev.frame_of_ind (fun hP h => Dev.eviDrain_ind hP h) (by decide) (by decide)

theorem Dev.decThreshold_frame (d : Dev) (u : Nat) (k : Nat) (fast : Bool) (lo : Int) (hi : Int) :
    Dev.frame [.trigger, .decimation, .events] [.DEC_STAT, .DEC_THR0_LEVEL, .DEC_THR1_LEVEL, .DEC_CNT_THR0, .DEC_CNT_THR1]
      d (Dev.decThreshold d u k fast lo hi) :=
  Dev.frame_of_ind (fun hP h => Dev.decThreshold_ind hP h) (by decide) (by decide)

theorem Dev.decSettle_frame (d : Dev) (u : Nat) :
    Dev.frame [.decimation] [.DEC_STAT] d (Dev.decSettle d u) :=
  Dev.frame_of_ind (fun hP h => Dev.decSettle_ind hP h) (by decide) (by decide)

theorem Dev.decToLanes_frame (d : Dev) (u : Nat) (first : Bool) (o : DecOut) :
    Dev.frame [.trigger, .lanes, .decimation, .tally, .needles, .bench, .queues, .events, .benchMemory, .tallyMemory]
      [.REC_LSTAT, .REC_CNT_DROPFR, .REC_CNT_NOTICE, .REC_SKN_CP, .REC_SKN_OLDEST, .BEN_STAT, .BEN_DROP_FIRST,
      .BEN_CNT_DROPFR, .GLB_CNT_SAT] d (Dev.decToLanes d u first o) :=
  Dev.frame_of_ind (fun hP h => Dev.decToLanes_ind hP h) (by decide) (by decide)

theorem Dev.decAfter_frame (d : Dev) (u : Nat) (j : Nat) (x : DecRun) :
    Dev.frame [.decimation] [] d (Dev.decAfter d u j x) :=
  Dev.frame_of_ind (fun hP h => Dev.decAfter_ind hP h) (by decide) (by decide)

theorem Dev.decItemDeliveryEff_frame (u : Nat) (d : Dev) :
    Dev.frame [.clock, .bus, .trigger, .lanes, .decimation, .tally, .needles, .bench, .queues, .events, .benchMemory,
      .tallyMemory] [.REC_LSTAT, .REC_CNT_DROPFR, .REC_CNT_NOTICE, .REC_SKN_CP, .REC_SKN_OLDEST, .DEC_STAT, .DEC_OUT,
      .DEC_THR0_LEVEL, .DEC_THR1_LEVEL, .DEC_CNT_THR0, .DEC_CNT_THR1, .BEN_STAT, .BEN_DROP_FIRST, .BEN_CNT_DROPFR,
      .GLB_CNT_SAT] d (Dev.decItemDeliveryEff u d) :=
  Dev.frame_of_ind (fun hP h => Dev.decItemDeliveryEff_ind hP h) (by decide) (by decide)

theorem Dev.fastPathItemEff_frame (u : Nat) (d : Dev) :
    Dev.frame [.clock, .bus, .trigger, .lanes, .decimation, .tally, .needles, .bench, .queues, .events, .benchMemory,
      .tallyMemory] [.REC_LSTAT, .REC_CNT_DROPFR, .REC_CNT_NOTICE, .REC_SKN_CP, .REC_SKN_OLDEST, .DEC_STAT, .DEC_FAST,
      .DEC_THR0_LEVEL, .DEC_THR1_LEVEL, .DEC_CNT_THR0, .DEC_CNT_THR1, .DEC_CNT_SAT, .BEN_STAT, .BEN_DROP_FIRST,
      .BEN_CNT_DROPFR, .GLB_CNT_SAT] d (Dev.fastPathItemEff u d) :=
  Dev.frame_of_ind (fun hP h => Dev.fastPathItemEff_ind hP h) (by decide) (by decide)

theorem Dev.settledEff_frame (u : Nat) (d : Dev) :
    Dev.frame [.clock, .bus, .decimation, .events] [.DEC_STAT] d (Dev.settledEff u d) :=
  Dev.frame_of_ind (fun hP h => Dev.settledEff_ind hP h) (by decide) (by decide)

theorem Dev.decStart_frame (d : Dev) (u : Nat) (k : Nat) (rate : Bool) :
    Dev.frame [.decimation] [.DEC_STAT, .DEC_T0] d (Dev.decStart d u k rate) :=
  Dev.frame_of_ind (fun hP h => Dev.decStart_ind hP h) (by decide) (by decide)

theorem Dev.decDueUnit_frame (d : Dev) (u : Nat) (k : Nat) :
    Dev.frame [.decimation] [.DEC_STAT, .DEC_CFG_ACT, .DEC_STEP_ACT, .DEC_PHASE0_ACT, .DEC_T0] d (Dev.decDueUnit d u k) :=
  Dev.frame_of_ind (fun hP h => Dev.decDueUnit_ind hP h) (by decide) (by decide)

theorem Dev.decDue_frame (d : Dev) (k : Nat) :
    Dev.frame [.decimation] [.DEC_STAT, .DEC_CFG_ACT, .DEC_STEP_ACT, .DEC_PHASE0_ACT, .DEC_T0, .DEC_SYNC_STAT,
      .DEC_SYNC_TIME] d (Dev.decDue d k) :=
  Dev.frame_of_ind (fun hP h => Dev.decDue_ind hP h) (by decide) (by decide)

theorem Dev.decRestartEff_frame (u : Nat) (d : Dev) :
    Dev.frame [.clock, .bus, .decimation, .events] [.DEC_STAT, .DEC_CFG_ACT, .DEC_STEP_ACT, .DEC_PHASE0_ACT, .DEC_T0,
      .DEC_SYNC_STAT, .DEC_SYNC_TIME] d (Dev.decRestartEff u d) :=
  Dev.frame_of_ind (fun hP h => Dev.decRestartEff_ind hP h) (by decide) (by decide)

theorem Dev.decRestartNext_frame (d : Dev) (u : Nat) :
    Dev.frame [.decimation] [] d (Dev.decRestartNext d u) :=
  Dev.frame_of_ind (fun hP h => Dev.decRestartNext_ind hP h) (by decide) (by decide)

theorem Dev.decCommitEff_frame (u : Nat) (d : Dev) :
    Dev.frame [.decimation] [.DEC_STAT, .DEC_CFG_ACT, .DEC_STEP_ACT, .DEC_PHASE0_ACT, .DEC_T0, .DEC_SYNC_STAT,
      .DEC_SYNC_TIME] d (Dev.decCommitEff u d) :=
  Dev.frame_of_ind (fun hP h => Dev.decCommitEff_ind hP h) (by decide) (by decide)

theorem Dev.decEnableEff_frame (u : Nat) (en : Bool) (d : Dev) :
    Dev.frame [.decimation] [.DEC_CTL, .DEC_STAT, .DEC_CFG_ACT, .DEC_STEP_ACT, .DEC_PHASE0_ACT, .DEC_T0, .DEC_SYNC_STAT,
      .DEC_SYNC_TIME] d (Dev.decEnableEff u en d) :=
  Dev.frame_of_ind (fun hP h => Dev.decEnableEff_ind hP h) (by decide) (by decide)

theorem Dev.decSyncGoEff_frame (d : Dev) :
    Dev.frame [.decimation] [] d (Dev.decSyncGoEff d) :=
  Dev.frame_of_ind (fun hP h => Dev.decSyncGoEff_ind hP h) (by decide) (by decide)

theorem Dev.decSyncTimed_frame (d : Dev) (inst : Nat) :
    Dev.frame [.decimation] [] d (Dev.decSyncTimed d inst) :=
  Dev.frame_of_ind (fun hP h => Dev.decSyncTimed_ind hP h) (by decide) (by decide)

theorem Dev.timedSyncEff_frame (d : Dev) :
    Dev.frame [.decimation] [.DEC_SYNC_STAT, .GLB_CNT_SAT] d (Dev.timedSyncEff d) :=
  Dev.frame_of_ind (fun hP h => Dev.timedSyncEff_ind hP h) (by decide) (by decide)

theorem Dev.decFrame_frame (d : Dev) (c : Nat) (f : Frame) (u : Nat) :
    Dev.frame [.decimation] [.DEC_STAT, .DEC_T0] d (Dev.decFrame d c f u) :=
  Dev.frame_of_ind (fun hP h => Dev.decFrame_ind hP h) (by decide) (by decide)

theorem Dev.foldPoint_frame (d : Dev) (j : Nat) (halve : Bool) (i : Nat) (x : Int) :
    Dev.frame [.tally, .bench, .benchMemory, .tallyMemory] [] d (Dev.foldPoint d j halve i x) :=
  Dev.frame_of_ind (fun hP h => Dev.foldPoint_ind hP h) (by decide) (by decide)

theorem Dev.binAdd_frame (d : Dev) (j : Nat) (c : Nat) (r : Nat) (v : Int) :
    Dev.frame [.tally, .bench, .benchMemory, .tallyMemory] [] d (Dev.binAdd d j c r v) :=
  Dev.frame_of_ind (fun hP h => Dev.binAdd_ind hP h) (by decide) (by decide)

theorem Dev.binSpan_frame (d : Dev) (j : Nat) (c : Nat) (lo : Nat) (hi : Nat) :
    Dev.frame [.tally, .bench, .benchMemory, .tallyMemory] [] d (Dev.binSpan d j c lo hi) :=
  Dev.frame_of_ind (fun hP h => Dev.binSpan_ind hP h) (by decide) (by decide)

theorem Dev.talStopped_frame (d : Dev) (j : Nat) (reason : Nat) :
    Dev.frame [.tally, .events] [.TAL_JSTAT] d (Dev.talStopped d j reason) :=
  Dev.frame_of_ind (fun hP h => Dev.talStopped_ind hP h) (by decide) (by decide)

theorem Dev.talFold_frame (d : Dev) (j : Nat) :
    Dev.frame [.tally, .bench, .benchMemory, .tallyMemory] [] d (Dev.talFold d j) :=
  Dev.frame_of_ind (fun hP h => Dev.talFold_ind hP h) (by decide) (by decide)

theorem Dev.talCut_frame (d : Dev) (j : Nat) :
    Dev.frame [.tally, .bench, .benchMemory, .tallyMemory] [.TAL_JOB_PARTIAL] d (Dev.talCut d j) :=
  Dev.frame_of_ind (fun hP h => Dev.talCut_ind hP h) (by decide) (by decide)

theorem Dev.halveColumns_frame (d : Dev) (j : Nat) (n : Nat) :
    Dev.frame [.tally, .bench, .benchMemory, .tallyMemory] [] d (Dev.halveColumns d j n) :=
  Dev.frame_of_ind (fun hP h => Dev.halveColumns_ind hP h) (by decide) (by decide)

theorem Dev.talComplete_frame (d : Dev) (j : Nat) :
    Dev.frame [.tally, .events] [.TAL_JSTAT, .TAL_JOB_COUNT, .TAL_JOB_REC] d (Dev.talComplete d j) :=
  Dev.frame_of_ind (fun hP h => Dev.talComplete_ind hP h) (by decide) (by decide)

theorem Dev.talLost_frame (d : Dev) (j : Nat) (before : Nat) :
    Dev.frame [.tally, .bench, .events, .benchMemory, .tallyMemory] [.TAL_JSTAT, .TAL_JOB_COUNT, .TAL_JOB_REC,
      .TAL_JOB_PARTIAL] d (Dev.talLost d j before) :=
  Dev.frame_of_ind (fun hP h => Dev.talLost_ind hP h) (by decide) (by decide)

theorem Dev.tallyFrame_frame (d : Dev) (c : Nat) (f : Frame) (j : Nat) :
    Dev.frame [.tally, .bench, .events, .benchMemory, .tallyMemory] [.TAL_JSTAT, .TAL_JOB_COUNT, .TAL_JOB_REC,
      .TAL_JOB_PARTIAL] d (Dev.tallyFrame d c f j) :=
  Dev.frame_of_ind (fun hP h => Dev.tallyFrame_ind hP h) (by decide) (by decide)

theorem Dev.tallyTriggerEff_frame (j : Nat) (d : Dev) :
    Dev.frame [.tally, .bench, .events, .benchMemory, .tallyMemory] [.TAL_JSTAT, .TAL_JOB_COUNT, .TAL_JOB_REC,
      .TAL_JOB_PARTIAL, .TAL_CNT_BUSY, .TAL_CNT_FILL, .TAL_CNT_HALVE, .GLB_CNT_SAT] d (Dev.tallyTriggerEff j d) :=
  Dev.frame_of_ind (fun hP h => Dev.tallyTriggerEff_ind hP h) (by decide) (by decide)

theorem Dev.talFinish_frame (d : Dev) (j : Nat) (outer : Bool) :
    Dev.frame [.clock, .bus, .tally, .bench, .events, .benchMemory, .tallyMemory] [.TAL_JSTAT, .TAL_JOB_COUNT,
      .TAL_JOB_REC] d (Dev.talFinish d j outer) :=
  Dev.frame_of_ind (fun hP h => Dev.talFinish_ind hP h) (by decide) (by decide)

theorem Dev.tallyRecordCompleteEff_frame (j : Nat) (d : Dev) :
    Dev.frame [.clock, .bus, .tally, .bench, .events, .benchMemory, .tallyMemory] [.TAL_JSTAT, .TAL_JOB_COUNT,
      .TAL_JOB_REC] d (Dev.tallyRecordCompleteEff j d) :=
  Dev.frame_of_ind (fun hP h => Dev.tallyRecordCompleteEff_ind hP h) (by decide) (by decide)

theorem Dev.foldCompleteEff_frame (j : Nat) (d : Dev) :
    Dev.frame [.clock, .bus, .tally, .bench, .events, .benchMemory, .tallyMemory] [.TAL_JSTAT, .TAL_JOB_COUNT,
      .TAL_JOB_REC] d (Dev.foldCompleteEff j d) :=
  Dev.frame_of_ind (fun hP h => Dev.foldCompleteEff_ind hP h) (by decide) (by decide)

theorem Dev.tallyStartEff_frame (j : Nat) (clr : Bool) (d : Dev) :
    Dev.frame [.tally, .bench, .events, .benchMemory] [.TAL_JSTAT, .TAL_JOB_COUNT, .TAL_JOB_REC, .TAL_JOB_PARTIAL,
      .TAL_MASK_TBL, .BEN_QRY_CAP, .BEN_QRY_RETIRE, .BEN_QRY_MIG, .QRY_CSTAT, .HK_DEC_IDX, .HK_DEC] d
      (Dev.tallyStartEff j clr d) :=
  Dev.frame_of_ind (fun hP h => Dev.tallyStartEff_ind hP h) (by decide) (by decide)

theorem Dev.talClear_frame (d : Dev) (j : Nat) (lo : Nat) (hi : Nat) :
    Dev.frame [.tally, .bench, .benchMemory, .tallyMemory] [] d (Dev.talClear d j lo hi) :=
  Dev.frame_of_ind (fun hP h => Dev.talClear_ind hP h) (by decide) (by decide)

theorem Dev.talClearing_frame (d : Dev) (j : Nat) :
    Dev.frame [.tally, .bench, .benchMemory, .tallyMemory] [] d (Dev.talClearing d j) :=
  Dev.frame_of_ind (fun hP h => Dev.talClearing_ind hP h) (by decide) (by decide)

theorem Dev.talBanksOn_frame (d : Dev) (j : Nat) :
    Dev.frame [.tally] [] d (Dev.talBanksOn d j) :=
  Dev.frame_of_ind (fun hP h => Dev.talBanksOn_ind hP h) (by decide) (by decide)

theorem Dev.tallyClearDoneEff_frame (j : Nat) (d : Dev) :
    Dev.frame [.clock, .bus, .tally, .bench, .events, .benchMemory, .tallyMemory] [.TAL_JSTAT] d (Dev.tallyClearDoneEff j
      d) :=
  Dev.frame_of_ind (fun hP h => Dev.tallyClearDoneEff_ind hP h) (by decide) (by decide)

theorem Dev.talWrites_frame (d : Dev) (j : Nat) :
    Dev.frame [.tally, .bench, .benchMemory, .tallyMemory] [] d (Dev.talWrites d j) :=
  Dev.frame_of_ind (fun hP h => Dev.talWrites_ind hP h) (by decide) (by decide)

theorem Dev.tallyStopEff_frame (j : Nat) (d : Dev) :
    Dev.frame [.tally, .bench, .events, .benchMemory, .tallyMemory] [.TAL_JSTAT, .TAL_JOB_COUNT, .TAL_JOB_REC,
      .TAL_JOB_PARTIAL] d (Dev.tallyStopEff j d) :=
  Dev.frame_of_ind (fun hP h => Dev.tallyStopEff_ind hP h) (by decide) (by decide)

theorem Dev.tallyPauseEff_frame (j : Nat) (d : Dev) :
    Dev.frame [.tally] [] d (Dev.tallyPauseEff j d) :=
  Dev.frame_of_ind (fun hP h => Dev.tallyPauseEff_ind hP h) (by decide) (by decide)

theorem Dev.tallyPausedEff_frame (j : Nat) (d : Dev) :
    Dev.frame [.tally] [.TAL_JSTAT] d (Dev.tallyPausedEff j d) :=
  Dev.frame_of_ind (fun hP h => Dev.tallyPausedEff_ind hP h) (by decide) (by decide)

theorem Dev.tallyResumeEff_frame (j : Nat) (d : Dev) :
    Dev.frame [.tally] [.TAL_JSTAT] d (Dev.tallyResumeEff j d) :=
  Dev.frame_of_ind (fun hP h => Dev.tallyResumeEff_ind hP h) (by decide) (by decide)

theorem Dev.halvingDoneEff_frame (j : Nat) (d : Dev) :
    Dev.frame [.clock, .bus, .tally, .bench, .events, .benchMemory, .tallyMemory] [.TAL_JOB_COUNT] d (Dev.halvingDoneEff j
      d) :=
  Dev.frame_of_ind (fun hP h => Dev.halvingDoneEff_ind hP h) (by decide) (by decide)

theorem Dev.laneMaskFail_frame (d : Dev) (l : Nat) (r : TallyRec) (k : Nat) :
    Dev.frame [.lanes, .queues] [] d (Dev.laneMaskFail d l r k) :=
  Dev.frame_of_ind (fun hP h => Dev.laneMaskFail_ind hP h) (by decide) (by decide)

theorem Dev.maskVerdictEff_frame (j : Nat) (d : Dev) :
    Dev.frame [.clock, .bus, .trigger, .lanes, .tally, .needles, .queues, .events] [.TAL_JSTAT, .TAL_CNT_VIOL,
      .TAL_CNT_VSAMP, .GLB_CNT_SAT] d (Dev.maskVerdictEff j d) :=
  Dev.frame_of_ind (fun hP h => Dev.maskVerdictEff_ind hP h) (by decide) (by decide)

theorem Dev.tallyMaskStopEff_frame (j : Nat) (d : Dev) :
    Dev.frame [.tally, .bench, .events, .benchMemory, .tallyMemory] [.TAL_JSTAT, .TAL_JOB_PARTIAL, .TAL_FAIL_SEG,
      .TAL_FAIL_TIME] d (Dev.tallyMaskStopEff j d) :=
  Dev.frame_of_ind (fun hP h => Dev.tallyMaskStopEff_ind hP h) (by decide) (by decide)

theorem Dev.tallySpaceWriteEff_frame (ofs : Nat) (data : List Byte) (d : Dev) :
    Dev.frame [.tally, .tallyMemory] [.TAL_G_WDROP, .GLB_CNT_SAT] d (Dev.tallySpaceWriteEff ofs data d) :=
  Dev.frame_of_ind (fun hP h => Dev.tallySpaceWriteEff_ind hP h) (by decide) (by decide)

theorem Dev.tableWindowWriteEff_frame (n : Nat) (off : Nat) (v : W32) (d : Dev) :
    Dev.frame [.slices] [.CV_TBL_STAT, .CV_TBL_DROP, .CV_SUB_DISC, .GLB_CNT_SAT] d (Dev.tableWindowWriteEff n off v d) :=
  Dev.frame_of_ind (fun hP h => Dev.tableWindowWriteEff_ind hP h) (by decide) (by decide)

theorem Dev.tblRefuse_frame (d : Dev) (n : Nat) (why : Nat) :
    Dev.frame [.events] [.CV_TBL_STAT, .CV_TBL_DROP, .GLB_CNT_SAT] d (Dev.tblRefuse d n why) :=
  Dev.frame_of_ind (fun hP h => Dev.tblRefuse_ind hP h) (by decide) (by decide)

theorem Dev.tableCommit_frame (d : Dev) (n : Nat) (sub : Bool) (tim : Bool) (rot : Option Nat) :
    Dev.frame [.slices, .events] [.CV_TBL_STAT, .CV_TBL_DROP, .GLB_CNT_SAT] d (Dev.tableCommit d n sub tim rot) :=
  Dev.frame_of_ind (fun hP h => Dev.tableCommit_ind hP h) (by decide) (by decide)

theorem Dev.commitEffectEff_frame (n : Nat) (d : Dev) :
    Dev.frame [.clock, .bus, .events] [] d (Dev.commitEffectEff n d) :=
  Dev.frame_of_ind (fun hP h => Dev.commitEffectEff_ind hP h) (by decide) (by decide)

theorem Dev.setSlots_frame (d : Dev) (n : Nat) (h : Nat) (l : List Nat) :
    Dev.frame [] [.CV_SLOTMAP] d (Dev.setSlots d n h l) :=
  Dev.frame_of_ind (fun hP h => Dev.setSlots_ind hP h) (by decide) (by decide)

theorem Dev.sliceFlags_frame (d : Dev) (n : Nat) :
    Dev.frame [.events] [.CV_SSTAT] d (Dev.sliceFlags d n) :=
  Dev.frame_of_ind (fun hP h => Dev.sliceFlags_ind hP h) (by decide) (by decide)

theorem Dev.showService_frame (d : Dev) (n : Nat) (h : Nat) :
    Dev.frame [] [.CV_GRP_STAT] d (Dev.showService d n h) :=
  Dev.frame_of_ind (fun hP h => Dev.showService_ind hP h) (by decide) (by decide)

theorem Dev.setGroup_frame (d : Dev) (n : Nat) (h : Nat) (st : Nat) (spare : Nat) (slots : List Nat) :
    Dev.frame [] [.CV_GRP_STAT, .CV_SLOTMAP] d (Dev.setGroup d n h st spare slots) :=
  Dev.frame_of_ind (fun hP h => Dev.setGroup_ind hP h) (by decide) (by decide)

theorem Dev.markFailed_frame (d : Dev) (n : Nat) (h : Nat) (u : Nat) :
    Dev.frame [] [.CV_GRP_STAT] d (Dev.markFailed d n h u) :=
  Dev.frame_of_ind (fun hP h => Dev.markFailed_ind hP h) (by decide) (by decide)

theorem Dev.suspectMark_frame (d : Dev) (n : Nat) (a : Nat) (b : Nat) :
    Dev.frame [.paths, .lanes, .decimation, .tally] [] d (Dev.suspectMark d n a b) :=
  Dev.frame_of_ind (fun hP h => Dev.suspectMark_ind hP h) (by decide) (by decide)

theorem Dev.suspectLoad_frame (d : Dev) (n : Nat) (a : Nat) (b : Nat) :
    Dev.frame [.paths, .slices, .lanes, .decimation, .tally, .events] [.CV_DEGWIN_START, .CV_DEGWIN_END, .CV_DEGWIN_SEQ] d
      (Dev.suspectLoad d n a b) :=
  Dev.frame_of_ind (fun hP h => Dev.suspectLoad_ind hP h) (by decide) (by decide)

theorem Dev.monitorWindowEndEff_frame (n : Nat) (h : Nat) (outside : Nat) (d : Dev) :
    Dev.frame [.clock, .bus, .paths, .slices, .lanes, .decimation, .tally, .events] [.CV_DEGWIN_START, .CV_DEGWIN_END,
      .CV_DEGWIN_SEQ, .CV_GRP_STAT] d (Dev.monitorWindowEndEff n h outside d) :=
  Dev.frame_of_ind (fun hP h => Dev.monitorWindowEndEff_ind hP h) (by decide) (by decide)

theorem Dev.statsBegin_frame (d : Dev) (n : Nat) (h : Nat) :
    Dev.frame [.slices] [] d (Dev.statsBegin d n h) :=
  Dev.frame_of_ind (fun hP h => Dev.statsBegin_ind hP h) (by decide) (by decide)

theorem Dev.sparingTransitionEff_frame (n : Nat) (h : Nat) (d : Dev) :
    Dev.frame [.clock, .bus, .slices, .events] [.CV_SSTAT, .CV_GRP_STAT, .CV_SLOTMAP] d (Dev.sparingTransitionEff n h d)
      :=
  Dev.frame_of_ind (fun hP h => Dev.sparingTransitionEff_ind hP h) (by decide) (by decide)

theorem Dev.writePage_frame (d : Dev) (n : Nat) (p : Nat) (page : List Nat) :
    Dev.frame [.slices] [.CV_TBL_STAT, .CV_TBL_DROP, .CV_SUB_DISC, .GLB_CNT_SAT] d (Dev.writePage d n p page) :=
  Dev.frame_of_ind (fun hP h => Dev.writePage_ind hP h) (by decide) (by decide)

theorem Dev.rotNext_frame (d : Dev) (n : Nat) (h : Nat) :
    Dev.frame [.slices] [] d (Dev.rotNext d n h) :=
  Dev.frame_of_ind (fun hP h => Dev.rotNext_ind hP h) (by decide) (by decide)

theorem Dev.rotationEff_frame (n : Nat) (h : Nat) (d : Dev) :
    Dev.frame [.clock, .bus, .slices, .events] [.CV_TBL_STAT, .CV_TBL_DROP, .CV_SUB_ARM, .CV_SUB_DISC, .GLB_CNT_SAT,
      .HK_DEC_IDX, .HK_DEC] d (Dev.rotationEff n h d) :=
  Dev.frame_of_ind (fun hP h => Dev.rotationEff_ind hP h) (by decide) (by decide)

theorem Dev.subconverterSwapEff_frame (n : Nat) (h : Nat) (d : Dev) :
    Dev.frame [.clock, .bus, .slices, .events] [.CV_SWAP_CNT, .CV_GRP_STAT, .CV_SLOTMAP] d (Dev.subconverterSwapEff n h d)
      :=
  Dev.frame_of_ind (fun hP h => Dev.subconverterSwapEff_ind hP h) (by decide) (by decide)

theorem Dev.roleSwitch_frame (d : Dev) (n : Nat) (c : Commit) :
    Dev.frame [] [.CV_TBL_STAT, .CV_TSW_TICK, .CV_SUB_ACT] d (Dev.roleSwitch d n c) :=
  Dev.frame_of_ind (fun hP h => Dev.roleSwitch_ind hP h) (by decide) (by decide)

theorem Dev.tblSwitchEff_frame (n : Nat) (d : Dev) :
    Dev.frame [.clock, .bus, .slices, .events] [.CV_TBL_STAT, .CV_TSW_TICK, .CV_SUB_ARM, .CV_SUB_ACT] d (Dev.tblSwitchEff
      n d) :=
  Dev.frame_of_ind (fun hP h => Dev.tblSwitchEff_ind hP h) (by decide) (by decide)

theorem Dev.spareCalibrationDoneEff_frame (n : Nat) (h : Nat) (c : CalData) (d : Dev) :
    Dev.frame [.slices, .events] [.CV_SSTAT, .CV_GRP_STAT, .CV_SLOTMAP] d (Dev.spareCalibrationDoneEff n h c d) :=
  Dev.frame_of_ind (fun hP h => Dev.spareCalibrationDoneEff_ind hP h) (by decide) (by decide)

theorem Dev.failClear_frame (d : Dev) (n : Nat) :
    Dev.frame [] [.CV_FAIL_CLR, .CV_GRP_STAT] d (Dev.failClear d n) :=
  Dev.frame_of_ind (fun hP h => Dev.failClear_ind hP h) (by decide) (by decide)

theorem Dev.failClrWriteEff_frame (n : Nat) (h : Nat) (umask : Nat) (d : Dev) :
    Dev.frame [] [.CV_FAIL_CLR, .CV_GRP_STAT] d (Dev.failClrWriteEff n h umask d) :=
  Dev.frame_of_ind (fun hP h => Dev.failClrWriteEff_ind hP h) (by decide) (by decide)

theorem Dev.sliceEnableEff_frame (n : Nat) (d : Dev) :
    Dev.frame [.draws, .slices] [.CV_SCTL, .TST_CTL, .TST_STAT, .TST_BITS, .TST_ERRS] d (Dev.sliceEnableEff n d) :=
  Dev.frame_of_ind (fun hP h => Dev.sliceEnableEff_ind hP h) (by decide) (by decide)

theorem Dev.sliceReady_frame (d : Dev) (n : Nat) (from_ : Nat) :
    Dev.frame [.slices, .events] [.CV_SSTAT] d (Dev.sliceReady d n from_) :=
  Dev.frame_of_ind (fun hP h => Dev.sliceReady_ind hP h) (by decide) (by decide)

theorem Dev.sliceNotReady_frame (d : Dev) (n : Nat) :
    Dev.frame [.events] [.CV_SSTAT] d (Dev.sliceNotReady d n) :=
  Dev.frame_of_ind (fun hP h => Dev.sliceNotReady_ind hP h) (by decide) (by decide)

theorem Dev.groupStart_frame (d : Dev) (n : Nat) (h : Nat) :
    Dev.frame [.slices, .events] [.CV_GRP_STAT, .CV_SLOTMAP] d (Dev.groupStart d n h) :=
  Dev.frame_of_ind (fun hP h => Dev.groupStart_ind hP h) (by decide) (by decide)

theorem Dev.enableCalibrationDoneEff_frame (n : Nat) (cal : List (Nat × CalData)) (d : Dev) :
    Dev.frame [.slices, .events] [.CV_SSTAT, .CV_GRP_STAT, .CV_SLOTMAP, .CV_TBL_STAT, .CV_TBL_DROP, .CV_SUB_ACT,
      .CV_SUB_DISC, .GLB_CNT_SAT] d (Dev.enableCalibrationDoneEff n cal d) :=
  Dev.frame_of_ind (fun hP h => Dev.enableCalibrationDoneEff_ind hP h) (by decide) (by decide)

theorem Dev.routeTo_frame (d : Dev) (n : Nat) (r : Nat) :
    Dev.frame [.slices] [] d (Dev.routeTo d n r) :=
  Dev.frame_of_ind (fun hP h => Dev.routeTo_ind hP h) (by decide) (by decide)

theorem Dev.swatchAbort_frame (d : Dev) (n : Nat) :
    Dev.frame [.slices, .events] [.CV_SWATCH_STAT] d (Dev.swatchAbort d n) :=
  Dev.frame_of_ind (fun hP h => Dev.swatchAbort_ind hP h) (by decide) (by decide)

theorem Dev.sliceDisableEff_frame (n : Nat) (d : Dev) :
    Dev.frame [.slices, .events] [.CV_SCTL, .CV_SSTAT, .CV_FAIL_CLR, .CV_GRP_STAT, .CV_SLOTMAP, .CV_SWATCH_STAT] d
      (Dev.sliceDisableEff n d) :=
  Dev.frame_of_ind (fun hP h => Dev.sliceDisableEff_ind hP h) (by decide) (by decide)

theorem Dev.sliceClockLossEff_frame (n : Nat) (d : Dev) :
    Dev.frame [.paths, .slices, .events] [.CV_SSTAT] d (Dev.sliceClockLossEff n d) :=
  Dev.frame_of_ind (fun hP h => Dev.sliceClockLossEff_ind hP h) (by decide) (by decide)

theorem Dev.sliceClockLockEff_frame (n : Nat) (d : Dev) :
    Dev.frame [.slices, .events] [.CV_SSTAT] d (Dev.sliceClockLockEff n d) :=
  Dev.frame_of_ind (fun hP h => Dev.sliceClockLockEff_ind hP h) (by decide) (by decide)

theorem Dev.dacRouteWriteEff_frame (n : Nat) (v : W32) (d : Dev) :
    Dev.frame [.slices] [.CV_DAC_CTL, .CV_SWATCH_STAT, .GLB_CNT_SAT] d (Dev.dacRouteWriteEff n v d) :=
  Dev.frame_of_ind (fun hP h => Dev.dacRouteWriteEff_ind hP h) (by decide) (by decide)

theorem Dev.injectionSwitchEff_frame (n : Nat) (d : Dev) :
    Dev.frame [.clock, .bus, .slices, .events] [.CV_SSTAT] d (Dev.injectionSwitchEff n d) :=
  Dev.frame_of_ind (fun hP h => Dev.injectionSwitchEff_ind hP h) (by decide) (by decide)

theorem Dev.overrangeCount_frame (d : Dev) (n : Nat) :
    Dev.frame [.paths, .events] [.CV_OVR_CNT, .GLB_CNT_SAT] d (Dev.overrangeCount d n) :=
  Dev.frame_of_ind (fun hP h => Dev.overrangeCount_ind hP h) (by decide) (by decide)

theorem Dev.statsAdd_frame (d : Dev) (n : Nat) (f : RawFrame) :
    Dev.frame [.slices] [] d (Dev.statsAdd d n f) :=
  Dev.frame_of_ind (fun hP h => Dev.statsAdd_ind hP h) (by decide) (by decide)

theorem Dev.sampleFrameEff_frame (n : Nat) (codes : List (BitVec 10)) (d : Dev) :
    Dev.frame [.paths, .slices, .events] [.CV_OVR_CNT, .CV_NRDY_CNT, .GLB_CNT_SAT] d (Dev.sampleFrameEff n codes d) :=
  Dev.frame_of_ind (fun hP h => Dev.sampleFrameEff_ind hP h) (by decide) (by decide)

theorem Dev.skewTake_frame (d : Dev) (n : Nat) (r : RawFrame) (e : List Int) :
    Dev.frame [.slices] [] d (Dev.skewTake d n r e) :=
  Dev.frame_of_ind (fun hP h => Dev.skewTake_ind hP h) (by decide) (by decide)

theorem Dev.correctedFrameEff_frame (n : Nat) (d : Dev) :
    Dev.frame [.clock, .bus, .paths, .slices, .trigger, .decimation, .events] [.CV_OVR_CNT, .CV_CLIP_CNT, .DEC_STAT,
      .DEC_CFG_ACT, .DEC_STEP_ACT, .DEC_PHASE0_ACT, .DEC_T0, .DEC_SYNC_STAT, .DEC_SYNC_TIME, .GLB_CNT_SAT] d
      (Dev.correctedFrameEff n d) :=
  Dev.frame_of_ind (fun hP h => Dev.correctedFrameEff_ind hP h) (by decide) (by decide)

theorem Dev.setSkews_frame (d : Dev) (n : Nat) (l : List Int) :
    Dev.frame [.events] [.CV_SKW_DLT] d (Dev.setSkews d n l) :=
  Dev.frame_of_ind (fun hP h => Dev.setSkews_ind hP h) (by decide) (by decide)

theorem Dev.commitSkews_frame (d : Dev) (n : Nat) :
    Dev.frame [.slices, .events] [.CV_TBL_STAT, .CV_TBL_DROP, .CV_SUB_DISC, .GLB_CNT_SAT, .HK_DEC_IDX, .HK_DEC] d
      (Dev.commitSkews d n) :=
  Dev.frame_of_ind (fun hP h => Dev.commitSkews_ind hP h) (by decide) (by decide)

theorem Dev.skewUpdateEff_frame (n : Nat) (d : Dev) :
    Dev.frame [.draws, .slices, .events] [.CV_TBL_STAT, .CV_TBL_DROP, .CV_SUB_DISC, .CV_SKW_STAT, .CV_SKW_DLT,
      .GLB_CNT_SAT, .HK_DEC_IDX, .HK_DEC] d (Dev.skewUpdateEff n d) :=
  Dev.frame_of_ind (fun hP h => Dev.skewUpdateEff_ind hP h) (by decide) (by decide)

theorem Dev.nospareMatchingEff_frame (n : Nat) (h : Nat) (gains : List (BitVec 16)) (d : Dev) :
    Dev.frame [.clock, .bus, .slices, .events] [.CV_TBL_STAT, .CV_TBL_DROP, .CV_SUB_ARM, .CV_SUB_DISC, .GLB_CNT_SAT] d
      (Dev.nospareMatchingEff n h gains d) :=
  Dev.frame_of_ind (fun hP h => Dev.nospareMatchingEff_ind hP h) (by decide) (by decide)

theorem Dev.swatchStartEff_frame (n : Nat) (d : Dev) :
    Dev.frame [.slices, .events] [.CV_SWATCH_STAT] d (Dev.swatchStartEff n d) :=
  Dev.frame_of_ind (fun hP h => Dev.swatchStartEff_ind hP h) (by decide) (by decide)

theorem Dev.swatchCaptureEff_frame (n : Nat) (d : Dev) :
    Dev.frame [.clock, .bus, .slices, .events] [.GLB_CNT_SAT] d (Dev.swatchCaptureEff n d) :=
  Dev.frame_of_ind (fun hP h => Dev.swatchCaptureEff_ind hP h) (by decide) (by decide)

theorem Dev.swatchRouteOffEff_frame (n : Nat) (d : Dev) :
    Dev.frame [.clock, .bus, .slices, .events] [.GLB_CNT_SAT] d (Dev.swatchRouteOffEff n d) :=
  Dev.frame_of_ind (fun hP h => Dev.swatchRouteOffEff_ind hP h) (by decide) (by decide)

theorem Dev.swatchResultEff_frame (n : Nat) (fit : SwatchFit) (d : Dev) :
    Dev.frame [.slices, .events] [.CV_TBL_STAT, .CV_TBL_DROP, .CV_SUB_DISC, .CV_SKW_DLT, .CV_SWATCH_TAU, .CV_SWATCH_STAT,
      .GLB_CNT_SAT, .HK_DEC_IDX, .HK_DEC] d (Dev.swatchResultEff n fit d) :=
  Dev.frame_of_ind (fun hP h => Dev.swatchResultEff_ind hP h) (by decide) (by decide)

theorem Dev.tableSave_frame (d : Dev) (n : Nat) :
    Dev.frame [.slices] [] d (Dev.tableSave d n) :=
  Dev.frame_of_ind (fun hP h => Dev.tableSave_ind hP h) (by decide) (by decide)

theorem Dev.tableFlashSaveEff_frame (n : Nat) (d : Dev) :
    Dev.frame [.slices] [] d (Dev.tableFlashSaveEff n d) :=
  Dev.frame_of_ind (fun hP h => Dev.tableFlashSaveEff_ind hP h) (by decide) (by decide)

theorem Dev.stageShift_frame (d : Dev) (k : Nat) (c : Nat) :
    Dev.frame [.paths] [] d (Dev.stageShift d k c) :=
  Dev.frame_of_ind (fun hP h => Dev.stageShift_ind hP h) (by decide) (by decide)

theorem Dev.laneDecLoss_frame (d : Dev) (k : Nat) (l : Nat) :
    Dev.frame [.trigger, .lanes, .tally, .needles, .bench, .queues, .benchMemory, .tallyMemory] [.REC_SKN_OLDEST] d
      (Dev.laneDecLoss d k l) :=
  Dev.frame_of_ind (fun hP h => Dev.laneDecLoss_ind hP h) (by decide) (by decide)

theorem Dev.decRateChange_frame (d : Dev) (k : Nat) (u : Nat) :
    Dev.frame [.trigger, .lanes, .decimation, .tally, .needles, .bench, .queues, .benchMemory, .tallyMemory] [.REC_LCTL,
      .REC_LSTAT, .REC_SKN_OLDEST, .BEN_STAT] d (Dev.decRateChange d k u) :=
  Dev.frame_of_ind (fun hP h => Dev.decRateChange_ind hP h) (by decide) (by decide)

theorem Dev.laneWaits_frame (d : Dev) (l : Nat) :
    Dev.frame [] [.REC_CNT_ALLOCW, .GLB_CNT_SAT] d (Dev.laneWaits d l) :=
  Dev.frame_of_ind (fun hP h => Dev.laneWaits_ind hP h) (by decide) (by decide)

theorem Dev.stageStoreFrameEff_frame (k : Nat) (stalled : BitVec 16) (d : Dev) :
    Dev.frame [.clock, .bus, .paths, .logic, .sampling, .trigger, .lanes, .decimation, .tally, .needles, .bench, .queues,
      .events, .benchMemory, .tallyMemory] [.REC_LCTL, .REC_LSTAT, .REC_CNT_DROPFR, .REC_CNT_NOTICE, .REC_CNT_ALLOCW,
      .REC_SKN_CP, .REC_SKN_OLDEST, .TAL_JSTAT, .TAL_JOB_COUNT, .TAL_JOB_REC, .TAL_JOB_PARTIAL, .BEN_STAT,
      .BEN_DROP_FIRST, .BEN_CNT_DROPFR, .GLB_CNT_SAT] d (Dev.stageStoreFrameEff k stalled d) :=
  Dev.frame_of_ind (fun hP h => Dev.stageStoreFrameEff_ind hP h) (by decide) (by decide)

theorem Dev.stmShow_frame (d : Dev) (u : Nat) :
    Dev.frame [] [.STM_USTAT, .STM_PF_STAT] d (Dev.stmShow d u) :=
  Dev.frame_of_ind (fun hP h => Dev.stmShow_ind hP h) (by decide) (by decide)

theorem Dev.stmCancel_frame (d : Dev) (u : Nat) (n : Nat) :
    Dev.frame [] [.STM_CNT_CANCEL, .GLB_CNT_SAT] d (Dev.stmCancel d u n) :=
  Dev.frame_of_ind (fun hP h => Dev.stmCancel_ind hP h) (by decide) (by decide)

theorem Dev.stmCancelQueue_frame (d : Dev) (u : Nat) :
    Dev.frame [.stimulus] [.STM_USTAT, .STM_CNT_CANCEL, .STM_PF_STAT, .GLB_CNT_SAT] d (Dev.stmCancelQueue d u) :=
  Dev.frame_of_ind (fun hP h => Dev.stmCancelQueue_ind hP h) (by decide) (by decide)

theorem Dev.stmCancelAll_frame (d : Dev) (u : Nat) :
    Dev.frame [.stimulus] [.STM_USTAT, .STM_CNT_CANCEL, .STM_PF_STAT, .GLB_CNT_SAT] d (Dev.stmCancelAll d u) :=
  Dev.frame_of_ind (fun hP h => Dev.stmCancelAll_ind hP h) (by decide) (by decide)

theorem Dev.stimEnableEff_frame (u : Nat) (d : Dev) :
    Dev.frame [.stimulus] [.CV_SWATCH_STAT, .STM_UCTL, .STM_USTAT, .GLB_CNT_SAT] d (Dev.stimEnableEff u d) :=
  Dev.frame_of_ind (fun hP h => Dev.stimEnableEff_ind hP h) (by decide) (by decide)

theorem Dev.stimDisableEff_frame (u : Nat) (d : Dev) :
    Dev.frame [.stimulus] [.STM_UCTL, .STM_USTAT, .STM_CNT_CANCEL, .STM_PF_STAT, .GLB_CNT_SAT] d (Dev.stimDisableEff u d)
      :=
  Dev.frame_of_ind (fun hP h => Dev.stimDisableEff_ind hP h) (by decide) (by decide)

theorem Dev.stimClearEff_frame (u : Nat) (d : Dev) :
    Dev.frame [.stimulus] [] d (Dev.stimClearEff u d) :=
  Dev.frame_of_ind (fun hP h => Dev.stimClearEff_ind hP h) (by decide) (by decide)

theorem Dev.toneChange_frame (d : Dev) (u : Nat) (k : Nat) :
    Dev.frame [.stimulus] [] d (Dev.toneChange d u k) :=
  Dev.frame_of_ind (fun hP h => Dev.toneChange_ind hP h) (by decide) (by decide)

theorem Dev.staticToneWriteEff_frame (u : Nat) (k : Nat) (tpa : Bool) (v : W64) (d : Dev) :
    Dev.frame [.stimulus] [.STM_TFREQ, .STM_TPA] d (Dev.staticToneWriteEff u k tpa v d) :=
  Dev.frame_of_ind (fun hP h => Dev.staticToneWriteEff_ind hP h) (by decide) (by decide)

theorem Dev.toneWrite_frame (d : Dev) (u : Nat) (k : Nat) (freq : W64) (tpa : W64) :
    Dev.frame [.stimulus] [.STM_TFREQ, .STM_TPA] d (Dev.toneWrite d u k freq tpa) :=
  Dev.frame_of_ind (fun hP h => Dev.toneWrite_ind hP h) (by decide) (by decide)

theorem Dev.playStart_frame (d : Dev) (u : Nat) :
    Dev.frame [.stimulus] [] d (Dev.playStart d u) :=
  Dev.frame_of_ind (fun hP h => Dev.playStart_ind hP h) (by decide) (by decide)

theorem Dev.playAccept_frame (d : Dev) (u : Nat) (kind : Nat) (s : StmSeg) :
    Dev.frame [.stimulus] [.STM_CNT_CANCEL, .GLB_CNT_SAT] d (Dev.playAccept d u kind s) :=
  Dev.frame_of_ind (fun hP h => Dev.playAccept_ind hP h) (by decide) (by decide)

theorem Dev.playRefused_frame (d : Dev) (u : Nat) :
    Dev.frame [.events] [.STM_CNT_REFUSED, .GLB_CNT_SAT] d (Dev.playRefused d u) :=
  Dev.frame_of_ind (fun hP h => Dev.playRefused_ind hP h) (by decide) (by decide)

theorem Dev.playSubmitEff_frame (u : Nat) (kind : Nat) (d : Dev) :
    Dev.frame [.stimulus, .events] [.STM_USTAT, .STM_PLAY_CTL, .STM_PLAY_STAT, .STM_CNT_CANCEL, .STM_CNT_REFUSED,
      .STM_PF_STAT, .GLB_CNT_SAT] d (Dev.playSubmitEff u kind d) :=
  Dev.frame_of_ind (fun hP h => Dev.playSubmitEff_ind hP h) (by decide) (by decide)

theorem Dev.jumpTake_frame (d : Dev) (u : Nat) (k : Nat) (s : StmSeg) :
    Dev.frame [.stimulus] [.STM_CNT_CANCEL, .GLB_CNT_SAT] d (Dev.jumpTake d u k s) :=
  Dev.frame_of_ind (fun hP h => Dev.jumpTake_ind hP h) (by decide) (by decide)

theorem Dev.stmLost_frame (d : Dev) (u : Nat) (n : Nat) (tick : Nat) :
    Dev.frame [.stimulus, .events] [.STM_UNDER_FIRST, .STM_CNT_UNDER, .GLB_CNT_SAT] d (Dev.stmLost d u n tick) :=
  Dev.frame_of_ind (fun hP h => Dev.stmLost_ind hP h) (by decide) (by decide)

theorem Dev.stmHalt_frame (d : Dev) (u : Nat) (tick : Nat) :
    Dev.frame [.stimulus, .events] [.STM_USTAT, .STM_UNDER_FIRST, .STM_CNT_UNDER, .STM_CNT_CANCEL, .STM_PF_STAT,
      .GLB_CNT_SAT] d (Dev.stmHalt d u tick) :=
  Dev.frame_of_ind (fun hP h => Dev.stmHalt_ind hP h) (by decide) (by decide)

theorem Dev.stmMissed_frame (d : Dev) (u : Nat) (n : Nat) (tick : Nat) :
    Dev.frame [.stimulus, .events] [.STM_USTAT, .STM_UNDER_FIRST, .STM_CNT_UNDER, .STM_CNT_CANCEL, .STM_PF_STAT,
      .GLB_CNT_SAT] d (Dev.stmMissed d u n tick) :=
  Dev.frame_of_ind (fun hP h => Dev.stmMissed_ind hP h) (by decide) (by decide)

theorem Dev.stmChoose_frame (d : Dev) (u : Nat) :
    Dev.frame [.stimulus] [] d (Dev.stmChoose d u) :=
  Dev.frame_of_ind (fun hP h => Dev.stmChoose_ind hP h) (by decide) (by decide)

theorem Dev.stmNext_frame (d : Dev) (u : Nat) (k : Nat) :
    Dev.frame [.stimulus, .events] [.STM_USTAT, .STM_CNT_PLAYED] d (Dev.stmNext d u k) :=
  Dev.frame_of_ind (fun hP h => Dev.stmNext_ind hP h) (by decide) (by decide)

theorem Dev.stmStart_frame (d : Dev) (u : Nat) (k : Nat) :
    Dev.frame [.stimulus, .events] [.STM_USTAT, .STM_UNDER_FIRST, .STM_CNT_UNDER, .STM_CNT_CANCEL, .STM_CNT_PLAYED,
      .STM_PF_STAT, .GLB_CNT_SAT] d (Dev.stmStart d u k) :=
  Dev.frame_of_ind (fun hP h => Dev.stmStart_ind hP h) (by decide) (by decide)

theorem Dev.stmGranule_frame (d : Dev) (u : Nat) (k : Nat) :
    Dev.frame [.stimulus, .events] [.STM_USTAT, .STM_UNDER_FIRST, .STM_CNT_UNDER, .STM_CNT_CANCEL, .STM_CNT_PLAYED,
      .STM_PF_STAT, .GLB_CNT_SAT] d (Dev.stmGranule d u k) :=
  Dev.frame_of_ind (fun hP h => Dev.stmGranule_ind hP h) (by decide) (by decide)

theorem Dev.stmOutput_frame (d : Dev) (u : Nat) :
    Dev.frame [.stimulus] [.STM_CNT_SAT, .GLB_CNT_SAT] d (Dev.stmOutput d u) :=
  Dev.frame_of_ind (fun hP h => Dev.stmOutput_ind hP h) (by decide) (by decide)

theorem Dev.stmBoundary_frame (d : Dev) (u : Nat) (k : Nat) :
    Dev.frame [.stimulus, .events] [.STM_USTAT, .STM_UNDER_FIRST, .STM_CNT_UNDER, .STM_CNT_CANCEL, .STM_CNT_SAT,
      .STM_CNT_PLAYED, .STM_PF_STAT, .GLB_CNT_SAT] d (Dev.stmBoundary d u k) :=
  Dev.frame_of_ind (fun hP h => Dev.stmBoundary_ind hP h) (by decide) (by decide)

theorem Dev.granuleBoundaryEff_frame (u : Nat) (d : Dev) :
    Dev.frame [.clock, .bus, .stimulus, .events] [.STM_USTAT, .STM_UNDER_FIRST, .STM_CNT_UNDER, .STM_CNT_CANCEL,
      .STM_CNT_SAT, .STM_CNT_PLAYED, .STM_PF_STAT, .GLB_CNT_SAT] d (Dev.granuleBoundaryEff u d) :=
  Dev.frame_of_ind (fun hP h => Dev.granuleBoundaryEff_ind hP h) (by decide) (by decide)

theorem Dev.jumpArrivalEff_frame (u : Nat) (d : Dev) :
    Dev.frame [.clock, .bus, .stimulus, .events] [.STM_USTAT, .STM_UNDER_FIRST, .STM_CNT_UNDER, .STM_CNT_CANCEL,
      .STM_CNT_SAT, .STM_CNT_PLAYED, .STM_PF_STAT, .GLB_CNT_SAT] d (Dev.jumpArrivalEff u d) :=
  Dev.frame_of_ind (fun hP h => Dev.jumpArrivalEff_ind hP h) (by decide) (by decide)

theorem Dev.prefetchRecordEff_frame (u : Nat) (d : Dev) :
    Dev.frame [.stimulus] [.STM_USTAT, .STM_PF_STAT] d (Dev.prefetchRecordEff u d) :=
  Dev.frame_of_ind (fun hP h => Dev.prefetchRecordEff_ind hP h) (by decide) (by decide)

theorem Dev.timedMessage_frame (d : Dev) (time : Nat) (frac : Nat) (code : Nat) (src : Nat) :
    Dev.frame [.trigger, .decimation] [] d (Dev.timedMessage d time frac code src) :=
  Dev.frame_of_ind (fun hP h => Dev.timedMessage_ind hP h) (by decide) (by decide)

theorem Dev.pinChange_frame (d : Dev) (k : Nat) (x : Nat) (level : Bool) (inst : Nat) :
    Dev.frame [.trigger] [] d (Dev.pinChange d k x level inst) :=
  Dev.frame_of_ind (fun hP h => Dev.pinChange_ind hP h) (by decide) (by decide)

theorem Dev.seenUpdate_frame (d : Dev) (before : Dev) :
    Dev.frame [.trigger] [] d (Dev.seenUpdate d before) :=
  Dev.frame_of_ind (fun hP h => Dev.seenUpdate_ind hP h) (by decide) (by decide)

theorem Dev.pinLaunch_frame (d : Dev) (x : Nat) (l : Launch) :
    Dev.frame [.trigBus] [] d (Dev.pinLaunch d x l) :=
  Dev.frame_of_ind (fun hP h => Dev.pinLaunch_ind hP h) (by decide) (by decide)

theorem Dev.pinDrive_frame (d : Dev) (x : Nat) (b : Nat) (level : Bool) :
    Dev.frame [.trigBus] [] d (Dev.pinDrive d x b level) :=
  Dev.frame_of_ind (fun hP h => Dev.pinDrive_ind hP h) (by decide) (by decide)

theorem Dev.pinPulse_frame (d : Dev) (x : Nat) (b : Nat) (width : Nat) :
    Dev.frame [.trigBus] [] d (Dev.pinPulse d x b width) :=
  Dev.frame_of_ind (fun hP h => Dev.pinPulse_ind hP h) (by decide) (by decide)

theorem Dev.pinIdle_frame (d : Dev) (x : Nat) :
    Dev.frame [.trigBus] [] d (Dev.pinIdle d x) :=
  Dev.frame_of_ind (fun hP h => Dev.pinIdle_ind hP h) (by decide) (by decide)

theorem Dev.pinRelaunch_frame (d : Dev) (x : Nat) :
    Dev.frame [.trigBus] [] d (Dev.pinRelaunch d x) :=
  Dev.frame_of_ind (fun hP h => Dev.pinRelaunch_ind hP h) (by decide) (by decide)

theorem Dev.pinResume_frame (d : Dev) (x : Nat) :
    Dev.frame [.trigBus] [] d (Dev.pinResume d x) :=
  Dev.frame_of_ind (fun hP h => Dev.pinResume_ind hP h) (by decide) (by decide)

theorem Dev.outputLaunchEff_frame (x : Nat) (d : Dev) :
    Dev.frame [.clock, .bus, .events, .trigBus] [] d (Dev.outputLaunchEff x d) :=
  Dev.frame_of_ind (fun hP h => Dev.outputLaunchEff_ind hP h) (by decide) (by decide)

theorem Dev.markerPulseEndEff_frame (x : Nat) (d : Dev) :
    Dev.frame [.clock, .bus, .events, .trigBus] [] d (Dev.markerPulseEndEff x d) :=
  Dev.frame_of_ind (fun hP h => Dev.markerPulseEndEff_ind hP h) (by decide) (by decide)

theorem Dev.eventPulses_frame (d : Dev) (k : Nat) (e : Nat) :
    Dev.frame [.trigBus] [] d (Dev.eventPulses d k e) :=
  Dev.frame_of_ind (fun hP h => Dev.eventPulses_ind hP h) (by decide) (by decide)

theorem Dev.markPulse_frame (d : Dev) (m : Nat) (width : Nat) (boundary : Nat) :
    Dev.frame [.trigBus] [] d (Dev.markPulse d m width boundary) :=
  Dev.frame_of_ind (fun hP h => Dev.markPulse_ind hP h) (by decide) (by decide)

theorem Dev.pcfgWritten_frame (d : Dev) (before : Dev) (x : Nat) :
    Dev.frame [.trigger, .trigBus] [] d (Dev.pcfgWritten d before x) :=
  Dev.frame_of_ind (fun hP h => Dev.pcfgWritten_ind hP h) (by decide) (by decide)

theorem Dev.txqShow_frame (d : Dev) :
    Dev.frame [] [.SYN_MSG_STAT] d (Dev.txqShow d) :=
  Dev.frame_of_ind (fun hP h => Dev.txqShow_ind hP h) (by decide) (by decide)

theorem Dev.wordDone_frame (d : Dev) :
    Dev.frame [.trigBus] [.SYN_MSG_STAT] d (Dev.wordDone d) :=
  Dev.frame_of_ind (fun hP h => Dev.wordDone_ind hP h) (by decide) (by decide)

theorem Dev.wordGiveUp_frame (d : Dev) :
    Dev.frame [.events, .trigBus] [.SYN_MSG_STAT, .SYN_CNT_TXFAIL, .GLB_CNT_SAT] d (Dev.wordGiveUp d) :=
  Dev.frame_of_ind (fun hP h => Dev.wordGiveUp_ind hP h) (by decide) (by decide)

theorem Dev.wordsDrop_frame (d : Dev) :
    Dev.frame [.trigBus] [.SYN_MSG_STAT, .SYN_CNT_TXFAIL, .GLB_CNT_SAT] d (Dev.wordsDrop d) :=
  Dev.frame_of_ind (fun hP h => Dev.wordsDrop_ind hP h) (by decide) (by decide)

theorem Dev.wordCollision_frame (d : Dev) :
    Dev.frame [.events, .trigBus] [.SYN_MSG_STAT, .SYN_LFSR, .SYN_CNT_COLL, .SYN_CNT_TXFAIL, .GLB_CNT_SAT] d
      (Dev.wordCollision d) :=
  Dev.frame_of_ind (fun hP h => Dev.wordCollision_ind hP h) (by decide) (by decide)

theorem Dev.msgModeEnableEff_frame (v : W32) (d : Dev) :
    Dev.frame [.draws, .trigger, .trigBus] [.SYN_MSG_CTL, .SYN_MSG_STAT, .SYN_CNT_TXFAIL, .GLB_CNT_SAT, .TST_CTL,
      .TST_STAT, .TST_BITS, .TST_ERRS] d (Dev.msgModeEnableEff v d) :=
  Dev.frame_of_ind (fun hP h => Dev.msgModeEnableEff_ind hP h) (by decide) (by decide)

theorem Dev.msgTxGoEff_frame (v : W32) (d : Dev) :
    Dev.frame [.trigBus] [.SYN_MSG_TX, .SYN_MSG_STAT, .SYN_CNT_TXFAIL, .GLB_CNT_SAT] d (Dev.msgTxGoEff v d) :=
  Dev.frame_of_ind (fun hP h => Dev.msgTxGoEff_ind hP h) (by decide) (by decide)

theorem Dev.wordSendStartEff_frame (d : Dev) :
    Dev.frame [.clock, .bus, .events, .trigBus] [] d (Dev.wordSendStartEff d) :=
  Dev.frame_of_ind (fun hP h => Dev.wordSendStartEff_ind hP h) (by decide) (by decide)

theorem Dev.backoffExpiryEff_frame (d : Dev) :
    Dev.frame [.clock, .bus, .events, .trigBus] [] d (Dev.backoffExpiryEff d) :=
  Dev.frame_of_ind (fun hP h => Dev.backoffExpiryEff_ind hP h) (by decide) (by decide)

theorem Dev.wordArrives_frame (d : Dev) (b : Nat) (w : W32) :
    Dev.frame [.trigger, .decimation] [] d (Dev.wordArrives d b w) :=
  Dev.frame_of_ind (fun hP h => Dev.wordArrives_ind hP h) (by decide) (by decide)

theorem Dev.msgTxEff_frame (d : Dev) :
    Dev.frame [.clock, .bus, .trigger, .decimation, .events, .trigBus] [.SYN_MSG_STAT, .SYN_CNT_TX] d (Dev.msgTxEff d) :=
  Dev.frame_of_ind (fun hP h => Dev.msgTxEff_ind hP h) (by decide) (by decide)

theorem Dev.msgFrameRxEff_frame (framed : Bool) (word : W32) (crc : Byte) (ago : Nat) (sample : Nat) (frac : Nat) (d :
    Dev) :
    Dev.frame [.trigger, .decimation, .events] [.SYN_MSG_LAST, .SYN_CNT_MSGBAD, .SYN_CNT_IDCLASH, .SYN_CNT_RX,
      .GLB_CNT_SAT] d (Dev.msgFrameRxEff framed word crc ago sample frac d) :=
  Dev.frame_of_ind (fun hP h => Dev.msgFrameRxEff_ind hP h) (by decide) (by decide)

theorem Dev.pingEnd_frame (d : Dev) (result : Nat) :
    Dev.frame [.trigBus] [.SYN_PING_STAT] d (Dev.pingEnd d result) :=
  Dev.frame_of_ind (fun hP h => Dev.pingEnd_ind hP h) (by decide) (by decide)

theorem Dev.pingGoEff_frame (v : W32) (d : Dev) :
    Dev.frame [.draws, .trigger, .trigBus] [.SYN_PING_CTL, .SYN_PING_STAT, .TST_CTL, .TST_STAT, .TST_BITS, .TST_ERRS] d
      (Dev.pingGoEff v d) :=
  Dev.frame_of_ind (fun hP h => Dev.pingGoEff_ind hP h) (by decide) (by decide)

theorem Dev.pingDrive_frame (d : Dev) (p : Ping) (b : Nat) :
    Dev.frame [.trigBus] [] d (Dev.pingDrive d p b) :=
  Dev.frame_of_ind (fun hP h => Dev.pingDrive_ind hP h) (by decide) (by decide)

theorem Dev.pingPulseEff_frame (d : Dev) :
    Dev.frame [.clock, .bus, .events, .trigBus] [.GLB_CNT_SAT] d (Dev.pingPulseEff d) :=
  Dev.frame_of_ind (fun hP h => Dev.pingPulseEff_ind hP h) (by decide) (by decide)

theorem Dev.pingMeasured_frame (d : Dev) (x : Int) :
    Dev.frame [.trigBus] [.SYN_PING_STAT] d (Dev.pingMeasured d x) :=
  Dev.frame_of_ind (fun hP h => Dev.pingMeasured_ind hP h) (by decide) (by decide)

theorem Dev.pingEdge_frame (d : Dev) (p : Ping) (stamp : Nat) :
    Dev.frame [.trigBus] [.SYN_PING_STAT, .GLB_CNT_SAT] d (Dev.pingEdge d p stamp) :=
  Dev.frame_of_ind (fun hP h => Dev.pingEdge_ind hP h) (by decide) (by decide)

theorem Dev.pingReplyEff_frame (d : Dev) :
    Dev.frame [.clock, .bus, .events, .trigBus] [.SYN_PING_STAT] d (Dev.pingReplyEff d) :=
  Dev.frame_of_ind (fun hP h => Dev.pingReplyEff_ind hP h) (by decide) (by decide)

theorem Dev.pingDoneEff_frame (d : Dev) :
    Dev.frame [.draws, .trigger, .events, .trigBus] [.SYN_PING_STAT, .SYN_PING_MEAN, .SYN_PING_SD, .GLB_CNT_SAT] d
      (Dev.pingDoneEff d) :=
  Dev.frame_of_ind (fun hP h => Dev.pingDoneEff_ind hP h) (by decide) (by decide)

theorem Dev.pingTimeoutEff_frame (d : Dev) :
    Dev.frame [.clock, .bus, .trigger, .events, .trigBus] [.SYN_PING_STAT] d (Dev.pingTimeoutEff d) :=
  Dev.frame_of_ind (fun hP h => Dev.pingTimeoutEff_ind hP h) (by decide) (by decide)

theorem Dev.pinDeliver_frame (d : Dev) (k : Nat) (x : Nat) (level : Bool) (stamp : Nat) (own : Option Nat) :
    Dev.frame [.timeBase, .trigger, .decimation, .events, .trigBus] [.SYN_PING_STAT, .GLB_CNT_SAT] d (Dev.pinDeliver d k x
      level stamp own) :=
  Dev.frame_of_ind (fun hP h => Dev.pinDeliver_ind hP h) (by decide) (by decide)

theorem Dev.pinFiltered_frame (d : Dev) (x : Nat) (stamp : Nat) (own : Option Nat) :
    Dev.frame [.timeBase, .trigger, .decimation, .events, .trigBus] [.SYN_PING_STAT, .SYN_PSTAT, .GLB_CNT_SAT] d
      (Dev.pinFiltered d x stamp own) :=
  Dev.frame_of_ind (fun hP h => Dev.pinFiltered_ind hP h) (by decide) (by decide)

theorem Dev.filteredChangeEff_frame (x : Nat) (d : Dev) :
    Dev.frame [.clock, .bus, .timeBase, .trigger, .decimation, .events, .trigBus] [.SYN_PING_STAT, .SYN_PSTAT,
      .GLB_CNT_SAT] d (Dev.filteredChangeEff x d) :=
  Dev.frame_of_ind (fun hP h => Dev.filteredChangeEff_ind hP h) (by decide) (by decide)

theorem Dev.pinEdgeEff_frame (x : Nat) (level : Bool) (sample : Nat) (frac : Nat) (d : Dev) :
    Dev.frame [.timeBase, .trigger, .decimation, .events, .trigBus] [.SYN_PING_STAT, .SYN_PSTAT, .SYN_CNT_GLITCH,
      .GLB_CNT_SAT] d (Dev.pinEdgeEff x level sample frac d) :=
  Dev.frame_of_ind (fun hP h => Dev.pinEdgeEff_ind hP h) (by decide) (by decide)

theorem Dev.lineRelease_frame (d : Dev) (x : Nat) :
    Dev.frame [.events, .trigBus] [.SYN_MSG_STAT, .SYN_CNT_TXFAIL, .GLB_CNT_SAT] d (Dev.lineRelease d x) :=
  Dev.frame_of_ind (fun hP h => Dev.lineRelease_ind hP h) (by decide) (by decide)

theorem Dev.ownershipWriteEff_frame (v : Nat) (d : Dev) :
    Dev.frame [.draws, .trigger, .events, .trigBus] [.SYN_OWN, .SYN_MSG_STAT, .SYN_CNT_TXFAIL, .GLB_CNT_SAT, .TST_CTL,
      .TST_STAT, .TST_BITS, .TST_ERRS] d (Dev.ownershipWriteEff v d) :=
  Dev.frame_of_ind (fun hP h => Dev.ownershipWriteEff_ind hP h) (by decide) (by decide)

theorem Dev.contentionEff_frame (x : Nat) (level : Bool) (d : Dev) :
    Dev.frame [.bus, .events, .trigBus] [.SYN_MSG_STAT, .SYN_LFSR, .SYN_CNT_CONT, .SYN_CNT_COLL, .SYN_CNT_TXFAIL,
      .SYN_PSTAT, .GLB_CNT_SAT, .TST_ERRS] d (Dev.contentionEff x level d) :=
  Dev.frame_of_ind (fun hP h => Dev.contentionEff_ind hP h) (by decide) (by decide)

theorem Dev.faultClearEff_frame (x : Nat) (d : Dev) :
    Dev.frame [.trigBus] [.SYN_PSTAT] d (Dev.faultClearEff x d) :=
  Dev.frame_of_ind (fun hP h => Dev.faultClearEff_ind hP h) (by decide) (by decide)

theorem Dev.trigBusReset_frame (d : Dev) :
    Dev.frame [.trigBus] [.SYN_MSG_STAT, .SYN_CNT_TXFAIL, .GLB_CNT_SAT] d (Dev.trigBusReset d) :=
  Dev.frame_of_ind (fun hP h => Dev.trigBusReset_ind hP h) (by decide) (by decide)

theorem Dev.portReady_frame (d : Dev) (p : Nat) :
    Dev.frame [] [.ETH_STAT] d (Dev.portReady d p) :=
  Dev.frame_of_ind (fun hP h => Dev.portReady_ind hP h) (by decide) (by decide)

theorem Dev.portEnableEff_frame (p : Nat) (v : W32) (d : Dev) :
    Dev.frame [.draws] [.ETH_CTL, .ETH_STAT, .TST_CTL, .TST_STAT, .TST_BITS, .TST_ERRS] d (Dev.portEnableEff p v d) :=
  Dev.frame_of_ind (fun hP h => Dev.portEnableEff_ind hP h) (by decide) (by decide)

theorem Dev.stalledShow_frame (d : Dev) (p : Nat) :
    Dev.frame [] [.ETH_STAT] d (Dev.stalledShow d p) :=
  Dev.frame_of_ind (fun hP h => Dev.stalledShow_ind hP h) (by decide) (by decide)

theorem Dev.portDisableEff_frame (p : Nat) (d : Dev) :
    Dev.frame [.ports] [.ETH_CTL, .ETH_STAT, .ETH_CNT_ABANDON, .GLB_CNT_SAT] d (Dev.portDisableEff p d) :=
  Dev.frame_of_ind (fun hP h => Dev.portDisableEff_ind hP h) (by decide) (by decide)

theorem Dev.creditEff_frame (t : Nat) (ack : Nat) (limit : Nat) (d : Dev) :
    Dev.frame [.bench, .ports] [.ETH_STAT, .ETH_CNT_STALE, .GLB_CNT_SAT] d (Dev.creditEff t ack limit d) :=
  Dev.frame_of_ind (fun hP h => Dev.creditEff_ind hP h) (by decide) (by decide)

theorem Dev.retxQueue_frame (d : Dev) (p : Nat) (t : Nat) (seq : Nat) :
    Dev.frame [.ports] [.ETH_CNT_STALE, .GLB_CNT_SAT] d (Dev.retxQueue d p t seq) :=
  Dev.frame_of_ind (fun hP h => Dev.retxQueue_ind hP h) (by decide) (by decide)

theorem Dev.nackEff_frame (t : Nat) (ack : Nat) (limit : Nat) (runs : List (Nat × Nat)) (d : Dev) :
    Dev.frame [.bench, .ports] [.ETH_STAT, .ETH_CNT_BADHDR, .ETH_CNT_STALE, .GLB_CNT_SAT] d (Dev.nackEff t ack limit runs
      d) :=
  Dev.frame_of_ind (fun hP h => Dev.nackEff_ind hP h) (by decide) (by decide)

theorem Dev.retransmitEff_frame (p : Nat) (d : Dev) :
    Dev.frame [.events, .ports] [.ETH_CNT_RETX, .GLB_CNT_SAT] d (Dev.retransmitEff p d) :=
  Dev.frame_of_ind (fun hP h => Dev.retransmitEff_ind hP h) (by decide) (by decide)

theorem Dev.creditTimeoutEff_frame (t : Nat) (d : Dev) :
    Dev.frame [.clock, .bus, .bench, .events, .ports] [.ETH_STAT] d (Dev.creditTimeoutEff t d) :=
  Dev.frame_of_ind (fun hP h => Dev.creditTimeoutEff_ind hP h) (by decide) (by decide)

theorem Dev.segmentPacket_frame (d : Dev) (t : Nat) (k : Nat) (h : Held) :
    Dev.frame [.lanes, .bench, .events, .ports] [.REC_SKN_OLDEST] d (Dev.segmentPacket d t k h) :=
  Dev.frame_of_ind (fun hP h => Dev.segmentPacket_ind hP h) (by decide) (by decide)

theorem Dev.replayPacket_frame (d : Dev) (t : Nat) :
    Dev.frame [.bench, .events, .ports] [.BEN_HT_WP] d (Dev.replayPacket d t) :=
  Dev.frame_of_ind (fun hP h => Dev.replayPacket_ind hP h) (by decide) (by decide)

theorem Dev.packetLaunchEff_frame (t : Nat) (d : Dev) :
    Dev.frame [.lanes, .bench, .events, .ports] [.REC_SKN_OLDEST, .BEN_HT_WP] d (Dev.packetLaunchEff t d) :=
  Dev.frame_of_ind (fun hP h => Dev.packetLaunchEff_ind hP h) (by decide) (by decide)

theorem Dev.fireAtEff_frame (p : Nat) (sub : Nat) (arrival : Nat) (l : List Byte) (d : Dev) :
    Dev.frame [.trigger, .decimation, .queues, .events, .ports] [.ETH_CNT_FA_REJ, .GLB_CNT_SAT, .ETH_FA_LAST] d
      (Dev.fireAtEff p sub arrival l d) :=
  Dev.frame_of_ind (fun hP h => Dev.fireAtEff_ind hP h) (by decide) (by decide)

theorem Dev.faKeyWriteEff_frame (k : Nat) (i : Nat) (v : W32) (d : Dev) :
    Dev.frame [.fireKeys] [.ETH_FA_KCTL, .ETH_FA_LAST] d (Dev.faKeyWriteEff k i v d) :=
  Dev.frame_of_ind (fun hP h => Dev.faKeyWriteEff_ind hP h) (by decide) (by decide)

theorem Dev.arpNdEchoEff_frame (p : Nat) (d : Dev) :
    Dev.frame [.ports] [.ETH_CNT_HKDROP, .GLB_CNT_SAT] d (Dev.arpNdEchoEff p d) :=
  Dev.frame_of_ind (fun hP h => Dev.arpNdEchoEff_ind hP h) (by decide) (by decide)

theorem Dev.foreign_frame (d : Dev) (p : Nat) :
    Dev.frame [.events] [.ETH_CNT_FOREIGN, .GLB_CNT_SAT] d (Dev.foreign d p) :=
  Dev.frame_of_ind (fun hP h => Dev.foreign_ind hP h) (by decide) (by decide)

theorem Dev.jarizRx_frame (d : Dev) (p : Nat) (sub : Nat) (arrival : Nat) (v6 : Bool) (src : Nat) (sport : Nat) (l :
    List Byte) :
    Dev.frame [.trigger, .decimation, .bench, .queues, .events, .ports] [.ETH_STAT, .ETH_CNT_BADHDR, .ETH_CNT_UNKNOWN,
      .ETH_CNT_STALE, .ETH_CNT_FA_REJ, .GLB_CNT_SAT, .ETH_FA_LAST] d (Dev.jarizRx d p sub arrival v6 src sport l) :=
  Dev.frame_of_ind (fun hP h => Dev.jarizRx_ind hP h) (by decide) (by decide)

theorem Dev.ethFrameRxEff_frame (p : Nat) (sub : Nat) (arrival : Nat) (f : EthFrame) (d : Dev) :
    Dev.frame [.trigger, .decimation, .bench, .queues, .events, .ports] [.ETH_STAT, .ETH_CNT_FCS, .ETH_CNT_FOREIGN,
      .ETH_CNT_BADHDR, .ETH_CNT_UNKNOWN, .ETH_CNT_HKDROP, .ETH_CNT_STALE, .ETH_CNT_FA_REJ, .GLB_CNT_SAT, .ETH_FA_LAST]
      d (Dev.ethFrameRxEff p sub arrival f d) :=
  Dev.frame_of_ind (fun hP h => Dev.ethFrameRxEff_ind hP h) (by decide) (by decide)

theorem Dev.subportLink_frame (d : Dev) (p : Nat) (s : Nat) (up : Bool) :
    Dev.frame [.events] [.ETH_STAT] d (Dev.subportLink d p s up) :=
  Dev.frame_of_ind (fun hP h => Dev.subportLink_ind hP h) (by decide) (by decide)

theorem Dev.subportLinkUpEff_frame (p : Nat) (s : Nat) (d : Dev) :
    Dev.frame [.events] [.ETH_STAT] d (Dev.subportLinkUpEff p s d) :=
  Dev.frame_of_ind (fun hP h => Dev.subportLinkUpEff_ind hP h) (by decide) (by decide)

theorem Dev.subportLinkDownEff_frame (p : Nat) (s : Nat) (d : Dev) :
    Dev.frame [.events] [.ETH_STAT] d (Dev.subportLinkDownEff p s d) :=
  Dev.frame_of_ind (fun hP h => Dev.subportLinkDownEff_ind hP h) (by decide) (by decide)

theorem Dev.canvasResult_frame (d : Dev) (c : Nat) (r : Nat) :
    Dev.frame [] [.RAS_STAT] d (Dev.canvasResult d c r) :=
  Dev.frame_of_ind (fun hP h => Dev.canvasResult_ind hP h) (by decide) (by decide)

theorem Dev.canvasEnableEff_frame (c : Nat) (d : Dev) :
    Dev.frame [] [.RAS_CTL, .RAS_STAT] d (Dev.canvasEnableEff c d) :=
  Dev.frame_of_ind (fun hP h => Dev.canvasEnableEff_ind hP h) (by decide) (by decide)

theorem Dev.canvasDisable_frame (d : Dev) (c : Nat) :
    Dev.frame [.raster] [.RAS_CTL, .RAS_STAT] d (Dev.canvasDisable d c) :=
  Dev.frame_of_ind (fun hP h => Dev.canvasDisable_ind hP h) (by decide) (by decide)

theorem Dev.rasGoEff_frame (c : Nat) (d : Dev) :
    Dev.frame [.raster] [] d (Dev.rasGoEff c d) :=
  Dev.frame_of_ind (fun hP h => Dev.rasGoEff_ind hP h) (by decide) (by decide)

theorem Dev.passStartEff_frame (c : Nat) (d : Dev) :
    Dev.frame [.raster] [.RAS_STAT] d (Dev.passStartEff c d) :=
  Dev.frame_of_ind (fun hP h => Dev.passStartEff_ind hP h) (by decide) (by decide)

theorem Dev.layerErrors_frame (d : Dev) (c : Nat) :
    Dev.frame [] [.RAS_STAT] d (Dev.layerErrors d c) :=
  Dev.frame_of_ind (fun hP h => Dev.layerErrors_ind hP h) (by decide) (by decide)

theorem Dev.passEndEff_frame (c : Nat) (d : Dev) :
    Dev.frame [.clock, .bus, .events, .raster, .rasterMemory] [.RAS_STAT] d (Dev.passEndEff c d) :=
  Dev.frame_of_ind (fun hP h => Dev.passEndEff_ind hP h) (by decide) (by decide)

theorem Dev.dpyCommit_frame (d : Dev) (named : List Nat) :
    Dev.frame [.events, .raster] [.DPY_STAT, .DPY_CNT_REFUSED, .GLB_CNT_SAT] d (Dev.dpyCommit d named) :=
  Dev.frame_of_ind (fun hP h => Dev.dpyCommit_ind hP h) (by decide) (by decide)

theorem Dev.dpyCommitAEff_frame (d : Dev) :
    Dev.frame [.events, .raster] [.DPY_STAT, .DPY_CNT_REFUSED, .GLB_CNT_SAT] d (Dev.dpyCommitAEff d) :=
  Dev.frame_of_ind (fun hP h => Dev.dpyCommitAEff_ind hP h) (by decide) (by decide)

theorem Dev.dpyCommitBEff_frame (d : Dev) :
    Dev.frame [.events, .raster] [.DPY_STAT, .DPY_CNT_REFUSED, .GLB_CNT_SAT] d (Dev.dpyCommitBEff d) :=
  Dev.frame_of_ind (fun hP h => Dev.dpyCommitBEff_ind hP h) (by decide) (by decide)

theorem Dev.outStart_frame (d : Dev) (x : Nat) :
    Dev.frame [.raster] [] d (Dev.outStart d x) :=
  Dev.frame_of_ind (fun hP h => Dev.outStart_ind hP h) (by decide) (by decide)

theorem Dev.outsShow_frame (d : Dev) (before : Dev) :
    Dev.frame [.raster] [] d (Dev.outsShow d before) :=
  Dev.frame_of_ind (fun hP h => Dev.outsShow_ind hP h) (by decide) (by decide)

theorem Dev.dpyCtlWritten_frame (d : Dev) (before : Dev) (x : Nat) :
    Dev.frame [.draws, .raster] [.DPY_STAT, .TST_CTL, .TST_STAT, .TST_BITS, .TST_ERRS] d (Dev.dpyCtlWritten d before x) :=
  Dev.frame_of_ind (fun hP h => Dev.dpyCtlWritten_ind hP h) (by decide) (by decide)

theorem Dev.crcShow_frame (d : Dev) (x : Nat) :
    Dev.frame [.draws] [.TST_CRC] d (Dev.crcShow d x) :=
  Dev.frame_of_ind (fun hP h => Dev.crcShow_ind hP h) (by decide) (by decide)

theorem Dev.vblankEff_frame (x : Nat) (tick : Nat) (d : Dev) :
    Dev.frame [.draws, .events, .raster] [.DPY_STAT, .TST_CRC] d (Dev.vblankEff x tick d) :=
  Dev.frame_of_ind (fun hP h => Dev.vblankEff_ind hP h) (by decide) (by decide)

theorem Dev.vrrPorchEndEff_frame (d : Dev) :
    Dev.frame [.clock, .bus, .events, .raster] [] d (Dev.vrrPorchEndEff d) :=
  Dev.frame_of_ind (fun hP h => Dev.vrrPorchEndEff_ind hP h) (by decide) (by decide)

theorem Dev.outSample_frame (d : Dev) (x : Nat) :
    Dev.frame [.raster] [] d (Dev.outSample d x) :=
  Dev.frame_of_ind (fun hP h => Dev.outSample_ind hP h) (by decide) (by decide)

theorem Dev.frontBufferSampleEff_frame (x : Nat) (d : Dev) :
    Dev.frame [.clock, .bus, .events, .raster] [] d (Dev.frontBufferSampleEff x d) :=
  Dev.frame_of_ind (fun hP h => Dev.frontBufferSampleEff_ind hP h) (by decide) (by decide)

theorem Dev.push_frame (d : Dev) (x : Nat) :
    Dev.frame [.raster] [] d (Dev.push d x) :=
  Dev.frame_of_ind (fun hP h => Dev.push_ind hP h) (by decide) (by decide)

theorem Dev.teEdgeEff_frame (tick : Nat) (d : Dev) :
    Dev.frame [.events, .raster] [.DPY_STAT] d (Dev.teEdgeEff tick d) :=
  Dev.frame_of_ind (fun hP h => Dev.teEdgeEff_ind hP h) (by decide) (by decide)

theorem Dev.teMissEff_frame (d : Dev) :
    Dev.frame [.clock, .bus, .events, .raster] [.DPY_CNT_TEMISS, .GLB_CNT_SAT] d (Dev.teMissEff d) :=
  Dev.frame_of_ind (fun hP h => Dev.teMissEff_ind hP h) (by decide) (by decide)

theorem Dev.repairEff_frame (d : Dev) :
    Dev.frame [.draws, .events, .raster] [.RAS_CNT_REPAIR, .GLB_CNT_SAT] d (Dev.repairEff d) :=
  Dev.frame_of_ind (fun hP h => Dev.repairEff_ind hP h) (by decide) (by decide)

theorem Dev.fetchUnderrunEff_frame (x : Nat) (n : Nat) (d : Dev) :
    Dev.frame [.events, .raster] [.DPY_CNT_UNDER, .DPY_CNT_ABORT, .GLB_CNT_SAT] d (Dev.fetchUnderrunEff x n d) :=
  Dev.frame_of_ind (fun hP h => Dev.fetchUnderrunEff_ind hP h) (by decide) (by decide)

theorem Dev.daHotPlugEff_frame (d : Dev) :
    Dev.frame [.events, .raster] [] d (Dev.daHotPlugEff d) :=
  Dev.frame_of_ind (fun hP h => Dev.daHotPlugEff_ind hP h) (by decide) (by decide)

theorem Dev.daLinkTrainedEff_frame (trained : Option (Nat × Nat)) (d : Dev) :
    Dev.frame [.events, .raster] [.DPY_LINK] d (Dev.daLinkTrainedEff trained d) :=
  Dev.frame_of_ind (fun hP h => Dev.daLinkTrainedEff_ind hP h) (by decide) (by decide)

theorem Dev.newNonce_frame (d : Dev) :
    Dev.frame [.draws] [.SEC_NONCE] d (Dev.newNonce d) :=
  Dev.frame_of_ind (fun hP h => Dev.newNonce_ind hP h) (by decide) (by decide)

theorem Dev.secResult_frame (d : Dev) (r : Nat) :
    Dev.frame [.draws, .events, .security] [.SEC_NONCE, .SEC_STAT] d (Dev.secResult d r) :=
  Dev.frame_of_ind (fun hP h => Dev.secResult_ind hP h) (by decide) (by decide)

theorem Dev.measure_frame (d : Dev) (i : Nat) :
    Dev.frame [.security] [] d (Dev.measure d i) :=
  Dev.frame_of_ind (fun hP h => Dev.measure_ind hP h) (by decide) (by decide)

theorem Dev.measureAll_frame (d : Dev) :
    Dev.frame [.security] [] d (Dev.measureAll d) :=
  Dev.frame_of_ind (fun hP h => Dev.measureAll_ind hP h) (by decide) (by decide)

theorem Dev.lcState_frame (d : Dev) (st : Nat) :
    Dev.frame [.events] [.GLB_LC] d (Dev.lcState d st) :=
  Dev.frame_of_ind (fun hP h => Dev.lcState_ind hP h) (by decide) (by decide)

theorem Dev.scopesOpen_frame (d : Dev) (scope : Nat) :
    Dev.frame [.events, .security] [.SEC_STAT] d (Dev.scopesOpen d scope) :=
  Dev.frame_of_ind (fun hP h => Dev.scopesOpen_ind hP h) (by decide) (by decide)

theorem Dev.spdmClear_frame (d : Dev) :
    Dev.frame [.security] [] d (Dev.spdmClear d) :=
  Dev.frame_of_ind (fun hP h => Dev.spdmClear_ind hP h) (by decide) (by decide)

theorem Dev.returnErase_frame (d : Dev) :
    Dev.frame [.clock, .bus, .timeBase, .trigger, .lanes, .tally, .needles, .bench, .queues, .events, .fireKeys, .raster,
      .security, .benchMemory, .tallyMemory, .programMemory, .rasterMemory] [.TB_ORIGIN_CTL, .TRG_LFSR, .TRG_LAST,
      .TRG_OVR_FIRST, .TRG_CNT_ACC, .TRG_CNT_FILL, .TRG_CNT_HOLD, .TRG_CNT_BUSY, .TRG_CNT_OVR, .REC_LCTL, .REC_LSTAT,
      .REC_SEGNUM, .REC_CNT_DROPFR, .REC_CNT_NOTICE, .REC_CNT_SEGWRAP, .REC_SKN_CP, .REC_SKN_OLDEST, .BEN_STAT,
      .BEN_DROP_FIRST, .BEN_CNT_DROPFR, .GLB_LC, .GLB_CNT_SAT, .ETH_FA_KCTL, .ETH_FA_LAST] d (Dev.returnErase d) :=
  Dev.frame_of_ind (fun hP h => Dev.returnErase_ind hP h) (by decide) (by decide)

theorem Dev.enterReturn_frame (d : Dev) :
    Dev.frame [.clock, .bus, .timeBase, .trigger, .lanes, .tally, .needles, .bench, .queues, .events, .fireKeys, .raster,
      .security, .benchMemory, .tallyMemory, .programMemory, .rasterMemory] [.TB_ORIGIN_CTL, .TRG_LFSR, .TRG_LAST,
      .TRG_OVR_FIRST, .TRG_CNT_ACC, .TRG_CNT_FILL, .TRG_CNT_HOLD, .TRG_CNT_BUSY, .TRG_CNT_OVR, .REC_LCTL, .REC_LSTAT,
      .REC_SEGNUM, .REC_CNT_DROPFR, .REC_CNT_NOTICE, .REC_CNT_SEGWRAP, .REC_SKN_CP, .REC_SKN_OLDEST, .BEN_STAT,
      .BEN_DROP_FIRST, .BEN_CNT_DROPFR, .GLB_LC, .GLB_CNT_SAT, .ETH_FA_KCTL, .ETH_FA_LAST] d (Dev.enterReturn d) :=
  Dev.frame_of_ind (fun hP h => Dev.enterReturn_ind hP h) (by decide) (by decide)

theorem Dev.secEffect_frame (d : Dev) (kind : Nat) (l : List Byte) :
    Dev.frame [.clock, .bus, .timeBase, .trigger, .lanes, .tally, .needles, .bench, .queues, .events, .fireKeys, .raster,
      .security, .benchMemory, .tallyMemory, .programMemory, .rasterMemory] [.TB_ORIGIN_CTL, .TRG_LFSR, .TRG_LAST,
      .TRG_OVR_FIRST, .TRG_CNT_ACC, .TRG_CNT_FILL, .TRG_CNT_HOLD, .TRG_CNT_BUSY, .TRG_CNT_OVR, .REC_LCTL, .REC_LSTAT,
      .REC_SEGNUM, .REC_CNT_DROPFR, .REC_CNT_NOTICE, .REC_CNT_SEGWRAP, .REC_SKN_CP, .REC_SKN_OLDEST, .BEN_STAT,
      .BEN_DROP_FIRST, .BEN_CNT_DROPFR, .GLB_LC, .SEC_STAT, .GLB_CNT_SAT, .ETH_FA_KCTL, .ETH_FA_LAST] d (Dev.secEffect
      d kind l) :=
  Dev.frame_of_ind (fun hP h => Dev.secEffect_ind hP h) (by decide) (by decide)

theorem Dev.secGo_frame (d : Dev) :
    Dev.frame [.clock, .draws, .bus, .timeBase, .trigger, .lanes, .tally, .needles, .bench, .queues, .events, .fireKeys,
      .raster, .security, .benchMemory, .tallyMemory, .programMemory, .rasterMemory] [.TB_ORIGIN_CTL, .TRG_LFSR,
      .TRG_LAST, .TRG_OVR_FIRST, .TRG_CNT_ACC, .TRG_CNT_FILL, .TRG_CNT_HOLD, .TRG_CNT_BUSY, .TRG_CNT_OVR, .REC_LCTL,
      .REC_LSTAT, .REC_SEGNUM, .REC_CNT_DROPFR, .REC_CNT_NOTICE, .REC_CNT_SEGWRAP, .REC_SKN_CP, .REC_SKN_OLDEST,
      .BEN_STAT, .BEN_DROP_FIRST, .BEN_CNT_DROPFR, .GLB_LC, .SEC_NONCE, .SEC_STAT, .GLB_CNT_SAT, .ETH_FA_KCTL,
      .ETH_FA_LAST] d (Dev.secGo d) :=
  Dev.frame_of_ind (fun hP h => Dev.secGo_ind hP h) (by decide) (by decide)

theorem Dev.signedCommand_frame (kind : Nat) (fuses : Bool) (d : Dev) :
    Dev.frame [.clock, .draws, .bus, .timeBase, .trigger, .lanes, .tally, .needles, .bench, .queues, .events, .fireKeys,
      .raster, .security, .benchMemory, .tallyMemory, .programMemory, .rasterMemory] [.TB_ORIGIN_CTL, .TRG_LFSR,
      .TRG_LAST, .TRG_OVR_FIRST, .TRG_CNT_ACC, .TRG_CNT_FILL, .TRG_CNT_HOLD, .TRG_CNT_BUSY, .TRG_CNT_OVR, .REC_LCTL,
      .REC_LSTAT, .REC_SEGNUM, .REC_CNT_DROPFR, .REC_CNT_NOTICE, .REC_CNT_SEGWRAP, .REC_SKN_CP, .REC_SKN_OLDEST,
      .BEN_STAT, .BEN_DROP_FIRST, .BEN_CNT_DROPFR, .GLB_LC, .SEC_NONCE, .SEC_STAT, .GLB_CNT_SAT, .ETH_FA_KCTL,
      .ETH_FA_LAST] d (Dev.signedCommand kind fuses d) :=
  Dev.frame_of_ind (fun hP h => Dev.signedCommand_ind hP h) (by decide) (by decide)

theorem Dev.debugEff_frame (d : Dev) :
    Dev.frame [.clock, .draws, .bus, .timeBase, .trigger, .lanes, .tally, .needles, .bench, .queues, .events, .fireKeys,
      .raster, .security, .benchMemory, .tallyMemory, .programMemory, .rasterMemory] [.TB_ORIGIN_CTL, .TRG_LFSR,
      .TRG_LAST, .TRG_OVR_FIRST, .TRG_CNT_ACC, .TRG_CNT_FILL, .TRG_CNT_HOLD, .TRG_CNT_BUSY, .TRG_CNT_OVR, .REC_LCTL,
      .REC_LSTAT, .REC_SEGNUM, .REC_CNT_DROPFR, .REC_CNT_NOTICE, .REC_CNT_SEGWRAP, .REC_SKN_CP, .REC_SKN_OLDEST,
      .BEN_STAT, .BEN_DROP_FIRST, .BEN_CNT_DROPFR, .GLB_LC, .SEC_NONCE, .SEC_STAT, .GLB_CNT_SAT, .ETH_FA_KCTL,
      .ETH_FA_LAST] d (Dev.debugEff d) :=
  Dev.frame_of_ind (fun hP h => Dev.debugEff_ind hP h) (by decide) (by decide)

theorem Dev.spdmAnswer_frame (d : Dev) (code : Nat) (report : List Nat) :
    Dev.frame [.security] [] d (Dev.spdmAnswer d code report) :=
  Dev.frame_of_ind (fun hP h => Dev.spdmAnswer_ind hP h) (by decide) (by decide)

theorem Dev.spdmError_frame (d : Dev) :
    Dev.frame [.security] [] d (Dev.spdmError d) :=
  Dev.frame_of_ind (fun hP h => Dev.spdmError_ind hP h) (by decide) (by decide)

theorem Dev.agree_frame (d : Dev) (n : Nat) :
    Dev.frame [.security] [] d (Dev.agree d n) :=
  Dev.frame_of_ind (fun hP h => Dev.agree_ind hP h) (by decide) (by decide)

theorem Dev.getVersionEff_frame (d : Dev) :
    Dev.frame [.security] [] d (Dev.getVersionEff d) :=
  Dev.frame_of_ind (fun hP h => Dev.getVersionEff_ind hP h) (by decide) (by decide)

theorem Dev.getCapabilitiesEff_frame (d : Dev) :
    Dev.frame [.security] [] d (Dev.getCapabilitiesEff d) :=
  Dev.frame_of_ind (fun hP h => Dev.getCapabilitiesEff_ind hP h) (by decide) (by decide)

theorem Dev.negotiateAlgorithmsEff_frame (d : Dev) :
    Dev.frame [.security] [] d (Dev.negotiateAlgorithmsEff d) :=
  Dev.frame_of_ind (fun hP h => Dev.negotiateAlgorithmsEff_ind hP h) (by decide) (by decide)

theorem Dev.getDigestsEff_frame (d : Dev) :
    Dev.frame [.security] [] d (Dev.getDigestsEff d) :=
  Dev.frame_of_ind (fun hP h => Dev.getDigestsEff_ind hP h) (by decide) (by decide)

theorem Dev.getCertificateEff_frame (slot : Nat) (d : Dev) :
    Dev.frame [.security] [] d (Dev.getCertificateEff slot d) :=
  Dev.frame_of_ind (fun hP h => Dev.getCertificateEff_ind hP h) (by decide) (by decide)

theorem Dev.challengeEff_frame (slot : Nat) (d : Dev) :
    Dev.frame [.security] [] d (Dev.challengeEff slot d) :=
  Dev.frame_of_ind (fun hP h => Dev.challengeEff_ind hP h) (by decide) (by decide)

theorem Dev.getMeasurementsEff_frame (index : Nat) (d : Dev) :
    Dev.frame [.security] [] d (Dev.getMeasurementsEff index d) :=
  Dev.frame_of_ind (fun hP h => Dev.getMeasurementsEff_ind hP h) (by decide) (by decide)

theorem Dev.keyExchangeEff_frame (d : Dev) :
    Dev.frame [.security] [] d (Dev.keyExchangeEff d) :=
  Dev.frame_of_ind (fun hP h => Dev.keyExchangeEff_ind hP h) (by decide) (by decide)

theorem Dev.finishEff_frame (s : Nat) (d : Dev) :
    Dev.frame [.events, .security] [] d (Dev.finishEff s d) :=
  Dev.frame_of_ind (fun hP h => Dev.finishEff_ind hP h) (by decide) (by decide)

theorem Dev.keyUpdateEff_frame (s : Nat) (d : Dev) :
    Dev.frame [.security] [] d (Dev.keyUpdateEff s d) :=
  Dev.frame_of_ind (fun hP h => Dev.keyUpdateEff_ind hP h) (by decide) (by decide)

theorem Dev.heartbeatEff_frame (s : Nat) (d : Dev) :
    Dev.frame [.security] [] d (Dev.heartbeatEff s d) :=
  Dev.frame_of_ind (fun hP h => Dev.heartbeatEff_ind hP h) (by decide) (by decide)

theorem Dev.endSessionEff_frame (s : Nat) (d : Dev) :
    Dev.frame [.events, .security] [] d (Dev.endSessionEff s d) :=
  Dev.frame_of_ind (fun hP h => Dev.endSessionEff_ind hP h) (by decide) (by decide)

theorem Dev.vendorDefinedRequestEff_frame (s : Nat) (stream : Nat) (key : Option (BitVec 256)) (d : Dev) :
    Dev.frame [.security] [] d (Dev.vendorDefinedRequestEff s stream key d) :=
  Dev.frame_of_ind (fun hP h => Dev.vendorDefinedRequestEff_ind hP h) (by decide) (by decide)

theorem Dev.ideErrorEff_frame (stream : Nat) (d : Dev) :
    Dev.frame [.events, .security] [.SEC_CNT_IDE, .GLB_CNT_SAT] d (Dev.ideErrorEff stream d) :=
  Dev.frame_of_ind (fun hP h => Dev.ideErrorEff_ind hP h) (by decide) (by decide)

theorem Dev.logicLoss_frame (d : Dev) (u : Nat) (g : Nat) :
    Dev.frame [.logic] [] d (Dev.logicLoss d u g) :=
  Dev.frame_of_ind (fun hP h => Dev.logicLoss_ind hP h) (by decide) (by decide)

theorem Dev.needleRelock_frame (d : Dev) (n : Nat) :
    Dev.frame [.needles] [] d (Dev.needleRelock d n) :=
  Dev.frame_of_ind (fun hP h => Dev.needleRelock_ind hP h) (by decide) (by decide)

theorem Dev.synthUnlockEff_frame (d : Dev) :
    Dev.frame [.paths, .logic, .slices, .timeBase, .events] [.CV_SSTAT, .TB_REF_STAT, .TB_ORIGIN_CTL, .TB_PHASE_ERR,
      .TB_LOSS_CNT, .GLB_CNT_SAT] d (Dev.synthUnlockEff d) :=
  Dev.frame_of_ind (fun hP h => Dev.synthUnlockEff_ind hP h) (by decide) (by decide)

theorem Dev.synthLockEff_frame (d : Dev) :
    Dev.frame [.slices, .timeBase, .trigger, .needles, .events] [.CV_SSTAT, .TB_REF_STAT, .TB_PHASE_ERR] d
      (Dev.synthLockEff d) :=
  Dev.frame_of_ind (fun hP h => Dev.synthLockEff_ind hP h) (by decide) (by decide)

theorem Dev.pendSet_frame (d : Dev) (e : Nat) :
    Dev.frame [.bus] [.EVR_PEND] d (Dev.pendSet d e) :=
  Dev.frame_of_ind (fun hP h => Dev.pendSet_ind hP h) (by decide) (by decide)

theorem Dev.routed_frame (d : Dev) (k : Nat) (e : Nat) :
    Dev.frame [.bus, .needles, .queues, .events, .trigBus] [.EVR_CNT_LOST, .EVR_PEND, .GLB_CNT_SAT] d (Dev.routed d k e)
      :=
  Dev.frame_of_ind (fun hP h => Dev.routed_ind hP h) (by decide) (by decide)

theorem Dev.arrive_frame (d : Dev) (l : List (Nat × Nat)) :
    Dev.frame [.bus, .needles, .queues, .events, .trigBus] [.EVR_CNT_LOST, .EVR_PEND, .GLB_CNT_SAT] d (Dev.arrive d l) :=
  Dev.frame_of_ind (fun hP h => Dev.arrive_ind hP h) (by decide) (by decide)

theorem Dev.eventsSettle_frame (d : Dev) :
    Dev.frame [.bus, .needles, .queues, .events, .trigBus] [.EVR_CNT_LOST, .EVR_PEND, .GLB_CNT_SAT] d (Dev.eventsSettle d)
      :=
  Dev.frame_of_ind (fun hP h => Dev.eventsSettle_ind hP h) (by decide) (by decide)

theorem Dev.eventRaisedEff_frame (e : Nat) (d : Dev) :
    Dev.frame [.clock, .bus, .needles, .queues, .events, .trigBus] [.EVR_CNT_LOST, .EVR_PEND, .GLB_CNT_SAT] d
      (Dev.eventRaisedEff e d) :=
  Dev.frame_of_ind (fun hP h => Dev.eventRaisedEff_ind hP h) (by decide) (by decide)

theorem Dev.xferState_frame (d : Dev) (c : Nat) (st : Nat) :
    Dev.frame [] [.XFE_G_BUSY, .XFE_G_HALTED, .XFE_STAT] d (Dev.xferState d c st) :=
  Dev.frame_of_ind (fun hP h => Dev.xferState_ind hP h) (by decide) (by decide)

theorem Dev.xferComplete_frame (d : Dev) (c : Nat) (status : Nat) (hops : Nat) (rest : Bool) (check : Nat) (tag : Nat)
    (bytes : Nat) :
    Dev.frame [.queues, .transfer] [.XFE_STAT] d (Dev.xferComplete d c status hops rest check tag bytes) :=
  Dev.frame_of_ind (fun hP h => Dev.xferComplete_ind hP h) (by decide) (by decide)

theorem Dev.descWrite_frame (d : Dev) (ptr : Nat) (ofs : Nat) (b : List Byte) :
    Dev.frame [.tally, .bench, .queues, .benchMemory, .tallyMemory, .hostMemory] [] d (Dev.descWrite d ptr ofs b) :=
  Dev.frame_of_ind (fun hP h => Dev.descWrite_ind hP h) (by decide) (by decide)

theorem Dev.ringStatus_frame (d : Dev) (ptr : Nat) (check : Nat) (status : Nat) :
    Dev.frame [.tally, .bench, .queues, .benchMemory, .tallyMemory, .hostMemory] [] d (Dev.ringStatus d ptr check status)
      :=
  Dev.frame_of_ind (fun hP h => Dev.ringStatus_ind hP h) (by decide) (by decide)

theorem Dev.xferFetch_frame (d : Dev) (c : Nat) (ptr : Nat) (hop : Nat) :
    Dev.frame [.transfer] [.XFE_G_BUSY, .XFE_G_HALTED, .XFE_STAT, .XFE_HOPS] d (Dev.xferFetch d c ptr hop) :=
  Dev.frame_of_ind (fun hP h => Dev.xferFetch_ind hP h) (by decide) (by decide)

theorem Dev.xferKickEff_frame (c : Nat) (d : Dev) :
    Dev.frame [.transfer] [.XFE_G_BUSY, .XFE_G_HALTED, .XFE_STAT] d (Dev.xferKickEff c d) :=
  Dev.frame_of_ind (fun hP h => Dev.xferKickEff_ind hP h) (by decide) (by decide)

theorem Dev.domainLost_frame (d : Dev) (n : Nat) :
    Dev.frame [.tally, .bench, .raster, .benchMemory, .tallyMemory, .rasterMemory] [.ETH_STAT] d (Dev.domainLost d n) :=
  Dev.frame_of_ind (fun hP h => Dev.domainLost_ind hP h) (by decide) (by decide)

theorem Dev.readyShow_frame (d : Dev) :
    Dev.frame [.eventInputs] [.BEN_STAT, .ETH_STAT] d (Dev.readyShow d) :=
  Dev.frame_of_ind (fun hP h => Dev.readyShow_ind hP h) (by decide) (by decide)

theorem Dev.chanState_frame (d : Dev) (c : Nat) (st : Nat) :
    Dev.frame [.events] [.QRY_CSTAT] d (Dev.chanState d c st) :=
  Dev.frame_of_ind (fun hP h => Dev.chanState_ind hP h) (by decide) (by decide)

theorem Dev.quarryTrained_frame (d : Dev) :
    Dev.frame [.bench, .events] [.BEN_QRY_STAT, .BEN_QRY_CAP, .BEN_QRY_MIG, .QRY_CSTAT, .QRY_RRT, .GLB_CNT_SAT] d
      (Dev.quarryTrained d) :=
  Dev.frame_of_ind (fun hP h => Dev.quarryTrained_ind hP h) (by decide) (by decide)

theorem Dev.chanReady_frame (d : Dev) (c : Nat) (x : Dimm) :
    Dev.frame [.bench, .events] [.BEN_QRY_STAT, .BEN_QRY_CAP, .BEN_QRY_MIG, .QRY_CSTAT, .QRY_RRT, .GLB_CNT_SAT] d
      (Dev.chanReady d c x) :=
  Dev.frame_of_ind (fun hP h => Dev.chanReady_ind hP h) (by decide) (by decide)

theorem Dev.quarryDisable_frame (d : Dev) :
    Dev.frame [.events] [.BEN_QRY_STAT, .QRY_CSTAT] d (Dev.quarryDisable d) :=
  Dev.frame_of_ind (fun hP h => Dev.quarryDisable_ind hP h) (by decide) (by decide)

theorem Dev.blockReadyEff_frame (n : Nat) (x : Dimm) (d : Dev) :
    Dev.frame [.tally, .eventInputs, .bench, .events, .raster, .power] [.BEN_STAT, .BEN_QRY_STAT, .BEN_QRY_CAP,
      .BEN_QRY_MIG, .QRY_CSTAT, .QRY_RRT, .ETH_STAT, .GLB_CNT_SAT, .HK_PD_STAT, .HK_DEC_IDX, .HK_DEC] d
      (Dev.blockReadyEff n x d) :=
  Dev.frame_of_ind (fun hP h => Dev.blockReadyEff_ind hP h) (by decide) (by decide)

theorem Dev.domainOff_frame (d : Dev) (n : Nat) :
    Dev.frame [.tally, .eventInputs, .bench, .events, .raster, .benchMemory, .tallyMemory, .rasterMemory] [.BEN_STAT,
      .ETH_STAT, .HK_PD_STAT, .HK_DEC_IDX, .HK_DEC] d (Dev.domainOff d n) :=
  Dev.frame_of_ind (fun hP h => Dev.domainOff_ind hP h) (by decide) (by decide)

theorem Dev.pdOffEff_frame (dom : Nat) (d : Dev) :
    Dev.frame [.tally, .eventInputs, .bench, .events, .raster, .benchMemory, .tallyMemory, .rasterMemory] [.BEN_STAT,
      .ETH_STAT, .HK_PD_OFF, .HK_PD_STAT, .HK_DEC_IDX, .HK_DEC] d (Dev.pdOffEff dom d) :=
  Dev.frame_of_ind (fun hP h => Dev.pdOffEff_ind hP h) (by decide) (by decide)

theorem Dev.pdLingerExpiryEff_frame (n : Nat) (d : Dev) :
    Dev.frame [.clock, .bus, .tally, .eventInputs, .bench, .events, .raster, .benchMemory, .tallyMemory, .rasterMemory]
      [.BEN_STAT, .ETH_STAT, .HK_PD_STAT, .HK_DEC_IDX, .HK_DEC] d (Dev.pdLingerExpiryEff n d) :=
  Dev.frame_of_ind (fun hP h => Dev.pdLingerExpiryEff_ind hP h) (by decide) (by decide)

theorem Dev.testsAbort_frame (d : Dev) :
    Dev.frame [.draws] [.TST_CTL, .TST_STAT, .TST_BITS, .TST_ERRS] d (Dev.testsAbort d) :=
  Dev.frame_of_ind (fun hP h => Dev.testsAbort_ind hP h) (by decide) (by decide)

theorem Dev.quarrySleep_frame (d : Dev) :
    Dev.frame [.bench] [.BEN_QRY_STAT] d (Dev.quarrySleep d) :=
  Dev.frame_of_ind (fun hP h => Dev.quarrySleep_ind hP h) (by decide) (by decide)

theorem Dev.itemsSettle_frame (d : Dev) :
    Dev.frame [.bench, .queues, .events, .benchMemory, .hostMemory] [.QUE_G_LOST, .QUE_IDX, .QUE_CNT, .GLB_CNT_SAT] d
      (Dev.itemsSettle d) :=
  Dev.frame_of_ind (fun hP h => Dev.itemsSettle_ind hP h) (by decide) (by decide)

theorem Dev.recordsSettle_frame (d : Dev) :
    Dev.frame [.lanes, .tally, .needles, .bench, .queues, .events] [.REC_CNT_TRUNC, .REC_CNT_SEG, .BEN_HT_CNT_SEG,
      .GLB_CNT_SAT] d (Dev.recordsSettle d) :=
  Dev.frame_of_ind (fun hP h => Dev.recordsSettle_ind hP h) (by decide) (by decide)

theorem Dev.commitStand_frame (d : Dev) (n : Nat) :
    Dev.frame [] [.CV_TBL_STAT, .CV_TSW_TICK, .CV_SUB_ACT] d (Dev.commitStand d n) :=
  Dev.frame_of_ind (fun hP h => Dev.commitStand_ind hP h) (by decide) (by decide)

theorem Dev.resetPrepare_frame (d : Dev) :
    Dev.frame [.queues, .events] [.CV_TBL_STAT, .CV_TSW_TICK, .CV_SUB_ACT, .BEN_QRY_STAT, .QRY_CSTAT, .QUE_CTL, .QUE_STAT,
      .QUE_IDX] d (Dev.resetPrepare d) :=
  Dev.frame_of_ind (fun hP h => Dev.resetPrepare_ind hP h) (by decide) (by decide)

theorem Dev.mainPgRiseEff_frame (d : Dev) :
    Dev.frame [.events, .power] [.HK_RST_CAUSE] d (Dev.mainPgRiseEff d) :=
  Dev.frame_of_ind (fun hP h => Dev.mainPgRiseEff_ind hP h) (by decide) (by decide)

theorem Dev.tbSleep_frame (d : Dev) :
    Dev.frame [.timeBase, .events] [.TB_REF_STAT, .TB_ORIGIN_CTL, .TB_PHASE_ERR] d (Dev.tbSleep d) :=
  Dev.frame_of_ind (fun hP h => Dev.tbSleep_ind hP h) (by decide) (by decide)

theorem Dev.wakeFrom_frame (d : Dev) (code : Nat) :
    Dev.frame [.events, .power] [.HK_WAKE_CAUSE, .HK_PD_STAT, .HK_DEC_IDX, .HK_DEC] d (Dev.wakeFrom d code) :=
  Dev.frame_of_ind (fun hP h => Dev.wakeFrom_ind hP h) (by decide) (by decide)

theorem Dev.wakeSourceEff_frame (src : WakeSrc) (d : Dev) :
    Dev.frame [.clock, .bus, .events, .power] [.HK_WAKE_CAUSE, .HK_PD_STAT, .HK_DEC_IDX, .HK_DEC] d (Dev.wakeSourceEff src
      d) :=
  Dev.frame_of_ind (fun hP h => Dev.wakeSourceEff_ind hP h) (by decide) (by decide)

theorem Dev.outputsResume_frame (d : Dev) :
    Dev.frame [.trigBus, .raster] [] d (Dev.outputsResume d) :=
  Dev.frame_of_ind (fun hP h => Dev.outputsResume_ind hP h) (by decide) (by decide)

theorem Dev.runShow_frame (d : Dev) (b : Bool) :
    Dev.frame [.power] [.HK_BOOT] d (Dev.runShow d b) :=
  Dev.frame_of_ind (fun hP h => Dev.runShow_ind hP h) (by decide) (by decide)

theorem Dev.bootSlot_frame (d : Dev) (b : Bool) (fallback : Bool) :
    Dev.frame [.clock, .bus, .timeBase, .trigger, .lanes, .tally, .needles, .bench, .queues, .events, .fireKeys, .raster,
      .power, .security, .benchMemory, .tallyMemory, .programMemory, .rasterMemory] [.TB_ORIGIN_CTL, .TRG_LFSR,
      .TRG_LAST, .TRG_OVR_FIRST, .TRG_CNT_ACC, .TRG_CNT_FILL, .TRG_CNT_HOLD, .TRG_CNT_BUSY, .TRG_CNT_OVR, .REC_LCTL,
      .REC_LSTAT, .REC_SEGNUM, .REC_CNT_DROPFR, .REC_CNT_NOTICE, .REC_CNT_SEGWRAP, .REC_SKN_CP, .REC_SKN_OLDEST,
      .BEN_STAT, .BEN_DROP_FIRST, .BEN_CNT_DROPFR, .HK_PWR_STAT, .GLB_LC, .GLB_CNT_SAT, .ETH_FA_KCTL, .ETH_FA_LAST,
      .HK_BOOT] d (Dev.bootSlot d b fallback) :=
  Dev.frame_of_ind (fun hP h => Dev.bootSlot_ind hP h) (by decide) (by decide)

theorem Dev.bootEff_frame (good : Bool × Bool) (d : Dev) :
    Dev.frame [.clock, .bus, .timeBase, .trigger, .lanes, .tally, .needles, .bench, .queues, .events, .fireKeys, .raster,
      .power, .security, .benchMemory, .tallyMemory, .programMemory, .rasterMemory] [.TB_ORIGIN_CTL, .TRG_LFSR,
      .TRG_LAST, .TRG_OVR_FIRST, .TRG_CNT_ACC, .TRG_CNT_FILL, .TRG_CNT_HOLD, .TRG_CNT_BUSY, .TRG_CNT_OVR, .REC_LCTL,
      .REC_LSTAT, .REC_SEGNUM, .REC_CNT_DROPFR, .REC_CNT_NOTICE, .REC_CNT_SEGWRAP, .REC_SKN_CP, .REC_SKN_OLDEST,
      .BEN_STAT, .BEN_DROP_FIRST, .BEN_CNT_DROPFR, .HK_PWR_STAT, .GLB_LC, .GLB_CNT_SAT, .ETH_FA_KCTL, .ETH_FA_LAST,
      .HK_PD_STAT, .HK_BOOT] d (Dev.bootEff good d) :=
  Dev.frame_of_ind (fun hP h => Dev.bootEff_ind hP h) (by decide) (by decide)

theorem Dev.fwStageEff_frame (good : Bool) (version : W32) (epoch : Nat) (d : Dev) :
    Dev.frame [.draws, .events, .power] [.HK_FW_CTL] d (Dev.fwStageEff good version epoch d) :=
  Dev.frame_of_ind (fun hP h => Dev.fwStageEff_ind hP h) (by decide) (by decide)

theorem Dev.fwSwitchEff_frame (d : Dev) :
    Dev.frame [.power] [.HK_FW_CTL] d (Dev.fwSwitchEff d) :=
  Dev.frame_of_ind (fun hP h => Dev.fwSwitchEff_ind hP h) (by decide) (by decide)

theorem Dev.fwSwitchStartEff_frame (d : Dev) :
    Dev.frame [.events, .power, .security] [.HK_BOOT, .HK_DEC_IDX, .HK_DEC] d (Dev.fwSwitchStartEff d) :=
  Dev.frame_of_ind (fun hP h => Dev.fwSwitchStartEff_ind hP h) (by decide) (by decide)

theorem Dev.fwConfirmEff_frame (d : Dev) :
    Dev.frame [.events, .power] [.HK_FW_CTL, .GLB_LC] d (Dev.fwConfirmEff d) :=
  Dev.frame_of_ind (fun hP h => Dev.fwConfirmEff_ind hP h) (by decide) (by decide)

theorem Dev.fwFail_frame (d : Dev) (st : Nat) :
    Dev.frame [.events, .power] [.HK_FW_CTL, .HK_BOOT] d (Dev.fwFail d st) :=
  Dev.frame_of_ind (fun hP h => Dev.fwFail_ind hP h) (by decide) (by decide)

theorem Dev.fwWatchdogEff_frame (d : Dev) :
    Dev.frame [.clock, .bus, .events, .power] [.HK_FW_CTL, .HK_BOOT] d (Dev.fwWatchdogEff d) :=
  Dev.frame_of_ind (fun hP h => Dev.fwWatchdogEff_ind hP h) (by decide) (by decide)

theorem Dev.tempShow_frame (d : Dev) (t : BitVec 16) :
    Dev.frame [] [.HK_TEMP] d (Dev.tempShow d t) :=
  Dev.frame_of_ind (fun hP h => Dev.tempShow_ind hP h) (by decide) (by decide)

theorem Dev.tempWarnEff_frame (t : BitVec 16) (d : Dev) :
    Dev.frame [.events] [.HK_TEMP] d (Dev.tempWarnEff t d) :=
  Dev.frame_of_ind (fun hP h => Dev.tempWarnEff_ind hP h) (by decide) (by decide)

theorem Dev.tempOkEff_frame (t : BitVec 16) (d : Dev) :
    Dev.frame [.events, .power] [.HK_TEMP] d (Dev.tempOkEff t d) :=
  Dev.frame_of_ind (fun hP h => Dev.tempOkEff_ind hP h) (by decide) (by decide)

theorem Dev.linkUpEff_frame (rate : Nat) (width : Nat) (d : Dev) :
    Dev.frame [.link, .events, .security] [] d (Dev.linkUpEff rate width d) :=
  Dev.frame_of_ind (fun hP h => Dev.linkUpEff_ind hP h) (by decide) (by decide)

theorem Dev.linkChangeEff_frame (rate : Nat) (width : Nat) (d : Dev) :
    Dev.frame [.link, .events] [] d (Dev.linkChangeEff rate width d) :=
  Dev.frame_of_ind (fun hP h => Dev.linkChangeEff_ind hP h) (by decide) (by decide)

theorem Dev.storeFree_frame (d : Dev) (st : Nat) (a : Nat) (n : Nat) :
    Dev.frame [.draws, .tally, .bench, .benchMemory, .tallyMemory] [] d (Dev.storeFree d st a n) :=
  Dev.frame_of_ind (fun hP h => Dev.storeFree_ind hP h) (by decide) (by decide)

theorem Dev.testStartEff_frame (s : Nat) (v : W64) (d : Dev) :
    Dev.frame [.draws, .tally, .eventInputs, .bench, .events, .raster, .benchMemory, .tallyMemory] [.BEN_STAT, .ETH_STAT,
      .TST_CTL, .TST_STAT, .TST_LOSS, .TST_BITS, .TST_ERRS, .HK_PD_STAT, .HK_DEC_IDX, .HK_DEC] d (Dev.testStartEff s v
      d) :=
  Dev.frame_of_ind (fun hP h => Dev.testStartEff_ind hP h) (by decide) (by decide)

theorem Dev.testCount_frame (d : Dev) (s : Nat) (bits : Nat) (errs : Nat) :
    Dev.frame [] [.TST_BITS, .TST_ERRS] d (Dev.testCount d s bits errs) :=
  Dev.frame_of_ind (fun hP h => Dev.testCount_ind hP h) (by decide) (by decide)

theorem Dev.testStopEff_frame (s : Nat) (bits : Nat) (errs : Nat) (d : Dev) :
    Dev.frame [] [.TST_CTL, .TST_STAT, .TST_BITS, .TST_ERRS] d (Dev.testStopEff s bits errs d) :=
  Dev.frame_of_ind (fun hP h => Dev.testStopEff_ind hP h) (by decide) (by decide)

theorem Dev.checkerLockEff_frame (s : Nat) (d : Dev) :
    Dev.frame [] [.TST_STAT] d (Dev.checkerLockEff s d) :=
  Dev.frame_of_ind (fun hP h => Dev.checkerLockEff_ind hP h) (by decide) (by decide)

theorem Dev.checkerLockLossEff_frame (s : Nat) (bits : Nat) (errs : Nat) (d : Dev) :
    Dev.frame [] [.TST_STAT, .TST_LOSS, .TST_BITS, .TST_ERRS] d (Dev.checkerLockLossEff s bits errs d) :=
  Dev.frame_of_ind (fun hP h => Dev.checkerLockLossEff_ind hP h) (by decide) (by decide)

theorem Dev.snap_frame (d : Dev) (rq : Rq) (r : Reg) (v : W32) :
    Dev.frame [.bus] [] d (Dev.snap d rq r v) :=
  Dev.frame_of_ind (fun hP h => Dev.snap_ind hP h) (by decide) (by decide)

theorem Dev.countUnmapped_frame (d : Dev) :
    Dev.frame [] [.GLB_ACC_ERR, .GLB_CNT_SAT] d (Dev.countUnmapped d) :=
  Dev.frame_of_ind (fun hP h => Dev.countUnmapped_ind hP h) (by decide) (by decide)

theorem Dev.countAsleep_frame (d : Dev) (n : Nat) :
    Dev.frame [] [.GLB_ACC_ERR, .GLB_CNT_SAT, .HK_CNT_SLEEPACC] d (Dev.countAsleep d n) :=
  Dev.frame_of_ind (fun hP h => Dev.countAsleep_ind hP h) (by decide) (by decide)

theorem Dev.badsizeEff_frame (write : Bool) (addr : Nat) (size : Nat) (d : Dev) :
    Dev.frame [.bus] [.GLB_ACC_ERR, .GLB_CNT_SAT] d (Dev.badsizeEff write addr size d) :=
  Dev.frame_of_ind (fun hP h => Dev.badsizeEff_ind hP h) (by decide) (by decide)

theorem Dev.stage_frame (d : Dev) (rq : Rq) (r : Reg) (v : Option W32) :
    Dev.frame [.bus] [] d (Dev.stage d rq r v) :=
  Dev.frame_of_ind (fun hP h => Dev.stage_ind hP h) (by decide) (by decide)

theorem Dev.applyFault_frame (d : Dev) (n : Nat) (f : Flight) (code : Nat) (detail : Nat) :
    Dev.frame [.needles, .events] [.NDL_ENTRY, .NDL_FAULT_PC, .NDL_WIN, .NDL_REPLACE, .NDL_FAULT, .NDL_FAULT_TICK] d
      (Dev.applyFault d n f code detail) :=
  Dev.frame_of_ind (fun hP h => Dev.applyFault_ind hP h) (by decide) (by decide)

theorem Dev.castonApply_frame (d : Dev) (n : Nat) (f : Flight) (a : W64) (b : W64) :
    Dev.frame [.timeBase, .needles, .events] [.TB_ORIGIN_CTL, .NDL_ENTRY, .NDL_FAULT_PC, .NDL_WIN, .NDL_REPLACE,
      .NDL_FAULT, .NDL_FAULT_TICK, .NDL_CLAIM0, .NDL_CLAIM1] d (Dev.castonApply d n f a b) :=
  Dev.frame_of_ind (fun hP h => Dev.castonApply_ind hP h) (by decide) (by decide)

theorem Dev.bindoffApply_frame (d : Dev) (n : Nat) :
    Dev.frame [.clock, .bus, .timeBase, .trigger, .lanes, .tally, .needles, .stimulus, .bench, .queues, .events, .trigBus,
      .benchMemory, .tallyMemory] [.TB_ORIGIN_CTL, .TRG_LFSR, .TRG_LAST, .TRG_OVR_FIRST, .TRG_CNT_ACC, .TRG_CNT_FILL,
      .TRG_CNT_HOLD, .TRG_CNT_BUSY, .TRG_CNT_OVR, .REC_LSTAT, .REC_SEGNUM, .REC_CNT_DROPFR, .REC_CNT_NOTICE,
      .REC_CNT_SEGWRAP, .REC_SKN_CP, .REC_SKN_OLDEST, .NDL_CLAIM0, .NDL_CLAIM1, .STM_USTAT, .STM_CNT_CANCEL,
      .STM_PF_STAT, .BEN_STAT, .BEN_DROP_FIRST, .BEN_CNT_DROPFR, .GLB_CNT_SAT] d (Dev.bindoffApply d n) :=
  Dev.frame_of_ind (fun hP h => Dev.bindoffApply_ind hP h) (by decide) (by decide)

theorem Dev.segApply_frame (d : Dev) (n : Nat) (f : Flight) (lane : Nat) (a : W64) (b : W64) :
    Dev.frame [.lanes, .needles, .events] [.REC_CNT_REFUSED, .NDL_ENTRY, .NDL_FAULT_PC, .NDL_WIN, .NDL_REPLACE,
      .NDL_FAULT, .NDL_FAULT_TICK, .GLB_CNT_SAT] d (Dev.segApply d n f lane a b) :=
  Dev.frame_of_ind (fun hP h => Dev.segApply_ind hP h) (by decide) (by decide)

theorem Dev.armApply_frame (d : Dev) (n : Nat) (f : Flight) (mask : Nat) (on : Bool) :
    Dev.frame [.trigger, .needles, .events] [.NDL_ENTRY, .NDL_FAULT_PC, .NDL_WIN, .NDL_REPLACE, .NDL_FAULT,
      .NDL_FAULT_TICK] d (Dev.armApply d n f mask on) :=
  Dev.frame_of_ind (fun hP h => Dev.armApply_ind hP h) (by decide) (by decide)

theorem Dev.playApply_frame (d : Dev) (n : Nat) (f : Flight) (su : Nat) (a : W64) (b : W64) :
    Dev.frame [.needles, .stimulus, .events] [.NDL_ENTRY, .NDL_FAULT_PC, .NDL_WIN, .NDL_REPLACE, .NDL_FAULT,
      .NDL_FAULT_TICK, .STM_USTAT, .STM_CNT_CANCEL, .STM_CNT_REFUSED, .STM_PF_STAT, .GLB_CNT_SAT] d (Dev.playApply d n
      f su a b) :=
  Dev.frame_of_ind (fun hP h => Dev.playApply_ind hP h) (by decide) (by decide)

theorem Dev.written_frame (d : Dev) (w : FrameWrite) :
    Dev.frame [.bus] [] d (Dev.written d w) :=
  Dev.frame_of_ind (fun hP h => Dev.written_ind hP h) (by decide) (by decide)

theorem Dev.busWrites_frame (ws : List BusWr) (d : Dev) :
    Dev.frame [.bus] [] d (Dev.busWrites ws d) :=
  Dev.frame_of_ind (fun hP h => Dev.busWrites_ind hP h) (by decide) (by decide)

theorem Dev.highHalfWriteEff_frame (rq : Rq) (addr : Nat) (v : W32) (d : Dev) :
    Dev.frame [.bus] [] d (Dev.highHalfWriteEff rq addr v d) :=
  Dev.frame_of_ind (fun hP h => Dev.highHalfWriteEff_ind hP h) (by decide) (by decide)

theorem Dev.lowHalfWriteEff_frame (rq : Rq) (addr : Nat) (v : W32) (d : Dev) :
    Dev.frame [.bus] [] d (Dev.lowHalfWriteEff rq addr v d) :=
  Dev.frame_of_ind (fun hP h => Dev.lowHalfWriteEff_ind hP h) (by decide) (by decide)

theorem Dev.apertureOor_frame (d : Dev) :
    Dev.frame [.events] [.QUE_CNT_APT, .GLB_CNT_SAT] d (Dev.apertureOor d) :=
  Dev.frame_of_ind (fun hP h => Dev.apertureOor_ind hP h) (by decide) (by decide)

theorem Dev.apertureAnswer_frame (d : Dev) (bytes : List Byte) (poison : Bool) :
    Dev.frame [.link] [] d (Dev.apertureAnswer d bytes poison) :=
  Dev.frame_of_ind (fun hP h => Dev.apertureAnswer_ind hP h) (by decide) (by decide)

theorem Dev.apertureReadEff_frame (x : Nat) (n : Nat) (d : Dev) :
    Dev.frame [.link, .events] [.QUE_CNT_APT, .GLB_CNT_SAT] d (Dev.apertureReadEff x n d) :=
  Dev.frame_of_ind (fun hP h => Dev.apertureReadEff_ind hP h) (by decide) (by decide)

theorem Dev.apertureWriteEff_frame (x : Nat) (data : List Byte) (d : Dev) :
    Dev.frame [.tally, .bench, .events, .benchMemory, .tallyMemory] [.TAL_G_WDROP, .QUE_CNT_APT, .GLB_CNT_SAT] d
      (Dev.apertureWriteEff x data d) :=
  Dev.frame_of_ind (fun hP h => Dev.apertureWriteEff_ind hP h) (by decide) (by decide)

theorem Dev.xferLast_frame (d : Dev) (c : Nat) :
    Dev.frame [.bus, .tally, .needles, .bench, .queues, .transfer, .raster, .benchMemory, .tallyMemory, .programMemory,
      .rasterMemory, .hostMemory] [.TAL_G_WDROP, .NDL_G_WDROP, .GLB_CNT_SAT] d (Dev.xferLast d c) :=
  Dev.frame_of_ind (fun hP h => Dev.xferLast_ind hP h) (by decide) (by decide)

end Sys2Proof.Machine
end

