-- ==== Sys2Proof/Tests/Slice0.lean ====
section
/-!
SUPPORT. Tests of the model: that ill-formed commands are refused by WellFormed, values written out from the spec, and for
each statement with hypotheses a state and operands that meet them.
-/
namespace Sys2Proof.Tests
open Sys2Proof Sys2Proof.Machine
set_option maxRecDepth 4000
set_option exponentiation.threshold 600

/-! ### Well-formedness: one ill-formed term for each check, refused -/

theorem test_wf_sampleFrame : Instr.wellFormed (.sampleFrame 0 (List.replicate 63 0)) = false := by decide
theorem test_wf_logicSample : ∃ i : Instr, i.wellFormed = false ∧ i = .logicSample default default [0, 0, 0] :=
  ⟨_, by decide, rfl⟩
theorem test_wf_gaugeResult : Instr.wellFormed (.gaugeResult [4194304]) = false := by decide
theorem test_wf_enableCalibration :
    Instr.wellFormed (.enableCalibrationDone 0 [(default, ⟨0, 0, []⟩)]) = false := by decide
theorem test_wf_spareCalibration : Instr.wellFormed (.spareCalibrationDone default default ⟨0, 0, [1]⟩) = false := by decide
theorem test_wf_apertureWrite : Instr.wellFormed (.apertureWrite 0 (List.replicate 4097 0)) = false := by decide +kernel
theorem test_wf_xferPiece : Instr.wellFormed (.xferPiece default default (List.replicate 4097 0)) = false := by decide +kernel
theorem test_wf_registerWrite : Instr.wellFormed (.registerWrite [⟨.needle 3, 0x400024, 4, 5⟩]) = false := by decide
theorem test_wf_lowHalfWrite : Instr.wellFormed (.lowHalfWrite (.needle 3) 0x510000 5) = false := by decide
theorem test_wf_highHalfWrite : Instr.wellFormed (.highHalfWrite (.needle 3) 0x510004 5) = false := by decide
theorem test_wf_sampleFrame_64 : Instr.wellFormed (.sampleFrame 0 (List.replicate 64 0)) = true := by decide

/-! ### Values written out from the spec -/

/-- R98: SEQ lies in bits 127 to 96, VALID in bit 88, TICK above FRAC in bits 79 to 16. -/
theorem test_time128 : time128 5 { valid := true } false 3 0 = 0x00000005010000000000000000030000 := by decide
/-- R15: a bit that TRG_CTL lacks stays 0. -/
theorem test_reserved_bit : ((({} : Dev).wr ⟨.TRG_CTL, 0, 0, 0⟩ 0xFFFFFFFF00000001).rd ⟨.TRG_CTL, 0, 0, 0⟩).getLsbD 63 = false := by decide
/-- R460: a counter that is read and cleared stops at all ones. -/
theorem test_counter_saturates :
    ((({} : Dev).put BEN_CNT_CE.COUNT 0xFFFFFFFF).count BEN_CNT_CE.COUNT).get BEN_CNT_CE.COUNT = 0xFFFFFFFF := by decide
/-- R344: one raising per frame. -/
theorem test_raise_once : ((({} : Dev).raise 7).raise 7).evr.arriving = [(1024, 7)] := by decide

/-! ### States and operands that meet the hypotheses of the statements -/

theorem witness_StepRunsTheFrontCommand_1 : ∃ d : Dev, d.bus.writes = [] := ⟨{}, rfl⟩
theorem witness_StepRunsTheFrontCommand_2 :
    ∃ d : Dev, d.bus.writes ≠ [] := ⟨({} : Dev).written (.needle 0 ⟨0, 0, default⟩), by decide⟩

theorem witness_CommandsActOnceTheFramesWritesHaveApplied_1 : ∃ d : Dev, d.bus.writes = [] := ⟨{}, rfl⟩
theorem witness_CommandsActOnceTheFramesWritesHaveApplied_2 :
    ∃ d : Dev, d.bus.writes ≠ [] := ⟨({} : Dev).written (.needle 0 ⟨0, 0, default⟩), by decide⟩
theorem witness_CommandsActOnceTheFramesWritesHaveApplied_3 : joinsFrame .retireClear = false := by decide

theorem witness_EveryStepKeepsTheCanonicalForm : State.reset.dev.regsWf = true ∧ State.reset.dev.memoriesWf = true ∧
    ∃ s', step { State.reset with pending := [.retireClear] } = .next s' := ⟨by decide, by decide, _, rfl⟩

theorem witness_ReservedBitsStayZero : State.reset.dev.regsWf = true ∧
    ∃ s', step { State.reset with pending := [.retireClear] } = .next s' := ⟨by decide, _, rfl⟩

theorem witness_EveryWellFormedCommandGoesOn_1 : Instr.wellFormed .retireClear = true := by decide
theorem witness_EveryWellFormedCommandGoesOn_2 : ∃ codes : List (BitVec 10), codes.length ≠ 64 := ⟨[], by decide⟩

theorem witness_TheClockNeverRunsBack : ∃ s', step { State.reset with pending := [.retireClear] } = .next s' := ⟨_, rfl⟩

theorem witness_MemoryWritesStayInTheirRange_1 : State.reset.dev.bus.writes = [] ∧ State.reset.dev.hostMode = 1 ∧ (State.reset.dev.aperture 0).1 = 0 ∧
    (State.reset.dev.aperture 0).2 + [(1 : Byte), 2].length ≤ benchSize := by decide
theorem witness_MemoryWritesStayInTheirRange_2 : State.reset.dev.bus.writes = [] ∧ (0xFFFF8 : BitVec 20).toNat + 8 ≤ 0x100000 ∧
    State.reset.dev.progBusy 0xFFFF8 8 = false := by decide

theorem witness_SliceCommandsFrame_1 :
    (∃ s', exec (.sampleFrame default (List.replicate 64 0)) State.reset = .next s')
    ∧ (∃ s', exec (.sliceEnable default) State.reset = .next s')
    ∧ (∃ s', exec (.sliceDisable default) State.reset = .next s')
    ∧ (∃ s', exec (.enableCalibrationDone default default) State.reset = .next s')
    ∧ (∃ s', exec (.rotation default default) State.reset = .next s')
    ∧ (∃ s', exec (.subconverterSwap default default) State.reset = .next s')
    ∧ (∃ s', exec (.monitorWindowEnd default default default) State.reset = .next s')
    ∧ (∃ s', exec (.sparingTransition default default) State.reset = .next s')
    ∧ (∃ s', exec (.spareCalibrationDone default default ⟨0, 0, []⟩) State.reset = .next s')
    ∧ (∃ s', exec (.failClrWrite default default default) State.reset = .next s')
    ∧ (∃ s', exec (.dacRouteWrite default default) State.reset = .next s')
    ∧ (∃ s', exec (.injectionSwitch default) State.reset = .next s') :=
  ⟨⟨_, rfl⟩, ⟨_, rfl⟩, ⟨_, rfl⟩, ⟨_, rfl⟩, ⟨_, rfl⟩, ⟨_, rfl⟩, ⟨_, rfl⟩, ⟨_, rfl⟩, ⟨_, rfl⟩, ⟨_, rfl⟩, ⟨_, rfl⟩, ⟨_, rfl⟩⟩

theorem witness_SliceCommandsFrame_2 :
    (∃ s', exec (.sliceClockLoss default) State.reset = .next s')
    ∧ (∃ s', exec (.sliceClockLock default) State.reset = .next s')
    ∧ (∃ s', exec (.correctedFrame default) State.reset = .next s')
    ∧ (∃ s', exec (.tableCommitSub default default) State.reset = .next s')
    ∧ (∃ s', exec (.tableCommitTim default) State.reset = .next s')
    ∧ (∃ s', exec (.commitEffect default) State.reset = .next s')
    ∧ (∃ s', exec (.tblSwitch default) State.reset = .next s')
    ∧ (∃ s', exec (.tableWindowWrite default default default) State.reset = .next s')
    ∧ (∃ s', exec (.nospareMatching default default default) State.reset = .next s')
    ∧ (∃ s', exec (.skewUpdate default) State.reset = .next s')
    ∧ (∃ s', exec (.swatchStart default) State.reset = .next s')
    ∧ (∃ s', exec (.swatchCapture default) State.reset = .next s') :=
  ⟨⟨_, rfl⟩, ⟨_, rfl⟩, ⟨_, rfl⟩, ⟨_, rfl⟩, ⟨_, rfl⟩, ⟨_, rfl⟩, ⟨_, rfl⟩, ⟨_, rfl⟩, ⟨_, rfl⟩, ⟨_, rfl⟩, ⟨_, rfl⟩, ⟨_, rfl⟩⟩

theorem witness_SliceCommandsFrame_3 :
    (∃ s', exec (.swatchRouteOff default) State.reset = .next s')
    ∧ (∃ s', exec (.swatchResult default ⟨false, []⟩) State.reset = .next s')
    ∧ (∃ s', exec (.tableFlashSave default) State.reset = .next s')
    ∧ (∃ s', exec (.stageStoreFrame default default) State.reset = .next s') :=
  ⟨⟨_, rfl⟩, ⟨_, rfl⟩, ⟨_, rfl⟩, ⟨_, rfl⟩⟩

theorem witness_TimeBaseCommandsFrame_1 :
    (∃ s', exec (.refPresent default default) State.reset = .next s')
    ∧ (∃ s', exec (.refAbsent) State.reset = .next s')
    ∧ (∃ s', exec (.extPresent default) State.reset = .next s')
    ∧ (∃ s', exec (.extAbsent default) State.reset = .next s')
    ∧ (∃ s', exec (.qualificationExpiry default) State.reset = .next s')
    ∧ (∃ s', exec (.synthLock) State.reset = .next s')
    ∧ (∃ s', exec (.synthUnlock) State.reset = .next s')
    ∧ (∃ s', exec (.timeStep) State.reset = .next s')
    ∧ (∃ s', exec (.holdoverExit) State.reset = .next s')
    ∧ (∃ s', exec (.originGo default) State.reset = .next s')
    ∧ (∃ s', exec (.originSet) State.reset = .next s')
    ∧ (∃ s', exec (.tickWrap) State.reset = .next s') :=
  ⟨⟨_, rfl⟩, ⟨_, rfl⟩, ⟨_, rfl⟩, ⟨_, rfl⟩, ⟨_, rfl⟩, ⟨_, rfl⟩, ⟨_, rfl⟩, ⟨_, rfl⟩, ⟨_, rfl⟩, ⟨_, rfl⟩, ⟨_, rfl⟩, ⟨_, rfl⟩⟩

theorem witness_TimeBaseCommandsFrame_2 :
    (∃ s', exec (.ppsIn default default default) State.reset = .next s')
    ∧ (∃ s', exec (.ppsMissing) State.reset = .next s')
    ∧ (∃ s', exec (.ppsOut) State.reset = .next s')
    ∧ (∃ s', exec (.ptpMessage ⟨.sync, 0, 0⟩ default) State.reset = .next s') :=
  ⟨⟨_, rfl⟩, ⟨_, rfl⟩, ⟨_, rfl⟩, ⟨_, rfl⟩⟩

theorem witness_TriggerAndLaneCommandsFrame_1 :
    (∃ s', exec (.trgEnWrite default default) State.reset = .next s')
    ∧ (∃ s', exec (.trgArmArm default) State.reset = .next s')
    ∧ (∃ s', exec (.trgArmDisarm default) State.reset = .next s')
    ∧ (∃ s', exec (.trgForce default) State.reset = .next s')
    ∧ (∃ s', exec (.armingEffect default) State.reset = .next s')
    ∧ (∃ s', exec (.levelSourceChange default) State.reset = .next s')
    ∧ (∃ s', exec (.tcmpLoad default default) State.reset = .next s')
    ∧ (∃ s', exec (.timeCompare default) State.reset = .next s')
    ∧ (∃ s', exec (.timedTriggerMessage default) State.reset = .next s')
    ∧ (∃ s', exec (.triggerDecision default default) State.reset = .next s')
    ∧ (∃ s', exec (.prfCommit default) State.reset = .next s')
    ∧ (∃ s', exec (.prfSwitch default) State.reset = .next s') :=
  ⟨⟨_, rfl⟩, ⟨_, rfl⟩, ⟨_, rfl⟩, ⟨_, rfl⟩, ⟨_, rfl⟩, ⟨_, rfl⟩, ⟨_, rfl⟩, ⟨_, rfl⟩, ⟨_, rfl⟩, ⟨_, rfl⟩, ⟨_, rfl⟩, ⟨_, rfl⟩⟩

theorem witness_TriggerAndLaneCommandsFrame_2 :
    (∃ s', exec (.laneEnable default default) State.reset = .next s')
    ∧ (∃ s', exec (.laneDisable default) State.reset = .next s')
    ∧ (∃ s', exec (.laneFlush default) State.reset = .next s')
    ∧ (∃ s', exec (.segmentRequest default default default) State.reset = .next s')
    ∧ (∃ s', exec (.requestActive default) State.reset = .next s')
    ∧ (∃ s', exec (.hoistWindowPlaced default) State.reset = .next s')
    ∧ (∃ s', exec (.segmentEnd default) State.reset = .next s')
    ∧ (∃ s', exec (.segmentRecord default) State.reset = .next s')
    ∧ (∃ s', exec (.recordDrain) State.reset = .next s')
    ∧ (∃ s', exec (.closeEntryFreed default) State.reset = .next s')
    ∧ (∃ s', exec (.skeinDefine default) State.reset = .next s')
    ∧ (∃ s', exec (.skeinRewind default) State.reset = .next s') :=
  ⟨⟨_, rfl⟩, ⟨_, rfl⟩, ⟨_, rfl⟩, ⟨_, rfl⟩, ⟨_, rfl⟩, ⟨_, rfl⟩, ⟨_, rfl⟩, ⟨_, rfl⟩, ⟨_, rfl⟩, ⟨_, rfl⟩, ⟨_, rfl⟩, ⟨_, rfl⟩⟩

theorem witness_TriggerAndLaneCommandsFrame_3 : ∃ s', exec (.dropRunEnd default) State.reset = .next s' := ⟨_, rfl⟩

theorem witness_DecimationTallyInputCommandsFrame_1 :
    (∃ s', exec (.decCommit default) State.reset = .next s')
    ∧ (∃ s', exec (.decEnable default default) State.reset = .next s')
    ∧ (∃ s', exec (.decRestart default) State.reset = .next s')
    ∧ (∃ s', exec (.decSyncGo) State.reset = .next s')
    ∧ (∃ s', exec (.timedSync) State.reset = .next s')
    ∧ (∃ s', exec (.decItemDelivery default) State.reset = .next s')
    ∧ (∃ s', exec (.fastPathItem default) State.reset = .next s')
    ∧ (∃ s', exec (.settled default) State.reset = .next s')
    ∧ (∃ s', exec (.tallyStart default default) State.reset = .next s')
    ∧ (∃ s', exec (.tallyClearDone default) State.reset = .next s')
    ∧ (∃ s', exec (.tallyStop default) State.reset = .next s')
    ∧ (∃ s', exec (.tallyPause default) State.reset = .next s') :=
  ⟨⟨_, rfl⟩, ⟨_, rfl⟩, ⟨_, rfl⟩, ⟨_, rfl⟩, ⟨_, rfl⟩, ⟨_, rfl⟩, ⟨_, rfl⟩, ⟨_, rfl⟩, ⟨_, rfl⟩, ⟨_, rfl⟩, ⟨_, rfl⟩, ⟨_, rfl⟩⟩

theorem witness_DecimationTallyInputCommandsFrame_2 :
    (∃ s', exec (.tallyPaused default) State.reset = .next s')
    ∧ (∃ s', exec (.tallyResume default) State.reset = .next s')
    ∧ (∃ s', exec (.tallyTrigger default) State.reset = .next s')
    ∧ (∃ s', exec (.tallyRecordComplete default) State.reset = .next s')
    ∧ (∃ s', exec (.foldComplete default) State.reset = .next s')
    ∧ (∃ s', exec (.halvingDone default) State.reset = .next s')
    ∧ (∃ s', exec (.maskVerdict default) State.reset = .next s')
    ∧ (∃ s', exec (.tallyMaskStop default) State.reset = .next s')
    ∧ (∃ s', exec (.tallySpaceWrite default default) State.reset = .next s')
    ∧ (∃ s', exec (.eviGmodeWrite default) State.reset = .next s')
    ∧ (∃ s', exec (.groupReady default) State.reset = .next s')
    ∧ (∃ s', exec (.eventEdge default default default default) State.reset = .next s') :=
  ⟨⟨_, rfl⟩, ⟨_, rfl⟩, ⟨_, rfl⟩, ⟨_, rfl⟩, ⟨_, rfl⟩, ⟨_, rfl⟩, ⟨_, rfl⟩, ⟨_, rfl⟩, ⟨_, rfl⟩, ⟨_, rfl⟩, ⟨_, rfl⟩, ⟨_, rfl⟩⟩

theorem witness_DecimationTallyInputCommandsFrame_3 :
    (∃ s', exec (.logicSample default default default) State.reset = .next s')
    ∧ (∃ s', exec (.stampCollect) State.reset = .next s')
    ∧ (∃ s', exec (.batchTimeout default) State.reset = .next s')
    ∧ (∃ s', exec (.eviIcfgWrite default default) State.reset = .next s')
    ∧ (∃ s', exec (.gaugeStart default) State.reset = .next s')
    ∧ (∃ s', exec (.gaugeAuto default) State.reset = .next s')
    ∧ (∃ s', exec (.gaugeResult default) State.reset = .next s')
    ∧ (∃ s', exec (.intervalDrain default) State.reset = .next s')
    ∧ (∃ s', exec (.iuCfgWrite default default) State.reset = .next s')
    ∧ (∃ s', exec (.gaugeTableSave) State.reset = .next s') :=
  ⟨⟨_, rfl⟩, ⟨_, rfl⟩, ⟨_, rfl⟩, ⟨_, rfl⟩, ⟨_, rfl⟩, ⟨_, rfl⟩, ⟨_, rfl⟩, ⟨_, rfl⟩, ⟨_, rfl⟩, ⟨_, rfl⟩⟩

theorem witness_NeedleCommandsFrame_1 :
    (∃ s', exec (.needleGo default) State.reset = .next s')
    ∧ (∃ s', exec (.needleStop default) State.reset = .next s')
    ∧ (∃ s', exec (.replaceGo default) State.reset = .next s')
    ∧ (∃ s', exec (.zMov default) State.reset = .next s')
    ∧ (∃ s', exec (.zLdi default) State.reset = .next s')
    ∧ (∃ s', exec (.zAdd default) State.reset = .next s')
    ∧ (∃ s', exec (.zSub default) State.reset = .next s')
    ∧ (∃ s', exec (.zAnd default) State.reset = .next s')
    ∧ (∃ s', exec (.zOr default) State.reset = .next s')
    ∧ (∃ s', exec (.zXor default) State.reset = .next s')
    ∧ (∃ s', exec (.zShl default) State.reset = .next s')
    ∧ (∃ s', exec (.zShr default) State.reset = .next s') :=
  ⟨⟨_, rfl⟩, ⟨_, rfl⟩, ⟨_, rfl⟩, ⟨_, rfl⟩, ⟨_, rfl⟩, ⟨_, rfl⟩, ⟨_, rfl⟩, ⟨_, rfl⟩, ⟨_, rfl⟩, ⟨_, rfl⟩, ⟨_, rfl⟩, ⟨_, rfl⟩⟩

theorem witness_NeedleCommandsFrame_2 :
    (∃ s', exec (.zCmp default) State.reset = .next s')
    ∧ (∃ s', exec (.zLd default) State.reset = .next s')
    ∧ (∃ s', exec (.zSt default) State.reset = .next s')
    ∧ (∃ s', exec (.zJmp default) State.reset = .next s')
    ∧ (∃ s', exec (.zBrc default) State.reset = .next s')
    ∧ (∃ s', exec (.zCall default) State.reset = .next s')
    ∧ (∃ s', exec (.zRet default) State.reset = .next s')
    ∧ (∃ s', exec (.zNop default) State.reset = .next s')
    ∧ (∃ s', exec (.zLoop default) State.reset = .next s')
    ∧ (∃ s', exec (.zSetf default) State.reset = .next s')
    ∧ (∃ s', exec (.zGetf default) State.reset = .next s')
    ∧ (∃ s', exec (.zCaston default) State.reset = .next s') :=
  ⟨⟨_, rfl⟩, ⟨_, rfl⟩, ⟨_, rfl⟩, ⟨_, rfl⟩, ⟨_, rfl⟩, ⟨_, rfl⟩, ⟨_, rfl⟩, ⟨_, rfl⟩, ⟨_, rfl⟩, ⟨_, rfl⟩, ⟨_, rfl⟩, ⟨_, rfl⟩⟩

theorem witness_NeedleCommandsFrame_3 :
    (∃ s', exec (.zBindoff default) State.reset = .next s')
    ∧ (∃ s', exec (.zArm default) State.reset = .next s')
    ∧ (∃ s', exec (.zDisarm default) State.reset = .next s')
    ∧ (∃ s', exec (.zSeg default) State.reset = .next s')
    ∧ (∃ s', exec (.zSync default) State.reset = .next s')
    ∧ (∃ s', exec (.zDelay default) State.reset = .next s')
    ∧ (∃ s', exec (.zWaitt default) State.reset = .next s')
    ∧ (∃ s', exec (.zWaittrig default) State.reset = .next s')
    ∧ (∃ s', exec (.zWaite default) State.reset = .next s')
    ∧ (∃ s', exec (.zWaitseg default) State.reset = .next s')
    ∧ (∃ s', exec (.zFence default) State.reset = .next s')
    ∧ (∃ s', exec (.zSignal default) State.reset = .next s') :=
  ⟨⟨_, rfl⟩, ⟨_, rfl⟩, ⟨_, rfl⟩, ⟨_, rfl⟩, ⟨_, rfl⟩, ⟨_, rfl⟩, ⟨_, rfl⟩, ⟨_, rfl⟩, ⟨_, rfl⟩, ⟨_, rfl⟩, ⟨_, rfl⟩, ⟨_, rfl⟩⟩

theorem witness_NeedleCommandsFrame_4 :
    (∃ s', exec (.zMark default) State.reset = .next s')
    ∧ (∃ s', exec (.zTone default) State.reset = .next s')
    ∧ (∃ s', exec (.zPlay default) State.reset = .next s')
    ∧ (∃ s', exec (.zYield default) State.reset = .next s')
    ∧ (∃ s', exec (.zHalt default) State.reset = .next s')
    ∧ (∃ s', exec (.zEndloop default) State.reset = .next s')
    ∧ (∃ s', exec (.zPost default) State.reset = .next s')
    ∧ (∃ s', exec (.waitComplete default) State.reset = .next s')
    ∧ (∃ s', exec (.replaceCancel default) State.reset = .next s')
    ∧ (∃ s', exec (.progStoreWrite default default) State.reset = .next s')
    ∧ (∃ s', exec (.needleWindowWrite default default default) State.reset = .next s') :=
  ⟨⟨_, rfl⟩, ⟨_, rfl⟩, ⟨_, rfl⟩, ⟨_, rfl⟩, ⟨_, rfl⟩, ⟨_, rfl⟩, ⟨_, rfl⟩, ⟨_, rfl⟩, ⟨_, rfl⟩, ⟨_, rfl⟩, ⟨_, rfl⟩⟩

theorem witness_StimulusHoistQuarryCommandsFrame_1 :
    (∃ s', exec (.stimEnable default) State.reset = .next s')
    ∧ (∃ s', exec (.stimDisable default) State.reset = .next s')
    ∧ (∃ s', exec (.playSubmit default default) State.reset = .next s')
    ∧ (∃ s', exec (.granuleBoundary default) State.reset = .next s')
    ∧ (∃ s', exec (.jumpArrival default) State.reset = .next s')
    ∧ (∃ s', exec (.prefetchRecord default) State.reset = .next s')
    ∧ (∃ s', exec (.stimClear default) State.reset = .next s')
    ∧ (∃ s', exec (.staticToneWrite default default default default) State.reset = .next s')
    ∧ (∃ s', exec (.hoistTargetEnable default default) State.reset = .next s')
    ∧ (∃ s', exec (.replayGo default) State.reset = .next s')
    ∧ (∃ s', exec (.hoistPiece) State.reset = .next s')
    ∧ (∃ s', exec (.hoistEntry default) State.reset = .next s') :=
  ⟨⟨_, rfl⟩, ⟨_, rfl⟩, ⟨_, rfl⟩, ⟨_, rfl⟩, ⟨_, rfl⟩, ⟨_, rfl⟩, ⟨_, rfl⟩, ⟨_, rfl⟩, ⟨_, rfl⟩, ⟨_, rfl⟩, ⟨_, rfl⟩, ⟨_, rfl⟩⟩

theorem witness_StimulusHoistQuarryCommandsFrame_2 :
    (∃ s', exec (.replayDone default) State.reset = .next s')
    ∧ (∃ s', exec (.hoistReleaseWrite default default) State.reset = .next s')
    ∧ (∃ s', exec (.quarryRequest default default default default) State.reset = .next s')
    ∧ (∃ s', exec (.hostDeferExpiry default) State.reset = .next s')
    ∧ (∃ s', exec (.refreshDue default default) State.reset = .next s')
    ∧ (∃ s', exec (.patrolScrub) State.reset = .next s')
    ∧ (∃ s', exec (.memoryError default default default default) State.reset = .next s')
    ∧ (∃ s', exec (.rowCopyDone default) State.reset = .next s')
    ∧ (∃ s', exec (.channelRetire default) State.reset = .next s')
    ∧ (∃ s', exec (.retireClear) State.reset = .next s')
    ∧ (∃ s', exec (.migrationBatchDone) State.reset = .next s')
    ∧ (∃ s', exec (.freqChangeGo default) State.reset = .next s') :=
  ⟨⟨_, rfl⟩, ⟨_, rfl⟩, ⟨_, rfl⟩, ⟨_, rfl⟩, ⟨_, rfl⟩, ⟨_, rfl⟩, ⟨_, rfl⟩, ⟨_, rfl⟩, ⟨_, rfl⟩, ⟨_, rfl⟩, ⟨_, rfl⟩, ⟨_, rfl⟩⟩

theorem witness_StimulusHoistQuarryCommandsFrame_3 :
    (∃ s', exec (.freqChangeBegin default) State.reset = .next s')
    ∧ (∃ s', exec (.freqDone) State.reset = .next s')
    ∧ (∃ s', exec (.selfRefreshEntry default) State.reset = .next s') :=
  ⟨⟨_, rfl⟩, ⟨_, rfl⟩, ⟨_, rfl⟩⟩

theorem witness_HostLinkCommandsFrame_1 :
    (∃ s', exec (.registerWrite default) State.reset = .next s')
    ∧ (∃ s', exec (.highHalfWrite default default default) State.reset = .next s')
    ∧ (∃ s', exec (.lowHalfWrite default default default) State.reset = .next s')
    ∧ (∃ s', exec (.bar0BadsizeAccess default default default) State.reset = .next s')
    ∧ (∃ s', exec (.holdoffExpiry default) State.reset = .next s')
    ∧ (∃ s', exec (.linkUp default default) State.reset = .next s')
    ∧ (∃ s', exec (.linkChange default default) State.reset = .next s')
    ∧ (∃ s', exec (.queueAlloc default default) State.reset = .next s')
    ∧ (∃ s', exec (.queueFree default) State.reset = .next s')
    ∧ (∃ s', exec (.queueEnable default) State.reset = .next s')
    ∧ (∃ s', exec (.queueDisable default) State.reset = .next s')
    ∧ (∃ s', exec (.doorbell default default) State.reset = .next s') :=
  ⟨⟨_, rfl⟩, ⟨_, rfl⟩, ⟨_, rfl⟩, ⟨_, rfl⟩, ⟨_, rfl⟩, ⟨_, rfl⟩, ⟨_, rfl⟩, ⟨_, rfl⟩, ⟨_, rfl⟩, ⟨_, rfl⟩, ⟨_, rfl⟩, ⟨_, rfl⟩⟩

theorem witness_HostLinkCommandsFrame_2 :
    (∃ s', exec (.commandFetch default default default) State.reset = .next s')
    ∧ (∃ s', exec (.queueItemWrite default) State.reset = .next s')
    ∧ (∃ s', exec (.interruptTimeout default) State.reset = .next s')
    ∧ (∃ s', exec (.queIntWrite default default) State.reset = .next s')
    ∧ (∃ s', exec (.msixMessage default) State.reset = .next s')
    ∧ (∃ s', exec (.vectorUnmask default default default) State.reset = .next s')
    ∧ (∃ s', exec (.modFrExpiry default) State.reset = .next s')
    ∧ (∃ s', exec (.apertureRead default default) State.reset = .next s')
    ∧ (∃ s', exec (.apertureWrite default default) State.reset = .next s')
    ∧ (∃ s', exec (.eventRaised default) State.reset = .next s')
    ∧ (∃ s', exec (.eventLogWrite) State.reset = .next s')
    ∧ (∃ s', exec (.xferKick default) State.reset = .next s') :=
  ⟨⟨_, rfl⟩, ⟨_, rfl⟩, ⟨_, rfl⟩, ⟨_, rfl⟩, ⟨_, rfl⟩, ⟨_, rfl⟩, ⟨_, rfl⟩, ⟨_, rfl⟩, ⟨_, rfl⟩, ⟨_, rfl⟩, ⟨_, rfl⟩, ⟨_, rfl⟩⟩

theorem witness_PortAndTrigBusCommandsFrame_1 :
    (∃ s', exec (.markerPulseEnd default) State.reset = .next s')
    ∧ (∃ s', exec (.outputLaunch default) State.reset = .next s')
    ∧ (∃ s', exec (.portEnable default default) State.reset = .next s')
    ∧ (∃ s', exec (.portDisable default) State.reset = .next s')
    ∧ (∃ s', exec (.ethFrameRx default default default ⟨true, 0, .other⟩) State.reset = .next s')
    ∧ (∃ s', exec (.arpNdEcho default) State.reset = .next s')
    ∧ (∃ s', exec (.credit default default default) State.reset = .next s')
    ∧ (∃ s', exec (.nack default default default default) State.reset = .next s')
    ∧ (∃ s', exec (.fireAt default default default default) State.reset = .next s')
    ∧ (∃ s', exec (.packetLaunch default) State.reset = .next s')
    ∧ (∃ s', exec (.retransmit default) State.reset = .next s')
    ∧ (∃ s', exec (.creditTimeout default) State.reset = .next s') :=
  ⟨⟨_, rfl⟩, ⟨_, rfl⟩, ⟨_, rfl⟩, ⟨_, rfl⟩, ⟨_, rfl⟩, ⟨_, rfl⟩, ⟨_, rfl⟩, ⟨_, rfl⟩, ⟨_, rfl⟩, ⟨_, rfl⟩, ⟨_, rfl⟩, ⟨_, rfl⟩⟩

theorem witness_PortAndTrigBusCommandsFrame_2 :
    (∃ s', exec (.faKeyWrite default default default) State.reset = .next s')
    ∧ (∃ s', exec (.subportLinkUp default default) State.reset = .next s')
    ∧ (∃ s', exec (.subportLinkDown default default) State.reset = .next s')
    ∧ (∃ s', exec (.ownershipWrite default) State.reset = .next s')
    ∧ (∃ s', exec (.pinEdge default default default default) State.reset = .next s')
    ∧ (∃ s', exec (.filteredChange default) State.reset = .next s')
    ∧ (∃ s', exec (.contention default default) State.reset = .next s')
    ∧ (∃ s', exec (.faultClear default) State.reset = .next s')
    ∧ (∃ s', exec (.msgModeEnable default) State.reset = .next s')
    ∧ (∃ s', exec (.msgTxGo default) State.reset = .next s')
    ∧ (∃ s', exec (.wordSendStart) State.reset = .next s')
    ∧ (∃ s', exec (.backoffExpiry) State.reset = .next s') :=
  ⟨⟨_, rfl⟩, ⟨_, rfl⟩, ⟨_, rfl⟩, ⟨_, rfl⟩, ⟨_, rfl⟩, ⟨_, rfl⟩, ⟨_, rfl⟩, ⟨_, rfl⟩, ⟨_, rfl⟩, ⟨_, rfl⟩, ⟨_, rfl⟩, ⟨_, rfl⟩⟩

theorem witness_PortAndTrigBusCommandsFrame_3 :
    (∃ s', exec (.msgTx) State.reset = .next s')
    ∧ (∃ s', exec (.msgFrameRx default default default default default default) State.reset = .next s')
    ∧ (∃ s', exec (.pingGo default) State.reset = .next s')
    ∧ (∃ s', exec (.pingPulse) State.reset = .next s')
    ∧ (∃ s', exec (.pingReply) State.reset = .next s')
    ∧ (∃ s', exec (.pingDone) State.reset = .next s')
    ∧ (∃ s', exec (.pingTimeout) State.reset = .next s') :=
  ⟨⟨_, rfl⟩, ⟨_, rfl⟩, ⟨_, rfl⟩, ⟨_, rfl⟩, ⟨_, rfl⟩, ⟨_, rfl⟩, ⟨_, rfl⟩⟩

theorem witness_RasterAndHouseCommandsFrame_1 :
    (∃ s', exec (.canvasEnable default) State.reset = .next s')
    ∧ (∃ s', exec (.rasGo default) State.reset = .next s')
    ∧ (∃ s', exec (.passStart default) State.reset = .next s')
    ∧ (∃ s', exec (.passEnd default) State.reset = .next s')
    ∧ (∃ s', exec (.dpyCommitA) State.reset = .next s')
    ∧ (∃ s', exec (.dpyCommitB) State.reset = .next s')
    ∧ (∃ s', exec (.vblank default default) State.reset = .next s')
    ∧ (∃ s', exec (.vrrPorchEnd) State.reset = .next s')
    ∧ (∃ s', exec (.frontBufferSample default) State.reset = .next s')
    ∧ (∃ s', exec (.teEdge default) State.reset = .next s')
    ∧ (∃ s', exec (.teMiss) State.reset = .next s')
    ∧ (∃ s', exec (.repair) State.reset = .next s') :=
  ⟨⟨_, rfl⟩, ⟨_, rfl⟩, ⟨_, rfl⟩, ⟨_, rfl⟩, ⟨_, rfl⟩, ⟨_, rfl⟩, ⟨_, rfl⟩, ⟨_, rfl⟩, ⟨_, rfl⟩, ⟨_, rfl⟩, ⟨_, rfl⟩, ⟨_, rfl⟩⟩

theorem witness_RasterAndHouseCommandsFrame_2 :
    (∃ s', exec (.fetchUnderrun default default) State.reset = .next s')
    ∧ (∃ s', exec (.daHotPlug) State.reset = .next s')
    ∧ (∃ s', exec (.wake) State.reset = .next s')
    ∧ (∃ s', exec (.wakeSource default) State.reset = .next s')
    ∧ (∃ s', exec (.mainPgRise) State.reset = .next s')
    ∧ (∃ s', exec (.pdOff default) State.reset = .next s')
    ∧ (∃ s', exec (.pdLingerExpiry default) State.reset = .next s')
    ∧ (∃ s', exec (.boot default) State.reset = .next s')
    ∧ (∃ s', exec (.tempWarn default) State.reset = .next s')
    ∧ (∃ s', exec (.tempOk default) State.reset = .next s')
    ∧ (∃ s', exec (.fwStage default default default) State.reset = .next s')
    ∧ (∃ s', exec (.fwSwitch) State.reset = .next s') :=
  ⟨⟨_, rfl⟩, ⟨_, rfl⟩, ⟨_, rfl⟩, ⟨_, rfl⟩, ⟨_, rfl⟩, ⟨_, rfl⟩, ⟨_, rfl⟩, ⟨_, rfl⟩, ⟨_, rfl⟩, ⟨_, rfl⟩, ⟨_, rfl⟩, ⟨_, rfl⟩⟩

theorem witness_RasterAndHouseCommandsFrame_3 :
    (∃ s', exec (.fwSwitchStart) State.reset = .next s')
    ∧ (∃ s', exec (.fwConfirm) State.reset = .next s')
    ∧ (∃ s', exec (.fwWatchdog) State.reset = .next s')
    ∧ (∃ s', exec (.provision default) State.reset = .next s')
    ∧ (∃ s', exec (.field_ default) State.reset = .next s')
    ∧ (∃ s', exec (.ownerAdd default) State.reset = .next s')
    ∧ (∃ s', exec (.ownerRevoke default) State.reset = .next s')
    ∧ (∃ s', exec (.return_ default) State.reset = .next s')
    ∧ (∃ s', exec (.debug) State.reset = .next s')
    ∧ (∃ s', exec (.getVersion) State.reset = .next s')
    ∧ (∃ s', exec (.getCapabilities) State.reset = .next s')
    ∧ (∃ s', exec (.negotiateAlgorithms) State.reset = .next s') :=
  ⟨⟨_, rfl⟩, ⟨_, rfl⟩, ⟨_, rfl⟩, ⟨_, rfl⟩, ⟨_, rfl⟩, ⟨_, rfl⟩, ⟨_, rfl⟩, ⟨_, rfl⟩, ⟨_, rfl⟩, ⟨_, rfl⟩, ⟨_, rfl⟩, ⟨_, rfl⟩⟩

theorem witness_RasterAndHouseCommandsFrame_4 :
    (∃ s', exec (.getDigests) State.reset = .next s')
    ∧ (∃ s', exec (.keyExchange) State.reset = .next s')
    ∧ (∃ s', exec (.getCertificate default) State.reset = .next s')
    ∧ (∃ s', exec (.challenge default) State.reset = .next s')
    ∧ (∃ s', exec (.getMeasurements default) State.reset = .next s')
    ∧ (∃ s', exec (.finish default) State.reset = .next s')
    ∧ (∃ s', exec (.endSession default) State.reset = .next s')
    ∧ (∃ s', exec (.keyUpdate default) State.reset = .next s')
    ∧ (∃ s', exec (.heartbeat default) State.reset = .next s')
    ∧ (∃ s', exec (.vendorDefinedRequest default default default) State.reset = .next s')
    ∧ (∃ s', exec (.ideError default) State.reset = .next s')
    ∧ (∃ s', exec (.testSessionStart default default) State.reset = .next s') :=
  ⟨⟨_, rfl⟩, ⟨_, rfl⟩, ⟨_, rfl⟩, ⟨_, rfl⟩, ⟨_, rfl⟩, ⟨_, rfl⟩, ⟨_, rfl⟩, ⟨_, rfl⟩, ⟨_, rfl⟩, ⟨_, rfl⟩, ⟨_, rfl⟩, ⟨_, rfl⟩⟩

theorem witness_RasterAndHouseCommandsFrame_5 :
    (∃ s', exec (.testSessionEnd default default default) State.reset = .next s')
    ∧ (∃ s', exec (.blockReady default default) State.reset = .next s')
    ∧ (∃ s', exec (.checkerLock default) State.reset = .next s')
    ∧ (∃ s', exec (.checkerLockLoss default default default) State.reset = .next s')
    ∧ (∃ s', exec (.daLinkTrained default) State.reset = .next s') :=
  ⟨⟨_, rfl⟩, ⟨_, rfl⟩, ⟨_, rfl⟩, ⟨_, rfl⟩, ⟨_, rfl⟩⟩

namespace W01
def st (d : Dev) : State := ⟨d, []⟩
def calAll : List (Fin 88 × CalData) := (List.finRange 88).map fun p => (p, { sumL := 0, sumH := 0, hits := [] })
theorem witness_SliceLifeCommandsAct_1 : ∃ (s : State) (n : Fin 4), (s.dev.bus.writes = []) ∧ (s.dev.flag CV_SCTL.EN n = false) :=
  ⟨st {}, 0, by decide⟩
theorem witness_SliceLifeCommandsAct_2 : ∃ (s : State) (n : Fin 4) (cal : List (Fin 88 × CalData)), (s.dev.bus.writes = []) ∧ (s.dev.flag CV_SCTL.EN n = true) ∧ ((s.dev.slice.get n).locked = true) ∧ ((s.dev.slice.get n).calDone = false) ∧ ((∀ h, h < 9 → s.dev.pdOn (10 * n + h) = true)) ∧ ((∀ p, p < 88 → (s.dev.unmarked n (p / 11)).contains (p % 11) = true → cal.any (fun c => c.1.val == p) = true)) :=
  ⟨st { regs := ((({} : Dev).putb CV_SCTL.EN true 0).put HK_PD_STAT.ON 0x1FF).regs, slice := Tab.set [] 0 { locked := true } , pwr := {} }, 0, calAll, by decide +kernel⟩
theorem witness_SliceLifeCommandsAct_3 : ∃ (s : State) (n : Fin 4), (s.dev.bus.writes = []) ∧ (s.dev.flag CV_SSTAT.READY n = true) :=
  ⟨st (({} : Dev).putb CV_SSTAT.READY true 1), 1, by decide⟩
theorem witness_SliceLifeCommandsAct_4 : ∃ (s : State) (n : Fin 4), (s.dev.bus.writes = []) ∧ ((s.dev.slice.get n).locked = false) ∧ (s.dev.flag CV_SCTL.EN n = true) ∧ ((s.dev.slice.get n).calDone = true) ∧ (s.dev.tb.locked = true) :=
  ⟨st { regs := (({} : Dev).putb CV_SCTL.EN true 0).regs, slice := Tab.set [] 0 { calDone := true }, tb := { locked := true } }, 0, by decide⟩
theorem witness_SliceLifeCommandsAct_5 : ∃ (s : State) (n : Fin 4), (s.dev.bus.writes = []) ∧ (s.dev.flag CV_SCTL.EN n = true) :=
  ⟨st (({} : Dev).putb CV_SCTL.EN true 2), 2, by decide⟩
theorem witness_SliceLifeCommandsAct_6 : ∃ (s : State) (n : Fin 4) (codes : List (BitVec 10)), (s.dev.bus.writes = []) ∧ (codes.length = 64) ∧ (s.dev.flag CV_SCTL.EN n = true) ∧ (s.dev.tb.locked = true) ∧ ((s.dev.slice.get n).locked = true) ∧ ((∀ f ∈ (s.dev.path.get n).raw, f.k < s.dev.now)) :=
  ⟨st { regs := (({} : Dev).putb CV_SCTL.EN true 3).regs, tb := { locked := true }, slice := Tab.set [] 3 { locked := true } }, 3, List.replicate 64 5, by decide⟩
end W01

namespace W02
def st (d : Dev) : State := ⟨d, []⟩
theorem witness_SparingCommandsAct_1 : ∃ (s : State) (n : Fin 4) (h : Fin 8) (k : _), (s.dev.bus.writes = []) ∧ (max s.dev.now (s.dev.rotDue n h) = k) ∧ (s.dev.get CV_GRP_STAT.STATE n h = 0) ∧ (s.dev.flag CV_SCTL.ROT_EN n = true) ∧ ((s.dev.advanceTo k).hkAbsent = false) ∧ (((s.dev.slice.get n).group.get h).calOk = true) ∧ (((s.dev.slice.get n).group.get h).failAt = none) ∧ (((s.dev.slice.get n).group.get h).swapAt = none) ∧ ((s.dev.slice.get n).commit = none) ∧ (s.dev.flag CV_CORR_CTL.HOST_SUB n = false) ∧ (s.dev.flag CV_TBL_STAT.PENDING n = false) ∧ (k < s.dev.rotDue n h + s.dev.rotPeriod n) ∧ (s.dev.subBit CV_SUB_DISC.P n (11 * h + s.dev.get CV_GRP_STAT.SPARE n h) = false) ∧ ((∀ p, p < 88 → s.dev.subBit CV_SUB_ARM.P n p = true → s.dev.subBit CV_SUB_DISC.P n p = false)) :=
  ⟨st ((((({} : Dev).put CV_SUB_DISC.P 0 0 0).setGroup 0 1 0 10 (List.range 10)).putb CV_SCTL.ROT_EN true 0).setSlice (Tab.set [] 0 { rounds := [5], group := Tab.set [] 1 { calOk := true } }) |>.setPwr { mainEn := true }), 0, 1, 3125005, by decide⟩
theorem witness_SparingCommandsAct_2 : ∃ (s : State) (n : Fin 4) (h : Fin 8) (k : _), (s.dev.bus.writes = []) ∧ (((s.dev.slice.get n).group.get h).swapAt = some k) :=
  ⟨st { slice := Tab.set [] 0 { group := Tab.set [] 1 { swapAt := some 2000, slot := 9 } } }, 0, 1, 2000, by decide⟩
theorem witness_SparingCommandsAct_3 : ∃ (s : State) (n : Fin 4) (h : Fin 8) (outside : BitVec 11), (s.dev.bus.writes = []) ∧ (s.dev.get CV_GRP_STAT.STATE n h < 3) ∧ ((∃ u, u < 11 ∧ outside.toNat / 2 ^ u % 2 = 1 ∧ u ∈ s.dev.slots n h)) :=
  ⟨st (({} : Dev).setGroup 0 1 0 10 (List.range 10)), 0, 1, 0b11, by decide⟩
theorem witness_SparingCommandsAct_4 : ∃ (s : State) (n : Fin 4) (h : Fin 8), (s.dev.bus.writes = []) ∧ (s.dev.get CV_GRP_STAT.STATE n h = 3) :=
  ⟨st (({} : Dev).setGroup 0 1 3 15 []), 0, 1, by decide⟩
theorem witness_SparingCommandsAct_5 : ∃ (s : State) (n : Fin 4) (h : Fin 8) (k : _), (s.dev.bus.writes = []) ∧ (((s.dev.slice.get n).group.get h).failAt = some k) :=
  ⟨st ((({} : Dev).setGroup 0 1 0 10 (List.range 10)).setSlice (Tab.set [] 0 { group := Tab.set [] 1 { failAt := some 2000, failing := [2] } })), 0, 1, 2000, by decide⟩
theorem witness_SparingCommandsAct_6 : ∃ (s : State) (n : Fin 4) (h : Fin 8), (s.dev.bus.writes = []) ∧ (s.dev.get CV_GRP_STAT.STATE n h = 0) ∧ (s.dev.flag CV_CORR_CTL.HOST_SUB n = false) :=
  ⟨st (({} : Dev).setGroup 0 1 0 10 (List.range 10)), 0, 1, by decide⟩
theorem witness_SparingCommandsAct_7 : ∃ (s : State) (n : Fin 4), (s.dev.bus.writes = []) ∧ (s.dev.flag CV_SCTL.EN n = false) :=
  ⟨st (({} : Dev).put CV_GRP_STAT.FAILED 7 0 1), 0, by decide⟩
theorem witness_SparingCommandsAct_8 : ∃ (s : State) (n : Fin 4) (v : BitVec 32), (s.dev.bus.writes = []) ∧ ((s.dev.slice.get n).swatch = none) ∧ (v.toNat % 4 ≠ s.dev.get CV_DAC_CTL.ROUTE n) :=
  ⟨st {}, 0, 0x32, by decide⟩
theorem witness_SparingCommandsAct_9 : ∃ (s : State) (n : Fin 4) (k : _) (r : _) (rest : _), (s.dev.bus.writes = []) ∧ ((s.dev.slice.get n).routes = (k, r) :: rest) ∧ (s.dev.flag CV_SSTAT.INJ_ACTIVE n = false) ∧ (r % 2 = 1) :=
  ⟨st { slice := Tab.set [] 3 { routes := [(1030, 1)] } }, 3, 1030, 1, [], by decide⟩
end W02

namespace W03
def st (d : Dev) : State := ⟨d, []⟩
theorem witness_TableCommandsAct_1 : ∃ (s : State) (n : Fin 4) (ofs : BitVec 18) (m : _), (s.dev.bus.writes = []) ∧ (tabMask ofs.toNat = some m) ∧ (s.dev.flag CV_TBL_STAT.PENDING n = false) :=
  ⟨st {}, 0, 0x2004, 0x3FFFF, by decide⟩
theorem witness_TableCommandsAct_2 : ∃ (s : State) (n : Fin 4), (s.dev.bus.writes = []) ∧ (s.dev.flag CV_TBL_STAT.PENDING n = false) ∧ (s.dev.flag CV_TBL_STAT.TIM_DISC n = false) ∧ ((∃ p, p < 88 ∧ s.dev.subBit CV_SUB_ARM.P n p = true)) ∧ ((∀ p, p < 88 → s.dev.subBit CV_SUB_ARM.P n p = true → s.dev.subBit CV_SUB_DISC.P n p = false)) :=
  ⟨st (((({} : Dev).put CV_TBL_STAT.TIM_DISC 0 1).setSubBit CV_SUB_ARM.P 1 9 true).put CV_SUB_DISC.P 0 1 0), 1, by decide⟩
theorem witness_TableCommandsAct_3 : ∃ (s : State) (n : Fin 4), (s.dev.bus.writes = []) ∧ (s.dev.flag CV_TBL_STAT.PENDING n = false) ∧ (s.dev.flag CV_TBL_STAT.TIM_DISC n = false) :=
  ⟨st (({} : Dev).put CV_TBL_STAT.TIM_DISC 0 0), 0, by decide⟩
theorem witness_TableCommandsAct_4 : ∃ (s : State) (n : Fin 4), (s.dev.bus.writes = []) ∧ (s.dev.flag CV_TBL_STAT.PENDING n = true) :=
  ⟨st (({} : Dev).putb CV_TBL_STAT.PENDING true 2), 2, by decide⟩
theorem witness_TableCommandsAct_5 : ∃ (s : State) (n : Fin 4) (c : _), (s.dev.bus.writes = []) ∧ ((s.dev.slice.get n).commit = some c) :=
  ⟨st { slice := Tab.set [] 0 { commit := some ⟨1100, [3, 40], true, none⟩ } }, 0, ⟨1100, [3, 40], true, none⟩, by decide⟩
theorem witness_TableCommandsAct_6 : ∃ (s : State) (n : Fin 4) (c : _), (s.dev.bus.writes = []) ∧ ((s.dev.slice.get n).commit = some c) :=
  ⟨st { slice := Tab.set [] 0 { commit := some ⟨1100, [3, 40], true, none⟩ } }, 0, ⟨1100, [3, 40], true, none⟩, by decide⟩
theorem witness_TableCommandsAct_7 : ∃ (s : State) (n : Fin 4) (h : Fin 8) (k : Nat), (s.dev.bus.writes = []) ∧ (s.dev.get CV_GRP_STAT.STATE n h = 1) ∧ (s.dev.flag CV_CORR_CTL.HOST_SUB n = false) ∧ (s.dev.inService n h ≠ []) ∧ ((∀ u ∈ s.dev.inService n h, (((s.dev.slice.get n).group.get h).stat.get u).n = 262144)) ∧ (max s.dev.now (((s.dev.slice.get n).group.get h).statFrom + 327680) = k) ∧ (s.dev.flag CV_TBL_STAT.PENDING n = false) ∧ ((∀ p, p < 88 → s.dev.subBit CV_SUB_ARM.P n p = true → s.dev.subBit CV_SUB_DISC.P n p = false)) :=
  ⟨st ((({} : Dev).setGroup 0 2 1 15 (List.range 10)).setSlice (Tab.set [] 0 { group := Tab.set [] 2 { statFrom := 1280, stat := (List.range 10).foldl (fun t u => t.set u ⟨262144, 100000000 + 3000000 * u, 100000000000 + 90000 * u⟩) [] } })), 0, 2, 328960, by decide⟩
theorem witness_TableCommandsAct_8 : ∃ (s : State) (n : Fin 4), (s.dev.bus.writes = []) ∧ ((∀ k, (s.dev.slice.get n).saved = some k → k + 750000000000 ≤ s.dev.now)) :=
  ⟨st {}, 0, by decide⟩
end W03

namespace W04
def st (d : Dev) : State := ⟨d, []⟩
theorem witness_CorrectionCommandsAct_1 : ∃ (s : State) (n : Fin 4) (r : RawFrame), (s.dev.bus.writes = []) ∧ ((s.dev.path.get n).raw.find? (fun f => decide (((s.dev.path.get n).last.map (· + 1)).getD 0 ≤ f.k)) = some r) :=
  ⟨st { path := Tab.set [] 1 { raw := [{ k := 1000, raw := List.replicate 64 3 }] } }, 1, { k := 1000, raw := List.replicate 64 3 }, by decide⟩
theorem witness_CorrectionCommandsAct_2 : ∃ (s : State) (n : Fin 4), (s.dev.bus.writes = []) ∧ (s.dev.flag CV_SKW_CTL.BG_EN n = true) ∧ (s.dev.flag CV_CORR_CTL.HOST_TIM n = true) ∧ (2 ^ max 20 (min 28 (s.dev.get CV_SKW_CTL.LOG2N n)) / 8 ≤ (s.dev.slice.get n).skew.frames) ∧ ((s.dev.slice.get n).skew.spoilt = false) ∧ ((s.dev.slice.get n).skew.p ≠ 0) ∧ (256 * (s.dev.get CV_SKW_PMIN.PMIN n : Int) * (((s.dev.slice.get n).skew.frames * 64 : Nat) : Int) ≤ (s.dev.slice.get n).skew.p) ∧ ((∀ h, h < 8 → 128 * ((((s.dev.slice.get n).skew.sp.getD h 0 - (s.dev.slice.get n).skew.sm.getD h 0).natAbs : Nat) : Int) ≤ (s.dev.slice.get n).skew.p)) :=
  ⟨st ((((({} : Dev).putb CV_SKW_CTL.BG_EN true 0).put CV_SKW_CTL.LOG2N 20 0).putb CV_CORR_CTL.HOST_TIM true 0).setSlice (Tab.set [] 0 { skew := { frames := 131072, p := 1000000000000000000 } })), 0, by decide⟩
theorem witness_CorrectionCommandsAct_3 : ∃ (s : State) (n : Fin 4), (s.dev.bus.writes = []) ∧ (s.dev.get CV_DAC_CTL.ROUTE n = 0) ∧ (s.dev.flag STM_UCTL.EN n = false) ∧ ((s.dev.slice.get n).swatch = none) ∧ (55 * 2 ^ 48 ≤ 100 * (2 ^ 48 - s.dev.get CV_SWATCH_FREQ.FTW n)) ∧ (100 * (2 ^ 48 - s.dev.get CV_SWATCH_FREQ.FTW n) ≤ 95 * 2 ^ 48) :=
  ⟨st (({} : Dev).put CV_SWATCH_FREQ.FTW (2 ^ 46) 0), 0, by decide⟩
theorem witness_CorrectionCommandsAct_4 : ∃ (s : State) (n : Fin 4) (w : _), (s.dev.bus.writes = []) ∧ ((s.dev.slice.get n).swatch = some w) ∧ (w.caps < w.count) :=
  ⟨st { slice := Tab.set [] 0 { swatch := some { s := 1024, count := 4 } } }, 0, { s := 1024, count := 4 }, by decide⟩
theorem witness_CorrectionCommandsAct_5 : ∃ (s : State) (n : Fin 4) (w : _), (s.dev.bus.writes = []) ∧ ((s.dev.slice.get n).swatch = some w) ∧ (w.count ≤ w.caps) ∧ (w.off = none) :=
  ⟨st { slice := Tab.set [] 0 { swatch := some { s := 1024, count := 128, caps := 128 } } }, 0, { s := 1024, count := 128, caps := 128 }, by decide⟩
theorem witness_CorrectionCommandsAct_6 : ∃ (s : State) (n : Fin 4) (w : Swatch), (s.dev.bus.writes = []) ∧ ((s.dev.slice.get n).swatch = some w) ∧ (w.off ≠ none) ∧ (s.dev.flag CV_SWATCH_CTL.APPLY n = false) :=
  ⟨st { slice := Tab.set [] 0 { swatch := some { s := 1024, count := 1, caps := 1, off := some 5, sums := [{}] } } }, 0, { s := 1024, count := 1, caps := 1, off := some 5, sums := [{}] }, by decide⟩
end W04

namespace W05
def st (d : Dev) : State := ⟨d, []⟩
theorem witness_ReferenceCommandsAct_1 : ∃ (s : State), (s.dev.bus.writes = []) ∧ (s.dev.get TB_REF_STAT.ACTIVE = 0) ∧ (s.dev.tbSel = 0) :=
  ⟨st (({} : Dev).put TB_REF_CTL.SEL 0), by decide⟩
theorem witness_ReferenceCommandsAct_2 : ∃ (s : State), (s.dev.bus.writes = []) ∧ (s.dev.get TB_REF_STAT.ACTIVE = 1) ∧ (s.dev.tb.locked = true) :=
  ⟨st { (({} : Dev).put TB_REF_STAT.ACTIVE 1) with tb := { locked := true } }, by decide⟩
theorem witness_ReferenceCommandsAct_3 : ∃ (s : State), (s.dev.bus.writes = []) ∧ (s.dev.get TB_REF_STAT.ACTIVE = 0) ∧ (s.dev.tbSel = 0) :=
  ⟨st {}, by decide⟩
theorem witness_ReferenceCommandsAct_4 : ∃ (s : State), (s.dev.bus.writes = []) ∧ (s.dev.get TB_REF_STAT.ACTIVE = 2) ∧ (s.dev.get TB_REF_CTL.SEL = 2) ∧ (s.dev.tb.locked = true) :=
  ⟨st { ((({} : Dev).put TB_REF_STAT.ACTIVE 2).put TB_REF_CTL.SEL 2) with tb := { locked := true } }, by decide⟩
theorem witness_ReferenceCommandsAct_5 : ∃ (s : State) (x : Nat × Nat), (s.dev.bus.writes = []) ∧ (s.dev.tbNext = some x) :=
  ⟨st { (((({} : Dev).put TB_REF_STAT.ACTIVE 1).putb TB_REF_STAT.EXT_PRES true).put TB_REF_CTL.QUAL 0) with tb := { locked := true, extSince := 1020 } }, (2, 1020), by decide⟩
theorem witness_ReferenceCommandsAct_6 : ∃ (s : State), (s.dev.bus.writes = []) ∧ (s.dev.tb.locked = false) ∧ (s.dev.tb.keeper = none) :=
  ⟨st {}, by decide⟩
theorem witness_ReferenceCommandsAct_7 : ∃ (s : State), (s.dev.bus.writes = []) ∧ (s.dev.tb.locked = true) :=
  ⟨st { tb := { locked := true } }, by decide⟩
theorem witness_ReferenceCommandsAct_8 : ∃ (s : State), (s.dev.bus.writes = []) ∧ (s.dev.recordOpen = false) ∧ (s.dev.flag TB_SLEW.STEP_EN = true) ∧ (s.dev.get TB_REF_STAT.STATE = 4) ∧ (s.dev.get TB_SLEW.STEP_MIN * 80000 * 65536 ≤ (s.dev.phaseErrAt s.dev.now).natAbs) ∧ (64 * 65536 ≤ (s.dev.phaseErrAt s.dev.now).natAbs) :=
  ⟨st ((((({} : Dev).putb TB_SLEW.STEP_EN true).put TB_SLEW.STEP_MIN 0).put TB_REF_STAT.STATE 4).wr ⟨.TB_PHASE_ERR, 0, 0, 0⟩ 0x500123), by decide⟩
theorem witness_ReferenceCommandsAct_9 : ∃ (s : State) (k : _), (s.dev.bus.writes = []) ∧ (s.dev.get TB_REF_STAT.STATE = 4) ∧ (s.dev.tb.slew = some k) :=
  ⟨st { ((({} : Dev).put TB_REF_STAT.STATE 4).wr ⟨.TB_PHASE_ERR, 0, 0, 0⟩ 0x500123) with tb := { slew := some 1000, removing := true } }, 1000, by decide⟩
end W05

namespace W06
def st (d : Dev) : State := ⟨d, []⟩
theorem witness_TimeBaseEventsAct_1 : ∃ (s : State), (s.dev.bus.writes = []) ∧ (s.dev.recordOpen = false) :=
  ⟨st {}, by decide⟩
theorem witness_TimeBaseEventsAct_2 : ∃ (s : State) (k : Nat), (s.dev.bus.writes = []) ∧ (s.dev.tb.due = some k) ∧ (s.dev.tb.armed.isSome = true) ∧ (s.dev.tb.locked = true) ∧ (s.dev.now ≤ k) :=
  ⟨st { tb := { locked := true, armed := some 1, due := some 1030 } }, 1030, by decide⟩
theorem witness_TimeBaseEventsAct_3 : ∃ (s : State), (s.dev.bus.writes = []) :=
  ⟨st {}, by decide⟩
theorem witness_TimeBaseEventsAct_4 : ∃ (s : State), (s.dev.bus.writes = []) ∧ (s.dev.tb.aligning = false) ∧ (s.dev.gets SYN_IDLY.DELAY 20 = 0) :=
  ⟨st {}, by decide⟩
theorem witness_TimeBaseEventsAct_5 : ∃ (s : State) (k : _), (s.dev.bus.writes = []) ∧ (s.dev.tb.ppsLast = some k) ∧ (s.dev.tb.ppsLate = false) :=
  ⟨st { tb := { ppsLast := some 1000 } }, 1000, by decide⟩
theorem witness_TimeBaseEventsAct_6 : ∃ (s : State) (k : _), (s.dev.bus.writes = []) ∧ ((s.dev.now * 64 + (80000000000 - (s.dev.get TB_TAI_OFS.TICKS + s.dev.countAt s.dev.now % 2 ^ 72) % 80000000000) % 80000000000) * 16 = k) ∧ (s.dev.flag TB_PPS_CTL.OUT_EN = true) ∧ ((s.dev.epochAt s.dev.now).valid = true) ∧ ((s.dev.epochAt s.dev.now).reflost = false) ∧ ((∀ p, s.dev.tb.ppsOut = some p → p.1 ≠ k)) :=
  ⟨st ((({} : Dev).putb TB_PPS_CTL.OUT_EN true).setTb { epochs := [{ frame := 1024, valid := true }] }), 1048576, by decide⟩
theorem witness_TimeBaseEventsAct_7 : ∃ (s : State) (msg : PtpMsg) (domain : BitVec 8) (state : Fin 16), (s.dev.bus.writes = []) ∧ (s.dev.flag TB_PTP_CTL.EN = true) ∧ (s.dev.hkAbsent = false) ∧ (domain.toNat = s.dev.get TB_PTP_CTL.DOMAIN) ∧ (s.dev.pdOn (59 + s.dev.get TB_PTP_CTL.PORT % 3) = true) ∧ (ptpTaken msg (s.dev.get TB_PTP_CTL.PROFILE == 1) = true) ∧ ((s.dev.flag TB_PTP_CTL.SLAVE_ONLY = true → state ≠ 5 ∧ state ≠ 6)) :=
  ⟨st ((({} : Dev).putb TB_PTP_CTL.EN true).put HK_PD_STAT.ON 0x08000000 1), .sync, 0, 9, by decide⟩
end W06

namespace W07
def st (d : Dev) : State := ⟨d, []⟩
theorem witness_TriggerCommandsAct_1 : ∃ (s : State) (u : Fin 8) (en : _), (s.dev.bus.writes = []) ∧ (s.dev.flag TRG_CTL.EN u ≠ en) :=
  ⟨st {}, 3, true, by decide⟩
theorem witness_TriggerCommandsAct_2 : ∃ (s : State), (s.dev.bus.writes = []) :=
  ⟨st {}, by decide⟩
theorem witness_TriggerCommandsAct_3 : ∃ (s : State), (s.dev.bus.writes = []) :=
  ⟨st {}, by decide⟩
theorem witness_TriggerCommandsAct_4 : ∃ (s : State) (u : Fin 8) (x : Nat × Bool), (s.dev.bus.writes = []) ∧ ((s.dev.trg.get u).arming.head? = some x) ∧ ((s.dev.trg.get u).arming.tail = []) ∧ (s.dev.flag TRG_STAT.ARMED u ≠ x.2) :=
  ⟨st { trg := Tab.set [] 7 { arming := [(1025, true)] } }, 7, (1025, true), by decide⟩
theorem witness_TriggerCommandsAct_5 : ∃ (s : State) (u : Fin 8), (s.dev.bus.writes = []) ∧ (s.dev.trgHears u = true) :=
  ⟨st ((({} : Dev).put HK_PD_STAT.ON 0xF 2).setTb { locked := true }), 3, by decide⟩
theorem witness_TriggerCommandsAct_6 : ∃ (s : State) (u : Fin 8) (x : Nat × Change), (s.dev.bus.writes = []) ∧ ((s.dev.trg.get u).inbox.head? = some x) ∧ (sourceKind x.2.src ≠ 3) ∧ (s.dev.trgHears u = true) ∧ (max s.dev.now x.1 - 150 ≤ x.2.inst / 65536 / 64) :=
  ⟨st { ((({} : Dev).put HK_PD_STAT.ON 0xF 2).setTb { locked := true }) with trg := Tab.set [] 1 { inbox := [(1030, ⟨1030 * 64 * 65536, 0x10, 1, false⟩)] } }, 1, (1030, ⟨1030 * 64 * 65536, 0x10, 1, false⟩), by decide⟩
theorem witness_TriggerCommandsAct_7 : ∃ (s : State) (u : Fin 8) (era : BitVec 8), (s.dev.bus.writes = []) ∧ ((s.dev.tickOf (s.dev.now - 150) (era.toNat * 2 ^ 64 + s.dev.get TRG_TCMP_TICK.TICK u)).isSome = true) :=
  ⟨st (({} : Dev).put TRG_TCMP_TICK.TICK 70000 0), 0, 0, by decide⟩
theorem witness_TriggerCommandsAct_8 : ∃ (s : State) (u : Fin 8) (k : Nat) (i : Nat), (s.dev.bus.writes = []) ∧ ((s.dev.trg.get u).tcmp = some k) ∧ (s.dev.trgHears u = true) ∧ (s.dev.tickOf (s.dev.now - 150) k = some i) :=
  ⟨st { ((({} : Dev).put HK_PD_STAT.ON 0xF 2).setTb { locked := true }) with tb := { locked := true }, trg := Tab.set [] 0 { tcmp := some 0 } }, 0, 0, 65536, by decide⟩
theorem witness_TriggerCommandsAct_9 : ∃ (s : State) (u : Fin 8) (m : TrigMsg), (s.dev.bus.writes = []) ∧ ((s.dev.trg.get u).msgs.head? = some m) ∧ (s.dev.trgHears u = true) ∧ (s.dev.flag TRG_MSG.EN u = true) ∧ (s.dev.get TRG_MSG.CODE u = m.code) ∧ (s.dev.flag TRG_MSG.ANY_SRC u = true) ∧ ((s.dev.tickOf (s.dev.now - 150) m.time).isSome = true) :=
  ⟨st ({ ((({} : Dev).put HK_PD_STAT.ON 0xF 2).setTb { locked := true }) with trg := Tab.set [] 3 { msgs := [{ time := 60000, frac := 3, code := 5 }] } } |>.putb TRG_MSG.EN true 3 |>.put TRG_MSG.CODE 5 3 |>.putb TRG_MSG.ANY_SRC true 3), 3, { time := 60000, frac := 3, code := 5 }, by decide⟩
theorem witness_TriggerCommandsAct_10 : ∃ (s : State) (u : Fin 8) (f : Nat) (i : Nat), (s.dev.bus.writes = []) ∧ (s.dev.trg.get u = { on := true, armed := true, prof := { a := { typ := 1, src := 0xE2 } }, changes := [⟨i, 0xE2, 2, false⟩] }) ∧ (s.dev.namedLanes u = []) ∧ (s.dev.rbUsed ≤ 4096) ∧ (trigFrame i ≤ f) :=
  ⟨st { trg := Tab.set [] 0 { on := true, armed := true, prof := { a := { typ := 1, src := 0xE2 } }, changes := [⟨1000 * 64 * 65536, 0xE2, 2, false⟩] } }, 0, 1000, 1000 * 64 * 65536, by decide⟩
theorem witness_TriggerCommandsAct_11 : ∃ (s : State) (u : Fin 8), (s.dev.bus.writes = []) ∧ ((s.dev.trg.get u).commit = none) ∧ (s.dev.bankValid u = true) :=
  ⟨st (({} : Dev).put TRG_SLOTB.SRC 0x10 2), 2, by decide⟩
theorem witness_TriggerCommandsAct_12 : ∃ (s : State) (u : Fin 8) (c : Nat), (s.dev.bus.writes = []) ∧ ((s.dev.trg.get u).commit = some c) :=
  ⟨st { trg := Tab.set [] 0 { commit := some 1024 } }, 0, 1024, by decide⟩
end W07

namespace W08
def st (d : Dev) : State := ⟨d, []⟩
theorem witness_LaneCommandsAct_1 : ∃ (s : State) (l : Fin 16) (v : W32), (s.dev.bus.writes = []) ∧ (s.dev.flag REC_LCTL.EN l = false) ∧ (((s.dev.wr ⟨.REC_LCTL, l, 0, 0⟩ (v.setWidth 64)).putb REC_LCTL.EN false l).laneCfg l = 0) :=
  ⟨st ((({} : Dev).put QUE_CFG.TYPE 2 0).setLanes { skein := Tab.set [] 0 { defined := true } }), 2, 0, by decide⟩
theorem witness_LaneCommandsAct_2 : ∃ (s : State) (l : Fin 16) (v : W32), (s.dev.bus.writes = []) ∧ (s.dev.flag REC_LCTL.EN l = false) ∧ (((s.dev.wr ⟨.REC_LCTL, l, 0, 0⟩ (v.setWidth 64)).putb REC_LCTL.EN false l).laneCfg l ≠ 0) :=
  ⟨st {}, 2, 5, by decide⟩
theorem witness_LaneCommandsAct_3 : ∃ (s : State) (l : Fin 16), (s.dev.bus.writes = []) ∧ (s.dev.flag REC_LCTL.EN l = true) :=
  ⟨st (({} : Dev).putb REC_LCTL.EN true 1), 1, by decide⟩
theorem witness_LaneCommandsAct_4 : ∃ (s : State), (s.dev.bus.writes = []) :=
  ⟨st {}, by decide⟩
theorem witness_LaneCommandsAct_5 : ∃ (s : State) (l : Fin 16) (rq : _) (v : W32), (s.dev.bus.writes = []) ∧ ((s.dev.wr ⟨.REC_REQ_CTL, l, 0, 0⟩ (v.setWidth 64)).reqResult l (issuerOf rq) (s.dev.get REC_REQ_PRE.PRE l) (s.dev.get REC_REQ_POST.POST l) (s.dev.get REC_REQ_REPEAT.REPEAT l) = 1) :=
  ⟨st (((((((({} : Dev).putb REC_LCTL.EN true 0).put REC_REQ_POST.POST 1 0).putb CV_SSTAT.READY true 0).putb BEN_STAT.BS0_READY true).putb BEN_STAT.BS1_READY true).put HK_PD_STAT.ON 0xFFFFFFFF 1 |>.put HK_PD_STAT.ON 0xFFFFFFFF 2 |>.put HK_PD_STAT.ON 0xFFFFFFFF 0).setLanes { skein := Tab.set [] 0 { defined := true, size := 4096 } }), 0, .host, 0, by decide⟩
theorem witness_LaneCommandsAct_6 : ∃ (s : State) (l : Fin 16) (k : Nat) (o : Nat) (q : Req), (s.dev.bus.writes = []) ∧ ((s.dev.lanes.lane.get l).queue.head? = some q) ∧ ((s.dev.lanes.lane.get l).actAt = some k) ∧ ((((s.dev.lanes.lane.get l).pool.head?.map Granule.k).getD (max (max s.dev.now k - 214) s.dev.stageNext)) = o) ∧ ((s.dev.lanes.lane.get l).cur = none) ∧ ((s.dev.lanes.lane.get l).seg = none) ∧ ((s.dev.lanes.lane.get l).win = none) ∧ (s.dev.flag REC_LCTL.EN l = true) ∧ ((s.dev.laneSkein l).policy = 0) ∧ (s.dev.get REC_SKN_CP.BYTES (s.dev.get REC_LCTL.SKEIN l) + s.dev.winSize l q * s.dev.granuleSize l ≤ s.dev.laneE l) :=
  ⟨st ((({} : Dev).putb REC_LCTL.EN true 0).setLanes { lane := Tab.set [] 0 { queue := [{ post := 2 }], actAt := some 1030 }, skein := Tab.set [] 0 { defined := true, size := 4096 } }), 0, 1030, 816, { post := 2 }, by decide⟩
theorem witness_LaneCommandsAct_7 : ∃ (s : State) (l : Fin 16) (w : Win), (s.dev.bus.writes = []) ∧ ((s.dev.lanes.lane.get l).win = some w) ∧ (w.waiting = true) ∧ ((s.dev.lanes.lane.get l).cur.isSome = true) ∧ ((s.dev.laneSkein l).policy = 2) ∧ ((s.dev.laneSkein l).held = []) :=
  ⟨st (({} : Dev).setLanes { lane := Tab.set [] 0 { cur := some { post := 2 }, win := some { waiting := true } }, skein := Tab.set [] 0 { defined := true, size := 4096, policy := 2 } }), 0, { waiting := true }, by decide⟩
theorem witness_LaneCommandsAct_8 : ∃ (s : State) (k : _), (s.dev.bus.writes = []) ∧ (s.dev.stageNext ≤ k) :=
  ⟨st { path := Tab.set [] 1 { delay := [{ k := 1000 }] } }, 1000, by decide⟩
theorem witness_LaneCommandsAct_9 : ∃ (s : State) (l : Fin 16) (g : Seg), (s.dev.bus.writes = []) ∧ ((s.dev.lanes.lane.get l).seg = some g) ∧ ((s.dev.lanes.lane.get l).cur.isSome = true) ∧ ((s.dev.lanes.lane.get l).win.isSome = true) ∧ (g.t.isSome = true) ∧ (g.post ≠ openEnded) ∧ (g.t.getD 0 + g.post ≤ ((s.dev.lanes.lane.get l).win.map Win.n).getD 0) ∧ ((s.dev.lanes.lane.get l).maskStop = false) :=
  ⟨st (({} : Dev).setLanes { lane := Tab.set [] 0 { cur := some { post := 2, left := 3 }, win := some { w := 2, n := 3 }, seg := some { post := 2, t := some 1 } }, skein := Tab.set [] 0 { defined := true, size := 4096 } }), 0, { post := 2, t := some 1 }, by decide⟩
theorem witness_LaneCommandsAct_10 : ∃ (s : State) (l : Fin 16) (r : Rec), (s.dev.bus.writes = []) ∧ ((s.dev.lanes.lane.get l).await.head? = some r) ∧ ((s.dev.lanes.lane.get l).await.tail = []) ∧ (r.kind = 0) ∧ (s.dev.verdictDue l r = false) :=
  ⟨st (({} : Dev).setLanes { lane := Tab.set [] 0 { await := [{ segnum := 5 }] } }), 0, { segnum := 5 }, by decide⟩
theorem witness_LaneCommandsAct_11 : ∃ (s : State) (r : Rec), (s.dev.bus.writes = []) ∧ (s.dev.lanes.done.head? = some r) :=
  ⟨st (({} : Dev).setLanes { done := [{ segnum := 5 }], lastDrain := some 1030 }), { segnum := 5 }, by decide⟩
theorem witness_LaneCommandsAct_12 : ∃ (s : State) (l : Fin 16) (r : Rec), (s.dev.bus.writes = []) ∧ ((s.dev.lanes.lane.get l).noEntry.head? = some r) ∧ ((s.dev.lanes.lane.get l).await = []) ∧ (r.kind = 2) ∧ (s.dev.rbUsed < recordEntries) :=
  ⟨st (({} : Dev).setLanes { lane := Tab.set [] 0 { noEntry := [{ kind := 2 }] } }), 0, { kind := 2 }, by decide⟩
theorem witness_LaneCommandsAct_13 : ∃ (s : State) (l : Fin 16), (s.dev.bus.writes = []) ∧ ((s.dev.lanes.lane.get l).dropping = true) ∧ ((s.dev.lanes.lane.get l).pool = []) ∧ ((∀ m, m < 16 → m ≠ l.val → (s.dev.lanes.lane.get m).dropping = false)) :=
  ⟨st (({} : Dev).setLanes { lane := Tab.set [] 0 { dropping := true } }), 0, by decide⟩
end W08

namespace W09
def st (d : Dev) : State := ⟨d, []⟩
theorem witness_SkeinAndDecimationCommandsAct_1 : ∃ (s : State) (k : Fin 64), (s.dev.bus.writes = []) ∧ (s.dev.skeinResult k = 1) :=
  ⟨st (({} : Dev).put REC_SKN_SIZE.BYTES 4096 3), 3, by decide⟩
theorem witness_SkeinAndDecimationCommandsAct_2 : ∃ (s : State) (k : Fin 64), (s.dev.bus.writes = []) ∧ ((s.dev.lanes.skein.get k).defined = true) ∧ ((s.dev.lanes.skein.get k).policy = 0) ∧ (s.dev.boundLane k = none) :=
  ⟨st (({} : Dev).setLanes { skein := Tab.set [] 0 { defined := true, size := 4096 } }), 0, by decide⟩
theorem witness_SkeinAndDecimationCommandsAct_3 : ∃ (s : State) (u : Fin 16), (s.dev.bus.writes = []) ∧ ((s.dev.decDue (s.dev.now - 150)).decCheck u = 1) :=
  ⟨st ((({} : Dev).put DEC_CFG.ORDER 3 2).put DEC_CFG.RATIO 16 2), 2, by decide⟩
theorem witness_SkeinAndDecimationCommandsAct_4 : ∃ (s : State) (u : Fin 16) (en : Bool), (s.dev.bus.writes = []) ∧ (s.dev.flag DEC_CTL.EN u ≠ en) :=
  ⟨st {}, 2, true, by decide⟩
theorem witness_SkeinAndDecimationCommandsAct_5 : ∃ (s : State) (u : Fin 16) (k : Nat), (s.dev.bus.writes = []) ∧ ((s.dev.dec.unit.get u).restart = some k) ∧ (s.dev.dec.sync = []) ∧ (s.dev.flag DEC_CTL.EN u = true) ∧ ((s.dev.dec.unit.get u).commit = none) ∧ (s.dev.decPowered u = true) :=
  ⟨st (((((({} : Dev).putb DEC_CTL.EN true 1).put HK_PD_STAT.ON 0xFFFFFFFF 0).put HK_PD_STAT.ON 0xFFFFFFFF 1).put HK_PD_STAT.ON 0xFFFFFFFF 2).setDec { unit := Tab.set [] 1 { restart := some 1000 } }), 1, 1000, by decide⟩
theorem witness_SkeinAndDecimationCommandsAct_6 : ∃ (s : State) (u : Fin 16) (k : Nat) (c : W64 × W64 × W64), (s.dev.bus.writes = []) ∧ ((s.dev.dec.unit.get u).commit = some c) ∧ ((s.dev.dec.unit.get u).restart = some k) ∧ (s.dev.dec.sync = []) :=
  ⟨st (({} : Dev).setDec { unit := Tab.set [] 1 { restart := some 1000, commit := some (0x345, 7, 8) } }), 1, 1000, (0x345, 7, 8), by decide⟩
theorem witness_SkeinAndDecimationCommandsAct_7 : ∃ (s : State), (s.dev.bus.writes = []) ∧ (s.dev.now - 150 + 1 ∉ s.dev.dec.sync) :=
  ⟨st {}, by decide⟩
theorem witness_SkeinAndDecimationCommandsAct_8 : ∃ (s : State) (i : Nat), (s.dev.bus.writes = []) ∧ (s.dev.dec.timed.head? = some i) ∧ (s.dev.now - 150 ≤ (i + 64 * 65536 - 1) / (64 * 65536)) ∧ ((i + 64 * 65536 - 1) / (64 * 65536) ∉ s.dev.dec.sync) :=
  ⟨st (({} : Dev).setDec { timed := [1000 * 64 * 65536] }), 1000 * 64 * 65536, by decide⟩
theorem witness_SkeinAndDecimationCommandsAct_9 : ∃ (s : State) (u : Fin 16) (x : Nat × DecRun), (s.dev.bus.writes = []) ∧ ((s.dev.dec.unit.get u).firstRun (fun r => r.fineDue u) = some x) :=
  ⟨st (({} : Dev).setDec { unit := Tab.set [] 1 { runs := [{ k0 := 900, cfg := 2, x := [1, 2, 3] }] } }), 1, (0, { k0 := 900, cfg := 2, x := [1, 2, 3] }), by decide⟩
theorem witness_SkeinAndDecimationCommandsAct_10 : ∃ (s : State) (u : Fin 16) (x : Nat × DecRun), (s.dev.bus.writes = []) ∧ ((s.dev.dec.unit.get u).firstRun (fun r => r.fastDue) = some x) :=
  ⟨st (({} : Dev).setDec { unit := Tab.set [] 1 { runs := [{ k0 := 900, x := List.replicate 64 (-3) }] } }), 1, (0, { k0 := 900, x := List.replicate 64 (-3) }), by decide⟩
theorem witness_SkeinAndDecimationCommandsAct_11 : ∃ (s : State) (u : Fin 16) (x : DecRun), (s.dev.bus.writes = []) ∧ ((s.dev.dec.unit.get u).runs.getLast? = some x) ∧ (s.dev.flag DEC_STAT.SETTLED u = false) :=
  ⟨st (({} : Dev).setDec { unit := Tab.set [] 1 { runs := [{ k0 := 900, x := [1] }] } }), 1, { k0 := 900, x := [1] }, by decide⟩
end W09

namespace W10
def st (d : Dev) : State := ⟨d, []⟩
theorem witness_TallyControlAct_1 : ∃ (s : State) (j : Fin 8), (s.dev.bus.writes = []) ∧ ((s.dev.get TAL_JSTAT.STATE j = 0 ∨ s.dev.get TAL_JSTAT.STATE j = 4)) ∧ (s.dev.talCheck j = 0) :=
  ⟨st ((({} : Dev).put TAL_JOB_CFG.MODE 1 1).put TAL_JOB_POINTS.VALUE 100 1), 1, by decide⟩
theorem witness_TallyControlAct_2 : ∃ (s : State) (j : Fin 8), (s.dev.bus.writes = []) ∧ ((s.dev.get TAL_JSTAT.STATE j = 0 ∨ s.dev.get TAL_JSTAT.STATE j = 4)) ∧ (s.dev.talCheck j ≠ 0) :=
  ⟨st {}, 1, by decide⟩
theorem witness_TallyControlAct_3 : ∃ (s : State) (j : Fin 8) (k : Nat), (s.dev.bus.writes = []) ∧ ((s.dev.tal.job.get j).onAt = some k) ∧ (s.dev.talPowered j = true) :=
  ⟨st (({} : Dev).put HK_PD_STAT.ON 0xFFFFFFFF 2 |>.setTal { job := Tab.set [] 0 { ready := some 1030, onAt := some 1030, clr := true } }), 0, 1030, by decide⟩
theorem witness_TallyControlAct_4 : ∃ (s : State) (j : Fin 8), (s.dev.bus.writes = []) ∧ (s.dev.get TAL_JSTAT.STATE j ≠ 0) ∧ (s.dev.get TAL_JSTAT.STATE j ≠ 4) ∧ ((s.dev.tal.job.get j).recs = []) :=
  ⟨st (({} : Dev).put TAL_JSTAT.STATE 2 1), 1, by decide⟩
theorem witness_TallyControlAct_5 : ∃ (s : State) (j : Fin 8), (s.dev.bus.writes = []) ∧ (s.dev.get TAL_JSTAT.STATE j = 2) :=
  ⟨st (({} : Dev).put TAL_JSTAT.STATE 2 1), 1, by decide⟩
theorem witness_TallyControlAct_6 : ∃ (s : State) (j : Fin 8), (s.dev.bus.writes = []) ∧ ((s.dev.tal.job.get j).pausing = true) ∧ ((s.dev.tal.job.get j).recs = []) ∧ ((s.dev.tal.job.get j).halving = none) ∧ (s.dev.get TAL_JSTAT.STATE j = 2) :=
  ⟨st ((({} : Dev).put TAL_JSTAT.STATE 2 1).setTal { job := Tab.set [] 1 { pausing := true } }), 1, by decide⟩
theorem witness_TallyControlAct_7 : ∃ (s : State) (j : Fin 8), (s.dev.bus.writes = []) ∧ (s.dev.get TAL_JSTAT.STATE j = 3) :=
  ⟨st (({} : Dev).put TAL_JSTAT.STATE 3 1), 1, by decide⟩
end W10

namespace W11
def st (d : Dev) : State := ⟨d, []⟩
theorem witness_TallyRecordsAct_1 : ∃ (s : State) (j : Fin 8) (x : Nat × BitVec 128 × Option Nat), (s.dev.bus.writes = []) ∧ ((s.dev.tal.job.get j).trig.head? = some x) ∧ (s.dev.get TAL_JSTAT.STATE j = 2) ∧ ((s.dev.tal.job.get j).pausing = false) ∧ ((s.dev.tal.job.get j).busyEnd = none) ∧ ((s.dev.tal.job.get j).halving = none) ∧ ((s.dev.tal.job.get j).recs = []) ∧ ((s.dev.tal.job.get j).runStart ≤ (x.1 + 65535) / 65536 - s.dev.get TAL_JOB_PRE.VALUE j) ∧ (s.dev.talLimit j ≠ some (s.dev.get TAL_JOB_COUNT.VALUE j)) ∧ ((s.dev.path.get (s.dev.get TAL_JOB_CFG.SRC j)).hist = []) :=
  ⟨st ((({} : Dev).put TAL_JSTAT.STATE 2 1).put TAL_JOB_CFG.MODE 1 1 |>.put TAL_JOB_POINTS.VALUE 10 1 |>.setTal { job := Tab.set [] 1 { trig := [(5000000, 3, none)] } }), 1, (5000000, 3, none), by decide⟩
theorem witness_TallyRecordsAct_2 : ∃ (s : State) (j : Fin 8) (r : TallyRec), (s.dev.bus.writes = []) ∧ ((s.dev.tal.job.get j).recs.head? = some r) ∧ (r.doneAt.isSome = true) ∧ (s.dev.get TAL_JOB_CFG.STORE j = 0) ∧ (s.dev.talLimit j ≠ some (s.dev.talCountNext j (s.dev.get TAL_JOB_COUNT.VALUE j))) :=
  ⟨st (({} : Dev).put TAL_JOB_CFG.MODE 1 1 |>.setTal { job := Tab.set [] 1 { recs := [{ doneAt := some 1030 }] } }), 1, { doneAt := some 1030 }, by decide⟩
theorem witness_TallyRecordsAct_3 : ∃ (s : State) (j : Fin 8) (k : Nat), (s.dev.bus.writes = []) ∧ ((s.dev.tal.job.get j).halving = some k) :=
  ⟨st (({} : Dev).put TAL_JOB_CFG.MODE 4 1 |>.setTal { job := Tab.set [] 1 { halving := some 1030 } }), 1, 1030, by decide⟩
theorem witness_TallyRecordsAct_4 : ∃ (s : State) (j : Fin 8) (r : TallyRec), (s.dev.bus.writes = []) ∧ ((s.dev.tal.job.get j).recs.head? = some r) ∧ (r.doneAt.isSome = true) ∧ (s.dev.get TAL_JOB_CFG.STORE j ≠ 0) ∧ (s.dev.talLimit j ≠ some (s.dev.talCountNext j (s.dev.get TAL_JOB_COUNT.VALUE j))) :=
  ⟨st (({} : Dev).put TAL_JOB_CFG.MODE 1 1 |>.put TAL_JOB_CFG.STORE 1 1 |>.setTal { job := Tab.set [] 1 { recs := [{ doneAt := some 1030, points := 3 }] } }), 1, { doneAt := some 1030, points := 3 }, by decide⟩
theorem witness_TallyRecordsAct_5 : ∃ (s : State) (j : Fin 8) (v : Verdict), (s.dev.bus.writes = []) ∧ ((s.dev.tal.job.get j).verdicts.head? = some v) ∧ (v.n ≠ 0) ∧ (s.dev.flag TAL_MASK_CTL.LANE_EN j = false) ∧ (s.dev.flag TAL_MASK_CTL.STOP j = false) ∧ ((s.dev.tal.job.get j).failAt ≠ some v.record.inst) ∧ ((s.dev.tal.job.get j).satStop = false) :=
  ⟨st (({} : Dev).setTal { job := Tab.set [] 1 { verdicts := [{ n := 3, ready := 1025, record := { index := 7 } }] } }), 1, { n := 3, ready := 1025, record := { index := 7 } }, by decide⟩
theorem witness_TallyRecordsAct_6 : ∃ (s : State) (j : Fin 8) (r : TallyRec), (s.dev.bus.writes = []) ∧ ((s.dev.tal.job.get j).failing = some r) ∧ ((s.dev.tal.job.get j).recs = []) ∧ ((s.dev.tal.job.get j).verdicts = []) :=
  ⟨st (({} : Dev).setTal { job := Tab.set [] 1 { failing := some { index := 7 } } }), 1, { index := 7 }, by decide⟩
theorem witness_TallyRecordsAct_7 : ∃ (s : State) (ofs : BitVec 28) (data : List Byte), (s.dev.bus.writes = []) ∧ (s.dev.tallyDiscards ofs.toNat data.length = false) :=
  ⟨st {}, 0x100, [1, 2], by decide⟩
theorem witness_TallyRecordsAct_8 : ∃ (s : State) (ofs : BitVec 28) (data : List Byte), (s.dev.bus.writes = []) ∧ (s.dev.tallyDiscards ofs.toNat data.length = true) :=
  ⟨st {}, 0x8000000, [1, 2], by decide⟩
end W11

namespace W12
def st (d : Dev) : State := ⟨d, []⟩
theorem witness_EventInputCommandsAct_1 : ∃ (s : State) (v : BitVec 16), (s.dev.bus.writes = []) ∧ (budget v.toNat ≤ 8) ∧ ((∀ g, g < 8 → gmode v.toNat g ≠ gmode (s.dev.get EVI_GMODE.MODE) g → s.dev.groupInUse g = false)) :=
  ⟨st {}, 0x1234, by decide⟩
theorem witness_EventInputCommandsAct_2 : ∃ (s : State) (v : BitVec 16), (s.dev.bus.writes = []) ∧ (8 < budget v.toNat) :=
  ⟨st {}, 0x5555, by decide⟩
theorem witness_EventInputCommandsAct_3 : ∃ (s : State) (g : Fin 8), (s.dev.bus.writes = []) ∧ (gmode (s.dev.get EVI_GMODE.MODE) g ≠ 0) :=
  ⟨st (({} : Dev).put EVI_GMODE.MODE 3), 0, by decide⟩
theorem witness_EventInputCommandsAct_4 : ∃ (s : State) (e : Fin 128) (k : Nat) (bin : Fin 160) (rise : Bool), (s.dev.bus.writes = []) ∧ (s.dev.gmodeAt (e / 16) k = 3) ∧ ((s.dev.get EVI_ICFG.EDGE e = 3 ∨ s.dev.get EVI_ICFG.EDGE e = (if rise then 1 else 2))) ∧ (s.dev.clockIn k = true) ∧ (s.dev.groupReadyIn (e / 16) k = true) ∧ (((s.dev.evi.inp.get e).calFrom ≤ k → s.dev.flag EVI_ISTAT.GAUGING e = false ∧ (s.dev.evi.inp.get e).calTo ≤ k)) ∧ ((∀ b, (s.dev.evi.inp.get e).last = some b → b + 8388608 ≤ s.dev.edgeInst e k bin)) :=
  ⟨st { ((({} : Dev).put EVI_GMODE.MODE 0xFFFF).put EVI_ICFG.EDGE 3 5) with tb := { locked := true }, evi := { group := [0, 1, 2, 3, 4, 5, 6, 7].foldl (fun t g => Tab.set t g { readyAt := some 1000 }) [] } }, 5, 1020, 7, true, by decide⟩
theorem witness_EventInputCommandsAct_5 : ∃ (s : State) (g : Fin 8) (k : Nat) (n : Nat), (s.dev.bus.writes = []) ∧ ((s.dev.gmodeAt g k = 1 ∧ n = 4 ∨ s.dev.gmodeAt g k = 2 ∧ n = 2)) ∧ (s.dev.clockIn k = true) ∧ (s.dev.groupReadyIn g k = true) :=
  ⟨st { (({} : Dev).put EVI_GMODE.MODE 0x5) with tb := { locked := true }, evi := { group := [0, 1, 2, 3, 4, 5, 6, 7].foldl (fun t g => Tab.set t g { readyAt := some 1000 }) [] } }, 1, 1030, 4, by decide⟩
theorem witness_EventInputCommandsAct_6 : ∃ (s : State) (x : Nat × Nat), (s.dev.bus.writes = []) ∧ (s.dev.collectNext = some x) :=
  ⟨st (({} : Dev).setEvi { inp := Tab.set [] 5 { fifo := [{ inst := 7 }] } }), (1024, 5), by decide⟩
theorem witness_EventInputCommandsAct_7 : ∃ (s : State) (e : Fin 128), (s.dev.bus.writes = []) ∧ ((s.dev.evi.inp.get e).batch ≠ []) :=
  ⟨st (({} : Dev).setEvi { inp := Tab.set [] 5 { batch := [{ inst := 7 }], batchAt := 1020 } }), 5, by decide⟩
theorem witness_EventInputCommandsAct_8 : ∃ (s : State), (s.dev.bus.writes = []) :=
  ⟨st {}, by decide⟩
end W12

namespace W13
def st (d : Dev) : State := ⟨d, []⟩
theorem witness_GaugeAndIntervalCommandsAct_1 : ∃ (s : State) (e : Fin 128), (gmode (s.dev.get EVI_GMODE.MODE) (e / 16) = 3) ∧ (s.dev.evi.gauging = none) :=
  ⟨st (({} : Dev).put EVI_GMODE.MODE 0xFFFF), 20, by decide⟩
theorem witness_GaugeAndIntervalCommandsAct_2 : ∃ (s : State) (e : Fin 128), (s.dev.flag EVI_GAUGE_CTL.AUTO = true) ∧ (s.dev.evi.gauging = none) ∧ (gmode (s.dev.get EVI_GMODE.MODE) (e / 16) = 3) ∧ (s.dev.flag EVI_ISTAT.UNCAL e = true) ∧ ((∀ j, j < e.val → gmode (s.dev.get EVI_GMODE.MODE) (j / 16) ≠ 3)) :=
  ⟨st ((({} : Dev).put EVI_GMODE.MODE 0xC).putb EVI_GAUGE_CTL.AUTO true), 16, by decide⟩
theorem witness_GaugeAndIntervalCommandsAct_3 : ∃ (s : State) (hits : List Nat) (i : Nat), (s.dev.evi.gauging = some i) ∧ (gaugeHits hits = true) ∧ (gaugePass hits = true) :=
  ⟨st (({} : Dev).setEvi { gauging := some 20 }), List.replicate 64 26215 ++ List.replicate 96 26214, 20, by decide⟩
theorem witness_GaugeAndIntervalCommandsAct_4 : ∃ (s : State) (hits : List Nat) (i : Nat), (s.dev.evi.gauging = some i) ∧ (gaugeHits hits = true) ∧ (gaugePass hits = false) :=
  ⟨st (({} : Dev).setEvi { gauging := some 20 }), 4194304 :: List.replicate 159 0, 20, by decide⟩

theorem witness_GaugeAndIntervalCommandsAct_6 : ∃ (s : State) (u : Fin 32), ((s.dev.evi.iu.get u).fifo ≠ []) ∧ ((s.dev.evi.iu.get u).inbox = []) :=
  ⟨st (({} : Dev).setEvi { drained := [1024, 1023, 1022, 1021], iu := Tab.set [] 3 { fifo := [[1, 2]] } }), 3, by decide⟩
end W13

namespace W14
def st (d : Dev) : State := ⟨d, []⟩
def ndlNext (x : Needle) : Needle := { x with g := Tab.set (Tab.set x.g 2 0x8000000000000001) 3 0x7FFFFFFFFFFFFFFF, state := max 1 x.state }
def nst (w : W64) (x : Needle) : State := st ((((({} : Dev).put NDL_WIN.SIZE 1 0).put HK_PD_STAT.ON 0x40000000 1).setTb { locked := true }).setNdl { needle := Tab.set [] 0 (ndlNext x), prog := Memory.store [] 0 (leBytes w.toNat 8) })
def nrp (s : State) : State := { s with dev := ((s.dev.put NDL_REPLACE.RESULT 1 0).putb NDL_REPLACE.WHEN true 0).put NDL_ENTRY_NEXT.PC 5 0 }
theorem witness_NeedleRegisterInstructions_1 : ∃ (s : State) (n : Fin 16) (x : Needle) (w : W64) (k : Nat), (s.dev.ndl.needle.get n = x) ∧ (s.dev.fetchWord n x.pc = w) ∧ (max s.dev.now x.next = k) ∧ (s.dev.issues n 0x10) ∧ (zX w = false) :=
  ⟨nst 0x1008800000000000 {}, 0, ndlNext {}, 0x1008800000000000, 1024, by decide⟩
theorem witness_NeedleRegisterInstructions_2 : ∃ (s : State) (n : Fin 16) (x : Needle) (w : W64) (k : Nat), (s.dev.ndl.needle.get n = x) ∧ (s.dev.fetchWord n x.pc = w) ∧ (max s.dev.now x.next = k) ∧ (s.dev.issues n 0x11) ∧ (zf w 50 49 = 0) :=
  ⟨nst 0x1108000000123456 {}, 0, ndlNext {}, 0x1108000000123456, 1024, by decide⟩
theorem witness_NeedleRegisterInstructions_3 : ∃ (s : State) (n : Fin 16) (x : Needle) (w : W64) (k : Nat), (s.dev.ndl.needle.get n = x) ∧ (s.dev.fetchWord n x.pc = w) ∧ (max s.dev.now x.next = k) ∧ (s.dev.issues n 0x11) ∧ (zf w 50 49 = 1) :=
  ⟨nst 0x110a800000000000 {}, 0, ndlNext {}, 0x110a800000000000, 1024, by decide⟩
theorem witness_NeedleRegisterInstructions_4 : ∃ (s : State) (n : Fin 16) (x : Needle) (w : W64) (k : Nat), (s.dev.ndl.needle.get n = x) ∧ (s.dev.fetchWord n x.pc = w) ∧ (max s.dev.now x.next = k) ∧ (s.dev.issues n 0x11) ∧ (zf w 50 49 = 2) :=
  ⟨nst 0x110c00000000beef {}, 0, ndlNext {}, 0x110c00000000beef, 1024, by decide⟩
theorem witness_NeedleRegisterInstructions_5 : ∃ (s : State) (n : Fin 16) (x : Needle) (w : W64) (k : Nat), (s.dev.ndl.needle.get n = x) ∧ (s.dev.fetchWord n x.pc = w) ∧ (max s.dev.now x.next = k) ∧ (s.dev.issues n 0x12) :=
  ⟨nst 0x1208860000000000 {}, 0, ndlNext {}, 0x1208860000000000, 1024, by decide⟩
theorem witness_NeedleRegisterInstructions_6 : ∃ (s : State) (n : Fin 16) (x : Needle) (w : W64) (k : Nat), (s.dev.ndl.needle.get n = x) ∧ (s.dev.fetchWord n x.pc = w) ∧ (max s.dev.now x.next = k) ∧ (s.dev.issues n 0x13) :=
  ⟨nst 0x13088100ffffffff {}, 0, ndlNext {}, 0x13088100ffffffff, 1024, by decide⟩
theorem witness_NeedleRegisterInstructions_7 : ∃ (s : State) (n : Fin 16) (x : Needle) (w : W64) (k : Nat), (s.dev.ndl.needle.get n = x) ∧ (s.dev.fetchWord n x.pc = w) ∧ (max s.dev.now x.next = k) ∧ (s.dev.issues n 0x14) :=
  ⟨nst 0x1408860000000000 {}, 0, ndlNext {}, 0x1408860000000000, 1024, by decide⟩
theorem witness_NeedleRegisterInstructions_8 : ∃ (s : State) (n : Fin 16) (x : Needle) (w : W64) (k : Nat), (s.dev.ndl.needle.get n = x) ∧ (s.dev.fetchWord n x.pc = w) ∧ (max s.dev.now x.next = k) ∧ (s.dev.issues n 0x15) :=
  ⟨nst 0x1508860000000000 {}, 0, ndlNext {}, 0x1508860000000000, 1024, by decide⟩
theorem witness_NeedleRegisterInstructions_9 : ∃ (s : State) (n : Fin 16) (x : Needle) (w : W64) (k : Nat), (s.dev.ndl.needle.get n = x) ∧ (s.dev.fetchWord n x.pc = w) ∧ (max s.dev.now x.next = k) ∧ (s.dev.issues n 0x16) :=
  ⟨nst 0x1608860000000000 {}, 0, ndlNext {}, 0x1608860000000000, 1024, by decide⟩
theorem witness_NeedleRegisterInstructions_10 : ∃ (s : State) (n : Fin 16) (x : Needle) (w : W64) (k : Nat), (s.dev.ndl.needle.get n = x) ∧ (s.dev.fetchWord n x.pc = w) ∧ (max s.dev.now x.next = k) ∧ (s.dev.issues n 0x19) :=
  ⟨nst 0x1900860000000000 {}, 0, ndlNext {}, 0x1900860000000000, 1024, by decide⟩
end W14

namespace W15
def st (d : Dev) : State := ⟨d, []⟩
def ndlNext (x : Needle) : Needle := { x with g := Tab.set (Tab.set x.g 2 0x8000000000000001) 3 0x7FFFFFFFFFFFFFFF, state := max 1 x.state }
def nst (w : W64) (x : Needle) : State := st ((((({} : Dev).put NDL_WIN.SIZE 1 0).put HK_PD_STAT.ON 0x40000000 1).setTb { locked := true }).setNdl { needle := Tab.set [] 0 (ndlNext x), prog := Memory.store [] 0 (leBytes w.toNat 8) })
def nrp (s : State) : State := { s with dev := ((s.dev.put NDL_REPLACE.RESULT 1 0).putb NDL_REPLACE.WHEN true 0).put NDL_ENTRY_NEXT.PC 5 0 }
theorem witness_NeedleShiftScratchAndJumpInstructions_1 : ∃ (s : State) (n : Fin 16) (x : Needle) (w : W64) (k : Nat), (s.dev.ndl.needle.get n = x) ∧ (s.dev.fetchWord n x.pc = w) ∧ (max s.dev.now x.next = k) ∧ (s.dev.issues n 0x17) :=
  ⟨nst 0x1708810000000005 {}, 0, ndlNext {}, 0x1708810000000005, 1024, by decide⟩
theorem witness_NeedleShiftScratchAndJumpInstructions_2 : ∃ (s : State) (n : Fin 16) (x : Needle) (w : W64) (k : Nat), (s.dev.ndl.needle.get n = x) ∧ (s.dev.fetchWord n x.pc = w) ∧ (max s.dev.now x.next = k) ∧ (s.dev.issues n 0x18) ∧ (zX w = false) :=
  ⟨nst 0x1808810000000005 {}, 0, ndlNext {}, 0x1808810000000005, 1024, by decide⟩
theorem witness_NeedleShiftScratchAndJumpInstructions_3 : ∃ (s : State) (n : Fin 16) (x : Needle) (w : W64) (k : Nat), (s.dev.ndl.needle.get n = x) ∧ (s.dev.fetchWord n x.pc = w) ∧ (max s.dev.now x.next = k) ∧ (s.dev.issues n 0x18) ∧ (zX w = true) :=
  ⟨nst 0x1808818000000005 {}, 0, ndlNext {}, 0x1808818000000005, 1024, by decide⟩
theorem witness_NeedleShiftScratchAndJumpInstructions_4 : ∃ (s : State) (n : Fin 16) (x : Needle) (w : W64) (k : Nat), (s.dev.ndl.needle.get n = x) ∧ (s.dev.fetchWord n x.pc = w) ∧ (max s.dev.now x.next = k) ∧ (s.dev.issues n 0x1A) ∧ ((x.reg (zA w) + BitVec.ofNat 64 (zf w 11 0)).toNat < 4096) ∧ ((x.reg (zA w) + BitVec.ofNat 64 (zf w 11 0)).toNat % 8 = 0) :=
  ⟨nst 0x1a0a400000000010 {}, 0, ndlNext {}, 0x1a0a400000000010, 1024, by decide⟩
theorem witness_NeedleShiftScratchAndJumpInstructions_5 : ∃ (s : State) (n : Fin 16) (x : Needle) (w : W64) (k : Nat), (s.dev.ndl.needle.get n = x) ∧ (s.dev.fetchWord n x.pc = w) ∧ (max s.dev.now x.next = k) ∧ (s.dev.issues n 0x1A) ∧ ((4096 ≤ (x.reg (zA w) + BitVec.ofNat 64 (zf w 11 0)).toNat ∨ (x.reg (zA w) + BitVec.ofNat 64 (zf w 11 0)).toNat % 8 ≠ 0)) :=
  ⟨nst 0x1a0a400000000011 {}, 0, ndlNext {}, 0x1a0a400000000011, 1024, by decide⟩
theorem witness_NeedleShiftScratchAndJumpInstructions_6 : ∃ (s : State) (n : Fin 16) (x : Needle) (w : W64) (k : Nat), (s.dev.ndl.needle.get n = x) ∧ (s.dev.fetchWord n x.pc = w) ∧ (max s.dev.now x.next = k) ∧ (s.dev.issues n 0x1B) ∧ ((x.reg (zA w) + BitVec.ofNat 64 (zf w 11 0)).toNat < 4096) ∧ ((x.reg (zA w) + BitVec.ofNat 64 (zf w 11 0)).toNat % 8 = 0) :=
  ⟨nst 0x1b02460000000008 {}, 0, ndlNext {}, 0x1b02460000000008, 1024, by decide⟩
theorem witness_NeedleShiftScratchAndJumpInstructions_7 : ∃ (s : State) (n : Fin 16) (x : Needle) (w : W64) (k : Nat), (s.dev.ndl.needle.get n = x) ∧ (s.dev.fetchWord n x.pc = w) ∧ (max s.dev.now x.next = k) ∧ (s.dev.issues n 0x00) :=
  ⟨nst 0x0 {}, 0, ndlNext {}, 0x0, 1024, by decide⟩
theorem witness_NeedleShiftScratchAndJumpInstructions_8 : ∃ (s : State) (n : Fin 16) (x : Needle) (w : W64) (k : Nat), (s.dev.ndl.needle.get n = x) ∧ (s.dev.fetchWord n x.pc = w) ∧ (max s.dev.now x.next = k) ∧ (s.dev.issues n 0x08) ∧ (zf w 50 50 = 0) :=
  ⟨nst 0x80000000000004d {}, 0, ndlNext {}, 0x80000000000004d, 1024, by decide⟩
theorem witness_NeedleShiftScratchAndJumpInstructions_9 : ∃ (s : State) (n : Fin 16) (x : Needle) (w : W64) (k : Nat), (s.dev.ndl.needle.get n = x) ∧ (s.dev.fetchWord n x.pc = w) ∧ (max s.dev.now x.next = k) ∧ (s.dev.issues n 0x08) ∧ (zf w 50 50 = 1) :=
  ⟨nst 0x81c000000000000 {}, 0, ndlNext {}, 0x81c000000000000, 1024, by decide⟩
theorem witness_NeedleShiftScratchAndJumpInstructions_10 : ∃ (s : State) (n : Fin 16) (x : Needle) (w : W64) (k : Nat), (s.dev.ndl.needle.get n = x) ∧ (s.dev.fetchWord n x.pc = w) ∧ (max s.dev.now x.next = k) ∧ (s.dev.issues n 0x09) :=
  ⟨nst 0x91000000000000c {}, 0, ndlNext {}, 0x91000000000000c, 1024, by decide⟩
theorem witness_NeedleShiftScratchAndJumpInstructions_11 : ∃ (s : State) (n : Fin 16) (x : Needle) (w : W64) (k : Nat), (s.dev.ndl.needle.get n = x) ∧ (s.dev.fetchWord n x.pc = w) ∧ (max s.dev.now x.next = k) ∧ (s.dev.issues n 0x0A) ∧ (x.calls.length < 16) :=
  ⟨nst 0xa00000000000037 {}, 0, ndlNext {}, 0xa00000000000037, 1024, by decide⟩
theorem witness_NeedleShiftScratchAndJumpInstructions_12 : ∃ (s : State) (n : Fin 16) (x : Needle) (w : W64) (k : Nat), (s.dev.ndl.needle.get n = x) ∧ (s.dev.fetchWord n x.pc = w) ∧ (max s.dev.now x.next = k) ∧ (s.dev.issues n 0x0B) ∧ (x.calls ≠ []) :=
  ⟨nst 0xb00000000000000 { calls := [4] }, 0, ndlNext { calls := [4] }, 0xb00000000000000, 1024, by decide⟩
theorem witness_NeedleShiftScratchAndJumpInstructions_13 : ∃ (s : State) (n : Fin 16) (x : Needle) (w : W64) (k : Nat), (s.dev.ndl.needle.get n = x) ∧ (s.dev.fetchWord n x.pc = w) ∧ (max s.dev.now x.next = k) ∧ (s.dev.issues n 0x0B) ∧ (x.calls = []) :=
  ⟨nst 0xb00000000000000 {}, 0, ndlNext {}, 0xb00000000000000, 1024, by decide⟩
end W15

namespace W16
def st (d : Dev) : State := ⟨d, []⟩
def ndlNext (x : Needle) : Needle := { x with g := Tab.set (Tab.set x.g 2 0x8000000000000001) 3 0x7FFFFFFFFFFFFFFF, state := max 1 x.state }
def nst (w : W64) (x : Needle) : State := st ((((({} : Dev).put NDL_WIN.SIZE 1 0).put HK_PD_STAT.ON 0x40000000 1).setTb { locked := true }).setNdl { needle := Tab.set [] 0 (ndlNext x), prog := Memory.store [] 0 (leBytes w.toNat 8) })
def nrp (s : State) : State := { s with dev := ((s.dev.put NDL_REPLACE.RESULT 1 0).putb NDL_REPLACE.WHEN true 0).put NDL_ENTRY_NEXT.PC 5 0 }
theorem witness_LoopInstructionsFollowTheTable_1 : ∃ (s : State) (n : Fin 16) (x : Needle) (w : W64) (k : Nat), (s.dev.ndl.needle.get n = x) ∧ (s.dev.fetchWord n x.pc = w) ∧ (max s.dev.now x.next = k) ∧ (s.dev.issues n 0x0C) ∧ ((if zf w 50 50 = 1 then zf w 48 17 else (x.reg (zD w)).toNat % 2 ^ 40) = 0) :=
  ⟨nst 0xc04000000000009 {}, 0, ndlNext {}, 0xc04000000000009, 1024, by decide⟩
theorem witness_LoopInstructionsFollowTheTable_2 : ∃ (s : State) (n : Fin 16) (x : Needle) (w : W64) (k : Nat), (s.dev.ndl.needle.get n = x) ∧ (s.dev.fetchWord n x.pc = w) ∧ (max s.dev.now x.next = k) ∧ (s.dev.issues n 0x0C) ∧ ((if zf w 50 50 = 1 then zf w 48 17 else (x.reg (zD w)).toNat % 2 ^ 40) ≠ 0) ∧ (8 ≤ x.loops.length) :=
  ⟨nst 0xc04000000060009 { loops := List.replicate 8 {} }, 0, ndlNext { loops := List.replicate 8 {} }, 0xc04000000060009, 1024, by decide⟩
theorem witness_LoopInstructionsFollowTheTable_3 : ∃ (s : State) (n : Fin 16) (x : Needle) (w : W64) (k : Nat), (s.dev.ndl.needle.get n = x) ∧ (s.dev.fetchWord n x.pc = w) ∧ (max s.dev.now x.next = k) ∧ (s.dev.issues n 0x0C) ∧ ((if zf w 50 50 = 1 then zf w 48 17 else (x.reg (zD w)).toNat % 2 ^ 40) ≠ 0) ∧ (x.loops.length < 8) :=
  ⟨nst 0xc04000000060009 {}, 0, ndlNext {}, 0xc04000000060009, 1024, by decide⟩
theorem witness_LoopInstructionsFollowTheTable_4 : ∃ (s : State) (n : Fin 16) (x : Needle) (w : W64) (k : Nat), (s.dev.ndl.needle.get n = x) ∧ (s.dev.fetchWord n x.pc = w) ∧ (max s.dev.now x.next = k) ∧ (s.dev.issues n 0x0D) ∧ (x.loops ≠ []) ∧ (zf w 0 0 = 0) ∧ (1 < (x.loops.headD {}).count) :=
  ⟨nst 0xd00000000000000 { loops := [⟨3, 1, 2⟩] }, 0, ndlNext { loops := [⟨3, 1, 2⟩] }, 0xd00000000000000, 1024, by decide⟩
theorem witness_LoopInstructionsFollowTheTable_5 : ∃ (s : State) (n : Fin 16) (x : Needle) (w : W64) (k : Nat), (s.dev.ndl.needle.get n = x) ∧ (s.dev.fetchWord n x.pc = w) ∧ (max s.dev.now x.next = k) ∧ (s.dev.issues n 0x0D) ∧ (x.loops ≠ []) ∧ (zf w 0 0 = 0) ∧ ((x.loops.headD {}).count ≤ 1) :=
  ⟨nst 0xd00000000000000 { loops := [⟨1, 1, 2⟩] }, 0, ndlNext { loops := [⟨1, 1, 2⟩] }, 0xd00000000000000, 1024, by decide⟩
theorem witness_LoopInstructionsFollowTheTable_6 : ∃ (s : State) (n : Fin 16) (x : Needle) (w : W64) (k : Nat), (s.dev.ndl.needle.get n = x) ∧ (s.dev.fetchWord n x.pc = w) ∧ (max s.dev.now x.next = k) ∧ (s.dev.issues n 0x0D) ∧ (x.loops ≠ []) ∧ (zf w 0 0 = 1) :=
  ⟨nst 0xd00000000000001 { loops := [⟨3, 1, 2⟩] }, 0, ndlNext { loops := [⟨3, 1, 2⟩] }, 0xd00000000000001, 1024, by decide⟩
theorem witness_LoopInstructionsFollowTheTable_7 : ∃ (s : State) (n : Fin 16) (x : Needle) (w : W64) (k : Nat), (s.dev.ndl.needle.get n = x) ∧ (s.dev.fetchWord n x.pc = w) ∧ (max s.dev.now x.next = k) ∧ (s.dev.issues n 0x0D) ∧ (x.loops = []) :=
  ⟨nst 0xd00000000000000 {}, 0, ndlNext {}, 0xd00000000000000, 1024, by decide⟩
theorem witness_LoopInstructionsFollowTheTable_8 : ∃ (s : State) (n : Fin 16) (x : Needle) (w : W64) (k : Nat), (s.dev.ndl.needle.get n = x) ∧ (s.dev.fetchWord n x.pc = w) ∧ (max s.dev.now x.next = k) ∧ (x.state = 1) :=
  ⟨nst 0x800000000000007 { loops := [⟨3, 1, 2⟩] }, 0, ndlNext { loops := [⟨3, 1, 2⟩] }, 0x800000000000007, 1024, by decide⟩
end W16

namespace W17
def st (d : Dev) : State := ⟨d, []⟩
def ndlNext (x : Needle) : Needle := { x with g := Tab.set (Tab.set x.g 2 0x8000000000000001) 3 0x7FFFFFFFFFFFFFFF, state := max 1 x.state }
def nst (w : W64) (x : Needle) : State := st ((((({} : Dev).put NDL_WIN.SIZE 1 0).put HK_PD_STAT.ON 0x40000000 1).setTb { locked := true }).setNdl { needle := Tab.set [] 0 (ndlNext x), prog := Memory.store [] 0 (leBytes w.toNat 8) })
def nrp (s : State) : State := { s with dev := ((s.dev.put NDL_REPLACE.RESULT 1 0).putb NDL_REPLACE.WHEN true 0).put NDL_ENTRY_NEXT.PC 5 0 }
theorem witness_NeedleInstructionsLeaveTheirEffects_1 : ∃ (s : State) (n : Fin 16) (x : Needle) (w : W64) (k : Nat), (s.dev.ndl.needle.get n = x) ∧ (s.dev.fetchWord n x.pc = w) ∧ (max s.dev.now x.next = k) ∧ (s.dev.issues n 0x20) :=
  ⟨nst 0x2008000000041234 {}, 0, ndlNext {}, 0x2008000000041234, 1024, by decide⟩
theorem witness_NeedleInstructionsLeaveTheirEffects_2 : ∃ (s : State) (n : Fin 16) (x : Needle) (w : W64) (k : Nat), (s.dev.ndl.needle.get n = x) ∧ (s.dev.fetchWord n x.pc = w) ∧ (max s.dev.now x.next = k) ∧ (s.dev.issues n 0x21) :=
  ⟨nst 0x2108000000041234 {}, 0, ndlNext {}, 0x2108000000041234, 1024, by decide⟩
theorem witness_NeedleInstructionsLeaveTheirEffects_3 : ∃ (s : State) (n : Fin 16) (x : Needle) (w : W64) (k : Nat), (s.dev.ndl.needle.get n = x) ∧ (s.dev.fetchWord n x.pc = w) ∧ (max s.dev.now x.next = k) ∧ (s.dev.issues n 0x28) ∧ (x.ctxAt k = false) :=
  ⟨nst 0x2808800000000000 {}, 0, ndlNext {}, 0x2808800000000000, 1024, by decide⟩
theorem witness_NeedleInstructionsLeaveTheirEffects_4 : ∃ (s : State) (n : Fin 16) (x : Needle) (w : W64) (k : Nat), (s.dev.ndl.needle.get n = x) ∧ (s.dev.fetchWord n x.pc = w) ∧ (max s.dev.now x.next = k) ∧ (s.dev.issues n 0x29) ∧ (x.ctxAt k = true) :=
  ⟨nst 0x2900000000000000 { ctx := true }, 0, ndlNext { ctx := true }, 0x2900000000000000, 1024, by decide⟩
theorem witness_NeedleInstructionsLeaveTheirEffects_5 : ∃ (s : State) (n : Fin 16) (x : Needle) (w : W64) (k : Nat), (s.dev.ndl.needle.get n = x) ∧ (s.dev.fetchWord n x.pc = w) ∧ (max s.dev.now x.next = k) ∧ (s.dev.issues n 0x28) ∧ (x.ctxAt k = true) :=
  ⟨nst 0x2808800000000000 { ctx := true }, 0, ndlNext { ctx := true }, 0x2808800000000000, 1024, by decide⟩
theorem witness_NeedleInstructionsLeaveTheirEffects_6 : ∃ (s : State) (n : Fin 16) (x : Needle) (w : W64) (k : Nat), (s.dev.ndl.needle.get n = x) ∧ (s.dev.fetchWord n x.pc = w) ∧ (max s.dev.now x.next = k) ∧ (s.dev.issues n 0x29) ∧ (x.ctxAt k = false) :=
  ⟨nst 0x2900000000000000 {}, 0, ndlNext {}, 0x2900000000000000, 1024, by decide⟩
theorem witness_NeedleInstructionsLeaveTheirEffects_7 : ∃ (s : State) (n : Fin 16) (x : Needle) (w : W64) (k : Nat), (s.dev.ndl.needle.get n = x) ∧ (s.dev.fetchWord n x.pc = w) ∧ (max s.dev.now x.next = k) ∧ (s.dev.issues n 0x2A) :=
  ⟨nst 0x2a00000000000005 {}, 0, ndlNext {}, 0x2a00000000000005, 1024, by decide⟩
theorem witness_NeedleInstructionsLeaveTheirEffects_8 : ∃ (s : State) (n : Fin 16) (x : Needle) (w : W64) (k : Nat), (s.dev.ndl.needle.get n = x) ∧ (s.dev.fetchWord n x.pc = w) ∧ (max s.dev.now x.next = k) ∧ (s.dev.issues n 0x2B) :=
  ⟨nst 0x2b00000000000005 {}, 0, ndlNext {}, 0x2b00000000000005, 1024, by decide⟩
theorem witness_NeedleInstructionsLeaveTheirEffects_9 : ∃ (s : State) (n : Fin 16) (x : Needle) (w : W64) (k : Nat), (s.dev.ndl.needle.get n = x) ∧ (s.dev.fetchWord n x.pc = w) ∧ (max s.dev.now x.next = k) ∧ (s.dev.issues n 0x2C) :=
  ⟨nst 0x2c08800000000003 {}, 0, ndlNext {}, 0x2c08800000000003, 1024, by decide⟩
theorem witness_NeedleInstructionsLeaveTheirEffects_10 : ∃ (s : State) (n : Fin 16) (x : Needle) (w : W64) (k : Nat), (s.dev.ndl.needle.get n = x) ∧ (s.dev.fetchWord n x.pc = w) ∧ (max s.dev.now x.next = k) ∧ (s.dev.issues n 0x2D) :=
  ⟨nst 0x2d00000000000000 {}, 0, ndlNext {}, 0x2d00000000000000, 1024, by decide⟩
theorem witness_NeedleInstructionsLeaveTheirEffects_11 : ∃ (s : State) (n : Fin 16) (x : Needle) (w : W64) (k : Nat), (s.dev.ndl.needle.get n = x) ∧ (s.dev.fetchWord n x.pc = w) ∧ (max s.dev.now x.next = k) ∧ (s.dev.issues n 0x38) :=
  ⟨nst 0x3808800000000003 {}, 0, ndlNext {}, 0x3808800000000003, 1024, by decide⟩
theorem witness_NeedleInstructionsLeaveTheirEffects_12 : ∃ (s : State) (n : Fin 16) (x : Needle) (w : W64) (k : Nat), (s.dev.ndl.needle.get n = x) ∧ (s.dev.fetchWord n x.pc = w) ∧ (max s.dev.now x.next = k) ∧ (s.dev.issues n 0x39) :=
  ⟨nst 0x3904000000000009 {}, 0, ndlNext {}, 0x3904000000000009, 1024, by decide⟩
theorem witness_NeedleInstructionsLeaveTheirEffects_13 : ∃ (s : State) (n : Fin 16) (x : Needle) (w : W64) (k : Nat), (s.dev.ndl.needle.get n = x) ∧ (s.dev.fetchWord n x.pc = w) ∧ (max s.dev.now x.next = k) ∧ (s.dev.issues n 0x3A) :=
  ⟨nst 0x3a00000000070003 {}, 0, ndlNext {}, 0x3a00000000070003, 1024, by decide⟩
theorem witness_NeedleInstructionsLeaveTheirEffects_14 : ∃ (s : State) (n : Fin 16) (x : Needle) (w : W64) (k : Nat), (s.dev.ndl.needle.get n = x) ∧ (s.dev.fetchWord n x.pc = w) ∧ (max s.dev.now x.next = k) ∧ (s.dev.issues n 0x3C) :=
  ⟨nst 0x3c08800000000021 {}, 0, ndlNext {}, 0x3c08800000000021, 1024, by decide⟩
theorem witness_NeedleInstructionsLeaveTheirEffects_15 : ∃ (s : State) (n : Fin 16) (x : Needle) (w : W64) (k : Nat), (s.dev.ndl.needle.get n = x) ∧ (s.dev.fetchWord n x.pc = w) ∧ (max s.dev.now x.next = k) ∧ (s.dev.issues n 0x3D) :=
  ⟨nst 0x3d08800000000002 {}, 0, ndlNext {}, 0x3d08800000000002, 1024, by decide⟩
end W17

namespace W18
def st (d : Dev) : State := ⟨d, []⟩
def ndlNext (x : Needle) : Needle := { x with g := Tab.set (Tab.set x.g 2 0x8000000000000001) 3 0x7FFFFFFFFFFFFFFF, state := max 1 x.state }
def nst (w : W64) (x : Needle) : State := st ((((({} : Dev).put NDL_WIN.SIZE 1 0).put HK_PD_STAT.ON 0x40000000 1).setTb { locked := true }).setNdl { needle := Tab.set [] 0 (ndlNext x), prog := Memory.store [] 0 (leBytes w.toNat 8) })
def nrp (s : State) : State := { s with dev := ((s.dev.put NDL_REPLACE.RESULT 1 0).putb NDL_REPLACE.WHEN true 0).put NDL_ENTRY_NEXT.PC 5 0 }
theorem witness_NeedleWaitsYieldAndHalt_1 : ∃ (s : State) (n : Fin 16) (x : Needle) (w : W64) (k : Nat), (s.dev.ndl.needle.get n = x) ∧ (s.dev.fetchWord n x.pc = w) ∧ (max s.dev.now x.next = k) ∧ (s.dev.issues n 0x34) :=
  ⟨nst 0x3404000000000064 {}, 0, ndlNext {}, 0x3404000000000064, 1024, by decide⟩
theorem witness_NeedleWaitsYieldAndHalt_2 : ∃ (s : State) (n : Fin 16) (x : Needle) (w : W64) (k : Nat), (s.dev.ndl.needle.get n = x) ∧ (s.dev.fetchWord n x.pc = w) ∧ (max s.dev.now x.next = k) ∧ (s.dev.issues n 0x32) :=
  ⟨nst 0x3208000000000000 {}, 0, ndlNext {}, 0x3208000000000000, 1024, by decide⟩
theorem witness_NeedleWaitsYieldAndHalt_3 : ∃ (s : State) (n : Fin 16) (x : Needle) (w : W64) (k : Nat), (s.dev.ndl.needle.get n = x) ∧ (s.dev.fetchWord n x.pc = w) ∧ (max s.dev.now x.next = k) ∧ (s.dev.issues n 0x31) :=
  ⟨nst 0x3114000000000003 {}, 0, ndlNext {}, 0x3114000000000003, 1024, by decide⟩
theorem witness_NeedleWaitsYieldAndHalt_4 : ∃ (s : State) (n : Fin 16) (x : Needle) (w : W64) (k : Nat), (s.dev.ndl.needle.get n = x) ∧ (s.dev.fetchWord n x.pc = w) ∧ (max s.dev.now x.next = k) ∧ (s.dev.issues n 0x33) :=
  ⟨nst 0x330000000000012c {}, 0, ndlNext {}, 0x330000000000012c, 1024, by decide⟩
theorem witness_NeedleWaitsYieldAndHalt_5 : ∃ (s : State) (n : Fin 16) (x : Needle) (w : W64) (k : Nat), (s.dev.ndl.needle.get n = x) ∧ (s.dev.fetchWord n x.pc = w) ∧ (max s.dev.now x.next = k) ∧ (s.dev.issues n 0x30) ∧ (zf w 49 49 = 0) :=
  ⟨nst 0x3000000000000005 {}, 0, ndlNext {}, 0x3000000000000005, 1024, by decide⟩
theorem witness_NeedleWaitsYieldAndHalt_6 : ∃ (s : State) (n : Fin 16) (x : Needle) (w : W64) (k : Nat), (s.dev.ndl.needle.get n = x) ∧ (s.dev.fetchWord n x.pc = w) ∧ (max s.dev.now x.next = k) ∧ (s.dev.issues n 0x03) :=
  ⟨nst 0x300000000000000 {}, 0, ndlNext {}, 0x300000000000000, 1024, by decide⟩
theorem witness_NeedleWaitsYieldAndHalt_7 : ∃ (s : State) (n : Fin 16) (x : Needle) (w : W64) (k : Nat), (s.dev.ndl.needle.get n = x) ∧ (s.dev.fetchWord n x.pc = w) ∧ (max s.dev.now x.next = k) ∧ (s.dev.issues n 0x02) ∧ (s.dev.get NDL_REPLACE.RESULT n ≠ 1) :=
  ⟨nst 0x200000000000000 {}, 0, ndlNext {}, 0x200000000000000, 1024, by decide⟩
theorem witness_NeedleWaitsYieldAndHalt_8 : ∃ (s : State) (n : Fin 16) (x : Needle) (w : W64) (k : Nat), (s.dev.ndl.needle.get n = x) ∧ (s.dev.fetchWord n x.pc = w) ∧ (max s.dev.now x.next = k) ∧ (s.dev.issues n 0x02) ∧ (s.dev.get NDL_REPLACE.RESULT n = 1) ∧ (s.dev.flag NDL_REPLACE.WHEN n = true) :=
  ⟨nrp (nst 0x200000000000000 {}), 0, ndlNext {}, 0x200000000000000, 1024, by decide⟩
theorem witness_NeedleWaitsYieldAndHalt_9 : ∃ (s : State) (n : Fin 16) (x : Needle) (w : W64) (k : Nat), (s.dev.ndl.needle.get n = x) ∧ (s.dev.fetchWord n x.pc = w) ∧ (max s.dev.now x.next = k) ∧ (s.dev.issues n 0x01) ∧ (s.dev.get NDL_REPLACE.RESULT n ≠ 1) :=
  ⟨nst 0x100000000000000 {}, 0, ndlNext {}, 0x100000000000000, 1024, by decide⟩
theorem witness_NeedleWaitsYieldAndHalt_10 : ∃ (s : State) (n : Fin 16) (x : Needle) (w : W64) (k : Nat) (d : Nat), (s.dev.ndl.needle.get n = x) ∧ (s.dev.fetchWord n x.pc = w) ∧ (max s.dev.now x.next = k) ∧ (x.wait = some ⟨.delay, x.next, none, some (d, 0)⟩) ∧ (s.dev.tb.locked = true) :=
  ⟨nst 0x100000000000000 { state := 2, next := 1030, wait := some ⟨.delay, 1030, none, some (1040, 0)⟩ }, 0, ndlNext { state := 2, next := 1030, wait := some ⟨.delay, 1030, none, some (1040, 0)⟩ }, 0x100000000000000, 1030, 1040, by decide⟩
end W18

namespace W19
def st (d : Dev) : State := ⟨d, []⟩
def ndlNext (x : Needle) : Needle := { x with g := Tab.set (Tab.set x.g 2 0x8000000000000001) 3 0x7FFFFFFFFFFFFFFF, state := max 1 x.state }
def nst (w : W64) (x : Needle) : State := st ((((({} : Dev).put NDL_WIN.SIZE 1 0).put HK_PD_STAT.ON 0x40000000 1).setTb { locked := true }).setNdl { needle := Tab.set [] 0 (ndlNext x), prog := Memory.store [] 0 (leBytes w.toNat 8) })
def nrp (s : State) : State := { s with dev := ((s.dev.put NDL_REPLACE.RESULT 1 0).putb NDL_REPLACE.WHEN true 0).put NDL_ENTRY_NEXT.PC 5 0 }
theorem witness_MovReadsTheSpecialRegisters_1 : ∃ (s : State) (n : Fin 16) (x : Needle) (w : W64) (k : Nat), (s.dev.ndl.needle.get n = x) ∧ (s.dev.fetchWord n x.pc = w) ∧ (max s.dev.now x.next = k) ∧ (s.dev.issues n 0x10) ∧ (zX w = true) ∧ (zA w < 8) :=
  ⟨nst 0x1008808000000000 {}, 0, ndlNext {}, 0x1008808000000000, 1024, by decide⟩
theorem witness_MovReadsTheSpecialRegisters_2 : ∃ (s : State) (n : Fin 16) (x : Needle) (w : W64) (k : Nat), (s.dev.ndl.needle.get n = x) ∧ (s.dev.fetchWord n x.pc = w) ∧ (max s.dev.now x.next = k) ∧ (s.dev.issues n 0x10) ∧ (zX w = true) ∧ (zA w = 8) :=
  ⟨nst 0x100a008000000000 {}, 0, ndlNext {}, 0x100a008000000000, 1024, by decide⟩
theorem witness_MovReadsTheSpecialRegisters_3 : ∃ (s : State) (n : Fin 16) (x : Needle) (w : W64) (k : Nat), (s.dev.ndl.needle.get n = x) ∧ (s.dev.fetchWord n x.pc = w) ∧ (max s.dev.now x.next = k) ∧ (s.dev.issues n 0x10) ∧ (zX w = true) ∧ (zA w = 9) :=
  ⟨nst 0x100a408000000000 {}, 0, ndlNext {}, 0x100a408000000000, 1024, by decide⟩
theorem witness_MovReadsTheSpecialRegisters_4 : ∃ (s : State) (n : Fin 16) (x : Needle) (w : W64) (k : Nat), (s.dev.ndl.needle.get n = x) ∧ (s.dev.fetchWord n x.pc = w) ∧ (max s.dev.now x.next = k) ∧ (s.dev.issues n 0x10) ∧ (zX w = true) ∧ (zA w = 10) :=
  ⟨nst 0x100a808000000000 {}, 0, ndlNext {}, 0x100a808000000000, 1024, by decide⟩
theorem witness_MovReadsTheSpecialRegisters_5 : ∃ (s : State) (n : Fin 16) (x : Needle) (w : W64) (k : Nat), (s.dev.ndl.needle.get n = x) ∧ (s.dev.fetchWord n x.pc = w) ∧ (max s.dev.now x.next = k) ∧ (s.dev.issues n 0x10) ∧ (zX w = true) ∧ (zA w = 11) :=
  ⟨nst 0x100ac08000000000 {}, 0, ndlNext {}, 0x100ac08000000000, 1024, by decide⟩
theorem witness_MovReadsTheSpecialRegisters_6 : ∃ (s : State) (n : Fin 16) (x : Needle) (w : W64) (k : Nat), (s.dev.ndl.needle.get n = x) ∧ (s.dev.fetchWord n x.pc = w) ∧ (max s.dev.now x.next = k) ∧ (zOp w = 0x10) ∧ (zX w = true) ∧ (12 ≤ zA w) :=
  ⟨nst 0x100b008000000000 {}, 0, ndlNext {}, 0x100b008000000000, 1024, by decide⟩
end W19

namespace W20
def st (d : Dev) : State := ⟨d, []⟩
def nd (x : Needle) (d : Dev) : State := st (d.setNdl { needle := Tab.set [] 0 x })
theorem witness_NeedleControlCommandsAct_1 : ∃ (s : State) (n : Fin 16), (s.dev.bus.writes = []) ∧ ((s.dev.ndl.needle.get n).state ≠ 1) ∧ ((s.dev.ndl.needle.get n).state ≠ 2) :=
  ⟨nd { state := 4, loops := [{}], z := true } {}, 0, by decide⟩
theorem witness_NeedleControlCommandsAct_2 : ∃ (s : State) (n : Fin 16), (s.dev.bus.writes = []) ∧ ((s.dev.ndl.needle.get n).state = 1 ∨ (s.dev.ndl.needle.get n).state = 2) :=
  ⟨nd { state := 2, ctx := true } {}, 0, by decide⟩
theorem witness_NeedleControlCommandsAct_3 : ∃ (s : State) (n : Fin 16), (s.dev.bus.writes = []) ∧ ((s.dev.ndl.needle.get n).state = 1) ∧ (s.dev.replCheck n = 1) :=
  ⟨nd { state := 1 } ((({} : Dev).wr ⟨.NDL_WIN, 0, 0, 0⟩ 0).put NDL_WIN_NEXT.SIZE 1 0), 0, by decide⟩
theorem witness_NeedleControlCommandsAct_4 : ∃ (s : State) (n : Fin 16), (s.dev.bus.writes = []) ∧ ((s.dev.ndl.needle.get n).state = 0) ∧ (s.dev.replCheck n = 1) :=
  ⟨nd { calls := [5] } ((({} : Dev).wr ⟨.NDL_WIN, 0, 0, 0⟩ 0).put NDL_WIN_NEXT.SIZE 1 0), 0, by decide⟩
theorem witness_NeedleControlCommandsAct_5 : ∃ (s : State) (n : Fin 16), (s.dev.bus.writes = []) ∧ (s.dev.get NDL_REPLACE.RESULT n = 1) :=
  ⟨st (({} : Dev).put NDL_REPLACE.RESULT 1 0), 0, by decide⟩
theorem witness_NeedleControlCommandsAct_6 : ∃ (s : State) (ofs : BitVec 20), (s.dev.bus.writes = []) ∧ (ofs.toNat % 8 = 0) ∧ (s.dev.progBusy ofs.toNat 8 = false) :=
  ⟨st {}, 8, by decide⟩
theorem witness_NeedleControlCommandsAct_7 : ∃ (s : State) (ofs : BitVec 20), (s.dev.bus.writes = []) ∧ (ofs.toNat % 8 = 0) ∧ (s.dev.progBusy ofs.toNat 8 = true) :=
  ⟨nd { state := 1 } (({} : Dev).put NDL_WIN.SIZE 1 0), 8, by decide⟩
theorem witness_NeedleControlCommandsAct_8 : ∃ (s : State) (n : Fin 16), (s.dev.bus.writes = []) ∧ ((s.dev.ndl.needle.get n).state ≠ 1) ∧ ((s.dev.ndl.needle.get n).state ≠ 2) :=
  ⟨st {}, 3, by decide⟩
theorem witness_NeedleControlCommandsAct_9 : ∃ (s : State) (n : Fin 16), (s.dev.bus.writes = []) ∧ ((s.dev.ndl.needle.get n).state ≠ 1) ∧ ((s.dev.ndl.needle.get n).state ≠ 2) :=
  ⟨st {}, 15, by decide⟩
end W20

namespace W21
def st (d : Dev) : State := ⟨d, []⟩
def nd (x : Needle) (d : Dev) : State := st (d.setNdl { needle := Tab.set [] 0 x })
theorem witness_EffectAndStimulusCommandsAct_1 : ∃ (s : State) (n : Fin 16) (f : Flight), (s.dev.bus.writes = []) ∧ ((s.dev.ndl.needle.get n).flights.head? = some f) ∧ (f.eff.cls = 0) :=
  ⟨nd { flights := [⟨0, 1026, .caston 3 1⟩] } {}, 0, ⟨0, 1026, .caston 3 1⟩, by decide⟩
theorem witness_EffectAndStimulusCommandsAct_2 : ∃ (s : State) (n : Fin 16) (f : Flight) (a : W64) (b : W64), (s.dev.bus.writes = []) ∧ ((s.dev.ndl.needle.get n).flights.head? = some f) ∧ (f.eff = .caston a b) ∧ ((∀ m, m < 16 → (s.dev.ndl.needle.get m).ctx = false)) ∧ (a.toNat < 2 ^ 52) ∧ (b.toNat < 2 ^ 16) :=
  ⟨nd { flights := [⟨0, 1026, .caston 3 1⟩] } {}, 0, ⟨0, 1026, .caston 3 1⟩, 3, 1, by decide⟩
theorem witness_EffectAndStimulusCommandsAct_3 : ∃ (s : State) (n : Fin 16) (f : Flight), (s.dev.bus.writes = []) ∧ ((s.dev.ndl.needle.get n).flights.head? = some f) ∧ (f.eff = .sync) ∧ (s.dev.dec.sync = []) :=
  ⟨nd { flights := [⟨0, 1026, .sync⟩] } {}, 0, ⟨0, 1026, .sync⟩, by decide⟩
theorem witness_EffectAndStimulusCommandsAct_4 : ∃ (s : State) (n : Fin 16) (f : Flight) (word : Nat) (lsb : Nat) (wm1 : Nat) (dest : Nat) (sx : Bool) (v : W64), (s.dev.bus.writes = []) ∧ ((s.dev.ndl.needle.get n).flights.head? = some f) ∧ (f.eff = .getf word lsb wm1 dest sx) ∧ (f.due = s.dev.now) ∧ (((s.dev.updNdl n fun x => { x with flights := x.flights.tail }).getfRead (.needle n) word lsb wm1 sx).map Prod.fst = some v) :=
  ⟨nd { flights := [⟨0, 1024, .getf 0xC0403 16 9 5 false⟩] } {}, 0, ⟨0, 1024, .getf 0xC0403 16 9 5 false⟩, 0xC0403, 16, 9, 5, false, 0, by decide⟩
theorem witness_EffectAndStimulusCommandsAct_5 : ∃ (s : State) (n : Fin 16) (f : Flight) (code : Nat), (s.dev.bus.writes = []) ∧ ((s.dev.ndl.needle.get n).flights.head? = some f) ∧ (f.eff = .signal code) :=
  ⟨nd { flights := [⟨0, 1026, .signal 9⟩] } {}, 0, ⟨0, 1026, .signal 9⟩, 9, by decide⟩
theorem witness_EffectAndStimulusCommandsAct_6 : ∃ (s : State) (u : Fin 4), (s.dev.bus.writes = []) ∧ (s.dev.flag STM_UCTL.EN u = false) ∧ ((s.dev.slice.get u).swatch = none) :=
  ⟨st {}, 2, by decide⟩
theorem witness_EffectAndStimulusCommandsAct_7 : ∃ (s : State) (u : Fin 4), (s.dev.bus.writes = []) ∧ (s.dev.flag STM_UCTL.EN u = true) :=
  ⟨st (({} : Dev).putb STM_UCTL.EN true 1), 1, by decide⟩
theorem witness_EffectAndStimulusCommandsAct_8 : ∃ (s : State) (u : Fin 4) (kind : Fin 4), (s.dev.bus.writes = []) ∧ (s.dev.playCheck u (s.dev.get STM_PLAY_OFS.OFS u) (s.dev.get STM_PLAY_LEN.LEN u) kind = 1) ∧ (s.dev.get STM_USTAT.STATE u = 1) ∧ ((s.dev.stm.get u).queue = []) :=
  ⟨st (((((({} : Dev).put HK_PD_STAT.ON 0xFFFFFFFF 0).put HK_PD_STAT.ON 0xFFFFFFFF 1).putb STM_UCTL.EN true 1).put STM_USTAT.STATE 1 1).put STM_PLAY_LEN.LEN 5 1), 1, 0, by decide⟩
theorem witness_EffectAndStimulusCommandsAct_9 : ∃ (s : State) (u : Fin 4), (s.dev.bus.writes = []) ∧ (s.dev.tb.locked = true) ∧ (s.dev.stmReady u = true) ∧ (s.dev.get STM_USTAT.STATE u = 1) ∧ ((s.dev.stm.get u).playing = none) ∧ ((s.dev.stm.get u).queue = []) ∧ ((s.dev.stm.get u).jumps = []) ∧ ((s.dev.stm.get u).changes = []) :=
  ⟨st (((((({} : Dev).put HK_PD_STAT.ON 0xFFFFFFFF 0).put HK_PD_STAT.ON 0xFFFFFFFF 1).putb STM_UCTL.EN true 1).put STM_USTAT.STATE 1 1).setTb { locked := true }), 1, by decide⟩
theorem witness_EffectAndStimulusCommandsAct_10 : ∃ (s : State) (u : Fin 4) (x : Nat × StmSeg), (s.dev.bus.writes = []) ∧ ((s.dev.stm.get u).jumps.head? = some x) ∧ (x.1 < s.dev.stmDue u) ∧ (s.dev.get STM_USTAT.STATE u = 2) :=
  ⟨st ((({} : Dev).put STM_USTAT.STATE 2 1).setStm (Tab.set [] 1 { jumps := [(1025, { len := 4 })], last := some 1024 })), 1, (1025, { len := 4 }), by decide⟩
theorem witness_EffectAndStimulusCommandsAct_11 : ∃ (s : State) (u : Fin 4) (p : StmSeg), (s.dev.bus.writes = []) ∧ ((s.dev.stm.get u).playing = some p) ∧ (p.fetched < p.len) ∧ ((s.dev.stm.get u).granule ≤ p.fetched) ∧ ((s.dev.stm.get u).records < 1024) :=
  ⟨st (({} : Dev).setStm (Tab.set [] 1 { playing := some { len := 4 } })), 1, { len := 4 }, by decide⟩
theorem witness_EffectAndStimulusCommandsAct_12 : ∃ (s : State) (u : Fin 4), (s.dev.bus.writes = []) ∧ (s.dev.get STM_USTAT.STATE u = 3) :=
  ⟨st (({} : Dev).put STM_USTAT.STATE 3 1), 1, by decide⟩
theorem witness_EffectAndStimulusCommandsAct_13 : ∃ (s : State), (s.dev.bus.writes = []) :=
  ⟨st {}, by decide⟩
end W21

namespace W22
def st (d : Dev) : State := ⟨d, []⟩
def hs (n tgt : Nat) : Tab Skein := Tab.set [] 0 { defined := true, size := 65536, policy := 2, tgt := tgt, held := [{ ended := true, m := n, g := 1, span := 65536 }] }
theorem witness_HoistCommandsAct_1 : ∃ (s : State) (t : Fin 64) (v : W32), (s.dev.bus.writes = []) ∧ (v.getLsbD 31 = true) ∧ (s.dev.flag BEN_HT_CTL.EN t = false) :=
  ⟨st ((({} : Dev).put BEN_HT_SIZE.OFS 4096 1)), 1, 0x80400000, by decide⟩
theorem witness_HoistCommandsAct_2 : ∃ (s : State) (t : Fin 64) (v : W32), (s.dev.bus.writes = []) ∧ (v.getLsbD 31 = false) ∧ (s.dev.flag BEN_HT_CTL.EN t = true) ∧ (s.dev.tgtInUse t = false) :=
  ⟨st (({} : Dev).putb BEN_HT_CTL.EN true 1), 1, 0, by decide⟩
theorem witness_HoistCommandsAct_3 : ∃ (s : State) (t : Fin 64) (v : W32), (s.dev.bus.writes = []) ∧ (v.getLsbD 31 = false) ∧ (s.dev.flag BEN_HT_CTL.EN t = true) ∧ (s.dev.tgtInUse t = true) :=
  ⟨st (((({} : Dev).putb BEN_HT_CTL.EN true 1).putb REC_LCTL.EN true 0).setLanes { skein := hs 8 1 }), 1, 0, by decide⟩
theorem witness_HoistCommandsAct_4 : ∃ (s : State) (t : Fin 64), (s.dev.bus.writes = []) ∧ (s.dev.flag BEN_HT_CTL.EN t = true) ∧ (s.dev.get BEN_HT_CTL.KIND t = 2) :=
  ⟨st ((({} : Dev).putb BEN_HT_CTL.EN true 1).put BEN_HT_CTL.KIND 2 1), 1, by decide⟩
theorem witness_HoistCommandsAct_5 : ∃ (s : State) (t : Fin 64) (k : Fin 64) (x : Held × Nat × Nat), (s.dev.bus.writes = []) ∧ ((s.dev.lanes.skein.get k).piece = some x) ∧ (s.dev.hoistNext = some k.val) ∧ ((s.dev.lanes.skein.get k).tgt = t.val) ∧ (s.dev.get BEN_HT_CTL.KIND t = 0) ∧ (s.dev.flag BEN_HT_CTL.POLICY t = false) :=
  ⟨st (((((({} : Dev).put HK_PD_STAT.ON 0x03000000 1).putb BEN_HT_CTL.EN true 1).put BEN_HT_SIZE.OFS 4096 1).putb BEN_QRY_STAT.READY true).setLanes { skein := hs 8 1 }), 1, 0, ({ ended := true, m := 8, g := 1, span := 65536 }, 8, 8), by decide⟩
theorem witness_HoistCommandsAct_6 : ∃ (s : State) (t : Fin 64) (k : Fin 64) (x : Held × Nat × Nat), (s.dev.bus.writes = []) ∧ ((s.dev.lanes.skein.get k).piece = some x) ∧ (s.dev.hoistNext = some k.val) ∧ ((s.dev.lanes.skein.get k).tgt = t.val) ∧ (s.dev.get BEN_HT_CTL.KIND t = 0) ∧ (s.dev.flag BEN_HT_CTL.POLICY t = true) ∧ (s.dev.get BEN_HT_SIZE.OFS t < s.dev.ringUsed t + (if x.1.sent = 0 ∧ x.1.ended then x.2.1 else x.2.2)) :=
  ⟨st ((((((({} : Dev).put HK_PD_STAT.ON 0x03000000 1).putb BEN_HT_CTL.EN true 1).putb BEN_HT_CTL.POLICY true 1).put BEN_HT_SIZE.OFS 4096 1).putb BEN_QRY_STAT.READY true).setLanes { skein := hs 4097 1 }), 1, 0, ({ ended := true, m := 4097, g := 1, span := 65536 }, 4097, 4096), by decide⟩
theorem witness_HoistCommandsAct_7 : ∃ (s : State) (t : Fin 64) (k : Fin 64) (x : Held × Nat × Nat), (s.dev.bus.writes = []) ∧ ((s.dev.lanes.skein.get k).piece = some x) ∧ (s.dev.hoistNext = some k.val) ∧ ((s.dev.lanes.skein.get k).tgt = t.val) ∧ (s.dev.get BEN_HT_CTL.KIND t = 1) :=
  ⟨st ((((({} : Dev).put HK_PD_STAT.ON 0x03000000 1).putb BEN_HT_CTL.EN true 1).put BEN_HT_CTL.KIND 1 1).setLanes { skein := hs 8 1 }), 1, 0, ({ ended := true, m := 8, g := 1, span := 65536 }, 8, 8), by decide⟩
theorem witness_HoistCommandsAct_8 : ∃ (s : State) (t : Fin 64) (e : HoistEntry), (s.dev.bus.writes = []) ∧ ((s.dev.ben.target.get t).due.head? = some e) :=
  ⟨st (({} : Dev).setBen { target := Tab.set [] 1 { due := [⟨1, 2, 3, 4, 1⟩], seq := 4294967295 } }), 1, ⟨1, 2, 3, 4, 1⟩, by decide⟩
theorem witness_HoistCommandsAct_9 : ∃ (s : State) (t : Fin 64), (s.dev.bus.writes = []) ∧ ((s.dev.ben.target.get t).passEnd = true) ∧ ((s.dev.ben.target.get t).due = []) :=
  ⟨st (({} : Dev).setBen { target := Tab.set [] 1 { passEnd := true, passes := 2, passPoison := true } }), 1, by decide⟩
theorem witness_HoistCommandsAct_10 : ∃ (s : State), (s.dev.bus.writes = []) :=
  ⟨st {}, by decide⟩
theorem witness_HoistCommandsAct_11 : ∃ (s : State) (t : Fin 64) (rel : BitVec 48) (k : Fin 64) (x : Held × Nat × Nat), (s.dev.bus.writes = []) ∧ ((s.dev.lanes.skein.get k).piece = some x) ∧ ((s.dev.lanes.skein.get k).defined = true) ∧ ((s.dev.lanes.skein.get k).policy = 2) ∧ ((s.dev.lanes.skein.get k).tgt = t.val) ∧ (((s.dev.put BEN_HT_REL.OFS rel.toNat t).updTgt t fun y => { y with full := y.full && rel.toNat == s.dev.get BEN_HT_REL.OFS t }).ringUsed t + (if x.1.sent = 0 ∧ x.1.ended then x.2.1 else x.2.2) ≤ s.dev.get BEN_HT_SIZE.OFS t) :=
  ⟨st (((({} : Dev).put BEN_HT_SIZE.OFS 4096 1).setBen { target := Tab.set [] 1 { stopped := true } }).setLanes { skein := hs 8 1 }), 1, 0, 0, ({ ended := true, m := 8, g := 1, span := 65536 }, 8, 8), by decide⟩
end W22

namespace W23
def st (d : Dev) : State := ⟨d, []⟩
def srv (c : Nat) (x : QChan) (d : Dev) : Dev := (d.put QRY_CSTAT.STATE 2 c).setBen { chan := Tab.set [] c x, panicAt := 0, channels := 16, cch := 2 ^ 34 }
theorem witness_QuarryCommandsAct_1 : ∃ (s : State) (c : Fin 16), (s.dev.bus.writes = []) ∧ (s.dev.qryServes c = true) ∧ (s.dev.ben.freqStart = none) ∧ ((∀ i, i < 64 → s.dev.flag QRY_RRT.PPR_PENDING c i = false)) :=
  ⟨st (srv 1 { selfRefresh := true } {}), 1, by decide⟩
theorem witness_QuarryCommandsAct_2 : ∃ (s : State) (c : Fin 16) (r : Nat × Bool × Nat), (s.dev.bus.writes = []) ∧ (((s.dev.ben.chan.get c).waiting.find? fun r => r.1 == 3 && r.2.1) = some r) ∧ (s.dev.get BEN_HOST_DEFER.FRAMES ≠ 0) ∧ (s.dev.flag BEN_STAT.PANIC = true) ∧ (s.dev.ben.freqStart = none) ∧ (s.dev.ben.panicAt < r.2.2) :=
  ⟨st (srv 1 { waiting := [(3, true, 1000)] } ((({} : Dev).putb BEN_STAT.PANIC true).put BEN_HOST_DEFER.FRAMES 5)), 1, (3, true, 1000), by decide⟩
theorem witness_QuarryCommandsAct_3 : ∃ (s : State) (c : Fin 16), (s.dev.bus.writes = []) ∧ (s.dev.qryServes c = true) ∧ ((s.dev.ben.chan.get c).selfRefresh = false) ∧ (s.dev.flag BEN_STAT.PANIC = true) ∧ (s.dev.ben.freqStart = none) ∧ (s.dev.ben.panicAt ≠ s.dev.now) :=
  ⟨st (srv 1 {} (({} : Dev).putb BEN_STAT.PANIC true)), 1, by decide⟩
theorem witness_QuarryCommandsAct_4 : ∃ (s : State), (s.dev.bus.writes = []) ∧ (s.dev.flag BEN_QRY_CTL.SCRUB_EN = true) ∧ (s.dev.flag BEN_QRY_STAT.READY = true) ∧ (s.dev.flag BEN_STAT.PANIC = false) ∧ (s.dev.ben.panicAt ≠ s.dev.now) ∧ (s.dev.ben.freqStart = none) ∧ ((s.dev.ben.patrol + 1) * 64 < s.dev.get BEN_QRY_CAP.BYTES) :=
  ⟨st (srv 1 {} (((({} : Dev).putb BEN_QRY_CTL.SCRUB_EN true).putb BEN_QRY_STAT.READY true).put BEN_QRY_CAP.BYTES 4096)), by decide⟩
theorem witness_QuarryCommandsAct_5 : ∃ (s : State) (b : BitVec 38), (s.dev.bus.writes = []) ∧ (b.toNat * 64 < benchSize) :=
  ⟨st {}, 5, by decide⟩
theorem witness_QuarryCommandsAct_6 : ∃ (s : State) (b : BitVec 38), (s.dev.bus.writes = []) ∧ (b.toNat * 64 < benchSize) :=
  ⟨st {}, 5, by decide⟩
theorem witness_QuarryCommandsAct_7 : ∃ (s : State) (c : Fin 16) (i : Nat), (s.dev.bus.writes = []) ∧ ((s.dev.ben.chan.get c).copying.head? = some i) :=
  ⟨st (srv 1 { copying := [4] } (({} : Dev).putb QRY_CSTAT.PPR true 1)), 1, 4, by decide⟩
theorem witness_QuarryCommandsAct_8 : ∃ (s : State) (c : Fin 16), (s.dev.bus.writes = []) ∧ (s.dev.ben.retired.isSome = true ∨ s.dev.ben.channels ≠ 16 ∨ s.dev.get QRY_CSTAT.STATE c ≠ 2) :=
  ⟨st {}, 3, by decide⟩
theorem witness_QuarryCommandsAct_9 : ∃ (s : State) (c : Fin 16), (s.dev.bus.writes = []) ∧ (s.dev.ben.retired = none) ∧ (s.dev.ben.channels = 16) ∧ (s.dev.get QRY_CSTAT.STATE c = 2) ∧ (s.dev.retireBlocked = false) :=
  ⟨st (srv 1 {} {}), 1, by decide⟩
theorem witness_QuarryCommandsAct_10 : ∃ (s : State) (c : Fin 16), (s.dev.bus.writes = []) ∧ (s.dev.ben.retired = some c.val) ∧ (s.dev.get QRY_CSTAT.STATE c = 3) ∧ (s.dev.flag BEN_STAT.PANIC = false) ∧ (s.dev.ben.panicAt ≠ s.dev.now) ∧ (s.dev.get BEN_QRY_MIG.ROWS + 64 < s.dev.qryRows) :=
  ⟨st ((((srv 1 {} {}).put QRY_CSTAT.STATE 3 1).setBen { retired := some 1, channels := 16, cch := 2 ^ 34 })), 1, by decide⟩
theorem witness_QuarryCommandsAct_11 : ∃ (s : State) (c : Fin 16), (s.dev.bus.writes = []) ∧ (s.dev.ben.retired = some c.val) ∧ (s.dev.get QRY_CSTAT.STATE c = 3) ∧ (s.dev.flag BEN_STAT.PANIC = false) ∧ (s.dev.ben.panicAt ≠ s.dev.now) ∧ (s.dev.qryRows ≤ s.dev.get BEN_QRY_MIG.ROWS + 64) :=
  ⟨st ((((srv 1 {} {}).put QRY_CSTAT.STATE 3 1).setBen { retired := some 1, channels := 16, cch := 4096 })), 1, by decide⟩
theorem witness_QuarryCommandsAct_12 : ∃ (s : State) (c : Fin 16), (s.dev.bus.writes = []) ∧ (s.dev.ben.retired = some c.val) ∧ (s.dev.get QRY_CSTAT.STATE c ≠ 3) ∧ (s.dev.flag BEN_QRY_CTL.EN = false) :=
  ⟨st ((((srv 1 {} {}).put QRY_CSTAT.STATE 4 1).setBen { retired := some 1, channels := 16, cch := 4096 })), 1, by decide⟩
theorem witness_QuarryCommandsAct_13 : ∃ (s : State) (p : Fin 4), (s.dev.bus.writes = []) ∧ (s.dev.ben.freqStart = none) ∧ (s.dev.profileOk p = true) :=
  ⟨st (({} : Dev).putb BEN_QRY_STAT.READY true), 2, by decide⟩
theorem witness_QuarryCommandsAct_14 : ∃ (s : State) (p : Fin 4), (s.dev.bus.writes = []) ∧ (s.dev.ben.freqStart = none) ∧ (s.dev.profileOk p = false) :=
  ⟨st {}, 2, by decide⟩
theorem witness_QuarryCommandsAct_15 : ∃ (s : State), (s.dev.bus.writes = []) ∧ (s.dev.ben.freqWaiting = true) ∧ (s.dev.ben.freqStart = none) ∧ (s.dev.flag BEN_STAT.PANIC = false) ∧ (s.dev.ben.panicAt ≠ s.dev.now) ∧ ((∀ m, m < 16 → (s.dev.ben.chan.get m).waiting = [])) :=
  ⟨st (({} : Dev).setBen { freqWaiting := true }), by decide⟩
theorem witness_QuarryCommandsAct_16 : ∃ (s : State) (f : Nat), (s.dev.bus.writes = []) ∧ (s.dev.ben.freqStart = some f) :=
  ⟨st (({} : Dev).setBen { freqStart := some 1000, freqTarget := 2 }), 1000, by decide⟩
theorem witness_QuarryCommandsAct_17 : ∃ (s : State) (c : Fin 16), (s.dev.bus.writes = []) ∧ (s.dev.qryServes c = true) ∧ ((s.dev.ben.chan.get c).selfRefresh = false) ∧ ((s.dev.ben.chan.get c).waiting = []) ∧ (s.dev.ben.freqStart = none) :=
  ⟨st (srv 1 {} {}), 1, by decide⟩
end W23

namespace W24
def st (d : Dev) : State := ⟨d, []⟩
theorem witness_BarAccessesAct_1 : ∃ (s : State) (addr : Nat) (x : Reg × Bool), (s.dev.bus.writes = []) ∧ (regAt addr = some x) ∧ (s.dev.hostMode = 1) ∧ (addr % 4 = 0) ∧ (x.2 = false) ∧ (x.1.g ∈ [.TRG_MSG, .REC_REQ_PRE, .REC_REQ_REPEAT, .EVI_IDLY, .EVI_ISTAT, .BEN_THR, .BEN_STAGE_CTL, .BEN_HOST_DEFER, .EVR_CFG, .XFE_HOP_LIMIT, .SYN_TRIM, .HK_THERM]) :=
  ⟨st {}, 0x400024, (⟨.TRG_MSG, 0, 0, 0⟩, false), by decide⟩
theorem witness_BarAccessesAct_2 : ∃ (s : State) (addr : Nat) (x : Reg × Bool), (s.dev.bus.writes = []) ∧ (regAt addr = some x) ∧ (s.dev.hostMode = 1) ∧ (addr % 4 = 0) ∧ (x.2 = false) ∧ (x.1.g.fam.wide = true) :=
  ⟨st {}, 0x510000, (⟨.REC_SKN_BASE, 0, 0, 0⟩, false), by decide⟩
theorem witness_BarAccessesAct_3 : ∃ (s : State) (addr : Nat) (x : Reg × Bool), (s.dev.bus.writes = []) ∧ (regAt addr = some x) ∧ (s.dev.hostMode = 1) ∧ (addr % 4 = 0) ∧ (x.2 = true) ∧ (x.1.g ∈ [.REC_REQ_POST, .REC_SKN_BASE, .REC_SKN_SIZE, .STM_PLAY_OFS, .HK_WAKE_TICK]) :=
  ⟨st {}, 0x510004, (⟨.REC_SKN_BASE, 0, 0, 0⟩, true), by decide⟩
theorem witness_BarAccessesAct_4 : ∃ (s : State) (addr : Nat) (x : Reg × Bool), (s.dev.bus.writes = []) ∧ (regAt addr = some x) ∧ (s.dev.hostMode = 1) ∧ (x.2 = false) ∧ (x.1.g.fam.wide = true) :=
  ⟨st {}, 0x510000, (⟨.REC_SKN_BASE, 0, 0, 0⟩, false), by decide⟩
theorem witness_BarAccessesAct_5 : ∃ (s : State) (addr : Nat) (x : Reg × Bool), (s.dev.bus.writes = []) ∧ (regAt addr = some x) ∧ (s.dev.hostMode = 1) ∧ (x.2 = true) :=
  ⟨st {}, 0x510004, (⟨.REC_SKN_BASE, 0, 0, 0⟩, true), by decide⟩
theorem witness_BarAccessesAct_6 : ∃ (s : State) (addr : Nat) (x : Reg × Bool), (s.dev.bus.writes = []) ∧ (regAt addr = some x) ∧ (s.dev.hostMode = 1) ∧ (x.2 = false) ∧ (x.1.g.fam.bits (· == .rc) ≠ 0) :=
  ⟨st {}, 0x10, (⟨.GLB_ACC_ERR, 0, 0, 0⟩, false), by decide⟩
theorem witness_BarAccessesAct_7 : ∃ (s : State) (addr : Nat) (size : Nat), (s.dev.bus.writes = []) ∧ (s.dev.hostMode ≠ 0) ∧ (¬ ((size = 4 ∨ size = 8) ∧ addr % size = 0)) :=
  ⟨st {}, 0x11, 4, by decide⟩
theorem witness_BarAccessesAct_8 : ∃ (s : State) (addr : Nat), (s.dev.bus.writes = []) ∧ (s.dev.hostMode = 1) ∧ (addr % 4 = 0) ∧ (s.dev.place addr = .none) :=
  ⟨st {}, 0x40, by decide⟩
theorem witness_BarAccessesAct_9 : ∃ (s : State) (addr : Nat), (s.dev.bus.writes = []) ∧ (s.dev.hostMode = 1) ∧ (addr % 8 = 0) ∧ (s.dev.place addr = .none) ∧ (s.dev.place (addr + 4) = .none) :=
  ⟨st {}, 0x40, by decide⟩
theorem witness_BarAccessesAct_10 : ∃ (s : State) (addr : Nat), (s.dev.bus.writes = []) ∧ (s.dev.hostMode = 1) ∧ (addr = 0x200010) :=
  ⟨st {}, 0x200010, by decide⟩
theorem witness_BarAccessesAct_11 : ∃ (s : State) (addr : Nat) (x : Reg × Bool), (s.dev.bus.writes = []) ∧ (regAt addr = some x) ∧ (s.dev.hostMode = 1) ∧ (x.2 = false) ∧ (x.1.timeWord 0 ≠ none) ∧ (x.1.timeWord 0 ≠ some x.1) :=
  ⟨st {}, 0x200014, (⟨.TB_NOW, 1, 0, 0⟩, false), by decide⟩
theorem witness_BarAccessesAct_12 : ∃ (s : State) (e : Fin 640) (f : Nat), (s.dev.bus.writes = []) ∧ ((s.dev.evr.hold.get e).until_ = some f) ∧ ((s.dev.evr.hold.get e).occurred = true) :=
  ⟨st (({} : Dev).setEvr { hold := Tab.set [] 3 ⟨some 1030, 5, true⟩ }), 3, 1030, by decide⟩
end W24

namespace W25
def st (d : Dev) : State := ⟨d, []⟩
def cq (q : Nat) (l : Line) (d : Dev) : State := st (d.setQue { q := Tab.set [] q { cmds := [⟨l, 1020⟩] } })
theorem witness_LinkCommandAndEventCommandsAct_1 : ∃ (s : State), (s.dev.bus.writes = []) ∧ (s.dev.linkPowered = true) ∧ (s.dev.link.up = false) :=
  ⟨st {}, by decide⟩
theorem witness_LinkCommandAndEventCommandsAct_2 : ∃ (s : State), (s.dev.bus.writes = []) ∧ (s.dev.link.up = true) :=
  ⟨st (({} : Dev).setLink { up := true }), by decide⟩
theorem witness_LinkCommandAndEventCommandsAct_3 : ∃ (s : State) (rate : Fin 6) (width : Fin 5), (s.dev.bus.writes = []) ∧ (s.dev.link.up = true) ∧ (¬ (s.dev.link.rate = rate.val ∧ s.dev.link.width = width.val)) :=
  ⟨st (({} : Dev).setLink { up := true }), 3, 2, by decide⟩
theorem witness_LinkCommandAndEventCommandsAct_4 : ∃ (s : State) (x : BitVec 36) (len : Fin 4097), (s.dev.bus.writes = []) ∧ (s.dev.hostMode = 1) ∧ ((s.dev.aperture x.toNat).1 < 2) ∧ (s.dev.inSpace (s.dev.aperture x.toNat).1 (s.dev.aperture x.toNat).2 len = true) :=
  ⟨st (({} : Dev).setBen { bench := [⟨0, 7⟩], benchPoison := [0] }), 0, 3, by decide⟩
theorem witness_LinkCommandAndEventCommandsAct_5 : ∃ (s : State) (x : BitVec 36) (len : Fin 4097), (s.dev.bus.writes = []) ∧ (s.dev.hostMode = 1) ∧ (s.dev.inSpace (s.dev.aperture x.toNat).1 (s.dev.aperture x.toNat).2 len = false) :=
  ⟨st {}, 0xC00000000, 3, by decide⟩
theorem witness_LinkCommandAndEventCommandsAct_6 : ∃ (s : State) (x : BitVec 36) (data : List Byte), (s.dev.bus.writes = []) ∧ (s.dev.hostMode = 1) ∧ ((s.dev.aperture x.toNat).1 = 0) ∧ ((s.dev.aperture x.toNat).2 + data.length ≤ benchSize) :=
  ⟨st {}, 5, [1, 2], by decide⟩
theorem witness_LinkCommandAndEventCommandsAct_7 : ∃ (s : State) (x : BitVec 36) (data : List Byte), (s.dev.bus.writes = []) ∧ (s.dev.hostMode = 1) ∧ (s.dev.inSpace (s.dev.aperture x.toNat).1 (s.dev.aperture x.toNat).2 data.length = false) :=
  ⟨st {}, 0xC00000000, [1, 2], by decide⟩
theorem witness_LinkCommandAndEventCommandsAct_8 : ∃ (s : State) (q : Fin 4096) (e : CmdEntry), (s.dev.bus.writes = []) ∧ ((s.dev.que.q.get q).cmds.head? = some e) ∧ (s.dev.hostMode = 1) ∧ (cmdOp e.line = 0) ∧ (s.dev.cmdBad e.line = false) :=
  ⟨cq 3 ⟨0x700050100, 0, 0, 0, 0, 0, 0, 0⟩ {}, 3, ⟨⟨0x700050100, 0, 0, 0, 0, 0, 0, 0⟩, 1020⟩, by decide⟩
theorem witness_LinkCommandAndEventCommandsAct_9 : ∃ (s : State) (q : Fin 4096) (e : CmdEntry), (s.dev.bus.writes = []) ∧ ((s.dev.que.q.get q).cmds.head? = some e) ∧ (s.dev.hostMode = 1) ∧ (cmdOp e.line ≤ 3) ∧ (s.dev.cmdBad e.line = true) :=
  ⟨cq 3 ⟨0x700050001, 0, 0, 0, 0, 0, 0, 0⟩ {}, 3, ⟨⟨0x700050001, 0, 0, 0, 0, 0, 0, 0⟩, 1020⟩, by decide⟩
theorem witness_LinkCommandAndEventCommandsAct_10 : ∃ (s : State) (q : Fin 4096) (v : Fin 640) (e : CmdEntry), (s.dev.bus.writes = []) ∧ ((s.dev.que.q.get q).cmds.head? = some e) ∧ (s.dev.hostMode = 1) ∧ (cmdOp e.line = 1) ∧ (s.dev.cmdBad e.line = false) ∧ (((cmdSlots e.line).take (cmdCount e.line)).map slotOfs = [0xf01000 + 4 * v.val]) :=
  ⟨cq 3 ⟨0x700050101, 0, 0x4000000500f01008, 0, 0, 0, 0, 0⟩ {}, 3, 2, ⟨⟨0x700050101, 0, 0x40000005_00f01008, 0, 0, 0, 0, 0⟩, 1020⟩, by decide⟩
theorem witness_LinkCommandAndEventCommandsAct_11 : ∃ (s : State) (q : Fin 4096) (v : Fin 640) (e : CmdEntry), (s.dev.bus.writes = []) ∧ ((s.dev.que.q.get q).cmds.head? = some e) ∧ (s.dev.hostMode = 1) ∧ (cmdOp e.line = 2) ∧ (s.dev.cmdBad e.line = false) ∧ (((cmdSlots e.line).take (cmdCount e.line)).map slotOfs = [0xf01000 + 4 * v.val]) :=
  ⟨cq 3 ⟨0x700050102, 0, 0x00f01008, 0, 0, 0, 0, 0⟩ {}, 3, 2, ⟨⟨0x700050102, 0, 0x00f01008, 0, 0, 0, 0, 0⟩, 1020⟩, by decide⟩
theorem witness_LinkCommandAndEventCommandsAct_12 : ∃ (s : State) (q : Fin 4096) (v : Fin 640) (k : Nat) (e : CmdEntry), (s.dev.bus.writes = []) ∧ ((s.dev.que.q.get q).cmds.head? = some e) ∧ (s.dev.hostMode = 1) ∧ (cmdOp e.line = 3) ∧ (s.dev.cmdBad e.line = false) ∧ (((cmdSlots e.line).take (cmdCount e.line)).map slotOfs = [0xf01000 + 4 * v.val]) ∧ ((s.dev.advanceTo ((s.dev.que.q.get q).firstFrame e.frame)).frameOf (e.line.w6.toNat % 256) e.line.w1.toNat = some k) :=
  ⟨cq 3 ⟨0x700050103, 640, 0x4000000500f01008, 0, 0, 0, 0, 0⟩ {}, 3, 2, 1034, ⟨⟨0x700050103, 640, 0x40000005_00f01008, 0, 0, 0, 0, 0⟩, 1020⟩, by decide⟩
theorem witness_LinkCommandAndEventCommandsAct_13 : ∃ (s : State) (q : Fin 4096) (e : CmdEntry), (s.dev.bus.writes = []) ∧ ((s.dev.que.q.get q).cmds.head? = some e) ∧ (s.dev.hostMode = 1) ∧ (cmdOp e.line = 3) ∧ (s.dev.cmdBad e.line = false) ∧ ((s.dev.advanceTo ((s.dev.que.q.get q).firstFrame e.frame)).frameOf (e.line.w6.toNat % 256) e.line.w1.toNat = none) :=
  ⟨cq 3 ⟨0x700050103, 0, 0x4000000500f01008, 0, 0, 0, 255, 0⟩ {}, 3, ⟨⟨0x700050103, 0, 0x40000005_00f01008, 0, 0, 0, 255, 0⟩, 1020⟩, by decide⟩
theorem witness_LinkCommandAndEventCommandsAct_14 : ∃ (s : State) (e : Fin 640) (x : Nat × Nat), (s.dev.bus.writes = []) ∧ ((s.dev.evr.arriving.find? fun x => x.2 == e.val) = some x) :=
  ⟨st ((({} : Dev).putb EVR_CFG.LOG_EN true 3).setEvr { arriving := [(1030, 3)] }), 3, (1030, 3), by decide⟩
theorem witness_LinkCommandAndEventCommandsAct_15 : ∃ (s : State) (q : Fin 4096) (x : Item), (s.dev.bus.writes = []) ∧ (s.dev.evr.fifo.head? = some x) ∧ (s.dev.evr.fifo.tail = []) ∧ (x.q = q.val) ∧ (x.after = none) ∧ (s.dev.get QUE_STAT.STATE q = 2) ∧ (itemFits x.typ x.fmt (s.dev.get QUE_CFG.TYPE q) (s.dev.get QUE_CFG.FMT q) = true) ∧ (x.bytes.length ≤ s.dev.qEsize q) ∧ (s.dev.qUnreachable q = false) ∧ (s.dev.qFill q < s.dev.qN q) :=
  ⟨st (((((({} : Dev).put QUE_STAT.STATE 2 5).put QUE_CFG.TYPE 4 5).put QUE_CFG.LOG2N 4 5).setEvr { fifo := [⟨5, 4, 0, 6000, 1024, [1], none⟩] }).setLink { up := true }), 5, ⟨5, 4, 0, 6000, 1024, [1], none⟩, by decide⟩
end W25

namespace W26
def st (d : Dev) : State := ⟨d, []⟩
def itm : Item := ⟨20, 4, 0, 6000, 1024, [1], none⟩
theorem witness_QueueCommandsAct_3 : ∃ (s : State) (q : Fin 4096), (s.dev.bus.writes = []) ∧ (16 ≤ q.val) ∧ (s.dev.get QUE_STAT.STATE q = 1 ∨ s.dev.get QUE_STAT.STATE q = 3) :=
  ⟨st (({} : Dev).put QUE_STAT.STATE 1 20), 20, by decide⟩
theorem witness_QueueCommandsAct_4 : ∃ (s : State) (q : Fin 4096), (s.dev.bus.writes = []) ∧ (s.dev.flag QUE_CTL.EN q = false) ∧ (s.dev.queueResult q = 1) :=
  ⟨st ((((({} : Dev).put QUE_STAT.STATE 1 20).put QUE_CFG.TYPE 6 20).put QUE_CFG.ESIZE 2 20).put QUE_CFG.LOG2N 4 20), 20, by decide⟩
theorem witness_QueueCommandsAct_5 : ∃ (s : State) (q : Fin 4096), (s.dev.bus.writes = []) ∧ (s.dev.flag QUE_CTL.EN q = false) ∧ (s.dev.queueResult q ≠ 1) :=
  ⟨st {}, 20, by decide⟩
theorem witness_QueueCommandsAct_6 : ∃ (s : State) (q : Fin 4096), (s.dev.bus.writes = []) ∧ (s.dev.flag QUE_CTL.EN q = true) :=
  ⟨st ((({} : Dev).putb QUE_CTL.EN true 20).put QUE_STAT.STATE 2 20), 20, by decide⟩
theorem witness_QueueCommandsAct_7 : ∃ (s : State) (q : Fin 4096) (idx : BitVec 21), (s.dev.bus.writes = []) ∧ (16 ≤ q.val) ∧ (s.dev.get QUE_STAT.STATE q = 2) ∧ (idx.toNat < 2 * s.dev.qN q) ∧ (s.dev.get QUE_CFG.TYPE q = 0) ∧ (s.dev.qFill q ≤ (idx.toNat + 2 * s.dev.qN q - s.dev.get QUE_IDX.CONS q % (2 * s.dev.qN q)) % (2 * s.dev.qN q)) ∧ ((idx.toNat + 2 * s.dev.qN q - s.dev.get QUE_IDX.CONS q % (2 * s.dev.qN q)) % (2 * s.dev.qN q) ≤ s.dev.qN q) :=
  ⟨st ((({} : Dev).put QUE_STAT.STATE 2 20).put QUE_CFG.LOG2N 4 20), 20, 16, by decide⟩
theorem witness_QueueCommandsAct_8 : ∃ (s : State) (q : Fin 4096) (idx : BitVec 21), (s.dev.bus.writes = []) ∧ (16 ≤ q.val) ∧ (s.dev.get QUE_STAT.STATE q = 2) ∧ (idx.toNat < 2 * s.dev.qN q) ∧ (s.dev.get QUE_CFG.TYPE q ≠ 0) ∧ ((idx.toNat + 2 * s.dev.qN q - s.dev.get QUE_IDX.CONS q % (2 * s.dev.qN q)) % (2 * s.dev.qN q) ≤ s.dev.qFill q) :=
  ⟨st (((({} : Dev).put QUE_STAT.STATE 2 20).put QUE_CFG.LOG2N 4 20).put QUE_CFG.TYPE 4 20), 20, 0, by decide⟩
theorem witness_QueueCommandsAct_9 : ∃ (s : State) (q : Fin 4096) (idx : BitVec 21), (s.dev.bus.writes = []) ∧ (16 ≤ q.val) ∧ (s.dev.get QUE_STAT.STATE q ≠ 2 ∨ 2 * s.dev.qN q ≤ idx.toNat) :=
  ⟨st {}, 20, 5, by decide⟩
theorem witness_QueueCommandsAct_10 : ∃ (s : State) (q : Fin 4096), (s.dev.bus.writes = []) ∧ (s.dev.get QUE_STAT.STATE q = 2) ∧ (s.dev.get QUE_CFG.TYPE q = 0) ∧ (s.dev.qUnreachable q = false) ∧ ((s.dev.que.q.get q).fetched ≠ s.dev.get QUE_IDX.PROD q) :=
  ⟨st ((((({} : Dev).put QUE_STAT.STATE 2 20).put QUE_CFG.LOG2N 4 20).put QUE_IDX.PROD 3 20).setLink { up := true }), 20, by decide⟩
theorem witness_QueueCommandsAct_11 : ∃ (s : State) (q : Fin 4096) (ending : ReadEnd), (s.dev.bus.writes = []) ∧ (ending ≠ .ok) ∧ (s.dev.get QUE_STAT.STATE q = 2) ∧ (s.dev.get QUE_CFG.TYPE q = 0) ∧ ((s.dev.que.q.get q).fetched ≠ s.dev.get QUE_IDX.PROD q) :=
  ⟨st (((({} : Dev).put QUE_STAT.STATE 2 20).put QUE_CFG.LOG2N 4 20).put QUE_IDX.PROD 3 20), 20, .ur, by decide⟩
theorem witness_QueueCommandsAct_12 : ∃ (s : State) (q : Fin 4096) (x : Item × List Item), (s.dev.bus.writes = []) ∧ (takeItem q s.dev.que.items = some x) ∧ (x.1.after = none) ∧ (s.dev.get QUE_STAT.STATE q = 2) ∧ (itemFits x.1.typ x.1.fmt (s.dev.get QUE_CFG.TYPE q) (s.dev.get QUE_CFG.FMT q) = true) ∧ (x.1.bytes.length ≤ s.dev.qEsize q) ∧ (s.dev.qUnreachable q = false) ∧ (s.dev.qFill q < s.dev.qN q) ∧ (s.dev.flag QUE_BASE.BENCH q = true) :=
  ⟨st (((((({} : Dev).put QUE_STAT.STATE 2 20).put QUE_CFG.LOG2N 4 20).put QUE_CFG.TYPE 4 20).putb QUE_BASE.BENCH true 20).setQue { items := [itm] }), 20, (itm, []), by decide⟩
theorem witness_QueueCommandsAct_13 : ∃ (s : State) (q : Fin 4096) (x : Item × List Item), (s.dev.bus.writes = []) ∧ (takeItem q s.dev.que.items = some x) ∧ (x.1.after = none) ∧ (s.dev.get QUE_STAT.STATE q ≠ 2) ∧ (s.dev.spoilOf q = none) :=
  ⟨st (({} : Dev).setQue { items := [itm] }), 20, (itm, []), by decide⟩
theorem witness_QueueCommandsAct_14 : ∃ (s : State) (q : Fin 4096) (f : Nat), (s.dev.bus.writes = []) ∧ ((s.dev.que.q.get q).first = some f) ∧ ((s.dev.que.q.get q).recheck = none) ∧ (s.dev.flag QUE_INT.EN q = true) ∧ (s.dev.get QUE_INT.FR q ≠ 0) ∧ (s.dev.que.msix = true) :=
  ⟨st ((({} : Dev).put QUE_INT.FR 2 20).putb QUE_INT.EN true 20 |>.setQue { q := Tab.set [] 20 { first := some 1020 } }), 20, 1020, by decide⟩
theorem witness_QueueCommandsAct_15 : ∃ (s : State), (s.dev.bus.writes = []) :=
  ⟨st {}, by decide⟩
theorem witness_QueueCommandsAct_16 : ∃ (s : State) (v : Fin 2048), (s.dev.bus.writes = []) ∧ ((s.dev.que.vec.get v).outstanding = true) ∧ ((s.dev.que.vec.get v).unmasked = true) ∧ ((s.dev.que.vec.get v).lastSent = none) ∧ (s.dev.link.up = true) :=
  ⟨st ((({} : Dev).setQue { vec := Tab.set [] 3 { outstanding := true, unmasked := true } }).setLink { up := true }), 3, by decide⟩
theorem witness_QueueCommandsAct_17 : ∃ (s : State) (v : Fin 2048), (s.dev.bus.writes = []) ∧ ((s.dev.que.vec.get v).outstanding = false) :=
  ⟨st {}, 3, by decide⟩
theorem witness_QueueCommandsAct_18 : ∃ (s : State) (v : Fin 2048) (f : Nat), (s.dev.bus.writes = []) ∧ ((s.dev.que.vec.get v).lastSent = some f) ∧ ((s.dev.que.vec.get v).outstanding = true) ∧ ((s.dev.que.vec.get v).unmasked = true) ∧ (s.dev.link.up = true) :=
  ⟨st ((({} : Dev).setQue { vec := Tab.set [] 3 { outstanding := true, unmasked := true, lastSent := some 1023 } }).setLink { up := true }), 3, 1023, by decide⟩
end W26

namespace W27
def st (d : Dev) : State := ⟨d, []⟩
def xc (x : XferChan) (d : Dev) : State := st ((d.putb XFE_CTL.EN true 3).setXfe { chan := Tab.set [] 3 x })
theorem witness_TransferCommandsAct_1 : ∃ (s : State) (c : Fin 64) (l : Line), (s.dev.bus.writes = []) ∧ (l = ⟨s.dev.rd ⟨.XFE_CFG, c, 0, 0⟩, s.dev.rd ⟨.XFE_SRC, c, 0, 0⟩, s.dev.rd ⟨.XFE_DST, c, 0, 0⟩, s.dev.rd ⟨.XFE_COUNT, c, 0, 0⟩, 0, 0, 0, 0⟩) ∧ (s.dev.flag XFE_CTL.EN c = true) ∧ (s.dev.xferBusy c = false) ∧ (s.dev.get XFE_CTL.MODE c = 0 ∨ s.dev.get XFE_CTL.MODE c = 3) ∧ (s.dev.descCheckResult l = 0) ∧ (descCount l ≠ 0) :=
  ⟨xc {} (((({} : Dev).wr ⟨.XFE_CFG, 3, 0, 0⟩ 0x11).wr ⟨.XFE_DST, 3, 0, 0⟩ 64).wr ⟨.XFE_COUNT, 3, 0, 0⟩ 8), 3, ⟨0x11, 0, 64, 8, 0, 0, 0, 0⟩, by decide⟩
theorem witness_TransferCommandsAct_2 : ∃ (s : State) (c : Fin 64), (s.dev.bus.writes = []) ∧ (s.dev.flag XFE_CTL.EN c = true) ∧ (s.dev.xferBusy c = false) ∧ (s.dev.get XFE_CTL.MODE c = 1 ∨ s.dev.get XFE_CTL.MODE c = 2) :=
  ⟨xc {} (({} : Dev).put XFE_CTL.MODE 1 3), 3, by decide⟩
theorem witness_TransferCommandsAct_3 : ∃ (s : State) (c : Fin 64), (s.dev.bus.writes = []) ∧ (s.dev.flag XFE_CTL.EN c = false ∨ s.dev.xferBusy c = true) :=
  ⟨st {}, 3, by decide⟩
theorem witness_TransferCommandsAct_4 : ∃ (s : State) (c : Fin 64), (s.dev.bus.writes = []) ∧ (s.dev.get XFE_STAT.STATE c = 4) :=
  ⟨st (({} : Dev).put XFE_STAT.STATE 4 3), 3, by decide⟩
theorem witness_TransferCommandsAct_5 : ∃ (s : State) (c : Fin 64), (s.dev.bus.writes = []) ∧ (s.dev.get XFE_STAT.STATE c ≠ 4) :=
  ⟨st {}, 3, by decide⟩
theorem witness_TransferCommandsAct_6 : ∃ (s : State) (c : Fin 64), (s.dev.bus.writes = []) ∧ (s.dev.flag XFE_CTL.EN c = true) :=
  ⟨xc {} (({} : Dev).put XFE_STAT.STATE 2 3), 3, by decide⟩
theorem witness_TransferCommandsAct_7 : ∃ (s : State) (c : Fin 64) (line : Line), (s.dev.bus.writes = []) ∧ ((s.dev.xfe.chan.get c).phase = .fetch) ∧ ((s.dev.xfe.chan.get c).addr % 2 = 0) ∧ (s.dev.link.up = true) ∧ ((s.dev.xfe.chan.get c).mode ≠ 2 ∨ descOwn line = true) ∧ ((s.dev.xfe.chan.get c).mode ≠ 1 ∨ s.dev.get XFE_HOPS.HOPS c ≤ max 1 (s.dev.get XFE_HOP_LIMIT.LIMIT c)) ∧ (s.dev.descCheckResult line = 0) ∧ (descCount line ≠ 0) :=
  ⟨xc { phase := .fetch, mode := 1 } (({} : Dev).setLink { up := true }), 3, ⟨0x11, 0, 64, 8, 0, 0, 0, 0⟩, by decide⟩
theorem witness_TransferCommandsAct_8 : ∃ (s : State) (c : Fin 64) (line : Line), (s.dev.bus.writes = []) ∧ ((s.dev.xfe.chan.get c).phase = .fetch) ∧ ((s.dev.xfe.chan.get c).addr % 2 = 0) ∧ (s.dev.link.up = true) ∧ ((s.dev.xfe.chan.get c).mode = 2) ∧ (descOwn line = false) ∧ ((s.dev.xfe.chan.get c).kick = false) :=
  ⟨xc { phase := .fetch, mode := 2 } (({} : Dev).setLink { up := true }), 3, ⟨0x11, 0, 64, 8, 0, 0, 0, 0⟩, by decide⟩
theorem witness_TransferCommandsAct_9 : ∃ (s : State) (c : Fin 64) (ending : ReadEnd), (s.dev.bus.writes = []) ∧ ((s.dev.xfe.chan.get c).phase = .fetch) ∧ ((s.dev.xfe.chan.get c).addr % 2 = 0) ∧ (ending ≠ .ok) ∧ (s.dev.hostEnds ending = true) :=
  ⟨xc { phase := .fetch, mode := 2 } {}, 3, .ur, by decide⟩
theorem witness_TransferCommandsAct_10 : ∃ (s : State) (c : Fin 64) (n : Nat), (s.dev.bus.writes = []) ∧ (n = min (descCount (s.dev.xfe.chan.get c).desc - (s.dev.xfe.chan.get c).pos) (4096 - ((s.dev.xfe.chan.get c).desc.w1.toNat + (s.dev.xfe.chan.get c).pos) % 4096)) ∧ ((s.dev.xfe.chan.get c).phase = .data) ∧ (descSrc (s.dev.xfe.chan.get c).desc = 1) ∧ (descDst (s.dev.xfe.chan.get c).desc = 1) ∧ (descAppended (s.dev.xfe.chan.get c).desc = 0) :=
  ⟨xc { phase := .data, desc := ⟨0x400011, 0, 64, 8, 0, 0, 0, 0⟩ } (({} : Dev).setBen { bench := [⟨1, 7⟩] }), 3, 8, by decide⟩
theorem witness_TransferCommandsAct_11 : ∃ (s : State) (c : Fin 64) (ending : ReadEnd), (s.dev.bus.writes = []) ∧ ((s.dev.xfe.chan.get c).phase = .data) ∧ (descSrc (s.dev.xfe.chan.get c).desc = 0) ∧ (ending ≠ .ok) ∧ (ending ≠ .poison) :=
  ⟨xc { phase := .data } {}, 3, .ur, by decide⟩
theorem witness_TransferCommandsAct_12 : ∃ (s : State) (c : Fin 64), (s.dev.bus.writes = []) ∧ ((s.dev.xfe.chan.get c).phase = .readback) ∧ (descDst (s.dev.xfe.chan.get c).desc ≠ 0) ∧ ((s.dev.xfe.chan.get c).mode = 0) :=
  ⟨xc { phase := .readback, desc := ⟨0x11, 0, 64, 8, 0, 0, 0, 0⟩ } {}, 3, by decide⟩
theorem witness_TransferCommandsAct_13 : ∃ (s : State) (c : Fin 64), (s.dev.bus.writes = []) ∧ ((s.dev.xfe.chan.get c).phase = .readback) ∧ (descDst (s.dev.xfe.chan.get c).desc ≠ 0) ∧ ((s.dev.xfe.chan.get c).mode = 1) ∧ (descLast (s.dev.xfe.chan.get c).desc = false) :=
  ⟨xc { phase := .readback, mode := 1, desc := ⟨0x11, 0, 64, 8, 640, 0, 0, 0⟩ } {}, 3, by decide⟩
end W27

namespace W28
def st (d : Dev) : State := ⟨d, []⟩
def pt : Dev := ((({} : Dev).putb ETH_CTL.EN true 0).putb ETH_STAT.READY true 0).put ETH_STAT.LINK 1 0
def str (d : Dev) : Dev := (d.putb BEN_HT_CTL.EN true 1).put BEN_HT_CTL.KIND 1 1
def cr : List Byte := [0x12, 0, 0, 0] ++ List.replicate 6 0 ++ [16, 0] ++ List.replicate 20 0 ++ [5, 0, 0, 0, 0, 0, 0, 0, 30, 0, 0, 0, 0, 0, 0, 0]
def fr : EthFrame := ⟨true, 5, .other⟩
def fire : List Byte := [0x14, 0] ++ List.replicate 8 0 ++ [48, 0] ++ List.replicate 20 0 ++ [0, 0, 0, 0x80] ++ List.replicate 4 0 ++ [5, 0, 0, 0, 0, 0, 0, 0]
  ++ [0x18, 0xa8, 0x0a, 0x55, 0x86, 0xd7, 0x0b, 0x27, 0xa9, 0xf7, 0x25, 0xf8, 0x22, 0xa3, 0x7f, 0xdb, 0x89, 0xe0, 0x7e, 0xb9, 0xf7, 0x97, 0xa9, 0x42, 0xf3, 0x34, 0x7b, 0xa0, 0x23, 0x45, 0xfc, 0xc6]
theorem witness_PortCommandsAct_1 : ∃ (s : State) (p : Fin 3), (s.dev.bus.writes = []) ∧ (s.dev.flag ETH_CTL.EN p = false) ∧ (s.dev.windowOk p = true) :=
  ⟨st ((({} : Dev).put ETH_RTX_SIZE.OFS 4096 0).put ETH_RTX_BASE.OFS 4096 0), 0, by decide +kernel⟩
theorem witness_PortCommandsAct_2 : ∃ (s : State) (p : Fin 3), (s.dev.bus.writes = []) ∧ (s.dev.flag ETH_CTL.EN p = false) ∧ (s.dev.windowOk p = false) :=
  ⟨st (({} : Dev).put ETH_RTX_SIZE.OFS 0 0), 0, by decide⟩
theorem witness_PortCommandsAct_4 : ∃ (s : State) (p : Fin 3) (sub : Fin 4) (f : EthFrame), (s.dev.bus.writes = []) ∧ (s.dev.flag ETH_CTL.EN p = true) ∧ (s.dev.flag ETH_STAT.READY p = true) ∧ (sub.val < s.dev.subports p) ∧ (f.good = false) :=
  ⟨st pt, 0, 0, { fr with good := false }, by decide⟩
theorem witness_PortCommandsAct_5 : ∃ (s : State) (p : Fin 3) (sub : Fin 4) (f : EthFrame), (s.dev.bus.writes = []) ∧ (s.dev.flag ETH_CTL.EN p = true) ∧ (s.dev.flag ETH_STAT.READY p = true) ∧ (sub.val < s.dev.subports p) ∧ (f.good = true) ∧ (f.dmac.toNat ≠ s.dev.get ETH_MAC.MAC p sub) ∧ (f.dmac ≠ BitVec.allOnes 48) ∧ (s.dev.multicastUsed p sub f.dmac = false) :=
  ⟨st pt, 0, 0, fr, by decide⟩
theorem witness_PortCommandsAct_6 : ∃ (s : State) (p : Fin 3), (s.dev.bus.writes = []) ∧ (s.dev.flag ETH_CTL.EN p = true) ∧ (s.dev.flag ETH_STAT.READY p = true) :=
  ⟨st pt, 0, by decide⟩
theorem witness_PortCommandsAct_7 : ∃ (s : State) (t : Fin 64) (ack : BitVec 48), (s.dev.bus.writes = []) ∧ (s.dev.tgtStream t = true) ∧ (s.dev.portRuns (s.dev.tgtPort t) = true) ∧ (seqLater ack.toNat (s.dev.ben.target.get t).stream.seq = false) ∧ (seqLater ack.toNat (s.dev.ben.target.get t).stream.ack = true) :=
  ⟨st (((str pt).setBen { target := Tab.set [] 1 { stream := { seq := 9, ack := 3, limit := 20 } } }).setEth (Tab.set [] 0 { window := [{ tgt := 1, seq := 3 }, { tgt := 1, seq := 8 }] })), 1, 5, by decide⟩
theorem witness_PortCommandsAct_8 : ∃ (s : State) (t : Fin 64) (ack : BitVec 48), (s.dev.bus.writes = []) ∧ (s.dev.tgtStream t = true) ∧ (s.dev.portRuns (s.dev.tgtPort t) = true) ∧ (seqLater ack.toNat (s.dev.ben.target.get t).stream.seq = true) :=
  ⟨st (str pt), 1, 5, by decide⟩
theorem witness_PortCommandsAct_9 : ∃ (s : State) (t : Fin 64), (s.dev.bus.writes = []) ∧ (s.dev.tgtStream t = true) ∧ (s.dev.portRuns (s.dev.tgtPort t) = true) :=
  ⟨st (str pt), 1, by decide⟩
theorem witness_PortCommandsAct_10 : ∃ (s : State) (t : Fin 64) (ack : BitVec 48) (a : BitVec 48), (s.dev.bus.writes = []) ∧ (s.dev.tgtStream t = true) ∧ (s.dev.portRuns (s.dev.tgtPort t) = true) ∧ (seqLater ack.toNat (s.dev.ben.target.get t).stream.seq = false) ∧ (seqLater ack.toNat (s.dev.ben.target.get t).stream.ack = false) ∧ (((s.dev.eth.get (s.dev.tgtPort t)).window.any fun k => k.tgt == t.val && k.seq == a.toNat) = true) :=
  ⟨st (((str pt).setBen { target := Tab.set [] 1 { stream := { seq := 9, ack := 3, limit := 20 } } }).setEth (Tab.set [] 0 { window := [{ tgt := 1, seq := 3 }, { tgt := 1, seq := 8 }] })), 1, 3, 8, by decide⟩
theorem witness_PortCommandsAct_11 : ∃ (s : State) (p : Fin 3) (l : List Byte), (s.dev.bus.writes = []) ∧ (s.dev.flag ETH_CTL.EN p = true) ∧ (s.dev.flag ETH_STAT.READY p = true) ∧ (s.dev.fireOutcome l ≠ 0) :=
  ⟨st pt, 0, [], by decide⟩
theorem witness_PortCommandsAct_12 : ∃ (s : State) (p : Fin 3) (l : List Byte), (s.dev.bus.writes = []) ∧ (s.dev.flag ETH_CTL.EN p = true) ∧ (s.dev.flag ETH_STAT.READY p = true) ∧ (s.dev.fireOutcome l = 0) :=
  ⟨st (pt.putb ETH_FA_KCTL.EN true 0), 0, fire, by decide +kernel⟩
theorem witness_PortCommandsAct_13 : ∃ (s : State) (t : Fin 64), (s.dev.bus.writes = []) ∧ (s.dev.get BEN_HT_CTL.KIND t = 2) ∧ (s.dev.flag BEN_HT_CTL.EN t = true) ∧ (s.dev.flag ETH_CTL.EN (s.dev.tgtPort t) = true) ∧ (s.dev.flag ETH_STAT.READY (s.dev.tgtPort t) = true) ∧ (s.dev.tgtLinked t = true) ∧ (s.dev.retxReady (s.dev.tgtPort t) = none) ∧ ((s.dev.ben.target.get t).stream.stalled = false) ∧ (s.dev.tgtDup t = false) ∧ (seqLater (s.dev.ben.target.get t).stream.limit (s.dev.ben.target.get t).stream.seq = true) ∧ ((s.dev.ben.target.get t).passes ≠ 0) ∧ ((s.dev.ben.target.get t).passEnd = false) ∧ (s.dev.flag BEN_QRY_STAT.READY = true) ∧ ((s.dev.eth.get (s.dev.tgtPort t)).used + 32 + s.dev.get ETH_PAY.MAXPAY (s.dev.tgtPort t) ≤ s.dev.get ETH_RTX_SIZE.OFS (s.dev.tgtPort t)) :=
  ⟨st (((((((((pt.putb BEN_HT_CTL.EN true 1).put BEN_HT_CTL.KIND 2 1).putb BEN_QRY_STAT.READY true)).put BEN_HT_SIZE.OFS 8192 1).setBen { target := Tab.set [] 1 { passes := 1, stream := { limit := 9 } } })).put ETH_RTX_SIZE.OFS 0x10000 0).put ETH_PAY.MAXPAY 1024 0), 1, by decide⟩
theorem witness_PortCommandsAct_14 : ∃ (s : State) (p : Fin 3) (r : Nat × Nat) (k : Packet), (s.dev.bus.writes = []) ∧ (s.dev.retxReady p = some r) ∧ (((s.dev.eth.get p).window.find? fun k => k.tgt == r.1 && k.seq == r.2) = some k) ∧ (k.flags / 8 % 2 = 0) ∧ (s.dev.flag ETH_CTL.EN p = true) ∧ (s.dev.flag ETH_STAT.READY p = true) :=
  ⟨st ((str pt).setEth (Tab.set [] 0 { window := [{ tgt := 1, seq := 8 }], retx := [(1, 8)] })), 0, (1, 8), { tgt := 1, seq := 8 }, by decide⟩
theorem witness_PortCommandsAct_15 : ∃ (s : State) (t : Fin 64), (s.dev.bus.writes = []) ∧ (s.dev.tgtStream t = true) ∧ ((s.dev.ben.target.get t).stream.stalled = false) ∧ (((s.dev.eth.get (s.dev.tgtPort t)).window.any fun k => k.tgt == t.val) = true) :=
  ⟨st ((str pt).setEth (Tab.set [] 0 { window := [{ tgt := 1, seq := 8 }] })), 1, by decide⟩
theorem witness_PortCommandsAct_17 : ∃ (s : State) (p : Fin 3) (sub : Fin 4), (s.dev.bus.writes = []) ∧ (sub.val < s.dev.subports p) ∧ (s.dev.get ETH_STAT.LINK p / 2 ^ sub.val % 2 = 0) :=
  ⟨st {}, 0, 0, by decide⟩
theorem witness_PortCommandsAct_18 : ∃ (s : State) (p : Fin 3) (sub : Fin 4), (s.dev.bus.writes = []) ∧ (sub.val < s.dev.subports p) ∧ (s.dev.get ETH_STAT.LINK p / 2 ^ sub.val % 2 = 1) :=
  ⟨st pt, 0, 0, by decide⟩
theorem witness_PortCommandsAct_19 : ∃ (s : State) (p : Fin 3) (sub : Fin 4) (dmac : BitVec 48) (a : W32), (s.dev.bus.writes = []) ∧ (s.dev.portRuns p = true) ∧ (sub.val < s.dev.subports p) ∧ (dmac.toNat = s.dev.get ETH_MAC.MAC p sub ∨ dmac = BitVec.allOnes 48) ∧ (a.toNat = s.dev.get ETH_IP4.ADDR p sub) :=
  ⟨st pt, 0, 0, 0xFFFFFFFFFFFF, 0, by decide⟩
theorem witness_PortCommandsAct_20 : ∃ (s : State) (p : Fin 3) (t : Fin 64) (sub : Fin 4) (dmac : BitVec 48) (src : BitVec 128) (dst : BitVec 128) (sport : BitVec 16) (dport : BitVec 16) (l : List Byte) (ack : BitVec 48) (limit : BitVec 48), (s.dev.bus.writes = []) ∧ (s.dev.portRuns p = true) ∧ (sub.val < s.dev.subports p) ∧ (dmac.toNat = s.dev.get ETH_MAC.MAC p sub) ∧ (dport.toNat = s.dev.get ETH_CTL.UDP_PORT p) ∧ (dst.toNat = s.dev.get ETH_IP4.ADDR p sub) ∧ (l.length = 48) ∧ (field l 0 1 = 0x12) ∧ (field l 0x0A 2 = 16) ∧ (s.dev.creditTarget p (field l 2 2) false src.toNat sport.toNat = some t.val) ∧ (ack.toNat = field l 32 6) ∧ (limit.toNat = field l 40 6) :=
  ⟨st (((str pt).setBen { target := Tab.set [] 1 { stream := { seq := 9, ack := 3, limit := 20 } } }).setEth (Tab.set [] 0 { window := [{ tgt := 1, seq := 3 }, { tgt := 1, seq := 8 }] })), 0, 1, 0, 0, 0, 0, 0, 47100, cr, 5, 30, by decide +kernel⟩
theorem witness_PortCommandsAct_21 : ∃ (s : State) (p : Fin 3) (sub : Fin 4) (dmac : BitVec 48) (dst : BitVec 128) (dport : BitVec 16) (l : List Byte), (s.dev.bus.writes = []) ∧ (s.dev.portRuns p = true) ∧ (sub.val < s.dev.subports p) ∧ (dmac.toNat = s.dev.get ETH_MAC.MAC p sub) ∧ (dport.toNat = s.dev.get ETH_CTL.UDP_PORT p) ∧ (dst.toNat = s.dev.get ETH_IP4.ADDR p sub) ∧ (32 ≤ l.length) ∧ (field l 0 1 = 0x14) :=
  ⟨st pt, 0, 0, 0, 0, 47100, fire, by decide +kernel⟩
end W28

namespace W29
def st (d : Dev) : State := ⟨d, []⟩
def pn (x : Nat) (p : SynPin) (d : Dev) : State := st (d.setSyn { pin := Tab.set [] x p })
theorem witness_PinCommandsAct_2 : ∃ (s : State) (x : Fin 48) (level : Bool), (s.dev.bus.writes = []) ∧ (pinExists x = true) ∧ ((s.dev.syn.pin.get x).raw ≠ level) ∧ ((s.dev.syn.pin.get x).edge = none) ∧ ((s.dev.syn.pin.get x).own = []) :=
  ⟨st {}, 3, true, by decide⟩
theorem witness_PinCommandsAct_3 : ∃ (s : State) (x : Fin 48) (level : Bool) (sample : Fin 64) (frac : BitVec 16) (e : Nat × Option Nat), (s.dev.bus.writes = []) ∧ ((s.dev.syn.pin.get x).edge = some e) ∧ (pinExists x = true) ∧ ((s.dev.syn.pin.get x).raw ≠ level) ∧ ((s.dev.now * 64 + sample) * 65536 + frac.toNat < e.1 + s.dev.pinMinw x) :=
  ⟨pn 3 { raw := true, edge := some (1024 * 4194304, none) } {}, 3, false, 5, 7, (1024 * 4194304, none), by decide⟩
theorem witness_PinCommandsAct_4 : ∃ (s : State) (x : Fin 48) (e : Nat × Option Nat), (s.dev.bus.writes = []) ∧ ((s.dev.syn.pin.get x).edge = some e) :=
  ⟨pn 3 { raw := true, edge := some (1024 * 4194304, none) } {}, 3, (1024 * 4194304, none), by decide⟩
theorem witness_PinCommandsAct_5 : ∃ (s : State) (x : Fin 48) (l : Launch), (s.dev.bus.writes = []) ∧ ((s.dev.syn.pin.get x).launches.head? = some l) ∧ (s.dev.pinDriven x = true) ∧ (s.dev.inPair x = false) ∧ (l.width ≠ 0) :=
  ⟨pn 32 { launches := [⟨1026, 8, true⟩] } {}, 32, ⟨1026, 8, true⟩, by decide⟩
theorem witness_PinCommandsAct_6 : ∃ (s : State) (x : Fin 48) (l : Launch), (s.dev.bus.writes = []) ∧ ((s.dev.syn.pin.get x).launches.head? = some l) ∧ (s.dev.pinDriven x = true) ∧ (s.dev.inPair x = false) ∧ (l.width = 0) :=
  ⟨pn 32 { launches := [⟨1026, 0, true⟩] } {}, 32, ⟨1026, 0, true⟩, by decide⟩
theorem witness_PinCommandsAct_7 : ∃ (s : State) (x : Fin 48) (e : Nat), (s.dev.bus.writes = []) ∧ ((s.dev.syn.pin.get x).pulseEnd = some e) :=
  ⟨pn 32 { out := true, pulseEnd := some 1030 } {}, 32, 1030, by decide⟩
theorem witness_PinCommandsAct_8 : ∃ (s : State) (x : Fin 48) (level : Bool), (s.dev.bus.writes = []) ∧ (pinExists x = true) ∧ (s.dev.pinDriven x = true) ∧ (s.dev.wiredOr x = false) ∧ (level ≠ ((s.dev.syn.pin.get x).out ^^ s.dev.pinInv x)) :=
  ⟨pn 32 { out := true } {}, 32, false, by decide⟩
theorem witness_PinCommandsAct_9 : ∃ (s : State) (x : Fin 48), (s.dev.bus.writes = []) ∧ (pinExists x = true) ∧ (s.dev.pinDriven x = true) ∧ (s.dev.wiredOr x = true) ∧ ((s.dev.syn.pin.get x).out = true) ∧ (s.dev.wordSending = false) :=
  ⟨pn 3 { out := true } ((({} : Dev).put SYN_OWN.LINES 8).put SYN_PCFG.DRIVE 0 3), 3, by decide⟩
end W29

namespace W30
def st (d : Dev) : State := ⟨d, []⟩
def own : Dev := (((({} : Dev).put SYN_OWN.LINES 15).put SYN_PCFG.DRIVE 0 0).put SYN_PCFG.DRIVE 0 1)
def msg (y : SynBus) : State := st (((own.putb SYN_MSG_CTL.EN true).putb SYN_SYSID.EN true).setSyn y)
theorem witness_MessageAndPingCommandsAct_1 : ∃ (s : State) (v : W32), (s.dev.bus.writes = []) ∧ (s.dev.flag SYN_MSG_CTL.EN = false) ∧ (v.getLsbD 31 = true) ∧ (s.dev.wiredOr (2 * (v.toNat / 2 ^ 16 % 8)) = true) ∧ (s.dev.wiredOr (2 * (v.toNat / 2 ^ 16 % 8) + 1) = true) ∧ (s.dev.pinPings (2 * (v.toNat / 2 ^ 16 % 8)) = false) ∧ (s.dev.pinPings (2 * (v.toNat / 2 ^ 16 % 8) + 1) = false) :=
  ⟨st own, 0x80000000, by decide⟩
theorem witness_MessageAndPingCommandsAct_2 : ∃ (s : State) (v : W32), (s.dev.bus.writes = []) ∧ (s.dev.flag SYN_MSG_CTL.EN = false) ∧ (v.getLsbD 31 = true) ∧ (s.dev.wiredOr (2 * (v.toNat / 2 ^ 16 % 8)) = false) :=
  ⟨st {}, 0x80000000, by decide⟩
theorem witness_MessageAndPingCommandsAct_3 : ∃ (s : State) (v : W32), (s.dev.bus.writes = []) ∧ (s.dev.flag SYN_MSG_CTL.EN = true) ∧ (v.getLsbD 31 = false) :=
  ⟨msg { words := [(1, 2)] }, 0, by decide⟩
theorem witness_MessageAndPingCommandsAct_4 : ∃ (s : State) (v : W32), (s.dev.bus.writes = []) ∧ (v.getLsbD 31 = true) ∧ (s.dev.syn.words.length < 16) :=
  ⟨msg { words := [(1, 2)] }, 0x80000805, by decide⟩
theorem witness_MessageAndPingCommandsAct_5 : ∃ (s : State) (v : W32), (s.dev.bus.writes = []) ∧ (v.getLsbD 31 = true) ∧ (16 ≤ s.dev.syn.words.length) :=
  ⟨msg { words := List.replicate 16 (1, 2) }, 0x80000805, by decide⟩
theorem witness_MessageAndPingCommandsAct_6 : ∃ (s : State) (f : Nat), (s.dev.bus.writes = []) ∧ (s.dev.frameFree = some f) ∧ (s.dev.syn.words ≠ []) ∧ (s.dev.syn.phase = .ready) ∧ (s.dev.flag SYN_MSG_CTL.EN = true) ∧ (s.dev.flag SYN_SYSID.EN = true) ∧ (s.dev.pinDriven (2 * s.dev.get SYN_MSG_CTL.PAIR) = true) ∧ (s.dev.pinDriven (2 * s.dev.get SYN_MSG_CTL.PAIR + 1) = true) :=
  ⟨msg { words := [(1, 2)] }, 0, by decide⟩
theorem witness_MessageAndPingCommandsAct_7 : ∃ (s : State) (b : Nat) (k : Nat) (f : Nat), (s.dev.bus.writes = []) ∧ (s.dev.frameFree = some f) ∧ (s.dev.syn.phase = .backoff b k) :=
  ⟨msg { words := [(1, 2)], phase := .backoff 1000 3 }, 1000, 3, 0, by decide⟩
theorem witness_MessageAndPingCommandsAct_8 : ∃ (s : State) (b : Nat), (s.dev.bus.writes = []) ∧ (s.dev.syn.phase = .sending b) ∧ (s.dev.syn.words ≠ []) :=
  ⟨msg { words := [(1, 2)], phase := .sending 1024 }, 1024, by decide⟩
theorem witness_MessageAndPingCommandsAct_9 : ∃ (s : State), (s.dev.bus.writes = []) ∧ (s.dev.flag SYN_MSG_CTL.EN = true) ∧ (s.dev.wordSending = false) :=
  ⟨msg {}, by decide⟩
theorem witness_MessageAndPingCommandsAct_10 : ∃ (s : State) (word : W32) (ago : BitVec 10) (sample : Fin 64) (frac : BitVec 16) (b : Nat), (s.dev.bus.writes = []) ∧ (s.dev.gridNear (s.dev.pinInst (2 * s.dev.get SYN_MSG_CTL.PAIR + 1) (((s.dev.now - ago.toNat) * 64 + sample) * 65536 + frac.toNat) - s.dev.get SYN_LAUNCH_K.K * 4096) = some b) ∧ (s.dev.flag SYN_MSG_CTL.EN = true) ∧ (s.dev.wordSending = false) ∧ (word.toNat / 2 ^ 18 = s.dev.get SYN_SYSID.ID) :=
  ⟨msg {}, 0, 0, 0, 0, 992, by decide⟩
theorem witness_MessageAndPingCommandsAct_11 : ∃ (s : State) (word : W32) (ago : BitVec 10) (sample : Fin 64) (frac : BitVec 16) (b : Nat), (s.dev.bus.writes = []) ∧ (s.dev.gridNear (s.dev.pinInst (2 * s.dev.get SYN_MSG_CTL.PAIR + 1) (((s.dev.now - ago.toNat) * 64 + sample) * 65536 + frac.toNat) - s.dev.get SYN_LAUNCH_K.K * 4096) = some b) ∧ (s.dev.flag SYN_MSG_CTL.EN = true) ∧ (s.dev.wordSending = false) ∧ (word.toNat / 2 ^ 18 ≠ s.dev.get SYN_SYSID.ID) :=
  ⟨msg {}, 0x40000, 0, 0, 0, 992, by decide⟩
theorem witness_MessageAndPingCommandsAct_12 : ∃ (s : State) (v : W32), (s.dev.bus.writes = []) ∧ (v.getLsbD 31 = true) ∧ (s.dev.syn.ping = none) ∧ ((s.dev.wr ⟨.SYN_PING_CTL, 0, 0, 0⟩ (v.setWidth 64)).pinOwned ((s.dev.wr ⟨.SYN_PING_CTL, 0, 0, 0⟩ (v.setWidth 64)).get SYN_PING_CTL.PIN) = true) ∧ (s.dev.flag SYN_MSG_CTL.EN = false) :=
  ⟨st own, 0x80000000, by decide⟩
theorem witness_MessageAndPingCommandsAct_13 : ∃ (s : State) (p : Ping), (s.dev.bus.writes = []) ∧ (s.dev.syn.ping = some p) ∧ (p.responder = false) ∧ (p.sent < p.count) ∧ (s.dev.pinDriven p.pin = true) :=
  ⟨msg { ping := some { pin := 2, count := 2, next := 1030 } }, { pin := 2, count := 2, next := 1030 }, by decide⟩
theorem witness_MessageAndPingCommandsAct_14 : ∃ (s : State) (p : Ping) (r : Nat × Nat), (s.dev.bus.writes = []) ∧ (p.reply = some r) ∧ (s.dev.syn.ping = some p) ∧ (s.dev.pinDriven p.pin = true) :=
  ⟨msg { ping := some { pin := 2, count := 2, reply := some (1050, 60000000) } }, { pin := 2, count := 2, reply := some (1050, 60000000) }, (1050, 60000000), by decide⟩
theorem witness_MessageAndPingCommandsAct_15 : ∃ (s : State) (p : Ping), (s.dev.bus.writes = []) ∧ (s.dev.syn.ping = some p) ∧ (p.count ≤ p.diffs.length) :=
  ⟨msg { ping := some { pin := 2, count := 2, diffs := [4, 8] } }, { pin := 2, count := 2, diffs := [4, 8] }, by decide⟩
theorem witness_MessageAndPingCommandsAct_16 : ∃ (s : State) (p : Ping), (s.dev.bus.writes = []) ∧ (s.dev.syn.ping = some p) ∧ (p.responder = true) ∧ (p.heard = false) :=
  ⟨msg { ping := some { pin := 2, responder := true } }, { pin := 2, responder := true }, by decide⟩
end W30

namespace W31
def st (d : Dev) : State := ⟨d, []⟩
def dpb : Dev := ((((((((((({} : Dev).put DPY_H.HACT 64 1).put DPY_H.HTOTAL 200 1).put DPY_V.VACT 64 1).put DPY_V.VTOTAL 200 1).put DPY_VRR.VTOTAL_MAX 200 1).put DPY_PCLK.KHZ 20000 1).put DPY_UNDER_LIM.LIM 5 1).put DPY_DB_LINK.LANES 4 1).put DPY_DB_LINK.RATE 1000 1).wr ⟨.DPY_SRC, 1, 0, 0⟩ 0)
def dpa : Dev := (((((((((((({} : Dev).put DPY_H.HACT 64 0).put DPY_H.HTOTAL 200 0).put DPY_V.VACT 64 0).put DPY_V.VTOTAL 200 0).put DPY_VRR.VTOTAL_MAX 200 0).put DPY_PCLK.KHZ 25000 0).put DPY_UNDER_LIM.LIM 5 0).put DPY_LINK.LANES 4 0).put DPY_LINK.RATE 3 0).putb DPY_LINK.UP true 0).wr ⟨.DPY_SRC, 0, 0, 0⟩ 0)
def oo (x : Nat) (o : Output) (d : Dev) : State := st (((d.put HK_PD_STAT.ON 0x700000 2).putb DPY_CTL.EN true x).setRas { out := Tab.set [] x o })
theorem witness_RasterCommandsAct_1 : ∃ (s : State) (c : Fin 2), (s.dev.bus.writes = []) ∧ (s.dev.bitOf RAS_CTL.EN c = false) :=
  ⟨st {}, 1, by decide⟩
theorem witness_RasterCommandsAct_2 : ∃ (s : State) (c : Fin 2), (s.dev.bus.writes = []) ∧ (s.dev.bitOf RAS_CTL.MODE c = true) :=
  ⟨st (({} : Dev).put RAS_CTL.MODE 3), 1, by decide⟩
theorem witness_RasterCommandsAct_3 : ∃ (s : State) (c : Fin 2), (s.dev.bus.writes = []) ∧ (s.dev.bitOf RAS_CTL.EN c = true) ∧ (s.dev.pdOn 84 = true) ∧ (s.dev.bitOf RAS_STAT.BUSY c = false) ∧ (s.dev.backFree c = true) ∧ (s.dev.bitOf RAS_CTL.MODE c = false ∨ (s.dev.ras.canvas.get c).due = true) :=
  ⟨st ((({} : Dev).put HK_PD_STAT.ON 0x700000 2).put RAS_CTL.EN 3), 1, by decide⟩
theorem witness_RasterCommandsAct_4 : ∃ (s : State) (c : Fin 2), (s.dev.bus.writes = []) ∧ (s.dev.bitOf RAS_STAT.BUSY c = true) :=
  ⟨st ((({} : Dev).put RAS_CTL.EN 3).put RAS_STAT.BUSY 3), 1, by decide⟩
theorem witness_RasterCommandsAct_5 : ∃ (s : State), (s.dev.bus.writes = []) ∧ (s.dev.commitCheck [0] = 1) ∧ (s.dev.flag DPY_CTL.EN 0 = true) :=
  ⟨oo 0 {} dpa, by decide⟩
theorem witness_RasterCommandsAct_6 : ∃ (s : State), (s.dev.bus.writes = []) ∧ (s.dev.commitCheck [1] = 1) ∧ (s.dev.flag DPY_CTL.EN 1 = false) :=
  ⟨st dpb, by decide⟩
theorem witness_RasterCommandsAct_7 : ∃ (s : State) (x : Fin 2), (s.dev.bus.writes = []) ∧ (s.dev.commitCheck [x.val] ≠ 1) :=
  ⟨st {}, 1, by decide⟩
theorem witness_RasterCommandsAct_8 : ∃ (s : State) (x : Fin 2) (tick : Fin 64) (l : List Nat), (s.dev.bus.writes = []) ∧ (s.dev.commitArrived x tick = some l) ∧ (s.dev.outRuns x = true) ∧ (s.dev.cmdMode x = false) ∧ ((s.dev.ras.out.get x).stopped = false) :=
  ⟨oo 1 { commit := some (1000, [7]), act := [0, 0, 0, 0, 0, 1000000] } {}, 1, 3, [7], by decide⟩
theorem witness_RasterCommandsAct_9 : ∃ (s : State) (x : Fin 2) (tick : Fin 64), (s.dev.bus.writes = []) ∧ (s.dev.commitArrived x tick = none) ∧ (s.dev.outRuns x = true) ∧ (s.dev.cmdMode x = false) ∧ ((s.dev.ras.out.get x).stopped = false) :=
  ⟨oo 1 {} {}, 1, 3, by decide⟩
theorem witness_RasterCommandsAct_10 : ∃ (s : State), (s.dev.bus.writes = []) ∧ (s.dev.outRuns 0 = true) ∧ ((s.dev.ras.out.get 0).stopped = false) ∧ (s.dev.vrrOn 0 = true) ∧ ((s.dev.ras.out.get 0).porch = none) ∧ ((s.dev.ras.out.get 0).total = 0) ∧ (s.dev.flipPending 0 = false) :=
  ⟨oo 0 { act := [0, 0, 0, 0, 0x80000010] } {}, by decide⟩
theorem witness_RasterCommandsAct_11 : ∃ (s : State) (x : Fin 2), (s.dev.bus.writes = []) ∧ (s.dev.outRuns x = true) ∧ (s.dev.cmdMode x = false) ∧ (s.dev.vrrOn x = false) ∧ ((s.dev.ras.out.get x).stopped = false) ∧ ((s.dev.ras.out.get x).total = 0) :=
  ⟨oo 1 { next := some [5] } {}, 1, by decide⟩
theorem witness_RasterCommandsAct_12 : ∃ (s : State), (s.dev.bus.writes = []) ∧ (s.dev.outRuns 1 = true) ∧ (s.dev.cmdMode 1 = true) :=
  ⟨oo 1 {} (({} : Dev).putb DPY_CTL.CMD true 1), by decide⟩
theorem witness_RasterCommandsAct_13 : ∃ (s : State), (s.dev.bus.writes = []) ∧ (s.dev.outRuns 1 = true) ∧ (s.dev.cmdMode 1 = true) ∧ (s.dev.pushBox 1 ≠ none) :=
  ⟨oo 1 { whole := true, act := [64, 0, 64] } (({} : Dev).putb DPY_CTL.CMD true 1), by decide⟩
theorem witness_RasterCommandsAct_15 : ∃ (s : State) (x : Fin 2) (n : BitVec 24), (s.dev.bus.writes = []) ∧ (s.dev.outRuns x = true) ∧ ((s.dev.ras.out.get x).aborted = false) ∧ (n ≠ 0) ∧ ((s.dev.ras.out.get x).repeated = 0) ∧ (n.toNat ≤ bitsOf ((s.dev.ras.out.get x).act.getD 8 0) 0 24) :=
  ⟨oo 1 { act := [0, 0, 0, 0, 0, 0, 0, 0, 100] } {}, 1, 5, by decide⟩
theorem witness_RasterCommandsAct_19 : ∃ (s : State), (s.dev.bus.writes = []) ∧ (s.dev.outRuns 0 = true) ∧ ((s.dev.ras.out.get 0).stopped = true) ∧ ((s.dev.ras.out.get 0).total = 0) :=
  ⟨oo 0 { stopped := true, next := some [5] } {}, by decide⟩
end W31

namespace W32
def st (d : Dev) : State := ⟨d, []⟩
def act : Dev := ({} : Dev).setPwr { aon := true, mainEn := true }
theorem witness_StandbyAndDomainCommandsAct_1 : ∃ (s : State), (s.dev.bus.writes = []) ∧ (s.dev.pwr.aon = true) ∧ (s.dev.pwr.mainEn = true) ∧ (s.dev.pwr.waitPg = false) ∧ (s.dev.pwr.noFw = false) ∧ (s.dev.pwr.drain = none) ∧ (s.dev.pwr.fwTrial = none) ∧ (s.dev.get HK_PWR_STAT.STATE = 0) ∧ (s.dev.recordOpen = false) ∧ (s.dev.opsRun = false) :=
  ⟨st act, by decide⟩
theorem witness_StandbyAndDomainCommandsAct_2 : ∃ (s : State), (s.dev.bus.writes = []) ∧ (s.dev.pwr.aon = true) ∧ (s.dev.pwr.mainEn = true) ∧ (s.dev.pwr.waitPg = false) ∧ (s.dev.pwr.noFw = false) ∧ (s.dev.pwr.drain = none) ∧ (s.dev.get HK_PWR_STAT.STATE = 0) ∧ (s.dev.recordOpen = true ∨ s.dev.opsRun = true ∨ s.dev.pwr.fwTrial ≠ none) :=
  ⟨st (act.setPwr { act.pwr with fwTrial := some 1000 }), by decide⟩
theorem witness_StandbyAndDomainCommandsAct_3 : ∃ (s : State), (s.dev.bus.writes = []) ∧ (s.dev.pwr.aon = true) ∧ (s.dev.pwr.hot = false) ∧ (s.dev.pwr.noFw = false) ∧ (s.dev.pwr.wake = none) ∧ (s.dev.get HK_PWR_STAT.STATE = 1) ∧ (s.dev.get HK_WAKE_CTL.SRC % 2 = 1) :=
  ⟨st ((act.put HK_PWR_STAT.STATE 1).put HK_WAKE_CTL.SRC 1), by decide⟩
theorem witness_StandbyAndDomainCommandsAct_4 : ∃ (s : State), (s.dev.bus.writes = []) ∧ (s.dev.pwr.aon = true) ∧ (s.dev.pwr.hot = false) ∧ (s.dev.pwr.noFw = false) ∧ (s.dev.pwr.wake = none) ∧ (s.dev.get HK_PWR_STAT.STATE = 2) ∧ (s.dev.get HK_WAKE_CTL.SRC / 2 ^ 4 % 2 = 1) :=
  ⟨st ((act.put HK_PWR_STAT.STATE 2).put HK_WAKE_CTL.SRC 31), by decide⟩
theorem witness_StandbyAndDomainCommandsAct_5 : ∃ (s : State), (s.dev.bus.writes = []) ∧ (s.dev.pwr.waitPg = true) :=
  ⟨st (act.setPwr { act.pwr with waitPg := true, wake := some (3, 1000) }), by decide⟩
theorem witness_StandbyAndDomainCommandsAct_6 : ∃ (s : State), (s.dev.bus.writes = []) ∧ (s.dev.pwr.wake ≠ none) ∧ (s.dev.pwr.waitPg = false) ∧ (s.dev.tb.locked = true) ∧ (s.dev.pwr.drain = none) ∧ (s.dev.pwr.later = none) :=
  ⟨st ((act.setPwr { act.pwr with wake := some (3, 1000) }).setTb { locked := true }), by decide⟩
theorem witness_StandbyAndDomainCommandsAct_7 : ∃ (s : State) (n : Fin 96), (s.dev.bus.writes = []) ∧ (s.dev.hkActs = true) ∧ (s.dev.pdNeeded n = false) :=
  ⟨st act, 8, by decide⟩
theorem witness_StandbyAndDomainCommandsAct_8 : ∃ (s : State) (n : Fin 96), (s.dev.bus.writes = []) ∧ (s.dev.hkActs = true) ∧ (s.dev.pdNeeded n = true) :=
  ⟨st act, 58, by decide⟩
theorem witness_StandbyAndDomainCommandsAct_9 : ∃ (s : State) (n : Fin 96), (s.dev.bus.writes = []) ∧ (s.dev.hkActs = true) ∧ (s.dev.pdNeeded n = false) :=
  ⟨st act, 8, by decide⟩
theorem witness_StandbyAndDomainCommandsAct_10 : ∃ (s : State) (n : Fin 96), (s.dev.bus.writes = []) ∧ (s.dev.hkActs = true) ∧ (s.dev.pdNeeded n = true) :=
  ⟨st act, 58, by decide⟩
end W32

namespace W33
def st (d : Dev) : State := ⟨d, []⟩
def act : Dev := ({} : Dev).setPwr { aon := true, mainEn := true }
def off : Dev := ({} : Dev).setPwr { aon := true, mainEn := false }
theorem witness_ResetAndBootCommandsAct_1 : ∃ (s : State), (s.dev.bus.writes = []) ∧ (s.dev.pwr.aon = true) ∧ (s.dev.pwr.mainEn = true) ∧ (s.dev.pwr.waitPg = false) ∧ (s.dev.pwr.noFw = false) ∧ (s.dev.pwr.wake = none) ∧ (s.dev.pwr.drain = none) :=
  ⟨st act, by decide⟩
theorem witness_ResetAndBootCommandsAct_2 : ∃ (s : State) (r : Drain), (s.dev.bus.writes = []) ∧ (s.dev.pwr.drain = some r) ∧ (s.dev.pwr.aon = true) ∧ (s.dev.pwr.mainEn = true) ∧ (s.dev.pwr.waitPg = false) ∧ (s.dev.pwr.noFw = false) ∧ (s.dev.pwr.wake = none) :=
  ⟨st (act.setPwr { act.pwr with drain := some ⟨1000, false, 6⟩ }), ⟨1000, false, 6⟩, by decide⟩
theorem witness_ResetAndBootCommandsAct_3 : ∃ (s : State) (key : Byte), (s.dev.bus.writes = []) ∧ (key ≠ 0xA5) :=
  ⟨st act, 0x5A, by decide⟩
theorem witness_ResetAndBootCommandsAct_4 : ∃ (s : State) (r : Drain), (s.dev.bus.writes = []) ∧ (s.dev.pwr.drain = some r) ∧ (r.cause < 16) :=
  ⟨st (act.setPwr { act.pwr with drain := some ⟨1000, true, 2⟩ }), ⟨1000, true, 2⟩, by decide⟩
theorem witness_ResetAndBootCommandsAct_5 : ∃ (s : State), (s.dev.bus.writes = []) ∧ (s.dev.pwr.aon = true) ∧ (s.dev.pwr.mainEn = true) ∧ (s.dev.pwr.waitPg = false) :=
  ⟨st act, by decide⟩
theorem witness_ResetAndBootCommandsAct_8 : ∃ (s : State), (s.dev.bus.writes = []) ∧ (s.dev.pwr.aon = true) ∧ (s.dev.pwr.mainEn = true) :=
  ⟨st act, by decide⟩
theorem witness_ResetAndBootCommandsAct_9 : ∃ (s : State), (s.dev.bus.writes = []) ∧ (s.dev.pwr.aon = true) ∧ (s.dev.pwr.mainEn = false) ∧ (s.dev.pwr.noFw = false) ∧ (s.dev.get HK_PWR_STAT.STATE = 0) ∧ (s.dev.pwr.slotA.state = 2) ∧ (s.dev.pwr.slotB.state < 3) ∧ (s.dev.get GLB_LC.EPOCH ≤ s.dev.pwr.slotA.epoch) :=
  ⟨st off, by decide⟩
theorem witness_ResetAndBootCommandsAct_10 : ∃ (s : State), (s.dev.bus.writes = []) ∧ (s.dev.pwr.aon = true) ∧ (s.dev.pwr.mainEn = false) ∧ (s.dev.pwr.noFw = false) ∧ (s.dev.get HK_PWR_STAT.STATE = 0) ∧ (s.dev.pwr.slotA.state = 2) ∧ (s.dev.pwr.slotB.state = 3) ∧ (s.dev.get GLB_LC.EPOCH ≤ s.dev.pwr.slotB.epoch) :=
  ⟨st (off.setPwr { off.pwr with slotB := { state := 3 } }), by decide⟩
theorem witness_ResetAndBootCommandsAct_11 : ∃ (s : State), (s.dev.bus.writes = []) ∧ (s.dev.pwr.aon = true) ∧ (s.dev.pwr.mainEn = false) ∧ (s.dev.pwr.noFw = false) ∧ (s.dev.get HK_PWR_STAT.STATE = 0) ∧ (s.dev.pwr.slotA.state = 2) ∧ (s.dev.pwr.slotB.state = 1) ∧ (s.dev.get GLB_LC.EPOCH ≤ s.dev.pwr.slotB.epoch) :=
  ⟨st (off.setPwr { off.pwr with slotB := { state := 1 } }), by decide⟩
theorem witness_ResetAndBootCommandsAct_12 : ∃ (s : State), (s.dev.bus.writes = []) ∧ (s.dev.pwr.aon = true) ∧ (s.dev.pwr.mainEn = false) ∧ (s.dev.get HK_PWR_STAT.STATE = 0) :=
  ⟨st off, by decide⟩
end W33

namespace W34
def st (d : Dev) : State := ⟨d, []⟩
def act : Dev := ({} : Dev).setPwr { aon := true, mainEn := true }
theorem witness_TemperatureAndFirmwareCommandsAct_1 : ∃ (s : State) (v : BitVec 16), (s.dev.bus.writes = []) ∧ (s.dev.pwr.aon = true) ∧ (s.dev.pwr.noFw = false) ∧ (tempOf (s.dev.get HK_THERM.WARN) ≤ v.toInt) :=
  ⟨st act, 1600, by decide⟩
theorem witness_TemperatureAndFirmwareCommandsAct_2 : ∃ (s : State) (v : BitVec 16), (s.dev.bus.writes = []) ∧ (s.dev.pwr.aon = true) ∧ (s.dev.pwr.noFw = false) ∧ (s.dev.pwr.mainEn = true) ∧ (s.dev.pwr.waitPg = false) ∧ (s.dev.get HK_PWR_STAT.STATE = 0) ∧ (tempOf (s.dev.get HK_THERM.CRIT) ≤ v.toInt) :=
  ⟨st (act.setPwr { act.pwr with fwTrial := some 1000 }), 1760, by decide⟩
theorem witness_TemperatureAndFirmwareCommandsAct_3 : ∃ (s : State) (v : BitVec 16), (s.dev.bus.writes = []) ∧ (s.dev.pwr.hot = true) ∧ (v.toInt < tempOf (s.dev.get HK_THERM.WARN)) :=
  ⟨st (act.setPwr { act.pwr with hot := true }), 0xFFF0, by decide⟩
theorem witness_TemperatureAndFirmwareCommandsAct_4 : ∃ (s : State) (epoch : BitVec 6), (s.dev.bus.writes = []) ∧ (s.dev.hkActs = true) ∧ (s.dev.pwr.fwTrial = none) ∧ (s.dev.get HK_FW_LEN.BYTES ≤ 0x1000000) ∧ (s.dev.get GLB_LC.EPOCH ≤ epoch.toNat) :=
  ⟨st act, 3, by decide⟩
theorem witness_TemperatureAndFirmwareCommandsAct_5 : ∃ (s : State), (s.dev.bus.writes = []) ∧ (s.dev.hkActs = true) ∧ (s.dev.pwr.fwTrial = none) :=
  ⟨st (act.put HK_FW_LEN.BYTES 0x1000001), by decide⟩
theorem witness_TemperatureAndFirmwareCommandsAct_6 : ∃ (s : State), (s.dev.bus.writes = []) ∧ (s.dev.hkActs = true) ∧ (s.dev.pwr.fwTrial = none) ∧ ((s.dev.pwr.slot (! s.dev.pwr.runB)).state = 1) :=
  ⟨st (act.setPwr { act.pwr with slotB := { state := 1 } }), by decide⟩
theorem witness_TemperatureAndFirmwareCommandsAct_7 : ∃ (s : State), (s.dev.bus.writes = []) ∧ (s.dev.hkActs = true) ∧ (s.dev.pwr.fwWaiting = true) ∧ (s.dev.opsRun = false) ∧ (s.dev.sec.running = none) :=
  ⟨st (act.setPwr { act.pwr with fwWaiting := true }), by decide⟩
theorem witness_TemperatureAndFirmwareCommandsAct_8 : ∃ (s : State) (f : Nat), (s.dev.bus.writes = []) ∧ (s.dev.pwr.fwTrial = some f) ∧ (s.dev.now < f + 2500000000) :=
  ⟨st (act.setPwr { act.pwr with fwTrial := some 1000 }), 1000, by decide⟩
theorem witness_TemperatureAndFirmwareCommandsAct_9 : ∃ (s : State) (f : Nat), (s.dev.bus.writes = []) ∧ (s.dev.pwr.fwTrial = some f) :=
  ⟨st (act.setPwr { act.pwr with fwTrial := some 1000 }), 1000, by decide⟩
end W34

namespace W35
def st (d : Dev) : State := ⟨d, []⟩
def on (d : Dev) : Dev := d.putb TST_CTL.EN true 3
theorem witness_TestSessionCommandsAct_1 : ∃ (s : State) (ses : Fin 8) (v : BitVec 32), (s.dev.bus.writes = []) ∧ (s.dev.flag TST_CTL.EN ses = false) ∧ (v.toNat / 2 ^ 8 % 16 < 4) ∧ (v.toNat / 2 ^ 16 % 4 < 2) ∧ (v.toNat / 2 ^ 20 % 8 < 6) ∧ (v.toNat % 8 = 0) ∧ (s.dev.flag CV_SCTL.EN (v.toNat / 2 ^ 8 % 16) = false) ∧ ((∀ o : Fin 8, o ≠ ses → s.dev.flag TST_CTL.EN o = false)) :=
  ⟨st {}, 3, 0x80510300, by decide⟩
theorem witness_TestSessionCommandsAct_2 : ∃ (s : State) (ses : Fin 8) (v : BitVec 32) (r : Nat), (s.dev.bus.writes = []) ∧ (s.dev.flag TST_CTL.EN ses = false) ∧ (((s.dev.wr ⟨.TST_CTL, ses, 0, 0⟩ (v.setWidth 64)).putb TST_CTL.EN false ses).testResult ses = r) ∧ (r ≠ 1) :=
  ⟨st {}, 3, 0x80600000, 3, by decide⟩
theorem witness_TestSessionCommandsAct_3 : ∃ (s : State) (ses : Fin 8), (s.dev.bus.writes = []) ∧ (s.dev.flag TST_CTL.EN ses = true) :=
  ⟨st ((on {}).putb TST_STAT.LOCK true 3), 3, by decide⟩
theorem witness_TestSessionCommandsAct_4 : ∃ (s : State), (s.dev.bus.writes = []) ∧ (s.dev.linkPowered = true) ∧ (s.dev.link.up = true) :=
  ⟨st (({} : Dev).setLink { up := true }), by decide⟩
theorem witness_TestSessionCommandsAct_5 : ∃ (s : State) (ses : Fin 8), (s.dev.bus.writes = []) ∧ (s.dev.flag TST_CTL.EN ses = true) ∧ (s.dev.get TST_CTL.IF ses < 5) ∧ (¬ (s.dev.get TST_CTL.IF ses = 3 ∧ s.dev.get TST_CTL.DEPTH ses = 2)) :=
  ⟨st (on {}), 3, by decide⟩
theorem witness_TestSessionCommandsAct_6 : ∃ (s : State) (ses : Fin 8), (s.dev.bus.writes = []) ∧ (s.dev.flag TST_CTL.EN ses = true) ∧ (s.dev.get TST_CTL.IF ses < 5) ∧ (¬ (s.dev.get TST_CTL.IF ses = 3 ∧ s.dev.get TST_CTL.DEPTH ses = 2)) ∧ (s.dev.flag TST_STAT.LOCK ses = true) :=
  ⟨st ((on {}).putb TST_STAT.LOCK true 3), 3, by decide⟩
end W35

namespace W36
def dbgBlock : Nat := 0xcda941fec531c2fd9b2cd8c1c8221a1bf4de636c4267578c65b7ce59d77e3f0e9d6554bfeb58c0f5c9faee4d069748b20c42bddb36ec2ac126398b3da38737907e45cda2e76b4f3e4c1fdd1c6c77c389824530c7d244af6b2f49586409bfd71a045cbce00bcba1f04cbff0f38391f9ebdf922cc9326f7a2fd13297a43d6f69bbf8f0e38a050b3850988087e96a1d7afad15cbce00bcba1f04cbff0f38391f9ebdf922cc9326f7a2fd13297a43d6f69bbf8f0e38a050b3850988087e96a1d7afad100000000000000000000000000000000000000000000000000000000000000000000000000000000000000000000000000000000000000000000000000000000000000000000000000000000000000000000000000000000000000000000000000000000000000000000000000000004000000000000000700050005434c5147
def dbgKey : Nat := 0x6d73c7d3af80e6e05dd8e370429b971742fc819e9a171fec7a6c677c9a49964d9ca7ac115a881ba92e90f80c4c56ca62
def st (d : Dev) : State := ⟨d, []⟩
def kind5 (x : Security) : State := st ((({} : Dev).setBen { bench := [(4, 5)] }).setSec x)
def run (k : Nat) (l : List Byte) : State := st (({} : Dev).setSec { running := some k, block := l })
def blk (b key nonce lc : Nat) : Dev := (({} : Dev).setBen { bench := Memory.store [] 0 (leBytes b 321) }).setSec { cmk := leBytes key 48, ok := [leBytes key 48] } |>.setRegs [(⟨.GLB_LC, 0, 0, 0⟩, BitVec.ofNat 64 lc), (⟨.SEC_UID, 0, 0, 0⟩, 7), (⟨.SEC_NONCE, 0, 0, 0⟩, BitVec.ofNat 64 nonce)]
theorem witness_SignedCommandsAct_1 : ∃ (s : State) (l : List Byte), (s.dev.bus.writes = []) ∧ (((s.dev.sec.running = some 1 ∧ s.dev.sec.block = l) ∨ (s.dev.sec.running = none ∧ s.dev.get HK_PWR_STAT.STATE = 0 ∧ s.dev.pwr.fwTrial = none ∧ s.dev.secKind = 1 ∧ s.dev.secCheck = 2 ∧ s.dev.secBytes = l))) :=
  ⟨run 1 [0, 1], [0, 1], by decide⟩
theorem witness_SignedCommandsAct_2 : ∃ (s : State) (l : List Byte), (s.dev.bus.writes = []) ∧ (((s.dev.sec.running = some 2 ∧ s.dev.sec.block = l) ∨ (s.dev.sec.running = none ∧ s.dev.get HK_PWR_STAT.STATE = 0 ∧ s.dev.pwr.fwTrial = none ∧ s.dev.secKind = 2 ∧ s.dev.secCheck = 2 ∧ s.dev.secBytes = l))) :=
  ⟨run 2 [0, 1], [0, 1], by decide⟩
theorem witness_SignedCommandsAct_3 : ∃ (s : State) (l : List Byte), (s.dev.bus.writes = []) ∧ (((s.dev.sec.running = some 3 ∧ s.dev.sec.block = l) ∨ (s.dev.sec.running = none ∧ s.dev.get HK_PWR_STAT.STATE = 0 ∧ s.dev.pwr.fwTrial = none ∧ s.dev.secKind = 3 ∧ s.dev.secCheck = 2 ∧ s.dev.secBytes = l))) :=
  ⟨run 3 [0, 1], [0, 1], by decide⟩
theorem witness_SignedCommandsAct_4 : ∃ (s : State) (l : List Byte), (s.dev.bus.writes = []) ∧ (((s.dev.sec.running = some 4 ∧ s.dev.sec.block = l) ∨ (s.dev.sec.running = none ∧ s.dev.get HK_PWR_STAT.STATE = 0 ∧ s.dev.pwr.fwTrial = none ∧ s.dev.secKind = 4 ∧ s.dev.secCheck = 2 ∧ s.dev.secBytes = l))) ∧ (field l 5 1 < 4) :=
  ⟨run 4 [0, 1], [0, 1], by decide⟩
theorem witness_SignedCommandsAct_5 : ∃ (s : State) (l : List Byte), (s.dev.bus.writes = []) ∧ (((s.dev.sec.running = some 6 ∧ s.dev.sec.block = l) ∨ (s.dev.sec.running = none ∧ s.dev.get HK_PWR_STAT.STATE = 0 ∧ s.dev.pwr.fwTrial = none ∧ s.dev.secKind = 6 ∧ s.dev.secCheck = 2 ∧ s.dev.secBytes = l))) :=
  ⟨run 6 [0, 1], [0, 1], by decide⟩
theorem witness_SignedCommandsAct_6 : ∃ (s : State), (s.dev.bus.writes = []) ∧ (s.dev.sec.running = none) ∧ (s.dev.get HK_PWR_STAT.STATE = 0) ∧ (s.dev.pwr.fwTrial = none) ∧ (s.dev.secKind = 5) ∧ (s.dev.secCheck = 2) :=
  ⟨st (blk dbgBlock dbgKey 4 2), by decide +kernel⟩
theorem witness_SignedCommandsAct_7 : ∃ (s : State) (r : Nat), (s.dev.bus.writes = []) ∧ (s.dev.sec.running = none) ∧ (s.dev.get HK_PWR_STAT.STATE = 0) ∧ (s.dev.pwr.fwTrial = none) ∧ (s.dev.secKind = 5) ∧ (s.dev.secCheck = r) ∧ (r ≠ 2) :=
  ⟨kind5 {}, 4, by decide +kernel⟩
theorem witness_SignedCommandsAct_8 : ∃ (s : State) (k : Nat), (s.dev.bus.writes = []) ∧ (s.dev.sec.running = some k) ∧ (s.dev.secKind = 5) :=
  ⟨kind5 { running := some 3 }, 3, by decide +kernel⟩
end W36

namespace W37
def st (x : Security) : State := ⟨(({} : Dev).setSec x).setLink { up := true }, []⟩
theorem witness_SpdmCommandsAct_1 : ∃ (s : State), (s.dev.bus.writes = []) ∧ (s.dev.link.up = true) :=
  ⟨st {}, by decide⟩
theorem witness_SpdmCommandsAct_2 : ∃ (s : State), (s.dev.bus.writes = []) ∧ (s.dev.link.up = true) ∧ (1 ≤ s.dev.sec.agreed) :=
  ⟨st { agreed := 1 }, by decide⟩
theorem witness_SpdmCommandsAct_3 : ∃ (s : State), (s.dev.bus.writes = []) ∧ (s.dev.link.up = true) ∧ (2 ≤ s.dev.sec.agreed) :=
  ⟨st { agreed := 2 }, by decide⟩
theorem witness_SpdmCommandsAct_4 : ∃ (s : State) (slot : Fin 8), (s.dev.bus.writes = []) ∧ (s.dev.link.up = true) ∧ (3 ≤ s.dev.sec.agreed) ∧ (slot.val < 2) :=
  ⟨st { agreed := 3 }, 1, by decide⟩
theorem witness_SpdmCommandsAct_5 : ∃ (s : State), (s.dev.bus.writes = []) ∧ (s.dev.link.up = true) ∧ (3 ≤ s.dev.sec.agreed) :=
  ⟨st { agreed := 3, meas := [(4, 77)] }, by decide⟩
theorem witness_SpdmCommandsAct_6 : ∃ (s : State) (ses : Fin 2), (s.dev.bus.writes = []) ∧ (s.dev.link.up = true) ∧ (3 ≤ s.dev.sec.agreed) ∧ ((s.dev.sec.session.get ses).state = 0) ∧ ((∀ o : Fin 2, o.val < ses.val → (s.dev.sec.session.get o).state ≠ 0)) :=
  ⟨st { agreed := 3, session := [(0, { state := 2 })] }, 1, by decide⟩
theorem witness_SpdmCommandsAct_7 : ∃ (s : State), (s.dev.bus.writes = []) ∧ (s.dev.link.up = true) ∧ (3 ≤ s.dev.sec.agreed) ∧ ((∀ o : Fin 2, (s.dev.sec.session.get o).state ≠ 0)) :=
  ⟨st { agreed := 3, session := [(0, { state := 1 }), (1, { state := 2 })] }, by decide⟩
theorem witness_SpdmCommandsAct_8 : ∃ (s : State) (ses : Fin 2), (s.dev.bus.writes = []) ∧ (s.dev.link.up = true) ∧ (3 ≤ s.dev.sec.agreed) ∧ ((s.dev.sec.session.get ses).state = 1) :=
  ⟨st { agreed := 3, session := [(1, { state := 1 })] }, 1, by decide⟩
theorem witness_SpdmCommandsAct_9 : ∃ (s : State) (ses : Fin 2), (s.dev.bus.writes = []) ∧ (s.dev.link.up = true) ∧ (3 ≤ s.dev.sec.agreed) ∧ ((s.dev.sec.session.get ses).state = 2) :=
  ⟨st { agreed := 3, session := [(0, { state := 2 })], ide := [(1, { state := 1, key := 5 })] }, 0, by decide⟩
theorem witness_SpdmCommandsAct_10 : ∃ (s : State) (ses : Fin 2), (s.dev.bus.writes = []) ∧ (s.dev.link.up = true) ∧ ((s.dev.sec.session.get ses).state ≠ 2) :=
  ⟨st {}, 1, by decide⟩
theorem witness_SpdmCommandsAct_11 : ∃ (s : State) (stream : Fin 2), (s.dev.bus.writes = []) ∧ ((s.dev.sec.ide.get stream).state = 2) :=
  ⟨st { ide := [(1, { state := 2, key := 5 })] }, 1, by decide⟩
end W37

namespace W38
def st (d : Dev) : State := ⟨d, []⟩
theorem witness_RefOutFollowsTheLock_3 : ∃ (s : State), (s.dev.bus.writes = []) ∧ (s.dev.hostMode = 1) :=
  ⟨st ({} : Dev), by decide⟩
end W38

namespace W39
def st (d : Dev) : State := ⟨d, []⟩
theorem witness_FrameWritesApplyInOrder_2 : ∃ (m : Fin 16) (n : Fin 16), (m.val < n.val) :=
  ⟨0, 1, by decide⟩
theorem witness_FrameWritesApplyInOrder_3 : ∃ (s : State), (s.dev.bus.writes = []) ∧ (s.dev.hostMode = 1) :=
  ⟨st {}, by decide⟩
theorem witness_FrameWritesApplyInOrder_4 : ∃ (s : State) (n : Fin 4) (b : Bool), (s.dev.bus.writes = []) ∧ (s.dev.hostMode = 1) ∧ (s.dev.flag CV_SCTL.EN n = b) :=
  ⟨st {}, 2, false, by decide⟩
end W39

namespace W40

theorem witness_ReadsLeaveTheRestUnchanged_1 : ∃ t : State,
    State.reset.dev.hasWritten .host = false ∧ exec (.lowHalfRead .host 0x510000) State.reset = .next t := ⟨_, rfl, rfl⟩
theorem witness_ReadsLeaveTheRestUnchanged_2 : ∃ t : State,
    State.reset.dev.hasWritten .host = false ∧ exec (.tbNow0Read .host) State.reset = .next t := ⟨_, rfl, rfl⟩
theorem witness_ReadsLeaveTheRestUnchanged_3 : ∃ t : State,
    State.reset.dev.hasWritten .host = false ∧ exec (.rcRead .host 0x10 0) State.reset = .next t := ⟨_, rfl, rfl⟩
theorem witness_ReadsLeaveTheRestUnchanged_4 : ∃ t : State,
    State.reset.dev.hasWritten .host = false ∧ exec (.bar0UnmappedAccess false 0x40 false 0) State.reset = .next t :=
  ⟨_, rfl, rfl⟩
end W40

end Sys2Proof.Tests
end

/-! ## The canonical form of registers and memories (00_scope.md R15; 01_engine_at_a_glance.md R33)

Every operation keeps what is closed under changes of the module's parts and writes of its registers, and the canonical forms
are closed so (Laws/Canonical.lean). -/

namespace Sys2Proof.Machine

/-- What every command keeps, a step keeps. -/
theorem step_ind {P : Dev → Prop} (hP : Closed P 0x1ffffffff 0xffffffffffffffffffffffffffffffffffffffffffffffffffffffffffffffffffffffffffffffffffffffffffffffffffffff)
    {s s' : State} (h : step s = .next s') (hs : P s.dev) : P s'.dev := by
  obtain ⟨d, _ | ⟨c, rest⟩⟩ := s
  · cases h
    exact Dev.idle_ind (hP.mono (by decide) (by decide)) hs
  · exact exec_ind hP h hs

/-- A key of a canonical table reads as an unlisted one, or as an entry that the table allows. -/
theorem Sparse.get_of_wf {κ α : Type} [DecidableEq κ] {lt : κ → κ → Bool} {ok : κ → α → Bool} {l : List (κ × α)}
    (h : Sparse.wf lt ok l = true) (dflt : α) (k : κ) : Sparse.get dflt k l = dflt ∨ ok k (Sparse.get dflt k l) = true := by
  induction l with
  | nil => exact Or.inl rfl
  | cons e t ih =>
    obtain ⟨k', v⟩ := e
    simp only [Sparse.wf, Bool.and_eq_true] at h
    obtain ⟨⟨hv, -⟩, ht⟩ := h
    rw [Sparse.get]
    split
    · next e => exact Or.inr (e ▸ hv)
    · exact ih ht

/-- In canonical form a register holds no bit that its map does not give it (R15). -/
theorem Dev.rd_masked {d : Dev} (h : d.regsWf = true) (r : Reg) : d.rd r &&& r.mask = d.rd r := by
  obtain hr | hr := Sparse.get_of_wf h r.reset r
  · rw [Dev.rd, hr, Reg.reset_masked]
  · rw [regEntryOk, Bool.and_eq_true, beq_iff_eq] at hr
    exact hr.2

theorem Dev.rd_reserved {d : Dev} (h : d.regsWf = true) (r : Reg) : d.rd r &&& ~~~ r.mask = 0 := by
  rw [← Dev.rd_masked h r, BitVec.and_assoc, BitVec.and_not_self]
  exact BitVec.and_zero

/-- Settles O4: every table is empty at reset. -/
theorem canonicalAtReset : Obligations.CanonicalAtReset := ⟨rfl, rfl⟩

/-- Settles O5: both canonical forms are closed under every change that a command makes. -/
theorem everyStepKeepsTheCanonicalForm : Obligations.EveryStepKeepsTheCanonicalForm := fun _ _ hr hm h =>
  ⟨step_ind (closed_regsWf _ _) h hr, step_ind (closed_memoriesWf _ _) h hm⟩

/-- Settles O6: a step keeps the canonical form, in which no register holds a reserved bit. -/
theorem reservedBitsStayZero : Obligations.ReservedBitsStayZero := fun _ _ hr h =>
  Dev.rd_reserved (step_ind (closed_regsWf _ _) h hr)

end Sys2Proof.Machine

/-! ## What a read of BAR0 leaves unchanged (00_scope.md R14, R18; 01_engine_at_a_glance.md R36; 04_time_base.md R110) -/

namespace Sys2Proof.Machine

/-! ### What a 4-byte read reaches -/

/-- No event-input register is wide, so that a read of a low half brings none up to date. -/
theorem Dev.eviSettle_of_wide {d : Dev} {r : Reg} (h : r.g.fam.wide = true) : d.eviSettle r = d := by
  unfold Dev.eviSettle
  split
  case h_8 => rfl
  all_goals
    rename_i hg
    rw [hg] at h
    exact absurd h (by decide)

theorem Dev.eviSettle_of_timeWord {d : Dev} {r : Reg} (h : (r.timeWord 0).isSome = true) : d.eviSettle r = d := by
  unfold Dev.eviSettle
  split
  case h_8 => rfl
  all_goals
    rename_i hg
    simp [Reg.timeWord, hg] at h

theorem Reg.timeWord_of_wide {r : Reg} (h : r.g.fam.wide = true) (w : Nat) : r.timeWord w = none := by
  unfold Reg.timeWord
  split
  case h_8 => rfl
  all_goals
    rename_i hg
    rw [hg] at h
    exact absurd h (by decide)

section
variable {d : Dev} {addr : Nat} {r : Reg}

theorem Dev.isLow_iff : d.isLow addr = true ↔ ∃ r, d.place addr = .reg r ∧ r.g.fam.wide = true := by
  rw [Dev.isLow]
  split
  · next r hp => simp [hp]
  · next hp => simpa using fun r hr => absurd hr (hp r)

theorem Dev.isHigh_iff : d.isHigh addr = true ↔ ∃ r, d.place addr = .high r := by
  rw [Dev.isHigh]
  split
  · next r hp => simp [hp]
  · next hp => simpa using fun r hr => absurd hr (hp r)

theorem Dev.read32_low (rq : Rq) (hp : d.place addr = .reg r) (hw : r.g.fam.wide = true) :
    d.read32 rq addr = some ((d.view r).setWidth 32, d.snap rq r ((d.view r >>> 32).setWidth 32)) := by
  rw [Dev.read32, hp]
  simp [Dev.eviSettle_of_wide hw, Reg.timeWord_of_wide hw, hw]

theorem Dev.read32_high (rq : Rq) (hp : d.place addr = .high r) :
    d.read32 rq addr = some (d.snapRead rq r ((d.view r >>> 32).setWidth 32)) := by
  rw [Dev.read32, hp]

theorem Dev.read32_timeWord (rq : Rq) (hp : d.place addr = .reg r) (ht : (r.timeWord 0).isSome = true) :
    d.read32 rq addr = some (d.timeRead rq r) := by
  rw [Dev.read32, hp]
  simp [Dev.eviSettle_of_timeWord ht, ht]

/-- A read of an upper word of a TIME128 group gives its snapshot. -/
theorem Dev.timeRead_upper (rq : Rq) (h : r.timeWord 0 ≠ some r) :
    d.timeRead rq r = d.snapRead rq r ((d.view r).setWidth 32) := by
  rw [Dev.timeRead, if_neg h]

end

/-! ### Frames of reads -/

theorem Part.same_trans {p : Part} {a b c : Dev} (h : p.same a b) (h' : p.same b c) : p.same a c := by
  cases p with
  | benchMemory => exact ⟨h'.1.trans h.1, h'.2.trans h.2⟩
  | tally | needles | bench | queues | raster => exact Eq.trans h' (by rw [show _ = _ from h])
  | _ => exact Eq.trans h' h

theorem Dev.frame_trans {ps : List Part} {l : List Rg} {a b c : Dev} (h : Dev.frame ps l a b) (h' : Dev.frame ps l b c) :
    Dev.frame ps l a c :=
  ⟨fun p hp => Part.same_trans (h.1 p hp) (h'.1 p hp), Dev.keepsRegs_trans h.2 h'.2⟩

theorem Dev.frame_mono {ps ps' : List Part} {l l' : List Rg} {a b : Dev} (h : Dev.frame ps l a b) (hp : ps ⊆ ps')
    (hl : l ⊆ l') : Dev.frame ps' l' a b :=
  ⟨fun p hn => h.1 p fun m => hn (hp m), fun r hn => h.2 r fun m => hn (hl m)⟩

theorem Dev.wr_frame (d : Dev) (r : Reg) (v : W64) : Dev.frame [] [r.g] d (d.wr r v) :=
  (closed_frame [] [r.g] d).wr d r v (by simp [famMask, testBit_maskOf]) (Dev.frame_refl _ _ _)

theorem Dev.setBus_frame (d : Dev) (x : BusState) : Dev.frame [.bus] [] d (d.setBus x) :=
  (closed_frame [.bus] [] d).bus (by decide) d x (fun h => absurd h (by decide)) (Dev.frame_refl _ _ _)

theorem Dev.snapRead_frame (d : Dev) (rq : Rq) (r : Reg) (live : W32) :
    Dev.frame [.bus] [] d (d.snapRead rq r live).2 :=
  Dev.frame_of_ind (fun hP h => Dev.snapRead_ind hP h) (by decide) (by decide)

theorem Dev.timeRead_frame (d : Dev) (rq : Rq) (r : Reg) : Dev.frame [.bus, .timeBase] [] d (d.timeRead rq r).2 :=
  Dev.frame_of_ind (fun hP h => Dev.timeRead_ind hP h) (by decide) (by decide)

/-- The families of the counters of accesses to what is not mapped (R36, R431). -/
abbrev countFams : List Rg := [.GLB_ACC_ERR, .GLB_CNT_SAT, .HK_CNT_SLEEPACC]

section
variable {ps : List Part} {l : List Rg} {d : Dev} {rq : Rq} {addr size : Nat}

/-- A 4-byte read changes what it changes at a mapped offset, or counts. -/
theorem Dev.readOr0_frame_of (hl : countFams ⊆ l) (hx : ∀ x, d.read32 rq addr = some x → Dev.frame ps l d x.2) :
    Dev.frame ps l d (d.readOr0 rq addr).2 := by
  unfold Dev.readOr0
  cases hr : d.read32 rq addr with
  | none =>
    exact ite_ind (Dev.frame_mono d.countUnmapped_frame (List.nil_subset _) (List.Subset.trans (by decide) hl))
      (Dev.frame_refl _ _ _)
  | some x => exact hx x hr

/-- A read of a requester changes what its 4-byte or 8-byte form changes, and the read data, or counts. -/
theorem Dev.readEff_frame_of (hb : Part.bus ∈ ps) (hl : countFams ⊆ l) (h4 : Dev.frame ps l d (d.readOr0 rq addr).2)
    (h8 : size = 8 → Dev.frame ps l d (d.read64 rq addr).2) : Dev.frame ps l d (d.readEff rq addr size) := by
  have go : Dev.frame ps l d
      (if size = 8 then d.read64 rq addr else ((d.readOr0 rq addr).1.setWidth 64, (d.readOr0 rq addr).2)).2 := by
    split
    · next hs => exact h8 hs
    · exact h4
  have host : Dev.frame ps l d (d.hostRead rq addr size).2 := by
    unfold Dev.hostRead
    dsimp only
    split
    · exact Dev.frame_refl _ _ _
    · exact go
    · exact ite_snd go (Dev.frame_mono (d.countAsleep_frame _) (List.nil_subset _) hl)
  exact Dev.frame_trans (ite_snd host go) (Dev.frame_mono (Dev.setBus_frame _ _) (by simpa using hb) (List.nil_subset _))

theorem Dev.readEff_four_frame (hb : Part.bus ∈ ps) (hl : countFams ⊆ l)
    (hx : ∀ x, d.read32 rq addr = some x → Dev.frame ps l d x.2) : Dev.frame ps l d (d.readEff rq addr 4) :=
  Dev.readEff_frame_of hb hl (Dev.readOr0_frame_of hl hx) (fun h => absurd h (by decide))

end

/-! ### Reads of halves and of the words of a TIME128 -/

theorem Dev.lowHalfReadEff_frame (rq : Rq) (addr : Nat) (d : Dev) :
    Dev.frame [.bus] countFams d (d.lowHalfReadEff rq addr) := by
  rw [Dev.lowHalfReadEff]
  split
  · next hl =>
    obtain ⟨r, hp, hw⟩ := Dev.isLow_iff.1 hl
    refine Dev.readEff_four_frame (by decide) (List.Subset.refl _) fun x hx => ?_
    rw [Dev.read32_low rq hp hw, Option.some_inj] at hx
    exact hx ▸ Dev.frame_mono (d.snap_frame rq r _) (by decide) (List.nil_subset _)
  · exact Dev.frame_refl _ _ _

theorem Dev.highHalfReadEff_frame (rq : Rq) (addr : Nat) (d : Dev) :
    Dev.frame [.bus] countFams d (d.highHalfReadEff rq addr) := by
  rw [Dev.highHalfReadEff]
  split
  · next hh =>
    obtain ⟨r, hp⟩ := Dev.isHigh_iff.1 hh
    refine Dev.readEff_four_frame (by decide) (List.Subset.refl _) fun x hx => ?_
    rw [Dev.read32_high rq hp, Option.some_inj] at hx
    exact hx ▸ Dev.frame_mono (d.snapRead_frame rq r _) (by decide) (List.nil_subset _)
  · exact Dev.frame_refl _ _ _

theorem Dev.snapshotWordReadEff_frame (rq : Rq) (addr : Nat) (d : Dev) :
    Dev.frame [.bus] countFams d (d.snapshotWordReadEff rq addr) := by
  rw [Dev.snapshotWordReadEff]
  split
  · next r hp =>
    split
    · next hw =>
      obtain ⟨ht, hu⟩ : (r.timeWord 0).isSome = true ∧ r.timeWord 0 ≠ some r := by simpa using hw
      refine Dev.readEff_four_frame (by decide) (List.Subset.refl _) fun x hx => ?_
      rw [Dev.read32_timeWord rq hp ht, Option.some_inj, Dev.timeRead_upper rq hu] at hx
      exact hx ▸ Dev.frame_mono (d.snapRead_frame rq r _) (by decide) (List.nil_subset _)
    · exact Dev.frame_refl _ _ _
  · exact Dev.frame_refl _ _ _

theorem Dev.place_tbNow0 (d : Dev) : d.place 0x200010 = .reg ⟨.TB_NOW, 0, 0, 0⟩ := by
  have : regAt 0x200010 = some (⟨.TB_NOW, 0, 0, 0⟩, false) := by decide
  rw [Dev.place, this]

theorem Dev.tbNow0ReadEff_frame (rq : Rq) (d : Dev) :
    Dev.frame [.bus, .timeBase] countFams d (d.tbNow0ReadEff rq) := by
  refine Dev.readEff_four_frame (by decide) (List.Subset.refl _) fun x hx => ?_
  rw [Dev.read32_timeWord rq d.place_tbNow0 rfl, Option.some_inj] at hx
  exact hx ▸ Dev.frame_mono (d.timeRead_frame rq _) (by decide) (List.nil_subset _)

/-! ### Reads of any register -/

/-- The families with an RC field. -/
def rcFams : List Rg := ((List.range 408).map Rg.ofNat).filter fun g => g.fam.bits (· == .rc) != 0

theorem mem_rcFams {g : Rg} : g ∈ rcFams ↔ g.fam.bits (· == .rc) ≠ 0 := by
  have hg : g ∈ (List.range 408).map Rg.ofNat :=
    List.mem_map.2 ⟨g.ctorIdx, List.mem_range.2 g.ctorIdx_lt, Rg.ofNat_ctorIdx g⟩
  simp [rcFams, hg]

/-- The families without an RC field in which a read can change a register: the counters of accesses to what is not mapped and
the event-input registers that a read brings up to date. -/
abbrev settledFams : List Rg :=
  [.GLB_CNT_SAT, .HK_CNT_SLEEPACC, .EVI_ISTAT, .EVI_CNT_NOCLK, .EVI_IU_STAT, .EVI_IU_CNT_EARLY, .EVI_IU_CNT_LOST,
   .EVI_IU_CNT_DROP, .EVI_IU_CNT_RES, .GLB_ACC_ERR]

/-- The parts that a read can change. -/
abbrev readParts : List Part := [.bus, .timeBase, .eventInputs, .events]

abbrev Dev.readFrame (d d' : Dev) : Prop := Dev.frame readParts (rcFams ++ settledFams) d d'

section
variable {ps : List Part} {d d' : Dev} {r : Reg}

/-- A change of parts that a read can change, and of counters of accesses and event-input registers alone. -/
theorem Dev.readFrame_of {l : List Rg} (h : Dev.frame ps l d d') (hp : ps ⊆ readParts) (hl : l ⊆ settledFams) :
    d.readFrame d' := Dev.frame_mono h hp (List.subset_append_of_subset_right _ hl)

/-- A write of a register with RC fields. -/
theorem Dev.readFrame_wr (hr : r.g.fam.bits (· == .rc) ≠ 0) (v : W64) : d.readFrame (d.wr r v) :=
  Dev.frame_mono (d.wr_frame r v) (List.nil_subset _)
    (List.cons_subset.2 ⟨List.mem_append_left _ (mem_rcFams.2 hr), List.nil_subset _⟩)

theorem Dev.readFrame_rcClear : d.readFrame (d.rcClear r) := by
  rw [Dev.rcClear]
  split
  · exact Dev.frame_refl _ _ _
  · next hm => exact Dev.readFrame_wr hm _

theorem Dev.readFrame_eviSettle : d.readFrame (d.eviSettle r) :=
  Dev.readFrame_of (d.eviSettle_frame r) (by decide) (by decide)

theorem Dev.readFrame_read32 (rq : Rq) (addr : Nat) (x : W32 × Dev) (hx : d.read32 rq addr = some x) :
    d.readFrame x.2 := by
  unfold Dev.read32 at hx
  split at hx
  case h_1 r _ =>
    dsimp only at hx
    have hs : d.readFrame (d.eviSettle r) := Dev.readFrame_eviSettle
    split at hx
    · cases hx
      exact Dev.frame_trans hs (Dev.readFrame_of (Dev.timeRead_frame _ _ _) (by decide) (List.nil_subset _))
    · split at hx
      · cases hx
        exact Dev.frame_trans hs (Dev.readFrame_of (Dev.snap_frame _ _ _ _) (by decide) (List.nil_subset _))
      · cases hx
        exact Dev.frame_trans hs Dev.readFrame_rcClear
  case h_2 =>
    cases hx
    exact Dev.readFrame_of (Dev.snapRead_frame _ _ _ _) (by decide) (List.nil_subset _)
  case h_6 => cases hx
  all_goals
    cases hx
    exact Dev.frame_refl _ _ _

theorem countFams_subset : countFams ⊆ rcFams ++ settledFams := List.subset_append_of_subset_right _ (by decide)

theorem Dev.readFrame_readOr0 (rq : Rq) (addr : Nat) : d.readFrame (d.readOr0 rq addr).2 :=
  Dev.readOr0_frame_of countFams_subset (Dev.readFrame_read32 rq addr)

theorem Dev.readFrame_read64 (rq : Rq) (addr : Nat) : d.readFrame (d.read64 rq addr).2 := by
  unfold Dev.read64
  split
  · exact Dev.frame_refl _ _ _
  · dsimp only
    split
    · exact Dev.readFrame_eviSettle
    · exact Dev.frame_trans (Dev.readFrame_readOr0 rq addr) (Dev.readFrame_readOr0 rq (addr + 4))

theorem Dev.readFrame_readEff (rq : Rq) (addr size : Nat) : d.readFrame (d.readEff rq addr size) :=
  Dev.readEff_frame_of (by decide) countFams_subset (Dev.readFrame_readOr0 rq addr) fun _ => Dev.readFrame_read64 rq addr

theorem Dev.readFrame_rcReadEff (rq : Rq) (addr : Nat) (inc : W64) (d : Dev) : d.readFrame (d.rcReadEff rq addr inc) := by
  unfold Dev.rcReadEff
  split
  · next r _ =>
    dsimp only
    split
    · exact Dev.frame_refl _ _ _
    · next hm =>
      exact ite_ind (Dev.frame_trans (Dev.readFrame_readEff rq addr 4) (Dev.readFrame_wr hm _))
        (Dev.readFrame_readEff rq addr 4)
  · exact Dev.frame_refl _ _ _

theorem Dev.readFrame_unmappedEff (addr : Nat) (wide : Bool) (data : W64) (d : Dev) :
    d.readFrame (d.unmappedEff false addr wide data) :=
  ite_ind (Dev.frame_refl _ _ _) (Dev.readFrame_readEff .host addr _)

end

theorem Dev.any_hasWritten_one {d : Dev} {rq : Rq} (h : d.hasWritten rq = false) : [rq].any d.hasWritten = false := by
  simp [h]

/-- What a read of any register leaves as it was. -/
theorem State.kept_of_readFrame {s t : State} (h : s.onlyJoins t readParts (rcFams ++ settledFams)) :
    t.pending = s.pending ∧ (∀ p : Part, p ∉ readParts → p.same s.dev t.dev)
      ∧ ∀ r : Reg, r.g.fam.bits (· == .rc) = 0 → r.g ∉ settledFams → t.dev.rd r = s.dev.rd r := by
  obtain ⟨hpend, hparts, hregs⟩ := h
  exact ⟨hpend, hparts, fun r hr hn => hregs r fun hm =>
    (List.mem_append.1 hm).elim (fun hrc => mem_rcFams.1 hrc hr) hn⟩

/-- Settles O58: an access that joins its frame changes what its read changes, and a read changes the requester's snapshots,
what an event-input register shows, RC fields, and the counters of accesses to what is not mapped. -/
theorem readsLeaveTheRestUnchanged : Obligations.ReadsLeaveTheRestUnchanged := by
  intro s t rq addr hw
  have hrq := Dev.any_hasWritten_one hw
  refine ⟨?_, fun h => ?_, fun inc h => ?_, fun wide data hhost h => ?_⟩
  · rintro (h | h | h)
    · exact access_frame h hrq (Dev.lowHalfReadEff_frame rq addr)
    · exact access_frame h hrq (Dev.highHalfReadEff_frame rq addr)
    · exact access_frame h hrq (Dev.snapshotWordReadEff_frame rq addr)
  · exact access_frame h hrq (Dev.tbNow0ReadEff_frame rq)
  · exact State.kept_of_readFrame (access_frame h hrq (Dev.readFrame_rcReadEff rq addr inc))
  · exact State.kept_of_readFrame
      (access_frame h (Dev.any_hasWritten_one hhost) (Dev.readFrame_unmappedEff addr wide data))

end Sys2Proof.Machine

/-! ## A clear of a flag that the hardware has set in the same frame (00_scope.md R14)

"A hardware set wins over the clear": the model keeps such a bit (Dev.freshBits). O42 lets the host write EVI_ISTAT, which has
W1C flags, in any state without waiting writes, also in one in whose frame a flag has just risen, and gives the value as if the
clear always took effect. -/

namespace Sys2Proof.Machine

/-- A module in whose present frame the hardware has set EVI_ISTAT.DROP of input 0. -/
def dropRisen : State := ⟨({} : Dev).setFlag EVI_ISTAT.DROP 0, []⟩

/-- The host writes 1, which clears DROP, to EVI_ISTAT of input 0. -/
def clearOfDrop : BusWr := ⟨.host, 0x810008, 4, (1 : W32).setWidth 64⟩

theorem regAt_evi_istat : regAt 0x810008 = some (⟨.EVI_ISTAT, 0, 0, 0⟩, false) := by decide

theorem registerWrite_clearOfDrop :
    exec (.registerWrite [clearOfDrop]) dropRisen = .next ⟨dropRisen.dev.written (.bus clearOfDrop), []⟩ := rfl

theorem dropRisen_istat : dropRisen.dev.rd ⟨.EVI_ISTAT, 0, 0, 0⟩ = 0x21 := by decide

/-- DROP, bit 0, is still set when the frame has ended. -/
theorem istat_after_clearOfDrop :
    (dropRisen.dev.written (.bus clearOfDrop)).frameEnd.rd ⟨.EVI_ISTAT, 0, 0, 0⟩ = 0x21 := by decide +kernel

theorem istat_coded_clear :
    Reg.coded ⟨.EVI_ISTAT, 0, 0, 0⟩ 0x21 ((1 : W32).setWidth 64) &&& Reg.mask ⟨.EVI_ISTAT, 0, 0, 0⟩ = 0x20 := by decide

/-- Refutes O42: DROP of input 0 rises in the frame in which the host writes its clear; it stays set (R14), where the
statement, which does not ask for a frame in which no flag has risen, has it cleared. -/
theorem not_barAccessesAct : ¬ Obligations.BarAccessesAct := by
  intro h
  obtain ⟨hplain, -⟩ := h dropRisen 0x810008 rfl
  obtain ⟨t, ht, -, -, -, hrd, -⟩ :=
    hplain 1 (⟨.EVI_ISTAT, 0, 0, 0⟩, false) regAt_evi_istat (by decide) (by decide) rfl (by decide)
  injection registerWrite_clearOfDrop.symm.trans ht with hst
  rw [← hst, istat_after_clearOfDrop, dropRisen_istat, istat_coded_clear] at hrd
  exact absurd hrd (by decide)

end Sys2Proof.Machine

/-! ## How a step meets the clock and the frame (01_engine_at_a_glance.md R29, R38, R494) -/

namespace Sys2Proof.Machine

/-- A clock that has reached a frame does not fall behind it again. -/
theorem closed_clock (n c g : Nat) : Closed (fun d => n ≤ d.now) c g := by
  constructor
  case now => exact fun _ _ _ hx hn => Nat.le_trans hn hx
  all_goals intros; assumption

/-- Settles O8: wherever an operation sets the clock, it sets it forward. -/
theorem theClockNeverRunsBack : Obligations.TheClockNeverRunsBack := fun s _ h =>
  step_ind (closed_clock s.dev.now _ _) h (Nat.le_refl _)

/-- A frame without writes passes when nothing is commanded (log entry 1). -/
theorem step_quiet {d : Dev} (h : d.bus.writes = []) : step ⟨d, []⟩ = .next ⟨d.advanceTo (d.now + 1), []⟩ := by
  rw [step_empty, Dev.idle_of_empty h]

theorem Dev.idle_of_writes {d : Dev} (h : d.bus.writes ≠ []) : d.idle = d.frameEnd := by
  rw [Dev.idle, if_neg (by simpa using h)]

/-- Settles O1: by the queue, empty or not, and by the writes that the frame holds. -/
theorem stepRunsTheFrontCommand : Obligations.StepRunsTheFrontCommand :=
  ⟨step_front, fun _ h => step_quiet h, fun d h => by rw [step_empty, Dev.idle_of_writes h]⟩

/-! ### The end of a frame -/

theorem Dev.now_lt_frameEnd {d : Dev} (h : d.bus.writes ≠ []) : d.now < d.frameEnd.now := by
  rw [Dev.frameEnd_of_writes h, Dev.advanceTo_now]
  omega

/-- A frame that has ended holds no writes that could end it again. -/
theorem Dev.frameEnd_frameEnd (d : Dev) : d.frameEnd.frameEnd = d.frameEnd :=
  Dev.frameEnd_of_empty d.frameEnd_writes

theorem State.row_frameEnd (s : State) (f : Dev → Dev) : s.row f = State.row { s with dev := s.dev.frameEnd } f := by
  rw [State.row_next, State.row_next, Dev.frameEnd_frameEnd]

theorem State.rowLast_frameEnd (s : State) (f : Dev → Dev) :
    s.rowLast f = State.rowLast { s with dev := s.dev.frameEnd } f := s.row_frameEnd _

theorem execSampleFrame_frameEnd (n : Fin 4) (codes : List (BitVec 10)) (s : State) :
    execSampleFrame n codes s = execSampleFrame n codes { s with dev := s.dev.frameEnd } := by
  unfold execSampleFrame
  split
  · exact s.row_frameEnd _
  · rfl

/-- A command that is no access ends its frame before it acts. -/
theorem exec_frameEnd (s : State) {c : Instr} (h : joinsFrame c = false) :
    exec c s = exec c { s with dev := s.dev.frameEnd } := by
  cases c
  case sampleFrame n codes => exact execSampleFrame_frameEnd n codes s
  case sliceDisable | skeinDefine | needleGo | queueEnable | queIntWrite | testSessionStart => exact s.rowLast_frameEnd _
  case registerWrite | lowHalfWrite | highHalfWrite | bar0UnmappedAccess | bar0BadsizeAccess | lowHalfRead | highHalfRead
    | rcRead | tbNow0Read | snapshotWordRead | commandNop | commandWrite | commandRead | commandWriteAt | fieldWriteApply
    | fieldReadServe | reportApply => cases h
  case tableCommitSub n tim => exact s.row_frameEnd fun d => d.tableCommit n.val true tim
  case tableCommitTim n => exact s.row_frameEnd fun d => d.tableCommit n.val false true
  case dropRunEnd l => exact s.row_frameEnd fun d => (d.dropRunEndEff l.val).flowUpdate
  case msixMessage v => exact s.row_frameEnd fun d => d.trySend v.val
  case wake => exact s.row_frameEnd fun d => d.wakeFrom 0
  all_goals exact s.row_frameEnd _

/-- Settles O2: the frame's end is idempotent, and every command that does not join its frame begins with it. -/
theorem commandsActOnceTheFramesWritesHaveApplied : Obligations.CommandsActOnceTheFramesWritesHaveApplied :=
  ⟨fun d => ⟨d.frameEnd_writes, Dev.frameEnd_of_empty, Dev.now_lt_frameEnd⟩, fun s _ h => exec_frameEnd s h⟩

/-! ### What the commands of the host link leave unchanged (R36, R332, R344, R360) -/

/-- Settles O16: a command leaves unchanged what its effect on the module does. -/
theorem hostLinkCommandsFrame : Obligations.HostLinkCommandsFrame := by
  intro s s'
  refine ⟨fun _ hw h => ?registerWrite, fun _ _ _ c hc hw h => ?halfWrite, fun _ _ _ hw h => ?badsize,
    fun _ h => row_frame h (Dev.holdoffExpiryEff_frame _), fun _ _ h => row_frame h (Dev.linkUpEff_frame _ _),
    fun _ _ h => row_frame h (Dev.linkChangeEff_frame _ _), fun _ _ h => row_frame h (Dev.queueAllocEff_frame _ _),
    fun _ h => row_frame h (Dev.queueFreeEff_frame _), fun _ h => rowLast_frame h (Dev.queueEnableEff_frame _),
    fun _ h => row_frame h (Dev.queueDisableEff_frame _), fun _ _ h => row_frame h (Dev.doorbellEff_frame _ _),
    fun _ _ _ h => row_frame h (Dev.commandFetchEff_frame _ _ _), fun _ h => row_frame h (Dev.queueItemWriteEff_frame _),
    fun _ h => row_frame h (Dev.interruptTimeoutEff_frame _), fun _ _ h => rowLast_frame h (Dev.queIntWriteEff_frame _ _),
    fun v h => row_frame (f := fun d => d.trySend v.val) h (Dev.trySend_frame · _), fun _ _ _ h => row_frame h (Dev.vectorUnmaskEff_frame _ _ _),
    fun _ h => row_frame h (Dev.modFrExpiryEff_frame _), fun _ _ h => row_frame h (Dev.apertureReadEff_frame _ _),
    fun _ _ h => row_frame h (Dev.apertureWriteEff_frame _ _), fun _ h => row_frame h (Dev.eventRaisedEff_frame _),
    fun h => row_frame h Dev.eventLogWriteEff_frame, fun _ h => row_frame h (Dev.xferKickEff_frame _)⟩
  case registerWrite => exact access_frame h hw (Dev.busWrites_frame _)
  case badsize => exact access_frame h (Dev.any_hasWritten_one hw) (Dev.badsizeEff_frame _ _ _)
  case halfWrite =>
    obtain rfl | rfl : c = .highHalfWrite _ _ _ ∨ c = .lowHalfWrite _ _ _ := by simpa using hc
    · exact access_frame h (Dev.any_hasWritten_one hw) (Dev.highHalfWriteEff_frame _ _ _)
    · exact access_frame h (Dev.any_hasWritten_one hw) (Dev.lowHalfWriteEff_frame _ _ _)

end Sys2Proof.Machine
/-! ## The order of a frame's writes (01_engine_at_a_glance.md R38, R494) -/

namespace Sys2Proof.Machine

/-! ### Sorting by rank -/

theorem mem_insertWrite {x z : FrameWrite} {l : List FrameWrite} : z ∈ insertWrite x l ↔ z = x ∨ z ∈ l := by
  induction l with
  | nil => simp [insertWrite]
  | cons y t ih =>
    rw [insertWrite]
    split
    · exact List.mem_cons
    · rw [List.mem_cons, List.mem_cons, ih]
      exact or_left_comm

theorem insertWrite_sorted (x : FrameWrite) {l : List FrameWrite} (h : l.Pairwise (fun a b => a.rank ≤ b.rank)) :
    (insertWrite x l).Pairwise (fun a b => a.rank ≤ b.rank) := by
  induction l with
  | nil => simp [insertWrite]
  | cons y t ih =>
    obtain ⟨hy, ht⟩ := List.pairwise_cons.1 h
    rw [insertWrite]
    split
    · next hx =>
      refine List.pairwise_cons.2 ⟨fun z hz => ?_, h⟩
      obtain rfl | hz := List.mem_cons.1 hz
      · exact Nat.le_of_lt hx
      · exact Nat.le_trans (Nat.le_of_lt hx) (hy z hz)
    · next hx =>
      refine List.pairwise_cons.2 ⟨fun z hz => ?_, ih ht⟩
      obtain rfl | hz := mem_insertWrite.1 hz
      · exact Nat.le_of_not_lt hx
      · exact hy z hz

/-- A write comes behind the ones of its rank that stand there. -/
theorem filter_insertWrite (r : Nat) (x : FrameWrite) {l : List FrameWrite}
    (h : l.Pairwise (fun a b => a.rank ≤ b.rank)) :
    (insertWrite x l).filter (fun z => z.rank == r) = (l ++ [x]).filter (fun z => z.rank == r) := by
  induction l with
  | nil => rfl
  | cons y t ih =>
    obtain ⟨hy, ht⟩ := List.pairwise_cons.1 h
    rw [insertWrite]
    split
    · next hx =>
      have behind : x.rank = r → (y :: t).filter (fun z => z.rank == r) = [] := by
        rintro rfl
        refine List.filter_eq_nil_iff.2 fun z hz => ?_
        have : y.rank ≤ z.rank := (List.mem_cons.1 hz).elim (fun e => Nat.le_of_eq (congrArg FrameWrite.rank e.symm)) (hy z)
        simp only [beq_iff_eq]
        omega
      rw [List.filter_cons, List.filter_append]
      by_cases hr : x.rank = r
      · simp [hr, behind hr]
      · simp [hr]
    · rw [List.filter_cons, ih ht, List.cons_append, List.filter_cons]

theorem sortWrites_sorted (ws : List FrameWrite) : (sortWrites ws).Pairwise (fun x y => x.rank ≤ y.rank) :=
  foldl_invariant (fun l : List FrameWrite => l.Pairwise (fun x y => x.rank ≤ y.rank)) _ ws List.Pairwise.nil
    fun _ x _ h => insertWrite_sorted x h

/-- Writes put among sorted ones come behind those of their rank, in their own order. -/
theorem filter_foldl_insertWrite (ws : List FrameWrite) (r : Nat) {l : List FrameWrite}
    (h : l.Pairwise (fun a b => a.rank ≤ b.rank)) :
    (ws.foldl (fun l x => insertWrite x l) l).filter (fun z => z.rank == r) = (l ++ ws).filter (fun z => z.rank == r) := by
  induction ws generalizing l with
  | nil => rw [List.foldl_nil, List.append_nil]
  | cons x t ih =>
    rw [List.foldl_cons, ih (insertWrite_sorted x h), List.filter_append, filter_insertWrite r x h, ← List.filter_append,
      List.append_assoc, List.singleton_append]

/-- Writes of one rank keep the order in which they came. -/
theorem sortWrites_stable (ws : List FrameWrite) (r : Nat) :
    (sortWrites ws).filter (fun x => x.rank == r) = ws.filter (fun x => x.rank == r) :=
  filter_foldl_insertWrite ws r List.Pairwise.nil

theorem rqRank_ascends (q : Fin 4096) (c : Fin 64) {m n : Fin 16} (h : m.val < n.val) :
    rqRank .host < rqRank (.cmdq q) ∧ rqRank (.cmdq q) < rqRank (.xfer c) ∧ rqRank (.xfer c) < rqRank .hk
      ∧ rqRank .hk < rqRank (.needle m) ∧ rqRank (.needle m) < rqRank (.needle n) := by
  simp only [rqRank]
  omega

/-! ### A frame with a write of the host and one of the housekeeping controller -/

theorem sortWrites_hk_host {a b : BusWr} (ha : a.rq = .hk) (hb : b.rq = .host) :
    sortWrites [.bus a, .bus b] = [.bus b, .bus a] := by
  simp [sortWrites, insertWrite, FrameWrite.rank, rqRank, ha, hb]

theorem sortWrites_host_hk {a b : BusWr} (ha : a.rq = .host) (hb : b.rq = .hk) :
    sortWrites [.bus a, .bus b] = [.bus a, .bus b] := by
  simp [sortWrites, insertWrite, FrameWrite.rank, rqRank, ha, hb]

/-- A write of BAR0 joins the writes of a frame in which its requester has not written. -/
theorem exec_registerWrite_one {s : State} {w : BusWr} (hw : s.dev.hasWritten w.rq = false) (hb : w.rq.onBus = true) :
    exec (.registerWrite [w]) s = .next { s with dev := s.dev.written (.bus w) } := by
  have hone : s.dev.busWrites [w] = s.dev.written (.bus w) := by
    obtain ⟨rq, addr, size, data⟩ := w
    cases rq with
    | needle => cases hb
    | _ => rfl
  rw [← hone]
  exact State.access_joins (f := Dev.busWrites [w]) (Dev.any_hasWritten_one hw)

theorem Dev.hasWritten_of_empty {d : Dev} (h : d.bus.writes = []) (rq : Rq) : d.hasWritten rq = false := by
  rw [Dev.hasWritten, h]
  rfl

theorem Dev.hasWritten_written {d : Dev} (h : d.bus.writes = []) (w : BusWr) (rq : Rq) :
    (d.written (.bus w)).hasWritten rq = (w.rq == rq) := by
  simp [Dev.hasWritten, Dev.written, h]

/-- Two requesters write in one frame, one after the other. -/
theorem exec_registerWrite_two {s : State} {a b : BusWr} (h : s.dev.bus.writes = []) (ha : a.rq.onBus = true)
    (hb : b.rq.onBus = true) (hab : a.rq ≠ b.rq) :
    exec (.registerWrite [a]) s = .next { s with dev := s.dev.written (.bus a) }
      ∧ exec (.registerWrite [b]) { s with dev := s.dev.written (.bus a) }
        = .next { s with dev := (s.dev.written (.bus a)).written (.bus b) } :=
  ⟨exec_registerWrite_one (Dev.hasWritten_of_empty h _) ha,
    exec_registerWrite_one (s := { s with dev := s.dev.written (.bus a) })
      (by rw [Dev.hasWritten_written h, beq_eq_false_iff_ne]; exact hab) hb⟩

/-- The end of a frame of two writes: they apply in their order, and the next frame begins. -/
theorem Dev.frameEnd_written_two {d : Dev} (h : d.bus.writes = []) (x y : FrameWrite) :
    ((d.written x).written y).frameEnd
      = (((sortWrites [x, y]).foldl WriteRun.apply { d := d }).finish).advanceTo (d.now + 1) := by
  have hw : ((d.written x).written y).bus.writes = [x, y] := by simp [Dev.written, h]
  have hd : ((d.written x).written y).setBus { ((d.written x).written y).bus with writes := [] } = d := by
    obtain ⟨_, _, _, ⟨_, _, writes, _, _⟩⟩ := d
    cases h
    rfl
  rw [Dev.frameEnd_of_writes (by simp [hw]), Dev.flush, hd, hw]
  rfl

/-! ### A write of a 32-bit register -/

section
variable {w : WriteRun} {rq : Rq} {r : Reg} {addr : Nat}

theorem Dev.place_of_regAt (d : Dev) (h : regAt addr = some (r, false)) : d.place addr = .reg r := by
  rw [Dev.place, h]

theorem WriteRun.writeOrCount_reg (h : regAt addr = some (r, false)) (hw : r.g.fam.wide = false) (v : W32) :
    w.writeOrCount rq addr v = w.regFor rq r (v.setWidth 64) := by
  simp [WriteRun.writeOrCount, WriteRun.write32, Dev.place_of_regAt _ h, hw]

/-- A 4-byte write reaches the register at its offset, from the host while BAR0 is in full operation. -/
theorem WriteRun.one_reg (h : regAt addr = some (r, false)) (hw : r.g.fam.wide = false) (ha : addr % 4 = 0)
    (hm : hostLike rq = true → w.d.hostMode = 1) (v : W64) :
    w.one ⟨rq, addr, 4, v⟩ = w.regFor rq r ((v.setWidth 32).setWidth 64) := by
  have hwrite : w.write rq addr 4 v = w.regFor rq r ((v.setWidth 32).setWidth 64) := by
    rw [WriteRun.write, if_pos rfl, WriteRun.writeOrCount_reg h hw]
  cases hl : hostLike rq with
  | false => simp [WriteRun.one, hl, ha, hwrite]
  | true => simp [WriteRun.one, hl, ha, hm hl, hwrite]

end

/-! ### Offsets of registers -/

section
variable {g : Rg} {addr n st : Nat}

/-- A family that is one 32-bit register lies at its base alone. -/
theorem Rg.at?_single_ne (hd : g.fam.dims = []) (hw : g.fam.wide = false) (h : addr ≠ g.fam.base) : g.at? addr = none := by
  rw [Rg.at?]
  dsimp only
  split
  · rfl
  · next hb =>
    have ho : addr - g.fam.base ≠ 0 := by omega
    simp [hd, dimIndex, hw, ho]

/-- Past its last register an array of registers holds none. -/
theorem Rg.at?_array_past (hd : g.fam.dims = [(n, st)]) (h : g.fam.base + n * st ≤ addr) (hst : 0 < st) :
    g.at? addr = none := by
  have hi : ¬ (addr - g.fam.base) / st < n := Nat.not_lt.2 ((Nat.le_div_iff_mul_le hst).2 (by omega))
  simp [Rg.at?, hd, dimIndex, hi]

/-- The register of an array at its offset. -/
theorem Rg.at?_array {i : Nat} (hd : g.fam.dims = [(n, st)]) (hi : i < n) (hst : 0 < st) :
    g.at? (g.fam.base + st * i) = some (⟨g, i, 0, 0⟩, false) := by
  simp [Rg.at?, hd, dimIndex, hi, hst]

end

/-! ### Bits after a write -/

/-- What a write leaves of a bit. -/
theorem Reg.getLsbD_coded {r : Reg} (hw1c : r.g.fam.bits (· == .w1c) = 0) (hw1s : r.g.fam.bits (· == .w1s) = 0)
    (old v kept : W64) (i : Nat) :
    (r.coded old v kept).getLsbD i
      = if (r.g.fam.bits (· == .rw) &&& ~~~ r.absent).getLsbD i then v.getLsbD i else old.getLsbD i := by
  by_cases hi : i < 64
  · simp only [Reg.coded, hw1c, hw1s, BitVec.getLsbD_or, BitVec.getLsbD_and, BitVec.getLsbD_not, hi]
    cases (r.g.fam.bits (· == .rw)).getLsbD i <;> cases r.absent.getLsbD i <;> simp
  · simp [BitVec.getLsbD_of_ge _ _ (Nat.le_of_not_lt hi)]

/-- Where every bit that a register holds is RW, a write stands whatever the register held. -/
theorem Reg.coded_masked_of_rw {r : Reg} (hrw : r.g.fam.bits (· == .rw) = r.g.fam.bits (fun a => a != .wo))
    (hw1c : r.g.fam.bits (· == .w1c) = 0) (hw1s : r.g.fam.bits (· == .w1s) = 0) (old v kept : W64) :
    r.coded old v kept &&& r.mask = v &&& r.mask := by
  apply BitVec.eq_of_getLsbD_eq
  intro i _
  rw [BitVec.getLsbD_and, BitVec.getLsbD_and, Reg.getLsbD_coded hw1c hw1s, hrw, ← Reg.mask]
  cases r.mask.getLsbD i <;> simp

theorem Fld.of_bit {f : Fld} (hw : f.w = 1) (x : W64) : (f.of x == 1) = x.getLsbD f.lo := by
  rw [Fld.of, hw, ← BitVec.testBit_toNat, BitVec.toNat_ushiftRight, Nat.testBit, Nat.and_comm, Nat.and_one_is_mod]
  cases Nat.mod_two_eq_zero_or_one (x.toNat >>> f.lo) with
  | inl h => simp [h]
  | inr h => simp [h]

theorem Dev.advanceTo_flag (d : Dev) (t : Nat) (f : Fld) (i j k : Nat) :
    (d.advanceTo t).flag f i j k = d.flag f i j k := by
  rw [Dev.flag, Dev.advanceTo_get, Dev.flag]

/-! ### The configuration of an event -/

theorem regAt_evrCfg (e : Fin 640) : regAt (0xf01000 + 4 * e.val) = some (⟨.EVR_CFG, e, 0, 0⟩, false) := by
  have hblock : (0xf01000 + 4 * e.val) / 0x100000 = 15 := by omega
  have hctl : Rg.EVR_CTL.at? (0xf01000 + 4 * e.val) = none :=
    Rg.at?_single_ne rfl rfl (by simp only [Rg.fam]; omega)
  have hlost : Rg.EVR_CNT_LOST.at? (0xf01000 + 4 * e.val) = none :=
    Rg.at?_single_ne rfl rfl (by simp only [Rg.fam]; omega)
  have hpend : Rg.EVR_PEND.at? (0xf01000 + 4 * e.val) = none :=
    Rg.at?_array_past (n := 20) (st := 4) rfl (by simp only [Rg.fam]; omega) (by decide)
  have hcfg : Rg.EVR_CFG.at? (0xf01000 + 4 * e.val) = some (⟨.EVR_CFG, e, 0, 0⟩, false) :=
    Rg.at?_array (n := 640) (st := 4) rfl e.isLt (by decide)
  simp only [regAt, hblock, famsAt, List.findSome?_cons, hctl, hlost, hpend, hcfg]
  rfl

theorem hkQueueWrite_evrCfg (rq : Rq) (e : Nat) : hkQueueWrite rq ⟨.EVR_CFG, e, 0, 0⟩ = false := Bool.and_false _

theorem WriteRun.regFor_evrCfg (w : WriteRun) (rq : Rq) (e : Nat) (v : W64) :
    w.regFor rq ⟨.EVR_CFG, e, 0, 0⟩ v
      = { w with d := w.d.wr ⟨.EVR_CFG, e, 0, 0⟩ (Reg.coded ⟨.EVR_CFG, e, 0, 0⟩ (w.d.rd ⟨.EVR_CFG, e, 0, 0⟩) v
            (w.d.freshBits ⟨.EVR_CFG, e, 0, 0⟩)) } := by
  rw [WriteRun.regFor, hkQueueWrite_evrCfg]
  rfl

/-- The host's value is written first, and the housekeeping controller's stands, whichever came first. -/
theorem frameEnd_evrCfg_hk_host {d : Dev} (e : Fin 640) (v w : W32) (hw : d.bus.writes = []) (hm : d.hostMode = 1) :
    ∃ x y : W64, ((d.written (.bus ⟨.hk, 0xf01000 + 4 * e.val, 4, w.setWidth 64⟩)).written
        (.bus ⟨.host, 0xf01000 + 4 * e.val, 4, v.setWidth 64⟩)).frameEnd
      = ((d.wr ⟨.EVR_CFG, e, 0, 0⟩ x).wr ⟨.EVR_CFG, e, 0, 0⟩ y).advanceTo (d.now + 1)
      ∧ y &&& Reg.mask ⟨.EVR_CFG, e, 0, 0⟩ = w.setWidth 64 &&& Reg.mask ⟨.EVR_CFG, e, 0, 0⟩ := by
  have ha : (0xf01000 + 4 * e.val) % 4 = 0 := by omega
  rw [Dev.frameEnd_written_two hw, sortWrites_hk_host rfl rfl]
  simp only [List.foldl_cons, List.foldl_nil, WriteRun.apply]
  rw [WriteRun.one_reg (w := { d := d }) (regAt_evrCfg e) rfl ha (fun _ => hm),
    WriteRun.one_reg (regAt_evrCfg e) rfl ha (fun h => absurd h (by decide)),
    WriteRun.regFor_evrCfg, WriteRun.regFor_evrCfg]
  refine ⟨_, _, rfl, ?_⟩
  rw [Reg.coded_masked_of_rw rfl rfl rfl]
  simp

/-! ### The enable of a slice -/

theorem regAt_sliceCtl : ∀ n : Fin 4, regAt (0x300000 + 0x40000 * n.val) = some (⟨.CV_SCTL, n, 0, 0⟩, false) := by
  decide

theorem hkQueueWrite_sliceCtl (rq : Rq) (n : Nat) : hkQueueWrite rq ⟨.CV_SCTL, n, 0, 0⟩ = false := Bool.and_false _

/-- A write of CV_SCTL stands until the frame's writes are over (R494). -/
theorem WriteRun.regFor_sliceCtl (w : WriteRun) (rq : Rq) (n : Nat) (v : W64) :
    w.regFor rq ⟨.CV_SCTL, n, 0, 0⟩ v
      = { w with standing := w.standing.filter (fun y => y.1 != ⟨.CV_SCTL, n, 0, 0⟩)
            ++ [(⟨.CV_SCTL, n, 0, 0⟩, Reg.coded ⟨.CV_SCTL, n, 0, 0⟩ (w.cur ⟨.CV_SCTL, n, 0, 0⟩) v)] } := by
  have hwo : v &&& Rg.CV_SCTL.fam.bits (· == .wo) = 0 := BitVec.and_zero
  rw [WriteRun.regFor, hkQueueWrite_sliceCtl]
  simp [WriteRun.reg, Dev.writeIgnored, actingRegs, Dev.held, Reg.stored, hwo]

theorem Dev.flag_en_putb_rotEn (d : Dev) (v : Bool) (n : Nat) :
    (d.putb CV_SCTL.ROT_EN v n).flag CV_SCTL.EN n = d.flag CV_SCTL.EN n := by
  rw [Dev.flag, Dev.flag, Dev.putb, Dev.get_put_other _ _ _ _ _ _ _ _ _ _ (by decide) (by decide)]

/-- A write of CV_SCTL that leaves EN as it is changes nothing but ROT_EN. -/
theorem Dev.settle_sliceCtl_same {d : Dev} {n : Nat} {x : W64} (h : d.flag CV_SCTL.EN n = x.getLsbD 0) :
    d.settle ⟨.CV_SCTL, n, 0, 0⟩ x = d.putb CV_SCTL.ROT_EN (CV_SCTL.ROT_EN.of x == 1) n := by
  have hs : d.settle ⟨.CV_SCTL, n, 0, 0⟩ x
      = if CV_SCTL.EN.of x == 1 then (d.putb CV_SCTL.ROT_EN (CV_SCTL.ROT_EN.of x == 1) n).sliceEnableEff n
        else (d.putb CV_SCTL.ROT_EN (CV_SCTL.ROT_EN.of x == 1) n).sliceDisableEff n := rfl
  have hbit : (CV_SCTL.EN.of x == 1) = x.getLsbD 0 := Fld.of_bit rfl x
  rw [hs, hbit, Dev.sliceEnableEff, Dev.sliceDisableEff, Dev.flag_en_putb_rotEn, h]
  cases x.getLsbD 0 <;> rfl

theorem Reg.coded_sliceCtl_en (n : Nat) (y v : W64) :
    (Reg.coded ⟨.CV_SCTL, n, 0, 0⟩ y v).getLsbD 0 = v.getLsbD 0 := by
  have hrw : (Rg.CV_SCTL.fam.bits (· == .rw) &&& ~~~ (0 : W64)).getLsbD 0 = true := by decide
  exact (Reg.getLsbD_coded (r := ⟨.CV_SCTL, n, 0, 0⟩) rfl rfl y v 0 0).trans (if_pos hrw)

/-- CV_SCTL takes effect once, with the enable that the housekeeping controller writes last (R494). -/
theorem frameEnd_sliceCtl_host_hk {d : Dev} (n : Fin 4) (v w : W64) (hw : d.bus.writes = []) (hm : d.hostMode = 1) :
    ∃ y, ((d.written (.bus ⟨.host, 0x300000 + 0x40000 * n.val, 4, v⟩)).written
        (.bus ⟨.hk, 0x300000 + 0x40000 * n.val, 4, w⟩)).frameEnd
      = (d.settle ⟨.CV_SCTL, n, 0, 0⟩ (Reg.coded ⟨.CV_SCTL, n, 0, 0⟩ y ((w.setWidth 32).setWidth 64))).advanceTo
          (d.now + 1) := by
  have ha : (0x300000 + 0x40000 * n.val) % 4 = 0 := by omega
  rw [Dev.frameEnd_written_two hw, sortWrites_host_hk rfl rfl]
  simp only [List.foldl_cons, List.foldl_nil, WriteRun.apply]
  rw [WriteRun.one_reg (w := { d := d }) (regAt_sliceCtl n) rfl ha (fun _ => hm),
    WriteRun.one_reg (regAt_sliceCtl n) rfl ha (fun h => absurd h (by decide)), WriteRun.regFor_sliceCtl,
    WriteRun.regFor_sliceCtl]
  simp only [WriteRun.finish, List.filter_nil, List.nil_append, List.filter_cons, bne_self_eq_false, Bool.false_eq_true,
    if_false, List.foldl_cons, List.foldl_nil]
  exact ⟨_, rfl⟩

/-- Settles O57: the order of R38 is a stable sort by rank; a register that no block acts on takes the last value, and an
enable that stands as it was makes no slice act. -/
theorem frameWritesApplyInOrder : Obligations.FrameWritesApplyInOrder := by
  refine ⟨fun ws => ⟨sortWrites_sorted ws, sortWrites_stable ws⟩, fun q c m n h => rqRank_ascends q c h,
    fun s v w e hw hm => ?_, fun s n b hw hm hb => ?_⟩
  · obtain ⟨hfirst, hsecond⟩ := exec_registerWrite_two (s := s)
      (a := ⟨.hk, 0xf01000 + 4 * e.val, 4, w.setWidth 64⟩) (b := ⟨.host, 0xf01000 + 4 * e.val, 4, v.setWidth 64⟩)
      hw rfl rfl nofun
    obtain ⟨x, y, hend, hy⟩ := frameEnd_evrCfg_hk_host e v w hw hm
    refine ⟨_, _, hfirst, hsecond, rfl, rfl, ?_, ?_⟩
    · rw [hend, Dev.advanceTo_now]
      simp
    · rw [hend, Dev.advanceTo_rd, Dev.rd_wr_same, hy]
  · obtain ⟨hfirst, hsecond⟩ := exec_registerWrite_two (s := s)
      (a := ⟨.host, 0x300000 + 0x40000 * n.val, 4, if b = true then 0 else 1⟩)
      (b := ⟨.hk, 0x300000 + 0x40000 * n.val, 4, if b = true then 1 else 0⟩) hw rfl rfl nofun
    obtain ⟨y, hend⟩ := frameEnd_sliceCtl_host_hk n (if b = true then 0 else 1) (if b = true then 1 else 0) hw hm
    have hbit : s.dev.flag CV_SCTL.EN n = (Reg.coded ⟨.CV_SCTL, n, 0, 0⟩ y
        (((if b = true then 1 else 0 : W64).setWidth 32).setWidth 64)).getLsbD 0 := by
      rw [Reg.coded_sliceCtl_en, hb]
      cases b <;> rfl
    rw [Dev.settle_sliceCtl_same hbit] at hend
    refine ⟨_, _, hfirst, hsecond, ?_, ?_⟩
    · rw [hend, Dev.advanceTo_flag, Dev.flag_en_putb_rotEn, hb]
    · rw [hend, Dev.advanceTo_slice]
      rfl

end Sys2Proof.Machine

/-! ## Every command goes on (01_engine_at_a_glance.md R29; 02_converter_slices.md R42) -/

namespace Sys2Proof.Machine

/-- A sample frame of 64 codes is a row as the others are. -/
theorem exec_sampleFrame {codes : List (BitVec 10)} (h : codes.length = 64) (n : Fin 4) (s : State) :
    exec (.sampleFrame n codes) s = s.row (Dev.sampleFrameEff n.val codes) := if_pos h

theorem exec_sampleFrame_malformed {codes : List (BitVec 10)} (h : codes.length ≠ 64) (n : Fin 4) (s : State) :
    exec (.sampleFrame n codes) s = .fault (.malformed "SAMPLE_FRAME") := if_neg h

/-- A sample frame that is answered by a next state is one of 64 codes. -/
theorem sampleFrame_length {n : Fin 4} {codes : List (BitVec 10)} {s t : State}
    (h : exec (.sampleFrame n codes) s = .next t) : codes.length = 64 := by
  by_cases hl : codes.length = 64
  · exact hl
  · rw [exec_sampleFrame_malformed hl] at h
    cases h

/-- A command answers a next state, but for a sample frame of other than 64 codes. -/
theorem exec_next_or_sampleFrame (c : Instr) (s : State) :
    (∃ t, exec c s = .next t) ∨ ∃ n codes, c = .sampleFrame n codes ∧ codes.length ≠ 64 := by
  cases c
  case sampleFrame n codes =>
    by_cases h : codes.length = 64
    · exact .inl ⟨_, exec_sampleFrame h n s⟩
    · exact .inr ⟨n, codes, rfl, h⟩
  all_goals exact .inl ⟨_, rfl⟩

theorem exec_next_of_wellFormed {c : Instr} (h : c.wellFormed = true) (s : State) : ∃ t, exec c s = .next t := by
  obtain hn | ⟨n, codes, rfl, hl⟩ := exec_next_or_sampleFrame c s
  · exact hn
  · exact absurd (beq_iff_eq.1 h) hl

theorem exec_ne_refused (c : Instr) (s : State) (r : Refusal) : exec c s ≠ .refused r := by
  obtain ⟨t, ht⟩ | ⟨n, codes, rfl, hl⟩ := exec_next_or_sampleFrame c s
  · rw [ht]
    nofun
  · rw [exec_sampleFrame_malformed hl]
    nofun

/-- Settles O7: by the command at the front of the queue; an empty queue lets a frame pass. -/
theorem everyWellFormedCommandGoesOn : Obligations.EveryWellFormedCommandGoesOn := by
  refine ⟨fun d c rest hc => ?_, fun d n codes rest hl => exec_sampleFrame_malformed hl n ⟨d, rest⟩, fun s r => ?_⟩
  · obtain ⟨t, ht⟩ := exec_next_of_wellFormed hc ⟨d, rest⟩
    exact ⟨t, ht, exec_pending ht⟩
  · obtain ⟨d, _ | ⟨c, rest⟩⟩ := s
    · rw [step_empty]
      nofun
    · exact exec_ne_refused c ⟨d, rest⟩ r

end Sys2Proof.Machine

/-! ## What the commands of the converter slices leave unchanged (02 R42, R65; 03 R80, R81) -/

namespace Sys2Proof.Machine

/-- Settles O10: a command leaves unchanged what its effect on the module does. -/
theorem sliceCommandsFrame : Obligations.SliceCommandsFrame := by
  intro s s'
  refine ⟨fun n codes h => ?sampleFrame, fun _ h => row_frame h (Dev.sliceEnableEff_frame _),
    fun _ h => rowLast_frame h (Dev.sliceDisableEff_frame _),
    fun _ _ h => row_frame h (Dev.enableCalibrationDoneEff_frame _ _),
    fun _ _ h => row_frame h (Dev.rotationEff_frame _ _), fun _ _ h => row_frame h (Dev.subconverterSwapEff_frame _ _),
    fun _ _ _ h => row_frame h (Dev.monitorWindowEndEff_frame _ _ _),
    fun _ _ h => row_frame h (Dev.sparingTransitionEff_frame _ _),
    fun _ _ _ h => row_frame h (Dev.spareCalibrationDoneEff_frame _ _ _),
    fun _ _ _ h => row_frame h (Dev.failClrWriteEff_frame _ _ _), fun _ _ h => row_frame h (Dev.dacRouteWriteEff_frame _ _),
    fun _ h => row_frame h (Dev.injectionSwitchEff_frame _), fun _ h => row_frame h (Dev.sliceClockLossEff_frame _),
    fun _ h => row_frame h (Dev.sliceClockLockEff_frame _), fun _ h => row_frame h (Dev.correctedFrameEff_frame _),
    fun n tim h => row_frame (f := fun d => d.tableCommit n.val true tim) h (Dev.tableCommit_frame · _ _ _ _),
    fun n h => row_frame (f := fun d => d.tableCommit n.val false true) h (Dev.tableCommit_frame · _ _ _ _),
    fun _ h => row_frame h (Dev.commitEffectEff_frame _), fun _ h => row_frame h (Dev.tblSwitchEff_frame _),
    fun _ _ _ h => row_frame h (Dev.tableWindowWriteEff_frame _ _ _),
    fun _ _ _ h => row_frame h (Dev.nospareMatchingEff_frame _ _ _), fun _ h => row_frame h (Dev.skewUpdateEff_frame _),
    fun _ h => row_frame h (Dev.swatchStartEff_frame _), fun n c hc h => ?swatchCapture,
    fun _ _ h => row_frame h (Dev.swatchResultEff_frame _ _), fun _ h => row_frame h (Dev.tableFlashSaveEff_frame _),
    fun _ _ h => row_frame h (Dev.stageStoreFrameEff_frame _ _)⟩
  case sampleFrame =>
    rw [exec_sampleFrame (sampleFrame_length h)] at h
    exact row_frame h (Dev.sampleFrameEff_frame _ _)
  case swatchCapture =>
    obtain rfl | rfl : c = .swatchCapture n ∨ c = .swatchRouteOff n := by simpa using hc
    · exact row_frame h (Dev.swatchCaptureEff_frame _)
    · exact row_frame h (Dev.swatchRouteOffEff_frame _)

end Sys2Proof.Machine

/-! ## The life of a slice (02_converter_slices.md R42, R44, R53, R65, R66; 04_time_base.md R106) -/

namespace Sys2Proof.Machine

section
variable {d d' : Dev} {ps : List Part} {l : List Rg}

theorem Dev.frame_flag (h : Dev.frame ps l d d') (f : Fld) (i j k : Nat) (hf : l.contains f.g = false) :
    d'.flag f i j k = d.flag f i j k := by
  rw [Dev.flag, Dev.flag, Dev.frame_get h f i j k hf]

/-- A loop changes what its rounds change. -/
theorem Dev.frame_foldl {α : Type} {f : Dev → α → Dev} (h : ∀ d x, Dev.frame ps l d (f d x)) (xs : List α) (d : Dev) :
    Dev.frame ps l d (xs.foldl f d) :=
  foldl_invariant (Dev.frame ps l d) f xs (Dev.frame_refl _ _ _) fun e x _ he => Dev.frame_trans he (h e x)

end

theorem Dev.updSlice_flag (d : Dev) (n : Nat) (g : Slice → Slice) (f : Fld) (i j k : Nat) :
    (d.updSlice n g).flag f i j k = d.flag f i j k := by rw [Dev.flag, Dev.flag, Dev.updSlice_get]

theorem Dev.raiseAt_flag (d : Dev) (k₀ e : Nat) (f : Fld) (i j k : Nat) :
    (d.raiseAt k₀ e).flag f i j k = d.flag f i j k := by rw [Dev.flag, Dev.flag, Dev.raiseAt_get]

theorem Dev.raise_flag (d : Dev) (e : Nat) (f : Fld) (i j k : Nat) :
    (d.raise e).flag f i j k = d.flag f i j k := Dev.raiseAt_flag _ _ _ _ _ _ _

theorem Dev.flag_putb_whole (d : Dev) (f : Fld) (b : Bool) (i j k : Nat)
    (h : (f.whole && decide (f.w = 1)) = true) : (d.putb f b i j k).flag f i j k = b := by
  rw [Bool.and_eq_true, decide_eq_true_eq] at h
  exact Dev.flag_putb_same _ _ _ _ _ _ (Fld.held_whole h.1 _ _ _) h.2

/-! ### A slice after a change of it, or of another -/

theorem Dev.updSlice_slice_same (d : Dev) (n : Nat) (f : Slice → Slice) :
    (d.updSlice n f).slice.get n = f (d.slice.get n) := Tab.get_upd_same _ _ _

theorem Dev.updSlice_slice_ne (d : Dev) {n m : Nat} (h : m ≠ n) (f : Slice → Slice) :
    (d.updSlice n f).slice.get m = d.slice.get m := Tab.get_upd_ne _ h _

theorem Dev.updGroup_slice_same (d : Dev) (n h : Nat) (f : Group → Group) :
    (d.updGroup n h f).slice.get n = { d.slice.get n with group := (d.slice.get n).group.upd h f } :=
  Dev.updSlice_slice_same _ _ _

theorem Dev.updGroup_slice_ne (d : Dev) {n m : Nat} (hm : m ≠ n) (h : Nat) (f : Group → Group) :
    (d.updGroup n h f).slice.get m = d.slice.get m := Dev.updSlice_slice_ne _ hm _

/-! ### SLICE_ENABLE -/

/-- The slice starts from OFF: uncalibrated, with a clock that has still to lock (R65). -/
theorem Dev.sliceEnableEff_of_off {d : Dev} {n : Nat} (h : d.flag CV_SCTL.EN n = false) :
    ∃ f : Slice → Slice, d.sliceEnableEff n = ((d.testEnd 0 n 7).putb CV_SCTL.EN true n).updSlice n f
      ∧ ∀ x, (f x).calDone = false ∧ (f x).locked = false :=
  ⟨_, if_neg (by rw [h]; decide), fun _ => ⟨rfl, rfl⟩⟩

theorem exec_sliceEnable {s : State} {n : Fin 4} (hw : s.dev.bus.writes = []) (h : s.dev.flag CV_SCTL.EN n = false) :
    ∃ t, exec (.sliceEnable n) s = .next t ∧ t.dev.flag CV_SCTL.EN n = true
      ∧ (t.dev.slice.get n).calDone = false ∧ (t.dev.slice.get n).locked = false
      ∧ (∀ m, m ≠ n.val → t.dev.slice.get m = s.dev.slice.get m ∧ t.dev.get CV_SCTL.EN m = s.dev.get CV_SCTL.EN m) := by
  obtain ⟨f, hf, hoff⟩ := Dev.sliceEnableEff_of_off h
  refine ⟨_, State.row_of_empty hw _, ?_⟩
  dsimp only
  rw [hf, Dev.updSlice_flag, Dev.updSlice_slice_same]
  refine ⟨Dev.flag_putb_whole _ _ _ _ _ _ (by decide), (hoff _).1, (hoff _).2, fun m hm => ⟨?_, ?_⟩⟩
  · rw [Dev.updSlice_slice_ne _ hm, Dev.putb_slice, Dev.testEnd_slice]
  · rw [Dev.updSlice_get, Dev.putb, Dev.get_put_index _ _ _ _ _ _ _ _ hm,
      Dev.keepsRegs_get (Dev.testEnd_keeps _ _ _ _ _) _ _ _ _ (by decide)]

/-! ### READY -/

section
variable (d : Dev) (n k : Nat)

theorem Dev.sliceReady_flag : (d.sliceReady n k).flag CV_SSTAT.READY n = true := by
  rw [Dev.sliceReady, Dev.raiseAt_flag, Dev.updSlice_flag, Dev.flag_putb_whole _ _ _ _ _ _ (by decide)]

theorem Dev.sliceReady_raised : (d.sliceReady n k).raised k (16 * n + 9) := Dev.raiseAt_raised _ _ _

theorem Dev.sliceReady_now : (d.sliceReady n k).now = d.now := (d.sliceReady_frame n k).1 .clock (by decide)

theorem Dev.sliceReady_slice : (d.sliceReady n k).slice.get n = { d.slice.get n with validFrom := k } := by
  rw [Dev.sliceReady, Dev.raiseAt_slice, Dev.updSlice_slice_same, Dev.putb_slice]

theorem Dev.sliceReady_slice_ne {m : Nat} (h : m ≠ n) : (d.sliceReady n k).slice.get m = d.slice.get m := by
  rw [Dev.sliceReady, Dev.raiseAt_slice, Dev.updSlice_slice_ne _ h, Dev.putb_slice]

theorem Dev.sliceFlags_slice : (d.sliceFlags n).slice = d.slice := (d.sliceFlags_frame n).1 .slices (by decide)

theorem Dev.sliceFlags_now : (d.sliceFlags n).now = d.now := (d.sliceFlags_frame n).1 .clock (by decide)

/-- The flags of a slice follow its groups, and READY stays as it was. -/
theorem Dev.sliceFlags_ready (m : Nat) : (d.sliceFlags n).flag CV_SSTAT.READY m = d.flag CV_SSTAT.READY m := by
  unfold Dev.sliceFlags Dev.flag
  dsimp only
  split <;> simp (disch := decide) only [Dev.raise_get, Dev.putb, Dev.get_put_other]

end

/-! ### ENABLE_CALIBRATION_DONE -/

/-- A slice whose calibration is complete is READY with the present frame (R53, R65). -/
theorem Dev.enableCalibrationDoneEff_of_all {d : Dev} {n : Nat} {cal : List (Nat × CalData)}
    (hen : d.flag CV_SCTL.EN n = true) (hlock : (d.slice.get n).locked = true) (hcal : (d.slice.get n).calDone = false)
    (hpd : ∀ h, h < 9 → d.pdOn (10 * n + h) = true)
    (hall : ∀ p, p < 88 → (d.unmarked n (p / 11)).contains (p % 11) = true → cal.any (fun c => c.1 == p) = true) :
    ∃ x : Dev, d.enableCalibrationDoneEff n cal = (x.sliceFlags n).sliceReady n x.now
      ∧ (x.slice.get n).calDone = true := by
  have hmeasured : ((List.range 88).all fun p =>
      ! (d.unmarked n (p / 11)).contains (p % 11) || cal.any fun c => c.1 == p) = true := by
    rw [List.all_eq_true]
    intro p hp
    cases hu : (d.unmarked n (p / 11)).contains (p % 11) with
    | false => rfl
    | true =>
      rw [Bool.not_true, Bool.false_or]
      exact hall p (List.mem_range.1 hp) hu
  have hpowered : ((List.range 9).any fun h => ! d.pdOn (10 * n + h)) = false := by
    rw [List.any_eq_false]
    intro h hh
    rw [hpd h (List.mem_range.1 hh)]
    decide
  refine ⟨_, if_neg ?_, ?_⟩
  · rw [hen, hlock, hcal, hmeasured, hpowered]
    decide
  · rw [Dev.updSlice_slice_same]

theorem exec_enableCalibrationDone {s : State} {n : Fin 4} {cal : List (Fin 88 × CalData)} (hw : s.dev.bus.writes = [])
    (hen : s.dev.flag CV_SCTL.EN n = true) (hlock : (s.dev.slice.get n).locked = true)
    (hcal : (s.dev.slice.get n).calDone = false) (hpd : ∀ h, h < 9 → s.dev.pdOn (10 * n + h) = true)
    (hall : ∀ p, p < 88 → (s.dev.unmarked n (p / 11)).contains (p % 11) = true →
      cal.any (fun c => c.1.val == p) = true) :
    ∃ t, exec (.enableCalibrationDone n cal) s = .next t ∧ t.dev.flag CV_SSTAT.READY n = true
      ∧ (t.dev.slice.get n).calDone = true ∧ (t.dev.slice.get n).validFrom = s.dev.now
      ∧ t.dev.raised s.dev.now (16 * n + 9) := by
  obtain ⟨x, hx, hdone⟩ := Dev.enableCalibrationDoneEff_of_all (cal := cal.map fun x => (x.1.val, x.2)) hen hlock hcal hpd
    (fun p hp hu => by rw [List.any_map]; exact hall p hp hu)
  have hnow : x.now = s.dev.now := by
    have hc : (s.dev.enableCalibrationDoneEff n _).now = s.dev.now :=
      (s.dev.enableCalibrationDoneEff_frame n (cal.map fun x => (x.1.val, x.2))).1 .clock (by decide)
    rwa [hx, Dev.sliceReady_now, Dev.sliceFlags_now] at hc
  refine ⟨_, State.row_of_empty hw _, ?_⟩
  dsimp only
  rw [hx, hnow, Dev.sliceReady_slice, Dev.sliceFlags_slice]
  exact ⟨Dev.sliceReady_flag _ _ _, hdone, rfl, Dev.sliceReady_raised _ _ _⟩

/-! ### SLICE_CLOCK_LOSS -/

/-- With a clock lost in frame `u`, the samples from two frames before on are invalid (R106). -/
def Path.lostAt (p : Path) (u : Nat) : Path :=
  { p with raw := p.raw.map fun f => if u ≤ f.k + 2 then { f with valid := false, ovr := false } else f }

theorem Dev.sliceClockLossEff_of_ready {d : Dev} {n : Nat} (h : d.flag CV_SSTAT.READY n = true) :
    ∃ f : Slice → Slice, d.sliceClockLossEff n
        = (((d.setPath (d.path.set n ((d.path.get n).lostAt d.now))).putb CV_SSTAT.READY false n).raise
            (16 * n + 10)).updSlice n f
      ∧ ∀ x, (f x).locked = false :=
  ⟨_, congrArg (Dev.updSlice · n _) (if_pos h), fun _ => rfl⟩

theorem exec_sliceClockLoss {s : State} {n : Fin 4} (hw : s.dev.bus.writes = [])
    (h : s.dev.flag CV_SSTAT.READY n = true) :
    ∃ t, exec (.sliceClockLoss n) s = .next t ∧ t.dev.flag CV_SSTAT.READY n = false
      ∧ (t.dev.slice.get n).locked = false ∧ t.dev.raised s.dev.now (16 * n + 10)
      ∧ (t.dev.path.get n).raw = (s.dev.path.get n).raw.map (fun f =>
          if s.dev.now ≤ f.k + 2 then { f with valid := false, ovr := false } else f)
      ∧ (∀ m, m ≠ n.val → t.dev.slice.get m = s.dev.slice.get m ∧ t.dev.path.get m = s.dev.path.get m) := by
  obtain ⟨f, hf, hlost⟩ := Dev.sliceClockLossEff_of_ready h
  refine ⟨_, State.row_of_empty hw _, ?_⟩
  dsimp only
  rw [hf, Dev.updSlice_flag, Dev.raise_flag, Dev.flag_putb_whole _ _ _ _ _ _ (by decide), Dev.updSlice_slice_same,
    Dev.updSlice_path, Dev.raise_path, Dev.putb_path, Dev.setPath_path, Tab.get_set_same]
  refine ⟨rfl, hlost _, (Dev.raised_congr (Dev.updSlice_evr _ _ _) _ _).2 (Dev.raise_raised _ _), rfl, fun m hm => ⟨?_, ?_⟩⟩
  · rw [Dev.updSlice_slice_ne _ hm, Dev.raise_slice, Dev.putb_slice, Dev.setPath_slice]
  · rw [Tab.get_set_ne _ hm]

/-! ### SLICE_CLOCK_LOCK -/

/-- The slot origin of a group is the present frame (R44), from which its live statistics begin. -/
def Dev.groupOrigin (d : Dev) (n h : Nat) : Dev := (d.updGroup n h fun g => { g with base := d.now }).statsBegin n h

/-- The clock of a slice is locked, and the slot origin of its groups is the present frame. -/
def Dev.lockOrigin (d : Dev) (n : Nat) : Dev :=
  (List.range 8).foldl (fun d h => d.groupOrigin n h) (d.updSlice n fun x => { x with locked := true })

theorem Dev.sliceClockLockEff_of_calDone {d : Dev} {n : Nat} (hlock : (d.slice.get n).locked = false)
    (hen : d.flag CV_SCTL.EN n = true) (hcal : (d.slice.get n).calDone = true) (htb : d.tb.locked = true) :
    d.sliceClockLockEff n = (d.lockOrigin n).sliceReady n ((d.lockOrigin n).now + 1) :=
  (if_neg (by rw [hlock, hen, htb]; decide)).trans (if_pos hcal)

section
variable (d : Dev) (n h : Nat)

theorem Dev.groupOrigin_now : (d.groupOrigin n h).now = d.now := rfl

theorem Dev.statsBegin_slice : ∃ f : Group → Group,
    (d.statsBegin n h).slice.get n = { d.slice.get n with group := (d.slice.get n).group.upd h f }
      ∧ ∀ g, (f g).base = g.base :=
  ⟨_, Dev.updGroup_slice_same _ _ _ _, fun _ => rfl⟩

theorem Dev.groupOrigin_locked : ((d.groupOrigin n h).slice.get n).locked = (d.slice.get n).locked := by
  obtain ⟨f, hf, -⟩ := (d.updGroup n h fun g => { g with base := d.now }).statsBegin_slice n h
  rw [Dev.groupOrigin, hf, Dev.updGroup_slice_same]

theorem Dev.groupOrigin_base (h' : Nat) : (((d.groupOrigin n h).slice.get n).group.get h').base
    = if h' = h then d.now else ((d.slice.get n).group.get h').base := by
  obtain ⟨f, hf, hbase⟩ := (d.updGroup n h fun g => { g with base := d.now }).statsBegin_slice n h
  rw [Dev.groupOrigin, hf, Dev.updGroup_slice_same]
  dsimp only
  split
  · next e => rw [e, Tab.get_upd_same, hbase, Tab.get_upd_same]
  · next e => rw [Tab.get_upd_ne _ e, Tab.get_upd_ne _ e]

theorem Dev.groupOrigin_slice_ne {m : Nat} (hm : m ≠ n) : (d.groupOrigin n h).slice.get m = d.slice.get m := by
  rw [Dev.groupOrigin, Dev.statsBegin, Dev.updGroup_slice_ne _ hm, Dev.updGroup_slice_ne _ hm]

theorem Dev.lockOrigin_now : (d.lockOrigin n).now = d.now :=
  foldl_keeps Dev.now _ (fun d h => d.groupOrigin_now n h) _ _

theorem Dev.lockOrigin_locked : ((d.lockOrigin n).slice.get n).locked = true := by
  rw [Dev.lockOrigin, foldl_keeps (fun d : Dev => (d.slice.get n).locked) _ (fun d h => d.groupOrigin_locked n h),
    Dev.updSlice_slice_same]

theorem Dev.lockOrigin_slice_ne {m : Nat} (hm : m ≠ n) : (d.lockOrigin n).slice.get m = d.slice.get m := by
  rw [Dev.lockOrigin, foldl_keeps (fun d : Dev => d.slice.get m) _ (fun d h => d.groupOrigin_slice_ne n h hm),
    Dev.updSlice_slice_ne _ hm]

theorem Dev.lockOrigin_base {h : Nat} (hh : h < 8) : (((d.lockOrigin n).slice.get n).group.get h).base = d.now := by
  have hall := foldl_range_ind (k := 8) (f := fun d h => d.groupOrigin n h)
    (fun i (e : Dev) => e.now = d.now ∧ ∀ h, h < i → ((e.slice.get n).group.get h).base = d.now)
    (s := d.updSlice n fun x => { x with locked := true }) ⟨rfl, nofun⟩ fun i e _ ⟨hnow, hbase⟩ =>
      ⟨hnow, fun h hi => by
        rw [Dev.groupOrigin_base]
        split
        · exact hnow
        · exact hbase h (by omega)⟩
  exact hall.2 h hh

/-- A slice that becomes READY with frame `k` is not so before it. -/
theorem Dev.sliceReady_sliceOn (k : Nat) : (d.sliceReady n k).sliceOn n = decide (k ≤ d.now) := by
  rw [Dev.sliceOn, Dev.sliceReady_flag, Dev.sliceReady_slice, Dev.sliceReady_now, Bool.true_and]

theorem Dev.sliceReady_advanceTo_sliceOn (k : Nat) : ((d.sliceReady n k).advanceTo k).sliceOn n = true := by
  rw [Dev.sliceOn, Dev.advanceTo_flag, Dev.sliceReady_flag, Dev.advanceTo_slice, Dev.sliceReady_slice, Dev.advanceTo_now,
    Bool.true_and, decide_eq_true_eq]
  exact Nat.le_max_right _ _

end

theorem exec_sliceClockLock {s : State} {n : Fin 4} (hw : s.dev.bus.writes = [])
    (hlock : (s.dev.slice.get n).locked = false) (hen : s.dev.flag CV_SCTL.EN n = true)
    (hcal : (s.dev.slice.get n).calDone = true) (htb : s.dev.tb.locked = true) :
    ∃ t, exec (.sliceClockLock n) s = .next t ∧ t.dev.sliceOn n = false
      ∧ (t.dev.advanceTo (s.dev.now + 1)).sliceOn n = true
      ∧ (t.dev.slice.get n).locked = true ∧ (t.dev.slice.get n).validFrom = s.dev.now + 1
      ∧ (∀ h, h < 8 → ((t.dev.slice.get n).group.get h).base = s.dev.now)
      ∧ t.dev.raised (s.dev.now + 1) (16 * n + 9)
      ∧ (∀ m, m ≠ n.val → t.dev.slice.get m = s.dev.slice.get m) := by
  refine ⟨_, State.row_of_empty hw _, ?_⟩
  dsimp only
  rw [Dev.sliceClockLockEff_of_calDone hlock hen hcal htb, Dev.lockOrigin_now, Dev.sliceReady_sliceOn, Dev.lockOrigin_now,
    Dev.sliceReady_slice]
  dsimp only
  refine ⟨decide_eq_false (Nat.not_succ_le_self _), Dev.sliceReady_advanceTo_sliceOn _ _ _, Dev.lockOrigin_locked _ _, rfl,
    fun h hh => Dev.lockOrigin_base _ _ hh, Dev.sliceReady_raised _ _ _, fun m hm => ?_⟩
  rw [Dev.sliceReady_slice_ne _ _ _ hm, Dev.lockOrigin_slice_ne _ _ hm]

/-! ### SLICE_DISABLE -/

/-- A group of a slice that is disabled: OFF, without slots and without anything to come (R53). -/
def Dev.groupOff (d : Dev) (n h : Nat) : Dev := (d.setGroup n h 4 15 []).updGroup n h fun _ => {}

/-- The groups of a slice that is disabled. -/
def Dev.groupsOff (d : Dev) (n : Nat) : Dev := (List.range 8).foldl (fun d h => d.groupOff n h) d

/-- READY falls with the next frame (R65). -/
def Dev.leaveReady (d : Dev) (n : Nat) : Dev :=
  if d.flag CV_SSTAT.READY n then (d.putb CV_SSTAT.READY false n).raiseAt (d.now + 1) (16 * n + 10) else d

/-- The registers and groups of the slice, OFF and not READY, come last; `f` takes its calibration away. -/
theorem Dev.sliceDisableEff_of_on {d : Dev} {n : Nat} (h : d.flag CV_SCTL.EN n = true) :
    ∃ f : Slice → Slice, d.sliceDisableEff n
        = ((((((d.putb CV_SCTL.EN false n).swatchAbort n).leaveReady n).groupsOff n).updSlice n f).sliceFlags n).failClear n
      ∧ ∀ x, (f x).calDone = false :=
  ⟨_, if_neg (by rw [h]; decide), fun _ => rfl⟩

section
variable (d : Dev) (n h : Nat)

theorem Dev.leaveReady_ready : (d.leaveReady n).flag CV_SSTAT.READY n = false := by
  rw [Dev.leaveReady]
  split
  · rw [Dev.raiseAt_flag, Dev.flag_putb_whole _ _ _ _ _ _ (by decide)]
  · next hr => exact Bool.eq_false_iff.2 hr

theorem Dev.leaveReady_en : (d.leaveReady n).flag CV_SCTL.EN n = d.flag CV_SCTL.EN n := by
  rw [Dev.leaveReady]
  split
  · rw [Dev.raiseAt_flag, Dev.flag, Dev.putb, Dev.get_put_family _ _ _ _ _ _ _ _ (by decide), ← Dev.flag]
  · rfl

theorem Dev.setGroup_state (st spare : Nat) (slots : List Nat) (h' : Nat) :
    (d.setGroup n h st spare slots).get CV_GRP_STAT.STATE n h'
      = if h' = h then st % 8 else d.get CV_GRP_STAT.STATE n h' := by
  rw [Dev.setGroup, Dev.showService, Dev.setSlots, Dev.get_put_other _ _ _ _ _ _ _ _ _ _ (by decide) (by decide),
    Dev.get_put_other _ _ _ _ _ _ _ _ _ _ (by decide) (by decide),
    Dev.get_put_other _ _ _ _ _ _ _ _ _ _ (by decide) (by decide), Dev.get_put_if _ _ _ _ _ _ _ _ _ (by decide)]
  simp [CV_GRP_STAT.STATE]

theorem Dev.groupOff_state (h' : Nat) : (d.groupOff n h).get CV_GRP_STAT.STATE n h'
    = if h' = h then 4 else d.get CV_GRP_STAT.STATE n h' := by
  rw [Dev.groupOff, Dev.updGroup_get, Dev.setGroup_state]

theorem Dev.groupOff_frame : Dev.frame [.slices] [.CV_GRP_STAT, .CV_SLOTMAP] d (d.groupOff n h) :=
  Dev.frame_of_ind (fun hP h => Dev.updGroup_ind (hP.mono (by decide) (by decide))
    (Dev.setGroup_ind (hP.mono (by decide) (by decide)) h)) (c := 0x80) (g := 0xc000) (by decide) (by decide)

theorem Dev.groupsOff_frame : Dev.frame [.slices] [.CV_GRP_STAT, .CV_SLOTMAP] d (d.groupsOff n) :=
  Dev.frame_foldl (fun d h => d.groupOff_frame n h) _ _

theorem Dev.groupsOff_state {h : Nat} (hh : h < 8) : (d.groupsOff n).get CV_GRP_STAT.STATE n h = 4 := by
  have hall := foldl_range_ind (k := 8) (f := fun d h => d.groupOff n h)
    (fun i (e : Dev) => ∀ h, h < i → e.get CV_GRP_STAT.STATE n h = 4) (s := d) nofun fun i e _ hi h hh => by
      rw [Dev.groupOff_state]
      split
      · rfl
      · exact hi h (by omega)
  exact hall h hh

theorem Dev.failClear_slice : (d.failClear n).slice = d.slice := (d.failClear_frame n).1 .slices (by decide)

/-- A clear of failure marks leaves the states of the groups. -/
theorem Dev.failClear_state (m : Nat) : (d.failClear n).get CV_GRP_STAT.STATE m h = d.get CV_GRP_STAT.STATE m h := by
  rw [Dev.failClear, Dev.get_wr_family _ _ _ _ _ (by nofun),
    Dev.get_put_other _ _ _ _ _ _ _ _ _ _ (by decide) (by decide)]

end

/-- What a disable leaves of its slice. -/
theorem Dev.sliceDisableEff_slice {d : Dev} {n : Nat} (h : d.flag CV_SCTL.EN n = true) :
    (d.sliceDisableEff n).flag CV_SCTL.EN n = false ∧ (d.sliceDisableEff n).flag CV_SSTAT.READY n = false
      ∧ ((d.sliceDisableEff n).slice.get n).calDone = false
      ∧ ∀ h, h < 8 → (d.sliceDisableEff n).get CV_GRP_STAT.STATE n h = 4 := by
  obtain ⟨f, hf, hcal⟩ := Dev.sliceDisableEff_of_on h
  rw [hf]
  refine ⟨?en, ?ready, ?cal, fun h hh => ?state⟩
  case en =>
    rw [Dev.frame_flag (Dev.failClear_frame _ _) _ _ _ _ (by decide),
      Dev.frame_flag (Dev.sliceFlags_frame _ _) _ _ _ _ (by decide), Dev.updSlice_flag, Dev.frame_flag (Dev.groupsOff_frame _ _) _ _ _ _ (by decide), Dev.leaveReady_en,
      Dev.frame_flag (Dev.swatchAbort_frame _ _) _ _ _ _ (by decide), Dev.flag_putb_whole _ _ _ _ _ _ (by decide)]
  case ready =>
    rw [Dev.frame_flag (Dev.failClear_frame _ _) _ _ _ _ (by decide), Dev.sliceFlags_ready, Dev.updSlice_flag,
      Dev.frame_flag (Dev.groupsOff_frame _ _) _ _ _ _ (by decide), Dev.leaveReady_ready]
  case cal =>
    rw [Dev.failClear_slice, Dev.sliceFlags_slice, Dev.updSlice_slice_same]
    exact hcal _
  case state =>
    rw [Dev.failClear_state, Dev.frame_get (Dev.sliceFlags_frame _ _) _ _ _ _ (by decide), Dev.updSlice_get,
      Dev.groupsOff_state _ _ hh]

theorem exec_sliceDisable {s : State} {n : Fin 4} (hw : s.dev.bus.writes = []) (h : s.dev.flag CV_SCTL.EN n = true) :
    ∃ t, exec (.sliceDisable n) s = .next t ∧ t.dev.flag CV_SCTL.EN n = false
      ∧ t.dev.flag CV_SSTAT.READY n = false ∧ (t.dev.slice.get n).calDone = false
      ∧ (∀ h, h < 8 → t.dev.get CV_GRP_STAT.STATE n h = 4) ∧ t.dev.now = s.dev.now + 1 := by
  have hframe := s.dev.sliceDisableEff_frame n
  have hbus : (s.dev.sliceDisableEff n).bus = s.dev.bus := hframe.1 .bus (by decide)
  have hnow : (s.dev.sliceDisableEff n).now = s.dev.now := hframe.1 .clock (by decide)
  have hempty : (s.dev.sliceDisableEff n).bus.writes = [] := by rw [hbus, hw]
  obtain ⟨hen, hready, hcal, hstate⟩ := Dev.sliceDisableEff_slice h
  refine ⟨_, State.rowLast_of_empty hw _, ?_⟩
  dsimp only
  rw [Dev.idle_now hempty, hnow, Dev.idle_of_empty hempty, Dev.advanceTo_flag, Dev.advanceTo_flag, Dev.advanceTo_slice]
  exact ⟨hen, hready, hcal, fun h hh => (Dev.advanceTo_get _ _ _ _ _ _).trans (hstate h hh), rfl⟩

/-! ### SAMPLE_FRAME -/

/-- The frame of `codes` that sets out now (R42, R43, R49, R65, R86). -/
def Dev.rawFrame (d : Dev) (n : Nat) (codes : List (BitVec 10)) : RawFrame :=
  { k := d.now, raw := codes, subs := (List.range 64).map (d.subFor n d.now)
    interp := d.get CV_SSTAT.INTERP_TH n, valid := d.sliceOn n
    degraded := d.get CV_SSTAT.INTERP_TH n != 0 || (d.slice.get n).suspect.any fun x =>
      decide (x.1 ≤ d.now) && decide (d.now < x.2)
    spoilt := d.flag CV_SSTAT.INJ_ACTIVE n || d.flag CV_SSTAT.DEGRADED n
    ovr := d.sliceOn n && codes.any fun c => c == 0 || c == 1023 }

/-- The frames of a path, of which those counted in frame `k` are no longer overrange (R60). -/
def Path.counted (p : Path) (k : Nat) : List RawFrame :=
  p.raw.map fun f => if f.ovr = true ∧ f.k + 3 ≤ k then { f with ovr := false } else f

/-- A frame sets out on the path of its channel, and the statistics of its groups take it. -/
def Dev.setOut (d : Dev) (n : Nat) (f : RawFrame) : Dev :=
  (d.setPath (d.path.set n { d.path.get n with raw := (d.path.get n).raw ++ [f] })).statsAdd n f

section
variable {d d' : Dev} (h : Dev.frame [.paths, .events] [.CV_OVR_CNT, .GLB_CNT_SAT] d d')
include h

/-- Whether a slice is READY rests on neither the paths nor the counters of overrange. -/
theorem Dev.sliceOn_congr (n : Nat) : d'.sliceOn n = d.sliceOn n := by
  have hnow : d'.now = d.now := h.1 .clock (by decide)
  have hslice : d'.slice = d.slice := h.1 .slices (by decide)
  rw [Dev.sliceOn, Dev.sliceOn, Dev.frame_flag h _ _ _ _ (by decide), hnow, hslice]

/-- Nor does the sub-converter of a sample. -/
theorem Dev.subFor_congr (n k x : Nat) : d'.subFor n k x = d.subFor n k x := by
  have hslice : d'.slice = d.slice := h.1 .slices (by decide)
  rw [Dev.subFor, Dev.subFor, Dev.slotOf, Dev.slotOf, Dev.slotCount, Dev.slotCount, hslice,
    Dev.frame_get h CV_GRP_STAT.STATE _ _ _ (by decide), Dev.frame_get h CV_SLOTMAP.SLOT _ _ _ (by decide)]

/-- Nor does what a frame carries. -/
theorem Dev.rawFrame_congr (n : Nat) (codes : List (BitVec 10)) : d'.rawFrame n codes = d.rawFrame n codes := by
  have hnow : d'.now = d.now := h.1 .clock (by decide)
  have hslice : d'.slice = d.slice := h.1 .slices (by decide)
  rw [Dev.rawFrame, Dev.rawFrame, Dev.sliceOn_congr h, Dev.frame_get h CV_SSTAT.INTERP_TH _ _ _ (by decide),
    Dev.frame_flag h CV_SSTAT.INJ_ACTIVE _ _ _ (by decide), Dev.frame_flag h CV_SSTAT.DEGRADED _ _ _ (by decide), hnow,
    hslice, funext (Dev.subFor_congr h n d.now)]

end

/-- A slice that is enabled, clocked and locked sends its frame out, after it has counted the overrange frames (R60, R65). -/
theorem Dev.sampleFrameEff_of_on {d : Dev} {n : Nat} (codes : List (BitVec 10)) (hen : d.flag CV_SCTL.EN n = true)
    (htb : d.tb.locked = true) (hlock : (d.slice.get n).locked = true)
    (hraw : ∀ f ∈ (d.path.get n).raw, f.k < d.now) :
    d.sampleFrameEff n codes = if d.sliceOn n then (d.overrangeCount n).setOut n (d.rawFrame n codes)
      else ((d.overrangeCount n).setOut n (d.rawFrame n codes)).count CV_NRDY_CNT.COUNT n := by
  have hslice : (d.overrangeCount n).slice = d.slice := (d.overrangeCount_frame n).1 .slices (by decide)
  have hnew : ((d.path.get n).raw.any fun f => decide (d.now ≤ f.k)) = false := by
    rw [List.any_eq_false]
    intro f hf
    rw [decide_eq_true_eq, Nat.not_le]
    exact hraw f hf
  rw [Dev.sampleFrameEff, hen, htb, hlock, hnew, ← Dev.rawFrame_congr (d.overrangeCount_frame n),
    ← Dev.sliceOn_congr (d.overrangeCount_frame n), Dev.rawFrame, hslice]
  rfl

section
variable (d : Dev) (n : Nat)

theorem Path.counted_of_none {p : Path} {k : Nat}
    (h : (p.raw.filter fun f => f.ovr && decide (f.k + 3 ≤ k)).length = 0) : p.counted k = p.raw := by
  rw [List.length_eq_zero_iff, List.filter_eq_nil_iff] at h
  refine (List.map_congr_left fun f hf => if_neg ?_).trans (List.map_id _)
  rw [← decide_eq_true_eq (p := f.k + 3 ≤ k), ← Bool.and_eq_true]
  exact h f hf

theorem Dev.overrangeCount_raw : ((d.overrangeCount n).path.get n).raw = (d.path.get n).counted d.now := by
  unfold Dev.overrangeCount
  dsimp only
  split
  · next h => exact (Path.counted_of_none h).symm
  · rw [Dev.raiseHeld_path, Dev.count_path, Dev.setPath_path, Tab.get_set_same, Path.counted]
    exact List.map_congr_left fun f _ => ite_congr (by rw [Bool.and_eq_true, decide_eq_true_eq]) (fun _ => rfl) fun _ => rfl

theorem Dev.overrangeCount_path_ne {m : Nat} (hm : m ≠ n) : (d.overrangeCount n).path.get m = d.path.get m := by
  unfold Dev.overrangeCount
  dsimp only
  split
  · rfl
  · rw [Dev.raiseHeld_path, Dev.count_path, Dev.setPath_path, Tab.get_set_ne _ hm]

theorem Dev.overrangeCount_count : (d.overrangeCount n).get CV_OVR_CNT.COUNT n
    = min (2 ^ CV_OVR_CNT.COUNT.w - 1) (d.get CV_OVR_CNT.COUNT n
        + ((d.path.get n).raw.filter fun f => f.ovr && decide (f.k + 3 ≤ d.now)).length) := by
  unfold Dev.overrangeCount
  dsimp only
  split
  · next h =>
    rw [h, Nat.add_zero, Nat.min_eq_right]
    exact Nat.le_sub_one_of_lt (Dev.get_lt _ _ _ _ _)
  · rw [Dev.raiseHeld_get, Dev.get_count_eq _ _ _ _ _ (by decide) (by decide), Dev.setPath_get]

theorem Dev.setOut_frame (f : RawFrame) : Dev.frame [.paths, .slices] [] d (d.setOut n f) :=
  Dev.frame_of_ind (fun hP h => Dev.statsAdd_ind (hP.mono (by decide) (by decide)) (hP.path (by decide) _ _ h)) (c := 0x90)
    (g := 0) (by decide) (by decide)

theorem Dev.setOut_path (f : RawFrame) :
    (d.setOut n f).path = d.path.set n { d.path.get n with raw := (d.path.get n).raw ++ [f] } :=
  (Dev.statsAdd_frame _ n f).1 .paths (by decide)

end

/-- A frame that is not valid is counted (R65). -/
theorem Dev.get_sampleFrame_nrdy {d x : Dev} {n : Nat} (h : x.get CV_NRDY_CNT.COUNT n = d.get CV_NRDY_CNT.COUNT n) :
    (if d.sliceOn n then x else x.count CV_NRDY_CNT.COUNT n).get CV_NRDY_CNT.COUNT n
      = if d.sliceOn n then d.get CV_NRDY_CNT.COUNT n
        else min (2 ^ CV_NRDY_CNT.COUNT.w - 1) (d.get CV_NRDY_CNT.COUNT n + 1) := by
  split
  · exact h
  · rw [Dev.get_count_eq _ _ _ _ _ (by decide) (by decide), h]

theorem exec_sampleFrame_setsOut {s : State} {n : Fin 4} {codes : List (BitVec 10)} (hw : s.dev.bus.writes = [])
    (hl : codes.length = 64) (hen : s.dev.flag CV_SCTL.EN n = true) (htb : s.dev.tb.locked = true)
    (hlock : (s.dev.slice.get n).locked = true) (hraw : ∀ f ∈ (s.dev.path.get n).raw, f.k < s.dev.now) :
    ∃ t, exec (.sampleFrame n codes) s = .next t
      ∧ (t.dev.path.get n).raw = (s.dev.path.get n).counted s.dev.now ++ [s.dev.rawFrame n codes]
      ∧ t.dev.get CV_OVR_CNT.COUNT n = min (2 ^ CV_OVR_CNT.COUNT.w - 1) (s.dev.get CV_OVR_CNT.COUNT n
          + ((s.dev.path.get n).raw.filter fun f => f.ovr && decide (f.k + 3 ≤ s.dev.now)).length)
      ∧ t.dev.get CV_NRDY_CNT.COUNT n = (if s.dev.sliceOn n = true then s.dev.get CV_NRDY_CNT.COUNT n
          else min (2 ^ CV_NRDY_CNT.COUNT.w - 1) (s.dev.get CV_NRDY_CNT.COUNT n + 1))
      ∧ (∀ m, m ≠ n.val → t.dev.path.get m = s.dev.path.get m) := by
  have heff := Dev.sampleFrameEff_of_on codes hen htb hlock hraw
  have hovr := s.dev.overrangeCount_frame n
  have hout := (s.dev.overrangeCount n).setOut_frame n (s.dev.rawFrame n codes)
  have hpath : (s.dev.sampleFrameEff n codes).path
      = ((s.dev.overrangeCount n).setOut n (s.dev.rawFrame n codes)).path := by
    rw [heff]
    split
    · rfl
    · exact Dev.count_path _ _ _ _ _
  have hcount : (s.dev.sampleFrameEff n codes).get CV_OVR_CNT.COUNT n
      = (s.dev.overrangeCount n).get CV_OVR_CNT.COUNT n := by
    rw [← Dev.frame_get hout _ _ _ _ (by decide), heff]
    split
    · rfl
    · exact Dev.get_count_other _ _ _ _ _ _ _ _ _ (by decide)
  refine ⟨_, (exec_sampleFrame hl n s).trans (State.row_of_empty hw _), ?_⟩
  dsimp only
  rw [hpath, Dev.setOut_path, Tab.get_set_same, hcount, Dev.overrangeCount_count, Dev.overrangeCount_raw, heff]
  refine ⟨rfl, rfl, Dev.get_sampleFrame_nrdy ?_, fun m hm => ?_⟩
  · rw [Dev.frame_get hout _ _ _ _ (by decide), Dev.frame_get hovr _ _ _ _ (by decide)]
  · rw [Tab.get_set_ne _ hm, Dev.overrangeCount_path_ne _ _ hm]

/-- Settles O19: each command by what its effect leaves of the slice, its groups and its path. -/
theorem sliceLifeCommandsAct : Obligations.SliceLifeCommandsAct := fun _ _ hw =>
  ⟨exec_sliceEnable hw, fun _ => exec_enableCalibrationDone hw, exec_sliceClockLoss hw, exec_sliceClockLock hw,
    exec_sliceDisable hw, fun _ => exec_sampleFrame_setsOut hw⟩

end Sys2Proof.Machine

/-! ## What the commands of the time base leave unchanged (04_time_base.md R95, R101, R106, R112) -/

namespace Sys2Proof.Machine

/-- Settles O11: a command leaves unchanged what its effect on the module does. -/
theorem timeBaseCommandsFrame : Obligations.TimeBaseCommandsFrame := by
  intro s s'
  refine ⟨fun _ _ h => row_frame h (Dev.refPresentEff_frame _ _), fun h => row_frame h Dev.refAbsentEff_frame,
    fun _ h => row_frame h (Dev.extPresentEff_frame _), fun _ h => row_frame h (Dev.extAbsentEff_frame _),
    fun _ h => row_frame h (Dev.qualificationExpiryEff_frame _), fun h => row_frame h Dev.synthLockEff_frame,
    fun h => row_frame h Dev.synthUnlockEff_frame, fun h => row_frame h Dev.timeStepEff_frame,
    fun h => row_frame h Dev.holdoverExitEff_frame, fun _ h => row_frame h (Dev.originGoEff_frame _),
    fun h => row_frame h Dev.originSetEff_frame, fun h => row_frame h Dev.tickWrapEff_frame,
    fun _ _ _ h => row_frame h (Dev.ppsInEff_frame _ _ _), fun c hc h => ?pps,
    fun _ _ h => row_frame h (Dev.ptpMessageEff_frame _ _ _ _)⟩
  case pps =>
    obtain rfl | rfl : c = .ppsMissing ∨ c = .ppsOut := by simpa using hc
    · exact row_frame h Dev.ppsMissingEff_frame
    · exact row_frame h Dev.ppsOutEff_frame

end Sys2Proof.Machine

/-! ## Whether the synthesiser is locked (04_time_base.md R103, R106) -/

namespace Sys2Proof.Machine

section
variable (d : Dev)

theorem Dev.tbActive_tb (a : Nat) : (d.tbActive a).tb = d.tb := (d.tbActive_frame a).1 .timeBase (by decide)

/-- No state that the time base enters tells of the lock. -/
theorem Dev.tbEnter_locked (st : Nat) : (d.tbEnter st).tb.locked = d.tb.locked := by
  unfold Dev.tbEnter
  dsimp only
  split <;> split <;> rfl

theorem Dev.tbRemove_locked (err : W64) : (d.tbRemove err).tb.locked = d.tb.locked := Dev.tbEnter_locked _ _

theorem Dev.tbTake_locked (src : Nat) (err : W64) : (d.tbTake src err).tb.locked = d.tb.locked := by
  rw [Dev.tbTake]
  split
  · rw [Dev.tbRemove_locked, Dev.setTb_tb, Dev.tbActive_tb]
  · rfl

theorem Dev.tbAligned_locked : d.tbAligned.tb.locked = d.tb.locked := by
  rw [Dev.tbAligned, Dev.raise_tb]
  rfl

theorem Dev.originCancel_locked : d.originCancel.tb.locked = d.tb.locked := by
  rw [Dev.originCancel]
  split
  · rw [Dev.originRefused, Dev.raise_tb]
    rfl
  · rfl

/-- A change of TB_REF_CTL.SEL leaves the lock. -/
theorem Dev.tbSelWritten_locked : d.tbSelWritten.tb.locked = d.tb.locked := by
  unfold Dev.tbSelWritten
  dsimp only
  repeat' split
  all_goals simp only [Dev.decision_tb, Dev.drawn_tb, Dev.raise_tb, Dev.tbTake_locked, Dev.tbEnter_locked, Dev.setTb_tb,
    Dev.tbActive_tb]

theorem Dev.tbUnlock_locked : d.tbUnlock.tb.locked = false := Dev.originCancel_locked _

/-- The time base is locked whether or not its count has to be rebuilt. -/
theorem Dev.tbLock_locked : d.tbLock.tb.locked = true := by
  unfold Dev.tbLock
  dsimp only
  repeat' split
  all_goals simp [Dev.tbAligned_locked, Dev.tbEnter_locked, Dev.tbActive_tb, Dev.newEpoch]

theorem Dev.synthUnlockEff_locked : d.synthUnlockEff.tb.locked = false := by
  rw [Dev.synthUnlockEff]
  split
  · next h => simpa using h
  · exact Dev.tbUnlock_locked _

end

/-- What a lock changes beside the time base (R106): the slices, the trigger units, the needles and the event inputs. -/
theorem Dev.tbLock_synthLockEff {d : Dev} (h : d.tb.locked = false) :
    Dev.frame [.slices, .trigger, .needles, .events] [.CV_SSTAT] d.tbLock d.synthLockEff := by
  rw [Dev.synthLockEff, if_neg (by simp [h])]
  exact Dev.frame_of_ind (c := 0x84280) (g := 0x10) (fun hP hd =>
    Dev.eviRelock_ind (hP.mono (by decide) (by decide))
      (foldl_ind (foldl_ind (foldl_ind hd
        fun _ _ => Dev.sliceClockLockEff_ind (hP.mono (by decide) (by decide)))
        fun _ _ => Dev.updUnit_ind (hP.mono (by decide) (by decide)))
        fun _ _ => Dev.needleRelock_ind (hP.mono (by decide) (by decide)))) (by decide) (by decide)

theorem Dev.synthLockEff_locked (d : Dev) : d.synthLockEff.tb.locked = true := by
  cases h : d.tb.locked with
  | true => rw [Dev.synthLockEff, if_pos h, h]
  | false =>
    have htb : d.synthLockEff.tb = d.tbLock.tb := (Dev.tbLock_synthLockEff h).1 .timeBase (by decide)
    rw [htb, Dev.tbLock_locked]

end Sys2Proof.Machine

/-! ## REF_OUT (04_time_base.md R97, R115; 01_engine_at_a_glance.md R38) -/

namespace Sys2Proof.Machine

/-- REF_OUT is low without the lock and with REFOUT_EN 0 (R97). -/
theorem Dev.refOut_eq (d : Dev) : d.refOut = if d.tb.locked = false ∨ d.flag TB_REF_CTL.REFOUT_EN = false then 0
    else if d.flag TB_REF_CTL.REFOUT_100 = true then 100 else 10 := by
  rw [Dev.refOut]
  cases d.tb.locked <;> cases d.flag TB_REF_CTL.REFOUT_EN <;> rfl

theorem Dev.refOut_unlocked {d : Dev} (h : d.tb.locked = false) : d.refOut = 0 := by
  rw [Dev.refOut_eq, if_pos (.inl h)]

theorem Dev.refOut_locked {d : Dev} (h : d.tb.locked = true) : d.refOut = if d.flag TB_REF_CTL.REFOUT_EN = false then 0
    else if d.flag TB_REF_CTL.REFOUT_100 = true then 100 else 10 := by
  rw [Dev.refOut_eq, h]
  simp

/-! ### A write of TB_REF_CTL -/

/-- The end of a frame of one write: it applies, and the next frame begins. -/
theorem Dev.frameEnd_written_one {d : Dev} (h : d.bus.writes = []) (x : FrameWrite) :
    (d.written x).frameEnd = (WriteRun.apply { d := d } x).finish.advanceTo (d.now + 1) := by
  have hw : (d.written x).bus.writes = [x] := by simp [Dev.written, h]
  have hd : (d.written x).setBus { (d.written x).bus with writes := [] } = d := by
    obtain ⟨_, _, _, ⟨_, _, writes, _, _⟩⟩ := d
    cases h
    rfl
  rw [Dev.frameEnd_of_writes (by simp [hw]), Dev.flush, hd, hw]
  rfl

theorem regAt_refCtl : regAt 0x200000 = some (⟨.TB_REF_CTL, 0, 0, 0⟩, false) := by decide

/-- A write of TB_REF_CTL stands until the frame's writes are over (R494). -/
theorem WriteRun.finish_regFor_refCtl (d : Dev) (rq : Rq) (v : W64) :
    (WriteRun.regFor { d := d } rq ⟨.TB_REF_CTL, 0, 0, 0⟩ v).finish
      = d.settle ⟨.TB_REF_CTL, 0, 0, 0⟩ (Reg.coded ⟨.TB_REF_CTL, 0, 0, 0⟩ (d.rd ⟨.TB_REF_CTL, 0, 0, 0⟩) v) := by
  have hwo : v &&& Rg.TB_REF_CTL.fam.bits (· == .wo) = 0 := BitVec.and_zero
  have hq : hkQueueWrite rq ⟨.TB_REF_CTL, 0, 0, 0⟩ = false := Bool.and_false _
  rw [WriteRun.regFor, hq]
  simp [WriteRun.reg, WriteRun.cur, WriteRun.finish, Dev.writeIgnored, actingRegs, Dev.held, Reg.stored, hwo]

/-- TB_REF_CTL takes its value; the time base may change its source, and neither the lock nor the register changes with it. -/
theorem Dev.settle_refCtl (d : Dev) (x : W64) :
    (d.settle ⟨.TB_REF_CTL, 0, 0, 0⟩ x).tb.locked = d.tb.locked
      ∧ (d.settle ⟨.TB_REF_CTL, 0, 0, 0⟩ x).rd ⟨.TB_REF_CTL, 0, 0, 0⟩ = x &&& Reg.mask ⟨.TB_REF_CTL, 0, 0, 0⟩ := by
  have hs : d.settle ⟨.TB_REF_CTL, 0, 0, 0⟩ x
      = if TB_REF_CTL.SEL.of x = TB_REF_CTL.SEL.of (d.rd ⟨.TB_REF_CTL, 0, 0, 0⟩) then d.wr ⟨.TB_REF_CTL, 0, 0, 0⟩ x
        else (d.wr ⟨.TB_REF_CTL, 0, 0, 0⟩ x).tbSelWritten := rfl
  rw [hs]
  split
  · exact ⟨rfl, Dev.rd_wr_same _ _ _⟩
  · rw [Dev.tbSelWritten_locked, Dev.frame_rd (Dev.tbSelWritten_frame _) _ _ _ _ (by decide)]
    exact ⟨rfl, Dev.rd_wr_same _ _ _⟩

/-- A one-bit field is its bit of the register. -/
theorem Dev.flag_eq_bit (d : Dev) {f : Fld} (hw : f.w = 1) (i j k : Nat) :
    d.flag f i j k = (d.rd ⟨f.g, i, j, k⟩).getLsbD f.lo := Fld.of_bit hw _

/-- A RW bit of TB_REF_CTL takes the bit written. -/
theorem Reg.coded_refCtl_bit {i : Nat} (hi : (Rg.TB_REF_CTL.fam.bits (· == .rw) &&& ~~~ (0 : W64)).getLsbD i = true)
    (hm : (Reg.mask ⟨.TB_REF_CTL, 0, 0, 0⟩).getLsbD i = true) (old v : W64) :
    (Reg.coded ⟨.TB_REF_CTL, 0, 0, 0⟩ old v &&& Reg.mask ⟨.TB_REF_CTL, 0, 0, 0⟩).getLsbD i = v.getLsbD i := by
  rw [BitVec.getLsbD_and, hm, Bool.and_true]
  exact (Reg.getLsbD_coded (r := ⟨.TB_REF_CTL, 0, 0, 0⟩) rfl rfl old v 0 i).trans (if_pos hi)

/-- The module at the end of a frame in which the host alone has written, and that TB_REF_CTL. -/
theorem frameEnd_refCtl {d : Dev} (v : W32) (hw : d.bus.writes = []) (hm : d.hostMode = 1) :
    (d.written (.bus ⟨.host, 0x200000, 4, v.setWidth 64⟩)).frameEnd.tb.locked = d.tb.locked
      ∧ (d.written (.bus ⟨.host, 0x200000, 4, v.setWidth 64⟩)).frameEnd.flag TB_REF_CTL.REFOUT_EN = v.getLsbD 4
      ∧ (d.written (.bus ⟨.host, 0x200000, 4, v.setWidth 64⟩)).frameEnd.flag TB_REF_CTL.REFOUT_100 = v.getLsbD 5 := by
  rw [Dev.frameEnd_written_one hw, WriteRun.apply, WriteRun.one_reg (w := { d := d }) regAt_refCtl rfl rfl (fun _ => hm),
    WriteRun.finish_regFor_refCtl]
  obtain ⟨hlock, hrd⟩ := d.settle_refCtl (Reg.coded ⟨.TB_REF_CTL, 0, 0, 0⟩ (d.rd ⟨.TB_REF_CTL, 0, 0, 0⟩)
    (((v.setWidth 64 : W64).setWidth 32).setWidth 64))
  have hdata : ∀ b, b < 32 → (((v.setWidth 64 : W64).setWidth 32).setWidth 64 : W64).getLsbD b = v.getLsbD b := by
    intro b hb
    simp [hb, show b < 64 by omega]
  rw [Dev.advanceTo_tb, Dev.advanceTo_flag, Dev.advanceTo_flag, Dev.flag_eq_bit _ rfl, Dev.flag_eq_bit _ rfl]
  refine ⟨hlock, (congrArg (BitVec.getLsbD · 4) hrd).trans ?_, (congrArg (BitVec.getLsbD · 5) hrd).trans ?_⟩
  · exact (Reg.coded_refCtl_bit (by decide) (by decide) _ _).trans (hdata 4 (by decide))
  · exact (Reg.coded_refCtl_bit (by decide) (by decide) _ _).trans (hdata 5 (by decide))

/-- Settles O56: REF_OUT rests on the lock and on two bits of TB_REF_CTL, which a lock and a loss of it leave. -/
theorem refOutFollowsTheLock : Obligations.RefOutFollowsTheLock := by
  intro s hw
  refine ⟨⟨_, State.row_of_empty hw _, ?unlock⟩, ⟨_, State.row_of_empty hw _, ?lock⟩, fun v hm => ?write⟩
  case unlock => exact ⟨Dev.synthUnlockEff_locked _, Dev.refOut_unlocked (Dev.synthUnlockEff_locked _)⟩
  case lock =>
    refine ⟨Dev.synthLockEff_locked _, (Dev.refOut_locked (Dev.synthLockEff_locked _)).trans ?_⟩
    rw [Dev.frame_flag s.dev.synthLockEff_frame _ _ _ _ (by decide),
      Dev.frame_flag s.dev.synthLockEff_frame _ _ _ _ (by decide)]
  case write =>
    obtain ⟨hlock, hen, h100⟩ := frameEnd_refCtl v hw hm
    refine ⟨_, exec_registerWrite_one (Dev.hasWritten_of_empty hw _) rfl, rfl, ?_⟩
    dsimp only
    rw [Dev.refOut_eq, hlock, hen, h100]

end Sys2Proof.Machine
/-! ## The source at a lock (04_time_base.md R95)

At a lock the time base goes to an input of higher priority that has stayed present for its qualification time. While the
synthesiser is unlocked no input waits to be taken (Dev.tbWaiting), so the choice is made once the lock is there. O23 reads the
choice off the state before the lock, in which it is the source last in use; of that state it asks only that it is unlocked and
keeps no count. -/

namespace Sys2Proof.Machine

/-- A module that has run on its card oscillator and is unlocked; REF_IN is present, and nothing has to qualify (QUAL 0). -/
def refWaitsForLock : State :=
  ⟨((({} : Dev).put TB_REF_STAT.ACTIVE 3).putb TB_REF_STAT.REF_PRES true).put TB_REF_CTL.QUAL 0, []⟩

/-- Before the lock the choice is the card oscillator. -/
theorem refWaitsForLock_choice : refWaitsForLock.dev.tbChoice = 3 := by decide

/-- At the lock it is REF_IN. -/
theorem refWaitsForLock_tbLock : refWaitsForLock.dev.tbLock.get TB_REF_STAT.ACTIVE = 1 := by decide

theorem synthLock_refWaitsForLock {t : State} (h : exec .synthLock refWaitsForLock = .next t) :
    t.dev.get TB_REF_STAT.ACTIVE = 1 := by
  have hrow : exec .synthLock refWaitsForLock = .next ⟨refWaitsForLock.dev.synthLockEff, []⟩ := State.row_of_empty rfl _
  injection hrow.symm.trans h with hst
  rw [← hst, Dev.frame_get (Dev.tbLock_synthLockEff rfl) _ _ _ _ (by decide), refWaitsForLock_tbLock]

/-- Refutes O23: SYNTH_LOCK of `refWaitsForLock` takes REF_IN, which has qualified (R95), where the statement has the source
that would be chosen without the lock. -/
theorem not_referenceCommandsAct : ¬ Obligations.ReferenceCommandsAct := by
  intro h
  obtain ⟨-, -, -, -, -, hlock, -⟩ := h refWaitsForLock rfl
  obtain ⟨t, ht, -, hactive, -⟩ := hlock rfl rfl
  rw [synthLock_refWaitsForLock ht, refWaitsForLock_choice] at hactive
  exact absurd hactive (by decide)

end Sys2Proof.Machine

/-! ## The origin, the wrap of TICK, PPS and PTP (04_time_base.md R98, R100, R101, R102, R112, R113) -/

namespace Sys2Proof.Machine

/-- A value that fits its field reads back. -/
theorem Dev.get_put_lt (d : Dev) {f : Fld} {v : Nat} (i j k : Nat) (h : f.whole = true) (hv : v < 2 ^ f.w) :
    (d.put f v i j k).get f i j k = v := by rw [Dev.get_put_eq _ _ _ _ _ _ h, Nat.mod_eq_of_lt hv]

/-! ### ORIGIN_GO -/

/-- With no record open an origin set is armed (R101). -/
theorem Dev.originGoEff_of_closed {d : Dev} (h : d.recordOpen = false) (b : Nat) :
    d.originGoEff b = ((d.put TB_ORIGIN_CTL.WHEN b).setTb { d.tb with
      armed := some (if b = 3 then 0 else b)
      due := if (if b = 3 then 0 else b) = 0 then some (d.now + 1) else none }).put TB_ORIGIN_CTL.RESULT 1 :=
  if_neg (Bool.eq_false_iff.1 h)

theorem exec_originGo {s : State} (hw : s.dev.bus.writes = []) (b : BitVec 2) (h : s.dev.recordOpen = false) :
    ∃ t, exec (.originGo b) s = .next t ∧ t.dev.get TB_ORIGIN_CTL.RESULT = 1
      ∧ t.dev.get TB_ORIGIN_CTL.WHEN = b.toNat
      ∧ t.dev.tb.armed = some (if b = 3 then 0 else b.toNat)
      ∧ t.dev.tb.due = (if b = 0 ∨ b = 3 then some (s.dev.now + 1) else none)
      ∧ t.dev.tb.epochs = s.dev.tb.epochs := by
  have h3 : b.toNat = 3 ↔ b = 3 := ⟨fun e => BitVec.eq_of_toNat_eq e, fun e => e ▸ rfl⟩
  have h0 : (if b = 3 then 0 else b.toNat) = 0 ↔ b = 0 ∨ b = 3 := by
    by_cases e : b = 3
    · simp [e]
    · rw [if_neg e, or_iff_left e]
      exact ⟨fun e => BitVec.eq_of_toNat_eq e, fun e => e ▸ rfl⟩
  refine ⟨_, State.row_of_empty hw _, ?_⟩
  dsimp only
  rw [Dev.originGoEff_of_closed h, Dev.get_put_lt _ _ _ _ (by decide) (by decide),
    Dev.get_put_other _ _ _ _ _ _ _ _ _ _ (by decide) (by decide), Dev.setTb_get,
    Dev.get_put_lt _ _ _ _ (by decide) b.isLt]
  simp only [Dev.put_tb, Dev.setTb_tb, h3, h0, and_self]

/-! ### ORIGIN_SET -/

/-- The stretch of the count that has begun last, from its frame on. -/
theorem Dev.epochAt_of_cons {d : Dev} {e : Epoch} {l : List Epoch} (h : d.tb.epochs = e :: l) {k : Nat} (hk : e.frame ≤ k) :
    d.epochAt k = e := by simp [Dev.epochAt, h, hk]

theorem Dev.countAt_eq (d : Dev) (k : Nat) : d.countAt k = (d.epochAt k).val + 64 * (k - (d.epochAt k).frame) := rfl

/-- An armed origin set takes place at its boundary while the synthesiser is locked (R101). -/
theorem Dev.originSetEff_of_due {d : Dev} {k : Nat} (hdue : d.tb.due = some k) (harmed : d.tb.armed.isSome = true)
    (hlock : d.tb.locked = true) :
    ∃ e : Dev, d.originSetEff = ((e.put TB_ORIGIN_CTL.RESULT 2).putb TB_REF_STAT.VALID true).raise 80
      ∧ e.now = (d.advanceTo k).now ∧ e.tb.armed = none ∧ e.tb.due = none
      ∧ ∃ x : Epoch, e.tb.epochs = { x with frame := k, val := 0, valid := true } :: d.tb.epochs := by
  obtain ⟨w, hw⟩ := Option.isSome_iff_exists.1 harmed
  rw [Dev.originSetEff, hw, hdue]
  dsimp only
  rw [if_neg (by simp [hlock])]
  refine ⟨_, rfl, rfl, rfl, rfl, (d.advanceTo k).epochAt (d.advanceTo k).now, ?_⟩
  simp [Dev.newEpoch]

theorem exec_originSet {s : State} (hw : s.dev.bus.writes = []) {k : Nat} (hdue : s.dev.tb.due = some k)
    (harmed : s.dev.tb.armed.isSome = true) (hlock : s.dev.tb.locked = true) (hk : s.dev.now ≤ k) :
    ∃ t, exec .originSet s = .next t ∧ t.dev.now = k ∧ t.dev.countAt k = 0 ∧ (t.dev.epochAt k).valid = true
      ∧ t.dev.tb.armed = none ∧ t.dev.tb.due = none ∧ t.dev.get TB_ORIGIN_CTL.RESULT = 2
      ∧ t.dev.flag TB_REF_STAT.VALID = true ∧ t.dev.raised k 80 := by
  obtain ⟨e, he, hnow, harm, hdue', x, hx⟩ := Dev.originSetEff_of_due hdue harmed hlock
  have hk' : e.now = k := by rw [hnow, Dev.advanceTo_now, Nat.max_eq_right hk]
  have hep : s.dev.originSetEff.epochAt k = { x with frame := k, val := 0, valid := true } :=
    Dev.epochAt_of_cons (by rw [he, Dev.raise_tb]; exact hx) (Nat.le_refl k)
  refine ⟨_, State.row_of_empty hw _, ?_⟩
  dsimp only
  rw [Dev.countAt_eq, hep, he]
  simp only [Dev.raise_now, Dev.raise_tb, Dev.putb_tb, Dev.put_tb, Dev.putb_now, Dev.put_now, harm, hdue', hk', Nat.sub_self,
    true_and]
  refine ⟨?_, ?_, ?_⟩
  · rw [Dev.raise_get, Dev.putb, Dev.get_put_other _ _ _ _ _ _ _ _ _ _ (by decide) (by decide),
      Dev.get_put_lt _ _ _ _ (by decide) (by decide)]
  · rw [Dev.raise_flag, Dev.flag_putb_whole _ _ _ _ _ _ (by decide)]
  · have hr := Dev.raise_raised ((e.put TB_ORIGIN_CTL.RESULT 2).putb TB_REF_STAT.VALID true) 80
    rwa [Dev.putb_now, Dev.put_now, hk'] at hr

/-! ### TICK_WRAP -/

/-- A wrap of TICK on the way raises its event in its frame (R100). -/
theorem Dev.advanceTo_raises_wrap {d : Dev} {t : Nat} (ht : d.now < t)
    (h : d.countAt d.now % 2 ^ 72 / 2 ^ 64 < (d.countAt d.now % 2 ^ 72 + 64 * (t - d.now)) / 2 ^ 64) :
    (d.advanceTo t).raised (d.now + (2 ^ 64 - d.countAt d.now % 2 ^ 72 % 2 ^ 64) / 64) 76 := by
  rw [Dev.advanceTo, if_neg (Nat.not_le.2 ht)]
  dsimp only
  rw [if_pos h]
  split
  · exact Dev.raised_raiseAt (Dev.raiseAt_raised _ _ _) _ _
  · exact Dev.raiseAt_raised _ _ _

theorem exec_tickWrap {s : State} (hw : s.dev.bus.writes = []) :
    ∃ t, exec .tickWrap s = .next t
      ∧ t.dev.now = s.dev.now + (2 ^ 64 - s.dev.countAt s.dev.now % 2 ^ 64) / 64
      ∧ (s.dev.countAt s.dev.now % 64 = 0 → t.dev.raised t.dev.now 76)
      ∧ t.dev.regs = s.dev.regs ∧ t.dev.tb = s.dev.tb := by
  have hnow : s.dev.tickWrapEff.now = s.dev.now + (2 ^ 64 - s.dev.countAt s.dev.now % 2 ^ 64) / 64 := by
    rw [Dev.tickWrapEff, Dev.advanceTo_now]
    exact Nat.max_eq_right (Nat.le_add_right _ _)
  refine ⟨_, State.row_of_empty hw _, hnow, fun h64 => ?_, Dev.advanceTo_regs _ _, Dev.advanceTo_tb _ _⟩
  dsimp only
  have hmod : s.dev.countAt s.dev.now % 2 ^ 72 % 2 ^ 64 = s.dev.countAt s.dev.now % 2 ^ 64 :=
    Nat.mod_mod_of_dvd _ (by decide)
  rw [hnow, ← hmod]
  refine Dev.advanceTo_raises_wrap ?_ ?_ <;> omega

/-! ### PPS_IN -/

/-- A word of a 128-bit value, as it is written to a register (R110). -/
theorem toNat_word (v : BitVec 128) (w : Nat) :
    ((v >>> (32 * w)).setWidth 64 &&& (0xFFFFFFFF : W64)).toNat = v.toNat / 2 ^ (32 * w) % 2 ^ 32 := by
  have hmask : (0xFFFFFFFF : W64).toNat = 2 ^ 32 - 1 := rfl
  rw [BitVec.toNat_and, hmask, Nat.and_two_pow_sub_one_eq_mod, BitVec.toNat_setWidth, BitVec.toNat_ushiftRight,
    Nat.shiftRight_eq_div_pow, Nat.mod_mod_of_dvd _ (by decide)]

/-- What a 128-bit value that stands in four registers reads as (R110). -/
theorem Dev.get_wr128 (d : Dev) {f : Fld} (hf : f.whole = true) (hbits : f.lo = 0 ∧ f.w = 32) (v : BitVec 128) {w : Nat}
    (hw : w < 4) : (d.wr128 f.g 0 true v).get f w = v.toNat / 2 ^ (32 * w) % 2 ^ 32 := by
  have hall := foldl_range_ind (k := 4) (s := d)
    (f := fun d w => d.wr ⟨f.g, w, 0, 0⟩ ((v >>> (32 * w)).setWidth 64 &&& 0xFFFFFFFF))
    (fun i (e : Dev) => ∀ w, w < i → e.get f w = v.toNat / 2 ^ (32 * w) % 2 ^ 32) nofun fun i e _ hi w hwi => by
      by_cases h : w = i
      · rw [h, Dev.get_wr_eq _ _ _ _ _ _ hf, toNat_word, hbits.1, hbits.2, Nat.pow_zero, Nat.div_one, Nat.mod_mod]
      · have hr : (⟨f.g, w, 0, 0⟩ : Reg) ≠ ⟨f.g, i, 0, 0⟩ := fun x => h (congrArg Reg.i x)
        rw [Dev.get, Dev.rd_wr_ne _ hr]
        exact hi w (by omega)
  exact hall w hw

theorem Dev.pinInst_of_zero {d : Dev} {x : Nat} (h : d.gets SYN_IDLY.DELAY x = 0) (n : Nat) : d.pinInst x n = n := by
  rw [Dev.pinInst, h]
  omega

/-- The record of an instant is that of its sample and fraction. -/
theorem Dev.stampInst_sample (d : Dev) (seq k : Nat) (sample : Fin 64) (frac : BitVec 16) :
    d.stampInst seq ((k * 64 + sample.val) * 65536 + frac.toNat) = d.stamp seq k sample.val frac.toNat true := by
  have hf := frac.isLt
  have hframe : ((k * 64 + sample.val) * 65536 + frac.toNat) / 65536 / 64 = k := by omega
  have hsample : ((k * 64 + sample.val) * 65536 + frac.toNat) / 65536 % 64 = sample.val := by omega
  have hfrac : ((k * 64 + sample.val) * 65536 + frac.toNat) % 65536 = frac.toNat := by omega
  rw [Dev.stampInst, hframe, hsample, hfrac]

/-- An edge of PPS_IN whose record is `v` is captured and counted (R112). -/
def Dev.ppsCaptured (d : Dev) (v : BitVec 128) : Dev :=
  let d := d.wr128 .TB_PPS_CAP 0 true v
  (d.setTb { d.tb with ppsSeq := d.tb.ppsSeq + 1, ppsLast := some d.now, ppsLate := false }).raise 78

theorem Dev.wr128_frame (d : Dev) (g : Rg) (i : Nat) (single : Bool) (v : BitVec 128) :
    Dev.frame [] [g] d (d.wr128 g i single v) :=
  Dev.wr128_ind (closed_frame [] [g] d) (by simp [famMask, testBit_maskOf]) (Dev.frame_refl _ _ _)

theorem Dev.wr128_tb (d : Dev) (g : Rg) (i : Nat) (single : Bool) (v : BitVec 128) : (d.wr128 g i single v).tb = d.tb :=
  (d.wr128_frame g i single v).1 .timeBase (by decide)

theorem Dev.wr128_now (d : Dev) (g : Rg) (i : Nat) (single : Bool) (v : BitVec 128) : (d.wr128 g i single v).now = d.now :=
  (d.wr128_frame g i single v).1 .clock (by decide)

theorem Dev.ppsCaptured_tb (d : Dev) (v : BitVec 128) : (d.ppsCaptured v).tb
    = { d.tb with ppsSeq := d.tb.ppsSeq + 1, ppsLast := some d.now, ppsLate := false } := by
  rw [Dev.ppsCaptured, Dev.raise_tb, Dev.setTb_tb, Dev.wr128_tb, Dev.wr128_now]

theorem Dev.ppsCaptured_word (d : Dev) (v : BitVec 128) {w : Nat} (hw : w < 4) :
    (d.ppsCaptured v).get TB_PPS_CAP.WORD w = v.toNat / 2 ^ (32 * w) % 2 ^ 32 := by
  rw [Dev.ppsCaptured, Dev.raise_get, Dev.setTb_get]
  exact d.get_wr128 (f := TB_PPS_CAP.WORD) (by decide) ⟨rfl, rfl⟩ v hw

theorem Dev.ppsCaptured_raised (d : Dev) (v : BitVec 128) : (d.ppsCaptured v).raised d.now 78 := by
  have hr := Dev.raise_raised ((d.wr128 .TB_PPS_CAP 0 true v).setTb { (d.wr128 .TB_PPS_CAP 0 true v).tb with
    ppsSeq := (d.wr128 .TB_PPS_CAP 0 true v).tb.ppsSeq + 1, ppsLast := some (d.wr128 .TB_PPS_CAP 0 true v).now
    ppsLate := false }) 78
  rwa [Dev.setTb_now, Dev.wr128_now] at hr

/-- An edge can fix the boundary of an armed origin set, and changes nothing else. -/
theorem Dev.originEdge_due (d : Dev) (w inst : Nat) : ∃ x, d.originEdge w inst = d.setTb { d.tb with due := x } := by
  rw [Dev.originEdge]
  split
  · exact ⟨_, rfl⟩
  · exact ⟨d.tb.due, rfl⟩

/-- An edge that no alignment waits for is captured; an armed origin set may wait for it. -/
theorem Dev.ppsInEff_of_aligned {d : Dev} (h : d.tb.aligning = false) (hdly : d.gets SYN_IDLY.DELAY 20 = 0)
    (sample : Fin 64) (frac : BitVec 16) (err : W64) :
    ∃ x, d.ppsInEff sample.val frac.toNat err
      = (d.ppsCaptured (d.stamp d.tb.ppsSeq d.now sample.val frac.toNat true)).setTb
          { (d.ppsCaptured (d.stamp d.tb.ppsSeq d.now sample.val frac.toNat true)).tb with due := x } := by
  obtain ⟨x, hx⟩ := (d.ppsCaptured (d.stamp d.tb.ppsSeq d.now sample.val frac.toNat true)).originEdge_due 1
    ((d.now * 64 + sample.val) * 65536 + frac.toNat)
  refine ⟨x, ?_⟩
  have heff : d.ppsInEff sample.val frac.toNat err
      = let inst := d.pinInst 20 ((d.now * 64 + sample.val) * 65536 + frac.toNat)
        let e := (d.ppsCaptured (d.stampInst d.tb.ppsSeq inst)).originEdge 1 inst
        if e.tb.aligning && e.get TB_PPS_CTL.ALIGN_SRC = 1 then e.tbAlign err else e := rfl
  rw [heff]
  dsimp only
  rw [Dev.pinInst_of_zero hdly, Dev.stampInst_sample, hx]
  simp [Dev.ppsCaptured_tb, h]

theorem exec_ppsIn {s : State} (hw : s.dev.bus.writes = []) (sample : Fin 64) (frac : BitVec 16) (err : W64)
    (halign : s.dev.tb.aligning = false) (hdly : s.dev.gets SYN_IDLY.DELAY 20 = 0) :
    ∃ t, exec (.ppsIn sample frac err) s = .next t ∧ t.dev.tb.ppsSeq = s.dev.tb.ppsSeq + 1
      ∧ t.dev.tb.ppsLast = some s.dev.now
      ∧ (∀ w, w < 4 → t.dev.get TB_PPS_CAP.WORD w
          = (s.dev.stamp s.dev.tb.ppsSeq s.dev.now sample.val frac.toNat true).toNat / 2 ^ (32 * w) % 2 ^ 32)
      ∧ t.dev.raised s.dev.now 78 := by
  obtain ⟨x, hx⟩ := Dev.ppsInEff_of_aligned halign hdly sample frac err
  refine ⟨_, State.row_of_empty hw _, ?_⟩
  dsimp only
  rw [hx, Dev.setTb_tb, Dev.ppsCaptured_tb]
  exact ⟨rfl, rfl, fun w hw => (Dev.setTb_get _ _ _ _ _ _).trans (Dev.ppsCaptured_word _ _ hw),
    (Dev.raised_congr (Dev.setTb_evr _ _) _ _).2 (Dev.ppsCaptured_raised _ _)⟩

/-! ### PPS_MISSING -/

/-- An edge that has not been followed by another is missed once 1.1 s have passed (R112). -/
theorem Dev.ppsMissingEff_of_last {d : Dev} {k : Nat} (hlast : d.tb.ppsLast = some k) (hlate : d.tb.ppsLate = false) :
    d.ppsMissingEff = ((d.advanceTo (k + 1375000000)).setTb
      { (d.advanceTo (k + 1375000000)).tb with ppsLate := true }).raise 79 := by
  rw [Dev.ppsMissingEff, hlast]
  dsimp only
  rw [if_neg (Bool.eq_false_iff.1 hlate)]

theorem exec_ppsMissing {s : State} (hw : s.dev.bus.writes = []) {k : Nat} (hlast : s.dev.tb.ppsLast = some k)
    (hlate : s.dev.tb.ppsLate = false) :
    ∃ t, exec .ppsMissing s = .next t ∧ t.dev.now = max s.dev.now (k + 1375000000) ∧ t.dev.tb.ppsLate = true
      ∧ t.dev.regs = s.dev.regs ∧ t.dev.raised t.dev.now 79 := by
  refine ⟨_, State.row_of_empty hw _, ?_⟩
  dsimp only
  rw [Dev.ppsMissingEff_of_last hlast hlate]
  refine ⟨?_, ?_, ?_, ?_⟩
  · rw [Dev.raise_now, Dev.setTb_now, Dev.advanceTo_now]
  · rw [Dev.raise_tb, Dev.setTb_tb]
  · rw [Dev.raise_regs, Dev.setTb_regs, Dev.advanceTo_regs]
  · rw [Dev.raise_now]
    exact Dev.raise_raised _ _

/-! ### PPS_OUT -/

/-- PPS_OUT rises at the next TAI second, `k` in 1/16 tick, unless the latest pulse has risen there (R102, R112). -/
theorem Dev.ppsOutEff_of_allowed {d : Dev} {k : Nat}
    (hk : (d.now * 64 + (secondTicks - (d.taiAt d.now).2) % secondTicks) * 16 = k) (hallowed : d.ppsAllowed = true)
    (hnew : ∀ p, d.tb.ppsOut = some p → p.1 ≠ k) :
    d.ppsOutEff = (d.advanceTo (k / 1024)).setTb { (d.advanceTo (k / 1024)).tb with
      ppsOut := some (k, k + max 1 ((d.advanceTo (k / 1024)).get TB_PPS_CTL.WIDTH) * 80000 * 16) } := by
  have hrise : ((d.tb.ppsOut.map Prod.fst) == some k) = false := by
    cases hp : d.tb.ppsOut with
    | none => rfl
    | some p => simpa using hnew p hp
  rw [Dev.ppsOutEff, if_pos hallowed]
  dsimp only
  rw [hk, hrise]
  rfl

theorem exec_ppsOut {s : State} (hw : s.dev.bus.writes = []) {k : Nat}
    (hk : (s.dev.now * 64 + (80000000000 - (s.dev.get TB_TAI_OFS.TICKS + s.dev.countAt s.dev.now % 2 ^ 72) % 80000000000)
      % 80000000000) * 16 = k)
    (hen : s.dev.flag TB_PPS_CTL.OUT_EN = true) (hvalid : (s.dev.epochAt s.dev.now).valid = true)
    (hlost : (s.dev.epochAt s.dev.now).reflost = false) (hnew : ∀ p, s.dev.tb.ppsOut = some p → p.1 ≠ k) :
    ∃ t, exec .ppsOut s = .next t ∧ t.dev.now = max s.dev.now (k / 1024)
      ∧ t.dev.tb.ppsOut = some (k, k + max 1 (s.dev.get TB_PPS_CTL.WIDTH) * 1280000) ∧ t.dev.regs = s.dev.regs := by
  have hallowed : s.dev.ppsAllowed = true := by rw [Dev.ppsAllowed, hen, hvalid, hlost]; rfl
  refine ⟨_, State.row_of_empty hw _, ?_⟩
  dsimp only
  rw [Dev.ppsOutEff_of_allowed hk hallowed hnew, Dev.advanceTo_get, Nat.mul_assoc]
  exact ⟨Dev.advanceTo_now _ _, rfl, Dev.advanceTo_regs _ _⟩

/-! ### PTP_MESSAGE -/

/-- The port is in `state`; a change of it raises PTP_STATE (R113, R114). -/
def Dev.ptpEnter (d : Dev) (state : Nat) : Dev :=
  if d.tb.ptpState = state then d else (d.setTb { d.tb with ptpState := state }).raise 82

theorem Dev.ptpEnter_state (d : Dev) (state : Nat) : (d.ptpEnter state).tb.ptpState = state := by
  rw [Dev.ptpEnter]
  split
  · assumption
  · rw [Dev.raise_tb, Dev.setTb_tb]

theorem Dev.ptpEnter_regs (d : Dev) (state : Nat) : (d.ptpEnter state).regs = d.regs := by
  rw [Dev.ptpEnter]
  split
  · rfl
  · exact Dev.raise_regs _ _

theorem Dev.ptpEnter_raised {d : Dev} {state : Nat} (h : d.tb.ptpState ≠ state) : (d.ptpEnter state).raised d.now 82 := by
  rw [Dev.ptpEnter, if_neg h]
  exact Dev.raise_raised _ _

/-- A message that the clock takes, without the master's time (R113). -/
theorem Dev.ptpMessageEff_of_taken {d : Dev} {msg : PtpMsg} {domain state : Nat} (hen : d.flag TB_PTP_CTL.EN = true)
    (hhk : d.hkAbsent = false) (hdom : domain = d.get TB_PTP_CTL.DOMAIN) (hpd : d.pdOn (59 + d.ptpPort) = true)
    (hmsg : ptpTaken msg d.ptpPeer = true)
    (hslave : d.flag TB_PTP_CTL.SLAVE_ONLY = true → state ≠ 5 ∧ state ≠ 6) :
    d.ptpMessageEff msg domain state none = (d.ptpEnter state).setTb { (d.ptpEnter state).tb with
      ptpSent := ptpAnswers msg state ((d.ptpEnter state).flag TB_PTP_CTL.TWO_STEP) } := by
  have hmaster : (d.flag TB_PTP_CTL.SLAVE_ONLY && (state == 5 || state == 6)) = false := by
    cases hs : d.flag TB_PTP_CTL.SLAVE_ONLY with
    | false => rfl
    | true => simpa using hslave hs
  exact if_neg (by simp [hen, hhk, hdom, hpd, hmsg, hmaster])

theorem exec_ptpMessage {s : State} (hw : s.dev.bus.writes = []) {msg : PtpMsg} {domain : BitVec 8} {state : Fin 16}
    (hen : s.dev.flag TB_PTP_CTL.EN = true) (hhk : s.dev.hkAbsent = false)
    (hdom : domain.toNat = s.dev.get TB_PTP_CTL.DOMAIN) (hpd : s.dev.pdOn (59 + s.dev.get TB_PTP_CTL.PORT % 3) = true)
    (hmsg : ptpTaken msg (s.dev.get TB_PTP_CTL.PROFILE == 1) = true)
    (hslave : s.dev.flag TB_PTP_CTL.SLAVE_ONLY = true → state ≠ 5 ∧ state ≠ 6) :
    ∃ t, exec (.ptpMessage ⟨msg, domain, state⟩ none) s = .next t ∧ t.dev.tb.ptpState = state ∧ t.dev.regs = s.dev.regs
      ∧ t.dev.tb.ptpSent = ptpAnswers msg state (s.dev.flag TB_PTP_CTL.TWO_STEP)
      ∧ (s.dev.tb.ptpState ≠ state → t.dev.raised s.dev.now 82) := by
  have hslave' : s.dev.flag TB_PTP_CTL.SLAVE_ONLY = true → state.val ≠ 5 ∧ state.val ≠ 6 := fun h =>
    ⟨fun e => (hslave h).1 (Fin.ext e), fun e => (hslave h).2 (Fin.ext e)⟩
  have htwo : (s.dev.ptpEnter state.val).flag TB_PTP_CTL.TWO_STEP = s.dev.flag TB_PTP_CTL.TWO_STEP := by
    rw [Dev.flag, Dev.flag, Dev.get_congr (Dev.ptpEnter_regs _ _)]
  refine ⟨_, State.row_of_empty hw _, ?_⟩
  dsimp only
  rw [Dev.ptpMessageEff_of_taken hen hhk hdom hpd hmsg hslave', htwo]
  exact ⟨Dev.ptpEnter_state _ _, Dev.ptpEnter_regs _ _, rfl, fun h =>
    (Dev.raised_congr (Dev.setTb_evr _ _) _ _).2 (Dev.ptpEnter_raised h)⟩

/-- Settles O24: each command by what its effect leaves of the time base and its registers. -/
theorem timeBaseEventsAct : Obligations.TimeBaseEventsAct := fun _ hw =>
  ⟨exec_originGo hw, fun _ => exec_originSet hw, exec_tickWrap hw, exec_ppsIn hw, fun _ => exec_ppsMissing hw,
    fun _ => exec_ppsOut hw, fun _ _ _ => exec_ptpMessage hw⟩

end Sys2Proof.Machine

/-! ## What the commands of the trigger units, the record lanes and the skeins leave unchanged
(05_trigger_units.md R129, R137; 06_record_lanes_and_segments.md R149, R165) -/

namespace Sys2Proof.Machine

/-- Once a drop run has ended, WARN and PANIC follow the occupancies that it leaves (13_bench_and_quarry_memory.md R309). -/
theorem Dev.dropRunEndEff_flowUpdate_frame (l : Nat) (d : Dev) :
    Dev.frame [.trigger, .lanes, .tally, .needles, .bench, .queues, .events, .benchMemory, .tallyMemory] [.REC_LSTAT,
      .REC_CNT_NOTICE, .REC_SKN_CP, .REC_SKN_OLDEST, .BEN_STAT, .GLB_CNT_SAT] d (d.dropRunEndEff l).flowUpdate :=
  Dev.frame_trans (Dev.dropRunEndEff_frame l d) (Dev.frame_mono (Dev.flowUpdate_frame _) (by decide) (by decide))

/-- Settles O12: a command leaves unchanged what its effect on the module does. -/
theorem triggerAndLaneCommandsFrame : Obligations.TriggerAndLaneCommandsFrame := by
  intro s s'
  refine ⟨fun _ _ h => row_frame h (Dev.trgEnWriteEff_frame _ _), fun u c hc h => ?request,
    fun _ h => row_frame h (Dev.armingEffectEff_frame _), fun _ h => row_frame h (Dev.levelSourceChangeEff_frame _),
    fun _ _ h => row_frame h (Dev.tcmpLoadEff_frame _ _), fun _ h => row_frame h (Dev.timeCompareEff_frame _),
    fun _ h => row_frame h (Dev.timedTriggerMessageEff_frame _),
    fun _ _ h => row_frame h (Dev.triggerDecisionEff_frame _ _), fun _ h => row_frame h (Dev.prfCommitEff_frame _),
    fun _ h => row_frame h (Dev.prfSwitchEff_frame _), fun _ _ h => row_frame h (Dev.laneEnableEff_frame _ _),
    fun _ h => row_frame h (Dev.laneDisableEff_frame _), fun _ h => row_frame h (Dev.laneFlushEff_frame _),
    fun _ _ _ h => row_frame h (Dev.segmentRequestEff_frame _ _ _),
    fun _ h => row_frame h (Dev.requestActiveEff_frame _), fun _ h => row_frame h (Dev.hoistWindowPlacedEff_frame _),
    fun _ h => row_frame h (Dev.segmentEndEff_frame _), fun _ h => row_frame h (Dev.segmentRecordEff_frame _),
    fun h => row_frame h Dev.recordDrainEff_frame, fun _ h => row_frame h (Dev.closeEntryFreedEff_frame _),
    fun _ h => rowLast_frame h (Dev.skeinDefineEff_frame _), fun _ h => row_frame h (Dev.skeinRewindEff_frame _),
    fun l h => row_frame (f := fun d => (d.dropRunEndEff l.val).flowUpdate) h
      (Dev.dropRunEndEff_flowUpdate_frame _)⟩
  case request =>
    obtain rfl | rfl | rfl : c = .trgArmArm u ∨ c = .trgArmDisarm u ∨ c = .trgForce u := by simpa using hc
    · exact row_frame h (Dev.trgArmArmEff_frame _)
    · exact row_frame h (Dev.trgArmDisarmEff_frame _)
    · exact row_frame h (Dev.trgForceEff_frame _)

end Sys2Proof.Machine

/-! ## What the commands of decimation, the tally and the event inputs leave unchanged
(07_decimation_units.md R178; 08_tally_and_mask_testing.md R213; 09_event_inputs_and_interval_timing.md R216) -/

namespace Sys2Proof.Machine

/-- Settles O13: a command leaves unchanged what its effect on the module does. -/
theorem decimationTallyInputCommandsFrame : Obligations.DecimationTallyInputCommandsFrame := by
  intro s s'
  refine ⟨fun _ h => row_frame h (Dev.decCommitEff_frame _), fun _ _ h => row_frame h (Dev.decEnableEff_frame _ _),
    fun _ h => row_frame h (Dev.decRestartEff_frame _), fun h => row_frame h Dev.decSyncGoEff_frame,
    fun h => row_frame h Dev.timedSyncEff_frame, fun _ h => row_frame h (Dev.decItemDeliveryEff_frame _),
    fun _ h => row_frame h (Dev.fastPathItemEff_frame _), fun _ h => row_frame h (Dev.settledEff_frame _),
    fun _ _ h => row_frame h (Dev.tallyStartEff_frame _ _), fun _ h => row_frame h (Dev.tallyClearDoneEff_frame _),
    fun _ h => row_frame h (Dev.tallyStopEff_frame _), fun _ h => row_frame h (Dev.tallyPauseEff_frame _),
    fun j c hc h => ?pausedOrResumed, fun _ h => row_frame h (Dev.tallyTriggerEff_frame _), fun j c hc h => ?recordOrFold,
    fun _ h => row_frame h (Dev.halvingDoneEff_frame _), fun _ h => row_frame h (Dev.maskVerdictEff_frame _),
    fun _ h => row_frame h (Dev.tallyMaskStopEff_frame _), fun _ _ h => row_frame h (Dev.tallySpaceWriteEff_frame _ _),
    fun _ h => row_frame h (Dev.eviGmodeWriteEff_frame _), fun _ h => row_frame h (Dev.groupReadyEff_frame _),
    fun _ _ _ _ h => row_frame h (Dev.eventEdgeEff_frame _ _ _ _),
    fun _ _ _ h => row_frame h (Dev.logicSampleEff_frame _ _ _), fun h => row_frame h Dev.stampCollectEff_frame,
    fun _ h => row_frame h (Dev.batchTimeoutEff_frame _), fun _ _ h => row_frame h (Dev.eviIcfgWriteEff_frame _ _),
    fun _ h => row_frame h (Dev.gaugeStartEff_frame _), fun _ h => row_frame h (Dev.gaugeAutoEff_frame _),
    fun _ h => row_frame h (Dev.gaugeResultEff_frame _), fun _ h => row_frame h (Dev.intervalDrainEff_frame _),
    fun _ _ h => row_frame h (Dev.iuCfgWriteEff_frame _ _), fun h => row_frame h Dev.gaugeTableSaveEff_frame⟩
  case pausedOrResumed =>
    obtain rfl | rfl : c = .tallyPaused j ∨ c = .tallyResume j := by simpa using hc
    · exact row_frame h (Dev.tallyPausedEff_frame _)
    · exact row_frame h (Dev.tallyResumeEff_frame _)
  case recordOrFold =>
    obtain rfl | rfl : c = .tallyRecordComplete j ∨ c = .foldComplete j := by simpa using hc
    · exact row_frame h (Dev.tallyRecordCompleteEff_frame _)
    · exact row_frame h (Dev.foldCompleteEff_frame _)

end Sys2Proof.Machine

/-! ## The life of a tally job (08_tally_and_mask_testing.md R194, R198, R201, R212, R214) -/

namespace Sys2Proof.Machine

theorem Dev.updJob_flag (d : Dev) (j : Nat) (g : TallyJob → TallyJob) (f : Fld) (i i' k : Nat) :
    (d.updJob j g).flag f i i' k = d.flag f i i' k := by rw [Dev.flag, Dev.flag, Dev.updJob_get]

theorem Dev.updJob_mem (d : Dev) (j : Nat) (f : TallyJob → TallyJob) : (d.updJob j f).tal.mem = d.tal.mem := rfl

theorem Dev.updJob_job_same (d : Dev) (j : Nat) (f : TallyJob → TallyJob) :
    (d.updJob j f).tal.job.get j = f (d.tal.job.get j) := Tab.get_upd_same _ _ _

/-! ### Writes to the stores leave the jobs -/

section
variable (d : Dev)

theorem Dev.storeWrite_job (st a : Nat) (b : List Byte) : (d.storeWrite st a b).tal.job = d.tal.job := by
  unfold Dev.storeWrite
  split <;> rfl

theorem Dev.talClear_job (j lo hi : Nat) : (d.talClear j lo hi).tal.job = d.tal.job := by
  unfold Dev.talClear
  dsimp only
  split
  · exact foldl_keeps (fun d : Dev => d.tal.job) _ (fun d _ => d.storeWrite_job _ _ _) _ _
  · split <;> rfl

/-- A clearing moves on the bytes that its job has cleared, and nothing else of the job. -/
theorem Dev.talClearing_job (j : Nat) : ∃ n, (d.talClearing j).tal.job.get j = { d.tal.job.get j with cleared := n } := by
  unfold Dev.talClearing
  dsimp only
  split
  · split
    · exact ⟨_, rfl⟩
    · rw [Dev.updJob_job_same, Dev.talClear_job]
      exact ⟨_, rfl⟩
  · exact ⟨_, rfl⟩

theorem Dev.talClearing_now (j : Nat) : (d.talClearing j).now = d.now := (d.talClearing_frame j).1 .clock (by decide)

theorem Dev.halveColumns_job (j n : Nat) : (d.halveColumns j n).tal.job = d.tal.job := by
  refine foldl_keeps (fun d : Dev => d.tal.job) _ (fun d c => ?_) _ _
  exact foldl_keeps (fun x : Dev × Nat => x.1.tal.job) _ (fun x _ => x.1.storeWrite_job _ _ _) _ _

end

/-- A job between records has nothing to fold. -/
theorem Dev.talFold_of_between {d : Dev} {j : Nat} (h : (d.tal.job.get j).recs = []) : d.talFold j = d := by
  rw [Dev.talFold, h]

/-- A job between records has no record to cut short. -/
theorem Dev.talCut_of_between {d : Dev} {j : Nat} (h : (d.tal.job.get j).recs = []) : d.talCut j = d := by
  rw [Dev.talCut, h]

/-- What a job between records has still to write gives it no record. -/
theorem Dev.talWrites_recs {d : Dev} {j : Nat} (h : (d.tal.job.get j).recs = []) :
    ((d.talWrites j).tal.job.get j).recs = [] := by
  obtain ⟨n, hn⟩ := d.talClearing_job j
  have hrecs : ((d.talClearing j).tal.job.get j).recs = [] := by rw [hn]; exact h
  rw [Dev.talWrites, Dev.talFold_of_between hrecs, Dev.halveColumns_job, hrecs]

/-! ### TALLY_START of a job that passes the rules -/

/-- The counts and flags of a job that starts afresh (R194). -/
def Dev.talCountsZero (d : Dev) (j : Nat) : Dev :=
  (((((d.put TAL_JOB_COUNT.VALUE 0 j).put TAL_JOB_REC.VALUE 0 j).put TAL_JOB_PARTIAL.VALUE 0 j).putb
    TAL_JSTAT.SATURATED false j).putb TAL_JSTAT.DEGRADED false j).putb TAL_JSTAT.HOLDOVER false j

/-- The registers of a job that has passed the rules, with its mask table at `ofs` (R194, R214). -/
def Dev.talAccepted (d : Dev) (j : Nat) (clr : Bool) (ofs : Nat) : Dev :=
  let e := ((d.put TAL_JSTAT.CFG_ERR 0 j).put TAL_JSTAT.REASON 0 j).put TAL_MASK_TBL.OFS ofs j
  if clr then e.talCountsZero j else e

section
variable (d : Dev) (j : Nat) (clr : Bool) (ofs : Nat)

theorem Dev.talAccepted_frame :
    Dev.frame [] [.TAL_JSTAT, .TAL_JOB_COUNT, .TAL_JOB_REC, .TAL_JOB_PARTIAL, .TAL_MASK_TBL] d
      (d.talAccepted j clr ofs) := by
  refine Dev.frame_of_ind (c := 0)
    (g := famMask [.TAL_JSTAT, .TAL_JOB_COUNT, .TAL_JOB_REC, .TAL_JOB_PARTIAL, .TAL_MASK_TBL]) (fun {P} hP h => ?_)
    (by decide) (by decide)
  have hput : ∀ {e : Dev} (f : Fld) (v : Nat), (famMask [.TAL_JSTAT, .TAL_JOB_COUNT, .TAL_JOB_REC, .TAL_JOB_PARTIAL,
      .TAL_MASK_TBL]).testBit f.g.ctorIdx = true → P e → P (e.put f v j) := fun _ _ hg => Dev.put_ind hP hg
  refine ite_ind ?cleared ?kept
  case' cleared => iterate 6 refine hput _ _ (by decide) ?_
  all_goals exact hput _ _ (by decide) (hput _ _ (by decide) (hput _ _ (by decide) h))

/-- An accepted job shows neither an error nor a reason. -/
theorem Dev.talAccepted_noError : (d.talAccepted j clr ofs).get TAL_JSTAT.CFG_ERR j = 0
    ∧ (d.talAccepted j clr ofs).get TAL_JSTAT.REASON j = 0 := by
  constructor <;> cases clr <;> simp (disch := decide) only [Dev.talAccepted, Dev.talCountsZero, Dev.putb,
    Dev.get_put_other, Dev.get_put_lt, if_true, Bool.false_eq_true, if_false]

theorem Dev.talCountsZero_get : (d.talCountsZero j).get TAL_JOB_COUNT.VALUE j = 0
    ∧ (d.talCountsZero j).get TAL_JOB_REC.VALUE j = 0 ∧ (d.talCountsZero j).get TAL_JSTAT.SATURATED j = 0 := by
  refine ⟨?_, ?_, ?_⟩ <;>
    simp (disch := decide) only [Dev.talCountsZero, Dev.putb, Dev.get_put_other, Dev.get_put_lt, Bool.toNat_false]

theorem Dev.talAccepted_count_kept :
    (d.talAccepted j false ofs).get TAL_JOB_COUNT.VALUE j = d.get TAL_JOB_COUNT.VALUE j := by
  simp (disch := decide) only [Dev.talAccepted, Bool.false_eq_true, if_false, Dev.get_put_other]

end

/-- Whether the banks of a job are powered rests on its configuration and the power domains alone. -/
theorem Dev.talPowered_congr {d d' : Dev} {ps : List Part} {l : List Rg} (h : Dev.frame ps l d d') (j : Nat)
    (hcfg : l.contains .TAL_JOB_CFG = false) (hpd : l.contains .HK_PD_STAT = false) :
    d'.talPowered j = d.talPowered j := by
  unfold Dev.talPowered Dev.talBanks Dev.pdOn
  simp only [Dev.frame_get h TAL_JOB_CFG.BANK_CNT _ _ _ hcfg, Dev.frame_get h TAL_JOB_CFG.BANK_FIRST _ _ _ hcfg,
    Dev.frame_get h HK_PD_STAT.ON _ _ _ hpd]

/-- A job at its START: it holds what its registers describe, and verdicts of an earlier run are past (R194, R212). -/
def Dev.talFresh (d : Dev) (j : Nat) (clr : Bool) : TallyJob :=
  { own := some (d.talShape j), ready := some d.now, onAt := if d.talPowered j then some d.now else none, clr := clr
    verdicts := (d.tal.job.get j).verdicts.map fun v => { v with past := true }, failAt := (d.tal.job.get j).failAt }

theorem Dev.talAccepted_fresh (d : Dev) (j : Nat) (clr : Bool) (ofs : Nat) :
    ((d.talAccepted j clr ofs).talFresh j clr).ready = some d.now
      ∧ ((d.talAccepted j clr ofs).talFresh j clr).onAt = if d.talPowered j then some d.now else none := by
  have hframe := d.talAccepted_frame j clr ofs
  have hnow : (d.talAccepted j clr ofs).now = d.now := hframe.1 .clock (by decide)
  rw [Dev.talFresh, hnow, Dev.talPowered_congr hframe _ (by decide) (by decide)]
  exact ⟨rfl, rfl⟩

/-- A job that passes the rules is CLEARING, and a retirement that waited for it is checked again (R194, R316). -/
theorem Dev.tallyStartEff_of_passes {d : Dev} {j : Nat} (clr : Bool)
    (hst : d.get TAL_JSTAT.STATE j = 0 ∨ d.get TAL_JSTAT.STATE j = 4) (hcheck : d.talCheck j = 0) :
    ∃ ofs, d.tallyStartEff j clr = (((d.talAccepted j clr ofs).put TAL_JSTAT.STATE 1 j).updJob j fun _ =>
      (d.talAccepted j clr ofs).talFresh j clr).retireRecheck := by
  have hidle : ¬ (d.get TAL_JSTAT.STATE j ≠ 0 ∧ d.get TAL_JSTAT.STATE j ≠ 4) := by omega
  rw [Dev.tallyStartEff, if_neg hidle, hcheck]
  exact ⟨_, rfl⟩

/-- The registers of a job after a start are those of an accepted job in CLEARING. -/
theorem Dev.get_retireRecheck_clearing (e : Dev) (j : Nat) (x : TallyJob) (f : Fld) (hf : f.whole = true)
    (hg : f.g = .TAL_JSTAT ∨ f.g = .TAL_JOB_COUNT ∨ f.g = .TAL_JOB_REC)
    (hs : (decide (f.g ≠ .TAL_JSTAT) || decide (3 ≤ f.lo)) = true) :
    (((e.put TAL_JSTAT.STATE 1 j).updJob j fun _ => x).retireRecheck).get f j = e.get f j := by
  have hother : (decide (f.g ≠ TAL_JSTAT.STATE.g) || decide (f.lo + f.w ≤ TAL_JSTAT.STATE.lo)
      || decide (TAL_JSTAT.STATE.lo + TAL_JSTAT.STATE.w ≤ f.lo)) = true := by
    rw [Bool.or_eq_true, decide_eq_true_eq, decide_eq_true_eq] at hs
    simp only [Bool.or_eq_true, decide_eq_true_eq]
    exact hs.imp Or.inl id
  rw [Dev.frame_get (Dev.retireRecheck_frame _) _ _ _ _ (by rcases hg with h | h | h <;> rw [h] <;> decide), Dev.updJob_get,
    Dev.get_put_other _ _ _ _ _ _ _ _ _ _ hf hother]

theorem exec_tallyStart_of_passes {s : State} {j : Fin 8} (hw : s.dev.bus.writes = []) (clr : Bool)
    (hst : s.dev.get TAL_JSTAT.STATE j = 0 ∨ s.dev.get TAL_JSTAT.STATE j = 4) (hcheck : s.dev.talCheck j = 0) :
    ∃ t, exec (.tallyStart j clr) s = .next t ∧ t.dev.get TAL_JSTAT.STATE j = 1 ∧ t.dev.get TAL_JSTAT.CFG_ERR j = 0
      ∧ t.dev.get TAL_JSTAT.REASON j = 0
      ∧ (t.dev.tal.job.get j).ready = some s.dev.now ∧ (t.dev.tal.job.get j).clr = clr
      ∧ (t.dev.tal.job.get j).onAt = (if s.dev.talPowered j then some s.dev.now else none)
      ∧ (clr = true → t.dev.get TAL_JOB_COUNT.VALUE j = 0 ∧ t.dev.get TAL_JOB_REC.VALUE j = 0
          ∧ t.dev.flag TAL_JSTAT.SATURATED j = false)
      ∧ (clr = false → t.dev.get TAL_JOB_COUNT.VALUE j = s.dev.get TAL_JOB_COUNT.VALUE j) := by
  obtain ⟨ofs, hstart⟩ := Dev.tallyStartEff_of_passes clr hst hcheck
  obtain ⟨hready, hon⟩ := s.dev.talAccepted_fresh j clr ofs
  refine ⟨_, State.row_of_empty hw _, ?_⟩
  dsimp only
  rw [hstart, Dev.frame_tal (Dev.retireRecheck_frame _) (by decide) (by decide), Dev.updJob_job_same, Dev.flag]
  obtain ⟨herr, hreason⟩ := s.dev.talAccepted_noError j clr ofs
  simp (disch := decide) only [Dev.get_retireRecheck_clearing]
  refine ⟨?state, herr, hreason, hready, rfl, hon, ?cleared, ?kept⟩
  case state =>
    rw [Dev.frame_get (Dev.retireRecheck_frame _) _ _ _ _ (by decide), Dev.updJob_get,
      Dev.get_put_lt _ _ _ _ (by decide) (by decide)]
  case cleared =>
    rintro rfl
    obtain ⟨hcount, hrec, hsat⟩ := (((s.dev.put TAL_JSTAT.CFG_ERR 0 j).put TAL_JSTAT.REASON 0 j).put TAL_MASK_TBL.OFS ofs
      j).talCountsZero_get j
    rw [Dev.talAccepted, if_pos rfl, hcount, hrec, hsat]
    exact ⟨rfl, rfl, rfl⟩
  case kept =>
    rintro rfl
    exact s.dev.talAccepted_count_kept j ofs

/-! ### TALLY_START of a job that fails a rule -/

/-- The rules number their failures from 1 to 4 (R194). -/
theorem Dev.talCheck_le (d : Dev) (j : Nat) : d.talCheck j ≤ 4 := by
  unfold Dev.talCheck
  dsimp only
  repeat' split
  all_goals decide

/-- A job that fails a rule is IDLE, gives its banks up and says so (R194, R214). -/
theorem Dev.tallyStartEff_of_fails {d : Dev} {j : Nat} (clr : Bool)
    (hst : d.get TAL_JSTAT.STATE j = 0 ∨ d.get TAL_JSTAT.STATE j = 4) (hcheck : d.talCheck j ≠ 0) :
    d.tallyStartEff j clr = ((((d.put TAL_JSTAT.CFG_ERR (d.talCheck j) j).put TAL_JSTAT.STATE 0 j).put TAL_JSTAT.REASON 5
      j).updJob j fun x => { x with own := none }).raise (256 + 4 * j) := by
  have hidle : ¬ (d.get TAL_JSTAT.STATE j ≠ 0 ∧ d.get TAL_JSTAT.STATE j ≠ 4) := by omega
  rw [Dev.tallyStartEff, if_neg hidle]
  exact if_pos hcheck

theorem exec_tallyStart_of_fails {s : State} {j : Fin 8} (hw : s.dev.bus.writes = []) (clr : Bool)
    (hst : s.dev.get TAL_JSTAT.STATE j = 0 ∨ s.dev.get TAL_JSTAT.STATE j = 4) (hcheck : s.dev.talCheck j ≠ 0) :
    ∃ t, exec (.tallyStart j clr) s = .next t ∧ t.dev.get TAL_JSTAT.STATE j = 0
      ∧ t.dev.get TAL_JSTAT.CFG_ERR j = s.dev.talCheck j ∧ t.dev.get TAL_JSTAT.REASON j = 5
      ∧ t.dev.tal.mem = s.dev.tal.mem ∧ (t.dev.tal.job.get j).own = none ∧ t.dev.raised s.dev.now (256 + 4 * j) := by
  have hfits : s.dev.talCheck j < 2 ^ TAL_JSTAT.CFG_ERR.w := Nat.lt_of_le_of_lt (s.dev.talCheck_le j) (by decide)
  refine ⟨_, State.row_of_empty hw _, ?_⟩
  dsimp only
  rw [Dev.tallyStartEff_of_fails clr hst hcheck]
  refine ⟨?state, ?err, ?reason, ?mem, ?own, Dev.raise_raised _ _⟩
  case state => simp (disch := decide) only [Dev.raise_get, Dev.updJob_get, Dev.get_put_other, Dev.get_put_lt]
  case err =>
    simp (disch := decide) only [Dev.raise_get, Dev.updJob_get, Dev.get_put_other]
    exact Dev.get_put_lt _ _ _ _ (by decide) hfits
  case reason => simp (disch := decide) only [Dev.raise_get, Dev.updJob_get, Dev.get_put_lt]
  case mem => rw [Dev.raise_tal, Dev.updJob_mem, Dev.put_tal, Dev.put_tal, Dev.put_tal]
  case own => rw [Dev.raise_tal, Dev.updJob_job_same]

/-! ### TALLY_CLEAR_DONE -/

/-- A job whose banks are on from frame `k` runs from the frame in which it is ready (R212). -/
theorem Dev.tallyClearDoneEff_of_on {d : Dev} {j k : Nat} (hon : (d.tal.job.get j).onAt = some k)
    (hpowered : d.talPowered j = true) :
    ∃ e : Dev, e = (d.advanceTo (d.talReadyAt j k (d.tal.job.get j).clr)).talClearing j
      ∧ d.tallyClearDoneEff j = (e.put TAL_JSTAT.STATE 2 j).updJob j fun x =>
        { x with ready := none, onAt := none, runStart := (e.now - 214) * 64, busyEnd := none } := by
  refine ⟨_, rfl, ?_⟩
  rw [Dev.tallyClearDoneEff, hon]
  dsimp only
  rw [hpowered]
  rfl

/-- A job that does not clear writes nothing. -/
theorem Dev.talClearing_of_kept {d : Dev} {j : Nat} (h : (d.tal.job.get j).clr = false) : d.talClearing j = d := by
  unfold Dev.talClearing
  dsimp only
  split
  · rw [h]
    rfl
  · rfl

theorem Dev.talReadyAt_eq (d : Dev) (j k : Nat) (clr : Bool) : d.talReadyAt j k clr
    = k + if clr then max 1 ((d.talAccBytes j + 256 * d.talBanks j - 1) / (256 * d.talBanks j)) else 1 := by
  cases clr <;> rfl

theorem exec_tallyClearDone {s : State} {j : Fin 8} (hw : s.dev.bus.writes = []) {k : Nat}
    (hon : (s.dev.tal.job.get j).onAt = some k) (hpowered : s.dev.talPowered j = true) :
    ∃ t, exec (.tallyClearDone j) s = .next t ∧ t.dev.get TAL_JSTAT.STATE j = 2
      ∧ t.dev.now = max s.dev.now (k + (if (s.dev.tal.job.get j).clr then
          max 1 ((s.dev.talAccBytes j + 256 * s.dev.talBanks j - 1) / (256 * s.dev.talBanks j)) else 1))
      ∧ (t.dev.tal.job.get j).ready = none ∧ (t.dev.tal.job.get j).runStart = (t.dev.now - 214) * 64
      ∧ ((s.dev.tal.job.get j).clr = false → t.dev.tal.mem = s.dev.tal.mem ∧ t.dev.ben = s.dev.ben) := by
  obtain ⟨e, he, hdone⟩ := Dev.tallyClearDoneEff_of_on hon hpowered
  refine ⟨_, State.row_of_empty hw _, ?_⟩
  dsimp only
  rw [hdone, Dev.updJob_get, Dev.get_put_lt _ _ _ _ (by decide) (by decide), Dev.updJob_job_same, Dev.updJob_now,
    Dev.put_now, Dev.updJob_mem, Dev.put_tal, Dev.updJob_ben, Dev.put_ben]
  refine ⟨rfl, ?now, rfl, rfl, fun hclr => ?kept⟩
  case now => rw [he, Dev.talClearing_now, Dev.advanceTo_now, Dev.talReadyAt_eq]
  case kept =>
    rw [he, Dev.talClearing_of_kept (by rw [Dev.advanceTo_tal]; exact hclr), Dev.advanceTo_tal, Dev.advanceTo_ben]
    exact ⟨rfl, rfl⟩

/-! ### TALLY_STOP -/

section
variable (d : Dev) (j reason : Nat)

theorem Dev.talStopped_state : (d.talStopped j reason).get TAL_JSTAT.STATE j = 4 := by
  simp (disch := decide) only [Dev.talStopped, Dev.raise_get, Dev.updJob_get, Dev.get_put_other, Dev.get_put_lt]

theorem Dev.talStopped_reason (h : reason < 2 ^ TAL_JSTAT.REASON.w) :
    (d.talStopped j reason).get TAL_JSTAT.REASON j = reason := by
  rw [Dev.talStopped, Dev.raise_get, Dev.updJob_get, Dev.get_put_lt _ _ _ _ (by decide) h]

theorem Dev.talStopped_halving : ((d.talStopped j reason).tal.job.get j).halving = none := by
  rw [Dev.talStopped, Dev.raise_tal, Dev.updJob_job_same]

theorem Dev.talStopped_raised : (d.talStopped j reason).raised d.now (256 + 4 * j) := Dev.raise_raised _ _

end

/-- A stop between records cuts nothing short (R198). -/
theorem Dev.tallyStopEff_of_between {d : Dev} {j : Nat} (h0 : d.get TAL_JSTAT.STATE j ≠ 0)
    (h4 : d.get TAL_JSTAT.STATE j ≠ 4) (hrecs : (d.tal.job.get j).recs = []) :
    d.tallyStopEff j = (d.talWrites j).talStopped j 1 := by
  rw [Dev.tallyStopEff, if_neg (not_or.2 ⟨h0, h4⟩), hrecs]
  exact (if_neg h4).trans (by rw [Dev.talCut_of_between (Dev.talWrites_recs hrecs)])

theorem exec_tallyStop {s : State} {j : Fin 8} (hw : s.dev.bus.writes = []) (h0 : s.dev.get TAL_JSTAT.STATE j ≠ 0)
    (h4 : s.dev.get TAL_JSTAT.STATE j ≠ 4) (hrecs : (s.dev.tal.job.get j).recs = []) :
    ∃ t, exec (.tallyStop j) s = .next t ∧ t.dev.get TAL_JSTAT.STATE j = 4 ∧ t.dev.get TAL_JSTAT.REASON j = 1
      ∧ (t.dev.tal.job.get j).halving = none ∧ t.dev.get TAL_JOB_COUNT.VALUE j = s.dev.get TAL_JOB_COUNT.VALUE j
      ∧ t.dev.raised s.dev.now (256 + 4 * j) := by
  have hwrites := s.dev.talWrites_frame j
  have hnow : (s.dev.talWrites j).now = s.dev.now := hwrites.1 .clock (by decide)
  refine ⟨_, State.row_of_empty hw _, ?_⟩
  dsimp only
  rw [Dev.tallyStopEff_of_between h0 h4 hrecs,
    Dev.frame_get (Dev.talStopped_frame _ _ _) TAL_JOB_COUNT.VALUE _ _ _ (by decide), Dev.frame_get hwrites _ _ _ _ (by decide), ← hnow]
  exact ⟨Dev.talStopped_state _ _ _, Dev.talStopped_reason _ _ _ (by decide), Dev.talStopped_halving _ _ _, rfl,
    Dev.talStopped_raised _ _ _⟩

/-! ### TALLY_PAUSE, TALLY_PAUSED and TALLY_RESUME -/

theorem exec_tallyPause {s : State} {j : Fin 8} (hw : s.dev.bus.writes = []) (hst : s.dev.get TAL_JSTAT.STATE j = 2) :
    ∃ t, exec (.tallyPause j) s = .next t ∧ (t.dev.tal.job.get j).pausing = true
      ∧ (t.dev.tal.job.get j).recs = (s.dev.tal.job.get j).recs ∧ t.dev.regs = s.dev.regs := by
  have heff : s.dev.tallyPauseEff j = s.dev.updJob j fun x => { x with pausing := true } := if_pos (Or.inl hst)
  refine ⟨_, State.row_of_empty hw _, ?_⟩
  dsimp only
  rw [heff, Dev.updJob_job_same]
  exact ⟨rfl, rfl, rfl⟩

/-- Between records and without a halving pass a PAUSE takes effect (R201). -/
theorem Dev.tallyPausedEff_of_between {d : Dev} {j : Nat} (hp : (d.tal.job.get j).pausing = true)
    (hrecs : (d.tal.job.get j).recs = []) (hhalv : (d.tal.job.get j).halving = none) (hst : d.get TAL_JSTAT.STATE j = 2) :
    d.tallyPausedEff j = (d.put TAL_JSTAT.STATE 3 j).updJob j fun x => { x with pausing := false } :=
  if_pos (by rw [hp, hrecs, hhalv, hst]; rfl)

theorem exec_tallyPaused {s : State} {j : Fin 8} (hw : s.dev.bus.writes = []) (hp : (s.dev.tal.job.get j).pausing = true)
    (hrecs : (s.dev.tal.job.get j).recs = []) (hhalv : (s.dev.tal.job.get j).halving = none)
    (hst : s.dev.get TAL_JSTAT.STATE j = 2) :
    ∃ t, exec (.tallyPaused j) s = .next t ∧ t.dev.get TAL_JSTAT.STATE j = 3
      ∧ (t.dev.tal.job.get j).pausing = false ∧ t.dev.tal.mem = s.dev.tal.mem := by
  refine ⟨_, State.row_of_empty hw _, ?_⟩
  dsimp only
  rw [Dev.tallyPausedEff_of_between hp hrecs hhalv hst, Dev.updJob_get, Dev.get_put_lt _ _ _ _ (by decide) (by decide),
    Dev.updJob_job_same, Dev.updJob_mem, Dev.put_tal]
  exact ⟨rfl, rfl, rfl⟩

theorem exec_tallyResume {s : State} {j : Fin 8} (hw : s.dev.bus.writes = []) (hst : s.dev.get TAL_JSTAT.STATE j = 3) :
    ∃ t, exec (.tallyResume j) s = .next t ∧ t.dev.get TAL_JSTAT.STATE j = 2
      ∧ (t.dev.tal.job.get j).runStart = (s.dev.now - 214) * 64 ∧ t.dev.tal.mem = s.dev.tal.mem := by
  have heff : s.dev.tallyResumeEff j = (s.dev.put TAL_JSTAT.STATE 2 j).updJob j fun x =>
      { x with runStart := (s.dev.now - 214) * 64 } := if_pos hst
  refine ⟨_, State.row_of_empty hw _, ?_⟩
  dsimp only
  rw [heff, Dev.updJob_get, Dev.get_put_lt _ _ _ _ (by decide) (by decide), Dev.updJob_job_same, Dev.updJob_mem, Dev.put_tal]
  exact ⟨rfl, rfl, rfl⟩

/-- Settles O28: each command by what its effect leaves of the job and its registers. -/
theorem tallyControlAct : Obligations.TallyControlAct := fun _ _ hw =>
  ⟨exec_tallyStart_of_passes hw, exec_tallyStart_of_fails hw, fun _ => exec_tallyClearDone hw, exec_tallyStop hw,
    exec_tallyPause hw, exec_tallyPaused hw, exec_tallyResume hw⟩

end Sys2Proof.Machine

/-! ## Gauge calibration and interval units (09_event_inputs_and_interval_timing.md R227, R228, R229, R231, R233) -/

namespace Sys2Proof.Machine

theorem Dev.flag_congr {d d' : Dev} (h : ∀ f i j k, d'.get f i j k = d.get f i j k) (f : Fld) (i j k : Nat) :
    d'.flag f i j k = d.flag f i j k := congrArg (· == 1) (h f i j k)

section
variable (d : Dev) (f : Fld) (i j k : Nat)

theorem Dev.setEvi_flag (x : EventIn) : (d.setEvi x).flag f i j k = d.flag f i j k := Dev.flag_congr (d.setEvi_get x) _ _ _ _

theorem Dev.updIn_flag (n : Nat) (g : EvIn → EvIn) : (d.updIn n g).flag f i j k = d.flag f i j k :=
  Dev.flag_congr (d.updIn_get n g) _ _ _ _

theorem Dev.updIn_inp_same (n : Nat) (g : EvIn → EvIn) : (d.updIn n g).evi.inp.get n = g (d.evi.inp.get n) :=
  Tab.get_upd_same _ _ _

theorem Dev.updIn_inp (n : Nat) (g : EvIn → EvIn) (m : Nat) :
    (d.updIn n g).evi.inp.get m = if m = n then g (d.evi.inp.get n) else d.evi.inp.get m := Tab.get_upd _ _ _ _

theorem Dev.updIn_gauging (n : Nat) (g : EvIn → EvIn) : (d.updIn n g).evi.gauging = d.evi.gauging := rfl

theorem Dev.updIu_iu_same (n : Nat) (g : Iu → Iu) : (d.updIu n g).evi.iu.get n = g (d.evi.iu.get n) :=
  Tab.get_upd_same _ _ _

theorem Dev.updIu_drained (n : Nat) (g : Iu → Iu) : (d.updIu n g).evi.drained = d.evi.drained := rfl

/-- A write of a field leaves a flag with which it shares no bit. -/
theorem Dev.flag_put_other (f' : Fld) (v i' j' k' : Nat) (h : f.whole = true)
    (ha : (decide (f.g ≠ f'.g) || decide (f.lo + f.w ≤ f'.lo) || decide (f'.lo + f'.w ≤ f.lo)) = true) :
    (d.put f' v i' j' k').flag f i j k = d.flag f i j k :=
  congrArg (· == 1) (Dev.get_put_other _ _ _ _ _ _ _ _ _ _ h ha)

end

/-! ### GAUGE_START and GAUGE_AUTO -/

/-- A calibration of an input has begun: the status tells of it, and stamps are left out from the next frame on (R227). -/
theorem Dev.gaugeBegin_begun (d : Dev) {i : Nat} (hi : i < 128) :
    (d.gaugeBegin i).get EVI_GAUGE_STAT.RESULT = 1 ∧ (d.gaugeBegin i).get EVI_GAUGE_STAT.INPUT = i
      ∧ (d.gaugeBegin i).evi.gauging = some i ∧ (d.gaugeBegin i).flag EVI_ISTAT.GAUGING i = true
      ∧ ((d.gaugeBegin i).evi.inp.get i).calFrom = d.now + 1 := by
  refine ⟨?result, ?input, rfl, ?gauging, ?calFrom⟩
  case result =>
    simp (disch := decide) only [Dev.gaugeBegin, Dev.updIn_get, Dev.setEvi_get, Dev.putb, Dev.get_put_other, Dev.get_put_lt]
  case input =>
    simp (disch := decide) only [Dev.gaugeBegin, Dev.updIn_get, Dev.setEvi_get, Dev.putb, Dev.get_put_other]
    exact Dev.get_put_lt _ _ _ _ (by decide) hi
  case gauging => rw [Dev.gaugeBegin, Dev.updIn_flag, Dev.flag_putb_whole _ _ _ _ _ _ (by decide)]
  case calFrom =>
    rw [Dev.gaugeBegin, Dev.updIn_inp_same]
    rfl

/-- A start for an input in TIMING, with no calibration running, begins one (R227). -/
theorem Dev.gaugeStartEff_of_timing {d : Dev} {i : Nat} (hmode : gmode (d.get EVI_GMODE.MODE) (i / 16) = 3)
    (hidle : d.evi.gauging = none) : d.gaugeStartEff i = (d.put EVI_GAUGE_CTL.INPUT i).gaugeBegin i := by
  have hmode' : gmode ((d.put EVI_GAUGE_CTL.INPUT i).get EVI_GMODE.MODE) (i / 16) = 3 := by
    rw [Dev.get_put_other _ _ _ _ _ _ _ _ _ _ (by decide) (by decide), hmode]
  rw [Dev.gaugeStartEff, if_neg (fun hne => hne hmode'), Dev.put_evi, hidle]
  rfl

theorem exec_gaugeStart {s : State} {e : Fin 128} (hw : s.dev.bus.writes = [])
    (hmode : gmode (s.dev.get EVI_GMODE.MODE) (e / 16) = 3) (hidle : s.dev.evi.gauging = none) :
    ∃ t, exec (.gaugeStart e) s = .next t ∧ t.dev.get EVI_GAUGE_STAT.RESULT = 1
      ∧ t.dev.get EVI_GAUGE_STAT.INPUT = e ∧ t.dev.evi.gauging = some e.val ∧ t.dev.flag EVI_ISTAT.GAUGING e = true
      ∧ (t.dev.evi.inp.get e).calFrom = s.dev.now + 1 := by
  refine ⟨_, State.row_of_empty hw _, ?_⟩
  dsimp only
  rw [Dev.gaugeStartEff_of_timing hmode hidle]
  exact Dev.gaugeBegin_begun _ e.isLt

/-- With AUTO the first input in TIMING that is UNCAL is calibrated (R229). -/
theorem Dev.gaugeAutoEff_of_uncal {d : Dev} {i j : Nat} (hauto : d.flag EVI_GAUGE_CTL.AUTO = true)
    (hidle : d.evi.gauging = none) (hj : j < 128) (hmode : gmode (d.get EVI_GMODE.MODE) (j / 16) = 3)
    (huncal : d.flag EVI_ISTAT.UNCAL j = true)
    (hfirst : ∀ k, k < j → gmode (d.get EVI_GMODE.MODE) (k / 16) = 3 → d.flag EVI_ISTAT.UNCAL k = false) :
    d.gaugeAutoEff i = d.gaugeBegin j := by
  have hfind : ((List.range 128).find? fun k => gmode (d.get EVI_GMODE.MODE) (k / 16) == 3 && d.flag EVI_ISTAT.UNCAL k)
      = some j := by
    rw [List.find?_range_eq_some]
    refine ⟨by simp [hmode, huncal], List.mem_range.2 hj, fun k hk => ?_⟩
    by_cases hm : gmode (d.get EVI_GMODE.MODE) (k / 16) = 3
    · simp [hfirst k hk hm]
    · simp [hm]
  rw [Dev.gaugeAutoEff, if_neg (by simp [hauto, hidle]), hfind]

theorem exec_gaugeAuto {s : State} {e : Fin 128} (hw : s.dev.bus.writes = [])
    (hauto : s.dev.flag EVI_GAUGE_CTL.AUTO = true) (hidle : s.dev.evi.gauging = none)
    (hmode : gmode (s.dev.get EVI_GMODE.MODE) (e / 16) = 3) (huncal : s.dev.flag EVI_ISTAT.UNCAL e = true)
    (hfirst : ∀ j, j < e.val → gmode (s.dev.get EVI_GMODE.MODE) (j / 16) ≠ 3) :
    ∃ t, exec (.gaugeAuto e) s = .next t ∧ t.dev.get EVI_GAUGE_STAT.RESULT = 1
      ∧ t.dev.get EVI_GAUGE_STAT.INPUT = e ∧ t.dev.evi.gauging = some e.val ∧ t.dev.flag EVI_ISTAT.GAUGING e = true := by
  obtain ⟨hresult, hinput, hgauging, hflag, -⟩ := s.dev.gaugeBegin_begun e.isLt
  refine ⟨_, State.row_of_empty hw _, ?_⟩
  dsimp only
  rw [Dev.gaugeAutoEff_of_uncal hauto hidle e.isLt hmode huncal fun j hj hm => absurd hm (hfirst j hj)]
  exact ⟨hresult, hinput, hgauging, hflag⟩

/-! ### GAUGE_RESULT -/

theorem Dev.decision_frame (d : Dev) (code unit arg : Nat) :
    Dev.frame [.events] [.HK_DEC_IDX, .HK_DEC] d (d.decision code unit arg) :=
  Dev.frame_of_ind (fun hP h => Dev.decision_ind hP h) (by decide) (by decide)

/-- A STATUS bit that rises leaves the event inputs beside their registers. -/
theorem Dev.istatRise_evi (d : Dev) (i : Nat) (f : Fld) : (d.istatRise i f).evi = d.evi := by
  rw [Dev.istatRise]
  split
  · rw [Dev.raise_evi, Dev.setFlag_evi]
  · rw [Dev.setFlag_evi]

/-- A flag that the hardware sets is a one in the flag's bit. -/
theorem Dev.setFlag_regs (d : Dev) {f : Fld} (hw : f.w = 1) (i : Nat) : (d.setFlag f i).regs = (d.putb f true i).regs := by
  have hset : ∀ x : W64, x ||| f.mask = x &&& ~~~ f.mask ||| f.mask := fun x => by
    ext b
    simp only [BitVec.getElem_or, BitVec.getElem_and, BitVec.getElem_not]
    cases x[b] <;> cases f.mask[b] <;> rfl
  have hone : BitVec.ofNat 64 (true.toNat % 2 ^ f.w) <<< f.lo = f.mask := by
    rw [Fld.mask, maskBits, hw]
    apply BitVec.eq_of_toNat_eq
    simp
  rw [Dev.putb, Dev.put, hone, ← hset]
  rfl

theorem Dev.istatRise_regs (d : Dev) (i : Nat) {f : Fld} (hw : f.w = 1) :
    (d.istatRise i f).regs = (d.putb f true i).regs := by
  rw [← Dev.setFlag_regs d hw, Dev.istatRise]
  split
  · rw [Dev.raise_regs]
  · rfl

/-- A STATUS bit that rises leaves a field with which it shares no bit. -/
theorem Dev.istatRise_get (d : Dev) (i : Nat) (f f' : Fld) (i' j' k' : Nat) (h : f'.whole = true)
    (ha : (decide (f.w = 1) && (decide (f'.g ≠ f.g) || decide (f'.lo + f'.w ≤ f.lo) || decide (f.lo + f.w ≤ f'.lo))) = true) :
    (d.istatRise i f).get f' i' j' k' = d.get f' i' j' k' := by
  rw [Bool.and_eq_true, decide_eq_true_eq] at ha
  rw [Dev.get_congr (Dev.istatRise_regs d i ha.1), Dev.putb, Dev.get_put_other _ _ _ _ _ _ _ _ _ _ h ha.2]

/-- The hits are collected: the calibration has ended, with a decision of the controller (R227, R440). -/
def Dev.gaugeEnded (d : Dev) (i : Nat) : Dev :=
  let d := (d.setEvi { d.evi with gauging := none }).putb EVI_ISTAT.GAUGING false i
  (d.updIn i fun x => { x with calTo := d.now }).decision 8 i 0

section
variable (d : Dev) (i : Nat)

theorem Dev.gaugeEnded_gauging : (d.gaugeEnded i).evi.gauging = none := by
  rw [Dev.gaugeEnded, Dev.decision_evi]
  rfl

theorem Dev.gaugeEnded_inp : (d.gaugeEnded i).evi.inp.get i = { d.evi.inp.get i with calTo := d.now } := by
  rw [Dev.gaugeEnded, Dev.decision_evi, Dev.updIn_inp_same]
  rfl

/-- UNCAL stays as it was when a calibration ends. -/
theorem Dev.gaugeEnded_uncal : (d.gaugeEnded i).flag EVI_ISTAT.UNCAL i = d.flag EVI_ISTAT.UNCAL i := by
  rw [Dev.gaugeEnded, Dev.frame_flag (Dev.decision_frame _ _ _ _) _ _ _ _ (by decide), Dev.updIn_flag, Dev.putb,
    Dev.flag_put_other _ _ _ _ _ _ _ _ _ _ (by decide) (by decide), Dev.setEvi_flag]

end

/-- A calibration that passes gives its input the new table (R228). -/
theorem Dev.gaugeResultEff_of_pass {d : Dev} {hits : List Nat} {i : Nat} (hgauging : d.evi.gauging = some i)
    (hhits : gaugeHits hits = true) (hpass : gaugePass hits = true) :
    d.gaugeResultEff hits = (((((d.gaugeEnded i).updIn i fun x => { x with gauge := gaugeTable 0 hits, fresh := true }).put
      EVI_GAUGE_STAT.RESULT 2).putb EVI_ISTAT.UNCAL false i).istatRise i EVI_ISTAT.GAUGE_DONE) := by
  rw [Dev.gaugeResultEff, hgauging]
  simp only [hhits, hpass]
  rfl

/-- A calibration that fails leaves its input the old table (R228). -/
theorem Dev.gaugeResultEff_of_fail {d : Dev} {hits : List Nat} {i : Nat} (hgauging : d.evi.gauging = some i)
    (hhits : gaugeHits hits = true) (hfail : gaugePass hits = false) :
    d.gaugeResultEff hits
      = ((d.gaugeEnded i).put EVI_GAUGE_STAT.RESULT 3).istatRise i EVI_ISTAT.GAUGE_FAIL := by
  rw [Dev.gaugeResultEff, hgauging]
  simp only [hhits, hfail]
  rfl

theorem exec_gaugeResult_of_pass {s : State} {hits : List Nat} {i : Nat} (hw : s.dev.bus.writes = [])
    (hgauging : s.dev.evi.gauging = some i) (hhits : gaugeHits hits = true) (hpass : gaugePass hits = true) :
    ∃ t, exec (.gaugeResult hits) s = .next t ∧ t.dev.evi.gauging = none ∧ t.dev.get EVI_GAUGE_STAT.RESULT = 2
      ∧ (t.dev.evi.inp.get i).gauge = gaugeTable 0 hits ∧ (t.dev.evi.inp.get i).fresh = true
      ∧ t.dev.flag EVI_ISTAT.UNCAL i = false ∧ (t.dev.evi.inp.get i).calTo = s.dev.now := by
  refine ⟨_, State.row_of_empty hw _, ?_⟩
  dsimp only
  rw [Dev.gaugeResultEff_of_pass hgauging hhits hpass, Dev.istatRise_evi, Dev.putb_evi, Dev.put_evi, Dev.updIn_gauging,
    Dev.gaugeEnded_gauging, Dev.updIn_inp_same, Dev.gaugeEnded_inp]
  refine ⟨rfl, ?result, rfl, rfl, ?uncal, rfl⟩
  case result => simp (disch := decide) only [Dev.istatRise_get, Dev.putb, Dev.get_put_other, Dev.get_put_lt]
  case uncal =>
    rw [Dev.flag, Dev.istatRise_get _ _ _ _ _ _ _ (by decide) (by decide)]
    exact Dev.flag_putb_whole _ _ _ _ _ _ (by decide)

theorem exec_gaugeResult_of_fail {s : State} {hits : List Nat} {i : Nat} (hw : s.dev.bus.writes = [])
    (hgauging : s.dev.evi.gauging = some i) (hhits : gaugeHits hits = true) (hfail : gaugePass hits = false) :
    ∃ t, exec (.gaugeResult hits) s = .next t ∧ t.dev.evi.gauging = none ∧ t.dev.get EVI_GAUGE_STAT.RESULT = 3
      ∧ (t.dev.evi.inp.get i).gauge = (s.dev.evi.inp.get i).gauge
      ∧ t.dev.flag EVI_ISTAT.UNCAL i = s.dev.flag EVI_ISTAT.UNCAL i := by
  refine ⟨_, State.row_of_empty hw _, ?_⟩
  dsimp only
  rw [Dev.gaugeResultEff_of_fail hgauging hhits hfail, Dev.istatRise_evi, Dev.put_evi, Dev.gaugeEnded_gauging,
    Dev.gaugeEnded_inp]
  refine ⟨rfl, ?result, rfl, ?uncal⟩
  case result => simp (disch := decide) only [Dev.istatRise_get, Dev.get_put_lt]
  case uncal =>
    rw [Dev.flag, Dev.istatRise_get _ _ _ _ _ _ _ (by decide) (by decide)]
    exact (Dev.flag_put_other _ _ _ _ _ _ _ _ _ _ (by decide) (by decide)).trans (Dev.gaugeEnded_uncal _ _)

/-! ### GAUGE_TABLE_SAVE -/

/-- An input whose table, where it has one, stands in the flash. -/
def EvIn.tableSaved (x : EvIn) : EvIn := if x.gauge = [] then x else { x with saved := x.gauge }

theorem EvIn.tableSaved_saved {x : EvIn} (h : x.gauge ≠ []) : x.tableSaved.saved = x.gauge := by
  rw [EvIn.tableSaved, if_neg h]

/-- A save writes the active table of every input (R229). -/
theorem Dev.gaugeSave_inp (d : Dev) (i : Nat) :
    d.gaugeSave.evi.inp.get i = if i < 128 then (d.evi.inp.get i).tableSaved else d.evi.inp.get i := by
  refine foldl_range_ind (σ := Dev)
    (fun k e => e.evi.inp.get i = if i < k then (d.evi.inp.get i).tableSaved else d.evi.inp.get i)
    (if_neg (Nat.not_lt_zero i)).symm fun k e _ he => ?_
  rw [Dev.updIn_inp]
  by_cases hk : i = k
  · subst hk
    rw [if_neg (Nat.lt_irrefl i)] at he
    rw [if_pos rfl, if_pos (Nat.lt_succ_self i), he]
    rfl
  · have hlt : (i < k + 1) = (i < k) := propext ⟨fun h => by omega, fun h => by omega⟩
    rw [if_neg hk, he]
    simp only [hlt]

/-- The frame of a save: at once, or ten minutes after the one before (R229). -/
def Dev.saveFrame (d : Dev) : Nat := (d.evi.savedAt.map (· + 750000000000)).getD 0

theorem Dev.gaugeTableSaveEff_eq (d : Dev) : d.gaugeTableSaveEff
    = (d.advanceTo d.saveFrame).gaugeSave.setEvi
      { (d.advanceTo d.saveFrame).gaugeSave.evi with savedAt := some (d.advanceTo d.saveFrame).now } := by
  rw [Dev.gaugeTableSaveEff, Dev.saveFrame]
  cases d.evi.savedAt with
  | some k => rfl
  | none =>
    rw [Option.map_none, Option.getD_none, Dev.advanceTo_le (Nat.zero_le _)]

theorem Dev.gaugeSave_regs (d : Dev) : d.gaugeSave.regs = d.regs :=
  foldl_keeps Dev.regs _ (fun _ _ => Dev.updIn_regs _ _ _) _ _

theorem exec_gaugeTableSave {s : State} (hw : s.dev.bus.writes = []) :
    ∃ t, exec .gaugeTableSave s = .next t ∧ t.dev.evi.savedAt = some t.dev.now
      ∧ t.dev.now = max s.dev.now ((s.dev.evi.savedAt.map (· + 750000000000)).getD 0)
      ∧ (∀ i, i < 128 → (s.dev.evi.inp.get i).gauge ≠ [] → (t.dev.evi.inp.get i).saved = (s.dev.evi.inp.get i).gauge)
      ∧ t.dev.regs = s.dev.regs := by
  refine ⟨_, State.row_of_empty hw _, ?_⟩
  dsimp only
  rw [Dev.gaugeTableSaveEff_eq, Dev.setEvi_evi, Dev.setEvi_now, Dev.setEvi_regs, Dev.gaugeSave_regs, Dev.advanceTo_regs,
    (Dev.gaugeSave_frame _).1 .clock (by decide), Dev.advanceTo_now]
  refine ⟨rfl, rfl, fun i hi htable => ?_, rfl⟩
  rw [Dev.gaugeSave_inp, if_pos hi, Dev.advanceTo_evi, EvIn.tableSaved_saved htable]

/-! ### INTERVAL_DRAIN -/

/-- A unit that no stamp waits for only shows what it holds unmatched (R230). -/
theorem Dev.iuSettle_of_settled {d : Dev} {u : Nat} (h : (d.evi.iu.get u).inbox = []) :
    d.iuSettle u = d.put EVI_IU_STAT.PENDING (d.evi.iu.get u).pend.length u := by
  rw [Dev.iuSettle, h]
  rfl

/-- The frame in which the next result can leave: five frames after the fourth before it (R231). -/
def Dev.drainFrame (d : Dev) : Nat := (d.evi.drained[3]?.map (· + 5)).getD 0

/-- The oldest result of unit `u`, in front of `l`, leaves in this frame (R231). -/
def Dev.resultOut (d : Dev) (u : Nat) (e : List Byte) (l : List (List Byte)) : Dev :=
  let d := d.setEvi { d.evi with drained := (d.now :: d.evi.drained).take 4 }
  (d.updIu u fun x => { x with fifo := l }).post (d.get EVI_IU_CFG.Q u) 3 1 (200 + u) e

/-- A settled unit with a result gives its oldest one. -/
theorem Dev.intervalDrainEff_of_result {d : Dev} {u : Nat} {e : List Byte} {l : List (List Byte)}
    (hfifo : (d.evi.iu.get u).fifo = e :: l) (hsettled : (d.evi.iu.get u).inbox = []) :
    d.intervalDrainEff u
      = ((d.put EVI_IU_STAT.PENDING (d.evi.iu.get u).pend.length u).advanceTo d.drainFrame).resultOut u e l := by
  rw [Dev.intervalDrainEff, Dev.iuSettle_of_settled hsettled]
  simp only [Dev.put_evi, hfifo]
  rw [Dev.drainFrame]
  cases d.evi.drained[3]? with
  | some k => rfl
  | none =>
    rw [Option.map_none, Option.getD_none, Dev.advanceTo_le (Nat.zero_le _)]
    rfl

theorem exec_intervalDrain {s : State} {u : Fin 32} (hw : s.dev.bus.writes = []) (hfifo : (s.dev.evi.iu.get u).fifo ≠ [])
    (hsettled : (s.dev.evi.iu.get u).inbox = []) :
    ∃ t, exec (.intervalDrain u) s = .next t
      ∧ t.dev.now = max s.dev.now ((s.dev.evi.drained[3]?.map (· + 5)).getD 0)
      ∧ t.dev.evi.drained = (t.dev.now :: s.dev.evi.drained).take 4
      ∧ (t.dev.evi.iu.get u).fifo = (s.dev.evi.iu.get u).fifo.tail
      ∧ t.dev.get EVI_IU_STAT.PENDING u = (s.dev.evi.iu.get u).pend.length % 2 ^ EVI_IU_STAT.PENDING.w := by
  obtain ⟨e, l, hel⟩ := List.exists_cons_of_ne_nil hfifo
  refine ⟨_, State.row_of_empty hw _, ?_⟩
  dsimp only
  rw [Dev.intervalDrainEff_of_result hel hsettled, hel, Dev.resultOut, Dev.post_now, Dev.post_evi, Dev.post_get,
    Dev.updIu_now, Dev.updIu_get, Dev.updIu_drained, Dev.updIu_iu_same, Dev.setEvi_now, Dev.setEvi_get, Dev.setEvi_evi,
    Dev.advanceTo_now, Dev.put_now, Dev.advanceTo_evi, Dev.put_evi, Dev.advanceTo_get,
    Dev.get_put_eq _ _ _ _ _ _ (by decide)]
  exact ⟨rfl, rfl, rfl, rfl⟩

/-! ### IU_CFG_WRITE -/

/-- While its MODE is not OFF, unit `u` restarts: the stamps that it holds are lost (R233). -/
def Dev.iuRestart (d : Dev) (u : Nat) : Dev :=
  let x := d.evi.iu.get u
  if d.get EVI_IU_CFG.MODE u = 1 ∨ d.get EVI_IU_CFG.MODE u = 2 then
    (d.iuLoss u EVI_IU_CNT_LOST.COUNT (x.pend.length + x.inbox.length)).updIu u fun x => { x with pend := [], inbox := [] }
  else d

theorem Dev.iuCfgWriteEff_eq (d : Dev) (u : Nat) (v : W32) : d.iuCfgWriteEff u v
    = (((d.iuSettle u).iuRestart u).wr ⟨.EVI_IU_CFG, u, 0, 0⟩ (v.setWidth 64)).put EVI_IU_STAT.PENDING 0 u := rfl

/-- A unit that restarts holds no stamp. -/
theorem Dev.iuRestart_iu {d : Dev} {u : Nat} (h : d.get EVI_IU_CFG.MODE u = 1 ∨ d.get EVI_IU_CFG.MODE u = 2) :
    ((d.iuRestart u).evi.iu.get u).pend = [] ∧ ((d.iuRestart u).evi.iu.get u).inbox = [] := by
  rw [Dev.iuRestart, if_pos h, Dev.updIu_iu_same]
  exact ⟨rfl, rfl⟩

theorem exec_iuCfgWrite {s : State} (u : Fin 32) (v : W32) (hw : s.dev.bus.writes = []) :
    ∃ t, exec (.iuCfgWrite u v) s = .next t ∧ t.dev.get EVI_IU_STAT.PENDING u = 0
      ∧ t.dev.get EVI_IU_CFG.START u = (v.setWidth 64).toNat / 2 ^ EVI_IU_CFG.START.lo % 2 ^ EVI_IU_CFG.START.w
      ∧ t.dev.get EVI_IU_CFG.MODE u = (v.setWidth 64).toNat / 2 ^ EVI_IU_CFG.MODE.lo % 2 ^ EVI_IU_CFG.MODE.w
      ∧ (s.dev.get EVI_IU_CFG.MODE u = 1 ∨ s.dev.get EVI_IU_CFG.MODE u = 2 →
          (t.dev.evi.iu.get u).pend = [] ∧ (t.dev.evi.iu.get u).inbox = []) := by
  refine ⟨_, State.row_of_empty hw _, ?_⟩
  dsimp only
  rw [Dev.iuCfgWriteEff_eq, Dev.get_put_eq _ _ _ _ _ _ (by decide),
    Dev.get_put_other _ _ EVI_IU_CFG.START _ _ _ _ _ _ _ (by decide) (by decide),
    Dev.get_put_other _ _ EVI_IU_CFG.MODE _ _ _ _ _ _ _ (by decide) (by decide)]
  refine ⟨rfl, Dev.get_wr_eq _ EVI_IU_CFG.START _ _ _ _ (by decide), Dev.get_wr_eq _ EVI_IU_CFG.MODE _ _ _ _ (by decide),
    fun hmode => ?_⟩
  rw [← Dev.frame_get (s.dev.iuSettle_frame u) EVI_IU_CFG.MODE u 0 0 (by decide)] at hmode
  exact Dev.iuRestart_iu hmode

/-- Settles O31: each command by what its effect leaves of the event inputs and their registers. -/
theorem gaugeAndIntervalCommandsAct : Obligations.GaugeAndIntervalCommandsAct := fun _ hw =>
  ⟨fun _ => exec_gaugeStart hw, fun _ => exec_gaugeAuto hw, fun _ _ => exec_gaugeResult_of_pass hw,
    fun _ _ => exec_gaugeResult_of_fail hw, exec_gaugeTableSave hw, fun _ => exec_intervalDrain hw,
    fun u v => exec_iuCfgWrite u v hw⟩

end Sys2Proof.Machine

/-! ## What the commands of the needles leave unchanged
(10_needles_and_zhervo_model.md R238, R243; 11_zhervo_instruction_reference.md R263) -/

namespace Sys2Proof.Machine

/-- Settles O14: a command leaves unchanged what its effect on the module does. -/
theorem needleCommandsFrame : Obligations.NeedleCommandsFrame := by
  intro s s'
  refine ⟨fun _ h => rowLast_frame h (Dev.needleGoEff_frame _), fun n => ?stopOrReplace, fun n => ?instructions,
    fun _ h => row_frame h (Dev.zEndloop_frame _), fun _ h => row_frame h (Dev.zPost_frame _),
    fun _ h => row_frame h (Dev.waitCompleteEff_frame _), fun _ h => row_frame h (Dev.replaceCancelEff_frame _),
    fun _ _ h => row_frame h (Dev.progStoreWriteEff_frame _ _),
    fun _ _ _ h => row_frame h (Dev.needleWindowWriteEff_frame _ _ _)⟩
  all_goals simp only [List.forall_mem_cons]
  case stopOrReplace =>
    exact ⟨fun h => row_frame h (Dev.needleStopEff_frame _), fun h => row_frame h (Dev.replaceGoEff_frame _), nofun⟩
  case instructions =>
    exact ⟨fun h => row_frame h (Dev.zMov_frame _), fun h => row_frame h (Dev.zLdi_frame _),
      fun h => row_frame h (Dev.zAdd_frame _), fun h => row_frame h (Dev.zSub_frame _),
      fun h => row_frame h (Dev.zAnd_frame _), fun h => row_frame h (Dev.zOr_frame _),
      fun h => row_frame h (Dev.zXor_frame _), fun h => row_frame h (Dev.zShl_frame _),
      fun h => row_frame h (Dev.zShr_frame _), fun h => row_frame h (Dev.zCmp_frame _),
      fun h => row_frame h (Dev.zLd_frame _), fun h => row_frame h (Dev.zSt_frame _),
      fun h => row_frame h (Dev.zJmp_frame _), fun h => row_frame h (Dev.zBrc_frame _),
      fun h => row_frame h (Dev.zCall_frame _), fun h => row_frame h (Dev.zRet_frame _),
      fun h => row_frame h (Dev.zNop_frame _), fun h => row_frame h (Dev.zLoop_frame _),
      fun h => row_frame h (Dev.zSetf_frame _), fun h => row_frame h (Dev.zGetf_frame _),
      fun h => row_frame h (Dev.zCaston_frame _), fun h => row_frame h (Dev.zBindoff_frame _),
      fun h => row_frame h (Dev.zArm_frame _), fun h => row_frame h (Dev.zDisarm_frame _),
      fun h => row_frame h (Dev.zSeg_frame _), fun h => row_frame h (Dev.zSync_frame _),
      fun h => row_frame h (Dev.zDelay_frame _), fun h => row_frame h (Dev.zWaitt_frame _),
      fun h => row_frame h (Dev.zWaittrig_frame _), fun h => row_frame h (Dev.zWaite_frame _),
      fun h => row_frame h (Dev.zWaitseg_frame _), fun h => row_frame h (Dev.zFence_frame _),
      fun h => row_frame h (Dev.zSignal_frame _), fun h => row_frame h (Dev.zMark_frame _),
      fun h => row_frame h (Dev.zTone_frame _), fun h => row_frame h (Dev.zPlay_frame _),
      fun h => row_frame h (Dev.zYield_frame _), fun h => row_frame h (Dev.zHalt_frame _), nofun⟩

end Sys2Proof.Machine

/-! ## An instruction behind a write of its frame (01_engine_at_a_glance.md R38; log entry 31)

A row of an instruction is no access: it ends the frame that holds writes and acts in the next one. O32 and O35 name the frame
of issue by the clock and the needle alone, in any state, so that they ask of such an instruction that it issue in the frame
that has ended. -/

namespace Sys2Proof.Machine

/-- Behind a waiting write a command that is no access acts in a later frame. -/
theorem now_lt_of_waitingWrites {c : Instr} {s t : State} (hj : joinsFrame c = false) (hw : s.dev.bus.writes ≠ [])
    (h : exec c s = .next t) : s.dev.now < t.dev.now := by
  rw [exec_frameEnd s hj] at h
  exact Nat.lt_of_lt_of_le (Dev.now_lt_frameEnd hw) (exec_ind (closed_clock s.dev.frameEnd.now _ _) h (Nat.le_refl _))

/-- A module in frame 1024 whose needle 0 is RUNNING, with the instruction `w` at its PC. -/
def needleAt (w : W64) : Dev :=
  (((({} : Dev).put NDL_WIN.SIZE 1 0).put HK_PD_STAT.ON 0x40000000 1).setTb { locked := true }).setNdl
    { needle := Tab.set [] 0 { state := 1 }, prog := Memory.store [] 0 (leBytes w.toNat 8) }

/-- The host has written EVR_CFG of event 0 in the frame in which the needle of `needleAt w` is to issue. -/
def needleBehindWrite (w : W64) : State := ⟨(needleAt w).written (.bus ⟨.host, 0xf01000, 4, 0⟩), []⟩

/-- Refutes O32: MOV g1, g2, which needle 0 is to issue in frame 1024, issues in frame 1025, once the write of the host that
frame 1024 holds has applied. -/
theorem not_needleRegisterInstructions : ¬ Obligations.NeedleRegisterInstructions := by
  intro h
  obtain ⟨hmov, -⟩ := h (needleBehindWrite 0x1008800000000000) 0 { state := 1 } 0x1008800000000000 1024 (by decide)
    (by decide) (by decide)
  obtain ⟨t, ht, hnow, -⟩ := hmov (by decide) (by decide)
  exact absurd hnow (Nat.ne_of_gt (now_lt_of_waitingWrites rfl (by decide) ht))

/-- Refutes O35: SETF, which needle 0 is to issue in frame 1024, issues in frame 1025, and its effect is due in frame 1027. -/
theorem not_needleInstructionsLeaveTheirEffects : ¬ Obligations.NeedleInstructionsLeaveTheirEffects := by
  intro h
  obtain ⟨hsetf, -⟩ := h (needleBehindWrite 0x2008000000041234) 0 { state := 1 } 0x2008000000041234 1024 (by decide)
    (by decide) (by decide)
  obtain ⟨t, ht, hnow, -⟩ := hsetf (by decide)
  exact absurd hnow (Nat.ne_of_gt (now_lt_of_waitingWrites rfl (by decide) ht))

end Sys2Proof.Machine

/-! ## Needles start, stop and switch programs, and their stores and windows are written
(10_needles_and_zhervo_model.md R239, R241, R253, R254, R258) -/

namespace Sys2Proof.Machine

/-! ### A needle after a change of it -/

@[simp] theorem Dev.updNdl_needle_same (d : Dev) (n : Nat) (f : Needle → Needle) :
    (d.updNdl n f).ndl.needle.get n = f (d.ndl.needle.get n) := Tab.get_upd_same _ _ _

@[simp] theorem Dev.updNdl_prog (d : Dev) (n : Nat) (f : Needle → Needle) : (d.updNdl n f).ndl.prog = d.ndl.prog := rfl

/-- A needle that neither runs nor waits does so in no frame (R241). -/
theorem Needle.activeIn_of_idle {x : Needle} (h1 : x.state ≠ 1) (h2 : x.state ≠ 2) (k : Nat) : x.activeIn k = false := by
  simp [Needle.activeIn, Needle.stateIn, h1, h2]

/-! ### NEEDLE_GO and NEEDLE_STOP -/

/-- A needle at its start from the program's entry, in frame `k` (R241). -/
def Needle.started (x : Needle) (entry k : Nat) : Needle :=
  { x with pc := entry, loops := [], calls := [], z := false, n := false, c := false, v := false, w := 0
           state := 1, runFrom := k + 1, before := x.state, next := k + 1, wait := none, busy := [] }

theorem Dev.needleGoEff_of_idle {d : Dev} {n : Nat} (h1 : (d.ndl.needle.get n).state ≠ 1)
    (h2 : (d.ndl.needle.get n).state ≠ 2) :
    d.needleGoEff n = d.updNdl n fun x => x.started (d.get NDL_ENTRY.PC n) d.now :=
  if_neg (not_or.2 ⟨h1, h2⟩)

theorem exec_needleGo {s : State} {n : Fin 16} (hw : s.dev.bus.writes = []) (h1 : (s.dev.ndl.needle.get n).state ≠ 1)
    (h2 : (s.dev.ndl.needle.get n).state ≠ 2) :
    ∃ t, exec (.needleGo n) s = .next t
      ∧ t.dev.ndl.needle.get n = (s.dev.ndl.needle.get n).started (s.dev.get NDL_ENTRY.PC n) s.dev.now
      ∧ t.dev.now = s.dev.now + 1 ∧ t.dev.ndl.prog = s.dev.ndl.prog := by
  have hgo := Dev.needleGoEff_of_idle h1 h2
  have hnone : (s.dev.needleGoEff n).bus.writes = [] := by rw [hgo, Dev.updNdl_bus, hw]
  refine ⟨_, State.rowLast_of_empty hw _, ?_⟩
  dsimp only
  rw [Dev.idle_now hnone, Dev.idle_of_empty hnone, Dev.advanceTo_ndl, hgo, Dev.updNdl_needle_same, Dev.updNdl_prog,
    Dev.updNdl_now]
  exact ⟨rfl, rfl, rfl⟩

/-- A needle after STOP: its effects in flight complete (R241). -/
def Dev.needleStopped (d : Dev) (n : Nat) : Dev :=
  (d.updNdl n fun x => { x with state := 0, wait := none, flights := x.closed d.now }).raise (416 + 2 * n)

theorem Dev.needleStopEff_of_active {d : Dev} {n : Nat}
    (h : (d.ndl.needle.get n).state = 1 ∨ (d.ndl.needle.get n).state = 2) :
    d.needleStopEff n = if (d.needleStopped n).replPending n then (d.needleStopped n).replSwitch n
      else d.needleStopped n :=
  if_neg (by omega)

section
variable (d : Dev) (n : Nat)

theorem Dev.needleStopped_needle : (d.needleStopped n).ndl.needle.get n = { d.ndl.needle.get n with
    state := 0, wait := none, flights := (d.ndl.needle.get n).closed d.now } := by
  rw [Dev.needleStopped, Dev.raise_ndl, Dev.updNdl_needle_same]

theorem Dev.needleStopped_raised : (d.needleStopped n).raised d.now (416 + 2 * n) := Dev.raise_raised _ _

/-! ### A switch of programs -/

theorem Dev.replSwitch_needle :
    (d.replSwitch n).ndl.needle.get n = { d.ndl.needle.get n with loops := [], calls := [] } := by
  rw [Dev.replSwitch, Dev.raise_ndl, Dev.updNdl_needle_same]
  rfl

theorem Dev.replSwitch_raised : (d.replSwitch n).raised d.now (416 + 2 * n) := Dev.raise_raised _ _

theorem Dev.raised_replSwitch {k e : Nat} (h : d.raised k e) : (d.replSwitch n).raised k e := by
  rw [Dev.replSwitch]
  refine Dev.raised_raise ?_ _
  exact (Dev.raised_congr (d := d) rfl _ _).2 h

/-- The registers after a switch: the window that was checked, the new entry, and DONE (R254). -/
theorem Dev.replSwitch_get : (d.replSwitch n).get NDL_REPLACE.RESULT n = 2
    ∧ (d.replSwitch n).get NDL_ENTRY.PC n = d.get NDL_ENTRY_NEXT.PC n
    ∧ (d.replSwitch n).get NDL_WIN.BASE n = NDL_WIN.BASE.of (d.ndl.needle.get n).replWin
    ∧ (d.replSwitch n).get NDL_WIN.SIZE n = NDL_WIN.SIZE.of (d.ndl.needle.get n).replWin := by
  have hentry : d.get NDL_ENTRY_NEXT.PC n < 2 ^ NDL_ENTRY.PC.w := d.get_lt NDL_ENTRY_NEXT.PC n 0 0
  have hwin : ∀ f : Fld, f.g = .NDL_WIN → f.whole = true →
      (d.wr ⟨.NDL_WIN, n, 0, 0⟩ (d.ndl.needle.get n).replWin).get f n = f.of (d.ndl.needle.get n).replWin := by
    intro f hg hf
    rw [← hg, Dev.get_wr_eq _ _ _ _ _ _ hf, Fld.of, BitVec.toNat_ushiftRight, Nat.shiftRight_eq_div_pow]
  simp only [Dev.replSwitch, Dev.raise_get, Dev.updNdl_get]
  refine ⟨Dev.get_put_lt _ _ _ _ (by decide) (by decide), ?entry, ?base, ?size⟩
  case entry => rw [Dev.get_put_other _ _ _ _ _ _ _ _ _ _ (by decide) (by decide), Dev.get_put_lt _ _ _ _ (by decide) hentry]
  all_goals
    rw [Dev.get_put_other _ _ _ _ _ _ _ _ _ _ (by decide) (by decide),
      Dev.get_put_other _ _ _ _ _ _ _ _ _ _ (by decide) (by decide), hwin _ rfl (by decide)]

end

theorem exec_needleStop {s : State} {n : Fin 16} (hw : s.dev.bus.writes = [])
    (h : (s.dev.ndl.needle.get n).state = 1 ∨ (s.dev.ndl.needle.get n).state = 2) :
    ∃ t, exec (.needleStop n) s = .next t ∧ (t.dev.ndl.needle.get n).state = 0 ∧ (t.dev.ndl.needle.get n).wait = none
      ∧ (t.dev.ndl.needle.get n).g = (s.dev.ndl.needle.get n).g ∧ t.dev.raised s.dev.now (416 + 2 * n) := by
  refine ⟨_, State.row_of_empty hw _, ?_⟩
  dsimp only
  rw [Dev.needleStopEff_of_active h]
  have hraised := s.dev.needleStopped_raised n
  split
  · rw [Dev.replSwitch_needle, Dev.needleStopped_needle]
    exact ⟨rfl, rfl, rfl, Dev.raised_replSwitch _ _ hraised⟩
  · rw [Dev.needleStopped_needle]
    exact ⟨rfl, rfl, rfl, hraised⟩

/-! ### REPLACE_GO and REPLACE_CANCEL -/

/-- A replacement that has passed the checks is PENDING, with the window that was checked (R253). -/
def Dev.replAccepted (d : Dev) (n : Nat) : Dev :=
  (d.put NDL_REPLACE.RESULT 1 n).updNdl n fun x => { x with replWin := d.rd ⟨.NDL_WIN_NEXT, n, 0, 0⟩ }

section
variable (d : Dev) (n : Nat)

theorem Dev.replAccepted_needle : (d.replAccepted n).ndl.needle.get n
    = { d.ndl.needle.get n with replWin := d.rd ⟨.NDL_WIN_NEXT, n, 0, 0⟩ } := Dev.updNdl_needle_same _ _ _

theorem Dev.replAccepted_prog : (d.replAccepted n).ndl.prog = d.ndl.prog := rfl

theorem Dev.replAccepted_result : (d.replAccepted n).get NDL_REPLACE.RESULT n = 1 := by
  rw [Dev.replAccepted, Dev.updNdl_get, Dev.get_put_lt _ _ _ _ (by decide) (by decide)]

theorem Dev.replAccepted_get {f : Fld} (i j k : Nat) (hf : f.g ≠ .NDL_REPLACE) :
    (d.replAccepted n).get f i j k = d.get f i j k := by
  rw [Dev.replAccepted, Dev.updNdl_get, Dev.get_put_family _ _ _ _ _ _ _ _ hf]

end

theorem Dev.replaceGoEff_of_passes {d : Dev} {n : Nat} (h : d.replCheck n = 1) :
    d.replaceGoEff n = if (d.ndl.needle.get n).state ≠ 1 ∧ (d.ndl.needle.get n).state ≠ 2 then
      (d.replAccepted n).replSwitch n else d.replAccepted n := by
  have hstate : ((d.replAccepted n).ndl.needle.get n).state = (d.ndl.needle.get n).state := by rw [Dev.replAccepted_needle]
  rw [← hstate, Dev.replaceGoEff, h]
  simp only [true_and]
  rfl

theorem exec_replaceGo_of_running {s : State} {n : Fin 16} (hw : s.dev.bus.writes = [])
    (hst : (s.dev.ndl.needle.get n).state = 1) (hcheck : s.dev.replCheck n = 1) :
    ∃ t, exec (.replaceGo n) s = .next t ∧ t.dev.get NDL_REPLACE.RESULT n = 1 ∧ t.dev.ndl.prog = s.dev.ndl.prog
      ∧ t.dev.ndl.needle.get n = { s.dev.ndl.needle.get n with replWin := s.dev.rd ⟨.NDL_WIN_NEXT, n, 0, 0⟩ }
      ∧ t.dev.get NDL_WIN.BASE n = s.dev.get NDL_WIN.BASE n := by
  refine ⟨_, State.row_of_empty hw _, ?_⟩
  dsimp only
  rw [Dev.replaceGoEff_of_passes hcheck, if_neg (by omega)]
  exact ⟨Dev.replAccepted_result _ _, Dev.replAccepted_prog _ _, Dev.replAccepted_needle _ _,
    Dev.replAccepted_get _ _ _ _ _ (by decide)⟩

theorem exec_replaceGo_of_stopped {s : State} {n : Fin 16} (hw : s.dev.bus.writes = [])
    (hst : (s.dev.ndl.needle.get n).state = 0) (hcheck : s.dev.replCheck n = 1) :
    ∃ t, exec (.replaceGo n) s = .next t ∧ t.dev.get NDL_REPLACE.RESULT n = 2
      ∧ t.dev.get NDL_WIN.BASE n = s.dev.get NDL_WIN_NEXT.BASE n
      ∧ t.dev.get NDL_WIN.SIZE n = s.dev.get NDL_WIN_NEXT.SIZE n
      ∧ t.dev.get NDL_ENTRY.PC n = s.dev.get NDL_ENTRY_NEXT.PC n
      ∧ (t.dev.ndl.needle.get n).loops = [] ∧ (t.dev.ndl.needle.get n).calls = []
      ∧ t.dev.raised s.dev.now (416 + 2 * n) := by
  refine ⟨_, State.row_of_empty hw _, ?_⟩
  dsimp only
  rw [Dev.replaceGoEff_of_passes hcheck, if_pos (by omega)]
  obtain ⟨hresult, hentry, hbase, hsize⟩ := (s.dev.replAccepted n).replSwitch_get n
  rw [hresult, hentry, hbase, hsize, Dev.replSwitch_needle, Dev.replAccepted_needle]
  exact ⟨rfl, rfl, rfl, Dev.replAccepted_get _ _ _ _ _ (by decide), rfl, rfl, Dev.replSwitch_raised _ _⟩

theorem exec_replaceCancel {s : State} {n : Fin 16} (hw : s.dev.bus.writes = [])
    (h : s.dev.get NDL_REPLACE.RESULT n = 1) :
    ∃ t, exec (.replaceCancel n) s = .next t ∧ t.dev.get NDL_REPLACE.RESULT n = 5 ∧ t.dev.ndl = s.dev.ndl := by
  have hpending : s.dev.replPending n = true := beq_iff_eq.2 h
  refine ⟨_, State.row_of_empty hw _, ?_⟩
  dsimp only
  rw [Dev.replaceCancelEff, if_pos hpending]
  exact ⟨Dev.get_put_lt _ _ _ _ (by decide) (by decide), Dev.put_ndl _ _ _ _ _ _⟩

/-! ### PROG_STORE_WRITE -/

/-- An aligned word of the program store is stored, or counts in the window of a needle that runs or waits (R239). -/
theorem Dev.progStoreWriteEff_word (d : Dev) {a : Nat} {b : List Byte} (ha : a % 8 = 0) (hb : b.length = 8)
    (hfits : a + 8 ≤ 0x100000) : d.progStoreWriteEff a b = if d.progBusy a 8 then d.count NDL_G_WDROP.COUNT
      else d.setNdl { d.ndl with prog := d.ndl.prog.store a b } := by
  have hword : (a / 8 + 0) * 8 = a := by omega
  have hpart : wordPart a b a = (a, b) := by
    rw [wordPart, Nat.max_self, Nat.sub_self, List.drop_zero, Nat.add_sub_cancel_left, List.take_of_length_le (by omega)]
  rw [Dev.progStoreWriteEff, List.take_of_length_le (by omega), Dev.progWrite, ha, hb]
  change (List.range 1).foldl _ d = _
  rw [List.range_one, List.foldl_cons, List.foldl_nil]
  simp only [hword, hpart]

section
variable {s : State} {ofs : BitVec 20} {b : List Byte} (hw : s.dev.bus.writes = []) (ha : ofs.toNat % 8 = 0)
  (hb : b.length = 8)
include hw ha hb

theorem exec_progStoreWrite_of_free (hfree : s.dev.progBusy ofs.toNat 8 = false) :
    ∃ t, exec (.progStoreWrite ofs b) s = .next t ∧ t.dev.ndl.prog = s.dev.ndl.prog.store ofs.toNat b
      ∧ t.dev.ndl.needle = s.dev.ndl.needle ∧ t.dev.regs = s.dev.regs := by
  refine ⟨_, State.row_of_empty hw _, ?_⟩
  dsimp only
  rw [Dev.progStoreWriteEff_word _ ha hb (by omega), if_neg (Bool.eq_false_iff.1 hfree)]
  exact ⟨rfl, rfl, rfl⟩

theorem exec_progStoreWrite_of_busy (hbusy : s.dev.progBusy ofs.toNat 8 = true) :
    ∃ t, exec (.progStoreWrite ofs b) s = .next t ∧ t.dev.ndl = s.dev.ndl
      ∧ t.dev.get NDL_G_WDROP.COUNT = min (2 ^ NDL_G_WDROP.COUNT.w - 1) (s.dev.get NDL_G_WDROP.COUNT + 1) := by
  refine ⟨_, State.row_of_empty hw _, ?_⟩
  dsimp only
  rw [Dev.progStoreWriteEff_word _ ha hb (by omega), if_pos hbusy]
  exact ⟨Dev.count_ndl _ _ _ _ _, Dev.get_count_eq _ _ _ _ _ (by decide) (by decide)⟩

end

/-! ### NEEDLE_WINDOW_WRITE -/

theorem needleWindow_register (n : Fin 16) (r : Fin 32) :
    needleWindow (0x20000 + 0x100 * n.val + 8 * r.val) = some (n.val, true, 8 * r.val) := by
  have hneedle : (0x20000 + 0x100 * n.val + 8 * r.val - 0x20000) / 0x100 = n := by omega
  have hbyte : (0x20000 + 0x100 * n.val + 8 * r.val) % 0x100 = 8 * r.val := by omega
  rw [needleWindow, if_pos (by omega), hneedle, hbyte]

theorem needleWindow_scratch (n : Fin 16) (a : Fin 512) :
    needleWindow (0x40000 + 0x1000 * n.val + 8 * a.val) = some (n.val, false, 8 * a.val) := by
  have hneedle : (0x40000 + 0x1000 * n.val + 8 * a.val - 0x40000) / 0x1000 = n := by omega
  have hbyte : (0x40000 + 0x1000 * n.val + 8 * a.val) % 0x1000 = 8 * a.val := by omega
  rw [needleWindow, if_neg (by omega), if_pos (by omega), hneedle, hbyte]

/-- A value written under the full mask replaces what stood. -/
theorem write_fullMask (x v : W64) : (x &&& ~~~ ~~~ (0 : W64)) ||| ((v <<< 0) &&& ~~~ (0 : W64)) = v := by
  have hall : ~~~ (0 : W64) = BitVec.allOnes 64 := by decide
  rw [BitVec.not_not, BitVec.shiftLeft_zero, hall, BitVec.and_allOnes]
  simp

section
variable {d : Dev} {n : Fin 16} (h1 : (d.ndl.needle.get n).state ≠ 1) (h2 : (d.ndl.needle.get n).state ≠ 2)
include h1 h2

/-- A write of a whole register of a needle that neither runs nor waits (R258). -/
theorem Dev.needleWindowWriteEff_register (r : Fin 32) (v : W64) :
    d.needleWindowWriteEff (0x20000 + 0x100 * n.val + 8 * r.val) true v
      = d.updNdl n fun x => { x with g := x.g.set r v } := by
  have hreg : 8 * r.val / 8 = r := by omega
  have hidle := Needle.activeIn_of_idle h1 h2 d.now
  rw [Dev.needleWindowWriteEff, needleWindow_register]
  simp only [hidle, Bool.false_eq_true, if_false, if_true, hreg, write_fullMask, Needle.setReg]

/-- A write of a whole scratch word of a needle that neither runs nor waits (R258). -/
theorem Dev.needleWindowWriteEff_scratch (a : Fin 512) (v : W64) :
    d.needleWindowWriteEff (0x40000 + 0x1000 * n.val + 8 * a.val) true v
      = d.updNdl n fun x => { x with scratch := x.scratch.store (8 * a) (leBytes v.toNat 8) } := by
  have hidle := Needle.activeIn_of_idle h1 h2 d.now
  rw [Dev.needleWindowWriteEff, needleWindow_scratch]
  simp only [hidle, Bool.false_eq_true, if_false, if_true]

end

section
variable {s : State} {n : Fin 16} (hw : s.dev.bus.writes = []) (h1 : (s.dev.ndl.needle.get n).state ≠ 1)
  (h2 : (s.dev.ndl.needle.get n).state ≠ 2)
include hw h1 h2

theorem exec_needleWindowWrite_register (r : Fin 32) (v : W64) :
    ∃ t, exec (.needleWindowWrite (BitVec.ofNat 20 (0x20000 + 0x100 * n + 8 * r)) true v) s = .next t
      ∧ t.dev.ndl.needle.get n = { s.dev.ndl.needle.get n with g := (s.dev.ndl.needle.get n).g.set r v }
      ∧ t.dev.regs = s.dev.regs := by
  refine ⟨_, State.row_of_empty hw _, ?_⟩
  dsimp only
  rw [BitVec.toNat_ofNat, Nat.mod_eq_of_lt (by omega), Dev.needleWindowWriteEff_register h1 h2, Dev.updNdl_needle_same]
  exact ⟨rfl, rfl⟩

theorem exec_needleWindowWrite_scratch (a : Fin 512) (v : W64) :
    ∃ t, exec (.needleWindowWrite (BitVec.ofNat 20 (0x40000 + 0x1000 * n + 8 * a)) true v) s = .next t
      ∧ t.dev.ndl.needle.get n = { s.dev.ndl.needle.get n with
          scratch := (s.dev.ndl.needle.get n).scratch.store (8 * a) (leBytes v.toNat 8) }
      ∧ t.dev.regs = s.dev.regs := by
  refine ⟨_, State.row_of_empty hw _, ?_⟩
  dsimp only
  rw [BitVec.toNat_ofNat, Nat.mod_eq_of_lt (by omega), Dev.needleWindowWriteEff_scratch h1 h2, Dev.updNdl_needle_same]
  exact ⟨rfl, rfl⟩

end

/-- Settles O38: each command by what its effect leaves of the needle, its store and its registers. -/
theorem needleControlCommandsAct : Obligations.NeedleControlCommandsAct := by
  intro s n hw
  exact ⟨exec_needleGo hw, exec_needleStop hw, exec_replaceGo_of_running hw, exec_replaceGo_of_stopped hw,
    exec_replaceCancel hw, fun _ _ _ _ _ _ _ _ _ ha => exec_progStoreWrite_of_free hw ha rfl,
    fun _ _ _ _ _ _ _ _ _ ha => exec_progStoreWrite_of_busy hw ha rfl,
    fun r v h1 h2 => exec_needleWindowWrite_register hw h1 h2 r v,
    fun a v h1 h2 => exec_needleWindowWrite_scratch hw h1 h2 a v⟩

end Sys2Proof.Machine

/-! ## Needle effects are applied
(10_needles_and_zhervo_model.md R243, R248; 11_zhervo_instruction_reference.md R269, R276) -/

namespace Sys2Proof.Machine

/-! ### The next effect of a needle has its frame -/

theorem Dev.advanceTo_writes {d : Dev} (h : d.bus.writes = []) (t : Nat) : (d.advanceTo t).bus.writes = [] :=
  Dev.advanceTo_ind ((closed_noWrites 0).mono (by decide) (by decide)) h

/-- A frame that holds no writes is left by letting time pass. -/
theorem Dev.reach_of_empty {d : Dev} (h : d.bus.writes = []) (t : Nat) : d.reach t = d.advanceTo t := by
  rw [Dev.reach, Dev.frameEnd_of_empty h]
  split
  · rfl
  · next ht => exact (Dev.advanceTo_le (Nat.le_of_not_lt ht)).symm

theorem Dev.updNdl_needle_ne (d : Dev) {n m : Nat} (h : m ≠ n) (f : Needle → Needle) :
    (d.updNdl n f).ndl.needle.get m = d.ndl.needle.get m := Tab.get_upd_ne _ h _

theorem Dev.updNdl_congr {d : Dev} {n : Nat} {f g : Needle → Needle} (h : f (d.ndl.needle.get n) = g (d.ndl.needle.get n)) :
    d.updNdl n f = d.updNdl n g := by
  rw [Dev.updNdl, Dev.updNdl, Tab.upd, Tab.upd, h]

/-- The frame of effect `f` is reached, and it is in flight no more (R243). -/
def Dev.flightTaken (d : Dev) (n : Nat) (f : Flight) : Dev :=
  (d.advanceTo f.due).updNdl n fun x => { x with flights := x.flights.tail }

section
variable (d : Dev) (n : Nat) (f : Flight)

theorem Dev.flightTaken_now : (d.flightTaken n f).now = max d.now f.due := d.advanceTo_now f.due

theorem Dev.flightTaken_regs : (d.flightTaken n f).regs = d.regs := d.advanceTo_regs f.due

theorem Dev.flightTaken_dec : (d.flightTaken n f).dec = d.dec := d.advanceTo_dec f.due

theorem Dev.flightTaken_needle :
    (d.flightTaken n f).ndl.needle.get n = { d.ndl.needle.get n with flights := (d.ndl.needle.get n).flights.tail } := by
  rw [Dev.flightTaken, Dev.updNdl_needle_same, Dev.advanceTo_ndl]

/-- No context opens or closes when an effect is taken. -/
theorem Dev.flightTaken_ctx (m : Nat) : ((d.flightTaken n f).ndl.needle.get m).ctx = (d.ndl.needle.get m).ctx := by
  by_cases h : m = n
  · rw [h, Dev.flightTaken_needle]
  · rw [Dev.flightTaken, Dev.updNdl_needle_ne _ h, Dev.advanceTo_ndl]

theorem Dev.flightTaken_writes (h : d.bus.writes = []) : (d.flightTaken n f).bus.writes = [] :=
  Dev.advanceTo_writes h f.due

end

section
variable {d : Dev} {n : Nat} {f : Flight} (hw : d.bus.writes = []) (hf : (d.ndl.needle.get n).flights.head? = some f)
include hw hf

/-- The next effect joins the writes of its frame, or acts at once (R243). -/
theorem Dev.effectEff_of_head {c : Nat} (hc : f.eff.cls = c) : d.effectEff c n
    = if c = 0 then (d.flightTaken n f).written (.needle n f) else (d.flightTaken n f).applyEffect n f := by
  obtain ⟨rest, hrest⟩ := List.head?_eq_some_iff.1 hf
  have htaken : (d.reach f.due).updNdl n (fun x => { x with flights := rest }) = d.flightTaken n f := by
    rw [Dev.reach_of_empty hw]
    refine Dev.updNdl_congr ?_
    rw [Dev.advanceTo_ndl, hrest]
    rfl
  rw [Dev.effectEff, hrest]
  simp only [hc, htaken, ne_eq, not_true_eq_false, if_false]

end

/-! ### FIELD_WRITE_APPLY -/

section
variable {s : State} {n : Fin 16} {f : Flight} (hw : s.dev.bus.writes = [])
  (hf : (s.dev.ndl.needle.get n).flights.head? = some f)
include hw hf

/-- A field write of a needle joins the writes of its frame (R243). -/
theorem exec_fieldWriteApply (hc : f.eff.cls = 0) :
    exec (.fieldWriteApply n) s = .next { s with dev := (s.dev.flightTaken n f).written (.needle n f) } :=
  (State.effect_next _ _).trans (by rw [Dev.effectEff_of_head hw hf hc]; rfl)

theorem exec_fieldWriteApply_joins (hc : f.eff.cls = 0) :
    ∃ t, exec (.fieldWriteApply n) s = .next t ∧ t.dev.now = max s.dev.now f.due
      ∧ t.dev.bus.writes = [.needle n f] ∧ t.dev.regs = s.dev.regs
      ∧ (t.dev.ndl.needle.get n).flights = (s.dev.ndl.needle.get n).flights.tail := by
  refine ⟨_, exec_fieldWriteApply hw hf hc, s.dev.flightTaken_now n f, ?writes, s.dev.flightTaken_regs n f, ?flights⟩
  case writes =>
    rw [Dev.written, Dev.setBus_bus, Dev.flightTaken_writes _ _ _ hw]
    rfl
  case flights => exact congrArg Needle.flights (s.dev.flightTaken_needle n f)

end

/-- At the end of a frame with an effect that is no write of registers, it applies (R38). -/
theorem Dev.frameEnd_written_effect {d : Dev} {n : Nat} {f : Flight} (hw : d.bus.writes = [])
    (heff : ∀ w : WriteRun, w.needle n f = { w with d := w.d.applyEffect n f }) :
    (d.written (.needle n f)).frameEnd = (d.applyEffect n f).advanceTo (d.now + 1) := by
  rw [Dev.frameEnd_written_one hw, WriteRun.apply, heff]
  rfl

/-! ### CASTON and SYNC at the end of their frame -/

/-- A CASTON whose claims are of this product and of no open context opens its context with them (R248). -/
theorem Dev.castonApply_of_free {d : Dev} (n : Nat) (f : Flight) {a b : W64}
    (hctx : ∀ m, m < 16 → (d.ndl.needle.get m).ctx = false) (ha : a.toNat < 2 ^ 52) (hb : b.toNat < 2 ^ 16) :
    d.castonApply n f a b = (((d.wr ⟨.NDL_CLAIM0, n, 0, 0⟩ a).wr ⟨.NDL_CLAIM1, n, 0, 0⟩ b).updNdl n fun x =>
      { x with ctx := true }).originCancel := by
  have hhigh : ∀ {x : W64} {k : Nat}, x.toNat < 2 ^ k → x >>> k = 0 := fun {x k} hx => by
    apply BitVec.eq_of_toNat_eq
    rw [BitVec.toNat_ushiftRight, Nat.shiftRight_eq_div_pow, Nat.div_eq_of_lt hx]
    rfl
  have htaken : ∀ p : Nat → Bool, ((List.range 16).any fun m => m != n && (d.ndl.needle.get m).ctx && p m) = false := by
    intro p
    rw [List.any_eq_false]
    intro m hm
    rw [hctx m (List.mem_range.1 hm)]
    simp
  rw [Dev.castonApply]
  simp only [htaken, hhigh ha, hhigh hb]
  rfl

/-- A field of all 64 bits leaves its register no reserved one. -/
theorem Fld.regMask_of_full {f : Fld} (h : f.whole = true) (hfull : f.mask = BitVec.allOnes 64) (i j k : Nat) :
    Reg.mask ⟨f.g, i, j, k⟩ = BitVec.allOnes 64 := by
  obtain ⟨hheld, -⟩ := Fld.held_whole h i j k
  rwa [hfull, BitVec.allOnes_and] at hheld

/-- The claims and the context after a CASTON (R248). -/
theorem Dev.castonApply_opens {d : Dev} (n : Nat) (f : Flight) {a b : W64}
    (hctx : ∀ m, m < 16 → (d.ndl.needle.get m).ctx = false) (ha : a.toNat < 2 ^ 52) (hb : b.toNat < 2 ^ 16) :
    ((d.castonApply n f a b).ndl.needle.get n).ctx = true
      ∧ (d.castonApply n f a b).rd ⟨.NDL_CLAIM0, n, 0, 0⟩ = a ∧ (d.castonApply n f a b).rd ⟨.NDL_CLAIM1, n, 0, 0⟩ = b := by
  have hmask0 : Reg.mask ⟨.NDL_CLAIM0, n, 0, 0⟩ = _ :=
    Fld.regMask_of_full (f := NDL_CLAIM0.SET) (by decide) (by decide) n 0 0
  have hmask1 : Reg.mask ⟨.NDL_CLAIM1, n, 0, 0⟩ = _ :=
    Fld.regMask_of_full (f := NDL_CLAIM1.SET) (by decide) (by decide) n 0 0
  have hclaim0 : ((d.wr ⟨.NDL_CLAIM0, n, 0, 0⟩ a).wr ⟨.NDL_CLAIM1, n, 0, 0⟩ b).rd ⟨.NDL_CLAIM0, n, 0, 0⟩ = a := by
    rw [Dev.rd_wr_ne _ (fun h => Rg.noConfusion (congrArg Reg.g h)), Dev.rd_wr_same, hmask0, BitVec.and_allOnes]
  have hclaim1 : ((d.wr ⟨.NDL_CLAIM0, n, 0, 0⟩ a).wr ⟨.NDL_CLAIM1, n, 0, 0⟩ b).rd ⟨.NDL_CLAIM1, n, 0, 0⟩ = b := by
    rw [Dev.rd_wr_same, hmask1, BitVec.and_allOnes]
  rw [Dev.castonApply_of_free n f hctx ha hb, Dev.frame_ndl (Dev.originCancel_frame _) (by decide) (by decide),
    Dev.frame_rd (Dev.originCancel_frame _) _ _ _ _ (by decide), Dev.frame_rd (Dev.originCancel_frame _) _ _ _ _ (by decide),
    Dev.updNdl_needle_same, Dev.updNdl_rd, Dev.updNdl_rd]
  exact ⟨rfl, hclaim0, hclaim1⟩

/-- A SYNC is queued for the samples that the units see in the next frame. -/
theorem Dev.decSyncGoEff_of_none {d : Dev} (h : d.dec.sync = []) :
    d.decSyncGoEff = d.setDec { d.dec with sync := [d.frameAtUnit + 1] } := by
  rw [Dev.decSyncGoEff, h]
  exact if_neg List.not_mem_nil

section
variable {s : State} {n : Fin 16} {f : Flight} (hw : s.dev.bus.writes = [])
  (hf : (s.dev.ndl.needle.get n).flights.head? = some f)
include hw hf

theorem exec_fieldWriteApply_caston {a b : W64} (heff : f.eff = .caston a b)
    (hctx : ∀ m, m < 16 → (s.dev.ndl.needle.get m).ctx = false) (ha : a.toNat < 2 ^ 52) (hb : b.toNat < 2 ^ 16) :
    ∃ t, exec (.fieldWriteApply n) s = .next t ∧ t.dev.now = max s.dev.now f.due
      ∧ (t.dev.frameEnd.ndl.needle.get n).ctx = true
      ∧ t.dev.frameEnd.rd ⟨.NDL_CLAIM0, n, 0, 0⟩ = a ∧ t.dev.frameEnd.rd ⟨.NDL_CLAIM1, n, 0, 0⟩ = b := by
  have hopens := Dev.castonApply_opens (d := s.dev.flightTaken n f) n f
    (fun m hm => (Dev.flightTaken_ctx _ _ _ m).trans (hctx m hm)) ha hb
  have happly : (s.dev.flightTaken n f).applyEffect n f = (s.dev.flightTaken n f).castonApply n f a b := by
    rw [Dev.applyEffect, heff]
  refine ⟨_, exec_fieldWriteApply hw hf (by rw [heff]; rfl), s.dev.flightTaken_now n f, ?_⟩
  dsimp only
  rw [Dev.frameEnd_written_effect (Dev.flightTaken_writes _ _ _ hw) (fun w => by rw [WriteRun.needle, heff]), happly,
    Dev.advanceTo_ndl, Dev.advanceTo_rd, Dev.advanceTo_rd]
  exact hopens

theorem exec_fieldWriteApply_sync (heff : f.eff = .sync) (hsync : s.dev.dec.sync = []) :
    ∃ t, exec (.fieldWriteApply n) s = .next t ∧ t.dev.now = max s.dev.now f.due
      ∧ t.dev.frameEnd.dec.sync = [t.dev.now - 150 + 1] ∧ t.dev.frameEnd.regs = s.dev.regs := by
  have hnone : (s.dev.flightTaken n f).dec.sync = [] := by rw [Dev.flightTaken_dec, hsync]
  have happly : (s.dev.flightTaken n f).applyEffect n f = (s.dev.flightTaken n f).decSyncGoEff := by
    rw [Dev.applyEffect, heff]
  refine ⟨_, exec_fieldWriteApply hw hf (by rw [heff]; rfl), s.dev.flightTaken_now n f, ?_⟩
  dsimp only
  rw [Dev.frameEnd_written_effect (Dev.flightTaken_writes _ _ _ hw) (fun w => by rw [WriteRun.needle, heff]), happly,
    Dev.decSyncGoEff_of_none hnone, Dev.advanceTo_dec, Dev.advanceTo_regs, Dev.setDec_dec, Dev.setDec_regs]
  exact ⟨rfl, s.dev.flightTaken_regs n f⟩

end

/-! ### FIELD_READ_SERVE and REPORT_APPLY -/

/-- A property of the clock is kept by what does not set it. -/
theorem closed_sameClock (n : Nat) {c : Nat} (g : Nat) (hc : c.testBit 0 = false) : Closed (fun d => d.now = n) c g := by
  constructor
  case now => exact fun h => absurd h (Bool.eq_false_iff.1 hc)
  all_goals intros; assumption

theorem Dev.getfRead_now {d : Dev} {rq : Rq} {word lsb wm1 : Nat} {sx : Bool} {x : W64 × Dev}
    (h : d.getfRead rq word lsb wm1 sx = some x) : x.2.now = d.now :=
  Dev.getfRead_ind (closed_sameClock d.now _ (by decide)) rfl h

/-- The destination of a GETF holds its result, and can be read from the next frame on (R243, R269). -/
theorem Dev.applyEffect_getf {d : Dev} {n : Nat} {f : Flight} {word lsb wm1 dest : Nat} {sx : Bool} {v : W64}
    (heff : f.eff = .getf word lsb wm1 dest sx)
    (hread : (d.getfRead (needleRq n) word lsb wm1 sx).map Prod.fst = some v) :
    (d.applyEffect n f).now = d.now ∧ ((d.applyEffect n f).ndl.needle.get n).reg dest = v
      ∧ (dest, d.now + 1) ∈ ((d.applyEffect n f).ndl.needle.get n).busy := by
  obtain ⟨⟨v', e⟩, he, rfl⟩ := Option.map_eq_some_iff.1 hread
  have hnow : e.now = d.now := Dev.getfRead_now he
  rw [Dev.applyEffect, heff]
  simp only [he, Dev.updNdl_now, Dev.updNdl_needle_same, hnow]
  exact ⟨trivial, Tab.get_set_same _ _ _, List.mem_cons_self⟩

theorem needleRq_eq (n : Fin 16) : needleRq n = .needle n :=
  congrArg Rq.needle (Fin.ext (Nat.mod_eq_of_lt n.isLt))

section
variable {s : State} {n : Fin 16} {f : Flight} (hw : s.dev.bus.writes = [])
  (hf : (s.dev.ndl.needle.get n).flights.head? = some f)
include hw hf

theorem exec_fieldReadServe {word lsb wm1 dest : Nat} {sx : Bool} {v : W64} (heff : f.eff = .getf word lsb wm1 dest sx)
    (hdue : f.due = s.dev.now)
    (hread : ((s.dev.updNdl n fun x => { x with flights := x.flights.tail }).getfRead (.needle n) word lsb wm1 sx).map
      Prod.fst = some v) :
    ∃ t, exec (.fieldReadServe n) s = .next t ∧ t.dev.now = s.dev.now
      ∧ (t.dev.ndl.needle.get n).reg dest = v ∧ (dest, s.dev.now + 1) ∈ (t.dev.ndl.needle.get n).busy := by
  have htaken : s.dev.flightTaken n f = s.dev.updNdl n fun x => { x with flights := x.flights.tail } := by
    rw [Dev.flightTaken, Dev.advanceTo_le (Nat.le_of_eq hdue)]
  rw [← htaken, ← needleRq_eq] at hread
  obtain ⟨hnow, hreg, hbusy⟩ := Dev.applyEffect_getf heff hread
  have htime : (s.dev.flightTaken n f).now = s.dev.now := by rw [Dev.flightTaken_now, hdue, Nat.max_self]
  refine ⟨_, State.effect_next _ _, ?_⟩
  dsimp only
  rw [Dev.effectEff_of_head hw hf (by rw [heff]; rfl), if_neg (by decide)]
  rw [htime] at hnow hbusy
  exact ⟨hnow, hreg, hbusy⟩

theorem exec_reportApply_signal {code : Nat} (heff : f.eff = .signal code) :
    ∃ t, exec (.reportApply n) s = .next t ∧ t.dev.now = max s.dev.now f.due
      ∧ (t.dev.ndl.needle.get n).flights = (s.dev.ndl.needle.get n).flights.tail
      ∧ t.dev.get NDL_SIGCODE.CODE n = code % 2 ^ NDL_SIGCODE.CODE.w ∧ t.dev.raised t.dev.now (417 + 2 * n) := by
  have happly : (s.dev.flightTaken n f).applyEffect n f
      = ((s.dev.flightTaken n f).put NDL_SIGCODE.CODE code n).raise (417 + 2 * n) := by
    rw [Dev.applyEffect, heff]
  refine ⟨_, State.effect_next _ _, ?_⟩
  dsimp only
  rw [Dev.effectEff_of_head hw hf (by rw [heff]; rfl), if_neg (by decide), happly, Dev.raise_now, Dev.raise_ndl,
    Dev.raise_get, Dev.put_now, Dev.put_ndl, Dev.flightTaken_now, Dev.flightTaken_needle,
    Dev.get_put_eq _ _ _ _ _ _ (by decide)]
  refine ⟨rfl, rfl, rfl, ?raised⟩
  case raised =>
    rw [← s.dev.flightTaken_now n f]
    exact Dev.raise_raised _ _

end

end Sys2Proof.Machine

/-! ## Stimulus units run
(12_stimulus_synthesiser.md R281, R284, R285, R286, R287, R288, R289, R291) -/

namespace Sys2Proof.Machine

/-! ### A stimulus unit after a change of it -/

section
variable (d : Dev) (u : Nat)

@[simp] theorem Dev.updStm_stm_same (f : Stim → Stim) : (d.updStm u f).stm.get u = f (d.stm.get u) := Tab.get_upd_same _ _ _

theorem Dev.updStm_flag (f : Stim → Stim) (fl : Fld) (i j k : Nat) : (d.updStm u f).flag fl i j k = d.flag fl i j k :=
  Dev.flag_congr (d.updStm_get u f) _ _ _ _

theorem Dev.stmShow_stm : (d.stmShow u).stm = d.stm := (d.stmShow_frame u).1 .stimulus (by decide)

theorem Dev.stmShow_now : (d.stmShow u).now = d.now := (d.stmShow_frame u).1 .clock (by decide)

theorem Dev.stmCancel_stm (n : Nat) : (d.stmCancel u n).stm = d.stm := (d.stmCancel_frame u n).1 .stimulus (by decide)

end

/-! ### What the readiness of a unit rests on (R39) -/

section
variable {d d' : Dev} {ps : List Part} {l : List Rg}

theorem Dev.pdOn_congr (h : Dev.frame ps l d d') (hpd : l.contains .HK_PD_STAT = false) (n : Nat) :
    d'.pdOn n = d.pdOn n := by
  rw [Dev.pdOn, Dev.pdOn, Dev.frame_get h HK_PD_STAT.ON _ _ _ hpd]

/-- A unit is ready when it is enabled and its domains are on. -/
theorem Dev.stmReady_of_frame (h : Dev.frame ps l d d') (hpd : l.contains .HK_PD_STAT = false) (u : Nat) :
    d'.stmReady u = (d'.flag STM_UCTL.EN u && d.pdOn (10 * u + 8) && d.pdOn (10 * u + 9) && d.benchOn) := by
  rw [Dev.stmReady, Dev.benchOn, Dev.benchOn]
  simp only [Dev.pdOn_congr h hpd]

theorem Dev.stmReady_congr (h : Dev.frame ps l d d') (hpd : l.contains .HK_PD_STAT = false)
    (hctl : l.contains .STM_UCTL = false) (u : Nat) : d'.stmReady u = d.stmReady u := by
  rw [Dev.stmReady_of_frame h hpd, Dev.frame_flag h STM_UCTL.EN _ _ _ hctl]
  rfl

/-- A submission is judged by the readiness, the state and the queue depth of its unit (R286). -/
theorem Dev.playCheck_congr (h : Dev.frame ps l d d') (hpd : l.contains .HK_PD_STAT = false)
    (hctl : l.contains .STM_UCTL = false) (hstat : l.contains .STM_USTAT = false) (u ofs len kind : Nat) :
    d'.playCheck u ofs len kind = d.playCheck u ofs len kind := by
  rw [Dev.playCheck, Dev.playCheck, Dev.stmReady_congr h hpd hctl, Dev.frame_get h STM_USTAT.STATE _ _ _ hstat,
    Dev.frame_get h STM_USTAT.QDEPTH _ _ _ hstat]

end

/-! ### STIM_ENABLE and STIM_DISABLE -/

/-- A unit enabled outside a swatch is STATIC (R284, R285). -/
theorem Dev.stimEnableEff_of_off {d : Dev} {u : Nat} (hen : d.flag STM_UCTL.EN u = false)
    (hswatch : (d.slice.get u).swatch = none) :
    d.stimEnableEff u = ((d.putb STM_UCTL.EN true u).put STM_USTAT.STATE 1 u).updStm u fun x =>
      { x.enterStatic with acc := [0, 0, 0, 0], last := none, lost := false, lostTo := 0, clear := false } := by
  rw [Dev.stimEnableEff, if_neg (Bool.eq_false_iff.1 hen), hswatch]
  rfl

theorem exec_stimEnable {s : State} {u : Fin 4} (hw : s.dev.bus.writes = []) (hen : s.dev.flag STM_UCTL.EN u = false)
    (hswatch : (s.dev.slice.get u).swatch = none) :
    ∃ t, exec (.stimEnable u) s = .next t ∧ t.dev.flag STM_UCTL.EN u = true ∧ t.dev.get STM_USTAT.STATE u = 1
      ∧ t.dev.stmReady u = (s.dev.pdOn (10 * u + 8) && s.dev.pdOn (10 * u + 9) && s.dev.benchOn)
      ∧ (t.dev.stm.get u).acc = [0, 0, 0, 0] := by
  have heff := Dev.stimEnableEff_of_off hen hswatch
  have hflag : (s.dev.stimEnableEff u).flag STM_UCTL.EN u = true := by
    rw [heff, Dev.updStm_flag, Dev.flag_put_other _ _ _ _ _ _ _ _ _ _ (by decide) (by decide),
      Dev.flag_putb_whole _ _ _ _ _ _ (by decide)]
  have hstate : (s.dev.stimEnableEff u).get STM_USTAT.STATE u = 1 := by
    rw [heff, Dev.updStm_get, Dev.get_put_lt _ _ _ _ (by decide) (by decide)]
  refine ⟨_, State.row_of_empty hw _, hflag, hstate, ?ready, ?acc⟩
  case ready =>
    dsimp only
    rw [Dev.stmReady_of_frame (s.dev.stimEnableEff_frame u) (by decide), hflag, Bool.true_and]
  case acc =>
    dsimp only
    rw [heff, Dev.updStm_stm_same]

section
variable (d : Dev) (u : Nat)

/-- A unit whose queue is cancelled has nothing left but the playing segment. -/
theorem Dev.stmCancelQueue_stim : (d.stmCancelQueue u).stm.get u =
    { d.stm.get u with queue := [], chosen := none, jumps := [], startAt := none, startTick := none } := by
  rw [Dev.stmCancelQueue, Dev.stmShow_stm, Dev.updStm_stm_same, Dev.stmCancel_stm]

theorem Dev.stmCancelAll_stim : (d.stmCancelAll u).stm.get u = { d.stm.get u with
    playing := none, queue := [], chosen := none, jumps := [], startAt := none, startTick := none } := by
  rw [Dev.stmCancelAll, Dev.stmCancelQueue_stim, Dev.updStm_stm_same, Dev.stmCancel_stm]

end

theorem exec_stimDisable {s : State} {u : Fin 4} (hw : s.dev.bus.writes = []) (hen : s.dev.flag STM_UCTL.EN u = true) :
    ∃ t, exec (.stimDisable u) s = .next t ∧ t.dev.flag STM_UCTL.EN u = false ∧ t.dev.get STM_USTAT.STATE u = 0
      ∧ t.dev.stmReady u = false ∧ (t.dev.stm.get u).playing = none ∧ (t.dev.stm.get u).queue = [] := by
  have heff : s.dev.stimDisableEff u = ((s.dev.stmCancelAll u).putb STM_UCTL.EN false u).put STM_USTAT.STATE 0 u :=
    if_pos hen
  have hflag : (s.dev.stimDisableEff u).flag STM_UCTL.EN u = false := by
    rw [heff, Dev.flag_put_other _ _ _ _ _ _ _ _ _ _ (by decide) (by decide), Dev.flag_putb_whole _ _ _ _ _ _ (by decide)]
  refine ⟨_, State.row_of_empty hw _, hflag, ?state, ?ready, ?segments⟩
  case state =>
    dsimp only
    rw [heff, Dev.get_put_lt _ _ _ _ (by decide) (by decide)]
  case ready =>
    dsimp only
    rw [Dev.stmReady, hflag]
    rfl
  case segments =>
    dsimp only
    rw [heff, Dev.put_stm, Dev.putb_stm, Dev.stmCancelAll_stim]
    exact ⟨rfl, rfl⟩

/-! ### PLAY_SUBMIT -/

/-- The registers of a submission that is accepted (R286). -/
def Dev.playTaken (d : Dev) (u kind : Nat) : Dev := (d.put STM_PLAY_CTL.KIND kind u).put STM_PLAY_STAT.RESULT 1 u

/-- The segment that the registers of a unit name, in the frame of its submission. -/
def Dev.playSegment (d : Dev) (u : Nat) : StmSeg :=
  { ofs := d.get STM_PLAY_OFS.OFS u, len := d.get STM_PLAY_LEN.LEN u, applied := d.now }

theorem Dev.put_frame (d : Dev) (f : Fld) (v i j k : Nat) : Dev.frame [] [f.g] d (d.put f v i j k) := Dev.wr_frame _ _ _

theorem Dev.playTaken_frame (d : Dev) (u kind : Nat) :
    Dev.frame [] [.STM_PLAY_CTL, .STM_PLAY_STAT] d (d.playTaken u kind) :=
  Dev.frame_trans (Dev.frame_mono (d.put_frame _ _ _ _ _) (List.Subset.refl _) (by decide))
    (Dev.frame_mono (Dev.put_frame _ _ _ _ _ _) (List.Subset.refl _) (by decide))

theorem Dev.playTaken_result (d : Dev) (u kind : Nat) : (d.playTaken u kind).get STM_PLAY_STAT.RESULT u = 1 :=
  Dev.get_put_lt _ _ _ _ (by decide) (by decide)

/-- A submission that passes the checks joins the queue of its unit (R286). -/
theorem Dev.playSubmitEff_of_accepted {d : Dev} {u kind : Nat}
    (hcheck : d.playCheck u (d.get STM_PLAY_OFS.OFS u) (d.get STM_PLAY_LEN.LEN u) kind = 1) :
    d.playSubmitEff u kind = ((d.playTaken u kind).playAccept u kind (d.playSegment u)).stmShow u := by
  have hkind : Dev.frame [] [.STM_PLAY_CTL] d (d.put STM_PLAY_CTL.KIND kind u) := d.put_frame _ _ _ _ _
  have hofs := Dev.frame_get hkind STM_PLAY_OFS.OFS u 0 0 (by decide)
  have hlen := Dev.frame_get hkind STM_PLAY_LEN.LEN u 0 0 (by decide)
  rw [Dev.playSubmitEff]
  simp only [hofs, hlen, Dev.playCheck_congr hkind (by decide) (by decide) (by decide), hcheck, if_true]
  rfl

/-- A STATIC unit with an empty queue takes a segment and gives it its start (R287). -/
theorem Dev.playAccept_of_static {d : Dev} {u kind : Nat} {p : StmSeg} (hstate : d.get STM_USTAT.STATE u = 1)
    (hqueue : (d.stm.get u).queue = []) :
    d.playAccept u kind p = (d.updStm u fun x => { x with queue := [p] }).playStart u := if_pos ⟨hstate, hqueue⟩

section
variable (d : Dev) (u : Nat)

theorem Dev.playStart_queue : ((d.playStart u).stm.get u).queue = (d.stm.get u).queue := by
  rw [Dev.playStart]
  split <;> rw [Dev.updStm_stm_same]

/-- With START_MODE 0 the start is the first granule boundary from frame a + 128 on (R287). -/
theorem Dev.playStart_of_soon (h : d.flag STM_UCTL.START_MODE u = false) :
    ((d.playStart u).stm.get u).startAt = some (d.granuleFrom (d.now + 128))
      ∧ ((d.playStart u).stm.get u).startTick = none := by
  rw [Dev.playStart, if_neg (Bool.eq_false_iff.1 h), Dev.updStm_stm_same]
  exact ⟨rfl, rfl⟩

/-- With START_MODE 1 the start has its count, and granules before frame a + 128 are lost (R287). -/
theorem Dev.playStart_of_timed (h : d.flag STM_UCTL.START_MODE u = true) :
    ((d.playStart u).stm.get u).startTick.isSome = true ∧ ((d.playStart u).stm.get u).lostTo = d.now + 128 := by
  rw [Dev.playStart, if_pos h]
  dsimp only
  rw [Dev.updStm_stm_same]
  exact ⟨rfl, rfl⟩

end

theorem exec_playSubmit {s : State} {u kind : Fin 4} (hw : s.dev.bus.writes = [])
    (hcheck : s.dev.playCheck u (s.dev.get STM_PLAY_OFS.OFS u) (s.dev.get STM_PLAY_LEN.LEN u) kind = 1)
    (hstate : s.dev.get STM_USTAT.STATE u = 1) (hqueue : (s.dev.stm.get u).queue = []) :
    ∃ t, exec (.playSubmit u kind) s = .next t ∧ t.dev.get STM_PLAY_STAT.RESULT u = 1
      ∧ (t.dev.stm.get u).queue = [s.dev.playSegment u]
      ∧ (s.dev.flag STM_UCTL.START_MODE u = false →
        (t.dev.stm.get u).startAt = some (s.dev.granuleFrom (s.dev.now + 128)) ∧ (t.dev.stm.get u).startTick = none)
      ∧ (s.dev.flag STM_UCTL.START_MODE u = true →
        (t.dev.stm.get u).startTick.isSome = true ∧ (t.dev.stm.get u).lostTo = s.dev.now + 128) := by
  have htaken := s.dev.playTaken_frame u kind
  have hnow : (s.dev.playTaken u kind).now = s.dev.now := htaken.1 .clock (by decide)
  have hstm : (s.dev.playTaken u kind).stm = s.dev.stm := htaken.1 .stimulus (by decide)
  have hmode := Dev.frame_flag htaken STM_UCTL.START_MODE u 0 0 (by decide)
  have haccept := Dev.playAccept_of_static (kind := kind) (p := s.dev.playSegment u)
    ((Dev.frame_get htaken STM_USTAT.STATE u 0 0 (by decide)).trans hstate) (by rw [hstm, hqueue])
  refine ⟨_, State.row_of_empty hw _, ?_⟩
  dsimp only
  rw [Dev.playSubmitEff_of_accepted hcheck, Dev.stmShow_stm, Dev.frame_get (Dev.stmShow_frame _ _) _ _ _ _ (by decide),
    Dev.frame_get (Dev.playAccept_frame _ _ _ _) _ _ _ _ (by decide), Dev.playTaken_result, haccept, Dev.playStart_queue,
    Dev.updStm_stm_same]
  refine ⟨rfl, rfl, fun hsoon => ?soon, fun htimed => ?timed⟩
  case soon =>
    rw [← hnow]
    exact Dev.playStart_of_soon _ _ ((Dev.updStm_flag _ _ _ _ _ _ _).trans (hmode.trans hsoon))
  case timed =>
    rw [← hnow]
    exact Dev.playStart_of_timed _ _ ((Dev.updStm_flag _ _ _ _ _ _ _).trans (hmode.trans htimed))

/-! ### GRANULE_BOUNDARY of a STATIC unit with nothing to play -/

/-- The static tones take effect that changes of four frames before the boundary of frame `k` ask for (R284). -/
def Stim.staticsTaken (x : Stim) (k : Nat) : Stim :=
  let l := staticTones x.statics (x.changes.filter fun c => decide (c.2.2 + 4 ≤ k))
  { x with statics := l, tones := l, changes := x.changes.filter fun c => ! decide (c.2.2 + 4 ≤ k) }

theorem Stim.staticsTaken_of_unchanged {x : Stim} (h : x.changes = []) (k : Nat) :
    x.staticsTaken k = { x with tones := x.statics, changes := [] } := by
  rw [Stim.staticsTaken, h]
  rfl

section
variable {d : Dev} {u : Nat} (hplaying : (d.stm.get u).playing = none)
include hplaying

/-- A unit that plays nothing misses no granule. -/
theorem Dev.stmPass_of_idle (k n m : Nat) : d.stmPass u k n m = d := by
  cases n with
  | zero => rfl
  | succ n => rw [Dev.stmPass, hplaying]

/-- A unit with nothing to play begins no granule of a segment. -/
theorem Dev.stmGranule_of_idle (hqueue : (d.stm.get u).queue = []) (k : Nat) : d.stmGranule u k = d := by
  have hstart : d.stmStart u k = d := by
    rw [Dev.stmStart, hqueue]
    split
    · next h => exact absurd h nofun
    · rfl
  rw [Dev.stmGranule, hplaying]
  simp only [hstart, hplaying]

end

/-- The boundary of a STATIC unit with nothing to play: its static tones sound (R281, R285). -/
theorem Dev.stmBoundary_of_static {d : Dev} {u : Nat} (k : Nat) (hstate : d.get STM_USTAT.STATE u = 1)
    (hplaying : (d.stm.get u).playing = none) (hqueue : (d.stm.get u).queue = []) (hjumps : (d.stm.get u).jumps = []) :
    d.stmBoundary u k = ((((d.updStm u fun x => { x with last := some k }).updStm u fun x =>
      x.staticsTaken k).stmOutput u).stmShow u) := by
  have hplaying' : ((d.updStm u fun x => { x with last := some k }).stm.get u).playing = none := by
    rw [Dev.updStm_stm_same, hplaying]
  have hqueue' : ((d.updStm u fun x => { x with last := some k }).stm.get u).queue = [] := by
    rw [Dev.updStm_stm_same, hqueue]
  have hjumps' : ((d.updStm u fun x => { x with last := some k }).stm.get u).jumps = [] := by
    rw [Dev.updStm_stm_same, hjumps]
  have hhalted : ¬ (1 = 3 ∧ ((d.updStm u fun x => { x with last := some k }).stm.get u).clear = true) := by simp
  rw [Dev.stmBoundary]
  simp only [Dev.stmPass_of_idle hplaying', ite_self, hjumps', List.length_nil, Dev.jumpsBefore, Dev.updStm_get, hstate,
    hhalted, if_false, Dev.stmGranule_of_idle hplaying' hqueue', if_true]
  rfl

/-- The 256 codes of a STATIC unit's tones, saturated (R281). -/
theorem Dev.stmOutput_of_static {d : Dev} {u : Nat} (hstate : d.get STM_USTAT.STATE u = 1) :
    (d.stmOutput u).stm.get u = { d.stm.get u with
      acc := (stmCodes (d.stm.get u).tones 256 (d.stm.get u).acc).2
      out := (stmCodes (d.stm.get u).tones 256 (d.stm.get u).acc).1.map fun c => max (-8192) (min 8191 c) } := by
  rw [Dev.stmOutput, if_pos (Or.inl hstate)]
  dsimp only
  rw [Dev.updStm_stm_same]
  split
  · rw [Dev.count_stm]
  · rfl

theorem Dev.stmBoundary_static_out {d : Dev} {u : Nat} (k : Nat) (hstate : d.get STM_USTAT.STATE u = 1)
    (hplaying : (d.stm.get u).playing = none) (hqueue : (d.stm.get u).queue = []) (hjumps : (d.stm.get u).jumps = [])
    (hchanges : (d.stm.get u).changes = []) : ((d.stmBoundary u k).stm.get u).last = some k
      ∧ ((d.stmBoundary u k).stm.get u).out
        = (stmCodes (d.stm.get u).statics 256 (d.stm.get u).acc).1.map fun c => max (-8192) (min 8191 c) := by
  rw [Dev.stmBoundary_of_static k hstate hplaying hqueue hjumps, Dev.stmShow_stm, Dev.stmOutput_of_static
    (by rw [Dev.updStm_get, Dev.updStm_get, hstate]), Dev.updStm_stm_same, Dev.updStm_stm_same,
    Stim.staticsTaken_of_unchanged (x := { d.stm.get u with last := some k }) hchanges]
  dsimp only
  exact ⟨rfl, rfl⟩

theorem Dev.advanceTo_frame (d : Dev) (t : Nat) : Dev.frame [.clock, .bus, .events] [] d (d.advanceTo t) :=
  Dev.frame_of_ind (fun hP h => Dev.advanceTo_ind hP h) (by decide) (by decide)

/-- A ready unit takes its next boundary while the sample clock runs (R281, R292). -/
theorem Dev.granuleBoundaryEff_of_ready {d : Dev} {u : Nat} (hlocked : d.tb.locked = true) (hready : d.stmReady u = true) :
    d.granuleBoundaryEff u = (d.advanceTo (d.stmDue u)).stmBoundary u (d.stmDue u) := by
  have hready' : (d.advanceTo (d.stmDue u)).stmReady u = true := by
    rw [Dev.stmReady_congr (Dev.advanceTo_frame _ _) (by decide) (by decide), hready]
  rw [Dev.granuleBoundaryEff]
  simp [hlocked, hready']

theorem exec_granuleBoundary {s : State} {u : Fin 4} (hw : s.dev.bus.writes = []) (hlocked : s.dev.tb.locked = true)
    (hready : s.dev.stmReady u = true) (hstate : s.dev.get STM_USTAT.STATE u = 1)
    (hplaying : (s.dev.stm.get u).playing = none) (hqueue : (s.dev.stm.get u).queue = [])
    (hjumps : (s.dev.stm.get u).jumps = []) (hchanges : (s.dev.stm.get u).changes = []) :
    ∃ t, exec (.granuleBoundary u) s = .next t ∧ t.dev.now = max s.dev.now (s.dev.stmDue u)
      ∧ (t.dev.stm.get u).last = some (s.dev.stmDue u)
      ∧ (t.dev.stm.get u).out
        = (stmCodes (s.dev.stm.get u).statics 256 (s.dev.stm.get u).acc).1.map fun c => max (-8192) (min 8191 c) := by
  refine ⟨_, State.row_of_empty hw _, ?_⟩
  dsimp only
  rw [Dev.granuleBoundaryEff_of_ready hlocked hready]
  generalize s.dev.stmDue u = k
  have hstate' : (s.dev.advanceTo k).get STM_USTAT.STATE u = 1 := by rw [Dev.advanceTo_get, hstate]
  rw [← Dev.advanceTo_stm s.dev k] at hplaying hqueue hjumps hchanges ⊢
  refine ⟨?now, Dev.stmBoundary_static_out k hstate' hplaying hqueue hjumps hchanges⟩
  rw [(Dev.stmBoundary_frame _ _ _).1 .clock (by decide), Dev.advanceTo_now]

/-! ### JUMP_ARRIVAL -/

/-- A JUMP that arrives replaces the queue (R288). -/
theorem Dev.jumpTake_stim (d : Dev) (u k : Nat) (p : StmSeg) : ((d.jumpTake u k p).stm.get u).queue = [p]
    ∧ ((d.jumpTake u k p).stm.get u).jumps = (d.stm.get u).jumps.tail := by
  rw [Dev.jumpTake, Dev.updStm_stm_same, Dev.stmCancel_stm, List.drop_one]
  exact ⟨rfl, rfl⟩

/-- A JUMP that arrives before the next boundary is taken in its frame. -/
theorem Dev.jumpArrivalEff_of_before {d : Dev} {u : Nat} {x : Nat × StmSeg}
    (hhead : (d.stm.get u).jumps.head? = some x) (hbefore : x.1 < d.stmDue u) :
    d.jumpArrivalEff u = ((d.advanceTo x.1).jumpTake u x.1 x.2).stmShow u := by
  obtain ⟨rest, hrest⟩ := List.head?_eq_some_iff.1 hhead
  rw [Dev.jumpArrivalEff, hrest]
  simp only [if_neg (Nat.not_le_of_lt hbefore), hhead, if_true]

theorem exec_jumpArrival {s : State} {u : Fin 4} {x : Nat × StmSeg} (hw : s.dev.bus.writes = [])
    (hhead : (s.dev.stm.get u).jumps.head? = some x) (hbefore : x.1 < s.dev.stmDue u) :
    ∃ t, exec (.jumpArrival u) s = .next t ∧ t.dev.now = max s.dev.now x.1
      ∧ (t.dev.stm.get u).queue = [x.2] ∧ (t.dev.stm.get u).jumps = (s.dev.stm.get u).jumps.tail := by
  obtain ⟨hqueue, hjumps⟩ := (s.dev.advanceTo x.1).jumpTake_stim u x.1 x.2
  refine ⟨_, State.row_of_empty hw _, ?_⟩
  dsimp only
  rw [Dev.jumpArrivalEff_of_before hhead hbefore, Dev.stmShow_now, Dev.stmShow_stm, hqueue, hjumps,
    (Dev.jumpTake_frame _ _ _ _).1 .clock (by decide), Dev.advanceTo_now, Dev.advanceTo_stm]
  exact ⟨rfl, rfl, rfl⟩

/-! ### PREFETCH_RECORD, STIM_CLEAR and STATIC_TONE_WRITE -/

/-- A record whose granule is still to begin is held (R289). -/
theorem Dev.segFetch_of_ahead (d : Dev) {p : StmSeg} {passed : Nat} (h : passed ≤ p.fetched) :
    d.segFetch p passed = { p with
      fetched := p.fetched + 1, held := p.held ++ [(p.fetched, d.storeRead 0 (p.ofs + 64 * p.fetched) 64)] } := by
  rw [Dev.segFetch, if_neg (Nat.not_lt_of_le h)]

/-- The playing segment reads first (R289). -/
theorem Dev.prefetchRecordEff_of_playing {d : Dev} {u : Nat} {p : StmSeg} (hplaying : (d.stm.get u).playing = some p)
    (hunread : p.fetched < p.len) (hroom : (d.stm.get u).records < 1024) :
    d.prefetchRecordEff u = (d.updStm u fun x =>
      { x with playing := x.playing.map fun q => d.segFetch q x.granule }).stmShow u := by
  rw [Dev.prefetchRecordEff]
  simp only [if_neg (Nat.not_le_of_lt hroom), hplaying, Option.any_some, decide_eq_true hunread, if_true]

theorem exec_prefetchRecord {s : State} {u : Fin 4} {p : StmSeg} (hw : s.dev.bus.writes = [])
    (hplaying : (s.dev.stm.get u).playing = some p) (hunread : p.fetched < p.len)
    (hahead : (s.dev.stm.get u).granule ≤ p.fetched) (hroom : (s.dev.stm.get u).records < 1024) :
    ∃ t, exec (.prefetchRecord u) s = .next t ∧ (t.dev.stm.get u).playing = some { p with
      fetched := p.fetched + 1, held := p.held ++ [(p.fetched, s.dev.storeRead 0 (p.ofs + 64 * p.fetched) 64)] } := by
  refine ⟨_, State.row_of_empty hw _, ?_⟩
  dsimp only
  rw [Dev.prefetchRecordEff_of_playing hplaying hunread hroom, Dev.stmShow_stm, Dev.updStm_stm_same, hplaying,
    Option.map_some, Dev.segFetch_of_ahead _ hahead]

theorem exec_stimClear {s : State} {u : Fin 4} (hw : s.dev.bus.writes = []) (h : s.dev.get STM_USTAT.STATE u = 3) :
    ∃ t, exec (.stimClear u) s = .next t ∧ (t.dev.stm.get u).clear = true ∧ t.dev.regs = s.dev.regs := by
  refine ⟨_, State.row_of_empty hw _, ?_⟩
  dsimp only
  rw [Dev.stimClearEff, if_pos h, Dev.updStm_stm_same]
  exact ⟨rfl, rfl⟩

theorem exec_staticToneWrite {s : State} {u : Fin 4} (hw : s.dev.bus.writes = []) (k : Fin 4) (v : W64) :
    ∃ t, exec (.staticToneWrite u k false v) s = .next t
      ∧ t.dev.get STM_TFREQ.FTW u k = v.toNat / 2 ^ STM_TFREQ.FTW.lo % 2 ^ STM_TFREQ.FTW.w
      ∧ (t.dev.stm.get u).changes = (s.dev.stm.get u).changes ++
          [(k.val, ⟨t.dev.get STM_TFREQ.FTW u k, s.dev.get STM_TPA.PH u k, s.dev.get STM_TPA.A u k⟩, s.dev.now)] := by
  have heff : s.dev.staticToneWriteEff u k false v = (s.dev.wr ⟨.STM_TFREQ, u, k, 0⟩ v).toneChange u k := rfl
  have hkept : ∀ f : Fld, f.g = .STM_TPA → (s.dev.wr ⟨.STM_TFREQ, u, k, 0⟩ v).get f u k = s.dev.get f u k := fun f hf =>
    Dev.get_wr_family _ _ _ _ _ (by rw [hf]; exact nofun)
  refine ⟨_, State.row_of_empty hw _, ?_⟩
  dsimp only
  rw [heff, Dev.toneChange, Dev.updStm_get, Dev.updStm_stm_same, Dev.wr_stm, Dev.wr_now,
    hkept STM_TPA.PH rfl, hkept STM_TPA.A rfl]
  exact ⟨Dev.get_wr_eq _ STM_TFREQ.FTW _ _ _ _ (by decide), rfl⟩

/-! ### The commands together -/

/-- Settles O39: each command by what its effect leaves of the needle, the unit and their registers. -/
theorem effectAndStimulusCommandsAct : Obligations.EffectAndStimulusCommandsAct := fun _ _ _ hw =>
  ⟨fun _ => exec_fieldWriteApply_joins hw, fun _ _ _ hf => exec_fieldWriteApply_caston hw hf,
    fun _ => exec_fieldWriteApply_sync hw, fun _ _ _ _ _ _ _ hf => exec_fieldReadServe hw hf, fun _ _ hf => exec_reportApply_signal hw hf, exec_stimEnable hw,
    exec_stimDisable hw, fun _ => exec_playSubmit hw, exec_granuleBoundary hw,
    fun _ hhead hbefore _ => exec_jumpArrival hw hhead hbefore, fun _ => exec_prefetchRecord hw, exec_stimClear hw,
    fun k v => exec_staticToneWrite hw k v⟩

end Sys2Proof.Machine

/-! ## LOOP, and MOV of a special register, behind a write of their frame
(11_zhervo_instruction_reference.md R265, R267; 01_engine_at_a_glance.md R38; log entry 31)

O34 and O37, too, name the frame of issue by the clock and the needle alone, in any state. -/

namespace Sys2Proof.Machine

/-- An instruction of the needle of `needleBehindWrite w` acts after frame 1024, which ends first. -/
theorem now_ne_of_needleBehindWrite {c : Instr} {w : W64} {t : State} (hj : joinsFrame c = false)
    (h : exec c (needleBehindWrite w) = .next t) : t.dev.now ≠ 1024 :=
  Nat.ne_of_gt (now_lt_of_waitingWrites hj (List.cons_ne_nil _ _) h)

/-- Refutes O34: LOOP with I = 1, IMM32 = 0 and END = 9, which needle 0 is to issue in frame 1024, issues in frame 1025, once
the write of the host that frame 1024 holds has applied. -/
theorem not_loopInstructionsFollowTheTable : ¬ Obligations.LoopInstructionsFollowTheTable := by
  intro h
  obtain ⟨hskip, -⟩ := h (needleBehindWrite 0x0c04000000000009) 0 { state := 1 } 0x0c04000000000009 1024 (by decide)
    (by decide) (by decide)
  obtain ⟨t, ht, hnow, -⟩ := hskip (by decide) (by decide)
  exact now_ne_of_needleBehindWrite rfl ht hnow

/-- Refutes O37: MOV g1, NOWTICK, which needle 0 is to issue in frame 1024, issues in frame 1025. -/
theorem not_movReadsTheSpecialRegisters : ¬ Obligations.MovReadsTheSpecialRegisters := by
  intro h
  obtain ⟨-, htick, -⟩ := h (needleBehindWrite 0x100a008000000000) 0 { state := 1 } 0x100a008000000000 1024 (by decide)
    (by decide) (by decide)
  obtain ⟨t, ht, hnow, -⟩ := htick (by decide) (by decide) (by decide)
  exact now_ne_of_needleBehindWrite rfl ht hnow

end Sys2Proof.Machine

/-! ## What the commands of the stimulus units, the hoist and the quarry leave unchanged
(12_stimulus_synthesiser.md R285; 13_bench_and_quarry_memory.md R306, R316) -/

namespace Sys2Proof.Machine

-- One proof at a time: the text is compiled within a fixed memory.
set_option Elab.async false

/-- Settles O15: a command leaves unchanged what its effect on the module does. -/
theorem stimulusHoistQuarryCommandsFrame : Obligations.StimulusHoistQuarryCommandsFrame := by
  intro s s'
  refine ⟨fun _ h => row_frame h (Dev.stimEnableEff_frame _), fun _ h => row_frame h (Dev.stimDisableEff_frame _),
    fun _ _ h => row_frame h (Dev.playSubmitEff_frame _ _), fun u c hc h => ?boundaryOrJump,
    fun _ h => row_frame h (Dev.prefetchRecordEff_frame _), fun _ h => row_frame h (Dev.stimClearEff_frame _),
    fun _ _ _ _ h => row_frame h (Dev.staticToneWriteEff_frame _ _ _ _),
    fun _ _ h => row_frame h (Dev.hoistTargetEnableEff_frame _ _), fun _ h => row_frame h (Dev.replayGoEff_frame _),
    fun h => row_frame h Dev.hoistPieceEff_frame, fun _ h => row_frame h (Dev.hoistEntryEff_frame _),
    fun _ h => row_frame h (Dev.replayDoneEff_frame _), fun _ _ h => row_frame h (Dev.hoistReleaseWriteEff_frame _ _),
    fun _ _ _ _ h => row_frame h (Dev.quarryRequestEff_frame _ _ _ _),
    fun _ h => row_frame h (Dev.hostDeferExpiryEff_frame _), fun _ _ h => row_frame h (Dev.refreshDueEff_frame _ _),
    fun h => row_frame h Dev.patrolScrubEff_frame, fun _ _ _ _ h => row_frame h (Dev.memoryErrorEff_frame _ _ _ _),
    fun _ h => row_frame h (Dev.rowCopyDoneEff_frame _), fun _ h => row_frame h (Dev.channelRetireEff_frame _),
    fun h => row_frame h Dev.retireClearEff_frame, fun h => row_frame h Dev.migrationBatchDoneEff_frame,
    fun _ h => row_frame h (Dev.freqChangeGoEff_frame _), fun _ h => row_frame h (Dev.freqChangeBeginEff_frame _),
    fun h => row_frame h Dev.freqDoneEff_frame, fun _ h => row_frame h (Dev.selfRefreshEntryEff_frame _)⟩
  case boundaryOrJump =>
    obtain rfl | rfl : c = .granuleBoundary u ∨ c = .jumpArrival u := by simpa using hc
    · exact row_frame h (Dev.granuleBoundaryEff_frame _)
    · exact row_frame h (Dev.jumpArrivalEff_frame _)

end Sys2Proof.Machine

/-! ## What the commands of the instrument ports and the trigger bus leave unchanged
(16_stream_ports.md R369, R376; 17_multi_device_timing.md R389, R392) -/

namespace Sys2Proof.Machine

-- One proof at a time: the text is compiled within a fixed memory.
set_option Elab.async false

/-- Settles O17: a command leaves unchanged what its effect on the module does. -/
theorem portAndTrigBusCommandsFrame : Obligations.PortAndTrigBusCommandsFrame := by
  intro s s'
  refine ⟨fun x c hc h => ?pulse, fun _ _ h => row_frame h (Dev.portEnableEff_frame _ _),
    fun _ h => row_frame h (Dev.portDisableEff_frame _), fun _ _ _ _ h => row_frame h (Dev.ethFrameRxEff_frame _ _ _ _),
    fun _ h => row_frame h (Dev.arpNdEchoEff_frame _), fun _ _ _ h => row_frame h (Dev.creditEff_frame _ _ _),
    fun _ _ _ _ h => row_frame h (Dev.nackEff_frame _ _ _ _), fun _ _ _ _ h => row_frame h (Dev.fireAtEff_frame _ _ _ _),
    fun _ h => row_frame h (Dev.packetLaunchEff_frame _), fun _ h => row_frame h (Dev.retransmitEff_frame _),
    fun _ h => row_frame h (Dev.creditTimeoutEff_frame _), fun _ _ _ h => row_frame h (Dev.faKeyWriteEff_frame _ _ _),
    fun p sub c hc h => ?link, fun _ h => row_frame h (Dev.ownershipWriteEff_frame _),
    fun _ _ _ _ h => row_frame h (Dev.pinEdgeEff_frame _ _ _ _), fun _ h => row_frame h (Dev.filteredChangeEff_frame _),
    fun _ _ h => row_frame h (Dev.contentionEff_frame _ _), fun _ h => row_frame h (Dev.faultClearEff_frame _),
    fun _ h => row_frame h (Dev.msgModeEnableEff_frame _), fun _ h => row_frame h (Dev.msgTxGoEff_frame _),
    fun c hc h => ?send, fun h => row_frame h Dev.msgTxEff_frame,
    fun _ _ _ _ _ _ h => row_frame h (Dev.msgFrameRxEff_frame _ _ _ _ _ _), fun _ h => row_frame h (Dev.pingGoEff_frame _),
    fun h => row_frame h Dev.pingPulseEff_frame, fun h => row_frame h Dev.pingReplyEff_frame,
    fun h => row_frame h Dev.pingDoneEff_frame, fun h => row_frame h Dev.pingTimeoutEff_frame⟩
  case pulse =>
    obtain rfl | rfl : c = .markerPulseEnd x ∨ c = .outputLaunch x := by simpa using hc
    · exact row_frame h (Dev.markerPulseEndEff_frame _)
    · exact row_frame h (Dev.outputLaunchEff_frame _)
  case link =>
    obtain rfl | rfl : c = .subportLinkUp p sub ∨ c = .subportLinkDown p sub := by simpa using hc
    · exact row_frame h (Dev.subportLinkUpEff_frame _ _)
    · exact row_frame h (Dev.subportLinkDownEff_frame _ _)
  case send =>
    obtain rfl | rfl : c = .wordSendStart ∨ c = .backoffExpiry := by simpa using hc
    · exact row_frame h Dev.wordSendStartEff_frame
    · exact row_frame h Dev.backoffExpiryEff_frame

end Sys2Proof.Machine

/-! ## What the commands of the raster processor, the power domains, security and the link tests leave unchanged
(18_raster_and_display.md R407, R419; 19_power_reset_and_live_update.md R440; 22_test_and_loopbacks.md R470) -/

namespace Sys2Proof.Machine

-- One proof at a time: the text is compiled within a fixed memory.
set_option Elab.async false

/-- Settles O18: a command leaves unchanged what its effect on the module does. -/
theorem rasterAndHouseCommandsFrame : Obligations.RasterAndHouseCommandsFrame := by
  intro s s'
  refine ⟨fun _ h => row_frame h (Dev.canvasEnableEff_frame _), fun _ h => row_frame h (Dev.rasGoEff_frame _),
    fun _ h => row_frame h (Dev.passStartEff_frame _), fun _ h => row_frame h (Dev.passEndEff_frame _),
    fun c hc h => ?commit, fun _ _ h => row_frame h (Dev.vblankEff_frame _ _), fun h => row_frame h Dev.vrrPorchEndEff_frame,
    fun _ h => row_frame h (Dev.frontBufferSampleEff_frame _), fun _ h => row_frame h (Dev.teEdgeEff_frame _),
    fun h => row_frame h Dev.teMissEff_frame, fun h => row_frame h Dev.repairEff_frame,
    fun _ _ h => row_frame h (Dev.fetchUnderrunEff_frame _ _), fun h => row_frame h Dev.daHotPlugEff_frame,
    fun h => row_frame (f := fun d => d.wakeFrom 0) h (Dev.wakeFrom_frame · _),
    fun _ h => row_frame h (Dev.wakeSourceEff_frame _),
    fun h => row_frame h Dev.mainPgRiseEff_frame, fun _ h => row_frame h (Dev.pdOffEff_frame _),
    fun _ h => row_frame h (Dev.pdLingerExpiryEff_frame _), fun _ h => row_frame h (Dev.bootEff_frame _),
    fun _ h => row_frame h (Dev.tempWarnEff_frame _), fun _ h => row_frame h (Dev.tempOkEff_frame _),
    fun _ _ _ h => row_frame h (Dev.fwStageEff_frame _ _ _), fun h => row_frame h Dev.fwSwitchEff_frame,
    fun h => row_frame h Dev.fwSwitchStartEff_frame, fun h => row_frame h Dev.fwConfirmEff_frame,
    fun h => row_frame h Dev.fwWatchdogEff_frame, fun fuses => ?signed, fun h => row_frame h Dev.debugEff_frame, ?spdm,
    fun slot => ?slot, fun _ h => row_frame h (Dev.getMeasurementsEff_frame _), fun ses => ?session,
    fun ses => ?inSession, fun _ _ _ h => row_frame h (Dev.vendorDefinedRequestEff_frame _ _ _),
    fun _ h => row_frame h (Dev.ideErrorEff_frame _), fun _ _ h => rowLast_frame h (Dev.testStartEff_frame _ _),
    fun _ _ _ h => row_frame h (Dev.testStopEff_frame _ _ _), fun _ _ h => row_frame h (Dev.blockReadyEff_frame _ _),
    fun _ h => row_frame h (Dev.checkerLockEff_frame _), fun _ _ _ h => row_frame h (Dev.checkerLockLossEff_frame _ _ _),
    fun _ h => row_frame h (Dev.daLinkTrainedEff_frame _)⟩
  case commit =>
    obtain rfl | rfl : c = .dpyCommitA ∨ c = .dpyCommitB := by simpa using hc
    · exact row_frame h Dev.dpyCommitAEff_frame
    · exact row_frame h Dev.dpyCommitBEff_frame
  case signed =>
    simp only [List.forall_mem_cons]
    exact ⟨fun h => row_frame h (Dev.signedCommand_frame _ _), fun h => row_frame h (Dev.signedCommand_frame _ _),
      fun h => row_frame h (Dev.signedCommand_frame _ _), fun h => row_frame h (Dev.signedCommand_frame _ _),
      fun h => row_frame h (Dev.signedCommand_frame _ _), nofun⟩
  case spdm =>
    simp only [List.forall_mem_cons]
    exact ⟨fun h => row_frame h Dev.getVersionEff_frame, fun h => row_frame h Dev.getCapabilitiesEff_frame,
      fun h => row_frame h Dev.negotiateAlgorithmsEff_frame, fun h => row_frame h Dev.getDigestsEff_frame,
      fun h => row_frame h Dev.keyExchangeEff_frame, nofun⟩
  case slot =>
    simp only [List.forall_mem_cons]
    exact ⟨fun h => row_frame h (Dev.getCertificateEff_frame _), fun h => row_frame h (Dev.challengeEff_frame _), nofun⟩
  case session =>
    simp only [List.forall_mem_cons]
    exact ⟨fun h => row_frame h (Dev.finishEff_frame _), fun h => row_frame h (Dev.endSessionEff_frame _), nofun⟩
  case inSession =>
    simp only [List.forall_mem_cons]
    exact ⟨fun h => row_frame h (Dev.keyUpdateEff_frame _), fun h => row_frame h (Dev.heartbeatEff_frame _), nofun⟩

end Sys2Proof.Machine

/-! ## Lanes that end before frame 214
(06_record_lanes_and_segments.md R159; 19_power_reset_and_live_update.md R437; 20_life_cycle_and_security.md R450)

A lane that goes off with a request in hand takes the decision of its unit for the sample frame `now - 214`, and that decision
is made 214 frames after its sample frame. In a state whose clock stands before frame 214 (the device starts in frame 1024, but
the statements range over every state) the subtraction stops at 0, and the clock goes to frame 214: what is raised after the
lane's end is raised in that frame. -/

namespace Sys2Proof.Machine

-- One proof at a time: the text is compiled within a fixed memory.
set_option Elab.async false

/-- A module in frame 0 with record lane 0 on, which holds a request. -/
def earlyLane : Dev :=
  (({ now := 0 } : Dev).putb REC_LCTL.EN true 0).setLanes { lane := Tab.set [] 0 { cur := some {} } }

/-- `earlyLane` while the signed RETURN runs. -/
def returnOfEarlyLane : State := ⟨earlyLane.setSec { running := some 6 }, []⟩

theorem return_returnOfEarlyLane :
    exec (.return_ true) returnOfEarlyLane = .next ⟨returnOfEarlyLane.dev.signedCommand 6 true, []⟩ :=
  State.row_of_empty rfl _

theorem arriving_returnOfEarlyLane :
    (returnOfEarlyLane.dev.signedCommand 6 true).evr.arriving = [(0, 624), (214, 628), (214, 625)] := by decide +kernel

/-- Refutes O54: the RETURN of `returnOfEarlyLane` switches lane 0 off, and raises TOKEN_ACCEPT in frame 214. -/
theorem not_signedCommandsAct : ¬ Obligations.SignedCommandsAct := by
  intro h
  obtain ⟨-, -, -, -, hreturn, -⟩ := h returnOfEarlyLane rfl
  obtain ⟨⟨t, ht, -, -, -, -, -, -, -, -, -, -, -, -, -, -, haccept, -⟩, -⟩ := hreturn [] (.inl ⟨rfl, rfl⟩)
  injection return_returnOfEarlyLane.symm.trans ht with hst
  rw [← hst, Dev.raised, arriving_returnOfEarlyLane] at haccept
  exact absurd haccept (by decide)

theorem tempCrit_earlyLane :
    exec (.tempCrit 2000) ⟨earlyLane, []⟩ = .next ⟨earlyLane.tempCritEff 2000, []⟩ := State.row_of_empty rfl _

theorem arriving_tempCrit_earlyLane :
    (earlyLane.tempCritEff 2000).evr.arriving = [(0, 632), (214, 608), (214, 632), (214, 614)] := by decide +kernel

/-- Refutes O52: at 125 °C `earlyLane` switches lane 0 off, and raises TEMP_CRIT in frame 214. -/
theorem not_temperatureAndFirmwareCommandsAct : ¬ Obligations.TemperatureAndFirmwareCommandsAct := by
  intro h
  obtain ⟨-, hcrit, -⟩ := h ⟨earlyLane, []⟩ rfl
  obtain ⟨t, ht, -, -, -, -, htemp, -⟩ :=
    hcrit 2000 rfl rfl rfl rfl (by decide +kernel) (by decide +kernel)
  injection tempCrit_earlyLane.symm.trans ht with hst
  rw [← hst] at htemp
  dsimp only at htemp
  rw [Dev.raised, arriving_tempCrit_earlyLane] at htemp
  exact absurd htemp (show (0, 614) ∉ _ by decide)

end Sys2Proof.Machine

/-! ## A register that the table lists twice (19_power_reset_and_live_update.md R436)

A table of registers lists a register once; the value of a register listed twice is its first one. What a reset keeps drops
each value that is the reset value, and so brings the second one forward. -/

namespace Sys2Proof.Machine

-- One proof at a time: the text is compiled within a fixed memory.
set_option Elab.async false

/-- A module whose registers list GLB_LC twice, with STATE 0 first. -/
def listedTwice : State := ⟨{ regs := [(⟨.GLB_LC, 0, 0, 0⟩, 0), (⟨.GLB_LC, 0, 0, 0⟩, 1)] }, []⟩

/-- A module without AON whose registers list GLB_LC with STATE 1. -/
def listedOnce : Dev :=
  { regs := [(⟨.GLB_LC, 0, 0, 0⟩, 1)], tb := { epochs := [{ frame := 1024 }] }, pwr := { aon := false, mainEn := false } }

theorem aonPowerLoss_listedTwice : exec .aonPowerLoss listedTwice = .next ⟨listedOnce.newNonce, []⟩ :=
  State.row_of_empty rfl _

/-- Refutes O51: STATE of `listedTwice` reads 0 before the loss of AON and 1 after it. -/
theorem not_resetAndBootCommandsAct : ¬ Obligations.ResetAndBootCommandsAct := by
  intro h
  obtain ⟨-, -, -, -, -, -, hloss, -⟩ := h listedTwice rfl
  obtain ⟨t, ht, -, -, -, -, -, hstate⟩ := hloss
  injection aonPowerLoss_listedTwice.symm.trans ht with hst
  rw [← hst, Dev.frame_get (Dev.newNonce_frame _) GLB_LC.STATE 0 0 0 (by decide)] at hstate
  exact absurd hstate (by decide)

end Sys2Proof.Machine

/-! ## The SPDM responder and PCI Express IDE (20_life_cycle_and_security.md R452, R453, R454, R456) -/

namespace Sys2Proof.Machine

-- One proof at a time: the text is compiled within a fixed memory.
set_option Elab.async false

/-! ### When a request is answered -/

/-- A request whose steps of the negotiation have been taken. -/
theorem Dev.spdmRequest_of_agreed {d : Dev} {n : Nat} (hup : d.link.up = true) (hn : n ≤ d.sec.agreed) (f : Dev → Dev) :
    d.spdmRequest n f = f d := by
  rw [Dev.spdmRequest, hup, if_pos hn]
  rfl

/-- A request in a session that is in the state it needs. -/
theorem Dev.inSession_of_state {d : Dev} {ses st : Nat} (hup : d.link.up = true) (hn : 3 ≤ d.sec.agreed)
    (hst : (d.sec.session.get ses).state = st) (f : Dev → Dev) : d.inSession ses st f = f d := by
  rw [Dev.inSession, Dev.spdmRequest_of_agreed hup hn, if_pos hst]

/-- A request in a session in another state: the error response, however far the negotiation is. -/
theorem Dev.inSession_of_ne {d : Dev} {ses st : Nat} (hup : d.link.up = true) (hst : (d.sec.session.get ses).state ≠ st)
    (f : Dev → Dev) : d.inSession ses st f = d.spdmError := by
  rw [Dev.inSession, Dev.spdmRequest, hup, if_neg hst, ite_self]
  rfl

@[simp] theorem Dev.spdmAnswer_sec (d : Dev) (code : Nat) (report : List Nat) :
    (d.spdmAnswer code report).sec = { d.sec with answer := code, report := report } := rfl

@[simp] theorem Dev.spdmAnswer_evr (d : Dev) (code : Nat) (report : List Nat) : (d.spdmAnswer code report).evr = d.evr := rfl

theorem Dev.raised_spdmAnswer {d : Dev} {k e : Nat} (h : d.raised k e) (code : Nat) (report : List Nat) :
    (d.spdmAnswer code report).raised k e := h

@[simp] theorem Dev.updSession_sec (d : Dev) (ses : Nat) (f : Spdm → Spdm) :
    (d.updSession ses f).sec = { d.sec with session := d.sec.session.upd ses f } := rfl

/-- A raise after a change of a session is of the present frame. -/
theorem Dev.raised_raise_updSession (d : Dev) (ses e : Nat) (f : Spdm → Spdm) :
    ((d.updSession ses f).raise e).raised d.now e := Dev.raise_raised _ _

/-! ### The negotiation -/

theorem exec_getVersion {s : State} (hw : s.dev.bus.writes = []) (hup : s.dev.link.up = true) :
    ∃ t, exec .getVersion s = .next t ∧ t.dev.sec.agreed = 1 ∧ t.dev.sec.answer = 0x04 ∧ t.dev.regs = s.dev.regs := by
  refine ⟨_, State.row_of_empty hw _, ?_⟩
  dsimp only
  rw [Dev.getVersionEff, Dev.spdmRequest_of_agreed hup (Nat.zero_le _)]
  exact ⟨rfl, rfl, rfl⟩

theorem exec_getCapabilities {s : State} (hw : s.dev.bus.writes = []) (hup : s.dev.link.up = true) (hn : 1 ≤ s.dev.sec.agreed) :
    ∃ t, exec .getCapabilities s = .next t ∧ t.dev.sec.agreed = max 2 s.dev.sec.agreed ∧ t.dev.sec.answer = 0x61 := by
  refine ⟨_, State.row_of_empty hw _, ?_⟩
  dsimp only
  rw [Dev.getCapabilitiesEff, Dev.spdmRequest_of_agreed hup hn]
  exact ⟨rfl, rfl⟩

theorem exec_negotiateAlgorithms {s : State} (hw : s.dev.bus.writes = []) (hup : s.dev.link.up = true)
    (hn : 2 ≤ s.dev.sec.agreed) :
    ∃ t, exec .negotiateAlgorithms s = .next t ∧ t.dev.sec.agreed = max 3 s.dev.sec.agreed ∧ t.dev.sec.answer = 0x63 := by
  refine ⟨_, State.row_of_empty hw _, ?_⟩
  dsimp only
  rw [Dev.negotiateAlgorithmsEff, Dev.spdmRequest_of_agreed hup hn]
  exact ⟨rfl, rfl⟩

/-! ### Digests, certificates and measurements -/

section
variable {s : State} (hw : s.dev.bus.writes = []) (hup : s.dev.link.up = true) (hn : 3 ≤ s.dev.sec.agreed)
include hw hup hn

theorem exec_getDigests :
    ∃ t, exec .getDigests s = .next t ∧ t.dev.sec.answer = 0x01 ∧ t.dev.sec.agreed = s.dev.sec.agreed := by
  refine ⟨_, State.row_of_empty hw _, ?_⟩
  dsimp only
  rw [Dev.getDigestsEff, Dev.spdmRequest_of_agreed hup hn]
  exact ⟨rfl, rfl⟩

theorem exec_getCertificate {slot : Fin 8} (hslot : slot.val < 2) :
    ∃ t, exec (.getCertificate slot) s = .next t ∧ t.dev.sec.answer = 0x02 ∧ t.dev.sec.report = [slot.val] := by
  refine ⟨_, State.row_of_empty hw _, ?_⟩
  dsimp only
  rw [Dev.getCertificateEff, Dev.spdmRequest_of_agreed hup hn, if_pos hslot]
  exact ⟨rfl, rfl⟩

theorem exec_challenge {slot : Fin 8} (hslot : slot.val < 2) :
    ∃ t, exec (.challenge slot) s = .next t ∧ t.dev.sec.answer = 0x03 ∧ t.dev.sec.report = [slot.val] := by
  refine ⟨_, State.row_of_empty hw _, ?_⟩
  dsimp only
  rw [Dev.challengeEff, Dev.spdmRequest_of_agreed hup hn, if_pos hslot]
  exact ⟨rfl, rfl⟩

theorem exec_getMeasurements (i : Fin 4) :
    ∃ t, exec (.getMeasurements (BitVec.ofNat 8 (i + 1))) s = .next t ∧ t.dev.sec.answer = 0x60
      ∧ t.dev.sec.report = [s.dev.sec.meas.get (i + 1)] ∧ t.dev.sec.meas = s.dev.sec.meas := by
  have hindex : (BitVec.ofNat 8 (i + 1)).toNat = i + 1 := by simp; omega
  refine ⟨_, State.row_of_empty hw _, ?_⟩
  dsimp only
  rw [Dev.getMeasurementsEff, Dev.spdmRequest_of_agreed hup hn, hindex, if_neg (by omega), if_neg (by omega),
    if_pos (by omega)]
  exact ⟨rfl, rfl, rfl⟩

/-! ### Sessions -/

/-- KEY_EXCHANGE takes the lowest session that is free. -/
theorem exec_keyExchange_of_free {ses : Fin 2} (hfree : (s.dev.sec.session.get ses).state = 0)
    (hlow : ∀ o : Fin 2, o.val < ses.val → (s.dev.sec.session.get o).state ≠ 0) :
    ∃ t, exec .keyExchange s = .next t ∧ t.dev.sec.answer = 0x64 ∧ t.dev.sec.report = [ses.val]
      ∧ t.dev.sec.session.get ses = { state := 1 }
      ∧ (∀ o : Fin 2, o ≠ ses → t.dev.sec.session.get o = s.dev.sec.session.get o) := by
  have hfind : ((List.range 2).find? fun n => (s.dev.sec.session.get n).state == 0) = some ses.val := by
    rw [List.find?_range_eq_some]
    exact ⟨by simpa using hfree, List.mem_range.mpr ses.isLt, fun o ho => by simpa using hlow ⟨o, by omega⟩ ho⟩
  refine ⟨_, State.row_of_empty hw _, ?_⟩
  dsimp only
  rw [Dev.keyExchangeEff, Dev.spdmRequest_of_agreed hup hn, hfind]
  exact ⟨rfl, rfl, by simp, fun o ho => by simp [Tab.get_upd_ne _ (Fin.val_ne_of_ne ho)]⟩

theorem exec_keyExchange_of_full (hfull : ∀ o : Fin 2, (s.dev.sec.session.get o).state ≠ 0) :
    ∃ t, exec .keyExchange s = .next t ∧ t.dev.sec.answer = 0x7F ∧ t.dev.sec.session = s.dev.sec.session := by
  have hfind : ((List.range 2).find? fun n => (s.dev.sec.session.get n).state == 0) = none := by
    rw [List.find?_range_eq_none]
    exact fun o ho => by simpa using hfull ⟨o, ho⟩
  refine ⟨_, State.row_of_empty hw _, ?_⟩
  dsimp only
  rw [Dev.keyExchangeEff, Dev.spdmRequest_of_agreed hup hn, hfind]
  exact ⟨rfl, rfl⟩

theorem exec_finish {ses : Fin 2} (hst : (s.dev.sec.session.get ses).state = 1) :
    ∃ t, exec (.finish ses) s = .next t ∧ t.dev.sec.answer = 0x65
      ∧ (t.dev.sec.session.get ses).state = 2 ∧ t.dev.raised s.dev.now 629 := by
  refine ⟨_, State.row_of_empty hw _, ?_⟩
  dsimp only
  rw [Dev.finishEff, Dev.inSession_of_state hup hn hst]
  exact ⟨rfl, by simp, Dev.raised_spdmAnswer (Dev.raised_raise_updSession _ _ _ _) _ _⟩

theorem exec_keyUpdate {ses : Fin 2} (hst : (s.dev.sec.session.get ses).state = 2) :
    ∃ t, exec (.keyUpdate ses) s = .next t ∧ t.dev.sec.answer = 0x69
      ∧ t.dev.sec.session.get ses = { state := 2, updates := (s.dev.sec.session.get ses).updates + 1 } := by
  refine ⟨_, State.row_of_empty hw _, ?_⟩
  dsimp only
  rw [Dev.keyUpdateEff, Dev.inSession_of_state hup hn hst]
  exact ⟨rfl, by simp [hst]⟩

theorem exec_heartbeat {ses : Fin 2} (hst : (s.dev.sec.session.get ses).state = 2) :
    ∃ t, exec (.heartbeat ses) s = .next t ∧ t.dev.sec.answer = 0x68 ∧ t.dev.sec.session = s.dev.sec.session := by
  refine ⟨_, State.row_of_empty hw _, ?_⟩
  dsimp only
  rw [Dev.heartbeatEff, Dev.inSession_of_state hup hn hst]
  exact ⟨rfl, rfl⟩

theorem exec_endSession {ses : Fin 2} (hst : (s.dev.sec.session.get ses).state = 2) :
    ∃ t, exec (.endSession ses) s = .next t ∧ t.dev.sec.answer = 0x6C
      ∧ (t.dev.sec.session.get ses).state = 0 ∧ t.dev.raised s.dev.now 629 := by
  refine ⟨_, State.row_of_empty hw _, ?_⟩
  dsimp only
  rw [Dev.endSessionEff, Dev.inSession_of_state hup hn hst]
  exact ⟨rfl, by simp, Dev.raised_spdmAnswer (Dev.raised_raise_updSession _ _ _ _) _ _⟩

/-! ### IDE_KM -/

/-- IDE_KM delivers the key of a stream. -/
theorem exec_vendorDefinedRequest_key {ses : Fin 2} (hst : (s.dev.sec.session.get ses).state = 2) (stream : Fin 2)
    (k : BitVec 256) :
    ∃ t, exec (.vendorDefinedRequest ses stream (some k)) s = .next t
      ∧ t.dev.sec.answer = 0x7E ∧ t.dev.sec.ide.get stream = { state := 1, key := k } := by
  refine ⟨_, State.row_of_empty hw _, ?_⟩
  dsimp only
  rw [Dev.vendorDefinedRequestEff, Dev.inSession_of_state hup hn hst]
  exact ⟨rfl, by simp⟩

/-- IDE_KM makes a stream secure whose key has been delivered. -/
theorem exec_vendorDefinedRequest_go {ses : Fin 2} (hst : (s.dev.sec.session.get ses).state = 2) {stream : Fin 2}
    (hkey : (s.dev.sec.ide.get stream).state = 1) :
    ∃ t, exec (.vendorDefinedRequest ses stream none) s = .next t
      ∧ t.dev.sec.answer = 0x7E ∧ t.dev.sec.ide.get stream = { s.dev.sec.ide.get stream with state := 2 } := by
  refine ⟨_, State.row_of_empty hw _, ?_⟩
  dsimp only
  rw [Dev.vendorDefinedRequestEff, Dev.inSession_of_state hup hn hst]
  refine ⟨rfl, ?_⟩
  simp [hkey]

end

/-! ### What is refused, and a failed integrity check -/

theorem exec_heartbeat_of_refused {s : State} (hw : s.dev.bus.writes = []) {ses : Fin 2} (hup : s.dev.link.up = true)
    (hst : (s.dev.sec.session.get ses).state ≠ 2) :
    ∃ t, exec (.heartbeat ses) s = .next t ∧ t.dev.sec.answer = 0x7F := by
  refine ⟨_, State.row_of_empty hw _, ?_⟩
  dsimp only
  rw [Dev.heartbeatEff, Dev.inSession_of_ne hup hst]
  rfl

theorem exec_endSession_of_refused {s : State} (hw : s.dev.bus.writes = []) {ses : Fin 2} (hup : s.dev.link.up = true)
    (hst : (s.dev.sec.session.get ses).state ≠ 2) :
    ∃ t, exec (.endSession ses) s = .next t ∧ t.dev.sec.answer = 0x7F ∧ t.dev.evr = s.dev.evr := by
  refine ⟨_, State.row_of_empty hw _, ?_⟩
  dsimp only
  rw [Dev.endSessionEff, Dev.inSession_of_ne hup hst]
  exact ⟨rfl, rfl⟩

theorem exec_ideError {s : State} (hw : s.dev.bus.writes = []) {stream : Fin 2}
    (hst : (s.dev.sec.ide.get stream).state = 2) :
    ∃ t, exec (.ideError stream) s = .next t ∧ (t.dev.sec.ide.get stream).state = 3
      ∧ t.dev.get SEC_CNT_IDE.COUNT = min (2 ^ SEC_CNT_IDE.COUNT.w - 1) (s.dev.get SEC_CNT_IDE.COUNT + 1)
      ∧ t.dev.raised s.dev.now 630 := by
  refine ⟨_, State.row_of_empty hw _, ?_⟩
  dsimp only
  rw [Dev.ideErrorEff, if_pos hst]
  refine ⟨by simp, ?_, ?_⟩
  · rw [Dev.raise_get, Dev.get_count_eq _ _ _ _ _ (by decide) (by decide), Dev.setSec_get]
  · simpa using Dev.raise_raised ((s.dev.setSec _).count SEC_CNT_IDE.COUNT) 630

/-- Settles O55: each request by what its answer leaves of the responder. -/
theorem spdmCommandsAct : Obligations.SpdmCommandsAct := fun _ _ stream hw =>
  ⟨exec_getVersion hw, exec_getCapabilities hw, exec_negotiateAlgorithms hw,
    fun _ hup hn hslot => ⟨exec_getDigests hw hup hn, exec_getCertificate hw hup hn hslot, exec_challenge hw hup hn hslot⟩,
    fun i hup hn => exec_getMeasurements hw hup hn i, fun hup hn => exec_keyExchange_of_free hw hup hn,
    fun hup hn => exec_keyExchange_of_full hw hup hn, fun hup hn => exec_finish hw hup hn,
    fun hup hn hst => ⟨exec_keyUpdate hw hup hn hst, exec_heartbeat hw hup hn hst, exec_endSession hw hup hn hst,
      exec_vendorDefinedRequest_key hw hup hn hst stream, exec_vendorDefinedRequest_go hw hup hn hst⟩,
    fun hup hst => ⟨exec_heartbeat_of_refused hw hup hst, exec_endSession_of_refused hw hup hst⟩, exec_ideError hw⟩

end Sys2Proof.Machine

/-! ## Power domains that are switched (19_power_reset_and_live_update.md R426) -/

namespace Sys2Proof.Machine

-- One proof at a time: the text is compiled within a fixed memory.
set_option Elab.async false

/-- Bit `b` of a number to which it is added, or from which it is taken away. -/
theorem testBit_add_or_sub_two_pow {v b : Nat} {on : Bool} (h : v.testBit b ≠ on) :
    (if on then v + 2 ^ b else v - 2 ^ b).testBit b = on := by
  cases on with
  | true =>
    rw [if_pos rfl, Nat.add_comm, Nat.testBit_two_pow_add_eq, Bool.not_eq_true'] 
    simpa using h
  | false =>
    have hset : v.testBit b = true := by simpa using h
    have hsum : 2 ^ b + (v - 2 ^ b) = v := Nat.add_sub_cancel' (Nat.ge_two_pow_of_testBit hset)
    have hflip := Nat.testBit_two_pow_add_eq (v - 2 ^ b) b
    rw [hsum, hset] at hflip
    simpa using hflip.symm

theorem Dev.pdOn_eq_testBit (d : Dev) (n : Nat) : d.pdOn n = (d.get HK_PD_STAT.ON (n / 32)).testBit (n % 32) := by
  rw [Dev.pdOn, Nat.testBit_eq_decide_div_mod_eq]
  exact beq_eq_decide _ _

/-- A domain that is switched is on, or off. -/
theorem Dev.pdOn_pdPut (d : Dev) (n : Nat) (on : Bool) : (d.pdPut n on).pdOn n = on := by
  rw [Dev.pdPut]
  split
  · assumption
  · next h =>
    rw [Dev.pdOn_congr (Dev.decision_frame _ _ _ _) (by decide), Dev.pdOn_eq_testBit,
      Dev.get_put_eq _ _ _ _ _ _ (by decide), Nat.testBit_mod_two_pow]
    rw [Dev.pdOn_eq_testBit] at h
    rw [testBit_add_or_sub_two_pow h, decide_eq_true (show n % 32 < HK_PD_STAT.ON.w from Nat.mod_lt _ (by decide)),
      Bool.true_and]

end Sys2Proof.Machine

/-! ## Test sessions and loop-backs (22_test_and_loopbacks.md R466, R467, R469, R470) -/

namespace Sys2Proof.Machine

-- One proof at a time: the text is compiled within a fixed memory.
set_option Elab.async false

theorem Dev.frame_now {ps : List Part} {l : List Rg} {d d' : Dev} (h : Dev.frame ps l d d') (hp : Part.clock ∉ ps) :
    d'.now = d.now := h.1 .clock hp

/-! ### The checks at a start -/

/-- The session's control word has been written, and EN stays clear. -/
def Dev.testWritten (d : Dev) (n : Nat) (v : W64) : Dev := (d.wr ⟨.TST_CTL, n, 0, 0⟩ v).putb TST_CTL.EN false n

/-- A field of the control word beside EN is the one written. -/
theorem Dev.get_testWritten (d : Dev) (n : Nat) (v : W64) {f : Fld} (hg : f.g = .TST_CTL)
    (hf : (f.whole && decide (f.lo + f.w ≤ 31)) = true) :
    (d.testWritten n v).get f n = v.toNat / 2 ^ f.lo % 2 ^ f.w := by
  rw [Bool.and_eq_true, decide_eq_true_eq] at hf
  obtain ⟨hwhole, hbits⟩ := hf
  rw [Dev.testWritten, Dev.putb, Dev.get_put_apart _ _ _ _ _ _ _ _ (Fld.held_whole hwhole _ _ _) (Or.inl hbits), ← hg,
    Dev.get_wr_eq _ _ _ _ _ _ hwhole]

theorem Dev.testWritten_en (d : Dev) (n : Nat) (v : W64) : (d.testWritten n v).flag TST_CTL.EN n = false :=
  Dev.flag_putb_whole _ _ _ _ _ _ (by decide)

/-- The control words of the other sessions stand. -/
theorem Dev.rd_testWritten (d : Dev) (n : Nat) (v : W64) {r : Reg} (h : r ≠ ⟨.TST_CTL, n, 0, 0⟩) :
    (d.testWritten n v).rd r = d.rd r := by
  rw [Dev.testWritten, Dev.putb, Dev.rd_put_ne _ _ _ _ _ _ h, Dev.rd_wr_ne _ h]

/-- RESULT 1, or one of the four faults of R467. -/
theorem Dev.testResult_range (d : Dev) (n : Nat) : d.testResult n = 1 ∨ 3 ≤ d.testResult n ∧ d.testResult n ≤ 6 := by
  rw [Dev.testResult]
  split_ifs <;> simp

/-- A start that a check refuses shows it. -/
theorem Dev.testStartEff_of_fault {d : Dev} {n : Nat} {v : W64} (hen : d.flag TST_CTL.EN n = false)
    (hr : (d.testWritten n v).testResult n ≠ 1) :
    d.testStartEff n v = (d.testWritten n v).put TST_STAT.RESULT ((d.testWritten n v).testResult n) n := by
  rw [Dev.testStartEff, hen, if_neg Bool.false_ne_true]
  exact if_pos hr

/-- The session runs with its counters at 0. -/
def Dev.testBegun (d : Dev) (n : Nat) : Dev :=
  (((((d.put TST_STAT.RESULT 1 n).putb TST_CTL.EN true n).putb TST_STAT.LOCK false n).put TST_LOSS.COUNT 0 n).put
    TST_BITS.COUNT 0 n).put TST_ERRS.COUNT 0 n

theorem Dev.get_testBegun (d : Dev) (n : Nat) {f : Fld} (hg : f.g = .TST_CTL)
    (hf : (f.whole && decide (f.lo + f.w ≤ 31)) = true) : (d.testBegun n).get f n = d.get f n := by
  rw [Bool.and_eq_true, decide_eq_true_eq] at hf
  obtain ⟨hwhole, hbits⟩ := hf
  have hother : ∀ f' : Fld, f'.g ≠ .TST_CTL → f.g ≠ f'.g := fun f' h => by rwa [hg, ne_comm]
  rw [Dev.testBegun, Dev.putb, Dev.putb, Dev.get_put_family _ _ _ _ _ _ _ _ (hother _ (by decide)),
    Dev.get_put_family _ _ _ _ _ _ _ _ (hother _ (by decide)), Dev.get_put_family _ _ _ _ _ _ _ _ (hother _ (by decide)),
    Dev.get_put_family _ _ _ _ _ _ _ _ (hother _ (by decide)),
    Dev.get_put_apart _ _ _ _ _ _ _ _ (Fld.held_whole hwhole _ _ _) (Or.inl hbits),
    Dev.get_put_family _ _ _ _ _ _ _ _ (hother _ (by decide))]

theorem Dev.testBegun_shows (d : Dev) (n : Nat) :
    (d.testBegun n).flag TST_CTL.EN n = true ∧ (d.testBegun n).get TST_STAT.RESULT n = 1
      ∧ (d.testBegun n).get TST_BITS.COUNT n = 0 ∧ (d.testBegun n).get TST_ERRS.COUNT n = 0
      ∧ (d.testBegun n).get TST_LOSS.COUNT n = 0 ∧ (d.testBegun n).flag TST_STAT.LOCK n = false := by
  simp (disch := decide) only [Dev.testBegun, Dev.flag, Dev.putb, Dev.get_put_other, Dev.get_put_eq]
  decide

/-- The domain of a session's unit is switched on. -/
def Dev.testPowered (d : Dev) (p : Nat) : Dev := ((d.pdPut p true).readyShow).outsShow d

theorem Dev.testPowered_frame (d : Dev) (p : Nat) :
    Dev.frame [.events, .eventInputs, .raster] [.HK_PD_STAT, .HK_DEC_IDX, .HK_DEC, .BEN_STAT, .ETH_STAT] d
      (d.testPowered p) :=
  Dev.frame_trans (Dev.frame_trans (Dev.frame_mono (Dev.pdPut_frame _ _ _) (by decide) (by decide))
    (Dev.frame_mono (Dev.readyShow_frame _) (by decide) (by decide)))
    (Dev.frame_mono (Dev.outsShow_frame _ _) (by decide) (by decide))

theorem Dev.testPowered_on (d : Dev) (p : Nat) : (d.testPowered p).pdOn p = true := by
  rw [Dev.testPowered, Dev.pdOn_congr (Dev.outsShow_frame _ _) (by decide),
    Dev.pdOn_congr (Dev.readyShow_frame _) (by decide), Dev.pdOn_pdPut]

/-- A start on a slice (IF 0) that passes the checks. -/
theorem Dev.testStartEff_of_slice {d : Dev} {n : Nat} {v : W64} (hen : d.flag TST_CTL.EN n = false)
    (hif : (d.testWritten n v).get TST_CTL.IF n = 0) (hr : (d.testWritten n v).testResult n = 1) :
    d.testStartEff n v
      = ((d.testWritten n v).testBegun n).testPowered (10 * ((d.testWritten n v).testBegun n).get TST_CTL.UNIT n + 8) := by
  have hif' : ((d.testWritten n v).put TST_STAT.RESULT 1 n).get TST_CTL.IF n = 0 := by
    rw [Dev.get_put_family _ _ _ _ _ _ _ _ (by decide), hif]
  have hwritten : (d.wr ⟨.TST_CTL, n, 0, 0⟩ v).putb TST_CTL.EN false n = d.testWritten n v := rfl
  simp only [Dev.testStartEff, hen, hwritten, hr, hif']
  rfl

/-- A session on a disabled slice passes the checks when no other session runs. -/
theorem Dev.testResult_of_slice {d : Dev} {n : Nat} (hif : d.get TST_CTL.IF n = 0) (hunit : d.get TST_CTL.UNIT n < 4)
    (hdepth : d.get TST_CTL.DEPTH n < 2) (hpat : d.get TST_CTL.PAT n < 6)
    (hslice : d.flag CV_SCTL.EN (d.get TST_CTL.UNIT n) = false)
    (hother : ∀ o : Fin 8, o.val ≠ n → d.flag TST_CTL.EN o = false) : d.testResult n = 1 := by
  have hheld : ((List.range 8).any fun t => t != n && d.flag TST_CTL.EN t && d.get TST_CTL.IF t == 0
      && d.get TST_CTL.UNIT t == d.get TST_CTL.UNIT n) = false := by
    rw [List.any_eq_false]
    intro t ht
    by_cases h : t = n
    · simp [h]
    · simp [hother ⟨t, List.mem_range.mp ht⟩ h]
  have hfree : d.testUnitFree 0 (d.get TST_CTL.UNIT n) (d.get TST_CTL.DEPTH n) = true := by simp [Dev.testUnitFree, hslice]
  rw [Dev.testResult, hif, if_neg (by simp only [testUnits, testDepths]; omega), hheld, hfree]
  rfl

/-! ### Start and end -/

theorem exec_testSessionStart_of_slice {s : State} {ses : Fin 8} (hw : s.dev.bus.writes = []) (v : BitVec 32)
    (hen : s.dev.flag TST_CTL.EN ses = false) (hunit : v.toNat / 2 ^ 8 % 16 < 4) (hdepth : v.toNat / 2 ^ 16 % 4 < 2)
    (hpat : v.toNat / 2 ^ 20 % 8 < 6) (hif : v.toNat % 8 = 0) (hslice : s.dev.flag CV_SCTL.EN (v.toNat / 2 ^ 8 % 16) = false)
    (hother : ∀ o : Fin 8, o ≠ ses → s.dev.flag TST_CTL.EN o = false) :
    ∃ t, exec (.testSessionStart ses v) s = .next t ∧ t.dev.now = s.dev.now + 1 ∧ t.dev.flag TST_CTL.EN ses = true
      ∧ t.dev.get TST_STAT.RESULT ses = 1 ∧ t.dev.get TST_CTL.IF ses = 0
      ∧ t.dev.get TST_CTL.UNIT ses = v.toNat / 2 ^ 8 % 16 ∧ t.dev.get TST_CTL.DEPTH ses = v.toNat / 2 ^ 16 % 4
      ∧ t.dev.get TST_BITS.COUNT ses = 0 ∧ t.dev.get TST_ERRS.COUNT ses = 0
      ∧ t.dev.get TST_LOSS.COUNT ses = 0 ∧ t.dev.flag TST_STAT.LOCK ses = false
      ∧ t.dev.pdOn (10 * (v.toNat / 2 ^ 8 % 16) + 8) = true := by
  have hv : (v.setWidth 64).toNat = v.toNat := by simp; omega
  have hfield : ∀ f : Fld, f.g = .TST_CTL → (f.whole && decide (f.lo + f.w ≤ 31)) = true →
      (s.dev.testWritten ses (v.setWidth 64)).get f ses = v.toNat / 2 ^ f.lo % 2 ^ f.w := fun f hg hf => by
    rw [Dev.get_testWritten _ _ _ hg hf, hv]
  have hIF : (s.dev.testWritten ses (v.setWidth 64)).get TST_CTL.IF ses = 0 := by
    rw [hfield _ rfl (by decide)]
    simpa [TST_CTL.IF] using hif
  have hUNIT : (s.dev.testWritten ses (v.setWidth 64)).get TST_CTL.UNIT ses = v.toNat / 2 ^ 8 % 16 :=
    hfield _ rfl (by decide)
  have hDEPTH : (s.dev.testWritten ses (v.setWidth 64)).get TST_CTL.DEPTH ses = v.toNat / 2 ^ 16 % 4 :=
    hfield _ rfl (by decide)
  have hPAT : (s.dev.testWritten ses (v.setWidth 64)).get TST_CTL.PAT ses = v.toNat / 2 ^ 20 % 8 :=
    hfield _ rfl (by decide)
  have hresult : (s.dev.testWritten ses (v.setWidth 64)).testResult ses = 1 := by
    refine Dev.testResult_of_slice hIF (by rwa [hUNIT]) (by rwa [hDEPTH]) (by rwa [hPAT]) ?_ fun o ho => ?_
    · rw [hUNIT, ← hslice]
      simp only [Dev.flag, Dev.get]
      rw [Dev.rd_testWritten _ _ _ (by simp [CV_SCTL.EN])]
    · rw [← hother o fun h => ho (congrArg Fin.val h)]
      simp only [Dev.flag, Dev.get]
      rw [Dev.rd_testWritten _ _ _ fun h => ho (congrArg Reg.i h)]
  obtain ⟨hEN, hRESULT, hBITS, hERRS, hLOSS, hLOCK⟩ :=
    Dev.testBegun_shows (s.dev.testWritten ses (v.setWidth 64)) ses
  have hframe := Dev.testPowered_frame ((s.dev.testWritten ses (v.setWidth 64)).testBegun ses)
    (10 * (v.toNat / 2 ^ 8 % 16) + 8)
  have hbus : ((((s.dev.testWritten ses (v.setWidth 64)).testBegun ses).testPowered
      (10 * (v.toNat / 2 ^ 8 % 16) + 8)).bus.writes) = [] := by
    rw [hframe.1 .bus (by decide)]
    exact hw
  refine ⟨_, State.rowLast_of_empty hw _, ?_⟩
  dsimp only
  rw [Dev.testStartEff_of_slice hen hIF hresult, Dev.get_testBegun _ _ rfl (by decide), hUNIT, Dev.idle_of_empty hbus]
  refine ⟨?_, ?_, ?_, ?_, ?_, ?_, ?_, ?_, ?_, ?_, ?_⟩
  · rw [Dev.advanceTo_now, Dev.frame_now hframe (by decide)]
    exact Nat.max_eq_right (Nat.le_succ _)
  · rw [Dev.advanceTo_flag, Dev.frame_flag hframe _ _ _ _ (by decide), hEN]
  · rw [Dev.advanceTo_get, Dev.frame_get hframe _ _ _ _ (by decide), hRESULT]
  · rw [Dev.advanceTo_get, Dev.frame_get hframe _ _ _ _ (by decide), Dev.get_testBegun _ _ rfl (by decide), hIF]
  · rw [Dev.advanceTo_get, Dev.frame_get hframe _ _ _ _ (by decide), Dev.get_testBegun _ _ rfl (by decide), hUNIT]
  · rw [Dev.advanceTo_get, Dev.frame_get hframe _ _ _ _ (by decide), Dev.get_testBegun _ _ rfl (by decide), hDEPTH]
  · rw [Dev.advanceTo_get, Dev.frame_get hframe _ _ _ _ (by decide), hBITS]
  · rw [Dev.advanceTo_get, Dev.frame_get hframe _ _ _ _ (by decide), hERRS]
  · rw [Dev.advanceTo_get, Dev.frame_get hframe _ _ _ _ (by decide), hLOSS]
  · rw [Dev.advanceTo_flag, Dev.frame_flag hframe _ _ _ _ (by decide), hLOCK]
  · rw [Dev.pdOn, Dev.advanceTo_get]
    exact Dev.testPowered_on _ _

theorem exec_testSessionStart_of_fault {s : State} {ses : Fin 8} (hw : s.dev.bus.writes = []) (v : BitVec 32) (r : Nat)
    (hen : s.dev.flag TST_CTL.EN ses = false) (hr : (s.dev.testWritten ses (v.setWidth 64)).testResult ses = r)
    (hfault : r ≠ 1) :
    ∃ t, exec (.testSessionStart ses v) s = .next t ∧ t.dev.flag TST_CTL.EN ses = false
      ∧ t.dev.get TST_STAT.RESULT ses = r ∧ 3 ≤ r ∧ r ≤ 6 ∧ s.dev.keepsRegs t.dev [.TST_CTL, .TST_STAT] := by
  obtain ⟨hlow, hhigh⟩ : 3 ≤ r ∧ r ≤ 6 := by
    rcases Dev.testResult_range (s.dev.testWritten ses (v.setWidth 64)) ses with h | h
    · exact absurd (hr ▸ h) hfault
    · rwa [hr] at h
  refine ⟨_, State.rowLast_of_empty hw _, ?_⟩
  dsimp only
  rw [Dev.testStartEff_of_fault hen (by rwa [hr]), hr, Dev.idle_of_empty (by exact hw), Dev.advanceTo_flag,
    Dev.flag_put_other _ _ _ _ _ _ _ _ _ _ (by decide) (by decide), Dev.testWritten_en, Dev.advanceTo_get,
    Dev.get_put_lt _ _ _ _ (by decide) (Nat.lt_of_le_of_lt hhigh (by decide))]
  refine ⟨rfl, rfl, hlow, hhigh, fun x hx => ?_⟩
  rw [Dev.advanceTo_rd, Dev.rd_put_family _ _ _ _ _ _ (ne_of_notMem hx (by decide)),
    Dev.rd_testWritten _ _ _ fun e => hx (by simp [e])]

/-- What a checker has counted joins the counts of its session while it is locked. -/
theorem Dev.testCount_shows (d : Dev) (n bits errs : Nat) :
    (d.testCount n bits errs).get TST_BITS.COUNT n
        = (if d.flag TST_STAT.LOCK n = true then (d.get TST_BITS.COUNT n + bits) % 2 ^ 64 else d.get TST_BITS.COUNT n)
      ∧ (d.testCount n bits errs).get TST_ERRS.COUNT n
        = (if d.flag TST_STAT.LOCK n = true then (d.get TST_ERRS.COUNT n + errs) % 2 ^ 64 else d.get TST_ERRS.COUNT n) := by
  rw [Dev.testCount]
  split
  · simp (disch := decide) only [Dev.get_put_other, Dev.get_put_eq]
    exact ⟨rfl, rfl⟩
  · exact ⟨rfl, rfl⟩

theorem exec_testSessionEnd {s : State} {ses : Fin 8} (hw : s.dev.bus.writes = []) (bits errs : BitVec 64)
    (hen : s.dev.flag TST_CTL.EN ses = true) :
    ∃ t, exec (.testSessionEnd ses bits errs) s = .next t ∧ t.dev.flag TST_CTL.EN ses = false
      ∧ t.dev.get TST_STAT.RESULT ses = 2 ∧ t.dev.flag TST_STAT.LOCK ses = false
      ∧ t.dev.get TST_BITS.COUNT ses = (if s.dev.flag TST_STAT.LOCK ses = true
          then (s.dev.get TST_BITS.COUNT ses + bits.toNat) % 2 ^ 64 else s.dev.get TST_BITS.COUNT ses)
      ∧ t.dev.get TST_ERRS.COUNT ses = (if s.dev.flag TST_STAT.LOCK ses = true
          then (s.dev.get TST_ERRS.COUNT ses + errs.toNat) % 2 ^ 64 else s.dev.get TST_ERRS.COUNT ses)
      ∧ t.dev.evr = s.dev.evr := by
  obtain ⟨hbits, herrs⟩ := s.dev.testCount_shows ses bits.toNat errs.toNat
  refine ⟨_, State.row_of_empty hw _, ?_⟩
  dsimp only
  refine ⟨?_, ?_, ?_, ?_, ?_, (Dev.testStopEff_frame _ _ _ _).1 .events (by decide)⟩
  all_goals rw [Dev.testStopEff, hen, Bool.not_true, if_neg Bool.false_ne_true]
  · rw [Dev.putb, Dev.flag_put_other _ _ _ _ _ _ _ _ _ _ (by decide) (by decide),
      Dev.flag_put_other _ _ _ _ _ _ _ _ _ _ (by decide) (by decide), Dev.flag_putb_whole _ _ _ _ _ _ (by decide)]
  · rw [Dev.putb, Dev.get_put_other _ _ _ _ _ _ _ _ _ _ (by decide) (by decide),
      Dev.get_put_lt _ _ _ _ (by decide) (by decide)]
  · exact Dev.flag_putb_whole _ _ _ _ _ _ (by decide)
  · simp (disch := decide) only [Dev.putb, Dev.get_put_other, hbits]
  · simp (disch := decide) only [Dev.putb, Dev.get_put_other, herrs]

/-! ### The checker -/

theorem Dev.testChecks_of {d : Dev} {n : Nat} (hen : d.flag TST_CTL.EN n = true) (hif : d.get TST_CTL.IF n < 5)
    (hdepth : ¬ (d.get TST_CTL.IF n = 3 ∧ d.get TST_CTL.DEPTH n = 2)) : d.testChecks n = true := by
  have hremote : (d.get TST_CTL.IF n != 5) = true := by simp; omega
  have hcrc : (! (d.get TST_CTL.IF n == 3 && d.get TST_CTL.DEPTH n == 2)) = true := by
    simpa [← not_and_or] using hdepth
  rw [Dev.testChecks, hen, hremote, hcrc]
  rfl

section
variable {s : State} {ses : Fin 8} (hw : s.dev.bus.writes = []) (hen : s.dev.flag TST_CTL.EN ses = true)
  (hif : s.dev.get TST_CTL.IF ses < 5) (hdepth : ¬ (s.dev.get TST_CTL.IF ses = 3 ∧ s.dev.get TST_CTL.DEPTH ses = 2))
include hw hen hif hdepth

theorem exec_checkerLock :
    ∃ t, exec (.checkerLock ses) s = .next t ∧ t.dev.flag TST_STAT.LOCK ses = true
      ∧ t.dev.get TST_STAT.RESULT ses = s.dev.get TST_STAT.RESULT ses
      ∧ s.dev.keepsRegs t.dev [.TST_STAT] ∧ t.dev.evr = s.dev.evr := by
  refine ⟨_, State.row_of_empty hw _, ?_⟩
  dsimp only
  rw [Dev.checkerLockEff, if_pos (Dev.testChecks_of hen hif hdepth), Dev.flag_putb_whole _ _ _ _ _ _ (by decide), Dev.putb,
    Dev.get_put_other _ _ _ _ _ _ _ _ _ _ (by decide) (by decide)]
  exact ⟨rfl, rfl, fun r hr => Dev.rd_put_family _ _ _ _ _ _ (ne_of_notMem hr (by decide)), rfl⟩

theorem exec_checkerLockLoss (bits errs : BitVec 64) (hlock : s.dev.flag TST_STAT.LOCK ses = true) :
    ∃ t, exec (.checkerLockLoss ses bits errs) s = .next t ∧ t.dev.flag TST_STAT.LOCK ses = false
      ∧ t.dev.flag TST_CTL.EN ses = true
      ∧ t.dev.get TST_LOSS.COUNT ses = (s.dev.get TST_LOSS.COUNT ses + 1) % 2 ^ 32
      ∧ t.dev.get TST_BITS.COUNT ses = (s.dev.get TST_BITS.COUNT ses + bits.toNat) % 2 ^ 64
      ∧ t.dev.get TST_ERRS.COUNT ses = (s.dev.get TST_ERRS.COUNT ses + errs.toNat) % 2 ^ 64 := by
  obtain ⟨hbits, herrs⟩ := s.dev.testCount_shows ses bits.toNat errs.toNat
  rw [if_pos hlock] at hbits herrs
  have hkept := s.dev.testCount_frame ses bits.toNat errs.toNat
  refine ⟨_, State.row_of_empty hw _, ?_⟩
  dsimp only
  rw [Dev.checkerLockLossEff, Dev.testChecks_of hen hif hdepth, hlock, Bool.and_self, if_pos rfl, Dev.bump]
  refine ⟨Dev.flag_putb_whole _ _ _ _ _ _ (by decide), ?_, ?_, ?_, ?_⟩
  · rw [Dev.putb, Dev.flag_put_other _ _ _ _ _ _ _ _ _ _ (by decide) (by decide),
      Dev.flag_put_other _ _ _ _ _ _ _ _ _ _ (by decide) (by decide), Dev.frame_flag hkept _ _ _ _ (by decide), hen]
  · rw [Dev.putb, Dev.get_put_other _ _ _ _ _ _ _ _ _ _ (by decide) (by decide), Dev.get_put_eq _ _ _ _ _ _ (by decide),
      Dev.frame_get hkept _ _ _ _ (by decide)]
    rfl
  · rw [Dev.putb, Dev.get_put_other _ _ _ _ _ _ _ _ _ _ (by decide) (by decide),
      Dev.get_put_other _ _ _ _ _ _ _ _ _ _ (by decide) (by decide), hbits]
  · rw [Dev.putb, Dev.get_put_other _ _ _ _ _ _ _ _ _ _ (by decide) (by decide),
      Dev.get_put_other _ _ _ _ _ _ _ _ _ _ (by decide) (by decide), herrs]

end

/-! ### Loopback -/

section
set_option exponentiation.threshold 500

/-- What the halt of a transfer's descriptor can change. -/
theorem Dev.xferFail_frame (d : Dev) (c status : Nat) (read : Bool) :
    Dev.frame [.tally, .bench, .queues, .events, .transfer, .benchMemory, .tallyMemory, .hostMemory]
      [.XFE_STAT, .XFE_NEXT, .XFE_G_BUSY, .XFE_G_HALTED] d (d.xferFail c status read) := by
  refine Dev.frame_of_ind (c := 0x981d1000) (g := famMask [.XFE_STAT, .XFE_NEXT, .XFE_G_BUSY, .XFE_G_HALTED])
    (fun hP h => ?_) (by decide) (by decide)
  unfold Dev.xferFail
  dsimp only
  repeat' with_reducible first
    | assumption
    | refine ite_ind ?_ ?_
    | refine Dev.xferComplete_ind (hP.mono (by decide) (by decide)) ?_
    | refine Dev.ringStatus_ind (hP.mono (by decide) (by decide)) ?_
    | refine hP.wrAt (by decide) ?_
    | refine Dev.raise_ind (hP.mono (by decide) (by decide)) ?_
    | refine Dev.xferState_ind (hP.mono (by decide) (by decide)) ?_
    | refine Dev.updXfer_ind (hP.mono (by decide) (by decide)) ?_

end

theorem Dev.xferLinkDown_frame (d : Dev) (c : Nat) :
    Dev.frame [.tally, .bench, .queues, .events, .transfer, .benchMemory, .tallyMemory, .hostMemory]
      [.XFE_STAT, .XFE_NEXT, .XFE_G_BUSY, .XFE_G_HALTED] d (d.xferLinkDown c) := by
  rw [Dev.xferLinkDown]
  split
  · exact Dev.xferFail_frame _ _ _ _
  · exact Dev.frame_refl _ _ _

theorem Dev.linkDownEff_of_up {d : Dev} (hup : d.link.up = true) :
    d.linkDownEff.link.up = false ∧ d.linkDownEff.raised d.now 513 := by
  have hcmds := Dev.frame_foldl (f := fun d (x : Nat × QueueState) => d.cmdsAbort x.1) (fun d x => Dev.cmdsAbort_frame d x.1)
    (d.setLink {}).que.q (d.setLink {})
  have hxfer := Dev.frame_foldl (f := fun d c => Dev.xferLinkDown d c) (fun d c => Dev.xferLinkDown_frame d c) (List.range 64)
    ((d.setLink {}).que.q.foldl (fun d x => d.cmdsAbort x.1) (d.setLink {}))
  have hnow := (Dev.frame_now hxfer (by decide)).trans (Dev.frame_now hcmds (by decide))
  rw [Dev.linkDownEff, hup, Bool.not_true, if_neg Bool.false_ne_true]
  dsimp only
  refine ⟨?_, ?_⟩
  · rw [Dev.raise_link, hxfer.1 .link (by decide), hcmds.1 .link (by decide)]
    rfl
  · rw [Dev.setLink_now] at hnow
    rw [← hnow]
    exact Dev.raise_raised _ _

theorem exec_pcieLoopback {s : State} (hw : s.dev.bus.writes = []) (hpow : s.dev.linkPowered = true)
    (hup : s.dev.link.up = true) :
    ∃ t, exec .pcieLoopback s = .next t ∧ t.dev.link.up = false ∧ t.dev.sec.loopback = true
      ∧ t.dev.raised s.dev.now 513 := by
  obtain ⟨hdown, hevent⟩ := Dev.linkDownEff_of_up hup
  refine ⟨_, State.row_of_empty hw _, ?_⟩
  dsimp only
  rw [Dev.pcieLoopbackEff, hpow, Bool.not_true, if_neg Bool.false_ne_true]
  exact ⟨hdown, rfl, hevent⟩

/-- Settles O53: each command by what its effect leaves of the session, or of the link. -/
theorem testSessionCommandsAct : Obligations.TestSessionCommandsAct := fun _ _ hw =>
  ⟨exec_testSessionStart_of_slice hw, exec_testSessionStart_of_fault hw, exec_testSessionEnd hw, exec_pcieLoopback hw,
    exec_checkerLock hw, fun bits errs hen hif hdepth hlock => exec_checkerLockLoss hw hen hif hdepth bits errs hlock⟩

end Sys2Proof.Machine

/-! ## What switching a domain leaves, and what a domain's need rests on
(19_power_reset_and_live_update.md R426, R427; 01_engine_at_a_glance.md R39) -/

namespace Sys2Proof.Machine

-- One proof at a time: the text is compiled within a fixed memory.
set_option Elab.async false

/-- Adding a power of two whose bit is clear leaves the other bits. -/
theorem testBit_two_pow_add_other {v b c : Nat} (hclear : v.testBit b = false) (hc : c ≠ b) :
    (2 ^ b + v).testBit c = v.testBit c := by
  rcases Nat.lt_or_gt_of_ne hc with h | h
  · exact Nat.testBit_two_pow_add_gt h v
  · obtain ⟨k, rfl⟩ : ∃ k, c = k + 1 + b := ⟨c - b - 1, by omega⟩
    have hquot : (2 ^ b + v) / 2 ^ b = v / 2 ^ b + 1 := by
      rw [Nat.add_comm, Nat.add_div_right _ (Nat.two_pow_pos b)]
    have heven : v / 2 ^ b % 2 = 0 := by
      rw [Nat.testBit_eq_decide_div_mod_eq, decide_eq_false_iff_not] at hclear
      omega
    have hhigh : ∀ x : Nat, x.testBit (k + 1 + b) = (x / 2 ^ b / 2).testBit k := fun x => by
      rw [← Nat.testBit_div_two_pow, Nat.testBit_succ]
    rw [hhigh, hhigh, hquot]
    exact congrArg (Nat.testBit · k) (by omega)

/-- Switching a bit leaves the others. -/
theorem testBit_add_or_sub_two_pow_other {v b c : Nat} {on : Bool} (h : v.testBit b ≠ on) (hc : c ≠ b) :
    (if on then v + 2 ^ b else v - 2 ^ b).testBit c = v.testBit c := by
  cases on with
  | true =>
    rw [if_pos rfl, Nat.add_comm]
    exact testBit_two_pow_add_other (by simpa using h) hc
  | false =>
    have hset : v.testBit b = true := by simpa using h
    have hsum : 2 ^ b + (v - 2 ^ b) = v := Nat.add_sub_cancel' (Nat.ge_two_pow_of_testBit hset)
    have hclear : (v - 2 ^ b).testBit b = false := testBit_add_or_sub_two_pow (on := false) h
    have hkept := testBit_two_pow_add_other hclear hc
    rw [hsum] at hkept
    exact hkept.symm

/-- Another domain stays as it was. -/
theorem Dev.pdOn_pdPut_ne (d : Dev) {m n : Nat} (h : m ≠ n) (on : Bool) : (d.pdPut n on).pdOn m = d.pdOn m := by
  rw [Dev.pdPut]
  split
  · rfl
  · next hon =>
    rw [Dev.pdOn_eq_testBit] at hon
    rw [Dev.pdOn_congr (Dev.decision_frame _ _ _ _) (by decide), Dev.pdOn_eq_testBit, Dev.pdOn_eq_testBit]
    by_cases hword : m / 32 = n / 32
    · rw [hword, Dev.get_put_eq _ _ _ _ _ _ (by decide), Nat.testBit_mod_two_pow,
        testBit_add_or_sub_two_pow_other hon (by omega),
        decide_eq_true (show m % 32 < HK_PD_STAT.ON.w from Nat.mod_lt _ (by decide)), Bool.true_and]
    · rw [Dev.get_put_index _ _ _ _ _ _ _ _ hword]

/-! ### The domains that enabled blocks need, after a write of HK_PD_OFF -/

section
variable (d : Dev) (v : Nat)

theorem Dev.talView_putPdOff (j : Nat) : (d.put HK_PD_OFF.DOMAIN v).talView j = d.talView j := by
  simp (disch := decide) only [Dev.talView, Dev.talShape, Dev.talBanks, Dev.talStore, Dev.talAcc, Dev.talAccBytes, Dev.talDen,
    Dev.talBytes, Dev.talRows, Dev.talCols, Dev.talBase, Dev.talMode, Dev.talStep, Dev.get_put_family, Dev.put_tal]
  rfl

theorem Dev.talHeld_putPdOff (j : Nat) : (d.put HK_PD_OFF.DOMAIN v).talHeld j = d.talHeld j := rfl

theorem Dev.activeProfile_putPdOff (u : Nat) : (d.put HK_PD_OFF.DOMAIN v).activeProfile u = d.activeProfile u := by
  simp (disch := decide) only [Dev.activeProfile, Dev.slotCfg, Dev.flag, Dev.get_put_family]

theorem Dev.bankNeeded_putPdOff (b : Nat) : (d.put HK_PD_OFF.DOMAIN v).bankNeeded b = d.bankNeeded b := rfl

theorem Dev.flag_put_family {f f' : Fld} (v i j k i' j' k' : Nat) (h : f'.g ≠ f.g) :
    (d.put f v i j k).flag f' i' j' k' = d.flag f' i' j' k' := congrArg (· == 1) (Dev.get_put_family d v i j k i' j' k' h)

theorem Dev.benchNeeded_putPdOff : (d.put HK_PD_OFF.DOMAIN v).benchNeeded = d.benchNeeded := by
  rw [Dev.benchNeeded, Dev.benchNeeded]
  generalize List.range 4096 = queues
  simp (disch := decide) only [Dev.talView_putPdOff, Dev.talHeld_putPdOff, Dev.put_lanes, Dev.flag_put_family]

theorem Dev.corrNeeded_putPdOff (c : Nat) : (d.put HK_PD_OFF.DOMAIN v).corrNeeded c = d.corrNeeded c := by
  simp (disch := decide) only [Dev.corrNeeded, Dev.activeProfile_putPdOff, Dev.talHeld_putPdOff, Dev.flag_put_family, Dev.get_put_family]

theorem Dev.testNeeds_putPdOff (n : Nat) : (d.put HK_PD_OFF.DOMAIN v).testNeeds n = d.testNeeds n := by
  simp (disch := decide) only [Dev.testNeeds, Dev.flag_put_family, Dev.get_put_family]


theorem Dev.hoistPort_putPdOff (p : Nat) : (d.put HK_PD_OFF.DOMAIN v).hoistPort p = d.hoistPort p := by
  simp (disch := decide) only [Dev.hoistPort, Dev.flag_put_family, Dev.get_put_family]

theorem Dev.pdNeeded_putPdOff (n : Nat) : (d.put HK_PD_OFF.DOMAIN v).pdNeeded n = d.pdNeeded n := by
  rw [Dev.pdNeeded, Dev.pdNeeded, Dev.testNeeds_putPdOff]
  refine congrArg (d.testNeeds n || ·) ?_
  refine if_congr Iff.rfl ?slice (if_congr Iff.rfl ?quarry (if_congr Iff.rfl ?bench (if_congr Iff.rfl ?always
    (if_congr Iff.rfl ?ports (if_congr Iff.rfl ?needles (if_congr Iff.rfl ?triggers (if_congr Iff.rfl ?corrections
    (if_congr Iff.rfl ?decimation (if_congr Iff.rfl ?banks (if_congr Iff.rfl ?raster (if_congr Iff.rfl ?outputs
    (if_congr Iff.rfl ?inputs ?link))))))))))))
  case bench => exact Dev.benchNeeded_putPdOff d v
  case banks => exact Dev.bankNeeded_putPdOff d v _
  case corrections => exact Dev.corrNeeded_putPdOff d v _
  all_goals
    simp (disch := decide) only [Dev.hoistPort_putPdOff, Dev.ptpPort, Dev.talHeld_putPdOff, Dev.flag_put_family, Dev.get_put_family,
      Dev.put_slice, Dev.put_ndl, Dev.put_link]
end

theorem Dev.hkActs_putPdOff (d : Dev) (v : Nat) : (d.put HK_PD_OFF.DOMAIN v).hkActs = d.hkActs := by
  simp (disch := decide) only [Dev.hkActs, Dev.hkAbsent, Dev.get_put_family, Dev.put_pwr, Dev.put_now]

end Sys2Proof.Machine

/-! ## Standby, wake and the power domains
(19_power_reset_and_live_update.md R426, R427, R430, R432, R433, R434; 01_engine_at_a_glance.md R40) -/

namespace Sys2Proof.Machine

-- One proof at a time: the text is compiled within a fixed memory.
set_option Elab.async false

theorem Dev.raised_decision {d : Dev} {k e : Nat} (h : d.raised k e) (code unit arg : Nat) :
    (d.decision code unit arg).raised k e := by
  rw [Dev.decision]
  refine Dev.raised_raise ?_ _
  exact h

/-! ### Standby -/

/-- The part of the entry into standby after the time base has stopped: clocks, pins, domains and what READY shows. -/
def Dev.blocksSleep (d : Dev) (on : List Nat) : Dev :=
  let d := (List.range 4).foldl (fun d n => d.sliceClockLossEff n) d
  let d := (List.range 48).foldl (fun d x => if pinExists x then d.pinIdle x else d) d
  let d := on.foldl (fun d n => let d := d.pdPut n false
                                if 76 ≤ n ∧ n ≤ 84 then d.domainLost n else d) d
  d.readyShow.putb BEN_QRY_STAT.READY false

/-- The part before it: tables, tests and the quarry. -/
def Dev.workSaved (d : Dev) : Dev :=
  let d := ((List.range 4).foldl Dev.tableSave d).gaugeSave
  let d := d.setEvi { d.evi with savedAt := some d.now }
  d.testsAbort

section
set_option exponentiation.threshold 500

theorem Dev.workSaved_frame (d : Dev) :
    Dev.frame [.slices, .eventInputs, .draws] [.TST_CTL, .TST_STAT, .TST_BITS, .TST_ERRS] d d.workSaved :=
  Dev.frame_trans (Dev.frame_trans (Dev.frame_trans (Dev.frame_foldl (fun d n =>
      Dev.frame_mono (d.tableSave_frame n) (by decide) (by decide)) _ _)
    (Dev.frame_mono (Dev.gaugeSave_frame _) (by decide) (by decide)))
    (Dev.frame_of_ind (c := 0x2000) (g := 0) (fun hP h => hP.evi (by decide) _ _ h) (by decide) (by decide)))
    (Dev.frame_mono (Dev.testsAbort_frame _) (by decide) (by decide))

theorem Dev.blocksSleep_frame (d : Dev) (on : List Nat) :
    Dev.frame [.paths, .slices, .events, .trigBus, .tally, .bench, .raster, .benchMemory, .tallyMemory, .rasterMemory,
        .eventInputs]
      [.CV_SSTAT, .HK_PD_STAT, .HK_DEC_IDX, .HK_DEC, .ETH_STAT, .BEN_STAT, .BEN_QRY_STAT] d (d.blocksSleep on) := by
  have hclocks := Dev.frame_foldl (fun d n => Dev.sliceClockLossEff_frame n d) (List.range 4) d
  have hpins := fun d => Dev.frame_foldl (f := fun d x => if pinExists x then Dev.pinIdle d x else d)
    (fun d x => ite_ind (P := Dev.frame _ _ d) (Dev.pinIdle_frame d x) (Dev.frame_refl _ _ _)) (List.range 48) d
  have hdomains : ∀ d, Dev.frame [.events, .tally, .bench, .raster, .benchMemory, .tallyMemory, .rasterMemory]
      [.HK_PD_STAT, .HK_DEC_IDX, .HK_DEC, .ETH_STAT] d (on.foldl (fun d n => let d := d.pdPut n false
        if 76 ≤ n ∧ n ≤ 84 then d.domainLost n else d) d) := by
    refine Dev.frame_foldl (fun d n => ?_) on
    have hoff := Dev.frame_mono (d.pdPut_frame n false) (ps' := [.events, .tally, .bench, .raster, .benchMemory, .tallyMemory,
      .rasterMemory]) (l' := [.HK_PD_STAT, .HK_DEC_IDX, .HK_DEC, .ETH_STAT]) (by decide) (by decide)
    exact ite_ind (P := Dev.frame _ _ d) (Dev.frame_trans hoff
      (Dev.frame_mono (Dev.domainLost_frame _ _) (by decide) (by decide))) hoff
  exact Dev.frame_trans (Dev.frame_trans (Dev.frame_trans (Dev.frame_trans
    (Dev.frame_mono hclocks (by decide) (by decide)) (Dev.frame_mono (hpins _) (by decide) (by decide)))
    (Dev.frame_mono (hdomains _) (by decide) (by decide))) (Dev.frame_mono (Dev.readyShow_frame _) (by decide) (by decide)))
    (Dev.frame_mono (Dev.wr_frame _ _ _) (by decide) (by decide))

end

/-- The domains that are switched off, and shown again at the wake. -/
def Dev.domainsOn (d : Dev) : List Nat := (List.range 96).filter fun n => d.pdOn n && n != 58

/-- The module in STANDBY. -/
def Dev.asleep (d : Dev) : Dev :=
  let b := (d.workSaved.quarrySleep.tbSleep).blocksSleep d.workSaved.domainsOn
  b.setPwr { b.pwr with domains := d.workSaved.domainsOn
                        ready := [(⟨.BEN_QRY_STAT, 0, 0, 0⟩, d.workSaved.rd ⟨.BEN_QRY_STAT, 0, 0, 0⟩)] }

/-- What STANDBY shows. -/
def Dev.standbyShown (d : Dev) : Dev :=
  (((d.put HK_PWR_STAT.STATE 1).put HK_PWR_STAT.RESULT 1).raise 608).decision 11 0 0

theorem Dev.standbyEnter_standby (d : Dev) : d.standbyEnter false = d.asleep.standbyShown := by
  unfold Dev.standbyEnter Dev.standbyShown Dev.asleep Dev.blocksSleep Dev.workSaved Dev.domainsOn
  dsimp only
  rw [if_neg Bool.false_ne_true]

theorem Dev.standbyEnter_dormant (d : Dev) :
    d.standbyEnter true = (let b := d.asleep.standbyShown.eventsSettle.itemsSettle.mainLost
      (b.setPwr { b.pwr with mainEn := false }).put HK_PWR_STAT.STATE 2) := by
  unfold Dev.standbyEnter Dev.standbyShown Dev.asleep Dev.blocksSleep Dev.workSaved Dev.domainsOn
  dsimp only
  rw [if_pos rfl]

/-- Of time, power and registers the way into STANDBY keeps what it does not name; the synthesiser stops. -/
theorem Dev.asleep_shows (d : Dev) :
    d.asleep.now = d.now ∧ d.asleep.pwr.mainEn = d.pwr.mainEn ∧ d.asleep.tb.locked = false := by
  have hwork := d.workSaved_frame
  have hquarry := d.workSaved.quarrySleep_frame
  have htime := d.workSaved.quarrySleep.tbSleep_frame
  have hblocks := d.workSaved.quarrySleep.tbSleep.blocksSleep_frame d.workSaved.domainsOn
  refine ⟨?_, ?_, ?_⟩
  · rw [Dev.asleep, Dev.setPwr_now, Dev.frame_now hblocks (by decide), Dev.frame_now htime (by decide),
      Dev.frame_now hquarry (by decide), Dev.frame_now hwork (by decide)]
  · rw [Dev.asleep, Dev.setPwr_pwr]
    dsimp only
    rw [hblocks.1 .power (by decide), htime.1 .power (by decide), hquarry.1 .power (by decide),
      hwork.1 .power (by decide)]
  · rw [Dev.asleep, Dev.setPwr_tb, hblocks.1 .timeBase (by decide)]
    rfl

theorem Dev.standbyShown_shows (d : Dev) :
    d.standbyShown.get HK_PWR_STAT.STATE = 1 ∧ d.standbyShown.get HK_PWR_STAT.RESULT = 1
      ∧ d.standbyShown.raised d.now 608 ∧ d.standbyShown.now = d.now ∧ d.standbyShown.pwr = d.pwr
      ∧ d.standbyShown.tb = d.tb := by
  refine ⟨?_, ?_, Dev.raised_decision (Dev.raise_raised _ _) _ _ _, ?_, ?_, ?_⟩
  · rw [Dev.standbyShown, Dev.frame_get (Dev.decision_frame _ _ _ _) _ _ _ _ (by decide), Dev.raise_get,
      Dev.get_put_other _ _ _ _ _ _ _ _ _ _ (by decide) (by decide), Dev.get_put_lt _ _ _ _ (by decide) (by decide)]
  · rw [Dev.standbyShown, Dev.frame_get (Dev.decision_frame _ _ _ _) _ _ _ _ (by decide), Dev.raise_get,
      Dev.get_put_lt _ _ _ _ (by decide) (by decide)]
  all_goals simp [Dev.standbyShown]

section
set_option exponentiation.threshold 500

theorem Dev.retiredMark_frame (d e : Dev) :
    Dev.frame [.bench, .events] [.BEN_QRY_RETIRE, .QRY_CSTAT, .GLB_CNT_SAT] e (d.retiredMark e) :=
  Dev.frame_of_ind (fun hP h => Dev.retiredMark_ind hP h) (by decide) (by decide)

end

/-- Everything but AON is lost: the synthesiser's lock, and the contents of the bench and of the tally store (R436). -/
theorem Dev.mainLost_shows (d : Dev) :
    d.mainLost.now = d.now ∧ d.mainLost.tb.locked = false ∧ d.mainLost.ben.bench = [] ∧ d.mainLost.tal.mem = [] := by
  rw [Dev.mainLost]
  refine ⟨?_, ?_, ?_, ?_⟩
  · rw [Dev.frame_now (Dev.newNonce_frame _) (by decide), Dev.put_now, Dev.frame_now (Dev.retiredMark_frame _ _) (by decide)]
    exact show (d.slewMark false).now = d.now from Dev.frame_now (d.slewMark_frame false) (by decide)
  · rw [(Dev.newNonce_frame _).1 .timeBase (by decide), Dev.put_tb, (Dev.retiredMark_frame _ _).1 .timeBase (by decide)]
  · rw [((Dev.newNonce_frame _).1 .benchMemory (by decide)).1, Dev.put_ben,
      ((Dev.retiredMark_frame _ _).1 .benchMemory (by decide)).1]
  · rw [Dev.frame_tal (Dev.newNonce_frame _) (by decide) (by decide), Dev.put_tal,
      Dev.frame_tal (Dev.retiredMark_frame _ _) (by decide) (by decide)]

theorem Dev.opsRun_putDormant (d : Dev) (b : Bool) : (d.putb HK_PWR_CTL.DORMANT b).opsRun = d.opsRun := by
  simp (disch := decide) only [Dev.opsRun, Dev.sliceSweeps, Dev.qryMigrating, Dev.flag, Dev.putb, Dev.get_put_family,
    Dev.put_slice, Dev.put_evi, Dev.put_ben]

theorem Dev.recordOpen_putDormant (d : Dev) (b : Bool) : (d.putb HK_PWR_CTL.DORMANT b).recordOpen = d.recordOpen := rfl

section
variable {s : State} (hw : s.dev.bus.writes = []) (dormant : Bool) (haon : s.dev.pwr.aon = true)
  (hmain : s.dev.pwr.mainEn = true) (hpg : s.dev.pwr.waitPg = false) (hfw : s.dev.pwr.noFw = false)
  (hdrain : s.dev.pwr.drain = none) (hstate : s.dev.get HK_PWR_STAT.STATE = 0)

include haon hmain hpg hfw hdrain hstate in
/-- An active device: STANDBY is refused while a record is open, a long operation runs or firmware is on trial. -/
theorem Dev.standbyEff_of_active :
    s.dev.standbyEff dormant = (let d := s.dev.putb HK_PWR_CTL.DORMANT dormant
      if s.dev.recordOpen || s.dev.opsRun || s.dev.pwr.fwTrial.isSome then (d.put HK_PWR_STAT.RESULT 2).raise 609
      else d.standbyEnter dormant) := by
  have hactive : (s.dev.putb HK_PWR_CTL.DORMANT dormant).get HK_PWR_STAT.STATE = 0 := by
    rw [Dev.putb, Dev.get_put_family _ _ _ _ _ _ _ _ (by decide), hstate]
  have hpwr : (s.dev.putb HK_PWR_CTL.DORMANT dormant).pwr = s.dev.pwr := rfl
  rw [Dev.standbyEff]
  simp only [hpwr, hactive, haon, hmain, hpg, hfw, hdrain, Dev.recordOpen_putDormant, Dev.opsRun_putDormant, Bool.not_true,
    Option.isSome_none, bne_self_eq_false, Bool.or_self, Bool.false_eq_true, if_false]

include hw haon hmain hpg hfw hdrain hstate

theorem exec_standby_of_quiet (htrial : s.dev.pwr.fwTrial = none) (hopen : s.dev.recordOpen = false)
    (hops : s.dev.opsRun = false) :
    ∃ t, exec (.standby dormant) s = .next t ∧ t.dev.now = s.dev.now
      ∧ t.dev.get HK_PWR_STAT.STATE = (if dormant = true then 2 else 1)
      ∧ t.dev.pwr.mainEn = ! dormant ∧ t.dev.tb.locked = false
      ∧ (dormant = false → t.dev.get HK_PWR_STAT.RESULT = 1 ∧ t.dev.raised s.dev.now 608)
      ∧ (dormant = true → t.dev.ben.bench = [] ∧ t.dev.tal.mem = []) := by
  obtain ⟨hnow, hen, hlock⟩ := (s.dev.putb HK_PWR_CTL.DORMANT dormant).asleep_shows
  obtain ⟨hSTATE, hRESULT, hevent, hnow', hpwr', htb'⟩ :=
    (s.dev.putb HK_PWR_CTL.DORMANT dormant).asleep.standbyShown_shows
  refine ⟨_, State.row_of_empty hw _, ?_⟩
  dsimp only
  rw [Dev.standbyEff_of_active dormant haon hmain hpg hfw hdrain hstate, hopen, hops, htrial]
  simp only [Option.isSome_none, Bool.or_self, Bool.false_eq_true, if_false]
  cases dormant with
  | false =>
    rw [Dev.standbyEnter_standby]
    exact ⟨hnow'.trans hnow, hSTATE, by rw [hpwr', hen]; exact hmain, by rw [htb', hlock],
      fun _ => ⟨hRESULT, hnow ▸ hevent⟩, nofun⟩
  | true =>
    have hsettled := (Dev.frame_now (Dev.itemsSettle_frame _) (by decide)).trans (Dev.frame_now (Dev.eventsSettle_frame
      (s.dev.putb HK_PWR_CTL.DORMANT true).asleep.standbyShown) (by decide))
    obtain ⟨hlostNow, hlostLock, hlostBench, hlostTally⟩ :=
      ((s.dev.putb HK_PWR_CTL.DORMANT true).asleep.standbyShown.eventsSettle.itemsSettle).mainLost_shows
    rw [Dev.standbyEnter_dormant]
    dsimp only
    rw [Dev.put_now, Dev.setPwr_now, Dev.put_pwr, Dev.setPwr_pwr, Dev.put_tb, Dev.setPwr_tb, Dev.put_ben, Dev.setPwr_ben,
      Dev.put_tal, Dev.setPwr_tal]
    exact ⟨hlostNow.trans (hsettled.trans (hnow'.trans hnow)), Dev.get_put_lt _ _ _ _ (by decide) (by decide), rfl,
      hlostLock, nofun, fun _ => ⟨hlostBench, hlostTally⟩⟩

theorem exec_standby_of_busy
    (hbusy : s.dev.recordOpen = true ∨ s.dev.opsRun = true ∨ s.dev.pwr.fwTrial ≠ none) :
    ∃ t, exec (.standby dormant) s = .next t ∧ t.dev.get HK_PWR_STAT.RESULT = 2
      ∧ t.dev.get HK_PWR_STAT.STATE = 0 ∧ t.dev.raised s.dev.now 609 ∧ t.dev.pwr = s.dev.pwr := by
  have hrefused : (s.dev.recordOpen || s.dev.opsRun || s.dev.pwr.fwTrial.isSome) = true := by
    simpa [Option.isSome_iff_ne_none, or_assoc] using hbusy
  refine ⟨_, State.row_of_empty hw _, ?_⟩
  dsimp only
  rw [Dev.standbyEff_of_active dormant haon hmain hpg hfw hdrain hstate, hrefused]
  dsimp only
  rw [if_pos rfl]
  refine ⟨?_, ?_, Dev.raise_raised _ _, by simp⟩
  · rw [Dev.raise_get, Dev.get_put_lt _ _ _ _ (by decide) (by decide)]
  · rw [Dev.raise_get, Dev.get_put_other _ _ _ _ _ _ _ _ _ _ (by decide) (by decide), Dev.putb,
      Dev.get_put_family _ _ _ _ _ _ _ _ (by decide), hstate]

end

/-! ### Wake -/

/-- The cause of a wake shows, and the wake begins (R432). -/
def Dev.wakeBegun (d : Dev) (code : Nat) : Dev :=
  let d := (d.put HK_WAKE_CAUSE.SRC code).put HK_WAKE_CAUSE.TICK d.keeperTick
  let d := d.setPwr { d.pwr with wake := some (code, d.now) }
  (d.raise 610).decision 12 0 code

/-- An enabled source wakes a sleeping device. -/
theorem Dev.wakeFrom_of_enabled {d : Dev} {code : Nat} (haon : d.pwr.aon = true) (hhot : d.pwr.hot = false)
    (hfw : d.pwr.noFw = false) (hwake : d.pwr.wake = none) (hsleep : d.get HK_PWR_STAT.STATE ≠ 0)
    (hsrc : d.get HK_WAKE_CTL.SRC / 2 ^ code % 2 = 1) (hreach : 2 ≤ code ∨ d.get HK_PWR_STAT.STATE = 1) :
    d.wakeFrom code = if d.get HK_PWR_STAT.STATE = 1
      then (d.wakeBegun code).pwr.domains.foldl (fun d n => d.pdPut n true) (d.wakeBegun code)
      else (d.wakeBegun code).setPwr { (d.wakeBegun code).pwr with mainEn := true, waitPg := true } := by
  have hreach' : (decide (code ≤ 1) && d.get HK_PWR_STAT.STATE != 1) = false := by
    rcases hreach with h | h
    · simp; omega
    · simp [h]
  rw [Dev.wakeFrom]
  simp only [haon, hhot, hfw, hwake, hsrc, hreach', beq_eq_false_iff_ne.mpr hsleep, Bool.not_true, Option.isSome_none,
    beq_self_eq_true, Bool.or_self, Bool.false_eq_true, if_false, Dev.wakeBegun]

theorem Dev.wakeBegun_shows (d : Dev) {code : Nat} (hcode : code < 8) :
    (d.wakeBegun code).pwr = { d.pwr with wake := some (code, d.now) }
      ∧ (d.wakeBegun code).get HK_WAKE_CAUSE.SRC = code ∧ (d.wakeBegun code).raised d.now 610 := by
  refine ⟨by simp [Dev.wakeBegun], ?_, Dev.raised_decision (Dev.raise_raised _ _) _ _ _⟩
  rw [Dev.wakeBegun, Dev.frame_get (Dev.decision_frame _ _ _ _) _ _ _ _ (by decide), Dev.raise_get, Dev.setPwr_get,
    Dev.get_put_other _ _ _ _ _ _ _ _ _ _ (by decide) (by decide), Dev.get_put_lt _ _ _ _ (by decide) hcode]

theorem Dev.raised_pdPut {d : Dev} {k e : Nat} (h : d.raised k e) (n : Nat) (on : Bool) : (d.pdPut n on).raised k e := by
  rw [Dev.pdPut]
  split
  · exact h
  · refine Dev.raised_decision ?_ _ _ _
    exact h

section
variable {s : State} (hw : s.dev.bus.writes = []) (haon : s.dev.pwr.aon = true) (hhot : s.dev.pwr.hot = false)
  (hfw : s.dev.pwr.noFw = false) (hwake : s.dev.pwr.wake = none)
include hw haon hhot hfw hwake

/-- From STANDBY the domains that were on come on again. -/
theorem exec_wake (hstate : s.dev.get HK_PWR_STAT.STATE = 1) (hsrc : s.dev.get HK_WAKE_CTL.SRC % 2 = 1) :
    ∃ t, exec .wake s = .next t ∧ t.dev.pwr.wake = some (0, s.dev.now) ∧ t.dev.get HK_WAKE_CAUSE.SRC = 0
      ∧ t.dev.raised s.dev.now 610 := by
  obtain ⟨hpwr, hcause, hevent⟩ := s.dev.wakeBegun_shows (code := 0) (by decide)
  have hon := Dev.frame_foldl (fun d n => Dev.pdPut_frame d n true) (s.dev.wakeBegun 0).pwr.domains (s.dev.wakeBegun 0)
  refine ⟨_, State.row_of_empty hw fun d => d.wakeFrom 0, ?_⟩
  dsimp only
  rw [Dev.wakeFrom_of_enabled haon hhot hfw hwake (by omega) (by simpa using hsrc) (Or.inr hstate), if_pos hstate,
    Dev.frame_get hon _ _ _ _ (by decide), hcause, hon.1 .power (by decide), hpwr]
  exact ⟨rfl, rfl, foldl_invariant (Dev.raised · s.dev.now 610) _ _ hevent fun d n _ h => Dev.raised_pdPut h n true⟩

/-- From DORMANT MAIN_EN is raised. -/
theorem exec_wakeSource_pps (hstate : s.dev.get HK_PWR_STAT.STATE = 2) (hsrc : s.dev.get HK_WAKE_CTL.SRC / 2 ^ 4 % 2 = 1) :
    ∃ t, exec (.wakeSource .pps) s = .next t ∧ t.dev.pwr.wake = some (4, s.dev.now)
      ∧ t.dev.pwr.mainEn = true ∧ t.dev.pwr.waitPg = true ∧ t.dev.get HK_WAKE_CAUSE.SRC = 4
      ∧ t.dev.raised s.dev.now 610 := by
  obtain ⟨hpwr, hcause, hevent⟩ := s.dev.wakeBegun_shows (code := 4) (by decide)
  refine ⟨_, State.row_of_empty hw _, ?_⟩
  dsimp only
  rw [Dev.wakeSourceEff, Dev.wakeFrom_of_enabled haon hhot hfw hwake (by omega) hsrc (Or.inl (by decide)),
    if_neg (by omega), Dev.setPwr_pwr, Dev.setPwr_get, hcause, hpwr]
  exact ⟨rfl, rfl, rfl, rfl, hevent⟩

end

/-- MAIN_PG rises: the power-on reset is complete, with the cause of a wake from DORMANT. -/
theorem exec_mainPgRise {s : State} (hw : s.dev.bus.writes = []) (hpg : s.dev.pwr.waitPg = true) :
    ∃ t, exec .mainPgRise s = .next t ∧ t.dev.pwr.waitPg = false ∧ t.dev.pwr.tripped = false
      ∧ t.dev.raised s.dev.now 617
      ∧ (s.dev.pwr.wake ≠ none → t.dev.get HK_RST_CAUSE.CAUSE = (if s.dev.pwr.tripped = true then 7 else 8)) := by
  refine ⟨_, State.row_of_empty hw _, ?_⟩
  dsimp only
  rw [Dev.mainPgRiseEff, hpg, Bool.not_true, if_neg Bool.false_ne_true]
  dsimp only
  refine ⟨by rw [Dev.raise_pwr, Dev.setPwr_pwr], by rw [Dev.raise_pwr, Dev.setPwr_pwr], ?_, fun hwake => ?_⟩
  · split <;> exact Dev.raise_raised _ _
  · rw [if_pos (Option.isSome_iff_ne_none.mpr hwake), Dev.raise_get, Dev.setPwr_get,
      Dev.get_put_lt _ _ _ _ (by decide) (by split <;> decide)]

/-- From STANDBY: READY bits, memories, outputs and doorbells are taken up again (R433). -/
def Dev.blocksWake (d : Dev) : Dev :=
  let bells := d.pwr.doorbells
  let d := d.pwr.ready.foldl (fun d x => d.wr x.1 x.2) d
  let d := (List.range 16).foldl (fun d c => if (d.ben.chan.get c).selfRefresh then d.srExit c else d) d
  let d := d.putb BEN_QRY_STAT.RETAINED (d.ben.channels != 0)
  let d := d.readyShow.outputsResume
  bells.foldl (fun d x => d.doorbellEff x.1 x.2.toNat) d

theorem Dev.blocksWake_now (d : Dev) : d.blocksWake.now = d.now := by
  rw [Dev.blocksWake, foldl_keeps Dev.now _ (fun d x => Dev.frame_now (Dev.doorbellEff_frame _ _ _) (by decide)),
    Dev.frame_now (Dev.outputsResume_frame _) (by decide), Dev.frame_now (Dev.readyShow_frame _) (by decide), Dev.putb,
    Dev.put_now, foldl_keeps Dev.now _ fun d c => ?_, foldl_keeps Dev.now _ fun d x => Dev.wr_now _ _ _]
  exact ite_ind (P := fun e => e.now = d.now) (Dev.frame_now (d.srExit_frame c) (by decide)) rfl

/-- A wake that can complete does (R433). -/
theorem Dev.wakeCompleteEff_of_locked {d : Dev} (hwake : d.pwr.wake ≠ none) (hpg : d.pwr.waitPg = false)
    (hlock : d.tb.locked = true) (hdrain : d.pwr.drain = none) (hlater : d.pwr.later = none) :
    ∃ e : Dev, e.now = d.now ∧ d.wakeCompleteEff =
      ((e.setPwr { e.pwr with wake := none, domains := [], ready := [], doorbells := [], later := none }).put
        HK_PWR_STAT.STATE 0).raise 611 := by
  have hgo : (d.pwr.wake.isNone || d.pwr.waitPg || ! d.tb.locked || d.pwr.drain.isSome) = false := by
    simp [hwake, hpg, hlock, hdrain, Option.isNone_eq_false_iff, Option.isSome_iff_ne_none]
  refine ⟨if d.get HK_PWR_STAT.STATE = 1 then d.blocksWake else d, ?_, ?_⟩
  · exact ite_ind (P := fun e => e.now = d.now) d.blocksWake_now rfl
  · rw [Dev.wakeCompleteEff, hgo, if_neg Bool.false_ne_true]
    simp only [hlater, Dev.blocksWake]

theorem exec_wakeComplete {s : State} (hw : s.dev.bus.writes = []) (hwake : s.dev.pwr.wake ≠ none)
    (hpg : s.dev.pwr.waitPg = false) (hlock : s.dev.tb.locked = true) (hdrain : s.dev.pwr.drain = none)
    (hlater : s.dev.pwr.later = none) :
    ∃ t, exec .wakeComplete s = .next t ∧ t.dev.get HK_PWR_STAT.STATE = 0 ∧ t.dev.pwr.wake = none
      ∧ t.dev.pwr.doorbells = [] ∧ t.dev.raised s.dev.now 611 := by
  obtain ⟨e, hnow, heff⟩ := Dev.wakeCompleteEff_of_locked hwake hpg hlock hdrain hlater
  refine ⟨_, State.row_of_empty hw _, ?_⟩
  dsimp only
  rw [heff, Dev.raise_get, Dev.get_put_lt _ _ _ _ (by decide) (by decide), Dev.raise_pwr, Dev.put_pwr, Dev.setPwr_pwr, ← hnow]
  exact ⟨rfl, rfl, rfl, Dev.raise_raised _ _⟩

/-! ### The power domains -/

section
variable {s : State} {n : Fin 96} (hw : s.dev.bus.writes = []) (hacts : s.dev.hkActs = true)

/-- A domain that is switched off, or was off, is off. -/
theorem Dev.domainOff_off (d : Dev) (n : Nat) : (d.domainOff n).pdOn n = false := by
  rw [Dev.domainOff]
  split
  · rw [Dev.pdOn_congr (Dev.readyShow_frame _) (by decide), Dev.pdOn_congr (Dev.domainLost_frame _ _) (by decide),
      Dev.pdOn_pdPut]
  · next h => exact Bool.eq_false_iff.mpr h

theorem toNat_domain (n : Fin 96) : (BitVec.ofNat 7 n).toNat = n := by simp; omega

include hw hacts

theorem exec_pdOff_of_unneeded (hneed : s.dev.pdNeeded n = false) :
    ∃ t, exec (.pdOff (BitVec.ofNat 7 n)) s = .next t ∧ t.dev.pdOn n = false ∧ t.dev.get HK_PD_OFF.RESULT = 1
      ∧ t.dev.get HK_PD_OFF.DOMAIN = n := by
  have hgo : (! (s.dev.put HK_PD_OFF.DOMAIN n).hkActs || decide (96 ≤ n.val)
      || (s.dev.put HK_PD_OFF.DOMAIN n).pdNeeded n) = false := by
    rw [Dev.hkActs_putPdOff, Dev.pdNeeded_putPdOff, hacts, hneed, decide_eq_false (by omega)]
    rfl
  refine ⟨_, State.row_of_empty hw _, ?_⟩
  dsimp only
  rw [Dev.pdOffEff, toNat_domain, hgo, if_neg Bool.false_ne_true]
  refine ⟨?_, Dev.get_put_lt _ _ _ _ (by decide) (by decide), ?_⟩
  · rw [Dev.pdOn, Dev.get_put_family _ _ _ _ _ _ _ _ (by decide)]
    exact Dev.domainOff_off _ _
  · rw [Dev.get_put_other _ _ _ _ _ _ _ _ _ _ (by decide) (by decide),
      Dev.frame_get (Dev.domainOff_frame _ _) _ _ _ _ (by decide),
      Dev.get_put_lt _ _ _ _ (by decide) (Nat.lt_of_lt_of_le n.isLt (by decide))]

omit hacts in
theorem exec_pdOff_of_needed (hneed : s.dev.pdNeeded n = true) :
    ∃ t, exec (.pdOff (BitVec.ofNat 7 n)) s = .next t ∧ t.dev.pdOn n = s.dev.pdOn n
      ∧ t.dev.get HK_PD_OFF.RESULT = 2 ∧ t.dev.raised s.dev.now 612 := by
  have hgo : (! (s.dev.put HK_PD_OFF.DOMAIN n).hkActs || decide (96 ≤ n.val)
      || (s.dev.put HK_PD_OFF.DOMAIN n).pdNeeded n) = true := by
    rw [Dev.pdNeeded_putPdOff, hneed, Bool.or_true]
  refine ⟨_, State.row_of_empty hw _, ?_⟩
  dsimp only
  rw [Dev.pdOffEff, toNat_domain, hgo, if_pos rfl]
  refine ⟨?_, ?_, Dev.raise_raised _ _⟩
  · rw [Dev.pdOn, Dev.raise_get, Dev.get_put_family _ _ _ _ _ _ _ _ (by decide),
      Dev.get_put_family _ _ _ _ _ _ _ _ (by decide)]
    rfl
  · rw [Dev.raise_get, Dev.get_put_lt _ _ _ _ (by decide) (by decide)]

theorem exec_pdLingerExpiry (hneed : s.dev.pdNeeded n = false) :
    ∃ t, exec (.pdLingerExpiry n) s = .next t ∧ t.dev.pdOn n = false := by
  refine ⟨_, State.row_of_empty hw _, ?_⟩
  dsimp only
  rw [Dev.pdLingerExpiryEff, hacts, hneed]
  by_cases hon : s.dev.pdOn n = true
  · rw [hon, if_neg (by decide)]
    exact Dev.domainOff_off _ _
  · rw [Bool.eq_false_iff.mpr hon, if_pos (by decide)]
    exact Bool.eq_false_iff.mpr hon

end

/-- The domain is on and its block shows READY. -/
def Dev.domainUp (d : Dev) (n : Nat) : Dev :=
  let d := d.setPwr { d.pwr with needed := d.pwr.needed.set n d.now }
  let d := ((d.pdPut n true).readyShow).outsShow d
  (List.range 8).foldl (fun d j => d.talBanksOn j) d

theorem Dev.blockReadyEff_of_needed {d : Dev} {n : Nat} {x : Dimm} (hacts : d.hkActs = true) (hneed : d.pdNeeded n = true) :
    d.blockReadyEff n x = if 40 ≤ n ∧ n < 56 then (d.domainUp n).chanReady (n - 40) x else d.domainUp n := by
  rw [Dev.blockReadyEff, hacts, hneed, if_neg (by decide)]
  rfl

/-- Beside READY bits, what follows the switching of the domain leaves the domains as they are. -/
theorem Dev.blockReadyEff_after {d : Dev} {n : Nat} (x : Dimm) (hacts : d.hkActs = true) (hneed : d.pdNeeded n = true) :
    Dev.frame [.raster, .tally, .bench, .events]
      [.BEN_QRY_STAT, .BEN_QRY_CAP, .BEN_QRY_MIG, .QRY_CSTAT, .QRY_RRT, .GLB_CNT_SAT]
      ((d.setPwr { d.pwr with needed := d.pwr.needed.set n d.now }).pdPut n true).readyShow (d.blockReadyEff n x) := by
  have hup : Dev.frame [.raster, .tally, .bench, .events]
      [.BEN_QRY_STAT, .BEN_QRY_CAP, .BEN_QRY_MIG, .QRY_CSTAT, .QRY_RRT, .GLB_CNT_SAT]
      ((d.setPwr { d.pwr with needed := d.pwr.needed.set n d.now }).pdPut n true).readyShow (d.domainUp n) :=
    Dev.frame_trans (Dev.frame_mono (Dev.outsShow_frame _ _) (by decide) (by decide))
      (Dev.frame_mono (Dev.frame_foldl (fun d j => d.talBanksOn_frame j) _ _) (by decide) (by decide))
  rw [Dev.blockReadyEff_of_needed hacts hneed]
  split
  · exact Dev.frame_trans hup (Dev.frame_mono (Dev.chanReady_frame _ _ _) (by decide) (by decide))
  · exact hup

/-- The READY bit of the bench's first stack follows its domain. -/
theorem Dev.readyShow_bs0 (d : Dev) : d.readyShow.flag BEN_STAT.BS0_READY = d.pdOn 56 := by
  rw [Dev.readyShow, Dev.frame_flag (Dev.frame_foldl (fun d g => Dev.groupShow_frame d g _) _ _) _ _ _ _ (by decide),
    Dev.frame_flag (Dev.frame_foldl (fun d p => d.portReady_frame p) _ _) _ _ _ _ (by decide), Dev.putb,
    Dev.flag_put_other _ _ _ _ _ _ _ _ _ _ (by decide) (by decide), Dev.flag_putb_whole _ _ _ _ _ _ (by decide)]

theorem Dev.sliceOn_of_frame {ps : List Part} {l : List Rg} {d d' : Dev} (h : Dev.frame ps l d d') (hnow : Part.clock ∉ ps)
    (hslice : Part.slices ∉ ps) (hstat : l.contains .CV_SSTAT = false) (c : Nat) : d'.sliceOn c = d.sliceOn c := by
  rw [Dev.sliceOn, Dev.sliceOn, Dev.frame_flag h _ _ _ _ hstat, Dev.frame_now h hnow, h.1 .slices hslice]

theorem exec_blockReady {s : State} {n : Fin 96} (hw : s.dev.bus.writes = []) (dimm : Dimm) (hacts : s.dev.hkActs = true)
    (hneed : s.dev.pdNeeded n = true) :
    ∃ t, exec (.blockReady n dimm) s = .next t ∧ t.dev.pdOn n = true
      ∧ (n.val = 56 → t.dev.flag BEN_STAT.BS0_READY = true)
      ∧ (∀ u : Fin 16, n.val = 72 + u.val / 4 → t.dev.decReady u
          = (s.dev.flag DEC_CTL.EN u && s.dev.pdOn (68 + s.dev.get DEC_CFG_ACT.SRC u)
            && s.dev.sliceOn (s.dev.get DEC_CFG_ACT.SRC u))) := by
  have hafter := Dev.blockReadyEff_after dimm hacts hneed
  have hall := s.dev.blockReadyEff_frame n dimm
  have hdomains : ∀ m, (s.dev.blockReadyEff n dimm).pdOn m
      = ((s.dev.setPwr { s.dev.pwr with needed := s.dev.pwr.needed.set n s.dev.now }).pdPut n true).pdOn m := fun m => by
    rw [Dev.pdOn_congr hafter (by decide), Dev.pdOn_congr (Dev.readyShow_frame _) (by decide)]
  refine ⟨_, State.row_of_empty hw _, ?_⟩
  dsimp only
  refine ⟨?_, fun hn => ?_, fun u hn => ?_⟩
  · rw [hdomains, Dev.pdOn_pdPut]
  · rw [Dev.frame_flag hafter _ _ _ _ (by decide), Dev.readyShow_bs0, ← hn, Dev.pdOn_pdPut]
  · have hsrc : s.dev.get DEC_CFG_ACT.SRC u < 4 := Dev.get_lt _ _ _ _ _
    rw [Dev.decReady, Dev.decPowered, Dev.frame_flag hall _ _ _ _ (by decide), Dev.frame_get hall _ _ _ _ (by decide), ← hn,
      hdomains, Dev.pdOn_pdPut, hdomains, Dev.pdOn_pdPut_ne _ (by omega),
      Dev.sliceOn_of_frame hall (by decide) (by decide) (by decide), Bool.true_and]
    rfl

/-- Settles O50: each command by what its effect leaves of the power, the time base and the domains. -/
theorem standbyAndDomainCommandsAct : Obligations.StandbyAndDomainCommandsAct := fun _ _ hw =>
  ⟨fun dormant haon hmain hpg hfw hdrain htrial hstate =>
      exec_standby_of_quiet hw dormant haon hmain hpg hfw hdrain hstate htrial, exec_standby_of_busy hw, exec_wake hw, exec_wakeSource_pps hw, exec_mainPgRise hw,
    exec_wakeComplete hw, exec_pdOff_of_unneeded hw, fun _ => exec_pdOff_of_needed hw, exec_pdLingerExpiry hw,
    exec_blockReady hw⟩

end Sys2Proof.Machine

/-! ## One bit of a field, and the canvases and outputs, after a change (18_raster_and_display.md R405, R411, R414) -/

namespace Sys2Proof.Machine

-- One proof at a time: the text is compiled within a fixed memory.
set_option Elab.async false

section
variable (d : Dev) (f : Fld) (c : Nat) (b : Bool)

theorem Dev.bitOf_eq_testBit : d.bitOf f c = (d.get f).testBit c := by
  rw [Dev.bitOf, Nat.testBit_eq_decide_div_mod_eq]
  exact Bool.beq_eq_decide_eq _ _

theorem Dev.bitOf_of_get {d d' : Dev} {f : Fld} (h : d'.get f = d.get f) (c : Nat) : d'.bitOf f c = d.bitOf f c := by
  rw [Dev.bitOf, Dev.bitOf, h]

theorem Dev.bitOf_putBit_same (h : (f.whole && decide (c < f.w)) = true) : (d.putBit f c b).bitOf f c = b := by
  rw [Bool.and_eq_true, decide_eq_true_eq] at h
  rw [Dev.putBit]
  split
  · assumption
  · next hb =>
    rw [Dev.bitOf_eq_testBit] at hb
    rw [Dev.bitOf_eq_testBit, Dev.get_put_eq _ _ _ _ _ _ h.1, Nat.testBit_mod_two_pow, testBit_add_or_sub_two_pow hb,
      decide_eq_true h.2, Bool.true_and]

theorem Dev.get_putBit_other (f' : Fld) (i j k : Nat) (h : f'.whole = true)
    (ha : (decide (f'.g ≠ f.g) || decide (f'.lo + f'.w ≤ f.lo) || decide (f.lo + f.w ≤ f'.lo)) = true) :
    (d.putBit f c b).get f' i j k = d.get f' i j k := by
  rw [Dev.putBit]
  split
  · rfl
  · exact Dev.get_put_other _ _ _ _ _ _ _ _ _ _ h ha

theorem Dev.bitOf_putBit_other (f' : Fld) (n : Nat) (h : f'.whole = true)
    (ha : (decide (f'.g ≠ f.g) || decide (f'.lo + f'.w ≤ f.lo) || decide (f.lo + f.w ≤ f'.lo)) = true) :
    (d.putBit f c b).bitOf f' n = d.bitOf f' n := Dev.bitOf_of_get (Dev.get_putBit_other _ _ _ _ _ _ _ _ h ha) n

end

@[simp] theorem Dev.updCanvas_canvas_same (d : Dev) (c : Nat) (f : Canvas → Canvas) :
    (d.updCanvas c f).ras.canvas.get c = f (d.ras.canvas.get c) := Tab.get_upd_same _ _ _

theorem Dev.updCanvas_canvas_ne (d : Dev) {c m : Nat} (h : m ≠ c) (f : Canvas → Canvas) :
    (d.updCanvas c f).ras.canvas.get m = d.ras.canvas.get m := Tab.get_upd_ne _ h _

@[simp] theorem Dev.updOut_out_same (d : Dev) (x : Nat) (f : Output → Output) :
    (d.updOut x f).ras.out.get x = f (d.ras.out.get x) := Tab.get_upd_same _ _ _

@[simp] theorem Dev.updOut_canvas (d : Dev) (x : Nat) (f : Output → Output) : (d.updOut x f).ras.canvas = d.ras.canvas := rfl

/-! ### Canvases and composition (R407, R410, R411) -/

theorem Dev.canvasCheck_lt (d : Dev) (c : Nat) : d.canvasCheck c < 2 ^ 4 := by
  simp only [Dev.canvasCheck]
  split_ifs <;> decide

theorem Dev.canvasResult_shown (d : Dev) {c r : Nat} (hr : r < 2 ^ 4) :
    (if c = 0 then (d.canvasResult c r).get RAS_STAT.RESULT0 else (d.canvasResult c r).get RAS_STAT.RESULT1) = r := by
  rw [Dev.canvasResult]
  split <;> exact Dev.get_put_lt _ _ _ _ (by decide) hr

theorem Dev.canvasResult_get (d : Dev) (c r : Nat) {f : Fld} (hf : f.g ≠ .RAS_STAT) :
    (d.canvasResult c r).get f = d.get f := by
  rw [Dev.canvasResult]
  split <;> exact Dev.get_put_family _ _ _ _ _ _ _ _ hf

theorem Dev.canvasEnableEff_of_off {d : Dev} {c : Nat} (h : d.bitOf RAS_CTL.EN c = false) :
    d.canvasEnableEff c = if d.canvasCheck c = 1 then (d.canvasResult c (d.canvasCheck c)).putBit RAS_CTL.EN c true
      else d.canvasResult c (d.canvasCheck c) := if_neg (Bool.eq_false_iff.1 h)

theorem exec_canvasEnable {s : State} (hw : s.dev.bus.writes = []) (c : Fin 2) (h : s.dev.bitOf RAS_CTL.EN c = false) :
    ∃ t, exec (.canvasEnable c) s = .next t
      ∧ (if c = 0 then t.dev.get RAS_STAT.RESULT0 else t.dev.get RAS_STAT.RESULT1) = s.dev.canvasCheck c
      ∧ t.dev.bitOf RAS_CTL.EN c = (s.dev.canvasCheck c == 1) := by
  have hshown := (if_congr (Fin.ext_iff (a := c) (b := 0)) rfl rfl).trans
    (s.dev.canvasResult_shown (s.dev.canvasCheck_lt c))
  refine ⟨_, State.row_of_empty hw _, ?_⟩
  dsimp only
  rw [Dev.canvasEnableEff_of_off h]
  by_cases h1 : s.dev.canvasCheck c = 1
  · rw [if_pos h1]
    have hc : (RAS_CTL.EN.whole && decide (c.val < RAS_CTL.EN.w)) = true := by fin_cases c <;> decide
    rw [Dev.bitOf_putBit_same _ _ _ _ hc, Dev.get_putBit_other _ _ _ _ RAS_STAT.RESULT0 _ _ _ (by decide) (by decide),
      Dev.get_putBit_other _ _ _ _ RAS_STAT.RESULT1 _ _ _ (by decide) (by decide)]
    exact ⟨hshown, by rw [h1]; rfl⟩
  · rw [if_neg h1]
    exact ⟨hshown, ((Dev.bitOf_of_get (Dev.canvasResult_get _ _ _ (by decide)) _).trans h).trans
      (beq_eq_false_iff_ne.2 h1).symm⟩

theorem exec_rasGo {s : State} (hw : s.dev.bus.writes = []) (c : Fin 2) (h : s.dev.bitOf RAS_CTL.MODE c = true) :
    ∃ t, exec (.rasGo c) s = .next t ∧ (t.dev.ras.canvas.get c).due = true ∧ t.dev.regs = s.dev.regs := by
  refine ⟨_, State.row_of_empty hw _, ?_⟩
  dsimp only
  rw [Dev.rasGoEff, if_pos h]
  exact ⟨by rw [Dev.updCanvas_canvas_same], rfl⟩

theorem Dev.canvasCfg_putBit (d : Dev) (f : Fld) (n : Nat) (b : Bool) (c : Nat) (h : f.g = .RAS_STAT) :
    (d.putBit f n b).canvasCfg c = d.canvasCfg c := by
  have hget : ∀ f' : Fld, f'.g ≠ .RAS_STAT → (d.putBit f n b).get f' c = d.get f' c := fun f' h' => by
    rw [Dev.putBit]
    split
    · rfl
    · exact Dev.get_put_family _ _ _ _ _ _ _ _ (h ▸ h')
  simp (disch := decide) only [Dev.canvasCfg, hget]

theorem Dev.planes_putBit (d : Dev) (f : Fld) (n : Nat) (b : Bool) (c : Nat) (h : f.g = .RAS_STAT) :
    (d.putBit f n b).planes c = d.planes c := by
  have hget : ∀ f' : Fld, f'.g ≠ .RAS_STAT → ∀ p, (d.putBit f n b).get f' p = d.get f' p := fun f' h' p => by
    rw [Dev.putBit]
    split
    · rfl
    · exact Dev.get_put_family _ _ _ _ _ _ _ _ (h ▸ h')
  simp (disch := decide) only [Dev.planes, Dev.flag, hget]

theorem exec_passStart {s : State} (hw : s.dev.bus.writes = []) (c : Fin 2) (hen : s.dev.bitOf RAS_CTL.EN c = true)
    (hpd : s.dev.pdOn 84 = true) (hbusy : s.dev.bitOf RAS_STAT.BUSY c = false) (hback : s.dev.backFree c = true)
    (hdue : s.dev.bitOf RAS_CTL.MODE c = false ∨ (s.dev.ras.canvas.get c).due = true) :
    ∃ t, exec (.passStart c) s = .next t ∧ t.dev.bitOf RAS_STAT.BUSY c = true
      ∧ t.dev.ras.canvas.get c = { s.dev.ras.canvas.get c with
          due := false, start := s.dev.now, cfg := s.dev.canvasCfg c, planes := s.dev.planes c }
      ∧ t.dev.ras.mem = s.dev.ras.mem := by
  refine ⟨_, State.row_of_empty hw _, ?_⟩
  dsimp only
  have hstart : (s.dev.bitOf RAS_CTL.EN c && s.dev.pdOn 84 && ! s.dev.bitOf RAS_STAT.BUSY c && s.dev.backFree c
      && (! s.dev.bitOf RAS_CTL.MODE c || (s.dev.ras.canvas.get c).due)) = true := by
    simp only [hen, hpd, hbusy, hback, Bool.true_and, Bool.not_false, Bool.or_eq_true, Bool.not_eq_true']
    exact hdue
  rw [Dev.passStartEff, if_pos hstart]
  refine ⟨?_, ?_, ?_⟩
  · exact (Dev.bitOf_of_get (Dev.updCanvas_get _ _ _ _ _ _ _) _).trans
      (Dev.bitOf_putBit_same _ _ _ _ (by fin_cases c <;> decide))
  · rw [Dev.updCanvas_canvas_same, Dev.putBit_ras]
  · rw [Dev.updCanvas, Dev.putBit_ras]
    rfl

/-- The frame in which the pass of canvas `c` ends: 64 pixels a frame. -/
def Dev.passEndAt (d : Dev) (c : Nat) : Nat :=
  (d.ras.canvas.get c).start + ((d.ras.canvas.get c).cfg.getD 0 0 * (d.ras.canvas.get c).cfg.getD 1 0 + 63) / 64

/-- The outputs that follow canvas `c` have the changed tiles to push. -/
def Dev.tilesDirty (d : Dev) (c : Nat) (changed : List Nat) : Dev :=
  (List.range 2).foldl (fun d x =>
    if d.outFollows x c then
      d.updOut x fun o => { o with dirty := o.dirty ++ changed.filter fun t => ! o.dirty.contains t
                                   dueAt := if o.dirty = [] then d.now else o.dueAt }
    else d) d

/-- A pass is over, the layers' errors shown and the store written: its result shows with the buffers as they were, or
with the buffers exchanged (R411). -/
def Dev.passShown (d : Dev) (c front : Nat) (changed : List Nat) : Dev :=
  if changed = [] then
    if d.bitOf RAS_STAT.STATIC c then d else (d.putBit RAS_STAT.STATIC c true).raise 593
  else
    let d := (d.putBit RAS_STAT.FRONT c (front == 0)).putBit RAS_STAT.STATIC c false
    ((d.updCanvas c fun x => { x with flips := x.flips + 1 }).tilesDirty c changed).raise 592

/-- The module when the pass of canvas `c` is over, before the store is written. -/
def Dev.passOver (d : Dev) (c : Nat) : Dev := (d.advanceTo (d.passEndAt c)).layerErrors c

/-- The module at the end of the pass that has written `mem` and changed tiles. -/
def Dev.passDone (d : Dev) (c : Nat) (mem : Memory) (changed : List Nat) : Dev :=
  ((d.setRas { d.ras with mem := mem }).putBit RAS_STAT.BUSY c false).passShown c (d.bitOf RAS_STAT.FRONT c).toNat changed

/-- A pass ends with what it has changed, whatever that is. -/
theorem Dev.passEndEff_of_busy {d : Dev} {c : Nat} (h : d.bitOf RAS_STAT.BUSY c = true) :
    ∃ mem changed, d.passEndEff c = (d.passOver c).passDone c mem changed := by
  suffices hP : ∀ P : Dev → Prop, (∀ mem changed, P ((d.passOver c).passDone c mem changed)) → P (d.passEndEff c) from
    hP (fun e => ∃ mem changed, e = (d.passOver c).passDone c mem changed) fun mem changed => ⟨mem, changed, rfl⟩
  intro P hP
  rw [Dev.passEndEff, if_neg (by rw [h]; exact Bool.false_ne_true)]
  extract_lets cv w h d front fb bb tw tiles pixels changed mem d'
  clear_value changed mem
  exact hP mem changed

theorem Dev.tilesDirty_kept (d : Dev) (c : Nat) (changed : List Nat) :
    (d.tilesDirty c changed).regs = d.regs ∧ (d.tilesDirty c changed).now = d.now
      ∧ (d.tilesDirty c changed).ras.canvas = d.ras.canvas :=
  foldl_invariant (fun e : Dev => e.regs = d.regs ∧ e.now = d.now ∧ e.ras.canvas = d.ras.canvas) _ _ ⟨rfl, rfl, rfl⟩
    fun e x _ he => by
      split
      · exact he
      · exact he

theorem Dev.passShown_shows (d : Dev) {c : Nat} (hc : c < 2) (changed : List Nat) :
    (d.passShown c (d.bitOf RAS_STAT.FRONT c).toNat changed).now = d.now
      ∧ (d.passShown c (d.bitOf RAS_STAT.FRONT c).toNat changed).bitOf RAS_STAT.BUSY c = d.bitOf RAS_STAT.BUSY c
      ∧ (((d.passShown c (d.bitOf RAS_STAT.FRONT c).toNat changed).bitOf RAS_STAT.STATIC c = true
          ∧ (d.passShown c (d.bitOf RAS_STAT.FRONT c).toNat changed).bitOf RAS_STAT.FRONT c = d.bitOf RAS_STAT.FRONT c
          ∧ (d.passShown c (d.bitOf RAS_STAT.FRONT c).toNat changed).ras = d.ras)
        ∨ ((d.passShown c (d.bitOf RAS_STAT.FRONT c).toNat changed).bitOf RAS_STAT.STATIC c = false
          ∧ (d.passShown c (d.bitOf RAS_STAT.FRONT c).toNat changed).bitOf RAS_STAT.FRONT c = ! d.bitOf RAS_STAT.FRONT c
          ∧ ((d.passShown c (d.bitOf RAS_STAT.FRONT c).toNat changed).ras.canvas.get c).flips
            = (d.ras.canvas.get c).flips + 1
          ∧ (d.passShown c (d.bitOf RAS_STAT.FRONT c).toNat changed).raised d.now 592)) := by
  have hstatic : ∀ (e : Dev) (b : Bool), (e.putBit RAS_STAT.STATIC c b).bitOf RAS_STAT.STATIC c = b := fun e b =>
    Dev.bitOf_putBit_same _ _ _ _ (Bool.and_eq_true_iff.2 ⟨by decide, decide_eq_true hc⟩)
  have hfront : ∀ (e : Dev) (b : Bool), (e.putBit RAS_STAT.FRONT c b).bitOf RAS_STAT.FRONT c = b := fun e b =>
    Dev.bitOf_putBit_same _ _ _ _ (Bool.and_eq_true_iff.2 ⟨by decide, decide_eq_true hc⟩)
  rw [Dev.passShown]
  by_cases hchanged : changed = []
  · rw [if_pos hchanged]
    split
    · next h => exact ⟨rfl, rfl, Or.inl ⟨h, rfl, rfl⟩⟩
    · refine ⟨?_, ?_, Or.inl ⟨?_, ?_, ?_⟩⟩
      · rw [Dev.raise_now, Dev.putBit_now]
      · rw [Dev.bitOf_of_get (Dev.raise_get _ _ _ _ _ _), Dev.bitOf_putBit_other _ _ _ _ _ _ (by decide) (by decide)]
      · rw [Dev.bitOf_of_get (Dev.raise_get _ _ _ _ _ _), hstatic]
      · rw [Dev.bitOf_of_get (Dev.raise_get _ _ _ _ _ _), Dev.bitOf_putBit_other _ _ _ _ _ _ (by decide) (by decide)]
      · rw [Dev.raise_ras, Dev.putBit_ras]
  · rw [if_neg hchanged]
    dsimp only
    generalize hd : ((d.putBit RAS_STAT.FRONT c ((d.bitOf RAS_STAT.FRONT c).toNat == 0)).putBit RAS_STAT.STATIC c false) = e
    obtain ⟨hregs, hnow, hcanvas⟩ := (e.updCanvas c fun x => { x with flips := x.flips + 1 }).tilesDirty_kept c changed
    have hnow' : e.now = d.now := by rw [← hd, Dev.putBit_now, Dev.putBit_now]
    have hbit : ∀ f : Fld, (((e.updCanvas c fun x => { x with flips := x.flips + 1 }).tilesDirty c changed).raise 592).bitOf f c
        = e.bitOf f c := fun f =>
      Dev.bitOf_of_get (Dev.get_congr ((Dev.raise_regs _ _).trans (hregs.trans (Dev.updCanvas_regs _ _ _))) _ _ _ _) c
    refine ⟨?_, ?_, Or.inr ⟨?_, ?_, ?_, ?_⟩⟩
    · rw [Dev.raise_now, hnow, Dev.updCanvas_now, hnow']
    · rw [hbit, ← hd, Dev.bitOf_putBit_other _ _ _ _ _ _ (by decide) (by decide),
        Dev.bitOf_putBit_other _ _ _ _ _ _ (by decide) (by decide)]
    · rw [hbit, ← hd, hstatic]
    · rw [hbit, ← hd, Dev.bitOf_putBit_other _ _ _ _ _ _ (by decide) (by decide), hfront]
      cases d.bitOf RAS_STAT.FRONT c <;> rfl
    · rw [Dev.raise_ras, hcanvas, Dev.updCanvas_canvas_same, ← hd, Dev.putBit_ras, Dev.putBit_ras]
    · have hraised := ((e.updCanvas c fun x => { x with flips := x.flips + 1 }).tilesDirty c changed).raise_raised 592
      rwa [hnow, Dev.updCanvas_now, hnow'] at hraised

theorem Dev.layerErrors_front (d : Dev) (c n : Nat) :
    (d.layerErrors c).bitOf RAS_STAT.FRONT n = d.bitOf RAS_STAT.FRONT n :=
  Dev.bitOf_of_get (foldl_invariant (fun e : Dev => e.get RAS_STAT.FRONT = d.get RAS_STAT.FRONT) _ _ rfl fun e x _ he => by
    split
    · exact (Dev.get_putBit_other _ _ _ _ _ _ _ _ (by decide) (by decide)).trans he
    · exact he) n

theorem exec_passEnd {s : State} (hw : s.dev.bus.writes = []) (c : Fin 2) (h : s.dev.bitOf RAS_STAT.BUSY c = true) :
    ∃ t, exec (.passEnd c) s = .next t ∧ t.dev.bitOf RAS_STAT.BUSY c = false ∧ t.dev.now = max s.dev.now (s.dev.passEndAt c)
      ∧ ((t.dev.bitOf RAS_STAT.STATIC c = true ∧ t.dev.bitOf RAS_STAT.FRONT c = s.dev.bitOf RAS_STAT.FRONT c
            ∧ t.dev.ras.canvas.get c = s.dev.ras.canvas.get c)
        ∨ (t.dev.bitOf RAS_STAT.STATIC c = false ∧ t.dev.bitOf RAS_STAT.FRONT c = ! s.dev.bitOf RAS_STAT.FRONT c
            ∧ (t.dev.ras.canvas.get c).flips = (s.dev.ras.canvas.get c).flips + 1 ∧ t.dev.raised t.dev.now 592)) := by
  refine ⟨_, State.row_of_empty hw _, ?_⟩
  dsimp only
  obtain ⟨mem, changed, hend⟩ := Dev.passEndEff_of_busy h
  rw [Dev.passDone] at hend
  have hframe := (s.dev.advanceTo (s.dev.passEndAt c)).layerErrors_frame c
  have hnow : (s.dev.passOver c).now = max s.dev.now (s.dev.passEndAt c) :=
    (Dev.frame_now hframe (by decide)).trans (Dev.advanceTo_now _ _)
  have hras : (s.dev.passOver c).ras = s.dev.ras :=
    (Dev.frame_ras hframe (by decide) (by decide)).trans (Dev.advanceTo_ras _ _)
  have hfront : (s.dev.passOver c).bitOf RAS_STAT.FRONT c = s.dev.bitOf RAS_STAT.FRONT c :=
    (Dev.layerErrors_front _ _ _).trans (Dev.bitOf_of_get (Dev.advanceTo_get _ _ _ _ _ _) _)
  generalize s.dev.passOver c = d at hend hnow hras hfront
  generalize he : (d.setRas { d.ras with mem := mem }).putBit RAS_STAT.BUSY c false = e at hend
  have hefront : e.bitOf RAS_STAT.FRONT c = d.bitOf RAS_STAT.FRONT c := by
    rw [← he, Dev.bitOf_putBit_other _ _ _ _ _ _ (by decide) (by decide)]
    rfl
  have hebusy : e.bitOf RAS_STAT.BUSY c = false := by
    rw [← he, Dev.bitOf_putBit_same _ _ _ _ (by fin_cases c <;> decide)]
  have hecanvas : e.ras.canvas = s.dev.ras.canvas := by rw [← he, Dev.putBit_ras, ← hras, Dev.setRas_ras]
  have henow : e.now = max s.dev.now (s.dev.passEndAt c) := by rw [← he, Dev.putBit_now, Dev.setRas_now, hnow]
  rw [← hefront] at hend hfront
  obtain ⟨hnow', hbusy', hcases⟩ := e.passShown_shows c.isLt changed
  rw [hend, hbusy', hebusy, hnow', henow, ← hfront, ← hecanvas]
  rw [henow] at hcases
  refine ⟨rfl, rfl, hcases.imp_left fun ⟨hs, hf, hr⟩ => ⟨hs, hf, by rw [hr]⟩⟩

end Sys2Proof.Machine

/-! ## Commits, latch points, pushes, repairs and the link of DA (18_raster_and_display.md R413-R424) -/

namespace Sys2Proof.Machine

-- One proof at a time: the text is compiled within a fixed memory.
set_option Elab.async false

/-! ### Commits (R413, R417) -/

theorem Dev.commitCheck_lt (d : Dev) (named : List Nat) : d.commitCheck named < 2 ^ 4 := by
  simp only [Dev.commitCheck]
  split_ifs <;> decide

theorem Dev.dpyCommit_enabled {d : Dev} {x : Nat} (hcheck : d.commitCheck [x] = 1) (hen : d.flag DPY_CTL.EN x = true) :
    d.dpyCommit [x] = (d.put DPY_STAT.RESULT 1 x).updOut x fun o => { o with commit := some (d.now, d.shadow x) } := by
  rw [Dev.dpyCommit, hcheck, List.foldl_cons, List.foldl_nil, if_neg (by decide), if_pos hen]

theorem Dev.dpyCommit_disabled {d : Dev} {x : Nat} (hcheck : d.commitCheck [x] = 1) (hen : d.flag DPY_CTL.EN x = false) :
    d.dpyCommit [x] = (d.put DPY_STAT.RESULT 2 x).updOut x fun o => { o with act := d.shadow x, next := none } := by
  rw [Dev.dpyCommit, hcheck, List.foldl_cons, List.foldl_nil, if_neg (by decide), if_neg (by rw [hen]; exact Bool.false_ne_true)]

theorem Dev.dpyCommit_refused {d : Dev} {x : Nat} (hcheck : d.commitCheck [x] ≠ 1) :
    d.dpyCommit [x]
      = ((d.put DPY_STAT.RESULT (d.commitCheck [x]) x).count DPY_CNT_REFUSED.COUNT x).raise (598 + 6 * x) := by
  rw [Dev.dpyCommit, List.foldl_cons, List.foldl_nil, if_pos hcheck]

theorem exec_dpyCommitA_enabled {s : State} (hw : s.dev.bus.writes = []) (hcheck : s.dev.commitCheck [0] = 1)
    (hen : s.dev.flag DPY_CTL.EN 0 = true) :
    ∃ t, exec .dpyCommitA s = .next t ∧ t.dev.get DPY_STAT.RESULT 0 = 1
      ∧ t.dev.ras.out.get 0 = { s.dev.ras.out.get 0 with commit := some (s.dev.now, s.dev.shadow 0) } := by
  refine ⟨_, State.row_of_empty hw _, ?_⟩
  dsimp only
  rw [Dev.dpyCommitAEff, Dev.dpyCommit_enabled hcheck hen, Dev.updOut_get, Dev.get_put_lt _ _ _ _ (by decide) (by decide),
    Dev.updOut_out_same, Dev.put_ras]
  exact ⟨rfl, rfl⟩

theorem exec_dpyCommitB_disabled {s : State} (hw : s.dev.bus.writes = []) (hcheck : s.dev.commitCheck [1] = 1)
    (hen : s.dev.flag DPY_CTL.EN 1 = false) :
    ∃ t, exec .dpyCommitB s = .next t ∧ t.dev.get DPY_STAT.RESULT 1 = 2
      ∧ t.dev.ras.out.get 1 = { s.dev.ras.out.get 1 with act := s.dev.shadow 1, next := none } := by
  refine ⟨_, State.row_of_empty hw _, ?_⟩
  dsimp only
  rw [Dev.dpyCommitBEff, Dev.dpyCommit_disabled hcheck hen, Dev.updOut_get, Dev.get_put_lt _ _ _ _ (by decide) (by decide),
    Dev.updOut_out_same, Dev.put_ras]
  exact ⟨rfl, rfl⟩

theorem exec_dpyCommit (s : State) (hw : s.dev.bus.writes = []) (x : Fin 2) :
    exec (if x = 0 then .dpyCommitA else .dpyCommitB) s = .next { s with dev := s.dev.dpyCommit [x.val] } := by
  fin_cases x
  · exact State.row_of_empty hw _
  · exact State.row_of_empty hw _

theorem exec_dpyCommit_refused {s : State} (hw : s.dev.bus.writes = []) (x : Fin 2) (hcheck : s.dev.commitCheck [x.val] ≠ 1) :
    ∃ t, exec (if x = 0 then .dpyCommitA else .dpyCommitB) s = .next t
      ∧ t.dev.get DPY_STAT.RESULT x = s.dev.commitCheck [x.val] ∧ t.dev.ras = s.dev.ras
      ∧ t.dev.get DPY_CNT_REFUSED.COUNT x
        = min (2 ^ DPY_CNT_REFUSED.COUNT.w - 1) (s.dev.get DPY_CNT_REFUSED.COUNT x + 1)
      ∧ t.dev.raised s.dev.now (598 + 6 * x) := by
  refine ⟨_, exec_dpyCommit s hw x, ?_⟩
  dsimp only
  rw [Dev.dpyCommit_refused hcheck, Dev.raise_get, Dev.raise_get, Dev.raise_ras, Dev.count_ras, Dev.put_ras,
    Dev.get_count_other _ _ _ _ _ _ _ _ _ (by decide), Dev.get_put_lt _ _ _ _ (by decide) (Dev.commitCheck_lt _ _),
    Dev.get_count_eq _ _ _ _ _ (by decide) (by decide), Dev.get_put_family _ _ _ _ _ _ _ _ (by decide)]
  refine ⟨rfl, rfl, rfl, ?_⟩
  have h := ((s.dev.put DPY_STAT.RESULT (s.dev.commitCheck [x.val]) x).count DPY_CNT_REFUSED.COUNT x).raise_raised (598 + 6 * x)
  rwa [Dev.count_now, Dev.put_now] at h

/-! ### Lines and latch points (R414, R415, R418) -/

/-- A latch point passes: the line starts anew. -/
def Dev.lineStarts (d : Dev) (x : Nat) : Dev :=
  ((d.crcShow x).raise (596 + 6 * x)).updOut x fun o =>
    { o with lineAt := d.now, line := outVAct o.act, porch := none, total := 0, repeated := 0, aborted := false }

theorem Dev.crcShow_now (d : Dev) (x : Nat) : (d.crcShow x).now = d.now := Dev.frame_now (d.crcShow_frame x) (by decide)

theorem Dev.lineStarts_out (d : Dev) (x : Nat) :
    (d.lineStarts x).ras.out.get x = { d.ras.out.get x with
      lineAt := d.now, line := outVAct (d.ras.out.get x).act, porch := none, total := 0, repeated := 0, aborted := false } := by
  rw [Dev.lineStarts, Dev.updOut_out_same, Dev.raise_ras, Dev.frame_ras (d.crcShow_frame x) (by decide) (by decide)]

theorem Dev.lineStarts_now (d : Dev) (x : Nat) : (d.lineStarts x).now = d.now := by
  rw [Dev.lineStarts, Dev.updOut_now, Dev.raise_now, Dev.crcShow_now]

theorem Dev.lineStarts_raised (d : Dev) (x : Nat) : (d.lineStarts x).raised d.now (596 + 6 * x) := by
  have h := (d.crcShow x).raise_raised (596 + 6 * x)
  rwa [Dev.crcShow_now] at h

/-- The latch point takes a commit that has arrived. -/
def Dev.commitLatched (d : Dev) (x : Nat) (l : List Nat) : Dev :=
  ((d.updOut x fun o => { o with commit := none, next := some l, stopped := x == 0 && timingChanges o.act l }).put
    DPY_STAT.RESULT 2 x).raise (597 + 6 * x)

section
variable {d : Dev} {x tick : Nat}

theorem Dev.vblankEff_arrived {l : List Nat} (hruns : d.outRuns x = true) (hvideo : d.cmdMode x = false)
    (hstopped : (d.ras.out.get x).stopped = false) (harrived : d.commitArrived x tick = some l) :
    d.vblankEff x tick = (d.lineStarts x).commitLatched x l := by
  rw [Dev.vblankEff, hruns, hvideo, hstopped, harrived]
  rfl

theorem Dev.vblankEff_waiting (hruns : d.outRuns x = true) (hvideo : d.cmdMode x = false)
    (hstopped : (d.ras.out.get x).stopped = false) (harrived : d.commitArrived x tick = none) :
    d.vblankEff x tick = d.lineStarts x := by
  rw [Dev.vblankEff, hruns, hvideo, hstopped, harrived]
  rfl

end

theorem exec_vblank_arrived {s : State} (hw : s.dev.bus.writes = []) (x : Fin 2) (tick : Fin 64) (l : List Nat)
    (harrived : s.dev.commitArrived x tick = some l) (hruns : s.dev.outRuns x = true) (hvideo : s.dev.cmdMode x = false)
    (hstopped : (s.dev.ras.out.get x).stopped = false) :
    ∃ t, exec (.vblank x tick) s = .next t ∧ t.dev.get DPY_STAT.RESULT x = 2
      ∧ (t.dev.ras.out.get x).commit = none ∧ (t.dev.ras.out.get x).next = some l
      ∧ (t.dev.ras.out.get x).lineAt = s.dev.now
      ∧ t.dev.raised s.dev.now (596 + 6 * x) ∧ t.dev.raised s.dev.now (597 + 6 * x) := by
  refine ⟨_, State.row_of_empty hw _, ?_⟩
  dsimp only
  have hraised := ((((s.dev.lineStarts x).updOut x fun o =>
    { o with commit := none, next := some l, stopped := x.val == 0 && timingChanges o.act l }).put
      DPY_STAT.RESULT 2 x).raise_raised (597 + 6 * x))
  rw [Dev.put_now, Dev.updOut_now, Dev.lineStarts_now] at hraised
  rw [Dev.vblankEff_arrived hruns hvideo hstopped harrived, Dev.commitLatched, Dev.raise_get,
    Dev.get_put_lt _ _ _ _ (by decide) (by decide), Dev.raise_ras, Dev.put_ras, Dev.updOut_out_same, Dev.lineStarts_out]
  refine ⟨rfl, rfl, rfl, rfl, Dev.raised_raise ?_ _, hraised⟩
  refine (Dev.raised_congr ?_ _ _).2 (s.dev.lineStarts_raised x)
  rw [Dev.put_evr, Dev.updOut_evr]

theorem exec_vblank_waiting {s : State} (hw : s.dev.bus.writes = []) (x : Fin 2) (tick : Fin 64)
    (harrived : s.dev.commitArrived x tick = none) (hruns : s.dev.outRuns x = true) (hvideo : s.dev.cmdMode x = false)
    (hstopped : (s.dev.ras.out.get x).stopped = false) :
    ∃ t, exec (.vblank x tick) s = .next t ∧ (t.dev.ras.out.get x).lineAt = s.dev.now
      ∧ (t.dev.ras.out.get x).line = outVAct (s.dev.ras.out.get x).act
      ∧ (t.dev.ras.out.get x).commit = (s.dev.ras.out.get x).commit
      ∧ t.dev.raised s.dev.now (596 + 6 * x) := by
  refine ⟨_, State.row_of_empty hw _, ?_⟩
  dsimp only
  rw [Dev.vblankEff_waiting hruns hvideo hstopped harrived, Dev.lineStarts_out]
  exact ⟨rfl, rfl, rfl, s.dev.lineStarts_raised x⟩

theorem exec_vrrPorchEnd {s : State} (hw : s.dev.bus.writes = []) (hruns : s.dev.outRuns 0 = true)
    (hstopped : (s.dev.ras.out.get 0).stopped = false) (hvrr : s.dev.vrrOn 0 = true) (hporch : (s.dev.ras.out.get 0).porch = none)
    (htotal : (s.dev.ras.out.get 0).total = 0) (hflip : s.dev.flipPending 0 = false) :
    ∃ t, exec .vrrPorchEnd s = .next t
      ∧ (t.dev.ras.out.get 0).porch = some (bitsOf ((s.dev.ras.out.get 0).act.getD 4 0) 0 13
          - outVsw (s.dev.ras.out.get 0).act - outVbp (s.dev.ras.out.get 0).act - 1) := by
  refine ⟨_, State.row_of_empty hw _, ?_⟩
  dsimp only
  rw [Dev.vrrPorchEndEff, hruns, hstopped, hvrr, hporch, htotal, hflip]
  exact congrArg Output.porch (Dev.updOut_out_same _ _ _)

/-- A sample of the front buffer is all that changes of an output. -/
theorem Dev.outSample_out (d : Dev) (x : Nat) : ∃ seen shown,
    (d.outSample x).ras.out.get x = { d.ras.out.get x with seen := seen, shown := shown } := by
  rw [Dev.outSample]
  dsimp only
  split
  · exact ⟨_, _, Dev.updOut_out_same _ _ _⟩
  · exact ⟨_, _, rfl⟩

/-- The sampling line of an output whose active values are `l`: the last of its front porch. -/
def porchLine (l : List Nat) : Nat := outVAct l + outVfp l - 1

/-- The values latched act for the frame that follows the sampling line, of the timing `l`. -/
def Output.latched (l : List Nat) (o : Output) : Output :=
  { o with porch := some (porchLine l), total := porchLine l + 1 + outVsw l + outVbp l, act := o.next.getD o.act, next := none }

/-- A main stream that had stopped starts anew in frame `k`. -/
def Output.restarted (k : Nat) (o : Output) : Output :=
  { o with stopped := false, act := o.next.getD o.act, next := none, lineAt := k, line := 0
           total := outVTotal (o.next.getD o.act) }

section
variable {d : Dev} {x : Nat}

theorem Dev.frontBufferSampleEff_line (hruns : d.outRuns x = true) (hvideo : d.cmdMode x = false) (hvrr : d.vrrOn x = false)
    (hstopped : (d.ras.out.get x).stopped = false) (htotal : (d.ras.out.get x).total = 0) :
    ∃ k, d.frontBufferSampleEff x
      = ((d.advanceTo k).updOut x (Output.latched (d.ras.out.get x).act)).outSample x := by
  simp only [Dev.frontBufferSampleEff, hruns, hvideo, htotal, hstopped, hvrr, Bool.not_true, Bool.or_false, bne_self_eq_false,
    Bool.false_eq_true, if_false]
  exact ⟨_, rfl⟩

theorem Dev.frontBufferSampleEff_restart (hruns : d.outRuns x = true) (hvideo : d.cmdMode x = false)
    (hstopped : (d.ras.out.get x).stopped = true) (htotal : (d.ras.out.get x).total = 0) :
    d.frontBufferSampleEff x = (d.updOut x (Output.restarted d.now)).outSample x := by
  rw [Dev.frontBufferSampleEff, hruns, hvideo, htotal, hstopped]
  rfl

end

theorem exec_frontBufferSample {s : State} (hw : s.dev.bus.writes = []) (x : Fin 2) (hruns : s.dev.outRuns x = true)
    (hvideo : s.dev.cmdMode x = false) (hvrr : s.dev.vrrOn x = false) (hstopped : (s.dev.ras.out.get x).stopped = false)
    (htotal : (s.dev.ras.out.get x).total = 0) :
    ∃ t, exec (.frontBufferSample x) s = .next t ∧ (t.dev.ras.out.get x).next = none
      ∧ (t.dev.ras.out.get x).act = (s.dev.ras.out.get x).next.getD (s.dev.ras.out.get x).act
      ∧ (t.dev.ras.out.get x).total = outVAct (s.dev.ras.out.get x).act + outVfp (s.dev.ras.out.get x).act - 1 + 1
          + outVsw (s.dev.ras.out.get x).act + outVbp (s.dev.ras.out.get x).act := by
  refine ⟨_, State.row_of_empty hw _, ?_⟩
  dsimp only
  obtain ⟨k, heff⟩ := Dev.frontBufferSampleEff_line hruns hvideo hvrr hstopped htotal
  obtain ⟨seen, shown, hout⟩ := ((s.dev.advanceTo k).updOut x (Output.latched (s.dev.ras.out.get x).act)).outSample_out x
  rw [heff, hout, Dev.updOut_out_same, Dev.advanceTo_ras]
  exact ⟨rfl, rfl, rfl⟩

theorem exec_frontBufferSample_restart {s : State} (hw : s.dev.bus.writes = []) (hruns : s.dev.outRuns 0 = true)
    (hstopped : (s.dev.ras.out.get 0).stopped = true) (htotal : (s.dev.ras.out.get 0).total = 0) :
    ∃ t, exec (.frontBufferSample 0) s = .next t ∧ (t.dev.ras.out.get 0).stopped = false
      ∧ (t.dev.ras.out.get 0).act = (s.dev.ras.out.get 0).next.getD (s.dev.ras.out.get 0).act
      ∧ (t.dev.ras.out.get 0).next = none ∧ (t.dev.ras.out.get 0).lineAt = s.dev.now
      ∧ (t.dev.ras.out.get 0).line = 0 := by
  refine ⟨_, State.row_of_empty hw (Dev.frontBufferSampleEff 0), ?_⟩
  dsimp only
  obtain ⟨seen, shown, hout⟩ := (s.dev.updOut 0 (Output.restarted s.dev.now)).outSample_out 0
  rw [Dev.frontBufferSampleEff_restart hruns rfl hstopped htotal, hout, Dev.updOut_out_same]
  exact ⟨rfl, rfl, rfl, rfl, rfl⟩

/-! ### Command mode (R420) -/

/-- A push samples the front buffer; what it pushes is on its way and no more due. -/
theorem Dev.push_out (d : Dev) (x : Nat) {b : Nat × Nat × Nat × Nat} (h : d.pushBox x = some b) :
    ((d.push x).ras.out.get x).pushed = some b ∧ ((d.push x).ras.out.get x).whole = false := by
  rw [Dev.push, h]
  dsimp only
  rw [Dev.updOut_out_same]
  exact ⟨rfl, rfl⟩

/-- A commit that has arrived acts at a TE edge. -/
def Dev.teLatch (d : Dev) (tick : Nat) : Dev :=
  match d.commitArrived 1 tick with
  | some l => ((d.updOut 1 fun o => { o with commit := none, act := l, whole := ! outFollow l }).put
      DPY_STAT.RESULT 2 1).raise 603
  | none => d

theorem Dev.teLatch_now (d : Dev) (tick : Nat) : (d.teLatch tick).now = d.now := by
  rw [Dev.teLatch]
  split
  · rw [Dev.raise_now, Dev.put_now, Dev.updOut_now]
  · rfl

theorem Dev.teEdgeEff_eq {d : Dev} (tick : Nat) (hruns : d.outRuns 1 = true) (hcmd : d.cmdMode 1 = true) :
    d.teEdgeEff tick = (((d.teLatch tick).push 1).updOut 1 fun o => { o with teAt := (d.teLatch tick).now }).raise 602 := by
  rw [Dev.teEdgeEff, hruns, hcmd]
  rfl

theorem exec_teEdge {s : State} (hw : s.dev.bus.writes = []) (tick : Fin 64) (hruns : s.dev.outRuns 1 = true)
    (hcmd : s.dev.cmdMode 1 = true) :
    ∃ t, exec (.teEdge tick) s = .next t ∧ (t.dev.ras.out.get 1).teAt = s.dev.now ∧ t.dev.raised s.dev.now 602 := by
  refine ⟨_, State.row_of_empty hw _, ?_⟩
  dsimp only
  have hraised := (((s.dev.teLatch tick).push 1).updOut 1 fun o => { o with teAt := (s.dev.teLatch tick).now }).raise_raised 602
  rw [Dev.updOut_now, Dev.frame_now ((s.dev.teLatch tick).push_frame 1) (by decide), Dev.teLatch_now] at hraised
  rw [Dev.teEdgeEff_eq _ hruns hcmd, Dev.raise_ras, Dev.updOut_out_same, Dev.teLatch_now]
  exact ⟨rfl, hraised⟩

theorem Dev.pushBox_advanceTo (d : Dev) (t x : Nat) : (d.advanceTo t).pushBox x = d.pushBox x := by
  simp only [Dev.pushBox, Dev.flipPending, Dev.advanceTo_ras]
  rfl

theorem Dev.teMissEff_due {d : Dev} (hruns : d.outRuns 1 = true) (hcmd : d.cmdMode 1 = true) (hdue : (d.pushBox 1).isNone = false) :
    d.teMissEff = (((d.advanceTo (max (d.ras.out.get 1).teAt (d.ras.out.get 1).dueAt
      + max 1 (d.get DPY_TE_TO.MS 1) * 1250000)).push 1).count DPY_CNT_TEMISS.COUNT 1).raise 607 := by
  simp only [Dev.teMissEff, hruns, hcmd, hdue, Bool.not_true, Bool.or_false, Bool.false_eq_true, if_false]

theorem exec_teMiss {s : State} (hw : s.dev.bus.writes = []) (hruns : s.dev.outRuns 1 = true) (hcmd : s.dev.cmdMode 1 = true)
    (hdue : s.dev.pushBox 1 ≠ none) :
    ∃ t, exec .teMiss s = .next t
      ∧ t.dev.now = max s.dev.now (max (s.dev.ras.out.get 1).teAt (s.dev.ras.out.get 1).dueAt
          + max 1 (s.dev.get DPY_TE_TO.MS 1) * 1250000)
      ∧ (t.dev.ras.out.get 1).pushed = s.dev.pushBox 1 ∧ (t.dev.ras.out.get 1).whole = false
      ∧ t.dev.get DPY_CNT_TEMISS.COUNT 1 = min (2 ^ DPY_CNT_TEMISS.COUNT.w - 1) (s.dev.get DPY_CNT_TEMISS.COUNT 1 + 1)
      ∧ t.dev.raised t.dev.now 607 := by
  obtain ⟨b, hb⟩ := Option.ne_none_iff_exists'.1 hdue
  refine ⟨_, State.row_of_empty hw _, ?_⟩
  dsimp only
  rw [Dev.teMissEff_due hruns hcmd (by rw [hb]; rfl)]
  generalize max (s.dev.ras.out.get 1).teAt (s.dev.ras.out.get 1).dueAt + max 1 (s.dev.get DPY_TE_TO.MS 1) * 1250000 = k
  have hframe := (s.dev.advanceTo k).push_frame 1
  obtain ⟨hpushed, hwhole⟩ := (s.dev.advanceTo k).push_out 1 ((Dev.pushBox_advanceTo _ _ _).trans hb)
  have hraised := (((s.dev.advanceTo k).push 1).count DPY_CNT_TEMISS.COUNT 1).raise_raised 607
  rw [Dev.raise_now, Dev.raise_ras, Dev.count_ras, hpushed, hb, Dev.raise_get,
    Dev.get_count_eq _ _ _ _ _ (by decide) (by decide), Dev.frame_get hframe _ _ _ _ (by decide), Dev.advanceTo_get]
  refine ⟨?_, rfl, hwhole, rfl, hraised⟩
  rw [Dev.count_now, Dev.frame_now hframe (by decide), Dev.advanceTo_now]

/-! ### Repairs and underruns (R421) -/

/-- The passes under way wait for a repair of `stall` frames. -/
def Dev.passesWait (d : Dev) (stall : Nat) : Dev :=
  (List.range 2).foldl (fun d c =>
    if d.bitOf RAS_STAT.BUSY c then d.updCanvas c fun v => { v with start := v.start + stall } else d) d

theorem Dev.passesWait_kept (d : Dev) (stall : Nat) :
    (d.passesWait stall).regs = d.regs ∧ (d.passesWait stall).now = d.now :=
  foldl_invariant (fun e : Dev => e.regs = d.regs ∧ e.now = d.now) _ _ ⟨rfl, rfl⟩ fun e x _ he => by
    split
    · exact he
    · exact he

/-- A pass waits at most as long as the repair takes. -/
theorem Dev.passesWait_start (d : Dev) (stall : Nat) (c : Fin 2) :
    (d.ras.canvas.get c).start ≤ ((d.passesWait stall).ras.canvas.get c).start
      ∧ ((d.passesWait stall).ras.canvas.get c).start ≤ (d.ras.canvas.get c).start + stall := by
  have hround : ∀ (e : Dev) (n : Nat),
      ((if e.bitOf RAS_STAT.BUSY n then e.updCanvas n fun v => { v with start := v.start + stall } else e).ras.canvas.get c).start
        = (e.ras.canvas.get c).start + if e.bitOf RAS_STAT.BUSY n ∧ n = c then stall else 0 := by
    intro e n
    by_cases hb : e.bitOf RAS_STAT.BUSY n = true
    · rw [if_pos hb]
      by_cases hn : n = c
      · subst hn
        rw [Dev.updCanvas_canvas_same, if_pos ⟨hb, rfl⟩]
      · rw [Dev.updCanvas_canvas_ne _ (Ne.symm hn), if_neg fun h => hn h.2, Nat.add_zero]
    · rw [if_neg hb, if_neg fun h => hb h.1, Nat.add_zero]
  have hrange : List.range 2 = [0, 1] := rfl
  rw [Dev.passesWait, hrange, List.foldl_cons, List.foldl_cons, List.foldl_nil, hround, hround]
  fin_cases c
  · rw [if_neg (c := _ ∧ 1 = _) fun h => absurd h.2 (by decide)]
    split_ifs <;> omega
  · rw [if_neg (c := _ ∧ 0 = _) fun h => absurd h.2 (by decide)]
    split_ifs <;> omega

theorem exec_repair {s : State} (hw : s.dev.bus.writes = []) (c : Fin 2) :
    ∃ t, exec .repair s = .next t ∧ t.dev.raised s.dev.now 594
      ∧ t.dev.get RAS_CNT_REPAIR.COUNT = min (2 ^ RAS_CNT_REPAIR.COUNT.w - 1) (s.dev.get RAS_CNT_REPAIR.COUNT + 1)
      ∧ (s.dev.ras.canvas.get c).start ≤ (t.dev.ras.canvas.get c).start
      ∧ (t.dev.ras.canvas.get c).start ≤ (s.dev.ras.canvas.get c).start + 2500 := by
  refine ⟨_, State.row_of_empty hw _, ?_⟩
  dsimp only
  have heff : s.dev.repairEff
      = ((s.dev.drawn.passesWait (s.dev.freeVal.toNat % 2501)).count RAS_CNT_REPAIR.COUNT).raise 594 := rfl
  have hstall : s.dev.freeVal.toNat % 2501 ≤ 2500 := by omega
  generalize s.dev.freeVal.toNat % 2501 = stall at heff hstall
  obtain ⟨hregs, hnow⟩ := s.dev.drawn.passesWait_kept stall
  obtain ⟨hlow, hhigh⟩ := s.dev.drawn.passesWait_start stall c
  rw [heff, Dev.raise_ras, Dev.count_ras, Dev.raise_get, Dev.get_count_eq _ _ _ _ _ (by decide) (by decide), Dev.get_congr hregs]
  have hraised := ((s.dev.drawn.passesWait stall).count RAS_CNT_REPAIR.COUNT).raise_raised 594
  rw [Dev.count_now, hnow] at hraised
  exact ⟨hraised, rfl, hlow, hhigh.trans (Nat.add_le_add_left hstall _)⟩

theorem exec_fetchUnderrun {s : State} (hw : s.dev.bus.writes = []) (x : Fin 2) (n : BitVec 24) (hruns : s.dev.outRuns x = true)
    (haborted : (s.dev.ras.out.get x).aborted = false) (hn : n ≠ 0) (hrepeated : (s.dev.ras.out.get x).repeated = 0)
    (hlim : n.toNat ≤ bitsOf ((s.dev.ras.out.get x).act.getD 8 0) 0 24) :
    ∃ t, exec (.fetchUnderrun x n) s = .next t ∧ (t.dev.ras.out.get x).repeated = n.toNat
      ∧ (t.dev.ras.out.get x).aborted = false ∧ t.dev.raised s.dev.now (599 + 6 * x)
      ∧ t.dev.get DPY_CNT_UNDER.COUNT x
        = min (2 ^ DPY_CNT_UNDER.COUNT.w - 1) (s.dev.get DPY_CNT_UNDER.COUNT x + n.toNat) := by
  refine ⟨_, State.row_of_empty hw _, ?_⟩
  dsimp only
  have hn' : (n.toNat == 0) = false := beq_eq_false_iff_ne.2 fun h => hn (BitVec.eq_of_toNat_eq h)
  have hall : min n.toNat (bitsOf ((s.dev.ras.out.get x).act.getD 8 0) 0 24 + 1 - 0) = n.toNat := by omega
  have heff : s.dev.fetchUnderrunEff x n.toNat
      = ((s.dev.count DPY_CNT_UNDER.COUNT x 0 n.toNat).raise (599 + 6 * x)).updOut x fun o =>
          { o with repeated := o.repeated + n.toNat } := by
    simp only [Dev.fetchUnderrunEff, hruns, haborted, hn', hrepeated, hall, Bool.not_true, Bool.or_false, Bool.false_eq_true,
      if_false, if_true, Nat.zero_add, if_neg (Nat.not_lt.2 hlim)]
  have hraised := (s.dev.count DPY_CNT_UNDER.COUNT x 0 n.toNat).raise_raised (599 + 6 * x)
  rw [Dev.count_now] at hraised
  rw [heff, Dev.updOut_out_same, Dev.raise_ras, Dev.count_ras, Dev.updOut_get, Dev.raise_get,
    Dev.get_count_eq _ _ _ _ _ (by decide) (by decide), haborted, hrepeated, Nat.zero_add]
  exact ⟨rfl, rfl, hraised, rfl⟩

/-! ### DA's link (R413, R424) -/

theorem exec_daHotPlug {s : State} (hw : s.dev.bus.writes = []) :
    ∃ t, exec .daHotPlug s = .next t ∧ (t.dev.ras.out.get 0).training = true ∧ t.dev.raised s.dev.now 601
      ∧ t.dev.regs = s.dev.regs := by
  refine ⟨_, State.row_of_empty hw _, ?_⟩
  dsimp only
  rw [Dev.daHotPlugEff, Dev.raise_ras, Dev.updOut_out_same, Dev.raise_regs]
  exact ⟨rfl, Dev.raise_raised _ _, rfl⟩

/-- The end of training, whatever it has come to. -/
def Dev.trainingOver (d : Dev) : Dev := (d.updOut 0 fun o => { o with training := false }).raise 601

theorem Dev.trainingOver_raised (d : Dev) : d.trainingOver.raised d.now 601 := Dev.raise_raised _ _

theorem Dev.trainingOver_out (d : Dev) : (d.trainingOver.ras.out.get 0).training = false := by
  rw [Dev.trainingOver, Dev.raise_ras, Dev.updOut_out_same]

theorem exec_daLinkTrained {s : State} (hw : s.dev.bus.writes = []) (rate : Fin 4) (lanes : Fin 3) :
    ∃ t, exec (.daLinkTrained (some (rate, lanes))) s = .next t ∧ t.dev.flag DPY_LINK.UP 0 = true
      ∧ t.dev.get DPY_LINK.RATE 0 = rate ∧ t.dev.get DPY_LINK.LANES 0 = 2 ^ lanes.val
      ∧ (t.dev.ras.out.get 0).training = false ∧ t.dev.raised s.dev.now 601 := by
  refine ⟨_, State.row_of_empty hw _, ?_⟩
  dsimp only
  have heff : s.dev.daLinkTrainedEff (some (rate.val, lanes.val))
      = ((s.dev.trainingOver.put DPY_LINK.RATE rate 0).put DPY_LINK.LANES (2 ^ lanes.val) 0).putb DPY_LINK.UP true 0 := rfl
  have hlanes : 2 ^ lanes.val < 2 ^ 3 := Nat.pow_lt_pow_right (by decide) lanes.isLt
  rw [Option.map_some, heff, Dev.flag_putb_whole _ _ _ _ _ _ (by decide), Dev.putb,
    Dev.get_put_other _ _ _ _ _ _ _ _ _ _ (by decide) (by decide), Dev.get_put_other _ _ _ _ _ _ _ _ _ _ (by decide) (by decide),
    Dev.get_put_lt _ _ _ _ (by decide) rate.isLt, Dev.get_put_other _ _ _ _ _ _ _ _ _ _ (by decide) (by decide),
    Dev.get_put_lt _ _ _ _ (by decide) hlanes, Dev.put_ras, Dev.put_ras, Dev.put_ras]
  exact ⟨rfl, rfl, rfl, s.dev.trainingOver_out, s.dev.trainingOver_raised⟩

theorem exec_daLinkLost {s : State} (hw : s.dev.bus.writes = []) :
    ∃ t, exec (.daLinkTrained none) s = .next t ∧ t.dev.flag DPY_LINK.UP 0 = false
      ∧ (t.dev.ras.out.get 0).training = false ∧ t.dev.raised s.dev.now 601 := by
  refine ⟨_, State.row_of_empty hw _, ?_⟩
  dsimp only
  have heff : s.dev.daLinkTrainedEff none
      = ((s.dev.trainingOver.put DPY_LINK.RATE 0 0).put DPY_LINK.LANES 0 0).putb DPY_LINK.UP false 0 := rfl
  rw [Option.map_none, heff, Dev.flag_putb_whole _ _ _ _ _ _ (by decide), Dev.putb, Dev.put_ras, Dev.put_ras, Dev.put_ras]
  exact ⟨rfl, s.dev.trainingOver_out, s.dev.trainingOver_raised⟩

/-- Settles O49: canvases, passes, commits, latch points, command mode, repairs and DA's link, row by row. -/
theorem rasterCommandsAct : Obligations.RasterCommandsAct := by
  intro s c x hw
  exact ⟨exec_canvasEnable hw c, exec_rasGo hw c, exec_passStart hw c, exec_passEnd hw c, exec_dpyCommitA_enabled hw,
    exec_dpyCommitB_disabled hw, exec_dpyCommit_refused hw x, exec_vblank_arrived hw x, exec_vblank_waiting hw x,
    exec_vrrPorchEnd hw, exec_frontBufferSample hw x, exec_teEdge hw, exec_teMiss hw, exec_repair hw c,
    exec_fetchUnderrun hw x, exec_daHotPlug hw, exec_daLinkTrained hw, exec_daLinkLost hw, exec_frontBufferSample_restart hw⟩

end Sys2Proof.Machine

/-! ## A pin of the trigger bus after an operation on it, or on another (17_multi_device_timing.md R387, R389) -/

namespace Sys2Proof.Machine

-- One proof at a time: the text is compiled within a fixed memory.
set_option Elab.async false

@[simp] theorem Dev.updPin_pin_same (d : Dev) (x : Nat) (f : SynPin → SynPin) :
    (d.updPin x f).syn.pin.get x = f (d.syn.pin.get x) := Tab.get_upd_same _ _ _

theorem Dev.updPin_pin_ne (d : Dev) {x y : Nat} (h : y ≠ x) (f : SynPin → SynPin) :
    (d.updPin x f).syn.pin.get y = d.syn.pin.get y := Tab.get_upd_ne _ h _

/-! ### What the pins of a module with the same registers are -/

section
variable {d d' : Dev} (h : d'.regs = d.regs) (x : Nat)
include h

theorem Dev.pinOwned_congr : d'.pinOwned x = d.pinOwned x := by rw [Dev.pinOwned, Dev.pinOwned, Dev.get_congr h]

theorem Dev.pinDriven_congr : d'.pinDriven x = d.pinDriven x := by
  simp only [Dev.pinDriven, Dev.flag, Dev.get_congr h, Dev.pinOwned_congr h]

theorem Dev.inPair_congr : d'.inPair x = d.inPair x := by simp only [Dev.inPair, Dev.flag, Dev.get_congr h]

end

/-! ### The level driven, pulses and the idle level -/

section
variable (d : Dev) (x b : Nat)

theorem Dev.pinDrive_regs (level : Bool) : (d.pinDrive x b level).regs = d.regs := by
  rw [Dev.pinDrive]
  split <;> rfl

theorem Dev.pinDrive_now (level : Bool) : (d.pinDrive x b level).now = d.now := by
  rw [Dev.pinDrive]
  split <;> rfl

theorem Dev.pinDrive_pin (level : Bool) :
    ∃ own, (d.pinDrive x b level).syn.pin.get x = { d.syn.pin.get x with out := level, own := own } := by
  rw [Dev.pinDrive]
  split
  · next h =>
    subst h
    exact ⟨_, rfl⟩
  · exact ⟨_, Dev.updPin_pin_same _ _ _⟩

theorem Dev.pinDrive_pin_ne (level : Bool) {y : Nat} (h : y ≠ x) :
    (d.pinDrive x b level).syn.pin.get y = d.syn.pin.get y := by
  rw [Dev.pinDrive]
  split
  · rfl
  · exact Dev.updPin_pin_ne _ h _

theorem Dev.pinPulse_regs (width : Nat) : (d.pinPulse x b width).regs = d.regs := d.pinDrive_regs x b true

theorem Dev.pinPulse_now (width : Nat) : (d.pinPulse x b width).now = d.now := d.pinDrive_now x b true

theorem Dev.pinPulse_pin (width : Nat) :
    ∃ own, (d.pinPulse x b width).syn.pin.get x
      = { d.syn.pin.get x with out := true, own := own, pulseEnd := some (b + width) } := by
  obtain ⟨own, h⟩ := d.pinDrive_pin x b true
  exact ⟨own, by rw [Dev.pinPulse, Dev.updPin_pin_same, h]⟩

theorem Dev.pinIdle_regs : (d.pinIdle x).regs = d.regs := d.pinDrive_regs x _ false

theorem Dev.pinIdle_now : (d.pinIdle x).now = d.now := d.pinDrive_now x _ false

theorem Dev.pinIdle_pin :
    ∃ own, (d.pinIdle x).syn.pin.get x
      = { d.syn.pin.get x with out := false, own := own, launches := [], pulseEnd := none, marks := [] } := by
  obtain ⟨own, h⟩ := d.pinDrive_pin x (d.now + 1) false
  exact ⟨own, by rw [Dev.pinIdle, Dev.updPin_pin_same, h]⟩

theorem Dev.pinIdle_pin_ne {y : Nat} (h : y ≠ x) : (d.pinIdle x).syn.pin.get y = d.syn.pin.get y := by
  rw [Dev.pinIdle, Dev.updPin_pin_ne _ h, Dev.pinDrive_pin_ne _ _ _ _ h]

theorem Dev.pinResume_regs : (d.pinResume x).regs = d.regs := by
  rw [Dev.pinResume]
  split <;> rfl

theorem Dev.pinResume_pin_ne {y : Nat} (h : y ≠ x) : (d.pinResume x).syn.pin.get y = d.syn.pin.get y := by
  rw [Dev.pinResume]
  split
  · exact Dev.updPin_pin_ne _ h _
  · rfl

/-- What a pin launches is all that a pin resumes with. -/
theorem Dev.pinResume_out : ((d.pinResume x).syn.pin.get x).out = (d.syn.pin.get x).out := by
  rw [Dev.pinResume]
  split
  · rw [Dev.pinRelaunch, Dev.updPin_pin_same]
  · rfl

end

/-! ### The delivery of an edge leaves the pins -/

theorem Dev.frame_syn {ps : List Part} {l : List Rg} {d d' : Dev} (h : Dev.frame ps l d d') (hp : Part.trigBus ∉ ps) :
    d'.syn = d.syn := h.1 .trigBus hp

theorem Dev.pingEdge_pins (d : Dev) (p : Ping) (stamp : Nat) : (d.pingEdge p stamp).syn.pin = d.syn.pin := by
  rw [Dev.pingEdge]
  split
  · split <;> rfl
  · split <;> rfl

theorem Dev.pinDeliver_deliver_syn (d : Dev) (k x : Nat) (level : Bool) (stamp : Nat) (own : Option Nat) :
    (Dev.pinDeliver.deliver k x level stamp own d).syn = d.syn := by
  unfold Dev.pinDeliver.deliver
  dsimp only
  rw [apply_ite Dev.syn, Dev.frame_syn (Dev.decSyncTimed_frame _ _) (by decide), ite_self, apply_ite Dev.syn,
    Dev.frame_syn (Dev.originEdge_frame _ _ _) (by decide), Dev.raise_syn, ite_self, apply_ite Dev.syn,
    Dev.frame_syn (Dev.pinChange_frame _ _ _ _ _) (by decide), ite_self]

theorem Dev.pinDeliver_pins (d : Dev) (k x : Nat) (level : Bool) (stamp : Nat) (own : Option Nat) :
    (d.pinDeliver k x level stamp own).syn.pin = d.syn.pin := by
  rw [Dev.pinDeliver]
  split
  · split
    · split
      · exact Dev.pingEdge_pins _ _ _
      · rfl
    · rw [Dev.pinDeliver_deliver_syn]
  · rw [Dev.pinDeliver_deliver_syn]

end Sys2Proof.Machine

/-! ## Pins of the trigger bus: ownership, edges, launches and contention (17_multi_device_timing.md R386-R392) -/

namespace Sys2Proof.Machine

-- One proof at a time: the text is compiled within a fixed memory.
set_option Elab.async false

/-! ### Ownership (R387) -/

/-- The pin is at its idle level, and nothing waits to be launched. -/
def SynPin.AtRest (p : SynPin) : Prop := p.out = false ∧ p.launches = [] ∧ p.pulseEnd = none

theorem Dev.pinIdle_atRest (d : Dev) (x : Nat) : ((d.pinIdle x).syn.pin.get x).AtRest := by
  obtain ⟨own, h⟩ := d.pinIdle_pin x
  rw [h]
  exact ⟨rfl, rfl, rfl⟩

theorem Dev.wordDone_pins (d : Dev) : d.wordDone.syn.pin = d.syn.pin := by
  rw [Dev.wordDone, Dev.txqShow, Dev.put_syn]
  rfl

theorem Dev.wordGiveUp_pins (d : Dev) : d.wordGiveUp.syn.pin = d.syn.pin := by
  rw [Dev.wordGiveUp, Dev.raise_syn, Dev.count_syn, Dev.wordDone_pins]

theorem Dev.lineRelease_atRest (d : Dev) (x : Nat) : ((d.lineRelease x).syn.pin.get x).AtRest := Dev.pinIdle_atRest _ x

theorem Dev.lineRelease_pin_ne (d : Dev) {x y : Nat} (h : y ≠ x) :
    (d.lineRelease x).syn.pin.get y = d.syn.pin.get y := by
  rw [Dev.lineRelease, Dev.pinIdle_pin_ne _ _ h]
  split
  · rw [Dev.wordGiveUp_pins]
  · rfl

/-- The lines owned before a write of SYN_OWN that it gives up are released. -/
def Dev.linesReleased (d : Dev) (v : Nat) : Dev :=
  (List.range 16).foldl (fun e x => if d.pinOwned x ∧ v / 2 ^ x % 2 = 0 then (e.lineRelease x).testEnd 2 x 7 else e) d

theorem Dev.linesReleased_atRest (d : Dev) {v y : Nat} (hy : y < 16) (how : d.pinOwned y = true) (hv : v / 2 ^ y % 2 = 0) :
    ((d.linesReleased v).syn.pin.get y).AtRest := by
  refine foldl_range_ind (fun i (e : Dev) => y < i → (e.syn.pin.get y).AtRest) (fun h => absurd h (Nat.not_lt_zero _))
    (fun i e _ ih hi => ?_) hy
  by_cases hiy : y = i
  · subst hiy
    rw [if_pos ⟨how, hv⟩, Dev.testEnd_syn]
    exact e.lineRelease_atRest y
  · have hkept := ih (by omega)
    split
    · rw [Dev.testEnd_syn, Dev.lineRelease_pin_ne _ hiy]
      exact hkept
    · exact hkept

/-- The lines that `before` did not own and that are owned now are driven by their KIND. -/
def Dev.linesTaken (d before : Dev) : Dev :=
  (List.range 16).foldl (fun e x => if ! before.pinOwned x && e.pinOwned x then e.pinResume x else e) d

theorem Dev.linesTaken_frame (d before : Dev) : Dev.frame [.trigBus] [] d (d.linesTaken before) :=
  Dev.frame_foldl (fun e _ => ite_ind (P := Dev.frame _ _ e) (Dev.pinResume_frame _ _) (Dev.frame_refl _ _ _)) _ _

theorem Dev.linesTaken_pin (d before : Dev) {y : Nat} (h : before.pinOwned y = true) :
    (d.linesTaken before).syn.pin.get y = d.syn.pin.get y :=
  foldl_invariant (fun e : Dev => e.syn.pin.get y = d.syn.pin.get y) _ _ rfl fun e x _ he => by
    split
    · next hx =>
      have hne : y ≠ x := fun hyx => by
        rw [← hyx, h] at hx
        exact Bool.false_ne_true hx
      exact (Dev.pinResume_pin_ne _ _ hne).trans he
    · exact he

theorem exec_ownershipWrite {s : State} (hw : s.dev.bus.writes = []) (v : BitVec 16) :
    ∃ t, exec (.ownershipWrite v) s = .next t ∧ t.dev.get SYN_OWN.LINES = v.toNat
      ∧ (∀ y : Fin 16, s.dev.pinOwned y = true → v.getLsbD y = false → (t.dev.syn.pin.get y).out = false
          ∧ (t.dev.syn.pin.get y).launches = [] ∧ (t.dev.syn.pin.get y).pulseEnd = none) := by
  have heff : s.dev.ownershipWriteEff v.toNat
      = ((((s.dev.linesReleased v.toNat).put SYN_OWN.LINES v.toNat).linesTaken s.dev).seenUpdate s.dev) := rfl
  have hseen := (((s.dev.linesReleased v.toNat).put SYN_OWN.LINES v.toNat).linesTaken s.dev).seenUpdate_frame s.dev
  refine ⟨_, State.row_of_empty hw _, ?_⟩
  dsimp only
  rw [heff]
  refine ⟨?_, fun y how hv => ?_⟩
  · rw [Dev.frame_get hseen _ _ _ _ (by decide), Dev.frame_get (Dev.linesTaken_frame _ _) _ _ _ _ (by decide),
      Dev.get_put_lt _ _ _ _ (by decide) v.isLt]
  · have hbit : v.toNat / 2 ^ y.val % 2 = 0 := by
      rw [← BitVec.testBit_toNat, Nat.testBit_eq_decide_div_mod_eq, decide_eq_false_iff_not] at hv
      omega
    rw [Dev.frame_syn hseen (by decide), Dev.linesTaken_pin _ _ how, Dev.put_syn]
    exact s.dev.linesReleased_atRest y.isLt how hbit

/-! ### Edges at a pin and its filter (R391, R392) -/

section
variable {d : Dev} {x : Nat} {level : Bool}

/-- A pin whose level has changed in the current frame. -/
def SynPin.edged (p : SynPin) (level : Bool) (k : Nat) (own : List (Bool × Nat)) : SynPin :=
  { p with raw := level, rawAt := k, own := own }

theorem Dev.pinEdgeEff_start (sample frac : Nat) (hexists : pinExists x = true) (hraw : (d.syn.pin.get x).raw ≠ level)
    (hedge : (d.syn.pin.get x).edge = none) (hown : (d.syn.pin.get x).own = []) :
    d.pinEdgeEff x level sample frac
      = if (level ^^ d.pinInv x) = d.flag SYN_PSTAT.LVL x then d.updPin x fun p => p.edged level d.now p.own
        else (d.updPin x fun p => p.edged level d.now p.own).updPin x fun p =>
          { p with edge := some ((d.now * 64 + sample) * 65536 + frac, none) } := by
  have hraw' : ((d.syn.pin.get x).raw == level) = false := beq_eq_false_iff_ne.2 hraw
  simp only [Dev.pinEdgeEff, hexists, hraw', hedge, hown, Bool.not_true, Bool.or_false, Bool.false_eq_true, if_false,
    List.find?_nil, Option.isSome_none, Option.map_none]
  rfl

theorem Dev.pinEdgeEff_glitch {sample frac : Nat} {e : Nat × Option Nat} (hexists : pinExists x = true)
    (hraw : (d.syn.pin.get x).raw ≠ level) (hedge : (d.syn.pin.get x).edge = some e)
    (hshort : (d.now * 64 + sample) * 65536 + frac < e.1 + d.pinMinw x) :
    ∃ own : SynPin → List (Bool × Nat), d.pinEdgeEff x level sample frac
      = (((d.updPin x fun p => p.edged level d.now (own p)).updPin x fun p => { p with edge := none }).count
          SYN_CNT_GLITCH.COUNT x).raiseHeld 1250 569 := by
  obtain ⟨t0, own0⟩ := e
  have hraw' : ((d.syn.pin.get x).raw == level) = false := beq_eq_false_iff_ne.2 hraw
  have hmin : 0 < d.pinMinw x := by
    rw [Dev.pinMinw]
    omega
  have hless : ¬ d.pinMinw x ≤ (d.now * 64 + sample) * 65536 + frac - t0 := by
    dsimp only at hshort
    omega
  have hsame : ∀ f, (d.updPin x f).pinMinw x = d.pinMinw x := fun _ => rfl
  simp only [Dev.pinEdgeEff, hexists, hraw', hedge, hsame, if_neg hless, Bool.not_true, Bool.or_false, Bool.false_eq_true,
    if_false]
  exact ⟨_, rfl⟩

end

theorem exec_pinEdge_start {s : State} (hw : s.dev.bus.writes = []) (x : Fin 48) (level : Bool) (sample : Fin 64)
    (frac : BitVec 16) (hexists : pinExists x = true) (hraw : (s.dev.syn.pin.get x).raw ≠ level)
    (hedge : (s.dev.syn.pin.get x).edge = none) (hown : (s.dev.syn.pin.get x).own = []) :
    ∃ t, exec (.pinEdge x level sample frac) s = .next t ∧ (t.dev.syn.pin.get x).raw = level
      ∧ (t.dev.syn.pin.get x).rawAt = s.dev.now
      ∧ (t.dev.syn.pin.get x).edge
        = (if (level ^^ s.dev.pinInv x) = s.dev.flag SYN_PSTAT.LVL x then none
           else some ((s.dev.now * 64 + sample) * 65536 + frac.toNat, none))
      ∧ t.dev.regs = s.dev.regs := by
  refine ⟨_, State.row_of_empty hw _, ?_⟩
  dsimp only
  rw [Dev.pinEdgeEff_start _ _ hexists hraw hedge hown]
  split
  · rw [Dev.updPin_pin_same]
    exact ⟨rfl, rfl, hedge, rfl⟩
  · rw [Dev.updPin_pin_same, Dev.updPin_pin_same]
    exact ⟨rfl, rfl, rfl, rfl⟩

theorem exec_pinEdge_glitch {s : State} (hw : s.dev.bus.writes = []) (x : Fin 48) (level : Bool) (sample : Fin 64)
    (frac : BitVec 16) (e : Nat × Option Nat) (hedge : (s.dev.syn.pin.get x).edge = some e) (hexists : pinExists x = true)
    (hraw : (s.dev.syn.pin.get x).raw ≠ level)
    (hshort : (s.dev.now * 64 + sample) * 65536 + frac.toNat < e.1 + s.dev.pinMinw x) :
    ∃ t, exec (.pinEdge x level sample frac) s = .next t ∧ (t.dev.syn.pin.get x).raw = level
      ∧ (t.dev.syn.pin.get x).edge = none
      ∧ t.dev.get SYN_CNT_GLITCH.COUNT x
        = min (2 ^ SYN_CNT_GLITCH.COUNT.w - 1) (s.dev.get SYN_CNT_GLITCH.COUNT x + 1)
      ∧ t.dev.flag SYN_PSTAT.LVL x = s.dev.flag SYN_PSTAT.LVL x := by
  obtain ⟨own, heff⟩ := Dev.pinEdgeEff_glitch hexists hraw hedge hshort
  refine ⟨_, State.row_of_empty hw _, ?_⟩
  dsimp only
  rw [heff, Dev.raiseHeld_syn, Dev.count_syn, Dev.updPin_pin_same, Dev.updPin_pin_same, Dev.raiseHeld_get,
    Dev.get_count_eq _ _ _ _ _ (by decide) (by decide), Dev.updPin_get, Dev.updPin_get, Dev.flag, Dev.raiseHeld_get,
    Dev.get_count_other _ _ _ _ _ _ _ _ _ (by decide), Dev.updPin_get, Dev.updPin_get]
  exact ⟨rfl, rfl, rfl, rfl⟩

theorem exec_filteredChange {s : State} (hw : s.dev.bus.writes = []) (x : Fin 48) (e : Nat × Option Nat)
    (hedge : (s.dev.syn.pin.get x).edge = some e) :
    ∃ t, exec (.filteredChange x) s = .next t
      ∧ t.dev.now = max s.dev.now (e.1 / 65536 / 64 + max 1 (s.dev.get SYN_PCFG.MINW x))
      ∧ t.dev.flag SYN_PSTAT.LVL x = ! s.dev.flag SYN_PSTAT.LVL x ∧ (t.dev.syn.pin.get x).edge = none := by
  refine ⟨_, State.row_of_empty hw _, ?_⟩
  dsimp only
  obtain ⟨t0, own⟩ := e
  simp only [Dev.filteredChangeEff, hedge]
  generalize t0 / 65536 / 64 + max 1 (s.dev.get SYN_PCFG.MINW x) = k
  rw [Dev.pinFiltered]
  have hdeliver := Dev.pinDeliver_frame
    ((((s.dev.advanceTo k).updPin x fun p => { p with edge := none })).putb SYN_PSTAT.LVL (! (s.dev.advanceTo k).flag SYN_PSTAT.LVL x) x)
    (t0 / 65536 / 64 + max 1 ((s.dev.advanceTo k).get SYN_PCFG.MINW x)) x (! (s.dev.advanceTo k).flag SYN_PSTAT.LVL x) t0 own
  refine ⟨?_, ?_, ?_⟩
  · rw [Dev.frame_now hdeliver (by decide), Dev.putb_now, Dev.updPin_now, Dev.advanceTo_now]
  · rw [Dev.frame_flag hdeliver _ _ _ _ (by decide), Dev.flag_putb_whole _ _ _ _ _ _ (by decide), Dev.advanceTo_flag]
  · rw [Dev.pinDeliver_pins, Dev.putb_syn, Dev.updPin_pin_same]

/-! ### Launches and pulses (R389) -/

/-- The module at the boundary of the next launch of pin `x`, which is taken. -/
def Dev.launchTaken (d : Dev) (x : Nat) (l : Launch) (rest : List Launch) : Dev :=
  (d.advanceTo l.frame).updPin x fun p => { p with launches := rest }

theorem Dev.launchTaken_regs (d : Dev) (x : Nat) (l : Launch) (rest : List Launch) : (d.launchTaken x l rest).regs = d.regs :=
  Dev.advanceTo_regs _ _

theorem Dev.launchTaken_now (d : Dev) (x : Nat) (l : Launch) (rest : List Launch) :
    (d.launchTaken x l rest).now = max d.now l.frame := Dev.advanceTo_now _ _

theorem Dev.outputLaunchEff_driven {d : Dev} {x : Nat} {l : Launch} {rest : List Launch}
    (hnext : (d.syn.pin.get x).launches = l :: rest) (hdriven : d.pinDriven x = true) (hpair : d.inPair x = false) :
    d.outputLaunchEff x = if l.width = 0 then ((d.launchTaken x l rest).pinDrive x l.frame l.level).updPin x fun p =>
        { p with pulseEnd := none }
      else (d.launchTaken x l rest).pinPulse x l.frame l.width := by
  have hgo : ¬ (! (d.launchTaken x l rest).pinDriven x || (d.launchTaken x l rest).inPair x) = true := by
    rw [Dev.pinDriven_congr (d.launchTaken_regs x l rest), Dev.inPair_congr (d.launchTaken_regs x l rest), hdriven, hpair]
    exact Bool.false_ne_true
  rw [Dev.outputLaunchEff, hnext]
  exact if_neg hgo

theorem exec_outputLaunch_pulse {s : State} (hw : s.dev.bus.writes = []) (x : Fin 48) (l : Launch)
    (hhead : (s.dev.syn.pin.get x).launches.head? = some l) (hdriven : s.dev.pinDriven x = true)
    (hpair : s.dev.inPair x = false) (hwidth : l.width ≠ 0) :
    ∃ t, exec (.outputLaunch x) s = .next t ∧ t.dev.now = max s.dev.now l.frame
      ∧ (t.dev.syn.pin.get x).out = true ∧ (t.dev.syn.pin.get x).pulseEnd = some (l.frame + l.width)
      ∧ (t.dev.syn.pin.get x).launches = (s.dev.syn.pin.get x).launches.tail ∧ t.dev.regs = s.dev.regs := by
  obtain ⟨rest, hnext⟩ := List.head?_eq_some_iff.1 hhead
  obtain ⟨own, hpin⟩ := (s.dev.launchTaken x l rest).pinPulse_pin x l.frame l.width
  refine ⟨_, State.row_of_empty hw _, ?_⟩
  dsimp only
  rw [Dev.outputLaunchEff_driven hnext hdriven hpair, if_neg hwidth, hpin, Dev.pinPulse_now, Dev.launchTaken_now,
    Dev.pinPulse_regs, Dev.launchTaken_regs, Dev.launchTaken, Dev.updPin_pin_same, hnext]
  exact ⟨rfl, rfl, rfl, rfl, rfl⟩

theorem exec_outputLaunch_level {s : State} (hw : s.dev.bus.writes = []) (x : Fin 48) (l : Launch)
    (hhead : (s.dev.syn.pin.get x).launches.head? = some l) (hdriven : s.dev.pinDriven x = true)
    (hpair : s.dev.inPair x = false) (hwidth : l.width = 0) :
    ∃ t, exec (.outputLaunch x) s = .next t ∧ t.dev.now = max s.dev.now l.frame
      ∧ (t.dev.syn.pin.get x).out = l.level ∧ (t.dev.syn.pin.get x).pulseEnd = none := by
  obtain ⟨rest, hnext⟩ := List.head?_eq_some_iff.1 hhead
  obtain ⟨own, hpin⟩ := (s.dev.launchTaken x l rest).pinDrive_pin x l.frame l.level
  refine ⟨_, State.row_of_empty hw _, ?_⟩
  dsimp only
  rw [Dev.outputLaunchEff_driven hnext hdriven hpair, if_pos hwidth, Dev.updPin_pin_same, hpin, Dev.updPin_now,
    Dev.pinDrive_now, Dev.launchTaken_now]
  exact ⟨rfl, rfl, rfl⟩

theorem exec_markerPulseEnd {s : State} (hw : s.dev.bus.writes = []) (x : Fin 48) (e : Nat)
    (hend : (s.dev.syn.pin.get x).pulseEnd = some e) :
    ∃ t, exec (.markerPulseEnd x) s = .next t ∧ t.dev.now = max s.dev.now e
      ∧ (t.dev.syn.pin.get x).out = false ∧ (t.dev.syn.pin.get x).pulseEnd = none ∧ t.dev.regs = s.dev.regs := by
  obtain ⟨own, hpin⟩ := (s.dev.advanceTo e).pinDrive_pin x e false
  refine ⟨_, State.row_of_empty hw _, ?_⟩
  dsimp only
  simp only [Dev.markerPulseEndEff, hend]
  rw [Dev.updPin_pin_same, hpin, Dev.updPin_now, Dev.pinDrive_now, Dev.advanceTo_now, Dev.updPin_regs, Dev.pinDrive_regs,
    Dev.advanceTo_regs]
  exact ⟨rfl, rfl, rfl, rfl⟩

/-! ### Contention (R390) -/

/-- What a contention at pin `x` shows, before anything is released. -/
def Dev.clashShown (d : Dev) (x : Nat) : Dev :=
  let clash := (d.setFlag SYN_PSTAT.CONTENTION x).count SYN_CNT_CONT.COUNT |>.raise 568
  match d.readbackOn x with
  | some s => clash.put TST_ERRS.COUNT (clash.get TST_ERRS.COUNT s + 1) s
  | none => clash

section
variable (d : Dev) (x : Nat)

theorem Dev.clashShown_get (f : Fld) (i j k : Nat) (h : f.g ≠ .TST_ERRS) :
    (d.clashShown x).get f i j k = ((d.setFlag SYN_PSTAT.CONTENTION x).count SYN_CNT_CONT.COUNT).get f i j k := by
  rw [Dev.clashShown]
  split
  · rw [Dev.get_put_family _ _ _ _ _ _ _ _ h, Dev.raise_get]
  · exact Dev.raise_get _ _ _ _ _ _

theorem Dev.clashShown_syn : (d.clashShown x).syn = d.syn := by
  rw [Dev.clashShown]
  split
  · rw [Dev.put_syn, Dev.raise_syn, Dev.count_syn, Dev.setFlag_syn]
  · rw [Dev.raise_syn, Dev.count_syn, Dev.setFlag_syn]

theorem Dev.clashShown_raised : (d.clashShown x).raised d.now 568 := by
  have h := ((d.setFlag SYN_PSTAT.CONTENTION x).count SYN_CNT_CONT.COUNT).raise_raised 568
  rw [Dev.count_now, Dev.setFlag_now] at h
  rw [Dev.clashShown]
  split
  · exact (Dev.raised_congr (Dev.put_evr _ _ _ _ _ _) _ _).2 h
  · exact h

theorem Dev.clashShown_count : (d.clashShown x).get SYN_CNT_CONT.COUNT
    = min (2 ^ SYN_CNT_CONT.COUNT.w - 1) (d.get SYN_CNT_CONT.COUNT + 1) := by
  rw [Dev.clashShown_get _ _ _ _ _ _ (by decide), Dev.get_count_eq _ _ _ _ _ (by decide) (by decide),
    Dev.get_congr (Dev.setFlag_regs _ (by decide) _), Dev.putb, Dev.get_put_family _ _ _ _ _ _ _ _ (by decide)]

theorem Dev.clashShown_contention : (d.clashShown x).flag SYN_PSTAT.CONTENTION x = true := by
  rw [Dev.flag, Dev.clashShown_get _ _ _ _ _ _ (by decide), Dev.get_count_other _ _ _ _ _ _ _ _ _ (by decide),
    Dev.get_congr (Dev.setFlag_regs _ (by decide) _), ← Dev.flag, Dev.flag_putb_whole _ _ _ _ _ _ (by decide)]

theorem Dev.clashShown_fault : (d.clashShown x).flag SYN_PSTAT.FAULT x = d.flag SYN_PSTAT.FAULT x := by
  rw [Dev.flag, Dev.clashShown_get _ _ _ _ _ _ (by decide), Dev.get_count_other _ _ _ _ _ _ _ _ _ (by decide),
    Dev.get_congr (Dev.setFlag_regs _ (by decide) _), ← Dev.flag, Dev.putb, Dev.flag_put_other _ _ _ _ _ _ _ _ _ _ (by decide) (by decide)]

end

section
variable {d : Dev} {x : Nat} {level : Bool} (hexists : pinExists x = true) (hdriven : d.pinDriven x = true)
include hexists hdriven

theorem Dev.contentionEff_single (hor : d.wiredOr x = false) (hlevel : level ≠ ((d.syn.pin.get x).out ^^ d.pinInv x)) :
    d.contentionEff x level = ((d.clashShown x).pinIdle x).setFlag SYN_PSTAT.FAULT x := by
  simp only [Dev.contentionEff, hexists, hdriven, hor, if_neg hlevel, Bool.not_true, Bool.or_false, Bool.false_eq_true, if_false]
  rfl

theorem Dev.contentionEff_wired (hor : d.wiredOr x = true) (hout : (d.syn.pin.get x).out = true)
    (hsending : d.wordSending = false) : d.contentionEff x false = d.clashShown x := by
  simp only [Dev.contentionEff, hexists, hdriven, hor, hout, hsending, Bool.not_true, Bool.or_false, Bool.false_eq_true, if_false,
    Bool.true_or, Bool.false_and, Bool.not_false, Bool.true_and, if_true]
  rfl

end

theorem exec_contention_single {s : State} (hw : s.dev.bus.writes = []) (x : Fin 48) (level : Bool)
    (hexists : pinExists x = true) (hdriven : s.dev.pinDriven x = true) (hor : s.dev.wiredOr x = false)
    (hlevel : level ≠ ((s.dev.syn.pin.get x).out ^^ s.dev.pinInv x)) :
    ∃ t, exec (.contention x level) s = .next t ∧ t.dev.flag SYN_PSTAT.FAULT x = true
      ∧ t.dev.flag SYN_PSTAT.CONTENTION x = true ∧ (t.dev.syn.pin.get x).out = false
      ∧ t.dev.get SYN_CNT_CONT.COUNT = min (2 ^ SYN_CNT_CONT.COUNT.w - 1) (s.dev.get SYN_CNT_CONT.COUNT + 1)
      ∧ t.dev.raised s.dev.now 568 := by
  refine ⟨_, State.row_of_empty hw _, ?_⟩
  dsimp only
  rw [Dev.contentionEff_single hexists hdriven hor hlevel]
  have hget : ∀ f i, (((s.dev.clashShown x).pinIdle x).setFlag SYN_PSTAT.FAULT x).get f i
      = (((s.dev.clashShown x).pinIdle x).putb SYN_PSTAT.FAULT true x).get f i := fun f i =>
    Dev.get_congr (Dev.setFlag_regs _ (by decide) _) _ _ _ _
  have hidle : ∀ f i, ((s.dev.clashShown x).pinIdle x).get f i = (s.dev.clashShown x).get f i := fun f i =>
    Dev.get_congr (Dev.pinIdle_regs _ _) _ _ _ _
  refine ⟨?_, ?_, ?_, ?_, ?_⟩
  · rw [Dev.flag, hget, ← Dev.flag, Dev.flag_putb_whole _ _ _ _ _ _ (by decide)]
  · rw [Dev.flag, hget, Dev.putb, Dev.get_put_other _ _ _ _ _ _ _ _ _ _ (by decide) (by decide), hidle]
    exact s.dev.clashShown_contention x
  · rw [Dev.setFlag_syn]
    exact (Dev.pinIdle_atRest _ x).1
  · rw [hget, Dev.putb, Dev.get_put_family _ _ _ _ _ _ _ _ (by decide), hidle, Dev.clashShown_count]
  · refine (Dev.raised_congr ?_ _ _).2 (s.dev.clashShown_raised x)
    exact (Dev.setFlag_evr _ _ _).trans ((Dev.pinIdle_frame _ _).1 .events (by decide))

theorem exec_contention_wired {s : State} (hw : s.dev.bus.writes = []) (x : Fin 48) (hexists : pinExists x = true)
    (hdriven : s.dev.pinDriven x = true) (hor : s.dev.wiredOr x = true) (hout : (s.dev.syn.pin.get x).out = true)
    (hsending : s.dev.wordSending = false) :
    ∃ t, exec (.contention x false) s = .next t ∧ t.dev.flag SYN_PSTAT.CONTENTION x = true
      ∧ t.dev.flag SYN_PSTAT.FAULT x = s.dev.flag SYN_PSTAT.FAULT x ∧ (t.dev.syn.pin.get x).out = true
      ∧ t.dev.raised s.dev.now 568 := by
  refine ⟨_, State.row_of_empty hw _, ?_⟩
  dsimp only
  rw [Dev.contentionEff_wired hexists hdriven hor hout hsending, Dev.clashShown_syn]
  exact ⟨s.dev.clashShown_contention x, s.dev.clashShown_fault x, hout, s.dev.clashShown_raised x⟩

theorem exec_faultClear {s : State} (hw : s.dev.bus.writes = []) (x : Fin 48) :
    ∃ t, exec (.faultClear x) s = .next t ∧ t.dev.flag SYN_PSTAT.FAULT x = false
      ∧ s.dev.keepsRegs t.dev [.SYN_PSTAT]
      ∧ (t.dev.syn.pin.get x).out = (s.dev.syn.pin.get x).out
      ∧ (s.dev.flag SYN_PSTAT.FAULT x = false → t.dev = s.dev)
      ∧ (s.dev.flag SYN_PSTAT.FAULT x = true → t.dev.pinDriven x = true → s.dev.inPair x = false →
          s.dev.get SYN_PCFG.KIND x = 2 →
          (t.dev.syn.pin.get x).launches
            = (s.dev.syn.pin.get x).launches.filter (fun l => decide (l.frame < s.dev.now + 2))
              ++ [⟨s.dev.now + 2, 0, s.dev.flag SYN_PCFG.LEVEL x⟩]) := by
  refine ⟨_, State.row_of_empty hw _, ?_⟩
  dsimp only
  rw [Dev.faultClearEff]
  by_cases hfault : s.dev.flag SYN_PSTAT.FAULT x = true
  · rw [if_pos hfault]
    have hregs := (s.dev.putb SYN_PSTAT.FAULT false x).pinResume_regs x
    refine ⟨?_, ?_, ?_, fun h => absurd (hfault.symm.trans h) (by decide), fun _ hdriven hpair hkind => ?_⟩
    · rw [Dev.flag, Dev.get_congr hregs, ← Dev.flag, Dev.flag_putb_whole _ _ _ _ _ _ (by decide)]
    · intro r hr
      rw [Dev.rd_congr hregs]
      exact Dev.rd_putb_family _ _ _ _ _ _ (List.ne_of_not_mem_cons hr)
    · rw [Dev.pinResume_out, Dev.putb_syn]
    · rw [Dev.pinDriven_congr hregs] at hdriven
      have hpair' : (s.dev.putb SYN_PSTAT.FAULT false x).inPair x = false := by
        rw [← hpair]
        simp (disch := decide) only [Dev.inPair, Dev.putb, Dev.flag_put_family, Dev.get_put_family]
      have hsignal : (s.dev.putb SYN_PSTAT.FAULT false x).pinSignal x (s.dev.now + 2)
          = [⟨s.dev.now + 2, 0, s.dev.flag SYN_PCFG.LEVEL x⟩] := by
        rw [Dev.pinSignal, Dev.putb, Dev.get_put_family _ _ _ _ _ _ _ _ (by decide), hkind, Dev.flag_put_family _ _ _ _ _ _ _ _ (by decide)]
        rfl
      rw [Dev.pinResume, if_pos (by rw [hdriven, hpair']; rfl), Dev.pinRelaunch, Dev.updPin_pin_same, Dev.putb_now, hsignal,
        Dev.putb_syn]
  · rw [if_neg hfault]
    exact ⟨Bool.eq_false_iff.2 hfault, Dev.keepsRegs_refl _ _, rfl, fun _ => rfl, fun h => absurd h hfault⟩

/-- Settles O47: ownership, edges, launches, pulses and contention, row by row. -/
theorem pinCommandsAct : Obligations.PinCommandsAct := by
  intro s x hw
  exact ⟨exec_ownershipWrite hw, exec_pinEdge_start hw x, exec_pinEdge_glitch hw x, exec_filteredChange hw x,
    exec_outputLaunch_pulse hw x, exec_outputLaunch_level hw x, exec_markerPulseEnd hw x, exec_contention_single hw x,
    exec_contention_wired hw x, exec_faultClear hw x⟩

end Sys2Proof.Machine

/-! ## A channel of the transfer engine after each operation on it (15_transfer_engine.md R350-R366) -/

namespace Sys2Proof.Machine

-- One proof at a time: the text is compiled within a fixed memory.
set_option Elab.async false

@[simp] theorem Dev.updXfer_chan_same (d : Dev) (c : Nat) (f : XferChan → XferChan) :
    (d.updXfer c f).xfe.chan.get c = f (d.xfe.chan.get c) := Tab.get_upd_same _ _ _

theorem Dev.frame_xfe {ps : List Part} {l : List Rg} {d d' : Dev} (h : Dev.frame ps l d d') (hp : Part.transfer ∉ ps) :
    d'.xfe = d.xfe := h.1 .transfer hp

/-! ### The state shown -/

section
variable (d : Dev) (c st : Nat)

theorem Dev.xferState_now : (d.xferState c st).now = d.now := by
  rw [Dev.xferState, Dev.putBit_now, Dev.putBit_now, Dev.put_now]

theorem Dev.xferState_xfe : (d.xferState c st).xfe = d.xfe := by
  rw [Dev.xferState, Dev.putBit_xfe, Dev.putBit_xfe, Dev.put_xfe]

theorem Dev.xferState_state (hst : st < 8) : (d.xferState c st).get XFE_STAT.STATE c = st := by
  rw [Dev.xferState, Dev.get_putBit_other _ _ _ _ _ _ _ _ (by decide) (by decide),
    Dev.get_putBit_other _ _ _ _ _ _ _ _ (by decide) (by decide), Dev.get_put_lt _ _ _ _ (by decide) hst]

theorem Dev.xferState_lastStatus : (d.xferState c st).get XFE_STAT.LAST_STATUS c = d.get XFE_STAT.LAST_STATUS c := by
  rw [Dev.xferState, Dev.get_putBit_other _ _ _ _ _ _ _ _ (by decide) (by decide),
    Dev.get_putBit_other _ _ _ _ _ _ _ _ (by decide) (by decide), Dev.get_put_other _ _ _ _ _ _ _ _ _ _ (by decide) (by decide)]

theorem Dev.xferState_busy (hc : c < 64) : (d.xferState c st).bitOf XFE_G_BUSY.CH c = (st == 2 || st == 4) := by
  rw [Dev.xferState, Dev.bitOf_putBit_other _ _ _ _ _ _ (by decide) (by decide),
    Dev.bitOf_putBit_same _ _ _ _ (Bool.and_eq_true_iff.2 ⟨by decide, decide_eq_true hc⟩)]

theorem Dev.xferState_halted (hc : c < 64) : (d.xferState c st).bitOf XFE_G_HALTED.CH c = (st == 3) := by
  rw [Dev.xferState, Dev.bitOf_putBit_same _ _ _ _ (Bool.and_eq_true_iff.2 ⟨by decide, decide_eq_true hc⟩)]

end

/-! ### Completions -/

section
variable (d : Dev) (c status hops : Nat) (rest : Bool) (check tag bytes : Nat)

theorem Dev.xferComplete_now : (d.xferComplete c status hops rest check tag bytes).now = d.now :=
  Dev.frame_now (Dev.xferComplete_frame _ _ _ _ _ _ _ _) (by decide)

theorem Dev.xferComplete_chan : (d.xferComplete c status hops rest check tag bytes).xfe.chan.get c
    = { d.xfe.chan.get c with seq := (d.xfe.chan.get c).seq + 1 } := by
  rw [Dev.xferComplete, Dev.updXfer_chan_same, Dev.put_xfe]
  rfl

theorem Dev.xferComplete_lastStatus (h : status < 16) :
    (d.xferComplete c status hops rest check tag bytes).get XFE_STAT.LAST_STATUS c = status := by
  rw [Dev.xferComplete, Dev.updXfer_get, Dev.get_put_lt _ _ _ _ (by decide) h]

end

theorem Dev.ringStatus_now (d : Dev) (ptr check status : Nat) : (d.ringStatus ptr check status).now = d.now :=
  Dev.frame_now (Dev.ringStatus_frame _ _ _ _) (by decide)

/-! ### A channel that halts -/

/-- The completions and the status of a descriptor that ends with a halting outcome. -/
def Dev.failReported (d : Dev) (c status : Nat) (read : Bool) : Dev :=
  let x := d.xfe.chan.get c
  let hops := d.get XFE_HOPS.HOPS c
  let last := read && descLast x.desc
  let d := d.xferComplete c status hops false 0 (if read then descTag x.desc else 0) x.pos
  let d := if x.mode = 2 ∧ read then d.ringStatus x.addr 0 status else d
  let d := if x.mode ≠ 0 ∧ ! last then d.xferComplete c 5 hops true 0 0 0 else d
  let d := if x.mode = 0 then d else d.wr ⟨.XFE_NEXT, c, 0, 0⟩ (if read then x.desc.w4 else BitVec.ofNat 64 x.addr)
  if status = 4 then d.raise 537 else d

theorem Dev.xferFail_eq (d : Dev) (c status : Nat) (read : Bool) :
    d.xferFail c status read
      = (((d.failReported c status read).xferState c 3).updXfer c fun x => { x with phase := .idle }).raise 536 := rfl

theorem Dev.failReported_now (d : Dev) (c status : Nat) (read : Bool) : (d.failReported c status read).now = d.now := by
  simp only [Dev.failReported, apply_ite Dev.now, Dev.raise_now, Dev.wr_now, Dev.xferComplete_now, Dev.ringStatus_now, ite_self]

theorem Dev.xferFail_halts (d : Dev) {c : Nat} (hc : c < 64) (status : Nat) (read : Bool) :
    (d.xferFail c status read).get XFE_STAT.STATE c = 3 ∧ (d.xferFail c status read).bitOf XFE_G_HALTED.CH c = true
      ∧ ((d.xferFail c status read).xfe.chan.get c).phase = .idle ∧ (d.xferFail c status read).raised d.now 536 := by
  have hraised := (((d.failReported c status read).xferState c 3).updXfer c fun x => { x with phase := .idle }).raise_raised 536
  rw [Dev.updXfer_now, Dev.xferState_now, Dev.failReported_now] at hraised
  rw [Dev.xferFail_eq, Dev.raise_get, Dev.updXfer_get, Dev.xferState_state _ _ _ (by decide),
    Dev.bitOf_of_get ((Dev.raise_get _ _ _ _ _ _).trans (Dev.updXfer_get _ _ _ _ _ _ _)), Dev.xferState_halted _ _ _ hc,
    Dev.raise_xfe, Dev.updXfer_chan_same]
  exact ⟨rfl, rfl, rfl, hraised⟩

/-! ### A channel that fetches, and one whose data move -/

theorem Dev.xferFetch_fetches (d : Dev) {c : Nat} (hc : c < 64) (ptr hop : Nat) :
    (d.xferFetch c ptr hop).get XFE_STAT.STATE c = 2 ∧ (d.xferFetch c ptr hop).bitOf XFE_G_BUSY.CH c = true
      ∧ (d.xferFetch c ptr hop).get XFE_HOPS.HOPS c = hop % 2 ^ XFE_HOPS.HOPS.w
      ∧ (d.xferFetch c ptr hop).xfe.chan.get c = { d.xfe.chan.get c with phase := .fetch, addr := ptr, pos := 0 } := by
  rw [Dev.xferFetch, Dev.updXfer_get, Dev.updXfer_get, Dev.xferState_state _ _ _ (by decide),
    Dev.bitOf_of_get (Dev.updXfer_get _ _ _ _ _ _ _), Dev.xferState_busy _ _ _ hc,
    Dev.frame_get (Dev.xferState_frame _ _ _) _ _ _ _ (by decide), Dev.get_put_eq _ _ _ _ _ _ (by decide),
    Dev.updXfer_chan_same, Dev.xferState_xfe, Dev.put_xfe]
  exact ⟨rfl, rfl, rfl, rfl⟩

theorem Dev.spaceEnd_congr {d d' : Dev} (h : d'.get BEN_QRY_CAP.BYTES = d.get BEN_QRY_CAP.BYTES) (sp : Nat) :
    d'.spaceEnd sp = d.spaceEnd sp := by
  unfold Dev.spaceEnd
  rw [h]

theorem Dev.descCheckResult_congr {d d' : Dev} (h : d'.get BEN_QRY_CAP.BYTES = d.get BEN_QRY_CAP.BYTES) (l : Line) :
    d'.descCheckResult l = d.descCheckResult l := by
  simp only [Dev.descCheckResult, Dev.spaceEnd_congr h]

/-- A channel with a descriptor that has been read, before its checks. -/
def XferChan.read (x : XferChan) (l : Line) : XferChan :=
  { x with desc := l, pos := 0, check := if descCheck l = 1 then 0xFFFFFFFF else 0, odd := none, poisoned := false
           wdrop := false }

/-- A descriptor with data to move passes its checks: its data move. -/
theorem Dev.xferBegin_passed {d : Dev} {c : Nat} {l : Line} (hcheck : d.descCheckResult l = 0) (hcount : descCount l ≠ 0) :
    d.xferBegin c l = ((d.updXfer c fun x => x.read l).xferState c 2).updXfer c fun x => { x with phase := .data } := by
  have hcheck' : (d.updXfer c fun x => x.read l).descCheckResult l = 0 :=
    (Dev.descCheckResult_congr (Dev.updXfer_get _ _ _ _ _ _ _) l).trans hcheck
  rw [Dev.xferBegin]
  split
  · rw [if_neg hcount]
    rfl
  · next h => exact absurd hcheck' h

theorem Dev.xferBegin_moves {d : Dev} {c : Nat} {l : Line} (hc : c < 64) (hcheck : d.descCheckResult l = 0)
    (hcount : descCount l ≠ 0) :
    (d.xferBegin c l).get XFE_STAT.STATE c = 2 ∧ (d.xferBegin c l).bitOf XFE_G_BUSY.CH c = true
      ∧ (d.xferBegin c l).get XFE_HOPS.HOPS c = d.get XFE_HOPS.HOPS c
      ∧ (d.xferBegin c l).xfe.chan.get c = { (d.xfe.chan.get c).read l with phase := .data } := by
  rw [Dev.xferBegin_passed hcheck hcount, Dev.updXfer_get, Dev.updXfer_get, Dev.xferState_state _ _ _ (by decide),
    Dev.bitOf_of_get (Dev.updXfer_get _ _ _ _ _ _ _), Dev.xferState_busy _ _ _ hc,
    Dev.frame_get (Dev.xferState_frame _ _ _) _ _ _ _ (by decide), Dev.updXfer_get, Dev.updXfer_chan_same, Dev.xferState_xfe,
    Dev.updXfer_chan_same]
  exact ⟨rfl, rfl, rfl, rfl⟩

/-! ### The end of a descriptor -/

/-- The status with which a descriptor ends that has moved all its bytes (R356, R361). -/
def XferChan.status (x : XferChan) : Nat := if x.poisoned then 9 else if x.wdrop then 10 else 0

/-- The descriptor in progress ends with a completion of its own: in register mode, when it asks for one, when it is the last,
or when it went wrong. -/
def XferChan.completes (x : XferChan) : Bool := x.mode = 0 || descCmpl x.desc || x.status != 0 || descLast x.desc

/-- The events, the ring's status and the completion of a descriptor that has moved all its bytes. -/
def Dev.endReported (d : Dev) (c : Nat) : Dev :=
  let x := d.xfe.chan.get c
  let hops := d.get XFE_HOPS.HOPS c
  let d := if x.poisoned then d.raise 539 else if x.wdrop then d.raise 540 else d
  let d := if x.mode = 2 then
      (d.ringStatus x.addr x.value x.status).descWrite x.addr 0 (leBytes (x.desc.w0 &&& ~~~ maskBits 29 1).toNat 8)
    else d
  if x.completes then d.xferComplete c x.status hops false x.value (descTag x.desc) x.pos else d

theorem Dev.xferEnd_eq (d : Dev) (c : Nat) :
    d.xferEnd c = if (d.xfe.chan.get c).mode = 0 || descLast (d.xfe.chan.get c).desc then (d.endReported c).xferIdle c
      else (d.endReported c).xferFetch c (d.xfe.chan.get c).desc.w4.toNat (d.get XFE_HOPS.HOPS c + 1) := rfl

/-- The events and the ring's status of a descriptor that has moved all its bytes, before its completion. -/
def Dev.endShown (d : Dev) (c : Nat) : Dev :=
  let x := d.xfe.chan.get c
  let d := if x.poisoned then d.raise 539 else if x.wdrop then d.raise 540 else d
  if x.mode = 2 then
    (d.ringStatus x.addr x.value x.status).descWrite x.addr 0 (leBytes (x.desc.w0 &&& ~~~ maskBits 29 1).toNat 8)
  else d

theorem Dev.endShown_now (d : Dev) (c : Nat) : (d.endShown c).now = d.now := by
  simp only [Dev.endShown, apply_ite Dev.now, Dev.frame_now (Dev.descWrite_frame _ _ _ _) (by decide), Dev.ringStatus_now,
    Dev.raise_now, ite_self]

theorem Dev.endShown_xfe (d : Dev) (c : Nat) : (d.endShown c).xfe = d.xfe := by
  simp only [Dev.endShown, apply_ite Dev.xfe, Dev.frame_xfe (Dev.descWrite_frame _ _ _ _) (by decide),
    Dev.frame_xfe (Dev.ringStatus_frame _ _ _ _) (by decide), Dev.raise_xfe, ite_self]

theorem Dev.endReported_eq (d : Dev) (c : Nat) :
    d.endReported c = if (d.xfe.chan.get c).completes then
        (d.endShown c).xferComplete c (d.xfe.chan.get c).status (d.get XFE_HOPS.HOPS c) false (d.xfe.chan.get c).value
          (descTag (d.xfe.chan.get c).desc) (d.xfe.chan.get c).pos
      else d.endShown c := rfl

theorem XferChan.status_lt (x : XferChan) : x.status < 16 := by
  rw [XferChan.status]
  split_ifs <;> decide

theorem Dev.xferIdle_idles (d : Dev) {c : Nat} (hc : c < 64) :
    (d.xferIdle c).get XFE_STAT.STATE c = 1 ∧ (d.xferIdle c).bitOf XFE_G_BUSY.CH c = false
      ∧ (d.xferIdle c).xfe.chan.get c = { d.xfe.chan.get c with phase := .idle }
      ∧ (d.xferIdle c).get XFE_STAT.LAST_STATUS c = d.get XFE_STAT.LAST_STATUS c
      ∧ (d.xferIdle c).raised d.now (528 + c / 8) := by
  have hraised := ((d.xferState c 1).updXfer c fun x => { x with phase := .idle }).raise_raised (528 + c / 8)
  rw [Dev.updXfer_now, Dev.xferState_now] at hraised
  rw [Dev.xferIdle, Dev.raise_get, Dev.updXfer_get, Dev.xferState_state _ _ _ (by decide), Dev.raise_get, Dev.updXfer_get,
    Dev.xferState_lastStatus, Dev.bitOf_of_get ((Dev.raise_get _ _ _ _ _ _).trans (Dev.updXfer_get _ _ _ _ _ _ _)),
    Dev.xferState_busy _ _ _ hc, Dev.raise_xfe, Dev.updXfer_chan_same, Dev.xferState_xfe]
  exact ⟨rfl, rfl, rfl, rfl, hraised⟩

/-! ## Transfer channels start, fetch, move data, end and halt (15_transfer_engine.md R349-R366) -/

/-! ### GO, KICK and the clear of EN (R357, R360, R363, R365) -/

section
variable {s : State} (hw : s.dev.bus.writes = []) (c : Fin 64)
include hw

theorem exec_xferGo_register (l : Line)
    (hl : l = ⟨s.dev.rd ⟨.XFE_CFG, c, 0, 0⟩, s.dev.rd ⟨.XFE_SRC, c, 0, 0⟩, s.dev.rd ⟨.XFE_DST, c, 0, 0⟩,
      s.dev.rd ⟨.XFE_COUNT, c, 0, 0⟩, 0, 0, 0, 0⟩)
    (hen : s.dev.flag XFE_CTL.EN c = true) (hbusy : s.dev.xferBusy c = false)
    (hmode : s.dev.get XFE_CTL.MODE c = 0 ∨ s.dev.get XFE_CTL.MODE c = 3) (hcheck : s.dev.descCheckResult l = 0)
    (hcount : descCount l ≠ 0) :
    ∃ t, exec (.xferGo c) s = .next t ∧ t.dev.get XFE_STAT.STATE c = 2 ∧ t.dev.get XFE_HOPS.HOPS c = 1
      ∧ (t.dev.xfe.chan.get c).phase = .data ∧ (t.dev.xfe.chan.get c).desc = l ∧ (t.dev.xfe.chan.get c).pos = 0
      ∧ t.dev.bitOf XFE_G_BUSY.CH c = true := by
  have hmode' : (if s.dev.get XFE_CTL.MODE c = 3 then 0 else s.dev.get XFE_CTL.MODE c) = 0 := by
    rcases hmode with h | h <;> rw [h] <;> rfl
  have heff : s.dev.xferGoEff c
      = ((s.dev.updXfer c fun x => { x with mode := 0 }).put XFE_HOPS.HOPS 1 c).xferBegin c l := by
    rw [Dev.xferGoEff, hen, hbusy, Bool.not_true, Bool.or_self, if_neg Bool.false_ne_true]
    dsimp only
    rw [hmode', if_pos rfl, hl]
    rfl
  have hcheck' : ((s.dev.updXfer c fun x => { x with mode := 0 }).put XFE_HOPS.HOPS 1 c).descCheckResult l = 0 :=
    (Dev.descCheckResult_congr ((Dev.get_put_family _ _ _ _ _ _ _ _ (by decide)).trans (Dev.updXfer_get _ _ _ _ _ _ _)) l).trans hcheck
  obtain ⟨hstate, hbusy', hhops, hchan⟩ := Dev.xferBegin_moves c.isLt hcheck' hcount
  refine ⟨_, State.row_of_empty hw _, ?_⟩
  dsimp only
  rw [heff, hstate, hbusy', hhops, hchan, Dev.get_put_lt _ _ _ _ (by decide) (by decide)]
  exact ⟨rfl, rfl, rfl, rfl, rfl, rfl⟩

theorem exec_xferGo_list (hen : s.dev.flag XFE_CTL.EN c = true) (hbusy : s.dev.xferBusy c = false)
    (hmode : s.dev.get XFE_CTL.MODE c = 1 ∨ s.dev.get XFE_CTL.MODE c = 2) :
    ∃ t, exec (.xferGo c) s = .next t ∧ t.dev.get XFE_STAT.STATE c = 2 ∧ t.dev.get XFE_HOPS.HOPS c = 1
      ∧ (t.dev.xfe.chan.get c).phase = .fetch
      ∧ (t.dev.xfe.chan.get c).addr = (s.dev.rd ⟨.XFE_DPTR, c, 0, 0⟩).toNat
      ∧ (t.dev.xfe.chan.get c).mode = s.dev.get XFE_CTL.MODE c := by
  have hmode' : s.dev.get XFE_CTL.MODE c ≠ 3 ∧ s.dev.get XFE_CTL.MODE c ≠ 0 := by omega
  have heff : s.dev.xferGoEff c
      = (s.dev.updXfer c fun x => { x with mode := s.dev.get XFE_CTL.MODE c }).xferFetch c
          (s.dev.rd ⟨.XFE_DPTR, c, 0, 0⟩).toNat 1 := by
    rw [Dev.xferGoEff, hen, hbusy, Bool.not_true, Bool.or_self, if_neg Bool.false_ne_true]
    dsimp only
    rw [if_neg hmode'.1, if_neg hmode'.2]
    rfl
  obtain ⟨hstate, -, hhops, hchan⟩ := (s.dev.updXfer c fun x => { x with mode := s.dev.get XFE_CTL.MODE c }).xferFetch_fetches
    c.isLt (s.dev.rd ⟨.XFE_DPTR, c, 0, 0⟩).toNat 1
  refine ⟨_, State.row_of_empty hw _, ?_⟩
  dsimp only
  rw [heff, hstate, hhops, hchan, Dev.updXfer_chan_same]
  exact ⟨rfl, rfl, rfl, rfl, rfl⟩

theorem exec_xferGo_refused (h : s.dev.flag XFE_CTL.EN c = false ∨ s.dev.xferBusy c = true) :
    ∃ t, exec (.xferGo c) s = .next t ∧ t.dev.xfe = s.dev.xfe ∧ t.dev.raised s.dev.now 542
      ∧ t.dev.get XFE_CNT_BADGO.COUNT = min (2 ^ XFE_CNT_BADGO.COUNT.w - 1) (s.dev.get XFE_CNT_BADGO.COUNT + 1) := by
  have hbad : (! s.dev.flag XFE_CTL.EN c || s.dev.xferBusy c) = true := by
    rcases h with h | h <;> rw [h]
    · rfl
    · exact Bool.or_true _
  have hraised := (s.dev.count XFE_CNT_BADGO.COUNT).raise_raised 542
  rw [Dev.count_now] at hraised
  refine ⟨_, State.row_of_empty hw _, ?_⟩
  dsimp only
  rw [Dev.xferGoEff, if_pos hbad, Dev.raise_xfe, Dev.count_xfe, Dev.raise_get, Dev.get_count_eq _ _ _ _ _ (by decide) (by decide)]
  exact ⟨rfl, hraised, rfl⟩

theorem exec_xferKick_waiting (h : s.dev.get XFE_STAT.STATE c = 4) :
    ∃ t, exec (.xferKick c) s = .next t ∧ t.dev.get XFE_STAT.STATE c = 2
      ∧ t.dev.xfe.chan.get c = { s.dev.xfe.chan.get c with phase := .fetch } := by
  refine ⟨_, State.row_of_empty hw _, ?_⟩
  dsimp only
  rw [Dev.xferKickEff, if_pos h, Dev.updXfer_get, Dev.xferState_state _ _ _ (by decide), Dev.updXfer_chan_same, Dev.xferState_xfe]
  exact ⟨rfl, rfl⟩

theorem exec_xferKick_held (h : s.dev.get XFE_STAT.STATE c ≠ 4) :
    ∃ t, exec (.xferKick c) s = .next t ∧ t.dev.regs = s.dev.regs
      ∧ t.dev.xfe.chan.get c = { s.dev.xfe.chan.get c with kick := true } := by
  refine ⟨_, State.row_of_empty hw _, ?_⟩
  dsimp only
  rw [Dev.xferKickEff, if_neg h, Dev.updXfer_chan_same]
  exact ⟨rfl, rfl⟩

end

/-- The completions of what a clear of EN stops. -/
def Dev.abortReported (d : Dev) (c : Nat) : Dev :=
  let x := d.xfe.chan.get c
  let hops := d.get XFE_HOPS.HOPS c
  let moving := x.phase == .data || x.phase == .readback
  let d := if moving then (d.xferComplete c 6 hops false 0 (descTag x.desc) d.freeVal.toNat).drawn else d
  if x.mode ≠ 0 ∧ ! (moving && descLast x.desc) then d.xferComplete c 6 (if moving then hops else hops - 1) true 0 0 0 else d

theorem Dev.abortReported_now (d : Dev) (c : Nat) : (d.abortReported c).now = d.now := by
  simp only [Dev.abortReported, apply_ite Dev.now, Dev.xferComplete_now, Dev.drawn_now, ite_self]

theorem Dev.xferAbort_eq (d : Dev) (c : Nat) :
    d.xferAbort c = ((if ! d.xferBusy c then d else (d.abortReported c).raise 538).xferState c 0).updXfer c fun x =>
      { x with phase := .idle } := rfl

theorem Dev.abortReported_enabled (d : Dev) (c : Nat) : (d.abortReported c).get XFE_CTL.EN c = d.get XFE_CTL.EN c := by
  have hcomplete : ∀ (e : Dev) status hops rest check tag bytes,
      (e.xferComplete c status hops rest check tag bytes).get XFE_CTL.EN c = e.get XFE_CTL.EN c := fun _ _ _ _ _ _ _ =>
    Dev.frame_get (Dev.xferComplete_frame _ _ _ _ _ _ _ _) _ _ _ _ (by decide)
  rw [Dev.abortReported]
  refine ite_ind (P := fun e : Dev => e.get XFE_CTL.EN c = d.get XFE_CTL.EN c) ((hcomplete _ _ _ _ _ _ _).trans ?moved) ?moved
  exact ite_ind (P := fun e : Dev => e.get XFE_CTL.EN c = d.get XFE_CTL.EN c) (hcomplete _ _ _ _ _ _ _) rfl

theorem Dev.xferAbort_enabled (d : Dev) (c : Nat) : (d.xferAbort c).get XFE_CTL.EN c = d.get XFE_CTL.EN c := by
  rw [Dev.xferAbort_eq, Dev.updXfer_get, Dev.frame_get (Dev.xferState_frame _ _ _) _ _ _ _ (by decide)]
  exact ite_ind (P := fun e : Dev => e.get XFE_CTL.EN c = d.get XFE_CTL.EN c) rfl
    ((Dev.raise_get _ _ _ _ _ _).trans (Dev.abortReported_enabled d c))

section
variable {s : State} (hw : s.dev.bus.writes = []) (c : Fin 64)
include hw

theorem exec_xferAbort (hen : s.dev.flag XFE_CTL.EN c = true) :
    ∃ t, exec (.xferAbort c) s = .next t ∧ t.dev.flag XFE_CTL.EN c = false ∧ t.dev.get XFE_STAT.STATE c = 0
      ∧ (t.dev.xfe.chan.get c).phase = .idle ∧ (s.dev.xferBusy c = true → t.dev.raised s.dev.now 538) := by
  refine ⟨_, State.row_of_empty hw _, ?_⟩
  dsimp only
  rw [Dev.xferAbortEff, if_pos hen]
  refine ⟨?_, ?_, ?_, fun hbusy => ?_⟩
  · rw [Dev.flag, Dev.xferAbort_enabled, ← Dev.flag, Dev.flag_putb_whole _ _ _ _ _ _ (by decide)]
  · rw [Dev.xferAbort_eq, Dev.updXfer_get, Dev.xferState_state _ _ _ (by decide)]
  · rw [Dev.xferAbort_eq, Dev.updXfer_chan_same]
  · have hbusy' : (s.dev.putb XFE_CTL.EN false c).xferBusy c = true := by
      rw [← hbusy, Dev.xferBusy, Dev.putb, Dev.get_put_family _ _ _ _ _ _ _ _ (by decide), Dev.xferBusy]
    have hraised := ((s.dev.putb XFE_CTL.EN false c).abortReported c).raise_raised 538
    rw [Dev.abortReported_now, Dev.putb_now] at hraised
    rw [Dev.xferAbort_eq, hbusy', Bool.not_true, if_neg Bool.false_ne_true]
    exact (Dev.raised_congr ((Dev.xferState_frame _ _ _).1 .events (by decide)) _ _).2 hraised

end

/-! ### The fetch of a descriptor (R352, R357, R359) -/

section
variable {d : Dev} {c : Nat} {line : Line}

theorem Dev.xferFetched_passed (howner : (d.xfe.chan.get c).mode ≠ 2 ∨ descOwn line = true)
    (hhops : (d.xfe.chan.get c).mode ≠ 1 ∨ d.get XFE_HOPS.HOPS c ≤ max 1 (d.get XFE_HOP_LIMIT.LIMIT c)) :
    d.xferFetched c line = d.xferBegin c line := by
  have h2 : ¬ ((d.xfe.chan.get c).mode = 2 ∧ (! descOwn line) = true) := by
    rintro ⟨h, h'⟩
    rcases howner with ho | ho
    · exact ho h
    · rw [ho] at h'
      exact Bool.false_ne_true h'
  have h1 : ¬ ((d.xfe.chan.get c).mode = 1 ∧ max 1 (d.get XFE_HOP_LIMIT.LIMIT c) < d.get XFE_HOPS.HOPS c) := by
    rintro ⟨h, h'⟩
    rcases hhops with ho | ho
    · exact ho h
    · exact Nat.not_lt.2 ho h'
  rw [Dev.xferFetched, if_neg h2, if_neg h1]

theorem Dev.xferFetched_waits (hmode : (d.xfe.chan.get c).mode = 2) (howner : descOwn line = false)
    (hkick : (d.xfe.chan.get c).kick = false) :
    d.xferFetched c line = ((d.xferState c 4).updXfer c fun x => { x with phase := .idle }).raise 541 := by
  rw [Dev.xferFetched, hmode, howner, if_pos ⟨rfl, rfl⟩, hkick, if_neg Bool.false_ne_true]

variable (hphase : (d.xfe.chan.get c).phase = .fetch) (haddr : (d.xfe.chan.get c).addr % 2 = 0)
include hphase haddr

theorem Dev.descriptorFetchEff_read (hup : d.link.up = true) : d.descriptorFetchEff c .ok line = d.xferFetched c line := by
  have heven : ¬ (d.xfe.chan.get c).addr % 2 = 1 := by omega
  have hends : ¬ (! d.hostEnds .ok) = true := by
    rw [Dev.hostEnds, hup]
    exact Bool.false_ne_true
  rw [Dev.descriptorFetchEff, if_neg (not_not.2 hphase), if_neg heven, if_neg hends]
  rfl

theorem Dev.descriptorFetchEff_failed {ending : ReadEnd} (hending : ending ≠ .ok) (hends : d.hostEnds ending = true) :
    ∃ status, d.descriptorFetchEff c ending line = d.xferFail c status false := by
  have heven : ¬ (d.xfe.chan.get c).addr % 2 = 1 := by omega
  have hends' : ¬ (! d.hostEnds ending) = true := by
    rw [hends]
    exact Bool.false_ne_true
  rw [Dev.descriptorFetchEff, if_neg (not_not.2 hphase), if_neg heven, if_neg hends']
  cases ending
  case ok => exact absurd rfl hending
  all_goals exact ⟨_, rfl⟩

end

section
variable {s : State} (hw : s.dev.bus.writes = []) (c : Fin 64)
include hw

theorem exec_descriptorFetch_passed (line : Line) (hphase : (s.dev.xfe.chan.get c).phase = .fetch)
    (haddr : (s.dev.xfe.chan.get c).addr % 2 = 0) (hup : s.dev.link.up = true)
    (howner : (s.dev.xfe.chan.get c).mode ≠ 2 ∨ descOwn line = true)
    (hhops : (s.dev.xfe.chan.get c).mode ≠ 1 ∨ s.dev.get XFE_HOPS.HOPS c ≤ max 1 (s.dev.get XFE_HOP_LIMIT.LIMIT c))
    (hcheck : s.dev.descCheckResult line = 0) (hcount : descCount line ≠ 0) :
    ∃ t, exec (.descriptorFetch c .ok line) s = .next t ∧ t.dev.get XFE_STAT.STATE c = 2
      ∧ (t.dev.xfe.chan.get c).phase = .data ∧ (t.dev.xfe.chan.get c).desc = line
      ∧ (t.dev.xfe.chan.get c).pos = 0 := by
  obtain ⟨hstate, -, -, hchan⟩ := Dev.xferBegin_moves c.isLt hcheck hcount
  refine ⟨_, State.row_of_empty hw _, ?_⟩
  dsimp only
  rw [Dev.descriptorFetchEff_read hphase haddr hup, Dev.xferFetched_passed howner hhops, hstate, hchan]
  exact ⟨rfl, rfl, rfl, rfl⟩

theorem exec_descriptorFetch_waits (line : Line) (hphase : (s.dev.xfe.chan.get c).phase = .fetch)
    (haddr : (s.dev.xfe.chan.get c).addr % 2 = 0) (hup : s.dev.link.up = true) (hmode : (s.dev.xfe.chan.get c).mode = 2)
    (howner : descOwn line = false) (hkick : (s.dev.xfe.chan.get c).kick = false) :
    ∃ t, exec (.descriptorFetch c .ok line) s = .next t ∧ t.dev.get XFE_STAT.STATE c = 4
      ∧ (t.dev.xfe.chan.get c).phase = .idle ∧ t.dev.raised s.dev.now 541 := by
  have hraised := ((s.dev.xferState c 4).updXfer c fun x => { x with phase := .idle }).raise_raised 541
  rw [Dev.updXfer_now, Dev.xferState_now] at hraised
  refine ⟨_, State.row_of_empty hw _, ?_⟩
  dsimp only
  rw [Dev.descriptorFetchEff_read hphase haddr hup, Dev.xferFetched_waits hmode howner hkick, Dev.raise_get, Dev.updXfer_get,
    Dev.xferState_state _ _ _ (by decide), Dev.raise_xfe, Dev.updXfer_chan_same]
  exact ⟨rfl, rfl, hraised⟩

theorem exec_descriptorFetch_failed (line : Line) (ending : ReadEnd) (hphase : (s.dev.xfe.chan.get c).phase = .fetch)
    (haddr : (s.dev.xfe.chan.get c).addr % 2 = 0) (hending : ending ≠ .ok) (hends : s.dev.hostEnds ending = true) :
    ∃ t, exec (.descriptorFetch c ending line) s = .next t ∧ t.dev.get XFE_STAT.STATE c = 3
      ∧ t.dev.bitOf XFE_G_HALTED.CH c = true ∧ (t.dev.xfe.chan.get c).phase = .idle
      ∧ t.dev.raised s.dev.now 536 := by
  obtain ⟨status, heff⟩ := Dev.descriptorFetchEff_failed (line := line) hphase haddr hending hends
  refine ⟨_, State.row_of_empty hw _, ?_⟩
  dsimp only
  rw [heff]
  exact s.dev.xferFail_halts c.isLt status false

/-! ### Pieces and the end of the last write (R353, R356) -/

omit hw in
/-- The last write to a device's memory ends the descriptor. -/
theorem Dev.xferReadbackEff_device {d : Dev} {c : Nat} (ending : ReadEnd) (hphase : (d.xfe.chan.get c).phase = .readback)
    (hdst : descDst (d.xfe.chan.get c).desc ≠ 0) : d.xferReadbackEff c ending = d.xferEnd c := by
  have hgo : ¬ (decide ((d.xfe.chan.get c).phase ≠ .readback)
      || (descDst (d.xfe.chan.get c).desc == 0 && ! d.hostEnds ending)) = true := by
    rw [hphase, beq_eq_false_iff_ne.2 hdst]
    exact Bool.false_ne_true
  rw [Dev.xferReadbackEff, if_neg hgo, if_neg hdst]

theorem exec_xferReadback_register (ending : ReadEnd) (hphase : (s.dev.xfe.chan.get c).phase = .readback)
    (hdst : descDst (s.dev.xfe.chan.get c).desc ≠ 0) (hmode : (s.dev.xfe.chan.get c).mode = 0) :
    ∃ t, exec (.xferReadback c ending) s = .next t ∧ t.dev.get XFE_STAT.STATE c = 1
      ∧ t.dev.bitOf XFE_G_BUSY.CH c = false
      ∧ (t.dev.xfe.chan.get c).phase = .idle ∧ (t.dev.xfe.chan.get c).seq = (s.dev.xfe.chan.get c).seq + 1
      ∧ t.dev.get XFE_STAT.LAST_STATUS c
        = (if (s.dev.xfe.chan.get c).poisoned = true then 9 else if (s.dev.xfe.chan.get c).wdrop = true then 10 else 0)
      ∧ t.dev.raised s.dev.now (528 + c / 8) := by
  have hcompletes : (s.dev.xfe.chan.get c).completes = true := by
    rw [XferChan.completes, hmode]
    rfl
  have hend : s.dev.xferReadbackEff c ending = (s.dev.endReported c).xferIdle c := by
    rw [Dev.xferReadbackEff_device ending hphase hdst, Dev.xferEnd_eq, hmode]
    rfl
  obtain ⟨hstate, hbusy, hchan, hlast, hraised⟩ := (s.dev.endReported c).xferIdle_idles c.isLt
  refine ⟨_, State.row_of_empty hw _, ?_⟩
  dsimp only
  rw [hend, hstate, hbusy, hchan, hlast]
  rw [Dev.endReported_eq, if_pos hcompletes] at hraised ⊢
  rw [Dev.xferComplete_now, Dev.endShown_now] at hraised
  rw [Dev.xferComplete_chan, Dev.endShown_xfe, Dev.xferComplete_lastStatus _ _ _ _ _ _ _ _ (XferChan.status_lt _)]
  exact ⟨rfl, rfl, rfl, rfl, rfl, hraised⟩

theorem exec_xferReadback_chain (ending : ReadEnd) (hphase : (s.dev.xfe.chan.get c).phase = .readback)
    (hdst : descDst (s.dev.xfe.chan.get c).desc ≠ 0) (hmode : (s.dev.xfe.chan.get c).mode = 1)
    (hlast : descLast (s.dev.xfe.chan.get c).desc = false) :
    ∃ t, exec (.xferReadback c ending) s = .next t ∧ t.dev.get XFE_STAT.STATE c = 2
      ∧ (t.dev.xfe.chan.get c).phase = .fetch
      ∧ (t.dev.xfe.chan.get c).addr = (s.dev.xfe.chan.get c).desc.w4.toNat
      ∧ t.dev.get XFE_HOPS.HOPS c = (s.dev.get XFE_HOPS.HOPS c + 1) % 2 ^ XFE_HOPS.HOPS.w := by
  have hend : s.dev.xferReadbackEff c ending
      = (s.dev.endReported c).xferFetch c (s.dev.xfe.chan.get c).desc.w4.toNat (s.dev.get XFE_HOPS.HOPS c + 1) := by
    rw [Dev.xferReadbackEff_device ending hphase hdst, Dev.xferEnd_eq, hmode, hlast]
    rfl
  obtain ⟨hstate, -, hhops, hchan⟩ := (s.dev.endReported c).xferFetch_fetches c.isLt (s.dev.xfe.chan.get c).desc.w4.toNat
    (s.dev.get XFE_HOPS.HOPS c + 1)
  refine ⟨_, State.row_of_empty hw _, ?_⟩
  dsimp only
  rw [hend, hstate, hhops, hchan]
  exact ⟨rfl, rfl, rfl, rfl⟩

end

/-- A value that is checked goes on with the same descriptor in the same phase. -/
theorem XferChan.checked_kept (x : XferChan) (b : List Byte) : (x.checked b).desc = x.desc ∧ (x.checked b).phase = x.phase := by
  rw [XferChan.checked]
  split <;> exact ⟨rfl, rfl⟩

/-- The channel after a piece of `n` bytes, as written, of the bench to the bench. -/
def XferChan.moved (x : XferChan) (b : List Byte) (n : Nat) (poison : Bool) : XferChan :=
  { x.checked b with pos := x.pos + n, poisoned := x.poisoned || poison, wdrop := x.wdrop || false }

/-- The bytes of a piece of `n` bytes from the bench, as they are written. -/
def Dev.pieceBytes (d : Dev) (c n : Nat) : List Byte :=
  swapBytes (descSwap (d.xfe.chan.get c).desc) (d.storeRead 0 ((d.xfe.chan.get c).desc.w1.toNat + (d.xfe.chan.get c).pos) n)

/-- A piece of `n` bytes moves from the bench to the bench. -/
def Dev.pieceMoved (d : Dev) (c n : Nat) : Dev :=
  (d.storeWrite 0 ((d.xfe.chan.get c).desc.w2.toNat + (d.xfe.chan.get c).pos) (d.pieceBytes c n)).updXfer c fun x =>
    x.moved (d.pieceBytes c n) n (d.poisoned 0 ((d.xfe.chan.get c).desc.w1.toNat + (d.xfe.chan.get c).pos) n)

theorem Dev.pieceMoved_chan (d : Dev) (c n : Nat) :
    ((d.pieceMoved c n).xfe.chan.get c).pos = (d.xfe.chan.get c).pos + n
      ∧ ((d.pieceMoved c n).xfe.chan.get c).phase = (d.xfe.chan.get c).phase
      ∧ ((d.pieceMoved c n).xfe.chan.get c).desc = (d.xfe.chan.get c).desc := by
  obtain ⟨hdesc, hphase⟩ := (d.xfe.chan.get c).checked_kept (d.pieceBytes c n)
  rw [Dev.pieceMoved, Dev.updXfer_chan_same]
  exact ⟨rfl, hphase, hdesc⟩

theorem Dev.xferLast_bare {d : Dev} {c : Nat} (h : descAppended (d.xfe.chan.get c).desc = 0) :
    d.xferLast c = d.updXfer c fun x => { x with phase := .readback, wdrop := x.wdrop || false } := by
  rw [Dev.xferLast, h]
  rfl

section
variable {s : State} (hw : s.dev.bus.writes = []) (c : Fin 64)
include hw

theorem exec_xferPiece_bench (data : List Byte) (ending : ReadEnd) (n : Nat)
    (hn : n = min (descCount (s.dev.xfe.chan.get c).desc - (s.dev.xfe.chan.get c).pos)
        (4096 - ((s.dev.xfe.chan.get c).desc.w1.toNat + (s.dev.xfe.chan.get c).pos) % 4096))
    (hphase : (s.dev.xfe.chan.get c).phase = .data) (hsrc : descSrc (s.dev.xfe.chan.get c).desc = 1)
    (hdst : descDst (s.dev.xfe.chan.get c).desc = 1) (happend : descAppended (s.dev.xfe.chan.get c).desc = 0) :
    ∃ t, exec (.xferPiece c ending data) s = .next t
      ∧ t.dev.ben.bench = s.dev.ben.bench.store
          ((s.dev.xfe.chan.get c).desc.w2.toNat + (s.dev.xfe.chan.get c).pos)
          (swapBytes (descSwap (s.dev.xfe.chan.get c).desc)
            (s.dev.ben.bench.bytes ((s.dev.xfe.chan.get c).desc.w1.toNat + (s.dev.xfe.chan.get c).pos) n))
      ∧ (t.dev.xfe.chan.get c).pos = (s.dev.xfe.chan.get c).pos + n
      ∧ (t.dev.xfe.chan.get c).phase
        = (if (s.dev.xfe.chan.get c).pos + n = descCount (s.dev.xfe.chan.get c).desc then .readback else .data) := by
  have hhost : (descSrc (s.dev.xfe.chan.get c).desc == 0) = false := by
    rw [hsrc]
    rfl
  have hgo : ¬ (decide ((s.dev.xfe.chan.get c).phase ≠ .data)
      || (descSrc (s.dev.xfe.chan.get c).desc == 0 && ! s.dev.hostEnds ending)) = true := by
    rw [hphase, hhost]
    exact Bool.false_ne_true
  have heff : s.dev.xferPieceEff c ending data
      = if ((s.dev.pieceMoved c n).xfe.chan.get c).pos = descCount (s.dev.xfe.chan.get c).desc then
          (s.dev.pieceMoved c n).xferLast c
        else s.dev.pieceMoved c n := by
    rw [Dev.xferPieceEff, if_neg hgo]
    dsimp only
    rw [hhost, if_neg Bool.false_ne_true, if_neg Bool.false_ne_true, hsrc, hdst, ← hn]
    rfl
  obtain ⟨hpos, hphase', hdesc⟩ := s.dev.pieceMoved_chan c n
  refine ⟨_, State.row_of_empty hw _, ?_⟩
  dsimp only
  rw [heff, hpos]
  split
  · rw [Dev.xferLast_bare (by rw [hdesc, happend]), Dev.updXfer_chan_same]
    exact ⟨rfl, hpos, rfl⟩
  · exact ⟨rfl, hpos, hphase'.trans hphase⟩

theorem exec_xferPiece_failed (data : List Byte) (ending : ReadEnd) (hphase : (s.dev.xfe.chan.get c).phase = .data)
    (hsrc : descSrc (s.dev.xfe.chan.get c).desc = 0) (hok : ending ≠ .ok) (hpoison : ending ≠ .poison) :
    ∃ t, exec (.xferPiece c ending data) s = .next t ∧ t.dev.get XFE_STAT.STATE c = 3
      ∧ (t.dev.xfe.chan.get c).phase = .idle ∧ t.dev.raised s.dev.now 536 := by
  obtain ⟨status, hstatus⟩ : ∃ status, readStatus ending = some status := by
    cases ending
    case ok => exact absurd rfl hok
    case poison => exact absurd rfl hpoison
    all_goals exact ⟨_, rfl⟩
  have heff : s.dev.xferPieceEff c ending data = s.dev.xferFail c status true := by
    have hends : s.dev.hostEnds ending = true := by
      rw [Dev.hostEnds, hstatus]
      exact Bool.or_true _
    have hhost : (descSrc (s.dev.xfe.chan.get c).desc == 0) = true := by
      rw [hsrc]
      rfl
    have hgo : ¬ (decide ((s.dev.xfe.chan.get c).phase ≠ .data)
        || (descSrc (s.dev.xfe.chan.get c).desc == 0 && ! s.dev.hostEnds ending)) = true := by
      rw [hphase, hhost, hends]
      exact Bool.false_ne_true
    rw [Dev.xferPieceEff, if_neg hgo]
    dsimp only
    rw [hhost, if_pos rfl, hstatus]
  obtain ⟨hstate, -, hidle, hraised⟩ := s.dev.xferFail_halts c.isLt status true
  refine ⟨_, State.row_of_empty hw _, ?_⟩
  dsimp only
  rw [heff]
  exact ⟨hstate, hidle, hraised⟩

end

/-- Settles O45: GO, KICK and the clear of EN, the fetch, a piece and the end of the last write, row by row. -/
theorem transferCommandsAct : Obligations.TransferCommandsAct := by
  intro s c hw
  exact ⟨exec_xferGo_register hw c, exec_xferGo_list hw c, exec_xferGo_refused hw c, exec_xferKick_waiting hw c,
    exec_xferKick_held hw c, exec_xferAbort hw c, exec_descriptorFetch_passed hw c, exec_descriptorFetch_waits hw c,
    exec_descriptorFetch_failed hw c, exec_xferPiece_bench hw c, exec_xferPiece_failed hw c,
    exec_xferReadback_register hw c, exec_xferReadback_chain hw c⟩

end Sys2Proof.Machine

/-! ## Hoist targets, pieces, entries, passes and releases (13_bench_and_quarry_memory.md R305-R308) -/

namespace Sys2Proof.Machine

-- One proof at a time: the text is compiled within a fixed memory.
set_option Elab.async false

@[simp] theorem Dev.updTgt_target_same (d : Dev) (t : Nat) (f : Target → Target) :
    (d.updTgt t f).ben.target.get t = f (d.ben.target.get t) := Tab.get_upd_same _ _ _

/-! ### A write of BEN_HT_CTL (R305, R306) -/

theorem Dev.skeinMeets_put (d : Dev) (f : Fld) (v t st base size : Nat) :
    (d.put f v t).skeinMeets st base size = d.skeinMeets st base size := by
  simp only [Dev.skeinMeets, Dev.skeinMeetsBut, Dev.put_lanes]

theorem Dev.tallyMeets_put (d : Dev) (f : Fld) (v t st base size : Nat) :
    (d.put f v t).tallyMeets st base size = d.tallyMeets st base size := rfl

theorem Dev.targetMeets_put (d : Dev) (f : Fld) (v t : Nat) (kinds : List Nat) (base size : Nat) :
    (d.put f v t).targetMeets (some t) kinds base size = d.targetMeets (some t) kinds base size := by
  refine congrArg (List.any _) (funext fun u => ?_)
  by_cases hu : u = t
  · subst hu
    simp only [bne_self_eq_false, Bool.false_and]
  · have hget : ∀ f' : Fld, (d.put f v t).get f' u = d.get f' u := fun f' => Dev.get_put_index _ _ _ _ _ _ _ _ hu
    simp only [Dev.flag, hget]

theorem Dev.tgtCheck_putCtl (d : Dev) {f : Fld} (v t : Nat) (hf : f.g = .BEN_HT_CTL)
    (hkind : (d.put f v t).get BEN_HT_CTL.KIND t = d.get BEN_HT_CTL.KIND t)
    (hq : (d.put f v t).get BEN_HT_CTL.Q t = d.get BEN_HT_CTL.Q t) : (d.put f v t).tgtCheck t = d.tgtCheck t := by
  have hget : ∀ f' : Fld, f'.g ≠ .BEN_HT_CTL → ∀ i, (d.put f v t).get f' i = d.get f' i := fun f' h i =>
    Dev.get_put_family _ _ _ _ _ _ _ _ (hf ▸ h)
  simp (disch := decide) only [Dev.tgtCheck, hkind, hq, hget, Dev.targetMeets_put, Dev.skeinMeets_put,
    Dev.tallyMeets_put]


theorem Dev.tgtCheck_lt (d : Dev) (t : Nat) : d.tgtCheck t < 2 ^ 4 := by
  simp only [Dev.tgtCheck]
  split_ifs <;> decide

/-- The control word of a disabled target is written; EN stays clear, and RESULT as it was. -/
def Dev.tgtWritten (d : Dev) (t : Nat) (v : W32) : Dev :=
  ((d.wr ⟨.BEN_HT_CTL, t, 0, 0⟩ (v.setWidth 64)).putb BEN_HT_CTL.EN false t).put BEN_HT_CTL.RESULT (d.get BEN_HT_CTL.RESULT t) t

section
variable (d : Dev) (t : Nat) (v : W32)

theorem Dev.tgtWritten_check :
    (d.tgtWritten t v).tgtCheck t = (d.wr ⟨.BEN_HT_CTL, t, 0, 0⟩ (v.setWidth 64)).tgtCheck t := by
  rw [Dev.tgtWritten, Dev.tgtCheck_putCtl _ _ _ rfl, Dev.putb, Dev.tgtCheck_putCtl _ _ _ rfl]
  all_goals exact Dev.get_put_other _ _ _ _ _ _ _ _ _ _ (by decide) (by decide)

theorem Dev.tgtWritten_kind :
    (d.tgtWritten t v).get BEN_HT_CTL.KIND t = v.toNat / 2 ^ BEN_HT_CTL.KIND.lo % 2 ^ BEN_HT_CTL.KIND.w := by
  rw [Dev.tgtWritten, Dev.get_put_other _ _ _ _ _ _ _ _ _ _ (by decide) (by decide), Dev.putb,
    Dev.get_put_other _ _ _ _ _ _ _ _ _ _ (by decide) (by decide)]
  exact (Dev.get_wr_eq _ BEN_HT_CTL.KIND _ _ _ _ (by decide)).trans (by rw [BitVec.toNat_setWidth_of_le (by decide)])

theorem Dev.tgtWritten_queue :
    (d.tgtWritten t v).get BEN_HT_CTL.Q t = v.toNat / 2 ^ BEN_HT_CTL.Q.lo % 2 ^ BEN_HT_CTL.Q.w := by
  rw [Dev.tgtWritten, Dev.get_put_other _ _ _ _ _ _ _ _ _ _ (by decide) (by decide), Dev.putb,
    Dev.get_put_other _ _ _ _ _ _ _ _ _ _ (by decide) (by decide)]
  exact (Dev.get_wr_eq _ BEN_HT_CTL.Q _ _ _ _ (by decide)).trans (by rw [BitVec.toNat_setWidth_of_le (by decide)])

theorem Dev.tgtWritten_enabled : (d.tgtWritten t v).flag BEN_HT_CTL.EN t = false := by
  rw [Dev.tgtWritten, Dev.flag_put_other _ _ _ _ _ _ _ _ _ _ (by decide) (by decide), Dev.flag_putb_whole _ _ _ _ _ _ (by decide)]

/-- A target that passes its checks starts anew: its pointers, its status and its stream. -/
def Dev.tgtStarted (d : Dev) (t : Nat) : Dev :=
  let wp := if d.get BEN_HT_CTL.KIND t = 0 then d.get BEN_HT_BASE.OFS t else 0
  let d := ((d.put BEN_HT_WP.OFS wp t).wr ⟨.BEN_HT_OLDEST, t, 0, 0⟩ 0).putb BEN_HT_STREAM.STUCK false t
  d.updTgt t fun x => { due := x.due, seq := x.seq, stream := { last := d.now } }

theorem Dev.tgtStarted_get {f : Fld} (i : Nat) (h : f.g ≠ .BEN_HT_WP ∧ f.g ≠ .BEN_HT_OLDEST ∧ f.g ≠ .BEN_HT_STREAM) :
    (d.tgtStarted t).get f i = d.get f i := by
  rw [Dev.tgtStarted, Dev.updTgt_get, Dev.putb, Dev.get_put_family _ _ _ _ _ _ _ _ h.2.2, Dev.get_wr_family _ _ _ _ _ h.2.1,
    Dev.get_put_family _ _ _ _ _ _ _ _ h.1]

theorem Dev.tgtStarted_wp (hkind : d.get BEN_HT_CTL.KIND t = 0) :
    (d.tgtStarted t).get BEN_HT_WP.OFS t = d.get BEN_HT_BASE.OFS t := by
  rw [Dev.tgtStarted, Dev.updTgt_get, Dev.putb, Dev.get_put_family _ _ _ _ _ _ _ _ (by decide),
    Dev.get_wr_family _ _ _ _ _ (show BEN_HT_WP.OFS.g ≠ .BEN_HT_OLDEST by decide), if_pos hkind]
  exact Dev.get_put_lt _ _ _ _ (by decide) (d.get_lt BEN_HT_BASE.OFS t 0 0)

theorem Dev.hoistTargetEnableEff_set (hv : v.getLsbD 31 = true) (hen : d.flag BEN_HT_CTL.EN t = false) :
    d.hoistTargetEnableEff t v
      = if (d.tgtWritten t v).tgtCheck t = 1 then
          ((((d.tgtWritten t v).put BEN_HT_CTL.RESULT ((d.tgtWritten t v).tgtCheck t) t).tgtStarted t).putb
            BEN_HT_CTL.EN true t).dupShow
        else (d.tgtWritten t v).put BEN_HT_CTL.RESULT ((d.tgtWritten t v).tgtCheck t) t := by
  rw [Dev.hoistTargetEnableEff, if_neg (Bool.eq_false_iff.1 hen), hv, if_pos rfl]
  rfl

end

theorem exec_hoistTargetEnable_set {s : State} (hw : s.dev.bus.writes = []) (t : Fin 64) (v : W32) (hv : v.getLsbD 31 = true)
    (hen : s.dev.flag BEN_HT_CTL.EN t = false) :
    ∃ u, exec (.hoistTargetEnable t v) s = .next u
      ∧ u.dev.get BEN_HT_CTL.RESULT t = (s.dev.wr ⟨.BEN_HT_CTL, t, 0, 0⟩ (v.setWidth 64)).tgtCheck t
      ∧ u.dev.flag BEN_HT_CTL.EN t = ((s.dev.wr ⟨.BEN_HT_CTL, t, 0, 0⟩ (v.setWidth 64)).tgtCheck t == 1)
      ∧ u.dev.get BEN_HT_CTL.KIND t = v.toNat / 2 ^ BEN_HT_CTL.KIND.lo % 2 ^ BEN_HT_CTL.KIND.w
      ∧ u.dev.get BEN_HT_CTL.Q t = v.toNat / 2 ^ BEN_HT_CTL.Q.lo % 2 ^ BEN_HT_CTL.Q.w
      ∧ (u.dev.flag BEN_HT_CTL.EN t = true → u.dev.get BEN_HT_CTL.KIND t = 0 →
          u.dev.get BEN_HT_WP.OFS t = s.dev.get BEN_HT_BASE.OFS t) := by
  have hkind := s.dev.tgtWritten_kind t v
  have hqueue := s.dev.tgtWritten_queue t v
  have hoff := s.dev.tgtWritten_enabled t v
  have hbase : (s.dev.tgtWritten t v).get BEN_HT_BASE.OFS t = s.dev.get BEN_HT_BASE.OFS t := by
    rw [Dev.tgtWritten, Dev.get_put_family _ _ _ _ _ _ _ _ (by decide), Dev.putb, Dev.get_put_family _ _ _ _ _ _ _ _ (by decide),
      Dev.get_wr_family _ _ _ _ _ (show BEN_HT_BASE.OFS.g ≠ .BEN_HT_CTL by decide)]
  refine ⟨_, State.row_of_empty hw _, ?_⟩
  dsimp only
  rw [Dev.hoistTargetEnableEff_set _ _ _ hv hen, ← Dev.tgtWritten_check]
  have hlt := (s.dev.tgtWritten t v).tgtCheck_lt t
  generalize (s.dev.tgtWritten t v).tgtCheck t = r at hlt ⊢
  generalize s.dev.tgtWritten t v = d at hkind hqueue hoff hbase ⊢
  by_cases hr : r = 1
  · rw [if_pos hr]
    have hget : ∀ f : Fld, f.g = .BEN_HT_CTL →
        ((((d.put BEN_HT_CTL.RESULT r t).tgtStarted t).putb BEN_HT_CTL.EN true t).dupShow).get f t
        = (((d.put BEN_HT_CTL.RESULT r t).tgtStarted t).putb BEN_HT_CTL.EN true t).get f t := fun f hf =>
      Dev.frame_get (Dev.dupShow_frame _) _ _ _ _ (by rw [hf]; decide)
    have hstarted : ∀ f : Fld, f.g = .BEN_HT_CTL → ((d.put BEN_HT_CTL.RESULT r t).tgtStarted t).get f t
        = (d.put BEN_HT_CTL.RESULT r t).get f t := fun f hf => Dev.tgtStarted_get _ _ _ (by rw [hf]; decide)
    refine ⟨?_, ?_, ?_, ?_, fun _ h0 => ?_⟩
    · rw [hget _ rfl, Dev.putb, Dev.get_put_other _ _ _ _ _ _ _ _ _ _ (by decide) (by decide), hstarted _ rfl,
        Dev.get_put_lt _ _ _ _ (by decide) hlt]
    · rw [Dev.flag, hget _ rfl, ← Dev.flag, Dev.flag_putb_whole _ _ _ _ _ _ (by decide), hr]
      rfl
    · rw [hget _ rfl, Dev.putb, Dev.get_put_other _ _ _ _ _ _ _ _ _ _ (by decide) (by decide), hstarted _ rfl,
        Dev.get_put_other _ _ _ _ _ _ _ _ _ _ (by decide) (by decide), hkind]
    · rw [hget _ rfl, Dev.putb, Dev.get_put_other _ _ _ _ _ _ _ _ _ _ (by decide) (by decide), hstarted _ rfl,
        Dev.get_put_other _ _ _ _ _ _ _ _ _ _ (by decide) (by decide), hqueue]
    · rw [hget _ rfl, Dev.putb, Dev.get_put_other _ _ _ _ _ _ _ _ _ _ (by decide) (by decide), hstarted _ rfl] at h0
      rw [Dev.frame_get (Dev.dupShow_frame _) _ _ _ _ (by decide), Dev.putb, Dev.get_put_family _ _ _ _ _ _ _ _ (by decide),
        Dev.tgtStarted_wp _ _ h0, Dev.get_put_family _ _ _ _ _ _ _ _ (by decide), hbase]
  · rw [if_neg hr, Dev.get_put_lt _ _ _ _ (by decide) hlt, Dev.flag_put_other _ _ _ _ _ _ _ _ _ _ (by decide) (by decide), hoff,
      Dev.get_put_other _ _ _ _ _ _ _ _ _ _ (by decide) (by decide), hkind,
      Dev.get_put_other _ _ _ _ _ _ _ _ _ _ (by decide) (by decide), hqueue]
    exact ⟨rfl, (beq_eq_false_iff_ne.2 hr).symm, rfl, rfl, fun h => absurd h Bool.false_ne_true⟩

theorem exec_hoistTargetEnable_clear {s : State} (hw : s.dev.bus.writes = []) (t : Fin 64) (v : W32)
    (hv : v.getLsbD 31 = false) (hen : s.dev.flag BEN_HT_CTL.EN t = true) (huse : s.dev.tgtInUse t = false) :
    ∃ u, exec (.hoistTargetEnable t v) s = .next u ∧ u.dev.flag BEN_HT_CTL.EN t = false
      ∧ u.dev.get BEN_HT_CTL.KIND t = s.dev.get BEN_HT_CTL.KIND t := by
  have heff : s.dev.hoistTargetEnableEff t v
      = ((s.dev.windowAbandon (s.dev.tgtPort t) (· == t.val)).putb BEN_HT_CTL.EN false t).dupShow.retireRecheck := by
    rw [Dev.hoistTargetEnableEff, if_pos hen, hv, if_neg Bool.false_ne_true, huse, if_neg Bool.false_ne_true]
  refine ⟨_, State.row_of_empty hw _, ?_⟩
  dsimp only
  rw [heff, Dev.frame_flag (Dev.retireRecheck_frame _) _ _ _ _ (by decide), Dev.frame_flag (Dev.dupShow_frame _) _ _ _ _ (by decide),
    Dev.flag_putb_whole _ _ _ _ _ _ (by decide), Dev.frame_get (Dev.retireRecheck_frame _) _ _ _ _ (by decide),
    Dev.frame_get (Dev.dupShow_frame _) _ _ _ _ (by decide), Dev.putb, Dev.get_put_other _ _ _ _ _ _ _ _ _ _ (by decide) (by decide),
    Dev.frame_get (Dev.windowAbandon_frame _ _ _) _ _ _ _ (by decide)]
  exact ⟨rfl, rfl⟩

theorem exec_hoistTargetEnable_inUse {s : State} (hw : s.dev.bus.writes = []) (t : Fin 64) (v : W32)
    (hv : v.getLsbD 31 = false) (hen : s.dev.flag BEN_HT_CTL.EN t = true) (huse : s.dev.tgtInUse t = true) :
    ∃ u, exec (.hoistTargetEnable t v) s = .next u ∧ u.dev.flag BEN_HT_CTL.EN t = true
      ∧ u.dev.get BEN_HT_CTL.RESULT t = 6 ∧ u.dev.ben = s.dev.ben := by
  have heff : s.dev.hoistTargetEnableEff t v = s.dev.put BEN_HT_CTL.RESULT 6 t := by
    rw [Dev.hoistTargetEnableEff, if_pos hen, hv, if_neg Bool.false_ne_true, huse, if_pos rfl]
  refine ⟨_, State.row_of_empty hw _, ?_⟩
  dsimp only
  rw [heff, Dev.flag_put_other _ _ _ _ _ _ _ _ _ _ (by decide) (by decide), Dev.get_put_lt _ _ _ _ (by decide) (by decide)]
  exact ⟨hen, rfl, rfl⟩

theorem exec_replayGo {s : State} (hw : s.dev.bus.writes = []) (t : Fin 64) (hen : s.dev.flag BEN_HT_CTL.EN t = true)
    (hkind : s.dev.get BEN_HT_CTL.KIND t = 2) :
    ∃ u, exec (.replayGo t) s = .next u
      ∧ (u.dev.ben.target.get t).passes = (s.dev.ben.target.get t).passes + 1
      ∧ u.dev.get BEN_HT_WP.OFS t = if (s.dev.ben.target.get t).passes = 0 then 0 else s.dev.get BEN_HT_WP.OFS t := by
  have heff : s.dev.replayGoEff t
      = (if (s.dev.ben.target.get t).passes = 0 then s.dev.put BEN_HT_WP.OFS 0 t else s.dev).updTgt t fun x =>
          { x with passes := x.passes + 1 } := by
    rw [Dev.replayGoEff, hen, hkind]
    rfl
  refine ⟨_, State.row_of_empty hw _, ?_⟩
  dsimp only
  rw [heff, Dev.updTgt_target_same, Dev.updTgt_get]
  split
  · rw [Dev.get_put_lt _ _ _ _ (by decide) (by decide)]
    exact ⟨rfl, rfl⟩
  · exact ⟨rfl, rfl⟩

end Sys2Proof.Machine

/-! ## Pieces, entries, passes and releases of the hoist (13_bench_and_quarry_memory.md R305, R307, R308) -/

namespace Sys2Proof.Machine

-- One proof at a time: the text is compiled within a fixed memory.
set_option Elab.async false

/-! ### What a piece leaves of the bench and the quarry -/

/-- The bench, the quarry and the skein that the hoist served last are the same in both. -/
def Dev.SameStores (d d' : Dev) : Prop :=
  d'.ben.bench = d.ben.bench ∧ d'.ben.quarry = d.ben.quarry ∧ d'.ben.hoistLast = d.ben.hoistLast

theorem Dev.SameStores.trans {a b c : Dev} (h : a.SameStores b) (h' : b.SameStores c) : a.SameStores c :=
  ⟨h'.1.trans h.1, h'.2.1.trans h.2.1, h'.2.2.trans h.2.2⟩

theorem Dev.sameStores_of_ben {d d' : Dev} (h : d'.ben = d.ben) : d.SameStores d' := by
  rw [Dev.SameStores, h]
  exact ⟨rfl, rfl, rfl⟩

theorem Dev.updTgt_sameStores (d : Dev) (t : Nat) (f : Target → Target) : d.SameStores (d.updTgt t f) := ⟨rfl, rfl, rfl⟩

theorem Dev.hoistDelivered_sameStores (d : Dev) (k t outcome : Nat) (h : Held) :
    d.SameStores (d.hoistDelivered k t outcome h) := by
  rw [Dev.hoistDelivered]
  refine Dev.SameStores.trans ?_ (Dev.sameStores_of_ben (Dev.frame_ben (Dev.skeinOldest_frame _ _) (by decide) (by decide)))
  exact ⟨rfl, rfl, rfl⟩

/-- What WARN and PANIC leave: the bench's block but for the frame in which PANIC changed, and every event raised. -/
def Dev.FlowKept (d d' : Dev) : Prop :=
  (∃ k, d'.ben = { d.ben with panicAt := k }) ∧ ∀ k e, d.raised k e → d'.raised k e

theorem Dev.flowUpdate_kept (d : Dev) : d.FlowKept d.flowUpdate := by
  have hsame : d.FlowKept d := ⟨⟨_, rfl⟩, fun _ _ h => h⟩
  have hraise : ∀ (d' : Dev) e, d.FlowKept d' → d.FlowKept (d'.raise e) := fun d' e ⟨⟨k, hk⟩, he⟩ =>
    ⟨⟨k, (Dev.raise_ben _ _).trans hk⟩, fun j i h => Dev.raised_raise (he j i h) _⟩
  have hput : ∀ (d' : Dev) f b, d.FlowKept d' → d.FlowKept (d'.putb f b) := fun _ _ _ h => h
  have hpanic : ∀ (d' : Dev) k, d.FlowKept d' → d.FlowKept (d'.setBen { d'.ben with panicAt := k }) :=
    fun d' k ⟨⟨_, hk⟩, he⟩ => ⟨⟨k, by rw [Dev.setBen_ben, hk]⟩, he⟩
  have hwarn := hput _ BEN_STAT.WARN (d.skeinReaches (d.get BEN_THR.WARN))
    (ite_ind (P := Dev.FlowKept d) (c := (d.skeinReaches (d.get BEN_THR.WARN) && ! d.flag BEN_STAT.WARN) = true)
      (hraise _ 464 hsame) hsame)
  rw [Dev.flowUpdate]
  refine ite_ind (P := Dev.FlowKept d) (ite_ind (P := Dev.FlowKept d) hwarn ?_) (ite_ind (P := Dev.FlowKept d) ?_ hwarn)
  · exact hraise _ _ (hput _ _ _ (hpanic _ _ hwarn))
  · exact hraise _ _ (hput _ _ _ (hpanic _ _ hwarn))

/-! ### A piece for a QUARRY target -/

/-- The bytes of a piece of `n` bytes of the held segment `h`. -/
def Dev.heldBytes (d : Dev) (s : Skein) (h : Held) (n : Nat) : List Byte :=
  (List.range n).flatMap fun j => d.storeRead s.store (s.base + h.pos (h.sent + j)) 1

/-- The bytes of a piece are written to the ring of target `t`, round its end. -/
def Dev.pieceStored (d : Dev) (t : Nat) (s : Skein) (h : Held) (n : Nat) : Dev :=
  let base := d.get BEN_HT_BASE.OFS t
  let wp := d.get BEN_HT_WP.OFS t
  let first := min n (d.get BEN_HT_SIZE.OFS t - (wp - base))
  (d.storeWrite 1 wp ((d.heldBytes s h n).take first)).storeWrite 1 base ((d.heldBytes s h n).drop first)

section
variable {d : Dev} {k t : Nat} {s : Skein} {h : Held} {total n : Nat}

theorem Dev.pieceQuarry_overwrites (hpolicy : d.flag BEN_HT_CTL.POLICY t = false) :
    (d.pieceStored t s h n).SameStores (d.pieceQuarry k t s h total n)
      ∧ (d.pieceQuarry k t s h total n).get BEN_HT_WP.OFS t
        = (d.get BEN_HT_BASE.OFS t + (d.get BEN_HT_WP.OFS t - d.get BEN_HT_BASE.OFS t + n) % max 1 (d.get BEN_HT_SIZE.OFS t))
          % 2 ^ BEN_HT_WP.OFS.w := by
  rw [Dev.pieceQuarry]
  dsimp only
  rw [hpolicy, Bool.false_and, if_neg Bool.false_ne_true]
  refine ⟨ite_ind (P := Dev.SameStores _) (Dev.SameStores.trans ?old (Dev.hoistDelivered_sameStores _ _ _ _ _)) ?old, ?wp⟩
  case old =>
    refine Dev.SameStores.trans ?_ (Dev.sameStores_of_ben (Dev.frame_ben (Dev.tgtOldest_frame _ _) (by decide) (by decide)))
    refine Dev.SameStores.trans (Dev.sameStores_of_ben ?_) (Dev.updTgt_sameStores _ _ _)
    rw [Dev.put_ben, Dev.count_ben, apply_ite Dev.ben, Dev.raise_ben, ite_self]
    rfl
  case wp =>
    have hput : ∀ (e : Dev) v, (e.put BEN_HT_WP.OFS v t).get BEN_HT_WP.OFS t = v % 2 ^ BEN_HT_WP.OFS.w := fun e v =>
      Dev.get_put_eq _ _ _ _ _ _ (by decide)
    refine ite_ind (P := fun e : Dev => e.get BEN_HT_WP.OFS t = _)
      ((Dev.frame_get (Dev.hoistDelivered_frame _ _ _ _ _) _ _ _ _ (by decide)).trans ?moved) ?moved
    rw [Dev.frame_get (Dev.tgtOldest_frame _ _) _ _ _ _ (by decide), Dev.updHeld_get, Dev.updTgt_get, hput]

end

section
variable {d : Dev} {k t : Nat} {s : Skein} {h : Held} {total n : Nat}

theorem Dev.pieceQuarry_stops (hpolicy : d.flag BEN_HT_CTL.POLICY t = true)
    (hroom : d.get BEN_HT_SIZE.OFS t < d.ringUsed t + (if h.sent = 0 ∧ h.ended then total else n)) :
    d.pieceQuarry k t s h total n
      = ((d.updTgt t fun x => { x with stopped := true }).putb BEN_HT_STREAM.STUCK
          (decide (d.get BEN_HT_SIZE.OFS t < total)) t).raise 504 := by
  rw [Dev.pieceQuarry]
  dsimp only
  rw [hpolicy, decide_eq_true hroom]
  rfl

end

/-! ### The piece that the hoist serves (R307) -/

/-- Skein `k` is the one served last. -/
def Dev.served (d : Dev) (k : Nat) : Dev := d.setBen { d.ben with hoistLast := k }

theorem Dev.served_heldBytes (d : Dev) (k : Nat) (s : Skein) (h : Held) (n : Nat) :
    (d.served k).heldBytes s h n = d.heldBytes s h n := rfl

section
variable {d : Dev} {k t : Nat} {x : Held × Nat × Nat}
variable (hnext : d.hoistNext = some k) (hpiece : (d.lanes.skein.get k).piece = some x) (htgt : (d.lanes.skein.get k).tgt = t)
include hnext hpiece htgt

theorem Dev.hoistPieceEff_quarry (hkind : d.get BEN_HT_CTL.KIND t = 0) :
    d.hoistPieceEff = ((d.served k).pieceQuarry k t (d.lanes.skein.get k) x.1 x.2.1 x.2.2).flowUpdate := by
  subst htgt
  rw [Dev.hoistPieceEff, hnext]
  dsimp only
  rw [hpiece]
  dsimp only
  rw [Dev.setBen_get, if_pos hkind]
  rfl

theorem Dev.hoistPieceEff_stream (hkind : d.get BEN_HT_CTL.KIND t = 1) :
    d.hoistPieceEff = ((d.served k).pieceStream k t (d.lanes.skein.get k) x.1 x.2.2).flowUpdate := by
  subst htgt
  rw [Dev.hoistPieceEff, hnext]
  dsimp only
  rw [hpiece]
  dsimp only
  rw [Dev.setBen_get, if_neg (by rw [hkind]; decide)]
  rfl

end

section
variable {s : State} (hw : s.dev.bus.writes = []) (t : Fin 64)
variable {k : Fin 64} {x : Held × Nat × Nat} (hpiece : (s.dev.lanes.skein.get k).piece = some x)
  (hnext : s.dev.hoistNext = some k.val) (htgt : (s.dev.lanes.skein.get k).tgt = t.val)
include hw hpiece hnext htgt

theorem exec_hoistPiece_overwrites (hkind : s.dev.get BEN_HT_CTL.KIND t = 0) (hpolicy : s.dev.flag BEN_HT_CTL.POLICY t = false) :
    ∃ u, exec .hoistPiece s = .next u
      ∧ ((s.dev.served k).pieceStored t (s.dev.lanes.skein.get k) x.1 x.2.2).SameStores u.dev
      ∧ u.dev.get BEN_HT_WP.OFS t
        = (s.dev.get BEN_HT_BASE.OFS t + (s.dev.get BEN_HT_WP.OFS t - s.dev.get BEN_HT_BASE.OFS t + x.2.2)
            % max 1 (s.dev.get BEN_HT_SIZE.OFS t)) % 2 ^ BEN_HT_WP.OFS.w := by
  obtain ⟨hstores, hwp⟩ := Dev.pieceQuarry_overwrites (d := s.dev.served k) (k := k) (t := t) (s := s.dev.lanes.skein.get k)
    (h := x.1) (total := x.2.1) (n := x.2.2) hpolicy
  obtain ⟨⟨_, hben⟩, _⟩ := ((s.dev.served k).pieceQuarry k t (s.dev.lanes.skein.get k) x.1 x.2.1 x.2.2).flowUpdate_kept
  refine ⟨_, State.row_of_empty hw _, ?_⟩
  dsimp only
  rw [Dev.hoistPieceEff_quarry hnext hpiece htgt hkind]
  refine ⟨hstores.trans ?_, (Dev.frame_get (Dev.flowUpdate_frame _) _ _ _ _ (by decide)).trans hwp⟩
  rw [Dev.SameStores, hben]
  exact ⟨rfl, rfl, rfl⟩

theorem exec_hoistPiece_stops (hkind : s.dev.get BEN_HT_CTL.KIND t = 0) (hpolicy : s.dev.flag BEN_HT_CTL.POLICY t = true)
    (hroom : s.dev.get BEN_HT_SIZE.OFS t < s.dev.ringUsed t + (if x.1.sent = 0 ∧ x.1.ended then x.2.1 else x.2.2)) :
    ∃ u, exec .hoistPiece s = .next u ∧ (u.dev.ben.target.get t).stopped = true
      ∧ u.dev.flag BEN_HT_STREAM.STUCK t = decide (s.dev.get BEN_HT_SIZE.OFS t < x.2.1)
      ∧ u.dev.raised s.dev.now 504 ∧ u.dev.get BEN_HT_WP.OFS t = s.dev.get BEN_HT_WP.OFS t
      ∧ u.dev.ben.quarry = s.dev.ben.quarry := by
  refine ⟨_, State.row_of_empty hw _, ?_⟩
  dsimp only
  rw [Dev.hoistPieceEff_quarry hnext hpiece htgt hkind, Dev.pieceQuarry_stops (d := s.dev.served k) hpolicy hroom]
  obtain ⟨⟨_, hben⟩, hraised⟩ := ((((s.dev.served k).updTgt t fun x => { x with stopped := true }).putb BEN_HT_STREAM.STUCK
    (decide ((s.dev.served k).get BEN_HT_SIZE.OFS t < x.2.1)) t).raise 504).flowUpdate_kept
  rw [hben, Dev.raise_ben, Dev.frame_flag (Dev.flowUpdate_frame _) _ _ _ _ (by decide), Dev.raise_flag,
    Dev.flag_putb_whole _ _ _ _ _ _ (by decide), Dev.frame_get (Dev.flowUpdate_frame _) _ _ _ _ (by decide), Dev.raise_get,
    Dev.putb, Dev.get_put_family _ _ _ _ _ _ _ _ (by decide)]
  refine ⟨?_, rfl, hraised _ _ (Dev.raise_raised _ _), rfl, rfl⟩
  exact congrArg Target.stopped (Dev.updTgt_target_same (s.dev.served k) t fun x => { x with stopped := true })

theorem exec_hoistPiece_stream (hkind : s.dev.get BEN_HT_CTL.KIND t = 1) :
    ∃ u, exec .hoistPiece s = .next u
      ∧ (u.dev.ben.target.get t).buf.map Prod.fst = (s.dev.ben.target.get t).buf.map Prod.fst
        ++ (List.range x.2.2).map (fun j => (s.dev.storeRead (s.dev.lanes.skein.get k).store
            ((s.dev.lanes.skein.get k).base + x.1.pos (x.1.sent + j)) 1).headD 0)
      ∧ u.dev.ben.quarry = s.dev.ben.quarry := by
  refine ⟨_, State.row_of_empty hw _, ?_⟩
  dsimp only
  rw [Dev.hoistPieceEff_stream hnext hpiece htgt hkind]
  obtain ⟨⟨_, hben⟩, _⟩ := ((s.dev.served k).pieceStream k t (s.dev.lanes.skein.get k) x.1 x.2.2).flowUpdate_kept
  rw [hben, Dev.pieceStream, Dev.updHeld_ben]
  refine ⟨?_, rfl⟩
  dsimp only
  rw [Dev.updTgt_target_same, List.map_append, List.map_map]
  rfl

end

/-! ### Entries and the end of a pass (R308) -/

theorem Dev.hoistEntryEff_cons {d : Dev} {t : Nat} {e : HoistEntry} {rest : List HoistEntry}
    (hdue : (d.ben.target.get t).due = e :: rest) :
    d.hoistEntryEff t = (fun d' : Dev => if e.outcome = 1 then d'.raise 506 else d')
      (((d.updTgt t fun x => { x with due := rest, seq := (x.seq + 1) % 2 ^ 32 }).bump BEN_HT_CNT_SEG.COUNT t).post
        (d.get BEN_HT_CTL.Q t) 1 3 16 (e.image t (d.ben.target.get t).seq)) := by
  rw [Dev.hoistEntryEff]
  dsimp only
  rw [hdue]
  dsimp only
  rw [Dev.updTgt_get]

/-- What a queue holds once an item is posted depends on what it held, the queue and the frame alone. -/
theorem Dev.post_que_congr {d d' : Dev} (hque : d'.que = d.que) (hnow : d'.now = d.now) (q typ fmt rank : Nat) (b : List Byte) :
    (d'.post q typ fmt rank b).que = (d.post q typ fmt rank b).que := by
  rw [Dev.post, Dev.post, hque, hnow]
  rfl

section
variable {d : Dev} {t : Nat} {e : HoistEntry} {rest : List HoistEntry} (hdue : (d.ben.target.get t).due = e :: rest)
include hdue

theorem Dev.hoistEntryEff_target :
    ((d.hoistEntryEff t).ben.target.get t)
      = { d.ben.target.get t with due := rest, seq := ((d.ben.target.get t).seq + 1) % 2 ^ 32 } := by
  rw [Dev.hoistEntryEff_cons hdue]
  dsimp only
  rw [apply_ite Dev.ben, Dev.raise_ben, ite_self]
  exact Dev.updTgt_target_same _ _ _

theorem Dev.hoistEntryEff_que :
    (d.hoistEntryEff t).que = (d.post (d.get BEN_HT_CTL.Q t) 1 3 16 (e.image t (d.ben.target.get t).seq)).que := by
  rw [Dev.hoistEntryEff_cons hdue]
  dsimp only
  rw [apply_ite Dev.que, Dev.raise_que, ite_self]
  exact Dev.post_que_congr rfl rfl _ _ _ _ _

theorem Dev.hoistEntryEff_count :
    (d.hoistEntryEff t).get BEN_HT_CNT_SEG.COUNT t
      = (d.get BEN_HT_CNT_SEG.COUNT t + 1) % 2 ^ BEN_HT_CNT_SEG.COUNT.w := by
  rw [Dev.hoistEntryEff_cons hdue]
  refine ite_ind (P := fun d' : Dev => d'.get BEN_HT_CNT_SEG.COUNT t = _) ((Dev.raise_get _ _ _ _ _ _).trans ?counted) ?counted
  rw [Dev.post_get]
  exact Dev.get_put_eq _ _ _ _ _ _ (by decide)

theorem Dev.hoistEntryEff_raises (h : e.outcome = 1) : (d.hoistEntryEff t).raised d.now 506 := by
  rw [Dev.hoistEntryEff_cons hdue]
  dsimp only
  rw [if_pos h]
  exact Dev.raise_raised _ _

theorem Dev.hoistEntryEff_raised {k i : Nat} (h : d.raised k i) : (d.hoistEntryEff t).raised k i := by
  rw [Dev.hoistEntryEff_cons hdue]
  have hpost := (Dev.raised_congr (d := d) (d' := ((d.updTgt t fun x => { x with due := rest, seq := (x.seq + 1) % 2 ^ 32 }).bump
    BEN_HT_CNT_SEG.COUNT t).post (d.get BEN_HT_CTL.Q t) 1 3 16 (e.image t (d.ben.target.get t).seq)) rfl k i).2 h
  exact ite_ind (P := fun d' : Dev => d'.raised k i) (Dev.raised_raise hpost _) hpost

end

theorem exec_hoistEntry {s : State} (hw : s.dev.bus.writes = []) (t : Fin 64) (e : HoistEntry)
    (he : (s.dev.ben.target.get t).due.head? = some e) :
    ∃ u, exec (.hoistEntry t) s = .next u
      ∧ (u.dev.ben.target.get t).due = (s.dev.ben.target.get t).due.tail
      ∧ (u.dev.ben.target.get t).seq = ((s.dev.ben.target.get t).seq + 1) % 2 ^ 32
      ∧ u.dev.get BEN_HT_CNT_SEG.COUNT t = (s.dev.get BEN_HT_CNT_SEG.COUNT t + 1) % 2 ^ BEN_HT_CNT_SEG.COUNT.w
      ∧ u.dev.que = (s.dev.post (s.dev.get BEN_HT_CTL.Q t) 1 3 16 (e.image t (s.dev.ben.target.get t).seq)).que
      ∧ (e.outcome = 1 → u.dev.raised s.dev.now 506) := by
  have hdue := List.eq_cons_of_mem_head? (Option.mem_def.2 he)
  refine ⟨_, State.row_of_empty hw _, ?_⟩
  dsimp only
  rw [Dev.hoistEntryEff_target hdue]
  exact ⟨rfl, rfl, Dev.hoistEntryEff_count hdue, Dev.hoistEntryEff_que hdue, Dev.hoistEntryEff_raises hdue⟩

/-- The entry of the pass that has ended joins the entries that are due; a pass behind it starts at the ring's first byte. -/
def Dev.passEnded (d : Dev) (t : Nat) : Dev :=
  let x := d.ben.target.get t
  let d := d.updTgt t fun x =>
    { x with passEnd := false, passPoison := false, passes := x.passes - 1
             due := x.due ++ [⟨0, 0, 0, d.get BEN_HT_WP.OFS t, x.passPoison.toNat⟩] }
  if 1 < x.passes then d.put BEN_HT_WP.OFS 0 t else d

theorem Dev.passEnded_target (d : Dev) (t : Nat) :
    (d.passEnded t).ben.target.get t
      = { d.ben.target.get t with
          passEnd := false, passPoison := false, passes := (d.ben.target.get t).passes - 1
          due := (d.ben.target.get t).due
            ++ [⟨0, 0, 0, d.get BEN_HT_WP.OFS t, (d.ben.target.get t).passPoison.toNat⟩] } := by
  rw [Dev.passEnded]
  dsimp only
  split
  · rw [Dev.put_ben, Dev.updTgt_target_same]
  · rw [Dev.updTgt_target_same]

theorem Dev.replayDoneEff_of_passEnd {d : Dev} {t : Nat} (h : (d.ben.target.get t).passEnd = true) :
    d.replayDoneEff t = ((d.passEnded t).raise 511).hoistEntryEff t := by
  rw [Dev.replayDoneEff]
  exact if_pos h

theorem Dev.passEnded_keeps (d : Dev) (t : Nat) :
    (d.passEnded t).que = d.que ∧ (d.passEnded t).now = d.now
      ∧ (d.passEnded t).get BEN_HT_CTL.Q t = d.get BEN_HT_CTL.Q t := by
  rw [Dev.passEnded]
  split
  · exact ⟨rfl, rfl, Dev.get_put_family _ _ _ _ _ _ _ _ (by decide)⟩
  · exact ⟨rfl, rfl, rfl⟩

theorem exec_replayDone {s : State} (hw : s.dev.bus.writes = []) (t : Fin 64) (hend : (s.dev.ben.target.get t).passEnd = true)
    (hdue : (s.dev.ben.target.get t).due = []) :
    ∃ u, exec (.replayDone t) s = .next u
      ∧ (u.dev.ben.target.get t).passes = (s.dev.ben.target.get t).passes - 1
      ∧ (u.dev.ben.target.get t).passEnd = false ∧ u.dev.raised s.dev.now 511
      ∧ u.dev.que = (s.dev.post (s.dev.get BEN_HT_CTL.Q t) 1 3 16
          (HoistEntry.image ⟨0, 0, 0, s.dev.get BEN_HT_WP.OFS t, (s.dev.ben.target.get t).passPoison.toNat⟩ t
            (s.dev.ben.target.get t).seq)).que := by
  obtain ⟨hque, hnow, hq⟩ := s.dev.passEnded_keeps t
  have htarget : ((s.dev.passEnded t).raise 511).ben.target.get t = _ :=
    (congrArg (fun b : Bench => b.target.get t) (Dev.raise_ben _ _)).trans (s.dev.passEnded_target t)
  have hentry : (((s.dev.passEnded t).raise 511).ben.target.get t).due
      = [⟨0, 0, 0, s.dev.get BEN_HT_WP.OFS t, (s.dev.ben.target.get t).passPoison.toNat⟩] := by
    rw [htarget, hdue, List.nil_append]
  refine ⟨_, State.row_of_empty hw _, ?_⟩
  dsimp only
  rw [Dev.replayDoneEff_of_passEnd hend, Dev.hoistEntryEff_target hentry, Dev.hoistEntryEff_que hentry, htarget, Dev.raise_get, hq]
  exact ⟨rfl, rfl, Dev.hoistEntryEff_raised hentry (hnow ▸ Dev.raise_raised _ _),
    Dev.post_que_congr ((Dev.raise_que _ _).trans hque) ((Dev.raise_now _ _).trans hnow) _ _ _ _ _⟩

/-! ### Releases (R307) -/

/-- The release pointer of target `t` moves to `rel`. -/
def Dev.released (d : Dev) (t rel : Nat) : Dev :=
  (d.put BEN_HT_REL.OFS rel t).updTgt t fun x => { x with full := x.full && rel == d.get BEN_HT_REL.OFS t }

/-- A HOIST skein of target `t` has a piece that fits the room of the ring. -/
def Dev.tgtFits (d : Dev) (t : Nat) : Bool :=
  (List.range 64).any fun k =>
    let s := d.lanes.skein.get k
    s.defined && s.policy == 2 && s.tgt == t && match s.piece with
      | some (h, total, n) =>
        decide (d.ringUsed t + (if h.sent = 0 ∧ h.ended then total else n) ≤ d.get BEN_HT_SIZE.OFS t)
      | none => false

theorem Dev.hoistReleaseWriteEff_eq (d : Dev) (t rel : Nat) :
    d.hoistReleaseWriteEff t rel
      = if (! ((d.released t rel).ben.target.get t).stopped) = true then d.released t rel
        else if (d.released t rel).tgtFits t then
          ((d.released t rel).updTgt t fun x => { x with stopped := false }).putb BEN_HT_STREAM.STUCK false t
        else d.released t rel := rfl

theorem Dev.released_target (d : Dev) (t rel : Nat) :
    (d.released t rel).ben.target.get t
      = { d.ben.target.get t with full := (d.ben.target.get t).full && rel == d.get BEN_HT_REL.OFS t } :=
  Dev.updTgt_target_same _ _ _

theorem exec_hoistReleaseWrite {s : State} (hw : s.dev.bus.writes = []) (t : Fin 64) (rel : BitVec 48) :
    ∃ u, exec (.hoistReleaseWrite t rel) s = .next u
      ∧ u.dev.rd ⟨.BEN_HT_REL, t, 0, 0⟩ = (s.dev.put BEN_HT_REL.OFS rel.toNat t).rd ⟨.BEN_HT_REL, t, 0, 0⟩
      ∧ (u.dev.ben.target.get t).full = ((s.dev.ben.target.get t).full && rel.toNat == s.dev.get BEN_HT_REL.OFS t)
      ∧ ((s.dev.ben.target.get t).stopped = false → (u.dev.ben.target.get t).stopped = false) := by
  have hreleased : (s.dev.released t rel.toNat).rd ⟨.BEN_HT_REL, t, 0, 0⟩
      = (s.dev.put BEN_HT_REL.OFS rel.toNat t).rd ⟨.BEN_HT_REL, t, 0, 0⟩ := Dev.updTgt_rd _ _ _ _
  have htarget := s.dev.released_target t rel.toNat
  refine ⟨_, State.row_of_empty hw _, ?_⟩
  dsimp only
  rw [Dev.hoistReleaseWriteEff_eq]
  have hkept := And.intro hreleased (And.intro (congrArg Target.full htarget)
    fun h : (s.dev.ben.target.get t).stopped = false => (congrArg Target.stopped htarget).trans h)
  split
  · exact hkept
  · split
    · rw [Dev.rd_putb_family _ _ _ _ _ _ (show Rg.BEN_HT_REL ≠ .BEN_HT_STREAM by decide), Dev.updTgt_rd, Dev.putb, Dev.put_ben,
        Dev.updTgt_target_same, htarget]
      exact ⟨hreleased, rfl, fun _ => rfl⟩
    · exact hkept

theorem Dev.tgtFits_of_piece {d : Dev} {t : Nat} (k : Fin 64) {x : Held × Nat × Nat}
    (hpiece : (d.lanes.skein.get k).piece = some x) (hdefined : (d.lanes.skein.get k).defined = true)
    (hpolicy : (d.lanes.skein.get k).policy = 2) (htgt : (d.lanes.skein.get k).tgt = t)
    (hroom : d.ringUsed t + (if x.1.sent = 0 ∧ x.1.ended then x.2.1 else x.2.2) ≤ d.get BEN_HT_SIZE.OFS t) :
    d.tgtFits t = true := by
  refine List.any_eq_true.2 ⟨k, List.mem_range.2 k.isLt, ?_⟩
  dsimp only
  rw [hdefined, hpolicy, htgt, hpiece]
  dsimp only
  rw [decide_eq_true hroom, beq_self_eq_true t]
  rfl

theorem exec_hoistReleaseWrite_fits {s : State} (hw : s.dev.bus.writes = []) (t : Fin 64) (rel : BitVec 48) (k : Fin 64)
    (x : Held × Nat × Nat) (hpiece : (s.dev.lanes.skein.get k).piece = some x)
    (hdefined : (s.dev.lanes.skein.get k).defined = true) (hpolicy : (s.dev.lanes.skein.get k).policy = 2)
    (htgt : (s.dev.lanes.skein.get k).tgt = t.val)
    (hroom : (s.dev.released t rel.toNat).ringUsed t + (if x.1.sent = 0 ∧ x.1.ended then x.2.1 else x.2.2)
      ≤ s.dev.get BEN_HT_SIZE.OFS t) :
    ∃ u, exec (.hoistReleaseWrite t rel) s = .next u ∧ (u.dev.ben.target.get t).stopped = false := by
  have hsize : (s.dev.released t rel.toNat).get BEN_HT_SIZE.OFS t = s.dev.get BEN_HT_SIZE.OFS t :=
    (Dev.updTgt_get _ _ _ _ _ _ _).trans (Dev.get_put_family _ _ _ _ _ _ _ _ (by decide))
  have hfits : (s.dev.released t rel.toNat).tgtFits t = true := Dev.tgtFits_of_piece k hpiece hdefined hpolicy htgt (hsize ▸ hroom)
  refine ⟨_, State.row_of_empty hw _, ?_⟩
  dsimp only
  rw [Dev.hoistReleaseWriteEff_eq, hfits, if_pos rfl]
  split
  next hstopped => exact (Bool.not_eq_true' _).mp hstopped
  · rw [Dev.putb, Dev.put_ben, Dev.updTgt_target_same]

/-- Settles O40: a control word of a target, a piece for each kind of target, an entry, the end of a pass and a release. -/
theorem hoistCommandsAct : Obligations.HoistCommandsAct := by
  intro s t hw
  exact ⟨exec_hoistTargetEnable_set hw t, exec_hoistTargetEnable_clear hw t, exec_hoistTargetEnable_inUse hw t,
    exec_replayGo hw t,
    fun k x hpiece hnext htgt hkind hpolicy => by
      obtain ⟨u, hu, ⟨hbench, hquarry, hlast⟩, hwp⟩ := exec_hoistPiece_overwrites hw t hpiece hnext htgt hkind hpolicy
      exact ⟨u, hu, hlast, hwp, hbench, hquarry⟩,
    fun _ _ hpiece hnext htgt => exec_hoistPiece_stops hw t hpiece hnext htgt,
    fun _ _ hpiece hnext htgt => exec_hoistPiece_stream hw t hpiece hnext htgt,
    exec_hoistEntry hw t, exec_replayDone hw t, exec_hoistReleaseWrite hw t, exec_hoistReleaseWrite_fits hw t⟩

end Sys2Proof.Machine

/-! ## Trigger bus messages (17_multi_device_timing.md R395-R399, R402) -/

namespace Sys2Proof.Machine

-- One proof at a time: the text is compiled within a fixed memory.
set_option Elab.async false

/-! ### Message mode (R395, R402) -/

section
variable (d : Dev) (f : Fld) (v x : Nat)

theorem Dev.wiredOr_put (hown : f.g ≠ .SYN_OWN) (hcfg : f.g ≠ .SYN_PCFG) (i : Nat) : (d.put f v i).wiredOr x = d.wiredOr x := by
  rw [Dev.wiredOr, Dev.pinOwned, Dev.get_put_family _ _ _ _ _ _ _ _ hown.symm, Dev.flag_put_family _ _ _ _ _ _ _ _ hcfg.symm]
  rfl

end

/-- The lead and the pair of a write of SYN_MSG_CTL. -/
def Dev.pairWritten (d : Dev) (v : W32) (pair : Nat) : Dev :=
  (d.put SYN_MSG_CTL.LEAD (max 448 (v.toNat % 4096))).put SYN_MSG_CTL.PAIR pair

/-- Both lines of a pair take their idle level, and no test session runs on them. -/
def Dev.pairIdle (d : Dev) (pair : Nat) : Dev :=
  (((d.pinIdle (2 * pair)).testEnd 2 (2 * pair) 7).testEnd 2 (2 * pair + 1) 7).pinIdle (2 * pair + 1)

/-- Message mode is on, and its pair is taken. -/
def Dev.pairTaken (d : Dev) (pair : Nat) : Dev :=
  ((d.putb SYN_MSG_CTL.EN true).put SYN_MSG_STAT.RESULT 1).pairIdle pair

section
variable (d : Dev)

theorem Dev.pairIdle_get (pair : Nat) (f : Fld) (h : f.g ∉ [Rg.TST_CTL, .TST_STAT, .TST_BITS, .TST_ERRS]) :
    (d.pairIdle pair).get f = d.get f := by
  rw [Dev.pairIdle, Dev.get_congr (Dev.pinIdle_regs _ _), Dev.get, Dev.testEnd_keeps _ _ _ _ _ ⟨f.g, 0, 0, 0⟩ h,
    Dev.testEnd_keeps _ _ _ _ _ ⟨f.g, 0, 0, 0⟩ h, Dev.rd_congr (Dev.pinIdle_regs _ _)]
  rfl

theorem Dev.pairWritten_wiredOr (v : W32) (pair x : Nat) : (d.pairWritten v pair).wiredOr x = d.wiredOr x := by
  rw [Dev.pairWritten, Dev.wiredOr_put _ _ _ _ (by decide) (by decide), Dev.wiredOr_put _ _ _ _ (by decide) (by decide)]

theorem Dev.pairTaken_get (pair : Nat) (f : Fld) (h : f.g ∉ [Rg.TST_CTL, .TST_STAT, .TST_BITS, .TST_ERRS]) :
    (d.pairTaken pair).get f = ((d.putb SYN_MSG_CTL.EN true).put SYN_MSG_STAT.RESULT 1).get f := Dev.pairIdle_get _ _ _ h

theorem Dev.msgModeEnableEff_off (v : W32) {pair : Nat} (hpair : v.toNat / 2 ^ 16 % 8 = pair)
    (hen : d.flag SYN_MSG_CTL.EN = false) (hv : v.getLsbD 31 = true) :
    d.msgModeEnableEff v
      = if (! (d.wiredOr (2 * pair) && d.wiredOr (2 * pair + 1))) = true then
          (d.pairWritten v pair).put SYN_MSG_STAT.RESULT 2
        else if (d.pinPings (2 * pair) || d.pinPings (2 * pair + 1)) = true then
          (d.pairWritten v pair).put SYN_MSG_STAT.RESULT 3
        else ((d.pairWritten v pair).pairTaken pair).seenUpdate d := by
  rw [← d.pairWritten_wiredOr v pair, ← d.pairWritten_wiredOr v pair (2 * pair + 1), Dev.msgModeEnableEff,
    if_neg (Bool.eq_false_iff.1 hen), hv, hpair]
  rfl

/-- Message mode ends: its queue is dropped, and both lines are driven by their KIND again. -/
def Dev.pairFreed (d : Dev) (pair : Nat) : Dev :=
  (((d.putb SYN_MSG_CTL.EN false).wordsDrop).pinResume (2 * pair)).pinResume (2 * pair + 1)

theorem Dev.msgModeEnableEff_on (v : W32) (hen : d.flag SYN_MSG_CTL.EN = true) (hv : v.getLsbD 31 = false) :
    d.msgModeEnableEff v
      = ((d.put SYN_MSG_CTL.LEAD (max 448 (v.toNat % 4096))).pairFreed
          ((d.put SYN_MSG_CTL.LEAD (max 448 (v.toNat % 4096))).get SYN_MSG_CTL.PAIR)).seenUpdate d := by
  rw [Dev.msgModeEnableEff, if_pos hen, hv]
  rfl

theorem Dev.pinResume_words (x : Nat) : (d.pinResume x).syn.words = d.syn.words := by
  rw [Dev.pinResume]
  split <;> rfl

theorem Dev.wordsDrop_words : d.wordsDrop.syn.words = [] := by
  rw [Dev.wordsDrop, Dev.txqShow, Dev.put_syn, Dev.count_syn]
  rfl

theorem Dev.wordsDrop_count :
    d.wordsDrop.get SYN_CNT_TXFAIL.COUNT
      = min (2 ^ SYN_CNT_TXFAIL.COUNT.w - 1) (d.get SYN_CNT_TXFAIL.COUNT + d.syn.words.length) := by
  rw [Dev.wordsDrop, Dev.txqShow, Dev.get_put_family _ _ _ _ _ _ _ _ (by decide), Dev.get_count_eq _ _ _ _ _ (by decide) (by decide)]
  rfl

end

section
variable {s : State} (hw : s.dev.bus.writes = []) (v : W32)
include hw

theorem exec_msgModeEnable_on (hen : s.dev.flag SYN_MSG_CTL.EN = false) (hv : v.getLsbD 31 = true)
    (hdata : s.dev.wiredOr (2 * (v.toNat / 2 ^ 16 % 8)) = true) (hframe : s.dev.wiredOr (2 * (v.toNat / 2 ^ 16 % 8) + 1) = true)
    (hping : s.dev.pinPings (2 * (v.toNat / 2 ^ 16 % 8)) = false)
    (hping' : s.dev.pinPings (2 * (v.toNat / 2 ^ 16 % 8) + 1) = false) :
    ∃ t, exec (.msgModeEnable v) s = .next t ∧ t.dev.flag SYN_MSG_CTL.EN = true ∧ t.dev.get SYN_MSG_STAT.RESULT = 1
      ∧ t.dev.get SYN_MSG_CTL.PAIR = v.toNat / 2 ^ 16 % 8 ∧ t.dev.get SYN_MSG_CTL.LEAD = max 448 (v.toNat % 4096) := by
  have hlead : max 448 (v.toNat % 4096) < 2 ^ 12 := by omega
  have hwidth : v.toNat / 2 ^ 16 % 8 < 2 ^ 3 := Nat.mod_lt _ (by decide)
  generalize hpair : v.toNat / 2 ^ 16 % 8 = pair at *
  refine ⟨_, State.row_of_empty hw _, ?_⟩
  dsimp only
  rw [Dev.msgModeEnableEff_off _ _ hpair hen hv, hdata, hframe, hping, hping']
  simp only [Bool.and_self, Bool.not_true, Bool.or_self, Bool.false_eq_true, if_false]
  have hseen := ((s.dev.pairWritten v pair).pairTaken pair).seenUpdate_frame s.dev
  rw [Dev.frame_flag hseen _ _ _ _ rfl, Dev.frame_get hseen _ _ _ _ rfl, Dev.frame_get hseen _ _ _ _ rfl,
    Dev.frame_get hseen _ _ _ _ rfl, Dev.flag]
  simp (disch := decide) only [Dev.pairTaken_get, Dev.get_put_family]
  rw [← Dev.flag, Dev.flag_putb_whole _ _ _ _ _ _ (by decide), Dev.get_put_lt _ _ _ _ (by decide) (by decide), Dev.putb,
    Dev.get_put_other _ _ _ _ _ _ _ _ _ _ (by decide) (by decide), Dev.get_put_other _ _ _ _ _ _ _ _ _ _ (by decide) (by decide),
    Dev.pairWritten, Dev.get_put_lt _ _ _ _ (by decide) hwidth, Dev.get_put_other _ _ _ _ _ _ _ _ _ _ (by decide) (by decide),
    Dev.get_put_lt _ _ _ _ (by decide) hlead]
  exact ⟨rfl, rfl, rfl, rfl⟩

theorem exec_msgModeEnable_refused (hen : s.dev.flag SYN_MSG_CTL.EN = false) (hv : v.getLsbD 31 = true)
    (hdata : s.dev.wiredOr (2 * (v.toNat / 2 ^ 16 % 8)) = false) :
    ∃ t, exec (.msgModeEnable v) s = .next t ∧ t.dev.flag SYN_MSG_CTL.EN = false ∧ t.dev.get SYN_MSG_STAT.RESULT = 2 := by
  refine ⟨_, State.row_of_empty hw _, ?_⟩
  dsimp only
  rw [Dev.msgModeEnableEff_off _ _ rfl hen hv, hdata, Bool.false_and, Bool.not_false, if_pos rfl,
    Dev.get_put_lt _ _ _ _ (by decide) (by decide), Dev.flag_put_family _ _ _ _ _ _ _ _ (by decide), Dev.pairWritten,
    Dev.flag_put_other _ _ _ _ _ _ _ _ _ _ (by decide) (by decide), Dev.flag_put_other _ _ _ _ _ _ _ _ _ _ (by decide) (by decide)]
  exact ⟨hen, rfl⟩

theorem exec_msgModeEnable_disables (hen : s.dev.flag SYN_MSG_CTL.EN = true) (hv : v.getLsbD 31 = false) :
    ∃ t, exec (.msgModeEnable v) s = .next t ∧ t.dev.flag SYN_MSG_CTL.EN = false ∧ t.dev.syn.words = []
      ∧ t.dev.get SYN_CNT_TXFAIL.COUNT
        = min (2 ^ SYN_CNT_TXFAIL.COUNT.w - 1) (s.dev.get SYN_CNT_TXFAIL.COUNT + s.dev.syn.words.length) := by
  refine ⟨_, State.row_of_empty hw _, ?_⟩
  dsimp only
  rw [Dev.msgModeEnableEff_on _ _ hen hv]
  have hseen := fun pair => ((s.dev.put SYN_MSG_CTL.LEAD (max 448 (v.toNat % 4096))).pairFreed pair).seenUpdate_frame s.dev
  have hregs : ∀ (d : Dev) pair, (d.pairFreed pair).regs = (d.putb SYN_MSG_CTL.EN false).wordsDrop.regs := fun d pair =>
    (Dev.pinResume_regs _ _).trans (Dev.pinResume_regs _ _)
  refine ⟨?_, ?_, ?_⟩
  · rw [Dev.frame_flag (hseen _) _ _ _ _ (by decide), Dev.flag, Dev.get_congr (hregs _ _), ← Dev.flag,
      Dev.frame_flag (Dev.wordsDrop_frame _) _ _ _ _ (by decide), Dev.flag_putb_whole _ _ _ _ _ _ (by decide)]
  · rw [Dev.frame_syn (hseen _) (by decide), Dev.pairFreed, Dev.pinResume_words, Dev.pinResume_words, Dev.wordsDrop_words]
  · rw [Dev.frame_get (hseen _) _ _ _ _ (by decide), Dev.get_congr (hregs _ _), Dev.wordsDrop_count, Dev.putb,
      Dev.get_put_family _ _ _ _ _ _ _ _ (by decide), Dev.get_put_family _ _ _ _ _ _ _ _ (by decide)]
    rfl

/-! ### The queue of words (R397) -/

theorem exec_msgTxGo_queued (hv : v.getLsbD 31 = true) (hroom : s.dev.syn.words.length < 16) :
    ∃ t, exec (.msgTxGo v) s = .next t
      ∧ t.dev.syn.words = s.dev.syn.words ++
          [(v.toNat / 2 ^ SYN_MSG_TX.CODE.lo % 2 ^ SYN_MSG_TX.CODE.w, v.toNat / 2 ^ SYN_MSG_TX.FINE.lo % 2 ^ SYN_MSG_TX.FINE.w)]
      ∧ t.dev.get SYN_MSG_STAT.TXQ = s.dev.syn.words.length + 1 := by
  have hget : ∀ f : Fld, f.g = .SYN_MSG_TX → f.whole = true → (s.dev.wr ⟨.SYN_MSG_TX, 0, 0, 0⟩ (v.setWidth 64)).get f
      = v.toNat / 2 ^ f.lo % 2 ^ f.w := fun f hf hwhole => by
    rw [← hf, Dev.get_wr_eq _ _ _ _ _ _ hwhole, BitVec.toNat_setWidth_of_le (by decide)]
  have heff : s.dev.msgTxGoEff v
      = ((s.dev.wr ⟨.SYN_MSG_TX, 0, 0, 0⟩ (v.setWidth 64)).setSyn { s.dev.syn with words := s.dev.syn.words ++
          [((s.dev.wr ⟨.SYN_MSG_TX, 0, 0, 0⟩ (v.setWidth 64)).get SYN_MSG_TX.CODE,
            (s.dev.wr ⟨.SYN_MSG_TX, 0, 0, 0⟩ (v.setWidth 64)).get SYN_MSG_TX.FINE)] }).txqShow := by
    rw [Dev.msgTxGoEff, hv]
    exact if_neg (Nat.not_le.2 hroom)
  refine ⟨_, State.row_of_empty hw _, ?_⟩
  dsimp only
  rw [heff, Dev.txqShow, Dev.put_syn, Dev.setSyn_syn, hget _ rfl (by decide), hget _ rfl (by decide), List.length_append,
    List.length_singleton, Dev.get_put_lt _ _ _ _ (by decide) (show _ < 2 ^ 5 by omega)]
  exact ⟨rfl, rfl⟩

theorem exec_msgTxGo_full (hv : v.getLsbD 31 = true) (hfull : 16 ≤ s.dev.syn.words.length) :
    ∃ t, exec (.msgTxGo v) s = .next t ∧ t.dev.syn = s.dev.syn ∧ t.dev.get SYN_MSG_STAT.RESULT = 4
      ∧ t.dev.get SYN_CNT_TXFAIL.COUNT = min (2 ^ SYN_CNT_TXFAIL.COUNT.w - 1) (s.dev.get SYN_CNT_TXFAIL.COUNT + 1) := by
  have heff : s.dev.msgTxGoEff v
      = ((s.dev.wr ⟨.SYN_MSG_TX, 0, 0, 0⟩ (v.setWidth 64)).count SYN_CNT_TXFAIL.COUNT).put SYN_MSG_STAT.RESULT 4 := by
    rw [Dev.msgTxGoEff, hv]
    exact if_pos hfull
  refine ⟨_, State.row_of_empty hw _, ?_⟩
  dsimp only
  rw [heff, Dev.put_syn, Dev.count_syn, Dev.get_put_lt _ _ _ _ (by decide) (by decide),
    Dev.get_put_family _ _ _ _ _ _ _ _ (by decide), Dev.get_count_eq _ _ _ _ _ (by decide) (by decide),
    Dev.get_wr_family _ _ _ _ _ (show SYN_CNT_TXFAIL.COUNT.g ≠ .SYN_MSG_TX by decide)]
  exact ⟨rfl, rfl, rfl⟩

end

/-! ### The sending of a word (R397) -/

/-- The word with source, code and fire offset reaches the units of the module once its sending has ended. -/
def Dev.wordSent (d : Dev) (b code fine : Nat) : Dev :=
  let d := d.advanceTo ((d.wordLaunch b + 1023) / 1024 + 500)
  d.wordArrives b (trigWord (d.get SYN_SYSID.ID) code fine)

section
variable {s : State} (hw : s.dev.bus.writes = [])
include hw

theorem exec_wordSendStart (f : Nat) (hfree : s.dev.frameFree = some f) (hwords : s.dev.syn.words ≠ [])
    (hphase : s.dev.syn.phase = .ready) (hen : s.dev.flag SYN_MSG_CTL.EN = true) (hid : s.dev.flag SYN_SYSID.EN = true)
    (hdata : s.dev.pinDriven (2 * s.dev.get SYN_MSG_CTL.PAIR) = true)
    (hframe : s.dev.pinDriven (2 * s.dev.get SYN_MSG_CTL.PAIR + 1) = true) :
    ∃ t, exec .wordSendStart s = .next t ∧ t.dev.now = max s.dev.now (s.dev.gridAfter (max s.dev.now (f + 100)))
      ∧ t.dev.syn.phase = .sending (s.dev.gridAfter (max s.dev.now (f + 100))) ∧ t.dev.regs = s.dev.regs := by
  obtain ⟨word, rest, hcons⟩ := List.exists_cons_of_ne_nil hwords
  have heff : s.dev.wordSendStartEff
      = (s.dev.advanceTo (s.dev.gridAfter (max s.dev.now (f + 100)))).setSyn
          { (s.dev.advanceTo (s.dev.gridAfter (max s.dev.now (f + 100)))).syn with
            phase := .sending (s.dev.gridAfter (max s.dev.now (f + 100))) } := by
    rw [Dev.wordSendStartEff, hcons, hphase, hfree]
    dsimp only
    rw [hen, hid, hdata, hframe]
    rfl
  refine ⟨_, State.row_of_empty hw _, ?_⟩
  dsimp only
  rw [heff, Dev.setSyn_now, Dev.setSyn_syn, Dev.setSyn_regs, Dev.advanceTo_now, Dev.advanceTo_regs]
  exact ⟨rfl, rfl, rfl⟩

theorem exec_backoffExpiry (b k f : Nat) (hfree : s.dev.frameFree = some f) (hphase : s.dev.syn.phase = .backoff b k) :
    ∃ t, exec .backoffExpiry s = .next t ∧ t.dev.now = max s.dev.now (max b f + 100 + 600 * k)
      ∧ t.dev.syn.phase = .ready ∧ t.dev.syn.words = s.dev.syn.words := by
  have heff : s.dev.backoffExpiryEff
      = (s.dev.advanceTo (max b f + 100 + 600 * k)).setSyn
          { (s.dev.advanceTo (max b f + 100 + 600 * k)).syn with phase := .ready } := by
    rw [Dev.backoffExpiryEff, hphase, hfree]
  refine ⟨_, State.row_of_empty hw _, ?_⟩
  dsimp only
  rw [heff, Dev.setSyn_now, Dev.setSyn_syn, Dev.advanceTo_now, Dev.advanceTo_syn]
  exact ⟨rfl, rfl, rfl⟩

theorem exec_msgTx (b : Nat) (hphase : s.dev.syn.phase = .sending b) (hwords : s.dev.syn.words ≠ []) :
    ∃ t, exec .msgTx s = .next t ∧ t.dev.now = max s.dev.now ((s.dev.wordLaunch b + 1023) / 1024 + 500)
      ∧ t.dev.syn.words = s.dev.syn.words.tail ∧ t.dev.syn.phase = .ready
      ∧ t.dev.get SYN_CNT_TX.COUNT = (s.dev.get SYN_CNT_TX.COUNT + 1) % 2 ^ SYN_CNT_TX.COUNT.w
      ∧ t.dev.raised t.dev.now 571 := by
  obtain ⟨⟨code, fine⟩, rest, hcons⟩ := List.exists_cons_of_ne_nil hwords
  have heff : s.dev.msgTxEff = (((s.dev.wordSent b code fine).bump SYN_CNT_TX.COUNT).raise 571).wordDone := by
    rw [Dev.msgTxEff, hphase, hcons]
    rfl
  have harrives := (s.dev.advanceTo ((s.dev.wordLaunch b + 1023) / 1024 + 500)).wordArrives_frame b
    (trigWord ((s.dev.advanceTo ((s.dev.wordLaunch b + 1023) / 1024 + 500)).get SYN_SYSID.ID) code fine)
  have hsyn : (s.dev.wordSent b code fine).syn = s.dev.syn :=
    (Dev.frame_syn harrives (by decide)).trans (Dev.advanceTo_syn _ _)
  have hcount : (s.dev.wordSent b code fine).get SYN_CNT_TX.COUNT = s.dev.get SYN_CNT_TX.COUNT :=
    (Dev.frame_get harrives _ _ _ _ (by decide)).trans (Dev.advanceTo_get _ _ _ _ _ _)
  have hnow : (s.dev.wordSent b code fine).now = max s.dev.now ((s.dev.wordLaunch b + 1023) / 1024 + 500) :=
    (Dev.frame_now harrives (by decide)).trans (Dev.advanceTo_now _ _)
  have hdone := (((s.dev.wordSent b code fine).bump SYN_CNT_TX.COUNT).raise 571).wordDone_frame
  have hraised : (((s.dev.wordSent b code fine).bump SYN_CNT_TX.COUNT).raise 571).wordDone.raised
      (s.dev.wordSent b code fine).now 571 :=
    (Dev.raised_congr (hdone.1 .events (by decide)) _ _).2 (((s.dev.wordSent b code fine).bump SYN_CNT_TX.COUNT).raise_raised 571)
  rw [hnow] at hraised
  refine ⟨_, State.row_of_empty hw _, ?_⟩
  dsimp only
  rw [heff, Dev.frame_now hdone (by decide), Dev.raise_now, Dev.bump_now, hnow]
  refine ⟨rfl, ?_, ?_, ?_, hraised⟩
  · rw [Dev.wordDone, Dev.txqShow, Dev.put_syn, Dev.setSyn_syn, Dev.raise_syn, Dev.bump_syn, hsyn, List.drop_one]
  · rw [Dev.wordDone, Dev.txqShow, Dev.put_syn, Dev.setSyn_syn]
  · rw [Dev.frame_get hdone _ _ _ _ (by decide), Dev.raise_get, Dev.bump, Dev.get_put_eq _ _ _ _ _ _ (by decide), hcount]

end

end Sys2Proof.Machine

/-! ## Received frames and the ping (17_multi_device_timing.md R394, R398, R399) -/

namespace Sys2Proof.Machine

-- One proof at a time: the text is compiled within a fixed memory.
set_option Elab.async false

/-! ### A received frame (R398) -/

section
variable {d : Dev} (hen : d.flag SYN_MSG_CTL.EN = true) (hsending : d.wordSending = false)
include hen hsending

theorem Dev.msgFrameRxEff_malformed (word : W32) (crc : Byte) (ago sample frac : Nat) :
    d.msgFrameRxEff false word crc ago sample frac = (d.count SYN_CNT_MSGBAD.COUNT).raiseHeld 1250 574 := by
  rw [Dev.msgFrameRxEff, hen, hsending]
  dsimp only
  rw [Bool.not_true, Bool.or_self, if_neg Bool.false_ne_true]
  split <;> rfl

/-- A well-formed word whose edge is near a grid boundary is a clash or is good. -/
theorem Dev.msgFrameRxEff_wellFormed {word : W32} {ago sample frac b : Nat}
    (hgrid : d.gridNear (d.pinInst (2 * d.get SYN_MSG_CTL.PAIR + 1) (((d.now - ago) * 64 + sample) * 65536 + frac)
      - d.get SYN_LAUNCH_K.K * 4096) = some b) :
    d.msgFrameRxEff true word (crc8 word) ago sample frac
      = if word.toNat / 2 ^ 18 = d.get SYN_SYSID.ID then (d.count SYN_CNT_IDCLASH.COUNT).raise 575
        else (((d.bump SYN_CNT_RX.COUNT).raise 570).wr ⟨.SYN_MSG_LAST, 0, 0, 0⟩ (word.setWidth 64)).wordArrives b word := by
  rw [Dev.msgFrameRxEff, hen, hsending]
  dsimp only
  rw [Bool.not_true, Bool.or_self, if_neg Bool.false_ne_true, hgrid]
  dsimp only
  rw [bne_self_eq_false, Bool.or_self, if_neg Bool.false_ne_true]

end

section
variable {s : State} (hw : s.dev.bus.writes = [])
include hw

theorem exec_msgFrameRx_bad (word : W32) (crc : Byte) (ago : BitVec 10) (sample : Fin 64) (frac : BitVec 16)
    (hen : s.dev.flag SYN_MSG_CTL.EN = true) (hsending : s.dev.wordSending = false) :
    ∃ t, exec (.msgFrameRx false word crc ago sample frac) s = .next t ∧ t.dev.trg = s.dev.trg
      ∧ t.dev.get SYN_CNT_MSGBAD.COUNT = min (2 ^ SYN_CNT_MSGBAD.COUNT.w - 1) (s.dev.get SYN_CNT_MSGBAD.COUNT + 1) := by
  refine ⟨_, State.row_of_empty hw _, ?_⟩
  dsimp only
  rw [Dev.msgFrameRxEff_malformed hen hsending, Dev.raiseHeld_trg, Dev.count_trg, Dev.raiseHeld_get,
    Dev.get_count_eq _ _ _ _ _ (by decide) (by decide)]
  exact ⟨rfl, rfl⟩

section
variable (word : W32) (ago : BitVec 10) (sample : Fin 64) (frac : BitVec 16) (b : Nat)
  (hgrid : s.dev.gridNear (s.dev.pinInst (2 * s.dev.get SYN_MSG_CTL.PAIR + 1)
    (((s.dev.now - ago.toNat) * 64 + sample) * 65536 + frac.toNat) - s.dev.get SYN_LAUNCH_K.K * 4096) = some b)
  (hen : s.dev.flag SYN_MSG_CTL.EN = true) (hsending : s.dev.wordSending = false)
include hgrid hen hsending

theorem exec_msgFrameRx_clash (hid : word.toNat / 2 ^ 18 = s.dev.get SYN_SYSID.ID) :
    ∃ t, exec (.msgFrameRx true word (crc8 word) ago sample frac) s = .next t ∧ t.dev.raised s.dev.now 575
      ∧ t.dev.get SYN_CNT_IDCLASH.COUNT
        = min (2 ^ SYN_CNT_IDCLASH.COUNT.w - 1) (s.dev.get SYN_CNT_IDCLASH.COUNT + 1) := by
  refine ⟨_, State.row_of_empty hw _, ?_⟩
  dsimp only
  rw [Dev.msgFrameRxEff_wellFormed hen hsending hgrid, if_pos hid, Dev.raise_get, Dev.get_count_eq _ _ _ _ _ (by decide) (by decide)]
  have hraised := (s.dev.count SYN_CNT_IDCLASH.COUNT).raise_raised 575
  rw [Dev.count_now] at hraised
  exact ⟨hraised, rfl⟩

theorem exec_msgFrameRx_good (hid : word.toNat / 2 ^ 18 ≠ s.dev.get SYN_SYSID.ID) :
    ∃ t, exec (.msgFrameRx true word (crc8 word) ago sample frac) s = .next t ∧ t.dev.raised s.dev.now 570
      ∧ t.dev.get SYN_CNT_RX.COUNT = (s.dev.get SYN_CNT_RX.COUNT + 1) % 2 ^ SYN_CNT_RX.COUNT.w
      ∧ t.dev.rd ⟨.SYN_MSG_LAST, 0, 0, 0⟩ = word.setWidth 64 &&& Reg.mask ⟨.SYN_MSG_LAST, 0, 0, 0⟩ := by
  have harrives := (((s.dev.bump SYN_CNT_RX.COUNT).raise 570).wr ⟨.SYN_MSG_LAST, 0, 0, 0⟩ (word.setWidth 64)).wordArrives_frame
    b word
  refine ⟨_, State.row_of_empty hw _, ?_⟩
  dsimp only
  rw [Dev.msgFrameRxEff_wellFormed hen hsending hgrid, if_neg hid]
  refine ⟨?_, ?_, ?_⟩
  · exact (Dev.raised_congr (harrives.1 .events (by decide)) _ _).2 ((s.dev.bump SYN_CNT_RX.COUNT).raise_raised 570)
  · rw [Dev.frame_get harrives _ _ _ _ (by decide), Dev.get_wr_family _ _ _ _ _ (show SYN_CNT_RX.COUNT.g ≠ .SYN_MSG_LAST by decide),
      Dev.raise_get, Dev.bump, Dev.get_put_eq _ _ _ _ _ _ (by decide)]
  · rw [Dev.frame_rd harrives _ _ _ _ (by decide), Dev.rd_wr_same]

end

/-! ### The ping (R394) -/

theorem exec_pingGo (v : W32) (hv : v.getLsbD 31 = true) (hping : s.dev.syn.ping = none)
    (howned : (s.dev.wr ⟨.SYN_PING_CTL, 0, 0, 0⟩ (v.setWidth 64)).pinOwned
      ((s.dev.wr ⟨.SYN_PING_CTL, 0, 0, 0⟩ (v.setWidth 64)).get SYN_PING_CTL.PIN) = true)
    (hen : s.dev.flag SYN_MSG_CTL.EN = false) :
    ∃ t, exec (.pingGo v) s = .next t ∧ t.dev.get SYN_PING_STAT.RESULT = 1 ∧ t.dev.get SYN_PING_STAT.DONE = 0
      ∧ t.dev.syn.ping = some {
          responder := t.dev.flag SYN_PING_CTL.ROLE, pin := t.dev.get SYN_PING_CTL.PIN,
          count := max 1 (t.dev.get SYN_PING_CTL.COUNT), go := s.dev.now, next := s.dev.now + 1 } := by
  have hpair : ∀ x, (s.dev.wr ⟨.SYN_PING_CTL, 0, 0, 0⟩ (v.setWidth 64)).inPair x = false := fun x => by
    rw [Dev.inPair, Dev.flag, Dev.get_wr_family _ _ _ _ _ (show SYN_MSG_CTL.EN.g ≠ .SYN_PING_CTL by decide), ← Dev.flag, hen]
    rfl
  have hfree : (s.dev.wr ⟨.SYN_PING_CTL, 0, 0, 0⟩ (v.setWidth 64)).syn.ping = none := hping
  have hnow : (s.dev.wr ⟨.SYN_PING_CTL, 0, 0, 0⟩ (v.setWidth 64)).now = s.dev.now := rfl
  refine ⟨_, State.row_of_empty hw _, ?_⟩
  dsimp only
  rw [Dev.pingGoEff, hv]
  dsimp only
  rw [Bool.not_true, if_neg Bool.false_ne_true]
  generalize s.dev.wr ⟨.SYN_PING_CTL, 0, 0, 0⟩ (v.setWidth 64) = d at howned hpair hfree hnow ⊢
  rw [hfree, howned, hpair, hnow]
  simp only [Option.isSome_none, Bool.not_true, Bool.or_self, Bool.false_eq_true, if_false]
  generalize hp : Ping.mk _ _ _ _ _ _ _ _ _ _ = p
  have hctl : ∀ f : Fld, f.g = .SYN_PING_CTL →
      ((((((d.testEnd 2 (d.get SYN_PING_CTL.PIN) 7).pinIdle (d.get SYN_PING_CTL.PIN)).put SYN_PING_STAT.DONE 0).setSyn
        { (((d.testEnd 2 (d.get SYN_PING_CTL.PIN) 7).pinIdle (d.get SYN_PING_CTL.PIN)).put SYN_PING_STAT.DONE 0).syn with
          ping := some p }).put SYN_PING_STAT.RESULT 1).seenUpdate s.dev).get f = d.get f := fun f hf => by
    rw [Dev.frame_get (Dev.seenUpdate_frame _ _) _ _ _ _ rfl, Dev.get_put_family _ _ _ _ _ _ _ _ (by rw [hf]; decide), Dev.setSyn_get,
      Dev.get_put_family _ _ _ _ _ _ _ _ (by rw [hf]; decide), Dev.get_congr (Dev.pinIdle_regs _ _),
      Dev.keepsRegs_get (Dev.testEnd_keeps _ _ _ _ _) _ _ _ _ (by rw [hf]; decide)]
  rw [Dev.flag, hctl SYN_PING_CTL.ROLE rfl, hctl SYN_PING_CTL.PIN rfl, hctl SYN_PING_CTL.COUNT rfl]
  refine ⟨?_, ?_, ?_⟩
  · rw [Dev.frame_get (Dev.seenUpdate_frame _ _) _ _ _ _ rfl, Dev.get_put_lt _ _ _ _ (by decide) (by decide)]
  · rw [Dev.frame_get (Dev.seenUpdate_frame _ _) _ _ _ _ rfl, Dev.get_put_other _ _ _ _ _ _ _ _ _ _ (by decide) (by decide),
      Dev.setSyn_get, Dev.get_put_lt _ _ _ _ (by decide) (by decide)]
  · rw [Dev.frame_syn (Dev.seenUpdate_frame _ _) (by decide), Dev.put_syn, Dev.setSyn_syn, ← hp]
    rfl

end

/-! ### Pulses, replies and the end of a ping -/

section
variable (d : Dev)

theorem Dev.pingDrive_driven (p : Ping) (b : Nat) (h : d.pinDriven p.pin = true) : d.pingDrive p b = d.pinPulse p.pin b 8 :=
  if_pos h

theorem Dev.pinPulse_ping (x b width : Nat) : (d.pinPulse x b width).syn.ping = d.syn.ping := by
  rw [Dev.pinPulse, Dev.pinDrive]
  split <;> rfl

theorem Dev.pinResume_ping (x : Nat) : (d.pinResume x).syn.ping = d.syn.ping := by
  rw [Dev.pinResume]
  split <;> rfl

theorem Dev.pingEnd_ping (result : Nat) : (d.pingEnd result).syn.ping = none := by
  rw [Dev.pingEnd, Dev.pinResume_ping, Dev.put_syn]
  rfl

theorem Dev.pingEnd_result {result : Nat} (h : result < 2 ^ 4) : (d.pingEnd result).get SYN_PING_STAT.RESULT = result := by
  rw [Dev.pingEnd, Dev.get_congr (Dev.pinResume_regs _ _), Dev.get_put_lt _ _ _ _ (by decide) h]

/-- The mean and the spread of a measured ping are shown. -/
def Dev.pingShown (d : Dev) (p : Ping) : Dev :=
  let n : Int := (p.diffs.length : Nat)
  let low := p.diffs.sum / n
  let exact := p.diffs.sum % n = 0
  let mean := if exact then low else low + ((d.freeVal.toNat % 2 : Nat) : Int)
  let d := if exact then d else d.drawn
  let d := d.wr ⟨.SYN_PING_MEAN, 0, 0, 0⟩ (BitVec.ofInt 64 mean)
  let flat := p.diffs.all fun x => x == p.diffs.headD 0
  if flat then d.put SYN_PING_SD.VALUE 0 else d.putFree SYN_PING_SD.VALUE

theorem Dev.pingDoneEff_measured {p : Ping} (hping : d.syn.ping = some p) (hall : p.count ≤ p.diffs.length) :
    d.pingDoneEff = ((((d.pingShown p).pingEnd 2).raise 576).seenUpdate d) := by
  rw [Dev.pingDoneEff, hping]
  exact if_neg (Nat.not_lt.2 hall)

theorem Dev.pingShown_now (p : Ping) : (d.pingShown p).now = d.now := by
  rw [Dev.pingShown]
  split <;> split <;> rfl

theorem Dev.pingShown_mean {p : Ping} (h : p.diffs.sum % ((p.diffs.length : Nat) : Int) = 0) :
    (d.pingShown p).rd ⟨.SYN_PING_MEAN, 0, 0, 0⟩
      = BitVec.ofInt 64 (p.diffs.sum / ((p.diffs.length : Nat) : Int)) &&& Reg.mask ⟨.SYN_PING_MEAN, 0, 0, 0⟩ := by
  rw [Dev.pingShown, if_pos h]
  split
  · rw [Dev.rd_put_family _ _ _ _ _ _ (show Rg.SYN_PING_MEAN ≠ .SYN_PING_SD by decide), Dev.rd_wr_same]
  · exact (Dev.rd_put_family _ _ _ _ _ _ (show Rg.SYN_PING_MEAN ≠ .SYN_PING_SD by decide)).trans (Dev.rd_wr_same _ _ _)

end

section
variable {s : State} (hw : s.dev.bus.writes = []) (p : Ping) (hping : s.dev.syn.ping = some p)
include hw hping

theorem exec_pingPulse (hrole : p.responder = false) (hsent : p.sent < p.count) (hdriven : s.dev.pinDriven p.pin = true) :
    ∃ t, exec .pingPulse s = .next t ∧ t.dev.now = max s.dev.now p.next
      ∧ t.dev.syn.ping = some { p with sent := p.sent + 1, next := p.next + 1024, waiting := some p.next }
      ∧ (t.dev.syn.pin.get p.pin).out = true ∧ (t.dev.syn.pin.get p.pin).pulseEnd = some (p.next + 8) := by
  have heff : s.dev.pingPulseEff = ((s.dev.advanceTo p.next).pinPulse p.pin p.next 8).updPing fun p' =>
      { p' with sent := p'.sent + 1, next := p'.next + 1024, waiting := some p'.next } := by
    rw [Dev.pingPulseEff, hping]
    dsimp only
    rw [hrole, decide_eq_false (Nat.not_le.2 hsent), Bool.or_self, if_neg Bool.false_ne_true, Dev.pingDrive_driven]
    rw [Dev.pinDriven_congr (Dev.advanceTo_regs _ _), hdriven]
  obtain ⟨own, hpin⟩ := (s.dev.advanceTo p.next).pinPulse_pin p.pin p.next 8
  refine ⟨_, State.row_of_empty hw _, ?_⟩
  dsimp only
  rw [heff, Dev.updPing, Dev.setSyn_now, Dev.setSyn_syn, Dev.pinPulse_now, Dev.advanceTo_now, Dev.pinPulse_ping, Dev.advanceTo_syn,
    hping]
  dsimp only
  rw [hpin]
  exact ⟨rfl, rfl, rfl, rfl⟩

theorem exec_pingReply (r : Nat × Nat) (hreply : p.reply = some r) (hdriven : s.dev.pinDriven p.pin = true) :
    ∃ t, exec .pingReply s = .next t ∧ t.dev.now = max s.dev.now r.1
      ∧ t.dev.syn.ping = some { p with
          reply := none, diffs := p.diffs ++ [((r.1 * 64 * 65536 : Nat) : Int) - (r.2 : Int)] }
      ∧ (t.dev.syn.pin.get p.pin).out = true := by
  have heff : s.dev.pingReplyEff = ((((s.dev.advanceTo r.1).pinPulse p.pin r.1 8).updPing fun p' => { p' with reply := none }
      ).pingMeasured (((r.1 * 64 * 65536 : Nat) : Int) - (r.2 : Int))) := by
    rw [Dev.pingReplyEff, hping]
    dsimp only
    rw [hreply]
    dsimp only
    rw [Dev.pingDrive_driven]
    rw [Dev.pinDriven_congr (Dev.advanceTo_regs _ _), hdriven]
  obtain ⟨own, hpin⟩ := (s.dev.advanceTo r.1).pinPulse_pin p.pin r.1 8
  refine ⟨_, State.row_of_empty hw _, ?_⟩
  dsimp only
  rw [heff, Dev.pingMeasured, Dev.put_now, Dev.put_syn, Dev.updPing, Dev.updPing, Dev.setSyn_now, Dev.setSyn_syn, Dev.setSyn_now,
    Dev.setSyn_syn, Dev.pinPulse_now, Dev.advanceTo_now, Dev.pinPulse_ping, Dev.advanceTo_syn, hping]
  dsimp only
  rw [hpin]
  exact ⟨rfl, rfl, rfl⟩

theorem exec_pingDone (hall : p.count ≤ p.diffs.length) :
    ∃ t, exec .pingDone s = .next t ∧ t.dev.syn.ping = none ∧ t.dev.get SYN_PING_STAT.RESULT = 2
      ∧ t.dev.raised s.dev.now 576
      ∧ (p.diffs.sum % ((p.diffs.length : Nat) : Int) = 0 →
          t.dev.rd ⟨.SYN_PING_MEAN, 0, 0, 0⟩
            = BitVec.ofInt 64 (p.diffs.sum / ((p.diffs.length : Nat) : Int)) &&& Reg.mask ⟨.SYN_PING_MEAN, 0, 0, 0⟩) := by
  have hseen := (((s.dev.pingShown p).pingEnd 2).raise 576).seenUpdate_frame s.dev
  have hend := (s.dev.pingShown p).pingEnd_frame 2
  have hraised := ((s.dev.pingShown p).pingEnd 2).raise_raised 576
  rw [Dev.frame_now hend (by decide), Dev.pingShown_now] at hraised
  refine ⟨_, State.row_of_empty hw _, ?_⟩
  dsimp only
  rw [Dev.pingDoneEff_measured _ hping hall]
  refine ⟨?_, ?_, (Dev.raised_congr (hseen.1 .events (by decide)) _ _).2 hraised, fun hexact => ?_⟩
  · rw [Dev.frame_syn hseen (by decide), Dev.raise_syn, Dev.pingEnd_ping]
  · rw [Dev.frame_get hseen _ _ _ _ (by decide), Dev.raise_get, Dev.pingEnd_result _ (by decide)]
  · rw [Dev.frame_rd hseen _ _ _ _ (by decide), Dev.raise_rd, Dev.frame_rd hend _ _ _ _ (by decide), Dev.pingShown_mean _ hexact]

theorem exec_pingTimeout (hrole : p.responder = true) (hheard : p.heard = false) :
    ∃ t, exec .pingTimeout s = .next t ∧ t.dev.now = max s.dev.now (p.go + 1250000000)
      ∧ t.dev.syn.ping = none ∧ t.dev.get SYN_PING_STAT.RESULT = 3 := by
  have heff : s.dev.pingTimeoutEff = ((s.dev.advanceTo (p.go + 1250000000)).pingEnd 3).seenUpdate s.dev := by
    rw [Dev.pingTimeoutEff, hping]
    dsimp only
    rw [hrole, hheard, Bool.not_false, Bool.and_self, if_pos rfl]
  have hseen := ((s.dev.advanceTo (p.go + 1250000000)).pingEnd 3).seenUpdate_frame s.dev
  refine ⟨_, State.row_of_empty hw _, ?_⟩
  dsimp only
  rw [heff, Dev.frame_now hseen (by decide), Dev.frame_now (Dev.pingEnd_frame _ _) (by decide), Dev.advanceTo_now,
    Dev.frame_syn hseen (by decide), Dev.pingEnd_ping, Dev.frame_get hseen _ _ _ _ (by decide), Dev.pingEnd_result _ (by decide)]
  exact ⟨rfl, rfl, rfl⟩

end

/-- Settles O48: message mode, the queue of words, received frames and the ping, row by row. -/
theorem messageAndPingCommandsAct : Obligations.MessageAndPingCommandsAct := by
  intro s hw
  exact ⟨fun v hen hv => exec_msgModeEnable_on hw v hen hv, fun v hen hv => exec_msgModeEnable_refused hw v hen hv,
    exec_msgModeEnable_disables hw, exec_msgTxGo_queued hw, exec_msgTxGo_full hw, exec_wordSendStart hw, exec_backoffExpiry hw,
    exec_msgTx hw, exec_msgFrameRx_bad hw,
    fun word ago sample frac b hgrid hen hsending => exec_msgFrameRx_clash hw word ago sample frac b hgrid hen hsending,
    fun word ago sample frac b hgrid hen hsending => exec_msgFrameRx_good hw word ago sample frac b hgrid hen hsending,
    exec_pingGo hw, fun p hping hrole hsent => exec_pingPulse hw p hping hrole hsent,
    fun p r hreply hping => exec_pingReply hw p hping r hreply, exec_pingDone hw, exec_pingTimeout hw⟩

end Sys2Proof.Machine

/-! ## Stream ports: enabling, received frames, keys and links (16_stream_ports.md R368, R369, R380, R383, R384) -/

namespace Sys2Proof.Machine

-- One proof at a time: the text is compiled within a fixed memory.
set_option Elab.async false

@[simp] theorem Dev.updPort_port_same (d : Dev) (p : Nat) (f : Port → Port) : (d.updPort p f).eth.get p = f (d.eth.get p) :=
  Tab.get_upd_same _ _ _

/-! ### Enabling (R368, R369) -/

/-- The registers that a write of ETH_CTL may change before the window is checked. -/
def ctlRegs : List Rg := [.ETH_CTL, .TST_CTL, .TST_STAT, .TST_BITS, .TST_ERRS]

/-- The control word of a disabled port is written; EN stays clear, and no test session runs on the port. -/
def Dev.portWritten (d : Dev) (p : Nat) (v : W32) : Dev :=
  ((d.wr ⟨.ETH_CTL, p, 0, 0⟩ (v.setWidth 64)).putb ETH_CTL.EN false p).testEnd 3 p 7

theorem Dev.windowOk_congr {d d' : Dev} (hregs : d.keepsRegs d' ctlRegs) (hlanes : d'.lanes = d.lanes) (p : Nat) :
    d'.windowOk p = d.windowOk p := by
  have hget : ∀ f : Fld, f.g ∉ ctlRegs → ∀ i, d'.get f i = d.get f i := fun f hf i => Dev.keepsRegs_get hregs f i 0 0 hf
  simp (disch := decide) only [Dev.windowOk, Dev.benchRingMeets, Dev.qN, Dev.qEsize, Dev.skeinMeets, Dev.skeinMeetsBut, Dev.flag,
    hget, hlanes]

section
variable (d : Dev) (p : Nat) (v : W32)

theorem Dev.portWritten_keeps : d.keepsRegs (d.portWritten p v) ctlRegs := by
  intro r hr
  obtain ⟨hctl, htst⟩ := not_or.1 (fun h => hr (List.mem_cons.2 h))
  rw [Dev.portWritten, Dev.testEnd_keeps _ _ _ _ _ r htst, Dev.rd_putb_family _ _ _ _ _ _ hctl,
    Dev.rd_wr_ne _ (fun h => hctl (congrArg Reg.g h))]

theorem Dev.portWritten_get (f : Fld) (i : Nat) (h : f.g = .ETH_CTL) :
    (d.portWritten p v).get f i = ((d.wr ⟨.ETH_CTL, p, 0, 0⟩ (v.setWidth 64)).putb ETH_CTL.EN false p).get f i :=
  Dev.keepsRegs_get (Dev.testEnd_keeps _ _ _ _ _) _ _ _ _ (by rw [h]; decide)

theorem Dev.portWritten_disabled : (d.portWritten p v).flag ETH_CTL.EN p = false := by
  rw [Dev.flag, Dev.portWritten_get _ _ _ _ _ rfl, ← Dev.flag, Dev.flag_putb_whole _ _ _ _ _ _ (by decide)]

theorem Dev.portWritten_windowOk : (d.portWritten p v).windowOk p = d.windowOk p :=
  Dev.windowOk_congr (d.portWritten_keeps p v) (Dev.testEnd_lanes _ _ _ _ _) p

theorem Dev.portEnableEff_disabled (h : d.flag ETH_CTL.EN p = false) :
    d.portEnableEff p v
      = if d.windowOk p then (((d.portWritten p v).putb ETH_CTL.EN true p).put ETH_STAT.RESULT 1 p).portReady p
        else (d.portWritten p v).put ETH_STAT.RESULT 2 p := by
  rw [← d.portWritten_windowOk p v, Dev.portEnableEff, h]
  rfl

end

section
variable {s : State} (hw : s.dev.bus.writes = []) (p : Fin 3)
include hw

theorem exec_portEnable {v : W32} (hen : s.dev.flag ETH_CTL.EN p = false) (hwindow : s.dev.windowOk p = true) :
    ∃ u, exec (.portEnable p v) s = .next u ∧ u.dev.flag ETH_CTL.EN p = true ∧ u.dev.get ETH_STAT.RESULT p = 1
      ∧ u.dev.flag ETH_STAT.READY p = (s.dev.pdOn (59 + p) && s.dev.benchOn)
      ∧ u.dev.get ETH_CTL.MODE p = v.toNat / 2 ^ ETH_CTL.MODE.lo % 2 ^ ETH_CTL.MODE.w := by
  refine ⟨_, State.row_of_empty hw _, ?_⟩
  dsimp only
  rw [Dev.portEnableEff_disabled _ _ _ hen, if_pos hwindow, Dev.portReady]
  generalize hd : ((s.dev.portWritten p v).putb ETH_CTL.EN true p).put ETH_STAT.RESULT 1 p = d
  have hflag : d.flag ETH_CTL.EN p = true := by
    rw [← hd, Dev.flag_put_family _ _ _ _ _ _ _ _ (by decide), Dev.flag_putb_whole _ _ _ _ _ _ (by decide)]
  have hpd : ∀ n, d.pdOn n = s.dev.pdOn n := fun n => by
    rw [← hd, Dev.pdOn, Dev.get_put_family _ _ _ _ _ _ _ _ (by decide), Dev.putb, Dev.get_put_family _ _ _ _ _ _ _ _ (by decide),
      Dev.keepsRegs_get (Dev.portWritten_keeps _ _ _) _ _ _ _ (by decide)]
    rfl
  refine ⟨?_, ?_, ?_, ?_⟩
  · rw [Dev.putb, Dev.flag_put_family _ _ _ _ _ _ _ _ (by decide), hflag]
  · rw [Dev.putb, Dev.get_put_other _ _ _ _ _ _ _ _ _ _ (by decide) (by decide), ← hd, Dev.get_put_lt _ _ _ _ (by decide) (by decide)]
  · rw [Dev.flag_putb_whole _ _ _ _ _ _ (by decide), hflag, Dev.benchOn, hpd, hpd, hpd, Bool.true_and]
    rfl
  · rw [Dev.putb, Dev.get_put_family _ _ _ _ _ _ _ _ (by decide), ← hd, Dev.get_put_family _ _ _ _ _ _ _ _ (by decide), Dev.putb,
      Dev.get_put_other _ _ _ _ _ _ _ _ _ _ (by decide) (by decide), Dev.portWritten_get _ _ _ _ _ rfl, Dev.putb,
      Dev.get_put_other _ _ _ _ _ _ _ _ _ _ (by decide) (by decide)]
    exact (Dev.get_wr_eq _ ETH_CTL.MODE _ _ _ _ (by decide)).trans (by rw [BitVec.toNat_setWidth_of_le (by decide)])

theorem exec_portEnable_refused {v : W32} (hen : s.dev.flag ETH_CTL.EN p = false) (hwindow : s.dev.windowOk p = false) :
    ∃ u, exec (.portEnable p v) s = .next u ∧ u.dev.flag ETH_CTL.EN p = false ∧ u.dev.get ETH_STAT.RESULT p = 2 := by
  refine ⟨_, State.row_of_empty hw _, ?_⟩
  dsimp only
  rw [Dev.portEnableEff_disabled _ _ _ hen, hwindow, if_neg Bool.false_ne_true, Dev.flag_put_family _ _ _ _ _ _ _ _ (by decide),
    Dev.get_put_lt _ _ _ _ (by decide) (by decide)]
  exact ⟨Dev.portWritten_disabled _ _ _, rfl⟩

theorem exec_portDisable :
    ∃ u, exec (.portDisable p) s = .next u ∧ u.dev.flag ETH_CTL.EN p = false
      ∧ u.dev.flag ETH_STAT.READY p = false ∧ (u.dev.eth.get p).window = [] ∧ (u.dev.eth.get p).retx = []
      ∧ u.dev.get ETH_CNT_ABANDON.COUNT p
        = min (2 ^ ETH_CNT_ABANDON.COUNT.w - 1) (s.dev.get ETH_CNT_ABANDON.COUNT p + (s.dev.eth.get p).window.length) := by
  have hall : ∀ l : List Packet, (l.filter fun _ => true) = l := fun l => List.filter_eq_self.2 fun _ _ => rfl
  have hnone : ∀ l : List Packet, (l.filter fun _ => ! true) = [] := fun l => List.filter_eq_nil_iff.2 fun _ _ => Bool.false_ne_true
  refine ⟨_, State.row_of_empty hw _, ?_⟩
  dsimp only
  rw [Dev.portDisableEff, Dev.flag_putb_whole _ _ _ _ _ _ (by decide), Dev.putb, Dev.flag_put_family _ _ _ _ _ _ _ _ (by decide),
    Dev.frame_flag (Dev.windowAbandon_frame _ _ _) _ _ _ _ (by decide), Dev.flag_putb_whole _ _ _ _ _ _ (by decide), Dev.put_eth,
    Dev.get_put_family _ _ _ _ _ _ _ _ (by decide), Dev.windowAbandon, Dev.count_eth, Dev.setEth_eth, Tab.get_upd_same, hnone,
    Dev.get_count_eq _ _ _ _ _ (by decide) (by decide), hall, Dev.putb, Dev.setEth_get,
    Dev.get_put_family _ _ _ _ _ _ _ _ (by decide)]
  exact ⟨rfl, rfl, rfl, List.filter_eq_nil_iff.2 fun _ _ => Bool.false_ne_true, rfl⟩

end

/-! ### Received frames (R380) -/

theorem Dev.count_keeps (d : Dev) (f : Fld) (i : Nat) : d.keepsRegs (d.count f i) [f.g, .GLB_CNT_SAT] := by
  intro r hr
  obtain ⟨hf, hr'⟩ := not_or.1 (fun h => hr (List.mem_cons.2 h))
  exact Dev.rd_count _ _ _ _ _ hf fun h => hr' (List.mem_singleton.2 h)

section
variable {d : Dev} {p sub arrival : Nat} {f : EthFrame} (hruns : d.portRuns p = true) (hsub : sub < d.subports p)
include hruns hsub

theorem Dev.ethFrameRxEff_badFcs (hgood : f.good = false) : d.ethFrameRxEff p sub arrival f = d.count ETH_CNT_FCS.COUNT p := by
  rw [Dev.ethFrameRxEff, hruns, decide_eq_false (Nat.not_le.2 hsub), hgood]
  rfl

/-- A good frame to an address that is not the port's is foreign. -/
theorem Dev.ethFrameRxEff_foreign (hgood : f.good = true) (hmac : f.dmac.toNat ≠ d.get ETH_MAC.MAC p sub)
    (hbroadcast : f.dmac ≠ BitVec.allOnes 48) (hmulticast : d.multicastUsed p sub f.dmac = false) :
    d.ethFrameRxEff p sub arrival f = d.foreign p := by
  have hother : (f.dmac.toNat == d.get ETH_MAC.MAC p sub || f.dmac == BitVec.allOnes 48 || d.multicastUsed p sub f.dmac)
      = false := by
    rw [hmulticast, Bool.or_false, Bool.or_eq_false_iff, beq_eq_false_iff_ne, beq_eq_false_iff_ne]
    exact ⟨hmac, hbroadcast⟩
  unfold Dev.ethFrameRxEff
  rw [if_neg, if_neg, if_pos]
  · rw [hother]
    rfl
  · rw [hgood]
    decide
  · rw [hruns, decide_eq_false (Nat.not_le.2 hsub)]
    decide

/-- An ARP request for the port's address is a request for the housekeeping controller. -/
theorem Dev.ethFrameRxEff_arp {dmac : BitVec 48} {a : W32}
    (hmac : dmac.toNat = d.get ETH_MAC.MAC p sub ∨ dmac = BitVec.allOnes 48) (haddr : a.toNat = d.get ETH_IP4.ADDR p sub) :
    d.ethFrameRxEff p sub arrival ⟨true, dmac, .arp a⟩ = d.arpNdEchoEff p := by
  have hours : (dmac.toNat == d.get ETH_MAC.MAC p sub || dmac == BitVec.allOnes 48) = true := by
    rw [Bool.or_eq_true, beq_iff_eq, beq_iff_eq]
    exact hmac
  unfold Dev.ethFrameRxEff
  rw [if_neg, if_neg, if_neg]
  · exact if_pos haddr
  · dsimp only
    rw [hours]
    exact Bool.false_ne_true
  · exact Bool.false_ne_true
  · rw [hruns, decide_eq_false (Nat.not_le.2 hsub)]
    decide

/-- A datagram to the port's address and its Jariz port is a Jariz packet. -/
theorem Dev.ethFrameRxEff_udp {dmac : BitVec 48} {src dst : BitVec 128} {sport dport : BitVec 16} {l : List Byte}
    (hmac : dmac.toNat = d.get ETH_MAC.MAC p sub) (hport : dport.toNat = d.get ETH_CTL.UDP_PORT p)
    (haddr : dst.toNat = d.get ETH_IP4.ADDR p sub) :
    d.ethFrameRxEff p sub arrival ⟨true, dmac, .udp false true src dst sport dport l⟩
      = d.jarizRx p sub arrival false src.toNat sport.toNat l := by
  have hours : (dmac.toNat == d.get ETH_MAC.MAC p sub) = true := by rw [beq_iff_eq, hmac]
  have hjariz : (true && dport.toNat == d.get ETH_CTL.UDP_PORT p
      && if false = true then dst.toNat == d.ip6 p sub else dst.toNat == d.get ETH_IP4.ADDR p sub) = true := by
    rw [if_neg Bool.false_ne_true, Bool.true_and, Bool.and_eq_true, beq_iff_eq, beq_iff_eq]
    exact ⟨hport, haddr⟩
  unfold Dev.ethFrameRxEff
  rw [if_neg, if_neg, if_neg]
  · exact if_pos hjariz
  · dsimp only
    rw [hours]
    exact Bool.false_ne_true
  · exact Bool.false_ne_true
  · rw [hruns, decide_eq_false (Nat.not_le.2 hsub)]
    decide

end

theorem Dev.jarizRx_credit {d : Dev} {p sub arrival src sport t : Nat} {l : List Byte} (hlength : l.length = 48)
    (htype : field l 0 1 = 0x12) (hlen : field l 0x0A 2 = 16)
    (htarget : d.creditTarget p (field l 2 2) false src sport = some t) :
    d.jarizRx p sub arrival false src sport l = d.creditEff t (field l 32 6) (field l 40 6) := by
  rw [Dev.jarizRx, htype, hlen, hlength, if_neg (by decide), if_neg (by decide), if_neg (by simp), htarget]
  exact if_pos (by decide)

theorem Dev.jarizRx_fireAt {d : Dev} {p sub arrival src sport : Nat} {l : List Byte} (hlength : 32 ≤ l.length)
    (htype : field l 0 1 = 0x14) : d.jarizRx p sub arrival false src sport l = d.fireAtEff p sub arrival l := by
  rw [Dev.jarizRx, htype, if_neg (by omega), if_pos (by decide)]

section
variable {s : State} (hw : s.dev.bus.writes = []) (p : Fin 3) (sub : Fin 4) (arrival : BitVec 10)
include hw

theorem exec_ethFrameRx_badFcs (f : EthFrame) (hruns : s.dev.portRuns p = true) (hsub : sub.val < s.dev.subports p)
    (hgood : f.good = false) :
    ∃ u, exec (.ethFrameRx p sub arrival f) s = .next u
      ∧ u.dev.get ETH_CNT_FCS.COUNT p = min (2 ^ ETH_CNT_FCS.COUNT.w - 1) (s.dev.get ETH_CNT_FCS.COUNT p + 1)
      ∧ s.dev.keepsRegs u.dev [.ETH_CNT_FCS, .GLB_CNT_SAT] := by
  refine ⟨_, State.row_of_empty hw _, ?_⟩
  dsimp only
  rw [Dev.ethFrameRxEff_badFcs hruns hsub hgood, Dev.get_count_eq _ _ _ _ _ (by decide) (by decide)]
  exact ⟨rfl, s.dev.count_keeps ETH_CNT_FCS.COUNT p⟩

theorem exec_ethFrameRx_foreign (f : EthFrame) (hruns : s.dev.portRuns p = true) (hsub : sub.val < s.dev.subports p)
    (hgood : f.good = true) (hmac : f.dmac.toNat ≠ s.dev.get ETH_MAC.MAC p sub) (hbroadcast : f.dmac ≠ BitVec.allOnes 48)
    (hmulticast : s.dev.multicastUsed p sub f.dmac = false) :
    ∃ u, exec (.ethFrameRx p sub arrival f) s = .next u
      ∧ u.dev.get ETH_CNT_FOREIGN.COUNT p
        = min (2 ^ ETH_CNT_FOREIGN.COUNT.w - 1) (s.dev.get ETH_CNT_FOREIGN.COUNT p + 1)
      ∧ s.dev.keepsRegs u.dev [.ETH_CNT_FOREIGN, .GLB_CNT_SAT] := by
  refine ⟨_, State.row_of_empty hw _, ?_⟩
  dsimp only
  rw [Dev.ethFrameRxEff_foreign hruns hsub hgood hmac hbroadcast hmulticast, Dev.foreign, Dev.raiseHeld_get,
    Dev.get_count_eq _ _ _ _ _ (by decide) (by decide)]
  exact ⟨rfl, fun r hr => (Dev.raiseHeld_rd _ _ _ _).trans (s.dev.count_keeps ETH_CNT_FOREIGN.COUNT p r hr)⟩

theorem exec_ethFrameRx_arp (dmac : BitVec 48) (a : W32) (hruns : s.dev.portRuns p = true) (hsub : sub.val < s.dev.subports p)
    (hmac : dmac.toNat = s.dev.get ETH_MAC.MAC p sub ∨ dmac = BitVec.allOnes 48)
    (haddr : a.toNat = s.dev.get ETH_IP4.ADDR p sub) :
    ∃ u, exec (.ethFrameRx p sub arrival ⟨true, dmac, .arp a⟩) s = .next u ∧ exec (.arpNdEcho p) s = .next u := by
  refine ⟨_, State.row_of_empty hw _, ?_⟩
  rw [Dev.ethFrameRxEff_arp hruns hsub hmac haddr]
  exact State.row_of_empty hw _

section
variable (dmac : BitVec 48) (src dst : BitVec 128) (sport dport : BitVec 16) (l : List Byte)
  (hruns : s.dev.portRuns p = true) (hsub : sub.val < s.dev.subports p) (hmac : dmac.toNat = s.dev.get ETH_MAC.MAC p sub)
  (hport : dport.toNat = s.dev.get ETH_CTL.UDP_PORT p) (haddr : dst.toNat = s.dev.get ETH_IP4.ADDR p sub)
include hruns hsub hmac hport haddr

theorem exec_ethFrameRx_credit (t : Fin 64) (ack limit : BitVec 48) (hlength : l.length = 48) (htype : field l 0 1 = 0x12)
    (hlen : field l 0x0A 2 = 16) (htarget : s.dev.creditTarget p (field l 2 2) false src.toNat sport.toNat = some t.val)
    (hack : ack.toNat = field l 32 6) (hlimit : limit.toNat = field l 40 6) :
    ∃ u, exec (.ethFrameRx p sub arrival ⟨true, dmac, .udp false true src dst sport dport l⟩) s = .next u
      ∧ exec (.credit t ack limit) s = .next u := by
  refine ⟨_, State.row_of_empty hw _, ?_⟩
  rw [Dev.ethFrameRxEff_udp hruns hsub hmac hport haddr, Dev.jarizRx_credit hlength htype hlen htarget, ← hack, ← hlimit]
  exact State.row_of_empty hw _

theorem exec_ethFrameRx_fireAt (hlength : 32 ≤ l.length) (htype : field l 0 1 = 0x14) :
    ∃ u, exec (.ethFrameRx p sub arrival ⟨true, dmac, .udp false true src dst sport dport l⟩) s = .next u
      ∧ exec (.fireAt p sub arrival l) s = .next u := by
  refine ⟨_, State.row_of_empty hw _, ?_⟩
  rw [Dev.ethFrameRxEff_udp hruns hsub hmac hport haddr, Dev.jarizRx_fireAt hlength htype]
  exact State.row_of_empty hw _

end

/-! ### Requests for the housekeeping controller -/

omit hw in
theorem Dev.portRuns_of_flags {d : Dev} {p : Nat} (hen : d.flag ETH_CTL.EN p = true) (hready : d.flag ETH_STAT.READY p = true) :
    d.portRuns p = true := by
  rw [Dev.portRuns, hen, hready]
  rfl

theorem exec_arpNdEcho (hen : s.dev.flag ETH_CTL.EN p = true) (hready : s.dev.flag ETH_STAT.READY p = true) :
    ∃ u, exec (.arpNdEcho p) s = .next u
      ∧ (s.dev.flag ETH_CTL.HK_EN p = true → s.dev.hkAbsent = false → s.dev.now < (s.dev.eth.get p).hkFrom + 1250000 →
          (s.dev.eth.get p).hkCount < s.dev.get ETH_HK_RATE.PER_MS p →
          u.dev.eth.get p = { s.dev.eth.get p with hkCount := (s.dev.eth.get p).hkCount + 1 })
      ∧ (s.dev.flag ETH_CTL.HK_EN p = false ∨ s.dev.hkAbsent = true →
          u.dev.get ETH_CNT_HKDROP.COUNT p
            = min (2 ^ ETH_CNT_HKDROP.COUNT.w - 1) (s.dev.get ETH_CNT_HKDROP.COUNT p + 1)) := by
  refine ⟨_, State.row_of_empty hw _, ?_⟩
  dsimp only
  rw [Dev.arpNdEchoEff, Dev.portRuns_of_flags hen hready]
  refine ⟨fun hhk habsent hnow hcount => ?_, fun hdrop => ?_⟩
  · dsimp only
    rw [if_neg (Nat.not_le.2 hnow), hhk, habsent, decide_eq_true hcount]
    exact Dev.updPort_port_same _ _ _
  · have hno : ∀ d : Dev, d.regs = s.dev.regs → d.hkAbsent = s.dev.hkAbsent → ∀ b : Bool,
        (d.flag ETH_CTL.HK_EN p && ! d.hkAbsent && b) = false := fun d hregs habsent b => by
      rw [Dev.flag, Dev.get_congr hregs, ← Dev.flag, habsent]
      rcases hdrop with h | h <;> rw [h]
      · rfl
      · rw [Bool.not_true, Bool.and_false, Bool.false_and]
    have hcounted : ∀ d : Dev, d.regs = s.dev.regs → (d.count ETH_CNT_HKDROP.COUNT p).get ETH_CNT_HKDROP.COUNT p
        = min (2 ^ ETH_CNT_HKDROP.COUNT.w - 1) (s.dev.get ETH_CNT_HKDROP.COUNT p + 1) := fun d hregs => by
      rw [Dev.get_count_eq _ _ _ _ _ (by decide) (by decide), Dev.get_congr hregs]
    dsimp only
    by_cases hms : (s.dev.eth.get p).hkFrom + 1250000 ≤ s.dev.now
    · rw [if_pos hms, hno _ (Dev.updPort_regs _ _ _) rfl]
      exact hcounted _ rfl
    · rw [if_neg hms, hno _ rfl rfl]
      exact hcounted _ rfl

/-! ### Keys and links (R383, R384) -/

omit p sub arrival in
theorem exec_faKeyWrite (k : Fin 4) (i : Fin 8) (v : W32) :
    ∃ u, exec (.faKeyWrite k i v) s = .next u ∧ u.dev.faKey.get (8 * k + i) = v.toNat
      ∧ u.dev.flag ETH_FA_KCTL.EN k = false ∧ u.dev.get ETH_FA_LAST.COUNTER k = 0 := by
  refine ⟨_, State.row_of_empty hw _, ?_⟩
  dsimp only
  rw [Dev.faKeyWriteEff, Dev.put_faKey, Dev.putb, Dev.put_faKey, Dev.setFaKey_faKey, Tab.get_set_same,
    Dev.flag_put_family _ _ _ _ _ _ _ _ (by decide), ← Dev.putb, Dev.flag_putb_whole _ _ _ _ _ _ (by decide),
    Dev.get_put_lt _ _ _ _ (by decide) (by decide)]
  exact ⟨rfl, rfl, rfl⟩

omit hw in
theorem Dev.subportLink_moves {d : Dev} {p i : Nat} {up : Bool} (hsub : i < d.subports p) (hi : i < ETH_STAT.LINK.w)
    (hlink : (d.get ETH_STAT.LINK p).testBit i ≠ up) :
    (d.subportLink p i up).get ETH_STAT.LINK p / 2 ^ i % 2 = up.toNat
      ∧ (d.subportLink p i up).raised d.now ((if up then 544 else 545) + 8 * p) := by
  have hmoves : ¬ (d.subports p ≤ i ∨ (d.get ETH_STAT.LINK p / 2 ^ i % 2 = 1) = (up = true)) := by
    rintro (h | h)
    · exact Nat.not_le.2 hsub h
    · refine hlink (Bool.eq_iff_iff.2 ?_)
      rw [← h, Nat.testBit_eq_decide_div_mod_eq, decide_eq_true_eq]
  rw [Dev.subportLink]
  rw [if_neg hmoves]
  refine ⟨?_, Dev.raise_raised _ _⟩
  rw [Dev.raise_get, Dev.get_put_eq _ _ _ _ _ _ (by decide)]
  have hbit : ((if up then d.get ETH_STAT.LINK p + 2 ^ i else d.get ETH_STAT.LINK p - 2 ^ i) % 2 ^ ETH_STAT.LINK.w).testBit i
      = up := by
    rw [Nat.testBit_mod_two_pow, testBit_add_or_sub_two_pow hlink, decide_eq_true hi, Bool.true_and]
  rw [← Nat.toNat_testBit, hbit]

theorem exec_subportLinkUp (hsub : sub.val < s.dev.subports p) (hdown : s.dev.get ETH_STAT.LINK p / 2 ^ sub.val % 2 = 0) :
    ∃ u, exec (.subportLinkUp p sub) s = .next u ∧ u.dev.get ETH_STAT.LINK p / 2 ^ sub.val % 2 = 1
      ∧ u.dev.raised s.dev.now (544 + 8 * p) :=
  ⟨_, State.row_of_empty hw _, Dev.subportLink_moves (up := true) hsub sub.isLt
    (by rw [Nat.testBit_eq_decide_div_mod_eq, hdown]; decide)⟩

theorem exec_subportLinkDown (hsub : sub.val < s.dev.subports p) (hup : s.dev.get ETH_STAT.LINK p / 2 ^ sub.val % 2 = 1) :
    ∃ u, exec (.subportLinkDown p sub) s = .next u ∧ u.dev.get ETH_STAT.LINK p / 2 ^ sub.val % 2 = 0
      ∧ u.dev.raised s.dev.now (545 + 8 * p) :=
  ⟨_, State.row_of_empty hw _, Dev.subportLink_moves (up := false) hsub sub.isLt
    (by rw [Nat.testBit_eq_decide_div_mod_eq, hup]; decide)⟩

end

end Sys2Proof.Machine

/-! ## Credits, retransmission and launches of the streams (16_stream_ports.md R371-R376) -/

namespace Sys2Proof.Machine

-- One proof at a time: the text is compiled within a fixed memory.
set_option Elab.async false

@[simp] theorem Dev.updStream_stream_same (d : Dev) (t : Nat) (f : Stream → Stream) :
    ((d.updStream t f).ben.target.get t).stream = f (d.ben.target.get t).stream :=
  congrArg Target.stream (Dev.updTgt_target_same d t _)

/-! ### Credits (R373) -/

/-- A later LIMIT of a credit is taken. -/
def Dev.creditLimited (d : Dev) (t limit : Nat) : Dev :=
  if seqLater limit (d.ben.target.get t).stream.limit then d.updStream t fun x => { x with limit := limit } else d

/-- A later ACK is taken: the packets that it acknowledges leave the window, and a stall ends. -/
def Dev.creditAcked (d : Dev) (p t ack : Nat) : Dev :=
  let d := d.updStream t fun x => { x with ack := ack, last := d.now, probes := 0, stalled := false }
  let gone := fun (k : Packet) => k.tgt == t && seqLater ack k.seq
  (d.updPort p fun y =>
    { y with window := y.window.filter fun k => ! gone k
             retx := y.retx.filter fun r => ! (r.1 == t && seqLater ack r.2) }).stalledShow p

section
variable (d : Dev) (t ack limit : Nat)

theorem Dev.creditLimited_eth : (d.creditLimited t limit).eth = d.eth := by
  rw [Dev.creditLimited]
  split <;> rfl

theorem Dev.creditLimited_now : (d.creditLimited t limit).now = d.now := by
  rw [Dev.creditLimited]
  split <;> rfl

theorem Dev.creditLimited_get (f : Fld) (i j k : Nat) : (d.creditLimited t limit).get f i j k = d.get f i j k := by
  rw [Dev.creditLimited]
  split <;> rfl

theorem Dev.creditLimited_stream :
    ((d.creditLimited t limit).ben.target.get t).stream
      = { (d.ben.target.get t).stream with
          limit := if seqLater limit (d.ben.target.get t).stream.limit = true then limit
            else (d.ben.target.get t).stream.limit } := by
  rw [Dev.creditLimited]
  split
  · rw [Dev.updStream_stream_same]
  · rfl

theorem Dev.creditAcked_stream (p : Nat) :
    ((d.creditAcked p t ack).ben.target.get t).stream
      = { (d.ben.target.get t).stream with ack := ack, last := d.now, probes := 0, stalled := false } := by
  rw [Dev.creditAcked, Dev.stalledShow, Dev.putb_ben, Dev.updPort_ben, Dev.updStream_stream_same]

theorem Dev.creditAcked_window (p : Nat) :
    ((d.creditAcked p t ack).eth.get p).window
      = (d.eth.get p).window.filter fun k => ! (k.tgt == t && seqLater ack k.seq) := by
  rw [Dev.creditAcked, Dev.stalledShow, Dev.putb_eth, Dev.updPort_port_same, Dev.updStream_eth]

variable {d t} (hstream : d.tgtStream t = true) (hruns : d.portRuns (d.tgtPort t) = true)
include hstream hruns

theorem Dev.creditEff_running :
    d.creditEff t ack limit
      = if seqLater ack (d.ben.target.get t).stream.seq then (d.creditLimited t limit).count ETH_CNT_STALE.COUNT (d.tgtPort t)
        else if seqLater ack (d.ben.target.get t).stream.ack then (d.creditLimited t limit).creditAcked (d.tgtPort t) t ack
        else d.creditLimited t limit := by
  unfold Dev.creditEff
  rw [if_neg (by rw [hstream, hruns]; decide)]
  rfl

end

section
variable {s : State} (hw : s.dev.bus.writes = []) (t : Fin 64) (hstream : s.dev.tgtStream t = true)
  (hruns : s.dev.portRuns (s.dev.tgtPort t) = true)
include hw hstream hruns

theorem exec_credit_acked (ack limit : BitVec 48) (hseq : seqLater ack.toNat (s.dev.ben.target.get t).stream.seq = false)
    (hack : seqLater ack.toNat (s.dev.ben.target.get t).stream.ack = true) :
    ∃ u, exec (.credit t ack limit) s = .next u
      ∧ (u.dev.ben.target.get t).stream
        = { (s.dev.ben.target.get t).stream with
            limit := if seqLater limit.toNat (s.dev.ben.target.get t).stream.limit = true then limit.toNat
              else (s.dev.ben.target.get t).stream.limit,
            ack := ack.toNat, last := s.dev.now, probes := 0, stalled := false }
      ∧ (u.dev.eth.get (s.dev.tgtPort t)).window
        = (s.dev.eth.get (s.dev.tgtPort t)).window.filter (fun k => ! (k.tgt == t.val && seqLater ack.toNat k.seq)) := by
  refine ⟨_, State.row_of_empty hw _, ?_⟩
  dsimp only
  rw [Dev.creditEff_running _ _ hstream hruns, hseq, if_neg Bool.false_ne_true, if_pos hack, Dev.creditAcked_stream,
    Dev.creditAcked_window, Dev.creditLimited_stream, Dev.creditLimited_now, Dev.creditLimited_eth]
  exact ⟨rfl, rfl⟩

theorem exec_credit_stale (ack limit : BitVec 48) (hseq : seqLater ack.toNat (s.dev.ben.target.get t).stream.seq = true) :
    ∃ u, exec (.credit t ack limit) s = .next u ∧ u.dev.eth = s.dev.eth
      ∧ (u.dev.ben.target.get t).stream.ack = (s.dev.ben.target.get t).stream.ack
      ∧ u.dev.get ETH_CNT_STALE.COUNT (s.dev.tgtPort t)
        = min (2 ^ ETH_CNT_STALE.COUNT.w - 1) (s.dev.get ETH_CNT_STALE.COUNT (s.dev.tgtPort t) + 1) := by
  refine ⟨_, State.row_of_empty hw _, ?_⟩
  dsimp only
  rw [Dev.creditEff_running _ _ hstream hruns, if_pos hseq, Dev.count_eth, Dev.creditLimited_eth, Dev.count_ben,
    Dev.creditLimited_stream, Dev.get_count_eq _ _ _ _ _ (by decide) (by decide), Dev.creditLimited_get]
  exact ⟨rfl, rfl, rfl⟩

/-! ### Negative acknowledgements (R374) -/

theorem exec_nack_empty (ack limit : BitVec 48) :
    ∃ u, exec (.nack t ack limit []) s = .next u ∧ u.dev.ben = s.dev.ben
      ∧ u.dev.get ETH_CNT_BADHDR.COUNT (s.dev.tgtPort t)
        = min (2 ^ ETH_CNT_BADHDR.COUNT.w - 1) (s.dev.get ETH_CNT_BADHDR.COUNT (s.dev.tgtPort t) + 1) := by
  have heff : s.dev.nackEff t ack.toNat limit.toNat [] = s.dev.count ETH_CNT_BADHDR.COUNT (s.dev.tgtPort t) := by
    rw [Dev.nackEff, hstream, hruns]
    rfl
  refine ⟨_, State.row_of_empty hw _, ?_⟩
  dsimp only
  rw [List.map_nil, heff, Dev.count_ben, Dev.get_count_eq _ _ _ _ _ (by decide) (by decide)]
  exact ⟨rfl, rfl⟩

theorem exec_nack_queued (ack limit a : BitVec 48) (hseq : seqLater ack.toNat (s.dev.ben.target.get t).stream.seq = false)
    (hack : seqLater ack.toNat (s.dev.ben.target.get t).stream.ack = false)
    (hheld : ((s.dev.eth.get (s.dev.tgtPort t)).window.any fun k => k.tgt == t.val && k.seq == a.toNat) = true) :
    ∃ u, exec (.nack t ack limit [(a, 1)]) s = .next u
      ∧ (u.dev.eth.get (s.dev.tgtPort t)).retx = (s.dev.eth.get (s.dev.tgtPort t)).retx ++ [(t.val, a.toNat)] := by
  have heff : s.dev.nackEff t ack.toNat limit.toNat [(a.toNat, 1)]
      = (s.dev.creditEff t ack.toNat limit.toNat).retxQueue (s.dev.tgtPort t) t ((a.toNat + 0) % 2 ^ 48) := by
    rw [Dev.nackEff, hstream, hruns]
    rfl
  refine ⟨_, State.row_of_empty hw _, ?_⟩
  dsimp only
  rw [List.map_cons, List.map_nil]
  change ((s.dev.nackEff t ack.toNat limit.toNat [(a.toNat, 1)]).eth.get (s.dev.tgtPort t)).retx = _
  rw [heff, Nat.add_zero, Nat.mod_eq_of_lt a.isLt, Dev.creditEff_running _ _ hstream hruns, hseq, hack,
    if_neg Bool.false_ne_true, if_neg Bool.false_ne_true, Dev.retxQueue, Dev.creditLimited_eth, if_pos hheld,
    Dev.updPort_port_same, Dev.creditLimited_eth]

end

/-! ### Retransmission and timeouts (R372, R374, R375) -/

section
variable {s : State} (hw : s.dev.bus.writes = [])
include hw

theorem exec_retransmit (p : Fin 3) (r : Nat × Nat) (k : Packet) (hready : s.dev.retxReady p = some r)
    (hfind : ((s.dev.eth.get p).window.find? fun k => k.tgt == r.1 && k.seq == r.2) = some k) (hfirst : k.flags / 8 % 2 = 0)
    (hruns : s.dev.portRuns p = true) :
    ∃ u, exec (.retransmit p) s = .next u ∧ (u.dev.eth.get p).retx = (s.dev.eth.get p).retx.erase r
      ∧ (u.dev.eth.get p).out = some { k with flags := k.flags + 8 }
      ∧ u.dev.get ETH_CNT_RETX.COUNT p = min (2 ^ ETH_CNT_RETX.COUNT.w - 1) (s.dev.get ETH_CNT_RETX.COUNT p + 1) := by
  have heff : s.dev.retransmitEff p
      = (((s.dev.updPort p fun y => { y with retx := (s.dev.eth.get p).retx.erase r, out := some { k with flags := k.flags + 8 } }).count
          ETH_CNT_RETX.COUNT p).raiseHeld 1250 (547 + 8 * p)) := by
    rw [Dev.retransmitEff, if_pos hruns, hready]
    dsimp only
    rw [hfind]
    dsimp only
    rw [if_neg (by rw [hfirst]; decide)]
  refine ⟨_, State.row_of_empty hw _, ?_⟩
  dsimp only
  rw [heff, Dev.raiseHeld_eth, Dev.count_eth, Dev.updPort_port_same, Dev.raiseHeld_get,
    Dev.get_count_eq _ _ _ _ _ (by decide) (by decide), Dev.updPort_get]
  exact ⟨rfl, rfl, rfl⟩

variable (t : Fin 64)

/-- A stream with packets in the window and no progress probes at its timeout, or is stalled. -/
theorem exec_creditTimeout (hstream : s.dev.tgtStream t = true) (hstalled : (s.dev.ben.target.get t).stream.stalled = false)
    (hheld : ((s.dev.eth.get (s.dev.tgtPort t)).window.any fun k => k.tgt == t.val) = true) :
    ∃ u, exec (.creditTimeout t) s = .next u
      ∧ u.dev.now = max s.dev.now ((s.dev.ben.target.get t).stream.last
          + max 1 (s.dev.get ETH_CR_CTL.TIMEOUT (s.dev.tgtPort t)))
      ∧ ((s.dev.ben.target.get t).stream.probes < max 1 (s.dev.get ETH_CR_CTL.RETRIES (s.dev.tgtPort t)) →
          (u.dev.ben.target.get t).stream.probes = (s.dev.ben.target.get t).stream.probes + 1
          ∧ (u.dev.eth.get (s.dev.tgtPort t)).retx
            = (s.dev.eth.get (s.dev.tgtPort t)).retx ++ [(t.val, (s.dev.ben.target.get t).stream.ack)])
      ∧ (max 1 (s.dev.get ETH_CR_CTL.RETRIES (s.dev.tgtPort t)) ≤ (s.dev.ben.target.get t).stream.probes →
          (u.dev.ben.target.get t).stream.stalled = true
          ∧ u.dev.flag ETH_STAT.STALLED (s.dev.tgtPort t) = true
          ∧ u.dev.raised u.dev.now (546 + 8 * s.dev.tgtPort t)) := by
  generalize hk : (s.dev.ben.target.get t).stream.last + max 1 (s.dev.get ETH_CR_CTL.TIMEOUT (s.dev.tgtPort t)) = k
  have heff : s.dev.creditTimeoutEff t
      = if (s.dev.ben.target.get t).stream.probes < max 1 (s.dev.get ETH_CR_CTL.RETRIES (s.dev.tgtPort t)) then
          ((s.dev.advanceTo k).updStream t fun x => { x with last := (s.dev.advanceTo k).now, probes := x.probes + 1 }).updPort
            (s.dev.tgtPort t) fun y => { y with retx := y.retx ++ [(t.val, (s.dev.ben.target.get t).stream.ack)] }
        else (((s.dev.advanceTo k).updStream t fun x => { x with stalled := true }).stalledShow (s.dev.tgtPort t)).raise
          (546 + 8 * s.dev.tgtPort t) := by
    rw [Dev.creditTimeoutEff, hstream, hstalled, hheld, ← hk]
    dsimp only
    rw [Dev.advanceTo_get]
    rfl
  refine ⟨_, State.row_of_empty hw _, ?_⟩
  dsimp only
  rw [heff]
  by_cases hprobe : (s.dev.ben.target.get t).stream.probes < max 1 (s.dev.get ETH_CR_CTL.RETRIES (s.dev.tgtPort t))
  · rw [if_pos hprobe, Dev.updPort_now, Dev.updStream_now, Dev.advanceTo_now, Dev.updPort_port_same, Dev.updPort_ben,
      Dev.updStream_stream_same, Dev.updStream_eth, Dev.advanceTo_eth, Dev.advanceTo_ben]
    exact ⟨rfl, fun _ => ⟨rfl, rfl⟩, fun h => absurd hprobe (Nat.not_lt.2 h)⟩
  · rw [if_neg hprobe]
    have hnow : (((s.dev.advanceTo k).updStream t fun x => { x with stalled := true }).stalledShow (s.dev.tgtPort t)).now
        = max s.dev.now k := Dev.advanceTo_now _ _
    have hshown : (((s.dev.advanceTo k).updStream t fun x => { x with stalled := true }).stalledShow (s.dev.tgtPort t)).flag
        ETH_STAT.STALLED (s.dev.tgtPort t) = true := by
      rw [Dev.stalledShow, Dev.flag_putb_whole _ _ _ _ _ _ (by decide)]
      refine List.any_eq_true.2 ⟨t, List.mem_range.2 t.isLt, ?_⟩
      rw [Dev.updStream_stream_same, Bool.and_true, Bool.and_eq_true, beq_iff_eq]
      have hget : ∀ f i, ((s.dev.advanceTo k).updStream t fun x => { x with stalled := true }).get f i = s.dev.get f i :=
        fun f i => Dev.get_congr ((Dev.updStream_regs _ _ _).trans (Dev.advanceTo_regs _ _)) f i 0 0
      have hsame : ∀ e : Dev, (∀ f i, e.get f i = s.dev.get f i) → e.tgtStream t = s.dev.tgtStream t := fun e he => by
        simp only [Dev.tgtStream, Dev.flag, he]
      refine ⟨(hsame _ hget).trans hstream, ?_⟩
      · rw [Dev.tgtPort, hget]
        rfl
    refine ⟨(Dev.raise_now _ _).trans hnow, fun h => absurd h hprobe, fun _ => ⟨?_, ?_, ?_⟩⟩
    · rw [Dev.raise_ben]
      exact congrArg Stream.stalled (Dev.updStream_stream_same (s.dev.advanceTo k) t fun x => { x with stalled := true })
    · rw [Dev.raise_flag, hshown]
    · rw [Dev.raise_now]
      exact Dev.raise_raised _ _

end

/-! ### Launches (R370-R372, R376) -/

/-- A packet of target `t` as it is launched: the next SEQ of its stream, and the names of the stream and of the device. -/
def Dev.packetNamed (d : Dev) (t : Nat) (k : Packet) : Packet :=
  { k with tgt := t, seq := (d.ben.target.get t).stream.seq, sid := d.get BEN_HT_STREAM.ID t, dev := d.get SYN_SYSID.ID }

/-- A packet of target `t` enters the window and leaves. -/
def Dev.packetSent (d : Dev) (t : Nat) (k : Packet) : Dev :=
  let p := d.tgtPort t
  let fresh := ! ((d.eth.get p).window.any fun k => k.tgt == t)
  let k := d.packetNamed t k
  let d := d.updPort p fun y => { y with window := y.window ++ [k], out := some k }
  d.updStream t fun x => { x with seq := (x.seq + 1) % 2 ^ 48, last := if fresh then d.now else x.last }

section
variable {d : Dev} {t : Nat}

theorem Dev.packetSend_fits {k : Packet} (done : Dev → Dev)
    (hroom : (d.eth.get (d.tgtPort t)).used + 32 + k.payload.length ≤ d.get ETH_RTX_SIZE.OFS (d.tgtPort t)) :
    d.packetSend t k done = done (d.packetSent t k) := by
  rw [Dev.packetSend]
  dsimp only
  rw [if_neg (Nat.not_lt.2 hroom)]
  rfl

theorem Dev.packetSent_seq (k : Packet) :
    ((d.packetSent t k).ben.target.get t).stream.seq = ((d.ben.target.get t).stream.seq + 1) % 2 ^ 48 :=
  congrArg Stream.seq (Dev.updStream_stream_same (d.updPort _ _) t _)

theorem Dev.packetSent_port (k : Packet) :
    (d.packetSent t k).eth.get (d.tgtPort t)
      = { d.eth.get (d.tgtPort t) with
          window := (d.eth.get (d.tgtPort t)).window ++ [d.packetNamed t k], out := some (d.packetNamed t k) } := by
  rw [Dev.packetSent, Dev.updStream_eth, Dev.updPort_port_same]

/-- The bytes of the next packet of a REPLAY pass. -/
def Dev.replayBytes (d : Dev) (t : Nat) : List Byte :=
  d.storeRead 1 (d.get BEN_HT_BASE.OFS t + d.get BEN_HT_WP.OFS t)
    (min (d.get ETH_PAY.MAXPAY (d.tgtPort t)) (d.get BEN_HT_SIZE.OFS t - d.get BEN_HT_WP.OFS t))

theorem Dev.replayBytes_length : (d.replayBytes t).length ≤ d.get ETH_PAY.MAXPAY (d.tgtPort t) := by
  rw [Dev.replayBytes, Dev.storeRead, Memory.bytes_length]
  exact Nat.min_le_left _ _

/-- A running REPLAY pass sends its next bytes, and shows whether they are its last. -/
theorem Dev.replayPacket_sends (hpass : (d.ben.target.get t).passes ≠ 0) (hend : (d.ben.target.get t).passEnd = false)
    (hready : d.flag BEN_QRY_STAT.READY = true) :
    ∃ (k : Packet) (wp : Nat) (f : Target → Target),
      d.replayPacket t = (d.packetSend t k fun d => (d.put BEN_HT_WP.OFS wp t).updTgt t f)
        ∧ k.payload = d.replayBytes t ∧ ∀ x, (f x).stream = x.stream := by
  have hruns : ¬ ((d.ben.target.get t).passes = 0 ∨ (d.ben.target.get t).passEnd = true
      ∨ (! d.flag BEN_QRY_STAT.READY) = true) := by
    rw [hend, hready]
    simpa using hpass
  rw [Dev.replayPacket]
  dsimp only
  rw [if_neg hruns]
  exact ⟨_, _, _, rfl, rfl, fun _ => rfl⟩

end

theorem exec_packetLaunch_replay {s : State} (hw : s.dev.bus.writes = []) (t : Fin 64)
    (hkind : s.dev.get BEN_HT_CTL.KIND t = 2) (hen : s.dev.flag BEN_HT_CTL.EN t = true)
    (hruns : s.dev.portRuns (s.dev.tgtPort t) = true) (hlink : s.dev.tgtLinked t = true)
    (hretx : s.dev.retxReady (s.dev.tgtPort t) = none) (hstalled : (s.dev.ben.target.get t).stream.stalled = false)
    (hdup : s.dev.tgtDup t = false)
    (hcredit : seqLater (s.dev.ben.target.get t).stream.limit (s.dev.ben.target.get t).stream.seq = true)
    (hpass : (s.dev.ben.target.get t).passes ≠ 0) (hend : (s.dev.ben.target.get t).passEnd = false)
    (hready : s.dev.flag BEN_QRY_STAT.READY = true)
    (hroom : (s.dev.eth.get (s.dev.tgtPort t)).used + 32 + s.dev.get ETH_PAY.MAXPAY (s.dev.tgtPort t)
      ≤ s.dev.get ETH_RTX_SIZE.OFS (s.dev.tgtPort t)) :
    ∃ u, exec (.packetLaunch t) s = .next u
      ∧ (u.dev.ben.target.get t).stream.seq = ((s.dev.ben.target.get t).stream.seq + 1) % 2 ^ 48
      ∧ ((u.dev.eth.get (s.dev.tgtPort t)).out.map fun k => (k.tgt, k.seq, k.payload))
        = some (t.val, (s.dev.ben.target.get t).stream.seq, s.dev.replayBytes t)
      ∧ (u.dev.eth.get (s.dev.tgtPort t)).window.length = (s.dev.eth.get (s.dev.tgtPort t)).window.length + 1 := by
  have hstream : s.dev.tgtStream t = true := by
    rw [Dev.tgtStream, hen, hkind]
    rfl
  have heff : s.dev.packetLaunchEff t = s.dev.replayPacket t := by
    rw [Dev.packetLaunchEff, hstream, hruns, hlink, hretx, hstalled, hdup, hcredit]
    exact if_pos hkind
  obtain ⟨k, wp, f, hsend, hpayload, hkept⟩ := Dev.replayPacket_sends hpass hend hready
  have hfits : (s.dev.eth.get (s.dev.tgtPort t)).used + 32 + k.payload.length ≤ s.dev.get ETH_RTX_SIZE.OFS (s.dev.tgtPort t) := by
    have := s.dev.replayBytes_length (t := t)
    rw [hpayload]
    omega
  refine ⟨_, State.row_of_empty hw _, ?_⟩
  dsimp only
  rw [heff, hsend, Dev.packetSend_fits _ hfits, Dev.updTgt_target_same, hkept, Dev.put_ben, Dev.packetSent_seq, Dev.updTgt_eth,
    Dev.put_eth, Dev.packetSent_port, List.length_append, ← hpayload]
  exact ⟨rfl, rfl, rfl⟩

end Sys2Proof.Machine

/-! ## FIRE_AT messages (16_stream_ports.md R378, R379) -/

namespace Sys2Proof.Machine

-- One proof at a time: the text is compiled within a fixed memory.
set_option Elab.async false

/-- The bytes of a little-endian number bound it. -/
theorem leNat_lt (l : List Byte) : leNat l < 256 ^ l.length := by
  induction l with
  | nil => exact Nat.one_pos
  | cons b l ih =>
    have := b.isLt
    rw [leNat, List.length_cons, Nat.pow_succ]
    omega

theorem field_lt (l : List Byte) (ofs n : Nat) : field l ofs n < 256 ^ n :=
  (leNat_lt _).trans_le (Nat.pow_le_pow_right (by decide) (List.length_take_le _ _))

/-- The entry of a FIRE_AT message is posted to the port's queue, if it has one, and the port's sequence counts. -/
def Dev.fireEntered (d : Dev) (p sub arrival outcome : Nat) (l : List Byte) : Dev :=
  let inst := (d.now * 1024 + arrival - d.get ETH_PTP_DLY.RX p) * 4096
  if d.flag ETH_FA_Q.EN p then
    (d.post (d.get ETH_FA_Q.Q p) 5 0 5500
      (fireEntry (d.stampInst (d.eth.get p).faSeq inst) sub outcome l)).updPort p fun y =>
        { y with faSeq := (y.faSeq + 1) % 2 ^ 32 }
  else d

section
variable (d : Dev) (p sub arrival outcome : Nat) (l : List Byte)

theorem Dev.fireEntered_regs : (d.fireEntered p sub arrival outcome l).regs = d.regs := by
  rw [Dev.fireEntered]
  split <;> rfl

theorem Dev.fireEntered_trg : (d.fireEntered p sub arrival outcome l).trg = d.trg := by
  rw [Dev.fireEntered]
  split <;> rfl

theorem Dev.fireEntered_evr : (d.fireEntered p sub arrival outcome l).evr = d.evr := by
  rw [Dev.fireEntered]
  split <;> rfl

theorem Dev.fireEntered_faSeq (h : d.flag ETH_FA_Q.EN p = true) :
    ((d.fireEntered p sub arrival outcome l).eth.get p).faSeq = ((d.eth.get p).faSeq + 1) % 2 ^ 32 := by
  rw [Dev.fireEntered, if_pos h, Dev.updPort_port_same]
  rfl

variable {d p l} (hruns : d.portRuns p = true)
include hruns

theorem Dev.fireAtEff_rejected (h : d.fireOutcome l ≠ 0) :
    d.fireAtEff p sub arrival l
      = ((d.count ETH_CNT_FA_REJ.COUNT p).raise (550 + 8 * p)).fireEntered p sub arrival (d.fireOutcome l) l := by
  unfold Dev.fireAtEff
  dsimp only
  rw [if_neg (by rw [hruns]; decide), if_neg h, if_neg h, if_neg h]
  rfl

theorem Dev.fireAtEff_accepted (h : d.fireOutcome l = 0) :
    d.fireAtEff p sub arrival l
      = (((d.put ETH_FA_LAST.COUNTER (field l 0x28 8) (field l 0x21 1 % 4)).raise (549 + 8 * p)).fireEntered p sub arrival
          (d.fireOutcome l) l).timedMessage (field l 0x10 16 / 2 ^ 16 % 2 ^ 72) (field l 0x10 16 % 2 ^ 16) (field l 0x20 1)
          (field l 0x0C 2 % 2 ^ 14) := by
  unfold Dev.fireAtEff
  dsimp only
  rw [if_neg (by rw [hruns]; decide), if_pos h, if_pos h, if_pos h]
  rfl

end

section
variable {s : State} (hw : s.dev.bus.writes = []) (p : Fin 3) (sub : Fin 4) (arrival : BitVec 10) (l : List Byte)
  (hruns : s.dev.portRuns p = true)
include hw hruns

theorem exec_fireAt_rejected (h : s.dev.fireOutcome l ≠ 0) :
    ∃ u, exec (.fireAt p sub arrival l) s = .next u ∧ u.dev.raised s.dev.now (550 + 8 * p)
      ∧ u.dev.get ETH_CNT_FA_REJ.COUNT p
        = min (2 ^ ETH_CNT_FA_REJ.COUNT.w - 1) (s.dev.get ETH_CNT_FA_REJ.COUNT p + 1)
      ∧ u.dev.trg = s.dev.trg
      ∧ (s.dev.flag ETH_FA_Q.EN p = true → (u.dev.eth.get p).faSeq = ((s.dev.eth.get p).faSeq + 1) % 2 ^ 32) := by
  have hraised := (s.dev.count ETH_CNT_FA_REJ.COUNT p).raise_raised (550 + 8 * p)
  rw [Dev.count_now] at hraised
  refine ⟨_, State.row_of_empty hw _, ?_⟩
  dsimp only
  rw [Dev.fireAtEff_rejected _ _ hruns h]
  refine ⟨(Dev.raised_congr (Dev.fireEntered_evr _ _ _ _ _ _) _ _).2 hraised, ?_, ?_, fun hq => ?_⟩
  · rw [Dev.get_congr (Dev.fireEntered_regs _ _ _ _ _ _), Dev.raise_get, Dev.get_count_eq _ _ _ _ _ (by decide) (by decide)]
  · rw [Dev.fireEntered_trg, Dev.raise_trg, Dev.count_trg]
  · rw [Dev.fireEntered_faSeq, Dev.raise_eth, Dev.count_eth]
    rw [Dev.raise_flag, Dev.flag, Dev.get_count_other _ _ _ _ _ _ _ _ _ (by decide), ← Dev.flag, hq]

theorem exec_fireAt_accepted (h : s.dev.fireOutcome l = 0) :
    ∃ u, exec (.fireAt p sub arrival l) s = .next u ∧ u.dev.raised s.dev.now (549 + 8 * p)
      ∧ u.dev.get ETH_FA_LAST.COUNTER (field l 0x21 1 % 4) = field l 0x28 8 := by
  have hcounter : field l 0x28 8 < 2 ^ ETH_FA_LAST.COUNTER.w := field_lt l 0x28 8
  refine ⟨_, State.row_of_empty hw _, ?_⟩
  dsimp only
  rw [Dev.fireAtEff_accepted _ _ hruns h]
  generalize hd : (s.dev.put ETH_FA_LAST.COUNTER (field l 0x28 8) (field l 0x21 1 % 4)).raise (549 + 8 * p) = d
  have hmessage := (d.fireEntered p sub arrival.toNat (s.dev.fireOutcome l) l).timedMessage_frame (field l 0x10 16 / 2 ^ 16 % 2 ^ 72)
    (field l 0x10 16 % 2 ^ 16) (field l 0x20 1) (field l 0x0C 2 % 2 ^ 14)
  have hraised : d.raised s.dev.now (549 + 8 * p) := hd ▸ Dev.raise_raised _ _
  refine ⟨?_, ?_⟩
  · exact (Dev.raised_congr ((hmessage.1 .events (by decide)).trans (Dev.fireEntered_evr _ _ _ _ _ _)) _ _).2 hraised
  · rw [Dev.frame_get hmessage _ _ _ _ (by decide), Dev.get_congr (Dev.fireEntered_regs _ _ _ _ _ _), ← hd, Dev.raise_get,
      Dev.get_put_lt _ _ _ _ (by decide) hcounter]

end

/-- Settles O46: the rows of the ports and what a received frame is taken for. -/
theorem portCommandsAct : Obligations.PortCommandsAct := by
  intro s p t hw
  exact ⟨fun _ => exec_portEnable hw p, fun _ => exec_portEnable_refused hw p, exec_portDisable hw p,
    fun sub arrival f hen hready => exec_ethFrameRx_badFcs hw p sub arrival f (Dev.portRuns_of_flags hen hready),
    fun sub arrival f hen hready => exec_ethFrameRx_foreign hw p sub arrival f (Dev.portRuns_of_flags hen hready),
    exec_arpNdEcho hw p,
    fun ack limit hstream hruns => exec_credit_acked hw t hstream hruns ack limit,
    fun ack limit hstream hruns => exec_credit_stale hw t hstream hruns ack limit,
    fun ack limit hstream hruns => exec_nack_empty hw t hstream hruns ack limit,
    fun ack limit a hstream hruns => exec_nack_queued hw t hstream hruns ack limit a,
    fun sub arrival l hen hready => exec_fireAt_rejected hw p sub arrival l (Dev.portRuns_of_flags hen hready),
    fun sub arrival l hen hready => exec_fireAt_accepted hw p sub arrival l (Dev.portRuns_of_flags hen hready),
    fun hkind hen hport hready => exec_packetLaunch_replay hw t hkind hen (Dev.portRuns_of_flags hport hready),
    fun r k hretx hfind hfirst hen hready => exec_retransmit hw p r k hretx hfind hfirst (Dev.portRuns_of_flags hen hready),
    exec_creditTimeout hw t, exec_faKeyWrite hw, fun sub => exec_subportLinkUp hw p sub, fun sub => exec_subportLinkDown hw p sub,
    fun sub arrival dmac a => exec_ethFrameRx_arp hw p sub arrival dmac a,
    fun sub arrival dmac src dst sport dport l ack limit hruns hsub hmac hport haddr =>
      exec_ethFrameRx_credit hw p sub arrival dmac src dst sport dport l hruns hsub hmac hport haddr t ack limit,
    fun sub arrival dmac src dst sport dport l hruns hsub hmac hport haddr =>
      exec_ethFrameRx_fireAt hw p sub arrival dmac src dst sport dport l hruns hsub hmac hport haddr⟩

end Sys2Proof.Machine

/-! ## Skeins are defined and rewound (06_record_lanes_and_segments.md R146, R155) -/

namespace Sys2Proof.Machine

@[simp] theorem Dev.updSkein_skein_same (d : Dev) (k : Nat) (f : Skein → Skein) :
    (d.updSkein k f).lanes.skein.get k = f (d.lanes.skein.get k) := Tab.get_upd_same _ _ _

/-- The definition of skein `k` that its registers spell (R146). -/
def Dev.skeinRead (d : Dev) (k : Nat) : Skein :=
  { defined := true, store := d.get REC_SKN_BASE.STORE k, base := d.get REC_SKN_BASE.OFS k, size := d.get REC_SKN_SIZE.BYTES k
    policy := d.get REC_SKN_CTL.POLICY k, tgt := d.get REC_SKN_CTL.HOIST_TGT k }

/-- The result of a definition stands in none of the fields that define the skein. -/
theorem Dev.skeinRead_putResult (d : Dev) (v k : Nat) : (d.put REC_SKN_CTL.DEF_RESULT v k).skeinRead k = d.skeinRead k := by
  simp (disch := decide) only [Dev.skeinRead, Dev.get_put_other]

/-- The registers of a skein that is defined, or rewound, anew. -/
def Dev.skeinShown (d : Dev) (k : Nat) : Dev :=
  ((d.put REC_SKN_CTL.DEF_RESULT 1 k).put REC_SKN_CP.BYTES 0 k).putb REC_SKN_OLDEST.VALID false k

theorem Dev.skeinDefineEff_passes {d : Dev} {k : Nat} (h : d.skeinResult k = 1) :
    d.skeinDefineEff k = ((d.skeinShown k).updSkein k fun _ => d.skeinRead k).retireRecheck := by
  rw [Dev.skeinDefineEff, h, ← d.skeinRead_putResult 1 k]
  rfl

theorem exec_skeinDefine {s : State} (hw : s.dev.bus.writes = []) (k : Fin 64) (h : s.dev.skeinResult k = 1) :
    ∃ t, exec (.skeinDefine k) s = .next t ∧ t.dev.get REC_SKN_CTL.DEF_RESULT k = 1
      ∧ t.dev.get REC_SKN_CP.BYTES k = 0 ∧ t.dev.flag REC_SKN_OLDEST.VALID k = false
      ∧ t.dev.lanes.skein.get k = s.dev.skeinRead k := by
  have hbus : (s.dev.skeinDefineEff k).bus = s.dev.bus := (Dev.skeinDefineEff_frame k s.dev).1 .bus (by decide)
  refine ⟨_, State.rowLast_of_empty hw _, ?_⟩
  dsimp only
  rw [Dev.idle_of_empty (by rw [hbus, hw]), Dev.advanceTo_get, Dev.advanceTo_get, Dev.advanceTo_flag, Dev.advanceTo_lanes,
    Dev.skeinDefineEff_passes h]
  have hrecheck := ((s.dev.skeinShown k).updSkein k fun _ => s.dev.skeinRead k).retireRecheck_frame
  have hlanes : _ = ((s.dev.skeinShown k).updSkein k fun _ => s.dev.skeinRead k).lanes := hrecheck.1 .lanes (by decide)
  rw [Dev.frame_get hrecheck _ _ _ _ (by decide), Dev.frame_get hrecheck _ _ _ _ (by decide),
    Dev.frame_flag hrecheck _ _ _ _ (by decide), hlanes, Dev.updSkein_skein_same]
  refine ⟨?_, ?_, ?_, rfl⟩ <;>
    simp (disch := decide) only [Dev.flag, Dev.updSkein_get, Dev.skeinShown, Dev.putb, Dev.get_put_other, Dev.get_put_lt]
  rfl

/-- A skein without held segments shows no oldest one. -/
theorem Dev.skeinOldest_of_empty {d : Dev} {k : Nat} (h : (d.lanes.skein.get k).held = []) :
    d.skeinOldest k = d.putb REC_SKN_OLDEST.VALID false k := by
  rw [Dev.skeinOldest, h]
  rfl

/-- A STOP skein that no lane is bound to gives up its segments (R155). -/
theorem Dev.skeinRewindEff_unbound {d : Dev} {k : Nat} (hdef : (d.lanes.skein.get k).defined = true)
    (hpol : (d.lanes.skein.get k).policy = 0) (hfree : d.boundLane k = none) :
    d.skeinRewindEff k = (((d.put REC_SKN_CP.BYTES 0 k).updSkein k fun s => { s with held := [] }).putb
      REC_SKN_OLDEST.VALID false k).put REC_SKN_CTL.DEF_RESULT 1 k := by
  have hopen : ¬ ((! (d.lanes.skein.get k).defined) = true ∨ (d.lanes.skein.get k).policy ≠ 0) := by simp [hdef, hpol]
  have hstill : ((((d.put REC_SKN_CP.BYTES 0 k).updSkein k fun s => { s with held := [] }).putb
      REC_SKN_OLDEST.VALID false k).put REC_SKN_CTL.DEF_RESULT 1 k).boundLane k = none := by
    rw [← hfree]
    simp (disch := decide) only [Dev.boundLane, Dev.flag, Dev.putb, Dev.get_put_other, Dev.updSkein_get]
  rw [Dev.skeinRewindEff, if_neg hopen, hfree]
  simp only [Bool.false_eq_true, if_false]
  rw [Dev.skeinOldest_of_empty (by rw [Dev.updSkein_skein_same]), hstill]

theorem exec_skeinRewind {s : State} (hw : s.dev.bus.writes = []) (k : Fin 64)
    (hdef : (s.dev.lanes.skein.get k).defined = true) (hpol : (s.dev.lanes.skein.get k).policy = 0)
    (hfree : s.dev.boundLane k = none) :
    ∃ t, exec (.skeinRewind k) s = .next t ∧ t.dev.get REC_SKN_CTL.DEF_RESULT k = 1
      ∧ t.dev.get REC_SKN_CP.BYTES k = 0 ∧ (t.dev.lanes.skein.get k).held = []
      ∧ t.dev.flag REC_SKN_OLDEST.VALID k = false := by
  refine ⟨_, State.row_of_empty hw _, ?_⟩
  dsimp only
  rw [Dev.skeinRewindEff_unbound hdef hpol hfree, Dev.put_lanes, Dev.putb_lanes, Dev.updSkein_skein_same]
  refine ⟨?_, ?_, rfl, ?_⟩ <;>
    simp (disch := decide) only [Dev.flag, Dev.updSkein_get, Dev.putb, Dev.get_put_other, Dev.get_put_lt]
  rfl

end Sys2Proof.Machine

/-! ## Decimation units commit, restart and deliver (07_decimation_units.md R170, R178, R180, R182, R183, R185, R187) -/

namespace Sys2Proof.Machine

@[simp] theorem Dev.updDec_unit_same (d : Dev) (u : Nat) (f : DecUnit → DecUnit) :
    (d.updDec u f).dec.unit.get u = f (d.dec.unit.get u) := Tab.get_upd_same _ _ _

theorem Dev.updDec_unit_ne (d : Dev) {u m : Nat} (h : m ≠ u) (f : DecUnit → DecUnit) :
    (d.updDec u f).dec.unit.get m = d.dec.unit.get m := Tab.get_upd_ne _ h _

theorem Dev.updDec_flag (d : Dev) (u : Nat) (g : DecUnit → DecUnit) (f : Fld) (i j k : Nat) :
    (d.updDec u g).flag f i j k = d.flag f i j k := Dev.flag_congr (d.updDec_get u g) _ _ _ _

/-! ### Commits and enables (R170, R178) -/

theorem Dev.decDue_now (d : Dev) (k : Nat) : (d.decDue k).now = d.now := (d.decDue_frame k).1 .clock (by decide)

/-- A unit that is to restart in the next frame. -/
theorem Dev.decRestartNext_unit (d : Dev) (u : Nat) :
    (d.decRestartNext u).dec.unit.get u = { d.dec.unit.get u with restart := some (d.now - 150 + 1) } :=
  Dev.updDec_unit_same _ _ _

/-- The configuration that a commit of unit `u` would make active. -/
def Dev.decStaged (d : Dev) (u : Nat) : W64 × W64 × W64 :=
  (d.rd ⟨.DEC_CFG, u, 0, 0⟩, d.rd ⟨.DEC_STEP, u, 0, 0⟩, d.rd ⟨.DEC_PHASE0, u, 0, 0⟩)

theorem Dev.decStaged_congr {d d' : Dev} {ps : List Part} {l : List Rg} (h : Dev.frame ps l d d')
    (hcfg : l.contains .DEC_CFG = false) (hstep : l.contains .DEC_STEP = false) (hphase : l.contains .DEC_PHASE0 = false)
    (u : Nat) : d'.decStaged u = d.decStaged u := by
  rw [Dev.decStaged, Dev.decStaged, Dev.frame_rd h _ _ _ _ hcfg, Dev.frame_rd h _ _ _ _ hstep, Dev.frame_rd h _ _ _ _ hphase]

/-- The unit's frame: the clock runs 150 frames ahead of it. Lean derives no equation for the definition, so `rw` needs this. -/
theorem Dev.frameAtUnit_eq (d : Dev) : d.frameAtUnit = d.now - 150 := rfl

/-- A commit that passes its check keeps what it has checked for the restart in the next frame (R170). -/
theorem Dev.decCommitEff_passes {d : Dev} {u : Nat} (h : (d.decDue (d.now - 150)).decCheck u = 1) :
    d.decCommitEff u = (((d.decDue (d.now - 150)).put DEC_STAT.RESULT 1 u).decRestartNext u).updDec u fun x =>
      { x with commit := some (d.decStaged u) } := by
  have hstaged : ((d.decDue (d.now - 150)).put DEC_STAT.RESULT 1 u).decStaged u = d.decStaged u := by
    rw [Dev.decStaged_congr (Dev.put_frame _ _ _ _ _ _) (by decide) (by decide) (by decide),
      Dev.decStaged_congr (Dev.decDue_frame _ _) (by decide) (by decide) (by decide)]
  rw [← hstaged]
  simp only [Dev.decCommitEff, Dev.frameAtUnit_eq, h, if_true]
  rfl

theorem exec_decCommit {s : State} (hw : s.dev.bus.writes = []) (u : Fin 16)
    (h : (s.dev.decDue (s.dev.now - 150)).decCheck u = 1) :
    ∃ t, exec (.decCommit u) s = .next t ∧ t.dev.get DEC_STAT.RESULT u = 1
      ∧ (t.dev.dec.unit.get u).commit = some (s.dev.decStaged u)
      ∧ (t.dev.dec.unit.get u).restart = some (s.dev.now - 150 + 1)
      ∧ (∀ m, m ≠ u.val → t.dev.dec.unit.get m = (s.dev.decDue (s.dev.now - 150)).dec.unit.get m) := by
  refine ⟨_, State.row_of_empty hw _, ?_⟩
  dsimp only
  rw [Dev.decCommitEff_passes h, Dev.updDec_get, Dev.updDec_unit_same, Dev.decRestartNext_unit, Dev.put_now, Dev.decDue_now]
  refine ⟨?_, rfl, rfl, fun m hm => ?_⟩
  · rw [Dev.decRestartNext, Dev.updDec_get, Dev.get_put_lt _ _ _ _ (by decide) (by decide)]
  · rw [Dev.updDec_unit_ne _ hm, Dev.decRestartNext, Dev.updDec_unit_ne _ hm, Dev.put_dec]

theorem Dev.decEnableEff_rises {d : Dev} {u : Nat} (h : d.flag DEC_CTL.EN u ≠ true) :
    d.decEnableEff u true = ((d.decDue d.frameAtUnit).putb DEC_CTL.EN true u).decRestartNext u := by
  rw [Dev.decEnableEff, if_neg h]
  rfl

theorem Dev.decEnableEff_falls {d : Dev} {u : Nat} (h : d.flag DEC_CTL.EN u ≠ false) :
    d.decEnableEff u false = (((d.decDue d.frameAtUnit).putb DEC_CTL.EN false u).putb DEC_STAT.SETTLED false u).updDec u
      fun x => { x with runs := [], restart := if x.commit.isSome then x.restart else none, part := [] } := by
  rw [Dev.decEnableEff, if_neg h]
  rfl

theorem exec_decEnable {s : State} (hw : s.dev.bus.writes = []) (u : Fin 16) (en : Bool) (h : s.dev.flag DEC_CTL.EN u ≠ en) :
    ∃ t, exec (.decEnable u en) s = .next t ∧ t.dev.flag DEC_CTL.EN u = en
      ∧ (en = true → (t.dev.dec.unit.get u).restart = some (s.dev.now - 150 + 1))
      ∧ (en = false → t.dev.flag DEC_STAT.SETTLED u = false ∧ (t.dev.dec.unit.get u).runs = []) := by
  refine ⟨_, State.row_of_empty hw _, ?_⟩
  dsimp only
  cases en with
  | true =>
    rw [Dev.decEnableEff_rises h, Dev.decRestartNext_unit, Dev.putb_now, Dev.decDue_now, Dev.decRestartNext, Dev.updDec_flag]
    exact ⟨Dev.flag_putb_whole _ _ _ _ _ _ (by decide), fun _ => rfl, nofun⟩
  | false =>
    rw [Dev.decEnableEff_falls h, Dev.updDec_flag, Dev.updDec_flag, Dev.updDec_unit_same]
    refine ⟨?_, nofun, fun _ => ⟨Dev.flag_putb_whole _ _ _ _ _ _ (by decide), rfl⟩⟩
    rw [Dev.flag, Dev.putb, Dev.get_put_other _ _ _ _ _ _ _ _ _ _ (by decide) (by decide)]
    exact Dev.flag_putb_whole _ _ _ _ _ _ (by decide)

end Sys2Proof.Machine

/-! ## Decimation units restart, and SYNCs set out (07_decimation_units.md R178, R185, R187) -/

namespace Sys2Proof.Machine

/-! ### The start of a run (R178) -/

theorem Dev.wr128_dec (d : Dev) (g : Rg) (i : Nat) (single : Bool) (v : BitVec 128) : (d.wr128 g i single v).dec = d.dec :=
  (d.wr128_frame g i single v).1 .decimation (by decide)

section
variable (d : Dev) (u k : Nat) (rate : Bool)

/-- A start gives the unit a run of its own that begins at its frame and has no samples yet. -/
theorem Dev.decStart_runs : ∃ run : DecRun, run.k0 = k ∧ run.x = []
    ∧ ((d.decStart u k rate).dec.unit.get u).runs.getLast? = some run := by
  rw [Dev.decStart, Dev.wr128_dec, Dev.putb_dec, Dev.updDec_unit_same]
  exact ⟨_, rfl, rfl, List.getLast?_concat⟩

theorem Dev.decStart_due : ((d.decStart u k rate).dec.unit.get u).restart = (d.dec.unit.get u).restart
    ∧ ((d.decStart u k rate).dec.unit.get u).commit = (d.dec.unit.get u).commit := by
  rw [Dev.decStart, Dev.wr128_dec, Dev.putb_dec, Dev.updDec_unit_same]
  exact ⟨rfl, rfl⟩

theorem Dev.decStart_unit_ne {m : Nat} (h : m ≠ u) : (d.decStart u k rate).dec.unit.get m = d.dec.unit.get m := by
  rw [Dev.decStart, Dev.wr128_dec, Dev.putb_dec, Dev.updDec_unit_ne _ h]

theorem Dev.decStart_settled : (d.decStart u k rate).flag DEC_STAT.SETTLED u = false := by
  rw [Dev.decStart, Dev.frame_flag (Dev.wr128_frame _ _ _ _ _) _ _ _ _ (by decide)]
  exact Dev.flag_putb_whole _ _ _ _ _ _ (by decide)

theorem Dev.wr128_rd_ne (g : Rg) (v : BitVec 128) {r : Reg} (h : r.i ≠ u) : (d.wr128 g u false v).rd r = d.rd r :=
  foldl_keeps (fun e : Dev => e.rd r) _ (fun e _ => Dev.rd_wr_ne e (fun x => h (congrArg Reg.i x)) _) _ d

theorem Dev.decStart_rd_ne {r : Reg} (h : r.i ≠ u) : (d.decStart u k rate).rd r = d.rd r := by
  rw [Dev.decStart, Dev.wr128_rd_ne _ _ _ _ h, Dev.putb, Dev.rd_put_ne _ _ _ _ _ _ (fun x => h (congrArg Reg.i x)),
    Dev.updDec_rd]

end

/-! ### A restart that is due (R178, R187) -/

/-- The registers that the restart of a unit writes, of its own index. -/
def restartRegs : List Rg := [.DEC_STAT, .DEC_CFG_ACT, .DEC_STEP_ACT, .DEC_PHASE0_ACT, .DEC_T0]

/-- Unit `u` stands in `d'` as in `d`, with every register that its restart looks at. -/
def Dev.sameDecUnit (u : Nat) (d d' : Dev) : Prop :=
  d'.dec.unit.get u = d.dec.unit.get u ∧ ∀ r : Reg, r.g ∉ restartRegs ∨ r.i = u → d'.rd r = d.rd r

/-- A commit that goes with a restart becomes active (R187). -/
def Dev.decActivated (d : Dev) (u : Nat) : Dev :=
  match (d.dec.unit.get u).commit with
  | some (c, s, p) => ((d.wr ⟨.DEC_CFG_ACT, u, 0, 0⟩ c).wr ⟨.DEC_STEP_ACT, u, 0, 0⟩ s).wr ⟨.DEC_PHASE0_ACT, u, 0, 0⟩ p
  | none => d

/-- A restart that is due is taken: nothing waits at the unit any more. -/
def Dev.decTaken (d : Dev) (u : Nat) : Dev :=
  (d.decActivated u).updDec u fun x =>
    { x with restart := none, commit := none, shown := x.shown || x.commit.isSome }

section
variable {d d' : Dev} {u m k : Nat}

theorem Dev.sameDecUnit_refl : Dev.sameDecUnit u d d := ⟨rfl, fun _ _ => rfl⟩

theorem Dev.sameDecUnit.trans {e : Dev} (h : Dev.sameDecUnit u d d') (h' : Dev.sameDecUnit u d' e) : Dev.sameDecUnit u d e :=
  ⟨h'.1.trans h.1, fun r hr => (h'.2 r hr).trans (h.2 r hr)⟩

theorem Dev.sameDecUnit.get (h : Dev.sameDecUnit u d d') (f : Fld) (i j k : Nat) (hf : f.g ∉ restartRegs ∨ i = u) :
    d'.get f i j k = d.get f i j k := by rw [Dev.get, Dev.get, h.2 ⟨f.g, i, j, k⟩ hf]

theorem Dev.sameDecUnit.flag (h : Dev.sameDecUnit u d d') (f : Fld) (i j k : Nat) (hf : f.g ∉ restartRegs ∨ i = u) :
    d'.flag f i j k = d.flag f i j k := congrArg (· == 1) (h.get f i j k hf)

theorem Dev.sameDecUnit.decPowered (h : Dev.sameDecUnit u d d') : d'.decPowered u = d.decPowered u := by
  have hpd : ∀ i, d'.get HK_PD_STAT.ON i = d.get HK_PD_STAT.ON i := fun i => h.get _ _ _ _ (Or.inl (by decide))
  simp only [Dev.decPowered, Dev.pdOn, hpd, h.get DEC_CFG_ACT.SRC u 0 0 (Or.inr rfl)]

theorem Dev.decActivated_dec : (d.decActivated u).dec = d.dec := by
  unfold Dev.decActivated
  split <;> rfl

theorem Dev.decActivated_rd_ne {r : Reg} (h : r.i ≠ u) : (d.decActivated u).rd r = d.rd r := by
  have hne : ∀ g, r ≠ ⟨g, u, 0, 0⟩ := fun _ x => h (congrArg Reg.i x)
  unfold Dev.decActivated
  split
  · rw [Dev.rd_wr_ne _ (hne _), Dev.rd_wr_ne _ (hne _), Dev.rd_wr_ne _ (hne _)]
  · rfl

theorem Dev.decDueUnit_none (h : (d.dec.unit.get u).restart = none) : d.decDueUnit u k = d := by
  rw [Dev.decDueUnit, h]

theorem Dev.decDueUnit_later {t : Nat} (h : (d.dec.unit.get u).restart = some t) (ht : k < t) : d.decDueUnit u k = d := by
  rw [Dev.decDueUnit, h]
  exact if_pos ht

/-- A restart that is due is taken, and starts a run of an enabled unit that is powered (R178). -/
theorem Dev.decDueUnit_due {t : Nat} (h : (d.dec.unit.get u).restart = some t) (ht : t ≤ k) :
    d.decDueUnit u k = if (d.decTaken u).flag DEC_CTL.EN u && (d.decTaken u).decPowered u then (d.decTaken u).decStart u t true
      else d.decTaken u := by
  rw [Dev.decDueUnit, h]
  dsimp only
  rw [if_neg (Nat.not_lt.2 ht)]
  rfl

/-- A due restart leaves the unit as it is, or takes it and may start a run. -/
theorem Dev.decDueUnit_cases (P : Dev → Prop) (hkept : P d) (htaken : P (d.decTaken u))
    (hstarted : ∀ t, P ((d.decTaken u).decStart u t true)) : P (d.decDueUnit u k) := by
  cases h : (d.dec.unit.get u).restart with
  | none => rwa [Dev.decDueUnit_none h]
  | some t =>
    rcases Nat.lt_or_ge k t with ht | ht
    · rwa [Dev.decDueUnit_later h ht]
    · rw [Dev.decDueUnit_due h ht]
      exact ite_ind (hstarted t) htaken

theorem Dev.decTaken_unit_ne (h : m ≠ u) : (d.decTaken u).dec.unit.get m = d.dec.unit.get m := by
  rw [Dev.decTaken, Dev.updDec_unit_ne _ h, Dev.decActivated_dec]

theorem Dev.decTaken_rd_ne {r : Reg} (h : r.i ≠ u) : (d.decTaken u).rd r = d.rd r := by
  rw [Dev.decTaken, Dev.updDec_rd, Dev.decActivated_rd_ne h]

/-- The restart of one unit leaves every other unit as it is. -/
theorem Dev.decDueUnit_other (hm : m ≠ u) : Dev.sameDecUnit u d (d.decDueUnit m k) := by
  refine ⟨?_, fun r hr => ?_⟩
  · exact Dev.decDueUnit_cases (fun e => e.dec.unit.get u = d.dec.unit.get u) rfl (Dev.decTaken_unit_ne hm.symm)
      fun t => (Dev.decStart_unit_ne _ _ _ _ hm.symm).trans (Dev.decTaken_unit_ne hm.symm)
  · rcases hr with hr | hr
    · exact (d.decDueUnit_frame m k).2 r hr
    · have hi : r.i ≠ m := hr ▸ hm.symm
      exact Dev.decDueUnit_cases (fun e => e.rd r = d.rd r) rfl (Dev.decTaken_rd_ne hi)
        fun t => (Dev.decStart_rd_ne _ _ _ _ hi).trans (Dev.decTaken_rd_ne hi)

/-- Without a SYNC, what is due up to a frame is for each unit its own restart. -/
theorem Dev.decDue_unit (hu : u < 16) (hsync : d.dec.sync = []) (k : Nat) :
    ∃ e, Dev.sameDecUnit u d e ∧ Dev.sameDecUnit u (e.decDueUnit u k) (d.decDue k) := by
  have hstart : d.decDue k = (List.range 16).foldl (fun d u => d.decDueUnit u k) (d.setDec { d.dec with sync := [] }) := by
    rw [Dev.decDue, hsync]
    rfl
  have hround := foldl_range_ind (k := 16) (f := fun (d : Dev) u => d.decDueUnit u k) (s := d.setDec { d.dec with sync := [] })
    (fun i e => i ≤ u ∧ Dev.sameDecUnit u d e
      ∨ u < i ∧ ∃ b, Dev.sameDecUnit u d b ∧ Dev.sameDecUnit u (b.decDueUnit u k) e)
    (Or.inl ⟨Nat.zero_le _, rfl, fun _ _ => rfl⟩) fun i e _ h => by
      rcases h with ⟨hi, h⟩ | ⟨hi, b, hb, h⟩
      · rcases Nat.lt_or_eq_of_le hi with hi | rfl
        · exact Or.inl ⟨hi, h.trans (Dev.decDueUnit_other (by omega))⟩
        · exact Or.inr ⟨Nat.lt_succ_self i, e, h, Dev.sameDecUnit_refl⟩
      · exact Or.inr ⟨Nat.lt_succ_of_lt hi, b, hb, h.trans (Dev.decDueUnit_other (by omega))⟩
  rw [hstart]
  exact (hround.resolve_left (by omega)).2

theorem Dev.decRestartEff_alone {k : Nat} (hrestart : (d.dec.unit.get u).restart = some k) (hsync : d.dec.sync = []) :
    d.decRestartEff u = (d.advanceTo (k + 150)).decDue k := by
  rw [Dev.decRestartEff, hrestart, hsync]
  rfl

end

theorem Dev.decPowered_congr {d d' : Dev} (h : d'.regs = d.regs) (u : Nat) : d'.decPowered u = d.decPowered u := by
  simp only [Dev.decPowered, Dev.pdOn, Dev.get_congr h]

/-- The configuration that a commit makes active. -/
theorem Dev.decTaken_active {d : Dev} {u : Nat} {c : W64 × W64 × W64} (h : (d.dec.unit.get u).commit = some c) :
    (d.decTaken u).rd ⟨.DEC_CFG_ACT, u, 0, 0⟩ = c.1 &&& (⟨.DEC_CFG_ACT, u, 0, 0⟩ : Reg).mask
      ∧ (d.decTaken u).rd ⟨.DEC_STEP_ACT, u, 0, 0⟩ = c.2.1 &&& (⟨.DEC_STEP_ACT, u, 0, 0⟩ : Reg).mask
      ∧ (d.decTaken u).rd ⟨.DEC_PHASE0_ACT, u, 0, 0⟩ = c.2.2 &&& (⟨.DEC_PHASE0_ACT, u, 0, 0⟩ : Reg).mask := by
  have hne : ∀ {g g' : Rg}, g ≠ g' → (⟨g, u, 0, 0⟩ : Reg) ≠ ⟨g', u, 0, 0⟩ := fun hg x => hg (congrArg Reg.g x)
  simp only [Dev.decTaken, Dev.updDec_rd, Dev.decActivated, h]
  rw [Dev.rd_wr_ne _ (hne (by decide)), Dev.rd_wr_ne _ (hne (by decide)), Dev.rd_wr_same, Dev.rd_wr_ne _ (hne (by decide)),
    Dev.rd_wr_same, Dev.rd_wr_same]
  exact ⟨rfl, rfl, rfl⟩

theorem Dev.decTaken_unit (d : Dev) (u : Nat) : (d.decTaken u).dec.unit.get u = { d.dec.unit.get u with
    restart := none, commit := none, shown := (d.dec.unit.get u).shown || (d.dec.unit.get u).commit.isSome } := by
  rw [Dev.decTaken, Dev.updDec_unit_same, Dev.decActivated_dec]

section
variable {s : State} (hw : s.dev.bus.writes = []) (u : Fin 16) (k : Nat)
  (hrestart : (s.dev.dec.unit.get u).restart = some k) (hsync : s.dev.dec.sync = [])
include hw hrestart hsync

/-- The restart of a unit, without a SYNC: the clock goes to its frame, and the unit becomes what its own restart makes of it. -/
theorem exec_decRestart : ∃ t e, exec (.decRestart u) s = .next t ∧ t.dev.now = max s.dev.now (k + 150)
    ∧ Dev.sameDecUnit u s.dev e ∧ Dev.sameDecUnit u (e.decDueUnit u k) t.dev := by
  obtain ⟨e, he, hdue⟩ := Dev.decDue_unit (d := s.dev.advanceTo (k + 150)) u.isLt (by rw [Dev.advanceTo_dec, hsync]) k
  have hadv : Dev.sameDecUnit u s.dev (s.dev.advanceTo (k + 150)) :=
    ⟨by rw [Dev.advanceTo_dec], fun r _ => Dev.advanceTo_rd _ _ r⟩
  have hnow := (Dev.decDue_now (s.dev.advanceTo (k + 150)) k).trans (Dev.advanceTo_now s.dev (k + 150))
  have heff := Dev.decRestartEff_alone hrestart hsync
  generalize k + 150 = m at *
  exact ⟨_, e, State.row_of_empty hw _, by rw [← hnow, ← heff], hadv.trans he, by rwa [← heff] at hdue⟩

theorem exec_decRestart_starts (hen : s.dev.flag DEC_CTL.EN u = true) (hcommit : (s.dev.dec.unit.get u).commit = none)
    (hpowered : s.dev.decPowered u = true) :
    ∃ t, exec (.decRestart u) s = .next t ∧ t.dev.now = max s.dev.now (k + 150)
      ∧ (t.dev.dec.unit.get u).runs.getLast?.map DecRun.k0 = some k
      ∧ (t.dev.dec.unit.get u).runs.getLast?.map DecRun.x = some []
      ∧ (t.dev.dec.unit.get u).restart = none ∧ t.dev.flag DEC_STAT.SETTLED u = false := by
  obtain ⟨t, e, hexec, hnow, he, ht⟩ := exec_decRestart hw u k hrestart hsync
  have hregs : (e.decTaken u).regs = e.regs := by
    rw [Dev.decTaken, Dev.updDec_regs, Dev.decActivated, he.1, hcommit]
  have hruns : ((e.decTaken u).flag DEC_CTL.EN u && (e.decTaken u).decPowered u) = true := by
    rw [Dev.flag_congr (Dev.get_congr hregs), he.flag _ _ _ _ (Or.inl (by decide)), hen, Dev.decPowered_congr hregs,
      he.decPowered, hpowered]
    rfl
  rw [Dev.decDueUnit_due (by rw [he.1, hrestart]) (Nat.le_refl k), if_pos hruns] at ht
  obtain ⟨run, hk0, hx, hlast⟩ := (e.decTaken u).decStart_runs u k true
  refine ⟨t, hexec, hnow, ?_⟩
  rw [ht.flag _ _ _ _ (Or.inr rfl), Dev.decStart_settled, ht.1, hlast, ((e.decTaken u).decStart_due u k true).1,
    Dev.decTaken_unit, Option.map_some, Option.map_some, hk0, hx]
  exact ⟨rfl, rfl, rfl, rfl⟩

theorem exec_decRestart_commits (c : W64 × W64 × W64) (hcommit : (s.dev.dec.unit.get u).commit = some c) :
    ∃ t, exec (.decRestart u) s = .next t ∧ t.dev.now = max s.dev.now (k + 150)
      ∧ t.dev.rd ⟨.DEC_CFG_ACT, u, 0, 0⟩ = c.1 &&& (⟨.DEC_CFG_ACT, u, 0, 0⟩ : Reg).mask
      ∧ t.dev.rd ⟨.DEC_STEP_ACT, u, 0, 0⟩ = c.2.1 &&& (⟨.DEC_STEP_ACT, u, 0, 0⟩ : Reg).mask
      ∧ t.dev.rd ⟨.DEC_PHASE0_ACT, u, 0, 0⟩ = c.2.2 &&& (⟨.DEC_PHASE0_ACT, u, 0, 0⟩ : Reg).mask
      ∧ (t.dev.dec.unit.get u).restart = none ∧ (t.dev.dec.unit.get u).commit = none := by
  obtain ⟨t, e, hexec, hnow, he, ht⟩ := exec_decRestart hw u k hrestart hsync
  obtain ⟨hcfg, hstep, hphase⟩ := Dev.decTaken_active (he.1 ▸ hcommit)
  rw [Dev.decDueUnit_due (by rw [he.1, hrestart]) (Nat.le_refl k)] at ht
  refine ⟨t, hexec, hnow, ?_⟩
  rw [ht.2 _ (Or.inr rfl), ht.2 _ (Or.inr rfl), ht.2 _ (Or.inr rfl), ht.1, ← hcfg, ← hstep, ← hphase]
  split
  · have hstart := (e.decTaken u).decStart_frame u k true
    obtain ⟨hstarted, hcommitted⟩ := (e.decTaken u).decStart_due u k true
    rw [hstarted, hcommitted, Dev.decTaken_unit]
    exact ⟨Dev.frame_rd hstart _ _ _ _ (by decide), Dev.frame_rd hstart _ _ _ _ (by decide),
      Dev.frame_rd hstart _ _ _ _ (by decide), rfl, rfl⟩
  · rw [Dev.decTaken_unit]
    exact ⟨rfl, rfl, rfl, rfl, rfl⟩

end

/-! ### SYNCs (R185) -/

theorem exec_decSyncGo {s : State} (hw : s.dev.bus.writes = []) (h : s.dev.now - 150 + 1 ∉ s.dev.dec.sync) :
    ∃ t, exec .decSyncGo s = .next t ∧ t.dev.dec.sync = s.dev.dec.sync ++ [s.dev.now - 150 + 1]
      ∧ t.dev.regs = s.dev.regs := by
  have heff : s.dev.decSyncGoEff = s.dev.setDec { s.dev.dec with sync := s.dev.dec.sync ++ [s.dev.now - 150 + 1] } := if_neg h
  refine ⟨_, State.row_of_empty hw _, ?_⟩
  dsimp only
  rw [heff]
  exact ⟨rfl, rfl⟩

theorem exec_timedSync {s : State} (hw : s.dev.bus.writes = []) (i : Nat) (hhead : s.dev.dec.timed.head? = some i)
    (hlate : s.dev.now - 150 ≤ (i + 64 * 65536 - 1) / (64 * 65536))
    (hnew : (i + 64 * 65536 - 1) / (64 * 65536) ∉ s.dev.dec.sync) :
    ∃ t, exec .timedSync s = .next t ∧ t.dev.dec.timed = s.dev.dec.timed.tail
      ∧ t.dev.dec.sync = s.dev.dec.sync ++ [(i + 64 * 65536 - 1) / (64 * 65536)] ∧ t.dev.regs = s.dev.regs := by
  obtain ⟨rest, hrest⟩ := List.head?_eq_some_iff.1 hhead
  have heff : s.dev.timedSyncEff = s.dev.setDec { s.dev.dec with
      timed := rest, sync := s.dev.dec.sync ++ [(i + 64 * 65536 - 1) / (64 * 65536)] } := by
    rw [Dev.timedSyncEff, hrest]
    exact (if_neg (Nat.not_lt.2 hlate)).trans (if_neg hnew)
  refine ⟨_, State.row_of_empty hw _, ?_⟩
  dsimp only
  rw [heff, hrest]
  exact ⟨rfl, rfl, rfl⟩

end Sys2Proof.Machine

/-! ## Decimation units deliver (07_decimation_units.md R180, R182, R183) -/

namespace Sys2Proof.Machine

/-! ### What the comparators and the lanes leave of a delivery -/

/-- Of a delivery of unit `u` that shows its value in the field `f`, what follows it leaves the clock, the value and the runs. -/
def Dev.delivered (u : Nat) (f : Fld) (d d' : Dev) : Prop :=
  d'.now = d.now ∧ d'.get f u = d.get f u ∧ (d'.dec.unit.get u).runs = (d.dec.unit.get u).runs

/-- The fields that show the values of a unit. -/
def decValues : List Fld := [DEC_OUT.VALUE, DEC_FAST.VALUE]

section
variable {d d' : Dev} {u : Nat} {f : Fld}

theorem Dev.delivered_refl : Dev.delivered u f d d := ⟨rfl, rfl, rfl⟩

theorem Dev.delivered.trans {e : Dev} (h : Dev.delivered u f d d') (h' : Dev.delivered u f d' e) : Dev.delivered u f d e :=
  ⟨h'.1.trans h.1, h'.2.1.trans h.2.1, h'.2.2.trans h.2.2⟩

theorem Dev.delivered_of_frame {ps : List Part} {l : List Rg} (h : Dev.frame ps l d d') (hp : Part.clock ∉ ps)
    (hl : ([.DEC_OUT, .DEC_FAST].all fun g => ! l.contains g) = true) (hf : f ∈ decValues)
    (hruns : (d'.dec.unit.get u).runs = (d.dec.unit.get u).runs) : Dev.delivered u f d d' := by
  refine ⟨h.1 .clock hp, ?_, hruns⟩
  simp only [List.all_cons, List.all_nil, Bool.and_true, Bool.and_eq_true, Bool.not_eq_true'] at hl
  obtain rfl | rfl : f = DEC_OUT.VALUE ∨ f = DEC_FAST.VALUE := by simpa [decValues] using hf
  · exact Dev.frame_get h _ _ _ _ hl.1
  · exact Dev.frame_get h _ _ _ _ hl.2

theorem Dev.toUnits_dec (k : Nat) (c : Change) : (d.toUnits k c).dec = d.dec := (d.toUnits_frame k c).1 .decimation (by decide)

theorem Dev.decThreshold_runs (k : Nat) (fast : Bool) (lo hi : Int) :
    ((d.decThreshold u k fast lo hi).dec.unit.get u).runs = (d.dec.unit.get u).runs := by
  unfold Dev.decThreshold
  dsimp only
  repeat' split
  all_goals simp only [Dev.toUnits_dec, Dev.updDec_unit_same, Dev.raise_dec, Dev.bump_dec]

theorem Dev.decThreshold_delivered (hf : f ∈ decValues) (k : Nat) (fast : Bool) (lo hi : Int) :
    Dev.delivered u f d (d.decThreshold u k fast lo hi) :=
  Dev.delivered_of_frame (d.decThreshold_frame u k fast lo hi) (by decide) (by decide) hf (Dev.decThreshold_runs k fast lo hi)

theorem Dev.decToLanes_runs (first : Bool) (o : DecOut) :
    ((d.decToLanes u first o).dec.unit.get u).runs = (d.dec.unit.get u).runs := by
  refine ite_ind (P := fun e => (e.dec.unit.get u).runs = (d.dec.unit.get u).runs) ?_ ?_
  · rw [Dev.updDec_unit_same]
  · refine (foldl_keeps (fun e : Dev => (e.dec.unit.get u).runs) _ (fun e l => ?_) _ _).trans (by rw [Dev.updDec_unit_same])
    refine ite_ind (P := fun e' => (e'.dec.unit.get u).runs = (e.dec.unit.get u).runs) ?_ rfl
    rw [(e.laneGranule_frame l _).1 .decimation (by decide)]

theorem Dev.decToLanes_delivered (hf : f ∈ decValues) (first : Bool) (o : DecOut) :
    Dev.delivered u f d (d.decToLanes u first o) :=
  Dev.delivered_of_frame (d.decToLanes_frame u first o) (by decide) (by decide) hf (Dev.decToLanes_runs first o)

/-- Both comparators take an item of the latest run. -/
theorem Dev.decThresholds_delivered (hf : f ∈ decValues) (last : Prop) [Decidable last] (fast : Bool) (lo hi : Int) :
    Dev.delivered u f d (if last then (d.decThreshold u 0 fast lo hi).decThreshold u 1 fast lo hi else d) :=
  ite_ind (P := Dev.delivered u f d)
    ((Dev.decThreshold_delivered hf 0 fast lo hi).trans (Dev.decThreshold_delivered hf 1 fast lo hi)) Dev.delivered_refl

/-! ### The run that delivers -/

theorem Dev.decSettle_runs : ((d.decSettle u).dec.unit.get u).runs = (d.dec.unit.get u).runs := by
  unfold Dev.decSettle
  split
  · dsimp only
    split
    · rw [Dev.updDec_unit_same, Dev.putb_dec]
    · rfl
  · rfl

/-- The latest run that has delivered stays the latest one. -/
theorem Dev.decAfter_last {j : Nat} (x : DecRun) (h : j + 1 = (d.dec.unit.get u).runs.length) :
    ((d.decAfter u j x).dec.unit.get u).runs.getLast? = some x := by
  have hlast : ((d.dec.unit.get u).runs.set j x).getLast? = some x := by
    rw [List.getLast?_eq_getElem?, List.length_set, ← h, Nat.add_sub_cancel, List.getElem?_set_self (by omega)]
  rw [Dev.decAfter, Dev.updDec_unit_same]
  simp only [hlast, Option.toList_some, List.getLast?_concat]

end

/-- A signed value put into a field reads back as its bits. -/
theorem Dev.get_puts_eq (d : Dev) (f : Fld) (v : Int) (i j k : Nat) (h : f.whole = true) :
    (d.puts f v i j k).get f i j k = (v % 2 ^ f.w).toNat := by
  have hlt : (v % 2 ^ f.w).toNat < 2 ^ f.w := by
    have := Int.emod_lt_of_pos v (b := 2 ^ f.w) (by positivity)
    have := Int.emod_nonneg v (b := 2 ^ f.w) (by positivity)
    zify
    omega
  exact Dev.get_put_lt _ _ _ _ h hlt

/-- Run `j` of unit `u` is now `x`, and the field `f` shows the value `v` that it has delivered. -/
def Dev.runShown (d : Dev) (u j : Nat) (x : DecRun) (f : Fld) (v : Int) : Dev := (d.decAfter u j x).puts f v u

/-- What a delivery shows, whatever follows it. -/
theorem Dev.delivered.shows {d d' : Dev} {u j : Nat} {x : DecRun} {f : Fld} {v : Int}
    (h : Dev.delivered u f (d.runShown u j x f v) d') (hf : f.whole = true) :
    d'.now = d.now ∧ d'.get f u = (v % 2 ^ f.w).toNat
      ∧ (j + 1 = (d.dec.unit.get u).runs.length → (d'.dec.unit.get u).runs.getLast? = some x) := by
  obtain ⟨hnow, hvalue, hruns⟩ := h
  refine ⟨hnow, hvalue.trans (Dev.get_puts_eq _ _ _ _ _ _ hf), fun hlast => ?_⟩
  rw [hruns]
  exact Dev.decAfter_last x hlast

theorem Dev.decItemDeliveryEff_delivers {d : Dev} {u j : Nat} {x : DecRun}
    (h : (d.dec.unit.get u).firstRun (fun r => r.fineDue u) = some (j, x)) :
    Dev.delivered u DEC_OUT.VALUE (((d.advanceTo (x.k0 + (x.conf u).lastIndex x.m / 64 + 215)).decSettle u).runShown u j
      { x with m := x.m + 1 } DEC_OUT.VALUE ((x.conf u).item x x.m).out) (d.decItemDeliveryEff u) := by
  have hf : DEC_OUT.VALUE ∈ decValues := by simp [decValues]
  rw [Dev.decItemDeliveryEff, h]
  have hthresholds := fun e => Dev.decThresholds_delivered (d := e) (u := u) hf (j + 1 = (d.dec.unit.get u).runs.length) false
    ((x.conf u).item x x.m).lo ((x.conf u).item x x.m).hi
  exact ite_ind (P := Dev.delivered u DEC_OUT.VALUE _) (hthresholds _)
    ((hthresholds _).trans (Dev.decToLanes_delivered hf _ _))

theorem Dev.fastPathItemEff_delivers {d : Dev} {u j : Nat} {x : DecRun}
    (h : (d.dec.unit.get u).firstRun (fun r => r.fastDue) = some (j, x)) :
    Dev.delivered u DEC_FAST.VALUE ((d.advanceTo (x.k0 + x.fast + 215)).runShown u j { x with fast := x.fast + 1 }
      DEC_FAST.VALUE (x.fastValue x.fast)) (d.fastPathItemEff u) := by
  have hf : DEC_FAST.VALUE ∈ decValues := by simp [decValues]
  have hcount : ∀ e : Dev, Dev.delivered u DEC_FAST.VALUE e (e.count DEC_CNT_SAT.COUNT u) := fun e =>
    ⟨Dev.count_now _ _ _ _ _, Dev.get_count_other _ _ _ _ _ _ _ _ _ (by decide), by rw [Dev.count_dec]⟩
  rw [Dev.fastPathItemEff, h]
  have hthresholds := fun e => Dev.decThresholds_delivered (d := e) (u := u) hf (j + 1 = (d.dec.unit.get u).runs.length) true
    (x.fastValue x.fast) (x.fastValue x.fast)
  have hshown := fun e => (ite_ind (P := Dev.delivered u DEC_FAST.VALUE e) (c := (x.conf u).saturates x x.fast = true)
    (hcount e) Dev.delivered_refl).trans (hthresholds _)
  exact ite_ind (P := Dev.delivered u DEC_FAST.VALUE _) ((hshown _).trans (Dev.decToLanes_delivered hf _ _)) (hshown _)

section
variable {s : State} (hw : s.dev.bus.writes = []) (u : Fin 16)
include hw

theorem exec_decItemDelivery (x : Nat × DecRun) (h : (s.dev.dec.unit.get u).firstRun (fun r => r.fineDue u) = some x) :
    ∃ t, exec (.decItemDelivery u) s = .next t
      ∧ t.dev.now = max s.dev.now (x.2.k0 + (x.2.conf u).lastIndex x.2.m / 64 + 215)
      ∧ t.dev.get DEC_OUT.VALUE u = (((x.2.conf u).item x.2 x.2.m).out % 2 ^ DEC_OUT.VALUE.w).toNat
      ∧ (x.1 + 1 = (s.dev.dec.unit.get u).runs.length →
        (t.dev.dec.unit.get u).runs.getLast?.map DecRun.m = some (x.2.m + 1)) := by
  obtain ⟨hnow, hvalue, hlast⟩ := (Dev.decItemDeliveryEff_delivers h).shows (by decide)
  rw [(Dev.decSettle_frame _ _).1 .clock (by decide), Dev.advanceTo_now] at hnow
  rw [Dev.decSettle_runs, Dev.advanceTo_dec] at hlast
  refine ⟨_, State.row_of_empty hw _, hnow, hvalue, fun hx => ?_⟩
  dsimp only
  rw [hlast hx, Option.map_some]

theorem exec_fastPathItem (x : Nat × DecRun) (h : (s.dev.dec.unit.get u).firstRun (fun r => r.fastDue) = some x) :
    ∃ t, exec (.fastPathItem u) s = .next t ∧ t.dev.now = max s.dev.now (x.2.k0 + x.2.fast + 215)
      ∧ t.dev.get DEC_FAST.VALUE u = ((4 * ((x.2.x.drop (x.2.fast * 64)).take 64).sum) % 2 ^ DEC_FAST.VALUE.w).toNat
      ∧ (x.1 + 1 = (s.dev.dec.unit.get u).runs.length →
        (t.dev.dec.unit.get u).runs.getLast?.map DecRun.fast = some (x.2.fast + 1)) := by
  obtain ⟨hnow, hvalue, hlast⟩ := (Dev.fastPathItemEff_delivers h).shows (by decide)
  rw [Dev.advanceTo_now] at hnow
  rw [Dev.advanceTo_dec] at hlast
  refine ⟨_, State.row_of_empty hw _, hnow, hvalue, fun hx => ?_⟩
  dsimp only
  rw [hlast hx, Option.map_some]

omit hw in
theorem Dev.settleFr_congr {d d' : Dev} (h : d'.regs = d.regs) (u : Nat) : d'.settleFr u = d.settleFr u := by
  simp only [Dev.settleFr, Dev.decCfg, Dev.rd_congr h, Dev.get_congr h]

/-- SETTLED rises once the settling time of the latest run is over (R183). -/
theorem exec_settled (x : DecRun) (hrun : (s.dev.dec.unit.get u).runs.getLast? = some x)
    (hset : s.dev.flag DEC_STAT.SETTLED u = false) :
    ∃ t, exec (.settled u) s = .next t ∧ t.dev.flag DEC_STAT.SETTLED u = true
      ∧ t.dev.now = max s.dev.now (x.k0 + s.dev.settleFr u + 214) := by
  have heff : s.dev.settledEff u = (s.dev.advanceTo (x.k0 + s.dev.settleFr u + 214)).decSettle u := by
    rw [Dev.settledEff, hrun]
    exact if_neg (by rw [hset]; exact Bool.false_ne_true)
  refine ⟨_, State.row_of_empty hw _, ?_⟩
  dsimp only
  rw [heff, (Dev.decSettle_frame _ _).1 .clock (by decide), Dev.advanceTo_now]
  refine ⟨?_, rfl⟩
  have hdue : (decide (x.k0 + (s.dev.advanceTo (x.k0 + s.dev.settleFr u + 214)).settleFr u + 214
      ≤ (s.dev.advanceTo (x.k0 + s.dev.settleFr u + 214)).now)
      && ! (s.dev.advanceTo (x.k0 + s.dev.settleFr u + 214)).flag DEC_STAT.SETTLED u) = true := by
    rw [Dev.advanceTo_flag, hset, Dev.settleFr_congr (Dev.advanceTo_regs _ _), Dev.advanceTo_now]
    simp
  rw [Dev.decSettle, Dev.advanceTo_dec, hrun]
  dsimp only
  rw [if_pos hdue, Dev.updDec_flag]
  exact Dev.flag_putb_whole _ _ _ _ _ _ (by decide)

end

/-- Settles O27: each command by what its effect leaves of the skein, or of the unit and its registers. -/
theorem skeinAndDecimationCommandsAct : Obligations.SkeinAndDecimationCommandsAct := fun _ u hw =>
  ⟨exec_skeinDefine hw, exec_skeinRewind hw, exec_decCommit hw u, exec_decEnable hw u,
    fun k hrestart hsync hen hcommit => exec_decRestart_starts hw u k hrestart hsync hen hcommit,
    fun k c hcommit hrestart hsync => exec_decRestart_commits hw u k hrestart hsync c hcommit,
    exec_decSyncGo hw, exec_timedSync hw, exec_decItemDelivery hw u, exec_fastPathItem hw u, exec_settled hw u⟩

end Sys2Proof.Machine

/-! ## What the operations of a lane leave of its fill (06_record_lanes_and_segments.md R151, R154, R158, R159) -/

namespace Sys2Proof.Machine

@[simp] theorem Dev.updLane_lane_same (d : Dev) (l : Nat) (f : Lane → Lane) :
    (d.updLane l f).lanes.lane.get l = f (d.lanes.lane.get l) := Tab.get_upd_same _ _ _

theorem Dev.updLane_lane_ne (d : Dev) {l m : Nat} (h : m ≠ l) (f : Lane → Lane) :
    (d.updLane l f).lanes.lane.get m = d.lanes.lane.get m := Tab.get_upd_ne _ h _

theorem Dev.updLane_flag (d : Dev) (l : Nat) (g : Lane → Lane) (f : Fld) (i j k : Nat) :
    (d.updLane l g).flag f i j k = d.flag f i j k := Dev.flag_congr (d.updLane_get l g) _ _ _ _

/-- What holds between every lane and itself, and between lane `l` and its update, holds between each lane and what it is then. -/
theorem Dev.updLane_lanes (R : Lane → Lane → Prop) {d : Dev} {l : Nat} {f : Lane → Lane} (hrefl : ∀ x, R x x)
    (h : R (d.lanes.lane.get l) (f (d.lanes.lane.get l))) (m : Nat) :
    R (d.lanes.lane.get m) ((d.updLane l f).lanes.lane.get m) := by
  by_cases hm : m = l
  · rw [hm, Dev.updLane_lane_same]
    exact h
  · rw [Dev.updLane_lane_ne _ hm]
    exact hrefl _

/-! ### Records leave the fill as it is -/

/-- The lane `y` is `x` but for its records: what it fills, and for which requests, is the same. -/
def Lane.recordsOnly (x y : Lane) : Prop :=
  y = { x with await := y.await, noEntry := y.noEntry, closeSeq := y.closeSeq, placed := y.placed, lastKind := y.lastKind
               lastOutcome := y.lastOutcome }

def Dev.recordsOnly (d d' : Dev) : Prop := ∀ m, (d.lanes.lane.get m).recordsOnly (d'.lanes.lane.get m)

section
variable {d d' : Dev} {l : Nat}

theorem Dev.recordsOnly.trans {e : Dev} (h : d.recordsOnly d') (h' : d'.recordsOnly e) : d.recordsOnly e := fun m => by
  have hm := h' m
  rw [Lane.recordsOnly, h m] at hm
  exact hm

theorem Dev.recordsOnly_of_lane (h : d'.lanes.lane = d.lanes.lane) : d.recordsOnly d' := fun m => by
  rw [Lane.recordsOnly, h]

/-- For the updates of the model, `rfl` says that they change records only. -/
theorem Dev.recordsOnly.updLane (h : d.recordsOnly d') {f : Lane → Lane}
    (hf : (d'.lanes.lane.get l).recordsOnly (f (d'.lanes.lane.get l)) := by exact rfl) : d.recordsOnly (d'.updLane l f) :=
  h.trans (Dev.updLane_lanes Lane.recordsOnly (fun _ => rfl) hf)

theorem Dev.recordsOnly_refl (d : Dev) : d.recordsOnly d := fun _ => rfl

theorem Dev.wakeRecord_lanes (d : Dev) (r : Rec) : (d.wakeRecord r).lanes = d.lanes :=
  (d.wakeRecord_frame r).1 .lanes (by decide)

theorem Dev.recPlace_recordsOnly (d : Dev) (r : Rec) : d.recordsOnly (d.recPlace r) := by
  have hdone : d.recordsOnly (d.setLanes { d.lanes with done := d.lanes.done ++ [r] }) := Dev.recordsOnly_of_lane rfl
  rw [Dev.recPlace]
  refine Dev.recordsOnly.trans ?_ (Dev.recordsOnly_of_lane (congrArg Lanes.lane (Dev.wakeRecord_lanes _ _)))
  exact hdone.updLane

theorem Dev.closesPlace_recordsOnly (d : Dev) (l n : Nat) : d.recordsOnly (d.closesPlace l n) := by
  induction n generalizing d with
  | zero => exact Dev.recordsOnly_refl d
  | succ n ih =>
    rw [Dev.closesPlace]
    split
    · exact ite_ind (P := d.recordsOnly)
        ((Dev.recordsOnly.trans (Dev.recordsOnly_refl d).updLane (Dev.recPlace_recordsOnly _ _)).trans (ih _))
        (Dev.recordsOnly_refl d)
    · exact Dev.recordsOnly_refl d

theorem Dev.closesOut_recordsOnly (d : Dev) (l : Nat) : d.recordsOnly (d.closesOut l) := Dev.closesPlace_recordsOnly _ _ _

theorem Dev.laneClose_recordsOnly (d : Dev) (l outcome k : Nat) (q : Req) : d.recordsOnly (d.laneClose l outcome k q) := by
  rw [Dev.laneClose]
  refine ite_ind (P := d.recordsOnly) ?_ ?_
  · exact ((Dev.recordsOnly_refl d).updLane).updLane
  · exact Dev.recordsOnly.trans (((Dev.recordsOnly_refl d).updLane).updLane) (Dev.closesOut_recordsOnly _ _)

/-- Requests that leave their CLOSE records change nothing else of the lanes. -/
theorem Dev.laneCloses_recordsOnly (d : Dev) (l outcome : Nat) (k : Dev → Nat) (qs : List Req) :
    d.recordsOnly (qs.foldl (fun d q => d.laneClose l outcome (k d) q) d) :=
  foldl_ind (P := d.recordsOnly) (Dev.recordsOnly_refl d) fun _ q h => h.trans (Dev.laneClose_recordsOnly _ _ _ _ q)

end

/-! ### What comes to rest stays at rest -/

/-- From `x` to `y` no request, segment or backlog begins, and a drop run goes on or not as before. -/
structure Lane.settles (x y : Lane) : Prop where
  cur : x.cur = none → y.cur = none
  queue : x.queue = [] → y.queue = []
  seg : x.seg = none → y.seg = none
  pool : x.pool = [] → y.pool = []
  dropping : y.dropping = x.dropping

def Dev.settles (d d' : Dev) : Prop := ∀ m, (d.lanes.lane.get m).settles (d'.lanes.lane.get m)

theorem Lane.settles_refl (x : Lane) : x.settles x := ⟨id, id, id, id, rfl⟩

theorem Lane.settles.trans {x y z : Lane} (h : x.settles y) (h' : y.settles z) : x.settles z :=
  ⟨h'.cur ∘ h.cur, h'.queue ∘ h.queue, h'.seg ∘ h.seg, h'.pool ∘ h.pool, h'.dropping.trans h.dropping⟩

theorem Lane.recordsOnly.settles {x y : Lane} (h : x.recordsOnly y) : x.settles y := by
  rw [h]
  exact ⟨id, id, id, id, rfl⟩

section
variable {d d' : Dev} {l : Nat}

theorem Dev.settles_refl (d : Dev) : d.settles d := fun _ => Lane.settles_refl _

theorem Dev.settles.trans {e : Dev} (h : d.settles d') (h' : d'.settles e) : d.settles e := fun m => (h m).trans (h' m)

theorem Dev.settles_of_lane (h : d'.lanes.lane = d.lanes.lane) : d.settles d' := fun m => by
  rw [h]
  exact Lane.settles_refl _

theorem Dev.settles_of_lanes (h : d'.lanes = d.lanes) : d.settles d' := Dev.settles_of_lane (congrArg Lanes.lane h)

theorem Dev.settles.updLane (h : d.settles d') {f : Lane → Lane}
    (hf : (d'.lanes.lane.get l).settles (f (d'.lanes.lane.get l))) : d.settles (d'.updLane l f) :=
  h.trans (Dev.updLane_lanes Lane.settles Lane.settles_refl hf)

theorem Dev.recordsOnly.settles (h : d.recordsOnly d') : d.settles d' := fun m => (h m).settles

variable (d) (l)

theorem Dev.laneCloseAll_settles (outcome : Nat) : d.settles (d.laneCloseAll l outcome) := by
  rw [Dev.laneCloseAll]
  refine Dev.settles.trans ((Dev.settles_refl d).updLane ?_) (Dev.laneCloses_recordsOnly _ _ _ Dev.now _).settles
  exact ⟨fun _ => rfl, fun _ => rfl, id, fun _ => rfl, rfl⟩

theorem Dev.heldSync_lane : (d.heldSync l).lanes.lane = d.lanes.lane := by
  unfold Dev.heldSync
  dsimp only
  split
  · split <;> rfl
  · rfl

theorem Dev.storeWrite_lanes (st a : Nat) (b : List Byte) : (d.storeWrite st a b).lanes = d.lanes :=
  (d.storeWrite_frame st a b).1 .lanes (by decide)

/-- A granule that is written goes into a window that the lane has, and opens no segment. -/
theorem Dev.laneWrite_settles (g : Granule) : d.settles (d.laneWrite l g) := by
  unfold Dev.laneWrite
  dsimp only
  split
  · exact Dev.settles_refl d
  · refine ite_ind (P := d.settles) (Dev.settles_refl d) ?_
    refine Dev.settles.trans (Dev.settles.updLane (Dev.settles_of_lanes (Dev.storeWrite_lanes _ _ _ _)) ?_)
      (Dev.settles_of_lane (Dev.heldSync_lane _ _))
    rw [Dev.storeWrite_lanes]
    generalize d.lanes.lane.get l = x
    exact ⟨id, id, fun h => by rw [h]; rfl, id, rfl⟩

theorem Dev.skeinOldest_lanes (k : Nat) : (d.skeinOldest k).lanes = d.lanes := (d.skeinOldest_frame k).1 .lanes (by decide)

theorem Dev.unitSegEnd_lane (u k : Nat) : (d.unitSegEnd u l k).lanes.lane = d.lanes.lane := rfl

theorem Dev.updSkein_lane (k : Nat) (f : Skein → Skein) : (d.updSkein k f).lanes.lane = d.lanes.lane := rfl

theorem Dev.laneEndSeg_settles (how : Nat) : d.settles (d.laneEndSeg l how) := by
  unfold Dev.laneEndSeg
  dsimp only
  split
  · refine Dev.settles.trans ?_ (Dev.settles_of_lanes (Dev.skeinOldest_lanes _ _))
    refine Dev.settles.trans ?_ (Dev.settles_of_lane (Dev.unitSegEnd_lane _ _ _ _))
    refine Dev.settles.updLane (Dev.settles_of_lane ?_) ⟨id, id, fun _ => rfl, id, rfl⟩
    exact (Dev.updSkein_lane _ _ _).trans (Dev.heldSync_lane _ _)
  · exact Dev.settles_refl d

theorem Dev.maskStopDone_settles : d.settles (d.maskStopDone l) :=
  ite_ind (P := d.settles) (Dev.laneCloseAll_settles _ _ _) (Dev.settles_refl d)

theorem Dev.laneRested_settles : d.settles (d.laneRested l) :=
  ite_ind (P := d.settles) ((Dev.settles_refl d).updLane ⟨id, id, id, fun _ => rfl, rfl⟩) (Dev.settles_refl d)

theorem Dev.laneComplete_settles : d.settles (d.laneComplete l) := by
  refine ite_ind (P := d.settles) ?_ (Dev.settles_refl d)
  refine (((Dev.laneEndSeg_settles d l 0).updLane ?_).trans (Dev.maskStopDone_settles _ l)).trans
    (Dev.laneRested_settles _ l)
  exact ⟨fun h => by rw [h], id, id, id, rfl⟩

theorem Dev.poolDrain_settles (n : Nat) : d.settles (d.poolDrain l n) := by
  induction n generalizing d with
  | zero => exact Dev.settles_refl d
  | succ n ih =>
    rw [Dev.poolDrain]
    split
    next g t hpool =>
      refine ite_ind (P := d.settles) (Dev.settles_refl d) (Dev.settles.trans ?_ (ih _))
      refine Dev.settles.trans ((Dev.settles_refl d).updLane ?_) (Dev.laneWrite_settles _ _ _)
      exact ⟨id, id, id, fun h => (by simp [hpool] at h), rfl⟩
    · exact Dev.settles_refl d

theorem Dev.cutFinish_settles : d.settles (d.cutFinish l) := by
  rw [Dev.cutFinish]
  split
  · refine ite_ind (P := d.settles) ?_ (Dev.settles_refl d)
    exact (((Dev.laneEndSeg_settles d l _).trans (Dev.laneCloses_recordsOnly _ _ _ (fun _ => _) _).settles).trans
      (Dev.maskStopDone_settles _ l)).trans (Dev.laneRested_settles _ l)
  · exact Dev.settles_refl d

theorem Dev.laneCut_settles (how outcome : Nat) (reqs : List Req) : d.settles (d.laneCut l how outcome reqs) := by
  have hflow := (Dev.poolDrain_settles d l (d.lanes.lane.get l).pool.length).trans (Dev.laneComplete_settles _ l)
  refine ite_ind (P := d.settles) ?_ hflow
  exact (hflow.updLane ⟨id, id, id, id, rfl⟩).trans (Dev.cutFinish_settles _ l)

/-- The backlog of a lane flows on without a next request where the lane has none left over. -/
theorem Dev.poolFlow_settles (h : (d.lanes.lane.get l).pool = []) : d.settles (d.poolFlow l 1) := by
  have hflow := (((Dev.poolDrain_settles d l (d.lanes.lane.get l).pool.length).trans (Dev.laneComplete_settles _ l)).trans
    (Dev.cutFinish_settles _ l)).trans (Dev.laneRested_settles _ l)
  have hempty := (hflow l).pool h
  rw [Dev.poolFlow, hempty]
  exact hflow

end

/-! ### No segment opens without a trigger -/

/-- Lane `m` has no open segment. -/
def Dev.noSeg (m : Nat) (d : Dev) : Prop := (d.lanes.lane.get m).seg = none

section
variable {d : Dev} {m : Nat} (h : d.noSeg m) (l : Nat)
include h

theorem Dev.settles.noSeg {d' : Dev} (hd : d.settles d') : d'.noSeg m := (hd m).seg h

theorem Dev.noSeg_of_lanes {d' : Dev} (hd : d'.lanes = d.lanes) : d'.noSeg m := by rwa [Dev.noSeg, hd]

theorem Dev.updLane_noSeg {f : Lane → Lane} (hf : ∀ x, (f x).seg = x.seg) : (d.updLane l f).noSeg m :=
  (Dev.updLane_lanes (fun x y => y.seg = x.seg) (fun _ => rfl) (hf _) m).trans h

theorem Dev.winPlace_noSeg (q : Req) (p : Nat) : (d.winPlace l q p).noSeg m :=
  Dev.updLane_noSeg (d := Dev.put d _ _ _) (Dev.noSeg_of_lanes h (Dev.put_lanes _ _ _ _ _ _)) _ fun _ => rfl

theorem Dev.supersede_noSeg (k : Nat) (o : Held) : (d.supersede l k o).noSeg m := by
  refine ite_ind (P := Dev.noSeg m) (ite_ind (P := Dev.noSeg m) (ite_ind (P := Dev.noSeg m) ?_ ?_) h) ?_
  · exact (Dev.recPlace_recordsOnly _ _).settles.noSeg h
  · exact Dev.noSeg_of_lanes h (Dev.count_lanes _ _ _ _ _)
  · exact Dev.updLane_noSeg h _ fun _ => rfl

/-- The window of a request is placed, waits or is refused: none of it opens a segment (R155). -/
theorem Dev.winTry_noSeg (q : Req) : (d.winTry l q).noSeg m := by
  unfold Dev.winTry
  dsimp only
  split
  · refine ite_ind (P := Dev.noSeg m) (Dev.winPlace_noSeg h _ _ _) ((Dev.laneCloseAll_settles _ _ _).noSeg ?_)
    exact Dev.noSeg_of_lanes h (by rw [Dev.raise_lanes, Dev.putb_lanes])
  · refine Dev.winPlace_noSeg (foldl_ind (P := Dev.noSeg m) ?_ fun _ _ hd => Dev.supersede_noSeg hd _ _ _) _ _ _
    exact Dev.noSeg_of_lanes (d := Dev.updSkein d _ _) h (Dev.skeinOldest_lanes _ _)
  · exact ite_ind (P := Dev.noSeg m) (Dev.updLane_noSeg h _ fun _ => rfl) (Dev.winPlace_noSeg h _ _ _)

theorem Dev.laneActivate_noSeg : (d.laneActivate l).noSeg m := by
  have hdue := Dev.updLane_noSeg (f := fun x => { x with actAt := none }) h l fun _ => rfl
  rw [Dev.laneActivate]
  refine ite_ind (P := Dev.noSeg m) h ?_
  dsimp only
  split
  · exact Dev.winTry_noSeg hdue _ _
  · refine Dev.winTry_noSeg (Dev.updLane_noSeg hdue l ?_) _ _
    exact fun _ => rfl
  · exact hdue

theorem Dev.poolFlow_noSeg (n : Nat) : (d.poolFlow l n).noSeg m := by
  induction n generalizing d with
  | zero => exact h
  | succ n ih =>
    have hflow := (((Dev.poolDrain_settles d l (d.lanes.lane.get l).pool.length).trans (Dev.laneComplete_settles _ l)).trans
      (Dev.cutFinish_settles _ l)).trans (Dev.laneRested_settles _ l)
    exact ite_ind (P := Dev.noSeg m) (hflow.noSeg h) (ih (Dev.laneActivate_noSeg (hflow.noSeg h) l))

theorem Dev.laneTurn_noSeg : (d.laneTurn l).noSeg m := by
  have hflow : Dev.noSeg m (if d.lanes.stalled.testBit l || (d.lanes.lane.get l).dropping then (d.laneComplete l).cutFinish l
      else d.poolFlow l ((d.lanes.lane.get l).pool.length + 1)) :=
    ite_ind (P := Dev.noSeg m) (((Dev.laneComplete_settles d l).trans (Dev.cutFinish_settles _ l)).noSeg h)
      (Dev.poolFlow_noSeg h l _)
  rw [Dev.laneTurn]
  split
  · exact ite_ind (P := Dev.noSeg m) (Dev.laneActivate_noSeg hflow l) hflow
  · exact hflow

theorem Dev.granuleDrop_noSeg (g : Granule) : (d.granuleDrop l g).noSeg m := by
  refine Dev.updLane_noSeg ?_ _ fun _ => rfl
  refine Dev.noSeg_of_lanes (d := d) h ?_
  rw [Dev.count_lanes, Dev.count_lanes]
  exact ite_ind (P := fun e => e.lanes = d.lanes) (Dev.put_lanes _ _ _ _ _ _) rfl

theorem Dev.dropCut_noSeg : (d.dropCut l).noSeg m := by
  refine ite_ind (P := Dev.noSeg m) ((Dev.maskStopDone_settles _ l).noSeg ?_) (Dev.updLane_noSeg h _ fun _ => rfl)
  exact Dev.updLane_noSeg ((Dev.laneEndSeg_settles d l 1).noSeg h) _ fun _ => rfl

theorem Dev.poolTake_noSeg (g : Granule) : (d.poolTake l g).noSeg m := by
  have hdrop : Dev.noSeg m (((d.granuleDrop l g).putb BEN_STAT.DROPPING true).raise 467) :=
    Dev.noSeg_of_lanes (Dev.granuleDrop_noSeg h l g) (by rw [Dev.raise_lanes, Dev.putb_lanes])
  exact ite_ind (P := Dev.noSeg m) (ite_ind (P := Dev.noSeg m) (Dev.dropCut_noSeg hdrop l) hdrop)
    (Dev.updLane_noSeg h _ fun _ => rfl)

theorem Dev.laneGranule_noSeg (g : Granule) : (d.laneGranule l g).noSeg m := by
  have hturn := Dev.laneTurn_noSeg (Dev.updLane_noSeg (f := fun x => { x with sawValid := true }) h l fun _ => rfl) l
  refine ite_ind (P := Dev.noSeg m) (Dev.granuleDrop_noSeg hturn _ _) ?_
  split
  · exact ite_ind (P := Dev.noSeg m) hturn (Dev.poolTake_noSeg hturn _ _)
  next w _ =>
    have hgap : Dev.noSeg m (if (((d.updLane l fun x => { x with sawValid := true }).laneTurn l).lanes.lane.get l).gap then
        ((d.updLane l fun x => { x with sawValid := true }).laneTurn l).updLane l fun x =>
          { x with gap := false, win := some { w with origin := g.insts.headD 0 / 4194304 } }
        else (d.updLane l fun x => { x with sawValid := true }).laneTurn l) :=
      ite_ind (P := Dev.noSeg m) (Dev.updLane_noSeg hturn _ fun _ => rfl) hturn
    exact ite_ind (P := Dev.noSeg m) hturn (ite_ind (P := Dev.noSeg m) hgap
      (ite_ind (P := Dev.noSeg m) (Dev.poolTake_noSeg hgap _ _) ((Dev.laneWrite_settles _ _ _).noSeg hgap)))

theorem Dev.laneTail_noSeg (b : Nat) : (d.laneTail l b).noSeg m :=
  ite_ind (P := Dev.noSeg m) (Dev.updLane_noSeg h _ fun _ => rfl) h

theorem Dev.laneLoss_noSeg (k : Nat) : (d.laneLoss l k).noSeg m := by
  refine ite_ind (P := Dev.noSeg m) h (ite_ind (P := Dev.noSeg m) (Dev.updLane_noSeg h _ fun _ => rfl)
    ((Dev.maskStopDone_settles _ l).noSeg (Dev.updLane_noSeg ?_ _ fun x => ?_)))
  · exact ite_ind (P := Dev.noSeg m) ((Dev.laneCut_settles _ _ _ _ _).noSeg (Dev.laneTail_noSeg h l _)) h
  · split <;> rfl

/-- A sample frame gives the lane a granule or a loss, and neither opens a segment. -/
theorem Dev.laneFrame_noSeg (k : Nat) : (d.laneFrame k l).noSeg m := by
  unfold Dev.laneFrame
  refine ite_ind (P := Dev.noSeg m) h (ite_ind (P := Dev.noSeg m) ?_ (ite_ind (P := Dev.noSeg m) ?_ h)) <;> split
  · exact ite_ind (P := Dev.noSeg m) (Dev.laneGranule_noSeg h _ _) (Dev.laneLoss_noSeg h _ _)
  · exact Dev.laneLoss_noSeg h _ _
  · exact ite_ind (P := Dev.noSeg m) (Dev.laneLoss_noSeg h _ _) (Dev.laneGranule_noSeg h _ _)
  · exact Dev.laneLoss_noSeg h _ _

end

end Sys2Proof.Machine

/-! ## Lanes are enabled and their requests end (06_record_lanes_and_segments.md R148, R159, R495) -/

namespace Sys2Proof.Machine

/-! ### Enable (R148, R495) -/

/-- The checks of R495 have five errors. -/
theorem Dev.laneCfg_le (d : Dev) (l : Nat) : d.laneCfg l ≤ 5 := by
  unfold Dev.laneCfg
  dsimp only
  repeat' split
  all_goals decide

/-- The registers of a lane that is written with EN set, before the checks. -/
def Dev.laneWritten (d : Dev) (l : Nat) (v : W32) : Dev :=
  (d.wr ⟨.REC_LCTL, l, 0, 0⟩ (v.setWidth 64)).putb REC_LCTL.EN false l

section
variable {d : Dev} {l : Nat} {v : W32} (hoff : d.flag REC_LCTL.EN l = false)
include hoff

theorem Dev.laneEnableEff_passes (h : (d.laneWritten l v).laneCfg l = 0) :
    d.laneEnableEff l v = (((d.laneWritten l v).put REC_LSTAT.CFG_ERR 0 l).putb REC_LCTL.EN true l).updLane l fun x =>
      { x with sawValid := false, lossMark := false, dropMark := false, maskStop := false, gap := false } := by
  rw [Dev.laneWritten] at h
  rw [Dev.laneEnableEff, hoff]
  simp only [Bool.false_eq_true, if_false, h, if_true]
  rfl

theorem Dev.laneEnableEff_fails (h : (d.laneWritten l v).laneCfg l ≠ 0) :
    d.laneEnableEff l v = (d.laneWritten l v).put REC_LSTAT.CFG_ERR ((d.laneWritten l v).laneCfg l) l := by
  rw [Dev.laneWritten] at h
  rw [Dev.laneEnableEff, hoff]
  simp only [Bool.false_eq_true, if_false, h]
  rfl

end

section
variable {s : State} (hw : s.dev.bus.writes = []) (l : Fin 16)
include hw

theorem exec_laneEnable_passes (v : W32) (hoff : s.dev.flag REC_LCTL.EN l = false)
    (h : (s.dev.laneWritten l v).laneCfg l = 0) :
    ∃ t, exec (.laneEnable l v) s = .next t ∧ t.dev.flag REC_LCTL.EN l = true ∧ t.dev.get REC_LSTAT.CFG_ERR l = 0
      ∧ t.dev.get REC_LCTL.SRC l = (v.setWidth 64).toNat / 2 ^ REC_LCTL.SRC.lo % 2 ^ REC_LCTL.SRC.w
      ∧ (t.dev.lanes.lane.get l).sawValid = false := by
  refine ⟨_, State.row_of_empty hw _, ?_⟩
  dsimp only
  rw [Dev.laneEnableEff_passes hoff h, Dev.updLane_flag, Dev.updLane_get, Dev.updLane_get, Dev.updLane_lane_same]
  refine ⟨Dev.flag_putb_whole _ _ _ _ _ _ (by decide), ?_, ?_, rfl⟩
  · simp (disch := decide) only [Dev.putb, Dev.get_put_other, Dev.get_put_lt]
  · simp (disch := decide) only [Dev.laneWritten, Dev.putb, Dev.get_put_other]
    exact Dev.get_wr_eq _ REC_LCTL.SRC _ _ _ _ (by decide)

theorem exec_laneEnable_fails (v : W32) (hoff : s.dev.flag REC_LCTL.EN l = false)
    (h : (s.dev.laneWritten l v).laneCfg l ≠ 0) :
    ∃ t, exec (.laneEnable l v) s = .next t ∧ t.dev.flag REC_LCTL.EN l = false
      ∧ t.dev.get REC_LSTAT.CFG_ERR l = (s.dev.laneWritten l v).laneCfg l % 8 ∧ t.dev.lanes = s.dev.lanes := by
  have hle := (s.dev.laneWritten l v).laneCfg_le l
  refine ⟨_, State.row_of_empty hw _, ?_⟩
  dsimp only
  rw [Dev.laneEnableEff_fails hoff h, Dev.put_lanes]
  refine ⟨?_, ?_, rfl⟩
  · rw [Dev.flag, Dev.get_put_other _ _ _ _ _ _ _ _ _ _ (by decide) (by decide)]
    exact Dev.flag_putb_whole _ _ _ _ _ _ (by decide)
  · rw [Dev.get_put_lt _ _ _ _ (by decide) (Nat.lt_of_le_of_lt hle (by decide)), Nat.mod_eq_of_lt (by omega)]

end

/-! ### The end of every request (R159) -/

/-- A lane that closes all its requests has none left, nor a window or a backlog. -/
theorem Dev.laneCloseAll_lane (d : Dev) (l outcome : Nat) :
    Lane.recordsOnly { (d.lanes.lane.get l).emptied with cur := none, win := none, queue := [], actAt := none
                                                         maskStop := false, pool := [] }
      ((d.laneCloseAll l outcome).lanes.lane.get l) := by
  rw [Dev.laneCloseAll]
  have h := Dev.laneCloses_recordsOnly (d.updLane l fun x => { x.emptied with cur := none, win := none, queue := []
                                                                              actAt := none, maskStop := false, pool := [] })
    l outcome Dev.now ((d.lanes.lane.get l).cur.toList ++ (d.lanes.lane.get l).queue) l
  rwa [Dev.updLane_lane_same] at h

/-- The lane has no active request and none in its queue. -/
def Lane.noRequest (x : Lane) : Prop := x.cur = none ∧ x.queue = []

theorem Lane.settles.noRequest {x y : Lane} (h : x.settles y) (hx : x.noRequest) : y.noRequest := ⟨h.cur hx.1, h.queue hx.2⟩

section
variable (d : Dev) (l outcome : Nat) (cut : Bool)

/-- What a lane that stops has written. -/
def Dev.laneDrained (b : Nat) : Dev :=
  ((d.laneTail l b).poolDrain l ((d.laneTail l b).lanes.lane.get l).pool.length).laneComplete l

/-- The stop of a lane that has written what it has: its segment is cut with every request, or every request closes. -/
def Dev.laneHalted : Dev :=
  let x := d.lanes.lane.get l
  match x.seg with
  | some s =>
    if x.cut.isSome then
      (d.updLane l fun y => { y with cur := none, queue := [], actAt := none, cut := y.cut.map fun c =>
        if c.reqs.isEmpty then { c with outcome := outcome, reqs := x.cur.toList ++ x.queue, frame := d.now }
        else { c with reqs := c.reqs ++ (x.cur.toList ++ x.queue) } }).cutFinish l
    else (d.updLane l fun y => { y with cur := none, queue := [], actAt := none }).laneCut l
      (if s.post = openEnded ∧ ! cut ∧ ! x.dropping then 3 else 1) outcome
      ((x.cur.map fun q => { q with left := q.left - if x.dropping then 0 else 1 }).toList ++ x.queue)
  | none => d.laneCloseAll l outcome

theorem Dev.laneStop_some (b : Nat) : d.laneStop l outcome cut (some b) = (d.laneDrained l b).laneHalted l outcome cut := rfl

/-- A lane that stops has no request left, whether it has a segment to cut or not. -/
theorem Dev.laneHalted_noRequest : ((d.laneHalted l outcome cut).lanes.lane.get l).noRequest := by
  rw [Dev.laneHalted]
  split
  · split
    · refine ((Dev.cutFinish_settles _ l) l).noRequest ?_
      rw [Dev.updLane_lane_same]
      exact ⟨rfl, rfl⟩
    · refine ((Dev.laneCut_settles _ l _ _ _) l).noRequest ?_
      rw [Dev.updLane_lane_same]
      exact ⟨rfl, rfl⟩
  · exact (Dev.laneCloseAll_lane _ _ _).settles.noRequest ⟨rfl, rfl⟩

theorem Dev.laneEndNow_noRequest : ((d.laneEndNow l outcome cut).lanes.lane.get l).noRequest := Dev.laneHalted_noRequest _ _ _ _

variable {d l}

/-- A lane that stops without a segment gives up its window and its backlog. -/
theorem Dev.laneHalted_of_noSeg (h : d.noSeg l) : ((d.laneHalted l outcome cut).lanes.lane.get l).win = none
    ∧ ((d.laneHalted l outcome cut).lanes.lane.get l).pool = [] := by
  have hclose : d.laneHalted l outcome cut = d.laneCloseAll l outcome := by
    rw [Dev.laneHalted, h]
  rw [hclose, Dev.laneCloseAll_lane d l outcome]
  exact ⟨rfl, rfl⟩

theorem Dev.laneCatch_noSeg (h : d.noSeg l) (hcur : (d.lanes.lane.get l).cur = none) : (d.laneCatch l).noSeg l := by
  rw [Dev.laneCatch, hcur]
  exact foldl_ind (P := Dev.noSeg l) h fun _ k he => Dev.laneFrame_noSeg he l k

theorem Dev.laneDrained_noSeg (h : d.noSeg l) (b : Nat) : (d.laneDrained l b).noSeg l :=
  (Dev.laneComplete_settles _ l).noSeg ((Dev.poolDrain_settles _ l _).noSeg (Dev.laneTail_noSeg h l b))

/-- Requests that end on a lane without a segment leave it without a window and a backlog. -/
theorem Dev.laneEndNow_of_noSeg (h : d.noSeg l) (hcur : (d.lanes.lane.get l).cur = none) :
    ((d.laneEndNow l outcome cut).lanes.lane.get l).win = none ∧ ((d.laneEndNow l outcome cut).lanes.lane.get l).pool = [] :=
  Dev.laneHalted_of_noSeg _ _ (Dev.laneDrained_noSeg ((Dev.laneComplete_settles _ l).noSeg (Dev.laneCatch_noSeg h hcur)) _)

end

/-! ### Disable and flush (R148, R159) -/

theorem Dev.dropShow_lanes (d : Dev) : d.dropShow.lanes = d.lanes := rfl

theorem Dev.laneDisableEff_enabled {d : Dev} {l : Nat} (h : d.flag REC_LCTL.EN l = true) :
    d.laneDisableEff l = (d.laneEndNow l 7 true).laneOff l := by
  rw [Dev.laneDisableEff, if_pos h]

theorem Dev.laneOff_lane (d : Dev) (l : Nat) : (d.laneOff l).lanes.lane.get l = { d.lanes.lane.get l with
    dropping := false, pool := if (d.lanes.lane.get l).cut.isSome then (d.lanes.lane.get l).pool else [] } := by
  rw [Dev.laneOff, Dev.dropShow_lanes, Dev.updLane_lane_same, Dev.putb_lanes]

theorem Dev.laneOff_off (d : Dev) (l : Nat) : (d.laneOff l).flag REC_LCTL.EN l = false := by
  rw [Dev.laneOff, Dev.dropShow, Dev.flag, Dev.putb, Dev.get_put_other _ _ _ _ _ _ _ _ _ _ (by decide) (by decide),
    Dev.updLane_get]
  exact Dev.flag_putb_whole _ _ _ _ _ _ (by decide)

section
variable {s : State} (hw : s.dev.bus.writes = []) (l : Fin 16)
include hw

theorem exec_laneDisable (hen : s.dev.flag REC_LCTL.EN l = true) :
    ∃ t, exec (.laneDisable l) s = .next t ∧ t.dev.flag REC_LCTL.EN l = false
      ∧ (t.dev.lanes.lane.get l).cur = none ∧ (t.dev.lanes.lane.get l).queue = []
      ∧ (t.dev.lanes.lane.get l).dropping = false
      ∧ ((s.dev.lanes.lane.get l).seg = none → (s.dev.lanes.lane.get l).cur = none →
        (t.dev.lanes.lane.get l).win = none ∧ (t.dev.lanes.lane.get l).pool = []) := by
  obtain ⟨hcur, hqueue⟩ := Dev.laneEndNow_noRequest s.dev l 7 true
  refine ⟨_, State.row_of_empty hw _, ?_⟩
  dsimp only
  rw [Dev.laneDisableEff_enabled hen, Dev.laneOff_lane]
  refine ⟨Dev.laneOff_off _ _, hcur, hqueue, rfl, fun hseg hidle => ?_⟩
  obtain ⟨hwin, hpool⟩ := Dev.laneEndNow_of_noSeg 7 true hseg hidle
  exact ⟨hwin, by rw [hpool, ite_self]⟩

theorem exec_laneFlush : ∃ t, exec (.laneFlush l) s = .next t ∧ t.dev.flag REC_LCTL.EN l = s.dev.flag REC_LCTL.EN l
    ∧ (t.dev.lanes.lane.get l).cur = none ∧ (t.dev.lanes.lane.get l).queue = []
    ∧ ((s.dev.lanes.lane.get l).seg = none → (s.dev.lanes.lane.get l).cur = none →
      (t.dev.lanes.lane.get l).win = none) := by
  obtain ⟨hcur, hqueue⟩ := Dev.laneEndNow_noRequest s.dev l 1 false
  exact ⟨_, State.row_of_empty hw _, Dev.frame_flag (Dev.laneFlushEff_frame l s.dev) _ _ _ _ (by decide), hcur, hqueue,
    fun hseg hidle => (Dev.laneEndNow_of_noSeg 1 false hseg hidle).1⟩

end

end Sys2Proof.Machine

/-! ## Requests are queued and get their windows (06_record_lanes_and_segments.md R149, R150, R151, R153, R155) -/

namespace Sys2Proof.Machine

/-! ### The queue (R149, R150) -/

theorem Dev.segmentRequestEff_accepted {d : Dev} {rq : Rq} {l : Nat} {v : W32}
    (h : (d.wr ⟨.REC_REQ_CTL, l, 0, 0⟩ (v.setWidth 64)).reqResult l (issuerOf rq) (d.get REC_REQ_PRE.PRE l)
      (d.get REC_REQ_POST.POST l) (d.get REC_REQ_REPEAT.REPEAT l) = 1) :
    d.segmentRequestEff rq l v = ((d.wr ⟨.REC_REQ_CTL, l, 0, 0⟩ (v.setWidth 64)).updLane l fun x => { x with
      queue := x.queue ++ [⟨(v.setWidth 64).toNat / 2 ^ REC_REQ_CTL.TU.lo % 2 ^ REC_REQ_CTL.TU.w, d.get REC_REQ_PRE.PRE l,
        d.get REC_REQ_POST.POST l, (v.setWidth 64).toNat / 2 ^ REC_REQ_CTL.TAG.lo % 2 ^ REC_REQ_CTL.TAG.w,
        max 1 (d.get REC_REQ_REPEAT.REPEAT l)⟩]
      actAt := if x.queue.isEmpty && x.cur.isNone && x.seg.isNone && x.actAt.isNone then some (d.now + 1) else x.actAt }).put
        REC_REQ_STAT.RESULT 1 l := by
  have htu := Dev.get_wr_eq d REC_REQ_CTL.TU (v.setWidth 64) l 0 0 (by decide)
  have htag := Dev.get_wr_eq d REC_REQ_CTL.TAG (v.setWidth 64) l 0 0 (by decide)
  have hother : ∀ f : Fld, f.g ≠ .REC_REQ_CTL → (d.wr ⟨.REC_REQ_CTL, l, 0, 0⟩ (v.setWidth 64)).get f l = d.get f l :=
    fun f hf => Dev.get_wr_family d _ _ _ _ hf
  rw [← htu, ← htag, Dev.segmentRequestEff]
  simp only [hother REC_REQ_PRE.PRE (by decide), hother REC_REQ_POST.POST (by decide), hother REC_REQ_REPEAT.REPEAT (by decide),
    Dev.laneRequest, h, if_true]
  rfl

theorem exec_segmentRequest {s : State} (hw : s.dev.bus.writes = []) (l : Fin 16) (rq : Rq) (v : W32)
    (h : (s.dev.wr ⟨.REC_REQ_CTL, l, 0, 0⟩ (v.setWidth 64)).reqResult l (issuerOf rq) (s.dev.get REC_REQ_PRE.PRE l)
      (s.dev.get REC_REQ_POST.POST l) (s.dev.get REC_REQ_REPEAT.REPEAT l) = 1) :
    ∃ t, exec (.segmentRequest rq l v) s = .next t ∧ t.dev.get REC_REQ_STAT.RESULT l = 1
      ∧ (t.dev.lanes.lane.get l).queue.length = (s.dev.lanes.lane.get l).queue.length + 1
      ∧ ((s.dev.lanes.lane.get l).queue = [] → (s.dev.lanes.lane.get l).cur = none → (s.dev.lanes.lane.get l).seg = none →
        (s.dev.lanes.lane.get l).actAt = none → (t.dev.lanes.lane.get l).actAt = some (s.dev.now + 1))
      ∧ (t.dev.lanes.lane.get l).queue.getLast? = some
          ⟨(v.setWidth 64).toNat / 2 ^ REC_REQ_CTL.TU.lo % 2 ^ REC_REQ_CTL.TU.w, s.dev.get REC_REQ_PRE.PRE l,
            s.dev.get REC_REQ_POST.POST l, (v.setWidth 64).toNat / 2 ^ REC_REQ_CTL.TAG.lo % 2 ^ REC_REQ_CTL.TAG.w,
            max 1 (s.dev.get REC_REQ_REPEAT.REPEAT l)⟩ := by
  refine ⟨_, State.row_of_empty hw _, ?_⟩
  dsimp only
  rw [Dev.segmentRequestEff_accepted h, Dev.put_lanes, Dev.updLane_lane_same, Dev.wr_lanes]
  refine ⟨Dev.get_put_lt _ _ _ _ (by decide) (by decide), List.length_append, fun hqueue hcur hseg hact => ?_,
    List.getLast?_concat⟩
  dsimp only
  rw [hqueue, hcur, hseg, hact]
  rfl

end Sys2Proof.Machine

/-! ## Windows are placed (06_record_lanes_and_segments.md R151, R153, R155) -/

namespace Sys2Proof.Machine

/-- The registers and the skeins of `d'` are those of `d`. -/
def Dev.sameSkeins (d d' : Dev) : Prop := d'.regs = d.regs ∧ d'.lanes.skein = d.lanes.skein

section
variable {d d' : Dev} (h : d.sameSkeins d')
include h

theorem Dev.sameSkeins.laneSkein (l : Nat) : d'.laneSkein l = d.laneSkein l := by
  rw [Dev.laneSkein, Dev.laneSkein, h.2, Dev.get_congr h.1]

theorem Dev.sameSkeins.granuleSize (l : Nat) : d'.granuleSize l = d.granuleSize l := by
  simp only [Dev.granuleSize, Dev.logicItems, Dev.get_congr h.1]

theorem Dev.sameSkeins.laneC (l : Nat) : d'.laneC l = d.laneC l := by
  rw [Dev.laneC, Dev.laneC, h.laneSkein, h.granuleSize]

theorem Dev.sameSkeins.laneE (l : Nat) : d'.laneE l = d.laneE l := by
  rw [Dev.laneE, Dev.laneE, h.laneC, h.granuleSize]

theorem Dev.sameSkeins.winSize (l : Nat) (q : Req) : d'.winSize l q = d.winSize l q := by
  rw [Dev.winSize, Dev.winSize, h.laneC]

end

/-- The sample frame that leaves the stage store next. Lean derives no equation for the definition, so `rw` needs this. -/
theorem Dev.stageFrame_eq (d : Dev) : d.stageFrame = max (d.now - 214) d.stageNext := rfl

/-- A window that is placed is the request's, and starts with the oldest granule of the backlog, or with the stage store. -/
theorem Dev.winPlace_lane (d : Dev) (l : Nat) (q : Req) (p : Nat) :
    (d.winPlace l q p).lanes.lane.get l = { (d.lanes.lane.get l).emptied with
      cur := some q
      win := some { origin := ((d.lanes.lane.get l).pool.head?.map Granule.k).getD d.stageFrame, alloc := p
                    w := d.winSize l q } } := by
  rw [Dev.winPlace, Dev.updLane_lane_same, Dev.put_lanes]
  cases (d.lanes.lane.get l).pool <;> rfl

/-- A STOP skein takes a window at the lane's next offset while it fits (R155). -/
theorem Dev.winTry_fits {d : Dev} {l : Nat} {q : Req} (hpol : (d.laneSkein l).policy = 0)
    (hfit : d.get REC_SKN_CP.BYTES (d.get REC_LCTL.SKEIN l) + d.winSize l q * d.granuleSize l ≤ d.laneE l) :
    d.winTry l q = d.winPlace l q (d.get REC_SKN_CP.BYTES (d.get REC_LCTL.SKEIN l)) := by
  rw [Dev.winTry]
  simp only [hpol, hfit, decide_true, if_true]

/-- A HOIST skein that holds no segment takes a window at once (R155). -/
theorem Dev.winTry_hoisted {d : Dev} {l : Nat} {q : Req} (hpol : (d.laneSkein l).policy = 2)
    (hheld : (d.laneSkein l).held = []) : ∃ p, d.winTry l q = d.winPlace l q p := by
  rw [Dev.winTry]
  simp only [hpol, hheld, List.flatMap_nil, List.any_nil, Bool.false_eq_true, if_false]
  exact ⟨_, rfl⟩

/-- The lane after its next request has left the queue. -/
def Dev.requestTaken (d : Dev) (l : Nat) (q : Req) (t : List Req) : Dev :=
  (d.updLane l fun x => { x with actAt := none }).updLane l fun x => { x with cur := some q, queue := t }

theorem Dev.requestTaken_sameSkeins (d : Dev) (l : Nat) (q : Req) (t : List Req) : d.sameSkeins (d.requestTaken l q t) :=
  ⟨rfl, rfl⟩

theorem Dev.requestTaken_lane (d : Dev) (l : Nat) (q : Req) (t : List Req) :
    (d.requestTaken l q t).lanes.lane.get l = { d.lanes.lane.get l with actAt := none, cur := some q, queue := t } := by
  rw [Dev.requestTaken, Dev.updLane_lane_same, Dev.updLane_lane_same]

/-- A lane at rest takes its next request and looks for a window for it (R151). -/
theorem Dev.laneActivate_next {d : Dev} {l : Nat} {q : Req} {t : List Req} (hqueue : (d.lanes.lane.get l).queue = q :: t)
    (hcur : (d.lanes.lane.get l).cur = none) (hseg : (d.lanes.lane.get l).seg = none) (hwin : (d.lanes.lane.get l).win = none)
    (hen : d.flag REC_LCTL.EN l = true) : d.laneActivate l = (d.requestTaken l q t).winTry l q := by
  rw [Dev.laneActivate]
  simp only [hqueue, hcur, hseg, hwin, hen, Option.isSome_none, Bool.not_true, Bool.or_false, Bool.false_eq_true, if_false]
  rfl

section
variable {s : State} (hw : s.dev.bus.writes = []) (l : Fin 16)
include hw

theorem exec_requestActive (k o : Nat) (q : Req) (hqueue : (s.dev.lanes.lane.get l).queue.head? = some q)
    (hact : (s.dev.lanes.lane.get l).actAt = some k)
    (ho : (((s.dev.lanes.lane.get l).pool.head?.map Granule.k).getD (max (max s.dev.now k - 214) s.dev.stageNext)) = o)
    (hcur : (s.dev.lanes.lane.get l).cur = none) (hseg : (s.dev.lanes.lane.get l).seg = none)
    (hwin : (s.dev.lanes.lane.get l).win = none) (hen : s.dev.flag REC_LCTL.EN l = true)
    (hpol : (s.dev.laneSkein l).policy = 0)
    (hfit : s.dev.get REC_SKN_CP.BYTES (s.dev.get REC_LCTL.SKEIN l) + s.dev.winSize l q * s.dev.granuleSize l ≤ s.dev.laneE l) :
    ∃ t, exec (.requestActive l) s = .next t ∧ (t.dev.lanes.lane.get l).cur = some q ∧ t.dev.now = max s.dev.now k
      ∧ (t.dev.lanes.lane.get l).queue = (s.dev.lanes.lane.get l).queue.tail
      ∧ (t.dev.lanes.lane.get l).win = some { origin := o, alloc := s.dev.get REC_SKN_CP.BYTES (s.dev.get REC_LCTL.SKEIN l)
                                              w := s.dev.winSize l q } := by
  obtain ⟨rest, hrest⟩ := List.head?_eq_some_iff.1 hqueue
  have hadv : s.dev.sameSkeins (s.dev.advanceTo k) := ⟨Dev.advanceTo_regs _ _, by rw [Dev.advanceTo_lanes]⟩
  have hsame : s.dev.sameSkeins ((s.dev.advanceTo k).requestTaken l q rest) := by
    obtain ⟨hregs, hskein⟩ := Dev.requestTaken_sameSkeins (s.dev.advanceTo k) l q rest
    exact ⟨hregs.trans hadv.1, hskein.trans hadv.2⟩
  have heff : s.dev.requestActiveEff l = ((s.dev.advanceTo k).requestTaken l q rest).winPlace l q
      (s.dev.get REC_SKN_CP.BYTES (s.dev.get REC_LCTL.SKEIN l)) := by
    rw [Dev.requestActiveEff, hact]
    dsimp only
    rw [Dev.laneActivate_next (t := rest) (by rw [Dev.advanceTo_lanes, hrest]) (by rw [Dev.advanceTo_lanes, hcur])
      (by rw [Dev.advanceTo_lanes, hseg]) (by rw [Dev.advanceTo_lanes, hwin]) (by rw [Dev.advanceTo_flag, hen]),
      Dev.winTry_fits (by rw [hsame.laneSkein, hpol])
        (by rw [Dev.get_congr hsame.1, Dev.get_congr hsame.1, hsame.winSize, hsame.granuleSize, hsame.laneE]; exact hfit),
      Dev.get_congr hsame.1, Dev.get_congr hsame.1]
  have horigin : ((s.dev.lanes.lane.get l).pool.head?.map Granule.k).getD
      ((s.dev.advanceTo k).requestTaken l q rest).stageFrame = o := by
    rw [← ho, Dev.stageFrame_eq, ← Dev.advanceTo_now s.dev k, ← Dev.advanceTo_stageNext s.dev k]
    rfl
  have hnow : (((s.dev.advanceTo k).requestTaken l q rest).winPlace l q
      (s.dev.get REC_SKN_CP.BYTES (s.dev.get REC_LCTL.SKEIN l))).now = (s.dev.advanceTo k).now := rfl
  refine ⟨_, State.row_of_empty hw _, ?_⟩
  dsimp only
  rw [heff, hnow, Dev.winPlace_lane, Dev.requestTaken_lane, Dev.advanceTo_lanes, Dev.advanceTo_now, hsame.winSize, hrest]
  exact ⟨rfl, rfl, rfl, by rw [← horigin]⟩

theorem exec_hoistWindowPlaced (w : Win) (hwin : (s.dev.lanes.lane.get l).win = some w) (hwait : w.waiting = true)
    (hcur : (s.dev.lanes.lane.get l).cur.isSome = true) (hpol : (s.dev.laneSkein l).policy = 2)
    (hheld : (s.dev.laneSkein l).held = []) :
    ∃ t, exec (.hoistWindowPlaced l) s = .next t ∧ ((t.dev.lanes.lane.get l).win.map Win.waiting) = some false
      ∧ (t.dev.lanes.lane.get l).cur = (s.dev.lanes.lane.get l).cur := by
  obtain ⟨q, hq⟩ := Option.isSome_iff_exists.1 hcur
  obtain ⟨p, hp⟩ := Dev.winTry_hoisted (q := q) hpol hheld
  have heff : s.dev.hoistWindowPlacedEff l = s.dev.winPlace l q p := by
    rw [Dev.hoistWindowPlacedEff, hq, hwin]
    dsimp only
    rw [if_pos hwait, hp]
  refine ⟨_, State.row_of_empty hw _, ?_⟩
  dsimp only
  rw [heff, Dev.winPlace_lane, hq]
  exact ⟨rfl, rfl⟩

end

end Sys2Proof.Machine

/-! ## A frame leaves the stage store (13_bench_and_quarry_memory.md R310) -/

namespace Sys2Proof.Machine

/-- The clock, the stage store and the frames that it holds are the same in `d'` as in `d`. -/
def Dev.sameStage (d d' : Dev) : Prop := d'.now = d.now ∧ d'.stageNext = d.stageNext ∧ d'.path = d.path

section
variable {d d' : Dev}

theorem Dev.sameStage_refl (d : Dev) : d.sameStage d := ⟨rfl, rfl, rfl⟩

theorem Dev.sameStage.trans {e : Dev} (h : d.sameStage d') (h' : d'.sameStage e) : d.sameStage e :=
  ⟨h'.1.trans h.1, h'.2.1.trans h.2.1, h'.2.2.trans h.2.2⟩

theorem Dev.sameStage_of_frame {ps : List Part} {rs : List Rg} (h : Dev.frame ps rs d d')
    (hp : ([.clock, .sampling, .paths].all fun p => ! ps.contains p) = true) : d.sameStage d' := by
  simp only [List.all_cons, List.all_nil, Bool.and_true, Bool.and_eq_true, Bool.not_eq_true', List.contains_eq_mem,
    decide_eq_false_iff_not] at hp
  exact ⟨h.1 .clock hp.1, h.1 .sampling hp.2.1, h.1 .paths hp.2.2⟩

theorem Dev.sameStage_foldl {α : Type} {f : Dev → α → Dev} (h : ∀ (d : Dev) x, d.sameStage (f d x)) (xs : List α) (d : Dev) :
    d.sameStage (xs.foldl f d) := foldl_ind (P := d.sameStage) (Dev.sameStage_refl d) fun e x he => he.trans (h e x)

end

/-- The lanes take their turns in frame `m`, with the stores of some stalled. -/
def Dev.stageTurns (d : Dev) (m stalled : Nat) : Dev :=
  let d := d.advanceTo m
  (List.range 16).foldl (fun d l => d.laneTurn l) (d.setLanes { d.lanes with stalled := stalled })

/-- What lanes and tally make of frame `k` when it leaves the stage store. -/
def Dev.stageServes (d : Dev) (k : Nat) : Dev :=
  let d := (List.range 16).foldl (fun d u => d.decRateChange k u) d
  let d := (List.range 16).foldl (fun d l => ((d.laneFrame k l).laneDecLoss k l).laneWaits l) d
  (List.range 4).foldl (fun d c =>
    let f := ((d.path.get c).delay.find? fun f => f.k == k).getD { k := k, valid := false }
    (List.range 8).foldl (fun d j => d.tallyFrame c f j) d) d

/-- The event inputs let go of the frames that nothing asks for any more. -/
def Dev.logicShifts (d : Dev) (k : Nat) : Dev :=
  (List.range 8).foldl (fun d g => (d.setLogic (d.logic.upd g fun l => l.filter fun f => decide (k < f.k + 520)))) d

def Dev.stageShifts (d : Dev) (k : Nat) : Dev := (List.range 4).foldl (fun d c => d.stageShift k c) d

theorem Dev.stageStoreFrameEff_due {d : Dev} {k : Nat} (stalled : BitVec 16) (h : d.stageNext ≤ k) :
    d.stageStoreFrameEff k stalled = (((((d.stageTurns (k + 214) stalled.toNat).setStageNext (k + 1)).stageServes k).stageShifts
      k).logicShifts k).flowUpdate := if_neg (Nat.not_lt.2 h)

theorem Dev.stageTurns_now (d : Dev) (m stalled : Nat) : (d.stageTurns m stalled).now = max d.now m :=
  (Dev.sameStage_foldl (fun d l => Dev.sameStage_of_frame (d.laneTurn_frame l) (by decide)) _ _).1.trans (d.advanceTo_now m)

theorem Dev.stageServes_stage (d : Dev) (k : Nat) : d.sameStage (d.stageServes k) := by
  have hframe : ∀ (e : Dev) (l : Nat), e.sameStage (((e.laneFrame k l).laneDecLoss k l).laneWaits l) := fun e l =>
    ((Dev.sameStage_of_frame (e.laneFrame_frame k l) (by decide)).trans
      (Dev.sameStage_of_frame (Dev.laneDecLoss_frame _ k l) (by decide))).trans
        (Dev.sameStage_of_frame (Dev.laneWaits_frame _ l) (by decide))
  have htally : ∀ (c : Nat) (f : Frame) (e : Dev), e.sameStage ((List.range 8).foldl (fun d j => d.tallyFrame c f j) e) :=
    fun c f => Dev.sameStage_foldl (fun e j => Dev.sameStage_of_frame (e.tallyFrame_frame c f j) (by decide)) _
  refine Dev.sameStage.trans (Dev.sameStage.trans ?_ (Dev.sameStage_foldl hframe _ _))
    (Dev.sameStage_foldl (fun e c => htally c _ e) _ _)
  exact Dev.sameStage_foldl (fun e u => Dev.sameStage_of_frame (e.decRateChange_frame k u) (by decide)) _ _

theorem Dev.logicShifts_stage (d : Dev) (k : Nat) : d.sameStage (d.logicShifts k) :=
  Dev.sameStage_foldl (f := fun d g => d.setLogic (d.logic.upd g fun l => l.filter fun f => decide (k < f.k + 520)))
    (fun _ _ => ⟨rfl, rfl, rfl⟩) _ _

theorem Dev.stageShifts_frame (d : Dev) (k : Nat) : Dev.frame [.paths] [] d (d.stageShifts k) :=
  Dev.frame_foldl (fun d c => Dev.stageShift_frame d k c) _ _

/-- A path keeps only the later frames. -/
theorem Dev.stageShift_delay (d : Dev) (k c : Nat) : ∀ f ∈ ((d.stageShift k c).path.get c).delay, k < f.k := by
  intro f hf
  rw [Dev.stageShift, Dev.setPath_path, Tab.get_upd_same] at hf
  exact of_decide_eq_true (List.mem_filter.1 hf).2

theorem Dev.stageShift_path_ne (d : Dev) (k : Nat) {c m : Nat} (h : m ≠ c) :
    (d.stageShift k c).path.get m = d.path.get m := by
  rw [Dev.stageShift, Dev.setPath_path, Tab.get_upd_ne _ h]

/-- After the shift no path holds the frame or an earlier one. -/
theorem Dev.stageShifts_delay (d : Dev) (k : Nat) : ∀ c, c < 4 → ∀ f ∈ ((d.stageShifts k).path.get c).delay, k < f.k :=
  foldl_range_ind (fun i (e : Dev) => ∀ c, c < i → ∀ f ∈ (e.path.get c).delay, k < f.k) nofun fun i e _ he c hc => by
    by_cases hci : c = i
    · rw [hci]
      exact e.stageShift_delay k i
    · rw [e.stageShift_path_ne k hci]
      exact he c (by omega)

theorem exec_stageStoreFrame {s : State} (hw : s.dev.bus.writes = []) (k : Nat) (stalled : BitVec 16)
    (h : s.dev.stageNext ≤ k) :
    ∃ t, exec (.stageStoreFrame k stalled) s = .next t ∧ t.dev.now = max s.dev.now (k + 214) ∧ t.dev.stageNext = k + 1
      ∧ (∀ c, c < 4 → ∀ f ∈ (t.dev.path.get c).delay, k < f.k) := by
  have hturns := s.dev.stageTurns_now (k + 214) stalled.toNat
  have heff := Dev.stageStoreFrameEff_due stalled h
  generalize k + 214 = m at *
  obtain ⟨hnow, hnext, _⟩ := ((s.dev.stageTurns m stalled.toNat).setStageNext (k + 1)).stageServes_stage k
  generalize Dev.stageServes _ k = served at *
  have hshift := served.stageShifts_frame k
  obtain ⟨hclock, hstage, hpath⟩ := ((served.stageShifts k).logicShifts_stage k).trans
    (Dev.sameStage_of_frame (Dev.flowUpdate_frame _) (by decide))
  refine ⟨_, State.row_of_empty hw _, ?_⟩
  dsimp only
  rw [heff, hclock, hstage, hpath]
  exact ⟨(hshift.1 .clock (by decide)).trans (hnow.trans hturns), (hshift.1 .sampling (by decide)).trans hnext,
    served.stageShifts_delay k⟩

end Sys2Proof.Machine

/-! ## Segments end and leave their records (06_record_lanes_and_segments.md R154, R159, R163, R165) -/

namespace Sys2Proof.Machine

/-! ### The end of a complete segment (R159) -/

/-- A segment that ends leaves its record behind the others that wait, and frees the window. -/
theorem Dev.laneEndSeg_lane {d : Dev} {l : Nat} {w : Win} {g : Seg} (how : Nat) (hwin : (d.lanes.lane.get l).win = some w)
    (hseg : (d.lanes.lane.get l).seg = some g) : ∃ (r : Rec) (k : Nat), r.segnum = g.segnum
      ∧ (d.laneEndSeg l how).lanes.lane.get l = { (d.lanes.lane.get l).emptied with
          seg := none, win := none, cut := none, await := (d.lanes.lane.get l).await ++ [r], actAt := some k } := by
  rw [Dev.laneEndSeg]
  simp only [hwin, hseg]
  rw [Dev.skeinOldest_lanes, Dev.unitSegEnd_lane, Dev.updLane_lane_same, Dev.updSkein_lane, Dev.heldSync_lane]
  exact ⟨_, _, rfl, rfl⟩

/-- The POST granules of a segment are complete when its window has them. -/
theorem Lane.complete_of_post {x : Lane} {w : Win} {g : Seg} {t : Nat} (hwin : x.win = some w) (hseg : x.seg = some g)
    (ht : g.t = some t) (hpost : g.post ≠ openEnded) (h : t + g.post ≤ w.n) : x.complete = true := by
  simp only [Lane.complete, hwin, hseg, ht, bne_iff_ne.2 hpost, h, decide_true, Bool.and_true]

/-- One repeat of a request is used. -/
def Req.used (q : Req) : Option Req := if q.left ≤ 1 then none else some { q with left := q.left - 1 }

theorem Req.used_left (q : Req) : (q.used.map Req.left).getD 0 = q.left - 1 := by
  rw [Req.used]
  split
  · simp only [Option.map_none, Option.getD_none]
    omega
  · rfl

/-- A lane that has come to rest keeps all but its backlog and what becomes active next. -/
theorem Dev.laneRested_lane (d : Dev) (l : Nat) : ∃ a p, (d.laneRested l).lanes.lane.get l =
    { d.lanes.lane.get l with actAt := a, pool := p } := by
  rw [Dev.laneRested]
  split
  · exact ⟨_, _, Dev.updLane_lane_same _ _ _⟩
  · exact ⟨_, _, rfl⟩

/-- What a lane is after a complete segment without a mask stop. -/
theorem Dev.laneComplete_lane {d : Dev} {l : Nat} {q : Req} {w : Win} {g : Seg} (hcur : (d.lanes.lane.get l).cur = some q)
    (hwin : (d.lanes.lane.get l).win = some w) (hseg : (d.lanes.lane.get l).seg = some g)
    (hstop : (d.lanes.lane.get l).maskStop = false) (hdone : (d.lanes.lane.get l).complete = true) :
    ∃ (r : Rec) (k : Option Nat) (p : List Granule), r.segnum = g.segnum
      ∧ (d.laneComplete l).lanes.lane.get l = { (d.lanes.lane.get l).emptied with
          cur := q.used, seg := none, win := none, cut := none, await := (d.lanes.lane.get l).await ++ [r], actAt := k
          pool := p } := by
  obtain ⟨r, k, hr, hend⟩ := Dev.laneEndSeg_lane 0 hwin hseg
  have hused : ((d.laneEndSeg l 0).updLane l fun x => { x with cur := match x.cur with
      | some q => if q.left ≤ 1 then none else some { q with left := q.left - 1 }
      | none => none }).lanes.lane.get l = { (d.lanes.lane.get l).emptied with
        cur := q.used, seg := none, win := none, cut := none, await := (d.lanes.lane.get l).await ++ [r], actAt := some k } := by
    rw [Dev.updLane_lane_same, hend]
    simp only [Lane.emptied, hcur]
    rfl
  rw [Dev.laneComplete, if_pos hdone]
  generalize Dev.updLane _ l _ = e at hused
  have hrun : e.maskStopDone l = e := by
    rw [Dev.maskStopDone, hused]
    simp only [Lane.emptied, hstop, Bool.false_and, Bool.false_eq_true, if_false]
  obtain ⟨a, p, hrest⟩ := e.laneRested_lane l
  refine ⟨r, a, p, hr, ?_⟩
  dsimp only
  rw [hrun, hrest, hused]

theorem exec_segmentEnd {s : State} (hw : s.dev.bus.writes = []) (l : Fin 16) (g : Seg)
    (hseg : (s.dev.lanes.lane.get l).seg = some g) (hcur : (s.dev.lanes.lane.get l).cur.isSome = true)
    (hwin : (s.dev.lanes.lane.get l).win.isSome = true) (ht : g.t.isSome = true) (hpost : g.post ≠ openEnded)
    (hn : g.t.getD 0 + g.post ≤ ((s.dev.lanes.lane.get l).win.map Win.n).getD 0)
    (hstop : (s.dev.lanes.lane.get l).maskStop = false) :
    ∃ t, exec (.segmentEnd l) s = .next t ∧ (t.dev.lanes.lane.get l).seg = none ∧ (t.dev.lanes.lane.get l).win = none
      ∧ (t.dev.lanes.lane.get l).await.length = (s.dev.lanes.lane.get l).await.length + 1
      ∧ ((t.dev.lanes.lane.get l).await.getLast?.map Rec.segnum) = some g.segnum
      ∧ ((t.dev.lanes.lane.get l).cur.map Req.left).getD 0 = ((s.dev.lanes.lane.get l).cur.map Req.left).getD 0 - 1 := by
  obtain ⟨q, hq⟩ := Option.isSome_iff_exists.1 hcur
  obtain ⟨w, hwindow⟩ := Option.isSome_iff_exists.1 hwin
  obtain ⟨i, hi⟩ := Option.isSome_iff_exists.1 ht
  rw [hwindow, hi] at hn
  obtain ⟨r, k, p, hr, hlane⟩ := Dev.laneComplete_lane hq hwindow hseg hstop (Lane.complete_of_post hwindow hseg hi hpost hn)
  refine ⟨_, State.row_of_empty hw _, ?_⟩
  dsimp only
  rw [Dev.segmentEndEff, hlane, hq]
  refine ⟨rfl, rfl, List.length_append, ?_, q.used_left⟩
  rw [List.getLast?_concat, Option.map_some, hr]

/-! ### Records are placed (R163, R165) -/

theorem Dev.recPlace_done (d : Dev) (r : Rec) : (d.recPlace r).lanes.done = d.lanes.done ++ [r] := by
  rw [Dev.recPlace, Dev.wakeRecord_lanes]
  rfl

theorem Dev.recPlace_regs (d : Dev) (r : Rec) : (d.recPlace r).regs = d.regs := by
  refine foldl_keeps Dev.regs _ (fun e n => ?_) _ _
  split
  · split
    · split <;> rfl
    · rfl
  · rfl

/-- A record that is placed leaves the records that wait. -/
theorem Dev.recPlace_waiting (d : Dev) (r : Rec) (m : Nat) : ((d.recPlace r).lanes.lane.get m).await = (d.lanes.lane.get m).await
    ∧ ((d.recPlace r).lanes.lane.get m).noEntry = (d.lanes.lane.get m).noEntry := by
  rw [Dev.recPlace, Dev.wakeRecord_lanes]
  exact Dev.updLane_lanes (fun x y => y.await = x.await ∧ y.noEntry = x.noEntry) (fun _ => ⟨rfl, rfl⟩)
    (d := d.setLanes { d.lanes with done := d.lanes.done ++ [r] }) ⟨rfl, rfl⟩ m

theorem Dev.closesOut_of_empty {d : Dev} {l : Nat} (h : (d.lanes.lane.get l).await = []) : d.closesOut l = d := by
  rw [Dev.closesOut, h]
  rfl

/-- A CLOSE record that waits alone is placed. -/
theorem Dev.closesOut_single {d : Dev} {l : Nat} {r : Rec} (h : (d.lanes.lane.get l).await = [r]) (hr : r.kind = 2) :
    d.closesOut l = (d.updLane l fun x => { x with await := [] }).recPlace r := by
  rw [Dev.closesOut, h, List.length_singleton, Dev.closesPlace, h]
  dsimp only
  rw [if_pos hr, Dev.closesPlace]

/-- The state of a segment's record that is acknowledged: it waits no more, its held segment has it, and it is counted. -/
def Dev.recordTaken (d : Dev) (l : Nat) (r : Rec) : Dev :=
  ((d.updLane l fun x => { x with await := [] }).updSkein r.skein fun y => { y with held := y.held.map fun h =>
    if h.record.segnum = r.segnum ∧ h.record.lane = l then { h with record := r, recorded := true } else h }).bump
      REC_CNT_SEG.COUNT l

/-- A TRUNCATED record is counted and raises its event as well. -/
def Dev.truncationCounted (d : Dev) (l : Nat) (r : Rec) : Dev :=
  if r.truncated then (d.count REC_CNT_TRUNC.COUNT l).raise (163 + 4 * l) else d

theorem Dev.truncationCounted_lanes (d : Dev) (l : Nat) (r : Rec) : (d.truncationCounted l r).lanes = d.lanes :=
  ite_ind (P := fun e => e.lanes = d.lanes) (by rw [Dev.raise_lanes, Dev.count_lanes]) rfl

theorem Dev.truncationCounted_segments (d : Dev) (l : Nat) (r : Rec) :
    (d.truncationCounted l r).get REC_CNT_SEG.COUNT l = d.get REC_CNT_SEG.COUNT l :=
  ite_ind (P := fun e => e.get REC_CNT_SEG.COUNT l = d.get REC_CNT_SEG.COUNT l)
    (by rw [Dev.raise_get, Dev.get_count_other _ _ _ _ _ _ _ _ _ (by decide)]) rfl

theorem Dev.segmentRecordEff_single {d : Dev} {l : Nat} {r : Rec} (h : (d.lanes.lane.get l).await = [r]) (hr : r.kind = 0)
    (hverdict : d.verdictDue l r = false) :
    d.segmentRecordEff l = (((d.recordTaken l r).truncationCounted l r).recPlace r).closesOut l := by
  rw [Dev.segmentRecordEff, h]
  dsimp only
  rw [if_neg (by simp [hr, hverdict])]
  rfl

section
variable {s : State} (hw : s.dev.bus.writes = []) (l : Fin 16)
include hw

theorem exec_segmentRecord (r : Rec) (hhead : (s.dev.lanes.lane.get l).await.head? = some r)
    (htail : (s.dev.lanes.lane.get l).await.tail = []) (hr : r.kind = 0) (hverdict : s.dev.verdictDue l r = false) :
    ∃ t, exec (.segmentRecord l) s = .next t ∧ t.dev.lanes.done = s.dev.lanes.done ++ [r]
      ∧ t.dev.get REC_CNT_SEG.COUNT l = (s.dev.get REC_CNT_SEG.COUNT l + 1) % 2 ^ REC_CNT_SEG.COUNT.w
      ∧ (t.dev.lanes.lane.get l).await = [] := by
  have hawait : (s.dev.lanes.lane.get l).await = [r] := by
    rw [List.eq_cons_of_mem_head? (Option.mem_def.2 hhead), htail]
  have hempty : (((s.dev.recordTaken l r).truncationCounted l r).lanes.lane.get l).await = [] := by
    rw [Dev.truncationCounted_lanes]
    rw [Dev.recordTaken, Dev.bump_lanes, Dev.updSkein_lane, Dev.updLane_lane_same]
  have hplaced := (Dev.recPlace_waiting ((s.dev.recordTaken l r).truncationCounted l r) r l).1.trans hempty
  refine ⟨_, State.row_of_empty hw _, ?_⟩
  dsimp only
  rw [Dev.segmentRecordEff_single hawait hr hverdict, Dev.closesOut_of_empty hplaced, Dev.recPlace_done,
    Dev.truncationCounted_lanes]
  refine ⟨rfl, ?_, hplaced⟩
  rw [Dev.frame_get (Dev.recPlace_frame _ _) _ _ _ _ (by decide), Dev.truncationCounted_segments, Dev.recordTaken, Dev.bump,
    Dev.get_put_eq _ _ _ _ _ _ (by decide)]
  rfl

theorem exec_closeEntryFreed (r : Rec) (hhead : (s.dev.lanes.lane.get l).noEntry.head? = some r)
    (hawait : (s.dev.lanes.lane.get l).await = []) (hr : r.kind = 2) (hroom : s.dev.rbUsed < recordEntries) :
    ∃ t, exec (.closeEntryFreed l) s = .next t
      ∧ (t.dev.lanes.lane.get l).noEntry = (s.dev.lanes.lane.get l).noEntry.tail
      ∧ t.dev.lanes.done = s.dev.lanes.done ++ [r] ∧ t.dev.regs = s.dev.regs := by
  obtain ⟨rest, hrest⟩ := List.head?_eq_some_iff.1 hhead
  have heff : s.dev.closeEntryFreedEff l = ((s.dev.updLane l fun x =>
      { x with noEntry := rest, await := x.await ++ [r] }).updLane l fun x => { x with await := [] }).recPlace r := by
    rw [Dev.closeEntryFreedEff, hrest]
    dsimp only
    rw [if_pos hroom, Dev.closesOut_single (by rw [Dev.updLane_lane_same, hawait]; rfl) hr]
  refine ⟨_, State.row_of_empty hw _, ?_⟩
  dsimp only
  rw [heff, (Dev.recPlace_waiting _ r l).2, Dev.updLane_lane_same, Dev.updLane_lane_same, hrest, Dev.recPlace_done]
  exact ⟨rfl, rfl, Dev.recPlace_regs _ r⟩

end

/-! ### The drain (R163) -/

/-- A record drains in the first free frame from the one it may start in. -/
theorem Dev.nextDrain_ge (d : Dev) (k : Nat) : k ≤ d.nextDrain k := by
  rw [Dev.nextDrain]
  split <;> omega

/-- The frame from which the oldest record may drain: one drains in a frame. -/
def Dev.recordDrainStart (d : Dev) : Nat := match d.lanes.lastDrain with
  | some k => max d.now (k + 1)
  | none => d.now

theorem Dev.recordDrainEff_cons {d : Dev} {r : Rec} {rest : List Rec} (h : d.lanes.done = r :: rest) :
    d.recordDrainEff = (((d.advanceTo (d.nextDrain d.recordDrainStart)).setLanes
      { (d.advanceTo (d.nextDrain d.recordDrainStart)).lanes with
        done := rest, lastDrain := some (d.advanceTo (d.nextDrain d.recordDrainStart)).now })).post
      (d.get REC_LQUEUE.Q r.lane) 2 0 r.lane r.bytes := by
  rw [Dev.recordDrainEff, h, ← Dev.advanceTo_get d (d.nextDrain d.recordDrainStart)]
  rfl

theorem exec_recordDrain {s : State} (hw : s.dev.bus.writes = []) (r : Rec) (hhead : s.dev.lanes.done.head? = some r) :
    ∃ t, exec .recordDrain s = .next t ∧ t.dev.lanes.done = s.dev.lanes.done.tail
      ∧ t.dev.lanes.lastDrain = some t.dev.now ∧ s.dev.now ≤ t.dev.now
      ∧ (∀ k, s.dev.lanes.lastDrain = some k → k < t.dev.now) := by
  obtain ⟨rest, hrest⟩ := List.head?_eq_some_iff.1 hhead
  have hge := s.dev.nextDrain_ge s.dev.recordDrainStart
  refine ⟨_, State.row_of_empty hw _, ?_⟩
  dsimp only
  rw [Dev.recordDrainEff_cons hrest, Dev.post_lanes, Dev.post_now, Dev.setLanes_lanes, Dev.setLanes_now, Dev.advanceTo_now, hrest]
  refine ⟨rfl, rfl, Nat.le_max_left _ _, fun k hk => ?_⟩
  rw [Dev.recordDrainStart, hk] at hge ⊢
  dsimp only at hge ⊢
  omega

/-! ### The end of a drop run (R310) -/

/-- A drop run ends at a lane without a backlog: what has waited comes to rest, and the lane drops no more. -/
theorem Dev.dropRunEndEff_empty {d : Dev} {l : Nat} (hdrop : (d.lanes.lane.get l).dropping = true)
    (hpool : (d.lanes.lane.get l).pool = []) :
    d.dropRunEndEff l = ((d.poolFlow l 1).updLane l fun x => { x with dropping := false }).dropShow := by
  have hempty := (d.poolFlow_settles l hpool l).pool hpool
  rw [Dev.dropRunEndEff]
  simp only [hdrop, hpool, List.length_nil, Nat.zero_add, hempty, List.isEmpty_nil, Bool.not_true, Bool.false_eq_true, if_false,
    if_true]

/-- The flow control leaves BEN_STAT.DROPPING to the lanes. -/
theorem Dev.flowUpdate_dropping (d : Dev) : d.flowUpdate.flag BEN_STAT.DROPPING = d.flag BEN_STAT.DROPPING := by
  have hwarn : ∀ (c b : Bool), ((if c then d.raise 464 else d).putb BEN_STAT.WARN b).flag BEN_STAT.DROPPING
      = d.flag BEN_STAT.DROPPING := fun c b => by
    cases c <;> simp (disch := decide) only [Dev.flag, Dev.putb, Dev.get_put_other, Dev.raise_get, if_true, if_false,
      Bool.false_eq_true]
  have hpanic : ∀ (e : Dev) (x : Bench) (b : Bool) (n : Nat), (((e.setBen x).putb BEN_STAT.PANIC b).raise n).flag
      BEN_STAT.DROPPING = e.flag BEN_STAT.DROPPING := fun e x b n => by
    simp (disch := decide) only [Dev.flag, Dev.putb, Dev.get_put_other, Dev.raise_get, Dev.setBen_get]
  rw [Dev.flowUpdate]
  refine ite_ind (P := fun e => e.flag BEN_STAT.DROPPING = d.flag BEN_STAT.DROPPING) ?_ ?_
  · refine ite_ind (P := fun e => e.flag BEN_STAT.DROPPING = d.flag BEN_STAT.DROPPING) (hwarn _ _) ?_
    rw [hpanic, hwarn]
  · refine ite_ind (P := fun e => e.flag BEN_STAT.DROPPING = d.flag BEN_STAT.DROPPING) ?_ (hwarn _ _)
    rw [hpanic, hwarn]

theorem exec_dropRunEnd {s : State} (hw : s.dev.bus.writes = []) (l : Fin 16)
    (hdrop : (s.dev.lanes.lane.get l).dropping = true) (hpool : (s.dev.lanes.lane.get l).pool = [])
    (hothers : ∀ m, m < 16 → m ≠ l.val → (s.dev.lanes.lane.get m).dropping = false) :
    ∃ t, exec (.dropRunEnd l) s = .next t ∧ (t.dev.lanes.lane.get l).dropping = false
      ∧ t.dev.flag BEN_STAT.DROPPING = false := by
  have hover : ∀ m, m < 16 →
      (((s.dev.poolFlow l 1).updLane l fun x => { x with dropping := false }).lanes.lane.get m).dropping = false := by
    intro m hm
    by_cases hml : m = l.val
    · rw [hml, Dev.updLane_lane_same]
    · rw [Dev.updLane_lane_ne _ hml, (s.dev.poolFlow_settles l hpool m).dropping, hothers m hm hml]
  have hlanes : ∀ e : Dev, e.flowUpdate.lanes = e.lanes := fun e => (Dev.flowUpdate_frame e).1 .lanes (by decide)
  refine ⟨_, State.row_of_empty hw fun d => (d.dropRunEndEff l).flowUpdate, ?_⟩
  dsimp only
  rw [Dev.dropRunEndEff_empty hdrop hpool, hlanes, Dev.dropShow_lanes, Dev.flowUpdate_dropping, Dev.dropShow,
    Dev.flag_putb_whole _ _ _ _ _ _ (by decide)]
  exact ⟨hover l l.isLt, List.any_eq_false.2 fun m hm => by rw [hover m (List.mem_range.1 hm)]; exact Bool.false_ne_true⟩

/-- Settles O26: each command by what its effect leaves of the lane, its records and its registers. -/
theorem laneCommandsAct : Obligations.LaneCommandsAct := fun _ l hw =>
  ⟨exec_laneEnable_passes hw l, exec_laneEnable_fails hw l, exec_laneDisable hw l, exec_laneFlush hw l,
    exec_segmentRequest hw l, exec_requestActive hw l, exec_hoistWindowPlaced hw l, exec_stageStoreFrame hw,
    exec_segmentEnd hw l, exec_segmentRecord hw l, exec_recordDrain hw, exec_closeEntryFreed hw l, exec_dropRunEnd hw l⟩

end Sys2Proof.Machine
